-- ==== Sys2Proof/Word.lean ====
section
/-! DEFINITION. The widths of the TY9600's registers and wire formats, and the plainest
arithmetic on numbers and byte strings that every chapter of spec/ uses (R3 to R5). -/

namespace Sys2Proof.Machine

/-- A register: 32 bits (R4). -/
abbrev Word := BitVec 32
/-- One byte of a wire or persistent format (R4). -/
abbrev Byte := BitVec 8

/-- Sparse data by number: pairs in strictly rising key order. -/
abbrev Map (α : Type) := List (Nat × α)

/-- The stored registers, by address (R441). -/
abbrev RegFile := Map Word

/-- The values of an event payload (R332): width in bytes and value, in order. -/
abbrev Payload := List (Nat × Int)

/-- A payload value of 1 byte: state, kind, reason, flag, slot, quality (R332). -/
def b1 (v : Nat) : Nat × Int := (1, v)
/-- A payload value of 2 bytes: node, point, engine, cause, … (R332). -/
def b2 (v : Nat) : Nat × Int := (2, v)
/-- A payload value of 4 bytes: meter index, sequence, count (R332). -/
def b4 (v : Nat) : Nat × Int := (4, v)
/-- A payload value of 8 bytes: pace, device time, EUI-64, or any kind R332 does not list. -/
def b8 (v : Int) : Nat × Int := (8, v)

end Sys2Proof.Machine
end

