-- ==== Sys2Proof/Types/Base.lean ====
section
/-! DEFINITION. Data shared by the chapters: TLVs (R52), event posts (R329), and the requester of
a register access (R444). -/

namespace Sys2Proof.Machine

/-- A TLV of a waybill body (R52): its type and its value without padding. -/
structure Tlv where
  type : Nat
  value : List Byte
  deriving DecidableEq, Repr

/-- Who accesses a register (R444): a host context, the SPI host port acting with the rights of
its bound context, the USB service seat, or an internal reader. -/
inductive Requester where
  | context (c : Nat)
  | spi
  | seat
  | internal (n : Nat)
  deriving DecidableEq, Repr

/-- A post of the event queue (R329): code and payload, with the stamps taken when it was posted.
`lostFor` names the (context, notice kind) pairs whose notice was posted together with it and not
retained (R469). -/
structure Post where
  code : Nat
  payload : Payload
  opSeconds : Nat
  pwrCycles : Nat
  lostFor : List (Nat × Nat)
  deriving DecidableEq, Repr

end Sys2Proof.Machine
end

