-- ==== Sys2Proof/Types/Evt.lean ====
section
/-! DEFINITION. Data of chapter 16: event records and the recorder. -/

namespace Sys2Proof.Machine

/-- An event record (R331). LENGTH and CRC follow from the rest. -/
structure EvtRecord where
  code : Nat
  seq : Word
  opSeconds : Nat
  pwrCycles : Nat
  rep : Nat
  lastSeconds : Nat
  payload : Payload
  deriving DecidableEq, Repr

/-- The event recorder (R329 to R339). -/
structure EvtState where
  /-- The event queue, oldest first. -/
  queue : List Post := []
  /-- The open record. -/
  openRec : Option EvtRecord := none
  /-- The two MRAM copies of the open record, none when cleared or invalid (R333, R335). -/
  copies : Option EvtRecord × Option EvtRecord := (none, none)
  /-- The MRAM sequence shows that a record is open (R335). -/
  seqOpen : Bool := false
  /-- Closed records of the EVENTS namespace, oldest first. -/
  log : List EvtRecord := []
  /-- Appends to it that are not durable: the pace and SEQ (R334). -/
  appended : List (Nat × Word) := []
  /-- SEQ of the newest record opened, in MRAM (R331). -/
  seq : Word := 0
  /-- Operating seconds, 48 bits (R330). -/
  opSeconds : BitVec 48 := 0
  /-- Power-cycle count (R330). -/
  pwrCycles : Word := 0
  /-- Discards since the last EV_EVT_DROPPED (R329). -/
  drops : Nat := 0
  /-- Opening notices sent: code, key and pace (R339). -/
  notices : List (Nat × Payload × Nat) := []
  /-- The boundary of a whole second has been reached and its second not yet counted (R330). -/
  secondDue : Bool := false
  deriving DecidableEq, Repr

/-- The appends made before a pace are durable, and an MRAM copy of such a record is cleared (R334). -/
def EvtState.durable (e : EvtState) (upto : Nat) : EvtState :=
  let done := (e.appended.filter fun a => decide (a.1 < upto)).map fun a => a.2
  let drop (c : Option EvtRecord) : Option EvtRecord := c.filter fun r => !done.contains r.seq
  { e with
    appended := e.appended.filter fun a => !decide (a.1 < upto)
    copies := (drop e.copies.1, drop e.copies.2)
    seqOpen := e.seqOpen && (e.openRec.isSome || !done.contains e.seq) }

end Sys2Proof.Machine
end

