-- ==== Sys2Proof/Types/Fw.lean ====
section
/-! DEFINITION. Data of chapter 18: transfers of firmware images, the boot record, meter images and
campaigns. -/

namespace Sys2Proof.Machine

/-- A transfer (R367, R368, R378): KIND, the target (sealed slot, or meter image slot), the file blocks
held, and whether checks 1 to 6 have passed and the commit has. -/
structure FwTransfer where
  kind : Nat
  target : Nat
  blocks : Map (List Byte)
  verified : Bool
  ready : Bool
  deriving DecidableEq, Repr

/-- A boot record with the transfer record (R371): SEQ, ACTIVE, the states of slots A and B, STAGE, the flags, TRIAL_START,
and KIND, sealed target slot, F, blocks held and the SHA-256 of the manifest header of the transfer. -/
structure BootRecord where
  seq : Nat
  active : Nat
  slotA : Nat
  slotB : Nat
  stage : Nat
  actPending : Bool
  trial : Bool
  trialStart : Nat
  kind : Nat
  target : Nat
  total : Nat
  held : Nat
  header : BitVec 256
  /-- The copy passes its CRC-32C. -/
  ok : Bool
  deriving DecidableEq, Repr

/-- Commit checks that run in pieces (R370): the image slot, or none for the own transfer, the item that waits for them,
and the boundary at which they are complete. -/
structure FwCommitJob where
  image : Option Nat
  task : Nat
  item : Nat
  due : Nat
  deriving DecidableEq, Repr

/-- A target of a campaign (R378, R383). `missing` holds the blocks the meter last reported missing. -/
structure CampTarget where
  state : Nat := 0
  cause : Nat := 0
  missing : BitVec 2048
  version : Nat := 0
  /-- Rounds completed when the meter was offered the image. -/
  offered : Nat := 0
  /-- An FW_STATUS has arrived. -/
  heard : Bool := false
  deriving DecidableEq, Repr

/-- A campaign (R378 to R383). -/
structure Campaign where
  image : Nat
  media : Nat
  start : Nat
  activate : Nat
  finish : Nat
  rate : Nat
  id : Nat
  /-- K_C, as a number of 128 bits drawn at random. -/
  key : Nat
  /-- 1 scheduled, 2 running, 3 ended. -/
  state : Nat
  targets : Map CampTarget
  /-- The next block and segment of the carousel. -/
  block : Nat
  seg : Nat
  /-- The pace of the last segment. -/
  sentAt : Option Nat
  /-- Rounds completed (R381). -/
  rounds : Nat := 0
  deriving DecidableEq, Repr

/-- Firmware of the TY9600 and of meters (R364 to R384). -/
structure FwState where
  own : Option FwTransfer := none
  /-- The images of main slots A (0) and B (1), to the end of their signatures (R15, R371). -/
  slots : Map (List Byte) := []
  /-- The two alternating copies of the transfer region, and SEQ of the last write (R371). -/
  boots : Option BootRecord × Option BootRecord := (none, none)
  bootSeq : Nat := 0
  /-- Commit checks in progress (R370). -/
  commits : List FwCommitJob := []
  /-- Operating seconds at trial start. -/
  trialStart : Nat := 0
  /-- The pace since which the conditions of R374 have held. -/
  healthy : Option Nat := none
  /-- The conditions of R374 have held in this trial, and CONFIRM has been written since. -/
  wasHealthy : Bool := false
  confirmed : Bool := false
  /-- MIN_S, SECONDS and HOST_CONFIRM as they govern the trial (R384). -/
  trialMin : Nat := 300
  trialMax : Nat := 1800
  trialHost : Bool := false
  /-- The scheduled activation: a pace, or a device time in UTC seconds (R372). -/
  actAt : Option (Nat ⊕ Nat) := none
  /-- Keys registered by MODEL_KEY: algorithm and key bytes (R365, R378). -/
  modelKeys : Map (Nat × List Byte) := []
  images : Map FwTransfer := []
  camps : Map Campaign := []
  /-- The JOURNAL generation count of campaigns. -/
  generation : Nat := 0
  deriving DecidableEq, Repr

end Sys2Proof.Machine
end

