-- ==== Sys2Proof/Types/Host.lean ====
section
/-! DEFINITION. Data of chapter 03: the HOST_PLAN section, waybills, sessions, tasks and notices. -/

namespace Sys2Proof.Machine

/-- A HOST_PLAN entry (R48), with its enrolled host keys, X then Y. `reservedZero`: every reserved
byte and bit of the entry is 0. -/
structure HostEntry where
  context : Nat
  link : Nat
  port : Nat
  localClear : Bool
  udpPort : Nat
  peerAddr : BitVec 128
  peerPrefix : Nat
  rights : Word
  writeBlocks : Word
  tasksReserved : Nat
  tasksMax : Nat
  cmdRate : Nat
  cmdBurst : Nat
  noticeMax : Nat
  noticeMask : Word
  sessionLife : Nat
  keys : List (List Byte)
  reservedZero : Bool
  deriving DecidableEq, Repr

/-- The link over which a waybill arrives (R49). `peer6`: IPv6, whose bound on LENGTH differs (R51). -/
inductive HostLink where
  | udp (port udpPort : Nat) (source : BitVec 128) (v6 fragment : Bool)
  | pcie (endpoint : Nat)
  | spi
  | usb
  deriving DecidableEq, Repr

/-- A waybill as it arrives: its link, and the bytes received (R51). -/
structure Waybill where
  link : HostLink
  bytes : List Byte
  deriving DecidableEq, Repr

/-- A whole message that passed the judgement of R466: a command or an ACK. Seat 8 is the USB
service seat. `here`: its last part arrived on a link of this member, which answers it (R392). -/
structure Msg where
  seat : Nat
  here : Bool
  clear : Bool
  rep : Bool
  ack : Bool
  opcode : Nat
  seq : Word
  task : Word
  session : Nat
  body : List Byte
  deriving DecidableEq, Repr

/-- A waybill or message the device sends: a RESP (type 2) or NOTICE (type 3). `wire`: the bytes of each part on the
link, header and tag included (R51, R53, R55). -/
structure OutWaybill where
  seat : Nat
  type : Nat
  clear : Bool
  rep : Bool
  opcode : Nat
  seq : Word
  task : Word
  cause : Nat
  session : Nat
  counter : Nat
  parts : Nat
  body : List Tlv
  wire : List (List Byte)
  deriving DecidableEq, Repr

/-- An open session (R54 to R58): its keys K_H2D and K_D2H (R55). `accepted` holds the counters at most 63 below `top`
that were accepted. -/
structure Session where
  no : Nat
  opened : Nat
  h2d : List Byte
  d2h : List Byte
  top : Nat
  accepted : List Nat
  sent : Nat
  deriving DecidableEq, Repr

/-- A pending handshake (R54): TH, and its keys, which carry counters of their own. -/
structure Handshake where
  no : Nat
  keyIndex : Nat
  began : Nat
  th : List Byte
  h2d : List Byte
  d2h : List Byte
  top : Nat
  accepted : List Nat
  sent : Nat
  deriving DecidableEq, Repr

/-- A retained notice (R70, R71). -/
structure NoticeRec where
  seq : Word
  kind : Nat
  body : List Tlv
  sent : Bool
  nextAt : Nat
  interval : Nat
  /-- The handle in TASK; 0 if none. -/
  task : Nat
  deriving DecidableEq, Repr

/-- Notices of one kind not retained while the store was full (R72, R469). -/
structure LostCount where
  kind : Nat
  count : Nat
  first : Option Nat
  last : Option Nat
  deriving DecidableEq, Repr

/-- A kept REG_READ response (R61). -/
structure KeptResp where
  seq : Word
  digest : BitVec 128
  cause : Nat
  body : List Tlv
  deriving DecidableEq, Repr

/-- Parts of a message still arriving (R53). -/
structure PartBuffer where
  first : Waybill
  clear : Bool
  began : Nat
  parts : Map (List Byte)
  deriving DecidableEq, Repr

/-- A host context (R54 to R72). -/
structure Ctx where
  session : Option Session := none
  handshake : Option Handshake := none
  /-- HIGH (R61). -/
  high : Word := 0
  kept : List KeptResp := []
  /-- What the command bucket lacks, in thousandths of a command, at pace `spentAt` (R60). -/
  spent : Nat := 0
  spentAt : Nat := 0
  notices : List NoticeRec := []
  /-- The sequence the next notice takes (R70). -/
  nextNotice : Word := 1
  full : Bool := false
  lost : List LostCount := []
  /-- Messages whose parts are still arriving (R53). -/
  parts : List PartBuffer := []
  /-- The highest SEQ journalled, which outlives the records of R62 (R54, R61). -/
  journalled : Word := 0
  deriving DecidableEq, Repr

/-- One outcome of a task item: item index, cause (0 DONE), the pace at which it ended, and the ITEM_DATA and
CAUSE_DETAIL TLVs not yet returned (R66). -/
structure Outcome where
  item : Nat
  cause : Nat
  pace : Nat
  data : List Tlv
  deriving DecidableEq, Repr

/-- A task in flight (R63 to R68). -/
structure Task where
  gen : Nat
  seat : Nat
  /-- This member serves its command (R392). -/
  here : Bool
  seq : Word
  opcode : Nat
  digest : BitVec 128
  /-- Every item TLV of the command, in order. -/
  items : List Tlv
  /-- Items not begun. -/
  todo : List Nat
  /-- Items begun whose end waits for something. -/
  running : List Nat
  /-- Outcomes in the order of their ending. -/
  ended : List Outcome
  /-- How many of them are written to NAND in TASK_ITEMS notices (R66). -/
  reported : Nat
  /-- The pace of a TASK_CANCEL naming this task. -/
  cancel : Option Nat
  /-- TASK_FINAL has been written (R66). -/
  final : Bool
  deriving DecidableEq, Repr

/-- The journalled admission of a task command (R62, R65). -/
structure JournalTask where
  seat : Nat
  seq : Word
  opcode : Nat
  digest : BitVec 128
  handle : Nat
  items : Nat
  /-- The RESP once it is written. -/
  resp : Option (List Tlv)
  /-- TASK_FINAL acknowledged, or the task left flight with its RESP (R62, R66). -/
  ended : Bool
  deriving DecidableEq, Repr

/-- The host interface. -/
structure HostState where
  /-- The contexts by index, with their sessions, sequences, rates and notices (R48, R54, R60, R61, R70). -/
  ctxs : Map Ctx := []
  /-- Waybills and parts arrived on a link and not yet judged, oldest first (R466). -/
  arrived : List Waybill := []
  /-- Whole messages that passed R466 and wait to be served. -/
  inbox : List Msg := []
  /-- The tasks in flight by slot (R63, R64). -/
  tasks : Map Task := []
  /-- Generation last used of each slot (R64). -/
  gens : Map Nat := []
  /-- The journalled tasks (R62, R65). -/
  journal : List JournalTask := []
  /-- The identity statement of the current enrolment is kept in NAND (R54, R356). -/
  identity : Bool := false
  deriving DecidableEq, Repr

end Sys2Proof.Machine
end

