-- ==== Sys2Proof/Types/Met.lean ====
section
/-! DEFINITION. Data of chapters 04 and 05: the SENSOR_PLAN and QTY_PLAN sections, the front end, the
metering points, checkpoints and pulse outputs. -/

namespace Sys2Proof.Machine

/-- A sensor entry of SENSOR_PLAN (R99). -/
structure SensorEntry where
  enabled : Bool
  autoZero : Bool
  tsense : Nat
  zeroGroup : Nat
  offset : Int
  gain : Nat
  tc1 : Int
  tc2 : Int
  ofsTc : Int
  t0 : Int
  azLimit : Nat
  driftAlarm : Nat
  deriving DecidableEq, Repr

/-- A voltage entry of SENSOR_PLAN (R99). -/
structure VoltEntry where
  enabled : Bool
  tsense : Nat
  tc1 : Int
  offset : Int
  scale : Nat
  t0 : Int
  deriving DecidableEq, Repr

/-- A temperature entry of SENSOR_PLAN (R99). -/
structure TempEntry where
  enabled : Bool
  kind : Nat
  betaAlpha : Nat
  nominalOhm : Nat
  tOffset : Int
  deriving DecidableEq, Repr

/-- A term of a mixing row (R79). -/
structure Term where
  sensor : Nat
  coeff : Int
  deriving DecidableEq, Repr

/-- A channel entry of SENSOR_PLAN (R99). -/
structure ChannelEntry where
  enabled : Bool
  magwin : Nat
  zeroThr : Nat
  calImin : Nat
  calImax : Nat
  calTmin : Int
  calTmax : Int
  calId : Nat
  delay : Int
  terms : List Term
  breakpoints : List (Nat × Nat)
  /-- Breakpoints at and above BP_COUNT are 0. -/
  restZero : Bool
  deriving DecidableEq, Repr

/-- SENSOR_PLAN (R99). -/
structure SensorPlan where
  planId : Nat
  sensors : List SensorEntry
  volts : List VoltEntry
  temps : List TempEntry
  channels : List ChannelEntry
  deriving DecidableEq, Repr

/-- A point entry of QTY_PLAN (R123). -/
structure PointEntry where
  enabled : Bool
  dc : Bool
  invert : Bool
  vch : Nat
  intervalMin : Nat
  nominalHz : Nat
  startI : Nat
  pmaxW : Nat
  vmin : Nat
  pGain : Nat
  pOfs : Int
  qGain : Nat
  qOfs : Int
  vGain : Nat
  iGain : Nat
  iOfs : Int
  imax : Nat
  deriving DecidableEq, Repr

/-- A pulse entry of QTY_PLAN (R123). -/
structure PulseEntry where
  enabled : Bool
  activeLow : Bool
  mp : Nat
  acc : Nat
  widthMs : Nat
  const : Nat
  deriving DecidableEq, Repr

/-- QTY_PLAN (R123). -/
structure QtyPlan where
  points : List PointEntry
  pulses : List PulseEntry
  deriving DecidableEq, Repr

/-- One decimated value of an input: value in LSB of Q1.23, modulator overload, and for a sensor
whether its common-mode voltage lies in range (R75, R76). -/
structure RawSample where
  value : Int
  overload : Bool
  cmOk : Bool
  deriving DecidableEq, Repr

/-- A zero window (R86, R87): paces completed in it, paces and samples averaged with the sum of
x − o in units of 10^−10 LSB, and the pace that is averaged once the window outlasts it. -/
structure ZeroWindow where
  paces : Nat := 0
  averaged : Nat := 0
  samples : Nat := 0
  sum : Int := 0
  lastSamples : Nat := 0
  lastSum : Int := 0
  deriving DecidableEq, Repr

/-- A sensor input in service (R76, R86 to R90). -/
structure SensorState where
  outRun : Nat := 0
  inRun : Nat := 0
  zero : Option ZeroWindow := none
  /-- x − o summed over the samples of this pace. -/
  paceSum : Int := 0
  paceSamples : Nat := 0
  /-- AZ at the last EV_AUTO_ZERO. -/
  azRecorded : Int := 0
  /-- Raw x summed over the block of 1,024 paces in progress. -/
  meanSum : Int := 0
  meanSamples : Nat := 0
  deriving DecidableEq, Repr

/-- A current channel (R79 to R85). -/
structure ChannelState where
  /-- i_raw of the newest four samples, newest first. -/
  history : List Int := []
  /-- Σ i_d² and samples of this pace, and of the last paces, newest first. -/
  sumSq : Nat := 0
  samples : Nat := 0
  window : List (Nat × Nat) := []
  /-- M of the last two completed paces. -/
  mag : Nat := 0
  magBefore : Nat := 0
  /-- This pace holds an over-range value. -/
  outOfRange : Bool := false
  deriving DecidableEq, Repr

/-- A refinement run that is collecting (R92): sums over the eligible paces and over this pace. -/
structure RefineRun where
  ch : Nat
  uu : List (List Int)
  uy : List Int
  yy : Int
  samples : Nat
  paceUu : List (List Int)
  paceUy : List Int
  paceYy : Int
  paceSamples : Nat
  deriving DecidableEq, Repr

/-- One delivered sample: ICH0–ICH11 in Q16.16 A and VCH0–VCH7 in Q20.12 V (R96). -/
structure Delivered where
  ich : List Int
  vch : List Int
  deriving DecidableEq, Repr

/-- The front end (R74 to R98). -/
structure MetState where
  sensors : Map SensorState := []
  channels : Map ChannelState := []
  /-- VCH of the newest two samples by input (R80). -/
  volts : Map (List Int) := []
  /-- Over-range voltage inputs of this pace. -/
  voltOver : List Nat := []
  /-- Samples delivered in this pace, oldest first. -/
  delivered : List Delivered := []
  refine : Option RefineRun := none
  /-- Pace boundaries since the metrology clock locked (R98). -/
  sinceLock : Nat := 0
  /-- Paces of the mean block in progress. -/
  meanPaces : Nat := 0
  deriving DecidableEq, Repr

/-- A metering-point interval record (R111). -/
structure IntervalRecord where
  mp : Nat
  intervalMin : Nat
  quality : BitVec 16
  revCount : Nat
  start : Nat
  paces : Nat
  delta : List Nat
  pfBound : Nat
  vRms : Nat
  iRms : Nat
  freq : Nat
  thdV : Nat
  thdI : Nat
  vMean : Int
  iMean : Int
  deriving DecidableEq, Repr

/-- The checkpointed state of a metering point (R114). -/
structure PointState where
  /-- Accumulators 0–8 and their residues (R109). -/
  acc : List (BitVec 64) := List.replicate 9 0
  res : List Nat := List.replicate 9 0
  /-- Integer parts at the start of the interval. -/
  accStart : List (BitVec 64) := List.replicate 9 0
  /-- START of the interval in UTC seconds, and its end. -/
  start : Nat := 0
  finish : Nat := 0
  quality : BitVec 16 := 0
  pfBound : Nat := 0
  revCount : Nat := 0
  /-- D: none, import (true) or export (false); the run and its direction (R108). -/
  dir : Option Bool := none
  run : Nat := 0
  runDir : Bool := true
  paces : Nat := 0
  samples : Nat := 0
  sumV2 : Nat := 0
  sumI2 : Nat := 0
  sumV : Int := 0
  sumI : Int := 0
  freqSum : Nat := 0
  freqPaces : Nat := 0
  thdSumV : Nat := 0
  thdSumI : Nat := 0
  thdWindows : Nat := 0
  last : Option IntervalRecord := none
  /-- No checkpoint survived the restart, and no pace has been processed since (R474). -/
  lost : Bool := false
  deriving DecidableEq, Repr

/-- Sample windows of a point (R102, R104), newest first; volatile. -/
structure PointWindow where
  /-- (v, i) of the newest N + 1 samples. -/
  vi : List (Int × Int) := []
  /-- Number of the newest sample. -/
  k : Nat := 0
  /-- Sample times of positive-going zero crossings as fractions, newest first. -/
  crossings : List (Int × Int) := []
  /-- (v, i) of the THD window in progress, newest first. -/
  thd : List (Int × Int) := []
  deriving DecidableEq, Repr

/-- The phase of a pulse output (R119). -/
inductive PulsePhase where
  | idle | asserted | gap
  deriving DecidableEq, Repr

/-- A pulse output (R118 to R120). -/
structure PulseState where
  r : BitVec 96 := 0
  due : Nat := 0
  phase : PulsePhase := .idle
  /-- Paces left in the phase. -/
  left : Nat := 0
  /-- The entry changed: r and PENDING become 0 once the pulse in progress ends (R121). -/
  clear : Bool := false
  /-- PENDING was above 0 at this pace boundary (R119). -/
  ready : Bool := false
  deriving DecidableEq, Repr

/-- A checkpoint copy (R114): both parts with one sequence, and whether each part passes its CRC. -/
structure Checkpoint where
  seq : Nat
  final : Bool
  pace : Nat
  time : Nat
  points : Map PointState
  pulses : Map PulseState
  pointOk : Bool
  pulseOk : Bool
  deriving DecidableEq, Repr

/-- How far the sealed work of a pace has come (R122, R192): done; steps 1 and 2 of R122 done; step 1 of R192 done. -/
inductive LegalStage where
  | idle | met | tar
  deriving DecidableEq, Repr

/-- Quantities, checkpoints and pulses (R100 to R122). -/
structure QtyState where
  points : Map PointState := []
  windows : Map PointWindow := []
  pulses : Map PulseState := []
  /-- The two copies; none is blank. -/
  copies : Option Checkpoint × Option Checkpoint := (none, none)
  /-- Sequence of the last checkpoint. -/
  seq : Nat := 0
  /-- The copy written last is the second. -/
  second : Bool := false
  /-- The last checkpoint failed twice: the next goes to the same copy (R117). -/
  same : Bool := false
  /-- An interval closed in this pace (R114). -/
  closed : Bool := false
  /-- The sealed work of the pace in progress (R122, R192). -/
  stage : LegalStage := .idle
  /-- `QTY_STAT.METERING` has been set since the last full start: the pulse outputs are driven (R291). -/
  driven : Bool := false
  deriving DecidableEq, Repr

end Sys2Proof.Machine
end

