-- ==== Sys2Proof/Types/Balance.lean ====
section
/-! DEFINITION. Data of chapter 07: the TOPOLOGY section, binary64 numbers, node state and results. -/

namespace Sys2Proof.Machine

/-- A finite IEEE 754 binary64 value m·2^e, without a sign of zero (R157). -/
structure F64 where
  m : Int
  e : Int
  deriving DecidableEq, Repr

/-- A TOPOLOGY entry (R150). -/
structure TopoNode where
  node : Nat
  parent : Nat
  flags : BitVec 8
  balMin : Nat
  refMp : Nat
  refMeter : Nat
  vNom : Nat
  k0Init : Nat
  k2Init : Nat
  sigmaMin : Nat
  deriving DecidableEq, Repr

/-- The result of one node interval (R171), with the model and σ_eff it used (R162). -/
structure NodeResult where
  node : Nat
  balMin : Nat
  rev : Nat
  flags : BitVec 16
  complete : Nat
  /-- UTC minutes. -/
  start : Nat
  eRef : Int
  eChild : Int
  eLoss : Int
  residual : Int
  /-- z as reported, 0 where none is formed. -/
  z : Int
  filled : Nat
  mu : F64
  sigma : F64
  inputIsn : Nat
  k0 : F64
  k2 : F64
  deriving DecidableEq, Repr

/-- The state of a node (R157 to R160, R165). -/
structure NodeState where
  mu : F64 := ⟨0, 0⟩
  sigma2 : F64 := ⟨0, 0⟩
  statN : Nat := 0
  sw : F64 := ⟨0, 0⟩
  sx : F64 := ⟨0, 0⟩
  sxx : F64 := ⟨0, 0⟩
  sy : F64 := ⟨0, 0⟩
  sxy : F64 := ⟨0, 0⟩
  learnN : Nat := 0
  /-- The refitted k0 and k2; none while K0_INIT and K2_INIT hold (R156). -/
  model : Option (F64 × F64) := none
  /-- In alert: true positive, false negative. -/
  alert : Option Bool := none
  run : Nat := 0
  /-- Starts of the intervals of the raising run, oldest first. -/
  raising : List Nat := []
  loc : Option Nat := none
  /-- The node last localised, which outlasts the alert (BAL_SEL_LOC). -/
  lastLoc : Option Nat := none
  /-- The first-ranked candidate of the last localisation. -/
  first : Option Nat := none
  deriving DecidableEq, Repr

/-- What a job of BALANCE does (R164, R167). -/
inductive BalWork where
  | first | revision | localise
  deriving DecidableEq, Repr

/-- A queued balance job: its node, the start of its node interval in UTC minutes, and the pace in which it was queued
(R164). -/
structure BalJob where
  node : Nat
  start : Nat
  work : BalWork
  since : Nat
  deriving DecidableEq, Repr

/-- The balance engine (R150 to R173). -/
structure BalState where
  nodes : Map NodeState := []
  /-- Results by node and by start. -/
  results : Map (Map NodeResult) := []
  jobs : List BalJob := []
  /-- Operations of BAL_CMD at the head of the queue: OP, node and the pace of the write (R173). -/
  ops : List (Nat × Nat × Nat) := []
  /-- Revised intervals whose notice is held, with the pace of the first revision (R163). -/
  held : List (Nat × Nat × Nat) := []
  /-- The UTC second from which the active topology governs (R166). -/
  activeFrom : Nat := 0
  /-- The previous topology and the UTC second from which it governed. -/
  previous : Option (List TopoNode × Nat) := none
  deriving DecidableEq, Repr

end Sys2Proof.Machine
end

