-- ==== Sys2Proof/Types/Tariff.lean ====
section
/-! DEFINITION. Data of chapter 08: calendar sets, the tariff state of the metering points, the legal
tariff record, and the billing mirror and snapshots of meters. A calendar set is kept as the 2,352
bytes of R175. -/

namespace Sys2Proof.Machine

/-- The sets of one calendar (R177), with its load count. -/
structure Calendar where
  active : Option (List Byte) := none
  passive : Option (List Byte) := none
  superseded : Option (List Byte) := none
  loads : Nat := 0
  deriving DecidableEq, Repr

/-- A maximum demand: W, end of its window (UTC seconds for a point, minutes since 2020-01-01 for a
meter), flags of R186. -/
structure Dmax where
  value : Nat := 0
  finish : Nat := 0
  flags : BitVec 8 := 0
  deriving DecidableEq, Repr

/-- A collected sub-period: import energy and flags (R186). -/
structure SubPeriod where
  energy : Nat
  flags : BitVec 8
  deriving DecidableEq, Repr

/-- The tariff state of one metering point (R183, R186, R188, R195). -/
structure PointTar where
  /-- A_reg, by accumulator. -/
  aReg : List (BitVec 64) := List.replicate 9 0
  /-- Accumulators whose A_reg was above A at the restart and has not been passed (R196). -/
  behind : List Bool := List.replicate 9 false
  /-- REG[r][k] at position 4·r + k. -/
  reg : List (BitVec 64) := List.replicate 32 0
  dmax : List Dmax := List.replicate 8 {}
  billNo : Nat := 0
  bn : Word := 0
  /-- End of the sub-period in progress in UTC seconds; none while demand does not collect. -/
  subEnd : Option Nat := none
  subEnergy : Nat := 0
  subFlags : BitVec 8 := 0
  subPaces : Nat := 0
  /-- The rate in force at its start. -/
  subRate : Nat := 0
  /-- The sub-periods collected without a break before it, newest first. -/
  chain : List SubPeriod := []
  /-- Where demand does not collect: the multiple of Ls in UTC seconds from which it does, 0 before it is set (R186,
  R194). -/
  resume : Nat := 0
  rate : Nat := 0
  defaulted : Bool := false
  /-- The next switch time and rate (R180, R195). -/
  nextSwitch : Nat × Nat := (0, 0)
  /-- The next billing boundary, under the set in force at the start of the billing period (R188). -/
  billNext : Option Nat := none
  /-- Commanded boundaries that have not fallen, ascending (R188). -/
  commanded : List Nat := []
  /-- DEFAULT_SEEN, SET_BACK_SEEN and PF_SEEN of the open period (R191). -/
  seen : BitVec 8 := 0
  deriving DecidableEq, Repr

/-- A point snapshot (R191). The CRC follows from the rest. -/
structure PointSnapshot where
  mp : Nat
  flags : BitVec 8
  billNo : Nat
  calendar : Nat
  bn : Word
  calGen : Nat
  boundary : Nat
  reg : List (BitVec 64)
  dmax : List Dmax
  deriving DecidableEq, Repr

/-- The content of a legal tariff record (R195), and whether it passes its CRC. -/
structure TarRecord where
  seq : Nat
  hwm : Nat
  points : Map PointTar
  sets : Map Calendar
  ok : Bool
  deriving DecidableEq, Repr

/-- Own points and calendars (R174 to R196). -/
structure TarState where
  /-- The calendar sets of the BILLING namespace. -/
  cals : Map Calendar := []
  /-- The bound sets as the sealed firmware knows them: by digest, and once delivered in full. -/
  sets : Map Calendar := []
  /-- Bound calendars verified since the start (R178). -/
  verified : List Nat := []
  points : Map PointTar := []
  /-- HWM in ms (R192). -/
  hwm : Nat := 0
  /-- An activation has taken place since the start (R180). -/
  activated : Bool := false
  /-- The next pace boundary is the first after a restart (R193). -/
  restarted : Bool := false
  /-- Something R195 writes the record for happened. -/
  dirty : Bool := false
  copies : Option TarRecord × Option TarRecord := (none, none)
  /-- The copy written last is the second; the next write goes to the same copy (R117). -/
  second : Bool := false
  same : Bool := false
  seq : Nat := 0
  /-- The newest snapshot of each point (R196). -/
  newest : Map PointSnapshot := []
  /-- The 24 newest snapshots of each point kept by the application cores, oldest first (R189). -/
  snapshots : Map (List PointSnapshot) := []
  deriving DecidableEq, Repr

/-- The billing state of a meter: its mirror (R185), the boundaries of R188 it waits for, and the
carried windows. -/
structure MeterTar where
  /-- HWM_MIN. -/
  hwm : Nat := 0
  billNo : Nat := 0
  lastIncomplete : Bool := false
  defaultSeen : Bool := false
  /-- REG[r][k] at position 4·r + k. -/
  reg : List (BitVec 48) := List.replicate 32 0
  dmax : List Dmax := List.replicate 8 {}
  /-- The newest billing boundary performed, UTC minutes; 0 before the first. -/
  closed : Nat := 0
  /-- The start of the billing period, UTC minutes: that boundary, or the binding to the calendar. -/
  start : Nat := 0
  /-- The next boundary under the set in force at the start of the period, UTC minutes. -/
  billNext : Option Nat := none
  /-- Commanded boundaries that have not fallen, ascending (R188). -/
  commanded : List Nat := []
  deriving DecidableEq, Repr

/-- A meter snapshot (R191). -/
structure MeterSnapshot where
  index : Nat
  billNo : Nat
  flags : BitVec 8
  calendar : Nat
  boundary : Nat
  isn : Nat
  reg : List (BitVec 48)
  dmax : List Dmax
  deriving DecidableEq, Repr

end Sys2Proof.Machine
end

