-- ==== Sys2Proof/Types/Registry.lean ====
section
/-! DEFINITION. Data of chapter 06: the meter record, the interval store, the reading log and ingest. -/

namespace Sys2Proof.Machine

/-- STATE of a meter record (R124). -/
inductive MeterState where
  | free | active | suspended
  deriving DecidableEq, Repr

/-- Bytes 0 to 39 of a meter record (R124), without STATE and the keys' bytes. -/
structure MeterConf where
  flags : BitVec 8 := 0
  protocol : Nat := 5
  route : Nat := 0
  port : Nat := 0
  intervalMin : Nat := 15
  node : Nat := 0
  calendar : Nat := 0
  model : Nat := 0
  extId : BitVec 128 := 0
  shortAddr : Nat := 0xFFFF
  shortNo : Nat := 0xFFFF
  unitExp : Nat := 0
  deriving DecidableEq, Repr

/-- The BALANCE bytes of a record (R151). -/
structure MeterBal where
  baseline : Int := 0
  baseN : Nat := 0
  sigs : Nat := 0
  score : Nat := 0
  prevNode : Nat := 0xFFFF
  since : Nat := 0
  deriving DecidableEq, Repr

/-- STATE of a prepayment meter (R203). -/
inductive CreditState where
  | credit | low | emergency | exhausted
  deriving DecidableEq, Repr

/-- The PREPAY bytes of a record (R202). -/
structure MeterPrepay where
  credit : Int := 0
  seqWin : BitVec 64 := 0
  seqHigh : Nat := 0
  money : Bool := false
  vkr : Nat := 0
  locked : Bool := false
  state : CreditState := .credit
  emergLimit : Nat := 0
  frac : Nat := 0
  failCnt : Nat := 0
  deriving DecidableEq, Repr

/-- An interval store entry (R139), by its interval start in the store. -/
structure IntervalEntry where
  quality : BitVec 16
  source : Nat
  imp : Nat
  exp : Nat
  /-- ISN of the reading it comes from, which the reading log relates to it (R165). -/
  isn : Nat
  deriving DecidableEq, Repr

/-- An AES-KW wrapped key (R346): the key and the enrolment whose KEK wraps it. The 24 or 40 bytes
follow from both. -/
structure WrappedKey where
  enrol : Nat
  key : List Byte
  deriving DecidableEq, Repr

/-- A meter record (R124) with its interval store (R139). -/
structure MeterRec where
  state : MeterState := .free
  conf : MeterConf := {}
  keyAlg : Nat := 0
  keyGen : Nat := 0
  keyWrap : Option WrappedKey := none
  key2Wrap : Option WrappedKey := none
  appliedIsn : Nat := 0
  seqHigh : Word := 0
  keyEpoch : Nat := 0
  seqWin : BitVec 64 := 0
  lastRx : Nat := 0
  clockOfs : Int := 0
  clockAdj : Nat := 0
  lastQuality : BitVec 16 := 0
  lastStart : Nat := 0
  /-- IDX_EA_IMP, IDX_EA_EXP, IDX_ER_IMP, IDX_ER_EXP. -/
  idx : List Nat := [0, 0, 0, 0]
  meterStatus : Word := 0
  pmaxKw : Nat := 0
  bal : MeterBal := {}
  prepay : MeterPrepay := {}
  tar : MeterTar := {}
  /-- Interval store entries by start, UTC minutes. -/
  store : Map IntervalEntry := []
  /-- Real indexes held, by their time in UTC minutes: import and export, µWh (R140 to R142). -/
  held : Map (Nat × Nat) := []
  /-- Deltas of profile readings as accepted, by interval end in UTC minutes (R138, R140). -/
  raw : Map (Nat × Nat) := []
  /-- The remainder that each interval of a profile meter leaves to the next, by interval end (R140). -/
  carry : Map (Nat × Nat) := []
  /-- Earlier bindings, oldest first, each with the device time in ms up to which it governs (R126). -/
  changed : List (MeterConf × Nat) := []
  deriving DecidableEq, Repr

/-- One aligned reading in ingest (R128, R132): logged, and not yet durable. -/
structure Reading where
  isn : Nat
  index : Nat
  /-- The frame counter, where the source has one (R134). -/
  counter : Option Nat
  route : Nat
  /-- Interval end T in UTC minutes, and the interval's length in minutes. -/
  endMin : Nat
  period : Nat
  profile : Bool
  quality : BitVec 16
  /-- EA_IMP, EA_EXP, ER_IMP, ER_EXP; none where the frame gives none. -/
  values : List (Option Nat)
  status : Word
  /-- REPLACE of a host push (R148). -/
  replace : Bool
  /-- Device time quality was LOST at alignment (R182). -/
  lost : Bool
  /-- The item that waits for it. -/
  item : Option (Nat × Nat)
  /-- Acknowledge in the protocol once durable. -/
  ack : Bool
  /-- The pace in which its log entry was written (R137). -/
  loggedAt : Nat
  deriving DecidableEq, Repr

/-- One reading of a frame as the meter states it: its end in UTC seconds by the meter's clock, the bits TAMPER, PF and
REVERSED, and EA_IMP, EA_EXP, ER_IMP, ER_EXP in µWh and µvarh, none where the frame gives none (R131). -/
structure FrameEntry where
  finish : Nat
  tamper : Bool
  pf : Bool
  reversed : Bool
  values : List (Option Nat)
  deriving DecidableEq, Repr

/-- A data record of M-Bus, by VIF and VIFE (none: 256), or an object of DLMS/COSEM, by its six-byte code, with its value:
energies in µWh and µvarh, flags as bits (R130). `export_` tells an M-Bus energy record of the other direction. -/
inductive FrameItem where
  | record (vif vife : Nat) (export_ : Bool) (value : Nat)
  | object (code : BitVec 48) (value : Nat)
  deriving DecidableEq, Repr

/-- The parts of a standard that a frame uses (R130). Wireless M-Bus: mode 1 S1, 2 T1, 3 C1 of frame format A, 4 C1 of
format B, 0 any other; CI; security mode. Wired M-Bus: baud; service 0 RSP_UD, 1 any other; telegrams; CI; security mode.
DLMS/COSEM: LN referencing; service 0 GET, 1 GET with-list, 2 GET with block transfer, 3 DATA-NOTIFICATION, 4 ACTION on the
clock, 5 any other; security suite; HLS mechanism; the port of a UDP or TCP wrapper, 0 on HDLC. -/
inductive FrameUse where
  | wireless (mode ci security : Nat)
  | wired (baud service telegrams ci security : Nat)
  | dlms (logicalNames : Bool) (service suite mechanism port : Nat)
  deriving DecidableEq, Repr

/-- A frame of M-Bus or DLMS/COSEM, whose coding other standards state: what it uses, whether it authenticates under the
record's keys, its 32-bit counter and the meter's time in UTC seconds where it has them, and its readings: interval end by
the meter's clock and the data items (R130, R134). -/
structure CodedFrame where
  use : FrameUse
  tagOk : Bool
  counter : Option Nat
  meterTime : Option Nat
  readings : List (Nat × List FrameItem)
  deriving DecidableEq, Repr

/-- What a frame carries: a Tylian application message as bytes (R131, R205, R379), or a frame of another standard. -/
inductive FrameBody where
  | tylian (bytes : List Byte)
  | coded (f : CodedFrame)
  deriving DecidableEq, Repr

/-- A frame handed to ingest: route code, the sender's EXT_ID or its short address, what it carries, and t_rx in ms of
device time (R130 to R135). -/
structure IngestFrame where
  route : Nat
  extId : Option (BitVec 128)
  shortAddr : Nat
  body : FrameBody
  rx : Nat
  deriving DecidableEq, Repr

/-- The path of a token (chapter 09). -/
inductive TokenPath where
  | meter
  | host (slot item : Nat)
  | cabinet
  deriving DecidableEq, Repr

/-- What a token or an adjustment does once it is durable (R207, R208). -/
inductive TokenAct where
  | token (seq type amount : Nat)
  | adjust (delta : Int)
  deriving DecidableEq, Repr

/-- A token or adjustment logged and not yet durable (R205 step 8). -/
structure TokenWait where
  isn : Nat
  index : Nat
  act : TokenAct
  path : TokenPath
  /-- The pace in which its log entry was written (R137). -/
  loggedAt : Nat
  deriving DecidableEq, Repr

/-- An entry of the reading log: a reading (R128), a token or an adjustment (R205), or a grace close at a boundary in UTC
minutes (R190). -/
inductive LogEntry where
  | reading (x : Reading)
  | token (w : TokenWait)
  | grace (isn index boundary : Nat)
  deriving DecidableEq, Repr

/-- The poll in progress on a serial port (R130, R287). -/
structure PollState where
  meter : Nat
  tries : Nat
  sentAt : Nat
  deriving DecidableEq, Repr

/-- Registry and ingest (R124 to R148). -/
structure IngestState where
  meters : Map MeterRec := []
  /-- Last ISN assigned. -/
  isn : Nat := 0
  /-- Readings logged and not yet durable, oldest first. -/
  waiting : List Reading := []
  /-- Durable log entries still kept. -/
  log : List LogEntry := []
  /-- Dirty chunks, by the pace that first dirtied them (R127). -/
  dirty : Map Nat := []
  /-- APPLIED_ISN of the eight records of each chunk as written to NAND (R127). -/
  saved : Map (List Nat) := []
  /-- Records with a METER_WRITE change in JOURNAL that their chunk does not hold yet (R127). -/
  journal : List Nat := []
  /-- Keys held by ingest: (meter, key number), most recently used first (R133). -/
  keys : List (Nat × Nat) := []
  /-- Readings accepted in the 1,000 paces in progress. -/
  recent : Nat := 0
  /-- Device-to-meter bodies that wait for an envelope (R232): meter and body. -/
  toMeter : List (Nat × List Byte) := []
  /-- Frames handed to ingest that it has not taken yet, oldest first. -/
  frames : List IngestFrame := []
  /-- Token messages that meters forwarded and that are not yet checked. -/
  forwards : List IngestFrame := []
  /-- Tokens and adjustments logged and not yet durable, oldest first. -/
  tokens : List TokenWait := []
  /-- Vending keys VK[v] (R201). -/
  vkeys : Map WrappedKey := []
  /-- The 24-slot snapshot ring of each meter (R190). -/
  snaps : Map (List MeterSnapshot) := []
  polls : Map PollState := []
  /-- Interval end last polled, by meter, UTC minutes. -/
  polled : Map Nat := []
  deriving DecidableEq, Repr

end Sys2Proof.Machine
end

