-- ==== Sys2Proof/Types/Radio.lean ====
section
/-! DEFINITION. Data of chapter 11: the RF_BANDS section, the joined table that radio and power line
share, mesh frames, floods and waiting transmissions. -/

namespace Sys2Proof.Machine

/-- A radio entry of RF_BANDS (R228). -/
structure RadioConf where
  role : Nat
  wmbusModes : Nat
  rate : Nat
  chCount : Nat
  ch0Khz : Nat
  spacingKhz : Nat
  preambleOct : Nat
  chMap : BitVec 64
  floodCh : List Nat
  txDbm : Int
  paLeadUs : Nat
  flags : BitVec 8
  dwellMs : Nat
  dwellWinS : Nat
  deriving DecidableEq, Repr

/-- A sub-band entry of RF_BANDS (R228). -/
structure SubBand where
  loKhz : Nat
  hiKhz : Nat
  duty : Nat
  windowS : Nat
  deriving DecidableEq, Repr

/-- RF_BANDS (R228). -/
structure RfBands where
  radios : List RadioConf
  subBands : List SubBand
  deriving DecidableEq, Repr

/-- A message of a node that waits for its own command: the short address, the power-line channel it came on, and the
message with its route and t_rx (R232, R268, R269, R379). -/
structure NodeMsg where
  short : Nat
  chan : Option Nat
  frame : IngestFrame
  deriving DecidableEq, Repr

/-- A frame of a node as received: the outcome of its FCS, the MAC frame before it, and its RSSI (R229). -/
structure NodeFrame where
  fcsOk : Bool
  bytes : List Byte
  rssi : Int
  deriving DecidableEq, Repr

/-- A payload to a node: the bytes of a message, an envelope sealed (R232), or a MAP_UPDATE whose INSTANT its first sending
fixes (R243). -/
inductive DownBody where
  | message (bytes : List Byte)
  | mapUpdate (map : BitVec 64)
  deriving DecidableEq, Repr

/-- A payload that waits for a node or for its acknowledgement (R253, R254, R275). -/
structure DownPayload where
  body : DownBody
  /-- LSN; 0 while it has not been sent. -/
  lsn : Nat := 0
  /-- Events (radio) or sendings (power line) used. -/
  sends : Nat := 0
  /-- The pace of the last sending. -/
  sentAt : Nat := 0
  /-- The pace since which it is held back, or waits for a lost connection or a route. -/
  held : Option Nat := none
  deriving DecidableEq, Repr

/-- A radio connection (R238, R239, R244, R245). Anchors are in µs of pace time. -/
structure RadioConn where
  radio : Nat
  interval : Nat
  sup : Nat
  base : Nat
  hop : Nat
  chMap : BitVec 64
  /-- A map that governs from an event on (R243). -/
  next : Option (Nat × BitVec 64)
  /-- k and Â_k, and d. -/
  k : Nat
  anchor : Int
  drift : F64
  /-- Accepted events. -/
  contacts : Nat
  /-- Resumed after a restart and no frame accepted yet (R246). -/
  resumed : Bool
  /-- The first event not yet run. -/
  upcoming : Nat
  deriving DecidableEq, Repr

/-- A power-line link with its route entry (R272 to R276). -/
structure PlcLink where
  chan : Nat
  path : List Nat
  cost : Nat
  learned : Nat
  valid : Bool
  /-- The pace of the last accepted UP frame. -/
  lastUp : Nat
  alive : Bool
  deriving DecidableEq, Repr

/-- An entry of the joined table (R236, R246). -/
structure JoinedEntry where
  meter : Nat
  sleepy : Bool
  ciMs : Nat
  joinCtr : Nat
  /-- The highest LCTR accepted from the node, and the last one sent to it. -/
  rxCtr : Nat
  txCtr : Nat
  /-- The last LSN accepted from the node, and the last one given to a payload. -/
  alsn : Nat
  lsn : Nat
  queue : List DownPayload
  rssi : List Int
  relay : Bool
  conn : Option RadioConn
  plc : Option PlcLink
  deriving DecidableEq, Repr

/-- The origin or destination of a flood (R249). -/
inductive FloodAddr where
  | short (a : Nat)
  | long (eui : Nat)
  deriving DecidableEq, Repr

/-- A JOIN_REQ (R236): the fields of its payload, and the MAC frame that holds it. -/
structure JoinReq where
  eui : Nat
  sleepy : Bool
  ciMs : Nat
  rates : BitVec 8
  joinCtr : Nat
  frame : List Byte
  deriving DecidableEq, Repr

/-- JOIN_RSP (R238, R274). -/
structure JoinRsp where
  eui : Nat
  joinCtr : Nat
  status : Nat
  relay : Bool
  short : Nat
  interval : Nat
  sup : Nat
  base : Nat
  hop : Nat
  chMap : BitVec 64
  firstUs : Nat
  ttl : Nat
  k : Nat
  delayMs : Nat
  ciMaxMs : Nat
  deriving DecidableEq, Repr

/-- A DOWN flood of the TY9600 with its payload (R250). -/
structure DownFlood where
  dst : FloodAddr
  wake : Bool
  payload : List Byte
  deriving DecidableEq, Repr

/-- A transmission held back by R252: a JOIN_RSP of a radio to a meter's node, or a flood on one channel. -/
inductive TxBody where
  | joinRsp (meter eui joinCtr status : Nat) (short : Option Nat)
  | flood (fseq : Nat) (f : DownFlood)
  deriving DecidableEq, Repr

/-- A waiting transmission (R253). -/
structure TxWait where
  radio : Nat
  channel : Nat
  since : Nat
  body : TxBody
  deriving DecidableEq, Repr

/-- Transmit airtime in one 1 s bucket (R252), in 1/600 ms. -/
structure AirUse where
  radio : Nat
  channel : Nat
  subBand : Nat
  second : Nat
  units : Nat
  deriving DecidableEq, Repr

/-- When the lines RFx_TR, RFx_PA_EN and RFx_LNA_EN change for a transmission, in µs from its first preamble bit: TR and
PA_EN rise and fall, LNA_EN falls and rises; none where the line stays low (R227). -/
structure RadioLines where
  tr : Int × Int
  pa : Option (Int × Int)
  lna : Option (Int × Int)
  deriving DecidableEq, Repr

/-- A mesh transmission as the radio sends it (R225 to R229, R247, R248): the drive at the pin, the lines, the wake frames of
a train, the preamble in octets, and the MAC frame before its FCS. -/
structure MeshTx where
  dbm : Int
  lines : RadioLines
  wakes : List (List Byte)
  preamble : Nat
  frame : List Byte
  deriving DecidableEq, Repr

/-- The radios and the joined table (R225 to R255). -/
structure RadioState where
  /-- The joined table, by short address. -/
  joined : Map JoinedEntry := []
  /-- The joined table in JOURNAL, with the pace and the device time in ns of its writing. -/
  saved : Map JoinedEntry := []
  savedAt : Nat × Nat := (0, 0)
  /-- The pace of the first change not yet written. -/
  dirty : Option Nat := none
  /-- End of the DCOUNTER block reserved in JOURNAL (R233). -/
  reserved : Nat := 0
  /-- Seen cache: key and the pace of insertion, oldest first (R250). -/
  seen : List (FloodAddr × Nat × Nat) := []
  /-- FSEQ of the last flood sent. -/
  fseq : Nat := 0
  /-- Floods to send, oldest first. -/
  floods : List DownFlood := []
  waiting : List TxWait := []
  air : List AirUse := []
  /-- The operating second of the last EV_RF_DUTY of each sub-band (R253). -/
  holdSeen : Map Nat := []
  /-- The last 1,024 expected events of each channel, newest first: whether the node frame was missing;
  the key is 64·radio + channel (R243). -/
  expected : Map (List Bool) := []
  /-- Excluded channels by the same key, with the operating second of the exclusion. -/
  excluded : Map Nat := []
  /-- Messages of nodes that wait for their own command, oldest first. -/
  inbox : List NodeMsg := []
  deriving DecidableEq, Repr

end Sys2Proof.Machine
end

