-- ==== Sys2Proof/Types/Plc.lean ====
section
/-! DEFINITION. Data of chapter 12: the PLC_BANDS section, power-line frames, links, and the state of
each channel. -/

namespace Sys2Proof.Machine

/-- A channel entry of PLC_BANDS (R257). -/
structure PlcConf where
  role : Nat
  coupling : Nat
  refSrc : Nat
  group : Nat
  kLo : Nat
  kHi : Nat
  txLevel : Nat
  txLeadUs : Nat
  notch : BitVec 128
  mode : Nat
  cfpPct : Nat
  sfMs : Nat
  netId : Nat
  deriving DecidableEq, Repr

/-- A link map: its number, and 8 rows of codes for the carriers K_LO to K_HI (R264). -/
structure ToneMap where
  tmi : Nat
  rows : List (List Nat)
  deriving DecidableEq, Repr

/-- A frame that waits for the medium (R265). -/
structure PlcTx where
  prio : Nat
  /-- Hop receiver; 0xFFFF for broadcast. -/
  next : Nat
  path : List Nat
  /-- The node of a DATA frame, whose route entry a failure makes invalid (R273). -/
  node : Option Nat
  /-- The MAC frame (R271). -/
  mac : List Byte
  tries : Nat
  be : Nat
  deriving DecidableEq, Repr

/-- A received frame (R259 to R261, R271): the FCH, symbols erased, the outcomes of the RS decoder and the FCS, the PSDU with
its FCS, and the RSSI. `snr` holds the mean SNR of the last 16 data symbols of each phase on each carrier from K_LO to K_HI,
in 0.25 dB (R264). -/
structure PlcFrame where
  fch : BitVec 64
  erased : Nat
  rsOk : Bool
  fcsOk : Bool
  psdu : List Byte
  rssi : Int
  snr : List (List Int)
  deriving DecidableEq, Repr

/-- A slot of the contention-free period (R267). -/
structure PlcSlot where
  short : Nat
  len : Nat
  down : Bool
  deriving DecidableEq, Repr

/-- The tone maps of a link to a neighbour (R264): the map the TY9600 sends under, frames sent on it that
went unacknowledged in a row, the map in force for frames it receives, the one that replaced, and the
pace of its last TM_UPDATE. -/
structure PlcTones where
  tx : Option ToneMap := none
  missed : Nat := 0
  rx : Option ToneMap := none
  rxOld : Option ToneMap := none
  sentAt : Option Nat := none
  deriving DecidableEq, Repr

/-- One measurement of a reference cycle (R262): T in 0.01 µs from crossings or edges and the device µs
of the phase origin; for auto-detect the normalised autocorrelation of each lag from 50 µs to 20 ms in
2.5 µs steps, in millionths. -/
inductive RefMeasure where
  | edges (t : Nat) (origin : Nat)
  | silent
  | auto (acf : List Nat) (origin : Nat)
  deriving DecidableEq, Repr

/-- A power-line channel (R256). -/
structure PlcChan where
  /-- Frames waiting to be sent, oldest first (R265, R267). -/
  queue : List PlcTx := []
  /-- A DATA frame sent whose ACK has not come (R266). -/
  awaiting : Option PlcTx := none
  /-- The last 1,000 hop attempts, newest first: whether each went unacknowledged (R270). -/
  attempts : List Bool := []
  /-- The auto rule asks for coordinator mode (R270). -/
  auto : Bool := false
  /-- The pace at which coordinator mode began (R270). -/
  coordAt : Nat := 0
  /-- A beacon with LAST has been sent: the mode ends with this superframe (R270). -/
  last : Bool := false
  /-- The superframe number j of the last beacon (R267). -/
  sfSeq : Nat := 0
  /-- The active slot table (R268). -/
  active : List PlcSlot := []
  /-- The shadow slot table (R268). -/
  shadow : List PlcSlot := []
  /-- The shadow table after each change not yet copied, with the pace of the change (R268). -/
  changes : List (Nat × List PlcSlot) := []
  /-- The last three measurements that found T, newest first (R262). -/
  measured : List Nat := []
  /-- Measurements in a row below 0.3 at the locked lag (R262). -/
  weak : Nat := 0
  /-- Device µs of phase 0 (R262, R263). -/
  origin : Nat := 0
  /-- The tone maps held, by their nodes (R264). -/
  tones : Map PlcTones := []
  /-- The pace of the last ROUTE_ADV (R272). -/
  advAt : Option Nat := none
  deriving DecidableEq, Repr

/-- A power-line transmission as sent: TX_LEVEL, PLx_TXEN as it rises and falls in µs from the first sample, the FCH, the
PSDU, and the bits that each symbol after the preamble carries, carrier by carrier (R256 to R264). `slot` is the backoff slot
of a frame under CSMA (R265). -/
structure PlcOut where
  level : Nat
  txen : Int × Int
  slot : Nat
  fch : BitVec 64
  psdu : List Byte
  symbols : List (List (List Bool))
  deriving DecidableEq, Repr

/-- A power-line JOIN_REQ that waits for its command (R274): channel, request and path of relays. -/
structure PlcJoin where
  chan : Nat
  req : JoinReq
  path : List Nat
  cost : Nat
  deriving DecidableEq, Repr

/-- Power line (R256 to R277). -/
structure PlcState where
  chans : Map PlcChan := []
  joins : List PlcJoin := []
  /-- TM_UPDATEs received: channel, hop sender, map. -/
  toneMaps : List (Nat × Nat × ToneMap) := []
  advSeq : Nat := 0
  deriving DecidableEq, Repr

end Sys2Proof.Machine
end

