-- ==== Sys2Proof/Types/Pace.lean ====
section
/-! DEFINITION. Data of chapter 02: the pace plan, the signers and register initial values of a
Warp image, and the state of the pace scheduler and of staging. -/

namespace Sys2Proof.Machine

/-- An entry of the PACE_PLAN section (R26). -/
structure PaceEntry where
  engine : Nat
  lane : Nat
  quanta : BitVec 16
  costUs : Nat
  deadline : Nat
  deriving DecidableEq, Repr

/-- An entry of the SIGNERS section (R33, R468): algorithm, key length and the 64 key bytes. `reservedZero`: its
reserved bytes are 0. -/
structure SignerEntry where
  alg : Nat
  keyLen : Nat
  key : List Byte
  reservedZero : Bool
  deriving DecidableEq, Repr

/-- A signature block of an image (R33): the key it names and the signature. -/
structure SigBlock where
  alg : Nat
  keyId : BitVec 64
  sig : List Byte
  deriving DecidableEq, Repr

/-- An entry of the REG_INIT section (R33, R34). -/
structure RegInit where
  addr : Nat
  value : Word
  mask : Word
  flags : Word
  deriving DecidableEq, Repr

/-- Bit 0 of FLAGS: hosts may not write the selected bits (R34). -/
def RegInit.lock (e : RegInit) : Bool := e.flags.getLsbD 0

/-- The pace scheduler (R22 to R31). -/
structure PaceState where
  /-- `PACE_COUNT` (R23). -/
  count : BitVec 64 := 0
  /-- The quantum in progress (R22). -/
  quantum : Nat := 0
  /-- The paces in which each engine has had quanta (R30). -/
  turns : Map Nat := []
  /-- Each engine's last ten overruns, newest first: the pace, and its number among those in which the engine has
  quanta (R30). -/
  overruns : Map (List (Nat × Nat)) := []
  deriving DecidableEq, Repr

/-- One staged register (R44): the bits staged and their values. -/
structure Staged where
  mask : Word
  value : Word
  deriving DecidableEq, Repr

/-- The states of a commit (SYS_COMMIT_STAT.STATE). -/
inductive CommitState where
  | idle | pending | applied | rejected
  deriving DecidableEq, Repr

/-- The stage lock and the staged set (R44 to R47, R470). -/
structure StageState where
  /-- The context that holds the lock. -/
  owner : Option Nat := none
  /-- Staged registers by address. -/
  set : Map Staged := []
  /-- The pace of the last staged write, GO or ACQUIRE (R45). -/
  touched : Nat := 0
  state : CommitState := .idle
  /-- The pace in whose quantum 15 the pending commit is checked (R46). -/
  checkAt : Nat := 0
  /-- The pending commit passed its check and applies at the next boundary (R46). -/
  accepted : Bool := false
  deriving DecidableEq, Repr

/-- What a pace boundary finds. `conv`: the conversion of each TSENSE input made in the pace that ended (R77);
`bad`: blocks found bad where an image makes namespaces (R294); `allDone`: every scheduled lane has reported the end
of its pace work since the last reload of the watchdog (R437); `alive`: PAIR_ALIVE_IN toggled, `actIn`: the level of
PAIR_ACT_IN (R388). -/
structure BoundaryIn where
  conv : List (Option Nat)
  bad : List (Nat × Nat)
  allDone : Bool
  alive : Bool
  actIn : Bool
  /-- The level of LEGAL_UPD (R213). -/
  legalUpd : Bool
  /-- What read back wrong twice of the sealed writes of the pace that ends and of this boundary: 0 point part, 1 pulse
  part, 2 legal tariff record, 3 ring (R117, R218). -/
  badLegal : List Nat
  deriving DecidableEq, Repr

end Sys2Proof.Machine
end

