-- ==== Sys2Proof/Types/Sealed.lean ====
section
/-! DEFINITION. Data of chapter 10: the LEGAL section, the two queues, the legal event log, the sealed
slots, the display, the keypad and the optical port. -/

namespace Sys2Proof.Machine

/-- A DISP item of the LEGAL section (R224). -/
structure DispItem where
  mp : Nat
  code : Nat
  rate : Nat
  dec : Nat
  deriving DecidableEq, Repr

/-- The LEGAL section (R224). -/
structure LegalSection where
  mpEntries : Nat
  flags : BitVec 8
  dispCount : Nat
  dispScroll : Nat
  mpCal : List Nat
  optAddr : List Byte
  disp : List DispItem
  deriving DecidableEq, Repr

/-- A legal event entry (R218, R471): DATA as a 64-bit number. -/
structure LegalEntry where
  lseq : Nat
  code : Nat
  mp : Nat
  opSeconds : Nat
  time : Nat
  data : Nat
  deriving DecidableEq, Repr

/-- A message of the export queue (R217). -/
inductive Export where
  | interval (r : IntervalRecord)
  | snapshot (p : PointSnapshot)
  | legalEvent (e : LegalEntry) (chain : BitVec 128)
  | reqResult (seq : Nat) (cause : Nat) (data : List Byte)
  | keypadToken (shortNo : Nat) (token : List Nat)
  deriving DecidableEq, Repr

/-- A message of the request queue (R217). -/
structure Request where
  seq : Nat
  type : Nat
  body : List Byte
  deriving DecidableEq, Repr

/-- What waits for the REQ_RESULT of a request: items by the handle of their task. -/
inductive RequestUse where
  | none
  | calSet (task item : Nat) (set : List Byte)
  | calCancel (task item cal : Nat)
  | item (task item : Nat)
  deriving DecidableEq, Repr

/-- A display command (R219): code and payload. -/
structure DispFrame where
  code : Nat
  payload : List Byte
  deriving DecidableEq, Repr

/-- What the display shows (R220, R221). A note that waits behind a request is shown for what is left of its seconds. -/
inductive Showing where
  | stepping
  | note (text : List Byte) (until_ : Nat)
  | request (digit : Nat) (until_ : Nat) (behind : Option (List Byte × Nat))
  deriving DecidableEq, Repr

/-- Keys taken so far (R221, R222). -/
inductive KeyEntry where
  | idle
  | request (digit : Option Nat)
  | short (digits : List Nat) (last : Nat)
  | token (shortNo : Nat) (digits : List Nat) (last : Nat)
  deriving DecidableEq, Repr

/-- The optical exchange (R223). -/
inductive Optical where
  | idle
  | identified
  /-- A data message is on the line until a pace. -/
  | reading (until_ : Nat)
  deriving DecidableEq, Repr

/-- An activation of a sealed slot (R215, R216): the slot, the boundary it is due, and once the cores
restart the boundary b, the former slot and whether the change is traced. -/
structure SealedAct where
  slot : Nat
  due : Nat
  begun : Option (Nat × Nat × Bool) := none
  /-- SEQ of the request that waits for its result. -/
  seq : Nat
  deriving DecidableEq, Repr

/-- The sealed partition beyond metering and tariffs (R210 to R224). -/
structure SealedState where
  /-- Messages the sealed cores hold for the full export queue, oldest first, at most 64 (R217). -/
  held : List (List (BitVec 64)) := []
  /-- Requests of the application cores that wait for room in the request queue, oldest first (R217). -/
  outbox : List (List (BitVec 64)) := []
  /-- Words popped from the export queue and not yet taken as a message (R217). -/
  exportRead : List (BitVec 64) := []
  /-- Words popped from the request queue and not yet taken as a message (R217). -/
  requestRead : List (BitVec 64) := []
  /-- SEQ of the last message of the export queue (R217). -/
  exportSeq : Nat := 0
  /-- SEQ of the last message of the request queue (R217). -/
  reqSeq : Nat := 0
  /-- What waits for each REQ_RESULT, by the SEQ of its request (R217). -/
  waiting : List (Nat × RequestUse) := []
  /-- The images in the three slots, to the end of their signatures (R15, R211). -/
  slots : Map (List Byte) := []
  /-- The activation in progress or due (R215, R216). -/
  act : Option SealedAct := none
  /-- Entries of the ring as written, each with its CHAIN, oldest first (R218). -/
  ring : List (LegalEntry × BitVec 128) := []
  /-- CHAIN of the last entry (R218). -/
  chain : BitVec 128 := 0
  /-- LSEQ of the last entry (R218). -/
  lseq : Nat := 0
  /-- Entries made and not yet written to the ring (R218). -/
  fresh : List LegalEntry := []
  /-- The exported log in the EVENTS namespace, oldest first (R218). -/
  log : List (LegalEntry × BitVec 128) := []
  /-- Interval records of own points kept by the application cores, by point and START (R113). -/
  records : List IntervalRecord := []
  /-- Display transfers waiting for their answer, oldest first (R219). -/
  frames : List DispFrame := []
  /-- Failed tries of the transfer in progress (R219). -/
  tries : Nat := 0
  /-- The pace at which a display in fault is sent INIT again (R219). -/
  initAt : Nat := 0
  /-- The DISP item shown (R220). -/
  dispItem : Nat := 0
  /-- The pace of the last step of the display (R220). -/
  stepped : Nat := 0
  /-- What the display shows (R220, R221). -/
  showing : Showing := .stepping
  /-- The keypad entry in progress (R221, R222). -/
  keys : KeyEntry := .idle
  /-- Entry timeout in seconds (R222). -/
  keyTimeout : Nat := 30
  /-- The exchange on the optical port (R223). -/
  optical : Optical := .idle
  /-- The LEGAL_UPD level at the last pace boundary (R213). -/
  updLevel : Bool := false
  /-- The boundaries in a row at which LEGAL_UPD has held its level (R213). -/
  updHeld : Nat := 0
  deriving DecidableEq, Repr

end Sys2Proof.Machine
end

