-- ==== Sys2Proof/Types/Output.lean ====
section
/-! DEFINITION. What the device sends out of its ports, as a log for the reader of a run. -/

namespace Sys2Proof.Machine

/-- One thing the device sends or drives. -/
inductive Output where
  /-- A RESP or NOTICE to a host or the service seat (R51). -/
  | waybill (w : OutWaybill)
  /-- The bytes of a frame on the display port (R219). -/
  | display (bytes : List Byte)
  /-- The identification of the optical port, the lines of a data message, and its ETX (R223). -/
  | opticalIdent
  | opticalData (baud : Nat) (lines : List (List Byte × List Byte))
  | opticalEnd
  | opticalBreak
  /-- What a pop delivers: queue, word, POISON tag, and UNDERRUN (R320, R321). -/
  | popped (queue : Nat) (word : BitVec 64) (poison underrun : Bool)
  /-- The confirmation of a meter's data in its protocol (R137). -/
  | meterConfirm (index : Nat)
  /-- A mesh transmission: radio, channel, and what it sends (R229, R249). -/
  | mesh (radio channel : Nat) (t : MeshTx)
  /-- The receiver of a radio opens at a µs of pace time for a connection event; RFx_LNA_EN with it where `lna` (R227, R244). -/
  | receiver (radio : Nat) (opens : Int) (lna : Bool)
  /-- The lines of a radio, or PLx_TXEN of a channel, go low: in reset, in role OFF and at SAVE (R227, R256, R414). -/
  | radioLow (radio : Nat)
  | plcLow (chan : Nat)
  /-- A power-line transmission (R259). -/
  | powerLine (chan : Nat) (o : PlcOut)
  /-- The level of a pulse output once it is driven (R119, R291). -/
  | pulse (output : Nat) (asserted : Bool)
  /-- STATUS of a TX descriptor; a part written to the buffer of an RX descriptor, with USED and STATUS OK; and an MSI-X
  message write to the address and with the data of the endpoint's table (R18, R283). -/
  | txStatus (endpoint slot index cause : Nat)
  | rxFill (endpoint slot index addr : Nat) (part : List Byte)
  | msix (endpoint vector addr data : Nat)
  /-- What the SPI host port returns (R285). -/
  | spi (bytes : List Byte)
  /-- A reply of an Ethernet port by ARP, NDP or echo (R281). -/
  | ethReply (port : Nat)
  /-- Delay_Req (R282). -/
  | delayReq (port seq : Nat)
  /-- A poll of a meter on a serial port (R130). -/
  | serialPoll (port meter : Nat)
  /-- The identity statement and the nonce sent at link-up (R386). -/
  | pairHello (statement nonce : List Byte)
  /-- A body handed to transmission to a meter, which the digest of its pace holds back (R398). -/
  | envelope (meter : Nat) (body : List Byte)
  /-- PAIR_ALIVE_OUT toggles (R388). -/
  | alive
  /-- The acknowledgement of a ledger entry (R394). -/
  | ledgerAck (pace : Nat)
  /-- The cause of a register write (R9). -/
  | regCause (who : Requester) (addr cause : Nat)
  deriving DecidableEq, Repr

end Sys2Proof.Machine
end

