-- ==== Sys2Proof/Types/Power.lean ====
section
/-! DEFINITION. Data of chapters 20 and 21: supplies, SAVE, resets, device time, health and dumps. -/

namespace Sys2Proof.Machine

/-- An input supply (R409). -/
inductive Supply where
  | vinA | vinB
  deriving DecidableEq, Repr

/-- Whether the device runs, saves, serves only the service seat, or is off (R414, R416, R426). -/
inductive Phase where
  | run | save | service | off
  deriving DecidableEq, Repr

/-- The save-set directory (R415). -/
structure SaveDir where
  pace : Nat
  time : Nat
  batch : Nat
  units : List Nat
  steps : BitVec 8
  vEnd : Nat
  paces : Nat
  complete : Bool
  deriving DecidableEq, Repr

/-- The parameter page of a die (R296). -/
structure DiePage where
  pageBytes : Nat
  spareBytes : Nat
  pagesPerBlock : Nat
  blocksPerDie : Nat
  /-- The fastest NV-DDR3 rate it declares. -/
  rateMts : Nat
  deriving DecidableEq, Repr

/-- A reset that waits (R355, R372, R375, R427): its cause and the pace it is due. -/
structure DueReset where
  cause : Nat
  pace : Nat
  deriving DecidableEq, Repr

/-- Supplies, hold-up and resets (R409 to R417, R424 to R427). -/
structure PowerState where
  phase : Phase := .service
  /-- The dies and the DRAM found at start (R16, R296). -/
  dies : List DiePage := []
  dramGib : Nat := 0
  /-- Inputs fitted on the board. -/
  fitted : List Supply := [.vinA, .vinB]
  /-- The pace since which each good input has been good. -/
  goodSince : List (Supply × Nat) := []
  /-- The hold-up converter runs (R412). -/
  holdUp : Bool := false
  /-- The next boundary is the cut (R412). -/
  cutDue : Bool := false
  /-- The directory of the last SAVE, in MRAM. -/
  dir : Option SaveDir := none
  /-- A directory not yet reported by EV_SAVE_RESULT belongs to the cut before this start. -/
  dirNew : Bool := false
  /-- A scheduled reset of R427. -/
  due : Option DueReset := none
  /-- A start that has to run: its cause, and whether it is a warm restart (R424, R425). -/
  start : Option (Nat × Bool) := none
  /-- A clock fault whose EV_REF_FAULT the next start records (R418). -/
  refFault : Bool := false
  /-- VBAT_LOW recorded at this start (R417). -/
  vbatSeen : Bool := false
  deriving DecidableEq, Repr

/-- Voltages as the supply monitor reads them: VIN_A, VIN_B, VSYS and VBAT in mV, VSTORE in 10 mV. -/
structure Levels where
  vinA : Nat
  vinB : Nat
  vsys : Nat
  vstore : Nat
  vbat : Nat
  deriving DecidableEq, Repr

/-- What a full start finds (R16, R38, R341, R359, R409, R425). -/
structure StartIn where
  fitted : List Supply
  goodA : Bool
  goodB : Bool
  levels : Levels
  /-- Dies and DRAM found. -/
  dies : List DiePage
  dramGib : Nat
  /-- Device time the RTC gives, in ns. -/
  rtcNs : Nat
  /-- The root that the corrected response of the PUF forms, and the raw bits corrected (R341). -/
  root : BitVec 256
  corrected : Nat
  /-- Which of the two copies of the active image read back. -/
  copies : List Bool
  /-- Which of the two MRAM copies of the open event record are valid (R335). -/
  records : Bool × Bool
  /-- Which of the two copies of the NAND boot record read back (R299). -/
  boots : Bool × Bool
  /-- The newest copy of the boot record was being written as the cut fell, and fails its CRC (R371). -/
  bootTorn : Bool
  /-- The stored nodes of the signing trees are lost. -/
  treesLost : Bool
  deriving DecidableEq, Repr

/-- How far SAVE gets: the last step that completes, the paces and VSTORE (10 mV) at its end so far, and the
parts of the checkpoint and of the legal record that read back wrong (R117, R414). -/
structure SaveRun where
  upto : Nat
  paces : Nat
  vEnd : Nat
  bad : List Nat
  deriving DecidableEq, Repr

/-- How a dump ends: whole, at a second fatal error, or at a cut (R438). -/
inductive DumpEnd where
  | whole | second | cut
  deriving DecidableEq, Repr

/-- A source of device time, in the order of R421 (numbered as R336 numbers them). -/
inductive TimeSource where
  | host | ptp | pps | rtc
  deriving DecidableEq, Repr

/-- A host time sample that acts at the next boundary that is not a cut (R423). -/
structure HostSample where
  relative : Bool
  accMs : Nat
  value : Int
  slot : Nat
  item : Nat
  deriving DecidableEq, Repr

/-- Device time (R420 to R423, R472, R478). -/
structure ClockState where
  /-- Nanoseconds since 1970-01-01. -/
  ns : Nat := 0
  /-- Device time at the boundary before, in ns (R194). -/
  last : Nat := 0
  /-- Thousandths of a nanosecond carried to the next pace (R420). -/
  frac : Nat := 0
  /-- Offset still to be slewed out, in ns. -/
  slew : Int := 0
  /-- The pace of the last accepted sample of each source since it became valid. -/
  samples : List (TimeSource × Nat) := []
  /-- The last sample came from a host that R423 holds to HOLDOVER. -/
  hostHeld : Bool := false
  /-- The pace of the last SYNCED sample; negative when it lies before this start. -/
  synced : Option Int := none
  /-- Any source has given a sample since the start (R422). -/
  sampled : Bool := false
  /-- Host samples that act at the next boundary that is not a cut. -/
  hostSamples : List HostSample := []
  /-- A step marked for the next boundary that is not a cut: offset in ns and source (R420). -/
  step : Option (Int × TimeSource) := none
  /-- Device time the RTC was last set to, and the pace. -/
  rtcSet : Option (Nat × Nat) := none
  /-- The pace from which the 3,600 s to the next comparison of the RTC run (R422, R472). -/
  comparedAt : Nat := 0
  deriving DecidableEq, Repr

/-- A health item (R435). -/
structure HealthItem where
  code : Nat
  severity : Nat
  subject : Nat
  value : Int
  limit : Int
  deriving DecidableEq, Repr

/-- A fatal error in progress (R438). -/
structure Fatal where
  kind : Nat
  lane : Nat
  engine : Nat
  cause : Nat
  deriving DecidableEq, Repr

/-- A dump slot (R439): the header values that follow from nothing else, and its flags. -/
structure Dump where
  complete : Bool
  first : Bool
  handed : Bool
  noCkpt : Bool
  fatal : Fatal
  seq : Nat
  pace : Nat
  deviceTime : Nat
  opSeconds : Nat
  pwrCycles : Nat
  evtSeq : Nat
  warpSerial : Nat
  fwVersion : Nat
  checkShort : Nat
  identShort : Nat
  /-- The sections written: type and bytes. -/
  sections : List (Nat × List Byte)
  deriving DecidableEq, Repr

/-- Health, the watchdog and dumps (R429 to R440). -/
structure HealthState where
  /-- Consecutive evaluations with slack above S + 15 ps (R431). -/
  slack : Nat := 0
  /-- Consecutive tests at or above 1.30 × the budget of the level above (R433). -/
  goodTests : Nat := 0
  /-- Items sent: code, subject, severity, operating seconds (R435). -/
  sent : List (Nat × Nat × Nat × Nat) := []
  /-- EFF_DAYS lies below DAYS/4 (R432). -/
  berLow : Bool := false
  /-- First AFE gain measured after the image applied, by channel (R435 item 8). -/
  afeBase : Map Int := []
  /-- Paces of uncorrectable cache errors by core (R436). -/
  cacheErrors : Map (List Nat) := []
  /-- Pace boundaries counted since the watchdog's last reload (R437). -/
  watch : Nat := 0
  /-- The pace of a bite whose fatal sequence has not begun (R437). -/
  bite : Option Nat := none
  /-- The reset of R437 that took no dump: the next start records EV_WDOG_BITE. -/
  biteNoDump : Bool := false
  /-- A fatal error signalled and not yet run (R438). -/
  fatal : Option Fatal := none
  /-- The dump slots that hold a dump. -/
  dumps : Map Dump := []
  /-- SEQ of the newest dump. -/
  dumpSeq : Nat := 0
  /-- SEQ of the last dump reported, in MRAM (R439). -/
  dumpReported : Nat := 0
  /-- Every slot was left empty by a DUMP_CLEAR, or since manufacture: the next dump is FIRST. -/
  dumpFirst : Bool := true
  /-- The pace at which the capacitor test that runs began (R430). -/
  capFrom : Nat := 0
  /-- The daily capacitor test of this day has run (R429). -/
  testDay : Nat := 0
  /-- The pace of the last evaluation of slack (R429, R431). -/
  slackAt : Nat := 0
  /-- The days, counted as in `testDay`, of the last evaluation of bit errors and of the last daily measurement (R429). -/
  berDay : Nat := 0
  driftDay : Nat := 0
  deriving DecidableEq, Repr

end Sys2Proof.Machine
end

