-- ==== Sys2Proof/Types/Pair.lean ====
section
/-! DEFINITION. Data of chapter 19: the ledger and the state of a member of a pair. -/

namespace Sys2Proof.Machine

/-- What SAMPLES carries of a channel for a pace (R393): M, g, and whether the pace was over range, extrapolated, and zero. -/
structure ChannelPace where
  mag : Nat
  gain : Nat
  outOfRange : Bool
  extrapolated : Bool
  zero : Bool
  deriving DecidableEq, Repr

/-- One thing that TX_REPORT carries (R393): a reply to a node, with the LSN of its payload or 0; a payload acknowledged by
its node; an event of a connection served or skipped. -/
inductive TxEvent where
  | sent (short lsn : Nat)
  | acked (short : Nat)
  | served (short n : Nat)
  | skipped (short n : Nat)
  deriving DecidableEq, Repr

/-- A ledger record (R393). -/
inductive LedgerRecord where
  | samples (l : List Delivered) (channels : List ChannelPace)
  | frame (f : IngestFrame)
  | waybill (member : Nat) (m : Msg)
  | regWrite (context addr : Nat) (value mask : Word)
  | random (tag value : Nat)
  | time (src : TimeSource) (theta : Int)
  | txReport (l : List TxEvent)
  | warpApply (pace : Nat)
  | arbiterSeed (seed : Word)
  | handover
  | split
  | resyncMark
  | localNote (kind : Nat) (body : List Tlv)
  deriving DecidableEq, Repr

/-- A ledger entry E_p (R393). `crcOk`: MAGIC, VERSION, LENGTH and CRC hold. -/
structure LedgerEntry where
  last : Bool
  resyncStart : Bool
  pace : Nat
  records : List LedgerRecord
  crcOk : Bool
  deriving DecidableEq, Repr

/-- A self-check result (R399). -/
inductive CheckResult where
  | pass | fail | missing
  deriving DecidableEq, Repr

/-- What the members exchange at link-up (R386, R389). -/
structure PairPeer where
  /-- The partner's identity statement: its 144-byte body and the signature (R361). -/
  statement : List Byte
  /-- The partner's nonce, 16 bytes. -/
  nonce : List Byte
  /-- The REFCLK count over 1,000 toggles is exact (R389). -/
  refOk : Bool
  deriving DecidableEq, Repr

/-- A member of a pair (R385 to R408). -/
structure PairState where
  /-- The lane keys of R386 while they are held: PAIR 0TO1 and PAIR 1TO0. -/
  keys : Option (List Byte × List Byte) := none
  /-- Paces of tag failures within the last 1,000 (R386). -/
  tagFails : List Nat := []
  actOut : Bool := false
  /-- The member drives its shared outputs (R388, R391). -/
  shared : Bool := false
  /-- It became active by takeover (R408). -/
  byTakeover : Bool := false
  /-- Consecutive boundaries at which BOUNDARY has not run (R388). -/
  missedOwn : Nat := 0
  /-- Consecutive standby boundaries with no ALIVE toggle and no entry (R404). -/
  missed : Nat := 0
  /-- Consecutive boundaries with ACT_IN high and the link down (R408). -/
  actHigh : Nat := 0
  /-- Records of the entry being formed, oldest first. -/
  entry : List LedgerRecord := []
  /-- Entries stored by the standby and not executed. -/
  stored : List LedgerEntry := []
  /-- RANDOM values of the ledger not yet drawn. -/
  randoms : List Nat := []
  /-- Inputs of the standby's shared ports in the last 8 paces. -/
  inputs : List (Nat × IngestFrame) := []
  /-- Front-end samples of the ledger that are to be metered at the next boundary, one list per pace. -/
  samples : List (List Delivered × List ChannelPace) := []
  /-- The front-end samples of the standby itself in the last 8 paces (R391). -/
  ownSamples : List (Nat × List Delivered × List ChannelPace) := []
  /-- The pace of the newest entry executed. -/
  executed : Option Nat := none
  /-- The newest pace whose digest has matched (R397). -/
  matched : Option Nat := none
  /-- The pace at which the link of a standby in step went down. -/
  downAt : Option Nat := none
  /-- The PAIR_SWITCH item whose handover takes place at the next boundary (R406). -/
  handing : Option (Nat × Nat) := none
  /-- Boundaries left of a member that zeroised while active in step: at 2 it drops ACT_OUT, at 1 its shared outputs
  (R387). -/
  leaving : Nat := 0
  /-- Host-visible outputs not released, with their pace (R398). -/
  held : List (Nat × Output) := []
  /-- The first pace whose digests differ, while it is unsettled (R399). -/
  mismatch : Option Nat := none
  /-- E_r of a resynchronisation, and the bytes to copy. -/
  resync : Option (Nat × Nat) := none
  /-- The newest common checkpoint. -/
  common : Option Nat := none
  /-- Member was standby at its last cut (R403). -/
  wasStandby : Bool := false
  /-- The pace at which the member began to wait for its role. -/
  roleFrom : Nat := 0
  /-- A split (R377): 1 the first member activates, 2 the second, 3 the second has fallen back. -/
  split : Nat := 0
  /-- What the next TX_REPORT carries (R393). -/
  report : List TxEvent := []
  /-- ALIVE_IN toggled at the last boundary (R388). -/
  aliveOk : Bool := false
  /-- The link has brought an entry since the last boundary. -/
  entrySeen : Bool := false
  deriving DecidableEq, Repr

/-- PAIR_PLAN (R390). `headerOk`: VERSION, LENGTH, MEMBER_ENTRIES, FLAGS and reserved bytes are as R390
gives them. -/
structure PairPlan where
  headerOk : Bool
  prefer0 : Bool
  lagUs : Nat
  startWait : Nat
  ckptPaces : Nat
  idents : List (BitVec 256)
  addr1 : List (Word × BitVec 128)
  deriving DecidableEq, Repr

end Sys2Proof.Machine
end

