-- ==== Sys2Proof/Types/Ports.lean ====
section
/-! DEFINITION. Data of chapter 13: the PORTS section, the PCIe rings, the SPI host port, PTP and PPS. -/

namespace Sys2Proof.Machine

/-- A port entry of PORTS (R279). `reservedZero`: bytes 11 to 15 are 0. -/
structure PortEntry where
  role : Nat
  flags : BitVec 8
  slew : Nat
  filter : Nat
  rate : Nat
  frame : Nat
  deLead : Nat
  deLag : Nat
  reservedZero : Bool
  deriving DecidableEq, Repr

/-- An IP entry of PORTS (R279). `reservedZero`: bytes 3, 6 and 7 are 0. -/
structure IpEntry where
  flags : BitVec 8
  prefix4 : Nat
  prefix6 : Nat
  vlanId : Nat
  ipv4 : Word
  gw4 : Word
  ipv6 : BitVec 128
  gw6 : BitVec 128
  reservedZero : Bool
  deriving DecidableEq, Repr

/-- A tamper entry of PORTS (R279, R293). `reservedZero`: bytes 2 to 7 are 0. -/
structure TamperEntry where
  mode : Nat
  filter : Nat
  reservedZero : Bool
  deriving DecidableEq, Repr

/-- A sub-concentrator entry of PORTS (R279). -/
structure SubconEntry where
  port : Nat
  transport : Nat
  remotePort : Nat
  addr : BitVec 128
  deriving DecidableEq, Repr

/-- PORTS (R278, R279). `headerOk`: VERSION, LENGTH and the header bytes are as R278 gives them. -/
structure PortsPlan where
  headerOk : Bool
  ptpPort : Nat
  ports : List PortEntry
  ips : List IpEntry
  tampers : List TamperEntry
  subcons : List SubconEntry
  deriving DecidableEq, Repr

/-- One slot of a PCIe endpoint (R18, R283): the ring indexes, ADDR and LEN of each RX buffer posted and not yet filled, and
where IRQ enables its vector, the address and data that the host has programmed for it. -/
structure PcieSlot where
  txHead : Nat := 0
  rxTail : Nat := 0
  rxHead : Nat := 0
  buffers : List (Nat × Nat) := []
  irq : Option (Nat × Nat) := none
  deriving DecidableEq, Repr

/-- A TX descriptor as read from the host (R283), with the waybill its LEN bytes hold. -/
structure TxDescriptor where
  addr : Nat
  len : Nat
  waybill : Waybill
  deriving DecidableEq, Repr

/-- A PTP message on PTP_PORT (R282). Timestamps in ns; `correction` is the correction field. -/
inductive PtpMessage where
  /-- Sync: sequence, two-step, origin timestamp of a one-step master. -/
  | sync (seq : Nat) (twoStep : Bool) (origin correction : Int)
  | followUp (seq : Nat) (origin correction : Int)
  | delayResp (seq : Nat) (received correction : Int)
  | announce
  deriving DecidableEq, Repr

/-- The PTP exchange in progress (R282): t1 and t2 of a Sync as device-time stamps, and Delay_Req. -/
structure PtpState where
  syncSeq : Nat := 0
  /-- Origin time with correction, and local receive time. -/
  t1 : Option Int := none
  t2 : Int := 0
  /-- Sequence and local time of the Delay_Req sent. -/
  reqSeq : Nat := 0
  t3 : Option Int := none
  deriving DecidableEq, Repr

/-- What an Ethernet frame carries (R281). -/
inductive EthContent where
  /-- Answered as the protocol states: ARP, NDP, ICMP and ICMPv6 echo. -/
  | arp | ndp
  | echo (v6 : Bool)
  /-- A UDP datagram that holds a waybill. -/
  | waybill (w : Waybill)
  /-- A frame of a sub-concentrator, by UDP or on an outbound TCP connection. -/
  | subcon (entry : Nat) (f : IngestFrame)
  /-- Anything the TY9600 cannot use: fragments, options, extension headers, inbound TCP, a bad checksum. -/
  | unusable
  deriving DecidableEq, Repr

/-- The wired ports (R278 to R293). -/
structure PortState where
  /-- PCIe slots, by 4 × endpoint + slot. -/
  slots : Map PcieSlot := []
  /-- Waybills that wait for RX buffers, and the waybills that wait on the SPI host port as bytes, oldest first. -/
  pcieOut : List OutWaybill := []
  spiOut : List (List Byte) := []
  ptp : PtpState := {}
  /-- The pace of the last accepted PPS edge, the device time at it in ns, and whether a sentence has
  named it. -/
  edge : Option (Nat × Int × Bool) := none
  /-- The tamper entries in the VBAT domain (R293). -/
  tampers : List TamperEntry := []
  deriving DecidableEq, Repr

end Sys2Proof.Machine
end

