-- ==== Sys2Proof/Types/Queue.lean ====
section
/-! DEFINITION. Data of chapter 15: the QUEUE_PLAN section, the queue RAM and the arbiter. -/

namespace Sys2Proof.Machine

/-- A QUEUE_PLAN entry (R324). -/
structure QueueEntry where
  queue : Nat
  depthLog2 : Nat
  flags : BitVec 8
  base : Nat
  idle : BitVec 64
  deriving DecidableEq, Repr

/-- QUEUE_PLAN (R324): the tickets of the sixteen requesters and the queues. -/
structure QueuePlan where
  tickets : List Nat
  queues : List QueueEntry
  deriving DecidableEq, Repr

/-- A word of the queue RAM: 64 data bits and whether its parity is good (R321). -/
structure QueueWord where
  data : BitVec 64
  good : Bool
  deriving DecidableEq, Repr

/-- A queue: the words held, oldest first, and its read pointer (R318). WPTR follows from both. -/
structure HwQueue where
  words : List QueueWord := []
  rptr : Nat := 0
  deriving DecidableEq, Repr

/-- The queues and the lottery arbiter (R318 to R328). -/
structure QueState where
  queues : Map HwQueue := []
  /-- A grant is held: the requester. -/
  holder : Option Nat := none
  /-- Requesters that wait. -/
  waiting : BitVec 16 := 0
  /-- The state s (R325), and a seed that loads at the next draw (R326). -/
  lfsr : Word := 0
  seed : Option Word := none
  /-- The words of the durable queues in the save set, with their queue (R323). -/
  saved : Map (List QueueWord) := []
  /-- The event queue in the save set: it is a durable queue (R323, R329). -/
  events : List Post := []
  deriving DecidableEq, Repr

end Sys2Proof.Machine
end

