-- ==== Sys2Proof/Types/Storage.lean ====
section
/-! DEFINITION. Data of chapter 14: the STORAGE section and the NAND. -/

namespace Sys2Proof.Machine

/-- STORAGE (R296). -/
structure StoragePlan where
  dies : Nat
  stripeW : Nat
  pageBytes : Nat
  spareBytes : Nat
  pagesPerBlock : Nat
  blocksPerDie : Nat
  slcAddr : Nat
  slcOn : Nat
  slcOff : Nat
  rateMts : Nat
  sysBlocks : Nat
  slcPct : Nat
  opPct : Nat
  retentionDays : Nat
  minIvl : Nat
  nsMib : List Nat
  deriving DecidableEq, Repr

/-- A data page as programmed (R298): its LU, its sector-poison mask, and the four sectors. A page of a
namespace that the model keeps typed elsewhere has no sectors. -/
structure NandPage where
  lu : Nat
  mask : BitVec 4
  sectors : List (List Byte)
  deriving DecidableEq, Repr

/-- A superblock (R298): its group, mode, one (die, block) for each live die, the data pages programmed
in order (none where a program failed), and how far its life has gone (R313, R314). -/
structure Superblock where
  group : Nat
  slc : Bool
  blocks : List (Nat × Nat)
  pages : List (Option NandPage) := []
  isOpen : Bool := true
  /-- Stripe and position that the parity excludes (R313). -/
  excluded : Option Nat := none
  /-- At the head of the collection order. -/
  first : Bool := false
  /-- Blocks to retire instead of erasing them, with their cause. -/
  retire : List (Nat × Nat × Nat) := []
  /-- Data pages due for refresh (R316). -/
  refresh : List Nat := []
  released : Bool := false
  deriving DecidableEq, Repr

/-- A journal record (R307). MAP names its place by superblock and data page as well as by the physical page; OPEN names
each member die with its block, 0xFFFF for a failed one; CLOSE has the stripes written and the excluded position. -/
inductive JournalRec where
  | map (lu sb page phys : Nat)
  | opened (sb group : Nat) (slc : Bool) (blocks : List (Nat × Nat))
  | closed (sb stripes excluded : Nat)
  | release (sb : Nat)
  | free (die block : Nat)
  | retire (die cause block : Nat)
  | poison (lu : Nat)
  | unmap (lu count : Nat)
  deriving DecidableEq, Repr

/-- An entry of the map: a place, or the whole unit poisoned. An LU without an entry is unmapped. -/
inductive MapEntry where
  | place (sb page : Nat)
  | poisoned
  deriving DecidableEq, Repr

/-- What a map checkpoint holds (R308): the map, the blocks not free, the retired blocks, the erase counts, and the last
batch it includes. -/
structure FtlImage where
  map : Map MapEntry := []
  used : List (Nat × Nat) := []
  retired : List (Nat × Nat × Nat) := []
  /-- By 65,536·die + block. -/
  erases : Map Nat := []
  /-- Superblocks opened and not yet released, and those released. -/
  opened : List Nat := []
  released : List Nat := []
  seq : Nat := 0
  deriving DecidableEq, Repr

/-- A record produced and not yet committed: the pace, the record, the item that waits for it, and for a fold the
superblock and the pages it must hold before the record may be committed (R309). -/
structure JournalWait where
  pace : Nat
  record : JournalRec
  item : Option (Nat × Nat)
  hold : Option (Nat × Nat) := none
  deriving DecidableEq, Repr

/-- A journal batch as committed (R307). -/
structure JournalBatch where
  seq : Nat
  pace : Nat
  /-- FLAGS.MORE. -/
  more : Bool
  records : List JournalRec
  deriving DecidableEq, Repr

/-- A class-3 write that waits (R311). -/
structure BulkWait where
  slot : Nat
  item : Nat
  lba : Nat
  data : List Byte
  since : Nat
  deriving DecidableEq, Repr

/-- The NAND and its translation (R294 to R317). -/
structure StorageState where
  /-- The two copies of the boot record, on die 0 and die 1: bytes 0 to 23 of STORAGE; none where a copy is not valid
  (R299). -/
  boot : Option (List Byte) × Option (List Byte) := (none, none)
  /-- The sizes of the namespaces as laid out, in MiB (R300). -/
  sizes : List Nat := []
  /-- The map in DRAM. -/
  map : Map MapEntry := []
  sbs : Map Superblock := []
  /-- Superblock number last assigned. -/
  lastSb : Nat := 0
  /-- Blocks in use, awaiting erase or retired, by die and block. -/
  used : List (Nat × Nat) := []
  retired : List (Nat × Nat × Nat) := []
  /-- Blocks whose erase has begun. -/
  erasing : List (Nat × Nat) := []
  /-- Erase counts by 65,536·die + block. -/
  erases : Map Nat := []
  failed : List Nat := []
  /-- Records not committed, oldest first. -/
  waiting : List JournalWait := []
  /-- The newest complete checkpoint, and the one before it (R308). -/
  ckpt : FtlImage := {}
  older : Option FtlImage := none
  /-- The batches committed since the newest checkpoint, oldest first. -/
  log : List JournalBatch := []
  writes : List BulkWait := []
  /-- Units freed by collection since the last class-3 write. -/
  freed : Nat := 0
  deriving DecidableEq, Repr

end Sys2Proof.Machine
end

