-- ==== Sys2Proof/Types/Warp.lean ====
section
/-! DEFINITION. The Warp image (R32, R33) as its checked byte layout decodes: header, signatures
and sections. -/

namespace Sys2Proof.Machine

/-- A Warp image (R32): its bytes and what they decode to (parseWarp). `layoutOk` is the outcome of the byte checks
of loader check 1: MAGIC, FORMAT, HEADER_LEN, HEADER_CRC, IMAGE_LEN, directory layout and section CRCs; `present` lists
the section types of the directory; `reservedZero` says that the constants and the reserved bytes and bits that the
layout tables of the sections give are as they give them. -/
structure WarpImage where
  bytes : List Byte
  layoutOk : Bool
  hwType : Nat
  minRev : Nat
  dualSign : Bool
  pair : Bool
  serial : Word
  denetVer : Word
  buildTime : Nat
  sigs : List SigBlock
  present : List Nat
  reservedZero : Bool
  ports : PortsPlan
  sensorPlan : SensorPlan
  qtyPlan : QtyPlan
  legal : LegalSection
  topology : List TopoNode
  queuePlan : QueuePlan
  storage : StoragePlan
  rfBands : Option RfBands
  plcBands : Option (List PlcConf)
  pairPlan : Option PairPlan
  hostPlan : List HostEntry
  pacePlan : List PaceEntry
  signers : List SignerEntry
  regInit : List RegInit
  deriving DecidableEq, Repr

/-- The active and pending images (R37 to R40, R465). -/
structure WarpState where
  active : Option WarpImage := none
  waiting : Option WarpImage := none
  /-- The scheduled apply pace of the pending image (R40). -/
  sched : Option Nat := none
  /-- The Warp anti-rollback counter in MRAM (R37). -/
  counter : Word := 0
  /-- The last load or apply was refused, or its schedule ended (SYS_WARP_STAT.STATE 3). -/
  refused : Bool := false
  /-- The two copies of the active image in the system area, from which a start takes it (R38). -/
  stored : List WarpImage := []
  /-- The pace boundary at which the last image was applied (R215). -/
  appliedAt : Option Nat := none
  deriving DecidableEq, Repr

end Sys2Proof.Machine
end

