-- ==== Sys2Proof/Syntax.lean ====
section
/-! DEFINITION. The commands of the TY9600: one constructor for each row of the opcode table of
spec/, with what its surroundings supply as operands. -/

namespace Sys2Proof

open Machine

/-- The commands and events of the opcode table. -/
inductive Instr where
  /-- PACE_BOUNDARY (R25). -/
  | paceBoundary (i : BoundaryIn)
  /-- APPLY_SCHEDULED_IMAGE (R40). -/
  | applyScheduledImage (bad : List (Nat × Nat)) (badLegal : List Nat)
  /-- COMMIT_CHECK (R46). -/
  | commitCheck
  /-- COMMIT_APPLY (R46). -/
  | commitApply
  /-- ENGINE_OVERRUN (R28). -/
  | engineOverrun (engine : Nat) (lane : Nat)
  /-- JOB_DEADLINE_MISS (R31). -/
  | jobDeadlineMiss (engine : Nat) (lane : Nat) (began : Nat)
  /-- STAGE_ACQUIRE (R45). -/
  | stageAcquire (who : Requester)
  /-- STAGE_RELEASE (R45). -/
  | stageRelease (who : Requester)
  /-- COMMIT_GO (R46). -/
  | commitGo (who : Requester)
  /-- COMMIT_DISCARD (R470). -/
  | commitDiscard (who : Requester)
  /-- STAGE_TIMEOUT (R45). -/
  | stageTimeout
  /-- WAYBILL_PART (R466). -/
  | waybillPart
  /-- PART_TIMEOUT (R53). -/
  | partTimeout
  /-- SESSION_OPEN (R54). -/
  | sessionOpen (m : Msg)
  /-- SESSION_CONFIRM (R54). -/
  | sessionConfirm (m : Msg)
  /-- SESSION_CLOSE (R58). -/
  | sessionClose (m : Msg)
  /-- IDENTITY (R54). -/
  | identity (m : Msg)
  /-- HANDSHAKE_TIMEOUT (R54). -/
  | handshakeTimeout
  /-- SESSION_LIFE_EXPIRY (R58). -/
  | sessionLifeExpiry
  /-- REG_READ (R59). -/
  | regRead (m : Msg)
  /-- REG_WRITE (R59). -/
  | regWrite (m : Msg)
  /-- TASK_QUERY (R64). -/
  | taskQuery (m : Msg)
  /-- TASK_CANCEL (R67). -/
  | taskCancel (m : Msg)
  /-- TASK_ITEM_END (R66). -/
  | taskItemEnd (slot : Nat) (readBack : Bool) (readable : Bool)
  /-- TASK_ITEMS_NOTICE (R66). -/
  | taskItemsNotice
  /-- ACK (R71). -/
  | ack (m : Msg)
  /-- NOTICE_RESEND (R71). -/
  | noticeResend
  /-- HOST_CLOSE (R58). -/
  | hostClose (who : Requester) (c : Nat)
  /-- HOST_RESEND (R71). -/
  | hostResend (who : Requester) (c : Nat)
  /-- WARP_LOAD (R465). -/
  | warpLoad (m : Msg) (image : List Byte)
  /-- WARP_APPLY (R465). -/
  | warpApply (m : Msg) (pace : Nat)
  /-- METER_WRITE (R148). -/
  | meterWrite (m : Msg)
  /-- READINGS_PUSH (R148). -/
  | readingsPush (m : Msg)
  /-- READINGS_GET (R148). -/
  | readingsGet (m : Msg)
  /-- TARIFF_LOAD (R197). -/
  | tariffLoad (m : Msg)
  /-- BILLING_GET (R197). -/
  | billingGet (m : Msg)
  /-- TOKEN_SUBMIT (R208). -/
  | tokenSubmit (m : Msg)
  /-- TOKEN_APPLY (R207). -/
  | tokenApply
  /-- BALANCE_GET (R171). -/
  | balanceGet (m : Msg)
  /-- FW_BLOCK (R367). -/
  | fwBlock (m : Msg)
  /-- FW_METER (R378). -/
  | fwMeter (m : Msg)
  /-- BULK_READ (R302). -/
  | bulkRead (m : Msg)
  /-- BULK_WRITE (R301). -/
  | bulkWrite (m : Msg)
  /-- BULK_DISCARD (R303). -/
  | bulkDiscard (m : Msg)
  /-- TIME_SET (R423). -/
  | timeSet (m : Msg)
  /-- ATTEST (R362). -/
  | attest (m : Msg) (readBack : Bool) (levels : BitVec 8)
  /-- ENROL_RESET (R355). -/
  | enrolReset (bad : List Nat)
  /-- EVENT_READ (R337). -/
  | eventRead (m : Msg)
  /-- DUMP_READ (R440). -/
  | dumpRead (m : Msg) (readable : Bool)
  /-- PAIR_SWITCH (R406). -/
  | pairSwitch (m : Msg)
  /-- RESET (R427). -/
  | resetCmd (m : Msg)
  /-- COMMANDED_RESET (R427). -/
  | commandedReset (r : SaveRun)
  /-- METROLOGY_SAMPLE (R96). -/
  | metrologySample (raw : List RawSample)
  /-- ZERO_WINDOW_RESTART (R86). -/
  | zeroWindowRestart (i : Nat)
  /-- SENSOR_FAULT (R76). -/
  | sensorFault (i : Nat)
  /-- SENSOR_FAULT_CLEAR (R76). -/
  | sensorFaultClear (i : Nat)
  /-- REFINE_START (R92). -/
  | refineStart (who : Requester) (ch : Nat)
  /-- REFINE_ABORT (R94). -/
  | refineAbort (who : Requester)
  /-- REFINE_SOLVE (R93). -/
  | refineSolve
  /-- METROLOGY_READY (R98). -/
  | metrologyReady
  /-- INTERVAL_CLOSE (R110). -/
  | intervalClose (n : Nat)
  /-- CHECKPOINT_WRITE (R114). -/
  | checkpointWrite (bad : List Nat)
  /-- PULSE_EMIT (R119). -/
  | pulseEmit (j : Nat)
  /-- PULSE_WIDTH_END (R119). -/
  | pulseWidthEnd (j : Nat)
  /-- DEMAND_CLOSE (R186). -/
  | demandClose (n : Nat)
  /-- TARIFF_SWITCH (R177). -/
  | tariffSwitch (c : Nat)
  /-- POINT_BILLING_CLOSE (R189). -/
  | pointBillingClose (n : Nat)
  /-- METER_GRACE_CLOSE (R190). -/
  | meterGraceClose (i : Nat)
  /-- INGEST_FRAME (R132). -/
  | ingestFrame
  /-- READING_DURABLE (R137). -/
  | readingDurable
  /-- CHUNK_WRITE (R127). -/
  | chunkWrite (chunk : Nat)
  /-- SERIAL_POLL (R130). -/
  | serialPoll (ser : Nat)
  /-- SERIAL_RESPONSE_TIMEOUT (R287). -/
  | serialResponseTimeout (ser : Nat)
  /-- SERIAL_FRAME (R286). -/
  | serialFrame (ser : Nat) (bad : Nat) (us : Nat) (f : IngestFrame)
  /-- NODE_BALANCE (R155). -/
  | nodeBalance (n : Nat) (m : Nat)
  /-- LOCALISATION (R167). -/
  | localisation (n : Nat)
  /-- BALANCE_REVISION (R162). -/
  | balanceRevision
  /-- REVISION_NOTICE (R163). -/
  | revisionNotice
  /-- REBASE (R173). -/
  | rebase (who : Requester) (node : Nat)
  /-- CLEAR_ALERT (R173). -/
  | clearAlert (who : Requester) (node : Nat)
  /-- RELOCATE (R173). -/
  | relocate (who : Requester) (node : Nat)
  /-- RELEARN (R173). -/
  | relearn (who : Requester) (node : Nat)
  /-- TOKEN_FORWARD (R205). -/
  | tokenForward
  /-- KEYPAD_TOKEN (R205). -/
  | keypadToken
  /-- LEGAL_UPD_CHANGE (R213). -/
  | legalUpdChange
  /-- FW_ACTIVATE (R215). -/
  | fwActivate
  /-- SEALED_ACTIVATION (R216). -/
  | sealedActivation (runs : Bool) (bad : List Nat)
  /-- SEALED_FALLBACK (R216). -/
  | sealedFallback
  /-- CAL_DELIVER (R178). -/
  | calDeliver
  /-- CAL_DIGEST (R178). -/
  | calDigest (bad : List Nat)
  /-- BILL_CLOSE_REQUEST (R217). -/
  | billCloseRequest
  /-- DISPLAY_NOTE (R220). -/
  | displayNote
  /-- DISPLAY_NOTE_END (R220). -/
  | displayNoteEnd
  /-- KEYPAD_CFG (R222). -/
  | keypadCfg
  /-- INTERVAL_RECORD (R113). -/
  | intervalRecord
  /-- SNAPSHOT (R189). -/
  | snapshot
  /-- LEGAL_EVENT (R218). -/
  | legalEvent
  /-- REQ_RESULT (R217). -/
  | reqResult
  /-- DISPLAY_FRAME (R219). -/
  | displayFrame (answer : Option Bool)
  /-- DISPLAY_INIT_RETRY (R219). -/
  | displayInitRetry
  /-- DISPLAY_STEP (R220). -/
  | displayStep
  /-- KEYPAD_KEY (R222): the ASCII code of a key of R289. -/
  | keypadKey (k : Nat)
  /-- KEYPAD_ENTRY_TIMEOUT (R222). -/
  | keypadEntryTimeout
  /-- DISPLAY_REQUEST_END (R221). -/
  | displayRequestEnd
  /-- OPTICAL_REQUEST (R223). -/
  | opticalRequest (address : List Byte)
  /-- OPTICAL_ACK (R223). -/
  | opticalAck (option : Nat) (baud : Nat)
  /-- CONNECTION_EVENT (R240). -/
  | connectionEvent (short : Nat) (n : Nat) (busy : Bool) (pre : Int) (frames : List NodeFrame)
  /-- CHANNEL_RETURN (R243). -/
  | channelReturn (radio : Nat) (channel : Nat)
  /-- JOIN_REQ (R237). -/
  | joinReq (radio : Nat) (fcsOk : Bool) (bytes : List Byte) (fin : Int)
  /-- CONNECTION_LOST (R242). -/
  | connectionLost (short : Nat)
  /-- FLOOD_RECEIVE (R250). -/
  | floodReceive (radio : Nat) (channel : Nat) (fcsOk : Bool) (bytes : List Byte) (fin : Int)
  /-- FLOOD_SEND (R250). -/
  | floodSend
  /-- WMBUS_FRAME (R255). -/
  | wmbusFrame (radio : Nat) (crcOk : Bool) (f : IngestFrame)
  /-- ENVELOPE_SEND (R233). -/
  | envelopeSend
  /-- JOINED_TABLE_WRITE (R246). -/
  | joinedTableWrite
  /-- TX_WAIT_EXPIRY (R253). -/
  | txWaitExpiry
  /-- SYNTH_LOCK_FAIL (R255). -/
  | synthLockFail (radio : Nat)
  /-- PLC_FRAME_RECEIVE (R261). -/
  | plcFrameReceive (chan : Nat) (f : PlcFrame)
  /-- TM_UPDATE (R264). -/
  | tmUpdate
  /-- CSMA_ATTEMPT (R265). -/
  | csmaAttempt (chan : Nat) (at_ : Nat) (sensed : Bool)
  /-- PLC_ACK_TIMEOUT (R266). -/
  | plcAckTimeout (chan : Nat)
  /-- REFERENCE_MEASURE (R262). -/
  | referenceMeasure (chan : Nat) (m : RefMeasure)
  /-- SUPERFRAME_START (R267). -/
  | superframeStart (chan : Nat)
  /-- SLOT_REQ (R268). -/
  | slotReq
  /-- BEACON_LOSS (R269). -/
  | beaconLoss
  /-- ROUTE_ADV (R272). -/
  | routeAdv (chan : Nat)
  /-- PLC_JOIN_REQ (R274). -/
  | plcJoinReq
  /-- PLC_LINK_LOST (R275). -/
  | plcLinkLost (short : Nat)
  /-- E2E_RESEND (R275). -/
  | e2eResend (short : Nat)
  /-- ETHERNET_FRAME (R281). -/
  | ethernetFrame (port : Nat) (len : Nat) (content : EthContent)
  /-- PTP_MESSAGE (R282). -/
  | ptpMessage (domain : Nat) (msg : PtpMessage) (at_ : Int) (sent : Int)
  /-- TX_DOORBELL (R283). -/
  | txDoorbell (e : Nat) (k : Nat) (tail : Nat) (irq : Option (Nat × Nat)) (ring : List TxDescriptor)
  /-- RX_POST (R283). -/
  | rxPost (e : Nat) (k : Nat) (tail : Nat) (irq : Option (Nat × Nat)) (posted : List (Nat × Nat))
  /-- PCIE_RESET (R284). -/
  | pcieReset (e : Nat)
  /-- SPI_REG_WRITE (R285). -/
  | spiRegWrite (bytes : List Byte)
  /-- SPI_REG_READ (R285). -/
  | spiRegRead (bytes : List Byte)
  /-- SPI_STATUS (R285). -/
  | spiStatus
  /-- WB_WRITE (R285). -/
  | wbWrite (bytes : List Byte)
  /-- WB_READ (R285). -/
  | wbRead (whole : Bool)
  /-- USB_WAYBILL (R288). -/
  | usbWaybill (w : Waybill)
  /-- PPS_EDGE (R292). -/
  | ppsEdge (cycle : Nat)
  /-- TIME_RX_SENTENCE (R292). -/
  | timeRxSentence (utc : Nat) (ok : Bool)
  /-- TAMPER_TRIGGER (R293). -/
  | tamperTrigger (t : Nat)
  /-- JOURNAL_COMMIT (R306). -/
  | journalCommit
  /-- MAP_CHECKPOINT (R308). -/
  | mapCheckpoint
  /-- FOLD (R309). -/
  | foldBlock
  /-- COLLECTION_JOB (R310). -/
  | collectionJob
  /-- BLOCK_ERASE_DONE (R314). -/
  | blockEraseDone (die : Nat) (block : Nat)
  /-- PAGE_READ (R304). -/
  | pageRead (sb : Nat) (page : Nat) (retries : Nat) (decoded : Bool) (rebuilt : Bool) (partner : Bool)
  /-- PROGRAM_FAIL (R313). -/
  | programFail (sb : Nat)
  /-- ERASE_FAIL (R313). -/
  | eraseFail (die : Nat) (block : Nat)
  /-- DIE_FAIL (R305). -/
  | dieFail (die : Nat)
  /-- STO_DIE_CTL_FAIL (R305). -/
  | stoDieCtlFail (who : Requester) (die : Nat)
  /-- THROTTLE_TIMEOUT (R311). -/
  | throttleTimeout
  /-- SCRUB (R316). -/
  | scrub (sb : Nat) (page : Nat) (bits : Nat)
  /-- QUEUE_PUSH (R320). -/
  | queuePush (q : Nat) (w : BitVec 64)
  /-- QUEUE_POP (R320). -/
  | queuePop (q : Nat) (upset : BitVec 65)
  /-- ARB_DRAW (R325). -/
  | arbDraw (pending : BitVec 16)
  /-- ARB_RELEASE (R327). -/
  | arbRelease
  /-- ARB_SEED (R326). -/
  | arbSeed (who : Requester) (seed : Word)
  /-- FREEZE (R328). -/
  | freeze (who : Requester) (on : Bool)
  /-- EVENT_POST (R329). -/
  | eventPost
  /-- EVENT_WINDOW_EXPIRY (R334). -/
  | eventWindowExpiry
  /-- EVENT_DROP (R329). -/
  | eventDrop
  /-- OPERATING_SECOND (R330). -/
  | operatingSecond
  /-- ZEROISE (R350). -/
  | zeroise (glitch : Bool) (temp : Bool) (volt : Bool)
  /-- ZEROISE_ARM (R354). -/
  | zeroiseArm (who : Requester)
  /-- ZEROISE_GO (R354). -/
  | zeroiseGo (who : Requester)
  /-- HSS_TREE_JOB (R359). -/
  | hssTreeJob (readBack : Bool)
  /-- RNG_HEALTH_FAIL (R348). -/
  | rngHealthFail
  /-- KEYCACHE_RESIZE (R133). -/
  | keycacheResize (who : Requester) (slots : Nat)
  /-- ACTIVATION_RESTART (R372). -/
  | activationRestart
  /-- TRIAL_CONFIRMATION (R374). -/
  | trialConfirmation
  /-- CONFIRM (R374). -/
  | confirm (who : Requester)
  /-- TRIAL_TIMEOUT (R375). -/
  | trialTimeout
  /-- CAMPAIGN_BEGIN (R379). -/
  | campaignBegin (c : Nat)
  /-- CAROUSEL_SEGMENT (R381). -/
  | carouselSegment (c : Nat)
  /-- FW_STATUS (R382). -/
  | fwStatus
  /-- CAMPAIGN_END (R383). -/
  | campaignEnd (c : Nat)
  /-- PAIR_LINK_UP (R386). -/
  | pairLinkUp (peer : PairPeer)
  /-- LANE_CHANGE (R386). -/
  | laneChange (lane : Nat) (up : Bool) (tagFailed : Bool)
  /-- LEDGER_ENTRY (R393). -/
  | ledgerEntry (e : LedgerEntry)
  /-- DIGEST_COMPARE (R397). -/
  | digestCompare (p : Nat) (own : BitVec 64) (partner : Option (BitVec 64))
  /-- SELF_CHECK_RESULT (R399). -/
  | selfCheckResult (failed : BitVec 4) (partner : CheckResult)
  /-- COMMON_CHECKPOINT (R400). -/
  | commonCheckpoint
  /-- RESYNCHRONISATION (R401). -/
  | resynchronisation (pace : Nat) (total : Nat) (left : Nat) (sealedOk : Bool)
  /-- ROLE_DECISION (R403). -/
  | roleDecision (actIn : Bool)
  /-- DEADMAN (R388). -/
  | deadman
  /-- TAKEOVER (R405). -/
  | takeover
  /-- DUAL_YIELD (R408). -/
  | dualYield
  /-- RESYNC (R401). -/
  | resync (who : Requester)
  /-- LEAVE (R406). -/
  | leave (who : Requester)
  /-- SUPPLY_CHANGE (R410). -/
  | supplyChange (input : Supply) (good : Bool) (v : Levels)
  /-- HOLDUP_START (R412). -/
  | holdupStart (v : Levels)
  /-- SAVE (R414). -/
  | save (r : SaveRun)
  /-- SAVE_CUTOFF (R412). -/
  | saveCutoff (paces : Nat)
  /-- POWER_ON (R425). -/
  | powerOn
  /-- POWER_ON_RESET (R409). -/
  | powerOnReset
  /-- PIN_RESET (R424). -/
  | pinReset
  /-- CLOCK_FAULT (R418). -/
  | clockFault
  /-- FULL_START (R425). -/
  | fullStart (i : StartIn)
  /-- WARM_RESTART (R42). -/
  | warmRestart
  /-- TIME_STEP (R420). -/
  | timeStep (bad : List Nat)
  /-- TIME_QUALITY_CHANGE (R422). -/
  | timeQualityChange
  /-- RTC_COMPARE (R472). -/
  | rtcCompare (trim : Int)
  /-- VCORE_EVALUATION (R431). -/
  | vcoreEvaluation (slack : Int)
  /-- NAND_BER_EVALUATION (R432). -/
  | nandBerEvaluation (b : Nat)
  /-- DAILY_MEASUREMENT (R429). -/
  | dailyMeasurement (afe : List (Nat × Int))
  /-- CAP_TEST (R430). -/
  | capTest
  /-- TEST (R430). -/
  | capTestNow (who : Requester)
  /-- CAP_TEST_END (R433). -/
  | capTestEnd (dv0 : Nat) (fall : Nat)
  /-- QUEUE_CHECKPOINT (R434). -/
  | queueCheckpoint
  /-- CORE_LOST (R436). -/
  | coreLost (core : Nat) (selfTest : Bool)
  /-- WATCHDOG_BITE (R437). -/
  | watchdogBite
  /-- WATCHDOG_HARD_RESET (R437). -/
  | watchdogHardReset (bad : List Nat)
  /-- FATAL_ERROR (R438). -/
  | fatalError (raised : Option Fatal) (ending : DumpEnd) (writes : List (Nat × List Byte)) (count : Nat) (bad : List Nat)
  /-- VBAT_LOW (R417). -/
  | vbatLow (mv : Nat)
  /-- RNG_OUTPUT_RESUME (R348). -/
  | rngOutputResume
  /-- PORT_LINK (R281). -/
  | portLink (port : Nat) (speed : Nat)
  /-- ROUTE_WAIT_EXPIRY (R275). -/
  | routeWaitExpiry (short : Nat)
  /-- WAITING_TRANSMISSION_START (R253). -/
  | waitingTransmissionStart
  /-- BAL_BACKLOG (R164). -/
  | balBacklog
  deriving DecidableEq, Repr

end Sys2Proof
end

