-- ==== Sys2Proof/Machine/Map.lean ====
section
/-! DEFINITION. Operations on sparse data by number (Map) and on byte strings: reading and writing
keep the keys strictly rising; numbers are most significant byte first (R4). -/

namespace Sys2Proof.Machine

/-- The entry of key `k`. -/
def Map.find {α : Type} : Map α → Nat → Option α
  | [], _ => none
  | (i, v) :: m, k => if i = k then some v else Map.find m k

/-- The entry of key `k`, or `d`. -/
def Map.findD {α : Type} (m : Map α) (k : Nat) (d : α) : α := (Map.find m k).getD d

/-- Writes the entry of key `k`. -/
def Map.set {α : Type} : Map α → Nat → α → Map α
  | [], k, v => [(k, v)]
  | (i, w) :: m, k, v =>
    if k < i then (k, v) :: (i, w) :: m
    else if k = i then (k, v) :: m
    else (i, w) :: Map.set m k v

/-- Removes the entry of key `k`. -/
def Map.erase {α : Type} : Map α → Nat → Map α
  | [], _ => []
  | (i, w) :: m, k => if i = k then m else (i, w) :: Map.erase m k

/-- Changes the entry of key `k` where there is one. -/
def Map.adjust {α : Type} (m : Map α) (k : Nat) (f : α → α) : Map α :=
  match Map.find m k with
  | none => m
  | some v => Map.set m k (f v)

/-- Changes every entry. -/
def Map.mapVals {α β : Type} (f : Nat → α → β) (m : Map α) : Map β := m.map fun p => (p.1, f p.1 p.2)

/-- Inserts a number into a rising list, once. -/
def insertSorted (n : Nat) : List Nat → List Nat
  | [] => [n]
  | a :: l => if n < a then n :: a :: l else if n = a then a :: l else a :: insertSorted n l

/-- The entries that hold `p`. -/
def Map.keep {α : Type} (p : Nat → α → Bool) (m : Map α) : Map α := m.filter fun e => p e.1 e.2

/-- Keys strictly rising: the canonical form of sparse data. -/
def Map.sorted {α : Type} : Map α → Bool
  | [] => true
  | [_] => true
  | (i, _) :: (j, w) :: m => decide (i < j) && Map.sorted ((j, w) :: m)

/-- The value of bytes, most significant first (R4). -/
def beVal (l : List Byte) : Nat := l.foldl (fun n b => n * 256 + b.toNat) 0

/-- `w` bytes of `v`, most significant first (R4). -/
def beBytes : Nat → Nat → List Byte
  | 0, _ => []
  | w + 1, v => BitVec.ofNat 8 (v / 256 ^ w) :: beBytes w v

/-- Bytes `off` to `off + n - 1` of a value as a number (R4). -/
def fieldAt (l : List Byte) (off n : Nat) : Nat := beVal ((l.drop off).take n)

/-- A number of `n` bytes read as two's complement (R5). -/
def signedOf (n v : Nat) : Int :=
  if v < 2 ^ (8 * n - 1) then (v : Int) else (v : Int) - (2 : Int) ^ (8 * n)

/-- The two's complement of `v` in `n` bytes (R5). -/
def unsignedOf (n : Nat) (v : Int) : Nat := (v % (2 : Int) ^ (8 * n)).toNat

/-- A signed field of a format. -/
def signedAt (l : List Byte) (off n : Nat) : Int := signedOf n (fieldAt l off n)

/-- The bytes of fields given as (width, value). -/
def packBytes (l : List (Nat × Nat)) : List Byte := l.flatMap fun p => beBytes p.1 p.2

/-- Division that rounds half away from zero. [DESIGN CHOICE, log 72; unsafe] -/
def roundDiv (a b : Int) : Int :=
  if b = 0 then 0
  else
    let q := (2 * a.natAbs + b.natAbs) / (2 * b.natAbs)
    if (0 ≤ a ∧ 0 < b) ∨ (a ≤ 0 ∧ b < 0) then (q : Int) else -(q : Int)

/-- A value held within `lo` to `hi`. -/
def clampInt (lo hi v : Int) : Int := if v < lo then lo else if hi < v then hi else v

/-- Replaces element `i` of a list. -/
def setAt {α : Type} : List α → Nat → α → List α
  | [], _, _ => []
  | _ :: l, 0, v => v :: l
  | a :: l, i + 1, v => a :: setAt l i v

end Sys2Proof.Machine
end

