-- ==== Sys2Proof/Machine/Numeric.lean ====
section
/-! DEFINITION. Exact integer forms of the square roots, logarithms and angles that R77, R82, R102 and
R104 use: roots rounded to nearest, ties away from zero; logarithms and cosines in 96 fraction bits. -/

namespace Sys2Proof.Machine

/-- Bits `b − 1` to 0 of the square root of `n`, above the part `r` found so far. -/
def isqrtGo : Nat → Nat → Nat → Nat
  | 0, _, r => r
  | b + 1, n, r => isqrtGo b n (if (r + 2 ^ b) * (r + 2 ^ b) ≤ n then r + 2 ^ b else r)

/-- ⌊√n⌋. -/
def isqrt (n : Nat) : Nat := isqrtGo (n.log2 / 2 + 1) n 0

/-- √(a/b) rounded to nearest, ties away from zero; 0 where b is 0. -/
def sqrtRound (a b : Nat) : Nat :=
  let m := isqrt (a / b)
  if b ≠ 0 ∧ (2 * m + 1) * (2 * m + 1) * b ≤ 4 * a then m + 1 else m

/-- The scale of fractions: 2^96. -/
def fracOne : Int := 79228162514264337593543950336

/-- Terms z + z³/3 + z⁵/5 + … of the inverse hyperbolic tangent, scaled. -/
def atanhGo : Nat → Int → Int → Int → Int
  | 0, _, _, _ => 0
  | n + 1, t, z2, k => t / k + atanhGo n (t * z2 / fracOne) z2 (k + 2)

/-- ln(a/b) for 1/2 ≤ a/b ≤ 2, scaled. -/
def lnNear (a b : Int) : Int :=
  let z := (a - b) * fracOne / (a + b)
  2 * atanhGo 44 z (z * z / fracOne) 1

/-- ln(a/b), scaled, for a and b above 0. -/
def lnRatio (a b : Nat) : Int :=
  let e : Int := (a.log2 : Int) - b.log2
  let m := if 0 ≤ e then lnNear a (b * 2 ^ e.toNat) else lnNear (a * 2 ^ (-e).toNat) b
  m + e * lnNear 2 1

/-- 2π, scaled. -/
def twoPi : Int := 497805226624462170461043889244

/-- Terms t, −t·x²/((k+1)(k+2)), … of a cosine or sine series, scaled. -/
def trigGo : Nat → Int → Int → Int → Int
  | 0, _, _, _ => 0
  | n + 1, t, x2, k => t + trigGo n (-(t * x2 / fracOne) / ((k + 1) * (k + 2))) x2 (k + 2)

/-- cos(2π·a/b), scaled. -/
def cosTurn (a b : Nat) : Int :=
  let x := twoPi * (a % b) / b
  trigGo 40 fracOne (x * x / fracOne) 0

/-- sin(2π·a/b), scaled. -/
def sinTurn (a b : Nat) : Int :=
  let x := twoPi * (a % b) / b
  trigGo 40 x (x * x / fracOne) 1

/-- A scaled number rounded to 30 fraction bits (R102). -/
def toQ30 (v : Int) : Int := roundDiv v 73786976294838206464

/-- The sum of a function over a list. -/
def sumInt {α : Type} (f : α → Int) (l : List α) : Int := l.foldl (fun n a => n + f a) 0

/-- The sum of a function over a list of numbers. -/
def sumNat {α : Type} (f : α → Nat) (l : List α) : Nat := l.foldl (fun n a => n + f a) 0

/-- The determinant of a square matrix, by its first row. The first argument bounds its size. -/
def detGo : Nat → List (List Int) → Int
  | 0, _ => 1
  | _, [] => 1
  | n + 1, row :: rest =>
    (row.zipIdx.foldl (fun acc e =>
      let sign : Int := if e.2 % 2 = 0 then 1 else -1
      acc + sign * e.1 * detGo n (rest.map fun r => r.take e.2 ++ r.drop (e.2 + 1))) 0)

/-- The determinant of a square matrix. -/
def det (m : List (List Int)) : Int := detGo m.length m

/-- The matrix with column `k` replaced. -/
def withColumn (m : List (List Int)) (k : Nat) (b : List Int) : List (List Int) :=
  m.zipIdx.map fun e => setAt e.1 k (b.getD e.2 0)

end Sys2Proof.Machine
end

