-- ==== Sys2Proof/Machine/Float.lean ====
section
/-! DEFINITION. IEEE 754 binary64 arithmetic with round-to-nearest-even, as R157 asks of the balance
engine. Overflow is left out: no value of the engine reaches 2^1024. -/

namespace Sys2Proof.Machine

/-- Rounds a quotient of naturals half to even. -/
def evenDiv (a b : Nat) : Nat :=
  let q := a / b
  let r := a % b
  if b < 2 * r then q + 1 else if 2 * r < b then q else if q % 2 = 1 then q + 1 else q

/-- a/b · 2^(−e) as a quotient of naturals, rounded half to even. -/
def scaledDiv (a b : Nat) (e : Int) : Nat := evenDiv (a * 2 ^ (-e).toNat) (b * 2 ^ e.toNat)

/-- The binary64 value nearest to n/d. -/
def F64.ofRat (n : Int) (d : Nat) : F64 :=
  if n = 0 ∨ d = 0 then ⟨0, 0⟩
  else
    let a := n.natAbs
    let e0 : Int := max (-1074) ((a.log2 : Int) - d.log2 - 53)
    let e := if 2 ^ 53 ≤ (a * 2 ^ (-e0).toNat) / (d * 2 ^ e0.toNat) then e0 + 1 else e0
    let q := scaledDiv a d e
    let m := if q = 2 ^ 53 then 2 ^ 52 else q
    let e' := if q = 2 ^ 53 then e + 1 else e
    if m = 0 then ⟨0, 0⟩ else ⟨if n < 0 then -(m : Int) else m, e'⟩

/-- Numerator and denominator of a value. -/
def F64.num (x : F64) : Int := x.m * 2 ^ x.e.toNat
def F64.den (x : F64) : Nat := 2 ^ (-x.e).toNat

/-- An integer in binary64. -/
def F64.ofInt (n : Int) : F64 := F64.ofRat n 1

/-- Sum, with no overflow to an infinity. [DESIGN CHOICE, log 88; unsafe] -/
def F64.add (x y : F64) : F64 := F64.ofRat (x.num * y.den + y.num * x.den) (x.den * y.den)
/-- The negative of a value. -/
def F64.neg (x : F64) : F64 := ⟨-x.m, x.e⟩
/-- Difference. -/
def F64.sub (x y : F64) : F64 := x.add y.neg
/-- Product. -/
def F64.mul (x y : F64) : F64 := F64.ofRat (x.num * y.num) (x.den * y.den)

/-- A quotient; 0 where the divisor is 0, which no rule asks for. -/
def F64.div (x y : F64) : F64 :=
  if y.m = 0 then ⟨0, 0⟩
  else F64.ofRat ((if y.m < 0 then -1 else 1) * x.num * y.den) (x.den * y.num.natAbs)

/-- The square root of a value that is not negative. -/
def F64.sqrt (x : F64) : F64 :=
  let e := x.e - 130 - (x.e % 2)
  let n := (x.m * 2 ^ (x.e - e).toNat).toNat
  let r := isqrt n
  let sticky := 2 * r + (if r * r = n then 0 else 1)
  let h := e / 2 - 1
  F64.ofRat ((sticky : Int) * 2 ^ h.toNat) (2 ^ (-h).toNat)

/-- Whether x < y. -/
def F64.lt (x y : F64) : Bool := decide (x.num * y.den < y.num * x.den)

/-- The larger of two values. -/
def F64.max (x y : F64) : F64 := if x.lt y then y else x

/-- The nearest integer to x·k, ties away from zero. -/
def F64.round (x : F64) (k : Int := 1) : Int := roundDiv (x.num * k) x.den

end Sys2Proof.Machine
end

