-- ==== Sys2Proof/Machine/Crc.lean ====
section
/-! DEFINITION. CRC-32C and CRC-8, as the formats of spec/ use them (R4, R219, R285). -/

namespace Sys2Proof.Machine

/-- One bit of the reflected CRC-32C with polynomial 0x82F63B78. -/
def crcBit (c : BitVec 32) : BitVec 32 := if c.getLsbD 0 then (c >>> 1) ^^^ 0x82F63B78 else c >>> 1

/-- One byte. -/
def crcByte (c : BitVec 32) (b : Byte) : BitVec 32 :=
  crcBit (crcBit (crcBit (crcBit (crcBit (crcBit (crcBit (crcBit (c ^^^ b.setWidth 32))))))))

/-- CRC-32C of a byte string. [PRESUMED, log 100; unsafe] -/
def crc32c (l : List Byte) : Nat := ((l.foldl crcByte 0xFFFFFFFF) ^^^ 0xFFFFFFFF).toNat

/-- One byte through CRC-8 with polynomial x^8 + x^2 + x + 1. -/
def crc8Byte (c b : Byte) : Byte :=
  (List.range 8).foldl (fun (v : Byte) _ => if v.getLsbD 7 then (v <<< 1) ^^^ 0x07#8 else v <<< 1) (c ^^^ b)

/-- CRC-8 with initial value 0 (R219). -/
def crc8 (l : List Byte) : Byte := l.foldl crc8Byte 0

end Sys2Proof.Machine
end

