-- ==== Sys2Proof/Config.lean ====
section
/-! DEFINITION. What an implementation or a free choice of the spec fixes: opaque constants without
a value, so that nothing proved rests on one. -/

namespace Sys2Proof.Machine

/-- The root of each enrolment, by the enrolment counter: HMAC-SHA-256 over the corrected response of the PUF array under
the fuse-held salt (R341). No source outside the part gives the array, the salt or the code. [DESIGN CHOICE, log 179; safe] -/
opaque Config.root : Nat → BitVec 256

/-- The 32-byte randomizer of an LMS signature: the enrolment, the level of its tree (0 top, 1 bottom) and its global
leaf (RFC 8554; R357 fixes none). [DESIGN CHOICE, log 179; safe] -/
opaque Config.randomizer : Nat → Nat → Nat → BitVec 256

/-- The Olsesen HSS public keys held in fuses (R365). [DESIGN CHOICE, log 179; safe] -/
opaque Config.fuseKeys : List (List Byte)

/-- The boot loader's image in NOR, to the end of its signature (R15, R362). [DESIGN CHOICE, log 143; safe] -/
opaque Config.bootImage : List Byte

/-- The main and the sealed firmware image with which the device is delivered, to the end of their signatures (R12, R15).
[DESIGN CHOICE, log 147; unsafe] -/
opaque Config.mainImage : List Byte
opaque Config.sealedImage : List Byte

/-- The TLV type of the k-th value in the bodies of the session commands, which R54 does not number.
[DESIGN CHOICE, log 31; unsafe] -/
opaque Config.sessionTlv : Nat → Nat

/-- The n-th free value drawn by the model: a value the spec leaves open or draws at random.
[DESIGN CHOICE, log 7; safe] -/
opaque Config.free : Nat → Nat

/-- The reciprocal condition number of a regular matrix of more than one row in whole millionths, rounded down: R93 names no
norm. [DESIGN CHOICE, log 74; safe] -/
opaque Config.reciprocalCondition : List (List Int) → Nat

/-- THD of a window whose fundamental is 0, where R104's quotient has no value. [DESIGN CHOICE, log 74; safe] -/
opaque Config.thdWithoutFundamental : Nat → Nat

/-- The KiB of a ledger entry by its pace and its count of records (R393). [DESIGN CHOICE, log 128; safe] -/
opaque Config.ledgerKib : Nat → Nat → Nat

/-- The 4-octet FCS of IEEE 802.15.4g over a MAC frame (R225, R271). [DESIGN CHOICE, log 162; safe] -/
opaque Config.fcs : List Byte → BitVec 32

/-- The exponent of the first root of the RS(255,239) generator polynomial (R260). [DESIGN CHOICE, log 162; safe] -/
opaque Config.rsFirstRoot : Nat

/-- The manufacturing die number in fuses (SYS_DIE_ID, R442). [DESIGN CHOICE, log 4; unsafe] -/
opaque Config.dieId : Nat

/-- The version of the boot loader in NOR (SYS_BOOT_VERSION). [DESIGN CHOICE, log 4; unsafe] -/
opaque Config.bootVersion : Nat

end Sys2Proof.Machine
end

