-- ==== Sys2Proof/Types/Keys.lean ====
section
/-! DEFINITION. Data of chapter 17: the keys, the signing leaves and the zeroise line. -/

namespace Sys2Proof.Machine

/-- An ATTEST_REQ that waits for a complete tree (R359): its item, and the body taken as it started, before
and after LEAVES_LEFT. -/
structure SignWait where
  slot : Nat
  item : Nat
  head : List Byte
  tail : List Byte
  deriving DecidableEq, Repr

/-- The algorithms of key slots (R345, R347). -/
inductive KeyAlg where
  | aes128 | aes256 | hmac | p256 | hss
  deriving DecidableEq, Repr

/-- A use in the mask of a key slot (R345). -/
inductive KeyUse where
  | encrypt | decrypt | mac | wrap | unwrap | derive | sign
  deriving DecidableEq, Repr

/-- A key slot (R345): its key, algorithm, uses, and the requester of R325 that owns it. -/
structure KeySlot where
  key : List Byte
  alg : KeyAlg
  uses : List KeyUse
  owner : Nat
  deriving DecidableEq, Repr

/-- Keys, leaves and the zeroise line (R341 to R362). -/
structure KeyState where
  /-- The helper data in MRAM is that of the current enrolment (R341, R350). -/
  helper : Bool := false
  /-- Who armed GO, and the pace (R354). -/
  arm : Option (Requester × Nat) := none
  /-- The two copies of RES; none fails its CRC (R358). -/
  copies : Option Nat × Option Nat := (some 0, some 0)
  /-- Sources latched in the VBAT domain while the supplies were down (R352). -/
  latched : Bool := false
  /-- Bottom trees complete (R359). -/
  trees : List Nat := []
  /-- The period of 86,400 operating seconds and the signatures in it (R360). -/
  day : Nat := 0
  daySigns : Nat := 0
  /-- Leaf alarms given: 1 below 1,000,000, 2 below 100,000 (R360). -/
  lowSeen : Nat := 0
  /-- Signature requests that wait, oldest first. -/
  waiting : List SignWait := []
  deriving DecidableEq, Repr

end Sys2Proof.Machine
end

