-- ==== Sys2Proof/Machine/State.lean ====
section
/-! DEFINITION. The state of the TY9600, the reasons a step can stop, and the state after reset. -/

namespace Sys2Proof.Machine

/-- Why a step stops with a fault: no command of this model faults. Every condition that the spec
calls a fault of the device (a pace fault, a fatal error) has an effect in the spec and is a next
state here. The one constructor exists because the type may not be empty; nothing raises it (safe).
[DESIGN CHOICE, log 141; safe] -/
inductive Fault where
  | none
  deriving DecidableEq, Repr

/-- Why a step is refused. -/
inductive Refusal where
  /-- Raised by an arm of exec whose command has no meaning yet (safe). -/
  | notModelled (mnemonic : String)
  deriving DecidableEq, Repr

/-- The TY9600. -/
structure State where
  /-- Commands waiting, first in first out (the model's own field). -/
  pending : List Instr := []
  /-- Registers whose value differs from their reset value (R441 to R446). -/
  regs : RegFile := []
  /-- The latch of each requester for each pair: requester, address of _LO, value of _HI (R444). -/
  latches : List (Requester × Nat × Word) := []
  /-- The pace, the clock it runs on and its faults (R22 to R32); cycles, levels and durations within a pace are left out.
  [DESIGN CHOICE, log 138; unsafe] -/
  pace : PaceState := {}
  /-- Register writes staged with COMMIT, and the commit that is due (R10, R47). -/
  stage : StageState := {}
  /-- The Warp image in effect, the stored and the pending one (R33 to R45). -/
  warp : WarpState := {}
  /-- Host contexts, seats, waybills, items, notices and tasks (R48 to R73). -/
  host : HostState := {}
  /-- The front end and the metering chain (R74 to R99). -/
  met : MetState := {}
  /-- Quantities, pulses and quality windows (R100 to R123). -/
  qty : QtyState := {}
  /-- The sealed partition: legal registers, sealed store, display, event logs (R210 to R224). -/
  leg : SealedState := {}
  /-- Tariff and calendar of the device and of the meters (R174 to R197). -/
  tar : TarState := {}
  /-- Ingest: registry, readings, intervals, meter commands (R124 to R149). -/
  ing : IngestState := {}
  /-- Balances, loss localisation, topology (R150 to R173). -/
  bal : BalState := {}
  /-- Queues between engines (R318 to R328). -/
  que : QueState := {}
  /-- Radio mesh (R225 to R255). -/
  rad : RadioState := {}
  /-- Power-line communication (R256 to R277). -/
  plc : PlcState := {}
  /-- Firmware transfers, trials and campaigns (R364 to R384). -/
  fwu : FwState := {}
  /-- Keys, signatures and attestation (R341 to R363). -/
  key : KeyState := {}
  /-- Ports (R278 to R293). -/
  prt : PortState := {}
  /-- The pair of two devices (R385 to R408). -/
  pair : PairState := {}
  /-- Ledger entries sent, oldest first (R393). -/
  ledger : List LedgerEntry := []
  /-- MRAM and NAND storage (R294 to R317). -/
  sto : StorageState := {}
  /-- Event records, dumps and exports (R329 to R340). -/
  evt : EvtState := {}
  /-- Supply, SAVE, resets and starts (R409 to R428). -/
  power : PowerState := {}
  /-- Clock discipline and device time (R419 to R424). -/
  clk : ClockState := {}
  /-- Health: temperatures, rails, wear, self-tests (R429 to R440). -/
  hlt : HealthState := {}
  /-- Everything sent, oldest first (the model's own field). -/
  out : List Output := []
  /-- Free values drawn so far (the model's own field). -/
  drawn : Nat := 0
  deriving DecidableEq, Repr

/-- The machine right after reset: no Warp image is active, so it is in the service state (R38, R426).
Firmware stands in main slot A, which is good, and in sealed slot 0, which is ACTIVE: `FWU_SLOT_STAT` and `LEG_SLOT[0]` say
so (R12, R15). [DESIGN CHOICE, log 3; unsafe] [DESIGN CHOICE, log 5; unsafe] [DESIGN CHOICE, log 147; unsafe] -/
def State.reset : State :=
  { regs := [(0x00090040, 0x20000000#32), (0x0012001C, 1#32)]
    leg := { slots := [(0, Config.sealedImage)] }
    fwu := { slots := [(0, Config.mainImage)] } }

end Sys2Proof.Machine
end

