-- ==== Sys2Proof/Machine/Manifest.lean ====
section
/-! DEFINITION. Firmware images: the NOR layout (R15), the manifest (R364) and the images the slots hold (R211, R362,
R371). -/

namespace Sys2Proof.Machine

/-! ### The NOR (R15) -/

/-- A region of the octal SPI NOR. -/
inductive NorRegion where
  | bootLoader | slotA | slotB | staging | sealed0 | sealed1 | sealed2 | reserved
  deriving DecidableEq, Repr

/-- Offset and size of each region in bytes. -/
def norLayout : List (NorRegion × Nat × Nat) :=
  [(.bootLoader, 0x00000000, 4 * 2 ^ 20), (.slotA, 0x00400000, 48 * 2 ^ 20), (.slotB, 0x03400000, 48 * 2 ^ 20),
   (.staging, 0x06400000, 48 * 2 ^ 20), (.sealed0, 0x09400000, 2 * 2 ^ 20), (.sealed1, 0x09600000, 2 * 2 ^ 20),
   (.sealed2, 0x09800000, 2 * 2 ^ 20), (.reserved, 0x09A00000, 102 * 2 ^ 20)]

/-- The size of a region. -/
def norSize (r : NorRegion) : Nat := match norLayout.find? fun e => e.1 == r with | some e => e.2.2 | none => 0

/-- Where the images of a KIND are written: its region bounds IMAGE_LEN (R15, R364). -/
def imageMax (kind : Nat) : Nat :=
  if kind = 1 then norSize .staging else if kind = 2 then norSize .sealed0 else 8388608

/-! ### The manifest (R364) -/

/-- Manifest part and block counts: the bytes 0 to 255 of file block 0. -/
abbrev Manifest := List Byte

def Manifest.kind (m : Manifest) : Nat := fieldAt m 6 1
def Manifest.countersigned (m : Manifest) : Bool := (BitVec.ofNat 8 (fieldAt m 7 1)).getLsbD 0
def Manifest.hwType (m : Manifest) : Nat := fieldAt m 8 2
def Manifest.unitCount (m : Manifest) : Nat := fieldAt m 11 1
def Manifest.version (m : Manifest) : Nat := fieldAt m 12 4
def Manifest.rollback (m : Manifest) : Nat := fieldAt m 16 4
def Manifest.manLen (m : Manifest) : Nat := fieldAt m 20 4
def Manifest.blocks (m : Manifest) : Nat := fieldAt m 24 4
def Manifest.imageLen (m : Manifest) : Nat := fieldAt m 32 4
def Manifest.sigOffset (m : Manifest) : Nat := fieldAt m 36 4

/-- F. -/
def Manifest.total (m : Manifest) : Nat := (m.imageLen + 4095) / 4096

/-- The part of check 1 that block 0 shows: MAGIC, FORMAT, HEADER_CRC and lengths consistent (R366). -/
def Manifest.ok (m : Manifest) (kind : Nat) : Bool :=
  let b := m.blocks
  decide (m.length = 256) && fieldAt m 0 4 == 0x54594657 && fieldAt m 4 2 == 1 && m.kind == kind &&
  fieldAt m 252 4 == crc32c (m.take 252) && decide (fieldAt m 7 1 < 2) && decide (m.unitCount ≤ 64) &&
  decide (1 ≤ b) && decide (4096 * (b - 1) + 1 ≤ fieldAt m 28 4) && decide (fieldAt m 28 4 ≤ 4096 * b) &&
  m.manLen == 4096 * ((256 + 32 * m.unitCount + 16 * b + 4095) / 4096) &&
  m.sigOffset == m.manLen + 4096 * b && decide (m.sigOffset ≤ m.imageLen) &&
  decide (m.imageLen - m.sigOffset ≤ 12288) && decide (m.imageLen ≤ imageMax kind)

/-- The manifest of a transfer. -/
def FwTransfer.man (f : FwTransfer) : Manifest := (Map.findD f.blocks 0 []).take 256

/-- Bytes of the file blocks from `first` on, of `n`. -/
def FwTransfer.part (f : FwTransfer) (first n : Nat) : List Byte :=
  (List.range n).flatMap fun k => Map.findD f.blocks (first + k) []

/-- The first file block of the signature area, and that of the payload. -/
def Manifest.sigBlock (m : Manifest) : Nat := m.sigOffset / 4096
def Manifest.firstPayload (m : Manifest) : Nat := m.manLen / 4096

/-- Whether file block f is a payload block. -/
def Manifest.isPayload (m : Manifest) (f : Nat) : Bool := decide (m.firstPayload ≤ f) && decide (f < m.sigBlock)

/-- Every manifest block and signature block is held. -/
def FwTransfer.partsHeld (f : FwTransfer) : Bool :=
  (List.range f.man.total).all fun k => f.man.isPayload k || (Map.find f.blocks k).isSome

/-- The bytes of an image held whole, to the end of its signature; empty where a block is missing (R362,
R364). -/
def FwTransfer.image (f : FwTransfer) : List Byte :=
  let head := Map.findD f.blocks 0 []
  let len := fieldAt head 32 4
  if f.blocks.length * 4096 < len then [] else (f.blocks.flatMap fun b => b.2).take len


/-! ### Images in slots -/

/-- The bytes of a stored image, to the end of its signature (R211, R362). -/
def slotImage (l : List Byte) : List Byte := l.take (Manifest.imageLen (l.take 256))

/-- The SHA-256 over a slot's image (R211, R362). -/
def slotSha (l : List Byte) : BitVec 256 := sha256 (slotImage l)

/-- A pace-plan entry as it stands in an image (R26, R33). -/
def PaceEntry.bytes (e : PaceEntry) : List Byte :=
  packBytes [(1, e.engine), (1, e.lane), (2, e.quanta.toNat), (2, e.costUs), (2, e.deadline), (8, 0)]

/-- PACE_DECL: the LEGAL_MET and LEGAL_TAR entries that a sealed image declares (R26, R364). -/
def paceDeclBytes (l : List Byte) : List Byte := (l.drop 40).take 32

end Sys2Proof.Machine
end

