-- ==== Sys2Proof/Machine/Calendar.lean ====
section
/-! DEFINITION. Calendar sets: the constraints of R175, the rate of R176 and the billing boundaries of
R188. A set is read as its 2,352 bytes. -/

namespace Sys2Proof.Machine

/-! ### Dates -/

/-- A civil date: year, month, day. -/
structure Date where
  year : Nat
  month : Nat
  day : Nat
  deriving DecidableEq, Repr

/-- The civil date of a day counted from 1970-01-01. -/
def dateOf (day : Int) : Date :=
  let z := (day + 719468).toNat
  let era := z / 146097
  let doe := z % 146097
  let yoe := (doe - doe / 1460 + doe / 36524 - doe / 146096) / 365
  let doy := doe - (365 * yoe + yoe / 4 - yoe / 100)
  let mp := (5 * doy + 2) / 153
  let m := if mp < 10 then mp + 3 else mp - 9
  ⟨yoe + era * 400 + (if m ≤ 2 then 1 else 0), m, doy - (153 * mp + 2) / 5 + 1⟩

/-- The weekday of a day counted from 1970-01-01, 0 Monday to 6 Sunday. -/
def weekdayOf (day : Int) : Nat := ((day + 3) % 7).toNat

/-- Whether a year has a 29 February. -/
def leapYear (y : Nat) : Bool := decide (y % 4 = 0) && (decide (y % 100 ≠ 0) || decide (y % 400 = 0))

/-- Days of a month, 29 for February. -/
def monthDays (m : Nat) : Nat :=
  if m = 2 then 29 else if m = 4 ∨ m = 6 ∨ m = 9 ∨ m = 11 then 30 else 31

/-! ### Fields of a set -/

/-- A field of a calendar set. -/
abbrev CalSet := List Byte

def calDefaultRate (c : CalSet) : Nat := fieldAt c 3 1
def calGen (c : CalSet) : Nat := fieldAt c 4 2
def calStd (c : CalSet) : Int := signedAt c 6 2
def calDst (c : CalSet) : Nat := fieldAt c 8 2
def calDemandMin (c : CalSet) : Nat := fieldAt c 10 1
def calSubs (c : CalSet) : Nat := fieldAt c 11 1
def calBillKind (c : CalSet) : Nat := fieldAt c 12 1
def calBillDay (c : CalSet) : Nat := fieldAt c 13 1
def calBillMin (c : CalSet) : Nat := fieldAt c 14 2
def calActivate (c : CalSet) : Nat := fieldAt c 16 8

/-- Ls in minutes: DEMAND_MIN / SUBPERIODS (R175). -/
def calLs (c : CalSet) : Nat := calDemandMin c / calSubs c

/-- A set with the load count in GEN (R175). -/
def withGen (c : CalSet) (g : Nat) : CalSet := c.take 4 ++ beBytes 2 g ++ c.drop 6

/-! ### The constraints of R175 -/

/-- One constraint: the offset of its field and whether it holds. -/
abbrev CalCheck := Nat × Bool

/-- All bytes from `off` for `n` are 0. -/
def zeroAt (c : CalSet) (off n : Nat) : CalCheck := (off, fieldAt c off n == 0)

def calHead (c : CalSet) : List CalCheck :=
  let ls := calLs c
  let subs := calSubs c
  let slide := fieldAt c 2 1 == 1
  let bd := calBillDay c
  [(0, decide (fieldAt c 0 1 ≤ 63)), (1, fieldAt c 1 1 == 1), (2, decide (fieldAt c 2 1 ≤ 1)),
   (3, decide (calDefaultRate c ≤ 7)), zeroAt c 4 2,
   (6, decide (-720 ≤ calStd c) && decide (calStd c ≤ 840)), (8, decide (calDst c ≤ 120)),
   (10, [1, 5, 10, 15, 30, 60].contains (calDemandMin c)),
   (11, if slide then decide (2 ≤ subs) && decide (subs ≤ 15) && decide (calDemandMin c % subs = 0)
        else subs == 1),
   (12, decide (calBillKind c ≤ 3)),
   (13, match calBillKind c with
        | 2 => decide (1 ≤ bd) && decide (bd ≤ 7)
        | 3 => decide (1 ≤ bd) && decide (bd ≤ 28)
        | _ => bd == 0),
   (14, decide (calBillMin c ≤ 1439) && decide (((calBillMin c : Int) - calStd c) % ls = 0) &&
        decide (calDst c % ls = 0)),
   (16, decide (calActivate c % 60 = 0)),
   (24, decide (1 ≤ fieldAt c 24 1) && decide (fieldAt c 24 1 ≤ 4)),
   (25, decide (1 ≤ fieldAt c 25 1) && decide (fieldAt c 25 1 ≤ 8)),
   (26, decide (1 ≤ fieldAt c 26 1) && decide (fieldAt c 26 1 ≤ 16)),
   (27, decide (fieldAt c 27 1 ≤ 128)), (28, decide (fieldAt c 28 1 ≤ 8)), zeroAt c 29 3]

def calDstChecks (c : CalSet) : List CalCheck :=
  (List.range 8).flatMap fun i =>
    let o := 32 + 16 * i
    if i < fieldAt c 28 1 then
      [(o, decide (fieldAt c o 8 % 60 = 0) && (i == 0 || decide (fieldAt c (o - 8) 8 ≤ fieldAt c o 8))),
       (o + 8, decide (fieldAt c o 8 < fieldAt c (o + 8) 8))]
    else [zeroAt c o 8, zeroAt c (o + 8) 8]

def calSeasonChecks (c : CalSet) : List CalCheck :=
  (List.range 4).flatMap fun i =>
    let o := 160 + 4 * i
    let m := fieldAt c o 1
    let d := fieldAt c (o + 1) 1
    if i < fieldAt c 24 1 then
      [(o, decide (1 ≤ m) && decide (m ≤ 12)),
       (o + 1, decide (1 ≤ d) && decide (d ≤ (if m = 2 then 28 else monthDays m)) &&
          (i == 0 || decide (fieldAt c (o - 4) 1 * 32 + fieldAt c (o - 3) 1 < m * 32 + d))),
       (o + 2, decide (fieldAt c (o + 2) 1 < fieldAt c 25 1)), zeroAt c (o + 3) 1]
    else [zeroAt c o 1, zeroAt c (o + 1) 1, zeroAt c (o + 2) 1, zeroAt c (o + 3) 1]

def calWeekChecks (c : CalSet) : List CalCheck :=
  (List.range 8).flatMap fun w =>
    ((List.range 7).map fun d =>
      let o := 176 + 8 * w + d
      (o, if w < fieldAt c 25 1 then decide (fieldAt c o 1 < fieldAt c 26 1) else fieldAt c o 1 == 0))
    ++ [zeroAt c (183 + 8 * w) 1]

def calDayChecks (c : CalSet) : List CalCheck :=
  (List.range 16).flatMap fun p =>
    let o := 240 + 68 * p
    let n := fieldAt c o 1
    let used := decide (p < fieldAt c 26 1)
    [(o, if used then decide (1 ≤ n) && decide (n ≤ 16) else n == 0), zeroAt c (o + 1) 3] ++
    (List.range 16).flatMap fun j =>
      let q := o + 4 + 4 * j
      let m := fieldAt c q 2
      if used && decide (j < n) then
        [(q, decide (m ≤ 1439) && (if j = 0 then m == 0 else decide (fieldAt c (q - 4) 2 < m))),
         (q + 2, decide (fieldAt c (q + 2) 1 ≤ 7)), zeroAt c (q + 3) 1]
      else [zeroAt c q 2, zeroAt c (q + 2) 1, zeroAt c (q + 3) 1]

def calSpecialChecks (c : CalSet) : List CalCheck :=
  (List.range 128).flatMap fun i =>
    let o := 1328 + 8 * i
    let y := fieldAt c o 2
    let m := fieldAt c (o + 2) 1
    let d := fieldAt c (o + 3) 1
    if i < fieldAt c 27 1 then
      [(o, y == 0xFFFF || (decide (2000 ≤ y) && decide (y ≤ 2199))),
       (o + 2, decide (1 ≤ m) && decide (m ≤ 12)),
       (o + 3, decide (1 ≤ d) && decide (d ≤ monthDays m) &&
          !(m == 2 && d == 29 && y != 0xFFFF && !leapYear y)),
       (o + 4, decide (fieldAt c (o + 4) 1 < fieldAt c 26 1)), zeroAt c (o + 5) 3]
    else [zeroAt c o 2, zeroAt c (o + 2) 1, zeroAt c (o + 3) 1, zeroAt c (o + 4) 1, zeroAt c (o + 5) 3]

/-- The offset of the first field that breaks a constraint of R175. -/
def calFault (c : CalSet) : Option Nat :=
  ((calHead c ++ calDstChecks c ++ calSeasonChecks c ++ calWeekChecks c ++ calDayChecks c ++
    calSpecialChecks c).find? fun k => !k.2).map Prod.fst

/-! ### The rate (R176) -/

/-- Whether UTC second `t` lies in a DST period of the set. -/
def inDst (c : CalSet) (t : Int) : Bool :=
  (List.range (fieldAt c 28 1)).any fun i =>
    decide ((fieldAt c (32 + 16 * i) 8 : Int) ≤ t) && decide (t < fieldAt c (40 + 16 * i) 8)

/-- Local time of a UTC second, in seconds. -/
def localOf (c : CalSet) (t : Int) : Int :=
  t + 60 * calStd c + (if inDst c t then 60 * (calDst c : Int) else 0)

/-- The day profile of a SPECIAL entry that matches the date: an exact year first, then the lower i. -/
def specialDay (c : CalSet) (d : Date) : Option Nat :=
  let hit (y i : Nat) : Bool :=
    let o := 1328 + 8 * i
    fieldAt c o 2 == y && fieldAt c (o + 2) 1 == d.month && fieldAt c (o + 3) 1 == d.day
  let all := List.range (fieldAt c 27 1)
  match all.find? (hit d.year) with
  | some i => some (fieldAt c (1332 + 8 * i) 1)
  | none => (all.find? (hit 0xFFFF)).map fun i => fieldAt c (1332 + 8 * i) 1

/-- The week of the season of a date. -/
def seasonWeek (c : CalSet) (d : Date) : Nat :=
  let n := fieldAt c 24 1
  let starts := (List.range n).filter fun i =>
    decide (fieldAt c (160 + 4 * i) 1 * 32 + fieldAt c (161 + 4 * i) 1 ≤ d.month * 32 + d.day)
  let s := match starts.reverse with | i :: _ => i | [] => n - 1
  fieldAt c (162 + 4 * s) 1

/-- The day profile of a local day. -/
def dayProfile (c : CalSet) (day : Int) : Nat :=
  let d := dateOf day
  match specialDay c d with
  | some p => p
  | none => fieldAt c (176 + 8 * seasonWeek c d + weekdayOf day) 1

/-- The rate that a set gives at UTC second `t` (R176). -/
def rateAt (c : CalSet) (t : Nat) : Nat :=
  let l := localOf c t
  let o := 240 + 68 * dayProfile c (l / 86400)
  let minute := (l % 86400 / 60).toNat
  let past := (List.range (fieldAt c o 1)).filter fun j => decide (fieldAt c (o + 4 + 4 * j) 2 ≤ minute)
  fieldAt c (o + 6 + 4 * (past.length - 1)) 1

/-- The next instant after `t` at which a switch point, a midnight or the end of a DST period falls,
with the rate from it on (R180, R195). -/
def nextSwitchOf (c : CalSet) (t : Nat) : Nat × Nat :=
  let l := localOf c t
  let o := 240 + 68 * dayProfile c (l / 86400)
  let inDay := l % 86400
  let points := ((List.range (fieldAt c o 1)).map fun j => (fieldAt c (o + 4 + 4 * j) 2 : Int) * 60) ++ [86400]
  let sw := match points.find? fun p => decide (inDay < p) with
    | some p => t + (p - inDay).toNat
    | none => t
  let edges := (List.range (2 * fieldAt c 28 1)).map fun i => fieldAt c (32 + 8 * i) 8
  let next := edges.foldl (fun n e => if t < e ∧ e < n then e else n) sw
  (next, rateAt c next)

/-! ### Billing boundaries (R188) -/

/-- Whether a local day closes a billing period. -/
def billDay (c : CalSet) (day : Int) : Bool :=
  match calBillKind c with
  | 1 => true
  | 2 => weekdayOf day + 1 == calBillDay c
  | 3 => (dateOf day).day == calBillDay c
  | _ => false

/-- The first UTC minute at which local time reaches BILL_MIN of a local day: a time that DST skips
is reached at the first later instant, one that occurs twice at its first occurrence (R188). -/
def billInstant (c : CalSet) (day : Int) : Int :=
  let target : Int := day * 1440 + calBillMin c
  let first : Int := target - calStd c - calDst c
  match (List.range (calDst c + 1)).find? fun (k : Nat) => decide (target * 60 ≤ localOf c ((first + k) * 60)) with
  | some k => first + k
  | none => target - calStd c

/-- The first billing boundary after UTC minute `m`, in UTC minutes (R188). -/
def nextBilling (c : CalSet) (m : Nat) : Option Nat :=
  let day := localOf c ((m : Int) * 60) / 86400
  ((List.range 34).map fun (k : Nat) => day - 1 + k).findSome? fun d =>
    if billDay c d ∧ (m : Int) < billInstant c d then some (billInstant c d).toNat else none

/-- A commanded boundary: the first UTC multiple of Ls after second `t`, in UTC minutes (R188). -/
def nextCommanded (c : CalSet) (t : Nat) : Nat := (t / (60 * calLs c) + 1) * calLs c

end Sys2Proof.Machine
end

