-- ==== Sys2Proof/Machine/Cause.lean ====
section
/-! DEFINITION. The cause codes of R73 and the event codes of R340 and of the later chapters, by
their names in spec/. -/

namespace Sys2Proof.Machine

def Cause.OK : Nat := 0x0000
def Cause.BAD_FORMAT : Nat := 0x0001
def Cause.BAD_OPCODE : Nat := 0x0002
def Cause.TLV_UNKNOWN : Nat := 0x0003
def Cause.RIGHTS : Nat := 0x0004
def Cause.BUSY_RATE : Nat := 0x0005
def Cause.SEQ_STALE : Nat := 0x0006
def Cause.SESSION_NONE : Nat := 0x0007
def Cause.HOST_KEY : Nat := 0x0008
def Cause.PART_TIMEOUT : Nat := 0x0009
def Cause.TOO_LARGE : Nat := 0x000A
def Cause.SERVICE_STATE : Nat := 0x000B
def Cause.SEQ_CONFLICT : Nat := 0x000C
def Cause.REG_ACCESS : Nat := 0x0100
def Cause.REG_RANGE : Nat := 0x0101
def Cause.REG_LOCKED : Nat := 0x0102
def Cause.REG_ADDRESS : Nat := 0x0103
def Cause.REG_BLOCK : Nat := 0x0104
def Cause.STAGE_LOCKED : Nat := 0x0110
def Cause.STAGE_FULL : Nat := 0x0111
def Cause.STAGE_TIMEOUT : Nat := 0x0112
def Cause.COMMIT_INCONSISTENT : Nat := 0x0120
def Cause.COMMIT_EMPTY : Nat := 0x0121
def Cause.COMMIT_SUPERSEDED : Nat := 0x0122
def Cause.WARP_FORMAT : Nat := 0x0200
def Cause.WARP_HW_TYPE : Nat := 0x0201
def Cause.WARP_SIGNER : Nat := 0x0202
def Cause.WARP_SIGNATURE : Nat := 0x0203
def Cause.WARP_ROLLBACK : Nat := 0x0204
def Cause.WARP_CAPACITY : Nat := 0x0205
def Cause.WARP_DRAM : Nat := 0x0206
def Cause.WARP_BUDGET : Nat := 0x0207
def Cause.WARP_REFERENCE : Nat := 0x0208
def Cause.WARP_SEALED : Nat := 0x0209
def Cause.WARP_REPLACED : Nat := 0x020A
def Cause.TASKS_FULL : Nat := 0x0300
def Cause.TASK_QUOTA : Nat := 0x0301
def Cause.TASK_UNKNOWN : Nat := 0x0302
def Cause.RESET : Nat := 0x0303
def Cause.CANCELLED : Nat := 0x0304
def Cause.NOTICE_FULL : Nat := 0x0305
def Cause.CONTEXT_REMOVED : Nat := 0x0306
def Cause.ITEMS_TOO_MANY : Nat := 0x0307
def Cause.METER_UNKNOWN : Nat := 0x0400
def Cause.AUTH_FAIL : Nat := 0x0401
def Cause.DUPLICATE : Nat := 0x0402
def Cause.KEY_MISSING : Nat := 0x0403
def Cause.CLOCK_RANGE : Nat := 0x0404
def Cause.INGEST_BUSY : Nat := 0x0405
def Cause.PROTOCOL : Nat := 0x0406
def Cause.CAL_INVALID : Nat := 0x0500
def Cause.CAL_UNKNOWN : Nat := 0x0501
def Cause.ACTIVATION_PAST : Nat := 0x0502
def Cause.TOKEN_FORMAT : Nat := 0x0600
def Cause.TOKEN_MAC : Nat := 0x0601
def Cause.TOO_OLD : Nat := 0x0602
def Cause.USED : Nat := 0x0603
def Cause.TOKEN_TYPE : Nat := 0x0604
def Cause.CREDIT_LIMIT : Nat := 0x0605
def Cause.NODE_UNKNOWN : Nat := 0x0700
def Cause.NS_FULL : Nat := 0x0800
def Cause.LBA_RANGE : Nat := 0x0801
def Cause.MEDIA_ERROR : Nat := 0x0802
def Cause.THROTTLED : Nat := 0x0803
def Cause.FW_MANIFEST : Nat := 0x0900
def Cause.FW_HW_TYPE : Nat := 0x0901
def Cause.FW_UNIT : Nat := 0x0902
def Cause.FW_SIGNATURE : Nat := 0x0903
def Cause.FW_COUNTERSIGN : Nat := 0x0904
def Cause.FW_ROLLBACK : Nat := 0x0905
def Cause.FW_BLOCK_CHECK : Nat := 0x0906
def Cause.FW_PATH : Nat := 0x0907
def Cause.FW_TRIAL : Nat := 0x0908
def Cause.KEY_SLOTS_FULL : Nat := 0x0A00
def Cause.LEAVES_EXHAUSTED : Nat := 0x0A01
def Cause.ZEROISED : Nat := 0x0A02
def Cause.LEGAL_UPD_OFF : Nat := 0x0B00
def Cause.SEALED_REJECT : Nat := 0x0B01
def Cause.PAIR_STANDBY : Nat := 0x0C00
def Cause.PAIR_SPLIT : Nat := 0x0C01
def Cause.PAIR_LINK : Nat := 0x0C02
def Cause.PAIR_SWITCH : Nat := 0x0C03
def Cause.TIME_QUALITY : Nat := 0x0D00
def Cause.TIME_STEP : Nat := 0x0D01
def Cause.LINK_NONE : Nat := 0x0E00
def Cause.DUTY_LIMIT : Nat := 0x0E01
def Cause.NODE_NOT_JOINED : Nat := 0x0E02
def Cause.DCOUNTER_SPENT : Nat := 0x0E03
def Cause.INTERNAL : Nat := 0xFFFF

/-- Every code of the table of R73 but OK. -/
def Cause.codes : List Nat :=
  [Cause.BAD_FORMAT, Cause.BAD_OPCODE, Cause.TLV_UNKNOWN, Cause.RIGHTS, Cause.BUSY_RATE, Cause.SEQ_STALE,
   Cause.SESSION_NONE, Cause.HOST_KEY, Cause.PART_TIMEOUT, Cause.TOO_LARGE, Cause.SERVICE_STATE,
   Cause.SEQ_CONFLICT, Cause.REG_ACCESS, Cause.REG_RANGE, Cause.REG_LOCKED, Cause.REG_ADDRESS, Cause.REG_BLOCK,
   Cause.STAGE_LOCKED, Cause.STAGE_FULL, Cause.STAGE_TIMEOUT, Cause.COMMIT_INCONSISTENT, Cause.COMMIT_EMPTY,
   Cause.COMMIT_SUPERSEDED, Cause.WARP_FORMAT, Cause.WARP_HW_TYPE, Cause.WARP_SIGNER, Cause.WARP_SIGNATURE,
   Cause.WARP_ROLLBACK, Cause.WARP_CAPACITY, Cause.WARP_DRAM, Cause.WARP_BUDGET, Cause.WARP_REFERENCE,
   Cause.WARP_SEALED, Cause.WARP_REPLACED, Cause.TASKS_FULL, Cause.TASK_QUOTA, Cause.TASK_UNKNOWN, Cause.RESET] ++
  [Cause.CANCELLED, Cause.NOTICE_FULL, Cause.CONTEXT_REMOVED, Cause.ITEMS_TOO_MANY, Cause.METER_UNKNOWN,
   Cause.AUTH_FAIL, Cause.DUPLICATE, Cause.KEY_MISSING, Cause.CLOCK_RANGE, Cause.INGEST_BUSY, Cause.PROTOCOL,
   Cause.CAL_INVALID, Cause.CAL_UNKNOWN, Cause.ACTIVATION_PAST, Cause.TOKEN_FORMAT, Cause.TOKEN_MAC,
   Cause.TOO_OLD, Cause.USED, Cause.TOKEN_TYPE, Cause.CREDIT_LIMIT, Cause.NODE_UNKNOWN, Cause.NS_FULL,
   Cause.LBA_RANGE, Cause.MEDIA_ERROR, Cause.THROTTLED, Cause.FW_MANIFEST, Cause.FW_HW_TYPE, Cause.FW_UNIT,
   Cause.FW_SIGNATURE, Cause.FW_COUNTERSIGN, Cause.FW_ROLLBACK, Cause.FW_BLOCK_CHECK, Cause.FW_PATH,
   Cause.FW_TRIAL, Cause.KEY_SLOTS_FULL, Cause.LEAVES_EXHAUSTED, Cause.ZEROISED, Cause.LEGAL_UPD_OFF] ++
  [Cause.SEALED_REJECT, Cause.PAIR_STANDBY, Cause.PAIR_SPLIT, Cause.PAIR_LINK, Cause.PAIR_SWITCH,
   Cause.TIME_QUALITY, Cause.TIME_STEP, Cause.LINK_NONE, Cause.DUTY_LIMIT, Cause.NODE_NOT_JOINED,
   Cause.DCOUNTER_SPENT, Cause.INTERNAL]

/-- A code of the table, by a number: what a field holds for which the spec states no code. -/
def Cause.pick (n : Nat) : Nat := Cause.codes.getD (n % Cause.codes.length) Cause.BAD_FORMAT

def Ev.START : Nat := 0x0101
def Ev.TIME_SET : Nat := 0x0102
def Ev.TIME_MARK : Nat := 0x0103
def Ev.EVT_OPEN_LOST : Nat := 0x0104
def Ev.EVT_DROPPED : Nat := 0x0105
def Ev.PACE_OVERRUN : Nat := 0x0201
def Ev.PACE_FAULT : Nat := 0x0202
def Ev.PACE_DEADLINE : Nat := 0x0203
def Ev.WARP_APPLIED : Nat := 0x0210
def Ev.WARP_REJECTED : Nat := 0x0211
def Ev.HOST_AUTH_FAIL : Nat := 0x0301
def Ev.TASK_RESET : Nat := 0x0303
def Ev.CONTEXT_REMOVED : Nat := 0x0305
def Ev.SENSOR_DRIFT : Nat := 0x0401
def Ev.AUTO_ZERO : Nat := 0x0402
def Ev.SENSOR_FAULT : Nat := 0x0403
def Ev.EXTRAP : Nat := 0x0404
def Ev.REFINE_DONE : Nat := 0x0405
def Ev.SENSOR_RANGE : Nat := 0x0406
def Ev.PF_RESIDUE : Nat := 0x0501
def Ev.CKPT_FAIL : Nat := 0x0502
def Ev.CKPT_LOST : Nat := 0x0503
def Ev.PULSE_BACKLOG : Nat := 0x0504
def Ev.METER_AUTH_FAIL : Nat := 0x0601
def Ev.READING_CONFLICT : Nat := 0x0602
def Ev.CLOCK_RANGE : Nat := 0x0603
def Ev.INGEST_BACKPRESSURE : Nat := 0x0604
def Ev.INDEX_DECREASE : Nat := 0x0605
def Ev.REGISTRY_RESTORED : Nat := 0x0606
def Ev.BAL_ALERT : Nat := 0x0701
def Ev.BAL_CLEAR : Nat := 0x0702
def Ev.BAL_REVISION : Nat := 0x0703
def Ev.BAL_LATE : Nat := 0x0704
def Ev.BAL_NO_REF : Nat := 0x0705
def Ev.BAL_BACKLOG : Nat := 0x0706
def Ev.TAR_ACTIVATED : Nat := 0x0801
def Ev.TAR_DEFAULT : Nat := 0x0802
def Ev.TAR_SETBACK : Nat := 0x0803
def Ev.BILL_CLOSE : Nat := 0x0804
def Ev.TAR_CAL_MISMATCH : Nat := 0x0805
def Ev.TAR_RESTORE : Nat := 0x0806
def Ev.PPY_TOKEN : Nat := 0x0901
def Ev.PPY_REJECT : Nat := 0x0902
def Ev.PPY_STATE : Nat := 0x0903
def Ev.PPY_LOCK : Nat := 0x0904
def Ev.PPY_VKEY : Nat := 0x0905
def Ev.LEGAL_UPD : Nat := 0x0A01
def Ev.SEALED_CHANGE : Nat := 0x0A02
def Ev.SEALED_FALLBACK : Nat := 0x0A03
def Ev.SEALED_REQ_REJECT : Nat := 0x0A05
def Ev.DISPLAY_FAULT : Nat := 0x0A06
def Ev.RF_JOIN : Nat := 0x0B01
def Ev.RF_JOIN_REJECT : Nat := 0x0B02
def Ev.RF_CONN_LOST : Nat := 0x0B03
def Ev.RF_DUTY : Nat := 0x0B04
def Ev.RF_CHANNEL : Nat := 0x0B05
def Ev.RF_SYNTH : Nat := 0x0B06
def Ev.RF_DCTR_EPOCH : Nat := 0x0B07
def Ev.PLC_JOIN : Nat := 0x0C01
def Ev.PLC_JOIN_REJECT : Nat := 0x0C02
def Ev.PLC_LINK_LOST : Nat := 0x0C03
def Ev.PLC_REF : Nat := 0x0C04
def Ev.PLC_MODE : Nat := 0x0C05
def Ev.PLC_BEACON_LOSS : Nat := 0x0C06
def Ev.PORT_LINK : Nat := 0x0D01
def Ev.PCIE_RESET : Nat := 0x0D02
def Ev.STO_PROG_FAIL : Nat := 0x0E01
def Ev.STO_FOREGROUND : Nat := 0x0E03
def Ev.STO_MEDIA_ERROR : Nat := 0x0E05
def Ev.STO_DIE_FAIL : Nat := 0x0E06
def Ev.STO_READONLY : Nat := 0x0E07
def Ev.STO_RESTORED : Nat := 0x0E08
def Ev.QUE_POISON : Nat := 0x0F01
def Ev.QUE_OVERRUN : Nat := 0x0F02
def Ev.ARB_FREEZE : Nat := 0x0F03
def Ev.QUE_LOST : Nat := 0x0F04
def Ev.ZEROISE : Nat := 0x1001
def Ev.ENROLLED : Nat := 0x1002
def Ev.PUF_FAIL : Nat := 0x1003
def Ev.LEAVES_LOW : Nat := 0x1004
def Ev.RNG_FAIL : Nat := 0x1005
def Ev.FW_MANIFEST : Nat := 0x1101
def Ev.FW_READY : Nat := 0x1102
def Ev.FW_ACTIVATED : Nat := 0x1103
def Ev.FW_CONFIRMED : Nat := 0x1104
def Ev.FW_FALLBACK : Nat := 0x1105
def Ev.FW_REJECT : Nat := 0x1106
def Ev.FW_CAMPAIGN : Nat := 0x1107
def Ev.PAIR_TAKEOVER : Nat := 0x1201
def Ev.PAIR_MISMATCH : Nat := 0x1203
def Ev.PAIR_SELFCHECK : Nat := 0x1204
def Ev.PAIR_RESYNC : Nat := 0x1205
def Ev.PAIR_LINK : Nat := 0x1206
def Ev.PAIR_DUAL : Nat := 0x1207
def Ev.PAIR_PARTNER : Nat := 0x1208
def Ev.PAIR_REF : Nat := 0x1209
def Ev.SAVE_BEGIN : Nat := 0x1301
def Ev.SAVE_RESULT : Nat := 0x1302
def Ev.SUPPLY_SWITCH : Nat := 0x1303
def Ev.VBAT_LOW : Nat := 0x1304
def Ev.TIME_QUALITY : Nat := 0x1305
def Ev.REF_FAULT : Nat := 0x1306
def Ev.SERVICE_STATE : Nat := 0x1307
def Ev.FATAL : Nat := 0x1401
def Ev.WDOG_BITE : Nat := 0x1402
def Ev.DUMP : Nat := 0x1403
def Ev.PLAN : Nat := 0x1404
def Ev.CAP_TEST : Nat := 0x1405
def Ev.VCORE_LIMIT : Nat := 0x1406
def Ev.CORE_LOST : Nat := 0x1407
def Ev.DUMP_CLEARED : Nat := 0x1408
def Ev.HEALTH_ITEM : Nat := 0x1409

end Sys2Proof.Machine
end

