-- ==== Sys2Proof/Machine/RegMap.lean ====
section
/-! DEFINITION. The register map of R441 and R442: one row for each register table of spec/,
its address, its index ranges, and its fields with access code, reset value and range.
A field whose Reset column names a store or the Warp image has reset 0 here (assumption 3);
reserved bits have no field, so they read as 0 and keep no write (R6). -/

namespace Sys2Proof.Machine

/-- The access codes of R8. -/
inductive Access where
  | RO | RW | RWS | W1C | WO | RC | ROS
  deriving DecidableEq, Repr

/-- The values a field's description allows (R9): any, those of some closed intervals, or the
multiples of `k` from `lo` to `hi`. -/
inductive Range where
  | all
  | iv (l : List (Nat × Nat))
  | step (lo hi k : Nat)
  deriving DecidableEq, Repr

/-- R9: whether a field may take the value. -/
def Range.holds : Range → Nat → Bool
  | .all, _ => true
  | .iv l, v => l.any fun p => decide (p.1 ≤ v) && decide (v ≤ p.2)
  | .step lo hi k, v => decide (lo ≤ v) && decide (v ≤ hi) && decide (v % k = 0)

/-- One field of a register: bits `hi` to `lo` (R3), its access code, reset value and range. -/
structure FieldSpec where
  hi : Nat
  lo : Nat
  acc : Access
  reset : Nat
  range : Range
  deriving DecidableEq, Repr

/-- One register or array of registers: the address of its first element, its (count, stride) pairs from the
outermost index in, whether it is the _LO half of a pair of R444, and its fields from the most
significant down. -/
structure RegSpec where
  addr : Nat
  dims : List (Nat × Nat)
  loPair : Bool
  fields : List FieldSpec
  deriving DecidableEq, Repr

/-- Registers of block 0, SYS. -/
def regsSYS : List RegSpec := [
  ⟨0x00000100, [], false, [⟨1, 1, .WO, 0, .all⟩, ⟨0, 0, .WO, 0, .all⟩]⟩, -- SYS_COMMIT
  ⟨0x00000104, [], false, [⟨31, 16, .RO, 0, .all⟩, ⟨11, 2, .RO, 0, .all⟩, ⟨1, 0, .RO, 0, .all⟩]⟩, -- SYS_COMMIT_STAT
  ⟨0x00000108, [], false, [⟨31, 0, .RO, 0, .all⟩]⟩, -- SYS_COMMIT_ADDR
  ⟨0x0000010C, [], false, [⟨31, 0, .RO, 0, .all⟩]⟩, -- SYS_COMMIT_PACE
  ⟨0x00000110, [], false, [⟨7, 7, .RO, 0, .all⟩, ⟨6, 4, .RO, 0, .all⟩, ⟨1, 1, .WO, 0, .all⟩, ⟨0, 0, .WO, 0, .all⟩]⟩, -- SYS_STAGE_LOCK
  ⟨0x00000114, [], false, [⟨15, 0, .RW, 60, .iv [(5, 3600)]⟩]⟩, -- SYS_STAGE_TIMEOUT
  ⟨0x00000120, [], false, [⟨31, 0, .RO, 0, .all⟩]⟩, -- SYS_WARP_ACTIVE
  ⟨0x00000124, [], false, [⟨31, 0, .RO, 0, .all⟩]⟩, -- SYS_WARP_PENDING
  ⟨0x00000128, [], false, [⟨31, 0, .RO, 0, .all⟩]⟩, -- SYS_WARP_APPLY
  ⟨0x0000012C, [], false, [⟨31, 16, .RO, 0, .all⟩, ⟨1, 0, .RO, 0, .all⟩]⟩, -- SYS_WARP_STAT
  ⟨0x00000000, [], false, [⟨31, 16, .RO, 38400, .all⟩, ⟨7, 0, .RO, 192, .all⟩]⟩, -- SYS_HW_ID
  ⟨0x00000004, [], true, [⟨31, 0, .RO, 0, .all⟩]⟩, -- SYS_DIE_ID_LO
  ⟨0x00000008, [], false, [⟨31, 0, .RO, 0, .all⟩]⟩, -- SYS_DIE_ID_HI
  ⟨0x00000010, [], false, [⟨31, 0, .RO, 0, .all⟩]⟩, -- SYS_FW_VERSION
  ⟨0x00000014, [], false, [⟨31, 0, .RO, 0, .all⟩]⟩, -- SYS_BOOT_VERSION
  ⟨0x00000020, [], false, [⟨15, 8, .RO, 0, .all⟩, ⟨3, 0, .RO, 0, .all⟩]⟩, -- SYS_MEM
  ⟨0x0000FFFC, [], false, [⟨31, 16, .RO, 0, .all⟩, ⟨15, 0, .RO, 1, .all⟩]⟩ -- SYS_BLOCK_ID (R446)
  ]

/-- Registers of block 1, PACE. -/
def regsPACE : List RegSpec := [
  ⟨0x00010000, [], true, [⟨31, 0, .RO, 0, .all⟩]⟩, -- PACE_COUNT_LO
  ⟨0x00010004, [], false, [⟨31, 0, .RO, 0, .all⟩]⟩, -- PACE_COUNT_HI
  ⟨0x00010008, [], false, [⟨3, 0, .RO, 0, .all⟩]⟩, -- PACE_STAT
  ⟨0x00010010, [], false, [⟨31, 0, .W1C, 0, .all⟩]⟩, -- PACE_FAULT
  ⟨0x00010100, [(32, 0x4)], false, [⟨15, 0, .RC, 0, .all⟩]⟩, -- PACE_OVR_CNT[e]
  ⟨0x00010200, [(32, 0x4)], false, [⟨31, 0, .RO, 0, .all⟩]⟩, -- PACE_OVR_LAST[e]
  ⟨0x00010280, [(32, 0x4)], false, [⟨15, 0, .RC, 0, .all⟩]⟩, -- PACE_DL_CNT[e]
  ⟨0x00010300, [(8, 0x4)], false, [⟨9, 0, .RWS, 0, .all⟩]⟩, -- PACE_BAL_US[l]
  ⟨0x00010320, [(8, 0x4)], false, [⟨9, 0, .RWS, 0, .all⟩]⟩, -- PACE_FTL_US[l]
  ⟨0x0001FFFC, [], false, [⟨31, 16, .RO, 1, .all⟩, ⟨15, 0, .RO, 1, .all⟩]⟩ -- PACE_BLOCK_ID (R446)
  ]

/-- Registers of block 2, HOST. -/
def regsHOST : List RegSpec := [
  ⟨0x00020000, [(8, 0x4)], false, [⟨31, 31, .RO, 0, .all⟩, ⟨30, 30, .RO, 0, .all⟩, ⟨29, 29, .RO, 0, .all⟩, ⟨28, 13, .RO, 0, .all⟩, ⟨12, 0, .RO, 0, .all⟩]⟩, -- HOST_CTX_STAT[c]
  ⟨0x00020040, [(8, 0x4)], false, [⟨31, 0, .RO, 0, .all⟩]⟩, -- HOST_SEQ_HIGH[c]
  ⟨0x00020060, [(8, 0x4)], false, [⟨31, 0, .RO, 0, .all⟩]⟩, -- HOST_NOTICE_NEXT[c]
  ⟨0x00020080, [(8, 0x4)], false, [⟨16, 0, .RO, 0, .all⟩]⟩, -- HOST_NOTICE_HELD[c]
  ⟨0x000200A0, [(8, 0x4)], false, [⟨31, 16, .RW, 60000, .iv [(100, 65535)]⟩, ⟨15, 0, .RW, 2000, .iv [(100, 65535)]⟩]⟩, -- HOST_RESEND[c]
  ⟨0x000200C0, [(8, 0x4)], false, [⟨8, 0, .RW, 32, .iv [(1, 256)]⟩]⟩, -- HOST_NOTICE_WIN[c]
  ⟨0x000200E0, [(8, 0x4)], false, [⟨15, 0, .RC, 0, .all⟩]⟩, -- HOST_AUTH_FAIL[c]
  ⟨0x00020100, [(8, 0x4)], false, [⟨15, 0, .RC, 0, .all⟩]⟩, -- HOST_REPEAT_CNT[c]
  ⟨0x00020120, [(8, 0x4)], false, [⟨15, 0, .RC, 0, .all⟩]⟩, -- HOST_BUSY_CNT[c]
  ⟨0x00020140, [(8, 0x4)], false, [⟨1, 1, .WO, 0, .all⟩, ⟨0, 0, .WO, 0, .all⟩]⟩, -- HOST_CTL[c]
  ⟨0x00020200, [], false, [⟨12, 0, .RO, 0, .all⟩]⟩, -- HOST_TASKS_TOTAL
  ⟨0x0002FFFC, [], false, [⟨31, 16, .RO, 2, .all⟩, ⟨15, 0, .RO, 1, .all⟩]⟩ -- HOST_BLOCK_ID (R446)
  ]

/-- Registers of block 3, MET. -/
def regsMET : List RegSpec := [
  ⟨0x00030000, [], false, [⟨1, 1, .RO, 0, .all⟩, ⟨0, 0, .RO, 0, .all⟩]⟩, -- MET_STAT
  ⟨0x00030010, [], false, [⟨31, 16, .RWS, 1000, .iv [(10, 60000)]⟩, ⟨9, 0, .RWS, 50, .iv [(1, 1000)]⟩]⟩, -- MET_ZERO_CFG
  ⟨0x00030040, [(8, 0x4)], false, [⟨31, 31, .RO, 0, .all⟩, ⟨15, 0, .RO, 0, .all⟩]⟩, -- MET_TEMP[t]
  ⟨0x00030100, [(48, 0x4)], false, [⟨31, 0, .ROS, 0, .all⟩]⟩, -- MET_SENS_OFS[s]
  ⟨0x00030200, [(48, 0x4)], false, [⟨23, 0, .ROS, 0, .all⟩]⟩, -- MET_SENS_GAIN[s]
  ⟨0x00030300, [(48, 0x4)], false, [⟨31, 0, .ROS, 0, .all⟩]⟩, -- MET_SENS_AZ[s]
  ⟨0x00030400, [(48, 0x4)], false, [⟨31, 0, .RO, 0, .all⟩]⟩, -- MET_SENS_DRIFT[s]
  ⟨0x00030500, [(48, 0x4)], false, [⟨4, 4, .RO, 0, .all⟩, ⟨3, 3, .RO, 0, .all⟩, ⟨2, 2, .W1C, 0, .all⟩, ⟨1, 1, .W1C, 0, .all⟩, ⟨0, 0, .RO, 0, .all⟩]⟩, -- MET_SENS_STAT[s]
  ⟨0x00030600, [(48, 0x4)], false, [⟨31, 0, .RC, 0, .all⟩]⟩, -- MET_SENS_OVR_CNT[s]
  ⟨0x00030700, [(48, 0x4)], false, [⟨31, 0, .RO, 0, .all⟩]⟩, -- MET_SENS_MEAN[s]
  ⟨0x00030800, [(8, 0x4)], false, [⟨31, 0, .RC, 0, .all⟩]⟩, -- MET_VOLT_OVR_CNT[v]
  ⟨0x00030900, [(12, 0x4)], false, [⟨31, 0, .RO, 0, .all⟩]⟩, -- MET_CH_MAG[c]
  ⟨0x00030940, [(12, 0x4)], false, [⟨23, 0, .RO, 0, .all⟩]⟩, -- MET_CH_GAIN[c]
  ⟨0x00030980, [(12, 0x4)], false, [⟨7, 4, .RO, 0, .all⟩, ⟨3, 3, .W1C, 0, .all⟩, ⟨2, 2, .W1C, 0, .all⟩, ⟨1, 1, .RO, 0, .all⟩, ⟨0, 0, .RO, 0, .all⟩]⟩, -- MET_CH_STAT[c]
  ⟨0x000309C0, [(12, 0x4)], false, [⟨31, 0, .RC, 0, .all⟩]⟩, -- MET_CH_EXTRAP_CNT[c]
  ⟨0x00030A00, [(12, 0x4)], false, [⟨31, 0, .RC, 0, .all⟩]⟩, -- MET_CH_EXTRAP_PEAK[c]
  ⟨0x00031000, [(12, 0x20), (8, 0x4)], false, [⟨7, 0, .ROS, 0, .all⟩]⟩, -- MET_CH_TERM[c][k]
  ⟨0x00031200, [(12, 0x20), (8, 0x4)], false, [⟨31, 0, .ROS, 0, .all⟩]⟩, -- MET_CH_COEF[c][k]
  ⟨0x00032000, [], false, [⟨9, 9, .WO, 0, .all⟩, ⟨8, 8, .WO, 0, .all⟩, ⟨3, 0, .RW, 0, .iv [(0, 11)]⟩]⟩, -- MET_REF_CTL
  ⟨0x00032004, [], false, [⟨19, 0, .RW, 60000, .iv [(1000, 1000000)]⟩]⟩, -- MET_REF_MIN
  ⟨0x00032008, [], false, [⟨31, 28, .RO, 0, .all⟩, ⟨27, 24, .RO, 0, .all⟩, ⟨19, 0, .RO, 0, .all⟩]⟩, -- MET_REF_STAT
  ⟨0x00032010, [(4, 0x4)], false, [⟨31, 0, .RO, 0, .all⟩]⟩, -- MET_REF_PROP[m]
  ⟨0x00032020, [], false, [⟨31, 0, .RO, 0, .all⟩]⟩, -- MET_REF_RMS_BEFORE
  ⟨0x00032024, [], false, [⟨31, 0, .RO, 0, .all⟩]⟩, -- MET_REF_RMS_AFTER
  ⟨0x0003FFFC, [], false, [⟨31, 16, .RO, 3, .all⟩, ⟨15, 0, .RO, 1, .all⟩]⟩ -- MET_BLOCK_ID (R446)
  ]

/-- Registers of block 4, QTY. -/
def regsQTY : List RegSpec := [
  ⟨0x00040000, [], false, [⟨3, 2, .RO, 0, .all⟩, ⟨1, 1, .W1C, 0, .all⟩, ⟨0, 0, .RO, 0, .all⟩]⟩, -- QTY_STAT
  ⟨0x00040004, [], false, [⟨31, 0, .RO, 0, .all⟩]⟩, -- QTY_CKPT_SEQ
  ⟨0x00040008, [], false, [⟨31, 0, .RO, 0, .all⟩]⟩, -- QTY_CKPT_PACE
  ⟨0x0004000C, [], false, [⟨15, 0, .RC, 0, .all⟩]⟩, -- QTY_CKPT_FAIL
  ⟨0x00040040, [(12, 0x4)], false, [⟨7, 7, .W1C, 0, .all⟩, ⟨6, 6, .RO, 0, .all⟩, ⟨5, 5, .W1C, 0, .all⟩, ⟨4, 4, .RO, 0, .all⟩, ⟨3, 3, .RO, 0, .all⟩, ⟨2, 2, .RO, 0, .all⟩, ⟨1, 1, .ROS, 0, .all⟩, ⟨0, 0, .ROS, 0, .all⟩]⟩, -- QTY_MP_STAT[n]
  ⟨0x00040080, [(12, 0x4)], false, [⟨15, 0, .ROS, 0, .all⟩]⟩, -- QTY_REV_CNT[n]
  ⟨0x000400C0, [(12, 0x4)], false, [⟨31, 0, .ROS, 0, .all⟩]⟩, -- QTY_PF_BOUND[n]
  ⟨0x00040100, [(12, 0x80), (9, 0x8)], true, [⟨31, 0, .ROS, 0, .all⟩]⟩, -- QTY_ACC_LO[n][a]
  ⟨0x00040104, [(12, 0x80), (9, 0x8)], false, [⟨31, 0, .ROS, 0, .all⟩]⟩, -- QTY_ACC_HI[n][a]
  ⟨0x00040800, [(12, 0x40), (10, 0x4)], false, [⟨31, 0, .ROS, 0, .all⟩]⟩, -- QTY_INST[n][k]
  ⟨0x00040C00, [(16, 0x4)], false, [⟨31, 31, .RO, 0, .all⟩, ⟨30, 30, .W1C, 0, .all⟩, ⟨15, 0, .RO, 0, .all⟩]⟩, -- QTY_PULSE_STAT[j]
  ⟨0x00040C40, [(16, 0x4)], false, [⟨31, 0, .RO, 0, .all⟩]⟩, -- QTY_PULSE_CNT[j]
  ⟨0x00040C80, [(16, 0x4)], false, [⟨31, 31, .ROS, 0, .all⟩, ⟨30, 30, .ROS, 0, .all⟩, ⟨27, 24, .ROS, 0, .all⟩, ⟨23, 20, .ROS, 0, .all⟩, ⟨7, 0, .ROS, 0, .all⟩]⟩, -- QTY_PULSE_CFG[j]
  ⟨0x00040CC0, [(16, 0x4)], false, [⟨16, 0, .ROS, 0, .all⟩]⟩, -- QTY_PULSE_CONST[j]
  ⟨0x0004FFFC, [], false, [⟨31, 16, .RO, 4, .all⟩, ⟨15, 0, .RO, 1, .all⟩]⟩ -- QTY_BLOCK_ID (R446)
  ]

/-- Registers of block 5, ING. -/
def regsING : List RegSpec := [
  ⟨0x00050000, [], false, [⟨15, 8, .RO, 0, .all⟩, ⟨1, 1, .RO, 0, .all⟩, ⟨0, 0, .RO, 0, .all⟩]⟩, -- ING_STAT
  ⟨0x00050008, [], true, [⟨31, 0, .RO, 0, .all⟩]⟩, -- ING_ISN_LO
  ⟨0x0005000C, [], false, [⟨31, 0, .RO, 0, .all⟩]⟩, -- ING_ISN_HI
  ⟨0x00050010, [], false, [⟨31, 0, .RC, 0, .all⟩]⟩, -- ING_ACCEPT_CNT
  ⟨0x00050014, [], false, [⟨17, 0, .RO, 0, .all⟩]⟩, -- ING_RATE
  ⟨0x00050018, [], false, [⟨31, 0, .RC, 0, .all⟩]⟩, -- ING_DUP_FRAME_CNT
  ⟨0x0005001C, [], false, [⟨31, 0, .RC, 0, .all⟩]⟩, -- ING_DUP_READ_CNT
  ⟨0x00050020, [], false, [⟨31, 0, .RC, 0, .all⟩]⟩, -- ING_CONFLICT_CNT
  ⟨0x00050040, [(7, 0x4)], false, [⟨31, 0, .RC, 0, .all⟩]⟩, -- ING_REJ_CNT[k]
  ⟨0x00050084, [(9, 0x4)], false, [⟨31, 0, .RC, 0, .all⟩]⟩, -- ING_SRC_CNT[r]
  ⟨0x00050100, [], false, [⟨31, 16, .RWS, 900, .iv [(10, 3600)]⟩, ⟨15, 0, .RWS, 9, .iv [(1, 600)]⟩]⟩, -- ING_CLOCK
  ⟨0x00050104, [], false, [⟨15, 0, .RW, 900, .iv [(60, 65535)]⟩]⟩, -- ING_LATE
  ⟨0x00050108, [], false, [⟨15, 8, .RWS, 90, .iv [(50, 99)]⟩, ⟨7, 0, .RWS, 50, .iv [(10, 90)]⟩]⟩, -- ING_BP
  ⟨0x0005010C, [], false, [⟨11, 0, .RW, 2048, .iv [(256, 3072)]⟩]⟩, -- ING_KEYCACHE
  ⟨0x00050110, [], false, [⟨10, 8, .RW, 3, .all⟩, ⟨7, 0, .RW, 30, .iv [(5, 255)]⟩]⟩, -- ING_POLL
  ⟨0x00050114, [], false, [⟨15, 0, .RW, 300, .iv [(30, 3600)]⟩]⟩, -- ING_CKPT
  ⟨0x00050120, [], false, [⟨31, 16, .RO, 0, .all⟩]⟩, -- ING_LAST_REJ
  ⟨0x00050124, [], false, [⟨31, 31, .RO, 0, .all⟩, ⟨19, 0, .RO, 0, .all⟩]⟩, -- ING_LAST_REJ_IDX
  ⟨0x00050128, [], false, [⟨21, 0, .RO, 0, .all⟩]⟩, -- ING_BUF
  ⟨0x0005012C, [], false, [⟨17, 0, .RO, 0, .all⟩]⟩, -- ING_REG_DIRTY
  ⟨0x0005FFFC, [], false, [⟨31, 16, .RO, 5, .all⟩, ⟨15, 0, .RO, 1, .all⟩]⟩ -- ING_BLOCK_ID (R446)
  ]

/-- Registers of block 6, BAL. -/
def regsBAL : List RegSpec := [
  ⟨0x00060000, [], false, [⟨1, 1, .RO, 0, .all⟩, ⟨0, 0, .RO, 0, .all⟩]⟩, -- BAL_STAT
  ⟨0x00060004, [], false, [⟨16, 0, .RO, 0, .all⟩]⟩, -- BAL_ALERTS
  ⟨0x00060008, [], false, [⟨23, 0, .RO, 0, .all⟩]⟩, -- BAL_QUEUE
  ⟨0x0006000C, [], false, [⟨31, 0, .RO, 0, .all⟩]⟩, -- BAL_OLDEST
  ⟨0x00060010, [], false, [⟨31, 0, .RC, 0, .all⟩]⟩, -- BAL_DONE_CNT
  ⟨0x00060014, [], false, [⟨31, 0, .RC, 0, .all⟩]⟩, -- BAL_INCOMPLETE_CNT
  ⟨0x00060018, [], false, [⟨31, 0, .RC, 0, .all⟩]⟩, -- BAL_REV_CNT
  ⟨0x0006001C, [], false, [⟨31, 0, .RC, 0, .all⟩]⟩, -- BAL_LATE_CNT
  ⟨0x00060100, [], false, [⟨31, 16, .RWS, 200, .iv [(50, 2000)]⟩, ⟨15, 0, .RWS, 300, .iv [(100, 3000)]⟩]⟩, -- BAL_Z
  ⟨0x00060104, [], false, [⟨15, 8, .RW, 8, .iv [(1, 96)]⟩, ⟨7, 0, .RW, 4, .iv [(1, 96)]⟩]⟩, -- BAL_RUN
  ⟨0x00060108, [], false, [⟨31, 16, .RW, 240, .iv [(15, 4320)]⟩, ⟨15, 0, .RW, 9800, .iv [(5000, 10000)]⟩]⟩, -- BAL_GATE
  ⟨0x0006010C, [], false, [⟨31, 16, .RWS, 96, .iv [(16, 65535)]⟩, ⟨3, 0, .RWS, 4, .iv [(2, 10)]⟩]⟩, -- BAL_EWMA
  ⟨0x00060110, [], false, [⟨31, 16, .RW, 672, .iv [(96, 65535)]⟩, ⟨15, 0, .RW, 2880, .iv [(96, 65535)]⟩]⟩, -- BAL_LEARN
  ⟨0x00060114, [], false, [⟨31, 16, .RW, 60, .iv [(1, 3600)]⟩, ⟨7, 0, .RW, 72, .iv [(1, 72)]⟩]⟩, -- BAL_REVISE
  ⟨0x00060118, [], false, [⟨15, 8, .RW, 50, .iv [(10, 100)]⟩, ⟨6, 0, .RW, 16, .iv [(1, 64)]⟩]⟩, -- BAL_LOC
  ⟨0x0006011C, [], false, [⟨31, 16, .RW, 3000, .iv [(500, 10000)]⟩, ⟨15, 0, .RW, 4000, .iv [(500, 10000)]⟩]⟩, -- BAL_SIG_THR
  ⟨0x00060120, [], false, [⟨31, 24, .RW, 50, .all⟩, ⟨23, 16, .RW, 40, .all⟩, ⟨15, 8, .RW, 30, .all⟩, ⟨7, 0, .RW, 30, .all⟩]⟩, -- BAL_SIG_W0
  ⟨0x00060124, [], false, [⟨15, 8, .RW, 20, .all⟩, ⟨7, 0, .RW, 40, .all⟩]⟩, -- BAL_SIG_W1
  ⟨0x00060128, [], false, [⟨31, 0, .RW, 10000, .all⟩]⟩, -- BAL_ZERO_BASE
  ⟨0x0006012C, [], false, [⟨15, 0, .RW, 900, .iv [(60, 65535)]⟩]⟩, -- BAL_BACKLOG
  ⟨0x00060200, [], false, [⟨23, 16, .WO, 0, .iv [(0, 4)]⟩, ⟨15, 0, .RW, 0, .all⟩]⟩, -- BAL_CMD
  ⟨0x00060204, [], false, [⟨31, 16, .RO, 0, .all⟩, ⟨1, 0, .RO, 0, .all⟩]⟩, -- BAL_CMD_STAT
  ⟨0x00060210, [], false, [⟨15, 0, .RW, 0, .all⟩]⟩, -- BAL_SEL
  ⟨0x00060214, [], false, [⟨31, 28, .RO, 0, .all⟩, ⟨27, 21, .RO, 0, .all⟩]⟩, -- BAL_SEL_STAT
  ⟨0x00060218, [], false, [⟨16, 16, .RO, 0, .all⟩, ⟨15, 0, .RO, 0, .all⟩]⟩, -- BAL_SEL_LOC
  ⟨0x0006FFFC, [], false, [⟨31, 16, .RO, 6, .all⟩, ⟨15, 0, .RO, 1, .all⟩]⟩ -- BAL_BLOCK_ID (R446)
  ]

/-- Registers of block 7, TAR. -/
def regsTAR : List RegSpec := [
  ⟨0x00070000, [], false, [⟨5, 4, .ROS, 3, .all⟩, ⟨1, 1, .ROS, 0, .all⟩, ⟨0, 0, .ROS, 0, .all⟩]⟩, -- TAR_STAT
  ⟨0x00070008, [], true, [⟨31, 0, .ROS, 0, .all⟩]⟩, -- TAR_HWM_LO
  ⟨0x0007000C, [], false, [⟨31, 0, .ROS, 0, .all⟩]⟩, -- TAR_HWM_HI
  ⟨0x00070010, [], false, [⟨12, 0, .RW, 1440, .iv [(0, 4320)]⟩]⟩, -- TAR_BILL_GRACE
  ⟨0x00070014, [], false, [⟨5, 0, .RW, 2, .iv [(0, 60)]⟩]⟩, -- TAR_SETBACK
  ⟨0x00070020, [], false, [⟨31, 0, .RC, 0, .all⟩]⟩, -- TAR_LATE_CNT
  ⟨0x00070024, [], false, [⟨31, 0, .RC, 0, .all⟩]⟩, -- TAR_DEFAULT_CNT
  ⟨0x00070028, [], false, [⟨31, 0, .RC, 0, .all⟩]⟩, -- TAR_CLOSE_CNT
  ⟨0x0007002C, [], false, [⟨15, 0, .RC, 0, .all⟩]⟩, -- TAR_STEP_CNT
  ⟨0x00070100, [(64, 0x4)], false, [⟨31, 31, .RO, 0, .all⟩, ⟨30, 30, .RO, 0, .all⟩, ⟨29, 29, .RO, 0, .all⟩, ⟨15, 0, .RO, 0, .all⟩]⟩, -- TAR_CAL_STAT[c]
  ⟨0x00070200, [(64, 0x4)], false, [⟨31, 0, .RO, 0, .all⟩]⟩, -- TAR_CAL_ACT[c]
  ⟨0x00070400, [(12, 0x4)], false, [⟨31, 31, .ROS, 0, .all⟩, ⟨7, 0, .ROS, 0, .all⟩]⟩, -- TAR_MP_CAL[n]
  ⟨0x00070440, [(12, 0x4)], false, [⟨31, 16, .ROS, 0, .all⟩, ⟨8, 8, .ROS, 0, .all⟩, ⟨2, 0, .ROS, 0, .all⟩]⟩, -- TAR_MP_RATE[n]
  ⟨0x00070480, [(12, 0x4)], false, [⟨31, 0, .ROS, 0, .all⟩]⟩, -- TAR_MP_BN[n]
  ⟨0x00071000, [(12, 0x100), (8, 0x20), (4, 0x8)], true, [⟨31, 0, .ROS, 0, .all⟩]⟩, -- TAR_MP_REG_LO[n][r][k]
  ⟨0x00071004, [(12, 0x100), (8, 0x20), (4, 0x8)], false, [⟨31, 0, .ROS, 0, .all⟩]⟩, -- TAR_MP_REG_HI[n][r][k]
  ⟨0x00072000, [(12, 0x40), (8, 0x4)], false, [⟨31, 0, .ROS, 0, .all⟩]⟩, -- TAR_MP_DMAX[n][r]
  ⟨0x00072400, [(12, 0x40), (8, 0x4)], false, [⟨31, 0, .ROS, 0, .all⟩]⟩, -- TAR_MP_DMAX_END[n][r]
  ⟨0x0007FFFC, [], false, [⟨31, 16, .RO, 7, .all⟩, ⟨15, 0, .RO, 1, .all⟩]⟩ -- TAR_BLOCK_ID (R446)
  ]

/-- Registers of block 8, PPY. -/
def regsPPY : List RegSpec := [
  ⟨0x00080000, [], false, [⟨3, 0, .RO, 0, .all⟩]⟩, -- PPY_STAT
  ⟨0x00080004, [(2, 0x4)], false, [⟨31, 0, .RWS, 0, .all⟩]⟩, -- PPY_CAL_EN[i]
  ⟨0x00080010, [(2, 0x4)], false, [⟨31, 0, .RW, 1000000, .iv [(1, 4294967295)]⟩]⟩, -- PPY_LIMIT[u]
  ⟨0x00080018, [(2, 0x4)], false, [⟨31, 0, .RW, 5000, .all⟩]⟩, -- PPY_LOW[u]
  ⟨0x00080020, [], false, [⟨15, 8, .RW, 30, .iv [(5, 255)]⟩, ⟨7, 0, .RW, 5, .iv [(1, 255)]⟩]⟩, -- PPY_KEYPAD
  ⟨0x00080030, [], false, [⟨31, 0, .RC, 0, .all⟩]⟩, -- PPY_ACCEPT_CNT
  ⟨0x00080040, [(6, 0x4)], false, [⟨31, 0, .RC, 0, .all⟩]⟩, -- PPY_REJ_CNT[k]
  ⟨0x00081000, [(64, 0x20), (8, 0x4)], false, [⟨31, 0, .RWS, 0, .all⟩]⟩, -- PPY_PRICE[c][r]
  ⟨0x0008FFFC, [], false, [⟨31, 16, .RO, 8, .all⟩, ⟨15, 0, .RO, 1, .all⟩]⟩ -- PPY_BLOCK_ID (R446)
  ]

/-- Registers of block 9, LEG. -/
def regsLEG : List RegSpec := [
  ⟨0x00090000, [], false, [⟨7, 6, .ROS, 0, .all⟩, ⟨5, 5, .ROS, 0, .all⟩, ⟨4, 4, .ROS, 0, .all⟩, ⟨3, 3, .ROS, 0, .all⟩, ⟨2, 2, .ROS, 0, .all⟩, ⟨1, 1, .ROS, 0, .all⟩, ⟨0, 0, .ROS, 0, .all⟩]⟩, -- LEG_STAT
  ⟨0x00090010, [(8, 0x4)], false, [⟨31, 0, .ROS, 0, .all⟩]⟩, -- LEG_CHECK[i]
  ⟨0x00090030, [], false, [⟨31, 0, .ROS, 0, .all⟩]⟩, -- LEG_UPD_CNT
  ⟨0x00090040, [(3, 0x4)], false, [⟨31, 29, .ROS, 0, .all⟩, ⟨28, 0, .ROS, 0, .all⟩]⟩, -- LEG_SLOT[i]
  ⟨0x00090050, [], false, [⟨31, 0, .ROS, 0, .all⟩]⟩, -- LEG_LOG_SEQ
  ⟨0x00090054, [], false, [⟨15, 0, .ROS, 0, .all⟩]⟩, -- LEG_OPT_CNT
  ⟨0x00090058, [], false, [⟨31, 16, .ROS, 0, .all⟩, ⟨15, 0, .ROS, 0, .all⟩]⟩, -- LEG_REQ_REJ
  ⟨0x0009FFFC, [], false, [⟨31, 16, .RO, 9, .all⟩, ⟨15, 0, .RO, 1, .all⟩]⟩ -- LEG_BLOCK_ID (R446)
  ]

/-- Registers of block 10, RFM. -/
def regsRFM : List RegSpec := [
  ⟨0x000A0000, [(2, 0x4)], false, [⟨7, 6, .RO, 0, .all⟩, ⟨5, 5, .RO, 0, .all⟩, ⟨4, 4, .RO, 0, .all⟩, ⟨3, 3, .RO, 0, .all⟩, ⟨2, 2, .W1C, 0, .all⟩]⟩, -- RFM_STAT[x]
  ⟨0x000A0010, [], false, [⟨31, 16, .RO, 0, .all⟩, ⟨15, 0, .RO, 0, .all⟩]⟩, -- RFM_JOINED
  ⟨0x000A0020, [], false, [⟨31, 16, .RW, 60, .iv [(10, 600)]⟩, ⟨15, 0, .RW, 1000, .step 100 10000 10⟩]⟩, -- RFM_CONN
  ⟨0x000A0024, [], false, [⟨7, 0, .RW, 10, .iv [(2, 100)]⟩]⟩, -- RFM_SUP
  ⟨0x000A0028, [], false, [⟨31, 16, .RW, 250, .iv [(50, 5000)]⟩, ⟨15, 8, .RW, 40, .iv [(1, 200)]⟩, ⟨7, 0, .RW, 3, .iv [(1, 50)]⟩]⟩, -- RFM_GUARD
  ⟨0x000A002C, [], false, [⟨15, 8, .RW, 16, .iv [(4, 255)]⟩, ⟨3, 0, .RW, 3, .iv [(1, 8)]⟩]⟩, -- RFM_LEARN
  ⟨0x000A0030, [], false, [⟨3, 0, .RW, 4, .iv [(1, 15)]⟩]⟩, -- RFM_RETRY
  ⟨0x000A0034, [], false, [⟨31, 24, .RW, 171, .all⟩, ⟨23, 20, .RW, 8, .iv [(1, 15)]⟩, ⟨19, 16, .RW, 3, .iv [(1, 7)]⟩, ⟨15, 0, .RW, 100, .iv [(10, 2000)]⟩]⟩, -- RFM_FLOOD
  ⟨0x000A0038, [], false, [⟨15, 0, .RW, 1000, .iv [(125, 4000)]⟩]⟩, -- RFM_LPL
  ⟨0x000A003C, [], false, [⟨15, 0, .RW, 600, .iv [(10, 65535)]⟩]⟩, -- RFM_TX_WAIT
  ⟨0x000A0040, [], false, [⟨15, 8, .RW, 8, .iv [(2, 64)]⟩, ⟨7, 0, .RW, 50, .iv [(10, 100)]⟩]⟩, -- RFM_ADAPT
  ⟨0x000A0044, [], false, [⟨31, 0, .RO, 0, .all⟩]⟩, -- RFM_DEV_CTR
  ⟨0x000A0048, [], false, [⟨15, 0, .RO, 0, .all⟩]⟩, -- RFM_DEV_EPOCH
  ⟨0x000A0080, [(8, 0x4)], false, [⟨15, 0, .RO, 0, .all⟩]⟩, -- RFM_DUTY_USED[b]
  ⟨0x000A00C0, [], false, [⟨31, 0, .RC, 0, .all⟩]⟩, -- RFM_DUTY_DEFER_CNT
  ⟨0x000A00C4, [], false, [⟨31, 0, .RC, 0, .all⟩]⟩, -- RFM_DWELL_DEFER_CNT
  ⟨0x000A0100, [(2, 0x4)], false, [⟨31, 0, .RC, 0, .all⟩]⟩, -- RFM_RX_CNT[x]
  ⟨0x000A0108, [(2, 0x4)], false, [⟨31, 0, .RC, 0, .all⟩]⟩, -- RFM_CRC_ERR_CNT[x]
  ⟨0x000A0110, [(2, 0x4)], false, [⟨31, 0, .RC, 0, .all⟩]⟩, -- RFM_WMB_CNT[x]
  ⟨0x000A0118, [(2, 0x4)], false, [⟨31, 0, .RC, 0, .all⟩]⟩, -- RFM_EVT_SKIP_CNT[x]
  ⟨0x000A0120, [], false, [⟨31, 0, .RC, 0, .all⟩]⟩, -- RFM_MIC_FAIL_CNT
  ⟨0x000A0124, [], false, [⟨31, 0, .RC, 0, .all⟩]⟩, -- RFM_DUP_LSN_CNT
  ⟨0x000A0128, [], false, [⟨31, 0, .RC, 0, .all⟩]⟩, -- RFM_SEEN_HIT_CNT
  ⟨0x000A012C, [], false, [⟨31, 0, .RC, 0, .all⟩]⟩, -- RFM_SEEN_EVICT_CNT
  ⟨0x000A0130, [], false, [⟨31, 0, .RC, 0, .all⟩]⟩, -- RFM_CONN_LOST_CNT
  ⟨0x000A0134, [], false, [⟨31, 0, .RC, 0, .all⟩]⟩, -- RFM_JOIN_CNT
  ⟨0x000A0138, [], false, [⟨31, 0, .RC, 0, .all⟩]⟩, -- RFM_JOIN_REJ_CNT
  ⟨0x000AFFFC, [], false, [⟨31, 16, .RO, 10, .all⟩, ⟨15, 0, .RO, 1, .all⟩]⟩ -- RFM_BLOCK_ID (R446)
  ]

/-- Registers of block 11, PLC. -/
def regsPLC : List RegSpec := [
  ⟨0x000B0000, [(4, 0x4)], false, [⟨7, 7, .RO, 0, .all⟩, ⟨6, 6, .RO, 0, .all⟩, ⟨5, 5, .RO, 0, .all⟩, ⟨4, 4, .RO, 0, .all⟩, ⟨3, 3, .W1C, 0, .all⟩, ⟨2, 0, .RO, 0, .all⟩]⟩, -- PLC_STAT[x]
  ⟨0x000B0010, [(4, 0x4)], false, [⟨23, 0, .RO, 0, .all⟩]⟩, -- PLC_REF_PERIOD[x]
  ⟨0x000B0020, [(4, 0x4)], false, [⟨15, 0, .RO, 0, .all⟩]⟩, -- PLC_AFE_GAIN[x]
  ⟨0x000B0030, [], false, [⟨14, 0, .RO, 0, .all⟩]⟩, -- PLC_ROUTES
  ⟨0x000B0040, [(4, 0x4)], false, [⟨31, 16, .RWS, 0, .iv [(100, 2000)]⟩, ⟨15, 8, .RWS, 0, .iv [(0, 80)]⟩, ⟨1, 0, .RWS, 0, .iv [(0, 2)]⟩]⟩, -- PLC_MODE[x]
  ⟨0x000B0050, [], false, [⟨15, 8, .RWS, 30, .iv [(5, 90)]⟩, ⟨7, 0, .RWS, 10, .iv [(1, 80)]⟩]⟩, -- PLC_AUTO
  ⟨0x000B0054, [], false, [⟨11, 8, .RW, 5, .iv [(1, 15)]⟩, ⟨7, 4, .RW, 4, .iv [(0, 4)]⟩, ⟨3, 0, .RW, 2, .iv [(0, 4)]⟩]⟩, -- PLC_CSMA
  ⟨0x000B0058, [], false, [⟨31, 16, .RW, 60, .iv [(5, 3600)]⟩, ⟨7, 0, .RW, 12, .iv [(0, 80)]⟩]⟩, -- PLC_TM
  ⟨0x000B005C, [], false, [⟨3, 0, .RW, 6, .iv [(0, 8)]⟩]⟩, -- PLC_ILV
  ⟨0x000B0060, [], false, [⟨5, 0, .RW, 12, .iv [(6, 30)]⟩]⟩, -- PLC_IMP
  ⟨0x000B0064, [], false, [⟨31, 16, .RW, 300, .iv [(60, 3600)]⟩, ⟨15, 8, .RW, 60, .iv [(10, 255)]⟩, ⟨7, 0, .RW, 16, .all⟩]⟩, -- PLC_ROUTE
  ⟨0x000B0068, [], false, [⟨31, 16, .RW, 4000, .iv [(100, 60000)]⟩, ⟨3, 0, .RW, 4, .iv [(1, 15)]⟩]⟩, -- PLC_E2E
  ⟨0x000B0100, [(4, 0x4)], false, [⟨31, 0, .RC, 0, .all⟩]⟩, -- PLC_TX_CNT[x]
  ⟨0x000B0110, [(4, 0x4)], false, [⟨31, 0, .RC, 0, .all⟩]⟩, -- PLC_RX_CNT[x]
  ⟨0x000B0120, [(4, 0x4)], false, [⟨31, 0, .RC, 0, .all⟩]⟩, -- PLC_FCH_ERR_CNT[x]
  ⟨0x000B0130, [(4, 0x4)], false, [⟨31, 0, .RC, 0, .all⟩]⟩, -- PLC_RS_FAIL_CNT[x]
  ⟨0x000B0140, [(4, 0x4)], false, [⟨31, 0, .RC, 0, .all⟩]⟩, -- PLC_ERASE_CNT[x]
  ⟨0x000B0150, [(4, 0x4)], false, [⟨31, 0, .RC, 0, .all⟩]⟩, -- PLC_NOACK_CNT[x]
  ⟨0x000B0200, [], false, [⟨31, 16, .RC, 0, .all⟩, ⟨15, 0, .RC, 0, .all⟩]⟩, -- PLC_JOIN_CNT
  ⟨0x000B0204, [], false, [⟨31, 0, .RC, 0, .all⟩]⟩, -- PLC_LINK_LOST_CNT
  ⟨0x000B0208, [], false, [⟨31, 0, .RC, 0, .all⟩]⟩, -- PLC_DUP_CNT
  ⟨0x000BFFFC, [], false, [⟨31, 16, .RO, 11, .all⟩, ⟨15, 0, .RO, 1, .all⟩]⟩ -- PLC_BLOCK_ID (R446)
  ]

/-- Registers of block 12, PRT. -/
def regsPRT : List RegSpec := [
  ⟨0x000C0000, [(64, 0x4)], false, [⟨31, 31, .RO, 0, .all⟩, ⟨7, 0, .RO, 0, .all⟩]⟩, -- PRT_ROLE[p]
  ⟨0x000C0100, [(8, 0x4)], false, [⟨3, 3, .RO, 0, .all⟩, ⟨2, 2, .W1C, 0, .all⟩, ⟨1, 0, .RO, 0, .all⟩]⟩, -- PRT_ETH_STAT[i]
  ⟨0x000C0120, [(8, 0x4)], false, [⟨31, 0, .RC, 0, .all⟩]⟩, -- PRT_ETH_DROP_CNT[i]
  ⟨0x000C0140, [(2, 0x4)], false, [⟨7, 7, .W1C, 0, .all⟩, ⟨6, 4, .RO, 0, .all⟩, ⟨3, 2, .RO, 0, .all⟩, ⟨0, 0, .RO, 0, .all⟩]⟩, -- PRT_PCIE_STAT[e]
  ⟨0x000C0160, [], false, [⟨31, 16, .RO, 0, .all⟩, ⟨2, 2, .W1C, 0, .all⟩, ⟨1, 1, .RO, 0, .all⟩, ⟨0, 0, .RO, 0, .all⟩]⟩, -- PRT_SPI_STAT
  ⟨0x000C0200, [(24, 0x4)], false, [⟨31, 0, .RC, 0, .all⟩]⟩, -- PRT_SER_ERR_CNT[s]
  ⟨0x000C0300, [], false, [⟨31, 16, .RO, 0, .all⟩, ⟨7, 0, .RO, 0, .all⟩]⟩, -- PRT_KEY
  ⟨0x000C0310, [], false, [⟨31, 16, .RC, 0, .all⟩, ⟨1, 1, .RO, 0, .all⟩, ⟨0, 0, .RO, 0, .all⟩]⟩, -- PRT_PPS_STAT
  ⟨0x000C0314, [], false, [⟨31, 16, .RO, 0, .all⟩, ⟨15, 0, .RO, 0, .all⟩]⟩, -- PRT_PPS_STAMP
  ⟨0x000C0320, [], false, [⟨7, 0, .RW, 0, .iv [(0, 127)]⟩]⟩, -- PRT_PTP_CFG
  ⟨0x000C0324, [], false, [⟨31, 16, .RW, 0, .all⟩, ⟨15, 0, .RW, 0, .all⟩]⟩, -- PRT_PTP_LAT
  ⟨0x000C0400, [], false, [⟨15, 8, .RO, 0, .all⟩, ⟨7, 0, .W1C, 0, .all⟩]⟩, -- PRT_TAMP_STAT
  ⟨0x000CFFFC, [], false, [⟨31, 16, .RO, 12, .all⟩, ⟨15, 0, .RO, 1, .all⟩]⟩ -- PRT_BLOCK_ID (R446)
  ]

/-- Registers of block 13, STO. -/
def regsSTO : List RegSpec := [
  ⟨0x000D0000, [], false, [⟨4, 4, .RO, 0, .all⟩, ⟨3, 3, .RO, 0, .all⟩, ⟨2, 2, .RO, 0, .all⟩, ⟨1, 1, .RO, 0, .all⟩, ⟨0, 0, .RO, 0, .all⟩]⟩, -- STO_STAT
  ⟨0x000D0004, [], false, [⟨31, 16, .RO, 0, .all⟩, ⟨15, 0, .RO, 0, .all⟩]⟩, -- STO_FREE
  ⟨0x000D0010, [], false, [⟨31, 24, .RWS, 10, .iv [(3, 30)]⟩, ⟨23, 12, .RWS, 200, .iv [(100, 1000)]⟩, ⟨11, 0, .RWS, 50, .iv [(25, 500)]⟩]⟩, -- STO_GC
  ⟨0x000D0014, [], false, [⟨31, 16, .RW, 50, .iv [(10, 200)]⟩, ⟨15, 0, .RW, 5000, .iv [(100, 60000)]⟩]⟩, -- STO_THROTTLE
  ⟨0x000D0018, [], false, [⟨23, 16, .RO, 30, .all⟩, ⟨15, 8, .RW, 60, .iv [(25, 90)]⟩, ⟨7, 0, .RW, 30, .iv [(1, 90)]⟩]⟩, -- STO_SCRUB
  ⟨0x000D001C, [], false, [⟨15, 0, .RW, 500, .iv [(50, 5000)]⟩]⟩, -- STO_WL
  ⟨0x000D0100, [(64, 0x4)], false, [⟨31, 31, .RO, 0, .all⟩, ⟨30, 30, .RO, 0, .all⟩, ⟨15, 0, .RO, 0, .all⟩]⟩, -- STO_DIE_STAT[d]
  ⟨0x000D0200, [], false, [⟨31, 31, .WO, 0, .all⟩, ⟨5, 0, .RW, 0, .all⟩]⟩, -- STO_DIE_CTL
  ⟨0x000D0280, [(7, 0x4)], false, [⟨31, 0, .RO, 0, .all⟩]⟩, -- STO_NS_SIZE[k]
  ⟨0x000D02A0, [], false, [⟨31, 0, .RO, 0, .all⟩]⟩, -- STO_JRNL_SEQ
  ⟨0x000D0300, [], false, [⟨31, 0, .RC, 0, .all⟩]⟩, -- STO_PROG_FAIL_CNT
  ⟨0x000D0304, [], false, [⟨31, 0, .RC, 0, .all⟩]⟩, -- STO_ERASE_FAIL_CNT
  ⟨0x000D0308, [], false, [⟨31, 0, .RC, 0, .all⟩]⟩, -- STO_REBUILD_CNT
  ⟨0x000D030C, [], false, [⟨31, 0, .RC, 0, .all⟩]⟩, -- STO_MEDIA_ERR_CNT
  ⟨0x000D0310, [], false, [⟨31, 0, .RC, 0, .all⟩]⟩, -- STO_RETRY_CNT
  ⟨0x000D0314, [], false, [⟨31, 0, .RC, 0, .all⟩]⟩, -- STO_THROTTLE_CNT
  ⟨0x000D0318, [], false, [⟨31, 0, .RC, 0, .all⟩]⟩, -- STO_GC_UNITS
  ⟨0x000DFFFC, [], false, [⟨31, 16, .RO, 13, .all⟩, ⟨15, 0, .RO, 1, .all⟩]⟩ -- STO_BLOCK_ID (R446)
  ]

/-- Registers of block 14, QUE. -/
def regsQUE : List RegSpec := [
  ⟨0x000E0000, [(512, 0x4)], false, [⟨31, 31, .RO, 0, .all⟩, ⟨30, 30, .RO, 1, .all⟩, ⟨29, 29, .RO, 0, .all⟩, ⟨28, 28, .W1C, 0, .all⟩, ⟨27, 27, .W1C, 0, .all⟩, ⟨26, 26, .W1C, 0, .all⟩, ⟨16, 0, .RO, 0, .all⟩]⟩, -- QUE_STAT[q]
  ⟨0x000E0800, [(512, 0x4)], false, [⟨16, 0, .RO, 0, .all⟩]⟩, -- QUE_WPTR[q]
  ⟨0x000E1000, [(512, 0x4)], false, [⟨16, 0, .RO, 0, .all⟩]⟩, -- QUE_RPTR[q]
  ⟨0x000E1800, [(512, 0x8)], true, [⟨31, 0, .RW, 0, .all⟩]⟩, -- QUE_IDLE_LO[q]
  ⟨0x000E1804, [(512, 0x8)], false, [⟨31, 0, .RW, 0, .all⟩]⟩, -- QUE_IDLE_HI[q]
  ⟨0x000E2800, [(512, 0x4)], false, [⟨31, 16, .RC, 0, .all⟩, ⟨15, 0, .RC, 0, .all⟩]⟩, -- QUE_ERR_CNT[q]
  ⟨0x000E3000, [(512, 0x4)], false, [⟨31, 31, .RO, 0, .all⟩, ⟨23, 20, .RO, 0, .all⟩, ⟨19, 0, .RO, 0, .all⟩]⟩, -- QUE_CFG[q]
  ⟨0x000EFFFC, [], false, [⟨31, 16, .RO, 14, .all⟩, ⟨15, 0, .RO, 1, .all⟩]⟩ -- QUE_BLOCK_ID (R446)
  ]

/-- Registers of block 15, ARB. -/
def regsARB : List RegSpec := [
  ⟨0x000F0000, [], false, [⟨0, 0, .RW, 0, .all⟩]⟩, -- ARB_CTL
  ⟨0x000F0004, [], false, [⟨31, 16, .RO, 0, .all⟩, ⟨6, 6, .RO, 0, .all⟩, ⟨5, 5, .RO, 0, .all⟩, ⟨3, 0, .RO, 0, .all⟩]⟩, -- ARB_STAT
  ⟨0x000F0010, [(4, 0x4)], false, [⟨31, 24, .RW, 0, .all⟩, ⟨23, 16, .RW, 0, .all⟩, ⟨15, 8, .RW, 0, .all⟩, ⟨7, 0, .RW, 0, .all⟩]⟩, -- ARB_TICKETS[k]
  ⟨0x000F0020, [], false, [⟨31, 0, .RW, 0, .iv [(1, 4294967295)]⟩]⟩, -- ARB_SEED
  ⟨0x000F0024, [], false, [⟨31, 0, .RO, 0, .all⟩]⟩, -- ARB_LFSR
  ⟨0x000F0028, [], false, [⟨31, 0, .RO, 0, .all⟩]⟩, -- ARB_HOLD_PACE
  ⟨0x000F0040, [(16, 0x4)], false, [⟨31, 0, .RC, 0, .all⟩]⟩, -- ARB_GRANT_CNT[i]
  ⟨0x000FFFFC, [], false, [⟨31, 16, .RO, 15, .all⟩, ⟨15, 0, .RO, 1, .all⟩]⟩ -- ARB_BLOCK_ID (R446)
  ]

/-- Registers of block 16, EVT. -/
def regsEVT : List RegSpec := [
  ⟨0x00100000, [], false, [⟨3, 3, .W1C, 0, .all⟩, ⟨2, 2, .W1C, 0, .all⟩, ⟨1, 1, .RO, 0, .all⟩, ⟨0, 0, .RO, 0, .all⟩]⟩, -- EVT_STAT
  ⟨0x00100004, [], false, [⟨31, 0, .RO, 0, .all⟩]⟩, -- EVT_SEQ
  ⟨0x00100008, [], false, [⟨31, 16, .RO, 0, .all⟩, ⟨15, 0, .RO, 0, .all⟩]⟩, -- EVT_OPEN
  ⟨0x0010000C, [], false, [⟨31, 0, .RO, 0, .all⟩]⟩, -- EVT_OLDEST
  ⟨0x00100010, [], false, [⟨11, 0, .RW, 60, .iv [(1, 3600)]⟩]⟩, -- EVT_WINDOW
  ⟨0x00100018, [], true, [⟨31, 0, .RO, 0, .all⟩]⟩, -- EVT_OPSEC_LO
  ⟨0x0010001C, [], false, [⟨15, 0, .RO, 0, .all⟩]⟩, -- EVT_OPSEC_HI
  ⟨0x00100020, [], false, [⟨31, 0, .RO, 0, .all⟩]⟩, -- EVT_PWR_CYCLES
  ⟨0x00100030, [], false, [⟨31, 0, .RW, 4294967295, .all⟩]⟩, -- EVT_NOTICE_EN
  ⟨0x00100040, [], false, [⟨31, 0, .RC, 0, .all⟩]⟩, -- EVT_DROP_CNT
  ⟨0x00100044, [], false, [⟨31, 0, .RC, 0, .all⟩]⟩, -- EVT_CLOSE_CNT
  ⟨0x0010FFFC, [], false, [⟨31, 16, .RO, 16, .all⟩, ⟨15, 0, .RO, 1, .all⟩]⟩ -- EVT_BLOCK_ID (R446)
  ]

/-- Registers of block 17, KEY. -/
def regsKEY : List RegSpec := [
  ⟨0x00110000, [], false, [⟨5, 5, .W1C, 0, .all⟩, ⟨4, 4, .RO, 0, .all⟩, ⟨3, 3, .RO, 0, .all⟩, ⟨2, 0, .RO, 0, .all⟩]⟩, -- KEY_STAT
  ⟨0x00110004, [], false, [⟨31, 0, .RO, 0, .all⟩]⟩, -- KEY_ENROL_CNT
  ⟨0x00110010, [(8, 0x4)], false, [⟨31, 0, .RO, 0, .all⟩]⟩, -- KEY_IDENT[i]
  ⟨0x00110030, [], false, [⟨31, 0, .RO, 0, .all⟩]⟩, -- KEY_LEAF_NEXT
  ⟨0x00110034, [], false, [⟨31, 0, .RO, 0, .all⟩]⟩, -- KEY_LEAF_RES
  ⟨0x00110038, [], false, [⟨31, 0, .RO, 0, .all⟩]⟩, -- KEY_LEAF_LEFT
  ⟨0x00110040, [], false, [⟨28, 16, .RC, 0, .all⟩, ⟨12, 0, .RO, 0, .all⟩]⟩, -- KEY_SLOTS
  ⟨0x00110044, [], false, [⟨31, 0, .RC, 0, .all⟩]⟩, -- KEY_SLOT_FULL_CNT
  ⟨0x00110048, [], false, [⟨31, 0, .RC, 0, .all⟩]⟩, -- KEY_UNWRAP_FAIL_CNT
  ⟨0x00110050, [], false, [⟨12, 12, .W1C, 0, .all⟩, ⟨11, 11, .W1C, 0, .all⟩, ⟨10, 10, .W1C, 0, .all⟩, ⟨9, 9, .W1C, 0, .all⟩, ⟨8, 8, .W1C, 0, .all⟩, ⟨7, 0, .W1C, 0, .all⟩]⟩, -- KEY_ZSRC
  ⟨0x00110054, [], false, [⟨1, 1, .WO, 0, .all⟩, ⟨0, 0, .WO, 0, .all⟩]⟩, -- KEY_ZCTL
  ⟨0x00110060, [], false, [⟨15, 0, .RO, 0, .all⟩]⟩, -- KEY_PUF
  ⟨0x00110070, [], false, [⟨15, 0, .RW, 20000, .iv [(1, 65535)]⟩]⟩, -- KEY_SIGN_CFG
  ⟨0x00110074, [], false, [⟨31, 0, .RC, 0, .all⟩]⟩, -- KEY_SIGN_CNT
  ⟨0x00110080, [], false, [⟨31, 16, .RC, 0, .all⟩, ⟨1, 1, .W1C, 0, .all⟩, ⟨0, 0, .RO, 0, .all⟩]⟩, -- KEY_RNG
  ⟨0x0011FFFC, [], false, [⟨31, 16, .RO, 17, .all⟩, ⟨15, 0, .RO, 1, .all⟩]⟩ -- KEY_BLOCK_ID (R446)
  ]

/-- Registers of block 18, FWU. -/
def regsFWU : List RegSpec := [
  ⟨0x00120000, [], false, [⟨7, 6, .RO, 0, .all⟩, ⟨5, 5, .RO, 0, .all⟩, ⟨4, 4, .RO, 0, .all⟩, ⟨3, 3, .RO, 0, .all⟩, ⟨1, 0, .RO, 0, .all⟩]⟩, -- FWU_STAT
  ⟨0x00120004, [], false, [⟨29, 16, .RO, 0, .all⟩, ⟨13, 0, .RO, 0, .all⟩]⟩, -- FWU_XFER
  ⟨0x00120010, [(3, 0x4)], false, [⟨31, 0, .RO, 0, .all⟩]⟩, -- FWU_VERSION[s]
  ⟨0x0012001C, [], false, [⟨7, 4, .RO, 0, .all⟩, ⟨3, 0, .RO, 0, .all⟩]⟩, -- FWU_SLOT_STAT
  ⟨0x00120020, [(2, 0x4)], false, [⟨31, 0, .RO, 0, .all⟩]⟩, -- FWU_RB[k]
  ⟨0x00120040, [], false, [⟨3, 3, .RW, 0, .all⟩, ⟨2, 2, .RW, 0, .all⟩, ⟨1, 1, .RW, 1, .all⟩, ⟨0, 0, .RW, 1, .all⟩]⟩, -- FWU_POLICY
  ⟨0x00120044, [], false, [⟨31, 16, .RW, 300, .iv [(30, 3600)]⟩, ⟨15, 0, .RW, 1800, .iv [(60, 65535)]⟩]⟩, -- FWU_TRIAL
  ⟨0x00120048, [], false, [⟨15, 0, .RO, 0, .all⟩]⟩, -- FWU_TRIAL_LEFT
  ⟨0x0012004C, [], false, [⟨0, 0, .WO, 0, .all⟩]⟩, -- FWU_CTL
  ⟨0x00120050, [], false, [⟨31, 0, .RC, 0, .all⟩]⟩, -- FWU_BLK_FAIL_CNT
  ⟨0x00120100, [(8, 0x4)], false, [⟨31, 30, .RO, 0, .all⟩, ⟨29, 27, .RO, 0, .all⟩, ⟨20, 0, .RO, 0, .all⟩]⟩, -- FWU_CAMP_STAT[c]
  ⟨0x00120120, [(8, 0x4)], false, [⟨20, 0, .RO, 0, .all⟩]⟩, -- FWU_CAMP_DONE[c]
  ⟨0x00120140, [(8, 0x4)], false, [⟨15, 0, .RO, 0, .all⟩]⟩, -- FWU_CAMP_ROUND[c]
  ⟨0x0012FFFC, [], false, [⟨31, 16, .RO, 18, .all⟩, ⟨15, 0, .RO, 1, .all⟩]⟩ -- FWU_BLOCK_ID (R446)
  ]

/-- Registers of block 19, PAIR. -/
def regsPAIR : List RegSpec := [
  ⟨0x00130000, [], false, [⟨13, 13, .RO, 0, .all⟩, ⟨12, 12, .RO, 0, .all⟩, ⟨11, 11, .RO, 0, .all⟩, ⟨10, 10, .RO, 0, .all⟩, ⟨9, 9, .RO, 0, .all⟩, ⟨8, 8, .RO, 0, .all⟩, ⟨7, 7, .RO, 0, .all⟩, ⟨6, 4, .RO, 0, .all⟩, ⟨1, 0, .RO, 0, .all⟩]⟩, -- PAIR_STAT
  ⟨0x00130004, [], false, [⟨7, 0, .RO, 0, .all⟩]⟩, -- PAIR_LAG
  ⟨0x00130008, [], false, [⟨31, 0, .RO, 0, .all⟩]⟩, -- PAIR_COMMON_LO
  ⟨0x0013000C, [], false, [⟨31, 0, .RO, 0, .all⟩]⟩, -- PAIR_RESYNC_LEFT
  ⟨0x00130010, [], false, [⟨9, 8, .RO, 0, .all⟩, ⟨7, 6, .RO, 0, .all⟩, ⟨3, 0, .RO, 0, .all⟩]⟩, -- PAIR_SELFCHECK
  ⟨0x00130020, [], false, [⟨31, 0, .RC, 0, .all⟩]⟩, -- PAIR_MISMATCH_CNT
  ⟨0x00130024, [], false, [⟨31, 0, .RC, 0, .all⟩]⟩, -- PAIR_SWITCH_CNT
  ⟨0x00130028, [], false, [⟨31, 0, .RC, 0, .all⟩]⟩, -- PAIR_DUAL_CNT
  ⟨0x0013002C, [], false, [⟨31, 0, .RC, 0, .all⟩]⟩, -- PAIR_LINK_CNT
  ⟨0x00130030, [], false, [⟨31, 16, .RC, 0, .all⟩, ⟨9, 0, .RO, 0, .all⟩]⟩, -- PAIR_LEDGER
  ⟨0x00130040, [], false, [⟨1, 1, .WO, 0, .all⟩, ⟨0, 0, .WO, 0, .all⟩]⟩, -- PAIR_CTL
  ⟨0x0013FFFC, [], false, [⟨31, 16, .RO, 19, .all⟩, ⟨15, 0, .RO, 1, .all⟩]⟩ -- PAIR_BLOCK_ID (R446)
  ]

/-- Registers of block 20, PWR. -/
def regsPWR : List RegSpec := [
  ⟨0x00140000, [], false, [⟨7, 7, .RO, 0, .all⟩, ⟨6, 6, .RO, 0, .all⟩, ⟨5, 5, .RO, 0, .all⟩, ⟨4, 4, .RO, 0, .all⟩, ⟨3, 2, .RO, 0, .all⟩, ⟨1, 0, .RO, 0, .all⟩]⟩, -- PWR_STAT
  ⟨0x00140004, [], false, [⟨9, 8, .RO, 0, .all⟩, ⟨7, 0, .RO, 0, .all⟩]⟩, -- PWR_RESET
  ⟨0x00140008, [], false, [⟨31, 16, .RO, 0, .all⟩, ⟨15, 0, .RO, 0, .all⟩]⟩, -- PWR_VIN
  ⟨0x0014000C, [], false, [⟨31, 16, .RO, 0, .all⟩, ⟨15, 0, .RO, 0, .all⟩]⟩, -- PWR_VSYS
  ⟨0x00140010, [], false, [⟨15, 0, .RW, 2550, .iv [(2400, 3200)]⟩]⟩, -- PWR_WARN
  ⟨0x00140014, [], false, [⟨11, 0, .RW, 2000, .iv [(500, 3000)]⟩]⟩, -- PWR_HOLDUP
  ⟨0x00140018, [], false, [⟨31, 24, .RO, 0, .all⟩, ⟨23, 16, .RO, 0, .all⟩, ⟨15, 0, .RO, 0, .all⟩]⟩, -- PWR_SAVE_LAST
  ⟨0x0014001C, [], false, [⟨31, 0, .RC, 0, .all⟩]⟩, -- PWR_SAVE_CNT
  ⟨0x00140020, [], false, [⟨31, 0, .RC, 0, .all⟩]⟩, -- PWR_SWITCH_CNT
  ⟨0x00140024, [], false, [⟨15, 0, .RO, 0, .all⟩]⟩, -- PWR_VBAT
  ⟨0x0014FFFC, [], false, [⟨31, 16, .RO, 20, .all⟩, ⟨15, 0, .RO, 1, .all⟩]⟩ -- PWR_BLOCK_ID (R446)
  ]

/-- Registers of block 21, CLK. -/
def regsCLK : List RegSpec := [
  ⟨0x00150000, [], false, [⟨3, 3, .RO, 0, .all⟩, ⟨2, 2, .RO, 0, .all⟩, ⟨1, 1, .RO, 0, .all⟩, ⟨0, 0, .RO, 0, .all⟩]⟩, -- CLK_STAT
  ⟨0x00150004, [], false, [⟨4, 0, .RW, 0, .iv [(0, 20)]⟩]⟩, -- CLK_SPREAD
  ⟨0x00150008, [], true, [⟨31, 0, .RO, 0, .all⟩]⟩, -- CLK_TIME_LO
  ⟨0x0015000C, [], false, [⟨31, 0, .RO, 0, .all⟩]⟩, -- CLK_TIME_HI
  ⟨0x00150010, [], false, [⟨31, 16, .RO, 0, .all⟩, ⟨3, 2, .RO, 0, .all⟩, ⟨1, 0, .RO, 3, .all⟩]⟩, -- CLK_QUAL
  ⟨0x00150014, [], false, [⟨2, 2, .RWS, 1, .all⟩, ⟨1, 1, .RWS, 1, .all⟩, ⟨0, 0, .RWS, 1, .all⟩]⟩, -- CLK_TSRC
  ⟨0x00150018, [], false, [⟨31, 22, .RWS, 24, .iv [(1, 720)]⟩, ⟨21, 16, .RWS, 10, .iv [(1, 63)]⟩, ⟨15, 0, .RWS, 900, .iv [(16, 65535)]⟩]⟩, -- CLK_QUAL_CFG
  ⟨0x0015001C, [], false, [⟨8, 0, .RW, 31, .iv [(0, 365)]⟩]⟩, -- CLK_FREE
  ⟨0x00150020, [], false, [⟨31, 16, .RW, 128, .iv [(1, 10000)]⟩, ⟨8, 0, .RW, 500, .iv [(1, 500)]⟩]⟩, -- CLK_STEP
  ⟨0x00150024, [], false, [⟨3, 0, .RW, 4, .iv [(1, 12)]⟩]⟩, -- CLK_SERVO
  ⟨0x00150028, [], false, [⟨31, 0, .RO, 0, .all⟩]⟩, -- CLK_OFFSET
  ⟨0x0015002C, [], false, [⟨31, 0, .RO, 0, .all⟩]⟩, -- CLK_FREQ
  ⟨0x00150030, [], false, [⟨31, 0, .RO, 0, .all⟩]⟩, -- CLK_RTC_TRIM
  ⟨0x00150034, [], false, [⟨15, 0, .RC, 0, .all⟩]⟩, -- CLK_STEP_CNT
  ⟨0x0015FFFC, [], false, [⟨31, 16, .RO, 21, .all⟩, ⟨15, 0, .RO, 1, .all⟩]⟩ -- CLK_BLOCK_ID (R446)
  ]

/-- Registers of block 22, HLT. -/
def regsHLT : List RegSpec := [
  ⟨0x00160000, [], false, [⟨15, 8, .RO, 0, .all⟩, ⟨4, 4, .RO, 0, .all⟩, ⟨3, 3, .RO, 0, .all⟩, ⟨2, 2, .RO, 0, .all⟩, ⟨1, 0, .RO, 0, .all⟩]⟩, -- HLT_STAT
  ⟨0x00160004, [], false, [⟨31, 16, .RC, 0, .all⟩, ⟨15, 0, .RW, 64, .iv [(16, 1024)]⟩]⟩, -- HLT_WDOG
  ⟨0x00160008, [], false, [⟨31, 16, .RO, 0, .all⟩, ⟨15, 0, .RO, 0, .all⟩]⟩, -- HLT_CAP
  ⟨0x0016000C, [], false, [⟨31, 16, .RO, 0, .all⟩, ⟨15, 0, .RO, 0, .all⟩]⟩, -- HLT_EU
  ⟨0x00160010, [], false, [⟨31, 31, .WO, 0, .all⟩, ⟨4, 0, .RW, 3, .iv [(0, 23)]⟩]⟩, -- HLT_CAP_CFG
  ⟨0x00160014, [], false, [⟨9, 0, .RW, 100, .iv [(16, 1000)]⟩]⟩, -- HLT_PLAN
  ⟨0x00160018, [], false, [⟨31, 16, .RO, 0, .all⟩, ⟨15, 0, .RO, 750, .all⟩]⟩, -- HLT_VCORE
  ⟨0x0016001C, [], false, [⟨6, 0, .RW, 40, .iv [(20, 100)]⟩]⟩, -- HLT_VCORE_CFG
  ⟨0x00160020, [], false, [⟨15, 0, .RO, 0, .all⟩]⟩, -- HLT_NAND
  ⟨0x00160024, [], false, [⟨31, 16, .RW, 300, .iv [(50, 2000)]⟩, ⟨15, 8, .RW, 100, .iv [(5, 255)]⟩, ⟨7, 0, .RW, 10, .iv [(1, 50)]⟩]⟩, -- HLT_LIMITS
  ⟨0x00160028, [], false, [⟨31, 16, .RO, 0, .all⟩, ⟨15, 12, .RO, 0, .all⟩, ⟨11, 4, .RO, 0, .all⟩, ⟨3, 0, .RO, 0, .all⟩]⟩, -- HLT_FATAL_LAST
  ⟨0x00160040, [(4, 0x4)], false, [⟨31, 31, .RO, 0, .all⟩, ⟨30, 30, .RO, 0, .all⟩, ⟨29, 29, .RO, 0, .all⟩, ⟨23, 0, .RO, 0, .all⟩]⟩, -- HLT_DUMP_STAT[k]
  ⟨0x0016FFFC, [], false, [⟨31, 16, .RO, 22, .all⟩, ⟨15, 0, .RO, 1, .all⟩]⟩ -- HLT_BLOCK_ID (R446)
  ]

/-- R441: the registers of block b. -/
def blockRegs : Nat → List RegSpec
  | 0 => regsSYS
  | 1 => regsPACE
  | 2 => regsHOST
  | 3 => regsMET
  | 4 => regsQTY
  | 5 => regsING
  | 6 => regsBAL
  | 7 => regsTAR
  | 8 => regsPPY
  | 9 => regsLEG
  | 10 => regsRFM
  | 11 => regsPLC
  | 12 => regsPRT
  | 13 => regsSTO
  | 14 => regsQUE
  | 15 => regsARB
  | 16 => regsEVT
  | 17 => regsKEY
  | 18 => regsFWU
  | 19 => regsPAIR
  | 20 => regsPWR
  | 21 => regsCLK
  | 22 => regsHLT
  | _ => []

/-- The bits a full start leaves as they stand: fields whose Reset column names MRAM, NAND, NOR, the journal, the
fuses or the VBAT domain, by the address of the first element (R7). -/
def keptBits : List (Nat × Word) := [
  (0x00020040, 0xFFFFFFFF), -- HOST_SEQ_HIGH[c]
  (0x00020060, 0xFFFFFFFF), -- HOST_NOTICE_NEXT[c]
  (0x00020080, 0x0001FFFF), -- HOST_NOTICE_HELD[c]
  (0x00050008, 0xFFFFFFFF), -- ING_ISN_LO
  (0x0005000C, 0xFFFFFFFF), -- ING_ISN_HI
  (0x00060004, 0x0001FFFF), -- BAL_ALERTS
  (0x00070100, 0xC000FFFF), -- TAR_CAL_STAT[c]
  (0x00070200, 0xFFFFFFFF), -- TAR_CAL_ACT[c]
  (0x00080000, 0x0000000F), -- PPY_STAT
  (0x00090000, 0x000000C0), -- LEG_STAT
  (0x00090030, 0xFFFFFFFF), -- LEG_UPD_CNT
  (0x00090040, 0xFFFFFFFF), -- LEG_SLOT[i]
  (0x00090050, 0xFFFFFFFF), -- LEG_LOG_SEQ
  (0x000A0010, 0xFFFF0000), -- RFM_JOINED
  (0x000A0044, 0xFFFFFFFF), -- RFM_DEV_CTR
  (0x000A0048, 0x0000FFFF), -- RFM_DEV_EPOCH
  (0x000C0400, 0x000000FF), -- PRT_TAMP_STAT
  (0x000D0100, 0x4000FFFF), -- STO_DIE_STAT[d]
  (0x000D02A0, 0xFFFFFFFF), -- STO_JRNL_SEQ
  (0x00100004, 0xFFFFFFFF), -- EVT_SEQ
  (0x0010000C, 0xFFFFFFFF), -- EVT_OLDEST
  (0x00100018, 0xFFFFFFFF), -- EVT_OPSEC_LO
  (0x0010001C, 0x0000FFFF), -- EVT_OPSEC_HI
  (0x00100020, 0xFFFFFFFF), -- EVT_PWR_CYCLES
  (0x00110000, 0x00000028), -- KEY_STAT
  (0x00110004, 0xFFFFFFFF), -- KEY_ENROL_CNT
  (0x00110030, 0xFFFFFFFF), -- KEY_LEAF_NEXT
  (0x00110034, 0xFFFFFFFF), -- KEY_LEAF_RES
  (0x00110038, 0xFFFFFFFF), -- KEY_LEAF_LEFT
  (0x00110050, 0x00001FFF), -- KEY_ZSRC
  (0x00120000, 0x000000FB), -- FWU_STAT
  (0x00120004, 0x3FFF3FFF), -- FWU_XFER
  (0x00120010, 0xFFFFFFFF), -- FWU_VERSION[s]
  (0x0012001C, 0x000000FF), -- FWU_SLOT_STAT
  (0x00120020, 0xFFFFFFFF), -- FWU_RB[k]
  (0x00120100, 0xF81FFFFF), -- FWU_CAMP_STAT[c]
  (0x00120120, 0x001FFFFF), -- FWU_CAMP_DONE[c]
  (0x00120140, 0x0000FFFF), -- FWU_CAMP_ROUND[c]
  (0x00130008, 0xFFFFFFFF), -- PAIR_COMMON_LO
  (0x00140004, 0x000003FF), -- PWR_RESET
  (0x00140018, 0xFFFFFFFF), -- PWR_SAVE_LAST
  (0x00150000, 0x00000008), -- CLK_STAT
  (0x00150030, 0xFFFFFFFF), -- CLK_RTC_TRIM
  (0x00160000, 0x00000007), -- HLT_STAT
  (0x00160008, 0xFFFFFFFF), -- HLT_CAP
  (0x0016000C, 0xFFFFFFFF), -- HLT_EU
  (0x00160028, 0xFFFFFFFF), -- HLT_FATAL_LAST
  (0x00160040, 0xE0FFFFFF), -- HLT_DUMP_STAT[k]
  (0x00000000, 0xFFFF00FF), -- SYS_HW_ID
  (0x00000004, 0xFFFFFFFF), -- SYS_DIE_ID_LO
  (0x00000008, 0xFFFFFFFF), -- SYS_DIE_ID_HI
  (0x00000010, 0xFFFFFFFF), -- SYS_FW_VERSION
  (0x00000014, 0xFFFFFFFF) -- SYS_BOOT_VERSION
  ]

end Sys2Proof.Machine
end

