-- ==== Sys2Proof/Machine/RegNames.lean ====
section
/-! DEFINITION. The registers and fields of R441 and R442 that the meanings name, by the names
of their tables in spec/: R.NAME is an address, F.NAME.FIELD a bit range of that register. -/

namespace Sys2Proof.Machine

/-- Bits `hi` to `lo` of the register at `addr` (R3). -/
structure FieldRef where
  addr : Nat
  hi : Nat
  lo : Nat
  deriving DecidableEq, Repr

def R.PACE_COUNT_LO : Nat := 0x00010000
def F.PACE_COUNT_LO.COUNT_LO : FieldRef := ⟨R.PACE_COUNT_LO, 31, 0⟩
def R.PACE_COUNT_HI : Nat := 0x00010004
def F.PACE_COUNT_HI.COUNT_HI : FieldRef := ⟨R.PACE_COUNT_HI, 31, 0⟩
def R.PACE_STAT : Nat := 0x00010008
def F.PACE_STAT.QUANTUM : FieldRef := ⟨R.PACE_STAT, 3, 0⟩
def R.PACE_FAULT : Nat := 0x00010010
def R.PACE_OVR_CNT (e : Nat) : Nat := 0x00010100 + 0x4 * e
def F.PACE_OVR_CNT.COUNT (e : Nat) : FieldRef := ⟨R.PACE_OVR_CNT e, 15, 0⟩
def R.PACE_OVR_LAST (e : Nat) : Nat := 0x00010200 + 0x4 * e
def F.PACE_OVR_LAST.PACE (e : Nat) : FieldRef := ⟨R.PACE_OVR_LAST e, 31, 0⟩
def R.PACE_DL_CNT (e : Nat) : Nat := 0x00010280 + 0x4 * e
def F.PACE_DL_CNT.COUNT (e : Nat) : FieldRef := ⟨R.PACE_DL_CNT e, 15, 0⟩
def R.PACE_BAL_US (l : Nat) : Nat := 0x00010300 + 0x4 * l
def F.PACE_BAL_US.US (l : Nat) : FieldRef := ⟨R.PACE_BAL_US l, 9, 0⟩
def R.PACE_FTL_US (l : Nat) : Nat := 0x00010320 + 0x4 * l
def F.PACE_FTL_US.US (l : Nat) : FieldRef := ⟨R.PACE_FTL_US l, 9, 0⟩
def R.SYS_COMMIT : Nat := 0x00000100
def R.SYS_COMMIT_STAT : Nat := 0x00000104
def F.SYS_COMMIT_STAT.CAUSE : FieldRef := ⟨R.SYS_COMMIT_STAT, 31, 16⟩
def F.SYS_COMMIT_STAT.STAGED : FieldRef := ⟨R.SYS_COMMIT_STAT, 11, 2⟩
def F.SYS_COMMIT_STAT.STATE : FieldRef := ⟨R.SYS_COMMIT_STAT, 1, 0⟩
def R.SYS_COMMIT_ADDR : Nat := 0x00000108
def R.SYS_COMMIT_PACE : Nat := 0x0000010C
def F.SYS_COMMIT_PACE.PACE : FieldRef := ⟨R.SYS_COMMIT_PACE, 31, 0⟩
def R.SYS_STAGE_LOCK : Nat := 0x00000110
def F.SYS_STAGE_LOCK.HELD : FieldRef := ⟨R.SYS_STAGE_LOCK, 7, 7⟩
def F.SYS_STAGE_LOCK.OWNER : FieldRef := ⟨R.SYS_STAGE_LOCK, 6, 4⟩
def R.SYS_STAGE_TIMEOUT : Nat := 0x00000114
def F.SYS_STAGE_TIMEOUT.SECONDS : FieldRef := ⟨R.SYS_STAGE_TIMEOUT, 15, 0⟩
def R.SYS_WARP_ACTIVE : Nat := 0x00000120
def F.SYS_WARP_ACTIVE.SERIAL : FieldRef := ⟨R.SYS_WARP_ACTIVE, 31, 0⟩
def R.SYS_WARP_PENDING : Nat := 0x00000124
def F.SYS_WARP_PENDING.SERIAL : FieldRef := ⟨R.SYS_WARP_PENDING, 31, 0⟩
def R.SYS_WARP_APPLY : Nat := 0x00000128
def F.SYS_WARP_APPLY.PACE : FieldRef := ⟨R.SYS_WARP_APPLY, 31, 0⟩
def R.SYS_WARP_STAT : Nat := 0x0000012C
def F.SYS_WARP_STAT.CAUSE : FieldRef := ⟨R.SYS_WARP_STAT, 31, 16⟩
def F.SYS_WARP_STAT.STATE : FieldRef := ⟨R.SYS_WARP_STAT, 1, 0⟩
def R.HOST_CTX_STAT (c : Nat) : Nat := 0x00020000 + 0x4 * c
def F.HOST_CTX_STAT.SESSION (c : Nat) : FieldRef := ⟨R.HOST_CTX_STAT c, 31, 31⟩
def F.HOST_CTX_STAT.HANDSHAKE (c : Nat) : FieldRef := ⟨R.HOST_CTX_STAT c, 30, 30⟩
def F.HOST_CTX_STAT.CONFIGURED (c : Nat) : FieldRef := ⟨R.HOST_CTX_STAT c, 29, 29⟩
def F.HOST_CTX_STAT.SESSION_NO (c : Nat) : FieldRef := ⟨R.HOST_CTX_STAT c, 28, 13⟩
def F.HOST_CTX_STAT.TASKS (c : Nat) : FieldRef := ⟨R.HOST_CTX_STAT c, 12, 0⟩
def R.HOST_SEQ_HIGH (c : Nat) : Nat := 0x00020040 + 0x4 * c
def F.HOST_SEQ_HIGH.SEQ (c : Nat) : FieldRef := ⟨R.HOST_SEQ_HIGH c, 31, 0⟩
def R.HOST_NOTICE_NEXT (c : Nat) : Nat := 0x00020060 + 0x4 * c
def F.HOST_NOTICE_NEXT.SEQ (c : Nat) : FieldRef := ⟨R.HOST_NOTICE_NEXT c, 31, 0⟩
def R.HOST_NOTICE_HELD (c : Nat) : Nat := 0x00020080 + 0x4 * c
def F.HOST_NOTICE_HELD.COUNT (c : Nat) : FieldRef := ⟨R.HOST_NOTICE_HELD c, 16, 0⟩
def R.HOST_RESEND (c : Nat) : Nat := 0x000200A0 + 0x4 * c
def F.HOST_RESEND.MAX_MS (c : Nat) : FieldRef := ⟨R.HOST_RESEND c, 31, 16⟩
def F.HOST_RESEND.INIT_MS (c : Nat) : FieldRef := ⟨R.HOST_RESEND c, 15, 0⟩
def R.HOST_NOTICE_WIN (c : Nat) : Nat := 0x000200C0 + 0x4 * c
def F.HOST_NOTICE_WIN.WINDOW (c : Nat) : FieldRef := ⟨R.HOST_NOTICE_WIN c, 8, 0⟩
def R.HOST_AUTH_FAIL (c : Nat) : Nat := 0x000200E0 + 0x4 * c
def F.HOST_AUTH_FAIL.COUNT (c : Nat) : FieldRef := ⟨R.HOST_AUTH_FAIL c, 15, 0⟩
def R.HOST_REPEAT_CNT (c : Nat) : Nat := 0x00020100 + 0x4 * c
def F.HOST_REPEAT_CNT.COUNT (c : Nat) : FieldRef := ⟨R.HOST_REPEAT_CNT c, 15, 0⟩
def R.HOST_BUSY_CNT (c : Nat) : Nat := 0x00020120 + 0x4 * c
def F.HOST_BUSY_CNT.COUNT (c : Nat) : FieldRef := ⟨R.HOST_BUSY_CNT c, 15, 0⟩
def R.HOST_CTL (c : Nat) : Nat := 0x00020140 + 0x4 * c
def R.HOST_TASKS_TOTAL : Nat := 0x00020200
def F.HOST_TASKS_TOTAL.IN_FLIGHT : FieldRef := ⟨R.HOST_TASKS_TOTAL, 12, 0⟩
def R.MET_STAT : Nat := 0x00030000
def F.MET_STAT.READY : FieldRef := ⟨R.MET_STAT, 1, 1⟩
def F.MET_STAT.LOCK : FieldRef := ⟨R.MET_STAT, 0, 0⟩
def R.MET_ZERO_CFG : Nat := 0x00030010
def F.MET_ZERO_CFG.MIN : FieldRef := ⟨R.MET_ZERO_CFG, 31, 16⟩
def F.MET_ZERO_CFG.SETTLE : FieldRef := ⟨R.MET_ZERO_CFG, 9, 0⟩
def R.MET_TEMP (t : Nat) : Nat := 0x00030040 + 0x4 * t
def F.MET_TEMP.VALID (t : Nat) : FieldRef := ⟨R.MET_TEMP t, 31, 31⟩
def F.MET_TEMP.TEMP (t : Nat) : FieldRef := ⟨R.MET_TEMP t, 15, 0⟩
def R.MET_SENS_OFS (s : Nat) : Nat := 0x00030100 + 0x4 * s
def F.MET_SENS_OFS.OFFSET (s : Nat) : FieldRef := ⟨R.MET_SENS_OFS s, 31, 0⟩
def R.MET_SENS_GAIN (s : Nat) : Nat := 0x00030200 + 0x4 * s
def F.MET_SENS_GAIN.GAIN (s : Nat) : FieldRef := ⟨R.MET_SENS_GAIN s, 23, 0⟩
def R.MET_SENS_AZ (s : Nat) : Nat := 0x00030300 + 0x4 * s
def F.MET_SENS_AZ.AZ (s : Nat) : FieldRef := ⟨R.MET_SENS_AZ s, 31, 0⟩
def R.MET_SENS_DRIFT (s : Nat) : Nat := 0x00030400 + 0x4 * s
def F.MET_SENS_DRIFT.DRIFT (s : Nat) : FieldRef := ⟨R.MET_SENS_DRIFT s, 31, 0⟩
def R.MET_SENS_STAT (s : Nat) : Nat := 0x00030500 + 0x4 * s
def F.MET_SENS_STAT.AZ_LIMIT (s : Nat) : FieldRef := ⟨R.MET_SENS_STAT s, 4, 4⟩
def F.MET_SENS_STAT.ZERO_OPEN (s : Nat) : FieldRef := ⟨R.MET_SENS_STAT s, 3, 3⟩
def F.MET_SENS_STAT.DRIFT_ALARM (s : Nat) : FieldRef := ⟨R.MET_SENS_STAT s, 2, 2⟩
def F.MET_SENS_STAT.FAULT_SEEN (s : Nat) : FieldRef := ⟨R.MET_SENS_STAT s, 1, 1⟩
def F.MET_SENS_STAT.FAULT (s : Nat) : FieldRef := ⟨R.MET_SENS_STAT s, 0, 0⟩
def R.MET_SENS_OVR_CNT (s : Nat) : Nat := 0x00030600 + 0x4 * s
def F.MET_SENS_OVR_CNT.COUNT (s : Nat) : FieldRef := ⟨R.MET_SENS_OVR_CNT s, 31, 0⟩
def R.MET_SENS_MEAN (s : Nat) : Nat := 0x00030700 + 0x4 * s
def F.MET_SENS_MEAN.MEAN (s : Nat) : FieldRef := ⟨R.MET_SENS_MEAN s, 31, 0⟩
def R.MET_VOLT_OVR_CNT (v : Nat) : Nat := 0x00030800 + 0x4 * v
def F.MET_VOLT_OVR_CNT.COUNT (v : Nat) : FieldRef := ⟨R.MET_VOLT_OVR_CNT v, 31, 0⟩
def R.MET_CH_MAG (c : Nat) : Nat := 0x00030900 + 0x4 * c
def F.MET_CH_MAG.MAG (c : Nat) : FieldRef := ⟨R.MET_CH_MAG c, 31, 0⟩
def R.MET_CH_GAIN (c : Nat) : Nat := 0x00030940 + 0x4 * c
def F.MET_CH_GAIN.GAIN (c : Nat) : FieldRef := ⟨R.MET_CH_GAIN c, 23, 0⟩
def R.MET_CH_STAT (c : Nat) : Nat := 0x00030980 + 0x4 * c
def F.MET_CH_STAT.REASON (c : Nat) : FieldRef := ⟨R.MET_CH_STAT c, 7, 4⟩
def F.MET_CH_STAT.OVR_SEEN (c : Nat) : FieldRef := ⟨R.MET_CH_STAT c, 3, 3⟩
def F.MET_CH_STAT.EXTRAP_SEEN (c : Nat) : FieldRef := ⟨R.MET_CH_STAT c, 2, 2⟩
def F.MET_CH_STAT.EXTRAP (c : Nat) : FieldRef := ⟨R.MET_CH_STAT c, 1, 1⟩
def F.MET_CH_STAT.ZERO (c : Nat) : FieldRef := ⟨R.MET_CH_STAT c, 0, 0⟩
def R.MET_CH_EXTRAP_CNT (c : Nat) : Nat := 0x000309C0 + 0x4 * c
def F.MET_CH_EXTRAP_CNT.COUNT (c : Nat) : FieldRef := ⟨R.MET_CH_EXTRAP_CNT c, 31, 0⟩
def R.MET_CH_EXTRAP_PEAK (c : Nat) : Nat := 0x00030A00 + 0x4 * c
def F.MET_CH_EXTRAP_PEAK.MAG (c : Nat) : FieldRef := ⟨R.MET_CH_EXTRAP_PEAK c, 31, 0⟩
def R.MET_CH_TERM (c : Nat) (k : Nat) : Nat := 0x00031000 + 0x20 * c + 0x4 * k
def F.MET_CH_TERM.SENSOR (c : Nat) (k : Nat) : FieldRef := ⟨R.MET_CH_TERM c k, 7, 0⟩
def R.MET_CH_COEF (c : Nat) (k : Nat) : Nat := 0x00031200 + 0x20 * c + 0x4 * k
def F.MET_CH_COEF.COEFF (c : Nat) (k : Nat) : FieldRef := ⟨R.MET_CH_COEF c k, 31, 0⟩
def R.MET_REF_CTL : Nat := 0x00032000
def F.MET_REF_CTL.CH : FieldRef := ⟨R.MET_REF_CTL, 3, 0⟩
def R.MET_REF_MIN : Nat := 0x00032004
def F.MET_REF_MIN.PACES : FieldRef := ⟨R.MET_REF_MIN, 19, 0⟩
def R.MET_REF_STAT : Nat := 0x00032008
def F.MET_REF_STAT.STATE : FieldRef := ⟨R.MET_REF_STAT, 31, 28⟩
def F.MET_REF_STAT.CH : FieldRef := ⟨R.MET_REF_STAT, 27, 24⟩
def F.MET_REF_STAT.PACES : FieldRef := ⟨R.MET_REF_STAT, 19, 0⟩
def R.MET_REF_PROP (m : Nat) : Nat := 0x00032010 + 0x4 * m
def F.MET_REF_PROP.COEFF (m : Nat) : FieldRef := ⟨R.MET_REF_PROP m, 31, 0⟩
def R.MET_REF_RMS_BEFORE : Nat := 0x00032020
def F.MET_REF_RMS_BEFORE.RMS : FieldRef := ⟨R.MET_REF_RMS_BEFORE, 31, 0⟩
def R.MET_REF_RMS_AFTER : Nat := 0x00032024
def F.MET_REF_RMS_AFTER.RMS : FieldRef := ⟨R.MET_REF_RMS_AFTER, 31, 0⟩
def R.QTY_STAT : Nat := 0x00040000
def F.QTY_STAT.RESTORE : FieldRef := ⟨R.QTY_STAT, 3, 2⟩
def F.QTY_STAT.CKPT_FAIL_SEEN : FieldRef := ⟨R.QTY_STAT, 1, 1⟩
def F.QTY_STAT.METERING : FieldRef := ⟨R.QTY_STAT, 0, 0⟩
def R.QTY_CKPT_SEQ : Nat := 0x00040004
def F.QTY_CKPT_SEQ.SEQ : FieldRef := ⟨R.QTY_CKPT_SEQ, 31, 0⟩
def R.QTY_CKPT_PACE : Nat := 0x00040008
def F.QTY_CKPT_PACE.PACE : FieldRef := ⟨R.QTY_CKPT_PACE, 31, 0⟩
def R.QTY_CKPT_FAIL : Nat := 0x0004000C
def F.QTY_CKPT_FAIL.COUNT : FieldRef := ⟨R.QTY_CKPT_FAIL, 15, 0⟩
def R.QTY_MP_STAT (n : Nat) : Nat := 0x00040040 + 0x4 * n
def F.QTY_MP_STAT.PF_GAP_SEEN (n : Nat) : FieldRef := ⟨R.QTY_MP_STAT n, 7, 7⟩
def F.QTY_MP_STAT.FREQ_VALID (n : Nat) : FieldRef := ⟨R.QTY_MP_STAT n, 6, 6⟩
def F.QTY_MP_STAT.REV_SEEN (n : Nat) : FieldRef := ⟨R.QTY_MP_STAT n, 5, 5⟩
def F.QTY_MP_STAT.DIR_VALID (n : Nat) : FieldRef := ⟨R.QTY_MP_STAT n, 4, 4⟩
def F.QTY_MP_STAT.DIR (n : Nat) : FieldRef := ⟨R.QTY_MP_STAT n, 3, 3⟩
def F.QTY_MP_STAT.CREEP (n : Nat) : FieldRef := ⟨R.QTY_MP_STAT n, 2, 2⟩
def F.QTY_MP_STAT.DC (n : Nat) : FieldRef := ⟨R.QTY_MP_STAT n, 1, 1⟩
def F.QTY_MP_STAT.ENABLED (n : Nat) : FieldRef := ⟨R.QTY_MP_STAT n, 0, 0⟩
def R.QTY_REV_CNT (n : Nat) : Nat := 0x00040080 + 0x4 * n
def F.QTY_REV_CNT.COUNT (n : Nat) : FieldRef := ⟨R.QTY_REV_CNT n, 15, 0⟩
def R.QTY_PF_BOUND (n : Nat) : Nat := 0x000400C0 + 0x4 * n
def F.QTY_PF_BOUND.BOUND (n : Nat) : FieldRef := ⟨R.QTY_PF_BOUND n, 31, 0⟩
def R.QTY_ACC_LO (n : Nat) (a : Nat) : Nat := 0x00040100 + 0x80 * n + 0x8 * a
def R.QTY_INST (n : Nat) (k : Nat) : Nat := 0x00040800 + 0x40 * n + 0x4 * k
def F.QTY_INST.VALUE (n : Nat) (k : Nat) : FieldRef := ⟨R.QTY_INST n k, 31, 0⟩
def R.QTY_PULSE_STAT (j : Nat) : Nat := 0x00040C00 + 0x4 * j
def F.QTY_PULSE_STAT.ASSERTED (j : Nat) : FieldRef := ⟨R.QTY_PULSE_STAT j, 31, 31⟩
def F.QTY_PULSE_STAT.BACKLOG (j : Nat) : FieldRef := ⟨R.QTY_PULSE_STAT j, 30, 30⟩
def F.QTY_PULSE_STAT.PENDING (j : Nat) : FieldRef := ⟨R.QTY_PULSE_STAT j, 15, 0⟩
def R.QTY_PULSE_CNT (j : Nat) : Nat := 0x00040C40 + 0x4 * j
def F.QTY_PULSE_CNT.COUNT (j : Nat) : FieldRef := ⟨R.QTY_PULSE_CNT j, 31, 0⟩
def R.QTY_PULSE_CFG (j : Nat) : Nat := 0x00040C80 + 0x4 * j
def F.QTY_PULSE_CFG.ENABLED (j : Nat) : FieldRef := ⟨R.QTY_PULSE_CFG j, 31, 31⟩
def F.QTY_PULSE_CFG.ACTIVE_LOW (j : Nat) : FieldRef := ⟨R.QTY_PULSE_CFG j, 30, 30⟩
def F.QTY_PULSE_CFG.MP (j : Nat) : FieldRef := ⟨R.QTY_PULSE_CFG j, 27, 24⟩
def F.QTY_PULSE_CFG.ACC (j : Nat) : FieldRef := ⟨R.QTY_PULSE_CFG j, 23, 20⟩
def F.QTY_PULSE_CFG.WIDTH_MS (j : Nat) : FieldRef := ⟨R.QTY_PULSE_CFG j, 7, 0⟩
def R.QTY_PULSE_CONST (j : Nat) : Nat := 0x00040CC0 + 0x4 * j
def F.QTY_PULSE_CONST.CONSTANT (j : Nat) : FieldRef := ⟨R.QTY_PULSE_CONST j, 16, 0⟩
def R.ING_STAT : Nat := 0x00050000
def F.ING_STAT.FILL : FieldRef := ⟨R.ING_STAT, 15, 8⟩
def F.ING_STAT.BP : FieldRef := ⟨R.ING_STAT, 1, 1⟩
def F.ING_STAT.READY : FieldRef := ⟨R.ING_STAT, 0, 0⟩
def R.ING_ISN_LO : Nat := 0x00050008
def R.ING_ACCEPT_CNT : Nat := 0x00050010
def F.ING_ACCEPT_CNT.COUNT : FieldRef := ⟨R.ING_ACCEPT_CNT, 31, 0⟩
def R.ING_RATE : Nat := 0x00050014
def F.ING_RATE.RATE : FieldRef := ⟨R.ING_RATE, 17, 0⟩
def R.ING_DUP_FRAME_CNT : Nat := 0x00050018
def F.ING_DUP_FRAME_CNT.COUNT : FieldRef := ⟨R.ING_DUP_FRAME_CNT, 31, 0⟩
def R.ING_DUP_READ_CNT : Nat := 0x0005001C
def F.ING_DUP_READ_CNT.COUNT : FieldRef := ⟨R.ING_DUP_READ_CNT, 31, 0⟩
def R.ING_CONFLICT_CNT : Nat := 0x00050020
def F.ING_CONFLICT_CNT.COUNT : FieldRef := ⟨R.ING_CONFLICT_CNT, 31, 0⟩
def R.ING_REJ_CNT (k : Nat) : Nat := 0x00050040 + 0x4 * k
def F.ING_REJ_CNT.COUNT (k : Nat) : FieldRef := ⟨R.ING_REJ_CNT k, 31, 0⟩
def R.ING_SRC_CNT (r : Nat) : Nat := 0x00050080 + 0x4 * r
def F.ING_SRC_CNT.COUNT (r : Nat) : FieldRef := ⟨R.ING_SRC_CNT r, 31, 0⟩
def R.ING_CLOCK : Nat := 0x00050100
def F.ING_CLOCK.MAX_S : FieldRef := ⟨R.ING_CLOCK, 31, 16⟩
def F.ING_CLOCK.TOL_S : FieldRef := ⟨R.ING_CLOCK, 15, 0⟩
def R.ING_LATE : Nat := 0x00050104
def F.ING_LATE.SECONDS : FieldRef := ⟨R.ING_LATE, 15, 0⟩
def R.ING_BP : Nat := 0x00050108
def F.ING_BP.HIGH : FieldRef := ⟨R.ING_BP, 15, 8⟩
def F.ING_BP.LOW : FieldRef := ⟨R.ING_BP, 7, 0⟩
def R.ING_KEYCACHE : Nat := 0x0005010C
def F.ING_KEYCACHE.SLOTS : FieldRef := ⟨R.ING_KEYCACHE, 11, 0⟩
def R.ING_POLL : Nat := 0x00050110
def F.ING_POLL.RETRIES : FieldRef := ⟨R.ING_POLL, 10, 8⟩
def F.ING_POLL.OFFSET_S : FieldRef := ⟨R.ING_POLL, 7, 0⟩
def R.ING_CKPT : Nat := 0x00050114
def F.ING_CKPT.SECONDS : FieldRef := ⟨R.ING_CKPT, 15, 0⟩
def R.ING_LAST_REJ : Nat := 0x00050120
def F.ING_LAST_REJ.CAUSE : FieldRef := ⟨R.ING_LAST_REJ, 31, 16⟩
def R.ING_LAST_REJ_IDX : Nat := 0x00050124
def F.ING_LAST_REJ_IDX.VALID : FieldRef := ⟨R.ING_LAST_REJ_IDX, 31, 31⟩
def F.ING_LAST_REJ_IDX.INDEX : FieldRef := ⟨R.ING_LAST_REJ_IDX, 19, 0⟩
def R.ING_BUF : Nat := 0x00050128
def F.ING_BUF.FILL : FieldRef := ⟨R.ING_BUF, 21, 0⟩
def R.ING_REG_DIRTY : Nat := 0x0005012C
def F.ING_REG_DIRTY.CHUNKS : FieldRef := ⟨R.ING_REG_DIRTY, 17, 0⟩
def R.BAL_STAT : Nat := 0x00060000
def F.BAL_STAT.BACKLOG : FieldRef := ⟨R.BAL_STAT, 1, 1⟩
def F.BAL_STAT.READY : FieldRef := ⟨R.BAL_STAT, 0, 0⟩
def R.BAL_ALERTS : Nat := 0x00060004
def F.BAL_ALERTS.COUNT : FieldRef := ⟨R.BAL_ALERTS, 16, 0⟩
def R.BAL_QUEUE : Nat := 0x00060008
def F.BAL_QUEUE.JOBS : FieldRef := ⟨R.BAL_QUEUE, 23, 0⟩
def R.BAL_OLDEST : Nat := 0x0006000C
def F.BAL_OLDEST.SECONDS : FieldRef := ⟨R.BAL_OLDEST, 31, 0⟩
def R.BAL_DONE_CNT : Nat := 0x00060010
def F.BAL_DONE_CNT.COUNT : FieldRef := ⟨R.BAL_DONE_CNT, 31, 0⟩
def R.BAL_INCOMPLETE_CNT : Nat := 0x00060014
def F.BAL_INCOMPLETE_CNT.COUNT : FieldRef := ⟨R.BAL_INCOMPLETE_CNT, 31, 0⟩
def R.BAL_REV_CNT : Nat := 0x00060018
def F.BAL_REV_CNT.COUNT : FieldRef := ⟨R.BAL_REV_CNT, 31, 0⟩
def R.BAL_LATE_CNT : Nat := 0x0006001C
def F.BAL_LATE_CNT.COUNT : FieldRef := ⟨R.BAL_LATE_CNT, 31, 0⟩
def R.BAL_Z : Nat := 0x00060100
def F.BAL_Z.Z_CLR : FieldRef := ⟨R.BAL_Z, 31, 16⟩
def F.BAL_Z.Z_HI : FieldRef := ⟨R.BAL_Z, 15, 0⟩
def R.BAL_RUN : Nat := 0x00060104
def F.BAL_RUN.M : FieldRef := ⟨R.BAL_RUN, 15, 8⟩
def F.BAL_RUN.N : FieldRef := ⟨R.BAL_RUN, 7, 0⟩
def R.BAL_GATE : Nat := 0x00060108
def F.BAL_GATE.WAIT_MIN : FieldRef := ⟨R.BAL_GATE, 31, 16⟩
def F.BAL_GATE.PCT : FieldRef := ⟨R.BAL_GATE, 15, 0⟩
def R.BAL_EWMA : Nat := 0x0006010C
def F.BAL_EWMA.WARMUP : FieldRef := ⟨R.BAL_EWMA, 31, 16⟩
def F.BAL_EWMA.ALPHA_SHIFT : FieldRef := ⟨R.BAL_EWMA, 3, 0⟩
def R.BAL_LEARN : Nat := 0x00060110
def F.BAL_LEARN.MIN : FieldRef := ⟨R.BAL_LEARN, 31, 16⟩
def F.BAL_LEARN.TAU : FieldRef := ⟨R.BAL_LEARN, 15, 0⟩
def R.BAL_REVISE : Nat := 0x00060114
def F.BAL_REVISE.HOLD_S : FieldRef := ⟨R.BAL_REVISE, 31, 16⟩
def F.BAL_REVISE.HOURS : FieldRef := ⟨R.BAL_REVISE, 7, 0⟩
def R.BAL_LOC : Nat := 0x00060118
def F.BAL_LOC.SHARE : FieldRef := ⟨R.BAL_LOC, 15, 8⟩
def F.BAL_LOC.TOPK : FieldRef := ⟨R.BAL_LOC, 6, 0⟩
def R.BAL_SIG_THR : Nat := 0x0006011C
def F.BAL_SIG_THR.PEER_MIN : FieldRef := ⟨R.BAL_SIG_THR, 31, 16⟩
def F.BAL_SIG_THR.DROP_MIN : FieldRef := ⟨R.BAL_SIG_THR, 15, 0⟩
def R.BAL_SIG_W0 : Nat := 0x00060120
def F.BAL_SIG_W0.S4 : FieldRef := ⟨R.BAL_SIG_W0, 31, 24⟩
def F.BAL_SIG_W0.S3 : FieldRef := ⟨R.BAL_SIG_W0, 23, 16⟩
def F.BAL_SIG_W0.S2 : FieldRef := ⟨R.BAL_SIG_W0, 15, 8⟩
def F.BAL_SIG_W0.S1 : FieldRef := ⟨R.BAL_SIG_W0, 7, 0⟩
def R.BAL_SIG_W1 : Nat := 0x00060124
def F.BAL_SIG_W1.S6 : FieldRef := ⟨R.BAL_SIG_W1, 15, 8⟩
def F.BAL_SIG_W1.S5 : FieldRef := ⟨R.BAL_SIG_W1, 7, 0⟩
def R.BAL_ZERO_BASE : Nat := 0x00060128
def F.BAL_ZERO_BASE.MWH : FieldRef := ⟨R.BAL_ZERO_BASE, 31, 0⟩
def R.BAL_BACKLOG : Nat := 0x0006012C
def F.BAL_BACKLOG.SECONDS : FieldRef := ⟨R.BAL_BACKLOG, 15, 0⟩
def R.BAL_CMD : Nat := 0x00060200
def F.BAL_CMD.NODE : FieldRef := ⟨R.BAL_CMD, 15, 0⟩
def R.BAL_CMD_STAT : Nat := 0x00060204
def F.BAL_CMD_STAT.CAUSE : FieldRef := ⟨R.BAL_CMD_STAT, 31, 16⟩
def F.BAL_CMD_STAT.STATE : FieldRef := ⟨R.BAL_CMD_STAT, 1, 0⟩
def R.BAL_SEL : Nat := 0x00060210
def F.BAL_SEL.NODE : FieldRef := ⟨R.BAL_SEL, 15, 0⟩
def R.BAL_SEL_STAT : Nat := 0x00060214
def F.BAL_SEL_STAT.STATE : FieldRef := ⟨R.BAL_SEL_STAT, 31, 28⟩
def F.BAL_SEL_STAT.RUN : FieldRef := ⟨R.BAL_SEL_STAT, 27, 21⟩
def R.BAL_SEL_LOC : Nat := 0x00060218
def F.BAL_SEL_LOC.VALID : FieldRef := ⟨R.BAL_SEL_LOC, 16, 16⟩
def F.BAL_SEL_LOC.LOC : FieldRef := ⟨R.BAL_SEL_LOC, 15, 0⟩
def R.TAR_STAT : Nat := 0x00070000
def F.TAR_STAT.TIME_Q : FieldRef := ⟨R.TAR_STAT, 5, 4⟩
def F.TAR_STAT.DEFAULT : FieldRef := ⟨R.TAR_STAT, 1, 1⟩
def F.TAR_STAT.READY : FieldRef := ⟨R.TAR_STAT, 0, 0⟩
def R.TAR_HWM_LO : Nat := 0x00070008
def R.TAR_BILL_GRACE : Nat := 0x00070010
def F.TAR_BILL_GRACE.MINUTES : FieldRef := ⟨R.TAR_BILL_GRACE, 12, 0⟩
def R.TAR_SETBACK : Nat := 0x00070014
def F.TAR_SETBACK.SECONDS : FieldRef := ⟨R.TAR_SETBACK, 5, 0⟩
def R.TAR_LATE_CNT : Nat := 0x00070020
def F.TAR_LATE_CNT.COUNT : FieldRef := ⟨R.TAR_LATE_CNT, 31, 0⟩
def R.TAR_DEFAULT_CNT : Nat := 0x00070024
def F.TAR_DEFAULT_CNT.COUNT : FieldRef := ⟨R.TAR_DEFAULT_CNT, 31, 0⟩
def R.TAR_CLOSE_CNT : Nat := 0x00070028
def F.TAR_CLOSE_CNT.COUNT : FieldRef := ⟨R.TAR_CLOSE_CNT, 31, 0⟩
def R.TAR_STEP_CNT : Nat := 0x0007002C
def F.TAR_STEP_CNT.COUNT : FieldRef := ⟨R.TAR_STEP_CNT, 15, 0⟩
def R.TAR_CAL_STAT (c : Nat) : Nat := 0x00070100 + 0x4 * c
def F.TAR_CAL_STAT.ACTIVE (c : Nat) : FieldRef := ⟨R.TAR_CAL_STAT c, 31, 31⟩
def F.TAR_CAL_STAT.PENDING (c : Nat) : FieldRef := ⟨R.TAR_CAL_STAT c, 30, 30⟩
def F.TAR_CAL_STAT.MP_BOUND (c : Nat) : FieldRef := ⟨R.TAR_CAL_STAT c, 29, 29⟩
def F.TAR_CAL_STAT.GEN (c : Nat) : FieldRef := ⟨R.TAR_CAL_STAT c, 15, 0⟩
def R.TAR_CAL_ACT (c : Nat) : Nat := 0x00070200 + 0x4 * c
def F.TAR_CAL_ACT.ACTIVATE (c : Nat) : FieldRef := ⟨R.TAR_CAL_ACT c, 31, 0⟩
def R.TAR_MP_CAL (n : Nat) : Nat := 0x00070400 + 0x4 * n
def F.TAR_MP_CAL.VERIFIED (n : Nat) : FieldRef := ⟨R.TAR_MP_CAL n, 31, 31⟩
def F.TAR_MP_CAL.CAL (n : Nat) : FieldRef := ⟨R.TAR_MP_CAL n, 7, 0⟩
def R.TAR_MP_RATE (n : Nat) : Nat := 0x00070440 + 0x4 * n
def F.TAR_MP_RATE.BILL_NO (n : Nat) : FieldRef := ⟨R.TAR_MP_RATE n, 31, 16⟩
def F.TAR_MP_RATE.DEFAULT (n : Nat) : FieldRef := ⟨R.TAR_MP_RATE n, 8, 8⟩
def F.TAR_MP_RATE.RATE (n : Nat) : FieldRef := ⟨R.TAR_MP_RATE n, 2, 0⟩
def R.TAR_MP_BN (n : Nat) : Nat := 0x00070480 + 0x4 * n
def F.TAR_MP_BN.BN (n : Nat) : FieldRef := ⟨R.TAR_MP_BN n, 31, 0⟩
def R.TAR_MP_REG_LO (n : Nat) (r : Nat) (k : Nat) : Nat := 0x00071000 + 0x100 * n + 0x20 * r + 0x8 * k
def R.TAR_MP_DMAX (n : Nat) (r : Nat) : Nat := 0x00072000 + 0x40 * n + 0x4 * r
def F.TAR_MP_DMAX.VALUE (n : Nat) (r : Nat) : FieldRef := ⟨R.TAR_MP_DMAX n r, 31, 0⟩
def R.TAR_MP_DMAX_END (n : Nat) (r : Nat) : Nat := 0x00072400 + 0x40 * n + 0x4 * r
def F.TAR_MP_DMAX_END.END (n : Nat) (r : Nat) : FieldRef := ⟨R.TAR_MP_DMAX_END n r, 31, 0⟩
def R.PPY_STAT : Nat := 0x00080000
def F.PPY_STAT.VKEY : FieldRef := ⟨R.PPY_STAT, 3, 0⟩
def R.PPY_CAL_EN (i : Nat) : Nat := 0x00080004 + 0x4 * i
def R.PPY_LIMIT (u : Nat) : Nat := 0x00080010 + 0x4 * u
def F.PPY_LIMIT.MAX (u : Nat) : FieldRef := ⟨R.PPY_LIMIT u, 31, 0⟩
def R.PPY_LOW (u : Nat) : Nat := 0x00080018 + 0x4 * u
def F.PPY_LOW.LOW (u : Nat) : FieldRef := ⟨R.PPY_LOW u, 31, 0⟩
def R.PPY_KEYPAD : Nat := 0x00080020
def F.PPY_KEYPAD.TIMEOUT_S : FieldRef := ⟨R.PPY_KEYPAD, 15, 8⟩
def F.PPY_KEYPAD.FAILS : FieldRef := ⟨R.PPY_KEYPAD, 7, 0⟩
def R.PPY_ACCEPT_CNT : Nat := 0x00080030
def F.PPY_ACCEPT_CNT.COUNT : FieldRef := ⟨R.PPY_ACCEPT_CNT, 31, 0⟩
def R.PPY_REJ_CNT (k : Nat) : Nat := 0x00080040 + 0x4 * k
def F.PPY_REJ_CNT.COUNT (k : Nat) : FieldRef := ⟨R.PPY_REJ_CNT k, 31, 0⟩
def R.PPY_PRICE (c : Nat) (r : Nat) : Nat := 0x00081000 + 0x20 * c + 0x4 * r
def F.PPY_PRICE.PRICE (c : Nat) (r : Nat) : FieldRef := ⟨R.PPY_PRICE c r, 31, 0⟩
def R.LEG_STAT : Nat := 0x00090000
def F.LEG_STAT.SLOT : FieldRef := ⟨R.LEG_STAT, 7, 6⟩
def F.LEG_STAT.EXPORT_HELD : FieldRef := ⟨R.LEG_STAT, 5, 5⟩
def F.LEG_STAT.OPT_BUSY : FieldRef := ⟨R.LEG_STAT, 4, 4⟩
def F.LEG_STAT.DISP_FAULT : FieldRef := ⟨R.LEG_STAT, 3, 3⟩
def F.LEG_STAT.TRACED_OK : FieldRef := ⟨R.LEG_STAT, 2, 2⟩
def F.LEG_STAT.LEGAL_UPD : FieldRef := ⟨R.LEG_STAT, 1, 1⟩
def F.LEG_STAT.RUN : FieldRef := ⟨R.LEG_STAT, 0, 0⟩
def R.LEG_CHECK (i : Nat) : Nat := 0x00090010 + 0x4 * i
def F.LEG_CHECK.WORD (i : Nat) : FieldRef := ⟨R.LEG_CHECK i, 31, 0⟩
def R.LEG_UPD_CNT : Nat := 0x00090030
def F.LEG_UPD_CNT.COUNT : FieldRef := ⟨R.LEG_UPD_CNT, 31, 0⟩
def R.LEG_SLOT (i : Nat) : Nat := 0x00090040 + 0x4 * i
def F.LEG_SLOT.STATE (i : Nat) : FieldRef := ⟨R.LEG_SLOT i, 31, 29⟩
def F.LEG_SLOT.VERSION (i : Nat) : FieldRef := ⟨R.LEG_SLOT i, 28, 0⟩
def R.LEG_LOG_SEQ : Nat := 0x00090050
def F.LEG_LOG_SEQ.LSEQ : FieldRef := ⟨R.LEG_LOG_SEQ, 31, 0⟩
def R.LEG_OPT_CNT : Nat := 0x00090054
def F.LEG_OPT_CNT.COUNT : FieldRef := ⟨R.LEG_OPT_CNT, 15, 0⟩
def R.LEG_REQ_REJ : Nat := 0x00090058
def F.LEG_REQ_REJ.LAST_TYPE : FieldRef := ⟨R.LEG_REQ_REJ, 31, 16⟩
def F.LEG_REQ_REJ.COUNT : FieldRef := ⟨R.LEG_REQ_REJ, 15, 0⟩
def R.RFM_STAT (x : Nat) : Nat := 0x000A0000 + 0x4 * x
def F.RFM_STAT.ROLE (x : Nat) : FieldRef := ⟨R.RFM_STAT x, 7, 6⟩
def F.RFM_STAT.TX (x : Nat) : FieldRef := ⟨R.RFM_STAT x, 5, 5⟩
def F.RFM_STAT.RX (x : Nat) : FieldRef := ⟨R.RFM_STAT x, 4, 4⟩
def F.RFM_STAT.LOCK (x : Nat) : FieldRef := ⟨R.RFM_STAT x, 3, 3⟩
def F.RFM_STAT.LOCK_FAIL_SEEN (x : Nat) : FieldRef := ⟨R.RFM_STAT x, 2, 2⟩
def R.RFM_JOINED : Nat := 0x000A0010
def F.RFM_JOINED.TOTAL : FieldRef := ⟨R.RFM_JOINED, 31, 16⟩
def F.RFM_JOINED.RADIO : FieldRef := ⟨R.RFM_JOINED, 15, 0⟩
def R.RFM_CONN : Nat := 0x000A0020
def F.RFM_CONN.SLEEPY_S : FieldRef := ⟨R.RFM_CONN, 31, 16⟩
def F.RFM_CONN.RELAY_MS : FieldRef := ⟨R.RFM_CONN, 15, 0⟩
def R.RFM_SUP : Nat := 0x000A0024
def F.RFM_SUP.FACTOR : FieldRef := ⟨R.RFM_SUP, 7, 0⟩
def R.RFM_GUARD : Nat := 0x000A0028
def F.RFM_GUARD.G0_US : FieldRef := ⟨R.RFM_GUARD, 31, 16⟩
def F.RFM_GUARD.SLEEPY_PPM : FieldRef := ⟨R.RFM_GUARD, 15, 8⟩
def F.RFM_GUARD.RELAY_PPM : FieldRef := ⟨R.RFM_GUARD, 7, 0⟩
def R.RFM_LEARN : Nat := 0x000A002C
def F.RFM_LEARN.MIN_CONTACTS : FieldRef := ⟨R.RFM_LEARN, 15, 8⟩
def F.RFM_LEARN.SHIFT : FieldRef := ⟨R.RFM_LEARN, 3, 0⟩
def R.RFM_RETRY : Nat := 0x000A0030
def F.RFM_RETRY.EVENTS : FieldRef := ⟨R.RFM_RETRY, 3, 0⟩
def R.RFM_FLOOD : Nat := 0x000A0034
def F.RFM_FLOOD.RELAY_RSSI : FieldRef := ⟨R.RFM_FLOOD, 31, 24⟩
def F.RFM_FLOOD.TTL : FieldRef := ⟨R.RFM_FLOOD, 23, 20⟩
def F.RFM_FLOOD.K : FieldRef := ⟨R.RFM_FLOOD, 19, 16⟩
def F.RFM_FLOOD.DELAY_MS : FieldRef := ⟨R.RFM_FLOOD, 15, 0⟩
def R.RFM_LPL : Nat := 0x000A0038
def F.RFM_LPL.CI_MAX_MS : FieldRef := ⟨R.RFM_LPL, 15, 0⟩
def R.RFM_TX_WAIT : Nat := 0x000A003C
def F.RFM_TX_WAIT.MAX_S : FieldRef := ⟨R.RFM_TX_WAIT, 15, 0⟩
def R.RFM_ADAPT : Nat := 0x000A0040
def F.RFM_ADAPT.MIN_CH : FieldRef := ⟨R.RFM_ADAPT, 15, 8⟩
def F.RFM_ADAPT.PCT : FieldRef := ⟨R.RFM_ADAPT, 7, 0⟩
def R.RFM_DEV_CTR : Nat := 0x000A0044
def F.RFM_DEV_CTR.DCOUNTER : FieldRef := ⟨R.RFM_DEV_CTR, 31, 0⟩
def R.RFM_DEV_EPOCH : Nat := 0x000A0048
def F.RFM_DEV_EPOCH.EPOCH : FieldRef := ⟨R.RFM_DEV_EPOCH, 15, 0⟩
def R.RFM_DUTY_USED (b : Nat) : Nat := 0x000A0080 + 0x4 * b
def F.RFM_DUTY_USED.SHARE (b : Nat) : FieldRef := ⟨R.RFM_DUTY_USED b, 15, 0⟩
def R.RFM_DUTY_DEFER_CNT : Nat := 0x000A00C0
def F.RFM_DUTY_DEFER_CNT.COUNT : FieldRef := ⟨R.RFM_DUTY_DEFER_CNT, 31, 0⟩
def R.RFM_DWELL_DEFER_CNT : Nat := 0x000A00C4
def F.RFM_DWELL_DEFER_CNT.COUNT : FieldRef := ⟨R.RFM_DWELL_DEFER_CNT, 31, 0⟩
def R.RFM_RX_CNT (x : Nat) : Nat := 0x000A0100 + 0x4 * x
def F.RFM_RX_CNT.COUNT (x : Nat) : FieldRef := ⟨R.RFM_RX_CNT x, 31, 0⟩
def R.RFM_CRC_ERR_CNT (x : Nat) : Nat := 0x000A0108 + 0x4 * x
def F.RFM_CRC_ERR_CNT.COUNT (x : Nat) : FieldRef := ⟨R.RFM_CRC_ERR_CNT x, 31, 0⟩
def R.RFM_WMB_CNT (x : Nat) : Nat := 0x000A0110 + 0x4 * x
def F.RFM_WMB_CNT.COUNT (x : Nat) : FieldRef := ⟨R.RFM_WMB_CNT x, 31, 0⟩
def R.RFM_EVT_SKIP_CNT (x : Nat) : Nat := 0x000A0118 + 0x4 * x
def F.RFM_EVT_SKIP_CNT.COUNT (x : Nat) : FieldRef := ⟨R.RFM_EVT_SKIP_CNT x, 31, 0⟩
def R.RFM_MIC_FAIL_CNT : Nat := 0x000A0120
def F.RFM_MIC_FAIL_CNT.COUNT : FieldRef := ⟨R.RFM_MIC_FAIL_CNT, 31, 0⟩
def R.RFM_DUP_LSN_CNT : Nat := 0x000A0124
def F.RFM_DUP_LSN_CNT.COUNT : FieldRef := ⟨R.RFM_DUP_LSN_CNT, 31, 0⟩
def R.RFM_SEEN_HIT_CNT : Nat := 0x000A0128
def F.RFM_SEEN_HIT_CNT.COUNT : FieldRef := ⟨R.RFM_SEEN_HIT_CNT, 31, 0⟩
def R.RFM_SEEN_EVICT_CNT : Nat := 0x000A012C
def F.RFM_SEEN_EVICT_CNT.COUNT : FieldRef := ⟨R.RFM_SEEN_EVICT_CNT, 31, 0⟩
def R.RFM_CONN_LOST_CNT : Nat := 0x000A0130
def F.RFM_CONN_LOST_CNT.COUNT : FieldRef := ⟨R.RFM_CONN_LOST_CNT, 31, 0⟩
def R.RFM_JOIN_CNT : Nat := 0x000A0134
def F.RFM_JOIN_CNT.COUNT : FieldRef := ⟨R.RFM_JOIN_CNT, 31, 0⟩
def R.RFM_JOIN_REJ_CNT : Nat := 0x000A0138
def F.RFM_JOIN_REJ_CNT.COUNT : FieldRef := ⟨R.RFM_JOIN_REJ_CNT, 31, 0⟩
def R.PLC_STAT (x : Nat) : Nat := 0x000B0000 + 0x4 * x
def F.PLC_STAT.ROLE (x : Nat) : FieldRef := ⟨R.PLC_STAT x, 7, 7⟩
def F.PLC_STAT.COORD (x : Nat) : FieldRef := ⟨R.PLC_STAT x, 6, 6⟩
def F.PLC_STAT.REF_LOCK (x : Nat) : FieldRef := ⟨R.PLC_STAT x, 5, 5⟩
def F.PLC_STAT.TX (x : Nat) : FieldRef := ⟨R.PLC_STAT x, 4, 4⟩
def F.PLC_STAT.MODE_SEEN (x : Nat) : FieldRef := ⟨R.PLC_STAT x, 3, 3⟩
def F.PLC_STAT.REF_SRC (x : Nat) : FieldRef := ⟨R.PLC_STAT x, 2, 0⟩
def R.PLC_REF_PERIOD (x : Nat) : Nat := 0x000B0010 + 0x4 * x
def F.PLC_REF_PERIOD.PERIOD (x : Nat) : FieldRef := ⟨R.PLC_REF_PERIOD x, 23, 0⟩
def R.PLC_AFE_GAIN (x : Nat) : Nat := 0x000B0020 + 0x4 * x
def F.PLC_AFE_GAIN.GAIN (x : Nat) : FieldRef := ⟨R.PLC_AFE_GAIN x, 15, 0⟩
def R.PLC_ROUTES : Nat := 0x000B0030
def F.PLC_ROUTES.COUNT : FieldRef := ⟨R.PLC_ROUTES, 14, 0⟩
def R.PLC_MODE (x : Nat) : Nat := 0x000B0040 + 0x4 * x
def F.PLC_MODE.SF_MS (x : Nat) : FieldRef := ⟨R.PLC_MODE x, 31, 16⟩
def F.PLC_MODE.CFP_PCT (x : Nat) : FieldRef := ⟨R.PLC_MODE x, 15, 8⟩
def F.PLC_MODE.MODE (x : Nat) : FieldRef := ⟨R.PLC_MODE x, 1, 0⟩
def R.PLC_AUTO : Nat := 0x000B0050
def F.PLC_AUTO.HI_PCT : FieldRef := ⟨R.PLC_AUTO, 15, 8⟩
def F.PLC_AUTO.LO_PCT : FieldRef := ⟨R.PLC_AUTO, 7, 0⟩
def R.PLC_CSMA : Nat := 0x000B0054
def F.PLC_CSMA.TRIES : FieldRef := ⟨R.PLC_CSMA, 11, 8⟩
def F.PLC_CSMA.BE_MAX : FieldRef := ⟨R.PLC_CSMA, 7, 4⟩
def F.PLC_CSMA.BE_MIN : FieldRef := ⟨R.PLC_CSMA, 3, 0⟩
def R.PLC_TM : Nat := 0x000B0058
def F.PLC_TM.REFRESH_S : FieldRef := ⟨R.PLC_TM, 31, 16⟩
def F.PLC_TM.MARGIN : FieldRef := ⟨R.PLC_TM, 7, 0⟩
def R.PLC_ILV : Nat := 0x000B005C
def F.PLC_ILV.SPAN_LOG2 : FieldRef := ⟨R.PLC_ILV, 3, 0⟩
def R.PLC_ROUTE : Nat := 0x000B0064
def F.PLC_ROUTE.KEEPALIVE_S : FieldRef := ⟨R.PLC_ROUTE, 31, 16⟩
def F.PLC_ROUTE.ADV_S : FieldRef := ⟨R.PLC_ROUTE, 15, 8⟩
def F.PLC_ROUTE.HYST : FieldRef := ⟨R.PLC_ROUTE, 7, 0⟩
def R.PLC_E2E : Nat := 0x000B0068
def F.PLC_E2E.TIMEOUT_MS : FieldRef := ⟨R.PLC_E2E, 31, 16⟩
def F.PLC_E2E.RETRIES : FieldRef := ⟨R.PLC_E2E, 3, 0⟩
def R.PLC_TX_CNT (x : Nat) : Nat := 0x000B0100 + 0x4 * x
def F.PLC_TX_CNT.COUNT (x : Nat) : FieldRef := ⟨R.PLC_TX_CNT x, 31, 0⟩
def R.PLC_RX_CNT (x : Nat) : Nat := 0x000B0110 + 0x4 * x
def F.PLC_RX_CNT.COUNT (x : Nat) : FieldRef := ⟨R.PLC_RX_CNT x, 31, 0⟩
def R.PLC_FCH_ERR_CNT (x : Nat) : Nat := 0x000B0120 + 0x4 * x
def F.PLC_FCH_ERR_CNT.COUNT (x : Nat) : FieldRef := ⟨R.PLC_FCH_ERR_CNT x, 31, 0⟩
def R.PLC_RS_FAIL_CNT (x : Nat) : Nat := 0x000B0130 + 0x4 * x
def F.PLC_RS_FAIL_CNT.COUNT (x : Nat) : FieldRef := ⟨R.PLC_RS_FAIL_CNT x, 31, 0⟩
def R.PLC_ERASE_CNT (x : Nat) : Nat := 0x000B0140 + 0x4 * x
def F.PLC_ERASE_CNT.COUNT (x : Nat) : FieldRef := ⟨R.PLC_ERASE_CNT x, 31, 0⟩
def R.PLC_NOACK_CNT (x : Nat) : Nat := 0x000B0150 + 0x4 * x
def F.PLC_NOACK_CNT.COUNT (x : Nat) : FieldRef := ⟨R.PLC_NOACK_CNT x, 31, 0⟩
def R.PLC_JOIN_CNT : Nat := 0x000B0200
def F.PLC_JOIN_CNT.JOINS : FieldRef := ⟨R.PLC_JOIN_CNT, 31, 16⟩
def F.PLC_JOIN_CNT.REJECTS : FieldRef := ⟨R.PLC_JOIN_CNT, 15, 0⟩
def R.PLC_LINK_LOST_CNT : Nat := 0x000B0204
def F.PLC_LINK_LOST_CNT.COUNT : FieldRef := ⟨R.PLC_LINK_LOST_CNT, 31, 0⟩
def R.PLC_DUP_CNT : Nat := 0x000B0208
def F.PLC_DUP_CNT.COUNT : FieldRef := ⟨R.PLC_DUP_CNT, 31, 0⟩
def R.PRT_ROLE (p : Nat) : Nat := 0x000C0000 + 0x4 * p
def F.PRT_ROLE.UP (p : Nat) : FieldRef := ⟨R.PRT_ROLE p, 31, 31⟩
def F.PRT_ROLE.ROLE (p : Nat) : FieldRef := ⟨R.PRT_ROLE p, 7, 0⟩
def R.PRT_ETH_STAT (i : Nat) : Nat := 0x000C0100 + 0x4 * i
def F.PRT_ETH_STAT.PTP (i : Nat) : FieldRef := ⟨R.PRT_ETH_STAT i, 3, 3⟩
def F.PRT_ETH_STAT.LINK_SEEN (i : Nat) : FieldRef := ⟨R.PRT_ETH_STAT i, 2, 2⟩
def F.PRT_ETH_STAT.SPEED (i : Nat) : FieldRef := ⟨R.PRT_ETH_STAT i, 1, 0⟩
def R.PRT_ETH_DROP_CNT (i : Nat) : Nat := 0x000C0120 + 0x4 * i
def F.PRT_ETH_DROP_CNT.COUNT (i : Nat) : FieldRef := ⟨R.PRT_ETH_DROP_CNT i, 31, 0⟩
def R.PRT_PCIE_STAT (e : Nat) : Nat := 0x000C0140 + 0x4 * e
def F.PRT_PCIE_STAT.RESET_SEEN (e : Nat) : FieldRef := ⟨R.PRT_PCIE_STAT e, 7, 7⟩
def F.PRT_PCIE_STAT.WIDTH (e : Nat) : FieldRef := ⟨R.PRT_PCIE_STAT e, 6, 4⟩
def F.PRT_PCIE_STAT.GEN (e : Nat) : FieldRef := ⟨R.PRT_PCIE_STAT e, 3, 2⟩
def F.PRT_PCIE_STAT.LINK (e : Nat) : FieldRef := ⟨R.PRT_PCIE_STAT e, 0, 0⟩
def R.PRT_SPI_STAT : Nat := 0x000C0160
def F.PRT_SPI_STAT.CAUSE : FieldRef := ⟨R.PRT_SPI_STAT, 31, 16⟩
def F.PRT_SPI_STAT.CRC_ERR_SEEN : FieldRef := ⟨R.PRT_SPI_STAT, 2, 2⟩
def F.PRT_SPI_STAT.WB_SPACE : FieldRef := ⟨R.PRT_SPI_STAT, 1, 1⟩
def F.PRT_SPI_STAT.WB_READY : FieldRef := ⟨R.PRT_SPI_STAT, 0, 0⟩
def R.PRT_SER_ERR_CNT (s : Nat) : Nat := 0x000C0200 + 0x4 * s
def F.PRT_SER_ERR_CNT.COUNT (s : Nat) : FieldRef := ⟨R.PRT_SER_ERR_CNT s, 31, 0⟩
def R.PRT_KEY : Nat := 0x000C0300
def F.PRT_KEY.COUNT : FieldRef := ⟨R.PRT_KEY, 31, 16⟩
def F.PRT_KEY.KEY : FieldRef := ⟨R.PRT_KEY, 7, 0⟩
def R.PRT_PPS_STAT : Nat := 0x000C0310
def F.PRT_PPS_STAT.REJECT : FieldRef := ⟨R.PRT_PPS_STAT, 31, 16⟩
def F.PRT_PPS_STAT.NMEA_VALID : FieldRef := ⟨R.PRT_PPS_STAT, 1, 1⟩
def F.PRT_PPS_STAT.EDGE_VALID : FieldRef := ⟨R.PRT_PPS_STAT, 0, 0⟩
def R.PRT_PPS_STAMP : Nat := 0x000C0314
def F.PRT_PPS_STAMP.PACE : FieldRef := ⟨R.PRT_PPS_STAMP, 31, 16⟩
def F.PRT_PPS_STAMP.CYCLE : FieldRef := ⟨R.PRT_PPS_STAMP, 15, 0⟩
def R.PRT_PTP_CFG : Nat := 0x000C0320
def F.PRT_PTP_CFG.DOMAIN : FieldRef := ⟨R.PRT_PTP_CFG, 7, 0⟩
def R.PRT_PTP_LAT : Nat := 0x000C0324
def F.PRT_PTP_LAT.EGRESS_NS : FieldRef := ⟨R.PRT_PTP_LAT, 31, 16⟩
def F.PRT_PTP_LAT.INGRESS_NS : FieldRef := ⟨R.PRT_PTP_LAT, 15, 0⟩
def R.PRT_TAMP_STAT : Nat := 0x000C0400
def F.PRT_TAMP_STAT.LEVEL : FieldRef := ⟨R.PRT_TAMP_STAT, 15, 8⟩
def F.PRT_TAMP_STAT.TRIGGERED : FieldRef := ⟨R.PRT_TAMP_STAT, 7, 0⟩
def R.STO_STAT : Nat := 0x000D0000
def F.STO_STAT.READONLY : FieldRef := ⟨R.STO_STAT, 4, 4⟩
def F.STO_STAT.DEGRADED : FieldRef := ⟨R.STO_STAT, 3, 3⟩
def F.STO_STAT.RESERVE : FieldRef := ⟨R.STO_STAT, 2, 2⟩
def F.STO_STAT.FG : FieldRef := ⟨R.STO_STAT, 1, 1⟩
def F.STO_STAT.READY : FieldRef := ⟨R.STO_STAT, 0, 0⟩
def R.STO_FREE : Nat := 0x000D0004
def F.STO_FREE.SUPERBLOCKS : FieldRef := ⟨R.STO_FREE, 31, 16⟩
def F.STO_FREE.SHARE : FieldRef := ⟨R.STO_FREE, 15, 0⟩
def R.STO_GC : Nat := 0x000D0010
def F.STO_GC.BG_PCT : FieldRef := ⟨R.STO_GC, 31, 24⟩
def F.STO_GC.FG_CPCT : FieldRef := ⟨R.STO_GC, 23, 12⟩
def F.STO_GC.RESERVE_CPCT : FieldRef := ⟨R.STO_GC, 11, 0⟩
def R.STO_THROTTLE : Nat := 0x000D0014
def F.STO_THROTTLE.HYST_CPCT : FieldRef := ⟨R.STO_THROTTLE, 31, 16⟩
def F.STO_THROTTLE.MAX_MS : FieldRef := ⟨R.STO_THROTTLE, 15, 0⟩
def R.STO_SCRUB : Nat := 0x000D0018
def F.STO_SCRUB.EFF_DAYS : FieldRef := ⟨R.STO_SCRUB, 23, 16⟩
def F.STO_SCRUB.THR_PCT : FieldRef := ⟨R.STO_SCRUB, 15, 8⟩
def F.STO_SCRUB.DAYS : FieldRef := ⟨R.STO_SCRUB, 7, 0⟩
def R.STO_WL : Nat := 0x000D001C
def F.STO_WL.DELTA : FieldRef := ⟨R.STO_WL, 15, 0⟩
def R.STO_DIE_STAT (d : Nat) : Nat := 0x000D0100 + 0x4 * d
def F.STO_DIE_STAT.PRESENT (d : Nat) : FieldRef := ⟨R.STO_DIE_STAT d, 31, 31⟩
def F.STO_DIE_STAT.FAILED (d : Nat) : FieldRef := ⟨R.STO_DIE_STAT d, 30, 30⟩
def F.STO_DIE_STAT.RETIRED (d : Nat) : FieldRef := ⟨R.STO_DIE_STAT d, 15, 0⟩
def R.STO_DIE_CTL : Nat := 0x000D0200
def F.STO_DIE_CTL.DIE : FieldRef := ⟨R.STO_DIE_CTL, 5, 0⟩
def R.STO_NS_SIZE (k : Nat) : Nat := 0x000D0280 + 0x4 * k
def F.STO_NS_SIZE.MIB (k : Nat) : FieldRef := ⟨R.STO_NS_SIZE k, 31, 0⟩
def R.STO_JRNL_SEQ : Nat := 0x000D02A0
def F.STO_JRNL_SEQ.SEQ : FieldRef := ⟨R.STO_JRNL_SEQ, 31, 0⟩
def R.STO_PROG_FAIL_CNT : Nat := 0x000D0300
def F.STO_PROG_FAIL_CNT.COUNT : FieldRef := ⟨R.STO_PROG_FAIL_CNT, 31, 0⟩
def R.STO_ERASE_FAIL_CNT : Nat := 0x000D0304
def F.STO_ERASE_FAIL_CNT.COUNT : FieldRef := ⟨R.STO_ERASE_FAIL_CNT, 31, 0⟩
def R.STO_REBUILD_CNT : Nat := 0x000D0308
def F.STO_REBUILD_CNT.COUNT : FieldRef := ⟨R.STO_REBUILD_CNT, 31, 0⟩
def R.STO_MEDIA_ERR_CNT : Nat := 0x000D030C
def F.STO_MEDIA_ERR_CNT.COUNT : FieldRef := ⟨R.STO_MEDIA_ERR_CNT, 31, 0⟩
def R.STO_RETRY_CNT : Nat := 0x000D0310
def F.STO_RETRY_CNT.COUNT : FieldRef := ⟨R.STO_RETRY_CNT, 31, 0⟩
def R.STO_THROTTLE_CNT : Nat := 0x000D0314
def F.STO_THROTTLE_CNT.COUNT : FieldRef := ⟨R.STO_THROTTLE_CNT, 31, 0⟩
def R.STO_GC_UNITS : Nat := 0x000D0318
def F.STO_GC_UNITS.COUNT : FieldRef := ⟨R.STO_GC_UNITS, 31, 0⟩
def R.QUE_STAT (q : Nat) : Nat := 0x000E0000 + 0x4 * q
def F.QUE_STAT.CONFIGURED (q : Nat) : FieldRef := ⟨R.QUE_STAT q, 31, 31⟩
def F.QUE_STAT.EMPTY (q : Nat) : FieldRef := ⟨R.QUE_STAT q, 30, 30⟩
def F.QUE_STAT.FULL (q : Nat) : FieldRef := ⟨R.QUE_STAT q, 29, 29⟩
def F.QUE_STAT.UNDERRUN (q : Nat) : FieldRef := ⟨R.QUE_STAT q, 28, 28⟩
def F.QUE_STAT.OVERRUN_SEEN (q : Nat) : FieldRef := ⟨R.QUE_STAT q, 27, 27⟩
def F.QUE_STAT.POISON_SEEN (q : Nat) : FieldRef := ⟨R.QUE_STAT q, 26, 26⟩
def F.QUE_STAT.FILL (q : Nat) : FieldRef := ⟨R.QUE_STAT q, 16, 0⟩
def R.QUE_WPTR (q : Nat) : Nat := 0x000E0800 + 0x4 * q
def F.QUE_WPTR.WPTR (q : Nat) : FieldRef := ⟨R.QUE_WPTR q, 16, 0⟩
def R.QUE_RPTR (q : Nat) : Nat := 0x000E1000 + 0x4 * q
def F.QUE_RPTR.RPTR (q : Nat) : FieldRef := ⟨R.QUE_RPTR q, 16, 0⟩
def R.QUE_IDLE_LO (q : Nat) : Nat := 0x000E1800 + 0x8 * q
def F.QUE_IDLE_LO.IDLE_LO (q : Nat) : FieldRef := ⟨R.QUE_IDLE_LO q, 31, 0⟩
def R.QUE_IDLE_HI (q : Nat) : Nat := 0x000E1804 + 0x8 * q
def F.QUE_IDLE_HI.IDLE_HI (q : Nat) : FieldRef := ⟨R.QUE_IDLE_HI q, 31, 0⟩
def R.QUE_ERR_CNT (q : Nat) : Nat := 0x000E2800 + 0x4 * q
def F.QUE_ERR_CNT.OVERRUN (q : Nat) : FieldRef := ⟨R.QUE_ERR_CNT q, 31, 16⟩
def F.QUE_ERR_CNT.POISON (q : Nat) : FieldRef := ⟨R.QUE_ERR_CNT q, 15, 0⟩
def R.QUE_CFG (q : Nat) : Nat := 0x000E3000 + 0x4 * q
def F.QUE_CFG.DURABLE (q : Nat) : FieldRef := ⟨R.QUE_CFG q, 31, 31⟩
def F.QUE_CFG.DEPTH_LOG2 (q : Nat) : FieldRef := ⟨R.QUE_CFG q, 23, 20⟩
def F.QUE_CFG.BASE (q : Nat) : FieldRef := ⟨R.QUE_CFG q, 19, 0⟩
def R.ARB_CTL : Nat := 0x000F0000
def F.ARB_CTL.FREEZE : FieldRef := ⟨R.ARB_CTL, 0, 0⟩
def R.ARB_STAT : Nat := 0x000F0004
def F.ARB_STAT.PENDING : FieldRef := ⟨R.ARB_STAT, 31, 16⟩
def F.ARB_STAT.DRAINED : FieldRef := ⟨R.ARB_STAT, 6, 6⟩
def F.ARB_STAT.HELD : FieldRef := ⟨R.ARB_STAT, 5, 5⟩
def F.ARB_STAT.HOLDER : FieldRef := ⟨R.ARB_STAT, 3, 0⟩
def R.ARB_TICKETS (k : Nat) : Nat := 0x000F0010 + 0x4 * k
def F.ARB_TICKETS.T3 (k : Nat) : FieldRef := ⟨R.ARB_TICKETS k, 31, 24⟩
def F.ARB_TICKETS.T2 (k : Nat) : FieldRef := ⟨R.ARB_TICKETS k, 23, 16⟩
def F.ARB_TICKETS.T1 (k : Nat) : FieldRef := ⟨R.ARB_TICKETS k, 15, 8⟩
def F.ARB_TICKETS.T0 (k : Nat) : FieldRef := ⟨R.ARB_TICKETS k, 7, 0⟩
def R.ARB_SEED : Nat := 0x000F0020
def R.ARB_LFSR : Nat := 0x000F0024
def F.ARB_LFSR.STATE : FieldRef := ⟨R.ARB_LFSR, 31, 0⟩
def R.ARB_HOLD_PACE : Nat := 0x000F0028
def F.ARB_HOLD_PACE.PACE : FieldRef := ⟨R.ARB_HOLD_PACE, 31, 0⟩
def R.ARB_GRANT_CNT (i : Nat) : Nat := 0x000F0040 + 0x4 * i
def F.ARB_GRANT_CNT.COUNT (i : Nat) : FieldRef := ⟨R.ARB_GRANT_CNT i, 31, 0⟩
def R.EVT_STAT : Nat := 0x00100000
def F.EVT_STAT.DROP_SEEN : FieldRef := ⟨R.EVT_STAT, 3, 3⟩
def F.EVT_STAT.OPEN_LOST_SEEN : FieldRef := ⟨R.EVT_STAT, 2, 2⟩
def F.EVT_STAT.OPEN : FieldRef := ⟨R.EVT_STAT, 1, 1⟩
def F.EVT_STAT.READY : FieldRef := ⟨R.EVT_STAT, 0, 0⟩
def R.EVT_SEQ : Nat := 0x00100004
def F.EVT_SEQ.SEQ : FieldRef := ⟨R.EVT_SEQ, 31, 0⟩
def R.EVT_OPEN : Nat := 0x00100008
def F.EVT_OPEN.REPEAT : FieldRef := ⟨R.EVT_OPEN, 31, 16⟩
def F.EVT_OPEN.TYPE : FieldRef := ⟨R.EVT_OPEN, 15, 0⟩
def R.EVT_OLDEST : Nat := 0x0010000C
def F.EVT_OLDEST.SEQ : FieldRef := ⟨R.EVT_OLDEST, 31, 0⟩
def R.EVT_WINDOW : Nat := 0x00100010
def F.EVT_WINDOW.SECONDS : FieldRef := ⟨R.EVT_WINDOW, 11, 0⟩
def R.EVT_OPSEC_LO : Nat := 0x00100018
def F.EVT_OPSEC_LO.OPSEC_LO : FieldRef := ⟨R.EVT_OPSEC_LO, 31, 0⟩
def R.EVT_OPSEC_HI : Nat := 0x0010001C
def F.EVT_OPSEC_HI.OPSEC_HI : FieldRef := ⟨R.EVT_OPSEC_HI, 15, 0⟩
def R.EVT_PWR_CYCLES : Nat := 0x00100020
def F.EVT_PWR_CYCLES.COUNT : FieldRef := ⟨R.EVT_PWR_CYCLES, 31, 0⟩
def R.EVT_NOTICE_EN : Nat := 0x00100030
def R.EVT_DROP_CNT : Nat := 0x00100040
def F.EVT_DROP_CNT.COUNT : FieldRef := ⟨R.EVT_DROP_CNT, 31, 0⟩
def R.EVT_CLOSE_CNT : Nat := 0x00100044
def F.EVT_CLOSE_CNT.COUNT : FieldRef := ⟨R.EVT_CLOSE_CNT, 31, 0⟩
def R.KEY_STAT : Nat := 0x00110000
def F.KEY_STAT.ZEROISE_SEEN : FieldRef := ⟨R.KEY_STAT, 5, 5⟩
def F.KEY_STAT.HSS_READY : FieldRef := ⟨R.KEY_STAT, 4, 4⟩
def F.KEY_STAT.ENROL_PENDING : FieldRef := ⟨R.KEY_STAT, 3, 3⟩
def F.KEY_STAT.STATE : FieldRef := ⟨R.KEY_STAT, 2, 0⟩
def R.KEY_ENROL_CNT : Nat := 0x00110004
def F.KEY_ENROL_CNT.COUNT : FieldRef := ⟨R.KEY_ENROL_CNT, 31, 0⟩
def R.KEY_IDENT (i : Nat) : Nat := 0x00110010 + 0x4 * i
def F.KEY_IDENT.WORD (i : Nat) : FieldRef := ⟨R.KEY_IDENT i, 31, 0⟩
def R.KEY_LEAF_NEXT : Nat := 0x00110030
def F.KEY_LEAF_NEXT.N : FieldRef := ⟨R.KEY_LEAF_NEXT, 31, 0⟩
def R.KEY_LEAF_RES : Nat := 0x00110034
def F.KEY_LEAF_RES.RES : FieldRef := ⟨R.KEY_LEAF_RES, 31, 0⟩
def R.KEY_LEAF_LEFT : Nat := 0x00110038
def F.KEY_LEAF_LEFT.COUNT : FieldRef := ⟨R.KEY_LEAF_LEFT, 31, 0⟩
def R.KEY_SLOTS : Nat := 0x00110040
def F.KEY_SLOTS.PEAK : FieldRef := ⟨R.KEY_SLOTS, 28, 16⟩
def F.KEY_SLOTS.USED : FieldRef := ⟨R.KEY_SLOTS, 12, 0⟩
def R.KEY_SLOT_FULL_CNT : Nat := 0x00110044
def F.KEY_SLOT_FULL_CNT.COUNT : FieldRef := ⟨R.KEY_SLOT_FULL_CNT, 31, 0⟩
def R.KEY_UNWRAP_FAIL_CNT : Nat := 0x00110048
def F.KEY_UNWRAP_FAIL_CNT.COUNT : FieldRef := ⟨R.KEY_UNWRAP_FAIL_CNT, 31, 0⟩
def R.KEY_ZSRC : Nat := 0x00110050
def R.KEY_ZCTL : Nat := 0x00110054
def R.KEY_PUF : Nat := 0x00110060
def F.KEY_PUF.CORRECTED : FieldRef := ⟨R.KEY_PUF, 15, 0⟩
def R.KEY_SIGN_CFG : Nat := 0x00110070
def F.KEY_SIGN_CFG.DAY_MAX : FieldRef := ⟨R.KEY_SIGN_CFG, 15, 0⟩
def R.KEY_SIGN_CNT : Nat := 0x00110074
def F.KEY_SIGN_CNT.COUNT : FieldRef := ⟨R.KEY_SIGN_CNT, 31, 0⟩
def R.KEY_RNG : Nat := 0x00110080
def F.KEY_RNG.FAIL_CNT : FieldRef := ⟨R.KEY_RNG, 31, 16⟩
def F.KEY_RNG.FAIL_SEEN : FieldRef := ⟨R.KEY_RNG, 1, 1⟩
def F.KEY_RNG.OK : FieldRef := ⟨R.KEY_RNG, 0, 0⟩
def R.FWU_STAT : Nat := 0x00120000
def F.FWU_STAT.KIND : FieldRef := ⟨R.FWU_STAT, 7, 6⟩
def F.FWU_STAT.ACTIVE_SLOT : FieldRef := ⟨R.FWU_STAT, 5, 5⟩
def F.FWU_STAT.TRIAL : FieldRef := ⟨R.FWU_STAT, 4, 4⟩
def F.FWU_STAT.ACT_PENDING : FieldRef := ⟨R.FWU_STAT, 3, 3⟩
def F.FWU_STAT.STAGE : FieldRef := ⟨R.FWU_STAT, 1, 0⟩
def R.FWU_XFER : Nat := 0x00120004
def F.FWU_XFER.TOTAL : FieldRef := ⟨R.FWU_XFER, 29, 16⟩
def F.FWU_XFER.HELD : FieldRef := ⟨R.FWU_XFER, 13, 0⟩
def R.FWU_VERSION (s : Nat) : Nat := 0x00120010 + 0x4 * s
def R.FWU_SLOT_STAT : Nat := 0x0012001C
def F.FWU_SLOT_STAT.SLOT_B : FieldRef := ⟨R.FWU_SLOT_STAT, 7, 4⟩
def F.FWU_SLOT_STAT.SLOT_A : FieldRef := ⟨R.FWU_SLOT_STAT, 3, 0⟩
def R.FWU_RB (k : Nat) : Nat := 0x00120020 + 0x4 * k
def F.FWU_RB.COUNTER (k : Nat) : FieldRef := ⟨R.FWU_RB k, 31, 0⟩
def R.FWU_POLICY : Nat := 0x00120040
def F.FWU_POLICY.HOST_CONFIRM : FieldRef := ⟨R.FWU_POLICY, 3, 3⟩
def F.FWU_POLICY.COUNTERSIGN : FieldRef := ⟨R.FWU_POLICY, 2, 2⟩
def F.FWU_POLICY.USB : FieldRef := ⟨R.FWU_POLICY, 1, 1⟩
def F.FWU_POLICY.REMOTE : FieldRef := ⟨R.FWU_POLICY, 0, 0⟩
def R.FWU_TRIAL : Nat := 0x00120044
def F.FWU_TRIAL.MIN_S : FieldRef := ⟨R.FWU_TRIAL, 31, 16⟩
def F.FWU_TRIAL.SECONDS : FieldRef := ⟨R.FWU_TRIAL, 15, 0⟩
def R.FWU_TRIAL_LEFT : Nat := 0x00120048
def F.FWU_TRIAL_LEFT.SECONDS : FieldRef := ⟨R.FWU_TRIAL_LEFT, 15, 0⟩
def R.FWU_CTL : Nat := 0x0012004C
def R.FWU_BLK_FAIL_CNT : Nat := 0x00120050
def F.FWU_BLK_FAIL_CNT.COUNT : FieldRef := ⟨R.FWU_BLK_FAIL_CNT, 31, 0⟩
def R.FWU_CAMP_STAT (c : Nat) : Nat := 0x00120100 + 0x4 * c
def F.FWU_CAMP_STAT.STATE (c : Nat) : FieldRef := ⟨R.FWU_CAMP_STAT c, 31, 30⟩
def F.FWU_CAMP_STAT.IMAGE (c : Nat) : FieldRef := ⟨R.FWU_CAMP_STAT c, 29, 27⟩
def F.FWU_CAMP_STAT.TARGETS (c : Nat) : FieldRef := ⟨R.FWU_CAMP_STAT c, 20, 0⟩
def R.FWU_CAMP_DONE (c : Nat) : Nat := 0x00120120 + 0x4 * c
def F.FWU_CAMP_DONE.ACTIVATED (c : Nat) : FieldRef := ⟨R.FWU_CAMP_DONE c, 20, 0⟩
def R.FWU_CAMP_ROUND (c : Nat) : Nat := 0x00120140 + 0x4 * c
def F.FWU_CAMP_ROUND.ROUNDS (c : Nat) : FieldRef := ⟨R.FWU_CAMP_ROUND c, 15, 0⟩
def R.PAIR_STAT : Nat := 0x00130000
def F.PAIR_STAT.DUAL : FieldRef := ⟨R.PAIR_STAT, 13, 13⟩
def F.PAIR_STAT.ALIVE_OK : FieldRef := ⟨R.PAIR_STAT, 12, 12⟩
def F.PAIR_STAT.ACT_IN : FieldRef := ⟨R.PAIR_STAT, 11, 11⟩
def F.PAIR_STAT.LANE1 : FieldRef := ⟨R.PAIR_STAT, 10, 10⟩
def F.PAIR_STAT.LANE0 : FieldRef := ⟨R.PAIR_STAT, 9, 9⟩
def F.PAIR_STAT.PROTECTED : FieldRef := ⟨R.PAIR_STAT, 8, 8⟩
def F.PAIR_STAT.MEMBER : FieldRef := ⟨R.PAIR_STAT, 7, 7⟩
def F.PAIR_STAT.SYNC : FieldRef := ⟨R.PAIR_STAT, 6, 4⟩
def F.PAIR_STAT.ROLE : FieldRef := ⟨R.PAIR_STAT, 1, 0⟩
def R.PAIR_LAG : Nat := 0x00130004
def F.PAIR_LAG.LAG_US : FieldRef := ⟨R.PAIR_LAG, 7, 0⟩
def R.PAIR_COMMON_LO : Nat := 0x00130008
def F.PAIR_COMMON_LO.PACE : FieldRef := ⟨R.PAIR_COMMON_LO, 31, 0⟩
def R.PAIR_RESYNC_LEFT : Nat := 0x0013000C
def F.PAIR_RESYNC_LEFT.MIB : FieldRef := ⟨R.PAIR_RESYNC_LEFT, 31, 0⟩
def R.PAIR_SELFCHECK : Nat := 0x00130010
def F.PAIR_SELFCHECK.PARTNER : FieldRef := ⟨R.PAIR_SELFCHECK, 9, 8⟩
def F.PAIR_SELFCHECK.OWN : FieldRef := ⟨R.PAIR_SELFCHECK, 7, 6⟩
def F.PAIR_SELFCHECK.FAILED : FieldRef := ⟨R.PAIR_SELFCHECK, 3, 0⟩
def R.PAIR_MISMATCH_CNT : Nat := 0x00130020
def F.PAIR_MISMATCH_CNT.COUNT : FieldRef := ⟨R.PAIR_MISMATCH_CNT, 31, 0⟩
def R.PAIR_SWITCH_CNT : Nat := 0x00130024
def F.PAIR_SWITCH_CNT.COUNT : FieldRef := ⟨R.PAIR_SWITCH_CNT, 31, 0⟩
def R.PAIR_DUAL_CNT : Nat := 0x00130028
def F.PAIR_DUAL_CNT.COUNT : FieldRef := ⟨R.PAIR_DUAL_CNT, 31, 0⟩
def R.PAIR_LINK_CNT : Nat := 0x0013002C
def F.PAIR_LINK_CNT.COUNT : FieldRef := ⟨R.PAIR_LINK_CNT, 31, 0⟩
def R.PAIR_LEDGER : Nat := 0x00130030
def F.PAIR_LEDGER.PEAK_KIB : FieldRef := ⟨R.PAIR_LEDGER, 31, 16⟩
def F.PAIR_LEDGER.LAST_KIB : FieldRef := ⟨R.PAIR_LEDGER, 9, 0⟩
def R.PAIR_CTL : Nat := 0x00130040
def R.PWR_STAT : Nat := 0x00140000
def F.PWR_STAT.VBAT_LOW : FieldRef := ⟨R.PWR_STAT, 7, 7⟩
def F.PWR_STAT.HOLDUP_OK : FieldRef := ⟨R.PWR_STAT, 6, 6⟩
def F.PWR_STAT.VIN_B_OK : FieldRef := ⟨R.PWR_STAT, 5, 5⟩
def F.PWR_STAT.VIN_A_OK : FieldRef := ⟨R.PWR_STAT, 4, 4⟩
def F.PWR_STAT.SRC : FieldRef := ⟨R.PWR_STAT, 3, 2⟩
def F.PWR_STAT.STATE : FieldRef := ⟨R.PWR_STAT, 1, 0⟩
def R.PWR_RESET : Nat := 0x00140004
def F.PWR_RESET.RESTORE : FieldRef := ⟨R.PWR_RESET, 9, 8⟩
def F.PWR_RESET.CAUSE : FieldRef := ⟨R.PWR_RESET, 7, 0⟩
def R.PWR_VIN : Nat := 0x00140008
def F.PWR_VIN.VIN_B_MV : FieldRef := ⟨R.PWR_VIN, 31, 16⟩
def F.PWR_VIN.VIN_A_MV : FieldRef := ⟨R.PWR_VIN, 15, 0⟩
def R.PWR_VSYS : Nat := 0x0014000C
def F.PWR_VSYS.VSTORE_10MV : FieldRef := ⟨R.PWR_VSYS, 31, 16⟩
def F.PWR_VSYS.VSYS_MV : FieldRef := ⟨R.PWR_VSYS, 15, 0⟩
def R.PWR_WARN : Nat := 0x00140010
def F.PWR_WARN.MV : FieldRef := ⟨R.PWR_WARN, 15, 0⟩
def R.PWR_SAVE_LAST : Nat := 0x00140018
def F.PWR_SAVE_LAST.STEPS : FieldRef := ⟨R.PWR_SAVE_LAST, 31, 24⟩
def F.PWR_SAVE_LAST.PACES : FieldRef := ⟨R.PWR_SAVE_LAST, 23, 16⟩
def F.PWR_SAVE_LAST.VEND_10MV : FieldRef := ⟨R.PWR_SAVE_LAST, 15, 0⟩
def R.PWR_SAVE_CNT : Nat := 0x0014001C
def F.PWR_SAVE_CNT.COUNT : FieldRef := ⟨R.PWR_SAVE_CNT, 31, 0⟩
def R.PWR_SWITCH_CNT : Nat := 0x00140020
def F.PWR_SWITCH_CNT.COUNT : FieldRef := ⟨R.PWR_SWITCH_CNT, 31, 0⟩
def R.PWR_VBAT : Nat := 0x00140024
def F.PWR_VBAT.MV : FieldRef := ⟨R.PWR_VBAT, 15, 0⟩
def R.CLK_STAT : Nat := 0x00150000
def F.CLK_STAT.RTC_VALID : FieldRef := ⟨R.CLK_STAT, 3, 3⟩
def F.CLK_STAT.SPREAD_ON : FieldRef := ⟨R.CLK_STAT, 2, 2⟩
def F.CLK_STAT.PLL_LOCK : FieldRef := ⟨R.CLK_STAT, 1, 1⟩
def F.CLK_STAT.REF_OK : FieldRef := ⟨R.CLK_STAT, 0, 0⟩
def R.CLK_SPREAD : Nat := 0x00150004
def F.CLK_SPREAD.TENTHS : FieldRef := ⟨R.CLK_SPREAD, 4, 0⟩
def R.CLK_TIME_LO : Nat := 0x00150008
def F.CLK_TIME_LO.MS_LO : FieldRef := ⟨R.CLK_TIME_LO, 31, 0⟩
def R.CLK_TIME_HI : Nat := 0x0015000C
def F.CLK_TIME_HI.MS_HI : FieldRef := ⟨R.CLK_TIME_HI, 31, 0⟩
def R.CLK_QUAL : Nat := 0x00150010
def F.CLK_QUAL.AGE_S : FieldRef := ⟨R.CLK_QUAL, 31, 16⟩
def F.CLK_QUAL.SOURCE : FieldRef := ⟨R.CLK_QUAL, 3, 2⟩
def F.CLK_QUAL.QUALITY : FieldRef := ⟨R.CLK_QUAL, 1, 0⟩
def R.CLK_TSRC : Nat := 0x00150014
def F.CLK_TSRC.HOST : FieldRef := ⟨R.CLK_TSRC, 2, 2⟩
def F.CLK_TSRC.PPS : FieldRef := ⟨R.CLK_TSRC, 1, 1⟩
def F.CLK_TSRC.PTP : FieldRef := ⟨R.CLK_TSRC, 0, 0⟩
def R.CLK_QUAL_CFG : Nat := 0x00150018
def F.CLK_QUAL_CFG.HOLDOVER_H : FieldRef := ⟨R.CLK_QUAL_CFG, 31, 22⟩
def F.CLK_QUAL_CFG.HOST_ACC_MS : FieldRef := ⟨R.CLK_QUAL_CFG, 21, 16⟩
def F.CLK_QUAL_CFG.SYNC_S : FieldRef := ⟨R.CLK_QUAL_CFG, 15, 0⟩
def R.CLK_FREE : Nat := 0x0015001C
def F.CLK_FREE.DAYS : FieldRef := ⟨R.CLK_FREE, 8, 0⟩
def R.CLK_STEP : Nat := 0x00150020
def F.CLK_STEP.STEP_MS : FieldRef := ⟨R.CLK_STEP, 31, 16⟩
def F.CLK_STEP.SLEW_PPM : FieldRef := ⟨R.CLK_STEP, 8, 0⟩
def R.CLK_SERVO : Nat := 0x00150024
def F.CLK_SERVO.KI_SHIFT : FieldRef := ⟨R.CLK_SERVO, 3, 0⟩
def R.CLK_OFFSET : Nat := 0x00150028
def F.CLK_OFFSET.NS : FieldRef := ⟨R.CLK_OFFSET, 31, 0⟩
def R.CLK_FREQ : Nat := 0x0015002C
def F.CLK_FREQ.PPB : FieldRef := ⟨R.CLK_FREQ, 31, 0⟩
def R.CLK_RTC_TRIM : Nat := 0x00150030
def F.CLK_RTC_TRIM.PPB : FieldRef := ⟨R.CLK_RTC_TRIM, 31, 0⟩
def R.CLK_STEP_CNT : Nat := 0x00150034
def F.CLK_STEP_CNT.COUNT : FieldRef := ⟨R.CLK_STEP_CNT, 15, 0⟩
def R.HLT_STAT : Nat := 0x00160000
def F.HLT_STAT.CORES_LOST : FieldRef := ⟨R.HLT_STAT, 15, 8⟩
def F.HLT_STAT.VCORE_LIMIT : FieldRef := ⟨R.HLT_STAT, 4, 4⟩
def F.HLT_STAT.CAP_TEST : FieldRef := ⟨R.HLT_STAT, 3, 3⟩
def F.HLT_STAT.CAP_VALID : FieldRef := ⟨R.HLT_STAT, 2, 2⟩
def F.HLT_STAT.LEVEL : FieldRef := ⟨R.HLT_STAT, 1, 0⟩
def R.HLT_WDOG : Nat := 0x00160004
def F.HLT_WDOG.BITES : FieldRef := ⟨R.HLT_WDOG, 31, 16⟩
def F.HLT_WDOG.PACES : FieldRef := ⟨R.HLT_WDOG, 15, 0⟩
def R.HLT_CAP : Nat := 0x00160008
def F.HLT_CAP.ESR_MOHM : FieldRef := ⟨R.HLT_CAP, 31, 16⟩
def F.HLT_CAP.C_UF : FieldRef := ⟨R.HLT_CAP, 15, 0⟩
def R.HLT_EU : Nat := 0x0016000C
def F.HLT_EU.BUDGET_MJ : FieldRef := ⟨R.HLT_EU, 31, 16⟩
def F.HLT_EU.MJ : FieldRef := ⟨R.HLT_EU, 15, 0⟩
def R.HLT_CAP_CFG : Nat := 0x00160010
def F.HLT_CAP_CFG.HOUR : FieldRef := ⟨R.HLT_CAP_CFG, 4, 0⟩
def R.HLT_PLAN : Nat := 0x00160014
def F.HLT_PLAN.CKPT_PACES : FieldRef := ⟨R.HLT_PLAN, 9, 0⟩
def R.HLT_VCORE : Nat := 0x00160018
def F.HLT_VCORE.SLACK_PS : FieldRef := ⟨R.HLT_VCORE, 31, 16⟩
def F.HLT_VCORE.MV : FieldRef := ⟨R.HLT_VCORE, 15, 0⟩
def R.HLT_VCORE_CFG : Nat := 0x0016001C
def F.HLT_VCORE_CFG.TGT_PS : FieldRef := ⟨R.HLT_VCORE_CFG, 6, 0⟩
def R.HLT_NAND : Nat := 0x00160020
def F.HLT_NAND.BER_CENTI : FieldRef := ⟨R.HLT_NAND, 15, 0⟩
def R.HLT_LIMITS : Nat := 0x00160024
def F.HLT_LIMITS.AFE_CDB : FieldRef := ⟨R.HLT_LIMITS, 31, 16⟩
def F.HLT_LIMITS.RTC_PPM : FieldRef := ⟨R.HLT_LIMITS, 15, 8⟩
def F.HLT_LIMITS.REF_PPM : FieldRef := ⟨R.HLT_LIMITS, 7, 0⟩
def R.HLT_FATAL_LAST : Nat := 0x00160028
def F.HLT_FATAL_LAST.CAUSE : FieldRef := ⟨R.HLT_FATAL_LAST, 31, 16⟩
def F.HLT_FATAL_LAST.LANE : FieldRef := ⟨R.HLT_FATAL_LAST, 15, 12⟩
def F.HLT_FATAL_LAST.ENGINE : FieldRef := ⟨R.HLT_FATAL_LAST, 11, 4⟩
def F.HLT_FATAL_LAST.KIND : FieldRef := ⟨R.HLT_FATAL_LAST, 3, 0⟩
def R.HLT_DUMP_STAT (k : Nat) : Nat := 0x00160040 + 0x4 * k
def F.HLT_DUMP_STAT.VALID (k : Nat) : FieldRef := ⟨R.HLT_DUMP_STAT k, 31, 31⟩
def F.HLT_DUMP_STAT.COMPLETE (k : Nat) : FieldRef := ⟨R.HLT_DUMP_STAT k, 30, 30⟩
def F.HLT_DUMP_STAT.FIRST (k : Nat) : FieldRef := ⟨R.HLT_DUMP_STAT k, 29, 29⟩
def F.HLT_DUMP_STAT.SEQ (k : Nat) : FieldRef := ⟨R.HLT_DUMP_STAT k, 23, 0⟩
def R.SYS_DIE_ID_LO : Nat := 0x00000004
def F.SYS_DIE_ID_LO.DIE_LO : FieldRef := ⟨R.SYS_DIE_ID_LO, 31, 0⟩
def R.SYS_DIE_ID_HI : Nat := 0x00000008
def F.SYS_DIE_ID_HI.DIE_HI : FieldRef := ⟨R.SYS_DIE_ID_HI, 31, 0⟩
def R.SYS_FW_VERSION : Nat := 0x00000010
def R.SYS_BOOT_VERSION : Nat := 0x00000014
def F.SYS_BOOT_VERSION.VERSION : FieldRef := ⟨R.SYS_BOOT_VERSION, 31, 0⟩
def R.SYS_MEM : Nat := 0x00000020
def F.SYS_MEM.NAND_DIES : FieldRef := ⟨R.SYS_MEM, 15, 8⟩
def F.SYS_MEM.DRAM_GIB : FieldRef := ⟨R.SYS_MEM, 3, 0⟩

end Sys2Proof.Machine
end

