-- ==== Sys2Proof/Machine/RegFile.lean ====
section
/-! DEFINITION. The register file (R441 to R446): the registers whose value differs from their
reset value, by address. Reading and writing one register, one field, one counter. -/

namespace Sys2Proof.Machine

/-- Whether `d`, the distance from the first element, lies on an element of the array (R442). -/
def dimsHit : List (Nat × Nat) → Nat → Bool
  | [], d => decide (d = 0)
  | (n, s) :: ds, d => decide (d / s < n) && dimsHit ds (d % s)

/-- R442: whether the address is one of this register's. -/
def RegSpec.hits (r : RegSpec) (a : Nat) : Bool := decide (r.addr ≤ a) && dimsHit r.dims (a - r.addr)

/-- The register at an address, if there is one (R442). -/
def findReg (a : Nat) : Option RegSpec := (blockRegs (a / 0x10000)).find? fun r => r.hits a

/-- The bits of a field. -/
def FieldSpec.mask (f : FieldSpec) : Word :=
  BitVec.ofNat 32 ((2 ^ (f.hi - f.lo + 1) - 1) * 2 ^ f.lo)

/-- The value a register has after reset (R7). -/
def RegSpec.resetWord (r : RegSpec) : Word :=
  BitVec.ofNat 32 (r.fields.foldl (fun n f => n + f.reset * 2 ^ f.lo) 0)

/-- The bits of a register that hold a field; every other bit is reserved and reads 0 (R6). -/
def RegSpec.fieldMask (r : RegSpec) : Word := r.fields.foldl (fun m f => m ||| f.mask) 0

/-- The reset value at an address, 0 where there is no register. -/
def resetAt (a : Nat) : Word := match findReg a with | some r => r.resetWord | none => 0


/-- The value a register holds. -/
def RegFile.get (m : RegFile) (a : Nat) : Word := Map.findD m a (resetAt a)

/-- Stores a register: reserved bits stay 0 (R6), an address without a register holds nothing
(R442), and a register at its reset value is not listed. -/
def RegFile.put (m : RegFile) (a : Nat) (w : Word) : RegFile :=
  match findReg a with
  | none => m
  | some r =>
    if w &&& r.fieldMask = r.resetWord then Map.erase m a else Map.set m a (w &&& r.fieldMask)

/-- Stores several registers in order. -/
def RegFile.puts (m : RegFile) (l : List (Nat × Word)) : RegFile :=
  l.foldl (fun m p => m.put p.1 p.2) m

/-- The field of a word (R3). -/
def fieldOf (w : Word) (hi lo : Nat) : Nat := (w.toNat / 2 ^ lo) % 2 ^ (hi - lo + 1)

/-- A word with its field replaced; bits of the value beyond the field are dropped. -/
def withField (w : Word) (hi lo v : Nat) : Word :=
  let n := w.toNat
  BitVec.ofNat 32 (n % 2 ^ lo + (v % 2 ^ (hi - lo + 1)) * 2 ^ lo + n / 2 ^ (hi + 1) * 2 ^ (hi + 1))

/-- A field of the stored registers. -/
def RegFile.fld (m : RegFile) (f : FieldRef) : Nat := fieldOf (m.get f.addr) f.hi f.lo

/-- A field read as two's complement (R5). -/
def RegFile.fldInt (m : RegFile) (f : FieldRef) : Int :=
  let w := f.hi - f.lo + 1
  let v := m.fld f
  if v < 2 ^ (w - 1) then (v : Int) else (v : Int) - (2 : Int) ^ w

/-- Writes a field. -/
def RegFile.setF (m : RegFile) (f : FieldRef) (v : Nat) : RegFile :=
  m.put f.addr (withField (m.get f.addr) f.hi f.lo v)

/-- Writes a field with the two's complement of a value (R5). -/
def RegFile.setFInt (m : RegFile) (f : FieldRef) (v : Int) : RegFile :=
  m.setF f (v % (2 : Int) ^ (f.hi - f.lo + 1)).toNat

/-- Adds to a counter field, which saturates at its largest value. -/
def RegFile.bump (m : RegFile) (f : FieldRef) (n : Nat) : RegFile :=
  m.setF f (min (m.fld f + n) (2 ^ (f.hi - f.lo + 1) - 1))

/-- Sets a one-bit flag. -/
def RegFile.flag (m : RegFile) (f : FieldRef) (b : Bool) : RegFile := m.setF f (if b then 1 else 0)

/-- Writes a 64-bit value to a _LO/_HI pair (R444). -/
def RegFile.put64 (m : RegFile) (lo : Nat) (v : Nat) : RegFile :=
  (m.put lo (BitVec.ofNat 32 v)).put (lo + 4) (BitVec.ofNat 32 (v / 2 ^ 32))

/-- The bits of a register that a full start leaves as they stand (R7). -/
def RegSpec.kept (r : RegSpec) : Word :=
  match keptBits.find? fun e => e.1 == r.addr with
  | some e => e.2
  | none => 0

/-- The registers after a full start: each at its reset value but for the bits of a store (R7). -/
def RegFile.cold (m : RegFile) : RegFile :=
  m.foldl (fun (acc : RegFile) p =>
    match findReg p.1 with
    | none => acc
    | some r => acc.put p.1 ((p.2 &&& r.kept) ||| (r.resetWord &&& ~~~ r.kept))) []

/-- The canonical form of the register file: rising addresses, each of a register, with reserved
bits 0 (R6) and a value other than the reset value. -/
def RegFile.wf (m : RegFile) : Bool :=
  Map.sorted m && m.all fun p => match findReg p.1 with
    | none => false
    | some r => decide (p.2 &&& r.fieldMask = p.2) && decide (p.2 ≠ r.resetWord)

end Sys2Proof.Machine
end

