-- ==== Sys2Proof/Machine/Aes.lean ====
section
/-! DEFINITION. AES (FIPS 197) and its modes in the complex (R347): CBC decryption, CMAC, GCM, CCM and KW.
[PRESUMED, log 8; unsafe] -/

namespace Sys2Proof.Machine

/-! ### The field of 256 elements and the S-box -/

/-- Multiplication by x. -/
def gfDouble (b : Byte) : Byte := (b <<< 1) ^^^ (if b.getLsbD 7 then 0x1B else 0)

/-- The product of two bytes; `n` bits of the second are left. -/
def gfMulGo : Nat → Byte → Byte → Byte
  | 0, _, _ => 0
  | n + 1, a, b => (if b.getLsbD 0 then a else 0) ^^^ gfMulGo n (gfDouble a) (b >>> 1)

/-- The product of a byte and a coefficient below 16. -/
def gfMul (a b : Byte) : Byte := gfMulGo 4 a b

/-- The S-box as one number, entry i in bits 8·i to 8·i + 7. -/
def sboxTable : Nat :=
  0x16bb54b00f2d99416842e6bf0d89a18cdf2855cee9871e9b948ed9691198f8e19e1dc186b95735610ef6034866b53e708a8bbd4b1f74dde8c6b4a61c2e2578ba08ae7a65eaf4566ca94ed58d6d37c8e779e4959162acd3c25c2406490a3a32e0db0b5ede14b8ee4688902a22dc4f816073195d643d7ea7c41744975fec130ccdd2f3ff1021dab6bcf5389d928f40a351a89f3c507f02f94585334d43fbaaefd0cf584c4a39becb6a5bb1fc20ed00d153842fe329b3d63b52a05a6e1b1a2c830975b227ebe28012079a059618c323c7041531d871f1e5a534ccf73f362693fdb7c072a49cafa2d4adf04759fa7dc982ca76abd7fe2b670130c56f6bf27b777c63

/-- The inverse S-box in the same form. -/
def invSboxTable : Nat :=
  0x7d0c2155631469e126d677ba7e042b17619953833cbbebc8b0f52aae4d3be0a0ef9cc9939f7ae52d0d4ab519a97f51605fec8027591012b131c7078833a8dd1ff45acd78fec0db9a2079d2c64b3e56fc1bbe18aa0e62b76f89c5291d711af1476edf751ce837f9e28535ade72274ac9673e6b4f0cecff297eadc674f4111913a6b8a130103bdafc1020f3fca8f1e2cd00645b3b80558e4f70ad3bc8c00abd890849d8da75746155edab9edfd5048706c92b6655dcc5ca4d41698688664f6f87225d18b6d49a25b76b224d92866a12e084ec3fa420b954cee3d23c2a632947b54cbe9dec444438e3487ff2f9b8239e37cfbd7f3819ea340bf38a53630d56a0952

def subByte (a : Byte) : Byte := BitVec.ofNat 8 (sboxTable >>> (8 * a.toNat))

def invSubByte (a : Byte) : Byte := BitVec.ofNat 8 (invSboxTable >>> (8 * a.toNat))

/-- Bytes added position by position. -/
def xorBytes (a b : List Byte) : List Byte := List.zipWith (fun x y => x ^^^ y) a b

/-! ### The cipher -/

/-- The key schedule as words, newest first: `n` words left, `i` the index of the next, `nk` words in the key. -/
def aesExpandGo (nk : Nat) : Nat → Nat → Byte → List (List Byte) → List (List Byte)
  | 0, _, _, w => w.reverse
  | n + 1, i, rcon, w =>
    let t := w.headD []
    let rot := (t.drop 1 ++ t.take 1).map subByte
    let u := if i % nk = 0 then xorBytes rot [rcon, 0, 0, 0] else if 6 < nk ∧ i % nk = 4 then t.map subByte else t
    aesExpandGo nk n (i + 1) (if i % nk = 0 then gfDouble rcon else rcon) (xorBytes (w.getD (nk - 1) []) u :: w)

/-- The round keys of a key of 16 or 32 bytes. -/
def aesKeys (key : List Byte) : List (List Byte) :=
  let nk := key.length / 4
  let first := (List.range nk).map fun i => (key.drop (4 * i)).take 4
  let w := aesExpandGo nk (4 * (nk + 7) - nk) nk 1 first.reverse
  (List.range (nk + 7)).map fun r => ((w.drop (4 * r)).take 4).flatMap id

def shiftRows (s : List Byte) : List Byte := (List.range 16).map fun i => s.getD ((i + 4 * (i % 4)) % 16) 0
def invShiftRows (s : List Byte) : List Byte := (List.range 16).map fun i => s.getD ((i + 12 * (i % 4)) % 16) 0

/-- One column times the row of coefficients, rotated. -/
def mixColumns (k : List Byte) (s : List Byte) : List Byte :=
  (List.range 16).map fun i =>
    (List.range 4).foldl (fun (v : Byte) j => v ^^^ gfMul (s.getD (i / 4 * 4 + j) 0) (k.getD ((j + 4 - i % 4) % 4) 0)) 0

/-- A block of 16 bytes under a key. -/
def aesEncrypt (key b : List Byte) : List Byte :=
  match aesKeys key with
  | [] => []
  | k0 :: ks =>
    let mid := (ks.dropLast).foldl (fun s k => xorBytes (mixColumns [2, 3, 1, 1] (shiftRows (s.map subByte))) k) (xorBytes b k0)
    xorBytes (shiftRows (mid.map subByte)) (ks.getLastD [])

/-- The block that encrypts to a block. -/
def aesDecrypt (key b : List Byte) : List Byte :=
  match (aesKeys key).reverse with
  | [] => []
  | k0 :: ks =>
    let mid := (ks.dropLast).foldl
      (fun s k => mixColumns [14, 11, 13, 9] (xorBytes ((invShiftRows s).map invSubByte) k)) (xorBytes b k0)
    xorBytes ((invShiftRows mid).map invSubByte) (ks.getLastD [])

/-! ### Modes -/

/-- The blocks of 16 bytes of a string; the last may be short. -/
def blocks16 (l : List Byte) : List (List Byte) := (List.range ((l.length + 15) / 16)).map fun i => (l.drop (16 * i)).take 16

/-- A string filled with zeros to whole blocks. -/
def pad16 (l : List Byte) : List Byte := l ++ List.replicate ((16 - l.length % 16) % 16) 0

/-- CBC-MAC over whole blocks from a block. -/
def cbcMac (key init : List Byte) (l : List Byte) : List Byte :=
  (blocks16 l).foldl (fun x b => aesEncrypt key (xorBytes x b)) init

/-- AES-CBC decryption. -/
def cbcDecrypt (key iv l : List Byte) : List Byte :=
  let bs := blocks16 l
  ((iv :: bs).zip bs).flatMap fun p => xorBytes p.1 (aesDecrypt key p.2)

/-- The key stream of counter blocks, laid over a string. -/
def ctrCrypt (key : List Byte) (ctr : Nat → List Byte) (l : List Byte) : List Byte :=
  ((blocks16 l).zipIdx.flatMap fun p => xorBytes p.1 (aesEncrypt key (ctr p.2)))

/-- A block doubled in the field of CMAC. -/
def cmacDouble (b : List Byte) : List Byte :=
  let n := beVal b
  beBytes 16 ((2 * n % 2 ^ 128) ^^^ (if n < 2 ^ 127 then 0 else 0x87))

/-- AES-CMAC (NIST SP 800-38B), 16 bytes. -/
def cmac (key msg : List Byte) : List Byte :=
  let k1 := cmacDouble (aesEncrypt key (List.replicate 16 0))
  let n := (msg.length - 1) / 16 * 16
  let last := msg.drop n
  let z := List.replicate 16 (0 : Byte)
  let m := if last.length = 16 then xorBytes last k1 else xorBytes (last ++ 0x80 :: List.replicate (15 - last.length) 0) (cmacDouble k1)
  aesEncrypt key (xorBytes (cbcMac key z (msg.take n)) m)

/-- The product of two blocks in the field of GCM; `n` bits of the first are left, highest first. -/
def ghashMulGo : Nat → BitVec 128 → BitVec 128 → BitVec 128
  | 0, _, _ => 0
  | n + 1, x, v =>
    (if x.getLsbD n then v else 0) ^^^
      ghashMulGo n x ((v >>> 1) ^^^ (if v.getLsbD 0 then (0xE1 : BitVec 128) <<< 120 else 0))

/-- GHASH of whole blocks. -/
def ghash (h : BitVec 128) (l : List Byte) : BitVec 128 :=
  (blocks16 l).foldl (fun y b => ghashMulGo 128 (y ^^^ BitVec.ofNat 128 (beVal b)) h) 0

/-- Counter block i of GCM under a nonce of 12 bytes; block 1 masks the tag. -/
def gcmCtr (nonce : List Byte) (i : Nat) : List Byte := nonce ++ beBytes 4 i

/-- The GCM tag (NIST SP 800-38D) of additional data and ciphertext, 16 bytes. -/
def gcmTag (key nonce aad ct : List Byte) : List Byte :=
  let h := BitVec.ofNat 128 (beVal (aesEncrypt key (List.replicate 16 0)))
  let s := ghash h (pad16 aad ++ pad16 ct ++ beBytes 8 (8 * aad.length) ++ beBytes 8 (8 * ct.length))
  xorBytes (beBytes 16 s.toNat) (aesEncrypt key (gcmCtr nonce 1))

/-- GCM encryption, which is also its decryption. -/
def gcmCrypt (key nonce l : List Byte) : List Byte := ctrCrypt key (fun i => gcmCtr nonce (i + 2)) l

/-- The CCM tag (NIST SP 800-38C) of `t` bytes over additional data and plaintext under a nonce of 13 bytes. -/
def ccmTag (key nonce aad pt : List Byte) (t : Nat) : List Byte :=
  let b0 : List Byte := BitVec.ofNat 8 ((if aad.isEmpty then 0 else 64) + (t - 2) / 2 * 8 + 1) :: nonce ++ beBytes 2 pt.length
  let head := if aad.isEmpty then [] else pad16 (beBytes 2 aad.length ++ aad)
  let mac := cbcMac key (List.replicate 16 0) (b0 ++ head ++ pad16 pt)
  (xorBytes mac (aesEncrypt key (1 :: nonce ++ [0, 0]))).take t

/-- CCM encryption, which is also its decryption. -/
def ccmCrypt (key nonce l : List Byte) : List Byte := ctrCrypt key (fun i => 1 :: nonce ++ beBytes 2 (i + 1)) l

/-- AES-KW (NIST SP 800-38F): the default integrity value. -/
def kwIcv : List Byte := List.replicate 8 0xA6

/-- A key of whole 8-byte units, wrapped under a key. -/
def kwWrap (kek key : List Byte) : List Byte :=
  let n := key.length / 8
  let out := (List.range 6).foldl (fun (st : List Byte × List (List Byte)) j =>
    (List.range n).foldl (fun (st : List Byte × List (List Byte)) i =>
      let b := aesEncrypt kek (st.1 ++ st.2.getD i [])
      (xorBytes (b.take 8) (beBytes 8 (n * j + i + 1)), setAt st.2 i (b.drop 8))) st)
    (kwIcv, (List.range n).map fun i => (key.drop (8 * i)).take 8)
  out.1 ++ out.2.flatMap id

/-- The key that a wrapped form holds; none where the integrity check fails. -/
def kwUnwrap (kek wrapped : List Byte) : Option (List Byte) :=
  let n := wrapped.length / 8 - 1
  let out := (List.range 6).reverse.foldl (fun (st : List Byte × List (List Byte)) j =>
    (List.range n).reverse.foldl (fun (st : List Byte × List (List Byte)) i =>
      let b := aesDecrypt kek (xorBytes st.1 (beBytes 8 (n * j + i + 1)) ++ st.2.getD i [])
      (b.take 8, setAt st.2 i (b.drop 8))) st)
    (wrapped.take 8, (List.range n).map fun i => (wrapped.drop (8 * (i + 1))).take 8)
  if out.1 = kwIcv then some (out.2.flatMap id) else none

end Sys2Proof.Machine
end

