-- ==== Sys2Proof/Machine/Sign.lean ====
section
/-! DEFINITION. Signatures and key agreement of the complex (R347): LMS and HSS (RFC 8554) with the parameter sets of
R357, ECDSA and ECDH over P-256 with the nonce of RFC 6979. [PRESUMED, log 8; unsafe] -/

namespace Sys2Proof.Machine

/-! ### LM-OTS with LMOTS_SHA256_N32_W4 -/

/-- The chain from step `j`, of `n` steps: element i of one-time key q. -/
def otsChain (pre : List Byte) (i : Nat) : Nat → Nat → List Byte → List Byte
  | 0, _, x => x
  | n + 1, j, x => otsChain pre i n (j + 1) (sha256Bytes (pre ++ beBytes 2 i ++ beBytes 1 j ++ x))

/-- The 67 digits of a hash with its checksum. -/
def otsDigits (h : List Byte) : List Nat :=
  let d := h.flatMap fun b => [b.toNat / 16, b.toNat % 16]
  let c := d.foldl (fun n x => n + (15 - x)) 0 * 16
  d ++ [c / 4096 % 16, c / 256 % 16, c / 16 % 16]

/-- The public value of a one-time key from the ends of its chains. -/
def otsPublic (pre : List Byte) (ends : List (List Byte)) : List Byte :=
  sha256Bytes (pre ++ [0x80, 0x80] ++ ends.flatMap id)

/-- The hash a one-time signature signs. -/
def otsHash (pre c msg : List Byte) : List Byte := sha256Bytes (pre ++ [0x81, 0x81] ++ c ++ msg)

/-- Private element i of a one-time key (RFC 8554, Appendix A). -/
def otsPrivate (seed pre : List Byte) (i : Nat) : List Byte := sha256Bytes (pre ++ beBytes 2 i ++ [0xFF] ++ seed)

/-- The public value of one-time key q of a tree. -/
def otsKey (seed id : List Byte) (q : Nat) : List Byte :=
  let pre := id ++ beBytes 4 q
  otsPublic pre ((List.range 67).map fun i => otsChain pre i 15 0 (otsPrivate seed pre i))

/-- A one-time signature with its randomizer: 2,180 bytes. -/
def otsSign (seed id : List Byte) (q : Nat) (c msg : List Byte) : List Byte :=
  let pre := id ++ beBytes 4 q
  beBytes 4 3 ++ c ++ (otsDigits (otsHash pre c msg)).zipIdx.flatMap fun d => otsChain pre d.2 d.1 0 (otsPrivate seed pre d.2)

/-- The public value that a one-time signature leads to. -/
def otsRecover (id : List Byte) (q : Nat) (sig msg : List Byte) : List Byte :=
  let pre := id ++ beBytes 4 q
  let y (i : Nat) : List Byte := (sig.drop (36 + 32 * i)).take 32
  otsPublic pre ((otsDigits (otsHash pre ((sig.drop 4).take 32) msg)).zipIdx.map fun d =>
    otsChain pre d.2 (15 - d.1) d.1 (y d.2))

/-! ### LMS -/

/-- A leaf of a tree of height h. -/
def lmsLeaf (id : List Byte) (h q : Nat) (pub : List Byte) : List Byte :=
  sha256Bytes (id ++ beBytes 4 (2 ^ h + q) ++ [0x82, 0x82] ++ pub)

/-- An inner node. -/
def lmsInner (id : List Byte) (r : Nat) (l m : List Byte) : List Byte := sha256Bytes (id ++ beBytes 4 r ++ [0x83, 0x83] ++ l ++ m)

/-- Node r of a tree of height h, `n` levels above the leaves. -/
def lmsNode (seed id : List Byte) (h : Nat) : Nat → Nat → List Byte
  | 0, r => lmsLeaf id h (r - 2 ^ h) (otsKey seed id (r - 2 ^ h))
  | n + 1, r => lmsInner id r (lmsNode seed id h n (2 * r)) (lmsNode seed id h n (2 * r + 1))

/-- The LMS type of a height of R357: 10 or 15. -/
def lmsType (h : Nat) : Nat := if h = 10 then 6 else 7

/-- The public key of a tree: 56 bytes. -/
def lmsPublic (seed id : List Byte) (h : Nat) : List Byte :=
  beBytes 4 (lmsType h) ++ beBytes 4 3 ++ id ++ lmsNode seed id h h 1

/-- The signature of leaf q of a tree. -/
def lmsSign (seed id : List Byte) (h q : Nat) (c msg : List Byte) : List Byte :=
  beBytes 4 q ++ otsSign seed id q c msg ++ beBytes 4 (lmsType h) ++
    (List.range h).flatMap fun i => lmsNode seed id h i (((2 ^ h + q) / 2 ^ i) ^^^ 1)

/-- The root reached from node r with the path of a signature. -/
def lmsClimb (id : List Byte) : List (List Byte) → Nat → List Byte → List Byte
  | [], _, x => x
  | p :: l, r, x => lmsClimb id l (r / 2) (if r % 2 = 1 then lmsInner id (r / 2) p x else lmsInner id (r / 2) x p)

/-- The height of an LMS type: 5, 10, 15, 20 or 25. -/
def lmsHeight (type : Nat) : Option Nat := if 5 ≤ type ∧ type ≤ 9 then some (5 * (type - 4)) else none

/-- The bytes of an LMS signature under a tree of height h. -/
def lmsSigLength (h : Nat) : Nat := 2188 + 32 * h

/-- Whether an LMS signature over a message verifies under a public key. -/
def lmsVerify (pub sig msg : List Byte) : Bool :=
  match lmsHeight (fieldAt pub 0 4) with
  | none => false
  | some h =>
    let id := (pub.drop 8).take 16
    let q := fieldAt sig 0 4
    pub.length == 56 && fieldAt pub 4 4 == 3 && sig.length == lmsSigLength h && fieldAt sig 4 4 == 3 &&
    fieldAt sig 2184 4 == fieldAt pub 0 4 && decide (q < 2 ^ h) &&
    lmsClimb id ((List.range h).map fun i => (sig.drop (2188 + 32 * i)).take 32) (2 ^ h + q)
      (lmsLeaf id h q (otsRecover id q ((sig.drop 4).take 2180) msg)) == pub.drop 24

/-! ### HSS -/

/-- Whether an HSS signature verifies under a public key, with `n` levels left. -/
def hssVerifyGo : Nat → List Byte → List Byte → List Byte → Bool
  | 0, pub, sig, msg => lmsVerify pub sig msg
  | n + 1, pub, sig, msg =>
    match lmsHeight (fieldAt pub 0 4) with
    | none => false
    | some h =>
      let k := lmsSigLength h
      let next := (sig.drop k).take 56
      lmsVerify pub (sig.take k) next && hssVerifyGo n next (sig.drop (k + 56)) msg

/-- Whether an HSS signature over a message verifies under an HSS public key. -/
def hssVerify (pub sig msg : List Byte) : Bool :=
  let l := fieldAt pub 0 4
  decide (1 ≤ l) && decide (l ≤ 8) && fieldAt sig 0 4 + 1 == l && hssVerifyGo (l - 1) (pub.drop 4) (sig.drop 4) msg

/-! ### P-256 -/

def p256P : Nat := 2 ^ 256 - 2 ^ 224 + 2 ^ 192 + 2 ^ 96 - 1
def p256B : Nat := 0x5ac635d8aa3a93e7b3ebbd55769886bc651d06b0cc53b0f63bce3c3e27d2604b
/-- The order of the group. -/
def p256N : Nat := 0xffffffff00000000ffffffffffffffffbce6faada7179e84f3b9cac2fc632551
/-- The base point. -/
def p256G : Nat × Nat :=
  (0x6b17d1f2e12c4247f8bce6e563a440f277037d812deb33a0f4a13945d898c296,
   0x4fe342e2fe1a7f9b8ee7eb4a7c0f9e162bce33576b315ececbb6406837bf51f5)

/-- a to the power of the `n` low bits of e, times acc, modulo m. -/
def powMod (m : Nat) : Nat → Nat → Nat → Nat → Nat
  | 0, _, _, acc => acc
  | n + 1, a, e, acc => powMod m n (a * a % m) (e / 2) (if e % 2 = 1 then acc * a % m else acc)

/-- The inverse modulo a prime. -/
def invMod (m a : Nat) : Nat := powMod m 256 (a % m) (m - 2) 1

/-- The sum of two points; none is the point at infinity. -/
def ecAdd : Option (Nat × Nat) → Option (Nat × Nat) → Option (Nat × Nat)
  | none, q => q
  | p, none => p
  | some (x1, y1), some (x2, y2) =>
    let m := p256P
    if x1 = x2 ∧ (y1 + y2) % m = 0 then none
    else
      let s := if x1 = x2 then (3 * x1 * x1 + (m - 3)) * invMod m (2 * y1) % m
        else (y2 + m - y1) * invMod m (x2 + m - x1) % m
      let x := (s * s + 2 * m - x1 - x2) % m
      some (x, (s * (x1 + m - x) + m - y1) % m)

/-- The multiple of a point by the `n` low bits of k, added to acc. -/
def ecMulGo : Nat → Nat → Option (Nat × Nat) → Option (Nat × Nat) → Option (Nat × Nat)
  | 0, _, _, acc => acc
  | n + 1, k, p, acc => ecMulGo n (k / 2) (ecAdd p p) (if k % 2 = 1 then ecAdd acc p else acc)

def ecMul (k : Nat) (p : Nat × Nat) : Option (Nat × Nat) := ecMulGo 256 k (some p) none

/-- A point of the curve. -/
def ecValid (p : Nat × Nat) : Bool :=
  decide (p.1 < p256P) && decide (p.2 < p256P) &&
  (p.2 * p.2) % p256P == (p.1 * p.1 * p.1 + (p256P - 3) * p.1 + p256B) % p256P

/-- A point as its coordinates, 64 bytes. -/
def ecBytes (p : Option (Nat × Nat)) : List Byte := match p with
  | some (x, y) => beBytes 32 x ++ beBytes 32 y
  | none => List.replicate 64 0

/-- A point from its coordinates. -/
def ecPoint (l : List Byte) : Nat × Nat := (fieldAt l 0 32, fieldAt l 32 32)

/-- The x coordinate of the product: the shared secret of ECDH. None where the point lies off the curve. -/
def ecdh (d : Nat) (p : Nat × Nat) : Option (List Byte) :=
  if ecValid p then (ecMul d p).map fun q => beBytes 32 q.1 else none

/-- The candidates of RFC 6979 from state K, V: the first in range, of `n`. -/
def rfc6979Go : Nat → List Byte → List Byte → Nat
  | 0, _, _ => 1
  | n + 1, k, v =>
    let v1 := hmac k v
    let c := beVal v1
    if 1 ≤ c ∧ c < p256N then c
    else
      let k1 := hmac k (v1 ++ [0])
      rfc6979Go n k1 (hmac k1 v1)

/-- The nonce of RFC 6979 for a private key and a hash. -/
def rfc6979 (d : Nat) (h : List Byte) : Nat :=
  let x := beBytes 32 d ++ beBytes 32 (beVal h % p256N)
  let v0 := List.replicate 32 (1 : Byte)
  let k1 := hmac (List.replicate 32 0) (v0 ++ [0] ++ x)
  let v1 := hmac k1 v0
  let k2 := hmac k1 (v1 ++ [1] ++ x)
  rfc6979Go 64 k2 (hmac k2 v1)

/-- The ECDSA signature of a private key over a message: r then s, 64 bytes. -/
def ecdsaSign (d : Nat) (msg : List Byte) : List Byte :=
  let h := sha256Bytes msg
  let k := rfc6979 d h
  let r := match ecMul k p256G with | some q => q.1 % p256N | none => 0
  let s := invMod p256N k * ((beVal h + r * d) % p256N) % p256N
  beBytes 32 r ++ beBytes 32 s

/-- Whether an ECDSA signature over a message verifies under a public key given as coordinates. -/
def ecdsaVerify (pub sig msg : List Byte) : Bool :=
  let r := fieldAt sig 0 32
  let s := fieldAt sig 32 32
  let q := ecPoint pub
  let w := invMod p256N s
  let u1 := beVal (sha256Bytes msg) * w % p256N
  sig.length == 64 && decide (1 ≤ r) && decide (r < p256N) && decide (1 ≤ s) && decide (s < p256N) && ecValid q &&
  match ecAdd (ecMul u1 p256G) (ecMul (r * w % p256N) q) with
  | some p => p.1 % p256N == r
  | none => false

end Sys2Proof.Machine
end

