-- ==== Sys2Proof/Machine/Secrets.lean ====
section
/-! DEFINITION. The root and the keys derived from it (R341, R343, R344), wrapping under the KEK (R346), the HSS signing
key (R357) and the link key. -/

namespace Sys2Proof.Machine

/-- The root of an enrolment as 32 bytes (R341). -/
def rootOf (enrol : Nat) : List Byte := beBytes 32 (Config.root enrol).toNat

/-- A derivation from the root with an empty context (R344). -/
def fromRoot (enrol : Nat) (label : String) (n : Nat) : List Byte := kdf (rootOf enrol) (ascii label) [] n

/-- The check held in the helper data (R341). -/
def rootCheck (enrol : Nat) : List Byte := fromRoot enrol "ROOT CHECK" 16

/-- The key-encryption key (R344). -/
def kek (enrol : Nat) : List Byte := fromRoot enrol "KEY WRAP" 32

/-- The link private key d = (c mod (n − 1)) + 1 (R344). -/
def linkPrivate (enrol : Nat) : Nat := beVal (fromRoot enrol "LINK KEY" 40) % (p256N - 1) + 1

/-- LINK_PUB: X then Y (R361). -/
def linkPub (enrol : Nat) : List Byte := ecBytes (ecMul (linkPrivate enrol) p256G)

/-- SEED and I of a tree from 48 bytes of KDF output (R344). -/
def treeOf (l : List Byte) : List Byte × List Byte := (l.take 32, l.drop 32)

/-- SEED and I of the top tree. -/
def topTree (enrol : Nat) : List Byte × List Byte := treeOf (fromRoot enrol "HSS SEED" 48)

/-- SEED and I of bottom tree j. -/
def bottomTree (enrol j : Nat) : List Byte × List Byte := treeOf (kdf (rootOf enrol) (ascii "HSS CHILD") (beBytes 4 j) 48)

/-- HSS_PUB: 2, then the LMS public key of the top tree; 60 bytes (R357). -/
def hssPub (enrol : Nat) : List Byte := beBytes 4 2 ++ lmsPublic (topTree enrol).1 (topTree enrol).2 10

/-- The HSS signature over a message with global leaf g = 32,768·j + q: 5,236 bytes (R357). -/
def hssSign (enrol g : Nat) (msg : List Byte) : List Byte :=
  let j := g / 32768
  let low := bottomTree enrol j
  let pub := lmsPublic low.1 low.2 15
  let c (level leaf : Nat) : List Byte := beBytes 32 (Config.randomizer enrol level leaf).toNat
  beBytes 4 1 ++ lmsSign (topTree enrol).1 (topTree enrol).2 10 j (c 0 j) pub ++ pub ++
    lmsSign low.1 low.2 15 (g % 32768) (c 1 g) msg

/-- The 24 or 40 bytes in which a wrapped key is stored (R346). -/
def WrappedKey.bytes (w : WrappedKey) : List Byte := kwWrap (kek w.enrol) w.key

/-- The token key of a meter with a vending key: `ext` holds record bytes 16 to 31 (R199, R344). -/
def tokenKey (vk ext : List Byte) : List Byte := kdf vk (ascii "PPY TOKEN") ext 16

/-- The link key LK of a node under its reading key (R230, R344). -/
def meshKey (reading ext : List Byte) : List Byte := kdf reading (ascii "MESH LINK") ext 16

end Sys2Proof.Machine
end

