-- ==== Sys2Proof/Machine/Ops.lean ====
section
/-! DEFINITION. The named operations every chapter shares: register fields of the state, posts of
the event queue (R329), free values, notices (R70 to R72) and what is sent to a host. -/

namespace Sys2Proof.Machine

/-- `PACE_COUNT` as a number (R23). -/
def State.now (s : State) : Nat := s.pace.count.toNat

/-- A stored field. -/
def State.fld (s : State) (f : FieldRef) : Nat := s.regs.fld f

/-- Writes a stored field. -/
def State.setF (s : State) (f : FieldRef) (v : Nat) : State := { s with regs := s.regs.setF f v }

/-- Adds to a saturating counter field. -/
def State.bump (s : State) (f : FieldRef) (n : Nat := 1) : State := { s with regs := s.regs.bump f n }

/-- Sets a one-bit flag. -/
def State.flag (s : State) (f : FieldRef) (b : Bool) : State := { s with regs := s.regs.flag f b }

/-- Writes registers in order. -/
def State.puts (s : State) (l : List (Nat × Word)) : State := { s with regs := RegFile.puts s.regs l }

/-- A free value: one the spec leaves open or draws at random. A standby takes the random values of the
active from the ledger (R393). -/
def State.free (s : State) : Nat :=
  match s.pair.randoms with
  | v :: _ => v
  | [] => Config.free s.drawn

/-- The pair link is up: a lane is up under the keys of R386. -/
def State.linkUp (s : State) : Bool :=
  s.pair.keys.isSome && (s.fld F.PAIR_STAT.LANE0 == 1 || s.fld F.PAIR_STAT.LANE1 == 1)

/-- Whether the member forms ledger entries: active, with a partner that takes part in the ledger (R393). -/
def State.ledgering (s : State) : Bool :=
  s.fld F.PAIR_STAT.ROLE == 2 && (s.fld F.PAIR_STAT.SYNC == 1 || s.fld F.PAIR_STAT.SYNC == 2)

/-- Adds a record to the entry being formed (R393). -/
def State.record (s : State) (r : LedgerRecord) : State :=
  if s.ledgering then { s with pair := { s.pair with entry := s.pair.entry ++ [r] } } else s

/-- Adds to what TX_REPORT will carry (R393). -/
def State.reportTx (s : State) (e : TxEvent) : State :=
  if s.ledgering then { s with pair := { s.pair with report := s.pair.report ++ [e] } } else s

/-- The message type of a Tylian message; 0 for a frame of another standard. -/
def IngestFrame.type (f : IngestFrame) : Nat :=
  match f.body with
  | .tylian (b :: _) => b.toNat
  | _ => 0

/-- A frame reaches the work its message type names: a token forward (R205), FW_STATUS (R379), or ingest (R232). -/
def State.acceptFrameIn (s : State) (f : IngestFrame) : State :=
  if f.type = 0x23 then { s with ing := { s.ing with forwards := s.ing.forwards ++ [f] } }
  else if f.type = 0x24 then { s with rad := { s.rad with inbox := s.rad.inbox ++ [⟨f.shortAddr, none, f⟩] } }
  else { s with ing := { s.ing with frames := s.ing.frames ++ [f] } }

/-- A frame received on a shared port is accepted; the standby of a pair only keeps it for a takeover, and
the active carries it in the ledger (R391, R393). -/
def State.handIn (s : State) (f : IngestFrame) : State :=
  if s.fld F.PAIR_STAT.ROLE = 1 then { s with pair := { s.pair with inputs := s.pair.inputs ++ [(s.now, f)] } }
  else (s.record (.frame f)).acceptFrameIn f

/-- Takes the next free value, which the active of a pair carries as RANDOM (R393). -/
def State.draw (s : State) : State :=
  let s1 := s.record (.random 0 s.free)
  { s1 with
    pair := { s1.pair with randoms := s1.pair.randoms.drop 1 }
    drawn := s1.drawn + 1 }

/-- A random value of member-local cryptography, which no ledger carries (R393). -/
def State.drawLocal (s : State) : State := { s with drawn := s.drawn + 1 }

/-- The stamp and code of a post (R329). -/
def mkPost (s : State) (code : Nat) (p : Payload) : Post :=
  { code := code, payload := p, opSeconds := s.evt.opSeconds.toNat,
    pwrCycles := s.evt.pwrCycles.toNat, lostFor := [] }

/-- Posts an event to the event queue (R329). [DEDUCED, log 132; unsafe] -/
def State.post (s : State) (code : Nat) (p : Payload) : State :=
  { s with evt := { s.evt with queue := s.evt.queue ++ [mkPost s code p] } }

/-- Posts the event only where the condition holds. -/
def State.postIf (s : State) (c : Bool) (code : Nat) (p : Payload) : State :=
  if c then s.post code p else s

/-- A port entry of the active PORTS section. -/
def State.port (s : State) (p : Nat) : Option PortEntry :=
  match s.warp.active with
  | some w => w.ports.ports[p]?
  | none => none

/-- ROLE of a port, 0 without an image (R278). -/
def State.role (s : State) (p : Nat) : Nat := match s.port p with | some e => e.role | none => 0

/-- Outputs that the active of a pair in step releases only once its digest has matched (R398). -/
def Output.hostVisible : Output → Bool
  | .waybill _ => true
  | .meterConfirm _ => true
  | .serialPoll _ _ => true
  | _ => false

/-- Outputs on the shared ports of R391. -/
def Output.shared : Output → Bool
  | .display _ => true
  | .pulse _ _ => true
  | .opticalIdent => true
  | .opticalData _ _ => true
  | .opticalEnd => true
  | .opticalBreak => true
  | .meterConfirm _ => true
  | .mesh _ _ _ => true
  | .powerLine _ _ => true
  | .serialPoll _ _ => true
  | _ => false

/-- Whether the member drives its shared outputs: always outside a pair (R391, R403). -/
def State.drivesShared (s : State) : Bool :=
  match s.warp.active with
  | some w => w.pairPlan.isNone || s.pair.shared
  | none => true

/-- Whether host-visible outputs wait for the digest of their pace (R398, R399). -/
def State.withholds (s : State) : Bool :=
  (s.fld F.PAIR_STAT.ROLE == 2 || s.fld F.PAIR_STAT.ROLE == 1) &&
  (s.fld F.PAIR_STAT.SYNC == 2 || s.pair.mismatch.isSome)

/-- The digest of a pace has matched, or the pair is not in step (R398). -/
def State.digestOk (s : State) (p : Nat) : Bool :=
  !s.withholds || (match s.pair.matched with | some m => decide (p ≤ m) | none => false)

/-- Outputs that no port carries or that pass over the pair lanes, and the lines that go inactive as ports are switched off
(R414). -/
def Output.inside : Output → Bool
  | .pulse _ asserted => !asserted
  | .radioLow _ => true
  | .plcLow _ => true
  | .popped _ _ _ _ => true
  | .regCause _ _ _ => true
  | .ledgerAck _ => true
  | _ => false

/-- The ports and the display are switched off from SAVE on (R414). -/
def State.portsOff (s : State) : Bool := s.power.phase == .save || s.power.phase == .off

/-- Sends something: at once, or in a pair as R391 and R398 state; nothing while the ports are off (R414).
[DESIGN CHOICE, log 9; unsafe] -/
def State.send (s : State) (o : Output) : State :=
  if s.portsOff && !o.inside then s
  else if o.hostVisible && s.withholds then
    { s with pair := { s.pair with held := s.pair.held ++ [(s.now, o)] } }
  else if o.shared && !s.drivesShared then s
  else { s with out := s.out ++ [o] }

/-- Frames are received, and queued ones go out: not while a restart is under way (R42), nor once the ports are off (R414). -/
def State.receives (s : State) : Bool := s.power.start.isNone && !s.portsOff

/-- A TLV from fields given as (width, value). -/
def mkTlv (type : Nat) (l : List (Nat × Nat)) : Tlv := ⟨type, packBytes l⟩

/-- TLV 0x0001 CAUSE_DETAIL. -/
def causeDetail (cause subject : Nat) : Tlv := mkTlv 0x0001 [(2, cause), (4, subject)]

/-- The bytes of a TLV with its header and padding (R52). -/
def Tlv.wire (t : Tlv) : List Byte :=
  packBytes [(2, t.type), (2, t.value.length)] ++ t.value ++
    List.replicate ((4 - t.value.length % 4) % 4) 0

/-- Bytes a body takes on the wire, padding included (R52). -/
def bodyLength (l : List Tlv) : Nat :=
  l.foldl (fun n t => n + 4 + (t.value.length + 3) / 4 * 4) 0

/-- The bytes of a body (R52). -/
def bodyBytes (l : List Tlv) : List Byte := l.flatMap Tlv.wire

/-! ### The bytes of a waybill (R51, R53, R55) -/

/-- The header of one part (R51); the service seat has CONTEXT 0 (R288). -/
def OutWaybill.header (w : OutWaybill) (part length : Nat) : List Byte :=
  packBytes [(2, 0x5742), (1, 1), (1, w.type), (1, (if w.clear then 1 else 0) + (if w.rep then 2 else 0)), (1, w.seat % 8),
    (1, part), (1, w.parts), (2, length), (2, w.opcode), (4, w.seq.toNat), (4, w.task.toNat), (2, w.cause),
    (2, w.session), (8, if w.clear then 0 else w.counter + part)]

/-- The nonce of a protected waybill: direction 0 from the host, 1 from the device (R55). -/
def gcmNonce (session dir counter : Nat) : List Byte := packBytes [(2, session), (1, dir), (1, 0), (8, counter)]

/-- One part with its piece of the body: in clear, or sealed under K_D2H (R55). -/
def OutWaybill.partBytes (w : OutWaybill) (key : List Byte) (part : Nat) (piece : List Byte) : List Byte :=
  if w.clear then w.header part (32 + piece.length) ++ piece
  else
    let h := w.header part (48 + piece.length)
    let nonce := gcmNonce w.session 1 (w.counter + part)
    let ct := gcmCrypt key nonce piece
    h ++ ct ++ gcmTag key nonce h ct

/-- A string cut into pieces of the given sizes. -/
def cutBytes : List Nat → List Byte → List (List Byte)
  | [], _ => []
  | n :: r, l => l.take n :: cutBytes r (l.drop n)

/-- A waybill with its parts, one for each room of body bytes (R53). -/
def OutWaybill.cut (w : OutWaybill) (key : List Byte) (rooms : List Nat) : OutWaybill :=
  let v := { w with parts := rooms.length }
  { v with wire := (cutBytes rooms (bodyBytes w.body)).zipIdx.map fun p => v.partBytes key p.2 p.1 }

/-- The HOST_PLAN entry of a context in the active image (R48). -/
def State.hostEntry (s : State) (c : Nat) : Option HostEntry :=
  match s.warp.active with
  | none => none
  | some w => w.hostPlan.find? fun e => e.context == c

/-- A context's state. -/
def State.ctx (s : State) (c : Nat) : Ctx := Map.findD s.host.ctxs c {}

/-- Writes a context's state. -/
def State.setCtx (s : State) (c : Nat) (x : Ctx) : State :=
  { s with host := { s.host with ctxs := Map.set s.host.ctxs c x } }

/-- Whether the context's waybills may go in clear (R57). -/
def State.localClear (s : State) (c : Nat) : Bool :=
  match s.hostEntry c with | some e => e.localClear | none => false

/-- The rights mask of a seat: a context's RIGHTS (R48), or those of the service seat (R473). -/
def State.rights (s : State) (seat : Nat) : Word :=
  if seat = 8 then 0x000E1A01 else
  match s.hostEntry seat with | some e => e.rights | none => 0

/-- IPv4-mapped IPv6 addresses (R48). -/
def isV4 (a : BitVec 128) : Bool := a.toNat / 2 ^ 32 = 0xFFFF

/-- The largest waybill on a context's link (R51). -/
def State.lengthBound (s : State) (c : Nat) : Nat :=
  match s.hostEntry c with
  | some e => if e.link = 1 then (if isV4 e.peerAddr then 1472 else 1452) else 65535
  | none => 65535

/-- Body bytes of one part on a context's link (R51). -/
def State.roomOf (s : State) (c : Nat) (clear : Bool) : Nat := s.lengthBound c - 32 - (if clear then 0 else 16)

/-- The parts a body needs on a context's link (R53). -/
def State.partsOf (s : State) (c : Nat) (clear : Bool) (body : List Tlv) : Nat :=
  let room := s.roomOf c clear
  max 1 ((bodyLength body + room - 1) / room)

/-- The waybill that carries a body on the context's session, or in clear, with the session after it (R55 to R57). Every
part but the last is full. None where the waybill must be protected and no session is open. -/
def State.seal (s : State) (c : Nat) (clear rep : Bool) (type opcode : Nat) (seq task : Word)
    (cause : Nat) (body : List Tlv) : Option (OutWaybill × Option Session) :=
  let rooms := List.replicate (s.partsOf c clear body) (s.roomOf c clear)
  if clear then
    some ((⟨c, type, true, rep, opcode, seq, task, cause, 0, 0, 0, body, []⟩ : OutWaybill).cut [] rooms, (s.ctx c).session)
  else
    match (s.ctx c).session with
    | none => none
    | some x =>
      some ((⟨c, type, false, rep, opcode, seq, task, cause, x.no, x.sent + 1, 0, body, []⟩ : OutWaybill).cut x.d2h rooms,
        some { x with sent := x.sent + rooms.length })

/-- The bytes of a message that a buffer can take, and the fewest buffers from the first that take them
all, at most 64 (R53, R283). -/
def fitBuffers (overhead : Nat) : List Nat → Nat → Option Nat
  | [], _ => none
  | b :: l, need =>
    if need ≤ b - overhead then some 1
    else match fitBuffers overhead l (need - (b - overhead)) with
      | some n => some (n + 1)
      | none => none

/-- The slot of a context on its PCIe endpoint: 4 × endpoint + slot, slots in ascending CONTEXT order. -/
def State.pcieSlot (s : State) (c link : Nat) : Nat :=
  let below := (List.range c).filter fun d => match s.hostEntry d with | some e => e.link == link | none => false
  4 * (link - 2) + below.length

/-- Raises the vector of a slot where its IRQ word enables it (R283). -/
def State.raiseVector (s : State) (k : Nat) (irq : Option (Nat × Nat)) : State :=
  match irq with
  | some (addr, data) => s.send (.msix (k / 4) (k % 4) addr data)
  | none => s

/-- One part goes into the RX buffer at an index of a slot, and its vector is raised (R283). -/
def ringWrite (s : State) (k index addr : Nat) (part : List Byte) (irq : Option (Nat × Nat)) : State :=
  (s.send (.rxFill (k / 4) (k % 4) index addr part)).raiseVector k irq

/-- A waybill goes into the posted buffers of a slot, one part each from the head on (R283). -/
def State.ringPut (s : State) (k : Nat) (q : PcieSlot) (m : OutWaybill) : State :=
  (q.buffers.zip m.wire).zipIdx.foldl
    (fun (u : State) e => ringWrite u k ((q.rxHead + e.2) % 256) e.1.1.1 e.1.2 q.irq) (s.send (.waybill m))

/-- Moves a waybill into the RX buffers of its slot; none where they do not hold it. Its parts take their
counters now; a waybill whose session has closed is dropped (R283). A RESP under the keys of a handshake comes with its
bytes. [DEDUCED, log 125; unsafe] -/
def State.pcieMove (s : State) (link : Nat) (w : OutWaybill) : Option State :=
  let k := s.pcieSlot w.seat link
  let q := Map.findD s.prt.slots k {}
  let overhead := if w.clear then 32 else 48
  match fitBuffers overhead ((q.buffers.take 64).map fun b => b.2) (bodyLength w.body) with
  | none => none
  | some n =>
    let rooms := (q.buffers.take n).map fun b => b.2 - overhead
    let q1 := { q with buffers := q.buffers.drop n, rxHead := (q.rxHead + n) % 256 }
    let s1 := { s with prt := { s.prt with slots := Map.set s.prt.slots k q1 } }
    if !w.wire.isEmpty then some (s1.ringPut k q w)
    else if w.clear then some (s1.ringPut k q (w.cut [] rooms))
    else match (s.ctx w.seat).session with
      | some x =>
        if x.no = w.session then
          let s2 := s1.setCtx w.seat { s1.ctx w.seat with session := some { x with sent := x.sent + n } }
          some (s2.ringPut k q (({ w with counter := x.sent + 1 } : OutWaybill).cut x.d2h rooms))
        else some s
      | none => some s

/-- The waybills of a context that wait for RX buffers go in order while buffers hold them (R283). -/
def State.pciePump (s : State) (c link : Nat) : State :=
  (s.prt.pcieOut.foldl (fun (x : State × Bool) w =>
      let keep : State × Bool :=
        ({ x.1 with prt := { x.1.prt with pcieOut := x.1.prt.pcieOut ++ [w] } }, x.2)
      if w.seat ≠ c then keep
      else if x.2 then keep
      else match x.1.pcieMove link w with
        | some t => (t, false)
        | none => (keep.1, true)) (({ s with prt := { s.prt with pcieOut := [] } } : State), false)).1

/-- The LINK of a context (R48). -/
def State.linkOf (s : State) (c : Nat) : Nat := match s.hostEntry c with | some e => e.link | none => 1

/-- Puts a waybill on the link of its context: a UDP datagram, the RX ring of its PCIe slot, or the queue
of the SPI host port (R48, R283, R285). -/
def State.put (s : State) (w : OutWaybill) : State :=
  let link := s.linkOf w.seat
  if link = 2 ∨ link = 3 then
    ({ s with prt := { s.prt with pcieOut := s.prt.pcieOut ++ [w] } } : State).pciePump w.seat link
  else if link = 4 then
    ({ s with prt := { s.prt with spiOut := s.prt.spiOut ++ w.wire } } : State).flag F.PRT_SPI_STAT.WB_READY true
  else s.send (.waybill w)

/-- Puts a sealed waybill on its link, its session after it being `x`. On a PCIe ring it takes its counters and its bytes
as it moves into buffers (R283). -/
def State.emit (s : State) (w : OutWaybill) (x : Option Session) : State :=
  let link := s.linkOf w.seat
  if link = 2 ∨ link = 3 then s.put { w with parts := 0, wire := [] }
  else (s.setCtx w.seat { s.ctx w.seat with session := x }).put w

/-- Sends a waybill to a context: in clear or on its open session (R55). -/
def State.sendWaybill (s : State) (c : Nat) (clear rep : Bool) (type opcode : Nat) (seq task : Word)
    (cause : Nat) (body : List Tlv) : State :=
  match s.seal c clear rep type opcode seq task cause body with
  | none => s
  | some (w, x) => s.emit w x

/-- Answers a command: as the command was protected, in clear or on the session (R466). In a pair only the
serving member does (R392). A RESP that would need more than 64 parts carries TOO_LARGE alone (R53). The seat's
waybills are clear and pass over USB (R288). -/
def State.resp (s : State) (m : Msg) (rep : Bool) (task : Word) (cause : Nat) (body : List Tlv) : State :=
  let clear := m.clear || m.seat == 8
  let big := decide (64 < s.partsOf m.seat clear body)
  if !m.here then s
  else
    match s.seal m.seat clear rep 2 m.opcode m.seq task (if big then Cause.TOO_LARGE else cause) (if big then [] else body) with
    | none => s
    | some (w, x) => if m.seat = 8 then s.put w else s.emit w x

/-! ### Notices -/

/-- Whether notices can go to the context now: a session is open (R70), or its waybills go in
clear (R57). [DEDUCED, log 36; unsafe] -/
def State.reachable (s : State) (c : Nat) : Bool := (s.ctx c).session.isSome || s.localClear c

/-- Notices go in clear where no session is open and the context may send in clear. -/
def State.noticeClear (s : State) (c : Nat) : Bool := s.localClear c && (s.ctx c).session.isNone

/-- The retained notices that have been sent and are unacknowledged. -/
def Ctx.outstanding (x : Ctx) : Nat := (x.notices.filter fun n => n.sent).length

/-- Sends one notice, with REPEAT when it was sent before, and starts its resend timing (R71). -/
def State.sendNotice (s : State) (c : Nat) (n : NoticeRec) : State :=
  let init := s.fld (F.HOST_RESEND.INIT_MS c)
  let s1 := s.sendWaybill c (s.noticeClear c) n.sent 3 n.kind n.seq (BitVec.ofNat 32 n.task) 0 n.body
  if n.sent then s1
  else
    s1.setCtx c { s1.ctx c with
      notices := (s1.ctx c).notices.map fun m =>
        if m.seq = n.seq then { m with sent := true, nextAt := s.now + init, interval := init } else m }

/-- Sends unsent notices in sequence order while the window allows (R70); the standby of a pair leaves them to
the active (R392). [DEDUCED, log 127; unsafe] -/
def State.pump (s : State) (c : Nat) : State :=
  if s.reachable c && s.fld F.PAIR_STAT.ROLE != 1 then
    let x := s.ctx c
    let room := s.fld (F.HOST_NOTICE_WIN.WINDOW c) - x.outstanding
    ((x.notices.filter fun n => !n.sent).take room).foldl (fun t n => t.sendNotice c n) s
  else s

/-- Counts a notice that is not retained, and marks the newest post as posted with it (R72, R469). -/
def State.loseNotice (s : State) (c kind : Nat) (withPost : Bool) : State :=
  let x := s.ctx c
  let l := if x.lost.any (fun e => e.kind == kind)
    then x.lost.map fun e => if e.kind = kind then { e with count := e.count + 1 } else e
    else x.lost ++ [⟨kind, 1, none, none⟩]
  let s1 := s.setCtx c { x with lost := l }
  if withPost then
    { s1 with evt := { s1.evt with queue := match s1.evt.queue.reverse with
        | [] => []
        | p :: r => ({ p with lostFor := p.lostFor ++ [(c, kind)] } :: r).reverse } }
  else s1

/-- Writes a notice to NAND and sends it when the window allows (R70); the store is full from
NOTICE_MAX on (R72). In a pair an EVENT or HEALTH notice carries PAIR_MEMBER (R396). -/
def State.retain (s : State) (c kind : Nat) (body : List Tlv) (task : Nat := 0) : State :=
  let x := s.ctx c
  let role := s.fld F.PAIR_STAT.ROLE
  let tagged := role ≠ 0 ∧ (kind = 0x8003 ∨ kind = 0x8005) ∧ !body.any fun t => t.type == 0x00E1
  let member := mkTlv 0x00E1 [(1, s.fld F.PAIR_STAT.MEMBER), (1, role)]
  let n : NoticeRec := ⟨x.nextNotice, kind, if tagged then body ++ [member] else body, false, 0, 0, task⟩
  let notices := x.notices ++ [n]
  let cap := match s.hostEntry c with | some e => e.noticeMax | none => 0
  let s1 := s.setCtx c { x with notices := notices, nextNotice := x.nextNotice + 1,
                                full := x.full || decide (cap ≤ notices.length) }
  s1.pump c

/-- A notice of a kind other than TASK_ITEMS and TASK_FINAL to one context (R70, R72). -/
def State.notify (s : State) (c kind : Nat) (body : List Tlv) (withPost : Bool) : State :=
  if (s.ctx c).full then s.loseNotice c kind withPost else s.retain c kind body

/-- The contexts present in HOST_PLAN, in ascending order. -/
def State.contexts (s : State) : List Nat := (List.range 8).filter fun c => (s.hostEntry c).isSome

/-- The contexts whose NOTICE_MASK selects a kind. -/
def State.subscribers (s : State) (kind : Nat) : List Nat :=
  s.contexts.filter fun c => match s.hostEntry c with
    | some e => e.noticeMask.getLsbD (kind - 0x8000)
    | none => false

/-- A notice to each context whose NOTICE_MASK selects its kind (R70). -/
def State.broadcast (s : State) (kind : Nat) (body : List Tlv) (withPost : Bool := true) : State :=
  (s.subscribers kind).foldl (fun t c => t.notify c kind body withPost) s

end Sys2Proof.Machine
end

