-- ==== Sys2Proof/Machine/Tasks.lean ====
section
/-! DEFINITION. Serving a command (R59 to R68): the command bucket, the sequence window and
repetition, admission of tasks, items and their outcomes, and task notices. -/

namespace Sys2Proof.Machine

/-- Reads TLVs from a body (R52): none where they overrun it. The first argument bounds the count. -/
def parseTlvs : Nat → List Byte → Option (List Tlv)
  | _, [] => some []
  | 0, _ :: _ => none
  | n + 1, l =>
    let len := fieldAt l 2 2
    let total := 4 + (len + 3) / 4 * 4
    if l.length < total then none
    else match parseTlvs n (l.drop total) with
      | none => none
      | some r => some (⟨fieldAt l 0 2, (l.drop 4).take len⟩ :: r)

/-- The TLVs of a body (R52). -/
def bodyTlvs (l : List Byte) : Option (List Tlv) := parseTlvs l.length l

/-- The TLVs of a message that passed R466. -/
def Msg.tlvs (m : Msg) : List Tlv := (bodyTlvs m.body).getD []

/-- BODY_DIGEST of a message (R61). -/
def Msg.digest (m : Msg) : BitVec 128 := bodyDigest m.body

/-- A task handle (R64). -/
def handleOf (slot gen : Nat) : Nat := gen * 4096 + slot

/-- How an item of a command goes on (R66): it ends DONE with the data it returns, ends FAILED with
a cause and TLVs of its own (a CAUSE_DETAIL, a result), or has begun and waits. -/
inductive ItemEnd where
  | done (data : Option (List Byte))
  | failed (cause : Nat)
  | failedWith (cause : Nat) (tlvs : List Tlv)
  | waiting
  deriving DecidableEq, Repr

/-- DONE where the cause is OK, FAILED otherwise. -/
def ItemEnd.ofCause (c : Nat) : ItemEnd := if c = 0 then .done none else .failed c

/-- The item being run: its command, the handle of its task, and its index. -/
structure ItemRef where
  msg : Msg
  task : Nat
  item : Nat
  deriving DecidableEq, Repr

/-! ### Outcomes -/

/-- Runs of consecutive items with one cause, as (first, count, cause) (TLV 0x0002). -/
def outcomeRuns : List Outcome → List (Nat × Nat × Nat)
  | [] => []
  | o :: l => match outcomeRuns l with
    | (f, n, c) :: r => if f = o.item + 1 ∧ c = o.cause then (o.item, n + 1, c) :: r
                        else (o.item, 1, o.cause) :: (f, n, c) :: r
    | [] => [(o.item, 1, o.cause)]

/-- The ITEM_RUN TLVs of outcomes. -/
def itemRuns (l : List Outcome) : List Tlv :=
  (outcomeRuns l).map fun r =>
    mkTlv 0x0002 [(4, r.1), (4, r.2.1), (1, if r.2.2 = 0 then 0 else 1), (1, 0), (2, r.2.2)]

/-- The ITEM_DATA TLV of an item. -/
def itemData (item : Nat) (d : List Byte) : Tlv := ⟨0x0003, beBytes 4 item ++ d⟩

/-- TLV 0x0004 TASK_SUMMARY. -/
def taskSummary (l : List Outcome) : Tlv :=
  let bad := l.filter fun o => o.cause != 0
  mkTlv 0x0004 [(4, l.length - bad.length), (4, bad.length),
    (2, match bad with | [] => 0 | o :: _ => o.cause), (2, 0)]

/-- Whether every item of the task has ended. -/
def Task.allEnded (t : Task) : Bool := t.todo.isEmpty && t.running.isEmpty

/-- Writes a task in flight. -/
def State.setTask (s : State) (slot : Nat) (t : Task) : State :=
  { s with host := { s.host with tasks := Map.set s.host.tasks slot t } }

/-- Changes a task in flight. -/
def State.adjustTask (s : State) (slot : Nat) (f : Task → Task) : State :=
  { s with host := { s.host with tasks := Map.adjust s.host.tasks slot f } }

/-- Takes a task out of flight; its journalled RESP may go once its SEQ is old enough (R62). -/
def State.dropTask (s : State) (slot : Nat) : State :=
  match Map.find s.host.tasks slot with
  | none => s
  | some t =>
    { s with host := { s.host with
        tasks := Map.erase s.host.tasks slot
        journal := s.host.journal.map fun j =>
          if j.handle = handleOf slot t.gen then { j with ended := true } else j } }

/-- The outcomes of one TASK_ITEMS notice, and the rest: at most `n`, whose runs and data fit in `room` bytes after
`used`; always at least one (R53, R66). -/
def splitOutcomes (room : Nat) : Nat → Nat → List Outcome → List Outcome × List Outcome
  | _, _, [] => ([], [])
  | n, used, o :: l =>
    let need := 16 + bodyLength o.data
    if used ≠ 0 ∧ (n = 0 ∨ room < used + need) then ([], o :: l)
    else (o :: (splitOutcomes room (n - 1) (used + need) l).1, (splitOutcomes room (n - 1) (used + need) l).2)

/-- The body bytes that 64 parts hold on a context's link (R53). -/
def State.noticeRoom (s : State) (c : Nat) : Nat := 64 * s.roomOf c false

/-- The data not yet returned. -/
def Task.returned (t : Task) : List Tlv := t.ended.flatMap fun o => o.data

/-- The outcomes not yet reported. -/
def Task.fresh (t : Task) : List Outcome := t.ended.drop t.reported

/-- The body of a TASK_ITEMS notice; data that no message can hold is replaced by its cause.
[DESIGN CHOICE, log 144; unsafe] -/
def itemsBody (room : Nat) (l : List Outcome) : List Tlv :=
  let body := itemRuns l ++ l.flatMap fun o => o.data
  if bodyLength body ≤ room then body else itemRuns l ++ l.map fun o => causeDetail Cause.TOO_LARGE o.item

/-- TASK_ITEMS notices, at most `n`: with `all` until no outcome is left, else while 1,024 are; none while the store is
full (R66, R72). -/
def State.reportItems (slot : Nat) (all : Bool) : Nat → State → State
  | 0, s => s
  | n + 1, s => match Map.find s.host.tasks slot with
    | none => s
    | some t =>
      if t.fresh.isEmpty || (s.ctx t.seat).full || !(all || decide (1024 ≤ t.fresh.length)) then s
      else
        let room := s.noticeRoom t.seat
        let (now, later) := splitOutcomes room 1024 0 t.fresh
        let old := t.ended.take t.reported ++ now.map fun o => { o with data := [] }
        let s1 := s.setTask slot { t with ended := old ++ later, reported := old.length }
        State.reportItems slot all n (s1.retain t.seat 0x8000 (itemsBody room now) (handleOf slot t.gen))

/-- TASK_FINAL with TASK_SUMMARY, once, when every outcome is reported and the store is not full (R66, R72). -/
def State.reportFinal (s : State) (slot : Nat) : State :=
  match Map.find s.host.tasks slot with
  | none => s
  | some t =>
    if t.final || !t.fresh.isEmpty || (s.ctx t.seat).full then s
    else
      let s1 := s.setTask slot { t with final := true }
      s1.retain t.seat 0x8001 [taskSummary t.ended] (handleOf slot t.gen)

/-- The reporting rule of R66. While the notice store is full outcomes are held (R72); a task of
the service seat has no notices (R473). -/
def State.report (s : State) (slot : Nat) : State :=
  match Map.find s.host.tasks slot with
  | none => s
  | some t =>
    if t.seat = 8 then s
    else if t.allEnded then (State.reportItems slot true t.fresh.length s).reportFinal slot
    else State.reportItems slot false t.fresh.length s

/-- Ends an item once (R66). -/
def Task.endItem (t : Task) (now item cause : Nat) (data : List Tlv) : Task :=
  { t with
    todo := t.todo.filter (· != item)
    running := t.running.filter (· != item)
    ended := t.ended ++ [⟨item, cause, now, data⟩] }

/-- Ends a waiting item of the task that a handle names, while it is in flight, and reports as R66 states. -/
def State.endItem (s : State) (handle item cause : Nat) (data : List Tlv := []) : State :=
  let slot := handle % 4096
  match Map.find s.host.tasks slot with
  | none => s
  | some t =>
    if handleOf slot t.gen = handle ∧ (t.running.contains item || t.todo.contains item) then
      (s.setTask slot (t.endItem s.now item cause data)).report slot
    else s

/-- Ends a waiting item as its run says (R66). -/
def State.settle (s : State) (handle item : Nat) (e : ItemEnd) : State :=
  match e with
  | .done d => s.endItem handle item 0 (match d with | some b => [itemData item b] | none => [])
  | .failed c => s.endItem handle item c
  | .failedWith c l => s.endItem handle item c l
  | .waiting => s

/-- Begins one item that has not begun, and ends it where its effect ends at once. -/
def State.beginItem (run : State → ItemRef → Tlv → State × ItemEnd) (m : Msg) (slot : Nat) (s : State)
    (item : Nat) : State :=
  match Map.find s.host.tasks slot with
  | none => s
  | some t =>
    if (m.seat != 8 && (s.ctx m.seat).full) || !t.todo.contains item then s
    else
      let began := s.setTask slot
        { t with todo := t.todo.filter (· != item), running := t.running ++ [item] }
      match run began ⟨m, handleOf slot t.gen, item⟩ (t.items.getD item ⟨0, []⟩) with
      | (s1, .waiting) => s1
      | (s1, .done d) => s1.adjustTask slot fun u => u.endItem s.now item 0 (match d with | some b => [itemData item b] | none => [])
      | (s1, .failed c) => s1.adjustTask slot fun u => u.endItem s.now item c []
      | (s1, .failedWith c l) => s1.adjustTask slot fun u => u.endItem s.now item c l

/-! ### Sequence and rate -/

/-- How R61 judges a command. -/
inductive SeqVerdict where
  | fresh
  | answer (cause : Nat)
  | drop
  | again (opcode task cause : Nat) (body : List Tlv)
  deriving DecidableEq, Repr

/-- The judgement of R61. A command of the service seat is outside every sequence (R288). -/
def State.judgeSeq (s : State) (m : Msg) : SeqVerdict :=
  if m.seat = 8 then .fresh
  else if (m.seq - (s.ctx m.seat).high).toInt ≤ -64 then .answer Cause.SEQ_STALE
  else match s.host.journal.find? fun j => j.seat == m.seat && j.seq == m.seq with
    | some j =>
      if j.digest ≠ m.digest then .answer Cause.SEQ_CONFLICT
      else match j.resp with
        | none => .drop
        | some b => .again j.opcode j.handle 0 b
    | none =>
      if m.rep then
        match (s.ctx m.seat).kept.find? fun k => k.seq == m.seq with
        | some k => if k.digest ≠ m.digest then .answer Cause.SEQ_CONFLICT else .again 0x0010 0 k.cause k.body
        | none => .fresh
      else .fresh

/-- Whether the context's bucket holds a command (R60). -/
def State.rateOk (s : State) (c : Nat) : Bool :=
  match s.hostEntry c with
  | none => true
  | some e => decide ((s.ctx c).spent - e.cmdRate * (s.now - (s.ctx c).spentAt) + 1000 ≤ e.cmdBurst * 1000)

/-- Takes a command from the bucket (R60). -/
def State.takeRate (s : State) (c : Nat) : State :=
  match s.hostEntry c with
  | none => s
  | some e =>
    let x := s.ctx c
    s.setCtx c { x with spent := x.spent - e.cmdRate * (s.now - x.spentAt) + 1000, spentAt := s.now }

/-- Answers a command that is counted in `HOST_BUSY_CNT`. -/
def State.busy (s : State) (m : Msg) (cause : Nat) : State :=
  let s1 := if m.seat = 8 then s else s.bump (F.HOST_BUSY_CNT.COUNT m.seat)
  s1.resp m false 0 cause []

/-- HIGH takes the sequence of a command executed as new, where it lies above (R61), and journalled
RESPs that R62 keeps no longer go. -/
def State.raiseHigh (s : State) (m : Msg) : State :=
  if m.seat = 8 then s
  else
    let x := s.ctx m.seat
    let high := if 0 < (m.seq - x.high).toInt then m.seq else x.high
    let s1 := s.setCtx m.seat { x with high := high }
    { s1 with host := { s1.host with journal := s1.host.journal.filter fun j =>
        !(j.seat == m.seat && j.ended && decide ((j.seq - high).toInt ≤ -64)) } }

/-- Serves a command of an opcode that waits in the inbox by R60 and R61, and executes it as new where R61 says so. -/
def State.serve (s : State) (opcode : Nat) (m : Msg) (run : State → State) : State :=
  if m.opcode = opcode ∧ s.host.inbox.contains m then
    let s1 := { s with host := { s.host with inbox := s.host.inbox.erase m } }
    if m.seat ≠ 8 ∧ ¬ s1.rateOk m.seat then s1.busy m Cause.BUSY_RATE
    else
      let s2 := s1.takeRate m.seat
      match s2.judgeSeq m with
      | .answer c => s2.resp m false 0 c []
      | .drop => s2
      | .again op t c b =>
        (s2.bump (F.HOST_REPEAT_CNT.COUNT m.seat)).resp { m with opcode := op } true (BitVec.ofNat 32 t) c b
      | .fresh => run (s2.raiseHigh m)
  else s

/-- Whether a seat holds a right, by its bit (R48, R50). -/
def State.hasRight (s : State) (seat bit : Nat) : Bool := (s.rights seat).getLsbD bit

/-! ### Tasks -/

/-- Tasks of a seat in flight. -/
def State.tasksOf (s : State) (seat : Nat) : Nat :=
  (s.host.tasks.filter fun p => p.2.seat == seat).length

/-- SHARED (R63). -/
def State.shared (s : State) : Nat :=
  4096 - ((List.range 9).foldl (fun n c =>
    n + max (s.tasksOf c) (match s.hostEntry c with | some e => e.tasksReserved | none => 0)) 0)

/-- The admission rule of R63: none where the task is admitted, or the cause. The seat may hold 64
tasks and has no reservation (R288). With 4,096 in flight no task is admitted, even below a reservation that a new image
has raised. [DEDUCED, log 145; safe] -/
def State.quota (s : State) (seat : Nat) : Option Nat :=
  let n := s.tasksOf seat
  let (res, top) := match s.hostEntry seat with
    | some e => (e.tasksReserved, e.tasksMax)
    | none => (0, if seat = 8 then 64 else 0)
  if s.host.tasks.length < 4096 ∧ (n < res ∨ (n < top ∧ 0 < s.shared)) then none
  else if s.shared = 0 ∨ 4096 ≤ s.host.tasks.length then some Cause.TASKS_FULL else some Cause.TASK_QUOTA

/-- The lowest free slot. [DESIGN CHOICE, log 37; unsafe] -/
def State.freeSlot (s : State) : Nat :=
  ((List.range 4096).find? fun n => (Map.find s.host.tasks n).isNone).getD 0

/-- The next generation of a slot: raised each time, skipping 0 (R64). -/
def State.nextGen (s : State) (slot : Nat) : Nat :=
  let g := (Map.findD s.host.gens slot 0 + 1) % 2 ^ 20
  if g = 0 then 1 else g

/-- Opens a task (R64, R65): the admission is journalled. -/
def State.openTask (s : State) (m : Msg) (items : List Tlv) : State × Nat :=
  let slot := s.freeSlot
  let gen := s.nextGen slot
  let t : Task := { gen := gen, seat := m.seat, here := m.here, seq := m.seq, opcode := m.opcode, digest := m.digest,
                    items := items, todo := List.range items.length, running := [], ended := [],
                    reported := 0, cancel := none, final := false }
  let j : JournalTask := ⟨m.seat, m.seq, m.opcode, m.digest, handleOf slot gen, items.length, none, false⟩
  let s1 := { s with host := { s.host with
      tasks := Map.set s.host.tasks slot t
      gens := Map.set s.host.gens slot gen
      journal := s.host.journal ++ [j] } }
  let x := s.ctx m.seat
  (if m.seat ≠ 8 ∧ 0 < (m.seq - x.journalled).toInt then s1.setCtx m.seat { x with journalled := m.seq } else s1, slot)

/-- Writes the RESP of an admitted task to the journal. -/
def State.journalResp (s : State) (handle : Nat) (body : List Tlv) : State :=
  { s with host := { s.host with journal := s.host.journal.map fun j =>
      if j.handle = handle ∧ j.resp = none then { j with resp := some body } else j } }

/-- Answers an admitted task: a short task's RESP carries its outcomes and the task leaves flight;
another's carries its handle (R65, R66). -/
def State.answerTask (s : State) (m : Msg) (slot : Nat) : State :=
  match Map.find s.host.tasks slot with
  | none => s
  | some t =>
    let h := handleOf slot t.gen
    if t.allEnded then
      let body := itemRuns t.ended ++ [taskSummary t.ended] ++ t.returned
      ((s.journalResp h body).resp m false (BitVec.ofNat 32 h) 0 body).dropTask slot
    else ((s.journalResp h []).resp m false (BitVec.ofNat 32 h) 0 []).report slot

/-- Admission of a task command with its items, which then begin in order, and its RESP (R63 to R66).
`valid` is the body rule of the command. -/
def State.admitTask (s : State) (m : Msg) (valid : Tlv → Bool) (run : State → ItemRef → Tlv → State × ItemEnd)
    (items : List Tlv) : State :=
  if items.isEmpty || !items.all valid then s.resp m false 0 Cause.BAD_FORMAT []
  else if 1048576 < items.length then s.resp m false 0 Cause.ITEMS_TOO_MANY []
  else if m.seat ≠ 8 ∧ (s.ctx m.seat).full then s.busy m Cause.NOTICE_FULL
  else match s.quota m.seat with
    | some c => s.busy m c
    | none =>
      let (s1, slot) := s.openTask m items
      ((List.range items.length).foldl (State.beginItem run m slot) s1).answerTask m slot

/-- An immediate command executed as new, which names a task or none (R51, R59): its cause and body. -/
def State.immediate (s : State) (m : Msg) (right : Option Nat) (task : Word) (answer : State → State × Nat × List Tlv) :
    State :=
  match right with
  | some b =>
    if ¬ s.hasRight m.seat b then s.resp m false 0 Cause.RIGHTS [] else go
  | none => go
where
  go : State := let (s1, c, b) := answer s; s1.resp m false task c b

end Sys2Proof.Machine
end

