-- ==== Sys2Proof/Machine/Bodies.lean ====
section
/-! DEFINITION. The body rules of the commands (R59, R63, R466 step 3): the item TLVs of each opcode and their lengths. -/

namespace Sys2Proof.Machine

/-- The types of the TLVs that are items of a command, by its opcode; none where its items stand in no TLV. -/
def itemTypes : Nat → List Nat
  | 0x0010 => [0x0010]
  | 0x0011 => [0x0012]
  | 0x0040 => [0x0040, 0x0041]
  | 0x0041 => [0x0042]
  | 0x0042 => [0x0043]
  | 0x0050 => [0x0050, 0x0051, 0x0052]
  | 0x0051 => [0x0053]
  | 0x0060 => [0x0060, 0x0061, 0x0062, 0x0063]
  | 0x0070 => [0x0070, 0x0071]
  | 0x0080 => [0x0080, 0x0081, 0x0082, 0x0083, 0x0084]
  | 0x0081 => [0x0088, 0x0089, 0x008A, 0x008B, 0x008C, 0x008D, 0x008E]
  | 0x0090 => [0x0090]
  | 0x0091 => [0x0091]
  | 0x0092 => [0x0092]
  | 0x00A0 => [0x00A0]
  | 0x00B0 => [0x00B0, 0x00B2]
  | 0x00C0 => [0x00C0]
  | 0x00D0 => [0x00D0, 0x00D1, 0x00D2]
  | 0x00E0 => [0x00E2]
  | 0x00F0 => [0x00F0]
  | _ => []

/-- The value length that an item TLV has by its definition. A METER_OP is longer for operations 1 and 2; a METER_KEY holds
16 or 32 key bytes (R148). -/
def itemLength (t : Tlv) : List Nat :=
  match t.type with
  | 0x0010 => [4]
  | 0x0012 => [12]
  | 0x0040 => if fieldAt t.value 4 1 = 1 ∨ fieldAt t.value 4 1 = 2 then [136] else [8]
  | 0x0041 => [24, 40]
  | 0x0042 => [32]
  | 0x0043 => [16]
  | 0x0050 => [2352]
  | 0x0051 => [4]
  | 0x0052 => [8]
  | 0x0053 => [12]
  | 0x0060 => [16]
  | 0x0061 => [12]
  | 0x0062 => [12]
  | 0x0063 => [36]
  | 0x0070 => [16]
  | 0x0071 => [4]
  | 0x0080 => [4104]
  | 0x0081 => [8]
  | 0x0084 => [12]
  | 0x0088 => [68]
  | 0x0089 => [4104]
  | 0x008B => [32]
  | 0x008C => [8]
  | 0x008E => [12]
  | 0x0090 => [12]
  | 0x0091 => [4104]
  | 0x0092 => [12]
  | 0x00A0 => [16]
  | 0x00B0 => [32]
  | 0x00C0 => [12]
  | 0x00D1 => [12]
  | 0x00F0 => [8]
  | _ => [4]

/-- The bounds that a definition sets on an item beside its length. -/
def itemBounds (t : Tlv) : Bool :=
  match t.type with
  | 0x0070 => decide (1 ≤ fieldAt t.value 12 2) && decide (fieldAt t.value 12 2 ≤ 2048)
  | 0x00A0 => decide (fieldAt t.value 0 1 ≤ 1)
  | 0x00C0 => decide (fieldAt t.value 0 1 ≤ 1) && decide (1 ≤ fieldAt t.value 8 2) && decide (fieldAt t.value 8 2 ≤ 1024)
  | _ => true

/-- An item TLV as its definition states it. -/
def itemOk (t : Tlv) : Bool := (itemLength t).contains t.value.length && itemBounds t

/-- The item TLVs of a command, in order. -/
def itemsOf (opcode : Nat) (l : List Tlv) : List Tlv := l.filter fun t => (itemTypes opcode).contains t.type

/-- The most items a body may hold: 256 of REG_READ, 512 of REG_WRITE, and 1,048,576 of every task (R59, R63). -/
def itemsMost (opcode : Nat) : Option Nat :=
  if opcode = 0x0010 then some 256 else if opcode = 0x0011 then some 512 else none

/-- The values of SESSION_OPEN by their place: the host's point, its nonce, and the key index (R54). The types are the
model's to ignore. [DESIGN CHOICE, log 31; unsafe] -/
def openBodyOk (l : List Tlv) : Bool :=
  match l with
  | p :: n :: k :: _ => p.value.length == 65 && fieldAt p.value 0 1 == 4 && n.value.length == 16 &&
      ecValid (ecPoint (p.value.drop 1)) && decide (1 ≤ k.value.length) && decide (k.value.length ≤ 4)
  | _ => false

/-- The body rules of a command (R466 step 3). -/
def bodyOk (opcode : Nat) (l : List Tlv) : Bool :=
  if opcode = 0x0001 then openBodyOk l
  else if opcode = 0x0002 then l.any fun t => t.value.length == 64
  else if (itemTypes opcode).isEmpty then true
  else
    let items := itemsOf opcode l
    !items.isEmpty && items.all itemOk && (match itemsMost opcode with | some n => decide (items.length ≤ n) | none => true)

/-- A task command executed as new: its right, then its admission (R50). -/
def State.taskCommand (s : State) (m : Msg) (right : Option Nat) (run : State → ItemRef → Tlv → State × ItemEnd) : State :=
  if (match right with | some b => s.hasRight m.seat b | none => true) then
    s.admitTask m itemOk run (itemsOf m.opcode m.tlvs)
  else s.resp m false 0 Cause.RIGHTS []

end Sys2Proof.Machine
end

