-- ==== Sys2Proof/Machine/Slots.lean ====
section
/-! DEFINITION. The key slots of the complex (R345): what each slot in use holds, the free slots of the pool, and `KEY_SLOTS`. -/

namespace Sys2Proof.Machine

/-- Whether the device holds its keys (R351). -/
def State.keysReady (s : State) : Bool := s.fld F.KEY_STAT.STATE == 1

/-- Whether items that need a key fail with ZEROISED (R342, R351). -/
def State.zeroised (s : State) : Bool :=
  s.fld F.KEY_STAT.STATE == 2 || s.fld F.KEY_STAT.STATE == 3

/-- The enrolment counter. -/
def State.enrol (s : State) : Nat := s.fld F.KEY_ENROL_CNT.COUNT

/-- N. -/
def State.leaf (s : State) : Nat := s.fld F.KEY_LEAF_NEXT.N

/-- The key that a wrapped key holds: none where it fails its integrity check under the KEK of slot 0, or where that
slot is empty (R346, R351). -/
def State.unwrap (s : State) (w : WrappedKey) : Option (List Byte) :=
  if s.keysReady && w.enrol == s.enrol then some w.key else none

/-- Whether a key is held and unwraps. -/
def State.unwraps (s : State) (k : Option WrappedKey) : Bool := match k with | some w => (s.unwrap w).isSome | none => false

/-- Slots 0 to 3 while the keys stand (R345). -/
def State.fixedSlots (s : State) : Map KeySlot :=
  if s.keysReady then
    let e := s.enrol
    let tree (t : List Byte × List Byte) : KeySlot := ⟨t.1 ++ t.2, .hss, [.sign], 11⟩
    [(0, ⟨kek e, .aes256, [.wrap, .unwrap], 13⟩),
     (1, ⟨beBytes 32 (linkPrivate e), .p256, [.sign, .derive], 13⟩),
     (2, tree (topTree e)), (3, tree (bottomTree e (s.leaf / 32768)))]
  else []

/-- The algorithm of an AES key by its length. -/
def aesAlg (k : List Byte) : KeyAlg := if k.length = 32 then .aes256 else .aes128

/-- The slots of ingest: the meter keys it has unwrapped, most recently used first (R133). -/
def State.ingestSlots (s : State) : List KeySlot :=
  s.ing.keys.filterMap fun e =>
    let r := Map.findD s.ing.meters e.1 {}
    match (if e.2 = 0 then r.keyWrap else r.key2Wrap) with
    | some w => some ⟨w.key, aesAlg w.key, [.encrypt, .decrypt, .mac, .derive], 8⟩
    | none => none

/-- The slots of one context: the keys of its session and of its handshake (R55). -/
def Ctx.keySlots (x : Ctx) (c : Nat) : List KeySlot :=
  let two (h d : List Byte) : List KeySlot := [⟨h, .aes256, [.decrypt], c⟩, ⟨d, .aes256, [.encrypt], c⟩]
  (match x.session with | some v => two v.h2d v.d2h | none => []) ++
  (match x.handshake with | some v => two v.h2d v.d2h | none => [])

/-- The slots of the contexts. -/
def State.hostSlots (s : State) : List KeySlot := s.host.ctxs.flatMap fun e => e.2.keySlots e.1

/-- Every key slot in use, by number: the pool follows from slot 16 (R345). Which pool slot a key takes is the model's.
[DESIGN CHOICE, log 29; safe] -/
def State.keySlots (s : State) : Map KeySlot :=
  s.fixedSlots ++ (s.hostSlots ++ s.ingestSlots).zipIdx.map fun p => (16 + p.2, p.1)

/-- Whether the pool has `n` free slots beside those that ingest keeps for itself (R133, R345). -/
def State.poolHas (s : State) (n : Nat) : Bool :=
  decide (s.hostSlots.length + n + s.fld F.ING_KEYCACHE.SLOTS ≤ 4080)

/-- USED and PEAK of `KEY_SLOTS`, with `more` slots held for the moment. -/
def State.showSlotsWith (s : State) (more : Nat) : State :=
  let n := s.fixedSlots.length + s.hostSlots.length + s.ing.keys.length
  (s.setF F.KEY_SLOTS.USED n).setF F.KEY_SLOTS.PEAK (max (n + more) (s.fld F.KEY_SLOTS.PEAK))

/-- USED and PEAK of `KEY_SLOTS`. -/
def State.showSlots (s : State) : State := s.showSlotsWith 0

/-- A pool request for `n` slots that finds none free (R345). -/
def State.slotsFull (s : State) : State := s.bump F.KEY_SLOT_FULL_CNT.COUNT

end Sys2Proof.Machine
end

