-- ==== Sys2Proof/Machine/Health.lean ====
section
/-! DEFINITION. Health items, the margin plan, lost cores and the watchdog (R429 to R437). The fatal
sequence is in Start. -/

namespace Sys2Proof.Machine

/-- TLV 0x00D8 HEALTH_ITEM (R435). -/
def HealthItem.tlv (i : HealthItem) : Tlv :=
  mkTlv 0x00D8 [(2, i.code), (1, i.severity), (1, 0), (4, i.subject),
    (8, unsignedOf 8 i.value), (8, unsignedOf 8 i.limit)]

/-- Whether an item may be sent now: not sent for its code and subject within 86,400 operating
seconds at the same or a higher severity (R435). -/
def State.itemDue (s : State) (i : HealthItem) : Bool :=
  !(s.hlt.sent.any fun e => e.1 == i.code && e.2.1 == i.subject && decide (i.severity ≤ e.2.2.1) &&
      decide (s.evt.opSeconds.toNat < e.2.2.2 + 86400))

/-- Raises a health item: a HEALTH notice and EV_HEALTH_ITEM, unless R435 holds it back. [DEDUCED, log 75; unsafe] -/
def State.raiseItem (s : State) (i : HealthItem) : State :=
  if s.itemDue i then
    let kept := s.hlt.sent.filter fun e => !(e.1 == i.code && e.2.1 == i.subject)
    let entry := (i.code, i.subject, i.severity, s.evt.opSeconds.toNat)
    let s1 := { s with hlt := { s.hlt with sent := kept ++ [entry] } }
    (s1.post Ev.HEALTH_ITEM [b8 i.code, b8 i.subject, b8 i.value]).broadcast 0x8005 [i.tlv]
  else s

/-- Raises an item where the condition holds. -/
def State.raiseIf (s : State) (c : Bool) (i : HealthItem) : State := if c then s.raiseItem i else s

/-- Signals a fatal error, which the fatal sequence of R438 then runs. [DEDUCED, log 131; unsafe] -/
def State.fatal (s : State) (kind lane engine cause : Nat) : State :=
  { s with hlt := { s.hlt with fatal := match s.hlt.fatal with
      | some f => some f
      | none => some ⟨kind, lane, engine, cause⟩ } }

/-! ### VCORE (R431) -/

/-- VCORE after an evaluation with worst slack `w`. -/
def vcoreNext (mv : Nat) (slack : Nat) (w tgt : Int) : Nat × Nat :=
  if w < tgt then (min 800 (mv + 5), 0)
  else if tgt + 15 < w then (if slack + 1 < 10 then (mv, slack + 1) else (max 700 (mv - 5), 0))
  else (mv, 0)

/-- An evaluation of the worst slack, in ps (R431). -/
def State.evaluateSlack (s : State) (slack : Int) : State :=
  let tgt : Int := s.fld F.HLT_VCORE_CFG.TGT_PS
  let mv := s.fld F.HLT_VCORE.MV
  let low := mv == 800 && decide (slack < tgt)
  let next := vcoreNext mv s.hlt.slack slack tgt
  let s1 := { s with
    hlt := { s.hlt with slack := next.2, slackAt := s.now }
    regs := ((s.regs.setF F.HLT_VCORE.MV next.1).setFInt F.HLT_VCORE.SLACK_PS slack).flag
      F.HLT_STAT.VCORE_LIMIT low }
  let s2 := (s1.postIf low Ev.VCORE_LIMIT []).raiseIf low
    ⟨3, if 2 * slack < tgt then 2 else 1, 0, slack, tgt⟩
  if slack < 0 then s2.fatal 8 0xF 0xFF 0 else s2

/-- VCORE_EVALUATION: every 1,000 paces, the worst slack of the last 1,000 (R429, R431). [DEDUCED, log 182; unsafe] -/
def execVcoreEvaluation (slack : Int) (s : State) : Host.Outcome State Fault Refusal :=
  .next (if s.hlt.slackAt + 1000 ≤ s.now then s.evaluateSlack slack else s)

/-! ### NAND scrub period (R432) -/

/-- The scrub period in force for b in hundredths of a bit (R432). -/
def effDays (days b : Nat) : Nat := if b ≤ 1800 then days else max 1 (days * 1800 / b)

/-- Device time in UTC ms. -/
def State.timeMs (s : State) : Nat := s.clk.ns / 1000000

/-- The day of device time, counted from 1. -/
def State.dayNo (s : State) : Nat := s.timeMs / 86400000 + 1

/-- An evaluation of the largest mean corrected-bit count, in 0.01 bits (R432). -/
def State.evaluateBer (s : State) (b : Nat) : State :=
  let days := s.fld F.STO_SCRUB.DAYS
  let eff := effDays days b
  let low := decide (4 * eff < days)
  let s1 := { s with
    hlt := { s.hlt with berLow := low, berDay := s.dayNo }
    regs := (s.regs.setF F.STO_SCRUB.EFF_DAYS eff).setF F.HLT_NAND.BER_CENTI (min b 0xFFFF) }
  s1.raiseIf (low && !s.hlt.berLow) ⟨4, 1, 0, b, 1800⟩

/-- NAND_BER_EVALUATION: once a day, the largest mean corrected-bit count, in 0.01 bits (R429, R432).
[DEDUCED, log 182; unsafe] -/
def execNandBerEvaluation (b : Nat) (s : State) : Host.Outcome State Fault Refusal :=
  .next (if s.hlt.berDay = s.dayNo then s else s.evaluateBer b)

/-! ### Daily measurements (R429) -/

/-- One AFE loopback measurement: gain in 0.01 dB of a channel. -/
def State.afeGain (s : State) (x : Nat) (gain : Int) : State :=
  let base := Map.findD s.hlt.afeBase x gain
  let lim : Int := s.fld F.HLT_LIMITS.AFE_CDB
  let s1 := { s with
    hlt := { s.hlt with afeBase := Map.set s.hlt.afeBase x base }
    regs := s.regs.setFInt (F.PLC_AFE_GAIN.GAIN x) gain }
  s1.raiseIf (decide (lim < (gain - base).natAbs)) ⟨8, 1, x, gain - base, lim⟩

/-- The daily measurements: reference drift, RTC drift and the AFE gains of the MESH channels (R429, R435). -/
def State.measureDrifts (s : State) (afe : List (Nat × Int)) : State :=
  let f := s.regs.fldInt F.CLK_FREQ.PPB
  let refLim : Int := s.fld F.HLT_LIMITS.REF_PPM * 1000
  let disciplined := s.fld F.CLK_QUAL.QUALITY == 0 &&
    (s.fld F.CLK_QUAL.SOURCE == 1 || s.fld F.CLK_QUAL.SOURCE == 2)
  let trim := s.regs.fldInt F.CLK_RTC_TRIM.PPB
  let rtcLim : Int := s.fld F.HLT_LIMITS.RTC_PPM * 1000
  let s1 := s.raiseIf (disciplined && decide (refLim < f.natAbs)) ⟨5, 1, 0, f, refLim⟩
  let s2 := s1.raiseIf (decide (rtcLim < trim.natAbs)) ⟨6, 1, 0, trim, rtcLim⟩
  afe.foldl (fun t e => t.afeGain e.1 e.2) s2

/-- DAILY_MEASUREMENT, once a day (R429). [DEDUCED, log 182; unsafe] -/
def execDailyMeasurement (afe : List (Nat × Int)) (s : State) : Host.Outcome State Fault Refusal :=
  .next (if s.hlt.driftDay = s.dayNo then s
    else ({ s with hlt := { s.hlt with driftDay := s.dayNo } } : State).measureDrifts afe)

/-! ### Capacitor test (R430, R433) -/

/-- R430: a test may run. The inputs fitted have been good for 60 s. -/
def State.capTestAllowed (s : State) : Bool :=
  s.fld F.PWR_STAT.HOLDUP_OK == 1 &&
  s.power.fitted.all fun i => s.power.goodSince.any fun g => g.1 == i && decide (g.2 + 60000 ≤ s.now)

/-- Starts a test (R430). -/
def State.capTestStart (s : State) : State :=
  ({ s with hlt := { s.hlt with capFrom := s.now } } : State).flag F.HLT_STAT.CAP_TEST true

/-- CAP_TEST: the daily test at the hour of `HLT_CAP_CFG.HOUR`, where R430 permits it. -/
def execCapTest (s : State) : Host.Outcome State Fault Refusal :=
  let hour := s.timeMs / 3600000 % 24
  .next (if hour = s.fld F.HLT_CAP_CFG.HOUR ∧ s.hlt.testDay ≠ s.dayNo ∧ s.capTestAllowed then
      ({ s with hlt := { s.hlt with testDay := s.dayNo } } : State).capTestStart
    else s)

/-- The thresholds of R433 in mJ, below which a level is entered. -/
def planThreshold : Nat → Nat
  | 1 => 390
  | 2 => 150
  | 3 => 50
  | _ => 0

/-- The budget E_SAVE of a level in mJ (R433). -/
def planBudget : Nat → Nat
  | 0 => 312
  | 1 => 120
  | _ => 40

/-- E_U in mJ as a numerator and denominator, from the drops in µV: with C = I_T · 9 ms / ΔV and
V_E = 8 V + 0.4 A · ESR, E_U = 0.45 · (576 − V_E²) / ΔV (R430, R433). [DEDUCED, log 71; unsafe] -/
def usableEnergy (dv0 dv : Nat) : Int × Int :=
  let ve : Int := 8000000 + 4 * dv0
  (45 * (576000000000000 - ve * ve), 100000000 * dv)

/-- Whether E_U is at least a number of mJ. -/
def energyAtLeast (e : Int × Int) (mj : Int) : Bool := decide (mj * e.2 ≤ e.1)

/-- The highest-numbered level whose threshold E_U fails to meet, 0 if none (R433). -/
def worstLevel (e : Int × Int) : Nat :=
  if !energyAtLeast e 50 then 3 else if !energyAtLeast e 150 then 2
  else if !energyAtLeast e 390 then 1 else 0

/-- The level and count of good tests after a test (R433). -/
def planNext (level good : Nat) (e : Int × Int) : Nat × Nat :=
  if level < worstLevel e then (worstLevel e, 0)
  else if 0 < level ∧ decide (13 * planBudget (level - 1) * e.2 ≤ 10 * e.1) then
    (if good + 1 < 2 then (level, good + 1) else (level - 1, 0))
  else (level, 0)

/-- The severity of items CAP and PLAN at a level (R435). -/
def planSeverity (level : Nat) : Nat := if level = 0 then 0 else if level = 1 then 1 else 2

/-- CAP_TEST_END: a test completes 10 paces after its start with the drops of VSTORE in µV (R430, R433). R430 gives no
value for a fall of 0: a free fall stands for it. [DESIGN CHOICE, log 76; safe] -/
def execCapTestEnd (dv0 fall : Nat) (s : State) : Host.Outcome State Fault Refusal :=
  if s.fld F.HLT_STAT.CAP_TEST = 1 ∧ s.hlt.capFrom + 10 ≤ s.now then
    let dv := if fall = 0 then 1 + Config.free s.drawn else fall
    let e := usableEnergy dv0 dv
    let mj := (e.1 / e.2).toNat
    let old := s.fld F.HLT_STAT.LEVEL
    let next := planNext old s.hlt.goodTests e
    let esr := min 0xFFFF (dv0 / 100)
    let c := min 0xFFFF (900000000 / dv)
    let s1 := { s with
      hlt := { s.hlt with goodTests := next.2 }
      regs := ((((((s.regs.flag F.HLT_STAT.CAP_TEST false).flag F.HLT_STAT.CAP_VALID true).setF
        F.HLT_STAT.LEVEL next.1).setF F.HLT_CAP.ESR_MOHM esr).setF F.HLT_CAP.C_UF c).setF
        F.HLT_EU.MJ (min 0xFFFF mj)).setF F.HLT_EU.BUDGET_MJ (planBudget next.1) }
    let s2 := (if fall = 0 then s1.drawLocal else s1).post Ev.CAP_TEST [b8 c, b8 esr]
    let s3 := (s2.postIf (next.1 != old) Ev.PLAN []).raiseIf (next.1 != 0)
      ⟨1, planSeverity next.1, 0, mj, planThreshold next.1⟩
    .next (s3.raiseIf (next.1 != old) ⟨2, planSeverity next.1, 0, next.1, old⟩)
  else .next s

/-! ### Lost cores and the watchdog (R436, R437) -/

/-- Bits set in a number of up to 8 bits. -/
def bits8 (n : Nat) : Nat := ((List.range 8).filter fun i => n.testBit i).length

/-- The control cores stop scheduling a core (R436). -/
def State.loseCore (s : State) (c : Nat) : State :=
  let lost := s.fld F.HLT_STAT.CORES_LOST
  if c < 8 ∧ ¬ lost.testBit c then
    let now := lost ||| 2 ^ c
    ((s.setF F.HLT_STAT.CORES_LOST now).post Ev.CORE_LOST []).raiseItem ⟨9, 2, c, 8 - bits8 now, 8⟩
  else s

/-- CORE_LOST: an application core fails its self-test, or causes an uncorrectable cache error, the
third of which within 1,000 paces loses it (R436). -/
def execCoreLost (core : Nat) (selfTest : Bool) (s : State) : Host.Outcome State Fault Refusal :=
  if selfTest then .next (s.loseCore core)
  else
    let l := s.now :: ((Map.findD s.hlt.cacheErrors core []).filter fun p => decide (s.now < p + 1000))
    let s1 := { s with hlt := { s.hlt with cacheErrors := Map.set s.hlt.cacheErrors core l } }
    .next (if 3 ≤ l.length then s1.loseCore core else s1)

/-- WATCHDOG_BITE: the count has reached `HLT_WDOG.PACES`; the fatal sequence is signalled (R437). -/
def execWatchdogBite (s : State) : Host.Outcome State Fault Refusal :=
  if s.fld F.HLT_WDOG.PACES ≤ s.hlt.watch ∧ ¬ s.portsOff ∧ s.hlt.bite = none then
    let s1 := (s.bump F.HLT_WDOG.BITES).fatal 4 0xF 0xFF 0
    .next { s1 with hlt := { s1.hlt with bite := some s.now } }
  else .next s

end Sys2Proof.Machine
end

