-- ==== Sys2Proof/Machine/Clock.lean ====
section
/-! DEFINITION. Device time: its advance, samples and steps, time quality and the RTC (R420 to R423,
R472, R478). -/

namespace Sys2Proof.Machine

/-- A source's number (R336). -/
def TimeSource.code : TimeSource → Nat
  | .host => 0
  | .ptp => 1
  | .pps => 2
  | .rtc => 3

/-- Whether a source is taken: its bit of `CLK_TSRC` (R421). -/
def State.sourceOn (s : State) : TimeSource → Bool
  | .host => s.fld F.CLK_TSRC.HOST == 1
  | .ptp => s.fld F.CLK_TSRC.PTP == 1
  | .pps => s.fld F.CLK_TSRC.PPS == 1
  | .rtc => false

/-- The pace of a source's last accepted sample while the source is valid (R421). -/
def State.sampleAge (s : State) (x : TimeSource) : Option Nat :=
  match s.clk.samples.find? fun e => e.1 == x with
  | none => none
  | some e => if s.now ≤ e.2 + s.fld F.CLK_QUAL_CFG.SYNC_S * 1000 then some (s.now - e.2) else none

/-- A source is valid (R421). -/
def State.sourceValid (s : State) (x : TimeSource) : Bool := s.sourceOn x && (s.sampleAge x).isSome

/-- The source device time follows: the first valid one in the order PTP, PPS, host (R421). -/
def State.followed (s : State) : Option TimeSource :=
  [TimeSource.ptp, .pps, .host].find? fun x => s.sourceValid x

/-- Whether no source before this one in the order of R421 is valid. -/
def State.leads (s : State) : TimeSource → Bool
  | .ptp => true
  | .pps => !s.sourceValid .ptp
  | .host => !s.sourceValid .ptp && !s.sourceValid .pps
  | .rtc => false

/-- θ shown in `CLK_OFFSET`, saturating. -/
def satWord (v : Int) : Int := clampInt (-2147483648) 2147483647 v

/-- An accepted sample of a source with offset θ in ns (R421, R478): it renews the source, and where
the source is followed it steers F, and is slewed, or marked for a step. [DEDUCED, log 70; unsafe] -/
def State.timeSample (s : State) (x : TimeSource) (theta : Int) : State :=
  let kept := s.clk.samples.filter fun e => e.1 != x
  let renewed := { s.clk with samples := kept ++ [(x, s.now)], sampled := true }
  if s.leads x then
    let lim : Int := s.fld F.CLK_STEP.STEP_MS * 1000000
    let regs := (s.regs.setFInt F.CLK_OFFSET.NS (satWord theta)).setF F.CLK_QUAL.SOURCE x.code
    if (theta.natAbs : Int) ≤ lim then
      let f := regs.fldInt F.CLK_FREQ.PPB
      let f1 := match s.sampleAge x with
        | some age => if age = 0 then f
            else f + roundDiv (theta * 1000) ((age : Int) * 2 ^ (s.fld F.CLK_SERVO.KI_SHIFT))
        | none => f
      { s with regs := regs.setFInt F.CLK_FREQ.PPB (satWord f1), clk := { renewed with slew := theta } }
    else { s with regs := regs, clk := { renewed with slew := 0, step := some (theta, x) } }
  else { s with clk := renewed }

/-- The quality the table of R422 gives at this moment. -/
def State.qualityNow (s : State) : Nat :=
  let inside := decide (s.clk.slew.natAbs ≤ 1000000) && s.clk.step.isNone
  let src := s.followed
  let age : Option Int := s.clk.synced.map fun p => (s.now : Int) - p
  let hold : Int := s.fld F.CLK_QUAL_CFG.HOLDOVER_H * 3600000
  let free : Int := s.fld F.CLK_FREE.DAYS * 86400000
  let started := s.clk.sampled || s.fld F.CLK_STAT.RTC_VALID == 1
  if src.isSome && inside && !(src == some .host && s.clk.hostHeld) then 0
  else if started && ((match age with | some a => decide (a < hold) | none => false) ||
      (src == some .host && s.clk.hostHeld)) then 1
  else if started && ((match age with | some a => decide (a < free) | none => false) ||
      s.fld F.CLK_FREE.DAYS == 0) then 2
  else 3

/-- The pace of the followed source's last sample: the SYNCED sample while the quality is SYNCED. -/
def State.lastFollowed (s : State) : Option Int :=
  match s.followed with
  | none => none
  | some x => match s.clk.samples.find? fun e => e.1 == x with
    | none => none
    | some e => some (e.2 : Int)

/-- Sets the RTC to device time (R472). -/
def State.setRtc (s : State) : State :=
  { s with regs := s.regs.flag F.CLK_STAT.RTC_VALID true
           clk := { s.clk with rtcSet := some (s.clk.ns, s.now) } }

/-- The 3,600 s to the next comparison of the RTC begin (R422, R472). -/
def State.compareFromNow (s : State) : State := { s with clk := { s.clk with comparedAt := s.now } }

/-- TIME_QUALITY_CHANGE: the quality moves to what samples and spans dictate, with EV_TIME_QUALITY;
a change to SYNCED sets the RTC, and comparisons follow (R422, R472). -/
def execTimeQualityChange (s : State) : Host.Outcome State Fault Refusal :=
  let old := s.fld F.CLK_QUAL.QUALITY
  let new := s.qualityNow
  let s1 := { s with clk := { s.clk with
    synced := if new = 0 then s.lastFollowed else s.clk.synced } }
  if new = old then .next s1
  else
    let s2 := (s1.setF F.CLK_QUAL.QUALITY new).post Ev.TIME_QUALITY [b1 new, b1 old]
    .next (if new = 0 then s2.setRtc.compareFromNow else s2)

/-- RTC_COMPARE: every 3,600 s while SYNCED the trim is set from the drift measured, in ppb, and the
RTC is set to device time (R422, R472). [DEDUCED, log 182; unsafe] -/
def execRtcCompare (trim : Int) (s : State) : Host.Outcome State Fault Refusal :=
  .next (if s.fld F.CLK_QUAL.QUALITY = 0 ∧ s.clk.comparedAt + 3600000 ≤ s.now then
      ({ s with regs := s.regs.setFInt F.CLK_RTC_TRIM.PPB (satWord trim) } : State).setRtc.compareFromNow
    else s)

/-- The slew of one pace, within ±SLEW_PPM ns (R420). -/
def State.slewNow (s : State) : Int :=
  let m : Int := s.fld F.CLK_STEP.SLEW_PPM
  clampInt (-m) m s.clk.slew

/-- DEVICE_TIME_ADVANCE: device time advances by one pace plus frequency correction and slew, and
sub-nanosecond parts carry (R420). -/
def State.advanceTime (s : State) : State :=
  let slew := s.slewNow
  let t : Int := (s.clk.ns : Int) * 1000 + s.clk.frac + 1000000000 + s.regs.fldInt F.CLK_FREQ.PPB + slew * 1000
  let n := t.toNat
  { s with clk := { s.clk with last := s.clk.ns, ns := n / 1000, frac := n % 1000, slew := s.clk.slew - slew } }

/-- One host sample acts: its θ, its limit on the quality, and its item's end (R423). -/
def State.hostSampleActs (s : State) (h : HostSample) : State :=
  let theta : Int := if h.relative then h.value * 1000000 else h.value * 1000000 - s.clk.ns
  let held := decide (s.fld F.CLK_QUAL_CFG.HOST_ACC_MS < h.accMs)
  let s1 := { s with clk := { s.clk with hostHeld := held } }
  (s1.timeSample .host theta).endItem h.slot h.item 0

/-- The host samples that wait act, in order (R423). -/
def State.hostSamplesAct (s : State) : State :=
  s.clk.hostSamples.foldl State.hostSampleActs { s with clk := { s.clk with hostSamples := [] } }

/-- The step of device time that was marked, with EV_TIME_SET; the RTC follows (R336, R420, R472). -/
def State.stepTime (s : State) (theta : Int) (x : TimeSource) : State :=
  let new := ((s.clk.ns : Int) + theta).toNat
  let s1 := { s with clk := { s.clk with ns := new, step := none, slew := 0 }
                     regs := s.regs.bump F.CLK_STEP_CNT.COUNT 1 }
  let s2 := s1.post Ev.TIME_SET [b8 s.timeMs, b8 s1.timeMs, b8 x.code, b1 s1.qualityNow]
  s2.setRtc

/-- The value of a TIME_VALUE TLV (0x00A0), R423. -/
def timeValue (t : Tlv) (slot item : Nat) : HostSample :=
  ⟨fieldAt t.value 0 1 == 1, fieldAt t.value 2 2, signedAt t.value 8 8, slot, item⟩

/-- A TIME_SET item (R423). -/
def runTimeSet (s : State) (r : ItemRef) (t : Tlv) : State × ItemEnd :=
  if s.sourceValid .ptp || s.sourceValid .pps || !s.sourceOn .host then (s, .failed Cause.TIME_STEP)
  else ({ s with clk := { s.clk with
    hostSamples := s.clk.hostSamples ++ [timeValue t r.task r.item] } }, .waiting)

/-- TIME_SET (R423). -/
def execTimeSet (m : Msg) (s : State) : Host.Outcome State Fault Refusal :=
  .next (s.serve 0x00A0 m fun t => t.taskCommand m (some 15) runTimeSet)

end Sys2Proof.Machine
end

