-- ==== Sys2Proof/Machine/Messages.lean ====
section
/-! DEFINITION. The hardware queues as the messages of the sealed partition see them (R20, R217, R318): words and messages,
the export messages' bytes, and what their receiver reads from them. -/

namespace Sys2Proof.Machine

/-! ### Queues (R318, R319) -/

/-- The QUEUE_PLAN entry of a queue (R322, R324). -/
def State.queueEntry (s : State) (q : Nat) : Option QueueEntry :=
  match s.warp.active with
  | some w => w.queuePlan.queues.find? fun e => e.queue == q
  | none => none

def State.queue (s : State) (q : Nat) : HwQueue := Map.findD s.que.queues q {}

/-- WPTR (R318): RPTR plus the words held. -/
def HwQueue.wptr (h : HwQueue) (l : Nat) : Nat := (h.rptr + h.words.length) % 2 ^ (l + 1)

/-- Writes a queue and its registers (R319). -/
def State.setQueue (s : State) (q l : Nat) (h : HwQueue) : State :=
  let n := h.words.length
  let r := ((s.regs.flag (F.QUE_STAT.EMPTY q) (n == 0)).flag (F.QUE_STAT.FULL q) (decide (2 ^ l ≤ n))).setF (F.QUE_STAT.FILL q) n
  { s with
    que := { s.que with queues := Map.set s.que.queues q h }
    regs := (r.setF (F.QUE_WPTR.WPTR q) (h.wptr l)).setF (F.QUE_RPTR.RPTR q) h.rptr }

/-- Pops `n` words of a queue (R318). -/
def HwQueue.popped (h : HwQueue) (l n : Nat) : HwQueue := ⟨h.words.drop n, (h.rptr + min n h.words.length) % 2 ^ (l + 1)⟩

/-! ### Messages (R217) -/

/-- Bytes as 64-bit words, the first byte in bits 63:56, padded with zero bytes (R217); `n` bounds their number.
[DESIGN CHOICE, log 149; unsafe] -/
def wordsOf : Nat → List Byte → List (BitVec 64)
  | 0, _ => []
  | n + 1, l => BitVec.ofNat 64 (fieldAt (l ++ List.replicate 7 0) 0 8) :: wordsOf n (l.drop 8)

/-- The bytes of words. -/
def bytesOf (l : List (BitVec 64)) : List Byte := l.flatMap fun w => beBytes 8 w.toNat

/-- A message: TYPE, LENGTH and SEQ, then the body (R217). -/
def packMessage (type seq : Nat) (body : List Byte) : List (BitVec 64) :=
  wordsOf (1 + (body.length + 7) / 8) (packBytes [(2, type), (2, body.length), (4, seq)] ++ body)

/-- The words of the message that a header begins. -/
def messageWords (header : BitVec 64) : Nat := 1 + (fieldAt (beBytes 8 header.toNat) 2 2 + 7) / 8

/-- A message taken from its words (R217). -/
def messageOf (l : List (BitVec 64)) : Request :=
  let b := bytesOf l
  ⟨fieldAt b 4 4, fieldAt b 0 2, (b.drop 8).take (fieldAt b 2 2)⟩

/-- The consumer of a sealed queue holds words it has popped. -/
def State.readWords (s : State) (q : Nat) : List (BitVec 64) := if q = 0 then s.leg.exportRead else s.leg.requestRead

/-- Sets the words that the consumer of a sealed queue has popped. -/
def State.setReadWords (s : State) (q : Nat) (l : List (BitVec 64)) : State :=
  if q = 0 then { s with leg := { s.leg with exportRead := l } } else { s with leg := { s.leg with requestRead := l } }

/-- The words of the head message of a sealed queue, where all of them have been pushed. -/
def State.headWords (s : State) (q : Nat) : Option (List (BitVec 64)) :=
  let all := s.readWords q ++ (s.queue q).words.map fun w => w.data
  match all with
  | [] => none
  | w :: _ => if all.length < messageWords w then none else some (all.take (messageWords w))

/-- Pushes a message whole where the queue has room for it; none where it has not (R217, R320). -/
def State.pushMessage (s : State) (q : Nat) (m : List (BitVec 64)) : Option State :=
  match s.queueEntry q with
  | none => none
  | some e =>
    let h := s.queue q
    if h.words.length + m.length ≤ 2 ^ e.depthLog2 then
      some (s.setQueue q e.depthLog2 { h with words := h.words ++ m.map fun w => ⟨w, true⟩ })
    else none

/-- Pushes waiting messages in order while the queue has room: the state, and what is left. -/
def pushWaiting (q : Nat) : List (List (BitVec 64)) → State → State × List (List (BitVec 64))
  | [], s => (s, [])
  | m :: l, s => match s.pushMessage q m with
    | some t => pushWaiting q l t
    | none => (s, m :: l)

/-- Words become free: the sealed cores push what they hold, and a requester that waits pushes its request (R217). -/
def State.refillQueues (s : State) : State :=
  let (s1, held) := pushWaiting 0 s.leg.held s
  let (s2, out) := pushWaiting 1 s1.leg.outbox s1
  { s2 with
    leg := { s2.leg with held := held, outbox := out }
    regs := s2.regs.flag F.LEG_STAT.EXPORT_HELD (!held.isEmpty) }

/-- Takes the `n` words of the head message of a sealed queue: those already popped, then words of the queue. -/
def State.dropHead (s : State) (q n : Nat) : State :=
  let read := s.readWords q
  let l := match s.queueEntry q with | some e => e.depthLog2 | none => 16
  ((s.setQueue q l ((s.queue q).popped l (n - read.length))).setReadWords q (read.drop n)).refillQueues

/-! ### Export messages -/

/-- The 128 bytes of an interval record (R111). -/
def IntervalRecord.bytes (r : IntervalRecord) : List Byte :=
  packBytes [(1, r.mp), (1, r.intervalMin), (2, r.quality.toNat), (2, r.revCount), (2, 0), (8, r.start), (4, r.paces), (4, 0)] ++
    (r.delta.flatMap fun v => beBytes 8 v) ++
    packBytes [(8, r.pfBound), (4, r.vRms), (4, r.iRms), (4, r.freq), (2, r.thdV), (2, r.thdI)] ++
    packBytes [(4, unsignedOf 4 r.vMean), (4, unsignedOf 4 r.iMean)]

/-- The record that 128 bytes give (R111). -/
def IntervalRecord.ofBytes (b : List Byte) : IntervalRecord :=
  { mp := fieldAt b 0 1, intervalMin := fieldAt b 1 1, quality := BitVec.ofNat 16 (fieldAt b 2 2), revCount := fieldAt b 4 2
    start := fieldAt b 8 8, paces := fieldAt b 16 4, delta := (List.range 9).map fun a => fieldAt b (24 + 8 * a) 8
    pfBound := fieldAt b 96 8, vRms := fieldAt b 104 4, iRms := fieldAt b 108 4, freq := fieldAt b 112 4
    thdV := fieldAt b 116 2, thdI := fieldAt b 118 2
    vMean := signedOf 4 (fieldAt b 120 4), iMean := signedOf 4 (fieldAt b 124 4) }

/-- The bytes of a point snapshot, 416 with its CRC (R191). -/
def PointSnapshot.bytes (x : PointSnapshot) : List Byte :=
  let body := packBytes [(1, x.mp), (1, x.flags.toNat), (2, x.billNo), (1, x.calendar), (3, 0), (4, x.bn.toNat),
    (2, x.calGen), (2, 0), (8, x.boundary)] ++ (x.reg.flatMap fun v => beBytes 8 v.toNat) ++
    (x.dmax.flatMap fun d => packBytes [(8, d.value), (4, d.finish), (1, d.flags.toNat), (3, 0)]) ++ beBytes 4 0
  body ++ beBytes 4 (crc32c body)

/-- The snapshot that 416 bytes give (R191). -/
def PointSnapshot.ofBytes (b : List Byte) : PointSnapshot :=
  { mp := fieldAt b 0 1, flags := BitVec.ofNat 8 (fieldAt b 1 1), billNo := fieldAt b 2 2, calendar := fieldAt b 4 1
    bn := BitVec.ofNat 32 (fieldAt b 8 4), calGen := fieldAt b 12 2, boundary := fieldAt b 16 8
    reg := (List.range 32).map fun i => BitVec.ofNat 64 (fieldAt b (24 + 8 * i) 8)
    dmax := (List.range 8).map fun r => ⟨fieldAt b (280 + 16 * r) 8, fieldAt b (288 + 16 * r) 4,
      BitVec.ofNat 8 (fieldAt b (292 + 16 * r) 1)⟩ }

/-- The 32 bytes of a legal event entry (R218). -/
def LegalEntry.bytes (e : LegalEntry) : List Byte :=
  packBytes [(4, e.lseq), (2, e.code), (1, e.mp), (1, 0), (6, e.opSeconds), (2, 0), (8, e.time), (8, e.data)]

/-- The entry that 32 bytes give (R218). -/
def LegalEntry.ofBytes (b : List Byte) : LegalEntry :=
  ⟨fieldAt b 0 4, fieldAt b 4 2, fieldAt b 6 1, fieldAt b 8 6, fieldAt b 16 8, fieldAt b 24 8⟩

/-- Digits as packed BCD, high nibble first. -/
def bcdBytes : List Nat → List Byte
  | a :: b :: l => BitVec.ofNat 8 (16 * a + b) :: bcdBytes l
  | _ => []

/-- Packed BCD, high nibble first. -/
def bcdDigits (l : List Byte) : List Nat := l.flatMap fun b => [b.toNat / 16, b.toNat % 16]

/-- TYPE of an export message (R217). -/
def Export.type : Export → Nat
  | .interval _ => 0x0001
  | .snapshot _ => 0x0002
  | .legalEvent _ _ => 0x0003
  | .reqResult _ _ _ => 0x0004
  | .keypadToken _ _ => 0x0005

/-- Body of an export message (R217). -/
def Export.body : Export → List Byte
  | .interval r => r.bytes
  | .snapshot p => p.bytes
  | .legalEvent e c => e.bytes ++ beBytes 16 c.toNat
  | .reqResult seq cause data => packBytes [(4, seq), (2, cause), (2, 0)] ++ data
  | .keypadToken no digits => packBytes [(2, no), (2, 0)] ++ bcdBytes digits ++ beBytes 2 0

/-- The export message that a TYPE and a body give (R217); none where TYPE or LENGTH fits none. -/
def Export.of (type : Nat) (b : List Byte) : Option Export :=
  if type = 1 ∧ b.length = 128 then some (.interval (.ofBytes b))
  else if type = 2 ∧ b.length = 416 then some (.snapshot (.ofBytes b))
  else if type = 3 ∧ b.length = 48 then some (.legalEvent (.ofBytes b) (BitVec.ofNat 128 (fieldAt b 32 16)))
  else if type = 4 ∧ 8 ≤ b.length then some (.reqResult (fieldAt b 0 4) (fieldAt b 4 2) (b.drop 8))
  else if type = 5 ∧ b.length = 16 then some (.keypadToken (fieldAt b 0 2) (bcdDigits ((b.drop 4).take 10)))
  else none

/-- The sealed cores export a message (R20, R217): into the queue, or behind what they hold, at most 64 messages; one more is
lost. [DESIGN CHOICE, log 87; unsafe] -/
def State.export_ (s : State) (e : Export) : State :=
  let seq := (s.leg.exportSeq + 1) % 4294967296
  let m := packMessage e.type seq e.body
  let s1 : State := { s with leg := { s.leg with exportSeq := seq } }
  if 64 ≤ s.leg.held.length then s1
  else ({ s1 with leg := { s1.leg with held := s1.leg.held ++ [m] } } : State).refillQueues

/-- The application cores take the head of the export queue where it is a message that `want` accepts: the state without
it, and the message. A message that fits no TYPE and LENGTH is discarded. -/
def State.takeExport (s : State) (want : Export → Bool) : State × Option Export :=
  match s.headWords 0 with
  | none => (s, none)
  | some m =>
    let x := messageOf m
    match Export.of x.type x.body with
    | none => (s.dropHead 0 m.length, none)
    | some e => if want e then (s.dropHead 0 m.length, some e) else (s, none)

/-- The application cores send a request: into the queue, or they wait for room; `use` is what waits for its REQ_RESULT
(R217). -/
def State.request (s : State) (type : Nat) (body : List Byte) (use : RequestUse) : State :=
  let seq := (s.leg.reqSeq + 1) % 4294967296
  ({ s with leg := { s.leg with
    reqSeq := seq
    outbox := s.leg.outbox ++ [packMessage type seq body]
    waiting := s.leg.waiting ++ [(seq, use)] } } : State).refillQueues

end Sys2Proof.Machine
end

