-- ==== Sys2Proof/Machine/Legal.lean ====
section
/-! DEFINITION. The legal event log (R218, R471) and the KEYPAD_CFG request (R222). -/

namespace Sys2Proof.Machine

/-- CHAIN after an entry (R218). -/
def chainOf (chain : BitVec 128) (e : LegalEntry) : BitVec 128 :=
  bodyDigest (beBytes 16 chain.toNat ++ e.bytes)

/-- DATA with fields given as (first byte, width, value), R471. -/
def legalData (l : List (Nat × Nat × Nat)) : Nat :=
  l.foldl (fun n f => n + f.2.2 % 256 ^ f.2.1 * 256 ^ (8 - f.1 - f.2.1)) 0

/-- Makes a legal event entry with the next LSEQ; it is written to the ring with the legal tariff
record of this pace (R218). [DEDUCED, log 133; unsafe] -/
def State.legalLog (s : State) (code mp data : Nat) : State :=
  let lseq := s.leg.lseq + s.leg.fresh.length + 1
  let time := if s.fld F.CLK_QUAL.QUALITY = 3 then 0 else s.clk.ns / 1000000000
  let e : LegalEntry := ⟨lseq, code, mp, s.evt.opSeconds.toNat, time, data⟩
  { s with
    leg := { s.leg with fresh := s.leg.fresh ++ [e] }
    tar := { s.tar with dirty := true }
    regs := s.regs.setF F.LEG_LOG_SEQ.LSEQ lseq }

/-- Writes one entry to the ring of 256 and exports it with CHAIN (R218). -/
def State.ringEntry (s : State) (e : LegalEntry) : State :=
  let chain := chainOf s.leg.chain e
  let ring := s.leg.ring ++ [(e, chain)]
  ({ s with leg := { s.leg with
    ring := ring.drop (ring.length - 256), chain := chain, lseq := e.lseq } } : State).export_
      (.legalEvent e chain)

/-- Writes the fresh entries to the ring and exports them (R218). -/
def State.writeRing (s : State) : State :=
  s.leg.fresh.foldl State.ringEntry { s with leg := { s.leg with fresh := [] } }

/-- KEYPAD_CFG: sent at each start and after every change of `PPY_KEYPAD.TIMEOUT_S` (R222).
[DESIGN CHOICE, log 139; unsafe] -/
def State.keypadCfg (s : State) : State :=
  s.request 0x0106 (packBytes [(1, s.fld F.PPY_KEYPAD.TIMEOUT_S), (7, 0)]) .none

end Sys2Proof.Machine
end

