-- ==== Sys2Proof/Machine/FrontEnd.lean ====
section
/-! DEFINITION. The magnetic-field front end (R74 to R98): compensation, mixing, delay and gain of each
sample; temperatures, magnitudes, extrapolation, zero windows and refinement at a boundary. -/

namespace Sys2Proof.Machine

/-- The SENSOR_PLAN in force; empty without an active image. -/
def State.sensorPlan (s : State) : SensorPlan :=
  match s.warp.active with
  | some w => w.sensorPlan
  | none => ⟨0, [], [], [], []⟩

/-- Sensor `i` where the plan enables it. -/
def SensorPlan.sensor (p : SensorPlan) (i : Nat) : Option SensorEntry :=
  match p.sensors[i]? with | some e => if e.enabled then some e else none | none => none

/-- Channel `c` where the plan enables it. -/
def SensorPlan.channel (p : SensorPlan) (c : Nat) : Option ChannelEntry :=
  match p.channels[c]? with | some e => if e.enabled then some e else none | none => none

/-- Used terms of a channel (R79). -/
def ChannelEntry.used (e : ChannelEntry) : List Term := e.terms.filter fun t => t.sensor != 0xFF

/-- Used cancellation terms: terms 4–7 (R92). -/
def ChannelEntry.cancel (e : ChannelEntry) : List Term :=
  (e.terms.drop 4).filter fun t => t.sensor != 0xFF

/-- The latched temperature of an input in 0.01 °C while it is valid (R77). -/
def RegFile.temp (m : RegFile) (t : Nat) : Option Int :=
  if t < 8 ∧ m.fld (F.MET_TEMP.VALID t) = 1 then some (m.fldInt (F.MET_TEMP.TEMP t)) else none

/-- ΔT of R78 in 0.01 K. -/
def RegFile.deltaT (m : RegFile) (tsense : Nat) (t0 : Int) : Int :=
  match m.temp tsense with | some v => v - t0 | none => 0

/-! ### One sample (R75 to R83) -/

/-- ±(2^23 − 1) LSB (R75). -/
def sampleMax : Int := 8388607

/-- Over-range: beyond ±(2^23 − 1), or a modulator overload (R75). -/
def RawSample.outOfRange (r : RawSample) : Bool := r.overload || decide (sampleMax < r.value.natAbs)

/-- The saturated sample (R75). An overloaded modulator saturates at the end its value lies towards. -/
def RawSample.x (r : RawSample) : Int :=
  if r.outOfRange then (if r.value < 0 then -sampleMax else sampleMax) else r.value

/-- x − o in units of 10^−10 LSB of Q1.23 (R78). -/
def residual (e : SensorEntry) (az x dt : Int) : Int :=
  (x - e.offset - az) * 10000000000 - e.ofsTc * dt * 8388608

/-- u in Q4.28 (R78). -/
def compensated (e : SensorEntry) (az x dt : Int) : Int :=
  roundDiv (residual e az x dt * e.gain * (10000000000000 + e.tc1 * dt * 10000 + e.tc2 * dt * dt) * 268435456)
    (8388608 * 10000000000 * 4194304 * 10000000000000)

/-- ±(2^31 − 1), the ends of Q16.16 (R79). -/
def ampMax : Int := 2147483647

/-- i_raw before saturation in Q16.16 A (R79). -/
def mixed (e : ChannelEntry) (u : List Int) : Int :=
  roundDiv (sumInt (fun t => t.coeff * u.getD t.sensor 0) e.used) 67108864

/-- The delayed value of the newest four samples, D = d/1024 (R80). -/
def lagrange (d : Int) (x : List Int) : Int :=
  let o := 1024
  let h0 := -((d - o) * (d - 2 * o) * (d - 3 * o))
  let h1 := 3 * (d * (d - 2 * o) * (d - 3 * o))
  let h2 := -3 * (d * (d - o) * (d - 3 * o))
  let h3 := d * (d - o) * (d - 2 * o)
  roundDiv (h0 * x.getD 0 0 + h1 * x.getD 1 0 + h2 * x.getD 2 0 + h3 * x.getD 3 0) 6442450944

/-- VCH in Q20.12 V (R81). -/
def voltage (e : VoltEntry) (x dt : Int) : Int :=
  clampInt (-2147483648) 2147483647
    (roundDiv ((x - e.offset) * (1000000000 + e.tc1 * dt) * e.scale) (8388608 * 1000000000))

/-- What one sample does to a channel: its state, i_d and ICH (R79, R80, R83). A sample missing from the delay history counts
as 0, and i_d is not saturated. [DESIGN CHOICE, log 170; unsafe] -/
def ChannelState.sample (c : ChannelState) (e : ChannelEntry) (g : Nat) (u : List Int) (inOver : Bool) :
    ChannelState × Int × Int :=
  let raw := mixed e u
  let hist := (clampInt (-ampMax) ampMax raw :: c.history).take 4
  let id := lagrange (1024 + e.delay) hist
  let out := roundDiv (id * g) 4194304
  let outOfRange := inOver || decide (ampMax < raw.natAbs) || decide (ampMax < out.natAbs)
  ({ c with history := hist, sumSq := c.sumSq + (id * id).natAbs, samples := c.samples + 1,
            outOfRange := c.outOfRange || outOfRange }, id, clampInt (-ampMax) ampMax out)

/-- The compensated values of all 48 sensors (R78). -/
def State.compensate (s : State) (p : SensorPlan) (x : List Int) : List Int :=
  (List.range 48).map fun i => match p.sensor i with
    | none => 0
    | some e => compensated e (s.regs.fldInt (F.MET_SENS_AZ.AZ i)) (x.getD i 0) (s.regs.deltaT e.tsense e.t0)

/-- A sensor's fault runs, residual sum and mean sum with one sample (R76, R87). -/
def SensorState.sample (c : SensorState) (r : RawSample) (e : Int) : SensorState :=
  { c with
    outRun := if r.cmOk then 0 else c.outRun + 1
    inRun := if r.cmOk then c.inRun + 1 else 0
    paceSum := c.paceSum + e
    paceSamples := c.paceSamples + 1
    meanSum := c.meanSum + r.x
    meanSamples := c.meanSamples + 1 }

/-- The sums of a refinement run with one sample of y and the used cancellation sensors (R92). -/
def RefineRun.sample (r : RefineRun) (u : List Int) (y : Int) : RefineRun :=
  { r with
    paceUu := r.paceUu.zipIdx.map fun e => e.1.zipIdx.map fun f => f.1 + u.getD e.2 0 * u.getD f.2 0
    paceUy := r.paceUy.zipIdx.map fun e => e.1 + u.getD e.2 0 * y
    paceYy := r.paceYy + y * y
    paceSamples := r.paceSamples + 1 }

/-- The over-range count and event of one input (R75). -/
def State.overRange (s : State) (i : Nat) : State :=
  let f := if i < 48 then F.MET_SENS_OVR_CNT.COUNT i else F.MET_VOLT_OVR_CNT.COUNT (i - 48)
  (s.bump f).post Ev.SENSOR_RANGE [b2 i]

/-- The inputs of one sample: over-range marks, fault runs and means, ready or not (R74 to R76). -/
def State.sampleInputs (s : State) (p : SensorPlan) (raw : List RawSample) : State :=
  let outOfRange := (List.range 56).filter fun i => match raw[i]? with | some r => r.outOfRange | none => false
  let sensors := (List.range 48).foldl (fun m i => match raw[i]? with
    | none => m
    | some r =>
      let e := match p.sensor i with
        | some q => residual q (s.regs.fldInt (F.MET_SENS_AZ.AZ i)) r.x (s.regs.deltaT q.tsense q.t0)
        | none => 0
      Map.set m i ((Map.findD m i {}).sample r e)) s.met.sensors
  outOfRange.foldl State.overRange { s with met := { s.met with
    sensors := sensors
    voltOver := s.met.voltOver ++ (outOfRange.filter fun i => 48 ≤ i).map (· - 48) } }

/-- Mixing, delay, gain and delivery of one sample (R79 to R83, R96). -/
def State.sampleChannels (s : State) (p : SensorPlan) (raw : List RawSample) : State :=
  let u := s.compensate p (raw.map RawSample.x)
  let results : List (Option ChannelState × Int × Int) := (List.range 12).map fun c => match p.channel c with
    | none => (none, (0 : Int), (0 : Int))
    | some e =>
      let inOver := e.used.any fun t => match raw[t.sensor]? with | some r => r.outOfRange | none => false
      let r := ({ Map.findD s.met.channels c {} with outOfRange := false } : ChannelState).sample e
        (s.fld (F.MET_CH_GAIN.GAIN c)) u inOver
      (some r.1, r.2.1, r.2.2)
  let channels := results.zipIdx.foldl (fun m r => match r.1.1 with
    | none => m
    | some x => Map.set m r.2 { x with outOfRange := x.outOfRange || (Map.findD m r.2 {}).outOfRange }) s.met.channels
  let seen := results.zipIdx.foldl (fun m r => match r.1.1 with
    | none => m
    | some x => if x.outOfRange then m.flag (F.MET_CH_STAT.OVR_SEEN r.2) true else m) s.regs
  let vnew := (List.range 8).map fun v => match p.volts[v]? with
    | some e => if e.enabled then voltage e ((raw.getD (48 + v) ⟨0, false, true⟩).x) (s.regs.deltaT e.tsense e.t0)
                else 0
    | none => 0
  let volts := vnew.zipIdx.foldl (fun m e => Map.set m e.2 ((e.1 :: Map.findD m e.2 []).take 2)) s.met.volts
  let vch := (List.range 8).map fun v => (Map.findD volts v []).getD 1 0
  let refine := s.met.refine.map fun r => match p.channel r.ch with
    | none => r
    | some e => r.sample (e.cancel.map fun t => u.getD t.sensor 0) ((results.getD r.ch (none, 0, 0)).2.1)
  { s with
    regs := seen
    met := { s.met with channels := channels, volts := volts, refine := refine,
                        delivered := s.met.delivered ++ [⟨results.map fun r => r.2.2, vch⟩] } }

/-- METROLOGY_SAMPLE: one sample of the 48 sensor and 8 voltage inputs (R96); no sample is delivered
before READY (R98). -/
def execMetrologySample (raw : List RawSample) (s : State) : Host.Outcome State Fault Refusal :=
  let p := s.sensorPlan
  let s1 := s.sampleInputs p raw
  .next (if s.fld F.MET_STAT.READY = 1 then s1.sampleChannels p raw else s1)

/-! ### Sensor faults (R76) -/

/-- SENSOR_FAULT: 32 consecutive samples were out of common-mode range. -/
def execSensorFault (i : Nat) (s : State) : Host.Outcome State Fault Refusal :=
  let c := Map.findD s.met.sensors i {}
  .next (if 32 ≤ c.outRun ∧ s.fld (F.MET_SENS_STAT.FAULT i) = 0 then
      ((s.flag (F.MET_SENS_STAT.FAULT i) true).flag (F.MET_SENS_STAT.FAULT_SEEN i) true).post
        Ev.SENSOR_FAULT []
    else s)

/-- SENSOR_FAULT_CLEAR: 1,000 paces of 32 samples within range. -/
def execSensorFaultClear (i : Nat) (s : State) : Host.Outcome State Fault Refusal :=
  let c := Map.findD s.met.sensors i {}
  .next (if 32000 ≤ c.inRun ∧ s.fld (F.MET_SENS_STAT.FAULT i) = 1 then
      s.flag (F.MET_SENS_STAT.FAULT i) false
    else s)

/-! ### The boundary (R77, R82 to R89, R92, R96) -/

/-- The temperature of a conversion in 0.01 °C: `rm` in 0.01 Ω (R77). -/
def TempEntry.celsius (e : TempEntry) (rm : Nat) : Option Int :=
  let shift := e.tOffset - 27315
  let t : Option Int :=
    if e.kind = 0 then
      if rm = 0 then none
      else
        let n : Int := 5963 * fracOne * e.betaAlpha
        let d : Int := 20 * fracOne * e.betaAlpha + 5963 * lnRatio rm e.nominalOhm
        if d ≤ 0 then none else some (roundDiv (100 * n + shift * d) d)
    else
      let d : Int := (e.nominalOhm : Int) * e.betaAlpha
      some (roundDiv (100000000 * ((rm : Int) - e.nominalOhm) + e.tOffset * d) d)
  match t with
  | none => none
  | some v => if -5500 ≤ v ∧ v ≤ 15000 then some v else none

/-- Step 1: the conversions of the pace are latched; `none` is an open or shorted input (R77). TEMP keeps its value while VALID
is 0. [DESIGN CHOICE, log 173; unsafe] -/
def State.latchTemps (s : State) (p : SensorPlan) (conv : List (Option Nat)) : State :=
  { s with regs := (List.range 8).foldl (fun m t => match p.temps[t]? with
      | none => m
      | some e =>
        if e.enabled then
          match (conv.getD t none).bind e.celsius with
          | some v => (m.flag (F.MET_TEMP.VALID t) true).setFInt (F.MET_TEMP.TEMP t) v
          | none => m.flag (F.MET_TEMP.VALID t) false
        else m) s.regs }

/-- M of a channel over its window, this pace included, in Q16.16 A (R82). -/
def ChannelState.formMag (c : ChannelState) (magwin : Nat) : ChannelState :=
  let window := ((c.sumSq, c.samples) :: c.window).take magwin
  let m := sqrtRound (sumNat Prod.fst window) (sumNat Prod.snd window)
  { c with window := window, magBefore := c.mag, mag := m, sumSq := 0, samples := 0 }

/-- Step 2: M of every channel (R82). -/
def State.formMags (s : State) (p : SensorPlan) : State :=
  let channels := (List.range 12).foldl (fun m c => match p.channel c with
    | none => m
    | some e => Map.set m c ((Map.findD m c {}).formMag e.magwin)) s.met.channels
  let regs := (List.range 12).foldl (fun r c => match p.channel c with
    | none => r
    | some e =>
      let m := (Map.findD channels c {}).mag
      (r.setF (F.MET_CH_MAG.MAG c) m).flag (F.MET_CH_STAT.ZERO c) (decide (m < e.zeroThr))) s.regs
  { s with met := { s.met with channels := channels }, regs := regs }

/-- The conditions of R84 that hold, as the bits of REASON. -/
def State.extrapReason (s : State) (p : SensorPlan) (e : ChannelEntry) (m : Nat) : Nat :=
  let sensors := e.used.filterMap fun t => p.sensors[t.sensor]?
  let temps := sensors.any fun q => q.tsense != 0xFF &&
    match s.regs.temp q.tsense with
    | some v => decide (v < e.calTmin) || decide (e.calTmax < v)
    | none => true
  let fault := e.used.any fun t => s.fld (F.MET_SENS_STAT.FAULT t.sensor) == 1
  (if e.calImax < m then 1 else 0) + (if e.zeroThr ≤ m ∧ m < e.calImin then 2 else 0) +
    (if temps then 4 else 0) + (if fault then 8 else 0)

/-- Step 3 for one channel (R84, R85). -/
def State.extrapChannel (p : SensorPlan) (s : State) (c : Nat) : State :=
  match p.channel c with
  | none => s
  | some e =>
    let m := (Map.findD s.met.channels c {}).mag
    let r := s.extrapReason p e m
    let before := s.fld (F.MET_CH_STAT.EXTRAP c)
    if r = 0 then s.flag (F.MET_CH_STAT.EXTRAP c) false
    else
      let peak := max m (s.fld (F.MET_CH_EXTRAP_PEAK.MAG c))
      let regs := ((((s.regs.flag (F.MET_CH_STAT.EXTRAP c) true).flag (F.MET_CH_STAT.EXTRAP_SEEN c) true).setF
          (F.MET_CH_STAT.REASON c) r).bump (F.MET_CH_EXTRAP_CNT.COUNT c) 1).setF
          (F.MET_CH_EXTRAP_PEAK.MAG c) peak
      let s1 : State := { s with regs := regs }
      if before = 0 then
        (s1.post Ev.EXTRAP [b2 c, b1 r, b8 m]).legalLog Ev.EXTRAP c (legalData [(0, 1, r * 16), (4, 4, m)])
      else s1

/-- The channels of a sensor's zero group (R86). -/
def SensorPlan.zeroGroup (p : SensorPlan) (i : Nat) (e : SensorEntry) : List Nat :=
  if e.zeroGroup = 0 then
    (List.range 12).filter fun c => match p.channel c with
      | some h => h.used.any fun t => t.sensor == i
      | none => false
  else (List.range 12).filter fun c => e.zeroGroup.testBit c

/-- R86: the zero window of a sensor may be open in the next pace. -/
def State.zeroHolds (s : State) (p : SensorPlan) (i : Nat) (e : SensorEntry) : Bool :=
  (p.zeroGroup i e).all fun c => match p.channel c with
    | some h => decide ((Map.findD s.met.channels c {}).mag < h.zeroThr) &&
        h.used.all fun t => s.fld (F.MET_SENS_STAT.FAULT t.sensor) == 0
    | none => true

/-- The mean d of a closing window as a fraction of Q1.23 LSB, where enough paces were averaged (R87). -/
def ZeroWindow.mean (w : ZeroWindow) (min : Nat) : Option (Int × Int) :=
  if min ≤ w.averaged ∧ 0 < w.samples then some (w.sum, (w.samples : Int) * 10000000000) else none

/-- An accepted estimate d = `n`/`den`: DRIFT, its alarm, and auto-zero (R87 to R89). -/
def State.acceptDrift (s : State) (i : Nat) (e : SensorEntry) (n den : Int) : State :=
  let az := s.regs.fldInt (F.MET_SENS_AZ.AZ i)
  let drift := roundDiv (az * den + n) den
  let alarm := decide (e.driftAlarm ≤ drift.natAbs)
  let s1 := { s with regs := s.regs.setFInt (F.MET_SENS_DRIFT.DRIFT i) drift }
  let s2 := if alarm then
      ((s1.flag (F.MET_SENS_STAT.DRIFT_ALARM i) true).post Ev.SENSOR_DRIFT [b2 i, b8 drift]).raiseItem
        ⟨7, 1, i, drift, e.driftAlarm⟩
    else s1
  if e.autoZero then
    let lim : Int := e.azLimit
    let new := clampInt (-lim) lim (roundDiv (4 * az * den + n) (4 * den))
    let clamp := decide (new.natAbs = e.azLimit)
    let was := s.fld (F.MET_SENS_STAT.AZ_LIMIT i) == 1
    let c := Map.findD s.met.sensors i {}
    let tell := decide ((e.azLimit : Int) ≤ 8 * (new - c.azRecorded).natAbs) || (clamp && !was)
    let sensors := if tell then Map.set s2.met.sensors i { c with azRecorded := new } else s2.met.sensors
    let s3 := { s2 with
      regs := (s2.regs.setFInt (F.MET_SENS_AZ.AZ i) new).flag (F.MET_SENS_STAT.AZ_LIMIT i) clamp
      met := { s2.met with sensors := sensors } }
    s3.postIf tell Ev.AUTO_ZERO []
  else s2

/-- A window closes: its estimate is accepted or discarded (R87). -/
def State.closeZero (s : State) (i : Nat) (e : SensorEntry) (w : ZeroWindow) : State :=
  match w.mean (s.fld F.MET_ZERO_CFG.MIN) with
  | none => s
  | some d => s.acceptDrift i e d.1 d.2

/-- The pace that ended is counted in an open window: it is averaged once the window outlasts it,
unless it is one of the first SETTLE (R87). -/
def ZeroWindow.addLast (w : ZeroWindow) : ZeroWindow :=
  { w with averaged := w.averaged + (if w.lastSamples = 0 then 0 else 1)
           samples := w.samples + w.lastSamples, sum := w.sum + w.lastSum
           lastSamples := 0, lastSum := 0 }

/-- The pace that ended becomes the newest pace of the window. -/
def ZeroWindow.addPace (w : ZeroWindow) (settle samples : Nat) (sum : Int) : ZeroWindow :=
  if w.paces < settle then { w with paces := w.paces + 1 }
  else { w.addLast with paces := w.paces + 1, lastSamples := samples, lastSum := sum }

/-- Writes a sensor's window and its flag ZERO_OPEN, and starts its sums of the next pace. -/
def State.setZero (s : State) (i : Nat) (w : Option ZeroWindow) : State :=
  let c := Map.findD s.met.sensors i {}
  { s with
    met := { s.met with sensors := Map.set s.met.sensors i { c with zero := w, paceSum := 0, paceSamples := 0 } }
    regs := s.regs.flag (F.MET_SENS_STAT.ZERO_OPEN i) w.isSome }

/-- Step 4 for one sensor (R86, R87). -/
def State.zeroSensor (p : SensorPlan) (s : State) (i : Nat) : State :=
  match p.sensor i with
  | none => s
  | some e =>
    let c := Map.findD s.met.sensors i {}
    let holds := s.zeroHolds p i e
    match c.zero with
    | none => s.setZero i (if holds then some {} else none)
    | some w =>
      if holds then
        s.setZero i (some (w.addPace (s.fld F.MET_ZERO_CFG.SETTLE) c.paceSamples c.paceSum))
      else (s.closeZero i e w.addLast).setZero i none

/-- Step 5: the sums of the pace join the run when M of this pace and the one before were below
ZERO_THR (R92). M before the first pace after READY counts as 0. [DESIGN CHOICE, log 172; unsafe] -/
def State.refineBoundary (s : State) (p : SensorPlan) : State :=
  match s.met.refine with
  | none => s
  | some r =>
    let c := Map.findD s.met.channels r.ch {}
    let thr := match p.channel r.ch with | some e => e.zeroThr | none => 0
    let clean := { r with paceUu := r.paceUu.map fun l => l.map fun _ => 0,
                          paceUy := r.paceUy.map fun _ => 0, paceYy := 0, paceSamples := 0 }
    if c.mag < thr ∧ c.magBefore < thr then
      { s with
        met := { s.met with refine := some { clean with
          uu := (r.uu.zip r.paceUu).map fun e => (e.1.zip e.2).map fun f => f.1 + f.2
          uy := (r.uy.zip r.paceUy).map fun f => f.1 + f.2
          yy := r.yy + r.paceYy
          samples := r.samples + r.paceSamples } }
        regs := s.regs.bump F.MET_REF_STAT.PACES 1 }
    else { s with met := { s.met with refine := some clean } }

/-- g for a magnitude: exact, then rounded to Q2.22 (R83). -/
def gainAt : List (Nat × Nat) → Nat → Nat
  | [], _ => 0
  | [b], _ => b.2
  | b :: c :: l, m =>
    if m ≤ b.1 then b.2
    else if m < c.1 then
      (roundDiv ((b.2 : Int) * (c.1 - b.1) + ((m : Int) - b.1) * ((c.2 : Int) - b.2)) ((c.1 : Int) - b.1)).toNat
    else gainAt (c :: l) m

/-- Step 6: g for the next pace, by the plan now in force (R83, R97). -/
def State.formGains (s : State) (p : SensorPlan) : State :=
  { s with regs := (List.range 12).foldl (fun r c => match p.channel c with
      | none => r
      | some e => r.setF (F.MET_CH_GAIN.GAIN c) (gainAt e.breakpoints (Map.findD s.met.channels c {}).mag)) s.regs }

/-- `MET_SENS_MEAN`: the mean of raw x over each completed block of 1,024 paces. -/
def State.meanBoundary (s : State) : State :=
  if s.met.meanPaces + 1 < 1024 then { s with met := { s.met with meanPaces := s.met.meanPaces + 1 } }
  else
    { s with
      met := { s.met with
        meanPaces := 0
        sensors := Map.mapVals (fun _ c => { c with meanSum := 0, meanSamples := 0 }) s.met.sensors }
      regs := s.met.sensors.foldl (fun r e =>
        r.setFInt (F.MET_SENS_MEAN.MEAN e.1) (roundDiv e.2.meanSum e.2.meanSamples)) s.regs }

/-- FRONT_END_BOUNDARY: steps 1 to 6 of R96. Steps 1 to 5 judge the pace that ended under the plan it
ran on, step 6 forms g under the plan now in force (R97). -/
def State.frontEndBoundary (s : State) (old : SensorPlan) (conv : List (Option Nat)) : State :=
  let since := if s.fld F.MET_STAT.LOCK = 1 then s.met.sinceLock + 1 else 0
  let s1 := { s with met := { s.met with sinceLock := since } }
  let s2 := (s1.latchTemps old conv).meanBoundary
  if s.fld F.MET_STAT.READY = 1 then
    let s3 := s2.formMags old
    let s4 := (List.range 12).foldl (State.extrapChannel old) s3
    let s5 := (List.range 48).foldl (State.zeroSensor old) s4
    (s5.refineBoundary old).formGains s.sensorPlan
  else s2

/-- M, g and the states of each channel, as the registers show them. -/
def State.channelPaces (s : State) : List ChannelPace :=
  (List.range 12).map fun c =>
    ⟨(Map.findD s.met.channels c {}).mag, s.fld (F.MET_CH_GAIN.GAIN c), (Map.findD s.met.channels c {}).outOfRange,
      s.fld (F.MET_CH_STAT.EXTRAP c) == 1, s.fld (F.MET_CH_STAT.ZERO c) == 1⟩

/-- What SAMPLES carries of the channels for the pace that ended (R393): g as it was in it, the rest as formed at its end. -/
def State.frontEndView (s : State) (old : SensorPlan) (conv : List (Option Nat)) : List ChannelPace :=
  (s.frontEndBoundary old conv).channelPaces.zipIdx.map fun e => { e.1 with gain := s.fld (F.MET_CH_GAIN.GAIN e.2) }

/-- METROLOGY_READY: 8 paces of samples since the clock locked, and every enabled TSENSE valid (R98). g of the first pace is
formed from M = 0 (R83). [DESIGN CHOICE, log 171; unsafe] -/
def execMetrologyReady (s : State) : Host.Outcome State Fault Refusal :=
  let p := s.sensorPlan
  let temps := p.temps.zipIdx.all fun e => !e.1.enabled || (s.regs.temp e.2).isSome
  .next (if s.fld F.MET_STAT.READY = 0 ∧ s.fld F.MET_STAT.LOCK = 1 ∧ 8 ≤ s.met.sinceLock ∧ temps = true then
      { s with
        regs := s.regs.flag F.MET_STAT.READY true
        met := { s.met with channels := [], volts := [], delivered := [], voltOver := [] } }
      |>.formGains p
    else s)

/-- ZERO_WINDOW_RESTART: a window open for 60,000 paces is closed, the pace whose end closes it left
out, and opened again (R86, R87). -/
def execZeroWindowRestart (i : Nat) (s : State) : Host.Outcome State Fault Refusal :=
  match s.sensorPlan.sensor i, (Map.findD s.met.sensors i {}).zero with
  | some e, some w =>
    .next (if 60000 ≤ w.paces then (s.closeZero i e w).setZero i (some {}) else s)
  | _, _ => .next s

/-! ### Refinement of the matrix (R92 to R95) -/

/-- A refinement run may start for this channel: it has a used cancellation term (R92). -/
def State.refineAllowed (s : State) (c : Nat) : Bool :=
  match s.sensorPlan.channel c with
  | some e => decide (c < 12) && !e.cancel.isEmpty
  | none => false

/-- Starts a run for channel `c`; a run that is collecting ends with STATE 6 (R92). -/
def State.refineStart (s : State) (c : Nat) : State :=
  let n := match s.sensorPlan.channels[c]? with | some e => e.cancel.length | none => 0
  let zero := List.replicate n (0 : Int)
  let zeros := List.replicate n zero
  { s with
    met := { s.met with refine := some ⟨c, zeros, zero, 0, 0, zeros, zero, 0, 0⟩ }
    regs := ((s.regs.setF F.MET_REF_STAT.STATE 1).setF F.MET_REF_STAT.CH c).setF F.MET_REF_STAT.PACES 0 }

/-- Ends a collecting run with a STATE (R94). -/
def State.refineEnd (s : State) (state : Nat) : State :=
  if s.met.refine.isSome then
    { s with met := { s.met with refine := none }, regs := s.regs.setF F.MET_REF_STAT.STATE state }
  else s

/-- The solution of R93 for term `k` of the used cancellation terms: COEFF − a in Q18.14. -/
def RefineRun.proposal (r : RefineRun) (coeff : Int) (k : Nat) : Int :=
  let d := det r.uu
  roundDiv (coeff * d - det (withColumn r.uu k r.uy) * 67108864) d

/-- The RMS of y − aᵀu in Q16.16 A (R93). -/
def RefineRun.rmsAfter (r : RefineRun) : Nat :=
  let d := det r.uu
  let e := r.yy * d - sumInt (fun e => det (withColumn r.uu e.2 r.uy) * e.1) r.uy.zipIdx
  sqrtRound e.toNat (d.toNat * r.samples)

/-- The reciprocal condition number of Σ u·uᵀ in whole millionths: 0 for a singular sum and 1 for a single term in every
norm (R93). -/
def reciprocalMillionths (a : List (List Int)) : Nat :=
  if det a = 0 then 0 else if a.length ≤ 1 then 1000000 else Config.reciprocalCondition a

/-- The STATE of a solved run (R93). -/
def RefineRun.state (r : RefineRun) (terms : List Term) : Nat :=
  let weak := r.uu.zipIdx.any fun e => decide ((e.1.getD e.2 0) * 1000000 < (r.samples : Int) * 72057594037927936)
  if weak then 3
  else if reciprocalMillionths r.uu < 1 then 4
  else if terms.zipIdx.any fun t =>
      let v := r.proposal t.1.coeff t.2
      decide (v < -2147483648) || decide (2147483647 < v) then 5
  else 2

/-- REFINE_SOLVE: the run has taken `MET_REF_MIN` paces (R93). -/
def execRefineSolve (s : State) : Host.Outcome State Fault Refusal :=
  match s.met.refine with
  | none => .next s
  | some r =>
    let e := s.sensorPlan.channels[r.ch]?
    let terms := match e with | some h => h.terms.drop 4 | none => []
    let used := terms.filter fun t => t.sensor != 0xFF
    if s.fld F.MET_REF_MIN.PACES ≤ s.fld F.MET_REF_STAT.PACES then
      let state := r.state used
      let prop := (List.range 4).map fun m => match terms[m]? with
        | some t => if t.sensor = 0xFF then 0
                    else r.proposal t.coeff ((terms.take m).filter fun q => q.sensor != 0xFF).length
        | none => 0
      let regs := s.regs.setF F.MET_REF_STAT.STATE state
      let regs := if state = 2 then
          ((prop.zipIdx.foldl (fun g e => g.setFInt (F.MET_REF_PROP.COEFF e.2) e.1) regs).setF
            F.MET_REF_RMS_BEFORE.RMS (sqrtRound r.yy.toNat r.samples)).setF F.MET_REF_RMS_AFTER.RMS r.rmsAfter
        else regs
      .next (({ s with met := { s.met with refine := none }, regs := regs } : State).post
        Ev.REFINE_DONE [b2 r.ch, b1 state])
    else .next s

end Sys2Proof.Machine
end

