-- ==== Sys2Proof/Machine/Metering.lean ====
section
/-! DEFINITION. Quantities, accumulators, direction, intervals, checkpoints and pulse outputs
(R100 to R123). -/

namespace Sys2Proof.Machine

/-- The QTY_PLAN in force; empty without an active image. -/
def State.qtyPlan (s : State) : QtyPlan :=
  match s.warp.active with
  | some w => w.qtyPlan
  | none => ⟨[], []⟩

/-- Point `n` where the plan enables it. -/
def QtyPlan.point (p : QtyPlan) (n : Nat) : Option PointEntry :=
  match p.points[n]? with | some e => if e.enabled then some e else none | none => none

/-- Pulse output `j` where the plan enables it. -/
def QtyPlan.pulse (p : QtyPlan) (j : Nat) : Option PulseEntry :=
  match p.pulses[j]? with | some e => if e.enabled then some e else none | none => none

/-! ### Sample values (R102, R103) -/

/-- N = ⌊Lf⌋ (chapter 05, Sample values). -/
def cycleLen (hz : Nat) : Nat := 32000 / hz

/-- W of a function of the newest N + 1 samples, rounded to nearest (R102). -/
def windowOf (hz : Nat) (f : Int × Int → Int) (vi : List (Int × Int)) : Int :=
  let n := cycleLen hz
  roundDiv (sumInt f (vi.take n) * hz + ((32000 : Int) - n * hz) * f (vi.getD n (0, 0))) 32000

/-- The twiddle factor e^(−jθm) in Q1.30 (R102). [DESIGN CHOICE, log 73; unsafe] -/
def twiddle (hz m : Nat) : Int × Int := (toQ30 (cosTurn (hz * m) 32000), -toQ30 (sinTurn (hz * m) 32000))

/-- The phasor sum of a function of the samples, times NOMINAL_HZ: real and imaginary parts (R102). -/
def phasor (hz k : Nat) (f : Int × Int → Int) (vi : List (Int × Int)) : Int × Int :=
  let n := cycleLen hz
  let weight (j : Nat) : Int := if j < n then hz else 32000 - n * hz
  (vi.take (n + 1)).zipIdx.foldl (fun z e =>
    let t := twiddle hz (k - e.2)
    let x := f e.1 * weight e.2
    (z.1 + x * t.1, z.2 + x * t.2)) (0, 0)

/-- The corrected values of one sample (R103): P', Q' and S' in 2^−28, Vr in Q20.12, Ir in Q16.16, i'. -/
structure SampleValues where
  p : Int
  q : Int
  s : Nat
  vr : Nat
  ir : Nat
  i : Int
  deriving DecidableEq, Repr

/-- round(x · GAIN) with GAIN in Q2.22 (R103). -/
def gained (x : Int) (g : Nat) : Int := roundDiv (x * g) 4194304

/-- The values of a sample of an AC point (R102, R103). -/
def acValues (e : PointEntry) (k : Nat) (vi : List (Int × Int)) : SampleValues :=
  let hz := e.nominalHz
  let v := phasor hz k Prod.fst vi
  let i := phasor hz k Prod.snd vi
  let q := roundDiv (2 * (v.2 * i.1 - v.1 * i.2)) (1024000000 * 1152921504606846976)
  let v2 := windowOf hz (fun x => x.1 * x.1) vi
  let i2 := windowOf hz (fun x => x.2 * x.2) vi
  let vr := (gained (sqrtRound v2.toNat 1) e.vGain).toNat
  let ir := (gained (sqrtRound i2.toNat 1) e.iGain).toNat
  ⟨gained (windowOf hz (fun x => x.1 * x.2) vi) e.pGain + e.pOfs * 1048576,
   gained q e.qGain + e.qOfs * 1048576, vr * ir, vr, ir, 0⟩

/-- The values of a sample of a DC point (R102, R103). -/
def dcValues (e : PointEntry) (v i : Int) : SampleValues :=
  ⟨gained (v * i) e.pGain + e.pOfs * 1048576, 0, 0, 0, 0, gained i e.iGain + e.iOfs⟩

/-! ### Accumulators and direction (R105 to R109) -/

/-- The quadrant accumulator of R107. -/
def quadrant (p q : Int) : Nat :=
  if 0 ≤ p then (if 0 < q then 2 else 5) else (if 0 < q then 3 else 4)

/-- The fine units one sample adds, by accumulator (R106, R109). -/
def increments (dc : Bool) (x : SampleValues) : List (Nat × Nat) :=
  (if x.p = 0 then [] else [(if 0 < x.p then 0 else 1, 5 * x.p.natAbs)]) ++
  (if dc then (if x.i = 0 then [] else [(if 0 < x.i then 7 else 8, 5 * x.i.natAbs)])
   else (if x.q = 0 then [] else [(quadrant x.p x.q, 5 * x.q.natAbs)]) ++
        (if x.s = 0 then [] else [(6, 5 * x.s)]))

/-- U of R109. -/
def fineUnit (a : Nat) : Nat := if a < 7 then 576 * 268435456 else 576 * 65536

/-- Adds fine units to an accumulator (R109). -/
def PointState.addFine (c : PointState) (a f : Nat) : PointState :=
  let t := c.res.getD a 0 + f
  { c with
    acc := setAt c.acc a (c.acc.getD a 0 + BitVec.ofNat 64 (t / fineUnit a))
    res := setAt c.res a (t % fineUnit a) }

/-- What an active sample does to D, its run and the reversal count (R108). -/
def PointState.direct (c : PointState) (imp : Bool) : PointState :=
  match c.dir with
  | some d =>
    if d = imp then { c with run := 0, runDir := imp }
    else if c.run + 1 < 32 then { c with run := c.run + 1, runDir := imp }
    else { c with dir := some imp, run := 0, runDir := imp, revCount := min 65535 (c.revCount + 1) }
  | none =>
    let run := if c.run = 0 ∨ c.runDir = imp then c.run + 1 else 1
    if run < 32 then { c with run := run, runDir := imp }
    else { c with dir := some imp, run := 0, runDir := imp }

/-- Registration of one sample outside creep (R106 to R109). -/
def PointState.register (c : PointState) (dc : Bool) (x : SampleValues) : PointState :=
  let c1 := (increments dc x).foldl (fun c f => c.addFine f.1 f.2) c
  if x.p = 0 then c1 else c1.direct (decide (0 < x.p))

/-- A point in the course of one pace: state, windows, fine units by accumulator, and the last
values; with the DC sums of the pace. -/
structure PointRun where
  state : PointState
  win : PointWindow
  fine : List Nat
  last : SampleValues
  sumP : Int
  sumV : Int
  sumI : Int
  sumV2 : Nat
  sumI2 : Nat
  count : Nat
  deriving DecidableEq, Repr

/-- A positive-going zero crossing between two samples, as a fraction of sample time (R104). -/
def crossing (k : Nat) (before now : Int) : Option (Int × Int) :=
  if before < 0 ∧ 0 ≤ now ∧ 0 < k then some (((k : Int) - 1) * (now - before) - before, now - before) else none

/-- The windows with one sample (R102, R104); k counts the samples since the windows last held zeros.
[DESIGN CHOICE, log 152; unsafe] -/
def PointWindow.sample (w : PointWindow) (e : PointEntry) (v i : Int) : PointWindow :=
  let keep := if e.dc then 1 else cycleLen e.nominalHz + 1
  let cross := match crossing (w.k + 1) (w.vi.getD 0 (0, 0)).1 v with
    | some t => (t :: w.crossings).take 13
    | none => w.crossings
  { w with vi := ((v, i) :: w.vi).take keep, k := w.k + 1
           crossings := if e.dc then [] else cross
           thd := if e.dc then [] else ((v, i) :: w.thd).take 6400 }

/-- One delivered sample of a point (R101 to R103, R105 to R109). -/
def PointRun.sample (e : PointEntry) (n : Nat) (creep : Bool) (r : PointRun) (d : Delivered) : PointRun :=
  let i0 := d.ich.getD n 0
  let i := if e.invert then -i0 else i0
  let v := if e.vch = 0xFF then 0 else d.vch.getD e.vch 0
  let win := r.win.sample e v i
  let x := if e.dc then dcValues e v i else acValues e win.k win.vi
  let st := if creep then r.state else r.state.register e.dc x
  let fine := if creep then r.fine
    else (increments e.dc x).foldl (fun l f => setAt l f.1 (l.getD f.1 0 + f.2)) r.fine
  ⟨{ st with
      samples := st.samples + 1
      sumV2 := st.sumV2 + (v * v).natAbs
      sumI2 := st.sumI2 + (i * i).natAbs
      sumV := if e.dc then st.sumV + v else st.sumV
      sumI := if e.dc then st.sumI + x.i else st.sumI },
   win, fine, x, r.sumP + x.p, r.sumV + v, r.sumI + x.i,
   r.sumV2 + (v * v).natAbs, r.sumI2 + (i * i).natAbs, r.count + 1⟩

/-! ### Pace values (R104) -/

/-- FREQ in mHz from the newest crossings, before its validity is judged (R104). -/
def rawFreq (hz : Nat) (xs : List (Int × Int)) : Nat :=
  let cycles := if hz = 60 then 12 else 10
  match xs.head?, xs[cycles]? with
  | some a, some b => (roundDiv (32000000 * cycles * a.2 * b.2) (a.1 * b.2 - b.1 * a.2)).toNat
  | _, _ => 0

/-- FREQ, 0 where it is not valid (R104). -/
def freqOf (e : PointEntry) (vr : Nat) (c : List (Int × Int)) : Nat :=
  let f := rawFreq e.nominalHz c
  if e.vmin ≤ vr ∧ 40000 ≤ f ∧ f ≤ 80000 then f else 0

/-- The squared magnitude of harmonic `h` over a THD window, scaled (R104). -/
def harmonic (hz h : Nat) (x : List Int) : Nat :=
  let z := x.zipIdx.foldl (fun (z : Int × Int) e =>
    (z.1 + e.1 * cosTurn (h * hz * e.2) 32000, z.2 + e.1 * sinTurn (h * hz * e.2) 32000)) (0, 0)
  (z.1 * z.1 + z.2 * z.2).natAbs

/-- THD in 0.01 % over a completed window (R104). -/
def thdOf (hz : Nat) (x : List Int) : Nat :=
  let one := harmonic hz 1 x
  let rest := sumNat (fun h => harmonic hz (h + 2) x) (List.range 39)
  if one = 0 then Config.thdWithoutFundamental rest else sqrtRound (100000000 * rest) one

/-- A number of 2^−28 units in whole units, rounded, saturating to 32 bits signed (R104). -/
def wholeUnits (v : Int) : Int := clampInt (-2147483648) 2147483647 (roundDiv v 268435456)

/-- The pace values 0x10 to 0x19 of a point at the end of a pace; THD holds its last value (R104). -/
def paceValues (e : PointEntry) (r : PointRun) (thdV thdI : Nat) : List Int :=
  let n : Int := r.count
  let v : Nat := if e.dc then (gained (sqrtRound r.sumV2 r.count) e.vGain).toNat else r.last.vr
  let i : Nat := if e.dc then (gained (sqrtRound r.sumI2 r.count) e.iGain).toNat else r.last.ir
  if e.dc then
    [wholeUnits (roundDiv r.sumP n), 0, 0, v, i, 0, 0, 0, gained (roundDiv r.sumV n) e.vGain, roundDiv r.sumI n]
  else
    [wholeUnits r.last.p, wholeUnits r.last.q, min 4294967295 (roundDiv r.last.s 268435456), v, i,
     freqOf e v r.win.crossings, thdV, thdI, 0, 0]

/-! ### Pulses (R118 to R120) -/

/-- The most pulses a remainder gives before PENDING is full, and the rest (R118). -/
def PulseState.feed (c : PulseState) (e : PulseEntry) (f : Nat) : PulseState :=
  let k := 1000000000 * fineUnit e.acc
  let r := c.r.toNat + f * e.const
  let n := min (r / k) (65535 - c.due)
  { c with r := BitVec.ofNat 96 (r - n * k), due := c.due + n }

/-- Feeds the outputs that follow a point (R118); PENDING reaching 65,535 is recorded (R120). -/
def State.feedPulses (s : State) (p : QtyPlan) (n : Nat) (fine : List Nat) : State :=
  (List.range 16).foldl (fun t j => match p.pulse j with
    | none => t
    | some e =>
      if e.mp = n then
        let c := Map.findD t.qty.pulses j {}
        let c1 := c.feed e (fine.getD e.acc 0)
        let full := decide (c.due < 65535) && decide (c1.due = 65535)
        let regs := t.regs.setF (F.QTY_PULSE_STAT.PENDING j) c1.due
        let t1 := { t with
          qty := { t.qty with pulses := Map.set t.qty.pulses j c1 }
          regs := if full then regs.flag (F.QTY_PULSE_STAT.BACKLOG j) true else regs }
        t1.postIf full Ev.PULSE_BACKLOG [b8 j]
      else t) s

/-! ### LEGAL_MET of one pace (R122) -/

/-- The quality bits of R144. -/
def Q.VALID : Nat := 0
def Q.ESTIMATED : Nat := 1
def Q.LATE : Nat := 2
def Q.DUP : Nat := 3
def Q.CLOCK_ADJ : Nat := 4
def Q.PF_GAP : Nat := 5
def Q.REVERSED : Nat := 6
def Q.EXTRAP : Nat := 7
def Q.TAMPER : Nat := 8
def Q.OVERFLOW : Nat := 9
def Q.GAP : Nat := 10
def Q.DEFAULT_RATE : Nat := 11
def Q.SET_BACK : Nat := 12
def Q.UNAUTH : Nat := 13
def Q.REPLACED : Nat := 14
def Q.TIME_DEGRADED : Nat := 15

/-- A quality word with a flag set where the condition holds (R144). -/
def qset (q : BitVec 16) (bit : Nat) (c : Bool := true) : BitVec 16 :=
  if c then q ||| BitVec.ofNat 16 (2 ^ bit) else q

/-- Whether a flag of a quality word is set (R144). -/
def qget (q : BitVec 16) (bit : Nat) : Bool := q.getLsbD bit

/-- Whether the channel of a point counted as over-range in the pace that ended (R75): the channel
itself, or its voltage input. -/
def State.pointOver (s : State) (e : PointEntry) (n : Nat) : Bool :=
  (Map.findD s.met.channels n {}).outOfRange || s.met.voltOver.contains e.vch

/-- Whether an accumulator is valid for a coupling (R104). -/
def accValid (dc : Bool) (a : Nat) : Bool := decide (a < 2) || (if dc then decide (7 ≤ a) else decide (a ≤ 6))

/-- The copies of a point's state in the QTY registers; a code that is not valid for the coupling reads 0 (R104). -/
def State.showPoint (s : State) (n : Nat) (dc : Bool) (c : PointState) : State :=
  { s with regs := (c.acc.zipIdx.foldl (fun r a =>
        r.put64 (R.QTY_ACC_LO n a.2) (if accValid dc a.2 then a.1.toNat else 0)) s.regs)
      |>.setF (F.QTY_REV_CNT.COUNT n) c.revCount
      |>.flag (F.QTY_MP_STAT.DIR_VALID n) c.dir.isSome
      |>.flag (F.QTY_MP_STAT.DIR n) (c.dir == some false) }

/-- Steps 1 and 2 of R122 for one point: the samples of the pace that ended, and its pace values. -/
def State.meterPoint (s : State) (plan : QtyPlan) (n : Nat) : State :=
  match plan.point n with
  | none => s
  | some e =>
    let held := Map.findD s.qty.points n {}
    let old := if held.lost then
        { held with
          lost := false, quality := qset (qset held.quality Q.PF_GAP) Q.GAP, pfBound := 0xFFFFFFFFFFFFFFFF }
      else held
    let win := Map.findD s.qty.windows n {}
    let creep := decide ((Map.findD s.met.channels n {}).magBefore < e.startI)
    let r0 : PointRun := ⟨old, win, List.replicate 9 0, ⟨0, 0, 0, 0, 0, 0⟩, 0, 0, 0, 0, 0, 0⟩
    let r := s.met.delivered.foldl (PointRun.sample e n creep) r0
    let ends := !e.dc && s.now % 200 == 0
    let whole := ends && r.win.thd.length == 6400
    let thdV := if whole then thdOf e.nominalHz (r.win.thd.map Prod.fst) else s.fld (F.QTY_INST.VALUE n 6)
    let thdI := if whole then thdOf e.nominalHz (r.win.thd.map Prod.snd) else s.fld (F.QTY_INST.VALUE n 7)
    let vals := paceValues e r thdV thdI
    let freq := (vals.getD 5 0).toNat
    let c := { r.state with
      paces := r.state.paces + 1
      freqSum := r.state.freqSum + freq
      freqPaces := r.state.freqPaces + (if freq = 0 then 0 else 1)
      thdSumV := r.state.thdSumV + (if whole then thdV else 0)
      thdSumI := r.state.thdSumI + (if whole then thdI else 0)
      thdWindows := r.state.thdWindows + (if whole then 1 else 0)
      quality := qset (qset r.state.quality Q.EXTRAP (s.fld (F.MET_CH_STAT.EXTRAP n) == 1))
        Q.OVERFLOW (s.pointOver e n) }
    let regs := (vals.zipIdx.foldl (fun g x => g.setFInt (F.QTY_INST.VALUE n x.2) x.1) s.regs)
      |>.flag (F.QTY_MP_STAT.CREEP n) creep
      |>.flag (F.QTY_MP_STAT.FREQ_VALID n) (freq != 0)
    let regs := if old.revCount < c.revCount then regs.flag (F.QTY_MP_STAT.REV_SEEN n) true else regs
    let s1 := { s with
      regs := regs
      qty := { s.qty with
        points := Map.set s.qty.points n c
        windows := Map.set s.qty.windows n { r.win with thd := if ends then [] else r.win.thd } } }
    (s1.showPoint n e.dc c).feedPulses plan n r.fine

/-- LEGAL_MET_PACE: the samples of the pace that ended go into the accumulators under the plan it ran
on (R121, R122); with no sample delivered no pace is processed. -/
def State.legalMetPace (s : State) (plan : QtyPlan) : State :=
  let s1 := if s.met.delivered.isEmpty then s.flag F.QTY_STAT.METERING false
    else (List.range 12).foldl (fun t n => t.meterPoint plan n)
      (({ s with qty := { s.qty with driven := true } } : State).flag F.QTY_STAT.METERING true)
  { s1 with met := { s1.met with
      delivered := []
      voltOver := []
      channels := Map.mapVals (fun _ c => { c with outOfRange := false }) s1.met.channels } }

/-! ### Intervals (R110 to R113) -/

/-- The record of an interval that closes (R111, R112). -/
def PointState.record (c : PointState) (e : PointEntry) (n : Nat) : IntervalRecord :=
  { mp := n, intervalMin := e.intervalMin
    quality := qset (qset c.quality Q.VALID) Q.REVERSED (decide (1 ≤ c.revCount))
    revCount := c.revCount, start := c.start, paces := c.paces
    delta := (c.acc.zip c.accStart).map fun a => (a.1 - a.2).toNat
    pfBound := c.pfBound
    vRms := (gained (sqrtRound c.sumV2 c.samples) e.vGain).toNat
    iRms := (gained (sqrtRound c.sumI2 c.samples) e.iGain).toNat
    freq := if c.freqPaces = 0 then 0 else (roundDiv c.freqSum c.freqPaces).toNat
    thdV := min 65535 (roundDiv c.thdSumV c.thdWindows).toNat
    thdI := min 65535 (roundDiv c.thdSumI c.thdWindows).toNat
    vMean := if e.dc then gained (roundDiv c.sumV c.samples) e.vGain else 0
    iMean := if e.dc then roundDiv c.sumI c.samples else 0 }

/-- A point with a fresh interval that begins at `start` and ends at `finish` (R110). -/
def PointState.begin (c : PointState) (start finish : Nat) (gap : Bool) : PointState :=
  { c with
    accStart := c.acc, start := start, finish := finish
    quality := qset 0 Q.GAP gap, pfBound := 0, revCount := 0
    paces := 0, samples := 0, sumV2 := 0, sumI2 := 0, sumV := 0, sumI := 0
    freqSum := 0, freqPaces := 0, thdSumV := 0, thdSumI := 0, thdWindows := 0 }

/-- Device time in whole seconds. -/
def State.timeSec (s : State) : Nat := s.clk.ns / 1000000000

/-- Closes and exports the interval in progress of a point, with flags added to its quality word, and
begins the next at `start` (R110, R111). Before READY the successor carries GAP (R113). -/
def State.closeInterval (s : State) (e : PointEntry) (n : Nat) (flags : BitVec 16) (start finish : Nat) : State :=
  let c := Map.findD s.qty.points n {}
  let c1 := { c with quality := c.quality ||| flags }
  let rec_ := c1.record e n
  let gap := s.fld F.MET_STAT.READY == 0
  let next := { c1.begin start finish gap with last := some rec_ }
  let regs := s.regs.setF (F.QTY_REV_CNT.COUNT n) 0
  ({ s with
    regs := if qget rec_.quality Q.PF_GAP then regs.flag (F.QTY_MP_STAT.PF_GAP_SEEN n) true else regs
    qty := { s.qty with points := Map.set s.qty.points n next, closed := true } } : State).export_ (.interval rec_)

/-- The interval of a point closes when device time has reached its end (R110). -/
def State.intervalDue (plan : QtyPlan) (s : State) (n : Nat) : State :=
  match plan.point n with
  | none => s
  | some e =>
    let c := Map.findD s.qty.points n {}
    let len := 60 * e.intervalMin
    let start := s.timeSec / len * len
    if c.finish * 1000000000 ≤ s.clk.ns ∧ 0 < c.finish then s.closeInterval e n 0 start (start + len) else s

/-- Step 3 of R122: every interval whose end is reached. -/
def State.intervalsDue (s : State) (plan : QtyPlan) : State := (List.range 12).foldl (State.intervalDue plan) s

/-- INTERVAL_CLOSE: step 3 of R122 for one point, once the last pace of the interval has been processed (R110). -/
def execIntervalClose (n : Nat) (s : State) : Host.Outcome State Fault Refusal :=
  .next (if s.qty.stage = .met then s.intervalDue s.qtyPlan n else s)

/-! ### Checkpoints (R114, R117) -/

/-- A part that read back wrong twice is counted and recorded (R117): 0 point part, 1 pulse part, 2 legal tariff
record. -/
def State.partFailed (s : State) (seq : Nat) (bad : Bool) (part : Nat) : State :=
  if bad then ({ s with
      regs := (s.regs.bump F.QTY_CKPT_FAIL.COUNT 1).flag F.QTY_STAT.CKPT_FAIL_SEEN true } : State).post
        Ev.CKPT_FAIL [b4 seq, b8 part]
  else s

/-- Writes a checkpoint to the copy whose turn it is; `bad` names the parts that read back wrong twice: 0 point, 1 pulse
(R114, R117). -/
def State.writeCheckpoint (s : State) (final : Bool) (bad : List Nat) : State :=
  let seq := s.qty.seq + 1
  let second := if s.qty.same then s.qty.second else !s.qty.second
  let ck : Checkpoint := ⟨seq, final, s.now, s.clk.ns, s.qty.points, s.qty.pulses, !bad.contains 0, !bad.contains 1⟩
  let regs := (s.regs.setF F.QTY_CKPT_SEQ.SEQ seq).setF F.QTY_CKPT_PACE.PACE s.now
  let s1 := { s with
    tar := { s.tar with dirty := true }
    qty := { s.qty with
      seq := seq, second := second, same := bad.contains 0 || bad.contains 1, closed := false
      copies := if second then (s.qty.copies.1, some ck) else (some ck, s.qty.copies.2) }
    regs := regs }
  (s1.partFailed seq (bad.contains 0) 0).partFailed seq (bad.contains 1) 1

/-- R114: a checkpoint is due in step 4 of this pace. -/
def State.checkpointDue (s : State) : Bool := s.qty.closed || s.now % 16 == 0

/-! ### Pulse outputs (R119, R121) -/

/-- A pace boundary at every output: paces left in the phase fall, and PENDING as it stands before the samples of the pace
that ended are processed decides on an emission (R119). -/
def State.tickPulses (s : State) : State :=
  { s with qty := { s.qty with
    pulses := Map.mapVals (fun _ c => { c with left := c.left - 1, ready := decide (0 < c.due) }) s.qty.pulses } }

/-- An edge on a pulse output, high-impedance until the outputs are driven (R291). -/
def State.drive (s : State) (j : Nat) (on : Bool) : State := if s.qty.driven then s.send (.pulse j on) else s

/-- A pulse in progress counts as emitted, and every output is inactive; a changed entry's r and PENDING become 0 (R119,
R121, R414). -/
def State.stopPulses (s : State) : State :=
  let stop (_ : Nat) (c : PulseState) : PulseState :=
    if c.clear then { c with phase := .idle, left := 0, ready := false, r := 0, due := 0, clear := false }
    else { c with phase := .idle, left := 0, ready := false }
  let pulses := Map.mapVals stop s.qty.pulses
  let on := (s.qty.pulses.filter fun e => decide (e.2.phase = .asserted)).map fun e => e.1
  on.foldl (fun (t : State) j => t.drive j false) { s with
    qty := { s.qty with pulses := pulses }
    regs := (List.range 16).foldl (fun (r : RegFile) j =>
      (r.flag (F.QTY_PULSE_STAT.ASSERTED j) false).setF (F.QTY_PULSE_STAT.PENDING j) (Map.findD pulses j {}).due) s.regs }

/-- PULSE_EMIT: at a boundary at which the output is idle and PENDING is above 0 (R119); an output of sealed cores that do
not run stays idle (R216). -/
def execPulseEmit (j : Nat) (s : State) : Host.Outcome State Fault Refusal :=
  match s.qtyPlan.pulse j with
  | none => .next s
  | some e =>
    let c := Map.findD s.qty.pulses j {}
    .next (if c.phase = .idle ∧ c.ready ∧ 0 < c.due ∧ s.fld F.LEG_STAT.RUN = 1 then
        State.drive (j := j) (on := true) { s with
          qty := { s.qty with pulses := Map.set s.qty.pulses j { c with due := c.due - 1, phase := .asserted, left := e.widthMs, ready := false } }
          regs := ((s.regs.flag (F.QTY_PULSE_STAT.ASSERTED j) true).setF (F.QTY_PULSE_STAT.PENDING j) (c.due - 1)).setF
            (F.QTY_PULSE_CNT.COUNT j) ((s.fld (F.QTY_PULSE_CNT.COUNT j) + 1) % 4294967296) }
      else s)

/-- PULSE_WIDTH_END: after w paces asserted the gap begins, after w more the output is idle (R119); a
changed entry clears r and PENDING once the pulse ends (R121). The gap takes w of the entry in force as it begins, 0 where
none enables the output. [DESIGN CHOICE, log 151; unsafe] -/
def execPulseWidthEnd (j : Nat) (s : State) : Host.Outcome State Fault Refusal :=
  let c := Map.findD s.qty.pulses j {}
  let w := match s.qtyPlan.pulse j with | some e => e.widthMs | none => 0
  .next (if c.left ≠ 0 ∨ c.phase = .idle then s
    else if c.phase = .asserted then
      let c1 := if c.clear then { c with phase := .gap, left := w, r := 0, due := 0, clear := false }
                else { c with phase := .gap, left := w }
      State.drive (j := j) (on := false) { s with
        qty := { s.qty with pulses := Map.set s.qty.pulses j c1 }
        regs := (s.regs.flag (F.QTY_PULSE_STAT.ASSERTED j) false).setF (F.QTY_PULSE_STAT.PENDING j) c1.due }
    else { s with qty := { s.qty with pulses := Map.set s.qty.pulses j { c with phase := .idle } } })

end Sys2Proof.Machine
end

