-- ==== Sys2Proof/Machine/Tariff.lean ====
section
/-! DEFINITION. LEGAL_TAR: rates, rate registers, demand, billing boundaries and the legal tariff record
of the metering points (R174 to R196). -/

namespace Sys2Proof.Machine

/-! ### Bindings -/

/-- The LEGAL section of the active image. -/
def State.legal (s : State) : Option LegalSection := s.warp.active.map WarpImage.legal

/-- The calendar of an enabled point, if LEGAL names one (R174). -/
def State.mpCal (s : State) (n : Nat) : Option Nat :=
  match s.qtyPlan.point n, s.legal with
  | some _, some l => let c := l.mpCal.getD n 0xFF; if c ≤ 63 then some c else none
  | _, _ => none

/-- The enabled points bound to a calendar. -/
def State.pointsOf (s : State) (c : Nat) : List Nat := (List.range 12).filter fun n => s.mpCal n == some c

/-- The calendars bound to a point. -/
def State.boundCals (s : State) : List Nat := (List.range 64).filter fun c => !(s.pointsOf c).isEmpty

/-- The sets of a bound calendar as the sealed firmware holds them. -/
def State.sealedCal (s : State) (c : Nat) : Calendar := Map.findD s.tar.sets c {}

/-- The sets of a calendar in the BILLING namespace. -/
def State.storedCal (s : State) (c : Nat) : Calendar := Map.findD s.tar.cals c {}

/-- The active set of a point's calendar. -/
def State.pointSet (s : State) (n : Nat) : Option CalSet :=
  match s.mpCal n with | none => none | some c => (s.sealedCal c).active

/-- The tariff state of a point. -/
def State.tarPoint (s : State) (n : Nat) : PointTar := Map.findD s.tar.points n {}

/-- `TAR_STAT.READY`. -/
def State.tarReady (s : State) : Bool := s.fld F.TAR_STAT.READY == 1

/-! ### Registers of a point and a calendar -/

/-- Copies of a point's tariff state in the TAR registers. -/
def showTar (r : RegFile) (n : Nat) (p : PointTar) : RegFile :=
  let r1 := p.reg.zipIdx.foldl (fun r v => r.put64 (R.TAR_MP_REG_LO n (v.2 / 4) (v.2 % 4)) v.1.toNat) r
  let r2 := p.dmax.zipIdx.foldl (fun r d =>
    (r.setF (F.TAR_MP_DMAX.VALUE n d.2) (min d.1.value 4294967295)).setF (F.TAR_MP_DMAX_END.END n d.2) d.1.finish) r1
  (((r2.setF (F.TAR_MP_RATE.RATE n) p.rate).flag (F.TAR_MP_RATE.DEFAULT n) p.defaulted).setF
    (F.TAR_MP_RATE.BILL_NO n) p.billNo).setF (F.TAR_MP_BN.BN n) p.bn.toNat

/-- Writes the tariff state of a point. -/
def State.setTar (s : State) (n : Nat) (p : PointTar) : State :=
  { s with tar := { s.tar with points := Map.set s.tar.points n p }, regs := showTar s.regs n p }

/-- Writes the sets of a calendar in the BILLING namespace, with its registers. -/
def State.setCal (s : State) (c : Nat) (k : Calendar) : State :=
  { s with
    tar := { s.tar with cals := Map.set s.tar.cals c k }
    regs := (((s.regs.flag (F.TAR_CAL_STAT.ACTIVE c) k.active.isSome).flag (F.TAR_CAL_STAT.PENDING c)
        k.passive.isSome).setF (F.TAR_CAL_STAT.GEN c) ((k.active.map calGen).getD 0)).setF
      (F.TAR_CAL_ACT.ACTIVATE c) ((k.passive.map calActivate).getD 0) }

/-! ### Step 1: registration (R183) -/

/-- The increase of an accumulator since A_reg, and whether it is still behind (R183, R196). -/
def regStep (a aReg : BitVec 64) (behind : Bool) : BitVec 64 × BitVec 64 × Bool :=
  if behind && decide (a.toNat ≤ aReg.toNat) then (0, aReg, true) else (a - aReg, a, false)

/-- The accumulators of register kind k (R183). -/
def kindAccs (dc : Bool) : Nat → List Nat
  | 0 => [0]
  | 1 => [1]
  | 2 => if dc then [7] else [2, 3]
  | _ => if dc then [8] else [4, 5]

/-- Registers the accumulators of a point at its rate (R183). -/
def PointTar.register (p : PointTar) (dc : Bool) (acc : List (BitVec 64)) (rate : Nat) : PointTar × Nat :=
  let st := (List.range 9).map fun a => regStep (acc.getD a 0) (p.aReg.getD a 0) (p.behind.getD a false)
  let inc (k : Nat) : BitVec 64 := (kindAccs dc k).foldl (fun x a => x + (st.getD a (0, 0, false)).1) 0
  ({ p with
    aReg := st.map fun x => x.2.1
    behind := st.map fun x => x.2.2
    reg := (List.range 4).foldl (fun l k => setAt l (4 * rate + k) (l.getD (4 * rate + k) 0 + inc k)) p.reg },
   (inc 0).toNat)

/-- A flag of R186: 0 PF, 1 SET_BACK, 2 STEPPED, 3 DEFAULT. -/
def tarFlag (i : Nat) : BitVec 8 := BitVec.ofNat 8 (2 ^ i)

/-- Step 1 of R192 for a point: the pace that ended goes to the rate selected for it, and its import
energy to its sub-period; a pace at a default rate marks its interval and its sub-period (R180, R186). -/
def State.registerPace (plan : QtyPlan) (s : State) (n : Nat) : State :=
  match plan.point n with
  | none => s
  | some e =>
    let c := Map.findD s.qty.points n {}
    let p := s.tarPoint n
    let (p1, imp) := p.register e.dc c.acc p.rate
    let mark : BitVec 8 := if p.defaulted then tarFlag 3 else 0
    let p2 := { p1 with
      subEnergy := p.subEnergy + (if p.subEnd.isSome then imp else 0)
      subFlags := p.subFlags ||| mark
      subPaces := p.subPaces + 1
      seen := if p.defaulted then p.seen ||| tarFlag 2 else p.seen }
    let s1 := s.setTar n p2
    let c1 := { c with quality := qset c.quality Q.DEFAULT_RATE p.defaulted }
    { s1 with qty := { s1.qty with points := Map.set s1.qty.points n c1 } }

/-! ### Step 3: boundaries -/

/-- DMAX with a window value: only a larger value replaces (R186). -/
def dmaxOffer (l : List Dmax) (rate : Nat) (d : Dmax) : List Dmax :=
  if (l.getD rate {}).value < d.value then setAt l rate d else l

/-- Ends the sub-period in progress at second `t` and forms the value of the window ending with it,
where all its sub-periods were collected (R186). -/
def PointTar.closeSub (p : PointTar) (c : CalSet) (t : Nat) : PointTar :=
  let subs := calSubs c
  let all := (⟨p.subEnergy, p.subFlags⟩ : SubPeriod) :: p.chain
  if subs ≤ all.length then
    let win := all.take subs
    let e := win.foldl (fun n x => n + x.energy) 0
    let f := win.foldl (fun n x => n ||| x.flags) (0 : BitVec 8)
    { p with
      chain := all.take (subs - 1)
      dmax := dmaxOffer p.dmax p.subRate ⟨e * 60 / (calDemandMin c * 1000000), t, f⟩
      bn := p.bn + 1 }
  else { p with chain := all.take (subs - 1) }

/-- The multiple of a length in minutes at which the pace of `ns` begins, or the next one (R186): demand collects only from
the start of a sub-period. -/
def subStart (minutes ns : Nat) : Nat :=
  let len := 60 * minutes
  let k := ns / (len * 1000000000)
  if ns % (len * 1000000000) < 1000000 then k * len else (k + 1) * len

/-- Demand collects from the sub-period that holds second `t` on; a break in time ends the chain. -/
def PointTar.openSub (p : PointTar) (c : CalSet) (t last : Nat) : PointTar :=
  let len := 60 * calLs c
  let next := (t / len + 1) * len
  { p with
    resume := 0, subEnd := some next, subEnergy := 0, subFlags := 0, subPaces := 0, subRate := p.rate
    chain := if next = last + len then p.chain else [] }

/-- (a) of R192: the sub-period of a point that ends at `t` closes. -/
def State.demandClose (s : State) (n t : Nat) : State :=
  let p := s.tarPoint n
  match s.pointSet n with
  | none => s.setTar n { p with subEnd := none, chain := [] }
  | some c =>
    let s1 := s.setTar n ((p.closeSub c t).openSub c s.timeSec t)
    { s1 with tar := { s1.tar with dirty := true } }

/-- A set becomes active: the former active set is superseded (R177). -/
def Calendar.activate (k : Calendar) : Calendar :=
  match k.passive with
  | none => k
  | some c => { k with active := some c, passive := none, superseded := k.active }

/-- An activation as a bound point sees it: its boundary number rises; another length of its
sub-periods or windows restarts demand; the first set gives the first billing boundary (R181, R192). -/
def PointTar.activated (p : PointTar) (old : Option CalSet) (new : CalSet) (t : Nat) : PointTar :=
  let same := match old with | some o => calLs o == calLs new && calSubs o == calSubs new | none => false
  let len := 60 * calLs new
  let p1 := { p with bn := p.bn + 1 }
  let p2 := if same then p1 else { p1 with subEnd := none, chain := [], resume := (t + len - 1) / len * len }
  match old, p2.billNext with
  | none, none => { p2 with billNext := nextBilling new (t / 60) }
  | _, _ => p2

/-- The verified sets of a bound calendar after its passive set became active: position 3·c + i stands for set i, 0 active,
1 passive, 2 superseded (R177, R178). -/
def shiftVerified (l : List Nat) (c : Nat) : List Nat :=
  l.filter (fun v => v / 3 != c) ++ (if l.contains (3 * c + 1) then [3 * c] else []) ++
    (if l.contains (3 * c) then [3 * c + 2] else [])

/-- (b) of R192: the passive set of a calendar becomes active at `t` (R177). [DEDUCED, log 79; unsafe] -/
def State.activateCal (s : State) (c t : Nat) : State :=
  let bound := !(s.pointsOf c).isEmpty
  let k := s.storedCal c
  let sealed := s.sealedCal c
  match (if bound then sealed.passive else k.passive) with
  | none => s
  | some new =>
    let s1 := s.setCal c k.activate
    let s2 := s1.post Ev.TAR_ACTIVATED [b8 c, b8 (calGen new)]
    if bound then
      let s3 := { s2 with tar := { s2.tar with
        sets := Map.set s2.tar.sets c sealed.activate, verified := shiftVerified s2.tar.verified c
        activated := true, dirty := true } }
      let s4 := (s.pointsOf c).foldl (fun u n => u.setTar n ((u.tarPoint n).activated sealed.active new t)) s3
      s4.legalLog Ev.TAR_ACTIVATED 0xFF (legalData [(0, 1, c), (2, 2, calGen new), (4, 4, calActivate new / 60)])
    else s2

/-- BILL_NO rises from 65,535 to 1 (R191). -/
def nextBillNo (n : Nat) : Nat := if n = 65535 then 1 else n + 1

/-- (c) of R192: a billing close of a point at minute `b` (R189); the next boundary is that of the billing period which
begins, under the set in force (R188). -/
def State.billClose (s : State) (n b : Nat) (catchUp : Bool) : State :=
  match s.mpCal n, s.pointSet n with
  | some c, some set =>
    let p := s.tarPoint n
    let commanded := p.commanded.contains b && p.billNext != some b
    let no := nextBillNo p.billNo
    let flags : BitVec 8 := p.seen ||| (if commanded then tarFlag 0 else 0) ||| (if catchUp then tarFlag 1 else 0)
    let snap : PointSnapshot := ⟨n, flags, no, c, p.bn + 1, calGen set, b * 60, p.reg, p.dmax⟩
    let p1 := { p with
      billNo := no, bn := p.bn + 1, dmax := List.replicate 8 {}, seen := 0
      billNext := nextBilling set b, commanded := p.commanded.filter (· != b) }
    let s1 := s.setTar n p1
    let s2 := { s1 with tar := { s1.tar with newest := Map.set s1.tar.newest n snap, dirty := true } }
    (s2.export_ (.snapshot snap)).legalLog Ev.BILL_CLOSE n (legalData [(0, 2, no), (4, 4, b)])
  | _, _ => s

/-- The next boundary that falls for a point, scheduled or commanded. -/
def PointTar.nextBill (p : PointTar) : Option Nat :=
  match p.billNext, p.commanded.head? with
  | some a, some b => some (min a b)
  | some a, none => some a
  | none, b => b

/-- A boundary of R192: instant in UTC seconds, kind 0 demand close, 1 tariff switch, 2 billing close,
and the point or calendar. -/
abbrev TarBoundary := Nat × Nat × Nat

/-- The order of R192: by instant, then (a), (b), (c). -/
def boundaryBefore (x y : TarBoundary) : Bool :=
  decide (x.1 < y.1) || (x.1 == y.1 && (decide (x.2.1 < y.2.1) || (x.2.1 == y.2.1 && decide (x.2.2 < y.2.2))))

/-- The boundaries after HWM that fall at or before second `t` and have not been performed (R192). -/
def State.boundariesDue (s : State) (t : Nat) : List TarBoundary :=
  let falls (e : Nat) : Bool := decide (s.tar.hwm < e * 1000) && decide (e ≤ t)
  ((List.range 12).filterMap fun n => match s.pointSet n, (s.tarPoint n).subEnd with
    | some _, some e => if falls e then some (e, 0, n) else none
    | _, _ => none) ++
  (s.boundCals.filterMap fun c => match (s.sealedCal c).passive with
    | some set => if falls (calActivate set) then some (calActivate set, 1, c) else none
    | none => none) ++
  ((List.range 12).filterMap fun n => match s.pointSet n, (s.tarPoint n).nextBill with
    | some _, some b => if falls (b * 60) then some (b * 60, 2, n) else none
    | _, _ => none)

/-- The earliest boundary of a list. -/
def firstBoundary : List TarBoundary → Option TarBoundary
  | [] => none
  | x :: l => match firstBoundary l with
    | none => some x
    | some y => if boundaryBefore y x then some y else some x

/-- Performs one boundary. [DEDUCED, log 80; unsafe] -/
def State.performBoundary (s : State) (catchUp : Bool) (x : TarBoundary) : State :=
  match x.2.1 with
  | 0 => s.demandClose x.2.2 x.1
  | 1 => s.activateCal x.2.2 x.1
  | _ => s.billClose x.2.2 (x.1 / 60) catchUp

/-- Performs every boundary that falls at or before second `t`, in the order of R192. The first
argument bounds their number. -/
def State.performBoundaries (catchUp : Bool) (t : Nat) : Nat → State → State
  | 0, s => s
  | n + 1, s => match firstBoundary (s.boundariesDue t) with
    | none => s
    | some x => State.performBoundaries catchUp t n (s.performBoundary catchUp x)

/-- A bound on the boundaries that can fall since HWM: at most two for each point and day. -/
def State.boundaryBound (s : State) : Nat := 100 + 24 * ((s.timeSec - s.tar.hwm / 1000) / 86400 + 2)

/-- Performs the boundaries that have fallen by now, in the order of R192, up to the one named. -/
def State.performUntil (x : TarBoundary) : Nat → State → State
  | 0, s => s
  | n + 1, s => match firstBoundary (s.boundariesDue s.timeSec) with
    | none => s
    | some y => if y = x then s.performBoundary false x else State.performUntil x n (s.performBoundary false y)

/-! ### Jumps and set-backs (R193, R194) -/

/-- The sub-period in progress of every point takes a flag of R186. -/
def State.flagSubs (s : State) (flag : Nat) : State :=
  (List.range 12).foldl (fun u n => let p := u.tarPoint n
    if p.subEnd.isSome then u.setTar n { p with subFlags := p.subFlags ||| tarFlag flag } else u) s

/-- A jump of processed time: every boundary in it is performed once, with CATCH_UP (R193). -/
def State.tarJump (s : State) : State := s.performBoundaries true s.timeSec s.boundaryBound

/-- A forward step (R193): the sub-period in progress and the one in which the step lands carry STEPPED. -/
def State.tarForward (s : State) : State :=
  let s1 := (s.flagSubs 2).tarJump.flagSubs 2
  { s1 with tar := { s1.tar with dirty := true } }

/-- The first pace boundary after a restart (R193): the sub-period and the billing period of every enabled point hold the
cut; processed time jumps where device time is more than a pace past HWM. -/
def State.tarRestarted (s : State) : State :=
  let s1 := (List.range 12).foldl (fun u n => match u.qtyPlan.point n with
    | some _ => u.setTar n { u.tarPoint n with seen := (u.tarPoint n).seen ||| tarFlag 4 }
    | none => u) (s.flagSubs 0)
  let s2 := if s1.tar.hwm + 1 < s1.timeMs then s1.tarJump else s1
  { s2 with tar := { s2.tar with restarted := false } }

/-- A set-back for one point: its sub-period closes short, demand is suspended until a multiple of Ls
later than HWM, its interval closes and the successor starts where that one ended (R194). `t` is the
device time before the step in seconds. -/
def State.setBackPoint (t : Nat) (s : State) (n : Nat) : State :=
  match s.qtyPlan.point n with
  | none => s
  | some e =>
    let p := s.tarPoint n
    let s1 := match s.pointSet n with
      | none => s
      | some c =>
        let p1 := if p.subEnd.isSome
          then ({ p with subFlags := p.subFlags ||| tarFlag 1 } : PointTar).closeSub c t else p
        let len := 60 * calLs c
        s.setTar n { p1 with
          subEnd := none, chain := [], subEnergy := 0, subFlags := 0, seen := p1.seen ||| tarFlag 3
          resume := (s.tar.hwm / 1000 / len + 1) * len }
    let iv := Map.findD s.qty.points n {}
    s1.closeInterval e n (qset 0 Q.SET_BACK) iv.finish (iv.finish + 60 * e.intervalMin)

/-- SET_BACK (R194): device time was `old` ns before the step. -/
def State.setBack (s : State) (old : Nat) : State :=
  let s1 := (List.range 12).foldl (State.setBackPoint (old / 1000000000)) s
  let s2 := { s1 with tar := { s1.tar with dirty := true }, regs := s1.regs.bump F.TAR_STEP_CNT.COUNT 1 }
  (s2.post Ev.TAR_SETBACK [b8 (old / 1000000), b8 s.timeMs]).legalLog Ev.TAR_SETBACK 0xFF
    (legalData [(0, 4, old / 1000000000), (4, 4, s.timeSec)])

/-! ### Steps 4 to 6 -/

/-- The rate of the pace that begins, and whether it is a default rate (R176, R180, R181). -/
def State.selectRate (s : State) (n : Nat) : Nat × Bool :=
  match s.mpCal n with
  | none => (0, false)
  | some c => match (s.sealedCal c).active with
    | none => (0, true)
    | some set =>
      let p := s.tarPoint n
      if s.fld F.CLK_QUAL.QUALITY = 3 then (calDefaultRate set, true)
      else if s.tarReady then (rateAt set s.timeSec, false)
      else if s.tar.activated ∨ p.nextSwitch.1 ≤ s.timeSec then (calDefaultRate set, true)
      else (p.rate, false)

/-- Step 5 of R192 for a point: the rate of the pace that begins; demand begins to collect where it
may; EV_TAR_DEFAULT where default registration begins or ends (R180). -/
def State.selectPoint (s : State) (n : Nat) : State :=
  match s.qtyPlan.point n with
  | none => s
  | some _ =>
    let p := s.tarPoint n
    let (rate, dflt) := s.selectRate n
    let p1 := { p with
      rate := rate, defaulted := dflt
      subRate := if p.subPaces = 0 then rate else p.subRate }
    let p2 := match s.pointSet n with
      | none => p1
      | some c =>
        let p2 := if s.tarReady then { p1 with nextSwitch := nextSwitchOf c s.timeSec } else p1
        let stale := match p2.billNext with | some b => decide (b * 60000 ≤ s.tar.hwm) | none => true
        let p3 := if stale then { p2 with billNext := nextBilling c (max s.timeSec (s.tar.hwm / 1000) / 60) } else p2
        let p4 := if p3.subEnd = none ∧ p3.resume = 0 then { p3 with resume := subStart (calLs c) s.clk.ns } else p3
        if p4.subEnd = none ∧ p4.resume ≤ s.timeSec then p4.openSub c s.timeSec s.timeSec else p4
    (s.setTar n p2).postIf (dflt != p.defaulted) Ev.TAR_DEFAULT [b2 n, b1 (if dflt then 1 else 0)]

/-- `TAR_STAT` and HWM as they stand (R192). -/
def State.showTarStat (s : State) : State :=
  let any := (List.range 12).any fun n => (s.qtyPlan.point n).isSome && (s.tarPoint n).defaulted
  let regs := (s.regs.setF F.TAR_STAT.TIME_Q (s.fld F.CLK_QUAL.QUALITY)).flag F.TAR_STAT.DEFAULT any
  { s with regs := regs.put64 R.TAR_HWM_LO s.tar.hwm }

/-- Step 5 for every point. -/
def State.selectRates (s : State) : State := ((List.range 12).foldl State.selectPoint s).showTarStat

/-- Writes the legal tariff record to the copy whose turn it is, and the ring entries with it (R195, R218). `bad` names what
read back wrong twice: 2 the record, after which the next goes to the same copy (R117); 3 the ring, whose entries then wait
for the next record. [DEDUCED, log 150; unsafe] -/
def State.writeTarRecord (s : State) (bad : List Nat) : State :=
  let seq := s.tar.seq + 1
  let failed := bad.contains 2
  let second := if s.tar.same then s.tar.second else !s.tar.second
  let r : TarRecord := ⟨seq, s.tar.hwm, s.tar.points, s.tar.sets, !failed⟩
  let s1 := { s with tar := { s.tar with
    seq := seq, dirty := bad.contains 3 && !s.leg.fresh.isEmpty, second := second, same := failed
    copies := if second then (s.tar.copies.1, some r) else (some r, s.tar.copies.2) } }
  let s2 := (s1.partFailed s.qty.seq failed 2).partFailed s.qty.seq (bad.contains 3 && !s.leg.fresh.isEmpty) 2
  if bad.contains 3 then s2 else s2.writeRing

/-! ### The sealed work of a pace (R122, R192) -/

/-- Step 1 of R192: the pace that ended is registered, under the plan it ran on (R121, R183). -/
def State.registerPaces (s : State) (plan : QtyPlan) : State := (List.range 12).foldl (State.registerPace plan) s

/-- Steps 3 to 5 of R122 and step 1 of R192, where they are outstanding: intervals close, a checkpoint is written where one
is due or the boundary is a cut, and the pace that ended, which ran on `plan`, is registered. -/
def State.toTar (s : State) (plan : QtyPlan) (final : Bool) (bad : List Nat) : State :=
  if s.qty.stage = .met then
    let s1 := s.intervalsDue s.qtyPlan
    let s2 := if final || s1.checkpointDue then s1.writeCheckpoint final bad else s1
    let s3 := s2.registerPaces plan
    { s3 with qty := { s3.qty with stage := .tar } }
  else s

/-- Steps 2 to 6 of R192, where they are outstanding: the jump of a restart, boundaries, HWM, rates, and the further
checkpoint and the record where they are due. -/
def State.finishTar (s : State) (bad : List Nat) : State :=
  if s.qty.stage = .tar then
    let s1 := if s.tar.restarted then s.tarRestarted else s
    let s2 := s1.performBoundaries false s1.timeSec s1.boundaryBound
    let s3 := ({ s2 with tar := { s2.tar with hwm := max s2.tar.hwm s2.timeMs } } : State).selectRates
    let s4 := if s3.qty.closed then s3.writeCheckpoint false bad else s3
    let s5 := if s4.tar.dirty then s4.writeTarRecord bad else s4
    { s5 with qty := { s5.qty with stage := .idle } }
  else s

/-- What is left of the sealed work of the pace in progress. -/
def State.finishLegal (s : State) (bad : List Nat) : State := (s.toTar s.qtyPlan false bad).finishTar bad

/-- The work of the pace that begins at a cut, with its FINAL checkpoint and the record (R115, R192). The pace that ends at
the cut is processed where PACE_BOUNDARY has not done so. -/
def State.finalCheckpoint (s : State) (bad : List Nat) : State :=
  if s.fld F.LEG_STAT.RUN = 0 then s
  else
    let s1 := s.finishTar bad
    let s2 := if s1.qty.stage = .met then s1
      else let t := s1.legalMetPace s1.qtyPlan; { t with qty := { t.qty with stage := .met } }
    (s2.toTar s2.qtyPlan true bad).finishTar bad

/-! ### The steps of their own -/

/-- CHECKPOINT_WRITE: the sealed work of the pace is completed with the checkpoint and the legal tariff record that are due;
`bad` names the parts that read back wrong twice: 0 point, 1 pulse, 2 the record, 3 the ring (R114, R117, R195). -/
def execCheckpointWrite (bad : List Nat) (s : State) : Host.Outcome State Fault Refusal := .next (s.finishLegal bad)

/-- Performs one boundary with all that precedes it in the pace (R122, R192); nothing where it has not fallen. -/
def State.boundaryStep (s : State) (x : TarBoundary) : State :=
  let s1 := s.toTar s.qtyPlan false []
  let s2 := if s1.tar.restarted ∧ s1.qty.stage = .tar then s1.tarRestarted else s1
  if s2.qty.stage = .tar ∧ (s2.boundariesDue s2.timeSec).contains x then s2.performUntil x s2.boundaryBound else s

/-- DEMAND_CLOSE: a sub-period of the point has ended (R186). -/
def execDemandClose (n : Nat) (s : State) : Host.Outcome State Fault Refusal :=
  .next (match (s.tarPoint n).subEnd with
    | none => s
    | some e => s.boundaryStep (e, 0, n))

/-- TARIFF_SWITCH: device time has reached ACTIVATE of the calendar's passive set (R177), in the order of R192 where a point
is bound to it. -/
def execTariffSwitch (c : Nat) (s : State) : Host.Outcome State Fault Refusal :=
  .next (if (s.pointsOf c).isEmpty then
      (match (s.storedCal c).passive with
       | some set => if calActivate set ≤ s.timeSec then s.activateCal c (calActivate set) else s
       | none => s)
    else match (s.sealedCal c).passive with
      | some set => s.boundaryStep (calActivate set, 1, c)
      | none => s)

/-- POINT_BILLING_CLOSE: a billing boundary of the point has been reached (R189). -/
def execPointBillingClose (n : Nat) (s : State) : Host.Outcome State Fault Refusal :=
  .next (match (s.tarPoint n).nextBill with
    | none => s
    | some b => s.boundaryStep (b * 60, 2, n))

/-- The calendars that no point is bound to change at their ACTIVATE (R177). -/
def State.switchUnbound (s : State) : State :=
  (List.range 64).foldl (fun u c => if (u.pointsOf c).isEmpty then
      (match (u.storedCal c).passive with
       | some set => if calActivate set ≤ u.timeSec then u.activateCal c (calActivate set) else u
       | none => u)
    else u) s

end Sys2Proof.Machine
end

