-- ==== Sys2Proof/Machine/SealedStart.lean ====
section
/-! DEFINITION. The start of the sealed firmware: restore of checkpoints and of the legal tariff record,
the check value and the exports made again (R113, R116, R119, R189, R196, R211, R218, R474). -/

namespace Sys2Proof.Machine

/-! ### Checkpoints (R116, R474) -/

/-- A copy valid in both parts (R116). -/
def Checkpoint.valid (c : Checkpoint) : Bool := c.pointOk && c.pulseOk

/-- The newest valid copy. -/
def newestCheckpoint (c : Option Checkpoint × Option Checkpoint) : Option Checkpoint :=
  match c.1.filter Checkpoint.valid, c.2.filter Checkpoint.valid with
  | some a, some b => if a.seq < b.seq then some b else some a
  | some a, none => some a
  | none, b => b

/-- The kind of the restore: `QTY_STAT.RESTORE`, and the checkpoint restored (R116). -/
def restoreOf (c : Option Checkpoint × Option Checkpoint) : Nat × Option Checkpoint :=
  if c.1.isNone && c.2.isNone then (0, none)
  else match newestCheckpoint c with
    | some k => (if k.final then 1 else 2, some k)
    | none => (3, none)

/-- The bound of a point in µWh, rounded up (R116, R474). -/
def residueBound (kind pmax : Nat) : Nat :=
  match kind with
  | 1 => (pmax * 5 + 8) / 9
  | 2 => pmax * 5
  | 3 => 0xFFFFFFFFFFFFFFFF
  | _ => 0

/-- A point after the restore: the interval that holds the checkpoint's time carries PF_GAP and GAP with
its bound; a point without an interval begins the one that holds device time; with no checkpoint left, the first interval
metered carries them (R474). -/
def PointState.restored (c : PointState) (e : PointEntry) (kind now : Nat) : PointState :=
  let len := 60 * e.intervalMin
  let c1 := if c.finish = 0 then c.begin (now / len * len) (now / len * len + len) true else c
  if kind = 0 then c1
  else if kind = 3 then { c1 with lost := true }
  else { c1 with quality := qset (qset c1.quality Q.PF_GAP) Q.GAP, pfBound := residueBound kind e.pmaxW }

/-- Restores one point, with EV_PF_RESIDUE where R474 asks for it. -/
def State.restorePoint (kind seq : Nat) (k : Option Checkpoint) (s : State) (n : Nat) : State :=
  let base := match k with | some k => Map.findD k.points n {} | none => {}
  match s.qtyPlan.point n with
  | none => match k with
    | some _ => { s with qty := { s.qty with points := Map.set s.qty.points n base } }
    | none => s
  | some e =>
    let c := base.restored e kind s.timeSec
    let bound := residueBound kind e.pmaxW
    let mwh := (bound + 999) / 1000
    let s1 : State := { s with
      qty := { s.qty with points := Map.set s.qty.points n c }
      regs := s.regs.setF (F.QTY_PF_BOUND.BOUND n) (min mwh 4294967295) }
    let s2 := s1.showPoint n e.dc c
    if kind = 1 ∨ kind = 2 then
      (s2.post Ev.PF_RESIDUE [b2 n, b1 kind, b4 seq, b8 bound]).legalLog Ev.PF_RESIDUE n
        (legalData [(0, 1, kind), (1, 3, seq), (4, 4, min mwh 4294967295)])
    else s2

/-- The outputs after a restart: idle, with r and PENDING restored (R119). -/
def State.restorePulses (s : State) (k : Option Checkpoint) : State :=
  ({ s with qty := { s.qty with pulses := match k with | some k => k.pulses | none => [] } } : State).stopPulses

/-- Restores the metering points (R116): windows hold zeros (R102). -/
def State.restoreMetering (s : State) : State :=
  let (kind, k) := restoreOf s.qty.copies
  let seq := match k with | some k => k.seq | none => 0
  let s1 := ({ s with
    qty := { s.qty with points := [], windows := [], closed := false, stage := .idle, seq := max seq s.qty.seq }
    regs := s.regs.setF F.QTY_STAT.RESTORE kind } : State).restorePulses k
  let s2 := (List.range 12).foldl (State.restorePoint kind seq k) s1
  if kind = 3 then (s2.post Ev.CKPT_LOST []).legalLog Ev.CKPT_LOST 0xFF 0 else s2

/-! ### The legal tariff record (R196) -/

/-- The newest copy of the record that passes its CRC. -/
def newestTarRecord (c : Option TarRecord × Option TarRecord) : Option TarRecord :=
  match c.1.filter TarRecord.ok, c.2.filter TarRecord.ok with
  | some a, some b => if a.seq < b.seq then some b else some a
  | some a, none => some a
  | none, b => b

/-- A point of the record after the restore: what its accumulators hold beyond A_reg is registered at
the rate in force; one that lies behind waits (R196). -/
def PointTar.restored (p : PointTar) (dc : Bool) (acc : List (BitVec 64)) : PointTar :=
  let behind := (List.range 9).map fun a => decide ((acc.getD a 0).toNat < (p.aReg.getD a 0).toNat)
  let r := ({ p with behind := behind } : PointTar).register dc acc p.rate
  { r.1 with subEnergy := p.subEnergy + (if p.subEnd.isSome then r.2 else 0) }

/-- Restores one point from the record, or begins it anew (R196). -/
def State.restoreTarPoint (r : Option TarRecord) (s : State) (n : Nat) : State :=
  match s.qtyPlan.point n with
  | none => s.setTar n (match r with
    | some r => Map.findD r.points n {}
    | none => { aReg := (Map.findD s.qty.points n {}).acc })
  | some e =>
    let acc := (Map.findD s.qty.points n {}).acc
    match r with
    | some r => s.setTar n ((Map.findD r.points n {}).restored e.dc acc)
    | none => s.setTar n { aReg := acc }

/-- Device time of the restored checkpoint in ms, or now (R196). -/
def State.checkpointMs (s : State) : Nat :=
  match (restoreOf s.qty.copies).2 with | some k => k.time / 1000000 | none => s.timeMs

/-- Restores the legal tariff state and exports the newest snapshots again (R196). A record lost where
both copies are blank is that of a first start. -/
def State.restoreTariff (s : State) : State :=
  let r := newestTarRecord s.tar.copies
  let kind := if r.isSome then 1 else 0
  let hwm := match r with | some r => r.hwm | none => s.checkpointMs
  let sets := match r with | some r => r.sets | none => []
  let s1 := { s with
    tar := { s.tar with points := [], hwm := hwm, sets := sets, verified := [], activated := false, restarted := true }
    regs := s.regs.flag F.TAR_STAT.READY false }
  let s2 := (List.range 12).foldl (State.restoreTarPoint r) s1
  let s3 := (s2.post Ev.TAR_RESTORE [b1 kind]).legalLog Ev.TAR_RESTORE 0xFF (legalData [(0, 1, kind)])
  (s3.tar.newest.foldl (fun u p => u.export_ (.snapshot p.2)) s3).showTarStat

/-! ### The start -/

/-- The last closed record of each enabled point goes out again (R113). -/
def State.reexportRecords (s : State) : State :=
  (List.range 12).foldl (fun u n => match u.qtyPlan.point n, (Map.findD u.qty.points n {}).last with
    | some _, some r => u.export_ (.interval r)
    | _, _ => u) s

/-- Every ring entry goes out again (R218). -/
def State.reexportRing (s : State) : State := s.leg.ring.foldl (fun u e => u.export_ (.legalEvent e.1 e.2)) s

/-- The active sealed slot. -/
def State.sealedSlot (s : State) : Nat := s.fld F.LEG_STAT.SLOT

/-- The check value in `LEG_CHECK` (R211). -/
def showCheck (r : RegFile) (v : BitVec 256) : RegFile :=
  (List.range 8).foldl (fun r i => r.put (R.LEG_CHECK i) (BitVec.ofNat 32 (v.toNat / 2 ^ (32 * (7 - i))))) r

/-- The application cores deliver the bound sets for the check of R178. [DEDUCED, log 78; unsafe] -/
def State.deliverSets (s : State) : State :=
  s.boundCals.foldl (fun u c =>
    let k := u.storedCal c
    [k.active, k.passive, k.superseded].foldl (fun u x => match x with
      | some set => u.request 0x0101 set .none
      | none => u) u) s

/-- Bound calendars whose sets are all verified; one without an active set counts as verified (R178,
R181). Position 3·c + i of `verified` stands for set i of calendar c. -/
def State.calVerified (s : State) (c : Nat) : Bool :=
  let k := s.sealedCal c
  k.active.isNone || ((k.active.isNone || s.tar.verified.contains (3 * c)) &&
    (k.passive.isNone || s.tar.verified.contains (3 * c + 1)) &&
    (k.superseded.isNone || s.tar.verified.contains (3 * c + 2)))

/-- READY and VERIFIED follow what has been verified (R178). -/
def State.judgeReady (s : State) : State :=
  let all := s.boundCals.all fun c => s.calVerified c
  let regs := s.regs.flag F.TAR_STAT.READY all
  { s with regs := (List.range 12).foldl (fun r n =>
      match s.mpCal n with
      | some c => (r.flag (F.TAR_MP_CAL.VERIFIED n) (s.calVerified c)).setF (F.TAR_MP_CAL.CAL n) c
      | none => (r.flag (F.TAR_MP_CAL.VERIFIED n) false).setF (F.TAR_MP_CAL.CAL n) 0xFF) regs }

/-- What the sealed cores keep in their SRAM is gone: messages held, display, keys and readout. -/
def State.sealedCleared (s : State) : State :=
  ({ s with leg := { s.leg with
      fresh := [], held := [], frames := [⟨0x01, []⟩], tries := 0
      showing := .stepping, keys := .idle, optical := .idle } } : State).flag F.LEG_STAT.OPT_BUSY false

/-- SEALED_START: the sealed firmware of the active slot restores its state, computes the check value over its image, sets
RUN, and exports again; the display is sent INIT (R113, R116, R196, R211, R218, R219). An entry that no ring
write holds is lost (R218). A slot without an image runs nothing (R12). -/
def State.sealedStart (s : State) : State :=
  match Map.find s.leg.slots s.sealedSlot with
  | none => s.sealedCleared.flag F.LEG_STAT.RUN false
  | some image =>
    let s1 := s.sealedCleared.restoreMetering.restoreTariff
    let regs := ((showCheck s1.regs (slotSha image)).flag F.LEG_STAT.RUN true).setF
      F.LEG_LOG_SEQ.LSEQ (s1.leg.lseq + s1.leg.fresh.length)
    ((({ s1 with regs := regs } : State).reexportRecords.reexportRing).refillQueues).deliverSets.judgeReady

end Sys2Proof.Machine
end

