-- ==== Sys2Proof/Machine/Sealed.lean ====
section
/-! DEFINITION. The sealed partition's requests and exports, its firmware slots and its debounced input
(R20, R178, R213 to R218). -/

namespace Sys2Proof.Machine

/-! ### Requests (R217) -/

/-- A request answered SEALED_REJECT is counted with its TYPE. -/
def State.countReject (s : State) (type : Nat) : State :=
  { s with regs := (s.regs.bump F.LEG_REQ_REJ.COUNT 1).setF F.LEG_REQ_REJ.LAST_TYPE type }

/-- REQUEST_REJECT: a malformed request is answered SEALED_REJECT and recorded (R217). -/
def State.rejectRequest (s : State) (r : Request) : State :=
  ((s.countReject r.type).post Ev.SEALED_REQ_REJECT [b8 r.type]).export_ (.reqResult r.seq Cause.SEALED_REJECT [])

/-- Whether the TYPE is one of the requests of R217. -/
def knownRequest (t : Nat) : Bool := decide (0x0101 ≤ t) && decide (t ≤ 0x0106)

/-- Takes the request at the head of the queue where it is of this type: a malformed one is rejected,
another is judged and answered with its cause, in order. A head of unknown type is rejected. While the
sealed cores restart, or an activation waits for its result, requests wait (R216, R217). No request of the spec has
data for its result. [DEDUCED, log 153; safe] -/
def State.takeRequest (s : State) (type : Nat) (wellFormed : List Byte → Bool)
    (judge : State → Request → State × Option Nat) : State :=
  if s.fld F.LEG_STAT.RUN = 0 ∨ s.leg.act.isSome then s
  else match s.headWords 1 with
    | none => s
    | some m =>
      let r := messageOf m
      let s1 := s.dropHead 1 m.length
      if !knownRequest r.type then s1.rejectRequest r
      else if r.type ≠ type then s
      else if !wellFormed r.body then s1.rejectRequest r
      else match judge s1 r with
        | (s2, none) => s2
        | (s2, some c) =>
          (if c = Cause.SEALED_REJECT then s2.countReject type else s2).export_ (.reqResult r.seq c [])

/-! ### Calendars (R178) -/

/-- Which set of a calendar has the digest of a delivered set. -/
def matchingSet (k : Calendar) (d : BitVec 256) : Option Nat :=
  [k.active, k.passive, k.superseded].findIdx? fun x => match x with
    | some set => decide (sha256 set = d)
    | none => false

/-- A delivered set against its digest (R178). -/
def State.judgeDeliver (s : State) (r : Request) : State × Option Nat :=
  let c := fieldAt r.body 0 1
  match matchingSet (s.sealedCal c) (sha256 r.body) with
  | some i => (({ s with tar := { s.tar with verified := s.tar.verified ++ [3 * c + i] } } : State).judgeReady, some 0)
  | none =>
    if (s.sealedCal c).active.isNone ∧ (s.sealedCal c).passive.isNone then (s.judgeReady, some 0)
    else (s.post Ev.TAR_CAL_MISMATCH [], some Cause.SEALED_REJECT)

/-- CAL_DELIVER (R178). -/
def execCalDeliver (s : State) : Host.Outcome State Fault Refusal :=
  .next (s.takeRequest 0x0101 (fun b => b.length == 2352 && decide (fieldAt b 0 1 ≤ 63)) State.judgeDeliver)

/-- New digests for a bound calendar: a passive set stored or discarded, and the record written (R178). -/
def State.judgeDigest (bad : List Nat) (s : State) (r : Request) : State × Option Nat :=
  let c := fieldAt r.body 0 1
  let k := s.sealedCal c
  let set := r.body.drop 4
  let k1 := if fieldAt r.body 1 1 = 0 then { k with passive := some set } else { k with passive := none }
  let v := s.tar.verified.filter (· != 3 * c + 1)
  let v1 := if fieldAt r.body 1 1 = 0 then v ++ [3 * c + 1] else v
  let s1 := { s with tar := { s.tar with sets := Map.set s.tar.sets c k1, verified := v1 } }
  (s1.judgeReady.writeTarRecord bad, some 0)

/-- The form of a CAL_DIGEST request. -/
def digestForm (b : List Byte) : Bool :=
  decide (fieldAt b 0 1 ≤ 63) && fieldAt b 2 2 == 0 &&
  ((fieldAt b 1 1 == 0 && b.length == 2356 && fieldAt b 4 1 == fieldAt b 0 1) ||
   (fieldAt b 1 1 == 1 && b.length == 4))

/-- CAL_DIGEST (R178); `bad` as in R117. -/
def execCalDigest (bad : List Nat) (s : State) : Host.Outcome State Fault Refusal :=
  .next (s.takeRequest 0x0102 digestForm (State.judgeDigest bad))

/-- A commanded billing close of a point is scheduled (R188). A boundary at or below HWM never falls. -/
def State.judgeBillClose (s : State) (r : Request) : State × Option Nat :=
  let n := fieldAt r.body 0 1
  match s.pointSet n with
  | none => (s, some Cause.SEALED_REJECT)
  | some c =>
    let b := nextCommanded c s.timeSec
    let p := s.tarPoint n
    if s.tar.hwm < b * 60000 then (s.setTar n { p with commanded := insertSorted b p.commanded }, some 0) else (s, some 0)

/-- BILL_CLOSE_REQUEST (R217). -/
def execBillCloseRequest (s : State) : Host.Outcome State Fault Refusal :=
  .next (s.takeRequest 0x0103 (fun b => b.length == 8 && decide (fieldAt b 0 1 ≤ 11) && fieldAt b 1 7 == 0)
    State.judgeBillClose)

/-- KEYPAD_CFG: the entry timeout (R222). -/
def execKeypadCfg (s : State) : Host.Outcome State Fault Refusal :=
  .next (s.takeRequest 0x0106
    (fun b => b.length == 8 && decide (5 ≤ fieldAt b 0 1) && fieldAt b 1 7 == 0)
    fun s r => ({ s with leg := { s.leg with keyTimeout := fieldAt r.body 0 1 } }, some 0))

/-! ### The sealed slots (R215, R216) -/

/-- R214: a sealed change passes now, by LEGAL_UPD or by TRACED_OK of the active LEGAL section. -/
def State.sealedAllowed (s : State) : Bool :=
  s.fld F.LEG_STAT.LEGAL_UPD == 1 || (match s.legal with | some l => l.flags.getLsbD 0 | none => false)

/-- The active PACE_PLAN. -/
def State.pacePlan (s : State) : List PaceEntry := match s.warp.active with | some w => w.pacePlan | none => []

/-- The LEGAL_MET and LEGAL_TAR entries of a plan (R26). -/
def legalEntries (p : List PaceEntry) : List PaceEntry := p.filter fun e => e.engine == 0x06 || e.engine == 0x07

/-- The LEGAL_MET and LEGAL_TAR entries of the active image, byte for byte (R26, R215). -/
def State.planLegalBytes (s : State) : List Byte :=
  (legalEntries s.pacePlan).flatMap PaceEntry.bytes

/-- The conditions of an activation at its boundary: R214; the image declares the active plan's sealed entries byte for
byte; and its ROLLBACK is at or above the counter (R215, R376). -/
def State.mayActivate (s : State) (slot : Nat) : Bool :=
  match Map.find s.leg.slots slot with
  | none => false
  | some l => s.sealedAllowed && paceDeclBytes l == s.planLegalBytes && decide (s.fld (F.FWU_RB.COUNTER 1) ≤ Manifest.rollback l)

/-- FW_ACTIVATE judged: the slot holds a received image; the activation takes the next boundary, at which its conditions are
judged, and its result follows there (R215, R376). -/
def State.judgeActivate (s : State) (r : Request) : State × Option Nat :=
  let slot := fieldAt r.body 0 1
  if s.fld (F.LEG_SLOT.STATE slot) = 3 ∧ (Map.find s.leg.slots slot).isSome then
    ({ s with leg := { s.leg with act := some ⟨slot, s.now + 1, none, r.seq⟩ } }, none)
  else (s, some Cause.SEALED_REJECT)

/-- FW_ACTIVATE (R215). -/
def execFwActivate (s : State) : Host.Outcome State Fault Refusal :=
  .next (s.takeRequest 0x0105 (fun b => b.length == 8 && decide (fieldAt b 0 1 ≤ 2) && fieldAt b 1 7 == 0)
    State.judgeActivate)

/-- The result of an activation, and its end. -/
def State.endAct (s : State) (a : SealedAct) (cause : Nat) : State :=
  let s1 := if cause = Cause.SEALED_REJECT then s.countReject 0x0105 else s
  ({ s1 with leg := { s1.leg with act := none } } : State).export_ (.reqResult a.seq cause [])

/-- Raises the legal update counter (R212). -/
def State.raiseLegalCounter (s : State) : State :=
  s.setF F.LEG_UPD_CNT.COUNT (s.fld F.LEG_UPD_CNT.COUNT + 1)

/-- EV_SEALED_CHANGE in the legal log (R214, R471): bit 0 TRACED, bit 1 FIRMWARE. -/
def State.sealedChange (s : State) (traced firmware : Bool) (id : Nat) : State :=
  (if traced then s.raiseLegalCounter else s).legalLog Ev.SEALED_CHANGE 0xFF
    (legalData [(0, 1, (if traced then 1 else 0) + (if firmware then 2 else 0)), (4, 4, id)])

/-- The roles after a successful activation (R216). -/
def State.swapSlots (s : State) (new old : Nat) : State :=
  { s with regs := (((List.range 3).foldl (fun r i => if r.fld (F.LEG_SLOT.STATE i) = 2 then
      r.setF (F.LEG_SLOT.STATE i) 3 else r) s.regs).setF (F.LEG_SLOT.STATE old) 2).setF (F.LEG_SLOT.STATE new) 1
      |>.setF F.LEG_STAT.SLOT new }

/-- The sealed cores have started from the new slot (R216, R376). -/
def State.activationRuns (s : State) (a : SealedAct) (old : Nat) (traced : Bool) : State :=
  let s1 := (s.swapSlots a.slot old).sealedStart
  let image := Map.findD s.leg.slots a.slot []
  let s2 := s1.setF (F.FWU_RB.COUNTER 1) (max (s1.fld (F.FWU_RB.COUNTER 1)) (Manifest.rollback image))
  (s2.sealedChange traced true (Manifest.version image)).endAct a 0

/-- The cut of an activation: the FINAL checkpoint and the record are written, the sealed cores stop, and the outputs are idle
(R115, R119, R216); `bad` as in R117. -/
def State.activationCut (s : State) (a : SealedAct) (bad : List Nat) : State :=
  let traced := s.fld F.LEG_STAT.LEGAL_UPD == 0
  let s1 := ((s.finalCheckpoint bad).flag F.LEG_STAT.RUN false).stopPulses
  { s1 with leg := { s1.leg with act := some { a with begun := some (s.now, s.sealedSlot, traced) } } }

/-- SEALED_ACTIVATION: the boundary is a cut, where the conditions are judged, and the sealed cores restart from the new
slot; with `runs` they have set RUN, at the boundary or within 500 paces of it (R215, R216). With a Warp image applied in
the same boundary the activation takes the next. [DEDUCED, log 81; unsafe] -/
def execSealedActivation (runs : Bool) (bad : List Nat) (s : State) : Host.Outcome State Fault Refusal :=
  match s.leg.act with
  | none => .next s
  | some a => match a.begun with
    | some (b, old, traced) => .next (if runs ∧ s.now < b + 500 then s.activationRuns a old traced else s)
    | none =>
      .next (if s.now < a.due then s
        else if s.warp.appliedAt = some s.now then
          { s with leg := { s.leg with act := some { a with due := s.now + 1 } } }
        else if !s.mayActivate a.slot then s.endAct a Cause.SEALED_REJECT
        else
          let s1 := s.activationCut a bad
          if runs then s1.activationRuns a s.sealedSlot (s.fld F.LEG_STAT.LEGAL_UPD == 0) else s1)

/-- SEALED_FALLBACK: RUN is not set within 500 paces of the activation boundary (R216). -/
def execSealedFallback (s : State) : Host.Outcome State Fault Refusal :=
  match s.leg.act with
  | none => .next s
  | some a => match a.begun with
    | none => .next s
    | some (b, old, _) =>
      if s.now < b + 500 then .next s
      else
        let s1 := (s.setF (F.LEG_SLOT.STATE a.slot) 4).sealedStart
        let version := s.fld (F.LEG_SLOT.VERSION a.slot)
        .next (((s1.post Ev.SEALED_FALLBACK []).legalLog Ev.SEALED_FALLBACK 0xFF
          (legalData [(0, 1, a.slot), (1, 1, old), (4, 4, version)])).endAct a Cause.SEALED_REJECT)

/-- A pace boundary samples LEGAL_UPD: how many boundaries in a row its level has held (R213). -/
def State.sampleUpd (s : State) (level : Bool) : State :=
  { s with leg := { s.leg with
    updLevel := level, updHeld := if level = s.leg.updLevel then min 20 (s.leg.updHeld + 1) else 1 } }

/-- LEGAL_UPD_CHANGE: a level held for 20 consecutive paces becomes the debounced state (R213). -/
def execLegalUpdChange (s : State) : Host.Outcome State Fault Refusal :=
  let level := s.leg.updLevel
  .next (if s.leg.updHeld < 20 ∨ s.fld F.LEG_STAT.LEGAL_UPD = (if level then 1 else 0) then s
    else (s.flag F.LEG_STAT.LEGAL_UPD level).legalLog Ev.LEGAL_UPD 0xFF
      (legalData [(0, 1, if level then 1 else 0)]))

/-! ### What the application cores take from the export queue -/

/-- SNAPSHOT: the 24 newest snapshots of a point are kept; a duplicate by MP and BN is discarded (R189). -/
def execSnapshot (s : State) : Host.Outcome State Fault Refusal :=
  match s.takeExport fun e => match e with | .snapshot _ => true | _ => false with
  | (s1, some (.snapshot p)) =>
    let kept := Map.findD s.tar.snapshots p.mp []
    let new := kept ++ [p]
    .next (if kept.any fun x => x.bn == p.bn then s1
      else { s1 with tar := { s1.tar with snapshots := Map.set s1.tar.snapshots p.mp (new.drop (new.length - 24)) } })
  | (s1, _) => .next s1

/-- LEGAL_EVENT: an exported entry is stored with CHAIN; a known LSEQ is discarded (R218). -/
def execLegalEvent (s : State) : Host.Outcome State Fault Refusal :=
  match s.takeExport fun e => match e with | .legalEvent _ _ => true | _ => false with
  | (s1, some (.legalEvent e c)) =>
    .next (if s.leg.log.any fun x => x.1.lseq == e.lseq then s1
      else { s1 with leg := { s1.leg with log := s1.leg.log ++ [(e, c)] } })
  | (s1, _) => .next s1

/-- What a result does for what waited on it (R178, R197, R376). -/
def State.useResult (s : State) (u : RequestUse) (cause : Nat) : State :=
  match u with
  | .none => s
  | .item task item => s.endItem task item cause
  | .calSet task item set =>
    let c := fieldAt set 0 1
    let k := s.storedCal c
    (if cause = 0 then s.setCal c { k with passive := some set, loads := fieldAt set 4 2 } else s).endItem task item cause
  | .calCancel task item c =>
    let k := s.storedCal c
    (if cause = 0 then s.setCal c { k with passive := none } else s).endItem task item cause

/-- REQ_RESULT: ends the item that waits for the request (R217). -/
def execReqResult (s : State) : Host.Outcome State Fault Refusal :=
  match s.takeExport fun e => match e with | .reqResult _ _ _ => true | _ => false with
  | (s1, some (.reqResult seq cause _)) =>
    let s2 := { s1 with leg := { s1.leg with waiting := s1.leg.waiting.filter fun w => w.1 != seq } }
    .next (match s.leg.waiting.find? fun w => w.1 == seq with
      | some w => s2.useResult w.2 cause
      | none => s2)
  | (s1, _) => .next s1

end Sys2Proof.Machine
end

