-- ==== Sys2Proof/Machine/Display.lean ====
section
/-! DEFINITION. The display, the keypad and the optical port of the sealed partition (R219 to R223). -/

namespace Sys2Proof.Machine

/-! ### Text -/

/-- One ASCII digit. -/
def digitByte (n : Nat) : Byte := BitVec.ofNat 8 (48 + n % 10)

/-- `w` decimal digits. -/
def digitsOf : Nat → Nat → List Byte
  | 0, _ => []
  | w + 1, n => digitsOf w (n / 10) ++ [digitByte n]

/-- How many decimal digits a number has; the first argument bounds them. -/
def digitCount : Nat → Nat → Nat
  | 0, _ => 1
  | f + 1, n => if n < 10 then 1 else digitCount f (n / 10) + 1

/-- A number in decimal. -/
def decimal (n : Nat) : List Byte := digitsOf (digitCount 40 n) n

/-- A value of 10^(9)-fold or other fine units with `dec` decimals, truncated (R220). -/
def fixedPoint (v unit dec : Nat) : List Byte :=
  decimal (v / unit) ++ (if dec = 0 then [] else 46 :: digitsOf dec (v * 10 ^ dec / unit))

/-- One upper-case hex digit. -/
def hexByte (n : Nat) : Byte := BitVec.ofNat 8 (if n % 16 < 10 then 48 + n % 16 else 55 + n % 16)

/-- `w` upper-case hex digits. -/
def hexOf : Nat → Nat → List Byte
  | 0, _ => []
  | w + 1, n => hexOf w (n / 16) ++ [hexByte n]

/-- 16 characters: padded with spaces or cut. -/
def text16 (l : List Byte) : List Byte := (l ++ List.replicate 16 32).take 16

/-- "b-1:C.D.r", the OBIS code of a value of point n (R220, R223). [PRESUMED, log 83; unsafe] -/
def obis (n c d r : Nat) : List Byte :=
  decimal (n + 1) ++ [45, 49, 58] ++ decimal c ++ [46] ++ decimal d ++ [46] ++ decimal r

/-- OBIS value group C of an accumulator. -/
def obisAcc (a : Nat) : Nat := [1, 2, 5, 6, 7, 8, 9, 128, 129].getD a 1

/-- OBIS value group C of register kind k. -/
def obisKind (dc : Bool) (k : Nat) : Nat := if dc then [1, 2, 128, 129].getD k 1 else [1, 2, 3, 4].getD k 1

/-! ### Frames (R219) -/

/-- The bytes of a display frame: command, length, payload and CRC-8 over them (R219). -/
def DispFrame.bytes (f : DispFrame) : List Byte :=
  let head := BitVec.ofNat 8 f.code :: BitVec.ofNat 8 f.payload.length :: f.payload
  head ++ [crc8 head]

/-- Queues a frame for the display. -/
def State.frame (s : State) (code : Nat) (payload : List Byte) : State :=
  { s with leg := { s.leg with frames := s.leg.frames ++ [⟨code, payload⟩] } }

/-- The ICONS bitmap (R219). -/
def State.icons (s : State) (note : Bool) : Nat :=
  s.fld F.LEG_STAT.LEGAL_UPD + (if s.fld F.CLK_QUAL.QUALITY = 3 then 2 else 0) +
  4 * s.fld F.TAR_STAT.DEFAULT + (if note then 8 else 0)

/-- Both lines and the icons. -/
def State.showLines (s : State) (l0 l1 : List Byte) (note : Bool) : State :=
  ((s.frame 0x02 (0 :: text16 l0)).frame 0x02 (1 :: text16 l1)).frame 0x03 (beBytes 4 (s.icons note))

/-- The lines of a DISP item: OBIS code and value (R220). -/
def State.itemLines (s : State) (d : DispItem) : List Byte × List Byte :=
  let dc := match s.qtyPlan.point d.mp with | some e => e.dc | none => false
  let p := s.tarPoint d.mp
  if d.code ≤ 8 then
    (obis d.mp (obisAcc d.code) 8 0,
     fixedPoint ((Map.findD s.qty.points d.mp {}).acc.getD d.code 0).toNat 1000000000 d.dec)
  else if d.code = 0x50 then
    (obis d.mp 1 6 (d.rate + 1), fixedPoint (p.dmax.getD d.rate {}).value 1000 d.dec)
  else
    (obis d.mp (obisKind dc (d.code % 4)) 8 (d.rate + 1),
     fixedPoint (p.reg.getD (4 * d.rate + d.code % 4) 0).toNat 1000000000 d.dec)

/-- Shows the DISP item in turn. -/
def State.showItem (s : State) : State :=
  match s.legal with
  | none => s
  | some l => match l.disp[s.leg.dispItem]? with
    | none => s
    | some d => s.showLines (s.itemLines d).1 (s.itemLines d).2 false

/-- Goes to the next DISP item and shows it. -/
def State.nextItem (s : State) : State :=
  let n := match s.legal with | some l => l.dispCount | none => 0
  ({ s with leg := { s.leg with dispItem := if s.leg.dispItem + 1 < n then s.leg.dispItem + 1 else 0
                                stepped := s.now } } : State).showItem

/-- DISPLAY_FRAME: the frame at the head is sent; the answer is taken in the next transfer: accepted,
refused, or none. After three more tries DISP_FAULT is set (R219). A port in role OFF drives nothing (R278). -/
def execDisplayFrame (answer : Option Bool) (s : State) : Host.Outcome State Fault Refusal :=
  if s.role 59 ≠ 1 then .next s
  else match s.leg.frames with
  | [] => .next s
  | f :: rest =>
    let s1 := s.send (.display f.bytes)
    .next (if answer = some true then
        { s1 with leg := { s1.leg with frames := rest, tries := 0 }
                  regs := if f.code = 1 then s1.regs.flag F.LEG_STAT.DISP_FAULT false else s1.regs }
      else if s.leg.tries < 3 then { s1 with leg := { s1.leg with tries := s.leg.tries + 1 } }
      else
        let at_ := if s.fld F.LEG_STAT.DISP_FAULT = 0 then s.now + 1000 else s.leg.initAt
        let s2 := { s1 with leg := { s1.leg with frames := [], tries := 0, initAt := at_ } }
        (s2.flag F.LEG_STAT.DISP_FAULT true).postIf (s.fld F.LEG_STAT.DISP_FAULT == 0) Ev.DISPLAY_FAULT [])

/-- DISPLAY_INIT_RETRY: while the display is in fault INIT is sent every 1,000 paces (R219). -/
def execDisplayInitRetry (s : State) : Host.Outcome State Fault Refusal :=
  .next (if s.fld F.LEG_STAT.DISP_FAULT = 1 ∧ s.leg.initAt ≤ s.now then
      { s with leg := { s.leg with initAt := s.now + 1000, frames := ⟨0x01, []⟩ :: s.leg.frames, tries := 0 } }
    else s)

/-- DISPLAY_STEP: every DISP_SCROLL_S seconds the next DISP item is shown (R220). -/
def execDisplayStep (s : State) : Host.Outcome State Fault Refusal :=
  match s.legal with
  | none => .next s
  | some l => .next (if s.leg.showing = .stepping ∧ s.leg.stepped + l.dispScroll * 1000 ≤ s.now then s.nextItem else s)

/-- A note as it is shown: line 0 begins with "~" (R220). [DEDUCED, log 82; unsafe] -/
def noteLines (b : List Byte) : List Byte × List Byte := (126 :: (b.take 15), (b.drop 16).take 16)

/-- Shows a note until a pace. -/
def State.showNote (s : State) (text : List Byte) (until_ : Nat) : State :=
  let s1 := s.showLines (noteLines text).1 (noteLines text).2 true
  { s1 with leg := { s1.leg with showing := .note text until_ } }

/-- A DISPLAY_NOTE judged: shown until its seconds end, behind a keypad request that is shown (R220, R221). -/
def State.judgeNote (s : State) (r : Request) : State × Option Nat :=
  let until_ := s.now + 1000 * fieldAt r.body 32 2
  match s.leg.showing with
  | .request d t _ => ({ s with leg := { s.leg with showing := .request d t (some (r.body.take 32, until_)) } }, some 0)
  | _ => (s.showNote (r.body.take 32) until_, some 0)

/-- DISPLAY_NOTE (R217, R220). -/
def execDisplayNote (s : State) : Host.Outcome State Fault Refusal :=
  .next (s.takeRequest 0x0104
    (fun b => b.length == 34 && decide (1 ≤ fieldAt b 32 2) && decide (fieldAt b 32 2 ≤ 60) &&
      (b.take 32).all fun c => decide (c.toNat < 128)) State.judgeNote)

/-- The display steps again. -/
def State.resumeStepping (s : State) : State :=
  ({ s with leg := { s.leg with showing := .stepping, stepped := s.now } } : State).showItem

/-- A keypad request ends: the note behind it is shown while its seconds last (R221). -/
def State.endRequest (s : State) : State :=
  match s.leg.showing with
  | .request _ _ (some (text, t)) => if s.now < t then s.showNote text t else s.resumeStepping
  | .request _ _ none => s.resumeStepping
  | _ => s

/-- DISPLAY_NOTE_END: a note's seconds have passed (R220). -/
def execDisplayNoteEnd (s : State) : Host.Outcome State Fault Refusal :=
  match s.leg.showing with
  | .note _ t => .next (if t ≤ s.now then s.resumeStepping else s)
  | _ => .next s

/-- DISPLAY_REQUEST_END: a keypad request ends after 30 s (R221). -/
def execDisplayRequestEnd (s : State) : Host.Outcome State Fault Refusal :=
  match s.leg.showing with
  | .request _ t _ => .next (if t ≤ s.now then s.endRequest else s)
  | _ => .next s

/-! ### The keypad (R221, R222, R289) -/

/-- The initial of the time quality. -/
def qualityInitial : Nat → Byte
  | 0 => 83
  | 1 => 72
  | 2 => 70
  | _ => 76

/-- What a keypad request shows (R221). -/
def State.showRequest (s : State) (d : Nat) : State :=
  match d with
  | 0 =>
    let v := s.fld (F.LEG_CHECK.WORD 0)
    s.showLines ([67, 72, 75, 32] ++ hexOf 4 (v / 65536) ++ [32] ++ hexOf 4 v)
      ([85, 80, 68, 32] ++ decimal (s.fld F.LEG_UPD_CNT.COUNT)) false
  | 1 => s.nextItem
  | 2 => s.showLines [76, 79, 71] (decimal (s.fld F.LEG_LOG_SEQ.LSEQ)) false
  | _ =>
    let t := s.timeSec % 86400
    s.showLines [84, 73, 77, 69] (digitsOf 2 (t / 3600) ++ [58] ++ digitsOf 2 (t / 60 % 60) ++ [58] ++
      digitsOf 2 (t % 60) ++ [32, qualityInitial (s.fld F.CLK_QUAL.QUALITY)]) false

/-- Writes the key entry. -/
def State.setKeys (s : State) (k : KeyEntry) : State := { s with leg := { s.leg with keys := k } }

/-- A key is parsed (R221, R222): its ASCII code is 48 to 57, 42 for the star, 35 for the hash, 65 to
68 for A to D. -/
def State.parseKey (s : State) (k : Nat) : State :=
  let digit := decide (48 ≤ k) && decide (k ≤ 57)
  match s.leg.keys with
  | .idle =>
    if digit then s.setKeys (.short [k - 48] s.now)
    else if k = 42 then s.setKeys (.request none) else s
  | .request none => if digit then s.setKeys (.request (some (k - 48))) else s.setKeys .idle
  | .request (some d) =>
    let s1 := s.setKeys .idle
    if k = 35 ∧ d ≤ 3 then
      let behind := match s.leg.showing with | .note text t => some (text, t) | _ => none
      let s2 := { s1 with leg := { s1.leg with showing := .request d (s.now + 30000) behind } }
      s2.showRequest d
    else s1
  | .short l _ =>
    if digit ∧ l.length < 4 then s.setKeys (.short (l ++ [k - 48]) s.now)
    else if k = 35 then s.setKeys (.token (l.foldl (fun n d => n * 10 + d) 0) [] s.now)
    else s.setKeys .idle
  | .token no l _ =>
    if digit ∧ l.length < 20 then s.setKeys (.token no (l ++ [k - 48]) s.now)
    else if k = 35 ∧ l.length = 20 then (s.setKeys .idle).export_ (.keypadToken no l)
    else s.setKeys .idle

/-- KEYPAD_KEY: a debounced key (R289), shown in `PRT_KEY`. A key ends a display request, and the sealed cores parse it while
they run (R221, R222). A port in role OFF takes none (R278). -/
def execKeypadKey (k : Nat) (s : State) : Host.Outcome State Fault Refusal :=
  if s.role 58 ≠ 1 then .next s
  else
    let s1 := { s with regs := (s.regs.setF F.PRT_KEY.KEY k).setF F.PRT_KEY.COUNT (s.fld F.PRT_KEY.COUNT + 1) }
    .next (if s.fld F.LEG_STAT.RUN = 1 then s1.endRequest.parseKey k else s1)

/-- KEYPAD_ENTRY_TIMEOUT: a pause between keys longer than the timeout ends a token entry (R222). -/
def execKeypadEntryTimeout (s : State) : Host.Outcome State Fault Refusal :=
  let lapsed (last : Nat) : Bool := decide (last + 1000 * s.leg.keyTimeout < s.now)
  match s.leg.keys with
  | .short _ last => .next (if lapsed last then s.setKeys .idle else s)
  | .token _ _ last => .next (if lapsed last then s.setKeys .idle else s)
  | _ => .next s

/-! ### Optical readout (R223) -/

/-- OPTICAL_REQUEST: a request message at 300 baud whose device address is empty or equals OPT_ADDR is
answered with the identification (R223). -/
def execOpticalRequest (address : List Byte) (s : State) : Host.Outcome State Fault Refusal :=
  match s.legal with
  | none => .next s
  | some l =>
    .next (if s.role 40 = 1 ∧ s.fld F.LEG_STAT.RUN = 1 ∧ s.fld F.LEG_STAT.OPT_BUSY = 0 ∧ (address.isEmpty ∨ address = l.optAddr.filter (· != 0)) then
      ({ s with leg := { s.leg with optical := .identified } } : State).send .opticalIdent else s)

/-- The data lines of one point (R223). -/
def State.pointLines (s : State) (n : Nat) (e : PointEntry) : List (List Byte × List Byte) :=
  let p := s.tarPoint n
  let acc (a : Nat) : Nat := ((Map.findD s.qty.points n {}).acc.getD a 0).toNat
  let total (c v : Nat) : List Byte × List Byte := (obis n c 8 0, fixedPoint v 1000000000 3)
  [(decimal (n + 1) ++ [45, 48, 58, 48, 46, 49, 46, 48], decimal p.billNo), total 1 (acc 0), total 2 (acc 1)] ++
  (if e.dc then [total 128 (acc 7), total 129 (acc 8)]
   else [total 3 (acc 2 + acc 3), total 4 (acc 4 + acc 5), total 9 (acc 6)]) ++
  ((List.range 8).flatMap fun r =>
    [(obis n 1 8 (r + 1), fixedPoint (p.reg.getD (4 * r) 0).toNat 1000000000 3),
     (obis n 2 8 (r + 1), fixedPoint (p.reg.getD (4 * r + 1) 0).toNat 1000000000 3)]) ++
  ((List.range 8).map fun r => let d := p.dmax.getD r {}
    (obis n 1 6 (r + 1), fixedPoint d.value 1000 3 ++ [32] ++ decimal d.finish))

/-- YYMMDDhhmmss of a UTC second. -/
def stampText (t : Nat) : List Byte :=
  let d := dateOf (t / 86400 : Nat)
  digitsOf 2 d.year ++ digitsOf 2 d.month ++ digitsOf 2 d.day ++ digitsOf 2 (t % 86400 / 3600) ++
    digitsOf 2 (t / 60 % 60) ++ digitsOf 2 (t % 60)

/-- The data message (R223): lines of name and content. -/
def State.dataMessage (s : State) : List (List Byte × List Byte) :=
  let pre : List Byte := [48, 45, 48, 58]
  [(pre ++ [67, 46, 49, 46, 48], hexOf 8 (s.fld (F.KEY_IDENT.WORD 0))),
   (pre ++ [67, 46, 57, 48, 46, 49], (List.range 8).flatMap fun i => hexOf 8 (s.fld (F.LEG_CHECK.WORD i))),
   (pre ++ [67, 46, 57, 48, 46, 50], decimal (s.fld F.LEG_UPD_CNT.COUNT)),
   (pre ++ [49, 46, 48, 46, 48], stampText s.timeSec),
   (pre ++ [67, 46, 57, 48, 46, 51], [qualityInitial (s.fld F.CLK_QUAL.QUALITY)])] ++
  (List.range 12).flatMap fun n => match s.qtyPlan.point n with
    | some e => s.pointLines n e
    | none => []

/-- The baud rates of a mode C acknowledgement, by its digit. -/
def opticalBaud (z : Nat) : Nat := [300, 600, 1200, 2400, 4800, 9600, 19200].getD z 300

/-- The paces that a data message takes: characters of ten bits, each line with two brackets and an end of line, and STX,
the closing line, ETX and BCC around them. [PRESUMED, log 175; unsafe] -/
def readoutPaces (baud : Nat) (lines : List (List Byte × List Byte)) : Nat :=
  let chars := sumNat (fun (l : List Byte × List Byte) => l.1.length + l.2.length + 4) lines + 6
  (10000 * chars + baud - 1) / baud

/-- At a pace boundary a data message that has gone out ends with ETX (R223). -/
def State.opticalDue (s : State) : State :=
  match s.leg.optical with
  | .reading t =>
    if t ≤ s.now then
      (({ s with leg := { s.leg with optical := .idle } } : State).flag F.LEG_STAT.OPT_BUSY false).send .opticalEnd
    else s
  | _ => s

/-- OPTICAL_ACK: an acknowledgement with option 0 takes the readout at the rate named; every other
option is answered with a break (R223). -/
def execOpticalAck (option baud : Nat) (s : State) : Host.Outcome State Fault Refusal :=
  if s.leg.optical = .identified then
    let s1 := { s with leg := { s.leg with optical := .idle } }
    .next (if option = 0 ∧ baud ≤ 6 then
        let until_ := s.now + readoutPaces (opticalBaud baud) s.dataMessage
        let s2 := { s1 with leg := { s1.leg with optical := .reading until_ } }
        ((s2.bump F.LEG_OPT_CNT.COUNT).flag F.LEG_STAT.OPT_BUSY true).send (.opticalData (opticalBaud baud) s.dataMessage)
      else s1.send .opticalBreak)
  else .next s

end Sys2Proof.Machine
end

