-- ==== Sys2Proof/Machine/Frames.lean ====
section
/-! DEFINITION. Frames from meters: the supported parts of M-Bus and DLMS/COSEM (R130), the Tylian application messages under
CCM (R131, R205, R379), the device-to-meter envelope (R232), and the Tylian MAC frame with its MIC (R229, R230). -/

namespace Sys2Proof.Machine

/-! ### M-Bus and DLMS/COSEM (R130) -/

/-- The code of a COSEM object A.B.C.D.E.F. -/
def objectCode (a b c d e f : Nat) : BitVec 48 := BitVec.ofNat 48 (beVal [a, b, c, d, e, f])

/-- Which of EA_IMP, EA_EXP, ER_IMP and ER_EXP an item gives; none where the table of R130 names it for no energy.
[PRESUMED, log 154; unsafe] -/
def FrameItem.quantity : FrameItem → Option Nat
  | .record vif vife ex _ =>
    if vif ≤ 7 ∧ vife = 256 then some (if ex then 1 else 0)
    else if vif = 0xFB ∧ vife ≤ 1 then some (if ex then 3 else 2)
    else none
  | .object code _ => (List.range 4).find? fun k => code == objectCode 1 0 (k + 1) 8 0 255

/-- The error flags: VIF 0xFD with VIFE 0x17, or the captured 0.0.96.5.0.255 (R130). -/
def FrameItem.flags : FrameItem → Option Nat
  | .record vif vife _ v => if vif = 0xFD ∧ vife = 0x17 then some v else none
  | .object code v => if code = objectCode 0 0 96 5 0 255 then some v else none

def FrameItem.value : FrameItem → Nat
  | .record _ _ _ v => v
  | .object _ v => v

/-- PROTOCOL of the record that such a frame may belong to (R124). -/
def FrameUse.protocol : FrameUse → Nat
  | .wireless _ _ _ => 2
  | .wired _ _ _ _ _ => 4
  | .dlms _ _ _ _ _ => 3

/-- Whether the frame uses security (R133). -/
def FrameUse.secured : FrameUse → Bool
  | .wireless _ _ sec => sec != 0
  | .wired _ _ _ _ sec => sec != 0
  | .dlms _ _ _ _ _ => true

/-- Whether a frame on a route uses only what the table of R130 names. Security is absent only where R133 lets it be: on
wired M-Bus. -/
def FrameUse.supported (route : Nat) : FrameUse → Bool
  | .wireless mode ci sec =>
    (route == 1 || route == 2) && decide (1 ≤ mode) && decide (mode ≤ 4) && [0x72, 0x7A].contains ci && [5, 7].contains sec
  | .wired baud service telegrams ci sec =>
    route == 7 && [300, 2400, 9600].contains baud && service == 0 && decide (1 ≤ telegrams) && decide (telegrams ≤ 8) &&
      [0x72, 0x7A].contains ci && [0, 5, 7].contains sec
  | .dlms ln service suite mechanism port =>
    ln && decide (service ≤ 4) && suite == 0 && mechanism == 5 &&
      (if route = 8 then port == 4059 else decide (1 ≤ route) && decide (route ≤ 7))

/-- Sources with a 32-bit counter: security mode 7 and the DLMS invocation counter (R134). -/
def FrameUse.counted : FrameUse → Bool
  | .wireless _ _ sec => sec == 7
  | .wired _ _ _ _ sec => sec == 7
  | .dlms _ _ _ _ _ => true

/-- A reading of the supported items; none where it has no supported value (R130). -/
def readingOf (r : Nat × List FrameItem) : Option FrameEntry :=
  let value (k : Nat) : Option Nat := (r.2.find? fun i => i.quantity == some k).map FrameItem.value
  let flags := BitVec.ofNat 32 ((r.2.findSome? FrameItem.flags).getD 0)
  if r.2.any fun i => i.quantity.isSome then
    some ⟨r.1, flags.getLsbD 0, flags.getLsbD 1, false, (List.range 4).map value⟩
  else none

/-- The readings that a coded frame is left with. -/
def CodedFrame.entries (f : CodedFrame) : List FrameEntry := f.readings.filterMap readingOf

/-! ### Tylian application messages (R131) -/

/-- The first 8 bytes of EXT_ID: the EUI-64 of a Tylian node (R124). -/
def extHead (ext : BitVec 128) : List Byte := beBytes 8 (ext.toNat / 2 ^ 64)

/-- A message opened under a key: bytes 0 to 15 and the plaintext from byte 16 on; none where the tag fails (R131). -/
def openMessage (key : List Byte) (ext : BitVec 128) (l : List Byte) : Option (List Byte) :=
  let head := l.take 16
  let body := (l.drop 16).take (l.length - 24)
  let nonce := extHead ext ++ (l.drop 4).take 4 ++ [0]
  let plain := ccmCrypt key nonce body
  if 24 ≤ l.length ∧ l.drop (l.length - 8) = ccmTag key nonce head plain 8 then some (head ++ plain) else none

/-- Whether bytes are zero. -/
def allZero (l : List Byte) : Bool := l.all fun b => b == 0

/-- Whether a Tylian message has the layout of its type: the reading message 0x21 (R131), the token forward message 0x23
(chapter 09), or FW_STATUS 0x24 (R379). [DEDUCED, log 155; unsafe] -/
def messageOk (type : Nat) (l : List Byte) : Bool :=
  fieldAt l 0 1 == type &&
    (if type = 0x21 then
      let n := fieldAt l 13 1
      decide (1 ≤ n) && decide (n ≤ 8) && l.length == 24 + 40 * n && decide (fieldAt l 1 1 ≤ 1) &&
        fieldAt l 2 2 == 0 && fieldAt l 14 2 == 0
    else if type = 0x23 then l.length == 40 && fieldAt l 1 3 == 0 && fieldAt l 12 4 == 0
    else l.length == 64 && fieldAt l 2 2 == 0)

/-- Entry k of an opened reading message (R131). -/
def tylianEntry (l : List Byte) (k : Nat) : FrameEntry :=
  let o := 16 + 40 * k
  let st := BitVec.ofNat 32 (fieldAt l (o + 4) 4)
  ⟨fieldAt l o 4, st.getLsbD 0, st.getLsbD 1, st.getLsbD 2, (List.range 4).map fun j => some (fieldAt l (o + 8 + 8 * j) 8)⟩

/-- The readings of an opened reading message. -/
def tylianEntries (l : List Byte) : List FrameEntry := (List.range (fieldAt l 13 1)).map (tylianEntry l)

/-! ### What every frame gives -/

def FrameBody.protocol : FrameBody → Nat
  | .tylian _ => 1
  | .coded f => f.use.protocol

/-- Step 1 of R132: a Tylian message of a type on a mesh or power-line route, or a coded frame with a supported value. -/
def IngestFrame.parses (f : IngestFrame) (type : Nat) : Bool :=
  match f.body with
  | .tylian l => decide (1 ≤ f.route) && decide (f.route ≤ 6) && messageOk type l
  | .coded c => type == 0x21 && c.use.supported f.route && !c.entries.isEmpty

/-- The 32-bit frame counter, where the source has one (R134). -/
def IngestFrame.counter (f : IngestFrame) : Option Nat :=
  match f.body with
  | .tylian l => some (fieldAt l 4 4)
  | .coded c => if c.use.counted then c.counter else none

/-- METER_TIME (R131, R135). -/
def IngestFrame.meterTime (f : IngestFrame) : Option Nat :=
  match f.body with
  | .tylian l => some (fieldAt l 8 4)
  | .coded c => c.meterTime

def IngestFrame.secured (f : IngestFrame) : Bool :=
  match f.body with
  | .tylian _ => true
  | .coded c => c.use.secured

/-- Readings a frame takes in the buffer (R146). -/
def IngestFrame.count (f : IngestFrame) : Nat :=
  match f.body with
  | .tylian l => fieldAt l 13 1
  | .coded c => c.entries.length

/-- A frame with its route and t_rx. -/
def IngestFrame.stamp (f : IngestFrame) (route rx : Nat) : IngestFrame := { f with route := route, rx := rx }

/-! ### The envelope (R232, R380) -/

/-- The envelope of a body under a key; `eight` are the first eight bytes of the nonce. -/
def sealBody (key eight : List Byte) (dcounter : Nat) (body : List Byte) : List Byte :=
  let head := packBytes [(1, 0x30), (3, 0), (4, dcounter)]
  let nonce := eight ++ beBytes 4 dcounter ++ [1]
  head ++ ccmCrypt key nonce body ++ ccmTag key nonce head body 8

/-! ### MAC frames (R229, R230) -/

/-- The header of connection and join frames (R229). -/
def macHeader (kind : Nat) (more : Bool) (lsn alsn dst src lctr : Nat) : List Byte :=
  packBytes [(1, kind + (if more then 8 else 0)), (1, lsn), (1, alsn), (1, 0), (2, dst), (2, src), (4, lctr)]

/-- The MIC of header and payload: `dir` is the direction byte (R230). -/
def macMic (lk eui : List Byte) (dir : Nat) (l : List Byte) : List Byte :=
  ccmTag lk (eui ++ (l.drop 8).take 4 ++ beBytes 1 dir) l [] 4

/-- A frame of header and payload, closed by its MIC. -/
def macSealed (lk eui : List Byte) (dir : Nat) (l : List Byte) : List Byte := l ++ macMic lk eui dir l

/-- Whether the MIC of a frame verifies. -/
def macOk (lk eui : List Byte) (dir : Nat) (l : List Byte) : Bool :=
  decide (16 ≤ l.length) && l.drop (l.length - 4) == macMic lk eui dir (l.take (l.length - 4))

/-- KIND, MORE, LSN, ALSN, DST, SRC, LCTR and PAYLOAD of a frame (R229). -/
def macKind (l : List Byte) : Nat := fieldAt l 0 1 % 8
def macMore (l : List Byte) : Bool := (BitVec.ofNat 8 (fieldAt l 0 1)).getLsbD 3
def macLsn (l : List Byte) : Nat := fieldAt l 1 1
def macAlsn (l : List Byte) : Nat := fieldAt l 2 1
def macDst (l : List Byte) : Nat := fieldAt l 4 2
def macSrc (l : List Byte) : Nat := fieldAt l 6 2
def macLctr (l : List Byte) : Nat := fieldAt l 8 4
def macPayload (l : List Byte) : List Byte := (l.drop 12).take (l.length - 16)

end Sys2Proof.Machine
end

