-- ==== Sys2Proof/Machine/Registry.lean ====
section
/-! DEFINITION. The meter registry and the interval store: records, dirty chunks, and the deltas that a
reading gives (R124 to R129, R138 to R145). -/

namespace Sys2Proof.Machine

/-! ### Records -/

/-- The record of a meter; an index never written is FREE. -/
def State.meter (s : State) (i : Nat) : MeterRec := Map.findD s.ing.meters i {}

/-- The ingest lane of a meter: the (i mod n)-th, in ascending lane order, of the n application lanes that hold an INGEST
entry (R126). -/
def State.ingestLane (s : State) (i : Nat) : Option Nat :=
  let lanes := (List.range 8).filter fun l => s.pacePlan.any fun e => e.engine == 0x09 && e.lane == l
  lanes[i % lanes.length]?

def LogEntry.isn : LogEntry → Nat
  | .reading x => x.isn
  | .token w => w.isn
  | .grace n _ _ => n

/-- Log entries are kept until every chunk has been written with a higher ISN (R128). -/
def IngestState.prune (g : IngestState) : IngestState :=
  if g.saved.length = 131072 then
    { g with log := g.log.filter fun e => g.saved.any fun c => decide (c.2.foldl max 0 ≤ e.isn) }
  else g

/-- LAST_QUALITY is the quality word of the newest entry (R124). -/
def MeterRec.withQuality (r : MeterRec) : MeterRec :=
  match Map.find r.store (r.lastStart / 60) with
  | some e => { r with lastQuality := e.quality }
  | none => r

/-- Writes a record; its chunk becomes dirty (R127). -/
def State.setMeter (s : State) (i : Nat) (r : MeterRec) : State :=
  let dirty := match Map.find s.ing.dirty (i / 8) with
    | some _ => s.ing.dirty
    | none => Map.set s.ing.dirty (i / 8) s.now
  { s with
    ing := { s.ing with meters := Map.set s.ing.meters i r.withQuality, dirty := dirty }
    regs := s.regs.setF F.ING_REG_DIRTY.CHUNKS dirty.length }

/-- The record of an ACTIVE meter. -/
def State.activeMeter (s : State) (i : Nat) : Option MeterRec :=
  if (s.meter i).state = .active then some (s.meter i) else none

/-- Takes the next ISN (R128). -/
def State.takeIsn (s : State) : State × Nat :=
  let n := s.ing.isn + 1
  ({ s with ing := { s.ing with isn := n }, regs := s.regs.put64 R.ING_ISN_LO n }, n)

/-- Keeps a durable entry of the reading log. -/
def State.logEntry (s : State) (e : LogEntry) : State := { s with ing := { s.ing with log := s.ing.log ++ [e] } }

/-- FLAGS of a record (R124). -/
def MeterConf.flag (c : MeterConf) (i : Nat) : Bool := c.flags.getLsbD i

/-- The binding that governs an interval starting at a UTC minute: a change governs intervals from the
pace boundary after its item on (R126). -/
def MeterRec.confAt (r : MeterRec) (start : Nat) : MeterConf :=
  match r.changed.find? fun c => decide (start * 60000 < c.2) with
  | some (old, _) => old
  | none => r.conf

/-- Every binding of a record, newest first. -/
def MeterRec.confs (r : MeterRec) : List MeterConf := r.conf :: (r.changed.map Prod.fst).reverse

/-- The binding of the interval that ends at a UTC minute. -/
def MeterRec.confEnd (r : MeterRec) (t : Nat) : MeterConf :=
  (r.confs.find? fun c => decide (r.confAt (t - c.intervalMin) = c)).getD r.conf

/-- A dirty chunk as written to NAND with APPLIED_ISN of its records; what JOURNAL holds of them is no longer needed (R127).
[DEDUCED, log 86; unsafe] -/
def State.writeChunk (s : State) (chunk : Nat) : State :=
  let g := { s.ing with
    dirty := Map.erase s.ing.dirty chunk
    saved := Map.set s.ing.saved chunk ((List.range 8).map fun k => (s.meter (8 * chunk + k)).appliedIsn)
    journal := s.ing.journal.filter fun i => i / 8 != chunk }
  { s with ing := g.prune, regs := s.regs.setF F.ING_REG_DIRTY.CHUNKS g.dirty.length }

/-- CHUNK_WRITE: a dirty chunk is written (R127). -/
def execChunkWrite (chunk : Nat) (s : State) : Host.Outcome State Fault Refusal :=
  match Map.find s.ing.dirty chunk with
  | none => .next s
  | some _ => .next (s.writeChunk chunk)

/-- The chunks that have been dirty for `ING_CKPT.SECONDS` are written at the pace boundary at the latest (R127). -/
def State.chunksDue (s : State) : State :=
  (s.ing.dirty.filter fun e => decide (e.2 + 1000 * s.fld F.ING_CKPT.SECONDS ≤ s.now)).foldl
    (fun t e => t.writeChunk e.1) s

/-- The retention of the INTERVALS namespace in days (R296). -/
def State.retentionDays (s : State) : Nat := match s.warp.active with | some w => w.storage.retentionDays | none => 62

/-- The minute before which what the INTERVALS namespace holds is older than its retention (R139). -/
def State.oldestKept (s : State) : Nat := (s.timeSec - 86400 * s.retentionDays) / 60

/-! ### The interval store (R139 to R145) -/

/-- One change of the store: interval start in UTC minutes, what was held, and what is held now. -/
structure Change where
  start : Nat
  old : Option IntervalEntry
  new : IntervalEntry
  deriving DecidableEq, Repr

/-- u in µWh (R140). -/
def MeterConf.unit (c : MeterConf) : Nat := 10 ^ (c.unitExp + 3)

/-- A delta with what makes it carry OVERFLOW: saturation, a decrease, or PMAX_KW; and REVERSED where both are above 0 (R140,
R144). -/
def entryOf (r : MeterRec) (c : MeterConf) (q : BitVec 16) (source isn imp exp : Nat) (dec : Bool) : IntervalEntry :=
  let top := 4294967295
  let bound (d : Nat) : Bool :=
    r.pmaxKw != 0 && decide (r.pmaxKw * 1000000 * c.intervalMin < d * 10 ^ c.unitExp * 60)
  let overflow := dec || decide (top < imp) || decide (top < exp) || bound (min imp top) || bound (min exp top)
  let q1 := qset q Q.OVERFLOW overflow
  ⟨qset q1 Q.REVERSED (decide (0 < imp) && decide (0 < exp)), source, min imp top, min exp top, isn⟩

/-- Clears a flag of a quality word. -/
def qclear (q : BitVec 16) (bit : Nat) : BitVec 16 := q &&& ~~~ BitVec.ofNat 16 (2 ^ bit)

/-- The flags of a reading held at an interval, which a later reading never clears (R145): those of an entry that a reading
made, other than VALID, ESTIMATED and DEFAULT_RATE. -/
def keptFlags (o : Option IntervalEntry) : BitVec 16 :=
  match o with
  | some e => if e.source = 0 then 0 else qclear (qclear (qclear e.quality Q.VALID) Q.ESTIMATED) Q.DEFAULT_RATE
  | none => 0

/-- The change of ⌊I/u⌋ between two indexes, and whether the index decreased (R140). -/
def indexStep (u a b : Nat) : Nat × Bool := (b / u - a / u, decide (b < a))

/-- Whether the store holds a VALID entry for an interval. -/
def MeterRec.validAt (r : MeterRec) (m : Nat) : Bool :=
  match Map.find r.store m with | some e => qget e.quality Q.VALID | none => false

/-- The entries between two held indexes at minutes `t1` and `t2` (R140, R142); `q`, `source` and `isn`
belong to the reading at `t2`. Intervals that hold a VALID entry keep it, and the rest share what it
leaves. -/
def deriveSpan (r : MeterRec) (t1 t2 : Nat) (a b : Nat × Nat) (q : BitVec 16) (source isn : Nat) :
    List (Nat × IntervalEntry) :=
  let c := r.confEnd t2
  let p := c.intervalMin
  let (di, ni) := indexStep c.unit a.1 b.1
  let (de, ne) := indexStep c.unit a.2 b.2
  let mids := (List.range ((t2 - t1) / p - 1)).map fun j => t1 + j * p
  let none_ : IntervalEntry := ⟨0, 0, 0, 0, 0⟩
  let keptImp := sumNat (fun m => if r.validAt m then (Map.findD r.store m none_).imp else 0) mids
  let keptExp := sumNat (fun m => if r.validAt m then (Map.findD r.store m none_).exp else 0) mids
  let open_ := mids.filter fun m => !r.validAt m
  let i := di - keptImp
  let e := de - keptExp
  let n := open_.length + 1
  if open_.isEmpty then [(t2 - p, entryOf r c q source isn i e (ni || ne))]
  else if r.conf.flag 4 && !r.conf.flag 5 then
    let mark (m : Nat) : BitVec 16 := match Map.find r.store m with
      | some x => qset (qset 0 Q.ESTIMATED) Q.DEFAULT_RATE (qget x.quality Q.DEFAULT_RATE)
      | none => qset 0 Q.ESTIMATED
    (open_.map fun m => (m, entryOf r c (mark m) 0 isn (i / n) (e / n) false)) ++
      [(t2 - p, entryOf r c (qset q Q.ESTIMATED) source isn (i / n + i % n) (e / n + e % n) (ni || ne))]
  else [(t2 - p, entryOf r c (qset q Q.GAP) source isn i e (ni || ne))]

/-- Stores entries, each with what it replaces. -/
def storeAll (r : MeterRec) (l : List (Nat × IntervalEntry)) : MeterRec × List Change :=
  ({ r with store := l.foldl (fun m e => Map.set m e.1 e.2) r.store },
   l.map fun e => ⟨e.1, Map.find r.store e.1, e.2⟩)

/-- The held indexes next before and next after a minute. -/
def heldBefore (r : MeterRec) (t : Nat) : Option (Nat × (Nat × Nat)) := (r.held.filter fun e => decide (e.1 < t)).getLast?
def heldAfter (r : MeterRec) (t : Nat) : Option (Nat × (Nat × Nat)) := r.held.find? fun e => decide (t < e.1)

/-- What follows the newest interval: LAST_START and the indexes (R140). -/
def MeterRec.advance (r : MeterRec) (endMin period : Nat) (idx : List Nat) : MeterRec :=
  if r.lastStart + 60 * period < endMin * 60 then { r with lastStart := endMin * 60 - 60 * period, idx := idx } else r

/-- A baseline entry: GAP with the reading's flags other than VALID, both deltas 0 (R141). -/
def baselineEntry (q : BitVec 16) (source isn : Nat) : IntervalEntry := ⟨qset (qclear q Q.VALID) Q.GAP, source, 0, 0, isn⟩

/-- The quality an entry is derived anew from: its own flags, with VALID and without ESTIMATED (R142, R145).
[DEDUCED, log 85; unsafe] -/
def rederived (q : BitVec 16) : BitVec 16 := qset (qclear q Q.ESTIMATED) Q.VALID

/-- The entry that ends at the next held index, derived anew (R141, R142). -/
def deriveNext (r : MeterRec) (t : Nat) (v : Nat × Nat) : List (Nat × IntervalEntry) :=
  match heldAfter r t with
  | none => []
  | some (t3, w) =>
    let old := Map.findD r.store (t3 - (r.confEnd t3).intervalMin) ⟨0, 0, 0, 0, 0⟩
    deriveSpan r t t3 v w (rederived old.quality) old.source old.isn

/-- Value k of a reading; what the frame does not give counts as `d`. -/
def Reading.value (x : Reading) (k d : Nat) : Nat := (x.values.getD k none).getD d

/-- The four indexes of a record after a reading: those of an index reading, or the old ones raised by its deltas (R140). A
value that the frame does not give leaves its index. -/
def MeterRec.newIdx (r : MeterRec) (x : Reading) : List Nat :=
  (List.range 4).map fun k =>
    let old := r.idx.getD k 0
    if x.profile then old + x.value k 0 else x.value k old

/-- A REPLACE push carries VALID, and DUP and ESTIMATED are cleared (R148). -/
def pushed (x : Reading) (e : IntervalEntry) : IntervalEntry :=
  if x.replace then { e with quality := qset (qclear (qclear e.quality Q.ESTIMATED) Q.DUP) Q.VALID } else e

/-- The active indexes of an index reading; one that the frame does not give stays what it was. -/
def MeterRec.indexes (r : MeterRec) (x : Reading) : Nat × Nat :=
  let p := match heldBefore r x.endMin with | some (_, a) => a | none => (0, 0)
  (x.value 0 p.1, x.value 1 p.2)

/-- An index reading (R140 to R142). -/
def MeterRec.indexReading (r : MeterRec) (x : Reading) : MeterRec × List Change :=
  let t := x.endMin
  let v := r.indexes x
  let r1 := { r with held := Map.set r.held t v, raw := Map.erase r.raw t }
  let q := x.quality ||| (if x.replace then 0 else keptFlags (Map.find r.store (t - x.period)))
  let own := match heldBefore r t with
    | none => [(t - x.period, baselineEntry q x.route x.isn)]
    | some (t1, a) => deriveSpan r1 t1 t a v q x.route x.isn
  let (r2, c1) := storeAll r1 (own.map fun e => if e.1 = t - x.period then (e.1, pushed x e.2) else e)
  let (r3, c2) := storeAll r2 (deriveNext r2 t v)
  ((if r.held.isEmpty then { r3 with lastStart := 60 * (t - x.period), idx := r.newIdx x }
    else r3.advance t x.period (r.newIdx x)), c1 ++ c2)

/-- The remainder that reaches a profile interval ending at `t` from the meter's interval before it (R140). -/
def carryInto (r : MeterRec) (t : Nat) : Nat × Nat :=
  match (r.carry.filter fun e => decide (e.1 < t)).getLast? with
  | some (_, v) => v
  | none => (0, 0)

/-- One profile interval with what is carried into it; its remainder is carried on (R140). -/
def MeterRec.profileStep (r : MeterRec) (t : Nat) (v : Nat × Nat) (q : BitVec 16) (source isn : Nat) :
    MeterRec × List (Nat × IntervalEntry) :=
  let c := r.confEnd t
  let k := carryInto r t
  let i := v.1 + k.1
  let e := v.2 + k.2
  ({ r with carry := Map.set r.carry t (i % c.unit, e % c.unit) },
   [(t - c.intervalMin, entryOf r c q source isn (i / c.unit) (e / c.unit) false)])

/-- The profile intervals after one whose remainder changed, in time: an entry is stored anew where a delta changes. -/
def MeterRec.carryOn (r : MeterRec) (l : List (Nat × (Nat × Nat))) : MeterRec × List Change :=
  l.foldl (fun a e =>
    let start := e.1 - (a.1.confEnd e.1).intervalMin
    match Map.find a.1.store start with
    | none => a
    | some old =>
      let (r1, n) := a.1.profileStep e.1 e.2 old.quality old.source old.isn
      if n.all fun x => decide (x.2.imp = old.imp) && decide (x.2.exp = old.exp) then (r1, a.2)
      else let (r2, c) := storeAll r1 n; (r2, a.2 ++ c)) (r, [])

/-- A reading of interval deltas (R140): remainders go to the meter's next interval in time. -/
def MeterRec.profileReading (r : MeterRec) (x : Reading) : MeterRec × List Change :=
  let t := x.endMin
  let v := (x.value 0 0, x.value 1 0)
  let q := x.quality ||| (if x.replace then 0 else keptFlags (Map.find r.store (t - x.period)))
  let (r1, own) := { r with raw := Map.set r.raw t v, held := Map.erase r.held t }.profileStep t v q x.route x.isn
  let (r2, c1) := storeAll r1 (own.map fun e => (e.1, pushed x e.2))
  let (r3, c2) := r2.carryOn (r2.raw.filter fun e => decide (t < e.1))
  (r3.advance t x.period (r.newIdx x), c1 ++ c2)

/-- How many spans that a reading bounds end on a lower index: one EV_INDEX_DECREASE each (R140). -/
def MeterRec.decreases (r : MeterRec) (x : Reading) : Nat :=
  let v := r.indexes x
  let falls (a b : Nat × Nat) : Bool := decide (b.1 < a.1) || decide (b.2 < a.2)
  if x.profile then 0
  else (match heldBefore r x.endMin with | some (_, a) => if falls a v then 1 else 0 | none => 0) +
    (match heldAfter r x.endMin with | some (_, b) => if falls v b then 1 else 0 | none => 0)

/-- What the store returns for an interval: a synthetic entry where it holds none (R143). -/
def MeterRec.entryAt (r : MeterRec) (start : Nat) : IntervalEntry :=
  Map.findD r.store start ⟨qset 0 Q.GAP, 0, 0, 0, 0⟩

/-- The 16 bytes of an interval store entry (R139). -/
def IntervalEntry.bytes (e : IntervalEntry) (start : Nat) : List Byte :=
  packBytes [(4, start), (2, e.quality.toNat), (1, e.source), (1, 0), (4, e.imp), (4, e.exp)]

end Sys2Proof.Machine
end

