-- ==== Sys2Proof/Machine/MeterTariff.lean ====
section
/-! DEFINITION. Registration, demand and billing closes of the meters (R182 to R191). -/

namespace Sys2Proof.Machine

/-! ### The set and the rate of an interval (R177, R182) -/

/-- The set that R177 assigns to an instant in UTC seconds: a set from its ACTIVATE on, and the superseded set before that of
the active one. -/
def calSetAt (k : Calendar) (t : Nat) : Option CalSet :=
  let from_ (o : Option CalSet) : Option CalSet := o.filter fun c => decide (calActivate c ≤ t)
  (from_ k.passive).orElse fun _ => (from_ k.active).orElse fun _ => k.superseded

/-- The rate of an interval of a meter, and whether it is a default rate. Where R177 assigns it no set the spec states no
rate: a free value. [DESIGN CHOICE, log 156; safe] -/
def State.meterRate (s : State) (c start : Nat) (lost : Bool) : Nat × Bool :=
  match calSetAt (s.storedCal c) (start * 60) with
  | some set => if lost then (calDefaultRate set, true) else (rateAt set (start * 60), false)
  | none => (s.free % 8, lost)

/-! ### Demand (R186, R187) -/

/-- The starts of a meter's intervals from minute `t` up to `b`; the first argument bounds them. -/
def MeterRec.starts (r : MeterRec) : Nat → Nat → Nat → List Nat
  | 0, _, _ => []
  | n + 1, t, b => if t < b then t :: r.starts n (t + max 1 (r.confAt t).intervalMin) b else []

/-- The starts of a meter's intervals in [a, b). -/
def MeterRec.span (r : MeterRec) (a b : Nat) : List Nat := r.starts (b - a) a b

/-- Whether an interval is held and not a GAP (R187). -/
def MeterRec.collected (r : MeterRec) (m : Nat) : Bool :=
  match Map.find r.store m with | some e => !qget e.quality Q.GAP | none => false

/-- Import energy of a span in mWh, where every entry in it is collected (R187). -/
def spanImport (r : MeterRec) (a b : Nat) : Option Nat :=
  let l := r.span a b
  if l.all r.collected then some (sumNat (fun m => (r.entryAt m).imp * 10 ^ (r.confAt m).unitExp) l) else none

/-- The minutes from 1970-01-01 to 2020-01-01. -/
def minutes2020 : Nat := 26297280

/-- The rate in force for a meter at minute `m`: that to which its entry there is registered (R182, R186). -/
def rateInForce (k : Calendar) (r : MeterRec) (m : Nat) : Nat :=
  match calSetAt k (m * 60) with
  | some set => if qget (r.entryAt m).quality Q.DEFAULT_RATE then calDefaultRate set else rateAt set (m * 60)
  | none => 0

/-- The window of a meter that ends at a minute (R186, R187). -/
def meterWindow (k : Calendar) (set : CalSet) (r : MeterRec) (w : Nat) : MeterRec :=
  let d := calDemandMin set
  match spanImport r (w - d) w with
  | none => r
  | some e =>
    { r with tar := { r.tar with
      dmax := dmaxOffer r.tar.dmax (rateInForce k r (w - calLs set)) ⟨min (e * 60 / (d * 1000)) 4294967295, w - minutes2020, 0⟩ } }

/-- The windows that end in (a, b], ascending (R187). None ends before the store begins. -/
def meterWindows (k : Calendar) (set : CalSet) (r : MeterRec) (a b : Nat) : MeterRec :=
  let ls := max 1 (calLs set)
  let from_ := max a (match r.store with | e :: _ => e.1 | [] => b)
  ((List.range ((b - from_) / ls + 1)).map fun k => (from_ / ls + 1 + k) * ls).foldl
    (fun r w => if from_ < w ∧ w ≤ b then meterWindow k set r w else r) r

/-! ### Billing closes (R190) -/

/-- The next boundary of a meter, scheduled or commanded. -/
def MeterTar.nextBill (m : MeterTar) : Option Nat :=
  match m.billNext, m.commanded.head? with
  | some a, some b => some (min a b)
  | some a, none => some a
  | none, b => b

/-- METER_BILLING_CLOSE at minute `b` (R190): BILL_NO rises, the snapshot goes into the ring of 24,
every DMAX becomes 0, and the next boundary is that of the billing period which begins (R188). -/
def State.meterClose (s : State) (i b : Nat) (incomplete : Bool) (isn : Nat) : State :=
  let r := s.meter i
  let m := r.tar
  let cal := (r.confAt b).calendar
  let commanded := m.commanded.contains b && m.billNext != some b
  let no := nextBillNo m.billNo
  let flags : BitVec 8 := (if incomplete then tarFlag 0 else 0) ||| (if commanded then tarFlag 1 else 0) |||
    (if m.defaultSeen then tarFlag 2 else 0)
  let snap : MeterSnapshot := ⟨i, no, flags, cal, b * 60, isn, m.reg, m.dmax⟩
  let m1 := { m with
    billNo := no, lastIncomplete := incomplete, defaultSeen := false, dmax := List.replicate 8 {}, closed := b, start := b
    billNext := (calSetAt (s.storedCal cal) (b * 60)).bind fun set => nextBilling set b
    commanded := m.commanded.filter (· != b) }
  let ring := Map.findD s.ing.snaps i [] ++ [snap]
  let s1 := (s.setMeter i { r with tar := m1 }).bump F.TAR_CLOSE_CNT.COUNT
  { s1 with ing := { s1.ing with snaps := Map.set s1.ing.snaps i (ring.drop (ring.length - 24)) } }

/-- The closes that fall at or before the start of an entry, ascending, while HWM_MIN is before them (R190). The first
argument bounds them: one a day since the newest. -/
def State.closesBefore (i start isn : Nat) : Nat → State → State
  | 0, s => s
  | n + 1, s => match (s.meter i).tar.nextBill with
    | none => s
    | some b => if b ≤ start then State.closesBefore i start isn n (s.meterClose i b false isn) else s

/-! ### Registration (R182, R184) -/

/-- Adds a signed amount to a 48-bit register. -/
def addReg (l : List (BitVec 48)) (k : Nat) (v : Int) : List (BitVec 48) :=
  setAt l k (l.getD k 0 + BitVec.ofInt 48 v)

/-- TARIFF_REGISTER of one change of the store (R184): the difference to what was registered before, the
reactive deltas in mvarh where the entry advanced the indexes, and the windows due. `lost`: device time was LOST at the
alignment of the reading that produced the entry (R182); `anew`: that reading is the one just taken. Returns the calendar and
the rate with the import difference in mWh for the debit of R204. -/
def State.registerEntry (s : State) (i isn : Nat) (lost anew : Bool) (reactive : Nat × Nat) (c : Change) :
    State × (Nat × Nat) × Int :=
  let s1 := if (s.meter i).tar.hwm ≤ c.start
    then State.closesBefore i c.start isn ((c.start - (s.meter i).tar.closed) / 1440 + 3) s else s
  let r := s1.meter i
  let conf := r.confAt c.start
  let (rate, dflt) := s1.meterRate conf.calendar c.start lost
  let unit : Int := 10 ^ conf.unitExp
  let old := c.old.getD ⟨0, 0, 0, 0, 0⟩
  let di : Int := ((c.new.imp : Int) - old.imp) * unit
  let de : Int := ((c.new.exp : Int) - old.exp) * unit
  let m := r.tar
  let reg := addReg (addReg (addReg (addReg m.reg (4 * rate) di) (4 * rate + 1) de) (4 * rate + 2) reactive.1)
    (4 * rate + 3) reactive.2
  let k := s1.storedCal conf.calendar
  let set := calSetAt k (c.start * 60)
  let m1 := { m with reg := reg, defaultSeen := m.defaultSeen || dflt }
  let new := { c.new with quality := qset (qclear c.new.quality Q.DEFAULT_RATE) Q.DEFAULT_RATE dflt }
  let r1 := { r with tar := m1, store := Map.set r.store c.start new }
  let endMin := c.start + conf.intervalMin
  let r2 := if m.hwm < endMin then
      let r3 := match set with | some x => meterWindows k x r1 m.hwm endMin | none => r1
      { r3 with tar := { r3.tar with hwm := endMin } }
    else r1
  let drawn := if set.isNone then s1.draw else s1
  let s2 := drawn.setMeter i r2
  let regs := if dflt && anew then s2.regs.bump F.TAR_DEFAULT_CNT.COUNT 1 else s2.regs
  let regs := if c.start < m.closed then regs.bump F.TAR_LATE_CNT.COUNT 1 else regs
  ({ s2 with regs := regs }, (conf.calendar, rate), di)

/-- METER_GRACE_CLOSE: device time has reached B plus the grace: the windows up to B are formed, HWM_MIN
becomes B, and the close takes an ISN and is logged (R190). [DEDUCED, log 84; unsafe] -/
def execMeterGraceClose (i : Nat) (s : State) : Host.Outcome State Fault Refusal :=
  let r := s.meter i
  match r.tar.nextBill with
  | none => .next s
  | some b =>
    if r.state ≠ .free ∧ (b + s.fld F.TAR_BILL_GRACE.MINUTES) * 60 ≤ s.timeSec then
      let k := s.storedCal (r.confAt b).calendar
      let r1 := match calSetAt k (b * 60) with | some x => meterWindows k x r r.tar.hwm b | none => r
      let missing := (r.span r.tar.start b).any fun m => (Map.find r.store m).isNone
      let (s1, isn) := (s.setMeter i { r1 with
        appliedIsn := max r1.appliedIsn (s.ing.isn + 1)
        tar := { r1.tar with hwm := max r1.tar.hwm b } }).takeIsn
      .next ((s1.logEntry (.grace isn i b)).meterClose i b missing isn)
    else .next s

end Sys2Proof.Machine
end

