-- ==== Sys2Proof/Machine/Prepay.lean ====
section
/-! DEFINITION. Prepayment: credit and its state, debits, tokens on their three paths, and TOKEN_SUBMIT
(R198 to R208). -/

namespace Sys2Proof.Machine

/-! ### Credit (R202 to R204) -/

/-- CREDIT is a signed 64-bit number (R202). [DEDUCED, log 91; unsafe] -/
def wrap64 (v : Int) : Int := signedOf 8 (unsignedOf 8 v)

/-- The unit index u of the limits: 0 energy, 1 money (R203). -/
def MeterPrepay.u (p : MeterPrepay) : Nat := if p.money then 1 else 0

/-- STATE as R203 states it, with the LOW limit. -/
def MeterPrepay.judge (p : MeterPrepay) (low : Nat) : CreditState :=
  if p.credit ≤ -(p.emergLimit : Int) then .exhausted
  else if p.credit ≤ 0 then .emergency
  else if p.credit ≤ low then .low
  else .credit

/-- The number of a STATE (R202). -/
def CreditState.code : CreditState → Nat
  | .credit => 0 | .low => 1 | .emergency => 2 | .exhausted => 3

/-- The credit-state message, MSG_TYPE 0x31. -/
def creditMessage (p : MeterPrepay) (cause : Nat) : List Byte :=
  packBytes [(1, 0x31), (1, p.state.code), (2, cause), (4, p.seqHigh), (8, unsignedOf 8 p.credit),
    (4, p.emergLimit), (1, p.u), (3, 0)]

/-- Device-to-meter bodies that wait for the digest of their pace: credit state and APP_ACK (R398). -/
def waitsForDigest (body : List Byte) : Bool := fieldAt body 0 1 == 0x31 || fieldAt body 0 1 == 0x32

/-- Queues a device-to-meter body (R232). -/
def State.tellMeter (s : State) (i : Nat) (body : List Byte) : State :=
  if waitsForDigest body && s.withholds then
    { s with pair := { s.pair with held := s.pair.held ++ [(s.now, .envelope i body)] } }
  else { s with ing := { s.ing with toMeter := s.ing.toMeter ++ [(i, body)] } }

/-- Sends the credit-state message to a meter of PROTOCOL 1. -/
def State.tellCredit (s : State) (i cause : Nat) : State :=
  if (s.meter i).conf.protocol = 1 then s.tellMeter i (creditMessage (s.meter i).prepay cause) else s

/-- PREPAY_STATE_CHANGE: STATE is re-evaluated; a change records EV_PPY_STATE (R203). Returns whether it
changed. -/
def State.evalCredit (s : State) (i : Nat) : State × Bool :=
  let r := s.meter i
  let new := r.prepay.judge (s.fld (F.PPY_LOW.LOW r.prepay.u))
  if new = r.prepay.state then (s, false)
  else
    let s1 := s.setMeter i { r with prepay := { r.prepay with state := new } }
    (s1.post Ev.PPY_STATE [b4 i, b1 r.prepay.state.code, b1 new.code], true)

/-- PREPAY_STATE_CHANGE with its credit-state message (R203). -/
def State.creditChanged (s : State) (i : Nat) : State :=
  let (s1, changed) := s.evalCredit i
  if changed then s1.tellCredit i 0 else s1

/-- What a debit of E mWh leaves: credit and FRAC (R204). -/
def MeterPrepay.debit (p : MeterPrepay) (e : Int) (price : Nat) : MeterPrepay :=
  let d : Int := if p.money then 1000000 else 1000
  let x : Int := (if p.money then e * price else e) + p.frac
  { p with credit := wrap64 (p.credit - x / d), frac := (x % d).toNat }

/-- PREPAY_DEBIT of a registered entry: E in mWh at the calendar and the rate of the entry (R204). -/
def State.debitMeter (s : State) (i : Nat) (rate : Nat × Nat) (e : Int) : State :=
  let r := s.meter i
  if r.conf.flag 3 then
    let price := s.fld (F.PPY_PRICE.PRICE rate.1 rate.2)
    (s.setMeter i { r with prepay := r.prepay.debit e price }).creditChanged i
  else s

/-! ### Tokens (R198 to R201) -/

/-- N of twenty decimal digits, the first most significant; none where a digit is missing (R198). -/
def tokenNumber (d : List Nat) : Option Nat :=
  if d.length = 20 ∧ d.all (fun x => decide (x ≤ 9)) then some (d.foldl (fun n x => n * 10 + x) 0) else none

/-- Bits `lo` to `lo + n - 1` of a number. -/
def natBits (v lo n : Nat) : Nat := v / 2 ^ lo % 2 ^ n

/-- The fields of N (R198). -/
def tokType (n : Nat) : Nat := natBits n 62 4
def tokExp (n : Nat) : Nat := natBits n 58 4
def tokMant (n : Nat) : Nat := natBits n 46 12
def tokSeq (n : Nat) : Nat := natBits n 24 22
def tokMac (n : Nat) : Nat := natBits n 0 24
/-- The amount in base units (R198). -/
def tokAmount (n : Nat) : Nat := tokMant n * 10 ^ tokExp n

/-- N of a well-formed token (R198). -/
def tokenOf (d : List Nat) : Option Nat :=
  match tokenNumber d with
  | none => none
  | some n => if n < 2 ^ 66 ∧ tokExp n ≤ 9 ∧ tokSeq n ≠ 0 then some n else none

/-- The 8 bytes the MAC is over (R199). -/
def tokenText (v n : Nat) : List Byte := packBytes [(1, 0x54), (1, v), (6, natBits n 24 42)]

/-- What a token check finds (R199, R345, R346). -/
inductive TokenMac where
  | good | bad | noSlot | keyMissing
  deriving DecidableEq, Repr

/-- Verifies a token under the meter's vending key revision: the vending key is unwrapped and the token key derived into
key slots, which are released once the check ends (R199, R346). A revision without a key verifies nothing (R201); a key
that does not unwrap is missing (R346). -/
def State.verifyToken (s : State) (r : MeterRec) (n : Nat) : State × TokenMac :=
  match Map.find s.ing.vkeys r.prepay.vkr with
  | none => (s, .bad)
  | some w =>
    if !s.poolHas 2 then (s.slotsFull, .noSlot)
    else match s.unwrap w with
      | none => (if s.keysReady then s.bump F.KEY_UNWRAP_FAIL_CNT.COUNT else s, .keyMissing)
      | some vk =>
        let mac := cmac (tokenKey vk (beBytes 16 r.conf.extId.toNat)) (tokenText r.prepay.vkr n)
        (s.showSlotsWith 2, if beVal (mac.take 3) = tokMac n then .good else .bad)

/-- How a counter or sequence is judged against a window (R134, R206). -/
inductive WindowVerdict where
  | accept (high : Nat) (win : BitVec 64)
  | used
  | old
  deriving DecidableEq, Repr

/-- The window rule of R134 and R206. -/
def windowJudge (high : Nat) (win : BitVec 64) (c : Nat) : WindowVerdict :=
  if high < c then .accept c ((win <<< (c - high)) ||| 1)
  else if high ≤ c + 63 then
    if win.getLsbD (high - c) then .used else .accept high (win ||| BitVec.ofNat 64 (2 ^ (high - c)))
  else .old

/-- Takes an accepted sequence into a window. -/
def windowTake (h : Nat × BitVec 64) (c : Nat) : Nat × BitVec 64 :=
  match windowJudge h.1 h.2 c with
  | .accept a w => (a, w)
  | _ => h

/-- SEQ_HIGH and SEQ_WIN with the tokens that wait for their log entry. -/
def State.tokenWindow (s : State) (i : Nat) : Nat × BitVec 64 :=
  s.ing.tokens.foldl (fun h t => match t.act with
    | .token seq _ _ => if t.index = i then windowTake h seq else h
    | .adjust _ => h) ((s.meter i).prepay.seqHigh, (s.meter i).prepay.seqWin)

/-! ### Acceptance (R205, R206) -/

/-- The number of a path in an event. -/
def TokenPath.code : TokenPath → Nat
  | .meter => 0 | .host _ _ => 1 | .cabinet => 2

/-- A token failed: counted by its cause and recorded (R205). [DEDUCED, log 89; unsafe] -/
def State.rejectToken (s : State) (i cause : Nat) (path : TokenPath) : State :=
  let s1 := if 0x0600 ≤ cause ∧ cause ≤ 0x0605 then s.bump (F.PPY_REJ_CNT.COUNT (cause - 0x0600)) else s
  s1.post Ev.PPY_REJECT [b4 i, b2 cause, b8 path.code]

/-- Step 4 failed: FAIL_CNT rises and may lock the keypads (R205). -/
def State.macFailed (s : State) (i : Nat) : State :=
  let r := s.meter i
  let n := min (r.prepay.failCnt + 1) 255
  let lock := !r.prepay.locked && decide (s.fld F.PPY_KEYPAD.FAILS ≤ n)
  let s1 := s.setMeter i { r with prepay := { r.prepay with failCnt := n, locked := r.prepay.locked || lock } }
  s1.postIf lock Ev.PPY_LOCK [b4 i]

/-- Steps 5 to 7: the cause of the first that fails (R205). -/
def State.tokenCause (s : State) (i n : Nat) : Option Nat :=
  let p := (s.meter i).prepay
  let t := tokType n
  let (h, w) := s.tokenWindow i
  if ¬ (t = p.u ∨ t = 2 ∨ t = 3) then some Cause.TOKEN_TYPE
  else match windowJudge h w (tokSeq n) with
    | .used => some Cause.USED
    | .old => some Cause.TOO_OLD
    | .accept _ _ =>
      if t ≤ 1 ∧ (s.fld (F.PPY_LIMIT.MAX p.u) : Int) < p.credit + tokAmount n then some Cause.CREDIT_LIMIT
      else none

/-- Logs a token or an adjustment with the next ISN (R205 step 8). -/
def State.logToken (s : State) (i : Nat) (act : TokenAct) (path : TokenPath) : State :=
  let (s1, isn) := s.takeIsn
  { s1 with ing := { s1.ing with tokens := s1.ing.tokens ++ [⟨isn, i, act, path, s.now⟩] } }

/-- TOKEN_CHECK: the steps of R205 for a token whose record, if any, the path found; `named` is the index that an event
names. Returns the cause of a failure; none where the token is logged. -/
def State.checkToken (s : State) (digits : List Nat) (named : Nat) (found : Option Nat) (path : TokenPath) :
    State × Option Nat :=
  let fail (t : State) (i c : Nat) : State × Option Nat := (t.rejectToken i c path, some c)
  match tokenOf digits with
  | none => fail s named Cause.TOKEN_FORMAT
  | some n => match found with
    | none => fail s named Cause.METER_UNKNOWN
    | some i =>
      let r := s.meter i
      let keypad : Bool := match path with | .host _ _ => false | _ => true
      if keypad ∧ r.prepay.locked then fail s i Cause.TOKEN_MAC
      else match s.verifyToken r n with
        | (s1, .noSlot) => (s1, some Cause.KEY_SLOTS_FULL)
        | (s1, .keyMissing) => (s1, some Cause.KEY_MISSING)
        | (s1, .bad) => fail (s1.macFailed i) i Cause.TOKEN_MAC
        | (s1, .good) => match s1.tokenCause i n with
          | some c => fail s1 i c
          | none => (s1.logToken i (.token (tokSeq n) (tokType n) (tokAmount n)) path, none)

/-- The ACTIVE record of an index with PREPAY (R205 step 2). -/
def State.prepayMeter (s : State) (i : Nat) : Option Nat :=
  if (s.meter i).state = .active ∧ (s.meter i).conf.flag 3 then some i else none

/-- The one ACTIVE record with a short number, with PREPAY (R205 step 2). -/
def State.shortMeter (s : State) (no : Nat) : Option Nat :=
  match s.ing.meters.filter fun e => decide (e.2.state = .active) && e.2.conf.shortNo == no with
  | [e] => if e.2.conf.flag 3 then some e.1 else none
  | _ => none

/-! ### Results -/

/-- TLV 0x0064 TOKEN_RESULT. -/
def State.tokenResult (s : State) (i cause : Nat) : Tlv :=
  let p := (s.meter i).prepay
  mkTlv 0x0064 [(4, i), (2, cause), (1, p.state.code), (1, 0), (8, unsignedOf 8 p.credit), (4, p.seqHigh)]

/-- CREDIT with three decimals. -/
def creditText (c : Int) : List Byte :=
  (if c < 0 then [45] else []) ++ fixedPoint c.natAbs 1000 3

/-- The outcome of a token of the cabinet keypad as a DISPLAY_NOTE: the cause in hex, and CREDIT after
it (chapter 09). The texts and the seconds are the model's. [DESIGN CHOICE, log 92; unsafe] -/
def State.tokenNote (s : State) (found : Option Nat) (cause : Nat) : State :=
  let line1 := match found with | some i => creditText (s.meter i).prepay.credit | none => []
  s.draw.request 0x0104 (text16 (hexOf 4 cause) ++ text16 line1 ++ beBytes 2 (s.free % 60 + 1)) .none

/-- Reports an outcome on the path of the token. -/
def State.reportToken (s : State) (found : Option Nat) (cause : Nat) (path : TokenPath) : State :=
  match path with
  | .meter => match found with | some i => s.tellCredit i cause | none => s
  | .cabinet => s.tokenNote found cause
  | .host slot item =>
    s.endItem slot item cause [itemData item (s.tokenResult (found.getD 0) cause).wire]

/-- An item of a task that a cancel ends before it began; a TOKEN and a CREDIT_ADJUST return their TOKEN_RESULT all the
same (R67, R208). -/
def State.cancelItem (s : State) (handle item : Nat) (t : Tlv) : State :=
  let data := if t.type = 0x0060 ∨ t.type = 0x0062
    then [itemData item (s.tokenResult (fieldAt t.value 0 4) Cause.CANCELLED).wire] else []
  s.endItem handle item Cause.CANCELLED data

/-! ### Application (R207) -/

/-- What a token does to the record. -/
def MeterPrepay.apply (p : MeterPrepay) (type amount : Nat) : MeterPrepay :=
  if type ≤ 1 then { p with credit := wrap64 (p.credit + amount) }
  else if type = 2 then { p with credit := 0, frac := 0 }
  else { p with emergLimit := min amount 0xFFFFFFFF }

/-- The record after a durable token or adjustment. -/
def MeterPrepay.applied (p : MeterPrepay) (w : TokenWait) : MeterPrepay :=
  let q := match w.act with
    | .token seq type amount =>
      let (h, win) := windowTake (p.seqHigh, p.seqWin) seq
      { p.apply type amount with seqHigh := h, seqWin := win }
    | .adjust d => { p with credit := wrap64 (p.credit + d) }
  let host := match w.path, w.act with | .host _ _, .token _ _ _ => true | _, _ => false
  { q with failCnt := 0, locked := q.locked && !host }

/-- EV_PPY_TOKEN: an adjustment has no SEQ and TYPE, and the spec states none: free values. -/
def State.postToken (s : State) (w : TokenWait) : State :=
  match w.act with
  | .token seq type amount => s.post Ev.PPY_TOKEN [b4 w.index, b4 seq, b8 type, b8 amount]
  | .adjust d => s.draw.post Ev.PPY_TOKEN
      [b4 w.index, b4 (s.free % 2 ^ 32), b8 (s.free / 2 ^ 32 % 2 ^ 32), b8 d]

/-- A durable token or adjustment is applied once, by APPLIED_ISN (R207). [DESIGN CHOICE, log 90; safe] -/
def State.applyToken (s : State) (w : TokenWait) : State :=
  let s0 := s.logEntry (.token w)
  let r := s0.meter w.index
  let s1 := s0.setMeter w.index { r with prepay := r.prepay.applied w, appliedIsn := max r.appliedIsn w.isn }
  let s2 := (s1.bump F.PPY_ACCEPT_CNT.COUNT).postToken w
  let (s3, changed) := s2.evalCredit w.index
  match w.path with
  | .meter => s3
  | _ => if changed then s3.tellCredit w.index 0 else s3

/-- The tokens and adjustments logged up to a pace are durable: each is applied, and its outcome reported (R137, R207). -/
def State.applyTokens (s : State) (upto : Nat) : State :=
  let due := s.ing.tokens.filter fun w => decide (w.loggedAt ≤ upto)
  let s1 := { s with ing := { s.ing with tokens := s.ing.tokens.filter fun w => !decide (w.loggedAt ≤ upto) } }
  due.foldl (fun (t : State) w => (t.applyToken w).reportToken (some w.index) 0 w.path) s1

/-- TOKEN_APPLY: the log entries of the oldest pace are durable, and its tokens and adjustments are applied (R207). -/
def execTokenApply (s : State) : Host.Outcome State Fault Refusal :=
  match s.ing.tokens with
  | [] => .next s
  | w :: _ => .next (s.applyTokens w.loggedAt)

/-! ### The paths -/

/-- KEYPAD_TOKEN: an entry of the cabinet keypad reaches the meter's lane (R205, R222). -/
def execKeypadToken (s : State) : Host.Outcome State Fault Refusal :=
  match s.takeExport fun e => match e with | .keypadToken _ _ => true | _ => false with
  | (s1, some (.keypadToken no digits)) =>
    let found := s1.shortMeter no
    .next (match s1.checkToken digits (found.getD 0xFFFFFFFF) found .cabinet with
      | (s2, some c) => s2.reportToken found c .cabinet
      | (s2, none) => s2)
  | (s1, _) => .next s1

/-! ### TOKEN_SUBMIT (R208) -/

/-- A failure that returns its TOKEN_RESULT. -/
def State.tokenFails (s : State) (r : ItemRef) (i cause : Nat) : State × ItemEnd :=
  (s, .failedWith cause [itemData r.item (s.tokenResult i cause).wire])

/-- TOKEN: a host submits a token. -/
def runToken (s : State) (r : ItemRef) (t : Tlv) : State × ItemEnd :=
  let i := fieldAt t.value 0 4
  if s.zeroised then s.tokenFails r i Cause.ZEROISED
  else match s.checkToken (bcdDigits ((t.value.drop 4).take 10)) i (s.prepayMeter i) (.host r.task r.item) with
    | (s1, some c) => s1.tokenFails r i c
    | (s1, none) => (s1, .waiting)

/-- PPY_SET (R208): a change of VKR sets SEQ_HIGH and SEQ_WIN to 0. -/
def runPpySet (s : State) (t : Tlv) : State × ItemEnd :=
  let i := fieldAt t.value 0 4
  let op := BitVec.ofNat 8 (fieldAt t.value 4 1)
  let unit := fieldAt t.value 5 1
  let vkr := fieldAt t.value 6 1
  match s.prepayMeter i with
  | none => (s, .failed Cause.METER_UNKNOWN)
  | some _ =>
    let r := s.meter i
    let p := r.prepay
    let unitBad := op.getLsbD 0 && (decide (1 < unit) ||
      (decide (unit ≠ p.u) && (decide (p.credit ≠ 0) || decide (p.frac ≠ 0))))
    let vkrBad := op.getLsbD 1 && (Map.find s.ing.vkeys vkr).isNone
    if unitBad || vkrBad then (s, .failed Cause.REG_RANGE)
    else
      let p1 := if op.getLsbD 0 then { p with money := decide (unit = 1) } else p
      let p2 := if op.getLsbD 1 ∧ vkr ≠ p1.vkr then { p1 with vkr := vkr, seqHigh := 0, seqWin := 0 } else p1
      let p3 := if op.getLsbD 2 then { p2 with emergLimit := fieldAt t.value 8 4 } else p2
      let p4 := if op.getLsbD 3 then { p3 with locked := false } else p3
      let s1 := s.setMeter i { r with prepay := p4 }
      (if op.getLsbD 2 then s1.creditChanged i else s1, .done none)

/-- CREDIT_ADJUST (R208): logged with an ISN and applied once durable. -/
def runCreditAdjust (s : State) (r : ItemRef) (t : Tlv) : State × ItemEnd :=
  let i := fieldAt t.value 0 4
  let delta := signedAt t.value 4 8
  match s.prepayMeter i with
  | none => s.tokenFails r i Cause.METER_UNKNOWN
  | some _ =>
    let p := (s.meter i).prepay
    if (s.fld (F.PPY_LIMIT.MAX p.u) : Int) < p.credit + delta then s.tokenFails r i Cause.CREDIT_LIMIT
    else (s.logToken i (.adjust delta) (.host r.task r.item), .waiting)

/-- VKEY: a vending key revision is loaded (R201). -/
def runVkey (s : State) (t : Tlv) : State × ItemEnd :=
  let v := fieldAt t.value 0 1
  if 3 < v then (s, .failed Cause.REG_RANGE)
  else if s.zeroised then (s, .failed Cause.ZEROISED)
  else if !s.poolHas 1 then (s.slotsFull, .failed Cause.KEY_SLOTS_FULL)
  else
    let s0 := s.showSlotsWith 1
    let s1 := { s0 with
      ing := { s0.ing with vkeys := Map.set s0.ing.vkeys v ⟨s0.enrol, (t.value.drop 4).take 32⟩ }
      regs := s0.regs.setF F.PPY_STAT.VKEY ((BitVec.ofNat 4 (s0.regs.fld F.PPY_STAT.VKEY) ||| BitVec.ofNat 4 (2 ^ v)).toNat) }
    (s1.post Ev.PPY_VKEY [b8 v], .done none)

/-- One TOKEN_SUBMIT item. -/
def runTokenItem (s : State) (r : ItemRef) (t : Tlv) : State × ItemEnd :=
  if t.type = 0x0060 then runToken s r t
  else if t.type = 0x0061 then runPpySet s t
  else if t.type = 0x0062 then runCreditAdjust s r t
  else runVkey s t

/-- TOKEN_SUBMIT (R208). -/
def execTokenSubmit (m : Msg) (s : State) : Host.Outcome State Fault Refusal :=
  .next (s.serve 0x0060 m fun t => t.taskCommand m (some 7) runTokenItem)

end Sys2Proof.Machine
end

