-- ==== Sys2Proof/Machine/Balance.lean ====
section
/-! DEFINITION. Energy balance: node energies, the loss model, statistics, alerts, revisions and their
jobs (R150 to R166, R171, R173). Interval starts are UTC minutes. -/

namespace Sys2Proof.Machine

/-! ### The topology (R150, R166) -/

def TopoNode.flag (n : TopoNode) (i : Nat) : Bool := n.flags.getLsbD i
def TopoNode.enabled (n : TopoNode) : Bool := n.flag 0
def TopoNode.measured (n : TopoNode) : Bool := n.flag 1 || n.flag 2

/-- The active topology. -/
def State.topology (s : State) : List TopoNode := match s.warp.active with | some w => w.topology | none => []

/-- The topology that governs an interval starting at a minute; none where it is older than the previous
one (R166). -/
def State.topoAt (s : State) (m : Nat) : Option (List TopoNode) :=
  if s.bal.activeFrom ≤ 60 * m then some s.topology
  else match s.bal.previous with
    | some (t, from_) => if from_ ≤ 60 * m then some t else none
    | none => none

/-- The entry of a node. -/
def topoNode (t : List TopoNode) (n : Nat) : Option TopoNode := t.find? fun e => e.node == n

/-- The child nodes of a node. PARENT 0xFFFF is that of a root and names no node (R150). -/
def topoChildren (t : List TopoNode) (n : Nat) : List TopoNode := if n = 0xFFFF then [] else t.filter fun e => e.parent == n

/-- The depth of a node; the first argument bounds it (R150). -/
def topoDepth (t : List TopoNode) : Nat → Nat → Nat
  | 0, _ => 0
  | f + 1, n => match topoNode t n with
    | some e => if e.parent = 0xFFFF then 0 else topoDepth t f e.parent + 1
    | none => 0

/-- Whether a meter is named as a reference. -/
def isRefMeter (t : List TopoNode) (i : Nat) : Bool := t.any fun e => e.flag 2 && e.refMeter == i

/-- Whether the record of a meter reference may serve (R150). -/
def State.refMeterOk (s : State) (i : Nat) : Bool :=
  decide ((s.meter i).state = .active) && (s.meter i).conf.flag 0

/-! ### Node energies (R152 to R154) -/

/-- The node a meter counts under for an interval (R151). -/
def MeterRec.nodeAt (r : MeterRec) (m : Nat) : Nat := if m < r.bal.since then r.bal.prevNode else r.conf.node

/-- The child meters of a node for an interval (R151). -/
def State.childMeters (s : State) (t : List TopoNode) (n m : Nat) : List (Nat × MeterRec) :=
  s.ing.meters.filter fun e => decide (e.2.state = .active) && e.2.nodeAt m == n && !isRefMeter t e.1

/-- Node interval starts in a span of `len` minutes. -/
def spanStarts (p m len : Nat) : List Nat := (List.range (len / p)).map fun j => m + j * p

/-- The entries held in a span. -/
def MeterRec.spanEntries (r : MeterRec) (m len : Nat) : List IntervalEntry :=
  (r.span m (m + len)).filterMap fun a => Map.find r.store a

/-- Whether every entry of a span is held and satisfies `f`. -/
def MeterRec.spanAll (r : MeterRec) (m len : Nat) (f : IntervalEntry → Bool) : Bool :=
  (r.span m (m + len)).all fun a => match Map.find r.store a with | some e => f e | none => false

/-- u in mWh for the interval at a minute (R140). -/
def MeterRec.mwh (r : MeterRec) (a : Nat) : Int := 10 ^ (r.confAt a).unitExp

/-- The import and the export of an interval in mWh; nothing where none is held. -/
def MeterRec.flow (r : MeterRec) (a : Nat) : Int × Int :=
  match Map.find r.store a with
  | some e => (e.imp * r.mwh a, e.exp * r.mwh a)
  | none => (0, 0)

/-- e of a span in mWh (R152). -/
def MeterRec.spanNet (r : MeterRec) (m len : Nat) : Int :=
  sumInt (fun a => (r.flow a).1 - (r.flow a).2) (r.span m (m + len))

/-- Σ D_IMP·u of a span (R168). -/
def MeterRec.spanImp (r : MeterRec) (m len : Nat) : Int := sumInt (fun a => (r.flow a).1) (r.span m (m + len))

/-- A child meter is present in a span (R154). -/
def MeterRec.present (r : MeterRec) (m len : Nat) : Bool := r.spanAll m len fun e => qget e.quality Q.VALID

/-- What a node's children or its reference give over a span. -/
structure NodeSum where
  e : Int
  present : Nat
  total : Nat
  filled : Nat
  quality : BitVec 16
  isn : Nat
  deriving DecidableEq, Repr

def NodeSum.zero : NodeSum := ⟨0, 0, 0, 0, 0, 0⟩

/-- Completeness in 0.01 %, rounded down (R154). -/
def NodeSum.complete (x : NodeSum) : Nat := if x.total = 0 then 10000 else 10000 * x.present / x.total

/-- The value of a child meter (R154). [DEDUCED, log 96; unsafe] -/
def meterSum (r : MeterRec) (m len : Nat) : NodeSum :=
  let es := r.spanEntries m len
  let q := es.foldl (fun q e => q ||| e.quality) 0
  let isn := es.foldl (fun n e => max n e.isn) 0
  let here := r.present m len
  if here ∨ r.spanAll m len (fun _ => true) then ⟨r.spanNet m len, if here then 1 else 0, 1, 0, q, isn⟩
  else ⟨if r.bal.baseN = 0 then 0 else r.bal.baseline, 0, 1, 1, 0, 0⟩

/-- The records of a point in a span, oldest first (R111). -/
def State.pointRecords (s : State) (mp m len : Nat) : List IntervalRecord :=
  s.leg.records.filter fun r => r.mp == mp && decide (60 * m ≤ r.start) && decide (r.start < 60 * (m + len))

/-- Whether records cover a span of minutes without a hole. A record that a change of INTERVAL_MIN cut short ends where the
next one starts (R121). -/
def recordsCover (a b : Nat) : List IntervalRecord → Bool
  | [] => decide (b ≤ a)
  | r :: l => decide (r.start ≤ a) && recordsCover (r.start + 60 * r.intervalMin) b l

/-- The reference of a measured node over a span (R152, R154): `present` is 1 where it is present. -/
def State.reference (s : State) (e : TopoNode) (m len : Nat) : NodeSum :=
  if e.flag 1 then
    let rs := s.pointRecords e.refMp m len
    let net := sumInt (fun r => (r.delta.getD 0 0 : Int) - r.delta.getD 1 0) rs
    let ok := recordsCover (60 * m) (60 * (m + len)) rs && rs.all fun r => qget r.quality Q.VALID && !qget r.quality Q.GAP
    ⟨roundDiv net 1000, if ok then 1 else 0, 1, 0, rs.foldl (fun q r => q ||| r.quality) 0, 0⟩
  else if e.flag 2 then
    let r := s.meter e.refMeter
    let es := r.spanEntries m len
    let ok := s.refMeterOk e.refMeter && r.spanAll m len fun x => qget x.quality Q.VALID && !qget x.quality Q.GAP
    ⟨r.spanNet m len, if ok then 1 else 0, 1, 0, es.foldl (fun q x => q ||| x.quality) 0,
      es.foldl (fun n x => max n x.isn) 0⟩
  else NodeSum.zero

/-- Adds energies, qualities and ISNs, and counts one child. -/
def NodeSum.child (x : NodeSum) (e : Int) (present : Bool) (filled : Nat) (q : BitVec 16) (isn : Nat) : NodeSum :=
  ⟨x.e + e, x.present + (if present then 1 else 0), x.total + 1, x.filled + filled, x.quality ||| q, max x.isn isn⟩

/-- E_child of a node over a span, with its completeness (R153, R154). The first argument bounds the
depth. -/
def State.childSum (s : State) (t : List TopoNode) : Nat → Nat → Nat → Nat → NodeSum
  | 0, _, _, _ => NodeSum.zero
  | f + 1, n, m, len =>
    let meters := (s.childMeters t n m).foldl (fun x c =>
      let y := meterSum c.2 m len
      x.child y.e (y.present == 1) y.filled y.quality y.isn) NodeSum.zero
    (topoChildren t n).foldl (fun x c =>
      let parts := (spanStarts c.balMin m len).map fun a =>
        if c.measured then s.reference c a c.balMin else s.childSum t f c.node a c.balMin
      let present := parts.all fun y =>
        if c.measured then y.present == 1 else decide (s.fld F.BAL_GATE.PCT ≤ y.complete)
      x.child (sumInt (fun y => y.e) parts) present 0 (parts.foldl (fun q y => q ||| y.quality) 0)
        (parts.foldl (fun i y => max i y.isn) 0)) meters

/-- E_child of a node interval. -/
def State.nodeChildren (s : State) (t : List TopoNode) (e : TopoNode) (m : Nat) : NodeSum :=
  s.childSum t 33 e.node m e.balMin

/-- A node interval is gated (R155). -/
def State.gated (s : State) (t : List TopoNode) (e : TopoNode) (m : Nat) : Bool :=
  (s.reference e m e.balMin).present == 1 && decide (s.fld F.BAL_GATE.PCT ≤ (s.nodeChildren t e m).complete)

/-! ### The loss model (R156, R157) -/

/-- P in W of an energy in mWh over minutes: e·60/(B·1,000). -/
def powerOf (e : Int) (len : Nat) : F64 := F64.ofRat (e * 60) (len * 1000)

/-- x of a node interval (R156). -/
def State.lossX (s : State) (e : TopoNode) (m : Nat) (eRef : Int) : F64 :=
  if e.flag 1 then
    let rs := s.pointRecords e.refMp m e.balMin
    let sum : F64 := rs.foldl (fun (a : F64) r => a.add ((F64.ofRat r.iRms 65536).mul (F64.ofRat r.iRms 65536))) ⟨0, 0⟩
    sum.div (F64.ofInt rs.length)
  else if e.flag 2 ∧ 0 < eRef then
    let i := (powerOf eRef e.balMin).div (F64.ofRat e.vNom 4096)
    i.mul i
  else ⟨0, 0⟩

/-- k0 and k2 in force (R156). -/
def lossModel (e : TopoNode) (st : NodeState) : F64 × F64 :=
  st.model.getD (F64.ofRat e.k0Init 256, F64.ofRat e.k2Init 16777216)

/-- E_loss in mWh (R156). -/
def lossEnergy (k : F64 × F64) (x : F64) (len : Nat) : Int :=
  ((((k.1.add (k.2.mul x)).mul (F64.ofInt len)).mul (F64.ofInt 1000)).div (F64.ofInt 60)).round

/-- The refitted model from the sums, where d allows it (R157). -/
def refit (st : NodeState) : Option (F64 × F64) :=
  let d := (st.sw.mul st.sxx).sub (st.sx.mul st.sx)
  let floor_ := ((F64.ofRat 1 1000000).mul st.sw).mul st.sxx
  if d.lt floor_ then none
  else
    let k2 := F64.max ⟨0, 0⟩ (((st.sw.mul st.sxy).sub (st.sx.mul st.sy)).div d)
    let k0 := (st.sy.sub (k2.mul st.sx)).div st.sw
    if k0.lt ⟨0, 0⟩ then some (⟨0, 0⟩, F64.max ⟨0, 0⟩ (st.sxy.div st.sxx)) else some (k0, k2)

/-- A learning sample (R157). -/
def NodeState.learn (st : NodeState) (tau min_ : Nat) (x y : F64) : NodeState :=
  let l := F64.sub (F64.ofInt 1) ((F64.ofInt 1).div (F64.ofInt tau))
  let st1 := { st with
    sw := (st.sw.mul l).add (F64.ofInt 1)
    sx := (st.sx.mul l).add x
    sxx := (st.sxx.mul l).add (x.mul x)
    sy := (st.sy.mul l).add y
    sxy := (st.sxy.mul l).add (x.mul y)
    learnN := st.learnN + 1 }
  if min_ ≤ st1.learnN then
    match refit st1 with
    | some k => { st1 with model := some k }
    | none => st1
  else st1

/-! ### Residual and statistics (R158, R159) -/

/-- σ_eff (R158). -/
def sigmaEff (e : TopoNode) (st : NodeState) : F64 := st.sigma2.sqrt.max (F64.ofInt e.sigmaMin)

/-- z of a residual (R158). -/
def zOf (r : Int) (mu sigma : F64) : F64 := ((F64.ofInt r).sub mu).div sigma

/-- z in units of 0.001, saturating (R158). -/
def zMilli (z : F64) : Int := clampInt (-32767) 32767 (z.round 1000)

/-- A statistics step (R159). -/
def NodeState.feed (st : NodeState) (shift : Nat) (r : Int) : NodeState :=
  let a := F64.ofRat 1 (2 ^ shift)
  let d := (F64.ofInt r).sub st.mu
  { st with
    mu := st.mu.add (a.mul d)
    sigma2 := ((F64.ofInt 1).sub a).mul (st.sigma2.add ((a.mul d).mul d))
    statN := min (st.statN + 1) 4294967295 }

/-- Flags of a NODE_RESULT (R171). -/
def NodeResult.flag (r : NodeResult) (i : Nat) : Bool := r.flags.getLsbD i

/-- Flags from conditions, by bit. -/
def flagWord (l : List (Nat × Bool)) : BitVec 16 :=
  l.foldl (fun w p => if p.2 then w ||| BitVec.ofNat 16 (2 ^ p.1) else w) 0

/-! ### Node state and results -/

def State.node (s : State) (n : Nat) : NodeState := Map.findD s.bal.nodes n {}

/-- Writes a node's state; BAL_ALERTS counts the nodes in alert. -/
def State.setNode (s : State) (n : Nat) (x : NodeState) : State :=
  let nodes := Map.set s.bal.nodes n x
  { s with
    bal := { s.bal with nodes := nodes }
    regs := s.regs.setF F.BAL_ALERTS.COUNT (nodes.filter fun e => e.2.alert.isSome).length }

/-- The result of a node interval. -/
def State.result (s : State) (n m : Nat) : Option NodeResult := Map.find (Map.findD s.bal.results n []) m

/-- Writes a result; results older than the retention of the INTERVALS namespace are dropped (R165). -/
def State.setResult (s : State) (r : NodeResult) : State :=
  let kept := (Map.findD s.bal.results r.node []).filter fun e => decide (s.oldestKept ≤ e.1)
  { s with bal := { s.bal with results := Map.set s.bal.results r.node (Map.set kept r.start r) } }

/-- Complete results of a node, newest first. -/
def State.completeResults (s : State) (n : Nat) : List NodeResult :=
  (((Map.findD s.bal.results n []).map fun e => e.2).filter fun r => r.flag 1).reverse

/-- The sign of a result's exceedance: true negative. -/
def NodeResult.sign (r : NodeResult) : Option Bool :=
  if r.flag 4 then some false else if r.flag 5 then some true else none

/-- The exceedances of the sign of the first, counted from the front (R160). -/
def leadingRun (l : List NodeResult) : List NodeResult :=
  match l with
  | [] => []
  | r :: _ => if r.sign = none then [] else l.takeWhile fun x => decide (x.sign = r.sign)

/-- The results of the raising run, oldest first. -/
def State.raisingResults (s : State) (n : Nat) : List NodeResult :=
  (s.node n).raising.filterMap fun m => s.result n m

/-! ### LOSS notices (R171) -/

/-- A NODE_RESULT of 80 bytes (R171). -/
def NodeResult.bytes (r : NodeResult) : List Byte :=
  packBytes [(2, r.node), (1, r.balMin), (1, r.rev), (2, r.flags.toNat), (2, r.complete), (8, 60 * r.start),
    (8, unsignedOf 8 r.eRef), (8, unsignedOf 8 r.eChild), (8, unsignedOf 8 r.eLoss), (8, unsignedOf 8 r.residual),
    (2, unsignedOf 2 r.z), (2, min r.filled 65535),
    (4, unsignedOf 4 (clampInt (-2147483648) 2147483647 r.mu.round)),
    (4, min r.sigma.round.toNat 4294967295), (4, 0), (8, r.inputIsn), (8, 0)]

/-- A suspect (R169 to R171); DROP, PEER and R where they exist. -/
structure Suspect where
  index : Nat
  sigs : Nat
  score : Nat
  drop : Option Int
  peer : Option Int
  base : Int
  mean : Option Int
  deriving DecidableEq, Repr

/-- LOSS_HDR. -/
def lossHdr (node kind : Nat) (neg : Bool) (reason : Nat) (loc : Option Nat) (start ranked : Nat) : Tlv :=
  mkTlv 0x0074 [(2, node), (1, kind), (1, if neg then 1 else 0), (2, reason), (2, loc.getD 0xFFFF), (8, start),
    (2, ranked), (2, 0)]

/-- A LOSS notice about an alert (R171). -/
def State.lossNotice (s : State) (n kind : Nat) (neg : Bool) (reason : Nat) (start ranked : Nat)
    (suspects : List Tlv) : State :=
  s.broadcast 0x8004 (lossHdr n kind neg reason (s.node n).loc start ranked ::
    ((s.raisingResults n).map fun r => (⟨0x0072, r.bytes⟩ : Tlv)) ++ suspects)

/-- Start of the raising run in UTC seconds; 0 if none. -/
def NodeState.raisingStart (x : NodeState) : Nat := 60 * x.raising.headD 0

/-- ALERT_CLEAR: a node leaves alert (R160). -/
def State.leaveAlert (s : State) (n reason : Nat) : State :=
  match (s.node n).alert with
  | none => s
  | some neg =>
    let s1 := (s.post Ev.BAL_CLEAR [b2 n, b1 reason]).lossNotice n 3 neg reason (s.node n).raisingStart 0 []
    ({ s1 with bal := { s1.bal with jobs := s1.bal.jobs.filter fun j => !(j.node == n && j.work == .localise) } }
      : State).setNode n { s1.node n with alert := none, raising := [], loc := none, first := none }

/-! ### Jobs (R164) -/

/-- The end of a job's node interval, in minutes. -/
def State.jobEnd (s : State) (j : BalJob) : Nat :=
  match (s.topoAt j.start).bind fun t => topoNode t j.node with
  | some e => j.start + e.balMin
  | none => j.start

/-- A revision waits for a first balance of its node interval, and a localisation for both (R164, R167). -/
def BalWork.rank : BalWork → Nat
  | .first => 0 | .revision => 1 | .localise => 2

/-- Whether job `a` starts before job `b` (R164). -/
def State.jobBefore (s : State) (a b : BalJob) : Bool :=
  let depth (j : BalJob) : Nat := topoDepth ((s.topoAt j.start).getD []) 32 j.node
  let ea := s.jobEnd a
  let eb := s.jobEnd b
  if ea ≠ eb then decide (ea < eb)
  else if depth a ≠ depth b then decide (depth b < depth a)
  else if a.node ≠ b.node then decide (a.node < b.node)
  else decide (a.work.rank < b.work.rank)

/-- `BAL_QUEUE.JOBS`: the jobs and the operations of BAL_CMD that are queued. -/
def State.showJobs (s : State) : State :=
  s.setF F.BAL_QUEUE.JOBS (min (s.bal.jobs.length + s.bal.ops.length) 0xFFFFFF)

/-- Adds a job in the order of R164, unless it is queued. -/
def State.queueJob (s : State) (n m : Nat) (work : BalWork) : State :=
  if s.bal.jobs.any fun j => j.node == n && j.start == m && j.work == work then s
  else
    let j : BalJob := ⟨n, m, work, s.now⟩
    let l := s.bal.jobs.takeWhile (fun x => s.jobBefore x j) ++ j :: s.bal.jobs.dropWhile fun x => s.jobBefore x j
    ({ s with bal := { s.bal with jobs := l } } : State).showJobs

/-- Removes the head of the queue. -/
def State.endJob (s : State) : State :=
  ({ s with bal := { s.bal with jobs := s.bal.jobs.drop 1 } } : State).showJobs

/-! ### Alerts (R160) -/

/-- ALERT_ENTRY (R160). [DEDUCED, log 95; unsafe] -/
def State.enterAlert (s : State) (n : Nat) (neg : Bool) (run : List NodeResult) : State :=
  let starts := (run.map fun r => r.start).reverse
  let s1 := s.setNode n { s.node n with alert := some neg, raising := starts, loc := none, first := none }
  let s2 := (s1.post Ev.BAL_ALERT [b2 n, b1 0]).lossNotice n 1 neg 0 (s1.node n).raisingStart 0 []
  if neg then s2 else s2.queueJob n (starts.getLastD 0) .localise

/-- The raising run as it stands now: counted back from its newest interval. -/
def State.raisingNow (s : State) (n : Nat) : Nat :=
  match (s.node n).raising, (s.node n).raising.getLast? with
  | a :: _, some b =>
    (leadingRun ((s.completeResults n).filter fun r => decide (a ≤ r.start) && decide (r.start ≤ b))).length
  | _, _ => 0

/-- Whether a result lies below the clearing level (R160). -/
def NodeResult.quiet (r : NodeResult) (clr : Nat) : Bool :=
  let z := zOf r.residual r.mu r.sigma
  let l := F64.ofRat clr 100
  !r.flag 12 && z.lt l && l.neg.lt z

/-- The run and the alert state after a change of a node's results (R160); `new` is the result of this job. `before`: the
raising run as a revision found it, none after a first balance. `again`: the result that a revision replaced was a positive
exceedance already (R167). -/
def State.judgeRun (s : State) (n : Nat) (new : NodeResult) (before : Option Nat) (again : Bool) : State :=
  let l := s.completeResults n
  let run := leadingRun l
  let s1 := s.setNode n { s.node n with run := min run.length 96 }
  let need := s.fld F.BAL_RUN.N
  let m := s.fld F.BAL_RUN.M
  match (s1.node n).alert with
  | none => match run with
    | r :: _ => if need ≤ run.length then s1.enterAlert n (r.sign == some true) run else s1
    | [] => s1
  | some neg =>
    let shorter : Bool := match before with | some k => decide (s1.raisingNow n < k) | none => false
    if shorter ∧ s1.raisingNow n < need then s1.leaveAlert n 2
    else if m ≤ l.length ∧ (l.take m).all (fun r => r.quiet (s.fld F.BAL_Z.Z_CLR)) then s1.leaveAlert n 1
    else if !neg ∧ new.flag 4 ∧ !again then s1.queueJob n new.start .localise
    else s1

/-! ### Balances -/

/-- What a balance of a node interval finds (R152 to R158). -/
structure Finding where
  ref : NodeSum
  sum : NodeSum
  gated : Bool
  x : F64
  loss : Int
  residual : Int
  deriving DecidableEq, Repr

/-- The energies, loss and residual of a node interval under a model. -/
def State.findings (s : State) (t : List TopoNode) (e : TopoNode) (m : Nat) (k : F64 × F64) : Finding :=
  let ref := s.reference e m e.balMin
  let sum := s.nodeChildren t e m
  let x := s.lossX e m ref.e
  let loss := lossEnergy k x e.balMin
  ⟨ref, sum, s.gated t e m, x, loss, if ref.present = 1 then ref.e - sum.e - loss else 0⟩

/-- The result of a finding with the μ and σ_eff given (R158, R171). -/
def State.resultOf (s : State) (e : TopoNode) (m : Nat) (f : Finding) (k : F64 × F64) (mu sigma : F64)
    (learning : Bool) (rev : Nat) : NodeResult :=
  let noRef := f.ref.present != 1
  let noZ := noRef || learning
  let z := zOf f.residual mu sigma
  let hi := F64.ofRat (s.fld F.BAL_Z.Z_HI) 100
  let q := f.ref.quality ||| f.sum.quality
  let flags := flagWord [(0, true), (1, f.gated), (2, !f.gated), (3, noRef),
    (4, f.gated && !noZ && !z.lt hi), (5, f.gated && !noZ && !hi.neg.lt z),
    (8, qget q Q.CLOCK_ADJ), (9, qget q Q.LATE), (10, qget f.ref.quality Q.EXTRAP), (11, qget q Q.TIME_DEGRADED),
    (12, learning)]
  ⟨e.node, e.balMin, rev, flags, f.sum.complete, m, f.ref.e, f.sum.e, f.loss, f.residual,
    if noZ then 0 else zMilli z, f.sum.filled, mu, sigma, max f.ref.isn f.sum.isn, k.1, k.2⟩

/-- BASELINE after a complete first balance (R168). -/
def MeterBal.learn (b : MeterBal) (imp : Int) : MeterBal :=
  { b with baseline := min (b.baseline + (imp - b.baseline) / 16) 4294967295, baseN := min (b.baseN + 1) 65535 }

/-- Updates the baselines of the children that are present (R168). -/
def State.learnBaselines (s : State) (t : List TopoNode) (e : TopoNode) (m : Nat) : State :=
  (s.childMeters t e.node m).foldl (fun s c =>
    if c.2.present m e.balMin then
      s.setMeter c.1 { s.meter c.1 with bal := (s.meter c.1).bal.learn (c.2.spanImp m e.balMin) }
    else s) s

/-- The first balance of a node interval (R155 to R160, R165). -/
def State.firstBalance (s : State) (t : List TopoNode) (e : TopoNode) (m : Nat) : State :=
  let st := s.node e.node
  let k := lossModel e st
  let f := s.findings t e m k
  let learning := decide (st.statN < s.fld F.BAL_EWMA.WARMUP)
  let r := s.resultOf e m f k st.mu (sigmaEff e st) learning 0
  let exceeds := r.sign.isSome
  let z := zOf f.residual st.mu (sigmaEff e st)
  let hi := F64.ofRat (s.fld F.BAL_Z.Z_HI) 100
  let fed := f.gated && (learning || (z.lt hi && hi.neg.lt z))
  let q := f.ref.quality ||| f.sum.quality
  let sample := f.gated && e.flag 3 && st.alert.isNone && !exceeds && f.sum.filled == 0 &&
    !qget q Q.EXTRAP && !qget q Q.PF_GAP && !qget q Q.TIME_DEGRADED
  let st1 := if fed then st.feed (s.fld F.BAL_EWMA.ALPHA_SHIFT) f.residual else st
  let st2 := if sample then st1.learn (s.fld F.BAL_LEARN.TAU) (s.fld F.BAL_LEARN.MIN) f.x
    (powerOf (f.ref.e - f.sum.e) e.balMin) else st1
  let r1 := { r with flags := r.flags ||| flagWord [(6, fed), (7, sample)] }
  let s1 := (if f.gated ∧ st.alert.isNone then s.learnBaselines t e m else s).setNode e.node st2
  let s2 := s1.setResult r1
  let s3 := { s2 with regs := (s2.regs.bump F.BAL_DONE_CNT.COUNT 1).bump F.BAL_INCOMPLETE_CNT.COUNT (if f.gated then 0 else 1) }
  if f.gated then s3.judgeRun e.node r1 none false else s3

/-- A revision of a result (R162, R163). -/
def State.reviseResult (s : State) (t : List TopoNode) (e : TopoNode) (m : Nat) (old : NodeResult) : State :=
  let k := (old.k0, old.k2)
  let f := s.findings t e m k
  let r := s.resultOf e m f k old.mu old.sigma (old.flag 12) (min (old.rev + 1) 255)
  let r1 := { r with flags := r.flags ||| (old.flags &&& flagWord [(6, true), (7, true)]) }
  let held := s.bal.held.any fun h => h.1 == e.node && h.2.1 == m
  let s1 := (s.setResult r1).bump F.BAL_REV_CNT.COUNT
  let s2 := { s1 with bal := { s1.bal with
    held := if held then s1.bal.held else s1.bal.held ++ [(e.node, m, s.now)] } }
  (s2.post Ev.BAL_REVISION []).judgeRun e.node r1 (some (s.raisingNow e.node)) (old.flag 4)

/-! ### Revisions (R161) -/

/-- Whether the end of a node interval lies within the revision window (R161). -/
def State.revisable (s : State) (e : TopoNode) (a : Nat) : Bool :=
  decide (s.timeSec ≤ 60 * (a + e.balMin) + 3600 * s.fld F.BAL_REVISE.HOURS)

/-- The revisions of a node interval and of those that contain it (R161). `changed` says that the supply of the node changes.
Returns whether any of them lies within the window. -/
def State.reviseUp (t : List TopoNode) : Nat → Nat → Nat → Bool → State → State × Bool
  | 0, _, _, _, s => (s, false)
  | f + 1, n, m, changed, s => match topoNode t n with
    | none => (s, false)
    | some e =>
      let a := m / e.balMin * e.balMin
      let near := s.revisable e a
      let has := near && (s.result n a).isSome
      let s1 := if has then s.queueJob n a .revision else s
      if e.parent = 0xFFFF ∨ ¬ (has ∨ changed ∨ !e.measured) then (s1, near)
      else
        let (s2, more) := State.reviseUp t f e.parent a false s1
        (s2, near || more)

/-- A value of an interval of a node changed (R161): `isRef` where it is the node's reference. A change older than the window
is counted. -/
def State.balChanged (s : State) (n m : Nat) (isRef : Bool) : State :=
  let late (t : State) : State := (t.bump F.BAL_LATE_CNT.COUNT).post Ev.BAL_LATE []
  match s.topoAt m with
  | none => late s
  | some t => match topoNode t n with
    | none => s
    | some _ => match State.reviseUp t 33 n m isRef s with
      | (s1, true) => s1
      | (s1, false) => late s1

/-- An entry of a meter changed: the node it is the reference of, or the node under which it counts in the node interval that
holds the entry (R151, R161). -/
def State.meterChanged (s : State) (i m : Nat) : State :=
  match (s.topoAt m).bind fun t => t.find? fun e => e.flag 2 && e.refMeter == i with
  | some e => s.balChanged e.node m true
  | none =>
    let r := s.meter i
    let under (n : Nat) : Bool := match (s.topoAt m).bind fun t => topoNode t n with
      | some e => r.nodeAt (m / e.balMin * e.balMin) == n
      | none => r.nodeAt m == n
    ([r.conf.node, r.bal.prevNode].eraseDups.filter under).foldl (fun t n => t.balChanged n m false) s

/-- A record of a point was stored: the node it is the reference of (R161). -/
def State.pointChanged (s : State) (r : IntervalRecord) : State :=
  match (s.topoAt (r.start / 60)).bind fun t => t.find? fun e => e.flag 1 && e.refMp == r.mp with
  | some e => s.balChanged e.node (r.start / 60) true
  | none => s

/-- Whether a node interval is to be considered now (R155). -/
def State.balanceDue (s : State) (t : List TopoNode) (e : TopoNode) (m : Nat) : Bool :=
  e.enabled && m % e.balMin == 0 && decide (60 * (m + e.balMin) ≤ s.timeSec) && (s.result e.node m).isNone &&
    (s.gated t e m || decide (60 * (m + e.balMin + s.fld F.BAL_GATE.WAIT_MIN) ≤ s.timeSec))

/-- REVISION_NOTICE: HOLD_S after the first revision of a node interval its final result goes out
(R163). -/
def execRevisionNotice (s : State) : Host.Outcome State Fault Refusal :=
  .next (match s.bal.held.find? fun h => decide (h.2.2 + 1000 * s.fld F.BAL_REVISE.HOLD_S ≤ s.now) with
    | none => s
    | some h =>
      let s1 := { s with bal := { s.bal with held := s.bal.held.erase h } }
      match s.result h.1 h.2.1 with
      | none => s1
      | some r => s1.broadcast 0x8004
          [lossHdr h.1 4 false 0 (s.node h.1).loc (s.node h.1).raisingStart 0, ⟨0x0072, r.bytes⟩])

/-- The age in paces of the oldest queued job. -/
def State.oldestJob (s : State) : Nat :=
  ((s.bal.jobs.map fun j => s.now - j.since) ++ s.bal.ops.map fun o => s.now - o.2.2).foldl max 0

/-- BAL_BACKLOG: the flag follows the age of the oldest queued job (R164). -/
def execBalBacklog (s : State) : Host.Outcome State Fault Refusal :=
  let late := decide (1000 * s.fld F.BAL_BACKLOG.SECONDS < s.oldestJob)
  .next (if late = (s.fld F.BAL_STAT.BACKLOG == 1) then s
    else ((s.flag F.BAL_STAT.BACKLOG late).postIf late Ev.BAL_BACKLOG []))

/-- BALANCE_REQUEUE after a restart (R165): of the topology in force and the previous one, the considered intervals within the
window without a result, and those with newer readings; READY is set. -/
def State.balRequeue (s : State) : State :=
  let window := 60 * s.fld F.BAL_REVISE.HOURS
  let now := s.timeSec / 60
  let entries := s.topology ++ (match s.bal.previous with | some (t, _) => t | none => [])
  let s1 := entries.foldl (fun s e =>
    ((List.range (window / e.balMin + 2)).map fun j => ((now - window) / e.balMin + j) * e.balMin).foldl (fun s m =>
      match s.topoAt m with
      | none => s
      | some t =>
        if topoNode t e.node ≠ some e ∨ !s.revisable e m then s
        else match s.result e.node m with
          | some r =>
            let f := s.findings t e m (r.k0, r.k2)
            if r.inputIsn < max f.ref.isn f.sum.isn then s.queueJob e.node m .revision else s
          | none => if s.balanceDue t e m then s.queueJob e.node m .first else s) s) s
  s1.flag F.BAL_STAT.READY true

/-! ### Topology changes and operations (R166, R173) -/

/-- Whether a node restarts with a new entry (R166). -/
def nodeRestarts (old new : TopoNode) : Bool :=
  let ref := decide (old.refMp ≠ new.refMp) || decide (old.refMeter ≠ new.refMeter) ||
    decide (old.flag 1 ≠ new.flag 1) || decide (old.flag 2 ≠ new.flag 2)
  if new.flag 4 then ref
  else ref || decide (old.parent ≠ new.parent) || decide (old.balMin ≠ new.balMin) || decide (old.flag 3 ≠ new.flag 3)

/-- A new topology takes effect (R166), and nodes whose meter reference may not serve are recorded
(R150). -/
def State.changeTopology (s : State) (old : Option (List TopoNode)) (new : List TopoNode) : State :=
  let from_ := (s.clk.ns + 999999999) / 1000000000
  let s1 := match old with
    | some t => { s with bal := { s.bal with previous := some (t, s.bal.activeFrom), activeFrom := from_ } }
    | none => { s with bal := { s.bal with activeFrom := from_ } }
  let s2 := (old.getD []).foldl (fun s o =>
    let gone := match topoNode new o.node with | some e => nodeRestarts o e | none => true
    if gone then (s.leaveAlert o.node 4).setNode o.node {} else s) s1
  new.foldl (fun s e => s.postIf (e.flag 2 && !s.refMeterOk e.refMeter) Ev.BAL_NO_REF [b2 e.node]) s2

/-- REBASE (R173). [DEDUCED, log 21; unsafe] -/
def State.rebase (s : State) (n : Nat) : State :=
  let s1 := s.leaveAlert n 3
  s1.setNode n { s1.node n with mu := ⟨0, 0⟩, sigma2 := ⟨0, 0⟩, statN := 0 }

/-- RELEARN (R173). -/
def State.relearn (s : State) (n : Nat) : State :=
  s.setNode n { s.node n with
    sw := ⟨0, 0⟩, sx := ⟨0, 0⟩, sxx := ⟨0, 0⟩, sy := ⟨0, 0⟩, sxy := ⟨0, 0⟩, learnN := 0, model := none }

/-! ### BALANCE_GET (R171) -/

/-- The state number of a node (TLV 0x0073). -/
def State.nodeCode (s : State) (e : TopoNode) : Nat :=
  let st := s.node e.node
  if !e.enabled then 0
  else match st.alert with
    | some false => 4
    | some true => 5
    | none =>
      if !e.measured ∨ (e.flag 2 ∧ !s.refMeterOk e.refMeter) then 1
      else if st.statN < s.fld F.BAL_EWMA.WARMUP then 2 else 3

/-- NODE_STATE. -/
def State.nodeState (s : State) (e : TopoNode) : Tlv :=
  let st := s.node e.node
  let k := lossModel e st
  mkTlv 0x0073 [(2, e.node), (1, s.nodeCode e), (1, st.run), (4, st.statN), (8, unsignedOf 8 st.mu.round),
    (8, unsignedOf 8 (sigmaEff e st).round), (4, min (k.1.round 256).toNat 4294967295),
    (4, min (k.2.round 16777216).toNat 4294967295), (4, st.learnN), (8, st.raisingStart), (2, st.loc.getD 0xFFFF), (2, 0)]

/-- What a NODE_SPAN returns for an interval never balanced. -/
def emptyResult (n balMin m : Nat) : NodeResult :=
  ⟨n, balMin, 0, 0, 0, m, 0, 0, 0, 0, 0, 0, ⟨0, 0⟩, ⟨0, 0⟩, 0, ⟨0, 0⟩, ⟨0, 0⟩⟩

/-- The results of `k` node intervals from minute `m` on, each under the topology that governs it; none where one of them has
no entry for the node (R171). -/
def State.nodeSpan (s : State) (n : Nat) : Nat → Nat → Option (List Byte)
  | 0, _ => some []
  | k + 1, m => match (s.topoAt m).bind fun l => topoNode l n with
    | none => none
    | some e =>
      let r := (s.result n m).getD (emptyResult n e.balMin m)
      (s.nodeSpan n k (m + max 1 e.balMin)).map fun l => (⟨0x0072, r.bytes⟩ : Tlv).wire ++ l

/-- One BALANCE_GET item. -/
def runBalanceItem (s : State) (_r : ItemRef) (t : Tlv) : State × ItemEnd :=
  let n := fieldAt t.value 0 2
  if t.type = 0x0071 then
    match topoNode s.topology n with
    | none => (s, .failed Cause.NODE_UNKNOWN)
    | some e => (s, .done (some (s.nodeState e).wire))
  else
    let m := fieldAt t.value 4 8 / 60
    match s.nodeSpan n (fieldAt t.value 12 2) m with
    | none => (s, .failed Cause.NODE_UNKNOWN)
    | some l => (s, .done (some l))

/-- BALANCE_GET (R171). -/
def execBalanceGet (m : Msg) (s : State) : Host.Outcome State Fault Refusal :=
  .next (s.serve 0x0070 m fun t => t.taskCommand m (some 8) runBalanceItem)

end Sys2Proof.Machine
end

