-- ==== Sys2Proof/Machine/Localise.lean ====
section
/-! DEFINITION. Localisation of a loss: the descent by excess, the signatures and the ranking
(R167 to R170). -/

namespace Sys2Proof.Machine

/-- The node intervals of a node that lie in the node intervals W of another. -/
def innerStarts (w : List Nat) (outer inner : Nat) : List Nat := w.flatMap fun m => spanStarts inner m outer

/-- Whether a node has a complete result in every interval of W (R167). -/
def State.completeIn (s : State) (c : TopoNode) (w : List Nat) (len : Nat) : Bool :=
  (innerStarts w len c.balMin).all fun m => match s.result c.node m with | some r => r.flag 1 | none => false

/-- X_v: Σ (r − μ) over a node's complete results in W (R167). -/
def State.excess (s : State) (v : TopoNode) (w : List Nat) (len : Nat) : F64 :=
  (innerStarts w len v.balMin).foldl (fun (x : F64) m => match s.result v.node m with
    | some r => if r.flag 1 then x.add ((F64.ofInt r.residual).sub r.mu) else x
    | none => x) ⟨0, 0⟩

/-- The measured child node of the largest excess, the lowest node for equal ones. -/
def State.bestChild (s : State) (t : List TopoNode) (n : Nat) (w : List Nat) (len : Nat) : Option (TopoNode × F64) :=
  ((topoChildren t n).filter fun c => c.measured && s.completeIn c w len).foldl
    (fun (best : Option (TopoNode × F64)) c =>
      let x := s.excess c w len
      match best with
      | none => some (c, x)
      | some (b, y) => if y.lt x then some (c, x) else some (b, y)) none

/-- The descent of R167; the first argument bounds the depth. -/
def State.descend (s : State) (t : List TopoNode) (w : List Nat) (len : Nat) : Nat → TopoNode → TopoNode
  | 0, loc => loc
  | f + 1, loc => match s.bestChild t loc.node w len with
    | none => loc
    | some (c, x) =>
      let bound := (F64.ofRat (s.fld F.BAL_LOC.SHARE) 100).mul (s.excess loc w len)
      if x.lt bound then loc else s.descend t w len f c

/-- The nodes whose child meters are candidates (R168); the first argument bounds the depth. -/
def State.candidateNodes (s : State) (t : List TopoNode) (w : List Nat) (len : Nat) : Nat → TopoNode → List TopoNode
  | 0, _ => []
  | f + 1, loc => loc :: ((topoChildren t loc.node).filter fun c =>
      !(c.measured && s.completeIn c w len)).flatMap fun c => s.candidateNodes t w len f c

/-- Half a quotient of 0.01 % units, rounded to nearest and saturating (R169). -/
def ratio10000 (a b : Int) : Int := clampInt (-32767) 32767 (roundDiv (10000 * a) b)

/-- R and DROP of a candidate (R169). -/
def candidateDrop (r : MeterRec) (w : List Nat) (len : Nat) : Option Int × Option Int :=
  let here := w.filter fun m => r.present m len
  let sum := sumInt (fun m => r.spanImp m len) here
  let b := r.bal.baseline
  if here.isEmpty then (none, none)
  else (some (sum / here.length), if 0 < b then some (ratio10000 (b * here.length - sum) (b * here.length)) else none)

/-- The median, the lower middle value for an even count (R169). -/
def lowerMedian (l : List Int) : Option Int := (l.mergeSort fun a b => decide (a ≤ b))[(l.length - 1) / 2]?

/-- The signatures of a candidate as a bit mask (R169). `w` are the starts of its node's intervals in W,
of `len` minutes each. -/
def State.signatures (s : State) (r : MeterRec) (w : List Nat) (len first : Nat) (loaded : Bool)
    (drop peer : Option Int) : Nat :=
  let judged := decide (96 ≤ r.bal.baseN)
  let es := w.flatMap fun m => r.spanEntries m len
  let s1 := judged && match drop with | some d => decide ((s.fld F.BAL_SIG_THR.DROP_MIN : Int) ≤ d) | none => false
  let s2 := judged && match peer with | some d => decide ((s.fld F.BAL_SIG_THR.PEER_MIN : Int) ≤ d) | none => false
  let s3 := r.conf.flag 1 && es.any fun e => decide (0 < e.exp)
  let s4 := r.store.any fun e => decide (first ≤ e.1) && qget e.2.quality Q.TAMPER
  let s5 := judged && !es.isEmpty && es.all (fun e => e.imp == 0) && loaded &&
    decide ((s.fld F.BAL_ZERO_BASE.MWH : Int) ≤ r.bal.baseline)
  let s6 := w.all fun m => !r.present m len
  (flagWord [(0, s1), (1, s2), (2, s3), (3, s4), (4, s5), (5, s6)]).toNat

/-- The score of a signature mask (R170). -/
def State.scoreOf (s : State) (sigs : Nat) : Nat :=
  let weight (k : Nat) (f : FieldRef) : Nat := if sigs.testBit k then s.fld f else 0
  min 255 (weight 0 F.BAL_SIG_W0.S1 + weight 1 F.BAL_SIG_W0.S2 + weight 2 F.BAL_SIG_W0.S3 +
    weight 3 F.BAL_SIG_W0.S4 + weight 4 F.BAL_SIG_W1.S5 + weight 5 F.BAL_SIG_W1.S6)

/-- The candidates of a localised node, each with its node (R168). -/
def State.candidates (s : State) (t : List TopoNode) (loc : TopoNode) (w : List Nat) (len : Nat) :
    List (TopoNode × Nat × MeterRec) :=
  (s.candidateNodes t w len 33 loc).flatMap fun n => (s.childMeters t n.node (w.headD 0)).map fun c => (n, c.1, c.2)

/-- Whether a suspect ranks before another (R170). -/
def rankBefore (a b : Suspect) : Bool :=
  let da := a.drop.getD (-32768)
  let db := b.drop.getD (-32768)
  if a.score ≠ b.score then decide (b.score < a.score)
  else if da ≠ db then decide (db < da)
  else decide (a.index ≤ b.index)

/-- The ranking of all candidates (R169, R170). -/
def State.ranking (s : State) (t : List TopoNode) (loc : TopoNode) (w : List Nat) (len : Nat) : List Suspect :=
  let loaded := (innerStarts w len loc.balMin).all fun m => match s.result loc.node m with
    | some r => decide (0 < r.eRef)
    | none => false
  let cs := (s.candidates t loc w len).map fun c =>
    let starts := innerStarts w len c.1.balMin
    (c, starts, candidateDrop c.2.2 starts c.1.balMin)
  let med := lowerMedian (cs.filterMap fun c => c.2.2.2)
  let l := cs.map fun c =>
    let peer := match c.2.2.2, med with | some d, some m => some (clampInt (-32767) 32767 (d - m)) | _, _ => none
    let sigs := s.signatures c.1.2.2 c.2.1 c.1.1.balMin (w.headD 0) loaded c.2.2.2 peer
    (⟨c.1.2.1, sigs, s.scoreOf sigs, c.2.2.2, peer, c.1.2.2.bal.baseline, c.2.2.1⟩ : Suspect)
  l.mergeSort rankBefore

/-- TLV 0x0075 SUSPECT. A DROP, PEER or R that does not exist has no stated value: a free value.
[DESIGN CHOICE, log 98; safe] -/
def suspectTlv (free rank : Nat) (x : Suspect) : Tlv :=
  mkTlv 0x0075 [(4, x.index), (1, rank), (1, x.sigs), (2, x.score), (2, unsignedOf 2 (x.drop.getD free)),
    (2, unsignedOf 2 (x.peer.getD (free / 65536))), (4, unsignedOf 4 x.base), (4, unsignedOf 4 (x.mean.getD free))]

/-- A localisation of an alerting node: loc, the ranking, and ALERT_UPDATE where loc or the first-ranked
candidate changed (R167 to R171). -/
def State.localise (s : State) (n : Nat) : State :=
  let w := (s.node n).raising
  match (s.topoAt (w.headD 0)).bind fun t => (topoNode t n).map fun a => (t, a) with
  | none => s
  | some (t, a) =>
    let loc := s.descend t w a.balMin 33 a
    let ranked := s.ranking t loc w a.balMin
    let top := (ranked.filter fun x => decide (0 < x.score)).take (s.fld F.BAL_LOC.TOPK)
    let first := top.head?.map fun x => x.index
    let s1 := top.foldl (fun s x =>
      let r := s.meter x.index
      s.setMeter x.index { r with bal := { r.bal with sigs := x.sigs, score := x.score } }) s
    let st := s1.node n
    let s2 := s1.setNode n { st with loc := some loc.node, lastLoc := some loc.node, first := first }
    if st.loc = some loc.node ∧ st.first = first then s2
    else s2.draw.lossNotice n 2 false 0 st.raisingStart ranked.length
      (top.zipIdx.map fun x => suspectTlv s.free (x.2 + 1) x.1)

/-! ### The queue (R164, R173) -/

/-- One operation of BAL_CMD at its turn: the state and the cause (R173). A RELOCATE whose node has left ALERT_POS since it
was queued is refused then. [DEDUCED, log 20; unsafe] -/
def State.balOp (s : State) (op n : Nat) : State × Nat :=
  if op = 1 then (s.rebase n, Cause.OK)
  else if op = 2 then (s.leaveAlert n 3, Cause.OK)
  else if op = 3 then (if (s.node n).alert = some false then (s.localise n, Cause.OK) else (s, Cause.REG_RANGE))
  else (s.relearn n, Cause.OK)

/-- BAL_CMD_STAT after an operation: CAUSE is that of the last refusal (R173). -/
def State.balAnswer (s : State) (c : Nat) : State :=
  if c = Cause.OK then s.setF F.BAL_CMD_STAT.STATE 2 else (s.setF F.BAL_CMD_STAT.CAUSE c).setF F.BAL_CMD_STAT.STATE 3

/-- Runs the operations at the head of the queue (R173). -/
def State.runOps (s : State) : State :=
  let s1 := s.bal.ops.foldl (fun t o => match t.balOp o.1 o.2.1 with | (t1, c) => t1.balAnswer c) s
  if s.bal.ops.isEmpty then s else ({ s1 with bal := { s1.bal with ops := [] } } : State).showJobs

/-- Runs the job at the head of the queue. -/
def State.runJob (s : State) (j : BalJob) : State :=
  match (s.topoAt j.start).bind fun t => (topoNode t j.node).map fun e => (t, e) with
  | none => s.endJob
  | some (t, e) => match j.work, s.result j.node j.start with
    | .first, none => s.endJob.firstBalance t e j.start
    | .revision, some old => s.endJob.reviseResult t e j.start old
    | .localise, _ => if (s.node j.node).alert = some false then s.endJob.localise j.node else s.endJob
    | _, _ => s.endJob

/-- Runs the head of the queue where it is the job meant, after the operations before it. -/
def State.runHead (s : State) (which : BalJob → Bool) : State :=
  let s1 := s.runOps
  match s1.bal.jobs with
  | j :: _ => if which j then s1.runJob j else s1
  | [] => s1

/-- NODE_BALANCE: a node interval is considered once gated or after WAIT_MIN, and balanced when its job is
at the head of the queue (R155, R164). `m` is its start in UTC minutes. -/
def execNodeBalance (n m : Nat) (s : State) : Host.Outcome State Fault Refusal :=
  let due := match s.topoAt m with
    | none => false
    | some t => match topoNode t n with
      | none => false
      | some e => s.balanceDue t e m
  .next ((if due then s.queueJob n m .first else s).runHead fun j => j.node == n && j.start == m && j.work == .first)

/-- BALANCE_REVISION: the revision at the head of the queue runs (R162). [DEDUCED, log 97; unsafe] -/
def execBalanceRevision (s : State) : Host.Outcome State Fault Refusal := .next (s.runHead fun j => j.work == .revision)

/-- LOCALISATION: the localisation of node `n` at the head of the queue runs (R164, R167). -/
def execLocalisation (n : Nat) (s : State) : Host.Outcome State Fault Refusal :=
  .next (s.runHead fun j => j.node == n && j.work == .localise)

end Sys2Proof.Machine
end

