-- ==== Sys2Proof/Machine/Ingest.lean ====
section
/-! DEFINITION. Reading ingest: frames, their acceptance, durability and back-pressure (R125 to R149). -/

namespace Sys2Proof.Machine

/-! ### The buffer (R146, R147) -/

/-- BACKPRESSURE_START and BACKPRESSURE_END follow the fill of the buffer (R147). -/
def State.showBuffer (s : State) : State :=
  let n := s.ing.waiting.length
  let pct := n * 100 / 2097152
  let bp := s.fld F.ING_STAT.BP == 1
  let start := !bp && decide (s.fld F.ING_BP.HIGH * 2097152 ≤ n * 100)
  let stop := bp && decide (n * 100 ≤ s.fld F.ING_BP.LOW * 2097152)
  let r := (s.regs.setF F.ING_BUF.FILL n).setF F.ING_STAT.FILL pct
  let r1 := if start then r.flag F.ING_STAT.BP true else if stop then r.flag F.ING_STAT.BP false else r
  ({ s with regs := r1 } : State).postIf start Ev.INGEST_BACKPRESSURE []

/-- A rejection is counted by its cause and shown with the meter, where one is known (R132). -/
def State.rejectReading (s : State) (cause : Nat) (i : Option Nat) : State :=
  let r := if 0x0400 ≤ cause ∧ cause ≤ 0x0406 then s.regs.bump (F.ING_REJ_CNT.COUNT (cause - 0x0400)) 1 else s.regs
  let r1 := (r.setF F.ING_LAST_REJ.CAUSE cause).flag F.ING_LAST_REJ_IDX.VALID i.isSome
  { s with regs := r1.setF F.ING_LAST_REJ_IDX.INDEX (i.getD 0) }

/-! ### Steps 1 to 4 (R130, R133, R134) -/

/-- The ACTIVE record of a frame: by EXT_ID, or by short address and route (R132). -/
def State.frameMeter (s : State) (f : IngestFrame) : Option Nat :=
  (s.ing.meters.find? fun e => decide (e.2.state = .active) && e.2.conf.protocol == f.body.protocol &&
    (match f.extId with
     | some x => decide (e.2.conf.extId = x)
     | none => f.shortAddr != 0xFFFF && e.2.conf.shortAddr == f.shortAddr &&
         (e.2.conf.route == f.route || e.2.conf.route == 0))).map fun e => e.1

/-- A key of ingest becomes the most recently used of at most SLOTS (R133). -/
def IngestState.useKey (g : IngestState) (slots i k : Nat) : IngestState :=
  { g with keys := ((i, k) :: g.keys.filter (· != (i, k))).take slots }

/-- Takes one wrapped key into ingest's slots: its key, or none where it fails its integrity check, which is counted, or
where no KEK is held (R133, R346). -/
def State.useKey (s : State) (i k : Nat) (w : WrappedKey) : State × Option (List Byte) :=
  match s.unwrap w with
  | some key => (({ s with ing := s.ing.useKey (s.fld F.ING_KEYCACHE.SLOTS) i k } : State).showSlots, some key)
  | none => (if s.keysReady then s.bump F.KEY_UNWRAP_FAIL_CNT.COUNT else s, none)

/-- Takes the reading key, and for DLMS KEY2, into ingest's key slots; none where one is missing (R133). -/
def State.frameKeys (s : State) (i : Nat) (r : MeterRec) : State × Option (List Byte × List Byte) :=
  match r.keyWrap with
  | none => (s, none)
  | some w => match s.useKey i 0 w with
    | (s1, none) => (s1, none)
    | (s1, some k) =>
      if r.conf.protocol ≠ 3 then (s1, some (k, []))
      else match r.key2Wrap with
        | none => (s1, none)
        | some w2 => match s1.useKey i 1 w2 with
          | (s2, none) => (s2, none)
          | (s2, some k2) => (s2, some (k, k2))

/-- How a frame fares at step 3: the cause of a failure, or what a Tylian message holds once opened, and whether the frame is
unauthenticated. -/
inductive AuthVerdict where
  | failed (cause : Nat)
  | opened (plain : List Byte) (unauth : Bool)
  deriving DecidableEq, Repr

/-- Step 3 (R131, R133). -/
def State.authenticate (s : State) (i : Nat) (r : MeterRec) (f : IngestFrame) : State × AuthVerdict :=
  if r.keyAlg = 0 then
    (s, if r.conf.protocol = 4 ∧ !f.secured then .opened [] true else .failed Cause.KEY_MISSING)
  else match s.frameKeys i r with
    | (s1, none) => (s1, .failed Cause.KEY_MISSING)
    | (s1, some (k, _)) =>
      let plain := match f.body with
        | .tylian l => openMessage k r.conf.extId l
        | .coded c => if c.use.secured ∧ c.tagOk then some [] else none
      match plain with
      | some l => (s1, .opened l false)
      | none => (s1.post Ev.METER_AUTH_FAIL [b4 i], .failed Cause.AUTH_FAIL)

/-- SEQ_HIGH and SEQ_WIN with the frames whose readings wait for their log entry (R134, R137). -/
def State.frameWindow (s : State) (i : Nat) : Nat × BitVec 64 :=
  let r := s.meter i
  s.ing.waiting.foldl (fun h x => match x.counter with
    | some c => if x.index = i then windowTake h c else h
    | none => h) (r.seqHigh.toNat, r.seqWin)

/-- Takes a counter into the record's window. -/
def MeterRec.takeCounter (r : MeterRec) (c : Option Nat) : MeterRec :=
  match c with
  | none => r
  | some c =>
    let (h, w) := windowTake (r.seqHigh.toNat, r.seqWin) c
    { r with seqHigh := BitVec.ofNat 32 h, seqWin := w }

/-- Steps 1 to 4 of a frame with a message of a type (R132): the meter, the opened message, and whether it is
unauthenticated; none where a step fails, which is counted. -/
def State.openFrame (s : State) (type : Nat) (f : IngestFrame) : State × Option (Nat × List Byte × Bool) :=
  if !f.parses type then (s.rejectReading Cause.PROTOCOL none, none)
  else match s.frameMeter f with
    | none => (s.rejectReading Cause.METER_UNKNOWN none, none)
    | some i => match s.authenticate i (s.meter i) f with
      | (s1, .failed c) => (s1.rejectReading c (some i), none)
      | (s1, .opened l unauth) =>
        let (h, w) := s1.frameWindow i
        match f.counter.map (windowJudge h w) with
        | some .used => (s1.bump F.ING_DUP_FRAME_CNT.COUNT, none)
        | some .old => (s1.rejectReading Cause.DUPLICATE (some i), none)
        | _ => (s1, some (i, l, unauth))

/-- A frame whose content is not a reading takes its counter and LAST_RX at once. -/
def State.takeFrame (s : State) (i : Nat) (f : IngestFrame) : State :=
  s.setMeter i { (s.meter i).takeCounter f.counter with lastRx := f.rx / 1000 }

/-! ### Step 5: alignment (R135, R136) -/

/-- Device time quality is FREE or LOST. -/
def State.timePoor (s : State) : Bool := decide (2 ≤ s.fld F.CLK_QUAL.QUALITY)

/-- round(a/b), halves up. -/
def roundUp (a : Int) (b : Nat) : Int := (2 * a + b) / (2 * b)

/-- MAX in ms (R135). -/
def State.maxOffset (s : State) (l : Nat) : Int := min (s.fld F.ING_CLOCK.MAX_S) (15 * l) * 1000

/-- An alignment: T in seconds and whether it carries CLOCK_ADJ. -/
def State.align (s : State) (c : MeterConf) (eps : Int) (finish rx : Nat) : Int × Bool :=
  let p := 60 * c.intervalMin
  let tol : Int := s.fld F.ING_CLOCK.TOL_S * 1000
  if c.flag 6 then
    let t := rx / 1000 / p * p
    (t, decide (tol < (rx : Int) - t * 1000))
  else if s.timePoor then (p * roundUp finish p, false)
  else if (eps.natAbs : Int) ≤ tol then (p * roundUp finish p, false)
  else (p * roundUp (finish * 1000 - eps) (p * 1000), true)

/-- The alignment of an end under the binding that governs its interval, the newest first (R126, R136). -/
def MeterRec.alignIn (r : MeterRec) (align : MeterConf → Int × Bool) : MeterConf × Int × Bool :=
  let of (c : MeterConf) : MeterConf × Int × Bool := (c, align c)
  ((r.confs.map of).find? fun x => decide (r.confAt ((x.2.1 / 60).toNat - x.1.intervalMin) = x.1)).getD (of r.conf)

/-- Whether an aligned end is refused with CLOCK_RANGE (R136). -/
def State.endRefused (s : State) (t : Int) (rx : Nat) : Bool :=
  decide ((rx : Int) + s.fld F.ING_CLOCK.TOL_S * 1000 < t * 1000) ||
    decide (t * 1000 < (rx : Int) - s.retentionDays * 86400000)

/-- The quality of an accepted reading (R144). -/
def State.readingQuality (s : State) (e : FrameEntry) (t : Int) (rx : Nat) (adj unauth : Bool) : BitVec 16 :=
  let q := qset (qset (qset (qset 0 Q.VALID) Q.TAMPER e.tamper) Q.PF_GAP e.pf) Q.REVERSED e.reversed
  let q1 := qset (qset q Q.CLOCK_ADJ adj) Q.UNAUTH unauth
  qset (qset q1 Q.LATE (decide (t * 1000 + s.fld F.ING_LATE.SECONDS * 1000 < (rx : Int)))) Q.TIME_DEGRADED
    (decide (s.fld F.CLK_QUAL.QUALITY ≠ 0))

/-! ### Step 6: the check against the store (R138) -/

/-- The values held for the interval of `p` minutes that ends at `t`: of a reading that waits, or those of a VALID entry. An
entry of the other kind of reading is held as its deltas. [DEDUCED, log 94; unsafe] -/
def State.heldValues (s : State) (i t p : Nat) (profile : Bool) : Option (List (Option Nat)) :=
  let r := s.meter i
  match s.ing.waiting.find? fun x => x.index == i && x.endMin == t with
  | some x => some (x.values.take 2)
  | none => match Map.find r.store (t - p) with
    | none => none
    | some e =>
      if !qget e.quality Q.VALID then none
      else
        let u := (r.confEnd t).unit
        let v := (Map.find (if profile then r.raw else r.held) t).getD (e.imp * u, e.exp * u)
        some [some v.1, some v.2]

/-- Whether the values of a reading equal those held; a value that one of them does not give differs from none. -/
def sameValues (held new : List (Option Nat)) : Bool :=
  (held.zip new).all fun p => p.1 == p.2 || p.1.isNone || p.2.isNone

/-- A differing reading is refused: the held entry gains DUP (R138). -/
def State.conflict (s : State) (i t p : Nat) (held new : List (Option Nat)) : State :=
  let r := s.meter i
  let r1 := { r with store := Map.adjust r.store (t - p) fun e => { e with quality := qset e.quality Q.DUP } }
  let (x, y) := ((held.zip new).find? fun v => !sameValues [v.1] [v.2]).getD (none, none)
  let s1 := (s.setMeter i r1).bump F.ING_CONFLICT_CNT.COUNT
  let s2 := { s1 with ing := { s1.ing with waiting := s1.ing.waiting.map fun (w : Reading) =>
    if w.index = i ∧ w.endMin = t then { w with quality := qset w.quality Q.DUP } else w } }
  s2.post Ev.READING_CONFLICT [b4 i, b8 (t * 60000 : Nat), b8 (x.getD 0), b8 (y.getD 0)]

/-- How a reading fares at step 6. -/
inductive StoreVerdict where
  | take | repeated | conflicts
  deriving DecidableEq, Repr

/-- R138. -/
def State.checkStore (s : State) (i t p : Nat) (profile : Bool) (v : List (Option Nat)) : State × StoreVerdict :=
  match s.heldValues i t p profile with
  | none => (s, .take)
  | some h =>
    if sameValues h v then (s.bump F.ING_DUP_READ_CNT.COUNT, .repeated) else (s.conflict i t p h v, .conflicts)

/-- Step 7: the reading takes its ISN and is written to the reading log (R128). -/
def State.logReading (s : State) (x : Reading) : State :=
  let (s1, isn) := s.takeIsn
  ({ s1 with ing := { s1.ing with waiting := s1.ing.waiting ++ [{ x with isn := isn, loggedAt := s.now }] } } : State).showBuffer

/-- METER_STATUS: TAMPER, PF and REVERSED of the meter (R124, R131). -/
def FrameEntry.status (e : FrameEntry) : Word :=
  BitVec.ofNat 32 ((if e.tamper then 1 else 0) + (if e.pf then 2 else 0) + (if e.reversed then 4 else 0))

/-! ### INGEST_FRAME (R132) -/

/-- One entry of an accepted frame: steps 5 to 7. Returns whether it passed step 5, and whether it was logged. -/
def State.takeEntry (s : State) (i : Nat) (f : IngestFrame) (eps : Int) (profile unauth : Bool) (e : FrameEntry) :
    State × Bool × Bool :=
  let (c, t, adj) := (s.meter i).alignIn fun c => s.align c eps e.finish f.rx
  if s.endRefused t f.rx then (s.rejectReading Cause.CLOCK_RANGE (some i), false, false)
  else
    let m := t.toNat / 60
    match s.checkStore i m c.intervalMin profile (e.values.take 2) with
    | (s1, .take) =>
      let x : Reading := ⟨0, i, f.counter, f.route, m, c.intervalMin, profile, s.readingQuality e t f.rx adj unauth, e.values,
        e.status, false, s.fld F.CLK_QUAL.QUALITY == 3, none, s.fld F.ING_STAT.BP == 0, 0⟩
      (s1.logReading x, true, true)
    | (s1, _) => (s1, true, false)

/-- The entries of a frame in order: whether any passed step 5, and whether any was logged. -/
def State.takeEntries (s : State) (i : Nat) (f : IngestFrame) (eps : Int) (profile unauth : Bool) (l : List FrameEntry) :
    State × Bool × Bool :=
  l.foldl (fun a e =>
    let (t, x, y) := a.1.takeEntry i f eps profile unauth e
    (t, a.2.1 || x, a.2.2 || y)) (s, false, false)

/-- ε of a frame in ms; a frame without meter time leaves it unchanged (R135). -/
def State.frameOffset (s : State) (r : MeterRec) (f : IngestFrame) : Int :=
  match f.meterTime with
  | some t => if s.timePoor then r.clockOfs else (t : Int) * 1000 - f.rx
  | none => r.clockOfs

/-- The readings of a frame, and whether they are deltas (R124, R131). -/
def IngestFrame.readings (f : IngestFrame) (r : MeterRec) (plain : List Byte) : List FrameEntry × Bool :=
  match f.body with
  | .tylian _ => (tylianEntries plain, (BitVec.ofNat 8 (fieldAt plain 1 1)).getLsbD 0)
  | .coded c => (c.entries, r.conf.flag 5)

/-- Whether the INTERVAL_MIN of a Tylian message is the record's, as it is or was (R126, R131). -/
def IngestFrame.fits (f : IngestFrame) (r : MeterRec) (plain : List Byte) : Bool :=
  match f.body with
  | .tylian _ => r.confs.any fun c => c.intervalMin == fieldAt plain 12 1
  | .coded _ => true

/-- Steps 5 to 7 of a frame that passed step 4. A frame of which no reading is logged takes its counter at once. -/
def State.acceptFrame (s : State) (i : Nat) (f : IngestFrame) (plain : List Byte) (unauth : Bool) : State :=
  let r := s.meter i
  let eps := s.frameOffset r f
  let s1 := s.setMeter i { r with clockOfs := signedOf 4 (unsignedOf 4 eps) }
  let take (t : State) : State := t.setMeter i ((t.meter i).takeCounter f.counter)
  if !f.fits r plain then (take s).rejectReading Cause.PROTOCOL (some i)
  else if !s.timePoor ∧ f.meterTime.isSome ∧ s.maxOffset r.conf.intervalMin < (eps.natAbs : Int) then
    ((take s1).rejectReading Cause.CLOCK_RANGE (some i)).post Ev.CLOCK_RANGE [b4 i, b8 eps]
  else
    let (l, profile) := f.readings r plain
    let (s2, passed, logged) := s1.takeEntries i f eps profile unauth l
    let s3 := if passed then s2.setMeter i { s2.meter i with lastRx := f.rx / 1000 } else s2
    if logged then s3 else take s3

/-- A frame through steps 1 to 7 (R132). -/
def State.ingest (s : State) (f : IngestFrame) : State :=
  if 2097152 < s.ing.waiting.length + f.count then s.rejectReading Cause.INGEST_BUSY none
  else match s.openFrame 0x21 f with
    | (s1, some (i, l, unauth)) => s1.acceptFrame i f l unauth
    | (s1, none) => s1

/-- INGEST_FRAME: the oldest frame handed to ingest goes through steps 1 to 7, once the restore of R129
has ended (R132). -/
def execIngestFrame (s : State) : Host.Outcome State Fault Refusal :=
  match s.ing.frames with
  | [] => .next s
  | f :: rest =>
    .next (if s.fld F.ING_STAT.READY = 0 then s
      else ({ s with ing := { s.ing with frames := rest } } : State).ingest f)

/-! ### READING_DURABLE (R137) -/

/-- APP_ACK, or the confirmation of another protocol, once the last entry of a message is durable: `later` are the readings
that become durable after it. -/
def State.acknowledge (s : State) (x : Reading) (later : List Reading) : State :=
  if !x.ack ∨ later.any (fun w => w.index == x.index && w.counter == x.counter && w.counter.isSome) then s
  else if (s.meter x.index).conf.protocol = 1 then
    s.tellMeter x.index (packBytes [(1, 0x32), (3, 0), (4, x.counter.getD 0)])
  else if (s.meter x.index).conf.protocol = 3 then s.send (.meterConfirm x.index)
  else s

/-- The reactive deltas in mvarh of an entry that advances the indexes (R184). -/
def reactiveDeltas (r : MeterRec) (x : Reading) : Nat × Nat :=
  let old (k : Nat) : Nat := r.idx.getD k 0 / 1000
  let new (k : Nat) : Nat := (r.newIdx x).getD k 0 / 1000
  if r.held.isEmpty && !x.profile then (0, 0)
  else if r.lastStart + 60 * x.period < x.endMin * 60 then (new 2 - old 2, new 3 - old 3)
  else (0, 0)

/-- TARIFF, prepayment and balance take one changed entry (R161, R184, R204). An entry that this reading did not produce keeps
the rate of the reading that did (R182). -/
def State.handOver (s : State) (x : Reading) (reactive : Nat × Nat) (c : Change) : State :=
  let anew := c.new.isn == x.isn
  let lost := if anew then x.lost else qget c.new.quality Q.DEFAULT_RATE
  let own := c.start + x.period == x.endMin
  let (s1, rate, di) := s.registerEntry x.index x.isn lost anew (if own then reactive else (0, 0)) c
  (s1.debitMeter x.index rate di).meterChanged x.index c.start

/-- Insertion of a change in ascending start. -/
def insertChange (c : Change) : List Change → List Change
  | [] => [c]
  | d :: l => if c.start < d.start then c :: d :: l else d :: insertChange c l

/-- What the INTERVALS namespace keeps of a meter: entries from a minute on, and the newest index and remainder before it
(R139). -/
def MeterRec.retain (r : MeterRec) (m : Nat) : MeterRec :=
  let newer {α : Type} (l : Map α) : Map α := l.filter fun e => decide (m ≤ e.1)
  let with1 {α : Type} (l : Map α) : Map α := (l.filter fun e => decide (e.1 < m)).getLast?.toList ++ newer l
  { r with store := newer r.store, held := with1 r.held, raw := newer r.raw, carry := with1 r.carry }

/-- A durable reading is applied to the record, the store, TARIFF and BALANCE (R137 to R145). -/
def State.applyReading (s : State) (x : Reading) : State :=
  let r := (s.meter x.index).takeCounter x.counter
  let (r1, changes) := if x.profile then r.profileReading x else r.indexReading x
  let r2 := { r1.retain s.oldestKept with
    appliedIsn := max r1.appliedIsn x.isn
    clockAdj := if qget x.quality Q.CLOCK_ADJ then min (r1.clockAdj + 1) 65535 else r1.clockAdj
    meterStatus := x.status }
  let s1 := (List.range (r.decreases x)).foldl (fun (t : State) _ => t.post Ev.INDEX_DECREASE [b4 x.index])
    (s.setMeter x.index r2)
  (changes.foldr insertChange []).foldl (fun t c => t.handOver x (reactiveDeltas r x) c) s1

/-- One reading becomes durable: it is counted, applied, acknowledged, and its item ends DONE (R137). -/
def State.durable (s : State) (x : Reading) (later : List Reading) : State :=
  let s1 := ({ s with ing := { s.ing with recent := s.ing.recent + 1 } } : State).logEntry (.reading x)
  let s2 := { s1 with regs := (s1.regs.bump F.ING_ACCEPT_CNT.COUNT 1).bump (F.ING_SRC_CNT.COUNT x.route) 1 }
  let s3 := (s2.applyReading x).acknowledge x later
  match x.item with
  | some (task, item) => s3.endItem task item 0
  | none => s3

/-- Readings become durable in order. -/
def State.durableAll : List Reading → State → State
  | [], s => s
  | x :: l, s => State.durableAll l (s.durable x l)

/-- The readings logged up to a pace become durable together; in a pair in step once its digest has matched (R137,
R398). -/
def State.durableUpto (s : State) (upto : Nat) : State :=
  let due (x : Reading) : Bool := decide (x.loggedAt ≤ upto) && s.digestOk x.loggedAt
  (State.durableAll (s.ing.waiting.filter due)
    { s with ing := { s.ing with waiting := s.ing.waiting.filter fun x => !due x } }).showBuffer

/-- READING_DURABLE: the log entries of the oldest pace are durable (R137). -/
def execReadingDurable (s : State) : Host.Outcome State Fault Refusal :=
  match s.ing.waiting with
  | [] => .next s
  | x :: _ => .next (s.durableUpto x.loggedAt)

/-- At a pace boundary every log entry of five paces ago is durable, of readings and of tokens (R137). -/
def State.logsDue (s : State) : State :=
  if s.now < 5 then s
  else
    let s1 := if s.ing.waiting.any fun x => decide (x.loggedAt + 5 ≤ s.now) then s.durableUpto (s.now - 5) else s
    if s1.ing.tokens.any fun w => decide (w.loggedAt + 5 ≤ s.now) then s1.applyTokens (s.now - 5) else s1

/-! ### Records of own points -/

/-- INTERVAL_RECORD: the record at the head of the export queue is stored and handed to BALANCE; a
duplicate by MP and START is discarded (R113, R161). -/
def execIntervalRecord (s : State) : Host.Outcome State Fault Refusal :=
  match s.takeExport fun e => match e with | .interval _ => true | _ => false with
  | (s1, some (.interval r)) =>
    let held := s.leg.records.any fun x => x.mp == r.mp && x.start == r.start
    let kept := s1.leg.records.filter fun x => decide (60 * s.oldestKept ≤ x.start)
    .next (if held then s1 else ({ s1 with leg := { s1.leg with records := kept ++ [r] } } : State).pointChanged r)
  | (s1, _) => .next s1

/-! ### Tokens forwarded by meters (R205) -/

/-- The twenty digits of a token forward message. -/
def forwardedDigits (l : List Byte) : List Nat :=
  (List.range 10).flatMap fun k => [fieldAt l (16 + k) 1 / 16, fieldAt l (16 + k) 1 % 16]

/-- TOKEN_FORWARD: a forwarded token passes the steps of its frame and is checked; the credit-state
message answers (R205). -/
def execTokenForward (s : State) : Host.Outcome State Fault Refusal :=
  match s.ing.forwards with
  | [] => .next s
  | f :: rest =>
    .next (match ({ s with ing := { s.ing with forwards := rest } } : State).openFrame 0x23 f with
      | (s1, none) => s1
      | (s1, some (i, l, _)) => match (s1.takeFrame i f).checkToken (forwardedDigits l) i (s1.prepayMeter i) .meter with
        | (s2, some c) => s2.reportToken (some i) c .meter
        | (s2, none) => s2)

end Sys2Proof.Machine
end

