-- ==== Sys2Proof/Machine/Radio.lean ====
section
/-! DEFINITION. The radios: airtime under R252, the joined table, envelopes, and the messages of nodes
(R225 to R236, R252 to R254). -/

namespace Sys2Proof.Machine

/-! ### RF_BANDS -/

/-- The entry of a radio; none where RF_BANDS is absent, which is OFF (R228). -/
def State.radio (s : State) (x : Nat) : Option RadioConf :=
  match s.warp.active with
  | some w => match w.rfBands with
    | some b => b.radios[x]?
    | none => none
  | none => none

/-- The sub-bands of RF_BANDS. -/
def State.subBands (s : State) : List SubBand :=
  match s.warp.active with
  | some w => match w.rfBands with | some b => b.subBands | none => []
  | none => []

/-- MESH or DUAL. -/
def RadioConf.mesh (c : RadioConf) : Bool := c.role == 1 || c.role == 3

/-- WMBUS or DUAL. -/
def RadioConf.wmbus (c : RadioConf) : Bool := c.role == 2 || c.role == 3

/-- Radios that serve the mesh. -/
def State.meshRadios (s : State) : List Nat :=
  (List.range 2).filter fun x => match s.radio x with | some c => c.mesh | none => false

/-- The centre of a channel in kHz (R228). -/
def RadioConf.centre (c : RadioConf) (k : Nat) : Nat := c.ch0Khz + k * c.spacingKhz

/-- The sub-band that holds a channel (R228). -/
def State.subBandOf (s : State) (c : RadioConf) (k : Nat) : Nat :=
  (s.subBands.findIdx fun b => decide (b.loKhz ≤ c.centre k) && decide (c.centre k ≤ b.hiKhz))

/-- The channels set in a map, in ascending order. -/
def setChannels (m : BitVec 64) : List Nat := (List.range 64).filter fun k => m.getLsbD k

/-! ### Airtime (R252)

Airtime is counted in 1/600 ms, in which every octet of every rate of R225 is a whole number. -/

/-- Airtime of one bit at a RATE code. -/
def bitUnits (rate : Nat) : Nat :=
  if rate = 0 then 12 else if rate = 1 then 6 else if rate = 2 then 4 else if rate = 3 then 3 else 2

/-- Airtime of a frame: preamble, SFD, PHR and PSDU with its FCS (R225). -/
def RadioConf.frameUnits (c : RadioConf) (preamble psdu : Nat) : Nat := (preamble + 4 + psdu) * 8 * bitUnits c.rate

/-- µs of an airtime, rounded up. -/
def unitsUs (n : Nat) : Nat := (n * 5 + 2) / 3

/-- The octets of a 5-octet wake frame with its preamble, SFD, PHR and FCS (R248). -/
def wakeUnits (c : RadioConf) : Nat := 21 * 8 * bitUnits c.rate

/-- When the lines change for a transmission of `us` µs (R227): TR and PA_EN lead its first preamble bit by PA_LEAD_US and
follow its last FCS bit by 2 µs; LNA_EN is low from 2 µs before TR to 2 µs after it. FLAGS of RF_BANDS names PA_EN and LNA_EN.
[DEDUCED, log 158; unsafe] -/
def RadioConf.lines (c : RadioConf) (us : Nat) : RadioLines :=
  let lead : Int := c.paLeadUs
  let tr : Int × Int := (-lead, us + 2)
  ⟨tr, if c.flags.getLsbD 0 then some tr else none, if c.flags.getLsbD 1 then some (-lead - 2, us + 4) else none⟩

/-- The preamble of a frame that must wake sleepy nodes, where one of at most 1,000 octets lasts CI_MAX +
1.5 ms; otherwise the wake frames of a train that lasts CI_MAX and two periods (R247). -/
def wakePlan (c : RadioConf) (ciMax : Nat) : Nat × Nat :=
  let need := ciMax * 600 + 900
  let octet := 8 * bitUnits c.rate
  if need ≤ 1000 * octet then ((need + octet - 1) / octet, 0)
  else
    let period := wakeUnits c + 60
    (c.preambleOct, (ciMax * 600 + 2 * period + period - 1) / period)

/-- The second of the 1 s bucket in progress. -/
def State.second (s : State) : Nat := s.now / 1000

/-- Airtime of the channel of a radio over the last `n` buckets. -/
def State.channelAir (s : State) (x k n : Nat) : Nat :=
  sumNat (fun u => u.units) (s.rad.air.filter fun u => u.radio == x && u.channel == k && decide (s.second < u.second + n))

/-- Airtime of a sub-band over the last `n` buckets, of both radios. -/
def State.bandAir (s : State) (b n : Nat) : Nat :=
  sumNat (fun u => u.units) (s.rad.air.filter fun u => u.subBand == b && decide (s.second < u.second + n))

/-- Whether the dwell of a channel permits a transmission (R252). -/
def State.dwellOk (s : State) (x k units : Nat) : Bool :=
  match s.radio x with
  | none => false
  | some c => c.dwellMs == 0 ||
      (decide (units ≤ c.dwellMs * 600) && decide (s.channelAir x k c.dwellWinS + units ≤ c.dwellMs * 600))

/-- Whether the duty of a channel's sub-band permits a transmission (R252). -/
def State.dutyOk (s : State) (x k units : Nat) : Bool :=
  match s.radio x with
  | none => false
  | some c =>
    let b := s.subBandOf c k
    match s.subBands[b]? with
    | none => false
    | some e => decide (s.bandAir b e.windowS + units ≤ e.duty * e.windowS * 60)

/-- `RFM_DUTY_USED[b]`: airtime over the last WINDOW_S in 0.001 % of the window (R253). -/
def State.showDuty (s : State) : State :=
  (List.range s.subBands.length).foldl (fun t b =>
    match t.subBands[b]? with
    | none => t
    | some e => t.setF (F.RFM_DUTY_USED.SHARE b) (min 65535 (t.bandAir b e.windowS / (6 * e.windowS)))) s

/-- Transmits a MAC frame after its wake frames, and counts the airtime. [DEDUCED, log 102; unsafe] -/
def State.transmit (s : State) (x k units : Nat) (wakes : List (List Byte)) (preamble : Nat) (frame : List Byte) : State :=
  match s.radio x with
  | none => s
  | some c =>
    let use : AirUse := ⟨x, k, s.subBandOf c k, s.second, units⟩
    let kept := s.rad.air.filter fun u => decide (s.second < u.second + 3600)
    ({ s with rad := { s.rad with air := kept ++ [use] } } : State).showDuty.send
      (.mesh x k ⟨c.txDbm, c.lines (unitsUs units), wakes, preamble, frame⟩)

/-- A transmission is held back: it is counted, and the first hold on its sub-band in 3,600 s is recorded
(R253). -/
def State.holdBack (s : State) (x k units : Nat) : State :=
  let b := match s.radio x with | some c => s.subBandOf c k | none => 0
  let s1 := if s.dwellOk x k units then s.bump F.RFM_DUTY_DEFER_CNT.COUNT else s.bump F.RFM_DWELL_DEFER_CNT.COUNT
  let sec := s.evt.opSeconds.toNat
  let recent := match Map.find s.rad.holdSeen b with | some t => decide (sec < t + 3600) | none => false
  if recent then s1
  else ({ s1 with rad := { s1.rad with holdSeen := Map.set s1.rad.holdSeen b sec } } : State).post Ev.RF_DUTY []

/-! ### The joined table (R236) -/

/-- Shows the joined table in its registers. -/
def State.showJoined (s : State) : State :=
  let n := (s.rad.joined.filter fun e => e.2.conn.isSome).length
  let v := (s.rad.joined.filter fun e => match e.2.plc with | some p => p.valid | none => false).length
  { s with regs := ((s.regs.setF F.RFM_JOINED.TOTAL s.rad.joined.length).setF F.RFM_JOINED.RADIO n).setF F.PLC_ROUTES.COUNT v }

/-- A change of the table has to be written within 300 s (R246). -/
def State.touchJoined (s : State) : State :=
  ({ s with rad := { s.rad with dirty := match s.rad.dirty with | some t => some t | none => some s.now } } : State).showJoined

/-- Writes an entry. -/
def State.setJoined (s : State) (a : Nat) (e : JoinedEntry) : State :=
  ({ s with rad := { s.rad with joined := Map.set s.rad.joined a e } } : State).touchJoined

/-- The short address of a meter's entry. -/
def State.joinedOf (s : State) (i : Nat) : Option Nat :=
  (s.rad.joined.find? fun e => e.2.meter == i).map fun e => e.1

/-- Frees an entry whose record became FREE or changed its PROTOCOL (R236). -/
def State.freeJoined (s : State) (i : Nat) : State :=
  match s.joinedOf i with
  | none => s
  | some a => ({ s with rad := { s.rad with joined := Map.erase s.rad.joined a } } : State).touchJoined

/-- The lowest address from `a` on, of `n`, that is neither in use nor provisioned. -/
def lowestFree (used : Nat → Bool) : Nat → Nat → Option Nat
  | 0, _ => none
  | n + 1, a => if used a then lowestFree used n (a + 1) else some a

/-- The address for a meter without an entry; none where none is free (R236). -/
def State.newAddress (s : State) (i : Nat) : Option Nat :=
  let inUse (a : Nat) : Bool := (Map.find s.rad.joined a).isSome
  let own := (s.meter i).conf.shortAddr
  if 32768 ≤ s.rad.joined.length then none
  else if own ≠ 0xFFFF then (if inUse own then none else some own)
  else lowestFree (fun a => inUse a || s.ing.meters.any fun e => decide (e.2.state ≠ .free) && e.2.conf.shortAddr == a) 32768 0

/-! ### Counters and envelopes (R232 to R234) -/

/-- The device counter epoch E. -/
def State.epoch (s : State) : Nat := s.fld F.RFM_DEV_EPOCH.EPOCH

/-- The item DCOUNTER of R435. -/
def State.dcounterItem (s : State) (severity : Nat) : State :=
  s.raiseItem ⟨10, severity, s.epoch, s.fld F.RFM_DEV_CTR.DCOUNTER, 0xF0000000⟩

/-- Targets of running campaigns that are not complete get a new offer under a new K_C (R234). The offer
bodies are formed by `offer`. -/
def State.reofferAll (s : State) (offer : Campaign → List Byte) : State :=
  s.fwu.camps.foldl (fun (t : State) c =>
    if c.2.state ≠ 2 then t
    else
      let n := { c.2 with key := t.free % 2 ^ 128 }
      let t1 := { t.draw with fwu := { t.fwu with camps := Map.set t.fwu.camps c.1 n } }
      n.targets.foldl (fun (u : State) e =>
        if e.2.state < 3 ∧ (u.meter e.1).keyEpoch = u.epoch then u.tellMeter e.1 (offer n) else u) t1) s

/-- The manifest fields of an image that FW_OFFER names: VERSION, BLOCKS, PAYLOAD_LEN, IMAGE_DIGEST. -/
def FwTransfer.offerFields (f : FwTransfer) : List Byte × List Byte × List Byte × List Byte :=
  let b := Map.findD f.blocks 0 []
  ((b.drop 12).take 4, (b.drop 26).take 2, (b.drop 28).take 4, (b.drop 72).take 32)

/-- FW_OFFER (R379). -/
def State.offerBody (s : State) (c : Campaign) : List Byte :=
  let (v, n, len, dig) := match Map.find s.fwu.images c.image with
    | some f => f.offerFields
    | none => (beBytes 4 0, beBytes 2 0, beBytes 4 0, beBytes 32 0)
  packBytes [(1, 0x40), (3, 0), (4, c.id), (16, c.key)] ++ v ++ n ++ beBytes 2 0 ++ len ++ beBytes 4 0 ++
    beBytes 8 c.activate ++ dig

/-- DCOUNTER passes its maximum: E rises, DCOUNTER restarts, and running campaigns draw a new key (R234). -/
def State.nextEpoch (s : State) : State :=
  let e := (s.epoch + 1) % 65536
  let s1 := { s with
    regs := (s.regs.setF F.RFM_DEV_EPOCH.EPOCH e).setF F.RFM_DEV_CTR.DCOUNTER 0
    rad := { s.rad with reserved := 0 } }
  let s2 := (s1.post Ev.RF_DCTR_EPOCH [b8 (e : Nat)]).dcounterItem 2
  s2.reofferAll fun c => s2.offerBody c

/-- Takes the next DCOUNTER, with its block reserved in JOURNAL first (R233). The epoch has not changed. -/
def State.takeCounter (s : State) : State × Nat :=
  let n := s.fld F.RFM_DEV_CTR.DCOUNTER + 1
  let r := if s.rad.reserved < n then min 0xFFFFFFFF (s.rad.reserved + 65536) else s.rad.reserved
  let s1 := { s with regs := s.regs.setF F.RFM_DEV_CTR.DCOUNTER n, rad := { s.rad with reserved := r } }
  (if 0xF0000000 < n then s1.dcounterItem 1 else s1, n)

/-- The epoch changes first where DCOUNTER would pass its maximum. -/
def State.epochDue (s : State) : State :=
  if s.fld F.RFM_DEV_CTR.DCOUNTER = 0xFFFFFFFF then s.nextEpoch else s

/-- Queues a payload for a joined node. A payload for a lost connection, or for a node without a valid
route, waits from now on (R253, R275). -/
def State.queueDown (s : State) (a : Nat) (b : DownBody) : State :=
  match Map.find s.rad.joined a with
  | none => s
  | some e =>
    let reach := match e.plc with | some p => p.valid | none => e.conn.isSome
    let p : DownPayload := { body := b, held := if reach then none else some s.now }
    { s with rad := { s.rad with joined := Map.set s.rad.joined a { e with queue := e.queue ++ [p] } } }

/-- What a failed envelope means to its owner: an FW_OFFER that finds the counter spent fails its
target (R234). -/
def State.envelopeFailed (s : State) (i : Nat) (body : List Byte) (cause : Nat) : State :=
  if cause = Cause.DCOUNTER_SPENT ∧ fieldAt body 0 1 = 0x40 then
    let id := fieldAt body 4 4
    let fail (t : CampTarget) : CampTarget := if t.state < 4 then { t with state := 5, cause := cause } else t
    let camps := Map.mapVals (fun _ (c : Campaign) =>
      if c.id = id then { c with targets := Map.adjust c.targets i fail } else c) s.fwu.camps
    { s with fwu := { s.fwu with camps := camps } }
  else s

/-- The reading key of a meter, where it is held and unwraps. -/
def State.readingKey (s : State) (r : MeterRec) : Option (List Byte) :=
  if r.keyAlg = 0 then none else r.keyWrap.bind s.unwrap

/-- ENVELOPE_SEND: the oldest device-to-meter body takes the next DCOUNTER, is sealed and queued for its node, or
fails (R232 to R234). -/
def State.sealEnvelope (s : State) (i : Nat) (body : List Byte) : State :=
  let r := s.meter i
  match s.readingKey r with
  | none => s.envelopeFailed i body Cause.KEY_MISSING
  | some key => match s.joinedOf i with
  | none => s.envelopeFailed i body Cause.NODE_NOT_JOINED
  | some a =>
    let s1 := s.epochDue
    if r.keyEpoch < s1.epoch then s1.envelopeFailed i body Cause.DCOUNTER_SPENT
    else
      let (s2, n) := s1.takeCounter
      s2.queueDown a (.message (sealBody key (extHead r.conf.extId) n body))

/-! ### Messages from nodes (R230 to R232) -/

/-- LK and the EUI-64 of a meter's node (R230). -/
def State.linkKey (s : State) (r : MeterRec) : Option (List Byte × List Byte) :=
  (s.readingKey r).map fun k => (meshKey k (beBytes 16 r.conf.extId.toNat), extHead r.conf.extId)

/-- Closes a frame to a node with its MIC (R230); a node whose key does not unwrap is sent nothing. -/
def State.macTo (s : State) (meter dir : Nat) (l : List Byte) : Option (List Byte) :=
  (s.linkKey (s.meter meter)).map fun k => macSealed k.1 k.2 dir l

/-- A payload by its message type (R232): application messages are handed in; of the link control messages of a DATA frame,
SLOT_REQ and BEACON_LOSS wait for their own commands; a type that R232 does not name for a node is dropped and counted. -/
def State.passUp (s : State) (a : Nat) (chan : Option Nat) (link : Bool) (f : IngestFrame) : State :=
  let t := f.type
  if 0x20 ≤ t ∧ t ≤ 0x2F then s.handIn f
  else if link ∧ 1 ≤ t ∧ t ≤ 0x0F then
    (if t = 3 ∨ t = 4 then { s with rad := { s.rad with inbox := s.rad.inbox ++ [⟨a, chan, f⟩] } } else s)
  else s.bump F.RFM_MIC_FAIL_CNT.COUNT

/-- A payload of a joined node, with its route code and t_rx. -/
def State.payloadOf (s : State) (a : Nat) (e : JoinedEntry) (route : Nat) (l : List Byte) : IngestFrame :=
  ⟨route, some (s.meter e.meter).conf.extId, a, .tylian l, s.timeMs⟩

/-- An accepted DATA frame takes its LCTR and RSSI, its ALSN acknowledges, and its payload is passed up once
(R231, R254). -/
def State.takeData (s : State) (a route : Nat) (chan : Option Nat) (f : NodeFrame) : State :=
  match Map.find s.rad.joined a with
  | none => s
  | some e =>
    let lsn := macLsn f.bytes
    let queue := match e.queue with
      | p :: rest => if p.lsn ≠ 0 ∧ p.lsn = macAlsn f.bytes then rest else p :: rest
      | [] => []
    let e1 := { e with rxCtr := macLctr f.bytes, queue := queue, rssi := (f.rssi :: e.rssi).take 64 }
    let s1 := if queue.length < e.queue.length then s.reportTx (.acked a) else s
    if lsn = 0 then s1.setJoined a e1
    else if lsn = e.alsn then (s1.setJoined a e1).bump F.RFM_DUP_LSN_CNT.COUNT
    else (s1.setJoined a { e1 with alsn := lsn }).passUp a chan true (s.payloadOf a e route (macPayload f.bytes))

/-- Whether the MIC of a DATA frame from a node verifies (R230). -/
def State.micOk (s : State) (e : JoinedEntry) (f : NodeFrame) : Bool :=
  match s.linkKey (s.meter e.meter) with
  | none => false
  | some (lk, eui) => macKind f.bytes == 0 && macOk lk eui 0 f.bytes

/-- Whether a DATA frame is accepted (R231). -/
def State.dataOk (s : State) (e : JoinedEntry) (f : NodeFrame) : Bool :=
  s.micOk e f && decide (e.rxCtr < macLctr f.bytes)

/-- Takes the oldest waiting message of a type. -/
def takeInbox (type : Nat) : List NodeMsg → Option (NodeMsg × List NodeMsg)
  | [] => none
  | m :: l =>
    if m.frame.type = type then some (m, l)
    else match takeInbox type l with
      | none => none
      | some (x, r) => some (x, m :: r)

end Sys2Proof.Machine
end

