-- ==== Sys2Proof/Machine/Mesh.lean ====
section
/-! DEFINITION. The Tylian mesh: connections, joining, floods, waiting transmissions, and wireless M-Bus
(R226, R236 to R255). -/

namespace Sys2Proof.Machine

/-! ### Events of a connection (R239 to R244) -/

/-- I in µs. -/
def RadioConn.us (c : RadioConn) : Nat := c.interval * 10000

/-- The map that governs event n (R243). -/
def RadioConn.mapAt (c : RadioConn) (n : Nat) : BitVec 64 :=
  match c.next with
  | some (inst, m) => if inst ≤ n then m else c.chMap
  | none => c.chMap

/-- The channel of event n (R239). -/
def RadioConn.channel (c : RadioConn) (n : Nat) : Nat :=
  let m := c.mapAt n
  let u := (c.base + n * c.hop) % 64
  let l := setChannels m
  if m.getLsbD u then u else l.getD (u % l.length) 0

/-- P_n in µs (R244). -/
def RadioConn.predict (c : RadioConn) (sleepy : Bool) (n : Nat) : Int :=
  let t : Int := ((n - c.k) * c.us : Nat)
  if sleepy || c.resumed then c.anchor + t
  else c.anchor + ((F64.ofInt t).mul ((F64.ofInt 1).add (c.drift.mul (F64.ofRat 1 1000000)))).round

/-- G of event n in µs (R244). -/
def State.guard (s : State) (c : RadioConn) (sleepy : Bool) (n : Nat) : Nat :=
  let ppm := if sleepy || c.resumed || decide (c.contacts < s.fld F.RFM_LEARN.MIN_CONTACTS)
    then s.fld F.RFM_GUARD.SLEEPY_PPM else s.fld F.RFM_GUARD.RELAY_PPM
  min (s.fld F.RFM_GUARD.G0_US + ppm * ((n - c.k) * c.us) / 1000000) (c.us / 2 - 2000)

/-- The start of the pace in progress, in µs. -/
def State.nowUs (s : State) : Int := ((s.now * 1000 : Nat) : Int)

/-- The event of a connection nearest to a time, not before the first one not yet run. -/
def RadioConn.nearest (c : RadioConn) (t : Int) : Nat :=
  max c.upcoming (c.k + (roundDiv (t - c.anchor) c.us).toNat)

/-- Guard windows of a radio's connections near a time, with each supervision deadline and address. -/
def State.windows (s : State) (x : Nat) (t : Int) : List (Int × Int × Int × Nat) :=
  s.rad.joined.filterMap fun e => match e.2.conn with
    | none => none
    | some c =>
      if c.radio ≠ x then none
      else
        let n := c.nearest t
        let g : Int := s.guard c e.2.sleepy n
        let p := c.predict e.2.sleepy n
        some (p - g, p + g, c.anchor + c.sup * 100000, e.1)

/-- Whether another connection's event is served in place of this one's (R241). -/
def State.contended (s : State) (a : Nat) (c : RadioConn) (lo hi : Int) : Bool :=
  let own := c.anchor + c.sup * 100000
  (s.windows c.radio lo).any fun w =>
    w.2.2.2 != a && decide (w.1 ≤ hi) && decide (lo ≤ w.2.1) &&
      (decide (w.2.2.1 < own) || (w.2.2.1 == own && decide (w.2.2.2 < a)))

/-! ### Payloads to a node (R240, R254) -/

/-- The bytes of a payload; `instant` is that of a MAP_UPDATE (R243). -/
def DownBody.bytes (instant : Nat) : DownBody → List Byte
  | .message l => l
  | .mapUpdate m => packBytes [(1, 1), (3, 0), (4, instant), (8, m.toNat)]

/-- A payload whose event number is up fails with LINK_NONE: PAYLOAD_RETRY_EXHAUSTED (R254). -/
def State.retryExhausted (s : State) (a : Nat) : State :=
  match Map.find s.rad.joined a with
  | none => s
  | some e => match e.queue with
    | [] => s
    | p :: rest =>
      if p.lsn ≠ 0 ∧ s.fld F.RFM_RETRY.EVENTS ≤ p.sends then s.setJoined a { e with queue := rest } else s

/-- A payload that goes into a reply: it takes its LSN, and a MAP_UPDATE its INSTANT, at least 8 events
after any event in which it can be repeated. -/
def JoinedEntry.sendPayload (e : JoinedEntry) (c : RadioConn) (n events now : Nat) (p : DownPayload)
    (rest : List DownPayload) : JoinedEntry × List Byte × Nat :=
  let lsn := if p.lsn = 0 then e.lsn % 255 + 1 else p.lsn
  let inst := n + 8 + events
  let (body, c1) : DownBody × RadioConn := match p.body with
    | .mapUpdate m => (.message (p.body.bytes inst), { c with next := some (inst, m), chMap := c.mapAt n })
    | b => (b, c)
  let q : DownPayload := { p with body := body, lsn := lsn, sends := p.sends + 1, sentAt := now, held := none }
  ({ e with lsn := if p.lsn = 0 then lsn else e.lsn, queue := q :: rest, conn := some c1 }, body.bytes inst, lsn)

/-- The reply of the TY9600 in an event, its `no`-th from 1 (R240): a payload not yet sent, or a repeat in
the first frame, never in the fourth; the frame starts within the turnaround or not at all (R253). Returns
whether it was sent. -/
def State.reply (s : State) (a x ch n no : Nat) : State × Bool :=
  match Map.find s.rad.joined a, s.radio x with
  | some e, some rc => match e.conn with
    | none => (s, false)
    | some c =>
      let ready (p : DownPayload) : Bool := decide (no < 4) && (p.lsn == 0 || no == 1)
      let size := match e.queue with
        | p :: _ => if ready p then (p.body.bytes 0).length else 0
        | [] => 0
      let units := rc.frameUnits rc.preambleOct (20 + size)
      if s.dwellOk x ch units && s.dutyOk x ch units then
        let events := s.fld F.RFM_RETRY.EVENTS
        let (e1, bytes, lsn) : JoinedEntry × List Byte × Nat := match e.queue with
          | p :: rest => if ready p then e.sendPayload c n events s.now p rest else (e, [], 0)
          | [] => (e, [], 0)
        let more := decide (no < 3) && decide (lsn ≠ 0) && decide (1 < e.queue.length)
        let e2 := { e1 with txCtr := e1.txCtr + 1 }
        match s.macTo e.meter 1 (macHeader 0 more lsn e2.alsn a 0xFFFE e2.txCtr ++ bytes) with
        | some frame => (((s.setJoined a e2).reportTx (.sent a lsn)).transmit x ch units [] rc.preambleOct frame, true)
        | none => (s, false)
      else
        let hold (p : DownPayload) : DownPayload := { p with held := match p.held with | some t => some t | none => some s.now }
        let e1 := match e.queue with
          | p :: rest => { e with queue := (if ready p then hold p else p) :: rest }
          | [] => e
        ((s.setJoined a e1).holdBack x ch units, false)
  | _, _ => (s, false)

/-! ### Marks (R251) -/

/-- PARAM_UPDATE (R251). -/
def State.paramUpdate (s : State) (relay : Bool) : List Byte :=
  packBytes [(1, 2), (1, if relay then 1 else 0), (1, s.fld F.RFM_FLOOD.TTL), (1, s.fld F.RFM_FLOOD.K),
    (2, s.fld F.RFM_FLOOD.DELAY_MS), (2, s.fld F.RFM_LPL.CI_MAX_MS)]

/-- Whether a node carries the RELAY mark (R251). -/
def State.relayMark (s : State) (e : JoinedEntry) : Bool :=
  let lim := s.regs.fldInt F.RFM_FLOOD.RELAY_RSSI
  !e.sleepy && (lim == 0 || (!e.rssi.isEmpty && decide (e.rssi.foldl (· + ·) 0 ≤ lim * e.rssi.length)))

/-- Gives or takes the mark of a radio node; a change is sent to it. -/
def State.judgeMark (s : State) (a : Nat) : State :=
  match Map.find s.rad.joined a with
  | none => s
  | some e =>
    let m := s.relayMark e
    if e.conn.isNone ∨ m = e.relay then s
    else (s.setJoined a { e with relay := m }).queueDown a (.message (s.paramUpdate m))

/-- A change of K, DELAY_MS, TTL, RELAY_RSSI or CI_MAX goes to every connection (R251). -/
def State.paramsChanged (s : State) : State :=
  s.rad.joined.foldl (fun (t : State) e =>
    if e.2.conn.isNone then t
    else
      let m := t.relayMark e.2
      (t.setJoined e.1 { e.2 with relay := m }).queueDown e.1 (.message (t.paramUpdate m))) s

/-! ### Channels (R243) -/

/-- The usable channels of a radio: CH_MAP without those excluded. [DEDUCED, log 105; unsafe] -/
def State.usable (s : State) (x : Nat) : BitVec 64 :=
  match s.radio x with
  | none => 0
  | some c => s.rad.excluded.foldl (fun (m : BitVec 64) e =>
      if e.1 / 64 = x then m &&& ~~~ BitVec.ofNat 64 (2 ^ (e.1 % 64)) else m) c.chMap

/-- MAP_UPDATE to each connection on a radio. -/
def State.sendMaps (s : State) (x : Nat) : State :=
  s.rad.joined.foldl (fun (t : State) e => match e.2.conn with
    | some c => if c.radio = x then t.queueDown e.1 (.mapUpdate (s.usable x)) else t
    | none => t) s

/-- An expected event on a channel: its outcome is kept, and the channel excluded where more than PCT of the
last 1,024 are missing and MIN_CH channels remain. -/
def State.expectEvent (s : State) (x ch : Nat) (missing : Bool) : State :=
  let key := 64 * x + ch
  let l := (missing :: Map.findD s.rad.expected key []).take 1024
  let s1 := { s with rad := { s.rad with expected := Map.set s.rad.expected key l } }
  let bad := (l.filter id).length
  let left := (setChannels (s.usable x)).length
  if l.length = 1024 ∧ s.fld F.RFM_ADAPT.PCT * 1024 < bad * 100 ∧ s.fld F.RFM_ADAPT.MIN_CH + 1 ≤ left ∧
      (s.usable x).getLsbD ch then
    let rad := { s1.rad with
      excluded := Map.set s1.rad.excluded key s.evt.opSeconds.toNat, expected := Map.erase s1.rad.expected key }
    (({ s1 with rad := rad } : State).sendMaps x).post Ev.RF_CHANNEL []
  else s1

/-- CHANNEL_RETURN: a channel excluded 86,400 s ago returns to the maps (R243). -/
def execChannelReturn (radio channel : Nat) (s : State) : Host.Outcome State Fault Refusal :=
  match Map.find s.rad.excluded (64 * radio + channel) with
  | none => .next s
  | some t =>
    .next (if channel < 64 ∧ t + 86400 ≤ s.evt.opSeconds.toNat then
      let s1 := { s with rad := { s.rad with excluded := Map.erase s.rad.excluded (64 * radio + channel) } }
      (s1.sendMaps radio).post Ev.RF_CHANNEL []
    else s)

/-! ### CONNECTION_EVENT -/

/-- The first accepted frame of event n sets k, Â_k and d (R244, R245). -/
def RadioConn.accept (c : RadioConn) (sleepy : Bool) (shift n : Nat) (pre : Int) : RadioConn :=
  let o := pre - c.predict sleepy n
  let span : Int := ((n - c.k) * c.us : Nat)
  let step := ((F64.ofRat 1 (2 ^ shift)).mul ((F64.ofInt o).div (F64.ofInt span))).mul (F64.ofInt 1000000)
  { c with
    k := n, anchor := pre, contacts := c.contacts + 1, resumed := false
    drift := if sleepy || span == 0 then c.drift else c.drift.add step }

/-- The frames of an event in order: each accepted frame is answered, and the event ends with a frame not
answered or the fourth reply (R231, R240). -/
def State.runEvent (s : State) (a x ch n : Nat) (pre : Int) : Nat → List NodeFrame → State
  | _, [] => s
  | no, f :: rest =>
    if !f.fcsOk then s.bump (F.RFM_CRC_ERR_CNT.COUNT x)
    else
      let s1 := s.bump (F.RFM_RX_CNT.COUNT x)
      match Map.find s1.rad.joined a with
      | none => s1
      | some e =>
        if !s1.dataOk e f then s1.bump F.RFM_MIC_FAIL_CNT.COUNT
        else
          let conn := match e.conn with
            | some c => some (if no = 1 then c.accept e.sleepy (s1.fld F.RFM_LEARN.SHIFT) n pre else c)
            | none => none
          let s2 := (s1.setJoined a { e with conn := conn }).takeData a (1 + x) none f
          let s3 := (if no = 1 then s2.retryExhausted a else s2).judgeMark a
          match s3.reply a x ch n no with
          | (s4, true) => if no = 4 then s4 else s4.runEvent a x ch n pre (no + 1) rest
          | (s4, false) => s4

/-- Events up to n are past; a map whose INSTANT has come replaces the old one. -/
def State.passEvent (s : State) (a n : Nat) : State :=
  match Map.find s.rad.joined a with
  | none => s
  | some e => match e.conn with
    | none => s
    | some c =>
      let due := match c.next with | some (i, _) => decide (i ≤ n + 1) | none => false
      let c1 := { c with upcoming := n + 1, chMap := c.mapAt (n + 1), next := if due then none else c.next }
      { s with rad := { s.rad with joined := Map.set s.rad.joined a { e with conn := some c1 } } }

/-- CONNECTION_EVENT: event n of the connection of a node. `busy`: a wireless M-Bus frame is in progress on
the radio (R226). `pre` is the µs at which the preamble of the node's first frame begins (R240 to R244).
[DEDUCED, log 106; unsafe] -/
def execConnectionEvent (short n : Nat) (busy : Bool) (pre : Int) (frames : List NodeFrame) (s : State) :
    Host.Outcome State Fault Refusal :=
  match Map.find s.rad.joined short with
  | none => .next s
  | some e => match e.conn with
    | none => .next s
    | some c =>
      let g : Int := s.guard c e.sleepy n
      let p := c.predict e.sleepy n
      .next (if !s.receives ∨ n < c.upcoming ∨ s.nowUs + 1000 ≤ p - g then s
      else if busy || s.contended short c (p - g) (p + g) then
        ((s.passEvent short n).reportTx (.skipped short n)).bump (F.RFM_EVT_SKIP_CNT.COUNT c.radio)
      else
        let ch := c.channel n
        let heard := if p - g ≤ pre ∧ pre ≤ p + g then frames else []
        let missing := match heard with | f :: _ => !f.fcsOk | [] => true
        let lna := match s.radio c.radio with | some rc => rc.flags.getLsbD 1 | none => false
        let s1 := (s.send (.receiver c.radio (p - g) lna)).runEvent short c.radio ch n pre 1 heard
        ((s1.passEvent short n).reportTx (.served short n)).expectEvent c.radio ch missing)

/-- CONNECTION_LOST: device time has reached A_k + SUP (R242). Payloads then wait for the lost
connection. -/
def execConnectionLost (short : Nat) (s : State) : Host.Outcome State Fault Refusal :=
  match Map.find s.rad.joined short with
  | none => .next s
  | some e => match e.conn with
    | none => .next s
    | some c =>
      .next (if c.anchor + c.sup * 100000 ≤ s.nowUs then
        let wait (p : DownPayload) : DownPayload := { p with held := match p.held with | some t => some t | none => some s.now }
        let s1 := s.setJoined short { e with conn := none, queue := e.queue.map wait }
        (s1.bump F.RFM_CONN_LOST_CNT.COUNT).post Ev.RF_CONN_LOST [b2 short]
      else s)

/-! ### Joining (R236 to R238) -/

/-- The earliest instant from `t` on whose guard window overlaps none of the windows. -/
def earliest (g : Int) (ws : List (Int × Int)) : Nat → Int → Int
  | 0, t => t
  | k + 1, t => match ws.find? fun w => decide (w.1 ≤ t + g) && decide (t - g ≤ w.2) with
    | some w => earliest g ws k (w.2 + g + 1)
    | none => t

/-- SUP in 100 ms, at most 65,535 (RFM_SUP). -/
def State.supOf (s : State) (interval : Nat) : Nat := min 65535 (s.fld F.RFM_SUP.FACTOR * interval / 10)

/-- The JOIN_RSP that joins a node, sent 1,000 µs after `fin`: its connection begins (R238). -/
def State.startConn (s : State) (a x : Nat) (eui joinCtr : Nat) (fin : Int) : State × JoinRsp :=
  match Map.find s.rad.joined a, s.radio x with
  | some e, some rc =>
    let interval := if e.sleepy then s.fld F.RFM_CONN.SLEEPY_S * 100 else s.fld F.RFM_CONN.RELAY_MS / 10
    let air := unitsUs (rc.frameUnits rc.preambleOct 60)
    let rspEnd := fin + 1000 + air
    let g : Int := s.fld F.RFM_GUARD.G0_US
    let ws := (s.windows x (rspEnd + 10000)).filter fun w => w.2.2.2 != a
    let a0 := earliest g (ws.map fun w => (w.1, w.2.1)) (ws.length + 1) (rspEnd + 10000)
    let base := s.free % 64
    let hop := 5 + 2 * (s.draw.free % 6)
    let s1 := s.draw.draw
    let sup := s.supOf interval
    let relay := s.relayMark { e with rssi := [] }
    let c : RadioConn := ⟨x, interval, sup, base, hop, s.usable x, none, 0, a0, ⟨0, 0⟩, 0, false, 0⟩
    let fresh (p : DownPayload) : DownPayload := { p with lsn := 0, sends := 0, held := none }
    let e1 := { e with
      conn := some c, plc := none, rxCtr := 0, txCtr := 0, alsn := 0, lsn := 0, rssi := [], relay := relay
      joinCtr := joinCtr, queue := e.queue.map fresh }
    (s1.setJoined a e1, ⟨eui, joinCtr, 0, relay, a, interval, sup, base, hop, s.usable x, (a0 - rspEnd).toNat,
      s.fld F.RFM_FLOOD.TTL, s.fld F.RFM_FLOOD.K, s.fld F.RFM_FLOOD.DELAY_MS, s.fld F.RFM_LPL.CI_MAX_MS⟩)
  | _, _ => (s, ⟨eui, joinCtr, 1, false, 0, 0, 0, 0, 0, 0, 0, 0, 0, 0, 0⟩)

/-- A JOIN_RSP that refuses. -/
def refuseJoin (eui joinCtr status : Nat) : JoinRsp := ⟨eui, joinCtr, status, false, 0, 0, 0, 0, 0, 0, 0, 0, 0, 0, 0⟩

/-- How R237 judges a JOIN_REQ: refused without an answer, refused with a STATUS for a meter, or accepted for a meter at
an address. -/
inductive JoinVerdict where
  | silent (cause : Nat)
  | refused (meter status : Nat)
  | accepted (meter short : Nat)
  deriving DecidableEq, Repr

/-- JOIN_REQ in a MAC frame (R229, R236); none for any other frame. -/
def joinReqOf (l : List Byte) : Option JoinReq :=
  let p := macPayload l
  let cls := fieldAt p 8 1
  if macKind l = 1 ∧ l.length = 32 ∧ macDst l = 0xFFFE ∧ macSrc l = 0xFFFF ∧ macLctr l = fieldAt p 12 4 ∧ cls ≤ 1 then
    some ⟨fieldAt p 0 8, cls == 1, fieldAt p 9 2, BitVec.ofNat 8 (fieldAt p 11 1), fieldAt p 12 4, l⟩
  else none

/-- The payload of JOIN_RSP on radio (R238). -/
def JoinRsp.bytes (r : JoinRsp) : List Byte :=
  packBytes [(8, r.eui), (1, r.status), (1, if r.relay then 1 else 0), (2, r.short), (2, r.interval), (2, r.sup), (1, r.base),
    (1, r.hop), (2, 0), (8, r.chMap.toNat), (4, r.firstUs), (1, r.ttl), (1, r.k), (2, r.delayMs), (2, r.ciMaxMs), (2, 0)]

/-- The MAC frame of a JOIN_RSP with a payload, for the node of a meter (R230, R238). Its LSN is 0.
[DESIGN CHOICE, log 159; unsafe] -/
def State.joinFrame (s : State) (meter joinCtr : Nat) (payload : List Byte) : Option (List Byte) :=
  s.macTo meter 3 (macHeader 2 false 0 0 0xFFFF 0xFFFE joinCtr ++ payload)

/-- Steps 1 to 3 of R237: the meter, or the cause. -/
def State.joinMeter (s : State) (q : JoinReq) : Except Nat Nat :=
  match s.ing.meters.find? fun e => decide (e.2.state = .active) && e.2.conf.protocol == 1 &&
      decide (e.2.conf.extId.toNat / 2 ^ 64 = q.eui) with
  | none => .error Cause.METER_UNKNOWN
  | some (i, r) =>
    if r.keyAlg = 0 then .error Cause.KEY_MISSING
    else match s.linkKey r with
    | none => .error Cause.AUTH_FAIL
    | some (lk, eui) =>
      let old := match s.joinedOf i with
        | some a => (match Map.find s.rad.joined a with | some e => e.joinCtr | none => 0)
        | none => 0
      let first := (s.joinedOf i).isNone
      if macOk lk eui 2 q.frame && (first || decide (old < q.joinCtr)) then .ok i
      else .error Cause.AUTH_FAIL

/-- Step 5 of R237: the entry's address, or a free one. -/
def State.joinAddress (s : State) (i : Nat) : Option Nat :=
  match s.joinedOf i with | some a => some a | none => s.newAddress i

/-- R237 on radio x. -/
def State.judgeJoin (s : State) (x : Nat) (q : JoinReq) : JoinVerdict :=
  match s.joinMeter q with
  | .error c => .silent c
  | .ok i =>
    let rate := match s.radio x with | some c => c.rate | none => 0
    if !q.rates.getLsbD rate then .refused i 2
    else match s.joinAddress i with
      | none => .refused i 1
      | some a => .accepted i a

/-- A fresh or kept entry of a meter that joins. -/
def State.enter (s : State) (i a : Nat) (q : JoinReq) : State :=
  let old := Map.findD s.rad.joined a ⟨i, q.sleepy, q.ciMs, 0, 0, 0, 0, 0, [], [], false, none, none⟩
  s.setJoined a { old with meter := i, sleepy := q.sleepy, ciMs := q.ciMs, joinCtr := q.joinCtr, conn := none }

/-- The JOIN_RSP of a verdict: the connection of an accepted node begins with it (R238). -/
def State.joinAnswer (s : State) (x : Nat) (eui joinCtr status : Nat) (short : Option Nat) (fin : Int) : State × JoinRsp :=
  match short with
  | none => (s, refuseJoin eui joinCtr status)
  | some a => s.startConn a x eui joinCtr fin

/-- Sends a JOIN_RSP on a channel, or lets it wait (R238, R253). `fin`: the µs at which the JOIN_REQ ended. -/
def State.sendJoinRsp (s : State) (x ch : Nat) (meter eui joinCtr status : Nat) (short : Option Nat) (fin : Int) :
    State × Bool :=
  match s.radio x with
  | none => (s, true)
  | some rc =>
    let units := rc.frameUnits rc.preambleOct 60
    if s.dwellOk x ch units && s.dutyOk x ch units then
      let (s1, r) := s.joinAnswer x eui joinCtr status short fin
      match s1.joinFrame meter joinCtr r.bytes with
      | some frame => (s1.transmit x ch units [] rc.preambleOct frame, true)
      | none => (s1, true)
    else (s.holdBack x ch units, false)

/-- Queues a flood for FLOOD_SEND. -/
def State.queueFlood (s : State) (f : DownFlood) : State := { s with rad := { s.rad with floods := s.rad.floods ++ [f] } }

/-- Answers a JOIN_REQ: at once on the channel it came on, or by a flood to the EUI-64 where it was relayed
(R238, R250). -/
def State.answerJoin (s : State) (x ch : Nat) (relayed : Bool) (meter : Nat) (q : JoinReq) (status : Nat)
    (short : Option Nat) (fin : Int) : State :=
  if relayed then
    let (s1, r) := s.joinAnswer x q.eui q.joinCtr status short fin
    match s1.joinFrame meter q.joinCtr r.bytes with
    | some frame => s1.queueFlood ⟨.long q.eui, q.sleepy, frame⟩
    | none => s1
  else
    let same (w : TxWait) : Bool := match w.body with
      | .joinRsp _ e _ _ _ => e == q.eui
      | .flood _ _ => false
    let s0 := { s with rad := { s.rad with waiting := s.rad.waiting.filter fun w => !same w } }
    match s0.sendJoinRsp x ch meter q.eui q.joinCtr status short fin with
    | (s1, true) => s1
    | (s1, false) => { s1 with rad := { s1.rad with
        waiting := s1.rad.waiting ++ [⟨x, ch, s.now, .joinRsp meter q.eui q.joinCtr status short⟩] } }

/-- A JOIN_REQ through the steps of R237. The table names no cause for steps 4 and 5: the event then carries a
free one of R73. [DESIGN CHOICE, log 104; unsafe] -/
def State.joinRequest (s : State) (x ch : Nat) (relayed : Bool) (q : JoinReq) (fin : Int) : State :=
  let reject (c : Nat) : State := (s.bump F.RFM_JOIN_REJ_CNT.COUNT).post Ev.RF_JOIN_REJECT [b8 (q.eui : Nat), b2 c]
  match s.judgeJoin x q with
  | .silent c => reject c
  | .refused i st => (reject (Cause.pick s.free)).draw.answerJoin x ch relayed i q st none fin
  | .accepted i a =>
    let s1 := (s.enter i a q).answerJoin x ch relayed i q 0 (some a) fin
    (s1.bump F.RFM_JOIN_CNT.COUNT).post Ev.RF_JOIN [b4 i, b2 a, b2 x]

/-- JOIN_REQ heard on FLOOD_CH[0] of a MESH or DUAL radio; `bytes` is its MAC frame, and `fin` the µs at which it ended
(R236, R237). [DESIGN CHOICE, log 107; unsafe] -/
def execJoinReq (radio : Nat) (fcsOk : Bool) (bytes : List Byte) (fin : Int) (s : State) : Host.Outcome State Fault Refusal :=
  match s.radio radio with
  | none => .next s
  | some c =>
    .next (if !c.mesh ∨ !s.receives then s
      else if !fcsOk then s.bump (F.RFM_CRC_ERR_CNT.COUNT radio)
      else
        let s1 := s.bump (F.RFM_RX_CNT.COUNT radio)
        match joinReqOf bytes with
        | some q => s1.joinRequest radio (c.floodCh.getD 0 0) false q fin
        | none => s1)

/-! ### Floods (R249, R250) -/

/-- The seen cache takes a key; the oldest of 8,192 is evicted (R250). -/
def State.see (s : State) (o : FloodAddr) (fseq : Nat) : State :=
  let live := s.rad.seen.filter fun e => decide (s.now < e.2.2 + 60000)
  let s1 := if 8192 ≤ live.length then s.bump F.RFM_SEEN_EVICT_CNT.COUNT else s
  let kept := if 8192 ≤ live.length then live.drop 1 else live
  { s1 with rad := { s1.rad with seen := kept ++ [(o, fseq, s.now)] } }

/-- A short address, or an EUI-64, and the octets after it (R249). -/
def floodAddr (long : Bool) (l : List Byte) : FloodAddr × List Byte :=
  if long then (.long (fieldAt l 0 8), l.drop 8) else (.short (fieldAt l 0 2), l.drop 2)

/-- A flood as received: UP, origin, FSEQ and payload (R249); none for another frame. -/
def floodOf (l : List Byte) : Option (Bool × FloodAddr × Nat × List Byte) :=
  let f := BitVec.ofNat 8 (fieldAt l 1 1)
  let (origin, r) := floodAddr (f.getLsbD 4) (l.drop 4)
  let head := 4 + (if f.getLsbD 4 then 8 else 2) + (if f.getLsbD 5 then 8 else 2)
  if macKind l = 3 ∧ head ≤ l.length then some (f.getLsbD 7, origin, fieldAt l 2 2, (floodAddr (f.getLsbD 5) r).2) else none

/-- The application message of a flood with its sender: of a joined node, or by the short address or the EUI-64 it gives. -/
def State.floodFrame (s : State) (radio : Nat) (o : FloodAddr) (l : List Byte) : IngestFrame :=
  match o with
  | .long eui => ⟨1 + radio, some (BitVec.ofNat 128 (eui * 2 ^ 64)), 0xFFFF, .tylian l, s.timeMs⟩
  | .short a => match Map.find s.rad.joined a with
    | some e => s.payloadOf a e (1 + radio) l
    | none => ⟨1 + radio, none, a, .tylian l, s.timeMs⟩

/-- The payload of an UP flood: a JOIN_REQ relayed for a node goes through R237, any other message up (R250).
[DEDUCED, log 160; unsafe] -/
def State.floodPayload (s : State) (radio channel : Nat) (o : FloodAddr) (l : List Byte) (fin : Int) : State :=
  match joinReqOf l with
  | some q => s.joinRequest radio channel true q fin
  | none => s.passUp (match o with | .short a => a | .long _ => 0xFFFF) none false (s.floodFrame radio o l)

/-- FLOOD_RECEIVE: an UP flood is dropped if its key is held; otherwise its payload goes to ingest or through
R237. A copy of a DOWN flood is dropped (R250). `bytes` is the MAC frame. -/
def execFloodReceive (radio channel : Nat) (fcsOk : Bool) (bytes : List Byte) (fin : Int) (s : State) :
    Host.Outcome State Fault Refusal :=
  match s.radio radio with
  | none => .next s
  | some c =>
    let s1 := if fcsOk then s.bump (F.RFM_RX_CNT.COUNT radio) else s.bump (F.RFM_CRC_ERR_CNT.COUNT radio)
    .next (if !c.mesh ∨ !s.receives then s
      else if !fcsOk then s1
      else match floodOf bytes with
        | some (true, origin, fseq, payload) =>
          if s.rad.seen.any fun e => e.1 == origin && e.2.1 == fseq && decide (s.now < e.2.2 + 60000)
            then s1.bump F.RFM_SEEN_HIT_CNT.COUNT
          else (s1.see origin fseq).floodPayload radio channel origin payload fin
        | _ => s1)

/-- The MAC frame of a DOWN flood (R249, R250). -/
def DownFlood.bytes (f : DownFlood) (fseq ttl : Nat) : List Byte :=
  let flags := ttl + (match f.dst with | .long _ => 32 | .short _ => 0) + (if f.wake then 64 else 0)
  packBytes [(1, 3), (1, flags), (2, fseq), (2, 0xFFFE)] ++
    (match f.dst with | .short a => beBytes 2 a | .long e => beBytes 8 e) ++ f.payload

/-- Octets of the PSDU of a flood: its MAC frame and the FCS. -/
def DownFlood.psdu (f : DownFlood) : Nat := (f.bytes 0 0).length + 4

/-- The wake frames of a train of `n` (R248): CD counts to the first preamble bit of the flood. -/
def DownFlood.wakes (f : DownFlood) (c : RadioConf) (n : Nat) : List (List Byte) :=
  let dst := match f.dst with | .short a => a | .long _ => 0xFFFF
  (List.range n).map fun j =>
    packBytes [(1, 4), (2, ((n - 1 - j) * (wakeUnits c + 60) + 60) / 60), (2, dst)]

/-- Whether the airtime from the start of the pace overlaps a guard window of the radio (R241). -/
def State.overlapsGuard (s : State) (x units : Nat) : Bool :=
  let lo := s.nowUs
  let hi := lo + unitsUs units
  s.rad.joined.any fun e => match e.2.conn with
    | none => false
    | some c =>
      if c.radio ≠ x then false
      else
        let n0 := c.nearest lo
        (List.range (unitsUs units / (max 1 c.us) + 2)).any fun j =>
          let g : Int := s.guard c e.2.sleepy (n0 + j)
          let p := c.predict e.2.sleepy (n0 + j)
          decide (p - g ≤ hi) && decide (lo ≤ p + g)

/-- Airtime of a flood on a radio, the wake frames of its train, and its preamble (R247). -/
def State.floodPlan (s : State) (c : RadioConf) (f : DownFlood) : Nat × Nat × Nat :=
  if f.wake then
    let (pre, train) := wakePlan c (s.fld F.RFM_LPL.CI_MAX_MS)
    (c.frameUnits pre f.psdu + train * (wakeUnits c + 60), train, pre)
  else (c.frameUnits c.preambleOct f.psdu, 0, c.preambleOct)

/-- Starts a flood on one channel where R241 and R252 permit it now. -/
def State.startFlood (s : State) (x ch fseq : Nat) (f : DownFlood) : State × Bool :=
  match s.radio x with
  | none => (s, true)
  | some c =>
    let (units, train, pre) := s.floodPlan c f
    if s.overlapsGuard x units then (s, false)
    else if s.dwellOk x ch units && s.dutyOk x ch units then
      (s.transmit x ch units (f.wakes c train) pre (f.bytes fseq (s.fld F.RFM_FLOOD.TTL)), true)
    else (s.holdBack x ch units, false)

/-- Whether a flood can never be sent on a channel: its wake train alone is longer than DWELL_MS (R252). -/
def State.neverPossible (s : State) (c : RadioConf) (f : DownFlood) : Bool :=
  let train := (s.floodPlan c f).2.1
  c.dwellMs != 0 && decide (c.dwellMs * 600 < train * (wakeUnits c + 60))

/-- One channel of a flood: it starts, waits, or fails at once with DUTY_LIMIT. -/
def State.floodOn (s : State) (x ch fseq : Nat) (f : DownFlood) : State :=
  match s.radio x with
  | none => s
  | some c =>
    if ch = 0xFF ∨ s.neverPossible c f then s
    else match s.startFlood x ch fseq f with
      | (s1, true) => s1
      | (s1, false) => { s1 with rad := { s1.rad with waiting := s1.rad.waiting ++ [⟨x, ch, s.now, .flood fseq f⟩] } }

/-- A DOWN flood takes the next FSEQ and goes once on every FLOOD_CH of every MESH or DUAL radio; its key is
inserted (R250). -/
def State.floodOut (s : State) (f : DownFlood) : State :=
  let fseq := (s.rad.fseq + 1) % 65536
  let s1 := ({ s with rad := { s.rad with fseq := fseq } } : State).see (.short 0xFFFE) fseq
  s1.meshRadios.foldl (fun (t : State) x => match s.radio x with
    | none => t
    | some c => c.floodCh.foldl (fun (u : State) ch => u.floodOn x ch fseq f) t) s1

/-- FLOOD_SEND: the oldest flood that waits to be sent (R250). -/
def execFloodSend (s : State) : Host.Outcome State Fault Refusal :=
  match s.rad.floods with
  | [] => .next s
  | f :: rest => .next (if s.receives then ({ s with rad := { s.rad with floods := rest } } : State).floodOut f else s)

/-! ### Waiting transmissions (R253) -/

/-- The order of kinds: a JOIN_RSP before a flood. -/
def TxWait.kind (w : TxWait) : Nat := match w.body with | .joinRsp _ _ _ _ _ => 0 | .flood _ _ => 1

/-- Tries one waiting transmission. -/
def State.startWait (s : State) (w : TxWait) : State × Bool :=
  match w.body with
  | .joinRsp i e j st short => s.sendJoinRsp w.radio w.channel i e j st short s.nowUs
  | .flood n f => s.startFlood w.radio w.channel n f

/-- Whether a waiting transmission could start now. -/
def State.mayStart (s : State) (w : TxWait) : Bool :=
  match s.radio w.radio with
  | none => true
  | some c =>
    let units := match w.body with
      | .joinRsp _ _ _ _ _ => c.frameUnits c.preambleOct 60
      | .flood _ f => (s.floodPlan c f).1
    s.dwellOk w.radio w.channel units && s.dutyOk w.radio w.channel units &&
      (w.kind == 0 || !s.overlapsGuard w.radio units)

/-- WAITING_TRANSMISSION_START: the first waiting transmission, by kind and then by age, that R252 permits
now starts (R253). -/
def execWaitingTransmissionStart (s : State) : Host.Outcome State Fault Refusal :=
  let order := (s.rad.waiting.filter fun w => w.kind == 0) ++ (s.rad.waiting.filter fun w => w.kind == 1)
  match order.find? fun w => s.mayStart w with
  | none => .next s
  | some w =>
    .next (if s.receives then (({ s with rad := { s.rad with waiting := s.rad.waiting.erase w } } : State).startWait w).1
      else s)

/-- TX_WAIT_EXPIRY: payloads and floods that have waited MAX_S fail (R253). -/
def execTxWaitExpiry (s : State) : Host.Outcome State Fault Refusal :=
  let due (t : Nat) : Bool := decide (t + s.fld F.RFM_TX_WAIT.MAX_S * 1000 ≤ s.now)
  let gone (p : DownPayload) : Bool := match p.held with | some t => due t | none => false
  let trim (e : JoinedEntry) : JoinedEntry :=
    if e.plc.isSome then e else { e with queue := e.queue.filter fun p => !gone p }
  .next { s with rad := { s.rad with
    joined := Map.mapVals (fun _ e => trim e) s.rad.joined
    waiting := s.rad.waiting.filter fun w => w.kind == 0 || !due w.since } }

/-! ### The rest -/

/-- WMBUS_FRAME: a frame that passes its CRC goes to ingest with t_rx (R255). -/
def execWmbusFrame (radio : Nat) (crcOk : Bool) (f : IngestFrame) (s : State) : Host.Outcome State Fault Refusal :=
  match s.radio radio with
  | none => .next s
  | some c =>
    .next (if !c.wmbus ∨ !s.receives then s
      else if !crcOk then s.bump (F.RFM_CRC_ERR_CNT.COUNT radio)
      else
        let s1 := s.bump (F.RFM_WMB_CNT.COUNT radio)
        s1.handIn (f.stamp (1 + radio) s.timeMs))

/-- The joined table goes to JOURNAL (R246). -/
def State.writeJoined (s : State) : State :=
  { s with rad := { s.rad with saved := s.rad.joined, savedAt := (s.now, s.clk.ns), dirty := none } }

/-- JOINED_TABLE_WRITE: the joined table goes to JOURNAL (R246). -/
def execJoinedTableWrite (s : State) : Host.Outcome State Fault Refusal := .next s.writeJoined

/-- At a pace boundary the table is written at the latest 300 s after a change (R246). -/
def State.joinedDue (s : State) : State :=
  match s.rad.dirty with
  | some t => if t + 300000 ≤ s.now then s.writeJoined else s
  | none => s

/-- After a restart each connection resumes from its stored k and Â_k; the TY9600's LCTR resumes 65,536
higher; queued payloads do not survive (R246, R276). -/
def State.resumeJoined (s : State) (warm : Bool) : State :=
  let shift : Int := (((s.rad.savedAt.2 : Int) - s.clk.ns) / 1000) - s.rad.savedAt.1 * 1000
  let held (a : Nat) : List DownPayload := match Map.find s.rad.joined a with | some e => e.queue | none => []
  let resume (a : Nat) (e : JoinedEntry) : JoinedEntry := { e with
    txCtr := e.txCtr + 65536
    queue := if warm then held a else []
    conn := e.conn.map fun c => { c with anchor := c.anchor + shift, resumed := true }
    plc := e.plc.map fun p => { p with valid := false } }
  ({ s with rad := { s.rad with joined := Map.mapVals resume s.rad.saved } } : State).showJoined

/-- SYNTH_LOCK_FAIL: a synthesiser fails to lock (RFM_STAT). -/
def execSynthLockFail (radio : Nat) (s : State) : Host.Outcome State Fault Refusal :=
  .next (if radio < 2 then
    ((s.flag (F.RFM_STAT.LOCK radio) false).flag (F.RFM_STAT.LOCK_FAIL_SEEN radio) true).post Ev.RF_SYNTH []
  else s)

end Sys2Proof.Machine
end

