-- ==== Sys2Proof/Machine/PlcPhy.lean ====
section
/-! DEFINITION. The power-line PHY: the frame control header with its CRC (R259), the coding chain of a PSDU (R260), and the
bits of each symbol, carrier by carrier (R258, R264). Bits are in the order of sending. -/

namespace Sys2Proof.Machine

/-! ### Bits -/

/-- The `n` low bits of a number, most significant first. -/
def bitsOf (n v : Nat) : List Bool := (List.range n).map fun j => v.testBit (n - 1 - j)

/-- The number of a list of bits, most significant first. -/
def ofBits (l : List Bool) : Nat := l.foldl (fun n b => 2 * n + (if b then 1 else 0)) 0

/-- The bits of octets, most significant first. [DEDUCED, log 161; unsafe] -/
def octetBits (l : List Byte) : List Bool := l.flatMap fun b => bitsOf 8 b.toNat

/-- The octets of bits. -/
def bitOctets (n : Nat) (l : List Bool) : List Byte :=
  (List.range n).map fun j => BitVec.ofNat 8 (ofBits ((l.drop (8 * j)).take 8))

/-- `l` repeated cyclically to `n` items. -/
def cycleTo {α : Type} (d : α) (l : List α) (n : Nat) : List α := (List.range n).map fun j => l.getD (j % max 1 l.length) d

/-! ### Carriers -/

/-- The carriers K_LO to K_HI, each with whether it is used (R257). -/
def PlcConf.carriers (c : PlcConf) : List Bool := (List.range (c.kHi + 1 - c.kLo)).map fun j => !c.notch.getLsbD (c.kLo + j)

/-- N_u (R257). -/
def PlcConf.used (c : PlcConf) : Nat := (c.carriers.filter id).length

/-- One row of the robust map: BPSK on every used carrier (R264). -/
def PlcConf.robust (c : PlcConf) : List Nat := c.carriers.map fun u => if u then 1 else 0

/-- The rows in force: those of the link map, or the robust map in every phase. -/
def PlcConf.rows (c : PlcConf) (m : Option ToneMap) : List (List Nat) :=
  match m with
  | some t => t.rows
  | none => List.replicate 8 c.robust

/-- The bits of a symbol over its carriers, by their codes: bits fill carriers in ascending order (R258). -/
def fillCarriers : List Nat → List Bool → List (List Bool)
  | [], _ => []
  | n :: codes, l => l.take n :: fillCarriers codes (l.drop n)

/-! ### Frame control header (R259) -/

/-- CRC-16 with polynomial x^16 + x^12 + x^5 + 1 and initial value 0xFFFF. -/
def crc16 (l : List Bool) : Nat :=
  (l.foldl (fun (c : BitVec 16) b => if c.getLsbD 15 != b then (c <<< 1) ^^^ 0x1021 else c <<< 1) 0xFFFF).toNat

/-- Bits 63:16 of a header with its CRC. -/
def fchWord (type tmi span cph length src : Nat) : BitVec 64 :=
  let head := bitsOf 3 type ++ bitsOf 4 tmi ++ bitsOf 4 span ++ bitsOf 8 cph ++ bitsOf 10 length ++ bitsOf 16 src ++ bitsOf 3 0
  BitVec.ofNat 64 (ofBits head * 65536 + crc16 head)

/-- A field of a header. -/
def fchField (w : BitVec 64) (hi lo : Nat) : Nat := w.toNat / 2 ^ lo % 2 ^ (hi + 1 - lo)

def fchType (w : BitVec 64) : Nat := fchField w 63 61
def fchTmi (w : BitVec 64) : Nat := fchField w 60 57
def fchSrc (w : BitVec 64) : Nat := fchField w 34 19

/-- Whether the CRC of a header holds. -/
def fchOk (w : BitVec 64) : Bool := crc16 (bitsOf 48 (w.toNat / 65536)) == w.toNat % 65536

/-! ### Coding (R260) -/

/-- Step 1: the scrambler x^7 + x^4 + 1, from all ones. -/
def scramble (seed : BitVec 7) : List Bool → List Bool
  | [] => []
  | b :: l =>
    let f := seed.getLsbD 6 != seed.getLsbD 3
    (b != f) :: scramble ((seed <<< 1) ||| (if f then 1 else 0)) l

/-- Product in GF(2^8) with field polynomial x^8 + x^4 + x^3 + x^2 + 1. -/
def rsMul (a b : BitVec 8) : BitVec 8 :=
  ((List.range 8).foldl (fun (st : BitVec 8 × BitVec 8) i =>
    (if b.getLsbD i then st.1 ^^^ st.2 else st.1,
     if st.2.getLsbD 7 then (st.2 <<< 1) ^^^ 0x1D else st.2 <<< 1)) (0, a)).1

/-- α^n. -/
def rsPow : Nat → BitVec 8
  | 0 => 1
  | n + 1 => rsMul (rsPow n) 2

/-- The generator polynomial of RS(255,239) without its leading 1, highest power first: sixteen consecutive roots. The spec
does not state the first. [DESIGN CHOICE, log 162; safe] -/
def rsGenerator : List (BitVec 8) :=
  ((List.range 16).foldl (fun (g : List (BitVec 8)) i =>
    let r := rsPow (Config.rsFirstRoot % 255 + i)
    (g ++ [0]).zipWith (fun a b => a ^^^ rsMul r b) (0 :: g)) [1]).drop 1

/-- Step 2: the 16 parity octets of a piece. -/
def rsParity (l : List Byte) : List Byte :=
  l.foldl (fun (p : List (BitVec 8)) b =>
    let f := b ^^^ p.headD 0
    ((p.drop 1) ++ [0]).zipWith (fun x g => x ^^^ rsMul f g) rsGenerator) (List.replicate 16 0)

/-- The pieces of a PSDU: c = ⌈LENGTH/239⌉ of equal length, the earlier taking one octet more. -/
def rsPieces (l : List Byte) : List (List Byte) :=
  let c := (l.length + 238) / 239
  (List.range c).map fun k =>
    let at_ (j : Nat) : Nat := j * (l.length / c) + min j (l.length % c)
    (l.drop (at_ k)).take (at_ (k + 1) - at_ k)

/-- Step 3: the rate-1/2 convolutional code of constraint length 7, generators 171 and 133 octal, after 6 zero tail bits. -/
def convolve (l : List Bool) : List Bool :=
  ((l ++ List.replicate 6 false).foldl (fun (st : BitVec 7 × List (List Bool)) b =>
    let w : BitVec 7 := (st.1 >>> 1) ||| (if b then 0x40 else 0)
    let parity (g : BitVec 7) : Bool := (List.range 7).foldl (fun p i => p != (w &&& g).getLsbD i) false
    (w, [parity 0x79, parity 0x5B] :: st.2)) (0, [])).2.reverse.flatten

/-- The coded bits of a PSDU. -/
def codePsdu (l : List Byte) : List Bool :=
  let mixed := bitOctets l.length (scramble 0x7F (octetBits l))
  convolve (octetBits ((rsPieces mixed).flatMap fun p => p ++ rsParity p))

/-- The number of coded bits of a PSDU. -/
def codedBits (len : Nat) : Nat := (8 * (len + 16 * ((len + 238) / 239)) + 6) * 2

/-! ### Interleaving (R260) -/

/-- A data symbol: its number, its capacity, and the positions that take coded bits; the last symbol of a frame is padded
with zero bits. -/
structure DataSymbol where
  no : Nat
  bits : Nat
  coded : Nat
  deriving DecidableEq, Repr

/-- The slots of a block, by position and then by symbol. -/
def blockSlots (l : List DataSymbol) : List (Nat × Nat) :=
  (List.range (l.foldl (fun n e => max n e.coded) 0)).flatMap fun p =>
    l.filterMap fun e => if p < e.coded then some (e.no, p) else none

/-- The bits of symbol s from those of its positions: position p is the ((p + 7·s) mod b)-th bit. -/
def placeBits (s b : Nat) (at_ : Nat → Bool) : List Bool := (List.range b).map fun j => at_ ((j + 7 * b * s - 7 * s) % max 1 b)

/-- The symbols of one block from its coded bits. -/
def interleaveBlock (block : List DataSymbol) (l : List Bool) : List (List Bool) :=
  let slots := (blockSlots block).zip l
  block.map fun e =>
    let own := (slots.filter fun x => x.1.1 == e.no).map fun x => (x.1.2, x.2)
    placeBits e.no e.bits fun p => (own.find? fun x => x.1 == p).any fun x => x.2

/-- The data symbols of a frame: `span` symbols to a block, the first argument bounding the blocks. -/
def interleave (span : Nat) : Nat → List DataSymbol → List Bool → List (List Bool)
  | 0, _, _ => []
  | n + 1, all, l =>
    if all.isEmpty then []
    else
      let block := all.take span
      let size := sumNat (fun e => e.coded) block
      interleaveBlock block (l.take size) ++ interleave span n (all.drop span) (l.drop size)

/-- Data symbols that `bits` coded bits need from symbol j on, of at most `n`. -/
def dataSymbols (cap : Nat → Nat) : Nat → Nat → Nat → Nat
  | 0, _, _ => 0
  | n + 1, j, bits => if bits = 0 then 0 else 1 + dataSymbols cap n (j + 1) (bits - cap j)

/-- SPAN: `SPAN_LOG2`, or the smallest value that covers the frame where that is smaller. -/
def spanOf (top symbols : Nat) : Nat := ((List.range (top + 1)).find? fun n => decide (symbols ≤ 2 ^ n)).getD top

/-! ### Phases and symbols (R262 to R264) -/

/-- T_ref in 0.01 µs: T, or M·T where T is below 2 ms (R262). -/
def refCycle (t : Nat) : Nat := if t = 0 then 0 else if t < 200000 then (200000 + t - 1) / t * t else t

/-- The phase of data symbol j (R263). -/
def symbolPhase (cph j tref : Nat) : Nat := 8 * (cph * tref + 256 * j * 25000) / (256 * tref) % 8

/-- The FCH symbols: its coded bits twice, then cyclically, in BPSK on every used carrier (R259, R260). -/
def fchSymbols (c : PlcConf) (w : BitVec 64) : List (List (List Bool)) :=
  let n := (280 + c.used - 1) / c.used
  let bits := cycleTo false (convolve (bitsOf 64 w.toNat)) (n * c.used)
  (List.range n).map fun k => fillCarriers c.robust (bits.drop (k * c.used))

/-- Preamble and FCH in µs (R259). -/
def headUs (c : PlcConf) : Nat := 1920 + 250 * ((280 + c.used - 1) / c.used)

/-- The data symbols of a PSDU under rows of codes; the last is padded with zero bits (R260, R264).
[DEDUCED, log 161; unsafe] -/
def psduSymbols (rows : List (List Nat)) (cph tref span n : Nat) (psdu : List Byte) : List (List (List Bool)) :=
  let row (j : Nat) : List Nat := rows.getD (symbolPhase cph j (max 1 tref)) []
  let size (j : Nat) : Nat := sumNat id (row j)
  let pad := sumNat size (List.range n) - codedBits psdu.length
  let all := (List.range n).map fun j => (⟨j, size j, if j + 1 = n then size j - pad else size j⟩ : DataSymbol)
  let bits := interleave (2 ^ span) n all (codePsdu psdu)
  (List.range n).map fun j => fillCarriers (row j) (bits.getD j [])

end Sys2Proof.Machine
end

