-- ==== Sys2Proof/Machine/Plc.lean ====
section
/-! DEFINITION. Power-line communication: frames, reference cycles, tone maps, medium access, coordinator mode, routes and
joining (R256 to R277). -/

namespace Sys2Proof.Machine

/-! ### PLC_BANDS and channels -/

/-- The entry of a channel whose role is MESH (R257). -/
def State.plcConf (s : State) (x : Nat) : Option PlcConf :=
  match s.warp.active with
  | some w => match w.plcBands with
    | some l => match l[x]? with
      | some c => if c.role = 1 then some c else none
      | none => none
    | none => none
  | none => none

def State.chan (s : State) (x : Nat) : PlcChan := Map.findD s.plc.chans x {}

def State.setChan (s : State) (x : Nat) (c : PlcChan) : State := { s with plc := { s.plc with chans := Map.set s.plc.chans x c } }

/-- MESH channels. -/
def State.meshChans (s : State) : List Nat := (List.range 4).filter fun x => (s.plcConf x).isSome

/-! ### Frames (R259, R271) -/

/-- The route header of a frame from the TY9600: DOWN, IDX 0 and COST 0. -/
def PlcTx.route (t : PlcTx) : List Byte :=
  packBytes ([(1, 2 * t.path.length), (1, 0), (2, 0), (2, t.next)] ++ t.path.map fun a => (2, a))

/-- The PSDU: route header, MAC frame and FCS. -/
def PlcTx.psdu (t : PlcTx) : List Byte := t.route ++ t.mac ++ beBytes 4 (Config.fcs (t.route ++ t.mac)).toNat

/-- Whether a frame is DATA, acknowledged by its hop receiver (R259). -/
def PlcTx.acked (t : PlcTx) : Bool := t.next != 0xFFFF

/-- The low 16 bits of the FCS that ends a PSDU. -/
def psduFcs (l : List Byte) : Nat := fieldAt l (l.length - 2) 2

/-- The route header of a received PSDU: UP, HOPS, COST, NEXT and PATH. -/
def routeUp (l : List Byte) : Bool := (BitVec.ofNat 8 (fieldAt l 0 1)).getLsbD 0
def routeHops (l : List Byte) : Nat := fieldAt l 0 1 / 2 % 8
def routeCost (l : List Byte) : Nat := fieldAt l 2 2
def routeNext (l : List Byte) : Nat := fieldAt l 4 2
def routePath (l : List Byte) : List Nat := (List.range (routeHops l)).map fun k => fieldAt l (6 + 2 * k) 2

/-- The MAC frame of a received PSDU. -/
def psduMac (l : List Byte) : List Byte := (l.drop (6 + 2 * routeHops l)).take (l.length - 10 - 2 * routeHops l)

/-- The map a frame is sent under: the link's, where the frame is DATA and the channel is locked (R264). -/
def State.txMap (s : State) (x : Nat) (t : PlcTx) : Option ToneMap :=
  if t.acked && s.fld (F.PLC_STAT.REF_LOCK x) == 1 then (Map.findD (s.chan x).tones t.next {}).tx else none

/-- CPH of a frame whose first data symbol starts at a time in µs; free without lock (R263). -/
def State.cphAt (s : State) (x : Nat) (us : Nat) : Nat :=
  let tref := refCycle (s.fld (F.PLC_REF_PERIOD.PERIOD x))
  if s.fld (F.PLC_STAT.REF_LOCK x) = 1 ∧ tref ≠ 0 then
    let d : Int := (us : Int) * 100 - (s.chan x).origin * 100
    (d % tref).toNat * 256 / tref
  else s.free % 256

/-- T_ref of a channel. -/
def State.tRef (s : State) (x : Nat) : Nat := refCycle (s.fld (F.PLC_REF_PERIOD.PERIOD x))

/-- Data symbols of a PSDU under a map and CPH. -/
def State.symbolsOf (s : State) (x : Nat) (c : PlcConf) (m : Option ToneMap) (cph len : Nat) : Nat :=
  let rows := c.rows m
  dataSymbols (fun j => sumNat id (rows.getD (symbolPhase cph j (max 1 (s.tRef x))) [])) 8192 0 (codedBits len)

/-- A transmission of `us` µs on a channel: PLx_TXEN leads the first sample by TX_LEAD_US and follows the last by 2 µs (R256);
it is counted. -/
def State.plcSend (s : State) (x : Nat) (c : PlcConf) (us slot : Nat) (fch : BitVec 64) (psdu : List Byte)
    (symbols : List (List (List Bool))) : State :=
  (s.bump (F.PLC_TX_CNT.COUNT x)).send
    (.powerLine x ⟨c.txLevel, (-(c.txLeadUs : Int), us + 2), slot, fch, psdu, fchSymbols c fch ++ symbols⟩)

/-- A frame with a PSDU of a TYPE (R258 to R264). -/
def State.plcFrame (s : State) (x : Nat) (c : PlcConf) (type : Nat) (m : Option ToneMap) (cph slot : Nat) (psdu : List Byte) :
    State :=
  let n := s.symbolsOf x c m cph psdu.length
  let span := spanOf (s.fld F.PLC_ILV.SPAN_LOG2) n
  s.plcSend x c (headUs c + 250 * n) slot
    (fchWord type (match m with | some t => t.tmi | none => 0) span cph psdu.length 0xFFFE) psdu
    (psduSymbols (c.rows m) cph (s.tRef x) span n psdu)

/-- An ACK: preamble and FCH only, with the low bits of the acknowledged frame's FCS in SRC (R259, R266). -/
def State.plcAck (s : State) (x : Nat) (c : PlcConf) (fcs : Nat) : State :=
  s.plcSend x c (headUs c) 0 (fchWord 1 0 0 0 0 fcs) [] []

/-- Puts a frame in the queue of a channel; `node` is that of a DATA frame. -/
def State.queueFrame (s : State) (x prio next : Nat) (path : List Nat) (node : Option Nat) (mac : List Byte) : State :=
  let c := s.chan x
  s.setChan x { c with queue := c.queue ++ [⟨prio, next, path, node, mac, 0, s.fld F.PLC_CSMA.BE_MIN⟩] }

/-! ### Routes and payloads (R273, R275) -/

/-- Sends a DATA frame down the stored path of a node: its LCTR rises (R231, R273). -/
def State.downFrame (s : State) (a : Nat) (lsn : Nat) (p : Option DownBody) : State :=
  match Map.find s.rad.joined a with
  | none => s
  | some e => match e.plc with
    | none => s
    | some l =>
      let e1 := { e with txCtr := e.txCtr + 1 }
      let payload := match p with | some b => b.bytes 0 | none => []
      match s.macTo e.meter 1 (macHeader 0 false lsn e.alsn a 0xFFFE e1.txCtr ++ payload) with
      | some mac => (s.setJoined a e1).queueFrame l.chan 1 (l.path.getD 0 a) l.path (some a) mac
      | none => s

/-- Sends the head payload of a power-line node where it has not been sent and the route is valid. Returns
whether it sent one. -/
def State.plcPump (s : State) (a : Nat) : State × Bool :=
  match Map.find s.rad.joined a with
  | none => (s, false)
  | some e => match e.plc, e.queue with
    | some l, p :: rest =>
      if l.valid ∧ p.lsn = 0 then
        let lsn := e.lsn % 255 + 1
        let q : DownPayload := { p with lsn := lsn, sends := 1, sentAt := s.now, held := none }
        ((s.setJoined a { e with lsn := lsn, queue := q :: rest }).downFrame a lsn (some p.body), true)
      else (s, false)
    | _, _ => (s, false)

/-- A route entry becomes invalid: payloads wait for one from now on (R273, R275). -/
def State.dropRoute (s : State) (a : Nat) : State :=
  match Map.find s.rad.joined a with
  | none => s
  | some e => match e.plc with
    | none => s
    | some l =>
      let wait (p : DownPayload) : DownPayload := { p with held := match p.held with | some t => some t | none => some s.now }
      s.setJoined a { e with plc := some { l with valid := false }, queue := e.queue.map wait }

/-- An UP frame whose MIC verifies replaces the route entry where R273 permits it; an accepted one renews the link (R275). -/
def State.learnRoute (s : State) (a x : Nat) (path : List Nat) (cost : Nat) (accepted : Bool) : State :=
  match Map.find s.rad.joined a with
  | none => s
  | some e => match e.plc with
    | none => s
    | some l =>
      let new := !l.valid || decide (cost ≤ l.cost + s.fld F.PLC_ROUTE.HYST) || decide (l.learned + 600000 < s.now)
      let l1 := if new then { l with chan := x, path := path.reverse, cost := cost, learned := s.now, valid := true } else l
      let l2 := if accepted then { l1 with lastUp := s.now, alive := true } else l1
      let free (p : DownPayload) : DownPayload := { p with held := none }
      s.setJoined a { e with plc := some l2, queue := e.queue.map free }

/-- ENVELOPE_SEND (R232 to R234). [DEDUCED, log 103; unsafe] -/
def execEnvelopeSend (s : State) : Host.Outcome State Fault Refusal :=
  match s.ing.toMeter with
  | [] => .next s
  | (i, body) :: rest =>
    let s1 := ({ s with ing := { s.ing with toMeter := rest } } : State).sealEnvelope i body
    .next (match s1.joinedOf i with
      | some a => (s1.plcPump a).1
      | none => s1)

/-! ### Access mode (R267, R270) -/

/-- Whether coordinator mode is in force. -/
def State.coord (s : State) (x : Nat) : Bool := s.fld (F.PLC_STAT.COORD x) == 1

/-- A change of the access mode is recorded (R270). -/
def State.setCoord (s : State) (x : Nat) (on : Bool) : State :=
  ((s.flag (F.PLC_STAT.COORD x) on).flag (F.PLC_STAT.MODE_SEEN x) true).post Ev.PLC_MODE []

/-- A beacon with the active slot table (R267). -/
def State.beacon (s : State) (x : Nat) (last : Bool) : State :=
  match s.plcConf x with
  | none => s
  | some k =>
    let c := s.chan x
    let n := (c.sfSeq + 1) % 65536
    let slot (p : PlcSlot) : List (Nat × Nat) := [(2, p.short), (1, p.len), (1, if p.down then 1 else 0)]
    let mac := packBytes ([(1, 6), (2, k.netId), (2, n), (2, s.fld (F.PLC_MODE.SF_MS x)), (1, if last then 1 else 0),
      (1, c.active.length)] ++ c.active.flatMap slot)
    let t : PlcTx := ⟨0, 0xFFFF, [], none, mac, 0, 0⟩
    (s.setChan x { c with sfSeq := n }).draw.plcFrame x k 3 none (s.cphAt x (s.now * 1000 + headUs k)) 0 t.psdu

/-- Leaves coordinator mode at once with a LAST beacon, as a committed MODE 0 does (R270). -/
def State.leaveCoord (s : State) (x : Nat) : State :=
  if s.coord x then
    let s1 := s.beacon x true
    (s1.setChan x { s1.chan x with last := false, active := [], shadow := [], changes := [], auto := false }).setCoord x false
  else s

/-- One hop attempt counts for the auto rule (R270). [DEDUCED, log 109; unsafe] -/
def State.attempt (s : State) (x : Nat) (unacked : Bool) : State :=
  let c := s.chan x
  let l := (unacked :: c.attempts).take 1000
  let share := (l.filter id).length
  let on := c.auto || (s.fld (F.PLC_MODE.MODE x) == 2 && decide (s.fld F.PLC_AUTO.HI_PCT * 1000 ≤ share * 100))
  s.setChan x { c with attempts := l, auto := on }

/-- The shadow table takes a change (R268). -/
def State.changeSlots (s : State) (x : Nat) (l : List PlcSlot) : State :=
  let c := s.chan x
  s.setChan x { c with shadow := l, changes := c.changes ++ [(s.now, l)] }

/-- Slots of a node are removed after a link loss or a re-join (R268). -/
def State.dropSlots (s : State) (x a : Nat) : State :=
  if (s.chan x).shadow.any fun p => p.short == a then
    s.changeSlots x ((s.chan x).shadow.filter fun p => p.short != a)
  else s

/-- SUPERFRAME_START: at a pace boundary that is a multiple of SF_MS the mode is settled, the shadow table as
it stood 10 paces earlier is copied, and the beacon sent (R267, R268, R270). -/
def execSuperframeStart (chan : Nat) (s : State) : Host.Outcome State Fault Refusal :=
  match s.plcConf chan with
  | none => .next s
  | some _ =>
    let sf := s.fld (F.PLC_MODE.SF_MS chan)
    let mode := s.fld (F.PLC_MODE.MODE chan)
    if sf = 0 ∨ s.now % sf ≠ 0 then .next s
    else
      let c := s.chan chan
      let share := (c.attempts.filter id).length
      let calm := c.auto && s.coord chan && decide (c.coordAt + 600000 ≤ s.now) &&
        decide (share * 100 ≤ s.fld F.PLC_AUTO.LO_PCT * 1000)
      let auto := c.auto && !calm
      let want := mode == 1 || (mode == 2 && auto)
      let s1 := s.setChan chan { c with auto := auto }
      .next (if s.coord chan && c.last then
          (s1.setChan chan { s1.chan chan with last := false, active := [], shadow := [], changes := [] }).setCoord chan false
        else if s.coord chan && !want then
          let s2 := s1.beacon chan true
          s2.setChan chan { s2.chan chan with last := true }
        else if want then
          let due := c.changes.filter fun e => decide (e.1 + 10 ≤ s.now)
          let act := match due.getLast? with | some e => e.2 | none => c.active
          let s2 := s1.setChan chan { s1.chan chan with
            active := act, changes := c.changes.filter fun e => decide (s.now < e.1 + 10)
            coordAt := if s.coord chan then c.coordAt else s.now }
          (if s.coord chan then s2 else s2.setCoord chan true).beacon chan false
        else s1)

/-! ### Medium access (R265, R266) -/

/-- The frame of a channel that goes first: the lowest priority number, then the oldest. -/
def firstFrame : List PlcTx → Option PlcTx
  | [] => none
  | t :: l => match firstFrame l with
    | none => some t
    | some u => if u.prio < t.prio then some u else some t

/-- The end of the beacon, and the slots with their starts, in µs of the superframe (R267). -/
def slotTimes (start : Nat) : List PlcSlot → List (Nat × PlcSlot)
  | [] => []
  | p :: l => (start, p) :: slotTimes (start + 250 * p.len) l

/-- Airtime of a beacon in µs. -/
def State.beaconUs (s : State) (x : Nat) (c : PlcConf) : Nat :=
  headUs c + 250 * s.symbolsOf x c none 0 (19 + 4 * (s.chan x).active.length)

/-- Whether a frame of `us` may start at µs `off` of the superframe: after the contention-free period and
before the next superframe, or in a slot of its receiver that points down (R267). -/
def State.mayTransmit (s : State) (x : Nat) (c : PlcConf) (t : PlcTx) (off us : Nat) : Bool :=
  let b := s.beaconUs x c
  let slots := slotTimes b (s.chan x).active
  let cfpEnd := b + sumNat (fun p : PlcSlot => 250 * p.len) (s.chan x).active
  (decide (cfpEnd ≤ off) && decide (off + us ≤ s.fld (F.PLC_MODE.SF_MS x) * 1000)) ||
    slots.any fun e => e.2.down && (e.2.short == t.next || e.2.short == 0xFFFE) && decide (e.1 ≤ off) && decide (off + us ≤ e.1 + 250 * e.2.len)

/-- CSMA_ATTEMPT: the first frame of a channel starts at µs `at_` of the pace, unless a preamble was sensed
before its slot; a frame that needs no ACK is then done (R265). -/
def execCsmaAttempt (chan at_ : Nat) (sensed : Bool) (s : State) : Host.Outcome State Fault Refusal :=
  match s.plcConf chan, firstFrame (s.chan chan).queue with
  | some c, some t =>
    let m := s.txMap chan t
    let cph := s.cphAt chan (s.now * 1000 + at_ + headUs c)
    let n := s.symbolsOf chan c m cph t.psdu.length
    let us := headUs c + 250 * n
    let off := s.now % (max 1 (s.fld (F.PLC_MODE.SF_MS chan))) * 1000 + at_
    .next (if sensed || !s.receives || (s.chan chan).awaiting.isSome || (s.coord chan && !s.mayTransmit chan c t off us) then s
      else
        let k := s.chan chan
        (s.draw.draw.setChan chan { k with
          queue := k.queue.erase t, awaiting := if t.acked then some t else none }).plcFrame chan c
            (if t.acked then 0 else 2) m cph (s.draw.free % 2 ^ t.be) t.psdu)
  | _, _ => .next s

/-- The link to a hop receiver after an attempt: two in a row without ACK return it to TMI 0 (R264). -/
def State.linkAttempt (s : State) (x next : Nat) (unacked : Bool) : State :=
  let c := s.chan x
  let t := Map.findD c.tones next {}
  let t1 := if unacked then { t with missed := t.missed + 1, tx := if 1 ≤ t.missed then none else t.tx }
    else { t with missed := 0 }
  s.setChan x { c with tones := Map.set c.tones next t1 }

/-- PLC_ACK_TIMEOUT: the attempt counts as unacknowledged; BE rises, or the frame fails after TRIES and with it
the route entry of its node (R265, R266, R273). -/
def execPlcAckTimeout (chan : Nat) (s : State) : Host.Outcome State Fault Refusal :=
  match (s.chan chan).awaiting with
  | none => .next s
  | some t =>
    let s1 := (s.linkAttempt chan t.next true).attempt chan true
    let k := s1.chan chan
    .next (if s.fld F.PLC_CSMA.TRIES ≤ t.tries + 1 then
        let s2 := (s1.setChan chan { k with awaiting := none }).bump (F.PLC_NOACK_CNT.COUNT chan)
        match t.node with
        | some a => s2.dropRoute a
        | none => s2
      else
        let be := min (t.be + 1) (min 4 (s.fld F.PLC_CSMA.BE_MAX))
        s1.setChan chan { k with awaiting := none, queue := { t with tries := t.tries + 1, be := max t.be be } :: k.queue })

/-! ### Tone maps (R264) -/

/-- The code of a carrier whose SNR less MARGIN is `v`, in 0.25 dB. -/
def toneCode (v : Int) : Nat := if v < 16 then 0 else if v < 28 then 1 else if v < 48 then 2 else if v < 60 then 3 else 4

/-- The map a receiver would choose. -/
def PlcConf.buildMap (c : PlcConf) (margin : Nat) (snr : List (List Int)) : List (List Nat) :=
  (List.range 8).map fun p =>
    (List.range c.carriers.length).map fun j =>
      if c.carriers.getD j false then toneCode ((snr.getD p []).getD j 0 - margin) else 0

/-- Whether a new map must be sent: a phase's capacity differs by at least 10 %, or a carrier in use falls to
code 0. -/
def mapDiffers (old new : List (List Nat)) : Bool :=
  (List.range 8).any fun p =>
    let a := old.getD p []
    let b := new.getD p []
    let ca := sumNat id a
    let cb := sumNat id b
    decide (ca ≤ 10 * (if cb < ca then ca - cb else cb - ca)) && ca != cb ||
      (List.range a.length).any fun j => a.getD j 0 != 0 && b.getD j 0 == 0

/-- The octets of a row of codes, the first in the high nibble. -/
def rowBytes : List Nat → List Byte
  | [] => []
  | [a] => [BitVec.ofNat 8 (16 * a)]
  | a :: b :: l => BitVec.ofNat 8 (16 * a + b) :: rowBytes l

/-- The MAC frame of a TM_UPDATE (R264, R271). -/
def ToneMap.mac (m : ToneMap) (c : PlcConf) : List Byte :=
  packBytes [(1, 7), (1, 1), (1, m.tmi), (1, c.kLo), (1, c.kHi)] ++ (m.rows.take 8).flatMap rowBytes

/-- The map of a received TM_UPDATE for the carriers of the channel. -/
def toneMapOf (c : PlcConf) (l : List Byte) : Option ToneMap :=
  let n := c.kHi + 1 - c.kLo
  let w := (n + 1) / 2
  let code (p j : Nat) : Nat := fieldAt l (5 + w * p + j / 2) 1 / (if j % 2 = 0 then 16 else 1) % 16
  let rows := (List.range 8).map fun p => (List.range n).map (code p)
  let fits := rows.all fun r => (r.zip c.carriers).all fun e => decide (e.1 ≤ 4) && (e.2 || e.1 == 0)
  if macKind l = 7 ∧ fieldAt l 1 1 = 1 ∧ 1 ≤ fieldAt l 2 1 ∧ fieldAt l 2 1 ≤ 15 ∧ fieldAt l 3 1 = c.kLo ∧ fieldAt l 4 1 = c.kHi ∧
      l.length = 5 + 8 * w ∧ fits then some ⟨fieldAt l 2 1, rows⟩
  else none

/-- TONE_MAP_BUILD: after a frame from a neighbour its SNR may call for a TM_UPDATE, at most one every
REFRESH_S (R264). -/
def State.toneMapBuild (s : State) (x : Nat) (c : PlcConf) (src : Nat) (snr : List (List Int)) : State :=
  let k := s.chan x
  let t := Map.findD k.tones src {}
  let rows := c.buildMap (s.fld F.PLC_TM.MARGIN) snr
  let due := match t.sentAt with | some p => decide (p + s.fld F.PLC_TM.REFRESH_S * 1000 ≤ s.now) | none => true
  if src = 0xFFFF ∨ snr.isEmpty ∨ !due ∨ !mapDiffers (c.rows t.rx) rows then s
  else
    let m : ToneMap := ⟨(match t.rx with | some o => o.tmi % 15 + 1 | none => 1), rows⟩
    (s.setChan x { k with tones := Map.set k.tones src { t with rx := some m, rxOld := t.rx, sentAt := some s.now } }).queueFrame
      x 0 src [] none (m.mac c)

/-- TM_UPDATE: the oldest TM_UPDATE received governs the frames started from now on (R264). -/
def execTmUpdate (s : State) : Host.Outcome State Fault Refusal :=
  match s.plc.toneMaps with
  | [] => .next s
  | (x, src, m) :: rest =>
    let s1 : State := { s with plc := { s.plc with toneMaps := rest } }
    let c := s1.chan x
    let t := Map.findD c.tones src {}
    .next (s1.setChan x { c with tones := Map.set c.tones src { t with tx := some m, missed := 0 } })

/-! ### Receiving (R261, R266, R271) -/

/-- An ACK that names the frame awaited. -/
def State.hopAck (s : State) (x fcs : Nat) : State :=
  match (s.chan x).awaiting with
  | some t =>
    if psduFcs t.psdu = fcs then ((s.setChan x { s.chan x with awaiting := none }).linkAttempt x t.next false).attempt x false
    else s
  | none => s

/-- An accepted DATA frame of a joined node on power line: route, payload, and what goes back (R231, R273,
R275). A hop repeat carries the LCTR accepted last (R266). -/
def State.plcData (s : State) (x : Nat) (psdu : List Byte) (d : NodeFrame) : State :=
  let a := macSrc d.bytes
  match Map.find s.rad.joined a with
  | none => s.bump F.RFM_MIC_FAIL_CNT.COUNT
  | some e =>
    if e.plc.isNone ∨ !s.micOk e d then s.bump F.RFM_MIC_FAIL_CNT.COUNT
    else if !s.dataOk e d then
      let s1 := (s.learnRoute a x (routePath psdu) (routeCost psdu) false).bump F.RFM_MIC_FAIL_CNT.COUNT
      if macLctr d.bytes = e.rxCtr then s1.bump F.PLC_DUP_CNT.COUNT else s1
    else
      let s1 := (s.learnRoute a x (routePath psdu) (routeCost psdu) true).takeData a (3 + x) (some x) d
      match s1.plcPump a with
      | (s2, true) => s2
      | (s2, false) => if macLsn d.bytes ≠ 0 then s2.downFrame a 0 none else s2

/-- Whether the TY9600 can take a frame under its TMI: robust, the map in force or the one it replaced
(R264). -/
def State.tmiKnown (s : State) (x src tmi : Nat) : Bool :=
  let t := Map.findD (s.chan x).tones src {}
  let is (m : Option ToneMap) : Bool := match m with | some o => o.tmi == tmi | none => false
  tmi == 0 || is t.rx || is t.rxOld

/-- The MAC frame of a PSDU that passed FCS: DATA and JOIN_REQ that come UP, or a TM_UPDATE of the hop sender (R271). -/
def State.plcContent (s : State) (x : Nat) (c : PlcConf) (f : PlcFrame) : State :=
  let mac := psduMac f.psdu
  if routeUp f.psdu ∧ macKind mac = 0 then s.plcData x f.psdu ⟨true, mac, f.rssi⟩
  else match joinReqOf mac with
    | some q =>
      if routeUp f.psdu then
        { s with plc := { s.plc with joins := s.plc.joins ++ [⟨x, q, routePath f.psdu, routeCost f.psdu⟩] } }
      else s
    | none => match toneMapOf c mac with
      | some m => { s with plc := { s.plc with toneMaps := s.plc.toneMaps ++ [(x, fchSrc f.fch, m)] } }
      | none => s

/-- PLC_FRAME_RECEIVE (R259 to R261, R266). [DEDUCED, log 108; unsafe] -/
def execPlcFrameReceive (chan : Nat) (f : PlcFrame) (s : State) : Host.Outcome State Fault Refusal :=
  match s.plcConf chan with
  | none => .next s
  | some c =>
    let s1 := s.bump (F.PLC_ERASE_CNT.COUNT chan) f.erased
    .next (if !s.receives then s
      else if !fchOk f.fch then s1.bump (F.PLC_FCH_ERR_CNT.COUNT chan)
      else if fchType f.fch = 1 then s1.hopAck chan (fchSrc f.fch)
      else if !f.rsOk || !f.fcsOk || !s1.tmiKnown chan (fchSrc f.fch) (fchTmi f.fch) then
        s1.bump (F.PLC_RS_FAIL_CNT.COUNT chan)
      else
        let s2 := (s1.bump (F.PLC_RX_CNT.COUNT chan)).toneMapBuild chan c (fchSrc f.fch) f.snr
        if fchType f.fch = 0 then
          (if routeNext f.psdu = 0xFFFE then (s2.plcAck chan c (psduFcs f.psdu)).plcContent chan c f else s2)
        else s2.plcContent chan c f)

/-! ### Reference cycle (R262) -/

/-- The index of the smallest lag whose autocorrelation is at least 0.6 and at least 0.9 of the largest. -/
def autoLag (acf : List Nat) : Option Nat :=
  let top := acf.foldl max 0
  (List.range acf.length).find? fun j => decide (600000 ≤ acf.getD j 0) && decide (9 * top ≤ 10 * acf.getD j 0)

/-- Whether three measurements agree within ±1 %. -/
def agree (l : List Nat) : Bool :=
  l.length == 3 && l.all fun a => l.all fun b => decide ((if a < b then b - a else a - b) * 100 ≤ a)

/-- Lock gained or lost: EV_PLC_REF (R262). -/
def State.setLock (s : State) (x t : Nat) (lock : Bool) : State :=
  let was := s.fld (F.PLC_STAT.REF_LOCK x) == 1
  let s1 := { s with regs := (s.regs.flag (F.PLC_STAT.REF_LOCK x) lock).setF (F.PLC_REF_PERIOD.PERIOD x) (if lock then t else 0) }
  s1.postIf (was != lock) Ev.PLC_REF [b2 x, b8 (t : Nat)]

/-- A measurement that found T. -/
def State.measured (s : State) (x t origin : Nat) : State :=
  let c := s.chan x
  let l := (t :: c.measured).take 3
  let s1 := s.setChan x { c with measured := l, origin := origin, weak := 0 }
  if agree l then s1.setLock x t true
  else if s.fld (F.PLC_STAT.REF_LOCK x) = 1 then s1.setLock x t true
  else s1

/-- Lock is lost. -/
def State.unlock (s : State) (x : Nat) : State :=
  let t := s.fld (F.PLC_REF_PERIOD.PERIOD x)
  let s1 := s.setChan x { s.chan x with measured := [], weak := 0 }
  if s.fld (F.PLC_STAT.REF_LOCK x) = 1 then s1.setLock x t false else s1

/-- REFERENCE_MEASURE: one measurement of a channel's reference source (R262). [DESIGN CHOICE, log 110; unsafe] -/
def execReferenceMeasure (chan : Nat) (m : RefMeasure) (s : State) : Host.Outcome State Fault Refusal :=
  match s.plcConf chan with
  | none => .next s
  | some c =>
    if c.refSrc = 0 then .next s
    else match m with
    | .silent => .next (s.unlock chan)
    | .edges t origin => .next (s.measured chan t origin)
    | .auto acf origin =>
      let k := s.chan chan
      let held := s.fld (F.PLC_REF_PERIOD.PERIOD chan) / 250 - 20
      let low := s.fld (F.PLC_STAT.REF_LOCK chan) == 1 && decide (acf.getD held 0 < 300000)
      if low ∧ 2 ≤ k.weak then .next (s.unlock chan)
      else if low then .next (s.setChan chan { k with weak := k.weak + 1 })
      else match autoLag acf with
        | some j => .next (s.measured chan (5000 + 250 * j) origin)
        | none => .next (s.setChan chan { k with weak := 0, measured := if s.fld (F.PLC_STAT.REF_LOCK chan) = 1 then k.measured else [] })

/-! ### Slots and beacons (R268, R269) -/

/-- Grants a slot in the shadow table, or answers with LEN 0 (R268). -/
def State.grantSlot (s : State) (x a len dir : Nat) : State :=
  let others := (s.chan x).shadow.filter fun p => !(p.short == a && p.down == (dir == 1))
  let direct := match Map.find s.rad.joined a with
    | some e => (match e.plc with | some l => l.path.isEmpty | none => false)
    | none => false
  let total := sumNat (fun p : PlcSlot => 250 * p.len) others + 250 * len
  let fits := direct && decide (others.length < 64) &&
    decide (total * 100 ≤ s.fld (F.PLC_MODE.CFP_PCT x) * s.fld (F.PLC_MODE.SF_MS x) * 1000)
  let given := if fits then len else 0
  let s1 := if given = 0 ∧ len ≠ 0 then s
    else s.changeSlots x (if len = 0 then others else others ++ [⟨a, len, dir == 1⟩])
  ((s1.queueDown a (.message (packBytes [(1, 3), (1, given), (1, dir), (1, 0)]))).plcPump a).1

/-- SLOT_REQ: the oldest SLOT_REQ received is granted or refused in the shadow table (R268). -/
def execSlotReq (s : State) : Host.Outcome State Fault Refusal :=
  match takeInbox 3 s.rad.inbox with
  | none => .next s
  | some (m, rest) =>
    let s1 : State := { s with rad := { s.rad with inbox := rest } }
    .next (match m.chan, m.frame.body with
      | some x, .tylian l => if l.length = 4 then s1.grantSlot x m.short (fieldAt l 1 1) (fieldAt l 2 1) else s1
      | _, _ => s1)

/-- BEACON_LOSS: the oldest BEACON_LOSS message received is recorded (R269). -/
def execBeaconLoss (s : State) : Host.Outcome State Fault Refusal :=
  match takeInbox 4 s.rad.inbox with
  | none => .next s
  | some (m, rest) =>
    let s1 : State := { s with rad := { s.rad with inbox := rest } }
    .next (match m.frame.body with
      | .tylian l => if l.length = 4 then s1.post Ev.PLC_BEACON_LOSS [b2 m.short, b4 (fieldAt l 2 2)] else s1
      | .coded _ => s1)

/-- ROUTE_ADV: every ADV_S seconds the TY9600 advertises cost 0 on a channel (R272). -/
def execRouteAdv (chan : Nat) (s : State) : Host.Outcome State Fault Refusal :=
  match s.plcConf chan with
  | none => .next s
  | some k =>
    let c := s.chan chan
    let due := match c.advAt with | some t => decide (t + s.fld F.PLC_ROUTE.ADV_S * 1000 ≤ s.now) | none => true
    .next (if due then
        let n := (s.plc.advSeq + 1) % 65536
        let s1 := { s with plc := { s.plc with advSeq := n } }
        (s1.setChan chan { c with advAt := some s.now }).queueFrame chan 0 0xFFFF [] none
          (packBytes [(1, 5), (2, k.netId), (2, 0), (1, 0), (1, 0), (2, n)])
      else s)

/-! ### Joining and links (R274, R275) -/

/-- Joined power-line nodes: each has a route entry. -/
def State.routeEntries (s : State) : Nat := (s.rad.joined.filter fun e => e.2.plc.isSome).length

/-- R237 with the changes of R274. -/
def State.judgePlcJoin (s : State) (q : JoinReq) : JoinVerdict :=
  match s.joinMeter q with
  | .error c => .silent c
  | .ok i =>
    let own := match s.joinedOf i with
      | some a => (match Map.find s.rad.joined a with | some e => e.plc.isSome | none => false)
      | none => false
    if !own && decide (16384 ≤ s.routeEntries) then .refused i 1
    else match s.joinAddress i with
      | none => .refused i 1
      | some a => .accepted i a

/-- JOIN_RSP goes down the path of the request; its last hop is a broadcast (R274). -/
def State.plcJoinRsp (s : State) (j : PlcJoin) (meter status : Nat) (relay : Bool) (short : Nat) : State :=
  let path := j.path.reverse
  let id := match s.plcConf j.chan with | some c => c.netId | none => 0
  let payload := packBytes [(8, j.req.eui), (1, status), (1, if relay then 1 else 0), (2, short),
    (2, s.fld F.PLC_ROUTE.KEEPALIVE_S), (1, s.fld F.PLC_ROUTE.ADV_S), (1, s.fld F.PLC_ROUTE.HYST), (2, id),
    (1, if s.coord j.chan then 1 else 0), (1, 0)]
  match s.joinFrame meter j.req.joinCtr payload with
  | some mac => s.queueFrame j.chan 0 (path.getD 0 0xFFFF) path none mac
  | none => s

/-- PLC_JOIN_REQ: the oldest JOIN_REQ received on power line (R274). The event of a refusal with a STATUS carries a free cause
of R73. [DESIGN CHOICE, log 104; unsafe] -/
def execPlcJoinReq (s : State) : Host.Outcome State Fault Refusal :=
  match s.plc.joins with
  | [] => .next s
  | j :: rest =>
    let s0 : State := { s with plc := { s.plc with joins := rest } }
    let reject (c : Nat) : State :=
      (s0.bump F.PLC_JOIN_CNT.REJECTS).post Ev.PLC_JOIN_REJECT [b8 (j.req.eui : Nat), b2 c]
    .next (match s0.judgePlcJoin j.req with
      | .silent c => reject c
      | .refused i st => (reject (Cause.pick s0.free)).draw.plcJoinRsp j i st false 0
      | .accepted i a =>
        let relay := !(s0.meter i).conf.flag 2
        let s1 := s0.enter i a j.req
        let old := Map.findD s1.rad.joined a ⟨i, j.req.sleepy, 0, 0, 0, 0, 0, 0, [], [], false, none, none⟩
        let fresh (p : DownPayload) : DownPayload := { p with lsn := 0, sends := 0, held := none }
        let link : PlcLink := ⟨j.chan, j.path.reverse, j.cost, s.now, true, s.now, true⟩
        let s2 := s1.setJoined a { old with
          relay := relay, plc := some link, conn := none, rxCtr := 0, txCtr := 0, alsn := 0, lsn := 0
          queue := old.queue.map fresh }
        let s3 := ((s2.dropSlots j.chan a).plcJoinRsp j i 0 relay a).bump F.PLC_JOIN_CNT.JOINS
        ((s3.post Ev.PLC_JOIN [b4 i, b2 a, b2 j.chan]).plcPump a).1)

/-- PLC_LINK_LOST: 3·KEEPALIVE_S have passed without an accepted UP frame (R275). -/
def execPlcLinkLost (short : Nat) (s : State) : Host.Outcome State Fault Refusal :=
  match Map.find s.rad.joined short with
  | none => .next s
  | some e => match e.plc with
    | none => .next s
    | some l =>
      .next (if l.alive ∧ l.lastUp + 3000 * s.fld F.PLC_ROUTE.KEEPALIVE_S ≤ s.now then
          let s1 := s.setJoined short { e with plc := some { l with alive := false } }
          let s2 := (s1.dropRoute short).dropSlots l.chan short
          (s2.bump F.PLC_LINK_LOST_CNT.COUNT).post Ev.PLC_LINK_LOST [b2 short]
        else s)

/-- Every channel after a restart: the mode that MODE selects, tone maps and slots not kept, queued transmissions kept by a warm
restart (R270, R276). -/
def State.plcRestart (s : State) (warm : Bool) : State :=
  s.meshChans.foldl (fun (t : State) x =>
    let c := t.chan x
    let on := t.coord x && t.fld (F.PLC_MODE.MODE x) == 1
    let queue := (match c.awaiting with | some f => [f] | none => []) ++ c.queue
    let kept : PlcChan := {
      queue := if warm then queue else []
      sfSeq := c.sfSeq
      measured := c.measured
      weak := c.weak
      origin := c.origin
      coordAt := if on then c.coordAt else 0 }
    let t1 := t.setChan x kept
    if t.coord x ∧ !on then t1.setCoord x false else t1) s

/-- E2E_RESEND: a payload without its ALSN after TIMEOUT_MS is sent again with a new LCTR, or fails with
LINK_NONE after RETRIES sendings, and with it the route entry (R273, R275). -/
def execE2eResend (short : Nat) (s : State) : Host.Outcome State Fault Refusal :=
  match Map.find s.rad.joined short with
  | none => .next s
  | some e => match e.plc, e.queue with
    | some l, p :: rest =>
      .next (if p.lsn = 0 ∨ !s.receives ∨ s.now < p.sentAt + s.fld F.PLC_E2E.TIMEOUT_MS then s
        else if s.fld F.PLC_E2E.RETRIES ≤ p.sends then
          (s.setJoined short { e with queue := rest }).dropRoute short
        else if !l.valid then s
        else
          let q : DownPayload := { p with sends := p.sends + 1, sentAt := s.now }
          (s.setJoined short { e with queue := q :: rest }).downFrame short p.lsn (some p.body))
    | _, _ => .next s

/-- ROUTE_WAIT_EXPIRY: payloads for a joined node that has had no valid route for 3·KEEPALIVE_S fail with
LINK_NONE (R275). -/
def execRouteWaitExpiry (short : Nat) (s : State) : Host.Outcome State Fault Refusal :=
  match Map.find s.rad.joined short with
  | none => .next s
  | some e => match e.plc with
    | none => .next s
    | some l =>
      let expired (p : DownPayload) : Bool := match p.held with
        | some t => decide (t + 3000 * s.fld F.PLC_ROUTE.KEEPALIVE_S ≤ s.now)
        | none => false
      .next (if l.valid then s else s.setJoined short { e with queue := e.queue.filter fun p => !expired p })

end Sys2Proof.Machine
end

