-- ==== Sys2Proof/Machine/Keys.lean ====
section
/-! DEFINITION. Signing, attestation, the random source and zeroise (R345 to R362). -/

namespace Sys2Proof.Machine

/-! ### Key slots (R345) -/

/-- A smaller `ING_KEYCACHE.SLOTS` evicts the meter keys used longest ago (R133). -/
def State.resizeKeys (s : State) : State :=
  ({ s with ing := { s.ing with keys := s.ing.keys.take (s.fld F.ING_KEYCACHE.SLOTS) } } : State).showSlots

/-! ### Leaves (R357 to R360) -/

/-- `KEY_LEAF_LEFT`. -/
def State.leavesLeft (s : State) : Nat := 33554432 - s.leaf

/-- The leaf alarms of R360 that have been reached. -/
def leafLevel (left : Nat) : Nat := if left < 100000 then 2 else if left < 1000000 then 1 else 0

/-- Sets N, with HSS_READY, and EV_LEAVES_LOW with its health notice when LEFT first falls below a mark
(R359, R360). -/
def State.setLeaf (s : State) (n : Nat) : State :=
  let s1 := ((s.setF F.KEY_LEAF_NEXT.N n).setF F.KEY_LEAF_LEFT.COUNT (33554432 - n)).flag F.KEY_STAT.HSS_READY
    (s.keysReady && s.key.trees.contains (n / 32768))
  let level := leafLevel (33554432 - n)
  if level ≤ s.key.lowSeen then s1
  else
    (({ s1 with key := { s1.key with lowSeen := level } } : State).post Ev.LEAVES_LOW []).raiseItem
      ⟨11, level, 0, (33554432 - n : Nat), if level = 2 then 100000 else 1000000⟩

/-- Writes RES + 256 to the older copy; `readBack` is whether it reads back (R358). -/
def State.reserve (s : State) (readBack : Bool) : State :=
  let res := s.fld F.KEY_LEAF_RES.RES
  let v := if readBack then some (res + 256) else none
  let copies := if s.key.copies.1 = some res then (s.key.copies.1, v) else (v, s.key.copies.2)
  let s1 := { s with key := { s.key with copies := copies } }
  if readBack then s1.setF F.KEY_LEAF_RES.RES (res + 256) else s1

/-- Counts a signature released in its period of 86,400 operating seconds (R360). [DEDUCED, log 114; unsafe] -/
def State.countSign (s : State) : State :=
  let day := s.evt.opSeconds.toNat / 86400
  let n := if s.key.day = day then s.key.daySigns else 0
  ({ s with key := { s.key with day := day, daySigns := n + 1 } } : State).bump F.KEY_SIGN_CNT.COUNT

/-- Signs with the next leaf under the rule of R358: the leaf, or none where the read-back failed. -/
def State.takeLeaf (s : State) (readBack : Bool) : State × Option Nat :=
  let n := s.leaf
  let s1 := if n = s.fld F.KEY_LEAF_RES.RES then s.reserve readBack else s
  if n = s1.fld F.KEY_LEAF_RES.RES then (s1, none)
  else ((s1.setLeaf (n + 1)).countSign, some n)

/-- Whether the signatures of this period are spent (R360). -/
def State.signsSpent (s : State) : Bool :=
  s.key.day == s.evt.opSeconds.toNat / 86400 && decide (s.fld F.KEY_SIGN_CFG.DAY_MAX ≤ s.key.daySigns)

/-! ### ATTEST (R355, R362) -/

/-- The identity: SHA-256 of HSS_PUB (R361). -/
def State.identity (s : State) : BitVec 256 := sha256 (hssPub s.enrol)

/-- The identity statement: its 144-byte body and the signature of leaf 0, made once per enrolment (R361). -/
def State.identityStatement (s : State) : List Byte :=
  let body := packBytes [(2, 1), (2, 0x9600), (1, 0xC0), (3, 0), (4, s.enrol), (4, 0)] ++ hssPub s.enrol ++
    beBytes 4 0 ++ linkPub s.enrol
  body ++ hssSign s.enrol 0 (ascii "IDENT" ++ body)

/-- The eight words of a register array, from 0. -/
def State.words8 (s : State) (r : Nat → Nat) : List Byte := (List.range 8).flatMap fun i => beBytes 4 (s.regs.get (r i)).toNat

/-- A SLOT_DIGEST (R362). -/
def State.slotDigest (s : State) (i : Nat) : BitVec 256 :=
  if i = 0 then sha256 Config.bootImage
  else if i ≤ 2 then (match Map.find s.fwu.slots (i - 1) with | some l => slotSha l | none => 0)
  else if i = 3 then
    (match s.fwu.own with
     | some f => if f.kind ≠ 1 ∨ f.image.isEmpty then 0 else sha256 f.image
     | none => 0)
  else match Map.find s.leg.slots (i - 4) with | some l => slotSha l | none => 0

/-- The statement body before LEAVES_LEFT, and after it (R362). -/
def State.attestBody (s : State) (nonce : List Byte) : List Byte × List Byte :=
  let flags := (if s.fld F.FWU_STAT.TRIAL = 1 then 1 else 0) + (if s.fld F.LEG_STAT.LEGAL_UPD = 1 then 2 else 0) +
    (if s.fld F.PAIR_STAT.ROLE = 2 then 4 else 0)
  let warp := match s.warp.active with | some w => sha256 w.bytes | none => 0
  (packBytes [(2, 1), (2, 0x9600), (1, 0xC0), (1, flags), (2, 0), (32, s.identity.toNat), (4, s.enrol),
    (4, s.fld F.LEG_UPD_CNT.COUNT), (8, s.evt.opSeconds.toNat), (4, s.evt.pwrCycles.toNat)],
   packBytes [(4, s.fld F.SYS_WARP_ACTIVE.SERIAL), (4, 0)] ++ nonce ++ s.words8 R.LEG_CHECK ++
    beBytes 32 warp.toNat ++ (List.range 7).flatMap fun i => beBytes 32 (s.slotDigest i).toNat)

/-- Signs a statement and gives its ITEM_DATA value, or its cause (R358, R362). -/
def State.attest (s : State) (readBack : Bool) (head tail : List Byte) : State × Except Nat (List Byte) :=
  let body := head ++ beBytes 4 s.leavesLeft ++ tail
  match s.takeLeaf readBack with
  | (s1, none) => (s1.fatal 6 0xF 0xFF Cause.INTERNAL, .error Cause.INTERNAL)
  | (s1, some g) => (s1, .ok ((⟨0x00B1, body ++ hssSign s.enrol g (ascii "ATTEST" ++ body)⟩ : Tlv).wire))

/-- An ATTEST_REQ item (R351, R359, R360, R362). [DEDUCED, log 115; unsafe] -/
def runAttestReq (readBack : Bool) (s : State) (r : ItemRef) (t : Tlv) : State × ItemEnd :=
  if !s.keysReady then (s, .failed Cause.ZEROISED)
  else if s.leavesLeft = 0 then (s, .failed Cause.LEAVES_EXHAUSTED)
  else if s.signsSpent then (s, .failed Cause.BUSY_RATE)
  else
    let b := s.attestBody t.value
    if s.fld F.KEY_STAT.HSS_READY = 0 ∨ !s.key.waiting.isEmpty then
      ({ s with key := { s.key with waiting := s.key.waiting ++ [⟨r.task, r.item, b.1, b.2⟩] } }, .waiting)
    else match s.attest readBack b.1 b.2 with
      | (s1, .ok v) => (s1, .done (some v))
      | (s1, .error c) => (s1, .failed c)

/-- Whether an input stands in its trigger state: MODE 1 and 3 trigger on a high level, 2 and 4 on a low
one (R279, R293). [PRESUMED, log 116; unsafe] -/
def triggersOn (mode : Nat) (level : Bool) : Bool :=
  (mode == 1 || mode == 3) && level || (mode == 2 || mode == 4) && !level

/-- An ENROL item (R355). -/
def runEnrol (s : State) (r : ItemRef) : State × ItemEnd :=
  let level := BitVec.ofNat 8 (s.fld F.PRT_TAMP_STAT.LEVEL)
  let tampered := (List.range 8).any fun t =>
    triggersOn ((s.prt.tampers.map fun e => e.mode).getD t 0) (level.getLsbD t)
  if !(r.msg.seat == 8 || s.localClear r.msg.seat) || !s.zeroised || tampered then (s, .failed Cause.REG_RANGE)
  else
    (({ s with power := { s.power with due := some ⟨0x06, s.now + 1000⟩ } } : State).flag F.KEY_STAT.ENROL_PENDING true,
      .done none)

/-- ATTEST: `readBack` as in R358, `levels` the last sampled levels of TAMP[0..7] (R355, R362). -/
def execAttest (m : Msg) (readBack : Bool) (levels : BitVec 8) (s : State) : Host.Outcome State Fault Refusal :=
  .next ((s.setF F.PRT_TAMP_STAT.LEVEL levels.toNat).serve 0x00B0 m fun t => t.taskCommand m (some 17)
    fun u r v => if v.type = 0x00B0 then runAttestReq readBack u r v else runEnrol u r)

/-- Serves the requests that wait while the tree of leaf N is complete (R359, R360). -/
def State.signWaiting (s : State) (readBack : Bool) : State :=
  s.key.waiting.foldl (fun (t : State) w =>
    if t.fld F.KEY_STAT.HSS_READY = 0 then t
    else
      let t1 := { t with key := { t.key with waiting := t.key.waiting.drop 1 } }
      if t1.leavesLeft = 0 then t1.endItem w.slot w.item Cause.LEAVES_EXHAUSTED
      else if t1.signsSpent then t1.endItem w.slot w.item Cause.BUSY_RATE
      else match t1.attest readBack w.head w.tail with
        | (t2, .ok v) => t2.endItem w.slot w.item 0 [itemData w.item v]
        | (t2, .error c) => t2.endItem w.slot w.item c) s

/-- HSS_TREE_JOB: the tree of leaf N, or else the next one, is complete; `readBack` as in R358 (R359). -/
def execHssTreeJob (readBack : Bool) (s : State) : Host.Outcome State Fault Refusal :=
  if !s.keysReady then .next s
  else
    let j := s.leaf / 32768
    let k := if s.key.trees.contains j then j + 1 else j
    let kept := s.key.trees.filter fun x => decide (j ≤ x)
    let trees := if k < 1024 ∧ !kept.contains k then kept ++ [k] else kept
    let s1 := ({ s with key := { s.key with trees := trees } } : State).flag F.KEY_STAT.HSS_READY (trees.contains j)
    .next (s1.signWaiting readBack)

/-! ### Random source (R348) -/

/-- RNG_HEALTH_FAIL: output stops until 1,024 consecutive samples pass. -/
def execRngHealthFail (s : State) : Host.Outcome State Fault Refusal :=
  .next ((((s.flag F.KEY_RNG.OK false).flag F.KEY_RNG.FAIL_SEEN true).bump F.KEY_RNG.FAIL_CNT).post Ev.RNG_FAIL [])

/-- RNG_OUTPUT_RESUME: 1,024 consecutive samples have passed, and output resumes. A command that needs
random bytes has stayed in its inbox meanwhile. -/
def execRngOutputResume (s : State) : Host.Outcome State Fault Refusal := .next (s.flag F.KEY_RNG.OK true)

/-- The random source delivers. -/
def State.randomOk (s : State) : Bool := s.fld F.KEY_RNG.OK == 1

/-! ### Zeroise (R349 to R353) -/

/-- The sources that assert the zeroise line, as bits of `KEY_ZSRC` (R349). -/
abbrev ZSource := BitVec 13

/-- Every session closes, pending handshakes with them (R351). -/
def State.closeSessions (s : State) : State :=
  { s with host := { s.host with ctxs := Map.mapVals (fun _ (c : Ctx) => { c with session := none, handshake := none }) s.host.ctxs } }

/-- The zeroise of R350, R351 and R353, but for the pair lanes: slots and helper data are cleared, the state
is ZEROISED, sessions close, waiting signatures fail and a pending enrolment is cleared. -/
def State.zeroise (s : State) (src : ZSource) : State :=
  let z := (s.regs.get R.KEY_ZSRC).toNat ||| src.toNat
  let r := s.regs.put R.KEY_ZSRC (BitVec.ofNat 32 z)
  let r1 := ((((r.setF F.KEY_STAT.STATE 2).flag F.KEY_STAT.ZEROISE_SEEN true).flag F.KEY_STAT.ENROL_PENDING false).flag
    F.KEY_STAT.HSS_READY false).setF F.PPY_STAT.VKEY 0
  let idents := RegFile.puts r1 ((List.range 8).map fun i => (R.KEY_IDENT i, 0))
  let due := match s.power.due with
    | some d => if d.cause = 0x06 then none else some d
    | none => none
  let s1 := { s with
    regs := idents
    ing := { s.ing with keys := [], vkeys := [] }
    key := { s.key with helper := false, arm := none, waiting := [] }
    power := { s.power with due := due } }
  let s2 := s.key.waiting.foldl (fun (t : State) w => t.endItem w.slot w.item Cause.ZEROISED) s1
  (s2.closeSessions.showSlots).post Ev.ZEROISE [b8 (z : Nat)]

end Sys2Proof.Machine
end

