-- ==== Sys2Proof/Machine/Queues.lean ====
section
/-! DEFINITION. The hardware queues and the lottery arbiter (R318 to R328). -/

namespace Sys2Proof.Machine

/-! ### Queues (R318 to R321) -/

/-- Whether a queue has stopped taking pushes for SAVE (R323). -/
def State.queueClosed (s : State) (e : QueueEntry) : Bool := decide (s.power.phase = .save) && e.flags.getLsbD 0

/-- QUEUE_PUSH: a word is stored with its parity, or refused on a full queue (R318 to R321). Only the sealed cores reach the
push port of the export queue, and they push the messages of their own steps (R20). -/
def execQueuePush (q : Nat) (w : BitVec 64) (s : State) : Host.Outcome State Fault Refusal :=
  .next (match s.queueEntry q with
    | none => s
    | some e =>
      let h := s.queue q
      if s.queueClosed e ∨ q = 0 then s
      else if 2 ^ e.depthLog2 ≤ h.words.length then
        ({ s with regs := (s.regs.flag (F.QUE_STAT.OVERRUN_SEEN q) true).bump (F.QUE_ERR_CNT.OVERRUN q) 1 } : State).post
          Ev.QUE_OVERRUN [b2 q]
      else s.setQueue q e.depthLog2 { h with words := h.words ++ [⟨w, true⟩] })

/-- The idle word of a queue (R320). -/
def State.idleWord (s : State) (q : Nat) : BitVec 64 :=
  BitVec.ofNat 64 ((s.regs.get (R.QUE_IDLE_HI q)).toNat * 2 ^ 32 + (s.regs.get (R.QUE_IDLE_LO q)).toNat)

/-- A pop from an empty queue (R320). -/
def State.underrun (s : State) (q : Nat) : State :=
  (s.flag (F.QUE_STAT.UNDERRUN q) true).send (.popped q (s.idleWord q) false true)

/-- A poisoned pop is counted and recorded (R321). -/
def State.poisoned (s : State) (q addr : Nat) : State :=
  ({ s with regs := (s.regs.bump (F.QUE_ERR_CNT.POISON q) 1).flag (F.QUE_STAT.POISON_SEEN q) true } : State).post
    Ev.QUE_POISON [b2 q, b8 addr]

/-- Bits set in 65 bits. -/
def ones65 (v : BitVec 65) : Nat := ((List.range 65).filter fun i => v.getLsbD i).length

/-- The consumer of a sealed queue discards the message whose next word was popped poisoned: of an exported one nothing is
left, a request is answered SEALED_REJECT (R217, R321). `s` holds the queue before the pop, and `w` is its next word. -/
def State.poisonMessage (s : State) (q : Nat) (w : BitVec 64) : State :=
  let read := s.readWords q
  let m := match s.headWords q with | some m => m | none => read ++ [w]
  let s1 := s.dropHead q m.length
  if q = 0 then s1 else s1.rejectRequest (messageOf m)

/-- A popped word reaches its consumer: of the two sealed queues, as part of a message (R217). -/
def State.takeWord (s : State) (q : Nat) (w : BitVec 64) : State :=
  if q < 2 then (s.setReadWords q (s.readWords q ++ [w])).refillQueues else s

/-- QUEUE_POP: `upset` are the bits of the stored word and its parity, highest bit, that have flipped in the
RAM (R318 to R321). [DEDUCED, log 99; unsafe] -/
def execQueuePop (q : Nat) (upset : BitVec 65) (s : State) : Host.Outcome State Fault Refusal :=
  .next (match s.queueEntry q with
    | none => s
    | some e =>
      let h := s.queue q
      let odd := ones65 upset % 2 == 1
      match h.words with
      | w :: _ =>
        let addr := e.base + h.rptr % 2 ^ e.depthLog2
        let bad := w.good == odd
        let data := w.data ^^^ upset.setWidth 64
        let s1 := if bad ∧ q < 2 then s.poisonMessage q w.data
          else (s.setQueue q e.depthLog2 (h.popped e.depthLog2 1)).takeWord q data
        let s2 := s1.send (.popped q data bad false)
        if bad then s2.poisoned q addr else s2
      | [] => s.underrun q)

/-- The durable queues at SAVE entry, the event queue among them (R323). [DEDUCED, log 56; unsafe] -/
def State.saveQueues (s : State) : State :=
  let l : List QueueEntry := match s.warp.active with
    | some w => w.queuePlan.queues.filter fun e => e.flags.getLsbD 0
    | none => []
  { s with que := { s.que with events := s.evt.queue, saved := l.foldl (fun m e => Map.set m e.queue (s.queue e.queue).words) [] } }

/-- Every queue empty, as after a reset (R14, R323). -/
def State.clearQueues (s : State) : State :=
  s.que.queues.foldl (fun t e => match s.queueEntry e.1 with
    | some x => t.setQueue e.1 x.depthLog2 {}
    | none => t) { s with que := { s.que with queues := [], holder := none, waiting := 0 } }

/-- The durable queues from what the save set or the newest checkpoint holds (R323, R434). -/
def State.loadQueues (s : State) : State :=
  let s1 := s.que.saved.foldl (fun t e => match s.queueEntry e.1 with
    | some x => t.setQueue e.1 x.depthLog2 ⟨e.2, 0⟩
    | none => t) s.clearQueues
  { s1 with evt := { s1.evt with queue := s.que.events } }

/-- The durable queues after a full start of a restore kind (R323). At plan levels 1 to 3 the newest checkpoint
stands in for the save set, and words pushed after it are lost (R434). After another reset every queue is
empty. -/
def State.restoreQueues (s : State) (restore level : Nat) : State :=
  let now := s.saveQueues
  let lost := decide (now.que.saved ≠ s.que.saved) || decide (now.que.events ≠ s.que.events)
  let s1 := if restore = 0 ∨ (restore = 2 ∧ level = 0)
    then ({ s.clearQueues with evt := { s.evt with queue := [] } } : State) else s.loadQueues
  let s2 := { s1 with que := { s1.que with saved := [], events := [] } }
  s2.postIf (restore != 0 && (if level = 0 then restore == 2 else lost)) Ev.QUE_LOST []

/-! ### The arbiter (R325 to R328) -/

/-- The tickets of a requester. -/
def State.tickets (s : State) (i : Nat) : Nat :=
  let w := s.regs.get (R.ARB_TICKETS (i / 4))
  fieldOf w (8 * (i % 4) + 7) (8 * (i % 4))

/-- The next state s of the draw (R325). -/
def lfsrNext (v : Word) : Word :=
  (v <<< 1) ||| (if xor (xor (v.getLsbD 31) (v.getLsbD 21)) (xor (v.getLsbD 1) (v.getLsbD 0)) then 1 else 0)

/-- The walk of R325 over the pending requesters with tickets. -/
def lotteryWalk : List (Nat × Nat) → Nat → Option Nat
  | [], _ => none
  | (i, t) :: l, r => if r < t then some i else lotteryWalk l (r - t)

/-- DRAINED, HELD, HOLDER and PENDING (R328). -/
def State.showArb (s : State) : State :=
  let held := s.que.holder.isSome
  let r := (s.regs.setF F.ARB_STAT.PENDING s.que.waiting.toNat).flag F.ARB_STAT.HELD held
  let r1 := if held then r.setF F.ARB_STAT.HOLDER (s.que.holder.getD 0) else r
  { s with regs := r1.flag F.ARB_STAT.DRAINED (s.fld F.ARB_CTL.FREEZE == 1 && !held) }

/-- A draw among the waiting requesters (R325, R326). -/
def State.draw16 (s : State) (cands : List (Nat × Nat)) : State :=
  let v := lfsrNext (s.que.seed.getD s.que.lfsr)
  let total := sumNat (fun c => c.2) cands
  match lotteryWalk cands (v.toNat % total) with
  | none => s
  | some i =>
    let r := ((s.regs.setF F.ARB_LFSR.STATE v.toNat).setF F.ARB_HOLD_PACE.PACE s.now).bump (F.ARB_GRANT_CNT.COUNT i) 1
    { s with
      que := { s.que with
        lfsr := v, seed := none, holder := some i
        waiting := s.que.waiting &&& ~~~ BitVec.ofNat 16 (2 ^ i) }
      regs := r }

/-- ARB_DRAW: `pending` are the requesters that wait in this cycle. The lottery draws where the complex is
free, not frozen, and one of them holds tickets (R325). -/
def execArbDraw (pending : BitVec 16) (s : State) : Host.Outcome State Fault Refusal :=
  let s1 := { s with que := { s.que with waiting := pending } }
  let cands := ((List.range 16).filter fun i => pending.getLsbD i && decide (0 < s.tickets i)).map fun i => (i, s.tickets i)
  .next ((if s.que.holder.isSome ∨ s.fld F.ARB_CTL.FREEZE = 1 ∨ cands.isEmpty then s1 else s1.draw16 cands).showArb)

/-- ARB_RELEASE: the holder releases the complex (R327). -/
def execArbRelease (s : State) : Host.Outcome State Fault Refusal :=
  .next ({ s with que := { s.que with holder := none } } : State).showArb

/-- A seed that loads at the next draw (R326). -/
def State.loadSeed (s : State) (v : Word) : State :=
  { s with que := { s.que with seed := some v }, regs := s.regs.put R.ARB_SEED v }

/-- A change of FREEZE is recorded (R328). -/
def State.setFreeze (s : State) (b : Bool) : State :=
  if (s.fld F.ARB_CTL.FREEZE == 1) = b then s
  else ((s.flag F.ARB_CTL.FREEZE b).post Ev.ARB_FREEZE [b8 (if b then 1 else 0)]).showArb

end Sys2Proof.Machine
end

