-- ==== Sys2Proof/Machine/RegEffect.lean ====
section
/-! DEFINITION. What a change of an RW register brings with it, by a write or by REG_INIT (R8, R34). -/

namespace Sys2Proof.Machine

/-- The index of an address in an array of registers. -/
def arrayIndex (base stride count addr : Nat) : Option Nat :=
  if base ≤ addr ∧ (addr - base) % stride = 0 ∧ (addr - base) / stride < count then some ((addr - base) / stride) else none

/-- A change of `PPY_LOW[u]` evaluates the STATE of every meter of the unit anew (R203). -/
def State.lowChanged (s : State) (u : Nat) : State :=
  s.ing.meters.foldl (fun (t : State) e => if e.2.prepay.u = u ∧ e.2.conf.flag 3 then t.creditChanged e.1 else t) s

/-- What a changed RW register brings with it: ING_KEYCACHE (R133), HOST_NOTICE_WIN (R70), ARB_CTL and ARB_SEED
(R326, R328), RFM_FLOOD and RFM_LPL (R251), PPY_LOW (R203), PPY_KEYPAD (R222). -/
def State.afterWrite (s : State) (addr : Nat) (old : Word) : State :=
  if addr = R.ING_KEYCACHE then s.resizeKeys
  else if addr = R.ARB_SEED then s.loadSeed (s.regs.get addr)
  else if addr = R.ARB_CTL then
    let on := s.fld F.ARB_CTL.FREEZE == 1
    ({ s with regs := s.regs.put addr old } : State).setFreeze on
  else if s.regs.get addr = old then s
  else if addr = R.RFM_FLOOD ∨ addr = R.RFM_LPL then s.paramsChanged
  else if addr = R.PPY_KEYPAD then
    if s.fld F.PPY_KEYPAD.TIMEOUT_S = fieldOf old F.PPY_KEYPAD.TIMEOUT_S.hi F.PPY_KEYPAD.TIMEOUT_S.lo then s else s.keypadCfg
  else match arrayIndex (R.HOST_NOTICE_WIN 0) 4 8 addr with
    | some c => s.pump c
    | none => match arrayIndex (R.PPY_LOW 0) 4 2 addr with
      | some u => s.lowChanged u
      | none => s

end Sys2Proof.Machine
end

