-- ==== Sys2Proof/Machine/Event.lean ====
section
/-! DEFINITION. The event recorder (R329 to R340). -/

namespace Sys2Proof.Machine

/-- The bytes of a payload (R332). -/
def payloadBytes (p : Payload) : List Byte := p.flatMap fun v => beBytes v.1 (unsignedOf v.1 v.2)

/-- The bytes of a record with LENGTH and CRC (R331). -/
def EvtRecord.bytes (r : EvtRecord) : List Byte :=
  let p := payloadBytes r.payload
  let body := packBytes [(2, 30 + p.length), (2, r.code), (4, r.seq.toNat), (6, r.opSeconds), (4, r.pwrCycles),
    (2, r.rep), (6, r.lastSeconds)] ++ p
  body ++ beBytes 4 (crc32c body)

/-- The key of a payload: the trailing pace of EV_PACE_OVERRUN and EV_PACE_DEADLINE is left out (R333). -/
def evtKey (code : Nat) (p : Payload) : Payload :=
  if code = Ev.PACE_OVERRUN ∨ code = Ev.PACE_DEADLINE then p.dropLast else p

/-- Whether a post is a repeat of a record within the window (R333). -/
def isRepeat (r : EvtRecord) (p : Post) (window : Nat) : Bool :=
  p.code != Ev.TIME_SET && p.code != Ev.TIME_MARK && p.code == r.code &&
  evtKey p.code p.payload == evtKey r.code r.payload && decide (p.opSeconds < r.opSeconds + window)

/-- Counts an EVENT notice that is not retained, with the sequence of its record (R72, R469). -/
def State.loseEventNotice (s : State) (c : Nat) (seq : Nat) (kind : Nat := 0x8003) (n : Nat := 1) : State :=
  let x := s.ctx c
  let l := if x.lost.any (fun e => e.kind == kind)
    then x.lost.map fun e => if e.kind = kind then
      { e with count := e.count + n, first := some (e.first.getD seq), last := some seq } else e
    else x.lost ++ [⟨kind, n, some seq, some seq⟩]
  s.setCtx c { x with lost := l }

/-- An EVENT notice with one EVENT_NOTE to the subscribers (R339). -/
def State.eventNotice (s : State) (r : EvtRecord) (closed : Bool) : State :=
  if ¬ (s.regs.get R.EVT_NOTICE_EN).getLsbD (r.code / 256) then s
  else (s.subscribers 0x8003).foldl (fun t c =>
    if (t.ctx c).full then t.loseEventNotice c r.seq.toNat
    else t.retain c 0x8003 [⟨0x00C2, packBytes [(1, if closed then 1 else 0), (3, 0)] ++ r.bytes⟩]) s

/-- EVENT_RECORD_CLOSE: the open record is appended and counted, with a closing notice when REPEAT is above
0; the MRAM copies stand until the append is durable (R334, R339). The log keeps every record.
[DESIGN CHOICE, log 183; unsafe] -/
def State.closeRecord (s : State) : State :=
  match s.evt.openRec with
  | none => s
  | some r =>
    let s1 := ({ s with evt := { s.evt with
      openRec := none, log := s.evt.log ++ [r], appended := s.evt.appended ++ [(s.now, r.seq)] } } : State).bump
        F.EVT_CLOSE_CNT.COUNT
    if 0 < r.rep then s1.eventNotice r true else s1

/-- The copy that does not hold the newest valid version is written (R333). -/
def EvtState.writeCopy (e : EvtState) (r : EvtRecord) : EvtState :=
  match e.copies with
  | (none, b) => { e with copies := (some r, b) }
  | (some a, none) => { e with copies := (some a, some r) }
  | (some a, some b) =>
    let firstNewer := decide (b.seq.toNat < a.seq.toNat) || (a.seq == b.seq && decide (b.rep < a.rep))
    if firstNewer then { e with copies := (some a, some r) } else { e with copies := (some r, some b) }

/-- Opens a record for a post, with its opening notice unless one with its TYPE and key was sent within
1,000 paces (R333, R339). -/
def State.openRecord (s : State) (p : Post) : State :=
  let seq := s.evt.seq + 1
  let r : EvtRecord := ⟨p.code, seq, p.opSeconds, p.pwrCycles, 0, p.opSeconds, p.payload⟩
  let key := evtKey p.code p.payload
  let recent := s.evt.notices.any fun n => n.1 == p.code && n.2.1 == key && decide (s.now < n.2.2 + 1000)
  let e := { s.evt with openRec := some r, seq := seq, seqOpen := true }
  let kept := s.evt.notices.filter fun n => decide (s.now < n.2.2 + 1000)
  let goes := (s.regs.get R.EVT_NOTICE_EN).getLsbD (p.code / 256) && !(s.subscribers 0x8003).isEmpty
  let s1 := { s with evt := { e.writeCopy r with
    notices := if recent || !goes then kept else kept ++ [(p.code, key, s.now)] } }
  if recent then s1 else s1.eventNotice r false

/-- Whether a post still waits that was posted together with a lost notice of a kind. -/
def State.lostPending (s : State) (c kind : Nat) : Bool := s.evt.queue.any fun p => p.lostFor.contains (c, kind)

/-- NOTICE_LOST for one kind (R469). -/
def State.noticeLost (s : State) (c : Nat) (l : LostCount) : State :=
  s.retain c 0x8006 [mkTlv 0x0007 [(2, l.kind), (2, 0), (4, l.count), (4, l.first.getD 0), (4, l.last.getD 0)]]

/-- Once the store is no longer full, one NOTICE_LOST per kind that has a count goes, when every post made together with
its notices has its record; the count then starts again (R72, R469). [DEDUCED, log 146; unsafe] -/
def State.flushLost (s : State) (c : Nat) : State :=
  let x := s.ctx c
  if x.full then s
  else
    let ready := x.lost.filter fun l => !s.lostPending c l.kind
    ready.foldl (fun (t : State) l => if l.count = 0 then t else t.noticeLost c l)
      (s.setCtx c { x with lost := x.lost.filter fun l => s.lostPending c l.kind })

/-- Notices that were posted with a post and not retained take the SEQ of its record, and may go (R469). -/
def State.noteLost (s : State) (p : Post) : State :=
  let s1 := p.lostFor.foldl (fun t l => t.loseEventNotice l.1 s.evt.seq.toNat l.2 0) s
  p.lostFor.foldl (fun t l => t.flushLost l.1) s1

/-- One post becomes a repeat or opens a record (R333, R334). -/
def State.handlePost (s : State) (p : Post) : State :=
  let again := match s.evt.openRec with
    | some r => isRepeat r p (s.fld F.EVT_WINDOW.SECONDS)
    | none => false
  let s1 := match s.evt.openRec with
    | some r =>
      if again then
        let r1 := { r with rep := r.rep + 1, lastSeconds := p.opSeconds, payload := p.payload }
        let s1 := { s with evt := ({ s.evt with openRec := some r1 } : EvtState).writeCopy r1 }
        if r1.rep = 65535 then s1.closeRecord else s1
      else s.closeRecord.openRecord p
    | none => s.openRecord p
  s1.noteLost p

/-- EVENT_POST: the oldest post of the event queue is handled; with room again the discards are recorded
(R329). -/
def execEventPost (s : State) : Host.Outcome State Fault Refusal :=
  match s.evt.queue with
  | [] => .next s
  | p :: rest =>
    let s1 := ({ s with evt := { s.evt with queue := rest } } : State).handlePost p
    .next (if s1.evt.drops = 0 then s1
      else ({ s1 with evt := { s1.evt with drops := 0 } } : State).post Ev.EVT_DROPPED [b4 s1.evt.drops])

/-- EVENT_DROP: the newest post found the event queue full: it is discarded and counted (R329).
[DEDUCED, log 77; unsafe] -/
def execEventDrop (s : State) : Host.Outcome State Fault Refusal :=
  match s.evt.queue.getLast? with
  | none => .next s
  | some p =>
    let s1 := { s with
      evt := { s.evt with queue := s.evt.queue.dropLast, drops := s.evt.drops + 1 }
      regs := (s.regs.bump F.EVT_DROP_CNT.COUNT 1).flag F.EVT_STAT.DROP_SEEN true }
    .next (p.lostFor.foldl (fun t l => t.flushLost l.1) s1)

/-- The open record closes once operating seconds have reached the end of its window (R334). -/
def State.windowEnds (s : State) : State :=
  match s.evt.openRec with
  | none => s
  | some r => if r.opSeconds + s.fld F.EVT_WINDOW.SECONDS ≤ s.evt.opSeconds.toNat then s.closeRecord else s

/-- EVENT_WINDOW_EXPIRY (R334). -/
def execEventWindowExpiry (s : State) : Host.Outcome State Fault Refusal := .next s.windowEnds

/-- EV_TIME_MARK (R336). -/
def State.timeMark (s : State) : State :=
  let q := s.fld F.CLK_QUAL.QUALITY
  s.post Ev.TIME_MARK [b8 (if q = 3 then 0 else s.timeMs), b1 q, b8 s.now]

/-- The second of a boundary counts, with EV_TIME_MARK at each hour of operation (R330, R336). -/
def State.countSecond (s : State) : State :=
  if s.evt.secondDue then
    let n := s.evt.opSeconds + 1
    let s1 := { s with evt := { s.evt with opSeconds := n, secondDue := false } }
    if n.toNat % 3600 = 0 then s1.timeMark else s1
  else s

/-- OPERATING_SECOND (R330). -/
def execOperatingSecond (s : State) : Host.Outcome State Fault Refusal := .next s.countSecond

/-! ### EVENT_READ (R337) -/

/-- Zero bytes that pad a record to a multiple of 4. -/
def pad4 (l : List Byte) : List Byte := l ++ List.replicate ((4 - l.length % 4) % 4) 0

/-- TLV 0x00C1 EVENT_DATA from records given as (sequence, bytes). -/
def eventData (all : List (Nat × List Byte)) (first n openSeq : Nat) : Tlv :=
  let oldest := match all with | x :: _ => x.1 | [] => 0
  let newest := match all.getLast? with | some x => x.1 | none => 0
  let l := (all.filter fun x => decide (max first oldest ≤ x.1)).take n
  let openLast := match l.getLast? with | some x => openSeq != 0 && x.1 == openSeq | none => false
  ⟨0x00C1, packBytes [(4, oldest), (4, newest), (2, l.length), (1, if openLast then 1 else 0), (1, 0)] ++
    l.flatMap fun x => pad4 x.2⟩

/-- The records of the device log, the open one last. -/
def State.deviceLog (s : State) : List (Nat × List Byte) :=
  (s.evt.log ++ s.evt.openRec.toList).map fun r => (r.seq.toNat, r.bytes)

/-- The stored legal log with CHAIN (R218). -/
def State.legalRecords (s : State) : List (Nat × List Byte) :=
  s.leg.log.map fun e => (e.1.lseq, e.1.bytes ++ beBytes 16 e.2.toNat)

/-- An EVENT_SPAN item; log 1 needs LEGAL_READ (R50, R337). -/
def runEventSpan (s : State) (r : ItemRef) (t : Tlv) : State × ItemEnd :=
  let first := fieldAt t.value 4 4
  let n := fieldAt t.value 8 2
  let wire (x : Tlv) : List Byte := packBytes [(2, x.type), (2, x.value.length)] ++ pad4 x.value
  if fieldAt t.value 0 1 = 1 then
    if s.hasRight r.msg.seat 19 then (s, .done (some (wire (eventData s.legalRecords first n 0))))
    else (s, .failed Cause.RIGHTS)
  else
    let openSeq := match s.evt.openRec with | some x => x.seq.toNat | none => 0
    (s, .done (some (wire (eventData s.deviceLog first n openSeq))))

/-- EVENT_READ (R337). -/
def execEventRead (m : Msg) (s : State) : Host.Outcome State Fault Refusal :=
  .next (s.serve 0x00C0 m fun t => t.taskCommand m (some 12) runEventSpan)

/-! ### Restart (R335) -/

/-- The newer of two copies: higher SEQ, then higher REPEAT. -/
def newerCopy : Option EvtRecord × Option EvtRecord → Option EvtRecord
  | (some a, some b) =>
    if a.seq.toNat < b.seq.toNat ∨ (a.seq = b.seq ∧ a.rep < b.rep) then some b else some a
  | (some a, none) => some a
  | (none, b) => b

/-- EVENT_RECORDER_RESTART: an append that was not durable is gone, and the record is taken from its MRAM copy: closed and
appended, or declared lost; then EV_START and EV_TIME_MARK stand before the restored queue (R335). The notices sent within
1,000 paces still count over a warm restart, through which the pace runs on (R29). [DEDUCED, log 101; unsafe] -/
def State.eventRestart (s : State) (cause restore : Nat) (warm : Bool) : State :=
  let rest := s.evt.queue
  let log := s.evt.log.filter fun r => !s.evt.appended.any fun a => a.2 == r.seq
  let e := { s.evt with
    openRec := none, copies := (none, none), seqOpen := false, queue := [], log := log, appended := []
    notices := if warm then s.evt.notices else [], drops := 0 }
  let s1 := match newerCopy s.evt.copies with
    | some r =>
      if log.any fun x => x.seq == r.seq then { s with evt := e }
      else ({ s with evt := { e with
        log := log ++ [r], appended := [(s.now, r.seq)], copies := s.evt.copies, seqOpen := true } } : State).bump
          F.EVT_CLOSE_CNT.COUNT
    | none =>
      if s.evt.seqOpen then
        (({ s with evt := e } : State).flag F.EVT_STAT.OPEN_LOST_SEEN true).post Ev.EVT_OPEN_LOST [b4 s.evt.seq.toNat]
      else { s with evt := e }
  let s2 := (s1.post Ev.START [b2 cause, b1 restore]).timeMark
  ({ s2 with evt := { s2.evt with queue := s2.evt.queue ++ rest } } : State).flag F.EVT_STAT.READY true

end Sys2Proof.Machine
end

