-- ==== Sys2Proof/Machine/Signed.lean ====
section
/-! DEFINITION. Named keys and signature blocks of Warp and firmware images (R33, R364, R365). -/

namespace Sys2Proof.Machine

/-- The name of a key: the first 8 bytes of SHA-256 over it (R33, R365). -/
def keyIdOf (key : List Byte) : Nat := (sha256 key).toNat / 2 ^ 192

/-- Whether a signature of an algorithm over a message verifies under a key: 1 ECDSA P-256, 2 HSS (R33, R347). -/
def verifies (alg : Nat) (key sig msg : List Byte) : Bool :=
  if alg = 1 then ecdsaVerify key sig msg else alg == 2 && hssVerify key sig msg

/-- The key bytes of an entry. -/
def SignerEntry.keyBytes (e : SignerEntry) : List Byte := e.key.take e.keyLen

/-- A SIGNERS entry that keeps its constraints. -/
def SignerEntry.ok (e : SignerEntry) : Bool :=
  ((e.alg == 1 && e.keyLen == 64) || (e.alg == 2 && e.keyLen == 60)) && (e.key.drop e.keyLen).all (· == 0) && e.reservedZero

/-- The keys a SIGNERS section names: algorithm and key. -/
def signerKeys (l : List SignerEntry) : List (Nat × List Byte) := (l.filter SignerEntry.ok).map fun e => (e.alg, e.keyBytes)

/-- Whether `n` bytes are 0. -/
def zerosAt (l : List Byte) (off n : Nat) : Bool := fieldAt l off n == 0

/-- The signature blocks, each padded to a multiple of 8: one or two, to the end of the area. -/
def parseSigs : Nat → List Byte → Option (List SigBlock)
  | _, [] => some []
  | 0, _ :: _ => none
  | n + 1, l =>
    let k := fieldAt l 2 2
    let whole := 16 + (k + 7) / 8 * 8
    if k ≤ 8192 ∧ zerosAt l 4 4 ∧ whole ≤ l.length ∧ zerosAt (l.take whole) (16 + k) (whole - 16 - k) then
      (parseSigs n (l.drop whole)).map fun r => ⟨fieldAt l 0 2, BitVec.ofNat 64 (fieldAt l 8 8), (l.drop 16).take k⟩ :: r
    else none

/-- Whether a block names a key, and whether it verifies under it. -/
def SigBlock.names (b : SigBlock) (k : Nat × List Byte) : Bool := b.keyId.toNat == keyIdOf k.2
def SigBlock.counts (b : SigBlock) (msg : List Byte) (k : Nat × List Byte) : Bool :=
  b.names k && b.alg == k.1 && verifies b.alg k.2 b.sig msg

end Sys2Proof.Machine
end

