-- ==== Sys2Proof/Machine/Fw.lean ====
section
/-! DEFINITION. Firmware images, the transfer and activation of own firmware, meter images and campaigns (R364
to R384). -/

namespace Sys2Proof.Machine

/-- Algorithm and key of the key registered for a model, none where none is (R365, R378). -/
def State.modelKey (s : State) (model : Nat) : Option (Nat × List Byte) :=
  match Map.find s.fwu.modelKeys model with
  | some (a, k) => if a = 0 then none else some (a, k.take (if a = 1 then 64 else 60))
  | none => none

/-- The bytes the signatures of an image cover: the manifest part (R364). -/
def FwTransfer.signed (f : FwTransfer) : List Byte := (f.part 0 f.man.firstPayload).take f.man.manLen

/-- The signature blocks of a transfer: two of a countersigned image, else one; a meter image whose model has no key may
have none. None where the area does not hold them (R364, R365). -/
def State.fwSigs (s : State) (f : FwTransfer) : Option (List SigBlock) :=
  let m := f.man
  let want := if m.countersigned then 2 else 1
  let area := (f.part m.sigBlock (m.total - m.sigBlock)).take (m.imageLen - m.sigOffset)
  match parseSigs want area with
  | some l =>
    if l.length = want ∨ (l.isEmpty ∧ m.kind = 3 ∧ (s.modelKey m.hwType).isNone ∧ !m.countersigned) then some l else none
  | none => none

/-- Check 4: the first signature is made under the right key and verifies (R365). A signature under a model that has no key
does not count. [DEDUCED, log 148; safe] -/
def State.firstSigOk (s : State) (f : FwTransfer) (l : List SigBlock) : Bool :=
  let m := f.man
  match l with
  | [] => m.kind == 3
  | g :: _ =>
    if m.kind = 3 then (match s.modelKey m.hwType with | some k => g.counts f.signed k | none => false)
    else Config.fuseKeys.any fun k => g.counts f.signed (2, k)

/-- Check 5: the countersignature, where present or required (R365). -/
def State.counterSigOk (s : State) (f : FwTransfer) (l : List SigBlock) : Bool :=
  match l with
  | _ :: g :: _ => (match s.warp.active with
    | some w => (signerKeys w.signers).any (g.counts f.signed)
    | none => false)
  | _ => s.fld F.FWU_POLICY.COUNTERSIGN == 0

/-- Checks 1 to 6 over a transfer whose manifest and signature blocks are held: the first that fails.
[DEDUCED, log 120; unsafe] -/
def State.fwCheck (s : State) (f : FwTransfer) : Option Nat :=
  let m := f.man
  let unit (u : Nat) : Nat := fieldAt (f.part 0 m.firstPayload) (256 + 32 * u) 32
  if !m.ok f.kind then some Cause.FW_MANIFEST
  else match s.fwSigs f with
    | none => some Cause.FW_MANIFEST
    | some l =>
      if (if m.kind = 3 then decide (0xFF < m.hwType) else m.hwType != 0x9600 || decide (0xC0 < fieldAt m 10 1)) then
        some Cause.FW_HW_TYPE
      else if 0 < m.unitCount ∧ !((List.range m.unitCount).any fun u => unit u == s.identity.toNat) then some Cause.FW_UNIT
      else if !s.firstSigOk f l then some Cause.FW_SIGNATURE
      else if !s.counterSigOk f l then some Cause.FW_COUNTERSIGN
      else if m.kind ≠ 3 ∧ m.rollback < s.fld (F.FWU_RB.COUNTER (m.kind - 1)) then some Cause.FW_ROLLBACK
      else none

/-- Check 7 of one payload block (R366). -/
def FwTransfer.blockOk (f : FwTransfer) (n : Nat) (data : List Byte) : Bool :=
  let m := f.man
  let check := fieldAt (f.part 0 m.firstPayload) (256 + 32 * m.unitCount + 16 * (n - m.firstPayload)) 16
  check == (sha256 data).toNat / 2 ^ 128

/-- The payload blocks of a complete transfer that fail check 7. -/
def FwTransfer.badBlocks (f : FwTransfer) : List Nat :=
  (f.blocks.filter fun b => f.man.isPayload b.1 && !f.blockOk b.1 b.2).map fun b => b.1

/-- IMAGE_DIGEST holds (R366). -/
def FwTransfer.digestOk (f : FwTransfer) : Bool :=
  let m := f.man
  let payload := (f.part m.firstPayload m.blocks).take (fieldAt m 28 4)
  fieldAt m 72 32 == (sha256 payload).toNat

/-! ### Transfers (R367 to R370) -/

/-- EV_FW_REJECT with the kind and the cause (R366). -/
def State.fwReject (s : State) (kind cause : Nat) : State := s.post Ev.FW_REJECT [b1 kind, b2 cause]

/-- STAGE of a transfer: 0 EMPTY; 1 RECEIVING; 2 VERIFIED; 3 READY. -/
def FwTransfer.stage (f : FwTransfer) : Nat := if f.ready then 3 else if f.verified then 2 else 1

/-- The boot record and the transfer record as they stand (R371). -/
def State.bootRecord (s : State) (seq : Nat) : BootRecord :=
  let head := match s.fwu.own with | some f => sha256 f.man | none => 0
  { seq := seq, active := s.fld F.FWU_STAT.ACTIVE_SLOT, slotA := s.fld F.FWU_SLOT_STAT.SLOT_A
    slotB := s.fld F.FWU_SLOT_STAT.SLOT_B, stage := s.fld F.FWU_STAT.STAGE
    actPending := s.fld F.FWU_STAT.ACT_PENDING == 1, trial := s.fld F.FWU_STAT.TRIAL == 1, trialStart := s.fwu.trialStart
    kind := s.fld F.FWU_STAT.KIND, target := match s.fwu.own with | some f => f.target | none => 0
    total := s.fld F.FWU_XFER.TOTAL, held := s.fld F.FWU_XFER.HELD, header := head, ok := true }

/-- The copy a start uses: the valid one with the higher SEQ (R371). -/
def newestBoot (c : Option BootRecord × Option BootRecord) : Option BootRecord :=
  match c.1.filter BootRecord.ok, c.2.filter BootRecord.ok with
  | some a, some b => if a.seq < b.seq then some b else some a
  | some a, none => some a
  | none, b => b

/-- Writes the transfer region: the copy that is not the newest takes the record with SEQ one higher (R371). -/
def State.writeBoot (s : State) : State :=
  let seq := (s.fwu.bootSeq + 1) % 2 ^ 64
  let r := s.bootRecord seq
  let c := s.fwu.boots
  let first := match newestBoot c with | some k => c.2 == some k | none => true
  { s with fwu := { s.fwu with bootSeq := seq, boots := if first then (some r, c.2) else (c.1, some r) } }

/-- The own transfer with its registers. -/
def State.showOwn (s : State) (f : Option FwTransfer) : State :=
  let (k, st, tot, held) := match f with
    | some x => (x.kind, x.stage, x.man.total, x.blocks.length)
    | none => (0, 0, 0, 0)
  let r := ((s.regs.setF F.FWU_STAT.KIND k).setF F.FWU_STAT.STAGE st).setF F.FWU_XFER.TOTAL tot
  let version := match f with
    | some x => if x.kind = 1 then x.man.version else 0
    | none => 0
  { s with
    fwu := { s.fwu with own := f }
    regs := (r.setF F.FWU_XFER.HELD held).put (R.FWU_VERSION 2) (BitVec.ofNat 32 version) }

/-- Writes the own transfer with its registers and its record (R371). -/
def State.setOwn (s : State) (f : Option FwTransfer) : State := (s.showOwn f).writeBoot

/-- The lowest sealed slot that is neither ACTIVE nor FALLBACK. -/
def State.freeSealed (s : State) : Option Nat :=
  (List.range 3).find? fun i => s.fld (F.LEG_SLOT.STATE i) != 1 && s.fld (F.LEG_SLOT.STATE i) != 2

/-- How a file block was taken. -/
inductive FileVerdict where
  | done
  | failed (cause : Nat)
  /-- Checks 1 to 6 failed: the transfer is discarded. -/
  | rejected (cause : Nat)
  deriving DecidableEq, Repr

/-- Takes a file block into a transfer, as R368 states; none where the transfer is discarded. -/
def State.takeFile (s : State) (f : FwTransfer) (n : Nat) (data : List Byte) : State × Option FwTransfer × FileVerdict :=
  let m := f.man
  if m.total ≤ n ∨ (n = 0 ∧ data.take 256 ≠ m) then (s, some f, .failed Cause.REG_RANGE)
  else if m.isPayload n ∧ !f.verified then (s, some f, .failed Cause.FW_MANIFEST)
  else if (Map.find f.blocks n).isSome then (s, some f, .done)
  else if m.isPayload n then
    if f.blockOk n data then (s, some { f with blocks := Map.set f.blocks n data }, .done)
    else (s.bump F.FWU_BLK_FAIL_CNT.COUNT, some f, .failed Cause.FW_BLOCK_CHECK)
  else
    let g := { f with blocks := Map.set f.blocks n data }
    if !g.partsHeld then (s, some g, .done)
    else match s.fwCheck g with
      | none => (s.post Ev.FW_MANIFEST [], some { g with verified := true }, .done)
      | some c => (s.fwReject g.kind c, none, .rejected c)

/-- How an item ends by a verdict. -/
def FileVerdict.ends : FileVerdict → ItemEnd
  | .done => .done none
  | .failed c => .failed c
  | .rejected c => .failed c

/-- The first block of a transfer is its block 0, whose header gives F; before it any other block fails with
FW_MANIFEST. -/
def State.beginFile (s : State) (kind target n : Nat) (data : List Byte) : State × Option FwTransfer × FileVerdict :=
  let f : FwTransfer := ⟨kind, target, [(0, data)], false, false⟩
  if n ≠ 0 then (s, none, .failed Cause.FW_MANIFEST)
  else if !f.man.ok kind then (s.fwReject kind Cause.FW_MANIFEST, none, .failed Cause.FW_MANIFEST)
  else if !f.partsHeld then (s, some f, .done)
  else match s.fwCheck f with
    | none => (s.post Ev.FW_MANIFEST [], some { f with verified := true }, .done)
    | some c => (s.fwReject kind c, none, .rejected c)

/-- Whether the path of an item is permitted (R369). -/
def State.fwPath (s : State) (seat : Nat) : Bool :=
  if seat = 8 then s.fld F.FWU_POLICY.USB == 1 else s.fld F.FWU_POLICY.REMOTE == 1

/-- An FW_FILE item (R368). [DEDUCED, log 117; unsafe] -/
def runFwFile (s : State) (r : ItemRef) (t : Tlv) : State × ItemEnd :=
  let kind := fieldAt t.value 0 1
  let n := fieldAt t.value 4 4
  let data := t.value.drop 8
  if !s.fwPath r.msg.seat then (s, .failed Cause.FW_PATH)
  else match s.fwu.own with
    | some f =>
      if f.kind ≠ kind then (s, .failed Cause.REG_RANGE)
      else
        let x := s.takeFile f n data
        (x.1.setOwn x.2.1, x.2.2.ends)
    | none =>
      if kind ≠ 1 ∧ kind ≠ 2 then (s, .failed Cause.REG_RANGE)
      else match (if kind = 2 then s.freeSealed else some 0) with
        | none => (s, .failed Cause.REG_RANGE)
        | some target =>
          let x := s.beginFile kind target n data
          match x.2.1 with
          | some f =>
            let s1 := x.1.setOwn (some f)
            let s2 := if kind = 2 then
                ({ s1 with leg := { s1.leg with slots := Map.erase s1.leg.slots target } } : State).setF
                  (F.LEG_SLOT.STATE target) 0
              else s1
            (s2, x.2.2.ends)
          | none => (x.1, x.2.2.ends)

/-- FW_QUERY (R367). Bit k of the bitmap is block first + k, as a 256-bit number. [DEDUCED, log 118; unsafe] -/
def runFwQuery (s : State) (t : Tlv) : State × ItemEnd :=
  let first := fieldAt t.value 4 4
  match s.fwu.own with
  | some f =>
    if f.kind = fieldAt t.value 0 1 then
      let total := f.man.total
      let missing := (List.range total).find? fun k => (Map.find f.blocks k).isNone
      let bits := (List.range 256).foldl (fun v k => if (Map.find f.blocks (first + k)).isSome then v + 2 ^ k else v) 0
      (s, .done (some (packBytes [(1, f.stage), (3, 0), (4, total), (4, f.blocks.length),
        (4, missing.getD 0xFFFFFFFF), (32, bits)])))
    else (s, .done (some (packBytes [(1, 0), (3, 0), (4, 0), (4, 0), (4, 0xFFFFFFFF), (32, 0)])))
  | none => (s, .done (some (packBytes [(1, 0), (3, 0), (4, 0), (4, 0), (4, 0xFFFFFFFF), (32, 0)])))

/-- The commit checks 1 to 7 and IMAGE_DIGEST over the stored image (R366, R370): the transfer after them, and
the cause with the file block it names. -/
def State.fwCommit (s : State) (f : FwTransfer) : FwTransfer × Option (Nat × Option Nat) :=
  if !f.partsHeld ∨ f.blocks.length < f.man.total then (f, some (Cause.FW_MANIFEST, none))
  else match s.fwCheck f with
    | some c => (f, some (c, none))
    | none => match f.badBlocks with
      | b :: _ => ({ f with blocks := Map.erase f.blocks b, ready := false }, some (Cause.FW_BLOCK_CHECK, some b))
      | [] => if f.digestOk then ({ f with ready := true }, none) else (f, some (Cause.FW_BLOCK_CHECK, none))

/-- How a commit item ends; a block that fails is counted and named in CAUSE_DETAIL (R370). -/
def State.commitEnds (s : State) (kind : Nat) (x : Option (Nat × Option Nat)) : State × ItemEnd :=
  match x with
  | none => (s.post Ev.FW_READY [], .done none)
  | some (c, none) => (s.fwReject kind c, .failed c)
  | some (c, some b) => ((s.bump F.FWU_BLK_FAIL_CNT.COUNT).fwReject kind c, .failedWith c [causeDetail c b])

/-- A committed sealed image stands in its slot as received (R370). -/
def State.sealedReceived (s : State) (f : FwTransfer) : State :=
  let m := f.man
  (({ s with leg := { s.leg with slots := Map.set s.leg.slots f.target f.image } } : State).setF
    (F.LEG_SLOT.STATE f.target) 3).setF (F.LEG_SLOT.VERSION f.target) m.version

/-- Begins the commit checks over `blocks` file blocks, in pieces of 16 a pace; the item waits for them (R370).
[DESIGN CHOICE, log 119; unsafe] -/
def State.beginCommit (s : State) (image : Option Nat) (r : ItemRef) (blocks : Nat) : State × ItemEnd :=
  let job : FwCommitJob := ⟨image, r.task, r.item, s.now + (blocks + 15) / 16⟩
  ({ s with fwu := { s.fwu with commits := s.fwu.commits ++ [job] } }, .waiting)

/-- An FW_COMMIT item (R370). [DEDUCED, log 121; unsafe] -/
def runFwCommit (s : State) (r : ItemRef) (t : Tlv) : State × ItemEnd :=
  if !s.fwPath r.msg.seat then (s, .failed Cause.FW_PATH)
  else match s.fwu.own with
    | some f =>
      if f.kind ≠ fieldAt t.value 0 1 then (s, .failed Cause.FW_MANIFEST)
      else s.beginCommit none r f.man.total
    | none => (s, .failed Cause.FW_MANIFEST)

/-- A split of the pair ends, and both members serve as R377 leaves them. -/
def State.endSplit (s : State) : State :=
  if s.pair.split = 0 then s
  else
    let s1 := { s with pair := { s.pair with split := 0 } }
    if s.fld F.PAIR_STAT.SYNC = 3 then s1.setF F.PAIR_STAT.SYNC 0 else s1

/-- An FW_ABORT item (R367). -/
def runFwAbort (s : State) (t : Tlv) : State × ItemEnd :=
  if s.fld F.FWU_STAT.ACT_PENDING = 1 ∨ s.leg.act.isSome then (s, .failed Cause.REG_RANGE)
  else match s.fwu.own with
    | some f => if f.kind = fieldAt t.value 0 1 then ((s.setOwn none).endSplit, .done none) else (s.endSplit, .done none)
    | none => (s.endSplit, .done none)

/-- Writes ACT_PENDING and schedules the activation restart (R372). -/
def State.scheduleAct (s : State) (at_ : Nat ⊕ Nat) : State :=
  (({ s with fwu := { s.fwu with actAt := some at_ } } : State).flag F.FWU_STAT.ACT_PENDING true).writeBoot

/-- An FW_ACT item (R372, R376, R377). -/
def runFwAct (s : State) (r : ItemRef) (t : Tlv) : State × ItemEnd :=
  let kind := fieldAt t.value 0 1
  let mode := fieldAt t.value 1 1
  let time := fieldAt t.value 4 8
  if !s.fwPath r.msg.seat then (s, .failed Cause.FW_PATH)
  else if s.fld F.PAIR_STAT.SYNC = 3 ∧ s.pair.split ≠ 3 then (s, .failed Cause.PAIR_SPLIT)
  else match s.fwu.own with
    | none => (s, .failed Cause.REG_RANGE)
    | some f =>
      if f.kind ≠ kind ∨ !f.ready ∨ 1 < mode then (s, .failed Cause.REG_RANGE)
      else if kind = 2 then
        if s.fld (F.LEG_SLOT.STATE f.target) = 3 then
          (s.request 0x0105 (packBytes [(1, f.target), (7, 0)]) (.item r.task r.item), .waiting)
        else (s, .failed Cause.REG_RANGE)
      else if s.fld F.FWU_STAT.TRIAL = 1 then (s, .failed Cause.REG_RANGE)
      else if mode = 1 ∧ s.timePoor then (s, .failed Cause.TIME_QUALITY)
      else if s.fld F.PAIR_STAT.PROTECTED = 1 ∧ s.fld F.PAIR_STAT.ROLE = 2 then
        let s1 := (s.record .split).setF F.PAIR_STAT.SYNC 3
        (({ s1 with pair := { s1.pair with split := 1 } } : State).flag F.PAIR_STAT.PROTECTED false, .done none)
      else
        let s1 := if s.pair.split = 3 then s.endSplit
          else if s.fld F.PAIR_STAT.ROLE = 1 then
            (({ s with pair := { s.pair with split := 1 } } : State).setF F.PAIR_STAT.SYNC 3).flag F.PAIR_STAT.PROTECTED false
          else s
        (s1.scheduleAct (if mode = 0 then .inl (s.now + 1000) else .inr time), .done none)

/-- One FW_BLOCK item (R367). -/
def runFwBlock (s : State) (r : ItemRef) (t : Tlv) : State × ItemEnd :=
  if t.type = 0x0080 then runFwFile s r t
  else if t.type = 0x0081 then runFwQuery s t
  else if t.type = 0x0082 then runFwCommit s r t
  else if t.type = 0x0083 then runFwAbort s t
  else runFwAct s r t

/-- FW_BLOCK (R367). -/
def execFwBlock (m : Msg) (s : State) : Host.Outcome State Fault Refusal :=
  .next (s.serve 0x0080 m fun t => t.taskCommand m (some 9) runFwBlock)

/-! ### Activation and trial (R371 to R375) -/

/-- SLOT_STATE of a main slot. -/
def State.slotState (s : State) (i v : Nat) : State :=
  if i = 0 then s.setF F.FWU_SLOT_STAT.SLOT_A v else s.setF F.FWU_SLOT_STAT.SLOT_B v

/-- ACTIVE. -/
def State.activeSlot (s : State) : Nat := s.fld F.FWU_STAT.ACTIVE_SLOT

/-- The version that runs is that of a slot. -/
def State.bootSlot (s : State) (i : Nat) : State :=
  let v := match Map.find s.fwu.slots i with | some l => Manifest.version l | none => 0
  { s with regs := s.regs.put R.SYS_FW_VERSION (BitVec.ofNat 32 v) }

/-- The boot record before the first write: slot A is good, and there is no transfer. [DESIGN CHOICE, log 147; unsafe] -/
def BootRecord.first : BootRecord :=
  { seq := 0, active := 0, slotA := 1, slotB := 0, stage := 0, actPending := false, trial := false, trialStart := 0
    kind := 0, target := 0, total := 0, held := 0, header := 0, ok := true }

/-- What the boot loader reads at a start: the valid copy with the higher SEQ, without the newest one where a cut tore it;
the transfer it names goes on with the blocks held (R368, R371). -/
def State.loadBoot (s : State) (torn : Bool) : State :=
  let c := s.fwu.boots
  let first := match newestBoot c with | some k => c.1 == some k | none => true
  let left := if !torn then c else if first then (none, c.2) else (c.1, none)
  let r := (newestBoot left).getD BootRecord.first
  let own := s.fwu.own.filter fun f => r.stage != 0 && f.kind == r.kind && f.target == r.target && sha256 f.man == r.header
  let k := own.map fun f => { f with verified := decide (2 ≤ r.stage), ready := r.stage == 3 }
  let s1 := (((s.slotState 0 r.slotA).slotState 1 r.slotB).setF F.FWU_STAT.ACTIVE_SLOT r.active).flag F.FWU_STAT.TRIAL r.trial
  let s2 := (s1.flag F.FWU_STAT.ACT_PENDING r.actPending).showOwn k
  { s2 with fwu := { s2.fwu with
    boots := left, bootSeq := r.seq, trialStart := r.trialStart, commits := [], healthy := none, wasHealthy := false
    confirmed := false, actAt := none } }

/-- `FWU_VERSION` and `LEG_SLOT.VERSION` show what the slots of NOR hold. -/
def State.showVersions (s : State) : State :=
  let version (o : Option (List Byte)) : Nat := match o with | some l => Manifest.version l | none => 0
  let r := (List.range 2).foldl (fun (r : RegFile) i => r.put (R.FWU_VERSION i) (BitVec.ofNat 32 (version (Map.find s.fwu.slots i)))) s.regs
  { s with regs := (List.range 3).foldl (fun (r : RegFile) i => r.setF (F.LEG_SLOT.VERSION i) (version (Map.find s.leg.slots i))) r }

/-- The steps of R373 at a start with ACT_PENDING set. -/
def State.fwActivate (s : State) : State :=
  let base := ({ s with fwu := { s.fwu with actAt := none } } : State).flag F.FWU_STAT.ACT_PENDING false
  match s.fwu.own with
  | none => base
  | some f =>
    match (s.fwCommit f).2 with
    | some (c, _) => ((base.setOwn none).fwReject 1 c).bootSlot s.activeSlot
    | none =>
      let o := 1 - s.activeSlot
      let m := f.man
      let s1 := { base with fwu := { base.fwu with
        slots := Map.set base.fwu.slots o f.image
        trialStart := s.evt.opSeconds.toNat, healthy := none, wasHealthy := false, confirmed := false
        trialMin := s.fld F.FWU_TRIAL.MIN_S, trialMax := s.fld F.FWU_TRIAL.SECONDS
        trialHost := s.fld F.FWU_POLICY.HOST_CONFIRM == 1 } }
      let s2 := ((s1.slotState o 3).flag F.FWU_STAT.TRIAL true).post Ev.FW_ACTIVATED []
      (({ s2 with regs := s2.regs.put (R.FWU_VERSION o) (BitVec.ofNat 32 m.version) } : State).bootSlot o).writeBoot

/-- Fallback: the trial slot is bad and ACTIVE boots (R375). -/
def State.fwFallback (s : State) (cause : Nat) : State :=
  let s1 := ((s.slotState (1 - s.activeSlot) 4).flag F.FWU_STAT.TRIAL false).bootSlot s.activeSlot
  let s2 := if s.pair.split = 1 then s1.endSplit else s1
  s2.writeBoot.post Ev.FW_FALLBACK [b2 cause]

/-- ACTIVATION_RESTART: at its boundary the scheduled activation takes a warm restart (R372). -/
def execActivationRestart (s : State) : Host.Outcome State Fault Refusal :=
  let due : Bool := match s.fwu.actAt with
    | some (.inl p) => decide (p ≤ s.now)
    | some (.inr t) => decide (t ≤ s.timeSec)
    | none => false
  .next (if s.fld F.FWU_STAT.ACT_PENDING = 1 ∧ due then { s with power := { s.power with start := some (0x09, true) } }
    else s)

/-- The two conditions of R374 hold now. -/
def State.trialHealthy (s : State) : Bool :=
  s.fld F.STO_STAT.READY == 1 && s.fld F.ING_STAT.READY == 1 && s.fld F.BAL_STAT.READY == 1 &&
  s.regs.get R.PACE_FAULT == 0

/-- Follows the conditions of R374 at a pace boundary. -/
def State.trackTrial (s : State) : State :=
  if s.fld F.FWU_STAT.TRIAL = 0 then s
  else if s.trialHealthy then
    { s with fwu := { s.fwu with healthy := some (s.fwu.healthy.getD s.now), wasHealthy := true } }
  else { s with fwu := { s.fwu with healthy := none } }

/-- CONFIRM is taken once the conditions of R374 first held (R374). [DEDUCED, log 123; unsafe] -/
def State.confirmOk (s : State) : Bool := s.fld F.FWU_STAT.TRIAL == 1 && s.fwu.wasHealthy

/-- TRIAL_CONFIRMATION: the trial slot becomes ACTIVE, and `FWU_RB[0]` rises to its ROLLBACK (R374). -/
def execTrialConfirmation (s : State) : Host.Outcome State Fault Refusal :=
  let held : Bool := match s.fwu.healthy with
    | some p => decide (p + s.fwu.trialMin * 1000 ≤ s.now)
    | none => false
  if s.fld F.FWU_STAT.TRIAL = 1 ∧ held ∧ s.trialHealthy ∧ (!s.fwu.trialHost || s.fwu.confirmed) then
    let o := 1 - s.activeSlot
    let rb := match Map.find s.fwu.slots o with | some l => Manifest.rollback l | none => 0
    let s1 := ((s.slotState 0 1).slotState 1 1).setF F.FWU_STAT.ACTIVE_SLOT o
    let s2 := (s1.flag F.FWU_STAT.TRIAL false).setF (F.FWU_RB.COUNTER 0) (max rb (s.fld (F.FWU_RB.COUNTER 0)))
    let s3 := s2.writeBoot.post Ev.FW_CONFIRMED []
    .next (if s.pair.split = 2 then s3.endSplit else s3)
  else .next s

/-- TRIAL_TIMEOUT: a trial unconfirmed for SECONDS takes a warm restart with cause FW_TRIAL, at which it falls
back (R375). -/
def execTrialTimeout (s : State) : Host.Outcome State Fault Refusal :=
  .next (if s.fld F.FWU_STAT.TRIAL = 1 ∧ s.fwu.trialStart + s.fwu.trialMax ≤ s.evt.opSeconds.toNat then
      { s with power := { s.power with start := some (0x0A, true) } }
    else s)

/-! ### Meter images (R378) -/

/-- Whether a campaign scheduled or running names an image slot. -/
def State.imageInUse (s : State) (i : Nat) : Bool :=
  s.fwu.camps.any fun c => (c.2.state == 1 || c.2.state == 2) && c.2.image == i

/-- Writes an image slot. -/
def State.setImage (s : State) (i : Nat) (f : Option FwTransfer) : State :=
  { s with fwu := { s.fwu with images := match f with
    | some x => Map.set s.fwu.images i x
    | none => Map.erase s.fwu.images i } }

/-- A MIMG_FILE item. [DEDUCED, log 122; unsafe] -/
def runMimgFile (s : State) (r : ItemRef) (t : Tlv) : State × ItemEnd :=
  let i := fieldAt t.value 0 1
  let n := fieldAt t.value 4 4
  let data := t.value.drop 8
  if !s.fwPath r.msg.seat then (s, .failed Cause.FW_PATH)
  else if 8 ≤ i ∨ s.imageInUse i then (s, .failed Cause.REG_RANGE)
  else
    let x := match Map.find s.fwu.images i with
      | some f => s.takeFile f n data
      | none => s.beginFile 3 i n data
    (x.1.setImage i x.2.1, x.2.2.ends)

/-- A MIMG_COMMIT item. -/
def runMimgCommit (s : State) (r : ItemRef) (t : Tlv) : State × ItemEnd :=
  let i := fieldAt t.value 0 1
  if !s.fwPath r.msg.seat then (s, .failed Cause.FW_PATH)
  else if 8 ≤ i then (s, .failed Cause.REG_RANGE)
  else match Map.find s.fwu.images i with
    | none => (s, .failed Cause.FW_MANIFEST)
    | some f => s.beginCommit (some i) r f.man.total

/-- A MODEL_KEY item. -/
def runModelKey (s : State) (t : Tlv) : State × ItemEnd :=
  let alg := fieldAt t.value 1 1
  if 2 < alg then (s, .failed Cause.REG_RANGE)
  else
    let key := (alg, t.value.drop 4)
    ({ s with fwu := { s.fwu with modelKeys := Map.set s.fwu.modelKeys (fieldAt t.value 0 1) key } }, .done none)

/-- COMMIT CHECKS COMPLETE: the checks of one job over the stored image, and the end of its item (R366, R370). -/
def State.endCommit (s : State) (j : FwCommitJob) : State :=
  let held := match j.image with | some i => Map.find s.fwu.images i | none => s.fwu.own
  let (s1, e) := match j.image, held with
    | _, none => (s, ItemEnd.failed Cause.FW_MANIFEST)
    | some i, some f => let x := s.fwCommit f; (s.setImage i (some x.1)).commitEnds 3 x.2
    | none, some f =>
      let x := s.fwCommit f
      let s1 := s.setOwn (some x.1)
      (if x.2.isNone ∧ f.kind = 2 then s1.sealedReceived x.1 else s1).commitEnds f.kind x.2
  s1.settle j.task j.item e

/-- The commit checks that are complete at this boundary (R370). -/
def State.commitsDue (s : State) : State :=
  let due := s.fwu.commits.filter fun j => decide (j.due ≤ s.now)
  due.foldl State.endCommit { s with fwu := { s.fwu with commits := s.fwu.commits.filter fun j => decide (s.now < j.due) } }

/-! ### Campaigns (R378 to R383) -/

/-- A final state of a target. -/
def CampTarget.final (t : CampTarget) : Bool := t.state == 4 || t.state == 5

/-- Targets in a state. -/
def Campaign.count (c : Campaign) (v : Nat) : Nat := (c.targets.filter fun t => t.2.state == v).length

/-- Writes a campaign with its registers. -/
def State.setCamp (s : State) (i : Nat) (c : Campaign) : State :=
  let r := ((s.regs.setF (F.FWU_CAMP_STAT.STATE i) c.state).setF (F.FWU_CAMP_STAT.IMAGE i) c.image).setF
    (F.FWU_CAMP_STAT.TARGETS i) c.targets.length
  { s with
    fwu := { s.fwu with camps := Map.set s.fwu.camps i c }
    regs := (r.setF (F.FWU_CAMP_DONE.ACTIVATED i) (c.count 4)).setF (F.FWU_CAMP_ROUND.ROUNDS i) (min c.rounds 0xFFFF) }

/-- The payload blocks of the image a campaign sends. -/
def State.campBlocks (s : State) (c : Campaign) : Nat :=
  match Map.find s.fwu.images c.image with
  | some f => f.man.blocks
  | none => 0

/-- A CAMPAIGN item. -/
def runCampaign (s : State) (t : Tlv) : State × ItemEnd :=
  let v := t.value
  let i := fieldAt v 0 1
  let image := fieldAt v 1 1
  let media := fieldAt v 2 1
  let start := fieldAt v 4 8
  let act := fieldAt v 12 8
  let fin := fieldAt v 20 8
  let rate := fieldAt v 28 2
  let busy : Bool := match Map.find s.fwu.camps i with | some c => c.state == 1 || c.state == 2 | none => false
  let ready : Bool := match Map.find s.fwu.images image with | some f => f.ready | none => false
  let engine : Bool := match s.warp.active with
    | some w => w.pacePlan.any fun e => e.engine == 0x14 && decide (e.lane ≤ 7)
    | none => false
  if 8 ≤ i ∨ 3 < media ∨ media = 0 ∨ !(decide (start < act) && decide (act < fin)) ∨ rate = 0 ∨ 600 < rate ∨ busy ∨
      !ready ∨ !engine then (s, .failed Cause.REG_RANGE)
  else if s.timePoor then (s, .failed Cause.TIME_QUALITY)
  else if start * 1000000000 < s.clk.ns + 60000000000 then (s, .failed Cause.REG_RANGE)
  else
    let gen := (s.fwu.generation + 1) % 2 ^ 29
    let c : Campaign := { image := image, media := media, start := start, activate := act, finish := fin, rate := rate, id := gen * 8 + i, key := s.free % 2 ^ 128, state := 1, targets := [], block := 0, seg := 0, sentAt := none }
    let s1 := s.draw
    (({ s1 with fwu := { s1.fwu with generation := gen } } : State).setCamp i c, .done none)

/-- Sends a target its FW_OFFER (R379). -/
def State.offer (s : State) (i meter : Nat) : State :=
  match Map.find s.fwu.camps i with
  | none => s
  | some c =>
    let t := Map.adjust c.targets meter fun (x : CampTarget) =>
      if x.state = 0 then { x with state := 1, offered := c.rounds } else x
    (s.setCamp i { c with targets := t }).tellMeter meter (s.offerBody c)

/-- A CAMPAIGN_TARGET item. -/
def runCampaignTarget (s : State) (t : Tlv) : State × ItemEnd :=
  let i := fieldAt t.value 0 1
  let meter := fieldAt t.value 4 4
  match Map.find s.fwu.camps i with
  | none => (s, .failed Cause.REG_RANGE)
  | some c =>
    let model := match Map.find s.fwu.images c.image with | some f => f.man.hwType | none => 0x10000
    let r := s.meter meter
    if c.state = 3 then (s, .failed Cause.REG_RANGE)
    else if !(decide (r.state = .active) && r.conf.protocol == 1 && r.conf.model == model) then
      (s, .failed Cause.METER_UNKNOWN)
    else if (Map.find c.targets meter).isSome then (s, .done none)
    else
      let new : CampTarget := { missing := BitVec.ofNat 2048 (2 ^ (s.campBlocks c) - 1) }
      let s1 := s.setCamp i { c with targets := Map.set c.targets meter new }
      (if c.state = 2 then s1.offer i meter else s1, .done none)

/-- Unfinished targets fail, the campaign ends, and EV_FW_CAMPAIGN records the counts (R383). -/
def State.endCampaign (s : State) (i : Nat) (c : Campaign) : State :=
  let close (t : CampTarget) : CampTarget :=
    if t.final then t else { t with state := 5, cause := if t.heard then Cause.CANCELLED else Cause.LINK_NONE }
  let c1 := { c with state := 3, targets := Map.mapVals (fun _ (t : CampTarget) => close t) c.targets }
  (s.setCamp i c1).post Ev.FW_CAMPAIGN [b8 (i : Nat), b4 (c1.count 4), b4 (c1.count 5)]

/-- A CAMPAIGN_STOP item, with FW_CANCEL to each target not yet activated. -/
def runCampaignStop (s : State) (t : Tlv) : State × ItemEnd :=
  let i := fieldAt t.value 0 1
  match Map.find s.fwu.camps i with
  | none => (s, .failed Cause.REG_RANGE)
  | some c =>
    if c.state = 3 then (s, .failed Cause.REG_RANGE)
    else
      let s1 := c.targets.foldl (fun (u : State) e =>
        if e.2.state = 4 then u else u.tellMeter e.1 (packBytes [(1, 0x41), (3, 0), (4, c.id)])) s
      (s1.endCampaign i c, .done none)

/-- One 16-byte record of CAMPAIGN_GET. -/
def State.targetBytes (s : State) (c : Campaign) (e : Nat × CampTarget) : List Byte :=
  let n := s.campBlocks c
  let missing := ((List.range n).filter fun k => e.2.missing.getLsbD k).length
  packBytes [(4, e.1), (1, e.2.state), (1, 0), (2, e.2.cause), (2, n - missing), (2, 0), (4, e.2.version)]

/-- A CAMPAIGN_GET item: targets from the first index on, ascending. -/
def runCampaignGet (s : State) (t : Tlv) : State × ItemEnd :=
  let n := fieldAt t.value 8 2
  match Map.find s.fwu.camps (fieldAt t.value 0 1) with
  | none => (s, .failed Cause.REG_RANGE)
  | some c =>
    if n = 0 ∨ 1024 < n then (s, .failed Cause.REG_RANGE)
    else
      let l := (c.targets.filter fun e => decide (fieldAt t.value 4 4 ≤ e.1)).take n
      (s, .done (some (l.flatMap fun e => s.targetBytes c e)))

/-- One FW_METER item (R378). -/
def runFwMeter (s : State) (r : ItemRef) (t : Tlv) : State × ItemEnd :=
  if t.type = 0x0088 then runModelKey s t
  else if t.type = 0x0089 then runMimgFile s r t
  else if t.type = 0x008A then runMimgCommit s r t
  else if t.type = 0x008B then runCampaign s t
  else if t.type = 0x008C then runCampaignTarget s t
  else if t.type = 0x008D then runCampaignStop s t
  else runCampaignGet s t

/-- FW_METER (R378). A command with a CAMPAIGN item waits while the random source delivers nothing (R348).
[DEDUCED, log 124; unsafe] -/
def execFwMeter (m : Msg) (s : State) : Host.Outcome State Fault Refusal :=
  let draws := m.tlvs.any fun t => t.type == 0x008B
  if draws && !s.randomOk then .next s
  else .next (s.serve 0x0081 m fun t => t.taskCommand m (some 10) runFwMeter)

/-- CAMPAIGN_BEGIN: from START each target is sent its FW_OFFER (R379). -/
def execCampaignBegin (c : Nat) (s : State) : Host.Outcome State Fault Refusal :=
  .next (match Map.find s.fwu.camps c with
    | none => s
    | some x =>
      if x.state = 1 ∧ x.start ≤ s.timeSec then
        x.targets.foldl (fun (t : State) e => t.offer c e.1) (s.setCamp c { x with state := 2 })
      else s)

/-- One segment of a block: the CAROUSEL or REPAIR body (R380). -/
def segmentBody (type seg block id : Nat) (data : List Byte) : List Byte :=
  packBytes [(1, type), (1, seg), (2, block), (4, id), (4, crc32c data), (4, 0)] ++ (data.drop (256 * seg)).take 256

/-- The payload block of a campaign's image. -/
def State.campBlock (s : State) (c : Campaign) (b : Nat) : List Byte :=
  match Map.find s.fwu.images c.image with
  | some f => Map.findD f.blocks (f.man.firstPayload + b) []
  | none => []

/-- Sends a CAROUSEL segment on the media of a campaign: a DOWN flood on every MESH or DUAL radio, and a
BROADCAST at priority 3 on every MESH power-line channel (R381). The header of the broadcast is that of DATA to 0xFFFF, and its
MIC, for which no key is stated, a free value. [DESIGN CHOICE, log 163; unsafe] -/
def State.sendSegment (s : State) (c : Campaign) : State :=
  let x := (s.epochDue).takeCounter
  let body := segmentBody 0x42 c.seg c.block c.id (s.campBlock c c.block)
  let sealed_ := sealBody (beBytes 16 c.key) (beBytes 4 c.id ++ beBytes 4 0) x.2 body
  let radio := if c.media % 2 = 1 then x.1.queueFlood ⟨.short 0xFFFF, true, sealed_⟩ else x.1
  let mac := macHeader 0 false 0 0 0xFFFF 0xFFFE 0 ++ sealed_ ++ beBytes 4 radio.free
  if c.media / 2 % 2 = 1 then radio.meshChans.foldl (fun (t : State) k => t.queueFrame k 3 0xFFFF [] none mac) radio.draw
  else radio

/-- The segment after this one, and whether the round ends with it. -/
def Campaign.advance (c : Campaign) (blocks : Nat) : Campaign :=
  if c.seg < 15 then { c with seg := c.seg + 1 }
  else if c.block + 1 < blocks then { c with seg := 0, block := c.block + 1 }
  else { c with seg := 0, block := 0, rounds := c.rounds + 1 }

/-- CAROUSEL_SEGMENT: between START and END, at RATE segments a minute, while a target is not final (R381). -/
def execCarouselSegment (c : Nat) (s : State) : Host.Outcome State Fault Refusal :=
  match Map.find s.fwu.camps c with
  | none => .next s
  | some x =>
    let due : Bool := match x.sentAt with | some p => decide (p * x.rate + 60000 ≤ s.now * x.rate) | none => true
    let active := x.state == 2 && decide (x.start ≤ s.timeSec) && decide (s.timeSec < x.finish)
    if active ∧ due ∧ x.targets.any fun t => !t.2.final then
      let s1 := s.sendSegment x
      match Map.find s1.fwu.camps c with
      | none => .next s1
      | some y => .next (s1.setCamp c { y.advance (s.campBlocks y) with sentAt := some s.now })
    else .next s

/-- What an FW_STATUS says: STATE, CAMPAIGN_ID, VERSION, FIRST and MISSING (R379). -/
structure FwReport where
  state : Nat
  id : Nat
  version : Nat
  first : Nat
  missing : BitVec 256
  deriving DecidableEq, Repr

/-- The report of an opened FW_STATUS. -/
def fwReportOf (l : List Byte) : FwReport :=
  ⟨fieldAt l 1 1, fieldAt l 12 4, fieldAt l 16 4, fieldAt l 20 2, BitVec.ofNat 256 (fieldAt l 24 32)⟩

/-- A target moves as an FW_STATUS says (R382, R383). -/
def CampTarget.status (t : CampTarget) (m : FwReport) (version blocks : Nat) : CampTarget :=
  let mask := ((BitVec.ofNat 2048 (2 ^ 256 - 1)) <<< m.first)
  let seen := (t.missing &&& ~~~ mask) ||| ((m.missing.setWidth 2048) <<< m.first)
  let t1 := { t with heard := true, version := m.version, missing := seen &&& BitVec.ofNat 2048 (2 ^ blocks - 1) }
  if t.final then { t with heard := true, version := m.version }
  else if m.state = 0 then { t1 with state := 2 }
  else if m.state = 1 then { t1 with state := 3, missing := 0 }
  else if m.state = 2 then { t1 with state := 5, cause := Cause.FW_BLOCK_CHECK }
  else if m.state = 3 then
    (if m.version = version then { t1 with state := 4, cause := Cause.OK, missing := 0 } else t1)
  else { t1 with state := 5, cause := Cause.PROTOCOL }

/-- REPAIR segments of up to four missing blocks, lowest first (R382). -/
def State.repair (s : State) (i meter : Nat) (c : Campaign) (t : CampTarget) : State :=
  let blocks := ((List.range (s.campBlocks c)).filter fun b => t.missing.getLsbD b).take 4
  (blocks.flatMap fun b => (List.range 16).map fun g => (b, g)).foldl (fun (u : State) p =>
    u.tellMeter meter (segmentBody 0x43 p.2 p.1 c.id (s.campBlock c p.1))) (s.setCamp i c)

/-- A status of a meter that is a target of the campaign it names. -/
def State.applyStatus (s : State) (meter : Nat) (m : FwReport) : State :=
  let i := m.id % 8
  match Map.find s.fwu.camps i with
  | none => s
  | some c => match Map.find c.targets meter with
    | none => s
    | some t =>
      if c.id ≠ m.id ∨ c.state ≠ 2 then s
      else
        let version := match Map.find s.fwu.images c.image with | some f => f.man.version | none => 0
        let t1 := t.status m version (s.campBlocks c)
        let c1 := { c with targets := Map.set c.targets meter t1 }
        if m.state = 0 ∧ t1.state = 2 ∧ t1.offered < c.rounds ∧ t1.missing ≠ 0 then s.repair i meter c1 t1
        else s.setCamp i c1

/-- FW_STATUS: the oldest FW_STATUS received is authenticated and counter-checked as a reading message is (R131,
R134, R379), and moves its target. -/
def execFwStatus (s : State) : Host.Outcome State Fault Refusal :=
  match takeInbox 0x24 s.rad.inbox with
  | none => .next s
  | some (m, rest) =>
    .next (match ({ s with rad := { s.rad with inbox := rest } } : State).openFrame 0x24 m.frame with
      | (s1, none) => s1
      | (s1, some (i, l, _)) => (s1.takeFrame i m.frame).applyStatus i (fwReportOf l))

/-- Targets whose record became FREE or whose MODEL changed fail (R383). -/
def State.dropTargets (s : State) (c : Campaign) : Campaign :=
  let model := match Map.find s.fwu.images c.image with | some f => f.man.hwType | none => 0x10000
  { c with targets := Map.mapVals (fun k (t : CampTarget) =>
      let r := s.meter k
      if !t.final && (decide (r.state = .free) || r.conf.model != model) then
        { t with state := 5, cause := Cause.METER_UNKNOWN }
      else t) c.targets }

/-- CAMPAIGN_END: targets whose record became FREE or whose MODEL changed fail; at END unfinished targets fail and the
campaign ends (R383). -/
def execCampaignEnd (c : Nat) (s : State) : Host.Outcome State Fault Refusal :=
  .next (match Map.find s.fwu.camps c with
    | none => s
    | some x =>
      let y := s.dropTargets x
      if x.state = 2 ∧ x.finish ≤ s.timeSec then s.endCampaign c y
      else if x.state = 2 then s.setCamp c y
      else s)

end Sys2Proof.Machine
end

