-- ==== Sys2Proof/Machine/Pair.lean ====
section
/-! DEFINITION. Pair operation (R385 to R408): link, ledger, digests, roles, switch-over; and the zeroise line,
which takes the pair link down (R349 to R352). -/

namespace Sys2Proof.Machine

/-- PAIR_PLAN of the active image. -/
def State.pairPlan (s : State) : Option PairPlan :=
  match s.warp.active with
  | some w => w.pairPlan
  | none => none

/-- This member's number: the place of its identity in MEMBER_IDENT. -/
def State.memberNo (s : State) : Option Nat :=
  match s.pairPlan with
  | some p => (List.range 2).find? fun m => p.idents[m]? == some s.identity
  | none => none

def State.roleNow (s : State) : Nat := s.fld F.PAIR_STAT.ROLE
def State.syncNow (s : State) : Nat := s.fld F.PAIR_STAT.SYNC

/-- The short identity: bytes 0 to 3 (R361). -/
def shortIdent (v : BitVec 256) : Nat := v.toNat / 2 ^ 224

/-- A PAIR notice (R403, R405). -/
def State.pairNotice (s : State) : State :=
  s.broadcast 0x8007 [mkTlv 0x00E1 [(1, s.fld F.PAIR_STAT.MEMBER), (1, s.roleNow)]] false

/-- A withheld output is released: a body to a meter goes to transmission on both members, what leaves a port only on the
one that `sends` (R398). -/
def State.releaseOne (sends : Bool) (s : State) : Output → State
  | .envelope i body => { s with ing := { s.ing with toMeter := s.ing.toMeter ++ [(i, body)] } }
  | o => if sends then { s with out := s.out ++ [o] } else s

/-- Releases the withheld outputs of the paces that `go`; the others wait on (R398). -/
def State.releaseThose (s : State) (sends : Bool) (go : Nat → Bool) : State :=
  (s.pair.held.filter fun e => go e.1).foldl (fun (t : State) e => t.releaseOne sends e.2)
    { s with pair := { s.pair with held := s.pair.held.filter fun e => !go e.1 } }

/-- Releases those of the paces up to p. -/
def State.releaseHeld (s : State) (p : Nat) : State := s.releaseThose (s.roleNow == 2) fun q => decide (q ≤ p)

/-- Releases everything withheld. -/
def State.releaseAll (s : State) : State := s.releaseThose true fun _ => true

/-- The pair is no longer in step: the active releases every output at once (R398). -/
def State.outOfStep (s : State) (sync : Nat) : State :=
  let s1 := (s.setF F.PAIR_STAT.SYNC sync).flag F.PAIR_STAT.PROTECTED false
  ({ s1 with pair := { s1.pair with mismatch := none } } : State).releaseThose (s.roleNow == 2) fun _ => true

/-! ### Link (R386, R389) -/

/-- The link goes down: the lane keys are gone. A standby in step keeps what it withholds, for a takeover of the next paces
(R405). [DEDUCED, log 177; unsafe] -/
def State.pairLinkDown (s : State) : State :=
  let inStep := s.roleNow == 1 && s.syncNow == 2
  let s1 := { s with pair := { s.pair with
    keys := none, tagFails := [], downAt := if inStep then some s.now else s.pair.downAt } }
  if s.syncNow = 0 ∨ s.syncNow = 3 then s1
  else if inStep then (s1.setF F.PAIR_STAT.SYNC 0).flag F.PAIR_STAT.PROTECTED false
  else s1.outOfStep 0

/-- LANE_CHANGE: a lane goes up or down; or, with `tagFailed`, a frame of the link failed its tag, the sixteenth
within 1,000 paces of which takes the link down (R386). -/
def execLaneChange (lane : Nat) (up tagFailed : Bool) (s : State) : Host.Outcome State Fault Refusal :=
  if s.pairPlan.isNone ∨ 2 ≤ lane then .next s
  else if tagFailed then
    let l := s.now :: s.pair.tagFails.filter fun p => decide (s.now < p + 1000)
    let s1 := { s with pair := { s.pair with tagFails := l } }
    .next (if 16 ≤ l.length then s1.pairLinkDown else s1)
  else
    let f := if lane = 0 then F.PAIR_STAT.LANE0 else F.PAIR_STAT.LANE1
    if (s.fld f == 1) = up then .next s
    else
      let s1 := (((s.flag f up).flag (F.PRT_ROLE.UP (8 + lane)) up).bump F.PAIR_LINK_CNT.COUNT).post Ev.PAIR_LINK []
      .next (if s1.fld F.PAIR_STAT.LANE0 = 0 ∧ s1.fld F.PAIR_STAT.LANE1 = 0 then s1.pairLinkDown else s1)

/-- HSS_PUB and LINK_PUB of a statement, and whether it is an identity statement that verifies (R361). -/
def PairPeer.hssPub (q : PairPeer) : List Byte := (q.statement.drop 16).take 60
def PairPeer.linkPub (q : PairPeer) : List Byte := (q.statement.drop 80).take 64
def PairPeer.verifies (q : PairPeer) : Bool :=
  let body := q.statement.take 144
  body.length == 144 && fieldAt body 0 2 == 1 && fieldAt body 2 2 == 0x9600 &&
    hssVerify q.hssPub (q.statement.drop 144) (ascii "IDENT" ++ body)

/-- The lane keys of R386 from Z and the nonces of members 0 and 1. -/
def laneKeys (z n0 n1 : List Byte) : List Byte × List Byte :=
  (kdf z (ascii "PAIR 0TO1") (n0 ++ n1) 32, kdf z (ascii "PAIR 1TO0") (n0 ++ n1) 32)

/-- PAIR_LINK_UP: the members exchange statements and nonces; the link stands when the partner is the one
PAIR_PLAN names and the reference is common (R386, R389). -/
def execPairLinkUp (peer : PairPeer) (s : State) : Host.Outcome State Fault Refusal :=
  match s.pairPlan, s.memberNo with
  | some p, some m =>
    let lanes := s.fld F.PAIR_STAT.LANE0 == 1 || s.fld F.PAIR_STAT.LANE1 == 1
    if !lanes || s.pair.keys.isSome || !s.keysReady then .next s
    else
      let nonce := beBytes 16 (Config.free s.drawn)
      let s1 := s.drawLocal.send (.pairHello s.identityStatement nonce)
      let ident := sha256 peer.hssPub
      if !peer.refOk then .next (s1.post Ev.PAIR_REF [])
      else if !peer.verifies || p.idents[1 - m]? != some ident then
        .next (s1.post Ev.PAIR_PARTNER [b8 (shortIdent ident : Nat)])
      else match ecdh (linkPrivate s.enrol) (ecPoint peer.linkPub) with
        | none => .next (s1.post Ev.PAIR_PARTNER [b8 (shortIdent ident : Nat)])
        | some z =>
          let keys := if m = 0 then laneKeys z nonce peer.nonce else laneKeys z peer.nonce nonce
          .next { s1 with pair := { s1.pair with keys := some keys, downAt := none } }
  | _, _ => .next s

/-! ### Roles (R385, R388, R403) -/

/-- The member becomes active: it asserts ACT_OUT and drives the shared outputs. -/
def State.becomeActive (s : State) (takeover : Bool) : State :=
  ({ s with pair := { s.pair with actOut := true, shared := true, byTakeover := takeover, missed := 0 } } : State).setF
    F.PAIR_STAT.ROLE 2

/-- The member becomes standby and asks for a resynchronisation where the link is up (R401, R403). -/
def State.becomeStandby (s : State) : State :=
  let s1 := { s with pair := { s.pair with
    actOut := false, shared := false, byTakeover := false, resync := none, stored := [], missed := 0, downAt := none } }
  (s1.setF F.PAIR_STAT.ROLE 1).setF F.PAIR_STAT.SYNC (if s.linkUp then 1 else 0)

/-- Member-local commands: ATTEST, EVENT_READ and DUMP_READ (R395). -/
def memberLocal (opcode : Nat) : Bool := opcode == 0x00B0 || opcode == 0x00C0 || opcode == 0x00D0

/-- Items of member-local commands that this member serves (`mine`), or its partner does, and that have not ended fail with
PAIR_SWITCH (R407). -/
def State.failLocal (s : State) (mine : Bool) : State :=
  s.host.tasks.foldl (fun (t : State) e =>
    if e.2.here == mine && memberLocal e.2.opcode then
      (e.2.todo ++ e.2.running).foldl (fun (u : State) i => u.endItem (handleOf e.1 e.2.gen) i Cause.PAIR_SWITCH) t
    else t) s

/-- The member is out of service; its sessions are lost (R385, R387, R399, R407). -/
def State.becomeOut (s : State) : State :=
  let s1 := ((s.failLocal true).closeSessions.setF F.PAIR_STAT.SYNC 0).flag F.PAIR_STAT.PROTECTED false
  ({ s1 with pair := { s1.pair with
      actOut := false, shared := false, held := [], mismatch := none, downAt := none, leaving := 0 } } : State).setF
    F.PAIR_STAT.ROLE 3

/-- A member that PAIR_PLAN does not name takes no role; it serves as a single TY9600 with its shared ports released
(R385). -/
def State.noRole (s : State) : State := s.setF F.PAIR_STAT.ROLE 3

/-- ROLE_DECISION: after reset a member takes its role by the level of ACT_IN (R385, R403). -/
def execRoleDecision (actIn : Bool) (s : State) : Host.Outcome State Fault Refusal :=
  match s.pairPlan with
  | none => .next s
  | some p =>
    let s0 := s.flag F.PAIR_STAT.ACT_IN actIn
    if s.roleNow ≠ 0 then .next s0
    else match s.memberNo with
      | none => .next ((s0.noRole).post Ev.PAIR_PARTNER [b8 (shortIdent s.identity : Nat)])
      | some m =>
        let wait := p.startWait + (if s.pair.wasStandby then 1000 else 0) + (if m = 1 ∧ p.prefer0 then 1000 else 0)
        if actIn then .next s0.becomeStandby
        else if s.pair.roleFrom + wait ≤ s.now then .next (((s0.becomeActive false).setF F.PAIR_STAT.SYNC 0).pairNotice)
        else .next s0

/-- DEADMAN: a pace boundary at which BOUNDARY has not run; the second in a row drops ACT_OUT, the third releases
the shared outputs (R388). -/
def execDeadman (s : State) : Host.Outcome State Fault Refusal :=
  let n := s.pair.missedOwn + 1
  .next { s with pair := { s.pair with
    missedOwn := n
    actOut := s.pair.actOut && decide (n < 2)
    shared := s.pair.shared && decide (n < 3) } }

/-! ### The ledger (R393 to R396) -/

/-- The active closes its entry E_p and sends it (R393). Its size in KiB is open, since State holds no bytes of the
records. [DESIGN CHOICE, log 128; safe] -/
def State.closeEntry (s : State) (last : Bool) : State :=
  if s.ledgering then
    let e : LedgerEntry := ⟨last, s.syncNow == 1 && s.pair.resync.isNone, s.now - 1, s.pair.entry, true⟩
    let kib := min 512 (Config.ledgerKib (s.now - 1) s.pair.entry.length)
    let r := (s.regs.setF F.PAIR_LEDGER.LAST_KIB kib).setF F.PAIR_LEDGER.PEAK_KIB (max kib (s.fld F.PAIR_LEDGER.PEAK_KIB))
    { s with ledger := s.ledger ++ [e], pair := { s.pair with entry := [] }, regs := r }
  else s

/-- A member that leaves its own ports' inputs to the active: a standby, or one out of service that PAIR_PLAN names (R385,
R391). -/
def State.forwards (s : State) : Bool := s.roleNow == 1 || (s.roleNow == 3 && s.memberNo.isSome)

/-- Sends the active an input of an own port over the link (R391). -/
def State.forward (s : State) (r : LedgerRecord) : State :=
  if s.linkUp then { s with ledger := s.ledger ++ [⟨false, false, s.now, [r], true⟩] } else s

/-- A frame received on an own port: a standby forwards it (R391). -/
def State.handOwn (s : State) (f : IngestFrame) : State := if s.forwards then s.forward (.frame f) else s.handIn f

/-- A sample of PTP or PPS where the source is taken (R421): a standby forwards it, the active carries it as TIME (R391,
R393). -/
def State.timeInput (s : State) (src : TimeSource) (theta : Int) : State :=
  if s.forwards then s.forward (.time src theta)
  else if s.sourceOn src then (s.record (.time src theta)).timeSample src theta
  else s

/-! ### Switch-over (R404 to R407) -/

/-- The handover of the active: its last entry with LAST, ACT_OUT dropped, and from there it is standby in
step (R406). -/
def State.handoverPair (s : State) : State :=
  let s1 := (s.record .handover).closeEntry true
  ({ s1 with pair := { s1.pair with
    actOut := false, shared := false, byTakeover := false, executed := some s.now } } : State).setF F.PAIR_STAT.ROLE 1

/-- The PAIR_SWITCH item that waits for a handover ends: DONE once that is complete, or with a cause (R406). -/
def State.endHandover (s : State) (cause : Nat := 0) : State :=
  match s.pair.handing with
  | some (task, item) => ({ s with pair := { s.pair with handing := none } } : State).endItem task item cause
  | none => s

/-- Whether a handover is possible: active in step with a partner. -/
def State.canHandOver (s : State) : Bool := s.roleNow == 2 && s.syncNow == 2 && s.linkUp

/-- A PAIR_SWITCH item: the handover takes place at the next boundary (R406). -/
def runPairSwitch (s : State) (r : ItemRef) (_t : Tlv) : State × ItemEnd :=
  if s.syncNow = 3 then (s, .failed Cause.PAIR_SPLIT)
  else if s.syncNow ≠ 2 ∨ !s.linkUp then (s, .failed Cause.PAIR_LINK)
  else ({ s with pair := { s.pair with handing := some (r.task, r.item) } }, .waiting)

/-- PAIR_SWITCH (R406). -/
def execPairSwitch (m : Msg) (s : State) : Host.Outcome State Fault Refusal :=
  .next (s.serve 0x00E0 m fun t => t.taskCommand m (some 16) runPairSwitch)

/-- A standby may take over: it is in step, or was until the link went down, no longer ago than its held inputs reach back
(R391, R405, R408). [DEDUCED, log 177; unsafe] -/
def State.canTakeOver (s : State) : Bool :=
  s.syncNow == 2 || (match s.pair.downAt with | some p => decide (s.now ≤ p + 8) | none => false)

/-- Retained notices already sent are sent again (R407). -/
def State.resendNotices (s : State) : State :=
  { s with host := { s.host with ctxs := Map.mapVals (fun _ (c : Ctx) =>
      { c with notices := c.notices.map fun n => if n.sent then { n with nextAt := s.now } else n }) s.host.ctxs } }

/-- TAKEOVER: at its second missed boundary the standby in step becomes active, forms the missing entries from
its own held inputs and sends what the old active had not released (R404, R405, R407). -/
def execTakeover (s : State) : Host.Outcome State Fault Refusal :=
  if s.roleNow = 1 ∧ s.canTakeOver ∧ 2 ≤ s.pair.missed then
    let lacks (p : Nat) : Bool := match s.pair.executed with | some e => decide (e < p) | none => true
    let s1 := ((s.becomeActive true).setF F.PAIR_STAT.SYNC 0).flag F.PAIR_STAT.PROTECTED false
    let s2 := { s1 with pair := { s1.pair with
      inputs := [], ownSamples := [], mismatch := none, downAt := none
      samples := s1.pair.samples ++ (s.pair.ownSamples.filter fun e => lacks e.1).map fun e => e.2 } }
    let s3 := (s.pair.inputs.filter fun e => lacks e.1).foldl (fun (t : State) e => t.acceptFrameIn e.2) s2
    .next ((((s3.failLocal false).releaseAll.resendNotices.endHandover).bump F.PAIR_SWITCH_CNT.COUNT).post Ev.PAIR_TAKEOVER []).pairNotice
  else .next s

/-- DUAL_YIELD: an active by takeover that has seen ACT_IN high at 4 boundaries with the link down becomes a
DETACHED standby (R408). -/
def execDualYield (s : State) : Host.Outcome State Fault Refusal :=
  if s.roleNow = 2 ∧ s.pair.byTakeover ∧ !s.linkUp ∧ 4 ≤ s.pair.actHigh then
    let s1 := ((s.becomeStandby).setF F.PAIR_STAT.SYNC 0).flag F.PAIR_STAT.DUAL false
    .next ((s1.bump F.PAIR_DUAL_CNT.COUNT).post Ev.PAIR_DUAL [])
  else .next s

/-- A write of `PAIR_CTL.LEAVE`: the member leaves service, after a handover where it is active in step.
[DEDUCED, log 129; unsafe] -/
def State.leaveService (s : State) : State :=
  if s.roleNow = 0 then s else (if s.canHandOver then s.handoverPair else s).becomeOut

/-- A write of `PAIR_CTL.RESYNC` on the standby. -/
def State.startResync (s : State) : State :=
  let s1 := { s with pair := { s.pair with resync := none, stored := [], mismatch := none, downAt := none } }
  (s1.setF F.PAIR_STAT.SYNC (if s.linkUp then 1 else 0)).flag F.PAIR_STAT.PROTECTED false

/-! ### Digests, checkpoints and resynchronisation (R397 to R402) -/

/-- The pair comes into step (R401). During the first half of a split the active then switches over and
activates (R377). -/
def State.inStep (s : State) : State :=
  let bytes := match s.pair.resync with | some r => r.2 | none => 0
  let s1 := ((s.setF F.PAIR_STAT.SYNC 2).flag F.PAIR_STAT.PROTECTED true).setF F.PAIR_RESYNC_LEFT.MIB 0
  let s2 := { s1 with pair := { s1.pair with resync := none, mismatch := none } }
  if s.roleNow = 1 then s2.post Ev.PAIR_RESYNC [b8 (bytes : Nat)]
  else if s.pair.split = 1 then
    let s3 := s2.handoverPair
    (({ s3 with pair := { s3.pair with split := 2 } } : State).setF F.PAIR_STAT.SYNC 3).scheduleAct (.inl (s.now + 1000))
  else s2

/-- DIGEST_COMPARE: both digests of pace p are held, or the partner's is missing after 3 paces (R397, R399).
[DESIGN CHOICE, log 128; safe] -/
def execDigestCompare (p : Nat) (own : BitVec 64) (partner : Option (BitVec 64)) (s : State) : Host.Outcome State Fault Refusal :=
  if s.roleNow ≠ 1 ∧ s.roleNow ≠ 2 then .next s
  else if s.syncNow = 2 ∧ s.pair.mismatch = none then
    if partner = some own then
      .next (({ s with pair := { s.pair with
        inputs := s.pair.inputs.filter fun e => decide (p ≤ e.1)
        ownSamples := s.pair.ownSamples.filter fun e => decide (p ≤ e.1)
        matched := some p } } : State).releaseHeld p)
    else
      let s1 := ((s.bump F.PAIR_MISMATCH_CNT.COUNT).post Ev.PAIR_MISMATCH [b8 (p : Nat)]).setF F.PAIR_STAT.SYNC 4
      .next (({ s1 with pair := { s1.pair with mismatch := some p } } : State).flag F.PAIR_STAT.PROTECTED false)
  else if s.syncNow = 1 ∧ s.pair.stored.isEmpty ∧ s.fld F.PAIR_RESYNC_LEFT.MIB = 0 ∧ partner = some own ∧ s.linkUp then
    .next (({ s with pair := { s.pair with matched := some p } } : State).inStep)
  else .next s

/-- The code of a self-check result in `PAIR_SELFCHECK`. -/
def CheckResult.code : CheckResult → Nat
  | .pass => 1
  | .fail => 2
  | .missing => 3

/-- A member that fails its self-check leaves service with a dump and a reset (R399, R438). -/
def State.failsCheck (s : State) : State := (s.post Ev.PAIR_SELFCHECK []).becomeOut.fatal 7 0xF 0xFF 0

/-- SELF_CHECK_RESULT: `failed` are the parts this member failed; a partner's result that does not come in 20
paces counts as failed (R399). -/
def execSelfCheckResult (failed : BitVec 4) (partner : CheckResult) (s : State) : Host.Outcome State Fault Refusal :=
  if s.syncNow ≠ 4 then .next s
  else
    let own : CheckResult := if failed = 0 then .pass else .fail
    let r := (s.regs.setF F.PAIR_SELFCHECK.OWN own.code).setF F.PAIR_SELFCHECK.PARTNER partner.code
    let s0 := { s with regs := r.setF F.PAIR_SELFCHECK.FAILED failed.toNat }
    let pass := failed == 0
    let other := decide (partner = .pass)
    if s.roleNow = 2 then
      if !pass && other then
        .next (({ s0 with pair := { s0.pair with held := [] } } : State).setF F.PAIR_STAT.SYNC 2).handoverPair.failsCheck
      else .next (s0.outOfStep (if other then 1 else 0))
    else if pass && !other then
      .next ((s0.releaseAll.becomeActive false).outOfStep 0 |>.bump F.PAIR_SWITCH_CNT.COUNT)
    else if pass then .next s0.startResync
    else .next s0.failsCheck

/-- COMMON_CHECKPOINT: every CKPT_PACES paces, at a pace whose digest has matched (R400). -/
def execCommonCheckpoint (s : State) : Host.Outcome State Fault Refusal :=
  match s.pairPlan with
  | none => .next s
  | some p =>
    let due := match s.pair.common with | some c => decide (c + p.ckptPaces ≤ s.now) | none => true
    if s.syncNow = 2 ∧ s.pair.mismatch = none ∧ due = true then
      .next (({ s with pair := { s.pair with common := some s.now } } : State).setF F.PAIR_COMMON_LO.PACE s.now)
    else .next s

/-! ### The zeroise line (R349 to R352, R387) -/

/-- A member that zeroises loses its lane keys and its link. A standby leaves service at once, an active with a partner in
step at the boundaries that follow (`State.leave`), and one without stays (R387). -/
def State.zeroisePair (s : State) : State :=
  let s1 := s.pairLinkDown
  if s.roleNow = 0 ∨ (s.roleNow = 2 ∧ s.syncNow ≠ 2) then s1
  else if s.roleNow = 2 then { s1 with pair := { s1.pair with leaving := 2 } }
  else s1.becomeOut

/-- The zeroise line is asserted. While the main supplies are down the VBAT domain latches the sources (R352). -/
def State.zeroiseLine (s : State) (src : ZSource) : State :=
  if src = 0 then s
  else if s.power.phase = .off then
    let z := (s.regs.get R.KEY_ZSRC).toNat ||| src.toNat ||| 2 ^ 12
    { s with regs := s.regs.put R.KEY_ZSRC (BitVec.ofNat 32 z), key := { s.key with latched := true } }
  else (s.zeroise src).zeroisePair

/-- ZEROISE: the glitch, temperature or supply detector asserts the line; with the rails off they are disarmed (R349,
R451). -/
def execZeroise (glitch temp volt : Bool) (s : State) : Host.Outcome State Fault Refusal :=
  .next (if s.power.phase = .off then s else s.zeroiseLine (BitVec.ofNat 13 ((if glitch then 256 else 0) + (if temp then 512 else 0) + (if volt then 1024 else 0))))

/-- TAMPER_TRIGGER: input t has stood in its trigger state for FILTER samples (R293). -/
def execTamperTrigger (t : Nat) (s : State) : Host.Outcome State Fault Refusal :=
  match s.prt.tampers[t]? with
  | none => .next s
  | some e =>
    if e.mode = 0 ∨ 8 ≤ t then .next s
    else
      let high := e.mode == 1 || e.mode == 3
      let bit := BitVec.ofNat 8 (2 ^ t)
      let lv := BitVec.ofNat 8 (s.fld F.PRT_TAMP_STAT.LEVEL)
      let tr := BitVec.ofNat 8 (s.fld F.PRT_TAMP_STAT.TRIGGERED) ||| bit
      let s1 := (s.setF F.PRT_TAMP_STAT.LEVEL (if high then lv ||| bit else lv &&& ~~~ bit).toNat).setF
        F.PRT_TAMP_STAT.TRIGGERED tr.toNat
      .next (s1.zeroiseLine (BitVec.ofNat 13 (2 ^ t)))

end Sys2Proof.Machine
end

