-- ==== Sys2Proof/Machine/Waybill.lean ====
section
/-! DEFINITION. The fields of a waybill as it arrives (R51), its tag (R55), and its counter (R56). -/

namespace Sys2Proof.Machine

/-! ### Header (R51) -/

def Waybill.magic (w : Waybill) : Nat := fieldAt w.bytes 0 2
def Waybill.version (w : Waybill) : Nat := fieldAt w.bytes 2 1
def Waybill.type (w : Waybill) : Nat := fieldAt w.bytes 3 1
def Waybill.flags (w : Waybill) : BitVec 8 := BitVec.ofNat 8 (fieldAt w.bytes 4 1)
def Waybill.context (w : Waybill) : Nat := fieldAt w.bytes 5 1
def Waybill.part (w : Waybill) : Nat := fieldAt w.bytes 6 1
def Waybill.parts (w : Waybill) : Nat := fieldAt w.bytes 7 1
def Waybill.length (w : Waybill) : Nat := fieldAt w.bytes 8 2
def Waybill.opcode (w : Waybill) : Nat := fieldAt w.bytes 10 2
def Waybill.seq (w : Waybill) : Word := BitVec.ofNat 32 (fieldAt w.bytes 12 4)
def Waybill.task (w : Waybill) : Word := BitVec.ofNat 32 (fieldAt w.bytes 16 4)
def Waybill.session (w : Waybill) : Nat := fieldAt w.bytes 22 2
def Waybill.counter (w : Waybill) : Nat := fieldAt w.bytes 24 8

/-- FLAGS.CLEAR. -/
def Waybill.clear (w : Waybill) : Bool := w.flags.getLsbD 0

/-- The bytes after the header of a clear part. -/
def Waybill.piece (w : Waybill) : List Byte := w.bytes.drop 32

/-- The plaintext of a protected part under K_H2D; none where its tag fails (R55). -/
def Waybill.unseal (w : Waybill) (key : List Byte) : Option (List Byte) :=
  let n := w.bytes.length - 48
  let ct := (w.bytes.drop 32).take n
  let nonce := gcmNonce w.session 0 w.counter
  if 48 ≤ w.bytes.length ∧ gcmTag key nonce (w.bytes.take 32) ct = w.bytes.drop (32 + n) then some (gcmCrypt key nonce ct)
  else none

/-- The bound on LENGTH of a link (R51). -/
def HostLink.bound : HostLink → Nat
  | .udp _ _ _ v6 _ => if v6 then 1452 else 1472
  | _ => 65535

/-- Step 1 of R466, but for CONTEXT. -/
def Waybill.headerOk (w : Waybill) : Bool :=
  decide (32 ≤ w.bytes.length) && w.magic == 0x5742 && w.version == 1 && (w.type == 1 || w.type == 4) &&
  decide (1 ≤ w.parts) && decide (w.parts ≤ 64) && decide (w.part < w.parts) && decide (w.length ≤ w.link.bound) &&
  w.length == w.bytes.length && decide (w.flags.toNat < 4)

/-! ### Counters (R56) -/

/-- A COUNTER is accepted once, and above the highest accepted minus 64 (R56). -/
def counterOk (top : Nat) (accepted : List Nat) (n : Nat) : Bool :=
  decide (0 < n) && decide (top < n + 64) && !accepted.contains n

/-- The counters kept after `n` was accepted. -/
def counterTake (top : Nat) (accepted : List Nat) (n : Nat) : Nat × List Nat :=
  (max top n, (n :: accepted).filter fun k => decide (max top n < k + 64))

/-- The plaintext of a part under a session's keys, and the counters after it (R55, R56). -/
def Session.receive (v : Session) (w : Waybill) : Option (Session × List Byte) :=
  if v.no = w.session ∧ counterOk v.top v.accepted w.counter = true then
    (w.unseal v.h2d).map fun b =>
      ({ v with top := (counterTake v.top v.accepted w.counter).1, accepted := (counterTake v.top v.accepted w.counter).2 }, b)
  else none

/-- The same under a handshake's keys. -/
def Handshake.receive (v : Handshake) (w : Waybill) : Option (Handshake × List Byte) :=
  if v.no = w.session ∧ counterOk v.top v.accepted w.counter = true then
    (w.unseal v.h2d).map fun b =>
      ({ v with top := (counterTake v.top v.accepted w.counter).1, accepted := (counterTake v.top v.accepted w.counter).2 }, b)
  else none

end Sys2Proof.Machine
end

