-- ==== Sys2Proof/Machine/Session.lean ====
section
/-! DEFINITION. The host side of a link: waybills as they arrive (R49, R466, R53), sessions (R54 to R58,
R476), task queries (R64, R67), outcomes (R66) and notices (R70 to R72, R477). -/

namespace Sys2Proof.Machine

/-! ### Judging a waybill (R49, R466) -/

/-- Whether two addresses agree in their first `n` bits. -/
def prefixAgrees (n : Nat) (a b : BitVec 128) : Bool := a.toNat / 2 ^ (128 - n) == b.toNat / 2 ^ (128 - n)

/-- The waybill came over the link its context is bound to (R49). -/
def HostEntry.bound (e : HostEntry) : HostLink → Bool
  | .udp port udp src _ fragment =>
    e.link == 1 && port == e.port && udp == e.udpPort && prefixAgrees e.peerPrefix src e.peerAddr && !fragment
  | .pcie k => e.link == k + 2
  | .spi => e.link == 4
  | .usb => false

/-- SESSION_OPEN and IDENTITY, the commands valid in clear on every context (R57). -/
def clearCommand (opcode : Nat) : Bool := opcode == 0x0001 || opcode == 0x0004

/-- The commands outside the sequence of R61 (R476). -/
def outsideSequence (opcode : Nat) : Bool := decide (1 ≤ opcode) && decide (opcode ≤ 4)

/-- Step 2 of R466: the state with the COUNTER taken and the plaintext of the part, or none where the protection of R55
to R57 fails. SESSION_CONFIRM comes under the keys of the handshake, every other waybill under those of the session.
[DEDUCED, log 33; unsafe] -/
def State.protect (s : State) (w : Waybill) : Option (State × List Byte) :=
  let c := w.context
  let x := s.ctx c
  if w.clear then
    if s.localClear c || (w.type == 1 && clearCommand w.opcode) then some (s, w.piece) else none
  else if w.type = 1 ∧ w.opcode = 0x0002 then
    match x.handshake with
    | none => none
    | some h => (h.receive w).map fun r => (s.setCtx c { x with handshake := some r.1 }, r.2)
  else
    match x.session with
    | none => none
    | some v => (v.receive w).map fun r => (s.setCtx c { x with session := some r.1 }, r.2)

/-- A waybill dropped under R49 or step 1 of R466, counted for the context it names, if any. -/
def State.dropWaybill (s : State) (w : Waybill) : State :=
  if 6 ≤ w.bytes.length ∧ (s.hostEntry w.context).isSome ∧ w.context < 8 then s.bump (F.HOST_AUTH_FAIL.COUNT w.context) else s

/-- The opcodes of the commands table (R59). -/
def opcodes : List Nat :=
  [0x0001, 0x0002, 0x0003, 0x0004, 0x0010, 0x0011, 0x0020, 0x0021, 0x0030, 0x0031, 0x0040, 0x0041, 0x0042,
   0x0050, 0x0051, 0x0060, 0x0070, 0x0080, 0x0081, 0x0090, 0x0091, 0x0092, 0x00A0, 0x00B0, 0x00C0, 0x00D0,
   0x00E0, 0x00F0]

/-- A RESP under the keys of the pending handshake, which counts in its COUNTER (R54, R56). -/
def State.respHandshake (s : State) (m : Msg) (h : Handshake) (cause : Nat) : State :=
  let w : OutWaybill := ⟨m.seat, 2, false, false, m.opcode, m.seq, 0, cause, h.no, h.sent + 1, 0, [], []⟩
  (s.setCtx m.seat { s.ctx m.seat with handshake := some { h with sent := h.sent + 1 } }).put (w.cut h.d2h [0])

/-- Answers a command with a cause alone, protected as the command was (R54, R466). -/
def State.refuse (s : State) (m : Msg) (cause : Nat) : State :=
  if m.opcode = 0x0002 ∧ !m.clear then
    match (s.ctx m.seat).handshake with
    | some h => s.respHandshake m h cause
    | none => s
  else s.resp m false 0 cause []

/-- Hands a whole message that passed R466 to the engine that serves it. A standby forwards it to the active
over the link (R391); the session commands are the member's own (R392). -/
def State.accept (s : State) (m : Msg) : State :=
  if outsideSequence m.opcode && !m.ack then { s with host := { s.host with inbox := s.host.inbox ++ [m] } }
  else if s.forwards then
    if s.linkUp then s.forward (.waybill (s.fld F.PAIR_STAT.MEMBER) m)
    else if m.ack then s
    else s.resp m false 0 Cause.PAIR_STANDBY []
  else
    let s1 := s.record (.waybill (s.fld F.PAIR_STAT.MEMBER) m)
    { s1 with host := { s1.host with inbox := s1.host.inbox ++ [m] } }

/-- The commands the service seat may send (R288). -/
def seatCommand (opcode : Nat) : Bool :=
  [0x0004, 0x0010, 0x0020, 0x0030, 0x0031, 0x0080, 0x00B0, 0x00C0, 0x00D0].contains opcode

/-- Step 3 of R466: the body of a whole message; of the service seat's commands only those of R288 are judged.
[DEDUCED, log 35; unsafe] -/
def State.judgeBody (s : State) (m : Msg) : State :=
  let bad (c : Nat) : State := if m.ack then s.bump (F.HOST_AUTH_FAIL.COUNT m.seat) else s.refuse m c
  if m.seat = 8 ∧ !seatCommand m.opcode then s.resp m false 0 Cause.RIGHTS []
  else match bodyTlvs m.body with
  | none => bad Cause.BAD_FORMAT
  | some l =>
    if l.any fun t => decide (0x8000 ≤ t.type) then bad Cause.TLV_UNKNOWN
    else if m.ack then
      if (l.filter fun t => t.type == 5).all fun t => t.value.length == 8 then s.accept m else bad Cause.BAD_FORMAT
    else if opcodes.contains m.opcode then (if bodyOk m.opcode l then s.accept m else bad Cause.BAD_FORMAT)
    else if s.rateOk m.seat then (s.takeRate m.seat).resp m false 0 Cause.BAD_OPCODE []
    else s.busy m Cause.BUSY_RATE

/-- The seat of a waybill: its context, or 8 for the service seat (R288). -/
def Waybill.seat (w : Waybill) : Nat := match w.link with | .usb => 8 | _ => w.context

/-- The message a waybill belongs to. -/
def Waybill.msg (w : Waybill) (body : List Byte) : Msg :=
  { seat := w.seat, here := true, clear := w.clear, rep := w.flags.getLsbD 1, ack := w.type == 4,
    opcode := w.opcode, seq := w.seq, task := w.task, session := w.session, body := body }

/-- Whether a part belongs to the message of another part (R53). -/
def Waybill.sameMessage (w v : Waybill) : Bool :=
  w.type == v.type && w.opcode == v.opcode && w.seq == v.seq && w.task == v.task && w.parts == v.parts &&
  w.clear == v.clear && w.session == v.session

/-- A part joins its message with its plaintext; the body is judged once every part has arrived (R53). -/
def State.takePart (s : State) (w : Waybill) (piece : List Byte) : State :=
  let c := w.seat
  if w.parts = 1 then s.judgeBody (w.msg piece)
  else
    let x := s.ctx c
    let old : PartBuffer := (x.parts.find? fun b => b.first.sameMessage w).getD ⟨w, w.clear, s.now, []⟩
    let parts := if (Map.find old.parts w.part).isSome then old.parts else Map.set old.parts w.part piece
    let others := x.parts.filter fun b => !b.first.sameMessage w
    if parts.length < w.parts then
      s.setCtx c { x with parts := others ++ [{ old with parts := parts }] }
    else
      (s.setCtx c { x with parts := others }).judgeBody (old.first.msg (parts.flatMap fun p => p.2))

/-- The RESP that every host is answered in the service state. -/
def Waybill.serviceState (w : Waybill) : OutWaybill :=
  (⟨w.context, 2, true, false, w.opcode, w.seq, 0, Cause.SERVICE_STATE, 0, 0, 0, [], []⟩ : OutWaybill).cut [] [0]

/-- The judgement of R49 and R466 on a waybill from a host. In the service state every host is answered
SERVICE_STATE (R426). [DEDUCED, log 34; unsafe] -/
def State.judgeWaybill (s : State) (w : Waybill) : State :=
  match s.power.phase with
  | .service => if w.type = 1 then s.send (.waybill w.serviceState) else s
  | .run =>
    match s.hostEntry w.context with
    | none => s
    | some e =>
      if !(e.bound w.link && w.headerOk) then s.dropWaybill w
      else match s.protect w with
        | none => (s.dropWaybill w).post Ev.HOST_AUTH_FAIL []
        | some (s1, b) => s1.takePart w b
  | .save => s
  | .off => s

/-- WAYBILL_PART: the oldest waybill that has arrived from a host is judged (R466). -/
def execWaybillPart (s : State) : Host.Outcome State Fault Refusal :=
  .next (match s.host.arrived with
    | [] => s
    | w :: l => ({ s with host := { s.host with arrived := l } } : State).judgeWaybill w)

/-- A message whose parts did not all come within 2,000 paces (R53). -/
def State.expireParts (s : State) (c : Nat) : State :=
  let x := s.ctx c
  let due (b : PartBuffer) : Bool := decide (b.began + 2000 ≤ s.now)
  (x.parts.filter due).foldl (fun (t : State) b =>
    let m := b.first.msg []
    if m.ack then t else t.refuse m Cause.PART_TIMEOUT)
    (if x.parts.any due then s.setCtx c { x with parts := x.parts.filter fun b => !due b } else s)

/-- PART_TIMEOUT (R53). -/
def execPartTimeout (s : State) : Host.Outcome State Fault Refusal := .next ((List.range 9).foldl State.expireParts s)

/-! ### Sessions (R54 to R58) -/

/-- Serves a command outside the sequence: the command bucket, then as new (R60, R476). -/
def State.serveOutside (s : State) (opcode : Nat) (m : Msg) (run : State → State) : State :=
  if m.opcode = opcode ∧ s.host.inbox.contains m then
    let s1 := { s with host := { s.host with inbox := s.host.inbox.erase m } }
    if m.seat ≠ 8 ∧ ¬ s1.rateOk m.seat then (s1.bump (F.HOST_BUSY_CNT.COUNT m.seat)).refuse m Cause.BUSY_RATE
    else run (s1.takeRate m.seat)
  else s

/-- A value in the body of a session command. [DESIGN CHOICE, log 31; unsafe] -/
def sessionTlv (k : Nat) (v : List Byte) : Tlv := ⟨Config.sessionTlv k, v⟩

/-- The next random value of member-local cryptography. -/
def State.localRandom (s : State) : State × Nat := (s.drawLocal, Config.free s.drawn)

/-- A new session number: 1 to 65,535, never that of the session it replaces (R54). -/
def newSessionNo (random : Nat) (old : Option Session) : Nat :=
  let n := 1 + random % 65535
  match old with
  | some v => if v.no = n then 1 + n % 65535 else n
  | none => n

/-- The host's point, nonce and key index in a SESSION_OPEN body (R54). -/
def Msg.openPoint (m : Msg) : Nat × Nat := match m.tlvs with | p :: _ => ecPoint (p.value.drop 1) | [] => (0, 0)
def Msg.openKey (m : Msg) : Nat := match m.tlvs with | _ :: _ :: k :: _ => beVal k.value | _ => 0

/-- The keys of a handshake from Z and TH (R55). -/
def sessionKeys (z th : List Byte) : List Byte × List Byte :=
  (kdf z (ascii "WAYBILL H2D") th 32, kdf z (ascii "WAYBILL D2H") th 32)

/-- The RESP body of a SESSION_OPEN without its signature: the point of the ephemeral key `d`, the device nonce, the
session number, the highest journalled SEQ and the power-cycle count (R54). -/
def State.openBody (s : State) (d nonce no journalled : Nat) : List Tlv :=
  [sessionTlv 0 (4 :: ecBytes (ecMul d p256G)), sessionTlv 1 (beBytes 16 nonce), sessionTlv 2 (beBytes 2 no),
   sessionTlv 3 (beBytes 4 journalled), sessionTlv 4 (beBytes 4 s.evt.pwrCycles.toNat)]

/-- A SESSION_OPEN executed as new: a handshake under its own keys, answered in clear with a signature of the link key over
TH. It replaces a pending handshake (R54, R55, R345, R351). [DEDUCED, log 32; unsafe] -/
def State.openHandshake (s : State) (m : Msg) : State :=
  let count := match s.hostEntry m.seat with | some e => e.keys.length | none => 0
  let free := s.setCtx m.seat { s.ctx m.seat with handshake := none }
  if !s.keysReady then s.resp m false 0 Cause.ZEROISED []
  else if count ≤ m.openKey then s.resp m false 0 Cause.HOST_KEY []
  else if !free.poolHas 2 then s.slotsFull.resp m false 0 Cause.KEY_SLOTS_FULL []
  else
    let (s1, r) := s.localRandom
    let (s2, nonce) := s1.localRandom
    let (s3, number) := s2.localRandom
    let x := s3.ctx m.seat
    let no := newSessionNo number x.session
    let d := 1 + r % (p256N - 1)
    let body := s3.openBody d nonce no x.journalled.toNat
    let th := sha256Bytes (m.body ++ bodyBytes body)
    let keys := sessionKeys ((ecdh d m.openPoint).getD []) th
    let s4 := (s3.setCtx m.seat { x with handshake := some ⟨no, m.openKey, s.now, th, keys.1, keys.2, 0, [], 0⟩ }).showSlots
    s4.resp m false 0 0 (body ++ [sessionTlv 5 (ecdsaSign (linkPrivate s.enrol) th)])

/-- SESSION_OPEN. It waits while the random source gives no output (R54, R348). -/
def execSessionOpen (m : Msg) (s : State) : Host.Outcome State Fault Refusal :=
  .next (if s.keysReady && !s.randomOk then s else s.serveOutside 0x0001 m fun t => t.openHandshake m)

/-- Sends every unacknowledged notice again, in sequence order (R71). -/
def State.resendAll (s : State) (c : Nat) : State :=
  if s.reachable c && s.fld F.PAIR_STAT.ROLE != 1 then
    ((s.ctx c).notices.filter fun n => n.sent).foldl (fun t n => t.sendNotice c n) s
  else s

/-- The handshake becomes the session of the context; its notices go at once (R54, R71). -/
def State.openSession (s : State) (m : Msg) (h : Handshake) : State :=
  let v : Session := ⟨h.no, s.now, h.h2d, h.d2h, h.top, h.accepted, h.sent⟩
  let s1 := (s.setCtx m.seat { s.ctx m.seat with session := some v, handshake := none }).showSlots
  ((s1.resp m false 0 0 []).resendAll m.seat).pump m.seat

/-- Whether the signature a SESSION_CONFIRM carries over TH verifies under the host key that the handshake names (R54). -/
def State.confirmed (s : State) (m : Msg) (h : Handshake) : Bool :=
  match s.hostEntry m.seat, m.tlvs.find? fun t => t.value.length == 64 with
  | some e, some t => ecdsaVerify (e.keys.getD h.keyIndex []) t.value h.th
  | _, _ => false

/-- A handshake is discarded (R54). -/
def State.dropHandshake (s : State) (c : Nat) : State := (s.setCtx c { s.ctx c with handshake := none }).showSlots

/-- A SESSION_CONFIRM executed as new (R54). -/
def State.confirm (s : State) (m : Msg) : State :=
  match (s.ctx m.seat).handshake with
  | none => if m.clear then s.resp m false 0 Cause.SESSION_NONE [] else s
  | some h =>
    if !m.clear && m.session != h.no then s
    else if s.confirmed m h then s.openSession m h
    else (s.refuse m Cause.HOST_KEY).dropHandshake m.seat

/-- SESSION_CONFIRM (R54). -/
def execSessionConfirm (m : Msg) (s : State) : Host.Outcome State Fault Refusal :=
  .next (s.serveOutside 0x0002 m fun t => t.confirm m)

/-- The open session of a context closes (R58). -/
def State.closeSession (s : State) (c : Nat) : State := (s.setCtx c { s.ctx c with session := none }).showSlots

/-- SESSION_CLOSE (R56, R58). -/
def execSessionClose (m : Msg) (s : State) : Host.Outcome State Fault Refusal :=
  .next (s.serveOutside 0x0003 m fun t =>
    match (t.ctx m.seat).session with
    | none => t.resp m false 0 Cause.SESSION_NONE []
    | some _ => (t.resp m false 0 0 []).closeSession m.seat)

/-- IDENTITY returns the statement kept in NAND (R54). -/
def execIdentity (m : Msg) (s : State) : Host.Outcome State Fault Refusal :=
  .next (s.serveOutside 0x0004 m fun t =>
    t.resp m false 0 0 (if t.host.identity then [sessionTlv 6 t.identityStatement] else []))

/-- HANDSHAKE_TIMEOUT: a handshake not confirmed within 10,000 paces is discarded (R54). -/
def execHandshakeTimeout (s : State) : Host.Outcome State Fault Refusal :=
  let f (_ : Nat) (x : Ctx) : Ctx :=
    match x.handshake with
    | some h => if h.began + 10000 ≤ s.now then { x with handshake := none } else x
    | none => x
  .next ({ s with host := { s.host with ctxs := Map.mapVals f s.host.ctxs } } : State).showSlots

/-- SESSION_LIFE_EXPIRY: a session closes SESSION_LIFE seconds after it opened (R58). -/
def execSessionLifeExpiry (s : State) : Host.Outcome State Fault Refusal :=
  .next ((List.range 8).foldl (fun (t : State) c =>
    match t.hostEntry c, (t.ctx c).session with
    | some e, some v => if v.opened + e.sessionLife * 1000 ≤ t.now then t.closeSession c else t
    | _, _ => t) s)

/-- A write of `HOST_CTL.RESEND`: every unacknowledged notice goes now, within the window (R71, R477). -/
def State.hostResend (s : State) (c : Nat) : State := (s.resendAll c).pump c

/-! ### Tasks (R64 to R67) -/

/-- The slot of a handle in flight for a seat (R64). -/
def State.taskOf (s : State) (seat handle : Nat) : Option (Nat × Task) :=
  match Map.find s.host.tasks (handle % 4096) with
  | some t => if t.seat = seat ∧ handleOf (handle % 4096) t.gen = handle then some (handle % 4096, t) else none
  | none => none

/-- TASK_QUERY: the handle stands in TASK. The answer carries the outcomes so far; it takes a task of the
service seat that is over out of flight (R64, R473). [DEDUCED, log 38; unsafe] -/
def execTaskQuery (m : Msg) (s : State) : Host.Outcome State Fault Refusal :=
  .next (s.serve 0x0020 m fun t =>
    match t.taskOf m.seat m.task.toNat with
    | none => t.immediate m none 0 fun u => (u, Cause.TASK_UNKNOWN, [])
    | some (slot, k) => t.immediate m none m.task fun u =>
      (if m.seat = 8 ∧ k.allEnded then u.dropTask slot else u, 0, itemRuns k.ended ++ [taskSummary k.ended] ++ k.returned))

/-- TASK_CANCEL: one item, which marks the task named in TASK; at the next boundary its items not begun end
CANCELLED (R64, R67). -/
def execTaskCancel (m : Msg) (s : State) : Host.Outcome State Fault Refusal :=
  .next (s.serve 0x0021 m fun t =>
    match t.taskOf m.seat m.task.toNat with
    | none => t.resp m false 0 Cause.TASK_UNKNOWN []
    | some (slot, _) =>
      t.admitTask m (fun _ => true) (fun u _ _ => (u.adjustTask slot fun k => { k with cancel := some u.now }, .done none))
        [⟨0, []⟩])

/-- At a boundary the items not begun of the tasks cancelled before it end CANCELLED (R67). -/
def State.cancelTasks (s : State) : State :=
  s.host.tasks.foldl (fun (t : State) e =>
    match e.2.cancel with
    | some p =>
      if p < t.now then
        e.2.todo.foldl (fun (u : State) i => u.cancelItem (handleOf e.1 e.2.gen) i (e.2.items.getD i ⟨0, []⟩))
          (t.adjustTask e.1 fun k => { k with cancel := none })
      else t
    | none => t) s

/-- Outcomes not yet reported: 1,024 of them, or 100 paces since the first ended (R66). -/
def State.reportDue (s : State) (slot : Nat) : State :=
  match Map.find s.host.tasks slot with
  | none => s
  | some t =>
    match t.fresh with
    | [] => s
    | o :: _ => if t.seat = 8 then s else State.reportItems slot (decide (o.pace + 100 ≤ s.now)) t.fresh.length s

/-- TASK_ITEMS_NOTICE (R66). -/
def execTaskItemsNotice (s : State) : Host.Outcome State Fault Refusal :=
  .next (s.host.tasks.foldl (fun (t : State) e => t.reportDue e.1) s)

/-! ### Acknowledgement (R71, R72, R469) -/

/-- The highest notice sequence sent: the one before the first unsent. -/
def Ctx.topSent (x : Ctx) : Word :=
  match x.notices.find? fun n => !n.sent with
  | some n => n.seq - 1
  | none => x.nextNotice - 1

/-- A notice that an ACK acknowledges: sent, and at or below SEQ, or marked in SACK; a SEQ not yet sent
acknowledges nothing (R71). [DEDUCED, log 39; unsafe] -/
def Ctx.acked (x : Ctx) (seq : Word) (sack : Nat) (n : NoticeRec) : Bool :=
  n.sent && ((decide ((seq - x.topSent).toInt ≤ 0) && decide ((n.seq - seq).toInt ≤ 0)) ||
    (decide (0 < (n.seq - seq).toInt) && decide ((n.seq - seq).toInt ≤ 64) &&
      sack.testBit ((n.seq - seq).toInt.toNat - 1)))

/-- The store of a context falls to 90 % of NOTICE_MAX: it is no longer full, one NOTICE_LOST per counted kind
goes, and held outcomes are written (R72). -/
def State.leaveFull (s : State) (c : Nat) : State :=
  let x := s.ctx c
  let cap := match s.hostEntry c with | some e => e.noticeMax | none => 0
  if x.full ∧ x.notices.length * 10 ≤ cap * 9 then
    let s1 := (s.setCtx c { x with full := false }).flushLost c
    s1.host.tasks.foldl (fun (t : State) e => if e.2.seat = c then t.report e.1 else t) s1
  else s

/-- An ACK (R71, R477): notices released, tasks whose TASK_FINAL is acknowledged leave flight, resend timing
returns to INIT_MS. -/
def State.takeAck (s : State) (m : Msg) : State :=
  let c := m.seat
  let x := s.ctx c
  let sack := match m.tlvs.find? fun t => t.type == 5 with | some t => beVal t.value | none => 0
  let gone := x.notices.filter fun n => x.acked m.seq sack n
  let init := s.fld (F.HOST_RESEND.INIT_MS c)
  let kept := (x.notices.filter fun n => !x.acked m.seq sack n).map fun n =>
    if n.sent then { n with nextAt := s.now + init, interval := init } else n
  let s1 := s.setCtx c { x with notices := kept }
  let s2 := gone.foldl (fun (t : State) n =>
    if n.kind = 0x8001 then
      match t.taskOf c n.task with
      | some (slot, _) => t.dropTask slot
      | none => t
    else t) s1
  (s2.leaveFull c).pump c

/-- ACK (R71). -/
def execAck (m : Msg) (s : State) : Host.Outcome State Fault Refusal :=
  .next (if m.ack ∧ s.host.inbox.contains m then
      ({ s with host := { s.host with inbox := s.host.inbox.erase m } } : State).takeAck m
    else s)

/-- The unacknowledged notices whose resend is due go again with REPEAT, and their interval doubles up to
MAX_MS (R71). -/
def State.resendDue (s : State) (c : Nat) : State :=
  if s.reachable c && s.fld F.PAIR_STAT.ROLE != 1 then
    let x := s.ctx c
    let due (n : NoticeRec) : Bool := n.sent && decide (n.nextAt ≤ s.now)
    let top := s.fld (F.HOST_RESEND.MAX_MS c)
    let next (n : NoticeRec) : NoticeRec :=
      if due n then { n with interval := min (2 * n.interval) top, nextAt := s.now + min (2 * n.interval) top } else n
    let s1 := s.setCtx c { x with notices := x.notices.map next }
    (x.notices.filter due).foldl (fun (t : State) n => t.sendNotice c n) s1
  else s

/-- NOTICE_RESEND (R71). -/
def execNoticeResend (s : State) : Host.Outcome State Fault Refusal :=
  .next ((List.range 8).foldl State.resendDue s)

end Sys2Proof.Machine
end

