-- ==== Sys2Proof/Machine/Stage.lean ====
section
/-! DEFINITION. The stage lock, the stage set and what requests or ends a commit (R44 to R46, R470,
R475). The check and the application of a commit are in Commit. -/

namespace Sys2Proof.Machine

/-- A COMMIT notice to a context, whatever its NOTICE_MASK holds (R475). -/
def State.commitNotice (s : State) (c cause subject : Nat) : State :=
  s.notify c 0x8002 [causeDetail cause subject] false

/-- Whether the context holds the stage lock. -/
def State.owns (s : State) (c : Nat) : Bool := s.stage.owner == some c

/-- Takes the free lock with an empty set and a new timeout (R45). -/
def State.stageAcquire (s : State) (c : Nat) : State :=
  { s with stage := { s.stage with owner := some c, set := [], touched := s.now } }

/-- A pending commit is withdrawn (R470): STATE returns to 0. -/
def StageState.withdraw (g : StageState) : StageState :=
  if g.state = .pending then { g with state := .idle, accepted := false } else g

/-- Releases the lock; the staged values are discarded and a pending commit withdrawn (R45, R470). -/
def State.stageRelease (s : State) : State :=
  { s with stage := { s.stage.withdraw with owner := none, set := [] } }

/-- Discards the staged values and keeps the lock (R470). -/
def State.commitDiscard (s : State) : State :=
  { s with stage := { s.stage.withdraw with set := [] } }

/-- Requests a commit, checked in quantum 15 of this pace, or of the next when quantum 15 has
begun (R46). -/
def State.commitGo (s : State) : State :=
  { s with stage := { s.stage with
      state := .pending
      accepted := false
      touched := s.now
      checkAt := if s.pace.quantum < 15 then s.now else s.now + 1 } }

/-- Stages bits of a register; a second write to a bit replaces its value (R44). -/
def State.stageBits (s : State) (addr : Nat) (mask value : Word) : State :=
  let old := Map.findD s.stage.set addr ⟨0, 0⟩
  let new : Staged := ⟨old.mask ||| mask, (old.value &&& ~~~mask) ||| (value &&& mask)⟩
  { s with stage := { s.stage with set := Map.set s.stage.set addr new, touched := s.now } }

/-- Whether the set has no room for a further register (R44). -/
def State.stageFull (s : State) (addr : Nat) : Bool :=
  (Map.find s.stage.set addr).isNone && decide (512 ≤ s.stage.set.length)

/-- A register with the staged bits laid over it (R46). -/
def State.overlay (s : State) (addr : Nat) : Word :=
  match Map.find s.stage.set addr with
  | none => s.regs.get addr
  | some g => (s.regs.get addr &&& ~~~g.mask) ||| g.value

/-- A field as it would stand after the commit (R46). -/
def State.overlayFld (s : State) (f : FieldRef) : Nat := fieldOf (s.overlay f.addr) f.hi f.lo

/-- R45: SYS_STAGE_TIMEOUT seconds passed without a staged write or a GO. -/
def State.stageExpired (s : State) : Bool :=
  decide (s.stage.touched + s.fld F.SYS_STAGE_TIMEOUT.SECONDS * 1000 ≤ s.now)

/-- STAGE_TIMEOUT: the lock is released, its values are discarded and the owner is told (R45, R475). -/
def execStageTimeout (s : State) : Host.Outcome State Fault Refusal :=
  .next (match s.stage.owner with
    | none => s
    | some c =>
      if s.stageExpired then s.stageRelease.commitNotice c Cause.STAGE_TIMEOUT 0 else s)

end Sys2Proof.Machine
end

