-- ==== Sys2Proof/Machine/Storage.lean ====
section
/-! DEFINITION. NAND storage and flash translation: namespaces, superblocks, the map journal, folding,
collection, throttling and failures, and the BULK commands (R294 to R317). -/

namespace Sys2Proof.Machine

/-! ### Geometry (R295 to R300) -/

/-- The STORAGE section in force: that of the active image. -/
def State.storagePlan (s : State) : Option StoragePlan := s.warp.active.map fun w => w.storage

/-- G, the number of stripe groups. -/
def StoragePlan.groups (p : StoragePlan) : Nat := p.dies / p.stripeW

/-- B_slc and B_tlc (R295). -/
def StoragePlan.slcBlocks (p : StoragePlan) : Nat := (p.slcPct * p.blocksPerDie + 99) / 100
def StoragePlan.tlcBlocks (p : StoragePlan) : Nat := p.blocksPerDie - p.sysBlocks - p.slcBlocks

/-- First block and number of blocks of the SLC buffer or the TLC area of a die. -/
def StoragePlan.area (p : StoragePlan) (slc : Bool) : Nat × Nat :=
  if slc then (p.sysBlocks, p.slcBlocks) else (p.sysBlocks + p.slcBlocks, p.tlcBlocks)

/-- Pages of a block in a mode. -/
def StoragePlan.pages (p : StoragePlan) (slc : Bool) : Nat := if slc then p.pagesPerBlock / 3 else p.pagesPerBlock

/-- The first LU of namespace k: units of 16 KiB (R300). -/
def StoragePlan.nsBase (p : StoragePlan) (k : Nat) : Nat := 64 * sumNat id (p.nsMib.take k)

/-- Units of namespace k. -/
def StoragePlan.nsUnits (p : StoragePlan) (k : Nat) : Nat := 64 * p.nsMib.getD k 0

/-- The namespace that holds an LU. -/
def StoragePlan.nsOf (p : StoragePlan) (lu : Nat) : Nat :=
  ((List.range 7).find? fun k => decide (lu < p.nsBase (k + 1))).getD 6

/-- Live dies of a group. -/
def State.liveDies (s : State) (p : StoragePlan) (g : Nat) : List Nat :=
  ((List.range p.stripeW).map fun j => g * p.stripeW + j).filter fun d => !s.sto.failed.contains d

/-- Free blocks of a die in an area. -/
def State.freeCount (s : State) (p : StoragePlan) (slc : Bool) (d : Nat) : Nat :=
  let (b, n) := p.area slc
  n - (s.sto.used.filter fun u => u.1 == d && decide (b ≤ u.2) && decide (u.2 < b + n)).length

/-- Superblocks a group could form: a stripe needs at least five blocks (R305). -/
def State.formable (s : State) (p : StoragePlan) (slc : Bool) (g : Nat) : Nat :=
  let live := s.liveDies p g
  if live.length < 5 then 0
  else match live.map fun d => s.freeCount p slc d with
    | [] => 0
    | a :: l => l.foldl min a

/-- The free share in 0.01 %: superblocks formable from free TLC blocks over TLC superblocks (R310). -/
def State.freeShare (s : State) (p : StoragePlan) : Nat × Nat :=
  let n := sumNat (fun g => s.formable p false g) (List.range p.groups)
  (n, n * 10000 / max 1 (p.groups * p.tlcBlocks))

/-! ### Thresholds (R311, R312) -/

/-- The state of FOREGROUND_CHANGE: 0 none, 1 foreground, 2 reserve. -/
def State.fgState (s : State) : Nat :=
  if s.fld F.STO_STAT.RESERVE = 1 then 2 else if s.fld F.STO_STAT.FG = 1 then 1 else 0

/-- FOREGROUND_CHANGE: the free share is shown, and crossing a threshold enters or leaves foreground
collection or reserve (R311). [DEDUCED, log 113; unsafe] -/
def State.judgeShare (s : State) : State :=
  match s.storagePlan with
  | none => s
  | some p =>
    let (n, share) := s.freeShare p
    let hyst := s.fld F.STO_THROTTLE.HYST_CPCT
    let step (on : Bool) (lim : Nat) : Bool := if on then !decide (lim + hyst < share) else decide (share < lim)
    let fg := step (s.fld F.STO_STAT.FG == 1) (s.fld F.STO_GC.FG_CPCT)
    let rs := step (s.fld F.STO_STAT.RESERVE == 1) (s.fld F.STO_GC.RESERVE_CPCT)
    let r := ((s.regs.setF F.STO_FREE.SUPERBLOCKS (min n 0xFFFF)).setF F.STO_FREE.SHARE share).flag F.STO_STAT.FG fg
    let s1 := { s with regs := r.flag F.STO_STAT.RESERVE rs }
    s1.postIf (s1.fgState != s.fgState) Ev.STO_FOREGROUND [b1 s1.fgState, b8 (share : Nat)]

/-- The units that the TLC superblocks of a group can hold after retirement and die failure: one block of each live die
makes a superblock, and one of its pages in each stripe is parity (R298, R312). -/
def State.unitsLeft (s : State) (p : StoragePlan) (g : Nat) : Nat :=
  let (b, n) := p.area false
  let gone (d : Nat) : Nat := (s.sto.retired.filter fun r => r.1 == d && decide (b ≤ r.2.1) && decide (r.2.1 < b + n)).length
  let live := s.liveDies p g
  if live.length < 5 then 0
  else match live.map fun d => n - gone d with
    | [] => 0
    | a :: l => (l.foldl min a) * (live.length - 1) * p.pagesPerBlock

/-- READONLY: the superblocks that remain can no longer hold every namespace at its size; the BULK_SECTOR items that wait
fail (R312). -/
def State.judgeReadonly (s : State) : State :=
  match s.storagePlan with
  | none => s
  | some p =>
    let need := sumNat (fun k => p.nsUnits k) (List.range 7)
    if s.fld F.STO_STAT.READONLY = 0 ∧ sumNat (s.unitsLeft p) (List.range p.groups) < need then
      let s1 := (s.flag F.STO_STAT.READONLY true).post Ev.STO_READONLY []
      s.sto.writes.foldl (fun (t : State) w => t.endItem w.slot w.item Cause.NS_FULL)
        { s1 with sto := { s1.sto with writes := [] } }
    else s

/-! ### Superblocks and the journal (R298, R306, R307) -/

/-- A record is produced. -/
def State.journal (s : State) (r : JournalRec) (item : Option (Nat × Nat) := none) (hold : Option (Nat × Nat) := none) : State :=
  { s with sto := { s.sto with waiting := s.sto.waiting ++ [⟨s.now, r, item, hold⟩] } }

/-- Data pages a superblock holds when it is full. -/
def StoragePlan.capacity (p : StoragePlan) (b : Superblock) : Nat := p.pages b.slc * (b.blocks.length - 1)

/-- The position of data page k in its stripe k/(W−1), whose position s mod W holds the parity (R298). -/
def Superblock.position (b : Superblock) (k : Nat) : Nat :=
  let w := b.blocks.length
  if k % (w - 1) < k / (w - 1) % w then k % (w - 1) else k % (w - 1) + 1

/-- The (die, block) of data page k. -/
def Superblock.blockOf (b : Superblock) (k : Nat) : Nat × Nat := b.blocks.getD (b.position k) (0, 0)

/-- The physical page of data page k: the die in bits 31 to 26, the block in 25 to 12, the page in 11 to 0 (text before
R300). -/
def Superblock.phys (b : Superblock) (k : Nat) : Nat :=
  let x := b.blockOf k
  x.1 * 2 ^ 26 + x.2 * 2 ^ 12 + k / (b.blocks.length - 1)

/-- Stripes that hold a page. -/
def Superblock.stripes (b : Superblock) : Nat := (b.pages.length + b.blocks.length - 2) / (b.blocks.length - 1)

/-- The pages after which every page that shares a word line of three pages with data page k is programmed (R309). -/
def Superblock.wordLine (b : Superblock) (k : Nat) : Nat :=
  let w := b.blocks.length - 1
  (k / w / 3 + 1) * 3 * w

/-- The CLOSE record of a superblock (R307). -/
def Superblock.closeRec (b : Superblock) (n : Nat) : JournalRec :=
  .closed n b.stripes (match b.excluded with | some k => b.position k | none => 0xFFFF)

/-- Writes a superblock. -/
def State.setSb (s : State) (n : Nat) (b : Superblock) : State := { s with sto := { s.sto with sbs := Map.set s.sto.sbs n b } }

/-- Closes an open superblock: CLOSE (R307). -/
def State.closeSb (s : State) (n : Nat) : State :=
  match Map.find s.sto.sbs n with
  | none => s
  | some b => if b.isOpen then (s.setSb n { b with isOpen := false }).journal (b.closeRec n) else s

/-- The lowest free block of a die in an area. -/
def State.freeBlock (s : State) (p : StoragePlan) (slc : Bool) (d : Nat) : Nat :=
  let (b, n) := p.area slc
  (go s.sto.used d n b)
where
  go (used : List (Nat × Nat)) (d : Nat) : Nat → Nat → Nat
    | 0, k => k
    | n + 1, k => if used.contains (d, k) then go used d n (k + 1) else k

/-- Opens a superblock of a mode in the group that can form most, the lowest first; none where no group can:
OPEN (R298, R305). [DESIGN CHOICE, log 112; unsafe] -/
def State.openSb (s : State) (p : StoragePlan) (slc : Bool) : Option (State × Nat) :=
  let best := (List.range p.groups).foldl (fun (a : Option Nat) g =>
    match a with
    | none => if 0 < s.formable p slc g then some g else none
    | some h => if s.formable p slc h < s.formable p slc g then some g else some h) none
  match best with
  | none => none
  | some g =>
    let blocks := (s.liveDies p g).map fun d => (d, s.freeBlock p slc d)
    let n := s.sto.lastSb + 1
    let s1 := { s with sto := { s.sto with lastSb := n, used := s.sto.used ++ blocks } }
    let member (j : Nat) : Nat × Nat :=
      (blocks.find? fun x => x.1 == g * p.stripeW + j).getD (g * p.stripeW + j, 0xFFFF)
    some (((s1.setSb n { group := g, slc := slc, blocks := blocks }).journal
      (.opened n g slc ((List.range p.stripeW).map member))).judgeShare, n)

/-- The open superblock of a mode with room, opened anew where there is none. -/
def State.roomIn (s : State) (p : StoragePlan) (slc : Bool) : Option (State × Nat) :=
  match s.sto.sbs.find? fun e => e.2.slc == slc && e.2.isOpen with
  | some (n, b) => if b.pages.length < p.capacity b then some (s, n) else (s.closeSb n).openSb p slc
  | none => s.openSb p slc

/-- Programs a page into a superblock of a mode and produces its MAP record; none where no superblock can
be opened (R306). The record of a fold waits for its word line (R309). -/
def State.program (s : State) (p : StoragePlan) (slc : Bool) (page : NandPage) (item : Option (Nat × Nat)) (fold : Bool := false) :
    Option State :=
  match s.roomIn p slc with
  | none => none
  | some (s1, n) => match Map.find s1.sto.sbs n with
    | none => none
    | some b =>
      let k := b.pages.length
      let s2 := s1.setSb n { b with pages := b.pages ++ [some page] }
      let s3 := { s2 with sto := { s2.sto with map := Map.set s2.sto.map page.lu (.place n k) } }
      some (s3.journal (.map page.lu n k (b.phys k)) item (if fold then some (n, b.wordLine k) else none))

/-- The page that an LU maps to. -/
def State.pageOf (s : State) (lu : Nat) : Option NandPage :=
  match Map.find s.sto.map lu with
  | some (.place n k) => match Map.find s.sto.sbs n with
    | some b => (b.pages[k]?).join
    | none => none
  | _ => none

/-- Data pages of a superblock that the map names. -/
def State.validPages (s : State) (n : Nat) : List (Nat × NandPage) :=
  match Map.find s.sto.sbs n with
  | none => []
  | some b => (List.range b.pages.length).filterMap fun k => match (b.pages[k]?).join with
    | some g => if Map.find s.sto.map g.lu = some (.place n k) then some (k, g) else none
    | none => none

/-- Applies a record to a map image (R307). -/
def FtlImage.apply (f : FtlImage) (r : JournalRec) : FtlImage :=
  match r with
  | .map lu n k _ => { f with map := Map.set f.map lu (.place n k) }
  | .opened n _ _ l => { f with opened := f.opened ++ [n], used := f.used ++ l.filter fun x => x.2 != 0xFFFF }
  | .closed _ _ _ => f
  | .release n => { f with opened := f.opened.filter (· != n), released := f.released ++ [n] }
  | .free d b => { f with
      used := f.used.filter (· != (d, b)), erases := Map.set f.erases (65536 * d + b) (Map.findD f.erases (65536 * d + b) 0 + 1) }
  | .retire d c b => { f with retired := f.retired ++ [(d, b, c)] }
  | .poison lu => { f with map := Map.set f.map lu .poisoned }
  | .unmap lu n => { f with map := f.map.filter fun e => decide (e.1 < lu) || decide (lu + n ≤ e.1) }

/-- TYPE and body of a record (R307). -/
def JournalRec.body : JournalRec → Nat × List Byte
  | .map lu _ _ phys => (0x01, packBytes [(4, lu), (4, phys)])
  | .opened n g slc l => (0x02, packBytes ([(4, n), (1, g), (1, if slc then 0 else 1)] ++ l.map fun x => (2, x.2)))
  | .closed n stripes ex => (0x03, packBytes [(4, n), (2, stripes), (2, ex)])
  | .release n => (0x04, packBytes [(4, n)])
  | .free d b => (0x05, packBytes [(1, d), (1, 0), (2, b)])
  | .retire d c b => (0x06, packBytes [(1, d), (1, c), (2, b)])
  | .poison lu => (0x07, packBytes [(4, lu)])
  | .unmap lu n => (0x08, packBytes [(4, lu), (4, n)])

/-- A record as it stands in a batch: TYPE, length and body. -/
def JournalRec.bytes (r : JournalRec) : List Byte := beBytes 1 r.body.1 ++ beBytes 1 r.body.2.length ++ r.body.2

/-- A batch as written to its page, with its CRC (R307). -/
def JournalBatch.bytes (b : JournalBatch) : List Byte :=
  let l := b.records.flatMap JournalRec.bytes
  let x := packBytes [(4, 0x4D4A524E), (4, 36 + l.length), (8, b.seq), (8, b.pace), (4, b.records.length), (4, if b.more then 1 else 0)] ++ l
  x ++ beBytes 4 (crc32c x)

/-- A record put before the first of some lists. -/
def consFirst (r : JournalRec) : List (List JournalRec) → List (List JournalRec)
  | [] => [[r]]
  | x :: l => (r :: x) :: l

/-- The records of one commit, cut so that each batch fits its page of 16,384 bytes with header and CRC (R307). -/
def splitRecords : List JournalRec → Nat → List (List JournalRec)
  | [], _ => [[]]
  | r :: l, used =>
    let n := r.bytes.length
    if 16348 < used + n then [] :: consFirst r (splitRecords l n) else consFirst r (splitRecords l (used + n))

/-- The batches of one commit after the batch numbered `seq` (R307). -/
def batchesOf (seq pace : Nat) (l : List JournalRec) : List JournalBatch :=
  let parts := splitRecords l 0
  parts.zipIdx.map fun x => ⟨seq + 1 + x.2, pace, decide (x.2 + 1 < parts.length), x.1⟩

/-- The batches after a checkpoint, applied in SEQ order up to the first whose SEQ is not one more; the records of a commit
take effect once its last batch is reached. `held` are those of a commit begun, and `n` the batches it has; the answer names
the batches applied (R307, R308). -/
def FtlImage.replay (f : FtlImage) (seq : Nat) (held : List JournalRec) (n : Nat) : List JournalBatch → FtlImage × Nat
  | [] => (f, 0)
  | b :: l =>
    if b.seq ≠ seq + 1 then (f, 0)
    else if b.more then f.replay b.seq (held ++ b.records) (n + 1) l
    else
      let g := (held ++ b.records).foldl FtlImage.apply f
      let r := FtlImage.replay { g with seq := b.seq } b.seq [] 0 l
      (r.1, r.2 + n + 1)

/-- What the checkpoint and the batches after it hold. -/
def StorageState.durable (g : StorageState) : FtlImage := (g.ckpt.replay g.ckpt.seq [] 0 g.log).1

/-- A freed block can be programmed once its FREE is committed; a released superblock's blocks are erased or
retired (R313, R314). -/
def State.committed (s : State) (r : JournalRec) : State :=
  match r with
  | .free d b => { s with sto := { s.sto with used := s.sto.used.filter (· != (d, b)) } }
  | .release n => match Map.find s.sto.sbs n with
    | none => s
    | some b =>
      let bad := b.retire.map fun x => (x.1, x.2.1)
      let s1 := { s with sto := { s.sto with
        erasing := s.sto.erasing ++ b.blocks.filter fun x => !bad.contains x && !s.sto.failed.contains x.1
        retired := s.sto.retired ++ b.retire, sbs := Map.erase s.sto.sbs n } }
      b.retire.foldl (fun (t : State) x =>
        (t.setF (F.STO_DIE_STAT.RETIRED x.1) (t.fld (F.STO_DIE_STAT.RETIRED x.1) + 1)).journal (.retire x.1 x.2.2 x.2.1)) s1
  | _ => s

/-- Whether the word line that a record of a fold waits for is programmed, or its superblock closed (R309). -/
def State.holdDone (s : State) (w : JournalWait) : Bool :=
  match w.hold with
  | none => true
  | some (n, k) => match Map.find s.sto.sbs n with
    | some b => !b.isOpen || decide (k ≤ b.pages.length)
    | none => true

/-- A MAP record of a fold whose unit has been written anew since: it is dropped (R301, R309). -/
def State.staleMap (s : State) (w : JournalWait) : Bool :=
  match w.hold, w.record with
  | some _, .map lu n k _ => decide (Map.find s.sto.map lu ≠ some (.place n k))
  | _, _ => false

/-- JOURNAL_COMMIT: the records produced before a pace are committed together, and the items that wait for
them end DONE (R306, R307). With no record there is no batch. -/
def State.commitJournal (s0 : State) (upto : Nat) : State :=
  let s := { s0 with evt := s0.evt.durable upto }
  let go (w : JournalWait) : Bool := decide (w.pace < upto) && s.holdDone w
  let ready := (s.sto.waiting.filter go).filter fun w => !s.staleMap w
  if ready.isEmpty then s
  else
    let seq := match s.sto.log.getLast? with | some b => b.seq | none => s.sto.ckpt.seq
    let new := batchesOf seq s.now (ready.map fun w => w.record)
    let s1 := { s with
      sto := { s.sto with waiting := s.sto.waiting.filter fun w => !go w, log := s.sto.log ++ new }
      regs := s.regs.setF F.STO_JRNL_SEQ.SEQ ((seq + new.length) % 4294967296) }
    let s2 := ready.foldl (fun (t : State) w => t.committed w.record) s1
    (ready.foldl (fun (t : State) w => match w.item with
      | some (a, b) => t.endItem a b 0
      | none => t) s2).judgeShare.judgeReadonly

/-- JOURNAL_COMMIT (R306). -/
def execJournalCommit (s : State) : Host.Outcome State Fault Refusal := .next (s.commitJournal s.now)

/-- At a pace boundary every record of the pace before the last is committed (R306). -/
def State.journalDue (s : State) : State := s.commitJournal (s.now - 1)

/-- MAP_CHECKPOINT: after 64 MiB of journal, one page for each batch; it takes the place of the older one (R308). -/
def execMapCheckpoint (s : State) : Host.Outcome State Fault Refusal :=
  .next (if 4096 ≤ s.sto.log.length then
      { s with sto := { s.sto with ckpt := s.sto.durable, older := some s.sto.ckpt, log := [] } }
    else s)

/-! ### BULK (R301 to R303, R311) -/

/-- The number of BULK sectors. -/
def StoragePlan.bulkSectors (p : StoragePlan) : Nat := p.nsMib.getD 6 0 * 256

/-- Four sectors of zero bytes, all unwritten. -/
def blankSectors : List (List Byte) := List.replicate 4 []

/-- Writes one sector: its unit is read, changed and programmed anew, its other sectors' poison carried
(R301). -/
def State.writeSector (s : State) (p : StoragePlan) (lba : Nat) (d : List Byte) (item : Nat × Nat) : Option State :=
  let lu := p.nsBase 6 + lba / 4
  let whole := decide (Map.find s.sto.map lu = some .poisoned)
  let old : NandPage := (s.pageOf lu).getD ⟨lu, if whole then 15 else 0, blankSectors⟩
  let page : NandPage := ⟨lu, old.mask &&& ~~~ BitVec.ofNat 4 (2 ^ (lba % 4)), setAt old.sectors (lba % 4) d⟩
  s.program p true page (some item)

/-- Waiting class-3 writes proceed in order while foreground collection permits each (R311). -/
def State.pumpWrites (s : State) (p : StoragePlan) : Nat → State
  | 0 => s
  | n + 1 => match s.sto.writes with
    | [] => s
    | w :: rest =>
      if s.fld F.STO_STAT.FG = 1 ∧ s.sto.freed = 0 then s
      else match s.writeSector p w.lba w.data (w.slot, w.item) with
        | none => s
        | some s1 => ({ s1 with sto := { s1.sto with writes := rest, freed := 0 } } : State).pumpWrites p n

/-- An item fails with THROTTLED and is counted. -/
def State.throttled (s : State) : State := s.bump F.STO_THROTTLE_CNT.COUNT

/-- A BULK_SECTOR item (R301, R302, R311, R312). -/
def runBulkSector (s : State) (r : ItemRef) (t : Tlv) : State × ItemEnd :=
  match s.storagePlan with
  | none => (s, .failed Cause.LBA_RANGE)
  | some p =>
    let lba := fieldAt t.value 0 8
    if p.bulkSectors ≤ lba then (s, .failed Cause.LBA_RANGE)
    else if s.fld F.STO_STAT.READONLY = 1 then (s, .failed Cause.NS_FULL)
    else if s.fld F.STO_STAT.RESERVE = 1 then (s.throttled, .failed Cause.THROTTLED)
    else
      let w : BulkWait := ⟨r.task, r.item, lba, t.value.drop 8, s.now⟩
      let s1 := { s with sto := { s.sto with writes := s.sto.writes ++ [w] } }
      (s1.pumpWrites p s1.sto.writes.length, .waiting)

/-- BULK_WRITE (R301, R302). -/
def execBulkWrite (m : Msg) (s : State) : Host.Outcome State Fault Refusal :=
  .next (s.serve 0x0091 m fun t => t.taskCommand m (some 14) runBulkSector)

/-- THROTTLE_TIMEOUT: class-3 items that have waited MAX_MS paces fail (R311). -/
def execThrottleTimeout (s : State) : Host.Outcome State Fault Refusal :=
  let due (w : BulkWait) : Bool := decide (w.since + s.fld F.STO_THROTTLE.MAX_MS ≤ s.now)
  let gone := s.sto.writes.filter due
  let s1 := { s with sto := { s.sto with writes := s.sto.writes.filter fun w => !due w } }
  .next (gone.foldl (fun (t : State) w => t.throttled.endItem w.slot w.item Cause.THROTTLED) s1)

/-- Bytes of a sector that nothing defines: free (R303). -/
def freeSector (s : State) : List Byte := beBytes 4096 s.free

/-- The contents of one BULK sector; none where it is poisoned. A page on a failed die is rebuilt
(R303 to R305). -/
def State.readSector (s : State) (p : StoragePlan) (lba : Nat) : State × Option (List Byte) :=
  let lu := p.nsBase 6 + lba / 4
  match Map.find s.sto.map lu with
  | some .poisoned => (s, none)
  | none => (s.draw, some (freeSector s))
  | some (.place n k) =>
    let onFailed := match Map.find s.sto.sbs n with
      | some b => s.sto.failed.contains (b.blockOf k).1
      | none => false
    let s1 := if onFailed then s.bump F.STO_REBUILD_CNT.COUNT else s
    match s.pageOf lu with
    | none => (s1.draw, some (freeSector s))
    | some g =>
      if g.mask.getLsbD (lba % 4) then (s1, none)
      else
        let d := g.sectors.getD (lba % 4) []
        if d.isEmpty then (s1.draw, some (freeSector s)) else (s1, some d)

/-- Sectors in order; none where one is poisoned. -/
def State.readSectors (p : StoragePlan) (lba : Nat) : Nat → State → State × Option (List Byte)
  | 0, s => (s, some [])
  | n + 1, s => match s.readSector p lba with
    | (s1, none) => (s1, none)
    | (s1, some d) => match State.readSectors p (lba + 1) n s1 with
      | (s2, none) => (s2, none)
      | (s2, some l) => (s2, some (d ++ l))

/-- A BULK_SPAN item (R302, R304). -/
def runBulkSpan (s : State) (_r : ItemRef) (t : Tlv) : State × ItemEnd :=
  match s.storagePlan with
  | none => (s, .failed Cause.LBA_RANGE)
  | some p =>
    let lba := fieldAt t.value 0 8
    let n := fieldAt t.value 8 2
    if n = 0 ∨ 16 < n ∨ p.bulkSectors < lba + n then (s, .failed Cause.LBA_RANGE)
    else match State.readSectors p lba n s with
      | (s1, some d) => (s1, .done (some d))
      | (s1, none) => (s1, .failed Cause.MEDIA_ERROR)

/-- BULK_READ (R302). -/
def execBulkRead (m : Msg) (s : State) : Host.Outcome State Fault Refusal :=
  .next (s.serve 0x0090 m fun t => t.taskCommand m (some 13) runBulkSpan)

/-- A BULK_TRIM item: whole units of the range that are not poisoned are unmapped (R303). -/
def runBulkTrim (s : State) (_r : ItemRef) (t : Tlv) : State × ItemEnd :=
  match s.storagePlan with
  | none => (s, .failed Cause.LBA_RANGE)
  | some p =>
    let lba := fieldAt t.value 0 8
    let n := fieldAt t.value 8 4
    if n = 0 ∨ 1048576 < n ∨ p.bulkSectors < lba + n then (s, .failed Cause.LBA_RANGE)
    else
      let lo := p.nsBase 6 + (lba + 3) / 4
      let hi := p.nsBase 6 + (lba + n) / 4
      let clean (lu : Nat) : Bool := match s.pageOf lu with | some g => g.mask == 0 | none => false
      let units := (s.sto.map.filter fun e => decide (lo ≤ e.1) && decide (e.1 < hi) && clean e.1).map fun e => e.1
      (units.foldl (fun (t : State) lu =>
        ({ t with sto := { t.sto with map := Map.erase t.sto.map lu } } : State).journal (.unmap lu 1)) s, .done none)

/-- BULK_DISCARD (R303). -/
def execBulkDiscard (m : Msg) (s : State) : Host.Outcome State Fault Refusal :=
  .next (s.serve 0x0092 m fun t => t.taskCommand m (some 14) runBulkTrim)

/-! ### Folding and collection (R309, R310, R314) -/

/-- A superblock without valid unit is released: RELEASE (R314); behind a fold, with its last MAP record (R309). -/
def State.releaseIfEmpty (s : State) (n : Nat) (hold : Option (Nat × Nat) := none) : State :=
  match Map.find s.sto.sbs n with
  | none => s
  | some b =>
    if !b.isOpen && !b.released && (s.validPages n).isEmpty then
      (s.setSb n { b with released := true }).journal (.release n) none hold
    else s

/-- Copies valid units of a superblock into TLC; stops where no superblock can be opened. -/
def State.copyUnits (p : StoragePlan) (fold : Bool) : List (Nat × NandPage) → State → State
  | [], s => s
  | (_, g) :: l, s => match s.program p false g none fold with
    | none => s
    | some s1 =>
      State.copyUnits p fold l ({ s1.bump F.STO_GC_UNITS.COUNT with sto := { s1.sto with freed := s1.sto.freed + 1 } })

/-- Moves the valid units that `pick` selects, and releases the superblock when none is left. -/
def State.moveOut (s : State) (p : StoragePlan) (fold : Bool) (n : Nat) (pick : Nat → Bool) : State :=
  let s1 := State.copyUnits p fold ((s.validPages n).filter fun e => pick e.1) s
  let last := if fold then (s1.sto.waiting.getLast?).bind fun w => w.hold else none
  let s2 := s1.releaseIfEmpty n last
  s2.pumpWrites p s2.sto.writes.length

/-- FOLD: with fewer than 25 % of the SLC buffer free, the oldest closed SLC superblock is folded (R309). -/
def execFoldBlock (s : State) : Host.Outcome State Fault Refusal :=
  match s.storagePlan with
  | none => .next s
  | some p =>
    let free := sumNat (fun d => s.freeCount p true d) (List.range p.dies)
    .next (if free * 4 < p.slcBlocks * p.dies then
        match s.sto.sbs.find? fun e => e.2.slc && !e.2.isOpen && !e.2.released with
        | some (n, _) => s.moveOut p true n fun _ => true
        | none => s
      else s)

/-- The erase count of a block. -/
def State.eraseCount (s : State) (x : Nat × Nat) : Nat := Map.findD s.sto.erases (65536 * x.1 + x.2) 0

/-- The entry with the least key; the earlier one where keys are equal. -/
def leastBy (f : Nat → Nat) : List Nat → Option Nat
  | [] => none
  | a :: l => match leastBy f l with
    | none => some a
    | some b => if f b < f a then some b else some a

/-- The victim of a collection job, in the order of R310, and which of its pages move. -/
def State.victim (s : State) (p : StoragePlan) : Option (Nat × (Nat → Bool)) :=
  let live := s.sto.sbs.filter fun e => !e.2.isOpen && !e.2.released
  let tlc := (live.filter fun e => !e.2.slc).map fun e => e.1
  let mean (n : Nat) : Nat := match Map.find s.sto.sbs n with
    | some b => sumNat (fun x => s.eraseCount x) b.blocks * 1000 / max 1 b.blocks.length
    | none => 0
  let counts := (live.filter fun e => !e.2.slc).flatMap fun e => e.2.blocks.map fun x => s.eraseCount x
  let spread := (counts.foldl max 0) - (counts.foldl min (counts.headD 0))
  match live.find? fun e => e.2.first with
  | some e => some (e.1, fun _ => true)
  | none => match live.find? fun e => !e.2.refresh.isEmpty with
    | some e => some (e.1, fun k => e.2.refresh.contains k)
    | none =>
      let byWear := if s.fld F.STO_WL.DELTA < spread then leastBy mean tlc else none
      match byWear with
      | some n => some (n, fun _ => true)
      | none =>
        if (s.freeShare p).2 < s.fld F.STO_GC.BG_PCT * 100 then
          (leastBy (fun n => (s.validPages n).length) (live.map fun e => e.1)).map fun n => (n, fun _ => true)
        else none

/-- COLLECTION_JOB (R310, R314). -/
def execCollectionJob (s : State) : Host.Outcome State Fault Refusal :=
  match s.storagePlan with
  | none => .next s
  | some p => match s.victim p with
    | none => .next s
    | some (n, pick) =>
      let s1 := match Map.find s.sto.sbs n with
        | some b => s.setSb n { b with refresh := b.refresh.filter fun k => !pick k }
        | none => s
      let s2 := s1.moveOut p false n pick
      let left := s.sto.failed.any fun d => s2.sto.sbs.any fun e =>
        (s2.validPages e.1).any fun k => (e.2.blockOf k.1).1 == d
      .next ((if left then s2 else s2.flag F.STO_STAT.DEGRADED false).judgeShare)

/-- BLOCK_ERASE_DONE: a completed erase produces FREE (R314). -/
def execBlockEraseDone (die block : Nat) (s : State) : Host.Outcome State Fault Refusal :=
  .next (if s.sto.erasing.contains (die, block) then
      let s1 := { s with sto := { s.sto with
        erasing := s.sto.erasing.filter (· != (die, block))
        erases := Map.set s.sto.erases (65536 * die + block) (s.eraseCount (die, block) + 1) } }
      s1.journal (.free die block)
    else s)

/-! ### Failures (R304, R305, R313) -/

/-- A unit is poisoned: POISON, and the event with namespace and LU (R304). -/
def State.poisonUnit (s : State) (lu : Nat) : State :=
  let k := match s.storagePlan with | some p => p.nsOf lu | none => 6
  let s1 := { s with sto := { s.sto with map := Map.set s.sto.map lu .poisoned } }
  ((s1.journal (.poison lu)).bump F.STO_MEDIA_ERR_CNT.COUNT).post Ev.STO_MEDIA_ERROR [b8 (k : Nat), b8 (lu : Nat)]

/-- PAGE_READ of data page k of a superblock: `retries` read-retry levels, whether one decoded, whether the stripe rebuilds
it, and whether the partner's copy of the unit, fetched over a pair link that is up, is good (R304, R396). -/
def execPageRead (sb page retries : Nat) (decoded rebuilt partner : Bool) (s : State) : Host.Outcome State Fault Refusal :=
  match Map.find s.sto.sbs sb with
  | none => .next s
  | some b => match (b.pages[page]?).join with
    | none => .next s
    | some g =>
      let dead := s.sto.failed.contains (b.blockOf page).1
      let s1 := if dead then s else s.bump F.STO_RETRY_CNT.COUNT retries
      let due := if b.refresh.contains page then b.refresh else b.refresh ++ [page]
      .next (if decoded && !dead then s1
        else if rebuilt then (s1.bump F.STO_REBUILD_CNT.COUNT).setSb sb { b with refresh := due }
        else if partner && s.linkUp then s1.setSb sb { b with refresh := due }
        else if Map.find s.sto.map g.lu = some (.place sb page) then s1.poisonUnit g.lu
        else s1)

/-- PROGRAM_FAIL of the newest page of an open superblock: its unit goes to the next page of another open
superblock of its class, and the failing one is closed, collected first, and its block retired (R313). -/
def execProgramFail (sb : Nat) (s : State) : Host.Outcome State Fault Refusal :=
  match s.storagePlan, Map.find s.sto.sbs sb with
  | some p, some b =>
    let k := b.pages.length - 1
    match (b.pages[k]?).join with
    | none => .next s
    | some g =>
      if !b.isOpen then .next s
      else
        let (d, blk) := b.blockOf k
        let s1 := (s.bump F.STO_PROG_FAIL_CNT.COUNT).post Ev.STO_PROG_FAIL [b2 d, b2 blk]
        let own (w : JournalWait) : Bool := w.record == .map g.lu sb k (b.phys k)
        let held := s1.sto.waiting.find? own
        let s2 := { s1 with sto := { s1.sto with waiting := s1.sto.waiting.filter fun w => !own w } }
        let b1 := { b with
          pages := setAt b.pages k none, isOpen := false, excluded := some k, first := true, retire := b.retire ++ [(d, blk, 0)] }
        let s3 := (s2.setSb sb b1).journal (b1.closeRec sb)
        .next (match s3.program p b.slc g (held.bind fun w => w.item) ((held.bind fun w => w.hold).isSome) with
          | some s4 => s4
          | none => s3)
  | _, _ => .next s

/-- ERASE_FAIL: the block is retired with cause 1 (R313). -/
def execEraseFail (die block : Nat) (s : State) : Host.Outcome State Fault Refusal :=
  .next (if s.sto.erasing.contains (die, block) then
      let s1 := { s with sto := { s.sto with
        erasing := s.sto.erasing.filter (· != (die, block)), retired := s.sto.retired ++ [(die, block, 1)] } }
      let s2 := (s1.bump F.STO_ERASE_FAIL_CNT.COUNT).setF (F.STO_DIE_STAT.RETIRED die) (s.fld (F.STO_DIE_STAT.RETIRED die) + 1)
      (s2.journal (.retire die 1 block)).judgeReadonly
    else s)

/-- A die fails: its superblocks are collected first; units whose stripe has lost two pages are poisoned
(R305). -/
def State.dieFails (s : State) (d : Nat) : State :=
  match s.storagePlan with
  | none => s
  | some p =>
    if p.dies ≤ d ∨ s.sto.failed.contains d then s
    else
      let failed := s.sto.failed ++ [d]
      let hurt (b : Superblock) : Bool := b.blocks.any fun x => x.1 == d
      let closed := (s.sto.sbs.filter fun e => hurt e.2).foldl (fun (t : State) e => t.closeSb e.1) s
      let sbs := Map.mapVals (fun _ (b : Superblock) => if hurt b then { b with first := true } else b) closed.sto.sbs
      let s1 := { closed with sto := { closed.sto with failed := failed, sbs := sbs } }
      let s2 := (s1.flag (F.STO_DIE_STAT.FAILED d) true).post Ev.STO_DIE_FAIL [b2 d]
      let twice (b : Superblock) : Bool := decide (2 ≤ (b.blocks.filter fun x => failed.contains x.1).length)
      let lost := (sbs.filter fun e => twice e.2).flatMap fun e =>
        (s2.validPages e.1).filterMap fun k => if failed.contains (e.2.blockOf k.1).1 then some k.2.lu else none
      let s3 := lost.foldl (fun (t : State) lu => t.poisonUnit lu) s2
      let holds := s3.sto.sbs.any fun e => (s3.validPages e.1).any fun k => failed.contains (e.2.blockOf k.1).1
      ((if holds then s3.flag F.STO_STAT.DEGRADED true else s3).judgeShare).judgeReadonly

/-- DIE_FAIL: READ STATUS ENHANCED timed out three times in a row (R305). -/
def execDieFail (die : Nat) (s : State) : Host.Outcome State Fault Refusal := .next (s.dieFails die)

/-- SCRUB: a scrub read with the largest corrected bit count of a codeword (R316). -/
def execScrub (sb page bits : Nat) (s : State) : Host.Outcome State Fault Refusal :=
  match Map.find s.sto.sbs sb with
  | none => .next s
  | some b =>
    .next (if page < b.pages.length ∧ s.fld F.STO_SCRUB.THR_PCT * 72 ≤ bits * 100 ∧ !b.refresh.contains page
      then s.setSb sb { b with refresh := b.refresh ++ [page] } else s)

/-! ### Start (R299, R308) -/

/-- The restore of R308: the newest checkpoint and the batches after it give the map; open superblocks are closed;
superblocks without a valid unit are released, and every released block is erased again and freed. A superblock whose
OPEN was not committed is closed and released like the others. [DEDUCED, log 164; unsafe] -/
def State.storageRestore (s : State) : State :=
  let r := s.sto.ckpt.replay s.sto.ckpt.seq [] 0 s.sto.log
  let f := r.1
  let sbs := Map.mapVals (fun n (b : Superblock) => { b with released := f.released.contains n }) s.sto.sbs
  let extra := (sbs.flatMap fun e => e.2.blocks).filter fun x => !f.used.contains x
  let s1 : State := { s with sto := { s.sto with
    map := f.map, used := f.used ++ extra, erases := f.erases, sbs := sbs, waiting := [], writes := [], freed := 0 } }
  let s2 := (s1.sto.sbs.foldl (fun (t : State) e => (t.closeSb e.1).releaseIfEmpty e.1) s1).commitJournal (s1.now + 1)
  let s3 := s2.sto.erasing.foldl (fun (t : State) x =>
    ({ t with sto := { t.sto with erases := Map.set t.sto.erases (65536 * x.1 + x.2) (t.eraseCount x + 1) } } : State).journal
      (.free x.1 x.2)) { s2 with sto := { s2.sto with erasing := [] } }
  let s4 := ((s3.commitJournal (s3.now + 1)).flag F.STO_STAT.READY true).post Ev.STO_RESTORED [b4 r.2]
  s4.judgeShare.judgeReadonly

/-- The boot record of a STORAGE section: its bytes 0 to 23 (R296, R299). -/
def StoragePlan.bootBytes (p : StoragePlan) : List Byte :=
  packBytes [(1, p.dies), (1, p.stripeW), (2, p.pageBytes), (2, p.spareBytes), (2, p.pagesPerBlock), (2, p.blocksPerDie),
    (1, p.slcAddr), (1, p.slcOn), (1, p.slcOff), (1, 0), (2, p.rateMts), (2, p.sysBlocks), (1, p.slcPct), (1, p.opPct),
    (2, p.retentionDays), (1, p.minIvl), (1, 0)]

/-- The boot record that the loader reads: the first valid copy (R299). -/
def StorageState.bootRecord (g : StorageState) : Option (List Byte) := g.boot.1 <|> g.boot.2

/-- The copies of the boot record that still read back at a start (R299). -/
def State.readBoots (s : State) (read : Bool × Bool) : State :=
  { s with sto := { s.sto with
    boot := (if read.1 then s.sto.boot.1 else none, if read.2 then s.sto.boot.2 else none) } }

/-- SAVE entry: the records produced so far are committed (R315). -/
def State.storageSave (s : State) : State := s.commitJournal (s.now + 1)

end Sys2Proof.Machine
end

