-- ==== Sys2Proof/Machine/Image.lean ====
section
/-! DEFINITION. What a Warp image puts into force: the fields whose Reset column reads Warp, REG_INIT and
its locks (R34), and the changes each section makes as it applies (R33, R40 to R43, R69, R97, R121, R214). -/

namespace Sys2Proof.Machine

/-! ### Fields that read Warp (R7, R34) -/

/-- A number as the bits of a field (R5). -/
def fieldBits (f : FieldRef) (v : Int) : Nat := (v % (2 : Int) ^ (f.hi - f.lo + 1)).toNat

/-- The COST_US a plan gives an engine on a lane. -/
def planCost (p : List PaceEntry) (engine lane : Nat) : Nat :=
  ((p.filter fun e => e.engine == engine && e.lane == lane).map fun e => e.costUs).foldl (· + ·) 0

/-- Fields of PACE_PLAN. -/
def paceFields (p : List PaceEntry) : List (FieldRef × Nat) :=
  (List.range 8).flatMap fun l =>
    [(F.PACE_BAL_US.US l, planCost p 0x10 l), (F.PACE_FTL_US.US l, planCost p 0x12 l)]

/-- Fields of HOST_PLAN. -/
def hostFields (p : List HostEntry) : List (FieldRef × Nat) :=
  (List.range 8).map fun c => (F.HOST_CTX_STAT.CONFIGURED c, if p.any fun e => e.context == c then 1 else 0)

/-- Fields of SENSOR_PLAN. -/
def sensorFields (p : SensorPlan) : List (FieldRef × Nat) :=
  (p.sensors.zipIdx.flatMap fun e =>
    [(F.MET_SENS_OFS.OFFSET e.2, fieldBits (F.MET_SENS_OFS.OFFSET e.2) e.1.offset),
     (F.MET_SENS_GAIN.GAIN e.2, e.1.gain)]) ++
  p.channels.zipIdx.flatMap fun e => e.1.terms.zipIdx.flatMap fun t =>
    [(F.MET_CH_TERM.SENSOR e.2 t.2, t.1.sensor),
     (F.MET_CH_COEF.COEFF e.2 t.2, fieldBits (F.MET_CH_COEF.COEFF e.2 t.2) t.1.coeff)]

/-- Fields of QTY_PLAN. -/
def qtyFields (p : QtyPlan) : List (FieldRef × Nat) :=
  let bit (b : Bool) : Nat := if b then 1 else 0
  (p.points.zipIdx.flatMap fun e =>
    [(F.QTY_MP_STAT.DC e.2, bit e.1.dc), (F.QTY_MP_STAT.ENABLED e.2, bit e.1.enabled)]) ++
  p.pulses.zipIdx.flatMap fun e =>
    [(F.QTY_PULSE_CFG.ENABLED e.2, bit e.1.enabled), (F.QTY_PULSE_CFG.ACTIVE_LOW e.2, bit e.1.activeLow),
     (F.QTY_PULSE_CFG.MP e.2, e.1.mp), (F.QTY_PULSE_CFG.ACC e.2, e.1.acc),
     (F.QTY_PULSE_CFG.WIDTH_MS e.2, e.1.widthMs), (F.QTY_PULSE_CONST.CONSTANT e.2, e.1.const)]

/-- The calendar that an image binds a point to: none where the point is not ENABLED (R174). -/
def WarpImage.calOf (w : WarpImage) (n : Nat) : Option Nat :=
  (w.qtyPlan.point n).bind fun _ => let c := w.legal.mpCal.getD n 0xFF; if c ≤ 63 then some c else none

/-- Fields of LEGAL, with QTY_PLAN, which says what points are ENABLED (R174). -/
def legalFields (w : WarpImage) : List (FieldRef × Nat) :=
  [(F.LEG_STAT.TRACED_OK, if w.legal.flags.getLsbD 0 then 1 else 0)] ++
  ((List.range 64).map fun c => (F.TAR_CAL_STAT.MP_BOUND c, if (List.range 12).any fun n => w.calOf n == some c then 1 else 0)) ++
  (List.range 12).map fun n => (F.TAR_MP_CAL.CAL n, (w.calOf n).getD 0xFF)

/-- Fields of RF_BANDS. -/
def rfFields (p : Option RfBands) : List (FieldRef × Nat) :=
  (List.range 2).map fun x => (F.RFM_STAT.ROLE x, match p with
    | some b => (match b.radios[x]? with | some r => r.role | none => 0)
    | none => 0)

/-- Fields of PLC_BANDS. -/
def plcFields (p : Option (List PlcConf)) : List (FieldRef × Nat) :=
  (List.range 4).flatMap fun x => match (p.getD [])[x]? with
    | some c => [(F.PLC_STAT.ROLE x, c.role), (F.PLC_STAT.REF_SRC x, c.refSrc), (F.PLC_MODE.SF_MS x, c.sfMs),
        (F.PLC_MODE.CFP_PCT x, c.cfpPct), (F.PLC_MODE.MODE x, c.mode)]
    | none => [(F.PLC_STAT.ROLE x, 0), (F.PLC_STAT.REF_SRC x, 0), (F.PLC_MODE.SF_MS x, 0), (F.PLC_MODE.CFP_PCT x, 0),
        (F.PLC_MODE.MODE x, 0)]

/-- Fields of PORTS. -/
def portFields (p : PortsPlan) : List (FieldRef × Nat) :=
  (p.ports.zipIdx.map fun e => (F.PRT_ROLE.ROLE e.2, e.1.role)) ++
  (List.range 8).map fun i => (F.PRT_ETH_STAT.PTP i, if p.ptpPort = i then 1 else 0)

/-- Fields of STORAGE. -/
def storageFields (p : StoragePlan) : List (FieldRef × Nat) :=
  (List.range 64).map (fun d => (F.STO_DIE_STAT.PRESENT d, if d < p.dies then 1 else 0)) ++
  p.nsMib.zipIdx.map fun e => (F.STO_NS_SIZE.MIB e.2, e.1)

/-- Fields of PAIR_PLAN, with the member's number. -/
def pairFields (p : Option PairPlan) (member : Nat) : List (FieldRef × Nat) :=
  [(F.PAIR_STAT.MEMBER, member), (F.PAIR_LAG.LAG_US, match p with | some q => q.lagUs | none => 0)]

/-- Writes fields. -/
def RegFile.setFields (m : RegFile) (l : List (FieldRef × Nat)) : RegFile := l.foldl (fun r e => r.setF e.1 e.2) m

/-- Whether a section of an image differs from that of the image before it (R33). -/
def sectionChanged {α : Type} [DecidableEq α] (old : Option WarpImage) (new : WarpImage) (f : WarpImage → α) : Bool :=
  match old with
  | some o => decide (f o ≠ f new)
  | none => true

/-- The Warp fields of the sections that differ from `old`; all of them where `old` is none (R33, R34). -/
def warpFields (old : Option WarpImage) (w : WarpImage) (member : Nat) : List (FieldRef × Nat) :=
  let on (c : Bool) (l : List (FieldRef × Nat)) : List (FieldRef × Nat) := if c then l else []
  [(F.SYS_WARP_ACTIVE.SERIAL, w.serial.toNat)] ++
  on (sectionChanged old w (·.pacePlan)) (paceFields w.pacePlan) ++
  on (sectionChanged old w (·.hostPlan)) (hostFields w.hostPlan) ++
  on (sectionChanged old w (·.sensorPlan)) (sensorFields w.sensorPlan) ++
  on (sectionChanged old w (·.qtyPlan)) (qtyFields w.qtyPlan) ++
  on (sectionChanged old w (·.legal) || sectionChanged old w (·.qtyPlan)) (legalFields w) ++
  on (sectionChanged old w (·.rfBands)) (rfFields w.rfBands) ++
  on (sectionChanged old w (·.plcBands)) (plcFields w.plcBands) ++
  on (sectionChanged old w (·.ports)) (portFields w.ports) ++
  on (sectionChanged old w (·.storage)) (storageFields w.storage) ++
  on (sectionChanged old w (·.pairPlan)) (pairFields w.pairPlan member)

/-! ### Queues (R324) -/

/-- Fields of QUEUE_PLAN: the tickets, and what each queue reads; a queue it no longer holds reads 0. -/
def queueFields (old : List Nat) (p : QueuePlan) : List (FieldRef × Nat) :=
  ((old.filter fun q => !p.queues.any fun e => e.queue == q).flatMap fun q =>
    [(F.QUE_STAT.CONFIGURED q, 0), (F.QUE_IDLE_LO.IDLE_LO q, 0), (F.QUE_IDLE_HI.IDLE_HI q, 0), (F.QUE_CFG.DURABLE q, 0),
     (F.QUE_CFG.DEPTH_LOG2 q, 0), (F.QUE_CFG.BASE q, 0)]) ++
  (p.queues.flatMap fun e =>
    [(F.QUE_STAT.CONFIGURED e.queue, 1), (F.QUE_IDLE_LO.IDLE_LO e.queue, e.idle.toNat % 2 ^ 32),
     (F.QUE_IDLE_HI.IDLE_HI e.queue, e.idle.toNat / 2 ^ 32), (F.QUE_CFG.DURABLE e.queue, e.flags.toNat % 2),
     (F.QUE_CFG.DEPTH_LOG2 e.queue, e.depthLog2 % 16), (F.QUE_CFG.BASE e.queue, e.base)]) ++
  (List.range 4).flatMap fun k =>
    [(F.ARB_TICKETS.T0 k, p.tickets.getD (4 * k) 0), (F.ARB_TICKETS.T1 k, p.tickets.getD (4 * k + 1) 0),
     (F.ARB_TICKETS.T2 k, p.tickets.getD (4 * k + 2) 0), (F.ARB_TICKETS.T3 k, p.tickets.getD (4 * k + 3) 0)]

/-- A changed QUEUE_PLAN: a queue whose entry changes starts empty, with its pointers at 0 (R318, R323).
[DESIGN CHOICE, log 142; unsafe] -/
def State.changeQueues (s : State) (old new : QueuePlan) : State :=
  let same (e : QueueEntry) : Bool := old.queues.contains e
  let s1 := (old.queues.filter fun e => !new.queues.contains e).foldl (fun (t : State) e =>
    { t with que := { t.que with queues := Map.erase t.que.queues e.queue } }) s
  (new.queues.filter fun e => !same e).foldl (fun (t : State) e => t.setQueue e.queue e.depthLog2 {}) s1

/-! ### REG_INIT (R34) -/

/-- A register with the bits of a REG_INIT entry. -/
def RegFile.regInit (m : RegFile) (e : RegInit) : RegFile :=
  m.put e.addr ((m.get e.addr &&& ~~~ e.mask) ||| (e.value &&& e.mask))

/-- The bits of a register that the active image locks. -/
def State.lockMask (s : State) (addr : Nat) : Word :=
  match s.warp.active with
  | none => 0
  | some w => w.regInit.foldl (fun (m : Word) e => if e.lock && e.addr == addr then m ||| e.mask else m) 0

/-- The registers as an image sets them: its Warp fields, its queues, and its REG_INIT where that differs
from the one of `old` (R34). -/
def State.installRegs (s : State) (old : Option WarpImage) (w : WarpImage) : State :=
  let r := s.regs.setFields (warpFields old w (s.memberNo.getD 0))
  let was : QueuePlan := match old with | some o => o.queuePlan | none => ⟨[], []⟩
  let s1 : State := { s with regs := r }
  let s2 : State := if sectionChanged old w (·.queuePlan) then
      (({ s1 with regs := r.setFields (queueFields (was.queues.map fun e => e.queue) w.queuePlan) } : State).changeQueues
        was w.queuePlan)
    else s1
  { s2 with regs := if sectionChanged old w (·.regInit) then w.regInit.foldl RegFile.regInit s2.regs else s2.regs }

/-! ### Sealed sections -/

/-- Whether an image makes a sealed change (R33, R214). [DEDUCED, log 42; unsafe] -/
def sealedDiffers (old : Option WarpImage) (w : WarpImage) : Bool :=
  sectionChanged old w (·.sensorPlan) || sectionChanged old w (·.qtyPlan) || sectionChanged old w (·.legal)

/-- A changed sensor entry: its window closes without an estimate, and AZ returns to 0 (R90, R97). -/
def State.changeSensor (old new : SensorPlan) (s : State) (i : Nat) : State :=
  if old.sensors[i]? = new.sensors[i]? then s
  else
    let s1 := s.setZero i none
    { s1 with regs := (s1.regs.setFInt (F.MET_SENS_AZ.AZ i) 0).flag (F.MET_SENS_STAT.AZ_LIMIT i) false }

/-- A changed channel entry: its magnitude window restarts (R82, R97). -/
def State.changeChannel (old new : SensorPlan) (s : State) (c : Nat) : State :=
  if old.channels[c]? = new.channels[c]? then s
  else { s with met := { s.met with
    channels := Map.adjust s.met.channels c fun (x : ChannelState) => { x with window := [] } } }

/-- Step 6 under a changed plan: g of a changed channel is formed from M with its new breakpoints (R97). -/
def State.changeGains (s : State) (new : SensorPlan) : State :=
  if s.fld F.MET_STAT.READY = 1 then s.formGains new else s

/-- A change of SENSOR_PLAN after the front end has judged the pace that ended; a run of refinement on a
changed channel or sensor ends with STATE 7 (R90, R94, R97). -/
def State.changeSensors (s : State) (old new : SensorPlan) : State :=
  let s1 := (List.range 48).foldl (State.changeSensor old new) s
  let s2 := ((List.range 12).foldl (State.changeChannel old new) s1).changeGains new
  match s.met.refine with
  | none => s2
  | some r =>
    let terms := match old.channels[r.ch]? with | some e => e.used | none => []
    if old.channels[r.ch]? ≠ new.channels[r.ch]? ∨ terms.any fun t => old.sensors[t.sensor]? != new.sensors[t.sensor]? then
      s2.refineEnd 7
    else s2

/-- A change of one point's entry (R121). An interval that began at this boundary holds nothing yet and is no interval to
close; windows restart only where coupling, VCH or NOMINAL_HZ change (R102). -/
def State.changePoint (old new : QtyPlan) (s : State) (n : Nat) : State :=
  let sec := s.timeSec
  let held := Map.findD s.qty.points n {}
  let fresh : Bool := held.paces == 0 && decide (s.clk.last < held.start * 1000000000)
  let key (p : QtyPlan) : Option (Bool × Nat × Nat) := p.points[n]?.map fun e => (e.dc, e.vch, e.nominalHz)
  let same : Bool := key old == key new
  let erase (t : State) : State := { t with qty := { t.qty with windows := Map.erase t.qty.windows n } }
  let put (t : State) (c : PointState) : State := { t with qty := { t.qty with points := Map.set t.qty.points n c } }
  match old.point n, new.point n with
  | none, none => s
  | some o, none =>
    let s1 := if fresh then s else s.closeInterval o n 0 0 0
    put s1 { Map.findD s1.qty.points n {} with finish := 0 }
  | none, some e =>
    let len := 60 * e.intervalMin
    let s1 := put s ((Map.findD s.qty.points n {}).begin (sec / len * len) (sec / len * len + len) true)
    let s2 := s1.showPoint n e.dc (Map.findD s1.qty.points n {})
    if same then s2 else erase s2
  | some o, some e =>
    let len := 60 * e.intervalMin
    let s1 := if o.intervalMin = e.intervalMin then s
      else if fresh then put s ((Map.findD s.qty.points n {}).begin sec (sec / len * len + len) false)
      else s.closeInterval o n 0 sec (sec / len * len + len)
    let s2 := if o.dc = e.dc then s1 else s1.showPoint n e.dc (Map.findD s1.qty.points n {})
    if same then s2 else erase s2

/-- A change of one pulse entry: r and PENDING become 0 once any pulse in progress ends (R121). -/
def State.changePulse (old new : QtyPlan) (s : State) (j : Nat) : State :=
  if old.pulses[j]? = new.pulses[j]? then s
  else
    let c := Map.findD s.qty.pulses j {}
    if c.phase = .asserted then
      { s with qty := { s.qty with pulses := Map.set s.qty.pulses j { c with clear := true } } }
    else
      { s with
        qty := { s.qty with pulses := Map.set s.qty.pulses j { c with r := 0, due := 0 } }
        regs := s.regs.setF (F.QTY_PULSE_STAT.PENDING j) 0 }

/-- A change of QTY_PLAN after the samples of the pace that ended are registered (R121). -/
def State.changeQuantities (s : State) (old new : QtyPlan) : State :=
  (List.range 16).foldl (State.changePulse old new) ((List.range 12).foldl (State.changePoint old new) s)

/-- What the sealed sections of a new image change once the work on the pace that ended is done (R97,
R121). -/
def State.changePlans (s : State) (sensor : SensorPlan) (qty : QtyPlan) : State :=
  (s.changeSensors sensor s.sensorPlan).changeQuantities qty s.qtyPlan

/-! ### Host contexts (R41, R69) -/

/-- The link binding and the keys of an entry (R41). -/
def HostEntry.binding (e : HostEntry) : List Nat × List (List Byte) :=
  ([e.link, e.port, e.udpPort, e.peerAddr.toNat, e.peerPrefix, if e.localClear then 1 else 0], e.keys)

/-- A context leaves HOST_PLAN: its tasks end and leave flight, so that what of them has not acted never does, and its
retained notices go (R69).
[DEDUCED, log 40; unsafe] -/
def State.removeContext (s : State) (c : Nat) : State :=
  let tasks := s.host.tasks.filter fun e => e.2.seat == c
  let open_ (t : Task) : Nat := t.todo.length + t.running.length + (t.ended.length - t.reported)
  let items := tasks.foldl (fun n e => n + open_ e.2) 0
  let x := s.ctx c
  let gone (handle : Nat) : Bool := tasks.any fun e => handleOf e.1 e.2.gen == handle
  let s0 := { s with
    clk := { s.clk with hostSamples := s.clk.hostSamples.filter fun h => !gone h.slot }
    key := { s.key with waiting := s.key.waiting.filter fun w => !gone w.slot } }
  let s1 := tasks.foldl (fun (t : State) e => t.dropTask e.1) s0
  (s1.setCtx c { x with session := none, handshake := none, notices := [], full := false, lost := [], parts := [] }).post
    Ev.CONTEXT_REMOVED [b2 c, b4 items, b4 tasks.length, b4 x.notices.length]

/-- A changed HOST_PLAN (R41): sessions of contexts whose binding or keys change close; a store is judged
by its new NOTICE_MAX. -/
def State.changeHosts (s : State) (old : List HostEntry) : State :=
  (List.range 8).foldl (fun (t : State) c =>
    match old.find? fun e => e.context == c, t.hostEntry c with
    | some _, none => t.removeContext c
    | some o, some e =>
      let x := t.ctx c
      let x1 := if o.binding = e.binding then x else { x with session := none, handshake := none }
      (t.setCtx c { x1 with full := x1.full || decide (e.noticeMax ≤ x1.notices.length) }).leaveFull c
    | none, _ => t) s

/-! ### Storage (R299) -/

/-- An LU after the namespaces before BULK have grown by `shift` units. -/
def JournalRec.shift (d : Nat) : JournalRec → JournalRec
  | .map lu sb page phys => .map (lu + d) sb page phys
  | .poison lu => .poison (lu + d)
  | .unmap lu n => .unmap (lu + d) n
  | r => r

/-- Namespace sizes change: BULK moves behind the namespaces that grew, and its sectors above the new size
are discarded (R299, R300). -/
def State.changeNamespaces (s : State) (new : StoragePlan) : State :=
  let d := new.nsBase 6 - 64 * sumNat id (s.sto.sizes.take 6)
  let top := new.nsBase 6 + new.nsUnits 6
  let move (m : Map MapEntry) : Map MapEntry := (m.map fun e => (e.1 + d, e.2)).filter fun e => decide (e.1 < top)
  let page (g : NandPage) : NandPage := { g with lu := g.lu + d }
  let sb (_ : Nat) (b : Superblock) : Superblock := { b with pages := b.pages.map fun g => g.map page }
  let image (i : FtlImage) : FtlImage := { i with map := move i.map }
  let wait (w : JournalWait) : JournalWait := { w with record := w.record.shift d }
  let batch (b : JournalBatch) : JournalBatch := { b with records := b.records.map (JournalRec.shift d) }
  let s1 := { s with sto := { s.sto with
    sizes := new.nsMib
    map := move s.sto.map
    sbs := Map.mapVals sb s.sto.sbs
    waiting := s.sto.waiting.map wait
    ckpt := image s.sto.ckpt
    older := s.sto.older.map image
    log := s.sto.log.map batch } }
  if new.nsUnits 6 < 64 * s.sto.sizes.getD 6 0 then
    s1.journal (.unmap top (64 * s.sto.sizes.getD 6 0 - new.nsUnits 6))
  else s1

/-- The first image formats every die; `bad` are the blocks with the manufacturer's marking (R299). -/
def State.formatNand (s : State) (p : StoragePlan) (bad : List (Nat × Nat)) : State :=
  let retired := bad.map fun b => (b.1, b.2, 4)
  let regs := (List.range p.dies).foldl (fun (r : RegFile) d =>
    r.setF (F.STO_DIE_STAT.RETIRED d) (bad.filter fun b => b.1 == d).length) s.regs
  { s with
    regs := regs
    sto := { sizes := p.nsMib, retired := retired, used := bad, ckpt := { retired := retired, used := bad } } }

/-- What STORAGE of a new image does to the NAND: the first formats it, a later one moves its namespaces, and both copies of
the boot record hold its bytes 0 to 23 (R299). [DESIGN CHOICE, log 45; unsafe] -/
def State.changeStorage (s : State) (p : StoragePlan) (bad : List (Nat × Nat)) : State :=
  let s1 := match s.sto.bootRecord with
    | none => s.formatNand p bad
    | some _ => if s.sto.sizes = p.nsMib then s else s.changeNamespaces p
  { s1 with sto := { s1.sto with boot := (some p.bootBytes, some p.bootBytes) } }

/-! ### Checkpoints before a reset (R21, R115) -/

/-- A full start has to run, with its cause (R424). [DESIGN CHOICE, log 47; unsafe] -/
def State.beginReset (s : State) (cause : Nat) : State :=
  { s with power := { s.power with start := some (cause, false), due := none, holdUp := false, cutDue := false } }

/-- The role of the member at its last cut (R403). -/
def State.markRole (s : State) : State := { s with pair := { s.pair with wasStandby := s.roleNow == 1 } }

/-- A reset that the TY9600 initiates, with its cut (R21, R115). -/
def State.cutReset (s : State) (cause : Nat) (bad : List Nat) : State :=
  (s.markRole.finalCheckpoint bad).beginReset cause

/-! ### Applying (R33, R40 to R43) -/

/-- What a register set by REG_INIT brings with it, as a write of it does (R34); `old` are the registers before. -/
def State.afterInit (s : State) (old : RegFile) (addr : Nat) : State :=
  if s.regs.get addr = old.get addr then s else s.afterWrite addr (old.get addr)

/-- Every line of a radio or power-line channel in role OFF is low (R227, R258). -/
def State.linesLow (s : State) : State :=
  let s1 := (List.range 2).foldl (fun (t : State) x => if t.fld (F.RFM_STAT.ROLE x) = 0 then t.send (.radioLow x) else t) s
  (List.range 4).foldl (fun (t : State) x => if t.fld (F.PLC_STAT.ROLE x) = 0 then t.send (.plcLow x) else t) s1

/-- A warm restart of both members of a pair in step at one apply pace makes that pace a common checkpoint (R402). -/
def State.commonAtApply (s : State) : State :=
  if s.pairPlan.isSome ∧ s.syncNow = 2 then
    ({ s with pair := { s.pair with common := some s.now } } : State).setF F.PAIR_COMMON_LO.PACE s.now
  else s

/-- Whether any W-class section changes (R33, R42). -/
def warmDiffers (old : Option WarpImage) (w : WarpImage) : Bool :=
  sectionChanged old w (·.ports) || sectionChanged old w (·.pacePlan) || sectionChanged old w (·.queuePlan) ||
  sectionChanged old w (·.rfBands) || sectionChanged old w (·.plcBands) || sectionChanged old w (·.storage) ||
  sectionChanged old w (·.pairPlan)

/-- The last refusal or end of a schedule, with its notice (R39, R40, R43, R214, R465). -/
def State.warpRejected (s : State) (serial : Word) (cause : Nat) : State :=
  ({ s with warp := { s.warp with refused := true } } : State).setF F.SYS_WARP_STAT.CAUSE cause
    |>.post Ev.WARP_REJECTED [b8 serial.toNat, b2 cause]

/-- A commit accepted for this boundary gives way to the image (R47). -/
def State.supersede (s : State) : State :=
  match s.stage.owner with
  | some c =>
    if s.stage.state = .pending ∧ s.stage.accepted then
      let regs := ((s.regs.setF F.SYS_COMMIT_STAT.CAUSE Cause.COMMIT_SUPERSEDED).setF F.SYS_COMMIT_PACE.PACE s.now)
      ({ s with regs := regs, stage := { s.stage with owner := none, set := [], state := .rejected, accepted := false } } : State).commitNotice
        c Cause.COMMIT_SUPERSEDED 0
    else s
  | none => s

/-- Connections on a radio whose bands change end; the nodes join again (text after R228). -/
def State.changeRadios (s : State) (old : Option WarpImage) (w : WarpImage) : State :=
  let conf (b : Option RfBands) (x : Nat) : Option RadioConf := match b with | some p => p.radios[x]? | none => none
  let was := match old with | some o => o.rfBands | none => none
  let gone (x : Nat) : Bool := conf was x != conf w.rfBands x ||
    (match was, w.rfBands with | some a, some b => a.subBands != b.subBands | _, _ => false)
  let cut (e : JoinedEntry) : JoinedEntry :=
    match e.conn with
    | some c => if gone c.radio then { e with conn := none } else e
    | none => e
  { s with rad := { s.rad with
    joined := Map.mapVals (fun _ e => cut e) s.rad.joined
    saved := Map.mapVals (fun _ e => cut e) s.rad.saved } }

/-- The image becomes the active one and its SERIAL the counter; a commit accepted for this boundary gives way to it (R38, R40, R47). -/
def State.holdImage (s : State) (w : WarpImage) : State :=
  let s1 := s.supersede
  { s1 with warp := { s1.warp with
    active := some w, stored := [w, w], waiting := none, sched := none, counter := w.serial, refused := false
    appliedAt := some s.now } }

/-- The image takes effect (R40, R41, R47): registers, locks, hosts, topology, tamper entries, storage; a
W-class change begins a warm restart, and from the service state a full reset (R42, R426). The plans of the
front end and of the points change once the pace that ended has been worked on (changePlans). -/
def State.installImage (s : State) (w : WarpImage) (bad : List (Nat × Nat)) : State :=
  let old := s.warp.active
  let traced := s.fld F.LEG_STAT.LEGAL_UPD == 0
  let s2 := ((s.holdImage w).installRegs old w).changeStorage w.storage bad
  let s3 : State := { s2 with prt := { s2.prt with tampers := w.ports.tampers }, hlt := { s2.hlt with afeBase := [] } }
  let s4 := s3.changeHosts (match old with | some o => o.hostPlan | none => [])
  let s5 := if sectionChanged old w (·.topology) then s4.changeTopology (old.map (·.topology)) w.topology else s4
  let s6 := if sealedDiffers old w then s5.sealedChange traced false w.serial.toNat else s5
  let s7 := if sectionChanged old w (·.legal) || sectionChanged old w (·.qtyPlan) then s6.deliverSets.judgeReady else s6
  let s8 := if sectionChanged old w (·.rfBands) then s7.changeRadios old w else s7
  let s9 := if sectionChanged old w (·.rfBands) || sectionChanged old w (·.plcBands) then s8.linesLow else s8
  let s10 := if sectionChanged old w (·.regInit) then
      ((w.regInit.map fun e => e.addr).eraseDups).foldl (fun (t : State) a => t.afterInit s.regs a) s9
    else s9
  let s11 := (if warmDiffers old w then s10.commonAtApply else s10).post Ev.WARP_APPLIED [b8 w.serial.toNat, b8 s.now]
  if s.power.phase = .service then { s11 with power := { s11.power with start := some (0x08, false) } }
  else if warmDiffers old w then { s11 with power := { s11.power with start := some (0x08, true) } }
  else s11

/-- At its apply pace the scheduled image takes effect; a sealed change that is no longer permitted is
refused, and the image stays pending without a schedule (R40, R214). -/
def State.applyDue (s : State) (bad : List (Nat × Nat)) : State :=
  match s.warp.waiting, s.warp.sched with
  | some w, some p =>
    if s.now < p then s
    else if sealedDiffers s.warp.active w && !s.sealedAllowed then
      ({ s with warp := { s.warp with sched := none } } : State).warpRejected w.serial Cause.WARP_SEALED
    else s.installImage w bad
  | _, _ => s

/-- What the sealed cores still owe of the pace that ended, on the QTY_PLAN it ran on, as another takes force: its intervals
close, the changes follow, and the pace is registered (R121, R122). -/
def State.changeOver (s : State) (sensor : SensorPlan) (qty : QtyPlan) (final : Bool) (bad : List Nat) : State :=
  let s1 := if s.qty.stage = .met then s.intervalsDue qty else s
  (s1.changePlans sensor qty).toTar qty final bad

/-- The cut of the full reset that leaves the service state (R21, R115, R426). -/
def State.resetAfterApply (s : State) (bad : List Nat) : State :=
  if s.power.start = some (0x08, false) then s.cutReset 0x08 bad else s

/-- The scheduled image is due, and its change of a sealed section is permitted where it makes one (R40). -/
def State.appliesNow (s : State) : Bool :=
  match s.warp.waiting, s.warp.sched with
  | some w, some p => decide (p ≤ s.now) && (!sealedDiffers s.warp.active w || s.sealedAllowed)
  | _, _ => false

/-- APPLY_SCHEDULED_IMAGE: step 1 of R25 with the changes of plan it brings (R40, R97, R121); `badLegal` as in R117. -/
def execApplyScheduledImage (bad : List (Nat × Nat)) (badLegal : List Nat) (s : State) : Host.Outcome State Fault Refusal :=
  let s1 := s.applyDue bad
  .next (if s.appliesNow then (s1.changeOver s.sensorPlan s.qtyPlan false badLegal).resetAfterApply badLegal else s1)

end Sys2Proof.Machine
end

