-- ==== Sys2Proof/Machine/RegAccess.lean ====
section
/-! DEFINITION. Register accesses (R8, R9, R34, R44, R50, R210, R441 to R445): what a register reads as, a read,
and a write with its judgement field by field and what it triggers. -/

namespace Sys2Proof.Machine

/-! ### Who asks -/

/-- The context whose rights and ownership a requester has: the SPI host port acts as the context bound to it,
the service seat as itself (R19, R444, R473). -/
def State.actsAs (s : State) : Requester → Option Nat
  | .context c => some c
  | .seat => some 8
  | .internal _ => none
  | .spi => match s.warp.active with
    | none => none
    | some w => (w.hostPlan.find? fun e => e.link == 4).map fun e => e.context

/-- Whether a requester holds a right by its bit (R50); an internal reader needs none. -/
def State.mayAct (s : State) (who : Requester) (bit : Nat) : Bool :=
  match who with
  | .internal _ => true
  | _ => match s.actsAs who with | some c => s.hasRight c bit | none => false

/-- Whether the block of an address is among the WRITE_BLOCKS of the requester (R50). -/
def State.mayWriteBlock (s : State) (who : Requester) (addr : Nat) : Bool :=
  match (s.actsAs who).bind s.hostEntry with
  | some e => e.writeBlocks.getLsbD (addr / 0x10000)
  | none => false

/-! ### What a register reads as -/

/-- The fields of block SYS and PACE that show state. -/
def State.mirrorsPace (s : State) : List (FieldRef × Nat) :=
  let g := s.stage
  let st := match g.state with | .idle => 0 | .pending => 1 | .applied => 2 | .rejected => 3
  let wst := if s.warp.sched.isSome then 2 else if s.warp.refused then 3 else 0
  [(F.PACE_COUNT_LO.COUNT_LO, s.now), (F.PACE_COUNT_HI.COUNT_HI, s.now / 2 ^ 32), (F.PACE_STAT.QUANTUM, s.pace.quantum),
   (F.SYS_COMMIT_STAT.STAGED, g.set.length), (F.SYS_COMMIT_STAT.STATE, st),
   (F.SYS_STAGE_LOCK.HELD, if g.owner.isSome then 1 else 0), (F.SYS_STAGE_LOCK.OWNER, g.owner.getD 0),
   (F.SYS_WARP_PENDING.SERIAL, match s.warp.waiting with | some w => w.serial.toNat | none => 0),
   (F.SYS_WARP_APPLY.PACE, s.warp.sched.getD 0), (F.SYS_WARP_STAT.STATE, wst),
   (F.SYS_DIE_ID_LO.DIE_LO, Config.dieId), (F.SYS_DIE_ID_HI.DIE_HI, Config.dieId / 2 ^ 32),
   (F.SYS_BOOT_VERSION.VERSION, Config.bootVersion),
   (F.SYS_MEM.NAND_DIES, s.power.dies.length), (F.SYS_MEM.DRAM_GIB, s.power.dramGib)]

/-- The fields of block HOST that show the state of a context. -/
def State.mirrorsCtx (s : State) (c : Nat) : List (FieldRef × Nat) :=
  let x := s.ctx c
  [(F.HOST_CTX_STAT.SESSION c, if x.session.isSome then 1 else 0),
   (F.HOST_CTX_STAT.HANDSHAKE c, if x.handshake.isSome then 1 else 0),
   (F.HOST_CTX_STAT.SESSION_NO c, match x.session with | some v => v.no | none => 0),
   (F.HOST_CTX_STAT.TASKS c, s.tasksOf c), (F.HOST_SEQ_HIGH.SEQ c, x.high.toNat),
   (F.HOST_NOTICE_NEXT.SEQ c, x.nextNotice.toNat), (F.HOST_NOTICE_HELD.COUNT c, x.notices.length)]

/-- The fields of block BAL that show the oldest job and the selected node (R173). -/
def State.mirrorsBal (s : State) : List (FieldRef × Nat) :=
  let n := s.fld F.BAL_SEL.NODE
  let code := match topoNode s.topology n with | some e => s.nodeCode e | none => 0
  [(F.BAL_OLDEST.SECONDS, min (s.oldestJob / 1000) 0xFFFFFFFF), (F.BAL_SEL_STAT.STATE, code),
   (F.BAL_SEL_STAT.RUN, (s.node n).run), (F.BAL_SEL_LOC.VALID, if (s.node n).lastLoc.isSome then 1 else 0),
   (F.BAL_SEL_LOC.LOC, (s.node n).lastLoc.getD 0)]

/-- The fields of block EVT that show the recorder (R330, R331). [DEDUCED, log 28; unsafe] -/
def State.mirrorsEvt (s : State) : List (FieldRef × Nat) :=
  let e := s.evt
  [(F.EVT_STAT.OPEN, if e.openRec.isSome then 1 else 0), (F.EVT_SEQ.SEQ, e.seq.toNat),
   (F.EVT_OPEN.REPEAT, match e.openRec with | some r => r.rep | none => 0),
   (F.EVT_OPEN.TYPE, match e.openRec with | some r => r.code | none => 0),
   (F.EVT_OLDEST.SEQ, match e.log with | r :: _ => r.seq.toNat | [] => 0),
   (F.EVT_OPSEC_LO.OPSEC_LO, e.opSeconds.toNat), (F.EVT_OPSEC_HI.OPSEC_HI, e.opSeconds.toNat / 2 ^ 32),
   (F.EVT_PWR_CYCLES.COUNT, e.pwrCycles.toNat)]

/-- Seconds since the last accepted sample of any source. [DEDUCED, log 27; unsafe] -/
def State.sampleAgeS (s : State) : Nat :=
  let newest := s.clk.samples.foldl (fun (a : Option Int) e => match a with
    | some p => some (max p (e.2 : Int))
    | none => some (e.2 : Int)) s.clk.synced
  match newest with
  | some p => min 0xFFFF (((s.now : Int) - p) / 1000).toNat
  | none => 0

/-- The fields of blocks PWR and CLK that show state. -/
def State.mirrorsPower (s : State) : List (FieldRef × Nat) :=
  [(F.PWR_STAT.STATE, match s.power.phase with | .run => 0 | .service => 2 | _ => 1),
   (F.CLK_STAT.SPREAD_ON, if s.fld F.CLK_SPREAD.TENTHS = 0 then 0 else 1),
   (F.CLK_TIME_LO.MS_LO, s.timeMs), (F.CLK_TIME_HI.MS_HI, s.timeMs / 2 ^ 32), (F.CLK_QUAL.AGE_S, s.sampleAgeS)]

/-- The receiver and transmitter flags, whose value at one moment the model leaves free.
[DESIGN CHOICE, log 26; safe] -/
def State.mirrorsAir (s : State) : List (FieldRef × Nat) :=
  let v := Config.free s.drawn
  ((List.range 2).flatMap fun x => [(F.RFM_STAT.TX x, v / 2 ^ x), (F.RFM_STAT.RX x, v / 2 ^ (2 + x))]) ++
    (List.range 4).map fun x => (F.PLC_STAT.TX x, v / 2 ^ (4 + x))

/-- The fields of a block whose value is state of another form. [DESIGN CHOICE, log 25; unsafe] -/
def State.mirrors (s : State) (block : Nat) : List (FieldRef × Nat) :=
  match block with
  | 0 | 1 => s.mirrorsPace
  | 2 => (F.HOST_TASKS_TOTAL.IN_FLIGHT, s.host.tasks.length) :: (List.range 8).flatMap s.mirrorsCtx
  | 6 => s.mirrorsBal
  | 10 | 11 => s.mirrorsAir
  | 12 =>
    let fresh : Bool := match s.prt.edge with | some e => decide (s.now ≤ e.1 + 1100) | none => false
    [(F.PRT_PPS_STAT.EDGE_VALID, if fresh then 1 else 0), (F.PRT_SPI_STAT.WB_SPACE, 1)]
  | 16 => s.mirrorsEvt
  | 18 =>
    let left := s.fwu.trialMax - (s.evt.opSeconds.toNat - s.fwu.trialStart)
    [(F.FWU_TRIAL_LEFT.SECONDS, if s.fld F.FWU_STAT.TRIAL = 1 then left else 0)]
  | 19 => [(F.PAIR_STAT.ALIVE_OK, if s.pair.aliveOk then 1 else 0)]
  | 20 | 21 => s.mirrorsPower
  | _ => []

/-- The current value of a register: what is stored, and the fields that show other state.
[DEDUCED, log 140; unsafe] -/
def State.view (s : State) (addr : Nat) : Word :=
  (s.mirrors (addr / 0x10000)).foldl (fun w e => if e.1.addr = addr then withField w e.1.hi e.1.lo e.2 else w)
    (s.regs.get addr)

/-! ### Reads -/

/-- The bits of a register in fields of some access. -/
def RegSpec.bits (r : RegSpec) (p : Access → Bool) : Word :=
  r.fields.foldl (fun m f => if p f.acc then m ||| f.mask else m) 0

/-- The address is that of the _HI half of a pair (R444). -/
def isHiHalf (addr : Nat) : Bool :=
  decide (4 ≤ addr) && match findReg (addr - 4) with | some r => r.loPair | none => false

/-- Sets a latch. -/
def State.latch (s : State) (who : Requester) (lo : Nat) (w : Word) : State :=
  { s with latches := (who, lo, w) :: s.latches.filter fun e => !(e.1 == who && e.2.1 == lo) }

/-- What a requester's latch holds: 0 before it has read _LO (R444). -/
def State.latched (s : State) (who : Requester) (lo : Nat) : Word :=
  match s.latches.find? fun e => e.1 == who && e.2.1 == lo with
  | some e => e.2.2
  | none => 0

/-- Why a read is refused whole, 0 where it is not (R9, R50, R210, R442). -/
def State.readRefused (s : State) (who : Requester) (addr : Nat) : Nat :=
  match findReg addr with
  | none => Cause.REG_ADDRESS
  | some r =>
    let ros := r.fields.any fun f => f.acc == .ROS
    if !s.mayAct who 0 || (ros && !s.mayAct who 19) then Cause.RIGHTS
    else if r.fields.all fun f => f.acc == .WO then Cause.REG_ACCESS
    else Cause.OK

/-- The value a read returns (R8, R444). -/
def State.readValue (s : State) (who : Requester) (addr : Nat) : Word :=
  match findReg addr with
  | none => 0
  | some r =>
    if isHiHalf addr then s.latched who (addr - 4) else s.view addr &&& r.bits fun a => a != .WO

/-- What a read leaves: RC fields at their reset value, and the latch of a pair (R8, R443, R444). -/
def State.afterRead (s : State) (who : Requester) (addr : Nat) : State :=
  match findReg addr with
  | none => s
  | some r =>
    let rc := r.bits fun a => a == .RC
    let s1 := if rc = 0 then s
      else { s with regs := s.regs.put addr ((s.regs.get addr &&& ~~~ rc) ||| (r.resetWord &&& rc)) }
    let s2 := if r.loPair then s1.latch who addr (s.view (addr + 4)) else s1
    if addr / 0x10000 = 10 ∨ addr / 0x10000 = 11 then s2.drawLocal else s2

/-- A read: the state after it, the value and the cause (R9, R443). A refused read returns 0. -/
def State.readReg (s : State) (who : Requester) (addr : Nat) : State × Word × Nat :=
  let c := s.readRefused who addr
  if c = Cause.OK then (s.afterRead who addr, s.readValue who addr, c) else (s, 0, c)

/-! ### The judgement of a write -/

/-- Why a write is refused whole, 0 where it is not (R9, R44, R50, R442). -/
def State.writeRefused (s : State) (who : Requester) (addr : Nat) : Nat :=
  match findReg addr with
  | none => Cause.REG_ADDRESS
  | some r =>
    let staging := addr == R.SYS_STAGE_LOCK || addr == R.SYS_COMMIT
    if !s.mayAct who 1 || (staging && !s.mayAct who 2) then Cause.RIGHTS
    else if !s.mayWriteBlock who addr then Cause.REG_BLOCK
    else if r.fields.all fun f => f.acc == .RO || f.acc == .ROS || f.acc == .RC then Cause.REG_ACCESS
    else Cause.OK

/-- A cause that the description of an RW or RWS field names beyond its range, on the value the register
would then hold. [DEDUCED, log 16; unsafe] -/
def State.ownCause (s : State) (addr lo : Nat) (w : Word) : Nat :=
  let bad : Bool :=
    if (arrayIndex (R.HOST_RESEND 0) 4 8 addr).isSome then decide (fieldOf w 31 16 < fieldOf w 15 0)
    else if addr = R.FWU_TRIAL then decide (fieldOf w 15 0 ≤ fieldOf w 31 16)
    else if addr = R.FWU_POLICY then decide (lo ≤ 1) && fieldOf w 1 0 == 0
    else if addr = R.RFM_LPL then s.rad.joined.any fun e => decide (fieldOf w 15 0 < e.2.ciMs)
    else if addr = R.RFM_SUP then
      decide (6553500 < fieldOf w 7 0 * max (s.fld F.RFM_CONN.SLEEPY_S * 1000) (s.fld F.RFM_CONN.RELAY_MS))
    else if addr = R.PLC_CSMA then lo == 4 && decide (fieldOf w 7 4 < fieldOf w 3 0)
    else if addr = R.STO_DIE_CTL then decide (s.power.dies.length ≤ fieldOf w 5 0)
    else false
  if bad then Cause.REG_RANGE else Cause.OK

/-- Registers whose failing write is rejected whole (R9, R384). [DEDUCED, log 17; unsafe] -/
def rejectedWhole (addr : Nat) : Bool := (arrayIndex (R.HOST_RESEND 0) 4 8 addr).isSome || addr == R.FWU_TRIAL

/-- The bits of a register a write can store or stage. -/
def RegSpec.storable (r : RegSpec) : Word := r.bits fun a => a == .RW || a == .RWS

/-- A word with the bits of a mask replaced. -/
def mergeWord (old value mask : Word) : Word := (old &&& ~~~ mask) ||| (value &&& mask)

/-- Why an RWS field refuses a write, 0 where it does not (R44). -/
def State.stageRefused (s : State) (who : Requester) (addr : Nat) : Nat :=
  if !s.mayAct who 2 then Cause.RIGHTS
  else if s.stage.owner.isNone || s.stage.owner ≠ s.actsAs who then Cause.STAGE_LOCKED
  else if s.stageFull addr then Cause.STAGE_FULL
  else Cause.OK

/-- The cause of one selected field, 0 where it is taken (R443). A WO field is judged as it triggers, but for a START of a
refinement with CH above 11 (R92). -/
def State.fieldCause (s : State) (who : Requester) (addr : Nat) (r : RegSpec) (value mask : Word) (f : FieldSpec) : Nat :=
  let w := mergeWord (s.overlay addr) value (mask &&& r.storable)
  let range := if f.range.holds (fieldOf w f.hi f.lo) then s.ownCause addr f.lo w else Cause.REG_RANGE
  if (s.lockMask addr &&& mask &&& f.mask) ≠ 0 then Cause.REG_LOCKED
  else match f.acc with
    | .RW => range
    | .RWS => if s.stageRefused who addr ≠ Cause.OK then s.stageRefused who addr else range
    | .WO =>
      if addr = R.MET_REF_CTL ∧ f.lo = 8 ∧ fieldOf value 8 8 = 1 ∧ 11 < fieldOf w 3 0 then Cause.REG_RANGE else Cause.OK
    | _ => Cause.OK

/-! ### What a write does -/

/-- A context's own register of an array, for HOST_CTL. -/
def hostCtlOf (addr : Nat) : Option Nat := arrayIndex (R.HOST_CTL 0) 4 8 addr

/-- A BAL_CMD operation on NODE (R173): refused, or queued before every job of the BALANCE queue.
[DEDUCED, log 19; unsafe] [DEDUCED, log 20; unsafe] -/
def State.balCommand (s : State) (op n : Nat) : State × Nat :=
  if op = 0 ∨ 4 < op then (s, Cause.REG_RANGE)
  else if (topoNode s.topology n).isNone then (s.balAnswer Cause.NODE_UNKNOWN, Cause.NODE_UNKNOWN)
  else if op = 3 ∧ (s.node n).alert ≠ some false then (s.balAnswer Cause.REG_RANGE, Cause.REG_RANGE)
  else
    ((({ s with bal := { s.bal with ops := s.bal.ops ++ [(op, n, s.now)] } } : State).setF F.BAL_CMD_STAT.STATE 1).showJobs,
      Cause.OK)

/-- GO of KEY_ZCTL: within 1,000 paces of ARM by the same requester (R354). -/
def State.zeroiseGo (s : State) (who : Requester) : State × Nat :=
  match s.key.arm with
  | some (a, p) => if a = who ∧ s.now ≤ p + 1000 then (s.zeroiseLine 0x800, Cause.OK) else (s, Cause.REG_RANGE)
  | none => (s, Cause.REG_RANGE)

/-- What a WO field triggers, with its cause: the stage lock and commits (R45, R46, R470), HOST_CTL (R58, R71),
MET_REF_CTL (R92, R94), BAL_CMD (R173), STO_DIE_CTL (R305), KEY_ZCTL (R354), FWU_CTL (R374), PAIR_CTL (R401, R406),
HLT_CAP_CFG (R430). The register holds its new RW values. Of a write that sets RELEASE and ACQUIRE while the lock is free, the
RELEASE is refused and the ACQUIRE taken. [DESIGN CHOICE, log 167; unsafe] -/
def State.trigger (s : State) (who : Requester) (addr lo value : Nat) : State × Nat :=
  let mine := s.stage.owner.isSome && s.stage.owner == s.actsAs who
  if addr = R.BAL_CMD then s.balCommand value (s.fld F.BAL_CMD.NODE)
  else if value = 0 then (s, Cause.OK)
  else if addr = R.SYS_STAGE_LOCK then
    if lo = 1 then (if mine then (s.stageRelease, Cause.OK) else (s, Cause.STAGE_LOCKED))
    else match s.actsAs who with
      | some c => if s.stage.owner.isNone then (s.stageAcquire c, Cause.OK) else (s, Cause.STAGE_LOCKED)
      | none => (s, Cause.STAGE_LOCKED)
  else if addr = R.SYS_COMMIT then
    if !mine then (s, Cause.STAGE_LOCKED)
    else if lo = 1 then (s.commitDiscard, Cause.OK)
    else if s.stage.set.isEmpty then (s, Cause.COMMIT_EMPTY)
    else (s.commitGo, Cause.OK)
  else if addr = R.MET_REF_CTL then
    if lo = 9 then (s.refineEnd 6, Cause.OK)
    else if s.refineAllowed (s.fld F.MET_REF_CTL.CH) then (s.refineStart (s.fld F.MET_REF_CTL.CH), Cause.OK)
    else (s, Cause.REG_RANGE)
  else if addr = R.STO_DIE_CTL then (s.dieFails (s.fld F.STO_DIE_CTL.DIE), Cause.OK)
  else if addr = R.KEY_ZCTL then
    if lo = 1 then s.zeroiseGo who else ({ s with key := { s.key with arm := some (who, s.now) } }, Cause.OK)
  else if addr = R.FWU_CTL then
    if s.confirmOk then ({ s with fwu := { s.fwu with confirmed := true } }, Cause.OK) else (s, Cause.REG_RANGE)
  else if addr = R.PAIR_CTL then
    if lo = 1 then (if s.roleNow = 1 then (s.startResync, Cause.OK) else (s, Cause.REG_RANGE))
    else (s.leaveService, Cause.OK)
  else if addr = R.HLT_CAP_CFG then
    if s.capTestAllowed then (s.capTestStart, Cause.OK) else (s, Cause.REG_RANGE)
  else match hostCtlOf addr with
    | some c => if lo = 0 then (s.closeSession c, Cause.OK) else (s.hostResend c, Cause.OK)
    | none => (s, Cause.OK)

/-- The first cause found in the order of the fields, with what each field met (R443). -/
def firstCause (fields : List FieldSpec) (met : List (Nat × Nat)) : Nat :=
  ((fields.filterMap fun f => (met.find? fun e => e.1 == f.lo).map fun e => e.2).find? fun c => c != 0).getD Cause.OK

/-- The WO fields a write selects, in the order in which they act: HOST_CTL closes before it resends (R477). -/
def triggerOrder (addr : Nat) (l : List FieldSpec) : List FieldSpec :=
  if (hostCtlOf addr).isSome then l.reverse else l

/-- The triggers of a write, in order. -/
def State.runTriggers (s : State) (who : Requester) (addr : Nat) (sel : Word) (l : List FieldSpec) :
    State × List (Nat × Nat) :=
  l.foldl (fun (a : State × List (Nat × Nat)) f =>
    let (t, c) := a.1.trigger who addr f.lo (fieldOf sel f.hi f.lo)
    (t, a.2 ++ [(f.lo, c)])) (s, [])

/-- A write that has passed the checks of the whole register: fields that fail keep their value, the others are
written, staged, cleared or triggered (R8, R9, R443). [DEDUCED, log 18; unsafe] -/
def State.writeFields (s : State) (who : Requester) (addr : Nat) (value mask : Word) (r : RegSpec) : State × Nat :=
  let selected := r.fields.filter fun f => (mask &&& f.mask) != 0 && f.acc != .RO && f.acc != .ROS && f.acc != .RC
  let judged := selected.map fun f => (f, s.fieldCause who addr r value mask f)
  let fails := judged.any fun e => e.2 != 0
  if fails && rejectedWhole addr then (s, firstCause r.fields (judged.map fun e => (e.1.lo, e.2)))
  else
    let bitsOf (p : Access → Bool) : Word :=
      judged.foldl (fun m e => if p e.1.acc && e.2 == 0 then m ||| (e.1.mask &&& mask) else m) (0 : Word)
    let old := s.regs.get addr
    let rw := mergeWord old value (bitsOf fun a => a == .RW)
    let new := rw &&& ~~~ (value &&& bitsOf fun a => a == .W1C)
    let s1 := { s with regs := s.regs.put addr new }
    let stage := bitsOf fun a => a == .RWS
    let s2 := if stage = 0 then s1 else s1.stageBits addr stage value
    let s3 := if (bitsOf fun a => a == .RW) = 0 then s2 else s2.afterWrite addr old
    let wo := (judged.filter fun e => e.1.acc == .WO && e.2 == 0).map fun e => e.1
    let (s4, met) := s3.runTriggers who addr (value &&& mask) (triggerOrder addr wo)
    let rest := (judged.filter fun e => !(e.1.acc == .WO && e.2 == 0)).map fun e => (e.1.lo, e.2)
    (s4, firstCause r.fields (met ++ rest))

/-- A write: the state after it and the one cause reported (R9, R443). -/
def State.writeReg (s : State) (who : Requester) (addr : Nat) (value mask : Word) : State × Nat :=
  let c := s.writeRefused who addr
  match findReg addr with
  | none => (s, c)
  | some r => if c = Cause.OK then s.writeFields who addr value mask r else (s, c)

/-- Blocks KEY, PAIR and HLT, whose writes are member-local (R395). -/
def localBlock (addr : Nat) : Bool := addr / 0x10000 == 0x11 || addr / 0x10000 == 0x13 || addr / 0x10000 == 0x16

end Sys2Proof.Machine
end

