-- ==== Sys2Proof/Machine/Commit.lean ====
section
/-! DEFINITION. The check and the application of a commit (R46, R47): the consistency rules of the owning chapters,
and what the registers that change bring with them. -/

namespace Sys2Proof.Machine

/-- One consistency rule: the registers it relates, and whether it holds of the values after the commit. -/
structure CommitRule where
  addrs : List Nat
  holds : Bool

/-- The rule of the PACE block on a lane (R47). -/
def State.laneRule (s : State) (l : Nat) : CommitRule :=
  let plan := match s.warp.active with | some w => w.pacePlan | none => []
  let bal := s.overlayFld (F.PACE_BAL_US.US l)
  let ftl := s.overlayFld (F.PACE_FTL_US.US l)
  let has (e : Nat) : Bool := plan.any fun x => x.engine == e && x.lane == l
  ⟨[R.PACE_BAL_US l, R.PACE_FTL_US l],
    decide (bal + ftl ≤ planCost plan 0x10 l + planCost plan 0x12 l) && (has 0x10 || bal == 0) && (has 0x12 || ftl == 0)⟩

/-- Every application lane with an INGEST entry has a PREPAY entry (R209). -/
def State.prepayServed (s : State) : Bool :=
  let plan := match s.warp.active with | some w => w.pacePlan | none => []
  plan.all fun e => e.engine != 0x09 || plan.any fun x => x.engine == 0x0D && x.lane == e.lane

/-- No enable bit is cleared for a calendar still bound to a PREPAY record (R209). -/
def State.calEnKept (s : State) (i : Nat) : Bool :=
  s.ing.meters.all fun e =>
    let c := e.2.conf.calendar
    !(e.2.conf.flag 3 && decide (e.2.state ≠ .free) && c / 32 == i && (s.regs.get (R.PPY_CAL_EN i)).getLsbD (c % 32) &&
      !(s.overlay (R.PPY_CAL_EN i)).getLsbD (c % 32))

/-- The rules of R47, R91, R149, R172, R209, R277, R317 and R428 over the values after the commit.
[DEDUCED, log 14; unsafe] -/
def State.commitRules (s : State) : List CommitRule :=
  let f := s.overlayFld
  let en := s.overlay (R.PPY_CAL_EN 0) ||| s.overlay (R.PPY_CAL_EN 1)
  (List.range 8).map s.laneRule ++
  [⟨[R.MET_ZERO_CFG], decide (f F.MET_ZERO_CFG.SETTLE < f F.MET_ZERO_CFG.MIN) &&
      decide (f F.MET_ZERO_CFG.SETTLE + f F.MET_ZERO_CFG.MIN ≤ 60000)⟩,
   ⟨[R.ING_CLOCK], decide (f F.ING_CLOCK.TOL_S < f F.ING_CLOCK.MAX_S)⟩,
   ⟨[R.ING_BP], decide (f F.ING_BP.LOW < f F.ING_BP.HIGH)⟩,
   ⟨[R.BAL_Z], decide (f F.BAL_Z.Z_CLR < f F.BAL_Z.Z_HI)⟩,
   ⟨[R.BAL_EWMA], decide (4 * 2 ^ f F.BAL_EWMA.ALPHA_SHIFT ≤ f F.BAL_EWMA.WARMUP)⟩,
   ⟨[R.PPY_CAL_EN 0, R.PPY_CAL_EN 1], en == 0 || s.prepayServed⟩,
   ⟨[R.PPY_CAL_EN 0], s.calEnKept 0⟩,
   ⟨[R.PPY_CAL_EN 1], s.calEnKept 1⟩] ++
  ((List.range 4).map fun x => ⟨[R.PLC_MODE x], f (F.PLC_MODE.MODE x) == 0 || s.fld (F.PLC_STAT.ROLE x) == 1⟩) ++
  [⟨[R.PLC_AUTO], decide (f F.PLC_AUTO.LO_PCT < f F.PLC_AUTO.HI_PCT)⟩,
   ⟨[R.STO_GC], decide (f F.STO_GC.RESERVE_CPCT < f F.STO_GC.FG_CPCT) &&
      decide (f F.STO_GC.FG_CPCT < 100 * f F.STO_GC.BG_PCT)⟩,
   ⟨[R.CLK_TSRC], fieldOf (s.overlay R.CLK_TSRC) 2 0 != 0⟩,
   ⟨[R.CLK_QUAL_CFG], decide (f F.CLK_QUAL_CFG.SYNC_S < 3600 * f F.CLK_QUAL_CFG.HOLDOVER_H)⟩]

/-- Where a rule is judged: the highest of its registers that is staged, if one is (R46). -/
def State.ruleSite (s : State) (r : CommitRule) : Option Nat :=
  (r.addrs.filter fun a => (Map.find s.stage.set a).isSome).foldl (fun (m : Option Nat) a => match m with
    | some b => some (max a b)
    | none => some a) none

/-- The address of the first register that fails, in ascending order (R46). -/
def State.commitFault (s : State) : Option Nat :=
  (s.commitRules.filter fun r => !r.holds).foldl (fun (m : Option Nat) r => match m, s.ruleSite r with
    | some b, some a => some (min a b)
    | none, x => x
    | m, none => m) none

/-- The pending commit is judged: accepted for the next boundary, or rejected with its values and lock kept (R46,
R475). -/
def State.judgeCommit (s : State) : State :=
  match s.stage.owner, s.commitFault with
  | some c, some a =>
    let r := ((s.regs.setF F.SYS_COMMIT_STAT.CAUSE Cause.COMMIT_INCONSISTENT).put R.SYS_COMMIT_ADDR (BitVec.ofNat 32 a)).setF
      F.SYS_COMMIT_PACE.PACE s.now
    ({ s with regs := r, stage := { s.stage with state := .rejected } } : State).commitNotice c Cause.COMMIT_INCONSISTENT a
  | _, _ => { s with stage := { s.stage with accepted := true } }

/-- COMMIT_CHECK: quantum 15 begins, and a commit whose check falls in this pace is judged (R46). -/
def execCommitCheck (s : State) : Host.Outcome State Fault Refusal :=
  let s1 : State := { s with pace := { s.pace with quantum := 15 } }
  .next (if s.stage.state = .pending ∧ ¬ s.stage.accepted ∧ s.stage.checkAt ≤ s.now then s1.judgeCommit else s1)

/-- What committed values bring with them at once: a channel whose MODE is now CSMA leaves coordinator mode (R270), and
back-pressure and the free share are judged by the new thresholds (R147, R311). [DESIGN CHOICE, log 15; unsafe] -/
def State.afterCommit (s : State) (set : Map Staged) : State :=
  let has (a : Nat) : Bool := (Map.find set a).isSome
  let s1 := (List.range 4).foldl (fun (t : State) x =>
    if has (R.PLC_MODE x) && t.fld (F.PLC_MODE.MODE x) == 0 then t.leaveCoord x else t) s
  let s2 := if has R.ING_BP then s1.showBuffer else s1
  if has R.STO_GC then s2.judgeShare else s2

/-- Step 2 of R25: all staged values of an accepted commit take effect together; the lock is released and the owner
told (R45, R46, R475). Values staged after the check has accepted are applied with the others. [DESIGN CHOICE, log 166; unsafe] -/
def State.applyCommit (s : State) : State :=
  match s.stage.owner with
  | none => s
  | some c =>
    if s.stage.state = .pending ∧ s.stage.accepted ∧ s.stage.checkAt < s.now then
      let r := s.stage.set.foldl (fun (m : RegFile) e => m.put e.1 (mergeWord (m.get e.1) e.2.value e.2.mask)) s.regs
      let r1 := (r.setF F.SYS_COMMIT_STAT.CAUSE 0).setF F.SYS_COMMIT_PACE.PACE s.now
      let g : StageState := { s.stage with owner := none, set := [], state := .applied, accepted := false }
      (({ s with regs := r1, stage := g } : State).afterCommit s.stage.set).commitNotice c Cause.OK 0
    else s

/-- COMMIT_APPLY (R46). -/
def execCommitApply (s : State) : Host.Outcome State Fault Refusal := .next s.applyCommit

end Sys2Proof.Machine
end

