-- ==== Sys2Proof/Machine/Dump.lean ====
section
/-! DEFINITION. Fatal-error dumps: slots, header, sections and DUMP_READ (R439, R440). -/

namespace Sys2Proof.Machine

/-! ### Sections (R439) -/

/-- Every register of a row, from its first element. -/
def elementsOf (a : Nat) : List (Nat × Nat) → List Nat
  | [] => [a]
  | (n, step) :: r => (List.range n).flatMap fun k => elementsOf (a + step * k) r

/-- Address and value of every register of some blocks, read without side effects. -/
def State.registerPairs (s : State) (blocks : List Nat) : List Byte :=
  blocks.flatMap fun b => (blockRegs b).flatMap fun r => (elementsOf r.addr r.dims).flatMap fun a =>
    packBytes [(4, a), (4, (s.view a &&& r.bits fun x => x != .WO).toNat)]

/-- Section 2: the configured queues, each with its registers and up to 8 words from RPTR. -/
def State.queueSection (s : State) : List Byte :=
  let l : List QueueEntry := match s.warp.active with | some w => w.queuePlan.queues | none => []
  l.flatMap fun e =>
    packBytes ([R.QUE_STAT e.queue, R.QUE_WPTR e.queue, R.QUE_RPTR e.queue, R.QUE_CFG e.queue].map fun a => (4, (s.view a).toNat)) ++
      (((s.queue e.queue).words.take 8).flatMap fun w => beBytes 8 w.data.toNat)

/-- Section 4: the newest 512 closed records and both copies of the open one. -/
def State.eventSection (s : State) : List Byte :=
  ((s.evt.log.drop (s.evt.log.length - 512)) ++ s.evt.copies.1.toList ++ s.evt.copies.2.toList).flatMap EvtRecord.bytes

/-- The sections of a dump. The pace log, the cores, the owners of the key slots and the application region are what the
firmware `writes`: they stand in no other state. The bytes of an entry within a section are the model's order.
[DESIGN CHOICE, log 59; unsafe] -/
def State.dumpSections (s : State) (writes : List (Nat × List Byte)) : List (Nat × List Byte) :=
  let fw (k : Nat) : List Byte := match writes.find? fun e => e.1 == k with | some e => e.2 | none => []
  [(1, s.registerPairs (List.range 23)), (2, s.queueSection), (3, fw 3), (4, s.eventSection), (5, fw 5),
    (6, s.registerPairs [15] ++ fw 6), (7, fw 7)]

/-- LENGTH of a dump. -/
def Dump.length (d : Dump) : Nat := d.sections.foldl (fun n e => n + 16 + e.2.length) 128

/-- The directory entries of sections that begin at an offset. -/
def dumpDirectory : Nat → List (Nat × List Byte) → List Byte
  | _, [] => []
  | off, e :: r => packBytes [(2, e.1), (2, 0), (4, off), (4, e.2.length), (4, crc32c e.2)] ++ dumpDirectory (off + e.2.length) r

/-- The 128-byte header of a dump (R439). -/
def Dump.header (d : Dump) : List Byte :=
  let flags := (if d.complete then 1 else 0) + (if d.first then 2 else 0) + (if d.handed then 4 else 0) + (if d.noCkpt then 8 else 0)
  let body := packBytes [(4, 0x44554D50), (2, 1), (1, flags), (1, d.fatal.kind), (4, d.seq), (2, d.fatal.cause),
    (1, if d.fatal.lane ≤ 9 then d.fatal.lane else 0xFF), (1, d.fatal.engine), (8, d.pace), (8, d.deviceTime), (6, d.opSeconds),
    (2, 0), (4, d.pwrCycles), (4, d.evtSeq), (4, d.warpSerial), (4, d.fwVersion), (4, d.checkShort), (4, d.identShort),
    (4, d.length), (2, d.sections.length), (54, 0)]
  body ++ beBytes 4 (crc32c body)

/-- The bytes of a dump: header, directory and sections. -/
def Dump.bytes (d : Dump) : List Byte :=
  d.header ++ dumpDirectory (128 + 16 * d.sections.length) d.sections ++ d.sections.flatMap fun e => e.2

/-- The header of a slot, zeros where it is empty. -/
def State.dumpHeader (s : State) (k : Nat) : List Byte :=
  match Map.find s.hlt.dumps k with
  | some d => d.header
  | none => List.replicate 128 0

/-! ### Slots -/

/-- A dump slot in `HLT_DUMP_STAT`. -/
def State.showDump (s : State) (k : Nat) : State :=
  match Map.find s.hlt.dumps k with
  | none => { s with regs := s.regs.put (R.HLT_DUMP_STAT k) 0 }
  | some d =>
    { s with regs := (((s.regs.flag (F.HLT_DUMP_STAT.VALID k) true).flag (F.HLT_DUMP_STAT.COMPLETE k) d.complete).flag
        (F.HLT_DUMP_STAT.FIRST k) d.first).setF (F.HLT_DUMP_STAT.SEQ k) d.seq }

/-- The slot a dump goes to: the lowest empty one, or the oldest that is not FIRST (R439).
[DEDUCED, log 60; unsafe] -/
def HealthState.dumpSlot (h : HealthState) : Option Nat :=
  match (List.range 4).find? fun k => (Map.find h.dumps k).isNone with
  | some k => some k
  | none =>
    (h.dumps.filter fun e => !e.2.first).foldl (fun (b : Option Nat) e => match b with
      | some k => (match Map.find h.dumps k with
        | some d => if e.2.seq < d.seq then some e.1 else some k
        | none => some e.1)
      | none => some e.1) none

/-- Step 5 of R438: the dump. -/
def State.writeDump (s : State) (f : Fatal) (complete handed : Bool) (l : List (Nat × List Byte)) : State :=
  match s.hlt.dumpSlot with
  | none => s
  | some k =>
    let first := s.hlt.dumpFirst && s.hlt.dumps.isEmpty
    let d : Dump := {
      complete := complete, first := first, handed := handed, noCkpt := f.kind == 2, fatal := f, seq := s.hlt.dumpSeq + 1
      pace := s.now, deviceTime := if s.fld F.CLK_QUAL.QUALITY = 3 then 0 else s.timeMs
      opSeconds := s.evt.opSeconds.toNat, pwrCycles := s.evt.pwrCycles.toNat, evtSeq := s.evt.seq.toNat
      warpSerial := s.fld F.SYS_WARP_ACTIVE.SERIAL, fwVersion := (s.regs.get R.SYS_FW_VERSION).toNat
      checkShort := (s.regs.get (R.LEG_CHECK 0)).toNat, identShort := (s.regs.get (R.KEY_IDENT 0)).toNat
      sections := l }
    ({ s with hlt := { s.hlt with
      dumps := Map.set s.hlt.dumps k d, dumpSeq := s.hlt.dumpSeq + 1, dumpFirst := false } } : State).showDump k

/-! ### DUMP_READ (R440) -/

/-- A DUMP_READ item (R440). Bytes of a slot beyond its dump are free values. `readable`: the NAND gives the bytes.
[DESIGN CHOICE, log 180; safe] -/
def runDump (readable : Bool) (s : State) (r : ItemRef) (t : Tlv) : State × ItemEnd :=
  let k := fieldAt t.value 0 1
  if t.type = 0x00D0 then (s, .done (some ((List.range 4).flatMap s.dumpHeader)))
  else if t.type = 0x00D1 then
    let off := fieldAt t.value 4 4
    let n := fieldAt t.value 8 4
    if 3 < k ∨ off % 4096 ≠ 0 ∨ n % 4096 ≠ 0 ∨ n < 4096 ∨ 262144 < n ∨ 16777216 < off + n then (s, .failed Cause.REG_RANGE)
    else if !readable then (s, .failed Cause.MEDIA_ERROR)
    else
      let held := match Map.find s.hlt.dumps k with
        | some d => (d.bytes.drop off).take n
        | none => []
      (s.drawLocal, .done (some (held ++ (beBytes n (Config.free s.drawn)).drop held.length)))
  else if k ≠ 0xFF ∧ 3 < k then (s, .failed Cause.REG_RANGE)
  else if !r.msg.here then (s, .done none)
  else
    let dumps := if k = 0xFF then [] else Map.erase s.hlt.dumps k
    let s1 := { s with hlt := { s.hlt with dumps := dumps, dumpFirst := s.hlt.dumpFirst || dumps.isEmpty } }
    (((List.range 4).foldl State.showDump s1).post Ev.DUMP_CLEARED [], .done none)

/-- DUMP_READ (R440). -/
def execDumpRead (m : Msg) (readable : Bool) (s : State) : Host.Outcome State Fault Refusal :=
  .next (s.serve 0x00D0 m fun t => t.taskCommand m (some 18) (runDump readable))

end Sys2Proof.Machine
end

