-- ==== Sys2Proof/Machine/MeterCmd.lean ====
section
/-! DEFINITION. READINGS_PUSH, READINGS_GET, TARIFF_LOAD and BILLING_GET (R148, R177, R178, R197). -/

namespace Sys2Proof.Machine

/-! ### READINGS_PUSH -/

/-- A pushed READING: aligned as if TOL were unbounded, SOURCE 9, REPLACE overrides what is held (R148).
[DEDUCED, log 93; unsafe] -/
def runReading (s : State) (r : ItemRef) (t : Tlv) : State × ItemEnd :=
  let i := fieldAt t.value 0 4
  let flags := BitVec.ofNat 8 (fieldAt t.value 13 1)
  let replace := flags.getLsbD 1
  let profile := !flags.getLsbD 0
  let v := [some (fieldAt t.value 16 8), some (fieldAt t.value 24 8)]
  match s.activeMeter i with
  | none => (s.rejectReading Cause.METER_UNKNOWN (some i), .failed Cause.METER_UNKNOWN)
  | some m =>
    let (c, finish, _) := m.alignIn fun c =>
      (60 * c.intervalMin * roundUp (fieldAt t.value 4 8 : Nat) (60 * c.intervalMin), false)
    let rx := s.timeMs
    if s.fld F.ING_STAT.BP = 1 ∨ s.fld F.ING_STAT.READY = 0 then
      (s.rejectReading Cause.INGEST_BUSY (some i), .failed Cause.INGEST_BUSY)
    else if fieldAt t.value 12 1 ≠ c.intervalMin ∨ s.endRefused finish rx then
      (s.rejectReading Cause.CLOCK_RANGE (some i), .failed Cause.CLOCK_RANGE)
    else
      let e : FrameEntry := ⟨fieldAt t.value 4 8, flags.getLsbD 2, flags.getLsbD 3, false, v⟩
      let q := s.readingQuality e finish rx false false
      let x : Reading := ⟨0, i, none, 9, finish.toNat / 60, c.intervalMin, profile, qset q Q.REPLACED replace, v, e.status,
        replace, s.fld F.CLK_QUAL.QUALITY == 3, some (r.task, r.item), false, 0⟩
      if replace then (s.logReading x, .waiting)
      else match s.checkStore i x.endMin x.period profile v with
        | (s1, .take) => (s1.logReading x, .waiting)
        | (s1, .repeated) => (s1, .done none)
        | (s1, .conflicts) => (s1, .failed Cause.DUPLICATE)

/-- READINGS_PUSH (R148). -/
def execReadingsPush (m : Msg) (s : State) : Host.Outcome State Fault Refusal :=
  .next (s.serve 0x0041 m fun t => t.taskCommand m (some 4) runReading)

/-! ### READINGS_GET -/

/-- `n` interval starts of a meter from a minute on (R126). -/
def MeterRec.nextStarts (r : MeterRec) : Nat → Nat → List Nat
  | 0, _ => []
  | n + 1, t => t :: r.nextStarts n (t + (r.confAt t).intervalMin)

/-- A READ_SPAN item: interval store entries, synthetic ones included (R143, R148). -/
def runReadSpan (s : State) (_r : ItemRef) (t : Tlv) : State × ItemEnd :=
  let i := fieldAt t.value 0 4
  let first := fieldAt t.value 4 8
  let n := fieldAt t.value 12 2
  let m := s.meter i
  let p := (m.confAt (first / 60)).intervalMin
  if m.state = .free then (s, .failed Cause.METER_UNKNOWN)
  else if n = 0 ∨ 2048 < n ∨ first % (60 * p) ≠ 0 ∨ first + 86400 * s.retentionDays < s.timeSec then
    (s, .failed Cause.CLOCK_RANGE)
  else (s, .done (some ((m.nextStarts n (first / 60)).flatMap fun a => (m.entryAt a).bytes a)))

/-- READINGS_GET (R148). -/
def execReadingsGet (m : Msg) (s : State) : Host.Outcome State Fault Refusal :=
  .next (s.serve 0x0042 m fun t => t.taskCommand m (some 3) runReadSpan)

/-! ### TARIFF_LOAD -/

/-- Ls is a multiple of the INTERVAL_MIN of every ACTIVE meter of the calendar (R175). -/
def State.metersFit (s : State) (c : Nat) (set : CalSet) : Bool :=
  s.ing.meters.all fun e => !(decide (e.2.state = .active) && e.2.conf.calendar == c) ||
    decide (calLs set % e.2.conf.intervalMin = 0)

/-- A CAL_SET item: checked, and stored as the passive set; for a bound calendar through the sealed
partition (R175 to R178). -/
def runCalSet (s : State) (r : ItemRef) (t : Tlv) : State × ItemEnd :=
  let invalid (off : Nat) : State × ItemEnd := (s, .failedWith Cause.CAL_INVALID [causeDetail Cause.CAL_INVALID off])
  match calFault t.value with
  | some off => invalid off
  | none =>
    let c := fieldAt t.value 0 1
    if !s.metersFit c t.value then invalid 10
    else if calActivate t.value * 1000000000 < s.clk.ns + 60000000000 then (s, .failed Cause.ACTIVATION_PAST)
    else if s.timePoor then (s, .failed Cause.TIME_QUALITY)
    else
      let k := s.storedCal c
      let n := (k.loads + 1) % 65536
      let set := withGen t.value n
      if s.boundCals.contains c then
        (s.request 0x0102 (packBytes [(1, c), (1, 0), (2, 0)] ++ set) (.calSet r.task r.item set), .waiting)
      else (s.setCal c { k with passive := some set, loads := n }, .done none)

/-- A CAL_CANCEL item discards the pending set (R197). -/
def runCalCancel (s : State) (r : ItemRef) (t : Tlv) : State × ItemEnd :=
  let c := fieldAt t.value 0 1
  let k := s.storedCal c
  if 63 < c ∨ k.passive.isNone then (s, .failed Cause.CAL_UNKNOWN)
  else if s.boundCals.contains c then
    (s.request 0x0102 (packBytes [(1, c), (1, 1), (2, 0)]) (.calCancel r.task r.item c), .waiting)
  else (s.setCal c { k with passive := none }, .done none)

/-- Schedules a commanded boundary of a meter under its calendar's active set (R188). -/
def State.commandClose (s : State) (set : CalSet) (i : Nat) : State :=
  let r := s.meter i
  s.setMeter i { r with tar := { r.tar with commanded := insertSorted (nextCommanded set s.timeSec) r.tar.commanded } }

/-- A BILL_CLOSE item (R188, R197). -/
def runBillClose (s : State) (r : ItemRef) (t : Tlv) : State × ItemEnd :=
  let x := fieldAt t.value 4 4
  match fieldAt t.value 0 1 with
  | 0 => match s.activeMeter x with
    | none => (s, .failed Cause.METER_UNKNOWN)
    | some m => match (s.storedCal m.conf.calendar).active with
      | none => (s, .failed Cause.CAL_UNKNOWN)
      | some set => (s.commandClose set x, .done none)
  | 1 =>
    if 63 < x then (s, .failed Cause.REG_RANGE)
    else match (s.storedCal x).active with
      | none => (s, .failed Cause.CAL_UNKNOWN)
      | some set =>
        let l := s.ing.meters.filter fun e => decide (e.2.state = .active) && e.2.conf.calendar == x
        (l.foldl (fun t e => t.commandClose set e.1) s, .done none)
  | 2 =>
    if 11 < x ∨ (s.mpCal x).isNone then (s, .failed Cause.REG_RANGE)
    else (s.request 0x0103 (beBytes 1 x ++ beBytes 7 0) (.item r.task r.item), .waiting)
  | _ => (s, .failed Cause.REG_RANGE)

/-- One TARIFF_LOAD item. -/
def runTariffItem (s : State) (r : ItemRef) (t : Tlv) : State × ItemEnd :=
  if t.type = 0x0050 then runCalSet s r t
  else if t.type = 0x0051 then runCalCancel s r t
  else runBillClose s r t

/-- TARIFF_LOAD (R197). -/
def execTariffLoad (m : Msg) (s : State) : Host.Outcome State Fault Refusal :=
  .next (s.serve 0x0050 m fun t => t.taskCommand m (some 6) runTariffItem)

/-! ### BILLING_GET -/

/-- DMAX of a meter, 56 bytes (R185). -/
def meterDmax (l : List Dmax) : List Byte := l.flatMap fun d => packBytes [(4, d.value), (3, d.finish)]

/-- REG of a meter, 192 bytes (R185). -/
def meterReg (l : List (BitVec 48)) : List Byte := l.flatMap fun v => beBytes 6 v.toNat

/-- The billing mirror, 256 bytes (R185). -/
def MeterTar.bytes (m : MeterTar) : List Byte :=
  packBytes [(4, m.hwm), (2, m.billNo), (1, (if m.lastIncomplete then 1 else 0) + (if m.defaultSeen then 2 else 0)), (1, 0)] ++
    meterReg m.reg ++ meterDmax m.dmax

/-- A meter snapshot, 272 bytes (R191). -/
def MeterSnapshot.bytes (x : MeterSnapshot) : List Byte :=
  packBytes [(4, x.index), (2, x.billNo), (1, x.flags.toNat), (1, x.calendar), (8, x.boundary), (8, x.isn)] ++
    meterReg x.reg ++ meterDmax x.dmax

/-- A BILL_REQ item (R197). -/
def runBillReq (s : State) (_r : ItemRef) (t : Tlv) : State × ItemEnd :=
  let x := fieldAt t.value 4 4
  let first := fieldAt t.value 8 2
  let n := fieldAt t.value 10 2
  let within (no : Nat) : Bool := decide (first ≤ no) && decide (no < first + n)
  let set (o : Option CalSet) : List Byte := o.getD (List.replicate 2352 0)
  if n = 0 ∨ 24 < n then (s, .failed Cause.REG_RANGE)
  else match fieldAt t.value 0 1 with
  | 0 => if (s.meter x).state = .free then (s, .failed Cause.METER_UNKNOWN) else (s, .done (some (s.meter x).tar.bytes))
  | 1 =>
    if (s.meter x).state = .free then (s, .failed Cause.METER_UNKNOWN)
    else (s, .done (some (((Map.findD s.ing.snaps x []).filter fun e => within e.billNo).flatMap MeterSnapshot.bytes)))
  | 2 =>
    if 11 < x then (s, .failed Cause.REG_RANGE)
    else (s, .done (some (((Map.findD s.tar.snapshots x []).filter fun e => within e.billNo).flatMap PointSnapshot.bytes)))
  | 3 =>
    if 63 < x then (s, .failed Cause.CAL_UNKNOWN)
    else
      let k := s.storedCal x
      (s, .done (some (set k.active ++ set k.passive ++ set k.superseded)))
  | _ => (s, .failed Cause.REG_RANGE)

/-- BILLING_GET (R197). -/
def execBillingGet (m : Msg) (s : State) : Host.Outcome State Fault Refusal :=
  .next (s.serve 0x0051 m fun t => t.taskCommand m (some 3) runBillReq)

end Sys2Proof.Machine
end

