-- ==== Sys2Proof/Machine/MeterWrite.lean ====
section
/-! DEFINITION. METER_WRITE: operations on meter records and their keys (R124, R126, R148, R151, R179,
R202). -/

namespace Sys2Proof.Machine

/-- STATE of a record by its number (R124). -/
def meterStateOf (n : Nat) : MeterState := if n = 1 then .active else if n = 2 then .suspended else .free

/-- Bytes 8 to 39 of a record (R124). -/
def confOf (l : List Byte) : MeterConf :=
  { flags := BitVec.ofNat 8 (fieldAt l 3 1)
    protocol := fieldAt l 8 1
    route := fieldAt l 9 1
    port := fieldAt l 10 1
    intervalMin := fieldAt l 11 1
    node := fieldAt l 12 2
    calendar := fieldAt l 14 1
    model := fieldAt l 15 1
    extId := BitVec.ofNat 128 (fieldAt l 16 16)
    shortAddr := fieldAt l 32 2
    shortNo := fieldAt l 34 2
    unitExp := fieldAt l 38 1 }

/-- The ranges of the record layout (R124) that the bytes of op 1 and op 2 must keep. -/
def recordRange (i : Nat) (l : List Byte) : Bool :=
  let c := confOf l
  let portOk := if c.route = 7 then decide (c.port ≤ 23) else c.route == 8 || c.port == 0
  fieldAt l 0 2 == 1 && decide (fieldAt l 2 1 ≤ 2) && !c.flags.getLsbD 7 && fieldAt l 4 4 == i &&
    decide (1 ≤ c.protocol) && decide (c.protocol ≤ 5) && decide (c.route ≤ 9) && portOk &&
    [1, 5, 10, 15, 30, 60].contains c.intervalMin && decide (c.calendar ≤ 63) &&
    (decide (c.shortAddr ≤ 0x7FFF) || c.shortAddr == 0xFFFF) && (decide (c.shortNo ≤ 9999) || c.shortNo == 0xFFFF) &&
    decide (fieldAt l 36 1 ≤ 2) && decide (c.unitExp ≤ 6) && fieldAt l 39 1 == 0

/-- The binding rules of R148, R151, R179 and R202 for a record that takes `c` and `st`: 0, or the cause. -/
def State.bindCause (s : State) (i : Nat) (old : MeterRec) (st : MeterState) (c : MeterConf) : Nat :=
  let k := s.storedCal c.calendar
  let fits (o : Option CalSet) : Bool := match o with
    | some set => decide (calLs set % c.intervalMin = 0)
    | none => true
  let topo := s.topology
  let enabled := (s.regs.get (R.PPY_CAL_EN (c.calendar / 32))).getLsbD (c.calendar % 32)
  let prepays := c.flag 3 && (!old.conf.flag 3 || old.conf.calendar != c.calendar || decide (old.state = .free))
  match topoNode topo c.node with
  | none => Cause.NODE_UNKNOWN
  | some e =>
    if k.active.isNone then Cause.CAL_UNKNOWN
    else if e.balMin % c.intervalMin ≠ 0 then Cause.REG_RANGE
    else if isRefMeter topo i ∧ old.conf.flag 0 ∧ !c.flag 0 then Cause.REG_RANGE
    else if st = .active ∧ !(fits k.active && fits k.passive) then Cause.REG_RANGE
    else if prepays ∧ !enabled then Cause.REG_RANGE
    else 0

/-- The device time in ms of the pace boundary after the item's end, from which a binding governs (R126). -/
def State.nextBoundaryMs (s : State) : Nat := (s.clk.ns + 1000000) / 1000000

/-- A record takes a new binding: the old one is kept for the intervals before, and a change of NODE sets
PREV_NODE and NODE_SINCE_MIN (R126, R151). -/
def MeterRec.rebind (r : MeterRec) (old : MeterRec) (c : MeterConf) (t : Nat) : MeterRec :=
  let moved := decide (old.state ≠ .free) &&
    (old.conf.node != c.node || old.conf.calendar != c.calendar || old.conf.intervalMin != c.intervalMin)
  let since := ((t + 59999) / 60000 + c.intervalMin - 1) / c.intervalMin * c.intervalMin
  let bal := if old.state ≠ .free ∧ old.conf.node ≠ c.node
    then { r.bal with prevNode := old.conf.node, since := since } else r.bal
  { r with conf := c, bal := bal, changed := if moved then r.changed ++ [(old.conf, t)] else r.changed }

/-- What follows a change of a record's STATE, PROTOCOL or MODEL: its joined entry is freed, its campaign
targets fail, and nodes whose reference no longer serves are recorded (R150, R236, R383). -/
def State.recordChanged (s : State) (i : Nat) (old : MeterRec) : State :=
  let r := s.meter i
  let s1 := if r.state = .free ∨ r.conf.protocol ≠ old.conf.protocol then s.freeJoined i else s
  let lose (t : CampTarget) : CampTarget := if t.state < 4 then { t with state := 5, cause := Cause.METER_UNKNOWN } else t
  let camp (c : Campaign) : Campaign :=
    if c.state = 1 ∨ c.state = 2 then { c with targets := Map.adjust c.targets i lose } else c
  let s2 := if r.state = .free ∨ r.conf.model ≠ old.conf.model
    then { s1 with fwu := { s1.fwu with camps := Map.mapVals (fun _ (c : Campaign) => camp c) s1.fwu.camps } } else s1
  let served := decide (old.state = .active) && old.conf.flag 0
  if served && !s2.refMeterOk i then
    (s2.topology.filter fun e => e.flag 2 && e.refMeter == i).foldl
      (fun t e => t.post Ev.BAL_NO_REF [b2 e.node]) s2
  else s2

/-- Writes a record that a METER_WRITE item changed; the change is also written to JOURNAL (R127). -/
def State.writeRecord (s : State) (i : Nat) (r : MeterRec) : State :=
  let s1 := s.setMeter i r
  ({ s1 with ing := { s1.ing with journal := insertSorted i s1.ing.journal } } : State).recordChanged i (s.meter i)

/-- What the meter's lane took in before an item ends before it: readings and tokens of the meter that are logged become
durable first (R126). [DEDUCED, log 157; unsafe] -/
def State.laneReady (s : State) (i : Nat) : State :=
  let l := ((s.ing.waiting.filter fun x => x.index == i).map fun x => x.loggedAt) ++
    (s.ing.tokens.filter fun w => w.index == i).map fun w => w.loggedAt
  if l.isEmpty then s else (s.durableUpto (l.foldl max 0)).applyTokens (l.foldl max 0)

/-- The billing period of a meter under a binding from `t` ms on: one that begins there after op 1, and the next boundary of
the calendar in force where the calendar is new (R188, R190). -/
def State.billFrom (s : State) (r old : MeterRec) (fresh : Bool) (t : Nat) : MeterRec :=
  let p := r.conf.intervalMin
  let from_ := ((t + 59999) / 60000 + p - 1) / p * p
  let next := (s.storedCal r.conf.calendar).active.bind fun set => nextBilling set (t / 60000)
  if fresh then { r with tar := { r.tar with billNext := next, start := from_ } }
  else if r.conf.calendar ≠ old.conf.calendar then { r with tar := { r.tar with billNext := next } }
  else r

/-- Operations 1 and 2 (R148): the provisioned part from the item, keys and APPLIED_ISN from the record; op 1
clears the rest. -/
def State.writeProvisioned (s : State) (i : Nat) (clear : Bool) (l : List Byte) : State × ItemEnd :=
  let old := s.meter i
  let c := confOf l
  let st := meterStateOf (fieldAt l 2 1)
  match s.bindCause i old st c with
  | 0 =>
    let kept : MeterRec := { keyWrap := old.keyWrap, key2Wrap := old.key2Wrap, appliedIsn := old.appliedIsn }
    let base : MeterRec := if clear
      then (if old.state = .free then kept else { kept with store := old.store, changed := old.changed })
      else old
    let r := s.billFrom (base.rebind old c s.nextBoundaryMs) old clear s.nextBoundaryMs
    (s.writeRecord i { r with state := st, keyAlg := fieldAt l 36 1, keyGen := fieldAt l 37 1 }, .done none)
  | cause => (s, .failed cause)

/-- A METER_OP item (R148). [DEDUCED, log 111; unsafe] -/
def runMeterOp (s : State) (t : Tlv) : State × ItemEnd :=
  let i := fieldAt t.value 0 4
  let op := fieldAt t.value 4 1
  let old := s.meter i
  if 1048576 ≤ i then (s, .failed Cause.METER_UNKNOWN)
  else if op = 0 ∨ 6 < op then (s, .failed Cause.REG_RANGE)
  else if op ≠ 1 ∧ old.state = .free then (s, .failed Cause.METER_UNKNOWN)
  else match op with
  | 1 => if recordRange i (t.value.drop 8) then s.writeProvisioned i true (t.value.drop 8) else (s, .failed Cause.REG_RANGE)
  | 2 => if recordRange i (t.value.drop 8) then s.writeProvisioned i false (t.value.drop 8) else (s, .failed Cause.REG_RANGE)
  | 3 => (s.writeRecord i { old with seqHigh := 0, seqWin := 0 }, .done none)
  | 4 => (s.writeRecord i { old with state := .suspended }, .done none)
  | 5 => match s.bindCause i old .active old.conf with
    | 0 => (s.writeRecord i { old with state := .active }, .done none)
    | cause => (s, .failed cause)
  | _ =>
    if isRefMeter s.topology i ∧ old.conf.flag 0 then (s, .failed Cause.REG_RANGE)
    else (s.writeRecord i { store := old.store }, .done none)

/-- A METER_KEY item: the key is wrapped under the KEK and KEY_GEN rises (R148, R346). -/
def runMeterKey (s : State) (t : Tlv) : State × ItemEnd :=
  let i := fieldAt t.value 0 4
  let which := fieldAt t.value 4 1
  let alg := fieldAt t.value 5 1
  let key := t.value.drop 8
  let old := s.meter i
  if 1048576 ≤ i ∨ old.state = .free then (s, .failed Cause.METER_UNKNOWN)
  else if 1 < which ∨ !((alg == 1 && key.length == 16) || (alg == 2 && key.length == 32)) then (s, .failed Cause.REG_RANGE)
  else if !s.keysReady then (s, .failed Cause.ZEROISED)
  else
    let w : WrappedKey := ⟨s.enrol, key⟩
    let r := { old with keyGen := (old.keyGen + 1) % 256 }
    let r1 := if which = 0 then { r with keyAlg := alg, keyWrap := some w, keyEpoch := s.epoch }
      else { r with key2Wrap := some w }
    let s1 := ({ s with ing := { s.ing with keys := s.ing.keys.filter (· != (i, which)) } } : State).showSlots
    (s1.writeRecord i r1, .done none)

/-- One METER_WRITE item. -/
def runMeterWrite (s : State) (_r : ItemRef) (t : Tlv) : State × ItemEnd :=
  let s1 := s.laneReady (fieldAt t.value 0 4)
  if t.type = 0x0040 then runMeterOp s1 t else runMeterKey s1 t

/-- METER_WRITE (R148). -/
def execMeterWrite (m : Msg) (s : State) : Host.Outcome State Fault Refusal :=
  .next (s.serve 0x0040 m fun t => t.taskCommand m (some 5) runMeterWrite)

end Sys2Proof.Machine
end

