-- ==== Sys2Proof/Machine/WarpParse.lean ====
section
/-! DEFINITION. The byte layouts of the Warp image and of its sections (R32, R33): from the bytes of an image to
WarpImage. For each section a parser, and whether its constants and its reserved bytes and bits are as its layout
table gives them. -/

namespace Sys2Proof.Machine

/-! ### Reading records -/

/-- Byte `off` of a record. -/
def byteAt (l : List Byte) (off : Nat) : Nat := fieldAt l off 1

/-- Bit `i` of a number. -/
def bitOf (v i : Nat) : Bool := v / 2 ^ i % 2 == 1

/-- `n` bytes of a record, zeros where it ends. -/
def bytesAt (l : List Byte) (off n : Nat) : List Byte :=
  let b := (l.drop off).take n
  b ++ List.replicate (n - b.length) 0

/-- `n` records of `size` bytes from `base`. -/
def recordsAt (l : List Byte) (base size n : Nat) : List (List Byte) :=
  (List.range n).map fun i => bytesAt l (base + size * i) size

/-! ### PACE_PLAN, SIGNERS and REG_INIT (R26, R33, R468) -/

def parsePaceEntry (l : List Byte) : PaceEntry :=
  ⟨byteAt l 0, byteAt l 1, BitVec.ofNat 16 (fieldAt l 2 2), fieldAt l 4 2, fieldAt l 6 2⟩

def parsePacePlan (l : List Byte) : List PaceEntry := (recordsAt l 8 16 (fieldAt l 0 2)).map parsePaceEntry

def paceReserved (l : List Byte) : Bool := zerosAt l 2 6 && (recordsAt l 8 16 (fieldAt l 0 2)).all fun e => zerosAt e 8 8

def parseSigner (l : List Byte) : SignerEntry :=
  ⟨fieldAt l 0 2, fieldAt l 4 2, bytesAt l 8 64, zerosAt l 2 2 && zerosAt l 6 2⟩

def parseSigners (l : List Byte) : List SignerEntry := (recordsAt l 8 72 (fieldAt l 0 2)).map parseSigner

def parseRegInit (l : List Byte) : List RegInit :=
  (recordsAt l 8 16 (fieldAt l 0 2)).map fun e =>
    ⟨fieldAt e 0 4, BitVec.ofNat 32 (fieldAt e 4 4), BitVec.ofNat 32 (fieldAt e 8 4), BitVec.ofNat 32 (fieldAt e 12 4)⟩

/-! ### HOST_PLAN (R48) -/

def parseHostEntry (l : List Byte) : HostEntry :=
  { context := byteAt l 0, link := byteAt l 1, port := byteAt l 2, localClear := bitOf (byteAt l 3) 0
    udpPort := fieldAt l 4 2, peerAddr := BitVec.ofNat 128 (fieldAt l 8 16), peerPrefix := byteAt l 24
    rights := BitVec.ofNat 32 (fieldAt l 28 4), writeBlocks := BitVec.ofNat 32 (fieldAt l 32 4)
    tasksReserved := fieldAt l 36 2, tasksMax := fieldAt l 38 2, cmdRate := fieldAt l 40 2, cmdBurst := fieldAt l 42 2
    noticeMax := fieldAt l 44 4, noticeMask := BitVec.ofNat 32 (fieldAt l 48 4), sessionLife := fieldAt l 52 4
    keys := recordsAt l 64 64 (byteAt l 56)
    reservedZero := decide (byteAt l 3 < 2) && zerosAt l 6 2 && zerosAt l 25 3 && zerosAt l 57 7 &&
      zerosAt l (64 + 64 * byteAt l 56) (256 - 64 * byteAt l 56) }

def parseHostPlan (l : List Byte) : List HostEntry := (recordsAt l 8 320 (fieldAt l 0 2)).map parseHostEntry

/-! ### SENSOR_PLAN (R99) -/

def parseSensor (l : List Byte) : SensorEntry :=
  { enabled := bitOf (byteAt l 0) 0, autoZero := bitOf (byteAt l 0) 1, tsense := byteAt l 1, zeroGroup := fieldAt l 2 2
    offset := signedAt l 4 4, gain := fieldAt l 8 4, tc1 := signedAt l 12 2, tc2 := signedAt l 14 2
    ofsTc := signedAt l 16 2, t0 := signedAt l 18 2, azLimit := fieldAt l 20 4, driftAlarm := fieldAt l 24 4 }

def parseVolt (l : List Byte) : VoltEntry :=
  { enabled := bitOf (byteAt l 0) 0, tsense := byteAt l 1, tc1 := signedAt l 2 2, offset := signedAt l 4 4
    scale := fieldAt l 8 4, t0 := signedAt l 12 2 }

def parseTemp (l : List Byte) : TempEntry :=
  { enabled := bitOf (byteAt l 0) 0, kind := byteAt l 1, betaAlpha := fieldAt l 2 2, nominalOhm := fieldAt l 4 4
    tOffset := signedAt l 8 2 }

def parseChannel (l : List Byte) : ChannelEntry :=
  let n := byteAt l 1
  { enabled := bitOf (byteAt l 0) 0, magwin := byteAt l 2, zeroThr := fieldAt l 4 4, calImin := fieldAt l 8 4
    calImax := fieldAt l 12 4, calTmin := signedAt l 16 2, calTmax := signedAt l 18 2, calId := fieldAt l 20 4
    delay := signedAt l 24 2
    terms := (recordsAt l 32 8 8).map fun t => ⟨byteAt t 0, signedAt t 4 4⟩
    breakpoints := (recordsAt l 96 8 n).map fun b => (fieldAt b 0 4, fieldAt b 4 4)
    restZero := (recordsAt l 96 8 8).zipIdx.all fun b => decide (b.2 < n) || zerosAt b.1 0 8 }

def parseSensorPlan (l : List Byte) : SensorPlan :=
  ⟨fieldAt l 8 4, (recordsAt l 16 32 48).map parseSensor, (recordsAt l 1552 16 8).map parseVolt,
    (recordsAt l 1680 16 8).map parseTemp, (recordsAt l 1808 160 12).map parseChannel⟩

def sensorReserved (l : List Byte) : Bool :=
  fieldAt l 0 2 == 48 && fieldAt l 2 2 == 8 && fieldAt l 4 2 == 8 && fieldAt l 6 2 == 12 && zerosAt l 12 4 &&
  ((recordsAt l 16 32 48).all fun e => decide (byteAt e 0 < 4) && zerosAt e 28 4) &&
  ((recordsAt l 1552 16 8).all fun e => decide (byteAt e 0 < 2) && zerosAt e 14 2) &&
  ((recordsAt l 1680 16 8).all fun e => decide (byteAt e 0 < 2) && zerosAt e 10 6) &&
  (recordsAt l 1808 160 12).all fun e => decide (byteAt e 0 < 2) && zerosAt e 3 1 && zerosAt e 26 6 &&
    (recordsAt e 32 8 8).all fun t => zerosAt t 1 3

/-! ### QTY_PLAN (R123) -/

def parsePoint (l : List Byte) : PointEntry :=
  let f := byteAt l 0
  { enabled := bitOf f 0, dc := bitOf f 1, invert := bitOf f 2, vch := byteAt l 1, intervalMin := byteAt l 2
    nominalHz := byteAt l 3, startI := fieldAt l 4 4, pmaxW := fieldAt l 8 8, vmin := fieldAt l 16 4
    pGain := fieldAt l 20 4, pOfs := signedAt l 24 4, qGain := fieldAt l 28 4, qOfs := signedAt l 32 4
    vGain := fieldAt l 36 4, iGain := fieldAt l 40 4, iOfs := signedAt l 44 4, imax := fieldAt l 48 4 }

def parsePulse (l : List Byte) : PulseEntry :=
  { enabled := bitOf (byteAt l 0) 0, activeLow := bitOf (byteAt l 0) 1, mp := byteAt l 1, acc := byteAt l 2
    widthMs := byteAt l 3, const := fieldAt l 4 4 }

def parseQtyPlan (l : List Byte) : QtyPlan :=
  ⟨(recordsAt l 16 56 12).map parsePoint, (recordsAt l 688 16 16).map parsePulse⟩

def qtyReserved (l : List Byte) : Bool :=
  fieldAt l 0 2 == 12 && fieldAt l 2 2 == 16 && zerosAt l 4 12 &&
  ((recordsAt l 16 56 12).all fun e => decide (byteAt e 0 < 8) && zerosAt e 52 4) &&
  (recordsAt l 688 16 16).all fun e => decide (byteAt e 0 < 4) && zerosAt e 8 8

/-! ### LEGAL (R224) -/

def parseLegal (l : List Byte) : LegalSection :=
  { mpEntries := fieldAt l 0 2, flags := BitVec.ofNat 8 (byteAt l 2), dispCount := byteAt l 3, dispScroll := fieldAt l 4 2
    mpCal := (List.range 12).map fun n => byteAt l (8 + n), optAddr := bytesAt l 24 32
    disp := (recordsAt l 56 4 (byteAt l 3)).map fun d => ⟨byteAt d 0, byteAt d 1, byteAt d 2, byteAt d 3⟩ }

def legalReserved (l : List Byte) : Bool :=
  zerosAt l 6 2 && zerosAt l 20 4 && (recordsAt l 56 4 32).zipIdx.all fun d => decide (d.2 < byteAt l 3) || zerosAt d.1 0 4

/-! ### TOPOLOGY (R150) -/

def parseNode (l : List Byte) : TopoNode :=
  { node := fieldAt l 0 2, parent := fieldAt l 2 2, flags := BitVec.ofNat 8 (byteAt l 4), balMin := byteAt l 5
    refMp := byteAt l 6, refMeter := fieldAt l 8 4, vNom := fieldAt l 12 4, k0Init := fieldAt l 16 4
    k2Init := fieldAt l 20 4, sigmaMin := fieldAt l 24 4 }

def parseTopology (l : List Byte) : List TopoNode := (recordsAt l 16 32 (fieldAt l 0 4)).map parseNode

def topologyReserved (l : List Byte) : Bool :=
  zerosAt l 4 12 && (recordsAt l 16 32 (fieldAt l 0 4)).all fun e => zerosAt e 7 1 && zerosAt e 28 4

/-! ### QUEUE_PLAN (R324) -/

def parseQueuePlan (l : List Byte) : QueuePlan :=
  ⟨(List.range 16).map fun i => byteAt l (16 + i),
    (recordsAt l 32 16 (fieldAt l 0 2)).map fun e =>
      ⟨fieldAt e 0 2, byteAt e 2, BitVec.ofNat 8 (byteAt e 3), fieldAt e 4 4, BitVec.ofNat 64 (fieldAt e 8 8)⟩⟩

/-! ### STORAGE (R296) -/

def parseStorage (l : List Byte) : StoragePlan :=
  { dies := byteAt l 0, stripeW := byteAt l 1, pageBytes := fieldAt l 2 2, spareBytes := fieldAt l 4 2
    pagesPerBlock := fieldAt l 6 2, blocksPerDie := fieldAt l 8 2, slcAddr := byteAt l 10, slcOn := byteAt l 11
    slcOff := byteAt l 12, rateMts := fieldAt l 14 2, sysBlocks := fieldAt l 16 2, slcPct := byteAt l 18, opPct := byteAt l 19
    retentionDays := fieldAt l 20 2, minIvl := byteAt l 22, nsMib := (List.range 7).map fun k => fieldAt l (32 + 8 * k) 4 }

def storageReserved (l : List Byte) : Bool :=
  zerosAt l 13 1 && zerosAt l 23 9 && zerosAt l 88 8 && (List.range 7).all fun k => zerosAt l (36 + 8 * k) 4

/-! ### RF_BANDS (R228) and PLC_BANDS (R257) -/

def parseRadio (l : List Byte) : RadioConf :=
  { role := byteAt l 0, wmbusModes := byteAt l 1, rate := byteAt l 2, chCount := byteAt l 3, ch0Khz := fieldAt l 4 4
    spacingKhz := fieldAt l 8 2, preambleOct := fieldAt l 10 2, chMap := BitVec.ofNat 64 (fieldAt l 12 8)
    floodCh := (List.range 3).map fun k => byteAt l (20 + k), txDbm := signedAt l 23 1, paLeadUs := byteAt l 24
    flags := BitVec.ofNat 8 (byteAt l 25), dwellMs := fieldAt l 26 2, dwellWinS := fieldAt l 28 2 }

def parseRfBands (l : List Byte) : RfBands :=
  ⟨(recordsAt l 16 32 2).map parseRadio, (recordsAt l 80 16 (fieldAt l 2 2)).map fun b =>
    ⟨fieldAt b 0 4, fieldAt b 4 4, fieldAt b 8 2, fieldAt b 10 2⟩⟩

def rfReserved (l : List Byte) : Bool :=
  fieldAt l 0 2 == 2 && zerosAt l 4 12 && ((recordsAt l 16 32 2).all fun e => zerosAt e 30 2) &&
  (recordsAt l 80 16 (fieldAt l 2 2)).all fun e => zerosAt e 12 4

def parsePlcBands (l : List Byte) : List PlcConf :=
  (recordsAt l 16 48 4).map fun e =>
    { role := byteAt e 0, coupling := byteAt e 1, refSrc := byteAt e 2, group := byteAt e 3, kLo := byteAt e 4
      kHi := byteAt e 5, txLevel := byteAt e 6, txLeadUs := byteAt e 7, notch := BitVec.ofNat 128 (fieldAt e 8 16)
      mode := byteAt e 24, cfpPct := byteAt e 25, sfMs := fieldAt e 26 2, netId := fieldAt e 28 2 }

def plcReserved (l : List Byte) : Bool :=
  fieldAt l 0 2 == 4 && zerosAt l 2 14 && (recordsAt l 16 48 4).all fun e => zerosAt e 30 18

/-! ### PORTS (R278, R279) -/

def parsePort (l : List Byte) : PortEntry :=
  { role := byteAt l 0, flags := BitVec.ofNat 8 (byteAt l 1), slew := byteAt l 2, filter := byteAt l 3, rate := fieldAt l 4 4
    frame := byteAt l 8, deLead := byteAt l 9, deLag := byteAt l 10, reservedZero := zerosAt l 11 5 }

def parseIp (l : List Byte) : IpEntry :=
  { flags := BitVec.ofNat 8 (byteAt l 0), prefix4 := byteAt l 1, prefix6 := byteAt l 2, vlanId := fieldAt l 4 2
    ipv4 := BitVec.ofNat 32 (fieldAt l 8 4), gw4 := BitVec.ofNat 32 (fieldAt l 12 4)
    ipv6 := BitVec.ofNat 128 (fieldAt l 16 16), gw6 := BitVec.ofNat 128 (fieldAt l 32 16)
    reservedZero := zerosAt l 3 1 && zerosAt l 6 2 }

def parsePorts (l : List Byte) : PortsPlan :=
  { headerOk := fieldAt l 0 2 == 64 && fieldAt l 2 2 == 8 && fieldAt l 4 2 == 8 && zerosAt l 7 1 && zerosAt l 10 6
    ptpPort := byteAt l 6, ports := (recordsAt l 16 16 64).map parsePort, ips := (recordsAt l 1040 48 8).map parseIp
    tampers := (recordsAt l 1424 8 8).map fun e => ⟨byteAt e 0, byteAt e 1, zerosAt e 2 6⟩
    subcons := (recordsAt l 1488 20 (fieldAt l 8 2)).map fun e =>
      ⟨byteAt e 0, byteAt e 1, fieldAt e 2 2, BitVec.ofNat 128 (fieldAt e 4 16)⟩ }

/-! ### PAIR_PLAN (R390) -/

def parsePairPlan (l : List Byte) : PairPlan :=
  { headerOk := fieldAt l 0 2 == 2 && decide (byteAt l 2 < 2) && zerosAt l 3 1 && zerosAt l 12 4
    prefer0 := bitOf (byteAt l 2) 0, lagUs := fieldAt l 4 2, startWait := fieldAt l 6 2, ckptPaces := fieldAt l 8 4
    idents := (List.range 2).map fun m => BitVec.ofNat 256 (fieldAt l (16 + 32 * m) 32)
    addr1 := (recordsAt l 80 20 8).map fun e => (BitVec.ofNat 32 (fieldAt e 0 4), BitVec.ofNat 128 (fieldAt e 4 16)) }

/-! ### The image (R32) -/

/-- A directory entry. -/
structure DirEntry where
  type : Nat
  version : Nat
  off : Nat
  len : Nat
  crc : Nat
  deriving DecidableEq, Repr

/-- The directory. -/
def parseDirectory (l : List Byte) : List DirEntry :=
  (recordsAt l 64 16 (fieldAt l 16 2)).map fun e => ⟨fieldAt e 0 2, fieldAt e 2 2, fieldAt e 4 4, fieldAt e 8 4, fieldAt e 12 4⟩

/-- The LENGTH that the chapter of a section gives it. -/
def sectionLength (type : Nat) (l : List Byte) : Nat :=
  match type with
  | 0x01 => 1488 + 20 * fieldAt l 8 2
  | 0x02 => 3728
  | 0x03 => 944
  | 0x04 => 8 + 16 * fieldAt l 0 2
  | 0x05 => 32 + 16 * fieldAt l 0 2
  | 0x06 => 8 + 320 * fieldAt l 0 2
  | 0x07 => 16 + 32 * fieldAt l 0 4
  | 0x08 => 80 + 16 * fieldAt l 2 2
  | 0x09 => 208
  | 0x0A => 96
  | 0x0B => 240
  | 0x0C => 184
  | 0x0D => 8 + 72 * fieldAt l 0 2
  | _ => 8 + 16 * fieldAt l 0 2

/-- Whether a section's VERSION is the one its chapter gives; the chapters of PACE_PLAN, HOST_PLAN, SIGNERS and
REG_INIT give none. -/
def versionOk (type version : Nat) : Bool := [0x04, 0x06, 0x0D, 0x0E].contains type || version == 1

/-- A directory entry against the image: its place, its CRC, and VERSION and LENGTH as its chapter gives them. -/
def DirEntry.ok (l : List Byte) (count : Nat) (e : DirEntry) : Bool :=
  let body := (l.drop e.off).take e.len
  e.off % 8 == 0 && decide (64 + 16 * count ≤ e.off) && decide (e.off + e.len ≤ fieldAt l 40 4) && crc32c body == e.crc &&
  versionOk e.type e.version && sectionLength e.type body == e.len

/-- The bytes of a section: none where the directory does not name it. -/
def sectionBytes (l : List Byte) (type : Nat) : List Byte :=
  match (parseDirectory l).find? fun e => e.type == type with
  | some e => (l.drop e.off).take e.len
  | none => []

/-- Bytes between the directory and the signature area that no section holds are 0. -/
def paddingZero (l : List Byte) (dir : List DirEntry) : Bool :=
  (l.take (fieldAt l 40 4)).zipIdx.all fun b =>
    decide (b.2 < 64 + 16 * dir.length) || b.1 == 0 || dir.any fun e => decide (e.off ≤ b.2) && decide (b.2 < e.off + e.len)

/-- The byte checks of loader check 1 (R32, R39). [DEDUCED, log 44; unsafe] -/
def layoutOk (l : List Byte) : Bool :=
  let dir := parseDirectory l
  let sigOff := fieldAt l 40 4
  let top := dir.foldl (fun n e => max n (e.off + e.len)) 0
  fieldAt l 0 4 == 0x57415250 && fieldAt l 4 2 == 3 && fieldAt l 6 2 == 64 && decide (byteAt l 11 < 4) &&
  fieldAt l 12 4 == l.length && decide (l.length ≤ 16777216) && decide (1 ≤ dir.length) && decide (dir.length ≤ 15) &&
  fieldAt l 18 2 == 64 && zerosAt l 28 4 && sigOff == (top + 7) / 8 * 8 && fieldAt l 44 4 + sigOff == l.length && zerosAt l 48 12 &&
  fieldAt l 60 4 == crc32c (l.take 60) && (dir.all (DirEntry.ok l dir.length)) &&
  !(dir.zipIdx.any fun a => dir.zipIdx.any fun b => decide (a.2 < b.2) && decide (a.1.off < b.1.off + b.1.len) &&
    decide (b.1.off < a.1.off + a.1.len)) &&
  paddingZero l dir &&
  match parseSigs 2 (l.drop sigOff) with
  | some s => decide (1 ≤ s.length)
  | none => false

/-- An image from its bytes. -/
def parseWarp (l : List Byte) : WarpImage :=
  let sec := sectionBytes l
  let types := (parseDirectory l).map fun e => e.type
  let opt {α : Type} (type : Nat) (f : List Byte → α) : Option α := if types.contains type then some (f (sec type)) else none
  { bytes := l
    layoutOk := layoutOk l
    hwType := fieldAt l 8 2
    minRev := byteAt l 10
    dualSign := bitOf (byteAt l 11) 0
    pair := bitOf (byteAt l 11) 1
    serial := BitVec.ofNat 32 (fieldAt l 20 4)
    denetVer := BitVec.ofNat 32 (fieldAt l 24 4)
    buildTime := fieldAt l 32 8
    sigs := (parseSigs 2 (l.drop (fieldAt l 40 4))).getD []
    present := types
    reservedZero := paceReserved (sec 4) && zerosAt (sec 6) 2 6 && sensorReserved (sec 2) && qtyReserved (sec 3) &&
      legalReserved (sec 0xC) && topologyReserved (sec 7) && zerosAt (sec 5) 2 14 && storageReserved (sec 0xA) &&
      (!types.contains 8 || rfReserved (sec 8)) && (!types.contains 9 || plcReserved (sec 9)) && zerosAt (sec 0xD) 2 6 &&
      zerosAt (sec 0xE) 2 6
    ports := parsePorts (sec 1)
    sensorPlan := parseSensorPlan (sec 2)
    qtyPlan := parseQtyPlan (sec 3)
    legal := parseLegal (sec 0xC)
    topology := parseTopology (sec 7)
    queuePlan := parseQueuePlan (sec 5)
    storage := parseStorage (sec 0xA)
    rfBands := opt 8 parseRfBands
    plcBands := opt 9 parsePlcBands
    pairPlan := opt 0xB parsePairPlan
    hostPlan := parseHostPlan (sec 6)
    pacePlan := parsePacePlan (sec 4)
    signers := parseSigners (sec 0xD)
    regInit := parseRegInit (sec 0xE) }

end Sys2Proof.Machine
end

