-- ==== Sys2Proof/Machine/Loader.lean ====
section
/-! DEFINITION. The loader: the nine checks of R39 with the constraints every section owns, and the commands
WARP_LOAD and WARP_APPLY (R26, R34 to R39, R43, R465, R467, R468). -/

namespace Sys2Proof.Machine

/-- Whether a number lies in a range. -/
def within (lo hi v : Nat) : Bool := decide (lo ≤ v) && decide (v ≤ hi)

/-- Whether a signed number lies in a range. -/
def withinInt (lo hi v : Int) : Bool := decide (lo ≤ v) && decide (v ≤ hi)

/-- Whether the elements of a list differ from one another. -/
def distinct : List Nat → Bool
  | [] => true
  | a :: l => !l.contains a && distinct l

/-- Whether a list rises strictly. -/
def rising : List Nat → Bool
  | [] => true
  | [_] => true
  | a :: b :: l => decide (a < b) && rising (b :: l)

/-- Whether two elements of a list stand in a relation. -/
def anyPair {α : Type} (p : α → α → Bool) : List α → Bool
  | [] => false
  | a :: l => l.any (p a) || anyPair p l

/-! ### Signatures (R35, R36, R468) -/

/-- The bytes an image's signatures cover: 0 to SIG_OFFSET − 1 (R33). -/
def WarpImage.signed (w : WarpImage) : List Byte := w.bytes.take (fieldAt w.bytes 40 4)

/-- Check 3 under a governing SIGNERS section: none, or its cause. -/
def checkSignatures (signers : List SignerEntry) (w : WarpImage) : Option Nat :=
  let keys := signerKeys signers
  let good := (w.sigs.filter fun b => keys.any (b.counts w.signed)).map fun b => b.keyId
  let need := if w.dualSign then 2 else 1
  if need ≤ good.eraseDups.length then none
  else if w.sigs.any fun b => keys.any b.names && !keys.any (b.counts w.signed) then some Cause.WARP_SIGNATURE
  else some Cause.WARP_SIGNER

/-! ### Capacities (R17, R48, R297, R324) and DRAM (R16) -/

/-- Bytes of a TLC block. -/
def StoragePlan.blockBytes (p : StoragePlan) : Nat := p.pagesPerBlock * 16384

/-- Bytes of raw NAND a plan populates. -/
def StoragePlan.rawBytes (p : StoragePlan) : Nat := p.dies * p.blocksPerDie * p.blockBytes

/-- The sum of a list. -/
def total (l : List Nat) : Nat := l.foldl (· + ·) 0

/-- R297: the namespaces fit C, and the system area holds two maps and 256 MiB. -/
def StoragePlan.fits (p : StoragePlan) : Bool :=
  let data := p.groups * (p.stripeW - 1)
  decide (total p.nsMib * 1048576 * 100 ≤ data * p.tlcBlocks * p.blockBytes * (100 - p.opPct)) &&
  decide ((2 * (p.rawBytes / 4096) + 268435456) * 3 ≤ data * p.sysBlocks * p.blockBytes)

/-- Check 5. -/
def WarpImage.capacityOk (w : WarpImage) : Bool :=
  decide (total (w.hostPlan.map fun e => e.tasksReserved) ≤ 4096) &&
  decide (w.topology.length ≤ 65536) &&
  decide (w.queuePlan.queues.length ≤ 512) &&
  decide (total ((w.queuePlan.queues.filter fun q => q.flags.getLsbD 0).map fun q => 2 ^ q.depthLog2) ≤ 32768) &&
  w.storage.fits

/-- Check 6: usable DRAM is 15/16 of what is found, against the fixed uses and the map of the NAND found. -/
def State.dramOk (s : State) : Bool :=
  let raw := total (s.power.dies.map fun d => d.pageBytes * d.pagesPerBlock * d.blocksPerDie)
  decide (1664 * 1048576 + raw / 4096 ≤ s.power.dramGib * 1073741824 / 16 * 15)

/-! ### The pace plan (R24, R26, R467, R468) -/

/-- Whether the engine table lists a code. -/
def engineKnown (e : Nat) : Bool := decide (e ≤ 4) || within 6 0xE e || within 0x10 0x15 e

/-- Whether the engine table allows an engine on a lane. -/
def laneAllowed (e lane : Nat) : Bool :=
  if e ≤ 4 then lane == 8 else if e ≤ 7 then lane == 9 else decide (lane ≤ 7)

/-- Background engines. -/
def background (e : Nat) : Bool := e == 4 || decide (0x10 ≤ e)

/-- Quanta allotted. -/
def PaceEntry.count (e : PaceEntry) : Nat := ((List.range 16).filter fun q => e.quanta.getLsbD q).length

/-- Whether a REG_INIT entry of the image sets a bit of `PPY_CAL_EN`. -/
def WarpImage.setsPrepay (w : WarpImage) : Bool :=
  w.regInit.any fun e => (e.addr == R.PPY_CAL_EN 0 || e.addr == R.PPY_CAL_EN 1) && (e.value &&& e.mask) != 0

/-- A radio or a power-line channel has a role. -/
def WarpImage.radioOn (w : WarpImage) : Bool := match w.rfBands with | some b => b.radios.any fun r => r.role != 0 | none => false
def WarpImage.plcOn (w : WarpImage) : Bool := (w.plcBands.getD []).any fun c => c.role == 1

/-- The engines an image requires (R24, R467). -/
def WarpImage.requiredEngines (w : WarpImage) : List Nat :=
  [0x00, 0x02, 0x03, 0x04, 0x06, 0x07, 0x08, 0x09, 0x0C, 0x10, 0x11, 0x12, 0x13, 0x15] ++
  (if w.pairPlan.isSome then [0x01] else []) ++ (if w.radioOn then [0x0A] else []) ++
  (if w.plcOn then [0x0B] else []) ++ (if w.setsPrepay then [0x0D] else []) ++
  (if ((w.ports.ports.drop 16).take 24).any fun p => p.role != 0 then [0x0E] else [])

/-- Check 7 (R26), with the entries the active sealed firmware declares. -/
def WarpImage.budgetOk (w : WarpImage) (declared : Option (List Byte)) : Bool :=
  let p := w.pacePlan
  !anyPair (fun (a b : PaceEntry) => a.lane == b.lane && (a.quanta &&& b.quanta) != 0) p &&
  (p.all fun e => decide (2 * e.costUs ≤ 125 * e.count)) &&
  ((List.range 10).all fun l => decide (total ((p.filter fun e => e.lane == l).map fun e => e.costUs) ≤ 900)) &&
  (w.requiredEngines.all fun c => p.any fun e => e.engine == c) &&
  ((p.filter fun e => e.engine == 0).map fun e => (e.lane, e.quanta, e.costUs)) == [(8, 1, 50)] &&
  declared == some ((legalEntries p).flatMap PaceEntry.bytes)

/-- The constraints of PACE_PLAN that check 8 owns (R468). -/
def pacePlanOk (p : List PaceEntry) : Bool :=
  within 1 128 p.length && p.all fun e =>
    engineKnown e.engine && laneAllowed e.engine e.lane && e.quanta != 0 && within 1 900 e.costUs &&
    (if background e.engine then within 1 65535 e.deadline else e.deadline == 0)

/-! ### HOST_PLAN (R48, R49) -/

/-- One entry. -/
def HostEntry.ok (e : HostEntry) (ports : PortsPlan) : Bool :=
  let role := match ports.ports[e.port]? with | some p => p.role | none => 0
  decide (e.context ≤ 7) && within 1 4 e.link &&
  (if e.link = 1 then decide (e.port ≤ 7) && (role == 1 || role == 3) && within 1024 65535 e.udpPort
   else e.port == 0 && e.udpPort == 0) &&
  (!e.localClear || e.link == 4) && decide (e.peerPrefix ≤ 128) && decide (e.writeBlocks.toNat < 2 ^ 23) &&
  decide (e.tasksReserved ≤ 4096) && within e.tasksReserved 4096 e.tasksMax && e.tasksMax != 0 &&
  within 1 10000 e.cmdRate && within e.cmdRate 20000 e.cmdBurst && within 1024 65536 e.noticeMax &&
  within 600 604800 e.sessionLife && within 1 4 e.keys.length && e.reservedZero

/-- The section: each context once, at most four to a PCIe endpoint, one to the SPI host port. -/
def hostPlanOk (p : List HostEntry) (ports : PortsPlan) : Bool :=
  let links (k : Nat) : Nat := (p.filter fun e => e.link == k).length
  within 1 8 p.length && distinct (p.map fun e => e.context) && (p.all fun e => e.ok ports) &&
  decide (links 2 ≤ 4) && decide (links 3 ≤ 4) && decide (links 4 ≤ 1)

/-! ### SENSOR_PLAN (R99) -/

/-- A gain of 0.5 to 2.0 in Q2.22. -/
def gainOk (g : Nat) : Bool := within 2097152 8388608 g

/-- A TSENSE names an enabled temperature input, or none. -/
def SensorPlan.tsenseOk (p : SensorPlan) (t : Nat) : Bool :=
  t == 0xFF || (match p.temps[t]? with | some e => e.enabled | none => false)

/-- Constraints of an enabled sensor entry. -/
def SensorPlan.sensorOk (p : SensorPlan) (e : SensorEntry) : Bool :=
  !e.enabled || (p.tsenseOk e.tsense && decide (e.zeroGroup < 4096) && withinInt (-838860) 838860 e.offset &&
    gainOk e.gain && withinInt (-4000) 12500 e.t0 && decide (e.azLimit ≤ 0xA3D7) &&
    (e.autoZero || e.azLimit == 0) && decide (1 ≤ e.driftAlarm))

/-- Constraints of an enabled voltage entry. -/
def SensorPlan.voltOk (p : SensorPlan) (e : VoltEntry) : Bool :=
  !e.enabled || (p.tsenseOk e.tsense && withinInt (-838860) 838860 e.offset && e.scale != 0 &&
    withinInt (-4000) 12500 e.t0)

/-- Constraints of an enabled temperature entry. -/
def tempOk (e : TempEntry) : Bool :=
  !e.enabled || ((if e.kind = 0 then within 2000 6000 e.betaAlpha else e.kind == 1 && within 3000 4000 e.betaAlpha) &&
    within 10000 100000000 e.nominalOhm && withinInt (-500) 500 e.tOffset)

/-- Constraints of an enabled channel entry. -/
def SensorPlan.channelOk (p : SensorPlan) (e : ChannelEntry) : Bool :=
  !e.enabled || (within 1 8 e.breakpoints.length && within 1 64 e.magwin && decide (e.zeroThr < e.calImin) &&
    decide (e.calImin < e.calImax) && decide (e.calTmin < e.calTmax) && withinInt (-1024) 1024 e.delay &&
    e.terms.length == 8 && (match e.terms with | t :: _ => t.sensor != 0xFF | [] => false) &&
    (e.terms.all fun t =>
      if t.sensor = 0xFF then t.coeff == 0
      else match p.sensors[t.sensor]? with | some x => x.enabled | none => false) &&
    e.restZero && distinct (e.used.map fun t => t.sensor) && rising (e.breakpoints.map fun b => b.1) &&
    e.breakpoints.all fun b => gainOk b.2)

/-- The section. -/
def SensorPlan.ok (p : SensorPlan) : Bool :=
  p.sensors.length == 48 && p.volts.length == 8 && p.temps.length == 8 && p.channels.length == 12 &&
  p.sensors.all p.sensorOk && p.volts.all p.voltOk && p.temps.all tempOk && p.channels.all p.channelOk

/-! ### QTY_PLAN (R123) -/

/-- Constraints of an enabled point entry. -/
def SensorPlan.pointOk (p : SensorPlan) (n : Nat) (e : PointEntry) : Bool :=
  !e.enabled || (match p.channel n with
    | none => false
    | some c =>
      (if e.vch = 0xFF then e.dc else match p.volts[e.vch]? with | some v => v.enabled | none => false) &&
      [1, 5, 10, 15, 30, 60].contains e.intervalMin &&
      (if e.dc then e.nominalHz == 0 else e.nominalHz == 50 || e.nominalHz == 60) &&
      decide (e.startI ≤ c.calImax) && within 1 1000000000000 e.pmaxW && gainOk e.pGain &&
      withinInt (-2560000) 2560000 e.pOfs && gainOk e.qGain && withinInt (-2560000) 2560000 e.qOfs &&
      (!e.dc || (e.qGain == 0x400000 && e.qOfs == 0)) && gainOk e.vGain && gainOk e.iGain &&
      withinInt (-655360) 655360 e.iOfs && (e.dc || e.iOfs == 0) && e.imax != 0)

/-- Whether an accumulator code fits a point's coupling. -/
def accFits (e : PointEntry) (acc : Nat) : Bool :=
  decide (acc ≤ 8) && (if 7 ≤ acc then e.dc else if 2 ≤ acc then !e.dc else true)

/-- Constraints of an enabled pulse entry. -/
def QtyPlan.pulseOk (q : QtyPlan) (e : PulseEntry) : Bool :=
  !e.enabled || (match q.point e.mp with
    | none => false
    | some m =>
      let x := if 7 ≤ e.acc then (m.imax + 65535) / 65536 else m.pmaxW
      accFits m e.acc && (decide (2 ≤ e.acc) || m.vch != 0xFF) && within 2 250 e.widthMs &&
      within 1 100000 e.const && decide (x * e.const * e.widthMs ≤ 1800000000))

/-- The section. -/
def QtyPlan.ok (q : QtyPlan) (p : SensorPlan) : Bool :=
  q.points.length == 12 && q.pulses.length == 16 && (q.points.zipIdx.all fun e => p.pointOk e.2 e.1) &&
  q.pulses.all q.pulseOk

/-! ### LEGAL (R224) -/

/-- A display item. -/
def DispItem.ok (d : DispItem) (q : QtyPlan) : Bool :=
  (match q.point d.mp with
   | none => false
   | some m =>
     if within 0x40 0x43 d.code || d.code == 0x50 then decide (d.rate ≤ 7) else accFits m d.code && d.rate == 0xFF) &&
  decide (d.dec ≤ 3)

/-- OPT_ADDR: printable characters, then zeros. -/
def optAddrOk (l : List Byte) : Bool :=
  l.length == 32 && (l.takeWhile fun b => b != 0).all (fun b => within 0x21 0x7E b.toNat) &&
  (l.dropWhile fun b => b != 0).all fun b => b == 0

/-- The section. -/
def LegalSection.ok (l : LegalSection) (q : QtyPlan) : Bool :=
  l.mpEntries == 12 && decide (l.flags.toNat < 2) && within 1 32 l.dispCount && l.disp.length == l.dispCount &&
  within 2 60 l.dispScroll && l.mpCal.length == 12 && (l.mpCal.all fun c => decide (c ≤ 63) || c == 0xFF) &&
  optAddrOk l.optAddr && l.disp.all fun d => d.ok q

/-! ### TOPOLOGY (R150) -/

/-- Whether a root lies at most `n` steps above a node. -/
def reachesRoot (t : List TopoNode) : Nat → Nat → Bool
  | n, k => match t.find? fun e => e.node == k with
    | none => false
    | some e =>
      if e.parent = 0xFFFF then true
      else match n with
        | 0 => false
        | m + 1 => reachesRoot t m e.parent

/-- One entry. -/
def topoOk (t : List TopoNode) (q : QtyPlan) (e : TopoNode) : Bool :=
  decide (e.node ≤ 65535) && decide (e.flags.toNat < 32) && !(e.flags.getLsbD 1 && e.flags.getLsbD 2) &&
  [5, 10, 15, 30, 60].contains e.balMin && reachesRoot t 31 e.node &&
  ((t.filter fun c => c.parent == e.node && c.parent != 0xFFFF).all fun c => e.balMin % c.balMin == 0) &&
  (if e.flags.getLsbD 1 then match q.point e.refMp with | some m => e.balMin % m.intervalMin == 0 | none => false
   else e.refMp == 0xFF) &&
  (if e.flags.getLsbD 2 then decide (e.refMeter ≤ 1048575) && e.vNom != 0 else e.refMeter == 0xFFFFFFFF) &&
  decide (1 ≤ e.sigmaMin)

/-- The section: no point and no meter is the reference of two nodes. -/
def topologyOk (t : List TopoNode) (q : QtyPlan) : Bool :=
  decide (1 ≤ t.length) && rising (t.map fun e => e.node) && t.all (topoOk t q) &&
  distinct ((t.filter fun e => e.flags.getLsbD 1).map fun e => e.refMp) &&
  distinct ((t.filter fun e => e.flags.getLsbD 2).map fun e => e.refMeter)

/-! ### RF_BANDS (R228) and PLC_BANDS (R257) -/

/-- A radio entry. -/
def RadioConf.ok (r : RadioConf) (bands : List SubBand) : Bool :=
  let mesh := r.role == 1 || r.role == 3
  let wm := r.role == 2 || r.role == 3
  let used := (List.range 64).filter fun k => r.chMap.getLsbD k
  decide (r.role ≤ 3) && decide (r.wmbusModes ≤ 7) && (r.wmbusModes % 2 == 0 || r.wmbusModes == 1) &&
  (wm == (r.wmbusModes != 0)) && decide (r.rate ≤ 4) && within 1 64 r.chCount &&
  decide (410000 ≤ r.ch0Khz) && decide (r.ch0Khz + (r.chCount - 1) * r.spacingKhz ≤ 960000) &&
  within 50 1000 r.spacingKhz && within 4 1000 r.preambleOct && (used.all fun k => decide (k < r.chCount)) &&
  (!mesh || decide (2 ≤ used.length)) && r.floodCh.length == 3 &&
  (r.floodCh.all fun c => c == 0xFF || used.contains c) && (!mesh || r.floodCh.getD 0 0xFF != 0xFF) &&
  withinInt (-10) 14 r.txDbm && within 1 100 r.paLeadUs && decide (r.flags.toNat < 4) &&
  (r.dwellMs == 0 || within 20 65535 r.dwellMs) &&
  (if r.dwellMs = 0 then r.dwellWinS == 0 else within 1 3600 r.dwellWinS) &&
  (!mesh || used.all fun k =>
    let mid := 2 * (r.ch0Khz + k * r.spacingKhz)
    (bands.filter fun b => decide (2 * b.loKhz + r.spacingKhz ≤ mid) && decide (mid + r.spacingKhz ≤ 2 * b.hiKhz)).length == 1)

/-- The section. -/
def RfBands.ok (b : RfBands) : Bool :=
  b.radios.length == 2 && within 1 8 b.subBands.length &&
  (b.subBands.all fun x => decide (x.loKhz < x.hiKhz) && within 1 10000 x.duty && within 1 3600 x.windowS) &&
  !anyPair (fun (x y : SubBand) => decide (x.loKhz < y.hiKhz) && decide (y.loKhz < x.hiKhz)) b.subBands &&
  b.radios.all fun r => r.ok b.subBands

/-- A channel entry; carrier k of NOTCH is unused. -/
def PlcConf.ok (c : PlcConf) : Bool :=
  let inside (k : Nat) : Bool := decide (c.kLo ≤ k) && decide (k ≤ c.kHi)
  decide (c.role ≤ 1) && decide (c.coupling ≤ 1) &&
  (c.refSrc == 0 || (if c.coupling = 0 then within 1 3 c.refSrc else within 4 6 c.refSrc)) && decide (c.group ≤ 3) &&
  within 8 81 c.kLo && within (c.kLo + 23) 104 c.kHi && decide (c.txLevel ≤ 15) && within 1 100 c.txLeadUs &&
  ((List.range 128).all fun k => !c.notch.getLsbD k || inside k) &&
  decide (24 ≤ ((List.range 128).filter fun k => inside k && !c.notch.getLsbD k).length) &&
  decide (c.mode ≤ 2) && decide (c.cfpPct ≤ 80) && within 100 2000 c.sfMs && within 1 65534 c.netId

/-- The section: MESH channels of one group share no carrier. -/
def plcBandsOk (l : List PlcConf) : Bool :=
  l.length == 4 && l.all PlcConf.ok &&
  !anyPair (fun (a b : PlcConf) => a.role == 1 && b.role == 1 && a.group == b.group &&
    decide (a.kLo ≤ b.kHi) && decide (b.kLo ≤ a.kHi)) l

/-! ### PORTS (R278, R279, R287) -/

/-- Whether port p is a serial port. -/
def isSer (p : Nat) : Bool := within 16 39 p

/-- Whether a role code belongs to port p. -/
def roleOk (p role : Nat) : Bool :=
  if p ≤ 7 then decide (role ≤ 3) else if p ≤ 9 then decide (role ≤ 1) else if p ≤ 15 then role == 0
  else if p ≤ 39 || p == 60 then decide (role ≤ 2) else decide (role ≤ 1)

/-- The RATE of port p. -/
def rateOk (p rate : Nat) : Bool :=
  if p ≤ 3 then decide (rate ≤ 1) else if p ≤ 7 then decide (rate ≤ 2) else if isSer p then within 300 1000000 rate
  else if p = 60 then within 4800 115200 rate else rate == 0

/-- A port entry; a wired M-Bus port runs at one of three rates, even parity and one stop bit. -/
def PortEntry.ok (e : PortEntry) (p : Nat) : Bool :=
  roleOk p e.role && decide (e.flags.toNat < 8) && decide (e.slew ≤ 3) && decide (e.filter ≤ 255) &&
  (e.filter == 0 || isSer p || p == 40 || p == 58 || p == 60) && rateOk p e.rate &&
  (if isSer p then decide (e.frame < 8) && e.frame % 4 != 3 else e.frame == 0) && decide (e.deLead ≤ 15) &&
  decide (e.deLag ≤ 15) && e.reservedZero &&
  (!(isSer p && e.role == 2) || ([300, 2400, 9600].contains e.rate && e.frame == 1))

/-- An IP entry of a port with a role. -/
def IpEntry.ok (e : IpEntry) (role : Nat) : Bool :=
  decide (e.flags.toNat < 8) && (role == 0 || e.flags.getLsbD 0 || e.flags.getLsbD 1) && within 1 32 e.prefix4 &&
  within 1 128 e.prefix6 && (if e.flags.getLsbD 2 then within 1 4094 e.vlanId else e.vlanId == 0) && e.reservedZero

/-- The section, with PAIR_PLAN and QTY_PLAN as R278 relates them. -/
def PortsPlan.ok (p : PortsPlan) (pair : Bool) (q : QtyPlan) : Bool :=
  let role (k : Nat) : Nat := match p.ports[k]? with | some e => e.role | none => 0
  p.headerOk && p.ports.length == 64 && p.ips.length == 8 && p.tampers.length == 8 && decide (p.subcons.length ≤ 256) &&
  (p.ptpPort == 0xFF || (decide (p.ptpPort ≤ 7) && role p.ptpPort != 0)) && (p.ports.zipIdx.all fun e => e.1.ok e.2) &&
  ((role 8 == 1) == pair) && ((role 9 == 1) == pair) &&
  ((List.range 16).all fun j => (role (42 + j) == 1) == (q.pulse j).isSome) &&
  (p.ips.zipIdx.all fun e => e.1.ok (role e.2)) &&
  (p.tampers.all fun t => decide (t.mode ≤ 4) && within 1 255 t.filter && t.reservedZero) &&
  p.subcons.all fun c => decide (c.port ≤ 7) && (role c.port == 2 || role c.port == 3) && decide (c.transport ≤ 1) &&
    within 1 65535 c.remotePort

/-! ### STORAGE (R296, R299, R300) -/

/-- The sizes of R300, for `nodes` nodes. -/
def StoragePlan.sizesOk (p : StoragePlan) (nodes : Nat) : Bool :=
  let ivl := ((1048576 * 16 + nodes * 80) * (1440 / p.minIvl) * p.retentionDays + 1048575) / 1048576
  match p.nsMib with
  | [a, b, c, d, e, f, _] =>
    a == 512 && decide (ivl ≤ b) && decide (6656 ≤ c) && decide (1024 ≤ d) && decide (4096 ≤ e) && f == 64
  | _ => false

/-- The constraints of R296. -/
def StoragePlan.ok (p : StoragePlan) : Bool :=
  within 5 64 p.dies && within 5 32 p.stripeW && p.dies % p.stripeW == 0 && p.pageBytes == 16384 &&
  within 2048 65535 p.spareBytes && within 384 3072 p.pagesPerBlock && p.pagesPerBlock % 3 == 0 &&
  within 1024 16384 p.blocksPerDie && within 200 800 p.rateMts && within 16 1024 p.sysBlocks && within 2 10 p.slcPct &&
  within 7 50 p.opPct && within 7 400 p.retentionDays && [1, 5, 10, 15, 30, 60].contains p.minIvl

/-- The dies found agree with the section (R296). -/
def StoragePlan.agrees (p : StoragePlan) (d : DiePage) : Bool :=
  d.pageBytes == p.pageBytes && d.spareBytes == p.spareBytes && d.pagesPerBlock == p.pagesPerBlock &&
  d.blocksPerDie == p.blocksPerDie && decide (p.rateMts ≤ d.rateMts)

/-- The section against the NAND found and formatted: bytes 0 to 19 are those of the boot record, and only BULK may shrink
(R296, R299). -/
def State.storageOk (s : State) (p : StoragePlan) (nodes : Nat) : Bool :=
  p.ok && p.sizesOk nodes && s.power.dies.length == p.dies && s.power.dies.all p.agrees &&
  (match s.sto.bootRecord with
   | none => true
   | some o => o.take 20 == p.bootBytes.take 20 && (List.range 6).all fun k => decide (s.sto.sizes.getD k 0 ≤ p.nsMib.getD k 0))

/-! ### QUEUE_PLAN (R324) and PAIR_PLAN (R390) -/

/-- The requesters that need tickets: the contexts present, and those the arbiter table requires. -/
def WarpImage.requesters (w : WarpImage) : List Nat :=
  (w.hostPlan.map fun e => e.context) ++ [8, 11, 12, 13, 14, 15] ++ (if w.radioOn || w.plcOn then [9] else []) ++
  (if w.setsPrepay then [10] else [])

/-- The section; queues 0 and 1 as R322 asks. -/
def QueuePlan.ok (p : QueuePlan) (requesters : List Nat) : Bool :=
  p.tickets.length == 16 && (p.tickets.all fun t => decide (t ≤ 255)) && within 2 512 p.queues.length &&
  rising (p.queues.map fun q => q.queue) &&
  (p.queues.any fun q => q.queue == 0) && (p.queues.any fun q => q.queue == 1) &&
  (p.queues.all fun q => decide (1 < q.queue) || (decide (12 ≤ q.depthLog2) && !q.flags.getLsbD 0)) &&
  (p.queues.all fun q => decide (q.queue ≤ 511) && within 4 16 q.depthLog2 && decide (q.flags.toNat < 2) &&
    q.base % 2 ^ q.depthLog2 == 0 && decide (q.base + 2 ^ q.depthLog2 ≤ 524288)) &&
  !anyPair (fun (a b : QueueEntry) => decide (a.base < b.base + 2 ^ b.depthLog2) &&
    decide (b.base < a.base + 2 ^ a.depthLog2)) p.queues &&
  requesters.all fun i => p.tickets.getD i 0 != 0

/-- PAIR_PLAN, the header flag, and the pulse outputs of a pair. -/
def WarpImage.pairOk (w : WarpImage) : Bool :=
  w.pair == w.pairPlan.isSome &&
  match w.pairPlan with
  | none => true
  | some p =>
    p.headerOk && within 100 250 p.lagUs && within 1000 10000 p.startWait && within 1000 600000 p.ckptPaces &&
    p.addr1.length == 8 && (match p.idents with | [a, b] => a != b | _ => false) &&
    w.qtyPlan.pulses.zipIdx.all fun e => !e.1.enabled || (e.1.activeLow &&
      match w.ports.ports[42 + e.2]? with | some x => x.flags.getLsbD 0 | none => false)

/-! ### REG_INIT (R34) -/

/-- The bits of a register in RW and RWS fields. -/
def RegSpec.writable (r : RegSpec) : Word :=
  r.fields.foldl (fun (m : Word) f => if f.acc = .RW ∨ f.acc = .RWS then m ||| f.mask else m) 0

/-- An entry selects bits of RW and RWS fields alone, and FLAGS holds LOCK alone. -/
def RegInit.ok (e : RegInit) : Bool :=
  match findReg e.addr with
  | none => false
  | some r => e.mask &&& ~~~ r.writable == 0 && decide (e.flags.toNat < 2)

/-! ### The nine checks (R39) -/

/-- Sections that every image holds (R33). -/
def requiredSections : List Nat := [0x01, 0x02, 0x03, 0x04, 0x05, 0x06, 0x07, 0x0A, 0x0C, 0x0D]

/-- Check 1. -/
def WarpImage.formatOk (w : WarpImage) : Bool :=
  w.layoutOk && rising w.present && (w.present.all fun t => within 1 0xE t) && (requiredSections.all fun t => w.present.contains t) &&
  (w.present.contains 0x08 == w.rfBands.isSome) && (w.present.contains 0x09 == w.plcBands.isSome) &&
  (w.present.contains 0x0B == w.pairPlan.isSome)

/-- Any bit of `PPY_CAL_EN` is set on the device. -/
def State.prepayOn (s : State) : Bool := s.regs.get (R.PPY_CAL_EN 0) != 0 || s.regs.get (R.PPY_CAL_EN 1) != 0

/-- Application lanes with an INGEST entry all have a PREPAY entry. -/
def prepayLanes (p : List PaceEntry) : Bool :=
  (p.filter fun e => e.engine == 0x09).all fun e => p.any fun x => x.engine == 0x0D && x.lane == e.lane

/-- The guards of R467 against the device. -/
def State.guardsOk (s : State) (w : WarpImage) : Bool :=
  (!s.prepayOn || prepayLanes w.pacePlan) &&
  ((w.pacePlan.any fun e => e.engine == 0x14) || !s.fwu.camps.any fun c => c.2.state == 1 || c.2.state == 2)

/-- Check 8. -/
def State.referencesOk (s : State) (w : WarpImage) : Bool :=
  w.reservedZero && pacePlanOk w.pacePlan && hostPlanOk w.hostPlan w.ports && w.sensorPlan.ok &&
  w.qtyPlan.ok w.sensorPlan && w.legal.ok w.qtyPlan && topologyOk w.topology w.qtyPlan &&
  (match w.rfBands with | some b => b.ok | none => true) && (match w.plcBands with | some b => plcBandsOk b | none => true) &&
  w.ports.ok w.pairPlan.isSome w.qtyPlan && s.storageOk w.storage w.topology.length &&
  w.queuePlan.ok w.requesters && w.pairOk && within 1 8 w.signers.length && w.signers.all SignerEntry.ok &&
  decide (w.regInit.length ≤ 4096) && w.regInit.all RegInit.ok && s.guardsOk w

/-- The LEGAL_MET and LEGAL_TAR entries the active sealed firmware declares. -/
def State.declared (s : State) : Option (List Byte) := (Map.find s.leg.slots s.sealedSlot).map paceDeclBytes

/-- The checks from the first, with the SIGNERS section that governs check 3 and the verdicts on serial and
sealed change: none where the image passes, or the cause of the first failure. [DEDUCED, log 44; unsafe] -/
def State.check (s : State) (w : WarpImage) (signers : Option (List SignerEntry)) (serialOk sealedOk : Bool) : Option Nat :=
  if !w.formatOk then some Cause.WARP_FORMAT
  else if w.hwType ≠ 0x9600 ∨ 0xC0 < w.minRev then some Cause.WARP_HW_TYPE
  else match (match signers with | some l => checkSignatures l w | none => some Cause.WARP_SIGNER) with
    | some c => some c
    | none =>
      if !serialOk then some Cause.WARP_ROLLBACK
      else if !w.capacityOk then some Cause.WARP_CAPACITY
      else if !s.dramOk then some Cause.WARP_DRAM
      else if !w.budgetOk s.declared then some Cause.WARP_BUDGET
      else if !s.referencesOk w then some Cause.WARP_REFERENCE
      else if !sealedOk then some Cause.WARP_SEALED
      else none

/-- R37: the serial lies above the counter, or the image is the active one. -/
def State.serialOk (s : State) (w : WarpImage) : Bool :=
  decide (1 ≤ w.serial.toNat) && (decide (s.warp.counter.toNat < w.serial.toNat) ||
    (w.serial == s.warp.counter && (match s.warp.active with | some a => a.bytes == w.bytes | none => false)))

/-- The loader on an image that arrives from a seat (R35, R36, R39): the SIGNERS of the active image govern,
and a first image comes through the service port alone and is judged by its own. -/
def State.loadCheck (s : State) (seat : Nat) (w : WarpImage) : Option Nat :=
  let signers := match s.warp.active with
    | some a => some a.signers
    | none => if seat = 8 then some w.signers else none
  s.check w signers (s.serialOk w) (!sealedDiffers s.warp.active w || s.sealedAllowed)

/-- A WARP_LOAD item with the image parsed: an image that passes becomes pending and replaces the pending one; a schedule of that
one ends (R43, R465). [DEDUCED, log 43; unsafe] -/
def runWarpLoad (w : WarpImage) (s : State) (r : ItemRef) (_t : Tlv) : State × ItemEnd :=
  match s.loadCheck r.msg.seat w with
  | some c =>
    (({ s with warp := { s.warp with refused := true } } : State).setF F.SYS_WARP_STAT.CAUSE c, .failed c)
  | none =>
    let s1 := ({ s with warp := { s.warp with waiting := some w, sched := none, refused := false } } : State).setF
      F.SYS_WARP_STAT.CAUSE 0
    match s.warp.waiting, s.warp.sched with
    | some old, some _ => (s1.warpRejected old.serial Cause.WARP_REPLACED, .done none)
    | _, _ => (s1, .done none)

/-- WARP_LOAD: `image` are the bytes of the image its body carries (R39, R465). [DESIGN CHOICE, log 41; unsafe] -/
def execWarpLoad (m : Msg) (image : List Byte) (s : State) : Host.Outcome State Fault Refusal :=
  .next (s.serve 0x0030 m fun t =>
    if t.hasRight m.seat 11 then t.admitTask m (fun _ => true) (runWarpLoad (parseWarp image)) [⟨0, []⟩]
    else t.resp m false 0 Cause.RIGHTS [])

/-- A WARP_APPLY item (R43, R377, R465). In a pair the ledger carries the apply pace (R393). One that fails leaves
`SYS_WARP_STAT` as it stands. [DESIGN CHOICE, log 168; unsafe] -/
def runWarpApply (pace : Nat) (s : State) (_r : ItemRef) (_t : Tlv) : State × ItemEnd :=
  if s.syncNow = 3 then (s, .failed Cause.PAIR_SPLIT)
  else if s.warp.waiting.isNone ∨ pace ≤ s.now then (s, .failed Cause.REG_RANGE)
  else
    let s1 := s.record (.warpApply pace)
    ({ s1 with warp := { s1.warp with sched := some pace, refused := false } }, .done none)

/-- WARP_APPLY: `pace` is the apply pace its body names (R40, R465). -/
def execWarpApply (m : Msg) (pace : Nat) (s : State) : Host.Outcome State Fault Refusal :=
  .next (s.serve 0x0031 m fun t =>
    if t.hasRight m.seat 11 then t.admitTask m (fun _ => true) (runWarpApply pace) [⟨0, []⟩]
    else t.resp m false 0 Cause.RIGHTS [])

end Sys2Proof.Machine
end

