-- ==== Sys2Proof/Machine/Power.lean ====
section
/-! DEFINITION. Supplies, SAVE, resets and fatal errors (R409 to R418, R424, R427, R434, R437, R438),
and steps of device time (R193, R194, R420). The starts that follow are in Start. -/

namespace Sys2Proof.Machine

/-! ### Steps of device time -/

/-- A forward step passes the end of a point's interval: it closes at b, and the one that holds t_b carries
GAP (R193). -/
def State.stepInterval (s : State) (n : Nat) : State :=
  let c := Map.findD s.qty.points n {}
  if (s.qtyPlan.point n).isSome ∧ 0 < c.finish ∧ c.finish * 1000000000 ≤ s.clk.ns then
    let s1 := State.intervalDue s.qtyPlan s n
    { s1 with qty := { s1.qty with
      points := Map.adjust s1.qty.points n fun (x : PointState) => { x with quality := qset x.quality Q.GAP } } }
  else s

/-- What LEGAL_TAR and LEGAL_MET make of a step applied at this boundary (R193, R194). -/
def State.legalStep (s : State) : State :=
  if s.fld F.LEG_STAT.RUN = 0 then s
  else if s.clk.ns + s.fld F.TAR_SETBACK.SECONDS * 1000000000 < s.clk.last then s.setBack s.clk.last
  else if s.tar.hwm + 1 < s.timeMs then ((List.range 12).foldl State.stepInterval s).tarForward
  else s

/-- The step marked for this boundary takes effect (R420). [DEDUCED, log 67; unsafe] -/
def State.takeStep (s : State) : State :=
  match s.clk.step with
  | none => s
  | some (theta, x) => (s.stepTime theta x).legalStep

/-- TIME_STEP: at a boundary that is not a cut (R420), as step 2 of R192; `bad` as in R117. -/
def execTimeStep (bad : List Nat) (s : State) : Host.Outcome State Fault Refusal :=
  .next (if s.pace.quantum = 0 ∧ s.clk.step.isSome ∧ ¬ s.power.cutDue ∧ ¬ s.portsOff then
      (s.toTar s.qtyPlan false bad).takeStep
    else s)

/-! ### Supplies (R409 to R412, R417) -/

/-- The readings of the supply monitor in their registers. -/
def State.showLevels (s : State) (v : Levels) : State :=
  let r := ((s.regs.setF F.PWR_VIN.VIN_A_MV v.vinA).setF F.PWR_VIN.VIN_B_MV v.vinB).setF F.PWR_VSYS.VSYS_MV v.vsys
  let r1 := (r.setF F.PWR_VSYS.VSTORE_10MV v.vstore).flag F.PWR_STAT.HOLDUP_OK (decide (2200 ≤ v.vstore))
  { s with regs := r1.setF F.PWR_VBAT.MV v.vbat }

/-- The input whose gate is driven: VIN_A while it is good, else VIN_B while it is good (R410). -/
def sourceOf (a b : Bool) : Nat := if a then 1 else if b then 2 else 0

/-- An input becomes good or bad; the gates follow outside SAVE, and a change from one input to the other is
counted and recorded (R410). A supply that is good again before the cut stops the converter (R412).
[DEDUCED, log 51; unsafe] -/
def State.supply (s : State) (x : Supply) (good : Bool) : State :=
  let a := if x = .vinA then good else s.fld F.PWR_STAT.VIN_A_OK == 1
  let b := if x = .vinB then good else s.fld F.PWR_STAT.VIN_B_OK == 1
  let was := s.fld F.PWR_STAT.SRC
  let now := if s.portsOff then 0 else sourceOf a b
  let since := s.power.goodSince.filter fun g => g.1 != x
  let held := s.power.goodSince.filter fun g => g.1 == x
  let since1 := if good then since ++ (if held.isEmpty then [(x, s.now)] else held) else since
  let stop := (a || b) && !s.portsOff
  let s1 := { s with
    regs := ((s.regs.flag F.PWR_STAT.VIN_A_OK a).flag F.PWR_STAT.VIN_B_OK b).setF F.PWR_STAT.SRC now
    power := { s.power with
      goodSince := since1
      holdUp := s.power.holdUp && !stop
      cutDue := s.power.cutDue && !stop } }
  if was ≠ 0 ∧ now ≠ 0 ∧ was ≠ now then (s1.bump F.PWR_SWITCH_CNT.COUNT).post Ev.SUPPLY_SWITCH [b8 now] else s1

/-- SUPPLY_CHANGE: an input has stayed past its threshold for the time of R409 (R410). -/
def execSupplyChange (input : Supply) (good : Bool) (v : Levels) (s : State) : Host.Outcome State Fault Refusal :=
  .next ((s.showLevels v).supply input good)

/-- HOLDUP_START: both inputs are bad and VSYS is below its warning level: the converter starts, a capacitor test
is discarded, and the next boundary is the cut (R412, R430). -/
def execHoldupStart (v : Levels) (s : State) : Host.Outcome State Fault Refusal :=
  .next (if s.fld F.PWR_STAT.VIN_A_OK = 0 ∧ s.fld F.PWR_STAT.VIN_B_OK = 0 ∧ v.vsys < s.fld F.PWR_WARN.MV ∧ ¬ s.portsOff then
      let s1 := (s.showLevels v).flag F.HLT_STAT.CAP_TEST false
      { s1 with power := { s1.power with holdUp := true, cutDue := true } }
    else s)

/-- The flag and the record of a low VBAT, once per start (R417). -/
def State.judgeVbat (s : State) (mv : Nat) : State :=
  let s1 := s.setF F.PWR_VBAT.MV mv
  if mv < 2200 then
    let s2 := s1.flag F.PWR_STAT.VBAT_LOW true
    if s.power.vbatSeen then s2
    else ({ s2 with power := { s2.power with vbatSeen := true } } : State).post Ev.VBAT_LOW []
  else s1

/-- VBAT_LOW: VBAT has fallen to `mv`. While the main supplies are down, below 1.8 V the RTC is no longer valid
(R417). The other fields that VBAT holds keep their value (R7). [DESIGN CHOICE, log 165; unsafe] -/
def execVbatLow (mv : Nat) (s : State) : Host.Outcome State Fault Refusal :=
  .next (if s.power.phase = .off then (if mv < 1800 then s.flag F.CLK_STAT.RTC_VALID false else s) else s.judgeVbat mv)

/-! ### SAVE (R414, R415, R433) -/

/-- The steps of R414 that SAVE runs at a plan level, and the most paces it may last (R433). -/
def saveSteps : Nat → List Nat × Nat
  | 0 => ([1, 2, 3, 4, 5, 6, 7], 90)
  | 1 => ([1, 2, 3, 4, 6, 7], 30)
  | _ => ([1, 2, 3, 7], 5)

/-- SAVE begins at this boundary: the cut (R412, R414). Staged registers are lost (R45), a scheduled reset is not
taken (R427). [DEDUCED, log 52; unsafe] -/
def State.enterSave (s : State) : State :=
  let d : SaveDir := ⟨s.now, s.timeMs, 0, [], 0, 0, 0, false⟩
  let s1 := s.markRole
  { s1 with
    stage := {}
    regs := s1.regs.setF F.PWR_STAT.SRC 0
    power := { s1.power with phase := .save, cutDue := false, due := none, dir := some d, dirNew := true } }

/-- The ports are switched off: their links are gone, and the lines of the radios and power-line channels low (R414). -/
def State.dropLinks (s : State) : State :=
  ((List.range 2).map Output.radioLow ++ (List.range 4).map Output.plcLow).foldl State.send
    { s with regs := (List.range 64).foldl (fun (r : RegFile) p => r.flag (F.PRT_ROLE.UP p) false) s.regs }

/-- The bytes in which a queue word is saved: its data and a tag byte, 1 for POISON (R323). -/
def QueueWord.saved (w : QueueWord) : List Byte := beBytes 8 w.data.toNat ++ [if w.good then 0 else 1]

/-- A list cut into pieces of n. -/
def piecesOf (n : Nat) : Nat → List Byte → List (List Byte)
  | 0, _ => []
  | k + 1, l => if l.isEmpty then [] else l.take n :: piecesOf n k (l.drop n)

/-- The words of the durable queues as units of the JOURNAL namespace, whose LUs the directory lists (R414, R415).
[DESIGN CHOICE, log 178; unsafe] -/
def State.saveUnits (s : State) : State :=
  match s.storagePlan, s.power.dir with
  | some p, some d =>
    let bytes := s.que.saved.flatMap fun e => e.2.flatMap QueueWord.saved
    (piecesOf 16384 (bytes.length / 16384 + 1) bytes).zipIdx.foldl (fun (t : State) e =>
      let lu := p.nsBase 4 + e.2
      let page : NandPage := ⟨lu, 0, (List.range 4).map fun k => (e.1.drop (4096 * k)).take 4096⟩
      match t.program p true page none with
      | some u => { u with power := { u.power with dir := u.power.dir.map fun (x : SaveDir) => { x with units := x.units ++ [lu] } } }
      | none => t) { s with power := { s.power with dir := some { d with units := [] } } }
  | _, _ => s

/-- The LUs of the directory. -/
def State.dirUnits (s : State) : List Nat := match s.power.dir with | some d => d.units | none => []

/-- One step of R414. Step 2 finds the copy write of the open record done, and step 4 the programs in flight,
since each is one step of the model. -/
def State.saveStep (r : SaveRun) (s : State) (k : Nat) : State :=
  if k = 1 then
    let s1 := (s.stopPulses.dropLinks).post Ev.SAVE_BEGIN [b8 s.now, b8 (s.fld F.HLT_STAT.LEVEL)]
    if s.canHandOver then s1.handoverPair else s1
  else if k = 3 then s.finalCheckpoint r.bad
  else if k = 5 then s.saveQueues.saveUnits
  else if k = 6 then s.storageSave
  else s

/-- The directory after more steps (R415). -/
def SaveDir.after (d : SaveDir) (r : SaveRun) (steps : List Nat) (seq : Nat) (units : List Nat) : SaveDir :=
  let bits := steps.foldl (fun (b : BitVec 8) k => b ||| BitVec.ofNat 8 (2 ^ (k - 1))) d.steps
  { d with steps := bits, units := units, paces := r.paces, vEnd := r.vEnd, batch := if steps.contains 6 then seq else d.batch
           complete := d.complete || steps.contains 7 }

/-- Every rail is off. -/
def State.railsOff (s : State) : State :=
  { s with power := { s.power with phase := .off, holdUp := false, cutDue := false, start := none, due := none } }

/-- SAVE: the steps up to `upto` that its plan level runs and that are not done yet. It ends with step 7, or at its
limit of paces without COMPLETE (R414, R415, R433). [DESIGN CHOICE, log 53; unsafe] -/
def execSave (r : SaveRun) (s : State) : Host.Outcome State Fault Refusal :=
  match s.power.phase, s.power.dir with
  | .save, some d =>
    let plan := saveSteps (s.fld F.HLT_STAT.LEVEL)
    let go := if plan.2 < r.paces then [] else plan.1.filter fun k => decide (k ≤ r.upto) && !d.steps.getLsbD (k - 1)
    let s1 := go.foldl (State.saveStep r) s
    let d1 := d.after r go s1.sto.durable.seq s1.dirUnits
    let s2 := { s1 with power := { s1.power with dir := some d1 } }
    .next (if d1.complete ∨ plan.2 < r.paces then s2.railsOff else s2)
  | _, _ => .next s

/-- SAVE_CUTOFF: VSTORE has fallen to 8.0 V: the converter ends and every rail is switched off (R412). -/
def execSaveCutoff (paces : Nat) (s : State) : Host.Outcome State Fault Refusal :=
  .next (if s.power.holdUp then
      { s.railsOff with power := { s.railsOff.power with
        dir := if s.power.phase = .save then s.power.dir.map fun d => { d with paces := paces, vEnd := 800 } else s.power.dir } }
    else s)

/-- QUEUE_CHECKPOINT: at plan levels 1 to 3 the durable queues are written every CKPT_PACES paces (R434). -/
def execQueueCheckpoint (s : State) : Host.Outcome State Fault Refusal :=
  .next (if s.fld F.HLT_STAT.LEVEL ≠ 0 ∧ s.now % s.fld F.HLT_PLAN.CKPT_PACES = 0 ∧ ¬ s.portsOff then s.saveQueues else s)

/-! ### Resets (R409, R416, R418, R424) -/

/-- POWER_ON_RESET: VSYS has fallen below 2.30 V (R409). -/
def execPowerOnReset (s : State) : Host.Outcome State Fault Refusal := .next s.railsOff

/-- POWER_ON: VSYS has stayed above 2.60 V for 50 ms: a full start from OFF, after a SAVE or without one (R409,
R416, R424). -/
def execPowerOn (s : State) : Host.Outcome State Fault Refusal :=
  .next (if s.power.phase = .off then s.beginReset (if s.power.dirNew then 0x01 else 0x00) else s)

/-- PIN_RESET: SYS_RESET_N has been low for 10 µs. No checkpoint is taken; a SAVE runs to its end (R416, R424).
[DEDUCED, log 49; unsafe] -/
def execPinReset (s : State) : Host.Outcome State Fault Refusal :=
  .next (if s.portsOff then s else s.beginReset 0x02)

/-- CLOCK_FAULT: REFCLK is absent or out of limits: the record is kept in MRAM and the reset is taken at once,
without a checkpoint; a SAVE ends there (R21, R418). [DEDUCED, log 50; unsafe] -/
def execClockFault (s : State) : Host.Outcome State Fault Refusal :=
  let s1 := { s with power := { s.power with refFault := true } }
  .next (match s.power.phase with
    | .off => s
    | .save => s1.railsOff
    | _ => (s1.flag F.CLK_STAT.REF_OK false).beginReset 0x07)

/-- ENROL_RESET: 1,000 paces after ENROL (R355). -/
def execEnrolReset (bad : List Nat) (s : State) : Host.Outcome State Fault Refusal :=
  .next (match s.power.due with
    | some d => if d.cause = 0x06 ∧ d.pace ≤ s.now ∧ ¬ s.portsOff then s.cutReset 0x06 bad else s
    | none => s)

/-- A RESET_REQ item (R427). It acts on the serving member. [DEDUCED, log 62; unsafe] -/
def runReset (s : State) (r : ItemRef) (t : Tlv) : State × ItemEnd :=
  let kind := fieldAt t.value 0 1
  let delay := fieldAt t.value 4 4
  if 1 < kind ∨ delay < 1000 ∨ 600000 < delay then (s, .failed Cause.REG_RANGE)
  else if !r.msg.here then (s, .done none)
  else
    let due : DueReset := ⟨if kind = 0 then 0x05 else 0x0B, s.now + delay⟩
    ({ s with power := { s.power with due := some due } }, .done none)

/-- RESET (R427). -/
def execResetCmd (m : Msg) (s : State) : Host.Outcome State Fault Refusal :=
  .next (s.serve 0x00F0 m fun t => t.taskCommand m (some 20) runReset)

/-- COMMANDED_RESET: its delay has passed. An active member in step hands over; a full reset runs steps 2 to 7 of
R414 on the main supply (R427). -/
def execCommandedReset (r : SaveRun) (s : State) : Host.Outcome State Fault Refusal :=
  match s.power.due with
  | none => .next s
  | some d =>
    if (d.cause ≠ 0x05 ∧ d.cause ≠ 0x0B) ∨ s.now < d.pace ∨ s.power.cutDue ∨ s.portsOff then .next s
    else
      let marked := s.markRole
      let s1 := if s.canHandOver then marked.handoverPair else marked
      if d.cause = 0x0B then .next { s1 with power := { s1.power with start := some (0x0B, true), due := none } }
      else
        let steps := [2, 3, 4, 5, 6, 7]
        let d0 : SaveDir := ⟨s.now, s.timeMs, 0, [], 0, 0, 0, false⟩
        let s2 := steps.foldl (State.saveStep r) { s1 with power := { s1.power with dir := some d0 } }
        let s3 := { s2 with power := { s2.power with
          dir := some (d0.after r steps s2.sto.durable.seq s2.dirUnits), dirNew := true } }
        .next (s3.beginReset 0x05)

/-! ### Fatal errors and dumps (R437 to R440) -/

/-- WATCHDOG_HARD_RESET: 16 paces after a bite the fatal sequence has not begun: checkpoint, reset, no dump
(R437). -/
def execWatchdogHardReset (bad : List Nat) (s : State) : Host.Outcome State Fault Refusal :=
  match s.hlt.bite with
  | none => .next s
  | some p =>
    .next (if p + 16 ≤ s.now ∧ ¬ s.portsOff then
        let s1 := { s with hlt := { s.hlt with bite := none, fatal := none, biteNoDump := true } }
        s1.cutReset 0x03 bad
      else s)

/-- Every post of the event queue is handled: the recorder runs on while the dump is written. -/
def State.drainEvents (s : State) : State :=
  s.evt.queue.foldl State.handlePost { s with evt := { s.evt with queue := [] } }

/-- The fatal sequence of R438. -/
def State.fatalSequence (s : State) (f : Fatal) (ending : DumpEnd) (writes : List (Nat × List Byte)) (count : Nat)
    (bad : List Nat) : State :=
  let lane := if f.lane ≤ 9 then f.lane else 0xF
  let r := ((s.regs.setF F.HLT_FATAL_LAST.KIND f.kind).setF F.HLT_FATAL_LAST.LANE lane).setF F.HLT_FATAL_LAST.ENGINE f.engine
  let s1 := ({ s with
    regs := r.setF F.HLT_FATAL_LAST.CAUSE f.cause
    hlt := { s.hlt with fatal := none, bite := none } } : State).post
      Ev.FATAL [b1 f.kind, b8 lane, b2 f.engine, b2 f.cause]
  let s2 := s1.markRole
  let s3 := if s.canHandOver then s2.handoverPair else s2
  let s4 := { s3 with pair := { s3.pair with held := [] } }
  let s5 := if f.kind = 2 then s4 else s4.finalCheckpoint bad
  let s6 := (s5.writeDump f (ending == .whole) s.canHandOver
    (if ending = .whole then s5.dumpSections writes else (s5.dumpSections writes).take count)).drainEvents
  if ending = .cut then s6.enterSave else s6.beginReset (if f.kind = 4 then 0x03 else 0x04)

/-- FATAL_ERROR: the fatal error signalled runs, or one that the hardware raises (`raised`): LOCKSTEP_CTL,
LOCKSTEP_SEALED or UNCORRECTABLE. `ending` is how the dump ends, `writes` what the firmware puts into it, and `count` how many
sections an abandoned dump holds (R438). [DESIGN CHOICE, log 58; unsafe] -/
def execFatalError (raised : Option Fatal) (ending : DumpEnd) (writes : List (Nat × List Byte)) (count : Nat) (bad : List Nat)
    (s : State) : Host.Outcome State Fault Refusal :=
  let f := match s.hlt.fatal with
    | some f => some f
    | none => raised.filter fun f => f.kind == 1 || f.kind == 2 || f.kind == 5
  .next (match f with
    | some f => if s.portsOff then s else s.fatalSequence f ending writes count bad
    | none => s)

end Sys2Proof.Machine
end

