-- ==== Sys2Proof/Machine/Ledger.lean ====
section
/-! DEFINITION. Executing the ledger of a pair: its records, its entries and a resynchronisation (R389, R393, R394,
R396, R401, R406). -/

namespace Sys2Proof.Machine

/-- What the active's modems did in real time, done to the queue and the connection of the same node here (R393). -/
def State.takeTxEvent (s : State) : TxEvent → State
  | .served a n => s.passEvent a n
  | .skipped a n =>
    match (Map.find s.rad.joined a).bind fun e => e.conn with
    | some c => (s.passEvent a n).bump (F.RFM_EVT_SKIP_CNT.COUNT c.radio)
    | none => s
  | .acked a =>
    match Map.find s.rad.joined a with
    | some e => s.setJoined a { e with queue := e.queue.drop 1 }
    | none => s
  | .sent a lsn =>
    match Map.find s.rad.joined a with
    | some e =>
      let mark (p : DownPayload) : DownPayload := { p with lsn := lsn, sends := p.sends + 1, sentAt := s.now, held := none }
      let queue := match e.queue with
        | p :: rest => (if lsn = 0 then p else mark p) :: rest
        | [] => []
      s.setJoined a { e with txCtr := e.txCtr + 1, lsn := if lsn = 0 then e.lsn else lsn, queue := queue }
    | none => s

/-- What a ledger record does to the member that executes it (R393, R396). -/
def State.execRecord (s : State) : LedgerRecord → State
  | .samples l c => { s with pair := { s.pair with samples := s.pair.samples ++ [(l, c)] } }
  | .frame f => s.acceptFrameIn f
  | .waybill member m =>
    { s with host := { s.host with inbox := s.host.inbox ++ [{ m with here := s.memberNo == some member }] } }
  | .regWrite c addr v mask => (s.writeReg (.context c) addr v mask).1
  | .random _ v => { s with pair := { s.pair with randoms := s.pair.randoms ++ [v] } }
  | .time src theta => if s.sourceOn src then s.timeSample src theta else s
  | .txReport l => l.foldl State.takeTxEvent s
  | .warpApply p => { s with warp := { s.warp with sched := some p } }
  | .arbiterSeed v => s.loadSeed v
  | .handover => s
  | .split => { s with pair := { s.pair with split := if s.roleNow = 2 then 3 else 1 } }
  | .resyncMark => s
  | .localNote kind body => s.broadcast kind body false

/-- Executes an entry. -/
def State.execEntry (s : State) (e : LedgerEntry) : State :=
  e.records.foldl State.execRecord { s with pair := { s.pair with executed := some e.pace } }

/-- The stored entries of a resynchronisation take more than 16 GiB (R401). -/
def State.storedTooMuch (s : State) : Bool :=
  decide (2 ^ 24 < (s.pair.stored.map fun e => min 512 (Config.ledgerKib e.pace e.records.length)).sum)

/-- LEDGER_ENTRY: the standby stores and acknowledges an entry and, in step, executes it; after one with LAST
it asserts ACT_OUT (R393, R394, R406). What reaches the active is the inputs its partner forwards, which go
into its own entry. [DEDUCED, log 130; unsafe] -/
def execLedgerEntry (e : LedgerEntry) (s : State) : Host.Outcome State Fault Refusal :=
  if !s.linkUp || !e.crcOk then .next s
  else if s.roleNow = 2 then
    .next (e.records.foldl (fun (t : State) r => (t.execRecord r).record r) s)
  else if s.roleNow ≠ 1 then .next s
  else
    let s1 := ({ s with pair := { s.pair with entrySeen := true, missed := 0 } } : State).send (.ledgerAck e.pace)
    if s.syncNow = 1 then
      let s2 : State := { s1 with pair := { s1.pair with stored := s1.pair.stored ++ [e] } }
      .next (if s2.storedTooMuch then s2.startResync else s2)
    else if s.syncNow = 2 ∧ s.pair.mismatch = none then
      let s2 := s1.execEntry e
      .next (if e.last then ((s2.becomeActive false).bump F.PAIR_SWITCH_CNT.COUNT).releaseAll.resendNotices.endHandover else s2)
    else .next s1

/-- RESYNCHRONISATION: on the standby, the boundary of E_r takes the active's `PACE_COUNT`, and `left` bytes remain
to be copied of `total`; once none remain, and the sealed cores have accepted the legal state (`sealedOk`), up to
four stored entries are executed per pace (R389, R401). -/
def execResynchronisation (pace total left : Nat) (sealedOk : Bool) (s : State) : Host.Outcome State Fault Refusal :=
  if s.syncNow ≠ 1 ∨ !s.linkUp then .next s
  else
    let mib := min 0xFFFFFFFF ((left + 1048575) / 1048576)
    if s.roleNow = 2 then .next (s.setF F.PAIR_RESYNC_LEFT.MIB mib)
    else
      let s1 := match s.pair.resync with
        | some _ => s
        | none => { s with
            pair := { s.pair with resync := some (pace, total) }
            pace := { s.pace with count := BitVec.ofNat 64 pace } }
      let s2 := s1.setF F.PAIR_RESYNC_LEFT.MIB mib
      if left ≠ 0 ∨ !sealedOk then .next s2
      else
        let now := s2.pair.stored.take 4
        .next (now.foldl State.execEntry { s2 with pair := { s2.pair with stored := s2.pair.stored.drop 4 } })

end Sys2Proof.Machine
end

