-- ==== Sys2Proof/Machine/Ports.lean ====
section
/-! DEFINITION. Wired ports: Ethernet and PTP, PCIe rings, the SPI host port's waybills, serial polling, time
input (R278 to R292). -/

namespace Sys2Proof.Machine

/-- Puts a waybill where the judgement of R466 takes it. -/
def State.arrive (s : State) (w : Waybill) : State := { s with host := { s.host with arrived := s.host.arrived ++ [w] } }

/-! ### Links -/

/-- PORT_LINK: the link of an Ethernet port (0 to 7) or a PCIe endpoint (61, 62) comes up at a speed (R281:
1 to 3; for PCIe 4 × WIDTH + GEN) or goes down with 0. -/
def execPortLink (port speed : Nat) (s : State) : Host.Outcome State Fault Refusal :=
  let up := decide (speed ≠ 0)
  let s1 := s.flag (F.PRT_ROLE.UP port) up
  if port < 8 then
    if s.fld (F.PRT_ETH_STAT.SPEED port) = speed then .next s
    else
      let s2 := s1.setF (F.PRT_ETH_STAT.SPEED port) speed
      .next ((if up then s2 else s2.flag (F.PRT_ETH_STAT.LINK_SEEN port) true).post Ev.PORT_LINK [b2 port])
  else if port = 61 ∨ port = 62 then
    let e := port - 61
    if (s.fld (F.PRT_PCIE_STAT.LINK e) == 1) = up then .next s
    else
      let s2 := ((s1.flag (F.PRT_PCIE_STAT.LINK e) up).setF (F.PRT_PCIE_STAT.WIDTH e) (speed / 4)).setF
        (F.PRT_PCIE_STAT.GEN e) (speed % 4)
      .next (s2.post Ev.PORT_LINK [b2 port])
  else .next s

/-! ### Ethernet (R281) -/

/-- A frame the port cannot use is counted. -/
def State.ethDrop (s : State) (port : Nat) : State := s.bump (F.PRT_ETH_DROP_CNT.COUNT port)

/-- Whether entry k of the sub-concentrators stands on this port. -/
def State.subconOn (s : State) (port k : Nat) : Bool :=
  match s.warp.active with
  | some w => match w.ports.subcons[k]? with
    | some e => e.port == port
    | none => false
  | none => false

/-- Whether a port has an address of a version of IP (R279). -/
def State.ipOn (s : State) (port : Nat) (v6 : Bool) : Bool :=
  match s.warp.active with
  | some w => match w.ports.ips[port]? with
    | some e => e.flags.getLsbD (if v6 then 1 else 0)
    | none => false
  | none => false

/-- ETHERNET_FRAME: a frame of `len` bytes on a port that is not OFF (R281). -/
def execEthernetFrame (port len : Nat) (content : EthContent) (s : State) : Host.Outcome State Fault Refusal :=
  if s.role port = 0 ∨ 8 ≤ port ∨ !s.receives then .next s
  else if 1522 < len then .next (s.ethDrop port)
  else match content with
    | .arp => .next (if s.ipOn port false then s.send (.ethReply port) else s.ethDrop port)
    | .ndp => .next (if s.ipOn port true then s.send (.ethReply port) else s.ethDrop port)
    | .echo v6 => .next (if s.ipOn port v6 then s.send (.ethReply port) else s.ethDrop port)
    | .unusable => .next (s.ethDrop port)
    | .waybill w =>
      let v6 := match w.link with | .udp _ _ _ v6 _ => v6 | _ => false
      let udp := match w.link with | .udp p _ _ _ _ => p == port | _ => false
      if !udp || !s.ipOn port v6 || (v6 && decide (1452 < w.bytes.length)) then .next (s.ethDrop port)
      else .next (s.arrive w)
    | .subcon k f =>
      if s.subconOn port k && decide (2 ≤ s.role port) then
        .next (s.handOwn { f with route := 8, rx := s.timeMs })
      else .next (s.ethDrop port)

/-! ### PTP (R282) -/

/-- PTP_PORT of the active image. -/
def State.ptpPort (s : State) : Option Nat :=
  match s.warp.active with
  | some w => if w.ports.ptpPort < 8 then some w.ports.ptpPort else none
  | none => none

/-- A Sync is complete: Delay_Req goes out with its own timestamp `sent`. -/
def State.delayReq (s : State) (port : Nat) (p : PtpState) (sent : Int) : State :=
  let q := { p with reqSeq := (p.reqSeq + 1) % 65536, t3 := some (sent + s.fld F.PRT_PTP_LAT.EGRESS_NS) }
  ({ s with prt := { s.prt with ptp := q } } : State).send (.delayReq port q.reqSeq)

/-- PTP_MESSAGE: a message of a domain arrives at device time `at_` in ns; `sent` is the device time at which a
Delay_Req it causes leaves. A complete exchange gives θ = ((t1 − t2) + (t4 − t3)) / 2. [DEDUCED, log 126; unsafe] -/
def execPtpMessage (domain : Nat) (msg : PtpMessage) (at_ sent : Int) (s : State) : Host.Outcome State Fault Refusal :=
  match s.ptpPort with
  | none => .next s
  | some port =>
    if s.fld F.PRT_PTP_CFG.DOMAIN ≠ domain ∨ !s.receives then .next s
    else
      let t2 := at_ - s.fld F.PRT_PTP_LAT.INGRESS_NS
      match msg with
      | .sync n two origin corr =>
        let p := { s.prt.ptp with syncSeq := n, t1 := if two then none else some (origin + corr), t2 := t2 - (if two then corr else 0), t3 := none }
        if two then .next { s with prt := { s.prt with ptp := p } } else .next (s.delayReq port p sent)
      | .followUp n origin corr =>
        if s.prt.ptp.syncSeq = n ∧ s.prt.ptp.t1 = none then
          .next (s.delayReq port { s.prt.ptp with t1 := some (origin + corr) } sent)
        else .next s
      | .delayResp n t4 corr =>
        match s.prt.ptp.t1, s.prt.ptp.t3 with
        | some t1, some t3 =>
          if s.prt.ptp.reqSeq = n then
            let s1 := { s with prt := { s.prt with ptp := { s.prt.ptp with t1 := none, t3 := none } } }
            let theta := roundDiv ((t1 - s.prt.ptp.t2) + (t4 - corr - t3)) 2
            .next (s1.timeInput .ptp theta)
          else .next s
        | _, _ => .next s
      | .announce => .next s

/-! ### PCIe endpoints (R283, R284) -/

/-- The ring state of slot k of an endpoint. -/
def State.slotOf (s : State) (e k : Nat) : PcieSlot := Map.findD s.prt.slots (4 * e + k) {}

def State.setSlot (s : State) (e k : Nat) (q : PcieSlot) : State :=
  { s with prt := { s.prt with slots := Map.set s.prt.slots (4 * e + k) q } }

/-- Handles the TX descriptor at TX_HEAD: STATUS, the advance of TX_HEAD and vector k (R283). -/
def State.takeTx (e k : Nat) (s : State) (d : TxDescriptor) : State :=
  let q := s.slotOf e k
  let ok := decide (d.addr % 8 = 0) && decide (32 ≤ d.len) && decide (d.len ≤ 65535)
  let s1 := (s.setSlot e k { q with txHead := (q.txHead + 1) % 256 }).send
    (.txStatus e k q.txHead (if ok then Cause.OK else Cause.BAD_FORMAT))
  let s2 := s1.raiseVector (4 * e + k) q.irq
  if ok then s2.arrive { d.waybill with link := .pcie e } else s2

/-- TX_DOORBELL: a host wrote TX_TAIL of slot k; `ring` holds the descriptors from TX_HEAD on, and `irq` the
address and data of vector k where its IRQ word enables it (R18, R283). -/
def execTxDoorbell (e k tail : Nat) (irq : Option (Nat × Nat)) (ring : List TxDescriptor) (s : State) : Host.Outcome State Fault Refusal :=
  let q := s.slotOf e k
  let n := (tail + 256 - q.txHead) % 256
  .next (if s.role (61 + e) = 1 ∧ k < 4 ∧ tail < 256 ∧ s.receives then
      (ring.take n).foldl (State.takeTx e k) (s.setSlot e k { q with irq := irq })
    else s)

/-- The context of slot k of an endpoint. -/
def State.slotContext (s : State) (e k : Nat) : Option Nat :=
  (s.contexts.filter fun c => match s.hostEntry c with | some x => x.link == 2 + e | none => false)[k]?

/-- RX_POST: a host wrote RX_TAIL of slot k; `posted` are ADDR and LEN of the buffers from the last
RX_TAIL on (R283). -/
def execRxPost (e k tail : Nat) (irq : Option (Nat × Nat)) (posted : List (Nat × Nat)) (s : State) : Host.Outcome State Fault Refusal :=
  let q := s.slotOf e k
  let n := (tail + 256 - q.rxTail) % 256
  if s.role (61 + e) = 1 ∧ k < 4 ∧ tail < 256 then
    let s1 := s.setSlot e k { q with rxTail := tail, irq := irq, buffers := q.buffers ++ posted.take n }
    .next (match s.slotContext e k with
      | some c => s1.pciePump c (2 + e)
      | none => s1)
  else .next s

/-- PCIE_RESET: every head and tail of the endpoint returns to 0, and RESPs not yet transferred are
discarded; notices stay retained (R284). -/
def execPcieReset (e : Nat) (s : State) : Host.Outcome State Fault Refusal :=
  let mine (w : OutWaybill) : Bool := match s.hostEntry w.seat with | some x => x.link == 2 + e | none => false
  let s1 := { s with prt := { s.prt with
    slots := Map.keep (fun i _ => decide (i / 4 ≠ e)) s.prt.slots
    pcieOut := s.prt.pcieOut.filter fun w => !mine w } }
  .next (if e < 2 then (s1.flag (F.PRT_PCIE_STAT.RESET_SEEN e) true).post Ev.PCIE_RESET [] else s)

/-! ### SPI host port (R285) -/

/-- The bytes of a frame before its last `n`, which are a CRC over them: none where it fails or the frame ends early (R285). -/
def spiBody (n : Nat) (crc : List Byte → Nat) (bytes : List Byte) : Option (List Byte) :=
  let body := bytes.take (bytes.length - n)
  if n ≤ bytes.length ∧ beVal (bytes.drop (bytes.length - n)) = crc body then some body else none

/-- A write-direction frame whose CRC fails, or that ends early. -/
def State.spiBad (s : State) : State :=
  (s.flag F.PRT_SPI_STAT.CRC_ERR_SEEN true).setF F.PRT_SPI_STAT.CAUSE Cause.BAD_FORMAT

/-- WB_WRITE: the bytes after the command byte: LENGTH, one waybill and its CRC-32C (R285). -/
def execWbWrite (bytes : List Byte) (s : State) : Host.Outcome State Fault Refusal :=
  .next (if s.role 63 ≠ 1 ∨ !s.receives then s
    else match spiBody 4 crc32c bytes with
      | some b =>
        if b.length = fieldAt b 0 2 + 2 then (s.setF F.PRT_SPI_STAT.CAUSE Cause.OK).arrive ⟨.spi, b.drop 2⟩ else s.spiBad
      | none => s.spiBad)

/-- What WB_READ returns: LENGTH, the waybill and its CRC-32C (R285). -/
def wbReturn (w : List Byte) : List Byte :=
  let l := beBytes 2 w.length ++ w
  l ++ beBytes 4 (crc32c l)

/-- WB_READ: the waybill at the head leaves once its CRC has been read (R285). -/
def execWbRead (whole : Bool) (s : State) : Host.Outcome State Fault Refusal :=
  if s.role 63 ≠ 1 then .next s
  else match s.prt.spiOut with
    | [] => .next (s.send (.spi (wbReturn [])))
    | w :: rest =>
      let s1 := s.send (.spi (wbReturn w))
      .next (if whole then
          ({ s1 with prt := { s1.prt with spiOut := rest } } : State).flag F.PRT_SPI_STAT.WB_READY (!rest.isEmpty)
        else s1)

/-! ### Serial ports (R130, R286, R287) -/

/-- The newest interval end of a meter whose OFFSET_S has passed, in UTC minutes. -/
def State.pollEnd (s : State) (m : MeterRec) : Nat :=
  let t := s.timeSec - s.fld F.ING_POLL.OFFSET_S
  t / (60 * m.conf.intervalMin) * m.conf.intervalMin

/-- Whether a meter is to be polled on a serial port now (R130). -/
def State.pollDue (s : State) (ser i : Nat) (m : MeterRec) : Bool :=
  decide (m.state = .active) && m.conf.route == 7 && m.conf.port == ser &&
  (m.conf.protocol == 3 || m.conf.protocol == 4) && decide (Map.findD s.ing.polled i 0 < s.pollEnd m)

/-- SERIAL_POLL: the next meter of a port, in ascending index order, once no poll is in progress. Polls wait
under back-pressure (R130, R147). -/
def execSerialPoll (ser : Nat) (s : State) : Host.Outcome State Fault Refusal :=
  if s.role (16 + ser) = 0 ∨ 24 ≤ ser ∨ (Map.find s.ing.polls ser).isSome ∨ s.fld F.ING_STAT.BP = 1 ∨
      s.fld F.ING_STAT.READY = 0 ∨ !s.receives then .next s
  else match s.ing.meters.find? fun e => s.pollDue ser e.1 e.2 with
    | none => .next s
    | some e => .next (({ s with ing := { s.ing with
        polls := Map.set s.ing.polls ser ⟨e.1, 0, s.now⟩ } } : State).send (.serialPoll ser e.1))

/-- The poll of a port ends: its meter has been polled for its interval end. -/
def State.pollEnds (s : State) (ser : Nat) (p : PollState) : State :=
  { s with ing := { s.ing with
      polls := Map.erase s.ing.polls ser
      polled := Map.set s.ing.polled p.meter (s.pollEnd (s.meter p.meter)) } }

/-- No response: the poll is repeated up to RETRIES times, and waits under back-pressure (R130, R147). -/
def State.noResponse (s : State) (ser : Nat) : State :=
  match Map.find s.ing.polls ser with
  | none => s
  | some p =>
    if p.tries < s.fld F.ING_POLL.RETRIES ∧ s.fld F.ING_STAT.BP = 1 then s
    else if p.tries < s.fld F.ING_POLL.RETRIES then
      ({ s with ing := { s.ing with
          polls := Map.set s.ing.polls ser { p with tries := p.tries + 1, sentAt := s.now } } } : State).send
        (.serialPoll ser p.meter)
    else s.pollEnds ser p

/-- SERIAL_RESPONSE_TIMEOUT: no response started in its window (R287). -/
def execSerialResponseTimeout (ser : Nat) (s : State) : Host.Outcome State Fault Refusal := .next (s.noResponse ser)

/-- R287: on a port in role 2, whether the first start bit, `us` µs after the last stop bit of the request,
falls within 11 to 330 bit times + 50 ms. -/
def State.inWindow (s : State) (ser us : Nat) : Bool :=
  match s.port (16 + ser) with
  | none => false
  | some e => e.role == 1 || decide (11000000 ≤ us * e.rate) && decide ((us - 50000) * e.rate ≤ 330000000)

/-- SERIAL_FRAME: a frame received whole; `bad` of its characters had framing or parity errors or were lost
(R286), and `us` is the delay of R287. -/
def execSerialFrame (ser bad us : Nat) (f : IngestFrame) (s : State) : Host.Outcome State Fault Refusal :=
  if s.role (16 + ser) = 0 ∨ 24 ≤ ser ∨ !s.receives then .next s
  else if 0 < bad then .next (s.bump (F.PRT_SER_ERR_CNT.COUNT ser) bad)
  else
    let take (t : State) : State := t.handIn { f with route := 7, rx := t.timeMs }
    match Map.find s.ing.polls ser with
    | some p => if s.inWindow ser us then .next (take (s.pollEnds ser p)) else .next (s.noResponse ser)
    | none => .next (if s.role (16 + ser) = 1 then take s else s)

/-! ### Time input (R292, R421) -/

/-- θ of an edge alone: the distance from device time to the nearest whole second, in ns. -/
def edgeOffset (t : Int) : Int :=
  let r := t % 1000000000
  if r < 500000000 then -r else 1000000000 - r

/-- A sample of PPS (R421). -/
def State.ppsSample (s : State) (theta : Int) : State := s.timeInput .pps theta

/-- PPS_EDGE: an edge at a REFCLK cycle of this pace is stamped, or discarded within 900 paces of the last.
Alone it gives phase only, while device time is SYNCED or HOLDOVER and within ±400 ms; in role 2 an edge after
one that a sentence named waits for its own sentence. -/
def execPpsEdge (cycle : Nat) (s : State) : Host.Outcome State Fault Refusal :=
  if s.role 60 = 0 then .next s
  else if (match s.prt.edge with | some e => decide (s.now < e.1 + 900) | none => false) then
    .next (s.bump F.PRT_PPS_STAT.REJECT)
  else
    let t : Int := (s.clk.ns : Int) + 25 * cycle
    let named := match s.prt.edge with | some e => e.2.2 | none => false
    let r := (s.regs.setF F.PRT_PPS_STAMP.PACE s.now).setF F.PRT_PPS_STAMP.CYCLE cycle
    let s1 := { s with
      prt := { s.prt with edge := some (s.now, t, false) }
      regs := r.flag F.PRT_PPS_STAT.NMEA_VALID false }
    let theta := edgeOffset t
    if s.fld F.CLK_QUAL.QUALITY ≤ 1 ∧ theta.natAbs ≤ 400000000 ∧ !(s.role 60 == 2 && named) then .next (s1.ppsSample theta)
    else .next s1

/-- TIME_RX_SENTENCE: a valid ZDA sentence, or an RMC one with status A, names the UTC second of the edge
accepted at most 950 paces before its first character; `ok` is its checksum (R292). -/
def execTimeRxSentence (utc : Nat) (ok : Bool) (s : State) : Host.Outcome State Fault Refusal :=
  match s.prt.edge with
  | some (p, t, false) =>
    if s.role 60 = 2 ∧ ok ∧ s.now ≤ p + 950 then
      let s1 := ({ s with prt := { s.prt with edge := some (p, t, true) } } : State).flag F.PRT_PPS_STAT.NMEA_VALID true
      .next (s1.ppsSample ((utc : Int) * 1000000000 - t))
    else .next s
  | _ => .next s

end Sys2Proof.Machine
end

