-- ==== Sys2Proof/Machine/RegRows.lean ====
section
/-! DEFINITION. The commands that read or write registers: REG_READ and REG_WRITE (R59, R61), the writes that
trigger an action, and the SPI host port (R285). -/

namespace Sys2Proof.Machine

/-! ### REG_READ and REG_WRITE -/

/-- One entry of a REG_READ: the TLV 0x0011 of an address. -/
def State.readEntry (who : Requester) (a : State × List Tlv) (t : Tlv) : State × List Tlv :=
  let addr := fieldAt t.value 0 4
  let (s1, w, c) := a.1.readReg who addr
  (s1, a.2 ++ [mkTlv 0x0011 [(4, addr), (4, w.toNat), (2, c)]])

/-- Who a message's command acts for. -/
def Msg.who (m : Msg) : Requester := if m.seat = 8 then .seat else .context m.seat

/-- Keeps the RESP of a REG_READ among the 8 most recent of its context (R61). -/
def State.keepResp (s : State) (m : Msg) (cause : Nat) (body : List Tlv) : State :=
  if m.seat = 8 then s
  else
    let x := s.ctx m.seat
    s.setCtx m.seat { x with kept := (⟨m.seq, m.digest, cause, body⟩ :: x.kept).take 8 }

/-- A REG_READ executed as new: its entries in TLV order (R50, R61, R445). It reads the registers of the serving
member (R395). -/
def State.regRead (s : State) (m : Msg) : State :=
  let answer (t : State) (c : Nat) (body : List Tlv) : State := (t.keepResp m c body).resp m false 0 c body
  if !m.here then s
  else if !s.hasRight m.seat 0 then answer s Cause.RIGHTS []
  else
    let (s1, body) := (itemsOf 0x0010 m.tlvs).foldl (State.readEntry m.who) (s, [])
    answer s1 Cause.OK body

/-- REG_READ (R59). -/
def execRegRead (m : Msg) (s : State) : Host.Outcome State Fault Refusal :=
  .next (s.serve 0x0010 m fun t => t.regRead m)

/-- One REG_WRITE item. Writes to the blocks KEY, PAIR and HLT apply only on the serving member (R395). -/
def runRegWrite (s : State) (r : ItemRef) (t : Tlv) : State × ItemEnd :=
  let addr := fieldAt t.value 0 4
  if localBlock addr && !r.msg.here then (s, .done none)
  else
    let (s1, c) := s.writeReg r.msg.who addr (BitVec.ofNat 32 (fieldAt t.value 4 4)) (BitVec.ofNat 32 (fieldAt t.value 8 4))
    (s1, .ofCause c)

/-- REG_WRITE: at most 512 items, which end within the admission pace (R59). -/
def execRegWrite (m : Msg) (s : State) : Host.Outcome State Fault Refusal :=
  .next (s.serve 0x0011 m fun t =>
    t.taskCommand m none runRegWrite)

/-! ### One write that reaches the register fabric -/

/-- A write of one register from outside, with its cause. A requester that acts for no context has no rights, and its write
reaches the fabric as such (R19). In a pair a member that is not active forwards it over
the link, or answers PAIR_STANDBY without one (R391); the active carries it in the ledger (R393).
[DEDUCED, log 23; unsafe] -/
def State.portWrite (s : State) (who : Requester) (addr : Nat) (value mask : Word) : State × Nat :=
  match s.actsAs who with
  | none => s.writeReg who addr value mask
  | some c =>
    if localBlock addr then s.writeReg who addr value mask
    else if s.forwards then
      if s.linkUp then (s.forward (.regWrite c addr value mask), Cause.OK)
      else (s, Cause.PAIR_STANDBY)
    else (s.record (.regWrite c addr value mask)).writeReg who addr value mask

/-- A write by a requester, which is told its cause (R9). [DESIGN CHOICE, log 22; unsafe] -/
def State.writeFor (s : State) (who : Requester) (addr : Nat) (value mask : Word) : State :=
  let (s1, c) := s.portWrite who addr value mask
  s1.send (.regCause who addr c)

/-- A write of one trigger bit. -/
def State.writeBit (s : State) (who : Requester) (addr bit : Nat) : State :=
  s.writeFor who addr (BitVec.ofNat 32 (2 ^ bit)) (BitVec.ofNat 32 (2 ^ bit))

/-- STAGE_ACQUIRE: `SYS_STAGE_LOCK.ACQUIRE` (R45, R470). -/
def execStageAcquire (who : Requester) (s : State) : Host.Outcome State Fault Refusal :=
  .next (s.writeBit who R.SYS_STAGE_LOCK 0)

/-- STAGE_RELEASE: `SYS_STAGE_LOCK.RELEASE` (R45, R470). -/
def execStageRelease (who : Requester) (s : State) : Host.Outcome State Fault Refusal :=
  .next (s.writeBit who R.SYS_STAGE_LOCK 1)

/-- COMMIT_GO: `SYS_COMMIT.GO` (R46). -/
def execCommitGo (who : Requester) (s : State) : Host.Outcome State Fault Refusal := .next (s.writeBit who R.SYS_COMMIT 0)

/-- COMMIT_DISCARD: `SYS_COMMIT.DISCARD` (R470). -/
def execCommitDiscard (who : Requester) (s : State) : Host.Outcome State Fault Refusal :=
  .next (s.writeBit who R.SYS_COMMIT 1)

/-- HOST_CLOSE: `HOST_CTL[c].CLOSE` (R58). -/
def execHostClose (who : Requester) (c : Nat) (s : State) : Host.Outcome State Fault Refusal :=
  .next (s.writeBit who (R.HOST_CTL c) 0)

/-- HOST_RESEND: `HOST_CTL[c].RESEND` (R71). -/
def execHostResend (who : Requester) (c : Nat) (s : State) : Host.Outcome State Fault Refusal :=
  .next (s.writeBit who (R.HOST_CTL c) 1)

/-- REFINE_START: `MET_REF_CTL` with CH and START (R92). -/
def execRefineStart (who : Requester) (ch : Nat) (s : State) : Host.Outcome State Fault Refusal :=
  .next (s.writeFor who R.MET_REF_CTL (BitVec.ofNat 32 (0x100 + ch % 16)) 0x10F)

/-- REFINE_ABORT: `MET_REF_CTL.ABORT` (R94). -/
def execRefineAbort (who : Requester) (s : State) : Host.Outcome State Fault Refusal :=
  .next (s.writeBit who R.MET_REF_CTL 9)

/-- A write of OP and NODE to `BAL_CMD` (R173). -/
def State.balWrite (s : State) (who : Requester) (op node : Nat) : State :=
  s.writeFor who R.BAL_CMD (BitVec.ofNat 32 (op * 65536 + node % 65536)) 0x00FFFFFF

/-- REBASE (R173). -/
def execRebase (who : Requester) (node : Nat) (s : State) : Host.Outcome State Fault Refusal := .next (s.balWrite who 1 node)

/-- CLEAR_ALERT (R173). -/
def execClearAlert (who : Requester) (node : Nat) (s : State) : Host.Outcome State Fault Refusal :=
  .next (s.balWrite who 2 node)

/-- RELOCATE (R173). -/
def execRelocate (who : Requester) (node : Nat) (s : State) : Host.Outcome State Fault Refusal :=
  .next (s.balWrite who 3 node)

/-- RELEARN (R173). -/
def execRelearn (who : Requester) (node : Nat) (s : State) : Host.Outcome State Fault Refusal :=
  .next (s.balWrite who 4 node)

/-- STO_DIE_CTL_FAIL: `STO_DIE_CTL` with DIE and FAIL (R305). -/
def execStoDieCtlFail (who : Requester) (die : Nat) (s : State) : Host.Outcome State Fault Refusal :=
  .next (s.writeFor who R.STO_DIE_CTL (BitVec.ofNat 32 (0x80000000 + die % 64)) 0x8000003F)

/-- ARB_SEED (R326). -/
def execArbSeed (who : Requester) (seed : Word) (s : State) : Host.Outcome State Fault Refusal :=
  .next (s.writeFor who R.ARB_SEED seed 0xFFFFFFFF)

/-- FREEZE: `ARB_CTL.FREEZE` (R328). -/
def execFreeze (who : Requester) (on : Bool) (s : State) : Host.Outcome State Fault Refusal :=
  .next (s.writeFor who R.ARB_CTL (if on then 1 else 0) 1)

/-- ZEROISE_ARM: `KEY_ZCTL.ARM` (R354). -/
def execZeroiseArm (who : Requester) (s : State) : Host.Outcome State Fault Refusal := .next (s.writeBit who R.KEY_ZCTL 0)

/-- ZEROISE_GO: `KEY_ZCTL.GO` (R354). -/
def execZeroiseGo (who : Requester) (s : State) : Host.Outcome State Fault Refusal := .next (s.writeBit who R.KEY_ZCTL 1)

/-- KEYCACHE_RESIZE: `ING_KEYCACHE.SLOTS` (R133). -/
def execKeycacheResize (who : Requester) (slots : Nat) (s : State) : Host.Outcome State Fault Refusal :=
  .next (s.writeFor who R.ING_KEYCACHE (BitVec.ofNat 32 (slots % 4096)) 0xFFF)

/-- CONFIRM: `FWU_CTL.CONFIRM` (R374). -/
def execConfirm (who : Requester) (s : State) : Host.Outcome State Fault Refusal := .next (s.writeBit who R.FWU_CTL 0)

/-- RESYNC: `PAIR_CTL.RESYNC` (R401). -/
def execResync (who : Requester) (s : State) : Host.Outcome State Fault Refusal := .next (s.writeBit who R.PAIR_CTL 1)

/-- LEAVE: `PAIR_CTL.LEAVE` (R406). -/
def execLeave (who : Requester) (s : State) : Host.Outcome State Fault Refusal := .next (s.writeBit who R.PAIR_CTL 0)

/-- TEST: `HLT_CAP_CFG.TEST` (R430). -/
def execCapTestNow (who : Requester) (s : State) : Host.Outcome State Fault Refusal :=
  .next (s.writeBit who R.HLT_CAP_CFG 31)

/-! ### The SPI host port (R285) -/

/-- The CRC-8 of a frame as a number. -/
def spiCrc8 (l : List Byte) : Nat := (crc8 l).toNat

/-- SPI_REG_WRITE: the bytes after the command byte: address, value and CRC-8; its cause is latched. -/
def execSpiRegWrite (bytes : List Byte) (s : State) : Host.Outcome State Fault Refusal :=
  .next (if s.role 63 ≠ 1 then s
    else match spiBody 1 spiCrc8 bytes with
      | some b =>
        if b.length = 8 then
          let (s1, c) := s.portWrite .spi (fieldAt b 0 4) (BitVec.ofNat 32 (fieldAt b 4 4)) 0xFFFFFFFF
          s1.setF F.PRT_SPI_STAT.CAUSE c
        else s.spiBad
      | none => s.spiBad)

/-- What a register read returns: the value, and a CRC-8 over the value alone. [DEDUCED, log 176; unsafe] -/
def spiValue (w : Word) : List Byte :=
  let l := beBytes 4 w.toNat
  l ++ [crc8 l]

/-- SPI_REG_READ: the bytes after the command byte: address, CRC-8 and two turnaround bytes, after which the value is
delivered; CAUSE is that of the last access. [DEDUCED, log 24; unsafe] -/
def execSpiRegRead (bytes : List Byte) (s : State) : Host.Outcome State Fault Refusal :=
  .next (if s.role 63 ≠ 1 then s
    else match spiBody 1 spiCrc8 (bytes.take 5) with
      | some b =>
        if b.length = 4 then
          let (s1, w, c) := s.readReg .spi (fieldAt b 0 4)
          (s1.send (.spi (spiValue w))).setF F.PRT_SPI_STAT.CAUSE c
        else s.spiBad
      | none => s.spiBad)

/-- SPI_STATUS: the word of `PRT_SPI_STAT`. -/
def execSpiStatus (s : State) : Host.Outcome State Fault Refusal :=
  .next (if s.role 63 = 1 then s.send (.spi (beBytes 4 (s.view R.PRT_SPI_STAT).toNat)) else s)

/-! ### The USB service port (R288, R473) -/

/-- The USB port is enabled without an active image, and otherwise in role SERVICE (R288). -/
def State.usbOn (s : State) : Bool := !s.portsOff && (s.warp.active.isNone || s.role 41 == 1)

/-- USB_WAYBILL: one clear waybill of the service seat, with CONTEXT 0, whose message is judged once whole (R53, R288).
[DEDUCED, log 30; unsafe] -/
def execUsbWaybill (w : Waybill) (s : State) : Host.Outcome State Fault Refusal :=
  let v : Waybill := { w with link := .usb }
  .next (if !s.usbOn || !s.receives || !v.headerOk || !v.clear || v.context != 0 || v.type != 1 then s
    else s.takePart v v.piece)

end Sys2Proof.Machine
end

