-- ==== Sys2Proof/Machine/Items.lean ====
section
/-! DEFINITION. Items of tasks in flight that have not begun: they begin once the notice store of their context is no
longer full (R66, R72). -/

namespace Sys2Proof.Machine

/-- What an item of a task command does, by its opcode; `readBack` and `readable` as for ATTEST and DUMP_READ. -/
def runOf (opcode : Nat) (readBack readable : Bool) : State → ItemRef → Tlv → State × ItemEnd :=
  match opcode with
  | 0x0011 => runRegWrite
  | 0x0040 => runMeterWrite
  | 0x0041 => runReading
  | 0x0042 => runReadSpan
  | 0x0050 => runTariffItem
  | 0x0051 => runBillReq
  | 0x0060 => runTokenItem
  | 0x0070 => runBalanceItem
  | 0x0080 => runFwBlock
  | 0x0081 => runFwMeter
  | 0x0090 => runBulkSpan
  | 0x0091 => runBulkSector
  | 0x0092 => runBulkTrim
  | 0x00A0 => runTimeSet
  | 0x00B0 => fun s r t => if t.type = 0x00B0 then runAttestReq readBack s r t else runEnrol s r
  | 0x00C0 => runEventSpan
  | 0x00D0 => runDump readable
  | 0x00E0 => runPairSwitch
  | 0x00F0 => runReset
  | _ => fun s _ _ => (s, .done none)

/-- The command of a task in flight, as its items see it. -/
def Task.msg (t : Task) (clear : Bool) : Msg :=
  { seat := t.seat, here := t.here, clear := clear, rep := false, ack := false, opcode := t.opcode, seq := t.seq
    task := 0, session := 0, body := [] }

/-- TASK_ITEM_END: the first item not begun of a task begins where the store allows, and ends where its effect ends at
once; outcomes are reported as R66 states. An item that has begun ends with the step that ends it.
[DESIGN CHOICE, log 134; unsafe] -/
def execTaskItemEnd (slot : Nat) (readBack readable : Bool) (s : State) : Host.Outcome State Fault Refusal :=
  .next (match Map.find s.host.tasks slot with
    | none => s
    | some t =>
      match t.todo with
      | [] => s.report slot
      | k :: _ =>
        (s.beginItem (runOf t.opcode readBack readable) (t.msg (s.localClear t.seat)) slot k).report slot)

end Sys2Proof.Machine
end

