-- ==== Sys2Proof/Machine/Pace.lean ====
section
/-! DEFINITION. The pace boundary (R22 to R25), overruns and missed deadlines (R28 to R31). -/

namespace Sys2Proof.Machine

/-- What the pace that ends owes and has not been taken as a step of its own: the sealed work of R122 and R192, the
calendars that no point is bound to (R177), the operating second (R330). [DEDUCED, log 12; unsafe] -/
def State.catchUp (s : State) (bad : List Nat) : State :=
  (if s.fld F.LEG_STAT.RUN = 0 then s else s.finishLegal bad).switchUnbound.countSecond

/-- The work of the application cores that falls due at a boundary at the latest: journal batches (R306), commit checks
(R370), registry chunks (R127), log entries (R137), the joined table (R246), operations of BAL_CMD (R173), the window of the
open event record (R334).
[DEDUCED, log 12; unsafe] -/
def State.boundaryJobs (s : State) : State :=
  match s.power.phase with
  | .run => s.journalDue.commitsDue.chunksDue.logsDue.joinedDue.runOps.windowEnds
  | _ => s

/-- The next pace begins (R22, R23). Each second of it counts, and each 1,000 paces the readings accepted are shown. -/
def State.nextPace (s : State) : State :=
  let n := s.pace.count + 1
  let whole := n.toNat % 1000 == 0
  let s1 : State := { s with
    pace := { s.pace with count := n, quantum := 0 }
    evt := { s.evt with secondDue := s.evt.secondDue || whole } }
  if whole then ({ s1 with ing := { s1.ing with recent := 0 } } : State).setF F.ING_RATE.RATE s.ing.recent else s1

/-- The engines that have quanta in the pace that begins (R30). -/
def State.takeTurns (s : State) : State :=
  let plan := match s.warp.active with | some w => w.pacePlan | none => []
  let turns := (List.range 32).foldl (fun (m : Map Nat) e =>
    if plan.any fun x => x.engine == e then Map.set m e (Map.findD m e 0 + 1) else m) s.pace.turns
  { s with pace := { s.pace with turns := turns } }

/-- A member that zeroised while active with a partner in step: at the next boundary ACT_OUT drops and ALIVE stops toggling,
one boundary later it releases its shared outputs and is out of service (R387). -/
def State.leave (s : State) : State :=
  if s.pair.leaving = 2 then { s with pair := { s.pair with actOut := false, leaving := 1 } } else s.becomeOut

/-- The sidebands at a boundary (R388, R404, R408): ALIVE toggles, the standby counts its misses, an active by
takeover the boundaries with ACT_IN high; held inputs reach back 8 paces (R391). -/
def State.sidebands (s : State) (i : BoundaryIn) : State :=
  if s.pairPlan.isNone then s
  else
    let up := s.linkUp
    let p := s.pair
    let seen := p.entrySeen || i.alive
    let p1 : PairState := { p with
      missedOwn := 0, aliveOk := i.alive, entrySeen := false
      missed := if s.roleNow = 1 ∧ !seen then p.missed + 1 else 0
      actHigh := if s.roleNow = 2 ∧ i.actIn ∧ !up then p.actHigh + 1 else 0
      inputs := p.inputs.filter fun e => decide (s.now ≤ e.1 + 8)
      ownSamples := p.ownSamples.filter fun e => decide (s.now ≤ e.1 + 8) }
    let s1 := (({ s with pair := p1 } : State).flag F.PAIR_STAT.ACT_IN i.actIn).flag F.PAIR_STAT.DUAL
      (s.roleNow == 2 && i.actIn && !up)
    if p.leaving ≠ 0 then s1.leave
    else if s.zeroised && s.roleNow == 3 then s1
    else s1.send .alive

/-- Steps 1 to 3 of R25: a scheduled image, an accepted commit, the ledger entry of the pace that ended with its
samples (R393). At a cut neither image nor commit is applied. [DEDUCED, log 11; unsafe] -/
def State.boundarySteps (s : State) (sensor : SensorPlan) (i : BoundaryIn) : State :=
  let s1 := if s.power.cutDue then s else (s.applyDue i.bad).applyCommit
  let s2 := (s1.record (.samples s1.met.delivered (s1.frontEndView sensor i.conv))).record (.txReport s1.pair.report)
  let s3 : State := { s2 with pair := { s2.pair with report := [] } }
  if s3.pair.handing.isNone ∨ s3.roleNow ≠ 2 then s3.closeEntry false
  else if s3.canHandOver then s3.handoverPair.endHandover
  else (s3.endHandover Cause.PAIR_LINK).closeEntry false

/-- The samples of one pace as the ledger gives them (R393). -/
def State.installSamples (s : State) (x : List Delivered × List ChannelPace) : State :=
  { s with
    met := { s.met with
      delivered := x.1
      channels := x.2.zipIdx.foldl (fun m e =>
        Map.set m e.2 { Map.findD m e.2 {} with mag := e.1.mag, outOfRange := e.1.outOfRange }) s.met.channels }
    regs := x.2.zipIdx.foldl (fun (r : RegFile) e =>
      (((r.setF (F.MET_CH_MAG.MAG e.2) e.1.mag).setF (F.MET_CH_GAIN.GAIN e.2) e.1.gain).flag
        (F.MET_CH_STAT.EXTRAP e.2) e.1.extrapolated).flag (F.MET_CH_STAT.ZERO e.2) e.1.zero) s.regs }

/-- What is metered at this boundary. A standby takes the samples of the ledger alone and keeps its own for a takeover; a
new active first takes those of the paces whose entries it lacked (R391, R393, R405). Samples of several paces are metered pace
by pace. -/
def State.takeSamples (s : State) (qty : QtyPlan) : State :=
  let own := (s.met.delivered, s.channelPaces)
  let standby := s.roleNow == 1
  let s1 := { s with pair := { s.pair with
    samples := []
    ownSamples := if standby then s.pair.ownSamples ++ [(s.now - 1, own)] else [] } }
  if s.pair.samples.isEmpty then
    (if standby then { s1 with met := { s1.met with delivered := [], voltOver := [] } } else s1)
  else
    let l := s.pair.samples ++ (if standby then [] else [own])
    match l.getLast? with
    | none => s1
    | some x => (l.dropLast.foldl (fun (t : State) y =>
        let u := t.installSamples y
        if u.fld F.LEG_STAT.RUN = 0 then u else u.legalMetPace qty) s1).installSamples x

/-- Steps 1 and 2 of R122 on the pace that ended; the rest of its sealed work is outstanding. -/
def State.beginLegal (s : State) (qty : QtyPlan) : State :=
  if s.fld F.LEG_STAT.RUN = 0 then s
  else let s1 := s.legalMetPace qty; { s1 with qty := { s1.qty with stage := .met } }

/-- The sealed work on the pace that ended (R122, R192), with the changes of plan of an image applied at this boundary
(R97, R121) and a step of device time, which is step 2 of R192 (R420). [DEDUCED, log 135; unsafe] -/
def State.sealedPace (s : State) (sensor : SensorPlan) (qty : QtyPlan) (cut : Bool) (bad : List Nat) : State :=
  let s1 := s.beginLegal qty
  let s2 := if s.sensorPlan = sensor ∧ s.qtyPlan = qty then s1 else s1.changeOver sensor qty false bad
  if cut ∨ s.clk.step.isNone then s2 else (s2.toTar qty false bad).takeStep

/-- The system watchdog counts the boundary (R437). [DESIGN CHOICE, log 136; safe] -/
def State.watchBoundary (s : State) (allDone : Bool) : State :=
  { s with hlt := { s.hlt with watch := if allDone then 0 else s.hlt.watch + 1 } }

/-- A pace boundary while the device runs. -/
def State.runBoundary (s : State) (i : BoundaryIn) : State :=
  let sensor := s.sensorPlan
  let qty := s.qtyPlan
  let cut := s.power.cutDue
  let s1 := ((((s.catchUp i.badLegal).nextPace).boundarySteps sensor i).takeTurns).sidebands i
  let s2 := s1.tickPulses.advanceTime
  let s3 := if cut then s2 else s2.hostSamplesAct
  let s4 := (((s3.frontEndBoundary sensor i.conv).takeSamples qty).sealedPace sensor qty cut i.badLegal).sampleUpd i.legalUpd |>.opticalDue
  let s5 := (s4.watchBoundary i.allDone).cancelTasks.trackTrial
  if cut then s5.enterSave else s5.boundaryJobs.resetAfterApply i.badLegal

/-- PACE_BOUNDARY: BOUNDARY applies a scheduled image, applies an accepted commit, closes the ledger entry and releases
the other engines (R25). During SAVE only the pace and device time advance (R414). [DEDUCED, log 137; unsafe] -/
def execPaceBoundary (i : BoundaryIn) (s : State) : Host.Outcome State Fault Refusal :=
  .next (match s.power.phase with
    | .off => s
    | .save => s.nextPace.advanceTime
    | _ => s.runBoundary i)

/-! ### Overruns and deadlines -/

/-- The entry of an engine on a lane in the active plan. -/
def State.paceEntry (s : State) (engine lane : Nat) : Option PaceEntry :=
  match s.warp.active with
  | some w => w.pacePlan.find? fun e => e.engine == engine && e.lane == lane
  | none => none

/-- R30 on the last overruns, newest first: three in consecutive paces in which the engine has quanta, or ten within
1,000 paces. -/
def paceFault (l : List (Nat × Nat)) : Bool :=
  (match l with | a :: b :: c :: _ => a.2 == b.2 + 1 && b.2 == c.2 + 1 | _ => false) ||
  (match l.head?, l[9]? with | some a, some z => decide (a.1 ≤ z.1 + 999) | _, _ => false)

/-- ENGINE_OVERRUN: the engine is preempted, counted and recorded; a pace fault is a fatal error (R28 to R30).
[DEDUCED, log 13; unsafe] -/
def execEngineOverrun (engine lane : Nat) (s : State) : Host.Outcome State Fault Refusal :=
  let old := Map.findD s.pace.overruns engine []
  .next (if (s.paceEntry engine lane).isNone ∨ (old.head?.map fun x => x.1) = some s.now then s
    else
      let l := ((s.now, Map.findD s.pace.turns engine 0) :: old).take 10
      let s1 : State := { s with pace := { s.pace with overruns := Map.set s.pace.overruns engine l } }
      let s2 := ((s1.bump (F.PACE_OVR_CNT.COUNT engine)).setF (F.PACE_OVR_LAST.PACE engine) s.now).post Ev.PACE_OVERRUN
        [b2 engine, b8 s.now]
      if paceFault l then
        let bit := s2.regs.get R.PACE_FAULT ||| BitVec.ofNat 32 (2 ^ engine)
        (({ s2 with regs := s2.regs.put R.PACE_FAULT bit } : State).post Ev.PACE_FAULT []).fatal 3 lane engine 0
      else s2)

/-- JOB_DEADLINE_MISS: a background job whose first piece began at pace `began` is not complete after DEADLINE paces
(R31). -/
def execJobDeadlineMiss (engine lane began : Nat) (s : State) : Host.Outcome State Fault Refusal :=
  .next (match s.paceEntry engine lane with
    | none => s
    | some e =>
      if 0 < e.deadline ∧ began + e.deadline ≤ s.now then
        (s.bump (F.PACE_DL_CNT.COUNT engine)).post Ev.PACE_DEADLINE [b2 engine, b8 s.now]
      else s)

end Sys2Proof.Machine
end

