-- ==== Sys2Proof/Machine/Start.lean ====
section
/-! DEFINITION. Full starts and warm restarts (R42, R68, R129, R341, R342, R356, R373 to R375, R424 to R426). -/

namespace Sys2Proof.Machine

/-! ### Tasks after a reset (R68) -/

/-- A task after a reset: every item whose outcome is not final ends FAILED with RESET. An outcome of a seat task is
final as its item ends (R473). -/
def Task.afterReset (t : Task) (now : Nat) : Task :=
  let kept := if t.seat = 8 then t.ended else t.ended.take t.reported
  let lost := (List.range t.items.length).filter fun i => !kept.any fun o => o.item == i
  { t with todo := [], running := [], cancel := none, ended := kept ++ lost.map fun i => ⟨i, Cause.RESET, now, []⟩ }

/-- TASK_RESET_REPORT for one task: its outcomes, TASK_FINAL and EV_TASK_RESET; a task of the service seat keeps its
outcomes for TASK_QUERY (R68, R473). -/
def State.resetTask (s : State) (slot : Nat) : State :=
  match Map.find s.host.tasks slot with
  | none => s
  | some t =>
    if t.allEnded && (t.final || t.seat == 8) then s
    else
      let s1 := s.setTask slot (t.afterReset s.now)
      (s1.report slot).post Ev.TASK_RESET []

/-- TASK_RESET_REPORT (R68). -/
def State.resetTasks (s : State) : State := s.host.tasks.foldl (fun (t : State) e => t.resetTask e.1) s

/-! ### What a restart of the application and control cores loses (R42, R58, R61) -/

/-- A context after a restart: no session, no handshake, no parts and no kept responses; HIGH is the highest SEQ of
the task journal (R58, R61). -/
def Ctx.restarted (x : Ctx) : Ctx :=
  { x with session := none, handshake := none, parts := [], kept := [], high := x.journalled }

/-- Staging after a restart: the lock and the staged values are lost, and with them a pending commit; the outcome of the
last commit stands (R34, R45). -/
def StageState.restarted (g : StageState) : StageState := { state := if g.state = .pending then .idle else g.state }

/-- What the application and control cores held in their own memory is gone: what waited to be served, the commit checks in
progress and the balance jobs. -/
def State.restartCores (s : State) : State :=
  { s with
    latches := []
    host := { s.host with
      ctxs := Map.mapVals (fun _ (c : Ctx) => c.restarted) s.host.ctxs, arrived := [], inbox := [] }
    prt := { s.prt with pcieOut := [], spiOut := [], slots := [] }
    key := { s.key with waiting := [] }
    clk := { s.clk with hostSamples := [] }
    fwu := { s.fwu with commits := [] }
    bal := { s.bal with jobs := [], held := [] }
    stage := s.stage.restarted }

/-! ### Registry and ingest (R129) -/

/-- Whether a log entry is a reading that its record's chunk does not hold yet: APPLIED_ISN there lies below its ISN (R129). -/
def IngestState.replays (g : IngestState) : LogEntry → Bool
  | .reading x => decide ((Map.findD g.saved (x.index / 8) []).getD (x.index % 8) 0 < x.isn)
  | _ => false

/-- The chunks are loaded and the reading log is replayed over them, which gives every record the state it held; readings
and tokens whose log entry is not durable are lost (R129, R137, R205). The chunks that the replay changes are dirty from now on
(R127). [DEDUCED, log 57; unsafe] [DEDUCED, log 174; unsafe] -/
def State.registryRestore (s : State) : State :=
  let n := (s.ing.log.filter s.ing.replays).length
  let g := { s.ing with
    waiting := [], tokens := [], frames := [], forwards := [], recent := 0, dirty := Map.mapVals (fun _ _ => s.now) s.ing.dirty }
  let s1 := ({ s with ing := g } : State).setF F.ING_REG_DIRTY.CHUNKS g.dirty.length
  (s1.showBuffer.post Ev.REGISTRY_RESTORED [b4 n]).flag F.ING_STAT.READY true

/-! ### Step W (R425) -/

/-- What a start or a warm restart does from step W on: recorder, FTL, registry, the meshes, tasks and the requeue. -/
def State.fromW (s : State) (cause restore : Nat) (warm : Bool) : State :=
  let s1 := s.eventRestart cause restore warm
  let s2 := if s1.sto.bootRecord.isSome then s1.storageRestore else s1
  let s3 := (s2.registryRestore.resumeJoined warm).plcRestart warm
  (s3.resetTasks.balRequeue).keypadCfg

/-- The boot loader's choice of main firmware (R372, R373, R375). [DEDUCED, log 66; unsafe] -/
def State.bootFirmware (s : State) (cause : Nat) : State :=
  if s.fld F.FWU_STAT.TRIAL = 1 then s.fwFallback cause
  else if s.fld F.FWU_STAT.ACT_PENDING = 1 then s.fwActivate
  else s.bootSlot s.activeSlot

/-- After a warm restart at an apply pace, both members of a pair in step resynchronise from that common checkpoint (R402). -/
def State.pairAfterApply (s : State) (cause : Nat) : State :=
  if cause = 0x08 ∧ s.pairPlan.isSome ∧ s.syncNow = 2 then s.startResync else s

/-- WARM_RESTART: the application and control cores restart; the sealed cores, metering, pulse outputs and queued
transmissions go on (R42, R424). [DEDUCED, log 48; unsafe] -/
def execWarmRestart (s : State) : Host.Outcome State Fault Refusal :=
  match s.power.start with
  | some (cause, true) =>
    let s1 := s.restartCores
    let s2 := { s1 with
      regs := s1.regs.setF F.PWR_RESET.CAUSE cause
      power := { s1.power with start := none }
      hlt := { s1.hlt with watch := 0, bite := none, cacheErrors := [] } }
    .next (((s2.bootFirmware cause).fromW cause 0 true).pairAfterApply cause)
  | _ => .next s

/-! ### The steps of a full start -/

/-- What no reset keeps, and what the start finds (R14, R22, R424, R425). A notice still retained is due one interval after
the start (R71). What R429 to R435 count over days or tests stays. [DESIGN CHOICE, log 68; unsafe]
[DESIGN CHOICE, log 169; unsafe] [DESIGN CHOICE, log 181; unsafe] -/
def State.coldStart (s : State) (cause : Nat) (i : StartIn) : State :=
  let restore := match s.power.dir with
    | some d => if s.power.dirNew then (if d.complete then 1 else 2) else 0
    | none => 0
  let good := (if i.goodA then [Supply.vinA] else []) ++ (if i.goodB then [Supply.vinB] else [])
  let r0 := (s.regs.cold.setF F.PWR_RESET.CAUSE cause).setF F.PWR_RESET.RESTORE restore
  let r1 := ((r0.flag F.PWR_STAT.VIN_A_OK i.goodA).flag F.PWR_STAT.VIN_B_OK i.goodB).setF F.PWR_STAT.SRC (sourceOf i.goodA i.goodB)
  let r2 := ((r1.flag F.CLK_STAT.REF_OK true).flag F.CLK_STAT.PLL_LOCK true).flag F.MET_STAT.LOCK true
  let wait (n : NoticeRec) : NoticeRec := { n with nextAt := n.interval }
  let ctx (_ : Nat) (x : Ctx) : Ctx := { x with spent := 0, spentAt := 0, notices := x.notices.map wait }
  let s1 := s.restartCores
  let base : State := { s1 with
    regs := r2
    pace := {}
    stage := {}
    warp := { s1.warp with refused := false, appliedAt := none }
    host := { s1.host with ctxs := Map.mapVals ctx s1.host.ctxs }
    met := {}
    qty := { s1.qty with windows := [], closed := false, stage := .idle, driven := false }
    leg := { s1.leg with
      held := [], outbox := [], exportRead := [], requestRead := [], exportSeq := 0, reqSeq := 0, waiting := [], fresh := []
      act := none, initAt := 0, dispItem := 0, stepped := 0, updHeld := 0, keyTimeout := 30 }
    key := { s1.key with arm := none }
    ing := { s1.ing with keys := [], toMeter := [], polls := [] }
    bal := { s1.bal with ops := [] }
    rad := { s1.rad with seen := [], floods := [], waiting := [], air := [], expected := [], excluded := [], inbox := [], dirty := none }
    plc := {}
    prt := { s1.prt with ptp := {}, edge := none }
    pair := { common := s1.pair.common, wasStandby := s1.pair.wasStandby, split := s1.pair.split }
    ledger := []
    evt := { s1.evt with
      copies := (if i.records.1 then s1.evt.copies.1 else none, if i.records.2 then s1.evt.copies.2 else none)
      opSeconds := s1.evt.opSeconds + 1, secondDue := false, drops := 0
      pwrCycles := if cause ≤ 1 then s1.evt.pwrCycles + 1 else s1.evt.pwrCycles }
    power := { s1.power with
      phase := .run, dies := i.dies, dramGib := i.dramGib, fitted := i.fitted, goodSince := good.map fun x => (x, 0)
      holdUp := false, cutDue := false, start := none, due := none, vbatSeen := false }
    hlt := { s1.hlt with slack := 0, slackAt := 0, cacheErrors := [], watch := 0, bite := none, fatal := none } }
  ((base.readBoots i.boots).showLevels i.levels).linesLow

/-- The checks of a stored copy, under its own SIGNERS and with a SERIAL that may equal the counter (R38). -/
def State.checkCopy (s : State) (w : WarpImage) : Option Nat :=
  s.check w (some w.signers) (decide (s.warp.counter.toNat ≤ w.serial.toNat)) true

/-- The image a start takes: the first stored copy that reads back and passes every check (R38); or the cause of the
refusal. [DEDUCED, log 46; unsafe] -/
def State.imageAtStart (s : State) (copies : List Bool) : WarpImage ⊕ Nat :=
  let read := ((s.warp.stored.zip copies).filter fun e => e.2).map fun e => e.1
  match read.find? fun w => (s.checkCopy w).isNone with
  | some w => .inl w
  | none => .inr (match read with | w :: _ => (s.checkCopy w).getD Cause.WARP_FORMAT | [] => Cause.WARP_FORMAT)

/-- The loader at start: the active image with its registers, or the service state (R16, R38, R426). -/
def State.loadAtStart (s : State) (copies : List Bool) : State :=
  match s.imageAtStart copies with
  | .inl w => ({ s with warp := { s.warp with active := some w, refused := false } } : State).installRegs none w
  | .inr _ => { s with warp := { s.warp with active := none }, power := { s.power with phase := .service } }

/-- The pending image after a full start: judged again by the active SIGNERS, and lost where no NAND holds it; its
schedule has ended with RESET (R38, R40, R299, R414). -/
def State.pendingAtStart (s : State) : State :=
  match s.warp.waiting with
  | none => { s with warp := { s.warp with sched := none } }
  | some w =>
    let ended := s.warp.sched.isSome
    let s1 := { s with warp := { s.warp with sched := none } }
    let s2 := if ended then s1.warpRejected w.serial Cause.RESET else s1
    let bad := match s.warp.active with
      | some a => s.check w (some a.signers) (s.serialOk w) true
      | none => none
    if s.sto.bootRecord.isNone then { s2 with warp := { s2.warp with waiting := none } }
    else match bad with
      | some c => ({ s2 with warp := { s2.warp with waiting := none } } : State).warpRejected w.serial c
      | none => s2

/-- The identity and the key slots of a root that has been formed (R341, R345, R361). -/
def State.rootFormed (s : State) : State :=
  let ident (k : Nat) : Nat × Word := (R.KEY_IDENT k, BitVec.ofNat 32 (s.identity.toNat / 2 ^ (32 * (7 - k))))
  ((s.setF F.KEY_STAT.STATE 1).puts ((List.range 8).map ident)).showSlots

/-- The leaf counters after a restart: RES is that of the higher valid copy, and N is RES (R358, R359). -/
def State.leavesAtStart (s : State) (lost : Bool) : State :=
  let k := { s.key with trees := if lost then [] else s.key.trees }
  let s1 : State := { s with key := k }
  match s.key.copies with
  | (some a, some b) => (s1.setF F.KEY_LEAF_RES.RES (max a b)).setLeaf (max a b)
  | (some a, none) => (s1.setF F.KEY_LEAF_RES.RES a).setLeaf a
  | (none, some b) => (s1.setF F.KEY_LEAF_RES.RES b).setLeaf b
  | (none, none) => s1

/-- The enrolment of R356. The notice sequences start at 1 (R70). [DEDUCED, log 64; unsafe] -/
def State.enrolAtStart (s : State) : State :=
  let n := (s.fld F.KEY_ENROL_CNT.COUNT + 1) % 4294967296
  let k := { s.key with helper := true, copies := (some 0, some 0), trees := [0], lowSeen := 0 }
  let ctx (_ : Nat) (x : Ctx) : Ctx := { x with nextNotice := 1 }
  let s1 := ((({ s with key := k } : State).setF F.KEY_ENROL_CNT.COUNT n).setF F.KEY_LEAF_RES.RES 0).rootFormed
  let s2 := ((s1.setLeaf 0).takeLeaf true).1
  let s3 := { s2 with host := { s2.host with identity := true, ctxs := Map.mapVals ctx s2.host.ctxs } }
  (s3.flag F.KEY_STAT.ENROL_PENDING false).post Ev.ENROLLED [b4 n, b8 (shortIdent s3.identity : Nat)]

/-- The boot loader and the keys: a latched zeroise first, then an enrolment, else the PUF, which only a start after
the loss of both inputs powers anew (R341, R342, R352, R356). `was` is the state before the start.
[DEDUCED, log 65; unsafe] -/
def State.keysAtStart (s : State) (was cause : Nat) (i : StartIn) : State :=
  let s0 := s.flag F.KEY_RNG.OK true
  if s.key.latched then
    (({ s0 with key := { s0.key with latched := false } } : State).zeroise 0).leavesAtStart i.treesLost
  else if s.fld F.KEY_STAT.ENROL_PENDING = 1 then s0.enrolAtStart
  else if was = 3 ∧ 1 < cause then (s0.setF F.KEY_STAT.STATE 3).leavesAtStart i.treesLost
  else
    let s1 := s0.setF F.KEY_PUF.CORRECTED i.corrected
    if s.key.helper && kdf (beBytes 32 i.root.toNat) (ascii "ROOT CHECK") [] 16 == rootCheck (s.fld F.KEY_ENROL_CNT.COUNT) then s1.rootFormed.leavesAtStart i.treesLost
    else ((s1.setF F.KEY_STAT.STATE 3).post Ev.PUF_FAIL [b4 i.corrected]).leavesAtStart i.treesLost

/-- A seed of the arbiter from the random source (R326). -/
def State.seedAtStart (s : State) : State :=
  let v := s.free % 4294967296
  s.draw.loadSeed (BitVec.ofNat 32 (if v = 0 then 1 else v))

/-- Device time at start: the RTC, or the newest checkpoint where the RTC is not valid; the step is recorded with
source 3 (R422, R472). [DEDUCED, log 63; unsafe] -/
def State.timeAtStart (s : State) (oldPace rtcNs : Nat) : State :=
  let ckpt := match (restoreOf s.qty.copies).2 with | some k => k.time | none => 0
  let ns := if s.fld F.CLK_STAT.RTC_VALID = 1 then rtcNs else ckpt
  let gap : Int := ((ns : Int) - s.clk.ns) / 1000000
  let synced := s.clk.synced.map fun p => p - oldPace - gap
  let s1 : State := { s with
    clk := { ns := ns, last := ns, synced := synced, rtcSet := s.clk.rtcSet }
    regs := s.regs.setF F.CLK_QUAL.SOURCE 3 }
  let q := s1.qualityNow
  (s1.setF F.CLK_QUAL.QUALITY q).post Ev.TIME_SET [b8 (ckpt / 1000000), b8 (ns / 1000000), b8 3, b1 q]

/-- The directory of a SAVE, reported once (R415). A payload has room for 22 of its LUs (R332).
[DEDUCED, log 54; unsafe] [DEDUCED, log 55; unsafe] -/
def State.reportSave (s : State) : State :=
  match s.power.dir with
  | none => s
  | some d =>
    if !s.power.dirNew then s
    else
      let r := ((s.regs.setF F.PWR_SAVE_LAST.STEPS d.steps.toNat).setF F.PWR_SAVE_LAST.PACES (min d.paces 255)).setF
        F.PWR_SAVE_LAST.VEND_10MV (min d.vEnd 65535)
      let units := (d.units.take 22).map fun (u : Nat) => b8 u
      (({ s with regs := r, power := { s.power with dirNew := false } } : State).bump F.PWR_SAVE_CNT.COUNT).post Ev.SAVE_RESULT
        ([b8 d.pace, b8 d.time, b4 (d.batch % 4294967296)] ++ units ++ [b8 d.steps.toNat, b8 d.vEnd, b8 d.paces])

/-- Reports every complete dump above the last one reported (R439). [DEDUCED, log 61; unsafe] -/
def State.reportDumps (s : State) : State :=
  let fresh := s.hlt.dumps.filter fun e => e.2.complete && decide (s.hlt.dumpReported < e.2.seq)
  let s1 := { s with hlt := { s.hlt with dumpReported := fresh.foldl (fun (n : Nat) e => max n e.2.seq) s.hlt.dumpReported } }
  fresh.foldl (fun (t : State) e => (t.post Ev.DUMP []).raiseItem ⟨12, 2, e.1, e.2.seq, 0⟩) s1

/-- The records of what led to this start (R415, R417, R418, R426, R437). -/
def State.reportStart (s : State) (refused : Option Nat) (vbat : Nat) : State :=
  let s1 := s.reportSave
  let s2 := ({ s1 with power := { s1.power with refFault := false } } : State).postIf s1.power.refFault Ev.REF_FAULT []
  let s3 := ({ s2 with hlt := { s2.hlt with biteNoDump := false } } : State).postIf s2.hlt.biteNoDump Ev.WDOG_BITE [b1 1]
  let s4 := match refused with
    | some c => s3.post Ev.SERVICE_STATE [b2 c]
    | none => s3
  s4.judgeVbat vbat

/-- The thresholds `PPY_LOW` of the start evaluate the STATE of every meter anew where they differ from those before (R203). -/
def State.lowAtStart (s : State) (old : RegFile) : State :=
  (List.range 2).foldl (fun (t : State) u =>
    if t.regs.get (R.PPY_LOW u) = old.get (R.PPY_LOW u) then t else t.lowChanged u) s

/-- FULL_START: a full start of its cause runs, from the rails to the commands being served (R425). The sealed cores start
before an activation (R373). -/
def State.fullStart (s : State) (cause : Nat) (i : StartIn) : State :=
  let was := s.fld F.KEY_STAT.STATE
  let oldPace := s.now
  let cold := s.coldStart cause i
  let refused := match cold.imageAtStart i.copies with | .inr c => some c | .inl _ => none
  let restore := cold.fld F.PWR_RESET.RESTORE
  let s1 := (cold.loadAtStart i.copies).restoreQueues restore (cold.fld F.HLT_STAT.LEVEL)
  let s2 := ((s1.keysAtStart was cause i).loadBoot i.bootTorn).showVersions
  let s3 := ((s2.timeAtStart oldPace i.rtcNs).sealedStart.bootFirmware cause).seedAtStart
  let s4 := ((s3.reportStart refused i.levels.vbat).pendingAtStart).fromW cause restore false
  (s4.lowAtStart s.regs).reportDumps

/-- FULL_START (R425). [DEDUCED, log 69; safe] -/
def execFullStart (i : StartIn) (s : State) : Host.Outcome State Fault Refusal :=
  .next (match s.power.start with
    | some (cause, false) => s.fullStart cause i
    | _ => s)

end Sys2Proof.Machine
end

