-- ==== Sys2Proof/Machine/Dispatch.lean ====
section
/-! DEFINITION. The effect of each command on the state, one arm per row of the opcode table. -/

namespace Sys2Proof.Machine

def exec (i : Instr) (s : State) : Host.Outcome State Fault Refusal :=
  match i with
  | .paceBoundary index => Sys2Proof.Machine.execPaceBoundary index s
  | .applyScheduledImage bad badLegal => Sys2Proof.Machine.execApplyScheduledImage bad badLegal s
  | .commitCheck => Sys2Proof.Machine.execCommitCheck s
  | .commitApply => Sys2Proof.Machine.execCommitApply s
  | .engineOverrun engine lane => Sys2Proof.Machine.execEngineOverrun engine lane s
  | .jobDeadlineMiss engine lane began => Sys2Proof.Machine.execJobDeadlineMiss engine lane began s
  | .stageAcquire who => Sys2Proof.Machine.execStageAcquire who s
  | .stageRelease who => Sys2Proof.Machine.execStageRelease who s
  | .commitGo who => Sys2Proof.Machine.execCommitGo who s
  | .commitDiscard who => Sys2Proof.Machine.execCommitDiscard who s
  | .stageTimeout => Sys2Proof.Machine.execStageTimeout s
  | .waybillPart => Sys2Proof.Machine.execWaybillPart s
  | .partTimeout => Sys2Proof.Machine.execPartTimeout s
  | .sessionOpen m => Sys2Proof.Machine.execSessionOpen m s
  | .sessionConfirm m => Sys2Proof.Machine.execSessionConfirm m s
  | .sessionClose m => Sys2Proof.Machine.execSessionClose m s
  | .identity m => Sys2Proof.Machine.execIdentity m s
  | .handshakeTimeout => Sys2Proof.Machine.execHandshakeTimeout s
  | .sessionLifeExpiry => Sys2Proof.Machine.execSessionLifeExpiry s
  | .regRead m => Sys2Proof.Machine.execRegRead m s
  | .regWrite m => Sys2Proof.Machine.execRegWrite m s
  | .taskQuery m => Sys2Proof.Machine.execTaskQuery m s
  | .taskCancel m => Sys2Proof.Machine.execTaskCancel m s
  | .taskItemEnd slot readBack readable => Sys2Proof.Machine.execTaskItemEnd slot readBack readable s
  | .taskItemsNotice => Sys2Proof.Machine.execTaskItemsNotice s
  | .ack m => Sys2Proof.Machine.execAck m s
  | .noticeResend => Sys2Proof.Machine.execNoticeResend s
  | .hostClose who c => Sys2Proof.Machine.execHostClose who c s
  | .hostResend who c => Sys2Proof.Machine.execHostResend who c s
  | .warpLoad m image => Sys2Proof.Machine.execWarpLoad m image s
  | .warpApply m pace => Sys2Proof.Machine.execWarpApply m pace s
  | .meterWrite m => Sys2Proof.Machine.execMeterWrite m s
  | .readingsPush m => Sys2Proof.Machine.execReadingsPush m s
  | .readingsGet m => Sys2Proof.Machine.execReadingsGet m s
  | .tariffLoad m => Sys2Proof.Machine.execTariffLoad m s
  | .billingGet m => Sys2Proof.Machine.execBillingGet m s
  | .tokenSubmit m => Sys2Proof.Machine.execTokenSubmit m s
  | .tokenApply => Sys2Proof.Machine.execTokenApply s
  | .balanceGet m => Sys2Proof.Machine.execBalanceGet m s
  | .fwBlock m => Sys2Proof.Machine.execFwBlock m s
  | .fwMeter m => Sys2Proof.Machine.execFwMeter m s
  | .bulkRead m => Sys2Proof.Machine.execBulkRead m s
  | .bulkWrite m => Sys2Proof.Machine.execBulkWrite m s
  | .bulkDiscard m => Sys2Proof.Machine.execBulkDiscard m s
  | .timeSet m => Sys2Proof.Machine.execTimeSet m s
  | .attest m readBack levels => Sys2Proof.Machine.execAttest m readBack levels s
  | .enrolReset bad => Sys2Proof.Machine.execEnrolReset bad s
  | .eventRead m => Sys2Proof.Machine.execEventRead m s
  | .dumpRead m readable => Sys2Proof.Machine.execDumpRead m readable s
  | .pairSwitch m => Sys2Proof.Machine.execPairSwitch m s
  | .resetCmd m => Sys2Proof.Machine.execResetCmd m s
  | .commandedReset r => Sys2Proof.Machine.execCommandedReset r s
  | .metrologySample raw => Sys2Proof.Machine.execMetrologySample raw s
  | .zeroWindowRestart index => Sys2Proof.Machine.execZeroWindowRestart index s
  | .sensorFault index => Sys2Proof.Machine.execSensorFault index s
  | .sensorFaultClear index => Sys2Proof.Machine.execSensorFaultClear index s
  | .refineStart who ch => Sys2Proof.Machine.execRefineStart who ch s
  | .refineAbort who => Sys2Proof.Machine.execRefineAbort who s
  | .refineSolve => Sys2Proof.Machine.execRefineSolve s
  | .metrologyReady => Sys2Proof.Machine.execMetrologyReady s
  | .intervalClose n => Sys2Proof.Machine.execIntervalClose n s
  | .checkpointWrite bad => Sys2Proof.Machine.execCheckpointWrite bad s
  | .pulseEmit j => Sys2Proof.Machine.execPulseEmit j s
  | .pulseWidthEnd j => Sys2Proof.Machine.execPulseWidthEnd j s
  | .demandClose n => Sys2Proof.Machine.execDemandClose n s
  | .tariffSwitch c => Sys2Proof.Machine.execTariffSwitch c s
  | .pointBillingClose n => Sys2Proof.Machine.execPointBillingClose n s
  | .meterGraceClose index => Sys2Proof.Machine.execMeterGraceClose index s
  | .ingestFrame => Sys2Proof.Machine.execIngestFrame s
  | .readingDurable => Sys2Proof.Machine.execReadingDurable s
  | .chunkWrite chunk => Sys2Proof.Machine.execChunkWrite chunk s
  | .serialPoll ser => Sys2Proof.Machine.execSerialPoll ser s
  | .serialResponseTimeout ser => Sys2Proof.Machine.execSerialResponseTimeout ser s
  | .serialFrame ser bad us f => Sys2Proof.Machine.execSerialFrame ser bad us f s
  | .nodeBalance n m => Sys2Proof.Machine.execNodeBalance n m s
  | .localisation n => Sys2Proof.Machine.execLocalisation n s
  | .balanceRevision => Sys2Proof.Machine.execBalanceRevision s
  | .revisionNotice => Sys2Proof.Machine.execRevisionNotice s
  | .rebase who node => Sys2Proof.Machine.execRebase who node s
  | .clearAlert who node => Sys2Proof.Machine.execClearAlert who node s
  | .relocate who node => Sys2Proof.Machine.execRelocate who node s
  | .relearn who node => Sys2Proof.Machine.execRelearn who node s
  | .tokenForward => Sys2Proof.Machine.execTokenForward s
  | .keypadToken => Sys2Proof.Machine.execKeypadToken s
  | .legalUpdChange => Sys2Proof.Machine.execLegalUpdChange s
  | .fwActivate => Sys2Proof.Machine.execFwActivate s
  | .sealedActivation runs bad => Sys2Proof.Machine.execSealedActivation runs bad s
  | .sealedFallback => Sys2Proof.Machine.execSealedFallback s
  | .calDeliver => Sys2Proof.Machine.execCalDeliver s
  | .calDigest bad => Sys2Proof.Machine.execCalDigest bad s
  | .billCloseRequest => Sys2Proof.Machine.execBillCloseRequest s
  | .displayNote => Sys2Proof.Machine.execDisplayNote s
  | .displayNoteEnd => Sys2Proof.Machine.execDisplayNoteEnd s
  | .keypadCfg => Sys2Proof.Machine.execKeypadCfg s
  | .intervalRecord => Sys2Proof.Machine.execIntervalRecord s
  | .snapshot => Sys2Proof.Machine.execSnapshot s
  | .legalEvent => Sys2Proof.Machine.execLegalEvent s
  | .reqResult => Sys2Proof.Machine.execReqResult s
  | .displayFrame answer => Sys2Proof.Machine.execDisplayFrame answer s
  | .displayInitRetry => Sys2Proof.Machine.execDisplayInitRetry s
  | .displayStep => Sys2Proof.Machine.execDisplayStep s
  | .keypadKey k => Sys2Proof.Machine.execKeypadKey k s
  | .keypadEntryTimeout => Sys2Proof.Machine.execKeypadEntryTimeout s
  | .displayRequestEnd => Sys2Proof.Machine.execDisplayRequestEnd s
  | .opticalRequest address => Sys2Proof.Machine.execOpticalRequest address s
  | .opticalAck option baud => Sys2Proof.Machine.execOpticalAck option baud s
  | .connectionEvent short n busy pre frames => Sys2Proof.Machine.execConnectionEvent short n busy pre frames s
  | .channelReturn radio channel => Sys2Proof.Machine.execChannelReturn radio channel s
  | .joinReq radio fcsOk bytes fin => Sys2Proof.Machine.execJoinReq radio fcsOk bytes fin s
  | .connectionLost short => Sys2Proof.Machine.execConnectionLost short s
  | .floodReceive radio channel fcsOk bytes fin => Sys2Proof.Machine.execFloodReceive radio channel fcsOk bytes fin s
  | .floodSend => Sys2Proof.Machine.execFloodSend s
  | .wmbusFrame radio crcOk f => Sys2Proof.Machine.execWmbusFrame radio crcOk f s
  | .envelopeSend => Sys2Proof.Machine.execEnvelopeSend s
  | .joinedTableWrite => Sys2Proof.Machine.execJoinedTableWrite s
  | .txWaitExpiry => Sys2Proof.Machine.execTxWaitExpiry s
  | .synthLockFail radio => Sys2Proof.Machine.execSynthLockFail radio s
  | .plcFrameReceive chan f => Sys2Proof.Machine.execPlcFrameReceive chan f s
  | .tmUpdate => Sys2Proof.Machine.execTmUpdate s
  | .csmaAttempt chan at_ sensed => Sys2Proof.Machine.execCsmaAttempt chan at_ sensed s
  | .plcAckTimeout chan => Sys2Proof.Machine.execPlcAckTimeout chan s
  | .referenceMeasure chan m => Sys2Proof.Machine.execReferenceMeasure chan m s
  | .superframeStart chan => Sys2Proof.Machine.execSuperframeStart chan s
  | .slotReq => Sys2Proof.Machine.execSlotReq s
  | .beaconLoss => Sys2Proof.Machine.execBeaconLoss s
  | .routeAdv chan => Sys2Proof.Machine.execRouteAdv chan s
  | .plcJoinReq => Sys2Proof.Machine.execPlcJoinReq s
  | .plcLinkLost short => Sys2Proof.Machine.execPlcLinkLost short s
  | .e2eResend short => Sys2Proof.Machine.execE2eResend short s
  | .ethernetFrame port len content => Sys2Proof.Machine.execEthernetFrame port len content s
  | .ptpMessage domain msg at_ sent => Sys2Proof.Machine.execPtpMessage domain msg at_ sent s
  | .txDoorbell e k tail irq ring => Sys2Proof.Machine.execTxDoorbell e k tail irq ring s
  | .rxPost e k tail irq posted => Sys2Proof.Machine.execRxPost e k tail irq posted s
  | .pcieReset e => Sys2Proof.Machine.execPcieReset e s
  | .spiRegWrite bytes => Sys2Proof.Machine.execSpiRegWrite bytes s
  | .spiRegRead bytes => Sys2Proof.Machine.execSpiRegRead bytes s
  | .spiStatus => Sys2Proof.Machine.execSpiStatus s
  | .wbWrite bytes => Sys2Proof.Machine.execWbWrite bytes s
  | .wbRead whole => Sys2Proof.Machine.execWbRead whole s
  | .usbWaybill w => Sys2Proof.Machine.execUsbWaybill w s
  | .ppsEdge cycle => Sys2Proof.Machine.execPpsEdge cycle s
  | .timeRxSentence utc ok => Sys2Proof.Machine.execTimeRxSentence utc ok s
  | .tamperTrigger t => Sys2Proof.Machine.execTamperTrigger t s
  | .journalCommit => Sys2Proof.Machine.execJournalCommit s
  | .mapCheckpoint => Sys2Proof.Machine.execMapCheckpoint s
  | .foldBlock => Sys2Proof.Machine.execFoldBlock s
  | .collectionJob => Sys2Proof.Machine.execCollectionJob s
  | .blockEraseDone die block => Sys2Proof.Machine.execBlockEraseDone die block s
  | .pageRead sb page retries decoded rebuilt partner => Sys2Proof.Machine.execPageRead sb page retries decoded rebuilt partner s
  | .programFail sb => Sys2Proof.Machine.execProgramFail sb s
  | .eraseFail die block => Sys2Proof.Machine.execEraseFail die block s
  | .dieFail die => Sys2Proof.Machine.execDieFail die s
  | .stoDieCtlFail who die => Sys2Proof.Machine.execStoDieCtlFail who die s
  | .throttleTimeout => Sys2Proof.Machine.execThrottleTimeout s
  | .scrub sb page bits => Sys2Proof.Machine.execScrub sb page bits s
  | .queuePush q w => Sys2Proof.Machine.execQueuePush q w s
  | .queuePop q upset => Sys2Proof.Machine.execQueuePop q upset s
  | .arbDraw pending => Sys2Proof.Machine.execArbDraw pending s
  | .arbRelease => Sys2Proof.Machine.execArbRelease s
  | .arbSeed who seed => Sys2Proof.Machine.execArbSeed who seed s
  | .freeze who on => Sys2Proof.Machine.execFreeze who on s
  | .eventPost => Sys2Proof.Machine.execEventPost s
  | .eventWindowExpiry => Sys2Proof.Machine.execEventWindowExpiry s
  | .eventDrop => Sys2Proof.Machine.execEventDrop s
  | .operatingSecond => Sys2Proof.Machine.execOperatingSecond s
  | .zeroise glitch temp volt => Sys2Proof.Machine.execZeroise glitch temp volt s
  | .zeroiseArm who => Sys2Proof.Machine.execZeroiseArm who s
  | .zeroiseGo who => Sys2Proof.Machine.execZeroiseGo who s
  | .hssTreeJob readBack => Sys2Proof.Machine.execHssTreeJob readBack s
  | .rngHealthFail => Sys2Proof.Machine.execRngHealthFail s
  | .keycacheResize who slots => Sys2Proof.Machine.execKeycacheResize who slots s
  | .activationRestart => Sys2Proof.Machine.execActivationRestart s
  | .trialConfirmation => Sys2Proof.Machine.execTrialConfirmation s
  | .confirm who => Sys2Proof.Machine.execConfirm who s
  | .trialTimeout => Sys2Proof.Machine.execTrialTimeout s
  | .campaignBegin c => Sys2Proof.Machine.execCampaignBegin c s
  | .carouselSegment c => Sys2Proof.Machine.execCarouselSegment c s
  | .fwStatus => Sys2Proof.Machine.execFwStatus s
  | .campaignEnd c => Sys2Proof.Machine.execCampaignEnd c s
  | .pairLinkUp peer => Sys2Proof.Machine.execPairLinkUp peer s
  | .laneChange lane up tagFailed => Sys2Proof.Machine.execLaneChange lane up tagFailed s
  | .ledgerEntry e => Sys2Proof.Machine.execLedgerEntry e s
  | .digestCompare p own partner => Sys2Proof.Machine.execDigestCompare p own partner s
  | .selfCheckResult failed partner => Sys2Proof.Machine.execSelfCheckResult failed partner s
  | .commonCheckpoint => Sys2Proof.Machine.execCommonCheckpoint s
  | .resynchronisation pace total left sealedOk => Sys2Proof.Machine.execResynchronisation pace total left sealedOk s
  | .roleDecision actIn => Sys2Proof.Machine.execRoleDecision actIn s
  | .deadman => Sys2Proof.Machine.execDeadman s
  | .takeover => Sys2Proof.Machine.execTakeover s
  | .dualYield => Sys2Proof.Machine.execDualYield s
  | .resync who => Sys2Proof.Machine.execResync who s
  | .leave who => Sys2Proof.Machine.execLeave who s
  | .supplyChange input good v => Sys2Proof.Machine.execSupplyChange input good v s
  | .holdupStart v => Sys2Proof.Machine.execHoldupStart v s
  | .save r => Sys2Proof.Machine.execSave r s
  | .saveCutoff paces => Sys2Proof.Machine.execSaveCutoff paces s
  | .powerOn => Sys2Proof.Machine.execPowerOn s
  | .powerOnReset => Sys2Proof.Machine.execPowerOnReset s
  | .pinReset => Sys2Proof.Machine.execPinReset s
  | .clockFault => Sys2Proof.Machine.execClockFault s
  | .fullStart index => Sys2Proof.Machine.execFullStart index s
  | .warmRestart => Sys2Proof.Machine.execWarmRestart s
  | .timeStep bad => Sys2Proof.Machine.execTimeStep bad s
  | .timeQualityChange => Sys2Proof.Machine.execTimeQualityChange s
  | .rtcCompare trim => Sys2Proof.Machine.execRtcCompare trim s
  | .vcoreEvaluation slack => Sys2Proof.Machine.execVcoreEvaluation slack s
  | .nandBerEvaluation b => Sys2Proof.Machine.execNandBerEvaluation b s
  | .dailyMeasurement afe => Sys2Proof.Machine.execDailyMeasurement afe s
  | .capTest => Sys2Proof.Machine.execCapTest s
  | .capTestNow who => Sys2Proof.Machine.execCapTestNow who s
  | .capTestEnd dv0 fall => Sys2Proof.Machine.execCapTestEnd dv0 fall s
  | .queueCheckpoint => Sys2Proof.Machine.execQueueCheckpoint s
  | .coreLost core selfTest => Sys2Proof.Machine.execCoreLost core selfTest s
  | .watchdogBite => Sys2Proof.Machine.execWatchdogBite s
  | .watchdogHardReset bad => Sys2Proof.Machine.execWatchdogHardReset bad s
  | .fatalError raised ending writes count bad => Sys2Proof.Machine.execFatalError raised ending writes count bad s
  | .vbatLow mv => Sys2Proof.Machine.execVbatLow mv s
  | .rngOutputResume => Sys2Proof.Machine.execRngOutputResume s
  | .portLink port speed => Sys2Proof.Machine.execPortLink port speed s
  | .routeWaitExpiry short => Sys2Proof.Machine.execRouteWaitExpiry short s
  | .waitingTransmissionStart => Sys2Proof.Machine.execWaitingTransmissionStart s
  | .balBacklog => Sys2Proof.Machine.execBalBacklog s

end Sys2Proof.Machine
end

