-- ==== Sys2Proof/Machine/Step.lean ====
section
/-! DEFINITION. The step: the command at the front of the queue, or the passing of a quantum. -/

namespace Sys2Proof.Machine

/-- With no command waiting a quantum passes; quantum 15 stands until the boundary (R22; a choice of the model).
[DESIGN CHOICE, log 2; unsafe] -/
def State.quantumPasses (s : State) : State :=
  { s with pace := { s.pace with quantum := min 15 (s.pace.quantum + 1) } }

/-- One step: the command at the front of the queue runs on the state with the rest of the queue.
[DESIGN CHOICE, log 1; unsafe] -/
def step (s : State) : Host.Outcome State Fault Refusal :=
  match s.pending with
  | [] => .next s.quantumPasses
  | c :: rest => exec c { s with pending := rest }

/-- The state with the command that a word spells at the front of its queue; the state itself where the word spells
none. [DESIGN CHOICE, log 6; safe] -/
def State.withFetchWord (s : State) (nbits w : Nat) : State :=
  match decodeTableWord nbits w with
  | none => s
  | some c => { s with pending := c :: s.pending }

end Sys2Proof.Machine
end

