-- ==== Sys2Proof/WellFormed.lean ====
section
/-! DEFINITION. The operands a command may have: the indices of the things the spec numbers. The meanings are total:
outside these bounds a command finds nothing to act on. -/

namespace Sys2Proof

open Machine

/-- A context is one of the eight of R48. -/
def Machine.Requester.wf : Requester → Bool
  | .context c => decide (c < 8)
  | .spi => true
  | .seat => true
  | .internal _ => true

/-- A message comes from a context or from the service seat, which is 8. -/
def Machine.Msg.wf (m : Msg) : Bool := decide (m.seat ≤ 8)

/-- Whether the operands of a command lie in the ranges the spec gives them. [DESIGN CHOICE, log 10; unsafe] -/
def Instr.wf : Instr → Bool
  | .paceBoundary _ => true
  | .applyScheduledImage _ _ => true
  | .commitCheck => true
  | .commitApply => true
  | .engineOverrun engine lane => decide (engine < 32) && decide (lane < 10)
  | .jobDeadlineMiss engine lane _ => decide (engine < 32) && decide (lane < 10)
  | .stageAcquire who => who.wf
  | .stageRelease who => who.wf
  | .commitGo who => who.wf
  | .commitDiscard who => who.wf
  | .stageTimeout => true
  | .waybillPart => true
  | .partTimeout => true
  | .sessionOpen m => m.wf
  | .sessionConfirm m => m.wf
  | .sessionClose m => m.wf
  | .identity m => m.wf
  | .handshakeTimeout => true
  | .sessionLifeExpiry => true
  | .regRead m => m.wf
  | .regWrite m => m.wf
  | .taskQuery m => m.wf
  | .taskCancel m => m.wf
  | .taskItemEnd slot _ _ => decide (slot < 4096)
  | .taskItemsNotice => true
  | .ack m => m.wf
  | .noticeResend => true
  | .hostClose who c => who.wf && decide (c < 8)
  | .hostResend who c => who.wf && decide (c < 8)
  | .warpLoad m _ => m.wf
  | .warpApply m _ => m.wf
  | .meterWrite m => m.wf
  | .readingsPush m => m.wf
  | .readingsGet m => m.wf
  | .tariffLoad m => m.wf
  | .billingGet m => m.wf
  | .tokenSubmit m => m.wf
  | .tokenApply => true
  | .balanceGet m => m.wf
  | .fwBlock m => m.wf
  | .fwMeter m => m.wf
  | .bulkRead m => m.wf
  | .bulkWrite m => m.wf
  | .bulkDiscard m => m.wf
  | .timeSet m => m.wf
  | .attest m _ _ => m.wf
  | .enrolReset _ => true
  | .eventRead m => m.wf
  | .dumpRead m _ => m.wf
  | .pairSwitch m => m.wf
  | .resetCmd m => m.wf
  | .commandedReset _ => true
  | .metrologySample _ => true
  | .zeroWindowRestart i => decide (i < 48)
  | .sensorFault i => decide (i < 48)
  | .sensorFaultClear i => decide (i < 48)
  | .refineStart who ch => who.wf && decide (ch < 16)
  | .refineAbort who => who.wf
  | .refineSolve => true
  | .metrologyReady => true
  | .intervalClose n => decide (n < 12)
  | .checkpointWrite _ => true
  | .pulseEmit j => decide (j < 16)
  | .pulseWidthEnd j => decide (j < 16)
  | .demandClose n => decide (n < 12)
  | .tariffSwitch c => decide (c < 64)
  | .pointBillingClose n => decide (n < 12)
  | .meterGraceClose i => decide (i < 1048576)
  | .ingestFrame => true
  | .readingDurable => true
  | .chunkWrite _ => true
  | .serialPoll ser => decide (ser < 24)
  | .serialResponseTimeout ser => decide (ser < 24)
  | .serialFrame ser _ _ _ => decide (ser < 24)
  | .nodeBalance n _ => decide (n < 65536)
  | .localisation n => decide (n < 65536)
  | .balanceRevision => true
  | .revisionNotice => true
  | .rebase who node => who.wf && decide (node < 65536)
  | .clearAlert who node => who.wf && decide (node < 65536)
  | .relocate who node => who.wf && decide (node < 65536)
  | .relearn who node => who.wf && decide (node < 65536)
  | .tokenForward => true
  | .keypadToken => true
  | .legalUpdChange => true
  | .fwActivate => true
  | .sealedActivation _ _ => true
  | .sealedFallback => true
  | .calDeliver => true
  | .calDigest _ => true
  | .billCloseRequest => true
  | .displayNote => true
  | .displayNoteEnd => true
  | .keypadCfg => true
  | .intervalRecord => true
  | .snapshot => true
  | .legalEvent => true
  | .reqResult => true
  | .displayFrame _ => true
  | .displayInitRetry => true
  | .displayStep => true
  | .keypadKey k => [35, 42, 48, 49, 50, 51, 52, 53, 54, 55, 56, 57, 65, 66, 67, 68].contains k
  | .keypadEntryTimeout => true
  | .displayRequestEnd => true
  | .opticalRequest _ => true
  | .opticalAck _ _ => true
  | .connectionEvent short _ _ _ _ => decide (short < 65536)
  | .channelReturn radio channel => decide (radio < 2) && decide (channel < 64)
  | .joinReq radio _ _ _ => decide (radio < 2)
  | .connectionLost short => decide (short < 65536)
  | .floodReceive radio channel _ _ _ => decide (radio < 2) && decide (channel < 64)
  | .floodSend => true
  | .wmbusFrame radio _ _ => decide (radio < 2)
  | .envelopeSend => true
  | .joinedTableWrite => true
  | .txWaitExpiry => true
  | .synthLockFail radio => decide (radio < 2)
  | .plcFrameReceive chan _ => decide (chan < 4)
  | .tmUpdate => true
  | .csmaAttempt chan _ _ => decide (chan < 4)
  | .plcAckTimeout chan => decide (chan < 4)
  | .referenceMeasure chan _ => decide (chan < 4)
  | .superframeStart chan => decide (chan < 4)
  | .slotReq => true
  | .beaconLoss => true
  | .routeAdv chan => decide (chan < 4)
  | .plcJoinReq => true
  | .plcLinkLost short => decide (short < 65536)
  | .e2eResend short => decide (short < 65536)
  | .ethernetFrame port _ _ => decide (port < 64)
  | .ptpMessage _ _ _ _ => true
  | .txDoorbell e k _ _ _ => decide (e < 2) && decide (k < 4)
  | .rxPost e k _ _ _ => decide (e < 2) && decide (k < 4)
  | .pcieReset e => decide (e < 2)
  | .spiRegWrite _ => true
  | .spiRegRead _ => true
  | .spiStatus => true
  | .wbWrite _ => true
  | .wbRead _ => true
  | .usbWaybill _ => true
  | .ppsEdge _ => true
  | .timeRxSentence _ _ => true
  | .tamperTrigger t => decide (t < 8)
  | .journalCommit => true
  | .mapCheckpoint => true
  | .foldBlock => true
  | .collectionJob => true
  | .blockEraseDone die _ => decide (die < 64)
  | .pageRead _ _ _ _ _ _ => true
  | .programFail _ => true
  | .eraseFail die _ => decide (die < 64)
  | .dieFail die => decide (die < 64)
  | .stoDieCtlFail who die => who.wf && decide (die < 64)
  | .throttleTimeout => true
  | .scrub _ _ _ => true
  | .queuePush q _ => decide (q < 512)
  | .queuePop q _ => decide (q < 512)
  | .arbDraw _ => true
  | .arbRelease => true
  | .arbSeed who _ => who.wf
  | .freeze who _ => who.wf
  | .eventPost => true
  | .eventWindowExpiry => true
  | .eventDrop => true
  | .operatingSecond => true
  | .zeroise _ _ _ => true
  | .zeroiseArm who => who.wf
  | .zeroiseGo who => who.wf
  | .hssTreeJob _ => true
  | .rngHealthFail => true
  | .keycacheResize who _ => who.wf
  | .activationRestart => true
  | .trialConfirmation => true
  | .confirm who => who.wf
  | .trialTimeout => true
  | .campaignBegin c => decide (c < 8)
  | .carouselSegment c => decide (c < 8)
  | .fwStatus => true
  | .campaignEnd c => decide (c < 8)
  | .pairLinkUp _ => true
  | .laneChange lane _ _ => decide (lane < 2)
  | .ledgerEntry _ => true
  | .digestCompare _ _ _ => true
  | .selfCheckResult _ _ => true
  | .commonCheckpoint => true
  | .resynchronisation _ _ _ _ => true
  | .roleDecision _ => true
  | .deadman => true
  | .takeover => true
  | .dualYield => true
  | .resync who => who.wf
  | .leave who => who.wf
  | .supplyChange _ _ _ => true
  | .holdupStart _ => true
  | .save _ => true
  | .saveCutoff _ => true
  | .powerOn => true
  | .powerOnReset => true
  | .pinReset => true
  | .clockFault => true
  | .fullStart _ => true
  | .warmRestart => true
  | .timeStep _ => true
  | .timeQualityChange => true
  | .rtcCompare _ => true
  | .vcoreEvaluation _ => true
  | .nandBerEvaluation _ => true
  | .dailyMeasurement _ => true
  | .capTest => true
  | .capTestNow who => who.wf
  | .capTestEnd _ _ => true
  | .queueCheckpoint => true
  | .coreLost core _ => decide (core < 8)
  | .watchdogBite => true
  | .watchdogHardReset _ => true
  | .fatalError _ _ _ _ _ => true
  | .vbatLow _ => true
  | .rngOutputResume => true
  | .portLink port speed => decide (port < 64) && decide (speed < 64)
  | .routeWaitExpiry short => decide (short < 65536)
  | .waitingTransmissionStart => true
  | .balBacklog => true

end Sys2Proof
end

