-- ==== Sys2Proof/Safety.lean ====
section
/-! DEFINITION. What a safe run is: the invariant of the register file, and the conditions and results in whose terms
statements about commands are made. -/

namespace Sys2Proof

open Machine

/-- The register file stands in its canonical form: every listed address is a register (R442), reserved bits are 0
(R6), and no register stands at its reset value. -/
def Inv (s : State) : Prop := s.regs.wf = true

/-- Every command waiting is well-formed. -/
def Queued (s : State) : Prop := s.pending.all Instr.wf = true

/-- Every register but those at the addresses listed reads in `t` as it does in `s`. -/
def OnlyRegs (l : List Nat) (s t : State) : Prop := ∀ a, a ∉ l → t.regs.get a = s.regs.get a

/-- The state after `n` steps, none where one of them did not end in a next state. -/
def stepsFrom : Nat → State → Option State
  | 0, s => some s
  | n + 1, s => match step s with
    | .next t => stepsFrom n t
    | _ => none

/-- `t` is `s` with a counter one higher, or at the largest value it holds, and nothing else changed. -/
def Counted (f : FieldRef) (s t : State) : Prop :=
  t.fld f = min (s.fld f + 1) (2 ^ (f.hi - f.lo + 1) - 1) ∧ OnlyRegs [f.addr] s t ∧ t = { s with regs := t.regs }

/-! ### Commands of a host -/

/-- A message taken out of the inbox, with its command taken from the bucket of its context (R60). -/
def taken (s : State) (m : Msg) : State :=
  ({ s with host := { s.host with inbox := s.host.inbox.erase m } } : State).takeRate m.seat

/-- The state in which a command taken as new is executed (R61). -/
def begun (s : State) (m : Msg) : State := (taken s m).raiseHigh m

/-- A message of an opcode waits in the inbox, and its context has a command left (R60). -/
def Waits (s : State) (opcode : Nat) (m : Msg) : Prop :=
  m.opcode = opcode ∧ s.host.inbox.contains m = true ∧ (m.seat = 8 ∨ s.rateOk m.seat = true)

/-- A message of an opcode waits, and R61 executes its command as new. -/
def Served (s : State) (opcode : Nat) (m : Msg) : Prop :=
  Waits s opcode m ∧ (taken s m).judgeSeq m = .fresh

/-- R63 admits a task with these items, which all have the form their command asks for. -/
def Admits (u : State) (m : Msg) (valid : Tlv → Bool) (items : List Tlv) : Prop :=
  items ≠ [] ∧ items.all valid = true ∧ items.length ≤ 1048576 ∧
  (m.seat = 8 ∨ (u.ctx m.seat).full = false) ∧ u.quota m.seat = none

/-- A task opened for the items, its items begun in order, and the command answered (R64 to R66). -/
def ran (u : State) (m : Msg) (run : State → ItemRef → Tlv → State × ItemEnd) (items : List Tlv) : State :=
  ((List.range items.length).foldl (State.beginItem run m (u.openTask m items).2) (u.openTask m items).1).answerTask
    m (u.openTask m items).2

/-! ### Writes that trigger an action -/

/-- The requester may write the register and no rule locks it (R34, R50); the member applies the write itself: it is
no standby (R391), or the block is member-local (R395). -/
def MayWrite (s : State) (who : Requester) (addr : Nat) : Prop :=
  s.writeRefused who addr = Cause.OK ∧ s.lockMask addr = 0 ∧
  (localBlock addr = true ∨ (s.roleNow ≠ 1 ∧ s.roleNow ≠ 3))

/-- The state that judges a write: an active member first enters a write that is not member-local in the ledger entry
it forms (R393). -/
def entered (s : State) (who : Requester) (addr : Nat) (value mask : Word) : State :=
  if localBlock addr then s else s.record (.regWrite ((s.actsAs who).getD 0) addr value mask)

/-- `entered` for a write of one bit. -/
def enteredBit (s : State) (who : Requester) (addr bit : Nat) : State :=
  entered s who addr (BitVec.ofNat 32 (2 ^ bit)) (BitVec.ofNat 32 (2 ^ bit))

end Sys2Proof
end

