-- ==== Sys2Proof/Certificates/Slice0/Obligations.lean ====
section
/-! DEFINITION. The statements about the TY9600 for the provers. Each names the rules of spec/ it rests on; a clause that
rests on a choice of the model says so and names the log entry. -/

section

open Sys2Proof Sys2Proof.Machine

/-! ### The machine as a whole -/

/-- A step with a command at the front of the queue is the effect of that command on the state with the queue's rest
(log 1: the model's form of a block). With no command waiting it lets one quantum of the pace pass and changes nothing
else; the last quantum stands until a boundary (log 2, a choice of the model: the table has no row for a quantum of
R22). -/
def Obligations.StepTakesTheFrontCommand : Prop :=
  (∀ (c : Instr) (rest : List Instr) (s : State), s.pending = c :: rest → step s = exec c { s with pending := rest }) ∧
  (∀ s : State, s.pending = [] → ∃ t, step s = .next t ∧
    t.pace.quantum = min 15 (s.pace.quantum + 1) ∧ t = { s with pace := { s.pace with quantum := t.pace.quantum } })

/-- After reset no command waits, the pace count is 0 (R23), every register reads as its reset value (R7), no Warp image
is active, nothing has been sent, and the register file is canonical. -/
def Obligations.ResetHoldsResetValues : Prop :=
  State.reset.pending = [] ∧ State.reset.now = 0 ∧ State.reset.out = [] ∧ State.reset.warp.active = none ∧
  Inv State.reset ∧
  (∀ a r, findReg a = some r → State.reset.regs.get a = r.resetWord) ∧ (∀ a, findReg a = none → State.reset.regs.get a = 0)

/-- The register file stays canonical through every step: every listed address is a register of R442, reserved bits
are 0 (R6), no register is listed at its reset value. -/
def Obligations.StepKeepsRegisterInvariant : Prop :=
  ∀ s t : State, Inv s → step s = .next t → Inv t

/-- Every command, in every state and with every operand, ends in a next state: none faults and none is refused. It
leaves the queue alone, takes back nothing that was sent, and draws free values forward. Only a boundary, a start and a
resynchronisation move the pace count, and besides them only the check of a commit, with which quantum 15 begins, its
quantum (R22, R23; the last rests on log 2). Only a boundary, the application of a scheduled image and a full start change
the active Warp image (R38, R40). -/
def Obligations.EveryCommandCompletes : Prop :=
  ∀ (c : Instr) (s : State), ∃ t, exec c s = .next t ∧ t.pending = s.pending ∧ s.out <+: t.out ∧ s.drawn ≤ t.drawn ∧
    ((∀ i, c ≠ .paceBoundary i) → (∀ i, c ≠ .fullStart i) → (∀ p n k b, c ≠ .resynchronisation p n k b) →
      c ≠ .commitCheck → t.pace.count = s.pace.count ∧ t.pace.quantum = s.pace.quantum) ∧
    ((∀ i, c ≠ .paceBoundary i) → (∀ i, c ≠ .fullStart i) → (∀ l k, c ≠ .applyScheduledImage l k) →
      t.warp.active = s.warp.active)

/-- Commands run in the order in which they wait: after as many steps as commands stand before the rest of the queue,
exactly the rest waits, and what had been sent is still the beginning of what is sent. -/
def Obligations.QueuedCommandsRunInOrder : Prop :=
  ∀ (l rest : List Instr) (s : State), s.pending = l ++ rest →
    ∃ t, stepsFrom l.length s = some t ∧ t.pending = rest ∧ s.out <+: t.out ∧ (Inv s → Inv t)

/-! ### The register map and the register file -/

/-- R446: block b holds its BLOCK_ID at offset 0xFFFC, with the fields BLOCK, which reads b, and VERSION, which reads 1;
and no other register uses offsets 0xFF00 to 0xFFFF. -/
def Obligations.BlockIdsStandAtTheirOffset : Prop :=
  ∀ b < 23, findReg (b * 0x10000 + 0xFFFC) =
      some ⟨b * 0x10000 + 0xFFFC, [], false, [⟨31, 16, .RO, b, .all⟩, ⟨15, 0, .RO, 1, .all⟩]⟩ ∧
    ∀ o < 0x100, o ≠ 0xFC → findReg (b * 0x10000 + 0xFF00 + o) = none

/-- R441: an address lies in the block its upper bits number, blocks are 0 to 22, and the register found at an address is
one of that block, with its own address at or below it. -/
def Obligations.RegistersLieInTheirBlock : Prop :=
  ∀ a r, findReg a = some r → a / 0x10000 < 23 ∧ r ∈ blockRegs (a / 0x10000) ∧ r.addr ≤ a ∧ r.addr / 0x10000 = a / 0x10000

/-- A register that is written reads back the bits of its fields, at every address, and every other register reads as
before; where there is no register nothing is held (R442); reserved bits of a stored register are 0 (R6). -/
def Obligations.RegisterReadsBackWhatIsWritten : Prop :=
  ∀ (m : RegFile) (a : Nat) (w : Word), m.wf = true →
    (m.put a w).wf = true ∧
    (∀ r, findReg a = some r → (m.put a w).get a = w &&& r.fieldMask) ∧
    (findReg a = none → m.put a w = m) ∧
    (∀ b, b ≠ a → (m.put a w).get b = m.get b) ∧
    m.put a (m.get a) = m ∧
    (∀ r, findReg a = some r → m.get a &&& ~~~ r.fieldMask = 0) ∧ (findReg a = none → m.get a = 0)

/-- R6: what a write holds in reserved bits has no effect: the state after it and the cause it reports are those of the
same write with value and mask cut to the fields of the register. A write that is refused as a whole has no effect, and
the first of its checks that fails gives the cause: no register (R442), a right (R50), the block (R50, R441), no writable
field (R9). -/
def Obligations.RefusedWritesAndReservedBitsHaveNoEffect : Prop :=
  ∀ (s : State) (who : Requester) (addr : Nat) (value mask : Word),
    (s.writeRefused who addr ≠ Cause.OK → s.writeReg who addr value mask = (s, s.writeRefused who addr)) ∧
    (findReg addr = none → s.writeRefused who addr = Cause.REG_ADDRESS) ∧
    (∀ r, findReg addr = some r →
      s.writeReg who addr value mask = s.writeReg who addr (value &&& r.fieldMask) (mask &&& r.fieldMask) ∧
      (s.mayAct who 1 = false → s.writeRefused who addr = Cause.RIGHTS) ∧
      (s.mayAct who 1 = true → s.mayAct who 2 = true → s.mayWriteBlock who addr = false →
        s.writeRefused who addr = Cause.REG_BLOCK) ∧
      (s.mayAct who 1 = true → s.mayAct who 2 = true → s.mayWriteBlock who addr = true →
        s.writeRefused who addr =
          if r.fields.all fun f => f.acc == .RO || f.acc == .ROS || f.acc == .RC then Cause.REG_ACCESS else Cause.OK))

/-- R443: a read has no effect but on fields with access RC of the register read, on the latch of a pair (R444), and on
the free values drawn for the receiver flags (log 26, a choice of the model); a refused read returns 0 and has no
effect at all. R444: a read of the low half of a pair latches the high half for that requester alone, and a read of the
high half returns the requester's latch. -/
def Obligations.ReadsChangeOnlyWhatTheyClear : Prop :=
  (∀ (s : State) (who : Requester) (addr : Nat),
    (s.readRefused who addr ≠ Cause.OK → s.readReg who addr = (s, 0, s.readRefused who addr)) ∧
    (s.readRefused who addr = Cause.OK → ∃ t, s.readReg who addr = (t, s.readValue who addr, Cause.OK) ∧
      t = { s with regs := t.regs, latches := t.latches, drawn := t.drawn } ∧ OnlyRegs [addr] s t ∧
      (∀ r, findReg addr = some r → (r.fields.all fun f => f.acc != .RC) = true → t.regs = s.regs) ∧
      (∀ r, findReg addr = some r → r.loPair = false → t.latches = s.latches))) ∧
  (∀ (s : State) (who other : Requester) (addr : Nat) (r : RegSpec), findReg addr = some r → r.loPair = true →
    ((s.afterRead who addr).latched who addr = s.view (addr + 4)) ∧
    (other ≠ who → (s.afterRead who addr).latched other addr = s.latched other addr) ∧
    (∀ h, findReg (addr + 4) = some h → s.readValue who (addr + 4) = s.latched who addr))

/-! ### The pace, the stage and commits (R22 to R47, R470) -/

/-- R22, R23, R25, R414: a boundary begins quantum 0 of the next pace and raises the pace count by one. During SAVE device
time moves on by a millisecond as the frequency correction and the slew have it (R420), and nothing else happens; with the
supply off nothing does. In the service state and in operation it runs the work of BOUNDARY on the pace that ended. -/
def Obligations.PaceBoundaryBeginsThePace : Prop :=
  (∀ (i : BoundaryIn) (s : State), s.power.phase = .off → exec (.paceBoundary i) s = .next s) ∧
  (∀ (i : BoundaryIn) (s : State), s.power.phase = .save → ∃ t n, exec (.paceBoundary i) s = .next t ∧
    t.pace = { s.pace with count := s.pace.count + 1, quantum := 0 } ∧
    n = ((s.clk.ns : Int) * 1000 + s.clk.frac + 1000000000 + s.regs.fldInt F.CLK_FREQ.PPB + s.slewNow * 1000).toNat ∧
    t.clk = { s.clk with last := s.clk.ns, ns := n / 1000, frac := n % 1000, slew := s.clk.slew - s.slewNow } ∧
    OnlyRegs [R.ING_RATE] s t ∧
    t = { s with
      pace := t.pace, clk := t.clk, regs := t.regs
      evt := { s.evt with secondDue := t.evt.secondDue }, ing := { s.ing with recent := t.ing.recent } }) ∧
  (∀ (i : BoundaryIn) (s : State), s.power.phase = .run ∨ s.power.phase = .service →
    ∃ t, exec (.paceBoundary i) s = .next t ∧ t.pace.count = s.pace.count + 1 ∧ t.pace.quantum = 0 ∧
      t.pending = s.pending ∧ s.out <+: t.out ∧ (Inv s → Inv t) ∧ t = s.runBoundary i)

/-- R28 to R31: an overrun counts for its engine, keeps its pace and is recorded, and with a pace fault of R30 sets the
engine's bit and signals the fatal error; a job past its deadline is counted and recorded. -/
def Obligations.OverrunsAndMissedDeadlinesAreCounted : Prop :=
  (∀ (e lane : Nat) (l : List (Nat × Nat)) (s : State), Inv s → e < 32 → (s.paceEntry e lane).isSome = true →
    (∀ x, (Map.findD s.pace.overruns e []).head? = some x → x.1 ≠ s.now) →
    l = ((s.now, Map.findD s.pace.turns e 0) :: Map.findD s.pace.overruns e []).take 10 →
    (paceFault l = false → ∃ t, exec (.engineOverrun e lane) s = .next t ∧
      t.fld (F.PACE_OVR_CNT.COUNT e) = min (s.fld (F.PACE_OVR_CNT.COUNT e) + 1) 0xFFFF ∧
      t.fld (F.PACE_OVR_LAST.PACE e) = s.now % 2 ^ 32 ∧ Map.findD t.pace.overruns e [] = l ∧
      OnlyRegs [R.PACE_OVR_CNT e, R.PACE_OVR_LAST e] s t ∧
      t = { s.post Ev.PACE_OVERRUN [b2 e, b8 s.now] with
        regs := t.regs, pace := { s.pace with overruns := t.pace.overruns } }) ∧
    (paceFault l = true → ∃ t, exec (.engineOverrun e lane) s = .next t ∧
      (t.regs.get R.PACE_FAULT).getLsbD e = true ∧ t.hlt.fatal = (s.hlt.fatal <|> some ⟨3, lane, e, 0⟩) ∧
      OnlyRegs [R.PACE_OVR_CNT e, R.PACE_OVR_LAST e, R.PACE_FAULT] s t ∧
      t.evt = ((s.post Ev.PACE_OVERRUN [b2 e, b8 s.now]).post Ev.PACE_FAULT []).evt)) ∧
  (∀ (e lane began : Nat) (x : PaceEntry) (s : State), Inv s → e < 32 → s.paceEntry e lane = some x →
    0 < x.deadline → began + x.deadline ≤ s.now →
    ∃ t, exec (.jobDeadlineMiss e lane began) s = .next t ∧
      t.fld (F.PACE_DL_CNT.COUNT e) = min (s.fld (F.PACE_DL_CNT.COUNT e) + 1) 0xFFFF ∧ OnlyRegs [R.PACE_DL_CNT e] s t ∧
      t = { s.post Ev.PACE_DEADLINE [b2 e, b8 s.now] with regs := t.regs }) ∧
  (∀ l : List (Nat × Nat), paceFault l = true ↔
    (∃ a b c m, l = a :: b :: c :: m ∧ a.2 = b.2 + 1 ∧ b.2 = c.2 + 1) ∨
    (∃ a z, l.head? = some a ∧ l[9]? = some z ∧ a.1 ≤ z.1 + 999))

/-- R40: at its apply pace the scheduled image becomes the active one, and the plans of the front end and of the points
change; one whose sealed change is not permitted then is refused with WARP_SEALED, loses its schedule and is recorded;
before its pace nothing happens to it. -/
def Obligations.ScheduledImageAppliesAtItsPace : Prop :=
  ∀ (bad : List (Nat × Nat)) (badLegal : List Nat) (w : WarpImage) (p : Nat) (s : State), s.warp.waiting = some w →
    s.warp.sched = some p →
    (s.now < p → exec (.applyScheduledImage bad badLegal) s = .next s) ∧
    (p ≤ s.now → (sealedDiffers s.warp.active w = false ∨ s.sealedAllowed = true) →
      ∃ t, exec (.applyScheduledImage bad badLegal) s = .next t ∧ t.warp.active = some w ∧
        t.pace.count = s.pace.count ∧ t.pending = s.pending ∧ s.out <+: t.out ∧ (Inv s → Inv t) ∧
        t = ((s.installImage w bad).changeOver s.sensorPlan s.qtyPlan false badLegal).resetAfterApply badLegal) ∧
    (p ≤ s.now → sealedDiffers s.warp.active w = true → s.sealedAllowed = false → Inv s →
      ∃ t, exec (.applyScheduledImage bad badLegal) s = .next t ∧
        t.warp = { s.warp with sched := none, refused := true } ∧ t.fld F.SYS_WARP_STAT.CAUSE = Cause.WARP_SEALED ∧
        OnlyRegs [R.SYS_WARP_STAT] s t ∧
        t = { s.post Ev.WARP_REJECTED [b8 w.serial.toNat, b2 Cause.WARP_SEALED] with warp := t.warp, regs := t.regs })

/-- R45, R46, R470: the lock is taken while it is free, with an empty set; its owner releases it, which discards what is
staged, discards what is staged, or requests a commit of what is staged, judged in quantum 15 of this pace or of the next
when that quantum has begun. RELEASE and DISCARD withdraw a pending commit. Nothing else changes but the ledger entry of
an active member and the cause that the requester is told. By a context that does not own the lock, or while it is free,
RELEASE, GO and DISCARD, and ACQUIRE while it is held, are refused with STAGE_LOCKED and have no effect. -/
def Obligations.StageLockAndCommitRequests : Prop :=
  (∀ (who : Requester) (c : Nat) (s : State), Inv s → MayWrite s who R.SYS_STAGE_LOCK → s.actsAs who = some c →
    s.stage.owner = none →
    exec (.stageAcquire who) s = .next { enteredBit s who R.SYS_STAGE_LOCK 0 with
      stage := { s.stage with owner := some c, set := [], touched := s.now }
      out := s.out ++ [.regCause who R.SYS_STAGE_LOCK Cause.OK] }) ∧
  (∀ (who : Requester) (c : Nat) (s : State), Inv s → MayWrite s who R.SYS_STAGE_LOCK → s.actsAs who = some c →
    s.stage.owner = some c →
    exec (.stageRelease who) s = .next { enteredBit s who R.SYS_STAGE_LOCK 1 with
      stage := { s.stage.withdraw with owner := none, set := [] }
      out := s.out ++ [.regCause who R.SYS_STAGE_LOCK Cause.OK] }) ∧
  (∀ (who : Requester) (c : Nat) (s : State), Inv s → MayWrite s who R.SYS_COMMIT → s.actsAs who = some c →
    s.stage.owner = some c → s.stage.set ≠ [] →
    exec (.commitGo who) s = .next { enteredBit s who R.SYS_COMMIT 0 with
      stage := { s.stage with
        state := .pending, accepted := false, touched := s.now
        checkAt := if s.pace.quantum < 15 then s.now else s.now + 1 }
      out := s.out ++ [.regCause who R.SYS_COMMIT Cause.OK] }) ∧
  (∀ (who : Requester) (c : Nat) (s : State), Inv s → MayWrite s who R.SYS_COMMIT → s.actsAs who = some c →
    s.stage.owner = some c → s.stage.set = [] →
    exec (.commitGo who) s = .next { enteredBit s who R.SYS_COMMIT 0 with
      out := s.out ++ [.regCause who R.SYS_COMMIT Cause.COMMIT_EMPTY] }) ∧
  (∀ (who : Requester) (c : Nat) (s : State), Inv s → MayWrite s who R.SYS_COMMIT → s.actsAs who = some c →
    s.stage.owner = some c →
    exec (.commitDiscard who) s = .next { enteredBit s who R.SYS_COMMIT 1 with
      stage := { s.stage.withdraw with set := [] }
      out := s.out ++ [.regCause who R.SYS_COMMIT Cause.OK] }) ∧
  (∀ g : StageState, (g.state = .pending → g.withdraw = { g with state := .idle, accepted := false }) ∧
    (g.state ≠ .pending → g.withdraw = g)) ∧
  (∀ (who : Requester) (s : State), Inv s →
    (MayWrite s who R.SYS_STAGE_LOCK → s.stage.owner ≠ none →
      exec (.stageAcquire who) s = .next { enteredBit s who R.SYS_STAGE_LOCK 0 with
        out := s.out ++ [.regCause who R.SYS_STAGE_LOCK Cause.STAGE_LOCKED] }) ∧
    (MayWrite s who R.SYS_STAGE_LOCK → (s.stage.owner = none ∨ s.stage.owner ≠ s.actsAs who) →
      exec (.stageRelease who) s = .next { enteredBit s who R.SYS_STAGE_LOCK 1 with
        out := s.out ++ [.regCause who R.SYS_STAGE_LOCK Cause.STAGE_LOCKED] }) ∧
    (MayWrite s who R.SYS_COMMIT → (s.stage.owner = none ∨ s.stage.owner ≠ s.actsAs who) →
      exec (.commitGo who) s = .next { enteredBit s who R.SYS_COMMIT 0 with
        out := s.out ++ [.regCause who R.SYS_COMMIT Cause.STAGE_LOCKED] } ∧
      exec (.commitDiscard who) s = .next { enteredBit s who R.SYS_COMMIT 1 with
        out := s.out ++ [.regCause who R.SYS_COMMIT Cause.STAGE_LOCKED] }))


/-- R45, R46, R475: the timeout releases the lock, discards what is staged and tells the owner; the check accepts a
pending commit, or rejects it with its first failing register, keeping what is staged; at the boundary every staged value
of an accepted commit is laid over its register at once, the lock is released and the owner told. -/
def Obligations.CommitsAreCheckedAndApplied : Prop :=
  (∀ (c : Nat) (s : State), s.stage.owner = some c → s.stageExpired = true →
    exec .stageTimeout s = .next (({ s with stage := { s.stage.withdraw with owner := none, set := [] } } : State).notify c
      0x8002 [causeDetail Cause.STAGE_TIMEOUT 0] false)) ∧
  (∀ s : State, s.stage.state ≠ .pending ∨ s.stage.accepted = true ∨ s.now < s.stage.checkAt →
    exec .commitCheck s = .next { s with pace := { s.pace with quantum := 15 } }) ∧
  (∀ s : State, s.stage.state = .pending → s.stage.accepted = false → s.stage.checkAt ≤ s.now → s.commitFault = none →
    exec .commitCheck s = .next { s with
      pace := { s.pace with quantum := 15 }, stage := { s.stage with accepted := true } }) ∧
  (∀ (c a : Nat) (s : State), s.stage.owner = some c → s.stage.state = .pending → s.stage.accepted = false →
    s.stage.checkAt ≤ s.now → s.commitFault = some a →
    exec .commitCheck s = .next (({ s with
      pace := { s.pace with quantum := 15 }
      regs := ((s.regs.setF F.SYS_COMMIT_STAT.CAUSE Cause.COMMIT_INCONSISTENT).put R.SYS_COMMIT_ADDR
        (BitVec.ofNat 32 a)).setF F.SYS_COMMIT_PACE.PACE s.now
      stage := { s.stage with state := .rejected } } : State).notify c 0x8002
        [causeDetail Cause.COMMIT_INCONSISTENT a] false)) ∧
  (∀ (c : Nat) (s : State), s.stage.owner = some c → s.stage.state = .pending → s.stage.accepted = true →
    s.stage.checkAt < s.now →
    exec .commitApply s = .next ((({ s with
      regs := ((s.stage.set.foldl (fun (m : RegFile) e => m.put e.1 (mergeWord (m.get e.1) e.2.value e.2.mask))
        s.regs).setF F.SYS_COMMIT_STAT.CAUSE 0).setF F.SYS_COMMIT_PACE.PACE s.now
      stage := { s.stage with owner := none, set := [], state := .applied, accepted := false } } : State).afterCommit
        s.stage.set).notify c 0x8002 [causeDetail Cause.OK 0] false))

/-! ### Hosts: waybills, sessions, commands, tasks and notices (R48 to R73, R426, R466) -/

/-- R49, R53, R288, R426, R466, R473: the oldest waybill that has arrived is judged: in the service state a command is
answered SERVICE_STATE; one that is not from the link its context is bound to, or whose header is not whole, is counted and
dropped, not counted where it names no context; one whose protection fails is also recorded; a command of one part whose
body keeps the rules of its command joins the inbox of the engine that serves it, and another is refused. Parts of a
message that is not whole after 2,000 paces are dropped and the command answered PART_TIMEOUT. The USB port takes one clear
waybill of the service seat with CONTEXT 0 and a command of the seat's, which is judged as a message of the seat; any other
command is answered RIGHTS. -/
def Obligations.WaybillsAreJudgedInOrder : Prop :=
  (∀ (w : Waybill) (l : List Waybill) (s : State), s.host.arrived = w :: l → s.power.phase = .service → w.type = 1 →
    s.withholds = false → exec .waybillPart s = .next ({ s with
      host := { s.host with arrived := l }
      out := s.out ++ [.waybill (OutWaybill.cut ⟨w.context, 2, true, false, w.opcode, w.seq, 0, Cause.SERVICE_STATE, 0, 0,
        0, [], []⟩ [] [0])] })) ∧
  (∀ (w : Waybill) (l : List Waybill) (e : HostEntry) (s : State), Inv s → s.host.arrived = w :: l →
    s.power.phase = .run → s.hostEntry w.context = some e → w.context < 8 → (e.bound w.link && w.headerOk) = false →
    (w.bytes.length < 6 → exec .waybillPart s = .next { s with host := { s.host with arrived := l } }) ∧
    (6 ≤ w.bytes.length → ∃ t, exec .waybillPart s = .next t ∧
      t.fld (F.HOST_AUTH_FAIL.COUNT w.context) =
        min (s.fld (F.HOST_AUTH_FAIL.COUNT w.context) + 1) 0xFFFF ∧
      OnlyRegs [R.HOST_AUTH_FAIL w.context] s t ∧
      t = { s with regs := t.regs, host := { s.host with arrived := l } })) ∧
  (∀ (w : Waybill) (l : List Waybill) (e : HostEntry) (s : State), Inv s → s.host.arrived = w :: l →
    s.power.phase = .run → s.hostEntry w.context = some e → w.context < 8 → (e.bound w.link && w.headerOk) = true →
    ({ s with host := { s.host with arrived := l } } : State).protect w = none →
    ∃ t, exec .waybillPart s = .next t ∧
      t.fld (F.HOST_AUTH_FAIL.COUNT w.context) =
        min (s.fld (F.HOST_AUTH_FAIL.COUNT w.context) + 1) 0xFFFF ∧
      OnlyRegs [R.HOST_AUTH_FAIL w.context] s t ∧
      t = { s.post Ev.HOST_AUTH_FAIL [] with regs := t.regs, host := { s.host with arrived := l } }) ∧
  (∀ (w : Waybill) (l : List Waybill) (e : HostEntry) (b : List Byte) (tlvs : List Tlv) (v s : State),
    s.host.arrived = w :: l → s.power.phase = .run → s.hostEntry w.context = some e → w.context < 8 →
    (e.bound w.link && w.headerOk) = true →
    ({ s with host := { s.host with arrived := l } } : State).protect w = some (v, b) → w.parts = 1 →
    bodyTlvs b = some tlvs → (tlvs.any fun t => decide (0x8000 ≤ t.type)) = false → w.type = 1 →
    opcodes.contains w.opcode = true →
    (bodyOk w.opcode tlvs = false → exec .waybillPart s = .next (v.refuse (w.msg b) Cause.BAD_FORMAT)) ∧
    (bodyOk w.opcode tlvs = true → outsideSequence w.opcode = true → exec .waybillPart s =
      .next { v with host := { v.host with inbox := v.host.inbox ++ [w.msg b] } }) ∧
    (bodyOk w.opcode tlvs = true → outsideSequence w.opcode = false → v.roleNow ≠ 1 → v.roleNow ≠ 3 →
      ∃ t, exec .waybillPart s = .next t ∧ t.host = { v.host with inbox := v.host.inbox ++ [w.msg b] } ∧
        t = { v.record (.waybill (v.fld F.PAIR_STAT.MEMBER) (w.msg b)) with host := t.host })) ∧
  (∀ s : State, ∃ t, exec .partTimeout s = .next t ∧ t = (List.range 9).foldl State.expireParts s) ∧
  (∀ (c : Nat) (u : State), (∀ b ∈ (u.ctx c).parts, u.now < b.began + 2000) → u.expireParts c = u) ∧
  (∀ (c : Nat) (b : PartBuffer) (u : State), (u.ctx c).parts = [b] → b.began + 2000 ≤ u.now → (b.first.msg []).ack = false →
    u.expireParts c = (u.setCtx c { u.ctx c with parts := [] }).refuse (b.first.msg []) Cause.PART_TIMEOUT) ∧
  (∀ (c : Nat) (b : PartBuffer) (s : State), c < 9 →
    (∀ d < 9, d ≠ c → ∀ x ∈ (s.ctx d).parts, s.now < x.began + 2000) →
    (s.ctx c).parts = [b] → b.began + 2000 ≤ s.now → (b.first.msg []).ack = false →
    exec .partTimeout s =
      .next ((s.setCtx c { s.ctx c with parts := [] }).refuse (b.first.msg []) Cause.PART_TIMEOUT)) ∧
  (∀ (w : Waybill) (s : State) (v : Waybill) (m : Msg), v = { w with link := .usb } → m = v.msg v.piece →
    s.usbOn = true → s.receives = true → v.headerOk = true → v.clear = true → v.context = 0 → v.type = 1 → v.parts = 1 →
    m.seat = 8 ∧ m.here = true ∧
    (seatCommand m.opcode = true → exec (.usbWaybill w) s = .next (s.judgeBody m)) ∧
    (seatCommand m.opcode = false → s.withholds = false → s.hostEntry 8 = none → exec (.usbWaybill w) s = .next { s with
      out := s.out ++ [.waybill (OutWaybill.cut ⟨8, 2, true, false, m.opcode, m.seq, 0, Cause.RIGHTS, 0, 0, 0, [], []⟩ []
        [65503])] }))

/-- R54, R55, R56, R58, R71: SESSION_OPEN opens a handshake with a free session number, nonce and ephemeral key, whose keys
come from Z and TH and whose RESP carries the link key's signature over TH; a key index of no host key is answered
HOST_KEY. SESSION_CONFIRM whose signature verifies makes it the context's session; one whose signature fails discards it.
SESSION_CLOSE and HOST_CLOSE close the session; a handshake is discarded after 10,000 paces and a session after
SESSION_LIFE seconds, those of no other context; IDENTITY returns the statement; HOST_RESEND sends the unacknowledged
notices again. -/
def Obligations.SessionsOpenAndClose : Prop :=
  (∀ (m : Msg) (e : HostEntry) (s : State), Waits s 0x0001 m → s.keysReady = true → s.randomOk = true →
    s.hostEntry m.seat = some e →
    (e.keys.length ≤ m.openKey →
      exec (.sessionOpen m) s = .next ((taken s m).resp m false 0 Cause.HOST_KEY [])) ∧
    (m.openKey < e.keys.length →
      ((taken s m).setCtx m.seat { (taken s m).ctx m.seat with handshake := none }).poolHas 2 = true →
      ∃ (v : State) (no d : Nat) (body : List Tlv) (th : List Byte) (k : List Byte × List Byte),
        v = { taken s m with drawn := s.drawn + 3 } ∧
        no = newSessionNo (Config.free (s.drawn + 2)) ((taken s m).ctx m.seat).session ∧
        1 ≤ no ∧ no ≤ 65535 ∧ (∀ x, ((taken s m).ctx m.seat).session = some x → no ≠ x.no) ∧
        d = 1 + Config.free s.drawn % (p256N - 1) ∧
        body = [sessionTlv 0 (4 :: ecBytes (ecMul d p256G)), sessionTlv 1 (beBytes 16 (Config.free (s.drawn + 1))),
          sessionTlv 2 (beBytes 2 no), sessionTlv 3 (beBytes 4 ((taken s m).ctx m.seat).journalled.toNat),
          sessionTlv 4 (beBytes 4 s.evt.pwrCycles.toNat)] ∧
        th = sha256Bytes (m.body ++ bodyBytes body) ∧ k = sessionKeys ((ecdh d m.openPoint).getD []) th ∧
        exec (.sessionOpen m) s = .next ((v.setCtx m.seat { v.ctx m.seat with
            handshake := some ⟨no, m.openKey, s.now, th, k.1, k.2, 0, [], 0⟩ }).showSlots.resp m false 0 0
          (body ++ [sessionTlv 5 (ecdsaSign (linkPrivate s.enrol) th)])))) ∧
  (∀ (m : Msg) (h : Handshake) (s : State), Waits s 0x0002 m → ((taken s m).ctx m.seat).handshake = some h →
    (m.clear = true ∨ m.session = h.no) →
    ((taken s m).confirmed m h = true → exec (.sessionConfirm m) s = .next
      (((((taken s m).setCtx m.seat { (taken s m).ctx m.seat with
          session := some ⟨h.no, s.now, h.h2d, h.d2h, h.top, h.accepted, h.sent⟩
          handshake := none }).showSlots.resp m false 0 0 []).resendAll m.seat).pump m.seat)) ∧
    ((taken s m).confirmed m h = false → ∃ t u, exec (.sessionConfirm m) s = .next t ∧
      u = (taken s m).refuse m Cause.HOST_KEY ∧ (t.ctx m.seat) = { u.ctx m.seat with handshake := none } ∧
      OnlyRegs [R.KEY_SLOTS] u t ∧ t = { u with host := t.host, regs := t.regs })) ∧
  (∀ (m : Msg) (v : Session) (s : State), Waits s 0x0003 m → ((taken s m).ctx m.seat).session = some v →
    ∃ t u, exec (.sessionClose m) s = .next t ∧ u = (taken s m).resp m false 0 0 [] ∧
      t.ctx m.seat = { u.ctx m.seat with session := none } ∧ (∀ c, c ≠ m.seat → t.ctx c = u.ctx c) ∧
      OnlyRegs [R.KEY_SLOTS] u t ∧ t = { u with host := t.host, regs := t.regs }) ∧
  (∀ (m : Msg) (s : State), Waits s 0x0004 m →
    exec (.identity m) s = .next ((taken s m).resp m false 0 0
      (if s.host.identity then [sessionTlv 6 (taken s m).identityStatement] else []))) ∧
  (∀ s : State, ∃ t, exec .handshakeTimeout s = .next t ∧ OnlyRegs [R.KEY_SLOTS] s t ∧
    t = { s with regs := t.regs, host := { s.host with ctxs := t.host.ctxs } } ∧
    ∀ c x, Map.find s.host.ctxs c = some x → Map.find t.host.ctxs c = some (match x.handshake with
      | some h => if h.began + 10000 ≤ s.now then { x with handshake := none } else x
      | none => x)) ∧
  (∀ s : State, ∃ t, exec .sessionLifeExpiry s = .next t ∧ OnlyRegs [R.KEY_SLOTS] s t ∧
    t = { s with regs := t.regs, host := { s.host with ctxs := t.host.ctxs } } ∧
    ∀ c < 8, (t.ctx c) = match s.hostEntry c, (s.ctx c).session with
      | some e, some v => if v.opened + e.sessionLife * 1000 ≤ s.now then { s.ctx c with session := none } else s.ctx c
      | _, _ => s.ctx c) ∧
  (∀ (who : Requester) (c : Nat) (s : State), Inv s → c < 8 → MayWrite s who (R.HOST_CTL c) →
    ∃ t, exec (.hostClose who c) s = .next t ∧ t.ctx c = { s.ctx c with session := none } ∧
      (∀ d, d ≠ c → t.ctx d = s.ctx d) ∧ t.out = s.out ++ [.regCause who (R.HOST_CTL c) Cause.OK] ∧
      OnlyRegs [R.KEY_SLOTS] s t ∧
      t = { enteredBit s who (R.HOST_CTL c) 0 with host := t.host, regs := t.regs, out := t.out }) ∧
  (∀ (who : Requester) (c : Nat) (s : State), Inv s → c < 8 → MayWrite s who (R.HOST_CTL c) →
    exec (.hostResend who c) s = .next ((((enteredBit s who (R.HOST_CTL c) 1).resendAll c).pump c).send
      (.regCause who (R.HOST_CTL c) Cause.OK))) ∧
  (∀ (c : Nat) (u : State), u.reachable c = true → u.fld F.PAIR_STAT.ROLE ≠ 1 →
    u.resendAll c = ((u.ctx c).notices.filter fun n => n.sent).foldl (fun t n => t.sendNotice c n) u)

/-- R50, R59, R63 to R66: a task command taken as new, from a seat with the right its row names, whose items R63 admits and
have the form their definition states, opens a task, begins its items in order with the meaning of its own command, and is
answered. -/
def Obligations.TaskCommandsRunTheirItems : Prop :=
  (∀ row ∈ ([(0x0011, none, Instr.regWrite, runRegWrite), (0x0040, some 5, .meterWrite, runMeterWrite),
      (0x0041, some 4, .readingsPush, runReading), (0x0042, some 3, .readingsGet, runReadSpan),
      (0x0050, some 6, .tariffLoad, runTariffItem), (0x0051, some 3, .billingGet, runBillReq),
      (0x0060, some 7, .tokenSubmit, runTokenItem), (0x0070, some 8, .balanceGet, runBalanceItem),
      (0x0080, some 9, .fwBlock, runFwBlock), (0x0090, some 13, .bulkRead, runBulkSpan),
      (0x0091, some 14, .bulkWrite, runBulkSector), (0x0092, some 14, .bulkDiscard, runBulkTrim),
      (0x00A0, some 15, .timeSet, runTimeSet), (0x00C0, some 12, .eventRead, runEventSpan),
      (0x00E0, some 16, .pairSwitch, runPairSwitch), (0x00F0, some 20, .resetCmd, runReset)] :
      List (Nat × Option Nat × (Msg → Instr) × (State → ItemRef → Tlv → State × ItemEnd))),
    ∀ (m : Msg) (s : State), Served s row.1 m → (∀ b, row.2.1 = some b → (begun s m).hasRight m.seat b = true) →
      Admits (begun s m) m itemOk (itemsOf row.1 m.tlvs) →
      exec (row.2.2.1 m) s = .next (ran (begun s m) m row.2.2.2 (itemsOf row.1 m.tlvs))) ∧
  (∀ (m : Msg) (s : State),
    (∀ image, Served s 0x0030 m → (begun s m).hasRight m.seat 11 = true → Admits (begun s m) m (fun _ => true) [⟨0, []⟩] →
      exec (.warpLoad m image) s = .next (ran (begun s m) m (runWarpLoad (parseWarp image)) [⟨0, []⟩])) ∧
    (∀ p, Served s 0x0031 m → (begun s m).hasRight m.seat 11 = true → Admits (begun s m) m (fun _ => true) [⟨0, []⟩] →
      exec (.warpApply m p) s = .next (ran (begun s m) m (runWarpApply p) [⟨0, []⟩])) ∧
    (s.randomOk = true ∨ (m.tlvs.any fun t => t.type == 0x008B) = false → Served s 0x0081 m →
      (begun s m).hasRight m.seat 10 = true → Admits (begun s m) m itemOk (itemsOf 0x0081 m.tlvs) →
      exec (.fwMeter m) s = .next (ran (begun s m) m runFwMeter (itemsOf 0x0081 m.tlvs))) ∧
    (∀ (readBack : Bool) (levels : BitVec 8) (u : State), u = s.setF F.PRT_TAMP_STAT.LEVEL levels.toNat →
      Served u 0x00B0 m → (begun u m).hasRight m.seat 17 = true → Admits (begun u m) m itemOk (itemsOf 0x00B0 m.tlvs) →
      exec (.attest m readBack levels) s = .next (ran (begun u m) m
        (fun u r v => if v.type = 0x00B0 then runAttestReq readBack u r v else runEnrol u r) (itemsOf 0x00B0 m.tlvs))) ∧
    (∀ readable : Bool, Served s 0x00D0 m → (begun s m).hasRight m.seat 18 = true →
      Admits (begun s m) m itemOk (itemsOf 0x00D0 m.tlvs) →
      exec (.dumpRead m readable) s = .next (ran (begun s m) m (runDump readable) (itemsOf 0x00D0 m.tlvs))))

/-- R50, R60, R61: a command beyond the bucket of its context is answered BUSY_RATE; one at or below HIGH − 64, or whose
body differs from the journalled one, is answered so; a repeat whose RESP is not sent is dropped, and one whose RESP is
kept is answered again with REPEAT; a command that needs a right its seat lacks is answered RIGHTS: none has any other
effect. R61: the judgement of a sequence number against HIGH in serial arithmetic, the journal and the kept RESPs; and a
command executed as new raises HIGH to its sequence exactly where that lies above. -/
def Obligations.HostCommandsAreJudgedBeforeTheyRun : Prop :=
  (∀ row ∈ ([(0x0010, none, Instr.regRead), (0x0011, none, .regWrite), (0x0020, none, .taskQuery),
      (0x0021, none, .taskCancel), (0x0040, some 5, .meterWrite), (0x0041, some 4, .readingsPush),
      (0x0042, some 3, .readingsGet), (0x0050, some 6, .tariffLoad), (0x0051, some 3, .billingGet),
      (0x0060, some 7, .tokenSubmit), (0x0070, some 8, .balanceGet), (0x0080, some 9, .fwBlock),
      (0x0090, some 13, .bulkRead), (0x0091, some 14, .bulkWrite), (0x0092, some 14, .bulkDiscard),
      (0x00A0, some 15, .timeSet), (0x00C0, some 12, .eventRead), (0x00E0, some 16, .pairSwitch),
      (0x00F0, some 20, .resetCmd)] : List (Nat × Option Nat × (Msg → Instr))),
  ∀ (m : Msg) (s : State), m.opcode = row.1 → s.host.inbox.contains m = true →
    (m.seat ≠ 8 → s.rateOk m.seat = false → exec (row.2.2 m) s = .next
      (({ s with host := { s.host with inbox := s.host.inbox.erase m } } : State).busy m Cause.BUSY_RATE)) ∧
    ((m.seat = 8 ∨ s.rateOk m.seat = true) →
      (∀ c, (taken s m).judgeSeq m = .answer c → exec (row.2.2 m) s = .next ((taken s m).resp m false 0 c [])) ∧
      ((taken s m).judgeSeq m = .drop → exec (row.2.2 m) s = .next (taken s m)) ∧
      (∀ op h c b, (taken s m).judgeSeq m = .again op h c b → exec (row.2.2 m) s = .next
        (((taken s m).bump (F.HOST_REPEAT_CNT.COUNT m.seat)).resp { m with opcode := op } true (BitVec.ofNat 32 h) c b)) ∧
      (∀ b, row.2.1 = some b → (taken s m).judgeSeq m = .fresh → (begun s m).hasRight m.seat b = false →
        exec (row.2.2 m) s = .next ((begun s m).resp m false 0 Cause.RIGHTS [])))) ∧
  (∀ (m : Msg) (s : State), m.seat ≠ 8 →
    ((m.seq - (s.ctx m.seat).high).toInt ≤ -64 → s.judgeSeq m = .answer Cause.SEQ_STALE) ∧
    (-64 < (m.seq - (s.ctx m.seat).high).toInt →
      (∀ j, (s.host.journal.find? fun j => j.seat == m.seat && j.seq == m.seq) = some j →
        s.judgeSeq m = if j.digest ≠ m.digest then .answer Cause.SEQ_CONFLICT
          else match j.resp with | none => .drop | some b => .again j.opcode j.handle 0 b) ∧
      ((s.host.journal.find? fun j => j.seat == m.seat && j.seq == m.seq) = none →
        (m.rep = false → s.judgeSeq m = .fresh) ∧
        (m.rep = true → ∀ k, ((s.ctx m.seat).kept.find? fun k => k.seq == m.seq) = some k →
          s.judgeSeq m = if k.digest ≠ m.digest then .answer Cause.SEQ_CONFLICT else .again 0x0010 0 k.cause k.body) ∧
        (m.rep = true → ((s.ctx m.seat).kept.find? fun k => k.seq == m.seq) = none → s.judgeSeq m = .fresh))) ∧
    ((s.raiseHigh m).ctx m.seat).high =
      (if 0 < (m.seq - (s.ctx m.seat).high).toInt then m.seq else (s.ctx m.seat).high))

/-- R64: the handle of a task holds its slot in bits 11:0 and its generation in bits 31:12; the generation of a slot is
raised each time the slot is reused and skips 0, so that a handle is never 0; a handle names the task in flight in its
slot of the same context and generation, and a query or a cancel that names none is answered TASK_UNKNOWN. -/
def Obligations.TaskHandlesHoldSlotAndGeneration : Prop :=
  (∀ slot gen : Nat, slot < 4096 → gen < 2 ^ 20 → handleOf slot gen < 2 ^ 32 ∧ handleOf slot gen % 4096 = slot ∧
    handleOf slot gen / 4096 = gen) ∧
  (∀ (slot : Nat) (s : State), 0 < s.nextGen slot ∧ s.nextGen slot < 2 ^ 20 ∧
    (Map.findD s.host.gens slot 0 + 1 < 2 ^ 20 → s.nextGen slot = Map.findD s.host.gens slot 0 + 1) ∧
    handleOf slot (s.nextGen slot) ≠ 0) ∧
  (∀ (seat handle slot : Nat) (k : Task) (s : State), s.taskOf seat handle = some (slot, k) ↔
    slot = handle % 4096 ∧ Map.find s.host.tasks slot = some k ∧ k.seat = seat ∧ handleOf slot k.gen = handle) ∧
  (∀ (m : Msg) (items : List Tlv) (s : State), (s.openTask m items).2 = s.freeSlot ∧
    Map.find (s.openTask m items).1.host.gens s.freeSlot = some (s.nextGen s.freeSlot) ∧
    (Map.find (s.openTask m items).1.host.tasks s.freeSlot).map (fun t => (t.gen, t.seat, t.items, t.todo)) =
      some (s.nextGen s.freeSlot, m.seat, items, List.range items.length)) ∧
  (∀ (m : Msg) (s : State), Served s 0x0020 m → (begun s m).taskOf m.seat m.task.toNat = none →
    exec (.taskQuery m) s = .next ((begun s m).resp m false 0 Cause.TASK_UNKNOWN [])) ∧
  (∀ (m : Msg) (s : State), Served s 0x0021 m → (begun s m).taskOf m.seat m.task.toNat = none →
    exec (.taskCancel m) s = .next ((begun s m).resp m false 0 Cause.TASK_UNKNOWN []))

/-- R59, R61, R64, R66, R67, R71, R477: REG_READ reads its registers in order, keeps its RESP and answers; TASK_QUERY
returns the outcomes of a task in flight; TASK_CANCEL marks it; an item begins or the outcomes are reported; an ACK
releases what it acknowledges and notices that then fit the window go; due notices are sent again. -/
def Obligations.ReadsQueriesItemsAndNotices : Prop :=
  (∀ (m : Msg) (s : State), Served s 0x0010 m → m.here = true →
    ((begun s m).hasRight m.seat 0 = false → exec (.regRead m) s =
      .next (((begun s m).keepResp m Cause.RIGHTS []).resp m false 0 Cause.RIGHTS [])) ∧
    ((begun s m).hasRight m.seat 0 = true →
      ∃ v body, (v, body) = (itemsOf 0x0010 m.tlvs).foldl (State.readEntry m.who) (begun s m, []) ∧
        exec (.regRead m) s = .next ((v.keepResp m Cause.OK body).resp m false 0 Cause.OK body))) ∧
  (∀ (m : Msg) (slot : Nat) (k : Task) (s : State), Served s 0x0020 m →
    (begun s m).taskOf m.seat m.task.toNat = some (slot, k) → (m.seat ≠ 8 ∨ k.allEnded = false) →
    exec (.taskQuery m) s = .next ((begun s m).resp m false m.task 0
      (itemRuns k.ended ++ [taskSummary k.ended] ++ k.returned))) ∧
  (∀ (m : Msg) (k : Nat × Task) (s : State), Served s 0x0021 m → (begun s m).taskOf m.seat m.task.toNat = some k →
    Admits (begun s m) m (fun _ => true) [⟨0, []⟩] →
    exec (.taskCancel m) s = .next (ran (begun s m) m
      (fun u _ _ => (u.adjustTask k.1 fun k => { k with cancel := some u.now }, .done none)) [⟨0, []⟩])) ∧
  (∀ (slot : Nat) (readBack readable : Bool) (t : Task) (k : Nat) (l : List Nat) (s : State),
    Map.find s.host.tasks slot = some t → t.todo = k :: l →
    exec (.taskItemEnd slot readBack readable) s = .next ((s.beginItem (runOf t.opcode readBack readable)
      (t.msg (s.localClear t.seat)) slot k).report slot)) ∧
  (∀ s : State, ∃ t, exec .taskItemsNotice s = .next t ∧ t = s.host.tasks.foldl (fun t e => t.reportDue e.1) s ∧
    ((∀ e ∈ s.host.tasks, e.2.reported = e.2.ended.length) → Map.sorted s.host.tasks = true → t = s)) ∧
  (∀ (m : Msg) (s : State), m.ack = true → s.host.inbox.contains m = true →
    exec (.ack m) s = .next (({ s with host := { s.host with inbox := s.host.inbox.erase m } } : State).takeAck m)) ∧
  (∀ (m : Msg) (u : State), (∀ n ∈ (u.ctx m.seat).notices, n.kind ≠ 0x8001) → (u.ctx m.seat).full = false →
    ∃ init sack, init = u.fld (F.HOST_RESEND.INIT_MS m.seat) ∧
      sack = (match m.tlvs.find? fun t => t.type == 5 with | some t => beVal t.value | none => 0) ∧
      u.takeAck m = (u.setCtx m.seat { u.ctx m.seat with
        notices := ((u.ctx m.seat).notices.filter fun n => !(u.ctx m.seat).acked m.seq sack n).map fun n =>
          if n.sent then { n with nextAt := u.now + init, interval := init } else n }).pump m.seat) ∧
  (∀ s : State, ∃ t, exec .noticeResend s = .next t ∧ t = (List.range 8).foldl State.resendDue s ∧
    ((∀ c < 8, s.reachable c = false) → t = s))

/-! ### The front end (R74 to R99) -/

/-- R76: 32 consecutive samples out of range set FAULT and FAULT_SEEN of the input and record EV_SENSOR_FAULT; 1,000 paces
of 32 samples within range clear FAULT alone. No other register changes. -/
def Obligations.SensorFaultsAreEnteredAndLeft : Prop :=
  ∀ (i : Nat) (s : State), Inv s → i < 48 →
    (32 ≤ (Map.findD s.met.sensors i {}).outRun → s.fld (F.MET_SENS_STAT.FAULT i) = 0 →
      ∃ t, exec (.sensorFault i) s = .next t ∧ t.fld (F.MET_SENS_STAT.FAULT i) = 1 ∧
        t.fld (F.MET_SENS_STAT.FAULT_SEEN i) = 1 ∧ OnlyRegs [R.MET_SENS_STAT i] s t ∧
        t = { s.post Ev.SENSOR_FAULT [] with regs := t.regs }) ∧
    (32000 ≤ (Map.findD s.met.sensors i {}).inRun → s.fld (F.MET_SENS_STAT.FAULT i) = 1 →
      ∃ t, exec (.sensorFaultClear i) s = .next t ∧ t.fld (F.MET_SENS_STAT.FAULT i) = 0 ∧
        t.fld (F.MET_SENS_STAT.FAULT_SEEN i) = s.fld (F.MET_SENS_STAT.FAULT_SEEN i) ∧
        OnlyRegs [R.MET_SENS_STAT i] s t ∧ t = { s with regs := t.regs })

/-- R82, R86, R87, R96, R98: each sample of the inputs is taken, and before READY no sample is delivered; from READY on
each sample delivers exactly one sample of every channel. A window of 60,000 paces is closed and opened again. The front
end becomes READY, with channel state cleared, 8 paces after the clock locked. -/
def Obligations.SamplesWindowsAndReady : Prop :=
  (∀ (raw : List RawSample) (s : State), s.fld F.MET_STAT.READY = 0 →
    ∃ t, exec (.metrologySample raw) s = .next t ∧ t = s.sampleInputs s.sensorPlan raw ∧
      t.met.delivered = s.met.delivered ∧ t.met.channels = s.met.channels) ∧
  (∀ (raw : List RawSample) (s : State), s.fld F.MET_STAT.READY = 1 →
    ∃ t x, exec (.metrologySample raw) s = .next t ∧ t.met.delivered = s.met.delivered ++ [x] ∧
      t = (s.sampleInputs s.sensorPlan raw).sampleChannels s.sensorPlan raw) ∧
  (∀ (i : Nat) (e : SensorEntry) (w : ZeroWindow) (s : State), Inv s → i < 48 → s.sensorPlan.sensor i = some e →
    (Map.findD s.met.sensors i {}).zero = some w → 60000 ≤ w.paces →
    ∃ t, exec (.zeroWindowRestart i) s = .next t ∧ (Map.findD t.met.sensors i {}).zero = some {} ∧
      t = (s.closeZero i e w).setZero i (some {})) ∧
  (∀ s : State, Inv s → s.fld F.MET_STAT.READY = 0 → s.fld F.MET_STAT.LOCK = 1 → 8 ≤ s.met.sinceLock →
    (s.sensorPlan.temps.zipIdx.all fun e => !e.1.enabled || (s.regs.temp e.2).isSome) = true →
    ∃ t, exec .metrologyReady s = .next t ∧ t.fld F.MET_STAT.READY = 1 ∧
      t.met = { s.met with channels := [], volts := [], delivered := [], voltOver := [] } ∧
      OnlyRegs (R.MET_STAT :: (List.range 12).map R.MET_CH_GAIN) s t ∧ t = { s with regs := t.regs, met := t.met })

/-- R92 to R94: a refinement run starts for a channel that has a cancellation term, and ends at the write of ABORT with
STATE 6; after MET_REF_MIN paces it is solved, its outcome is shown and recorded, and what it proposes stands in the
proposal registers only when its STATE is 2. -/
def Obligations.RefinementRunsStartSolveAndEnd : Prop :=
  (∀ (who : Requester) (ch : Nat) (s : State), Inv s → ch < 12 → MayWrite s who R.MET_REF_CTL →
    s.refineAllowed ch = true →
    ∃ t, exec (.refineStart who ch) s = .next t ∧ t.fld F.MET_REF_STAT.STATE = 1 ∧ t.fld F.MET_REF_STAT.CH = ch ∧
      t.fld F.MET_REF_STAT.PACES = 0 ∧ t.met.refine.map (fun r => (r.ch, r.samples)) = some (ch, 0) ∧
      t.out = s.out ++ [.regCause who R.MET_REF_CTL Cause.OK] ∧ OnlyRegs [R.MET_REF_CTL, R.MET_REF_STAT] s t) ∧
  (∀ (who : Requester) (s : State), Inv s → MayWrite s who R.MET_REF_CTL → s.met.refine.isSome = true →
    ∃ t, exec (.refineAbort who) s = .next t ∧ t.met.refine = none ∧ t.fld F.MET_REF_STAT.STATE = 6 ∧
      t.out = s.out ++ [.regCause who R.MET_REF_CTL Cause.OK] ∧ OnlyRegs [R.MET_REF_STAT] s t) ∧
  (∀ (r : RefineRun) (s : State), Inv s → s.met.refine = some r →
    s.fld F.MET_REF_MIN.PACES ≤ s.fld F.MET_REF_STAT.PACES →
    ∃ t state, exec .refineSolve s = .next t ∧ t.met = { s.met with refine := none } ∧
      t = { s.post Ev.REFINE_DONE [b2 r.ch, b1 state] with regs := t.regs, met := t.met } ∧
      (state ≠ 2 → t.fld F.MET_REF_STAT.STATE = state % 16 ∧ OnlyRegs [R.MET_REF_STAT] s t) ∧
      (state = 2 → t.fld F.MET_REF_RMS_AFTER.RMS = r.rmsAfter % 2 ^ 32 ∧
        OnlyRegs [R.MET_REF_STAT, R.MET_REF_PROP 0, R.MET_REF_PROP 1, R.MET_REF_PROP 2, R.MET_REF_PROP 3,
          R.MET_REF_RMS_BEFORE, R.MET_REF_RMS_AFTER] s t))

/-! ### Quantities, pulses, tariffs and billing (R100 to R123, R174 to R197) -/

/-- R110, R113, R115: in step 3 of the sealed work of a pace (R122), at the end of its interval, a point's record is formed
and exported as the next message of the export queue, its reversal count starts anew, and the interval of the device time
begins at the values that the accumulators have. -/
def Obligations.IntervalsCloseAtTheirEnd : Prop :=
  ∀ (n : Nat) (e : PointEntry) (c : PointState) (s : State), Inv s → n < 12 → s.qty.stage = .met →
    s.qtyPlan.point n = some e → c = Map.findD s.qty.points n {} → 0 < c.finish → c.finish * 1000000000 ≤ s.clk.ns →
    ∃ t u d, exec (.intervalClose n) s = .next t ∧ t = u.export_ (.interval (c.record e n)) ∧
      u = { s with regs := u.regs, qty := { s.qty with points := Map.set s.qty.points n d, closed := true } } ∧
      d.last = some (c.record e n) ∧ d.acc = c.acc ∧ d.accStart = c.acc ∧ d.paces = 0 ∧ d.revCount = 0 ∧
      d.start = s.timeSec / (60 * e.intervalMin) * (60 * e.intervalMin) ∧ d.finish = d.start + 60 * e.intervalMin ∧
      u.fld (F.QTY_REV_CNT.COUNT n) = 0 ∧ OnlyRegs [R.QTY_REV_CNT n, R.QTY_MP_STAT n] s u ∧
      t.leg.exportSeq = (s.leg.exportSeq + 1) % 2 ^ 32

/-- R114, R117, R122, R195: a checkpoint takes the next sequence number and the pace, holds the points and pulses, and goes
to the copy that the last one did not go to, or to the same where a part of the last read back wrong twice; each part that
does so is counted and recorded. CHECKPOINT_WRITE completes the sealed work of the pace: with it the checkpoint that the
intervals of the pace make due and the legal tariff record of the pace, with its own copies and sequence; where that work is
done it changes nothing. -/
def Obligations.CheckpointsAlternateBetweenCopies : Prop :=
  (∀ (bad : List Nat) (ck : Checkpoint) (second : Bool) (s : State), Inv s →
    second = (if s.qty.same then s.qty.second else !s.qty.second) →
    ck = ⟨s.qty.seq + 1, false, s.now, s.clk.ns, s.qty.points, s.qty.pulses, !bad.contains 0, !bad.contains 1⟩ →
    ∃ t, t = s.writeCheckpoint false bad ∧
      t.qty = { s.qty with
        seq := s.qty.seq + 1, second := second, same := bad.contains 0 || bad.contains 1, closed := false
        copies := if second then (s.qty.copies.1, some ck) else (some ck, s.qty.copies.2) } ∧
      t.tar = { s.tar with dirty := true } ∧
      t.fld F.QTY_CKPT_SEQ.SEQ = (s.qty.seq + 1) % 2 ^ 32 ∧ t.fld F.QTY_CKPT_PACE.PACE = s.now % 2 ^ 32 ∧
      t.fld F.QTY_CKPT_FAIL.COUNT = min (s.fld F.QTY_CKPT_FAIL.COUNT + (([0, 1] : List Nat).filter bad.contains).length) 0xFFFF ∧
      t.evt.queue = s.evt.queue ++ (([0, 1] : List Nat).filter bad.contains).map (fun (k : Nat) =>
        mkPost s Ev.CKPT_FAIL [b4 (s.qty.seq + 1), b8 k]) ∧
      OnlyRegs [R.QTY_CKPT_SEQ, R.QTY_CKPT_PACE, R.QTY_CKPT_FAIL, R.QTY_STAT] s t) ∧
  (∀ (bad : List Nat) (s : State), s.qty.stage = .idle → exec (.checkpointWrite bad) s = .next s) ∧
  (∀ (bad : List Nat) (s : State), s.qty.stage = .met →
    ∃ t u, exec (.checkpointWrite bad) s = .next t ∧ u = s.intervalsDue s.qtyPlan ∧ t.qty.stage = .idle ∧
      (u.checkpointDue = true → s.qty.seq + 1 ≤ t.qty.seq) ∧ (u.checkpointDue = true → t.tar.seq = s.tar.seq + 1) ∧
      t.tar.restarted = false ∧ s.tar.hwm ≤ t.tar.hwm ∧ s.timeMs ≤ t.tar.hwm ∧ s.qty.seq ≤ t.qty.seq) ∧
  (∀ (bad : List Nat) (r : TarRecord) (second : Bool) (s : State), 3 ∉ bad →
    second = (if s.tar.same then s.tar.second else !s.tar.second) →
    r = ⟨s.tar.seq + 1, s.tar.hwm, s.tar.points, s.tar.sets, !bad.contains 2⟩ →
    (s.writeTarRecord bad).tar = { s.tar with
      seq := s.tar.seq + 1, dirty := false, second := second, same := bad.contains 2
      copies := if second then (s.tar.copies.1, some r) else (some r, s.tar.copies.2) } ∧
    (s.writeTarRecord bad).leg.fresh = [])

/-- R119, R121, R216: an idle output with a pulse that was due at a boundary asserts it while the sealed firmware runs, one
fewer is due and one more is counted; after its width the gap of the entry's width begins and after that the output is idle; a
changed entry clears what is due once the pulse ends. A disabled entry gives the gap no length (log 151, a choice of the
model). -/
def Obligations.PulsesAreEmittedOneByOne : Prop :=
  (∀ (j : Nat) (e : PulseEntry) (c : PulseState) (s : State), Inv s → j < 16 → s.qtyPlan.pulse j = some e →
    c = Map.findD s.qty.pulses j {} → c.phase = .idle → c.ready = true → 0 < c.due → s.fld F.LEG_STAT.RUN = 1 →
    ∃ t u, exec (.pulseEmit j) s = .next t ∧ t = u.drive j true ∧
      u = { s with regs := u.regs, qty := { s.qty with
        pulses := Map.set s.qty.pulses j { c with due := c.due - 1, phase := .asserted, left := e.widthMs, ready := false } } } ∧
      u.fld (F.QTY_PULSE_STAT.PENDING j) = (c.due - 1) % 2 ^ 16 ∧ u.fld (F.QTY_PULSE_STAT.ASSERTED j) = 1 ∧
      u.fld (F.QTY_PULSE_CNT.COUNT j) = (s.fld (F.QTY_PULSE_CNT.COUNT j) + 1) % 2 ^ 32 ∧
      OnlyRegs [R.QTY_PULSE_STAT j, R.QTY_PULSE_CNT j] s u ∧
      (s.qty.driven = true → t = u.send (.pulse j true)) ∧ (s.qty.driven = false → t = u)) ∧
  (∀ (j w : Nat) (c : PulseState) (s : State), Inv s → j < 16 →
    w = (match s.qtyPlan.pulse j with | some e => e.widthMs | none => 0) →
    c = Map.findD s.qty.pulses j {} → c.phase = .asserted → c.left = 0 →
    ∃ t u, exec (.pulseWidthEnd j) s = .next t ∧ t = u.drive j false ∧
      u = { s with regs := u.regs, qty := { s.qty with pulses := Map.set s.qty.pulses j { c with
        phase := .gap, left := w, r := if c.clear then 0 else c.r, due := if c.clear then 0 else c.due, clear := false } } } ∧
      u.fld (F.QTY_PULSE_STAT.ASSERTED j) = 0 ∧
      u.fld (F.QTY_PULSE_STAT.PENDING j) = (if c.clear then 0 else c.due) % 2 ^ 16 ∧ OnlyRegs [R.QTY_PULSE_STAT j] s u) ∧
  (∀ (j : Nat) (c : PulseState) (s : State), c = Map.findD s.qty.pulses j {} → c.phase = .gap → c.left = 0 →
    exec (.pulseWidthEnd j) s = .next { s with qty := { s.qty with
      pulses := Map.set s.qty.pulses j { c with phase := .idle } } })

/-- R177, R181, R186, R188 to R192: a boundary that is the first of those that have fallen is performed. A demand sub-period
closes at its end, its window is offered to the maximum of its rate, and the next begins. The passive set of a calendar
becomes active at ACTIVATE and the former active set is superseded; every point bound to it follows, and the legal log takes
an entry. A billing close of a point takes the next number, keeps the snapshot, clears the maxima and forms the next boundary
under the set in force. Boundaries that have fallen before are performed first, in the order of R192. A meter's billing close
waits for the grace, takes an ISN, is logged and counted, and starts the next billing period. -/
def Obligations.TariffBoundariesFallDue : Prop :=
  (∀ (n e : Nat) (k : CalSet) (p : PointTar) (s : State), s.qty.stage = .tar → s.tar.restarted = false →
    s.pointSet n = some k → p = s.tarPoint n → p.subEnd = some e → firstBoundary (s.boundariesDue s.timeSec) = some (e, 0, n) →
    ∃ t, exec (.demandClose n) s = .next t ∧
      t.tarPoint n = (p.closeSub k e).openSub k s.timeSec e ∧ (t.tarPoint n).subEnergy = 0 ∧ (t.tarPoint n).subRate = p.rate ∧
      (t.tarPoint n).subEnd = some ((s.timeSec / (60 * calLs k) + 1) * (60 * calLs k)) ∧
      (calSubs k = 1 → (t.tarPoint n).dmax =
        dmaxOffer p.dmax p.subRate ⟨p.subEnergy * 60 / (calDemandMin k * 1000000), e, p.subFlags⟩) ∧
      (∀ m, m ≠ n → t.tarPoint m = s.tarPoint m) ∧
      t = { s with regs := t.regs, tar := { s.tar with points := t.tar.points, dirty := true } }) ∧
  (∀ (c : Nat) (k : Calendar) (x : CalSet) (s : State), Inv s → c < 64 → s.pointsOf c = [] → k = s.storedCal c →
    k.passive = some x → calActivate x ≤ s.timeSec →
    ∃ t, exec (.tariffSwitch c) s = .next t ∧
      t.storedCal c = { k with active := some x, passive := none, superseded := k.active } ∧
      (∀ d, d ≠ c → t.storedCal d = s.storedCal d) ∧ t.fld (F.TAR_CAL_STAT.ACTIVE c) = 1 ∧
      t.fld (F.TAR_CAL_STAT.PENDING c) = 0 ∧ t.fld (F.TAR_CAL_STAT.GEN c) = calGen x % 2 ^ 16 ∧
      t.fld (F.TAR_CAL_ACT.ACTIVATE c) = 0 ∧ OnlyRegs [R.TAR_CAL_STAT c, R.TAR_CAL_ACT c] s t ∧
      t = { s.post Ev.TAR_ACTIVATED [b8 c, b8 (calGen x)] with
        regs := t.regs, tar := { s.tar with cals := t.tar.cals } }) ∧
  (∀ (c : Nat) (k : Calendar) (x : CalSet) (s : State), s.qty.stage = .tar → s.tar.restarted = false →
    s.pointsOf c ≠ [] → k = s.sealedCal c → k.passive = some x →
    firstBoundary (s.boundariesDue s.timeSec) = some (calActivate x, 1, c) →
    ∃ t, exec (.tariffSwitch c) s = .next t ∧
      t.sealedCal c = { k with active := some x, passive := none, superseded := k.active } ∧
      (∀ n ∈ s.pointsOf c, t.tarPoint n = (s.tarPoint n).activated k.active x (calActivate x) ∧
        (t.tarPoint n).bn = (s.tarPoint n).bn + 1) ∧
      (∀ n, n ∉ s.pointsOf c → t.tarPoint n = s.tarPoint n) ∧ t.tar.activated = true ∧ t.tar.dirty = true ∧
      t.tar.verified = shiftVerified s.tar.verified c ∧ t.leg.fresh.length = s.leg.fresh.length + 1 ∧
      t.evt.queue = s.evt.queue ++ [mkPost s Ev.TAR_ACTIVATED [b8 c, b8 (calGen x)]]) ∧
  (∀ (n b c : Nat) (k : CalSet) (p : PointTar) (s : State), s.qty.stage = .tar → s.tar.restarted = false →
    s.mpCal n = some c → s.pointSet n = some k → p = s.tarPoint n → p.nextBill = some b →
    firstBoundary (s.boundariesDue s.timeSec) = some (b * 60, 2, n) →
    ∃ t, exec (.pointBillingClose n) s = .next t ∧
      t.tarPoint n = { p with
        billNo := if p.billNo = 65535 then 1 else p.billNo + 1, bn := p.bn + 1, dmax := List.replicate 8 {}, seen := 0
        billNext := nextBilling k b, commanded := p.commanded.filter (· != b) } ∧
      Map.find t.tar.newest n = some ⟨n, p.seen ||| (if p.commanded.contains b && p.billNext != some b then 1 else 0),
        if p.billNo = 65535 then 1 else p.billNo + 1, c, p.bn + 1, calGen k, b * 60, p.reg, p.dmax⟩ ∧
      (∀ m, m ≠ n → t.tarPoint m = s.tarPoint m) ∧ t.tar.dirty = true ∧
      t.leg.exportSeq = (s.leg.exportSeq + 1) % 2 ^ 32 ∧ t.leg.fresh.length = s.leg.fresh.length + 1) ∧
  (∀ (x y : TarBoundary) (k : Nat) (s : State), firstBoundary (s.boundariesDue s.timeSec) = some y → y ≠ x →
    s.performUntil x (k + 1) = (s.performBoundary false y).performUntil x k) ∧
  (∀ (l : List TarBoundary) (x y : TarBoundary), firstBoundary l = some x → y ∈ l → boundaryBefore y x = false ∧ x ∈ l) ∧
  (∀ (i b : Nat) (r : MeterRec) (s : State), Inv s → r = s.meter i → r.state ≠ .free → r.tar.nextBill = some b →
    (b + s.fld F.TAR_BILL_GRACE.MINUTES) * 60 ≤ s.timeSec →
    ∃ t, exec (.meterGraceClose i) s = .next t ∧ t.ing.isn = s.ing.isn + 1 ∧
      t.ing.log = s.ing.log ++ [.grace (s.ing.isn + 1) i b] ∧
      t.fld F.TAR_CLOSE_CNT.COUNT = min (s.fld F.TAR_CLOSE_CNT.COUNT + 1) 0xFFFFFFFF ∧
      (t.meter i).tar.closed = b ∧ (t.meter i).tar.start = b ∧ (t.meter i).tar.defaultSeen = false ∧
      (t.meter i).tar.billNo = (if r.tar.billNo = 65535 then 1 else r.tar.billNo + 1) ∧
      (t.meter i).tar.commanded = r.tar.commanded.filter (· != b) ∧
      (∃ x, (Map.findD t.ing.snaps i []).getLast? = some x ∧ x.index = i ∧ x.boundary = b * 60 ∧ x.isn = s.ing.isn + 1 ∧
        x.billNo = (t.meter i).tar.billNo) ∧
      s.ing.isn + 1 ≤ (t.meter i).appliedIsn ∧ b ≤ (t.meter i).tar.hwm ∧ (∀ j, j ≠ i → t.meter j = s.meter j))

/-! ### What is sent (R391, R398, R414) -/

/-- R391, R398, R414: while the ports are off only what passes inside the device or over the pair lanes is sent; what a
host would see waits for the digest of its pace while it is withheld; a member that does not drive the shared ports sends
nothing on them; everything else is sent at once. Nothing but what is sent and what is held changes. -/
def Obligations.OutputsAreSentHeldOrDropped : Prop :=
  ∀ (o : Output) (s : State),
    (s.portsOff = true → o.inside = false → s.send o = s) ∧
    ((s.portsOff = false ∨ o.inside = true) →
      (o.hostVisible = true → s.withholds = true →
        s.send o = { s with pair := { s.pair with held := s.pair.held ++ [(s.now, o)] } }) ∧
      (o.hostVisible = false ∨ s.withholds = false →
        (o.shared = true → s.drivesShared = false → s.send o = s) ∧
        (o.shared = false ∨ s.drivesShared = true → s.send o = { s with out := s.out ++ [o] })))

/-! ### Registry, ingest and polling (R124 to R149, R286, R287) -/

/-- R127 to R130, R132, R137, R147, R286, R287: the oldest frame goes through the steps of ingest once it is ready, and one
whose sender is unknown is counted and shown with its cause; the logged readings of the oldest pace, once durable, are counted
with their route, applied and acknowledged, and an item ends DONE; a dirty chunk is saved with the ISN of each of its records;
a free port polls its next meter, repeats a poll without an answer up to RETRIES times, but not under back-pressure, and then
ends it; a frame in its window ends the poll and goes to ingest, and bad characters are counted. R391, R393: a frame handed to
ingest joins the frames of its message type and the ledger entry of an active member; a standby only keeps it for a takeover.
R133: a smaller key cache keeps as many of its newest keys as it has slots. R126: a record belongs to the lane that its index
modulo the number of lanes of engine 0x09 gives. -/
def Obligations.IngestTakesFramesAndReadings : Prop :=
  (∀ (f : IngestFrame) (l : List IngestFrame) (s : State), s.ing.frames = f :: l → s.fld F.ING_STAT.READY ≠ 0 →
    exec .ingestFrame s = .next (({ s with ing := { s.ing with frames := l } } : State).ingest f)) ∧
  (∀ (f : IngestFrame) (l : List IngestFrame) (s : State), Inv s → s.ing.frames = f :: l → s.fld F.ING_STAT.READY ≠ 0 →
    s.ing.waiting.length + f.count ≤ 2097152 → f.parses 0x21 = true → s.frameMeter f = none →
    ∃ t, exec .ingestFrame s = .next t ∧ t.fld (F.ING_REJ_CNT.COUNT (Cause.METER_UNKNOWN - 0x400)) =
        min (s.fld (F.ING_REJ_CNT.COUNT (Cause.METER_UNKNOWN - 0x400)) + 1) (2 ^ 32 - 1) ∧
      t.fld F.ING_LAST_REJ.CAUSE = Cause.METER_UNKNOWN ∧ t.fld F.ING_LAST_REJ_IDX.VALID = 0 ∧
      OnlyRegs [R.ING_REJ_CNT (Cause.METER_UNKNOWN - 0x400), R.ING_LAST_REJ, R.ING_LAST_REJ_IDX] s t ∧
      t = { s with regs := t.regs, ing := { s.ing with frames := l } }) ∧
  (∀ (x : Reading) (l : List Reading) (s : State), s.ing.waiting = x :: l → s.digestOk x.loggedAt = true →
    (∀ y ∈ l, x.loggedAt < y.loggedAt) →
    exec .readingDurable s =
      .next ((({ s with ing := { s.ing with waiting := l } } : State).durable x []).showBuffer)) ∧
  (∀ (x : Reading) (later : List Reading) (u : State),
    ∃ v, v = ({ u with
        ing := { u.ing with recent := u.ing.recent + 1, log := u.ing.log ++ [.reading x] }
        regs := (u.regs.bump F.ING_ACCEPT_CNT.COUNT 1).bump (F.ING_SRC_CNT.COUNT x.route) 1 } : State) ∧
      (x.item = none → u.durable x later = (v.applyReading x).acknowledge x later) ∧
      (∀ i, x.item = some i → u.durable x later = ((v.applyReading x).acknowledge x later).endItem i.1 i.2 0) ∧
      x.isn ≤ ((v.applyReading x).meter x.index).appliedIsn ∧ ((v.applyReading x).meter x.index).meterStatus = x.status) ∧
  (∀ (chunk p : Nat) (s : State), Inv s → Map.sorted s.ing.dirty = true → Map.find s.ing.dirty chunk = some p →
    ∃ t, exec (.chunkWrite chunk) s = .next t ∧ Map.find t.ing.dirty chunk = none ∧
      Map.find t.ing.saved chunk = some ((List.range 8).map fun k => (s.meter (8 * chunk + k)).appliedIsn) ∧
      t.ing.meters = s.ing.meters ∧ (∀ i ∈ t.ing.journal, i / 8 ≠ chunk) ∧
      t.fld F.ING_REG_DIRTY.CHUNKS =
        t.ing.dirty.length % 2 ^ (F.ING_REG_DIRTY.CHUNKS.hi - F.ING_REG_DIRTY.CHUNKS.lo + 1) ∧
      OnlyRegs [R.ING_REG_DIRTY] s t ∧ t = { s with regs := t.regs, ing := t.ing }) ∧
  (∀ (ser : Nat) (e : Nat × MeterRec) (s : State), s.role (16 + ser) ≠ 0 → ser < 24 → Map.find s.ing.polls ser = none →
    s.fld F.ING_STAT.BP ≠ 1 → s.fld F.ING_STAT.READY ≠ 0 → s.receives = true →
    (s.ing.meters.find? fun e => s.pollDue ser e.1 e.2) = some e →
    exec (.serialPoll ser) s = .next (({ s with ing := { s.ing with
      polls := Map.set s.ing.polls ser ⟨e.1, 0, s.now⟩ } } : State).send (.serialPoll ser e.1))) ∧
  (∀ (ser : Nat) (p : PollState) (s : State), Map.find s.ing.polls ser = some p →
    (p.tries < s.fld F.ING_POLL.RETRIES → s.fld F.ING_STAT.BP = 1 → exec (.serialResponseTimeout ser) s = .next s) ∧
    (p.tries < s.fld F.ING_POLL.RETRIES → s.fld F.ING_STAT.BP ≠ 1 →
      exec (.serialResponseTimeout ser) s = .next (({ s with ing := { s.ing with
        polls := Map.set s.ing.polls ser { p with tries := p.tries + 1, sentAt := s.now } } } : State).send
          (.serialPoll ser p.meter))) ∧
    (s.fld F.ING_POLL.RETRIES ≤ p.tries → exec (.serialResponseTimeout ser) s = .next { s with ing := { s.ing with
      polls := Map.erase s.ing.polls ser
      polled := Map.set s.ing.polled p.meter (s.pollEnd (s.meter p.meter)) } })) ∧
  (∀ (ser us : Nat) (f : IngestFrame) (s : State), s.role (16 + ser) ≠ 0 → ser < 24 → s.receives = true →
    (∀ bad, 0 < bad → exec (.serialFrame ser bad us f) s = .next (s.bump (F.PRT_SER_ERR_CNT.COUNT ser) bad)) ∧
    (∀ p, Map.find s.ing.polls ser = some p → s.inWindow ser us = true →
      exec (.serialFrame ser 0 us f) s = .next (({ s with ing := { s.ing with
        polls := Map.erase s.ing.polls ser
        polled := Map.set s.ing.polled p.meter (s.pollEnd (s.meter p.meter)) } } : State).handIn
          { f with route := 7, rx := s.timeMs })) ∧
    (Map.find s.ing.polls ser = none → s.role (16 + ser) = 1 →
      exec (.serialFrame ser 0 us f) s = .next (s.handIn { f with route := 7, rx := s.timeMs }))) ∧
  (∀ (f : IngestFrame) (s : State),
    (s.fld F.PAIR_STAT.ROLE = 1 →
      s.handIn f = { s with pair := { s.pair with inputs := s.pair.inputs ++ [(s.now, f)] } }) ∧
    (s.fld F.PAIR_STAT.ROLE ≠ 1 → ∃ t, s.handIn f = t ∧
      t.pair = { s.pair with entry := if s.ledgering then s.pair.entry ++ [.frame f] else s.pair.entry } ∧
      (f.type ≠ 0x23 → f.type ≠ 0x24 → t.ing = { s.ing with frames := s.ing.frames ++ [f] } ∧ t.rad = s.rad) ∧
      (f.type = 0x23 → t.ing = { s.ing with forwards := s.ing.forwards ++ [f] } ∧ t.rad = s.rad) ∧
      (f.type = 0x24 → t.ing = s.ing ∧ t.rad = { s.rad with inbox := s.rad.inbox ++ [⟨f.shortAddr, none, f⟩] }) ∧
      t = { s with ing := t.ing, pair := t.pair, rad := t.rad })) ∧
  (∀ (who : Requester) (slots : Nat) (s : State), Inv s → MayWrite s who R.ING_KEYCACHE → 256 ≤ slots → slots ≤ 3072 →
    ∃ t v, exec (.keycacheResize who slots) s = .next t ∧ OnlyRegs [R.ING_KEYCACHE] s v ∧
      v.fld F.ING_KEYCACHE.SLOTS = slots ∧
      v = { entered s who R.ING_KEYCACHE (BitVec.ofNat 32 slots) 0xFFF with regs := v.regs } ∧
      t = v.resizeKeys.send (.regCause who R.ING_KEYCACHE Cause.OK) ∧ t.ing.keys = s.ing.keys.take slots ∧
      t.out = s.out ++ [.regCause who R.ING_KEYCACHE Cause.OK]) ∧
  (∀ (i : Nat) (s : State) (lanes : List Nat),
    lanes = (List.range 8).filter (fun l => s.pacePlan.any fun e => e.engine == 0x09 && e.lane == l) → lanes ≠ [] →
    ∃ l, s.ingestLane i = some l ∧ lanes[i % lanes.length]? = some l ∧
      (s.pacePlan.any fun e => e.engine == 0x09 && e.lane == l) = true)

/-! ### Balances (R150 to R173) -/

/-- R155, R161 to R167, R173: a node interval that is due joins the queue, and its job runs when it is at the head: it is
balanced once, kept with its start and counted, as incomplete where it is not gated. A revision and a localisation run at the
head of the queue, and a job whose node is gone ends without effect; a localisation gives a node in a positive alert the node
it descends to. After HOLD_S the final result of a revised interval goes out; the backlog flag follows the age of the oldest
job; an interval record at the head of the export queue is kept unless its point and start are known, and reaches the balance
of its nodes. -/
def Obligations.BalanceJobsRunFromTheHeadOfTheQueue : Prop :=
  (∀ (n m : Nat) (l : List TopoNode) (e : TopoNode) (s : State), Inv s → s.topoAt m = some l → topoNode l n = some e →
    s.balanceDue l e m = true → s.bal.jobs = [] → s.bal.ops = [] →
    ∃ t v, exec (.nodeBalance n m) s = .next t ∧ t = v.runJob ⟨n, m, .first, s.now⟩ ∧
      v = { s with bal := { s.bal with jobs := [⟨n, m, .first, s.now⟩] }, regs := s.regs.setF F.BAL_QUEUE.JOBS 1 } ∧
      (∃ r, t.result n m = some r ∧ r.node = n ∧ r.start = m ∧ r.balMin = e.balMin ∧ r.rev = 0 ∧
        r.eRef = (s.reference e m e.balMin).e ∧ r.eChild = (s.nodeChildren l e m).e) ∧
      t.fld F.BAL_DONE_CNT.COUNT = min (s.fld F.BAL_DONE_CNT.COUNT + 1) (2 ^ 32 - 1) ∧
      t.fld F.BAL_INCOMPLETE_CNT.COUNT =
        min (s.fld F.BAL_INCOMPLETE_CNT.COUNT + (if s.gated l e m then 0 else 1)) (2 ^ 32 - 1)) ∧
  (∀ (j : BalJob) (l : List BalJob) (s : State), s.bal.jobs = j :: l → s.bal.ops = [] →
    (j.work = .first → s.topoAt j.start = none → exec (.nodeBalance j.node j.start) s = .next (s.runJob j)) ∧
    (j.work = .revision → exec .balanceRevision s = .next (s.runJob j)) ∧
    (j.work ≠ .revision → exec .balanceRevision s = .next s) ∧
    (j.work = .localise → exec (.localisation j.node) s = .next (s.runJob j)) ∧
    (∀ n, (j.work ≠ .localise ∨ j.node ≠ n) → exec (.localisation n) s = .next s)) ∧
  (∀ (j : BalJob) (l : List BalJob) (s : State), Inv s → s.bal.jobs = j :: l → s.bal.ops = [] → s.topoAt j.start = none →
    ∃ t, s.runJob j = t ∧ t.bal = { s.bal with jobs := l } ∧ t.fld F.BAL_QUEUE.JOBS = min l.length 0xFFFFFF ∧
      OnlyRegs [R.BAL_QUEUE] s t ∧ t = { s with bal := t.bal, regs := t.regs }) ∧
  (∀ (j : BalJob) (l : List BalJob) (x : List TopoNode) (e : TopoNode) (old : NodeResult) (s : State), s.bal.jobs = j :: l →
    s.topoAt j.start = some x → topoNode x j.node = some e → j.work = .revision → s.result j.node j.start = some old →
    s.runJob j = s.endJob.reviseResult x e j.start old) ∧
  (∀ (j : BalJob) (l : List BalJob) (x y : List TopoNode) (e d : TopoNode) (s : State), s.bal.jobs = j :: l →
    s.bal.ops = [] → j.work = .localise → s.topoAt j.start = some x → topoNode x j.node = some e →
    (s.node j.node).alert = some false → s.topoAt ((s.node j.node).raising.headD 0) = some y → topoNode y j.node = some d →
    ∃ t loc, exec (.localisation j.node) s = .next t ∧ (t.node j.node).loc = some loc ∧ (t.node j.node).lastLoc = some loc ∧
      (t.node j.node).alert = some false ∧ t.bal.jobs = l ∧ (∀ k, k ≠ j.node → t.node k = s.node k)) ∧
  (∀ (h : Nat × Nat × Nat) (r : NodeResult) (s : State),
    (s.bal.held.find? fun h => decide (h.2.2 + 1000 * s.fld F.BAL_REVISE.HOLD_S ≤ s.now)) = some h →
    ({ s with bal := { s.bal with held := s.bal.held.erase h } } : State).result h.1 h.2.1 = some r →
    exec .revisionNotice s = .next (({ s with bal := { s.bal with held := s.bal.held.erase h } } : State).broadcast 0x8004
      [lossHdr h.1 4 false 0 (s.node h.1).loc (s.node h.1).raisingStart 0, ⟨0x0072, r.bytes⟩])) ∧
  (∀ s : State, Inv s → ∃ t late, exec .balBacklog s = .next t ∧
    late = decide (1000 * s.fld F.BAL_BACKLOG.SECONDS < s.oldestJob) ∧
    t.fld F.BAL_STAT.BACKLOG = (if late then 1 else 0) ∧ OnlyRegs [R.BAL_STAT] s t ∧
    t.evt.queue = s.evt.queue ++
      (if late ∧ s.fld F.BAL_STAT.BACKLOG ≠ 1 then [mkPost s Ev.BAL_BACKLOG []] else [])) ∧
  (∀ (j : BalJob) (s : State), j ∈ s.bal.jobs → s.now - j.since ≤ s.oldestJob) ∧
  (∀ (r : IntervalRecord) (m : List (BitVec 64)) (u s : State), s.headWords 0 = some m →
    Export.of (messageOf m).type (messageOf m).body = some (.interval r) → u = s.dropHead 0 m.length →
    (s.leg.records.any (fun x => x.mp == r.mp && x.start == r.start) = true → exec .intervalRecord s = .next u) ∧
    (s.leg.records.any (fun x => x.mp == r.mp && x.start == r.start) = false →
      ∃ v : State, exec .intervalRecord s = .next (v.pointChanged r) ∧
        v = { u with leg := { u.leg with
          records := (u.leg.records.filter fun (x : IntervalRecord) => decide (60 * s.oldestKept ≤ x.start)) ++ [r] } }))

/-- R173: the four operations of BAL_CMD on a node of the topology in effect are queued before every job of the balance queue,
with STATE 1; on a node it does not hold they end with NODE_UNKNOWN and STATE 3, and RELOCATE of a node that is in no positive
alert with REG_RANGE, with no effect on any node. At its turn an operation runs and ends with STATE 2. REBASE takes the node
out of alert and clears its statistics; CLEAR_ALERT takes it out of alert; RELEARN clears what was learnt and the model. No
other node changes. -/
def Obligations.BalanceCommandsActOnTheirNode : Prop :=
  (∀ (who : Requester) (n : Nat) (s : State), Inv s → n < 65536 → MayWrite s who R.BAL_CMD →
    ∀ row ∈ ([(1, Instr.rebase who n), (2, .clearAlert who n), (3, .relocate who n), (4, .relearn who n)] :
        List (Nat × Instr)),
      ∃ v, OnlyRegs [R.BAL_CMD] s v ∧ v.fld F.BAL_CMD.NODE = n ∧
        v = { entered s who R.BAL_CMD (BitVec.ofNat 32 (row.1 * 65536 + n)) 0x00FFFFFF with regs := v.regs } ∧
        ((topoNode s.topology n).isSome = true → (row.1 = 3 → (s.node n).alert = some false) →
          ∃ t u, exec row.2 s = .next t ∧ t = u.send (.regCause who R.BAL_CMD Cause.OK) ∧
            u = { v with regs := u.regs, bal := { s.bal with ops := s.bal.ops ++ [(row.1, n, s.now)] } } ∧
            u.fld F.BAL_CMD_STAT.STATE = 1 ∧
            u.fld F.BAL_QUEUE.JOBS = min (s.bal.jobs.length + s.bal.ops.length + 1) 0xFFFFFF ∧
            OnlyRegs [R.BAL_CMD, R.BAL_CMD_STAT, R.BAL_QUEUE] s u) ∧
        ((topoNode s.topology n).isSome = false →
          exec row.2 s = .next (((v.setF F.BAL_CMD_STAT.CAUSE Cause.NODE_UNKNOWN).setF F.BAL_CMD_STAT.STATE 3).send
            (.regCause who R.BAL_CMD Cause.NODE_UNKNOWN))) ∧
        ((topoNode s.topology n).isSome = true → row.1 = 3 → (s.node n).alert ≠ some false →
          exec row.2 s = .next (((v.setF F.BAL_CMD_STAT.CAUSE Cause.REG_RANGE).setF F.BAL_CMD_STAT.STATE 3).send
            (.regCause who R.BAL_CMD Cause.REG_RANGE)))) ∧
  (∀ (n pace : Nat) (s : State), Inv s →
    ∀ row ∈ ([(1, fun v : State => v.rebase n), (2, fun v => v.leaveAlert n 3), (3, fun v => v.localise n),
        (4, fun v => v.relearn n)] : List (Nat × (State → State))),
      s.bal.ops = [(row.1, n, pace)] → (row.1 = 3 → (s.node n).alert = some false) →
      ∃ u, u = (row.2 s).setF F.BAL_CMD_STAT.STATE 2 ∧
        s.runOps = ({ u with bal := { u.bal with ops := [] } } : State).showJobs ∧ s.runOps.fld F.BAL_CMD_STAT.STATE = 2) ∧
  (∀ (n : Nat) (s : State),
    ((s.rebase n).node n = { (s.leaveAlert n 3).node n with mu := ⟨0, 0⟩, sigma2 := ⟨0, 0⟩, statN := 0 }) ∧
    ((s.leaveAlert n 3).node n).alert = none ∧
    ((s.relearn n).node n = { s.node n with
      sw := ⟨0, 0⟩, sx := ⟨0, 0⟩, sxx := ⟨0, 0⟩, sy := ⟨0, 0⟩, sxy := ⟨0, 0⟩, learnN := 0, model := none }) ∧
    (∀ k, k ≠ n → (s.relearn n).node k = s.node k ∧ (s.rebase n).node k = s.node k ∧ (s.leaveAlert n 3).node k = s.node k) ∧
    ((s.node n).alert = none → s.leaveAlert n 3 = s))

/-! ### Prepayment (R198 to R209) -/


/-- R205 to R209: the oldest logged token, once durable, changes the credit of its meter as its type says, is counted and
its result reported on its path; a forwarded token passes the steps of its frame and is then checked, and an entry of the
cabinet keypad is checked for the meter of its short number: a token found wrong is reported, one found right waits for
its log entry; one whose digits are no token is TOKEN_FORMAT, and one with no meter METER_UNKNOWN. The credit state of a meter
follows from its credit and its two limits; where it changes, an event with both states is posted, and a meter with PROTOCOL 1
is sent a credit-state message; where it does not, nothing changes. -/
def Obligations.TokensAreCheckedAndApplied : Prop :=
  (∀ (w : TokenWait) (l : List TokenWait) (s : State), s.ing.tokens = w :: l → (∀ y ∈ l, w.loggedAt < y.loggedAt) →
    exec .tokenApply s = .next ((({ s with ing := { s.ing with tokens := l } } : State).applyToken w).reportToken
      (some w.index) 0 w.path)) ∧
  (∀ (w : TokenWait) (u : State), Inv u →
    ((u.applyToken w).meter w.index).prepay.credit = ((u.meter w.index).prepay.applied w).credit ∧
    ((u.applyToken w).meter w.index).prepay.failCnt = 0 ∧ w.isn ≤ ((u.applyToken w).meter w.index).appliedIsn ∧
    (u.applyToken w).fld F.PPY_ACCEPT_CNT.COUNT = min (u.fld F.PPY_ACCEPT_CNT.COUNT + 1) (2 ^ 32 - 1) ∧
    (u.applyToken w).ing.log = u.ing.log ++ [.token w]) ∧
  (∀ (f : IngestFrame) (l : List IngestFrame) (s v : State), s.ing.forwards = f :: l →
    (({ s with ing := { s.ing with forwards := l } } : State).openFrame 0x23 f = (v, none) →
      exec .tokenForward s = .next v) ∧
    (∀ i plain x, ({ s with ing := { s.ing with forwards := l } } : State).openFrame 0x23 f = (v, some (i, plain, x)) →
      (∀ y, (v.takeFrame i f).checkToken (forwardedDigits plain) i ((v.takeFrame i f).prepayMeter i) .meter = (y, none) →
        exec .tokenForward s = .next y) ∧
      (∀ y c, (v.takeFrame i f).checkToken (forwardedDigits plain) i ((v.takeFrame i f).prepayMeter i) .meter =
          (y, some c) →
        exec .tokenForward s = .next (y.reportToken (some i) c .meter)))) ∧
  (∀ (no : Nat) (digits : List Nat) (m : List (BitVec 64)) (found : Option Nat) (s u : State), s.headWords 0 = some m →
    Export.of (messageOf m).type (messageOf m).body = some (.keypadToken no digits) → u = s.dropHead 0 m.length →
    found = u.shortMeter no →
    (∀ y, u.checkToken digits (found.getD 0xFFFFFFFF) found .cabinet = (y, none) → exec .keypadToken s = .next y) ∧
    (∀ y c, u.checkToken digits (found.getD 0xFFFFFFFF) found .cabinet = (y, some c) →
      exec .keypadToken s = .next (y.reportToken found c .cabinet))) ∧
  (∀ (digits : List Nat) (named : Nat) (found : Option Nat) (path : TokenPath) (s : State),
    (tokenOf digits = none → s.checkToken digits named found path =
      (s.rejectToken named Cause.TOKEN_FORMAT path, some Cause.TOKEN_FORMAT)) ∧
    ((tokenOf digits).isSome = true → found = none → s.checkToken digits named found path =
      (s.rejectToken named Cause.METER_UNKNOWN path, some Cause.METER_UNKNOWN))) ∧
  (∀ (low : Nat) (p : MeterPrepay),
    p.judge low = if p.credit ≤ -(p.emergLimit : Int) then .exhausted else if p.credit ≤ 0 then .emergency
      else if p.credit ≤ low then .low else .credit) ∧
  (∀ (i : Nat) (s : State),
    ((s.meter i).prepay.judge (s.fld (F.PPY_LOW.LOW (s.meter i).prepay.u)) = (s.meter i).prepay.state →
      s.creditChanged i = s) ∧
    (∀ c, (s.meter i).prepay.judge (s.fld (F.PPY_LOW.LOW (s.meter i).prepay.u)) = c → c ≠ (s.meter i).prepay.state →
      ∃ t, s.creditChanged i = t ∧ ((t.meter i).prepay = { (s.meter i).prepay with state := c }) ∧
        t.evt.queue = s.evt.queue ++ [mkPost s Ev.PPY_STATE [b4 i, b1 (s.meter i).prepay.state.code, b1 c.code]] ∧
        (s.withholds = false → t.ing.toMeter = s.ing.toMeter ++ (if (s.meter i).conf.protocol = 1 then
          [(i, creditMessage (t.meter i).prepay 0)] else [])) ∧
        (∀ k, k ≠ i → t.meter k = s.meter k)))

/-! ### The sealed partition and the display (R210 to R224) -/

/-- R178, R188, R190, R213, R215, R217, R220, R222: the request at the head of the request queue is judged and answered in
order, and each command answers only its own TYPE. An unknown TYPE and a body of the wrong form are rejected, counted and
recorded; a delivered set is verified against its digest; a digest replaces or cancels the passive set and the record is
written; a commanded close marks its point, and where no calendar binds it is answered SEALED_REJECT; a note is shown, behind
a keypad request that is; the entry timeout is stored; an activation of a slot that holds a received image waits for the next
boundary, and another is answered SEALED_REJECT. While the cores restart, or while an activation waits, requests wait. -/
def Obligations.SealedRequestsAreJudgedInOrder : Prop :=
  (∀ (bad : List Nat) (s : State),
    ∀ row ∈ ([(0x0101, .calDeliver), (0x0102, .calDigest bad), (0x0103, .billCloseRequest), (0x0104, .displayNote),
        (0x0105, .fwActivate), (0x0106, .keypadCfg)] : List (Nat × Instr)),
      (s.fld F.LEG_STAT.RUN = 0 ∨ s.leg.act.isSome = true ∨ s.headWords 1 = none → exec row.2 s = .next s) ∧
      (∀ m r, s.fld F.LEG_STAT.RUN ≠ 0 → s.leg.act = none → s.headWords 1 = some m → r = messageOf m →
        (r.type < 0x0101 ∨ 0x0106 < r.type → exec row.2 s = .next ((s.dropHead 1 m.length).rejectRequest r)) ∧
        (0x0101 ≤ r.type → r.type ≤ 0x0106 → r.type ≠ row.1 → exec row.2 s = .next s))) ∧
  (∀ (r : Request) (u : State), Inv u → r.type < 2 ^ 16 → ∃ v, u.rejectRequest r = v.export_ (.reqResult r.seq Cause.SEALED_REJECT []) ∧
    v.fld F.LEG_REQ_REJ.COUNT = min (u.fld F.LEG_REQ_REJ.COUNT + 1)
      (2 ^ (F.LEG_REQ_REJ.COUNT.hi - F.LEG_REQ_REJ.COUNT.lo + 1) - 1) ∧ v.fld F.LEG_REQ_REJ.LAST_TYPE = r.type ∧
    OnlyRegs [R.LEG_REQ_REJ] u v ∧ v = { u.post Ev.SEALED_REQ_REJECT [b8 r.type] with regs := v.regs }) ∧
  (∀ (m : List (BitVec 64)) (r : Request) (bad : List Nat) (s u : State), s.fld F.LEG_STAT.RUN ≠ 0 → s.leg.act = none →
    s.headWords 1 = some m → r = messageOf m → u = s.dropHead 1 m.length →
    (r.type = 0x0105 → r.body.length ≠ 8 → exec .fwActivate s = .next (u.rejectRequest r)) ∧
    (r.type = 0x0105 → r.body.length = 8 → fieldAt r.body 0 1 ≤ 2 → fieldAt r.body 1 7 = 0 →
      (u.fld (F.LEG_SLOT.STATE (fieldAt r.body 0 1)) = 3 → (Map.find u.leg.slots (fieldAt r.body 0 1)).isSome = true →
        exec .fwActivate s = .next { u with leg := { u.leg with
          act := some ⟨fieldAt r.body 0 1, u.now + 1, none, r.seq⟩ } }) ∧
      (u.fld (F.LEG_SLOT.STATE (fieldAt r.body 0 1)) ≠ 3 → exec .fwActivate s = .next
        ((u.countReject 0x0105).export_ (.reqResult r.seq Cause.SEALED_REJECT [])))) ∧
    (r.type = 0x0101 → r.body.length = 2352 → fieldAt r.body 0 1 ≤ 63 →
      (∀ i, matchingSet (u.sealedCal (fieldAt r.body 0 1)) (sha256 r.body) = some i →
        exec .calDeliver s = .next (({ u with tar := { u.tar with
          verified := u.tar.verified ++ [3 * fieldAt r.body 0 1 + i] } } : State).judgeReady.export_
            (.reqResult r.seq 0 []))) ∧
      (matchingSet (u.sealedCal (fieldAt r.body 0 1)) (sha256 r.body) = none →
        (u.sealedCal (fieldAt r.body 0 1)).active.isSome = true →
        exec .calDeliver s = .next (((u.post Ev.TAR_CAL_MISMATCH []).countReject 0x0101).export_
          (.reqResult r.seq Cause.SEALED_REJECT [])))) ∧
    (r.type = 0x0102 → digestForm r.body = true → ∀ c k, c = fieldAt r.body 0 1 → k = u.sealedCal c →
      ∃ t v : State, exec (.calDigest bad) s = .next t ∧ t = v.export_ (.reqResult r.seq 0 []) ∧
        (fieldAt r.body 1 1 = 0 → Map.find v.tar.sets c = some { k with passive := some (r.body.drop 4) }) ∧
        (fieldAt r.body 1 1 ≠ 0 → Map.find v.tar.sets c = some { k with passive := none }) ∧
        (∀ d, d ≠ c → Map.find v.tar.sets d = Map.find u.tar.sets d) ∧ v.tar.seq = u.tar.seq + 1) ∧
    (r.type = 0x0103 → r.body.length = 8 → fieldAt r.body 0 1 ≤ 11 → fieldAt r.body 1 7 = 0 →
      (∀ c, u.pointSet (fieldAt r.body 0 1) = some c → u.tar.hwm < nextCommanded c u.timeSec * 60000 →
        exec .billCloseRequest s = .next ((u.setTar (fieldAt r.body 0 1)
          { u.tarPoint (fieldAt r.body 0 1) with
            commanded := insertSorted (nextCommanded c u.timeSec) (u.tarPoint (fieldAt r.body 0 1)).commanded }).export_
              (.reqResult r.seq 0 []))) ∧
      (u.pointSet (fieldAt r.body 0 1) = none → exec .billCloseRequest s = .next
        ((u.countReject 0x0103).export_ (.reqResult r.seq Cause.SEALED_REJECT [])))) ∧
    (r.type = 0x0106 → r.body.length = 8 → 5 ≤ fieldAt r.body 0 1 → fieldAt r.body 1 7 = 0 →
      exec .keypadCfg s = .next (({ u with leg := { u.leg with keyTimeout := fieldAt r.body 0 1 } } : State).export_
        (.reqResult r.seq 0 []))) ∧
    (r.type = 0x0104 → r.body.length = 34 → 1 ≤ fieldAt r.body 32 2 → fieldAt r.body 32 2 ≤ 60 →
      (∀ c ∈ r.body.take 32, c.toNat < 128) →
      ((∀ d p x, u.leg.showing ≠ .request d p x) →
        ∃ t v : State, exec .displayNote s = .next t ∧ t = v.export_ (.reqResult r.seq 0 []) ∧
          v.leg.showing = .note (r.body.take 32) (u.now + 1000 * fieldAt r.body 32 2) ∧
          v.leg.frames.length = u.leg.frames.length + 3 ∧ v = { u with leg := v.leg }) ∧
      (∀ d p x, u.leg.showing = .request d p x →
        exec .displayNote s = .next (({ u with leg := { u.leg with
          showing := .request d p (some (r.body.take 32, u.now + 1000 * fieldAt r.body 32 2)) } } : State).export_
            (.reqResult r.seq 0 [])))))

/-- R113, R178, R197, R217, R218: the cores take the message at the head of the export queue: a snapshot of a billing period
not yet held, of which 24 are kept, a legal event whose LSEQ is not yet held, and a result, which ends what waited for it. A
message of another kind is left to its own command. -/
def Obligations.ExportsAreTakenInOrder : Prop :=
  ∀ (m : List (BitVec 64)) (x : Export) (s u : State), s.headWords 0 = some m →
    Export.of (messageOf m).type (messageOf m).body = some x → u = s.dropHead 0 m.length →
    (∀ p, x = .snapshot p →
      ((Map.findD s.tar.snapshots p.mp []).any (fun y => y.bn == p.bn) = true → exec .snapshot s = .next u) ∧
      ((Map.findD s.tar.snapshots p.mp []).any (fun y => y.bn == p.bn) = false →
        ∃ t, exec .snapshot s = .next t ∧ t = { u with tar := t.tar } ∧
          Map.findD t.tar.snapshots p.mp [] = (Map.findD s.tar.snapshots p.mp [] ++ [p]).drop
            ((Map.findD s.tar.snapshots p.mp []).length + 1 - 24) ∧
          ∀ k, k ≠ p.mp → Map.find t.tar.snapshots k = Map.find s.tar.snapshots k)) ∧
    (∀ e c, x = .legalEvent e c →
      (s.leg.log.any (fun y => y.1.lseq == e.lseq) = true → exec .legalEvent s = .next u) ∧
      (s.leg.log.any (fun y => y.1.lseq == e.lseq) = false →
        exec .legalEvent s = .next { u with leg := { u.leg with log := u.leg.log ++ [(e, c)] } })) ∧
    (∀ q c d, x = .reqResult q c d →
      ∃ v, v = ({ u with leg := { u.leg with waiting := u.leg.waiting.filter (fun w => w.1 != q) } } : State) ∧
        (s.leg.waiting.find? (fun w => w.1 == q) = none → exec .reqResult s = .next v) ∧
        (∀ n task item, s.leg.waiting.find? (fun w => w.1 == q) = some (n, .item task item) →
          exec .reqResult s = .next (v.endItem task item c)) ∧
        (∀ n task item set, s.leg.waiting.find? (fun w => w.1 == q) = some (n, .calSet task item set) → c = 0 →
          exec .reqResult s = .next ((v.setCal (fieldAt set 0 1) { v.storedCal (fieldAt set 0 1) with
            passive := some set, loads := fieldAt set 4 2 }).endItem task item c)) ∧
        (∀ n task item k, s.leg.waiting.find? (fun w => w.1 == q) = some (n, .calCancel task item k) → c = 0 →
          exec .reqResult s = .next ((v.setCal k { v.storedCal k with passive := none }).endItem task item c))) ∧
    ((∀ p, x ≠ .snapshot p) → exec .snapshot s = .next s) ∧ ((∀ e c, x ≠ .legalEvent e c) → exec .legalEvent s = .next s) ∧
    ((∀ q c d, x ≠ .reqResult q c d) → exec .reqResult s = .next s)

/-- R213, R215, R216, R218: a level of the legal input that has held for 20 boundaries is logged as its debounced state, and
otherwise nothing changes. An activation that is due stops the cores at a cut with every output idle, and once the new slot
runs puts it in use and the former one in reserve and answers it; where a Warp image has been applied in the same boundary it
takes the next, and one no longer permitted is answered SEALED_REJECT. Firmware that has not answered within 500 paces is
given up: its slot is faulty, and the fallback is recorded and logged. -/
def Obligations.SealedActivationSwapsTheSlots : Prop :=
  (∀ s : State, (s.leg.updHeld < 20 ∨ s.fld F.LEG_STAT.LEGAL_UPD = s.leg.updLevel.toNat) →
    exec .legalUpdChange s = .next s) ∧
  (∀ s : State, Inv s → 20 ≤ s.leg.updHeld → s.fld F.LEG_STAT.LEGAL_UPD ≠ s.leg.updLevel.toNat →
    ∃ t e, exec .legalUpdChange s = .next t ∧ t.fld F.LEG_STAT.LEGAL_UPD = s.leg.updLevel.toNat ∧
      t.leg = { s.leg with fresh := s.leg.fresh ++ [e] } ∧ e.code = Ev.LEGAL_UPD ∧ e.mp = 0xFF ∧
      e.lseq = s.leg.lseq + s.leg.fresh.length + 1 ∧ e.data = legalData [(0, 1, s.leg.updLevel.toNat)] ∧
      t.fld F.LEG_LOG_SEQ.LSEQ = e.lseq % 2 ^ 32 ∧ OnlyRegs [R.LEG_STAT, R.LEG_LOG_SEQ] s t) ∧
  (∀ (b : Bool) (s : State), (s.sampleUpd b).leg = { s.leg with
    updLevel := b, updHeld := if b = s.leg.updLevel then min 20 (s.leg.updHeld + 1) else 1 }) ∧
  (∀ (a : SealedAct) (b : Bool) (bad : List Nat) (s : State), s.leg.act = some a → a.begun = none →
    (s.now < a.due → exec (.sealedActivation b bad) s = .next s) ∧
    (a.due ≤ s.now → s.warp.appliedAt = some s.now → exec (.sealedActivation b bad) s =
      .next { s with leg := { s.leg with act := some { a with due := s.now + 1 } } }) ∧
    (a.due ≤ s.now → s.warp.appliedAt ≠ some s.now → s.mayActivate a.slot = false → Inv s →
      ∃ t v : State, exec (.sealedActivation b bad) s = .next t ∧ t = v.export_ (.reqResult a.seq Cause.SEALED_REJECT []) ∧
        v = { s with regs := v.regs, leg := { s.leg with act := none } } ∧ OnlyRegs [R.LEG_REQ_REJ] s v ∧
        v.fld F.LEG_REQ_REJ.LAST_TYPE = 0x0105) ∧
    (a.due ≤ s.now → s.warp.appliedAt ≠ some s.now → s.mayActivate a.slot = true → Inv s →
      ∃ t u : State, exec (.sealedActivation false bad) s = .next u ∧ exec (.sealedActivation true bad) s = .next t ∧
        u.leg.act = some { a with begun := some (s.now, s.sealedSlot, s.fld F.LEG_STAT.LEGAL_UPD == 0) } ∧
        u.fld F.LEG_STAT.RUN = 0 ∧ (∀ j, (Map.findD u.qty.pulses j {}).phase = .idle) ∧ t.leg.act = none ∧
        t = u.activationRuns a s.sealedSlot (s.fld F.LEG_STAT.LEGAL_UPD == 0))) ∧
  (∀ (a : SealedAct) (p old : Nat) (traced : Bool) (bad : List Nat) (s : State), s.leg.act = some a →
    a.begun = some (p, old, traced) →
    (s.now < p + 500 → exec (.sealedActivation true bad) s = .next (s.activationRuns a old traced) ∧
      (s.activationRuns a old traced).leg.act = none ∧ exec (.sealedActivation false bad) s = .next s ∧
      exec .sealedFallback s = .next s) ∧
    (p + 500 ≤ s.now → exec (.sealedActivation true bad) s = .next s ∧
      ∃ (t v w : State) (e : LegalEntry), exec .sealedFallback s = .next t ∧ v = (s.setF (F.LEG_SLOT.STATE a.slot) 4).sealedStart ∧
        t = w.endAct a Cause.SEALED_REJECT ∧ t.leg.act = none ∧ w.leg.fresh = v.leg.fresh ++ [e] ∧
        e.code = Ev.SEALED_FALLBACK ∧ w.evt.queue = v.evt.queue ++ [mkPost v Ev.SEALED_FALLBACK []])) ∧
  (∀ (new old : Nat) (s : State), Inv s → new < 3 → old < 3 → new ≠ old →
    ∃ t, t = s.swapSlots new old ∧ t.fld (F.LEG_SLOT.STATE new) = 1 ∧ t.fld (F.LEG_SLOT.STATE old) = 2 ∧
      t.fld F.LEG_STAT.SLOT = new ∧
      (∀ i < 3, i ≠ new → i ≠ old → t.fld (F.LEG_SLOT.STATE i) =
        (if s.fld (F.LEG_SLOT.STATE i) = 2 then 3 else s.fld (F.LEG_SLOT.STATE i))) ∧ t = { s with regs := t.regs })

/-- R219, R220, R221, R278: a display command is sent while its port is on; the answer of the display takes it from the queue,
and for INIT clears DISP_FAULT; after the fourth attempt without one the queue is emptied, DISP_FAULT is set and recorded, and
INIT is tried again after a second. The display steps to the next item after DISP_SCROLL; a note and a request end at their
time; the display then steps on from its item, or shows the note that waits behind the request. -/
def Obligations.DisplayRetriesStepsAndResumes : Prop :=
  (∀ (a : Option Bool) (s : State), (s.role 59 ≠ 1 ∨ s.leg.frames = []) → exec (.displayFrame a) s = .next s) ∧
  (∀ (f : DispFrame) (l : List DispFrame) (s : State), Inv s → s.role 59 = 1 → s.leg.frames = f :: l →
    (∃ t, exec (.displayFrame (some true)) s = .next t ∧ t.out = (s.send (.display f.bytes)).out ∧
      t.leg = { s.leg with frames := l, tries := 0 } ∧
      (f.code = 1 → t.fld F.LEG_STAT.DISP_FAULT = 0 ∧ OnlyRegs [R.LEG_STAT] s t) ∧ (f.code ≠ 1 → t.regs = s.regs)) ∧
    (∀ a, a ≠ some true → s.leg.tries < 3 →
      ∃ t, exec (.displayFrame a) s = .next t ∧ t.out = (s.send (.display f.bytes)).out ∧
        t.leg = { s.leg with tries := s.leg.tries + 1 } ∧ t.regs = s.regs ∧ t.evt = s.evt) ∧
    (∀ a, a ≠ some true → 3 ≤ s.leg.tries → s.fld F.LEG_STAT.DISP_FAULT = 0 →
      ∃ t, exec (.displayFrame a) s = .next t ∧ t.out = (s.send (.display f.bytes)).out ∧
        t.leg = { s.leg with frames := [], tries := 0, initAt := s.now + 1000 } ∧ t.fld F.LEG_STAT.DISP_FAULT = 1 ∧
        t.evt.queue = s.evt.queue ++ [mkPost s Ev.DISPLAY_FAULT []] ∧ OnlyRegs [R.LEG_STAT] s t)) ∧
  (∀ s : State, s.fld F.LEG_STAT.DISP_FAULT = 1 → s.leg.initAt ≤ s.now →
    exec .displayInitRetry s = .next { s with leg := { s.leg with
      initAt := s.now + 1000, frames := ⟨1, []⟩ :: s.leg.frames, tries := 0 } }) ∧
  (∀ (l : LegalSection) (s : State), s.legal = some l → s.leg.showing = .stepping →
    (s.now < s.leg.stepped + l.dispScroll * 1000 → exec .displayStep s = .next s) ∧
    (s.leg.stepped + l.dispScroll * 1000 ≤ s.now → ∃ t, exec .displayStep s = .next t ∧
      t.leg.dispItem = (if s.leg.dispItem + 1 < l.dispCount then s.leg.dispItem + 1 else 0) ∧ t.leg.stepped = s.now ∧
      t.leg.showing = .stepping ∧ t = { s with leg := t.leg })) ∧
  (∀ (x : List Byte) (p : Nat) (s : State), s.leg.showing = .note x p →
    (s.now < p → exec .displayNoteEnd s = .next s) ∧
    (p ≤ s.now → ∃ t, exec .displayNoteEnd s = .next t ∧ t.leg.showing = .stepping ∧ t.leg.stepped = s.now ∧
      t.leg.dispItem = s.leg.dispItem ∧ t = { s with leg := t.leg })) ∧
  (∀ (d p : Nat) (b : Option (List Byte × Nat)) (s : State), s.leg.showing = .request d p b →
    (s.now < p → exec .displayRequestEnd s = .next s) ∧
    (p ≤ s.now → ∃ t, exec .displayRequestEnd s = .next t ∧ t.leg.dispItem = s.leg.dispItem ∧ t = { s with leg := t.leg } ∧
      (b = none → t.leg.showing = .stepping ∧ t.leg.stepped = s.now) ∧
      (∀ x q, b = some (x, q) → (s.now < q → t.leg.showing = .note x q) ∧
        (q ≤ s.now → t.leg.showing = .stepping ∧ t.leg.stepped = s.now))))

/-- R221 to R223, R278, R289: a key stands in PRT_KEY and is counted while its port is on, ends a display request, and is
parsed while the sealed cores run; a digit opens a short number, up to four digits and '#' the token, '#' after twenty digits
exports the token; '*', a digit up to 3 and '#' ask for a display of 30 seconds; an entry not continued in time is dropped. The
optical port identifies itself to its address or to none while the sealed cores run, and answers option 0 with the data
message at the rate asked for, busy until it has gone out (log 175, a presumption of the model, gives its duration), anything
else with a break. -/
def Obligations.KeypadAndOpticalExchanges : Prop :=
  (∀ (k : Nat) (s : State), Inv s → k < 256 → s.role 58 = 1 →
    ∃ t u, exec (.keypadKey k) s = .next t ∧ u.fld F.PRT_KEY.KEY = k ∧
      u.fld F.PRT_KEY.COUNT = (s.fld F.PRT_KEY.COUNT + 1) % 2 ^ (F.PRT_KEY.COUNT.hi - F.PRT_KEY.COUNT.lo + 1) ∧
      OnlyRegs [R.PRT_KEY] s u ∧ u = { s with regs := u.regs } ∧
      t = (if s.fld F.LEG_STAT.RUN = 1 then u.endRequest.parseKey k else u) ∧
      ((∀ d p x, s.leg.showing ≠ .request d p x) → u.endRequest = u)) ∧
  (∀ (k : Nat) (s : State), s.role 58 ≠ 1 → exec (.keypadKey k) s = .next s) ∧
  (∀ (k : Nat) (s : State), 48 ≤ k → k ≤ 57 → s.leg.keys = .idle → s.parseKey k = s.setKeys (.short [k - 48] s.now)) ∧
  (∀ (k p : Nat) (l : List Nat) (s : State), 48 ≤ k → k ≤ 57 → s.leg.keys = .short l p → l.length < 4 →
    s.parseKey k = s.setKeys (.short (l ++ [k - 48]) s.now)) ∧
  (∀ (p : Nat) (l : List Nat) (s : State), s.leg.keys = .short l p →
    s.parseKey 35 = s.setKeys (.token (l.foldl (fun n d => n * 10 + d) 0) [] s.now)) ∧
  (∀ (k no p : Nat) (l : List Nat) (s : State), 48 ≤ k → k ≤ 57 → s.leg.keys = .token no l p → l.length < 20 →
    s.parseKey k = s.setKeys (.token no (l ++ [k - 48]) s.now)) ∧
  (∀ (no p : Nat) (l : List Nat) (s : State), s.leg.keys = .token no l p → l.length = 20 →
    s.parseKey 35 = (s.setKeys .idle).export_ (.keypadToken no l)) ∧
  (∀ s : State, s.leg.keys = .idle → s.parseKey 42 = s.setKeys (.request none)) ∧
  (∀ (k : Nat) (s : State), 48 ≤ k → k ≤ 57 → s.leg.keys = .request none →
    s.parseKey k = s.setKeys (.request (some (k - 48)))) ∧
  (∀ (d : Nat) (s : State), s.leg.keys = .request (some d) → d ≤ 3 →
    ∃ t b, s.parseKey 35 = t ∧ t.leg.showing = .request d (s.now + 30000) b ∧ t.leg.keys = .idle ∧
      (∀ x p, s.leg.showing = .note x p → b = some (x, p)) ∧ ((∀ x p, s.leg.showing ≠ .note x p) → b = none) ∧
      t = { s with leg := t.leg }) ∧
  (∀ (no p : Nat) (l : List Nat) (s : State), (s.leg.keys = .short l p ∨ s.leg.keys = .token no l p) →
    (p + 1000 * s.leg.keyTimeout < s.now → exec .keypadEntryTimeout s = .next (s.setKeys .idle)) ∧
    (s.now ≤ p + 1000 * s.leg.keyTimeout → exec .keypadEntryTimeout s = .next s)) ∧
  (∀ (a : List Byte) (l : LegalSection) (s : State), s.legal = some l →
    (s.role 40 = 1 → s.fld F.LEG_STAT.RUN = 1 → s.fld F.LEG_STAT.OPT_BUSY = 0 →
      (a = [] ∨ a = l.optAddr.filter (· != 0)) → exec (.opticalRequest a) s =
        .next (({ s with leg := { s.leg with optical := .identified } } : State).send .opticalIdent)) ∧
    (a ≠ [] → a ≠ l.optAddr.filter (· != 0) → exec (.opticalRequest a) s = .next s)) ∧
  (∀ (option baud : Nat) (s : State), Inv s → s.leg.optical = .identified →
    (option = 0 → baud ≤ 6 → ∃ t u : State, exec (.opticalAck option baud) s = .next t ∧
      u.fld F.LEG_OPT_CNT.COUNT = min (s.fld F.LEG_OPT_CNT.COUNT + 1)
        (2 ^ (F.LEG_OPT_CNT.COUNT.hi - F.LEG_OPT_CNT.COUNT.lo + 1) - 1) ∧ u.fld F.LEG_STAT.OPT_BUSY = 1 ∧
      OnlyRegs [R.LEG_OPT_CNT, R.LEG_STAT] s u ∧
      u = { s with regs := u.regs, leg := { s.leg with
        optical := .reading (s.now + readoutPaces (opticalBaud baud) s.dataMessage) } } ∧
      t = u.send (.opticalData (opticalBaud baud) s.dataMessage)) ∧
    (option ≠ 0 ∨ 6 < baud → exec (.opticalAck option baud) s =
      .next (({ s with leg := { s.leg with optical := .idle } } : State).send .opticalBreak))) ∧
  (∀ (p : Nat) (s : State), s.leg.optical = .reading p →
    (s.now < p → s.opticalDue = s) ∧
    (p ≤ s.now → s.opticalDue =
      (({ s with leg := { s.leg with optical := .idle } } : State).flag F.LEG_STAT.OPT_BUSY false).send .opticalEnd))

/-! ### The radio mesh (R225 to R255) -/

/-- R240 to R246: an event that is past does nothing; one of a busy radio is counted and passed; one whose first frame is
not heard in its guard window counts as missing on its channel; a frame heard in it is served. A connection whose
supervision ended is lost, counted and recorded, and its payloads wait. A channel excluded a day ago returns to the maps.
The joined table in JOURNAL is the one held. A synthesiser out of lock is recorded. -/
def Obligations.ConnectionsRunEndAndAreKept : Prop :=
  (∀ (short n : Nat) (e : JoinedEntry) (c : RadioConn) (s : State), Inv s → Map.find s.rad.joined short = some e →
    e.conn = some c → c.radio < 2 →
    (n < c.upcoming ∨ s.receives = false → ∀ busy pre l, exec (.connectionEvent short n busy pre l) s = .next s) ∧
    (∀ pre l, s.receives = true → c.upcoming ≤ n → c.predict e.sleepy n - (s.guard c e.sleepy n : Int) < s.nowUs + 1000 →
      ∃ t, exec (.connectionEvent short n true pre l) s = .next t ∧
        t.fld (F.RFM_EVT_SKIP_CNT.COUNT c.radio) = min (s.fld (F.RFM_EVT_SKIP_CNT.COUNT c.radio) + 1) (2 ^ 32 - 1) ∧
        OnlyRegs [R.RFM_EVT_SKIP_CNT c.radio] s t ∧
        (Map.find t.rad.joined short).bind (fun x => x.conn.map fun y => y.upcoming) = some (n + 1) ∧
        (∀ a, a ≠ short → Map.find t.rad.joined a = Map.find s.rad.joined a) ∧ t.out = s.out ∧ t.evt = s.evt) ∧
    (∀ pre l lna, s.receives = true → c.upcoming ≤ n → c.predict e.sleepy n - (s.guard c e.sleepy n : Int) < s.nowUs + 1000 →
      lna = (match s.radio c.radio with | some rc => rc.flags.getLsbD 1 | none => false) →
      s.contended short c (c.predict e.sleepy n - (s.guard c e.sleepy n : Int))
        (c.predict e.sleepy n + (s.guard c e.sleepy n : Int)) = false →
      c.predict e.sleepy n + (s.guard c e.sleepy n : Int) < pre →
      exec (.connectionEvent short n false pre l) s =
        .next ((((s.send (.receiver c.radio (c.predict e.sleepy n - (s.guard c e.sleepy n : Int)) lna)).passEvent
          short n).reportTx (.served short n)).expectEvent c.radio (c.channel n) true)) ∧
    (∀ pre f l lna, s.receives = true → c.upcoming ≤ n → c.predict e.sleepy n - (s.guard c e.sleepy n : Int) < s.nowUs + 1000 →
      lna = (match s.radio c.radio with | some rc => rc.flags.getLsbD 1 | none => false) →
      s.contended short c (c.predict e.sleepy n - (s.guard c e.sleepy n : Int))
        (c.predict e.sleepy n + (s.guard c e.sleepy n : Int)) = false →
      c.predict e.sleepy n - (s.guard c e.sleepy n : Int) ≤ pre →
      pre ≤ c.predict e.sleepy n + (s.guard c e.sleepy n : Int) →
      exec (.connectionEvent short n false pre (f :: l)) s =
        .next (((((s.send (.receiver c.radio (c.predict e.sleepy n - (s.guard c e.sleepy n : Int)) lna)).runEvent
          short c.radio (c.channel n) n pre 1 (f :: l)).passEvent short n).reportTx (.served short n)).expectEvent
            c.radio (c.channel n) (!f.fcsOk))) ∧
    (s.nowUs < c.anchor + c.sup * 100000 → exec (.connectionLost short) s = .next s) ∧
    (c.anchor + c.sup * 100000 ≤ s.nowUs → ∃ t x, exec (.connectionLost short) s = .next t ∧
      Map.find t.rad.joined short = some x ∧ x.conn = none ∧ x.queue.length = e.queue.length ∧
      (∀ p ∈ x.queue, p.held.isSome = true) ∧ x.meter = e.meter ∧ x.joinCtr = e.joinCtr ∧ x.plc = e.plc ∧
      (∀ a, a ≠ short → Map.find t.rad.joined a = Map.find s.rad.joined a) ∧
      t.fld F.RFM_CONN_LOST_CNT.COUNT = min (s.fld F.RFM_CONN_LOST_CNT.COUNT + 1) (2 ^ 32 - 1) ∧
      t.evt.queue = s.evt.queue ++ [mkPost s Ev.RF_CONN_LOST [b2 short]] ∧
      OnlyRegs [R.RFM_JOINED, R.PLC_ROUTES, R.RFM_CONN_LOST_CNT] s t)) ∧
  (∀ (x ch p : Nat) (s : State), Map.find s.rad.excluded (64 * x + ch) = some p → ch < 64 →
    (s.evt.opSeconds.toNat < p + 86400 → exec (.channelReturn x ch) s = .next s) ∧
    (p + 86400 ≤ s.evt.opSeconds.toNat → ∃ t, exec (.channelReturn x ch) s = .next t ∧
      t.rad.excluded = Map.erase s.rad.excluded (64 * x + ch) ∧ t.evt.queue = s.evt.queue ++ [mkPost s Ev.RF_CHANNEL []] ∧
      t.regs = s.regs ∧ t.out = s.out)) ∧
  (∀ s : State, exec .joinedTableWrite s = .next { s with rad := { s.rad with
    saved := s.rad.joined, savedAt := (s.now, s.clk.ns), dirty := none } }) ∧
  (∀ (x : Nat) (s : State), Inv s → x < 2 → ∃ t, exec (.synthLockFail x) s = .next t ∧ t.fld (F.RFM_STAT.LOCK x) = 0 ∧
    t.fld (F.RFM_STAT.LOCK_FAIL_SEEN x) = 1 ∧ OnlyRegs [R.RFM_STAT x] s t ∧
    t = { s.post Ev.RF_SYNTH [] with regs := t.regs })

/-- R226, R229, R236 to R238, R249, R250, R255: a frame that fails its check is counted and nothing else; one in order is
counted, and a JOIN_REQ is judged: refused without an answer, refused with a STATUS (the cause of its event is a free one,
log 104, a choice of the model), or joined. A flood whose key is held is counted; another enters the cache and its payload is
used: a relayed JOIN_REQ is judged, another message is passed up. A wireless M-Bus frame goes to ingest with its route and
time. While the ports are off nothing is received. -/
def Obligations.RadioFramesAreCountedAndUsed : Prop :=
  (∀ (x : Nat) (c : RadioConf) (l : List Byte) (fin : Int) (s : State), Inv s → x < 2 → s.radio x = some c → c.mesh = true →
    s.receives = true →
    (∃ t, exec (.joinReq x false l fin) s = .next t ∧ Counted (F.RFM_CRC_ERR_CNT.COUNT x) s t) ∧
    (∃ t u, exec (.joinReq x true l fin) s = .next t ∧ Counted (F.RFM_RX_CNT.COUNT x) s u ∧
      (∀ q, joinReqOf l = some q → t = u.joinRequest x (c.floodCh.getD 0 0) false q fin) ∧ (joinReqOf l = none → t = u))) ∧
  (∀ (x : Nat) (c : RadioConf) (fin : Int) (fcsOk : Bool) (l : List Byte) (s : State), s.radio x = some c →
    (c.mesh = false ∨ s.receives = false) → exec (.joinReq x fcsOk l fin) s = .next s) ∧
  (∀ (x ch : Nat) (relayed : Bool) (q : JoinReq) (fin : Int) (s : State), Inv s →
    (∀ k, s.judgeJoin x q = .silent k → ∃ u, Counted F.RFM_JOIN_REJ_CNT.COUNT s u ∧
      s.joinRequest x ch relayed q fin = u.post Ev.RF_JOIN_REJECT [b8 q.eui, b2 k]) ∧
    (∀ i st, s.judgeJoin x q = .refused i st → ∃ u, Counted F.RFM_JOIN_REJ_CNT.COUNT s u ∧
      s.joinRequest x ch relayed q fin =
        (u.post Ev.RF_JOIN_REJECT [b8 q.eui, b2 (Cause.pick s.free)]).draw.answerJoin x ch relayed i q st none fin) ∧
    (∀ i a, s.judgeJoin x q = .accepted i a → ∃ u t e, Map.find u.rad.joined a = some e ∧ e.meter = i ∧
      e.joinCtr = q.joinCtr ∧ e.sleepy = q.sleepy ∧ e.ciMs = q.ciMs ∧ e.conn = none ∧ OnlyRegs [R.RFM_JOINED, R.PLC_ROUTES] s u ∧
      (∀ b, b ≠ a → Map.find u.rad.joined b = Map.find s.rad.joined b) ∧
      Counted F.RFM_JOIN_CNT.COUNT (u.answerJoin x ch relayed i q 0 (some a) fin) t ∧
      s.joinRequest x ch relayed q fin = t.post Ev.RF_JOIN [b4 i, b2 a, b2 x])) ∧
  (∀ (x ch : Nat) (c : RadioConf) (l : List Byte) (fin : Int) (s : State), Inv s → x < 2 →
    s.radio x = some c → c.mesh = true → s.receives = true →
    (∃ t, exec (.floodReceive x ch false l fin) s = .next t ∧ Counted (F.RFM_CRC_ERR_CNT.COUNT x) s t) ∧
    ((floodOf l = none ∨ ∃ o q p, floodOf l = some (false, o, q, p)) →
      ∃ t, exec (.floodReceive x ch true l fin) s = .next t ∧ Counted (F.RFM_RX_CNT.COUNT x) s t) ∧
    (∀ o seq p, floodOf l = some (true, o, seq, p) →
      ((∃ k ∈ s.rad.seen, k.1 = o ∧ k.2.1 = seq ∧ s.now < k.2.2 + 60000) →
        ∃ t u, exec (.floodReceive x ch true l fin) s = .next t ∧ Counted (F.RFM_RX_CNT.COUNT x) s u ∧
          Counted F.RFM_SEEN_HIT_CNT.COUNT u t) ∧
      ((¬ ∃ k ∈ s.rad.seen, k.1 = o ∧ k.2.1 = seq ∧ s.now < k.2.2 + 60000) →
        ∃ t u v, exec (.floodReceive x ch true l fin) s = .next t ∧ Counted (F.RFM_RX_CNT.COUNT x) s u ∧
          v = u.see o seq ∧ v.rad.seen.getLast? = some (o, seq, s.now) ∧
          (∀ q, joinReqOf p = some q → t = v.joinRequest x ch true q fin) ∧
          (joinReqOf p = none → t = v.passUp (match o with | .short a => a | .long _ => 0xFFFF) none false
            (v.floodFrame x o p))))) ∧
  (∀ (x : Nat) (c : RadioConf) (f : IngestFrame) (s : State), Inv s → x < 2 → s.radio x = some c → c.wmbus = true →
    s.receives = true →
    (∃ t, exec (.wmbusFrame x false f) s = .next t ∧ Counted (F.RFM_CRC_ERR_CNT.COUNT x) s t) ∧
    (∃ t u, exec (.wmbusFrame x true f) s = .next t ∧ Counted (F.RFM_WMB_CNT.COUNT x) s u ∧
      t = u.handIn (f.stamp (1 + x) s.timeMs)))

/-- R232, R233, R250, R252, R253: the oldest body for a meter is sealed under the next counter and queued for its node, or
fails; the oldest flood takes the next sequence number, enters the cache and goes out on every flood channel; the first
waiting transmission that may start does, and what it waits for is taken from the list; what waited for MAX_S fails, but
no JOIN_RSP does. -/
def Obligations.MeshTransmissionsAreSentOrWait : Prop :=
  (∀ (i : Nat) (body : List Byte) (l : List (Nat × List Byte)) (s u : State), s.ing.toMeter = (i, body) :: l →
    u = { s with ing := { s.ing with toMeter := l } } →
    (s.joinedOf i = none → exec .envelopeSend s = .next (u.sealEnvelope i body)) ∧
    (∀ a key, s.readingKey (s.meter i) = some key → s.joinedOf i = some a →
      s.fld F.RFM_DEV_CTR.DCOUNTER + 1 < 0xF0000000 → s.epoch ≤ (s.meter i).keyEpoch → Inv s →
      ∃ v, v = u.sealEnvelope i body ∧ exec .envelopeSend s = .next (v.plcPump a).1 ∧
        v.fld F.RFM_DEV_CTR.DCOUNTER = s.fld F.RFM_DEV_CTR.DCOUNTER + 1 ∧ OnlyRegs [R.RFM_DEV_CTR] s v ∧
        (s.fld F.RFM_DEV_CTR.DCOUNTER < s.rad.reserved → v.rad.reserved = s.rad.reserved) ∧
        (s.rad.reserved ≤ s.fld F.RFM_DEV_CTR.DCOUNTER → v.rad.reserved = min 0xFFFFFFFF (s.rad.reserved + 65536)) ∧
        (∀ e, Map.find s.rad.joined a = some e → ∃ p, Map.find v.rad.joined a = some { e with queue := e.queue ++ [p] } ∧
          p.body = .message (sealBody key (extHead (s.meter i).conf.extId) (s.fld F.RFM_DEV_CTR.DCOUNTER + 1) body) ∧
          p.lsn = 0) ∧
        (∀ b, b ≠ a → Map.find v.rad.joined b = Map.find s.rad.joined b))) ∧
  (∀ (f : DownFlood) (l : List DownFlood) (s : State), s.rad.floods = f :: l → s.receives = true →
    ∃ u : State, u = (({ s with rad := { s.rad with floods := l, fseq := (s.rad.fseq + 1) % 65536 } } : State).see
        (.short 0xFFFE) ((s.rad.fseq + 1) % 65536)) ∧ u.rad.floods = l ∧ u.rad.fseq = (s.rad.fseq + 1) % 65536 ∧
      u.rad.seen.getLast? = some (.short 0xFFFE, (s.rad.fseq + 1) % 65536, s.now) ∧
      exec .floodSend s = .next (u.meshRadios.foldl (fun t x => match u.radio x with
        | none => t
        | some c => c.floodCh.foldl (fun v ch => v.floodOn x ch u.rad.fseq f) t) u)) ∧
  (∀ s : State, (∀ w ∈ s.rad.waiting, s.mayStart w = false) → exec .waitingTransmissionStart s = .next s) ∧
  (∀ (w : TxWait) (s : State), w ∈ s.rad.waiting → s.mayStart w = true → s.receives = true →
    ∃ t u : State, ∃ y : TxWait, exec .waitingTransmissionStart s = .next t ∧ y ∈ s.rad.waiting ∧ s.mayStart y = true ∧
      y.kind ≤ w.kind ∧ u = { s with rad := { s.rad with waiting := s.rad.waiting.erase y } } ∧ t = (u.startWait y).1) ∧
  (∀ s : State, ∃ t, exec .txWaitExpiry s = .next t ∧ t = { s with rad := t.rad } ∧
    t.rad.joined.length = s.rad.joined.length ∧
    (∀ w, w ∈ t.rad.waiting ↔ w ∈ s.rad.waiting ∧ (w.kind = 0 ∨ s.now < w.since + s.fld F.RFM_TX_WAIT.MAX_S * 1000)) ∧
    (∀ a e, Map.find s.rad.joined a = some e → e.plc = none → ∃ x, Map.find t.rad.joined a = some { e with queue := x } ∧
      ∀ p, p ∈ x ↔ p ∈ e.queue ∧ ∀ h, p.held = some h → s.now < h + s.fld F.RFM_TX_WAIT.MAX_S * 1000) ∧
    (∀ a e, Map.find s.rad.joined a = some e → e.plc.isSome = true → Map.find t.rad.joined a = some e))

/-! ### Power line (R256 to R277) -/

/-- R256, R259 to R266, R271: a frame whose header fails is counted with its erased symbols, and so is one that its code or
its check rejects; a good one for this device is counted and acknowledged, and its content used; an acknowledgement of the
frame awaited ends the wait. The first frame of the queue is sent unless the medium is taken or an acknowledgement is awaited,
and a frame that is acknowledged is then awaited; each transmission is counted and drives its line from its lead to 2 µs after
it. Without its acknowledgement a frame returns to the queue with one more try and a wider slot, or fails after TRIES. The
oldest tone map received governs its link. -/
def Obligations.PowerLineFramesAreSentAndTaken : Prop :=
  (∀ (x : Nat) (c : PlcConf) (f : PlcFrame) (s : State), Inv s → x < 4 → s.plcConf x = some c → s.receives = true →
    (fchOk f.fch = false → ∃ t, exec (.plcFrameReceive x f) s = .next t ∧
      t.fld (F.PLC_ERASE_CNT.COUNT x) = min (s.fld (F.PLC_ERASE_CNT.COUNT x) + f.erased) (2 ^ 32 - 1) ∧
      t.fld (F.PLC_FCH_ERR_CNT.COUNT x) = min (s.fld (F.PLC_FCH_ERR_CNT.COUNT x) + 1) (2 ^ 32 - 1) ∧
      OnlyRegs [R.PLC_ERASE_CNT x, R.PLC_FCH_ERR_CNT x] s t ∧ t = { s with regs := t.regs }) ∧
    (fchOk f.fch = true → fchType f.fch ≠ 1 →
      (f.rsOk = false ∨ f.fcsOk = false ∨ s.tmiKnown x (fchSrc f.fch) (fchTmi f.fch) = false) →
      ∃ t, exec (.plcFrameReceive x f) s = .next t ∧
        t.fld (F.PLC_ERASE_CNT.COUNT x) = min (s.fld (F.PLC_ERASE_CNT.COUNT x) + f.erased) (2 ^ 32 - 1) ∧
        t.fld (F.PLC_RS_FAIL_CNT.COUNT x) = min (s.fld (F.PLC_RS_FAIL_CNT.COUNT x) + 1) (2 ^ 32 - 1) ∧
        OnlyRegs [R.PLC_ERASE_CNT x, R.PLC_RS_FAIL_CNT x] s t ∧ t = { s with regs := t.regs }) ∧
    (fchOk f.fch = true → fchType f.fch = 1 → ∀ w, (s.chan x).awaiting = some w → psduFcs w.psdu = fchSrc f.fch →
      ∃ t, exec (.plcFrameReceive x f) s = .next t ∧ (t.chan x).awaiting = none ∧ (t.chan x).queue = (s.chan x).queue ∧
        (t.chan x).attempts = (false :: (s.chan x).attempts).take 1000 ∧ (∀ y, y ≠ x → t.chan y = s.chan y) ∧
        OnlyRegs [R.PLC_ERASE_CNT x] s t ∧ t = { s with regs := t.regs, plc := t.plc }) ∧
    (fchOk f.fch = true → fchType f.fch = 0 → f.rsOk = true → f.fcsOk = true →
      s.tmiKnown x (fchSrc f.fch) (fchTmi f.fch) = true → routeNext f.psdu = 0xFFFE → f.snr = [] →
      ∃ (t u : State) (w : BitVec 64), exec (.plcFrameReceive x f) s = .next t ∧ u = { s with regs := u.regs } ∧
        u.fld (F.PLC_ERASE_CNT.COUNT x) = min (s.fld (F.PLC_ERASE_CNT.COUNT x) + f.erased) (2 ^ 32 - 1) ∧
        u.fld (F.PLC_RX_CNT.COUNT x) = min (s.fld (F.PLC_RX_CNT.COUNT x) + 1) (2 ^ 32 - 1) ∧
        u.fld (F.PLC_TX_CNT.COUNT x) = min (s.fld (F.PLC_TX_CNT.COUNT x) + 1) (2 ^ 32 - 1) ∧
        OnlyRegs [R.PLC_ERASE_CNT x, R.PLC_RX_CNT x, R.PLC_TX_CNT x] s u ∧ w = fchWord 1 0 0 0 0 (psduFcs f.psdu) ∧
        t = (u.send (.powerLine x ⟨c.txLevel, (-(c.txLeadUs : Int), headUs c + 2), 0, w, [], fchSymbols c w⟩)).plcContent
          x c f)) ∧
  (∀ (x a : Nat) (sensed : Bool) (c : PlcConf) (t : PlcTx) (s : State), s.plcConf x = some c →
    firstFrame (s.chan x).queue = some t →
    ((sensed = true ∨ s.receives = false ∨ (s.chan x).awaiting.isSome = true) →
      exec (.csmaAttempt x a sensed) s = .next s) ∧
    (sensed = false → s.receives = true → (s.chan x).awaiting = none → s.coord x = false →
      ∃ (u : State) (slot cph : Nat), slot < 2 ^ t.be ∧ cph = s.cphAt x (s.now * 1000 + a + headUs c) ∧
        exec (.csmaAttempt x a sensed) s =
          .next (u.plcFrame x c (if t.next = 0xFFFF then 2 else 0) (s.txMap x t) cph slot t.psdu) ∧
        u.chan x = { s.chan x with
          queue := (s.chan x).queue.erase t, awaiting := if t.next = 0xFFFF then none else some t } ∧
        (∀ y, y ≠ x → u.chan y = s.chan y) ∧ u = { s with pair := u.pair, drawn := u.drawn, plc := u.plc })) ∧
  (∀ (x type cph slot : Nat) (m : Option ToneMap) (l : List Byte) (c : PlcConf) (s : State), Inv s → x < 4 →
    ∃ u o, s.plcFrame x c type m cph slot l = u.send (.powerLine x o) ∧
      u.fld (F.PLC_TX_CNT.COUNT x) = min (s.fld (F.PLC_TX_CNT.COUNT x) + 1) (2 ^ 32 - 1) ∧ OnlyRegs [R.PLC_TX_CNT x] s u ∧
      u = { s with regs := u.regs } ∧ o.psdu = l ∧ o.level = c.txLevel ∧ o.slot = slot ∧ o.txen.1 = -(c.txLeadUs : Int) ∧
      o.txen.2 = ((headUs c + 250 * s.symbolsOf x c m cph l.length + 2 : Nat) : Int)) ∧
  (∀ (x : Nat) (t : PlcTx) (s : State), Inv s → x < 4 → (s.chan x).awaiting = some t →
    (t.tries + 1 < s.fld F.PLC_CSMA.TRIES → ∃ u, exec (.plcAckTimeout x) s = .next u ∧ (u.chan x).awaiting = none ∧
      (u.chan x).queue = { t with
        tries := t.tries + 1, be := max t.be (min (t.be + 1) (min 4 (s.fld F.PLC_CSMA.BE_MAX))) } :: (s.chan x).queue ∧
      (u.chan x).attempts = (true :: (s.chan x).attempts).take 1000 ∧ (∀ y, y ≠ x → u.chan y = s.chan y) ∧
      u.regs = s.regs ∧ u.rad = s.rad ∧ u.out = s.out) ∧
    (s.fld F.PLC_CSMA.TRIES ≤ t.tries + 1 → ∃ u, exec (.plcAckTimeout x) s = .next u ∧ (u.chan x).awaiting = none ∧
      (u.chan x).queue = (s.chan x).queue ∧ (∀ y, y ≠ x → u.chan y = s.chan y) ∧
      u.fld (F.PLC_NOACK_CNT.COUNT x) = min (s.fld (F.PLC_NOACK_CNT.COUNT x) + 1) (2 ^ 32 - 1) ∧
      OnlyRegs [R.PLC_NOACK_CNT x, R.RFM_JOINED, R.PLC_ROUTES] s u ∧ u.out = s.out)) ∧
  (∀ (x src : Nat) (m : ToneMap) (l : List (Nat × Nat × ToneMap)) (s : State), s.plc.toneMaps = (x, src, m) :: l →
    ∃ t, exec .tmUpdate s = .next t ∧ t.plc.toneMaps = l ∧ t = { s with plc := t.plc } ∧
      Map.findD (t.chan x).tones src {} = { Map.findD (s.chan x).tones src {} with tx := some m, missed := 0 } ∧
      (∀ y, y ≠ src → Map.find (t.chan x).tones y = Map.find (s.chan x).tones y) ∧ (∀ y, y ≠ x → t.chan y = s.chan y))

/-- R262, R267, R269, R270: a silent reference loses its lock, and three measurements that agree gain it, both recorded. At a
pace that is no multiple of SF_MS nothing happens; a channel that is to be coordinated takes the mode and sends a beacon, with
the next sequence number; one that is no longer to be sends a LAST beacon, and at the next superframe leaves the mode with
empty slots. A beacon loss is recorded. -/
def Obligations.CoordinationAndReferenceFollowTheirRules : Prop :=
  (∀ (x : Nat) (c : PlcConf) (s : State), Inv s → x < 4 → s.plcConf x = some c →
    ((s.fld (F.PLC_MODE.SF_MS x) = 0 ∨ s.now % s.fld (F.PLC_MODE.SF_MS x) ≠ 0) → exec (.superframeStart x) s = .next s) ∧
    (s.fld (F.PLC_MODE.SF_MS x) ≠ 0 → s.now % s.fld (F.PLC_MODE.SF_MS x) = 0 → s.coord x = false →
      s.fld (F.PLC_MODE.MODE x) = 1 → ∃ u : State, exec (.superframeStart x) s = .next (u.beacon x false) ∧
        u.fld (F.PLC_STAT.COORD x) = 1 ∧ u.fld (F.PLC_STAT.MODE_SEEN x) = 1 ∧
        u.evt.queue = s.evt.queue ++ [mkPost s Ev.PLC_MODE []] ∧ (u.chan x).coordAt = s.now ∧
        (u.chan x).sfSeq = (s.chan x).sfSeq ∧ (u.chan x).queue = (s.chan x).queue ∧
        OnlyRegs [R.PLC_STAT x] s u ∧ (∀ y, y ≠ x → u.chan y = s.chan y) ∧ u.out = s.out) ∧
    (s.fld (F.PLC_MODE.SF_MS x) ≠ 0 → s.now % s.fld (F.PLC_MODE.SF_MS x) = 0 → s.coord x = true →
      (s.chan x).last = false → s.fld (F.PLC_MODE.MODE x) = 0 →
      ∃ t u : State, exec (.superframeStart x) s = .next t ∧ t = { u.beacon x true with plc := t.plc } ∧
        u = { s with plc := u.plc } ∧ (t.chan x).last = true ∧ (t.chan x).active = (s.chan x).active ∧
        (t.chan x).sfSeq = ((s.chan x).sfSeq + 1) % 65536 ∧ OnlyRegs [R.PLC_TX_CNT x] s t ∧
        (∀ y, y ≠ x → t.chan y = s.chan y)) ∧
    (s.fld (F.PLC_MODE.SF_MS x) ≠ 0 → s.now % s.fld (F.PLC_MODE.SF_MS x) = 0 → s.coord x = true →
      (s.chan x).last = true → ∃ t, exec (.superframeStart x) s = .next t ∧ t.fld (F.PLC_STAT.COORD x) = 0 ∧
        t.fld (F.PLC_STAT.MODE_SEEN x) = 1 ∧ (t.chan x).last = false ∧ (t.chan x).active = [] ∧
        (t.chan x).shadow = [] ∧ (t.chan x).changes = [] ∧ (t.chan x).queue = (s.chan x).queue ∧
        t.evt.queue = s.evt.queue ++ [mkPost s Ev.PLC_MODE []] ∧ t.out = s.out ∧ OnlyRegs [R.PLC_STAT x] s t) ∧
    (∀ last, ∃ (t u : State) (cph : Nat) (l : List Byte), t = s.beacon x last ∧ t = u.plcFrame x c 3 none cph 0 l ∧
      u.chan x = { s.chan x with sfSeq := ((s.chan x).sfSeq + 1) % 65536 } ∧ (∀ y, y ≠ x → u.chan y = s.chan y) ∧
      fieldAt (l.drop 6) 0 1 = 6 ∧ fieldAt (l.drop 6) 3 2 = ((s.chan x).sfSeq + 1) % 65536 ∧
      fieldAt (l.drop 6) 7 1 = (if last then 1 else 0)) ∧
    (c.refSrc = 0 → ∀ m, exec (.referenceMeasure x m) s = .next s) ∧
    (c.refSrc ≠ 0 → s.fld (F.PLC_STAT.REF_LOCK x) = 1 → ∃ t, exec (.referenceMeasure x .silent) s = .next t ∧
      t.fld (F.PLC_STAT.REF_LOCK x) = 0 ∧ t.fld (F.PLC_REF_PERIOD.PERIOD x) = 0 ∧ (t.chan x).measured = [] ∧
      t.evt.queue = s.evt.queue ++ [mkPost s Ev.PLC_REF [b2 x, b8 (s.fld (F.PLC_REF_PERIOD.PERIOD x))]] ∧
      OnlyRegs [R.PLC_STAT x, R.PLC_REF_PERIOD x] s t) ∧
    (∀ p o a b, c.refSrc ≠ 0 → s.fld (F.PLC_STAT.REF_LOCK x) = 0 → (s.chan x).measured = [a, b] → agree [p, a, b] = true →
      ∃ t, exec (.referenceMeasure x (.edges p o)) s = .next t ∧ t.fld (F.PLC_STAT.REF_LOCK x) = 1 ∧
        t.fld (F.PLC_REF_PERIOD.PERIOD x) = p % 2 ^ 24 ∧ (t.chan x).measured = [p, a, b] ∧ (t.chan x).origin = o ∧
        t.evt.queue = s.evt.queue ++ [mkPost s Ev.PLC_REF [b2 x, b8 p]] ∧
        OnlyRegs [R.PLC_STAT x, R.PLC_REF_PERIOD x] s t)) ∧
  (∀ (m : NodeMsg) (rest : List NodeMsg) (l : List Byte) (s : State), takeInbox 4 s.rad.inbox = some (m, rest) →
    m.frame.body = .tylian l → l.length = 4 →
    exec .beaconLoss s = .next (({ s with rad := { s.rad with inbox := rest } } : State).post Ev.PLC_BEACON_LOSS
      [b2 m.short, b4 (fieldAt l 2 2)]))

/-- R268, R272 to R275: a slot request is granted in the shadow table or answered with length 0, as the node is direct and the
contention-free period has room; a route is advertised every ADV_S seconds. A join that is refused is counted and recorded (the
cause of a refusal with a STATUS is a free one, log 104, a choice of the model); one that is accepted enters the node with the
reverse of the path it came on. A node not heard for three keep-alives is lost, with its route and slots. A payload not
acknowledged end to end is sent again, and after RETRIES fails with its route; what waited too long for a route fails. -/
def Obligations.PowerLineLinksAreJoinedKeptAndLost : Prop :=
  (∀ (m : NodeMsg) (x : Nat) (rest : List NodeMsg) (l : List Byte) (s : State), takeInbox 3 s.rad.inbox = some (m, rest) →
    m.chan = some x → m.frame.body = .tylian l → l.length = 4 →
    exec .slotReq s = .next (({ s with rad := { s.rad with inbox := rest } } : State).grantSlot x m.short (fieldAt l 1 1)
      (fieldAt l 2 1))) ∧
  (∀ (x a len dir : Nat) (e : JoinedEntry) (k : PlcLink) (others : List PlcSlot) (s : State),
    Map.find s.rad.joined a = some e → e.plc = some k → k.valid = false → 0 < len →
    others = (s.chan x).shadow.filter (fun p => !(p.short == a && p.down == (dir == 1))) →
    ∃ t p, s.grantSlot x a len dir = t ∧ Map.find t.rad.joined a = some { e with queue := e.queue ++ [p] } ∧
      (k.path = [] → others.length < 64 →
        (sumNat (fun p : PlcSlot => 250 * p.len) others + 250 * len) * 100 ≤
          s.fld (F.PLC_MODE.CFP_PCT x) * s.fld (F.PLC_MODE.SF_MS x) * 1000 →
        (t.chan x).shadow = others ++ [⟨a, len, dir == 1⟩] ∧
          p.body = .message (packBytes [(1, 3), (1, len), (1, dir), (1, 0)])) ∧
      ((k.path ≠ [] ∨ 64 ≤ others.length ∨ s.fld (F.PLC_MODE.CFP_PCT x) * s.fld (F.PLC_MODE.SF_MS x) * 1000 <
          (sumNat (fun p : PlcSlot => 250 * p.len) others + 250 * len) * 100) →
        (t.chan x).shadow = (s.chan x).shadow ∧ p.body = .message (packBytes [(1, 3), (1, 0), (1, dir), (1, 0)]))) ∧
  (∀ (x : Nat) (c : PlcConf) (s : State), s.plcConf x = some c →
    (∀ p, (s.chan x).advAt = some p → s.now < p + s.fld F.PLC_ROUTE.ADV_S * 1000 → exec (.routeAdv x) s = .next s) ∧
    ((∀ p, (s.chan x).advAt = some p → p + s.fld F.PLC_ROUTE.ADV_S * 1000 ≤ s.now) →
      ∃ t f, exec (.routeAdv x) s = .next t ∧ (t.chan x).advAt = some s.now ∧ (t.chan x).queue = (s.chan x).queue ++ [f] ∧
        f.mac = packBytes [(1, 5), (2, c.netId), (2, 0), (1, 0), (1, 0), (2, (s.plc.advSeq + 1) % 65536)] ∧
        f.next = 0xFFFF ∧ f.path = [] ∧
        t.plc.advSeq = (s.plc.advSeq + 1) % 65536 ∧ (∀ y, y ≠ x → t.chan y = s.chan y) ∧ t.regs = s.regs)) ∧
  (∀ (j : PlcJoin) (l : List PlcJoin) (s u : State), Inv s → s.plc.joins = j :: l →
    u = { s with plc := { s.plc with joins := l } } →
    (∀ k, u.judgePlcJoin j.req = .silent k → ∃ t v, exec .plcJoinReq s = .next t ∧
      v.fld F.PLC_JOIN_CNT.REJECTS = min (s.fld F.PLC_JOIN_CNT.REJECTS + 1) 0xFFFF ∧ OnlyRegs [R.PLC_JOIN_CNT] s v ∧
      v = { u with regs := v.regs } ∧ t = v.post Ev.PLC_JOIN_REJECT [b8 j.req.eui, b2 k]) ∧
    (∀ i st, u.judgePlcJoin j.req = .refused i st → ∃ t v, exec .plcJoinReq s = .next t ∧
      v.fld F.PLC_JOIN_CNT.REJECTS = min (s.fld F.PLC_JOIN_CNT.REJECTS + 1) 0xFFFF ∧ OnlyRegs [R.PLC_JOIN_CNT] s v ∧
      v = { u with regs := v.regs } ∧
      t = (v.post Ev.PLC_JOIN_REJECT [b8 j.req.eui, b2 (Cause.pick s.free)]).draw.plcJoinRsp j i st false 0) ∧
    (∀ i a, u.judgePlcJoin j.req = .accepted i a → ∃ t v : State, ∃ e, exec .plcJoinReq s = .next t ∧
      Map.find v.rad.joined a = some e ∧ e.meter = i ∧ e.joinCtr = j.req.joinCtr ∧ e.conn = none ∧
      e.plc = some ⟨j.chan, j.path.reverse, j.cost, s.now, true, s.now, true⟩ ∧ e.rxCtr = 0 ∧ e.txCtr = 0 ∧
      v.fld F.PLC_JOIN_CNT.JOINS = min (s.fld F.PLC_JOIN_CNT.JOINS + 1) 0xFFFF ∧
      OnlyRegs [R.PLC_JOIN_CNT, R.RFM_JOINED, R.PLC_ROUTES] s v ∧
      (∀ b, b ≠ a → Map.find v.rad.joined b = Map.find s.rad.joined b) ∧
      v.evt.queue = s.evt.queue ++ [mkPost s Ev.PLC_JOIN [b4 i, b2 a, b2 j.chan]] ∧ t = (v.plcPump a).1)) ∧
  (∀ (a : Nat) (e : JoinedEntry) (k : PlcLink) (s : State), Inv s → Map.find s.rad.joined a = some e → e.plc = some k →
    ((k.alive = false ∨ s.now < k.lastUp + 3000 * s.fld F.PLC_ROUTE.KEEPALIVE_S) → exec (.plcLinkLost a) s = .next s) ∧
    (k.alive = true → k.lastUp + 3000 * s.fld F.PLC_ROUTE.KEEPALIVE_S ≤ s.now →
      ∃ t x, exec (.plcLinkLost a) s = .next t ∧ Map.find t.rad.joined a = some x ∧
        x.plc = some { k with alive := false, valid := false } ∧ (∀ p ∈ x.queue, p.held.isSome = true) ∧
        (∀ b, b ≠ a → Map.find t.rad.joined b = Map.find s.rad.joined b) ∧
        (∀ p ∈ (t.chan k.chan).shadow, p.short ≠ a) ∧ t.out = s.out ∧
        t.fld F.PLC_LINK_LOST_CNT.COUNT = min (s.fld F.PLC_LINK_LOST_CNT.COUNT + 1) (2 ^ 32 - 1) ∧
        t.evt.queue = s.evt.queue ++ [mkPost s Ev.PLC_LINK_LOST [b2 a]] ∧
        OnlyRegs [R.PLC_LINK_LOST_CNT, R.RFM_JOINED, R.PLC_ROUTES] s t) ∧
    (∀ p l, e.queue = p :: l →
      ((p.lsn = 0 ∨ s.receives = false ∨ s.now < p.sentAt + s.fld F.PLC_E2E.TIMEOUT_MS) → exec (.e2eResend a) s = .next s) ∧
      (p.lsn ≠ 0 → s.receives = true → p.sentAt + s.fld F.PLC_E2E.TIMEOUT_MS ≤ s.now → s.fld F.PLC_E2E.RETRIES ≤ p.sends →
        ∃ t x, exec (.e2eResend a) s = .next t ∧ Map.find t.rad.joined a = some x ∧ x.queue.length = l.length ∧
          x.plc = some { k with valid := false } ∧ OnlyRegs [R.RFM_JOINED, R.PLC_ROUTES] s t ∧ t.out = s.out) ∧
      (∀ mac, p.lsn ≠ 0 → s.receives = true → p.sentAt + s.fld F.PLC_E2E.TIMEOUT_MS ≤ s.now →
        p.sends < s.fld F.PLC_E2E.RETRIES → k.valid = true →
        s.macTo e.meter 1 (macHeader 0 false p.lsn e.alsn a 0xFFFE (e.txCtr + 1) ++ p.body.bytes 0) = some mac →
        ∃ t f, exec (.e2eResend a) s = .next t ∧
          Map.find t.rad.joined a = some { e with
            queue := { p with sends := p.sends + 1, sentAt := s.now } :: l, txCtr := e.txCtr + 1 } ∧
          (t.chan k.chan).queue = (s.chan k.chan).queue ++ [f] ∧ f.mac = mac ∧ f.node = some a ∧
          f.path = k.path ∧ f.next = k.path.getD 0 a ∧
          OnlyRegs [R.RFM_JOINED, R.PLC_ROUTES] s t ∧ t.out = s.out)) ∧
    (k.valid = true → exec (.routeWaitExpiry a) s = .next s) ∧
    (k.valid = false → ∃ t x, exec (.routeWaitExpiry a) s = .next t ∧ Map.find t.rad.joined a = some { e with queue := x } ∧
      (∀ p, p ∈ x ↔ p ∈ e.queue ∧ ∀ h, p.held = some h → s.now < h + 3000 * s.fld F.PLC_ROUTE.KEEPALIVE_S) ∧
      (∀ b, b ≠ a → Map.find t.rad.joined b = Map.find s.rad.joined b) ∧ OnlyRegs [R.RFM_JOINED, R.PLC_ROUTES] s t))

/-! ### Wired ports (R278 to R293) -/

/-- R281 to R285, R292, R293, R421: a link that comes up or goes down is shown and recorded; a frame a port cannot use is
counted (a waybill over IPv6 above 1,452 bytes among them), a request to an address the port has is answered, a waybill
arrives for the judgement, and a sub-concentrator's frame goes to ingest. A complete PTP exchange gives
((t1 − t2) + (t4 − t3)) / 2 (log 126). The descriptors of a ring are taken in order, each answered with its status and its
vector; a reset of the endpoint empties its rings. While the member does not receive (a start due, or ports off), nothing
arrives. A frame of the SPI port whose CRC fails has no effect but its
cause; a good one acts as its command says. An edge within 900 paces of the last is discarded; another is stamped, and a
sentence names it. A tamper trigger is shown and zeroises. -/
def Obligations.WiredPortsTakeWhatArrives : Prop :=
  (∀ (p v : Nat) (s : State), Inv s → p < 8 → v < 4 →
    (s.fld (F.PRT_ETH_STAT.SPEED p) = v → exec (.portLink p v) s = .next s) ∧
    (s.fld (F.PRT_ETH_STAT.SPEED p) ≠ v → ∃ t, exec (.portLink p v) s = .next t ∧
      t.fld (F.PRT_ETH_STAT.SPEED p) = v ∧ t.fld (F.PRT_ROLE.UP p) = (if v = 0 then 0 else 1) ∧
      (v = 0 → t.fld (F.PRT_ETH_STAT.LINK_SEEN p) = 1) ∧ OnlyRegs [R.PRT_ROLE p, R.PRT_ETH_STAT p] s t ∧
      t = { s.post Ev.PORT_LINK [b2 p] with regs := t.regs })) ∧
  (∀ (e v : Nat) (s : State), Inv s → e < 2 → v < 12 →
    ((s.fld (F.PRT_PCIE_STAT.LINK e) = 1 ↔ v ≠ 0) → exec (.portLink (61 + e) v) s = .next s) ∧
    ((s.fld (F.PRT_PCIE_STAT.LINK e) = 1 ↔ v = 0) → ∃ t, exec (.portLink (61 + e) v) s = .next t ∧
      t.fld (F.PRT_PCIE_STAT.LINK e) = (if v = 0 then 0 else 1) ∧ t.fld (F.PRT_ROLE.UP (61 + e)) = (if v = 0 then 0 else 1) ∧
      t.fld (F.PRT_PCIE_STAT.WIDTH e) = v / 4 ∧ t.fld (F.PRT_PCIE_STAT.GEN e) = v % 4 ∧
      OnlyRegs [R.PRT_ROLE (61 + e), R.PRT_PCIE_STAT e] s t ∧
      t = { s.post Ev.PORT_LINK [b2 (61 + e)] with regs := t.regs })) ∧
  (∀ (p n : Nat) (c : EthContent) (s : State), s.receives = false → exec (.ethernetFrame p n c) s = .next s) ∧
  (∀ (p n : Nat) (c : EthContent) (s : State), Inv s → p < 8 → s.role p ≠ 0 → s.receives = true →
    ((1522 < n ∨ c = .unusable) → ∃ t, exec (.ethernetFrame p n c) s = .next t ∧ Counted (F.PRT_ETH_DROP_CNT.COUNT p) s t) ∧
    (∀ v6, n ≤ 1522 → ((c = .arp ∧ v6 = false) ∨ (c = .ndp ∧ v6 = true) ∨ c = .echo v6) →
      (s.ipOn p v6 = true → exec (.ethernetFrame p n c) s = .next (s.send (.ethReply p))) ∧
      (s.ipOn p v6 = false → ∃ t, exec (.ethernetFrame p n c) s = .next t ∧ Counted (F.PRT_ETH_DROP_CNT.COUNT p) s t)) ∧
    (∀ w a b v6 k, n ≤ 1522 → c = .waybill w → w.link = .udp p a b v6 k →
      (s.ipOn p v6 = true → (v6 = true → w.bytes.length ≤ 1452) → exec (.ethernetFrame p n c) s =
        .next { s with host := { s.host with arrived := s.host.arrived ++ [w] } }) ∧
      ((s.ipOn p v6 = false ∨ (v6 = true ∧ 1452 < w.bytes.length)) →
        ∃ t, exec (.ethernetFrame p n c) s = .next t ∧ Counted (F.PRT_ETH_DROP_CNT.COUNT p) s t)) ∧
    (∀ k f, n ≤ 1522 → c = .subcon k f → s.subconOn p k = true → 2 ≤ s.role p → exec (.ethernetFrame p n c) s =
      .next (s.handOwn { f with route := 8, rx := s.timeMs })) ∧
    (∀ k f, n ≤ 1522 → c = .subcon k f → (s.subconOn p k = false ∨ s.role p < 2) →
      ∃ t, exec (.ethernetFrame p n c) s = .next t ∧ Counted (F.PRT_ETH_DROP_CNT.COUNT p) s t)) ∧
  (∀ (d p : Nat) (a b : Int) (s : State), s.ptpPort = some p → s.fld F.PRT_PTP_CFG.DOMAIN = d →
    s.receives = true →
    (∀ n o c, exec (.ptpMessage d (.sync n true o c) a b) s = .next { s with prt := { s.prt with ptp := { s.prt.ptp with
      syncSeq := n, t1 := none, t2 := a - s.fld F.PRT_PTP_LAT.INGRESS_NS - c, t3 := none } } }) ∧
    (∀ n o c, s.prt.ptp.syncSeq = n → s.prt.ptp.t1 = none → ∃ q, q = { s.prt.ptp with
        t1 := some (o + c), reqSeq := (s.prt.ptp.reqSeq + 1) % 65536, t3 := some (b + s.fld F.PRT_PTP_LAT.EGRESS_NS) } ∧
      exec (.ptpMessage d (.followUp n o c) a b) s =
        .next (({ s with prt := { s.prt with ptp := q } } : State).send (.delayReq p q.reqSeq))) ∧
    (∀ n t1 t3 t4 c, s.prt.ptp.t1 = some t1 → s.prt.ptp.t3 = some t3 → s.prt.ptp.reqSeq = n →
      ∃ u θ, u = { s with prt := { s.prt with ptp := { s.prt.ptp with t1 := none, t3 := none } } } ∧
        θ = roundDiv ((t1 - s.prt.ptp.t2) + (t4 - c - t3)) 2 ∧
        (s.forwards = false → s.sourceOn .ptp = true → exec (.ptpMessage d (.delayResp n t4 c) a b) s =
          .next ((u.record (.time .ptp θ)).timeSample .ptp θ)) ∧
        (s.forwards = true → exec (.ptpMessage d (.delayResp n t4 c) a b) s = .next (u.forward (.time .ptp θ))) ∧
        (s.forwards = false → s.sourceOn .ptp = false →
          exec (.ptpMessage d (.delayResp n t4 c) a b) s = .next u))) ∧
  (∀ (d : Nat) (m : PtpMessage) (a b : Int) (s : State), (s.ptpPort = none ∨ s.fld F.PRT_PTP_CFG.DOMAIN ≠ d ∨
      s.receives = false) →
    exec (.ptpMessage d m a b) s = .next s) ∧
  (∀ (e k tail : Nat) (irq : Option (Nat × Nat)) (s : State), e < 2 → k < 4 → tail < 256 → s.role (61 + e) = 1 →
    (tail = (s.slotOf e k).txHead → s.receives = true → ∀ ring, exec (.txDoorbell e k tail irq ring) s =
      .next (s.setSlot e k { s.slotOf e k with irq := irq })) ∧
    (∀ d ring, s.receives = true → (tail + 256 - (s.slotOf e k).txHead) % 256 = 1 → d.addr % 8 = 0 → 32 ≤ d.len → d.len ≤ 65535 →
      ∃ u, u = (s.setSlot e k { s.slotOf e k with txHead := ((s.slotOf e k).txHead + 1) % 256, irq := irq }).send
          (.txStatus e k (s.slotOf e k).txHead Cause.OK) ∧
        exec (.txDoorbell e k tail irq (d :: ring)) s =
          .next ((u.raiseVector (4 * e + k) irq).arrive { d.waybill with link := .pcie e })) ∧
    (∀ posted, s.slotContext e k = none → exec (.rxPost e k tail irq posted) s = .next (s.setSlot e k { s.slotOf e k with
      rxTail := tail, irq := irq
      buffers := (s.slotOf e k).buffers ++ posted.take ((tail + 256 - (s.slotOf e k).rxTail) % 256) }))) ∧
  (∀ (e : Nat) (s : State), Inv s → e < 2 → ∃ t, exec (.pcieReset e) s = .next t ∧
    t.fld (F.PRT_PCIE_STAT.RESET_SEEN e) = 1 ∧ OnlyRegs [R.PRT_PCIE_STAT e] s t ∧
    (∀ k, k < 4 → t.slotOf e k = {}) ∧ (∀ f k, f ≠ e → k < 4 → t.slotOf f k = s.slotOf f k) ∧
    (∀ w, w ∈ t.prt.pcieOut ↔ w ∈ s.prt.pcieOut ∧ ∀ x, s.hostEntry w.seat = some x → x.link ≠ 2 + e) ∧
    t.evt.queue = s.evt.queue ++ [mkPost s Ev.PCIE_RESET []] ∧ t.host = s.host ∧ t.out = s.out) ∧
  (∀ s : State, Inv s → s.role 63 = 1 →
    (∀ l : List Byte, (spiBody 1 spiCrc8 l = none ∨ l.length ≠ 9) → ∃ t, exec (.spiRegWrite l) s = .next t ∧
      t.fld F.PRT_SPI_STAT.CRC_ERR_SEEN = 1 ∧ t.fld F.PRT_SPI_STAT.CAUSE = Cause.BAD_FORMAT ∧
      OnlyRegs [R.PRT_SPI_STAT] s t ∧ t = { s with regs := t.regs }) ∧
    (∀ l : List Byte, s.receives = true → (spiBody 4 crc32c l = none ∨ l.length ≠ fieldAt l 0 2 + 6) →
      ∃ t, exec (.wbWrite l) s = .next t ∧
        t.fld F.PRT_SPI_STAT.CRC_ERR_SEEN = 1 ∧ t.fld F.PRT_SPI_STAT.CAUSE = Cause.BAD_FORMAT ∧
        OnlyRegs [R.PRT_SPI_STAT] s t ∧ t = { s with regs := t.regs }) ∧
    (∀ (a : Nat) (v : Word) (l : List Byte), a < 2 ^ 32 → l = beBytes 4 a ++ beBytes 4 v.toNat →
      exec (.spiRegWrite (l ++ [crc8 l])) s = .next ((s.portWrite .spi a v 0xFFFFFFFF).1.setF F.PRT_SPI_STAT.CAUSE
        (s.portWrite .spi a v 0xFFFFFFFF).2)) ∧
    (∀ (a : Nat) (x : List Byte) (y : List Byte), a < 2 ^ 32 → x = beBytes 4 (s.readReg .spi a).2.1.toNat →
      exec (.spiRegRead (beBytes 4 a ++ [crc8 (beBytes 4 a)] ++ y)) s =
        .next (((s.readReg .spi a).1.send (.spi (x ++ [crc8 x]))).setF F.PRT_SPI_STAT.CAUSE (s.readReg .spi a).2.2)) ∧
    exec .spiStatus s = .next (s.send (.spi (beBytes 4 (s.view R.PRT_SPI_STAT).toNat))) ∧
    (∀ w l : List Byte, s.receives = true → w.length < 65536 → l = beBytes 2 w.length ++ w →
      ∃ t, exec (.wbWrite (l ++ beBytes 4 (crc32c l))) s = .next t ∧ t.fld F.PRT_SPI_STAT.CAUSE = Cause.OK ∧
        OnlyRegs [R.PRT_SPI_STAT] s t ∧
        t = { s with regs := t.regs, host := { s.host with arrived := s.host.arrived ++ [⟨.spi, w⟩] } }) ∧
    (∀ l, s.receives = false → exec (.wbWrite l) s = .next s) ∧
    (∀ b, s.prt.spiOut = [] → exec (.wbRead b) s = .next (s.send (.spi (wbReturn [])))) ∧
    (∀ w l, s.prt.spiOut = w :: l → exec (.wbRead false) s = .next (s.send (.spi (wbReturn w))) ∧
      ∃ t, exec (.wbRead true) s = .next t ∧ t.prt.spiOut = l ∧ t.out = (s.send (.spi (wbReturn w))).out ∧
        t.fld F.PRT_SPI_STAT.WB_READY = (if l = [] then 0 else 1) ∧ OnlyRegs [R.PRT_SPI_STAT] s t)) ∧
  (∀ s : State, s.role 63 ≠ 1 → ∀ b l, exec (.spiRegWrite l) s = .next s ∧ exec (.spiRegRead l) s = .next s ∧
    exec .spiStatus s = .next s ∧ exec (.wbWrite l) s = .next s ∧ exec (.wbRead b) s = .next s) ∧
  (∀ (c p : Nat) (t0 : Int) (named : Bool) (s : State), Inv s → s.role 60 ≠ 0 → c < 40000 →
    (s.prt.edge = some (p, t0, named) → s.now < p + 900 → ∃ t, exec (.ppsEdge c) s = .next t ∧
      Counted F.PRT_PPS_STAT.REJECT s t) ∧
    ((s.prt.edge = none ∨ (s.prt.edge = some (p, t0, named) ∧ p + 900 ≤ s.now)) → 1 < s.fld F.CLK_QUAL.QUALITY →
      ∃ t, exec (.ppsEdge c) s = .next t ∧ t.prt.edge = some (s.now, (s.clk.ns : Int) + 25 * c, false) ∧
        t.fld F.PRT_PPS_STAMP.PACE = s.now % 65536 ∧ t.fld F.PRT_PPS_STAMP.CYCLE = c ∧
        t.fld F.PRT_PPS_STAT.NMEA_VALID = 0 ∧ OnlyRegs [R.PRT_PPS_STAMP, R.PRT_PPS_STAT] s t ∧ t.clk = s.clk) ∧
    (∀ utc, s.prt.edge = some (p, t0, false) → s.role 60 = 2 → s.now ≤ p + 950 →
      ∃ u, exec (.timeRxSentence utc true) s =
        .next (u.timeInput .pps ((utc : Int) * 1000000000 - t0)) ∧
        u.prt.edge = some (p, t0, true) ∧ u.fld F.PRT_PPS_STAT.NMEA_VALID = 1 ∧ OnlyRegs [R.PRT_PPS_STAT] s u ∧
        u.clk = s.clk) ∧
    (∀ utc, exec (.timeRxSentence utc false) s = .next s)) ∧
  (∀ (n : Nat) (e : TamperEntry) (s : State), Inv s → n < 8 → s.prt.tampers[n]? = some e →
    (e.mode = 0 → exec (.tamperTrigger n) s = .next s) ∧
    (e.mode ≠ 0 → ∃ u, exec (.tamperTrigger n) s = .next (u.zeroiseLine (BitVec.ofNat 13 (2 ^ n))) ∧
      (u.fld F.PRT_TAMP_STAT.TRIGGERED).testBit n = true ∧
      (u.fld F.PRT_TAMP_STAT.LEVEL).testBit n = (e.mode == 1 || e.mode == 3) ∧ OnlyRegs [R.PRT_TAMP_STAT] s u ∧ u = { s with regs := u.regs }))

/-! ### NAND storage (R294 to R317) -/

/-- R304 to R311, R313, R314, R316: the records of earlier paces are committed together in whole batches, but for those of
a fold whose word line is not yet programmed or whose unit has been written anew. A checkpoint takes over the committed map
after 4,096 batches and keeps the one before it. Below a quarter of the SLC buffer free the oldest closed superblock is
folded, and a collection job moves what its victim holds; a closed superblock without a valid unit is released. An erase that ends counts and frees its block; a read that needs retries
counts them, and a page that is rebuilt, or fetched from the partner, is due for refresh; failures of a program, an erase and a die are counted, retire
their block or their die and are recorded; what has waited MAX_MS fails with THROTTLED; a scrub read over its threshold
makes its page due for refresh. -/
def Obligations.StorageKeepsItsMapAndItsMedia : Prop :=
  (∀ s : State, (∀ w ∈ s.sto.waiting, s.now ≤ w.pace) →
    exec .journalCommit s = .next { s with evt := s.evt.durable s.now }) ∧
  (∀ (l : List JournalWait) (seq : Nat) (new : List JournalBatch) (s : State), Inv s →
    l = s.sto.waiting.filter (fun w => decide (w.pace < s.now) && s.holdDone w && !s.staleMap w) → l ≠ [] →
    seq = (match s.sto.log.getLast? with | some b => b.seq | none => s.sto.ckpt.seq) →
    new = batchesOf seq s.now (l.map fun w => w.record) →
    ∃ t u : State, exec .journalCommit s = .next t ∧ u.sto.log = s.sto.log ++ new ∧ u.sto.map = s.sto.map ∧
      u.sto.ckpt = s.sto.ckpt ∧ u.fld F.STO_JRNL_SEQ.SEQ = (seq + new.length) % 2 ^ 32 ∧
      (∀ w ∈ s.sto.waiting, (s.now ≤ w.pace ∨ s.holdDone w = false) → w ∈ u.sto.waiting) ∧ (∀ w ∈ l, w ∉ u.sto.waiting) ∧
      OnlyRegs [R.STO_JRNL_SEQ] s u ∧ u = { s with regs := u.regs, sto := u.sto, evt := s.evt.durable s.now } ∧
      t = (l.foldl (fun (t : State) w => match w.item with | some (a, b) => t.endItem a b 0 | none => t)
        (l.foldl (fun (t : State) w => t.committed w.record) u)).judgeShare.judgeReadonly) ∧
  (∀ (d b n : Nat) (s : State), s.committed (.free d b) =
      { s with sto := { s.sto with used := s.sto.used.filter (· != (d, b)) } } ∧
    (∀ x, Map.find s.sto.sbs n = some x → x.retire = [] → s.committed (.release n) = { s with sto := { s.sto with
      erasing := s.sto.erasing ++ x.blocks.filter fun y => !s.sto.failed.contains y.1
      sbs := Map.erase s.sto.sbs n } })) ∧
  (∀ s : State, exec .mapCheckpoint s = .next (if s.sto.log.length < 4096 then s
    else { s with sto := { s.sto with ckpt := s.sto.durable, older := some s.sto.ckpt, log := [] } })) ∧
  (∀ (p : StoragePlan) (s : State), s.storagePlan = some p →
    (p.slcBlocks * p.dies ≤ sumNat (fun d => s.freeCount p true d) (List.range p.dies) * 4 →
      exec .foldBlock s = .next s) ∧
    (∀ e, sumNat (fun d => s.freeCount p true d) (List.range p.dies) * 4 < p.slcBlocks * p.dies →
      (s.sto.sbs.find? fun e => e.2.slc && !e.2.isOpen && !e.2.released) = some e →
      exec .foldBlock s = .next (s.moveOut p true e.1 fun _ => true)) ∧
    (∀ (n : Nat) (f : Bool) (b : Superblock), Map.find s.sto.sbs n = some b → b.isOpen = false → b.released = false →
      s.validPages n = [] → s.sto.writes = [] → s.sto.waiting = [] →
      s.moveOut p f n (fun _ => true) = (s.setSb n { b with released := true }).journal (.release n)) ∧
    (s.victim p = none → exec .collectionJob s = .next s) ∧
    (∀ n pick b, s.victim p = some (n, pick) → Map.find s.sto.sbs n = some b → ∃ t u, exec .collectionJob s = .next t ∧
      u = (s.setSb n { b with refresh := b.refresh.filter fun k => !pick k }).moveOut p false n pick ∧ t.sto = u.sto ∧
      OnlyRegs [R.STO_STAT, R.STO_FREE] u t ∧ t.out = u.out)) ∧
  (∀ (d b : Nat) (s : State), (d, b) ∈ s.sto.erasing →
    (∃ t, exec (.blockEraseDone d b) s = .next t ∧ t = { s with sto := t.sto } ∧ (d, b) ∉ t.sto.erasing ∧
      t.eraseCount (d, b) = s.eraseCount (d, b) + 1 ∧ t.sto.waiting = s.sto.waiting ++ [⟨s.now, .free d b, none, none⟩] ∧
      t.sto.map = s.sto.map ∧ t.sto.sbs = s.sto.sbs) ∧
    (Inv s → d < 64 → ∃ t : State, exec (.eraseFail d b) s = .next t.judgeReadonly ∧ (d, b) ∉ t.sto.erasing ∧
      t.sto.retired = s.sto.retired ++ [(d, b, 1)] ∧
      t.sto.waiting = s.sto.waiting ++ [⟨s.now, .retire d 1 b, none, none⟩] ∧
      t.fld F.STO_ERASE_FAIL_CNT.COUNT = min (s.fld F.STO_ERASE_FAIL_CNT.COUNT + 1) (2 ^ 32 - 1) ∧
      t.fld (F.STO_DIE_STAT.RETIRED d) = (s.fld (F.STO_DIE_STAT.RETIRED d) + 1) % 2 ^ 16 ∧
      OnlyRegs [R.STO_ERASE_FAIL_CNT, R.STO_DIE_STAT d] s t ∧ t = { s with regs := t.regs, sto := t.sto })) ∧
  (∀ (p : StoragePlan) (n : Nat) (s : State), Inv s → s.storagePlan = some p →
    n = sumNat (fun k => p.nsUnits k) (List.range 7) →
    ((s.fld F.STO_STAT.READONLY = 1 ∨ n ≤ sumNat (s.unitsLeft p) (List.range p.groups)) → s.judgeReadonly = s) ∧
    (s.fld F.STO_STAT.READONLY = 0 → sumNat (s.unitsLeft p) (List.range p.groups) < n → s.sto.writes = [] →
      ∃ t, s.judgeReadonly = t ∧ t.fld F.STO_STAT.READONLY = 1 ∧ OnlyRegs [R.STO_STAT] s t ∧
        t = { s.post Ev.STO_READONLY [] with regs := t.regs })) ∧
  (∀ (d b : Nat) (s : State), (d, b) ∉ s.sto.erasing →
    exec (.blockEraseDone d b) s = .next s ∧ exec (.eraseFail d b) s = .next s) ∧
  (∀ (sb k n : Nat) (b : Superblock) (g : NandPage) (s : State), Inv s → Map.find s.sto.sbs sb = some b →
    b.pages[k]? = some (some g) → (b.blockOf k).1 ∉ s.sto.failed →
    (∀ r q, ∃ t, exec (.pageRead sb k n true r q) s = .next t ∧
      t.fld F.STO_RETRY_CNT.COUNT = min (s.fld F.STO_RETRY_CNT.COUNT + n) (2 ^ 32 - 1) ∧
      OnlyRegs [R.STO_RETRY_CNT] s t ∧ t = { s with regs := t.regs }) ∧
    (∀ q, ∃ t x, exec (.pageRead sb k n false true q) s = .next t ∧ Map.find t.sto.sbs sb = some { b with refresh := x } ∧
      k ∈ x ∧ (∀ j ∈ b.refresh, j ∈ x) ∧
      t.fld F.STO_REBUILD_CNT.COUNT = min (s.fld F.STO_REBUILD_CNT.COUNT + 1) (2 ^ 32 - 1) ∧ t.sto.map = s.sto.map ∧
      OnlyRegs [R.STO_RETRY_CNT, R.STO_REBUILD_CNT] s t) ∧
    (s.linkUp = true → ∃ t x, exec (.pageRead sb k n false false true) s = .next t ∧
      Map.find t.sto.sbs sb = some { b with refresh := x } ∧ k ∈ x ∧ (∀ j ∈ b.refresh, j ∈ x) ∧ t.sto.map = s.sto.map ∧
      OnlyRegs [R.STO_RETRY_CNT] s t ∧ t.sto.waiting = s.sto.waiting) ∧
    (∀ q, Map.find s.sto.map g.lu = some (.place sb k) → (q = false ∨ s.linkUp = false) →
      ∃ t, exec (.pageRead sb k n false false q) s = .next t ∧
      Map.find t.sto.map g.lu = some .poisoned ∧ (∀ u, u ≠ g.lu → Map.find t.sto.map u = Map.find s.sto.map u) ∧
      t.sto.waiting = s.sto.waiting ++ [⟨s.now, .poison g.lu, none, none⟩] ∧
      t.fld F.STO_MEDIA_ERR_CNT.COUNT = min (s.fld F.STO_MEDIA_ERR_CNT.COUNT + 1) (2 ^ 32 - 1) ∧
      OnlyRegs [R.STO_RETRY_CNT, R.STO_MEDIA_ERR_CNT] s t)) ∧
  (∀ (sb : Nat) (p : StoragePlan) (b : Superblock) (g : NandPage) (s : State), Inv s → s.storagePlan = some p →
    Map.find s.sto.sbs sb = some b → b.isOpen = true → b.pages[b.pages.length - 1]? = some (some g) →
    ∃ t u item fold d k c, exec (.programFail sb) s = .next t ∧ t = (u.program p b.slc g item fold).getD u ∧
      (d, k) = b.blockOf (b.pages.length - 1) ∧
      c = { b with
        pages := setAt b.pages (b.pages.length - 1) none, isOpen := false, excluded := some (b.pages.length - 1)
        first := true, retire := b.retire ++ [(d, k, 0)] } ∧
      Map.find u.sto.sbs sb = some c ∧ (⟨s.now, c.closeRec sb, none, none⟩ : JournalWait) ∈ u.sto.waiting ∧
      (∀ w ∈ s.sto.waiting, w.record ≠ .map g.lu sb (b.pages.length - 1) (b.phys (b.pages.length - 1)) → w ∈ u.sto.waiting) ∧
      u.fld F.STO_PROG_FAIL_CNT.COUNT = min (s.fld F.STO_PROG_FAIL_CNT.COUNT + 1) (2 ^ 32 - 1) ∧
      OnlyRegs [R.STO_PROG_FAIL_CNT] s u ∧ u.sto.map = s.sto.map ∧
      u.evt.queue = s.evt.queue ++ [mkPost s Ev.STO_PROG_FAIL [b2 d, b2 k]]) ∧
  (∀ (d : Nat) (p : StoragePlan) (s : State), Inv s → s.storagePlan = some p → d < 64 →
    ((p.dies ≤ d ∨ d ∈ s.sto.failed) → exec (.dieFail d) s = .next s) ∧
    (d < p.dies → d ∉ s.sto.failed → ∃ t : State, exec (.dieFail d) s = .next t.judgeReadonly ∧
      t.sto.failed = s.sto.failed ++ [d] ∧
      t.fld (F.STO_DIE_STAT.FAILED d) = 1 ∧ mkPost s Ev.STO_DIE_FAIL [b2 d] ∈ t.evt.queue ∧
      OnlyRegs [R.STO_DIE_STAT d, R.STO_STAT, R.STO_FREE, R.STO_MEDIA_ERR_CNT] s t ∧
      (∀ n b, Map.find s.sto.sbs n = some b → b.blocks.any (fun x => x.1 == d) = true → Map.find t.sto.sbs n =
        some { b with first := true, isOpen := false }) ∧
      (∀ n, (∀ e ∈ s.sto.sbs, e.1 = n → e.2.blocks.any (fun x => x.1 == d) = false) →
        Map.find t.sto.sbs n = Map.find s.sto.sbs n))) ∧
  (∀ (who : Requester) (d : Nat) (s : State), Inv s → MayWrite s who R.STO_DIE_CTL → d < 64 → d < s.power.dies.length →
    ∃ t u, exec (.stoDieCtlFail who d) s = .next t ∧ u.fld F.STO_DIE_CTL.DIE = d ∧ OnlyRegs [R.STO_DIE_CTL] s u ∧
      u = { entered s who R.STO_DIE_CTL (BitVec.ofNat 32 (0x80000000 + d)) 0x8000003F with regs := u.regs } ∧
      t = (u.dieFails d).send (.regCause who R.STO_DIE_CTL Cause.OK)) ∧
  (∀ s : State, (∀ w ∈ s.sto.writes, s.now < w.since + s.fld F.STO_THROTTLE.MAX_MS) →
    exec .throttleTimeout s = .next s) ∧
  (∀ (w : BulkWait) (s : State), Inv s → s.sto.writes = [w] → w.since + s.fld F.STO_THROTTLE.MAX_MS ≤ s.now →
    ∃ u, Counted F.STO_THROTTLE_CNT.COUNT { s with sto := { s.sto with writes := [] } } u ∧
      exec .throttleTimeout s = .next (u.endItem w.slot w.item Cause.THROTTLED)) ∧
  (∀ (sb k bits : Nat) (b : Superblock) (s : State), Map.find s.sto.sbs sb = some b → k < b.pages.length →
    exec (.scrub sb k bits) s = .next (if s.fld F.STO_SCRUB.THR_PCT * 72 ≤ bits * 100 ∧ k ∉ b.refresh then
      s.setSb sb { b with refresh := b.refresh ++ [k] } else s))

/-! ### Queues and the arbiter (R318 to R328) -/

/-- R20, R217, R318 to R321, R323: only the sealed cores push the export queue, so no QUEUE_PUSH changes it. A push stores its word behind the others, or finds the queue full, is discarded, counted and
recorded; during SAVE a durable queue takes none. A pop delivers the oldest word with what has flipped in it and its
poison tag, an odd number of flips being counted and recorded; a word of a sealed queue goes to the message its consumer
reads, and a poisoned one discards that message. From an empty queue it delivers the idle word and sets
UNDERRUN. The pointers, the fill and the flags follow. -/
def Obligations.QueuesDeliverWordsInOrder : Prop :=
  ∀ (q : Nat) (e : QueueEntry) (s : State), Inv s → q < 512 → s.queueEntry q = some e → e.depthLog2 ≤ 16 →
    (∀ w, q = 0 → exec (.queuePush q w) s = .next s) ∧
    (∀ w, s.power.phase = .save → e.flags.getLsbD 0 = true → exec (.queuePush q w) s = .next s) ∧
    (∀ w, q ≠ 0 → s.power.phase ≠ .save → (s.queue q).words.length < 2 ^ e.depthLog2 → ∃ t, exec (.queuePush q w) s = .next t ∧
      t.queue q = ⟨(s.queue q).words ++ [⟨w, true⟩], (s.queue q).rptr⟩ ∧
      t.fld (F.QUE_WPTR.WPTR q) =
        ((s.queue q).rptr + (s.queue q).words.length + 1) % 2 ^ (e.depthLog2 + 1) ∧
      t.fld (F.QUE_STAT.EMPTY q) = 0 ∧
      t.fld (F.QUE_STAT.FULL q) = (if (s.queue q).words.length + 1 = 2 ^ e.depthLog2 then 1 else 0) ∧
      (∀ k, k ≠ q → t.queue k = s.queue k) ∧ OnlyRegs [R.QUE_STAT q, R.QUE_WPTR q, R.QUE_RPTR q] s t ∧
      t = { s with regs := t.regs, que := t.que }) ∧
    (∀ w, q ≠ 0 → s.power.phase ≠ .save → 2 ^ e.depthLog2 ≤ (s.queue q).words.length → ∃ t, exec (.queuePush q w) s = .next t ∧
      t.fld (F.QUE_STAT.OVERRUN_SEEN q) = 1 ∧
      t.fld (F.QUE_ERR_CNT.OVERRUN q) = min (s.fld (F.QUE_ERR_CNT.OVERRUN q) + 1) 0xFFFF ∧
      OnlyRegs [R.QUE_STAT q, R.QUE_ERR_CNT q] s t ∧ t = { s.post Ev.QUE_OVERRUN [b2 q] with regs := t.regs }) ∧
    (∀ w l, (s.queue q).words = w :: l → w.good = true →
      (∃ u : State, exec (.queuePop q 0) s = .next ((u.takeWord q w.data).send (.popped q w.data false false)) ∧
        (1 < q → u.takeWord q w.data = u) ∧
        (q < 2 → u.takeWord q w.data = (u.setReadWords q (u.readWords q ++ [w.data])).refillQueues) ∧
        u.queue q = ⟨l, ((s.queue q).rptr + 1) % 2 ^ (e.depthLog2 + 1)⟩ ∧
        u.fld (F.QUE_RPTR.RPTR q) = ((s.queue q).rptr + 1) % 2 ^ (e.depthLog2 + 1) ∧
        (∀ k, k ≠ q → u.queue k = s.queue k) ∧ OnlyRegs [R.QUE_STAT q, R.QUE_WPTR q, R.QUE_RPTR q] s u ∧
        u = { s with regs := u.regs, que := u.que }) ∧
      (∀ i, q < 2 → i < 64 → exec (.queuePop q (BitVec.ofNat 65 (2 ^ i))) s = .next
        (((s.poisonMessage q w.data).send (.popped q (w.data ^^^ BitVec.ofNat 64 (2 ^ i)) true false)).poisoned q
          (e.base + (s.queue q).rptr % 2 ^ e.depthLog2))) ∧
      (∀ i, 1 < q → i < 64 → ∃ u, exec (.queuePop q (BitVec.ofNat 65 (2 ^ i))) s = .next u ∧
        u.queue q = ⟨l, ((s.queue q).rptr + 1) % 2 ^ (e.depthLog2 + 1)⟩ ∧ u.fld (F.QUE_STAT.POISON_SEEN q) = 1 ∧
        u.out = s.out ++ [.popped q (w.data ^^^ BitVec.ofNat 64 (2 ^ i)) true false] ∧
        u.fld (F.QUE_ERR_CNT.POISON q) = min (s.fld (F.QUE_ERR_CNT.POISON q) + 1) 0xFFFF ∧
        u.evt.queue = s.evt.queue ++ [mkPost s Ev.QUE_POISON [b2 q, b8 (e.base + (s.queue q).rptr % 2 ^ e.depthLog2)]] ∧
        OnlyRegs [R.QUE_STAT q, R.QUE_WPTR q, R.QUE_RPTR q, R.QUE_ERR_CNT q] s u)) ∧
    ((s.queue q).words = [] → ∀ v, ∃ u, exec (.queuePop q v) s = .next (u.send (.popped q
        (BitVec.ofNat 64 ((s.regs.get (R.QUE_IDLE_HI q)).toNat * 2 ^ 32 + (s.regs.get (R.QUE_IDLE_LO q)).toNat)) false true)) ∧
      u.fld (F.QUE_STAT.UNDERRUN q) = 1 ∧ OnlyRegs [R.QUE_STAT q] s u ∧ u = { s with regs := u.regs })

/-- R325, R326, R328: while ARB_CTL.FREEZE is 1 no draw takes place, requests stay pending and a grant held stays until it
is released; DRAINED is 1 while FREEZE is 1 and no grant is held; each change of FREEZE is recorded with its new value.
Otherwise a free complex draws among the pending requesters with tickets: the state advances once, the remainder of the
state by the sum of their tickets names the one granted, in order of number. A seed other than 0 loads at the next draw,
and a seed of 0 is rejected with REG_RANGE. -/
def Obligations.ArbiterDrawsUnlessFrozen : Prop :=
  (∀ (w : BitVec 16) (s : State), Inv s →
    (s.que.holder.isSome = true ∨ s.fld F.ARB_CTL.FREEZE = 1 ∨ ∀ i < 16, w.getLsbD i = true → s.tickets i = 0) →
    ∃ t, exec (.arbDraw w) s = .next t ∧ t.que = { s.que with waiting := w } ∧
      t.fld F.ARB_STAT.PENDING = w.toNat ∧ t.fld F.ARB_STAT.HELD = (if s.que.holder.isSome then 1 else 0) ∧
      t.fld F.ARB_STAT.DRAINED = (if s.fld F.ARB_CTL.FREEZE = 1 ∧ s.que.holder = none then 1 else 0) ∧
      OnlyRegs [R.ARB_STAT] s t ∧ t = { s with regs := t.regs, que := t.que }) ∧
  (∀ (w : BitVec 16) (s : State), Inv s → s.que.holder = none → s.fld F.ARB_CTL.FREEZE = 0 →
    (∃ i < 16, w.getLsbD i = true ∧ 0 < s.tickets i) →
    ∃ t i v c, exec (.arbDraw w) s = .next t ∧ c = (List.range 16).filter (fun i => w.getLsbD i && decide (0 < s.tickets i)) ∧
      i ∈ c ∧ v = lfsrNext (s.que.seed.getD s.que.lfsr) ∧
      sumNat s.tickets (c.filter (· < i)) ≤ v.toNat % sumNat s.tickets c ∧
      v.toNat % sumNat s.tickets c < sumNat s.tickets (c.filter (· < i)) + s.tickets i ∧
      t.que = { s.que with lfsr := v, seed := none, holder := some i, waiting := w &&& ~~~ BitVec.ofNat 16 (2 ^ i) } ∧
      t.fld F.ARB_LFSR.STATE = v.toNat ∧ t.fld F.ARB_HOLD_PACE.PACE = s.now % 2 ^ 32 ∧
      t.fld (F.ARB_GRANT_CNT.COUNT i) = min (s.fld (F.ARB_GRANT_CNT.COUNT i) + 1) (2 ^ 32 - 1) ∧
      t.fld F.ARB_STAT.HELD = 1 ∧ t.fld F.ARB_STAT.HOLDER = i ∧
      OnlyRegs [R.ARB_STAT, R.ARB_LFSR, R.ARB_HOLD_PACE, R.ARB_GRANT_CNT i] s t ∧
      t = { s with regs := t.regs, que := t.que }) ∧
  (∀ v : Word, (lfsrNext v).toNat = (v.toNat * 2 +
    (xor (xor (v.getLsbD 31) (v.getLsbD 21)) (xor (v.getLsbD 1) (v.getLsbD 0))).toNat) % 2 ^ 32) ∧
  (∀ s : State, Inv s → ∃ t, exec .arbRelease s = .next t ∧ t.que = { s.que with holder := none } ∧
    t.fld F.ARB_STAT.HELD = 0 ∧ t.fld F.ARB_STAT.DRAINED = (if s.fld F.ARB_CTL.FREEZE = 1 then 1 else 0) ∧
    OnlyRegs [R.ARB_STAT] s t ∧ t = { s with regs := t.regs, que := t.que }) ∧
  (∀ (who : Requester) (b : Bool) (s : State), Inv s → MayWrite s who R.ARB_CTL →
    (s.fld F.ARB_CTL.FREEZE = b.toNat → exec (.freeze who b) s =
      .next ((entered s who R.ARB_CTL (BitVec.ofNat 32 b.toNat) 1).send (.regCause who R.ARB_CTL Cause.OK))) ∧
    (s.fld F.ARB_CTL.FREEZE ≠ b.toNat → ∃ t u, exec (.freeze who b) s = .next (t.send (.regCause who R.ARB_CTL Cause.OK)) ∧
      u = entered s who R.ARB_CTL (BitVec.ofNat 32 b.toNat) 1 ∧ t.fld F.ARB_CTL.FREEZE = b.toNat ∧
      t.fld F.ARB_STAT.DRAINED = (if b = true ∧ s.que.holder = none then 1 else 0) ∧ t.que = s.que ∧
      OnlyRegs [R.ARB_CTL, R.ARB_STAT] s t ∧ t = { u.post Ev.ARB_FREEZE [b8 b.toNat] with regs := t.regs })) ∧
  (∀ (who : Requester) (v : Word) (s : State), Inv s → MayWrite s who R.ARB_SEED →
    (v = 0 → exec (.arbSeed who v) s = .next ((entered s who R.ARB_SEED v 0xFFFFFFFF).send
      (.regCause who R.ARB_SEED Cause.REG_RANGE))) ∧
    (v ≠ 0 → ∃ t u, exec (.arbSeed who v) s = .next (t.send (.regCause who R.ARB_SEED Cause.OK)) ∧
      u = entered s who R.ARB_SEED v 0xFFFFFFFF ∧ t.regs.get R.ARB_SEED = v ∧ OnlyRegs [R.ARB_SEED] s t ∧
      t.que = { s.que with seed := some v } ∧ t = { u with regs := t.regs, que := t.que }))

/-! ### The event recorder (R329 to R340) -/

/-- R329, R330, R333, R334, R336: the oldest post opens a record where none is open, raises the open one where it repeats it,
and closes it and opens its own otherwise. A record closes at the end of its window, is appended and counted, and its
MRAM copies stand until the append is durable. The newest post of a full queue is discarded and counted. A whole second counts once, with a mark at each hour. -/
def Obligations.PostsBecomeRecordsInOrder : Prop :=
  (∀ s : State, s.evt.queue = [] → exec .eventPost s = .next s) ∧
  (∀ (p : Post) (l : List Post) (s : State), s.evt.queue = p :: l → s.evt.openRec = none → s.evt.drops = 0 →
    ∃ t, exec .eventPost s = .next t ∧
      t.evt.openRec = some ⟨p.code, s.evt.seq + 1, p.opSeconds, p.pwrCycles, 0, p.opSeconds, p.payload⟩ ∧
      t.evt.seq = s.evt.seq + 1 ∧ t.evt.log = s.evt.log ∧ t.evt.seqOpen = true) ∧
  (∀ (p : Post) (l : List Post) (r : EvtRecord) (s : State), s.evt.queue = p :: l → s.evt.openRec = some r →
    s.evt.drops = 0 → p.lostFor = [] → isRepeat r p (s.fld F.EVT_WINDOW.SECONDS) = true → r.rep + 1 ≠ 65535 →
    ∃ t, exec .eventPost s = .next t ∧ t.evt.openRec = some { r with
        rep := r.rep + 1, lastSeconds := p.opSeconds, payload := p.payload } ∧
      t.evt.queue = l ∧ t.evt.log = s.evt.log ∧ t.evt.seq = s.evt.seq ∧ t = { s with evt := t.evt }) ∧
  (∀ (p : Post) (l : List Post) (r : EvtRecord) (s : State), s.evt.queue = p :: l → s.evt.openRec = some r →
    s.evt.drops = 0 → isRepeat r p (s.fld F.EVT_WINDOW.SECONDS) = false →
    ∃ t, exec .eventPost s = .next t ∧ t.evt.log = s.evt.log ++ [r] ∧ t.evt.seq = s.evt.seq + 1 ∧
      t.evt.openRec = some ⟨p.code, s.evt.seq + 1, p.opSeconds, p.pwrCycles, 0, p.opSeconds, p.payload⟩) ∧
  (∀ (r : EvtRecord) (s : State), Inv s → s.evt.openRec = some r →
    (s.evt.opSeconds.toNat < r.opSeconds + s.fld F.EVT_WINDOW.SECONDS → exec .eventWindowExpiry s = .next s) ∧
    (r.opSeconds + s.fld F.EVT_WINDOW.SECONDS ≤ s.evt.opSeconds.toNat → r.rep = 0 →
      ∃ t, exec .eventWindowExpiry s = .next t ∧ t.evt = { s.evt with
          openRec := none, log := s.evt.log ++ [r], appended := s.evt.appended ++ [(s.now, r.seq)] } ∧
        t.fld F.EVT_CLOSE_CNT.COUNT = min (s.fld F.EVT_CLOSE_CNT.COUNT + 1) (2 ^ 32 - 1) ∧
        OnlyRegs [R.EVT_CLOSE_CNT] s t ∧ t = { s with evt := t.evt, regs := t.regs }) ∧
    (r.opSeconds + s.fld F.EVT_WINDOW.SECONDS ≤ s.evt.opSeconds.toNat → 0 < r.rep →
      ∃ t : State, exec .eventWindowExpiry s = .next (t.eventNotice r true) ∧ t.evt = { s.evt with
          openRec := none, log := s.evt.log ++ [r], appended := s.evt.appended ++ [(s.now, r.seq)] } ∧
        t.fld F.EVT_CLOSE_CNT.COUNT = min (s.fld F.EVT_CLOSE_CNT.COUNT + 1) (2 ^ 32 - 1) ∧
        OnlyRegs [R.EVT_CLOSE_CNT] s t ∧ t = { s with evt := t.evt, regs := t.regs })) ∧
  (∀ (l : List Post) (p : Post) (s : State), Inv s → s.evt.queue = l ++ [p] → ∃ t : State,
    exec .eventDrop s = .next (p.lostFor.foldl (fun (x : State) y => x.flushLost y.1) t) ∧
    t.evt = { s.evt with queue := l, drops := s.evt.drops + 1 } ∧ t.fld F.EVT_STAT.DROP_SEEN = 1 ∧
    t.fld F.EVT_DROP_CNT.COUNT = min (s.fld F.EVT_DROP_CNT.COUNT + 1) (2 ^ 32 - 1) ∧
    OnlyRegs [R.EVT_DROP_CNT, R.EVT_STAT] s t ∧ t = { s with evt := t.evt, regs := t.regs }) ∧
  (∀ s : State, (s.evt.secondDue = false → exec .operatingSecond s = .next s) ∧
    (s.evt.secondDue = true → (s.evt.opSeconds + 1).toNat % 3600 ≠ 0 → exec .operatingSecond s = .next { s with
      evt := { s.evt with opSeconds := s.evt.opSeconds + 1, secondDue := false } }) ∧
    (s.evt.secondDue = true → (s.evt.opSeconds + 1).toNat % 3600 = 0 → ∃ t p, exec .operatingSecond s = .next t ∧
      t.evt = { s.evt with opSeconds := s.evt.opSeconds + 1, secondDue := false, queue := s.evt.queue ++ [p] } ∧
      p.code = Ev.TIME_MARK ∧ p.opSeconds = (s.evt.opSeconds + 1).toNat ∧ t = { s with evt := t.evt }))

/-! ### Keys (R341 to R363) -/

/-- R354: GO within 1,000 paces of ARM by the same requester asserts the zeroise line; a GO without a valid ARM is
rejected with REG_RANGE and has no effect; ARM is noted with its pace; a requester without block KEY among its
WRITE_BLOCKS can do neither. R348, R349 to R353, R355, R359: the line clears the keys, the identity and the sessions,
sets ZEROISED and is recorded, and takes the pair link down; while the main supplies are down its sources are latched.
R387: a standby then leaves service, and an active member in step leaves it at the boundaries that follow. A
tree job completes the tree of leaf N or else the next. A health failure of the random source stops it, until it
resumes. The reset of a scheduled enrolment comes at its pace. -/
def Obligations.KeysAreZeroisedWhenArmedAndKept : Prop :=
  (∀ (who : Requester) (s : State), Inv s →
    (MayWrite s who R.KEY_ZCTL →
      exec (.zeroiseArm who) s = .next (({ s with key := { s.key with arm := some (who, s.now) } } : State).send
        (.regCause who R.KEY_ZCTL Cause.OK)) ∧
      (∀ p, s.key.arm = some (who, p) → s.now ≤ p + 1000 →
        exec (.zeroiseGo who) s = .next ((s.zeroiseLine 0x800).send (.regCause who R.KEY_ZCTL Cause.OK))) ∧
      ((∀ p, s.key.arm = some (who, p) → p + 1000 < s.now) →
        exec (.zeroiseGo who) s = .next (s.send (.regCause who R.KEY_ZCTL Cause.REG_RANGE)))) ∧
    (s.mayWriteBlock who R.KEY_ZCTL = false →
      ∃ c, c ≠ Cause.OK ∧ exec (.zeroiseArm who) s = .next (s.send (.regCause who R.KEY_ZCTL c)) ∧
        exec (.zeroiseGo who) s = .next (s.send (.regCause who R.KEY_ZCTL c)))) ∧
  (∀ (glitch temp volt : Bool) (s : State),
    (s.power.phase = .off → exec (.zeroise glitch temp volt) s = .next s) ∧
    (s.power.phase ≠ .off → exec (.zeroise glitch temp volt) s = .next (s.zeroiseLine
      (BitVec.ofNat 13 (glitch.toNat * 256 + temp.toNat * 512 + volt.toNat * 1024))))) ∧
  (∀ (src : ZSource) (s : State), Inv s →
    (src = 0 → s.zeroiseLine src = s) ∧
    (src ≠ 0 → s.power.phase = .off → ∃ t, s.zeroiseLine src = t ∧ t.key = { s.key with latched := true } ∧
      t.regs.get R.KEY_ZSRC = s.regs.get R.KEY_ZSRC ||| (src.setWidth 32 ||| 0x1000) ∧ OnlyRegs [R.KEY_ZSRC] s t ∧
      t = { s with regs := t.regs, key := t.key }) ∧
    (src ≠ 0 → s.power.phase ≠ .off → ∃ u v : State, v = s.zeroise src ∧ s.zeroiseLine src = v.zeroisePair ∧
      v = ((s.key.waiting.foldl (fun (t : State) w => t.endItem w.slot w.item Cause.ZEROISED) u).closeSessions.showSlots).post
        Ev.ZEROISE [b8 (s.regs.get R.KEY_ZSRC ||| src.setWidth 32).toNat] ∧
      (∀ c, (v.ctx c).session = none ∧ (v.ctx c).handshake = none) ∧ u.fld F.PPY_STAT.VKEY = 0 ∧
      u.fld F.KEY_STAT.STATE = 2 ∧ u.fld F.KEY_STAT.ZEROISE_SEEN = 1 ∧ u.fld F.KEY_STAT.HSS_READY = 0 ∧
      u.fld F.KEY_STAT.ENROL_PENDING = 0 ∧ u.regs.get R.KEY_ZSRC = s.regs.get R.KEY_ZSRC ||| src.setWidth 32 ∧
      (∀ i < 8, u.regs.get (R.KEY_IDENT i) = 0) ∧ u.ing.keys = [] ∧ u.ing.vkeys = [] ∧ u.key.helper = false ∧
      u.key.arm = none ∧ u.key.waiting = [] ∧
      (∀ d, u.power.due = some d → d.cause ≠ 0x06) ∧
      OnlyRegs ([R.KEY_ZSRC, R.KEY_STAT, R.PPY_STAT] ++ (List.range 8).map R.KEY_IDENT) s u ∧
      u = { s with regs := u.regs, ing := { s.ing with keys := [], vkeys := [] }, key := u.key, power := u.power })) ∧
  (∀ s : State, Inv s → ∃ u : State, u = s.pairLinkDown ∧
    ((s.syncNow = 0 ∨ s.syncNow = 3 ∨ (s.roleNow = 1 ∧ s.syncNow = 2)) → u.pair.keys = none ∧ u.host = s.host) ∧
    ((s.roleNow = 0 ∨ (s.roleNow = 2 ∧ s.syncNow ≠ 2)) → s.zeroisePair = u) ∧
    ((s.roleNow = 2 ∧ s.syncNow = 2) → s.zeroisePair = { u with pair := { u.pair with leaving := 2 } }) ∧
    ((s.roleNow = 1 ∨ s.roleNow = 3) → ∃ t : State, s.zeroisePair = t ∧ t.roleNow = 3 ∧ t.syncNow = 0 ∧
      t.fld F.PAIR_STAT.PROTECTED = 0 ∧ t.pair.actOut = false ∧ t.pair.shared = false ∧ t.pair.held = [] ∧
      t.pair.leaving = 0 ∧ (∀ c, (t.ctx c).session = none ∧ (t.ctx c).handshake = none))) ∧
  (∀ (readBack : Bool) (s : State), Inv s →
    (s.keysReady = false → exec (.hssTreeJob readBack) s = .next s) ∧
    (s.keysReady = true → ∃ u l, exec (.hssTreeJob readBack) s = .next (u.signWaiting readBack) ∧
      u.key = { s.key with trees := l } ∧
      (∀ j, j ∈ l ↔ (j ∈ s.key.trees ∧ s.leaf / 32768 ≤ j) ∨
        j < 1024 ∧ j = s.leaf / 32768 + (if s.leaf / 32768 ∈ s.key.trees then 1 else 0)) ∧
      u.fld F.KEY_STAT.HSS_READY = (if s.leaf / 32768 ∈ l then 1 else 0) ∧ OnlyRegs [R.KEY_STAT] s u ∧
      u = { s with regs := u.regs, key := u.key } ∧ (s.key.waiting = [] → u.signWaiting readBack = u))) ∧
  (∀ s : State, Inv s → ∃ t, exec .rngHealthFail s = .next t ∧ t.fld F.KEY_RNG.OK = 0 ∧ t.fld F.KEY_RNG.FAIL_SEEN = 1 ∧
    t.fld F.KEY_RNG.FAIL_CNT = min (s.fld F.KEY_RNG.FAIL_CNT + 1) 0xFFFF ∧ OnlyRegs [R.KEY_RNG] s t ∧
    t = { s.post Ev.RNG_FAIL [] with regs := t.regs }) ∧
  (∀ s : State, Inv s → ∃ t, exec .rngOutputResume s = .next t ∧ t.fld F.KEY_RNG.OK = 1 ∧
    t.fld F.KEY_RNG.FAIL_CNT = s.fld F.KEY_RNG.FAIL_CNT ∧ OnlyRegs [R.KEY_RNG] s t ∧ t = { s with regs := t.regs }) ∧
  (∀ (bad : List Nat) (d : DueReset) (s : State), s.power.due = some d → d.cause = 0x06 →
    (s.now < d.pace → exec (.enrolReset bad) s = .next s) ∧
    (d.pace ≤ s.now → s.portsOff = false → ∃ t, exec (.enrolReset bad) s = .next t ∧
      t.power.start = some (0x06, false) ∧ t.power.due = none ∧ t.power.holdUp = false ∧
      (s.fld F.LEG_STAT.RUN = 0 → t = { s with power := t.power, pair := { s.pair with wasStandby := s.roleNow == 1 } })))

/-! ### Firmware (R364 to R384) -/

/-- R372, R374, R375: a scheduled activation that is due takes a warm restart with cause 0x09. A trial whose conditions
have held for MIN_S confirms itself, with CONFIRM where HOST_CONFIRM governs it: both slots good, the trial slot ACTIVE,
TRIAL clear, FWU_RB[0] raised, the boot record written (R371), EV_FW_CONFIRMED recorded and a split of the pair ended;
otherwise nothing happens. A CONFIRM is taken once the
conditions first held, and an earlier one is rejected with REG_RANGE. A trial past SECONDS takes a warm restart with
cause 0x0A. -/
def Obligations.ActivationsAndTrialsEndAsStated : Prop :=
  (∀ s : State,
    (s.fld F.FWU_STAT.ACT_PENDING = 1 →
      (∃ p, s.fwu.actAt = some (.inl p) ∧ p ≤ s.now) ∨ (∃ x, s.fwu.actAt = some (.inr x) ∧ x ≤ s.timeSec) →
      exec .activationRestart s = .next { s with power := { s.power with start := some (0x09, true) } }) ∧
    (s.fld F.FWU_STAT.ACT_PENDING ≠ 1 ∨ (∀ p, s.fwu.actAt = some (.inl p) → s.now < p) ∧
        (∀ x, s.fwu.actAt = some (.inr x) → s.timeSec < x) → exec .activationRestart s = .next s)) ∧
  (∀ (p o rb : Nat) (s : State), Inv s → s.fld F.FWU_STAT.TRIAL = 1 → s.fwu.healthy = some p →
    o = 1 - s.fld F.FWU_STAT.ACTIVE_SLOT → (∃ l, Map.find s.fwu.slots o = some l ∧ fieldAt l 16 4 = rb) →
    (p + s.fwu.trialMin * 1000 ≤ s.now → s.fld F.STO_STAT.READY = 1 → s.fld F.ING_STAT.READY = 1 →
      s.fld F.BAL_STAT.READY = 1 → s.regs.get R.PACE_FAULT = 0 → s.fwu.trialHost = false ∨ s.fwu.confirmed = true →
      ∃ t : State, exec .trialConfirmation s = .next (if s.pair.split = 2 then t.endSplit else t) ∧ t.fld F.FWU_STAT.ACTIVE_SLOT = o ∧
        t.fld F.FWU_STAT.TRIAL = 0 ∧ t.fld F.FWU_SLOT_STAT.SLOT_A = 1 ∧ t.fld F.FWU_SLOT_STAT.SLOT_B = 1 ∧
        t.fld (F.FWU_RB.COUNTER 0) = max rb (s.fld (F.FWU_RB.COUNTER 0)) ∧
        t.fld F.FWU_STAT.STAGE = s.fld F.FWU_STAT.STAGE ∧
        t.fwu.bootSeq = (s.fwu.bootSeq + 1) % 2 ^ 64 ∧
        (∃ b, (t.fwu.boots = (some b, s.fwu.boots.2) ∨ t.fwu.boots = (s.fwu.boots.1, some b)) ∧
          b.seq = t.fwu.bootSeq ∧ b.active = o ∧ b.slotA = 1 ∧ b.slotB = 1 ∧ b.trial = false) ∧
        OnlyRegs [R.FWU_STAT, R.FWU_SLOT_STAT, R.FWU_RB 0] s t ∧ t = { s.post Ev.FW_CONFIRMED [] with
          regs := t.regs, fwu := { s.fwu with bootSeq := t.fwu.bootSeq, boots := t.fwu.boots } }) ∧
    (s.now < p + s.fwu.trialMin * 1000 ∨ s.regs.get R.PACE_FAULT ≠ 0 ∨ s.fwu.trialHost = true ∧ s.fwu.confirmed = false →
      exec .trialConfirmation s = .next s)) ∧
  (∀ (who : Requester) (s : State), Inv s → MayWrite s who R.FWU_CTL → ∃ u, u = enteredBit s who R.FWU_CTL 0 ∧
    (s.fld F.FWU_STAT.TRIAL = 1 → s.fwu.wasHealthy = true → exec (.confirm who) s =
      .next (({ u with fwu := { s.fwu with confirmed := true } } : State).send (.regCause who R.FWU_CTL Cause.OK))) ∧
    (s.fld F.FWU_STAT.TRIAL ≠ 1 ∨ s.fwu.wasHealthy = false → exec (.confirm who) s =
      .next (u.send (.regCause who R.FWU_CTL Cause.REG_RANGE)))) ∧
  (∀ s : State, s.fld F.FWU_STAT.TRIAL = 1 →
    (s.fwu.trialStart + s.fwu.trialMax ≤ s.evt.opSeconds.toNat →
      exec .trialTimeout s = .next { s with power := { s.power with start := some (0x0A, true) } }) ∧
    (s.evt.opSeconds.toNat < s.fwu.trialStart + s.fwu.trialMax → exec .trialTimeout s = .next s))

/-- R379 to R383: from START a campaign runs and each target is sent its FW_OFFER; while it runs and a target is not
final, the next segment goes out at RATE a minute under the next DCOUNTER, as a flood with media bit 0 and a broadcast
at priority 3 on every MESH channel with bit 1; a status is checked as a reading is and moves its target, whose missing
blocks are sent again after a round; at END every target left fails and the campaign ends with its counts recorded. -/
def Obligations.CampaignsRunFromStartToEnd : Prop :=
  (∀ (c : Nat) (x : Campaign) (s : State), Inv s → c < 8 → Map.find s.fwu.camps c = some x → x.state = 1 →
    Map.sorted x.targets = true →
    (s.timeSec < x.start → exec (.campaignBegin c) s = .next s) ∧
    (x.start ≤ s.timeSec → ∃ t y, exec (.campaignBegin c) s = .next t ∧ Map.find t.fwu.camps c = some y ∧
      y = { x with state := 2, targets := y.targets } ∧ t.fld (F.FWU_CAMP_STAT.STATE c) = 2 ∧
      (∀ a e, Map.find x.targets a = some e → Map.find y.targets a =
        some (if e.state = 0 then { e with state := 1, offered := x.rounds } else e)) ∧
      t.ing = { s.ing with toMeter := s.ing.toMeter ++ x.targets.map fun e => (e.1, s.offerBody x) } ∧
      (∀ k, k ≠ c → Map.find t.fwu.camps k = Map.find s.fwu.camps k) ∧
      OnlyRegs [R.FWU_CAMP_STAT c, R.FWU_CAMP_DONE c, R.FWU_CAMP_ROUND c] s t ∧
      t = { s with regs := t.regs, fwu := t.fwu, ing := t.ing })) ∧
  (∀ (c : Nat) (x : Campaign) (s : State), Map.find s.fwu.camps c = some x →
    (x.state ≠ 2 ∨ s.timeSec < x.start ∨ x.finish ≤ s.timeSec ∨ (∀ e ∈ x.targets, e.2.state = 4 ∨ e.2.state = 5) ∨
      (∃ p, x.sentAt = some p ∧ s.now * x.rate < p * x.rate + 60000) → exec (.carouselSegment c) s = .next s) ∧
    (x.state = 2 → x.start ≤ s.timeSec → s.timeSec < x.finish → (∃ e ∈ x.targets, e.2.state ≠ 4 ∧ e.2.state ≠ 5) →
      (∀ p, x.sentAt = some p → p * x.rate + 60000 ≤ s.now * x.rate) →
      (∀ y, Map.find (s.sendSegment x).fwu.camps c = some y → exec (.carouselSegment c) s =
        .next ((s.sendSegment x).setCamp c { y.advance (s.campBlocks y) with sentAt := some s.now })) ∧
      (s.fld F.RFM_DEV_CTR.DCOUNTER < 0xF0000000 → exec (.carouselSegment c) s =
        .next ((s.sendSegment x).setCamp c { x.advance (s.campBlocks x) with sentAt := some s.now })))) ∧
  (∀ (x : Campaign) (s : State), Inv s → s.fld F.RFM_DEV_CTR.DCOUNTER < 0xF0000000 →
    ∃ u n b, u = s.sendSegment x ∧ n = s.fld F.RFM_DEV_CTR.DCOUNTER + 1 ∧
      b = sealBody (beBytes 16 x.key) (beBytes 4 x.id ++ beBytes 4 0) n
        (segmentBody 0x42 x.seg x.block x.id (s.campBlock x x.block)) ∧ u.fld F.RFM_DEV_CTR.DCOUNTER = n ∧
      u.rad.floods = s.rad.floods ++ (if x.media % 2 = 1 then [⟨.short 0xFFFF, true, b⟩] else []) ∧
      (x.media / 2 % 2 = 1 → ∀ k ∈ s.meshChans, ∃ mic, (u.chan k).queue = (s.chan k).queue ++
        [⟨3, 0xFFFF, [], none, macHeader 0 false 0 0 0xFFFF 0xFFFE 0 ++ b ++ beBytes 4 mic, 0, s.fld F.PLC_CSMA.BE_MIN⟩]) ∧
      (x.media / 2 % 2 = 0 → u.plc = s.plc) ∧ u.fwu = s.fwu ∧ OnlyRegs [R.RFM_DEV_CTR] s u) ∧
  (∀ (x : Campaign) (n : Nat),
    (x.seg < 15 → x.advance n = { x with seg := x.seg + 1 }) ∧
    (15 ≤ x.seg → x.block + 1 < n → x.advance n = { x with seg := 0, block := x.block + 1 }) ∧
    (15 ≤ x.seg → n ≤ x.block + 1 → x.advance n = { x with seg := 0, block := 0, rounds := x.rounds + 1 })) ∧
  (∀ s : State, takeInbox 0x24 s.rad.inbox = none → exec .fwStatus s = .next s) ∧
  (∀ (m : NodeMsg) (l : List NodeMsg) (s u : State),
    takeInbox 0x24 s.rad.inbox = some (m, l) → u = { s with rad := { s.rad with inbox := l } } →
    (m.frame.parses 0x24 = false → exec .fwStatus s = .next (u.rejectReading Cause.PROTOCOL none)) ∧
    (m.frame.parses 0x24 = true → u.frameMeter m.frame = none →
      exec .fwStatus s = .next (u.rejectReading Cause.METER_UNKNOWN none)) ∧
    (∀ i v c, m.frame.parses 0x24 = true → u.frameMeter m.frame = some i →
      u.authenticate i (u.meter i) m.frame = (v, .failed c) → exec .fwStatus s = .next (v.rejectReading c (some i))) ∧
    (∀ i v d z n h w, m.frame.parses 0x24 = true → u.frameMeter m.frame = some i →
      u.authenticate i (u.meter i) m.frame = (v, .opened d z) → v.frameWindow i = (h, w) → m.frame.counter = some n →
      (windowJudge h w n = .used → exec .fwStatus s = .next (v.bump F.ING_DUP_FRAME_CNT.COUNT)) ∧
      (windowJudge h w n = .old → exec .fwStatus s = .next (v.rejectReading Cause.DUPLICATE (some i))) ∧
      (∀ a b, windowJudge h w n = .accept a b → exec .fwStatus s = .next ((v.setMeter i
        { (v.meter i).takeCounter (some n) with lastRx := m.frame.rx / 1000 }).applyStatus i (fwReportOf d))))) ∧
  (∀ (i v : Nat) (m : FwReport) (x : Campaign) (t : CampTarget) (s : State),
    Map.find s.fwu.camps (m.id % 8) = some x → Map.find x.targets i = some t →
    (match Map.find s.fwu.images x.image with | some f => f.man.version | none => 0) = v →
    (x.id ≠ m.id ∨ x.state ≠ 2 → s.applyStatus i m = s) ∧
    (x.id = m.id → x.state = 2 → m.state ≠ 0 ∨ t.state = 4 ∨ t.state = 5 ∨ x.rounds ≤ t.offered ∨
        (t.status m v (s.campBlocks x)).missing = 0 →
      s.applyStatus i m = s.setCamp (m.id % 8) { x with
        targets := Map.set x.targets i (t.status m v (s.campBlocks x)) }) ∧
    (x.id = m.id → x.state = 2 → m.state = 0 → t.state ≠ 4 → t.state ≠ 5 → t.offered < x.rounds →
        (t.status m v (s.campBlocks x)).missing ≠ 0 →
      s.applyStatus i m = s.repair (m.id % 8) i { x with
        targets := Map.set x.targets i (t.status m v (s.campBlocks x)) } (t.status m v (s.campBlocks x)))) ∧
  (∀ (t : CampTarget) (m : FwReport) (v n : Nat) (r : CampTarget), r = t.status m v n →
    r.heard = true ∧ r.version = m.version ∧
    (t.state = 4 ∨ t.state = 5 → r.state = t.state ∧ r.cause = t.cause) ∧
    (t.state ≠ 4 → t.state ≠ 5 → (m.state = 0 → r.state = 2 ∧ r.cause = t.cause ∧
        ∀ k < 256, m.first + k < n → m.first + k < 2048 → r.missing.getLsbD (m.first + k) = m.missing.getLsbD k) ∧ (m.state = 1 → r.state = 3) ∧
      (m.state = 2 → r.state = 5 ∧ r.cause = Cause.FW_BLOCK_CHECK) ∧
      (m.state = 3 → m.version = v → r.state = 4 ∧ r.cause = Cause.OK) ∧
      (m.state = 4 → r.state = 5 ∧ r.cause = Cause.PROTOCOL))) ∧
  (∀ (i c : Nat) (x : Campaign) (t : CampTarget) (s : State), (s.repair c i x t).ing = { s.ing with
    toMeter := s.ing.toMeter ++ ((((List.range (s.campBlocks x)).filter fun b => t.missing.getLsbD b).take 4).flatMap
      fun b => (List.range 16).map fun g => (i, segmentBody 0x43 g b x.id (s.campBlock x b))) }) ∧
  (∀ (c : Nat) (x : Campaign) (s : State), Inv s → c < 8 → Map.find s.fwu.camps c = some x →
    (x.state ≠ 2 → exec (.campaignEnd c) s = .next s) ∧
    (x.state = 2 → s.timeSec < x.finish → exec (.campaignEnd c) s = .next (s.setCamp c (s.dropTargets x))) ∧
    (x.state = 2 → x.finish ≤ s.timeSec → ∃ t y, exec (.campaignEnd c) s = .next t ∧
      Map.find t.fwu.camps c = some y ∧ y = { x with state := 3, targets := y.targets } ∧
      t.fld (F.FWU_CAMP_STAT.STATE c) = 3 ∧ (∀ e ∈ y.targets, e.2.state = 4 ∨ e.2.state = 5) ∧
      (∀ a e, Map.find x.targets a = some e → ∃ r, Map.find y.targets a = some r ∧
        (e.state = 4 ∨ e.state = 5 → r = e) ∧
        (e.state ≠ 4 → e.state ≠ 5 → r.state = 5 ∧ (r.cause = Cause.METER_UNKNOWN ∨
          r.cause = if e.heard then Cause.CANCELLED else Cause.LINK_NONE))) ∧
      (∀ k, k ≠ c → Map.find t.fwu.camps k = Map.find s.fwu.camps k) ∧
      t.evt.queue = s.evt.queue ++ [mkPost s Ev.FW_CAMPAIGN [b8 c, b4 (y.count 4), b4 (y.count 5)]] ∧
      OnlyRegs [R.FWU_CAMP_STAT c, R.FWU_CAMP_DONE c, R.FWU_CAMP_ROUND c] s t ∧
      t = { s with regs := t.regs, fwu := t.fwu, evt := t.evt }))

/-! ### Pair operation (R385 to R408) -/

/-- R386 to R389, R403 to R408: a lane that changes is counted and recorded; the link is down when both lanes are, or at
the sixteenth tag failure within 1,000 paces. It comes up with the partner that PAIR_PLAN names, whose statement verifies
and whose reference is common; otherwise the reason is recorded. After reset a member becomes standby where ACT_IN is
high, active once its wait has passed, and stays out of service where PAIR_PLAN does not name it. The deadman drops
ACT_OUT at the second missed boundary and the shared outputs at the third. The standby in step, or one whose link has just
gone down (log 177), takes over at its second miss and forms the missing entries from its own inputs; a member active by
takeover that meets another yields. LEAVE takes a member out of service, which ends its sessions and its member-local
items. What was withheld is released once: a body to a meter goes to transmission, what leaves a port goes out of the member
that sends (R398). -/
def Obligations.PairLinkAndRolesFollowTheirRules : Prop :=
  (∀ s : State, Inv s → ∃ t : State, s.pairLinkDown = t ∧ t.pair.keys = none ∧ t.linkUp = false ∧ t.roleNow = s.roleNow ∧
    (s.syncNow = 0 ∨ s.syncNow = 3 → t = { s with pair := { s.pair with keys := none, tagFails := [] } }) ∧
    (s.syncNow = 2 → s.roleNow = 1 → t.syncNow = 0 ∧ t.fld F.PAIR_STAT.PROTECTED = 0 ∧
      t.pair = { s.pair with keys := none, tagFails := [], downAt := some s.now } ∧
      OnlyRegs [R.PAIR_STAT] s t ∧ t = { s with regs := t.regs, pair := t.pair }) ∧
    (s.syncNow ≠ 0 → s.syncNow ≠ 3 → (s.syncNow ≠ 2 ∨ s.roleNow ≠ 1) → ∃ u : State,
      t = u.releaseThose (s.roleNow == 2) (fun _ => true) ∧ u.syncNow = 0 ∧ u.fld F.PAIR_STAT.PROTECTED = 0 ∧
      u.pair = { s.pair with keys := none, tagFails := [], mismatch := none } ∧
      OnlyRegs [R.PAIR_STAT] s u ∧ u = { s with regs := u.regs, pair := u.pair })) ∧
  (∀ (sends : Bool) (go : Nat → Bool) (s : State), ∃ t : State, s.releaseThose sends go = t ∧
    t.pair = { s.pair with held := s.pair.held.filter fun e => !go e.1 } ∧
    t.ing = { s.ing with toMeter := s.ing.toMeter ++ (s.pair.held.filter fun e => go e.1).filterMap fun e =>
      match e.2 with | .envelope i b => some (i, b) | _ => none } ∧
    t.out = s.out ++ (if sends = true then (s.pair.held.filter fun e => go e.1).filterMap fun e =>
      match e.2 with | .envelope _ _ => none | o => some o else []) ∧
    t = { s with pair := t.pair, ing := t.ing, out := t.out }) ∧
  (∀ (lane : Nat) (s : State), Inv s → s.pairPlan.isSome = true → lane < 2 →
    (∀ up n, n = (s.pair.tagFails.filter fun p => decide (s.now < p + 1000)).length + 1 →
      (n < 16 → exec (.laneChange lane up true) s = .next { s with pair := { s.pair with
        tagFails := s.now :: s.pair.tagFails.filter fun p => decide (s.now < p + 1000) } }) ∧
      (16 ≤ n → exec (.laneChange lane up true) s = .next s.pairLinkDown)) ∧
    (∀ (up : Bool) (f : FieldRef), f = (if lane = 0 then F.PAIR_STAT.LANE0 else F.PAIR_STAT.LANE1) →
      (s.fld f = up.toNat → exec (.laneChange lane up false) s = .next s) ∧
      (s.fld f ≠ up.toNat → ∃ u, exec (.laneChange lane up false) s =
          .next (if u.fld F.PAIR_STAT.LANE0 = 0 ∧ u.fld F.PAIR_STAT.LANE1 = 0 then u.pairLinkDown else u) ∧
        u.fld f = up.toNat ∧ u.fld (F.PRT_ROLE.UP (8 + lane)) = up.toNat ∧
        u.fld F.PAIR_LINK_CNT.COUNT = min (s.fld F.PAIR_LINK_CNT.COUNT + 1) (2 ^ 32 - 1) ∧
        OnlyRegs [R.PAIR_STAT, R.PRT_ROLE (8 + lane), R.PAIR_LINK_CNT] s u ∧
        u = { s.post Ev.PAIR_LINK [] with regs := u.regs }))) ∧
  (∀ (peer : PairPeer) (p : PairPlan) (m : Nat) (s : State), s.pairPlan = some p → s.memberNo = some m →
    s.fld F.PAIR_STAT.LANE0 = 1 ∨ s.fld F.PAIR_STAT.LANE1 = 1 → s.pair.keys = none → s.keysReady = true →
    ∃ (u : State) (nonce : List Byte), nonce = beBytes 16 (Config.free s.drawn) ∧
      u = s.drawLocal.send (.pairHello s.identityStatement nonce) ∧
      (peer.refOk = false → exec (.pairLinkUp peer) s = .next (u.post Ev.PAIR_REF [])) ∧
      (peer.refOk = true → exec (.pairLinkUp peer) s = .next (
        match (if peer.verifies = true ∧ p.idents[1 - m]? = some (sha256 peer.hssPub) then
          ecdh (linkPrivate s.enrol) (ecPoint peer.linkPub) else none) with
        | none => u.post Ev.PAIR_PARTNER [b8 (shortIdent (sha256 peer.hssPub) : Nat)]
        | some z => { u with pair := { u.pair with downAt := none, keys := some (
            if m = 0 then laneKeys z nonce peer.nonce else laneKeys z peer.nonce nonce) } }))) ∧
  (∀ (peer : PairPeer) (s : State), (s.pairPlan = none ∨ s.memberNo = none ∨ s.pair.keys.isSome = true ∨
      s.keysReady = false ∨ (s.fld F.PAIR_STAT.LANE0 = 0 ∧ s.fld F.PAIR_STAT.LANE1 = 0)) →
    exec (.pairLinkUp peer) s = .next s) ∧
  (∀ (actIn : Bool) (p : PairPlan) (s : State), Inv s → s.pairPlan = some p →
    ∃ v, v.fld F.PAIR_STAT.ACT_IN = actIn.toNat ∧ v.roleNow = s.roleNow ∧ OnlyRegs [R.PAIR_STAT] s v ∧
      v = { s with regs := v.regs } ∧
      (s.roleNow ≠ 0 → exec (.roleDecision actIn) s = .next v) ∧
      (s.roleNow = 0 → s.memberNo = none →
        ∃ u : State, exec (.roleDecision actIn) s = .next u ∧ u.roleNow = 3 ∧ u.fld F.PAIR_STAT.ACT_IN = actIn.toNat ∧
          OnlyRegs [R.PAIR_STAT] s u ∧
          u = { s.post Ev.PAIR_PARTNER [b8 (shortIdent s.identity : Nat)] with regs := u.regs }) ∧
      (∀ m w, s.roleNow = 0 → s.memberNo = some m → w = s.pair.roleFrom + p.startWait +
          (if s.pair.wasStandby then 1000 else 0) + (if m = 1 ∧ p.prefer0 = true then 1000 else 0) →
        (actIn = true → exec (.roleDecision actIn) s = .next v.becomeStandby) ∧
        (actIn = false → s.now < w → exec (.roleDecision actIn) s = .next v) ∧
        (actIn = false → w ≤ s.now → ∃ u, exec (.roleDecision actIn) s = .next u.pairNotice ∧ u.roleNow = 2 ∧
          u.syncNow = 0 ∧ u.pair.actOut = true ∧ u.pair.shared = true ∧ u.pair.byTakeover = false ∧
          OnlyRegs [R.PAIR_STAT] s u ∧ u = { s with regs := u.regs, pair := u.pair }))) ∧
  (∀ s : State, Inv s →
    (∃ t, s.becomeStandby = t ∧ t.roleNow = 1 ∧ t.syncNow = (if s.linkUp then 1 else 0) ∧ t.pair.actOut = false ∧
      t.pair.shared = false ∧ t.pair.byTakeover = false ∧ t.pair.stored = [] ∧ t.pair.resync = none ∧
      t.pair.downAt = none ∧ OnlyRegs [R.PAIR_STAT] s t ∧ t = { s with regs := t.regs, pair := t.pair }) ∧
    (∃ t u : State, s.becomeOut = t ∧ u = (s.failLocal true).closeSessions ∧ t.roleNow = 3 ∧ t.syncNow = 0 ∧
      t.fld F.PAIR_STAT.PROTECTED = 0 ∧ t.pair = { u.pair with
        actOut := false, shared := false, held := [], mismatch := none, downAt := none, leaving := 0 } ∧
      (∀ c, (t.ctx c).session = none ∧ (t.ctx c).handshake = none) ∧ OnlyRegs [R.PAIR_STAT] u t ∧
      t = { u with regs := t.regs, pair := t.pair })) ∧
  (∀ (mine : Bool) (s : State), (∀ e ∈ s.host.tasks, e.2.here = mine → memberLocal e.2.opcode = false) →
    s.failLocal mine = s) ∧
  (∀ s : State, exec .deadman s = .next { s with pair := { s.pair with
    missedOwn := s.pair.missedOwn + 1
    actOut := s.pair.actOut && decide (s.pair.missedOwn = 0)
    shared := s.pair.shared && decide (s.pair.missedOwn ≤ 1) } }) ∧
  (∀ s : State, Inv s →
    (s.roleNow ≠ 1 ∨ s.pair.missed < 2 ∨ (s.syncNow ≠ 2 ∧ ∀ p, s.pair.downAt = some p → p + 8 < s.now) →
      exec .takeover s = .next s) ∧
    (s.roleNow = 1 → (s.syncNow = 2 ∨ ∃ p, s.pair.downAt = some p ∧ s.now ≤ p + 8) → 2 ≤ s.pair.missed →
      ∃ (u v : State) (lacks : Nat → Bool), (∀ p, lacks p = true ↔ ∀ e, s.pair.executed = some e → e < p) ∧
        u.roleNow = 2 ∧ u.syncNow = 0 ∧ u.fld F.PAIR_STAT.PROTECTED = 0 ∧ u.pair = { s.pair with
          actOut := true, shared := true, byTakeover := true, missed := 0, inputs := [], ownSamples := []
          mismatch := none, downAt := none
          samples := s.pair.samples ++ (s.pair.ownSamples.filter fun e => lacks e.1).map fun e => e.2 } ∧
        OnlyRegs [R.PAIR_STAT] s u ∧ u = { s with regs := u.regs, pair := u.pair } ∧
        v = (s.pair.inputs.filter fun e => lacks e.1).foldl (fun (t : State) e => t.acceptFrameIn e.2) u ∧
        exec .takeover s = .next ((((v.failLocal false).releaseAll.resendNotices.endHandover).bump
          F.PAIR_SWITCH_CNT.COUNT).post Ev.PAIR_TAKEOVER []).pairNotice)) ∧
  (∀ s : State, Inv s →
    (s.roleNow ≠ 2 ∨ s.pair.byTakeover = false ∨ s.linkUp = true ∨ s.pair.actHigh < 4 → exec .dualYield s = .next s) ∧
    (s.roleNow = 2 → s.pair.byTakeover = true → s.linkUp = false → 4 ≤ s.pair.actHigh →
      ∃ t, exec .dualYield s = .next t ∧ t.roleNow = 1 ∧ t.syncNow = 0 ∧ t.fld F.PAIR_STAT.DUAL = 0 ∧
        t.pair.actOut = false ∧ t.pair.shared = false ∧
        t.fld F.PAIR_DUAL_CNT.COUNT = min (s.fld F.PAIR_DUAL_CNT.COUNT + 1) (2 ^ 32 - 1) ∧
        OnlyRegs [R.PAIR_STAT, R.PAIR_DUAL_CNT] s t ∧ t = { s.post Ev.PAIR_DUAL [] with regs := t.regs, pair := t.pair })) ∧
  (∀ (who : Requester) (s : State), Inv s → MayWrite s who R.PAIR_CTL →
    (s.roleNow = 0 → exec (.leave who) s = .next (s.send (.regCause who R.PAIR_CTL Cause.OK))) ∧
    (s.roleNow ≠ 0 → s.canHandOver = false →
      exec (.leave who) s = .next (s.becomeOut.send (.regCause who R.PAIR_CTL Cause.OK))) ∧
    (s.canHandOver = true → exec (.leave who) s =
      .next (s.handoverPair.becomeOut.send (.regCause who R.PAIR_CTL Cause.OK)))) ∧
  (∀ s : State, Inv s → s.canHandOver = true → ∃ t e, s.handoverPair = t ∧ t.roleNow = 1 ∧ t.pair.actOut = false ∧
    t.pair.shared = false ∧ t.pair.entry = [] ∧ t.pair.executed = some s.now ∧ t.ledger = s.ledger ++ [e] ∧
    e.last = true ∧ e.crcOk = true ∧ e.pace = s.now - 1 ∧ e.records = s.pair.entry ++ [.handover] ∧
    OnlyRegs [R.PAIR_STAT, R.PAIR_LEDGER] s t ∧ t = { s with regs := t.regs, pair := t.pair, ledger := t.ledger })

/-- R389, R393, R394, R397 to R401: the standby acknowledges an entry and stores it while it resynchronises, or executes it in
step, becoming active after one with LAST; the active takes the inputs its partner forwards. Where both digests of a
pace agree, what was held for it is released by the active, and a pair that has caught up comes into step; where they do
not, the mismatch is counted and recorded and the self-checks decide. A common checkpoint is marked when due. A
resynchronisation copies, then executes up to four entries. RESYNC starts one on the standby alone. -/
def Obligations.LedgerAndDigestsKeepThePairInStep : Prop :=
  (∀ (e : LedgerEntry) (s u : State),
    u = ({ s with pair := { s.pair with entrySeen := true, missed := 0 } } : State).send (.ledgerAck e.pace) →
    (s.linkUp = false ∨ e.crcOk = false ∨ s.roleNow ≠ 1 ∧ s.roleNow ≠ 2 → exec (.ledgerEntry e) s = .next s) ∧
    (s.linkUp = true → e.crcOk = true → s.roleNow = 2 → exec (.ledgerEntry e) s =
      .next (e.records.foldl (fun (t : State) r => (t.execRecord r).record r) s)) ∧
    (s.linkUp = true → e.crcOk = true → s.roleNow = 1 →
      u.out = s.out ++ [.ledgerAck e.pace] ∧
      (∀ v : State, s.syncNow = 1 → v = { u with pair := { u.pair with stored := s.pair.stored ++ [e] } } →
        exec (.ledgerEntry e) s = .next (if v.storedTooMuch = true then v.startResync else v)) ∧
      (s.syncNow = 2 → s.pair.mismatch = none → e.last = false → exec (.ledgerEntry e) s = .next (u.execEntry e)) ∧
      (s.syncNow = 2 → s.pair.mismatch = none → e.last = true → Inv s → ∃ v t : State, v = u.execEntry e ∧
        exec (.ledgerEntry e) s = .next (t.releaseAll.resendNotices.endHandover) ∧ t.roleNow = 2 ∧
        t.pair = { v.pair with actOut := true, shared := true, byTakeover := false, missed := 0 } ∧
        t.fld F.PAIR_SWITCH_CNT.COUNT = min (v.fld F.PAIR_SWITCH_CNT.COUNT + 1) (2 ^ 32 - 1) ∧
        OnlyRegs [R.PAIR_STAT, R.PAIR_SWITCH_CNT] v t ∧ t = { v with regs := t.regs, pair := t.pair }) ∧
      (s.syncNow = 2 ∧ s.pair.mismatch.isSome = true ∨ s.syncNow ≠ 1 ∧ s.syncNow ≠ 2 →
        exec (.ledgerEntry e) s = .next u))) ∧
  (∀ (e : LedgerEntry) (s : State), s.execEntry e =
    e.records.foldl State.execRecord { s with pair := { s.pair with executed := some e.pace } }) ∧
  (∀ (f : IngestFrame) (c addr k : Nat) (m : Msg) (v mask : Word) (s : State),
    (f.type ≠ 0x23 → f.type ≠ 0x24 →
      s.execRecord (.frame f) = { s with ing := { s.ing with frames := s.ing.frames ++ [f] } }) ∧
    (∀ l x, s.execRecord (.samples l x) = { s with pair := { s.pair with samples := s.pair.samples ++ [(l, x)] } }) ∧
    (∀ n, s.execRecord (.random n k) = { s with pair := { s.pair with randoms := s.pair.randoms ++ [k] } }) ∧
    (∀ x θ, s.execRecord (.time x θ) = if s.sourceOn x then s.timeSample x θ else s) ∧
    s.execRecord (.arbiterSeed v) = { s with
      que := { s.que with seed := some v }, regs := s.regs.put R.ARB_SEED v } ∧
    s.execRecord .split = { s with pair := { s.pair with split := if s.roleNow = 2 then 3 else 1 } } ∧
    s.execRecord (.waybill k m) = { s with host := { s.host with
      inbox := s.host.inbox ++ [{ m with here := s.memberNo == some k }] } } ∧
    s.execRecord (.regWrite c addr v mask) = (s.writeReg (.context c) addr v mask).1 ∧
    s.execRecord (.warpApply k) = { s with warp := { s.warp with sched := some k } } ∧
    s.execRecord .handover = s ∧ s.execRecord .resyncMark = s) ∧
  (∀ (p : Nat) (own : BitVec 64) (s : State), s.roleNow = 1 ∨ s.roleNow = 2 →
    (s.syncNow = 2 → s.pair.mismatch = none →
      (∀ u : State, u = { s with pair := { s.pair with
          inputs := s.pair.inputs.filter (fun e => decide (p ≤ e.1))
          ownSamples := s.pair.ownSamples.filter (fun e => decide (p ≤ e.1)), matched := some p } } →
        exec (.digestCompare p own (some own)) s =
          .next (u.releaseThose (s.roleNow == 2) fun q => decide (q ≤ p))) ∧
      (∀ d, d ≠ some own → Inv s → ∃ t, exec (.digestCompare p own d) s = .next t ∧ t.syncNow = 4 ∧
        t.fld F.PAIR_STAT.PROTECTED = 0 ∧ t.roleNow = s.roleNow ∧
        t.fld F.PAIR_MISMATCH_CNT.COUNT = min (s.fld F.PAIR_MISMATCH_CNT.COUNT + 1) (2 ^ 32 - 1) ∧
        t.pair = { s.pair with mismatch := some p } ∧ OnlyRegs [R.PAIR_STAT, R.PAIR_MISMATCH_CNT] s t ∧
        t = { s.post Ev.PAIR_MISMATCH [b8 p] with regs := t.regs, pair := t.pair })) ∧
    (s.syncNow = 1 → s.pair.stored = [] → s.fld F.PAIR_RESYNC_LEFT.MIB = 0 → s.linkUp = true →
      exec (.digestCompare p own (some own)) s = .next ({ s with pair := { s.pair with matched := some p } } : State).inStep) ∧
    (∀ d, s.syncNow = 2 → s.pair.mismatch.isSome = true → exec (.digestCompare p own d) s = .next s) ∧
    (∀ d, s.syncNow ≠ 2 → s.syncNow ≠ 1 ∨ d ≠ some own → exec (.digestCompare p own d) s = .next s)) ∧
  (∀ s : State, Inv s → s.roleNow = 1 ∨ s.roleNow = 2 → s.roleNow = 1 ∨ s.pair.split ≠ 1 → ∃ t, s.inStep = t ∧
    t.syncNow = 2 ∧ t.fld F.PAIR_STAT.PROTECTED = 1 ∧ t.fld F.PAIR_RESYNC_LEFT.MIB = 0 ∧ t.pair.resync = none ∧
    t.pair.mismatch = none ∧ t.roleNow = s.roleNow ∧ t.evt.queue = s.evt.queue ++ (if s.roleNow = 1 then
      [mkPost s Ev.PAIR_RESYNC [b8 (match s.pair.resync with | some r => r.2 | none => 0 : Nat)]] else []) ∧
    OnlyRegs [R.PAIR_STAT, R.PAIR_RESYNC_LEFT] s t ∧
    t = { s with regs := t.regs, pair := { s.pair with resync := none, mismatch := none }, evt := t.evt }) ∧
  (∀ (failed : BitVec 4) (q : CheckResult) (s : State), Inv s →
    (s.syncNow ≠ 4 → exec (.selfCheckResult failed q) s = .next s) ∧
    (s.syncNow = 4 → ∃ v, v.fld F.PAIR_SELFCHECK.OWN = (if failed = 0 then 1 else 2) ∧
      v.fld F.PAIR_SELFCHECK.PARTNER = q.code ∧ v.fld F.PAIR_SELFCHECK.FAILED = failed.toNat ∧
      OnlyRegs [R.PAIR_SELFCHECK] s v ∧ v = { s with regs := v.regs } ∧
      (s.roleNow = 2 → q = .pass → failed = 0 → exec (.selfCheckResult failed q) s = .next (v.outOfStep 1)) ∧
      (s.roleNow = 2 → q ≠ .pass → exec (.selfCheckResult failed q) s = .next (v.outOfStep 0)) ∧
      (s.roleNow = 2 → q = .pass → failed ≠ 0 → exec (.selfCheckResult failed q) s =
        .next (({ v with pair := { v.pair with held := [] } } : State).setF F.PAIR_STAT.SYNC 2).handoverPair.failsCheck) ∧
      (s.roleNow ≠ 2 → q = .pass → failed = 0 → exec (.selfCheckResult failed q) s = .next v.startResync) ∧
      (s.roleNow ≠ 2 → failed ≠ 0 → exec (.selfCheckResult failed q) s = .next v.failsCheck) ∧
      (s.roleNow ≠ 2 → q ≠ .pass → failed = 0 → ∃ t u : State, exec (.selfCheckResult failed q) s = .next t ∧
        u = v.releaseAll ∧ t.roleNow = 2 ∧ t.syncNow = 0 ∧ t.fld F.PAIR_STAT.PROTECTED = 0 ∧ t.pair = { u.pair with
          actOut := true, shared := true, byTakeover := false, missed := 0, mismatch := none } ∧
        t.fld F.PAIR_SWITCH_CNT.COUNT = min (s.fld F.PAIR_SWITCH_CNT.COUNT + 1) (2 ^ 32 - 1) ∧
        OnlyRegs [R.PAIR_STAT, R.PAIR_SWITCH_CNT] u t ∧ t = { u with regs := t.regs, pair := t.pair })) ∧
    (∀ u, u = (s.post Ev.PAIR_SELFCHECK []).becomeOut → s.failsCheck = { u with hlt := { u.hlt with
      fatal := match u.hlt.fatal with | some f => some f | none => some ⟨7, 0xF, 0xFF, 0⟩ } })) ∧
  (∀ (p : PairPlan) (s : State), Inv s → s.pairPlan = some p →
    (s.syncNow ≠ 2 ∨ s.pair.mismatch.isSome = true ∨ (∃ c, s.pair.common = some c ∧ s.now < c + p.ckptPaces) →
      exec .commonCheckpoint s = .next s) ∧
    (s.syncNow = 2 → s.pair.mismatch = none → (∀ c, s.pair.common = some c → c + p.ckptPaces ≤ s.now) →
      ∃ t, exec .commonCheckpoint s = .next t ∧ t.pair = { s.pair with common := some s.now } ∧
        t.fld F.PAIR_COMMON_LO.PACE = s.now % 2 ^ 32 ∧ OnlyRegs [R.PAIR_COMMON_LO] s t ∧
        t = { s with regs := t.regs, pair := t.pair })) ∧
  (∀ (pace total left : Nat) (ok : Bool) (s : State), Inv s →
    (s.syncNow ≠ 1 ∨ s.linkUp = false → exec (.resynchronisation pace total left ok) s = .next s) ∧
    (s.syncNow = 1 → s.linkUp = true → ∃ u, u.fld F.PAIR_RESYNC_LEFT.MIB = min 0xFFFFFFFF ((left + 1048575) / 1048576) ∧
      OnlyRegs [R.PAIR_RESYNC_LEFT] s u ∧ u = { s with regs := u.regs, pair := u.pair, pace := u.pace } ∧
      (s.roleNow = 2 ∨ s.pair.resync.isSome = true → u.pair = s.pair ∧ u.pace = s.pace) ∧
      (s.roleNow ≠ 2 → s.pair.resync = none → u.pair = { s.pair with resync := some (pace, total) } ∧
        u.pace = { s.pace with count := BitVec.ofNat 64 pace }) ∧
      (s.roleNow = 2 ∨ left ≠ 0 ∨ ok = false → exec (.resynchronisation pace total left ok) s = .next u) ∧
      (s.roleNow ≠ 2 → left = 0 → ok = true → exec (.resynchronisation pace total left ok) s =
        .next ((u.pair.stored.take 4).foldl State.execEntry
          { u with pair := { u.pair with stored := u.pair.stored.drop 4 } })))) ∧
  (∀ (who : Requester) (s : State), Inv s → MayWrite s who R.PAIR_CTL →
    (s.roleNow ≠ 1 → exec (.resync who) s = .next (s.send (.regCause who R.PAIR_CTL Cause.REG_RANGE))) ∧
    (s.roleNow = 1 → ∃ t, exec (.resync who) s = .next (t.send (.regCause who R.PAIR_CTL Cause.OK)) ∧
      t.syncNow = (if s.linkUp then 1 else 0) ∧ t.fld F.PAIR_STAT.PROTECTED = 0 ∧ t.roleNow = 1 ∧
      t.pair = { s.pair with resync := none, stored := [], mismatch := none, downAt := none } ∧ OnlyRegs [R.PAIR_STAT] s t ∧
      t = { s with regs := t.regs, pair := t.pair }))

/-! ### Supplies, starts and device time (R409 to R427, R434) -/

/-- R409 to R412, R414 to R418, R424, R427, R433, R434: an input that changes is shown, drives its gate and is counted
where it replaces the other; with both bad and VSYS low the converter starts and the next boundary is the cut, unless an
input is good again. SAVE runs the steps of its plan level that are left and then switches every rail off, as does the end
of the converter. A low VBAT is flagged and recorded once a start. Each reset notes the cause of the start that follows;
during SAVE a pin reset waits and a clock fault ends it. Durable queues are written every CKPT_PACES paces at plan levels
1 to 3. -/
def Obligations.SuppliesSaveAndResetsFollowTheirRules : Prop :=
  (∀ (x : Supply) (good : Bool) (v : Levels) (s : State), Inv s → ∃ t a b stop, exec (.supplyChange x good v) s = .next t ∧
    a = (if x = .vinA then good else s.fld F.PWR_STAT.VIN_A_OK == 1) ∧
    b = (if x = .vinB then good else s.fld F.PWR_STAT.VIN_B_OK == 1) ∧ stop = ((a || b) && !s.portsOff) ∧
    t.fld F.PWR_STAT.VIN_A_OK = a.toNat ∧ t.fld F.PWR_STAT.VIN_B_OK = b.toNat ∧
    t.fld F.PWR_STAT.SRC = (if s.portsOff then 0 else if a then 1 else if b then 2 else 0) ∧
    t.fld F.PWR_VSYS.VSYS_MV = v.vsys % 2 ^ 16 ∧ t.fld F.PWR_VSYS.VSTORE_10MV = v.vstore % 2 ^ 16 ∧
    t.fld F.PWR_STAT.HOLDUP_OK = (if 2200 ≤ v.vstore then 1 else 0) ∧
    t.power = { s.power with
      holdUp := s.power.holdUp && !stop, cutDue := s.power.cutDue && !stop, goodSince := t.power.goodSince } ∧
    (∀ y p, (y, p) ∈ t.power.goodSince ↔ (y, p) ∈ s.power.goodSince ∧ (y ≠ x ∨ good = true) ∨
      y = x ∧ p = s.now ∧ good = true ∧ ∀ q, (x, q) ∉ s.power.goodSince) ∧
    t.fld F.PWR_SWITCH_CNT.COUNT = (if s.fld F.PWR_STAT.SRC ≠ 0 ∧ t.fld F.PWR_STAT.SRC ≠ 0 ∧
        s.fld F.PWR_STAT.SRC ≠ t.fld F.PWR_STAT.SRC
      then min (s.fld F.PWR_SWITCH_CNT.COUNT + 1) (2 ^ 32 - 1) else s.fld F.PWR_SWITCH_CNT.COUNT) ∧
    OnlyRegs [R.PWR_STAT, R.PWR_VIN, R.PWR_VSYS, R.PWR_VBAT, R.PWR_SWITCH_CNT] s t ∧
    t = { s with regs := t.regs, power := t.power, evt := t.evt }) ∧
  (∀ (v : Levels) (s : State), Inv s →
    (s.fld F.PWR_STAT.VIN_A_OK = 1 ∨ s.fld F.PWR_STAT.VIN_B_OK = 1 ∨ s.fld F.PWR_WARN.MV ≤ v.vsys ∨ s.portsOff = true →
      exec (.holdupStart v) s = .next s) ∧
    (s.fld F.PWR_STAT.VIN_A_OK = 0 → s.fld F.PWR_STAT.VIN_B_OK = 0 → v.vsys < s.fld F.PWR_WARN.MV → s.portsOff = false →
      ∃ t, exec (.holdupStart v) s = .next t ∧ t.power = { s.power with holdUp := true, cutDue := true } ∧
        t.fld F.HLT_STAT.CAP_TEST = 0 ∧ t.fld F.PWR_STAT.SRC = s.fld F.PWR_STAT.SRC ∧
        OnlyRegs [R.PWR_STAT, R.PWR_VIN, R.PWR_VSYS, R.PWR_VBAT, R.HLT_STAT] s t ∧
        t = { s with regs := t.regs, power := t.power })) ∧
  (∀ s : State, Inv s → ∃ t d, s.enterSave = t ∧ t.power = { s.power with
      phase := .save, cutDue := false, due := none, dir := some d, dirNew := true } ∧
    d = ⟨s.now, s.timeMs, 0, [], 0, 0, 0, false⟩ ∧ t.stage = {} ∧ t.fld F.PWR_STAT.SRC = 0 ∧
    t.pair = { s.pair with wasStandby := s.roleNow == 1 } ∧ OnlyRegs [R.PWR_STAT] s t ∧
    t = { s with regs := t.regs, power := t.power, stage := t.stage, pair := t.pair }) ∧
  (∀ (r : SaveRun) (s : State), s.power.phase ≠ .save → exec (.save r) s = .next s) ∧
  (∀ (r : SaveRun) (d : SaveDir) (s : State), s.power.phase = .save → s.power.dir = some d →
    ∃ t e p, exec (.save r) s = .next t ∧ t.power.dir = some e ∧ p = saveSteps (s.fld F.HLT_STAT.LEVEL) ∧
      (∀ k, 1 ≤ k → k ≤ 7 → e.steps.getLsbD (k - 1) =
        (d.steps.getLsbD (k - 1) || decide (r.paces ≤ p.2) && p.1.contains k && decide (k ≤ r.upto))) ∧
      e.paces = r.paces ∧ e.vEnd = r.vEnd ∧ e.pace = d.pace ∧ e.time = d.time ∧
      (e.complete = true ∨ p.2 < r.paces → t.power.phase = .off ∧ t.power.start = none) ∧
      (e.complete = false → r.paces ≤ p.2 → t.power.phase = .save)) ∧
  (saveSteps 0 = ([1, 2, 3, 4, 5, 6, 7], 90) ∧ saveSteps 1 = ([1, 2, 3, 4, 6, 7], 30) ∧
    ∀ n, 2 ≤ n → saveSteps n = ([1, 2, 3, 7], 5)) ∧
  (∀ (r : SaveRun) (s : State), s.saveStep r 3 = s.finalCheckpoint r.bad ∧ s.saveStep r 5 = s.saveQueues.saveUnits ∧
    s.saveStep r 6 = s.storageSave ∧
    (s.canHandOver = false → Inv s → ∃ t, s.saveStep r 1 = t ∧
      (∀ j c, Map.find s.qty.pulses j = some c → Map.find t.qty.pulses j = some (if c.clear = true then
        { c with phase := .idle, left := 0, ready := false, r := 0, due := 0, clear := false }
        else { c with phase := .idle, left := 0, ready := false })) ∧
      s.out <+: t.out ∧ (∀ x < 2, .radioLow x ∈ t.out) ∧ (∀ x < 4, .plcLow x ∈ t.out) ∧
      (∀ j < 16, t.fld (F.QTY_PULSE_STAT.ASSERTED j) = 0) ∧ (∀ p < 64, t.fld (F.PRT_ROLE.UP p) = 0) ∧
      t = { s.post Ev.SAVE_BEGIN [b8 s.now, b8 (s.fld F.HLT_STAT.LEVEL)] with regs := t.regs, qty := t.qty, out := t.out })) ∧
  (∀ (n : Nat) (s : State),
    (s.power.holdUp = false → exec (.saveCutoff n) s = .next s) ∧
    (s.power.holdUp = true → ∃ t, exec (.saveCutoff n) s = .next t ∧ t = { s with power := { s.power with
      phase := .off, holdUp := false, cutDue := false, start := none, due := none, dir := t.power.dir } } ∧
      (s.power.phase ≠ .save → t.power.dir = s.power.dir) ∧
      (∀ d, s.power.phase = .save → s.power.dir = some d → t.power.dir = some { d with paces := n, vEnd := 800 }))) ∧
  (∀ (c : Nat) (s : State), s.beginReset c = { s with power := { s.power with
      start := some (c, false), due := none, holdUp := false, cutDue := false } } ∧
    exec .powerOnReset s = .next { s with power := { s.power with
      phase := .off, holdUp := false, cutDue := false, start := none, due := none } } ∧
    (s.power.phase ≠ .off → exec .powerOn s = .next s) ∧
    (s.power.phase = .off → exec .powerOn s = .next (s.beginReset (if s.power.dirNew then 0x01 else 0x00))) ∧
    (s.portsOff = true → exec .pinReset s = .next s) ∧ (s.portsOff = false → exec .pinReset s = .next (s.beginReset 0x02)) ∧
    (s.power.phase = .off → exec .clockFault s = .next s) ∧
    (s.power.phase = .save → exec .clockFault s = .next { s with power := { s.power with
      phase := .off, holdUp := false, cutDue := false, start := none, due := none, refFault := true } }) ∧
    (s.portsOff = false → Inv s → ∃ u, exec .clockFault s = .next (u.beginReset 0x07) ∧ u.fld F.CLK_STAT.REF_OK = 0 ∧
      OnlyRegs [R.CLK_STAT] s u ∧ u = { s with regs := u.regs, power := { s.power with refFault := true } })) ∧
  (∀ (r : SaveRun) (d : DueReset) (s : State), s.power.due = some d →
    (d.cause ≠ 0x05 ∧ d.cause ≠ 0x0B ∨ s.now < d.pace ∨ s.power.cutDue = true ∨ s.portsOff = true →
      exec (.commandedReset r) s = .next s) ∧
    (d.pace ≤ s.now → s.power.cutDue = false → s.portsOff = false → ∃ u, u = (if s.canHandOver then s.markRole.handoverPair
        else s.markRole) ∧
      (d.cause = 0x0B → exec (.commandedReset r) s = .next { u with power := { u.power with
        start := some (0x0B, true), due := none } }) ∧
      (d.cause = 0x05 → ∃ t e, exec (.commandedReset r) s = .next t ∧ t.power.start = some (0x05, false) ∧
        t.power.due = none ∧ t.power.dirNew = true ∧ t.power.dir = some e ∧ e.steps = 0x7E ∧ e.complete = true ∧
        e.pace = s.now))) ∧
  (∀ (mv : Nat) (s : State), Inv s →
    (s.power.phase = .off → 1800 ≤ mv → exec (.vbatLow mv) s = .next s) ∧
    (s.power.phase = .off → mv < 1800 → ∃ t, exec (.vbatLow mv) s = .next t ∧ t.fld F.CLK_STAT.RTC_VALID = 0 ∧
      OnlyRegs [R.CLK_STAT] s t ∧ t = { s with regs := t.regs }) ∧
    (s.power.phase ≠ .off → ∃ t, exec (.vbatLow mv) s = .next t ∧ t.fld F.PWR_VBAT.MV = mv % 2 ^ 16 ∧
      t.fld F.PWR_STAT.VBAT_LOW = (if mv < 2200 then 1 else s.fld F.PWR_STAT.VBAT_LOW) ∧
      t.power = { s.power with vbatSeen := s.power.vbatSeen || decide (mv < 2200) } ∧
      t.evt.queue = s.evt.queue ++ (if mv < 2200 ∧ s.power.vbatSeen = false then [mkPost s Ev.VBAT_LOW []] else []) ∧
      OnlyRegs [R.PWR_VBAT, R.PWR_STAT] s t ∧ t = { s with regs := t.regs, power := t.power, evt := t.evt })) ∧
  (∀ s : State,
    (s.fld F.HLT_STAT.LEVEL = 0 ∨ s.now % s.fld F.HLT_PLAN.CKPT_PACES ≠ 0 ∨ s.portsOff = true →
      exec .queueCheckpoint s = .next s) ∧
    (s.fld F.HLT_STAT.LEVEL ≠ 0 → s.now % s.fld F.HLT_PLAN.CKPT_PACES = 0 → s.portsOff = false → ∃ t,
      exec .queueCheckpoint s = .next t ∧ t.que = { s.que with events := s.evt.queue, saved := t.que.saved } ∧
      t = { s with que := t.que } ∧
      (∀ w e, s.warp.active = some w → e ∈ w.queuePlan.queues → e.flags.getLsbD 0 = true →
        Map.find t.que.saved e.queue = some (s.queue e.queue).words)))

/-- R14, R22, R34, R38, R42, R58, R68, R424 to R426: a full start leaves in each register only the bits that are kept, shows
its cause and its supplies, begins at pace 0 with no session, nothing staged, nothing armed and nothing waiting, counts one
operating second and, after a loss of power, one power cycle, and runs one of the stored copies or enters the service state.
A warm restart loses the sessions and what waits to be served, and metering, device time and the queues go on; a commit that
has ended keeps its state. -/
def Obligations.StartsKeepWhatTheirCauseKeeps : Prop :=
  (∀ (i : StartIn) (s : State), (∀ c, s.power.start ≠ some (c, false)) → exec (.fullStart i) s = .next s) ∧
  (∀ s : State, (∀ c, s.power.start ≠ some (c, true)) → exec .warmRestart s = .next s) ∧
  (∀ (c : Nat) (i : StartIn) (s : State), Inv s → ∃ u, u = s.coldStart c i ∧ u.fld F.PWR_RESET.CAUSE = c % 256 ∧
    u.fld F.PWR_STAT.VIN_A_OK = i.goodA.toNat ∧ u.fld F.PWR_STAT.VIN_B_OK = i.goodB.toNat ∧
    (∀ d, s.power.dirNew = true → s.power.dir = some d → u.fld F.PWR_RESET.RESTORE = if d.complete then 1 else 2) ∧
    (s.power.dirNew = false → u.fld F.PWR_RESET.RESTORE = 0) ∧
    (∀ a r, findReg a = some r →
      a ∉ [R.PWR_RESET, R.PWR_STAT, R.CLK_STAT, R.MET_STAT, R.PWR_VIN, R.PWR_VSYS, R.PWR_VBAT] →
      u.regs.get a = (s.regs.get a &&& r.kept) ||| (r.resetWord &&& ~~~ r.kept)) ∧
    u.ing.meters = s.ing.meters ∧ u.ing.log = s.ing.log ∧ u.evt.log = s.evt.log ∧ u.leg.log = s.leg.log ∧
    u.qty.copies = s.qty.copies ∧ u.tar.copies = s.tar.copies ∧ u.fwu = { s.fwu with commits := [] } ∧ u.clk.ns = s.clk.ns ∧
    u.sto = { s.sto with boot := (if i.boots.1 then s.sto.boot.1 else none, if i.boots.2 then s.sto.boot.2 else none) } ∧
    u.key.arm = none ∧ u.warp.stored = s.warp.stored ∧ u.pair.keys = none) ∧
  (∀ (c : Nat) (i : StartIn) (s : State), s.power.start = some (c, false) →
    ∃ t, exec (.fullStart i) s = .next t ∧ t.power.start = none ∧ t.power.due = none ∧ t.power.holdUp = false ∧
      t.pace = {} ∧ t.stage = {} ∧ t.latches = [] ∧ t.host.inbox = [] ∧ (∀ k, (t.ctx k).session = none) ∧
      t.evt.opSeconds = s.evt.opSeconds + 1 ∧
      t.evt.pwrCycles = (if c ≤ 1 then s.evt.pwrCycles + 1 else s.evt.pwrCycles) ∧
      (t.power.phase = .run ∧ (∃ w ∈ s.warp.stored, t.warp.active = some w) ∨
        t.power.phase = .service ∧ t.warp.active = none) ∧
      (s.warp.stored = [] ∨ (∀ b ∈ i.copies, b = false) → t.power.phase = .service)) ∧
  (∀ (c : Nat) (s : State), s.power.start = some (c, true) → Inv s →
    ∃ u t, exec .warmRestart s = .next t ∧ t = ((u.bootFirmware c).fromW c 0 true).pairAfterApply c ∧
      u.fld F.PWR_RESET.CAUSE = c % 256 ∧ OnlyRegs [R.PWR_RESET] s u ∧
      u.stage = { state := if s.stage.state = .pending then .idle else s.stage.state } ∧ u.latches = [] ∧
      u.host.inbox = [] ∧ u.host.arrived = [] ∧ u.host.tasks = s.host.tasks ∧ u.host.journal = s.host.journal ∧
      (∀ k, (u.ctx k).session = none ∧ (u.ctx k).handshake = none ∧ (u.ctx k).high = (s.ctx k).journalled) ∧
      u.hlt = { s.hlt with watch := 0, bite := none, cacheErrors := [] } ∧ u.power = { s.power with start := none } ∧
      t.power.start = none ∧ t.pace = s.pace ∧ t.met = s.met ∧ t.qty = s.qty ∧ t.clk.ns = s.clk.ns ∧
      (∀ q, 1 < q → t.queue q = s.queue q))

/-- R420, R422, R472: a step marked takes effect at a boundary that is no cut: device time moves by its offset, the step
is counted and recorded and the RTC follows. R193, R194: a step back by more than SECONDS is a setback of the tariff, and one
forward a jump of its high-water mark. The quality moves to what samples and spans dictate, is recorded, and on
becoming SYNCED sets the RTC. The comparison while SYNCED sets the trim and the RTC. -/
def Obligations.DeviceTimeIsSteppedRatedAndKept : Prop :=
  (∀ s : State, s.pace.quantum ≠ 0 ∨ s.clk.step = none ∨ s.power.cutDue = true ∨ s.portsOff = true →
    ∀ bad, exec (.timeStep bad) s = .next s) ∧
  (∀ (bad : List Nat) (s : State), s.pace.quantum = 0 → s.clk.step.isSome = true → s.power.cutDue = false →
    s.portsOff = false → exec (.timeStep bad) s = .next (s.toTar s.qtyPlan false bad).takeStep) ∧
  (∀ (bad : List Nat) (theta : Int) (x : TimeSource) (s : State), Inv s → s.pace.quantum = 0 →
    s.clk.step = some (theta, x) → s.qty.stage ≠ .met →
    s.power.cutDue = false → s.portsOff = false → ∃ (t : State) (p : Post), exec (.timeStep bad) s = .next t.legalStep ∧
      t.clk = { s.clk with
        ns := ((s.clk.ns : Int) + theta).toNat, step := none, slew := 0
        rtcSet := some (((s.clk.ns : Int) + theta).toNat, s.now) } ∧
      t.fld F.CLK_STEP_CNT.COUNT = min (s.fld F.CLK_STEP_CNT.COUNT + 1) 0xFFFF ∧ t.fld F.CLK_STAT.RTC_VALID = 1 ∧
      t.evt = { s.evt with queue := s.evt.queue ++ [p] } ∧ p.code = Ev.TIME_SET ∧
      OnlyRegs [R.CLK_STEP_CNT, R.CLK_STAT] s t ∧ t = { s with regs := t.regs, clk := t.clk, evt := t.evt }) ∧
  (∀ s : State,
    (s.fld F.LEG_STAT.RUN = 0 → s.legalStep = s) ∧
    (s.fld F.LEG_STAT.RUN = 1 → s.clk.ns + s.fld F.TAR_SETBACK.SECONDS * 1000000000 < s.clk.last →
      s.legalStep = s.setBack s.clk.last) ∧
    (s.fld F.LEG_STAT.RUN = 1 → s.clk.last ≤ s.clk.ns + s.fld F.TAR_SETBACK.SECONDS * 1000000000 →
      (s.timeMs ≤ s.tar.hwm + 1 → s.legalStep = s) ∧
      (s.tar.hwm + 1 < s.timeMs → s.legalStep = ((List.range 12).foldl State.stepInterval s).tarForward))) ∧
  (∀ s : State, Inv s → s.qualityNow ≤ 3 ∧
    (s.qualityNow = 0 ↔ ∃ x, s.followed = some x ∧ s.clk.slew.natAbs ≤ 1000000 ∧ s.clk.step = none ∧
      ¬ (x = .host ∧ s.clk.hostHeld = true)) ∧
    (s.qualityNow = s.fld F.CLK_QUAL.QUALITY → ∃ p, exec .timeQualityChange s =
      .next { s with clk := { s.clk with synced := p } }) ∧
    (s.qualityNow ≠ s.fld F.CLK_QUAL.QUALITY → ∃ t, exec .timeQualityChange s = .next t ∧
      t.fld F.CLK_QUAL.QUALITY = s.qualityNow ∧ t.clk.ns = s.clk.ns ∧
      t.evt.queue = s.evt.queue ++ [mkPost s Ev.TIME_QUALITY [b1 s.qualityNow, b1 (s.fld F.CLK_QUAL.QUALITY)]] ∧
      (s.qualityNow = 0 → t.clk.rtcSet = some (s.clk.ns, s.now) ∧ t.clk.comparedAt = s.now ∧ t.fld F.CLK_STAT.RTC_VALID = 1) ∧
      (s.qualityNow ≠ 0 → t.clk.rtcSet = s.clk.rtcSet ∧ t.clk.comparedAt = s.clk.comparedAt ∧ t.clk.synced = s.clk.synced) ∧
      OnlyRegs [R.CLK_QUAL, R.CLK_STAT] s t ∧ t = { s with regs := t.regs, clk := t.clk, evt := t.evt })) ∧
  (∀ (trim : Int) (s : State), Inv s →
    (s.fld F.CLK_QUAL.QUALITY ≠ 0 ∨ s.now < s.clk.comparedAt + 3600000 → exec (.rtcCompare trim) s = .next s) ∧
    (s.fld F.CLK_QUAL.QUALITY = 0 → s.clk.comparedAt + 3600000 ≤ s.now → ∃ t, exec (.rtcCompare trim) s = .next t ∧
      t.regs.fldInt F.CLK_RTC_TRIM.PPB = clampInt (-2147483648) 2147483647 trim ∧ t.fld F.CLK_STAT.RTC_VALID = 1 ∧
      t.clk = { s.clk with rtcSet := some (s.clk.ns, s.now), comparedAt := s.now } ∧ OnlyRegs [R.CLK_RTC_TRIM, R.CLK_STAT] s t ∧
      t = { s with regs := t.regs, clk := t.clk }))

/-! ### Health and fatal errors (R429 to R440) -/

/-- R429 to R433, R435, R436: each measurement keeps its cadence (log 182). VCORE rises by 5 mV below the target, falls by 5 mV after ten evaluations above it, and stays
within 700 to 800 mV; at 800 mV below the target the limit is flagged and recorded, and a negative slack is a fatal error.
The scrub period follows the bit errors. A capacitor test runs only with every fitted input good for 60 s, daily or on
TEST; its end, 10 paces later, gives ESR, C, the energy and the plan level, which falls at once and rises by one after two good tests. The
drifts and gains beyond their limits raise their items. An item is sent once a day unless its severity rises. A core is
lost at a failed self-test or at the third cache error within 1,000 paces. -/
def Obligations.HealthIsMeasuredAndReported : Prop :=
  (∀ (i : HealthItem) (s : State),
    ((∃ e ∈ s.hlt.sent, e.1 = i.code ∧ e.2.1 = i.subject ∧ i.severity ≤ e.2.2.1 ∧
        s.evt.opSeconds.toNat < e.2.2.2 + 86400) → s.raiseItem i = s) ∧
    ((¬ ∃ e ∈ s.hlt.sent, e.1 = i.code ∧ e.2.1 = i.subject ∧ i.severity ≤ e.2.2.1 ∧
        s.evt.opSeconds.toNat < e.2.2.2 + 86400) →
      ∃ t p, s.raiseItem i = t ∧ t.hlt.sent.getLast? = some (i.code, i.subject, i.severity, s.evt.opSeconds.toNat) ∧
        t.evt.queue = s.evt.queue ++ [p] ∧ p.code = Ev.HEALTH_ITEM ∧ p.payload = [b8 i.code, b8 i.subject, b8 i.value] ∧
        OnlyRegs [R.PRT_SPI_STAT] s t)) ∧
  (∀ (w : Int) (mv : Nat) (tgt : Int) (s : State), Inv s → mv = s.fld F.HLT_VCORE.MV → tgt = s.fld F.HLT_VCORE_CFG.TGT_PS →
    (s.now < s.hlt.slackAt + 1000 → exec (.vcoreEvaluation w) s = .next s) ∧
    (s.hlt.slackAt + 1000 ≤ s.now →
    ∃ u x low, low = (decide (mv = 800) && decide (w < tgt)) ∧
      x = ((u.postIf low Ev.VCORE_LIMIT []).raiseIf low ⟨3, if 2 * w < tgt then 2 else 1, 0, w, tgt⟩ : State) ∧
      exec (.vcoreEvaluation w) s = .next (if w < 0 then x.fatal 8 0xF 0xFF 0 else x) ∧
      (w < tgt → u.fld F.HLT_VCORE.MV = min 800 (mv + 5) ∧ u.hlt = { s.hlt with slack := 0, slackAt := s.now }) ∧
      (tgt ≤ w → w ≤ tgt + 15 → u.fld F.HLT_VCORE.MV = mv ∧ u.hlt = { s.hlt with slack := 0, slackAt := s.now }) ∧
      (tgt + 15 < w → s.hlt.slack < 9 → u.fld F.HLT_VCORE.MV = mv ∧ u.hlt = { s.hlt with slack := s.hlt.slack + 1, slackAt := s.now }) ∧
      (tgt + 15 < w → 9 ≤ s.hlt.slack → u.fld F.HLT_VCORE.MV = max 700 (mv - 5) ∧ u.hlt = { s.hlt with slack := 0, slackAt := s.now }) ∧
      u.fld F.HLT_STAT.VCORE_LIMIT = low.toNat ∧
      (-32768 ≤ w → w < 32768 → u.regs.fldInt F.HLT_VCORE.SLACK_PS = w) ∧
      OnlyRegs [R.HLT_VCORE, R.HLT_STAT] s u ∧ u = { s with regs := u.regs, hlt := u.hlt })) ∧
  (∀ (b eff : Nat) (s : State), Inv s → eff = (if b ≤ 1800 then s.fld F.STO_SCRUB.DAYS
      else max 1 (s.fld F.STO_SCRUB.DAYS * 1800 / b)) →
    (s.hlt.berDay = s.dayNo → exec (.nandBerEvaluation b) s = .next s) ∧
    (s.hlt.berDay ≠ s.dayNo → ∃ u low, low = decide (4 * eff < s.fld F.STO_SCRUB.DAYS) ∧
    exec (.nandBerEvaluation b) s = .next (u.raiseIf (low && !s.hlt.berLow) ⟨4, 1, 0, b, 1800⟩) ∧
    u.fld F.STO_SCRUB.EFF_DAYS = eff % 2 ^ (F.STO_SCRUB.EFF_DAYS.hi - F.STO_SCRUB.EFF_DAYS.lo + 1) ∧
    u.fld F.HLT_NAND.BER_CENTI = min b 0xFFFF ∧ u.hlt = { s.hlt with berLow := low, berDay := s.dayNo } ∧
    u.fld F.STO_SCRUB.DAYS = s.fld F.STO_SCRUB.DAYS ∧
    OnlyRegs [R.STO_SCRUB, R.HLT_NAND] s u ∧ u = { s with regs := u.regs, hlt := u.hlt })) ∧
  (∀ (l : List (Nat × Int)) (s : State), s.hlt.driftDay = s.dayNo → exec (.dailyMeasurement l) s = .next s) ∧
  (∀ (f trim : Int) (s u : State), s.hlt.driftDay ≠ s.dayNo → f = s.regs.fldInt F.CLK_FREQ.PPB →
    trim = s.regs.fldInt F.CLK_RTC_TRIM.PPB →
    u = (({ s with hlt := { s.hlt with driftDay := s.dayNo } } : State).raiseIf (s.fld F.CLK_QUAL.QUALITY == 0 && (s.fld F.CLK_QUAL.SOURCE == 1 || s.fld F.CLK_QUAL.SOURCE == 2) &&
        decide (s.fld F.HLT_LIMITS.REF_PPM * 1000 < f.natAbs)) ⟨5, 1, 0, f, (s.fld F.HLT_LIMITS.REF_PPM * 1000 : Nat)⟩) →
    ∃ v, v = u.raiseIf (decide (s.fld F.HLT_LIMITS.RTC_PPM * 1000 < trim.natAbs))
        ⟨6, 1, 0, trim, (s.fld F.HLT_LIMITS.RTC_PPM * 1000 : Nat)⟩ ∧ OnlyRegs [R.PRT_SPI_STAT] s v ∧
      exec (.dailyMeasurement []) s = .next v ∧
      ∀ x g l, x < 4 → Inv s → ∃ y, y.hlt = { v.hlt with afeBase := Map.set v.hlt.afeBase x (Map.findD v.hlt.afeBase x g) } ∧
        y = { v with regs := y.regs, hlt := y.hlt } ∧ OnlyRegs [R.PLC_AFE_GAIN x] v y ∧ (-32768 ≤ g → g < 32768 → y.regs.fldInt (F.PLC_AFE_GAIN.GAIN x) = g) ∧
        exec (.dailyMeasurement ((x, g) :: l)) s = .next (l.foldl (fun t e => t.afeGain e.1 e.2)
          (y.raiseIf (decide ((s.fld F.HLT_LIMITS.AFE_CDB : Int) < (g - Map.findD v.hlt.afeBase x g).natAbs))
            ⟨8, 1, x, g - Map.findD v.hlt.afeBase x g, s.fld F.HLT_LIMITS.AFE_CDB⟩))) ∧
  (∀ s : State, (s.capTestAllowed = true ↔ s.fld F.PWR_STAT.HOLDUP_OK = 1 ∧
    ∀ x ∈ s.power.fitted, ∃ p, (x, p) ∈ s.power.goodSince ∧ p + 60000 ≤ s.now)) ∧
  (∀ s : State, Inv s →
    (s.timeMs / 3600000 % 24 ≠ s.fld F.HLT_CAP_CFG.HOUR ∨ s.hlt.testDay = s.timeMs / 86400000 + 1 ∨
      s.capTestAllowed = false → exec .capTest s = .next s) ∧
    (s.timeMs / 3600000 % 24 = s.fld F.HLT_CAP_CFG.HOUR → s.hlt.testDay ≠ s.timeMs / 86400000 + 1 →
      s.capTestAllowed = true → ∃ t, exec .capTest s = .next t ∧ t.fld F.HLT_STAT.CAP_TEST = 1 ∧
        OnlyRegs [R.HLT_STAT] s t ∧ t = { s with regs := t.regs, hlt := { s.hlt with
          testDay := s.timeMs / 86400000 + 1, capFrom := s.now } })) ∧
  (∀ (who : Requester) (s : State), Inv s → MayWrite s who R.HLT_CAP_CFG →
    (s.capTestAllowed = false →
      exec (.capTestNow who) s = .next (s.send (.regCause who R.HLT_CAP_CFG Cause.REG_RANGE))) ∧
    (s.capTestAllowed = true → ∃ t, exec (.capTestNow who) s = .next (t.send (.regCause who R.HLT_CAP_CFG Cause.OK)) ∧
      t.fld F.HLT_STAT.CAP_TEST = 1 ∧ OnlyRegs [R.HLT_STAT] s t ∧
      t = { s with regs := t.regs, hlt := { s.hlt with capFrom := s.now } })) ∧
  (∀ (dv0 fall : Nat) (s : State), (s.fld F.HLT_STAT.CAP_TEST = 0 ∨ s.now < s.hlt.capFrom + 10) →
    exec (.capTestEnd dv0 fall) s = .next s) ∧
  (∀ (dv0 fall dv old : Nat) (n : Nat × Nat) (e : Int × Int) (s : State), Inv s → s.fld F.HLT_STAT.CAP_TEST = 1 →
    s.hlt.capFrom + 10 ≤ s.now → dv = (if fall = 0 then 1 + Config.free s.drawn else fall) → old = s.fld F.HLT_STAT.LEVEL → e = usableEnergy dv0 dv → n = planNext old s.hlt.goodTests e →
    ∃ u, u.fld F.HLT_STAT.CAP_TEST = 0 ∧ u.fld F.HLT_STAT.CAP_VALID = 1 ∧ u.fld F.HLT_STAT.LEVEL = n.1 ∧
      u.fld F.HLT_CAP.ESR_MOHM = min 0xFFFF (dv0 / 100) ∧ u.fld F.HLT_CAP.C_UF = min 0xFFFF (900000000 / dv) ∧
      u.fld F.HLT_EU.MJ = min 0xFFFF (e.1 / e.2).toNat ∧ u.fld F.HLT_EU.BUDGET_MJ = planBudget n.1 ∧
      u.hlt = { s.hlt with goodTests := n.2 } ∧ OnlyRegs [R.HLT_STAT, R.HLT_CAP, R.HLT_EU] s u ∧
      u.evt.queue = s.evt.queue ++ [mkPost s Ev.CAP_TEST [b8 (min 0xFFFF (900000000 / dv)), b8 (min 0xFFFF (dv0 / 100))]] ++
        (if n.1 ≠ old then [mkPost s Ev.PLAN []] else []) ∧ u = { s with regs := u.regs, hlt := u.hlt, evt := u.evt, drawn := if fall = 0 then s.drawn + 1 else s.drawn } ∧
      exec (.capTestEnd dv0 fall) s = .next ((u.raiseIf (n.1 != 0)
        ⟨1, planSeverity n.1, 0, (e.1 / e.2).toNat, planThreshold n.1⟩).raiseIf (n.1 != old)
        ⟨2, planSeverity n.1, 0, n.1, old⟩)) ∧
  (∀ (level good : Nat) (e : Int × Int),
    (level < worstLevel e → planNext level good e = (worstLevel e, 0)) ∧
    (worstLevel e ≤ level → level = 0 ∨ 10 * e.1 < 13 * planBudget (level - 1) * e.2 → planNext level good e = (level, 0)) ∧
    (worstLevel e ≤ level → 0 < level → 13 * planBudget (level - 1) * e.2 ≤ 10 * e.1 →
      planNext level good e = if good = 0 then (level, 1) else (level - 1, 0)) ∧
    (worstLevel e = 3 ↔ e.1 < 50 * e.2) ∧ (50 * e.2 ≤ e.1 → (worstLevel e = 2 ↔ e.1 < 150 * e.2))) ∧
  (∀ (c : Nat) (s : State),
    exec (.coreLost c true) s = .next (s.loseCore c) ∧
    (∀ l, l = (Map.findD s.hlt.cacheErrors c []).filter (fun p => decide (s.now < p + 1000)) →
      ∃ u, u = { s with hlt := { s.hlt with cacheErrors := Map.set s.hlt.cacheErrors c (s.now :: l) } } ∧
        exec (.coreLost c false) s = .next (if 2 ≤ l.length then u.loseCore c else u)) ∧
    (8 ≤ c ∨ (s.fld F.HLT_STAT.CORES_LOST).testBit c = true → s.loseCore c = s) ∧
    (c < 8 → (s.fld F.HLT_STAT.CORES_LOST).testBit c = false → Inv s → ∃ t u n, s.loseCore c = t ∧
      n = s.fld F.HLT_STAT.CORES_LOST ||| 2 ^ c ∧ u.fld F.HLT_STAT.CORES_LOST = n ∧ OnlyRegs [R.HLT_STAT] s u ∧
      u = { s.post Ev.CORE_LOST [] with regs := u.regs } ∧ t = u.raiseItem ⟨9, 2, c, 8 - bits8 n, 8⟩))

/-- R437 to R439: a watchdog count that reaches PACES bites, is counted and signals a fatal error of kind 4; where the
fatal sequence has not begun 16 paces later, the reset comes without a dump. A fatal error signalled or raised is
recorded, hands over where the member is active in step, writes its dump in the slot of R439 and resets with cause FATAL,
or WATCHDOG for kind 4; a cut abandons it for SAVE. -/
def Obligations.FatalErrorsRunTheirSequence : Prop :=
  (∀ s : State, Inv s →
    (s.hlt.watch < s.fld F.HLT_WDOG.PACES ∨ s.portsOff = true ∨ s.hlt.bite.isSome = true →
      exec .watchdogBite s = .next s) ∧
    (s.fld F.HLT_WDOG.PACES ≤ s.hlt.watch → s.portsOff = false → s.hlt.bite = none → ∃ t,
      exec .watchdogBite s = .next t ∧ t.fld F.HLT_WDOG.BITES = min (s.fld F.HLT_WDOG.BITES + 1) 0xFFFF ∧
        t.fld F.HLT_WDOG.PACES = s.fld F.HLT_WDOG.PACES ∧ t.hlt = { s.hlt with
          bite := some s.now
          fatal := match s.hlt.fatal with | some f => some f | none => some ⟨4, 0xF, 0xFF, 0⟩ } ∧
        OnlyRegs [R.HLT_WDOG] s t ∧ t = { s with regs := t.regs, hlt := t.hlt })) ∧
  (∀ (bad : List Nat) (s : State),
    (s.hlt.bite = none → exec (.watchdogHardReset bad) s = .next s) ∧
    (∀ p, s.hlt.bite = some p →
      (s.now < p + 16 ∨ s.portsOff = true → exec (.watchdogHardReset bad) s = .next s) ∧
      (p + 16 ≤ s.now → s.portsOff = false → exec (.watchdogHardReset bad) s = .next (({ s with hlt := { s.hlt with
        bite := none, fatal := none, biteNoDump := true } } : State).cutReset 0x03 bad))) ∧
    (s.fld F.LEG_STAT.RUN = 0 → ∀ c, s.cutReset c bad = s.markRole.beginReset c)) ∧
  (∀ (raised : Option Fatal) (e : DumpEnd) (w : List (Nat × List Byte)) (n : Nat) (bad : List Nat) (s : State),
    (s.portsOff = true ∨ s.hlt.fatal = none ∧ (∀ f, raised = some f → f.kind ≠ 1 ∧ f.kind ≠ 2 ∧ f.kind ≠ 5) →
      exec (.fatalError raised e w n bad) s = .next s) ∧
    (∀ f, s.portsOff = false → s.hlt.fatal = some f →
      exec (.fatalError raised e w n bad) s = .next (s.fatalSequence f e w n bad)) ∧
    (∀ f, s.portsOff = false → s.hlt.fatal = none → raised = some f → f.kind = 1 ∨ f.kind = 2 ∨ f.kind = 5 →
      exec (.fatalError raised e w n bad) s = .next (s.fatalSequence f e w n bad))) ∧
  (∀ (f : Fatal) (e : DumpEnd) (w : List (Nat × List Byte)) (n : Nat) (bad : List Nat) (s : State), Inv s →
    ∃ t u v x y : State, s.fatalSequence f e w n bad = t ∧ u.fld F.HLT_FATAL_LAST.KIND = f.kind % 16 ∧
      u.fld F.HLT_FATAL_LAST.LANE = (if f.lane ≤ 9 then f.lane else 0xF) ∧
      u.fld F.HLT_FATAL_LAST.ENGINE = f.engine % 256 ∧ u.fld F.HLT_FATAL_LAST.CAUSE = f.cause % 65536 ∧
      OnlyRegs [R.HLT_FATAL_LAST] s u ∧ u = { s.post Ev.FATAL
          [b1 f.kind, b8 (if f.lane ≤ 9 then f.lane else 0xF : Nat), b2 f.engine, b2 f.cause] with
        regs := u.regs, hlt := { s.hlt with fatal := none, bite := none }
        pair := { s.pair with wasStandby := s.roleNow == 1 } } ∧
      v = (if s.canHandOver = true then u.handoverPair else u) ∧
      (f.kind = 2 → x = { v with pair := { v.pair with held := [] } }) ∧
      (f.kind ≠ 2 → x = ({ v with pair := { v.pair with held := [] } } : State).finalCheckpoint bad) ∧
      y = (x.writeDump f (e == .whole) s.canHandOver
        (if e = .whole then x.dumpSections w else (x.dumpSections w).take n)).drainEvents ∧
      (e ≠ .cut → t = { y with power := { y.power with
        start := some (if f.kind = 4 then 0x03 else 0x04, false), due := none, holdUp := false, cutDue := false } }) ∧
      (e = .cut → t = y.enterSave ∧ t.power.phase = .save ∧ t.power.start = y.power.start)) ∧
  (∀ (f : Fatal) (whole handed : Bool) (l : List (Nat × List Byte)) (s : State), Inv s →
    (s.hlt.dumpSlot = none → s.writeDump f whole handed l = s) ∧
    (∀ i, s.hlt.dumpSlot = some i → i < 4 → ∃ (t : State) (d : Dump), s.writeDump f whole handed l = t ∧
      t.hlt = { s.hlt with dumps := Map.set s.hlt.dumps i d, dumpSeq := s.hlt.dumpSeq + 1, dumpFirst := false } ∧
      d.fatal = f ∧ d.seq = s.hlt.dumpSeq + 1 ∧ d.complete = whole ∧ d.handed = handed ∧
      (d.noCkpt = true ↔ f.kind = 2) ∧ d.first = (s.hlt.dumpFirst && s.hlt.dumps.isEmpty) ∧ d.pace = s.now ∧
      d.sections = l ∧ t.fld (F.HLT_DUMP_STAT.VALID i) = 1 ∧ t.fld (F.HLT_DUMP_STAT.COMPLETE i) = whole.toNat ∧
      OnlyRegs [R.HLT_DUMP_STAT i] s t ∧ t = { s with regs := t.regs, hlt := t.hlt })) ∧
  (∀ s : State, s.evt.queue = [] → s.drainEvents = s) ∧
  (∀ (h : HealthState) (i : Nat), (∀ j < i, (Map.find h.dumps j).isSome = true) → Map.find h.dumps i = none → i < 4 →
    h.dumpSlot = some i)

end
end

