-- ==== Sys2Proof/Laws/Map.lean ====
section
/-! SUPPORT. Laws of sparse data by number: what a read gives after a write or an erasure, and that every operation
keeps the keys strictly rising. -/

namespace Sys2Proof.Machine

variable {α : Type}

/-- Keys strictly rising, as a chain. -/
theorem Map.sorted_cons {i : Nat} {v : α} {m : Map α} :
    Map.sorted ((i, v) :: m) = true ↔ (∀ p ∈ m, i < p.1) ∧ Map.sorted m = true := by
  induction m generalizing i v with
  | nil => simp [Map.sorted]
  | cons p m ih =>
    obtain ⟨j, w⟩ := p
    simp only [Map.sorted, Bool.and_eq_true, decide_eq_true_eq, List.mem_cons]
    constructor
    · rintro ⟨hij, hs⟩
      refine ⟨?_, hs⟩
      rintro q (rfl | hq)
      · exact hij
      · exact lt_trans hij ((ih.mp hs).1 q hq)
    · rintro ⟨h, hs⟩
      exact ⟨h (j, w) (.inl rfl), hs⟩

theorem Map.find_none_of_lt {m : Map α} {k : Nat} (h : ∀ p ∈ m, k < p.1) : Map.find m k = none := by
  induction m with
  | nil => rfl
  | cons p m ih =>
    obtain ⟨i, v⟩ := p
    have hi : k < i := h (i, v) (by simp)
    simp only [Map.find, Nat.ne_of_gt hi, if_false]
    exact ih fun q hq => h q (by simp [hq])

theorem Map.find_set_same (m : Map α) (k : Nat) (v : α) : Map.find (Map.set m k v) k = some v := by
  induction m with
  | nil => simp [Map.set, Map.find]
  | cons p m ih =>
    obtain ⟨i, w⟩ := p
    simp only [Map.set]
    split
    · simp [Map.find]
    · split
      · simp [Map.find]
      · rename_i h1 h2
        simp [Map.find, Ne.symm h2, ih]

theorem Map.find_set_other {m : Map α} {k j : Nat} (v : α) (h : j ≠ k) :
    Map.find (Map.set m k v) j = Map.find m j := by
  induction m with
  | nil => simp [Map.set, Map.find, Ne.symm h]
  | cons p m ih =>
    obtain ⟨i, w⟩ := p
    simp only [Map.set]
    split
    · simp [Map.find, Ne.symm h]
    · split
      · rename_i h1 h2
        subst h2
        simp [Map.find, Ne.symm h]
      · simp [Map.find, ih]

theorem Map.find_erase_same {m : Map α} (k : Nat) (h : Map.sorted m = true) : Map.find (Map.erase m k) k = none := by
  induction m with
  | nil => rfl
  | cons p m ih =>
    obtain ⟨i, w⟩ := p
    have hs := Map.sorted_cons.mp h
    simp only [Map.erase]
    split
    · rename_i he
      subst he
      exact Map.find_none_of_lt hs.1
    · rename_i he
      simp [Map.find, he, ih hs.2]

theorem Map.find_erase_other {m : Map α} {k j : Nat} (h : j ≠ k) :
    Map.find (Map.erase m k) j = Map.find m j := by
  induction m with
  | nil => rfl
  | cons p m ih =>
    obtain ⟨i, w⟩ := p
    simp only [Map.erase]
    split
    · rename_i he
      subst he
      simp [Map.find, Ne.symm h]
    · simp [Map.find, ih]

theorem Map.mem_set {m : Map α} {k : Nat} {v : α} {p : Nat × α} (h : p ∈ Map.set m k v) : p = (k, v) ∨ p ∈ m := by
  induction m with
  | nil => simpa [Map.set] using h
  | cons q m ih =>
    obtain ⟨i, w⟩ := q
    simp only [Map.set] at h
    split at h
    · simpa using h
    · split at h
      · rcases List.mem_cons.mp h with h | h <;> simp [h]
      · rcases List.mem_cons.mp h with h | h
        · simp [h]
        · rcases ih h with h | h <;> simp [h]

theorem Map.mem_erase {m : Map α} {k : Nat} {p : Nat × α} (h : p ∈ Map.erase m k) : p ∈ m := by
  induction m with
  | nil => simp [Map.erase] at h
  | cons q m ih =>
    obtain ⟨i, w⟩ := q
    simp only [Map.erase] at h
    split at h
    · simp [h]
    · rcases List.mem_cons.mp h with h | h
      · simp [h]
      · simp [ih h]

theorem Map.sorted_set {m : Map α} (k : Nat) (v : α) (h : Map.sorted m = true) : Map.sorted (Map.set m k v) = true := by
  induction m with
  | nil => rfl
  | cons p m ih =>
    obtain ⟨i, w⟩ := p
    have hs := Map.sorted_cons.mp h
    simp only [Map.set]
    split
    · rename_i hk
      refine Map.sorted_cons.mpr ⟨?_, h⟩
      intro q hq
      rcases List.mem_cons.mp hq with rfl | hq
      · exact hk
      · exact lt_trans hk (hs.1 q hq)
    · split
      · rename_i h2
        subst h2
        exact Map.sorted_cons.mpr hs
      · rename_i h1 h2
        refine Map.sorted_cons.mpr ⟨?_, ih hs.2⟩
        intro q hq
        rcases Map.mem_set hq with rfl | hq
        · show i < k
          omega
        · exact hs.1 q hq

theorem Map.sorted_erase {m : Map α} (k : Nat) (h : Map.sorted m = true) : Map.sorted (Map.erase m k) = true := by
  induction m with
  | nil => rfl
  | cons p m ih =>
    obtain ⟨i, w⟩ := p
    have hs := Map.sorted_cons.mp h
    simp only [Map.erase]
    split
    · exact hs.2
    · exact Map.sorted_cons.mpr ⟨fun q hq => hs.1 q (Map.mem_erase hq), ih hs.2⟩

theorem Map.findD_set_same (m : Map α) (k : Nat) (v d : α) : Map.findD (Map.set m k v) k d = v := by
  simp [Map.findD, Map.find_set_same]

theorem Map.findD_set_other {m : Map α} {k j : Nat} (v d : α) (h : j ≠ k) :
    Map.findD (Map.set m k v) j d = Map.findD m j d := by
  simp [Map.findD, Map.find_set_other v h]

/-- An entry of the map is what a read of its key gives. -/
theorem Map.find_of_mem {m : Map α} {p : Nat × α} (h : Map.sorted m = true) (hp : p ∈ m) : Map.find m p.1 = some p.2 := by
  induction m with
  | nil => simp at hp
  | cons q m ih =>
    obtain ⟨i, w⟩ := q
    have hs := Map.sorted_cons.mp h
    rcases List.mem_cons.mp hp with rfl | hp
    · simp [Map.find]
    · have := hs.1 p hp
      simp [Map.find, Nat.ne_of_lt this, ih hs.2 hp]

/-- What a read gives is an entry of the map. -/
theorem Map.mem_of_find {m : Map α} {k : Nat} {v : α} (h : Map.find m k = some v) : (k, v) ∈ m := by
  induction m with
  | nil => simp [Map.find] at h
  | cons q m ih =>
    obtain ⟨i, w⟩ := q
    simp only [Map.find] at h
    split at h
    · rename_i he
      simp only [Option.some.injEq] at h
      simp [he, h]
    · simp [ih h]

end Sys2Proof.Machine
end

