-- ==== Sys2Proof/Laws/RegFile.lean ====
section
/-! SUPPORT. Laws of the register file: a read after a write, the fields of other registers, and that every operation
keeps the canonical form. -/

namespace Sys2Proof.Machine

theorem Map.sorted_of_wf {m : RegFile} (h : m.wf = true) : Map.sorted m = true := by
  simp only [RegFile.wf, Bool.and_eq_true] at h
  exact h.1

/-- What the canonical form says of one entry. -/
theorem RegFile.wf_entry {m : RegFile} (h : m.wf = true) {p : Nat × Word} (hp : p ∈ m) :
    ∃ r, findReg p.1 = some r ∧ p.2 &&& r.fieldMask = p.2 ∧ p.2 ≠ r.resetWord := by
  simp only [RegFile.wf, Bool.and_eq_true, List.all_eq_true] at h
  have := h.2 p hp
  split at this
  · simp at this
  · rename_i r hr
    simp only [Bool.and_eq_true, decide_eq_true_eq] at this
    exact ⟨r, hr, this.1, this.2⟩

theorem RegFile.wf_nil : RegFile.wf [] = true := rfl

theorem RegFile.put_wf {m : RegFile} (a : Nat) (w : Word) (h : m.wf = true) : (m.put a w).wf = true := by
  have hs := Map.sorted_of_wf h
  unfold RegFile.put
  split
  · exact h
  · rename_i r hr
    split
    · simp only [RegFile.wf, Bool.and_eq_true, List.all_eq_true]
      refine ⟨Map.sorted_erase a hs, fun p hp => ?_⟩
      obtain ⟨r', h1, h2, h3⟩ := RegFile.wf_entry h (Map.mem_erase hp)
      simp only [h1, Bool.and_eq_true, decide_eq_true_eq]
      exact ⟨h2, h3⟩
    · rename_i hne
      simp only [RegFile.wf, Bool.and_eq_true, List.all_eq_true]
      refine ⟨Map.sorted_set a _ hs, fun p hp => ?_⟩
      rcases Map.mem_set hp with rfl | hp
      · simp only [hr, Bool.and_eq_true, decide_eq_true_eq]
        refine ⟨?_, hne⟩
        rw [BitVec.and_assoc, BitVec.and_self]
      · obtain ⟨r', h1, h2, h3⟩ := RegFile.wf_entry h hp
        simp only [h1, Bool.and_eq_true, decide_eq_true_eq]
        exact ⟨h2, h3⟩

theorem RegFile.setF_wf {m : RegFile} (f : FieldRef) (v : Nat) (h : m.wf = true) : (m.setF f v).wf = true :=
  RegFile.put_wf _ _ h

theorem RegFile.setFInt_wf {m : RegFile} (f : FieldRef) (v : Int) (h : m.wf = true) : (m.setFInt f v).wf = true :=
  RegFile.put_wf _ _ h

theorem RegFile.bump_wf {m : RegFile} (f : FieldRef) (n : Nat) (h : m.wf = true) : (m.bump f n).wf = true :=
  RegFile.put_wf _ _ h

theorem RegFile.flag_wf {m : RegFile} (f : FieldRef) (b : Bool) (h : m.wf = true) : (m.flag f b).wf = true :=
  RegFile.put_wf _ _ h

theorem RegFile.put64_wf {m : RegFile} (a v : Nat) (h : m.wf = true) : (m.put64 a v).wf = true :=
  RegFile.put_wf _ _ (RegFile.put_wf _ _ h)

/-- A fold whose every step keeps the canonical form keeps it. -/
theorem RegFile.foldl_wf {β : Type} (l : List β) {g : RegFile → β → RegFile}
    (hg : ∀ m x, RegFile.wf m = true → RegFile.wf (g m x) = true) :
    ∀ {m : RegFile}, m.wf = true → RegFile.wf (l.foldl g m) = true := by
  induction l with
  | nil => exact fun h => h
  | cons x l ih => exact fun h => ih (hg _ _ h)

theorem RegFile.ite_wf {a b : RegFile} {c : Prop} [Decidable c] (ha : c → a.wf = true) (hb : ¬c → b.wf = true) :
    RegFile.wf (if c then a else b) = true := by
  split
  · exact ha ‹_›
  · exact hb ‹_›

theorem RegFile.puts_wf {m : RegFile} (l : List (Nat × Word)) (h : m.wf = true) : (m.puts l).wf = true :=
  RegFile.foldl_wf l (fun _ p => RegFile.put_wf p.1 p.2) h

theorem RegFile.cold_wf (m : RegFile) : m.cold.wf = true := by
  unfold RegFile.cold
  refine RegFile.foldl_wf m ?_ RegFile.wf_nil
  intro acc p h
  split
  · exact h
  · exact RegFile.put_wf _ _ h

/-- A read of a register after a write of it: the field bits of what was written (R6). -/
theorem RegFile.get_put_same {m : RegFile} {a : Nat} {r : RegSpec} (w : Word) (h : m.wf = true)
    (hr : findReg a = some r) : (m.put a w).get a = w &&& r.fieldMask := by
  unfold RegFile.put RegFile.get
  simp only [hr]
  split
  · rename_i he
    simp [Map.findD, Map.find_erase_same a (Map.sorted_of_wf h), resetAt, hr, he]
  · simp [Map.findD_set_same]

/-- A write leaves every other register alone. -/
theorem RegFile.get_put_other {m : RegFile} {a b : Nat} (w : Word) (h : b ≠ a) : (m.put a w).get b = m.get b := by
  unfold RegFile.put RegFile.get
  split
  · rfl
  · split
    · simp [Map.findD, Map.find_erase_other h]
    · simp [Map.findD_set_other _ _ h]

/-- An address without a register holds nothing (R442). -/
theorem RegFile.put_absent {m : RegFile} {a : Nat} (w : Word) (hr : findReg a = none) : m.put a w = m := by
  simp [RegFile.put, hr]

/-- A field lies on bits of fields of a register. -/
def FieldRef.ok (f : FieldRef) : Bool :=
  decide (f.lo ≤ f.hi) && decide (f.hi < 32) &&
  match findReg f.addr with
  | none => false
  | some r => (List.range 32).all fun i => !(decide (f.lo ≤ i) && decide (i ≤ f.hi)) || r.fieldMask.getLsbD i

/-- Two fields share no bit. -/
def FieldRef.apart (f g : FieldRef) : Bool :=
  decide (f.addr ≠ g.addr) || decide (f.hi < g.lo) || decide (g.hi < f.lo)

theorem fieldOf_testBit (w : Word) (hi lo i : Nat) :
    (fieldOf w hi lo).testBit i = (decide (i < hi - lo + 1) && w.getLsbD (lo + i)) := by
  simp only [fieldOf, Nat.testBit_mod_two_pow, Nat.testBit_div_two_pow, BitVec.getLsbD, Nat.add_comm]

theorem withField_getLsbD (w : Word) {hi lo : Nat} (v i : Nat) (hlo : lo ≤ hi) (hi32 : i < 32) :
    (withField w hi lo v).getLsbD i =
      if lo ≤ i ∧ i ≤ hi then v.testBit (i - lo) else w.getLsbD i := by
  unfold withField
  simp only [BitVec.getLsbD_ofNat, hi32, decide_true, Bool.true_and]
  have hv : v % 2 ^ (hi - lo + 1) < 2 ^ (hi - lo + 1) := Nat.mod_lt _ (by positivity)
  have hl : w.toNat % 2 ^ lo < 2 ^ lo := Nat.mod_lt _ (by positivity)
  have e1 : w.toNat % 2 ^ lo + v % 2 ^ (hi - lo + 1) * 2 ^ lo =
      2 ^ lo * (v % 2 ^ (hi - lo + 1)) + w.toNat % 2 ^ lo := by ring
  have hb : 2 ^ lo * (v % 2 ^ (hi - lo + 1)) + w.toNat % 2 ^ lo < 2 ^ (hi + 1) := by
    have : (2 : Nat) ^ (hi + 1) = 2 ^ lo * 2 ^ (hi - lo + 1) := by
      rw [← pow_add]; congr 1; omega
    rw [this]
    calc _ < 2 ^ lo * (v % 2 ^ (hi - lo + 1)) + 2 ^ lo := by omega
      _ = 2 ^ lo * (v % 2 ^ (hi - lo + 1) + 1) := by ring
      _ ≤ _ := Nat.mul_le_mul_left _ hv
  have e2 : w.toNat % 2 ^ lo + v % 2 ^ (hi - lo + 1) * 2 ^ lo + w.toNat / 2 ^ (hi + 1) * 2 ^ (hi + 1) =
      2 ^ (hi + 1) * (w.toNat / 2 ^ (hi + 1)) + (2 ^ lo * (v % 2 ^ (hi - lo + 1)) + w.toNat % 2 ^ lo) := by
    rw [e1]; ring
  rw [e2, Nat.testBit_two_pow_mul_add _ hb]
  split
  · rename_i h1
    rw [Nat.testBit_two_pow_mul_add _ hl]
    split
    · rename_i h2
      rw [if_neg (by omega), Nat.testBit_mod_two_pow]
      simp [h2, BitVec.getLsbD]
    · rename_i h2
      rw [if_pos (by omega), Nat.testBit_mod_two_pow]
      simp only [Bool.and_eq_right_iff_imp]
      intro _
      simp only [decide_eq_true_eq]
      omega
  · rename_i h1
    rw [if_neg (by omega), Nat.testBit_div_two_pow]
    simp only [BitVec.getLsbD]
    congr 1
    omega

/-- What a field reads after it is written: the value's bits that fit. -/
theorem RegFile.fld_setF_same {m : RegFile} {f : FieldRef} (v : Nat) (h : m.wf = true) (hf : f.ok = true) :
    (m.setF f v).fld f = v % 2 ^ (f.hi - f.lo + 1) := by
  unfold FieldRef.ok at hf
  simp only [Bool.and_eq_true, decide_eq_true_eq] at hf
  obtain ⟨⟨hlo, hhi⟩, hm⟩ := hf
  split at hm
  · simp at hm
  · rename_i r hr
    simp only [List.all_eq_true, List.mem_range] at hm
    apply Nat.eq_of_testBit_eq
    intro i
    simp only [RegFile.fld, RegFile.setF, RegFile.get_put_same _ h hr, fieldOf_testBit, Nat.testBit_mod_two_pow]
    by_cases hi : i < f.hi - f.lo + 1
    · have h2 := hm (f.lo + i) (by omega)
      simp only [show f.lo ≤ f.lo + i by omega, show f.lo + i ≤ f.hi by omega, decide_true, Bool.true_and,
        Bool.not_true, Bool.false_or] at h2
      rw [BitVec.getLsbD_and, withField_getLsbD _ _ _ hlo (by omega), h2,
        if_pos ⟨by omega, by omega⟩]
      simp [hi]
    · simp [hi]

/-- A write of a field leaves every field apart from it alone. -/
theorem RegFile.fld_setF_other {m : RegFile} {f g : FieldRef} (v : Nat) (h : m.wf = true) (hf : f.ok = true)
    (hg : g.ok = true) (hd : g.apart f = true) : (m.setF f v).fld g = m.fld g := by
  unfold FieldRef.apart at hd
  simp only [Bool.or_eq_true, decide_eq_true_eq] at hd
  by_cases ha : g.addr = f.addr
  · unfold FieldRef.ok at hf hg
    simp only [Bool.and_eq_true, decide_eq_true_eq] at hf hg
    obtain ⟨⟨hlo, hhi⟩, hm⟩ := hf
    obtain ⟨⟨glo, ghi⟩, gm⟩ := hg
    split at gm
    · simp at gm
    · rename_i r hr
      simp only [List.all_eq_true, List.mem_range] at gm
      apply Nat.eq_of_testBit_eq
      intro i
      have hr' : findReg f.addr = some r := by rw [← ha]; exact hr
      simp only [RegFile.fld, RegFile.setF, ha, RegFile.get_put_same _ h hr', fieldOf_testBit]
      by_cases hi : i < g.hi - g.lo + 1
      · have h2 := gm (g.lo + i) (by omega)
        simp only [show g.lo ≤ g.lo + i by omega, show g.lo + i ≤ g.hi by omega, decide_true, Bool.true_and,
          Bool.not_true, Bool.false_or] at h2
        rw [BitVec.getLsbD_and, withField_getLsbD _ _ _ hlo (by omega), h2, if_neg (by omega)]
        simp
      · simp [hi]
  · simp [RegFile.fld, RegFile.setF, RegFile.get_put_other _ ha]

theorem RegFile.fld_flag_same {m : RegFile} {f : FieldRef} (b : Bool) (h : m.wf = true) (hf : f.ok = true) :
    (m.flag f b).fld f = if b then 1 else 0 := by
  unfold RegFile.flag
  rw [RegFile.fld_setF_same _ h hf]
  cases b
  · simp
  · exact Nat.mod_eq_of_lt (Nat.one_lt_two_pow (by omega))

theorem fieldOf_lt (w : Word) (hi lo : Nat) : fieldOf w hi lo < 2 ^ (hi - lo + 1) := Nat.mod_lt _ (by positivity)

/-- A counter that is bumped adds and saturates. -/
theorem RegFile.fld_bump_same {m : RegFile} {f : FieldRef} (n : Nat) (h : m.wf = true) (hf : f.ok = true) :
    (m.bump f n).fld f = min (m.fld f + n) (2 ^ (f.hi - f.lo + 1) - 1) := by
  unfold RegFile.bump
  rw [RegFile.fld_setF_same _ h hf]
  have : 0 < 2 ^ (f.hi - f.lo + 1) := by positivity
  exact Nat.mod_eq_of_lt (by omega)

end Sys2Proof.Machine
end

