-- ==== Sys2Proof/Laws/State.lean ====
section
/-! SUPPORT. One lemma per field of State for each update that every chapter shares, so that no proof unfolds one. -/

namespace Sys2Proof.Machine

variable (s : State)

/-! ### State.setF -/

@[simp] theorem State.setF_pending (f : FieldRef) (v : Nat) : (s.setF f v).pending = s.pending := rfl
@[simp] theorem State.setF_regs (f : FieldRef) (v : Nat) : (s.setF f v).regs = s.regs.setF f v := rfl
@[simp] theorem State.setF_latches (f : FieldRef) (v : Nat) : (s.setF f v).latches = s.latches := rfl
@[simp] theorem State.setF_pace (f : FieldRef) (v : Nat) : (s.setF f v).pace = s.pace := rfl
@[simp] theorem State.setF_stage (f : FieldRef) (v : Nat) : (s.setF f v).stage = s.stage := rfl
@[simp] theorem State.setF_warp (f : FieldRef) (v : Nat) : (s.setF f v).warp = s.warp := rfl
@[simp] theorem State.setF_host (f : FieldRef) (v : Nat) : (s.setF f v).host = s.host := rfl
@[simp] theorem State.setF_met (f : FieldRef) (v : Nat) : (s.setF f v).met = s.met := rfl
@[simp] theorem State.setF_qty (f : FieldRef) (v : Nat) : (s.setF f v).qty = s.qty := rfl
@[simp] theorem State.setF_leg (f : FieldRef) (v : Nat) : (s.setF f v).leg = s.leg := rfl
@[simp] theorem State.setF_tar (f : FieldRef) (v : Nat) : (s.setF f v).tar = s.tar := rfl
@[simp] theorem State.setF_ing (f : FieldRef) (v : Nat) : (s.setF f v).ing = s.ing := rfl
@[simp] theorem State.setF_bal (f : FieldRef) (v : Nat) : (s.setF f v).bal = s.bal := rfl
@[simp] theorem State.setF_que (f : FieldRef) (v : Nat) : (s.setF f v).que = s.que := rfl
@[simp] theorem State.setF_rad (f : FieldRef) (v : Nat) : (s.setF f v).rad = s.rad := rfl
@[simp] theorem State.setF_plc (f : FieldRef) (v : Nat) : (s.setF f v).plc = s.plc := rfl
@[simp] theorem State.setF_fwu (f : FieldRef) (v : Nat) : (s.setF f v).fwu = s.fwu := rfl
@[simp] theorem State.setF_key (f : FieldRef) (v : Nat) : (s.setF f v).key = s.key := rfl
@[simp] theorem State.setF_prt (f : FieldRef) (v : Nat) : (s.setF f v).prt = s.prt := rfl
@[simp] theorem State.setF_pair (f : FieldRef) (v : Nat) : (s.setF f v).pair = s.pair := rfl
@[simp] theorem State.setF_ledger (f : FieldRef) (v : Nat) : (s.setF f v).ledger = s.ledger := rfl
@[simp] theorem State.setF_sto (f : FieldRef) (v : Nat) : (s.setF f v).sto = s.sto := rfl
@[simp] theorem State.setF_evt (f : FieldRef) (v : Nat) : (s.setF f v).evt = s.evt := rfl
@[simp] theorem State.setF_power (f : FieldRef) (v : Nat) : (s.setF f v).power = s.power := rfl
@[simp] theorem State.setF_clk (f : FieldRef) (v : Nat) : (s.setF f v).clk = s.clk := rfl
@[simp] theorem State.setF_hlt (f : FieldRef) (v : Nat) : (s.setF f v).hlt = s.hlt := rfl
@[simp] theorem State.setF_out (f : FieldRef) (v : Nat) : (s.setF f v).out = s.out := rfl
@[simp] theorem State.setF_drawn (f : FieldRef) (v : Nat) : (s.setF f v).drawn = s.drawn := rfl

/-! ### State.bump -/

@[simp] theorem State.bump_pending (f : FieldRef) (n : Nat) : (s.bump f n).pending = s.pending := rfl
@[simp] theorem State.bump_regs (f : FieldRef) (n : Nat) : (s.bump f n).regs = s.regs.bump f n := rfl
@[simp] theorem State.bump_latches (f : FieldRef) (n : Nat) : (s.bump f n).latches = s.latches := rfl
@[simp] theorem State.bump_pace (f : FieldRef) (n : Nat) : (s.bump f n).pace = s.pace := rfl
@[simp] theorem State.bump_stage (f : FieldRef) (n : Nat) : (s.bump f n).stage = s.stage := rfl
@[simp] theorem State.bump_warp (f : FieldRef) (n : Nat) : (s.bump f n).warp = s.warp := rfl
@[simp] theorem State.bump_host (f : FieldRef) (n : Nat) : (s.bump f n).host = s.host := rfl
@[simp] theorem State.bump_met (f : FieldRef) (n : Nat) : (s.bump f n).met = s.met := rfl
@[simp] theorem State.bump_qty (f : FieldRef) (n : Nat) : (s.bump f n).qty = s.qty := rfl
@[simp] theorem State.bump_leg (f : FieldRef) (n : Nat) : (s.bump f n).leg = s.leg := rfl
@[simp] theorem State.bump_tar (f : FieldRef) (n : Nat) : (s.bump f n).tar = s.tar := rfl
@[simp] theorem State.bump_ing (f : FieldRef) (n : Nat) : (s.bump f n).ing = s.ing := rfl
@[simp] theorem State.bump_bal (f : FieldRef) (n : Nat) : (s.bump f n).bal = s.bal := rfl
@[simp] theorem State.bump_que (f : FieldRef) (n : Nat) : (s.bump f n).que = s.que := rfl
@[simp] theorem State.bump_rad (f : FieldRef) (n : Nat) : (s.bump f n).rad = s.rad := rfl
@[simp] theorem State.bump_plc (f : FieldRef) (n : Nat) : (s.bump f n).plc = s.plc := rfl
@[simp] theorem State.bump_fwu (f : FieldRef) (n : Nat) : (s.bump f n).fwu = s.fwu := rfl
@[simp] theorem State.bump_key (f : FieldRef) (n : Nat) : (s.bump f n).key = s.key := rfl
@[simp] theorem State.bump_prt (f : FieldRef) (n : Nat) : (s.bump f n).prt = s.prt := rfl
@[simp] theorem State.bump_pair (f : FieldRef) (n : Nat) : (s.bump f n).pair = s.pair := rfl
@[simp] theorem State.bump_ledger (f : FieldRef) (n : Nat) : (s.bump f n).ledger = s.ledger := rfl
@[simp] theorem State.bump_sto (f : FieldRef) (n : Nat) : (s.bump f n).sto = s.sto := rfl
@[simp] theorem State.bump_evt (f : FieldRef) (n : Nat) : (s.bump f n).evt = s.evt := rfl
@[simp] theorem State.bump_power (f : FieldRef) (n : Nat) : (s.bump f n).power = s.power := rfl
@[simp] theorem State.bump_clk (f : FieldRef) (n : Nat) : (s.bump f n).clk = s.clk := rfl
@[simp] theorem State.bump_hlt (f : FieldRef) (n : Nat) : (s.bump f n).hlt = s.hlt := rfl
@[simp] theorem State.bump_out (f : FieldRef) (n : Nat) : (s.bump f n).out = s.out := rfl
@[simp] theorem State.bump_drawn (f : FieldRef) (n : Nat) : (s.bump f n).drawn = s.drawn := rfl

/-! ### State.flag -/

@[simp] theorem State.flag_pending (f : FieldRef) (b : Bool) : (s.flag f b).pending = s.pending := rfl
@[simp] theorem State.flag_regs (f : FieldRef) (b : Bool) : (s.flag f b).regs = s.regs.flag f b := rfl
@[simp] theorem State.flag_latches (f : FieldRef) (b : Bool) : (s.flag f b).latches = s.latches := rfl
@[simp] theorem State.flag_pace (f : FieldRef) (b : Bool) : (s.flag f b).pace = s.pace := rfl
@[simp] theorem State.flag_stage (f : FieldRef) (b : Bool) : (s.flag f b).stage = s.stage := rfl
@[simp] theorem State.flag_warp (f : FieldRef) (b : Bool) : (s.flag f b).warp = s.warp := rfl
@[simp] theorem State.flag_host (f : FieldRef) (b : Bool) : (s.flag f b).host = s.host := rfl
@[simp] theorem State.flag_met (f : FieldRef) (b : Bool) : (s.flag f b).met = s.met := rfl
@[simp] theorem State.flag_qty (f : FieldRef) (b : Bool) : (s.flag f b).qty = s.qty := rfl
@[simp] theorem State.flag_leg (f : FieldRef) (b : Bool) : (s.flag f b).leg = s.leg := rfl
@[simp] theorem State.flag_tar (f : FieldRef) (b : Bool) : (s.flag f b).tar = s.tar := rfl
@[simp] theorem State.flag_ing (f : FieldRef) (b : Bool) : (s.flag f b).ing = s.ing := rfl
@[simp] theorem State.flag_bal (f : FieldRef) (b : Bool) : (s.flag f b).bal = s.bal := rfl
@[simp] theorem State.flag_que (f : FieldRef) (b : Bool) : (s.flag f b).que = s.que := rfl
@[simp] theorem State.flag_rad (f : FieldRef) (b : Bool) : (s.flag f b).rad = s.rad := rfl
@[simp] theorem State.flag_plc (f : FieldRef) (b : Bool) : (s.flag f b).plc = s.plc := rfl
@[simp] theorem State.flag_fwu (f : FieldRef) (b : Bool) : (s.flag f b).fwu = s.fwu := rfl
@[simp] theorem State.flag_key (f : FieldRef) (b : Bool) : (s.flag f b).key = s.key := rfl
@[simp] theorem State.flag_prt (f : FieldRef) (b : Bool) : (s.flag f b).prt = s.prt := rfl
@[simp] theorem State.flag_pair (f : FieldRef) (b : Bool) : (s.flag f b).pair = s.pair := rfl
@[simp] theorem State.flag_ledger (f : FieldRef) (b : Bool) : (s.flag f b).ledger = s.ledger := rfl
@[simp] theorem State.flag_sto (f : FieldRef) (b : Bool) : (s.flag f b).sto = s.sto := rfl
@[simp] theorem State.flag_evt (f : FieldRef) (b : Bool) : (s.flag f b).evt = s.evt := rfl
@[simp] theorem State.flag_power (f : FieldRef) (b : Bool) : (s.flag f b).power = s.power := rfl
@[simp] theorem State.flag_clk (f : FieldRef) (b : Bool) : (s.flag f b).clk = s.clk := rfl
@[simp] theorem State.flag_hlt (f : FieldRef) (b : Bool) : (s.flag f b).hlt = s.hlt := rfl
@[simp] theorem State.flag_out (f : FieldRef) (b : Bool) : (s.flag f b).out = s.out := rfl
@[simp] theorem State.flag_drawn (f : FieldRef) (b : Bool) : (s.flag f b).drawn = s.drawn := rfl

/-! ### State.puts -/

@[simp] theorem State.puts_pending (l : List (Nat × Word)) : (s.puts l).pending = s.pending := rfl
@[simp] theorem State.puts_regs (l : List (Nat × Word)) : (s.puts l).regs = s.regs.puts l := rfl
@[simp] theorem State.puts_latches (l : List (Nat × Word)) : (s.puts l).latches = s.latches := rfl
@[simp] theorem State.puts_pace (l : List (Nat × Word)) : (s.puts l).pace = s.pace := rfl
@[simp] theorem State.puts_stage (l : List (Nat × Word)) : (s.puts l).stage = s.stage := rfl
@[simp] theorem State.puts_warp (l : List (Nat × Word)) : (s.puts l).warp = s.warp := rfl
@[simp] theorem State.puts_host (l : List (Nat × Word)) : (s.puts l).host = s.host := rfl
@[simp] theorem State.puts_met (l : List (Nat × Word)) : (s.puts l).met = s.met := rfl
@[simp] theorem State.puts_qty (l : List (Nat × Word)) : (s.puts l).qty = s.qty := rfl
@[simp] theorem State.puts_leg (l : List (Nat × Word)) : (s.puts l).leg = s.leg := rfl
@[simp] theorem State.puts_tar (l : List (Nat × Word)) : (s.puts l).tar = s.tar := rfl
@[simp] theorem State.puts_ing (l : List (Nat × Word)) : (s.puts l).ing = s.ing := rfl
@[simp] theorem State.puts_bal (l : List (Nat × Word)) : (s.puts l).bal = s.bal := rfl
@[simp] theorem State.puts_que (l : List (Nat × Word)) : (s.puts l).que = s.que := rfl
@[simp] theorem State.puts_rad (l : List (Nat × Word)) : (s.puts l).rad = s.rad := rfl
@[simp] theorem State.puts_plc (l : List (Nat × Word)) : (s.puts l).plc = s.plc := rfl
@[simp] theorem State.puts_fwu (l : List (Nat × Word)) : (s.puts l).fwu = s.fwu := rfl
@[simp] theorem State.puts_key (l : List (Nat × Word)) : (s.puts l).key = s.key := rfl
@[simp] theorem State.puts_prt (l : List (Nat × Word)) : (s.puts l).prt = s.prt := rfl
@[simp] theorem State.puts_pair (l : List (Nat × Word)) : (s.puts l).pair = s.pair := rfl
@[simp] theorem State.puts_ledger (l : List (Nat × Word)) : (s.puts l).ledger = s.ledger := rfl
@[simp] theorem State.puts_sto (l : List (Nat × Word)) : (s.puts l).sto = s.sto := rfl
@[simp] theorem State.puts_evt (l : List (Nat × Word)) : (s.puts l).evt = s.evt := rfl
@[simp] theorem State.puts_power (l : List (Nat × Word)) : (s.puts l).power = s.power := rfl
@[simp] theorem State.puts_clk (l : List (Nat × Word)) : (s.puts l).clk = s.clk := rfl
@[simp] theorem State.puts_hlt (l : List (Nat × Word)) : (s.puts l).hlt = s.hlt := rfl
@[simp] theorem State.puts_out (l : List (Nat × Word)) : (s.puts l).out = s.out := rfl
@[simp] theorem State.puts_drawn (l : List (Nat × Word)) : (s.puts l).drawn = s.drawn := rfl

/-! ### State.post -/

@[simp] theorem State.post_pending (c : Nat) (p : Payload) : (s.post c p).pending = s.pending := rfl
@[simp] theorem State.post_regs (c : Nat) (p : Payload) : (s.post c p).regs = s.regs := rfl
@[simp] theorem State.post_latches (c : Nat) (p : Payload) : (s.post c p).latches = s.latches := rfl
@[simp] theorem State.post_pace (c : Nat) (p : Payload) : (s.post c p).pace = s.pace := rfl
@[simp] theorem State.post_stage (c : Nat) (p : Payload) : (s.post c p).stage = s.stage := rfl
@[simp] theorem State.post_warp (c : Nat) (p : Payload) : (s.post c p).warp = s.warp := rfl
@[simp] theorem State.post_host (c : Nat) (p : Payload) : (s.post c p).host = s.host := rfl
@[simp] theorem State.post_met (c : Nat) (p : Payload) : (s.post c p).met = s.met := rfl
@[simp] theorem State.post_qty (c : Nat) (p : Payload) : (s.post c p).qty = s.qty := rfl
@[simp] theorem State.post_leg (c : Nat) (p : Payload) : (s.post c p).leg = s.leg := rfl
@[simp] theorem State.post_tar (c : Nat) (p : Payload) : (s.post c p).tar = s.tar := rfl
@[simp] theorem State.post_ing (c : Nat) (p : Payload) : (s.post c p).ing = s.ing := rfl
@[simp] theorem State.post_bal (c : Nat) (p : Payload) : (s.post c p).bal = s.bal := rfl
@[simp] theorem State.post_que (c : Nat) (p : Payload) : (s.post c p).que = s.que := rfl
@[simp] theorem State.post_rad (c : Nat) (p : Payload) : (s.post c p).rad = s.rad := rfl
@[simp] theorem State.post_plc (c : Nat) (p : Payload) : (s.post c p).plc = s.plc := rfl
@[simp] theorem State.post_fwu (c : Nat) (p : Payload) : (s.post c p).fwu = s.fwu := rfl
@[simp] theorem State.post_key (c : Nat) (p : Payload) : (s.post c p).key = s.key := rfl
@[simp] theorem State.post_prt (c : Nat) (p : Payload) : (s.post c p).prt = s.prt := rfl
@[simp] theorem State.post_pair (c : Nat) (p : Payload) : (s.post c p).pair = s.pair := rfl
@[simp] theorem State.post_ledger (c : Nat) (p : Payload) : (s.post c p).ledger = s.ledger := rfl
@[simp] theorem State.post_sto (c : Nat) (p : Payload) : (s.post c p).sto = s.sto := rfl
@[simp] theorem State.post_evt (c : Nat) (p : Payload) : (s.post c p).evt = { s.evt with queue := s.evt.queue ++ [mkPost s c p] } := rfl
@[simp] theorem State.post_power (c : Nat) (p : Payload) : (s.post c p).power = s.power := rfl
@[simp] theorem State.post_clk (c : Nat) (p : Payload) : (s.post c p).clk = s.clk := rfl
@[simp] theorem State.post_hlt (c : Nat) (p : Payload) : (s.post c p).hlt = s.hlt := rfl
@[simp] theorem State.post_out (c : Nat) (p : Payload) : (s.post c p).out = s.out := rfl
@[simp] theorem State.post_drawn (c : Nat) (p : Payload) : (s.post c p).drawn = s.drawn := rfl

/-! ### State.setCtx -/

@[simp] theorem State.setCtx_pending (c : Nat) (x : Ctx) : (s.setCtx c x).pending = s.pending := rfl
@[simp] theorem State.setCtx_regs (c : Nat) (x : Ctx) : (s.setCtx c x).regs = s.regs := rfl
@[simp] theorem State.setCtx_latches (c : Nat) (x : Ctx) : (s.setCtx c x).latches = s.latches := rfl
@[simp] theorem State.setCtx_pace (c : Nat) (x : Ctx) : (s.setCtx c x).pace = s.pace := rfl
@[simp] theorem State.setCtx_stage (c : Nat) (x : Ctx) : (s.setCtx c x).stage = s.stage := rfl
@[simp] theorem State.setCtx_warp (c : Nat) (x : Ctx) : (s.setCtx c x).warp = s.warp := rfl
@[simp] theorem State.setCtx_host (c : Nat) (x : Ctx) : (s.setCtx c x).host = { s.host with ctxs := Map.set s.host.ctxs c x } := rfl
@[simp] theorem State.setCtx_met (c : Nat) (x : Ctx) : (s.setCtx c x).met = s.met := rfl
@[simp] theorem State.setCtx_qty (c : Nat) (x : Ctx) : (s.setCtx c x).qty = s.qty := rfl
@[simp] theorem State.setCtx_leg (c : Nat) (x : Ctx) : (s.setCtx c x).leg = s.leg := rfl
@[simp] theorem State.setCtx_tar (c : Nat) (x : Ctx) : (s.setCtx c x).tar = s.tar := rfl
@[simp] theorem State.setCtx_ing (c : Nat) (x : Ctx) : (s.setCtx c x).ing = s.ing := rfl
@[simp] theorem State.setCtx_bal (c : Nat) (x : Ctx) : (s.setCtx c x).bal = s.bal := rfl
@[simp] theorem State.setCtx_que (c : Nat) (x : Ctx) : (s.setCtx c x).que = s.que := rfl
@[simp] theorem State.setCtx_rad (c : Nat) (x : Ctx) : (s.setCtx c x).rad = s.rad := rfl
@[simp] theorem State.setCtx_plc (c : Nat) (x : Ctx) : (s.setCtx c x).plc = s.plc := rfl
@[simp] theorem State.setCtx_fwu (c : Nat) (x : Ctx) : (s.setCtx c x).fwu = s.fwu := rfl
@[simp] theorem State.setCtx_key (c : Nat) (x : Ctx) : (s.setCtx c x).key = s.key := rfl
@[simp] theorem State.setCtx_prt (c : Nat) (x : Ctx) : (s.setCtx c x).prt = s.prt := rfl
@[simp] theorem State.setCtx_pair (c : Nat) (x : Ctx) : (s.setCtx c x).pair = s.pair := rfl
@[simp] theorem State.setCtx_ledger (c : Nat) (x : Ctx) : (s.setCtx c x).ledger = s.ledger := rfl
@[simp] theorem State.setCtx_sto (c : Nat) (x : Ctx) : (s.setCtx c x).sto = s.sto := rfl
@[simp] theorem State.setCtx_evt (c : Nat) (x : Ctx) : (s.setCtx c x).evt = s.evt := rfl
@[simp] theorem State.setCtx_power (c : Nat) (x : Ctx) : (s.setCtx c x).power = s.power := rfl
@[simp] theorem State.setCtx_clk (c : Nat) (x : Ctx) : (s.setCtx c x).clk = s.clk := rfl
@[simp] theorem State.setCtx_hlt (c : Nat) (x : Ctx) : (s.setCtx c x).hlt = s.hlt := rfl
@[simp] theorem State.setCtx_out (c : Nat) (x : Ctx) : (s.setCtx c x).out = s.out := rfl
@[simp] theorem State.setCtx_drawn (c : Nat) (x : Ctx) : (s.setCtx c x).drawn = s.drawn := rfl

/-! ### State.drawLocal -/

@[simp] theorem State.drawLocal_pending : (s.drawLocal).pending = s.pending := rfl
@[simp] theorem State.drawLocal_regs : (s.drawLocal).regs = s.regs := rfl
@[simp] theorem State.drawLocal_latches : (s.drawLocal).latches = s.latches := rfl
@[simp] theorem State.drawLocal_pace : (s.drawLocal).pace = s.pace := rfl
@[simp] theorem State.drawLocal_stage : (s.drawLocal).stage = s.stage := rfl
@[simp] theorem State.drawLocal_warp : (s.drawLocal).warp = s.warp := rfl
@[simp] theorem State.drawLocal_host : (s.drawLocal).host = s.host := rfl
@[simp] theorem State.drawLocal_met : (s.drawLocal).met = s.met := rfl
@[simp] theorem State.drawLocal_qty : (s.drawLocal).qty = s.qty := rfl
@[simp] theorem State.drawLocal_leg : (s.drawLocal).leg = s.leg := rfl
@[simp] theorem State.drawLocal_tar : (s.drawLocal).tar = s.tar := rfl
@[simp] theorem State.drawLocal_ing : (s.drawLocal).ing = s.ing := rfl
@[simp] theorem State.drawLocal_bal : (s.drawLocal).bal = s.bal := rfl
@[simp] theorem State.drawLocal_que : (s.drawLocal).que = s.que := rfl
@[simp] theorem State.drawLocal_rad : (s.drawLocal).rad = s.rad := rfl
@[simp] theorem State.drawLocal_plc : (s.drawLocal).plc = s.plc := rfl
@[simp] theorem State.drawLocal_fwu : (s.drawLocal).fwu = s.fwu := rfl
@[simp] theorem State.drawLocal_key : (s.drawLocal).key = s.key := rfl
@[simp] theorem State.drawLocal_prt : (s.drawLocal).prt = s.prt := rfl
@[simp] theorem State.drawLocal_pair : (s.drawLocal).pair = s.pair := rfl
@[simp] theorem State.drawLocal_ledger : (s.drawLocal).ledger = s.ledger := rfl
@[simp] theorem State.drawLocal_sto : (s.drawLocal).sto = s.sto := rfl
@[simp] theorem State.drawLocal_evt : (s.drawLocal).evt = s.evt := rfl
@[simp] theorem State.drawLocal_power : (s.drawLocal).power = s.power := rfl
@[simp] theorem State.drawLocal_clk : (s.drawLocal).clk = s.clk := rfl
@[simp] theorem State.drawLocal_hlt : (s.drawLocal).hlt = s.hlt := rfl
@[simp] theorem State.drawLocal_out : (s.drawLocal).out = s.out := rfl
@[simp] theorem State.drawLocal_drawn : (s.drawLocal).drawn = s.drawn + 1 := rfl

/-! ### Reads of a field -/

theorem State.fld_eq (f : FieldRef) : s.fld f = s.regs.fld f := rfl
@[simp] theorem State.fld_post (c : Nat) (p : Payload) (g : FieldRef) : (s.post c p).fld g = s.fld g := rfl
@[simp] theorem State.fld_setCtx (c : Nat) (x : Ctx) (g : FieldRef) : (s.setCtx c x).fld g = s.fld g := rfl
@[simp] theorem State.fld_drawLocal (g : FieldRef) : s.drawLocal.fld g = s.fld g := rfl

variable {s}

theorem State.fld_setF_same {f : FieldRef} (v : Nat) (h : s.regs.wf = true) (hf : f.ok = true) :
    (s.setF f v).fld f = v % 2 ^ (f.hi - f.lo + 1) := RegFile.fld_setF_same v h hf

theorem State.fld_setF_other {f g : FieldRef} (v : Nat) (h : s.regs.wf = true) (hf : f.ok = true) (hg : g.ok = true)
    (hd : g.apart f = true) : (s.setF f v).fld g = s.fld g := RegFile.fld_setF_other v h hf hg hd

theorem State.fld_bump_same {f : FieldRef} (n : Nat) (h : s.regs.wf = true) (hf : f.ok = true) :
    (s.bump f n).fld f = min (s.fld f + n) (2 ^ (f.hi - f.lo + 1) - 1) := RegFile.fld_bump_same n h hf

theorem State.fld_bump_other {f g : FieldRef} (n : Nat) (h : s.regs.wf = true) (hf : f.ok = true) (hg : g.ok = true)
    (hd : g.apart f = true) : (s.bump f n).fld g = s.fld g := RegFile.fld_setF_other _ h hf hg hd

theorem State.fld_flag_same {f : FieldRef} (b : Bool) (h : s.regs.wf = true) (hf : f.ok = true) :
    (s.flag f b).fld f = if b then 1 else 0 := RegFile.fld_flag_same b h hf

theorem State.fld_flag_other {f g : FieldRef} (b : Bool) (h : s.regs.wf = true) (hf : f.ok = true) (hg : g.ok = true)
    (hd : g.apart f = true) : (s.flag f b).fld g = s.fld g := RegFile.fld_setF_other _ h hf hg hd

/-- A conditional post is a post or nothing. -/
theorem State.postIf_eq (b : Bool) (c : Nat) (p : Payload) : s.postIf b c p = if b then s.post c p else s := rfl

end Sys2Proof.Machine
end

