-- ==== Sys2Proof/Laws/Frame.lean ====
section
/-! SUPPORT. Which registers an update leaves alone, and that writing a register with what it holds changes nothing. -/

namespace Sys2Proof

open Machine

theorem OnlyRegs.refl (l : List Nat) (s : State) : OnlyRegs l s s := fun _ _ => rfl

theorem OnlyRegs.of_regs {l : List Nat} {s t u : State} (h : OnlyRegs l s t) (hr : u.regs = t.regs) : OnlyRegs l s u :=
  fun a ha => by rw [hr]; exact h a ha

theorem OnlyRegs.setF {l : List Nat} {s t : State} (h : OnlyRegs l s t) {f : FieldRef} (v : Nat) (hf : f.addr ∈ l) :
    OnlyRegs l s (t.setF f v) :=
  fun a ha => (RegFile.get_put_other _ (by rintro rfl; exact ha hf)).trans (h a ha)

theorem OnlyRegs.flag {l : List Nat} {s t : State} (h : OnlyRegs l s t) {f : FieldRef} (b : Bool) (hf : f.addr ∈ l) :
    OnlyRegs l s (t.flag f b) :=
  fun a ha => (RegFile.get_put_other _ (by rintro rfl; exact ha hf)).trans (h a ha)

theorem OnlyRegs.bump {l : List Nat} {s t : State} (h : OnlyRegs l s t) {f : FieldRef} (n : Nat) (hf : f.addr ∈ l) :
    OnlyRegs l s (t.bump f n) :=
  fun a ha => (RegFile.get_put_other _ (by rintro rfl; exact ha hf)).trans (h a ha)

theorem OnlyRegs.post {l : List Nat} {s t : State} (h : OnlyRegs l s t) (c : Nat) (p : Payload) :
    OnlyRegs l s (t.post c p) := h

end Sys2Proof

namespace Sys2Proof.Machine

theorem Map.set_of_find {α : Type} {m : Map α} {k : Nat} {v : α} (h : Map.sorted m = true) (hf : Map.find m k = some v) :
    Map.set m k v = m := by
  induction m with
  | nil => simp [Map.find] at hf
  | cons p m ih =>
    obtain ⟨i, w⟩ := p
    rw [Map.sorted_cons] at h
    simp only [Map.find] at hf
    split at hf
    · next e =>
      subst e
      simp [Map.set, Option.some.inj hf]
    · next e =>
      have hk : i < k := h.1 (k, v) (Map.mem_of_find hf)
      have h1 : ¬ k < i := by omega
      have h2 : ¬ k = i := by omega
      simp [Map.set, h1, h2, ih h.2 hf]

theorem Map.erase_of_find {α : Type} {m : Map α} {k : Nat} (hf : Map.find m k = none) : Map.erase m k = m := by
  induction m with
  | nil => rfl
  | cons p m ih =>
    obtain ⟨i, w⟩ := p
    simp only [Map.find] at hf
    split at hf
    · cases hf
    · next e => simp [Map.erase, e, ih hf]

/-- The reset value of a register has no reserved bit. -/
theorem blockRegs_reset (b : Nat) : (blockRegs b).all (fun r => r.resetWord &&& r.fieldMask == r.resetWord) = true := by
  unfold blockRegs
  split <;> decide +kernel

theorem findReg_reset {a : Nat} {r : RegSpec} (h : findReg a = some r) : r.resetWord &&& r.fieldMask = r.resetWord := by
  have := List.all_eq_true.mp (blockRegs_reset (a / 0x10000)) r (List.mem_of_find?_eq_some h)
  simpa using this

/-- Writing a register with what it holds changes nothing. -/
theorem RegFile.put_get {m : RegFile} (a : Nat) (h : m.wf = true) : m.put a (m.get a) = m := by
  have hs := Map.sorted_of_wf h
  unfold RegFile.put RegFile.get Map.findD resetAt
  cases hr : findReg a with
  | none => rfl
  | some r =>
    cases hf : Map.find m a with
    | none =>
      have : ∀ x : Word, (if x &&& r.fieldMask = r.resetWord then Map.erase m a else Map.set m a (x &&& r.fieldMask)) = m
          ∨ x &&& r.fieldMask ≠ r.resetWord := by
        intro x
        by_cases e : x &&& r.fieldMask = r.resetWord
        · exact .inl (by rw [if_pos e, Map.erase_of_find hf])
        · exact .inr e
      refine (this _).resolve_right ?_
      simp only [Option.getD_none]
      exact fun e => e (findReg_reset hr)
    | some w =>
      obtain ⟨r', h1, h2, h3⟩ := RegFile.wf_entry h (Map.mem_of_find hf)
      rw [hr] at h1
      cases h1
      simp [h2, h3, Map.set_of_find hs hf]

end Sys2Proof.Machine
end

