-- ==== Sys2Proof/Laws/Keeps.lean ====
section
/-! SUPPORT. What every operation of the device keeps, said once: the register file stays canonical, the queue is left
alone, what was sent stays sent, and free values are drawn forward. -/

set_option Elab.async false

namespace Sys2Proof.Machine

/-- The state `t` follows from the state `s` by operations of the device. -/
structure Follows (s t : State) : Prop where
  regs : s.regs.wf = true → t.regs.wf = true
  pending : t.pending = s.pending
  out : s.out <+: t.out
  drawn : s.drawn ≤ t.drawn

theorem Follows.refl (s : State) : Follows s s := ⟨id, rfl, List.prefix_rfl, le_rfl⟩

theorem Follows.trans {s t u : State} (h : Follows s t) (g : Follows t u) : Follows s u :=
  ⟨fun w => g.regs (h.regs w), g.pending.trans h.pending, h.out.trans g.out, h.drawn.trans g.drawn⟩

/-- The state `t` follows from the state `s` within one quantum: nothing moved the pace. -/
structure Runs (s t : State) : Prop extends Follows s t where
  pace : t.pace.count = s.pace.count ∧ t.pace.quantum = s.pace.quantum

/-- The state `t` follows from the state `s` within one quantum and under one Warp image. -/
structure Keeps (s t : State) : Prop extends Runs s t where
  image : t.warp.active = s.warp.active

theorem Runs.refl (s : State) : Runs s s := ⟨Follows.refl s, rfl, rfl⟩

theorem Keeps.refl (s : State) : Keeps s s := ⟨Runs.refl s, rfl⟩

theorem Runs.trans {s t u : State} (h : Runs s t) (g : Runs t u) : Runs s u :=
  ⟨h.toFollows.trans g.toFollows, g.pace.1.trans h.pace.1, g.pace.2.trans h.pace.2⟩

theorem Keeps.trans {s t u : State} (h : Keeps s t) (g : Keeps t u) : Keeps s u :=
  ⟨h.toRuns.trans g.toRuns, g.image.trans h.image⟩

/-- Operations under one image, after others. -/
theorem Runs.keeps {s t u : State} (h : Runs s t) (g : Keeps t u) : Runs s u := h.trans g.toRuns

theorem Follows.keeps {s t u : State} (h : Follows s t) (g : Keeps t u) : Follows s u := h.trans g.toFollows

/-- An update of fields other than these. -/
theorem Follows.of_eq {s t u : State} (h : Follows s t) (hr : u.regs = t.regs) (hp : u.pending = t.pending)
    (ho : u.out = t.out) (hd : u.drawn = t.drawn) : Follows s u :=
  ⟨fun w => hr ▸ h.regs w, hp.trans h.pending, ho ▸ h.out, hd ▸ h.drawn⟩

theorem Runs.of_eq {s t u : State} (h : Runs s t) (hr : u.regs = t.regs) (hp : u.pending = t.pending)
    (ho : u.out = t.out) (hd : u.drawn = t.drawn) (hc : u.pace = t.pace) : Runs s u :=
  ⟨h.toFollows.of_eq hr hp ho hd, hc ▸ h.pace⟩

theorem Keeps.of_eq {s t u : State} (h : Keeps s t) (hr : u.regs = t.regs) (hp : u.pending = t.pending)
    (ho : u.out = t.out) (hd : u.drawn = t.drawn) (hc : u.pace = t.pace) (hw : u.warp.active = t.warp.active) :
    Keeps s u :=
  ⟨h.toRuns.of_eq hr hp ho hd hc, hw.trans h.image⟩

/-- The state of an answer that was taken apart. -/
theorem Keeps.of_fst {s t : State} {γ : Type} {p : State × γ} {y : γ} (e : p = (t, y)) (h : Keeps s p.1) :
    Keeps s t := by
  rw [e] at h
  exact h

theorem Keeps.ite {s a b : State} {c : Prop} [Decidable c] (ha : c → Keeps s a) (hb : ¬c → Keeps s b) :
    Keeps s (if c then a else b) := by
  split
  · exact ha ‹_›
  · exact hb ‹_›

theorem Keeps.ite_fst {s : State} {γ : Type} {a b : State × γ} {c : Prop} [Decidable c] (ha : c → Keeps s a.1)
    (hb : ¬c → Keeps s b.1) : Keeps s (if c then a else b).1 := by
  split
  · exact ha ‹_›
  · exact hb ‹_›

theorem Keeps.foldl {s t : State} {β : Type} {g : State → β → State} (l : List β) (h : Keeps s t)
    (hg : ∀ u x, Keeps s u → Keeps s (g u x)) : Keeps s (l.foldl g t) := by
  induction l generalizing t with
  | nil => exact h
  | cons x l ih => exact ih (hg _ _ h)

theorem Keeps.foldl_pair {s : State} {β γ : Type} {g : State × γ → β → State × γ} (l : List β) {p : State × γ}
    (h : Keeps s p.1) (hg : ∀ (q : State × γ) x, Keeps s q.1 → Keeps s (g q x).1) : Keeps s (l.foldl g p).1 := by
  induction l generalizing p with
  | nil => exact h
  | cons x l ih => exact ih (hg _ _ h)

/-- An update whose register file is that of a state it follows. -/
theorem Keeps.mk_upd {s t : State} {r a1 a2 a3 a4 a5 a6 a7 a8 a9 a10 a11 a12 a13 a14 a15 a16 a17 a18 a19 a20 a21 a22 a23 a24}
    (h : Keeps s t) (hr : s.regs.wf = true → t.regs.wf = true → r.wf = true)
    (hc : a2.count = t.pace.count ∧ a2.quantum = t.pace.quantum ∧ a4.active = t.warp.active) :
    Keeps s ⟨t.pending, r, a1, a2, a3, a4, a5, a6, a7, a8, a9, a10, a11, a12, a13, a14, a15, a16, a17, a18, a19, a20,
      a21, a22, a23, a24, t.out, t.drawn⟩ :=
  ⟨⟨⟨fun w => hr w (h.regs w), h.pending, h.out, h.drawn⟩, hc.1.trans h.pace.1, hc.2.1.trans h.pace.2⟩,
    hc.2.2.trans h.image⟩

/-- A command that completes in a state that follows from the one it began in. -/
def Ends (s : State) (o : Host.Outcome State Fault Refusal) : Prop := ∃ t, o = .next t ∧ Keeps s t

theorem Ends.next {s t : State} (h : Keeps s t) : Ends s (.next t) := ⟨t, rfl, h⟩

theorem Ends.ite {s : State} {a b : Host.Outcome State Fault Refusal} {c : Prop} [Decidable c] (ha : c → Ends s a)
    (hb : ¬c → Ends s b) : Ends s (if c then a else b) := by
  split
  · exact ha ‹_›
  · exact hb ‹_›

/-- A command that completes within its quantum, and may change the image. -/
def EndsRun (s : State) (o : Host.Outcome State Fault Refusal) : Prop := ∃ t, o = .next t ∧ Runs s t

theorem EndsRun.next {s t : State} (h : Runs s t) : EndsRun s (.next t) := ⟨t, rfl, h⟩

/-- A command that completes in a state that follows from the one it began in, and that may move the pace. -/
def Moves (s : State) (o : Host.Outcome State Fault Refusal) : Prop := ∃ t, o = .next t ∧ Follows s t

theorem Moves.next {s t : State} (h : Follows s t) : Moves s (.next t) := ⟨t, rfl, h⟩

end Sys2Proof.Machine
end

