-- ==== Sys2Proof/Laws/KeepsOps.lean ====
section
/-! SUPPORT. The operations of Machine/Ops lead from a state to one that follows from it (Keeps). -/

set_option Elab.async false

namespace Sys2Proof.Machine

theorem State.send_keeps {s0 s : State} (h : Keeps s0 s) :
    ∀ x1, Keeps s0 (State.send s x1) := by
  intro o
  unfold State.send
  split
  · exact h
  · split
    · exact h.of_eq rfl rfl rfl rfl rfl rfl
    · split
      · exact h
      · exact ⟨⟨⟨h.regs, h.pending, h.out.trans (List.prefix_append _ _), h.drawn⟩, h.pace⟩, h.image⟩


theorem State.raiseVector_keeps {s0 s : State} (h : Keeps s0 s) :
    ∀ x1 x2, Keeps s0 (State.raiseVector s x1 x2) := by
  intros
  unfold State.raiseVector
  with_reducible repeat' first
    | assumption | intro _ | extract_lets | split | apply State.send_keeps | refine Keeps.of_fst (by assumption) ?_
    | apply Keeps.mk_upd | exact ⟨rfl, rfl, rfl⟩


theorem ringWrite_keeps {s0 s : State} (h : Keeps s0 s) :
    ∀ x1 x2 x3 x4 x5, Keeps s0 (ringWrite s x1 x2 x3 x4 x5) := by
  intros
  unfold ringWrite
  with_reducible repeat' first
    | assumption | apply State.raiseVector_keeps | apply State.send_keeps


theorem State.ringPut_keeps {s0 s : State} (h : Keeps s0 s) :
    ∀ x1 x2 x3, Keeps s0 (State.ringPut s x1 x2 x3) := by
  intros
  unfold State.ringPut
  with_reducible repeat' first
    | assumption | intro _ | apply ringWrite_keeps | apply State.send_keeps | apply Keeps.foldl
    | apply Keeps.foldl_pair


theorem State.setCtx_keeps {s0 s : State} (h : Keeps s0 s) :
    ∀ x1 x2, Keeps s0 (State.setCtx s x1 x2) := by
  intros
  unfold State.setCtx
  with_reducible repeat' first
    | assumption | intro _ | extract_lets | apply Keeps.mk_upd | exact ⟨rfl, rfl, rfl⟩


theorem State.pcieMove_keeps {s0 s : State} (h : Keeps s0 s) :
    ∀ x1 x2, ∀ {t}, State.pcieMove s x1 x2 = some t → Keeps s0 t := by
  intro link w t e
  unfold State.pcieMove at e
  extract_lets k q overhead at e
  split at e
  · cases e
  · rename_i n _
    dsimp only at e
    have g : ∀ q : PcieSlot, Keeps s0 ({ s with prt := { s.prt with slots := Map.set s.prt.slots k q } } : State) :=
      fun _ => h.of_eq rfl rfl rfl rfl rfl rfl
    split at e
    · cases e
      exact State.ringPut_keeps (g _) _ _ _
    · split at e
      · cases e
        exact State.ringPut_keeps (g _) _ _ _
      · split at e
        · split at e
          · cases e
            exact State.ringPut_keeps (State.setCtx_keeps (g _) _ _) _ _ _
          · cases e
            exact h
        · cases e
          exact h


theorem State.pciePump_keeps {s0 s : State} (h : Keeps s0 s) :
    ∀ x1 x2, Keeps s0 (State.pciePump s x1 x2) := by
  intros
  unfold State.pciePump
  with_reducible repeat' first
    | assumption | intro _ | extract_lets | apply Keeps.ite | split
    | refine State.pcieMove_keeps ?_ _ _ (by assumption) | apply Keeps.foldl | apply Keeps.foldl_pair
    | refine Keeps.of_fst (by assumption) ?_ | apply Keeps.mk_upd | exact ⟨rfl, rfl, rfl⟩


theorem State.flag_keeps {s0 s : State} (h : Keeps s0 s) :
    ∀ x1 x2, Keeps s0 (State.flag s x1 x2) := by
  intros
  unfold State.flag
  with_reducible repeat' first
    | assumption | intro _ | extract_lets | apply RegFile.flag_wf | apply Keeps.mk_upd | exact ⟨rfl, rfl, rfl⟩


theorem State.put_keeps {s0 s : State} (h : Keeps s0 s) :
    ∀ x1, Keeps s0 (State.put s x1) := by
  intros
  unfold State.put
  with_reducible repeat' first
    | assumption | intro _ | extract_lets | apply Keeps.ite | split | apply State.pciePump_keeps
    | apply State.flag_keeps | apply State.send_keeps | apply Keeps.mk_upd | exact ⟨rfl, rfl, rfl⟩


theorem State.emit_keeps {s0 s : State} (h : Keeps s0 s) :
    ∀ x1 x2, Keeps s0 (State.emit s x1 x2) := by
  intros
  unfold State.emit
  with_reducible repeat' first
    | assumption | intro _ | extract_lets | apply Keeps.ite | split | apply State.put_keeps
    | apply State.setCtx_keeps | apply Keeps.mk_upd | exact ⟨rfl, rfl, rfl⟩


theorem State.resp_keeps {s0 s : State} (h : Keeps s0 s) :
    ∀ x1 x2 x3 x4 x5, Keeps s0 (State.resp s x1 x2 x3 x4 x5) := by
  intros
  unfold State.resp
  with_reducible repeat' first
    | assumption | intro _ | extract_lets | apply Keeps.ite | split | apply State.put_keeps | apply State.emit_keeps
    | refine Keeps.of_fst (by assumption) ?_ | apply Keeps.mk_upd | exact ⟨rfl, rfl, rfl⟩


theorem State.record_keeps {s0 s : State} (h : Keeps s0 s) :
    ∀ x1, Keeps s0 (State.record s x1) := by
  intros
  unfold State.record
  with_reducible repeat' first
    | assumption | intro _ | extract_lets | apply Keeps.ite | split | apply RegFile.ite_wf | apply Keeps.mk_upd
    | exact ⟨rfl, rfl, rfl⟩


theorem State.loseNotice_keeps {s0 s : State} (h : Keeps s0 s) :
    ∀ x1 x2 x3, Keeps s0 (State.loseNotice s x1 x2 x3) := by
  intros
  unfold State.loseNotice
  with_reducible repeat' first
    | assumption | intro _ | extract_lets | apply Keeps.ite | split | apply State.setCtx_keeps
    | apply RegFile.ite_wf | refine Keeps.of_fst (by assumption) ?_ | apply Keeps.mk_upd | exact ⟨rfl, rfl, rfl⟩


theorem State.sendWaybill_keeps {s0 s : State} (h : Keeps s0 s) :
    ∀ x1 x2 x3 x4 x5 x6 x7 x8 x9, Keeps s0 (State.sendWaybill s x1 x2 x3 x4 x5 x6 x7 x8 x9) := by
  intros
  unfold State.sendWaybill
  with_reducible repeat' first
    | assumption | intro _ | extract_lets | split | apply State.emit_keeps | exact ⟨rfl, rfl, rfl⟩


theorem State.sendNotice_keeps {s0 s : State} (h : Keeps s0 s) :
    ∀ x1 x2, Keeps s0 (State.sendNotice s x1 x2) := by
  intros
  unfold State.sendNotice
  with_reducible repeat' first
    | assumption | intro _ | extract_lets | apply Keeps.ite | split | apply State.sendWaybill_keeps
    | apply State.setCtx_keeps | exact ⟨rfl, rfl, rfl⟩


theorem State.pump_keeps {s0 s : State} (h : Keeps s0 s) :
    ∀ x1, Keeps s0 (State.pump s x1) := by
  intros
  unfold State.pump
  with_reducible repeat' first
    | assumption | intro _ | extract_lets | apply Keeps.ite | split | apply State.sendNotice_keeps
    | apply Keeps.foldl


theorem State.retain_keeps {s0 s : State} (h : Keeps s0 s) :
    ∀ x1 x2 x3 x4, Keeps s0 (State.retain s x1 x2 x3 x4) := by
  intros
  unfold State.retain
  with_reducible repeat' first
    | assumption | intro _ | extract_lets | apply Keeps.ite | split | apply State.setCtx_keeps
    | apply State.pump_keeps | exact ⟨rfl, rfl, rfl⟩


theorem State.notify_keeps {s0 s : State} (h : Keeps s0 s) :
    ∀ x1 x2 x3 x4, Keeps s0 (State.notify s x1 x2 x3 x4) := by
  intros
  unfold State.notify
  with_reducible repeat' first
    | assumption | intro _ | extract_lets | apply Keeps.ite | split | apply State.loseNotice_keeps
    | apply State.retain_keeps | exact ⟨rfl, rfl, rfl⟩


theorem State.broadcast_keeps {s0 s : State} (h : Keeps s0 s) :
    ∀ x1 x2 x3, Keeps s0 (State.broadcast s x1 x2 x3) := by
  intros
  unfold State.broadcast
  with_reducible repeat' first
    | assumption | intro _ | extract_lets | apply State.notify_keeps | apply Keeps.foldl | exact ⟨rfl, rfl, rfl⟩


theorem State.post_keeps {s0 s : State} (h : Keeps s0 s) :
    ∀ x1 x2, Keeps s0 (State.post s x1 x2) := by
  intros
  unfold State.post
  with_reducible repeat' first
    | assumption | intro _ | extract_lets | apply Keeps.mk_upd | exact ⟨rfl, rfl, rfl⟩


theorem State.postIf_keeps {s0 s : State} (h : Keeps s0 s) :
    ∀ x1 x2 x3, Keeps s0 (State.postIf s x1 x2 x3) := by
  intros
  unfold State.postIf
  with_reducible repeat' first
    | assumption | intro _ | apply Keeps.ite | split | apply State.post_keeps


theorem State.bump_keeps {s0 s : State} (h : Keeps s0 s) :
    ∀ x1 x2, Keeps s0 (State.bump s x1 x2) := by
  intros
  unfold State.bump
  with_reducible repeat' first
    | assumption | intro _ | extract_lets | apply RegFile.bump_wf | apply Keeps.mk_upd | exact ⟨rfl, rfl, rfl⟩


theorem State.acceptFrameIn_keeps {s0 s : State} (h : Keeps s0 s) :
    ∀ x1, Keeps s0 (State.acceptFrameIn s x1) := by
  intros
  unfold State.acceptFrameIn
  with_reducible repeat' first
    | assumption | intro _ | extract_lets | apply Keeps.ite | split | apply Keeps.mk_upd | exact ⟨rfl, rfl, rfl⟩


theorem State.setF_keeps {s0 s : State} (h : Keeps s0 s) :
    ∀ x1 x2, Keeps s0 (State.setF s x1 x2) := by
  intros
  unfold State.setF
  with_reducible repeat' first
    | assumption | intro _ | extract_lets | apply RegFile.setF_wf | apply Keeps.mk_upd | exact ⟨rfl, rfl, rfl⟩


theorem State.draw_keeps {s0 s : State} (h : Keeps s0 s) :
    Keeps s0 (State.draw s) := by
  have g := State.record_keeps h (.random 0 s.free)
  exact (⟨⟨⟨g.regs, g.pending, g.out, Nat.le_succ_of_le g.drawn⟩, g.pace⟩, g.image⟩ : Keeps s0 s.draw)


theorem State.drawLocal_keeps {s0 s : State} (h : Keeps s0 s) :
    Keeps s0 (State.drawLocal s) := by
  exact (⟨⟨⟨h.regs, h.pending, h.out, Nat.le_succ_of_le h.drawn⟩, h.pace⟩, h.image⟩ : Keeps s0 s.drawLocal)


theorem State.puts_keeps {s0 s : State} (h : Keeps s0 s) :
    ∀ x1, Keeps s0 (State.puts s x1) := by
  intro l
  unfold State.puts
  exact Keeps.mk_upd h (fun _ hr => RegFile.puts_wf l hr) ⟨rfl, rfl, rfl⟩


theorem State.handIn_keeps {s0 s : State} (h : Keeps s0 s) :
    ∀ x1, Keeps s0 (State.handIn s x1) := by
  intros
  unfold State.handIn
  with_reducible repeat' first
    | assumption | intro _ | extract_lets | apply Keeps.ite | split | apply State.acceptFrameIn_keeps
    | apply State.record_keeps | apply Keeps.mk_upd | exact ⟨rfl, rfl, rfl⟩


theorem State.reportTx_keeps {s0 s : State} (h : Keeps s0 s) :
    ∀ x1, Keeps s0 (State.reportTx s x1) := by
  intros
  unfold State.reportTx
  with_reducible repeat' first
    | assumption | intro _ | extract_lets | apply Keeps.ite | split | apply Keeps.mk_upd | exact ⟨rfl, rfl, rfl⟩


end Sys2Proof.Machine
end

