-- ==== Sys2Proof/Laws/KeepsTasks.lean ====
section
/-! SUPPORT. The operations of Machine/Tasks lead from a state to one that follows from it (Keeps). -/

set_option Elab.async false

namespace Sys2Proof.Machine

theorem State.adjustTask_keeps {s0 s : State} (h : Keeps s0 s) :
    ∀ x1 x2, Keeps s0 (State.adjustTask s x1 x2) := by
  intros
  unfold State.adjustTask
  with_reducible repeat' first
    | assumption | intro _ | extract_lets | apply Keeps.mk_upd | exact ⟨rfl, rfl, rfl⟩


theorem State.busy_keeps {s0 s : State} (h : Keeps s0 s) :
    ∀ x1 x2, Keeps s0 (State.busy s x1 x2) := by
  intros
  unfold State.busy
  with_reducible repeat' first
    | assumption | intro _ | extract_lets | apply Keeps.ite | split | apply State.bump_keeps
    | apply State.resp_keeps


theorem State.openTask_keeps {s0 s : State} (h : Keeps s0 s) :
    ∀ x1 x2, Keeps s0 (State.openTask s x1 x2).1 := by
  intros
  unfold State.openTask
  with_reducible repeat' first
    | assumption | intro _ | extract_lets | apply Keeps.ite | split | apply State.setCtx_keeps | apply Keeps.mk_upd
    | exact ⟨rfl, rfl, rfl⟩


theorem State.dropTask_keeps {s0 s : State} (h : Keeps s0 s) :
    ∀ x1, Keeps s0 (State.dropTask s x1) := by
  intros
  unfold State.dropTask
  with_reducible repeat' first
    | assumption | intro _ | extract_lets | apply Keeps.ite | split | refine Keeps.of_fst (by assumption) ?_
    | apply Keeps.mk_upd | exact ⟨rfl, rfl, rfl⟩


theorem State.journalResp_keeps {s0 s : State} (h : Keeps s0 s) :
    ∀ x1 x2, Keeps s0 (State.journalResp s x1 x2) := by
  intros
  unfold State.journalResp
  with_reducible repeat' first
    | assumption | intro _ | extract_lets | apply Keeps.ite | split | apply Keeps.mk_upd | exact ⟨rfl, rfl, rfl⟩


theorem State.setTask_keeps {s0 s : State} (h : Keeps s0 s) :
    ∀ x1 x2, Keeps s0 (State.setTask s x1 x2) := by
  intros
  unfold State.setTask
  with_reducible repeat' first
    | assumption | intro _ | extract_lets | apply Keeps.mk_upd | exact ⟨rfl, rfl, rfl⟩


theorem State.reportFinal_keeps {s0 s : State} (h : Keeps s0 s) :
    ∀ x1, Keeps s0 (State.reportFinal s x1) := by
  intros
  unfold State.reportFinal
  with_reducible repeat' first
    | assumption | intro _ | extract_lets | apply Keeps.ite | split | apply State.setTask_keeps
    | apply State.retain_keeps | exact ⟨rfl, rfl, rfl⟩


theorem State.reportItems_keeps {s0 s : State} (h : Keeps s0 s) :
    ∀ x0 x1 x2, Keeps s0 (State.reportItems x0 x1 x2 s) := by
  intro slot all n
  induction n generalizing s with
  | zero => exact h
  | succ n ih =>
    unfold State.reportItems
    split
    · exact h
    · split
      · exact h
      · exact ih (State.retain_keeps (State.setTask_keeps h _ _) _ _ _ _)


theorem State.report_keeps {s0 s : State} (h : Keeps s0 s) :
    ∀ x1, Keeps s0 (State.report s x1) := by
  intros
  unfold State.report
  with_reducible repeat' first
    | assumption | intro _ | extract_lets | apply Keeps.ite | split | apply State.reportFinal_keeps
    | apply State.reportItems_keeps | apply Keeps.foldl | apply Keeps.foldl_pair | apply Ends.next | apply Ends.ite
    | apply RegFile.ite_wf | apply RegFile.setF_wf | apply RegFile.flag_wf | apply RegFile.bump_wf
    | apply RegFile.put_wf | apply RegFile.setFInt_wf | apply RegFile.put64_wf | apply RegFile.foldl_wf
    | refine Keeps.of_fst (by assumption) ?_ | (dsimp +zetaDelta only; split) | apply Keeps.mk_upd
    | exact ⟨rfl, rfl, rfl⟩


theorem State.answerTask_keeps {s0 s : State} (h : Keeps s0 s) :
    ∀ x1 x2, Keeps s0 (State.answerTask s x1 x2) := by
  intros
  unfold State.answerTask
  with_reducible repeat' first
    | assumption | intro _ | extract_lets | apply Keeps.ite | split | apply State.dropTask_keeps
    | apply State.resp_keeps | apply State.journalResp_keeps | apply State.report_keeps | exact ⟨rfl, rfl, rfl⟩


theorem State.beginItem_keeps {s0 s : State} (h : Keeps s0 s) {x0 : State → ItemRef → Tlv → State × ItemEnd} (hf0 : ∀ t y1 y2, Keeps s0 t → Keeps s0 (x0 t y1 y2).1) :
    ∀ x1 x2 x4, Keeps s0 (State.beginItem x0 x1 x2 s x4) := by
  intros
  unfold State.beginItem
  with_reducible repeat' first
    | assumption | intro _ | extract_lets | apply Keeps.ite | split | apply State.setTask_keeps
    | apply State.adjustTask_keeps | apply hf0 | refine Keeps.of_fst (by assumption) ?_ | exact ⟨rfl, rfl, rfl⟩


theorem State.admitTask_keeps {s0 s : State} (h : Keeps s0 s) {x3 : State → ItemRef → Tlv → State × ItemEnd} (hf3 : ∀ t y1 y2, Keeps s0 t → Keeps s0 (x3 t y1 y2).1) :
    ∀ x1 x2 x4, Keeps s0 (State.admitTask s x1 x2 x3 x4) := by
  intros
  unfold State.admitTask
  with_reducible repeat' first
    | assumption | intro _ | extract_lets | apply Keeps.ite | split | apply State.resp_keeps
    | apply State.busy_keeps | apply State.openTask_keeps | apply State.answerTask_keeps
    | apply State.beginItem_keeps | apply hf3 | apply Keeps.foldl | apply Keeps.foldl_pair
    | refine Keeps.of_fst (by assumption) ?_ | apply Keeps.mk_upd | exact ⟨rfl, rfl, rfl⟩


theorem State.endItem_keeps {s0 s : State} (h : Keeps s0 s) :
    ∀ x1 x2 x3 x4, Keeps s0 (State.endItem s x1 x2 x3 x4) := by
  intros
  unfold State.endItem
  with_reducible repeat' first
    | assumption | intro _ | extract_lets | apply Keeps.ite | split | apply State.report_keeps
    | apply State.setTask_keeps | exact ⟨rfl, rfl, rfl⟩


theorem State.settle_keeps {s0 s : State} (h : Keeps s0 s) :
    ∀ x1 x2 x3, Keeps s0 (State.settle s x1 x2 x3) := by
  intros
  unfold State.settle
  with_reducible repeat' first
    | assumption | intro _ | extract_lets | split | apply State.endItem_keeps
    | refine Keeps.of_fst (by assumption) ?_ | apply Keeps.mk_upd | exact ⟨rfl, rfl, rfl⟩


theorem State.immediate.go_keeps {s0 s : State} (h : Keeps s0 s) {x3 : State → State × ℕ × List Tlv} (hf3 : ∀ t, Keeps s0 t → Keeps s0 (x3 t).1) :
    ∀ x1 x2, Keeps s0 (State.immediate.go s x1 x2 x3) := by
  intros
  unfold State.immediate.go
  with_reducible repeat' first
    | assumption | intro _ | extract_lets | apply Keeps.ite | split | apply State.resp_keeps | apply hf3
    | apply Keeps.foldl | apply Keeps.foldl_pair | apply Ends.next | apply Ends.ite | apply RegFile.ite_wf
    | apply RegFile.setF_wf | apply RegFile.flag_wf | apply RegFile.bump_wf | apply RegFile.put_wf
    | apply RegFile.setFInt_wf | apply RegFile.put64_wf | apply RegFile.foldl_wf
    | refine Keeps.of_fst (by assumption) ?_ | exact ⟨rfl, rfl, rfl⟩


theorem State.immediate_keeps {s0 s : State} (h : Keeps s0 s) {x4 : State → State × ℕ × List Tlv} (hf4 : ∀ t, Keeps s0 t → Keeps s0 (x4 t).1) :
    ∀ x1 x2 x3, Keeps s0 (State.immediate s x1 x2 x3 x4) := by
  intros
  unfold State.immediate
  with_reducible repeat' first
    | assumption | intro _ | extract_lets | apply Keeps.ite | split | apply State.resp_keeps
    | apply State.immediate.go_keeps | apply hf4 | exact ⟨rfl, rfl, rfl⟩


theorem State.takeRate_keeps {s0 s : State} (h : Keeps s0 s) :
    ∀ x1, Keeps s0 (State.takeRate s x1) := by
  intros
  unfold State.takeRate
  with_reducible repeat' first
    | assumption | intro _ | extract_lets | split | apply State.setCtx_keeps | exact ⟨rfl, rfl, rfl⟩


theorem State.raiseHigh_keeps {s0 s : State} (h : Keeps s0 s) :
    ∀ x1, Keeps s0 (State.raiseHigh s x1) := by
  intros
  unfold State.raiseHigh
  with_reducible repeat' first
    | assumption | intro _ | extract_lets | apply Keeps.ite | split | apply State.setCtx_keeps | apply Keeps.mk_upd
    | exact ⟨rfl, rfl, rfl⟩


theorem State.serve_keeps {s0 s : State} (h : Keeps s0 s) {x3 : State → State} (hf3 : ∀ t, Keeps s0 t → Keeps s0 (x3 t)) :
    ∀ x1 x2, Keeps s0 (State.serve s x1 x2 x3) := by
  intros
  unfold State.serve
  with_reducible repeat' first
    | assumption | intro _ | extract_lets | apply Keeps.ite | split | apply State.busy_keeps
    | apply State.takeRate_keeps | apply State.resp_keeps | apply State.bump_keeps | apply State.raiseHigh_keeps
    | apply hf3 | refine Keeps.of_fst (by assumption) ?_ | apply Keeps.mk_upd | exact ⟨rfl, rfl, rfl⟩


end Sys2Proof.Machine
end

