-- ==== Sys2Proof/Laws/KeepsBodies.lean ====
section
/-! SUPPORT. The operations of Machine/Bodies lead from a state to one that follows from it (Keeps). -/

set_option Elab.async false

namespace Sys2Proof.Machine

theorem State.taskCommand_keeps {s0 s : State} (h : Keeps s0 s) {x3 : State → ItemRef → Tlv → State × ItemEnd} (hf3 : ∀ t y1 y2, Keeps s0 t → Keeps s0 (x3 t y1 y2).1) :
    ∀ x1 x2, Keeps s0 (State.taskCommand s x1 x2 x3) := by
  intros
  unfold State.taskCommand
  with_reducible repeat' first
    | assumption | intro _ | extract_lets | apply Keeps.ite | split | apply State.admitTask_keeps
    | apply State.resp_keeps | apply hf3 | exact ⟨rfl, rfl, rfl⟩


end Sys2Proof.Machine
end

