-- ==== Sys2Proof/Laws/KeepsRegistry.lean ====
section
/-! SUPPORT. The operations of Machine/Registry lead from a state to one that follows from it (Keeps). -/

set_option Elab.async false

namespace Sys2Proof.Machine

theorem State.setMeter_keeps {s0 s : State} (h : Keeps s0 s) :
    ∀ x1 x2, Keeps s0 (State.setMeter s x1 x2) := by
  intros
  unfold State.setMeter
  with_reducible repeat' first
    | assumption | intro _ | extract_lets | split | apply RegFile.setF_wf | refine Keeps.of_fst (by assumption) ?_
    | apply Keeps.mk_upd | exact ⟨rfl, rfl, rfl⟩


theorem State.takeIsn_keeps {s0 s : State} (h : Keeps s0 s) :
    Keeps s0 (State.takeIsn s).1 := by
  unfold State.takeIsn
  with_reducible repeat' first
    | assumption | intro _ | extract_lets | apply RegFile.put64_wf | apply Keeps.mk_upd | exact ⟨rfl, rfl, rfl⟩


theorem State.logEntry_keeps {s0 s : State} (h : Keeps s0 s) :
    ∀ x1, Keeps s0 (State.logEntry s x1) := by
  intros
  unfold State.logEntry
  with_reducible repeat' first
    | assumption | intro _ | extract_lets | apply Keeps.mk_upd | exact ⟨rfl, rfl, rfl⟩


theorem State.writeChunk_keeps {s0 s : State} (h : Keeps s0 s) :
    ∀ x1, Keeps s0 (State.writeChunk s x1) := by
  intros
  unfold State.writeChunk
  with_reducible repeat' first
    | assumption | intro _ | extract_lets | apply RegFile.setF_wf | apply Keeps.mk_upd | exact ⟨rfl, rfl, rfl⟩


theorem State.chunksDue_keeps {s0 s : State} (h : Keeps s0 s) :
    Keeps s0 (State.chunksDue s) := by
  unfold State.chunksDue
  with_reducible repeat' first
    | assumption | intro _ | apply State.writeChunk_keeps | apply Keeps.foldl | apply Keeps.foldl_pair


theorem execChunkWrite_keeps {s0 s : State} (h : Keeps s0 s) :
    ∀ x0, Ends s0 (execChunkWrite x0 s) := by
  intros
  unfold execChunkWrite
  with_reducible repeat' first
    | assumption | intro _ | extract_lets | split | apply State.writeChunk_keeps | apply Ends.next
    | refine Keeps.of_fst (by assumption) ?_ | apply Keeps.mk_upd | exact ⟨rfl, rfl, rfl⟩


end Sys2Proof.Machine
end

