-- ==== Sys2Proof/Laws/KeepsBalance.lean ====
section
/-! SUPPORT. The operations of Machine/Balance lead from a state to one that follows from it (Keeps). -/

set_option Elab.async false

namespace Sys2Proof.Machine

theorem State.setNode_keeps {s0 s : State} (h : Keeps s0 s) :
    ∀ x1 x2, Keeps s0 (State.setNode s x1 x2) := by
  intros
  unfold State.setNode
  with_reducible repeat' first
    | assumption | intro _ | extract_lets | apply RegFile.setF_wf | apply Keeps.mk_upd | exact ⟨rfl, rfl, rfl⟩


theorem State.lossNotice_keeps {s0 s : State} (h : Keeps s0 s) :
    ∀ x1 x2 x3 x4 x5 x6 x7, Keeps s0 (State.lossNotice s x1 x2 x3 x4 x5 x6 x7) := by
  intros
  unfold State.lossNotice
  with_reducible repeat' first
    | assumption | apply State.broadcast_keeps


theorem State.leaveAlert_keeps {s0 s : State} (h : Keeps s0 s) :
    ∀ x1 x2, Keeps s0 (State.leaveAlert s x1 x2) := by
  intros
  unfold State.leaveAlert
  with_reducible repeat' first
    | assumption | intro _ | extract_lets | apply Keeps.ite | split | apply State.lossNotice_keeps
    | apply State.post_keeps | apply State.setNode_keeps | apply Keeps.foldl | apply Keeps.foldl_pair
    | apply Ends.next | apply Ends.ite | apply RegFile.ite_wf | apply RegFile.setF_wf | apply RegFile.flag_wf
    | apply RegFile.bump_wf | apply RegFile.put_wf | apply RegFile.setFInt_wf | apply RegFile.put64_wf
    | apply RegFile.foldl_wf | refine Keeps.of_fst (by assumption) ?_ | (dsimp +zetaDelta only; split)
    | apply Keeps.mk_upd | exact ⟨rfl, rfl, rfl⟩


theorem State.changeTopology_keeps {s0 s : State} (h : Keeps s0 s) :
    ∀ x1 x2, Keeps s0 (State.changeTopology s x1 x2) := by
  intros
  unfold State.changeTopology
  with_reducible repeat' first
    | assumption | intro _ | extract_lets | apply Keeps.ite | split | apply State.setNode_keeps
    | apply State.leaveAlert_keeps | apply State.postIf_keeps | apply Keeps.foldl | apply Keeps.foldl_pair
    | refine Keeps.of_fst (by assumption) ?_ | apply Keeps.mk_upd | exact ⟨rfl, rfl, rfl⟩


theorem State.showJobs_keeps {s0 s : State} (h : Keeps s0 s) :
    Keeps s0 (State.showJobs s) := by
  unfold State.showJobs
  with_reducible repeat' first
    | assumption | apply State.setF_keeps


theorem State.queueJob_keeps {s0 s : State} (h : Keeps s0 s) :
    ∀ x1 x2 x3, Keeps s0 (State.queueJob s x1 x2 x3) := by
  intros
  unfold State.queueJob
  with_reducible repeat' first
    | assumption | intro _ | extract_lets | apply Keeps.ite | split | apply State.showJobs_keeps
    | apply Keeps.mk_upd | exact ⟨rfl, rfl, rfl⟩


theorem State.reviseUp_keeps {s0 s : State} (h : Keeps s0 s) :
    ∀ x0 x1 x2 x3 x4, Keeps s0 (State.reviseUp x0 x1 x2 x3 x4 s).1 := by
  intro t n
  induction n generalizing s with
  | zero => exact fun _ _ _ => h
  | succ n ih =>
    intro a b c
    unfold State.reviseUp
    split
    · exact h
    · rename_i e _
      dsimp only
      have g : ∀ p : Bool, Keeps s0 (if p = true then s.queueJob a (b / e.balMin * e.balMin) .revision else s) :=
        fun p => Keeps.ite (fun _ => State.queueJob_keeps h _ _ _) (fun _ => h)
      exact Keeps.ite_fst (fun _ => g _) (fun _ => ih (g _) _ _ _)


theorem State.balChanged_keeps {s0 s : State} (h : Keeps s0 s) :
    ∀ x1 x2 x3, Keeps s0 (State.balChanged s x1 x2 x3) := by
  intros
  unfold State.balChanged
  with_reducible repeat' first
    | assumption | intro _ | extract_lets | apply Keeps.ite | split | apply State.post_keeps
    | apply State.bump_keeps | apply State.reviseUp_keeps | apply Keeps.foldl | apply Keeps.foldl_pair
    | apply Ends.next | apply Ends.ite | apply RegFile.ite_wf | apply RegFile.setF_wf | apply RegFile.flag_wf
    | apply RegFile.bump_wf | apply RegFile.put_wf | apply RegFile.setFInt_wf | apply RegFile.put64_wf
    | apply RegFile.foldl_wf | refine Keeps.of_fst (by assumption) ?_ | (dsimp +zetaDelta only; split)
    | apply Keeps.mk_upd | exact ⟨rfl, rfl, rfl⟩


theorem State.meterChanged_keeps {s0 s : State} (h : Keeps s0 s) :
    ∀ x1 x2, Keeps s0 (State.meterChanged s x1 x2) := by
  intros
  unfold State.meterChanged
  with_reducible repeat' first
    | assumption | intro _ | extract_lets | split | apply State.balChanged_keeps | apply Keeps.foldl
    | apply Keeps.foldl_pair | apply RegFile.flag_wf | apply RegFile.foldl_wf | exact ⟨rfl, rfl, rfl⟩


theorem State.rebase_keeps {s0 s : State} (h : Keeps s0 s) :
    ∀ x1, Keeps s0 (State.rebase s x1) := by
  intros
  unfold State.rebase
  with_reducible repeat' first
    | assumption | intro _ | extract_lets | apply State.leaveAlert_keeps | apply State.setNode_keeps
    | exact ⟨rfl, rfl, rfl⟩


theorem State.relearn_keeps {s0 s : State} (h : Keeps s0 s) :
    ∀ x1, Keeps s0 (State.relearn s x1) := by
  intros
  unfold State.relearn
  with_reducible repeat' first
    | assumption | intro _ | extract_lets | apply State.setNode_keeps | exact ⟨rfl, rfl, rfl⟩


theorem State.balRequeue_keeps {s0 s : State} (h : Keeps s0 s) :
    Keeps s0 (State.balRequeue s) := by
  unfold State.balRequeue
  with_reducible repeat' first
    | assumption | intro _ | extract_lets | apply Keeps.ite | split | apply State.queueJob_keeps
    | apply State.flag_keeps | apply Keeps.foldl | exact ⟨rfl, rfl, rfl⟩


theorem State.endJob_keeps {s0 s : State} (h : Keeps s0 s) :
    Keeps s0 (State.endJob s) := by
  unfold State.endJob
  with_reducible repeat' first
    | assumption | intro _ | extract_lets | apply State.showJobs_keeps | apply Keeps.mk_upd | exact ⟨rfl, rfl, rfl⟩


theorem State.enterAlert_keeps {s0 s : State} (h : Keeps s0 s) :
    ∀ x1 x2 x3, Keeps s0 (State.enterAlert s x1 x2 x3) := by
  intros
  unfold State.enterAlert
  with_reducible repeat' first
    | assumption | intro _ | extract_lets | apply Keeps.ite | split | apply State.setNode_keeps
    | apply State.lossNotice_keeps | apply State.post_keeps | apply State.queueJob_keeps | apply RegFile.ite_wf
    | exact ⟨rfl, rfl, rfl⟩


theorem State.learnBaselines_keeps {s0 s : State} (h : Keeps s0 s) :
    ∀ x1 x2 x3, Keeps s0 (State.learnBaselines s x1 x2 x3) := by
  intros
  unfold State.learnBaselines
  with_reducible repeat' first
    | assumption | intro _ | extract_lets | apply Keeps.ite | split | apply State.setMeter_keeps | apply Keeps.foldl
    | exact ⟨rfl, rfl, rfl⟩


theorem State.setResult_keeps {s0 s : State} (h : Keeps s0 s) :
    ∀ x1, Keeps s0 (State.setResult s x1) := by
  intros
  unfold State.setResult
  with_reducible repeat' first
    | assumption | intro _ | extract_lets | apply Keeps.mk_upd | exact ⟨rfl, rfl, rfl⟩


theorem State.judgeRun_keeps {s0 s : State} (h : Keeps s0 s) :
    ∀ x1 x2 x3 x4, Keeps s0 (State.judgeRun s x1 x2 x3 x4) := by
  intros
  unfold State.judgeRun
  with_reducible repeat' first
    | assumption | intro _ | extract_lets | apply Keeps.ite | split | apply State.setNode_keeps
    | apply State.enterAlert_keeps | apply State.leaveAlert_keeps | apply State.queueJob_keeps | apply Keeps.foldl
    | apply Keeps.foldl_pair | apply Ends.next | apply Ends.ite | apply RegFile.ite_wf | apply RegFile.setF_wf
    | apply RegFile.flag_wf | apply RegFile.bump_wf | apply RegFile.put_wf | apply RegFile.setFInt_wf
    | apply RegFile.put64_wf | apply RegFile.foldl_wf | refine Keeps.of_fst (by assumption) ?_
    | (dsimp +zetaDelta only; split) | apply Keeps.mk_upd | exact ⟨rfl, rfl, rfl⟩


theorem State.firstBalance_keeps {s0 s : State} (h : Keeps s0 s) :
    ∀ x1 x2 x3, Keeps s0 (State.firstBalance s x1 x2 x3) := by
  intros
  unfold State.firstBalance
  with_reducible repeat' first
    | assumption | intro _ | extract_lets | apply Keeps.ite | split | apply State.setNode_keeps
    | apply State.learnBaselines_keeps | apply State.setResult_keeps | apply State.judgeRun_keeps
    | apply RegFile.ite_wf | apply RegFile.flag_wf | apply RegFile.bump_wf | apply Keeps.mk_upd
    | exact ⟨rfl, rfl, rfl⟩


theorem State.pointChanged_keeps {s0 s : State} (h : Keeps s0 s) :
    ∀ x1, Keeps s0 (State.pointChanged s x1) := by
  intros
  unfold State.pointChanged
  with_reducible repeat' first
    | assumption | intro _ | extract_lets | split | apply State.balChanged_keeps | exact ⟨rfl, rfl, rfl⟩


theorem State.reviseResult_keeps {s0 s : State} (h : Keeps s0 s) :
    ∀ x1 x2 x3 x4, Keeps s0 (State.reviseResult s x1 x2 x3 x4) := by
  intros
  unfold State.reviseResult
  with_reducible repeat' first
    | assumption | intro _ | extract_lets | apply Keeps.ite | split | apply State.bump_keeps
    | apply State.setResult_keeps | apply State.judgeRun_keeps | apply State.post_keeps | apply RegFile.ite_wf
    | apply RegFile.flag_wf | apply RegFile.bump_wf | apply Keeps.mk_upd | exact ⟨rfl, rfl, rfl⟩


theorem runBalanceItem_keeps {s0 s : State} (h : Keeps s0 s) :
    ∀ x1 x2, Keeps s0 (runBalanceItem s x1 x2).1 := by
  intros
  unfold runBalanceItem
  with_reducible repeat' first
    | assumption | intro _ | extract_lets | apply Keeps.ite | split | exact ⟨rfl, rfl, rfl⟩


theorem execBalanceGet_keeps {s0 s : State} (h : Keeps s0 s) :
    ∀ x0, Ends s0 (execBalanceGet x0 s) := by
  intros
  unfold execBalanceGet
  with_reducible repeat' first
    | assumption | intro _ | apply State.serve_keeps | apply State.taskCommand_keeps | apply runBalanceItem_keeps
    | apply Ends.next


theorem execRevisionNotice_keeps {s0 s : State} (h : Keeps s0 s) :
    Ends s0 (execRevisionNotice s) := by
  unfold execRevisionNotice
  with_reducible repeat' first
    | assumption | intro _ | extract_lets | split | apply State.broadcast_keeps | apply Ends.next
    | refine Keeps.of_fst (by assumption) ?_ | apply Keeps.mk_upd | exact ⟨rfl, rfl, rfl⟩


theorem execBalBacklog_keeps {s0 s : State} (h : Keeps s0 s) :
    Ends s0 (execBalBacklog s) := by
  unfold execBalBacklog
  with_reducible repeat' first
    | assumption | intro _ | extract_lets | apply Keeps.ite | split | apply State.postIf_keeps
    | apply State.flag_keeps | apply Ends.next


end Sys2Proof.Machine
end

