-- ==== Sys2Proof/Laws/KeepsClock.lean ====
section
/-! SUPPORT. The operations of Machine/Clock lead from a state to one that follows from it (Keeps). -/

set_option Elab.async false

namespace Sys2Proof.Machine

theorem State.advanceTime_keeps {s0 s : State} (h : Keeps s0 s) :
    Keeps s0 (State.advanceTime s) := by
  unfold State.advanceTime
  with_reducible repeat' first
    | assumption | intro _ | extract_lets | apply Keeps.mk_upd | exact ⟨rfl, rfl, rfl⟩


theorem State.timeSample_keeps {s0 s : State} (h : Keeps s0 s) :
    ∀ x1 x2, Keeps s0 (State.timeSample s x1 x2) := by
  intros
  unfold State.timeSample
  with_reducible repeat' first
    | assumption | intro _ | extract_lets | apply Keeps.ite | split | apply RegFile.ite_wf | apply RegFile.setF_wf
    | apply RegFile.setFInt_wf | refine Keeps.of_fst (by assumption) ?_ | apply Keeps.mk_upd | exact ⟨rfl, rfl, rfl⟩


theorem State.hostSampleActs_keeps {s0 s : State} (h : Keeps s0 s) :
    ∀ x1, Keeps s0 (State.hostSampleActs s x1) := by
  intros
  unfold State.hostSampleActs
  with_reducible repeat' first
    | assumption | intro _ | extract_lets | apply Keeps.ite | split | apply State.endItem_keeps
    | apply State.timeSample_keeps | apply Keeps.mk_upd | exact ⟨rfl, rfl, rfl⟩


theorem State.hostSamplesAct_keeps {s0 s : State} (h : Keeps s0 s) :
    Keeps s0 (State.hostSamplesAct s) := by
  unfold State.hostSamplesAct
  with_reducible repeat' first
    | assumption | intro _ | extract_lets | apply State.hostSampleActs_keeps | apply Keeps.foldl
    | apply Keeps.foldl_pair | apply Keeps.mk_upd | exact ⟨rfl, rfl, rfl⟩


theorem State.setRtc_keeps {s0 s : State} (h : Keeps s0 s) :
    Keeps s0 (State.setRtc s) := by
  unfold State.setRtc
  with_reducible repeat' first
    | assumption | intro _ | extract_lets | apply RegFile.flag_wf | apply Keeps.mk_upd | exact ⟨rfl, rfl, rfl⟩


theorem State.stepTime_keeps {s0 s : State} (h : Keeps s0 s) :
    ∀ x1 x2, Keeps s0 (State.stepTime s x1 x2) := by
  intros
  unfold State.stepTime
  with_reducible repeat' first
    | assumption | intro _ | extract_lets | apply State.post_keeps | apply State.setRtc_keeps
    | apply RegFile.bump_wf | apply Keeps.mk_upd | exact ⟨rfl, rfl, rfl⟩


theorem runTimeSet_keeps {s0 s : State} (h : Keeps s0 s) :
    ∀ x1 x2, Keeps s0 (runTimeSet s x1 x2).1 := by
  intros
  unfold runTimeSet
  with_reducible repeat' first
    | assumption | intro _ | extract_lets | apply Keeps.ite | split | apply RegFile.ite_wf | apply Keeps.mk_upd
    | exact ⟨rfl, rfl, rfl⟩


theorem execTimeSet_keeps {s0 s : State} (h : Keeps s0 s) :
    ∀ x0, Ends s0 (execTimeSet x0 s) := by
  intros
  unfold execTimeSet
  with_reducible repeat' first
    | assumption | intro _ | apply State.serve_keeps | apply State.taskCommand_keeps | apply runTimeSet_keeps
    | apply Ends.next


theorem State.compareFromNow_keeps {s0 s : State} (h : Keeps s0 s) : Keeps s0 (State.compareFromNow s) := by
  unfold State.compareFromNow
  with_reducible repeat' first | assumption | intro _ | apply Keeps.mk_upd | exact ⟨rfl, rfl, rfl⟩


theorem execTimeQualityChange_keeps {s0 s : State} (h : Keeps s0 s) :
    Ends s0 (execTimeQualityChange s) := by
  unfold execTimeQualityChange
  with_reducible repeat' first
    | assumption | intro _ | extract_lets | apply Keeps.ite | split | apply State.post_keeps
    | apply State.setF_keeps | apply State.compareFromNow_keeps | apply State.setRtc_keeps | apply Ends.next | apply Ends.ite | apply Keeps.mk_upd
    | exact ⟨rfl, rfl, rfl⟩


theorem execRtcCompare_keeps {s0 s : State} (h : Keeps s0 s) :
    ∀ x0, Ends s0 (execRtcCompare x0 s) := by
  intros
  unfold execRtcCompare
  with_reducible repeat' first
    | assumption | intro _ | extract_lets | apply Keeps.ite | split | apply State.compareFromNow_keeps | apply State.setRtc_keeps | apply Ends.next
    | apply Ends.ite | apply RegFile.ite_wf | apply RegFile.setFInt_wf | apply Keeps.mk_upd | exact ⟨rfl, rfl, rfl⟩


end Sys2Proof.Machine
end

