-- ==== Sys2Proof/Laws/KeepsMessages.lean ====
section
/-! SUPPORT. The operations of Machine/Messages lead from a state to one that follows from it (Keeps). -/

set_option Elab.async false

namespace Sys2Proof.Machine

theorem State.setQueue_keeps {s0 s : State} (h : Keeps s0 s) :
    ∀ x1 x2 x3, Keeps s0 (State.setQueue s x1 x2 x3) := by
  intros
  unfold State.setQueue
  with_reducible repeat' first
    | assumption | intro _ | extract_lets | apply RegFile.setF_wf | apply RegFile.flag_wf | apply Keeps.mk_upd
    | exact ⟨rfl, rfl, rfl⟩


theorem State.pushMessage_keeps {s0 s : State} (h : Keeps s0 s) :
    ∀ x1 x2, ∀ {t}, State.pushMessage s x1 x2 = some t → Keeps s0 t := by
  intro q m t e
  unfold State.pushMessage at e
  split at e
  · cases e
  · dsimp only at e
    split at e
    · cases e
      exact State.setQueue_keeps h _ _ _
    · cases e


theorem pushWaiting_keeps {s0 s : State} (h : Keeps s0 s) :
    ∀ x0 x1, Keeps s0 (pushWaiting x0 x1 s).1 := by
  intro q l
  induction l generalizing s with
  | nil => exact h
  | cons m l ih =>
    unfold pushWaiting
    split
    · rename_i t e
      exact ih (State.pushMessage_keeps h _ _ e)
    · exact h


theorem State.refillQueues_keeps {s0 s : State} (h : Keeps s0 s) :
    Keeps s0 (State.refillQueues s) := by
  unfold State.refillQueues
  with_reducible repeat' first
    | assumption | intro _ | extract_lets | split | apply pushWaiting_keeps | apply RegFile.flag_wf
    | refine Keeps.of_fst (by assumption) ?_ | apply Keeps.mk_upd | exact ⟨rfl, rfl, rfl⟩


theorem State.export__keeps {s0 s : State} (h : Keeps s0 s) :
    ∀ x1, Keeps s0 (State.export_ s x1) := by
  intros
  unfold State.export_
  with_reducible repeat' first
    | assumption | intro _ | extract_lets | apply Keeps.ite | split | apply State.refillQueues_keeps
    | apply Keeps.mk_upd | exact ⟨rfl, rfl, rfl⟩


theorem State.request_keeps {s0 s : State} (h : Keeps s0 s) :
    ∀ x1 x2 x3, Keeps s0 (State.request s x1 x2 x3) := by
  intros
  unfold State.request
  with_reducible repeat' first
    | assumption | intro _ | extract_lets | apply State.refillQueues_keeps | apply Keeps.mk_upd
    | exact ⟨rfl, rfl, rfl⟩


theorem State.setReadWords_keeps {s0 s : State} (h : Keeps s0 s) :
    ∀ x1 x2, Keeps s0 (State.setReadWords s x1 x2) := by
  intros
  unfold State.setReadWords
  with_reducible repeat' first
    | assumption | intro _ | extract_lets | apply Keeps.ite | split | apply Keeps.mk_upd | exact ⟨rfl, rfl, rfl⟩


theorem State.dropHead_keeps {s0 s : State} (h : Keeps s0 s) :
    ∀ x1 x2, Keeps s0 (State.dropHead s x1 x2) := by
  intros
  unfold State.dropHead
  with_reducible repeat' first
    | assumption | intro _ | extract_lets | split | apply State.refillQueues_keeps | apply State.setReadWords_keeps
    | apply State.setQueue_keeps | refine Keeps.of_fst (by assumption) ?_ | apply Keeps.mk_upd
    | exact ⟨rfl, rfl, rfl⟩


theorem State.takeExport_keeps {s0 s : State} (h : Keeps s0 s) :
    ∀ x1, Keeps s0 (State.takeExport s x1).1 := by
  intros
  unfold State.takeExport
  with_reducible repeat' first
    | assumption | intro _ | extract_lets | apply Keeps.ite | split | apply State.dropHead_keeps
    | refine Keeps.of_fst (by assumption) ?_ | apply Keeps.mk_upd | exact ⟨rfl, rfl, rfl⟩


end Sys2Proof.Machine
end

