-- ==== Sys2Proof/Laws/KeepsMeterTariff.lean ====
section
/-! SUPPORT. The operations of Machine/MeterTariff lead from a state to one that follows from it (Keeps). -/

set_option Elab.async false

namespace Sys2Proof.Machine

theorem State.meterClose_keeps {s0 s : State} (h : Keeps s0 s) :
    ∀ x1 x2 x3 x4, Keeps s0 (State.meterClose s x1 x2 x3 x4) := by
  intro i b inc isn
  unfold State.meterClose
  extract_lets r m cal commanded no flags snap m1 ring s1
  have g : Keeps s0 s1 := State.bump_keeps (State.setMeter_keeps h _ _) _ _
  clear_value s1
  exact g.of_eq rfl rfl rfl rfl rfl rfl


theorem State.closesBefore_keeps {s0 s : State} (h : Keeps s0 s) :
    ∀ x0 x1 x2 x3, Keeps s0 (State.closesBefore x0 x1 x2 x3 s) := by
  intro i start isn n
  induction n generalizing s with
  | zero => exact h
  | succ n ih =>
    unfold State.closesBefore
    split
    · exact h
    · split
      · exact ih (State.meterClose_keeps h _ _ _ _)
      · exact h


theorem State.registerEntry_keeps {s0 s : State} (h : Keeps s0 s) :
    ∀ x1 x2 x3 x4 x5 x6, Keeps s0 (State.registerEntry s x1 x2 x3 x4 x5 x6).1 := by
  intros
  unfold State.registerEntry
  with_reducible repeat' first
    | assumption | intro _ | extract_lets | apply Keeps.ite | split | apply State.closesBefore_keeps
    | apply State.draw_keeps | apply State.setMeter_keeps | apply RegFile.ite_wf | apply RegFile.bump_wf
    | refine Keeps.of_fst (by assumption) ?_ | apply Keeps.mk_upd | exact ⟨rfl, rfl, rfl⟩


theorem execMeterGraceClose_keeps {s0 s : State} (h : Keeps s0 s) :
    ∀ x0, Ends s0 (execMeterGraceClose x0 s) := by
  intros
  unfold execMeterGraceClose
  with_reducible repeat' first
    | assumption | intro _ | extract_lets | apply Keeps.ite | split | apply State.takeIsn_keeps
    | apply State.setMeter_keeps | apply State.meterClose_keeps | apply State.logEntry_keeps | apply Ends.next
    | apply Ends.ite | apply RegFile.ite_wf | refine Keeps.of_fst (by assumption) ?_ | exact ⟨rfl, rfl, rfl⟩


end Sys2Proof.Machine
end

