-- ==== Sys2Proof/Laws/KeepsSlots.lean ====
section
/-! SUPPORT. The operations of Machine/Slots lead from a state to one that follows from it (Keeps). -/

set_option Elab.async false

namespace Sys2Proof.Machine

theorem State.showSlotsWith_keeps {s0 s : State} (h : Keeps s0 s) :
    ∀ x1, Keeps s0 (State.showSlotsWith s x1) := by
  intros
  unfold State.showSlotsWith
  with_reducible repeat' first
    | assumption | extract_lets | apply State.setF_keeps


theorem State.showSlots_keeps {s0 s : State} (h : Keeps s0 s) :
    Keeps s0 (State.showSlots s) := by
  unfold State.showSlots
  with_reducible repeat' first
    | assumption | apply State.showSlotsWith_keeps


theorem State.slotsFull_keeps {s0 s : State} (h : Keeps s0 s) :
    Keeps s0 (State.slotsFull s) := by
  unfold State.slotsFull
  with_reducible repeat' first
    | assumption | apply State.bump_keeps


end Sys2Proof.Machine
end

