-- ==== Sys2Proof/Laws/KeepsPrepay.lean ====
section
/-! SUPPORT. The operations of Machine/Prepay lead from a state to one that follows from it (Keeps). -/

set_option Elab.async false

namespace Sys2Proof.Machine

theorem State.tellMeter_keeps {s0 s : State} (h : Keeps s0 s) :
    ∀ x1 x2, Keeps s0 (State.tellMeter s x1 x2) := by
  intros
  unfold State.tellMeter
  with_reducible repeat' first
    | assumption | intro _ | extract_lets | apply Keeps.ite | split | apply Keeps.mk_upd | exact ⟨rfl, rfl, rfl⟩


theorem State.evalCredit_keeps {s0 s : State} (h : Keeps s0 s) :
    ∀ x1, Keeps s0 (State.evalCredit s x1).1 := by
  intros
  unfold State.evalCredit
  with_reducible repeat' first
    | assumption | intro _ | extract_lets | apply Keeps.ite | split | apply State.setMeter_keeps
    | apply State.post_keeps | exact ⟨rfl, rfl, rfl⟩


theorem State.tellCredit_keeps {s0 s : State} (h : Keeps s0 s) :
    ∀ x1 x2, Keeps s0 (State.tellCredit s x1 x2) := by
  intros
  unfold State.tellCredit
  with_reducible repeat' first
    | assumption | intro _ | apply Keeps.ite | split | apply State.tellMeter_keeps


theorem State.creditChanged_keeps {s0 s : State} (h : Keeps s0 s) :
    ∀ x1, Keeps s0 (State.creditChanged s x1) := by
  intros
  unfold State.creditChanged
  with_reducible repeat' first
    | assumption | intro _ | extract_lets | apply Keeps.ite | split | apply State.evalCredit_keeps
    | apply State.tellCredit_keeps


theorem State.debitMeter_keeps {s0 s : State} (h : Keeps s0 s) :
    ∀ x1 x2 x3, Keeps s0 (State.debitMeter s x1 x2 x3) := by
  intros
  unfold State.debitMeter
  with_reducible repeat' first
    | assumption | intro _ | extract_lets | apply Keeps.ite | split | apply State.creditChanged_keeps
    | apply State.setMeter_keeps | exact ⟨rfl, rfl, rfl⟩


theorem State.postToken_keeps {s0 s : State} (h : Keeps s0 s) :
    ∀ x1, Keeps s0 (State.postToken s x1) := by
  intros
  unfold State.postToken
  with_reducible repeat' first
    | assumption | intro _ | extract_lets | split | apply State.post_keeps | apply State.draw_keeps
    | exact ⟨rfl, rfl, rfl⟩


theorem State.applyToken_keeps {s0 s : State} (h : Keeps s0 s) :
    ∀ x1, Keeps s0 (State.applyToken s x1) := by
  intros
  unfold State.applyToken
  with_reducible repeat' first
    | assumption | intro _ | extract_lets | apply Keeps.ite | split | apply State.logEntry_keeps
    | apply State.setMeter_keeps | apply State.postToken_keeps | apply State.bump_keeps
    | apply State.evalCredit_keeps | apply State.tellCredit_keeps | apply RegFile.ite_wf | apply RegFile.bump_wf
    | refine Keeps.of_fst (by assumption) ?_ | exact ⟨rfl, rfl, rfl⟩


theorem State.tokenNote_keeps {s0 s : State} (h : Keeps s0 s) :
    ∀ x1 x2, Keeps s0 (State.tokenNote s x1 x2) := by
  intros
  unfold State.tokenNote
  with_reducible repeat' first
    | assumption | intro _ | extract_lets | split | apply State.request_keeps | apply State.draw_keeps
    | exact ⟨rfl, rfl, rfl⟩


theorem State.reportToken_keeps {s0 s : State} (h : Keeps s0 s) :
    ∀ x1 x2 x3, Keeps s0 (State.reportToken s x1 x2 x3) := by
  intros
  unfold State.reportToken
  with_reducible repeat' first
    | assumption | intro _ | extract_lets | split | apply State.tellCredit_keeps | apply State.tokenNote_keeps
    | apply State.endItem_keeps | exact ⟨rfl, rfl, rfl⟩


theorem State.applyTokens_keeps {s0 s : State} (h : Keeps s0 s) :
    ∀ x1, Keeps s0 (State.applyTokens s x1) := by
  intros
  unfold State.applyTokens
  with_reducible repeat' first
    | assumption | intro _ | extract_lets | apply State.reportToken_keeps | apply State.applyToken_keeps
    | apply Keeps.foldl | apply Keeps.foldl_pair | apply Keeps.mk_upd | exact ⟨rfl, rfl, rfl⟩


theorem State.cancelItem_keeps {s0 s : State} (h : Keeps s0 s) :
    ∀ x1 x2 x3, Keeps s0 (State.cancelItem s x1 x2 x3) := by
  intros
  unfold State.cancelItem
  with_reducible repeat' first
    | assumption | intro _ | extract_lets | apply Keeps.ite | split | apply State.endItem_keeps


theorem State.rejectToken_keeps {s0 s : State} (h : Keeps s0 s) :
    ∀ x1 x2 x3, Keeps s0 (State.rejectToken s x1 x2 x3) := by
  intros
  unfold State.rejectToken
  with_reducible repeat' first
    | assumption | intro _ | extract_lets | apply Keeps.ite | split | apply State.bump_keeps
    | apply State.post_keeps


theorem State.verifyToken_keeps {s0 s : State} (h : Keeps s0 s) :
    ∀ x1 x2, Keeps s0 (State.verifyToken s x1 x2).1 := by
  intros
  unfold State.verifyToken
  with_reducible repeat' first
    | assumption | intro _ | extract_lets | apply Keeps.ite | split | apply State.slotsFull_keeps
    | apply State.bump_keeps | apply State.showSlotsWith_keeps | apply RegFile.ite_wf | apply RegFile.bump_wf
    | refine Keeps.of_fst (by assumption) ?_ | apply Keeps.mk_upd | exact ⟨rfl, rfl, rfl⟩


theorem State.macFailed_keeps {s0 s : State} (h : Keeps s0 s) :
    ∀ x1, Keeps s0 (State.macFailed s x1) := by
  intros
  unfold State.macFailed
  with_reducible repeat' first
    | assumption | intro _ | extract_lets | apply State.setMeter_keeps | apply State.postIf_keeps
    | exact ⟨rfl, rfl, rfl⟩


theorem State.logToken_keeps {s0 s : State} (h : Keeps s0 s) :
    ∀ x1 x2 x3, Keeps s0 (State.logToken s x1 x2 x3) := by
  intros
  unfold State.logToken
  with_reducible repeat' first
    | assumption | intro _ | extract_lets | split | apply State.takeIsn_keeps
    | refine Keeps.of_fst (by assumption) ?_ | apply Keeps.mk_upd | exact ⟨rfl, rfl, rfl⟩


theorem State.checkToken_keeps {s0 s : State} (h : Keeps s0 s) :
    ∀ x1 x2 x3 x4, Keeps s0 (State.checkToken s x1 x2 x3 x4).1 := by
  intros
  unfold State.checkToken
  with_reducible repeat' first
    | assumption | intro _ | extract_lets | apply Keeps.ite | split | apply State.rejectToken_keeps
    | apply State.verifyToken_keeps | apply State.macFailed_keeps | apply State.logToken_keeps | apply Keeps.foldl
    | apply Keeps.foldl_pair | apply Ends.next | apply Ends.ite | apply RegFile.ite_wf | apply RegFile.setF_wf
    | apply RegFile.flag_wf | apply RegFile.bump_wf | apply RegFile.put_wf | apply RegFile.setFInt_wf
    | apply RegFile.put64_wf | apply RegFile.foldl_wf | refine Keeps.of_fst (by assumption) ?_
    | (dsimp +zetaDelta only; split) | apply Keeps.mk_upd | exact ⟨rfl, rfl, rfl⟩


theorem State.tokenFails_keeps {s0 s : State} (h : Keeps s0 s) :
    ∀ x1 x2 x3, Keeps s0 (State.tokenFails s x1 x2 x3).1 := by
  intros
  unfold State.tokenFails
  with_reducible repeat' first
    | assumption


theorem runToken_keeps {s0 s : State} (h : Keeps s0 s) :
    ∀ x1 x2, Keeps s0 (runToken s x1 x2).1 := by
  intros
  unfold runToken
  with_reducible repeat' first
    | assumption | intro _ | extract_lets | apply Keeps.ite | split | apply State.tokenFails_keeps
    | apply State.checkToken_keeps | apply RegFile.ite_wf | refine Keeps.of_fst (by assumption) ?_
    | exact ⟨rfl, rfl, rfl⟩


theorem runPpySet_keeps {s0 s : State} (h : Keeps s0 s) :
    ∀ x1, Keeps s0 (runPpySet s x1).1 := by
  intros
  unfold runPpySet
  with_reducible repeat' first
    | assumption | intro _ | extract_lets | apply Keeps.ite | split | apply State.setMeter_keeps
    | apply State.creditChanged_keeps | exact ⟨rfl, rfl, rfl⟩


theorem runCreditAdjust_keeps {s0 s : State} (h : Keeps s0 s) :
    ∀ x1 x2, Keeps s0 (runCreditAdjust s x1 x2).1 := by
  intros
  unfold runCreditAdjust
  with_reducible repeat' first
    | assumption | intro _ | extract_lets | apply Keeps.ite | split | apply State.tokenFails_keeps
    | apply State.logToken_keeps | exact ⟨rfl, rfl, rfl⟩


theorem runVkey_keeps {s0 s : State} (h : Keeps s0 s) :
    ∀ x1, Keeps s0 (runVkey s x1).1 := by
  intros
  unfold runVkey
  with_reducible repeat' first
    | assumption | intro _ | extract_lets | apply Keeps.ite | split | apply State.slotsFull_keeps
    | apply State.showSlotsWith_keeps | apply State.post_keeps | apply RegFile.ite_wf | apply RegFile.setF_wf
    | apply Keeps.mk_upd | exact ⟨rfl, rfl, rfl⟩


theorem runTokenItem_keeps {s0 s : State} (h : Keeps s0 s) :
    ∀ x1 x2, Keeps s0 (runTokenItem s x1 x2).1 := by
  intros
  unfold runTokenItem
  with_reducible repeat' first
    | assumption | intro _ | apply Keeps.ite | split | apply runToken_keeps | apply runPpySet_keeps
    | apply runCreditAdjust_keeps | apply runVkey_keeps


theorem execTokenSubmit_keeps {s0 s : State} (h : Keeps s0 s) :
    ∀ x0, Ends s0 (execTokenSubmit x0 s) := by
  intros
  unfold execTokenSubmit
  with_reducible repeat' first
    | assumption | intro _ | apply State.serve_keeps | apply State.taskCommand_keeps | apply runTokenItem_keeps
    | apply Ends.next


theorem execTokenApply_keeps {s0 s : State} (h : Keeps s0 s) :
    Ends s0 (execTokenApply s) := by
  unfold execTokenApply
  with_reducible repeat' first
    | assumption | intro _ | extract_lets | split | apply State.applyTokens_keeps | apply Ends.next
    | refine Keeps.of_fst (by assumption) ?_ | apply Keeps.mk_upd | exact ⟨rfl, rfl, rfl⟩


theorem execKeypadToken_keeps {s0 s : State} (h : Keeps s0 s) :
    Ends s0 (execKeypadToken s) := by
  unfold execKeypadToken
  with_reducible repeat' first
    | assumption | intro _ | extract_lets | split | apply State.takeExport_keeps | apply State.checkToken_keeps
    | apply State.reportToken_keeps | apply Ends.next | refine Keeps.of_fst (by assumption) ?_
    | exact ⟨rfl, rfl, rfl⟩


end Sys2Proof.Machine
end

