-- ==== Sys2Proof/Laws/KeepsIngest.lean ====
section
/-! SUPPORT. The operations of Machine/Ingest lead from a state to one that follows from it (Keeps). -/

set_option Elab.async false

namespace Sys2Proof.Machine

theorem State.rejectReading_keeps {s0 s : State} (h : Keeps s0 s) :
    ∀ x1 x2, Keeps s0 (State.rejectReading s x1 x2) := by
  intros
  unfold State.rejectReading
  with_reducible repeat' first
    | assumption | intro _ | extract_lets | apply Keeps.ite | split | apply RegFile.ite_wf | apply RegFile.setF_wf
    | apply RegFile.flag_wf | apply RegFile.bump_wf | apply Keeps.mk_upd | exact ⟨rfl, rfl, rfl⟩


theorem State.conflict_keeps {s0 s : State} (h : Keeps s0 s) :
    ∀ x1 x2 x3 x4 x5, Keeps s0 (State.conflict s x1 x2 x3 x4 x5) := by
  intros
  unfold State.conflict
  with_reducible repeat' first
    | assumption | intro _ | extract_lets | apply Keeps.ite | split | apply State.bump_keeps
    | apply State.setMeter_keeps | apply State.post_keeps | apply RegFile.ite_wf | apply RegFile.bump_wf
    | refine Keeps.of_fst (by assumption) ?_ | apply Keeps.mk_upd | exact ⟨rfl, rfl, rfl⟩


theorem State.checkStore_keeps {s0 s : State} (h : Keeps s0 s) :
    ∀ x1 x2 x3 x4 x5, Keeps s0 (State.checkStore s x1 x2 x3 x4 x5).1 := by
  intros
  unfold State.checkStore
  with_reducible repeat' first
    | assumption | intro _ | extract_lets | apply Keeps.ite | split | apply State.bump_keeps
    | apply State.conflict_keeps | exact ⟨rfl, rfl, rfl⟩


theorem State.showBuffer_keeps {s0 s : State} (h : Keeps s0 s) :
    Keeps s0 (State.showBuffer s) := by
  unfold State.showBuffer
  with_reducible repeat' first
    | assumption | intro _ | extract_lets | apply Keeps.ite | split | apply State.postIf_keeps
    | apply RegFile.ite_wf | apply RegFile.setF_wf | apply RegFile.flag_wf | apply Keeps.mk_upd
    | exact ⟨rfl, rfl, rfl⟩


theorem State.logReading_keeps {s0 s : State} (h : Keeps s0 s) :
    ∀ x1, Keeps s0 (State.logReading s x1) := by
  intros
  unfold State.logReading
  with_reducible repeat' first
    | assumption | intro _ | extract_lets | split | apply State.takeIsn_keeps | apply State.showBuffer_keeps
    | refine Keeps.of_fst (by assumption) ?_ | apply Keeps.mk_upd | exact ⟨rfl, rfl, rfl⟩


theorem State.takeEntry_keeps {s0 s : State} (h : Keeps s0 s) :
    ∀ x1 x2 x3 x4 x5 x6, Keeps s0 (State.takeEntry s x1 x2 x3 x4 x5 x6).1 := by
  intros
  unfold State.takeEntry
  with_reducible repeat' first
    | assumption | intro _ | extract_lets | apply Keeps.ite | split | apply State.rejectReading_keeps
    | apply State.checkStore_keeps | apply State.logReading_keeps | refine Keeps.of_fst (by assumption) ?_
    | exact ⟨rfl, rfl, rfl⟩


theorem State.takeEntries_keeps {s0 s : State} (h : Keeps s0 s) :
    ∀ x1 x2 x3 x4 x5 x6, Keeps s0 (State.takeEntries s x1 x2 x3 x4 x5 x6).1 := by
  intros
  unfold State.takeEntries
  with_reducible repeat' first
    | assumption | intro _ | extract_lets | split | apply State.takeEntry_keeps | apply Keeps.foldl
    | apply Keeps.foldl_pair | refine Keeps.of_fst (by assumption) ?_


theorem State.acceptFrame_keeps {s0 s : State} (h : Keeps s0 s) :
    ∀ x1 x2 x3 x4, Keeps s0 (State.acceptFrame s x1 x2 x3 x4) := by
  intros
  unfold State.acceptFrame
  with_reducible repeat' first
    | assumption | intro _ | extract_lets | apply Keeps.ite | split | apply State.setMeter_keeps
    | apply State.rejectReading_keeps | apply State.post_keeps | apply State.takeEntries_keeps | apply Keeps.foldl
    | apply Keeps.foldl_pair | apply Ends.next | apply Ends.ite | apply RegFile.ite_wf | apply RegFile.setF_wf
    | apply RegFile.flag_wf | apply RegFile.bump_wf | apply RegFile.put_wf | apply RegFile.setFInt_wf
    | apply RegFile.put64_wf | apply RegFile.foldl_wf | refine Keeps.of_fst (by assumption) ?_
    | (dsimp +zetaDelta only; split) | apply Keeps.mk_upd | exact ⟨rfl, rfl, rfl⟩


theorem State.acknowledge_keeps {s0 s : State} (h : Keeps s0 s) :
    ∀ x1 x2, Keeps s0 (State.acknowledge s x1 x2) := by
  intros
  unfold State.acknowledge
  with_reducible repeat' first
    | assumption | intro _ | apply Keeps.ite | split | apply State.tellMeter_keeps | apply State.send_keeps


theorem State.handOver_keeps {s0 s : State} (h : Keeps s0 s) :
    ∀ x1 x2 x3, Keeps s0 (State.handOver s x1 x2 x3) := by
  intros
  unfold State.handOver
  with_reducible repeat' first
    | assumption | intro _ | extract_lets | apply Keeps.ite | split | apply State.registerEntry_keeps
    | apply State.meterChanged_keeps | apply State.debitMeter_keeps | refine Keeps.of_fst (by assumption) ?_


theorem State.applyReading_keeps {s0 s : State} (h : Keeps s0 s) :
    ∀ x1, Keeps s0 (State.applyReading s x1) := by
  intros
  unfold State.applyReading
  with_reducible repeat' first
    | assumption | intro _ | extract_lets | apply Keeps.ite | split | apply State.post_keeps
    | apply State.setMeter_keeps | apply State.handOver_keeps | apply Keeps.foldl | exact ⟨rfl, rfl, rfl⟩


theorem State.useKey_keeps {s0 s : State} (h : Keeps s0 s) :
    ∀ x1 x2 x3, Keeps s0 (State.useKey s x1 x2 x3).1 := by
  intros
  unfold State.useKey
  with_reducible repeat' first
    | assumption | intro _ | extract_lets | apply Keeps.ite | split | apply State.showSlots_keeps
    | apply State.bump_keeps | refine Keeps.of_fst (by assumption) ?_ | apply Keeps.mk_upd | exact ⟨rfl, rfl, rfl⟩


theorem State.frameKeys_keeps {s0 s : State} (h : Keeps s0 s) :
    ∀ x1 x2, Keeps s0 (State.frameKeys s x1 x2).1 := by
  intros
  unfold State.frameKeys
  with_reducible repeat' first
    | assumption | intro _ | extract_lets | apply Keeps.ite | split | apply State.useKey_keeps
    | apply RegFile.ite_wf | refine Keeps.of_fst (by assumption) ?_ | apply Keeps.mk_upd | exact ⟨rfl, rfl, rfl⟩


theorem State.authenticate_keeps {s0 s : State} (h : Keeps s0 s) :
    ∀ x1 x2 x3, Keeps s0 (State.authenticate s x1 x2 x3).1 := by
  intros
  unfold State.authenticate
  with_reducible repeat' first
    | assumption | intro _ | extract_lets | apply Keeps.ite | split | apply State.frameKeys_keeps
    | apply State.post_keeps | apply Keeps.foldl | apply Keeps.foldl_pair | apply Ends.next | apply Ends.ite
    | apply RegFile.ite_wf | apply RegFile.setF_wf | apply RegFile.flag_wf | apply RegFile.bump_wf
    | apply RegFile.put_wf | apply RegFile.setFInt_wf | apply RegFile.put64_wf | apply RegFile.foldl_wf
    | refine Keeps.of_fst (by assumption) ?_ | (dsimp +zetaDelta only; split) | apply Keeps.mk_upd
    | exact ⟨rfl, rfl, rfl⟩


theorem State.durable_keeps {s0 s : State} (h : Keeps s0 s) :
    ∀ x1 x2, Keeps s0 (State.durable s x1 x2) := by
  intros
  unfold State.durable
  with_reducible repeat' first
    | assumption | intro _ | extract_lets | split | apply State.logEntry_keeps | apply State.acknowledge_keeps
    | apply State.applyReading_keeps | apply State.endItem_keeps | apply RegFile.bump_wf
    | refine Keeps.of_fst (by assumption) ?_ | apply Keeps.mk_upd | exact ⟨rfl, rfl, rfl⟩


theorem State.durableAll_keeps {s0 s : State} (h : Keeps s0 s) :
    ∀ x0, Keeps s0 (State.durableAll x0 s) := by
  intro l
  induction l generalizing s with
  | nil => exact h
  | cons x l ih =>
    unfold State.durableAll
    exact ih (State.durable_keeps h _ _)


theorem State.durableUpto_keeps {s0 s : State} (h : Keeps s0 s) :
    ∀ x1, Keeps s0 (State.durableUpto s x1) := by
  intros
  unfold State.durableUpto
  with_reducible repeat' first
    | assumption | intro _ | extract_lets | apply State.showBuffer_keeps | apply State.durableAll_keeps
    | apply Keeps.mk_upd | exact ⟨rfl, rfl, rfl⟩


theorem State.logsDue_keeps {s0 s : State} (h : Keeps s0 s) :
    Keeps s0 (State.logsDue s) := by
  unfold State.logsDue
  with_reducible repeat' first
    | assumption | intro _ | extract_lets | apply Keeps.ite | split | apply State.durableUpto_keeps
    | apply State.applyTokens_keeps


theorem State.openFrame_keeps {s0 s : State} (h : Keeps s0 s) :
    ∀ x1 x2, Keeps s0 (State.openFrame s x1 x2).1 := by
  intros
  unfold State.openFrame
  with_reducible repeat' first
    | assumption | intro _ | extract_lets | apply Keeps.ite | split | apply State.rejectReading_keeps
    | apply State.authenticate_keeps | apply State.bump_keeps | refine Keeps.of_fst (by assumption) ?_
    | apply Keeps.mk_upd | exact ⟨rfl, rfl, rfl⟩


theorem State.ingest_keeps {s0 s : State} (h : Keeps s0 s) :
    ∀ x1, Keeps s0 (State.ingest s x1) := by
  intros
  unfold State.ingest
  with_reducible repeat' first
    | assumption | intro _ | extract_lets | apply Keeps.ite | split | apply State.rejectReading_keeps
    | apply State.openFrame_keeps | apply State.acceptFrame_keeps | refine Keeps.of_fst (by assumption) ?_
    | exact ⟨rfl, rfl, rfl⟩


theorem State.takeFrame_keeps {s0 s : State} (h : Keeps s0 s) :
    ∀ x1 x2, Keeps s0 (State.takeFrame s x1 x2) := by
  intros
  unfold State.takeFrame
  with_reducible repeat' first
    | assumption | intro _ | extract_lets | apply State.setMeter_keeps | apply Keeps.mk_upd | exact ⟨rfl, rfl, rfl⟩


theorem execIngestFrame_keeps {s0 s : State} (h : Keeps s0 s) :
    Ends s0 (execIngestFrame s) := by
  unfold execIngestFrame
  with_reducible repeat' first
    | assumption | intro _ | extract_lets | apply Keeps.ite | split | apply State.ingest_keeps | apply Ends.next
    | apply Ends.ite | refine Keeps.of_fst (by assumption) ?_ | apply Keeps.mk_upd | exact ⟨rfl, rfl, rfl⟩


theorem execReadingDurable_keeps {s0 s : State} (h : Keeps s0 s) :
    Ends s0 (execReadingDurable s) := by
  unfold execReadingDurable
  with_reducible repeat' first
    | assumption | intro _ | extract_lets | split | apply State.durableUpto_keeps | apply Ends.next
    | refine Keeps.of_fst (by assumption) ?_ | apply Keeps.mk_upd | exact ⟨rfl, rfl, rfl⟩


theorem execTokenForward_keeps {s0 s : State} (h : Keeps s0 s) :
    Ends s0 (execTokenForward s) := by
  unfold execTokenForward
  with_reducible repeat' first
    | assumption | intro _ | extract_lets | split | apply State.openFrame_keeps | apply State.checkToken_keeps
    | apply State.takeFrame_keeps | apply State.reportToken_keeps | apply Ends.next
    | refine Keeps.of_fst (by assumption) ?_ | apply Keeps.mk_upd | exact ⟨rfl, rfl, rfl⟩


theorem execIntervalRecord_keeps {s0 s : State} (h : Keeps s0 s) :
    Ends s0 (execIntervalRecord s) := by
  unfold execIntervalRecord
  with_reducible repeat' first
    | assumption | intro _ | extract_lets | apply Keeps.ite | split | apply State.takeExport_keeps
    | apply State.pointChanged_keeps | apply Ends.next | apply Ends.ite | apply RegFile.ite_wf
    | refine Keeps.of_fst (by assumption) ?_ | apply Keeps.mk_upd | exact ⟨rfl, rfl, rfl⟩


end Sys2Proof.Machine
end

