-- ==== Sys2Proof/Laws/KeepsHealth.lean ====
section
/-! SUPPORT. The operations of Machine/Health lead from a state to one that follows from it (Keeps). -/

set_option Elab.async false

namespace Sys2Proof.Machine

theorem State.raiseItem_keeps {s0 s : State} (h : Keeps s0 s) :
    ∀ x1, Keeps s0 (State.raiseItem s x1) := by
  intros
  unfold State.raiseItem
  with_reducible repeat' first
    | assumption | intro _ | extract_lets | apply Keeps.ite | split | apply State.broadcast_keeps
    | apply State.post_keeps | apply Keeps.mk_upd | exact ⟨rfl, rfl, rfl⟩


theorem State.raiseIf_keeps {s0 s : State} (h : Keeps s0 s) :
    ∀ x1 x2, Keeps s0 (State.raiseIf s x1 x2) := by
  intros
  unfold State.raiseIf
  with_reducible repeat' first
    | assumption | intro _ | apply Keeps.ite | split | apply State.raiseItem_keeps


theorem State.afeGain_keeps {s0 s : State} (h : Keeps s0 s) :
    ∀ x1 x2, Keeps s0 (State.afeGain s x1 x2) := by
  intros
  unfold State.afeGain
  with_reducible repeat' first
    | assumption | intro _ | extract_lets | apply State.raiseIf_keeps | apply RegFile.setFInt_wf
    | apply Keeps.mk_upd | exact ⟨rfl, rfl, rfl⟩


theorem State.fatal_keeps {s0 s : State} (h : Keeps s0 s) :
    ∀ x1 x2 x3 x4, Keeps s0 (State.fatal s x1 x2 x3 x4) := by
  intros
  unfold State.fatal
  with_reducible repeat' first
    | assumption | intro _ | extract_lets | split | refine Keeps.of_fst (by assumption) ?_ | apply Keeps.mk_upd
    | exact ⟨rfl, rfl, rfl⟩


theorem State.capTestStart_keeps {s0 s : State} (h : Keeps s0 s) :
    Keeps s0 (State.capTestStart s) := by
  unfold State.capTestStart
  with_reducible repeat' first
    | assumption | intro _ | extract_lets | apply State.flag_keeps | apply Keeps.mk_upd | exact ⟨rfl, rfl, rfl⟩


theorem State.loseCore_keeps {s0 s : State} (h : Keeps s0 s) :
    ∀ x1, Keeps s0 (State.loseCore s x1) := by
  intros
  unfold State.loseCore
  with_reducible repeat' first
    | assumption | intro _ | extract_lets | apply Keeps.ite | split | apply State.raiseItem_keeps
    | apply State.post_keeps | apply State.setF_keeps


theorem State.evaluateSlack_keeps {s0 s : State} (h : Keeps s0 s) :
    ∀ x1, Keeps s0 (State.evaluateSlack s x1) := by
  intros
  unfold State.evaluateSlack
  with_reducible repeat' first
    | assumption | intro _ | extract_lets | apply Keeps.ite | split | apply State.raiseIf_keeps
    | apply State.postIf_keeps | apply State.fatal_keeps | apply RegFile.ite_wf
    | apply RegFile.setF_wf | apply RegFile.flag_wf | apply RegFile.setFInt_wf | apply Keeps.mk_upd
    | exact ⟨rfl, rfl, rfl⟩


theorem execVcoreEvaluation_keeps {s0 s : State} (h : Keeps s0 s) :
    ∀ x0, Ends s0 (execVcoreEvaluation x0 s) := by
  intros
  unfold execVcoreEvaluation
  with_reducible repeat' first
    | assumption | intro _ | apply Ends.next | apply Keeps.ite | apply State.evaluateSlack_keeps


theorem State.evaluateBer_keeps {s0 s : State} (h : Keeps s0 s) :
    ∀ x1, Keeps s0 (State.evaluateBer s x1) := by
  intros
  unfold State.evaluateBer
  with_reducible repeat' first
    | assumption | intro _ | extract_lets | apply State.raiseIf_keeps | apply RegFile.setF_wf
    | apply Keeps.mk_upd | exact ⟨rfl, rfl, rfl⟩


theorem execNandBerEvaluation_keeps {s0 s : State} (h : Keeps s0 s) :
    ∀ x0, Ends s0 (execNandBerEvaluation x0 s) := by
  intros
  unfold execNandBerEvaluation
  with_reducible repeat' first
    | assumption | intro _ | apply Ends.next | apply Keeps.ite | apply State.evaluateBer_keeps


theorem State.measureDrifts_keeps {s0 s : State} (h : Keeps s0 s) :
    ∀ x1, Keeps s0 (State.measureDrifts s x1) := by
  intros
  unfold State.measureDrifts
  with_reducible repeat' first
    | assumption | intro _ | extract_lets | apply State.raiseIf_keeps | apply State.afeGain_keeps
    | apply Keeps.foldl | apply Keeps.foldl_pair


theorem execDailyMeasurement_keeps {s0 s : State} (h : Keeps s0 s) :
    ∀ x0, Ends s0 (execDailyMeasurement x0 s) := by
  intros
  unfold execDailyMeasurement
  with_reducible repeat' first
    | assumption | intro _ | apply Ends.next | apply Keeps.ite | apply State.measureDrifts_keeps | apply Keeps.mk_upd
    | exact ⟨rfl, rfl, rfl⟩


theorem execCapTest_keeps {s0 s : State} (h : Keeps s0 s) :
    Ends s0 (execCapTest s) := by
  unfold execCapTest
  with_reducible repeat' first
    | assumption | intro _ | extract_lets | apply Keeps.ite | split | apply State.capTestStart_keeps
    | apply Ends.next | apply Ends.ite | apply Keeps.mk_upd | exact ⟨rfl, rfl, rfl⟩


theorem execCapTestEnd_keeps {s0 s : State} (h : Keeps s0 s) :
    ∀ x0 x1, Ends s0 (execCapTestEnd x0 x1 s) := by
  intros
  unfold execCapTestEnd
  with_reducible repeat' first
    | assumption | intro _ | extract_lets | apply Keeps.ite | split | apply State.post_keeps | apply State.drawLocal_keeps
    | apply State.raiseIf_keeps | apply State.postIf_keeps | apply Ends.next | apply Ends.ite | apply RegFile.ite_wf
    | apply RegFile.setF_wf | apply RegFile.flag_wf | apply Keeps.mk_upd | exact ⟨rfl, rfl, rfl⟩


theorem execCoreLost_keeps {s0 s : State} (h : Keeps s0 s) :
    ∀ x0 x1, Ends s0 (execCoreLost x0 x1 s) := by
  intros
  unfold execCoreLost
  with_reducible repeat' first
    | assumption | intro _ | extract_lets | apply Keeps.ite | split | apply State.loseCore_keeps | apply Ends.next
    | apply Ends.ite | apply Keeps.mk_upd | exact ⟨rfl, rfl, rfl⟩


theorem execWatchdogBite_keeps {s0 s : State} (h : Keeps s0 s) :
    Ends s0 (execWatchdogBite s) := by
  unfold execWatchdogBite
  with_reducible repeat' first
    | assumption | intro _ | extract_lets | apply Keeps.ite | split | apply State.fatal_keeps
    | apply State.bump_keeps | apply Ends.next | apply Ends.ite | apply Keeps.mk_upd | exact ⟨rfl, rfl, rfl⟩


end Sys2Proof.Machine
end

