-- ==== Sys2Proof/Laws/KeepsRadio.lean ====
section
/-! SUPPORT. The operations of Machine/Radio lead from a state to one that follows from it (Keeps). -/

set_option Elab.async false

namespace Sys2Proof.Machine

theorem State.queueDown_keeps {s0 s : State} (h : Keeps s0 s) :
    ∀ x1 x2, Keeps s0 (State.queueDown s x1 x2) := by
  intros
  unfold State.queueDown
  with_reducible repeat' first
    | assumption | intro _ | extract_lets | apply Keeps.ite | split | refine Keeps.of_fst (by assumption) ?_
    | apply Keeps.mk_upd | exact ⟨rfl, rfl, rfl⟩


theorem State.showJoined_keeps {s0 s : State} (h : Keeps s0 s) :
    Keeps s0 (State.showJoined s) := by
  unfold State.showJoined
  with_reducible repeat' first
    | assumption | intro _ | extract_lets | split | apply RegFile.setF_wf | refine Keeps.of_fst (by assumption) ?_
    | apply Keeps.mk_upd | exact ⟨rfl, rfl, rfl⟩


theorem State.touchJoined_keeps {s0 s : State} (h : Keeps s0 s) :
    Keeps s0 (State.touchJoined s) := by
  unfold State.touchJoined
  with_reducible repeat' first
    | assumption | intro _ | extract_lets | split | apply State.showJoined_keeps
    | refine Keeps.of_fst (by assumption) ?_ | apply Keeps.mk_upd | exact ⟨rfl, rfl, rfl⟩


theorem State.setJoined_keeps {s0 s : State} (h : Keeps s0 s) :
    ∀ x1 x2, Keeps s0 (State.setJoined s x1 x2) := by
  intros
  unfold State.setJoined
  with_reducible repeat' first
    | assumption | intro _ | extract_lets | apply State.touchJoined_keeps | apply Keeps.mk_upd
    | exact ⟨rfl, rfl, rfl⟩


theorem State.showDuty_keeps {s0 s : State} (h : Keeps s0 s) :
    Keeps s0 (State.showDuty s) := by
  unfold State.showDuty
  with_reducible repeat' first
    | assumption | intro _ | extract_lets | split | apply State.setF_keeps | apply Keeps.foldl
    | exact ⟨rfl, rfl, rfl⟩


theorem State.transmit_keeps {s0 s : State} (h : Keeps s0 s) :
    ∀ x1 x2 x3 x4 x5 x6, Keeps s0 (State.transmit s x1 x2 x3 x4 x5 x6) := by
  intros
  unfold State.transmit
  with_reducible repeat' first
    | assumption | intro _ | extract_lets | split | apply State.send_keeps | apply State.showDuty_keeps
    | refine Keeps.of_fst (by assumption) ?_ | apply Keeps.mk_upd | exact ⟨rfl, rfl, rfl⟩


theorem State.holdBack_keeps {s0 s : State} (h : Keeps s0 s) :
    ∀ x1 x2 x3, Keeps s0 (State.holdBack s x1 x2 x3) := by
  intros
  unfold State.holdBack
  with_reducible repeat' first
    | assumption | intro _ | extract_lets | apply Keeps.ite | split | apply State.bump_keeps
    | apply State.post_keeps | refine Keeps.of_fst (by assumption) ?_ | apply Keeps.mk_upd | exact ⟨rfl, rfl, rfl⟩


theorem State.dcounterItem_keeps {s0 s : State} (h : Keeps s0 s) :
    ∀ x1, Keeps s0 (State.dcounterItem s x1) := by
  intros
  unfold State.dcounterItem
  with_reducible repeat' first
    | assumption | apply State.raiseItem_keeps


theorem State.envelopeFailed_keeps {s0 s : State} (h : Keeps s0 s) :
    ∀ x1 x2 x3, Keeps s0 (State.envelopeFailed s x1 x2 x3) := by
  intros
  unfold State.envelopeFailed
  with_reducible repeat' first
    | assumption | intro _ | extract_lets | apply Keeps.ite | split | apply Keeps.mk_upd | exact ⟨rfl, rfl, rfl⟩


theorem State.reofferAll_keeps {s0 s : State} (h : Keeps s0 s) :
    ∀ x1, Keeps s0 (State.reofferAll s x1) := by
  intros
  unfold State.reofferAll
  with_reducible repeat' first
    | assumption | intro _ | extract_lets | apply Keeps.ite | split | apply State.draw_keeps
    | apply State.tellMeter_keeps | apply Keeps.foldl | apply Keeps.foldl_pair | apply Keeps.mk_upd
    | exact ⟨rfl, rfl, rfl⟩


theorem State.nextEpoch_keeps {s0 s : State} (h : Keeps s0 s) :
    Keeps s0 (State.nextEpoch s) := by
  unfold State.nextEpoch
  with_reducible repeat' first
    | assumption | intro _ | extract_lets | apply State.dcounterItem_keeps | apply State.post_keeps
    | apply State.reofferAll_keeps | apply RegFile.setF_wf | apply Keeps.mk_upd | exact ⟨rfl, rfl, rfl⟩


theorem State.epochDue_keeps {s0 s : State} (h : Keeps s0 s) :
    Keeps s0 (State.epochDue s) := by
  unfold State.epochDue
  with_reducible repeat' first
    | assumption | intro _ | apply Keeps.ite | split | apply State.nextEpoch_keeps


theorem State.passUp_keeps {s0 s : State} (h : Keeps s0 s) :
    ∀ x1 x2 x3 x4, Keeps s0 (State.passUp s x1 x2 x3 x4) := by
  intros
  unfold State.passUp
  with_reducible repeat' first
    | assumption | intro _ | extract_lets | apply Keeps.ite | split | apply State.handIn_keeps
    | apply State.bump_keeps | apply Keeps.mk_upd | exact ⟨rfl, rfl, rfl⟩


theorem State.freeJoined_keeps {s0 s : State} (h : Keeps s0 s) :
    ∀ x1, Keeps s0 (State.freeJoined s x1) := by
  intros
  unfold State.freeJoined
  with_reducible repeat' first
    | assumption | intro _ | extract_lets | split | apply State.touchJoined_keeps
    | refine Keeps.of_fst (by assumption) ?_ | apply Keeps.mk_upd | exact ⟨rfl, rfl, rfl⟩


theorem State.takeData_keeps {s0 s : State} (h : Keeps s0 s) :
    ∀ x1 x2 x3 x4, Keeps s0 (State.takeData s x1 x2 x3 x4) := by
  intros
  unfold State.takeData
  with_reducible repeat' first
    | assumption | intro _ | extract_lets | apply Keeps.ite | split | apply State.reportTx_keeps
    | apply State.setJoined_keeps | apply State.bump_keeps | apply State.passUp_keeps | exact ⟨rfl, rfl, rfl⟩


theorem State.takeCounter_keeps {s0 s : State} (h : Keeps s0 s) :
    Keeps s0 (State.takeCounter s).1 := by
  unfold State.takeCounter
  with_reducible repeat' first
    | assumption | intro _ | extract_lets | apply Keeps.ite | split | apply State.dcounterItem_keeps
    | apply RegFile.ite_wf | apply RegFile.setF_wf | apply Keeps.mk_upd | exact ⟨rfl, rfl, rfl⟩


theorem State.sealEnvelope_keeps {s0 s : State} (h : Keeps s0 s) :
    ∀ x1 x2, Keeps s0 (State.sealEnvelope s x1 x2) := by
  intros
  unfold State.sealEnvelope
  with_reducible repeat' first
    | assumption | intro _ | extract_lets | apply Keeps.ite | split | apply State.envelopeFailed_keeps
    | apply State.epochDue_keeps | apply State.takeCounter_keeps | apply State.queueDown_keeps
    | apply RegFile.ite_wf | refine Keeps.of_fst (by assumption) ?_ | exact ⟨rfl, rfl, rfl⟩


end Sys2Proof.Machine
end

