-- ==== Sys2Proof/Laws/KeepsMesh.lean ====
section
/-! SUPPORT. The operations of Machine/Mesh lead from a state to one that follows from it (Keeps). -/

set_option Elab.async false

namespace Sys2Proof.Machine

theorem State.paramsChanged_keeps {s0 s : State} (h : Keeps s0 s) :
    Keeps s0 (State.paramsChanged s) := by
  unfold State.paramsChanged
  with_reducible repeat' first
    | assumption | intro _ | extract_lets | apply Keeps.ite | split | apply State.queueDown_keeps
    | apply State.setJoined_keeps | apply Keeps.foldl | exact ⟨rfl, rfl, rfl⟩


theorem State.startConn_keeps {s0 s : State} (h : Keeps s0 s) :
    ∀ x1 x2 x3 x4 x5, Keeps s0 (State.startConn s x1 x2 x3 x4 x5).1 := by
  intros
  unfold State.startConn
  with_reducible repeat' first
    | assumption | intro _ | extract_lets | apply Keeps.ite | split | apply State.draw_keeps
    | apply State.setJoined_keeps | exact ⟨rfl, rfl, rfl⟩


theorem State.joinAnswer_keeps {s0 s : State} (h : Keeps s0 s) :
    ∀ x1 x2 x3 x4 x5 x6, Keeps s0 (State.joinAnswer s x1 x2 x3 x4 x5 x6).1 := by
  intros
  unfold State.joinAnswer
  with_reducible repeat' first
    | assumption | intro _ | extract_lets | split | apply State.startConn_keeps
    | refine Keeps.of_fst (by assumption) ?_ | apply Keeps.mk_upd | exact ⟨rfl, rfl, rfl⟩


theorem State.queueFlood_keeps {s0 s : State} (h : Keeps s0 s) :
    ∀ x1, Keeps s0 (State.queueFlood s x1) := by
  intros
  unfold State.queueFlood
  with_reducible repeat' first
    | assumption | intro _ | extract_lets | apply Keeps.mk_upd | exact ⟨rfl, rfl, rfl⟩


theorem State.sendJoinRsp_keeps {s0 s : State} (h : Keeps s0 s) :
    ∀ x1 x2 x3 x4 x5 x6 x7 x8, Keeps s0 (State.sendJoinRsp s x1 x2 x3 x4 x5 x6 x7 x8).1 := by
  intros
  unfold State.sendJoinRsp
  with_reducible repeat' first
    | assumption | intro _ | extract_lets | apply Keeps.ite | split | apply State.joinAnswer_keeps
    | apply State.transmit_keeps | apply State.holdBack_keeps | apply RegFile.ite_wf
    | refine Keeps.of_fst (by assumption) ?_ | exact ⟨rfl, rfl, rfl⟩


theorem State.answerJoin_keeps {s0 s : State} (h : Keeps s0 s) :
    ∀ x1 x2 x3 x4 x5 x6 x7 x8, Keeps s0 (State.answerJoin s x1 x2 x3 x4 x5 x6 x7 x8) := by
  intros
  unfold State.answerJoin
  with_reducible repeat' first
    | assumption | intro _ | extract_lets | apply Keeps.ite | split | apply State.joinAnswer_keeps
    | apply State.queueFlood_keeps | apply State.sendJoinRsp_keeps | apply RegFile.ite_wf
    | refine Keeps.of_fst (by assumption) ?_ | apply Keeps.mk_upd | exact ⟨rfl, rfl, rfl⟩


theorem State.writeJoined_keeps {s0 s : State} (h : Keeps s0 s) :
    Keeps s0 (State.writeJoined s) := by
  unfold State.writeJoined
  with_reducible repeat' first
    | assumption | intro _ | extract_lets | apply Keeps.mk_upd | exact ⟨rfl, rfl, rfl⟩


theorem State.joinedDue_keeps {s0 s : State} (h : Keeps s0 s) :
    Keeps s0 (State.joinedDue s) := by
  unfold State.joinedDue
  with_reducible repeat' first
    | assumption | intro _ | extract_lets | apply Keeps.ite | split | apply State.writeJoined_keeps
    | refine Keeps.of_fst (by assumption) ?_ | apply Keeps.mk_upd | exact ⟨rfl, rfl, rfl⟩


theorem State.enter_keeps {s0 s : State} (h : Keeps s0 s) :
    ∀ x1 x2 x3, Keeps s0 (State.enter s x1 x2 x3) := by
  intros
  unfold State.enter
  with_reducible repeat' first
    | assumption | intro _ | extract_lets | apply State.setJoined_keeps | exact ⟨rfl, rfl, rfl⟩


theorem State.passEvent_keeps {s0 s : State} (h : Keeps s0 s) :
    ∀ x1 x2, Keeps s0 (State.passEvent s x1 x2) := by
  intros
  unfold State.passEvent
  with_reducible repeat' first
    | assumption | intro _ | extract_lets | apply Keeps.ite | split | refine Keeps.of_fst (by assumption) ?_
    | apply Keeps.mk_upd | exact ⟨rfl, rfl, rfl⟩


theorem State.sendMaps_keeps {s0 s : State} (h : Keeps s0 s) :
    ∀ x1, Keeps s0 (State.sendMaps s x1) := by
  intros
  unfold State.sendMaps
  with_reducible repeat' first
    | assumption | intro _ | extract_lets | apply Keeps.ite | split | apply State.queueDown_keeps
    | apply Keeps.foldl | exact ⟨rfl, rfl, rfl⟩


theorem State.expectEvent_keeps {s0 s : State} (h : Keeps s0 s) :
    ∀ x1 x2 x3, Keeps s0 (State.expectEvent s x1 x2 x3) := by
  intros
  unfold State.expectEvent
  with_reducible repeat' first
    | assumption | intro _ | extract_lets | apply Keeps.ite | split | apply State.post_keeps
    | apply State.sendMaps_keeps | apply Keeps.mk_upd | exact ⟨rfl, rfl, rfl⟩


theorem State.startFlood_keeps {s0 s : State} (h : Keeps s0 s) :
    ∀ x1 x2 x3 x4, Keeps s0 (State.startFlood s x1 x2 x3 x4).1 := by
  intros
  unfold State.startFlood
  with_reducible repeat' first
    | assumption | intro _ | extract_lets | apply Keeps.ite | split | apply State.transmit_keeps
    | apply State.holdBack_keeps | exact ⟨rfl, rfl, rfl⟩


theorem State.floodOn_keeps {s0 s : State} (h : Keeps s0 s) :
    ∀ x1 x2 x3 x4, Keeps s0 (State.floodOn s x1 x2 x3 x4) := by
  intros
  unfold State.floodOn
  with_reducible repeat' first
    | assumption | intro _ | extract_lets | apply Keeps.ite | split | apply State.startFlood_keeps
    | refine Keeps.of_fst (by assumption) ?_ | apply Keeps.mk_upd | exact ⟨rfl, rfl, rfl⟩


theorem State.see_keeps {s0 s : State} (h : Keeps s0 s) :
    ∀ x1 x2, Keeps s0 (State.see s x1 x2) := by
  intros
  unfold State.see
  with_reducible repeat' first
    | assumption | intro _ | extract_lets | apply Keeps.ite | split | apply State.bump_keeps | apply Keeps.mk_upd
    | exact ⟨rfl, rfl, rfl⟩


theorem State.floodOut_keeps {s0 s : State} (h : Keeps s0 s) :
    ∀ x1, Keeps s0 (State.floodOut s x1) := by
  intros
  unfold State.floodOut
  with_reducible repeat' first
    | assumption | intro _ | extract_lets | split | apply State.see_keeps | apply State.floodOn_keeps
    | apply Keeps.foldl | apply Keeps.foldl_pair | refine Keeps.of_fst (by assumption) ?_ | apply Keeps.mk_upd
    | exact ⟨rfl, rfl, rfl⟩


theorem State.joinRequest_keeps {s0 s : State} (h : Keeps s0 s) :
    ∀ x1 x2 x3 x4 x5, Keeps s0 (State.joinRequest s x1 x2 x3 x4 x5) := by
  intros
  unfold State.joinRequest
  with_reducible repeat' first
    | assumption | intro _ | extract_lets | split | apply State.post_keeps | apply State.bump_keeps
    | apply State.answerJoin_keeps | apply State.draw_keeps | apply State.enter_keeps | exact ⟨rfl, rfl, rfl⟩


theorem State.floodPayload_keeps {s0 s : State} (h : Keeps s0 s) :
    ∀ x1 x2 x3 x4 x5, Keeps s0 (State.floodPayload s x1 x2 x3 x4 x5) := by
  intros
  unfold State.floodPayload
  with_reducible repeat' first
    | assumption | intro _ | extract_lets | split | apply State.joinRequest_keeps | apply State.passUp_keeps
    | refine Keeps.of_fst (by assumption) ?_ | apply Keeps.mk_upd | exact ⟨rfl, rfl, rfl⟩


theorem State.resumeJoined_keeps {s0 s : State} (h : Keeps s0 s) :
    ∀ x1, Keeps s0 (State.resumeJoined s x1) := by
  intros
  unfold State.resumeJoined
  with_reducible repeat' first
    | assumption | intro _ | extract_lets | apply Keeps.ite | split | apply State.showJoined_keeps
    | refine Keeps.of_fst (by assumption) ?_ | apply Keeps.mk_upd | exact ⟨rfl, rfl, rfl⟩


theorem State.judgeMark_keeps {s0 s : State} (h : Keeps s0 s) :
    ∀ x1, Keeps s0 (State.judgeMark s x1) := by
  intros
  unfold State.judgeMark
  with_reducible repeat' first
    | assumption | intro _ | extract_lets | apply Keeps.ite | split | apply State.queueDown_keeps
    | apply State.setJoined_keeps | exact ⟨rfl, rfl, rfl⟩


theorem State.reply_keeps {s0 s : State} (h : Keeps s0 s) :
    ∀ x1 x2 x3 x4 x5, Keeps s0 (State.reply s x1 x2 x3 x4 x5).1 := by
  intros
  unfold State.reply
  with_reducible repeat' first
    | assumption | intro _ | extract_lets | apply Keeps.ite | split | apply State.transmit_keeps
    | apply State.reportTx_keeps | apply State.setJoined_keeps | apply State.holdBack_keeps | exact ⟨rfl, rfl, rfl⟩


theorem State.retryExhausted_keeps {s0 s : State} (h : Keeps s0 s) :
    ∀ x1, Keeps s0 (State.retryExhausted s x1) := by
  intros
  unfold State.retryExhausted
  with_reducible repeat' first
    | assumption | intro _ | extract_lets | apply Keeps.ite | split | apply State.setJoined_keeps
    | exact ⟨rfl, rfl, rfl⟩


theorem State.runEvent_keeps {s0 s : State} (h : Keeps s0 s) :
    ∀ x1 x2 x3 x4 x5 x6 x7, Keeps s0 (State.runEvent s x1 x2 x3 x4 x5 x6 x7) := by
  intro a x ch n pre no l
  induction l generalizing s no with
  | nil => exact h
  | cons f l ih =>
    unfold State.runEvent
    split
    · exact State.bump_keeps h _ _
    · have g := State.bump_keeps h (F.RFM_RX_CNT.COUNT x) 1
      dsimp only
      split
      · exact g
      · rename_i e _
        split
        · exact State.bump_keeps g _ _
        · have g2 : ∀ c, Keeps s0 (((s.bump (F.RFM_RX_CNT.COUNT x)).setJoined a { e with conn := c }).takeData a (1 + x) none f) :=
            fun c => State.takeData_keeps (State.setJoined_keeps g _ _) _ _ _ _
          have g3 : ∀ u, Keeps s0 u → Keeps s0 ((if no = 1 then u.retryExhausted a else u).judgeMark a) := fun u hu =>
            State.judgeMark_keeps (Keeps.ite (fun _ => State.retryExhausted_keeps hu _) (fun _ => hu)) _
          split
          · rename_i s4 e4
            have g4 : Keeps s0 s4 := Keeps.of_fst e4 (State.reply_keeps (g3 _ (g2 _)) _ _ _ _ _)
            exact Keeps.ite (fun _ => g4) (fun _ => ih g4 _)
          · rename_i s4 e4
            exact Keeps.of_fst e4 (State.reply_keeps (g3 _ (g2 _)) _ _ _ _ _)


theorem State.startWait_keeps {s0 s : State} (h : Keeps s0 s) :
    ∀ x1, Keeps s0 (State.startWait s x1).1 := by
  intros
  unfold State.startWait
  with_reducible repeat' first
    | assumption | intro _ | extract_lets | split | apply State.sendJoinRsp_keeps | apply State.startFlood_keeps
    | exact ⟨rfl, rfl, rfl⟩


theorem execConnectionEvent_keeps {s0 s : State} (h : Keeps s0 s) :
    ∀ x0 x1 x2 x3 x4, Ends s0 (execConnectionEvent x0 x1 x2 x3 x4 s) := by
  intros
  unfold execConnectionEvent
  with_reducible repeat' first
    | assumption | intro _ | extract_lets | apply Keeps.ite | split | apply State.bump_keeps
    | apply State.reportTx_keeps | apply State.passEvent_keeps | apply State.runEvent_keeps | apply State.send_keeps
    | apply State.expectEvent_keeps | apply Ends.next | exact ⟨rfl, rfl, rfl⟩


theorem execChannelReturn_keeps {s0 s : State} (h : Keeps s0 s) :
    ∀ x0 x1, Ends s0 (execChannelReturn x0 x1 s) := by
  intros
  unfold execChannelReturn
  with_reducible repeat' first
    | assumption | intro _ | extract_lets | apply Keeps.ite | split | apply State.post_keeps
    | apply State.sendMaps_keeps | apply Ends.next | apply Ends.ite | refine Keeps.of_fst (by assumption) ?_
    | apply Keeps.mk_upd | exact ⟨rfl, rfl, rfl⟩


theorem execJoinReq_keeps {s0 s : State} (h : Keeps s0 s) :
    ∀ x0 x1 x2 x3, Ends s0 (execJoinReq x0 x1 x2 x3 s) := by
  intros
  unfold execJoinReq
  with_reducible repeat' first
    | assumption | intro _ | extract_lets | apply Keeps.ite | split | apply State.bump_keeps
    | apply State.joinRequest_keeps | apply Ends.next | exact ⟨rfl, rfl, rfl⟩


theorem execConnectionLost_keeps {s0 s : State} (h : Keeps s0 s) :
    ∀ x0, Ends s0 (execConnectionLost x0 s) := by
  intros
  unfold execConnectionLost
  with_reducible repeat' first
    | assumption | intro _ | extract_lets | apply Keeps.ite | split | apply State.setJoined_keeps
    | apply State.post_keeps | apply State.bump_keeps | apply Ends.next | exact ⟨rfl, rfl, rfl⟩


theorem execFloodReceive_keeps {s0 s : State} (h : Keeps s0 s) :
    ∀ x0 x1 x2 x3 x4, Ends s0 (execFloodReceive x0 x1 x2 x3 x4 s) := by
  intros
  unfold execFloodReceive
  with_reducible repeat' first
    | assumption | intro _ | extract_lets | apply Keeps.ite | split | apply State.bump_keeps
    | apply State.floodPayload_keeps | apply State.see_keeps | apply Ends.next | exact ⟨rfl, rfl, rfl⟩


theorem execFloodSend_keeps {s0 s : State} (h : Keeps s0 s) :
    Ends s0 (execFloodSend s) := by
  unfold execFloodSend
  with_reducible repeat' first
    | assumption | intro _ | extract_lets | apply Keeps.ite | split | apply State.floodOut_keeps | apply Ends.next
    | apply Ends.ite | refine Keeps.of_fst (by assumption) ?_ | apply Keeps.mk_upd | exact ⟨rfl, rfl, rfl⟩


theorem execWmbusFrame_keeps {s0 s : State} (h : Keeps s0 s) :
    ∀ x0 x1 x2, Ends s0 (execWmbusFrame x0 x1 x2 s) := by
  intros
  unfold execWmbusFrame
  with_reducible repeat' first
    | assumption | intro _ | extract_lets | apply Keeps.ite | split | apply State.bump_keeps
    | apply State.handIn_keeps | apply Ends.next | exact ⟨rfl, rfl, rfl⟩


theorem execJoinedTableWrite_keeps {s0 s : State} (h : Keeps s0 s) :
    Ends s0 (execJoinedTableWrite s) := by
  unfold execJoinedTableWrite
  with_reducible repeat' first
    | assumption | apply State.writeJoined_keeps | apply Ends.next


theorem execTxWaitExpiry_keeps {s0 s : State} (h : Keeps s0 s) :
    Ends s0 (execTxWaitExpiry s) := by
  unfold execTxWaitExpiry
  with_reducible repeat' first
    | assumption | intro _ | extract_lets | apply Keeps.ite | split | apply Ends.next | apply Ends.ite
    | refine Keeps.of_fst (by assumption) ?_ | apply Keeps.mk_upd | exact ⟨rfl, rfl, rfl⟩


theorem execSynthLockFail_keeps {s0 s : State} (h : Keeps s0 s) :
    ∀ x0, Ends s0 (execSynthLockFail x0 s) := by
  intros
  unfold execSynthLockFail
  with_reducible repeat' first
    | assumption | intro _ | apply Keeps.ite | split | apply State.post_keeps | apply State.flag_keeps
    | apply Ends.next


theorem execWaitingTransmissionStart_keeps {s0 s : State} (h : Keeps s0 s) :
    Ends s0 (execWaitingTransmissionStart s) := by
  unfold execWaitingTransmissionStart
  with_reducible repeat' first
    | assumption | intro _ | extract_lets | apply Keeps.ite | split | apply State.startWait_keeps | apply Ends.next
    | apply Ends.ite | refine Keeps.of_fst (by assumption) ?_ | apply Keeps.mk_upd | exact ⟨rfl, rfl, rfl⟩


end Sys2Proof.Machine
end

