-- ==== Sys2Proof/Laws/KeepsPlc.lean ====
section
/-! SUPPORT. The operations of Machine/Plc lead from a state to one that follows from it (Keeps). -/

set_option Elab.async false

namespace Sys2Proof.Machine

theorem State.plcSend_keeps {s0 s : State} (h : Keeps s0 s) :
    ∀ x1 x2 x3 x4 x5 x6 x7, Keeps s0 (State.plcSend s x1 x2 x3 x4 x5 x6 x7) := by
  intros
  unfold State.plcSend
  with_reducible repeat' first
    | assumption | apply State.send_keeps | apply State.bump_keeps


theorem State.plcFrame_keeps {s0 s : State} (h : Keeps s0 s) :
    ∀ x1 x2 x3 x4 x5 x6 x7, Keeps s0 (State.plcFrame s x1 x2 x3 x4 x5 x6 x7) := by
  intros
  unfold State.plcFrame
  with_reducible repeat' first
    | assumption | intro _ | extract_lets | split | apply State.plcSend_keeps
    | refine Keeps.of_fst (by assumption) ?_ | apply Keeps.mk_upd | exact ⟨rfl, rfl, rfl⟩


theorem State.setChan_keeps {s0 s : State} (h : Keeps s0 s) :
    ∀ x1 x2, Keeps s0 (State.setChan s x1 x2) := by
  intros
  unfold State.setChan
  with_reducible repeat' first
    | assumption | intro _ | extract_lets | apply Keeps.mk_upd | exact ⟨rfl, rfl, rfl⟩


theorem State.beacon_keeps {s0 s : State} (h : Keeps s0 s) :
    ∀ x1 x2, Keeps s0 (State.beacon s x1 x2) := by
  intros
  unfold State.beacon
  with_reducible repeat' first
    | assumption | intro _ | extract_lets | apply Keeps.ite | split | apply State.plcFrame_keeps
    | apply State.draw_keeps | apply State.setChan_keeps | exact ⟨rfl, rfl, rfl⟩


theorem State.setCoord_keeps {s0 s : State} (h : Keeps s0 s) :
    ∀ x1 x2, Keeps s0 (State.setCoord s x1 x2) := by
  intros
  unfold State.setCoord
  with_reducible repeat' first
    | assumption | apply State.post_keeps | apply State.flag_keeps


theorem State.leaveCoord_keeps {s0 s : State} (h : Keeps s0 s) :
    ∀ x1, Keeps s0 (State.leaveCoord s x1) := by
  intros
  unfold State.leaveCoord
  with_reducible repeat' first
    | assumption | intro _ | extract_lets | apply Keeps.ite | split | apply State.beacon_keeps
    | apply State.setCoord_keeps | apply State.setChan_keeps | exact ⟨rfl, rfl, rfl⟩


theorem State.attempt_keeps {s0 s : State} (h : Keeps s0 s) :
    ∀ x1 x2, Keeps s0 (State.attempt s x1 x2) := by
  intros
  unfold State.attempt
  with_reducible repeat' first
    | assumption | intro _ | extract_lets | apply State.setChan_keeps | exact ⟨rfl, rfl, rfl⟩


theorem State.changeSlots_keeps {s0 s : State} (h : Keeps s0 s) :
    ∀ x1 x2, Keeps s0 (State.changeSlots s x1 x2) := by
  intros
  unfold State.changeSlots
  with_reducible repeat' first
    | assumption | intro _ | extract_lets | apply State.setChan_keeps | exact ⟨rfl, rfl, rfl⟩


theorem State.queueFrame_keeps {s0 s : State} (h : Keeps s0 s) :
    ∀ x1 x2 x3 x4 x5 x6, Keeps s0 (State.queueFrame s x1 x2 x3 x4 x5 x6) := by
  intros
  unfold State.queueFrame
  with_reducible repeat' first
    | assumption | intro _ | extract_lets | apply State.setChan_keeps | exact ⟨rfl, rfl, rfl⟩


theorem State.downFrame_keeps {s0 s : State} (h : Keeps s0 s) :
    ∀ x1 x2 x3, Keeps s0 (State.downFrame s x1 x2 x3) := by
  intros
  unfold State.downFrame
  with_reducible repeat' first
    | assumption | intro _ | extract_lets | split | apply State.queueFrame_keeps | apply State.setJoined_keeps
    | exact ⟨rfl, rfl, rfl⟩


theorem State.dropRoute_keeps {s0 s : State} (h : Keeps s0 s) :
    ∀ x1, Keeps s0 (State.dropRoute s x1) := by
  intros
  unfold State.dropRoute
  with_reducible repeat' first
    | assumption | intro _ | extract_lets | split | apply State.setJoined_keeps | exact ⟨rfl, rfl, rfl⟩


theorem State.dropSlots_keeps {s0 s : State} (h : Keeps s0 s) :
    ∀ x1 x2, Keeps s0 (State.dropSlots s x1 x2) := by
  intros
  unfold State.dropSlots
  with_reducible repeat' first
    | assumption | intro _ | apply Keeps.ite | split | apply State.changeSlots_keeps


theorem State.plcRestart_keeps {s0 s : State} (h : Keeps s0 s) :
    ∀ x1, Keeps s0 (State.plcRestart s x1) := by
  intros
  unfold State.plcRestart
  with_reducible repeat' first
    | assumption | intro _ | extract_lets | apply Keeps.ite | split | apply State.setChan_keeps
    | apply State.setCoord_keeps | apply Keeps.foldl | apply Keeps.foldl_pair
    | refine Keeps.of_fst (by assumption) ?_ | apply Keeps.mk_upd | exact ⟨rfl, rfl, rfl⟩


theorem State.plcPump_keeps {s0 s : State} (h : Keeps s0 s) :
    ∀ x1, Keeps s0 (State.plcPump s x1).1 := by
  intros
  unfold State.plcPump
  with_reducible repeat' first
    | assumption | intro _ | extract_lets | apply Keeps.ite | split | apply State.downFrame_keeps
    | apply State.setJoined_keeps | exact ⟨rfl, rfl, rfl⟩


theorem State.grantSlot_keeps {s0 s : State} (h : Keeps s0 s) :
    ∀ x1 x2 x3 x4, Keeps s0 (State.grantSlot s x1 x2 x3 x4) := by
  intros
  unfold State.grantSlot
  with_reducible repeat' first
    | assumption | intro _ | extract_lets | apply Keeps.ite | split | apply State.changeSlots_keeps
    | apply State.plcPump_keeps | apply State.queueDown_keeps | exact ⟨rfl, rfl, rfl⟩


theorem State.linkAttempt_keeps {s0 s : State} (h : Keeps s0 s) :
    ∀ x1 x2 x3, Keeps s0 (State.linkAttempt s x1 x2 x3) := by
  intros
  unfold State.linkAttempt
  with_reducible repeat' first
    | assumption | intro _ | extract_lets | apply Keeps.ite | split | apply State.setChan_keeps
    | exact ⟨rfl, rfl, rfl⟩


theorem State.hopAck_keeps {s0 s : State} (h : Keeps s0 s) :
    ∀ x1 x2, Keeps s0 (State.hopAck s x1 x2) := by
  intros
  unfold State.hopAck
  with_reducible repeat' first
    | assumption | intro _ | extract_lets | apply Keeps.ite | split | apply State.attempt_keeps
    | apply State.linkAttempt_keeps | apply State.setChan_keeps | exact ⟨rfl, rfl, rfl⟩


theorem State.learnRoute_keeps {s0 s : State} (h : Keeps s0 s) :
    ∀ x1 x2 x3 x4 x5, Keeps s0 (State.learnRoute s x1 x2 x3 x4 x5) := by
  intros
  unfold State.learnRoute
  with_reducible repeat' first
    | assumption | intro _ | extract_lets | apply Keeps.ite | split | apply State.setJoined_keeps
    | exact ⟨rfl, rfl, rfl⟩


theorem State.setLock_keeps {s0 s : State} (h : Keeps s0 s) :
    ∀ x1 x2 x3, Keeps s0 (State.setLock s x1 x2 x3) := by
  intros
  unfold State.setLock
  with_reducible repeat' first
    | assumption | intro _ | extract_lets | apply Keeps.ite | split | apply State.postIf_keeps
    | apply RegFile.ite_wf | apply RegFile.setF_wf | apply RegFile.flag_wf | apply Keeps.mk_upd
    | exact ⟨rfl, rfl, rfl⟩


theorem State.measured_keeps {s0 s : State} (h : Keeps s0 s) :
    ∀ x1 x2 x3, Keeps s0 (State.measured s x1 x2 x3) := by
  intros
  unfold State.measured
  with_reducible repeat' first
    | assumption | intro _ | extract_lets | apply Keeps.ite | split | apply State.setChan_keeps
    | apply State.setLock_keeps | exact ⟨rfl, rfl, rfl⟩


theorem State.plcAck_keeps {s0 s : State} (h : Keeps s0 s) :
    ∀ x1 x2 x3, Keeps s0 (State.plcAck s x1 x2 x3) := by
  intros
  unfold State.plcAck
  with_reducible repeat' first
    | assumption | apply State.plcSend_keeps


theorem State.plcData_keeps {s0 s : State} (h : Keeps s0 s) :
    ∀ x1 x2 x3, Keeps s0 (State.plcData s x1 x2 x3) := by
  intros
  unfold State.plcData
  with_reducible repeat' first
    | assumption | intro _ | extract_lets | apply Keeps.ite | split | apply State.bump_keeps
    | apply State.learnRoute_keeps | apply State.takeData_keeps | apply State.plcPump_keeps
    | apply State.downFrame_keeps | refine Keeps.of_fst (by assumption) ?_ | exact ⟨rfl, rfl, rfl⟩


theorem State.plcContent_keeps {s0 s : State} (h : Keeps s0 s) :
    ∀ x1 x2 x3, Keeps s0 (State.plcContent s x1 x2 x3) := by
  intros
  unfold State.plcContent
  with_reducible repeat' first
    | assumption | intro _ | extract_lets | apply Keeps.ite | split | apply State.plcData_keeps
    | refine Keeps.of_fst (by assumption) ?_ | apply Keeps.mk_upd | exact ⟨rfl, rfl, rfl⟩


theorem State.plcJoinRsp_keeps {s0 s : State} (h : Keeps s0 s) :
    ∀ x1 x2 x3 x4 x5, Keeps s0 (State.plcJoinRsp s x1 x2 x3 x4 x5) := by
  intros
  unfold State.plcJoinRsp
  with_reducible repeat' first
    | assumption | intro _ | extract_lets | apply Keeps.ite | split | apply State.queueFrame_keeps
    | refine Keeps.of_fst (by assumption) ?_ | apply Keeps.mk_upd | exact ⟨rfl, rfl, rfl⟩


theorem State.toneMapBuild_keeps {s0 s : State} (h : Keeps s0 s) :
    ∀ x1 x2 x3 x4, Keeps s0 (State.toneMapBuild s x1 x2 x3 x4) := by
  intros
  unfold State.toneMapBuild
  with_reducible repeat' first
    | assumption | intro _ | extract_lets | apply Keeps.ite | split | apply State.queueFrame_keeps
    | apply State.setChan_keeps | exact ⟨rfl, rfl, rfl⟩


theorem State.unlock_keeps {s0 s : State} (h : Keeps s0 s) :
    ∀ x1, Keeps s0 (State.unlock s x1) := by
  intros
  unfold State.unlock
  with_reducible repeat' first
    | assumption | intro _ | extract_lets | apply Keeps.ite | split | apply State.setChan_keeps
    | apply State.setLock_keeps | exact ⟨rfl, rfl, rfl⟩


theorem execEnvelopeSend_keeps {s0 s : State} (h : Keeps s0 s) :
    Ends s0 (execEnvelopeSend s) := by
  unfold execEnvelopeSend
  with_reducible repeat' first
    | assumption | intro _ | extract_lets | split | apply State.sealEnvelope_keeps | apply State.plcPump_keeps
    | apply Ends.next | refine Keeps.of_fst (by assumption) ?_ | apply Keeps.mk_upd | exact ⟨rfl, rfl, rfl⟩


theorem execPlcFrameReceive_keeps {s0 s : State} (h : Keeps s0 s) :
    ∀ x0 x1, Ends s0 (execPlcFrameReceive x0 x1 s) := by
  intros
  unfold execPlcFrameReceive
  with_reducible repeat' first
    | assumption | intro _ | extract_lets | apply Keeps.ite | split | apply State.bump_keeps
    | apply State.hopAck_keeps | apply State.toneMapBuild_keeps | apply State.plcContent_keeps
    | apply State.plcAck_keeps | apply Ends.next | exact ⟨rfl, rfl, rfl⟩


theorem execTmUpdate_keeps {s0 s : State} (h : Keeps s0 s) :
    Ends s0 (execTmUpdate s) := by
  unfold execTmUpdate
  with_reducible repeat' first
    | assumption | intro _ | extract_lets | split | apply State.setChan_keeps | apply Ends.next
    | refine Keeps.of_fst (by assumption) ?_ | apply Keeps.mk_upd | exact ⟨rfl, rfl, rfl⟩


theorem execCsmaAttempt_keeps {s0 s : State} (h : Keeps s0 s) :
    ∀ x0 x1 x2, Ends s0 (execCsmaAttempt x0 x1 x2 s) := by
  intros
  unfold execCsmaAttempt
  with_reducible repeat' first
    | assumption | intro _ | extract_lets | apply Keeps.ite | split | apply State.plcFrame_keeps
    | apply State.setChan_keeps | apply State.draw_keeps | apply Ends.next | exact ⟨rfl, rfl, rfl⟩


theorem execPlcAckTimeout_keeps {s0 s : State} (h : Keeps s0 s) :
    ∀ x0, Ends s0 (execPlcAckTimeout x0 s) := by
  intros
  unfold execPlcAckTimeout
  with_reducible repeat' first
    | assumption | intro _ | extract_lets | apply Keeps.ite | split | apply State.attempt_keeps
    | apply State.linkAttempt_keeps | apply State.bump_keeps | apply State.setChan_keeps
    | apply State.dropRoute_keeps | apply Ends.next | exact ⟨rfl, rfl, rfl⟩


theorem execReferenceMeasure_keeps {s0 s : State} (h : Keeps s0 s) :
    ∀ x0 x1, Ends s0 (execReferenceMeasure x0 x1 s) := by
  intros
  unfold execReferenceMeasure
  with_reducible repeat' first
    | assumption | intro _ | extract_lets | apply Keeps.ite | split | apply State.unlock_keeps
    | apply State.measured_keeps | apply State.setChan_keeps | apply Ends.next | exact ⟨rfl, rfl, rfl⟩


theorem execSuperframeStart_keeps {s0 s : State} (h : Keeps s0 s) :
    ∀ x0, Ends s0 (execSuperframeStart x0 s) := by
  intros
  unfold execSuperframeStart
  with_reducible repeat' first
    | assumption | intro _ | extract_lets | apply Keeps.ite | split | apply State.setChan_keeps
    | apply State.setCoord_keeps | apply State.beacon_keeps | apply Ends.next | exact ⟨rfl, rfl, rfl⟩


theorem execSlotReq_keeps {s0 s : State} (h : Keeps s0 s) :
    Ends s0 (execSlotReq s) := by
  unfold execSlotReq
  with_reducible repeat' first
    | assumption | intro _ | extract_lets | apply Keeps.ite | split | apply State.grantSlot_keeps | apply Ends.next
    | apply Ends.ite | refine Keeps.of_fst (by assumption) ?_ | apply Keeps.mk_upd | exact ⟨rfl, rfl, rfl⟩


theorem execBeaconLoss_keeps {s0 s : State} (h : Keeps s0 s) :
    Ends s0 (execBeaconLoss s) := by
  unfold execBeaconLoss
  with_reducible repeat' first
    | assumption | intro _ | extract_lets | apply Keeps.ite | split | apply State.post_keeps | apply Ends.next
    | apply Ends.ite | refine Keeps.of_fst (by assumption) ?_ | apply Keeps.mk_upd | exact ⟨rfl, rfl, rfl⟩


theorem execRouteAdv_keeps {s0 s : State} (h : Keeps s0 s) :
    ∀ x0, Ends s0 (execRouteAdv x0 s) := by
  intros
  unfold execRouteAdv
  with_reducible repeat' first
    | assumption | intro _ | extract_lets | apply Keeps.ite | split | apply State.queueFrame_keeps
    | apply State.setChan_keeps | apply Ends.next | apply Ends.ite | refine Keeps.of_fst (by assumption) ?_
    | apply Keeps.mk_upd | exact ⟨rfl, rfl, rfl⟩


theorem execPlcJoinReq_keeps {s0 s : State} (h : Keeps s0 s) :
    Ends s0 (execPlcJoinReq s) := by
  unfold execPlcJoinReq
  with_reducible repeat' first
    | assumption | intro _ | extract_lets | split | apply State.post_keeps | apply State.bump_keeps
    | apply State.plcJoinRsp_keeps | apply State.draw_keeps | apply State.enter_keeps | apply State.setJoined_keeps
    | apply State.dropSlots_keeps | apply State.plcPump_keeps | apply Ends.next
    | refine Keeps.of_fst (by assumption) ?_ | apply Keeps.mk_upd | exact ⟨rfl, rfl, rfl⟩


theorem execPlcLinkLost_keeps {s0 s : State} (h : Keeps s0 s) :
    ∀ x0, Ends s0 (execPlcLinkLost x0 s) := by
  intros
  unfold execPlcLinkLost
  with_reducible repeat' first
    | assumption | intro _ | extract_lets | apply Keeps.ite | split | apply State.setJoined_keeps
    | apply State.dropSlots_keeps | apply State.dropRoute_keeps | apply State.post_keeps | apply State.bump_keeps
    | apply Ends.next | exact ⟨rfl, rfl, rfl⟩


theorem execE2eResend_keeps {s0 s : State} (h : Keeps s0 s) :
    ∀ x0, Ends s0 (execE2eResend x0 s) := by
  intros
  unfold execE2eResend
  with_reducible repeat' first
    | assumption | intro _ | extract_lets | apply Keeps.ite | split | apply State.dropRoute_keeps
    | apply State.setJoined_keeps | apply State.downFrame_keeps | apply Ends.next | exact ⟨rfl, rfl, rfl⟩


theorem execRouteWaitExpiry_keeps {s0 s : State} (h : Keeps s0 s) :
    ∀ x0, Ends s0 (execRouteWaitExpiry x0 s) := by
  intros
  unfold execRouteWaitExpiry
  with_reducible repeat' first
    | assumption | intro _ | extract_lets | apply Keeps.ite | split | apply State.setJoined_keeps | apply Ends.next
    | exact ⟨rfl, rfl, rfl⟩


end Sys2Proof.Machine
end

