-- ==== Sys2Proof/Laws/KeepsStage.lean ====
section
/-! SUPPORT. The operations of Machine/Stage lead from a state to one that follows from it (Keeps). -/

set_option Elab.async false

namespace Sys2Proof.Machine

theorem State.commitNotice_keeps {s0 s : State} (h : Keeps s0 s) :
    ∀ x1 x2 x3, Keeps s0 (State.commitNotice s x1 x2 x3) := by
  intros
  unfold State.commitNotice
  with_reducible repeat' first
    | assumption | apply State.notify_keeps


theorem State.stageBits_keeps {s0 s : State} (h : Keeps s0 s) :
    ∀ x1 x2 x3, Keeps s0 (State.stageBits s x1 x2 x3) := by
  intros
  unfold State.stageBits
  with_reducible repeat' first
    | assumption | intro _ | extract_lets | apply Keeps.mk_upd | exact ⟨rfl, rfl, rfl⟩


theorem State.stageRelease_keeps {s0 s : State} (h : Keeps s0 s) :
    Keeps s0 (State.stageRelease s) := by
  unfold State.stageRelease
  with_reducible repeat' first
    | assumption | intro _ | extract_lets | apply Keeps.mk_upd | exact ⟨rfl, rfl, rfl⟩


theorem State.stageAcquire_keeps {s0 s : State} (h : Keeps s0 s) :
    ∀ x1, Keeps s0 (State.stageAcquire s x1) := by
  intros
  unfold State.stageAcquire
  with_reducible repeat' first
    | assumption | intro _ | extract_lets | apply Keeps.mk_upd | exact ⟨rfl, rfl, rfl⟩


theorem State.commitDiscard_keeps {s0 s : State} (h : Keeps s0 s) :
    Keeps s0 (State.commitDiscard s) := by
  unfold State.commitDiscard
  with_reducible repeat' first
    | assumption | intro _ | extract_lets | apply Keeps.mk_upd | exact ⟨rfl, rfl, rfl⟩


theorem State.commitGo_keeps {s0 s : State} (h : Keeps s0 s) :
    Keeps s0 (State.commitGo s) := by
  unfold State.commitGo
  with_reducible repeat' first
    | assumption | intro _ | extract_lets | apply Keeps.ite | split | apply Keeps.mk_upd | exact ⟨rfl, rfl, rfl⟩


theorem execStageTimeout_keeps {s0 s : State} (h : Keeps s0 s) :
    Ends s0 (execStageTimeout s) := by
  unfold execStageTimeout
  with_reducible repeat' first
    | assumption | intro _ | extract_lets | apply Keeps.ite | split | apply State.commitNotice_keeps
    | apply State.stageRelease_keeps | apply Ends.next | exact ⟨rfl, rfl, rfl⟩


end Sys2Proof.Machine
end

