-- ==== Sys2Proof/Laws/KeepsStorage.lean ====
section
/-! SUPPORT. The operations of Machine/Storage lead from a state to one that follows from it (Keeps). -/

set_option Elab.async false

namespace Sys2Proof.Machine

theorem State.judgeShare_keeps {s0 s : State} (h : Keeps s0 s) :
    Keeps s0 (State.judgeShare s) := by
  unfold State.judgeShare
  with_reducible repeat' first
    | assumption | intro _ | extract_lets | apply Keeps.ite | split | apply State.postIf_keeps
    | apply RegFile.ite_wf | apply RegFile.setF_wf | apply RegFile.flag_wf | refine Keeps.of_fst (by assumption) ?_
    | apply Keeps.mk_upd | exact ⟨rfl, rfl, rfl⟩


theorem State.journal_keeps {s0 s : State} (h : Keeps s0 s) :
    ∀ x1 x2 x3, Keeps s0 (State.journal s x1 x2 x3) := by
  intros
  unfold State.journal
  with_reducible repeat' first
    | assumption | intro _ | extract_lets | apply Keeps.mk_upd | exact ⟨rfl, rfl, rfl⟩


theorem State.setSb_keeps {s0 s : State} (h : Keeps s0 s) :
    ∀ x1 x2, Keeps s0 (State.setSb s x1 x2) := by
  intros
  unfold State.setSb
  with_reducible repeat' first
    | assumption | intro _ | extract_lets | apply Keeps.mk_upd | exact ⟨rfl, rfl, rfl⟩


theorem State.closeSb_keeps {s0 s : State} (h : Keeps s0 s) :
    ∀ x1, Keeps s0 (State.closeSb s x1) := by
  intros
  unfold State.closeSb
  with_reducible repeat' first
    | assumption | intro _ | extract_lets | apply Keeps.ite | split | apply State.journal_keeps
    | apply State.setSb_keeps | exact ⟨rfl, rfl, rfl⟩


theorem State.poisonUnit_keeps {s0 s : State} (h : Keeps s0 s) :
    ∀ x1, Keeps s0 (State.poisonUnit s x1) := by
  intros
  unfold State.poisonUnit
  with_reducible repeat' first
    | assumption | intro _ | extract_lets | split | apply State.post_keeps | apply State.bump_keeps
    | apply State.journal_keeps | refine Keeps.of_fst (by assumption) ?_ | apply Keeps.mk_upd
    | exact ⟨rfl, rfl, rfl⟩


theorem State.judgeReadonly_keeps {s0 s : State} (h : Keeps s0 s) :
    Keeps s0 (State.judgeReadonly s) := by
  unfold State.judgeReadonly
  with_reducible repeat' first
    | assumption | intro _ | extract_lets | apply Keeps.ite | split | apply State.post_keeps
    | apply State.flag_keeps | apply State.endItem_keeps | apply Keeps.foldl | apply Keeps.foldl_pair
    | apply Ends.next | apply Ends.ite | apply RegFile.ite_wf | apply RegFile.setF_wf | apply RegFile.flag_wf
    | apply RegFile.bump_wf | apply RegFile.put_wf | apply RegFile.setFInt_wf | apply RegFile.put64_wf
    | apply RegFile.foldl_wf | refine Keeps.of_fst (by assumption) ?_ | (dsimp +zetaDelta only; split)
    | apply Keeps.mk_upd | exact ⟨rfl, rfl, rfl⟩


theorem State.dieFails_keeps {s0 s : State} (h : Keeps s0 s) :
    ∀ x1, Keeps s0 (State.dieFails s x1) := by
  intros
  unfold State.dieFails
  with_reducible repeat' first
    | assumption | intro _ | extract_lets | apply Keeps.ite | split | apply State.closeSb_keeps
    | apply State.post_keeps | apply State.flag_keeps | apply State.poisonUnit_keeps
    | apply State.judgeReadonly_keeps | apply State.judgeShare_keeps | apply Keeps.foldl | apply Keeps.foldl_pair
    | refine Keeps.of_fst (by assumption) ?_ | apply Keeps.mk_upd | exact ⟨rfl, rfl, rfl⟩


theorem State.committed_keeps {s0 s : State} (h : Keeps s0 s) :
    ∀ x1, Keeps s0 (State.committed s x1) := by
  intros
  unfold State.committed
  with_reducible repeat' first
    | assumption | intro _ | extract_lets | split | apply State.journal_keeps | apply State.setF_keeps
    | apply Keeps.foldl | apply Keeps.foldl_pair | apply RegFile.setF_wf | apply RegFile.foldl_wf
    | refine Keeps.of_fst (by assumption) ?_ | apply Keeps.mk_upd | exact ⟨rfl, rfl, rfl⟩


theorem State.commitJournal_keeps {s0 s : State} (h : Keeps s0 s) :
    ∀ x1, Keeps s0 (State.commitJournal s x1) := by
  intros
  unfold State.commitJournal
  with_reducible repeat' first
    | assumption | intro _ | extract_lets | apply Keeps.ite | split | apply State.committed_keeps
    | apply State.judgeReadonly_keeps | apply State.judgeShare_keeps | apply State.endItem_keeps | apply Keeps.foldl
    | apply Keeps.foldl_pair | apply RegFile.ite_wf | apply RegFile.setF_wf | apply RegFile.foldl_wf
    | refine Keeps.of_fst (by assumption) ?_ | apply Keeps.mk_upd | exact ⟨rfl, rfl, rfl⟩


theorem State.journalDue_keeps {s0 s : State} (h : Keeps s0 s) :
    Keeps s0 (State.journalDue s) := by
  unfold State.journalDue
  with_reducible repeat' first
    | assumption | apply State.commitJournal_keeps


theorem State.readBoots_keeps {s0 s : State} (h : Keeps s0 s) :
    ∀ x1, Keeps s0 (State.readBoots s x1) := by
  intros
  unfold State.readBoots
  with_reducible repeat' first
    | assumption | intro _ | extract_lets | apply Keeps.ite | split | apply Keeps.mk_upd | exact ⟨rfl, rfl, rfl⟩


theorem State.openSb_keeps {s0 s : State} (h : Keeps s0 s) :
    ∀ x1 x2, ∀ {p}, State.openSb s x1 x2 = some p → Keeps s0 p.1 := by
  intro p slc t e
  unfold State.openSb at e
  dsimp only at e
  split at e
  · cases e
  · cases e
    refine State.judgeShare_keeps (State.journal_keeps (State.setSb_keeps ?_ _ _) _ _ _)
    exact h.of_eq rfl rfl rfl rfl rfl rfl


theorem State.roomIn_keeps {s0 s : State} (h : Keeps s0 s) :
    ∀ x1 x2, ∀ {p}, State.roomIn s x1 x2 = some p → Keeps s0 p.1 := by
  intro p slc t e
  unfold State.roomIn at e
  split at e
  · split at e
    · cases e
      exact h
    · exact State.openSb_keeps (State.closeSb_keeps h _) _ _ e
  · exact State.openSb_keeps h _ _ e


theorem State.program_keeps {s0 s : State} (h : Keeps s0 s) :
    ∀ x1 x2 x3 x4 x5, ∀ {t}, State.program s x1 x2 x3 x4 x5 = some t → Keeps s0 t := by
  intro p slc page item fold t e
  unfold State.program at e
  split at e
  · cases e
  · rename_i s1 n hr
    have g : Keeps s0 s1 := State.roomIn_keeps h _ _ hr
    split at e
    · cases e
    · rename_i b _
      cases e
      have g2 : Keeps s0 (s1.setSb n { b with pages := b.pages ++ [some page] }) := State.setSb_keeps g _ _
      refine State.journal_keeps ?_ _ _ _
      exact g2.of_eq rfl rfl rfl rfl rfl rfl


theorem State.copyUnits_keeps {s0 s : State} (h : Keeps s0 s) :
    ∀ x0 x1 x2, Keeps s0 (State.copyUnits x0 x1 x2 s) := by
  intro p fold l
  induction l generalizing s with
  | nil => exact h
  | cons x l ih =>
    obtain ⟨u, g⟩ := x
    unfold State.copyUnits
    split
    · exact h
    · rename_i s1 e
      have g1 := State.program_keeps h _ _ _ _ _ e
      exact ih ((State.bump_keeps g1 F.STO_GC_UNITS.COUNT 1).of_eq rfl rfl rfl rfl rfl rfl)


theorem State.releaseIfEmpty_keeps {s0 s : State} (h : Keeps s0 s) :
    ∀ x1 x2, Keeps s0 (State.releaseIfEmpty s x1 x2) := by
  intros
  unfold State.releaseIfEmpty
  with_reducible repeat' first
    | assumption | intro _ | extract_lets | apply Keeps.ite | split | apply State.journal_keeps
    | apply State.setSb_keeps | exact ⟨rfl, rfl, rfl⟩


theorem State.storageRestore_keeps {s0 s : State} (h : Keeps s0 s) :
    Keeps s0 (State.storageRestore s) := by
  unfold State.storageRestore
  with_reducible repeat' first
    | assumption | intro _ | extract_lets | apply State.commitJournal_keeps | apply State.releaseIfEmpty_keeps
    | apply State.closeSb_keeps | apply State.journal_keeps | apply State.post_keeps | apply State.flag_keeps
    | apply State.judgeReadonly_keeps | apply State.judgeShare_keeps | apply Keeps.foldl | apply Keeps.foldl_pair
    | apply RegFile.flag_wf | apply RegFile.foldl_wf | apply Keeps.mk_upd | exact ⟨rfl, rfl, rfl⟩


theorem State.writeSector_keeps {s0 s : State} (h : Keeps s0 s) :
    ∀ x1 x2 x3 x4, ∀ {t}, State.writeSector s x1 x2 x3 x4 = some t → Keeps s0 t := by
  intro p lba d item t e
  unfold State.writeSector at e
  exact State.program_keeps h _ _ _ _ _ e


theorem State.pumpWrites_keeps {s0 s : State} (h : Keeps s0 s) :
    ∀ x1 x2, Keeps s0 (State.pumpWrites s x1 x2) := by
  intro p n
  induction n generalizing s with
  | zero => exact h
  | succ n ih =>
    unfold State.pumpWrites
    split
    · exact h
    · split
      · exact h
      · split
        · exact h
        · rename_i s1 e
          exact ih ((State.writeSector_keeps h _ _ _ _ e).of_eq rfl rfl rfl rfl rfl rfl)


theorem State.moveOut_keeps {s0 s : State} (h : Keeps s0 s) :
    ∀ x1 x2 x3 x4, Keeps s0 (State.moveOut s x1 x2 x3 x4) := by
  intros
  unfold State.moveOut
  with_reducible repeat' first
    | assumption | intro _ | extract_lets | apply Keeps.ite | split | apply State.copyUnits_keeps
    | apply State.releaseIfEmpty_keeps | apply State.pumpWrites_keeps


theorem State.readSector_keeps {s0 s : State} (h : Keeps s0 s) :
    ∀ x1 x2, Keeps s0 (State.readSector s x1 x2).1 := by
  intros
  unfold State.readSector
  with_reducible repeat' first
    | assumption | intro _ | extract_lets | apply Keeps.ite | split | apply State.draw_keeps
    | apply State.bump_keeps | exact ⟨rfl, rfl, rfl⟩


theorem State.readSectors_keeps {s0 s : State} (h : Keeps s0 s) :
    ∀ x0 x1 x2, Keeps s0 (State.readSectors x0 x1 x2 s).1 := by
  intro p lba n
  induction n generalizing s lba with
  | zero => exact h
  | succ n ih =>
    unfold State.readSectors
    split
    · rename_i s1 e
      exact Keeps.of_fst e (State.readSector_keeps h _ _)
    · rename_i s1 d e
      have g : Keeps s0 s1 := Keeps.of_fst e (State.readSector_keeps h _ _)
      split
      · rename_i s2 e2
        exact Keeps.of_fst e2 (ih g _)
      · rename_i s2 l e2
        exact Keeps.of_fst e2 (ih g _)


theorem State.storageSave_keeps {s0 s : State} (h : Keeps s0 s) :
    Keeps s0 (State.storageSave s) := by
  unfold State.storageSave
  with_reducible repeat' first
    | assumption | apply State.commitJournal_keeps


theorem State.throttled_keeps {s0 s : State} (h : Keeps s0 s) :
    Keeps s0 (State.throttled s) := by
  unfold State.throttled
  with_reducible repeat' first
    | assumption | apply State.bump_keeps


theorem runBulkSpan_keeps {s0 s : State} (h : Keeps s0 s) :
    ∀ x1 x2, Keeps s0 (runBulkSpan s x1 x2).1 := by
  intros
  unfold runBulkSpan
  with_reducible repeat' first
    | assumption | intro _ | extract_lets | apply Keeps.ite | split | apply State.readSectors_keeps
    | refine Keeps.of_fst (by assumption) ?_ | exact ⟨rfl, rfl, rfl⟩


theorem runBulkSector_keeps {s0 s : State} (h : Keeps s0 s) :
    ∀ x1 x2, Keeps s0 (runBulkSector s x1 x2).1 := by
  intros
  unfold runBulkSector
  with_reducible repeat' first
    | assumption | intro _ | extract_lets | apply Keeps.ite | split | apply State.throttled_keeps
    | apply State.pumpWrites_keeps | apply RegFile.ite_wf | refine Keeps.of_fst (by assumption) ?_
    | apply Keeps.mk_upd | exact ⟨rfl, rfl, rfl⟩


theorem runBulkTrim_keeps {s0 s : State} (h : Keeps s0 s) :
    ∀ x1 x2, Keeps s0 (runBulkTrim s x1 x2).1 := by
  intros
  unfold runBulkTrim
  with_reducible repeat' first
    | assumption | intro _ | extract_lets | apply Keeps.ite | split | apply State.journal_keeps | apply Keeps.foldl
    | apply Keeps.foldl_pair | refine Keeps.of_fst (by assumption) ?_ | apply Keeps.mk_upd | exact ⟨rfl, rfl, rfl⟩


theorem execBulkRead_keeps {s0 s : State} (h : Keeps s0 s) :
    ∀ x0, Ends s0 (execBulkRead x0 s) := by
  intros
  unfold execBulkRead
  with_reducible repeat' first
    | assumption | intro _ | apply State.serve_keeps | apply State.taskCommand_keeps | apply runBulkSpan_keeps
    | apply Ends.next


theorem execBulkWrite_keeps {s0 s : State} (h : Keeps s0 s) :
    ∀ x0, Ends s0 (execBulkWrite x0 s) := by
  intros
  unfold execBulkWrite
  with_reducible repeat' first
    | assumption | intro _ | apply State.serve_keeps | apply State.taskCommand_keeps | apply runBulkSector_keeps
    | apply Ends.next


theorem execBulkDiscard_keeps {s0 s : State} (h : Keeps s0 s) :
    ∀ x0, Ends s0 (execBulkDiscard x0 s) := by
  intros
  unfold execBulkDiscard
  with_reducible repeat' first
    | assumption | intro _ | apply State.serve_keeps | apply State.taskCommand_keeps | apply runBulkTrim_keeps
    | apply Ends.next


theorem execJournalCommit_keeps {s0 s : State} (h : Keeps s0 s) :
    Ends s0 (execJournalCommit s) := by
  unfold execJournalCommit
  with_reducible repeat' first
    | assumption | apply State.commitJournal_keeps | apply Ends.next


theorem execMapCheckpoint_keeps {s0 s : State} (h : Keeps s0 s) :
    Ends s0 (execMapCheckpoint s) := by
  unfold execMapCheckpoint
  with_reducible repeat' first
    | assumption | intro _ | extract_lets | apply Keeps.ite | split | apply Ends.next | apply Ends.ite
    | apply Keeps.mk_upd | exact ⟨rfl, rfl, rfl⟩


theorem execFoldBlock_keeps {s0 s : State} (h : Keeps s0 s) :
    Ends s0 (execFoldBlock s) := by
  unfold execFoldBlock
  with_reducible repeat' first
    | assumption | intro _ | extract_lets | apply Keeps.ite | split | apply State.moveOut_keeps | apply Ends.next
    | exact ⟨rfl, rfl, rfl⟩


theorem execCollectionJob_keeps {s0 s : State} (h : Keeps s0 s) :
    Ends s0 (execCollectionJob s) := by
  unfold execCollectionJob
  with_reducible repeat' first
    | assumption | intro _ | extract_lets | apply Keeps.ite | split | apply State.setSb_keeps
    | apply State.moveOut_keeps | apply State.judgeShare_keeps | apply State.flag_keeps | apply Ends.next
    | apply Ends.ite | refine Keeps.of_fst (by assumption) ?_ | apply Keeps.mk_upd | exact ⟨rfl, rfl, rfl⟩


theorem execBlockEraseDone_keeps {s0 s : State} (h : Keeps s0 s) :
    ∀ x0 x1, Ends s0 (execBlockEraseDone x0 x1 s) := by
  intros
  unfold execBlockEraseDone
  with_reducible repeat' first
    | assumption | intro _ | extract_lets | apply Keeps.ite | split | apply State.journal_keeps | apply Ends.next
    | apply Ends.ite | apply Keeps.mk_upd | exact ⟨rfl, rfl, rfl⟩


theorem execPageRead_keeps {s0 s : State} (h : Keeps s0 s) :
    ∀ x0 x1 x2 x3 x4 x5, Ends s0 (execPageRead x0 x1 x2 x3 x4 x5 s) := by
  intros
  unfold execPageRead
  with_reducible repeat' first
    | assumption | intro _ | extract_lets | apply Keeps.ite | split | apply State.bump_keeps
    | apply State.setSb_keeps | apply State.poisonUnit_keeps | apply Ends.next | exact ⟨rfl, rfl, rfl⟩


theorem execProgramFail_keeps {s0 s : State} (h : Keeps s0 s) :
    ∀ x0, Ends s0 (execProgramFail x0 s) := by
  intros
  unfold execProgramFail
  with_reducible repeat' first
    | assumption | intro _ | extract_lets | apply Keeps.ite | split | apply State.post_keeps
    | apply State.bump_keeps | apply State.journal_keeps | apply State.setSb_keeps
    | refine State.program_keeps ?_ _ _ _ _ _ (by assumption) | apply Ends.next | apply Ends.ite
    | refine Keeps.of_fst (by assumption) ?_ | apply Keeps.mk_upd | exact ⟨rfl, rfl, rfl⟩


theorem execEraseFail_keeps {s0 s : State} (h : Keeps s0 s) :
    ∀ x0 x1, Ends s0 (execEraseFail x0 x1 s) := by
  intros
  unfold execEraseFail
  with_reducible repeat' first
    | assumption | intro _ | extract_lets | apply Keeps.ite | split | apply State.setF_keeps
    | apply State.bump_keeps | apply State.judgeReadonly_keeps | apply State.journal_keeps | apply Ends.next
    | apply Ends.ite | apply Keeps.mk_upd | exact ⟨rfl, rfl, rfl⟩


theorem execDieFail_keeps {s0 s : State} (h : Keeps s0 s) :
    ∀ x0, Ends s0 (execDieFail x0 s) := by
  intros
  unfold execDieFail
  with_reducible repeat' first
    | assumption | apply State.dieFails_keeps | apply Ends.next


theorem execThrottleTimeout_keeps {s0 s : State} (h : Keeps s0 s) :
    Ends s0 (execThrottleTimeout s) := by
  unfold execThrottleTimeout
  with_reducible repeat' first
    | assumption | intro _ | extract_lets | apply State.endItem_keeps | apply State.throttled_keeps
    | apply Keeps.foldl | apply Keeps.foldl_pair | apply Ends.next | apply Keeps.mk_upd | exact ⟨rfl, rfl, rfl⟩


theorem execScrub_keeps {s0 s : State} (h : Keeps s0 s) :
    ∀ x0 x1 x2, Ends s0 (execScrub x0 x1 x2 s) := by
  intros
  unfold execScrub
  with_reducible repeat' first
    | assumption | intro _ | extract_lets | apply Keeps.ite | split | apply State.setSb_keeps | apply Ends.next
    | exact ⟨rfl, rfl, rfl⟩


end Sys2Proof.Machine
end

