-- ==== Sys2Proof/Laws/KeepsCommit.lean ====
section
/-! SUPPORT. The operations of Machine/Commit lead from a state to one that follows from it (Keeps). -/

set_option Elab.async false

namespace Sys2Proof.Machine

theorem State.afterCommit_keeps {s0 s : State} (h : Keeps s0 s) :
    ∀ x1, Keeps s0 (State.afterCommit s x1) := by
  intros
  unfold State.afterCommit
  with_reducible repeat' first
    | assumption | intro _ | extract_lets | apply Keeps.ite | split | apply State.leaveCoord_keeps
    | apply State.showBuffer_keeps | apply State.judgeShare_keeps | apply Keeps.foldl


theorem State.applyCommit_keeps {s0 s : State} (h : Keeps s0 s) :
    Keeps s0 (State.applyCommit s) := by
  unfold State.applyCommit
  with_reducible repeat' first
    | assumption | intro _ | extract_lets | apply Keeps.ite | split | apply State.commitNotice_keeps
    | apply State.afterCommit_keeps | apply Keeps.foldl | apply Keeps.foldl_pair | apply RegFile.ite_wf
    | apply RegFile.setF_wf | apply RegFile.put_wf | apply RegFile.foldl_wf | refine Keeps.of_fst (by assumption) ?_
    | apply Keeps.mk_upd | exact ⟨rfl, rfl, rfl⟩


theorem State.judgeCommit_keeps {s0 s : State} (h : Keeps s0 s) :
    Keeps s0 (State.judgeCommit s) := by
  unfold State.judgeCommit
  with_reducible repeat' first
    | assumption | intro _ | extract_lets | split | apply State.commitNotice_keeps | apply RegFile.setF_wf
    | apply RegFile.put_wf | refine Keeps.of_fst (by assumption) ?_ | apply Keeps.mk_upd | exact ⟨rfl, rfl, rfl⟩


theorem execCommitCheck_follows {s0 s : State} (h : Follows s0 s) : Moves s0 (execCommitCheck s) := by
  unfold execCommitCheck
  extract_lets _ s1
  have g : Follows s0 s1 := h.of_eq rfl rfl rfl rfl
  refine Moves.next ?_
  split
  · exact g.keeps (State.judgeCommit_keeps (Keeps.refl _))
  · exact g


theorem execCommitApply_keeps {s0 s : State} (h : Keeps s0 s) :
    Ends s0 (execCommitApply s) := by
  unfold execCommitApply
  with_reducible repeat' first
    | assumption | apply State.applyCommit_keeps | apply Ends.next


end Sys2Proof.Machine
end

