-- ==== Sys2Proof/Laws/KeepsLegal.lean ====
section
/-! SUPPORT. The operations of Machine/Legal lead from a state to one that follows from it (Keeps). -/

set_option Elab.async false

namespace Sys2Proof.Machine

theorem State.legalLog_keeps {s0 s : State} (h : Keeps s0 s) :
    ∀ x1 x2 x3, Keeps s0 (State.legalLog s x1 x2 x3) := by
  intros
  unfold State.legalLog
  with_reducible repeat' first
    | assumption | intro _ | extract_lets | apply Keeps.ite | split | apply RegFile.ite_wf | apply RegFile.setF_wf
    | apply Keeps.mk_upd | exact ⟨rfl, rfl, rfl⟩


theorem State.ringEntry_keeps {s0 s : State} (h : Keeps s0 s) :
    ∀ x1, Keeps s0 (State.ringEntry s x1) := by
  intros
  unfold State.ringEntry
  with_reducible repeat' first
    | assumption | intro _ | extract_lets | apply State.export__keeps | apply Keeps.mk_upd | exact ⟨rfl, rfl, rfl⟩


theorem State.writeRing_keeps {s0 s : State} (h : Keeps s0 s) :
    Keeps s0 (State.writeRing s) := by
  unfold State.writeRing
  with_reducible repeat' first
    | assumption | intro _ | extract_lets | apply State.ringEntry_keeps | apply Keeps.foldl | apply Keeps.foldl_pair
    | apply Keeps.mk_upd | exact ⟨rfl, rfl, rfl⟩


theorem State.keypadCfg_keeps {s0 s : State} (h : Keeps s0 s) :
    Keeps s0 (State.keypadCfg s) := by
  unfold State.keypadCfg
  with_reducible repeat' first
    | assumption | apply State.request_keeps


end Sys2Proof.Machine
end

