-- ==== Sys2Proof/Laws/KeepsMetering.lean ====
section
/-! SUPPORT. The operations of Machine/Metering lead from a state to one that follows from it (Keeps). -/

set_option Elab.async false

namespace Sys2Proof.Machine

theorem State.drive_keeps {s0 s : State} (h : Keeps s0 s) :
    ∀ x1 x2, Keeps s0 (State.drive s x1 x2) := by
  intros
  unfold State.drive
  with_reducible repeat' first
    | assumption | intro _ | apply Keeps.ite | split | apply State.send_keeps


theorem State.stopPulses_keeps {s0 s : State} (h : Keeps s0 s) :
    Keeps s0 (State.stopPulses s) := by
  unfold State.stopPulses
  with_reducible repeat' first
    | assumption | intro _ | extract_lets | apply Keeps.ite | split | apply State.drive_keeps | apply Keeps.foldl
    | apply Keeps.foldl_pair | apply RegFile.ite_wf | apply RegFile.setF_wf | apply RegFile.flag_wf
    | apply RegFile.foldl_wf | apply Keeps.mk_upd | exact ⟨rfl, rfl, rfl⟩


theorem State.partFailed_keeps {s0 s : State} (h : Keeps s0 s) :
    ∀ x1 x2 x3, Keeps s0 (State.partFailed s x1 x2 x3) := by
  intros
  unfold State.partFailed
  with_reducible repeat' first
    | assumption | intro _ | extract_lets | apply Keeps.ite | split | apply State.post_keeps | apply RegFile.ite_wf
    | apply RegFile.flag_wf | apply RegFile.bump_wf | apply Keeps.mk_upd | exact ⟨rfl, rfl, rfl⟩


theorem State.writeCheckpoint_keeps {s0 s : State} (h : Keeps s0 s) :
    ∀ x1 x2, Keeps s0 (State.writeCheckpoint s x1 x2) := by
  intros
  unfold State.writeCheckpoint
  with_reducible repeat' first
    | assumption | intro _ | extract_lets | apply Keeps.ite | split | apply State.partFailed_keeps
    | apply RegFile.ite_wf | apply RegFile.setF_wf | apply Keeps.mk_upd | exact ⟨rfl, rfl, rfl⟩


theorem State.feedPulses_keeps {s0 s : State} (h : Keeps s0 s) :
    ∀ x1 x2 x3, Keeps s0 (State.feedPulses s x1 x2 x3) := by
  intros
  unfold State.feedPulses
  with_reducible repeat' first
    | assumption | intro _ | extract_lets | apply Keeps.ite | split | apply State.postIf_keeps | apply Keeps.foldl
    | apply Keeps.foldl_pair | apply RegFile.ite_wf | apply RegFile.setF_wf | apply RegFile.flag_wf
    | apply RegFile.foldl_wf | refine Keeps.of_fst (by assumption) ?_ | apply Keeps.mk_upd | exact ⟨rfl, rfl, rfl⟩


theorem State.showPoint_keeps {s0 s : State} (h : Keeps s0 s) :
    ∀ x1 x2 x3, Keeps s0 (State.showPoint s x1 x2 x3) := by
  intros
  unfold State.showPoint
  with_reducible repeat' first
    | assumption | intro _ | extract_lets | apply Keeps.ite | split | apply Keeps.foldl | apply Keeps.foldl_pair
    | apply RegFile.ite_wf | apply RegFile.setF_wf | apply RegFile.flag_wf | apply RegFile.put64_wf
    | apply RegFile.foldl_wf | apply Keeps.mk_upd | exact ⟨rfl, rfl, rfl⟩


theorem State.meterPoint_keeps {s0 s : State} (h : Keeps s0 s) :
    ∀ x1 x2, Keeps s0 (State.meterPoint s x1 x2) := by
  intros
  unfold State.meterPoint
  with_reducible repeat' first
    | assumption | intro _ | extract_lets | apply Keeps.ite | split | apply State.feedPulses_keeps
    | apply State.showPoint_keeps | apply Keeps.foldl | apply Keeps.foldl_pair | apply RegFile.ite_wf
    | apply RegFile.flag_wf | apply RegFile.setFInt_wf | apply RegFile.foldl_wf
    | refine Keeps.of_fst (by assumption) ?_ | apply Keeps.mk_upd | exact ⟨rfl, rfl, rfl⟩


theorem State.legalMetPace_keeps {s0 s : State} (h : Keeps s0 s) :
    ∀ x1, Keeps s0 (State.legalMetPace s x1) := by
  intros
  unfold State.legalMetPace
  with_reducible repeat' first
    | assumption | intro _ | extract_lets | apply Keeps.ite | split | apply State.flag_keeps
    | apply State.meterPoint_keeps | apply Keeps.foldl | apply Keeps.foldl_pair | apply Keeps.mk_upd
    | exact ⟨rfl, rfl, rfl⟩


theorem State.closeInterval_keeps {s0 s : State} (h : Keeps s0 s) :
    ∀ x1 x2 x3 x4 x5, Keeps s0 (State.closeInterval s x1 x2 x3 x4 x5) := by
  intros
  unfold State.closeInterval
  with_reducible repeat' first
    | assumption | intro _ | extract_lets | apply Keeps.ite | split | apply State.export__keeps
    | apply RegFile.ite_wf | apply RegFile.setF_wf | apply RegFile.flag_wf | apply Keeps.mk_upd
    | exact ⟨rfl, rfl, rfl⟩


theorem State.intervalDue_keeps {s0 s : State} (h : Keeps s0 s) :
    ∀ x0 x2, Keeps s0 (State.intervalDue x0 s x2) := by
  intros
  unfold State.intervalDue
  with_reducible repeat' first
    | assumption | intro _ | extract_lets | apply Keeps.ite | split | apply State.closeInterval_keeps
    | exact ⟨rfl, rfl, rfl⟩


theorem State.intervalsDue_keeps {s0 s : State} (h : Keeps s0 s) :
    ∀ x1, Keeps s0 (State.intervalsDue s x1) := by
  intros
  unfold State.intervalsDue
  with_reducible repeat' first
    | assumption | intro _ | apply State.intervalDue_keeps | apply Keeps.foldl | apply Keeps.foldl_pair


theorem State.tickPulses_keeps {s0 s : State} (h : Keeps s0 s) :
    Keeps s0 (State.tickPulses s) := by
  unfold State.tickPulses
  with_reducible repeat' first
    | assumption | intro _ | extract_lets | apply Keeps.mk_upd | exact ⟨rfl, rfl, rfl⟩


theorem execIntervalClose_keeps {s0 s : State} (h : Keeps s0 s) :
    ∀ x0, Ends s0 (execIntervalClose x0 s) := by
  intros
  unfold execIntervalClose
  with_reducible repeat' first
    | assumption | intro _ | apply Keeps.ite | split | apply State.intervalDue_keeps | apply Ends.next
    | apply Ends.ite


theorem execPulseEmit_keeps {s0 s : State} (h : Keeps s0 s) :
    ∀ x0, Ends s0 (execPulseEmit x0 s) := by
  intros
  unfold execPulseEmit
  with_reducible repeat' first
    | assumption | intro _ | extract_lets | apply Keeps.ite | split | apply State.drive_keeps | apply Ends.next
    | apply Ends.ite | apply RegFile.ite_wf | apply RegFile.setF_wf | apply RegFile.flag_wf
    | refine Keeps.of_fst (by assumption) ?_ | apply Keeps.mk_upd | exact ⟨rfl, rfl, rfl⟩


theorem execPulseWidthEnd_keeps {s0 s : State} (h : Keeps s0 s) :
    ∀ x0, Ends s0 (execPulseWidthEnd x0 s) := by
  intros
  unfold execPulseWidthEnd
  with_reducible repeat' first
    | assumption | intro _ | extract_lets | apply Keeps.ite | split | apply State.drive_keeps | apply Ends.next
    | apply Ends.ite | apply RegFile.ite_wf | apply RegFile.setF_wf | apply RegFile.flag_wf
    | refine Keeps.of_fst (by assumption) ?_ | apply Keeps.mk_upd | exact ⟨rfl, rfl, rfl⟩


end Sys2Proof.Machine
end

