-- ==== Sys2Proof/Laws/KeepsTariff.lean ====
section
/-! SUPPORT. The operations of Machine/Tariff lead from a state to one that follows from it (Keeps). -/

set_option Elab.async false

namespace Sys2Proof.Machine

theorem showTar_wf {m : RegFile} (n : Nat) (p : PointTar) (h : m.wf = true) : (showTar m n p).wf = true := by
  unfold showTar
  refine RegFile.setF_wf _ _ (RegFile.setF_wf _ _ (RegFile.flag_wf _ _ (RegFile.setF_wf _ _ ?_)))
  refine RegFile.foldl_wf _ (fun m x hm => RegFile.setF_wf _ _ (RegFile.setF_wf _ _ hm)) ?_
  exact RegFile.foldl_wf _ (fun m x hm => RegFile.put64_wf _ _ hm) h

theorem State.setCal_keeps {s0 s : State} (h : Keeps s0 s) :
    ∀ x1 x2, Keeps s0 (State.setCal s x1 x2) := by
  intros
  unfold State.setCal
  with_reducible repeat' first
    | assumption | intro _ | extract_lets | apply RegFile.setF_wf | apply RegFile.flag_wf | apply Keeps.mk_upd
    | exact ⟨rfl, rfl, rfl⟩


theorem State.setTar_keeps {s0 s : State} (h : Keeps s0 s) :
    ∀ x1 x2, Keeps s0 (State.setTar s x1 x2) := by
  intros
  unfold State.setTar
  with_reducible repeat' first
    | assumption | intro _ | extract_lets | apply showTar_wf | apply Keeps.mk_upd | exact ⟨rfl, rfl, rfl⟩


theorem State.activateCal_keeps {s0 s : State} (h : Keeps s0 s) :
    ∀ x1 x2, Keeps s0 (State.activateCal s x1 x2) := by
  intros
  unfold State.activateCal
  with_reducible repeat' first
    | assumption | intro _ | extract_lets | apply Keeps.ite | split | apply State.setCal_keeps
    | apply State.post_keeps | apply State.setTar_keeps | apply State.legalLog_keeps | apply Keeps.foldl
    | apply Keeps.foldl_pair | refine Keeps.of_fst (by assumption) ?_ | apply Keeps.mk_upd | exact ⟨rfl, rfl, rfl⟩


theorem State.flagSubs_keeps {s0 s : State} (h : Keeps s0 s) :
    ∀ x1, Keeps s0 (State.flagSubs s x1) := by
  intros
  unfold State.flagSubs
  with_reducible repeat' first
    | assumption | intro _ | extract_lets | apply Keeps.ite | split | apply State.setTar_keeps | apply Keeps.foldl
    | apply Keeps.foldl_pair | apply Keeps.mk_upd | exact ⟨rfl, rfl, rfl⟩


theorem State.demandClose_keeps {s0 s : State} (h : Keeps s0 s) :
    ∀ x1 x2, Keeps s0 (State.demandClose s x1 x2) := by
  intros
  unfold State.demandClose
  with_reducible repeat' first
    | assumption | intro _ | extract_lets | split | apply State.setTar_keeps
    | refine Keeps.of_fst (by assumption) ?_ | apply Keeps.mk_upd | exact ⟨rfl, rfl, rfl⟩


theorem State.billClose_keeps {s0 s : State} (h : Keeps s0 s) :
    ∀ x1 x2 x3, Keeps s0 (State.billClose s x1 x2 x3) := by
  intros
  unfold State.billClose
  with_reducible repeat' first
    | assumption | intro _ | extract_lets | apply Keeps.ite | split | apply State.setTar_keeps
    | apply State.legalLog_keeps | apply State.export__keeps | refine Keeps.of_fst (by assumption) ?_
    | apply Keeps.mk_upd | exact ⟨rfl, rfl, rfl⟩


theorem State.performBoundary_keeps {s0 s : State} (h : Keeps s0 s) :
    ∀ x1 x2, Keeps s0 (State.performBoundary s x1 x2) := by
  intros
  unfold State.performBoundary
  with_reducible repeat' first
    | assumption | intro _ | extract_lets | split | apply State.demandClose_keeps | apply State.activateCal_keeps
    | apply State.billClose_keeps | exact ⟨rfl, rfl, rfl⟩


theorem State.performBoundaries_keeps {s0 s : State} (h : Keeps s0 s) :
    ∀ x0 x1 x2, Keeps s0 (State.performBoundaries x0 x1 x2 s) := by
  intro c t n
  induction n generalizing s with
  | zero => exact h
  | succ n ih =>
    unfold State.performBoundaries
    split
    · exact h
    · exact ih (State.performBoundary_keeps h _ _)


theorem State.tarJump_keeps {s0 s : State} (h : Keeps s0 s) :
    Keeps s0 (State.tarJump s) := by
  unfold State.tarJump
  with_reducible repeat' first
    | assumption | apply State.performBoundaries_keeps


theorem State.tarRestarted_keeps {s0 s : State} (h : Keeps s0 s) :
    Keeps s0 (State.tarRestarted s) := by
  unfold State.tarRestarted
  with_reducible repeat' first
    | assumption | intro _ | extract_lets | apply Keeps.ite | split | apply State.setTar_keeps
    | apply State.flagSubs_keeps | apply State.tarJump_keeps | apply Keeps.foldl | apply Keeps.foldl_pair
    | refine Keeps.of_fst (by assumption) ?_ | apply Keeps.mk_upd | exact ⟨rfl, rfl, rfl⟩


theorem State.showTarStat_keeps {s0 s : State} (h : Keeps s0 s) :
    Keeps s0 (State.showTarStat s) := by
  unfold State.showTarStat
  with_reducible repeat' first
    | assumption | intro _ | extract_lets | apply RegFile.setF_wf | apply RegFile.flag_wf | apply RegFile.put64_wf
    | apply Keeps.mk_upd | exact ⟨rfl, rfl, rfl⟩


theorem State.selectPoint_keeps {s0 s : State} (h : Keeps s0 s) :
    ∀ x1, Keeps s0 (State.selectPoint s x1) := by
  intros
  unfold State.selectPoint
  with_reducible repeat' first
    | assumption | intro _ | extract_lets | apply Keeps.ite | split | apply State.postIf_keeps
    | apply State.setTar_keeps | exact ⟨rfl, rfl, rfl⟩


theorem State.selectRates_keeps {s0 s : State} (h : Keeps s0 s) :
    Keeps s0 (State.selectRates s) := by
  unfold State.selectRates
  with_reducible repeat' first
    | assumption | intro _ | apply State.showTarStat_keeps | apply State.selectPoint_keeps | apply Keeps.foldl


theorem State.writeTarRecord_keeps {s0 s : State} (h : Keeps s0 s) :
    ∀ x1, Keeps s0 (State.writeTarRecord s x1) := by
  intros
  unfold State.writeTarRecord
  with_reducible repeat' first
    | assumption | intro _ | extract_lets | apply Keeps.ite | split | apply State.partFailed_keeps
    | apply State.writeRing_keeps | apply RegFile.ite_wf | apply Keeps.mk_upd | exact ⟨rfl, rfl, rfl⟩


theorem State.finishTar_keeps {s0 s : State} (h : Keeps s0 s) :
    ∀ x1, Keeps s0 (State.finishTar s x1) := by
  intros
  unfold State.finishTar
  with_reducible repeat' first
    | assumption | intro _ | extract_lets | apply Keeps.ite | split | apply State.tarRestarted_keeps
    | apply State.performBoundaries_keeps | apply State.selectRates_keeps | apply State.writeCheckpoint_keeps
    | apply State.writeTarRecord_keeps | apply Keeps.mk_upd | exact ⟨rfl, rfl, rfl⟩


theorem State.registerPace_keeps {s0 s : State} (h : Keeps s0 s) :
    ∀ x0 x2, Keeps s0 (State.registerPace x0 s x2) := by
  intros
  unfold State.registerPace
  with_reducible repeat' first
    | assumption | intro _ | extract_lets | apply Keeps.ite | split | apply State.setTar_keeps
    | refine Keeps.of_fst (by assumption) ?_ | apply Keeps.mk_upd | exact ⟨rfl, rfl, rfl⟩


theorem State.registerPaces_keeps {s0 s : State} (h : Keeps s0 s) :
    ∀ x1, Keeps s0 (State.registerPaces s x1) := by
  intros
  unfold State.registerPaces
  with_reducible repeat' first
    | assumption | intro _ | apply State.registerPace_keeps | apply Keeps.foldl


theorem State.toTar_keeps {s0 s : State} (h : Keeps s0 s) :
    ∀ x1 x2 x3, Keeps s0 (State.toTar s x1 x2 x3) := by
  intros
  unfold State.toTar
  with_reducible repeat' first
    | assumption | intro _ | extract_lets | apply Keeps.ite | split | apply State.intervalsDue_keeps
    | apply State.writeCheckpoint_keeps | apply State.registerPaces_keeps | apply Keeps.mk_upd
    | exact ⟨rfl, rfl, rfl⟩


theorem State.finalCheckpoint_keeps {s0 s : State} (h : Keeps s0 s) :
    ∀ x1, Keeps s0 (State.finalCheckpoint s x1) := by
  intros
  unfold State.finalCheckpoint
  with_reducible repeat' first
    | assumption | intro _ | extract_lets | apply Keeps.ite | split | apply State.finishTar_keeps
    | apply State.legalMetPace_keeps | apply State.toTar_keeps | apply Keeps.mk_upd | exact ⟨rfl, rfl, rfl⟩


theorem State.performUntil_keeps {s0 s : State} (h : Keeps s0 s) :
    ∀ x0 x1, Keeps s0 (State.performUntil x0 x1 s) := by
  intro x n
  induction n generalizing s with
  | zero => exact h
  | succ n ih =>
    unfold State.performUntil
    split
    · exact h
    · split
      · exact State.performBoundary_keeps h _ _
      · exact ih (State.performBoundary_keeps h _ _)


theorem State.boundaryStep_keeps {s0 s : State} (h : Keeps s0 s) :
    ∀ x1, Keeps s0 (State.boundaryStep s x1) := by
  intros
  unfold State.boundaryStep
  with_reducible repeat' first
    | assumption | intro _ | extract_lets | apply Keeps.ite | split | apply State.toTar_keeps
    | apply State.tarRestarted_keeps | apply State.performUntil_keeps | apply Keeps.foldl | apply Keeps.foldl_pair
    | apply Ends.next | apply Ends.ite | apply RegFile.ite_wf | apply RegFile.setF_wf | apply RegFile.flag_wf
    | apply RegFile.bump_wf | apply RegFile.put_wf | apply RegFile.setFInt_wf | apply RegFile.put64_wf
    | apply RegFile.foldl_wf | refine Keeps.of_fst (by assumption) ?_ | (dsimp +zetaDelta only; split)
    | apply Keeps.mk_upd | exact ⟨rfl, rfl, rfl⟩


theorem State.switchUnbound_keeps {s0 s : State} (h : Keeps s0 s) :
    Keeps s0 (State.switchUnbound s) := by
  unfold State.switchUnbound
  with_reducible repeat' first
    | assumption | intro _ | extract_lets | apply Keeps.ite | split | apply State.activateCal_keeps
    | apply Keeps.foldl | apply Keeps.foldl_pair | refine Keeps.of_fst (by assumption) ?_ | apply Keeps.mk_upd
    | exact ⟨rfl, rfl, rfl⟩


theorem State.finishLegal_keeps {s0 s : State} (h : Keeps s0 s) :
    ∀ x1, Keeps s0 (State.finishLegal s x1) := by
  intros
  unfold State.finishLegal
  with_reducible repeat' first
    | assumption | apply State.finishTar_keeps | apply State.toTar_keeps


theorem State.setBackPoint_keeps {s0 s : State} (h : Keeps s0 s) :
    ∀ x0 x2, Keeps s0 (State.setBackPoint x0 s x2) := by
  intros
  unfold State.setBackPoint
  with_reducible repeat' first
    | assumption | intro _ | extract_lets | apply Keeps.ite | split | apply State.setTar_keeps
    | apply State.closeInterval_keeps | refine Keeps.of_fst (by assumption) ?_ | apply Keeps.mk_upd
    | exact ⟨rfl, rfl, rfl⟩


theorem State.setBack_keeps {s0 s : State} (h : Keeps s0 s) :
    ∀ x1, Keeps s0 (State.setBack s x1) := by
  intros
  unfold State.setBack
  with_reducible repeat' first
    | assumption | intro _ | extract_lets | apply State.setBackPoint_keeps | apply State.legalLog_keeps
    | apply State.post_keeps | apply Keeps.foldl | apply Keeps.foldl_pair | apply RegFile.bump_wf
    | apply RegFile.foldl_wf | apply Keeps.mk_upd | exact ⟨rfl, rfl, rfl⟩


theorem State.tarForward_keeps {s0 s : State} (h : Keeps s0 s) :
    Keeps s0 (State.tarForward s) := by
  unfold State.tarForward
  with_reducible repeat' first
    | assumption | intro _ | extract_lets | apply State.flagSubs_keeps | apply State.tarJump_keeps
    | apply Keeps.mk_upd | exact ⟨rfl, rfl, rfl⟩


theorem execCheckpointWrite_keeps {s0 s : State} (h : Keeps s0 s) :
    ∀ x0, Ends s0 (execCheckpointWrite x0 s) := by
  intros
  unfold execCheckpointWrite
  with_reducible repeat' first
    | assumption | apply State.finishLegal_keeps | apply Ends.next


theorem execDemandClose_keeps {s0 s : State} (h : Keeps s0 s) :
    ∀ x0, Ends s0 (execDemandClose x0 s) := by
  intros
  unfold execDemandClose
  with_reducible repeat' first
    | assumption | intro _ | extract_lets | split | apply State.boundaryStep_keeps | apply Ends.next
    | exact ⟨rfl, rfl, rfl⟩


theorem execTariffSwitch_keeps {s0 s : State} (h : Keeps s0 s) :
    ∀ x0, Ends s0 (execTariffSwitch x0 s) := by
  intros
  unfold execTariffSwitch
  with_reducible repeat' first
    | assumption | intro _ | extract_lets | apply Keeps.ite | split | apply State.activateCal_keeps
    | apply State.boundaryStep_keeps | apply Ends.next | exact ⟨rfl, rfl, rfl⟩


theorem execPointBillingClose_keeps {s0 s : State} (h : Keeps s0 s) :
    ∀ x0, Ends s0 (execPointBillingClose x0 s) := by
  intros
  unfold execPointBillingClose
  with_reducible repeat' first
    | assumption | intro _ | extract_lets | split | apply State.boundaryStep_keeps | apply Ends.next
    | exact ⟨rfl, rfl, rfl⟩


end Sys2Proof.Machine
end

