-- ==== Sys2Proof/Laws/KeepsSealedStart.lean ====
section
/-! SUPPORT. The operations of Machine/SealedStart lead from a state to one that follows from it (Keeps). -/

set_option Elab.async false

namespace Sys2Proof.Machine

theorem showCheck_wf {m : RegFile} (v : BitVec 256) (h : m.wf = true) : (showCheck m v).wf = true := by
  unfold showCheck
  exact RegFile.foldl_wf _ (fun m x hm => RegFile.put_wf _ _ hm) h

theorem State.sealedCleared_keeps {s0 s : State} (h : Keeps s0 s) :
    Keeps s0 (State.sealedCleared s) := by
  unfold State.sealedCleared
  with_reducible repeat' first
    | assumption | intro _ | extract_lets | apply State.flag_keeps | apply Keeps.mk_upd | exact ⟨rfl, rfl, rfl⟩


theorem State.restoreTarPoint_keeps {s0 s : State} (h : Keeps s0 s) :
    ∀ x0 x2, Keeps s0 (State.restoreTarPoint x0 s x2) := by
  intros
  unfold State.restoreTarPoint
  with_reducible repeat' first
    | assumption | intro _ | extract_lets | split | apply State.setTar_keeps | exact ⟨rfl, rfl, rfl⟩


theorem State.restoreTariff_keeps {s0 s : State} (h : Keeps s0 s) :
    Keeps s0 (State.restoreTariff s) := by
  unfold State.restoreTariff
  with_reducible repeat' first
    | assumption | intro _ | extract_lets | apply Keeps.ite | split | apply State.restoreTarPoint_keeps
    | apply State.legalLog_keeps | apply State.post_keeps | apply State.showTarStat_keeps
    | apply State.export__keeps | apply Keeps.foldl | apply Keeps.foldl_pair | apply RegFile.ite_wf
    | apply RegFile.flag_wf | apply RegFile.foldl_wf | refine Keeps.of_fst (by assumption) ?_ | apply Keeps.mk_upd
    | exact ⟨rfl, rfl, rfl⟩


theorem State.restorePulses_keeps {s0 s : State} (h : Keeps s0 s) :
    ∀ x1, Keeps s0 (State.restorePulses s x1) := by
  intros
  unfold State.restorePulses
  with_reducible repeat' first
    | assumption | intro _ | extract_lets | split | apply State.stopPulses_keeps
    | refine Keeps.of_fst (by assumption) ?_ | apply Keeps.mk_upd | exact ⟨rfl, rfl, rfl⟩


theorem State.restorePoint_keeps {s0 s : State} (h : Keeps s0 s) :
    ∀ x0 x1 x2 x4, Keeps s0 (State.restorePoint x0 x1 x2 s x4) := by
  intros
  unfold State.restorePoint
  with_reducible repeat' first
    | assumption | intro _ | extract_lets | apply Keeps.ite | split | apply State.showPoint_keeps
    | apply State.legalLog_keeps | apply State.post_keeps | apply RegFile.ite_wf | apply RegFile.setF_wf
    | refine Keeps.of_fst (by assumption) ?_ | apply Keeps.mk_upd | exact ⟨rfl, rfl, rfl⟩


theorem State.restoreMetering_keeps {s0 s : State} (h : Keeps s0 s) :
    Keeps s0 (State.restoreMetering s) := by
  unfold State.restoreMetering
  with_reducible repeat' first
    | assumption | intro _ | extract_lets | apply Keeps.ite | split | apply State.restorePulses_keeps
    | apply State.restorePoint_keeps | apply State.legalLog_keeps | apply State.post_keeps | apply Keeps.foldl
    | apply Keeps.foldl_pair | apply RegFile.ite_wf | apply RegFile.setF_wf | apply RegFile.foldl_wf
    | refine Keeps.of_fst (by assumption) ?_ | apply Keeps.mk_upd | exact ⟨rfl, rfl, rfl⟩


theorem State.judgeReady_keeps {s0 s : State} (h : Keeps s0 s) :
    Keeps s0 (State.judgeReady s) := by
  unfold State.judgeReady
  with_reducible repeat' first
    | assumption | intro _ | extract_lets | split | apply Keeps.foldl | apply Keeps.foldl_pair
    | apply RegFile.setF_wf | apply RegFile.flag_wf | apply RegFile.foldl_wf
    | refine Keeps.of_fst (by assumption) ?_ | apply Keeps.mk_upd | exact ⟨rfl, rfl, rfl⟩


theorem State.deliverSets_keeps {s0 s : State} (h : Keeps s0 s) :
    Keeps s0 (State.deliverSets s) := by
  unfold State.deliverSets
  with_reducible repeat' first
    | assumption | intro _ | extract_lets | split | apply State.request_keeps | apply Keeps.foldl
    | exact ⟨rfl, rfl, rfl⟩


theorem State.reexportRing_keeps {s0 s : State} (h : Keeps s0 s) :
    Keeps s0 (State.reexportRing s) := by
  unfold State.reexportRing
  with_reducible repeat' first
    | assumption | intro _ | apply State.export__keeps | apply Keeps.foldl


theorem State.reexportRecords_keeps {s0 s : State} (h : Keeps s0 s) :
    Keeps s0 (State.reexportRecords s) := by
  unfold State.reexportRecords
  with_reducible repeat' first
    | assumption | intro _ | extract_lets | split | apply State.export__keeps | apply Keeps.foldl
    | exact ⟨rfl, rfl, rfl⟩


theorem State.sealedStart_keeps {s0 s : State} (h : Keeps s0 s) :
    Keeps s0 (State.sealedStart s) := by
  unfold State.sealedStart
  with_reducible repeat' first
    | assumption | intro _ | extract_lets | split | apply State.flag_keeps | apply State.sealedCleared_keeps
    | apply State.restoreTariff_keeps | apply State.restoreMetering_keeps | apply State.judgeReady_keeps
    | apply State.deliverSets_keeps | apply State.refillQueues_keeps | apply State.reexportRing_keeps
    | apply State.reexportRecords_keeps | apply RegFile.setF_wf | apply RegFile.flag_wf | apply showCheck_wf
    | refine Keeps.of_fst (by assumption) ?_ | apply Keeps.mk_upd | exact ⟨rfl, rfl, rfl⟩


end Sys2Proof.Machine
end

