-- ==== Sys2Proof/Laws/KeepsSealed.lean ====
section
/-! SUPPORT. The operations of Machine/Sealed lead from a state to one that follows from it (Keeps). -/

set_option Elab.async false

namespace Sys2Proof.Machine

theorem State.activationCut_keeps {s0 s : State} (h : Keeps s0 s) :
    ∀ x1 x2, Keeps s0 (State.activationCut s x1 x2) := by
  intros
  unfold State.activationCut
  with_reducible repeat' first
    | assumption | intro _ | extract_lets | apply State.stopPulses_keeps | apply State.flag_keeps
    | apply State.finalCheckpoint_keeps | apply Keeps.mk_upd | exact ⟨rfl, rfl, rfl⟩


theorem State.swapSlots_keeps {s0 s : State} (h : Keeps s0 s) :
    ∀ x1 x2, Keeps s0 (State.swapSlots s x1 x2) := by
  intros
  unfold State.swapSlots
  with_reducible repeat' first
    | assumption | intro _ | extract_lets | apply Keeps.ite | split | apply Keeps.foldl | apply Keeps.foldl_pair
    | apply RegFile.ite_wf | apply RegFile.setF_wf | apply RegFile.foldl_wf | apply Keeps.mk_upd
    | exact ⟨rfl, rfl, rfl⟩


theorem State.countReject_keeps {s0 s : State} (h : Keeps s0 s) :
    ∀ x1, Keeps s0 (State.countReject s x1) := by
  intros
  unfold State.countReject
  with_reducible repeat' first
    | assumption | intro _ | extract_lets | apply RegFile.setF_wf | apply RegFile.bump_wf | apply Keeps.mk_upd
    | exact ⟨rfl, rfl, rfl⟩


theorem State.endAct_keeps {s0 s : State} (h : Keeps s0 s) :
    ∀ x1 x2, Keeps s0 (State.endAct s x1 x2) := by
  intros
  unfold State.endAct
  with_reducible repeat' first
    | assumption | intro _ | extract_lets | apply Keeps.ite | split | apply State.countReject_keeps
    | apply State.export__keeps | apply Keeps.mk_upd | exact ⟨rfl, rfl, rfl⟩


theorem State.raiseLegalCounter_keeps {s0 s : State} (h : Keeps s0 s) :
    Keeps s0 (State.raiseLegalCounter s) := by
  unfold State.raiseLegalCounter
  with_reducible repeat' first
    | assumption | apply State.setF_keeps


theorem State.sealedChange_keeps {s0 s : State} (h : Keeps s0 s) :
    ∀ x1 x2 x3, Keeps s0 (State.sealedChange s x1 x2 x3) := by
  intros
  unfold State.sealedChange
  with_reducible repeat' first
    | assumption | intro _ | apply Keeps.ite | split | apply State.legalLog_keeps
    | apply State.raiseLegalCounter_keeps


theorem State.activationRuns_keeps {s0 s : State} (h : Keeps s0 s) :
    ∀ x1 x2 x3, Keeps s0 (State.activationRuns s x1 x2 x3) := by
  intros
  unfold State.activationRuns
  with_reducible repeat' first
    | assumption | extract_lets | apply State.sealedStart_keeps | apply State.swapSlots_keeps
    | apply State.setF_keeps | apply State.endAct_keeps | apply State.sealedChange_keeps


theorem State.judgeActivate_keeps {s0 s : State} (h : Keeps s0 s) :
    ∀ x1, Keeps s0 (State.judgeActivate s x1).1 := by
  intros
  unfold State.judgeActivate
  with_reducible repeat' first
    | assumption | intro _ | extract_lets | apply Keeps.ite | split | apply RegFile.ite_wf | apply Keeps.mk_upd
    | exact ⟨rfl, rfl, rfl⟩


theorem State.judgeBillClose_keeps {s0 s : State} (h : Keeps s0 s) :
    ∀ x1, Keeps s0 (State.judgeBillClose s x1).1 := by
  intros
  unfold State.judgeBillClose
  with_reducible repeat' first
    | assumption | intro _ | extract_lets | apply Keeps.ite | split | apply State.setTar_keeps
    | exact ⟨rfl, rfl, rfl⟩


theorem State.judgeDeliver_keeps {s0 s : State} (h : Keeps s0 s) :
    ∀ x1, Keeps s0 (State.judgeDeliver s x1).1 := by
  intros
  unfold State.judgeDeliver
  with_reducible repeat' first
    | assumption | intro _ | extract_lets | apply Keeps.ite | split | apply State.judgeReady_keeps
    | apply State.post_keeps | apply RegFile.ite_wf | refine Keeps.of_fst (by assumption) ?_ | apply Keeps.mk_upd
    | exact ⟨rfl, rfl, rfl⟩


theorem State.judgeDigest_keeps {s0 s : State} (h : Keeps s0 s) :
    ∀ x0 x2, Keeps s0 (State.judgeDigest x0 s x2).1 := by
  intros
  unfold State.judgeDigest
  with_reducible repeat' first
    | assumption | intro _ | extract_lets | apply Keeps.ite | split | apply State.writeTarRecord_keeps
    | apply State.judgeReady_keeps | apply RegFile.ite_wf | apply Keeps.mk_upd | exact ⟨rfl, rfl, rfl⟩


theorem State.rejectRequest_keeps {s0 s : State} (h : Keeps s0 s) :
    ∀ x1, Keeps s0 (State.rejectRequest s x1) := by
  intros
  unfold State.rejectRequest
  with_reducible repeat' first
    | assumption | apply State.export__keeps | apply State.post_keeps | apply State.countReject_keeps


theorem State.sampleUpd_keeps {s0 s : State} (h : Keeps s0 s) :
    ∀ x1, Keeps s0 (State.sampleUpd s x1) := by
  intros
  unfold State.sampleUpd
  with_reducible repeat' first
    | assumption | intro _ | extract_lets | apply Keeps.ite | split | apply Keeps.mk_upd | exact ⟨rfl, rfl, rfl⟩


theorem State.takeRequest_keeps {s0 s : State} (h : Keeps s0 s) {x3 : State → Request → State × Option ℕ} (hf3 : ∀ t y1, Keeps s0 t → Keeps s0 (x3 t y1).1) :
    ∀ x1 x2, Keeps s0 (State.takeRequest s x1 x2 x3) := by
  intros
  unfold State.takeRequest
  with_reducible repeat' first
    | assumption | intro _ | extract_lets | apply Keeps.ite | split | apply State.dropHead_keeps
    | apply State.rejectRequest_keeps | apply State.export__keeps | apply State.countReject_keeps | apply hf3
    | apply RegFile.ite_wf | refine Keeps.of_fst (by assumption) ?_ | apply Keeps.mk_upd | exact ⟨rfl, rfl, rfl⟩


theorem State.useResult_keeps {s0 s : State} (h : Keeps s0 s) :
    ∀ x1 x2, Keeps s0 (State.useResult s x1 x2) := by
  intros
  unfold State.useResult
  with_reducible repeat' first
    | assumption | intro _ | extract_lets | apply Keeps.ite | split | apply State.endItem_keeps
    | apply State.setCal_keeps | exact ⟨rfl, rfl, rfl⟩


theorem execLegalUpdChange_keeps {s0 s : State} (h : Keeps s0 s) :
    Ends s0 (execLegalUpdChange s) := by
  unfold execLegalUpdChange
  with_reducible repeat' first
    | assumption | intro _ | extract_lets | apply Keeps.ite | split | apply State.legalLog_keeps
    | apply State.flag_keeps | apply Ends.next


theorem execFwActivate_keeps {s0 s : State} (h : Keeps s0 s) :
    Ends s0 (execFwActivate s) := by
  unfold execFwActivate
  with_reducible repeat' first
    | assumption | intro _ | apply State.takeRequest_keeps | apply State.judgeActivate_keeps | apply Ends.next


theorem execSealedActivation_keeps {s0 s : State} (h : Keeps s0 s) :
    ∀ x0 x1, Ends s0 (execSealedActivation x0 x1 s) := by
  intros
  unfold execSealedActivation
  with_reducible repeat' first
    | assumption | intro _ | extract_lets | apply Keeps.ite | split | apply State.activationRuns_keeps
    | apply State.endAct_keeps | apply State.activationCut_keeps | apply Ends.next | apply Ends.ite
    | refine Keeps.of_fst (by assumption) ?_ | apply Keeps.mk_upd | exact ⟨rfl, rfl, rfl⟩


theorem execSealedFallback_keeps {s0 s : State} (h : Keeps s0 s) :
    Ends s0 (execSealedFallback s) := by
  unfold execSealedFallback
  with_reducible repeat' first
    | assumption | intro _ | extract_lets | apply Keeps.ite | split | apply State.sealedStart_keeps
    | apply State.setF_keeps | apply State.endAct_keeps | apply State.legalLog_keeps | apply State.post_keeps
    | apply Ends.next | exact ⟨rfl, rfl, rfl⟩


theorem execCalDeliver_keeps {s0 s : State} (h : Keeps s0 s) :
    Ends s0 (execCalDeliver s) := by
  unfold execCalDeliver
  with_reducible repeat' first
    | assumption | intro _ | apply State.takeRequest_keeps | apply State.judgeDeliver_keeps | apply Ends.next


theorem execCalDigest_keeps {s0 s : State} (h : Keeps s0 s) :
    ∀ x0, Ends s0 (execCalDigest x0 s) := by
  intros
  unfold execCalDigest
  with_reducible repeat' first
    | assumption | intro _ | apply State.takeRequest_keeps | apply State.judgeDigest_keeps | apply Ends.next


theorem execBillCloseRequest_keeps {s0 s : State} (h : Keeps s0 s) :
    Ends s0 (execBillCloseRequest s) := by
  unfold execBillCloseRequest
  with_reducible repeat' first
    | assumption | intro _ | apply State.takeRequest_keeps | apply State.judgeBillClose_keeps | apply Ends.next


theorem execKeypadCfg_keeps {s0 s : State} (h : Keeps s0 s) :
    Ends s0 (execKeypadCfg s) := by
  unfold execKeypadCfg
  with_reducible repeat' first
    | assumption | intro _ | extract_lets | apply State.takeRequest_keeps | apply Ends.next | apply Keeps.mk_upd
    | exact ⟨rfl, rfl, rfl⟩


theorem execSnapshot_keeps {s0 s : State} (h : Keeps s0 s) :
    Ends s0 (execSnapshot s) := by
  unfold execSnapshot
  with_reducible repeat' first
    | assumption | intro _ | extract_lets | apply Keeps.ite | split | apply State.takeExport_keeps | apply Ends.next
    | apply Ends.ite | refine Keeps.of_fst (by assumption) ?_ | apply Keeps.mk_upd | exact ⟨rfl, rfl, rfl⟩


theorem execLegalEvent_keeps {s0 s : State} (h : Keeps s0 s) :
    Ends s0 (execLegalEvent s) := by
  unfold execLegalEvent
  with_reducible repeat' first
    | assumption | intro _ | extract_lets | apply Keeps.ite | split | apply State.takeExport_keeps | apply Ends.next
    | apply Ends.ite | refine Keeps.of_fst (by assumption) ?_ | apply Keeps.mk_upd | exact ⟨rfl, rfl, rfl⟩


theorem execReqResult_keeps {s0 s : State} (h : Keeps s0 s) :
    Ends s0 (execReqResult s) := by
  unfold execReqResult
  with_reducible repeat' first
    | assumption | intro _ | extract_lets | split | apply State.takeExport_keeps | apply State.useResult_keeps
    | apply Ends.next | refine Keeps.of_fst (by assumption) ?_ | apply Keeps.mk_upd | exact ⟨rfl, rfl, rfl⟩


end Sys2Proof.Machine
end

