-- ==== Sys2Proof/Laws/KeepsDisplay.lean ====
section
/-! SUPPORT. The operations of Machine/Display lead from a state to one that follows from it (Keeps). -/

set_option Elab.async false

namespace Sys2Proof.Machine

theorem State.frame_keeps {s0 s : State} (h : Keeps s0 s) :
    ∀ x1 x2, Keeps s0 (State.frame s x1 x2) := by
  intros
  unfold State.frame
  with_reducible repeat' first
    | assumption | intro _ | extract_lets | apply Keeps.mk_upd | exact ⟨rfl, rfl, rfl⟩


theorem State.showLines_keeps {s0 s : State} (h : Keeps s0 s) :
    ∀ x1 x2 x3, Keeps s0 (State.showLines s x1 x2 x3) := by
  intros
  unfold State.showLines
  with_reducible repeat' first
    | assumption | apply State.frame_keeps


theorem State.showNote_keeps {s0 s : State} (h : Keeps s0 s) :
    ∀ x1 x2, Keeps s0 (State.showNote s x1 x2) := by
  intros
  unfold State.showNote
  with_reducible repeat' first
    | assumption | intro _ | extract_lets | apply State.showLines_keeps | apply Keeps.mk_upd | exact ⟨rfl, rfl, rfl⟩


theorem State.showItem_keeps {s0 s : State} (h : Keeps s0 s) :
    Keeps s0 (State.showItem s) := by
  unfold State.showItem
  with_reducible repeat' first
    | assumption | intro _ | extract_lets | split | apply State.showLines_keeps | exact ⟨rfl, rfl, rfl⟩


theorem State.resumeStepping_keeps {s0 s : State} (h : Keeps s0 s) :
    Keeps s0 (State.resumeStepping s) := by
  unfold State.resumeStepping
  with_reducible repeat' first
    | assumption | intro _ | extract_lets | apply State.showItem_keeps | apply Keeps.mk_upd | exact ⟨rfl, rfl, rfl⟩


theorem State.endRequest_keeps {s0 s : State} (h : Keeps s0 s) :
    Keeps s0 (State.endRequest s) := by
  unfold State.endRequest
  with_reducible repeat' first
    | assumption | intro _ | extract_lets | apply Keeps.ite | split | apply State.showNote_keeps
    | apply State.resumeStepping_keeps | refine Keeps.of_fst (by assumption) ?_ | apply Keeps.mk_upd
    | exact ⟨rfl, rfl, rfl⟩


theorem State.judgeNote_keeps {s0 s : State} (h : Keeps s0 s) :
    ∀ x1, Keeps s0 (State.judgeNote s x1).1 := by
  intros
  unfold State.judgeNote
  with_reducible repeat' first
    | assumption | intro _ | extract_lets | split | apply State.showNote_keeps
    | refine Keeps.of_fst (by assumption) ?_ | apply Keeps.mk_upd | exact ⟨rfl, rfl, rfl⟩


theorem State.nextItem_keeps {s0 s : State} (h : Keeps s0 s) :
    Keeps s0 (State.nextItem s) := by
  unfold State.nextItem
  with_reducible repeat' first
    | assumption | intro _ | extract_lets | apply Keeps.ite | split | apply State.showItem_keeps
    | refine Keeps.of_fst (by assumption) ?_ | apply Keeps.mk_upd | exact ⟨rfl, rfl, rfl⟩


theorem State.opticalDue_keeps {s0 s : State} (h : Keeps s0 s) :
    Keeps s0 (State.opticalDue s) := by
  unfold State.opticalDue
  with_reducible repeat' first
    | assumption | intro _ | extract_lets | apply Keeps.ite | split | apply State.send_keeps
    | apply State.flag_keeps | refine Keeps.of_fst (by assumption) ?_ | apply Keeps.mk_upd | exact ⟨rfl, rfl, rfl⟩


theorem State.setKeys_keeps {s0 s : State} (h : Keeps s0 s) :
    ∀ x1, Keeps s0 (State.setKeys s x1) := by
  intros
  unfold State.setKeys
  with_reducible repeat' first
    | assumption | intro _ | extract_lets | apply Keeps.mk_upd | exact ⟨rfl, rfl, rfl⟩


theorem State.showRequest_keeps {s0 s : State} (h : Keeps s0 s) :
    ∀ x1, Keeps s0 (State.showRequest s x1) := by
  intros
  unfold State.showRequest
  with_reducible repeat' first
    | assumption | intro _ | extract_lets | split | apply State.showLines_keeps | apply State.nextItem_keeps
    | exact ⟨rfl, rfl, rfl⟩


theorem State.parseKey_keeps {s0 s : State} (h : Keeps s0 s) :
    ∀ x1, Keeps s0 (State.parseKey s x1) := by
  intros
  unfold State.parseKey
  with_reducible repeat' first
    | assumption | intro _ | extract_lets | apply Keeps.ite | split | apply State.setKeys_keeps
    | apply State.showRequest_keeps | apply State.export__keeps | apply Keeps.foldl | apply Keeps.foldl_pair
    | refine Keeps.of_fst (by assumption) ?_ | apply Keeps.mk_upd | exact ⟨rfl, rfl, rfl⟩


theorem execDisplayNote_keeps {s0 s : State} (h : Keeps s0 s) :
    Ends s0 (execDisplayNote s) := by
  unfold execDisplayNote
  with_reducible repeat' first
    | assumption | intro _ | apply State.takeRequest_keeps | apply State.judgeNote_keeps | apply Ends.next


theorem execDisplayNoteEnd_keeps {s0 s : State} (h : Keeps s0 s) :
    Ends s0 (execDisplayNoteEnd s) := by
  unfold execDisplayNoteEnd
  with_reducible repeat' first
    | assumption | intro _ | extract_lets | apply Keeps.ite | split | apply State.resumeStepping_keeps
    | apply Ends.next | exact ⟨rfl, rfl, rfl⟩


theorem execDisplayFrame_keeps {s0 s : State} (h : Keeps s0 s) :
    ∀ x0, Ends s0 (execDisplayFrame x0 s) := by
  intros
  unfold execDisplayFrame
  with_reducible repeat' first
    | assumption | intro _ | extract_lets | apply Keeps.ite | split | apply State.send_keeps
    | apply State.postIf_keeps | apply State.flag_keeps | apply Ends.next | apply Ends.ite | apply RegFile.ite_wf
    | apply RegFile.flag_wf | refine Keeps.of_fst (by assumption) ?_ | apply Keeps.mk_upd | exact ⟨rfl, rfl, rfl⟩


theorem execDisplayInitRetry_keeps {s0 s : State} (h : Keeps s0 s) :
    Ends s0 (execDisplayInitRetry s) := by
  unfold execDisplayInitRetry
  with_reducible repeat' first
    | assumption | intro _ | extract_lets | apply Keeps.ite | split | apply Ends.next | apply Ends.ite
    | apply Keeps.mk_upd | exact ⟨rfl, rfl, rfl⟩


theorem execDisplayStep_keeps {s0 s : State} (h : Keeps s0 s) :
    Ends s0 (execDisplayStep s) := by
  unfold execDisplayStep
  with_reducible repeat' first
    | assumption | intro _ | extract_lets | apply Keeps.ite | split | apply State.nextItem_keeps | apply Ends.next
    | exact ⟨rfl, rfl, rfl⟩


theorem execKeypadKey_keeps {s0 s : State} (h : Keeps s0 s) :
    ∀ x0, Ends s0 (execKeypadKey x0 s) := by
  intros
  unfold execKeypadKey
  with_reducible repeat' first
    | assumption | intro _ | extract_lets | apply Keeps.ite | split | apply State.parseKey_keeps
    | apply State.endRequest_keeps | apply Ends.next | apply Ends.ite | apply RegFile.ite_wf | apply RegFile.setF_wf
    | apply Keeps.mk_upd | exact ⟨rfl, rfl, rfl⟩


theorem execKeypadEntryTimeout_keeps {s0 s : State} (h : Keeps s0 s) :
    Ends s0 (execKeypadEntryTimeout s) := by
  unfold execKeypadEntryTimeout
  with_reducible repeat' first
    | assumption | intro _ | extract_lets | apply Keeps.ite | split | apply State.setKeys_keeps | apply Ends.next
    | exact ⟨rfl, rfl, rfl⟩


theorem execDisplayRequestEnd_keeps {s0 s : State} (h : Keeps s0 s) :
    Ends s0 (execDisplayRequestEnd s) := by
  unfold execDisplayRequestEnd
  with_reducible repeat' first
    | assumption | intro _ | extract_lets | apply Keeps.ite | split | apply State.endRequest_keeps | apply Ends.next
    | exact ⟨rfl, rfl, rfl⟩


theorem execOpticalRequest_keeps {s0 s : State} (h : Keeps s0 s) :
    ∀ x0, Ends s0 (execOpticalRequest x0 s) := by
  intros
  unfold execOpticalRequest
  with_reducible repeat' first
    | assumption | intro _ | extract_lets | apply Keeps.ite | split | apply State.send_keeps | apply Ends.next
    | apply Ends.ite | refine Keeps.of_fst (by assumption) ?_ | apply Keeps.mk_upd | exact ⟨rfl, rfl, rfl⟩


theorem execOpticalAck_keeps {s0 s : State} (h : Keeps s0 s) :
    ∀ x0 x1, Ends s0 (execOpticalAck x0 x1 s) := by
  intros
  unfold execOpticalAck
  with_reducible repeat' first
    | assumption | intro _ | extract_lets | apply Keeps.ite | split | apply State.send_keeps
    | apply State.flag_keeps | apply State.bump_keeps | apply Ends.next | apply Ends.ite | apply Keeps.mk_upd
    | exact ⟨rfl, rfl, rfl⟩


end Sys2Proof.Machine
end

