-- ==== Sys2Proof/Laws/KeepsDump.lean ====
section
/-! SUPPORT. The operations of Machine/Dump lead from a state to one that follows from it (Keeps). -/

set_option Elab.async false

namespace Sys2Proof.Machine

theorem State.showDump_keeps {s0 s : State} (h : Keeps s0 s) :
    ∀ x1, Keeps s0 (State.showDump s x1) := by
  intros
  unfold State.showDump
  with_reducible repeat' first
    | assumption | intro _ | extract_lets | split | apply RegFile.setF_wf | apply RegFile.flag_wf
    | apply RegFile.put_wf | refine Keeps.of_fst (by assumption) ?_ | apply Keeps.mk_upd | exact ⟨rfl, rfl, rfl⟩


theorem State.writeDump_keeps {s0 s : State} (h : Keeps s0 s) :
    ∀ x1 x2 x3 x4, Keeps s0 (State.writeDump s x1 x2 x3 x4) := by
  intros
  unfold State.writeDump
  with_reducible repeat' first
    | assumption | intro _ | extract_lets | apply Keeps.ite | split | apply State.showDump_keeps
    | apply RegFile.ite_wf | refine Keeps.of_fst (by assumption) ?_ | apply Keeps.mk_upd | exact ⟨rfl, rfl, rfl⟩


theorem runDump_keeps {s0 s : State} (h : Keeps s0 s) :
    ∀ x0 x2 x3, Keeps s0 (runDump x0 s x2 x3).1 := by
  intros
  unfold runDump
  with_reducible repeat' first
    | assumption | intro _ | extract_lets | apply Keeps.ite | split | apply State.drawLocal_keeps
    | apply State.post_keeps | apply State.showDump_keeps | apply Keeps.foldl | apply Keeps.foldl_pair
    | apply RegFile.ite_wf | apply RegFile.foldl_wf | refine Keeps.of_fst (by assumption) ?_ | apply Keeps.mk_upd
    | exact ⟨rfl, rfl, rfl⟩


theorem execDumpRead_keeps {s0 s : State} (h : Keeps s0 s) :
    ∀ x0 x1, Ends s0 (execDumpRead x0 x1 s) := by
  intros
  unfold execDumpRead
  with_reducible repeat' first
    | assumption | intro _ | apply State.serve_keeps | apply State.taskCommand_keeps | apply runDump_keeps
    | apply Ends.next


end Sys2Proof.Machine
end

