-- ==== Sys2Proof/Laws/KeepsEvent.lean ====
section
/-! SUPPORT. The operations of Machine/Event lead from a state to one that follows from it (Keeps). -/

set_option Elab.async false

namespace Sys2Proof.Machine

theorem State.noticeLost_keeps {s0 s : State} (h : Keeps s0 s) :
    ∀ x1 x2, Keeps s0 (State.noticeLost s x1 x2) := by
  intros
  unfold State.noticeLost
  with_reducible repeat' first
    | assumption | apply State.retain_keeps


theorem State.flushLost_keeps {s0 s : State} (h : Keeps s0 s) :
    ∀ x1, Keeps s0 (State.flushLost s x1) := by
  intros
  unfold State.flushLost
  with_reducible repeat' first
    | assumption | intro _ | extract_lets | apply Keeps.ite | split | apply State.noticeLost_keeps
    | apply State.setCtx_keeps | apply Keeps.foldl | apply Keeps.foldl_pair | apply Keeps.mk_upd
    | exact ⟨rfl, rfl, rfl⟩


theorem State.loseEventNotice_keeps {s0 s : State} (h : Keeps s0 s) :
    ∀ x1 x2 x3 x4, Keeps s0 (State.loseEventNotice s x1 x2 x3 x4) := by
  intros
  unfold State.loseEventNotice
  with_reducible repeat' first
    | assumption | intro _ | extract_lets | apply Keeps.ite | split | apply State.setCtx_keeps
    | exact ⟨rfl, rfl, rfl⟩


theorem State.eventNotice_keeps {s0 s : State} (h : Keeps s0 s) :
    ∀ x1 x2, Keeps s0 (State.eventNotice s x1 x2) := by
  intros
  unfold State.eventNotice
  with_reducible repeat' first
    | assumption | intro _ | apply Keeps.ite | split | apply State.loseEventNotice_keeps | apply State.retain_keeps
    | apply Keeps.foldl


theorem State.closeRecord_keeps {s0 s : State} (h : Keeps s0 s) :
    Keeps s0 (State.closeRecord s) := by
  unfold State.closeRecord
  with_reducible repeat' first
    | assumption | intro _ | extract_lets | apply Keeps.ite | split | apply State.bump_keeps
    | apply State.eventNotice_keeps | apply RegFile.ite_wf | apply RegFile.bump_wf
    | refine Keeps.of_fst (by assumption) ?_ | apply Keeps.mk_upd | exact ⟨rfl, rfl, rfl⟩


theorem State.windowEnds_keeps {s0 s : State} (h : Keeps s0 s) :
    Keeps s0 (State.windowEnds s) := by
  unfold State.windowEnds
  with_reducible repeat' first
    | assumption | intro _ | extract_lets | apply Keeps.ite | split | apply State.closeRecord_keeps
    | apply RegFile.ite_wf | refine Keeps.of_fst (by assumption) ?_ | apply Keeps.mk_upd | exact ⟨rfl, rfl, rfl⟩


theorem State.timeMark_keeps {s0 s : State} (h : Keeps s0 s) :
    Keeps s0 (State.timeMark s) := by
  unfold State.timeMark
  with_reducible repeat' first
    | assumption | intro _ | extract_lets | apply Keeps.ite | split | apply State.post_keeps


theorem State.countSecond_keeps {s0 s : State} (h : Keeps s0 s) :
    Keeps s0 (State.countSecond s) := by
  unfold State.countSecond
  with_reducible repeat' first
    | assumption | intro _ | extract_lets | apply Keeps.ite | split | apply State.timeMark_keeps
    | apply Keeps.mk_upd | exact ⟨rfl, rfl, rfl⟩


theorem State.openRecord_keeps {s0 s : State} (h : Keeps s0 s) :
    ∀ x1, Keeps s0 (State.openRecord s x1) := by
  intros
  unfold State.openRecord
  with_reducible repeat' first
    | assumption | intro _ | extract_lets | apply Keeps.ite | split | apply State.eventNotice_keeps
    | apply RegFile.ite_wf | apply Keeps.mk_upd | exact ⟨rfl, rfl, rfl⟩


theorem State.noteLost_keeps {s0 s : State} (h : Keeps s0 s) :
    ∀ x1, Keeps s0 (State.noteLost s x1) := by
  intros
  unfold State.noteLost
  with_reducible repeat' first
    | assumption | intro _ | extract_lets | apply State.loseEventNotice_keeps | apply State.flushLost_keeps
    | apply Keeps.foldl


theorem State.handlePost_keeps {s0 s : State} (h : Keeps s0 s) :
    ∀ x1, Keeps s0 (State.handlePost s x1) := by
  intros
  unfold State.handlePost
  with_reducible repeat' first
    | assumption | intro _ | extract_lets | apply Keeps.ite | split | apply State.closeRecord_keeps
    | apply State.openRecord_keeps | apply State.noteLost_keeps | apply RegFile.ite_wf
    | refine Keeps.of_fst (by assumption) ?_ | apply Keeps.mk_upd | exact ⟨rfl, rfl, rfl⟩


theorem State.eventRestart_keeps {s0 s : State} (h : Keeps s0 s) :
    ∀ x1 x2 x3, Keeps s0 (State.eventRestart s x1 x2 x3) := by
  intros
  unfold State.eventRestart
  with_reducible repeat' first
    | assumption | intro _ | extract_lets | apply Keeps.ite | split | apply State.bump_keeps
    | apply State.post_keeps | apply State.flag_keeps | apply State.timeMark_keeps | apply RegFile.ite_wf
    | apply RegFile.flag_wf | apply RegFile.bump_wf | refine Keeps.of_fst (by assumption) ?_ | apply Keeps.mk_upd
    | exact ⟨rfl, rfl, rfl⟩


theorem runEventSpan_keeps {s0 s : State} (h : Keeps s0 s) :
    ∀ x1 x2, Keeps s0 (runEventSpan s x1 x2).1 := by
  intros
  unfold runEventSpan
  with_reducible repeat' first
    | assumption | intro _ | extract_lets | apply Keeps.ite | split | exact ⟨rfl, rfl, rfl⟩


theorem execEventRead_keeps {s0 s : State} (h : Keeps s0 s) :
    ∀ x0, Ends s0 (execEventRead x0 s) := by
  intros
  unfold execEventRead
  with_reducible repeat' first
    | assumption | intro _ | apply State.serve_keeps | apply State.taskCommand_keeps | apply runEventSpan_keeps
    | apply Ends.next


theorem execEventPost_keeps {s0 s : State} (h : Keeps s0 s) :
    Ends s0 (execEventPost s) := by
  unfold execEventPost
  with_reducible repeat' first
    | assumption | intro _ | extract_lets | apply Keeps.ite | split | apply State.handlePost_keeps
    | apply State.post_keeps | apply Ends.next | apply Ends.ite | refine Keeps.of_fst (by assumption) ?_
    | apply Keeps.mk_upd | exact ⟨rfl, rfl, rfl⟩


theorem execEventWindowExpiry_keeps {s0 s : State} (h : Keeps s0 s) :
    Ends s0 (execEventWindowExpiry s) := by
  unfold execEventWindowExpiry
  with_reducible repeat' first
    | assumption | apply State.windowEnds_keeps | apply Ends.next


theorem execEventDrop_keeps {s0 s : State} (h : Keeps s0 s) :
    Ends s0 (execEventDrop s) := by
  unfold execEventDrop
  with_reducible repeat' first
    | assumption | intro _ | extract_lets | split | apply State.flushLost_keeps | apply Keeps.foldl
    | apply Keeps.foldl_pair | apply Ends.next | apply RegFile.flag_wf | apply RegFile.bump_wf
    | apply RegFile.foldl_wf | refine Keeps.of_fst (by assumption) ?_ | apply Keeps.mk_upd | exact ⟨rfl, rfl, rfl⟩


theorem execOperatingSecond_keeps {s0 s : State} (h : Keeps s0 s) :
    Ends s0 (execOperatingSecond s) := by
  unfold execOperatingSecond
  with_reducible repeat' first
    | assumption | apply State.countSecond_keeps | apply Ends.next


end Sys2Proof.Machine
end

