-- ==== Sys2Proof/Laws/KeepsFrontEnd.lean ====
section
/-! SUPPORT. The operations of Machine/FrontEnd lead from a state to one that follows from it (Keeps). -/

set_option Elab.async false

namespace Sys2Proof.Machine

theorem State.acceptDrift_keeps {s0 s : State} (h : Keeps s0 s) :
    ∀ x1 x2 x3 x4, Keeps s0 (State.acceptDrift s x1 x2 x3 x4) := by
  intros
  unfold State.acceptDrift
  with_reducible repeat' first
    | assumption | intro _ | extract_lets | apply Keeps.ite | split | apply State.raiseItem_keeps
    | apply State.post_keeps | apply State.flag_keeps | apply State.postIf_keeps | apply RegFile.ite_wf
    | apply RegFile.flag_wf | apply RegFile.setFInt_wf | apply Keeps.mk_upd | exact ⟨rfl, rfl, rfl⟩


theorem State.refineEnd_keeps {s0 s : State} (h : Keeps s0 s) :
    ∀ x1, Keeps s0 (State.refineEnd s x1) := by
  intros
  unfold State.refineEnd
  with_reducible repeat' first
    | assumption | intro _ | extract_lets | apply Keeps.ite | split | apply RegFile.ite_wf | apply RegFile.setF_wf
    | apply Keeps.mk_upd | exact ⟨rfl, rfl, rfl⟩


theorem State.refineStart_keeps {s0 s : State} (h : Keeps s0 s) :
    ∀ x1, Keeps s0 (State.refineStart s x1) := by
  intros
  unfold State.refineStart
  with_reducible repeat' first
    | assumption | intro _ | extract_lets | split | apply RegFile.setF_wf | refine Keeps.of_fst (by assumption) ?_
    | apply Keeps.mk_upd | exact ⟨rfl, rfl, rfl⟩


theorem State.formGains_keeps {s0 s : State} (h : Keeps s0 s) :
    ∀ x1, Keeps s0 (State.formGains s x1) := by
  intros
  unfold State.formGains
  with_reducible repeat' first
    | assumption | intro _ | extract_lets | split | apply Keeps.foldl | apply Keeps.foldl_pair
    | apply RegFile.setF_wf | apply RegFile.foldl_wf | refine Keeps.of_fst (by assumption) ?_ | apply Keeps.mk_upd
    | exact ⟨rfl, rfl, rfl⟩


theorem State.setZero_keeps {s0 s : State} (h : Keeps s0 s) :
    ∀ x1 x2, Keeps s0 (State.setZero s x1 x2) := by
  intros
  unfold State.setZero
  with_reducible repeat' first
    | assumption | intro _ | extract_lets | apply RegFile.flag_wf | apply Keeps.mk_upd | exact ⟨rfl, rfl, rfl⟩


theorem State.closeZero_keeps {s0 s : State} (h : Keeps s0 s) :
    ∀ x1 x2 x3, Keeps s0 (State.closeZero s x1 x2 x3) := by
  intros
  unfold State.closeZero
  with_reducible repeat' first
    | assumption | intro _ | extract_lets | split | apply State.acceptDrift_keeps | exact ⟨rfl, rfl, rfl⟩


theorem State.extrapChannel_keeps {s0 s : State} (h : Keeps s0 s) :
    ∀ x0 x2, Keeps s0 (State.extrapChannel x0 s x2) := by
  intros
  unfold State.extrapChannel
  with_reducible repeat' first
    | assumption | intro _ | extract_lets | apply Keeps.ite | split | apply State.flag_keeps
    | apply State.legalLog_keeps | apply State.post_keeps | apply RegFile.ite_wf | apply RegFile.setF_wf
    | apply RegFile.flag_wf | apply RegFile.bump_wf | refine Keeps.of_fst (by assumption) ?_ | apply Keeps.mk_upd
    | exact ⟨rfl, rfl, rfl⟩


theorem State.formMags_keeps {s0 s : State} (h : Keeps s0 s) :
    ∀ x1, Keeps s0 (State.formMags s x1) := by
  intros
  unfold State.formMags
  with_reducible repeat' first
    | assumption | intro _ | extract_lets | split | apply Keeps.foldl | apply Keeps.foldl_pair
    | apply RegFile.setF_wf | apply RegFile.flag_wf | apply RegFile.foldl_wf
    | refine Keeps.of_fst (by assumption) ?_ | apply Keeps.mk_upd | exact ⟨rfl, rfl, rfl⟩


theorem State.meanBoundary_keeps {s0 s : State} (h : Keeps s0 s) :
    Keeps s0 (State.meanBoundary s) := by
  unfold State.meanBoundary
  with_reducible repeat' first
    | assumption | intro _ | extract_lets | apply Keeps.ite | split | apply Keeps.foldl | apply Keeps.foldl_pair
    | apply RegFile.ite_wf | apply RegFile.setFInt_wf | apply RegFile.foldl_wf | apply Keeps.mk_upd
    | exact ⟨rfl, rfl, rfl⟩


theorem State.latchTemps_keeps {s0 s : State} (h : Keeps s0 s) :
    ∀ x1 x2, Keeps s0 (State.latchTemps s x1 x2) := by
  intros
  unfold State.latchTemps
  with_reducible repeat' first
    | assumption | intro _ | extract_lets | apply Keeps.ite | split | apply Keeps.foldl | apply Keeps.foldl_pair
    | apply RegFile.ite_wf | apply RegFile.flag_wf | apply RegFile.setFInt_wf | apply RegFile.foldl_wf
    | refine Keeps.of_fst (by assumption) ?_ | apply Keeps.mk_upd | exact ⟨rfl, rfl, rfl⟩


theorem State.zeroSensor_keeps {s0 s : State} (h : Keeps s0 s) :
    ∀ x0 x2, Keeps s0 (State.zeroSensor x0 s x2) := by
  intros
  unfold State.zeroSensor
  with_reducible repeat' first
    | assumption | intro _ | extract_lets | apply Keeps.ite | split | apply State.setZero_keeps
    | apply State.closeZero_keeps | exact ⟨rfl, rfl, rfl⟩


theorem State.refineBoundary_keeps {s0 s : State} (h : Keeps s0 s) :
    ∀ x1, Keeps s0 (State.refineBoundary s x1) := by
  intros
  unfold State.refineBoundary
  with_reducible repeat' first
    | assumption | intro _ | extract_lets | apply Keeps.ite | split | apply RegFile.ite_wf | apply RegFile.bump_wf
    | refine Keeps.of_fst (by assumption) ?_ | apply Keeps.mk_upd | exact ⟨rfl, rfl, rfl⟩


theorem State.frontEndBoundary_keeps {s0 s : State} (h : Keeps s0 s) :
    ∀ x1 x2, Keeps s0 (State.frontEndBoundary s x1 x2) := by
  intros
  unfold State.frontEndBoundary
  with_reducible repeat' first
    | assumption | intro _ | extract_lets | apply Keeps.ite | split | apply State.meanBoundary_keeps
    | apply State.latchTemps_keeps | apply State.formMags_keeps | apply State.extrapChannel_keeps
    | apply State.zeroSensor_keeps | apply State.formGains_keeps | apply State.refineBoundary_keeps
    | apply Keeps.foldl | apply Keeps.foldl_pair | apply Keeps.mk_upd | exact ⟨rfl, rfl, rfl⟩


theorem State.overRange_keeps {s0 s : State} (h : Keeps s0 s) :
    ∀ x1, Keeps s0 (State.overRange s x1) := by
  intros
  unfold State.overRange
  with_reducible repeat' first
    | assumption | intro _ | extract_lets | apply Keeps.ite | split | apply State.post_keeps
    | apply State.bump_keeps


theorem State.sampleChannels_keeps {s0 s : State} (h : Keeps s0 s) :
    ∀ x1 x2, Keeps s0 (State.sampleChannels s x1 x2) := by
  intros
  unfold State.sampleChannels
  with_reducible repeat' first
    | assumption | intro _ | extract_lets | apply Keeps.ite | split | apply Keeps.foldl | apply Keeps.foldl_pair
    | apply RegFile.ite_wf | apply RegFile.flag_wf | apply RegFile.foldl_wf | refine Keeps.of_fst (by assumption) ?_
    | apply Keeps.mk_upd | exact ⟨rfl, rfl, rfl⟩


theorem State.sampleInputs_keeps {s0 s : State} (h : Keeps s0 s) :
    ∀ x1 x2, Keeps s0 (State.sampleInputs s x1 x2) := by
  intros
  unfold State.sampleInputs
  with_reducible repeat' first
    | assumption | intro _ | extract_lets | split | apply State.overRange_keeps | apply Keeps.foldl
    | apply Keeps.foldl_pair | apply RegFile.foldl_wf | refine Keeps.of_fst (by assumption) ?_ | apply Keeps.mk_upd
    | exact ⟨rfl, rfl, rfl⟩


theorem execMetrologySample_keeps {s0 s : State} (h : Keeps s0 s) :
    ∀ x0, Ends s0 (execMetrologySample x0 s) := by
  intros
  unfold execMetrologySample
  with_reducible repeat' first
    | assumption | intro _ | extract_lets | apply Keeps.ite | split | apply State.sampleInputs_keeps
    | apply State.sampleChannels_keeps | apply Ends.next


theorem execZeroWindowRestart_keeps {s0 s : State} (h : Keeps s0 s) :
    ∀ x0, Ends s0 (execZeroWindowRestart x0 s) := by
  intros
  unfold execZeroWindowRestart
  with_reducible repeat' first
    | assumption | intro _ | extract_lets | apply Keeps.ite | split | apply State.setZero_keeps
    | apply State.closeZero_keeps | apply Ends.next | exact ⟨rfl, rfl, rfl⟩


theorem execSensorFault_keeps {s0 s : State} (h : Keeps s0 s) :
    ∀ x0, Ends s0 (execSensorFault x0 s) := by
  intros
  unfold execSensorFault
  with_reducible repeat' first
    | assumption | intro _ | extract_lets | apply Keeps.ite | split | apply State.post_keeps
    | apply State.flag_keeps | apply Ends.next


theorem execSensorFaultClear_keeps {s0 s : State} (h : Keeps s0 s) :
    ∀ x0, Ends s0 (execSensorFaultClear x0 s) := by
  intros
  unfold execSensorFaultClear
  with_reducible repeat' first
    | assumption | intro _ | extract_lets | apply Keeps.ite | split | apply State.flag_keeps | apply Ends.next


theorem execRefineSolve_keeps {s0 s : State} (h : Keeps s0 s) :
    Ends s0 (execRefineSolve s) := by
  unfold execRefineSolve
  with_reducible repeat' first
    | assumption | intro _ | extract_lets | apply Keeps.ite | split | apply State.post_keeps | apply Keeps.foldl
    | apply Keeps.foldl_pair | apply Ends.next | apply Ends.ite | apply RegFile.ite_wf | apply RegFile.setF_wf
    | apply RegFile.setFInt_wf | apply RegFile.foldl_wf | refine Keeps.of_fst (by assumption) ?_
    | apply Keeps.mk_upd | exact ⟨rfl, rfl, rfl⟩


theorem execMetrologyReady_keeps {s0 s : State} (h : Keeps s0 s) :
    Ends s0 (execMetrologyReady s) := by
  unfold execMetrologyReady
  with_reducible repeat' first
    | assumption | intro _ | extract_lets | apply Keeps.ite | split | apply State.formGains_keeps | apply Ends.next
    | apply Ends.ite | apply RegFile.ite_wf | apply RegFile.flag_wf | apply Keeps.mk_upd | exact ⟨rfl, rfl, rfl⟩


end Sys2Proof.Machine
end

