-- ==== Sys2Proof/Laws/KeepsFw.lean ====
section
/-! SUPPORT. The operations of Machine/Fw lead from a state to one that follows from it (Keeps). -/

set_option Elab.async false

namespace Sys2Proof.Machine

theorem State.setCamp_keeps {s0 s : State} (h : Keeps s0 s) :
    ∀ x1 x2, Keeps s0 (State.setCamp s x1 x2) := by
  intros
  unfold State.setCamp
  with_reducible repeat' first
    | assumption | intro _ | extract_lets | apply RegFile.setF_wf | apply Keeps.mk_upd | exact ⟨rfl, rfl, rfl⟩


theorem State.repair_keeps {s0 s : State} (h : Keeps s0 s) :
    ∀ x1 x2 x3 x4, Keeps s0 (State.repair s x1 x2 x3 x4) := by
  intros
  unfold State.repair
  with_reducible repeat' first
    | assumption | intro _ | extract_lets | apply State.tellMeter_keeps | apply State.setCamp_keeps
    | apply Keeps.foldl


theorem State.applyStatus_keeps {s0 s : State} (h : Keeps s0 s) :
    ∀ x1 x2, Keeps s0 (State.applyStatus s x1 x2) := by
  intros
  unfold State.applyStatus
  with_reducible repeat' first
    | assumption | intro _ | extract_lets | apply Keeps.ite | split | apply State.repair_keeps
    | apply State.setCamp_keeps | exact ⟨rfl, rfl, rfl⟩


theorem State.beginCommit_keeps {s0 s : State} (h : Keeps s0 s) :
    ∀ x1 x2 x3, Keeps s0 (State.beginCommit s x1 x2 x3).1 := by
  intros
  unfold State.beginCommit
  with_reducible repeat' first
    | assumption | intro _ | extract_lets | apply Keeps.mk_upd | exact ⟨rfl, rfl, rfl⟩


theorem State.fwReject_keeps {s0 s : State} (h : Keeps s0 s) :
    ∀ x1 x2, Keeps s0 (State.fwReject s x1 x2) := by
  intros
  unfold State.fwReject
  with_reducible repeat' first
    | assumption | apply State.post_keeps


theorem State.beginFile_keeps {s0 s : State} (h : Keeps s0 s) :
    ∀ x1 x2 x3 x4, Keeps s0 (State.beginFile s x1 x2 x3 x4).1 := by
  intros
  unfold State.beginFile
  with_reducible repeat' first
    | assumption | intro _ | extract_lets | apply Keeps.ite | split | apply State.fwReject_keeps
    | apply State.post_keeps | exact ⟨rfl, rfl, rfl⟩


theorem State.bootSlot_keeps {s0 s : State} (h : Keeps s0 s) :
    ∀ x1, Keeps s0 (State.bootSlot s x1) := by
  intros
  unfold State.bootSlot
  with_reducible repeat' first
    | assumption | intro _ | extract_lets | split | apply RegFile.put_wf | refine Keeps.of_fst (by assumption) ?_
    | apply Keeps.mk_upd | exact ⟨rfl, rfl, rfl⟩


theorem State.slotState_keeps {s0 s : State} (h : Keeps s0 s) :
    ∀ x1 x2, Keeps s0 (State.slotState s x1 x2) := by
  intros
  unfold State.slotState
  with_reducible repeat' first
    | assumption | intro _ | apply Keeps.ite | split | apply State.setF_keeps


theorem State.endSplit_keeps {s0 s : State} (h : Keeps s0 s) :
    Keeps s0 (State.endSplit s) := by
  unfold State.endSplit
  with_reducible repeat' first
    | assumption | intro _ | extract_lets | apply Keeps.ite | split | apply State.setF_keeps | apply Keeps.mk_upd
    | exact ⟨rfl, rfl, rfl⟩


theorem State.writeBoot_keeps {s0 s : State} (h : Keeps s0 s) :
    Keeps s0 (State.writeBoot s) := by
  unfold State.writeBoot
  with_reducible repeat' first
    | assumption | intro _ | extract_lets | apply Keeps.ite | split | apply RegFile.ite_wf
    | refine Keeps.of_fst (by assumption) ?_ | apply Keeps.mk_upd | exact ⟨rfl, rfl, rfl⟩


theorem State.fwFallback_keeps {s0 s : State} (h : Keeps s0 s) :
    ∀ x1, Keeps s0 (State.fwFallback s x1) := by
  intros
  unfold State.fwFallback
  with_reducible repeat' first
    | assumption | intro _ | extract_lets | apply Keeps.ite | split | apply State.bootSlot_keeps
    | apply State.flag_keeps | apply State.slotState_keeps | apply State.endSplit_keeps | apply State.post_keeps
    | apply State.writeBoot_keeps


theorem State.showOwn_keeps {s0 s : State} (h : Keeps s0 s) :
    ∀ x1, Keeps s0 (State.showOwn s x1) := by
  intros
  unfold State.showOwn
  with_reducible repeat' first
    | assumption | intro _ | extract_lets | apply Keeps.ite | split | apply RegFile.ite_wf | apply RegFile.setF_wf
    | apply RegFile.put_wf | refine Keeps.of_fst (by assumption) ?_ | apply Keeps.mk_upd | exact ⟨rfl, rfl, rfl⟩


theorem State.setOwn_keeps {s0 s : State} (h : Keeps s0 s) :
    ∀ x1, Keeps s0 (State.setOwn s x1) := by
  intros
  unfold State.setOwn
  with_reducible repeat' first
    | assumption | apply State.writeBoot_keeps | apply State.showOwn_keeps


theorem State.fwActivate_keeps {s0 s : State} (h : Keeps s0 s) :
    Keeps s0 (State.fwActivate s) := by
  unfold State.fwActivate
  with_reducible repeat' first
    | assumption | intro _ | extract_lets | split | apply State.flag_keeps | apply State.bootSlot_keeps
    | apply State.fwReject_keeps | apply State.setOwn_keeps | apply State.post_keeps | apply State.slotState_keeps
    | apply State.writeBoot_keeps | apply RegFile.flag_wf | apply RegFile.put_wf
    | refine Keeps.of_fst (by assumption) ?_ | apply Keeps.mk_upd | exact ⟨rfl, rfl, rfl⟩


theorem State.commitEnds_keeps {s0 s : State} (h : Keeps s0 s) :
    ∀ x1 x2, Keeps s0 (State.commitEnds s x1 x2).1 := by
  intros
  unfold State.commitEnds
  with_reducible repeat' first
    | assumption | intro _ | extract_lets | split | apply State.post_keeps | apply State.fwReject_keeps
    | apply State.bump_keeps | exact ⟨rfl, rfl, rfl⟩


theorem State.setImage_keeps {s0 s : State} (h : Keeps s0 s) :
    ∀ x1 x2, Keeps s0 (State.setImage s x1 x2) := by
  intros
  unfold State.setImage
  with_reducible repeat' first
    | assumption | intro _ | extract_lets | split | refine Keeps.of_fst (by assumption) ?_ | apply Keeps.mk_upd
    | exact ⟨rfl, rfl, rfl⟩


theorem State.sealedReceived_keeps {s0 s : State} (h : Keeps s0 s) :
    ∀ x1, Keeps s0 (State.sealedReceived s x1) := by
  intros
  unfold State.sealedReceived
  with_reducible repeat' first
    | assumption | intro _ | extract_lets | apply State.setF_keeps | apply Keeps.mk_upd | exact ⟨rfl, rfl, rfl⟩


theorem State.endCommit_keeps {s0 s : State} (h : Keeps s0 s) :
    ∀ x1, Keeps s0 (State.endCommit s x1) := by
  intros
  unfold State.endCommit
  with_reducible repeat' first
    | assumption | intro _ | extract_lets | apply Keeps.ite | split | apply State.commitEnds_keeps
    | apply State.setImage_keeps | apply State.setOwn_keeps | apply State.sealedReceived_keeps
    | apply State.settle_keeps | refine Keeps.of_fst (by assumption) ?_ | apply Keeps.mk_upd | exact ⟨rfl, rfl, rfl⟩


theorem State.commitsDue_keeps {s0 s : State} (h : Keeps s0 s) :
    Keeps s0 (State.commitsDue s) := by
  unfold State.commitsDue
  with_reducible repeat' first
    | assumption | intro _ | extract_lets | apply State.endCommit_keeps | apply Keeps.foldl | apply Keeps.foldl_pair
    | apply Keeps.mk_upd | exact ⟨rfl, rfl, rfl⟩


theorem State.endCampaign_keeps {s0 s : State} (h : Keeps s0 s) :
    ∀ x1 x2, Keeps s0 (State.endCampaign s x1 x2) := by
  intros
  unfold State.endCampaign
  with_reducible repeat' first
    | assumption | intro _ | extract_lets | apply Keeps.ite | split | apply State.post_keeps
    | apply State.setCamp_keeps | exact ⟨rfl, rfl, rfl⟩


theorem State.showVersions_keeps {s0 s : State} (h : Keeps s0 s) :
    Keeps s0 (State.showVersions s) := by
  unfold State.showVersions
  with_reducible repeat' first
    | assumption | intro _ | extract_lets | split | apply Keeps.foldl | apply Keeps.foldl_pair
    | apply RegFile.setF_wf | apply RegFile.put_wf | apply RegFile.foldl_wf | refine Keeps.of_fst (by assumption) ?_
    | apply Keeps.mk_upd | exact ⟨rfl, rfl, rfl⟩


theorem State.loadBoot_keeps {s0 s : State} (h : Keeps s0 s) :
    ∀ x1, Keeps s0 (State.loadBoot s x1) := by
  intros
  unfold State.loadBoot
  with_reducible repeat' first
    | assumption | intro _ | extract_lets | apply Keeps.ite | split | apply State.flag_keeps
    | apply State.setF_keeps | apply State.slotState_keeps | apply State.showOwn_keeps | apply RegFile.ite_wf
    | apply RegFile.setF_wf | apply RegFile.flag_wf | refine Keeps.of_fst (by assumption) ?_ | apply Keeps.mk_upd
    | exact ⟨rfl, rfl, rfl⟩


theorem State.scheduleAct_keeps {s0 s : State} (h : Keeps s0 s) :
    ∀ x1, Keeps s0 (State.scheduleAct s x1) := by
  intros
  unfold State.scheduleAct
  with_reducible repeat' first
    | assumption | intro _ | extract_lets | apply State.writeBoot_keeps | apply State.flag_keeps
    | apply Keeps.mk_upd | exact ⟨rfl, rfl, rfl⟩


theorem State.offer_keeps {s0 s : State} (h : Keeps s0 s) :
    ∀ x1 x2, Keeps s0 (State.offer s x1 x2) := by
  intros
  unfold State.offer
  with_reducible repeat' first
    | assumption | intro _ | extract_lets | apply Keeps.ite | split | apply State.tellMeter_keeps
    | apply State.setCamp_keeps | exact ⟨rfl, rfl, rfl⟩


theorem State.trackTrial_keeps {s0 s : State} (h : Keeps s0 s) :
    Keeps s0 (State.trackTrial s) := by
  unfold State.trackTrial
  with_reducible repeat' first
    | assumption | intro _ | extract_lets | apply Keeps.ite | split | apply Keeps.mk_upd | exact ⟨rfl, rfl, rfl⟩


theorem State.sendSegment_keeps {s0 s : State} (h : Keeps s0 s) :
    ∀ x1, Keeps s0 (State.sendSegment s x1) := by
  intros
  unfold State.sendSegment
  with_reducible repeat' first
    | assumption | intro _ | extract_lets | apply Keeps.ite | split | apply State.takeCounter_keeps
    | apply State.epochDue_keeps | apply State.queueFlood_keeps | apply State.queueFrame_keeps
    | apply State.draw_keeps | apply Keeps.foldl


theorem State.takeFile_keeps {s0 s : State} (h : Keeps s0 s) :
    ∀ x1 x2 x3, Keeps s0 (State.takeFile s x1 x2 x3).1 := by
  intros
  unfold State.takeFile
  with_reducible repeat' first
    | assumption | intro _ | extract_lets | apply Keeps.ite | split | apply State.bump_keeps
    | apply State.post_keeps | apply State.fwReject_keeps | exact ⟨rfl, rfl, rfl⟩


theorem runFwFile_keeps {s0 s : State} (h : Keeps s0 s) :
    ∀ x1 x2, Keeps s0 (runFwFile s x1 x2).1 := by
  intros
  unfold runFwFile
  with_reducible repeat' first
    | assumption | intro _ | extract_lets | apply Keeps.ite | split | apply State.takeFile_keeps
    | apply State.setOwn_keeps | apply State.beginFile_keeps | apply State.setF_keeps | apply RegFile.ite_wf
    | apply RegFile.setF_wf | refine Keeps.of_fst (by assumption) ?_ | apply Keeps.mk_upd | exact ⟨rfl, rfl, rfl⟩


theorem runFwQuery_keeps {s0 s : State} (h : Keeps s0 s) :
    ∀ x1, Keeps s0 (runFwQuery s x1).1 := by
  intros
  unfold runFwQuery
  with_reducible repeat' first
    | assumption | intro _ | extract_lets | apply Keeps.ite | split | exact ⟨rfl, rfl, rfl⟩


theorem runFwCommit_keeps {s0 s : State} (h : Keeps s0 s) :
    ∀ x1 x2, Keeps s0 (runFwCommit s x1 x2).1 := by
  intros
  unfold runFwCommit
  with_reducible repeat' first
    | assumption | intro _ | extract_lets | apply Keeps.ite | split | apply State.beginCommit_keeps
    | exact ⟨rfl, rfl, rfl⟩


theorem runFwAbort_keeps {s0 s : State} (h : Keeps s0 s) :
    ∀ x1, Keeps s0 (runFwAbort s x1).1 := by
  intros
  unfold runFwAbort
  with_reducible repeat' first
    | assumption | intro _ | extract_lets | apply Keeps.ite | split | apply State.endSplit_keeps
    | apply State.setOwn_keeps | exact ⟨rfl, rfl, rfl⟩


theorem runFwAct_keeps {s0 s : State} (h : Keeps s0 s) :
    ∀ x1 x2, Keeps s0 (runFwAct s x1 x2).1 := by
  intros
  unfold runFwAct
  with_reducible repeat' first
    | assumption | intro _ | extract_lets | apply Keeps.ite | split | apply State.request_keeps
    | apply State.setF_keeps | apply State.record_keeps | apply State.flag_keeps | apply State.endSplit_keeps
    | apply State.scheduleAct_keeps | apply RegFile.ite_wf | apply RegFile.setF_wf | apply RegFile.flag_wf
    | refine Keeps.of_fst (by assumption) ?_ | apply Keeps.mk_upd | exact ⟨rfl, rfl, rfl⟩


theorem runFwBlock_keeps {s0 s : State} (h : Keeps s0 s) :
    ∀ x1 x2, Keeps s0 (runFwBlock s x1 x2).1 := by
  intros
  unfold runFwBlock
  with_reducible repeat' first
    | assumption | intro _ | apply Keeps.ite | split | apply runFwFile_keeps | apply runFwQuery_keeps
    | apply runFwCommit_keeps | apply runFwAbort_keeps | apply runFwAct_keeps


theorem runModelKey_keeps {s0 s : State} (h : Keeps s0 s) :
    ∀ x1, Keeps s0 (runModelKey s x1).1 := by
  intros
  unfold runModelKey
  with_reducible repeat' first
    | assumption | intro _ | extract_lets | apply Keeps.ite | split | apply Keeps.mk_upd | exact ⟨rfl, rfl, rfl⟩


theorem runMimgFile_keeps {s0 s : State} (h : Keeps s0 s) :
    ∀ x1 x2, Keeps s0 (runMimgFile s x1 x2).1 := by
  intros
  unfold runMimgFile
  with_reducible repeat' first
    | assumption | intro _ | extract_lets | apply Keeps.ite | split | apply State.takeFile_keeps
    | apply State.beginFile_keeps | apply State.setImage_keeps | apply Keeps.foldl | apply Keeps.foldl_pair
    | apply Ends.next | apply Ends.ite | apply RegFile.ite_wf | apply RegFile.setF_wf | apply RegFile.flag_wf
    | apply RegFile.bump_wf | apply RegFile.put_wf | apply RegFile.setFInt_wf | apply RegFile.put64_wf
    | apply RegFile.foldl_wf | refine Keeps.of_fst (by assumption) ?_ | (dsimp +zetaDelta only; split)
    | apply Keeps.mk_upd | exact ⟨rfl, rfl, rfl⟩


theorem runMimgCommit_keeps {s0 s : State} (h : Keeps s0 s) :
    ∀ x1 x2, Keeps s0 (runMimgCommit s x1 x2).1 := by
  intros
  unfold runMimgCommit
  with_reducible repeat' first
    | assumption | intro _ | extract_lets | apply Keeps.ite | split | apply State.beginCommit_keeps
    | exact ⟨rfl, rfl, rfl⟩


theorem runCampaign_keeps {s0 s : State} (h : Keeps s0 s) :
    ∀ x1, Keeps s0 (runCampaign s x1).1 := by
  intros
  unfold runCampaign
  with_reducible repeat' first
    | assumption | intro _ | extract_lets | apply Keeps.ite | split | apply State.draw_keeps
    | apply State.setCamp_keeps | refine Keeps.of_fst (by assumption) ?_ | apply Keeps.mk_upd
    | exact ⟨rfl, rfl, rfl⟩


theorem runCampaignTarget_keeps {s0 s : State} (h : Keeps s0 s) :
    ∀ x1, Keeps s0 (runCampaignTarget s x1).1 := by
  intros
  unfold runCampaignTarget
  with_reducible repeat' first
    | assumption | intro _ | extract_lets | apply Keeps.ite | split | apply State.setCamp_keeps
    | apply State.offer_keeps | exact ⟨rfl, rfl, rfl⟩


theorem runCampaignStop_keeps {s0 s : State} (h : Keeps s0 s) :
    ∀ x1, Keeps s0 (runCampaignStop s x1).1 := by
  intros
  unfold runCampaignStop
  with_reducible repeat' first
    | assumption | intro _ | extract_lets | apply Keeps.ite | split | apply State.tellMeter_keeps
    | apply State.endCampaign_keeps | apply Keeps.foldl | exact ⟨rfl, rfl, rfl⟩


theorem runCampaignGet_keeps {s0 s : State} (h : Keeps s0 s) :
    ∀ x1, Keeps s0 (runCampaignGet s x1).1 := by
  intros
  unfold runCampaignGet
  with_reducible repeat' first
    | assumption | intro _ | extract_lets | apply Keeps.ite | split | exact ⟨rfl, rfl, rfl⟩


theorem runFwMeter_keeps {s0 s : State} (h : Keeps s0 s) :
    ∀ x1 x2, Keeps s0 (runFwMeter s x1 x2).1 := by
  intros
  unfold runFwMeter
  with_reducible repeat' first
    | assumption | intro _ | extract_lets | apply Keeps.ite | split | apply runModelKey_keeps
    | apply runMimgFile_keeps | apply runMimgCommit_keeps | apply runCampaign_keeps | apply runCampaignTarget_keeps
    | apply runCampaignStop_keeps | apply runCampaignGet_keeps | apply Keeps.foldl | apply Keeps.foldl_pair
    | apply Ends.next | apply Ends.ite | apply RegFile.ite_wf | apply RegFile.setF_wf | apply RegFile.flag_wf
    | apply RegFile.bump_wf | apply RegFile.put_wf | apply RegFile.setFInt_wf | apply RegFile.put64_wf
    | apply RegFile.foldl_wf | refine Keeps.of_fst (by assumption) ?_ | (dsimp +zetaDelta only; split)
    | apply Keeps.mk_upd | exact ⟨rfl, rfl, rfl⟩


theorem execFwBlock_keeps {s0 s : State} (h : Keeps s0 s) :
    ∀ x0, Ends s0 (execFwBlock x0 s) := by
  intros
  unfold execFwBlock
  with_reducible repeat' first
    | assumption | intro _ | apply State.serve_keeps | apply State.taskCommand_keeps | apply runFwBlock_keeps
    | apply Ends.next


theorem execFwMeter_keeps {s0 s : State} (h : Keeps s0 s) :
    ∀ x0, Ends s0 (execFwMeter x0 s) := by
  intros
  unfold execFwMeter
  with_reducible repeat' first
    | assumption | intro _ | extract_lets | apply Keeps.ite | split | apply State.serve_keeps
    | apply State.taskCommand_keeps | apply runFwMeter_keeps | apply Ends.next


theorem execActivationRestart_keeps {s0 s : State} (h : Keeps s0 s) :
    Ends s0 (execActivationRestart s) := by
  unfold execActivationRestart
  with_reducible repeat' first
    | assumption | intro _ | extract_lets | apply Keeps.ite | split | apply Ends.next | apply Ends.ite
    | refine Keeps.of_fst (by assumption) ?_ | apply Keeps.mk_upd | exact ⟨rfl, rfl, rfl⟩


theorem execTrialConfirmation_keeps {s0 s : State} (h : Keeps s0 s) :
    Ends s0 (execTrialConfirmation s) := by
  unfold execTrialConfirmation
  with_reducible repeat' first
    | assumption | intro _ | extract_lets | apply Keeps.ite | split | apply State.setF_keeps
    | apply State.slotState_keeps | apply State.flag_keeps | apply State.post_keeps | apply State.writeBoot_keeps
    | apply State.endSplit_keeps | apply Ends.next | exact ⟨rfl, rfl, rfl⟩


theorem execTrialTimeout_keeps {s0 s : State} (h : Keeps s0 s) :
    Ends s0 (execTrialTimeout s) := by
  unfold execTrialTimeout
  with_reducible repeat' first
    | assumption | intro _ | extract_lets | apply Keeps.ite | split | apply Ends.next | apply Ends.ite
    | apply Keeps.mk_upd | exact ⟨rfl, rfl, rfl⟩


theorem execCampaignBegin_keeps {s0 s : State} (h : Keeps s0 s) :
    ∀ x0, Ends s0 (execCampaignBegin x0 s) := by
  intros
  unfold execCampaignBegin
  with_reducible repeat' first
    | assumption | intro _ | extract_lets | apply Keeps.ite | split | apply State.offer_keeps
    | apply State.setCamp_keeps | apply Keeps.foldl | apply Keeps.foldl_pair | apply Ends.next
    | exact ⟨rfl, rfl, rfl⟩


theorem execCarouselSegment_keeps {s0 s : State} (h : Keeps s0 s) :
    ∀ x0, Ends s0 (execCarouselSegment x0 s) := by
  intros
  unfold execCarouselSegment
  with_reducible repeat' first
    | assumption | intro _ | extract_lets | apply Keeps.ite | split | apply State.sendSegment_keeps
    | apply State.setCamp_keeps | apply Ends.next | exact ⟨rfl, rfl, rfl⟩


theorem execFwStatus_keeps {s0 s : State} (h : Keeps s0 s) :
    Ends s0 (execFwStatus s) := by
  unfold execFwStatus
  with_reducible repeat' first
    | assumption | intro _ | extract_lets | split | apply State.openFrame_keeps | apply State.applyStatus_keeps
    | apply State.takeFrame_keeps | apply Ends.next | refine Keeps.of_fst (by assumption) ?_ | apply Keeps.mk_upd
    | exact ⟨rfl, rfl, rfl⟩


theorem execCampaignEnd_keeps {s0 s : State} (h : Keeps s0 s) :
    ∀ x0, Ends s0 (execCampaignEnd x0 s) := by
  intros
  unfold execCampaignEnd
  with_reducible repeat' first
    | assumption | intro _ | extract_lets | apply Keeps.ite | split | apply State.endCampaign_keeps
    | apply State.setCamp_keeps | apply Ends.next | exact ⟨rfl, rfl, rfl⟩


end Sys2Proof.Machine
end

