-- ==== Sys2Proof/Laws/KeepsKeys.lean ====
section
/-! SUPPORT. The operations of Machine/Keys lead from a state to one that follows from it (Keeps). -/

set_option Elab.async false

namespace Sys2Proof.Machine

theorem State.resizeKeys_keeps {s0 s : State} (h : Keeps s0 s) :
    Keeps s0 (State.resizeKeys s) := by
  unfold State.resizeKeys
  with_reducible repeat' first
    | assumption | intro _ | extract_lets | apply State.showSlots_keeps | apply Keeps.mk_upd | exact ⟨rfl, rfl, rfl⟩


theorem State.reserve_keeps {s0 s : State} (h : Keeps s0 s) :
    ∀ x1, Keeps s0 (State.reserve s x1) := by
  intros
  unfold State.reserve
  with_reducible repeat' first
    | assumption | intro _ | extract_lets | apply Keeps.ite | split | apply State.setF_keeps | apply Keeps.mk_upd
    | exact ⟨rfl, rfl, rfl⟩


theorem State.countSign_keeps {s0 s : State} (h : Keeps s0 s) :
    Keeps s0 (State.countSign s) := by
  unfold State.countSign
  with_reducible repeat' first
    | assumption | intro _ | extract_lets | apply Keeps.ite | split | apply State.bump_keeps | apply Keeps.mk_upd
    | exact ⟨rfl, rfl, rfl⟩


theorem State.setLeaf_keeps {s0 s : State} (h : Keeps s0 s) :
    ∀ x1, Keeps s0 (State.setLeaf s x1) := by
  intros
  unfold State.setLeaf
  with_reducible repeat' first
    | assumption | intro _ | extract_lets | apply Keeps.ite | split | apply State.flag_keeps
    | apply State.setF_keeps | apply State.raiseItem_keeps | apply State.post_keeps | apply Keeps.mk_upd
    | exact ⟨rfl, rfl, rfl⟩


theorem State.takeLeaf_keeps {s0 s : State} (h : Keeps s0 s) :
    ∀ x1, Keeps s0 (State.takeLeaf s x1).1 := by
  intros
  unfold State.takeLeaf
  with_reducible repeat' first
    | assumption | intro _ | extract_lets | apply Keeps.ite | split | apply State.reserve_keeps
    | apply State.countSign_keeps | apply State.setLeaf_keeps


theorem State.attest_keeps {s0 s : State} (h : Keeps s0 s) :
    ∀ x1 x2 x3, Keeps s0 (State.attest s x1 x2 x3).1 := by
  intros
  unfold State.attest
  with_reducible repeat' first
    | assumption | intro _ | extract_lets | split | apply State.takeLeaf_keeps | apply State.fatal_keeps
    | refine Keeps.of_fst (by assumption) ?_ | exact ⟨rfl, rfl, rfl⟩


theorem State.closeSessions_keeps {s0 s : State} (h : Keeps s0 s) :
    Keeps s0 (State.closeSessions s) := by
  unfold State.closeSessions
  with_reducible repeat' first
    | assumption | intro _ | extract_lets | apply Keeps.mk_upd | exact ⟨rfl, rfl, rfl⟩


theorem State.zeroise_keeps {s0 s : State} (h : Keeps s0 s) :
    ∀ x1, Keeps s0 (State.zeroise s x1) := by
  intro src
  unfold State.zeroise
  extract_lets z r r1 idents due _ _ _ s1 s2
  have g1 : Keeps s0 s1 := by
    refine ⟨⟨⟨fun w => ?_, h.pending, h.out, h.drawn⟩, h.pace⟩, h.image⟩
    exact RegFile.puts_wf _ (RegFile.setF_wf _ _ (RegFile.flag_wf _ _ (RegFile.flag_wf _ _ (RegFile.flag_wf _ _
      (RegFile.setF_wf _ _ (RegFile.put_wf _ _ (h.regs w)))))))
  have g2 : Keeps s0 s2 := Keeps.foldl _ g1 fun u x hu => State.endItem_keeps hu _ _ _ _
  exact State.post_keeps (State.showSlots_keeps (State.closeSessions_keeps g2)) _ _


theorem State.signWaiting_keeps {s0 s : State} (h : Keeps s0 s) :
    ∀ x1, Keeps s0 (State.signWaiting s x1) := by
  intros
  unfold State.signWaiting
  with_reducible repeat' first
    | assumption | intro _ | extract_lets | apply Keeps.ite | split | apply State.endItem_keeps
    | apply State.attest_keeps | apply Keeps.foldl | apply Keeps.foldl_pair | refine Keeps.of_fst (by assumption) ?_
    | apply Keeps.mk_upd | exact ⟨rfl, rfl, rfl⟩


theorem runAttestReq_keeps {s0 s : State} (h : Keeps s0 s) :
    ∀ x0 x2 x3, Keeps s0 (runAttestReq x0 s x2 x3).1 := by
  intros
  unfold runAttestReq
  with_reducible repeat' first
    | assumption | intro _ | extract_lets | apply Keeps.ite | split | apply State.attest_keeps
    | apply RegFile.ite_wf | refine Keeps.of_fst (by assumption) ?_ | apply Keeps.mk_upd | exact ⟨rfl, rfl, rfl⟩


theorem runEnrol_keeps {s0 s : State} (h : Keeps s0 s) :
    ∀ x1, Keeps s0 (runEnrol s x1).1 := by
  intros
  unfold runEnrol
  with_reducible repeat' first
    | assumption | intro _ | extract_lets | apply Keeps.ite | split | apply State.flag_keeps | apply RegFile.ite_wf
    | apply RegFile.flag_wf | apply Keeps.mk_upd | exact ⟨rfl, rfl, rfl⟩


theorem execAttest_keeps {s0 s : State} (h : Keeps s0 s) :
    ∀ x0 x1 x2, Ends s0 (execAttest x0 x1 x2 s) := by
  intros
  unfold execAttest
  with_reducible repeat' first
    | assumption | intro _ | apply Keeps.ite | split | apply State.serve_keeps | apply State.setF_keeps
    | apply State.taskCommand_keeps | apply runAttestReq_keeps | apply runEnrol_keeps | apply Ends.next


theorem execHssTreeJob_keeps {s0 s : State} (h : Keeps s0 s) :
    ∀ x0, Ends s0 (execHssTreeJob x0 s) := by
  intros
  unfold execHssTreeJob
  with_reducible repeat' first
    | assumption | intro _ | extract_lets | apply Keeps.ite | split | apply State.flag_keeps
    | apply State.signWaiting_keeps | apply Ends.next | apply Ends.ite | apply Keeps.mk_upd | exact ⟨rfl, rfl, rfl⟩


theorem execRngHealthFail_keeps {s0 s : State} (h : Keeps s0 s) :
    Ends s0 (execRngHealthFail s) := by
  unfold execRngHealthFail
  with_reducible repeat' first
    | assumption | apply State.post_keeps | apply State.bump_keeps | apply State.flag_keeps | apply Ends.next


theorem execRngOutputResume_keeps {s0 s : State} (h : Keeps s0 s) :
    Ends s0 (execRngOutputResume s) := by
  unfold execRngOutputResume
  with_reducible repeat' first
    | assumption | apply State.flag_keeps | apply Ends.next


end Sys2Proof.Machine
end

