-- ==== Sys2Proof/Laws/KeepsQueues.lean ====
section
/-! SUPPORT. The operations of Machine/Queues lead from a state to one that follows from it (Keeps). -/

set_option Elab.async false

namespace Sys2Proof.Machine

theorem State.loadSeed_keeps {s0 s : State} (h : Keeps s0 s) :
    ∀ x1, Keeps s0 (State.loadSeed s x1) := by
  intros
  unfold State.loadSeed
  with_reducible repeat' first
    | assumption | intro _ | extract_lets | apply RegFile.put_wf | apply Keeps.mk_upd | exact ⟨rfl, rfl, rfl⟩


theorem State.showArb_keeps {s0 s : State} (h : Keeps s0 s) :
    Keeps s0 (State.showArb s) := by
  unfold State.showArb
  with_reducible repeat' first
    | assumption | intro _ | extract_lets | apply Keeps.ite | split | apply RegFile.ite_wf | apply RegFile.setF_wf
    | apply RegFile.flag_wf | apply Keeps.mk_upd | exact ⟨rfl, rfl, rfl⟩


theorem State.setFreeze_keeps {s0 s : State} (h : Keeps s0 s) :
    ∀ x1, Keeps s0 (State.setFreeze s x1) := by
  intros
  unfold State.setFreeze
  with_reducible repeat' first
    | assumption | intro _ | apply Keeps.ite | split | apply State.showArb_keeps | apply State.post_keeps
    | apply State.flag_keeps


theorem State.clearQueues_keeps {s0 s : State} (h : Keeps s0 s) :
    Keeps s0 (State.clearQueues s) := by
  unfold State.clearQueues
  with_reducible repeat' first
    | assumption | intro _ | extract_lets | split | apply State.setQueue_keeps | apply Keeps.foldl
    | apply Keeps.foldl_pair | refine Keeps.of_fst (by assumption) ?_ | apply Keeps.mk_upd | exact ⟨rfl, rfl, rfl⟩


theorem State.draw16_keeps {s0 s : State} (h : Keeps s0 s) :
    ∀ x1, Keeps s0 (State.draw16 s x1) := by
  intros
  unfold State.draw16
  with_reducible repeat' first
    | assumption | intro _ | extract_lets | split | apply RegFile.setF_wf | apply RegFile.bump_wf
    | refine Keeps.of_fst (by assumption) ?_ | apply Keeps.mk_upd | exact ⟨rfl, rfl, rfl⟩


theorem State.saveQueues_keeps {s0 s : State} (h : Keeps s0 s) :
    Keeps s0 (State.saveQueues s) := by
  unfold State.saveQueues
  with_reducible repeat' first
    | assumption | intro _ | extract_lets | split | apply Keeps.foldl | apply Keeps.foldl_pair
    | refine Keeps.of_fst (by assumption) ?_ | apply Keeps.mk_upd | exact ⟨rfl, rfl, rfl⟩


theorem State.loadQueues_keeps {s0 s : State} (h : Keeps s0 s) :
    Keeps s0 (State.loadQueues s) := by
  unfold State.loadQueues
  with_reducible repeat' first
    | assumption | intro _ | extract_lets | split | apply State.setQueue_keeps | apply State.clearQueues_keeps
    | apply Keeps.foldl | apply Keeps.foldl_pair | refine Keeps.of_fst (by assumption) ?_ | apply Keeps.mk_upd
    | exact ⟨rfl, rfl, rfl⟩


theorem State.restoreQueues_keeps {s0 s : State} (h : Keeps s0 s) :
    ∀ x1 x2, Keeps s0 (State.restoreQueues s x1 x2) := by
  intros
  unfold State.restoreQueues
  with_reducible repeat' first
    | assumption | intro _ | extract_lets | apply Keeps.ite | split | apply State.saveQueues_keeps
    | apply State.clearQueues_keeps | apply State.loadQueues_keeps | apply State.postIf_keeps | apply Keeps.mk_upd
    | exact ⟨rfl, rfl, rfl⟩


theorem State.poisonMessage_keeps {s0 s : State} (h : Keeps s0 s) :
    ∀ x1 x2, Keeps s0 (State.poisonMessage s x1 x2) := by
  intros
  unfold State.poisonMessage
  with_reducible repeat' first
    | assumption | intro _ | extract_lets | apply Keeps.ite | split | apply State.dropHead_keeps
    | apply State.rejectRequest_keeps | refine Keeps.of_fst (by assumption) ?_ | apply Keeps.mk_upd
    | exact ⟨rfl, rfl, rfl⟩


theorem State.poisoned_keeps {s0 s : State} (h : Keeps s0 s) :
    ∀ x1 x2, Keeps s0 (State.poisoned s x1 x2) := by
  intros
  unfold State.poisoned
  with_reducible repeat' first
    | assumption | intro _ | extract_lets | apply State.post_keeps | apply RegFile.flag_wf | apply RegFile.bump_wf
    | apply Keeps.mk_upd | exact ⟨rfl, rfl, rfl⟩


theorem State.takeWord_keeps {s0 s : State} (h : Keeps s0 s) :
    ∀ x1 x2, Keeps s0 (State.takeWord s x1 x2) := by
  intros
  unfold State.takeWord
  with_reducible repeat' first
    | assumption | intro _ | apply Keeps.ite | split | apply State.refillQueues_keeps
    | apply State.setReadWords_keeps


theorem State.underrun_keeps {s0 s : State} (h : Keeps s0 s) :
    ∀ x1, Keeps s0 (State.underrun s x1) := by
  intros
  unfold State.underrun
  with_reducible repeat' first
    | assumption | apply State.send_keeps | apply State.flag_keeps


theorem execQueuePush_keeps {s0 s : State} (h : Keeps s0 s) :
    ∀ x0 x1, Ends s0 (execQueuePush x0 x1 s) := by
  intros
  unfold execQueuePush
  with_reducible repeat' first
    | assumption | intro _ | extract_lets | apply Keeps.ite | split | apply State.post_keeps
    | apply State.setQueue_keeps | apply Ends.next | apply Ends.ite | apply RegFile.ite_wf | apply RegFile.flag_wf
    | apply RegFile.bump_wf | refine Keeps.of_fst (by assumption) ?_ | apply Keeps.mk_upd | exact ⟨rfl, rfl, rfl⟩


theorem execQueuePop_keeps {s0 s : State} (h : Keeps s0 s) :
    ∀ x0 x1, Ends s0 (execQueuePop x0 x1 s) := by
  intros
  unfold execQueuePop
  with_reducible repeat' first
    | assumption | intro _ | extract_lets | apply Keeps.ite | split | apply State.poisonMessage_keeps
    | apply State.takeWord_keeps | apply State.setQueue_keeps | apply State.send_keeps | apply State.poisoned_keeps
    | apply State.underrun_keeps | apply Ends.next | exact ⟨rfl, rfl, rfl⟩


theorem execArbDraw_keeps {s0 s : State} (h : Keeps s0 s) :
    ∀ x0, Ends s0 (execArbDraw x0 s) := by
  intros
  unfold execArbDraw
  with_reducible repeat' first
    | assumption | intro _ | extract_lets | apply Keeps.ite | split | apply State.showArb_keeps
    | apply State.draw16_keeps | apply Ends.next | apply Ends.ite | apply Keeps.mk_upd | exact ⟨rfl, rfl, rfl⟩


theorem execArbRelease_keeps {s0 s : State} (h : Keeps s0 s) :
    Ends s0 (execArbRelease s) := by
  unfold execArbRelease
  with_reducible repeat' first
    | assumption | intro _ | extract_lets | apply State.showArb_keeps | apply Ends.next | apply Keeps.mk_upd
    | exact ⟨rfl, rfl, rfl⟩


end Sys2Proof.Machine
end

