-- ==== Sys2Proof/Laws/KeepsRegEffect.lean ====
section
/-! SUPPORT. The operations of Machine/RegEffect lead from a state to one that follows from it (Keeps). -/

set_option Elab.async false

namespace Sys2Proof.Machine

theorem State.lowChanged_keeps {s0 s : State} (h : Keeps s0 s) :
    ∀ x1, Keeps s0 (State.lowChanged s x1) := by
  intros
  unfold State.lowChanged
  with_reducible repeat' first
    | assumption | intro _ | apply Keeps.ite | split | apply State.creditChanged_keeps | apply Keeps.foldl
    | apply Keeps.foldl_pair


theorem State.afterWrite_keeps {s0 s : State} (h : Keeps s0 s) :
    ∀ x1 x2, Keeps s0 (State.afterWrite s x1 x2) := by
  intros
  unfold State.afterWrite
  with_reducible repeat' first
    | assumption | intro _ | extract_lets | apply Keeps.ite | split | apply State.resizeKeys_keeps
    | apply State.loadSeed_keeps | apply State.setFreeze_keeps | apply State.paramsChanged_keeps
    | apply State.keypadCfg_keeps | apply State.pump_keeps | apply State.lowChanged_keeps | apply RegFile.ite_wf
    | apply RegFile.put_wf | refine Keeps.of_fst (by assumption) ?_ | apply Keeps.mk_upd | exact ⟨rfl, rfl, rfl⟩


end Sys2Proof.Machine
end

