-- ==== Sys2Proof/Laws/KeepsPair.lean ====
section
/-! SUPPORT. The operations of Machine/Pair lead from a state to one that follows from it (Keeps). -/

set_option Elab.async false

namespace Sys2Proof.Machine

theorem State.forward_keeps {s0 s : State} (h : Keeps s0 s) :
    ∀ x1, Keeps s0 (State.forward s x1) := by
  intros
  unfold State.forward
  with_reducible repeat' first
    | assumption | intro _ | extract_lets | apply Keeps.ite | split | apply RegFile.ite_wf | apply Keeps.mk_upd
    | exact ⟨rfl, rfl, rfl⟩


theorem State.releaseOne_keeps {s0 s : State} (h : Keeps s0 s) :
    ∀ x0 x2, Keeps s0 (State.releaseOne x0 s x2) := by
  intro sends o
  have g : ∀ o, Keeps s0 (if sends = true then { s with out := s.out ++ [o] } else s) := fun o =>
    Keeps.ite (fun _ => ⟨⟨⟨h.regs, h.pending, h.out.trans (List.prefix_append _ _), h.drawn⟩, h.pace⟩, h.image⟩) (fun _ => h)
  cases o
  case envelope => exact h.of_eq rfl rfl rfl rfl rfl rfl
  all_goals exact g _


theorem State.releaseThose_keeps {s0 s : State} (h : Keeps s0 s) :
    ∀ x1 x2, Keeps s0 (State.releaseThose s x1 x2) := by
  intros
  unfold State.releaseThose
  with_reducible repeat' first
    | assumption | intro _ | extract_lets | apply State.releaseOne_keeps | apply Keeps.foldl
    | apply Keeps.foldl_pair | apply Keeps.mk_upd | exact ⟨rfl, rfl, rfl⟩


theorem State.outOfStep_keeps {s0 s : State} (h : Keeps s0 s) :
    ∀ x1, Keeps s0 (State.outOfStep s x1) := by
  intros
  unfold State.outOfStep
  with_reducible repeat' first
    | assumption | intro _ | extract_lets | split | apply State.flag_keeps | apply State.setF_keeps
    | apply State.releaseThose_keeps | refine Keeps.of_fst (by assumption) ?_ | apply Keeps.mk_upd
    | exact ⟨rfl, rfl, rfl⟩


theorem State.pairLinkDown_keeps {s0 s : State} (h : Keeps s0 s) :
    Keeps s0 (State.pairLinkDown s) := by
  unfold State.pairLinkDown
  with_reducible repeat' first
    | assumption | intro _ | extract_lets | apply Keeps.ite | split | apply State.flag_keeps
    | apply State.setF_keeps | apply State.outOfStep_keeps | apply Keeps.mk_upd | exact ⟨rfl, rfl, rfl⟩


theorem State.failLocal_keeps {s0 s : State} (h : Keeps s0 s) :
    ∀ x1, Keeps s0 (State.failLocal s x1) := by
  intros
  unfold State.failLocal
  with_reducible repeat' first
    | assumption | intro _ | apply Keeps.ite | split | apply State.endItem_keeps | apply Keeps.foldl


theorem State.becomeOut_keeps {s0 s : State} (h : Keeps s0 s) :
    Keeps s0 (State.becomeOut s) := by
  unfold State.becomeOut
  with_reducible repeat' first
    | assumption | intro _ | extract_lets | split | apply State.flag_keeps | apply State.setF_keeps
    | apply State.closeSessions_keeps | apply State.failLocal_keeps | refine Keeps.of_fst (by assumption) ?_
    | apply Keeps.mk_upd | exact ⟨rfl, rfl, rfl⟩


theorem State.zeroisePair_keeps {s0 s : State} (h : Keeps s0 s) :
    Keeps s0 (State.zeroisePair s) := by
  unfold State.zeroisePair
  with_reducible repeat' first
    | assumption | intro _ | extract_lets | apply Keeps.ite | split | apply State.pairLinkDown_keeps
    | apply State.becomeOut_keeps | apply Keeps.mk_upd | exact ⟨rfl, rfl, rfl⟩


theorem State.zeroiseLine_keeps {s0 s : State} (h : Keeps s0 s) :
    ∀ x1, Keeps s0 (State.zeroiseLine s x1) := by
  intros
  unfold State.zeroiseLine
  with_reducible repeat' first
    | assumption | intro _ | extract_lets | apply Keeps.ite | split | apply State.zeroisePair_keeps
    | apply State.zeroise_keeps | apply RegFile.ite_wf | apply RegFile.put_wf | apply Keeps.mk_upd
    | exact ⟨rfl, rfl, rfl⟩


theorem State.startResync_keeps {s0 s : State} (h : Keeps s0 s) :
    Keeps s0 (State.startResync s) := by
  unfold State.startResync
  with_reducible repeat' first
    | assumption | intro _ | extract_lets | apply Keeps.ite | split | apply State.flag_keeps
    | apply State.setF_keeps | refine Keeps.of_fst (by assumption) ?_ | apply Keeps.mk_upd | exact ⟨rfl, rfl, rfl⟩


theorem State.closeEntry_keeps {s0 s : State} (h : Keeps s0 s) :
    ∀ x1, Keeps s0 (State.closeEntry s x1) := by
  intros
  unfold State.closeEntry
  with_reducible repeat' first
    | assumption | intro _ | extract_lets | apply Keeps.ite | split | apply RegFile.ite_wf | apply RegFile.setF_wf
    | apply Keeps.mk_upd | exact ⟨rfl, rfl, rfl⟩


theorem State.handoverPair_keeps {s0 s : State} (h : Keeps s0 s) :
    Keeps s0 (State.handoverPair s) := by
  unfold State.handoverPair
  with_reducible repeat' first
    | assumption | intro _ | extract_lets | apply State.closeEntry_keeps | apply State.record_keeps
    | apply State.setF_keeps | apply Keeps.mk_upd | exact ⟨rfl, rfl, rfl⟩


theorem State.leaveService_keeps {s0 s : State} (h : Keeps s0 s) :
    Keeps s0 (State.leaveService s) := by
  unfold State.leaveService
  with_reducible repeat' first
    | assumption | intro _ | apply Keeps.ite | split | apply State.becomeOut_keeps | apply State.handoverPair_keeps


theorem State.becomeActive_keeps {s0 s : State} (h : Keeps s0 s) :
    ∀ x1, Keeps s0 (State.becomeActive s x1) := by
  intros
  unfold State.becomeActive
  with_reducible repeat' first
    | assumption | intro _ | extract_lets | apply State.setF_keeps | apply Keeps.mk_upd | exact ⟨rfl, rfl, rfl⟩


theorem State.becomeStandby_keeps {s0 s : State} (h : Keeps s0 s) :
    Keeps s0 (State.becomeStandby s) := by
  unfold State.becomeStandby
  with_reducible repeat' first
    | assumption | intro _ | extract_lets | apply Keeps.ite | split | apply State.setF_keeps | apply Keeps.mk_upd
    | exact ⟨rfl, rfl, rfl⟩


theorem State.endHandover_keeps {s0 s : State} (h : Keeps s0 s) :
    ∀ x1, Keeps s0 (State.endHandover s x1) := by
  intros
  unfold State.endHandover
  with_reducible repeat' first
    | assumption | intro _ | extract_lets | split | apply State.endItem_keeps
    | refine Keeps.of_fst (by assumption) ?_ | apply Keeps.mk_upd | exact ⟨rfl, rfl, rfl⟩


theorem State.failsCheck_keeps {s0 s : State} (h : Keeps s0 s) :
    Keeps s0 (State.failsCheck s) := by
  unfold State.failsCheck
  with_reducible repeat' first
    | assumption | apply State.fatal_keeps | apply State.becomeOut_keeps | apply State.post_keeps


theorem State.handOwn_keeps {s0 s : State} (h : Keeps s0 s) :
    ∀ x1, Keeps s0 (State.handOwn s x1) := by
  intros
  unfold State.handOwn
  with_reducible repeat' first
    | assumption | intro _ | apply Keeps.ite | split | apply State.forward_keeps | apply State.handIn_keeps


theorem State.inStep_keeps {s0 s : State} (h : Keeps s0 s) :
    Keeps s0 (State.inStep s) := by
  unfold State.inStep
  with_reducible repeat' first
    | assumption | intro _ | extract_lets | apply Keeps.ite | split | apply State.setF_keeps
    | apply State.flag_keeps | apply State.post_keeps | apply State.handoverPair_keeps
    | apply State.scheduleAct_keeps | apply RegFile.ite_wf | apply RegFile.setF_wf | apply RegFile.flag_wf
    | refine Keeps.of_fst (by assumption) ?_ | apply Keeps.mk_upd | exact ⟨rfl, rfl, rfl⟩


theorem State.noRole_keeps {s0 s : State} (h : Keeps s0 s) :
    Keeps s0 (State.noRole s) := by
  unfold State.noRole
  with_reducible repeat' first
    | assumption | apply State.setF_keeps


theorem State.pairNotice_keeps {s0 s : State} (h : Keeps s0 s) :
    Keeps s0 (State.pairNotice s) := by
  unfold State.pairNotice
  with_reducible repeat' first
    | assumption | apply State.broadcast_keeps


theorem State.timeInput_keeps {s0 s : State} (h : Keeps s0 s) :
    ∀ x1 x2, Keeps s0 (State.timeInput s x1 x2) := by
  intros
  unfold State.timeInput
  with_reducible repeat' first
    | assumption | intro _ | apply Keeps.ite | split | apply State.forward_keeps | apply State.timeSample_keeps
    | apply State.record_keeps


theorem State.releaseAll_keeps {s0 s : State} (h : Keeps s0 s) :
    Keeps s0 (State.releaseAll s) := by
  unfold State.releaseAll
  with_reducible repeat' first
    | assumption | apply State.releaseThose_keeps


theorem State.releaseHeld_keeps {s0 s : State} (h : Keeps s0 s) :
    ∀ x1, Keeps s0 (State.releaseHeld s x1) := by
  intros
  unfold State.releaseHeld
  with_reducible repeat' first
    | assumption | apply State.releaseThose_keeps


theorem State.resendNotices_keeps {s0 s : State} (h : Keeps s0 s) :
    Keeps s0 (State.resendNotices s) := by
  unfold State.resendNotices
  with_reducible repeat' first
    | assumption | intro _ | extract_lets | apply Keeps.ite | split | apply Keeps.mk_upd | exact ⟨rfl, rfl, rfl⟩


theorem runPairSwitch_keeps {s0 s : State} (h : Keeps s0 s) :
    ∀ x1 x2, Keeps s0 (runPairSwitch s x1 x2).1 := by
  intros
  unfold runPairSwitch
  with_reducible repeat' first
    | assumption | intro _ | extract_lets | apply Keeps.ite | split | apply RegFile.ite_wf | apply Keeps.mk_upd
    | exact ⟨rfl, rfl, rfl⟩


theorem execPairSwitch_keeps {s0 s : State} (h : Keeps s0 s) :
    ∀ x0, Ends s0 (execPairSwitch x0 s) := by
  intros
  unfold execPairSwitch
  with_reducible repeat' first
    | assumption | intro _ | apply State.serve_keeps | apply State.taskCommand_keeps | apply runPairSwitch_keeps
    | apply Ends.next


theorem execTamperTrigger_keeps {s0 s : State} (h : Keeps s0 s) :
    ∀ x0, Ends s0 (execTamperTrigger x0 s) := by
  intros
  unfold execTamperTrigger
  with_reducible repeat' first
    | assumption | intro _ | extract_lets | apply Keeps.ite | split | apply State.setF_keeps
    | apply State.zeroiseLine_keeps | apply Ends.next | exact ⟨rfl, rfl, rfl⟩


theorem execZeroise_keeps {s0 s : State} (h : Keeps s0 s) :
    ∀ x0 x1 x2, Ends s0 (execZeroise x0 x1 x2 s) := by
  intros
  unfold execZeroise
  with_reducible repeat' first
    | assumption | intro _ | apply Keeps.ite | split | apply State.zeroiseLine_keeps | apply Ends.next


theorem execPairLinkUp_keeps {s0 s : State} (h : Keeps s0 s) :
    ∀ x0, Ends s0 (execPairLinkUp x0 s) := by
  intros
  unfold execPairLinkUp
  with_reducible repeat' first
    | assumption | intro _ | extract_lets | apply Keeps.ite | split | apply State.send_keeps
    | apply State.drawLocal_keeps | apply State.post_keeps | apply Ends.next | apply Ends.ite
    | refine Keeps.of_fst (by assumption) ?_ | apply Keeps.mk_upd | exact ⟨rfl, rfl, rfl⟩


theorem execLaneChange_keeps {s0 s : State} (h : Keeps s0 s) :
    ∀ x0 x1 x2, Ends s0 (execLaneChange x0 x1 x2 s) := by
  intros
  unfold execLaneChange
  with_reducible repeat' first
    | assumption | intro _ | extract_lets | apply Keeps.ite | split | apply State.pairLinkDown_keeps
    | apply State.post_keeps | apply State.bump_keeps | apply State.flag_keeps | apply Ends.next | apply Ends.ite
    | apply Keeps.mk_upd | exact ⟨rfl, rfl, rfl⟩


theorem execDigestCompare_keeps {s0 s : State} (h : Keeps s0 s) :
    ∀ x0 x1 x2, Ends s0 (execDigestCompare x0 x1 x2 s) := by
  intros
  unfold execDigestCompare
  with_reducible repeat' first
    | assumption | intro _ | extract_lets | apply Keeps.ite | split | apply State.releaseHeld_keeps
    | apply State.setF_keeps | apply State.post_keeps | apply State.bump_keeps | apply State.flag_keeps
    | apply State.inStep_keeps | apply Ends.next | apply Ends.ite | refine Keeps.of_fst (by assumption) ?_
    | apply Keeps.mk_upd | exact ⟨rfl, rfl, rfl⟩


theorem execSelfCheckResult_keeps {s0 s : State} (h : Keeps s0 s) :
    ∀ x0 x1, Ends s0 (execSelfCheckResult x0 x1 s) := by
  intros
  unfold execSelfCheckResult
  with_reducible repeat' first
    | assumption | intro _ | extract_lets | apply Keeps.ite | split | apply State.failsCheck_keeps
    | apply State.handoverPair_keeps | apply State.setF_keeps | apply State.outOfStep_keeps | apply State.bump_keeps
    | apply State.becomeActive_keeps | apply State.releaseAll_keeps | apply State.startResync_keeps
    | apply Ends.next | apply Ends.ite | apply RegFile.ite_wf | apply RegFile.setF_wf | apply RegFile.bump_wf
    | apply Keeps.mk_upd | exact ⟨rfl, rfl, rfl⟩


theorem execCommonCheckpoint_keeps {s0 s : State} (h : Keeps s0 s) :
    Ends s0 (execCommonCheckpoint s) := by
  unfold execCommonCheckpoint
  with_reducible repeat' first
    | assumption | intro _ | extract_lets | apply Keeps.ite | split | apply State.setF_keeps | apply Ends.next
    | apply Ends.ite | refine Keeps.of_fst (by assumption) ?_ | apply Keeps.mk_upd | exact ⟨rfl, rfl, rfl⟩


theorem execRoleDecision_keeps {s0 s : State} (h : Keeps s0 s) :
    ∀ x0, Ends s0 (execRoleDecision x0 s) := by
  intros
  unfold execRoleDecision
  with_reducible repeat' first
    | assumption | intro _ | extract_lets | apply Keeps.ite | split | apply State.flag_keeps
    | apply State.post_keeps | apply State.noRole_keeps | apply State.becomeStandby_keeps
    | apply State.pairNotice_keeps | apply State.setF_keeps | apply State.becomeActive_keeps | apply Ends.next
    | exact ⟨rfl, rfl, rfl⟩


theorem execDeadman_keeps {s0 s : State} (h : Keeps s0 s) :
    Ends s0 (execDeadman s) := by
  unfold execDeadman
  with_reducible repeat' first
    | assumption | intro _ | extract_lets | apply Ends.next | apply Keeps.mk_upd | exact ⟨rfl, rfl, rfl⟩


theorem execTakeover_keeps {s0 s : State} (h : Keeps s0 s) :
    Ends s0 (execTakeover s) := by
  unfold execTakeover
  with_reducible repeat' first
    | assumption | intro _ | extract_lets | apply Keeps.ite | split | apply State.flag_keeps
    | apply State.setF_keeps | apply State.becomeActive_keeps | apply State.acceptFrameIn_keeps
    | apply State.pairNotice_keeps | apply State.post_keeps | apply State.bump_keeps | apply State.endHandover_keeps
    | apply State.resendNotices_keeps | apply State.releaseAll_keeps | apply State.failLocal_keeps
    | apply Keeps.foldl | apply Keeps.foldl_pair | apply Ends.next | apply Ends.ite
    | refine Keeps.of_fst (by assumption) ?_ | apply Keeps.mk_upd | exact ⟨rfl, rfl, rfl⟩


theorem execDualYield_keeps {s0 s : State} (h : Keeps s0 s) :
    Ends s0 (execDualYield s) := by
  unfold execDualYield
  with_reducible repeat' first
    | assumption | intro _ | extract_lets | apply Keeps.ite | split | apply State.flag_keeps
    | apply State.setF_keeps | apply State.becomeStandby_keeps | apply State.post_keeps | apply State.bump_keeps
    | apply Ends.next


end Sys2Proof.Machine
end

