-- ==== Sys2Proof/Laws/KeepsSession.lean ====
section
/-! SUPPORT. The operations of Machine/Session lead from a state to one that follows from it (Keeps). -/

set_option Elab.async false

namespace Sys2Proof.Machine

theorem State.accept_keeps {s0 s : State} (h : Keeps s0 s) :
    ∀ x1, Keeps s0 (State.accept s x1) := by
  intros
  unfold State.accept
  with_reducible repeat' first
    | assumption | intro _ | extract_lets | apply Keeps.ite | split | apply State.forward_keeps
    | apply State.resp_keeps | apply State.record_keeps | apply Keeps.mk_upd | exact ⟨rfl, rfl, rfl⟩


theorem State.leaveFull_keeps {s0 s : State} (h : Keeps s0 s) :
    ∀ x1, Keeps s0 (State.leaveFull s x1) := by
  intros
  unfold State.leaveFull
  with_reducible repeat' first
    | assumption | intro _ | extract_lets | apply Keeps.ite | split | apply State.flushLost_keeps
    | apply State.setCtx_keeps | apply State.report_keeps | apply Keeps.foldl | exact ⟨rfl, rfl, rfl⟩


theorem State.closeSession_keeps {s0 s : State} (h : Keeps s0 s) :
    ∀ x1, Keeps s0 (State.closeSession s x1) := by
  intros
  unfold State.closeSession
  with_reducible repeat' first
    | assumption | intro _ | extract_lets | apply State.showSlots_keeps | apply State.setCtx_keeps
    | exact ⟨rfl, rfl, rfl⟩


theorem State.resendAll_keeps {s0 s : State} (h : Keeps s0 s) :
    ∀ x1, Keeps s0 (State.resendAll s x1) := by
  intros
  unfold State.resendAll
  with_reducible repeat' first
    | assumption | intro _ | apply Keeps.ite | split | apply State.sendNotice_keeps | apply Keeps.foldl


theorem State.hostResend_keeps {s0 s : State} (h : Keeps s0 s) :
    ∀ x1, Keeps s0 (State.hostResend s x1) := by
  intros
  unfold State.hostResend
  with_reducible repeat' first
    | assumption | apply State.pump_keeps | apply State.resendAll_keeps


theorem State.cancelTasks_keeps {s0 s : State} (h : Keeps s0 s) :
    Keeps s0 (State.cancelTasks s) := by
  unfold State.cancelTasks
  with_reducible repeat' first
    | assumption | intro _ | extract_lets | apply Keeps.ite | split | apply State.cancelItem_keeps
    | apply State.adjustTask_keeps | apply Keeps.foldl | exact ⟨rfl, rfl, rfl⟩


theorem State.openSession_keeps {s0 s : State} (h : Keeps s0 s) :
    ∀ x1 x2, Keeps s0 (State.openSession s x1 x2) := by
  intros
  unfold State.openSession
  with_reducible repeat' first
    | assumption | intro _ | extract_lets | apply State.showSlots_keeps | apply State.setCtx_keeps
    | apply State.pump_keeps | apply State.resendAll_keeps | apply State.resp_keeps | exact ⟨rfl, rfl, rfl⟩


theorem State.dropHandshake_keeps {s0 s : State} (h : Keeps s0 s) :
    ∀ x1, Keeps s0 (State.dropHandshake s x1) := by
  intros
  unfold State.dropHandshake
  with_reducible repeat' first
    | assumption | intro _ | extract_lets | apply State.showSlots_keeps | apply State.setCtx_keeps
    | apply Keeps.mk_upd | exact ⟨rfl, rfl, rfl⟩


theorem State.respHandshake_keeps {s0 s : State} (h : Keeps s0 s) :
    ∀ x1 x2 x3, Keeps s0 (State.respHandshake s x1 x2 x3) := by
  intros
  unfold State.respHandshake
  with_reducible repeat' first
    | assumption | intro _ | extract_lets | apply State.put_keeps | apply State.setCtx_keeps | apply Keeps.mk_upd
    | exact ⟨rfl, rfl, rfl⟩


theorem State.refuse_keeps {s0 s : State} (h : Keeps s0 s) :
    ∀ x1 x2, Keeps s0 (State.refuse s x1 x2) := by
  intros
  unfold State.refuse
  with_reducible repeat' first
    | assumption | intro _ | extract_lets | apply Keeps.ite | split | apply State.respHandshake_keeps
    | apply State.resp_keeps | exact ⟨rfl, rfl, rfl⟩


theorem State.confirm_keeps {s0 s : State} (h : Keeps s0 s) :
    ∀ x1, Keeps s0 (State.confirm s x1) := by
  intros
  unfold State.confirm
  with_reducible repeat' first
    | assumption | intro _ | extract_lets | apply Keeps.ite | split | apply State.resp_keeps
    | apply State.openSession_keeps | apply State.dropHandshake_keeps | apply State.refuse_keeps
    | exact ⟨rfl, rfl, rfl⟩


theorem State.dropWaybill_keeps {s0 s : State} (h : Keeps s0 s) :
    ∀ x1, Keeps s0 (State.dropWaybill s x1) := by
  intros
  unfold State.dropWaybill
  with_reducible repeat' first
    | assumption | intro _ | apply Keeps.ite | split | apply State.bump_keeps


theorem State.expireParts_keeps {s0 s : State} (h : Keeps s0 s) :
    ∀ x1, Keeps s0 (State.expireParts s x1) := by
  intros
  unfold State.expireParts
  with_reducible repeat' first
    | assumption | intro _ | extract_lets | apply Keeps.ite | split | apply State.refuse_keeps
    | apply State.setCtx_keeps | apply Keeps.foldl | exact ⟨rfl, rfl, rfl⟩


theorem State.judgeBody_keeps {s0 s : State} (h : Keeps s0 s) :
    ∀ x1, Keeps s0 (State.judgeBody s x1) := by
  intros
  unfold State.judgeBody
  with_reducible repeat' first
    | assumption | intro _ | extract_lets | apply Keeps.ite | split | apply State.bump_keeps
    | apply State.refuse_keeps | apply State.resp_keeps | apply State.accept_keeps | apply State.takeRate_keeps
    | apply State.busy_keeps | exact ⟨rfl, rfl, rfl⟩


theorem State.protect_keeps {s0 s : State} (h : Keeps s0 s) :
    ∀ x1, ∀ {p}, State.protect s x1 = some p → Keeps s0 p.1 := by
  intro w t e
  unfold State.protect at e
  dsimp only at e
  repeat' split at e
  all_goals first
    | (cases e; exact h)
    | (cases e; done)
    | skip
  all_goals
    rw [Option.map_eq_some_iff] at e
    obtain ⟨r, _, rfl⟩ := e
    exact State.setCtx_keeps h _ _


theorem State.takePart_keeps {s0 s : State} (h : Keeps s0 s) :
    ∀ x1 x2, Keeps s0 (State.takePart s x1 x2) := by
  intros
  unfold State.takePart
  with_reducible repeat' first
    | assumption | intro _ | extract_lets | apply Keeps.ite | split | apply State.judgeBody_keeps
    | apply State.setCtx_keeps | exact ⟨rfl, rfl, rfl⟩


theorem State.judgeWaybill_keeps {s0 s : State} (h : Keeps s0 s) :
    ∀ x1, Keeps s0 (State.judgeWaybill s x1) := by
  intros
  unfold State.judgeWaybill
  with_reducible repeat' first
    | assumption | intro _ | extract_lets | apply Keeps.ite | split | apply State.send_keeps
    | apply State.dropWaybill_keeps | refine State.protect_keeps ?_ _ (by assumption) | apply State.post_keeps
    | apply State.takePart_keeps | exact ⟨rfl, rfl, rfl⟩


theorem State.localRandom_keeps {s0 s : State} (h : Keeps s0 s) :
    Keeps s0 (State.localRandom s).1 := by
  unfold State.localRandom
  with_reducible repeat' first
    | assumption | apply State.drawLocal_keeps


theorem State.openHandshake_keeps {s0 s : State} (h : Keeps s0 s) :
    ∀ x1, Keeps s0 (State.openHandshake s x1) := by
  intros
  unfold State.openHandshake
  with_reducible repeat' first
    | assumption | intro _ | extract_lets | apply Keeps.ite | split | apply State.setCtx_keeps
    | apply State.resp_keeps | apply State.slotsFull_keeps | apply State.localRandom_keeps
    | apply State.showSlots_keeps | apply RegFile.ite_wf | refine Keeps.of_fst (by assumption) ?_
    | exact ⟨rfl, rfl, rfl⟩


theorem State.reportDue_keeps {s0 s : State} (h : Keeps s0 s) :
    ∀ x1, Keeps s0 (State.reportDue s x1) := by
  intros
  unfold State.reportDue
  with_reducible repeat' first
    | assumption | intro _ | extract_lets | apply Keeps.ite | split | apply State.reportItems_keeps
    | exact ⟨rfl, rfl, rfl⟩


theorem State.resendDue_keeps {s0 s : State} (h : Keeps s0 s) :
    ∀ x1, Keeps s0 (State.resendDue s x1) := by
  intros
  unfold State.resendDue
  with_reducible repeat' first
    | assumption | intro _ | extract_lets | apply Keeps.ite | split | apply State.setCtx_keeps
    | apply State.sendNotice_keeps | apply Keeps.foldl | exact ⟨rfl, rfl, rfl⟩


theorem State.serveOutside_keeps {s0 s : State} (h : Keeps s0 s) {x3 : State → State} (hf3 : ∀ t, Keeps s0 t → Keeps s0 (x3 t)) :
    ∀ x1 x2, Keeps s0 (State.serveOutside s x1 x2 x3) := by
  intros
  unfold State.serveOutside
  with_reducible repeat' first
    | assumption | intro _ | extract_lets | apply Keeps.ite | split | apply State.refuse_keeps
    | apply State.bump_keeps | apply State.takeRate_keeps | apply hf3 | apply Keeps.mk_upd | exact ⟨rfl, rfl, rfl⟩


theorem State.takeAck_keeps {s0 s : State} (h : Keeps s0 s) :
    ∀ x1, Keeps s0 (State.takeAck s x1) := by
  intros
  unfold State.takeAck
  with_reducible repeat' first
    | assumption | intro _ | extract_lets | apply Keeps.ite | split | apply State.setCtx_keeps
    | apply State.dropTask_keeps | apply State.pump_keeps | apply State.leaveFull_keeps | apply Keeps.foldl
    | exact ⟨rfl, rfl, rfl⟩


theorem execWaybillPart_keeps {s0 s : State} (h : Keeps s0 s) :
    Ends s0 (execWaybillPart s) := by
  unfold execWaybillPart
  with_reducible repeat' first
    | assumption | intro _ | extract_lets | split | apply State.judgeWaybill_keeps | apply Ends.next
    | refine Keeps.of_fst (by assumption) ?_ | apply Keeps.mk_upd | exact ⟨rfl, rfl, rfl⟩


theorem execPartTimeout_keeps {s0 s : State} (h : Keeps s0 s) :
    Ends s0 (execPartTimeout s) := by
  unfold execPartTimeout
  with_reducible repeat' first
    | assumption | intro _ | apply State.expireParts_keeps | apply Keeps.foldl | apply Keeps.foldl_pair
    | apply Ends.next


theorem execSessionOpen_keeps {s0 s : State} (h : Keeps s0 s) :
    ∀ x0, Ends s0 (execSessionOpen x0 s) := by
  intros
  unfold execSessionOpen
  with_reducible repeat' first
    | assumption | intro _ | apply Keeps.ite | split | apply State.serveOutside_keeps
    | apply State.openHandshake_keeps | apply Ends.next


theorem execSessionConfirm_keeps {s0 s : State} (h : Keeps s0 s) :
    ∀ x0, Ends s0 (execSessionConfirm x0 s) := by
  intros
  unfold execSessionConfirm
  with_reducible repeat' first
    | assumption | intro _ | apply State.serveOutside_keeps | apply State.confirm_keeps | apply Ends.next


theorem execSessionClose_keeps {s0 s : State} (h : Keeps s0 s) :
    ∀ x0, Ends s0 (execSessionClose x0 s) := by
  intros
  unfold execSessionClose
  with_reducible repeat' first
    | assumption | intro _ | extract_lets | split | apply State.serveOutside_keeps | apply State.resp_keeps
    | apply State.closeSession_keeps | apply Ends.next | exact ⟨rfl, rfl, rfl⟩


theorem execIdentity_keeps {s0 s : State} (h : Keeps s0 s) :
    ∀ x0, Ends s0 (execIdentity x0 s) := by
  intros
  unfold execIdentity
  with_reducible repeat' first
    | assumption | intro _ | apply Keeps.ite | split | apply State.serveOutside_keeps | apply State.resp_keeps
    | apply Ends.next


theorem execHandshakeTimeout_keeps {s0 s : State} (h : Keeps s0 s) :
    Ends s0 (execHandshakeTimeout s) := by
  unfold execHandshakeTimeout
  with_reducible repeat' first
    | assumption | intro _ | extract_lets | apply Keeps.ite | split | apply State.showSlots_keeps | apply Ends.next
    | apply Ends.ite | refine Keeps.of_fst (by assumption) ?_ | apply Keeps.mk_upd | exact ⟨rfl, rfl, rfl⟩


theorem execSessionLifeExpiry_keeps {s0 s : State} (h : Keeps s0 s) :
    Ends s0 (execSessionLifeExpiry s) := by
  unfold execSessionLifeExpiry
  with_reducible repeat' first
    | assumption | intro _ | extract_lets | apply Keeps.ite | split | apply State.closeSession_keeps
    | apply Keeps.foldl | apply Keeps.foldl_pair | apply Ends.next | exact ⟨rfl, rfl, rfl⟩


theorem execTaskQuery_keeps {s0 s : State} (h : Keeps s0 s) :
    ∀ x0, Ends s0 (execTaskQuery x0 s) := by
  intros
  unfold execTaskQuery
  with_reducible repeat' first
    | assumption | intro _ | extract_lets | apply Keeps.ite | split | apply State.serve_keeps
    | apply State.immediate_keeps | apply State.dropTask_keeps | apply Ends.next | exact ⟨rfl, rfl, rfl⟩


theorem execTaskCancel_keeps {s0 s : State} (h : Keeps s0 s) :
    ∀ x0, Ends s0 (execTaskCancel x0 s) := by
  intros
  unfold execTaskCancel
  with_reducible repeat' first
    | assumption | intro _ | extract_lets | split | apply State.serve_keeps | apply State.resp_keeps
    | apply State.admitTask_keeps | apply State.adjustTask_keeps | apply Ends.next | exact ⟨rfl, rfl, rfl⟩


theorem execTaskItemsNotice_keeps {s0 s : State} (h : Keeps s0 s) :
    Ends s0 (execTaskItemsNotice s) := by
  unfold execTaskItemsNotice
  with_reducible repeat' first
    | assumption | intro _ | apply State.reportDue_keeps | apply Keeps.foldl | apply Keeps.foldl_pair
    | apply Ends.next


theorem execAck_keeps {s0 s : State} (h : Keeps s0 s) :
    ∀ x0, Ends s0 (execAck x0 s) := by
  intros
  unfold execAck
  with_reducible repeat' first
    | assumption | intro _ | extract_lets | apply Keeps.ite | split | apply State.takeAck_keeps | apply Ends.next
    | apply Ends.ite | apply Keeps.mk_upd | exact ⟨rfl, rfl, rfl⟩


theorem execNoticeResend_keeps {s0 s : State} (h : Keeps s0 s) :
    Ends s0 (execNoticeResend s) := by
  unfold execNoticeResend
  with_reducible repeat' first
    | assumption | intro _ | apply State.resendDue_keeps | apply Keeps.foldl | apply Keeps.foldl_pair
    | apply Ends.next


end Sys2Proof.Machine
end

