-- ==== Sys2Proof/Laws/KeepsImage.lean ====
section
/-! SUPPORT. The operations of Machine/Image lead from a state to one that follows from it (Keeps). -/

set_option Elab.async false

namespace Sys2Proof.Machine

theorem RegFile.setFields_wf {m : RegFile} (l : List (FieldRef × Nat)) (h : m.wf = true) :
    (m.setFields l).wf = true := RegFile.foldl_wf l (fun _ e => RegFile.setF_wf e.1 e.2) h

theorem RegFile.regInit_wf {m : RegFile} (e : RegInit) (h : m.wf = true) : (m.regInit e).wf = true := by
  unfold RegFile.regInit
  exact RegFile.put_wf _ _ h

theorem State.afterInit_keeps {s0 s : State} (h : Keeps s0 s) :
    ∀ x1 x2, Keeps s0 (State.afterInit s x1 x2) := by
  intros
  unfold State.afterInit
  with_reducible repeat' first
    | assumption | intro _ | apply Keeps.ite | split | apply State.afterWrite_keeps | apply RegFile.ite_wf


theorem State.warpRejected_keeps {s0 s : State} (h : Keeps s0 s) :
    ∀ x1 x2, Keeps s0 (State.warpRejected s x1 x2) := by
  intros
  unfold State.warpRejected
  with_reducible repeat' first
    | assumption | intro _ | extract_lets | apply State.post_keeps | apply State.setF_keeps | apply Keeps.mk_upd
    | exact ⟨rfl, rfl, rfl⟩


theorem State.formatNand_keeps {s0 s : State} (h : Keeps s0 s) :
    ∀ x1 x2, Keeps s0 (State.formatNand s x1 x2) := by
  intros
  unfold State.formatNand
  with_reducible repeat' first
    | assumption | intro _ | extract_lets | apply Keeps.foldl | apply Keeps.foldl_pair | apply RegFile.setF_wf
    | apply RegFile.foldl_wf | apply Keeps.mk_upd | exact ⟨rfl, rfl, rfl⟩


theorem State.changeNamespaces_keeps {s0 s : State} (h : Keeps s0 s) :
    ∀ x1, Keeps s0 (State.changeNamespaces s x1) := by
  intros
  unfold State.changeNamespaces
  with_reducible repeat' first
    | assumption | intro _ | extract_lets | apply Keeps.ite | split | apply State.journal_keeps | apply Keeps.mk_upd
    | exact ⟨rfl, rfl, rfl⟩


theorem State.changeStorage_keeps {s0 s : State} (h : Keeps s0 s) :
    ∀ x1 x2, Keeps s0 (State.changeStorage s x1 x2) := by
  intros
  unfold State.changeStorage
  with_reducible repeat' first
    | assumption | intro _ | extract_lets | apply Keeps.ite | split | apply State.formatNand_keeps
    | apply State.changeNamespaces_keeps | apply Keeps.foldl | apply Keeps.foldl_pair | apply Ends.next
    | apply Ends.ite | apply RegFile.ite_wf | apply RegFile.setF_wf | apply RegFile.flag_wf | apply RegFile.bump_wf
    | apply RegFile.put_wf | apply RegFile.setFInt_wf | apply RegFile.put64_wf | apply RegFile.foldl_wf
    | refine Keeps.of_fst (by assumption) ?_ | (dsimp +zetaDelta only; split) | apply Keeps.mk_upd
    | exact ⟨rfl, rfl, rfl⟩


theorem State.changeQueues_keeps {s0 s : State} (h : Keeps s0 s) :
    ∀ x1 x2, Keeps s0 (State.changeQueues s x1 x2) := by
  intros
  unfold State.changeQueues
  with_reducible repeat' first
    | assumption | intro _ | extract_lets | apply State.setQueue_keeps | apply Keeps.foldl | apply Keeps.foldl_pair
    | apply Keeps.mk_upd | exact ⟨rfl, rfl, rfl⟩


theorem State.installRegs_keeps {s0 s : State} (h : Keeps s0 s) :
    ∀ x1 x2, Keeps s0 (State.installRegs s x1 x2) := by
  intros
  unfold State.installRegs
  with_reducible repeat' first
    | assumption | intro _ | extract_lets | apply Keeps.ite | split | apply State.changeQueues_keeps
    | apply Keeps.foldl | apply Keeps.foldl_pair | apply RegFile.ite_wf | apply RegFile.foldl_wf
    | apply RegFile.setFields_wf | apply RegFile.regInit_wf | refine Keeps.of_fst (by assumption) ?_
    | apply Keeps.mk_upd | exact ⟨rfl, rfl, rfl⟩


theorem State.supersede_keeps {s0 s : State} (h : Keeps s0 s) :
    Keeps s0 (State.supersede s) := by
  unfold State.supersede
  with_reducible repeat' first
    | assumption | intro _ | extract_lets | apply Keeps.ite | split | apply State.commitNotice_keeps
    | apply RegFile.ite_wf | apply RegFile.setF_wf | refine Keeps.of_fst (by assumption) ?_ | apply Keeps.mk_upd
    | exact ⟨rfl, rfl, rfl⟩


theorem State.holdImage_runs {s0 s : State} (h : Runs s0 s) (w : WarpImage) : Runs s0 (s.holdImage w) :=
  (h.keeps (State.supersede_keeps (Keeps.refl _))).of_eq rfl rfl rfl rfl rfl


theorem State.removeContext_keeps {s0 s : State} (h : Keeps s0 s) :
    ∀ x1, Keeps s0 (State.removeContext s x1) := by
  intros
  unfold State.removeContext
  with_reducible repeat' first
    | assumption | intro _ | extract_lets | apply Keeps.ite | split | apply State.dropTask_keeps
    | apply State.post_keeps | apply State.setCtx_keeps | apply Keeps.foldl | apply Keeps.foldl_pair
    | apply Ends.next | apply Ends.ite | apply RegFile.ite_wf | apply RegFile.setF_wf | apply RegFile.flag_wf
    | apply RegFile.bump_wf | apply RegFile.put_wf | apply RegFile.setFInt_wf | apply RegFile.put64_wf
    | apply RegFile.foldl_wf | refine Keeps.of_fst (by assumption) ?_ | (dsimp +zetaDelta only; split)
    | apply Keeps.mk_upd | exact ⟨rfl, rfl, rfl⟩


theorem State.changeHosts_keeps {s0 s : State} (h : Keeps s0 s) :
    ∀ x1, Keeps s0 (State.changeHosts s x1) := by
  intros
  unfold State.changeHosts
  with_reducible repeat' first
    | assumption | intro _ | extract_lets | apply Keeps.ite | split | apply State.removeContext_keeps
    | apply State.leaveFull_keeps | apply State.setCtx_keeps | apply Keeps.foldl | exact ⟨rfl, rfl, rfl⟩


theorem State.changeRadios_keeps {s0 s : State} (h : Keeps s0 s) :
    ∀ x1 x2, Keeps s0 (State.changeRadios s x1 x2) := by
  intros
  unfold State.changeRadios
  with_reducible repeat' first
    | assumption | intro _ | extract_lets | apply Keeps.ite | split | refine Keeps.of_fst (by assumption) ?_
    | apply Keeps.mk_upd | exact ⟨rfl, rfl, rfl⟩


theorem State.linesLow_keeps {s0 s : State} (h : Keeps s0 s) :
    Keeps s0 (State.linesLow s) := by
  unfold State.linesLow
  with_reducible repeat' first
    | assumption | intro _ | extract_lets | apply Keeps.ite | split | apply State.send_keeps | apply Keeps.foldl
    | apply Keeps.foldl_pair


theorem State.commonAtApply_keeps {s0 s : State} (h : Keeps s0 s) :
    Keeps s0 (State.commonAtApply s) := by
  unfold State.commonAtApply
  with_reducible repeat' first
    | assumption | intro _ | extract_lets | apply Keeps.ite | split | apply State.setF_keeps | apply Keeps.mk_upd
    | exact ⟨rfl, rfl, rfl⟩


theorem State.installImage_runs {s0 s : State} (h : Runs s0 s) (w : WarpImage) (bad : List (Nat × Nat)) :
    Runs s0 (s.installImage w bad) := by
  refine (State.holdImage_runs h w).keeps ?_
  unfold State.installImage
  generalize s.holdImage w = u
  have k := Keeps.refl u
  with_reducible repeat' first
    | assumption | intro _ | extract_lets | apply Keeps.ite | split | apply State.changeStorage_keeps
    | apply State.installRegs_keeps | apply State.changeHosts_keeps | apply State.changeTopology_keeps
    | apply State.sealedChange_keeps | apply State.judgeReady_keeps | apply State.deliverSets_keeps
    | apply State.changeRadios_keeps | apply State.linesLow_keeps | apply State.afterInit_keeps
    | apply State.post_keeps | apply State.commonAtApply_keeps | apply Keeps.foldl | apply Keeps.foldl_pair
    | apply RegFile.ite_wf | apply RegFile.foldl_wf | apply RegFile.regInit_wf
    | refine Keeps.of_fst (by assumption) ?_ | apply Keeps.mk_upd | exact ⟨rfl, rfl, rfl⟩


theorem State.applyDue_runs {s0 s : State} (h : Runs s0 s) (bad : List (Nat × Nat)) : Runs s0 (s.applyDue bad) := by
  unfold State.applyDue
  split
  · split
    · exact h
    · split
      · refine h.keeps (State.warpRejected_keeps ?_ _ _)
        exact (Keeps.refl _).of_eq rfl rfl rfl rfl rfl rfl
      · exact State.installImage_runs h _ _
  · exact h


theorem State.beginReset_keeps {s0 s : State} (h : Keeps s0 s) :
    ∀ x1, Keeps s0 (State.beginReset s x1) := by
  intros
  unfold State.beginReset
  with_reducible repeat' first
    | assumption | intro _ | extract_lets | apply Keeps.mk_upd | exact ⟨rfl, rfl, rfl⟩


theorem State.changeChannel_keeps {s0 s : State} (h : Keeps s0 s) :
    ∀ x0 x1 x3, Keeps s0 (State.changeChannel x0 x1 s x3) := by
  intros
  unfold State.changeChannel
  with_reducible repeat' first
    | assumption | intro _ | extract_lets | apply Keeps.ite | split | apply Keeps.mk_upd | exact ⟨rfl, rfl, rfl⟩


theorem State.changeGains_keeps {s0 s : State} (h : Keeps s0 s) :
    ∀ x1, Keeps s0 (State.changeGains s x1) := by
  intros
  unfold State.changeGains
  with_reducible repeat' first
    | assumption | intro _ | apply Keeps.ite | split | apply State.formGains_keeps


theorem State.changePulse_keeps {s0 s : State} (h : Keeps s0 s) :
    ∀ x0 x1 x3, Keeps s0 (State.changePulse x0 x1 s x3) := by
  intros
  unfold State.changePulse
  with_reducible repeat' first
    | assumption | intro _ | extract_lets | apply Keeps.ite | split | apply RegFile.ite_wf | apply RegFile.setF_wf
    | apply Keeps.mk_upd | exact ⟨rfl, rfl, rfl⟩


theorem State.changePoint_keeps {s0 s : State} (h : Keeps s0 s) :
    ∀ x0 x1 x3, Keeps s0 (State.changePoint x0 x1 s x3) := by
  intros
  unfold State.changePoint
  with_reducible repeat' first
    | assumption | intro _ | extract_lets | apply Keeps.ite | split | apply State.closeInterval_keeps
    | apply State.showPoint_keeps | refine Keeps.of_fst (by assumption) ?_ | apply Keeps.mk_upd
    | exact ⟨rfl, rfl, rfl⟩


theorem State.changeQuantities_keeps {s0 s : State} (h : Keeps s0 s) :
    ∀ x1 x2, Keeps s0 (State.changeQuantities s x1 x2) := by
  intros
  unfold State.changeQuantities
  with_reducible repeat' first
    | assumption | intro _ | apply State.changePulse_keeps | apply State.changePoint_keeps | apply Keeps.foldl


theorem State.changeSensor_keeps {s0 s : State} (h : Keeps s0 s) :
    ∀ x0 x1 x3, Keeps s0 (State.changeSensor x0 x1 s x3) := by
  intros
  unfold State.changeSensor
  with_reducible repeat' first
    | assumption | intro _ | extract_lets | apply Keeps.ite | split | apply State.setZero_keeps
    | apply RegFile.ite_wf | apply RegFile.flag_wf | apply RegFile.setFInt_wf | apply Keeps.mk_upd
    | exact ⟨rfl, rfl, rfl⟩


theorem State.changeSensors_keeps {s0 s : State} (h : Keeps s0 s) :
    ∀ x1 x2, Keeps s0 (State.changeSensors s x1 x2) := by
  intros
  unfold State.changeSensors
  with_reducible repeat' first
    | assumption | intro _ | extract_lets | apply Keeps.ite | split | apply State.changeSensor_keeps
    | apply State.changeGains_keeps | apply State.changeChannel_keeps | apply State.refineEnd_keeps
    | apply Keeps.foldl | exact ⟨rfl, rfl, rfl⟩


theorem State.changePlans_keeps {s0 s : State} (h : Keeps s0 s) :
    ∀ x1 x2, Keeps s0 (State.changePlans s x1 x2) := by
  intros
  unfold State.changePlans
  with_reducible repeat' first
    | assumption | apply State.changeQuantities_keeps | apply State.changeSensors_keeps


theorem State.changeOver_keeps {s0 s : State} (h : Keeps s0 s) :
    ∀ x1 x2 x3 x4, Keeps s0 (State.changeOver s x1 x2 x3 x4) := by
  intros
  unfold State.changeOver
  with_reducible repeat' first
    | assumption | intro _ | extract_lets | apply Keeps.ite | split | apply State.intervalsDue_keeps
    | apply State.toTar_keeps | apply State.changePlans_keeps


theorem State.markRole_keeps {s0 s : State} (h : Keeps s0 s) :
    Keeps s0 (State.markRole s) := by
  unfold State.markRole
  with_reducible repeat' first
    | assumption | intro _ | extract_lets | apply Keeps.mk_upd | exact ⟨rfl, rfl, rfl⟩


theorem State.cutReset_keeps {s0 s : State} (h : Keeps s0 s) :
    ∀ x1 x2, Keeps s0 (State.cutReset s x1 x2) := by
  intros
  unfold State.cutReset
  with_reducible repeat' first
    | assumption | apply State.beginReset_keeps | apply State.finalCheckpoint_keeps | apply State.markRole_keeps


theorem State.resetAfterApply_keeps {s0 s : State} (h : Keeps s0 s) :
    ∀ x1, Keeps s0 (State.resetAfterApply s x1) := by
  intros
  unfold State.resetAfterApply
  with_reducible repeat' first
    | assumption | intro _ | apply Keeps.ite | split | apply State.cutReset_keeps


theorem execApplyScheduledImage_runs {s0 s : State} (h : Runs s0 s) (bad : List (Nat × Nat)) (badLegal : List Nat) :
    EndsRun s0 (execApplyScheduledImage bad badLegal s) := by
  have g := State.applyDue_runs h bad
  unfold execApplyScheduledImage
  refine EndsRun.next ?_
  split
  · exact g.keeps (State.resetAfterApply_keeps (State.changeOver_keeps (Keeps.refl _) _ _ _ _) _)
  · exact g


end Sys2Proof.Machine
end

