-- ==== Sys2Proof/Laws/KeepsMeterCmd.lean ====
section
/-! SUPPORT. The operations of Machine/MeterCmd lead from a state to one that follows from it (Keeps). -/

set_option Elab.async false

namespace Sys2Proof.Machine

theorem State.commandClose_keeps {s0 s : State} (h : Keeps s0 s) :
    ∀ x1 x2, Keeps s0 (State.commandClose s x1 x2) := by
  intros
  unfold State.commandClose
  with_reducible repeat' first
    | assumption | intro _ | extract_lets | apply State.setMeter_keeps | exact ⟨rfl, rfl, rfl⟩


theorem runReading_keeps {s0 s : State} (h : Keeps s0 s) :
    ∀ x1 x2, Keeps s0 (runReading s x1 x2).1 := by
  intros
  unfold runReading
  with_reducible repeat' first
    | assumption | intro _ | extract_lets | apply Keeps.ite | split | apply State.rejectReading_keeps
    | apply State.logReading_keeps | apply State.checkStore_keeps | apply RegFile.ite_wf
    | refine Keeps.of_fst (by assumption) ?_ | exact ⟨rfl, rfl, rfl⟩


theorem runReadSpan_keeps {s0 s : State} (h : Keeps s0 s) :
    ∀ x1 x2, Keeps s0 (runReadSpan s x1 x2).1 := by
  intros
  unfold runReadSpan
  with_reducible repeat' first
    | assumption | intro _ | extract_lets | apply Keeps.ite | split


theorem runCalSet_keeps {s0 s : State} (h : Keeps s0 s) :
    ∀ x1 x2, Keeps s0 (runCalSet s x1 x2).1 := by
  intros
  unfold runCalSet
  with_reducible repeat' first
    | assumption | intro _ | extract_lets | apply Keeps.ite | split | apply State.request_keeps
    | apply State.setCal_keeps | exact ⟨rfl, rfl, rfl⟩


theorem runCalCancel_keeps {s0 s : State} (h : Keeps s0 s) :
    ∀ x1 x2, Keeps s0 (runCalCancel s x1 x2).1 := by
  intros
  unfold runCalCancel
  with_reducible repeat' first
    | assumption | intro _ | extract_lets | apply Keeps.ite | split | apply State.request_keeps
    | apply State.setCal_keeps | exact ⟨rfl, rfl, rfl⟩


theorem runBillClose_keeps {s0 s : State} (h : Keeps s0 s) :
    ∀ x1 x2, Keeps s0 (runBillClose s x1 x2).1 := by
  intros
  unfold runBillClose
  with_reducible repeat' first
    | assumption | intro _ | extract_lets | apply Keeps.ite | split | apply State.commandClose_keeps
    | apply State.request_keeps | apply Keeps.foldl | exact ⟨rfl, rfl, rfl⟩


theorem runTariffItem_keeps {s0 s : State} (h : Keeps s0 s) :
    ∀ x1 x2, Keeps s0 (runTariffItem s x1 x2).1 := by
  intros
  unfold runTariffItem
  with_reducible repeat' first
    | assumption | intro _ | apply Keeps.ite | split | apply runCalSet_keeps | apply runCalCancel_keeps
    | apply runBillClose_keeps


theorem runBillReq_keeps {s0 s : State} (h : Keeps s0 s) :
    ∀ x1 x2, Keeps s0 (runBillReq s x1 x2).1 := by
  intros
  unfold runBillReq
  with_reducible repeat' first
    | assumption | intro _ | extract_lets | apply Keeps.ite | split | exact ⟨rfl, rfl, rfl⟩


theorem execReadingsPush_keeps {s0 s : State} (h : Keeps s0 s) :
    ∀ x0, Ends s0 (execReadingsPush x0 s) := by
  intros
  unfold execReadingsPush
  with_reducible repeat' first
    | assumption | intro _ | apply State.serve_keeps | apply State.taskCommand_keeps | apply runReading_keeps
    | apply Ends.next


theorem execReadingsGet_keeps {s0 s : State} (h : Keeps s0 s) :
    ∀ x0, Ends s0 (execReadingsGet x0 s) := by
  intros
  unfold execReadingsGet
  with_reducible repeat' first
    | assumption | intro _ | apply State.serve_keeps | apply State.taskCommand_keeps | apply runReadSpan_keeps
    | apply Ends.next


theorem execTariffLoad_keeps {s0 s : State} (h : Keeps s0 s) :
    ∀ x0, Ends s0 (execTariffLoad x0 s) := by
  intros
  unfold execTariffLoad
  with_reducible repeat' first
    | assumption | intro _ | apply State.serve_keeps | apply State.taskCommand_keeps | apply runTariffItem_keeps
    | apply Ends.next


theorem execBillingGet_keeps {s0 s : State} (h : Keeps s0 s) :
    ∀ x0, Ends s0 (execBillingGet x0 s) := by
  intros
  unfold execBillingGet
  with_reducible repeat' first
    | assumption | intro _ | apply State.serve_keeps | apply State.taskCommand_keeps | apply runBillReq_keeps
    | apply Ends.next


end Sys2Proof.Machine
end

