-- ==== Sys2Proof/Laws/KeepsMeterWrite.lean ====
section
/-! SUPPORT. The operations of Machine/MeterWrite lead from a state to one that follows from it (Keeps). -/

set_option Elab.async false

namespace Sys2Proof.Machine

theorem State.laneReady_keeps {s0 s : State} (h : Keeps s0 s) :
    ∀ x1, Keeps s0 (State.laneReady s x1) := by
  intros
  unfold State.laneReady
  with_reducible repeat' first
    | assumption | intro _ | extract_lets | apply Keeps.ite | split | apply State.applyTokens_keeps
    | apply State.durableUpto_keeps | apply Keeps.foldl | apply Keeps.foldl_pair


theorem State.recordChanged_keeps {s0 s : State} (h : Keeps s0 s) :
    ∀ x1 x2, Keeps s0 (State.recordChanged s x1 x2) := by
  intros
  unfold State.recordChanged
  with_reducible repeat' first
    | assumption | intro _ | extract_lets | apply Keeps.ite | split | apply State.freeJoined_keeps
    | apply State.post_keeps | apply Keeps.foldl | apply Keeps.foldl_pair | apply RegFile.ite_wf
    | apply RegFile.flag_wf | apply RegFile.foldl_wf | apply Keeps.mk_upd | exact ⟨rfl, rfl, rfl⟩


theorem State.writeRecord_keeps {s0 s : State} (h : Keeps s0 s) :
    ∀ x1 x2, Keeps s0 (State.writeRecord s x1 x2) := by
  intros
  unfold State.writeRecord
  with_reducible repeat' first
    | assumption | intro _ | extract_lets | apply State.setMeter_keeps | apply State.recordChanged_keeps
    | apply Keeps.mk_upd | exact ⟨rfl, rfl, rfl⟩


theorem State.writeProvisioned_keeps {s0 s : State} (h : Keeps s0 s) :
    ∀ x1 x2 x3, Keeps s0 (State.writeProvisioned s x1 x2 x3).1 := by
  intros
  unfold State.writeProvisioned
  with_reducible repeat' first
    | assumption | intro _ | extract_lets | apply Keeps.ite | split | apply State.writeRecord_keeps
    | exact ⟨rfl, rfl, rfl⟩


theorem runMeterOp_keeps {s0 s : State} (h : Keeps s0 s) :
    ∀ x1, Keeps s0 (runMeterOp s x1).1 := by
  intros
  unfold runMeterOp
  with_reducible repeat' first
    | assumption | intro _ | extract_lets | apply Keeps.ite | split | apply State.writeProvisioned_keeps
    | apply State.writeRecord_keeps | apply Keeps.foldl | apply Keeps.foldl_pair | apply Ends.next | apply Ends.ite
    | apply RegFile.ite_wf | apply RegFile.setF_wf | apply RegFile.flag_wf | apply RegFile.bump_wf
    | apply RegFile.put_wf | apply RegFile.setFInt_wf | apply RegFile.put64_wf | apply RegFile.foldl_wf
    | refine Keeps.of_fst (by assumption) ?_ | (dsimp +zetaDelta only; split) | apply Keeps.mk_upd
    | exact ⟨rfl, rfl, rfl⟩


theorem runMeterKey_keeps {s0 s : State} (h : Keeps s0 s) :
    ∀ x1, Keeps s0 (runMeterKey s x1).1 := by
  intros
  unfold runMeterKey
  with_reducible repeat' first
    | assumption | intro _ | extract_lets | apply Keeps.ite | split | apply State.showSlots_keeps
    | apply State.writeRecord_keeps | apply RegFile.ite_wf | apply Keeps.mk_upd | exact ⟨rfl, rfl, rfl⟩


theorem runMeterWrite_keeps {s0 s : State} (h : Keeps s0 s) :
    ∀ x1 x2, Keeps s0 (runMeterWrite s x1 x2).1 := by
  intros
  unfold runMeterWrite
  with_reducible repeat' first
    | assumption | intro _ | extract_lets | apply Keeps.ite | split | apply State.laneReady_keeps
    | apply runMeterOp_keeps | apply runMeterKey_keeps | apply Keeps.foldl | apply Keeps.foldl_pair
    | apply Ends.next | apply Ends.ite | apply RegFile.ite_wf | apply RegFile.setF_wf | apply RegFile.flag_wf
    | apply RegFile.bump_wf | apply RegFile.put_wf | apply RegFile.setFInt_wf | apply RegFile.put64_wf
    | apply RegFile.foldl_wf | refine Keeps.of_fst (by assumption) ?_ | (dsimp +zetaDelta only; split)
    | apply Keeps.mk_upd | exact ⟨rfl, rfl, rfl⟩


theorem execMeterWrite_keeps {s0 s : State} (h : Keeps s0 s) :
    ∀ x0, Ends s0 (execMeterWrite x0 s) := by
  intros
  unfold execMeterWrite
  with_reducible repeat' first
    | assumption | intro _ | apply State.serve_keeps | apply State.taskCommand_keeps | apply runMeterWrite_keeps
    | apply Ends.next


end Sys2Proof.Machine
end

