-- ==== Sys2Proof/Laws/KeepsPower.lean ====
section
/-! SUPPORT. The operations of Machine/Power lead from a state to one that follows from it (Keeps). -/

set_option Elab.async false

namespace Sys2Proof.Machine

theorem State.showLevels_keeps {s0 s : State} (h : Keeps s0 s) :
    ∀ x1, Keeps s0 (State.showLevels s x1) := by
  intros
  unfold State.showLevels
  with_reducible repeat' first
    | assumption | intro _ | extract_lets | apply RegFile.setF_wf | apply RegFile.flag_wf | apply Keeps.mk_upd
    | exact ⟨rfl, rfl, rfl⟩


theorem State.drainEvents_keeps {s0 s : State} (h : Keeps s0 s) :
    Keeps s0 (State.drainEvents s) := by
  unfold State.drainEvents
  with_reducible repeat' first
    | assumption | intro _ | extract_lets | apply State.handlePost_keeps | apply Keeps.foldl
    | apply Keeps.foldl_pair | apply Keeps.mk_upd | exact ⟨rfl, rfl, rfl⟩


theorem State.dropLinks_keeps {s0 s : State} (h : Keeps s0 s) :
    Keeps s0 (State.dropLinks s) := by
  unfold State.dropLinks
  with_reducible repeat' first
    | assumption | intro _ | extract_lets | apply State.send_keeps | apply Keeps.foldl | apply Keeps.foldl_pair
    | apply RegFile.flag_wf | apply RegFile.foldl_wf | apply Keeps.mk_upd | exact ⟨rfl, rfl, rfl⟩


theorem State.enterSave_keeps {s0 s : State} (h : Keeps s0 s) :
    Keeps s0 (State.enterSave s) := by
  unfold State.enterSave
  with_reducible repeat' first
    | assumption | intro _ | extract_lets | apply State.markRole_keeps | apply RegFile.setF_wf | apply Keeps.mk_upd
    | exact ⟨rfl, rfl, rfl⟩


theorem State.fatalSequence_keeps {s0 s : State} (h : Keeps s0 s) :
    ∀ x1 x2 x3 x4 x5, Keeps s0 (State.fatalSequence s x1 x2 x3 x4 x5) := by
  intros
  unfold State.fatalSequence
  with_reducible repeat' first
    | assumption | intro _ | extract_lets | apply Keeps.ite | split | apply State.post_keeps
    | apply State.markRole_keeps | apply State.handoverPair_keeps | apply State.finalCheckpoint_keeps
    | apply State.drainEvents_keeps | apply State.writeDump_keeps | apply State.enterSave_keeps
    | apply State.beginReset_keeps | apply RegFile.ite_wf | apply RegFile.setF_wf | apply Keeps.mk_upd
    | exact ⟨rfl, rfl, rfl⟩


theorem State.judgeVbat_keeps {s0 s : State} (h : Keeps s0 s) :
    ∀ x1, Keeps s0 (State.judgeVbat s x1) := by
  intros
  unfold State.judgeVbat
  with_reducible repeat' first
    | assumption | intro _ | extract_lets | apply Keeps.ite | split | apply State.setF_keeps
    | apply State.flag_keeps | apply State.post_keeps | apply Keeps.mk_upd | exact ⟨rfl, rfl, rfl⟩


theorem State.stepInterval_keeps {s0 s : State} (h : Keeps s0 s) :
    ∀ x1, Keeps s0 (State.stepInterval s x1) := by
  intros
  unfold State.stepInterval
  with_reducible repeat' first
    | assumption | intro _ | extract_lets | apply Keeps.ite | split | apply State.intervalDue_keeps
    | apply Keeps.mk_upd | exact ⟨rfl, rfl, rfl⟩


theorem State.legalStep_keeps {s0 s : State} (h : Keeps s0 s) :
    Keeps s0 (State.legalStep s) := by
  unfold State.legalStep
  with_reducible repeat' first
    | assumption | intro _ | apply Keeps.ite | split | apply State.setBack_keeps | apply State.tarForward_keeps
    | apply State.stepInterval_keeps | apply Keeps.foldl


theorem State.railsOff_keeps {s0 s : State} (h : Keeps s0 s) :
    Keeps s0 (State.railsOff s) := by
  unfold State.railsOff
  with_reducible repeat' first
    | assumption | intro _ | extract_lets | apply Keeps.mk_upd | exact ⟨rfl, rfl, rfl⟩


theorem State.takeStep_keeps {s0 s : State} (h : Keeps s0 s) :
    Keeps s0 (State.takeStep s) := by
  unfold State.takeStep
  with_reducible repeat' first
    | assumption | intro _ | extract_lets | split | apply State.legalStep_keeps | apply State.stepTime_keeps
    | exact ⟨rfl, rfl, rfl⟩


theorem State.saveUnits_keeps {s0 s : State} (h : Keeps s0 s) :
    Keeps s0 (State.saveUnits s) := by
  unfold State.saveUnits
  with_reducible repeat' first
    | assumption | intro _ | extract_lets | split | refine State.program_keeps ?_ _ _ _ _ _ (by assumption)
    | apply Keeps.foldl | apply Keeps.foldl_pair | refine Keeps.of_fst (by assumption) ?_ | apply Keeps.mk_upd
    | exact ⟨rfl, rfl, rfl⟩


theorem State.saveStep_keeps {s0 s : State} (h : Keeps s0 s) :
    ∀ x0 x2, Keeps s0 (State.saveStep x0 s x2) := by
  intros
  unfold State.saveStep
  with_reducible repeat' first
    | assumption | intro _ | extract_lets | apply Keeps.ite | split | apply State.post_keeps
    | apply State.dropLinks_keeps | apply State.stopPulses_keeps | apply State.handoverPair_keeps
    | apply State.finalCheckpoint_keeps | apply State.saveUnits_keeps | apply State.saveQueues_keeps
    | apply State.storageSave_keeps


theorem State.supply_keeps {s0 s : State} (h : Keeps s0 s) :
    ∀ x1 x2, Keeps s0 (State.supply s x1 x2) := by
  intros
  unfold State.supply
  with_reducible repeat' first
    | assumption | intro _ | extract_lets | apply Keeps.ite | split | apply State.post_keeps
    | apply State.bump_keeps | apply RegFile.ite_wf | apply RegFile.setF_wf | apply RegFile.flag_wf
    | apply RegFile.bump_wf | apply Keeps.mk_upd | exact ⟨rfl, rfl, rfl⟩


theorem runReset_keeps {s0 s : State} (h : Keeps s0 s) :
    ∀ x1 x2, Keeps s0 (runReset s x1 x2).1 := by
  intros
  unfold runReset
  with_reducible repeat' first
    | assumption | intro _ | extract_lets | apply Keeps.ite | split | apply RegFile.ite_wf | apply Keeps.mk_upd
    | exact ⟨rfl, rfl, rfl⟩


theorem execEnrolReset_keeps {s0 s : State} (h : Keeps s0 s) :
    ∀ x0, Ends s0 (execEnrolReset x0 s) := by
  intros
  unfold execEnrolReset
  with_reducible repeat' first
    | assumption | intro _ | extract_lets | apply Keeps.ite | split | apply State.cutReset_keeps | apply Ends.next
    | exact ⟨rfl, rfl, rfl⟩


theorem execResetCmd_keeps {s0 s : State} (h : Keeps s0 s) :
    ∀ x0, Ends s0 (execResetCmd x0 s) := by
  intros
  unfold execResetCmd
  with_reducible repeat' first
    | assumption | intro _ | apply State.serve_keeps | apply State.taskCommand_keeps | apply runReset_keeps
    | apply Ends.next


theorem execCommandedReset_keeps {s0 s : State} (h : Keeps s0 s) :
    ∀ x0, Ends s0 (execCommandedReset x0 s) := by
  intros
  unfold execCommandedReset
  with_reducible repeat' first
    | assumption | intro _ | extract_lets | apply Keeps.ite | split | apply State.markRole_keeps
    | apply State.handoverPair_keeps | apply State.saveStep_keeps | apply State.beginReset_keeps | apply Keeps.foldl
    | apply Keeps.foldl_pair | apply Ends.next | apply Ends.ite | apply RegFile.ite_wf | apply RegFile.foldl_wf
    | refine Keeps.of_fst (by assumption) ?_ | apply Keeps.mk_upd | exact ⟨rfl, rfl, rfl⟩


theorem execSupplyChange_keeps {s0 s : State} (h : Keeps s0 s) :
    ∀ x0 x1 x2, Ends s0 (execSupplyChange x0 x1 x2 s) := by
  intros
  unfold execSupplyChange
  with_reducible repeat' first
    | assumption | apply State.supply_keeps | apply State.showLevels_keeps | apply Ends.next


theorem execHoldupStart_keeps {s0 s : State} (h : Keeps s0 s) :
    ∀ x0, Ends s0 (execHoldupStart x0 s) := by
  intros
  unfold execHoldupStart
  with_reducible repeat' first
    | assumption | intro _ | extract_lets | apply Keeps.ite | split | apply State.flag_keeps
    | apply State.showLevels_keeps | apply Ends.next | apply Ends.ite | apply Keeps.mk_upd | exact ⟨rfl, rfl, rfl⟩


theorem execSave_keeps {s0 s : State} (h : Keeps s0 s) :
    ∀ x0, Ends s0 (execSave x0 s) := by
  intros
  unfold execSave
  with_reducible repeat' first
    | assumption | intro _ | extract_lets | apply Keeps.ite | split | apply State.saveStep_keeps
    | apply State.railsOff_keeps | apply Keeps.foldl | apply Keeps.foldl_pair | apply Ends.next | apply Ends.ite
    | apply RegFile.ite_wf | apply RegFile.foldl_wf | refine Keeps.of_fst (by assumption) ?_ | apply Keeps.mk_upd
    | exact ⟨rfl, rfl, rfl⟩


theorem execSaveCutoff_keeps {s0 s : State} (h : Keeps s0 s) :
    ∀ x0, Ends s0 (execSaveCutoff x0 s) := by
  intros
  unfold execSaveCutoff
  with_reducible repeat' first
    | assumption | intro _ | extract_lets | apply Keeps.ite | split | apply State.railsOff_keeps | apply Ends.next
    | apply Ends.ite | apply Keeps.mk_upd | exact ⟨rfl, rfl, rfl⟩


theorem execPowerOn_keeps {s0 s : State} (h : Keeps s0 s) :
    Ends s0 (execPowerOn s) := by
  unfold execPowerOn
  with_reducible repeat' first
    | assumption | intro _ | apply Keeps.ite | split | apply State.beginReset_keeps | apply Ends.next


theorem execPowerOnReset_keeps {s0 s : State} (h : Keeps s0 s) :
    Ends s0 (execPowerOnReset s) := by
  unfold execPowerOnReset
  with_reducible repeat' first
    | assumption | apply State.railsOff_keeps | apply Ends.next


theorem execPinReset_keeps {s0 s : State} (h : Keeps s0 s) :
    Ends s0 (execPinReset s) := by
  unfold execPinReset
  with_reducible repeat' first
    | assumption | intro _ | apply Keeps.ite | split | apply State.beginReset_keeps | apply Ends.next


theorem execClockFault_keeps {s0 s : State} (h : Keeps s0 s) :
    Ends s0 (execClockFault s) := by
  unfold execClockFault
  with_reducible repeat' first
    | assumption | intro _ | extract_lets | split | apply State.railsOff_keeps | apply State.beginReset_keeps
    | apply State.flag_keeps | apply Ends.next | refine Keeps.of_fst (by assumption) ?_ | apply Keeps.mk_upd
    | exact ⟨rfl, rfl, rfl⟩


theorem execTimeStep_keeps {s0 s : State} (h : Keeps s0 s) :
    ∀ x0, Ends s0 (execTimeStep x0 s) := by
  intros
  unfold execTimeStep
  with_reducible repeat' first
    | assumption | intro _ | apply Keeps.ite | split | apply State.takeStep_keeps | apply State.toTar_keeps
    | apply Ends.next


theorem execQueueCheckpoint_keeps {s0 s : State} (h : Keeps s0 s) :
    Ends s0 (execQueueCheckpoint s) := by
  unfold execQueueCheckpoint
  with_reducible repeat' first
    | assumption | intro _ | apply Keeps.ite | split | apply State.saveQueues_keeps | apply Ends.next


theorem execWatchdogHardReset_keeps {s0 s : State} (h : Keeps s0 s) :
    ∀ x0, Ends s0 (execWatchdogHardReset x0 s) := by
  intros
  unfold execWatchdogHardReset
  with_reducible repeat' first
    | assumption | intro _ | extract_lets | apply Keeps.ite | split | apply State.cutReset_keeps | apply Ends.next
    | apply Ends.ite | refine Keeps.of_fst (by assumption) ?_ | apply Keeps.mk_upd | exact ⟨rfl, rfl, rfl⟩


theorem execFatalError_keeps {s0 s : State} (h : Keeps s0 s) :
    ∀ x0 x1 x2 x3 x4, Ends s0 (execFatalError x0 x1 x2 x3 x4 s) := by
  intros
  unfold execFatalError
  with_reducible repeat' first
    | assumption | intro _ | extract_lets | apply Keeps.ite | split | apply State.fatalSequence_keeps
    | apply Keeps.foldl | apply Keeps.foldl_pair | apply Ends.next | apply Ends.ite | apply RegFile.ite_wf
    | apply RegFile.setF_wf | apply RegFile.flag_wf | apply RegFile.bump_wf | apply RegFile.put_wf
    | apply RegFile.setFInt_wf | apply RegFile.put64_wf | apply RegFile.foldl_wf
    | refine Keeps.of_fst (by assumption) ?_ | (dsimp +zetaDelta only; split) | apply Keeps.mk_upd
    | exact ⟨rfl, rfl, rfl⟩


theorem execVbatLow_keeps {s0 s : State} (h : Keeps s0 s) :
    ∀ x0, Ends s0 (execVbatLow x0 s) := by
  intros
  unfold execVbatLow
  with_reducible repeat' first
    | assumption | intro _ | apply Keeps.ite | split | apply State.flag_keeps | apply State.judgeVbat_keeps
    | apply Ends.next


end Sys2Proof.Machine
end

