-- ==== Sys2Proof/Laws/KeepsPorts.lean ====
section
/-! SUPPORT. The operations of Machine/Ports lead from a state to one that follows from it (Keeps). -/

set_option Elab.async false

namespace Sys2Proof.Machine

theorem State.arrive_keeps {s0 s : State} (h : Keeps s0 s) :
    ∀ x1, Keeps s0 (State.arrive s x1) := by
  intros
  unfold State.arrive
  with_reducible repeat' first
    | assumption | intro _ | extract_lets | apply Keeps.mk_upd | exact ⟨rfl, rfl, rfl⟩


theorem State.delayReq_keeps {s0 s : State} (h : Keeps s0 s) :
    ∀ x1 x2 x3, Keeps s0 (State.delayReq s x1 x2 x3) := by
  intros
  unfold State.delayReq
  with_reducible repeat' first
    | assumption | intro _ | extract_lets | apply State.send_keeps | apply Keeps.mk_upd | exact ⟨rfl, rfl, rfl⟩


theorem State.ethDrop_keeps {s0 s : State} (h : Keeps s0 s) :
    ∀ x1, Keeps s0 (State.ethDrop s x1) := by
  intros
  unfold State.ethDrop
  with_reducible repeat' first
    | assumption | apply State.bump_keeps


theorem State.pollEnds_keeps {s0 s : State} (h : Keeps s0 s) :
    ∀ x1 x2, Keeps s0 (State.pollEnds s x1 x2) := by
  intros
  unfold State.pollEnds
  with_reducible repeat' first
    | assumption | intro _ | extract_lets | apply Keeps.mk_upd | exact ⟨rfl, rfl, rfl⟩


theorem State.noResponse_keeps {s0 s : State} (h : Keeps s0 s) :
    ∀ x1, Keeps s0 (State.noResponse s x1) := by
  intros
  unfold State.noResponse
  with_reducible repeat' first
    | assumption | intro _ | extract_lets | apply Keeps.ite | split | apply State.send_keeps
    | apply State.pollEnds_keeps | refine Keeps.of_fst (by assumption) ?_ | apply Keeps.mk_upd
    | exact ⟨rfl, rfl, rfl⟩


theorem State.ppsSample_keeps {s0 s : State} (h : Keeps s0 s) :
    ∀ x1, Keeps s0 (State.ppsSample s x1) := by
  intros
  unfold State.ppsSample
  with_reducible repeat' first
    | assumption | apply State.timeInput_keeps


theorem State.setSlot_keeps {s0 s : State} (h : Keeps s0 s) :
    ∀ x1 x2 x3, Keeps s0 (State.setSlot s x1 x2 x3) := by
  intros
  unfold State.setSlot
  with_reducible repeat' first
    | assumption | intro _ | extract_lets | apply Keeps.mk_upd | exact ⟨rfl, rfl, rfl⟩


theorem State.spiBad_keeps {s0 s : State} (h : Keeps s0 s) :
    Keeps s0 (State.spiBad s) := by
  unfold State.spiBad
  with_reducible repeat' first
    | assumption | apply State.setF_keeps | apply State.flag_keeps


theorem State.takeTx_keeps {s0 s : State} (h : Keeps s0 s) :
    ∀ x0 x1 x3, Keeps s0 (State.takeTx x0 x1 s x3) := by
  intros
  unfold State.takeTx
  with_reducible repeat' first
    | assumption | intro _ | extract_lets | apply Keeps.ite | split | apply State.send_keeps
    | apply State.setSlot_keeps | apply State.raiseVector_keeps | apply State.arrive_keeps | exact ⟨rfl, rfl, rfl⟩


theorem execSerialPoll_keeps {s0 s : State} (h : Keeps s0 s) :
    ∀ x0, Ends s0 (execSerialPoll x0 s) := by
  intros
  unfold execSerialPoll
  with_reducible repeat' first
    | assumption | intro _ | extract_lets | apply Keeps.ite | split | apply State.send_keeps | apply Ends.next
    | apply Ends.ite | refine Keeps.of_fst (by assumption) ?_ | apply Keeps.mk_upd | exact ⟨rfl, rfl, rfl⟩


theorem execSerialResponseTimeout_keeps {s0 s : State} (h : Keeps s0 s) :
    ∀ x0, Ends s0 (execSerialResponseTimeout x0 s) := by
  intros
  unfold execSerialResponseTimeout
  with_reducible repeat' first
    | assumption | apply State.noResponse_keeps | apply Ends.next


theorem execSerialFrame_keeps {s0 s : State} (h : Keeps s0 s) :
    ∀ x0 x1 x2 x3, Ends s0 (execSerialFrame x0 x1 x2 x3 s) := by
  intros
  unfold execSerialFrame
  with_reducible repeat' first
    | assumption | intro _ | extract_lets | apply Keeps.ite | split | apply State.bump_keeps
    | apply State.handIn_keeps | apply State.pollEnds_keeps | apply State.noResponse_keeps | apply Ends.next
    | exact ⟨rfl, rfl, rfl⟩


theorem execEthernetFrame_keeps {s0 s : State} (h : Keeps s0 s) :
    ∀ x0 x1 x2, Ends s0 (execEthernetFrame x0 x1 x2 s) := by
  intros
  unfold execEthernetFrame
  with_reducible repeat' first
    | assumption | intro _ | extract_lets | apply Keeps.ite | split | apply State.ethDrop_keeps
    | apply State.send_keeps | apply State.arrive_keeps | apply State.handOwn_keeps | apply Ends.next
    | exact ⟨rfl, rfl, rfl⟩


theorem execPtpMessage_keeps {s0 s : State} (h : Keeps s0 s) :
    ∀ x0 x1 x2 x3, Ends s0 (execPtpMessage x0 x1 x2 x3 s) := by
  intros
  unfold execPtpMessage
  with_reducible repeat' first
    | assumption | intro _ | extract_lets | apply Keeps.ite | split | apply State.delayReq_keeps
    | apply State.timeInput_keeps | apply Ends.next | apply Ends.ite | refine Keeps.of_fst (by assumption) ?_
    | apply Keeps.mk_upd | exact ⟨rfl, rfl, rfl⟩


theorem execTxDoorbell_keeps {s0 s : State} (h : Keeps s0 s) :
    ∀ x0 x1 x2 x3 x4, Ends s0 (execTxDoorbell x0 x1 x2 x3 x4 s) := by
  intros
  unfold execTxDoorbell
  with_reducible repeat' first
    | assumption | intro _ | extract_lets | apply Keeps.ite | split | apply State.takeTx_keeps
    | apply State.setSlot_keeps | apply Keeps.foldl | apply Keeps.foldl_pair | apply Ends.next
    | exact ⟨rfl, rfl, rfl⟩


theorem execRxPost_keeps {s0 s : State} (h : Keeps s0 s) :
    ∀ x0 x1 x2 x3 x4, Ends s0 (execRxPost x0 x1 x2 x3 x4 s) := by
  intros
  unfold execRxPost
  with_reducible repeat' first
    | assumption | intro _ | extract_lets | apply Keeps.ite | split | apply State.setSlot_keeps
    | apply State.pciePump_keeps | apply Ends.next | exact ⟨rfl, rfl, rfl⟩


theorem execPcieReset_keeps {s0 s : State} (h : Keeps s0 s) :
    ∀ x0, Ends s0 (execPcieReset x0 s) := by
  intros
  unfold execPcieReset
  with_reducible repeat' first
    | assumption | intro _ | extract_lets | apply Keeps.ite | split | apply State.post_keeps
    | apply State.flag_keeps | apply Ends.next | apply Ends.ite | refine Keeps.of_fst (by assumption) ?_
    | apply Keeps.mk_upd | exact ⟨rfl, rfl, rfl⟩


theorem execWbWrite_keeps {s0 s : State} (h : Keeps s0 s) :
    ∀ x0, Ends s0 (execWbWrite x0 s) := by
  intros
  unfold execWbWrite
  with_reducible repeat' first
    | assumption | intro _ | extract_lets | apply Keeps.ite | split | apply State.arrive_keeps
    | apply State.setF_keeps | apply State.spiBad_keeps | apply Ends.next | refine Keeps.of_fst (by assumption) ?_
    | exact ⟨rfl, rfl, rfl⟩


theorem execWbRead_keeps {s0 s : State} (h : Keeps s0 s) :
    ∀ x0, Ends s0 (execWbRead x0 s) := by
  intros
  unfold execWbRead
  with_reducible repeat' first
    | assumption | intro _ | extract_lets | apply Keeps.ite | split | apply State.send_keeps
    | apply State.flag_keeps | apply Ends.next | apply Ends.ite | refine Keeps.of_fst (by assumption) ?_
    | apply Keeps.mk_upd | exact ⟨rfl, rfl, rfl⟩


theorem execPpsEdge_keeps {s0 s : State} (h : Keeps s0 s) :
    ∀ x0, Ends s0 (execPpsEdge x0 s) := by
  intros
  unfold execPpsEdge
  with_reducible repeat' first
    | assumption | intro _ | extract_lets | apply Keeps.ite | split | apply State.bump_keeps
    | apply State.ppsSample_keeps | apply Ends.next | apply Ends.ite | apply RegFile.ite_wf | apply RegFile.setF_wf
    | apply RegFile.flag_wf | apply RegFile.bump_wf | refine Keeps.of_fst (by assumption) ?_ | apply Keeps.mk_upd
    | exact ⟨rfl, rfl, rfl⟩


theorem execTimeRxSentence_keeps {s0 s : State} (h : Keeps s0 s) :
    ∀ x0 x1, Ends s0 (execTimeRxSentence x0 x1 s) := by
  intros
  unfold execTimeRxSentence
  with_reducible repeat' first
    | assumption | intro _ | extract_lets | apply Keeps.ite | split | apply State.flag_keeps
    | apply State.ppsSample_keeps | apply Ends.next | apply Ends.ite | refine Keeps.of_fst (by assumption) ?_
    | apply Keeps.mk_upd | exact ⟨rfl, rfl, rfl⟩


theorem execPortLink_keeps {s0 s : State} (h : Keeps s0 s) :
    ∀ x0 x1, Ends s0 (execPortLink x0 x1 s) := by
  intros
  unfold execPortLink
  with_reducible repeat' first
    | assumption | intro _ | extract_lets | apply Keeps.ite | split | apply State.flag_keeps
    | apply State.setF_keeps | apply State.post_keeps | apply Ends.next


end Sys2Proof.Machine
end

