-- ==== Sys2Proof/Laws/KeepsLocalise.lean ====
section
/-! SUPPORT. The operations of Machine/Localise lead from a state to one that follows from it (Keeps). -/

set_option Elab.async false

namespace Sys2Proof.Machine

theorem State.balAnswer_keeps {s0 s : State} (h : Keeps s0 s) :
    ∀ x1, Keeps s0 (State.balAnswer s x1) := by
  intros
  unfold State.balAnswer
  with_reducible repeat' first
    | assumption | intro _ | apply Keeps.ite | split | apply State.setF_keeps


theorem State.localise_keeps {s0 s : State} (h : Keeps s0 s) :
    ∀ x1, Keeps s0 (State.localise s x1) := by
  intros
  unfold State.localise
  with_reducible repeat' first
    | assumption | intro _ | extract_lets | apply Keeps.ite | split | apply State.setMeter_keeps
    | apply State.setNode_keeps | apply State.lossNotice_keeps | apply State.draw_keeps | apply Keeps.foldl
    | exact ⟨rfl, rfl, rfl⟩


theorem State.balOp_keeps {s0 s : State} (h : Keeps s0 s) :
    ∀ x1 x2, Keeps s0 (State.balOp s x1 x2).1 := by
  intros
  unfold State.balOp
  with_reducible repeat' first
    | assumption | intro _ | apply Keeps.ite | split | apply State.rebase_keeps | apply State.leaveAlert_keeps
    | apply State.localise_keeps | apply State.relearn_keeps


theorem State.runOps_keeps {s0 s : State} (h : Keeps s0 s) :
    Keeps s0 (State.runOps s) := by
  unfold State.runOps
  with_reducible repeat' first
    | assumption | intro _ | extract_lets | apply Keeps.ite | split | apply State.balOp_keeps
    | apply State.balAnswer_keeps | apply State.showJobs_keeps | apply Keeps.foldl | apply Keeps.foldl_pair
    | refine Keeps.of_fst (by assumption) ?_ | apply Keeps.mk_upd | exact ⟨rfl, rfl, rfl⟩


theorem State.runJob_keeps {s0 s : State} (h : Keeps s0 s) :
    ∀ x1, Keeps s0 (State.runJob s x1) := by
  intros
  unfold State.runJob
  with_reducible repeat' first
    | assumption | intro _ | extract_lets | apply Keeps.ite | split | apply State.endJob_keeps
    | apply State.firstBalance_keeps | apply State.reviseResult_keeps | apply State.localise_keeps
    | exact ⟨rfl, rfl, rfl⟩


theorem State.runHead_keeps {s0 s : State} (h : Keeps s0 s) :
    ∀ x1, Keeps s0 (State.runHead s x1) := by
  intros
  unfold State.runHead
  with_reducible repeat' first
    | assumption | intro _ | extract_lets | apply Keeps.ite | split | apply State.runOps_keeps
    | apply State.runJob_keeps | refine Keeps.of_fst (by assumption) ?_ | apply Keeps.mk_upd | exact ⟨rfl, rfl, rfl⟩


theorem execNodeBalance_keeps {s0 s : State} (h : Keeps s0 s) :
    ∀ x0 x1, Ends s0 (execNodeBalance x0 x1 s) := by
  intros
  unfold execNodeBalance
  with_reducible repeat' first
    | assumption | intro _ | extract_lets | apply Keeps.ite | split | apply State.runHead_keeps
    | apply State.queueJob_keeps | apply Ends.next | apply Ends.ite | refine Keeps.of_fst (by assumption) ?_
    | apply Keeps.mk_upd | exact ⟨rfl, rfl, rfl⟩


theorem execLocalisation_keeps {s0 s : State} (h : Keeps s0 s) :
    ∀ x0, Ends s0 (execLocalisation x0 s) := by
  intros
  unfold execLocalisation
  with_reducible repeat' first
    | assumption | apply State.runHead_keeps | apply Ends.next


theorem execBalanceRevision_keeps {s0 s : State} (h : Keeps s0 s) :
    Ends s0 (execBalanceRevision s) := by
  unfold execBalanceRevision
  with_reducible repeat' first
    | assumption | apply State.runHead_keeps | apply Ends.next


end Sys2Proof.Machine
end

