-- ==== Sys2Proof/Laws/KeepsRegAccess.lean ====
section
/-! SUPPORT. The operations of Machine/RegAccess lead from a state to one that follows from it (Keeps). -/

set_option Elab.async false

namespace Sys2Proof.Machine

theorem State.latch_keeps {s0 s : State} (h : Keeps s0 s) :
    ∀ x1 x2 x3, Keeps s0 (State.latch s x1 x2 x3) := by
  intros
  unfold State.latch
  with_reducible repeat' first
    | assumption | intro _ | extract_lets | apply Keeps.mk_upd | exact ⟨rfl, rfl, rfl⟩


theorem State.afterRead_keeps {s0 s : State} (h : Keeps s0 s) :
    ∀ x1 x2, Keeps s0 (State.afterRead s x1 x2) := by
  intros
  unfold State.afterRead
  with_reducible repeat' first
    | assumption | intro _ | extract_lets | apply Keeps.ite | split | apply State.latch_keeps
    | apply State.drawLocal_keeps | apply RegFile.ite_wf | apply RegFile.put_wf
    | refine Keeps.of_fst (by assumption) ?_ | apply Keeps.mk_upd | exact ⟨rfl, rfl, rfl⟩


theorem State.balCommand_keeps {s0 s : State} (h : Keeps s0 s) :
    ∀ x1 x2, Keeps s0 (State.balCommand s x1 x2).1 := by
  intros
  unfold State.balCommand
  with_reducible repeat' first
    | assumption | intro _ | extract_lets | apply Keeps.ite | split | apply State.balAnswer_keeps
    | apply State.showJobs_keeps | apply State.setF_keeps | apply Keeps.mk_upd | exact ⟨rfl, rfl, rfl⟩


theorem State.zeroiseGo_keeps {s0 s : State} (h : Keeps s0 s) :
    ∀ x1, Keeps s0 (State.zeroiseGo s x1).1 := by
  intros
  unfold State.zeroiseGo
  with_reducible repeat' first
    | assumption | intro _ | extract_lets | apply Keeps.ite | split | apply State.zeroiseLine_keeps
    | exact ⟨rfl, rfl, rfl⟩


theorem State.trigger_keeps {s0 s : State} (h : Keeps s0 s) :
    ∀ x1 x2 x3 x4, Keeps s0 (State.trigger s x1 x2 x3 x4).1 := by
  intro who addr lo value
  unfold State.trigger
  dsimp only
  with_reducible repeat' first
    | refine Keeps.ite_fst (fun _ => ?_) (fun _ => ?_)
    | split
  all_goals try with_reducible first
    | exact h
    | exact State.balCommand_keeps h _ _
    | exact State.stageRelease_keeps h
    | exact State.stageAcquire_keeps h _
    | exact State.commitDiscard_keeps h
    | exact State.commitGo_keeps h
    | exact State.refineEnd_keeps h _
    | exact State.refineStart_keeps h _
    | exact State.dieFails_keeps h _
    | exact State.zeroiseGo_keeps h _
    | exact State.startResync_keeps h
    | exact State.leaveService_keeps h
    | exact State.capTestStart_keeps h
    | exact State.closeSession_keeps h _
    | exact State.hostResend_keeps h _
  all_goals exact h.of_eq rfl rfl rfl rfl rfl rfl


theorem State.runTriggers_keeps {s0 s : State} (h : Keeps s0 s) :
    ∀ x1 x2 x3 x4, Keeps s0 (State.runTriggers s x1 x2 x3 x4).1 := by
  intros
  unfold State.runTriggers
  with_reducible repeat' first
    | assumption | intro _ | extract_lets | split | apply State.trigger_keeps | apply Keeps.foldl
    | apply Keeps.foldl_pair | refine Keeps.of_fst (by assumption) ?_


theorem State.writeFields_keeps {s0 s : State} (h : Keeps s0 s) :
    ∀ x1 x2 x3 x4 x5, Keeps s0 (State.writeFields s x1 x2 x3 x4 x5).1 := by
  intros
  unfold State.writeFields
  with_reducible repeat' first
    | assumption | intro _ | extract_lets | apply Keeps.ite | split | apply State.stageBits_keeps
    | apply State.afterWrite_keeps | apply State.runTriggers_keeps | apply Keeps.foldl | apply Keeps.foldl_pair
    | apply RegFile.ite_wf | apply RegFile.put_wf | apply RegFile.foldl_wf | refine Keeps.of_fst (by assumption) ?_
    | apply Keeps.mk_upd | exact ⟨rfl, rfl, rfl⟩


theorem State.writeReg_keeps {s0 s : State} (h : Keeps s0 s) :
    ∀ x1 x2 x3 x4, Keeps s0 (State.writeReg s x1 x2 x3 x4).1 := by
  intros
  unfold State.writeReg
  with_reducible repeat' first
    | assumption | intro _ | extract_lets | apply Keeps.ite | split | apply State.writeFields_keeps
    | exact ⟨rfl, rfl, rfl⟩


theorem State.readReg_keeps {s0 s : State} (h : Keeps s0 s) :
    ∀ x1 x2, Keeps s0 (State.readReg s x1 x2).1 := by
  intros
  unfold State.readReg
  with_reducible repeat' first
    | assumption | intro _ | extract_lets | apply Keeps.ite | split | apply State.afterRead_keeps


end Sys2Proof.Machine
end

