-- ==== Sys2Proof/Laws/KeepsRegRows.lean ====
section
/-! SUPPORT. The operations of Machine/RegRows lead from a state to one that follows from it (Keeps). -/

set_option Elab.async false

namespace Sys2Proof.Machine

theorem State.portWrite_keeps {s0 s : State} (h : Keeps s0 s) :
    ∀ x1 x2 x3 x4, Keeps s0 (State.portWrite s x1 x2 x3 x4).1 := by
  intros
  unfold State.portWrite
  with_reducible repeat' first
    | assumption | intro _ | extract_lets | apply Keeps.ite | split | apply State.writeReg_keeps
    | apply State.forward_keeps | apply State.record_keeps | refine Keeps.of_fst (by assumption) ?_
    | apply Keeps.mk_upd | exact ⟨rfl, rfl, rfl⟩


theorem State.writeFor_keeps {s0 s : State} (h : Keeps s0 s) :
    ∀ x1 x2 x3 x4, Keeps s0 (State.writeFor s x1 x2 x3 x4) := by
  intros
  unfold State.writeFor
  with_reducible repeat' first
    | assumption | extract_lets | split | apply State.portWrite_keeps | apply State.send_keeps
    | refine Keeps.of_fst (by assumption) ?_


theorem State.balWrite_keeps {s0 s : State} (h : Keeps s0 s) :
    ∀ x1 x2 x3, Keeps s0 (State.balWrite s x1 x2 x3) := by
  intros
  unfold State.balWrite
  with_reducible repeat' first
    | assumption | apply State.writeFor_keeps


theorem State.keepResp_keeps {s0 s : State} (h : Keeps s0 s) :
    ∀ x1 x2 x3, Keeps s0 (State.keepResp s x1 x2 x3) := by
  intros
  unfold State.keepResp
  with_reducible repeat' first
    | assumption | intro _ | extract_lets | apply Keeps.ite | split | apply State.setCtx_keeps
    | exact ⟨rfl, rfl, rfl⟩


theorem State.readEntry_keeps {s0 : State} (who : Requester) (a : State × List Tlv) (t : Tlv) (h : Keeps s0 a.1) :
    Keeps s0 (State.readEntry who a t).1 := by
  unfold State.readEntry
  with_reducible repeat' first
    | assumption | extract_lets | split | apply State.readReg_keeps | refine Keeps.of_fst (by assumption) ?_


theorem State.regRead_keeps {s0 s : State} (h : Keeps s0 s) :
    ∀ x1, Keeps s0 (State.regRead s x1) := by
  intros
  unfold State.regRead
  with_reducible repeat' first
    | assumption | intro _ | extract_lets | apply Keeps.ite | split | apply State.resp_keeps
    | apply State.keepResp_keeps | apply State.readEntry_keeps | apply Keeps.foldl | apply Keeps.foldl_pair
    | refine Keeps.of_fst (by assumption) ?_


theorem State.writeBit_keeps {s0 s : State} (h : Keeps s0 s) :
    ∀ x1 x2 x3, Keeps s0 (State.writeBit s x1 x2 x3) := by
  intros
  unfold State.writeBit
  with_reducible repeat' first
    | assumption | apply State.writeFor_keeps


theorem execStageAcquire_keeps {s0 s : State} (h : Keeps s0 s) :
    ∀ x0, Ends s0 (execStageAcquire x0 s) := by
  intros
  unfold execStageAcquire
  with_reducible repeat' first
    | assumption | apply State.writeBit_keeps | apply Ends.next


theorem execStageRelease_keeps {s0 s : State} (h : Keeps s0 s) :
    ∀ x0, Ends s0 (execStageRelease x0 s) := by
  intros
  unfold execStageRelease
  with_reducible repeat' first
    | assumption | apply State.writeBit_keeps | apply Ends.next


theorem execCommitGo_keeps {s0 s : State} (h : Keeps s0 s) :
    ∀ x0, Ends s0 (execCommitGo x0 s) := by
  intros
  unfold execCommitGo
  with_reducible repeat' first
    | assumption | apply State.writeBit_keeps | apply Ends.next


theorem execCommitDiscard_keeps {s0 s : State} (h : Keeps s0 s) :
    ∀ x0, Ends s0 (execCommitDiscard x0 s) := by
  intros
  unfold execCommitDiscard
  with_reducible repeat' first
    | assumption | apply State.writeBit_keeps | apply Ends.next


theorem execRegRead_keeps {s0 s : State} (h : Keeps s0 s) :
    ∀ x0, Ends s0 (execRegRead x0 s) := by
  intros
  unfold execRegRead
  with_reducible repeat' first
    | assumption | intro _ | apply State.serve_keeps | apply State.regRead_keeps | apply Ends.next


theorem runRegWrite_keeps {s0 s : State} (h : Keeps s0 s) :
    ∀ x1 x2, Keeps s0 (runRegWrite s x1 x2).1 := by
  intros
  unfold runRegWrite
  with_reducible repeat' first
    | assumption | intro _ | extract_lets | apply Keeps.ite | split | apply State.writeReg_keeps
    | apply RegFile.ite_wf | refine Keeps.of_fst (by assumption) ?_


theorem execRegWrite_keeps {s0 s : State} (h : Keeps s0 s) :
    ∀ x0, Ends s0 (execRegWrite x0 s) := by
  intros
  unfold execRegWrite
  with_reducible repeat' first
    | assumption | intro _ | apply State.serve_keeps | apply State.taskCommand_keeps | apply runRegWrite_keeps
    | apply Ends.next


theorem execHostClose_keeps {s0 s : State} (h : Keeps s0 s) :
    ∀ x0 x1, Ends s0 (execHostClose x0 x1 s) := by
  intros
  unfold execHostClose
  with_reducible repeat' first
    | assumption | apply State.writeBit_keeps | apply Ends.next


theorem execHostResend_keeps {s0 s : State} (h : Keeps s0 s) :
    ∀ x0 x1, Ends s0 (execHostResend x0 x1 s) := by
  intros
  unfold execHostResend
  with_reducible repeat' first
    | assumption | apply State.writeBit_keeps | apply Ends.next


theorem execRefineStart_keeps {s0 s : State} (h : Keeps s0 s) :
    ∀ x0 x1, Ends s0 (execRefineStart x0 x1 s) := by
  intros
  unfold execRefineStart
  with_reducible repeat' first
    | assumption | apply State.writeFor_keeps | apply Ends.next


theorem execRefineAbort_keeps {s0 s : State} (h : Keeps s0 s) :
    ∀ x0, Ends s0 (execRefineAbort x0 s) := by
  intros
  unfold execRefineAbort
  with_reducible repeat' first
    | assumption | apply State.writeBit_keeps | apply Ends.next


theorem execRebase_keeps {s0 s : State} (h : Keeps s0 s) :
    ∀ x0 x1, Ends s0 (execRebase x0 x1 s) := by
  intros
  unfold execRebase
  with_reducible repeat' first
    | assumption | apply State.balWrite_keeps | apply Ends.next


theorem execClearAlert_keeps {s0 s : State} (h : Keeps s0 s) :
    ∀ x0 x1, Ends s0 (execClearAlert x0 x1 s) := by
  intros
  unfold execClearAlert
  with_reducible repeat' first
    | assumption | apply State.balWrite_keeps | apply Ends.next


theorem execRelocate_keeps {s0 s : State} (h : Keeps s0 s) :
    ∀ x0 x1, Ends s0 (execRelocate x0 x1 s) := by
  intros
  unfold execRelocate
  with_reducible repeat' first
    | assumption | apply State.balWrite_keeps | apply Ends.next


theorem execRelearn_keeps {s0 s : State} (h : Keeps s0 s) :
    ∀ x0 x1, Ends s0 (execRelearn x0 x1 s) := by
  intros
  unfold execRelearn
  with_reducible repeat' first
    | assumption | apply State.balWrite_keeps | apply Ends.next


theorem execSpiRegWrite_keeps {s0 s : State} (h : Keeps s0 s) :
    ∀ x0, Ends s0 (execSpiRegWrite x0 s) := by
  intros
  unfold execSpiRegWrite
  with_reducible repeat' first
    | assumption | intro _ | extract_lets | apply Keeps.ite | split | apply State.portWrite_keeps
    | apply State.setF_keeps | apply State.spiBad_keeps | apply Ends.next | apply Ends.ite
    | refine Keeps.of_fst (by assumption) ?_ | apply Keeps.mk_upd | exact ⟨rfl, rfl, rfl⟩


theorem execSpiRegRead_keeps {s0 s : State} (h : Keeps s0 s) :
    ∀ x0, Ends s0 (execSpiRegRead x0 s) := by
  intros
  unfold execSpiRegRead
  with_reducible repeat' first
    | assumption | intro _ | extract_lets | apply Keeps.ite | split | apply State.readReg_keeps
    | apply State.setF_keeps | apply State.send_keeps | apply State.spiBad_keeps | apply Ends.next | apply Ends.ite
    | refine Keeps.of_fst (by assumption) ?_ | apply Keeps.mk_upd | exact ⟨rfl, rfl, rfl⟩


theorem execSpiStatus_keeps {s0 s : State} (h : Keeps s0 s) :
    Ends s0 (execSpiStatus s) := by
  unfold execSpiStatus
  with_reducible repeat' first
    | assumption | intro _ | apply Keeps.ite | split | apply State.send_keeps | apply Ends.next


theorem execUsbWaybill_keeps {s0 s : State} (h : Keeps s0 s) :
    ∀ x0, Ends s0 (execUsbWaybill x0 s) := by
  intros
  unfold execUsbWaybill
  with_reducible repeat' first
    | assumption | intro _ | extract_lets | apply Keeps.ite | split | apply State.takePart_keeps | apply Ends.next
    | exact ⟨rfl, rfl, rfl⟩


theorem execStoDieCtlFail_keeps {s0 s : State} (h : Keeps s0 s) :
    ∀ x0 x1, Ends s0 (execStoDieCtlFail x0 x1 s) := by
  intros
  unfold execStoDieCtlFail
  with_reducible repeat' first
    | assumption | apply State.writeFor_keeps | apply Ends.next


theorem execArbSeed_keeps {s0 s : State} (h : Keeps s0 s) :
    ∀ x0 x1, Ends s0 (execArbSeed x0 x1 s) := by
  intros
  unfold execArbSeed
  with_reducible repeat' first
    | assumption | apply State.writeFor_keeps | apply Ends.next


theorem execFreeze_keeps {s0 s : State} (h : Keeps s0 s) :
    ∀ x0 x1, Ends s0 (execFreeze x0 x1 s) := by
  intros
  unfold execFreeze
  with_reducible repeat' first
    | assumption | intro _ | apply Keeps.ite | split | apply State.writeFor_keeps | apply Ends.next


theorem execZeroiseArm_keeps {s0 s : State} (h : Keeps s0 s) :
    ∀ x0, Ends s0 (execZeroiseArm x0 s) := by
  intros
  unfold execZeroiseArm
  with_reducible repeat' first
    | assumption | apply State.writeBit_keeps | apply Ends.next


theorem execZeroiseGo_keeps {s0 s : State} (h : Keeps s0 s) :
    ∀ x0, Ends s0 (execZeroiseGo x0 s) := by
  intros
  unfold execZeroiseGo
  with_reducible repeat' first
    | assumption | apply State.writeBit_keeps | apply Ends.next


theorem execKeycacheResize_keeps {s0 s : State} (h : Keeps s0 s) :
    ∀ x0 x1, Ends s0 (execKeycacheResize x0 x1 s) := by
  intros
  unfold execKeycacheResize
  with_reducible repeat' first
    | assumption | apply State.writeFor_keeps | apply Ends.next


theorem execConfirm_keeps {s0 s : State} (h : Keeps s0 s) :
    ∀ x0, Ends s0 (execConfirm x0 s) := by
  intros
  unfold execConfirm
  with_reducible repeat' first
    | assumption | apply State.writeBit_keeps | apply Ends.next


theorem execResync_keeps {s0 s : State} (h : Keeps s0 s) :
    ∀ x0, Ends s0 (execResync x0 s) := by
  intros
  unfold execResync
  with_reducible repeat' first
    | assumption | apply State.writeBit_keeps | apply Ends.next


theorem execLeave_keeps {s0 s : State} (h : Keeps s0 s) :
    ∀ x0, Ends s0 (execLeave x0 s) := by
  intros
  unfold execLeave
  with_reducible repeat' first
    | assumption | apply State.writeBit_keeps | apply Ends.next


theorem execCapTestNow_keeps {s0 s : State} (h : Keeps s0 s) :
    ∀ x0, Ends s0 (execCapTestNow x0 s) := by
  intros
  unfold execCapTestNow
  with_reducible repeat' first
    | assumption | apply State.writeBit_keeps | apply Ends.next


end Sys2Proof.Machine
end

