-- ==== Sys2Proof/Laws/KeepsItems.lean ====
section
/-! SUPPORT. The operations of Machine/Items lead from a state to one that follows from it (Keeps). -/

set_option Elab.async false

namespace Sys2Proof.Machine

theorem runOf_keeps {s0 s : State} (h : Keeps s0 s) :
    ∀ x0 x1 x2 x4 x5, Keeps s0 (runOf x0 x1 x2 s x4 x5).1 := by
  intros
  unfold runOf
  with_reducible repeat' first
    | assumption | intro _ | extract_lets | apply Keeps.ite | split | apply runRegWrite_keeps
    | apply runMeterWrite_keeps | apply runReading_keeps | apply runReadSpan_keeps | apply runTariffItem_keeps
    | apply runBillReq_keeps | apply runTokenItem_keeps | apply runBalanceItem_keeps | apply runFwBlock_keeps
    | apply runFwMeter_keeps | apply runBulkSpan_keeps | apply runBulkSector_keeps | apply runBulkTrim_keeps
    | apply runTimeSet_keeps | apply runAttestReq_keeps | apply runEnrol_keeps | apply runEventSpan_keeps
    | apply runDump_keeps | apply runPairSwitch_keeps | apply runReset_keeps | apply Keeps.foldl
    | apply Keeps.foldl_pair | apply Ends.next | apply Ends.ite | apply RegFile.ite_wf | apply RegFile.setF_wf
    | apply RegFile.flag_wf | apply RegFile.bump_wf | apply RegFile.put_wf | apply RegFile.setFInt_wf
    | apply RegFile.put64_wf | apply RegFile.foldl_wf | refine Keeps.of_fst (by assumption) ?_
    | (dsimp +zetaDelta only; split) | apply Keeps.mk_upd | exact ⟨rfl, rfl, rfl⟩


theorem execTaskItemEnd_keeps {s0 s : State} (h : Keeps s0 s) :
    ∀ x0 x1 x2, Ends s0 (execTaskItemEnd x0 x1 x2 s) := by
  intros
  unfold execTaskItemEnd
  with_reducible repeat' first
    | assumption | intro _ | extract_lets | split | apply State.report_keeps | apply State.beginItem_keeps
    | apply runOf_keeps | apply Ends.next | exact ⟨rfl, rfl, rfl⟩


end Sys2Proof.Machine
end

