-- ==== Sys2Proof/Laws/KeepsLedger.lean ====
section
/-! SUPPORT. The operations of Machine/Ledger lead from a state to one that follows from it (Keeps). -/

set_option Elab.async false

namespace Sys2Proof.Machine

theorem State.takeTxEvent_keeps {s0 s : State} (h : Keeps s0 s) :
    ∀ x1, Keeps s0 (State.takeTxEvent s x1) := by
  intros
  unfold State.takeTxEvent
  with_reducible repeat' first
    | assumption | intro _ | extract_lets | apply Keeps.ite | split | apply State.passEvent_keeps
    | apply State.bump_keeps | apply State.setJoined_keeps | refine Keeps.of_fst (by assumption) ?_
    | apply Keeps.mk_upd | exact ⟨rfl, rfl, rfl⟩


theorem State.execRecord_keeps {s0 s : State} (h : Keeps s0 s) :
    ∀ x1, Keeps s0 (State.execRecord s x1) := by
  intros
  unfold State.execRecord
  with_reducible repeat' first
    | assumption | intro _ | extract_lets | apply Keeps.ite | split | apply State.acceptFrameIn_keeps
    | apply State.writeReg_keeps | apply State.timeSample_keeps | apply State.takeTxEvent_keeps
    | apply State.loadSeed_keeps | apply State.broadcast_keeps | apply Keeps.foldl | apply Keeps.foldl_pair
    | apply Keeps.mk_upd | exact ⟨rfl, rfl, rfl⟩


theorem State.execEntry_keeps {s0 s : State} (h : Keeps s0 s) :
    ∀ x1, Keeps s0 (State.execEntry s x1) := by
  intros
  unfold State.execEntry
  with_reducible repeat' first
    | assumption | intro _ | extract_lets | apply State.execRecord_keeps | apply Keeps.foldl | apply Keeps.mk_upd
    | exact ⟨rfl, rfl, rfl⟩


theorem execLedgerEntry_keeps {s0 s : State} (h : Keeps s0 s) :
    ∀ x0, Ends s0 (execLedgerEntry x0 s) := by
  intros
  unfold execLedgerEntry
  with_reducible repeat' first
    | assumption | intro _ | extract_lets | apply Keeps.ite | split | apply State.record_keeps
    | apply State.execRecord_keeps | apply State.send_keeps | apply State.startResync_keeps
    | apply State.execEntry_keeps | apply State.endHandover_keeps | apply State.resendNotices_keeps
    | apply State.releaseAll_keeps | apply State.bump_keeps | apply State.becomeActive_keeps | apply Keeps.foldl
    | apply Keeps.foldl_pair | apply Ends.next | apply Ends.ite | apply RegFile.ite_wf | apply RegFile.bump_wf
    | apply RegFile.foldl_wf | refine Keeps.of_fst (by assumption) ?_ | apply Keeps.mk_upd | exact ⟨rfl, rfl, rfl⟩


theorem execResynchronisation_follows {s0 s : State} (h : Follows s0 s) (pace total left : Nat) (ok : Bool) :
    Moves s0 (execResynchronisation pace total left ok s) := by
  have g1 : ∀ r : Option (Nat × Nat), Follows s0 (match r with
      | some _ => s
      | none => { s with
        pair := { s.pair with resync := some (pace, total) }
        pace := { s.pace with count := BitVec.ofNat 64 pace } }) := by
    intro r
    cases r
    · exact h.of_eq rfl rfl rfl rfl
    · exact h
  have g2 : ∀ (r : Option (Nat × Nat)) (n : Nat), Follows s0 (State.setF (match r with
      | some _ => s
      | none => { s with
        pair := { s.pair with resync := some (pace, total) }
        pace := { s.pace with count := BitVec.ofNat 64 pace } }) F.PAIR_RESYNC_LEFT.MIB n) :=
    fun r n => (g1 r).keeps (State.setF_keeps (Keeps.refl _) _ _)
  unfold execResynchronisation
  by_cases c1 : s.syncNow ≠ 1 ∨ (!s.linkUp) = true
  · rw [if_pos c1]; exact Moves.next h
  · rw [if_neg c1]
    by_cases c2 : s.roleNow = 2
    · simp only [c2, if_true]
      exact Moves.next (h.keeps (State.setF_keeps (Keeps.refl _) _ _))
    · simp only [c2, if_false]
      generalize min 0xFFFFFFFF ((left + 1048575) / 1048576) = n
      replace g2 := g2 s.pair.resync n
      revert g2
      generalize (State.setF (match s.pair.resync with
      | some _ => s
      | none => { s with
        pair := { s.pair with resync := some (pace, total) }
        pace := { s.pace with count := BitVec.ofNat 64 pace } }) F.PAIR_RESYNC_LEFT.MIB n) = u
      intro g2
      by_cases c3 : left ≠ 0 ∨ (!ok) = true
      · rw [if_pos c3]; exact Moves.next g2
      · rw [if_neg c3]
        have g3 : Follows s0 { u with pair := { u.pair with stored := u.pair.stored.drop 4 } } := g2.of_eq rfl rfl rfl rfl
        exact Moves.next (g3.keeps (Keeps.foldl _ (Keeps.refl _) fun u x hu => State.execEntry_keeps hu x))


end Sys2Proof.Machine
end

