-- ==== Sys2Proof/Laws/KeepsLoader.lean ====
section
/-! SUPPORT. The operations of Machine/Loader lead from a state to one that follows from it (Keeps). -/

set_option Elab.async false

namespace Sys2Proof.Machine

theorem runWarpLoad_keeps {s0 s : State} (h : Keeps s0 s) :
    ∀ x0 x2 x3, Keeps s0 (runWarpLoad x0 s x2 x3).1 := by
  intros
  unfold runWarpLoad
  with_reducible repeat' first
    | assumption | intro _ | extract_lets | split | apply State.setF_keeps | apply State.warpRejected_keeps
    | apply RegFile.setF_wf | refine Keeps.of_fst (by assumption) ?_ | apply Keeps.mk_upd | exact ⟨rfl, rfl, rfl⟩


theorem execWarpLoad_keeps {s0 s : State} (h : Keeps s0 s) :
    ∀ x0 x1, Ends s0 (execWarpLoad x0 x1 s) := by
  intros
  unfold execWarpLoad
  with_reducible repeat' first
    | assumption | intro _ | apply Keeps.ite | split | apply State.serve_keeps | apply State.admitTask_keeps
    | apply runWarpLoad_keeps | apply State.resp_keeps | apply Ends.next


theorem runWarpApply_keeps {s0 s : State} (h : Keeps s0 s) :
    ∀ x0 x2 x3, Keeps s0 (runWarpApply x0 s x2 x3).1 := by
  intros
  unfold runWarpApply
  with_reducible repeat' first
    | assumption | intro _ | extract_lets | apply Keeps.ite | split | apply State.record_keeps | apply Keeps.mk_upd
    | exact ⟨rfl, rfl, rfl⟩


theorem execWarpApply_keeps {s0 s : State} (h : Keeps s0 s) :
    ∀ x0 x1, Ends s0 (execWarpApply x0 x1 s) := by
  intros
  unfold execWarpApply
  with_reducible repeat' first
    | assumption | intro _ | apply Keeps.ite | split | apply State.serve_keeps | apply State.admitTask_keeps
    | apply runWarpApply_keeps | apply State.resp_keeps | apply Ends.next


end Sys2Proof.Machine
end

