-- ==== Sys2Proof/Laws/KeepsPace.lean ====
section
/-! SUPPORT. The operations of Machine/Pace lead from a state to one that follows from it (Keeps). -/

set_option Elab.async false

namespace Sys2Proof.Machine

theorem State.beginLegal_keeps {s0 s : State} (h : Keeps s0 s) :
    ∀ x1, Keeps s0 (State.beginLegal s x1) := by
  intros
  unfold State.beginLegal
  with_reducible repeat' first
    | assumption | intro _ | extract_lets | apply Keeps.ite | split | apply State.legalMetPace_keeps
    | apply Keeps.mk_upd | exact ⟨rfl, rfl, rfl⟩


theorem State.boundaryJobs_keeps {s0 s : State} (h : Keeps s0 s) :
    Keeps s0 (State.boundaryJobs s) := by
  unfold State.boundaryJobs
  with_reducible repeat' first
    | assumption | intro _ | extract_lets | split | apply State.windowEnds_keeps | apply State.runOps_keeps
    | apply State.joinedDue_keeps | apply State.logsDue_keeps | apply State.chunksDue_keeps
    | apply State.commitsDue_keeps | apply State.journalDue_keeps | refine Keeps.of_fst (by assumption) ?_
    | apply Keeps.mk_upd | exact ⟨rfl, rfl, rfl⟩


theorem State.boundarySteps_runs {s0 s : State} (h : Runs s0 s) (sensor : SensorPlan) (i : BoundaryIn) :
    Runs s0 (s.boundarySteps sensor i) := by
  have g : Runs s0 (if s.power.cutDue = true then s else (s.applyDue i.bad).applyCommit) := by
    split
    · exact h
    · exact (State.applyDue_runs h _).keeps (State.applyCommit_keeps (Keeps.refl _))
  revert g
  unfold State.boundarySteps
  generalize (if s.power.cutDue = true then s else (s.applyDue i.bad).applyCommit) = u
  intro g
  refine g.keeps ?_
  have k := Keeps.refl u
  with_reducible repeat' first
    | assumption | intro _ | extract_lets | apply Keeps.ite | split | apply State.applyCommit_keeps
    | apply State.record_keeps | apply State.closeEntry_keeps | apply State.endHandover_keeps
    | apply State.handoverPair_keeps | apply Keeps.mk_upd | exact ⟨rfl, rfl, rfl⟩


theorem State.catchUp_keeps {s0 s : State} (h : Keeps s0 s) :
    ∀ x1, Keeps s0 (State.catchUp s x1) := by
  intros
  unfold State.catchUp
  with_reducible repeat' first
    | assumption | intro _ | apply Keeps.ite | split | apply State.countSecond_keeps
    | apply State.switchUnbound_keeps | apply State.finishLegal_keeps


theorem State.installSamples_keeps {s0 s : State} (h : Keeps s0 s) :
    ∀ x1, Keeps s0 (State.installSamples s x1) := by
  intros
  unfold State.installSamples
  with_reducible repeat' first
    | assumption | intro _ | extract_lets | apply Keeps.foldl | apply Keeps.foldl_pair | apply RegFile.setF_wf
    | apply RegFile.flag_wf | apply RegFile.foldl_wf | apply Keeps.mk_upd | exact ⟨rfl, rfl, rfl⟩


theorem State.leave_keeps {s0 s : State} (h : Keeps s0 s) :
    Keeps s0 (State.leave s) := by
  unfold State.leave
  with_reducible repeat' first
    | assumption | intro _ | extract_lets | apply Keeps.ite | split | apply State.becomeOut_keeps
    | apply Keeps.mk_upd | exact ⟨rfl, rfl, rfl⟩


theorem State.nextPace_follows {s0 s : State} (h : Follows s0 s) : Follows s0 s.nextPace := by
  unfold State.nextPace
  dsimp only
  split
  · refine Follows.keeps ?_ (State.setF_keeps (Keeps.refl _) _ _)
    exact h.of_eq rfl rfl rfl rfl
  · exact h.of_eq rfl rfl rfl rfl


theorem State.sidebands_keeps {s0 s : State} (h : Keeps s0 s) :
    ∀ x1, Keeps s0 (State.sidebands s x1) := by
  intros
  unfold State.sidebands
  with_reducible repeat' first
    | assumption | intro _ | extract_lets | apply Keeps.ite | split | apply State.flag_keeps
    | apply State.leave_keeps | apply State.send_keeps | apply Keeps.mk_upd | exact ⟨rfl, rfl, rfl⟩


theorem State.takeTurns_keeps {s0 s : State} (h : Keeps s0 s) :
    Keeps s0 (State.takeTurns s) := by
  unfold State.takeTurns
  with_reducible repeat' first
    | assumption | intro _ | extract_lets | apply Keeps.ite | split | apply Keeps.foldl | apply Keeps.foldl_pair
    | refine Keeps.of_fst (by assumption) ?_ | apply Keeps.mk_upd | exact ⟨rfl, rfl, rfl⟩


theorem State.sealedPace_keeps {s0 s : State} (h : Keeps s0 s) :
    ∀ x1 x2 x3 x4, Keeps s0 (State.sealedPace s x1 x2 x3 x4) := by
  intros
  unfold State.sealedPace
  with_reducible repeat' first
    | assumption | intro _ | extract_lets | apply Keeps.ite | split | apply State.beginLegal_keeps
    | apply State.changeOver_keeps | apply State.takeStep_keeps | apply State.toTar_keeps


theorem State.takeSamples_keeps {s0 s : State} (h : Keeps s0 s) :
    ∀ x1, Keeps s0 (State.takeSamples s x1) := by
  intros
  unfold State.takeSamples
  with_reducible repeat' first
    | assumption | intro _ | extract_lets | apply Keeps.ite | split | apply State.installSamples_keeps
    | apply State.legalMetPace_keeps | apply Keeps.foldl | apply Keeps.foldl_pair
    | refine Keeps.of_fst (by assumption) ?_ | apply Keeps.mk_upd | exact ⟨rfl, rfl, rfl⟩


theorem State.watchBoundary_keeps {s0 s : State} (h : Keeps s0 s) :
    ∀ x1, Keeps s0 (State.watchBoundary s x1) := by
  intros
  unfold State.watchBoundary
  with_reducible repeat' first
    | assumption | intro _ | extract_lets | apply Keeps.ite | split | apply Keeps.mk_upd | exact ⟨rfl, rfl, rfl⟩


theorem State.runBoundary_follows {s0 s : State} (h : Follows s0 s) (i : BoundaryIn) : Follows s0 (s.runBoundary i) := by
  have g := State.nextPace_follows (h.keeps (State.catchUp_keeps (Keeps.refl _) i.badLegal))
  have g1 := g.trans (State.boundarySteps_runs (Runs.refl _) s.sensorPlan i).toFollows
  refine g1.keeps ?_
  unfold State.runBoundary
  dsimp only
  generalize ((s.catchUp i.badLegal).nextPace).boundarySteps s.sensorPlan i = u
  have k := Keeps.refl u
  with_reducible repeat' first
    | assumption | intro _ | extract_lets | apply Keeps.ite | split | apply State.sidebands_keeps
    | apply State.takeTurns_keeps | apply State.catchUp_keeps | apply State.advanceTime_keeps
    | apply State.tickPulses_keeps | apply State.hostSamplesAct_keeps | apply State.opticalDue_keeps
    | apply State.sampleUpd_keeps | apply State.sealedPace_keeps | apply State.takeSamples_keeps
    | apply State.frontEndBoundary_keeps | apply State.trackTrial_keeps | apply State.cancelTasks_keeps
    | apply State.watchBoundary_keeps | apply State.enterSave_keeps | apply State.resetAfterApply_keeps
    | apply State.boundaryJobs_keeps


theorem execPaceBoundary_follows {s0 s : State} (h : Follows s0 s) (i : BoundaryIn) :
    Moves s0 (execPaceBoundary i s) := by
  unfold execPaceBoundary
  refine Moves.next ?_
  split
  · exact h
  · exact (State.nextPace_follows h).keeps (State.advanceTime_keeps (Keeps.refl _))
  · exact State.runBoundary_follows h i


theorem execEngineOverrun_keeps {s0 s : State} (h : Keeps s0 s) :
    ∀ x0 x1, Ends s0 (execEngineOverrun x0 x1 s) := by
  intros
  unfold execEngineOverrun
  with_reducible repeat' first
    | assumption | intro _ | extract_lets | apply Keeps.ite | split | apply State.post_keeps
    | apply State.setF_keeps | apply State.bump_keeps | apply State.fatal_keeps | apply Ends.next | apply Ends.ite
    | apply RegFile.ite_wf | apply RegFile.setF_wf | apply RegFile.bump_wf | apply RegFile.put_wf
    | apply Keeps.mk_upd | exact ⟨rfl, rfl, rfl⟩


theorem execJobDeadlineMiss_keeps {s0 s : State} (h : Keeps s0 s) :
    ∀ x0 x1 x2, Ends s0 (execJobDeadlineMiss x0 x1 x2 s) := by
  intros
  unfold execJobDeadlineMiss
  with_reducible repeat' first
    | assumption | intro _ | extract_lets | apply Keeps.ite | split | apply State.post_keeps
    | apply State.bump_keeps | apply Ends.next | exact ⟨rfl, rfl, rfl⟩


end Sys2Proof.Machine
end

