-- ==== Sys2Proof/Laws/KeepsStart.lean ====
section
/-! SUPPORT. The operations of Machine/Start lead from a state to one that follows from it (Keeps). -/

set_option Elab.async false

namespace Sys2Proof.Machine

theorem State.bootFirmware_keeps {s0 s : State} (h : Keeps s0 s) :
    ∀ x1, Keeps s0 (State.bootFirmware s x1) := by
  intros
  unfold State.bootFirmware
  with_reducible repeat' first
    | assumption | intro _ | apply Keeps.ite | split | apply State.fwFallback_keeps | apply State.fwActivate_keeps
    | apply State.bootSlot_keeps


theorem State.restartCores_keeps {s0 s : State} (h : Keeps s0 s) :
    Keeps s0 (State.restartCores s) := by
  unfold State.restartCores
  with_reducible repeat' first
    | assumption | intro _ | extract_lets | apply Keeps.mk_upd | exact ⟨rfl, rfl, rfl⟩


theorem State.coldStart_follows {s0 s : State} (h : Follows s0 s) (cause : Nat) (i : StartIn) :
    Follows s0 (s.coldStart cause i) := by
  unfold State.coldStart
  extract_lets restore good r0 r1 r2 wait ctx s1 _ _ _ _ _ _ _ _ _ _ _ _ base
  have g1 : Follows s0 s1 := h.keeps (State.restartCores_keeps (Keeps.refl _))
  have g : Follows s0 base := by
    refine ⟨fun _ => ?_, g1.pending, g1.out, g1.drawn⟩
    show RegFile.wf r2 = true
    exact RegFile.flag_wf _ _ (RegFile.flag_wf _ _ (RegFile.flag_wf _ _ (RegFile.setF_wf _ _ (RegFile.flag_wf _ _
      (RegFile.flag_wf _ _ (RegFile.setF_wf _ _ (RegFile.setF_wf _ _ (RegFile.cold_wf _))))))))
  clear_value base
  exact g.keeps (State.linesLow_keeps (State.showLevels_keeps (State.readBoots_keeps (Keeps.refl _) _) _))


theorem State.rootFormed_keeps {s0 s : State} (h : Keeps s0 s) :
    Keeps s0 (State.rootFormed s) := by
  unfold State.rootFormed
  with_reducible repeat' first
    | assumption | extract_lets | apply State.showSlots_keeps | apply State.puts_keeps | apply State.setF_keeps


theorem State.enrolAtStart_keeps {s0 s : State} (h : Keeps s0 s) :
    Keeps s0 (State.enrolAtStart s) := by
  unfold State.enrolAtStart
  with_reducible repeat' first
    | assumption | intro _ | extract_lets | apply State.rootFormed_keeps | apply State.setF_keeps
    | apply State.takeLeaf_keeps | apply State.setLeaf_keeps | apply State.post_keeps | apply State.flag_keeps
    | apply Keeps.mk_upd | exact ⟨rfl, rfl, rfl⟩


theorem State.registryRestore_keeps {s0 s : State} (h : Keeps s0 s) :
    Keeps s0 (State.registryRestore s) := by
  unfold State.registryRestore
  with_reducible repeat' first
    | assumption | intro _ | extract_lets | apply State.setF_keeps | apply State.flag_keeps | apply State.post_keeps
    | apply State.showBuffer_keeps | apply Keeps.mk_upd | exact ⟨rfl, rfl, rfl⟩


theorem State.resetTask_keeps {s0 s : State} (h : Keeps s0 s) :
    ∀ x1, Keeps s0 (State.resetTask s x1) := by
  intros
  unfold State.resetTask
  with_reducible repeat' first
    | assumption | intro _ | extract_lets | apply Keeps.ite | split | apply State.setTask_keeps
    | apply State.post_keeps | apply State.report_keeps | exact ⟨rfl, rfl, rfl⟩


theorem State.resetTasks_keeps {s0 s : State} (h : Keeps s0 s) :
    Keeps s0 (State.resetTasks s) := by
  unfold State.resetTasks
  with_reducible repeat' first
    | assumption | intro _ | apply State.resetTask_keeps | apply Keeps.foldl


theorem State.fromW_keeps {s0 s : State} (h : Keeps s0 s) :
    ∀ x1 x2 x3, Keeps s0 (State.fromW s x1 x2 x3) := by
  intros
  unfold State.fromW
  with_reducible repeat' first
    | assumption | intro _ | extract_lets | apply Keeps.ite | split | apply State.eventRestart_keeps
    | apply State.storageRestore_keeps | apply State.plcRestart_keeps | apply State.resumeJoined_keeps
    | apply State.registryRestore_keeps | apply State.keypadCfg_keeps | apply State.balRequeue_keeps
    | apply State.resetTasks_keeps


theorem State.loadAtStart_follows {s0 s : State} (h : Follows s0 s) (copies : List Bool) :
    Follows s0 (s.loadAtStart copies) := by
  unfold State.loadAtStart
  split
  · refine Follows.keeps ?_ (State.installRegs_keeps (Keeps.refl _) _ _)
    exact h.of_eq rfl rfl rfl rfl
  · exact h.of_eq rfl rfl rfl rfl


theorem State.leavesAtStart_keeps {s0 s : State} (h : Keeps s0 s) :
    ∀ x1, Keeps s0 (State.leavesAtStart s x1) := by
  intros
  unfold State.leavesAtStart
  with_reducible repeat' first
    | assumption | intro _ | extract_lets | apply Keeps.ite | split | apply State.setLeaf_keeps
    | apply State.setF_keeps | refine Keeps.of_fst (by assumption) ?_ | apply Keeps.mk_upd | exact ⟨rfl, rfl, rfl⟩


theorem State.keysAtStart_keeps {s0 s : State} (h : Keeps s0 s) :
    ∀ x1 x2 x3, Keeps s0 (State.keysAtStart s x1 x2 x3) := by
  intros
  unfold State.keysAtStart
  with_reducible repeat' first
    | assumption | intro _ | extract_lets | apply Keeps.ite | split | apply State.flag_keeps
    | apply State.leavesAtStart_keeps | apply State.zeroise_keeps | apply State.enrolAtStart_keeps
    | apply State.setF_keeps | apply State.rootFormed_keeps | apply State.post_keeps | apply Keeps.mk_upd
    | exact ⟨rfl, rfl, rfl⟩


theorem State.seedAtStart_keeps {s0 s : State} (h : Keeps s0 s) :
    Keeps s0 (State.seedAtStart s) := by
  unfold State.seedAtStart
  with_reducible repeat' first
    | assumption | intro _ | extract_lets | apply Keeps.ite | split | apply State.loadSeed_keeps
    | apply State.draw_keeps


theorem State.timeAtStart_keeps {s0 s : State} (h : Keeps s0 s) :
    ∀ x1 x2, Keeps s0 (State.timeAtStart s x1 x2) := by
  intros
  unfold State.timeAtStart
  with_reducible repeat' first
    | assumption | intro _ | extract_lets | apply Keeps.ite | split | apply State.post_keeps
    | apply State.setF_keeps | apply RegFile.ite_wf | apply RegFile.setF_wf | refine Keeps.of_fst (by assumption) ?_
    | apply Keeps.mk_upd | exact ⟨rfl, rfl, rfl⟩


theorem State.pendingAtStart_keeps {s0 s : State} (h : Keeps s0 s) :
    Keeps s0 (State.pendingAtStart s) := by
  unfold State.pendingAtStart
  with_reducible repeat' first
    | assumption | intro _ | extract_lets | apply Keeps.ite | split | apply State.warpRejected_keeps
    | apply Keeps.foldl | apply Keeps.foldl_pair | apply Ends.next | apply Ends.ite | apply RegFile.ite_wf
    | apply RegFile.setF_wf | apply RegFile.flag_wf | apply RegFile.bump_wf | apply RegFile.put_wf
    | apply RegFile.setFInt_wf | apply RegFile.put64_wf | apply RegFile.foldl_wf
    | refine Keeps.of_fst (by assumption) ?_ | (dsimp +zetaDelta only; split) | apply Keeps.mk_upd
    | exact ⟨rfl, rfl, rfl⟩


theorem State.reportSave_keeps {s0 s : State} (h : Keeps s0 s) :
    Keeps s0 (State.reportSave s) := by
  unfold State.reportSave
  with_reducible repeat' first
    | assumption | intro _ | extract_lets | apply Keeps.ite | split | apply State.post_keeps
    | apply State.bump_keeps | apply RegFile.ite_wf | apply RegFile.setF_wf | apply RegFile.bump_wf
    | refine Keeps.of_fst (by assumption) ?_ | apply Keeps.mk_upd | exact ⟨rfl, rfl, rfl⟩


theorem State.reportStart_keeps {s0 s : State} (h : Keeps s0 s) :
    ∀ x1 x2, Keeps s0 (State.reportStart s x1 x2) := by
  intros
  unfold State.reportStart
  with_reducible repeat' first
    | assumption | intro _ | extract_lets | split | apply State.reportSave_keeps | apply State.postIf_keeps
    | apply State.post_keeps | apply State.judgeVbat_keeps | refine Keeps.of_fst (by assumption) ?_
    | apply Keeps.mk_upd | exact ⟨rfl, rfl, rfl⟩


theorem State.reportDumps_keeps {s0 s : State} (h : Keeps s0 s) :
    Keeps s0 (State.reportDumps s) := by
  unfold State.reportDumps
  with_reducible repeat' first
    | assumption | intro _ | extract_lets | apply State.raiseItem_keeps | apply State.post_keeps | apply Keeps.foldl
    | apply Keeps.foldl_pair | apply Keeps.mk_upd | exact ⟨rfl, rfl, rfl⟩


theorem State.lowAtStart_keeps {s0 s : State} (h : Keeps s0 s) :
    ∀ x1, Keeps s0 (State.lowAtStart s x1) := by
  intros
  unfold State.lowAtStart
  with_reducible repeat' first
    | assumption | intro _ | apply Keeps.ite | split | apply State.lowChanged_keeps | apply Keeps.foldl
    | apply Keeps.foldl_pair | apply RegFile.ite_wf | apply RegFile.foldl_wf


theorem State.fullStart_follows {s0 s : State} (h : Follows s0 s) (cause : Nat) (i : StartIn) :
    Follows s0 (s.fullStart cause i) := by
  refine (State.loadAtStart_follows (State.coldStart_follows h cause i) i.copies).keeps ?_
  unfold State.fullStart
  dsimp only
  generalize s.coldStart cause i = u
  generalize u.loadAtStart i.copies = v
  refine State.reportDumps_keeps (State.lowAtStart_keeps (State.fromW_keeps (State.pendingAtStart_keeps
    (State.reportStart_keeps (State.seedAtStart_keeps (State.bootFirmware_keeps (State.sealedStart_keeps
      (State.timeAtStart_keeps (State.showVersions_keeps (State.loadBoot_keeps (State.keysAtStart_keeps
        (State.restoreQueues_keeps (Keeps.refl v) _ _) _ _ _) _)) _ _)) _)) _ _)) _ _ _) _)


theorem State.pairAfterApply_keeps {s0 s : State} (h : Keeps s0 s) :
    ∀ x1, Keeps s0 (State.pairAfterApply s x1) := by
  intros
  unfold State.pairAfterApply
  with_reducible repeat' first
    | assumption | intro _ | apply Keeps.ite | split | apply State.startResync_keeps


theorem execFullStart_follows {s0 s : State} (h : Follows s0 s) (i : StartIn) : Moves s0 (execFullStart i s) := by
  unfold execFullStart
  refine Moves.next ?_
  split
  · exact State.fullStart_follows h _ i
  · exact h


theorem execWarmRestart_keeps {s0 s : State} (h : Keeps s0 s) :
    Ends s0 (execWarmRestart s) := by
  unfold execWarmRestart
  with_reducible repeat' first
    | assumption | intro _ | extract_lets | split | apply State.restartCores_keeps
    | apply State.pairAfterApply_keeps | apply State.fromW_keeps | apply State.bootFirmware_keeps | apply Ends.next
    | apply RegFile.setF_wf | refine Keeps.of_fst (by assumption) ?_ | apply Keeps.mk_upd | exact ⟨rfl, rfl, rfl⟩


end Sys2Proof.Machine
end

