-- ==== Sys2Proof/Laws/KeepsStep.lean ====
section
/-! SUPPORT. The operations of Machine/Step lead from a state to one that follows from it (Keeps). -/

set_option Elab.async false

namespace Sys2Proof.Machine

theorem State.quantumPasses_follows {s0 s : State} (h : Follows s0 s) : Follows s0 s.quantumPasses :=
  h.of_eq rfl rfl rfl rfl


end Sys2Proof.Machine
end

