-- ==== Sys2Proof/Laws/PlcPhy.lean ====
section
/-! SUPPORT. Bits laid out first to last read back as they were, and a frame control header that the TY9600 forms passes its
own check (R259). -/

namespace Sys2Proof.Machine

theorem bitsOf_succ (n v : Nat) : bitsOf (n + 1) v = v.testBit n :: bitsOf n v := by
  rw [bitsOf, List.range_succ_eq_map, List.map_cons, List.map_map]
  refine congrArg (v.testBit n :: ·) (List.map_congr_left fun j _ => ?_)
  show v.testBit (n + 1 - 1 - (j + 1)) = _
  rw [show n + 1 - 1 - (j + 1) = n - 1 - j by omega]

@[simp] theorem bitsOf_length (n v : Nat) : (bitsOf n v).length = n := by simp [bitsOf]

theorem ofBits_foldl (l : List Bool) : ∀ a, l.foldl (fun n b => 2 * n + (if b then 1 else 0)) a = 2 ^ l.length * a + ofBits l := by
  induction l with
  | nil => intro a; rw [ofBits]; simp only [List.foldl_nil, List.length_nil]; omega
  | cons b l ih =>
    intro a
    rw [ofBits, List.foldl_cons, List.foldl_cons, ih, ih, List.length_cons, Nat.pow_succ, Nat.mul_add, Nat.mul_add,
      Nat.mul_assoc]
    omega

theorem ofBits_cons (b : Bool) (l : List Bool) : ofBits (b :: l) = 2 ^ l.length * (if b then 1 else 0) + ofBits l := by
  rw [ofBits, List.foldl_cons, ofBits_foldl, Nat.mul_zero, Nat.zero_add]

theorem ofBits_lt (l : List Bool) : ofBits l < 2 ^ l.length := by
  induction l with
  | nil => decide
  | cons b l ih => rw [ofBits_cons, List.length_cons, Nat.pow_succ]; split <;> omega

theorem bitsOf_congr (n v w : Nat) (h : ∀ j < n, v.testBit j = w.testBit j) : bitsOf n v = bitsOf n w :=
  List.map_congr_left fun j hj => h _ (by have := List.mem_range.mp hj; omega)

/-- Bits written out read back as they were. -/
theorem bitsOf_ofBits (l : List Bool) : bitsOf l.length (ofBits l) = l := by
  induction l with
  | nil => rfl
  | cons b l ih =>
    rw [List.length_cons, bitsOf_succ, ofBits_cons, Nat.testBit_two_pow_mul_add _ (ofBits_lt l),
      bitsOf_congr _ _ (ofBits l) fun j hj => by rw [Nat.testBit_two_pow_mul_add _ (ofBits_lt l), if_pos hj], ih]
    cases b <;> simp

theorem beVal_lt (l : List Byte) : beVal l < 256 ^ l.length := by
  have h : ∀ (l : List Byte) (a : Nat), l.foldl (fun n b => n * 256 + b.toNat) a < (a + 1) * 256 ^ l.length := by
    intro l
    induction l with
    | nil => intro a; simp
    | cons b l ih =>
      intro a
      have := b.isLt
      refine Nat.lt_of_lt_of_le (ih _) ?_
      rw [List.length_cons, Nat.pow_succ, Nat.mul_comm _ 256, ← Nat.mul_assoc]
      exact Nat.mul_le_mul_right _ (show a * 256 + b.toNat + 1 ≤ _ by omega)
  simpa [beVal] using h l 0

theorem fieldAt_two_lt (l : List Byte) (o : Nat) : fieldAt l o 2 < 65536 := by
  refine Nat.lt_of_lt_of_le (beVal_lt _) ?_
  exact Nat.pow_le_pow_right (by decide : 0 < 256) (List.length_take_le 2 (l.drop o))

theorem crc16_lt (l : List Bool) : crc16 l < 65536 := BitVec.isLt _

theorem ofBits_append (a b : List Bool) : ofBits (a ++ b) = 2 ^ b.length * ofBits a + ofBits b := by
  rw [ofBits, List.foldl_append, ofBits_foldl]; rfl

theorem ofBits_bitsOf (n v : Nat) : ofBits (bitsOf n v) = v % 2 ^ n := by
  induction n with
  | zero => rw [Nat.pow_zero, Nat.mod_one]; rfl
  | succ n ih =>
    have h : v / 2 ^ n % 2 = if v.testBit n then 1 else 0 := by
      rw [Nat.testBit_eq_decide_div_mod_eq]
      have := Nat.mod_lt (v / 2 ^ n) (by decide : 0 < 2)
      by_cases e : v / 2 ^ n % 2 = 1 <;> simp [e]
      omega
    rw [bitsOf_succ, ofBits_cons, ih, bitsOf_length, Nat.pow_succ, Nat.mod_mul, h, Nat.add_comm]

/-- The 48 bits of a frame control header before its CRC. -/
theorem fchWord_head (type tmi span cph length src : Nat) : ∃ l, l.length = 48 ∧
    (fchWord type tmi span cph length src).toNat = ofBits l * 65536 + crc16 l ∧
    ofBits l = ((((type % 8 * 16 + tmi % 16) * 16 + span % 16) * 256 + cph % 256) * 1024 + length % 1024) * 524288 +
      src % 65536 * 8 := by
  let l := bitsOf 3 type ++ bitsOf 4 tmi ++ bitsOf 4 span ++ bitsOf 8 cph ++ bitsOf 10 length ++ bitsOf 16 src ++ bitsOf 3 0
  have n : l.length = 48 := by simp [l]
  have b := ofBits_lt l
  rw [n] at b
  have c := crc16_lt l
  refine ⟨l, n, ?_, ?_⟩
  · have e : ofBits l * 65536 + crc16 l < 2 ^ 64 := by omega
    exact Nat.mod_eq_of_lt e
  · simp only [l, ofBits_append, ofBits_bitsOf, bitsOf_length, Nat.zero_mod]
    omega

/-- R259: the check of a frame control header that is formed as the rule says passes. -/
theorem fchOk_fchWord (type tmi span cph length src : Nat) : fchOk (fchWord type tmi span cph length src) = true := by
  obtain ⟨l, n, h, -⟩ := fchWord_head type tmi span cph length src
  have c := crc16_lt l
  rw [fchOk, h, show (ofBits l * 65536 + crc16 l) / 65536 = ofBits l by omega,
    show (ofBits l * 65536 + crc16 l) % 65536 = crc16 l by omega, ← n, bitsOf_ofBits]
  simp

/-- R259: the type and the source of a header read back. -/
theorem fchType_fchWord (type tmi span cph length src : Nat) (b : type < 8) : fchType (fchWord type tmi span cph length src) = type := by
  obtain ⟨l, -, h, e⟩ := fchWord_head type tmi span cph length src
  have c := crc16_lt l
  rw [fchType, fchField, h]
  omega

theorem fchSrc_fchWord (type tmi span cph length src : Nat) (b : src < 65536) : fchSrc (fchWord type tmi span cph length src) = src := by
  obtain ⟨l, -, h, e⟩ := fchWord_head type tmi span cph length src
  have c := crc16_lt l
  rw [fchSrc, fchField, h]
  omega

end Sys2Proof.Machine
end

