-- ==== Sys2Proof/Tests/Slice0.lean ====
section
/-! SUPPORT. The author's own tests: refusals of WellFormed, the state after reset, single steps, and for each statement
with hypotheses states and operands that meet them. -/

set_option Elab.async false

namespace Sys2Proof.Tests

open Sys2Proof Sys2Proof.Machine

/-! ### A populated device -/

/-- The host key under which `sig0` signs one byte 0. -/
def hostKey0 : List Byte :=
  beBytes 32 0x82ac2eec7a72ac40bc4bbd8b885530620755e3ac4e15d121c491ab4e9257f108 ++
  beBytes 32 0x2158d1a997b199ebfdcb727bb977b8be8f9f27f7e5c7c60c61fbbea43f0e7de9

/-- A host context with every right and every block. -/
def host0 : HostEntry :=
  { context := 0, link := 1, port := 0, localClear := true, udpPort := 1024, peerAddr := 0, peerPrefix := 0, rights := 0xFFFFFFFF,
    writeBlocks := 0x7FFFFF, tasksReserved := 4, tasksMax := 64, cmdRate := 1000, cmdBurst := 2000, noticeMax := 1024,
    noticeMask := 0xFFFFFFFF, sessionLife := 600, keys := [[], hostKey0], reservedZero := true }

/-- A second context of the SPI host port, without rights. -/
def host1 : HostEntry := { host0 with context := 1, link := 4, udpPort := 0, rights := 0, writeBlocks := 0 }

def port0 : PortEntry := { role := 1, flags := 0, slew := 0, filter := 0, rate := 5, frame := 0, deLead := 0, deLag := 0, reservedZero := true }

/-- Ethernet 0 is a host port and 1 serves both, the serial ports 16 and 17 serve meters, the others are as their group asks. -/
def ports0 : PortsPlan :=
  { headerOk := true, ptpPort := 0
    ports := (List.range 64).map fun p => { port0 with role := if p = 1 then 3 else if p = 60 then 2 else if p = 5 then 0 else 1 }
    ips := [], tampers := [⟨1, 1, true⟩, ⟨0, 0, true⟩]
    subcons := [⟨1, 0, 1024, 0⟩] }

def sensor0 : SensorEntry :=
  { enabled := true, autoZero := true, tsense := 0xFF, zeroGroup := 1, offset := 0, gain := 4194304, tc1 := 0, tc2 := 0, ofsTc := 0,
    t0 := 0, azLimit := 100, driftAlarm := 1 }

def channel0 : ChannelEntry :=
  { enabled := true, magwin := 1, zeroThr := 10, calImin := 0, calImax := 100000, calTmin := -4000, calTmax := 12500, calId := 0,
    delay := 0, terms := [⟨0, 4194304⟩, ⟨1, 100⟩], breakpoints := [], restZero := true }

def point0 : PointEntry :=
  { enabled := true, dc := false, invert := false, vch := 0, intervalMin := 15, nominalHz := 50, startI := 1, pmaxW := 10000,
    vmin := 0, pGain := 4194304, pOfs := 0, qGain := 4194304, qOfs := 0, vGain := 4194304, iGain := 4194304, iOfs := 0, imax := 6553600 }

def legal0 : LegalSection :=
  { mpEntries := 12, flags := 0, dispCount := 2, dispScroll := 10, mpCal := [0], optAddr := [0x31, 0, 0],
    disp := [⟨0, 1, 0, 0⟩, ⟨0, 2, 0, 0⟩] }

def node0 : TopoNode :=
  { node := 1, parent := 0xFFFF, flags := 0, balMin := 15, refMp := 0, refMeter := 0, vNom := 230, k0Init := 0, k2Init := 0, sigmaMin := 1 }

def queue0 : QueuePlan :=
  { tickets := (List.range 16).map fun i => i
    queues := [⟨0, 4, 1, 0, 0⟩, ⟨1, 2, 0, 16, 0⟩, ⟨2, 1, 1, 20, 0⟩, ⟨511, 0, 0, 22, 7⟩] }

def storage0 : StoragePlan :=
  { dies := 8, stripeW := 8, pageBytes := 16384, spareBytes := 1024, pagesPerBlock := 12, blocksPerDie := 64, slcAddr := 0, slcOn := 0,
    slcOff := 0, rateMts := 800, sysBlocks := 4, slcPct := 10, opPct := 10, retentionDays := 30, minIvl := 15, nsMib := [1, 1, 1, 1, 1, 1, 1] }

def radio0 : RadioConf :=
  { role := 1, wmbusModes := 0, rate := 0, chCount := 8, ch0Khz := 868000, spacingKhz := 200, preambleOct := 8, chMap := 0xFF,
    floodCh := [0, 3], txDbm := 10, paLeadUs := 10, flags := 0, dwellMs := 0, dwellWinS := 0 }

def rf0 : RfBands := { radios := [radio0, { radio0 with role := 2, wmbusModes := 1 }], subBands := [⟨867000, 870000, 1000, 3600⟩] }

def plc0 : PlcConf :=
  { role := 1, coupling := 0, refSrc := 1, group := 0, kLo := 10, kHi := 40, txLevel := 10, txLeadUs := 10, notch := 0, mode := 1,
    cfpPct := 50, sfMs := 1000, netId := 7 }

def pair0 : PairPlan :=
  { headerOk := true, prefer0 := true, lagUs := 100, startWait := 1000, ckptPaces := 1000, idents := [0, 5], addr1 := [] }

/-- A Warp image that uses every chapter. -/
def warp0 : WarpImage :=
  { bytes := [], layoutOk := true, hwType := 0x9600, minRev := 0, dualSign := false, pair := true, serial := 1, denetVer := 1, buildTime := 0, sigs := [],
    present := [], reservedZero := true, ports := ports0
    sensorPlan := ⟨1, List.replicate 4 sensor0, [⟨true, 0xFF, 0, 0, 4096, 0⟩], [⟨false, 0, 0, 0, 0⟩], [channel0]⟩
    qtyPlan := ⟨[point0, point0], [⟨true, false, 0, 0, 30, 1000⟩, ⟨true, false, 1, 0, 30, 1000⟩]⟩
    legal := legal0, topology := [node0, { node0 with node := 2, parent := 1 }], queuePlan := queue0, storage := storage0
    rfBands := some rf0, plcBands := some [plc0, { plc0 with refSrc := 0 }], pairPlan := some pair0, hostPlan := [host0, host1]
    pacePlan := [⟨0x10, 3, 1, 50, 10⟩, ⟨0, 8, 1, 50, 0⟩], signers := [], regInit := [] }

/-- The device in operation under that image at pace 100,000, alone (role 0). -/
def base : State :=
  { State.reset with
    warp := { active := some warp0, stored := [warp0, warp0] }
    leg := {}
    fwu := {}
    power := { phase := .run, dies := List.replicate 8 ⟨16384, 1024, 12, 64, 800⟩, dramGib := 8 }
    pace := { count := 100000 }
    clk := { ns := 1800000000000000000 } }


/-! ### Variants of the device -/

/-- The value of one field. -/
def set (f : FieldRef) (v : Nat) (s : State) : State := s.setF f v

def phase (p : Phase) (s : State) : State := { s with power := { s.power with phase := p } }

/-- The role and the state of synchronisation of the member. -/
def role (n m : Nat) (s : State) : State := set F.PAIR_STAT.SYNC m (set F.PAIR_STAT.ROLE n s)

def pair (f : PairState → PairState) (s : State) : State := { s with pair := f s.pair }

/-- The pair link with keys on lane 0. -/
def linked (s : State) : State := pair (fun p => { p with keys := some ([], []) }) (set F.PAIR_STAT.LANE0 1 s)

/-- The state after a command. -/
def after (c : Instr) (s : State) : State := match exec c s with
  | .next t => t
  | _ => s

def atPace (p : Nat) (s : State) : State := { s with pace := { s.pace with count := BitVec.ofNat 64 p } }

/-- The requester with every right. -/
def host : Requester := .context 0

/-- A TLV in a body (R52), its length a multiple of 4. -/
def item (type : Nat) (value : List Byte) : List Byte := packBytes [(2, type), (2, value.length)] ++ value

/-- A command of context 0 with sequence number 1. -/
def command (opcode : Nat) (body : List Byte) : Msg :=
  { seat := 0, here := true, clear := true, rep := false, ack := false, opcode := opcode, seq := 1, task := 0, session := 0, body := body }

/-- The device with a command in its inbox. -/
def waiting (m : Msg) (s : State) : State := { s with host := { s.host with inbox := [m] } }

/-- The cores have read a message of the export queue, or the sealed cores one of the request queue. -/
def exported (type : Nat) (body : List Byte) (s : State) : State :=
  { s with leg := { s.leg with exportRead := packMessage type 1 body } }

def requested (type : Nat) (body : List Byte) (s : State) : State :=
  { s with leg := { s.leg with requestRead := packMessage type 1 body } }

/-- The device without rights for any block. -/
def noBlocks : State := { base with warp := { active := some { warp0 with hostPlan := [{ host0 with writeBlocks := 0 }, host1] } } }

def stage (f : StageState → StageState) (s : State) : State := { s with stage := f s.stage }

def tariff (f : TarState → TarState) (s : State) : State := { s with tar := f s.tar }

def ingest (f : IngestState → IngestState) (s : State) : State := { s with ing := f s.ing }

def sealed (f : SealedState → SealedState) (s : State) : State := { s with leg := f s.leg }

def radio (f : RadioState → RadioState) (s : State) : State := { s with rad := f s.rad }

def conn0 : RadioConn := ⟨0, 10, 50, 0, 5, 0xFF, none, 0, 100000000, ⟨0, 0⟩, 0, false, 0⟩

def payload0 : DownPayload := { body := .message [1], lsn := 3, sends := 1, sentAt := 5 }

def entry0 : JoinedEntry := ⟨5, false, 1000, 3, 4, 5, 6, 7, [payload0], [], false, some conn0, none⟩

def joined (e : JoinedEntry) : State := radio (fun r => { r with joined := [(9, e)] }) base

/-- A wired M-Bus answer of the meter with EXT_ID 9, in the clear. -/
def frame0 : IngestFrame :=
  { route := 7, extId := some 9, shortAddr := 0, rx := 1800000000000
    body := .coded ⟨.wired 2400 0 1 0x72 0, true, some 5, none, [(1800000000, [.record 6 256 false 5])]⟩ }

def reading0 : Reading :=
  { isn := 1, index := 5, counter := none, route := 7, endMin := 30000000, period := 15, profile := false, quality := 0
    values := [some 1, some 2, some 3, some 4], status := 0, replace := false, lost := false, item := none, ack := false
    loggedAt := 99999 }

def meter0 : MeterRec := { state := .active, conf := { protocol := 4, route := 7, port := 3, extId := 9, flags := 8, shortNo := 12 } }

/-- A set that is active from the start, with windows of 15 minutes in one sub-period, monthly billing. -/
def calSet0 : CalSet := List.replicate 10 0 ++ [15, 1, 3, 1] ++ List.replicate 40 0

/-- A clear waybill of context 0 with a REG_READ of one register. -/
def waybill0 : Waybill :=
  { link := .udp 0 1024 0 false false
    bytes := packBytes [(2, 0x5742), (1, 1), (1, 1), (1, 1), (1, 0), (1, 0), (1, 1), (2, 40), (2, 0x0010), (4, 1), (4, 0), (2, 0),
      (2, 0), (8, 0)] ++ item 0x0010 [0, 0, 0, 4] }

/-- A meter with a reading key and a vending key revision 0, all zeros. -/
def meter1 : MeterRec :=
  { state := .active, conf := { protocol := 1, route := 1, extId := 9, flags := 8, shortNo := 12 }, keyAlg := 1
    keyWrap := some ⟨0, List.replicate 16 0⟩ }

def keyed1 (s : State) : State :=
  set F.KEY_STAT.STATE 1 (ingest (fun g => { g with meters := [(5, meter1)], vkeys := [(0, ⟨0, List.replicate 32 0⟩)] }) s)

/-- A forwarded token of twenty zeros under that key, with counter 5. -/
def frame1 : IngestFrame :=
  { route := 1, extId := some 9, shortAddr := 0, rx := 1800000000000
    body := .tylian (packBytes [(7, 0x23000000000000), (1, 5), (8, 0), (16, 0x0b2f35662947675f83db6e5dba00cd99), (8, 0x7925960e823c82b2)]) }

/-- A message of a node that waits for its own command. -/
def nodeMsg (chan : Option Nat) (bytes : List Byte) : NodeMsg := ⟨9, chan, { frame0 with body := .tylian bytes }⟩

/-! ### Operands outside their ranges are refused by `Instr.wf` -/

theorem refused_engine : Instr.wf (.engineOverrun 32 0) = false ∧ Instr.wf (.jobDeadlineMiss 0 10 5) = false := by decide
theorem refused_context : Instr.wf (.stageAcquire (.context 8)) = false ∧ Instr.wf (.hostClose host 8) = false ∧
    Instr.wf (.leave (.context 9)) = false := by decide
theorem refused_seat : Instr.wf (.regRead { command 0x0010 [] with seat := 9 }) = false ∧
    Instr.wf (.sessionOpen { command 1 [] with seat := 9 }) = false ∧ Instr.wf (.taskItemEnd 4096 true true) = false := by decide
theorem refused_metering : Instr.wf (.sensorFault 48) = false ∧ Instr.wf (.refineStart host 16) = false ∧
    Instr.wf (.intervalClose 12) = false ∧ Instr.wf (.pulseEmit 16) = false ∧ Instr.wf (.tariffSwitch 64) = false := by decide
theorem refused_registry : Instr.wf (.meterGraceClose 1048576) = false ∧ Instr.wf (.serialPoll 24) = false ∧
    Instr.wf (.nodeBalance 65536 0) = false ∧ Instr.wf (.rebase host 65536) = false := by decide
theorem refused_key : Instr.wf (.keypadKey 36) = false ∧ Instr.wf (.keypadKey 69) = false := by decide
theorem refused_mesh : Instr.wf (.connectionLost 65536) = false ∧ Instr.wf (.channelReturn 2 0) = false ∧
    Instr.wf (.channelReturn 0 64) = false ∧ Instr.wf (.synthLockFail 2) = false := by decide
theorem refused_power_line : Instr.wf (.superframeStart 4) = false ∧ Instr.wf (.plcLinkLost 65536) = false := by decide
theorem refused_port : Instr.wf (.portLink 64 1) = false ∧ Instr.wf (.pcieReset 2) = false ∧
    Instr.wf (.rxPost 0 4 0 none []) = false ∧ Instr.wf (.tamperTrigger 8) = false := by decide
theorem refused_storage : Instr.wf (.dieFail 64) = false ∧ Instr.wf (.stoDieCtlFail host 64) = false := by decide
theorem refused_queue : Instr.wf (.queuePush 512 0) = false ∧ Instr.wf (.queuePop 512 0) = false := by decide
theorem refused_other : Instr.wf (.campaignBegin 8) = false ∧ Instr.wf (.laneChange 2 true true) = false ∧
    Instr.wf (.coreLost 8 true) = false := by decide

/-! ### The table gives the commands no bits -/

theorem test_no_word : decodeTableWord 0 0 = none ∧ (State.reset.withFetchWord 16 5).pending = [] := by decide

/-! ### Single steps -/

/-- R98, R23: the first boundary after reset is no part of an image's work; an empty queue lets a quantum pass. -/
theorem test_idle_quantum : (match step State.reset with | .next t => t.pace.quantum | _ => 99) = 1 := by decide +kernel

/-- R6, R442: a register keeps the bits of its fields alone; an address without register holds nothing. -/
theorem test_register : (State.reset.regs.put R.EVT_WINDOW 0xFFFFFFFF).get R.EVT_WINDOW = 0x00000FFF ∧
    (State.reset.regs.put 0x00FE 5).get 0x00FE = 0 := by decide +kernel

/-- R446: BLOCK_ID of block 22. -/
theorem test_block_id : State.reset.regs.get 0x16FFFC = 0x00160001 := by decide +kernel

/-- R319: a queue delivers in the order of its pushes. -/
theorem test_queue_order : ((after (.queuePush 2 7) (after (.queuePush 2 5) base)).queue 2).words.map (·.data) = [5, 7] ∧
    ((after (.queuePop 2 0) (after (.queuePush 2 7) (after (.queuePush 2 5) base))).queue 2).words.map (·.data) = [7] := by
  decide +kernel

/-- R326: bit 0 of the state after a draw is the exclusive or of bits 31, 21, 1 and 0. -/
theorem test_lfsr : lfsrNext 0x80000000 = 1 ∧ lfsrNext 0x00200003 = 0x00400007 ∧ lfsrNext 1 = 3 := by decide

/-- R45: the lock is held by the context that took it, and a second ACQUIRE is told STAGE_LOCKED. -/
theorem test_stage_lock : (after (.stageAcquire host) base).stage.owner = some 0 ∧
    (after (.stageAcquire host) (after (.stageAcquire host) base)).out.getLast? =
      some (.regCause host R.SYS_STAGE_LOCK Cause.STAGE_LOCKED) := by decide +kernel

/-- R354: GO after 1,000 paces no longer finds its ARM. -/
theorem test_zeroise_late : (after (.zeroiseGo host) (atPace 101001 (after (.zeroiseArm host) base))).out.getLast? =
    some (.regCause host R.KEY_ZCTL Cause.REG_RANGE) := by decide +kernel

/-- R410: SAVE takes 90, 30 and 5 paces at most. -/
theorem test_save_steps : (saveSteps 0).2 = 90 ∧ (saveSteps 1).2 = 30 ∧ (saveSteps 3).2 = 5 := by decide

/-! ### States and operands that meet the hypotheses of the statements

One theorem for each statement with hypotheses; its parts follow the clauses. -/

/-- A quantum passes, and a command in front. -/
theorem witness_StepTakesTheFrontCommand :
    ({ base with pending := [.commitCheck, .deadman] } : State).pending = .commitCheck :: [.deadman] ∧ base.pending = [] := by
  decide +kernel

theorem witness_StepKeepsRegisterInvariant : Inv base ∧ step { base with pending := [.deadman] } = .next (after .deadman base) :=
  ⟨by unfold Inv; decide +kernel, rfl⟩

theorem witness_QueuedCommandsRunInOrder :
    ({ base with pending := [.commitCheck, .deadman, .capTest] } : State).pending = [.commitCheck, .deadman] ++ [.capTest] ∧ Inv base := by
  unfold Inv; decide +kernel

theorem witness_BlockIdsStandAtTheirOffset : 22 < 23 ∧ 0xFF < 0x100 ∧ 0xFF ≠ 0xFC := by decide

theorem witness_RegistersLieInTheirBlock : (findReg 0x16FFFC).isSome = true ∧ (findReg 0).isSome = true := by decide +kernel

theorem witness_RegisterReadsBackWhatIsWritten : base.regs.wf = true ∧ (findReg R.EVT_WINDOW).isSome = true ∧ findReg 0x170000 = none ∧
    R.SYS_COMMIT ≠ R.SYS_STAGE_LOCK := by decide +kernel


theorem witness_RefusedWritesAndReservedBitsHaveNoEffect : base.writeRefused host 0x170000 ≠ Cause.OK ∧ findReg 0x170000 = none ∧
    (findReg R.EVT_WINDOW).isSome = true ∧ base.mayAct (.context 1) 1 = false ∧
    (noBlocks.mayAct host 1 = true ∧ noBlocks.mayAct host 2 = true ∧ noBlocks.mayWriteBlock host R.EVT_WINDOW = false) ∧
    (base.mayAct host 1 = true ∧ base.mayAct host 2 = true ∧ base.mayWriteBlock host R.EVT_WINDOW = true) := by decide +kernel

theorem witness_ReadsChangeOnlyWhatTheyClear : base.readRefused host 0x170000 ≠ Cause.OK ∧ base.readRefused host R.EVT_WINDOW = Cause.OK ∧
    (findReg R.EVT_WINDOW).map (fun r => (r.fields.all fun f => f.acc != .RC, r.loPair)) = some (true, false) ∧
    (findReg 0x10000).map (fun r => r.loPair) = some true ∧ Requester.spi ≠ host ∧ (findReg 0x10004).isSome = true := by
  decide +kernel

theorem witness_PaceBoundaryBeginsThePace : (phase .save base).power.phase = .save ∧ base.power.phase = .run ∧
    (phase .service base).power.phase = .service := by decide

theorem witness_OverrunsAndMissedDeadlinesAreCounted : Inv base ∧
    ((base.paceEntry 0x10 3).isSome = true ∧ (Map.findD base.pace.overruns 0x10 []).head? = none ∧
      paceFault ((base.now, Map.findD base.pace.turns 0x10 0) :: Map.findD base.pace.overruns 0x10 []) = false) ∧
    (paceFault [(base.now, 7), (99900, 6), (99800, 5)] = true ∧ paceFault [(base.now, 7), (99999, 6), (99998, 4)] = false ∧
      paceFault ((base.now, 90) :: [99890, 99780, 99670, 99560, 99450, 99340, 99230, 99120, 99001].map fun p => (p, p % 80)) = true ∧
      paceFault ((base.now, 90) :: [99890, 99780, 99670, 99560, 99450, 99340, 99230, 99120, 99000].map fun p => (p, p % 80)) = false) ∧
    (base.paceEntry 0x10 3 = some ⟨0x10, 3, 1, 50, 10⟩ ∧ 0 < 10 ∧ 99990 + 10 ≤ base.now) := by
  unfold Inv; decide +kernel

/-- The image waits for this pace; the change is permitted by LEGAL_UPD. -/
theorem witness_ScheduledImageAppliesAtItsPace :
    (∃ s : State, s.warp.waiting = some warp0 ∧ s.warp.sched = some 100000 ∧ 100000 ≤ s.now ∧ sealedDiffers s.warp.active warp0 = false) ∧
    (∃ s : State, s.warp.waiting = some warp0 ∧ s.warp.sched = some 100000 ∧ 100000 ≤ s.now ∧ s.sealedAllowed = true) ∧
    (∃ s : State, s.warp.waiting = some warp0 ∧ s.warp.sched = some 100001 ∧ s.now < 100001) :=
  ⟨⟨{ base with warp := { base.warp with waiting := some warp0, sched := some 100000 } }, rfl, rfl, by decide +kernel, by decide +kernel⟩,
    ⟨{ set F.LEG_STAT.LEGAL_UPD 1 base with warp := { base.warp with waiting := some warp0, sched := some 100000 } }, rfl, rfl,
      by decide +kernel, by decide +kernel⟩,
    ⟨{ base with warp := { base.warp with waiting := some warp0, sched := some 100001 } }, rfl, rfl, by decide +kernel⟩⟩

/-- The lock is free, held by the requester's context with and without a staged value, and held by another. -/
theorem witness_StageLockAndCommitRequests :
    ∃ own : List (Nat × Staged) → State, (∀ l, (own l).stage.owner = some 0 ∧ (own l).stage.set = l) ∧
    (∀ s ∈ [base, own [], own [(R.BAL_Z, ⟨0xFFFF, 5⟩)], stage (fun g => { g with owner := some 1 }) base],
      Inv s ∧ MayWrite s host R.SYS_STAGE_LOCK ∧ MayWrite s host R.SYS_COMMIT ∧ s.actsAs host = some 0) ∧
    base.stage.owner = none ∧ (stage (fun g => { g with owner := some 1 }) base).stage.owner ≠ base.actsAs host ∧
    ({ state := .pending } : StageState).state = .pending ∧ ({} : StageState).state ≠ .pending :=
  ⟨fun l => stage (fun g => { g with owner := some 0, set := l }) base, fun _ => ⟨rfl, rfl⟩, by unfold Inv MayWrite; decide +kernel⟩

/-- A timeout due at this pace, a check of a set in order and of BAL_Z with its limits reversed, and an accepted commit. -/
theorem witness_CommitsAreCheckedAndApplied :
    (let s := stage (fun g => { g with owner := some 0, touched := 100000 - base.fld F.SYS_STAGE_TIMEOUT.SECONDS * 1000 }) base;
      s.stage.owner = some 0 ∧ s.stageExpired = true) ∧
    base.stage.state ≠ .pending ∧
    (let s := stage (fun g => { g with state := .pending, checkAt := 100001 }) base; s.now < s.stage.checkAt) ∧
    (let s := stage (fun g => { g with owner := some 0, state := .pending, checkAt := 100000 }) base;
      s.stage.state = .pending ∧ s.stage.accepted = false ∧ s.stage.checkAt ≤ s.now ∧ s.commitFault = none) ∧
    (let s := stage (fun g => { g with owner := some 0, state := .pending, checkAt := 100000, set := [(R.BAL_Z, ⟨0xFFFFFFFF, 0x03E8000A⟩)] }) base;
      s.stage.owner = some 0 ∧ s.stage.state = .pending ∧ s.stage.accepted = false ∧ s.stage.checkAt ≤ s.now ∧
        s.commitFault = some R.BAL_Z) ∧
    (let s := stage (fun g => { g with owner := some 0, state := .pending, checkAt := 99999, accepted := true }) base;
      s.stage.owner = some 0 ∧ s.stage.state = .pending ∧ s.stage.accepted = true ∧ s.stage.checkAt < s.now) := by
  decide +kernel


theorem ecMulGo_zero (n : Nat) : ∀ p acc, ecMulGo n 0 p acc = acc := by
  induction n with
  | zero => intro p acc; rfl
  | succ n ih => intro p acc; simp [ecMulGo, ih]

theorem ecMul_one (p : Nat × Nat) : ecMul 1 p = some p := by
  show ecMulGo (255 + 1) 1 (some p) none = some p
  rw [ecMulGo, ecMulGo_zero]
  rfl

/-- A signature over one byte 0 whose two multipliers are 1. -/
def sig0 : List Byte :=
  beBytes 32 0x6e340b9cffb37a989ca544e6bb780a2c78901d3fb33738768511a30617afa01d ++
  beBytes 32 0x6e340b9cffb37a989ca544e6bb780a2c78901d3fb33738768511a30617afa01d

theorem sig0_verifies : ecdsaVerify hostKey0 sig0 [0] = true := by
  have a : beVal (sha256Bytes [0]) * invMod p256N (fieldAt sig0 32 32) % p256N = 1 := by decide +kernel
  have b : fieldAt sig0 0 32 * invMod p256N (fieldAt sig0 32 32) % p256N = 1 := by decide +kernel
  simp only [ecdsaVerify, a, b, ecMul_one]
  decide +kernel

/-- The same under protection. -/
def waybill1 : Waybill := { waybill0 with bytes := waybill0.bytes.set 4 0 }

/-- One that passes, one from another link, one without protection, parts of a message and a command on the USB port. -/
theorem witness_WaybillsAreJudgedInOrder :
    (waybill0.type = 1 ∧ (phase .service base).power.phase = .service ∧ (phase .service base).withholds = false) ∧
    Inv base ∧ base.power.phase = .run ∧ base.hostEntry waybill0.context = some host0 ∧ waybill0.context < 8 ∧
    (host0.bound .spi && waybill0.headerOk) = false ∧ 6 ≤ waybill0.bytes.length ∧
    (host0.bound waybill0.link && ({ waybill0 with bytes := [] } : Waybill).headerOk) = false ∧
    (host0.bound waybill0.link && waybill0.headerOk) = true ∧ (host0.bound waybill1.link && waybill1.headerOk) = true ∧
    base.protect waybill1 = none ∧
    (base.protect waybill0 = some (base, item 0x0010 [0, 0, 0, 4]) ∧ waybill0.parts = 1 ∧
      bodyTlvs (item 0x0010 [0, 0, 0, 4]) = some [⟨0x0010, [0, 0, 0, 4]⟩] ∧ opcodes.contains waybill0.opcode = true ∧
      bodyOk waybill0.opcode [⟨0x0010, [0, 0, 0, 4]⟩] = true ∧ bodyOk waybill0.opcode [] = false ∧
      outsideSequence waybill0.opcode = false ∧ outsideSequence 0x0004 = true ∧ bodyOk 0x0004 [] = true ∧
      base.roleNow ≠ 1 ∧ base.roleNow ≠ 3) ∧
    (∀ b ∈ (base.ctx 0).parts, base.now < b.began + 2000) ∧
    (let b : PartBuffer := ⟨waybill0, true, 98000, []⟩;
      let s : State := { base with host := { base.host with ctxs := [(0, { parts := [b] })] } };
      (∀ d < 9, d ≠ 0 → ∀ x ∈ (s.ctx d).parts, s.now < x.began + 2000) ∧ (s.ctx 0).parts = [b] ∧ b.began + 2000 ≤ s.now ∧
        (b.first.msg []).ack = false) ∧
    (let v : Waybill := { waybill0 with link := .usb };
      base.usbOn = true ∧ base.receives = true ∧ v.headerOk = true ∧ v.clear = true ∧ v.context = 0 ∧ v.type = 1 ∧ v.parts = 1 ∧
      seatCommand 0x0010 = true ∧ seatCommand 0x0011 = false ∧ base.withholds = false ∧ base.hostEntry 8 = none) := by
  unfold Inv; decide +kernel

def handshake0 : Handshake := ⟨9, 1, 90000, [0], [], [], 0, [], 0⟩

def session0 : Session := ⟨7, 5, [], [], 3, [3], 2⟩

def inSession (s : State) : State :=
  { s with host := { s.host with ctxs := [(0, { session := some session0, handshake := some handshake0 })] } }

theorem witness_SessionsOpenAndClose :
    (let m := command 0x0001 (item 0 [] ++ item 0 [] ++ item 0 [0, 0, 0, 1]);
      let s := set F.KEY_RNG.OK 1 (set F.KEY_STAT.STATE 1 (waiting m base));
      Waits s 0x0001 m ∧ s.keysReady = true ∧ s.randomOk = true ∧ s.hostEntry m.seat = some host0 ∧ m.openKey < host0.keys.length ∧
      ((taken s m).setCtx m.seat { (taken s m).ctx m.seat with handshake := none }).poolHas 2 = true ∧
      host0.keys.length ≤ (command 0x0001 (item 0 [] ++ item 0 [] ++ item 0 [0, 0, 0, 2])).openKey) ∧
    (let m := command 0x0002 []; let s := inSession (waiting m base);
      Waits s 0x0002 m ∧ ((taken s m).ctx m.seat).handshake = some handshake0 ∧ m.clear = true ∧
      (taken s m).confirmed m handshake0 = false) ∧
    (let m := command 0x0003 []; let s := inSession (waiting m base);
      Waits s 0x0003 m ∧ ((taken s m).ctx m.seat).session = some session0) ∧
    (let m := command 0x0004 []; Waits (waiting m base) 0x0004 m) ∧
    (Map.find (inSession base).host.ctxs 0).isSome = true ∧
    Inv base ∧ MayWrite base host (R.HOST_CTL 7) ∧ MayWrite base host (R.HOST_CTL 0) ∧
    base.reachable 0 = true ∧ base.fld F.PAIR_STAT.ROLE ≠ 1 := by
  unfold Waits Inv MayWrite; decide +kernel

/-- A SESSION_CONFIRM whose signature verifies. -/
theorem witness_SessionsOpenAndClose_confirmed :
    (taken (inSession (waiting (command 0x0002 (item 0 sig0)) base)) (command 0x0002 (item 0 sig0))).confirmed
      (command 0x0002 (item 0 sig0)) handshake0 = true := by
  have a : (taken (inSession (waiting (command 0x0002 (item 0 sig0)) base)) (command 0x0002 (item 0 sig0))).hostEntry
      (command 0x0002 (item 0 sig0)).seat = some host0 := by decide +kernel
  have b : ((command 0x0002 (item 0 sig0)).tlvs.find? fun t => t.value.length == 64) = some ⟨0, sig0⟩ := by decide +kernel
  rw [State.confirmed, a, b]
  exact sig0_verifies

/-- For each command that opens a task: its right and a body. -/
def taskRows : List (Nat × Nat × List Byte) :=
  [(0x0011, 0, item 0x0012 (List.replicate 12 0)),
   (0x0040, 5, item 0x0040 (List.replicate 8 0) ++ item 0x0041 (List.replicate 24 0)),
   (0x0041, 4, item 0x0042 (List.replicate 32 0)), (0x0042, 3, item 0x0043 (List.replicate 16 0)),
   (0x0050, 6, item 0x0051 (List.replicate 4 0)), (0x0051, 3, item 0x0053 (List.replicate 12 0)),
   (0x0060, 7, item 0x0060 (List.replicate 16 0)),
   (0x0070, 8, item 0x0070 (List.replicate 12 0 ++ [8, 0, 0, 0]) ++ item 0x0071 [0, 0, 0, 0]), (0x0080, 9, item 0x0082 [0, 0, 0, 0]),
   (0x0081, 10, item 0x008C (List.replicate 8 0)), (0x0090, 13, item 0x0090 (List.replicate 12 0)),
   (0x0092, 14, item 0x0092 (List.replicate 12 0)), (0x00A0, 15, item 0x00A0 (1 :: List.replicate 15 0)),
   (0x00C0, 12, item 0x00C0 (List.replicate 8 0 ++ [4, 0, 0, 0])), (0x00D0, 18, item 0x00D0 [0, 0, 0, 0]),
   (0x00E0, 16, item 0x00E2 [0, 0, 0, 0]), (0x00F0, 20, item 0x00F0 (List.replicate 8 0))]

theorem witness_TaskCommandsRunTheirItems :
    (∀ r ∈ taskRows, let m := command r.1 r.2.2; let s := waiting m base;
      Served s r.1 m ∧ (begun s m).hasRight m.seat r.2.1 = true ∧ Admits (begun s m) m itemOk (itemsOf r.1 m.tlvs)) ∧
    (∀ op ∈ [0x0030, 0x0031], let m := command op []; let s := waiting m base;
      Served s op m ∧ (begun s m).hasRight m.seat 11 = true ∧ Admits (begun s m) m (fun _ => true) [⟨0, []⟩]) ∧
    (set F.KEY_RNG.OK 1 base).randomOk = true ∧
    (let m := command 0x00B0 (item 0x00B2 [0, 0, 0, 0]); let s := (waiting m base).setF F.PRT_TAMP_STAT.LEVEL 255;
      Served s 0x00B0 m ∧ (begun s m).hasRight m.seat 17 = true ∧ Admits (begun s m) m itemOk (itemsOf 0x00B0 m.tlvs)) := by
  unfold Served Waits Admits; decide +kernel

/-- A command on the last place of its bucket. -/
def spent (n : Nat) (s : State) : State := { s with host := { s.host with ctxs := [(0, { spent := n, spentAt := 100000, high := 66 })] } }

theorem witness_HostCommandsAreJudgedBeforeTheyRun :
    (let m := command 0x0010 []; (waiting m base).host.inbox.contains m = true ∧ m.seat ≠ 8 ∧
      (spent 1999001 (waiting m base)).rateOk m.seat = false ∧ (spent 1999000 (waiting m base)).rateOk m.seat = true) ∧
    (let m := command 0x0040 []; let s := spent 0 (waiting m base); (taken s m).judgeSeq m = .answer Cause.SEQ_STALE) ∧
    (let m := { command 0x0040 [] with seq := 3 }; let s := spent 0 (waiting m base); (taken s m).judgeSeq m = .fresh) ∧
    (let m := { command 0x0040 [] with seat := 1 }; let s := waiting m base;
      (taken s m).judgeSeq m = .fresh ∧ (begun s m).hasRight m.seat 5 = false) ∧
    ((1 : Word) - 65).toInt ≤ -64 ∧ -64 < ((1 : Word) - 64).toInt ∧ 0 < ((1 : Word) - 0xFFFFFFFF).toInt := by
  decide +kernel

/-- A command journalled without and with its RESP, and one whose RESP is kept. -/
theorem witness_HostCommandsAreJudgedBeforeTheyRun_repeats (m : Msg) (h : m = { command 0x0010 [] with rep := true }) :
    ({ base with host := { base.host with journal := [⟨0, 1, 0x0010, m.digest, 5, 1, none, false⟩] } } : State).judgeSeq m = .drop ∧
    ({ base with host := { base.host with journal := [⟨0, 1, 0x0010, m.digest, 5, 1, some [], false⟩] } } : State).judgeSeq m = .again 0x0010 5 0 [] ∧
    ({ base with host := { base.host with ctxs := [(0, { kept := [⟨1, m.digest, 3, []⟩] })] } } : State).judgeSeq m = .again 0x0010 0 3 [] := by
  subst h
  refine ⟨?_, ?_, ?_⟩ <;> simp [State.judgeSeq, command, State.ctx, Map.findD, Map.find, base, State.reset]

def task0 : Task :=
  { gen := 1, seat := 0, here := true, seq := 1, opcode := 0x0040, digest := 0, items := [⟨0x0040, List.replicate 8 0⟩], todo := [0],
    running := [], ended := [], reported := 0, cancel := none, final := false }

def tasking (s : State) : State := { s with host := { s.host with tasks := [(4095, task0)], gens := [(4095, 1)] } }

theorem witness_TaskHandlesHoldSlotAndGeneration :
    4095 < 4096 ∧ 0xFFFFF < 2 ^ 20 ∧ Map.findD (tasking base).host.gens 4095 0 + 1 < 2 ^ 20 ∧
    (tasking base).taskOf 0 (handleOf 4095 1) = some (4095, task0) ∧
    (let m := { command 0x0020 [] with task := 5 }; let s := waiting m (tasking base);
      Served s 0x0020 m ∧ (begun s m).taskOf m.seat m.task.toNat = none) ∧
    (let m := { command 0x0021 [] with task := 5 }; let s := waiting m (tasking base);
      Served s 0x0021 m ∧ (begun s m).taskOf m.seat m.task.toNat = none) := by
  unfold Served Waits; decide +kernel

theorem witness_ReadsQueriesItemsAndNotices :
    (let m := command 0x0010 (item 0x0010 [0, 0, 0, 4]); let s := waiting m base;
      Served s 0x0010 m ∧ m.here = true ∧ (begun s m).hasRight m.seat 0 = true ∧
      (begun s { m with seat := 1 }).hasRight 1 0 = false) ∧
    (let m := { command 0x0020 [] with task := BitVec.ofNat 32 (handleOf 4095 1) }; let s := waiting m (tasking base);
      Served s 0x0020 m ∧ (begun s m).taskOf m.seat m.task.toNat = some (4095, task0) ∧ m.seat ≠ 8 ∧ task0.allEnded = false) ∧
    (let m := { command 0x0021 [] with task := BitVec.ofNat 32 (handleOf 4095 1) }; let s := waiting m (tasking base);
      Served s 0x0021 m ∧ (begun s m).taskOf m.seat m.task.toNat = some (4095, task0) ∧
      Admits (begun s m) m (fun _ => true) [⟨0, []⟩]) ∧
    (Map.find (tasking base).host.tasks 4095 = some task0 ∧ task0.todo = [0]) ∧
    ((∀ e ∈ (tasking base).host.tasks, e.2.reported = e.2.ended.length) ∧ Map.sorted (tasking base).host.tasks = true) ∧
    (let m := { command 0x0010 [] with ack := true }; m.ack = true ∧ (waiting m base).host.inbox.contains m = true) ∧
    ((∀ n ∈ (base.ctx 0).notices, n.kind ≠ 0x8001) ∧ (base.ctx 0).full = false) ∧
    (∀ c < 8, State.reset.reachable c = false) := by
  unfold Served Waits Admits; decide +kernel


/-- A sector of BULK_WRITE is the one item of its body. -/
theorem sector_parses (l : List Byte) (h : l.length = 4104) : bodyTlvs (item 0x0091 l) = some [⟨0x0091, l⟩] := by
  have e : item 0x0091 l = 0 :: 0x91 :: 0x10 :: 8 :: l := by
    unfold item
    rw [h]
    rfl
  have d : (0 :: 0x91 :: 0x10 :: 8 :: l : List Byte).drop 4108 = [] := by
    rw [List.drop_eq_nil_iff]; simp [h]
  have t : ((0 :: 0x91 :: 0x10 :: 8 :: l : List Byte).drop 4).take 4104 = l := by
    rw [← h]; simp
  rw [bodyTlvs, e, List.length_cons, List.length_cons, List.length_cons, List.length_cons, parseTlvs]
  have l0 : fieldAt (0 :: 0x91 :: 0x10 :: 8 :: l) 2 2 = 4104 := rfl
  have t0 : fieldAt (0 :: 0x91 :: 0x10 :: 8 :: l) 0 2 = 0x0091 := rfl
  simp only [l0, t0, h, List.length_cons, t]
  have f : ¬ 4104 + 1 + 1 + 1 + 1 < 4 + (4104 + 3) / 4 * 4 := by decide
  rw [if_neg f]
  have g : 4 + (4104 + 3) / 4 * 4 = 4108 := rfl
  rw [g, d]
  have p (n : Nat) : parseTlvs n [] = some [] := by cases n <;> rfl
  · rw [p]
  · intro h; cases h

theorem witness_TaskCommandsRunTheirItems_sector (l : List Byte) (h : l.length = 4104) (m : Msg) (e : m = command 0x0091 (item 0x0091 l)) :
    Served (waiting m base) 0x0091 m ∧ (begun (waiting m base) m).hasRight m.seat 14 = true ∧
    Admits (begun (waiting m base) m) m itemOk (itemsOf 0x0091 m.tlvs) := by
  have i : itemsOf 0x0091 m.tlvs = [⟨0x0091, l⟩] := by
    rw [e]
    show itemsOf 0x0091 ((bodyTlvs (item 0x0091 l)).getD []) = _
    rw [sector_parses l h]
    rfl
  have c : (waiting m base).host.inbox.contains m = true := by simp [waiting]
  have t : taken (waiting m base) m = base.takeRate m.seat := by simp [taken, waiting]; rfl
  have z : m.seat = 0 := by rw [e]; rfl
  have q : m.seq = 1 := by rw [e]; rfl
  have p : m.rep = false := by rw [e]; rfl
  have j : (base.takeRate 0).host.journal = [] := by decide +kernel
  have f : (base.takeRate 0).judgeSeq m = .fresh := by
    have n : ¬ ((1 : Word) - ((base.takeRate 0).ctx 0).high).toInt ≤ -64 := by decide +kernel
    rw [State.judgeSeq, z, q, if_neg (by decide), if_neg n, j]
    simp [p]
  have b : begun (waiting m base) m = (base.takeRate 0).raiseHigh (command 0x0091 []) := by
    unfold begun; rw [t, z, e]; rfl
  refine ⟨⟨⟨by rw [e]; rfl, c, Or.inr ?_⟩, by rw [t, z]; exact f⟩, ?_, ?_⟩
  · rw [z]; show base.rateOk 0 = true; decide +kernel
  · rw [b, z]; decide +kernel
  · rw [i, b]
    refine ⟨by simp, by simp [itemOk, itemLength, itemBounds, h], by simp, Or.inr ?_, ?_⟩ <;> rw [z] <;> decide +kernel


theorem witness_SensorFaultsAreEnteredAndLeft :
    (let s : State := { base with met := { sensors := [(47, { outRun := 32 })] } };
      Inv s ∧ 32 ≤ (Map.findD s.met.sensors 47 {}).outRun ∧ s.fld (F.MET_SENS_STAT.FAULT 47) = 0) ∧
    (let s : State := { set (F.MET_SENS_STAT.FAULT 0) 1 base with met := { sensors := [(0, { inRun := 32000 })] } };
      Inv s ∧ 32000 ≤ (Map.findD s.met.sensors 0 {}).inRun ∧ s.fld (F.MET_SENS_STAT.FAULT 0) = 1) := by
  unfold Inv; decide +kernel

theorem witness_SamplesWindowsAndReady :
    base.fld F.MET_STAT.READY = 0 ∧ (set F.MET_STAT.READY 1 base).fld F.MET_STAT.READY = 1 ∧
    (let s : State := { base with met := { sensors := [(3, { zero := some { paces := 60000 } })] } };
      Inv s ∧ s.sensorPlan.sensor 3 = some sensor0 ∧ (Map.findD s.met.sensors 3 {}).zero = some { paces := 60000 }) ∧
    (let s : State := { set (F.MET_TEMP.VALID 0) 1 (set F.MET_STAT.LOCK 1 base) with met := { sinceLock := 8 } };
      Inv s ∧ s.fld F.MET_STAT.READY = 0 ∧ s.fld F.MET_STAT.LOCK = 1 ∧ 8 ≤ s.met.sinceLock ∧
      (s.sensorPlan.temps.zipIdx.all fun e => !e.1.enabled || (s.regs.temp e.2).isSome) = true) := by
  unfold Inv; decide +kernel

def channelC : State := { base with warp := { active := some { warp0 with sensorPlan :=
  { warp0.sensorPlan with channels := List.replicate 12 { channel0 with terms := List.replicate 5 ⟨0, 4194304⟩ } } } } }

def run0 : RefineRun :=
  { ch := 0, uu := [[1]], uy := [0], yy := 0, samples := 10, paceUu := [[0]], paceUy := [0], paceYy := 0, paceSamples := 0 }

theorem witness_RefinementRunsStartSolveAndEnd :
    (Inv channelC ∧ MayWrite channelC host R.MET_REF_CTL ∧ channelC.refineAllowed 11 = true) ∧
    (let s : State := { base with met := { refine := some run0 } }; Inv s ∧ MayWrite s host R.MET_REF_CTL ∧ s.met.refine.isSome = true) ∧
    (let s : State := { set F.MET_REF_STAT.PACES (base.fld F.MET_REF_MIN.PACES) base with met := { refine := some run0 } };
      Inv s ∧ s.met.refine = some run0 ∧ s.fld F.MET_REF_MIN.PACES ≤ s.fld F.MET_REF_STAT.PACES) := by
  unfold Inv MayWrite; decide +kernel

def points (n : Nat) (p : PointState) : State := { base with qty := { points := [(n, p)], stage := .met } }

theorem witness_IntervalsCloseAtTheirEnd : Inv (points 1 { finish := 1800000000 }) ∧
    (points 1 { finish := 1800000000 }).qty.stage = .met ∧ (points 1 { finish := 1800000000 }).qtyPlan.point 1 = some point0 ∧
    0 < (Map.findD (points 1 { finish := 1800000000 }).qty.points 1 {}).finish ∧
    (Map.findD (points 1 { finish := 1800000000 }).qty.points 1 {}).finish * 1000000000 ≤ (points 1 { finish := 1800000000 }).clk.ns := by
  unfold Inv; decide +kernel

theorem witness_CheckpointsAlternateBetweenCopies :
    Inv base ∧ base.qty.same = false ∧ base.qty.stage = .idle ∧ (points 1 {}).qty.stage = .met ∧
    ((points 1 {}).intervalsDue (points 1 {}).qtyPlan).checkpointDue = true ∧
    ((atPace 100001 (points 1 {})).intervalsDue (points 1 {}).qtyPlan).checkpointDue = false ∧ 3 ∉ [0, 1, 2] := by
  unfold Inv; decide +kernel

def pulses (p : PulseState) : State := { base with qty := { pulses := [(1, p)] } }

theorem witness_PulsesAreEmittedOneByOne :
    (let s := set F.LEG_STAT.RUN 1 (pulses { due := 1, ready := true });
      Inv s ∧ s.qtyPlan.pulse 1 = some ⟨true, false, 1, 0, 30, 1000⟩ ∧ (Map.findD s.qty.pulses 1 {}).phase = .idle ∧
      (Map.findD s.qty.pulses 1 {}).ready = true ∧ 0 < (Map.findD s.qty.pulses 1 {}).due ∧ s.fld F.LEG_STAT.RUN = 1 ∧
      s.qty.driven = false) ∧
    ({ driven := true } : QtyState).driven = true ∧
    (let s := pulses { phase := .asserted, clear := true };
      Inv s ∧ (Map.findD s.qty.pulses 1 {}).phase = .asserted ∧ (Map.findD s.qty.pulses 1 {}).left = 0 ∧
      (Map.findD s.qty.pulses 1 {}).clear = true) ∧
    (let s := pulses { phase := .gap }; (Map.findD s.qty.pulses 1 {}).phase = .gap ∧ (Map.findD s.qty.pulses 1 {}).left = 0) := by
  unfold Inv; decide +kernel

def billed (f : TarState → TarState) : State := { tariff f base with qty := { stage := .tar } }

/-- Calendar 0 is bound to the points, 5 is not; the meter's boundary and its grace have passed. -/
theorem witness_TariffBoundariesFallDue :
    (let s := billed fun t => { t with sets := [(0, { active := some calSet0 })], points := [(0, { subEnd := some 1800000000 })] };
      s.qty.stage = .tar ∧ s.tar.restarted = false ∧ s.pointSet 0 = some calSet0 ∧ (s.tarPoint 0).subEnd = some 1800000000 ∧
      calSubs calSet0 = 1 ∧ firstBoundary (s.boundariesDue s.timeSec) = some (1800000000, 0, 0)) ∧
    (let s := tariff (fun t => { t with cals := [(5, { passive := some calSet0 })] }) base;
      Inv s ∧ 5 < 64 ∧ s.pointsOf 5 = [] ∧ (s.storedCal 5).passive = some calSet0 ∧ calActivate calSet0 ≤ s.timeSec) ∧
    (let x : CalSet := calSet0.set 23 9;
      let s := billed fun t => { t with sets := [(0, { active := some calSet0, passive := some x })] };
      s.qty.stage = .tar ∧ s.tar.restarted = false ∧ s.pointsOf 0 ≠ [] ∧ (s.sealedCal 0).passive = some x ∧
      firstBoundary (s.boundariesDue s.timeSec) = some (calActivate x, 1, 0) ∧ 0 ∈ s.pointsOf 0 ∧ 5 ∉ s.pointsOf 0) ∧
    (let s := billed fun t => { t with sets := [(0, { active := some calSet0 })], points := [(0, { billNext := some 30000000 })] };
      s.mpCal 0 = some 0 ∧ s.pointSet 0 = some calSet0 ∧ (s.tarPoint 0).nextBill = some 30000000 ∧
      firstBoundary (s.boundariesDue s.timeSec) = some (30000000 * 60, 2, 0)) ∧
    (let r : MeterRec := { state := .active, tar := { billNext := some 29900000 } };
      let s : State := { base with ing := { meters := [(7, r)] } };
      Inv s ∧ s.meter 7 = r ∧ r.state ≠ .free ∧ r.tar.nextBill = some 29900000 ∧
      (29900000 + s.fld F.TAR_BILL_GRACE.MINUTES) * 60 ≤ s.timeSec) := by
  unfold Inv; decide +kernel

/-- Two boundaries of one second: the sub-period goes first. -/
theorem witness_TariffBoundariesFallDue_order :
    let s := billed fun t => { t with sets := [(0, { active := some calSet0 })],
                                      points := [(0, { subEnd := some 1800000000, billNext := some 30000000 })] }
    firstBoundary (s.boundariesDue s.timeSec) = some (1800000000, 0, 0) ∧ (1800000000, 0, 0) ≠ ((1800000000, 2, 0) : TarBoundary) ∧
      (1800000000, 2, 0) ∈ s.boundariesDue s.timeSec := by decide +kernel

theorem witness_OutputsAreSentHeldOrDropped :
    ((phase .save base).portsOff = true ∧ (Output.ethReply 0).inside = false) ∧
    ((phase .save base).portsOff = true ∧ (Output.ledgerAck 5).inside = true) ∧ base.portsOff = false ∧
    (let s := role 2 2 (linked base); (Output.serialPoll 0 0).hostVisible = true ∧ s.withholds = true) ∧ base.withholds = false ∧
    (let s := role 1 2 (linked base); Output.opticalBreak.shared = true ∧ s.drivesShared = false ∧ Output.opticalBreak.hostVisible = false) ∧
    (Output.ethReply 0).shared = false ∧ State.reset.drivesShared = true := by decide +kernel



theorem witness_IngestTakesFramesAndReadings :
    (let s := set F.ING_STAT.READY 1 (ingest (fun g => { g with frames := [frame0] }) base);
      Inv s ∧ s.ing.frames = [frame0] ∧ s.fld F.ING_STAT.READY ≠ 0 ∧ s.ing.waiting.length + frame0.count ≤ 2097152 ∧
      frame0.parses 0x21 = true ∧ s.frameMeter frame0 = none) ∧
    (let s := ingest (fun g => { g with waiting := [reading0] }) base;
      s.ing.waiting = [reading0] ∧ s.digestOk reading0.loggedAt = true ∧ reading0.item = none) ∧
    reading0.loggedAt < ({ reading0 with loggedAt := 100000 } : Reading).loggedAt ∧
    ({ reading0 with item := some (3, 0) } : Reading).item = some (3, 0) ∧
    (let s := ingest (fun g => { g with dirty := [(2, 5)] }) base;
      Inv s ∧ Map.sorted s.ing.dirty = true ∧ Map.find s.ing.dirty 2 = some 5) ∧
    (let s := set F.ING_STAT.READY 1 (ingest (fun g => { g with meters := [(5, meter0)] }) base);
      s.role (16 + 3) ≠ 0 ∧ 23 < 24 ∧ Map.find s.ing.polls 3 = none ∧ s.fld F.ING_STAT.BP ≠ 1 ∧ s.fld F.ING_STAT.READY ≠ 0 ∧
      s.receives = true ∧ (s.ing.meters.find? fun e => s.pollDue 3 e.1 e.2) = some (5, meter0)) ∧
    (let s := ingest (fun g => { g with polls := [(3, ⟨5, 3, 0⟩)] }) base;
      Map.find s.ing.polls 3 = some ⟨5, 3, 0⟩ ∧ s.fld F.ING_POLL.RETRIES ≤ 3) ∧
    (let s := ingest (fun g => { g with polls := [(3, ⟨5, 2, 0⟩)] }) base;
      Map.find s.ing.polls 3 = some ⟨5, 2, 0⟩ ∧ 2 < s.fld F.ING_POLL.RETRIES ∧ s.fld F.ING_STAT.BP ≠ 1 ∧
      (set F.ING_STAT.BP 1 s).fld F.ING_STAT.BP = 1 ∧ s.role 19 = 1 ∧ s.receives = true ∧ s.inWindow 3 0 = true ∧ 0 < 1) ∧
    (role 1 2 base).fld F.PAIR_STAT.ROLE = 1 ∧ base.fld F.PAIR_STAT.ROLE ≠ 1 ∧ frame0.type ≠ 0x23 ∧ frame0.type ≠ 0x24 ∧
    ({ frame0 with body := .tylian [0x23] } : IngestFrame).type = 0x23 ∧ ({ frame0 with body := .tylian [0x24] } : IngestFrame).type = 0x24 ∧
    (Inv base ∧ MayWrite base host R.ING_KEYCACHE ∧ 256 ≤ 256 ∧ 3072 ≤ 3072) ∧
    (let s : State := { base with warp := { active := some { warp0 with pacePlan := [⟨0x09, 2, 1, 50, 0⟩, ⟨0x09, 5, 1, 50, 0⟩] } } };
      (List.range 8).filter (fun l => s.pacePlan.any fun e => e.engine == 0x09 && e.lane == l) = [2, 5]) := by
  unfold Inv MayWrite; decide +kernel

def balance (f : BalState → BalState) (s : State) : State := { s with bal := f s.bal }

def result0 : NodeResult :=
  { node := 1, balMin := 15, rev := 0, flags := 2, complete := 0, start := 29999970, eRef := 0, eChild := 0, eLoss := 0, residual := 0, z := 0,
    filled := 0, mu := ⟨0, 0⟩, sigma := ⟨0, 0⟩, inputIsn := 0, k0 := ⟨0, 0⟩, k2 := ⟨0, 0⟩ }

/-- A record of point 0, as 128 bytes of zeros spell it. -/
def record0 : IntervalRecord := IntervalRecord.ofBytes (List.replicate 128 0)

def topo1 : State := { base with warp := { active := some { warp0 with topology := [{ node0 with flags := 1 }] } } }

/-- An interval of node 1 that is due after WAIT_MIN; jobs of a start without a topology, a revision, a localisation; an
interval record that is known, and one that is not. -/
theorem witness_BalanceJobsRunFromTheHeadOfTheQueue :
    (let e := { node0 with flags := 1 };
      Inv topo1 ∧ topo1.topoAt 29990010 = some [e] ∧ topoNode [e] 1 = some e ∧ topo1.balanceDue [e] e 29990010 = true ∧
      topo1.bal.jobs = [] ∧ topo1.bal.ops = []) ∧
    (let s := balance (fun b => { b with jobs := [⟨1, 5, .first, 0⟩], activeFrom := 301 }) base;
      s.topoAt 5 = none ∧ s.bal.jobs = [⟨1, 5, .first, 0⟩] ∧ s.bal.ops = [] ∧ Inv s) ∧
    (let s := balance (fun b => { b with jobs := [⟨1, 29999970, .revision, 0⟩], results := [(1, [(29999970, result0)])] }) base;
      s.bal.jobs = [⟨1, 29999970, .revision, 0⟩] ∧ s.topoAt 29999970 = some s.topology ∧ topoNode s.topology 1 = some node0 ∧
      s.result 1 29999970 = some result0) ∧
    (let s := balance (fun b => { b with
        jobs := [⟨1, 29999970, .localise, 0⟩], nodes := [(1, { alert := some false, raising := [29999955] })] }) base;
      s.bal.jobs = [⟨1, 29999970, .localise, 0⟩] ∧ s.topoAt 29999970 = some s.topology ∧ topoNode s.topology 1 = some node0 ∧
      (s.node 1).alert = some false ∧ s.topoAt ((s.node 1).raising.headD 0) = some s.topology ∧
      s.now - 0 ≤ s.oldestJob) ∧
    (let s := set F.BAL_REVISE.HOLD_S 100 (balance (fun b => { b with held := [(1, 29999970, 0)], results := [(1, [(29999970, result0)])] }) base);
      (s.bal.held.find? fun h => decide (h.2.2 + 1000 * s.fld F.BAL_REVISE.HOLD_S ≤ s.now)) = some (1, 29999970, 0) ∧
      ({ s with bal := { s.bal with held := s.bal.held.erase (1, 29999970, 0) } } : State).result 1 29999970 = some result0) ∧
    (let s := exported 1 (List.replicate 128 0) base; let m := packMessage 1 1 (List.replicate 128 0);
      s.headWords 0 = some m ∧ Export.of (messageOf m).type (messageOf m).body = some (.interval record0) ∧
      s.leg.records.any (fun x => x.mp == record0.mp && x.start == record0.start) = false) ∧
    ([record0].any (fun x => x.mp == record0.mp && x.start == record0.start)) = true := by
  unfold Inv; decide +kernel

theorem witness_BalanceCommandsActOnTheirNode : Inv base ∧ 65535 < 65536 ∧ MayWrite base host R.BAL_CMD ∧
    (topoNode base.topology 2).isSome = true ∧ (topoNode base.topology 65535).isSome = false ∧ (base.node 2).alert = none ∧
    (let s := balance (fun b => { b with nodes := [(2, { alert := some false })], ops := [(3, 2, 5)] }) base;
      Inv s ∧ (s.node 2).alert = some false ∧ s.bal.ops = [(3, 2, 5)]) := by
  unfold Inv MayWrite; decide +kernel

/-- A token of type 0 with SEQ 1 and amount 0 under the vending key. -/
def digits1 : List Nat := List.replicate 12 0 ++ [3, 1, 0, 1, 3, 0, 6, 4]

theorem witness_TokensAreCheckedAndApplied :
    (let w : TokenWait := ⟨3, 5, .adjust 7, .cabinet, 5⟩; let s := ingest (fun g => { g with tokens := [w] }) base;
      s.ing.tokens = [w] ∧ w.loggedAt < 6 ∧ Inv s) ∧
    (ingest (fun g => { g with forwards := [frame1] }) base).ing.forwards = [frame1] ∧ (base.openFrame 0x23 frame1).2 = none ∧
    (((keyed1 base).openFrame 0x23 frame1).2.map fun r => (r.1, forwardedDigits r.2.1)) = some (5, List.replicate 20 0) ∧
    ((keyed1 base).checkToken (List.replicate 20 0) 5 (some 5) .meter).2 = some Cause.TOKEN_FORMAT ∧
    ((keyed1 base).checkToken digits1 5 (some 5) .cabinet).2 = none ∧ (keyed1 base).shortMeter 12 = some 5 ∧
    (tokenOf (List.replicate 20 0) = none ∧ (tokenOf digits1).isSome = true ∧ base.shortMeter 12 = none) ∧
    (let m := packMessage 5 1 (Export.body (.keypadToken 12 digits1));
      (exported 5 (Export.body (.keypadToken 12 digits1)) base).headWords 0 = some m ∧
      Export.of (messageOf m).type (messageOf m).body = some (.keypadToken 12 digits1)) := by
  unfold Inv; decide +kernel

theorem witness_TokensAreCheckedAndApplied_credit :
    (let u := ingest (fun g => { g with meters := [(5, meter0)] }) base;
      (u.meter 5).prepay.judge (u.fld (F.PPY_LOW.LOW (u.meter 5).prepay.u)) ≠ (u.meter 5).prepay.state ∧ u.withholds = false) ∧
    (let u := ingest (fun g => { g with meters := [(5, { meter0 with prepay := { state := .exhausted } })] }) base;
      (u.meter 5).prepay.judge (u.fld (F.PPY_LOW.LOW (u.meter 5).prepay.u)) = (u.meter 5).prepay.state) := by
  decide +kernel


/-- The device with its sealed cores running, and after a request has been taken. -/
def sealedRuns (s : State) : State := set F.LEG_STAT.RUN 1 s

def afterRequest (type : Nat) (body : List Byte) (s : State) : State :=
  (requested type body s).dropHead 1 (packMessage type 1 body).length

/-- A request of each type with a body of its form, one of no type, and one of the wrong form. -/
def requests0 : List (Nat × List Byte) :=
  [(0x0100, []), (0x0101, List.replicate 2352 0), (0x0102, [63, 1, 0, 0]), (0x0103, [0, 0, 0, 0, 0, 0, 0, 0]),
   (0x0104, List.replicate 32 127 ++ [0, 60]), (0x0105, [2, 0, 0, 0, 0, 0, 0, 0]), (0x0105, []), (0x0106, [5, 0, 0, 0, 0, 0, 0, 0])]

theorem witness_SealedRequestsAreJudgedInOrder :
    (∀ r ∈ requests0, let s := requested r.1 r.2 (sealedRuns base);
      s.fld F.LEG_STAT.RUN ≠ 0 ∧ s.leg.act = none ∧ s.headWords 1 = some (packMessage r.1 1 r.2) ∧
      messageOf (packMessage r.1 1 r.2) = ⟨1, r.1, r.2⟩) ∧
    base.fld F.LEG_STAT.RUN = 0 ∧ (sealedRuns base).headWords 1 = none ∧ Inv base ∧ 0x0105 < 2 ^ 16 := by
  unfold Inv; decide +kernel

theorem witness_SealedRequestsAreJudgedInOrder_bodies :
    (let b : List Byte := [2, 0, 0, 0, 0, 0, 0, 0];
      let u := afterRequest 0x0105 b (set (F.LEG_SLOT.STATE 2) 3 (sealedRuns (sealed (fun g => { g with slots := [(2, [])] }) base)));
      b.length = 8 ∧ fieldAt b 0 1 ≤ 2 ∧ fieldAt b 1 7 = 0 ∧ u.fld (F.LEG_SLOT.STATE (fieldAt b 0 1)) = 3 ∧
      (Map.find u.leg.slots (fieldAt b 0 1)).isSome = true ∧
      (afterRequest 0x0105 b (sealedRuns base)).fld (F.LEG_SLOT.STATE (fieldAt b 0 1)) ≠ 3) ∧
    (let b : List Byte := [63, 1, 0, 0]; digestForm b = true ∧ fieldAt b 1 1 ≠ 0) ∧
    (let b : List Byte := [0, 0, 0, 0, 0, 0, 0, 0];
      let u := afterRequest 0x0103 b (tariff (fun t => { t with sets := [(0, { active := some calSet0 })] }) base);
      b.length = 8 ∧ fieldAt b 0 1 ≤ 11 ∧ fieldAt b 1 7 = 0 ∧ u.pointSet (fieldAt b 0 1) = some calSet0 ∧
      u.tar.hwm < nextCommanded calSet0 u.timeSec * 60000 ∧ (afterRequest 0x0103 b base).pointSet (fieldAt b 0 1) = none) ∧
    (let b : List Byte := [5, 0, 0, 0, 0, 0, 0, 0]; b.length = 8 ∧ 5 ≤ fieldAt b 0 1 ∧ fieldAt b 1 7 = 0) ∧
    (let b : List Byte := List.replicate 32 127 ++ [0, 60]; b.length = 34 ∧ 1 ≤ fieldAt b 32 2 ∧ fieldAt b 32 2 ≤ 60 ∧
      (∀ c ∈ b.take 32, c.toNat < 128) ∧ (afterRequest 0x0104 b base).leg.showing = .stepping ∧
      (afterRequest 0x0104 b (sealed (fun g => { g with showing := .request 1 5 none }) base)).leg.showing = .request 1 5 none) ∧
    (let b : List Byte := List.replicate 32 127 ++ [0, 1]; 1 ≤ fieldAt b 32 2) := by
  decide +kernel

/-- A delivered set that is the active one, or none of those held. -/
theorem witness_SealedRequestsAreJudgedInOrder_delivery (b : List Byte) :
    matchingSet { active := some b } (sha256 b) = some 0 ∧ matchingSet {} (sha256 b) = none := by
  simp [matchingSet, List.findIdx?, List.findIdx?.go]

theorem witness_SealedRequestsAreJudgedInOrder_mismatch :
    matchingSet { active := some calSet0 } (sha256 []) = none ∧ (some calSet0).isSome = true := by decide +kernel

/-- The messages of the export queue: a snapshot, a legal event, a result and a record, as zeros spell them. -/
def exports0 : List (Nat × List Byte × Export) :=
  [(2, List.replicate 416 0, .snapshot (PointSnapshot.ofBytes (List.replicate 416 0))),
   (3, List.replicate 48 0, .legalEvent (LegalEntry.ofBytes (List.replicate 48 0)) 0),
   (4, [0, 0, 0, 4, 0, 0, 0, 0], .reqResult 4 0 []), (1, List.replicate 128 0, .interval record0)]

theorem witness_ExportsAreTakenInOrder :
    (∀ r ∈ exports0, (exported r.1 r.2.1 base).headWords 0 = some (packMessage r.1 1 r.2.1) ∧
      Export.of (messageOf (packMessage r.1 1 r.2.1)).type (messageOf (packMessage r.1 1 r.2.1)).body = some r.2.2) ∧
    (let p := PointSnapshot.ofBytes (List.replicate 416 0);
      (Map.findD (tariff (fun t => { t with snapshots := [(0, [p])] }) base).tar.snapshots p.mp []).any (fun x => x.bn == p.bn) = true ∧
      (Map.findD base.tar.snapshots p.mp []).any (fun x => x.bn == p.bn) = false) ∧
    (let e := LegalEntry.ofBytes (List.replicate 48 0);
      [(e, (0 : BitVec 128))].any (fun y => y.1.lseq == e.lseq) = true ∧ base.leg.log.any (fun y => y.1.lseq == e.lseq) = false) ∧
    (let w := [(4, RequestUse.item 3 0), (5, .calSet 3 1 [7]), (6, .calCancel 3 2 7)];
      w.find? (fun w => w.1 == 4) = some (4, .item 3 0) ∧ w.find? (fun w => w.1 == 5) = some (5, .calSet 3 1 [7]) ∧
      w.find? (fun w => w.1 == 6) = some (6, .calCancel 3 2 7) ∧ w.find? (fun w => w.1 == 7) = none) := by decide +kernel

def acting (a : SealedAct) (s : State) : State := sealed (fun g => { g with act := some a }) s

/-- An image for slot 2 with the pace declaration of the plan. -/
def image0 : List Byte := List.replicate 40 0 ++ base.planLegalBytes

theorem witness_SealedActivationSwapsTheSlots :
    (base.leg.updHeld < 20 ∧ base.fld F.LEG_STAT.LEGAL_UPD = base.leg.updLevel.toNat) ∧
    (let s := sealed (fun g => { g with updLevel := true, updHeld := 20 }) base;
      Inv s ∧ 20 ≤ s.leg.updHeld ∧ s.fld F.LEG_STAT.LEGAL_UPD ≠ s.leg.updLevel.toNat) ∧
    (let s := acting ⟨2, 100000, none, 1⟩ base;
      s.leg.act = some ⟨2, 100000, none, 1⟩ ∧ 100000 ≤ s.now ∧ s.warp.appliedAt ≠ some s.now ∧ s.mayActivate 2 = false ∧ Inv s ∧
      s.now < 100001) ∧
    (let s := acting ⟨2, 100000, none, 1⟩ (set F.LEG_STAT.LEGAL_UPD 1 (sealed (fun g => { g with slots := [(2, image0)] }) base));
      s.mayActivate 2 = true ∧ Inv s) ∧
    ({ base with warp := { base.warp with appliedAt := some 100000 } } : State).warp.appliedAt = some base.now ∧
    (let s := acting ⟨2, 100000, some (99500, 0, true), 1⟩ base;
      s.leg.act = some ⟨2, 100000, some (99500, 0, true), 1⟩ ∧ 99500 + 500 ≤ s.now ∧ s.now < 99501 + 500) ∧
    (Inv base ∧ 2 < 3 ∧ 0 < 3 ∧ 2 ≠ 0) := by
  unfold Inv; decide +kernel


theorem witness_DisplayRetriesStepsAndResumes :
    (let s := sealed (fun g => { g with frames := [⟨1, []⟩], tries := 3 }) base;
      Inv s ∧ s.role 59 = 1 ∧ s.leg.frames = [⟨1, []⟩] ∧ 3 ≤ s.leg.tries ∧ s.fld F.LEG_STAT.DISP_FAULT = 0 ∧ base.leg.tries < 3 ∧
      none ≠ some true ∧ (⟨2, []⟩ : DispFrame).code ≠ 1 ∧ base.leg.frames = []) ∧
    (let s := set F.LEG_STAT.DISP_FAULT 1 (sealed (fun g => { g with initAt := 100000 }) base);
      s.fld F.LEG_STAT.DISP_FAULT = 1 ∧ s.leg.initAt ≤ s.now) ∧
    (let s := sealed (fun g => { g with stepped := 90000 }) base;
      s.legal = some legal0 ∧ s.leg.showing = .stepping ∧ s.leg.stepped + legal0.dispScroll * 1000 ≤ s.now) ∧
    (let s := sealed (fun g => { g with stepped := 90001 }) base; s.now < s.leg.stepped + legal0.dispScroll * 1000) ∧
    (sealed (fun g => { g with showing := .note [65] 100000 }) base).leg.showing = .note [65] 100000 ∧ 100000 ≤ base.now ∧ base.now < 100001 ∧
    (sealed (fun g => { g with showing := .request 3 100000 (some ([65], 100001)) }) base).leg.showing =
      .request 3 100000 (some ([65], 100001)) := by
  unfold Inv; decide +kernel

def keyed (k : KeyEntry) : State := sealed (fun g => { g with keys := k }) base

/-- Entries at their limits: four digits of a short number, 19 and 20 of a token, 30 s. -/
theorem witness_KeypadAndOpticalExchanges :
    Inv base ∧ 255 < 256 ∧ base.role 58 = 1 ∧ State.reset.role 58 ≠ 1 ∧ base.leg.showing = .stepping ∧ 48 ≤ 57 ∧ base.leg.keys = .idle ∧
    ((keyed (.short [1, 2, 3] 99000)).leg.keys = .short [1, 2, 3] 99000 ∧ [1, 2, 3].length < 4) ∧
    ((keyed (.token 12 (List.replicate 19 7) 99000)).leg.keys = .token 12 (List.replicate 19 7) 99000 ∧ (List.replicate 19 7).length < 20) ∧
    ((keyed (.token 12 (List.replicate 20 7) 99000)).leg.keys = .token 12 (List.replicate 20 7) 99000 ∧ (List.replicate 20 7).length = 20) ∧
    (keyed (.request none)).leg.keys = .request none ∧ ((keyed (.request (some 3))).leg.keys = .request (some 3) ∧ 3 ≤ 3) ∧
    (let s := keyed (.short [1] 69999); 69999 + 1000 * s.leg.keyTimeout < s.now) ∧
    (let s := keyed (.short [1] 70000); s.now ≤ 70000 + 1000 * s.leg.keyTimeout) ∧
    (let s := set F.LEG_STAT.RUN 1 base; s.legal = some legal0 ∧ s.role 40 = 1 ∧ s.fld F.LEG_STAT.RUN = 1 ∧ s.fld F.LEG_STAT.OPT_BUSY = 0 ∧
      [0x31] = legal0.optAddr.filter (· != 0)) ∧
    ([0x32] ≠ ([] : List Byte) ∧ [0x32] ≠ legal0.optAddr.filter (· != 0)) ∧
    (let s := sealed (fun g => { g with optical := .identified }) base; Inv s ∧ s.leg.optical = .identified ∧ 6 ≤ 6 ∧ 1 ≠ 0) ∧
    (let s := sealed (fun g => { g with optical := .reading 100000 }) base;
      s.leg.optical = .reading 100000 ∧ 100000 ≤ s.now ∧ s.now < 100001) := by
  unfold Inv; decide +kernel

/-- Event 0 is predicted for now with a guard window of 250 µs; its supervision ends 5 s later. -/
theorem witness_ConnectionsRunEndAndAreKept :
    (let s := joined entry0; Inv s ∧ Map.find s.rad.joined 9 = some entry0 ∧ entry0.conn = some conn0 ∧ conn0.radio < 2 ∧
      conn0.upcoming ≤ 0 ∧ conn0.predict entry0.sleepy 0 - (s.guard conn0 entry0.sleepy 0 : Int) < s.nowUs + 1000 ∧
      s.contended 9 conn0 (conn0.predict entry0.sleepy 0 - (s.guard conn0 entry0.sleepy 0 : Int))
        (conn0.predict entry0.sleepy 0 + (s.guard conn0 entry0.sleepy 0 : Int)) = false ∧
      conn0.predict entry0.sleepy 0 + (s.guard conn0 entry0.sleepy 0 : Int) < 100000251 ∧
      conn0.predict entry0.sleepy 0 - (s.guard conn0 entry0.sleepy 0 : Int) ≤ 99999750 ∧
      100000250 ≤ conn0.predict entry0.sleepy 0 + (s.guard conn0 entry0.sleepy 0 : Int) ∧
      s.nowUs < conn0.anchor + conn0.sup * 100000) ∧
    0 < ({ conn0 with upcoming := 1 } : RadioConn).upcoming ∧ base.receives = true ∧ (phase .save base).receives = false ∧
    (let c := { conn0 with anchor := 95000000 }; c.anchor + c.sup * 100000 ≤ base.nowUs) ∧
    (let s := radio (fun r => { r with excluded := [(127, 0)] }) { base with evt := { opSeconds := 86400 } };
      Map.find s.rad.excluded (64 * 1 + 63) = some 0 ∧ 63 < 64 ∧ 0 + 86400 ≤ s.evt.opSeconds.toNat ∧ base.evt.opSeconds.toNat < 0 + 86400) ∧
    1 < 2 := by
  unfold Inv; decide +kernel

/-- A JOIN_REQ of the node with EUI-64 55 under a reading key of zeros: JOIN_CTR 4, rate 0, its MIC. -/
def joinFrame0 : List Byte :=
  macHeader 1 false 0 0 0xFFFE 0xFFFF 4 ++ packBytes [(8, 55), (1, 0), (2, 1000), (1, 1), (4, 4), (4, 1184504362)]

def join0 : JoinReq := ⟨55, false, 1000, 1, 4, joinFrame0⟩

/-- The device with that node's meter and its keys. -/
def joinable : State :=
  set F.KEY_STAT.STATE 1 (ingest (fun g => { g with meters := [(4, { state := .active, conf := { protocol := 1, extId := 55 * 2 ^ 64 }
                                                                     keyAlg := 1, keyWrap := some ⟨0, List.replicate 16 0⟩ })] }) base)

theorem join0_authentic : (match joinable.joinMeter join0 with | .ok i => i | .error _ => 0) = 4 := by decide +kernel

theorem join0_meter : joinable.joinMeter join0 = .ok 4 := by
  have h := join0_authentic
  revert h
  generalize joinable.joinMeter join0 = x
  intro h
  cases x with
  | ok i => rw [show i = 4 from h]
  | error c => cases h

/-- The rates of a JOIN_REQ do not enter the judgement of its meter, and a rate it lacks is refused. -/
theorem judgeJoin_refused (x i : Nat) (q : JoinReq) (c : RadioConf) (s : State) (h : s.joinMeter q = .ok i) (e : s.radio x = some c) :
    s.judgeJoin x { q with rates := 0 } = .refused i 2 := by
  have h2 : s.joinMeter { q with rates := 0 } = .ok i := h
  rw [State.judgeJoin, h2]
  simp [e]

theorem join0_joins : joinable.judgeJoin 0 join0 = .accepted 4 0 ∧ joinable.judgeJoin 0 { join0 with rates := 0 } = .refused 4 2 ∧
    joinable.judgePlcJoin join0 = .accepted 4 0 := by
  refine ⟨?_, judgeJoin_refused 0 4 join0 radio0 joinable join0_meter (by decide +kernel), ?_⟩
  · rw [State.judgeJoin, join0_meter]; decide +kernel
  · rw [State.judgePlcJoin, join0_meter]; decide +kernel

/-- A flood of short address 5 with FSEQ 7, UP and DOWN, and the same UP with the JOIN_REQ. -/
def floodFrame (up : Bool) (payload : List Byte) : List Byte :=
  packBytes [(1, 3), (1, if up then 0x80 else 0), (2, 7), (2, 5), (2, 0xFFFE)] ++ payload

/-- Radio 0 takes part in the mesh and radio 1 hears wireless M-Bus; a meter unknown, one with another rate, and one that joins. -/
theorem witness_RadioFramesAreCountedAndUsed :
    (Inv base ∧ base.radio 0 = some radio0 ∧ radio0.mesh = true ∧ base.receives = true ∧ joinReqOf joinFrame0 = some join0 ∧
      joinReqOf [] = none ∧ (phase .save base).receives = false) ∧
    (base.radio 1 = some { radio0 with role := 2, wmbusModes := 1 } ∧ ({ radio0 with role := 2, wmbusModes := 1 } : RadioConf).mesh = false ∧
      ({ radio0 with role := 2, wmbusModes := 1 } : RadioConf).wmbus = true) ∧
    base.judgeJoin 0 join0 = .silent Cause.METER_UNKNOWN ∧ Inv joinable ∧
    (let s := radio (fun r => { r with seen := [(.short 5, 7, 40001)] }) base; ∃ k ∈ s.rad.seen, k.1 = .short 5 ∧ k.2.1 = 7 ∧ s.now < k.2.2 + 60000) ∧
    (let s := radio (fun r => { r with seen := [(.short 5, 7, 40000)] }) base; ¬ ∃ k ∈ s.rad.seen, k.1 = .short 5 ∧ k.2.1 = 7 ∧ s.now < k.2.2 + 60000) := by
  unfold Inv; decide +kernel

theorem witness_RadioFramesAreCountedAndUsed_floods : floodOf [] = none ∧ floodOf (floodFrame false []) = some (false, .short 5, 7, []) ∧
    floodOf (floodFrame true joinFrame0) = some (true, .short 5, 7, joinFrame0) := by decide +kernel

theorem witness_RadioFramesAreCountedAndUsed_join : joinable.judgeJoin 0 join0 = .accepted 4 0 ∧
    joinable.judgeJoin 0 { join0 with rates := 0 } = .refused 4 2 := ⟨join0_joins.1, join0_joins.2.1⟩

def flood0 : DownFlood := ⟨.short 0xFFFF, false, []⟩

theorem witness_MeshTransmissionsAreSentOrWait :
    (let s := ingest (fun g => { g with toMeter := [(5, [1])] }) base; s.ing.toMeter = [(5, [1])] ∧ s.joinedOf 5 = none) ∧
    (let r : MeterRec := { state := .active, keyAlg := 1, keyWrap := some ⟨0, [1]⟩ };
      let s := set F.RFM_DEV_CTR.DCOUNTER 0xEFFFFFFE (set F.KEY_STAT.STATE 1 (ingest (fun g => { g with
        toMeter := [(5, [1])], meters := [(5, r)] }) (joined entry0)));
      s.readingKey (s.meter 5) = some [1] ∧ s.joinedOf 5 = some 9 ∧ s.fld F.RFM_DEV_CTR.DCOUNTER + 1 < 0xF0000000 ∧
      s.epoch ≤ (s.meter 5).keyEpoch ∧ Inv s ∧ s.rad.reserved ≤ s.fld F.RFM_DEV_CTR.DCOUNTER ∧
      Map.find s.rad.joined 9 = some entry0) ∧
    ((radio (fun r => { r with floods := [flood0] }) base).rad.floods = [flood0] ∧ base.receives = true) ∧
    (let w : TxWait := ⟨0, 0, 0, .flood 3 flood0⟩; let s := radio (fun r => { r with waiting := [w] }) base;
      w ∈ s.rad.waiting ∧ s.mayStart w = true) ∧
    (let w : TxWait := ⟨0, 0, 0, .flood 3 flood0⟩; let s := radio (fun r => { r with waiting := [w] }) (joined entry0);
      ∀ w ∈ s.rad.waiting, s.mayStart w = false) ∧
    Map.find (joined { entry0 with plc := some ⟨0, [], 0, 0, true, 0, true⟩ }).rad.joined 9 =
      some { entry0 with plc := some ⟨0, [], 0, 0, true, 0, true⟩ } := by
  unfold Inv; decide +kernel


def chan (f : PlcChan → PlcChan) (s : State) : State := { s with plc := { s.plc with chans := [(0, f {})] } }

/-- A DATA frame of hop 3 without a link map, whose next hop is the TY9600. -/
def plcFrame0 : PlcFrame := ⟨fchWord 0 0 1 0 1 3, 0, true, true, packBytes [(4, 0), (2, 0xFFFE), (2, 0), (2, 99)], 1, []⟩

def plcTx0 : PlcTx := { prio := 1, next := 3, path := [3], node := none, mac := [], tries := 2, be := 3 }

/-- The acknowledgement of the frame that the channel awaits. -/
theorem witness_PowerLineFramesAreSentAndTaken_ack : ∃ f : PlcFrame, fchOk f.fch = true ∧ fchType f.fch = 1 ∧
    ((chan (fun k => { k with awaiting := some plcTx0 }) base).chan 0).awaiting = some plcTx0 ∧
    psduFcs plcTx0.psdu = fchSrc f.fch := by
  have b : psduFcs plcTx0.psdu < 65536 := fieldAt_two_lt ..
  refine ⟨⟨fchWord 1 0 0 0 0 (psduFcs plcTx0.psdu), 0, true, true, [], 0, []⟩, fchOk_fchWord .., ?_, by decide +kernel, ?_⟩
  · exact fchType_fchWord 1 0 0 0 0 _ (by decide)
  · exact (fchSrc_fchWord 1 0 0 0 0 _ b).symm

theorem witness_PowerLineFramesAreSentAndTaken :
    (Inv base ∧ base.plcConf 0 = some plc0 ∧ base.receives = true ∧ fchOk 1 = false ∧ fchOk plcFrame0.fch = true ∧
      fchType plcFrame0.fch = 0 ∧ plcFrame0.rsOk = true ∧ plcFrame0.fcsOk = true ∧
      base.tmiKnown 0 (fchSrc plcFrame0.fch) (fchTmi plcFrame0.fch) = true ∧ routeNext plcFrame0.psdu = 0xFFFE ∧ plcFrame0.snr = [] ∧
      base.tmiKnown 0 3 5 = false) ∧
    (let s := chan (fun k => { k with queue := [plcTx0] }) base;
      Inv s ∧ s.plcConf 0 = some plc0 ∧ firstFrame (s.chan 0).queue = some plcTx0 ∧ (s.chan 0).awaiting = none ∧ s.coord 0 = false) ∧
    (let s := chan (fun k => { k with awaiting := some plcTx0 }) base; (s.chan 0).awaiting = some plcTx0 ∧
      plcTx0.tries + 1 < s.fld F.PLC_CSMA.TRIES ∧ s.fld F.PLC_CSMA.TRIES ≤ ({ plcTx0 with tries := 4 } : PlcTx).tries + 1) ∧
    ({ base with plc := { toneMaps := [(0, 3, ⟨1, []⟩)] } } : State).plc.toneMaps = [(0, 3, ⟨1, []⟩)] := by
  unfold Inv; decide +kernel

/-- Channel 0 has a reference and is in step with its superframe of 1,000 paces; channel 1 has none. -/
theorem witness_CoordinationAndReferenceFollowTheirRules :
    (Inv base ∧ base.plcConf 0 = some plc0 ∧ plc0.refSrc ≠ 0 ∧ base.plcConf 1 = some { plc0 with refSrc := 0 } ∧
      base.fld (F.PLC_MODE.SF_MS 0) = 0) ∧
    (let s := set (F.PLC_MODE.MODE 0) 1 (set (F.PLC_MODE.SF_MS 0) 1000 base);
      s.fld (F.PLC_MODE.SF_MS 0) ≠ 0 ∧ s.now % s.fld (F.PLC_MODE.SF_MS 0) = 0 ∧ s.coord 0 = false ∧ s.fld (F.PLC_MODE.MODE 0) = 1) ∧
    (let s := set (F.PLC_STAT.COORD 0) 1 (set (F.PLC_MODE.SF_MS 0) 1000 base);
      s.now % s.fld (F.PLC_MODE.SF_MS 0) = 0 ∧ s.coord 0 = true ∧ (s.chan 0).last = false ∧ s.fld (F.PLC_MODE.MODE 0) = 0 ∧
      ((chan (fun k => { k with last := true }) s).chan 0).last = true) ∧
    (set (F.PLC_STAT.REF_LOCK 0) 1 base).fld (F.PLC_STAT.REF_LOCK 0) = 1 ∧
    (let s := chan (fun k => { k with measured := [2000000, 2000001] }) base;
      s.fld (F.PLC_STAT.REF_LOCK 0) = 0 ∧ (s.chan 0).measured = [2000000, 2000001] ∧ agree [2000000, 2000000, 2000001] = true) ∧
    ((takeInbox 4 (radio (fun r => { r with inbox := [nodeMsg (some 0) [3, 7, 1, 0], nodeMsg none [4, 0, 0, 7]] }) base).rad.inbox).map
      fun x => (x.1, x.2)) = some (nodeMsg none [4, 0, 0, 7], [nodeMsg (some 0) [3, 7, 1, 0]]) := by
  unfold Inv; decide +kernel

def plcJoined (k : PlcLink) (q : List DownPayload) : State := joined { entry0 with conn := none, plc := some k, queue := q }

/-- A payload sent four times, last at pace 896,005. -/
def payload1 : DownPayload := { body := .message [1], lsn := 3, sends := 4, sentAt := 896005 }

/-- The device with the keys of the meter 5 of `entry0`. -/
def keyed5 (s : State) : State := set F.KEY_STAT.STATE 1 (ingest (fun g => { g with
  meters := [(5, { state := .active, conf := { protocol := 1, extId := 55 * 2 ^ 64 }, keyAlg := 1, keyWrap := some ⟨0, List.replicate 16 0⟩ })] }) s)

theorem witness_PowerLineLinksAreJoinedKeptAndLost :
    (takeInbox 3 [nodeMsg (some 0) [3, 7, 1, 0]] = some (nodeMsg (some 0) [3, 7, 1, 0], [])) ∧
    (let k : PlcLink := ⟨0, [], 2, 5, false, 5, true⟩; let s := set (F.PLC_MODE.CFP_PCT 0) 50 (set (F.PLC_MODE.SF_MS 0) 1000 (plcJoined k []));
      Map.find s.rad.joined 9 = some { entry0 with conn := none, plc := some k, queue := [] } ∧ k.valid = false ∧ k.path = [] ∧
      ((s.chan 0).shadow.filter (fun p => !(p.short == 9 && p.down == true))).length < 64 ∧
      250 * 7 * 100 ≤ s.fld (F.PLC_MODE.CFP_PCT 0) * s.fld (F.PLC_MODE.SF_MS 0) * 1000 ∧
      ({ k with path := [3] } : PlcLink).path ≠ []) ∧
    (let s := chan (fun k => { k with advAt := some 40001 }) base; s.plcConf 0 = some plc0 ∧ (s.chan 0).advAt = some 40001 ∧
      s.now < 40001 + s.fld F.PLC_ROUTE.ADV_S * 1000 ∧ 40000 + s.fld F.PLC_ROUTE.ADV_S * 1000 ≤ s.now) ∧
    (let j : PlcJoin := ⟨0, ⟨55, false, 1000, 1, 9, []⟩, [3, 5], 2⟩; let s : State := { base with plc := { joins := [j] } };
      Inv s ∧ s.plc.joins = [j] ∧ s.judgePlcJoin j.req = .silent Cause.METER_UNKNOWN) ∧
    (let k : PlcLink := ⟨0, [3], 2, 5, true, 5, true⟩; let s := atPace 900005 (plcJoined k [payload1]);
      Inv s ∧ Map.find s.rad.joined 9 = some { entry0 with conn := none, plc := some k, queue := [payload1] } ∧
      k.alive = true ∧ k.lastUp + 3000 * s.fld F.PLC_ROUTE.KEEPALIVE_S ≤ s.now ∧ 900004 < k.lastUp + 3000 * s.fld F.PLC_ROUTE.KEEPALIVE_S ∧
      896005 + s.fld F.PLC_E2E.TIMEOUT_MS ≤ s.now ∧ s.fld F.PLC_E2E.RETRIES ≤ payload1.sends ∧ 3 < s.fld F.PLC_E2E.RETRIES ∧ payload1.lsn ≠ 0 ∧
      s.receives = true ∧ 900004 < 896005 + s.fld F.PLC_E2E.TIMEOUT_MS ∧ k.valid = true) ∧
    (keyed5 (plcJoined ⟨0, [3], 2, 5, true, 5, true⟩ [payload1])).linkKey ((keyed5 (plcJoined ⟨0, [3], 2, 5, true, 5, true⟩ [payload1])).meter 5) ≠ none ∧
    ({ alive := false, valid := false, chan := 0, path := [], cost := 0, learned := 0, lastUp := 0 } : PlcLink).valid = false := by
  unfold Inv; decide +kernel

/-- A node whose link keys are at hand is sent MAC frames. -/
theorem witness_PowerLineLinksAreJoinedKeptAndLost_resend (l : List Byte) :
    ((keyed5 (plcJoined ⟨0, [3], 2, 5, true, 5, true⟩ [payload1])).macTo 5 1 l).isSome = true := by
  rw [State.macTo, Option.isSome_map, Option.isSome_iff_ne_none]
  decide +kernel

def port (f : PortState → PortState) (s : State) : State := { s with prt := f s.prt }

def descriptor0 (w : Waybill) : TxDescriptor := ⟨16, 32, w⟩

theorem witness_WiredPortsTakeWhatArrives :
    (Inv base ∧ 7 < 8 ∧ 3 < 4 ∧ base.fld (F.PRT_ETH_STAT.SPEED 7) = 0 ∧ base.fld (F.PRT_ETH_STAT.SPEED 0) ≠ 3 ∧
      (set (F.PRT_ETH_STAT.SPEED 0) 3 base).fld (F.PRT_ETH_STAT.SPEED 0) ≠ 0) ∧
    (1 < 2 ∧ 11 < 12 ∧ (base.fld (F.PRT_PCIE_STAT.LINK 1) = 1 ↔ 0 ≠ 0) ∧ (base.fld (F.PRT_PCIE_STAT.LINK 1) = 1 ↔ 11 = 0)) ∧
    ((phase .save base).receives = false ∧ base.receives = true ∧ base.role 1 ≠ 0 ∧ 1522 < 1523 ∧ base.ipOn 1 true = false ∧
      base.subconOn 1 0 = true ∧ 2 ≤ base.role 1 ∧ base.subconOn 1 1 = false) ∧
    (let s : State := { base with warp := { active := some { warp0 with
        ports := { ports0 with ips := List.replicate 8 { flags := 3, prefix4 := 24, prefix6 := 64, vlanId := 0, ipv4 := 1, gw4 := 0, ipv6 := 1, gw6 := 0, reservedZero := true } } } } };
      s.ipOn 1 false = true ∧ s.ipOn 1 true = true) ∧
    (let s := port (fun p => { p with ptp := { syncSeq := 3, reqSeq := 9 } }) base;
      s.ptpPort = some 0 ∧ s.fld F.PRT_PTP_CFG.DOMAIN = 0 ∧ s.prt.ptp.syncSeq = 3 ∧ s.prt.ptp.t1 = none ∧ s.fld F.PRT_PTP_CFG.DOMAIN ≠ 1) ∧
    (let s := port (fun p => { p with ptp := { t1 := some 5, t3 := some 7, reqSeq := 9 } }) base;
      s.prt.ptp.t1 = some 5 ∧ s.prt.ptp.t3 = some 7 ∧ s.prt.ptp.reqSeq = 9 ∧ s.forwards = false ∧
      (set F.CLK_TSRC.PTP 0 s).sourceOn .ptp = false ∧ (set F.CLK_TSRC.PTP 1 s).sourceOn .ptp = true ∧ (role 1 2 s).forwards = true) ∧
    (let s := port (fun p => { p with slots := [(0, { txHead := 255 })] }) base;
      s.role (61 + 0) = 1 ∧ 255 = (s.slotOf 0 0).txHead ∧ 255 < 256 ∧ (0 + 256 - (s.slotOf 0 0).txHead) % 256 = 1 ∧
      (descriptor0 waybill0).addr % 8 = 0 ∧ 32 ≤ (descriptor0 waybill0).len ∧ (descriptor0 waybill0).len ≤ 65535 ∧ s.slotContext 0 0 = none) := by
  unfold Inv; decide +kernel

theorem witness_WiredPortsTakeWhatArrives_lines :
    (let l : List Byte := [0, 2]; base.role 63 = 1 ∧ base.prt.spiOut = [] ∧ State.reset.role 63 ≠ 1 ∧ spiBody 1 spiCrc8 [0] = some [] ∧
      spiBody 1 spiCrc8 [0, 1] = none ∧ spiBody 4 crc32c [1] = none ∧ l.length ≠ fieldAt l 0 2 + 6 ∧
      (port (fun p => { p with spiOut := [[1], [2]] }) base).prt.spiOut = [[1], [2]]) ∧
    (let s := port (fun p => { p with edge := some (99101, 77, false) }) base; base.role 60 ≠ 0 ∧ 39999 < 40000 ∧
      s.prt.edge = some (99101, 77, false) ∧ s.now < 99101 + 900 ∧ 99100 + 900 ≤ s.now ∧ base.prt.edge = none ∧
      1 < (set F.CLK_QUAL.QUALITY 2 base).fld F.CLK_QUAL.QUALITY ∧ s.role 60 = 2 ∧ s.now ≤ 99101 + 950) ∧
    (let s := port (fun p => { p with tampers := [⟨1, 1, true⟩, ⟨0, 0, true⟩] }) base;
      Inv s ∧ s.prt.tampers[0]? = some ⟨1, 1, true⟩ ∧ s.prt.tampers[1]? = some ⟨0, 0, true⟩) := by
  unfold Inv; decide +kernel



def storage (f : StorageState → StorageState) (s : State) : State := { s with sto := f s.sto }

def page0 : NandPage := ⟨4, 15, [[], [], [], []]⟩

def block0 : Superblock := { group := 0, slc := true, blocks := (List.range 8).map fun d => (d, 0), pages := [some page0] }

theorem witness_StorageKeepsItsMapAndItsMedia :
    (∀ w ∈ base.sto.waiting, base.now ≤ w.pace) ∧
    (let w : JournalWait := ⟨99999, .poison 4, none, none⟩; let v : JournalWait := ⟨99999, .poison 5, none, some (3, 2)⟩;
      let s := storage (fun x => { x with waiting := [w, v], sbs := [(3, block0)] }) base;
      Inv s ∧ s.sto.waiting.filter (fun w => decide (w.pace < s.now) && s.holdDone w && !s.staleMap w) = [w] ∧ [w] ≠ [] ∧
      s.holdDone v = false) ∧
    (block0.retire = [] ∧ 4096 ≤ (storage (fun x => { x with log := List.replicate 4096 ⟨1, 1, false, []⟩ }) base).sto.log.length) ∧
    (let b := { block0 with isOpen := false }; let s := storage (fun x => { x with sbs := [(3, b)] }) base;
      Map.find s.sto.sbs 3 = some b ∧ b.isOpen = false ∧ b.released = false ∧ s.validPages 3 = [] ∧ s.sto.writes = [] ∧
      s.sto.waiting = []) ∧
    (base.storagePlan = some storage0 ∧
      storage0.slcBlocks * storage0.dies ≤ sumNat (fun d => base.freeCount storage0 true d) (List.range storage0.dies) * 4) ∧
    (let b := { block0 with isOpen := false }; let s := storage (fun x => { x with sbs := [(3, b)], used := (List.range 8).flatMap fun d => (List.range 16).map fun k => (d, k) }) base;
      sumNat (fun d => s.freeCount storage0 true d) (List.range storage0.dies) * 4 < storage0.slcBlocks * storage0.dies ∧
      (s.sto.sbs.find? fun e => e.2.slc && !e.2.isOpen && !e.2.released) = some (3, b)) ∧
    (base.victim storage0).isNone = true := by
  unfold Inv; decide +kernel

theorem witness_StorageKeepsItsMapAndItsMedia_media :
    (let s := storage (fun x => { x with erasing := [(63, 2)] }) base; (63, 2) ∈ s.sto.erasing ∧ Inv s ∧ 63 < 64 ∧ (63, 2) ∉ base.sto.erasing) ∧
    (let n := sumNat (fun k => storage0.nsUnits k) (List.range 7);
      let s := storage (fun x => { x with retired := (List.range 64).map fun k => (0, k, 1) }) base;
      base.storagePlan = some storage0 ∧ n ≤ sumNat (base.unitsLeft storage0) (List.range storage0.groups) ∧
      (set F.STO_STAT.READONLY 1 base).fld F.STO_STAT.READONLY = 1 ∧ Inv s ∧ s.fld F.STO_STAT.READONLY = 0 ∧ s.sto.writes = [] ∧
      sumNat (s.unitsLeft storage0) (List.range storage0.groups) < n) ∧
    (let s := storage (fun x => { x with sbs := [(3, block0)], map := [(4, .place 3 0)] }) base;
      Inv s ∧ Map.find s.sto.sbs 3 = some block0 ∧ block0.pages[0]? = some (some page0) ∧ (block0.blockOf 0).1 ∉ s.sto.failed ∧
      Map.find s.sto.map page0.lu = some (.place 3 0) ∧ block0.isOpen = true ∧ block0.pages[block0.pages.length - 1]? = some (some page0) ∧
      0 < block0.pages.length ∧ s.linkUp = false ∧ (linked s).linkUp = true) ∧
    (Inv base ∧ 7 < storage0.dies ∧ 7 ∉ base.sto.failed ∧ storage0.dies ≤ 63 ∧ MayWrite base host R.STO_DIE_CTL ∧ 7 < base.power.dies.length) ∧
    (let s := set F.STO_THROTTLE.MAX_MS 1000 (storage (fun x => { x with writes := [⟨0, 0, 5, [], 99000⟩] }) base);
      Inv s ∧ s.sto.writes = [⟨0, 0, 5, [], 99000⟩] ∧ 99000 + s.fld F.STO_THROTTLE.MAX_MS ≤ s.now ∧ s.now < 99001 + s.fld F.STO_THROTTLE.MAX_MS) ∧
    (set F.STO_SCRUB.THR_PCT 50 base).fld F.STO_SCRUB.THR_PCT * 72 ≤ 36 * 100 := by
  unfold Inv MayWrite; decide +kernel

theorem witness_StorageKeepsItsMapAndItsMedia_victim :
    ∃ (s : State) (pick : Nat → Bool) (b : Superblock), s.victim storage0 = some (3, pick) ∧ Map.find s.sto.sbs 3 = some b :=
  ⟨storage (fun x => { x with sbs := [(3, { block0 with isOpen := false, first := true })] }) base, fun _ => true, _, rfl, rfl⟩

/-- Queue 2 holds two words, queue 511 one and is not durable. -/
theorem witness_QueuesDeliverWordsInOrder :
    (Inv base ∧ 511 < 512 ∧ base.queueEntry 2 = some ⟨2, 1, 1, 20, 0⟩ ∧ (1 : BitVec 8).getLsbD 0 = true ∧
      (phase .save base).power.phase = .save ∧ base.power.phase ≠ .save ∧ (base.queue 2).words.length < 2 ^ 1) ∧
    (let s := after (.queuePush 2 5) base; (s.queue 2).words.length + 1 = 2 ^ 1 ∧ (s.queue 2).words = [⟨5, true⟩] ∧ 63 < 64 ∧ Inv s) ∧
    (let s := after (.queuePush 2 7) (after (.queuePush 2 5) base); 2 ^ 1 ≤ (s.queue 2).words.length ∧ Inv s) ∧
    (let s : State := { base with que := { queues := [(0, ⟨[⟨5, true⟩], 0⟩)] } };
      Inv s ∧ s.queueEntry 0 = some ⟨0, 4, 1, 0, 0⟩ ∧ 4 ≤ 16 ∧ (s.queue 0).words = [⟨5, true⟩]) ∧
    (1 < 2 ∧ (base.queue 2).words = []) := by unfold Inv; decide +kernel

theorem witness_ArbiterDrawsUnlessFrozen :
    (Inv base ∧ ∀ i < 16, (0 : BitVec 16).getLsbD i = true → base.tickets i = 0) ∧
    ((set F.ARB_CTL.FREEZE 1 base).fld F.ARB_CTL.FREEZE = 1 ∧ ({ base with que := { holder := some 3 } } : State).que.holder.isSome = true) ∧
    (let s : State := { base with regs := base.regs.put (R.ARB_TICKETS 3) 0x01000000 };
      Inv s ∧ s.que.holder = none ∧ s.fld F.ARB_CTL.FREEZE = 0 ∧ ∃ i < 16, (0x8001 : BitVec 16).getLsbD i = true ∧ 0 < s.tickets i) ∧
    (MayWrite base host R.ARB_CTL ∧ base.fld F.ARB_CTL.FREEZE = false.toNat ∧ base.fld F.ARB_CTL.FREEZE ≠ true.toNat) ∧
    (MayWrite base host R.ARB_SEED ∧ (1 : Word) ≠ 0) := by unfold Inv MayWrite; decide +kernel

def events (f : EvtState → EvtState) (s : State) : State := { s with evt := f s.evt }

def post0 : Post := ⟨Ev.SENSOR_FAULT, [], 60, 1, []⟩

def open0 : EvtRecord := ⟨Ev.SENSOR_FAULT, 1, 1, 1, 0, 1, []⟩

theorem witness_PostsBecomeRecordsInOrder :
    base.evt.queue = [] ∧
    (let s := events (fun e => { e with queue := [post0] }) base; s.evt.queue = [post0] ∧ s.evt.openRec = none ∧ s.evt.drops = 0) ∧
    (let s := events (fun e => { e with queue := [post0], openRec := some open0 }) base;
      s.evt.openRec = some open0 ∧ s.evt.drops = 0 ∧ post0.lostFor = [] ∧ isRepeat open0 post0 (s.fld F.EVT_WINDOW.SECONDS) = true ∧
      open0.rep + 1 ≠ 65535 ∧ isRepeat open0 { post0 with code := Ev.RNG_FAIL } (s.fld F.EVT_WINDOW.SECONDS) = false) ∧
    (let s := events (fun e => { e with openRec := some open0, opSeconds := 61 }) base;
      Inv s ∧ open0.opSeconds + s.fld F.EVT_WINDOW.SECONDS ≤ s.evt.opSeconds.toNat ∧ open0.rep = 0 ∧
      0 < ({ open0 with rep := 2 } : EvtRecord).rep ∧ (60 : BitVec 48).toNat < open0.opSeconds + s.fld F.EVT_WINDOW.SECONDS) ∧
    (events (fun e => { e with queue := [post0] }) base).evt.queue = [] ++ [post0] ∧
    base.evt.secondDue = false ∧
    (let s := events (fun e => { e with secondDue := true, opSeconds := 3599 }) base; s.evt.secondDue = true ∧ (s.evt.opSeconds + 1).toNat % 3600 = 0) ∧
    (let s := events (fun e => { e with secondDue := true, opSeconds := 3600 }) base; (s.evt.opSeconds + 1).toNat % 3600 ≠ 0) := by
  unfold Inv; decide +kernel

def keys (f : KeyState → KeyState) (s : State) : State := { s with key := f s.key }

/-- Armed 1,000 paces ago, and longer ago; the second context may write no block. -/
theorem witness_KeysAreZeroisedWhenArmedAndKept :
    (let s := keys (fun k => { k with arm := some (host, 99000) }) base;
      Inv s ∧ MayWrite s host R.KEY_ZCTL ∧ s.key.arm = some (host, 99000) ∧ s.now ≤ 99000 + 1000 ∧ 98999 + 1000 < s.now) ∧
    base.mayWriteBlock (.context 1) R.KEY_ZCTL = false ∧
    ((1 : ZSource) ≠ 0 ∧ (phase .off base).power.phase = .off ∧ base.power.phase ≠ .off) ∧
    ((1 : ZSource) ≠ 0 ∧ Inv base ∧ base.syncNow = 0 ∧ ((role 2 2 base).roleNow = 2 ∧ (role 2 2 base).syncNow = 2) ∧
      (role 2 1 base).syncNow ≠ 2 ∧ (role 1 2 base).roleNow = 1) ∧
    (base.roleNow = 0 ∧ ¬ ((role 1 2 base).roleNow = 0 ∨ (role 1 2 base).roleNow = 2 ∧ (role 1 2 base).syncNow ≠ 2)) ∧
    (base.keysReady = false ∧ (set F.KEY_STAT.STATE 1 base).keysReady = true) ∧
    (let s : State := { base with power := { base.power with due := some ⟨6, 100000⟩ } };
      s.power.due = some ⟨6, 100000⟩ ∧ 100000 ≤ s.now ∧ s.portsOff = false ∧ s.fld F.LEG_STAT.RUN = 0 ∧ base.now < 100001) := by
  unfold Inv MayWrite; decide +kernel


def firmware (f : FwState → FwState) (s : State) : State := { s with fwu := f s.fwu }

/-- An image of a main slot with rollback version `rb`. -/
def slotImage (rb : Nat) : List Byte := List.replicate 16 0 ++ beBytes 4 rb

/-- Slot 0 active, slot 1 in trial since 99,000 paces. -/
def trial (s : State) : State := set F.BAL_STAT.READY 1 (set F.ING_STAT.READY 1 (set F.STO_STAT.READY 1 (set F.FWU_STAT.TRIAL 1
  (firmware (fun f => { f with slots := [(0, slotImage 1), (1, slotImage 2)], healthy := some 1000, trialMin := 99, trialMax := 10 }) s))))

def opSeconds (n : Nat) (s : State) : State := { s with evt := { s.evt with opSeconds := BitVec.ofNat 48 n } }

theorem witness_ActivationsAndTrialsEndAsStated :
    (let s := set F.FWU_STAT.ACT_PENDING 1 (firmware (fun f => { f with actAt := some (.inl 100000) }) base);
      s.fld F.FWU_STAT.ACT_PENDING = 1 ∧ s.fwu.actAt = some (.inl 100000) ∧ 100000 ≤ s.now ∧ s.now < 100001) ∧
    (firmware (fun f => { f with actAt := some (.inr 1800000000) }) base).timeSec = 1800000000 ∧
    (let s := trial base;
      Inv s ∧ s.fld F.FWU_STAT.TRIAL = 1 ∧ s.fwu.healthy = some 1000 ∧ Map.find s.fwu.slots (1 - s.fld F.FWU_STAT.ACTIVE_SLOT) = some (slotImage 2) ∧ fieldAt (slotImage 2) 16 4 = 2 ∧
      1000 + s.fwu.trialMin * 1000 ≤ s.now ∧ s.now < 1001 + s.fwu.trialMin * 1000 ∧ s.fld F.STO_STAT.READY = 1 ∧ s.fld F.ING_STAT.READY = 1 ∧
      s.fld F.BAL_STAT.READY = 1 ∧ s.regs.get R.PACE_FAULT = 0 ∧ s.fwu.trialHost = false ∧ s.pair.split ≠ 2 ∧ MayWrite s host R.FWU_CTL ∧
      s.fwu.wasHealthy = false ∧ (firmware (fun f => { f with wasHealthy := true }) s).fwu.wasHealthy = true) ∧
    (let s := firmware (fun f => { f with trialHost := true }) (trial base); s.fwu.trialHost = true ∧ s.fwu.confirmed = false) ∧
    (let s := opSeconds 10 (trial base); s.fwu.trialStart + s.fwu.trialMax ≤ s.evt.opSeconds.toNat) ∧
    (let s := opSeconds 9 (trial base); s.evt.opSeconds.toNat < s.fwu.trialStart + s.fwu.trialMax) := by
  unfold Inv MayWrite; decide +kernel

/-- A campaign over the media `media` with a target final, one heard and one not. -/
def camp0 (state media : Nat) : Campaign :=
  { image := 0, media := media, start := 1000, activate := 2000, finish := 3000, rate := 60, id := 9, key := 5, state := state
    targets := [(1, { missing := 7 }), (2, { missing := 3, state := 4 }), (5, { missing := 3, state := 2, offered := 1, heard := true })]
    block := 0, seg := 3, sentAt := some 99000, rounds := 1 }

/-- A meter image of version 2 with two blocks after a manifest of one. -/
def transfer0 : FwTransfer := ⟨2, 0, [(0, packBytes [(12, 0), (4, 2), (4, 0), (4, 4096), (4, 2)]), (1, List.replicate 40 3)], true, true⟩

/-- The campaign 1 at `sec` seconds of device time. -/
def campaign (state media sec : Nat) : State := { base with
  fwu := { images := [(0, transfer0)], camps := [(1, camp0 state media)] }
  ing := { base.ing with meters := [(1, { state := .active }), (2, { state := .active }), (5, { state := .active })] }
  clk := { base.clk with ns := sec * 1000000000 } }

/-- The report of a meter with state `k` and version `v` for campaign 9. -/
def report0 (k v : Nat) : FwReport := ⟨k, 9, v, 0, 3⟩

/-- `report0 3 2` of the meter with EXT_ID 9 under a reading key of zeros, with counter 5. -/
def status0 : NodeMsg := ⟨9, none, { frame1 with body := .tylian (packBytes [(1, 0x24), (1, 3), (2, 0), (4, 5), (4, 0), (4, 9),
  (48, 1721438009742861393127425606330614409761299623502551167205451929644290922274354544411888861566477232508313333552282)]) }⟩

theorem witness_CampaignsRunFromStartToEnd :
    (let s := campaign 1 3 1000; Inv s ∧ 1 < 8 ∧ Map.find s.fwu.camps 1 = some (camp0 1 3) ∧ (camp0 1 3).state = 1 ∧
      Map.sorted (camp0 1 3).targets = true ∧ s.timeSec = (camp0 1 3).start ∧ (campaign 1 3 999).timeSec < (camp0 1 3).start) ∧
    (let s := campaign 2 3 2999; let x := camp0 2 3; Inv s ∧ Map.find s.fwu.camps 1 = some x ∧ x.state = 2 ∧ x.start ≤ s.timeSec ∧
      s.timeSec < x.finish ∧ (∃ e ∈ x.targets, e.2.state ≠ 4 ∧ e.2.state ≠ 5) ∧ x.sentAt = some 99000 ∧ 99000 * x.rate + 60000 ≤ s.now * x.rate ∧
      (s.now - 1) * x.rate < 99000 * x.rate + 60000 ∧ s.fld F.RFM_DEV_CTR.DCOUNTER < 0xF0000000 ∧ x.media % 2 = 1 ∧ x.media / 2 % 2 = 1 ∧
      0 ∈ s.meshChans ∧ (camp0 2 1).media / 2 % 2 = 0) ∧
    (let x := camp0 2 3; x.seg < 15 ∧ 15 ≤ { x with seg := 15 }.seg ∧ { x with seg := 15 }.block + 1 < 2 ∧ 1 ≤ { x with seg := 15 }.block + 1) ∧
    (let s := campaign 2 3 2000; Map.find s.fwu.camps ((report0 3 2).id % 8) = some (camp0 2 3) ∧
      Map.find (camp0 2 3).targets 5 = some { missing := 3, state := 2, offered := 1, heard := true } ∧ (camp0 2 3).id = (report0 3 2).id ∧
      Map.find s.fwu.images (camp0 2 3).image = some transfer0 ∧ transfer0.man.version = 2 ∧ transfer0.man.blocks = 2 ∧ (camp0 2 3).rounds ≤ 1) ∧
    (let s := campaign 2 3 3000; Inv s ∧ (camp0 2 3).finish ≤ s.timeSec) ∧
    (Map.find ((campaign 2 3 2999).sendSegment (camp0 2 3)).fwu.camps 1).isSome = true := by
  unfold Inv; decide +kernel

theorem witness_CampaignsRunFromStartToEnd_frames :
    takeInbox 0x24 base.rad.inbox = none ∧
    (let s := radio (fun r => { r with inbox := [nodeMsg none [4, 0, 0, 7], status0] }) (keyed1 base);
      takeInbox 0x24 s.rad.inbox = some (status0, [nodeMsg none [4, 0, 0, 7]]) ∧ status0.frame.parses 0x24 = true ∧
      (nodeMsg none [0x24, 0]).frame.parses 0x24 = false ∧ base.frameMeter status0.frame = none ∧
      (keyed1 base).frameMeter status0.frame = some 5 ∧ status0.frame.counter = some 5 ∧
      (match ((keyed1 base).authenticate 5 ((keyed1 base).meter 5) status0.frame).2 with
        | .opened d _ => fwReportOf d == ⟨3, 9, 2, 0, 0⟩
        | .failed _ => false) = true ∧
      (base.authenticate 5 { meter1 with keyAlg := 0 } status0.frame).2 = .failed Cause.KEY_MISSING ∧
      windowJudge 0 0 5 = .accept 5 1 ∧ windowJudge 5 1 5 = .used ∧ windowJudge 200 1 5 = .old) := by
  decide +kernel

theorem witness_CampaignsRunFromStartToEnd_status : (∀ k ∈ [0, 1, 2, 3, 4], ∃ m, m = report0 k 2 ∧ m.state = k) ∧
    (∃ t : CampTarget, t.state ≠ 4 ∧ t.state ≠ 5) ∧ (∃ t : CampTarget, t.state = 5) :=
  ⟨fun k _ => ⟨_, rfl, rfl⟩, ⟨{ missing := 0 }, by decide⟩, ⟨{ missing := 0, state := 5 }, rfl⟩⟩


/-- The member with its partner's keys, in the role `n` and the state of synchronisation `m`, holding inputs and outputs. -/
def inPair (n m : Nat) : State := pair (fun p => { p with
  held := [(3, .ethReply 0), (99999, .alive)], inputs := [(99999, frame0)], missed := 2, missedOwn := 1, actHigh := 4, byTakeover := true
  actOut := true, shared := true, entry := [.resyncMark], stored := [⟨false, false, 3, [], true⟩], tagFails := [99500] }) (linked (role n m base))

/-- A device whose pair plan names it as member 0. -/
def member0 (s : State) : State :=
  { s with warp := { active := some { warp0 with pairPlan := some { pair0 with idents := [sha256 (hssPub 0), 5] } } } }

def peer0 : PairPeer := ⟨[], [], true⟩

theorem witness_PairLinkAndRolesFollowTheirRules :
    (Inv (inPair 2 2) ∧ (inPair 2 2).syncNow = 2 ∧ base.syncNow = 0 ∧ (inPair 1 3).syncNow = 3) ∧
    (base.pairPlan.isSome = true ∧ 1 < 2 ∧
      (let s := pair (fun p => { p with tagFails := 99000 :: List.replicate 15 99001 }) base;
        (s.pair.tagFails.filter fun p => decide (s.now < p + 1000)).length + 1 = 16) ∧ base.fld F.PAIR_STAT.LANE0 = false.toNat ∧
      base.fld F.PAIR_STAT.LANE0 ≠ true.toNat) ∧
    (let s := set F.KEY_STAT.STATE 1 (linked base);
      s.fld F.PAIR_STAT.LANE0 = 1 ∧ (pair (fun p => { p with keys := none }) s).pair.keys = none ∧ s.keysReady = true ∧ peer0.refOk = true) ∧
    (base.pairPlan = some pair0 ∧ base.roleNow = 0 ∧
      (let s : State := { base with warp := { active := some { warp0 with pairPlan := some { pair0 with idents := [] } } } }; s.memberNo = none)) ∧
    ((inPair 1 2).roleNow = 1 ∧ 2 ≤ (inPair 1 2).pair.missed ∧ (pair (fun p => { p with missed := 1 }) (inPair 1 2)).pair.missed < 2 ∧
      (let s := pair (fun p => { p with downAt := some 99992 }) (inPair 1 0); s.syncNow ≠ 2 ∧ s.pair.downAt = some 99992 ∧ s.now ≤ 99992 + 8 ∧
        99991 + 8 < s.now)) ∧
    (∀ e ∈ base.host.tasks, e.2.here = true → memberLocal e.2.opcode = false) ∧
    (let s := pair (fun p => { p with keys := none }) (inPair 2 0);
      s.roleNow = 2 ∧ s.pair.byTakeover = true ∧ s.linkUp = false ∧ 4 ≤ s.pair.actHigh ∧
      (pair (fun p => { p with actHigh := 3 }) s).pair.actHigh < 4) ∧
    (MayWrite (inPair 2 2) host R.PAIR_CTL ∧ (inPair 2 2).canHandOver = true ∧ MayWrite (inPair 2 1) host R.PAIR_CTL ∧
      (inPair 2 1).roleNow ≠ 0 ∧ (inPair 2 1).canHandOver = false ∧ MayWrite base host R.PAIR_CTL) := by
  unfold Inv MayWrite; decide +kernel

theorem member0_memberNo (s : State) (h : s.enrol = 0) : (member0 s).memberNo = some 0 := by
  have e : (member0 s).identity = sha256 (hssPub 0) := by rw [State.identity, show (member0 s).enrol = s.enrol from rfl, h]
  have p : (member0 s).pairPlan = some { pair0 with idents := [sha256 (hssPub 0), 5] } := rfl
  rw [State.memberNo, p]
  dsimp only
  rw [e]
  generalize sha256 (hssPub 0) = v
  simp [List.range, List.range.loop]

/-- Member 0 after its wait, and with a lane up and its keys ready. -/
theorem witness_PairLinkAndRolesFollowTheirRules_member : ∃ (p : PairPlan) (m w : Nat) (s : State),
    s.pairPlan = some p ∧ s.memberNo = some m ∧ s.roleNow = 0 ∧ w = s.pair.roleFrom + p.startWait + (if s.pair.wasStandby then 1000 else 0) +
      (if m = 1 ∧ p.prefer0 = true then 1000 else 0) ∧ w ≤ s.now :=
  ⟨{ pair0 with idents := [sha256 (hssPub 0), 5] }, 0, _, member0 base, rfl, member0_memberNo _ (by decide +kernel), by decide +kernel, rfl,
    by decide +kernel⟩

theorem witness_PairLinkAndRolesFollowTheirRules_link : ∃ (p : PairPlan) (m : Nat) (s : State),
    s.pairPlan = some p ∧ s.memberNo = some m ∧ s.fld F.PAIR_STAT.LANE0 = 1 ∧ s.pair.keys = none ∧ s.keysReady = true :=
  ⟨_, 0, member0 (set F.PAIR_STAT.LANE0 1 (set F.KEY_STAT.STATE 1 base)), rfl, member0_memberNo _ (by decide +kernel), by decide +kernel, rfl,
    by decide +kernel⟩

def entryOf (last : Bool) : LedgerEntry := ⟨last, false, 99999, [.frame frame0], true⟩

/-- In step, resynchronising and comparing; the common checkpoint of pace 99,000 is due at a CKPT_PACES of 1,000. -/
theorem witness_LedgerAndDigestsKeepThePairInStep :
    (let s := inPair 1 2; Inv s ∧ s.linkUp = true ∧ (entryOf true).crcOk = true ∧ s.roleNow = 1 ∧ s.syncNow = 2 ∧ s.pair.mismatch = none ∧
      (entryOf true).last = true ∧ (entryOf false).last = false ∧ (pair (fun p => { p with mismatch := some 4 }) s).pair.mismatch.isSome = true) ∧
    ((inPair 1 1).syncNow = 1 ∧ (inPair 1 1).linkUp = true ∧ base.linkUp = false ∧ (inPair 2 2).roleNow = 2 ∧ (inPair 2 2).syncNow = 2) ∧
    (let s := pair (fun p => { p with stored := [] }) (inPair 1 1); s.pair.stored = [] ∧ s.fld F.PAIR_RESYNC_LEFT.MIB = 0 ∧ s.linkUp = true) ∧
    ((none : Option (BitVec 64)) ≠ some 5 ∧ (inPair 2 1).pair.split ≠ 1) ∧
    ((inPair 1 4).syncNow = 4 ∧ (inPair 2 4).roleNow = 2 ∧ (0 : BitVec 4) = 0 ∧ (4 : BitVec 4) ≠ 0 ∧ CheckResult.pass ≠ .fail ∧
      (inPair 1 4).hlt.fatal = none) ∧
    (let s := pair (fun p => { p with common := some 99000 }) (inPair 2 2);
      s.pairPlan = some pair0 ∧ s.pair.common = some 99000 ∧ 99000 + pair0.ckptPaces ≤ s.now ∧ s.now < 99001 + pair0.ckptPaces) ∧
    ((inPair 1 1).pair.resync = none ∧ (pair (fun p => { p with resync := some (1, 2) }) (inPair 1 1)).pair.resync.isSome = true) ∧
    (MayWrite (inPair 1 2) host R.PAIR_CTL ∧ MayWrite base host R.PAIR_CTL ∧ base.roleNow ≠ 1) := by
  unfold Inv MayWrite; decide +kernel


def power (f : PowerState → PowerState) (s : State) : State := { s with power := f s.power }

def due (cause pace : Nat) (s : State) : State := power (fun p => { p with due := some ⟨cause, pace⟩ }) s

def dir0 : SaveDir := ⟨5, 6, 0, [], 0, 0, 0, false⟩

theorem witness_SuppliesSaveAndResetsFollowTheirRules :
    (let s := set F.PWR_WARN.MV 40000 base; Inv s ∧ s.fld F.PWR_STAT.VIN_A_OK = 0 ∧ s.fld F.PWR_STAT.VIN_B_OK = 0 ∧
      39999 < s.fld F.PWR_WARN.MV ∧ s.fld F.PWR_WARN.MV ≤ 40000 ∧ s.portsOff = false) ∧
    (let s := power (fun p => { p with dir := some dir0 }) (phase .save base); s.power.phase = .save ∧ s.power.dir = some dir0 ∧ 30 ≤ 90 ∧
      (saveSteps (s.fld F.HLT_STAT.LEVEL)).2 < 91 ∧ s.portsOff = true ∧ base.power.phase ≠ .save) ∧
    ((2 : Nat) ≤ 2 ∧ base.canHandOver = false ∧
      Map.find ({ base with qty := { pulses := [(1, {})] } } : State).qty.pulses 1 = some {}) ∧
    (let s := power (fun p => { p with holdUp := true }) base; s.power.holdUp = true ∧ base.power.holdUp = false) ∧
    ((phase .off base).power.phase = .off ∧ base.power.phase ≠ .off ∧ base.portsOff = false) ∧
    (let s := due 0x05 100000 base; s.power.due = some ⟨0x05, 100000⟩ ∧ 100000 ≤ s.now ∧ s.power.cutDue = false ∧ s.portsOff = false ∧
      s.now < 100001) ∧
    (due 0x0B 99000 base).power.due = some ⟨0x0B, 99000⟩ ∧ (due 0x06 99000 base).power.due = some ⟨0x06, 99000⟩ ∧
    (1799 < 1800 ∧ base.fld F.HLT_STAT.LEVEL = 0) ∧
    (let s := set F.HLT_PLAN.CKPT_PACES 1000 (set F.HLT_STAT.LEVEL 3 base);
      s.fld F.HLT_STAT.LEVEL ≠ 0 ∧ s.now % s.fld F.HLT_PLAN.CKPT_PACES = 0 ∧ (s.now + 1) % s.fld F.HLT_PLAN.CKPT_PACES ≠ 0 ∧
      s.warp.active = some warp0 ∧ ⟨0, 4, 1, 0, 0⟩ ∈ warp0.queuePlan.queues) := by
  unfold Inv; decide +kernel

def input0 : StartIn := ⟨[.vinA], true, false, ⟨0, 0, 0, 0, 0⟩, [], 8, 0, 0, 0, [true, false], (true, true), (true, false), false, false⟩

theorem witness_StartsKeepWhatTheirCauseKeeps :
    (let s := power (fun p => { p with start := some (0x05, false), dir := some dir0, dirNew := true }) base;
      Inv s ∧ s.power.start = some (0x05, false) ∧ s.power.dirNew = true ∧ s.power.dir = some dir0 ∧ base.power.dirNew = false) ∧
    ((findReg R.PAIR_CTL).isSome = true ∧ R.PAIR_CTL ∉ [R.PWR_RESET, R.PWR_STAT, R.CLK_STAT, R.MET_STAT, R.PWR_VIN, R.PWR_VSYS, R.PWR_VBAT]) ∧
    (let s := power (fun p => { p with start := some (0x09, true) }) base; Inv s ∧ s.power.start = some (0x09, true)) ∧
    (base.power.start = none ∧ base.warp.stored = [warp0, warp0] ∧ State.reset.warp.stored = [] ∧ input0.copies = [true, false] ∧
      (∀ b ∈ ({ input0 with copies := [false, false] } : StartIn).copies, b = false)) := by
  unfold Inv; decide +kernel

def clock (f : ClockState → ClockState) (s : State) : State := { s with clk := f s.clk }

/-- Device time is marked for a step of one second back; without a source its quality is not SYNCED. -/
theorem witness_DeviceTimeIsSteppedRatedAndKept :
    (let s := clock (fun c => { c with step := some (-1000000000, .host) }) base;
      Inv s ∧ s.pace.quantum = 0 ∧ s.clk.step = some (-1000000000, .host) ∧ s.power.cutDue = false ∧ s.portsOff = false ∧
      s.fld F.LEG_STAT.RUN = 0 ∧ s.qty.stage ≠ .met) ∧
    (let s := set F.LEG_STAT.RUN 1 base; s.fld F.LEG_STAT.RUN = 1 ∧
      s.clk.ns + s.fld F.TAR_SETBACK.SECONDS * 1000000000 < (clock (fun c => { c with last := c.ns * 2 }) s).clk.last ∧
      s.clk.last ≤ s.clk.ns + s.fld F.TAR_SETBACK.SECONDS * 1000000000 ∧ s.tar.hwm + 1 < s.timeMs ∧
      s.timeMs ≤ (tariff (fun t => { t with hwm := s.timeMs }) s).tar.hwm + 1) ∧
    (base.clk.step = none ∧ Inv base) ∧
    (let s := set F.CLK_QUAL.QUALITY 0 base; s.qualityNow ≠ 0 ∧ s.qualityNow ≠ s.fld F.CLK_QUAL.QUALITY) ∧
    (let s := set F.CLK_QUAL.QUALITY base.qualityNow base; s.qualityNow = s.fld F.CLK_QUAL.QUALITY) ∧
    (let s := atPace 3600000 (set F.CLK_QUAL.QUALITY 0 base); Inv s ∧ s.fld F.CLK_QUAL.QUALITY = 0 ∧ s.clk.comparedAt + 3600000 ≤ s.now ∧
      (atPace 3599999 s).now < s.clk.comparedAt + 3600000 ∧ (set F.CLK_QUAL.QUALITY 1 base).fld F.CLK_QUAL.QUALITY ≠ 0) := by
  unfold Inv; decide +kernel


def health (f : HealthState → HealthState) (s : State) : State := { s with hlt := f s.hlt }

def item0 : HealthItem := ⟨3, 1, 0, 5, 6⟩

theorem witness_HealthIsMeasuredAndReported :
    (let s := opSeconds 86399 (health (fun h => { h with sent := [(3, 0, 1, 0)] }) base);
      ∃ e ∈ s.hlt.sent, e.1 = item0.code ∧ e.2.1 = item0.subject ∧ item0.severity ≤ e.2.2.1 ∧ s.evt.opSeconds.toNat < e.2.2.2 + 86400) ∧
    (let s := opSeconds 86400 (health (fun h => { h with sent := [(3, 0, 1, 0)] }) base);
      ¬ ∃ e ∈ s.hlt.sent, e.1 = item0.code ∧ e.2.1 = item0.subject ∧ item0.severity ≤ e.2.2.1 ∧ s.evt.opSeconds.toNat < e.2.2.2 + 86400) ∧
    (let s := set F.HLT_VCORE_CFG.TGT_PS 100 (set F.HLT_VCORE.MV 800 base); Inv s ∧ s.fld F.HLT_VCORE.MV = 800 ∧
      s.fld F.HLT_VCORE_CFG.TGT_PS = 100 ∧ base.hlt.slack < 9 ∧ 9 ≤ (health (fun h => { h with slack := 9 }) s).hlt.slack ∧
      s.hlt.slackAt + 1000 ≤ s.now ∧ s.now < (health (fun h => { h with slackAt := 99001 }) s).hlt.slackAt + 1000) ∧
    (base.hlt.berDay ≠ base.dayNo ∧ base.hlt.driftDay ≠ base.dayNo ∧
      (let s := health (fun h => { h with berDay := base.dayNo, driftDay := base.dayNo }) base; s.hlt.berDay = s.dayNo ∧ s.hlt.driftDay = s.dayNo)) ∧
    Inv base ∧ (3 : Nat) < 4 ∧
    (let s := power (fun p => { p with goodSince := [(.vinA, 40000), (.vinB, 40000)] }) (set F.PWR_STAT.HOLDUP_OK 1
        (set F.HLT_CAP_CFG.HOUR (base.timeMs / 3600000 % 24) base));
      Inv s ∧ s.timeMs / 3600000 % 24 = s.fld F.HLT_CAP_CFG.HOUR ∧ s.hlt.testDay ≠ s.timeMs / 86400000 + 1 ∧ s.capTestAllowed = true ∧
      MayWrite s host R.HLT_CAP_CFG) ∧
    (let s := power (fun p => { p with goodSince := [(.vinA, 40001), (.vinB, 40000)] }) (set F.PWR_STAT.HOLDUP_OK 1 base); s.capTestAllowed = false) ∧
    (base.fld F.HLT_STAT.CAP_TEST = 0 ∧ (let s := health (fun h => { h with capFrom := 99990 }) (set F.HLT_STAT.LEVEL 2 (set F.HLT_STAT.CAP_TEST 1 base));
      Inv s ∧ s.fld F.HLT_STAT.CAP_TEST = 1 ∧ s.hlt.capFrom + 10 ≤ s.now ∧ s.now < 99991 + 10)) ∧
    (let e : Int × Int := (150, 1); worstLevel e ≤ 2 ∧ 1 < worstLevel (149, 1) ∧ 10 * e.1 < 13 * planBudget 1 * e.2 ∧ 50 * e.2 ≤ e.1 ∧
      13 * planBudget 2 * e.2 ≤ 10 * (195 : Int) ∧ worstLevel (195, 1) ≤ 3) ∧
    ((base.fld F.HLT_STAT.CORES_LOST).testBit 7 = false ∧ ((set F.HLT_STAT.CORES_LOST 0x80 base).fld F.HLT_STAT.CORES_LOST).testBit 7 = true ∧ 8 ≤ 8) := by
  unfold Inv MayWrite; decide +kernel

def fatal0 : Fatal := ⟨4, 0xF, 0xFF, 0⟩

theorem witness_FatalErrorsRunTheirSequence :
    (let s := health (fun h => { h with watch := 1000 }) (set F.HLT_WDOG.PACES 1000 base);
      Inv s ∧ s.fld F.HLT_WDOG.PACES ≤ s.hlt.watch ∧ s.power.phase ≠ .save ∧ s.hlt.bite = none) ∧
    (let s := health (fun h => { h with watch := 999 }) (set F.HLT_WDOG.PACES 1000 base); s.hlt.watch < s.fld F.HLT_WDOG.PACES) ∧
    (let s := health (fun h => { h with bite := some 99984 }) base; s.hlt.bite = some 99984 ∧ 99984 + 16 ≤ s.now ∧ s.now < 99985 + 16 ∧
      s.portsOff = false ∧ s.fld F.LEG_STAT.RUN = 0) ∧
    (let s := health (fun h => { h with fatal := some fatal0 }) base; s.hlt.fatal = some fatal0 ∧ s.portsOff = false ∧ base.hlt.fatal = none) ∧
    (Inv base ∧ base.canHandOver = false ∧ (inPair 2 2).canHandOver = true ∧ DumpEnd.whole ≠ .cut ∧ base.hlt.dumpSlot = some 0) ∧
    (let h : HealthState := (health (fun h => { h with dumps := (List.range 3).map fun i => (i, ⟨true, true, false, false, fatal0, i + 1, 5, 0, 0, 0, 0, 0, 0, 0, 0, []⟩) }) base).hlt;
      (∀ j < 3, (Map.find h.dumps j).isSome = true) ∧ Map.find h.dumps 3 = none ∧ 3 < 4) := by
  unfold Inv; decide +kernel

end Sys2Proof.Tests
end

/-! Every command ends in a state that follows from the one it began in, so that every step keeps the register file
canonical. -/

namespace Sys2Proof.Machine

/-- Every command but five keeps the pace and the Warp image: the case split over the commands, made once. -/
theorem exec_ends_or {s0 s : State} (h : Keeps s0 s) (c : Instr) :
    Ends s0 (exec c s) ∨ (∃ i, c = .paceBoundary i) ∨ (∃ i, c = .fullStart i) ∨
      (∃ p n k b, c = .resynchronisation p n k b) ∨ c = .commitCheck ∨ ∃ l k, c = .applyScheduledImage l k :=
  match c with
  | .paceBoundary i => .inr (.inl ⟨i, rfl⟩)
  | .applyScheduledImage l k => .inr (.inr (.inr (.inr (.inr ⟨l, k, rfl⟩))))
  | .commitCheck => .inr (.inr (.inr (.inr (.inl rfl))))
  | .commitApply => .inl (execCommitApply_keeps h)
  | .engineOverrun .. => .inl (execEngineOverrun_keeps h ..)
  | .jobDeadlineMiss .. => .inl (execJobDeadlineMiss_keeps h ..)
  | .stageAcquire .. => .inl (execStageAcquire_keeps h ..)
  | .stageRelease .. => .inl (execStageRelease_keeps h ..)
  | .commitGo .. => .inl (execCommitGo_keeps h ..)
  | .commitDiscard .. => .inl (execCommitDiscard_keeps h ..)
  | .stageTimeout => .inl (execStageTimeout_keeps h)
  | .waybillPart => .inl (execWaybillPart_keeps h)
  | .partTimeout => .inl (execPartTimeout_keeps h)
  | .sessionOpen .. => .inl (execSessionOpen_keeps h ..)
  | .sessionConfirm .. => .inl (execSessionConfirm_keeps h ..)
  | .sessionClose .. => .inl (execSessionClose_keeps h ..)
  | .identity .. => .inl (execIdentity_keeps h ..)
  | .handshakeTimeout => .inl (execHandshakeTimeout_keeps h)
  | .sessionLifeExpiry => .inl (execSessionLifeExpiry_keeps h)
  | .regRead .. => .inl (execRegRead_keeps h ..)
  | .regWrite .. => .inl (execRegWrite_keeps h ..)
  | .taskQuery .. => .inl (execTaskQuery_keeps h ..)
  | .taskCancel .. => .inl (execTaskCancel_keeps h ..)
  | .taskItemEnd .. => .inl (execTaskItemEnd_keeps h ..)
  | .taskItemsNotice => .inl (execTaskItemsNotice_keeps h)
  | .ack .. => .inl (execAck_keeps h ..)
  | .noticeResend => .inl (execNoticeResend_keeps h)
  | .hostClose .. => .inl (execHostClose_keeps h ..)
  | .hostResend .. => .inl (execHostResend_keeps h ..)
  | .warpLoad .. => .inl (execWarpLoad_keeps h ..)
  | .warpApply .. => .inl (execWarpApply_keeps h ..)
  | .meterWrite .. => .inl (execMeterWrite_keeps h ..)
  | .readingsPush .. => .inl (execReadingsPush_keeps h ..)
  | .readingsGet .. => .inl (execReadingsGet_keeps h ..)
  | .tariffLoad .. => .inl (execTariffLoad_keeps h ..)
  | .billingGet .. => .inl (execBillingGet_keeps h ..)
  | .tokenSubmit .. => .inl (execTokenSubmit_keeps h ..)
  | .tokenApply => .inl (execTokenApply_keeps h)
  | .balanceGet .. => .inl (execBalanceGet_keeps h ..)
  | .fwBlock .. => .inl (execFwBlock_keeps h ..)
  | .fwMeter .. => .inl (execFwMeter_keeps h ..)
  | .bulkRead .. => .inl (execBulkRead_keeps h ..)
  | .bulkWrite .. => .inl (execBulkWrite_keeps h ..)
  | .bulkDiscard .. => .inl (execBulkDiscard_keeps h ..)
  | .timeSet .. => .inl (execTimeSet_keeps h ..)
  | .attest .. => .inl (execAttest_keeps h ..)
  | .enrolReset .. => .inl (execEnrolReset_keeps h ..)
  | .eventRead .. => .inl (execEventRead_keeps h ..)
  | .dumpRead .. => .inl (execDumpRead_keeps h ..)
  | .pairSwitch .. => .inl (execPairSwitch_keeps h ..)
  | .resetCmd .. => .inl (execResetCmd_keeps h ..)
  | .commandedReset .. => .inl (execCommandedReset_keeps h ..)
  | .metrologySample .. => .inl (execMetrologySample_keeps h ..)
  | .zeroWindowRestart .. => .inl (execZeroWindowRestart_keeps h ..)
  | .sensorFault .. => .inl (execSensorFault_keeps h ..)
  | .sensorFaultClear .. => .inl (execSensorFaultClear_keeps h ..)
  | .refineStart .. => .inl (execRefineStart_keeps h ..)
  | .refineAbort .. => .inl (execRefineAbort_keeps h ..)
  | .refineSolve => .inl (execRefineSolve_keeps h)
  | .metrologyReady => .inl (execMetrologyReady_keeps h)
  | .intervalClose .. => .inl (execIntervalClose_keeps h ..)
  | .checkpointWrite .. => .inl (execCheckpointWrite_keeps h ..)
  | .pulseEmit .. => .inl (execPulseEmit_keeps h ..)
  | .pulseWidthEnd .. => .inl (execPulseWidthEnd_keeps h ..)
  | .demandClose .. => .inl (execDemandClose_keeps h ..)
  | .tariffSwitch .. => .inl (execTariffSwitch_keeps h ..)
  | .pointBillingClose .. => .inl (execPointBillingClose_keeps h ..)
  | .meterGraceClose .. => .inl (execMeterGraceClose_keeps h ..)
  | .ingestFrame => .inl (execIngestFrame_keeps h)
  | .readingDurable => .inl (execReadingDurable_keeps h)
  | .chunkWrite .. => .inl (execChunkWrite_keeps h ..)
  | .serialPoll .. => .inl (execSerialPoll_keeps h ..)
  | .serialResponseTimeout .. => .inl (execSerialResponseTimeout_keeps h ..)
  | .serialFrame .. => .inl (execSerialFrame_keeps h ..)
  | .nodeBalance .. => .inl (execNodeBalance_keeps h ..)
  | .localisation .. => .inl (execLocalisation_keeps h ..)
  | .balanceRevision => .inl (execBalanceRevision_keeps h)
  | .revisionNotice => .inl (execRevisionNotice_keeps h)
  | .rebase .. => .inl (execRebase_keeps h ..)
  | .clearAlert .. => .inl (execClearAlert_keeps h ..)
  | .relocate .. => .inl (execRelocate_keeps h ..)
  | .relearn .. => .inl (execRelearn_keeps h ..)
  | .tokenForward => .inl (execTokenForward_keeps h)
  | .keypadToken => .inl (execKeypadToken_keeps h)
  | .legalUpdChange => .inl (execLegalUpdChange_keeps h)
  | .fwActivate => .inl (execFwActivate_keeps h)
  | .sealedActivation .. => .inl (execSealedActivation_keeps h ..)
  | .sealedFallback => .inl (execSealedFallback_keeps h)
  | .calDeliver => .inl (execCalDeliver_keeps h)
  | .calDigest .. => .inl (execCalDigest_keeps h ..)
  | .billCloseRequest => .inl (execBillCloseRequest_keeps h)
  | .displayNote => .inl (execDisplayNote_keeps h)
  | .displayNoteEnd => .inl (execDisplayNoteEnd_keeps h)
  | .keypadCfg => .inl (execKeypadCfg_keeps h)
  | .intervalRecord => .inl (execIntervalRecord_keeps h)
  | .snapshot => .inl (execSnapshot_keeps h)
  | .legalEvent => .inl (execLegalEvent_keeps h)
  | .reqResult => .inl (execReqResult_keeps h)
  | .displayFrame .. => .inl (execDisplayFrame_keeps h ..)
  | .displayInitRetry => .inl (execDisplayInitRetry_keeps h)
  | .displayStep => .inl (execDisplayStep_keeps h)
  | .keypadKey .. => .inl (execKeypadKey_keeps h ..)
  | .keypadEntryTimeout => .inl (execKeypadEntryTimeout_keeps h)
  | .displayRequestEnd => .inl (execDisplayRequestEnd_keeps h)
  | .opticalRequest .. => .inl (execOpticalRequest_keeps h ..)
  | .opticalAck .. => .inl (execOpticalAck_keeps h ..)
  | .connectionEvent .. => .inl (execConnectionEvent_keeps h ..)
  | .channelReturn .. => .inl (execChannelReturn_keeps h ..)
  | .joinReq .. => .inl (execJoinReq_keeps h ..)
  | .connectionLost .. => .inl (execConnectionLost_keeps h ..)
  | .floodReceive .. => .inl (execFloodReceive_keeps h ..)
  | .floodSend => .inl (execFloodSend_keeps h)
  | .wmbusFrame .. => .inl (execWmbusFrame_keeps h ..)
  | .envelopeSend => .inl (execEnvelopeSend_keeps h)
  | .joinedTableWrite => .inl (execJoinedTableWrite_keeps h)
  | .txWaitExpiry => .inl (execTxWaitExpiry_keeps h)
  | .synthLockFail .. => .inl (execSynthLockFail_keeps h ..)
  | .plcFrameReceive .. => .inl (execPlcFrameReceive_keeps h ..)
  | .tmUpdate => .inl (execTmUpdate_keeps h)
  | .csmaAttempt .. => .inl (execCsmaAttempt_keeps h ..)
  | .plcAckTimeout .. => .inl (execPlcAckTimeout_keeps h ..)
  | .referenceMeasure .. => .inl (execReferenceMeasure_keeps h ..)
  | .superframeStart .. => .inl (execSuperframeStart_keeps h ..)
  | .slotReq => .inl (execSlotReq_keeps h)
  | .beaconLoss => .inl (execBeaconLoss_keeps h)
  | .routeAdv .. => .inl (execRouteAdv_keeps h ..)
  | .plcJoinReq => .inl (execPlcJoinReq_keeps h)
  | .plcLinkLost .. => .inl (execPlcLinkLost_keeps h ..)
  | .e2eResend .. => .inl (execE2eResend_keeps h ..)
  | .ethernetFrame .. => .inl (execEthernetFrame_keeps h ..)
  | .ptpMessage .. => .inl (execPtpMessage_keeps h ..)
  | .txDoorbell .. => .inl (execTxDoorbell_keeps h ..)
  | .rxPost .. => .inl (execRxPost_keeps h ..)
  | .pcieReset .. => .inl (execPcieReset_keeps h ..)
  | .spiRegWrite .. => .inl (execSpiRegWrite_keeps h ..)
  | .spiRegRead .. => .inl (execSpiRegRead_keeps h ..)
  | .spiStatus => .inl (execSpiStatus_keeps h)
  | .wbWrite .. => .inl (execWbWrite_keeps h ..)
  | .wbRead .. => .inl (execWbRead_keeps h ..)
  | .usbWaybill .. => .inl (execUsbWaybill_keeps h ..)
  | .ppsEdge .. => .inl (execPpsEdge_keeps h ..)
  | .timeRxSentence .. => .inl (execTimeRxSentence_keeps h ..)
  | .tamperTrigger .. => .inl (execTamperTrigger_keeps h ..)
  | .journalCommit => .inl (execJournalCommit_keeps h)
  | .mapCheckpoint => .inl (execMapCheckpoint_keeps h)
  | .foldBlock => .inl (execFoldBlock_keeps h)
  | .collectionJob => .inl (execCollectionJob_keeps h)
  | .blockEraseDone .. => .inl (execBlockEraseDone_keeps h ..)
  | .pageRead .. => .inl (execPageRead_keeps h ..)
  | .programFail .. => .inl (execProgramFail_keeps h ..)
  | .eraseFail .. => .inl (execEraseFail_keeps h ..)
  | .dieFail .. => .inl (execDieFail_keeps h ..)
  | .stoDieCtlFail .. => .inl (execStoDieCtlFail_keeps h ..)
  | .throttleTimeout => .inl (execThrottleTimeout_keeps h)
  | .scrub .. => .inl (execScrub_keeps h ..)
  | .queuePush .. => .inl (execQueuePush_keeps h ..)
  | .queuePop .. => .inl (execQueuePop_keeps h ..)
  | .arbDraw .. => .inl (execArbDraw_keeps h ..)
  | .arbRelease => .inl (execArbRelease_keeps h)
  | .arbSeed .. => .inl (execArbSeed_keeps h ..)
  | .freeze .. => .inl (execFreeze_keeps h ..)
  | .eventPost => .inl (execEventPost_keeps h)
  | .eventWindowExpiry => .inl (execEventWindowExpiry_keeps h)
  | .eventDrop => .inl (execEventDrop_keeps h)
  | .operatingSecond => .inl (execOperatingSecond_keeps h)
  | .zeroise .. => .inl (execZeroise_keeps h ..)
  | .zeroiseArm .. => .inl (execZeroiseArm_keeps h ..)
  | .zeroiseGo .. => .inl (execZeroiseGo_keeps h ..)
  | .hssTreeJob .. => .inl (execHssTreeJob_keeps h ..)
  | .rngHealthFail => .inl (execRngHealthFail_keeps h)
  | .keycacheResize .. => .inl (execKeycacheResize_keeps h ..)
  | .activationRestart => .inl (execActivationRestart_keeps h)
  | .trialConfirmation => .inl (execTrialConfirmation_keeps h)
  | .confirm .. => .inl (execConfirm_keeps h ..)
  | .trialTimeout => .inl (execTrialTimeout_keeps h)
  | .campaignBegin .. => .inl (execCampaignBegin_keeps h ..)
  | .carouselSegment .. => .inl (execCarouselSegment_keeps h ..)
  | .fwStatus => .inl (execFwStatus_keeps h)
  | .campaignEnd .. => .inl (execCampaignEnd_keeps h ..)
  | .pairLinkUp .. => .inl (execPairLinkUp_keeps h ..)
  | .laneChange .. => .inl (execLaneChange_keeps h ..)
  | .ledgerEntry .. => .inl (execLedgerEntry_keeps h ..)
  | .digestCompare .. => .inl (execDigestCompare_keeps h ..)
  | .selfCheckResult .. => .inl (execSelfCheckResult_keeps h ..)
  | .commonCheckpoint => .inl (execCommonCheckpoint_keeps h)
  | .resynchronisation p n k b => .inr (.inr (.inr (.inl ⟨p, n, k, b, rfl⟩)))
  | .roleDecision .. => .inl (execRoleDecision_keeps h ..)
  | .deadman => .inl (execDeadman_keeps h)
  | .takeover => .inl (execTakeover_keeps h)
  | .dualYield => .inl (execDualYield_keeps h)
  | .resync .. => .inl (execResync_keeps h ..)
  | .leave .. => .inl (execLeave_keeps h ..)
  | .supplyChange .. => .inl (execSupplyChange_keeps h ..)
  | .holdupStart .. => .inl (execHoldupStart_keeps h ..)
  | .save .. => .inl (execSave_keeps h ..)
  | .saveCutoff .. => .inl (execSaveCutoff_keeps h ..)
  | .powerOn => .inl (execPowerOn_keeps h)
  | .powerOnReset => .inl (execPowerOnReset_keeps h)
  | .pinReset => .inl (execPinReset_keeps h)
  | .clockFault => .inl (execClockFault_keeps h)
  | .fullStart i => .inr (.inr (.inl ⟨i, rfl⟩))
  | .warmRestart => .inl (execWarmRestart_keeps h)
  | .timeStep .. => .inl (execTimeStep_keeps h ..)
  | .timeQualityChange => .inl (execTimeQualityChange_keeps h)
  | .rtcCompare .. => .inl (execRtcCompare_keeps h ..)
  | .vcoreEvaluation .. => .inl (execVcoreEvaluation_keeps h ..)
  | .nandBerEvaluation .. => .inl (execNandBerEvaluation_keeps h ..)
  | .dailyMeasurement .. => .inl (execDailyMeasurement_keeps h ..)
  | .capTest => .inl (execCapTest_keeps h)
  | .capTestNow .. => .inl (execCapTestNow_keeps h ..)
  | .capTestEnd .. => .inl (execCapTestEnd_keeps h ..)
  | .queueCheckpoint => .inl (execQueueCheckpoint_keeps h)
  | .coreLost .. => .inl (execCoreLost_keeps h ..)
  | .watchdogBite => .inl (execWatchdogBite_keeps h)
  | .watchdogHardReset .. => .inl (execWatchdogHardReset_keeps h ..)
  | .fatalError .. => .inl (execFatalError_keeps h ..)
  | .vbatLow .. => .inl (execVbatLow_keeps h ..)
  | .rngOutputResume => .inl (execRngOutputResume_keeps h)
  | .portLink .. => .inl (execPortLink_keeps h ..)
  | .routeWaitExpiry .. => .inl (execRouteWaitExpiry_keeps h ..)
  | .waitingTransmissionStart => .inl (execWaitingTransmissionStart_keeps h)
  | .balBacklog => .inl (execBalBacklog_keeps h)

/-- Every command ends in a next state, one that follows from the state it began in. -/
theorem exec_moves (c : Instr) (s : State) : Moves s (exec c s) := by
  have h := Follows.refl s
  rcases exec_ends_or (Keeps.refl s) c with
    ⟨t, e, g⟩ | ⟨i, rfl⟩ | ⟨i, rfl⟩ | ⟨p, n, k, b, rfl⟩ | rfl | ⟨l, k, rfl⟩
  · exact ⟨t, e, g.toFollows⟩
  · exact execPaceBoundary_follows h i
  · exact execFullStart_follows h i
  · exact execResynchronisation_follows h p n k b
  · exact execCommitCheck_follows h
  · obtain ⟨t, e, g⟩ := execApplyScheduledImage_runs (Runs.refl s) l k
    exact ⟨t, e, g.toFollows⟩

theorem exec_regs_wf {c : Instr} {s t : State} (h : exec c s = .next t) (hs : s.regs.wf = true) : t.regs.wf = true := by
  obtain ⟨u, e, g⟩ := exec_moves c s
  rw [e] at h
  cases h
  exact g.regs hs

/-- What a step can do: a quantum passes, or the command at the front of the queue runs. -/
theorem step_cases {s t : State} (h : step s = .next t) :
    s.pending = [] ∧ t = s.quantumPasses ∨ ∃ c rest, s.pending = c :: rest ∧ exec c { s with pending := rest } = .next t := by
  unfold step at h
  split at h
  case h_1 e =>
    cases h
    exact .inl ⟨e, rfl⟩
  case h_2 c rest e => exact .inr ⟨c, rest, e, h⟩

/-- Settles O3: a quantum leaves the registers alone, and every command keeps their canonical form. -/
theorem stepKeepsRegisterInvariant : Obligations.StepKeepsRegisterInvariant := by
  intro s t hs h
  rcases step_cases h with ⟨-, rfl⟩ | ⟨c, rest, -, h⟩
  · exact hs
  · exact exec_regs_wf h hs

end Sys2Proof.Machine

/-! The register file as a whole: what it holds after a write, and after reset. -/

namespace Sys2Proof.Machine

/-- A stored register has no reserved bit (R6). -/
theorem RegFile.get_and_fieldMask {m : RegFile} {a : Nat} {r : RegSpec} (h : m.wf = true) (hr : findReg a = some r) :
    m.get a &&& r.fieldMask = m.get a := by
  have e := RegFile.get_put_same (m.get a) h hr
  rw [RegFile.put_get a h] at e
  exact e.symm

/-- Nothing is held where there is no register (R442). -/
theorem RegFile.get_absent {m : RegFile} {a : Nat} (h : m.wf = true) (hr : findReg a = none) : m.get a = 0 := by
  have hf : Map.find m a = none := by
    by_contra hne
    obtain ⟨w, hw⟩ := Option.ne_none_iff_exists'.mp hne
    obtain ⟨r, e, -⟩ := RegFile.wf_entry h (Map.mem_of_find hw)
    exact absurd (hr.symm.trans e) (Option.some_ne_none r).symm
  simp [RegFile.get, Map.findD, hf, resetAt, hr]

/-- Settles O8, from the laws of the register file. -/
theorem registerReadsBackWhatIsWritten : Obligations.RegisterReadsBackWhatIsWritten := by
  intro m a w h
  refine ⟨RegFile.put_wf a w h, fun r hr => RegFile.get_put_same w h hr, RegFile.put_absent w,
    fun b hb => RegFile.get_put_other w hb, RegFile.put_get a h, fun r hr => ?_, RegFile.get_absent h⟩
  rw [← RegFile.get_and_fieldMask h hr, BitVec.and_assoc, BitVec.and_not_self]
  exact BitVec.and_zero

/-- FWU_SLOT_STAT, the states of the main image slots. -/
theorem findReg_slotStat :
    findReg R.FWU_SLOT_STAT = some ⟨R.FWU_SLOT_STAT, [], false, [⟨7, 4, .RO, 0, .all⟩, ⟨3, 0, .RO, 0, .all⟩]⟩ := by
  decide +kernel

/-- A good firmware image stands in slot A of the device as delivered (log 147). -/
theorem reset_slotStat : State.reset.regs.get R.FWU_SLOT_STAT = 1 := by decide +kernel

/-- Refutes O2: FWU_SLOT_STAT reads 1 in `State.reset`, while the reset value of the register is 0. -/
theorem not_resetHoldsResetValues : ¬ Obligations.ResetHoldsResetValues := by
  intro ⟨_, _, _, _, _, hreset, _⟩
  have e := hreset _ _ findReg_slotStat
  rw [reset_slotStat] at e
  exact absurd e (by decide)

end Sys2Proof.Machine

/-! What a write holds outside the fields of its register has no effect (R6), and a write that is refused whole has none
at all (R9, R50, R442). -/

namespace Sys2Proof.Machine

/-- The word lies within the fields of the register. -/
def RegSpec.Covers (r : RegSpec) (w : Word) : Prop := w &&& r.fieldMask = w

theorem RegSpec.Covers.zero (r : RegSpec) : r.Covers 0 := BitVec.zero_and

theorem RegSpec.Covers.or {r : RegSpec} {v w : Word} (hv : r.Covers v) (hw : r.Covers w) : r.Covers (v ||| w) := by
  unfold RegSpec.Covers at *
  rw [BitVec.and_or_distrib_right, hv, hw]

theorem RegSpec.Covers.and {r : RegSpec} {v : Word} (hv : r.Covers v) (w : Word) : r.Covers (v &&& w) := by
  unfold RegSpec.Covers at *
  rw [BitVec.and_assoc, BitVec.and_comm w, ← BitVec.and_assoc, hv]

/-- A word cut to the fields of the register shows the same bits within them. -/
theorem RegSpec.Covers.cut {r : RegSpec} {w : Word} (h : r.Covers w) (v : Word) : v &&& r.fieldMask &&& w = v &&& w := by
  rw [BitVec.and_assoc, BitVec.and_comm r.fieldMask, h]

theorem RegSpec.Covers.foldl {r : RegSpec} {β : Type} {l : List β} {g : Word → β → Word}
    (hg : ∀ m, r.Covers m → ∀ x ∈ l, r.Covers (g m x)) : r.Covers (l.foldl g 0) :=
  List.foldlRecOn l g (.zero r) hg

theorem getLsbD_foldl_or (l : List FieldSpec) (m : Word) (i : Nat) :
    (l.foldl (fun m f => m ||| f.mask) m).getLsbD i = (m.getLsbD i || l.any fun f => f.mask.getLsbD i) := by
  induction l generalizing m with
  | nil => simp
  | cons f l ih => simp [ih, Bool.or_assoc]

theorem RegSpec.covers_mask {r : RegSpec} {f : FieldSpec} (hf : f ∈ r.fields) : r.Covers f.mask := by
  refine BitVec.eq_of_getLsbD_eq fun i _ => ?_
  rw [BitVec.getLsbD_and, Bool.and_eq_left_iff_imp]
  intro hi
  unfold RegSpec.fieldMask
  rw [getLsbD_foldl_or, List.any_eq_true.mpr ⟨f, hf, hi⟩, Bool.or_true]

theorem RegSpec.covers_bits (r : RegSpec) (p : Access → Bool) : r.Covers (r.bits p) := by
  refine RegSpec.Covers.foldl fun m hm f hf => ?_
  split
  · exact hm.or (RegSpec.covers_mask hf)
  · exact hm

theorem RegSpec.covers_storable (r : RegSpec) : r.Covers r.storable := r.covers_bits _

theorem FieldSpec.mask_getLsbD (f : FieldSpec) {i : Nat} (h : i < f.hi - f.lo + 1) (h32 : f.lo + i < 32) :
    f.mask.getLsbD (f.lo + i) = true := by
  unfold FieldSpec.mask
  simp [BitVec.getLsbD_ofNat, h32, Nat.testBit_mul_two_pow, Nat.testBit_two_pow_sub_one, h]

/-- A field of a word, or a part of it from its lowest bit on, reads the same after the word is cut to the fields. -/
theorem fieldOf_cut {r : RegSpec} {f : FieldSpec} (hf : f ∈ r.fields) (v : Word) {hi : Nat} (h : hi - f.lo ≤ f.hi - f.lo) :
    fieldOf (v &&& r.fieldMask) hi f.lo = fieldOf v hi f.lo := by
  refine Nat.eq_of_testBit_eq fun i => ?_
  rw [fieldOf_testBit, fieldOf_testBit]
  by_cases hin : i < hi - f.lo + 1 ∧ f.lo + i < 32
  · have hm := FieldSpec.mask_getLsbD f (i := i) (by omega) hin.2
    have hr : r.fieldMask.getLsbD (f.lo + i) = true := by
      rw [← RegSpec.covers_mask hf, BitVec.getLsbD_and, Bool.and_eq_true] at hm
      exact hm.2
    rw [BitVec.getLsbD_and, hr, Bool.and_true]
  · rcases not_and_or.mp hin with h1 | h1
    · simp [h1]
    · rw [BitVec.getLsbD_of_ge _ _ (not_lt.mp h1), BitVec.getLsbD_of_ge _ _ (not_lt.mp h1)]

theorem mergeWord_cut {r : RegSpec} {mask : Word} (h : r.Covers mask) (old value : Word) :
    mergeWord old (value &&& r.fieldMask) mask = mergeWord old value mask := by
  unfold mergeWord
  rw [h.cut]

theorem State.fieldCause_cut (s : State) (who : Requester) (addr : Nat) {r : RegSpec} (value mask : Word) {f : FieldSpec}
    (hf : f ∈ r.fields) :
    s.fieldCause who addr r (value &&& r.fieldMask) (mask &&& r.fieldMask) f = s.fieldCause who addr r value mask f := by
  have hs : r.Covers (mask &&& r.storable) := by
    rw [BitVec.and_comm]
    exact r.covers_storable.and mask
  have hstart : f.lo = 8 → fieldOf (value &&& r.fieldMask) 8 8 = fieldOf value 8 8 := fun e => by
    have := fieldOf_cut hf value (hi := 8) (by omega)
    rwa [e] at this
  unfold State.fieldCause
  rw [r.covers_storable.cut, mergeWord_cut hs, ← BitVec.and_assoc,
    BitVec.and_assoc _ r.fieldMask, BitVec.and_comm r.fieldMask, RegSpec.covers_mask hf]
  by_cases e : f.lo = 8
  · rw [hstart e]
  · simp [e]

/-- The fields that a write selects, each with what it meets (R443): a part of `writeFields`. -/
def State.judged (s : State) (who : Requester) (addr : Nat) (value mask : Word) (r : RegSpec) : List (FieldSpec × Nat) :=
  (r.fields.filter fun f => (mask &&& f.mask) != 0 && f.acc != .RO && f.acc != .ROS && f.acc != .RC).map fun f =>
    (f, s.fieldCause who addr r value mask f)

/-- The bits of a write in the fields of an access that take it: a part of `writeFields`. -/
def takenBits (judged : List (FieldSpec × Nat)) (mask : Word) (p : Access → Bool) : Word :=
  judged.foldl (fun m e => if p e.1.acc && e.2 == 0 then m ||| (e.1.mask &&& mask) else m) 0

/-- A write by the fields that it selects and the bits that these take. -/
theorem State.writeFields_eq (s : State) (who : Requester) (addr : Nat) (value mask : Word) (r : RegSpec) :
    s.writeFields who addr value mask r =
      let l := s.judged who addr value mask r
      let bits := takenBits l mask
      if l.any (fun e => e.2 != 0) && rejectedWhole addr then (s, firstCause r.fields (l.map fun e => (e.1.lo, e.2)))
      else
        let old := s.regs.get addr
        let new := mergeWord old value (bits fun a => a == .RW) &&& ~~~ (value &&& bits fun a => a == .W1C)
        let s1 := { s with regs := s.regs.put addr new }
        let s2 := if (bits fun a => a == .RWS) = 0 then s1 else s1.stageBits addr (bits fun a => a == .RWS) value
        let s3 := if (bits fun a => a == .RW) = 0 then s2 else s2.afterWrite addr old
        let wo := (l.filter fun e => e.1.acc == .WO && e.2 == 0).map fun e => e.1
        let a := s3.runTriggers who addr (value &&& mask) (triggerOrder addr wo)
        (a.1, firstCause r.fields (a.2 ++ (l.filter fun e => !(e.1.acc == .WO && e.2 == 0)).map fun e => (e.1.lo, e.2))) :=
  rfl

theorem State.judged_cut (s : State) (who : Requester) (addr : Nat) (value mask : Word) (r : RegSpec) :
    s.judged who addr (value &&& r.fieldMask) (mask &&& r.fieldMask) r = s.judged who addr value mask r := by
  unfold State.judged
  rw [List.filter_congr fun f hf => by rw [(RegSpec.covers_mask hf).cut]]
  exact List.map_congr_left fun f hf => by rw [s.fieldCause_cut who addr value mask (List.mem_of_mem_filter hf)]

theorem State.mem_fields_of_judged {s : State} {who : Requester} {addr : Nat} {value mask : Word} {r : RegSpec}
    {e : FieldSpec × Nat} (h : e ∈ s.judged who addr value mask r) : e.1 ∈ r.fields := by
  obtain ⟨f, hf, rfl⟩ := List.mem_map.mp h
  exact List.mem_of_mem_filter hf

section
variable {r : RegSpec} {l : List (FieldSpec × Nat)} (hl : ∀ e ∈ l, e.1 ∈ r.fields)
include hl

theorem covers_takenBits (mask : Word) (p : Access → Bool) : r.Covers (takenBits l mask p) := by
  refine RegSpec.Covers.foldl fun m hm e he => ?_
  split
  · exact hm.or ((RegSpec.covers_mask (hl e he)).and mask)
  · exact hm

theorem takenBits_cut (mask : Word) : takenBits l (mask &&& r.fieldMask) = takenBits l mask := by
  funext p
  refine List.foldl_ext _ _ _ fun m e he => ?_
  rw [BitVec.and_comm, (RegSpec.covers_mask (hl e he)).cut, BitVec.and_comm]

end

theorem State.stageBits_cut (s : State) (addr : Nat) {r : RegSpec} {mask : Word} (h : r.Covers mask) (value : Word) :
    s.stageBits addr mask (value &&& r.fieldMask) = s.stageBits addr mask value := by
  unfold State.stageBits
  rw [h.cut]

theorem mem_triggerOrder {addr : Nat} {l : List FieldSpec} {f : FieldSpec} : f ∈ triggerOrder addr l ↔ f ∈ l := by
  unfold triggerOrder
  split
  · exact List.mem_reverse
  · rfl

theorem State.runTriggers_cut (s : State) (who : Requester) (addr : Nat) (sel : Word) {r : RegSpec} {l : List FieldSpec}
    (hl : ∀ f ∈ l, f ∈ r.fields) :
    s.runTriggers who addr (sel &&& r.fieldMask) l = s.runTriggers who addr sel l := by
  refine List.foldl_ext _ _ _ fun a f hf => ?_
  rw [fieldOf_cut (hl f hf) sel le_rfl]

/-- A write takes from its value and its mask the bits in the fields of the register alone (R6). -/
theorem State.writeFields_cut (s : State) (who : Requester) (addr : Nat) (value mask : Word) (r : RegSpec) :
    s.writeFields who addr (value &&& r.fieldMask) (mask &&& r.fieldMask) r = s.writeFields who addr value mask r := by
  have hl : ∀ e ∈ s.judged who addr value mask r, e.1 ∈ r.fields := fun e => State.mem_fields_of_judged
  have hbits := covers_takenBits hl mask
  have hwo : ∀ f ∈ triggerOrder addr
      (((s.judged who addr value mask r).filter fun e => e.1.acc == .WO && e.2 == 0).map fun e => e.1), f ∈ r.fields := by
    intro f hf
    obtain ⟨e, he, rfl⟩ := List.mem_map.mp (mem_triggerOrder.mp hf)
    exact hl e (List.mem_of_mem_filter he)
  have hsel : value &&& r.fieldMask &&& (mask &&& r.fieldMask) = value &&& mask &&& r.fieldMask := by
    rw [BitVec.and_comm mask, ← BitVec.and_assoc, BitVec.and_assoc value, BitVec.and_self, BitVec.and_assoc value,
      BitVec.and_comm r.fieldMask, ← BitVec.and_assoc]
  simp only [State.writeFields_eq, s.judged_cut, takenBits_cut hl, mergeWord_cut (hbits _), (hbits _).cut,
    State.stageBits_cut _ addr (hbits _), hsel, State.runTriggers_cut _ who addr _ hwo]

theorem State.writeReg_of_refused {s : State} {who : Requester} {addr : Nat} (value mask : Word)
    (h : s.writeRefused who addr ≠ Cause.OK) : s.writeReg who addr value mask = (s, s.writeRefused who addr) := by
  unfold State.writeReg
  split
  · rfl
  · exact if_neg h

theorem State.writeReg_cut (s : State) (who : Requester) {addr : Nat} (value mask : Word) {r : RegSpec}
    (hr : findReg addr = some r) :
    s.writeReg who addr value mask = s.writeReg who addr (value &&& r.fieldMask) (mask &&& r.fieldMask) := by
  simp only [State.writeReg, hr, s.writeFields_cut]

/-- The checks of a write to a register, in their order. -/
theorem State.writeRefused_of_findReg (s : State) (who : Requester) {addr : Nat} {r : RegSpec} (hr : findReg addr = some r) :
    s.writeRefused who addr =
      if !s.mayAct who 1 || ((addr == R.SYS_STAGE_LOCK || addr == R.SYS_COMMIT) && !s.mayAct who 2) then Cause.RIGHTS
      else if !s.mayWriteBlock who addr then Cause.REG_BLOCK
      else if r.fields.all fun f => f.acc == .RO || f.acc == .ROS || f.acc == .RC then Cause.REG_ACCESS
      else Cause.OK := by
  simp only [State.writeRefused, hr]

/-- Settles O9, from the order of the checks and the cut of a write to its register's fields. -/
theorem refusedWritesAndReservedBitsHaveNoEffect : Obligations.RefusedWritesAndReservedBitsHaveNoEffect := by
  intro s who addr value mask
  refine ⟨State.writeReg_of_refused value mask, fun hr => ?_, fun r hr => ⟨s.writeReg_cut who value mask hr, ?_⟩⟩
  · simp only [State.writeRefused, hr]
  · rw [s.writeRefused_of_findReg who hr]
    refine ⟨fun h1 => ?_, fun h1 h2 hb => ?_, fun h1 h2 hb => ?_⟩
    · simp [h1]
    · simp [h1, h2, hb]
    · simp [h1, h2, hb]

end Sys2Proof.Machine

/-! The registers of the hardware queues as arrays (R318, R442). -/

namespace Sys2Proof.Machine

/-- Whether bits `hi` to `lo` lie in fields of the register. -/
def RegSpec.spans (r : RegSpec) (hi lo : Nat) : Bool :=
  decide (lo ≤ hi) && decide (hi < 32) &&
    (List.range 32).all fun i => !(decide (lo ≤ i) && decide (i ≤ hi)) || r.fieldMask.getLsbD i

theorem FieldRef.ok_of_spans {f : FieldRef} {r : RegSpec} (hr : findReg f.addr = some r) (h : r.spans f.hi f.lo = true) :
    f.ok = true := by
  unfold FieldRef.ok
  rw [hr]
  exact h

/-- An address past the last element of an array is none of its own (R442). -/
theorem RegSpec.hits_past {a n s x : Nat} (b : Bool) (l : List FieldSpec) (h : a + (n - 1) * s < x) :
    RegSpec.hits ⟨a, [(n, s)], b, l⟩ x = false := by
  by_contra hx
  simp only [RegSpec.hits, dimsHit, Bool.not_eq_false, Bool.and_eq_true, decide_eq_true_eq] at hx
  obtain ⟨hax, hdiv, hmod⟩ := hx
  have hle : (x - a) / s * s ≤ (n - 1) * s := Nat.mul_le_mul_right s (by omega)
  have hdm := Nat.div_add_mod' (x - a) s
  omega

/-- Element `q` of an array (R442). -/
theorem RegSpec.hits_element {a n s q : Nat} (b : Bool) (l : List FieldSpec) (hs : 0 < s) (h : q < n) :
    RegSpec.hits ⟨a, [(n, s)], b, l⟩ (a + s * q) = true := by
  simp [RegSpec.hits, dimsHit, Nat.mul_div_cancel_left q hs, h]

/-- The register found is the first of its block that holds the address. -/
theorem findReg_at {a b : Nat} {l l' : List RegSpec} {r : RegSpec} (hb : a / 0x10000 = b) (hl : blockRegs b = l ++ r :: l')
    (h : ∀ x ∈ l, x.hits a = false) (hr : r.hits a = true) : findReg a = some r := by
  unfold findReg
  rw [hb, hl, List.find?_append, List.find?_eq_none.mpr (by simpa using h), Option.none_or, List.find?_cons_of_pos (by exact hr)]

section
variable {q : Nat} (h : q < 512)
include h

theorem findReg_queStat : findReg (R.QUE_STAT q) = regsQUE[0]? :=
  findReg_at (l := []) (b := 14) (by unfold R.QUE_STAT; omega) rfl (by simp) (RegSpec.hits_element _ _ (by decide) h)

theorem findReg_queWptr : findReg (R.QUE_WPTR q) = regsQUE[1]? := by
  refine findReg_at (l := regsQUE.take 1) (b := 14) (by unfold R.QUE_WPTR; omega) rfl ?_ (RegSpec.hits_element _ _ (by decide) h)
  simp (disch := omega) [regsQUE, R.QUE_WPTR, RegSpec.hits_past]

theorem findReg_queRptr : findReg (R.QUE_RPTR q) = regsQUE[2]? := by
  refine findReg_at (l := regsQUE.take 2) (b := 14) (by unfold R.QUE_RPTR; omega) rfl ?_ (RegSpec.hits_element _ _ (by decide) h)
  simp (disch := omega) [regsQUE, R.QUE_RPTR, RegSpec.hits_past]

theorem findReg_queErr : findReg (R.QUE_ERR_CNT q) = regsQUE[5]? := by
  refine findReg_at (l := regsQUE.take 5) (b := 14) (by unfold R.QUE_ERR_CNT; omega) rfl ?_ (RegSpec.hits_element _ _ (by decide) h)
  simp (disch := omega) [regsQUE, R.QUE_ERR_CNT, RegSpec.hits_past]
end

end Sys2Proof.Machine

/-! What a queue and its registers hold after it is written (R318, R319). -/

namespace Sys2Proof

open Machine

/-- Writing a queue changes its status and its pointers alone. -/
theorem onlyRegs_setQueue (s : State) (q l : Nat) (h : HwQueue) :
    OnlyRegs [R.QUE_STAT q, R.QUE_WPTR q, R.QUE_RPTR q] s (s.setQueue q l h) :=
  ((((((OnlyRegs.refl _ s).flag (f := F.QUE_STAT.EMPTY q) _ (by simp [F.QUE_STAT.EMPTY])).flag (f := F.QUE_STAT.FULL q) _
    (by simp [F.QUE_STAT.FULL])).setF (f := F.QUE_STAT.FILL q) _ (by simp [F.QUE_STAT.FILL])).setF (f := F.QUE_WPTR.WPTR q) _
    (by simp [F.QUE_WPTR.WPTR])).setF (f := F.QUE_RPTR.RPTR q) _ (by simp [F.QUE_RPTR.RPTR]))

/-- A field of a register that is not listed reads as before. -/
theorem OnlyRegs.fld {L : List Nat} {s t : State} (h : OnlyRegs L s t) {f : FieldRef} (hf : f.addr ∉ L) : t.fld f = s.fld f := by
  rw [State.fld_eq, State.fld_eq, RegFile.fld, RegFile.fld, h _ hf]

theorem OnlyRegs.mono {L M : List Nat} {s t : State} (h : OnlyRegs L s t) (hs : L ⊆ M) : OnlyRegs M s t :=
  fun a ha => h a fun hl => ha (hs hl)

theorem OnlyRegs.poisoned {L : List Nat} {s t : State} {q : Nat} (h : OnlyRegs L s t) (a : Nat) (h0 : R.QUE_STAT q ∈ L)
    (h1 : R.QUE_ERR_CNT q ∈ L) : OnlyRegs L s (t.poisoned q a) :=
  ((h.bump (f := F.QUE_ERR_CNT.POISON q) 1 h1).flag (f := F.QUE_STAT.POISON_SEEN q) true h0).post _ _

end Sys2Proof

namespace Sys2Proof.Machine

/-- A write of a field leaves every other register alone. -/
theorem RegFile.fld_setF_reg (m : RegFile) {f g : FieldRef} (v : Nat) (h : g.addr ≠ f.addr) : (m.setF f v).fld g = m.fld g := by
  simp [RegFile.fld, RegFile.setF, RegFile.get_put_other _ h]

/-- A pointer of a queue of at most 2^16 words fits its register. -/
theorem queuePointer_mod {l : Nat} (hl : l ≤ 16) (n : Nat) : n % 2 ^ (l + 1) % 2 ^ 17 = n % 2 ^ (l + 1) :=
  Nat.mod_eq_of_lt (lt_of_lt_of_le (Nat.mod_lt _ (by positivity)) (Nat.pow_le_pow_right (by decide) (Nat.succ_le_succ hl)))

/-- The registers of one queue stand in this order. -/
theorem queueRegs_lt (q : Nat) :
    R.QUE_STAT q < R.QUE_WPTR q ∧ R.QUE_WPTR q < R.QUE_RPTR q ∧ R.QUE_RPTR q < R.QUE_ERR_CNT q := by
  unfold R.QUE_STAT R.QUE_WPTR R.QUE_RPTR R.QUE_ERR_CNT
  omega

/-- QUE_STAT of a queue that holds `n` words: a part of `setQueue`. -/
def queueStat (m : RegFile) (q l n : Nat) : RegFile :=
  ((m.flag (F.QUE_STAT.EMPTY q) (n == 0)).flag (F.QUE_STAT.FULL q) (decide (2 ^ l ≤ n))).setF (F.QUE_STAT.FILL q) n

theorem queueStat_wf {m : RegFile} (q l n : Nat) (hm : m.wf = true) : (queueStat m q l n).wf = true :=
  RegFile.setF_wf _ _ (RegFile.flag_wf _ _ (RegFile.flag_wf _ _ hm))

section
variable {m : RegFile} {q : Nat} (l n : Nat) (hm : m.wf = true) (hq : q < 512)
include hm hq

theorem fld_queueStat_full : (queueStat m q l n).fld (F.QUE_STAT.FULL q) = if 2 ^ l ≤ n then 1 else 0 := by
  have hok := FieldRef.ok_of_spans (f := F.QUE_STAT.FULL q) (findReg_queStat hq) rfl
  have hw := RegFile.flag_wf (F.QUE_STAT.EMPTY q) (n == 0) hm
  refine (RegFile.fld_setF_other _ (RegFile.flag_wf _ _ hw) (FieldRef.ok_of_spans (findReg_queStat hq) rfl) hok
    (by simp [FieldRef.apart, F.QUE_STAT.FULL, F.QUE_STAT.FILL])).trans ?_
  simp [RegFile.fld_flag_same _ hw hok]

theorem fld_queueStat_empty : (queueStat m q l n).fld (F.QUE_STAT.EMPTY q) = if n = 0 then 1 else 0 := by
  have hok := FieldRef.ok_of_spans (f := F.QUE_STAT.EMPTY q) (findReg_queStat hq) rfl
  have hw := RegFile.flag_wf (F.QUE_STAT.EMPTY q) (n == 0) hm
  refine (RegFile.fld_setF_other _ (RegFile.flag_wf _ _ hw) (FieldRef.ok_of_spans (findReg_queStat hq) rfl) hok
    (by simp [FieldRef.apart, F.QUE_STAT.EMPTY, F.QUE_STAT.FILL])).trans ?_
  refine (RegFile.fld_setF_other _ hw (FieldRef.ok_of_spans (findReg_queStat hq) rfl) hok
    (by simp [FieldRef.apart, F.QUE_STAT.EMPTY, F.QUE_STAT.FULL])).trans ?_
  simp [RegFile.fld_flag_same _ hm hok]

end

section
variable {s : State} {q l : Nat} {h : HwQueue}

@[simp] theorem State.queue_setQueue_same : (s.setQueue q l h).queue q = h := Map.findD_set_same ..

theorem State.queue_setQueue_other {k : Nat} (hk : k ≠ q) : (s.setQueue q l h).queue k = s.queue k :=
  Map.findD_set_other _ _ hk

theorem State.setQueue_regs : (s.setQueue q l h).regs =
    ((queueStat s.regs q l h.words.length).setF (F.QUE_WPTR.WPTR q) (h.wptr l)).setF (F.QUE_RPTR.RPTR q) h.rptr := rfl

/-- QUE_STAT after a queue is written: the pointers are other registers. -/
theorem State.fld_setQueue_stat {f : FieldRef} (hf : f.addr = R.QUE_STAT q) :
    (s.setQueue q l h).fld f = (queueStat s.regs q l h.words.length).fld f := by
  obtain ⟨h1, h2, -⟩ := queueRegs_lt q
  rw [State.fld_eq, State.setQueue_regs, RegFile.fld_setF_reg _ _ (hf.trans_ne (h1.trans h2).ne),
    RegFile.fld_setF_reg _ _ (hf.trans_ne h1.ne)]

section
variable (hs : s.regs.wf = true) (hq : q < 512)
include hs hq

theorem State.fld_setQueue_rptr : (s.setQueue q l h).fld (F.QUE_RPTR.RPTR q) = h.rptr % 2 ^ 17 :=
  RegFile.fld_setF_same _ (RegFile.setF_wf _ _ (queueStat_wf q l _ hs)) (FieldRef.ok_of_spans (findReg_queRptr hq) rfl)

theorem State.fld_setQueue_wptr (hl : l ≤ 16) : (s.setQueue q l h).fld (F.QUE_WPTR.WPTR q) = h.wptr l := by
  rw [State.fld_eq, State.setQueue_regs, RegFile.fld_setF_reg _ _ (queueRegs_lt q).2.1.ne,
    RegFile.fld_setF_same _ (queueStat_wf q l _ hs) (FieldRef.ok_of_spans (findReg_queWptr hq) rfl)]
  exact queuePointer_mod hl _

end
end

/-! What a push and a pop do in each of their cases (R318 to R321). -/

/-- A queue takes a push but during SAVE. -/
theorem State.queueClosed_of_running {s : State} (e : QueueEntry) (h : s.power.phase ≠ .save) : s.queueClosed e = false := by
  simp [State.queueClosed, h]

/-- A power of two has one bit set. -/
theorem ones65_two_pow {i : Nat} (hi : i < 65) : ones65 (BitVec.ofNat 65 (2 ^ i)) = 1 := by
  have hb : ∀ j ∈ List.range 65, (BitVec.ofNat 65 (2 ^ i)).getLsbD j = (j == i) := fun j hj => by
    rw [BitVec.getLsbD_ofNat, decide_eq_true (List.mem_range.mp hj), Nat.testBit_two_pow, Bool.true_and, beq_eq_decide]
    exact decide_eq_decide.mpr eq_comm
  unfold ones65
  rw [List.filter_congr hb, List.filter_beq, List.length_replicate, List.count_eq_one_of_mem List.nodup_range (List.mem_range.mpr hi)]

/-- The queue after its oldest word is popped. -/
theorem HwQueue.popped_one {h : HwQueue} {w : QueueWord} {l : List QueueWord} (hw : h.words = w :: l) (d : Nat) :
    h.popped d 1 = ⟨l, (h.rptr + 1) % 2 ^ (d + 1)⟩ := by
  simp [HwQueue.popped, hw]

section
variable {s : State} {q : Nat} {e : QueueEntry} (he : s.queueEntry q = some e)
include he

theorem exec_queuePush_ignored (w : BitVec 64) (h : s.queueClosed e = true ∨ q = 0) : exec (.queuePush q w) s = .next s := by
  simp only [exec, execQueuePush, he]
  rw [if_pos h]

section
variable (w : BitVec 64) (h0 : q ≠ 0) (hp : s.power.phase ≠ .save)
include h0 hp

theorem exec_queuePush_stored (hl : (s.queue q).words.length < 2 ^ e.depthLog2) :
    exec (.queuePush q w) s = .next (s.setQueue q e.depthLog2 ⟨(s.queue q).words ++ [⟨w, true⟩], (s.queue q).rptr⟩) := by
  simp only [exec, execQueuePush, he]
  rw [if_neg (by simp [State.queueClosed_of_running e hp, h0]), if_neg (not_le.mpr hl)]

theorem exec_queuePush_full (hl : 2 ^ e.depthLog2 ≤ (s.queue q).words.length) : exec (.queuePush q w) s =
    .next (((s.flag (F.QUE_STAT.OVERRUN_SEEN q) true).bump (F.QUE_ERR_CNT.OVERRUN q)).post Ev.QUE_OVERRUN [b2 q]) := by
  simp only [exec, execQueuePush, he]
  rw [if_neg (by simp [State.queueClosed_of_running e hp, h0]), if_pos hl]
  rfl

end

theorem exec_queuePop_empty (v : BitVec 65) (hw : (s.queue q).words = []) : exec (.queuePop q v) s = .next (s.underrun q) := by
  simp only [exec, execQueuePop, he, hw]

section
variable {w : QueueWord} {l : List QueueWord} (hw : (s.queue q).words = w :: l) (hg : w.good = true)
include hw hg

theorem exec_queuePop_good : exec (.queuePop q 0) s = .next
    (((s.setQueue q e.depthLog2 ⟨l, ((s.queue q).rptr + 1) % 2 ^ (e.depthLog2 + 1)⟩).takeWord q w.data).send
      (.popped q w.data false false)) := by
  have h0 : ones65 0#65 = 0 := rfl
  simp [exec, execQueuePop, he, hw, hg, h0, HwQueue.popped_one hw]

theorem exec_queuePop_poisoned {i : Nat} (hi : i < 64) : exec (.queuePop q (BitVec.ofNat 65 (2 ^ i))) s = .next
    (((if q < 2 then s.poisonMessage q w.data
      else s.setQueue q e.depthLog2 ⟨l, ((s.queue q).rptr + 1) % 2 ^ (e.depthLog2 + 1)⟩).send
        (.popped q (w.data ^^^ BitVec.ofNat 64 (2 ^ i)) true false)).poisoned q
          (e.base + (s.queue q).rptr % 2 ^ e.depthLog2)) := by
  have h1 : ones65 (BitVec.ofNat 65 (2 ^ i)) = 1 := ones65_two_pow (by omega)
  have hd : (BitVec.ofNat 65 (2 ^ i)).setWidth 64 = BitVec.ofNat 64 (2 ^ i) :=
    BitVec.setWidth_ofNat_of_le (by decide) _
  simp only [exec, execQueuePop, he, hw, hg, h1, hd, HwQueue.popped_one hw]
  by_cases h2 : q < 2 <;> simp [h2, State.takeWord]

end
end

/-- What a queue pops reaches the log of outputs in every phase: it is no output of a port (R414). -/
theorem State.send_popped (s : State) (q : Nat) (w : BitVec 64) (a b : Bool) :
    s.send (.popped q w a b) = { s with out := s.out ++ [.popped q w a b] } := by
  simp [State.send, Output.inside, Output.hostVisible, Output.shared]

theorem State.poisoned_queue (s : State) (q a k : Nat) : (s.poisoned q a).queue k = s.queue k := rfl

section
variable {s : State} {q : Nat} (a : Nat) (hs : s.regs.wf = true) (hq : q < 512)
include hs hq

theorem State.fld_poisoned_seen : (s.poisoned q a).fld (F.QUE_STAT.POISON_SEEN q) = 1 :=
  RegFile.fld_flag_same _ (RegFile.bump_wf _ _ hs) (FieldRef.ok_of_spans (findReg_queStat hq) rfl)

theorem State.fld_poisoned_count :
    (s.poisoned q a).fld (F.QUE_ERR_CNT.POISON q) = min (s.fld (F.QUE_ERR_CNT.POISON q) + 1) 0xFFFF := by
  obtain ⟨h1, h2, h3⟩ := queueRegs_lt q
  refine (RegFile.fld_setF_reg _ _ (h1.trans (h2.trans h3)).ne').trans ?_
  exact RegFile.fld_bump_same _ hs (FieldRef.ok_of_spans (findReg_queErr hq) rfl)

end

/-- Settles O47: each case of a push and of a pop by its own equation, and the registers by the laws of `setQueue`. -/
theorem queuesDeliverWordsInOrder : Obligations.QueuesDeliverWordsInOrder := by
  intro q e s hs hq he hd
  obtain ⟨h1, h2, h3⟩ := queueRegs_lt q
  have hstat : ∀ f : FieldRef, f.addr = R.QUE_STAT q → regsQUE[0].spans f.hi f.lo = true → f.ok = true :=
    fun f ha hf => FieldRef.ok_of_spans (ha ▸ findReg_queStat hq) hf
  refine ⟨?_, ?_, ?_, ?_, ?_, ?_⟩
  · exact fun w h0 => exec_queuePush_ignored he w (.inr h0)
  · exact fun w hp hf => exec_queuePush_ignored he w (.inl (by simp [State.queueClosed, hp, hf]))
  · intro w h0 hp hl
    have hn : 2 ^ e.depthLog2 ≤ (s.queue q).words.length + 1 ↔ (s.queue q).words.length + 1 = 2 ^ e.depthLog2 := by omega
    refine ⟨_, exec_queuePush_stored he w h0 hp hl, State.queue_setQueue_same, ?_, ?_, ?_,
      fun k hk => State.queue_setQueue_other hk, onlyRegs_setQueue _ _ _ _, rfl⟩
    · rw [State.fld_setQueue_wptr hs hq hd]
      simp [HwQueue.wptr, Nat.add_assoc]
    · rw [State.fld_setQueue_stat rfl, fld_queueStat_empty _ _ hs hq]
      simp
    · rw [State.fld_setQueue_stat rfl, fld_queueStat_full _ _ hs hq]
      simp [hn]
  · intro w h0 hp hl
    have hne : R.QUE_STAT q ≠ R.QUE_ERR_CNT q := (h1.trans (h2.trans h3)).ne
    refine ⟨_, exec_queuePush_full he w h0 hp hl, ?_, ?_,
      (((OnlyRegs.refl _ s).flag _ (by simp [F.QUE_STAT.OVERRUN_SEEN])).bump _ (by simp [F.QUE_ERR_CNT.OVERRUN])).post _ _, rfl⟩
    · exact (RegFile.fld_setF_reg _ _ hne).trans (RegFile.fld_flag_same _ hs (hstat _ rfl rfl))
    · refine (RegFile.fld_bump_same _ (RegFile.flag_wf _ _ hs) (FieldRef.ok_of_spans (findReg_queErr hq) rfl)).trans ?_
      exact congrArg (fun n => min (n + 1) 0xFFFF) (RegFile.fld_setF_reg _ _ hne.symm)
  · intro w l hw hg
    refine ⟨⟨_, exec_queuePop_good he hw hg, ?_, ?_, State.queue_setQueue_same, ?_,
      fun k hk => State.queue_setQueue_other hk, onlyRegs_setQueue _ _ _ _, rfl⟩, ?_, ?_⟩
    · exact fun h => if_neg (by omega)
    · exact fun h => if_pos h
    · rw [State.fld_setQueue_rptr hs hq]
      exact queuePointer_mod hd _
    · intro i h2 hi
      rw [exec_queuePop_poisoned he hw hg hi, if_pos h2]
    · intro i hq1 hi
      refine ⟨_, exec_queuePop_poisoned he hw hg hi, ?_⟩
      rw [if_neg (by omega), State.send_popped]
      generalize hu : ({ s.setQueue q e.depthLog2 ⟨l, ((s.queue q).rptr + 1) % 2 ^ (e.depthLog2 + 1)⟩ with out := _ } : State) = u
      have hset : OnlyRegs _ s u := (onlyRegs_setQueue s q _ _).of_regs (by rw [← hu])
      have hwf : u.regs.wf = true := hu ▸ (State.setQueue_keeps (Keeps.refl s) q _ _).regs hs
      refine ⟨?_, State.fld_poisoned_seen _ hwf hq, by rw [← hu]; rfl, ?_, by rw [← hu]; rfl,
        (hset.mono (by simp)).poisoned _ (by simp) (by simp)⟩
      · rw [State.poisoned_queue, ← hu]
        exact Map.findD_set_same ..
      · rw [State.fld_poisoned_count _ hwf hq, hset.fld (by simp [F.QUE_ERR_CNT.POISON]; omega)]
  · intro hw v
    exact ⟨s.flag (F.QUE_STAT.UNDERRUN q) true, exec_queuePop_empty he v hw, State.fld_flag_same _ hs (hstat _ rfl rfl),
      (OnlyRegs.refl _ s).flag _ (by simp [F.QUE_STAT.UNDERRUN]), rfl⟩

end Sys2Proof.Machine

/-! What every start leaves alone from the loader on, and what a warm restart leaves alone as well: the shared operations
of the recorder, the notices, the queues and the storage (R42, R425). -/

namespace Sys2Proof.Machine

/-- The steps of a start, or of a warm restart, lead from `s` to `t`. -/
structure StartKeeps (warm : Bool) (s t : State) : Prop where
  pace : t.pace = s.pace
  stage : t.stage = s.stage
  latches : t.latches = s.latches
  inbox : t.host.inbox = s.host.inbox
  sessions : ∀ k, (s.ctx k).session = none → (t.ctx k).session = none
  opSeconds : t.evt.opSeconds = s.evt.opSeconds
  pwrCycles : t.evt.pwrCycles = s.evt.pwrCycles
  phase : t.power.phase = s.power.phase
  start : t.power.start = s.power.start
  holdUp : t.power.holdUp = s.power.holdUp
  due : s.power.due = none → t.power.due = none
  active : t.warp.active = s.warp.active
  running : warm = true → t.met = s.met ∧ t.qty = s.qty ∧ t.clk.ns = s.clk.ns ∧ ∀ q, 1 < q → t.queue q = s.queue q

variable {warm : Bool} {s0 s t : State}

theorem StartKeeps.refl (warm : Bool) (s : State) : StartKeeps warm s s :=
  ⟨rfl, rfl, rfl, rfl, fun _ => id, rfl, rfl, rfl, rfl, rfl, id, rfl, fun _ => ⟨rfl, rfl, rfl, fun _ _ => rfl⟩⟩

theorem StartKeeps.trans (h : StartKeeps warm s0 s) (g : StartKeeps warm s t) : StartKeeps warm s0 t where
  pace := g.pace.trans h.pace
  stage := g.stage.trans h.stage
  latches := g.latches.trans h.latches
  inbox := g.inbox.trans h.inbox
  sessions k hk := g.sessions k (h.sessions k hk)
  opSeconds := g.opSeconds.trans h.opSeconds
  pwrCycles := g.pwrCycles.trans h.pwrCycles
  phase := g.phase.trans h.phase
  start := g.start.trans h.start
  holdUp := g.holdUp.trans h.holdUp
  due hd := g.due (h.due hd)
  active := g.active.trans h.active
  running hw :=
    have ⟨hm, hq, hn, hk⟩ := h.running hw
    have ⟨gm, gq, gn, gk⟩ := g.running hw
    ⟨gm.trans hm, gq.trans hq, gn.trans hn, fun q hq => (gk q hq).trans (hk q hq)⟩

/-- An update of parts of the state that no clause speaks of. -/
theorem StartKeeps.rest {pending : List Instr} {regs : RegFile} {leg : SealedState} {tar : TarState} {ing : IngestState}
    {bal : BalState} {rad : RadioState} {plc : PlcState} {fwu : FwState} {key : KeyState} {prt : PortState} {pair : PairState}
    {ledger : List LedgerEntry} {sto : StorageState} {hlt : HealthState} {out : List Output} {drawn : Nat}
    (h : StartKeeps warm s0 s) : StartKeeps warm s0 { s with
      pending := pending, regs := regs, leg := leg, tar := tar, ing := ing, bal := bal, rad := rad, plc := plc, fwu := fwu
      key := key, prt := prt, pair := pair, ledger := ledger, sto := sto, hlt := hlt, out := out, drawn := drawn } :=
  h.trans ⟨rfl, rfl, rfl, rfl, fun _ => id, rfl, rfl, rfl, rfl, rfl, id, rfl, fun _ => ⟨rfl, rfl, rfl, fun _ _ => rfl⟩⟩

theorem StartKeeps.foldl {β : Type} {g : State → β → State} (l : List β) (h : StartKeeps warm s0 s)
    (hg : ∀ u x, StartKeeps warm s0 u → StartKeeps warm s0 (g u x)) : StartKeeps warm s0 (l.foldl g s) :=
  List.foldlRecOn l g h fun u hu x _ => hg u x hu

theorem StartKeeps.foldl_fst {β γ : Type} {g : State × γ → β → State × γ} (l : List β) {p : State × γ}
    (h : StartKeeps warm s0 p.1) (hg : ∀ q x, StartKeeps warm s0 q.1 → StartKeeps warm s0 (g q x).1) :
    StartKeeps warm s0 (l.foldl g p).1 :=
  List.foldlRecOn l g (motive := fun q => StartKeeps warm s0 q.1) h fun q hq x _ => hg q x hq

theorem StartKeeps.ite {c : Prop} [Decidable c] (ha : StartKeeps warm s0 s) (hb : StartKeeps warm s0 t) :
    StartKeeps warm s0 (if c then s else t) := by
  split
  · exact ha
  · exact hb

/-! ### Registers and posts -/

section
variable (h : StartKeeps warm s0 s)
include h

theorem StartKeeps.setF (f : FieldRef) (v : Nat) : StartKeeps warm s0 (s.setF f v) := h.rest

theorem StartKeeps.flag (f : FieldRef) (b : Bool) : StartKeeps warm s0 (s.flag f b) := h.rest

theorem StartKeeps.bump (f : FieldRef) (n : Nat) : StartKeeps warm s0 (s.bump f n) := h.rest

theorem StartKeeps.withEvt (x : EvtState) (h0 : x.opSeconds = s.evt.opSeconds) (h1 : x.pwrCycles = s.evt.pwrCycles) :
    StartKeeps warm s0 { s with evt := x } :=
  h.trans ⟨rfl, rfl, rfl, rfl, fun _ => id, h0, h1, rfl, rfl, rfl, id, rfl, fun _ => ⟨rfl, rfl, rfl, fun _ _ => rfl⟩⟩

theorem StartKeeps.post (c : Nat) (p : Payload) : StartKeeps warm s0 (s.post c p) := h.withEvt _ rfl rfl

theorem StartKeeps.postIf (b : Bool) (c : Nat) (p : Payload) : StartKeeps warm s0 (s.postIf b c p) := (h.post c p).ite h

/-! ### Outputs and notices -/

theorem StartKeeps.send (o : Output) : StartKeeps warm s0 (s.send o) :=
  h.ite (h.rest.ite (h.ite h.rest))

/-- A context that is written gets no session where it had none. -/
theorem StartKeeps.setCtx (c : Nat) (x : Ctx) (hx : (s.ctx c).session = none → x.session = none) :
    StartKeeps warm s0 (s.setCtx c x) := by
  refine h.trans ⟨rfl, rfl, rfl, rfl, fun k hk => ?_, rfl, rfl, rfl, rfl, rfl, id, rfl,
    fun _ => ⟨rfl, rfl, rfl, fun _ _ => rfl⟩⟩
  by_cases e : k = c
  · subst e
    exact (congrArg Ctx.session (Map.findD_set_same ..)).trans (hx hk)
  · exact (congrArg Ctx.session (Map.findD_set_other _ _ e)).trans hk

theorem StartKeeps.raiseVector (k : Nat) (irq : Option (Nat × Nat)) : StartKeeps warm s0 (s.raiseVector k irq) := by
  cases irq with
  | none => exact h
  | some p => exact h.send _

theorem StartKeeps.ringPut (k : Nat) (q : PcieSlot) (m : OutWaybill) : StartKeeps warm s0 (s.ringPut k q m) :=
  (h.send _).foldl _ fun _ _ hu => (hu.send _).raiseVector _ _

theorem StartKeeps.pcieMove (link : Nat) (w : OutWaybill) (hm : s.pcieMove link w = some t) : StartKeeps warm s0 t := by
  unfold State.pcieMove at hm
  extract_lets k q overhead at hm
  split at hm
  · cases hm
  dsimp only at hm
  split at hm
  · cases hm
    exact h.rest.ringPut _ _ _
  split at hm
  · cases hm
    exact h.rest.ringPut _ _ _
  split at hm
  · next x hx =>
    split at hm
    · cases hm
      refine (h.rest.setCtx _ _ fun hn => ?_).ringPut _ _ _
      exact absurd (hx.symm.trans hn) (Option.some_ne_none x)
    · cases hm
      exact h
  · cases hm
    exact h

theorem StartKeeps.pciePump (c link : Nat) : StartKeeps warm s0 (s.pciePump c link) := by
  refine StartKeeps.foldl_fst _ h.rest fun p w hp => ?_
  dsimp only
  split
  · exact hp.rest
  split
  · exact hp.rest
  split
  · next hm => exact hp.pcieMove _ _ hm
  · exact hp.rest

theorem StartKeeps.put (w : OutWaybill) : StartKeeps warm s0 (s.put w) :=
  (h.rest.pciePump _ _).ite ((h.rest.flag _ _).ite (h.send _))

theorem StartKeeps.emit (w : OutWaybill) (x : Option Session) (hx : (s.ctx w.seat).session = none → x = none) :
    StartKeeps warm s0 (s.emit w x) :=
  (h.put _).ite ((h.setCtx _ _ hx).put _)

end

/-- A waybill is sealed by the session of its context, and takes none where there is none. -/
theorem State.seal_session {c : Nat} {clear rep : Bool} {type opcode : Nat} {seq task : Word} {cause : Nat} {body : List Tlv}
    {w : OutWaybill} {x : Option Session} (hw : s.seal c clear rep type opcode seq task cause body = some (w, x)) :
    w.seat = c ∧ ((s.ctx c).session = none → x = none) := by
  unfold State.seal at hw
  extract_lets rooms at hw
  split at hw
  · cases hw
    exact ⟨rfl, id⟩
  split at hw
  · cases hw
  · next y hy =>
    cases hw
    exact ⟨rfl, fun hn => absurd (hy.symm.trans hn) (Option.some_ne_none y)⟩

section
variable (h : StartKeeps warm s0 s)
include h

theorem StartKeeps.sendWaybill (c : Nat) (clear rep : Bool) (type opcode : Nat) (seq task : Word) (cause : Nat)
    (body : List Tlv) : StartKeeps warm s0 (s.sendWaybill c clear rep type opcode seq task cause body) := by
  unfold State.sendWaybill
  split
  · exact h
  · next w x hw =>
    obtain ⟨rfl, hx⟩ := State.seal_session hw
    exact h.emit w x hx

theorem StartKeeps.sendNotice (c : Nat) (n : NoticeRec) : StartKeeps warm s0 (s.sendNotice c n) :=
  (h.sendWaybill ..).ite ((h.sendWaybill ..).setCtx _ _ id)

theorem StartKeeps.pump (c : Nat) : StartKeeps warm s0 (s.pump c) :=
  (h.foldl _ fun _ _ hu => hu.sendNotice _ _).ite h

theorem StartKeeps.retain (c kind : Nat) (body : List Tlv) (task : Nat) : StartKeeps warm s0 (s.retain c kind body task) := by
  refine StartKeeps.pump (h.setCtx c _ ?_) c
  exact id

/-! ### Tasks -/

theorem StartKeeps.setTask (slot : Nat) (k : Task) : StartKeeps warm s0 (s.setTask slot k) :=
  h.trans ⟨rfl, rfl, rfl, rfl, fun _ => id, rfl, rfl, rfl, rfl, rfl, id, rfl, fun _ => ⟨rfl, rfl, rfl, fun _ _ => rfl⟩⟩

end

theorem StartKeeps.reportItems (slot : Nat) (all : Bool) (n : Nat) :
    ∀ {s : State}, StartKeeps warm s0 s → StartKeeps warm s0 (State.reportItems slot all n s) := by
  induction n with
  | zero => exact id
  | succ n ih =>
    intro s h
    unfold State.reportItems
    split
    · exact h
    · exact h.ite (ih ((h.setTask _ _).retain _ _ _ _))

section
variable (h : StartKeeps warm s0 s)
include h

theorem StartKeeps.reportFinal (slot : Nat) : StartKeeps warm s0 (s.reportFinal slot) := by
  unfold State.reportFinal
  split
  · exact h
  · exact h.ite ((h.setTask _ _).retain _ _ _ _)

theorem StartKeeps.report (slot : Nat) : StartKeeps warm s0 (s.report slot) := by
  unfold State.report
  split
  · exact h
  · exact h.ite (((h.reportItems ..).reportFinal _).ite (h.reportItems ..))

theorem StartKeeps.endItem (handle item cause : Nat) (data : List Tlv) :
    StartKeeps warm s0 (s.endItem handle item cause data) := by
  unfold State.endItem
  dsimp only
  split
  · exact h
  · exact ((h.setTask _ _).report _).ite h

theorem StartKeeps.resetTask (slot : Nat) : StartKeeps warm s0 (s.resetTask slot) := by
  unfold State.resetTask
  split
  · exact h
  · exact h.ite (((h.setTask _ _).report _).post _ _)

theorem StartKeeps.resetTasks : StartKeeps warm s0 s.resetTasks := h.foldl _ fun _ _ hu => hu.resetTask _

end

end Sys2Proof.Machine

/-! What a restart from step W on leaves alone: the sealed queues, the storage, the firmware and the steps themselves. -/

namespace Sys2Proof.Machine

variable {warm : Bool} {s0 s t : State}

/-! ### The sealed queues -/

/-- A restart changes the sealed queues, 0 and 1, alone; a full start every queue. -/
theorem StartKeeps.setQueue (h : StartKeeps warm s0 s) (q l : Nat) (x : HwQueue) (hq : warm = true → q < 2) :
    StartKeeps warm s0 (s.setQueue q l x) :=
  h.trans ⟨rfl, rfl, rfl, rfl, fun _ => id, rfl, rfl, rfl, rfl, rfl, id, rfl,
    fun hw => ⟨rfl, rfl, rfl, fun k hk => Map.findD_set_other _ _ (by have := hq hw; omega)⟩⟩

theorem StartKeeps.pushMessage (h : StartKeeps warm s0 s) {q : Nat} (hq : q < 2) (m : List (BitVec 64))
    (ht : s.pushMessage q m = some t) : StartKeeps warm s0 t := by
  unfold State.pushMessage at ht
  split at ht
  · cases ht
  dsimp only at ht
  split at ht
  · cases ht
    exact h.setQueue _ _ _ fun _ => hq
  · cases ht

theorem StartKeeps.pushWaiting {q : Nat} (hq : q < 2) (l : List (List (BitVec 64))) :
    ∀ {s : State}, StartKeeps warm s0 s → StartKeeps warm s0 (pushWaiting q l s).1 := by
  induction l with
  | nil => exact id
  | cons m l ih =>
    intro s h
    unfold Machine.pushWaiting
    split
    · next t ht => exact ih (h.pushMessage hq m ht)
    · exact h

section
variable (h : StartKeeps warm s0 s)
include h

theorem StartKeeps.refillQueues : StartKeeps warm s0 s.refillQueues := by
  have h0 := h.pushWaiting (q := 0) (by decide) s.leg.held
  have h1 := h0.pushWaiting (q := 1) (by decide) (Machine.pushWaiting 0 s.leg.held s).1.leg.outbox
  exact h1.rest

theorem StartKeeps.request (type : Nat) (body : List Byte) (use : RequestUse) :
    StartKeeps warm s0 (s.request type body use) :=
  h.rest.refillQueues

theorem StartKeeps.keypadCfg : StartKeeps warm s0 s.keypadCfg := h.request _ _ _

/-! ### Storage -/

theorem StartKeeps.journal (r : JournalRec) (item hold : Option (Nat × Nat)) : StartKeeps warm s0 (s.journal r item hold) :=
  h.rest

theorem StartKeeps.setSb (n : Nat) (b : Superblock) : StartKeeps warm s0 (s.setSb n b) := h.rest

theorem StartKeeps.closeSb (n : Nat) : StartKeeps warm s0 (s.closeSb n) := by
  unfold State.closeSb
  split
  · exact h
  · exact ((h.setSb _ _).journal _ _ _).ite h

theorem StartKeeps.releaseIfEmpty (n : Nat) (hold : Option (Nat × Nat)) : StartKeeps warm s0 (s.releaseIfEmpty n hold) := by
  unfold State.releaseIfEmpty
  split
  · exact h
  · exact ((h.setSb _ _).journal _ _ _).ite h

theorem StartKeeps.committed (r : JournalRec) : StartKeeps warm s0 (s.committed r) := by
  unfold State.committed
  split
  · exact h.rest
  · split
    · exact h
    · exact h.rest.foldl _ fun _ _ hu => (hu.setF _ _).journal _ _ _
  · exact h

theorem StartKeeps.judgeShare : StartKeeps warm s0 s.judgeShare := by
  unfold State.judgeShare
  split
  · exact h
  · exact h.rest.postIf _ _ _

theorem StartKeeps.judgeReadonly : StartKeeps warm s0 s.judgeReadonly := by
  unfold State.judgeReadonly
  split
  · exact h
  · exact (((h.flag _ _).post _ _).rest.foldl _ fun _ _ hu => hu.endItem _ _ _ _).ite h

theorem StartKeeps.commitJournal (upto : Nat) : StartKeeps warm s0 (s.commitJournal upto) := by
  have hd : StartKeeps warm s0 { s with evt := s.evt.durable upto } := h.withEvt _ rfl rfl
  unfold State.commitJournal
  extract_lets u go ready seq new src s1 s2
  split
  · exact hd
  have h1 : StartKeeps warm s0 s1 := hd.rest
  have h2 : StartKeeps warm s0 s2 := h1.foldl _ fun _ _ hu => hu.committed _
  refine (h2.foldl _ fun v w hv => ?_).judgeShare.judgeReadonly
  split
  · exact hv.endItem _ _ _ _
  · exact hv

theorem StartKeeps.storageRestore : StartKeeps warm s0 s.storageRestore := by
  refine StartKeeps.judgeReadonly (StartKeeps.judgeShare (StartKeeps.post (StartKeeps.flag (StartKeeps.commitJournal
    (StartKeeps.foldl _ (StartKeeps.rest (StartKeeps.commitJournal (StartKeeps.foldl _ h.rest ?_) _)) ?_) _) _ _) _ _))
  · exact fun _ _ hu => (hu.closeSb _).releaseIfEmpty _ _
  · exact fun _ _ hu => hu.rest.journal _ _ _

/-! ### The steps from step W on (R425) -/

theorem StartKeeps.timeMark : StartKeeps warm s0 s.timeMark := h.post _ _

theorem StartKeeps.eventRestart (cause restore : Nat) (w : Bool) : StartKeeps warm s0 (s.eventRestart cause restore w) := by
  unfold State.eventRestart
  extract_lets rest log src e s1 s2 src2
  have he : StartKeeps warm s0 { s with evt := e } := h.withEvt e rfl rfl
  have h1 : StartKeeps warm s0 s1 := by
    unfold s1
    split
    · exact he.ite (StartKeeps.bump (h.withEvt _ (by rfl) (by rfl)) _ _)
    · exact ((he.flag _ _).post _ _).ite he
  have h2 : StartKeeps warm s0 s2 := (h1.post _ _).timeMark
  exact StartKeeps.flag (h2.withEvt _ (by rfl) (by rfl)) _ _

theorem StartKeeps.showBuffer : StartKeeps warm s0 s.showBuffer := by
  unfold State.showBuffer
  exact h.rest.postIf _ _ _

theorem StartKeeps.registryRestore : StartKeeps warm s0 s.registryRestore := by
  unfold State.registryRestore
  extract_lets n src g s1
  have h1 : StartKeeps warm s0 s1 := h.rest.setF _ _
  exact (h1.showBuffer.post _ _).flag _ _

theorem StartKeeps.resumeJoined (w : Bool) : StartKeeps warm s0 (s.resumeJoined w) := h.rest

theorem StartKeeps.setChan (x : Nat) (c : PlcChan) : StartKeeps warm s0 (s.setChan x c) := h.rest

theorem StartKeeps.setCoord (x : Nat) (on : Bool) : StartKeeps warm s0 (s.setCoord x on) := ((h.flag _ _).flag _ _).post _ _

theorem StartKeeps.plcRestart (w : Bool) : StartKeeps warm s0 (s.plcRestart w) :=
  h.foldl _ fun _ _ hu => ((hu.setChan _ _).setCoord _ _).ite (hu.setChan _ _)

theorem StartKeeps.queueJob (n m : Nat) (work : BalWork) : StartKeeps warm s0 (s.queueJob n m work) :=
  h.ite (h.rest.setF _ _)

theorem StartKeeps.balRequeue : StartKeeps warm s0 s.balRequeue := by
  refine StartKeeps.flag (h.foldl _ fun _ _ hu => hu.foldl _ fun v m hv => ?_) _ _
  dsimp only
  split
  · exact hv
  split
  · exact hv
  split
  · exact (hv.queueJob _ _ _).ite hv
  · exact (hv.queueJob _ _ _).ite hv

theorem StartKeeps.fromW (cause restore : Nat) (w : Bool) : StartKeeps warm s0 (s.fromW cause restore w) := by
  have h1 := h.eventRestart cause restore w
  exact (((((h1.storageRestore.ite h1).registryRestore.resumeJoined w).plcRestart w).resetTasks).balRequeue).keypadCfg

/-! ### The main firmware (R372, R373, R375) -/

theorem StartKeeps.bootSlot (i : Nat) : StartKeeps warm s0 (s.bootSlot i) := h.rest

theorem StartKeeps.slotState (i v : Nat) : StartKeeps warm s0 (s.slotState i v) := (h.setF _ _).ite (h.setF _ _)

theorem StartKeeps.endSplit : StartKeeps warm s0 s.endSplit := h.ite ((h.rest.setF _ _).ite h.rest)

theorem StartKeeps.writeBoot : StartKeeps warm s0 s.writeBoot := h.rest

theorem StartKeeps.showOwn (f : Option FwTransfer) : StartKeeps warm s0 (s.showOwn f) := h.rest

theorem StartKeeps.setOwn (f : Option FwTransfer) : StartKeeps warm s0 (s.setOwn f) := (h.showOwn f).writeBoot

theorem StartKeeps.fwFallback (cause : Nat) : StartKeeps warm s0 (s.fwFallback cause) := by
  have h1 := ((h.slotState (1 - s.activeSlot) 4).flag F.FWU_STAT.TRIAL false).bootSlot s.activeSlot
  exact ((h1.endSplit.ite h1).writeBoot).post _ _

theorem StartKeeps.fwActivate : StartKeeps warm s0 s.fwActivate := by
  unfold State.fwActivate
  extract_lets src base
  have hb : StartKeeps warm s0 base := h.rest.flag _ _
  split
  · exact hb
  split
  · exact ((hb.setOwn _).post _ _).bootSlot _
  · exact ((((hb.rest.slotState _ _).flag _ _).post _ _).rest.bootSlot _).writeBoot

theorem StartKeeps.bootFirmware (cause : Nat) : StartKeeps warm s0 (s.bootFirmware cause) :=
  (h.fwFallback _).ite (h.fwActivate.ite (h.bootSlot _))

theorem StartKeeps.pairAfterApply (cause : Nat) : StartKeeps warm s0 (s.pairAfterApply cause) :=
  ((h.rest.setF _ _).flag _ _).ite h

end

end Sys2Proof.Machine

/-! What the steps of a full start before step W leave alone (R373, R425). -/

namespace Sys2Proof.Machine

variable {warm : Bool} {s0 s t : State}

section
variable (h : StartKeeps warm s0 s)
include h

/-! ### Notices and health items -/

theorem StartKeeps.loseNotice (c kind : Nat) (b : Bool) : StartKeeps warm s0 (s.loseNotice c kind b) := by
  have h1 : ∀ l, StartKeeps warm s0 (s.setCtx c { s.ctx c with lost := l }) := fun l => h.setCtx _ _ id
  exact StartKeeps.ite ((h1 _).withEvt _ (by rfl) (by rfl)) (h1 _)

theorem StartKeeps.notify (c kind : Nat) (body : List Tlv) (b : Bool) : StartKeeps warm s0 (s.notify c kind body b) :=
  (h.loseNotice _ _ _).ite (h.retain _ _ _ _)

theorem StartKeeps.broadcast (kind : Nat) (body : List Tlv) (b : Bool) : StartKeeps warm s0 (s.broadcast kind body b) :=
  h.foldl _ fun _ _ hu => hu.notify _ _ _ _

theorem StartKeeps.raiseItem (i : HealthItem) : StartKeeps warm s0 (s.raiseItem i) :=
  ((h.rest.post _ _).broadcast _ _ _).ite h

theorem StartKeeps.reportDumps : StartKeeps warm s0 s.reportDumps :=
  h.rest.foldl _ fun _ _ hu => (hu.post _ _).raiseItem _

/-! ### Prepayment limits (R203) -/

theorem StartKeeps.setMeter (i : Nat) (r : MeterRec) : StartKeeps warm s0 (s.setMeter i r) := h.rest

theorem StartKeeps.evalCredit (i : Nat) : StartKeeps warm s0 (s.evalCredit i).1 := by
  unfold State.evalCredit
  dsimp only
  split
  · exact h
  · exact (h.setMeter _ _).post _ _

theorem StartKeeps.tellCredit (i cause : Nat) : StartKeeps warm s0 (s.tellCredit i cause) :=
  StartKeeps.ite (h.rest.ite h.rest) h

theorem StartKeeps.creditChanged (i : Nat) : StartKeeps warm s0 (s.creditChanged i) :=
  ((h.evalCredit i).tellCredit _ _).ite (h.evalCredit i)

theorem StartKeeps.lowAtStart (old : RegFile) : StartKeeps warm s0 (s.lowAtStart old) :=
  h.foldl _ fun _ _ hu => hu.ite (hu.foldl _ fun _ _ hv => (hv.creditChanged _).ite hv)

/-! ### The pending image (R38, R40) -/

theorem StartKeeps.withWarp (x : WarpState) (hx : x.active = s.warp.active) : StartKeeps warm s0 { s with warp := x } :=
  h.trans ⟨rfl, rfl, rfl, rfl, fun _ => id, rfl, rfl, rfl, rfl, rfl, id, hx, fun _ => ⟨rfl, rfl, rfl, fun _ _ => rfl⟩⟩

theorem StartKeeps.warpRejected (serial : Word) (cause : Nat) : StartKeeps warm s0 (s.warpRejected serial cause) :=
  ((h.withWarp _ (by rfl)).setF _ _).post _ _

theorem StartKeeps.pendingAtStart : StartKeeps warm s0 s.pendingAtStart := by
  unfold State.pendingAtStart
  split
  · exact h.withWarp _ (by rfl)
  · next w hw =>
    extract_lets ended src s1 s2 bad src2
    clear_value bad
    have h1 : StartKeeps warm s0 s1 := h.withWarp _ (by rfl)
    have h2 : StartKeeps warm s0 s2 := (h1.warpRejected _ _).ite h1
    split
    · exact h2.withWarp _ (by rfl)
    split
    · exact StartKeeps.warpRejected (h2.withWarp _ (by rfl)) _ _
    · exact h2

/-! ### The boot record and the versions -/

theorem StartKeeps.showVersions : StartKeeps warm s0 s.showVersions := h.rest

theorem StartKeeps.loadBoot (torn : Bool) : StartKeeps warm s0 (s.loadBoot torn) := by
  unfold State.loadBoot
  extract_lets c first left r own k s1 s2
  have h1 : StartKeeps warm s0 s1 := (((h.slotState _ _).slotState _ _).setF _ _).flag _ _
  have h2 : StartKeeps warm s0 s2 := (h1.flag _ _).showOwn _
  exact h2.rest

/-! ### Keys (R341, R342, R352, R356, R358) -/

theorem StartKeeps.showSlots : StartKeeps warm s0 s.showSlots := (h.setF _ _).setF _ _

theorem StartKeeps.setLeaf (n : Nat) : StartKeeps warm s0 (s.setLeaf n) := by
  unfold State.setLeaf
  extract_lets s1 level src
  have h1 : StartKeeps warm s0 s1 := ((h.setF _ _).setF _ _).flag _ _
  exact h1.ite (((h1.rest).post _ _).raiseItem _)

theorem StartKeeps.reserve (b : Bool) : StartKeeps warm s0 (s.reserve b) := (h.rest.setF _ _).ite h.rest

theorem StartKeeps.takeLeaf (b : Bool) : StartKeeps warm s0 (s.takeLeaf b).1 := by
  unfold State.takeLeaf
  extract_lets n s1
  have h1 : StartKeeps warm s0 s1 := (h.reserve _).ite h
  split
  · exact h1
  · exact ((h1.setLeaf _).rest).bump _ _

theorem StartKeeps.leavesAtStart (lost : Bool) : StartKeeps warm s0 (s.leavesAtStart lost) := by
  unfold State.leavesAtStart
  extract_lets src k s1
  have h1 : StartKeeps warm s0 s1 := h.rest
  split
  · exact (h1.setF _ _).setLeaf _
  · exact (h1.setF _ _).setLeaf _
  · exact (h1.setF _ _).setLeaf _
  · exact h1

theorem StartKeeps.rootFormed : StartKeeps warm s0 s.rootFormed := StartKeeps.showSlots h.rest

end

/-- A map whose every entry is changed, read at a key. -/
theorem Map.find_mapVals {α β : Type} (f : Nat → α → β) (m : Map α) (k : Nat) :
    Map.find (Map.mapVals f m) k = (Map.find m k).map (f k) := by
  induction m with
  | nil => rfl
  | cons p m ih =>
    obtain ⟨i, v⟩ := p
    simp only [Map.mapVals, List.map_cons, Map.find]
    split
    · next e => simp [e]
    · exact ih

/-- What holds of the default and of every changed entry holds of every read. -/
theorem Map.findD_mapVals {α β : Type} {f : Nat → α → β} {m : Map α} {k : Nat} {a : α} {b : β} (P : α → β → Prop)
    (hd : P a b) (hf : ∀ x, P x (f k x)) : P (Map.findD m k a) (Map.findD (Map.mapVals f m) k b) := by
  rw [Map.findD, Map.findD, Map.find_mapVals]
  cases Map.find m k with
  | none => exact hd
  | some x => exact hf x

section
variable (h : StartKeeps warm s0 s)
include h

/-- An update of every context that opens no session. -/
theorem StartKeeps.mapCtxs (f : Nat → Ctx → Ctx) (hf : ∀ k x, x.session = none → (f k x).session = none) {host : HostState}
    (hi : host.inbox = s.host.inbox) (hc : host.ctxs = Map.mapVals f s.host.ctxs) :
    StartKeeps warm s0 { s with host := host } := by
  refine h.trans ⟨rfl, rfl, rfl, hi, fun k hk => ?_, rfl, rfl, rfl, rfl, rfl, id, rfl,
    fun _ => ⟨rfl, rfl, rfl, fun _ _ => rfl⟩⟩
  simp only [State.ctx, hc]
  exact Map.findD_mapVals (fun x y : Ctx => x.session = none → y.session = none) (fun _ => rfl) (hf k) hk

theorem StartKeeps.closeSessions : StartKeeps warm s0 s.closeSessions :=
  h.mapCtxs (fun _ c => { c with session := none, handshake := none }) (fun _ _ _ => rfl) rfl rfl

/-- The identity statement is kept, and the notice sequences begin anew (R70, R356). -/
theorem StartKeeps.identityKept : StartKeeps warm s0 { s with host := { s.host with
    identity := true, ctxs := Map.mapVals (fun _ x => { x with nextNotice := 1 }) s.host.ctxs } } :=
  h.mapCtxs (fun _ x => { x with nextNotice := 1 }) (fun _ _ => id) rfl rfl

theorem StartKeeps.enrolAtStart : StartKeeps warm s0 s.enrolAtStart := by
  unfold State.enrolAtStart
  refine StartKeeps.post (StartKeeps.flag (StartKeeps.identityKept ?_) _ _) _ _
  exact (((h.rest.setF _ _).setF _ _).rootFormed.setLeaf 0).takeLeaf true

theorem StartKeeps.withPower (x : PowerState) (hp : x.phase = s.power.phase) (hs : x.start = s.power.start)
    (hh : x.holdUp = s.power.holdUp) (hd : s.power.due = none → x.due = none) : StartKeeps warm s0 { s with power := x } :=
  h.trans ⟨rfl, rfl, rfl, rfl, fun _ => id, rfl, rfl, hp, hs, hh, hd, rfl, fun _ => ⟨rfl, rfl, rfl, fun _ _ => rfl⟩⟩

theorem StartKeeps.zeroise (src : ZSource) : StartKeeps warm s0 (s.zeroise src) := by
  unfold State.zeroise
  extract_lets z r r1 idents due src1 src2 src3 s1 s2
  have hd : s.power.due = none → due = none := fun e => by unfold due; rw [e]
  have h1 : StartKeeps warm s0 s1 := (h.withPower { s.power with due := due } rfl rfl rfl hd).rest
  have h2 : StartKeeps warm s0 s2 := h1.foldl _ fun _ _ hu => hu.endItem _ _ _ _
  exact h2.closeSessions.showSlots.post _ _

theorem StartKeeps.keysAtStart (was cause : Nat) (i : StartIn) : StartKeeps warm s0 (s.keysAtStart was cause i) := by
  have h0 := h.flag F.KEY_RNG.OK true
  unfold State.keysAtStart
  dsimp only
  split
  · exact (h0.rest.zeroise 0).leavesAtStart _
  split
  · exact h0.enrolAtStart
  split
  · exact (h0.setF _ _).leavesAtStart _
  · exact ((h0.setF _ _).rootFormed.leavesAtStart _).ite ((((h0.setF _ _).setF _ _).post _ _).leavesAtStart _)

/-! ### The report of the start (R415, R417, R418, R426, R437) -/

theorem StartKeeps.judgeVbat (mv : Nat) : StartKeeps warm s0 (s.judgeVbat mv) := by
  unfold State.judgeVbat
  extract_lets s1 s2 src
  have h1 : StartKeeps warm s0 s1 := h.setF _ _
  have h2 : StartKeeps warm s0 s2 := h1.flag _ _
  exact (h2.ite (StartKeeps.post (h2.withPower _ (by rfl) (by rfl) (by rfl) (by exact id)) _ _)).ite h1

theorem StartKeeps.reportSave : StartKeeps warm s0 s.reportSave := by
  unfold State.reportSave
  split
  · exact h
  · refine h.ite (StartKeeps.post (StartKeeps.bump ?_ _ _) _ _)
    exact (h.withPower { s.power with dirNew := false } rfl rfl rfl id).rest

theorem StartKeeps.reportStart (refused : Option Nat) (vbat : Nat) : StartKeeps warm s0 (s.reportStart refused vbat) := by
  unfold State.reportStart
  extract_lets s1 src s2 src2 s3 s4
  have h1 : StartKeeps warm s0 s1 := h.reportSave
  have h2 : StartKeeps warm s0 s2 := StartKeeps.postIf (h1.withPower _ (by rfl) (by rfl) (by rfl) (by exact id)) _ _ _
  have h3 : StartKeeps warm s0 s3 := h2.rest.postIf _ _ _
  refine StartKeeps.judgeVbat ?_ _
  unfold s4
  split
  · exact h3.post _ _
  · exact h3

end

/-! ### What a full start alone does: the queues, device time and the sealed partition -/

section
variable (h : StartKeeps false s0 s)
include h

/-- An update of what a full start does not keep. -/
theorem StartKeeps.restCold {regs : RegFile} {met : MetState} {qty : QtyState} {que : QueState} {clk : ClockState} :
    StartKeeps false s0 { s with regs := regs, met := met, qty := qty, que := que, clk := clk } :=
  h.trans ⟨rfl, rfl, rfl, rfl, fun _ => id, rfl, rfl, rfl, rfl, rfl, id, rfl, nofun⟩

end

end Sys2Proof.Machine

/-! What a full start leaves alone as a whole: the sealed cores, the queues, the seed and device time (R373, R425). -/

namespace Sys2Proof.Machine

variable {warm : Bool} {s0 s t : State}

/-! ### The sealed cores (R373) -/

section
variable (h : StartKeeps warm s0 s)
include h

theorem StartKeeps.showPoint (n : Nat) (dc : Bool) (c : PointState) : StartKeeps warm s0 (s.showPoint n dc c) := h.rest

theorem StartKeeps.legalLog (code mp data : Nat) : StartKeeps warm s0 (s.legalLog code mp data) := h.rest

theorem StartKeeps.export_ (e : Export) : StartKeeps warm s0 (s.export_ e) := h.rest.ite h.rest.refillQueues

theorem StartKeeps.reexportRecords : StartKeeps warm s0 s.reexportRecords := by
  refine h.foldl _ fun u n hu => ?_
  split
  · exact hu.export_ _
  · exact hu

theorem StartKeeps.reexportRing : StartKeeps warm s0 s.reexportRing := h.foldl _ fun _ _ hu => hu.export_ _

theorem StartKeeps.deliverSets : StartKeeps warm s0 s.deliverSets := by
  refine h.foldl _ fun u c hu => hu.foldl _ fun v x hv => ?_
  cases x with
  | none => exact hv
  | some set => exact hv.request _ _ _

theorem StartKeeps.judgeReady : StartKeeps warm s0 s.judgeReady := h.rest

theorem StartKeeps.sealedCleared : StartKeeps warm s0 s.sealedCleared := h.rest.flag _ _

theorem StartKeeps.setTar (n : Nat) (p : PointTar) : StartKeeps warm s0 (s.setTar n p) := h.rest

theorem StartKeeps.restoreTarPoint (r : Option TarRecord) (n : Nat) : StartKeeps warm s0 (State.restoreTarPoint r s n) := by
  unfold State.restoreTarPoint
  split
  · exact h.setTar _ _
  · cases r with
    | none => exact h.setTar _ _
    | some r => exact h.setTar _ _

theorem StartKeeps.showTarStat : StartKeeps warm s0 s.showTarStat := h.rest

theorem StartKeeps.restoreTariff : StartKeeps warm s0 s.restoreTariff := by
  unfold State.restoreTariff
  have points : ∀ {u : State} r (l : List Nat), StartKeeps warm s0 u → StartKeeps warm s0 (l.foldl (State.restoreTarPoint r) u) :=
    fun _ l hu => hu.foldl l fun _ _ hv => hv.restoreTarPoint _ _
  refine StartKeeps.showTarStat (StartKeeps.foldl _ (((points _ _ h.rest).post _ _).legalLog _ _ _) ?_)
  exact fun _ _ hu => hu.export_ _

end

/-! ### What a full start alone does: the metering, the queues and device time begin anew -/

section
variable (h : StartKeeps false s0 s)
include h

theorem StartKeeps.stopPulses : StartKeeps false s0 s.stopPulses :=
  h.restCold.foldl _ fun _ _ hu => (hu.send _).ite hu

theorem StartKeeps.restorePoint (kind seq : Nat) (k : Option Checkpoint) (n : Nat) :
    StartKeeps false s0 (State.restorePoint kind seq k s n) := by
  unfold State.restorePoint
  dsimp only
  split
  · split
    · exact h.restCold
    · exact h
  · next e he =>
    exact (((h.restCold.showPoint _ _ _).post _ _).legalLog _ _ _).ite (h.restCold.showPoint _ _ _)

theorem StartKeeps.restoreMetering : StartKeeps false s0 s.restoreMetering := by
  have h2 : ∀ kind seq k m r, StartKeeps false s0
      ((List.range 12).foldl (State.restorePoint kind seq k) (State.restorePulses { s with qty := m, regs := r } k)) :=
    fun _ _ _ _ _ => StartKeeps.foldl _ (StartKeeps.stopPulses h.restCold) fun _ _ hu => hu.restorePoint _ _ _ _
  exact (((h2 _ _ _ _ _).post _ _).legalLog _ _ _).ite (h2 _ _ _ _ _)

theorem StartKeeps.sealedStart : StartKeeps false s0 s.sealedStart := by
  unfold State.sealedStart
  split
  · exact h.sealedCleared.flag _ _
  · have h1 := h.sealedCleared.restoreMetering.restoreTariff
    exact (StartKeeps.rest h1).reexportRecords.reexportRing.refillQueues.deliverSets.judgeReady

theorem StartKeeps.clearQueues : StartKeeps false s0 s.clearQueues := by
  refine h.restCold.foldl _ fun u e hu => ?_
  split
  · exact hu.setQueue _ _ _ nofun
  · exact hu

theorem StartKeeps.loadQueues : StartKeeps false s0 s.loadQueues := by
  refine StartKeeps.withEvt (h.clearQueues.foldl _ fun u e hu => ?_) _ rfl rfl
  split
  · exact hu.setQueue _ _ _ nofun
  · exact hu

theorem StartKeeps.restoreQueues (restore level : Nat) : StartKeeps false s0 (s.restoreQueues restore level) := by
  refine StartKeeps.postIf (StartKeeps.restCold (StartKeeps.ite ?_ h.loadQueues)) _ _ _
  have hc := (StartKeeps.refl false s).clearQueues
  exact h.clearQueues.withEvt _ hc.opSeconds.symm hc.pwrCycles.symm

theorem StartKeeps.changeQueues (old new : QueuePlan) : StartKeeps false s0 (s.changeQueues old new) :=
  (h.foldl _ fun _ _ hu => hu.restCold).foldl _ fun _ _ hu => hu.setQueue _ _ _ nofun

theorem StartKeeps.installRegs (old : Option WarpImage) (w : WarpImage) : StartKeeps false s0 (s.installRegs old w) :=
  StartKeeps.rest (StartKeeps.ite (StartKeeps.changeQueues h.rest _ _) h.rest)

theorem StartKeeps.record (r : LedgerRecord) : StartKeeps false s0 (s.record r) := h.rest.ite h

theorem StartKeeps.draw : StartKeeps false s0 s.draw := (h.record _).rest

theorem StartKeeps.seedAtStart : StartKeeps false s0 s.seedAtStart :=
  StartKeeps.restCold h.draw

theorem StartKeeps.timeAtStart (oldPace rtcNs : Nat) : StartKeeps false s0 (s.timeAtStart oldPace rtcNs) := by
  unfold State.timeAtStart
  exact (h.restCold.setF _ _).post _ _

end

/-! ### A full start as a whole -/

/-- The state in which the loader runs the image a start takes, or enters the service state (R16, R38, R426). -/
def State.loaded (s : State) : WarpImage ⊕ Nat → State
  | .inl w => { s with warp := { s.warp with active := some w, refused := false } }
  | .inr _ => { s with warp := { s.warp with active := none }, power := { s.power with phase := .service } }

theorem StartKeeps.loadAtStart (s : State) (copies : List Bool) :
    StartKeeps false (s.loaded (s.imageAtStart copies)) (s.loadAtStart copies) := by
  unfold State.loadAtStart
  cases s.imageAtStart copies with
  | inl w => exact (StartKeeps.refl false _).installRegs none w
  | inr c => exact StartKeeps.refl false _

/-- After the loader the steps of a full start keep what every start keeps. -/
theorem StartKeeps.fullStart (s : State) (c : Nat) (i : StartIn) :
    StartKeeps false ((s.coldStart c i).loaded ((s.coldStart c i).imageAtStart i.copies)) (s.fullStart c i) := by
  unfold State.fullStart
  extract_lets was oldPace cold refused restore s1 s2 s3 s4
  have h1 : StartKeeps false _ s1 := (StartKeeps.loadAtStart cold i.copies).restoreQueues _ _
  have h2 : StartKeeps false _ s2 := ((h1.keysAtStart _ _ _).loadBoot _).showVersions
  have h3 : StartKeeps false _ s3 := (((h2.timeAtStart _ _).sealedStart).bootFirmware _).seedAtStart
  have h4 : StartKeeps false _ s4 := ((h3.reportStart _ _).pendingAtStart).fromW _ _ _
  exact (h4.lowAtStart _).reportDumps

/-- The image a start takes is one of the stored copies, and there is none where no copy reads back (R38). -/
theorem State.mem_stored_of_imageAtStart {s : State} {copies : List Bool} {w : WarpImage}
    (h : s.imageAtStart copies = .inl w) : w ∈ s.warp.stored ∧ ∃ b ∈ copies, b = true := by
  unfold State.imageAtStart at h
  extract_lets read at h
  split at h
  · next v hv =>
    cases h
    obtain ⟨e, he, rfl⟩ := List.mem_map.mp (List.mem_of_find?_eq_some hv)
    obtain ⟨hz, hb⟩ := List.mem_filter.mp he
    exact ⟨(List.of_mem_zip hz).1, e.2, (List.of_mem_zip hz).2, hb⟩
  · cases h

end Sys2Proof.Machine

/-! What a full start leaves in the registers (R7, R425). -/

namespace Sys2Proof.Machine

/-! ### Several fields written in order -/

theorem RegFile.setFields_cons (m : RegFile) (e : FieldRef × Nat) (l : List (FieldRef × Nat)) :
    m.setFields (e :: l) = (m.setF e.1 e.2).setFields l := by
  simp only [RegFile.setFields, List.foldl_cons]

theorem RegFile.setFields_nil (m : RegFile) : m.setFields [] = m := by
  simp only [RegFile.setFields, List.foldl_nil]

theorem RegFile.get_setFields_other {m : RegFile} {l : List (FieldRef × Nat)} {a : Nat}
    (h : ∀ e ∈ l, a ≠ e.1.addr) :
    (m.setFields l).get a = m.get a := by
  induction l generalizing m with
  | nil => rfl
  | cons e l ih =>
    rw [RegFile.setFields_cons, ih fun x hx => h x (List.mem_cons_of_mem _ hx)]
    exact RegFile.get_put_other _ (h e List.mem_cons_self)

theorem RegFile.fld_setFields_other {m : RegFile} {l : List (FieldRef × Nat)} {g : FieldRef} (hm : m.wf = true)
    (hg : g.ok = true) (h : ∀ e ∈ l, e.1.ok = true ∧ g.apart e.1 = true) : (m.setFields l).fld g = m.fld g := by
  induction l generalizing m with
  | nil => rfl
  | cons e l ih =>
    obtain ⟨hok, hap⟩ := h e List.mem_cons_self
    rw [RegFile.setFields_cons, ih (RegFile.setF_wf _ _ hm) fun x hx => h x (List.mem_cons_of_mem _ hx)]
    exact RegFile.fld_setF_other _ hm hok hg hap

/-- A field that is written once among fields apart from it reads what it was given. -/
theorem RegFile.fld_setFields_mem {m : RegFile} {l : List (FieldRef × Nat)} {f : FieldRef} {v : Nat} (hm : m.wf = true)
    (hok : ∀ e ∈ l, e.1.ok = true) (hap : l.Pairwise fun e x => e.1.apart x.1 = true) (hf : (f, v) ∈ l) :
    (m.setFields l).fld f = v % 2 ^ (f.hi - f.lo + 1) := by
  induction l generalizing m with
  | nil => cases hf
  | cons e l ih =>
    obtain ⟨he, hl⟩ := List.pairwise_cons.mp hap
    rw [RegFile.setFields_cons]
    rcases List.mem_cons.mp hf with rfl | hf
    · have h0 := hok (f, v) List.mem_cons_self
      rw [RegFile.fld_setFields_other (RegFile.setF_wf _ _ hm) h0 fun x hx => ⟨hok x (List.mem_cons_of_mem _ hx), he x hx⟩]
      exact RegFile.fld_setF_same _ hm h0
    · exact ih (RegFile.setF_wf _ _ hm) (fun x hx => hok x (List.mem_cons_of_mem _ hx)) hl hf

/-! ### The registers of a store (R7) -/

/-- A word that is a mask's part of itself and the rest of itself. -/
theorem and_or_and_not (w k : Word) : w &&& k ||| w &&& ~~~ k = w := by
  refine BitVec.eq_of_getLsbD_eq fun i hi => ?_
  simp only [BitVec.getLsbD_or, BitVec.getLsbD_and, BitVec.getLsbD_not, hi, decide_true, Bool.true_and]
  cases w.getLsbD i <;> cases k.getLsbD i <;> rfl

/-- The word a full start leaves: the bits of a store, and the reset value elsewhere. -/
def RegSpec.coldWord (r : RegSpec) (w : Word) : Word := (w &&& r.kept) ||| (r.resetWord &&& ~~~ r.kept)

theorem RegSpec.coldWord_and_fieldMask {r : RegSpec} {w : Word} (hr : r.resetWord &&& r.fieldMask = r.resetWord)
    (hw : w &&& r.fieldMask = w) : r.coldWord w &&& r.fieldMask = r.coldWord w := by
  have cut : ∀ v k : Word, v &&& r.fieldMask = v → v &&& k &&& r.fieldMask = v &&& k := fun v k hv => by
    rw [BitVec.and_assoc, BitVec.and_comm k, ← BitVec.and_assoc, hv]
  unfold RegSpec.coldWord
  rw [BitVec.and_or_distrib_right, cut _ _ hr, cut _ _ hw]

/-- One step of `cold`: the register of an entry is written. -/
def coldStep (acc : RegFile) (p : Nat × Word) : RegFile :=
  match findReg p.1 with
  | none => acc
  | some r => acc.put p.1 (r.coldWord p.2)

theorem RegFile.cold_eq (m : RegFile) : m.cold = m.foldl coldStep [] := by
  unfold RegFile.cold coldStep RegSpec.coldWord
  rfl

theorem coldStep_wf {acc : RegFile} (p : Nat × Word) (h : acc.wf = true) : (coldStep acc p).wf = true := by
  unfold coldStep
  split
  · exact h
  · exact RegFile.put_wf _ _ h

theorem get_coldStep_other {acc : RegFile} {p : Nat × Word} {a : Nat} (h : a ≠ p.1) : (coldStep acc p).get a = acc.get a := by
  unfold coldStep
  split
  · rfl
  · exact RegFile.get_put_other _ h

/-- The entries of a register file with rising keys are written once each. -/
theorem get_foldl_coldStep {m acc : RegFile} {a : Nat} {r : RegSpec} (hr : findReg a = some r) (hs : Map.sorted m = true)
    (hacc : acc.wf = true) : (m.foldl coldStep acc).get a =
      match Map.find m a with
      | none => acc.get a
      | some w => r.coldWord w &&& r.fieldMask := by
  induction m generalizing acc with
  | nil => rfl
  | cons p m ih =>
    obtain ⟨i, v⟩ := p
    obtain ⟨hlt, hs'⟩ := Map.sorted_cons.mp hs
    rw [List.foldl_cons, ih hs' (coldStep_wf _ hacc)]
    by_cases e : i = a
    · subst e
      rw [Map.find_none_of_lt hlt]
      simp only [Map.find, if_true, coldStep, hr]
      exact RegFile.get_put_same _ hacc hr
    · simp only [Map.find, if_neg e, get_coldStep_other (p := (i, v)) (Ne.symm e)]

theorem RegFile.get_cold {m : RegFile} {a : Nat} {r : RegSpec} (h : m.wf = true) (hr : findReg a = some r) :
    m.cold.get a = r.coldWord (m.get a) := by
  have hreset : resetAt a = r.resetWord := by simp [resetAt, hr]
  rw [RegFile.cold_eq, get_foldl_coldStep hr (Map.sorted_of_wf h) RegFile.wf_nil]
  cases hf : Map.find m a with
  | none =>
    simp [RegFile.get, Map.findD, Map.find, hf, hreset, RegSpec.coldWord, and_or_and_not]
  | some w =>
    have hg : m.get a = w := by simp [RegFile.get, Map.findD, hf]
    rw [hg]
    exact RegSpec.coldWord_and_fieldMask (findReg_reset hr) (hg ▸ RegFile.get_and_fieldMask h hr)

/-! ### The registers of a full start -/

/-- What PWR_RESET.RESTORE shows of the last SAVE (R415). -/
def State.restoreShown (s : State) : Nat :=
  match s.power.dir with
  | some d => if s.power.dirNew then (if d.complete then 1 else 2) else 0
  | none => 0

/-- The fields a full start writes over what the registers keep: a part of `coldStart`. -/
def State.coldFields (s : State) (c : Nat) (i : StartIn) : List (FieldRef × Nat) :=
  [(F.PWR_RESET.CAUSE, c), (F.PWR_RESET.RESTORE, s.restoreShown),
   (F.PWR_STAT.VIN_A_OK, if i.goodA then 1 else 0), (F.PWR_STAT.VIN_B_OK, if i.goodB then 1 else 0),
   (F.PWR_STAT.SRC, sourceOf i.goodA i.goodB), (F.CLK_STAT.REF_OK, 1), (F.CLK_STAT.PLL_LOCK, 1), (F.MET_STAT.LOCK, 1)]

/-- The fields that show the levels of the supplies. -/
def levelFields (v : Levels) : List (FieldRef × Nat) :=
  [(F.PWR_VIN.VIN_A_MV, v.vinA), (F.PWR_VIN.VIN_B_MV, v.vinB), (F.PWR_VSYS.VSYS_MV, v.vsys),
   (F.PWR_VSYS.VSTORE_10MV, v.vstore), (F.PWR_STAT.HOLDUP_OK, if decide (2200 ≤ v.vstore) then 1 else 0),
   (F.PWR_VBAT.MV, v.vbat)]

/-- The lines of the radios and the power line go low by outputs alone. -/
theorem State.linesLow_out (s : State) : ∃ l, s.linesLow = { s with out := l } := by
  have step : ∀ (t : State) (p : Prop) [Decidable p] (o : Output), o.inside = true → o.hostVisible = false →
      o.shared = false → (∃ l, t = { s with out := l }) → ∃ l, (if p then t.send o else t) = { s with out := l } := by
    rintro _ p _ o hi hv hs ⟨l, rfl⟩
    split
    · exact ⟨l ++ [o], by simp [State.send, hi, hv, hs]⟩
    · exact ⟨l, rfl⟩
  unfold State.linesLow
  refine List.foldlRecOn _ _ (motive := fun t : State => ∃ l, t = { s with out := l }) ?_ fun t ht x _ =>
    step t _ _ rfl rfl rfl ht
  exact List.foldlRecOn _ _ (motive := fun t : State => ∃ l, t = { s with out := l }) ⟨s.out, rfl⟩ fun t ht x _ =>
    step t _ _ rfl rfl rfl ht

theorem RegFile.flag_eq (m : RegFile) (f : FieldRef) (b : Bool) : m.flag f b = m.setF f (if b then 1 else 0) := by
  simp only [RegFile.flag]

theorem State.regs_linesLow (s : State) : s.linesLow.regs = s.regs := by
  obtain ⟨l, e⟩ := s.linesLow_out
  rw [e]

theorem State.showLevels_eq (s : State) (v : Levels) :
    s.showLevels v = { s with regs := s.regs.setFields (levelFields v) } := by
  simp only [levelFields, RegFile.setFields_cons, RegFile.setFields_nil, ← RegFile.flag_eq]
  rfl

theorem State.regs_showLevels (s : State) (v : Levels) : (s.showLevels v).regs = s.regs.setFields (levelFields v) := by
  rw [State.showLevels_eq]

/-- What a full start makes of the state before it (R7, R14, R22, R42, R58, R425). -/
structure StartsCold (s : State) (c : Nat) (i : StartIn) (u : State) : Prop where
  pace : u.pace = {}
  stage : u.stage = {}
  latches : u.latches = []
  inbox : u.host.inbox = []
  sessions : ∀ k, (u.ctx k).session = none
  ing : u.ing.meters = s.ing.meters ∧ u.ing.log = s.ing.log
  evtLog : u.evt.log = s.evt.log
  opSeconds : u.evt.opSeconds = s.evt.opSeconds + 1
  pwrCycles : u.evt.pwrCycles = if c ≤ 1 then s.evt.pwrCycles + 1 else s.evt.pwrCycles
  legLog : u.leg.log = s.leg.log
  copies : u.qty.copies = s.qty.copies ∧ u.tar.copies = s.tar.copies
  fwu : u.fwu = { s.fwu with commits := [] }
  ns : u.clk.ns = s.clk.ns
  sto : u.sto = { s.sto with boot := (if i.boots.1 then s.sto.boot.1 else none, if i.boots.2 then s.sto.boot.2 else none) }
  arm : u.key.arm = none
  stored : u.warp.stored = s.warp.stored
  keys : u.pair.keys = none
  phase : u.power.phase = .run
  start : u.power.start = none
  due : u.power.due = none
  holdUp : u.power.holdUp = false

/-- No context of a restart has a session, a handshake or a sequence beyond the journal (R58, R61). -/
theorem State.ctx_restartCores (s : State) (k : Nat) : (s.restartCores.ctx k).session = none ∧
    (s.restartCores.ctx k).handshake = none ∧ (s.restartCores.ctx k).high = (s.ctx k).journalled :=
  Map.findD_mapVals (f := fun _ (x : Ctx) => x.restarted)
    (fun x y : Ctx => y.session = none ∧ y.handshake = none ∧ y.high = x.journalled) ⟨rfl, rfl, rfl⟩ fun _ => ⟨rfl, rfl, rfl⟩

theorem StartsCold.linesLow {s u : State} {c : Nat} {i : StartIn} (h : StartsCold s c i u) : StartsCold s c i u.linesLow := by
  obtain ⟨l, e⟩ := u.linesLow_out
  rw [e]
  exact { h with sessions := h.sessions }

theorem StartsCold.withRegs {s u : State} {c : Nat} {i : StartIn} (h : StartsCold s c i u) (r : RegFile) :
    StartsCold s c i { u with regs := r } :=
  { h with sessions := h.sessions }

theorem State.coldStart_cold (s : State) (c : Nat) (i : StartIn) : StartsCold s c i (s.coldStart c i) := by
  unfold State.coldStart
  extract_lets +onlyGivenNames _ _ _ _ r _ ctx
  refine StartsCold.linesLow ?_
  rw [State.showLevels_eq]
  refine StartsCold.withRegs ?_ _
  -- The registers stay abstract: no clause here reads them, and computing them is costly.
  clear_value r
  exact {
    pace := rfl, stage := rfl, latches := rfl, inbox := rfl, ing := ⟨rfl, rfl⟩, evtLog := rfl, opSeconds := rfl
    pwrCycles := rfl, legLog := rfl, copies := ⟨rfl, rfl⟩, fwu := rfl, ns := rfl, sto := rfl, arm := rfl, stored := rfl
    keys := rfl, phase := rfl, start := rfl, due := rfl, holdUp := rfl
    sessions := fun k => (Map.findD_mapVals (f := ctx) (m := s.restartCores.host.ctxs) (k := k) (a := {}) (b := {})
      (fun x y : Ctx => y.session = x.session) rfl fun _ => rfl).trans (s.ctx_restartCores k).1 }

theorem RegFile.setFields_coldFields (m : RegFile) (s : State) (c : Nat) (i : StartIn) :
    m.setFields (s.coldFields c i) =
      ((((((((m.setF F.PWR_RESET.CAUSE c).setF F.PWR_RESET.RESTORE s.restoreShown).flag F.PWR_STAT.VIN_A_OK i.goodA).flag
        F.PWR_STAT.VIN_B_OK i.goodB).setF F.PWR_STAT.SRC (sourceOf i.goodA i.goodB)).flag F.CLK_STAT.REF_OK true).flag
        F.CLK_STAT.PLL_LOCK true).flag F.MET_STAT.LOCK true) := by
  simp only [State.coldFields, RegFile.setFields_cons, RegFile.setFields_nil, RegFile.flag_eq, if_true]

theorem State.regs_coldStart (s : State) (c : Nat) (i : StartIn) :
    (s.coldStart c i).regs = (s.regs.cold.setFields (s.coldFields c i)).setFields (levelFields i.levels) := by
  unfold State.coldStart
  refine (State.regs_linesLow _).trans ((State.regs_showLevels _ _).trans (congrArg (RegFile.setFields · _) ?_))
  exact (RegFile.setFields_coldFields _ s c i).symm

end Sys2Proof.Machine

/-! Starts keep what their cause keeps (R14, R22, R34, R38, R42, R58, R68, R424 to R426). -/

namespace Sys2Proof.Machine

/-! ### The registers a full start shows -/

/-- The fields of `coldFields`. -/
def coldRefs : List FieldRef :=
  [F.PWR_RESET.CAUSE, F.PWR_RESET.RESTORE, F.PWR_STAT.VIN_A_OK, F.PWR_STAT.VIN_B_OK, F.PWR_STAT.SRC, F.CLK_STAT.REF_OK,
   F.CLK_STAT.PLL_LOCK, F.MET_STAT.LOCK]

/-- The fields of `levelFields`. -/
def levelRefs : List FieldRef :=
  [F.PWR_VIN.VIN_A_MV, F.PWR_VIN.VIN_B_MV, F.PWR_VSYS.VSYS_MV, F.PWR_VSYS.VSTORE_10MV, F.PWR_STAT.HOLDUP_OK, F.PWR_VBAT.MV]

/-- The registers a full start shows its cause, its supplies and its clocks in. -/
def startRegs : List Nat := [R.PWR_RESET, R.PWR_STAT, R.CLK_STAT, R.MET_STAT, R.PWR_VIN, R.PWR_VSYS, R.PWR_VBAT]

section
variable {s : State} {c : Nat} {i : StartIn} {e : FieldRef × Nat}

theorem State.mem_coldRefs (he : e ∈ s.coldFields c i) : e.1 ∈ coldRefs :=
  List.mem_map_of_mem (f := Prod.fst) he

theorem mem_levelRefs {v : Levels} (he : e ∈ levelFields v) : e.1 ∈ levelRefs :=
  List.mem_map_of_mem (f := Prod.fst) he

theorem coldRefs_ok : ∀ f ∈ coldRefs, f.ok = true := by decide +kernel

theorem coldRefs_apart : coldRefs.Pairwise fun f g => f.apart g = true := by decide +kernel

theorem coldRefs_apart_levelRefs : ∀ f ∈ coldRefs, ∀ g ∈ levelRefs, g.ok = true ∧ f.apart g = true := by decide +kernel

theorem addr_mem_startRegs : ∀ f ∈ coldRefs ++ levelRefs, f.addr ∈ startRegs := by decide +kernel

/-- A field that a full start writes reads what it was given. -/
theorem State.fld_coldStart {f : FieldRef} {v : Nat} (hf : (f, v) ∈ s.coldFields c i) :
    (s.coldStart c i).fld f = v % 2 ^ (f.hi - f.lo + 1) := by
  have hw : s.regs.cold.wf = true := RegFile.cold_wf _
  have hap : (s.coldFields c i).Pairwise fun e x => e.1.apart x.1 = true := 
    (List.pairwise_map (f := Prod.fst) (l := s.coldFields c i) (R := fun f g => f.apart g = true)).mp coldRefs_apart
  have hm := State.mem_coldRefs hf
  rw [State.fld, State.regs_coldStart, RegFile.fld_setFields_other (RegFile.setFields_wf _ hw) (coldRefs_ok _ hm)
    fun e he => coldRefs_apart_levelRefs _ hm _ (mem_levelRefs he)]
  exact RegFile.fld_setFields_mem hw (fun e he => coldRefs_ok _ (State.mem_coldRefs he)) hap hf

/-- In every other register a full start leaves the bits of its store, and the reset value elsewhere (R7, R425). -/
theorem State.get_coldStart {a : Nat} {r : RegSpec} (hs : Inv s) (hr : findReg a = some r) (ha : a ∉ startRegs) :
    (s.coldStart c i).regs.get a = r.coldWord (s.regs.get a) := by
  have away : ∀ f ∈ coldRefs ++ levelRefs, a ≠ f.addr := fun f hf h => ha (h.symm ▸ addr_mem_startRegs f hf)
  rw [State.regs_coldStart,
    RegFile.get_setFields_other fun e he => away _ (List.mem_append_right _ (mem_levelRefs he)),
    RegFile.get_setFields_other fun e he => away _ (List.mem_append_left _ (State.mem_coldRefs he))]
  exact RegFile.get_cold hs hr

end

theorem State.restoreShown_of_dirNew {s : State} {d : SaveDir} (h : s.power.dirNew = true) (hd : s.power.dir = some d) :
    s.restoreShown = if d.complete then 1 else 2 := by
  simp only [State.restoreShown, hd, h, if_true]

theorem State.restoreShown_of_not_dirNew {s : State} (h : s.power.dirNew = false) : s.restoreShown = 0 := by
  unfold State.restoreShown
  split
  · rw [h]; rfl
  · rfl

theorem State.coldStart_shows (s : State) (c : Nat) (i : StartIn) :
    (s.coldStart c i).fld F.PWR_RESET.CAUSE = c % 256 ∧ (s.coldStart c i).fld F.PWR_STAT.VIN_A_OK = i.goodA.toNat ∧
    (s.coldStart c i).fld F.PWR_STAT.VIN_B_OK = i.goodB.toNat ∧
    (s.coldStart c i).fld F.PWR_RESET.RESTORE = s.restoreShown % 4 := by
  refine ⟨State.fld_coldStart (.head _), ?_, ?_, State.fld_coldStart (.tail _ (.head _))⟩
  · rw [State.fld_coldStart (.tail _ (.tail _ (.head _)))]
    cases i.goodA <;> rfl
  · rw [State.fld_coldStart (.tail _ (.tail _ (.tail _ (.head _))))]
    cases i.goodB <;> rfl

/-! ### A full start and its loader -/

/-- The loader runs one of the stored copies or enters the service state, and touches nothing else (R38, R426). -/
theorem State.loaded_keeps (s : State) (copies : List Bool) : ∃ w ph,
    s.loaded (s.imageAtStart copies) = { s with warp := w, power := { s.power with phase := ph } } ∧
    ((ph = s.power.phase ∧ ∃ x ∈ s.warp.stored, w.active = some x) ∨ (ph = .service ∧ w.active = none)) ∧
    ((s.warp.stored = [] ∨ ∀ b ∈ copies, b = false) → ph = .service) := by
  cases h : s.imageAtStart copies with
  | inr c => exact ⟨_, _, rfl, .inr ⟨rfl, rfl⟩, fun _ => rfl⟩
  | inl w =>
    obtain ⟨hw, b, hb, hb1⟩ := State.mem_stored_of_imageAtStart h
    refine ⟨_, _, rfl, .inl ⟨rfl, w, hw, rfl⟩, fun hn => ?_⟩
    rcases hn with hn | hn
    · rw [hn] at hw
      cases hw
    · rw [hn b hb] at hb1
      cases hb1

/-- A full start that serves its commands (R14, R22, R34, R42, R58, R425, R426). -/
theorem StartsCold.starts {s u t : State} {c : Nat} {i : StartIn} (hu : StartsCold s c i u)
    (hk : StartKeeps false (u.loaded (u.imageAtStart i.copies)) t) :
    t.power.start = none ∧ t.power.due = none ∧ t.power.holdUp = false ∧ t.pace = {} ∧ t.stage = {} ∧ t.latches = [] ∧
    t.host.inbox = [] ∧ (∀ k, (t.ctx k).session = none) ∧ t.evt.opSeconds = s.evt.opSeconds + 1 ∧
    t.evt.pwrCycles = (if c ≤ 1 then s.evt.pwrCycles + 1 else s.evt.pwrCycles) ∧
    (t.power.phase = .run ∧ (∃ w ∈ s.warp.stored, t.warp.active = some w) ∨
      t.power.phase = .service ∧ t.warp.active = none) ∧
    (s.warp.stored = [] ∨ (∀ b ∈ i.copies, b = false) → t.power.phase = .service) := by
  obtain ⟨w, ph, e, himage, hservice⟩ := u.loaded_keeps i.copies
  rw [e] at hk
  rw [hu.phase, hu.stored] at himage
  rw [hu.stored] at hservice
  refine ⟨hk.start.trans hu.start, hk.due hu.due, hk.holdUp.trans hu.holdUp, hk.pace.trans hu.pace, hk.stage.trans hu.stage,
    hk.latches.trans hu.latches, hk.inbox.trans hu.inbox, fun j => hk.sessions j (hu.sessions j),
    hk.opSeconds.trans hu.opSeconds, hk.pwrCycles.trans hu.pwrCycles, ?_, fun hn => hk.phase.trans (hservice hn)⟩
  rw [hk.phase, hk.active]
  exact himage

/-! ### A warm restart -/

/-- What a warm restart makes of the state before the boot loader and step W: a part of `execWarmRestart` (R58, R424). -/
def State.warmStart (s : State) (c : Nat) : State :=
  { s.restartCores with
    regs := s.regs.setF F.PWR_RESET.CAUSE c
    power := { s.power with start := none }
    hlt := { s.hlt with watch := 0, bite := none, cacheErrors := [] } }

theorem exec_warmRestart {s : State} {c : Nat} (h : s.power.start = some (c, true)) :
    exec .warmRestart s = .next ((((s.warmStart c).bootFirmware c).fromW c 0 true).pairAfterApply c) := by
  simp only [exec, execWarmRestart, h]
  rfl

theorem StartKeeps.warmStart (s : State) (c : Nat) :
    StartKeeps true (s.warmStart c) ((((s.warmStart c).bootFirmware c).fromW c 0 true).pairAfterApply c) :=
  (((StartKeeps.refl true _).bootFirmware c).fromW c 0 true).pairAfterApply c

theorem exec_fullStart_of_not_due {s : State} (i : StartIn) (h : ∀ c, s.power.start ≠ some (c, false)) :
    exec (.fullStart i) s = .next s := by
  change execFullStart i s = _
  unfold execFullStart
  split
  · next c hc => exact absurd hc (h c)
  · rfl

theorem exec_warmRestart_of_not_due {s : State} (h : ∀ c, s.power.start ≠ some (c, true)) :
    exec .warmRestart s = .next s := by
  change execWarmRestart s = _
  unfold execWarmRestart
  split
  · next c hc => exact absurd hc (h c)
  · rfl

theorem exec_fullStart {s : State} {c : Nat} (i : StartIn) (h : s.power.start = some (c, false)) :
    exec (.fullStart i) s = .next (s.fullStart c i) := by
  simp only [exec, execFullStart, h]

/-- Settles O56, by what a full start makes of its state and what every later step of a start keeps. -/
theorem startsKeepWhatTheirCauseKeeps : Obligations.StartsKeepWhatTheirCauseKeeps := by
  unfold Obligations.StartsKeepWhatTheirCauseKeeps
  refine ⟨fun i s h => exec_fullStart_of_not_due i h, fun s h => exec_warmRestart_of_not_due h, fun c i s hs => ?_,
    fun c i s h => ?_, fun c s h hs => ?_⟩
  case refine_1 =>
    obtain ⟨hcause, ha, hb, hrestore⟩ := s.coldStart_shows c i
    have hu := s.coldStart_cold c i
    refine ⟨_, rfl, hcause, ha, hb, fun d hn hd => ?_, fun hn => ?_, fun a r hr h => State.get_coldStart hs hr h,
      hu.ing.1, hu.ing.2, hu.evtLog, hu.legLog, hu.copies.1, hu.copies.2, hu.fwu, hu.ns, hu.sto, hu.arm, hu.stored, hu.keys⟩
    · rw [hrestore, State.restoreShown_of_dirNew hn hd]
      cases d.complete <;> rfl
    · rw [hrestore, State.restoreShown_of_not_dirNew hn]
  case refine_2 =>
    exact ⟨_, exec_fullStart i h, (s.coldStart_cold c i).starts (StartKeeps.fullStart s c i)⟩
  case refine_3 =>
    have k := StartKeeps.warmStart s c
    obtain ⟨hmet, hqty, hns, hqueue⟩ := k.running rfl
    exact ⟨s.warmStart c, _, exec_warmRestart h, rfl, State.fld_setF_same c hs rfl,
      (OnlyRegs.refl _ s).setF c (.head _), rfl, rfl, rfl, rfl, rfl, rfl, s.ctx_restartCores, rfl, rfl, k.start, k.pace,
      hmet, hqty, hns, hqueue⟩

end Sys2Proof.Machine

/-! The step, and the pace boundary: what the count of paces and device time are after it (R22, R23, R414, R420). -/

namespace Sys2Proof

open Machine

/-- A signed field of a register that is not listed reads as before. -/
theorem OnlyRegs.fldInt {L : List Nat} {s t : State} (h : OnlyRegs L s t) {f : FieldRef} (hf : f.addr ∉ L) :
    t.regs.fldInt f = s.regs.fldInt f := by
  have e : t.regs.fld f = s.regs.fld f := h.fld hf
  unfold RegFile.fldInt
  rw [e]

end Sys2Proof

namespace Sys2Proof.Machine

/-- Settles O1, by the two forms of the queue. -/
theorem stepTakesTheFrontCommand : Obligations.StepTakesTheFrontCommand := by
  refine ⟨fun c rest s h => ?_, fun s h => ⟨s.quantumPasses, ?_, rfl, rfl⟩⟩
  · simp only [step, h]
  · simp only [step, h]

/-- A pace begins: its count, its quantum, the second that falls due, and each 1,000 paces the readings shown (R22, R23). -/
theorem State.nextPace_eq (s : State) : ∃ due recent,
    s.nextPace = { s with
      pace := { s.pace with count := s.pace.count + 1, quantum := 0 }, regs := s.nextPace.regs
      evt := { s.evt with secondDue := due }, ing := { s.ing with recent := recent } } ∧
    OnlyRegs [R.ING_RATE] s s.nextPace := by
  unfold State.nextPace
  dsimp only
  split
  · exact ⟨_, 0, rfl, (OnlyRegs.refl _ s).setF s.ing.recent (.head _)⟩
  · exact ⟨_, s.ing.recent, rfl, OnlyRegs.refl _ s⟩

/-- The slew of a pace is that of the slew left and of its limit. -/
theorem State.slewNow_congr {s t : State} (hclk : t.clk = s.clk) (hstep : t.fld F.CLK_STEP.SLEW_PPM = s.fld F.CLK_STEP.SLEW_PPM) :
    t.slewNow = s.slewNow := by
  unfold State.slewNow
  rw [hclk, hstep]

/-- The work of a boundary after the pace has begun leaves the pace alone. -/
theorem State.runBoundary_runs (s : State) (i : BoundaryIn) : Runs (s.catchUp i.badLegal).nextPace (s.runBoundary i) := by
  refine (State.boundarySteps_runs (Runs.refl _) s.sensorPlan i).keeps ?_
  unfold State.runBoundary
  dsimp only
  generalize (s.catchUp i.badLegal).nextPace.boundarySteps s.sensorPlan i = u
  have htime := State.advanceTime_keeps (State.tickPulses_keeps (State.sidebands_keeps (State.takeTurns_keeps (Keeps.refl u)) i))
  have hhost := Keeps.ite (c := s.power.cutDue = true) (fun _ => htime) fun _ => State.hostSamplesAct_keeps htime
  have hmet := State.takeSamples_keeps (State.frontEndBoundary_keeps hhost s.sensorPlan i.conv) s.qtyPlan
  have hsealed := State.opticalDue_keeps
    (State.sampleUpd_keeps (State.sealedPace_keeps hmet s.sensorPlan s.qtyPlan s.power.cutDue i.badLegal) i.legalUpd)
  have htrial := State.trackTrial_keeps (State.cancelTasks_keeps (State.watchBoundary_keeps hsealed i.allDone))
  exact Keeps.ite (fun _ => State.enterSave_keeps htrial) fun _ =>
    State.resetAfterApply_keeps (State.boundaryJobs_keeps htrial) i.badLegal

/-- A boundary of a running device begins quantum 0 of the next pace (R22, R23). -/
theorem State.runBoundary_pace (s : State) (i : BoundaryIn) :
    (s.runBoundary i).pace.count = s.pace.count + 1 ∧ (s.runBoundary i).pace.quantum = 0 := by
  obtain ⟨hcount, hquantum⟩ := (s.runBoundary_runs i).pace
  obtain ⟨due, recent, hnext, -⟩ := (s.catchUp i.badLegal).nextPace_eq
  have hcatch := (State.catchUp_keeps (Keeps.refl s) i.badLegal).pace.1
  rw [hcount, hquantum, hnext, ← hcatch]
  exact ⟨rfl, rfl⟩

/-- Settles O11, by the phase of the supply. -/
theorem paceBoundaryBeginsThePace : Obligations.PaceBoundaryBeginsThePace := by
  refine ⟨fun i s h => ?_, fun i s h => ?_, fun i s h => ?_⟩
  case refine_1 => simp only [exec, execPaceBoundary, h]
  case refine_2 =>
    obtain ⟨due, recent, hnext, hregs⟩ := s.nextPace_eq
    have hclk : s.nextPace.clk = s.clk := by rw [hnext]
    have hslew := State.slewNow_congr hclk (hregs.fld (by decide))
    have hfreq := hregs.fldInt (f := F.CLK_FREQ.PPB) (by decide)
    refine ⟨s.nextPace.advanceTime, _, by simp only [exec, execPaceBoundary, h], ?_, rfl, ?_, hregs.of_regs rfl, ?_⟩
    · exact (congrArg State.pace hnext :)
    · simp only [State.advanceTime, hclk, hslew, hfreq]
    · unfold State.advanceTime
      dsimp only
      rw [hnext]
  case refine_3 =>
    have e : exec (.paceBoundary i) s = .next (s.runBoundary i) := by
      rcases h with h | h <;> simp only [exec, execPaceBoundary, h]
    obtain ⟨hinv, hpending, hout, -⟩ := State.runBoundary_follows (Follows.refl s) i
    obtain ⟨hcount, hquantum⟩ := s.runBoundary_pace i
    exact ⟨_, e, hcount, hquantum, hpending, hout, hinv, rfl⟩

end Sys2Proof.Machine

/-! Overruns, pace faults and missed deadlines (R28 to R31). -/

namespace Sys2Proof.Machine

/-! ### The registers of the block PACE -/

/-- A register that is no array has one address (R442). -/
theorem RegSpec.hits_other {a x : Nat} (b : Bool) (l : List FieldSpec) (h : x ≠ a) : RegSpec.hits ⟨a, [], b, l⟩ x = false := by
  simp only [RegSpec.hits, dimsHit, ← Bool.decide_and, decide_eq_false_iff_not]
  omega

section
variable {e : Nat} (h : e < 32)
include h

theorem findReg_paceOvrCnt : findReg (R.PACE_OVR_CNT e) = regsPACE[4]? := by
  refine findReg_at (l := regsPACE.take 4) (b := 1) (by unfold R.PACE_OVR_CNT; omega) rfl ?_
    (RegSpec.hits_element _ _ (by decide) h)
  simp (disch := omega) [regsPACE, R.PACE_OVR_CNT, RegSpec.hits_other]

theorem findReg_paceOvrLast : findReg (R.PACE_OVR_LAST e) = regsPACE[5]? := by
  refine findReg_at (l := regsPACE.take 5) (b := 1) (by unfold R.PACE_OVR_LAST; omega) rfl ?_
    (RegSpec.hits_element _ _ (by decide) h)
  simp (disch := omega) [regsPACE, R.PACE_OVR_LAST, RegSpec.hits_other, RegSpec.hits_past]

theorem findReg_paceDlCnt : findReg (R.PACE_DL_CNT e) = regsPACE[6]? := by
  refine findReg_at (l := regsPACE.take 6) (b := 1) (by unfold R.PACE_DL_CNT; omega) rfl ?_
    (RegSpec.hits_element _ _ (by decide) h)
  simp (disch := omega) [regsPACE, R.PACE_DL_CNT, RegSpec.hits_other, RegSpec.hits_past]

end

/-- The count of an engine's overruns stands before the pace of its last one. -/
theorem paceOvrCnt_lt_last (e : Nat) : R.PACE_OVR_CNT e < R.PACE_OVR_LAST e := by
  unfold R.PACE_OVR_CNT R.PACE_OVR_LAST
  omega

/-- PACE_FAULT holds a bit for each engine (R30). -/
theorem findReg_paceFault : findReg R.PACE_FAULT = some ⟨R.PACE_FAULT, [], false, [⟨31, 0, .W1C, 0, .all⟩]⟩ := by
  decide +kernel

/-- Setting the bit of an engine in PACE_FAULT sets it. -/
theorem RegFile.getLsbD_put_paceFault {m : RegFile} {e : Nat} (w : Word) (hm : m.wf = true) (he : e < 32) :
    ((m.put R.PACE_FAULT (w ||| BitVec.ofNat 32 (2 ^ e))).get R.PACE_FAULT).getLsbD e = true := by
  rw [RegFile.get_put_same _ hm findReg_paceFault]
  refine (congrArg (BitVec.getLsbD · e) BitVec.and_allOnes).trans ?_
  rw [BitVec.getLsbD_or, BitVec.getLsbD_ofNat, Nat.testBit_two_pow_self, decide_eq_true he, Bool.and_true, Bool.or_true]

/-! ### Overruns -/

/-- An overrun is kept, counted, shown and recorded: a part of `execEngineOverrun` (R28, R29). -/
def State.countOverrun (s : State) (e : Nat) (l : List (Nat × Nat)) : State :=
  ((({ s with pace := { s.pace with overruns := Map.set s.pace.overruns e l } } : State).bump
    (F.PACE_OVR_CNT.COUNT e)).setF (F.PACE_OVR_LAST.PACE e) s.now).post Ev.PACE_OVERRUN [b2 e, b8 s.now]

/-- A pace fault sets the engine's bit and signals the fatal error: a part of `execEngineOverrun` (R30). -/
def State.signalPaceFault (s : State) (e lane : Nat) : State :=
  (({ s with regs := s.regs.put R.PACE_FAULT (s.regs.get R.PACE_FAULT ||| BitVec.ofNat 32 (2 ^ e)) } : State).post
    Ev.PACE_FAULT []).fatal 3 lane e 0

/-- The first overrun of a planned engine in a pace. -/
theorem exec_engineOverrun {s : State} {e lane : Nat} {l : List (Nat × Nat)} (hp : (s.paceEntry e lane).isSome = true)
    (hn : ∀ x, (Map.findD s.pace.overruns e []).head? = some x → x.1 ≠ s.now)
    (hl : l = ((s.now, Map.findD s.pace.turns e 0) :: Map.findD s.pace.overruns e []).take 10) :
    exec (.engineOverrun e lane) s =
      .next (if paceFault l then (s.countOverrun e l).signalPaceFault e lane else s.countOverrun e l) := by
  have hnew : ¬((s.paceEntry e lane).isNone = true ∨
      ((Map.findD s.pace.overruns e []).head?.map fun x => x.1) = some s.now) := by
    rw [not_or, Option.map_eq_some_iff]
    exact ⟨by simpa using Option.isSome_iff_ne_none.mp hp, fun ⟨x, hx, e⟩ => hn x hx e⟩
  simp only [exec, execEngineOverrun, if_neg hnew, ← hl]
  rfl

section
variable {s : State} {e : Nat} (l : List (Nat × Nat)) (hs : s.regs.wf = true) (he : e < 32)

theorem State.onlyRegs_countOverrun (s : State) (e : Nat) :
    OnlyRegs [R.PACE_OVR_CNT e, R.PACE_OVR_LAST e] s (s.countOverrun e l) :=
  ((OnlyRegs.refl _ s).bump (f := F.PACE_OVR_CNT.COUNT e) 1 (.head _)).setF (f := F.PACE_OVR_LAST.PACE e) s.now
    (.tail _ (.head _))

include hs

theorem State.countOverrun_wf : (s.countOverrun e l).regs.wf = true := RegFile.setF_wf _ _ (RegFile.bump_wf _ _ hs)

include he

theorem State.fld_countOverrun_count :
    (s.countOverrun e l).fld (F.PACE_OVR_CNT.COUNT e) = min (s.fld (F.PACE_OVR_CNT.COUNT e) + 1) 0xFFFF :=
  (RegFile.fld_setF_reg _ _ (paceOvrCnt_lt_last e).ne).trans
    (RegFile.fld_bump_same _ hs (FieldRef.ok_of_spans (findReg_paceOvrCnt he) rfl))

theorem State.fld_countOverrun_last : (s.countOverrun e l).fld (F.PACE_OVR_LAST.PACE e) = s.now % 2 ^ 32 :=
  RegFile.fld_setF_same _ (RegFile.bump_wf _ _ hs) (FieldRef.ok_of_spans (findReg_paceOvrLast he) rfl)

end

/-- The first fatal error stands (R438). -/
theorem State.fatal_signalPaceFault (s : State) (e lane : Nat) :
    (s.signalPaceFault e lane).hlt.fatal = (s.hlt.fatal <|> some ⟨3, lane, e, 0⟩) := by
  unfold State.signalPaceFault State.fatal
  dsimp only [State.post_hlt]
  cases s.hlt.fatal <;> rfl

theorem State.onlyRegs_signalPaceFault {L : List Nat} {s t : State} (h : OnlyRegs L s t) (e lane : Nat) (hf : R.PACE_FAULT ∈ L) :
    OnlyRegs L s (t.signalPaceFault e lane) :=
  fun a ha => (RegFile.get_put_other (a := R.PACE_FAULT) _ (by rintro rfl; exact ha hf)).trans (h a ha)

/-- R30: three overruns in consecutive paces of the engine, or ten within 1,000 paces. -/
theorem paceFault_iff (l : List (Nat × Nat)) : paceFault l = true ↔
    (∃ a b c m, l = a :: b :: c :: m ∧ a.2 = b.2 + 1 ∧ b.2 = c.2 + 1) ∨
    (∃ a z, l.head? = some a ∧ l[9]? = some z ∧ a.1 ≤ z.1 + 999) := by
  unfold paceFault
  rw [Bool.or_eq_true]
  refine or_congr ?_ ?_
  · match l with
    | [] | [_] | [_, _] => simp
    | a :: b :: c :: m =>
      rw [Bool.and_eq_true, beq_iff_eq, beq_iff_eq]
      refine ⟨fun h => ⟨a, b, c, m, rfl, h⟩, ?_⟩
      rintro ⟨_, _, _, _, ⟨⟩, h⟩
      exact h
  · cases l.head? <;> cases l[9]? <;> simp

/-- Settles O12: what an overrun, a pace fault and a missed deadline write, and the two forms of a pace fault. -/
theorem overrunsAndMissedDeadlinesAreCounted : Obligations.OverrunsAndMissedDeadlinesAreCounted := by
  refine ⟨fun e lane l s hs he hp hn hl => ⟨fun hf => ?_, fun hf => ?_⟩, fun e lane began x s hs he hx h0 hd => ?_, paceFault_iff⟩
  case refine_1 =>
    exact ⟨s.countOverrun e l, by rw [exec_engineOverrun hp hn hl, hf]; rfl, State.fld_countOverrun_count l hs he,
      State.fld_countOverrun_last l hs he, Map.findD_set_same .., State.onlyRegs_countOverrun l s e, rfl⟩
  case refine_2 =>
    have hregs := (State.onlyRegs_countOverrun l s e).mono (M := [R.PACE_OVR_CNT e, R.PACE_OVR_LAST e, R.PACE_FAULT]) (by simp)
    exact ⟨(s.countOverrun e l).signalPaceFault e lane, by rw [exec_engineOverrun hp hn hl, hf]; rfl,
      RegFile.getLsbD_put_paceFault _ (State.countOverrun_wf l hs) he, State.fatal_signalPaceFault _ e lane,
      State.onlyRegs_signalPaceFault hregs e lane (by simp), rfl⟩
  case refine_3 =>
    refine ⟨(s.bump (F.PACE_DL_CNT.COUNT e)).post Ev.PACE_DEADLINE [b2 e, b8 s.now], ?_,
      RegFile.fld_bump_same _ hs (FieldRef.ok_of_spans (findReg_paceDlCnt he) rfl),
      (OnlyRegs.refl _ s).bump (f := F.PACE_DL_CNT.COUNT e) 1 (.head _), rfl⟩
    simp only [exec, execJobDeadlineMiss, hx, h0, hd, and_self, if_true]

end Sys2Proof.Machine

/-! The scheduled image at its pace (R40). -/

namespace Sys2Proof.Machine

/-- What an image brings with it once it is the active one leaves it the active one (R40 to R42). -/
theorem State.installImage_keeps (s : State) (w : WarpImage) (bad : List (Nat × Nat)) :
    Keeps (s.holdImage w) (s.installImage w bad) := by
  unfold State.installImage
  extract_lets old traced s2 _ _ s3 s4 s5 s6 s7 s8 s9 s10 s11 _
  have h2 : Keeps (s.holdImage w) s2 := State.changeStorage_keeps (State.installRegs_keeps (Keeps.refl _) old w) w.storage bad
  have h3 : Keeps (s.holdImage w) s3 := h2.of_eq rfl rfl rfl rfl rfl rfl
  have h4 : Keeps (s.holdImage w) s4 := State.changeHosts_keeps h3 _
  have h5 : Keeps (s.holdImage w) s5 := Keeps.ite (fun _ => State.changeTopology_keeps h4 _ w.topology) fun _ => h4
  have h6 : Keeps (s.holdImage w) s6 := Keeps.ite (fun _ => State.sealedChange_keeps h5 traced false _) fun _ => h5
  have h7 : Keeps (s.holdImage w) s7 := Keeps.ite (fun _ => State.judgeReady_keeps (State.deliverSets_keeps h6)) fun _ => h6
  have h8 : Keeps (s.holdImage w) s8 := Keeps.ite (fun _ => State.changeRadios_keeps h7 old w) fun _ => h7
  have h9 : Keeps (s.holdImage w) s9 := Keeps.ite (fun _ => State.linesLow_keeps h8) fun _ => h8
  have h10 : Keeps (s.holdImage w) s10 :=
    Keeps.ite (fun _ => Keeps.foldl _ h9 fun t a h => State.afterInit_keeps h s.regs a) fun _ => h9
  have h11 : Keeps (s.holdImage w) s11 := State.post_keeps (Keeps.ite (fun _ => State.commonAtApply_keeps h10) fun _ => h10) _ _
  exact Keeps.ite (fun _ => h11.of_eq rfl rfl rfl rfl rfl rfl) fun _ =>
    Keeps.ite (fun _ => h11.of_eq rfl rfl rfl rfl rfl rfl) fun _ => h11

/-- A post reads neither the registers nor the Warp state. -/
theorem State.post_with (s : State) (r : RegFile) (w : WarpState) (c : Nat) (p : Payload) :
    ({ s with regs := r, warp := w } : State).post c p = { s.post c p with warp := w, regs := r } := rfl

/-- A refused image is shown in SYS_WARP_STAT and recorded (R39, R40). -/
theorem State.warpRejected_eq (s : State) (w : WarpState) (serial : Word) (cause : Nat) :
    ({ s with warp := w } : State).warpRejected serial cause =
      { s.post Ev.WARP_REJECTED [b8 serial.toNat, b2 cause] with
        warp := { w with refused := true }, regs := s.regs.setF F.SYS_WARP_STAT.CAUSE cause } :=
  calc ({ s with warp := w } : State).warpRejected serial cause
    _ = ({ s with regs := s.regs.setF F.SYS_WARP_STAT.CAUSE cause, warp := { w with refused := true } } : State).post
          Ev.WARP_REJECTED [b8 serial.toNat, b2 cause] := rfl
    _ = _ := State.post_with ..

section
variable {s : State} {w : WarpImage} {p : Nat} (hw : s.warp.waiting = some w) (hp : s.warp.sched = some p)
include hw hp

theorem State.appliesNow_eq : s.appliesNow = (decide (p ≤ s.now) && (!sealedDiffers s.warp.active w || s.sealedAllowed)) := by
  simp only [State.appliesNow, hw, hp]

theorem State.applyDue_early (h : s.now < p) (bad : List (Nat × Nat)) : s.applyDue bad = s := by
  simp only [State.applyDue, hw, hp, if_pos h]

theorem State.applyDue_due (h : p ≤ s.now) (bad : List (Nat × Nat)) : s.applyDue bad =
    if sealedDiffers s.warp.active w && !s.sealedAllowed then
      ({ s with warp := { s.warp with sched := none } } : State).warpRejected w.serial Cause.WARP_SEALED
    else s.installImage w bad := by
  simp only [State.applyDue, hw, hp, if_neg (not_lt.mpr h)]

theorem exec_applyScheduledImage_early (h : s.now < p) (bad : List (Nat × Nat)) (badLegal : List Nat) :
    exec (.applyScheduledImage bad badLegal) s = .next s := by
  simp [exec, execApplyScheduledImage, State.applyDue_early hw hp h, State.appliesNow_eq hw hp, h]

theorem exec_applyScheduledImage_applied (h : p ≤ s.now) (ha : sealedDiffers s.warp.active w = false ∨ s.sealedAllowed = true)
    (bad : List (Nat × Nat)) (badLegal : List Nat) : exec (.applyScheduledImage bad badLegal) s =
      .next (((s.installImage w bad).changeOver s.sensorPlan s.qtyPlan false badLegal).resetAfterApply badLegal) := by
  have hnot : ¬(sealedDiffers s.warp.active w && !s.sealedAllowed) = true := by
    rcases ha with ha | ha <;> simp [ha]
  have hnow : s.appliesNow = true := by
    rw [State.appliesNow_eq hw hp]
    rcases ha with ha | ha <;> simp [ha, h]
  simp only [exec, execApplyScheduledImage, State.applyDue_due hw hp h, if_neg hnot, if_pos hnow]

theorem exec_applyScheduledImage_refused (h : p ≤ s.now) (hd : sealedDiffers s.warp.active w = true)
    (ha : s.sealedAllowed = false) (bad : List (Nat × Nat)) (badLegal : List Nat) :
    exec (.applyScheduledImage bad badLegal) s =
      .next { s.post Ev.WARP_REJECTED [b8 w.serial.toNat, b2 Cause.WARP_SEALED] with
        warp := { s.warp with sched := none, refused := true }
        regs := s.regs.setF F.SYS_WARP_STAT.CAUSE Cause.WARP_SEALED } := by
  have hnot : ¬s.appliesNow = true := by simp [State.appliesNow_eq hw hp, hd, ha]
  have hrefused : (sealedDiffers s.warp.active w && !s.sealedAllowed) = true := by simp [hd, ha]
  simp only [exec, execApplyScheduledImage, State.applyDue_due hw hp h, if_pos hrefused, if_neg hnot, State.warpRejected_eq]

end

/-- Settles O13, by whether the image is due and its change permitted. -/
theorem scheduledImageAppliesAtItsPace : Obligations.ScheduledImageAppliesAtItsPace := by
  refine fun bad badLegal w p s hw hp => ⟨fun h => ?_, fun h ha => ?_, fun h hd ha hs => ?_⟩
  · exact exec_applyScheduledImage_early hw hp h bad badLegal
  · have hk := State.resetAfterApply_keeps
      (State.changeOver_keeps (s.installImage_keeps w bad) s.sensorPlan s.qtyPlan false badLegal) badLegal
    obtain ⟨⟨hinv, hpending, hout, -⟩, hcount, -⟩ := (State.holdImage_runs (Runs.refl s) w).keeps hk
    exact ⟨_, exec_applyScheduledImage_applied hw hp h ha bad badLegal, hk.image, hcount, hpending, hout, hinv, rfl⟩
  · have hok : F.SYS_WARP_STAT.CAUSE.ok = true := by decide +kernel
    have hcause : (s.regs.setF F.SYS_WARP_STAT.CAUSE Cause.WARP_SEALED).fld F.SYS_WARP_STAT.CAUSE = Cause.WARP_SEALED := by
      rw [RegFile.fld_setF_same _ hs hok]
      rfl
    have hregs := (OnlyRegs.refl [R.SYS_WARP_STAT] s).setF (f := F.SYS_WARP_STAT.CAUSE) Cause.WARP_SEALED (.head _)
    exact ⟨_, exec_applyScheduledImage_refused hw hp h hd ha bad badLegal, rfl, hcause, hregs.of_regs rfl, rfl⟩

end Sys2Proof.Machine

/-! The stage lock, the requests of SYS_COMMIT, and the check and the application of a commit (R44 to R46, R470, R475). -/

namespace Sys2Proof.Machine

/-! ### A write of one trigger bit -/

/-- The cause of a write is told to its requester in every phase (R9): it is no output of a port. -/
theorem State.send_regCause (s : State) (who : Requester) (addr c : Nat) :
    s.send (.regCause who addr c) = { s with out := s.out ++ [.regCause who addr c] } := by
  simp [State.send, Output.inside, Output.hostVisible, Output.shared]

/-- A ledger record touches nothing but the entry being formed (R393). -/
theorem State.record_eq (s : State) (r : LedgerRecord) : ∃ p, s.record r = { s with pair := p } := by
  unfold State.record
  split
  · exact ⟨_, rfl⟩
  · exact ⟨s.pair, rfl⟩

theorem entered_eq (s : State) (who : Requester) (addr : Nat) (value mask : Word) :
    ∃ p, entered s who addr value mask = { s with pair := p } := by
  unfold entered
  split
  · exact ⟨s.pair, rfl⟩
  · exact s.record_eq _

theorem enteredBit_eq (s : State) (who : Requester) (addr bit : Nat) : ∃ p, enteredBit s who addr bit = { s with pair := p } :=
  entered_eq s who addr _ _

/-- A requester that may write acts for a context: it alone has blocks it may write (R50). -/
theorem State.actsAs_of_writable {s : State} {who : Requester} {addr : Nat} (h : s.writeRefused who addr = Cause.OK) :
    ∃ c, s.actsAs who = some c := by
  by_contra hn
  have hnone : s.actsAs who = none := Option.eq_none_iff_forall_ne_some.mpr fun c hc => hn ⟨c, hc⟩
  have hblock : s.mayWriteBlock who addr = false := by simp [State.mayWriteBlock, hnone]
  cases hr : findReg addr with
  | none =>
    simp only [State.writeRefused, hr] at h
    exact absurd h (by decide)
  | some r =>
    simp only [s.writeRefused_of_findReg who hr, hblock, Bool.not_false, if_true] at h
    split at h <;> exact absurd h (by decide)

/-- A member that is no standby and not out of service forwards nothing (R391). -/
theorem State.forwards_of_role {s : State} (h1 : s.roleNow ≠ 1) (h3 : s.roleNow ≠ 3) : s.forwards = false := by
  simp [State.forwards, h1, h3]

/-- A permitted write of a member is judged on the state that has entered it in the ledger (R391, R393, R395). -/
theorem State.portWrite_of_mayWrite {s : State} {who : Requester} {addr : Nat} (h : MayWrite s who addr) (value mask : Word) :
    s.portWrite who addr value mask = (entered s who addr value mask).writeReg who addr value mask := by
  obtain ⟨hok, -, hlocal⟩ := h
  obtain ⟨c, hc⟩ := State.actsAs_of_writable hok
  simp only [State.portWrite, entered, hc, Option.getD_some]
  by_cases hb : localBlock addr = true
  · simp only [if_pos hb]
  · obtain ⟨h1, h3⟩ := hlocal.resolve_left hb
    simp only [if_neg hb, State.forwards_of_role h1 h3, Bool.false_eq_true, if_false]

/-- A write that selects one trigger and nothing else runs that trigger. -/
theorem State.writeFields_of_trigger {s : State} {who : Requester} {addr : Nat} {value mask : Word} {r : RegSpec} {f : FieldSpec}
    (hs : s.regs.wf = true) (hj : s.judged who addr value mask r = [(f, Cause.OK)]) (hf : f.acc = .WO) :
    s.writeFields who addr value mask r =
      let a := s.runTriggers who addr (value &&& mask) (triggerOrder addr [f])
      (a.1, firstCause r.fields a.2) := by
  have hput : s.regs.put addr (mergeWord (s.regs.get addr) value 0 &&& ~~~(value &&& 0)) = s.regs := by
    have hmerge : mergeWord (s.regs.get addr) value 0#32 &&& ~~~(value &&& 0#32) = s.regs.get addr := by
      rw [mergeWord, BitVec.and_zero, BitVec.or_zero, BitVec.not_zero, BitVec.and_allOnes, BitVec.and_allOnes]
    exact (congrArg (s.regs.put addr) hmerge).trans (RegFile.put_get addr hs)
  have hbits : ∀ p : Access → Bool, p .WO = false → takenBits [(f, Cause.OK)] mask p = 0 := fun p hp => by
    simp [takenBits, hf, hp]
  simp only [State.writeFields_eq, hj, hbits (fun a => a == .RW) rfl, hbits (fun a => a == .W1C) rfl,
    hbits (fun a => a == .RWS) rfl, hput]
  simp [Cause.OK, hf]

/-- A trigger of a register that no rule locks is taken. -/
theorem State.fieldCause_of_trigger {s : State} {addr : Nat} {f : FieldSpec} (hl : s.lockMask addr = 0) (hf : f.acc = .WO)
    (ha : addr ≠ R.MET_REF_CTL) (who : Requester) (r : RegSpec) (value mask : Word) :
    s.fieldCause who addr r value mask f = Cause.OK := by
  simp [State.fieldCause, hl, hf, ha]

/-- The field of a trigger at one bit. -/
def triggerField (bit : Nat) : FieldSpec := ⟨bit, bit, .WO, 0, .all⟩

@[simp] theorem triggerField_hi (bit : Nat) : (triggerField bit).hi = bit := rfl
@[simp] theorem triggerField_lo (bit : Nat) : (triggerField bit).lo = bit := rfl

/-- SYS_STAGE_LOCK and SYS_COMMIT, whose bits 0 and 1 are triggers (R45, R46, R470). -/
def StageReg (addr : Nat) : Prop := addr = R.SYS_STAGE_LOCK ∨ addr = R.SYS_COMMIT

theorem findReg_stageLock : findReg R.SYS_STAGE_LOCK =
    some ⟨R.SYS_STAGE_LOCK, [], false, [⟨7, 7, .RO, 0, .all⟩, ⟨6, 4, .RO, 0, .all⟩, triggerField 1, triggerField 0]⟩ := by
  decide +kernel

theorem findReg_commit : findReg R.SYS_COMMIT = some ⟨R.SYS_COMMIT, [], false, [triggerField 1, triggerField 0]⟩ := by
  decide +kernel

/-- What a write of bit 0 or 1 of these registers selects, and where its cause is found. -/
theorem StageReg.find {addr bit : Nat} (ha : StageReg addr) (hb : bit < 2) : ∃ r, findReg addr = some r ∧
    (r.fields.filter fun f => (BitVec.ofNat 32 (2 ^ bit) &&& f.mask) != 0 && f.acc != .RO && f.acc != .ROS && f.acc != .RC) =
      [triggerField bit] ∧
    ∀ c, firstCause r.fields [(bit, c)] = c := by
  have hcause : ∀ c, ([c].find? fun x => x != 0).getD Cause.OK = c := fun c => by
    by_cases hc : c = 0 <;> simp [hc, Cause.OK]
  rcases ha with rfl | rfl
  · refine ⟨_, findReg_stageLock, ?_, fun c => ?_⟩
    · interval_cases bit <;> rfl
    · interval_cases bit <;> exact hcause c
  · refine ⟨_, findReg_commit, ?_, fun c => ?_⟩
    · interval_cases bit <;> rfl
    · interval_cases bit <;> exact hcause c

/-- A permitted write of one of these bits runs its trigger, and the requester is told the cause. -/
theorem State.writeBit_stageReg {s : State} {who : Requester} {addr bit : Nat} (ha : StageReg addr) (hb : bit < 2)
    (hs : Inv s) (hm : MayWrite s who addr) :
    s.writeBit who addr bit =
      let a := (enteredBit s who addr bit).trigger who addr bit 1
      { a.1 with out := a.1.out ++ [.regCause who addr a.2] } := by
  obtain ⟨r, hr, hsel, hfirst⟩ := ha.find hb
  obtain ⟨p, hp⟩ := enteredBit_eq s who addr bit
  have hne : addr ≠ R.MET_REF_CTL := by rcases ha with rfl | rfl <;> decide
  have hctl : hostCtlOf addr = none := by rcases ha with rfl | rfl <;> decide
  have hbit : fieldOf (BitVec.ofNat 32 (2 ^ bit) &&& BitVec.ofNat 32 (2 ^ bit)) bit bit = 1 := by interval_cases bit <;> rfl
  unfold State.writeBit State.writeFor
  rw [State.portWrite_of_mayWrite hm, ← enteredBit]
  generalize hu : enteredBit s who addr bit = u at hp ⊢
  have hl : u.lockMask addr = 0 := by rw [hp]; exact hm.2.1
  have hok : u.writeRefused who addr = Cause.OK := by rw [hp]; exact hm.1
  have hw : u.regs.wf = true := by rw [hp]; exact hs
  have hj : u.judged who addr (BitVec.ofNat 32 (2 ^ bit)) (BitVec.ofNat 32 (2 ^ bit)) r = [(triggerField bit, Cause.OK)] := by
    rw [State.judged, hsel, List.map_singleton, State.fieldCause_of_trigger hl rfl hne]
  have ho : triggerOrder addr [triggerField bit] = [triggerField bit] := by simp [triggerOrder, hctl]
  simp only [State.writeReg, hr, hok, if_true, State.writeFields_of_trigger hw hj rfl, ho, State.runTriggers, List.foldl_cons,
    List.foldl_nil, List.nil_append, triggerField_hi, triggerField_lo, hbit, hfirst, State.send_regCause]

/-! ### What the triggers do -/

/-- The requester holds the stage lock: a part of `trigger`. -/
def State.holdsStage (s : State) (who : Requester) : Bool := s.stage.owner.isSome && s.stage.owner == s.actsAs who

theorem State.holdsStage_of_owner {s : State} {who : Requester} {c : Nat} (hc : s.actsAs who = some c)
    (ho : s.stage.owner = some c) : s.holdsStage who = true := by
  simp [State.holdsStage, hc, ho]

theorem State.not_holdsStage {s : State} {who : Requester} (h : s.stage.owner = none ∨ s.stage.owner ≠ s.actsAs who) :
    s.holdsStage who = false := by
  rcases h with h | h <;> simp [State.holdsStage, h]

theorem State.trigger_acquire {s : State} {who : Requester} {c : Nat} (hc : s.actsAs who = some c) :
    s.trigger who R.SYS_STAGE_LOCK 0 1 =
      if s.stage.owner.isNone then (s.stageAcquire c, Cause.OK) else (s, Cause.STAGE_LOCKED) := by
  have hn : R.SYS_STAGE_LOCK ≠ R.BAL_CMD := by decide
  simp only [State.trigger, if_neg hn, hc, if_true, Nat.one_ne_zero, Nat.zero_ne_one, if_false]

theorem State.trigger_release (s : State) (who : Requester) : s.trigger who R.SYS_STAGE_LOCK 1 1 =
    if s.holdsStage who then (s.stageRelease, Cause.OK) else (s, Cause.STAGE_LOCKED) := rfl

theorem State.trigger_go (s : State) (who : Requester) : s.trigger who R.SYS_COMMIT 0 1 =
    if !s.holdsStage who then (s, Cause.STAGE_LOCKED)
    else if s.stage.set.isEmpty then (s, Cause.COMMIT_EMPTY) else (s.commitGo, Cause.OK) := rfl

theorem State.trigger_discard (s : State) (who : Requester) : s.trigger who R.SYS_COMMIT 1 1 =
    if !s.holdsStage who then (s, Cause.STAGE_LOCKED) else (s.commitDiscard, Cause.OK) := rfl

/-! ### The requests -/

section
variable {s : State} {who : Requester} {addr bit c : Nat} (ha : StageReg addr) (hb : bit < 2) (hs : Inv s)
  (hm : MayWrite s who addr)
include ha hb hs hm

/-- A request that changes nothing but the stage, and what it tells its requester. -/
theorem State.writeBit_staged {g : StageState}
    (h : ∀ p, ({ s with pair := p } : State).trigger who addr bit 1 = ({ s with pair := p, stage := g }, c)) :
    s.writeBit who addr bit =
      { enteredBit s who addr bit with stage := g, out := s.out ++ [.regCause who addr c] } := by
  obtain ⟨p, hp⟩ := enteredBit_eq s who addr bit
  rw [State.writeBit_stageReg ha hb hs hm, hp, h p]

/-- A request that is not taken has no effect but the cause that its requester is told. -/
theorem State.writeBit_refused
    (h : ∀ p, ({ s with pair := p } : State).trigger who addr bit 1 = ({ s with pair := p }, c)) :
    s.writeBit who addr bit = { enteredBit s who addr bit with out := s.out ++ [.regCause who addr c] } := by
  obtain ⟨p, hp⟩ := enteredBit_eq s who addr bit
  rw [State.writeBit_stageReg ha hb hs hm, hp, h p]

end

section
variable {s : State} {who : Requester} {c : Nat} (hs : Inv s)
include hs

theorem exec_stageAcquire_free (hm : MayWrite s who R.SYS_STAGE_LOCK) (hc : s.actsAs who = some c) (ho : s.stage.owner = none) :
    exec (.stageAcquire who) s = .next { enteredBit s who R.SYS_STAGE_LOCK 0 with
      stage := { s.stage with owner := some c, set := [], touched := s.now }
      out := s.out ++ [.regCause who R.SYS_STAGE_LOCK Cause.OK] } := by
  refine congrArg _ (State.writeBit_staged (.inl rfl) (by decide) hs hm fun p => ?_)
  rw [State.trigger_acquire (s := { s with pair := p }) hc, if_pos (by rw [ho]; rfl)]
  rfl

theorem exec_stageAcquire_held (hm : MayWrite s who R.SYS_STAGE_LOCK) (ho : s.stage.owner ≠ none) :
    exec (.stageAcquire who) s = .next { enteredBit s who R.SYS_STAGE_LOCK 0 with
      out := s.out ++ [.regCause who R.SYS_STAGE_LOCK Cause.STAGE_LOCKED] } := by
  obtain ⟨c, hc⟩ := State.actsAs_of_writable hm.1
  refine congrArg _ (State.writeBit_refused (.inl rfl) (by decide) hs hm fun p => ?_)
  rw [State.trigger_acquire (s := { s with pair := p }) hc, if_neg (by simpa using ho)]

section
variable (hc : s.actsAs who = some c) (ho : s.stage.owner = some c)
include hc ho

theorem exec_stageRelease_owner (hm : MayWrite s who R.SYS_STAGE_LOCK) :
    exec (.stageRelease who) s = .next { enteredBit s who R.SYS_STAGE_LOCK 1 with
      stage := { s.stage.withdraw with owner := none, set := [] }
      out := s.out ++ [.regCause who R.SYS_STAGE_LOCK Cause.OK] } := by
  refine congrArg _ (State.writeBit_staged (.inl rfl) (by decide) hs hm fun p => ?_)
  rw [State.trigger_release, State.holdsStage_of_owner (s := { s with pair := p }) hc ho]
  rfl

theorem exec_commitGo_owner (hm : MayWrite s who R.SYS_COMMIT) (hset : s.stage.set ≠ []) :
    exec (.commitGo who) s = .next { enteredBit s who R.SYS_COMMIT 0 with
      stage := { s.stage with
        state := .pending, accepted := false, touched := s.now
        checkAt := if s.pace.quantum < 15 then s.now else s.now + 1 }
      out := s.out ++ [.regCause who R.SYS_COMMIT Cause.OK] } := by
  have hset' : s.stage.set.isEmpty = false := by simpa using hset
  refine congrArg _ (State.writeBit_staged (.inr rfl) (by decide) hs hm fun p => ?_)
  rw [State.trigger_go, State.holdsStage_of_owner (s := { s with pair := p }) hc ho]
  simp only [hset', Bool.not_true, Bool.false_eq_true, if_false]
  rfl

theorem exec_commitGo_empty (hm : MayWrite s who R.SYS_COMMIT) (hset : s.stage.set = []) :
    exec (.commitGo who) s = .next { enteredBit s who R.SYS_COMMIT 0 with
      out := s.out ++ [.regCause who R.SYS_COMMIT Cause.COMMIT_EMPTY] } := by
  refine congrArg _ (State.writeBit_refused (.inr rfl) (by decide) hs hm fun p => ?_)
  rw [State.trigger_go, State.holdsStage_of_owner (s := { s with pair := p }) hc ho]
  simp only [hset, Bool.not_true, Bool.false_eq_true, if_false, List.isEmpty_nil, if_true]

theorem exec_commitDiscard_owner (hm : MayWrite s who R.SYS_COMMIT) :
    exec (.commitDiscard who) s = .next { enteredBit s who R.SYS_COMMIT 1 with
      stage := { s.stage.withdraw with set := [] }
      out := s.out ++ [.regCause who R.SYS_COMMIT Cause.OK] } := by
  refine congrArg _ (State.writeBit_staged (.inr rfl) (by decide) hs hm fun p => ?_)
  rw [State.trigger_discard, State.holdsStage_of_owner (s := { s with pair := p }) hc ho]
  rfl

end

section
variable (ho : s.stage.owner = none ∨ s.stage.owner ≠ s.actsAs who)
include ho

theorem exec_stageRelease_other (hm : MayWrite s who R.SYS_STAGE_LOCK) :
    exec (.stageRelease who) s = .next { enteredBit s who R.SYS_STAGE_LOCK 1 with
      out := s.out ++ [.regCause who R.SYS_STAGE_LOCK Cause.STAGE_LOCKED] } := by
  refine congrArg _ (State.writeBit_refused (.inl rfl) (by decide) hs hm fun p => ?_)
  rw [State.trigger_release, State.not_holdsStage (s := { s with pair := p }) ho]
  rfl

theorem exec_commitGo_other (hm : MayWrite s who R.SYS_COMMIT) :
    exec (.commitGo who) s = .next { enteredBit s who R.SYS_COMMIT 0 with
      out := s.out ++ [.regCause who R.SYS_COMMIT Cause.STAGE_LOCKED] } := by
  refine congrArg _ (State.writeBit_refused (.inr rfl) (by decide) hs hm fun p => ?_)
  rw [State.trigger_go, State.not_holdsStage (s := { s with pair := p }) ho]
  rfl

theorem exec_commitDiscard_other (hm : MayWrite s who R.SYS_COMMIT) :
    exec (.commitDiscard who) s = .next { enteredBit s who R.SYS_COMMIT 1 with
      out := s.out ++ [.regCause who R.SYS_COMMIT Cause.STAGE_LOCKED] } := by
  refine congrArg _ (State.writeBit_refused (.inr rfl) (by decide) hs hm fun p => ?_)
  rw [State.trigger_discard, State.not_holdsStage (s := { s with pair := p }) ho]
  rfl

end
end

/-- Settles O14, request by request: what its trigger does to the stage, for the owner of the lock and for others. -/
theorem stageLockAndCommitRequests : Obligations.StageLockAndCommitRequests :=
  ⟨fun _ _ _ hs hm hc ho => exec_stageAcquire_free hs hm hc ho,
    fun _ _ _ hs hm hc ho => exec_stageRelease_owner hs hc ho hm,
    fun _ _ _ hs hm hc ho hset => exec_commitGo_owner hs hc ho hm hset,
    fun _ _ _ hs hm hc ho hset => exec_commitGo_empty hs hc ho hm hset,
    fun _ _ _ hs hm hc ho => exec_commitDiscard_owner hs hc ho hm,
    fun _ => ⟨fun h => if_pos h, fun h => if_neg h⟩,
    fun _ _ hs => ⟨exec_stageAcquire_held hs, fun hm ho => exec_stageRelease_other hs ho hm,
      fun hm ho => ⟨exec_commitGo_other hs ho hm, exec_commitDiscard_other hs ho hm⟩⟩⟩

/-! ### The check and the application of a commit -/

/-- The consistency rules read no quantum. -/
theorem State.commitFault_quantum (s : State) (q : Nat) :
    ({ s with pace := { s.pace with quantum := q } } : State).commitFault = s.commitFault := rfl

section
variable {s : State} {c : Nat} (ho : s.stage.owner = some c)
include ho

theorem exec_stageTimeout_expired (he : s.stageExpired = true) :
    exec .stageTimeout s = .next (({ s with stage := { s.stage.withdraw with owner := none, set := [] } } : State).notify c
      0x8002 [causeDetail Cause.STAGE_TIMEOUT 0] false) := by
  simp only [exec, execStageTimeout, ho, he, if_true, State.commitNotice, State.stageRelease]

theorem State.judgeCommit_of_fault {a : Nat} (hf : s.commitFault = some a) :
    s.judgeCommit = ({ s with
      regs := ((s.regs.setF F.SYS_COMMIT_STAT.CAUSE Cause.COMMIT_INCONSISTENT).put R.SYS_COMMIT_ADDR (BitVec.ofNat 32 a)).setF
        F.SYS_COMMIT_PACE.PACE s.now
      stage := { s.stage with state := .rejected } } : State).notify c 0x8002 [causeDetail Cause.COMMIT_INCONSISTENT a] false := by
  simp only [State.judgeCommit, ho, hf, State.commitNotice]

end

theorem State.judgeCommit_of_no_fault {s : State} (hf : s.commitFault = none) :
    s.judgeCommit = { s with stage := { s.stage with accepted := true } } := by
  unfold State.judgeCommit
  rw [hf]
  split
  · contradiction
  · rfl

theorem exec_commitCheck_idle {s : State} (h : s.stage.state ≠ .pending ∨ s.stage.accepted = true ∨ s.now < s.stage.checkAt) :
    exec .commitCheck s = .next { s with pace := { s.pace with quantum := 15 } } := by
  have hidle : ¬(s.stage.state = .pending ∧ ¬s.stage.accepted = true ∧ s.stage.checkAt ≤ s.now) := by
    rintro ⟨h1, h2, h3⟩
    rcases h with h | h | h
    · exact h h1
    · exact h2 h
    · exact absurd h3 (not_le.mpr h)
  exact congrArg _ (if_neg hidle)

theorem exec_commitCheck_due {s : State} (h1 : s.stage.state = .pending) (h2 : s.stage.accepted = false)
    (h3 : s.stage.checkAt ≤ s.now) :
    exec .commitCheck s = .next ({ s with pace := { s.pace with quantum := 15 } } : State).judgeCommit :=
  congrArg _ (if_pos ⟨h1, by simp [h2], h3⟩)

theorem exec_commitApply_due {s : State} {c : Nat} (ho : s.stage.owner = some c) (h1 : s.stage.state = .pending)
    (h2 : s.stage.accepted = true) (h3 : s.stage.checkAt < s.now) :
    exec .commitApply s = .next ((({ s with
      regs := ((s.stage.set.foldl (fun (m : RegFile) e => m.put e.1 (mergeWord (m.get e.1) e.2.value e.2.mask))
        s.regs).setF F.SYS_COMMIT_STAT.CAUSE 0).setF F.SYS_COMMIT_PACE.PACE s.now
      stage := { s.stage with owner := none, set := [], state := .applied, accepted := false } } : State).afterCommit
        s.stage.set).notify c 0x8002 [causeDetail Cause.OK 0] false) := by
  simp only [exec, execCommitApply, State.applyCommit, ho, h1, h2, h3, and_self, if_true, State.commitNotice]

/-- Settles O15: the timeout, the check by whether a commit is due and has a fault, and the application. -/
theorem commitsAreCheckedAndApplied : Obligations.CommitsAreCheckedAndApplied := by
  refine ⟨fun c s ho he => exec_stageTimeout_expired ho he, fun s h => exec_commitCheck_idle h, fun s h1 h2 h3 hf => ?_,
    fun c a s ho h1 h2 h3 hf => ?_, fun c s ho h1 h2 h3 => exec_commitApply_due ho h1 h2 h3⟩
  · rw [exec_commitCheck_due h1 h2 h3, State.judgeCommit_of_no_fault ((s.commitFault_quantum 15).trans hf)]
  · exact (exec_commitCheck_due h1 h2 h3).trans (congrArg _ (State.judgeCommit_of_fault
      (s := { s with pace := { s.pace with quantum := 15 } }) ho ((s.commitFault_quantum 15).trans hf)))

end Sys2Proof.Machine

/-! Serving a command of a host: the bucket, the judgement of R61 and the right come before it runs (R50, R60, R61). -/

namespace Sys2Proof.Machine

/-! ### The contexts -/

@[simp] theorem State.ctx_setCtx_same (s : State) (c : Nat) (x : Ctx) : (s.setCtx c x).ctx c = x := Map.findD_set_same ..

theorem State.ctx_setCtx_other (s : State) {c d : Nat} (x : Ctx) (h : d ≠ c) : (s.setCtx c x).ctx d = s.ctx d :=
  Map.findD_set_other _ _ h

/-! ### Serving -/

section
variable {s : State} {opcode : Nat} {m : Msg}

theorem State.serve_of_rate (run : State → State) (ho : m.opcode = opcode) (hi : s.host.inbox.contains m = true)
    (h8 : m.seat ≠ 8) (hr : s.rateOk m.seat = false) : s.serve opcode m run =
      ({ s with host := { s.host with inbox := s.host.inbox.erase m } } : State).busy m Cause.BUSY_RATE :=
  (if_pos ⟨ho, hi⟩).trans (if_pos ⟨h8, ne_true_of_eq_false hr⟩)

/-- A command that has a place in its bucket is judged by R61. -/
theorem State.serve_of_waits (run : State → State) (h : Waits s opcode m) :
    s.serve opcode m run = match (taken s m).judgeSeq m with
      | .answer c => (taken s m).resp m false 0 c []
      | .drop => taken s m
      | .again op t c b =>
        ((taken s m).bump (F.HOST_REPEAT_CNT.COUNT m.seat)).resp { m with opcode := op } true (BitVec.ofNat 32 t) c b
      | .fresh => run (begun s m) := by
  obtain ⟨ho, hi, hr⟩ := h
  have hrate : ¬(m.seat ≠ 8 ∧ ¬ s.rateOk m.seat = true) := fun ⟨h8, hn⟩ => hn (hr.resolve_left h8)
  refine ((if_pos ⟨ho, hi⟩).trans (if_neg hrate)).trans ?_
  rfl

theorem State.serve_of_served (run : State → State) (h : Served s opcode m) : s.serve opcode m run = run (begun s m) := by
  rw [State.serve_of_waits run h.1, h.2]

/-- A command outside the sequence with a place in its bucket runs at once (R476). -/
theorem State.serveOutside_of_waits (run : State → State) (h : Waits s opcode m) :
    s.serveOutside opcode m run = run (taken s m) := by
  obtain ⟨ho, hi, hr⟩ := h
  have hrate : ¬(m.seat ≠ 8 ∧ ¬ s.rateOk m.seat = true) := fun ⟨h8, hn⟩ => hn (hr.resolve_left h8)
  exact (if_pos ⟨ho, hi⟩).trans (if_neg hrate)

end

/-- A command runs by `run` when R61 takes it as new. -/
def RunsBy (opcode : Nat) (i : Msg → Instr) (run : Msg → State → State) : Prop :=
  ∀ m s, exec (i m) s = .next (s.serve opcode m (run m))

/-- A run that answers RIGHTS, and does nothing else, where the seat lacks the right (R50). -/
def AsksRight (right : Option Nat) (run : Msg → State → State) : Prop :=
  ∀ m b (u : State), right = some b → u.hasRight m.seat b = false → run m u = u.resp m false 0 Cause.RIGHTS []

theorem AsksRight.none (run : Msg → State → State) : AsksRight none run := fun _ _ _ h => nomatch h

theorem AsksRight.taskCommand (right : Option Nat) (item : State → ItemRef → Tlv → State × ItemEnd) :
    AsksRight right fun m u => u.taskCommand m right item := by
  rintro m b u rfl h
  exact if_neg (ne_true_of_eq_false h)

/-- The commands that open a task for their items and need a right of their own: the right, and what an item does (R59). -/
def taskCommands : List (Nat × Option Nat × (Msg → Instr) × (State → ItemRef → Tlv → State × ItemEnd)) :=
  [(0x0040, some 5, .meterWrite, runMeterWrite), (0x0041, some 4, .readingsPush, runReading),
    (0x0042, some 3, .readingsGet, runReadSpan), (0x0050, some 6, .tariffLoad, runTariffItem),
    (0x0051, some 3, .billingGet, runBillReq), (0x0060, some 7, .tokenSubmit, runTokenItem),
    (0x0070, some 8, .balanceGet, runBalanceItem), (0x0080, some 9, .fwBlock, runFwBlock),
    (0x0090, some 13, .bulkRead, runBulkSpan), (0x0091, some 14, .bulkWrite, runBulkSector),
    (0x0092, some 14, .bulkDiscard, runBulkTrim), (0x00A0, some 15, .timeSet, runTimeSet),
    (0x00C0, some 12, .eventRead, runEventSpan), (0x00E0, some 16, .pairSwitch, runPairSwitch),
    (0x00F0, some 20, .resetCmd, runReset)]

theorem taskCommands_run : ∀ row ∈ taskCommands, RunsBy row.1 row.2.2.1 fun m u => u.taskCommand m row.2.1 row.2.2.2 := by
  intro row h
  fin_cases h <;> exact fun _ _ => rfl

theorem regWrite_run : RunsBy 0x0011 .regWrite fun m u => u.taskCommand m none runRegWrite := fun _ _ => rfl

/-- The commands that need no right of their own; REG_READ judges its right as it runs (R50). -/
def openCommands : List (Nat × Option Nat × (Msg → Instr)) :=
  [(0x0010, none, .regRead), (0x0011, none, .regWrite), (0x0020, none, .taskQuery), (0x0021, none, .taskCancel)]

/-- Every command judged by R61 runs after its right was judged. -/
theorem commands_run : ∀ row ∈ openCommands ++ taskCommands.map fun t => (t.1, t.2.1, t.2.2.1),
    ∃ run, RunsBy row.1 row.2.2 run ∧ AsksRight row.2.1 run := by
  intro row h
  rcases List.mem_append.mp h with h | h
  · fin_cases h <;> exact ⟨_, fun _ _ => rfl, .none _⟩
  · obtain ⟨t, ht, rfl⟩ := List.mem_map.mp h
    exact ⟨_, taskCommands_run t ht, .taskCommand _ _⟩

/-! ### The judgement of a sequence number (R61) -/

section
variable {s : State} {m : Msg} (h8 : m.seat ≠ 8)
include h8

theorem State.judgeSeq_stale (h : (m.seq - (s.ctx m.seat).high).toInt ≤ -64) : s.judgeSeq m = .answer Cause.SEQ_STALE :=
  (if_neg h8).trans (if_pos h)

theorem State.raiseHigh_high : ((s.raiseHigh m).ctx m.seat).high =
    if 0 < (m.seq - (s.ctx m.seat).high).toInt then m.seq else (s.ctx m.seat).high := by
  have hraise : ((s.raiseHigh m).ctx m.seat) = { s.ctx m.seat with
      high := if 0 < (m.seq - (s.ctx m.seat).high).toInt then m.seq else (s.ctx m.seat).high } := by
    rw [State.raiseHigh, if_neg h8]
    exact Map.findD_set_same ..
  rw [hraise]

section
variable (h : -64 < (m.seq - (s.ctx m.seat).high).toInt)
include h

theorem State.judgeSeq_journalled {j : JournalTask}
    (hj : (s.host.journal.find? fun j => j.seat == m.seat && j.seq == m.seq) = some j) :
    s.judgeSeq m = if j.digest ≠ m.digest then .answer Cause.SEQ_CONFLICT
      else match j.resp with | none => .drop | some b => .again j.opcode j.handle 0 b := by
  simp only [State.judgeSeq, if_neg h8, if_neg (not_le.mpr h), hj] <;> rfl

section
variable (hj : (s.host.journal.find? fun j => j.seat == m.seat && j.seq == m.seq) = none)
include hj

theorem State.judgeSeq_first (hr : m.rep = false) : s.judgeSeq m = .fresh := by
  simp only [State.judgeSeq, if_neg h8, if_neg (not_le.mpr h), hj, hr, Bool.false_eq_true, if_false]

theorem State.judgeSeq_kept (hr : m.rep = true) {k : KeptResp}
    (hk : ((s.ctx m.seat).kept.find? fun k => k.seq == m.seq) = some k) :
    s.judgeSeq m = if k.digest ≠ m.digest then .answer Cause.SEQ_CONFLICT else .again 0x0010 0 k.cause k.body := by
  simp only [State.judgeSeq, if_neg h8, if_neg (not_le.mpr h), hj, hr, if_true, hk]

theorem State.judgeSeq_forgotten (hr : m.rep = true) (hk : ((s.ctx m.seat).kept.find? fun k => k.seq == m.seq) = none) :
    s.judgeSeq m = .fresh := by
  simp only [State.judgeSeq, if_neg h8, if_neg (not_le.mpr h), hj, hr, if_true, hk]

end
end
end

/-- Settles O19: every command is served alike, and R61 judges it case by case. -/
theorem hostCommandsAreJudgedBeforeTheyRun : Obligations.HostCommandsAreJudgedBeforeTheyRun := by
  refine ⟨fun row hrow m s ho hi => ?_, fun m s h8 => ⟨State.judgeSeq_stale h8,
    fun h => ⟨fun j => State.judgeSeq_journalled h8 h, fun hj => ⟨State.judgeSeq_first h8 h hj,
      fun hr k => State.judgeSeq_kept h8 h hj hr, State.judgeSeq_forgotten h8 h hj⟩⟩,
    State.raiseHigh_high h8⟩⟩
  obtain ⟨run, hrun, hright⟩ := commands_run row hrow
  rw [hrun]
  refine ⟨fun h8 hr => congrArg _ (State.serve_of_rate _ ho hi h8 hr), fun hr => ?_⟩
  rw [State.serve_of_waits _ ⟨ho, hi, hr⟩]
  refine ⟨fun c hc => by rw [hc], fun hd => by rw [hd], fun op h c b ha => by rw [ha], fun b hb hf hn => ?_⟩
  rw [hf]
  exact congrArg _ (hright m b _ hb hn)

/-! ### Tasks -/

section
variable {u : State} {m : Msg} (run : State → ItemRef → Tlv → State × ItemEnd)

theorem State.admitTask_of_admits {valid : Tlv → Bool} {items : List Tlv} (h : Admits u m valid items) :
    u.admitTask m valid run items = ran u m run items := by
  obtain ⟨hne, hvalid, hlen, hfull, hquota⟩ := h
  have hform : ¬(items.isEmpty || !items.all valid) = true := by simp [hvalid, hne]
  have hstore : ¬(m.seat ≠ 8 ∧ (u.ctx m.seat).full = true) := fun ⟨h8, hf⟩ =>
    absurd hf (ne_true_of_eq_false (hfull.resolve_left h8))
  have hmost : ¬1048576 < items.length := by omega
  simp only [State.admitTask, if_neg hform, if_neg hmost, if_neg hstore, hquota]
  rfl

theorem State.taskCommand_of_admits {right : Option Nat} (hr : ∀ b, right = some b → u.hasRight m.seat b = true)
    (h : Admits u m itemOk (itemsOf m.opcode m.tlvs)) :
    u.taskCommand m right run = ran u m run (itemsOf m.opcode m.tlvs) := by
  rw [← State.admitTask_of_admits run h]
  refine if_pos ?_
  cases right with
  | none => rfl
  | some b => exact hr b rfl

end

/-- A task command taken as new, with its right and admitted, runs its items. -/
theorem State.serve_task {s : State} {m : Msg} {opcode : Nat} {right : Option Nat}
    (item : State → ItemRef → Tlv → State × ItemEnd) (hs : Served s opcode m)
    (hr : ∀ b, right = some b → (begun s m).hasRight m.seat b = true)
    (ha : Admits (begun s m) m itemOk (itemsOf opcode m.tlvs)) :
    (s.serve opcode m fun u => u.taskCommand m right item) = ran (begun s m) m item (itemsOf opcode m.tlvs) := by
  rw [State.serve_of_served _ hs]
  obtain ⟨⟨rfl, -, -⟩, -⟩ := hs
  exact State.taskCommand_of_admits item hr ha

/-- The one implicit item of WARP_LOAD and WARP_APPLY (log 41). -/
theorem State.serve_implicit {s : State} {m : Msg} {opcode bit : Nat} (item : State → ItemRef → Tlv → State × ItemEnd)
    (hs : Served s opcode m) (hr : (begun s m).hasRight m.seat bit = true)
    (ha : Admits (begun s m) m (fun _ => true) [⟨0, []⟩]) :
    (s.serve opcode m fun t => if t.hasRight m.seat bit then t.admitTask m (fun _ => true) item [⟨0, []⟩]
      else t.resp m false 0 Cause.RIGHTS []) = ran (begun s m) m item [⟨0, []⟩] := by
  rw [State.serve_of_served _ hs, if_pos hr]
  exact State.admitTask_of_admits item ha

/-- Settles O18: one argument for the commands whose items stand in TLVs, one for those of an implicit item. -/
theorem taskCommandsRunTheirItems : Obligations.TaskCommandsRunTheirItems := by
  refine ⟨fun row hrow m s hs hr ha => ?_, fun m s => ⟨fun image hs hr ha => ?_, fun p hs hr ha => ?_, fun hrng hs hr ha => ?_,
    fun readBack levels u hu hs hr ha => ?_, fun readable hs hr ha => ?_⟩⟩
  · have hrun : RunsBy row.1 row.2.2.1 fun m u => u.taskCommand m row.2.1 row.2.2.2 := by
      rcases List.mem_cons.mp hrow with rfl | hrow
      · exact regWrite_run
      · exact taskCommands_run row hrow
    exact (hrun m s).trans (congrArg _ (State.serve_task _ hs hr ha))
  · exact congrArg _ (State.serve_implicit _ hs hr ha)
  · exact congrArg _ (State.serve_implicit _ hs hr ha)
  · have hgo : ¬((m.tlvs.any fun t => t.type == 0x008B) && !s.randomOk) = true := by
      rcases hrng with h | h <;> simp [h]
    exact (if_neg hgo).trans (congrArg _ (State.serve_task (right := some 10) _ hs (fun _ e => Option.some.inj e ▸ hr) ha))
  · subst hu
    exact congrArg _ (State.serve_task (right := some 17) _ hs (fun _ e => Option.some.inj e ▸ hr) ha)
  · exact congrArg _ (State.serve_task (right := some 18) _ hs (fun _ e => Option.some.inj e ▸ hr) ha)

end Sys2Proof.Machine

/-! Task handles, the commands on registers and tasks, items, acknowledgements and notices sent again (R59 to R72, R477). -/

namespace Sys2Proof.Machine

/-! ### Handles and generations (R64) -/

theorem handleOf_mod {slot : Nat} (gen : Nat) (h : slot < 4096) : handleOf slot gen % 4096 = slot := by
  unfold handleOf
  omega

theorem handleOf_div {slot : Nat} (gen : Nat) (h : slot < 4096) : handleOf slot gen / 4096 = gen := by
  unfold handleOf
  omega

theorem handleOf_lt {slot gen : Nat} (h : slot < 4096) (hg : gen < 2 ^ 20) : handleOf slot gen < 2 ^ 32 := by
  unfold handleOf
  omega

theorem State.nextGen_pos (s : State) (slot : Nat) : 0 < s.nextGen slot := by
  unfold State.nextGen
  extract_lets g
  split <;> omega

theorem State.nextGen_lt (s : State) (slot : Nat) : s.nextGen slot < 2 ^ 20 := by
  unfold State.nextGen
  extract_lets g
  have hg : g < 2 ^ 20 := Nat.mod_lt _ (by decide)
  split <;> omega

/-- Below its largest value the generation of a slot is raised by one. -/
theorem State.nextGen_of_lt {s : State} {slot : Nat} (h : Map.findD s.host.gens slot 0 + 1 < 2 ^ 20) :
    s.nextGen slot = Map.findD s.host.gens slot 0 + 1 := by
  rw [State.nextGen, Nat.mod_eq_of_lt h]
  exact if_neg (Nat.succ_ne_zero _)

theorem handleOf_ne_zero {slot gen : Nat} (h : 0 < gen) : handleOf slot gen ≠ 0 := by
  unfold handleOf
  omega

theorem State.taskOf_eq_some {s : State} {seat handle slot : Nat} {k : Task} : s.taskOf seat handle = some (slot, k) ↔
    slot = handle % 4096 ∧ Map.find s.host.tasks slot = some k ∧ k.seat = seat ∧ handleOf slot k.gen = handle := by
  unfold State.taskOf
  constructor
  · intro h
    split at h
    · next t ht =>
      split at h
      · next hk =>
        cases h
        exact ⟨rfl, ht, hk⟩
      · cases h
    · cases h
  · rintro ⟨rfl, ht, hk⟩
    simp only [ht, if_pos hk]

/-- The task that a command opens in a slot. -/
def openedTask (m : Msg) (gen : Nat) (items : List Tlv) : Task :=
  { gen := gen, seat := m.seat, here := m.here, seq := m.seq, opcode := m.opcode, digest := m.digest, items := items
    todo := List.range items.length, running := [], ended := [], reported := 0, cancel := none, final := false }

theorem State.openTask_slot (s : State) (m : Msg) (items : List Tlv) : (s.openTask m items).2 = s.freeSlot := by
  simp only [State.openTask]

/-- Opening a task writes its slot with the next generation, whether or not its SEQ is the highest journalled. -/
theorem State.openTask_host (s : State) (m : Msg) (items : List Tlv) :
    (s.openTask m items).1.host.gens = Map.set s.host.gens s.freeSlot (s.nextGen s.freeSlot) ∧
    (s.openTask m items).1.host.tasks = Map.set s.host.tasks s.freeSlot (openedTask m (s.nextGen s.freeSlot) items) := by
  simp only [State.openTask]
  split
  · exact ⟨rfl, rfl⟩
  · exact ⟨rfl, rfl⟩

/-- A task that is opened stands in the slot its handle names. -/
theorem State.openTask_fresh (s : State) (m : Msg) (items : List Tlv) : (s.openTask m items).2 = s.freeSlot ∧
    Map.find (s.openTask m items).1.host.gens s.freeSlot = some (s.nextGen s.freeSlot) ∧
    (Map.find (s.openTask m items).1.host.tasks s.freeSlot).map (fun t => (t.gen, t.seat, t.items, t.todo)) =
      some (s.nextGen s.freeSlot, m.seat, items, List.range items.length) := by
  obtain ⟨hgens, htasks⟩ := s.openTask_host m items
  rw [hgens, htasks, Map.find_set_same, Map.find_set_same]
  exact ⟨s.openTask_slot m items, rfl, rfl⟩

/-! ### TASK_QUERY and TASK_CANCEL (R64, R67) -/

section
variable {m : Msg} {s : State}

theorem exec_taskQuery_unknown (hs : Served s 0x0020 m) (ht : (begun s m).taskOf m.seat m.task.toNat = none) :
    exec (.taskQuery m) s = .next ((begun s m).resp m false 0 Cause.TASK_UNKNOWN []) := by
  refine congrArg _ ((State.serve_of_served _ hs).trans ?_)
  simp only [ht]
  rfl

theorem exec_taskCancel_unknown (hs : Served s 0x0021 m) (ht : (begun s m).taskOf m.seat m.task.toNat = none) :
    exec (.taskCancel m) s = .next ((begun s m).resp m false 0 Cause.TASK_UNKNOWN []) := by
  refine congrArg _ ((State.serve_of_served _ hs).trans ?_)
  simp only [ht]

/-- A task in flight is reported and stays in flight, unless it is one of the service seat that is over. -/
theorem exec_taskQuery_known {slot : Nat} {k : Task} (hs : Served s 0x0020 m)
    (ht : (begun s m).taskOf m.seat m.task.toNat = some (slot, k)) (hk : m.seat ≠ 8 ∨ k.allEnded = false) :
    exec (.taskQuery m) s = .next ((begun s m).resp m false m.task 0
      (itemRuns k.ended ++ [taskSummary k.ended] ++ k.returned)) := by
  have hstay : ¬(m.seat = 8 ∧ k.allEnded = true) := by
    rintro ⟨h8, he⟩
    exact hk.elim (· h8) fun hn => Bool.false_ne_true (hn.symm.trans he)
  refine congrArg _ ((State.serve_of_served _ hs).trans ?_)
  simp only [ht, State.immediate, State.immediate.go, if_neg hstay]

theorem exec_taskCancel_known {k : Nat × Task} (hs : Served s 0x0021 m)
    (ht : (begun s m).taskOf m.seat m.task.toNat = some k) (ha : Admits (begun s m) m (fun _ => true) [⟨0, []⟩]) :
    exec (.taskCancel m) s = .next (ran (begun s m) m
      (fun u _ _ => (u.adjustTask k.1 fun k => { k with cancel := some u.now }, .done none)) [⟨0, []⟩]) := by
  refine congrArg _ ((State.serve_of_served _ hs).trans ?_)
  simp only [ht]
  exact State.admitTask_of_admits _ ha

end

/-- Settles O20: handles by arithmetic, and what opening a task, a query and a cancel do with them. -/
theorem taskHandlesHoldSlotAndGeneration : Obligations.TaskHandlesHoldSlotAndGeneration :=
  ⟨fun _ gen h hg => ⟨handleOf_lt h hg, handleOf_mod gen h, handleOf_div gen h⟩,
    fun slot s => ⟨s.nextGen_pos slot, s.nextGen_lt slot, State.nextGen_of_lt, handleOf_ne_zero (s.nextGen_pos slot)⟩,
    fun _ _ _ _ _ => State.taskOf_eq_some, fun m items s => s.openTask_fresh m items,
    fun _ _ hs ht => exec_taskQuery_unknown hs ht, fun _ _ hs ht => exec_taskCancel_unknown hs ht⟩

/-! ### REG_READ (R50, R61, R445) -/

section
variable {m : Msg} {s : State} (hs : Served s 0x0010 m) (hh : m.here = true)
include hs hh

theorem exec_regRead_of_no_right (hr : (begun s m).hasRight m.seat 0 = false) :
    exec (.regRead m) s = .next (((begun s m).keepResp m Cause.RIGHTS []).resp m false 0 Cause.RIGHTS []) := by
  refine congrArg _ ((State.serve_of_served _ hs).trans ?_)
  simp only [State.regRead, hh, hr, Bool.not_true, Bool.not_false, Bool.false_eq_true, if_false, if_true]

theorem exec_regRead_of_right (hr : (begun s m).hasRight m.seat 0 = true) {v : State} {body : List Tlv}
    (hv : (v, body) = (itemsOf 0x0010 m.tlvs).foldl (State.readEntry m.who) (begun s m, [])) :
    exec (.regRead m) s = .next ((v.keepResp m Cause.OK body).resp m false 0 Cause.OK body) := by
  refine congrArg _ ((State.serve_of_served _ hs).trans ?_)
  simp only [State.regRead, hh, hr, ← hv, Bool.not_true, Bool.false_eq_true, if_false]

end

/-! ### Items and their outcomes (R66) -/

theorem exec_taskItemEnd_of_todo {s : State} {slot k : Nat} {t : Task} {l : List Nat} (readBack readable : Bool)
    (ht : Map.find s.host.tasks slot = some t) (hk : t.todo = k :: l) :
    exec (.taskItemEnd slot readBack readable) s = .next ((s.beginItem (runOf t.opcode readBack readable)
      (t.msg (s.localClear t.seat)) slot k).report slot) := by
  simp only [exec, execTaskItemEnd, ht, hk]

/-- A task whose outcomes are all reported has nothing due. -/
theorem State.reportDue_of_reported {s : State} {slot : Nat} (h : ∀ t, Map.find s.host.tasks slot = some t →
    t.reported = t.ended.length) : s.reportDue slot = s := by
  unfold State.reportDue
  split
  · rfl
  · next t ht =>
    have hfresh : t.fresh = [] := by rw [Task.fresh, h t ht, List.drop_length]
    rw [hfresh]

/-- A fold whose every step leaves the state it began with alone ends in that state. -/
theorem foldl_eq_self {α β : Type} {g : α → β → α} {a : α} {l : List β} (h : ∀ x ∈ l, g a x = a) : l.foldl g a = a :=
  List.foldlRecOn l g (motive := (· = a)) rfl fun _ hb x hx => hb ▸ h x hx

theorem reportDue_all_reported {s : State} (h : ∀ e ∈ s.host.tasks, e.2.reported = e.2.ended.length) :
    s.host.tasks.foldl (fun t e => t.reportDue e.1) s = s :=
  foldl_eq_self fun _ _ => State.reportDue_of_reported fun _ ht => h _ (Map.mem_of_find ht)

/-! ### Acknowledgements and notices sent again (R71, R72, R477) -/

theorem exec_ack_of_waits {m : Msg} {s : State} (ha : m.ack = true) (hi : s.host.inbox.contains m = true) :
    exec (.ack m) s = .next (({ s with host := { s.host with inbox := s.host.inbox.erase m } } : State).takeAck m) :=
  congrArg _ (if_pos ⟨ha, hi⟩)

/-- A store that is not full stays so. -/
theorem State.leaveFull_of_not_full {s : State} {c : Nat} (h : (s.ctx c).full = false) : s.leaveFull c = s :=
  if_neg fun hf => Bool.false_ne_true (h.symm.trans hf.1)

/-- An ACK that acknowledges no TASK_FINAL releases notices, restarts the resend timing, and sends what then fits. -/
theorem State.takeAck_of_not_full {u : State} {m : Msg} (hk : ∀ n ∈ (u.ctx m.seat).notices, n.kind ≠ 0x8001)
    (hf : (u.ctx m.seat).full = false) :
    ∃ init sack, init = u.fld (F.HOST_RESEND.INIT_MS m.seat) ∧
      sack = (match m.tlvs.find? fun t => t.type == 5 with | some t => beVal t.value | none => 0) ∧
      u.takeAck m = (u.setCtx m.seat { u.ctx m.seat with
        notices := ((u.ctx m.seat).notices.filter fun n => !(u.ctx m.seat).acked m.seq sack n).map fun n =>
          if n.sent then { n with nextAt := u.now + init, interval := init } else n }).pump m.seat := by
  refine ⟨_, _, rfl, rfl, ?_⟩
  unfold State.takeAck
  extract_lets c x sack gone init kept s1 s2
  have hgone : s2 = s1 := foldl_eq_self fun n hn => if_neg (hk n (List.mem_of_mem_filter hn))
  have hleave : s2.leaveFull c = s1 := by
    rw [hgone, State.leaveFull_of_not_full (by rw [State.ctx_setCtx_same]; exact hf)]
  exact congrArg (State.pump · c) hleave

theorem State.resendDue_of_unreachable {s : State} {c : Nat} (h : s.reachable c = false) : s.resendDue c = s :=
  if_neg (by simp [h])

/-- Settles O21, command by command. -/
theorem readsQueriesItemsAndNotices : Obligations.ReadsQueriesItemsAndNotices := by
  refine ⟨fun m s hs hh => ⟨exec_regRead_of_no_right hs hh, fun hr => ⟨_, _, rfl, exec_regRead_of_right hs hh hr rfl⟩⟩,
    fun m slot k s hs ht hk => exec_taskQuery_known hs ht hk, fun m k s hs ht ha => exec_taskCancel_known hs ht ha,
    fun slot readBack readable t k l s ht hk => exec_taskItemEnd_of_todo readBack readable ht hk,
    fun s => ⟨_, rfl, rfl, fun h _ => reportDue_all_reported h⟩, fun m s ha hi => exec_ack_of_waits ha hi,
    fun m u hk hf => State.takeAck_of_not_full hk hf, fun s => ⟨_, rfl, rfl, fun h => ?_⟩⟩
  exact foldl_eq_self fun c hc => State.resendDue_of_unreachable (h c (List.mem_range.mp hc))

end Sys2Proof.Machine

/-! The judgement of a waybill that has arrived, of the parts of a message, and of a waybill of the service seat (R49, R53,
R288, R426, R466, R473). -/

namespace Sys2Proof.Machine

/-! ### A waybill that is dropped and counted (R49) -/

theorem authFailCount_ok {c : Nat} (h : c < 8) : (F.HOST_AUTH_FAIL.COUNT c).ok = true := by
  interval_cases c <;> decide +kernel

theorem State.bump_authFail {s : State} {c : Nat} (hs : Inv s) (hc : c < 8) :
    (s.bump (F.HOST_AUTH_FAIL.COUNT c)).fld (F.HOST_AUTH_FAIL.COUNT c) = min (s.fld (F.HOST_AUTH_FAIL.COUNT c) + 1) 0xFFFF ∧
      OnlyRegs [R.HOST_AUTH_FAIL c] s (s.bump (F.HOST_AUTH_FAIL.COUNT c)) :=
  ⟨State.fld_bump_same 1 hs (authFailCount_ok hc), (OnlyRegs.refl _ s).bump 1 (.head _)⟩

section
variable {s : State} {w : Waybill}

theorem State.dropWaybill_short (h : w.bytes.length < 6) : s.dropWaybill w = s :=
  if_neg fun hn => absurd hn.1 (not_le.mpr h)

theorem State.dropWaybill_counted {e : HostEntry} (h : 6 ≤ w.bytes.length) (he : s.hostEntry w.context = some e)
    (hc : w.context < 8) : s.dropWaybill w = s.bump (F.HOST_AUTH_FAIL.COUNT w.context) :=
  if_pos ⟨h, by rw [he]; rfl, hc⟩

theorem Waybill.length_of_headerOk (h : w.headerOk = true) : 32 ≤ w.bytes.length := by
  by_contra hn
  simp [Waybill.headerOk, hn] at h

/-! ### The judgement of a waybill (R49, R426, R466) -/

theorem State.judgeWaybill_service (hp : s.power.phase = .service) (ht : w.type = 1) :
    s.judgeWaybill w = s.send (.waybill w.serviceState) := by
  simp only [State.judgeWaybill, hp, ht, if_true]

section
variable {e : HostEntry} (hp : s.power.phase = .run) (he : s.hostEntry w.context = some e)
include hp he

theorem State.judgeWaybill_unbound (h : (e.bound w.link && w.headerOk) = false) : s.judgeWaybill w = s.dropWaybill w := by
  simp only [State.judgeWaybill, hp, he, h, Bool.not_false, if_true]

section
variable (h : (e.bound w.link && w.headerOk) = true)
include h

theorem State.judgeWaybill_unprotected (hn : s.protect w = none) :
    s.judgeWaybill w = (s.dropWaybill w).post Ev.HOST_AUTH_FAIL [] := by
  simp only [State.judgeWaybill, hp, he, h, hn, Bool.not_true, Bool.false_eq_true, if_false]

theorem State.judgeWaybill_protected {v : State} {b : List Byte} (hv : s.protect w = some (v, b)) :
    s.judgeWaybill w = v.takePart w b := by
  simp only [State.judgeWaybill, hp, he, h, hv, Bool.not_true, Bool.false_eq_true, if_false]

end
end

/-- The oldest waybill is taken, and these are left. -/
def State.leftArrived (s : State) (l : List Waybill) : State := { s with host := { s.host with arrived := l } }

theorem exec_waybillPart_of_arrived {l : List Waybill} (h : s.host.arrived = w :: l) :
    exec .waybillPart s = .next ((s.leftArrived l).judgeWaybill w) := by
  simp only [exec, execWaybillPart, h, State.leftArrived]

end

/-- A waybill over the link of a context is no waybill of the service seat. -/
theorem HostEntry.seat_of_bound {e : HostEntry} {w : Waybill} (h : e.bound w.link = true) : w.seat = w.context := by
  unfold Waybill.seat
  split
  · next hl =>
    rw [hl] at h
    exact absurd h Bool.false_ne_true
  · rfl

theorem Waybill.ack_of_command {w : Waybill} (b : List Byte) (h : w.type = 1) : (w.msg b).ack = false := by
  simp [Waybill.msg, h]

/-! ### The body of a whole message (R466) -/

section
variable {v : State} {m : Msg}

theorem State.accept_outside (ha : m.ack = false) (h : outsideSequence m.opcode = true) :
    v.accept m = { v with host := { v.host with inbox := v.host.inbox ++ [m] } } :=
  if_pos (by rw [h, ha]; rfl)

/-- A command joins the inbox of a member that serves it, which first enters it in the ledger (R391, R393). -/
theorem State.accept_served (h : outsideSequence m.opcode = false) (h1 : v.roleNow ≠ 1) (h3 : v.roleNow ≠ 3) :
    ∃ t, v.accept m = t ∧ t.host = { v.host with inbox := v.host.inbox ++ [m] } ∧
      t = { v.record (.waybill (v.fld F.PAIR_STAT.MEMBER) m) with host := t.host } := by
  obtain ⟨p, hp⟩ := v.record_eq (.waybill (v.fld F.PAIR_STAT.MEMBER) m)
  have haccept : v.accept m = { v with pair := p, host := { v.host with inbox := v.host.inbox ++ [m] } } := by
    simp only [State.accept, h, State.forwards_of_role h1 h3, Bool.false_and, Bool.false_eq_true, if_false, hp]
  exact ⟨_, haccept, rfl, by rw [hp]⟩

/-- A whole command of a context is taken where its body keeps the rules of its opcode, and refused otherwise. -/
theorem State.judgeBody_command {l : List Tlv} (ha : m.ack = false) (h8 : m.seat ≠ 8) (hb : bodyTlvs m.body = some l)
    (ht : (l.any fun t => decide (0x8000 ≤ t.type)) = false) (ho : opcodes.contains m.opcode = true) :
    v.judgeBody m = if bodyOk m.opcode l then v.accept m else v.refuse m Cause.BAD_FORMAT := by
  have hseat : ¬(m.seat = 8 ∧ (!seatCommand m.opcode) = true) := fun h => h8 h.1
  simp only [State.judgeBody, if_neg hseat, hb, ht, ha, ho, Bool.false_eq_true, if_false, if_true]

end

theorem State.takePart_whole {v : State} {w : Waybill} (h : w.parts = 1) (b : List Byte) :
    v.takePart w b = v.judgeBody (w.msg b) := if_pos h

/-! ### Parts that wait for the rest of their message (R53) -/

/-- No message still arriving is touched, and the pace stands: sending leads from `s` to `t`. -/
structure PartsStay (s t : State) : Prop where
  now : t.now = s.now
  parts : ∀ d, (t.ctx d).parts = (s.ctx d).parts

theorem PartsStay.refl (s : State) : PartsStay s s := ⟨rfl, fun _ => rfl⟩

theorem PartsStay.ite {s t u : State} {c : Prop} [Decidable c] (ht : PartsStay s t) (hu : PartsStay s u) :
    PartsStay s (if c then t else u) := by
  split
  · exact ht
  · exact hu

section
variable {s0 s : State} (h : PartsStay s0 s)
include h

/-- An update of what sending may change outside the contexts. -/
theorem PartsStay.rest {regs : RegFile} {prt : PortState} {pair : PairState} {out : List Output} :
    PartsStay s0 { s with regs := regs, prt := prt, pair := pair, out := out } := ⟨h.now, h.parts⟩

/-- An update of a context that leaves its messages still arriving alone. -/
theorem PartsStay.setCtx {c : Nat} {x : Ctx} (hx : x.parts = (s.ctx c).parts) : PartsStay s0 (s.setCtx c x) := by
  refine ⟨h.now, fun d => ?_⟩
  by_cases hd : d = c
  · subst hd
    rw [State.ctx_setCtx_same, hx, h.parts]
  · rw [State.ctx_setCtx_other s x hd, h.parts]

theorem PartsStay.send (o : Output) : PartsStay s0 (s.send o) := h.ite (h.rest.ite (h.ite h.rest))

theorem PartsStay.raiseVector (k : Nat) (irq : Option (Nat × Nat)) : PartsStay s0 (s.raiseVector k irq) := by
  cases irq with
  | none => exact h
  | some p => exact h.send _

theorem PartsStay.ringPut (k : Nat) (q : PcieSlot) (w : OutWaybill) : PartsStay s0 (s.ringPut k q w) :=
  List.foldlRecOn _ _ (h.send _) fun _ hu _ _ => (hu.send _).raiseVector _ _

theorem PartsStay.pcieMove {t : State} {link : Nat} {w : OutWaybill} (ht : s.pcieMove link w = some t) : PartsStay s0 t := by
  unfold State.pcieMove at ht
  extract_lets k q overhead at ht
  split at ht
  · cases ht
  dsimp only at ht
  split at ht
  · cases ht
    exact h.rest.ringPut _ _ _
  split at ht
  · cases ht
    exact h.rest.ringPut _ _ _
  split at ht
  · split at ht
    · cases ht
      refine (h.rest.setCtx ?_).ringPut _ _ _
      rfl
    · cases ht
      exact h
  · cases ht
    exact h

theorem PartsStay.pciePump (c link : Nat) : PartsStay s0 (s.pciePump c link) := by
  refine List.foldlRecOn (motive := fun p : State × Bool => PartsStay s0 p.1) _ _ h.rest fun p hp w _ => ?_
  dsimp only
  split
  · exact hp.rest
  split
  · exact hp.rest
  split
  · next ht => exact hp.pcieMove ht
  · exact hp.rest

theorem PartsStay.put (w : OutWaybill) : PartsStay s0 (s.put w) := (h.rest.pciePump _ _).ite (h.rest.ite (h.send _))

theorem PartsStay.emit (w : OutWaybill) (x : Option Session) : PartsStay s0 (s.emit w x) :=
  (h.put _).ite ((h.setCtx (by rfl)).put _)

theorem PartsStay.resp (m : Msg) (rep : Bool) (task : Word) (cause : Nat) (body : List Tlv) :
    PartsStay s0 (s.resp m rep task cause body) := by
  unfold State.resp
  extract_lets clear big
  refine h.ite ?_
  split
  · exact h
  · exact (h.put _).ite (h.emit _ _)

theorem PartsStay.refuse (m : Msg) (cause : Nat) : PartsStay s0 (s.refuse m cause) := by
  refine PartsStay.ite ?_ (h.resp _ _ _ _ _)
  split
  · exact (h.setCtx (by rfl)).put _
  · exact h

end

/-- The numbers below `n` before and after one of them. -/
theorem exists_range_split {n c : Nat} (h : c < n) :
    ∃ l1 l2, List.range n = l1 ++ c :: l2 ∧ ∀ d, d ∈ l1 ∨ d ∈ l2 → d < n ∧ d ≠ c := by
  obtain ⟨l1, l2, hl⟩ := List.append_of_mem (List.mem_range.mpr h)
  have hnodup : (c :: (l1 ++ l2)).Nodup := List.nodup_middle.mp (hl ▸ List.nodup_range)
  refine ⟨l1, l2, hl, fun d hd => ⟨List.mem_range.mp ?_, ?_⟩⟩
  · rw [hl]
    rcases hd with hd | hd <;> simp [hd]
  · rintro rfl
    exact (List.nodup_cons.mp hnodup).1 (List.mem_append.mpr hd)

theorem State.expireParts_early {u : State} {c : Nat} (h : ∀ b ∈ (u.ctx c).parts, u.now < b.began + 2000) :
    u.expireParts c = u := by
  have hdue : ∀ b ∈ (u.ctx c).parts, ¬decide (b.began + 2000 ≤ u.now) = true := fun b hb => by simpa using h b hb
  simp only [State.expireParts, List.filter_eq_nil_iff.mpr hdue, List.foldl_nil, List.any_eq_false.mpr hdue, Bool.false_eq_true,
    if_false]

section
variable {u : State} {c : Nat} {b : PartBuffer} (hp : (u.ctx c).parts = [b]) (hb : b.began + 2000 ≤ u.now)
  (ha : (b.first.msg []).ack = false)
include hp hb ha

/-- A command whose parts did not all come in time is answered, and its parts are dropped. -/
theorem State.expireParts_late : u.expireParts c =
    (u.setCtx c { u.ctx c with parts := [] }).refuse (b.first.msg []) Cause.PART_TIMEOUT := by
  simp [State.expireParts, hp, hb, ha]

/-- The messages of other contexts wait on when those of one context are judged. -/
theorem expireParts_all_late (hc : c < 9) (ho : ∀ d < 9, d ≠ c → ∀ x ∈ (u.ctx d).parts, u.now < x.began + 2000) :
    (List.range 9).foldl State.expireParts u =
      (u.setCtx c { u.ctx c with parts := [] }).refuse (b.first.msg []) Cause.PART_TIMEOUT := by
  obtain ⟨l1, l2, hl, hlt⟩ := exists_range_split hc
  have hbefore : l1.foldl State.expireParts u = u := foldl_eq_self fun d hd =>
    State.expireParts_early (ho d (hlt d (.inl hd)).1 (hlt d (.inl hd)).2)
  rw [hl, List.foldl_append, hbefore, List.foldl_cons, State.expireParts_late hp hb ha]
  refine foldl_eq_self fun d hd => State.expireParts_early ?_
  obtain ⟨hd9, hdc⟩ := hlt d (.inr hd)
  obtain ⟨hnow, hparts⟩ :=
    (PartsStay.refl (u.setCtx c { u.ctx c with parts := [] })).refuse (b.first.msg []) Cause.PART_TIMEOUT
  rw [hparts, hnow, State.ctx_setCtx_other u _ hdc]
  exact ho d hd9 hdc

end

/-! ### The USB port (R288, R473) -/

/-- A waybill goes out at once while the ports are on and no pair withholds it (R398, R414). -/
theorem State.send_waybill {s : State} (hoff : s.portsOff = false) (hn : s.withholds = false) (o : OutWaybill) :
    s.send (.waybill o) = { s with out := s.out ++ [.waybill o] } := by
  simp [State.send, hoff, hn, Output.hostVisible, Output.shared]

/-- A message of the service seat is answered in clear over USB, in one part where its body is empty (R288). -/
theorem State.resp_seat {s : State} {m : Msg} (h8 : m.seat = 8) (hh : m.here = true) (hn : s.hostEntry 8 = none)
    (hoff : s.portsOff = false) (hw : s.withholds = false) (cause : Nat) :
    s.resp m false 0 cause [] = { s with out := s.out ++ [.waybill (OutWaybill.cut ⟨8, 2, true, false, m.opcode, m.seq, 0, cause,
      0, 0, 0, [], []⟩ [] [65503])] } := by
  have hroom : s.roomOf 8 true = 65503 := by simp [State.roomOf, State.lengthBound, hn]
  have hparts : s.partsOf 8 true [] = 1 := by simp [State.partsOf, hroom, bodyLength]
  simp [State.resp, h8, hh, State.seal, hparts, hroom, State.put, State.linkOf, OutWaybill.cut, hn, State.send_waybill hoff hw]

section
variable {w v : Waybill} {s : State} (hv : v = { w with link := .usb }) (hon : s.usbOn = true) (hr : s.receives = true)
  (hh : v.headerOk = true) (hc : v.clear = true) (hctx : v.context = 0) (ht : v.type = 1) (hp : v.parts = 1)
include hv hon hr hh hc hctx ht hp

/-- A clear waybill of the service seat that is a whole message is judged as one (R53, R288). -/
theorem exec_usbWaybill_whole : exec (.usbWaybill w) s = .next (s.judgeBody (v.msg v.piece)) := by
  subst hv
  refine congrArg _ ((if_neg ?_).trans (if_pos hp))
  simp [hon, hr, hh, hc, hctx, ht]

end

theorem State.portsOff_of_usbOn {s : State} (h : s.usbOn = true) : s.portsOff = false := by
  simp only [State.usbOn, Bool.and_eq_true, Bool.not_eq_true'] at h
  exact h.1

theorem State.judgeBody_seat {s : State} {m : Msg} (h8 : m.seat = 8) (hn : seatCommand m.opcode = false) :
    s.judgeBody m = s.resp m false 0 Cause.RIGHTS [] := if_pos ⟨h8, by rw [hn]; rfl⟩

/-! ### WAYBILL_PART (R49, R426, R466) -/

/-- In the service state a command is answered at once, whatever its context (R426). -/
theorem exec_waybillPart_service {w : Waybill} {l : List Waybill} {s : State} (hw : s.host.arrived = w :: l)
    (hp : s.power.phase = .service) (ht : w.type = 1) (hn : s.withholds = false) :
    exec .waybillPart s = .next ({ s.leftArrived l with out := s.out ++ [.waybill w.serviceState] }) := by
  have hoff : (s.leftArrived l).portsOff = false := by simp [State.portsOff, State.leftArrived, hp]
  rw [exec_waybillPart_of_arrived hw, State.judgeWaybill_service (s := s.leftArrived l) hp ht, State.send_waybill hoff hn]
  rfl

section
variable {w : Waybill} {l : List Waybill} {e : HostEntry} {s : State} (hw : s.host.arrived = w :: l)
  (hp : s.power.phase = .run) (he : s.hostEntry w.context = some e)
include hw hp he

theorem exec_waybillPart_unbound (h : (e.bound w.link && w.headerOk) = false) :
    exec .waybillPart s = .next ((s.leftArrived l).dropWaybill w) := by
  rw [exec_waybillPart_of_arrived hw, State.judgeWaybill_unbound (s := s.leftArrived l) hp he h]

section
variable (h : (e.bound w.link && w.headerOk) = true)
include h

theorem exec_waybillPart_unprotected (hc : w.context < 8) (hn : (s.leftArrived l).protect w = none) :
    exec .waybillPart s =
      .next (((s.leftArrived l).bump (F.HOST_AUTH_FAIL.COUNT w.context)).post Ev.HOST_AUTH_FAIL []) := by
  have hlen : 6 ≤ w.bytes.length := le_trans (by decide) (Waybill.length_of_headerOk (Bool.and_eq_true_iff.mp h).2)
  rw [exec_waybillPart_of_arrived hw, State.judgeWaybill_unprotected (s := s.leftArrived l) hp he h hn,
    State.dropWaybill_counted (s := s.leftArrived l) hlen he hc]

/-- A command in one part, whose protection holds, is taken or refused by its body. -/
theorem exec_waybillPart_command {b : List Byte} {tlvs : List Tlv} {v : State} (hc : w.context < 8)
    (hv : (s.leftArrived l).protect w = some (v, b)) (hone : w.parts = 1)
    (hb : bodyTlvs b = some tlvs) (hk : (tlvs.any fun t => decide (0x8000 ≤ t.type)) = false) (ht : w.type = 1)
    (ho : opcodes.contains w.opcode = true) :
    exec .waybillPart s =
      .next (if bodyOk w.opcode tlvs then v.accept (w.msg b) else v.refuse (w.msg b) Cause.BAD_FORMAT) := by
  have hcontext : w.seat = w.context := HostEntry.seat_of_bound (Bool.and_eq_true_iff.mp h).1
  have hseat : (w.msg b).seat ≠ 8 := fun h8 => absurd (hcontext.symm.trans h8) (Nat.ne_of_lt hc)
  rw [exec_waybillPart_of_arrived hw, State.judgeWaybill_protected (s := s.leftArrived l) hp he h hv, State.takePart_whole hone]
  exact congrArg _ (State.judgeBody_command (Waybill.ack_of_command b ht) hseat hb hk ho)

end
end

/-- Settles O16: a waybill by the steps of its judgement, parts by what sending leaves alone, and the seat's by its opcode. -/
theorem waybillsAreJudgedInOrder : Obligations.WaybillsAreJudgedInOrder := by
  refine ⟨fun w l s hw hp ht hn => exec_waybillPart_service hw hp ht hn,
    fun w l e s hs hw hp he hc h => ⟨fun hlen => ?_, fun hlen => ?_⟩,
    fun w l e s hs hw hp he hc h hn => ?_,
    fun w l e b tlvs v s hw hp he hc h hv hone hb hk ht ho => ?_,
    fun s => ⟨_, rfl, rfl⟩, fun c u h => State.expireParts_early h,
    fun c b u hp hb ha => State.expireParts_late hp hb ha,
    fun c b s hc ho hp hb ha => congrArg Host.Outcome.next (expireParts_all_late hp hb ha hc ho),
    fun w s v m hv hm hon hr hh hclear hctx ht hone => ?_⟩
  · rw [exec_waybillPart_unbound hw hp he h, State.dropWaybill_short hlen]
    rfl
  · obtain ⟨hcount, hregs⟩ := State.bump_authFail hs hc
    rw [exec_waybillPart_unbound hw hp he h, State.dropWaybill_counted (s := s.leftArrived l) hlen he hc]
    exact ⟨_, rfl, hcount, hregs, rfl⟩
  · obtain ⟨hcount, hregs⟩ := State.bump_authFail hs hc
    exact ⟨_, exec_waybillPart_unprotected hw hp he h hc hn, hcount, hregs, rfl⟩
  · have hack := Waybill.ack_of_command b ht
    rw [exec_waybillPart_command hw hp he h hc hv hone hb hk ht ho]
    refine ⟨fun hbad => by rw [if_neg (ne_true_of_eq_false hbad)], fun hok hout => ?_, fun hok hin h1 h3 => ?_⟩
    · rw [if_pos hok, State.accept_outside hack hout]
    · obtain ⟨t, ht, htail⟩ := State.accept_served (m := w.msg b) hin h1 h3
      exact ⟨t, by rw [if_pos hok, ht], htail⟩
  · subst hm
    have hseat : (v.msg v.piece).seat = 8 := by rw [hv]; rfl
    have hjudge := exec_usbWaybill_whole hv hon hr hh hclear hctx ht hone
    refine ⟨hseat, rfl, fun _ => hjudge, fun hno hwith hnone => ?_⟩
    rw [hjudge, State.judgeBody_seat hseat hno, State.resp_seat hseat rfl hnone (State.portsOff_of_usbOn hon) hwith]

end Sys2Proof.Machine

/-! Sessions and handshakes: opened, confirmed, closed and ended (R54 to R58, R71). -/

namespace Sys2Proof.Machine

/-! ### The state in which a command is served (R60) -/

/-- Taking a command out of the inbox and out of its bucket touches nothing else. -/
theorem taken_eq (s : State) (m : Msg) :
    ∃ x, taken s m = { s with host := { s.host with inbox := s.host.inbox.erase m, ctxs := x } } := by
  unfold taken State.takeRate
  split
  · exact ⟨s.host.ctxs, rfl⟩
  · exact ⟨_, rfl⟩

section
variable (s : State) (m : Msg)

theorem taken_drawn : (taken s m).drawn = s.drawn := by
  obtain ⟨x, hx⟩ := taken_eq s m
  rw [hx]

theorem taken_regs : (taken s m).regs = s.regs := by
  obtain ⟨x, hx⟩ := taken_eq s m
  rw [hx]

theorem taken_pace : (taken s m).pace = s.pace := by
  obtain ⟨x, hx⟩ := taken_eq s m
  rw [hx]

theorem taken_evt : (taken s m).evt = s.evt := by
  obtain ⟨x, hx⟩ := taken_eq s m
  rw [hx]

theorem taken_identity : (taken s m).host.identity = s.host.identity := by
  obtain ⟨x, hx⟩ := taken_eq s m
  rw [hx]

theorem taken_now : (taken s m).now = s.now := by rw [State.now, taken_pace, State.now]

theorem taken_enrol : (taken s m).enrol = s.enrol := by rw [State.enrol, State.fld, taken_regs, State.enrol, State.fld]

theorem taken_keysReady : (taken s m).keysReady = s.keysReady := by
  rw [State.keysReady, State.fld, taken_regs, State.keysReady, State.fld]

theorem taken_hostEntry (c : Nat) : (taken s m).hostEntry c = s.hostEntry c := by
  obtain ⟨x, hx⟩ := taken_eq s m
  rw [hx]
  rfl

end

/-! ### The key slots shown (R345) -/

theorem State.showSlots_regs (s : State) : OnlyRegs [R.KEY_SLOTS] s s.showSlots :=
  ((OnlyRegs.refl _ s).setF (f := F.KEY_SLOTS.USED) _ (.head _)).setF (f := F.KEY_SLOTS.PEAK) _ (.head _)

theorem State.showSlots_eq (s : State) : s.showSlots = { s with regs := s.showSlots.regs } := rfl

theorem State.showSlots_host (s : State) : s.showSlots.host = s.host := by
  rw [State.showSlots_eq]

theorem State.showSlots_ctx (s : State) (c : Nat) : s.showSlots.ctx c = s.ctx c := by
  simp only [State.ctx, State.showSlots_host]

/-- From `s` to `t` nothing changed but the contexts and the key slots shown. -/
structure CtxsOnly (s t : State) : Prop where
  regs : OnlyRegs [R.KEY_SLOTS] s t
  rest : t = { s with regs := t.regs, host := { s.host with ctxs := t.host.ctxs } }

theorem CtxsOnly.refl (s : State) : CtxsOnly s s := ⟨OnlyRegs.refl _ s, rfl⟩

theorem CtxsOnly.trans {s t u : State} (h : CtxsOnly s t) (g : CtxsOnly t u) : CtxsOnly s u := by
  refine ⟨fun a ha => (g.regs a ha).trans (h.regs a ha), ?_⟩
  rw [g.rest, h.rest]

theorem CtxsOnly.setCtx {s t : State} (h : CtxsOnly s t) (c : Nat) (x : Ctx) : CtxsOnly s (t.setCtx c x) := by
  refine ⟨h.regs, ?_⟩
  rw [h.rest]
  rfl

theorem CtxsOnly.showSlots {s t : State} (h : CtxsOnly s t) : CtxsOnly s t.showSlots := by
  refine ⟨fun a ha => (t.showSlots_regs a ha).trans (h.regs a ha), ?_⟩
  rw [t.showSlots_eq, h.rest]

theorem CtxsOnly.now {s t : State} (h : CtxsOnly s t) : t.now = s.now := by rw [h.rest]; rfl

theorem CtxsOnly.hostEntry {s t : State} (h : CtxsOnly s t) (c : Nat) : t.hostEntry c = s.hostEntry c := by rw [h.rest]; rfl

section
variable (s : State) (c : Nat)

theorem State.closeSession_only : CtxsOnly s (s.closeSession c) := ((CtxsOnly.refl s).setCtx c _).showSlots

theorem State.dropHandshake_only : CtxsOnly s (s.dropHandshake c) := ((CtxsOnly.refl s).setCtx c _).showSlots

theorem State.ctx_closeSession_same : (s.closeSession c).ctx c = { s.ctx c with session := none } := by
  rw [State.closeSession, State.showSlots_ctx, State.ctx_setCtx_same]

theorem State.ctx_closeSession_other {d : Nat} (h : d ≠ c) : (s.closeSession c).ctx d = s.ctx d := by
  rw [State.closeSession, State.showSlots_ctx, State.ctx_setCtx_other s _ h]

theorem State.ctx_dropHandshake_same : (s.dropHandshake c).ctx c = { s.ctx c with handshake := none } := by
  rw [State.dropHandshake, State.showSlots_ctx, State.ctx_setCtx_same]

end

/-! ### SESSION_OPEN (R54, R55) -/

theorem newSessionNo_range (n : Nat) (old : Option Session) : 1 ≤ newSessionNo n old ∧ newSessionNo n old ≤ 65535 := by
  unfold newSessionNo
  extract_lets k
  split
  · split <;> omega
  · omega

/-- A session number is never that of the session it replaces. -/
theorem newSessionNo_ne (n : Nat) (v : Session) : newSessionNo n (some v) ≠ v.no := by
  simp only [newSessionNo]
  split
  · omega
  · next h => exact Ne.symm h

section
variable {t : State} {m : Msg} {e : HostEntry} (hk : t.keysReady = true) (he : t.hostEntry m.seat = some e)
include hk he

theorem State.openHandshake_no_key (h : e.keys.length ≤ m.openKey) :
    t.openHandshake m = t.resp m false 0 Cause.HOST_KEY [] := by
  simp only [State.openHandshake, hk, he, Bool.not_true, Bool.false_eq_true, if_false, if_pos h]

theorem State.openHandshake_open (h : m.openKey < e.keys.length)
    (hp : (t.setCtx m.seat { t.ctx m.seat with handshake := none }).poolHas 2 = true) :
    ∃ (v : State) (no d : Nat) (body : List Tlv) (th : List Byte) (k : List Byte × List Byte),
      v = { t with drawn := t.drawn + 3 } ∧ no = newSessionNo (Config.free (t.drawn + 2)) (t.ctx m.seat).session ∧
      d = 1 + Config.free t.drawn % (p256N - 1) ∧
      body = [sessionTlv 0 (4 :: ecBytes (ecMul d p256G)), sessionTlv 1 (beBytes 16 (Config.free (t.drawn + 1))),
        sessionTlv 2 (beBytes 2 no), sessionTlv 3 (beBytes 4 (t.ctx m.seat).journalled.toNat),
        sessionTlv 4 (beBytes 4 t.evt.pwrCycles.toNat)] ∧
      th = sha256Bytes (m.body ++ bodyBytes body) ∧ k = sessionKeys ((ecdh d m.openPoint).getD []) th ∧
      t.openHandshake m = (v.setCtx m.seat { v.ctx m.seat with
          handshake := some ⟨no, m.openKey, t.now, th, k.1, k.2, 0, [], 0⟩ }).showSlots.resp m false 0 0
        (body ++ [sessionTlv 5 (ecdsaSign (linkPrivate t.enrol) th)]) := by
  refine ⟨_, _, _, _, _, _, rfl, rfl, rfl, rfl, rfl, rfl, ?_⟩
  simp only [State.openHandshake, hk, he, hp, Bool.not_true, Bool.false_eq_true, if_false, if_neg (not_le.mpr h)]
  rfl

end

/-- A SESSION_OPEN waits for the random source alone. -/
theorem exec_sessionOpen_of_waits {m : Msg} {s : State} (hw : Waits s 0x0001 m) (hr : s.randomOk = true) :
    exec (.sessionOpen m) s = .next ((taken s m).openHandshake m) := by
  have hgo : ¬(s.keysReady && !s.randomOk) = true := by simp [hr]
  exact congrArg _ ((if_neg hgo).trans (State.serveOutside_of_waits _ hw))

/-! ### SESSION_CONFIRM (R54, R71) -/

section
variable {t : State} {m : Msg} {h : Handshake} (hh : (t.ctx m.seat).handshake = some h) (hn : m.clear = true ∨ m.session = h.no)
include hh hn

theorem State.confirm_of_handshake : t.confirm m =
    if t.confirmed m h then t.openSession m h else (t.refuse m Cause.HOST_KEY).dropHandshake m.seat := by
  have hno : ¬(!m.clear && m.session != h.no) = true := by rcases hn with hn | hn <;> simp [hn]
  simp only [State.confirm, hh, if_neg hno]

end

section
variable {m : Msg} {h : Handshake} {s : State} (hw : Waits s 0x0002 m) (hh : ((taken s m).ctx m.seat).handshake = some h)
  (hn : m.clear = true ∨ m.session = h.no)
include hw hh hn

/-- The handshake becomes the session of its context, and the notices go at once. -/
theorem exec_sessionConfirm_verified (hc : (taken s m).confirmed m h = true) : exec (.sessionConfirm m) s = .next
    (((((taken s m).setCtx m.seat { (taken s m).ctx m.seat with
        session := some ⟨h.no, s.now, h.h2d, h.d2h, h.top, h.accepted, h.sent⟩
        handshake := none }).showSlots.resp m false 0 0 []).resendAll m.seat).pump m.seat) := by
  refine congrArg Host.Outcome.next ((State.serveOutside_of_waits _ hw).trans ?_)
  rw [State.confirm_of_handshake hh hn, if_pos hc, State.openSession, taken_now]

theorem exec_sessionConfirm_failed (hc : (taken s m).confirmed m h = false) : exec (.sessionConfirm m) s =
    .next (((taken s m).refuse m Cause.HOST_KEY).dropHandshake m.seat) := by
  refine congrArg Host.Outcome.next ((State.serveOutside_of_waits _ hw).trans ?_)
  rw [State.confirm_of_handshake hh hn, if_neg (ne_true_of_eq_false hc)]

end

/-! ### SESSION_CLOSE and IDENTITY (R54, R58) -/

theorem exec_sessionClose_open {m : Msg} {v : Session} {s : State} (hw : Waits s 0x0003 m)
    (hv : ((taken s m).ctx m.seat).session = some v) :
    exec (.sessionClose m) s = .next (((taken s m).resp m false 0 0 []).closeSession m.seat) := by
  refine congrArg Host.Outcome.next ((State.serveOutside_of_waits _ hw).trans ?_)
  simp only [hv]

theorem exec_identity_of_waits {m : Msg} {s : State} (hw : Waits s 0x0004 m) : exec (.identity m) s =
    .next ((taken s m).resp m false 0 0 (if s.host.identity then [sessionTlv 6 (taken s m).identityStatement] else [])) := by
  refine congrArg Host.Outcome.next ((State.serveOutside_of_waits _ hw).trans ?_)
  rw [taken_identity]

/-! ### Sessions and handshakes that end (R54, R58) -/

/-- A handshake that has not been confirmed within 10,000 paces is discarded. -/
def Ctx.expireHandshake (x : Ctx) (now : Nat) : Ctx :=
  match x.handshake with
  | some h => if h.began + 10000 ≤ now then { x with handshake := none } else x
  | none => x

theorem exec_handshakeTimeout (s : State) : ∃ t, exec .handshakeTimeout s = .next t ∧ CtxsOnly s t ∧
    ∀ c x, Map.find s.host.ctxs c = some x → Map.find t.host.ctxs c = some (x.expireHandshake s.now) := by
  refine ⟨({ s with host := { s.host with ctxs := Map.mapVals (fun _ (x : Ctx) => x.expireHandshake s.now) s.host.ctxs } } :
    State).showSlots, rfl, CtxsOnly.showSlots ⟨OnlyRegs.refl _ s, rfl⟩, fun c x hx => ?_⟩
  rw [State.showSlots_host, Map.find_mapVals, hx]
  rfl

/-- A session that has been open for SESSION_LIFE seconds closes. -/
def Ctx.expireSession (x : Ctx) (e : Option HostEntry) (now : Nat) : Ctx :=
  match e, x.session with
  | some e, some v => if v.opened + e.sessionLife * 1000 ≤ now then { x with session := none } else x
  | _, _ => x

/-- SESSION_LIFE_EXPIRY for one context. -/
def State.expireSession (t : State) (c : Nat) : State :=
  match t.hostEntry c, (t.ctx c).session with
  | some e, some v => if v.opened + e.sessionLife * 1000 ≤ t.now then t.closeSession c else t
  | _, _ => t

theorem exec_sessionLifeExpiry (s : State) :
    exec .sessionLifeExpiry s = .next ((List.range 8).foldl State.expireSession s) := rfl

/-- The contexts after the life of the session of one was judged. -/
theorem State.expireSession_ctx (t : State) (c : Nat) : CtxsOnly t (t.expireSession c) ∧
    (t.expireSession c).ctx c = (t.ctx c).expireSession (t.hostEntry c) t.now ∧
    ∀ d, d ≠ c → (t.expireSession c).ctx d = t.ctx d := by
  unfold State.expireSession Ctx.expireSession
  split
  · next e v he hv =>
    split
    · exact ⟨t.closeSession_only c, t.ctx_closeSession_same c, fun d hd => t.ctx_closeSession_other c hd⟩
    · exact ⟨CtxsOnly.refl t, rfl, fun _ _ => rfl⟩
  · exact ⟨CtxsOnly.refl t, rfl, fun _ _ => rfl⟩

/-- The contexts after the sessions of the first `n` were judged. -/
theorem expireSessions_ctx (s : State) (n : Nat) : CtxsOnly s ((List.range n).foldl State.expireSession s) ∧
    ∀ c, ((List.range n).foldl State.expireSession s).ctx c =
      if c < n then (s.ctx c).expireSession (s.hostEntry c) s.now else s.ctx c := by
  induction n with
  | zero => exact ⟨CtxsOnly.refl s, fun c => rfl⟩
  | succ n ih =>
    obtain ⟨honly, hctx⟩ := ih
    rw [List.range_succ, List.foldl_append, List.foldl_cons, List.foldl_nil]
    generalize (List.range n).foldl State.expireSession s = t at honly hctx
    obtain ⟨hstep, hsame, hother⟩ := t.expireSession_ctx n
    refine ⟨honly.trans hstep, fun c => ?_⟩
    rcases eq_or_ne c n with rfl | hc
    · rw [hsame, hctx, honly.hostEntry, honly.now, if_neg (lt_irrefl _), if_pos (Nat.lt_succ_self _)]
    · rw [hother c hc, hctx]
      exact if_congr (by omega) rfl rfl

/-! ### HOST_CTL (R58, R71, R477) -/

/-- The write of the bit of one trigger, of a register that no rule locks, runs that trigger alone, and the requester is told
its cause. -/
theorem State.writeBit_of_trigger {s : State} {who : Requester} {addr bit : Nat} {r : RegSpec} (hr : findReg addr = some r)
    (hsel : (r.fields.filter fun f =>
      (BitVec.ofNat 32 (2 ^ bit) &&& f.mask) != 0 && f.acc != .RO && f.acc != .ROS && f.acc != .RC) = [triggerField bit])
    (hfirst : ∀ c, firstCause r.fields [(bit, c)] = c) (ho : triggerOrder addr [triggerField bit] = [triggerField bit])
    (hne : addr ≠ R.MET_REF_CTL) (hbit : fieldOf (BitVec.ofNat 32 (2 ^ bit) &&& BitVec.ofNat 32 (2 ^ bit)) bit bit = 1)
    (hs : Inv s) (hm : MayWrite s who addr) :
    s.writeBit who addr bit =
      let a := (enteredBit s who addr bit).trigger who addr bit 1
      a.1.send (.regCause who addr a.2) := by
  obtain ⟨p, hp⟩ := enteredBit_eq s who addr bit
  unfold State.writeBit State.writeFor
  rw [State.portWrite_of_mayWrite hm, ← enteredBit]
  generalize hu : enteredBit s who addr bit = u at hp ⊢
  have hl : u.lockMask addr = 0 := by rw [hp]; exact hm.2.1
  have hok : u.writeRefused who addr = Cause.OK := by rw [hp]; exact hm.1
  have hw : u.regs.wf = true := by rw [hp]; exact hs
  have hj : u.judged who addr (BitVec.ofNat 32 (2 ^ bit)) (BitVec.ofNat 32 (2 ^ bit)) r = [(triggerField bit, Cause.OK)] := by
    rw [State.judged, hsel, List.map_singleton, State.fieldCause_of_trigger hl rfl hne]
  simp only [State.writeReg, hr, hok, if_true, State.writeFields_of_trigger hw hj rfl, ho, State.runTriggers, List.foldl_cons,
    List.foldl_nil, List.nil_append, triggerField_hi, triggerField_lo, hbit, hfirst]

/-- HOST_CTL of each context holds the triggers CLOSE and RESEND. -/
theorem findReg_hostCtl {c : Nat} (h : c < 8) :
    findReg (R.HOST_CTL c) = some ⟨R.HOST_CTL 0, [(8, 4)], false, [triggerField 1, triggerField 0]⟩ := by
  interval_cases c <;> decide +kernel

theorem hostCtlOf_hostCtl {c : Nat} (h : c < 8) : hostCtlOf (R.HOST_CTL c) = some c := by
  interval_cases c <;> rfl

theorem State.trigger_hostCtl {c : Nat} (h : c < 8) (s : State) (who : Requester) (lo : Nat) :
    s.trigger who (R.HOST_CTL c) lo 1 = if lo = 0 then (s.closeSession c, Cause.OK) else (s.hostResend c, Cause.OK) := by
  interval_cases c <;> rfl

section
variable {s : State} {who : Requester} {c : Nat} (hc : c < 8) (hs : Inv s) (hm : MayWrite s who (R.HOST_CTL c))
include hc hs hm

/-- A permitted write of CLOSE or RESEND runs its trigger. -/
theorem State.writeBit_hostCtl {bit : Nat} (hb : bit < 2) : s.writeBit who (R.HOST_CTL c) bit =
    let a := (enteredBit s who (R.HOST_CTL c) bit).trigger who (R.HOST_CTL c) bit 1
    a.1.send (.regCause who (R.HOST_CTL c) a.2) := by
  have hcause : ∀ c, ([c].find? fun x => x != 0).getD Cause.OK = c := fun c => by
    by_cases hc : c = 0 <;> simp [hc, Cause.OK]
  have ho : triggerOrder (R.HOST_CTL c) [triggerField bit] = [triggerField bit] := by
    simp [triggerOrder, hostCtlOf_hostCtl hc]
  refine State.writeBit_of_trigger (findReg_hostCtl hc) ?_ (fun c => ?_) ho ?_ ?_ hs hm
  · interval_cases bit <;> rfl
  · interval_cases bit <;> exact hcause c
  · unfold R.HOST_CTL R.MET_REF_CTL
    omega
  · interval_cases bit <;> rfl

theorem exec_hostClose_permitted : exec (.hostClose who c) s =
    .next (((enteredBit s who (R.HOST_CTL c) 0).closeSession c).send (.regCause who (R.HOST_CTL c) Cause.OK)) := by
  refine congrArg _ ((State.writeBit_hostCtl hc hs hm (by decide)).trans ?_)
  rw [State.trigger_hostCtl hc, if_pos rfl]

theorem exec_hostResend_permitted : exec (.hostResend who c) s =
    .next (((enteredBit s who (R.HOST_CTL c) 1).hostResend c).send (.regCause who (R.HOST_CTL c) Cause.OK)) := by
  refine congrArg _ ((State.writeBit_hostCtl hc hs hm (by decide)).trans ?_)
  rw [State.trigger_hostCtl hc, if_neg Nat.one_ne_zero]

end

/-- Entering a write in the ledger touches neither the contexts, the registers nor what was sent. -/
theorem enteredBit_frame (s : State) (who : Requester) (addr bit : Nat) : (enteredBit s who addr bit).regs = s.regs ∧
    (enteredBit s who addr bit).out = s.out ∧ ∀ c, (enteredBit s who addr bit).ctx c = s.ctx c := by
  obtain ⟨p, hp⟩ := enteredBit_eq s who addr bit
  rw [hp]
  exact ⟨rfl, rfl, fun _ => rfl⟩

section
variable {s : State} {who : Requester} {c : Nat} (hc : c < 8) (hs : Inv s) (hm : MayWrite s who (R.HOST_CTL c))
include hc hs hm

/-- HOST_CLOSE closes the session of its context alone. -/
theorem exec_hostClose_frame : ∃ t, exec (.hostClose who c) s = .next t ∧ t.ctx c = { s.ctx c with session := none } ∧
    (∀ d, d ≠ c → t.ctx d = s.ctx d) ∧ t.out = s.out ++ [.regCause who (R.HOST_CTL c) Cause.OK] ∧ OnlyRegs [R.KEY_SLOTS] s t ∧
    t = { enteredBit s who (R.HOST_CTL c) 0 with host := t.host, regs := t.regs, out := t.out } := by
  obtain ⟨hregs, hout, hctx⟩ := enteredBit_frame s who (R.HOST_CTL c) 0
  have hclose := exec_hostClose_permitted hc hs hm
  rw [State.send_regCause] at hclose
  generalize enteredBit s who (R.HOST_CTL c) 0 = u at hclose hregs hout hctx ⊢
  obtain ⟨honly, hrest⟩ := u.closeSession_only c
  refine ⟨_, hclose, ?_, fun d hd => ?_, ?_, fun a ha => ?_, ?_⟩
  · exact (u.ctx_closeSession_same c).trans (by rw [hctx])
  · exact (u.ctx_closeSession_other c hd).trans (hctx d)
  · rw [hrest, hout]
  · exact (honly a ha).trans (congrArg (RegFile.get · a) hregs)
  · rw [hrest]

end

/-! ### SESSION_OPEN as a whole (R54, R55) -/

section
variable {m : Msg} {e : HostEntry} {s : State} (hw : Waits s 0x0001 m) (hk : s.keysReady = true) (hr : s.randomOk = true)
  (he : s.hostEntry m.seat = some e)
include hw hk hr he

theorem exec_sessionOpen_no_key (h : e.keys.length ≤ m.openKey) :
    exec (.sessionOpen m) s = .next ((taken s m).resp m false 0 Cause.HOST_KEY []) := by
  rw [exec_sessionOpen_of_waits hw hr,
    State.openHandshake_no_key ((taken_keysReady s m).trans hk) ((taken_hostEntry s m _).trans he) h]

/-- The three random values drawn are the ephemeral key, the nonce and the session number. -/
theorem exec_sessionOpen_open (h : m.openKey < e.keys.length)
    (hp : ((taken s m).setCtx m.seat { (taken s m).ctx m.seat with handshake := none }).poolHas 2 = true) :
    ∃ (v : State) (no d : Nat) (body : List Tlv) (th : List Byte) (k : List Byte × List Byte),
      v = { taken s m with drawn := s.drawn + 3 } ∧
      no = newSessionNo (Config.free (s.drawn + 2)) ((taken s m).ctx m.seat).session ∧
      1 ≤ no ∧ no ≤ 65535 ∧ (∀ x, ((taken s m).ctx m.seat).session = some x → no ≠ x.no) ∧
      d = 1 + Config.free s.drawn % (p256N - 1) ∧
      body = [sessionTlv 0 (4 :: ecBytes (ecMul d p256G)), sessionTlv 1 (beBytes 16 (Config.free (s.drawn + 1))),
        sessionTlv 2 (beBytes 2 no), sessionTlv 3 (beBytes 4 ((taken s m).ctx m.seat).journalled.toNat),
        sessionTlv 4 (beBytes 4 s.evt.pwrCycles.toNat)] ∧
      th = sha256Bytes (m.body ++ bodyBytes body) ∧ k = sessionKeys ((ecdh d m.openPoint).getD []) th ∧
      exec (.sessionOpen m) s = .next ((v.setCtx m.seat { v.ctx m.seat with
          handshake := some ⟨no, m.openKey, s.now, th, k.1, k.2, 0, [], 0⟩ }).showSlots.resp m false 0 0
        (body ++ [sessionTlv 5 (ecdsaSign (linkPrivate s.enrol) th)])) := by
  obtain ⟨v, no, d, body, th, k, hv, hno, hd, hbody, hth, hkeys, ho⟩ :=
    State.openHandshake_open ((taken_keysReady s m).trans hk) ((taken_hostEntry s m _).trans he) h hp
  rw [taken_drawn] at hv hno hd hbody
  rw [taken_evt] at hbody
  rw [taken_enrol, taken_now] at ho
  obtain ⟨hone, hmost⟩ := newSessionNo_range (Config.free (s.drawn + 2)) ((taken s m).ctx m.seat).session
  refine ⟨v, no, d, body, th, k, hv, hno, hno ▸ hone, hno ▸ hmost, fun x hx => ?_, hd, hbody, hth, hkeys, ?_⟩
  · rw [hno, hx]
    exact newSessionNo_ne _ x
  · rw [exec_sessionOpen_of_waits hw hr, ho]

end

/-- HOST_RESEND sends again every notice that was sent, to a context that can be reached (R71). -/
theorem State.resendAll_reachable {u : State} {c : Nat} (hr : u.reachable c = true) (hrole : u.fld F.PAIR_STAT.ROLE ≠ 1) :
    u.resendAll c = ((u.ctx c).notices.filter fun n => n.sent).foldl (fun t n => t.sendNotice c n) u :=
  if_pos (by simp [hr, hrole])

/-- Settles O17: what opens, confirms, closes and ends a session, command by command. -/
theorem sessionsOpenAndClose : Obligations.SessionsOpenAndClose := by
  refine ⟨fun m e s hw hk hr he => ⟨exec_sessionOpen_no_key hw hk hr he, exec_sessionOpen_open hw hk hr he⟩,
    fun m h s hw hh hn => ⟨exec_sessionConfirm_verified hw hh hn, fun hc => ?_⟩, fun m v s hw hv => ?_,
    fun m s hw => exec_identity_of_waits hw, fun s => ?_, fun s => ?_,
    fun who c s hs hc hm => exec_hostClose_frame hc hs hm, fun who c s hs hc hm => exec_hostResend_permitted hc hs hm,
    fun c u hr hrole => State.resendAll_reachable hr hrole⟩
  · obtain ⟨hregs, hrest⟩ := ((taken s m).refuse m Cause.HOST_KEY).dropHandshake_only m.seat
    exact ⟨_, _, exec_sessionConfirm_failed hw hh hn hc, rfl, State.ctx_dropHandshake_same _ _, hregs, hrest⟩
  · obtain ⟨hregs, hrest⟩ := ((taken s m).resp m false 0 0 []).closeSession_only m.seat
    exact ⟨_, _, exec_sessionClose_open hw hv, rfl, State.ctx_closeSession_same _ _,
      fun c hc => State.ctx_closeSession_other _ _ hc, hregs, hrest⟩
  · obtain ⟨t, ht, hout, hctx⟩ := exec_handshakeTimeout s
    exact ⟨t, ht, hout.regs, hout.rest, hctx⟩
  · obtain ⟨hout, hctx⟩ := expireSessions_ctx s 8
    exact ⟨_, exec_sessionLifeExpiry s, hout.regs, hout.rest, fun c hc => (hctx c).trans (if_pos hc)⟩

end Sys2Proof.Machine

/-! The front end: sensor faults, samples, zero windows and READY (R75, R76, R82, R86, R87, R96, R98). -/

namespace Sys2Proof.Machine

/-! ### Sensor faults (R76) -/

/-- MET_SENS_STAT of each sensor input. -/
theorem findReg_sensStat {i : Nat} (h : i < 48) : findReg (R.MET_SENS_STAT i) = regsMET[7]? := by
  refine findReg_at (l := regsMET.take 7) (b := 3) (by unfold R.MET_SENS_STAT; omega) rfl ?_
    (RegSpec.hits_element _ _ (by decide) h)
  simp (disch := omega) [regsMET, R.MET_SENS_STAT, RegSpec.hits_other, RegSpec.hits_past]

/-- An input enters fault: a part of `execSensorFault`. -/
def State.enterSensorFault (s : State) (i : Nat) : State :=
  ((s.flag (F.MET_SENS_STAT.FAULT i) true).flag (F.MET_SENS_STAT.FAULT_SEEN i) true).post Ev.SENSOR_FAULT []

theorem exec_sensorFault_due {s : State} {i : Nat} (hrun : 32 ≤ (Map.findD s.met.sensors i {}).outRun)
    (h0 : s.fld (F.MET_SENS_STAT.FAULT i) = 0) : exec (.sensorFault i) s = .next (s.enterSensorFault i) :=
  congrArg _ (if_pos ⟨hrun, h0⟩)

theorem exec_sensorFaultClear_due {s : State} {i : Nat} (hrun : 32000 ≤ (Map.findD s.met.sensors i {}).inRun)
    (h1 : s.fld (F.MET_SENS_STAT.FAULT i) = 1) :
    exec (.sensorFaultClear i) s = .next (s.flag (F.MET_SENS_STAT.FAULT i) false) :=
  congrArg _ (if_pos ⟨hrun, h1⟩)

section
variable {i : Nat} (hi : i < 48)
include hi

theorem ok_sensStat_fault : (F.MET_SENS_STAT.FAULT i).ok = true := FieldRef.ok_of_spans (findReg_sensStat hi) rfl

theorem ok_sensStat_faultSeen : (F.MET_SENS_STAT.FAULT_SEEN i).ok = true :=
  FieldRef.ok_of_spans (findReg_sensStat hi) rfl

end

/-- FAULT and FAULT_SEEN are different bits. -/
theorem sensStat_fault_apart (i : Nat) : (F.MET_SENS_STAT.FAULT i).apart (F.MET_SENS_STAT.FAULT_SEEN i) = true ∧
    (F.MET_SENS_STAT.FAULT_SEEN i).apart (F.MET_SENS_STAT.FAULT i) = true := by
  simp [FieldRef.apart, F.MET_SENS_STAT.FAULT, F.MET_SENS_STAT.FAULT_SEEN]

theorem State.onlyRegs_enterSensorFault (s : State) (i : Nat) : OnlyRegs [R.MET_SENS_STAT i] s (s.enterSensorFault i) :=
  (((OnlyRegs.refl _ s).flag (f := F.MET_SENS_STAT.FAULT i) true (.head _)).flag
    (f := F.MET_SENS_STAT.FAULT_SEEN i) true (.head _)).post _ _

/-- Settles O22: what an input's fault and its end write. -/
theorem sensorFaultsAreEnteredAndLeft : Obligations.SensorFaultsAreEnteredAndLeft := by
  intro i s hs hi
  have hfault := ok_sensStat_fault hi
  have hseen := ok_sensStat_faultSeen hi
  obtain ⟨hfs, hsf⟩ := sensStat_fault_apart i
  refine ⟨fun hrun h0 => ?_, fun hrun h1 => ?_⟩
  · have hw : (s.flag (F.MET_SENS_STAT.FAULT i) true).regs.wf = true := RegFile.flag_wf _ _ hs
    exact ⟨_, exec_sensorFault_due hrun h0,
      (State.fld_flag_other true hw hseen hfault hfs).trans (State.fld_flag_same true hs hfault),
      State.fld_flag_same true hw hseen, s.onlyRegs_enterSensorFault i, rfl⟩
  · exact ⟨_, exec_sensorFaultClear_due hrun h1, State.fld_flag_same false hs hfault,
      State.fld_flag_other false hs hfault hseen hsf,
      (OnlyRegs.refl _ s).flag (f := F.MET_SENS_STAT.FAULT i) false (.head _), rfl⟩

/-! ### Samples (R75, R82, R96, R98) -/

@[simp] theorem State.overRange_met (s : State) (i : Nat) : (s.overRange i).met = s.met := rfl

theorem State.foldl_overRange_met (s : State) (l : List Nat) : (l.foldl State.overRange s).met = s.met :=
  List.foldlRecOn (motive := fun t : State => t.met = s.met) l _ rfl fun t ht i _ => (t.overRange_met i).trans ht

/-- The inputs of a sample deliver nothing and leave the channels alone. -/
theorem State.sampleInputs_met (s : State) (p : SensorPlan) (raw : List RawSample) :
    (s.sampleInputs p raw).met.delivered = s.met.delivered ∧ (s.sampleInputs p raw).met.channels = s.met.channels := by
  unfold State.sampleInputs
  simp only [State.foldl_overRange_met, and_self]

/-- A sample of the channels delivers one sample. -/
theorem State.sampleChannels_delivered (s : State) (p : SensorPlan) (raw : List RawSample) :
    ∃ x, (s.sampleChannels p raw).met.delivered = s.met.delivered ++ [x] := ⟨_, rfl⟩

theorem exec_metrologySample (raw : List RawSample) (s : State) : exec (.metrologySample raw) s =
    .next (if s.fld F.MET_STAT.READY = 1 then (s.sampleInputs s.sensorPlan raw).sampleChannels s.sensorPlan raw
      else s.sampleInputs s.sensorPlan raw) := rfl

/-! ### Zero windows (R86, R87) -/

/-- A sensor has the window that is written for it. -/
theorem State.zero_setZero_same (s : State) (i : Nat) (w : Option ZeroWindow) :
    (Map.findD (s.setZero i w).met.sensors i {}).zero = w := by
  simp only [State.setZero, Map.findD_set_same]

theorem exec_zeroWindowRestart_due {s : State} {i : Nat} {e : SensorEntry} {w : ZeroWindow}
    (he : s.sensorPlan.sensor i = some e) (hz : (Map.findD s.met.sensors i {}).zero = some w) (hw : 60000 ≤ w.paces) :
    exec (.zeroWindowRestart i) s = .next ((s.closeZero i e w).setZero i (some {})) := by
  simp only [exec, execZeroWindowRestart, he, hz, if_pos hw]

/-! ### READY (R83, R98) -/

/-- A register that no step of a fold writes reads as before. -/
theorem RegFile.get_foldl_other {β : Type} {l : List β} {g : RegFile → β → RegFile} {a : Nat}
    (h : ∀ m, ∀ x ∈ l, (g m x).get a = m.get a) (m : RegFile) : (l.foldl g m).get a = m.get a :=
  List.foldlRecOn (motive := fun n : RegFile => n.get a = m.get a) l g rfl fun n hn x hx => (h n x hx).trans hn

/-- The gains of a pace are formed in the gain registers of the channels alone. -/
theorem State.onlyRegs_formGains (s : State) (p : SensorPlan) :
    OnlyRegs ((List.range 12).map R.MET_CH_GAIN) s (s.formGains p) := by
  refine fun a ha => RegFile.get_foldl_other (fun m c hc => ?_) s.regs
  split
  · rfl
  · exact RegFile.get_put_other _ fun e => ha (List.mem_map.mpr ⟨c, hc, e.symm⟩)

/-- READY is set, with the state of the channels cleared: a part of `execMetrologyReady`. -/
def State.setReady (s : State) : State :=
  { s with
    regs := s.regs.flag F.MET_STAT.READY true
    met := { s.met with channels := [], volts := [], delivered := [], voltOver := [] } }

@[simp] theorem State.setReady_regs (s : State) : s.setReady.regs = s.regs.flag F.MET_STAT.READY true := rfl

theorem exec_metrologyReady_due {s : State} (h0 : s.fld F.MET_STAT.READY = 0) (hlock : s.fld F.MET_STAT.LOCK = 1)
    (h8 : 8 ≤ s.met.sinceLock)
    (ht : (s.sensorPlan.temps.zipIdx.all fun e => !e.1.enabled || (s.regs.temp e.2).isSome) = true) :
    exec .metrologyReady s = .next (s.setReady.formGains s.sensorPlan) :=
  congrArg _ (if_pos ⟨h0, hlock, h8, ht⟩)

theorem State.onlyRegs_ready (s : State) (p : SensorPlan) :
    OnlyRegs (R.MET_STAT :: (List.range 12).map R.MET_CH_GAIN) s (s.setReady.formGains p) := by
  intro a ha
  obtain ⟨hstat, hgain⟩ := not_or.mp (List.mem_cons.not.mp ha)
  exact (s.setReady.onlyRegs_formGains p a hgain).trans (RegFile.get_put_other _ hstat)

theorem State.fld_ready {s : State} (hs : Inv s) (p : SensorPlan) :
    (s.setReady.formGains p).fld F.MET_STAT.READY = 1 := by
  have hok : F.MET_STAT.READY.ok = true := by decide +kernel
  rw [(s.setReady.onlyRegs_formGains p).fld (by decide), State.fld_eq, State.setReady_regs, RegFile.fld_flag_same true hs hok,
    if_pos rfl]

/-- Settles O23: samples by READY, the restart of a window, and READY itself. -/
theorem samplesWindowsAndReady : Obligations.SamplesWindowsAndReady := by
  refine ⟨fun raw s h0 => ?_, fun raw s h1 => ?_, fun i e w s _ _ he hz hw => ?_, fun s hs h0 hlock h8 ht => ?_⟩
  · have hn : ¬s.fld F.MET_STAT.READY = 1 := by omega
    obtain ⟨hdelivered, hchannels⟩ := s.sampleInputs_met s.sensorPlan raw
    exact ⟨_, (exec_metrologySample raw s).trans (congrArg _ (if_neg hn)), rfl, hdelivered, hchannels⟩
  · obtain ⟨x, hx⟩ := (s.sampleInputs s.sensorPlan raw).sampleChannels_delivered s.sensorPlan raw
    rw [(s.sampleInputs_met s.sensorPlan raw).1] at hx
    exact ⟨_, x, (exec_metrologySample raw s).trans (congrArg _ (if_pos h1)), hx, rfl⟩
  · exact ⟨_, exec_zeroWindowRestart_due he hz hw, State.zero_setZero_same _ i _, rfl⟩
  · exact ⟨_, exec_metrologyReady_due h0 hlock h8 ht, State.fld_ready hs _, rfl, s.onlyRegs_ready _, rfl⟩

end Sys2Proof.Machine

/-! Refinement of the matrix: a run starts, is solved and ends (R92 to R94). -/

namespace Sys2Proof.Machine

/-! ### Writes of MET_REF_CTL -/

/-- The field CH of MET_REF_CTL. -/
def refChannelField : FieldSpec := ⟨3, 0, .RW, 0, .iv [(0, 11)]⟩

/-- MET_REF_CTL: the triggers ABORT and START, and CH. -/
def refCtlReg : RegSpec := ⟨R.MET_REF_CTL, [], false, [triggerField 9, triggerField 8, refChannelField]⟩

theorem findReg_refCtl : findReg R.MET_REF_CTL = some refCtlReg := by decide +kernel

/-- A permitted write is judged field by field, with at most its entry in the ledger made before, and its requester is told
the cause. -/
theorem State.writeFor_of_mayWrite {s : State} {who : Requester} {addr : Nat} {r : RegSpec} (hr : findReg addr = some r)
    (hm : MayWrite s who addr) (value mask : Word) : ∃ p, ∀ u c,
      ({ s with pair := p } : State).writeFields who addr value mask r = (u, c) →
      s.writeFor who addr value mask = { u with out := u.out ++ [.regCause who addr c] } := by
  obtain ⟨p, hp⟩ := entered_eq s who addr value mask
  have hok : ({ s with pair := p } : State).writeRefused who addr = Cause.OK := hm.1
  refine ⟨p, fun u c hu => ?_⟩
  simp only [State.writeFor, State.portWrite_of_mayWrite hm, hp, State.writeReg, hr, hok, if_true, hu, State.send_regCause]

/-- The bits of a write of START and CH. -/
def startMask : Word := 0x10F

/-- The bits of CH. -/
def channelMask : Word := 0xF

/-- A write of START and CH for a channel. -/
def StartWord (ch : Nat) (value : Word) : Prop := fieldOf value 3 0 = ch ∧ fieldOf (value &&& startMask) 8 8 = 1

theorem startWord_ofNat {ch : Nat} (h : ch < 12) : StartWord ch (BitVec.ofNat 32 (0x100 + ch % 16)) := by
  interval_cases ch <;> exact ⟨rfl, rfl⟩

/-- A field whose bits are all written reads what was written. -/
theorem fieldOf_mergeWord {mask : Word} {hi lo : Nat} (h : ∀ i ≤ hi, lo ≤ i → mask.getLsbD i = true) (hlo : lo ≤ hi)
    (old value : Word) : fieldOf (mergeWord old value mask) hi lo = fieldOf value hi lo := by
  refine Nat.eq_of_testBit_eq fun i => ?_
  rw [fieldOf_testBit, fieldOf_testBit]
  by_cases hin : i < hi - lo + 1
  · have hm := h (lo + i) (by omega) (by omega)
    simp [mergeWord, hm]
  · simp [hin]

theorem StartWord.fieldOf_mergeWord {ch : Nat} {value : Word} (h : StartWord ch value) (old : Word) :
    fieldOf (mergeWord old value channelMask) 3 0 = ch :=
  (Machine.fieldOf_mergeWord (by decide) (by decide) old value).trans h.1

section
variable {s : State} (hl : s.lockMask R.MET_REF_CTL = 0) (who : Requester)
include hl

/-- ABORT is always taken. -/
theorem State.judged_abort :
    s.judged who R.MET_REF_CTL (BitVec.ofNat 32 (2 ^ 9)) (BitVec.ofNat 32 (2 ^ 9)) refCtlReg = [(triggerField 9, Cause.OK)] := by
  have hsel : (refCtlReg.fields.filter fun f =>
      (BitVec.ofNat 32 (2 ^ 9) &&& f.mask) != 0 && f.acc != .RO && f.acc != .ROS && f.acc != .RC) = [triggerField 9] := rfl
  rw [State.judged, hsel, List.map_singleton]
  simp [State.fieldCause, hl, triggerField]

/-- START with a channel below 12 is taken, and CH with it. -/
theorem State.judged_start {ch : Nat} {value : Word} (hch : ch < 12) (hv : StartWord ch value) :
    s.judged who R.MET_REF_CTL value startMask refCtlReg = [(triggerField 8, Cause.OK), (refChannelField, Cause.OK)] := by
  have hsel : (refCtlReg.fields.filter fun f => (startMask &&& f.mask) != 0 && f.acc != .RO && f.acc != .ROS && f.acc != .RC) =
      [triggerField 8, refChannelField] := rfl
  have hmask : startMask &&& refCtlReg.storable = channelMask := by decide
  have hrange : Range.holds (.iv [(0, 11)]) ch = true := by
    simp only [Range.holds, List.any_cons, List.any_nil, Bool.or_false, Bool.and_eq_true, decide_eq_true_eq]
    omega
  have hown : ∀ lo w, s.ownCause R.MET_REF_CTL lo w = Cause.OK := fun _ _ => rfl
  have hle : ¬11 < ch := by omega
  rw [State.judged, hsel]
  simp [State.fieldCause, hmask, hl, hv.fieldOf_mergeWord, hown, hrange, hle, triggerField, refChannelField]

end

/-- CH of MET_REF_CTL is stored: a part of `writeFields`. -/
def State.storeRefChannel (s : State) (value : Word) : State :=
  { s with regs := s.regs.put R.MET_REF_CTL (mergeWord (s.regs.get R.MET_REF_CTL) value channelMask) }

theorem State.storeRefChannel_wf {s : State} (hs : Inv s) (value : Word) : (s.storeRefChannel value).regs.wf = true :=
  RegFile.put_wf (m := s.regs) R.MET_REF_CTL _ hs

theorem State.onlyRegs_storeRefChannel (s : State) (value : Word) : OnlyRegs [R.MET_REF_CTL] s (s.storeRefChannel value) :=
  fun _ ha => RegFile.get_put_other _ (List.ne_of_not_mem_cons ha)

/-- The update is unfolded by its equation: by `rfl` the kernel would compare whole states, and with them the register files. -/
theorem State.storeRefChannel_out (s : State) (value : Word) : (s.storeRefChannel value).out = s.out := by
  rw [State.storeRefChannel]

theorem State.fld_storeRefChannel {s : State} (hs : Inv s) {ch : Nat} {value : Word} (hv : StartWord ch value) :
    (s.storeRefChannel value).fld F.MET_REF_CTL.CH = ch := by
  have hget : (s.storeRefChannel value).regs.get R.MET_REF_CTL =
      mergeWord (s.regs.get R.MET_REF_CTL) value channelMask &&& refCtlReg.fieldMask := RegFile.get_put_same _ hs findReg_refCtl
  have hfield : refChannelField ∈ refCtlReg.fields := by decide
  calc (s.storeRefChannel value).fld F.MET_REF_CTL.CH
    _ = fieldOf ((s.storeRefChannel value).regs.get R.MET_REF_CTL) 3 0 := rfl
    _ = fieldOf (mergeWord (s.regs.get R.MET_REF_CTL) value channelMask) 3 0 := by
      rw [hget]
      exact fieldOf_cut hfield _ le_rfl
    _ = ch := hv.fieldOf_mergeWord _

/-- A new value of CH has no effect of its own. -/
theorem State.afterWrite_refCtl (s : State) (old : Word) : s.afterWrite R.MET_REF_CTL old = s := by
  have hnotice : arrayIndex (R.HOST_NOTICE_WIN 0) 4 8 R.MET_REF_CTL = none := rfl
  have hlow : arrayIndex (R.PPY_LOW 0) 4 2 R.MET_REF_CTL = none := rfl
  have hne : R.MET_REF_CTL ≠ R.ING_KEYCACHE ∧ R.MET_REF_CTL ≠ R.ARB_SEED ∧ R.MET_REF_CTL ≠ R.ARB_CTL ∧
      R.MET_REF_CTL ≠ R.RFM_FLOOD ∧ R.MET_REF_CTL ≠ R.RFM_LPL ∧ R.MET_REF_CTL ≠ R.PPY_KEYPAD := by decide
  simp [State.afterWrite, hnotice, hlow, hne]

theorem State.trigger_abort (s : State) (who : Requester) :
    s.trigger who R.MET_REF_CTL 9 1 = (s.refineEnd 6, Cause.OK) := rfl

theorem State.trigger_start (s : State) (who : Requester) : s.trigger who R.MET_REF_CTL 8 1 =
    if s.refineAllowed (s.fld F.MET_REF_CTL.CH) then (s.refineStart (s.fld F.MET_REF_CTL.CH), Cause.OK)
    else (s, Cause.REG_RANGE) := rfl

/-- Of a write of START and CH, CH is stored, and nothing is cleared or staged. -/
theorem takenBits_start :
    let bits := takenBits [(triggerField 8, Cause.OK), (refChannelField, Cause.OK)] startMask
    bits (fun a => a == .RW) = channelMask ∧ bits (fun a => a == .W1C) = 0 ∧ bits (fun a => a == .RWS) = 0 := by
  decide

section
variable {s : State} (hs : Inv s) (hl : s.lockMask R.MET_REF_CTL = 0) (who : Requester)
include hs hl

/-- ABORT ends a run that is collecting (R94). -/
theorem State.writeFields_abort : s.writeFields who R.MET_REF_CTL (BitVec.ofNat 32 (2 ^ 9)) (BitVec.ofNat 32 (2 ^ 9)) refCtlReg =
    (s.refineEnd 6, Cause.OK) := by
  have horder : triggerOrder R.MET_REF_CTL [triggerField 9] = [triggerField 9] := rfl
  have hbit : fieldOf (BitVec.ofNat 32 (2 ^ 9) &&& BitVec.ofNat 32 (2 ^ 9)) 9 9 = 1 := rfl
  have hcause : firstCause refCtlReg.fields [(9, Cause.OK)] = Cause.OK := rfl
  simp only [State.writeFields_of_trigger hs (State.judged_abort hl who) rfl, horder, State.runTriggers, List.foldl_cons,
    List.foldl_nil, List.nil_append, triggerField_hi, triggerField_lo, hbit, State.trigger_abort, hcause]

/-- START stores CH and starts a run for the channel (R92). -/
theorem State.writeFields_start {ch : Nat} {value : Word} (hch : ch < 12) (hv : StartWord ch value)
    (ha : s.refineAllowed ch = true) :
    s.writeFields who R.MET_REF_CTL value startMask refCtlReg = ((s.storeRefChannel value).refineStart ch, Cause.OK) := by
  obtain ⟨hrw, hw1c, hrws⟩ := takenBits_start
  have hput : s.regs.put R.MET_REF_CTL (mergeWord (s.regs.get R.MET_REF_CTL) value channelMask &&& ~~~(value &&& 0)) =
      (s.storeRefChannel value).regs := by
    have hnew : ∀ w : Word, w &&& ~~~(value &&& 0#32) = w := fun w => by
      rw [BitVec.and_zero, BitVec.not_zero, BitVec.and_allOnes]
    exact congrArg _ (hnew _)
  have htrigger : (s.storeRefChannel value).trigger who R.MET_REF_CTL 8 1 =
      ((s.storeRefChannel value).refineStart ch, Cause.OK) := by
    rw [State.trigger_start, State.fld_storeRefChannel hs hv]
    exact if_pos ha
  have hrun : (s.storeRefChannel value).runTriggers who R.MET_REF_CTL (value &&& startMask) [triggerField 8] =
      ((s.storeRefChannel value).refineStart ch, [(8, Cause.OK)]) := by
    simp only [State.runTriggers, List.foldl_cons, List.foldl_nil, triggerField_hi, triggerField_lo, hv.2, htrigger,
      List.nil_append]
  simp only [State.writeFields_eq, State.judged_start hl who hch hv, hrw, hw1c, hrws, hput, State.afterWrite_refCtl, ite_self,
    if_true]
  exact congrArg (fun a => (a.1, firstCause refCtlReg.fields (a.2 ++ [(0, Cause.OK)]))) hrun

end

/-! ### A run starts and is ended (R92, R94) -/

section
variable {s : State} {who : Requester} (hs : Inv s) (hm : MayWrite s who R.MET_REF_CTL)
include hs hm

theorem exec_refineStart_allowed {ch : Nat} (hch : ch < 12) (ha : s.refineAllowed ch = true) :
    ∃ p value u, exec (.refineStart who ch) s = .next { u with out := u.out ++ [.regCause who R.MET_REF_CTL Cause.OK] } ∧
      u = (({ s with pair := p } : State).storeRefChannel value).refineStart ch := by
  obtain ⟨p, hp⟩ := State.writeFor_of_mayWrite findReg_refCtl hm (BitVec.ofNat 32 (0x100 + ch % 16)) startMask
  exact ⟨p, _, _, congrArg _ (hp _ _ (State.writeFields_start (s := { s with pair := p }) hs hm.2.1 who hch
    (startWord_ofNat hch) ha)), rfl⟩

theorem exec_refineAbort_permitted :
    ∃ p u, exec (.refineAbort who) s = .next { u with out := u.out ++ [.regCause who R.MET_REF_CTL Cause.OK] } ∧
      u = ({ s with pair := p } : State).refineEnd 6 := by
  obtain ⟨p, hp⟩ := State.writeFor_of_mayWrite findReg_refCtl hm (BitVec.ofNat 32 (2 ^ 9)) (BitVec.ofNat 32 (2 ^ 9))
  exact ⟨p, _, congrArg _ (hp _ _ (State.writeFields_abort (s := { s with pair := p }) hs hm.2.1 who)), rfl⟩

end

/-- A run that is collecting ends with the STATE. -/
theorem State.refineEnd_collecting {s : State} (hr : s.met.refine.isSome = true) (state : Nat) :
    s.refineEnd state =
      { s with met := { s.met with refine := none }, regs := s.regs.setF F.MET_REF_STAT.STATE state } := if_pos hr

/-- The fields that the start of a run writes. -/
def refineStartFields (ch : Nat) : List (FieldRef × Nat) :=
  [(F.MET_REF_STAT.STATE, 1), (F.MET_REF_STAT.CH, ch), (F.MET_REF_STAT.PACES, 0)]

theorem State.refineStart_regs (s : State) (ch : Nat) : (s.refineStart ch).regs = s.regs.setFields (refineStartFields ch) := by
  simp only [refineStartFields, RegFile.setFields_cons, RegFile.setFields_nil]
  rfl

theorem State.refineStart_refine (s : State) (ch : Nat) :
    (s.refineStart ch).met.refine.map (fun r => (r.ch, r.samples)) = some (ch, 0) := rfl

theorem State.refineStart_out (s : State) (ch : Nat) : (s.refineStart ch).out = s.out := by rw [State.refineStart]

theorem State.onlyRegs_refineStart (s : State) (ch : Nat) : OnlyRegs [R.MET_REF_STAT] s (s.refineStart ch) :=
  ((((OnlyRegs.refl _ s).setF (f := F.MET_REF_STAT.STATE) 1 (.head _)).setF (f := F.MET_REF_STAT.CH) ch (.head _)).setF
    (f := F.MET_REF_STAT.PACES) 0 (.head _)).of_regs rfl

/-- The fields of MET_REF_STAT lie in it, apart from each other. -/
theorem refineStartFields_ok (ch : Nat) : (∀ e ∈ refineStartFields ch, e.1.ok = true) ∧
    (refineStartFields ch).Pairwise fun e x => e.1.apart x.1 = true := by
  have hok : F.MET_REF_STAT.STATE.ok = true ∧ F.MET_REF_STAT.CH.ok = true ∧ F.MET_REF_STAT.PACES.ok = true := by
    decide +kernel
  have hap : F.MET_REF_STAT.STATE.apart F.MET_REF_STAT.CH = true ∧ F.MET_REF_STAT.STATE.apart F.MET_REF_STAT.PACES = true ∧
      F.MET_REF_STAT.CH.apart F.MET_REF_STAT.PACES = true := by
    decide
  simp [refineStartFields, hok, hap]

theorem State.fld_refineStart {s : State} (hs : Inv s) {ch : Nat} {f : FieldRef} {v : Nat}
    (hf : (f, v) ∈ refineStartFields ch) :
    (s.refineStart ch).fld f = v % 2 ^ (f.hi - f.lo + 1) := by
  obtain ⟨hok, hap⟩ := refineStartFields_ok ch
  rw [State.fld_eq, State.refineStart_regs]
  exact RegFile.fld_setFields_mem hs hok hap hf

/-! ### A run is solved (R93) -/

/-- The cancellation terms of the channel of a run: a part of `execRefineSolve`. -/
def State.refineTerms (s : State) (r : RefineRun) : List Term :=
  match s.sensorPlan.channels[r.ch]? with
  | some e => e.terms.drop 4
  | none => []

/-- The STATE with which a run is solved: a part of `execRefineSolve`. -/
def State.refineOutcome (s : State) (r : RefineRun) : Nat := r.state ((s.refineTerms r).filter fun t => t.sensor != 0xFF)

/-- What a run proposes for the four cancellation terms: a part of `execRefineSolve`. -/
def RefineRun.proposals (r : RefineRun) (terms : List Term) : List Int :=
  (List.range 4).map fun m => match terms[m]? with
    | some t => if t.sensor = 0xFF then 0 else r.proposal t.coeff ((terms.take m).filter fun q => q.sensor != 0xFF).length
    | none => 0

/-- The proposal registers: a part of `execRefineSolve`. -/
def RegFile.showProposals (m : RegFile) (l : List Int) : RegFile :=
  l.zipIdx.foldl (fun g e => g.setFInt (F.MET_REF_PROP.COEFF e.2) e.1) m

/-- The registers of a solved run: a part of `execRefineSolve`. -/
def State.refineShown (s : State) (r : RefineRun) : RegFile :=
  let shown := s.regs.setF F.MET_REF_STAT.STATE (s.refineOutcome r)
  if s.refineOutcome r = 2 then
    ((shown.showProposals (r.proposals (s.refineTerms r))).setF F.MET_REF_RMS_BEFORE.RMS
      (sqrtRound r.yy.toNat r.samples)).setF F.MET_REF_RMS_AFTER.RMS r.rmsAfter
  else shown

theorem exec_refineSolve_due {s : State} {r : RefineRun} (hr : s.met.refine = some r)
    (hp : s.fld F.MET_REF_MIN.PACES ≤ s.fld F.MET_REF_STAT.PACES) :
    exec .refineSolve s = .next (({ s with met := { s.met with refine := none }, regs := s.refineShown r } : State).post
      Ev.REFINE_DONE [b2 r.ch, b1 (s.refineOutcome r)]) := by
  simp only [exec, execRefineSolve, hr, if_pos hp]
  rfl

/-- The registers of a run's outcome other than MET_REF_STAT. -/
def proposalRegs : List Nat :=
  [R.MET_REF_PROP 0, R.MET_REF_PROP 1, R.MET_REF_PROP 2, R.MET_REF_PROP 3, R.MET_REF_RMS_BEFORE, R.MET_REF_RMS_AFTER]

theorem mem_proposalRegs {k : Nat} (h : k < 4) : R.MET_REF_PROP k ∈ proposalRegs := by
  interval_cases k <;> decide

theorem RegFile.get_showProposals_other {l : List Int} (hl : l.length = 4) {a : Nat} (ha : a ∉ proposalRegs) (m : RegFile) :
    (m.showProposals l).get a = m.get a := by
  refine RegFile.get_foldl_other (fun g e he => RegFile.get_put_other _ ?_) m
  rintro rfl
  exact ha (mem_proposalRegs (hl ▸ List.snd_lt_of_mem_zipIdx he))

theorem RegFile.showProposals_wf {m : RegFile} (l : List Int) (h : m.wf = true) : (m.showProposals l).wf = true :=
  RegFile.foldl_wf _ (fun _ _ => RegFile.setFInt_wf _ _) h

section
variable {s : State} {r : RefineRun}

/-- A run that is not solved for proposals shows its STATE alone. -/
theorem State.refineShown_of_ne (h : s.refineOutcome r ≠ 2) :
    s.refineShown r = s.regs.setF F.MET_REF_STAT.STATE (s.refineOutcome r) := if_neg h

theorem State.refineShown_of_solved (h : s.refineOutcome r = 2) : s.refineShown r =
    (((s.regs.setF F.MET_REF_STAT.STATE (s.refineOutcome r)).showProposals (r.proposals (s.refineTerms r))).setF
      F.MET_REF_RMS_BEFORE.RMS (sqrtRound r.yy.toNat r.samples)).setF F.MET_REF_RMS_AFTER.RMS r.rmsAfter := if_pos h

theorem State.get_refineShown_other (h : s.refineOutcome r = 2) {a : Nat} (ha : a ∉ R.MET_REF_STAT :: proposalRegs) :
    (s.refineShown r).get a = s.regs.get a := by
  obtain ⟨hstat, hprop⟩ := not_or.mp (List.mem_cons.not.mp ha)
  have hafter : a ≠ R.MET_REF_RMS_AFTER := by rintro rfl; exact hprop (by decide)
  have hbefore : a ≠ R.MET_REF_RMS_BEFORE := by rintro rfl; exact hprop (by decide)
  rw [State.refineShown_of_solved h]
  exact (RegFile.get_put_other _ hafter).trans ((RegFile.get_put_other _ hbefore).trans
    ((RegFile.get_showProposals_other rfl hprop _).trans (RegFile.get_put_other _ hstat)))

theorem State.fld_refineShown_rmsAfter (hs : Inv s) (h : s.refineOutcome r = 2) :
    (s.refineShown r).fld F.MET_REF_RMS_AFTER.RMS = r.rmsAfter % 2 ^ 32 := by
  have hok : F.MET_REF_RMS_AFTER.RMS.ok = true := by decide +kernel
  rw [State.refineShown_of_solved h]
  exact RegFile.fld_setF_same _ (RegFile.setF_wf _ _ (RegFile.showProposals_wf _ (RegFile.setF_wf _ _ hs))) hok

end


/-- A run that is started shows CH, STATE 1 and no paces (R92). -/
theorem exec_refineStart_outcome {s : State} {who : Requester} {ch : Nat} (hs : Inv s) (hm : MayWrite s who R.MET_REF_CTL)
    (hch : ch < 12) (ha : s.refineAllowed ch = true) :
    ∃ t, exec (.refineStart who ch) s = .next t ∧ t.fld F.MET_REF_STAT.STATE = 1 ∧ t.fld F.MET_REF_STAT.CH = ch ∧
      t.fld F.MET_REF_STAT.PACES = 0 ∧ t.met.refine.map (fun r => (r.ch, r.samples)) = some (ch, 0) ∧
      t.out = s.out ++ [.regCause who R.MET_REF_CTL Cause.OK] ∧ OnlyRegs [R.MET_REF_CTL, R.MET_REF_STAT] s t := by
  obtain ⟨p, value, u, h, hu⟩ := exec_refineStart_allowed hs hm hch ha
  have hw := State.storeRefChannel_wf (s := { s with pair := p }) hs value
  have hstate : u.fld F.MET_REF_STAT.STATE = 1 := hu ▸ State.fld_refineStart hw (v := 1) (by simp [refineStartFields])
  have hchan : u.fld F.MET_REF_STAT.CH = ch % 16 := hu ▸ State.fld_refineStart hw (v := ch) (by simp [refineStartFields])
  have hpaces : u.fld F.MET_REF_STAT.PACES = 0 := hu ▸ State.fld_refineStart hw (v := 0) (by simp [refineStartFields])
  have hrefine : u.met.refine.map (fun r => (r.ch, r.samples)) = some (ch, 0) := hu ▸ State.refineStart_refine _ ch
  have hout : u.out = s.out := by rw [hu, State.refineStart_out, State.storeRefChannel_out]
  refine ⟨_, h, hstate, hchan.trans (Nat.mod_eq_of_lt (by omega)), hpaces, hrefine, congrArg (· ++ _) hout, fun a hn => ?_⟩
  obtain ⟨hctl, hstat⟩ := not_or.mp (List.mem_cons.not.mp hn)
  show u.regs.get a = s.regs.get a
  rw [hu, State.onlyRegs_refineStart _ ch a hstat]
  exact State.onlyRegs_storeRefChannel _ value a (by simpa using hctl)

/-- A run that is collecting ends at ABORT with STATE 6 (R94). -/
theorem exec_refineAbort_outcome {s : State} {who : Requester} (hs : Inv s) (hm : MayWrite s who R.MET_REF_CTL)
    (hr : s.met.refine.isSome = true) :
    ∃ t, exec (.refineAbort who) s = .next t ∧ t.met.refine = none ∧ t.fld F.MET_REF_STAT.STATE = 6 ∧
      t.out = s.out ++ [.regCause who R.MET_REF_CTL Cause.OK] ∧ OnlyRegs [R.MET_REF_STAT] s t := by
  have hok : F.MET_REF_STAT.STATE.ok = true := by decide +kernel
  obtain ⟨p, u, h, hu⟩ := exec_refineAbort_permitted hs hm
  rw [State.refineEnd_collecting (s := { s with pair := p }) hr] at hu
  have hregs : u.regs = s.regs.setF F.MET_REF_STAT.STATE 6 := by rw [hu]
  have hout : u.out = s.out := by rw [hu]
  refine ⟨_, h, by rw [hu], ?_, congrArg (· ++ _) hout, fun a ha => ?_⟩
  · show u.regs.fld F.MET_REF_STAT.STATE = 6
    rw [hregs, RegFile.fld_setF_same _ hs hok]
    rfl
  · show u.regs.get a = s.regs.get a
    rw [hregs]
    exact RegFile.get_put_other _ (List.ne_of_not_mem_cons ha)

/-- A solved run shows and records its STATE, and its proposals where that is 2 (R93). -/
theorem exec_refineSolve_outcome {s : State} {r : RefineRun} (hs : Inv s) (hr : s.met.refine = some r)
    (hp : s.fld F.MET_REF_MIN.PACES ≤ s.fld F.MET_REF_STAT.PACES) :
    ∃ t state, exec .refineSolve s = .next t ∧ t.met = { s.met with refine := none } ∧
      t = { s.post Ev.REFINE_DONE [b2 r.ch, b1 state] with regs := t.regs, met := t.met } ∧
      (state ≠ 2 → t.fld F.MET_REF_STAT.STATE = state % 16 ∧ OnlyRegs [R.MET_REF_STAT] s t) ∧
      (state = 2 → t.fld F.MET_REF_RMS_AFTER.RMS = r.rmsAfter % 2 ^ 32 ∧ OnlyRegs (R.MET_REF_STAT :: proposalRegs) s t) := by
  have hok : F.MET_REF_STAT.STATE.ok = true := by decide +kernel
  refine ⟨_, s.refineOutcome r, exec_refineSolve_due hr hp, rfl, rfl, fun hne => ⟨?_, fun a ha => ?_⟩,
    fun h2 => ⟨?_, fun a ha => ?_⟩⟩
  · show (s.refineShown r).fld F.MET_REF_STAT.STATE = s.refineOutcome r % 2 ^ 4
    rw [State.refineShown_of_ne hne, RegFile.fld_setF_same _ hs hok]
    rfl
  · show (s.refineShown r).get a = s.regs.get a
    rw [State.refineShown_of_ne hne]
    exact RegFile.get_put_other _ (List.ne_of_not_mem_cons ha)
  · exact State.fld_refineShown_rmsAfter hs h2
  · exact State.get_refineShown_other h2 ha

/-- Settles O24: the start, the abort, and the solution of a run by its STATE. -/
theorem refinementRunsStartSolveAndEnd : Obligations.RefinementRunsStartSolveAndEnd :=
  ⟨fun _ _ _ hs hch hm ha => exec_refineStart_outcome hs hm hch ha, fun _ _ hs hm hr => exec_refineAbort_outcome hs hm hr,
    fun _ _ hs hr hp => exec_refineSolve_outcome hs hr hp⟩

end Sys2Proof.Machine

/-! What the cores do on the sealed queues leaves the rest of the state alone, and what the application cores take of the
exports (R113, R178, R197, R217, R218). -/

namespace Sys2Proof.Machine

/-! ### The sealed queues (R217) -/

/-- `t` is `s` but for what stands in the hardware queues, in front of them and behind them. -/
def SealedQueuesOnly (s t : State) : Prop := t = { s with
  regs := t.regs, que := t.que
  leg := { s.leg with
    held := t.leg.held, outbox := t.leg.outbox, exportRead := t.leg.exportRead, requestRead := t.leg.requestRead } }

theorem SealedQueuesOnly.trans {s t u : State} (h : SealedQueuesOnly s t) (g : SealedQueuesOnly t u) : SealedQueuesOnly s u :=
  Eq.trans g (congrArg (fun x : State => { x with
    regs := u.regs, que := u.que
    leg := { x.leg with
      held := u.leg.held, outbox := u.leg.outbox, exportRead := u.leg.exportRead, requestRead := u.leg.requestRead } }) h)

theorem SealedQueuesOnly.eq {s t : State} (h : SealedQueuesOnly s t) : t = { s with
    regs := t.regs, que := t.que
    leg := { s.leg with
      held := t.leg.held, outbox := t.leg.outbox, exportRead := t.leg.exportRead, requestRead := t.leg.requestRead } } := h

theorem State.pushMessage_only {s t : State} {q : Nat} {m : List (BitVec 64)} (h : s.pushMessage q m = some t) :
    SealedQueuesOnly s t := by
  unfold State.pushMessage at h
  split at h
  · cases h
  · dsimp only at h
    split at h
    · cases h
      rfl
    · cases h

theorem pushWaiting_only (q : Nat) (l : List (List (BitVec 64))) (s : State) :
    SealedQueuesOnly s (pushWaiting q l s).1 := by
  induction l generalizing s with
  | nil => rfl
  | cons m l ih =>
    unfold pushWaiting
    split
    · next t ht => exact (State.pushMessage_only ht).trans (ih t)
    · rfl

theorem State.refillQueues_only (s : State) : SealedQueuesOnly s s.refillQueues := by
  have h0 := pushWaiting_only 0 s.leg.held s
  have h1 := pushWaiting_only 1 (pushWaiting 0 s.leg.held s).1.leg.outbox (pushWaiting 0 s.leg.held s).1
  exact (h0.trans h1).trans rfl

theorem State.dropHead_only (s : State) (q n : Nat) : SealedQueuesOnly s (s.dropHead q n) := by
  refine SealedQueuesOnly.trans ?_ (State.refillQueues_only _)
  unfold State.setReadWords
  split <;> rfl

/-- What is exported takes the next SEQ, and leaves all but the sealed queues alone. -/
theorem State.export_only (s : State) (e : Export) :
    SealedQueuesOnly { s with leg := { s.leg with exportSeq := (s.leg.exportSeq + 1) % 2 ^ 32 } } (s.export_ e) := by
  unfold State.export_
  dsimp only
  split
  · rfl
  · exact SealedQueuesOnly.trans (t := { s with leg := { s.leg with exportSeq := _, held := s.leg.held ++ [_] } }) rfl
      (State.refillQueues_only _)

section
variable {s t : State} (h : SealedQueuesOnly s t)
include h

theorem SealedQueuesOnly.tar : t.tar = s.tar := by rw [h.eq]

theorem SealedQueuesOnly.qty : t.qty = s.qty := by rw [h.eq]

theorem SealedQueuesOnly.clk : t.clk = s.clk := by rw [h.eq]

theorem SealedQueuesOnly.fresh : t.leg.fresh = s.leg.fresh := by rw [h.eq]

theorem SealedQueuesOnly.exportSeq : t.leg.exportSeq = s.leg.exportSeq := by rw [h.eq]

end

/-! ### The queue of the exports -/

/-- A snapshot as the newest of the 24 kept of its point: a part of `execSnapshot` (R189). -/
def State.keepSnapshot (s : State) (p : PointSnapshot) : State :=
  let new := Map.findD s.tar.snapshots p.mp [] ++ [p]
  { s with tar := { s.tar with snapshots := Map.set s.tar.snapshots p.mp (new.drop (new.length - 24)) } }

theorem State.snapshots_keepSnapshot_same (s : State) (p : PointSnapshot) :
    Map.findD (s.keepSnapshot p).tar.snapshots p.mp [] = (Map.findD s.tar.snapshots p.mp [] ++ [p]).drop
      ((Map.findD s.tar.snapshots p.mp []).length + 1 - 24) :=
  (Map.findD_set_same ..).trans (by rw [List.length_append, List.length_singleton])

section
variable {s : State} {m : List (BitVec 64)} {x : Export} (hm : s.headWords 0 = some m)
  (hx : Export.of (messageOf m).type (messageOf m).body = some x)
include hm hx

/-- The head of the queue is taken where it is wanted, and stays where it is not. -/
theorem State.takeExport_of_head (want : Export → Bool) :
    s.takeExport want = if want x then (s.dropHead 0 m.length, some x) else (s, none) := by
  simp only [State.takeExport, hm, hx]

/-- A snapshot that is not yet held is kept (R189). -/
theorem exec_snapshot_taken {p : PointSnapshot} (hp : x = .snapshot p) : exec .snapshot s =
    .next (if (Map.findD s.tar.snapshots p.mp []).any (fun y => y.bn == p.bn) then s.dropHead 0 m.length
      else (s.dropHead 0 m.length).keepSnapshot p) := by
  subst hp
  simp only [exec, execSnapshot, State.takeExport_of_head hm hx, if_true, ← (s.dropHead_only 0 m.length).tar]
  rfl

/-- An entry whose LSEQ is not yet held is stored (R218). -/
theorem exec_legalEvent_taken {e : LegalEntry} {c : BitVec 128} (he : x = .legalEvent e c) : exec .legalEvent s =
    .next (if s.leg.log.any (fun y => y.1.lseq == e.lseq) then s.dropHead 0 m.length
      else { s.dropHead 0 m.length with leg := { (s.dropHead 0 m.length).leg with
        log := (s.dropHead 0 m.length).leg.log ++ [(e, c)] } }) := by
  subst he
  simp only [exec, execLegalEvent, State.takeExport_of_head hm hx, if_true]

/-- A result is used by what waited for it (R217). -/
theorem exec_reqResult_taken {q c : Nat} {d : List Byte} {v : State} (he : x = .reqResult q c d)
    (hv : v = { s.dropHead 0 m.length with leg := { (s.dropHead 0 m.length).leg with
      waiting := (s.dropHead 0 m.length).leg.waiting.filter fun w => w.1 != q } }) :
    (s.leg.waiting.find? (fun w => w.1 == q) = none → exec .reqResult s = .next v) ∧
    (∀ w, s.leg.waiting.find? (fun w => w.1 == q) = some w → exec .reqResult s = .next (v.useResult w.2 c)) := by
  subst he hv
  refine ⟨fun hn => ?_, fun w hw => ?_⟩
  · simp only [exec, execReqResult, State.takeExport_of_head hm hx, if_true, hn]
  · simp only [exec, execReqResult, State.takeExport_of_head hm hx, if_true, hw]

theorem exec_snapshot_other (h : ∀ p, x ≠ .snapshot p) : exec .snapshot s = .next s := by
  simp only [exec, execSnapshot, State.takeExport_of_head hm hx]
  cases x with
  | snapshot p => exact absurd rfl (h p)
  | _ => rfl

theorem exec_legalEvent_other (h : ∀ e c, x ≠ .legalEvent e c) : exec .legalEvent s = .next s := by
  simp only [exec, execLegalEvent, State.takeExport_of_head hm hx]
  cases x with
  | legalEvent e c => exact absurd rfl (h e c)
  | _ => rfl

theorem exec_reqResult_other (h : ∀ q c d, x ≠ .reqResult q c d) : exec .reqResult s = .next s := by
  simp only [exec, execReqResult, State.takeExport_of_head hm hx]
  cases x with
  | reqResult q c d => exact absurd rfl (h q c d)
  | _ => rfl

end

/-- A result of cause 0 makes the set that waited for it the passive set of its calendar (R178). -/
theorem State.useResult_calSet_ok (s : State) (task item : Nat) (set : CalSet) :
    s.useResult (.calSet task item set) 0 = (s.setCal (fieldAt set 0 1) { s.storedCal (fieldAt set 0 1) with
      passive := some set, loads := fieldAt set 4 2 }).endItem task item 0 := rfl

/-- A result of cause 0 cancels the passive set of its calendar (R178). -/
theorem State.useResult_calCancel_ok (s : State) (task item k : Nat) :
    s.useResult (.calCancel task item k) 0 = (s.setCal k { s.storedCal k with passive := none }).endItem task item 0 := rfl

/-- Settles O35: each kind of message by what takes it, and what is left to another command. -/
theorem exportsAreTakenInOrder : Obligations.ExportsAreTakenInOrder := by
  rintro m x s u hm hx rfl
  refine ⟨fun p hp => ⟨fun hheld => ?_, fun hnew => ?_⟩, fun e c he => ⟨fun hheld => ?_, fun hnew => ?_⟩, fun q c d hr => ?_,
    exec_snapshot_other hm hx, exec_legalEvent_other hm hx, exec_reqResult_other hm hx⟩
  · rw [exec_snapshot_taken hm hx hp, if_pos hheld]
  · rw [exec_snapshot_taken hm hx hp, if_neg (ne_true_of_eq_false hnew)]
    have htar := (s.dropHead_only 0 m.length).tar
    exact ⟨_, rfl, rfl, htar ▸ State.snapshots_keepSnapshot_same _ p, fun k hk => htar ▸ Map.find_set_other _ hk⟩
  · rw [exec_legalEvent_taken hm hx he, if_pos hheld]
  · rw [exec_legalEvent_taken hm hx he, if_neg (ne_true_of_eq_false hnew)]
  · obtain ⟨hnone, hsome⟩ := exec_reqResult_taken hm hx hr rfl
    refine ⟨_, rfl, hnone, fun n task item hw => hsome _ hw, fun n task item set hw hc => ?_, fun n task item k hw hc => ?_⟩
    · subst hc
      exact (hsome _ hw).trans (congrArg _ (State.useResult_calSet_ok _ task item set))
    · subst hc
      exact (hsome _ hw).trans (congrArg _ (State.useResult_calCancel_ok _ task item k))

end Sys2Proof.Machine

/-! Quantities: the registers of the block QTY, the close of an interval and the pulse outputs (R110, R113, R115, R119,
R121, R122, R216). -/

namespace Sys2Proof.Machine

/-! ### The registers of the block QTY (R442) -/

/-- An address past the whole of an array is none of its own (R442). -/
theorem RegSpec.hits_beyond {a n k x : Nat} {ds : List (Nat × Nat)} (b : Bool) (l : List FieldSpec) (hk : 0 < k)
    (h : a + n * k ≤ x) : RegSpec.hits ⟨a, (n, k) :: ds, b, l⟩ x = false := by
  have hdiv : ¬(x - a) / k < n := not_lt.mpr ((Nat.le_div_iff_mul_le hk).mpr (by omega))
  simp [RegSpec.hits, dimsHit, hdiv]

theorem findReg_revCnt {n : Nat} (h : n < 12) : findReg (R.QTY_REV_CNT n) = regsQTY[5]? := by
  refine findReg_at (l := regsQTY.take 5) (b := 4) (by unfold R.QTY_REV_CNT; omega) rfl ?_
    (RegSpec.hits_element _ _ (by decide) h)
  simp (disch := omega) [regsQTY, R.QTY_REV_CNT, RegSpec.hits_other, RegSpec.hits_beyond]

section
variable {j : Nat} (h : j < 16)
include h

theorem findReg_pulseStat : findReg (R.QTY_PULSE_STAT j) = regsQTY[10]? := by
  refine findReg_at (l := regsQTY.take 10) (b := 4) (by unfold R.QTY_PULSE_STAT; omega) rfl ?_
    (RegSpec.hits_element _ _ (by decide) h)
  simp (disch := omega) [regsQTY, R.QTY_PULSE_STAT, RegSpec.hits_other, RegSpec.hits_beyond]

theorem findReg_pulseCnt : findReg (R.QTY_PULSE_CNT j) = regsQTY[11]? := by
  refine findReg_at (l := regsQTY.take 11) (b := 4) (by unfold R.QTY_PULSE_CNT; omega) rfl ?_
    (RegSpec.hits_element _ _ (by decide) h)
  simp (disch := omega) [regsQTY, R.QTY_PULSE_CNT, RegSpec.hits_other, RegSpec.hits_beyond]

theorem ok_pulseAsserted : (F.QTY_PULSE_STAT.ASSERTED j).ok = true := FieldRef.ok_of_spans (findReg_pulseStat h) rfl

theorem ok_pulsePending : (F.QTY_PULSE_STAT.PENDING j).ok = true := FieldRef.ok_of_spans (findReg_pulseStat h) rfl

theorem ok_pulseCount : (F.QTY_PULSE_CNT.COUNT j).ok = true := FieldRef.ok_of_spans (findReg_pulseCnt h) rfl

end

/-! ### The close of an interval (R110 to R113) -/

/-- A point as its interval closes: a part of `closeInterval`. -/
def PointState.closed (c : PointState) (e : PointEntry) (n start finish : Nat) (gap : Bool) : PointState :=
  { c.begin start finish gap with last := some (c.record e n) }

/-- The state from which the record of an interval is exported: a part of `closeInterval`. -/
def State.beginInterval (s : State) (e : PointEntry) (n : Nat) (c : PointState) (start finish : Nat) : State :=
  let regs := s.regs.setF (F.QTY_REV_CNT.COUNT n) 0
  { s with
    regs := if qget (c.record e n).quality Q.PF_GAP then regs.flag (F.QTY_MP_STAT.PF_GAP_SEEN n) true else regs
    qty := { s.qty with
      points := Map.set s.qty.points n (c.closed e n start finish (s.fld F.MET_STAT.READY == 0)), closed := true } }

/-- An interval that closes without a further flag exports the record of its point (R110, R111). -/
theorem State.closeInterval_unflagged (s : State) (e : PointEntry) (n start finish : Nat) :
    s.closeInterval e n 0 start finish = (s.beginInterval e n (Map.findD s.qty.points n {}) start finish).export_
      (.interval ((Map.findD s.qty.points n {}).record e n)) := by
  have hc : { Map.findD s.qty.points n {} with quality := (Map.findD s.qty.points n {}).quality ||| 0 } =
      Map.findD s.qty.points n {} := by simp
  unfold State.closeInterval
  dsimp only
  rw [hc]
  rfl

/-- The interval of a point closes at its end in step 3 of the sealed work (R110, R122). -/
theorem exec_intervalClose_due {s : State} {n : Nat} {e : PointEntry} (hstage : s.qty.stage = .met)
    (he : s.qtyPlan.point n = some e) (h0 : 0 < (Map.findD s.qty.points n {}).finish)
    (hend : (Map.findD s.qty.points n {}).finish * 1000000000 ≤ s.clk.ns) :
    exec (.intervalClose n) s = .next (s.closeInterval e n 0 (s.timeSec / (60 * e.intervalMin) * (60 * e.intervalMin))
      (s.timeSec / (60 * e.intervalMin) * (60 * e.intervalMin) + 60 * e.intervalMin)) := by
  simp only [exec, execIntervalClose, hstage, if_true, State.intervalDue, he, if_pos (And.intro hend h0)]

section
variable {s : State} {e : PointEntry} {n : Nat} (c : PointState) (start finish : Nat)

theorem State.onlyRegs_beginInterval :
    OnlyRegs [R.QTY_REV_CNT n, R.QTY_MP_STAT n] s (s.beginInterval e n c start finish) := by
  have hrev := (OnlyRegs.refl [R.QTY_REV_CNT n, R.QTY_MP_STAT n] s).setF (f := F.QTY_REV_CNT.COUNT n) 0 (.head _)
  unfold State.beginInterval
  dsimp only
  split
  · exact hrev.flag (f := F.QTY_MP_STAT.PF_GAP_SEEN n) true (.tail _ (.head _))
  · exact hrev

/-- The reversal count starts anew (R113). -/
theorem State.fld_beginInterval_revCount (hs : Inv s) (hn : n < 12) :
    (s.beginInterval e n c start finish).fld (F.QTY_REV_CNT.COUNT n) = 0 := by
  have hok : (F.QTY_REV_CNT.COUNT n).ok = true := FieldRef.ok_of_spans (findReg_revCnt hn) rfl
  have hrev : (s.regs.setF (F.QTY_REV_CNT.COUNT n) 0).fld (F.QTY_REV_CNT.COUNT n) = 0 :=
    (RegFile.fld_setF_same 0 hs hok).trans (Nat.zero_mod _)
  have hne : R.QTY_REV_CNT n ≠ R.QTY_MP_STAT n := by unfold R.QTY_REV_CNT R.QTY_MP_STAT; omega
  unfold State.beginInterval
  rw [State.fld_eq]
  dsimp only
  split
  · exact (RegFile.fld_setF_reg (f := F.QTY_MP_STAT.PF_GAP_SEEN n) _ _ hne).trans hrev
  · exact hrev

end

/-- Settles O25: the interval that begins, and its record as the next message exported. -/
theorem intervalsCloseAtTheirEnd : Obligations.IntervalsCloseAtTheirEnd := by
  rintro n e c s hs hn hstage he rfl h0 hend
  refine ⟨_, _, _, (exec_intervalClose_due hstage he h0 hend).trans (congrArg _ (s.closeInterval_unflagged e n _ _)), rfl, rfl,
    rfl, rfl, rfl, rfl, rfl, rfl, rfl, State.fld_beginInterval_revCount _ _ _ hs hn, State.onlyRegs_beginInterval _ _ _, ?_⟩
  exact (State.export_only _ _).exportSeq

/-! ### The pulse outputs (R119, R121, R216) -/

/-- ASSERTED and PENDING of an output. -/
def RegFile.showPulse (m : RegFile) (j : Nat) (on : Bool) (due : Nat) : RegFile :=
  (m.flag (F.QTY_PULSE_STAT.ASSERTED j) on).setF (F.QTY_PULSE_STAT.PENDING j) due

section
variable {m : RegFile} (j : Nat) (on : Bool) (due : Nat)

theorem RegFile.get_showPulse_other {a : Nat} (h : a ≠ R.QTY_PULSE_STAT j) : (m.showPulse j on due).get a = m.get a :=
  (RegFile.get_put_other _ h).trans (RegFile.get_put_other _ h)

theorem RegFile.showPulse_wf (h : m.wf = true) : (m.showPulse j on due).wf = true :=
  RegFile.setF_wf _ _ (RegFile.flag_wf _ _ h)

variable {j}

theorem RegFile.fld_showPulse_pending (h : m.wf = true) (hj : j < 16) :
    (m.showPulse j on due).fld (F.QTY_PULSE_STAT.PENDING j) = due % 2 ^ 16 :=
  RegFile.fld_setF_same _ (RegFile.flag_wf _ _ h) (ok_pulsePending hj)

theorem RegFile.fld_showPulse_asserted (h : m.wf = true) (hj : j < 16) :
    (m.showPulse j on due).fld (F.QTY_PULSE_STAT.ASSERTED j) = if on then 1 else 0 := by
  have hapart : (F.QTY_PULSE_STAT.ASSERTED j).apart (F.QTY_PULSE_STAT.PENDING j) = true := by
    simp [FieldRef.apart, F.QTY_PULSE_STAT.ASSERTED, F.QTY_PULSE_STAT.PENDING]
  exact (RegFile.fld_setF_other _ (RegFile.flag_wf _ _ h) (ok_pulsePending hj) (ok_pulseAsserted hj) hapart).trans
    (RegFile.fld_flag_same on h (ok_pulseAsserted hj))

end

/-- An output is written, with its copies in QTY_PULSE_STAT: a part of `execPulseEmit` and `execPulseWidthEnd`. -/
def State.showPulse (s : State) (j : Nat) (on : Bool) (c : PulseState) : State :=
  { s with regs := s.regs.showPulse j on c.due, qty := { s.qty with pulses := Map.set s.qty.pulses j c } }

/-- A pulse begins at an output and is counted: a part of `execPulseEmit`. -/
def State.emitPulse (s : State) (j : Nat) (c : PulseState) : State :=
  (s.showPulse j true c).setF (F.QTY_PULSE_CNT.COUNT j) ((s.fld (F.QTY_PULSE_CNT.COUNT j) + 1) % 4294967296)

/-- The width of the pulses of an output, 0 where no entry enables it: a part of `execPulseWidthEnd`. -/
def State.pulseWidth (s : State) (j : Nat) : Nat :=
  match s.qtyPlan.pulse j with
  | some e => e.widthMs
  | none => 0

/-- A pulse begins: a part of `execPulseEmit`. -/
def PulseState.asserted (c : PulseState) (e : PulseEntry) : PulseState :=
  { c with due := c.due - 1, phase := .asserted, left := e.widthMs, ready := false }

/-- A pulse ends, and with it what a changed entry clears: a part of `execPulseWidthEnd`. -/
def PulseState.ended (c : PulseState) (w : Nat) : PulseState :=
  { c with phase := .gap, left := w, r := if c.clear then 0 else c.r, due := if c.clear then 0 else c.due, clear := false }

theorem PulseState.ended_eq (c : PulseState) (w : Nat) :
    (if c.clear then { c with phase := .gap, left := w, r := 0, due := 0, clear := false }
      else { c with phase := .gap, left := w }) = c.ended w := by
  obtain ⟨r, due, phase, left, clear, ready⟩ := c
  cases clear <;> rfl

theorem pulseStat_ne_pulseCnt (j : Nat) : R.QTY_PULSE_STAT j ≠ R.QTY_PULSE_CNT j := by
  unfold R.QTY_PULSE_STAT R.QTY_PULSE_CNT
  omega

section
variable {s : State} {j : Nat}

/-- An idle output with a pulse that was due asserts it while the sealed firmware runs (R119, R216). -/
theorem exec_pulseEmit_due {e : PulseEntry} (he : s.qtyPlan.pulse j = some e)
    (hidle : (Map.findD s.qty.pulses j {}).phase = .idle) (hready : (Map.findD s.qty.pulses j {}).ready = true)
    (h0 : 0 < (Map.findD s.qty.pulses j {}).due) (hrun : s.fld F.LEG_STAT.RUN = 1) :
    exec (.pulseEmit j) s = .next ((s.emitPulse j ((Map.findD s.qty.pulses j {}).asserted e)).drive j true) := by
  simp only [exec, execPulseEmit, he, if_pos (And.intro hidle (And.intro hready (And.intro h0 hrun)))]
  rfl

section
variable (hleft : (Map.findD s.qty.pulses j {}).left = 0)
include hleft

/-- A pulse whose width has passed ends (R119, R121). -/
theorem exec_pulseWidthEnd_asserted (hphase : (Map.findD s.qty.pulses j {}).phase = .asserted) :
    exec (.pulseWidthEnd j) s = .next
      ((s.showPulse j false ((Map.findD s.qty.pulses j {}).ended (s.pulseWidth j))).drive j false) := by
  have hends : ¬((Map.findD s.qty.pulses j {}).left ≠ 0 ∨ (Map.findD s.qty.pulses j {}).phase = .idle) := by
    rw [hleft, hphase]
    decide
  rw [← PulseState.ended_eq]
  simp only [exec, execPulseWidthEnd, if_neg hends, if_pos hphase]
  rfl

/-- An output whose gap has passed is idle (R119). -/
theorem exec_pulseWidthEnd_gap (hphase : (Map.findD s.qty.pulses j {}).phase = .gap) :
    exec (.pulseWidthEnd j) s = .next { s with qty := { s.qty with
      pulses := Map.set s.qty.pulses j { Map.findD s.qty.pulses j {} with phase := .idle } } } := by
  have hends : ¬((Map.findD s.qty.pulses j {}).left ≠ 0 ∨ (Map.findD s.qty.pulses j {}).phase = .idle) := by
    rw [hleft, hphase]
    decide
  have hgap : ¬(Map.findD s.qty.pulses j {}).phase = .asserted := by
    rw [hphase]
    decide
  simp only [exec, execPulseWidthEnd, if_neg hends, if_neg hgap]

end

/-! What the registers of an output hold once its pulse begins -/

variable (c : PulseState)

theorem State.onlyRegs_showPulse (on : Bool) : OnlyRegs [R.QTY_PULSE_STAT j] s (s.showPulse j on c) :=
  fun _ ha => RegFile.get_showPulse_other j on c.due (List.ne_of_not_mem_cons ha)

theorem State.onlyRegs_emitPulse : OnlyRegs [R.QTY_PULSE_STAT j, R.QTY_PULSE_CNT j] s (s.emitPulse j c) :=
  ((s.onlyRegs_showPulse c true).mono (by simp)).setF (f := F.QTY_PULSE_CNT.COUNT j) _ (.tail _ (.head _))

theorem State.fld_emitPulse_stat {f : FieldRef} (hf : f.addr = R.QTY_PULSE_STAT j) :
    (s.emitPulse j c).fld f = (s.showPulse j true c).fld f :=
  RegFile.fld_setF_reg _ _ (hf ▸ pulseStat_ne_pulseCnt j)

/-- The count of an output wraps (R119). -/
theorem State.fld_emitPulse_count (hs : Inv s) (hj : j < 16) : (s.emitPulse j c).fld (F.QTY_PULSE_CNT.COUNT j) =
    (s.fld (F.QTY_PULSE_CNT.COUNT j) + 1) % 2 ^ 32 :=
  (RegFile.fld_setF_same _ (RegFile.showPulse_wf j true c.due hs) (ok_pulseCount hj)).trans (Nat.mod_mod _ _)

end

/-- An edge reaches the output where the outputs are driven (R291). -/
theorem State.drive_eq (s : State) (j : Nat) (on : Bool) :
    (s.qty.driven = true → s.drive j on = s.send (.pulse j on)) ∧ (s.qty.driven = false → s.drive j on = s) :=
  ⟨fun h => if_pos h, fun h => if_neg (ne_true_of_eq_false h)⟩

/-- Settles O27: a pulse from its emission to the end of its gap. -/
theorem pulsesAreEmittedOneByOne : Obligations.PulsesAreEmittedOneByOne := by
  refine ⟨?emit, ?widthEnd, ?gapEnd⟩
  case emit =>
    rintro j e c s hs hj he rfl hidle hready h0 hrun
    obtain ⟨hdriven, hopen⟩ := (s.emitPulse j ((Map.findD s.qty.pulses j {}).asserted e)).drive_eq j true
    exact ⟨_, _, exec_pulseEmit_due he hidle hready h0 hrun, rfl, rfl,
      (State.fld_emitPulse_stat _ rfl).trans (RegFile.fld_showPulse_pending _ _ hs hj),
      (State.fld_emitPulse_stat _ rfl).trans (RegFile.fld_showPulse_asserted _ _ hs hj),
      State.fld_emitPulse_count _ hs hj, State.onlyRegs_emitPulse _, hdriven, hopen⟩
  case widthEnd =>
    rintro j w c s hs hj rfl rfl hphase hleft
    exact ⟨_, _, exec_pulseWidthEnd_asserted hleft hphase, rfl, rfl, RegFile.fld_showPulse_asserted _ _ hs hj,
      RegFile.fld_showPulse_pending _ _ hs hj, State.onlyRegs_showPulse _ _⟩
  case gapEnd =>
    rintro j c s rfl hphase hleft
    exact exec_pulseWidthEnd_gap hleft hphase

end Sys2Proof.Machine

/-! Metering checkpoints, the legal tariff record, and the sealed work of a pace that CHECKPOINT_WRITE completes (R114,
R117, R122, R192, R195). -/

namespace Sys2Proof.Machine

/-! ### The registers of a checkpoint (R114, R117) -/

theorem ok_ckptSeq : F.QTY_CKPT_SEQ.SEQ.ok = true := by
  refine FieldRef.ok_of_spans (r := regsQTY[1]) (findReg_at (l := regsQTY.take 1) (b := 4) rfl rfl ?_ rfl) rfl
  simp [regsQTY, F.QTY_CKPT_SEQ.SEQ, R.QTY_CKPT_SEQ, RegSpec.hits_other]

theorem ok_ckptPace : F.QTY_CKPT_PACE.PACE.ok = true := by
  refine FieldRef.ok_of_spans (r := regsQTY[2]) (findReg_at (l := regsQTY.take 2) (b := 4) rfl rfl ?_ rfl) rfl
  simp [regsQTY, F.QTY_CKPT_PACE.PACE, R.QTY_CKPT_PACE, RegSpec.hits_other]

theorem ok_ckptFail : F.QTY_CKPT_FAIL.COUNT.ok = true := by
  refine FieldRef.ok_of_spans (r := regsQTY[3]) (findReg_at (l := regsQTY.take 3) (b := 4) rfl rfl ?_ rfl) rfl
  simp [regsQTY, F.QTY_CKPT_FAIL.COUNT, R.QTY_CKPT_FAIL, RegSpec.hits_other]

/-! ### Parts that read back wrong twice (R117) -/

/-- The parts of a checkpoint that read back wrong twice are counted and recorded: a part of `writeCheckpoint`. -/
def State.partsFailed (s : State) (seq : Nat) (bad parts : List Nat) : State :=
  parts.foldl (fun u k => u.partFailed seq (bad.contains k) k) s

section
variable (s : State) (seq : Nat) (b : Bool) (part : Nat)

theorem State.bump_flag_eq (f g : FieldRef) (n : Nat) :
    ({ s with regs := (s.regs.bump f n).flag g b } : State) = (s.bump f n).flag g b := rfl

theorem State.partFailed_false : s.partFailed seq false part = s := rfl

theorem State.partFailed_true : s.partFailed seq true part =
    ((s.bump F.QTY_CKPT_FAIL.COUNT 1).flag F.QTY_STAT.CKPT_FAIL_SEEN true).post Ev.CKPT_FAIL [b4 seq, b8 part] :=
  congrArg (State.post · Ev.CKPT_FAIL [b4 seq, b8 part]) (s.bump_flag_eq true _ _ _)

/-- What is counted, flagged and recorded leaves the quantities, the tariffs and device time alone. -/
theorem State.bump_flag_post_frame (f g : FieldRef) (n c : Nat) (p : Payload) :
    (((s.bump f n).flag g b).post c p).qty = s.qty ∧ (((s.bump f n).flag g b).post c p).tar = s.tar ∧
      (((s.bump f n).flag g b).post c p).clk = s.clk ∧ ((s.bump f n).flag g b).evt = s.evt := ⟨rfl, rfl, rfl, rfl⟩

theorem State.partFailed_frame : (s.partFailed seq b part).qty = s.qty ∧ (s.partFailed seq b part).tar = s.tar ∧
    (s.partFailed seq b part).clk = s.clk := by
  cases b with
  | false => exact ⟨rfl, rfl, rfl⟩
  | true =>
    obtain ⟨hqty, htar, hclk, -⟩ := s.bump_flag_post_frame true F.QTY_CKPT_FAIL.COUNT F.QTY_STAT.CKPT_FAIL_SEEN 1 Ev.CKPT_FAIL
      [b4 seq, b8 part]
    rw [State.partFailed_true]
    exact ⟨hqty, htar, hclk⟩

theorem State.partFailed_qty : (s.partFailed seq b part).qty = s.qty := (s.partFailed_frame seq b part).1

theorem State.partFailed_tar : (s.partFailed seq b part).tar = s.tar := (s.partFailed_frame seq b part).2.1

theorem State.partFailed_clk : (s.partFailed seq b part).clk = s.clk := (s.partFailed_frame seq b part).2.2

/-- A part that read back wrong twice is recorded. -/
theorem State.partFailed_evt : (s.partFailed seq b part).evt = { s.evt with
    queue := s.evt.queue ++ if b then [mkPost s Ev.CKPT_FAIL [b4 seq, b8 part]] else [] } := by
  cases b with
  | false => simp only [State.partFailed_false, Bool.false_eq_true, if_false, List.append_nil]
  | true =>
    obtain ⟨-, -, -, hevt⟩ := s.bump_flag_post_frame true F.QTY_CKPT_FAIL.COUNT F.QTY_STAT.CKPT_FAIL_SEEN 1 Ev.CKPT_FAIL
      [b4 seq, b8 part]
    rw [State.partFailed_true, State.post_evt, mkPost, mkPost, hevt, if_pos rfl]

/-- What is posted bears the stamp of the recorder alone. -/
theorem mkPost_congr {s t : State} (h : ∃ l, t.evt = { s.evt with queue := l }) (c : Nat) (p : Payload) :
    mkPost t c p = mkPost s c p := by
  obtain ⟨l, e⟩ := h
  rw [mkPost, e, mkPost]

variable {s}

theorem State.partFailed_wf (hs : s.regs.wf = true) : (s.partFailed seq b part).regs.wf = true := by
  cases b
  · exact hs
  · rw [State.partFailed_true, State.post_regs, State.flag_regs, State.bump_regs]
    exact RegFile.flag_wf _ _ (RegFile.bump_wf _ _ hs)

theorem OnlyRegs.partFailed {L : List Nat} {s0 : State} (h : OnlyRegs L s0 s) (hfail : R.QTY_CKPT_FAIL ∈ L)
    (hstat : R.QTY_STAT ∈ L) : OnlyRegs L s0 (s.partFailed seq b part) := by
  cases b
  · exact h
  · rw [State.partFailed_true]
    exact ((h.bump (f := F.QTY_CKPT_FAIL.COUNT) 1 hfail).flag (f := F.QTY_STAT.CKPT_FAIL_SEEN) true hstat).post _ _

theorem State.fld_partFailed_count (hs : s.regs.wf = true) : (s.partFailed seq b part).fld F.QTY_CKPT_FAIL.COUNT =
    min (s.fld F.QTY_CKPT_FAIL.COUNT + b.toNat) 0xFFFF := by
  have hlt : s.fld F.QTY_CKPT_FAIL.COUNT < 2 ^ 16 := fieldOf_lt _ 15 0
  cases b with
  | false => exact (min_eq_left (Nat.le_of_lt_succ hlt)).symm
  | true =>
    exact (RegFile.fld_setF_reg (f := F.QTY_STAT.CKPT_FAIL_SEEN) _ _ (by decide)).trans
      (RegFile.fld_bump_same 1 hs ok_ckptFail)

end

section
variable (seq : Nat) (bad parts : List Nat) (s : State)

theorem State.partsFailed_qty : (s.partsFailed seq bad parts).qty = s.qty :=
  List.foldlRecOn (motive := fun t : State => t.qty = s.qty) parts _ rfl fun t ht k _ => (t.partFailed_qty seq _ k).trans ht

theorem State.partsFailed_tar : (s.partsFailed seq bad parts).tar = s.tar :=
  List.foldlRecOn (motive := fun t : State => t.tar = s.tar) parts _ rfl fun t ht k _ => (t.partFailed_tar seq _ k).trans ht

theorem State.partsFailed_clk : (s.partsFailed seq bad parts).clk = s.clk :=
  List.foldlRecOn (motive := fun t : State => t.clk = s.clk) parts _ rfl fun t ht k _ => (t.partFailed_clk seq _ k).trans ht

theorem State.onlyRegs_partsFailed : OnlyRegs [R.QTY_CKPT_FAIL, R.QTY_STAT] s (s.partsFailed seq bad parts) :=
  List.foldlRecOn (motive := OnlyRegs _ s) parts _ (OnlyRegs.refl _ s) fun _ ht k _ =>
    OnlyRegs.partFailed seq _ k ht (.head _) (.tail _ (.head _))

/-- Each part that reads back wrong twice is recorded, in order. -/
theorem State.queue_partsFailed : (s.partsFailed seq bad parts).evt.queue =
    s.evt.queue ++ (parts.filter bad.contains).map fun (k : Nat) => mkPost s Ev.CKPT_FAIL [b4 seq, b8 k] := by
  induction parts generalizing s with
  | nil => exact (List.append_nil _).symm
  | cons k parts ih =>
    refine (ih (s.partFailed seq (bad.contains k) k)).trans ?_
    have hevt := s.partFailed_evt seq (bad.contains k) k
    simp only [hevt, mkPost_congr ⟨_, hevt⟩, List.filter_cons]
    cases bad.contains k <;> simp

variable {s}

/-- Each part that reads back wrong twice is counted, up to the largest value of the counter. -/
theorem State.fld_partsFailed_count (hs : s.regs.wf = true) : (s.partsFailed seq bad parts).fld F.QTY_CKPT_FAIL.COUNT =
    min (s.fld F.QTY_CKPT_FAIL.COUNT + (parts.filter bad.contains).length) 0xFFFF := by
  have hlt : s.fld F.QTY_CKPT_FAIL.COUNT < 2 ^ 16 := fieldOf_lt _ 15 0
  induction parts generalizing s with
  | nil => exact (min_eq_left (Nat.le_of_lt_succ hlt)).symm
  | cons k parts ih =>
    have hcount := State.fld_partFailed_count seq (bad.contains k) k hs
    refine (ih (State.partFailed_wf seq _ k hs) (fieldOf_lt _ 15 0)).trans ?_
    rw [hcount, List.filter_cons]
    cases bad.contains k
    · simp only [Bool.toNat_false, Bool.false_eq_true, if_false]
      omega
    · simp only [Bool.toNat_true, if_true, List.length_cons]
      omega

end

/-! ### A checkpoint (R114) -/

/-- Writes of registers, quantities and tariffs leave device time and the recorder alone. -/
theorem State.clk_evt_update (s : State) (regs : RegFile) (qty : QtyState) (tar : TarState) :
    ({ s with regs := regs, qty := qty, tar := tar } : State).clk = s.clk ∧
      ({ s with regs := regs, qty := qty, tar := tar } : State).evt = s.evt := ⟨rfl, rfl⟩

/-- A checkpoint as it is written, before its parts are read back: a part of `writeCheckpoint`. -/
def State.putCheckpoint (s : State) (final : Bool) (bad : List Nat) : State :=
  let second := if s.qty.same then s.qty.second else !s.qty.second
  let ck : Checkpoint :=
    ⟨s.qty.seq + 1, final, s.now, s.clk.ns, s.qty.points, s.qty.pulses, !bad.contains 0, !bad.contains 1⟩
  { s with
    tar := { s.tar with dirty := true }
    qty := { s.qty with
      seq := s.qty.seq + 1, second := second, same := bad.contains 0 || bad.contains 1, closed := false
      copies := if second then (s.qty.copies.1, some ck) else (some ck, s.qty.copies.2) }
    regs := (s.regs.setF F.QTY_CKPT_SEQ.SEQ (s.qty.seq + 1)).setF F.QTY_CKPT_PACE.PACE s.now }

theorem State.writeCheckpoint_eq (s : State) (final : Bool) (bad : List Nat) :
    s.writeCheckpoint final bad = (s.putCheckpoint final bad).partsFailed (s.qty.seq + 1) bad [0, 1] := rfl

section
variable (s : State) (final : Bool) (bad : List Nat)

theorem State.writeCheckpoint_qty : (s.writeCheckpoint final bad).qty = (s.putCheckpoint final bad).qty := by
  rw [State.writeCheckpoint_eq, State.partsFailed_qty]

theorem State.writeCheckpoint_tar : (s.writeCheckpoint final bad).tar = { s.tar with dirty := true } := by
  rw [State.writeCheckpoint_eq, State.partsFailed_tar]
  rfl

theorem State.writeCheckpoint_clk : (s.writeCheckpoint final bad).clk = s.clk := by
  rw [State.writeCheckpoint_eq, State.partsFailed_clk]
  exact (s.clk_evt_update _ _ _).1

/-- Each part that reads back wrong twice is recorded with the number of the checkpoint. -/
theorem State.queue_writeCheckpoint : (s.writeCheckpoint final bad).evt.queue =
    s.evt.queue ++ (([0, 1] : List Nat).filter bad.contains).map fun (k : Nat) =>
      mkPost s Ev.CKPT_FAIL [b4 (s.qty.seq + 1), b8 k] := by
  have hevt : (s.putCheckpoint final bad).evt = s.evt := (s.clk_evt_update _ _ _).2
  simp only [State.writeCheckpoint_eq, State.queue_partsFailed, hevt, mkPost_congr ⟨_, hevt⟩]

theorem State.putCheckpoint_regs : (s.putCheckpoint final bad).regs =
    (s.regs.setF F.QTY_CKPT_SEQ.SEQ (s.qty.seq + 1)).setF F.QTY_CKPT_PACE.PACE s.now := rfl

theorem State.onlyRegs_putCheckpoint : OnlyRegs [R.QTY_CKPT_SEQ, R.QTY_CKPT_PACE] s (s.putCheckpoint final bad) :=
  (((OnlyRegs.refl _ s).setF (f := F.QTY_CKPT_SEQ.SEQ) (s.qty.seq + 1) (by decide)).setF
    (f := F.QTY_CKPT_PACE.PACE) s.now (by decide)).of_regs (s.putCheckpoint_regs final bad)

theorem State.onlyRegs_writeCheckpoint :
    OnlyRegs [R.QTY_CKPT_SEQ, R.QTY_CKPT_PACE, R.QTY_CKPT_FAIL, R.QTY_STAT] s (s.writeCheckpoint final bad) := by
  intro a ha
  rw [State.writeCheckpoint_eq]
  exact ((State.onlyRegs_partsFailed _ bad _ (s.putCheckpoint final bad)).mono (by simp) a ha).trans
    ((s.onlyRegs_putCheckpoint final bad).mono (by simp) a ha)

variable {s} (hs : Inv s)
include hs

theorem State.putCheckpoint_wf : (s.putCheckpoint final bad).regs.wf = true := by
  rw [State.putCheckpoint_regs]
  exact RegFile.setF_wf _ _ (RegFile.setF_wf _ _ hs)

theorem State.fld_writeCheckpoint_seq :
    (s.writeCheckpoint final bad).fld F.QTY_CKPT_SEQ.SEQ = (s.qty.seq + 1) % 2 ^ 32 := by
  rw [State.writeCheckpoint_eq, (State.onlyRegs_partsFailed _ bad _ _).fld (f := F.QTY_CKPT_SEQ.SEQ) (by decide),
    State.fld_eq, State.putCheckpoint_regs, RegFile.fld_setF_reg (f := F.QTY_CKPT_PACE.PACE) _ _ (by decide),
    RegFile.fld_setF_same _ hs ok_ckptSeq]
  rfl

theorem State.fld_writeCheckpoint_pace : (s.writeCheckpoint final bad).fld F.QTY_CKPT_PACE.PACE = s.now % 2 ^ 32 := by
  rw [State.writeCheckpoint_eq, (State.onlyRegs_partsFailed _ bad _ _).fld (f := F.QTY_CKPT_PACE.PACE) (by decide),
    State.fld_eq, State.putCheckpoint_regs, RegFile.fld_setF_same _ (RegFile.setF_wf _ _ hs) ok_ckptPace]
  rfl

theorem State.fld_writeCheckpoint_fail : (s.writeCheckpoint final bad).fld F.QTY_CKPT_FAIL.COUNT =
    min (s.fld F.QTY_CKPT_FAIL.COUNT + (([0, 1] : List Nat).filter bad.contains).length) 0xFFFF := by
  rw [State.writeCheckpoint_eq, State.fld_partsFailed_count _ _ _ (State.putCheckpoint_wf final bad hs),
    (s.onlyRegs_putCheckpoint final bad).fld (by decide)]

end

/-! ### The legal tariff record and the ring (R195, R218) -/

theorem State.ringEntry_fresh (s : State) (e : LegalEntry) : (s.ringEntry e).leg.fresh = s.leg.fresh :=
  (State.export_only _ _).fresh

theorem State.ringEntry_tar (s : State) (e : LegalEntry) : (s.ringEntry e).tar = s.tar := (State.export_only _ _).tar

theorem State.writeRing_tar (s : State) : s.writeRing.tar = s.tar :=
  List.foldlRecOn (motive := fun t : State => t.tar = s.tar) s.leg.fresh _ rfl fun t ht e _ => (t.ringEntry_tar e).trans ht

/-- The entries that were made have been written. -/
theorem State.writeRing_fresh (s : State) : s.writeRing.leg.fresh = [] :=
  List.foldlRecOn (motive := fun t : State => t.leg.fresh = []) s.leg.fresh _ rfl fun t ht e _ => (t.ringEntry_fresh e).trans ht

/-- The record as it is written, before it is read back: a part of `writeTarRecord`. -/
def State.putTarRecord (s : State) (bad : List Nat) : State :=
  let second := if s.tar.same then s.tar.second else !s.tar.second
  let r : TarRecord := ⟨s.tar.seq + 1, s.tar.hwm, s.tar.points, s.tar.sets, !bad.contains 2⟩
  { s with tar := { s.tar with
    seq := s.tar.seq + 1, dirty := bad.contains 3 && !s.leg.fresh.isEmpty, second := second, same := bad.contains 2
    copies := if second then (s.tar.copies.1, some r) else (some r, s.tar.copies.2) } }

/-- The record with what was found when it was read back: a part of `writeTarRecord`. -/
def State.judgeTarRecord (s : State) (bad : List Nat) : State :=
  ((s.putTarRecord bad).partFailed s.qty.seq (bad.contains 2) 2).partFailed s.qty.seq
    (bad.contains 3 && !s.leg.fresh.isEmpty) 2

theorem State.writeTarRecord_eq (s : State) (bad : List Nat) :
    s.writeTarRecord bad = if bad.contains 3 then s.judgeTarRecord bad else (s.judgeTarRecord bad).writeRing := rfl

theorem State.judgeTarRecord_tar (s : State) (bad : List Nat) : (s.judgeTarRecord bad).tar = (s.putTarRecord bad).tar :=
  (State.partFailed_tar ..).trans (State.partFailed_tar ..)

theorem State.writeTarRecord_tar (s : State) (bad : List Nat) : (s.writeTarRecord bad).tar = (s.putTarRecord bad).tar := by
  rw [State.writeTarRecord_eq]
  split
  · exact s.judgeTarRecord_tar bad
  · exact (State.writeRing_tar _).trans (s.judgeTarRecord_tar bad)

/-! ### What the sealed work of a pace keeps (R122, R192) -/

/-- Steps of the sealed work other than its checkpoints, its record and its HWM lead from `s` to `t`. -/
structure SealedStep (s t : State) : Prop where
  clk : t.clk = s.clk
  stage : t.qty.stage = s.qty.stage
  ckptSeq : t.qty.seq = s.qty.seq
  tarSeq : t.tar.seq = s.tar.seq
  hwm : t.tar.hwm = s.tar.hwm
  restarted : t.tar.restarted = s.tar.restarted
  dirty : s.tar.dirty = true → t.tar.dirty = true

section
variable {s0 s t : State}

theorem SealedStep.refl (s : State) : SealedStep s s := ⟨rfl, rfl, rfl, rfl, rfl, rfl, id⟩

theorem SealedStep.trans (h : SealedStep s0 s) (g : SealedStep s t) : SealedStep s0 t where
  clk := g.clk.trans h.clk
  stage := g.stage.trans h.stage
  ckptSeq := g.ckptSeq.trans h.ckptSeq
  tarSeq := g.tarSeq.trans h.tarSeq
  hwm := g.hwm.trans h.hwm
  restarted := g.restarted.trans h.restarted
  dirty hd := g.dirty (h.dirty hd)

theorem SealedStep.timeMs (h : SealedStep s t) : t.timeMs = s.timeMs := by rw [State.timeMs, h.clk, State.timeMs]

theorem SealedStep.foldl {β : Type} {g : State → β → State} (l : List β) (h : SealedStep s0 s)
    (hg : ∀ u x, SealedStep s0 u → SealedStep s0 (g u x)) : SealedStep s0 (l.foldl g s) :=
  List.foldlRecOn l g h fun u hu x _ => hg u x hu

theorem SealedStep.ite {c : Prop} [Decidable c] (ha : SealedStep s0 s) (hb : SealedStep s0 t) :
    SealedStep s0 (if c then s else t) := by
  split
  · exact ha
  · exact hb

variable (h : SealedStep s0 s)
include h

/-- An update of parts of the state that no clause speaks of. -/
theorem SealedStep.rest {regs : RegFile} {leg : SealedState} {evt : EvtState} {tar : TarState} {qty : QtyState}
    (h1 : qty.stage = s.qty.stage) (h2 : qty.seq = s.qty.seq) (h3 : tar.seq = s.tar.seq) (h4 : tar.hwm = s.tar.hwm)
    (h5 : tar.restarted = s.tar.restarted) (h6 : s.tar.dirty = true → tar.dirty = true) :
    SealedStep s0 { s with regs := regs, leg := leg, evt := evt, tar := tar, qty := qty } :=
  h.trans ⟨rfl, h1, h2, h3, h4, h5, h6⟩

theorem SealedStep.post (c : Nat) (p : Payload) : SealedStep s0 (s.post c p) := h.rest rfl rfl rfl rfl rfl id

theorem SealedStep.postIf (b : Bool) (c : Nat) (p : Payload) : SealedStep s0 (s.postIf b c p) := (h.post c p).ite h

theorem SealedStep.export_ (e : Export) : SealedStep s0 (s.export_ e) := by
  have g := s.export_only e
  have hqty : (s.export_ e).qty = s.qty := g.qty
  have htar : (s.export_ e).tar = s.tar := g.tar
  exact h.trans ⟨g.clk, by rw [hqty], by rw [hqty], by rw [htar], by rw [htar], by rw [htar], by rw [htar]; exact id⟩

theorem SealedStep.legalLog (code mp data : Nat) : SealedStep s0 (s.legalLog code mp data) :=
  h.rest rfl rfl rfl rfl rfl fun _ => rfl

theorem SealedStep.setTar (n : Nat) (p : PointTar) : SealedStep s0 (s.setTar n p) := h.rest rfl rfl rfl rfl rfl id

theorem SealedStep.setCal (c : Nat) (k : Calendar) : SealedStep s0 (s.setCal c k) := h.rest rfl rfl rfl rfl rfl id

theorem SealedStep.dirtied {regs : RegFile} {tar : TarState} (h3 : tar.seq = s.tar.seq) (h4 : tar.hwm = s.tar.hwm)
    (h5 : tar.restarted = s.tar.restarted) (h6 : tar.dirty = true) : SealedStep s0 { s with regs := regs, tar := tar } :=
  h.rest rfl rfl h3 h4 h5 fun _ => h6

/-! Step 3 of R122: intervals -/

theorem SealedStep.closeInterval (e : PointEntry) (n : Nat) (flags : BitVec 16) (start finish : Nat) :
    SealedStep s0 (s.closeInterval e n flags start finish) := by
  unfold State.closeInterval
  dsimp only
  refine SealedStep.export_ ?_ _
  exact h.rest rfl rfl rfl rfl rfl id

theorem SealedStep.intervalDue (plan : QtyPlan) (n : Nat) : SealedStep s0 (State.intervalDue plan s n) := by
  unfold State.intervalDue
  split
  · exact h
  · exact (h.closeInterval _ _ _ _ _).ite h

theorem SealedStep.intervalsDue (plan : QtyPlan) : SealedStep s0 (s.intervalsDue plan) :=
  h.foldl _ fun _ n hu => hu.intervalDue plan n

/-! Step 1 of R192: registration -/

theorem SealedStep.registerPace (plan : QtyPlan) (n : Nat) : SealedStep s0 (State.registerPace plan s n) := by
  unfold State.registerPace
  split
  · exact h
  · exact (h.setTar n _).rest rfl rfl rfl rfl rfl id

theorem SealedStep.registerPaces (plan : QtyPlan) : SealedStep s0 (s.registerPaces plan) :=
  h.foldl _ fun _ n hu => hu.registerPace plan n

/-! Step 3 of R192: boundaries -/

theorem SealedStep.demandClose (n t : Nat) : SealedStep s0 (s.demandClose n t) := by
  unfold State.demandClose
  dsimp only
  split
  · exact h.setTar n _
  · exact (h.setTar n _).dirtied rfl rfl rfl rfl

theorem SealedStep.activateCal (c t : Nat) : SealedStep s0 (s.activateCal c t) := by
  unfold State.activateCal
  dsimp only
  split
  · exact h
  · next new _ =>
    have hposted := (h.setCal c (s.storedCal c).activate).post Ev.TAR_ACTIVATED [b8 c, b8 (calGen new)]
    refine SealedStep.ite (SealedStep.legalLog (SealedStep.foldl _ ?_ fun u n hu => hu.setTar n _) _ _ _) hposted
    exact hposted.dirtied rfl rfl rfl rfl

theorem SealedStep.billClose (n b : Nat) (catchUp : Bool) : SealedStep s0 (s.billClose n b catchUp) := by
  unfold State.billClose
  split
  · refine SealedStep.legalLog (SealedStep.export_ ?_ _) _ _ _
    exact (h.setTar n _).dirtied rfl rfl rfl rfl
  · exact h

theorem SealedStep.performBoundary (catchUp : Bool) (x : TarBoundary) : SealedStep s0 (s.performBoundary catchUp x) := by
  unfold State.performBoundary
  split
  · exact h.demandClose _ _
  · exact h.activateCal _ _
  · exact h.billClose _ _ _

omit h in
theorem SealedStep.performBoundaries (catchUp : Bool) (t n : Nat) :
    ∀ {s : State}, SealedStep s0 s → SealedStep s0 (State.performBoundaries catchUp t n s) := by
  induction n with
  | zero => exact id
  | succ n ih =>
    intro s h
    unfold State.performBoundaries
    split
    · exact h
    · exact ih (h.performBoundary catchUp _)

/-! The jump of a restart (R193) and the rates (R180, R181) -/

theorem SealedStep.flagSubs (flag : Nat) : SealedStep s0 (s.flagSubs flag) :=
  h.foldl _ fun _ n hu => (hu.setTar n _).ite hu

theorem SealedStep.tarJump : SealedStep s0 s.tarJump := SealedStep.performBoundaries _ _ _ h

theorem SealedStep.showTarStat : SealedStep s0 s.showTarStat := h.rest rfl rfl rfl rfl rfl id

theorem SealedStep.selectPoint (n : Nat) : SealedStep s0 (s.selectPoint n) := by
  unfold State.selectPoint
  split
  · exact h
  · exact (h.setTar n _).postIf _ _ _

theorem SealedStep.selectRates : SealedStep s0 s.selectRates :=
  SealedStep.showTarStat (h.foldl _ fun _ n hu => hu.selectPoint n)

/-! The ring (R218) -/

theorem SealedStep.partFailed (seq : Nat) (b : Bool) (part : Nat) : SealedStep s0 (s.partFailed seq b part) :=
  ((h.rest rfl rfl rfl rfl rfl id).post _ _).ite h

theorem SealedStep.writeRing : SealedStep s0 s.writeRing :=
  SealedStep.foldl _ (h.rest rfl rfl rfl rfl rfl id) fun _ _ hu => (hu.rest rfl rfl rfl rfl rfl id).export_ _

end

/-- The billing period of an enabled point holds the cut: a part of `tarRestarted` (R193). -/
def State.markCut (s : State) (n : Nat) : State :=
  match s.qtyPlan.point n with
  | some _ => s.setTar n { s.tarPoint n with seen := (s.tarPoint n).seen ||| tarFlag 4 }
  | none => s

/-- Every sub-period and billing period holds the cut: a part of `tarRestarted` (R193). -/
def State.markCuts (s : State) : State := (List.range 12).foldl State.markCut (s.flagSubs 0)

theorem SealedStep.markCuts (s : State) : SealedStep s s.markCuts := by
  refine ((SealedStep.refl s).flagSubs 0).foldl _ fun u n hu => ?_
  unfold State.markCut
  split
  · exact hu.setTar n _
  · exact hu

/-- After the steps of a restart none is left (R193). -/
theorem State.tarRestarted_step (s : State) : ∃ u, SealedStep s u ∧
    s.tarRestarted = { u with tar := { u.tar with restarted := false } } := by
  unfold State.tarRestarted
  extract_lets marked jumped
  have hmarked : SealedStep s marked := SealedStep.markCuts s
  exact ⟨jumped, hmarked.tarJump.ite hmarked, rfl⟩

end Sys2Proof.Machine

/-! CHECKPOINT_WRITE completes the sealed work of a pace (R114, R122, R192, R195). -/

namespace Sys2Proof.Machine

/-- A checkpoint takes the next sequence number, and makes a record due (R114, R195). -/
theorem State.writeCheckpoint_step (s : State) (final : Bool) (bad : List Nat) : SealedStep
    { s with qty := { s.qty with seq := s.qty.seq + 1 }, tar := { s.tar with dirty := true } } (s.writeCheckpoint final bad) := by
  have hqty := s.writeCheckpoint_qty final bad
  have htar := s.writeCheckpoint_tar final bad
  exact ⟨s.writeCheckpoint_clk final bad, by rw [hqty]; rfl, by rw [hqty]; rfl, by rw [htar], by rw [htar], by rw [htar],
    fun _ => by rw [htar]⟩

/-- A record takes the next sequence number (R195). -/
theorem State.writeTarRecord_step (s : State) (bad : List Nat) :
    SealedStep { s with tar := { s.tar with seq := s.tar.seq + 1, dirty := false } } (s.writeTarRecord bad) := by
  have hput : SealedStep { s with tar := { s.tar with seq := s.tar.seq + 1, dirty := false } } (s.putTarRecord bad) :=
    ⟨rfl, rfl, rfl, rfl, rfl, rfl, nofun⟩
  have hjudged := (hput.partFailed s.qty.seq (bad.contains 2) 2).partFailed s.qty.seq (bad.contains 3 && !s.leg.fresh.isEmpty) 2
  rw [State.writeTarRecord_eq]
  exact hjudged.ite hjudged.writeRing

/-- A checkpoint where one is due: a part of `toTar` and `finishTar`. -/
def State.checkpointIf (s : State) (due : Bool) (bad : List Nat) : State := if due then s.writeCheckpoint false bad else s

/-- The metering steps of a pace end with the checkpoint that is due, and a record follows it (R122). -/
theorem State.checkpointIf_step (s : State) (due : Bool) (bad : List Nat) : SealedStep
    { s with qty := { s.qty with seq := s.qty.seq + due.toNat }, tar := { s.tar with dirty := due || s.tar.dirty } }
    (s.checkpointIf due bad) := by
  cases due with
  | false => exact SealedStep.refl _
  | true => exact s.writeCheckpoint_step false bad

/-- The steps of a restart that are outstanding: a part of `finishTar` (R193). -/
def State.restartSteps (s : State) : State := if s.tar.restarted then s.tarRestarted else s

theorem State.restartSteps_step (s : State) :
    SealedStep { s with tar := { s.tar with restarted := false } } s.restartSteps := by
  unfold State.restartSteps
  split
  · obtain ⟨u, hu, e⟩ := s.tarRestarted_step
    rw [e]
    exact ⟨hu.clk, hu.stage, hu.ckptSeq, hu.tarSeq, hu.hwm, rfl, hu.dirty⟩
  · next h => exact ⟨rfl, rfl, rfl, rfl, rfl, Bool.eq_false_of_not_eq_true h, id⟩

/-- Boundaries, HWM and rates: a part of `finishTar` (R192). -/
def State.tariffSteps (s : State) : State :=
  let t := s.performBoundaries false s.timeSec s.boundaryBound
  ({ t with tar := { t.tar with hwm := max t.tar.hwm t.timeMs } } : State).selectRates

/-- HWM follows device time, and never falls (R192). -/
theorem State.tariffSteps_step (s : State) :
    SealedStep { s with tar := { s.tar with hwm := max s.tar.hwm s.timeMs } } s.tariffSteps := by
  have h := SealedStep.performBoundaries false s.timeSec s.boundaryBound (SealedStep.refl s)
  refine SealedStep.selectRates ⟨h.clk, h.stage, h.ckptSeq, h.tarSeq, ?_, h.restarted, h.dirty⟩
  exact congrArg₂ max h.hwm h.timeMs

/-- The record where one is due: a part of `finishTar` (R195). -/
def State.recordIfDue (s : State) (bad : List Nat) : State := if s.tar.dirty then s.writeTarRecord bad else s

theorem State.recordIfDue_step (s : State) (bad : List Nat) :
    SealedStep { s with tar := { s.tar with seq := s.tar.seq + s.tar.dirty.toNat, dirty := false } } (s.recordIfDue bad) := by
  unfold State.recordIfDue
  split
  · next h =>
    rw [h]
    exact s.writeTarRecord_step bad
  · next h =>
    rw [Bool.eq_false_of_not_eq_true h]
    exact ⟨rfl, rfl, rfl, rfl, rfl, rfl, nofun⟩

/-- What completes the sealed work from the boundaries on: a part of `finishTar` (R192). -/
def State.tariffsCompleted (s : State) (bad : List Nat) : State :=
  let t := s.restartSteps.tariffSteps
  (t.checkpointIf t.qty.closed bad).recordIfDue bad

/-- The work of a step of the sealed work is done: a part of `toTar` and `finishTar`. -/
def State.atStage (s : State) (x : LegalStage) : State := { s with qty := { s.qty with stage := x } }

theorem State.finishTar_of_tar {s : State} (h : s.qty.stage = .tar) (bad : List Nat) :
    s.finishTar bad = (s.tariffsCompleted bad).atStage .idle := by
  unfold State.finishTar
  rw [if_pos h]
  extract_lets s1 s2 tar3 s3 s4 s5
  have e3 : s3 = s.restartSteps.tariffSteps := rfl
  have e4 : s4 = s3.checkpointIf s3.qty.closed bad := rfl
  have e5 : s5 = s4.recordIfDue bad := rfl
  have e : s5 = s.tariffsCompleted bad := by rw [e5, e4, e3]; rfl
  exact congrArg (State.atStage · .idle) e

/-- What the steps from the boundaries on have done: the numbers have risen, and a record that was due is written. -/
structure TariffsDone (s t : State) : Prop where
  restarted : t.tar.restarted = false
  hwm : t.tar.hwm = max s.tar.hwm s.timeMs
  ckptSeq : s.qty.seq ≤ t.qty.seq
  record : s.tar.dirty = true → t.tar.seq = s.tar.seq + 1

theorem State.tariffsCompleted_done (s : State) (bad : List Nat) : TariffsDone s (s.tariffsCompleted bad) := by
  have ha := s.restartSteps_step
  have hb := s.restartSteps.tariffSteps_step
  have hc := s.restartSteps.tariffSteps.checkpointIf_step s.restartSteps.tariffSteps.qty.closed bad
  have hd := State.recordIfDue_step (s.restartSteps.tariffSteps.checkpointIf s.restartSteps.tariffSteps.qty.closed bad) bad
  unfold State.tariffsCompleted
  dsimp only
  generalize s.restartSteps.tariffSteps.checkpointIf s.restartSteps.tariffSteps.qty.closed bad = c at hc hd ⊢
  generalize s.restartSteps.tariffSteps = b at hb hc
  generalize s.restartSteps = a at ha hb
  generalize c.recordIfDue bad = d at hd ⊢
  constructor
  case restarted => rw [hd.restarted, hc.restarted, hb.restarted, ha.restarted]
  case hwm => rw [hd.hwm, hc.hwm, hb.hwm, ha.hwm, ha.timeMs]; rfl
  case ckptSeq =>
    rw [hd.ckptSeq, hc.ckptSeq, hb.ckptSeq, ha.ckptSeq]
    exact Nat.le_add_right _ _
  case record =>
    intro hdirty
    have hrecord : c.tar.dirty = true := hc.dirty (Bool.or_eq_true_iff.mpr (.inr (hb.dirty (ha.dirty hdirty))))
    rw [hd.tarSeq, hrecord, hc.tarSeq, hb.tarSeq, ha.tarSeq]
    rfl

/-- The metering steps of a pace, under the plan it ran on: a part of `toTar` (R122). -/
def State.meteringCompleted (s : State) (bad : List Nat) : State :=
  ((s.intervalsDue s.qtyPlan).checkpointIf (s.intervalsDue s.qtyPlan).checkpointDue bad).registerPaces s.qtyPlan

theorem State.toTar_of_met {s : State} (h : s.qty.stage = .met) (bad : List Nat) :
    s.toTar s.qtyPlan false bad = (s.meteringCompleted bad).atStage .tar := if_pos h

/-- What the metering steps have done: a checkpoint that is due takes the next number, and makes a record due (R114). -/
structure MeteringDone (s t : State) (due : Bool) : Prop where
  timeMs : t.timeMs = s.timeMs
  hwm : t.tar.hwm = s.tar.hwm
  tarSeq : t.tar.seq = s.tar.seq
  ckptSeq : t.qty.seq = s.qty.seq + due.toNat
  dirty : due = true → t.tar.dirty = true

theorem State.meteringCompleted_done (s : State) (bad : List Nat) :
    MeteringDone s (s.meteringCompleted bad) (s.intervalsDue s.qtyPlan).checkpointDue := by
  have hi := (SealedStep.refl s).intervalsDue s.qtyPlan
  unfold State.meteringCompleted
  generalize s.intervalsDue s.qtyPlan = u at hi ⊢
  have hc := u.checkpointIf_step u.checkpointDue bad
  generalize u.checkpointIf u.checkpointDue bad = c at hc ⊢
  have hr := (SealedStep.refl c).registerPaces s.qtyPlan
  constructor
  case timeMs => rw [hr.timeMs, hc.timeMs]; exact hi.timeMs
  case hwm => rw [hr.hwm, hc.hwm]; exact hi.hwm
  case tarSeq => rw [hr.tarSeq, hc.tarSeq]; exact hi.tarSeq
  case ckptSeq => rw [hr.ckptSeq, hc.ckptSeq, hi.ckptSeq]
  case dirty => exact fun hdue => hr.dirty (hc.dirty (Bool.or_eq_true_iff.mpr (.inl hdue)))

/-- Where the sealed work is done, CHECKPOINT_WRITE changes nothing (R122). -/
theorem exec_checkpointWrite_idle {s : State} (h : s.qty.stage = .idle) (bad : List Nat) :
    exec (.checkpointWrite bad) s = .next s := by
  have hmet : s.toTar s.qtyPlan false bad = s := if_neg (by rw [h]; decide)
  have htar : s.finishTar bad = s := if_neg (by rw [h]; decide)
  simp only [exec, execCheckpointWrite, State.finishLegal, hmet, htar]

theorem exec_checkpointWrite (bad : List Nat) (s : State) :
    exec (.checkpointWrite bad) s = .next ((s.toTar s.qtyPlan false bad).finishTar bad) := rfl

/-- CHECKPOINT_WRITE completes the sealed work of the pace (R114, R122, R195). -/
theorem exec_checkpointWrite_met {s : State} (h : s.qty.stage = .met) (bad : List Nat) :
    ∃ v t, exec (.checkpointWrite bad) s = .next (State.atStage t .idle) ∧
      MeteringDone s v (s.intervalsDue s.qtyPlan).checkpointDue ∧ TariffsDone (v.atStage .tar) t :=
  ⟨_, _, by rw [exec_checkpointWrite, State.toTar_of_met h, State.finishTar_of_tar rfl], s.meteringCompleted_done bad,
    State.tariffsCompleted_done _ bad⟩

/-- A record whose ring entries read back is the last that is due (R195). -/
theorem State.writeTarRecord_ring_written (s : State) {bad : List Nat} (h3 : 3 ∉ bad) :
    (s.writeTarRecord bad).tar.dirty = false ∧ (s.writeTarRecord bad).leg.fresh = [] := by
  have hring : bad.contains 3 = false := by simpa using h3
  refine ⟨?_, ?_⟩
  · rw [State.writeTarRecord_tar]
    exact (congrArg (· && _) hring).trans (Bool.false_and _)
  · rw [State.writeTarRecord_eq, hring]
    exact State.writeRing_fresh _

/-- Settles O26: a checkpoint and a record as they are written, and the sealed work that they are part of. -/
theorem checkpointsAlternateBetweenCopies : Obligations.CheckpointsAlternateBetweenCopies := by
  refine ⟨?checkpoint, fun bad s h => exec_checkpointWrite_idle h bad, ?met, ?record⟩
  case checkpoint =>
    rintro bad ck second s hs rfl rfl
    exact ⟨_, rfl, s.writeCheckpoint_qty false bad, s.writeCheckpoint_tar false bad, State.fld_writeCheckpoint_seq false bad hs,
      State.fld_writeCheckpoint_pace false bad hs, State.fld_writeCheckpoint_fail false bad hs,
      s.queue_writeCheckpoint false bad, s.onlyRegs_writeCheckpoint false bad⟩
  case met =>
    intro bad s h
    obtain ⟨v, t, e, hm, ht⟩ := exec_checkpointWrite_met h bad
    refine ⟨_, _, e, rfl, rfl, fun hdue => ?_, fun hdue => ?_, ht.restarted, ?_, ?_, ?_⟩
    · have hseq := hm.ckptSeq
      rw [hdue] at hseq
      exact hseq.symm.trans_le ht.ckptSeq
    · exact (ht.record (hm.dirty hdue)).trans (congrArg (· + 1) hm.tarSeq)
    · exact hm.hwm.symm.trans_le ((le_max_left _ _).trans_eq ht.hwm.symm)
    · exact hm.timeMs.symm.trans_le ((le_max_right _ _).trans_eq ht.hwm.symm)
    · exact (Nat.le_add_right _ _).trans (hm.ckptSeq.symm.trans_le ht.ckptSeq)
  case record =>
    rintro bad r second s h3 rfl rfl
    obtain ⟨hdirty, hfresh⟩ := s.writeTarRecord_ring_written h3
    refine ⟨?_, hfresh⟩
    rw [State.writeTarRecord_tar] at hdirty ⊢
    rw [← hdirty]
    rfl

end Sys2Proof.Machine

/-! What an applied reading leaves of its record, whatever TARIFF, prepayment and BALANCE do with the entries it changes (R128,
R137, R161, R184, R204). -/

namespace Sys2Proof.Machine

/-- APPLIED_ISN and METER_STATUS of a record (R124). -/
def MeterRec.applied (r : MeterRec) : Nat × Word := (r.appliedIsn, r.meterStatus)

@[simp] theorem MeterRec.applied_withQuality (r : MeterRec) : r.withQuality.applied = r.applied := by
  unfold MeterRec.withQuality
  split <;> rfl

@[simp] theorem State.meter_setMeter_same (s : State) (i : Nat) (r : MeterRec) : (s.setMeter i r).meter i = r.withQuality :=
  Map.findD_set_same ..

@[simp] theorem State.meter_setMeter_other (s : State) {i j : Nat} (r : MeterRec) (h : j ≠ i) :
    (s.setMeter i r).meter j = s.meter j := Map.findD_set_other _ _ h

@[simp] theorem State.record_ing (s : State) (r : LedgerRecord) : (s.record r).ing = s.ing := by
  obtain ⟨p, hp⟩ := s.record_eq r
  rw [hp]

@[simp] theorem State.draw_ing (s : State) : s.draw.ing = s.ing := s.record_ing _

/-- Windows and maxima are all that demand changes in a record (R186, R187). -/
theorem MeterRec.applied_meterWindow (k : Calendar) (set : CalSet) (r : MeterRec) (w : Nat) :
    (meterWindow k set r w).applied = r.applied := by
  unfold meterWindow
  dsimp only
  split <;> rfl

theorem MeterRec.applied_meterWindows (k : Calendar) (set : CalSet) (r : MeterRec) (a b : Nat) :
    (meterWindows k set r a b).applied = r.applied := by
  unfold meterWindows
  extract_lets ls from_
  refine List.foldlRecOn (motive := fun x : MeterRec => x.applied = r.applied) _ _ rfl fun x hx w _ => ?_
  split
  · exact (MeterRec.applied_meterWindow ..).trans hx
  · exact hx

/-- The records of `t` hold the APPLIED_ISN and METER_STATUS that they held in `s`. -/
structure AppliedKept (s t : State) : Prop where
  applied : ∀ j, (t.meter j).applied = (s.meter j).applied

theorem AppliedKept.refl (s : State) : AppliedKept s s := ⟨fun _ => rfl⟩

section
variable {s0 s : State} (h : AppliedKept s0 s)
include h

theorem AppliedKept.rest {t : State} (ht : t.ing.meters = s.ing.meters) : AppliedKept s0 t :=
  ⟨fun j => (congrArg (fun l => (Map.findD l j ({} : MeterRec)).applied) ht).trans (h.applied j)⟩

theorem AppliedKept.ite {c : Prop} [Decidable c] {t : State} (ht : AppliedKept s0 t) : AppliedKept s0 (if c then s else t) := by
  split
  · exact h
  · exact ht

theorem AppliedKept.foldl {α : Type} (l : List α) {g : State → α → State}
    (hg : ∀ u x, AppliedKept s0 u → AppliedKept s0 (g u x)) : AppliedKept s0 (l.foldl g s) :=
  List.foldlRecOn (motive := AppliedKept s0) l g h fun u hu x _ => hg u x hu

theorem AppliedKept.setMeter {i : Nat} {r : MeterRec} (hr : r.applied = (s.meter i).applied) :
    AppliedKept s0 (s.setMeter i r) := by
  refine ⟨fun j => ?_⟩
  by_cases hj : j = i
  · subst hj
    rw [State.meter_setMeter_same, MeterRec.applied_withQuality, hr, h.applied j]
  · rw [State.meter_setMeter_other _ _ hj, h.applied j]

theorem AppliedKept.setF (f : FieldRef) (v : Nat) : AppliedKept s0 (s.setF f v) := h.rest rfl

theorem AppliedKept.bump (f : FieldRef) (n : Nat) : AppliedKept s0 (s.bump f n) := h.rest rfl

theorem AppliedKept.post (c : Nat) (p : Payload) : AppliedKept s0 (s.post c p) := h.rest rfl

/-! Billing closes and registration (R184, R190) -/

theorem AppliedKept.meterClose (i b : Nat) (missing : Bool) (isn : Nat) : AppliedKept s0 (s.meterClose i b missing isn) := by
  unfold State.meterClose
  extract_lets r m cal commanded no flags snap m1 ring s1
  have h1 : AppliedKept s0 (s.setMeter i { r with tar := m1 }) := h.setMeter rfl
  exact (h1.bump F.TAR_CLOSE_CNT.COUNT 1).rest rfl

theorem AppliedKept.closesBefore (i start isn n : Nat) : AppliedKept s0 (State.closesBefore i start isn n s) := by
  induction n generalizing s with
  | zero => exact h
  | succ n ih =>
    unfold State.closesBefore
    split
    · exact h
    · exact AppliedKept.ite (ih (h.meterClose ..)) h

theorem AppliedKept.registerEntry (i isn : Nat) (lost anew : Bool) (reactive : Nat × Nat) (c : Change) :
    AppliedKept s0 (s.registerEntry i isn lost anew reactive c).1 := by
  unfold State.registerEntry
  extract_lets s1 r conf unit old di de m k set new endMin drawn
  clear_value set
  have h1 : AppliedKept s0 s1 := (h.closesBefore ..).ite h
  have hdrawn : AppliedKept s0 drawn := (h1.rest (congrArg IngestState.meters s1.draw_ing)).ite h1
  have hmeter : drawn.meter i = r := by
    unfold drawn
    split
    · exact congrArg (fun g : IngestState => Map.findD g.meters i {}) s1.draw_ing
    · rfl
  split
  extract_lets reg m1 new1 r1 r3 m3 r2 s2 regs1 regs2
  have hr3 : r3.applied = r.applied := by
    unfold r3
    split
    · exact MeterRec.applied_meterWindows ..
    · rfl
  have hr2 : r2.applied = (drawn.meter i).applied := by
    rw [hmeter]
    unfold r2
    split
    · exact hr3
    · rfl
  exact (hdrawn.setMeter hr2).rest rfl

/-! Prepayment (R203, R204) -/

theorem AppliedKept.evalCredit (i : Nat) : AppliedKept s0 (s.evalCredit i).1 := by
  unfold State.evalCredit
  dsimp only
  split
  · exact h
  · refine AppliedKept.post (h.setMeter ?_) _ _
    rfl

theorem AppliedKept.tellMeter (i : Nat) (body : List Byte) : AppliedKept s0 (s.tellMeter i body) := by
  unfold State.tellMeter
  split <;> exact h.rest rfl

theorem AppliedKept.tellCredit (i cause : Nat) : AppliedKept s0 (s.tellCredit i cause) := (h.tellMeter _ _).ite h

theorem AppliedKept.creditChanged (i : Nat) : AppliedKept s0 (s.creditChanged i) :=
  ((h.evalCredit i).tellCredit _ _).ite (h.evalCredit i)

theorem AppliedKept.debitMeter (i : Nat) (rate : Nat × Nat) (e : Int) : AppliedKept s0 (s.debitMeter i rate e) := by
  unfold State.debitMeter
  dsimp only
  split
  · refine AppliedKept.creditChanged (h.setMeter ?_) i
    rfl
  · exact h

/-! Balances (R161) -/

theorem AppliedKept.showJobs : AppliedKept s0 s.showJobs := h.setF _ _

theorem AppliedKept.queueJob (n m : Nat) (work : BalWork) : AppliedKept s0 (s.queueJob n m work) := by
  unfold State.queueJob
  dsimp only
  split
  · exact h
  · exact AppliedKept.showJobs (h.rest rfl)

theorem AppliedKept.reviseUp (t : List TopoNode) (f n m : Nat) (changed : Bool) :
    AppliedKept s0 (State.reviseUp t f n m changed s).1 := by
  induction f generalizing s n m changed with
  | zero => exact h
  | succ f ih =>
    unfold State.reviseUp
    split
    · exact h
    · extract_lets a near has s1
      have h1 : AppliedKept s0 s1 := (h.queueJob ..).ite h
      split
      · exact h1
      · exact ih h1 _ _ _

theorem AppliedKept.balChanged (n m : Nat) (isRef : Bool) : AppliedKept s0 (s.balChanged n m isRef) := by
  unfold State.balChanged
  extract_lets late
  have hlate : ∀ t, AppliedKept s0 t → AppliedKept s0 (late t) := fun t ht => (ht.bump _ _).post _ _
  split
  · exact hlate s h
  · next t ht =>
    split
    · exact h
    · have hrevised := h.reviseUp t 33 n m isRef
      split
      · next s1 h1 => rwa [h1] at hrevised
      · next s1 h1 =>
        rw [h1] at hrevised
        exact hlate s1 hrevised

theorem AppliedKept.meterChanged (i m : Nat) : AppliedKept s0 (s.meterChanged i m) := by
  unfold State.meterChanged
  split
  · exact h.balChanged ..
  · exact h.foldl _ fun u n hu => hu.balChanged ..

/-- What TARIFF, prepayment and BALANCE do with a changed entry. -/
theorem AppliedKept.handOver (x : Reading) (reactive : Nat × Nat) (c : Change) : AppliedKept s0 (s.handOver x reactive c) := by
  unfold State.handOver
  dsimp only
  exact ((h.registerEntry ..).debitMeter ..).meterChanged ..

end

/-- The record of a reading holds its ISN and its METER_STATUS once it is applied, whatever the change hands over. -/
theorem State.applyReading_applied (s : State) (x : Reading) :
    ∃ n, ((s.applyReading x).meter x.index).applied = (max n x.isn, x.status) := by
  unfold State.applyReading
  extract_lets r
  split
  next r1 changes hr1 =>
  extract_lets kept r2 s1
  have hposts : AppliedKept (s.setMeter x.index r2) s1 := (AppliedKept.refl _).foldl _ fun u _ hu => hu.post _ _
  have hchanges := hposts.foldl (changes.foldr insertChange []) fun u c hu => hu.handOver x (reactiveDeltas r x) c
  refine ⟨r1.appliedIsn, ?_⟩
  rw [hchanges.applied, State.meter_setMeter_same, MeterRec.applied_withQuality]
  rfl

end Sys2Proof.Machine

/-! A permitted write of one RW field, and of `ING_KEYCACHE.SLOTS` (R8, R9, R133). -/

namespace Sys2Proof.Machine

/-! ### Writes of one RW field (R8, R9) -/

/-- The bits of a mask are stored in a register: a part of `writeFields`. -/
def State.storeBits (s : State) (addr : Nat) (value mask : Word) : State :=
  { s with regs := s.regs.put addr (mergeWord (s.regs.get addr) value mask) }

theorem firstCause_ok (fields : List FieldSpec) (lo : Nat) : firstCause fields [(lo, Cause.OK)] = Cause.OK := by
  have hnone : ((fields.filterMap fun f => ([(lo, Cause.OK)].find? fun e => e.1 == f.lo).map fun e => e.2).find?
      fun c => c != 0) = none := by
    refine List.find?_eq_none.mpr fun c hc => ?_
    obtain ⟨f, -, hf⟩ := List.mem_filterMap.mp hc
    obtain ⟨e, he, rfl⟩ := Option.map_eq_some_iff.mp hf
    rw [List.mem_singleton.mp (List.mem_of_find?_eq_some he)]
    exact Bool.false_ne_true
  rw [firstCause, hnone, Option.getD_none]

/-- A write that selects one RW field and nothing else stores its bits, with what the register brings with it. -/
theorem State.writeFields_of_rw {s : State} {who : Requester} {addr : Nat} {value mask : Word} {r : RegSpec} {f : FieldSpec}
    (hj : s.judged who addr value mask r = [(f, Cause.OK)]) (hf : f.acc = .RW) (hm : f.mask &&& mask ≠ 0) :
    s.writeFields who addr value mask r =
      ((s.storeBits addr value (f.mask &&& mask)).afterWrite addr (s.regs.get addr), Cause.OK) := by
  have hrw : takenBits [(f, Cause.OK)] mask (fun a => a == .RW) = f.mask &&& mask := by
    simp [takenBits, hf, Cause.OK]
  have hbits : ∀ p : Access → Bool, p .RW = false → takenBits [(f, Cause.OK)] mask p = 0 := fun p hp => by
    simp [takenBits, hf, hp]
  have hnew : ∀ w : Word, w &&& ~~~(value &&& (0 : Word)) = w := fun w => by
    have hzero : value &&& (0 : Word) = 0#32 := BitVec.and_zero
    rw [hzero, BitVec.not_zero, BitVec.and_allOnes]
  have hfails : ([(f, Cause.OK)].any fun e => e.2 != 0) = false := rfl
  have hwo : ([(f, Cause.OK)].filter fun e => e.1.acc == .WO && e.2 == 0) = [] := by simp [hf]
  have hrest : ([(f, Cause.OK)].filter fun e => !(e.1.acc == .WO && e.2 == 0)) = [(f, Cause.OK)] := by simp [hf]
  have hrun : ∀ t : State, t.runTriggers who addr (value &&& mask) (triggerOrder addr []) = (t, []) := fun t => by
    simp [State.runTriggers, triggerOrder]
  simp only [State.writeFields_eq, hj, hfails, hrw, hbits (fun a => a == .W1C) rfl, hbits (fun a => a == .RWS) rfl, hnew, hwo,
    hrest, List.map_nil, hrun, if_neg hm, Bool.false_and, Bool.false_eq_true, if_false, if_true, List.nil_append,
    List.map_singleton, firstCause_ok, State.storeBits]

/-- A permitted write is judged on the state that has entered it in the ledger, and its requester is told the cause. -/
theorem State.writeFor_entered {s u : State} {who : Requester} {addr c : Nat} {r : RegSpec} {value mask : Word}
    (hr : findReg addr = some r) (hm : MayWrite s who addr)
    (hu : (entered s who addr value mask).writeFields who addr value mask r = (u, c)) :
    s.writeFor who addr value mask = u.send (.regCause who addr c) := by
  obtain ⟨p, hp⟩ := entered_eq s who addr value mask
  have hok : (entered s who addr value mask).writeRefused who addr = Cause.OK := by
    rw [hp]
    exact hm.1
  simp only [State.writeFor, State.portWrite_of_mayWrite hm, State.writeReg, hr, hok, if_true, hu]

/-! ### ING_KEYCACHE (R133) -/

/-- The field SLOTS of ING_KEYCACHE. -/
def slotsField : FieldSpec := ⟨11, 0, .RW, 2048, .iv [(256, 3072)]⟩

/-- The bits of SLOTS. -/
def slotsMask : Word := 0xFFF

/-- ING_KEYCACHE holds SLOTS alone. -/
def keycacheReg : RegSpec := ⟨R.ING_KEYCACHE, [], false, [slotsField]⟩

theorem findReg_keycache : findReg R.ING_KEYCACHE = some keycacheReg := by decide +kernel

/-- A number of slots, as KEYCACHE_RESIZE writes it. -/
theorem fieldOf_slots {slots : Nat} (h : slots < 4096) : fieldOf (BitVec.ofNat 32 slots) 11 0 = slots := by
  have h32 : slots % 2 ^ 32 = slots := Nat.mod_eq_of_lt (by omega)
  simp only [fieldOf, BitVec.toNat_ofNat, h32]
  omega

theorem fieldOf_mergeWord_slots {slots : Nat} (h : slots < 4096) (old : Word) :
    fieldOf (mergeWord old (BitVec.ofNat 32 slots) slotsMask) 11 0 = slots :=
  (fieldOf_mergeWord (by decide) (by decide) old _).trans (fieldOf_slots h)

/-- SLOTS takes 256 to 3,072. -/
theorem State.judged_slots {s : State} (hl : s.lockMask R.ING_KEYCACHE = 0) (who : Requester) {slots : Nat} (h0 : 256 ≤ slots)
    (h1 : slots ≤ 3072) :
    s.judged who R.ING_KEYCACHE (BitVec.ofNat 32 slots) slotsMask keycacheReg = [(slotsField, Cause.OK)] := by
  have hsel : (keycacheReg.fields.filter fun f =>
      (slotsMask &&& f.mask) != 0 && f.acc != .RO && f.acc != .ROS && f.acc != .RC) = [slotsField] := rfl
  have hmask : slotsMask &&& keycacheReg.storable = slotsMask := by decide
  have hfield (w : Word) : fieldOf (mergeWord w (BitVec.ofNat 32 slots) slotsMask) 11 0 = slots :=
    fieldOf_mergeWord_slots (by omega) w
  have hrange : Range.holds (.iv [(256, 3072)]) slots = true := by
    simp only [Range.holds, List.any_cons, List.any_nil, Bool.or_false, Bool.and_eq_true, decide_eq_true_eq]
    omega
  have hown : ∀ lo w, s.ownCause R.ING_KEYCACHE lo w = Cause.OK := fun _ _ => rfl
  rw [State.judged, hsel, List.map_singleton]
  simp [State.fieldCause, hmask, hl, hfield, hown, hrange, slotsField]

theorem State.afterWrite_keycache (s : State) (old : Word) : s.afterWrite R.ING_KEYCACHE old = s.resizeKeys := if_pos rfl

/-- SLOTS is stored, before the cache follows it: a part of `execKeycacheResize`. -/
def State.storeSlots (s : State) (slots : Nat) : State := s.storeBits R.ING_KEYCACHE (BitVec.ofNat 32 slots) slotsMask

theorem State.storeSlots_eq (s : State) (slots : Nat) : s.storeSlots slots = { s with regs := (s.storeSlots slots).regs } := by
  rw [State.storeSlots, State.storeBits]

theorem State.onlyRegs_storeBits (s : State) (addr : Nat) (value mask : Word) :
    OnlyRegs [addr] s (s.storeBits addr value mask) :=
  fun _ ha => RegFile.get_put_other _ (List.ne_of_not_mem_cons ha)

theorem State.fld_storeSlots {s : State} (hs : Inv s) {slots : Nat} (h : slots < 4096) :
    (s.storeSlots slots).fld F.ING_KEYCACHE.SLOTS = slots := by
  have hget : (s.storeSlots slots).regs.get R.ING_KEYCACHE =
      mergeWord (s.regs.get R.ING_KEYCACHE) (BitVec.ofNat 32 slots) slotsMask &&& keycacheReg.fieldMask :=
    RegFile.get_put_same _ hs findReg_keycache
  have hfield : slotsField ∈ keycacheReg.fields := .head _
  calc (s.storeSlots slots).fld F.ING_KEYCACHE.SLOTS
    _ = fieldOf ((s.storeSlots slots).regs.get R.ING_KEYCACHE) 11 0 := rfl
    _ = fieldOf (mergeWord (s.regs.get R.ING_KEYCACHE) (BitVec.ofNat 32 slots) slotsMask) 11 0 := by
      rw [hget]
      exact fieldOf_cut hfield _ le_rfl
    _ = slots := fieldOf_mergeWord_slots h _

theorem exec_keycacheResize_permitted {s : State} {who : Requester} {slots : Nat} (hm : MayWrite s who R.ING_KEYCACHE)
    (h0 : 256 ≤ slots) (h1 : slots ≤ 3072) :
    exec (.keycacheResize who slots) s =
      .next (((entered s who R.ING_KEYCACHE (BitVec.ofNat 32 slots) slotsMask).storeSlots slots).resizeKeys.send
        (.regCause who R.ING_KEYCACHE Cause.OK)) := by
  have hmod : slots % 4096 = slots := Nat.mod_eq_of_lt (by omega)
  obtain ⟨p, hp⟩ := entered_eq s who R.ING_KEYCACHE (BitVec.ofNat 32 slots) slotsMask
  have hl : (entered s who R.ING_KEYCACHE (BitVec.ofNat 32 slots) slotsMask).lockMask R.ING_KEYCACHE = 0 := by
    rw [hp]
    exact hm.2.1
  have hbits : slotsField.mask &&& slotsMask = slotsMask := by decide
  have hw := State.writeFields_of_rw (State.judged_slots hl who h0 h1) rfl (by decide)
  rw [hbits, State.afterWrite_keycache] at hw
  have hfor := State.writeFor_entered findReg_keycache hm hw
  calc exec (.keycacheResize who slots) s
    _ = .next (s.writeFor who R.ING_KEYCACHE (BitVec.ofNat 32 (slots % 4096)) slotsMask) := rfl
    _ = _ := by rw [hmod, hfor, State.storeSlots]

theorem State.resizeKeys_keys (s : State) : s.resizeKeys.ing.keys = s.ing.keys.take (s.fld F.ING_KEYCACHE.SLOTS) := by
  simp only [State.resizeKeys, State.showSlots, State.showSlotsWith, State.setF_ing]

/-- The update is unfolded by its equation: by `rfl` the kernel would compare whole states, and with them the register files. -/
theorem State.resizeKeys_out (s : State) : s.resizeKeys.out = s.out := by
  rw [State.resizeKeys, State.showSlots, State.showSlotsWith]
  exact (State.setF_out _ _ _).trans (State.setF_out _ _ _)

end Sys2Proof.Machine

/-! Frames, readings, chunks and polls, command by command (R126 to R130, R132, R133, R137, R147, R286, R287, R391, R393). -/

namespace Sys2Proof.Machine

/-! ### Frames (R132) -/

theorem exec_ingestFrame_ready {s : State} {f : IngestFrame} {l : List IngestFrame} (hf : s.ing.frames = f :: l)
    (hr : s.fld F.ING_STAT.READY ≠ 0) :
    exec .ingestFrame s = .next (({ s with ing := { s.ing with frames := l } } : State).ingest f) := by
  simp only [exec, execIngestFrame, hf, if_neg hr]

/-- A frame of no ACTIVE record ends at step 2. -/
theorem State.ingest_unknownMeter {s : State} {f : IngestFrame} (hc : s.ing.waiting.length + f.count ≤ 2097152)
    (hp : f.parses 0x21 = true) (hm : s.frameMeter f = none) : s.ingest f = s.rejectReading Cause.METER_UNKNOWN none := by
  have hopen : s.openFrame 0x21 f = (s.rejectReading Cause.METER_UNKNOWN none, none) := by
    simp only [State.openFrame, hp, hm, Bool.not_true, Bool.false_eq_true, if_false]
  simp only [State.ingest, if_neg (not_lt.mpr hc), hopen]

/-- The registers of a rejection for which no meter is known (R132): a part of `rejectReading`. -/
def RegFile.rejectUnknown (m : RegFile) (cause : Nat) : RegFile :=
  (((m.bump (F.ING_REJ_CNT.COUNT (cause - 0x400)) 1).setF F.ING_LAST_REJ.CAUSE cause).flag F.ING_LAST_REJ_IDX.VALID false).setF
    F.ING_LAST_REJ_IDX.INDEX 0

theorem State.rejectReading_unknown (s : State) {cause : Nat} (hc : 0x0400 ≤ cause ∧ cause ≤ 0x0406) :
    s.rejectReading cause none = { s with regs := s.regs.rejectUnknown cause } := by
  simp only [State.rejectReading, if_pos hc, RegFile.rejectUnknown, Option.isSome_none, Option.getD_none]

section
variable {m : RegFile} (hm : m.wf = true)
include hm

theorem RegFile.fld_rejectUnknown_count : (m.rejectUnknown Cause.METER_UNKNOWN).fld (F.ING_REJ_CNT.COUNT 0) =
    min (m.fld (F.ING_REJ_CNT.COUNT 0) + 1) (2 ^ 32 - 1) := by
  unfold RegFile.rejectUnknown RegFile.flag
  rw [RegFile.fld_setF_reg _ _ (by decide), RegFile.fld_setF_reg _ _ (by decide), RegFile.fld_setF_reg _ _ (by decide)]
  exact RegFile.fld_bump_same 1 hm (by decide +kernel)

theorem RegFile.fld_rejectUnknown_cause :
    (m.rejectUnknown Cause.METER_UNKNOWN).fld F.ING_LAST_REJ.CAUSE = Cause.METER_UNKNOWN := by
  unfold RegFile.rejectUnknown RegFile.flag
  rw [RegFile.fld_setF_reg _ _ (by decide), RegFile.fld_setF_reg _ _ (by decide)]
  exact RegFile.fld_setF_same _ (RegFile.setF_wf _ _ hm) (by decide +kernel)

theorem RegFile.fld_rejectUnknown_valid (cause : Nat) : (m.rejectUnknown cause).fld F.ING_LAST_REJ_IDX.VALID = 0 := by
  have hv : F.ING_LAST_REJ_IDX.VALID.ok = true := by decide +kernel
  have hw := RegFile.setF_wf F.ING_LAST_REJ.CAUSE cause (RegFile.bump_wf (F.ING_REJ_CNT.COUNT (cause - 0x400)) 1 hm)
  unfold RegFile.rejectUnknown
  rw [RegFile.fld_setF_other _ (RegFile.flag_wf _ _ hw) (by decide +kernel) hv (by decide)]
  exact RegFile.fld_flag_same false hw hv

end

theorem State.onlyRegs_rejectReading (s : State) (cause : Nat) (i : Option Nat) :
    OnlyRegs [R.ING_REJ_CNT (cause - 0x400), R.ING_LAST_REJ, R.ING_LAST_REJ_IDX] s (s.rejectReading cause i) := by
  intro a ha
  simp only [List.mem_cons, List.not_mem_nil, or_false, not_or] at ha
  obtain ⟨hcnt, hrej, hidx⟩ := ha
  have hbump : (if 0x0400 ≤ cause ∧ cause ≤ 0x0406 then s.regs.bump (F.ING_REJ_CNT.COUNT (cause - 0x400)) 1
      else s.regs).get a = s.regs.get a := by
    split
    · exact RegFile.get_put_other _ hcnt
    · rfl
  exact (RegFile.get_put_other _ hidx).trans ((RegFile.get_put_other _ hidx).trans ((RegFile.get_put_other _ hrej).trans hbump))

theorem exec_ingestFrame_unknownMeter {s : State} {f : IngestFrame} {l : List IngestFrame} (hf : s.ing.frames = f :: l)
    (hr : s.fld F.ING_STAT.READY ≠ 0) (hc : s.ing.waiting.length + f.count ≤ 2097152) (hp : f.parses 0x21 = true)
    (hm : s.frameMeter f = none) :
    exec .ingestFrame s =
      .next (({ s with ing := { s.ing with frames := l } } : State).rejectReading Cause.METER_UNKNOWN none) := by
  rw [exec_ingestFrame_ready hf hr]
  exact congrArg _ (State.ingest_unknownMeter (s := { s with ing := { s.ing with frames := l } }) hc hp hm)

/-! ### Readings become durable (R137) -/

theorem filter_due_head {x : Reading} {l : List Reading} {s : State} (hx : s.digestOk x.loggedAt = true)
    (hl : ∀ y ∈ l, x.loggedAt < y.loggedAt) :
    (x :: l).filter (fun y => decide (y.loggedAt ≤ x.loggedAt) && s.digestOk y.loggedAt) = [x] ∧
      (x :: l).filter (fun y => !(decide (y.loggedAt ≤ x.loggedAt) && s.digestOk y.loggedAt)) = l := by
  have hlate : ∀ y ∈ l, (decide (y.loggedAt ≤ x.loggedAt) && s.digestOk y.loggedAt) = false := fun y hy => by
    rw [decide_eq_false (not_le.mpr (hl y hy)), Bool.false_and]
  constructor
  · rw [List.filter_cons_of_pos (by simp [hx]), List.filter_eq_nil_iff.mpr fun y hy => by simp [hlate y hy]]
  · rw [List.filter_cons_of_neg (by simp [hx]), List.filter_eq_self.mpr fun y hy => by rw [hlate y hy, Bool.not_false]]

theorem exec_readingDurable_one {x : Reading} {l : List Reading} {s : State} (hw : s.ing.waiting = x :: l)
    (hx : s.digestOk x.loggedAt = true) (hl : ∀ y ∈ l, x.loggedAt < y.loggedAt) :
    exec .readingDurable s =
      .next ((({ s with ing := { s.ing with waiting := l } } : State).durable x []).showBuffer) := by
  obtain ⟨hdue, hrest⟩ := filter_due_head hx hl
  simp only [exec, execReadingDurable, hw, State.durableUpto, hdue, hrest, State.durableAll]

/-- A reading is logged and counted with its route: a part of `durable` (R137). -/
def State.countReading (s : State) (x : Reading) : State :=
  { s with
    ing := { s.ing with recent := s.ing.recent + 1, log := s.ing.log ++ [.reading x] }
    regs := (s.regs.bump F.ING_ACCEPT_CNT.COUNT 1).bump (F.ING_SRC_CNT.COUNT x.route) 1 }

theorem State.durable_of_no_item (s : State) {x : Reading} (h : x.item = none) (later : List Reading) :
    s.durable x later = ((s.countReading x).applyReading x).acknowledge x later := by
  unfold State.durable
  simp only [h]
  rfl

theorem State.durable_of_item (s : State) {x : Reading} {i : Nat × Nat} (h : x.item = some i) (later : List Reading) :
    s.durable x later = (((s.countReading x).applyReading x).acknowledge x later).endItem i.1 i.2 0 := by
  unfold State.durable
  simp only [h]
  rfl

/-! ### Chunks (R127) -/

theorem IngestState.prune_eq (g : IngestState) : ∃ l, g.prune = { g with log := l } := by
  unfold IngestState.prune
  split
  · exact ⟨_, rfl⟩
  · exact ⟨g.log, rfl⟩

/-- A chunk as it is saved, before the log is pruned: a part of `writeChunk`. -/
def State.chunkSaved (s : State) (chunk : Nat) : IngestState :=
  { s.ing with
    dirty := Map.erase s.ing.dirty chunk
    saved := Map.set s.ing.saved chunk ((List.range 8).map fun k => (s.meter (8 * chunk + k)).appliedIsn)
    journal := s.ing.journal.filter fun i => i / 8 != chunk }

theorem exec_chunkWrite_dirty {s : State} {chunk p : Nat} (h : Map.find s.ing.dirty chunk = some p) :
    exec (.chunkWrite chunk) s = .next (s.writeChunk chunk) := by
  simp only [exec, execChunkWrite, h]

theorem State.writeChunk_eq (s : State) (chunk : Nat) : ∃ l, s.writeChunk chunk = { s with
    ing := { s.chunkSaved chunk with log := l }
    regs := s.regs.setF F.ING_REG_DIRTY.CHUNKS (Map.erase s.ing.dirty chunk).length } := by
  obtain ⟨l, hl⟩ := (s.chunkSaved chunk).prune_eq
  exact ⟨l, by rw [← hl]; rfl⟩

/-! ### Polls (R130, R147, R287) -/

theorem exec_serialPoll_due {s : State} {ser : Nat} {e : Nat × MeterRec} (hrole : s.role (16 + ser) ≠ 0) (hser : ser < 24)
    (hp : Map.find s.ing.polls ser = none) (hbp : s.fld F.ING_STAT.BP ≠ 1) (hr : s.fld F.ING_STAT.READY ≠ 0)
    (hrx : s.receives = true) (he : (s.ing.meters.find? fun e => s.pollDue ser e.1 e.2) = some e) :
    exec (.serialPoll ser) s = .next (({ s with ing := { s.ing with
      polls := Map.set s.ing.polls ser ⟨e.1, 0, s.now⟩ } } : State).send (.serialPoll ser e.1)) := by
  have hgo : ¬(s.role (16 + ser) = 0 ∨ 24 ≤ ser ∨ (Map.find s.ing.polls ser).isSome ∨ s.fld F.ING_STAT.BP = 1 ∨
      s.fld F.ING_STAT.READY = 0 ∨ !s.receives) := by
    simp [hrole, hp, hbp, hr, hrx, hser]
  simp only [exec, execSerialPoll, if_neg hgo, he]

section
variable {s : State} {ser : Nat} {p : PollState} (hp : Map.find s.ing.polls ser = some p)
include hp

theorem State.noResponse_waits (ht : p.tries < s.fld F.ING_POLL.RETRIES) (hb : s.fld F.ING_STAT.BP = 1) :
    s.noResponse ser = s := by
  simp only [State.noResponse, hp, if_pos (And.intro ht hb)]

theorem State.noResponse_repeats (ht : p.tries < s.fld F.ING_POLL.RETRIES) (hb : s.fld F.ING_STAT.BP ≠ 1) :
    s.noResponse ser = ({ s with ing := { s.ing with
      polls := Map.set s.ing.polls ser { p with tries := p.tries + 1, sentAt := s.now } } } : State).send
        (.serialPoll ser p.meter) := by
  simp only [State.noResponse, hp, ht, hb, and_false, if_true, if_false]

theorem State.noResponse_ends (ht : s.fld F.ING_POLL.RETRIES ≤ p.tries) : s.noResponse ser = s.pollEnds ser p := by
  simp only [State.noResponse, hp, not_lt.mpr ht, false_and, if_false]

end

theorem exec_serialResponseTimeout (ser : Nat) (s : State) :
    exec (.serialResponseTimeout ser) s = .next (s.noResponse ser) := rfl

/-! ### Frames on a serial port (R286, R287) -/

section
variable {s : State} {ser : Nat} (hrole : s.role (16 + ser) ≠ 0) (hser : ser < 24) (hrx : s.receives = true) (us : Nat)
  (f : IngestFrame)
include hrole hser hrx

theorem State.serialFrame_received : ¬(s.role (16 + ser) = 0 ∨ 24 ≤ ser ∨ !s.receives) := by simp [hrole, hrx, hser]

theorem exec_serialFrame_bad {bad : Nat} (hb : 0 < bad) :
    exec (.serialFrame ser bad us f) s = .next (s.bump (F.PRT_SER_ERR_CNT.COUNT ser) bad) := by
  simp only [exec, execSerialFrame, if_neg (State.serialFrame_received hrole hser hrx), if_pos hb]

theorem exec_serialFrame_answer {p : PollState} (hp : Map.find s.ing.polls ser = some p) (hw : s.inWindow ser us = true) :
    exec (.serialFrame ser 0 us f) s = .next ((s.pollEnds ser p).handIn { f with route := 7, rx := s.timeMs }) := by
  simp only [exec, execSerialFrame, if_neg (State.serialFrame_received hrole hser hrx), lt_irrefl, if_false, hp, hw, if_true]
  rfl

theorem exec_serialFrame_unasked (hp : Map.find s.ing.polls ser = none) (h1 : s.role (16 + ser) = 1) :
    exec (.serialFrame ser 0 us f) s = .next (s.handIn { f with route := 7, rx := s.timeMs }) := by
  simp only [exec, execSerialFrame, if_neg (State.serialFrame_received hrole hser hrx), lt_irrefl, if_false, hp]
  rw [if_pos h1]

end

/-! ### Frames handed in (R391, R393) -/

theorem State.handIn_standby {s : State} (h : s.fld F.PAIR_STAT.ROLE = 1) (f : IngestFrame) :
    s.handIn f = { s with pair := { s.pair with inputs := s.pair.inputs ++ [(s.now, f)] } } := if_pos h

theorem State.record_eq_entry (s : State) (r : LedgerRecord) :
    s.record r = { s with pair := { s.pair with entry := if s.ledgering then s.pair.entry ++ [r] else s.pair.entry } } := by
  unfold State.record
  split <;> rfl

theorem State.handIn_accepted {s : State} (h : s.fld F.PAIR_STAT.ROLE ≠ 1) (f : IngestFrame) :
    s.handIn f = (s.record (.frame f)).acceptFrameIn f := if_neg h

theorem State.acceptFrameIn_forward (s : State) {f : IngestFrame} (h : f.type = 0x23) :
    s.acceptFrameIn f = { s with ing := { s.ing with forwards := s.ing.forwards ++ [f] } } := if_pos h

theorem State.acceptFrameIn_status (s : State) {f : IngestFrame} (h : f.type = 0x24) :
    s.acceptFrameIn f = { s with rad := { s.rad with inbox := s.rad.inbox ++ [⟨f.shortAddr, none, f⟩] } } := by
  rw [State.acceptFrameIn, if_neg (by rw [h]; decide), if_pos h]

theorem State.acceptFrameIn_frame (s : State) {f : IngestFrame} (h3 : f.type ≠ 0x23) (h4 : f.type ≠ 0x24) :
    s.acceptFrameIn f = { s with ing := { s.ing with frames := s.ing.frames ++ [f] } } := by
  rw [State.acceptFrameIn, if_neg h3, if_neg h4]

theorem State.acceptFrameIn_eq (s : State) (f : IngestFrame) :
    s.acceptFrameIn f =
      { s with ing := (s.acceptFrameIn f).ing, pair := (s.acceptFrameIn f).pair, rad := (s.acceptFrameIn f).rad } := by
  unfold State.acceptFrameIn
  split
  · rfl
  · split <;> rfl

theorem State.acceptFrameIn_pair (s : State) (f : IngestFrame) : (s.acceptFrameIn f).pair = s.pair := by
  unfold State.acceptFrameIn
  split
  · rfl
  · split <;> rfl

/-! ### Lanes (R126) -/

theorem State.ingestLane_of_lanes {s : State} {lanes : List Nat}
    (hl : lanes = (List.range 8).filter fun l => s.pacePlan.any fun e => e.engine == 0x09 && e.lane == l) (hne : lanes ≠ [])
    (i : Nat) : ∃ l, s.ingestLane i = some l ∧ lanes[i % lanes.length]? = some l ∧ l ∈ lanes := by
  have hi : i % lanes.length < lanes.length := Nat.mod_lt _ (List.length_pos_iff.mpr hne)
  have hget : lanes[i % lanes.length]? = some lanes[i % lanes.length] := List.getElem?_eq_getElem hi
  exact ⟨_, by rw [State.ingestLane, ← hl]; exact hget, hget, List.getElem_mem hi⟩

/-! ### The statement -/

/-- Settles O30, command by command; an applied reading by what the hand-over of its changes keeps (`AppliedKept`). -/
theorem ingestTakesFramesAndReadings : Obligations.IngestTakesFramesAndReadings := by
  refine ⟨fun f l s => exec_ingestFrame_ready, ?unknown, fun x l s => exec_readingDurable_one, ?durable, ?chunk,
    fun ser e s => exec_serialPoll_due, ?timeout, ?serialFrame, ?handIn, ?keycache, ?lane⟩
  case unknown =>
    intro f l s hs hf hr hc hp hm
    have hregs := State.rejectReading_unknown { s with ing := { s.ing with frames := l } }
      (cause := Cause.METER_UNKNOWN) (by decide)
    have he := exec_ingestFrame_unknownMeter hf hr hc hp hm
    have honly := State.onlyRegs_rejectReading { s with ing := { s.ing with frames := l } } Cause.METER_UNKNOWN none
    rw [hregs] at he honly
    exact ⟨_, he, RegFile.fld_rejectUnknown_count hs, RegFile.fld_rejectUnknown_cause hs,
      RegFile.fld_rejectUnknown_valid hs _, honly, rfl⟩
  case durable =>
    intro x later u
    obtain ⟨n, hn⟩ := (u.countReading x).applyReading_applied x
    obtain ⟨hisn, hstatus⟩ := Prod.mk.inj hn
    exact ⟨u.countReading x, rfl, fun h => u.durable_of_no_item h later, fun i h => u.durable_of_item h later,
      (le_max_right _ _).trans_eq hisn.symm, hstatus⟩
  case chunk =>
    intro chunk p s hs hsorted hp
    obtain ⟨l, hl⟩ := s.writeChunk_eq chunk
    have he := exec_chunkWrite_dirty hp
    rw [hl] at he
    have hfld : (s.regs.setF F.ING_REG_DIRTY.CHUNKS (Map.erase s.ing.dirty chunk).length).fld F.ING_REG_DIRTY.CHUNKS = _ :=
      RegFile.fld_setF_same _ hs (by decide +kernel)
    refine ⟨_, he, Map.find_erase_same chunk hsorted, Map.find_set_same .., rfl, fun i hi => ?_, hfld, fun a ha => ?_, rfl⟩
    · simpa using (List.mem_filter.mp hi).2
    · exact RegFile.get_put_other _ (List.ne_of_not_mem_cons ha)
  case timeout =>
    intro ser p s hp
    rw [exec_serialResponseTimeout]
    exact ⟨fun ht hb => congrArg _ (State.noResponse_waits hp ht hb),
      fun ht hb => congrArg _ (State.noResponse_repeats hp ht hb),
      fun ht => congrArg _ (State.noResponse_ends hp ht)⟩
  case serialFrame =>
    intro ser us f s hrole hser hrx
    exact ⟨fun bad => exec_serialFrame_bad hrole hser hrx us f, fun p => exec_serialFrame_answer hrole hser hrx us f,
      exec_serialFrame_unasked hrole hser hrx us f⟩
  case handIn =>
    intro f s
    refine ⟨fun h => State.handIn_standby h f, fun h => ⟨_, State.handIn_accepted h f, ?_⟩⟩
    rw [State.record_eq_entry]
    refine ⟨State.acceptFrameIn_pair _ f, fun h3 h4 => ?_, fun h3 => ?_, fun h4 => ?_, State.acceptFrameIn_eq _ f⟩
    · rw [State.acceptFrameIn_frame _ h3 h4]
      exact ⟨rfl, rfl⟩
    · rw [State.acceptFrameIn_forward _ h3]
      exact ⟨rfl, rfl⟩
    · rw [State.acceptFrameIn_status _ h4]
      exact ⟨rfl, rfl⟩
  case keycache =>
    intro who slots s hs hm h0 h1
    obtain ⟨p, hp⟩ := entered_eq s who R.ING_KEYCACHE (BitVec.ofNat 32 slots) slotsMask
    have hslots : slots < 4096 := by omega
    have he := exec_keycacheResize_permitted hm h0 h1
    rw [hp] at he
    have hfld := State.fld_storeSlots (s := { s with pair := p }) hs hslots
    refine ⟨_, State.storeSlots { s with pair := p } slots, he, State.onlyRegs_storeBits _ _ _ _, hfld, ?_, rfl, ?_, ?_⟩
    · exact (State.storeSlots_eq _ slots).trans (by rw [← hp]; rfl)
    · rw [State.send_regCause]
      exact (State.resizeKeys_keys _).trans (by rw [hfld]; rfl)
    · rw [State.send_regCause]
      exact congrArg (· ++ _) (State.resizeKeys_out _)
  case lane =>
    intro i s lanes hl hne
    obtain ⟨l, hlane, hget, hmem⟩ := State.ingestLane_of_lanes hl hne i
    rw [hl] at hmem
    exact ⟨l, hlane, hget, (List.mem_filter.mp hmem).2⟩

end Sys2Proof.Machine

/-! What a notice leaves alone: it is retained, sent on the link of its context or lost, and touches nothing of the engines
(R70 to R72). -/

namespace Sys2Proof.Machine

/-- `t` is `s` but for its posts, its contexts, its ports and what waits for them; of the registers only PRT_SPI_STAT may
differ. -/
structure NoticesOnly (s t : State) : Prop where
  eq : t = { s with regs := t.regs, host := t.host, prt := t.prt, pair := t.pair, evt := t.evt, out := t.out }
  only : OnlyRegs [R.PRT_SPI_STAT] s t

theorem NoticesOnly.refl (s : State) : NoticesOnly s s := ⟨rfl, OnlyRegs.refl _ s⟩

theorem NoticesOnly.trans {s t u : State} (h : NoticesOnly s t) (g : NoticesOnly t u) : NoticesOnly s u where
  eq := g.eq.trans (congrArg (fun x : State => { x with
    regs := u.regs, host := u.host, prt := u.prt, pair := u.pair, evt := u.evt, out := u.out }) h.eq)
  only a ha := (g.only a ha).trans (h.only a ha)

theorem NoticesOnly.ite {s t u : State} {c : Prop} [Decidable c] (ht : NoticesOnly s t) (hu : NoticesOnly s u) :
    NoticesOnly s (if c then t else u) := by
  split
  · exact ht
  · exact hu

theorem NoticesOnly.bal {s t : State} (h : NoticesOnly s t) : t.bal = s.bal := by rw [h.eq]

section
variable {s0 s : State} (h : NoticesOnly s0 s)
include h

theorem NoticesOnly.rest {host : HostState} {prt : PortState} {pair : PairState} {evt : EvtState} {out : List Output} :
    NoticesOnly s0 { s with host := host, prt := prt, pair := pair, evt := evt, out := out } :=
  h.trans ⟨rfl, (OnlyRegs.refl _ s).of_regs rfl⟩

theorem NoticesOnly.post (c : Nat) (p : Payload) : NoticesOnly s0 (s.post c p) := h.rest

theorem NoticesOnly.setCtx (c : Nat) (x : Ctx) : NoticesOnly s0 (s.setCtx c x) := h.rest

theorem NoticesOnly.send (o : Output) : NoticesOnly s0 (s.send o) := h.ite (h.rest.ite (h.ite h.rest))

theorem NoticesOnly.raiseVector (k : Nat) (irq : Option (Nat × Nat)) : NoticesOnly s0 (s.raiseVector k irq) := by
  cases irq with
  | none => exact h
  | some p => exact h.send _

theorem NoticesOnly.ringPut (k : Nat) (q : PcieSlot) (w : OutWaybill) : NoticesOnly s0 (s.ringPut k q w) :=
  List.foldlRecOn _ _ (h.send _) fun _ hu _ _ => (hu.send _).raiseVector _ _

theorem NoticesOnly.pcieMove {t : State} {link : Nat} {w : OutWaybill} (ht : s.pcieMove link w = some t) :
    NoticesOnly s0 t := by
  unfold State.pcieMove at ht
  extract_lets k q overhead at ht
  split at ht
  · cases ht
  dsimp only at ht
  split at ht
  · cases ht
    exact h.rest.ringPut _ _ _
  split at ht
  · cases ht
    exact h.rest.ringPut _ _ _
  split at ht
  · split at ht
    · cases ht
      exact (h.rest.setCtx _ _).ringPut _ _ _
    · cases ht
      exact h
  · cases ht
    exact h

theorem NoticesOnly.pciePump (c link : Nat) : NoticesOnly s0 (s.pciePump c link) := by
  refine List.foldlRecOn (motive := fun p : State × Bool => NoticesOnly s0 p.1) _ _ h.rest fun p hp w _ => ?_
  dsimp only
  split
  · exact hp.rest
  split
  · exact hp.rest
  split
  · next ht => exact hp.pcieMove ht
  · exact hp.rest

theorem NoticesOnly.put (w : OutWaybill) : NoticesOnly s0 (s.put w) := by
  have hspi (p : PortState) (b : Bool) : NoticesOnly s0 (({ s with prt := p } : State).flag F.PRT_SPI_STAT.WB_READY b) :=
    h.trans ⟨rfl, ((OnlyRegs.refl _ s).of_regs rfl).flag _ (.head _)⟩
  exact (h.rest.pciePump _ _).ite ((hspi _ _).ite (h.send _))

theorem NoticesOnly.emit (w : OutWaybill) (x : Option Session) : NoticesOnly s0 (s.emit w x) :=
  (h.put _).ite ((h.setCtx _ _).put _)

theorem NoticesOnly.sendWaybill (c : Nat) (clear rep : Bool) (type opcode : Nat) (seq task : Word) (cause : Nat)
    (body : List Tlv) : NoticesOnly s0 (s.sendWaybill c clear rep type opcode seq task cause body) := by
  unfold State.sendWaybill
  split
  · exact h
  · exact h.emit _ _

theorem NoticesOnly.sendNotice (c : Nat) (n : NoticeRec) : NoticesOnly s0 (s.sendNotice c n) :=
  (h.sendWaybill ..).ite ((h.sendWaybill ..).setCtx _ _)

theorem NoticesOnly.pump (c : Nat) : NoticesOnly s0 (s.pump c) :=
  NoticesOnly.ite (List.foldlRecOn _ _ h fun _ hu _ _ => hu.sendNotice _ _) h

theorem NoticesOnly.retain (c kind : Nat) (body : List Tlv) (task : Nat) : NoticesOnly s0 (s.retain c kind body task) :=
  (h.setCtx c _).pump c

theorem NoticesOnly.loseNotice (c kind : Nat) (withPost : Bool) : NoticesOnly s0 (s.loseNotice c kind withPost) :=
  NoticesOnly.ite (h.setCtx c _).rest (h.setCtx c _)

theorem NoticesOnly.notify (c kind : Nat) (body : List Tlv) (withPost : Bool) :
    NoticesOnly s0 (s.notify c kind body withPost) :=
  (h.loseNotice _ _ _).ite (h.retain _ _ _ _)

theorem NoticesOnly.broadcast (kind : Nat) (body : List Tlv) (withPost : Bool) :
    NoticesOnly s0 (s.broadcast kind body withPost) :=
  List.foldlRecOn _ _ h fun _ hu _ _ => hu.notify _ _ _ _

theorem NoticesOnly.lossNotice (n kind : Nat) (neg : Bool) (reason start ranked : Nat) (suspects : List Tlv) :
    NoticesOnly s0 (s.lossNotice n kind neg reason start ranked suspects) :=
  h.broadcast _ _ _

end

end Sys2Proof.Machine

/-! The state of a node, and what a node that leaves alert changes (R160). -/

namespace Sys2Proof.Machine

/-! ### The state of a node -/

@[simp] theorem State.node_setNode_same (s : State) (n : Nat) (x : NodeState) : (s.setNode n x).node n = x :=
  Map.findD_set_same ..

@[simp] theorem State.node_setNode_other (s : State) {n k : Nat} (x : NodeState) (h : k ≠ n) :
    (s.setNode n x).node k = s.node k := Map.findD_set_other _ _ h

theorem State.setNode_bal (s : State) (n : Nat) (x : NodeState) :
    (s.setNode n x).bal = { s.bal with nodes := Map.set s.bal.nodes n x } := by rw [State.setNode]

/-- The state of a node is held in BALANCE. -/
theorem State.node_of_nodes {s t : State} (h : t.bal.nodes = s.bal.nodes) (n : Nat) : t.node n = s.node n := by
  rw [State.node, h, State.node]

theorem State.node_of_bal {s t : State} (h : t.bal = s.bal) (n : Nat) : t.node n = s.node n :=
  State.node_of_nodes (congrArg BalState.nodes h) n

/-- A node that is in no alert leaves none (R160). -/
theorem State.leaveAlert_of_none {s : State} {n : Nat} (h : (s.node n).alert = none) (reason : Nat) :
    s.leaveAlert n reason = s := by
  simp only [State.leaveAlert, h]

/-- An alert ends with a post and a LOSS notice, the localisations queued for its node, and the state that it wrote (R160). -/
theorem State.leaveAlert_of_some {s : State} {n : Nat} {neg : Bool} (h : (s.node n).alert = some neg) (reason : Nat) :
    ∃ u, NoticesOnly s u ∧ s.leaveAlert n reason =
      ({ u with bal := { u.bal with jobs := u.bal.jobs.filter fun j => !(j.node == n && j.work == .localise) } }
        : State).setNode n { s.node n with alert := none, raising := [], loc := none, first := none } := by
  have hu : NoticesOnly s _ := ((NoticesOnly.refl s).post Ev.BAL_CLEAR [b2 n, b1 reason]).lossNotice n 3 neg reason
    (s.node n).raisingStart 0 []
  refine ⟨_, hu, ?_⟩
  simp only [State.leaveAlert, h, State.node_of_bal hu.bal n]

theorem State.alert_leaveAlert (s : State) (n reason : Nat) : ((s.leaveAlert n reason).node n).alert = none := by
  cases h : (s.node n).alert with
  | none => rw [State.leaveAlert_of_none h, h]
  | some neg =>
    obtain ⟨u, -, hu⟩ := State.leaveAlert_of_some h reason
    rw [hu, State.node_setNode_same]

theorem State.node_leaveAlert_other (s : State) {n k : Nat} (reason : Nat) (hk : k ≠ n) :
    (s.leaveAlert n reason).node k = s.node k := by
  cases h : (s.node n).alert with
  | none => rw [State.leaveAlert_of_none h]
  | some neg =>
    obtain ⟨u, hs, hu⟩ := State.leaveAlert_of_some h reason
    rw [hu, State.node_setNode_other _ _ hk, ← State.node_of_bal hs.bal k]
    exact State.node_of_nodes rfl k

end Sys2Proof.Machine

/-! Balance jobs: the queue and its head, the first balance of a node interval, localisations, held revisions and the backlog
(R155, R161 to R167). -/

namespace Sys2Proof.Machine

/-! ### What a judgement leaves alone (R160) -/

/-- `t` holds the results of `s`; of the registers only those of the alerts, the queue and the notices may differ. -/
structure ResultsStay (s t : State) : Prop where
  results : t.bal.results = s.bal.results
  only : OnlyRegs [R.BAL_ALERTS, R.BAL_QUEUE, R.PRT_SPI_STAT] s t

theorem ResultsStay.refl (s : State) : ResultsStay s s := ⟨rfl, OnlyRegs.refl _ s⟩

section
variable {s0 s : State} (h : ResultsStay s0 s)
include h

theorem ResultsStay.notices {t : State} (ht : NoticesOnly s t) : ResultsStay s0 t where
  results := (congrArg BalState.results ht.bal).trans h.results
  only a ha := (ht.only a fun hm => ha (.tail _ (.tail _ hm))).trans (h.only a ha)

theorem ResultsStay.setNode (n : Nat) (x : NodeState) : ResultsStay s0 (s.setNode n x) where
  results := by
    rw [State.setNode_bal]
    exact h.results
  only := (h.only.setF (f := F.BAL_ALERTS.COUNT) _ (.head _)).of_regs (by rw [State.setNode, State.setF])

theorem ResultsStay.withJobs (l : List BalJob) : ResultsStay s0 { s with bal := { s.bal with jobs := l } } :=
  ⟨h.results, h.only.of_regs rfl⟩

theorem ResultsStay.showJobs : ResultsStay s0 s.showJobs where
  results := by
    rw [State.showJobs, State.setF_bal]
    exact h.results
  only := h.only.setF (f := F.BAL_QUEUE.JOBS) _ (.tail _ (.head _))

theorem ResultsStay.queueJob (n m : Nat) (work : BalWork) : ResultsStay s0 (s.queueJob n m work) := by
  unfold State.queueJob
  split
  · exact h
  · exact (h.withJobs _).showJobs

theorem ResultsStay.leaveAlert (n reason : Nat) : ResultsStay s0 (s.leaveAlert n reason) := by
  cases ha : (s.node n).alert with
  | none => rwa [State.leaveAlert_of_none ha]
  | some neg =>
    obtain ⟨u, hs, hu⟩ := State.leaveAlert_of_some ha reason
    rw [hu]
    exact ((h.notices hs).withJobs _).setNode _ _

theorem ResultsStay.enterAlert (n : Nat) (neg : Bool) (run : List NodeResult) : ResultsStay s0 (s.enterAlert n neg run) := by
  unfold State.enterAlert
  extract_lets starts x s1 s2
  have h2 : ResultsStay s0 s2 :=
    (h.setNode n _).notices (((NoticesOnly.refl s1).post _ _).lossNotice _ _ _ _ _ _ _)
  split
  · exact h2
  · exact h2.queueJob _ _ _

theorem ResultsStay.judgeRun (n : Nat) (new : NodeResult) (before : Option Nat) (again : Bool) :
    ResultsStay s0 (s.judgeRun n new before again) := by
  unfold State.judgeRun
  extract_lets l run x s1 need m shorter
  have h1 : ResultsStay s0 s1 := h.setNode _ _
  split
  · clear_value run
    split
    · split
      · exact h1.enterAlert _ _ _
      · exact h1
    · exact h1
  · split
    · exact h1.leaveAlert _ _
    split
    · exact h1.leaveAlert _ _
    split
    · exact h1.queueJob _ _ _
    · exact h1

end

/-! ### The queue (R164, R173) -/

/-- Nothing runs where no operation of BAL_CMD waits. -/
theorem State.runOps_of_nil {s : State} (h : s.bal.ops = []) : s.runOps = s := by
  simp only [State.runOps, h, List.isEmpty_nil, if_true]

theorem State.runHead_of_head {s : State} {j : BalJob} {l : List BalJob} (hj : s.bal.jobs = j :: l) (ho : s.bal.ops = [])
    (which : BalJob → Bool) : s.runHead which = if which j then s.runJob j else s := by
  simp only [State.runHead, State.runOps_of_nil ho, hj]

/-- A job that joins an empty queue is its head. -/
theorem State.queueJob_of_empty {s : State} (hj : s.bal.jobs = []) (ho : s.bal.ops = []) (n m : Nat) (work : BalWork) :
    s.queueJob n m work =
      { s with bal := { s.bal with jobs := [⟨n, m, work, s.now⟩] }, regs := s.regs.setF F.BAL_QUEUE.JOBS 1 } := by
  simp [State.queueJob, State.showJobs, State.setF, hj, ho]

/-- The registers are left open: a comparison of states would evaluate them. -/
theorem State.queueJob_eq_of_empty {s : State} (hj : s.bal.jobs = []) (ho : s.bal.ops = []) (n m : Nat) (work : BalWork) :
    ∃ regs : RegFile, s.queueJob n m work =
      { s with bal := { s.bal with jobs := [⟨n, m, work, s.now⟩] }, regs := regs } :=
  ⟨_, State.queueJob_of_empty hj ho n m work⟩

theorem State.onlyRegs_endJob (s : State) : OnlyRegs [R.BAL_QUEUE] s s.endJob :=
  ((OnlyRegs.refl _ s).of_regs rfl).setF (f := F.BAL_QUEUE.JOBS) _ (.head _)

theorem State.endJob_eq (s : State) : ∃ m : RegFile, s.endJob =
    { s with bal := { s.bal with jobs := s.bal.jobs.drop 1 }, regs := m } :=
  ⟨_, by rw [State.endJob, State.showJobs, State.setF]⟩

theorem State.node_endJob (s : State) (n : Nat) : s.endJob.node n = s.node n := by
  obtain ⟨m, hm⟩ := s.endJob_eq
  rw [hm]
  exact State.node_of_nodes rfl n

/-- The topology of an interval is that of the image, or the previous one that BALANCE holds. -/
theorem State.topoAt_of_bal {s t : State} (hw : t.warp = s.warp) (hf : t.bal.activeFrom = s.bal.activeFrom)
    (hp : t.bal.previous = s.bal.previous) (m : Nat) : t.topoAt m = s.topoAt m := by
  rw [State.topoAt, State.topology, hw, hf, hp, State.topoAt, State.topology]

theorem State.topoAt_endJob (s : State) (i : Nat) : s.endJob.topoAt i = s.topoAt i := by
  obtain ⟨m, hm⟩ := s.endJob_eq
  rw [hm]
  exact State.topoAt_of_bal rfl rfl rfl i

theorem State.result_of_results {s t : State} (h : t.bal.results = s.bal.results) (n m : Nat) :
    t.result n m = s.result n m := by
  rw [State.result, h, State.result]

theorem State.fld_showJobs {s : State} (hs : s.regs.wf = true) :
    s.showJobs.fld F.BAL_QUEUE.JOBS = min (s.bal.jobs.length + s.bal.ops.length) 0xFFFFFF := by
  rw [State.showJobs, State.fld_setF_same _ hs (by decide +kernel)]
  exact Nat.mod_eq_of_lt (Nat.lt_succ_of_le (Nat.min_le_right _ _))

theorem State.fld_endJob {s : State} (hs : s.regs.wf = true) :
    s.endJob.fld F.BAL_QUEUE.JOBS = min ((s.bal.jobs.drop 1).length + s.bal.ops.length) 0xFFFFFF := by
  rw [State.endJob]
  exact State.fld_showJobs hs

/-! ### A job at the head of the queue (R162, R164, R167) -/

section
variable {s : State} {j : BalJob}

/-- A job whose topology is gone ends without effect. -/
theorem State.runJob_gone (ht : s.topoAt j.start = none) : s.runJob j = s.endJob := by
  simp only [State.runJob, ht, Option.bind_none]

variable {t : List TopoNode} {e : TopoNode} (ht : s.topoAt j.start = some t) (he : topoNode t j.node = some e)
include ht he

theorem State.runJob_first (hw : j.work = .first) (hr : s.result j.node j.start = none) :
    s.runJob j = s.endJob.firstBalance t e j.start := by
  simp only [State.runJob, ht, Option.bind_some, he, Option.map_some, hw, hr]

theorem State.runJob_revision {old : NodeResult} (hw : j.work = .revision) (hr : s.result j.node j.start = some old) :
    s.runJob j = s.endJob.reviseResult t e j.start old := by
  simp only [State.runJob, ht, Option.bind_some, he, Option.map_some, hw, hr]

theorem State.runJob_localise (hw : j.work = .localise) (ha : (s.node j.node).alert = some false) :
    s.runJob j = s.endJob.localise j.node := by
  simp only [State.runJob, ht, Option.bind_some, he, Option.map_some, hw, ha, if_true]

end

/-! ### Which job a command runs -/

section
variable {s : State} {j : BalJob} {l : List BalJob} (hj : s.bal.jobs = j :: l) (ho : s.bal.ops = [])
include hj ho

theorem exec_nodeBalance_gone (hw : j.work = .first) (ht : s.topoAt j.start = none) :
    exec (.nodeBalance j.node j.start) s = .next (s.runJob j) := by
  simp only [exec, execNodeBalance, ht, Bool.false_eq_true, if_false, State.runHead_of_head hj ho, hw, beq_self_eq_true,
    Bool.and_self, if_true]

theorem exec_balanceRevision :
    exec .balanceRevision s = .next (if j.work = .revision then s.runJob j else s) := by
  simp only [exec, execBalanceRevision, State.runHead_of_head hj ho, beq_iff_eq]

theorem exec_localisation (n : Nat) :
    exec (.localisation n) s = .next (if j.node = n ∧ j.work = .localise then s.runJob j else s) := by
  simp only [exec, execLocalisation, State.runHead_of_head hj ho, Bool.and_eq_true, beq_iff_eq]

end

/-- A node interval that is due joins an empty queue, and its job runs at once (R155, R164). -/
theorem exec_nodeBalance_due {s : State} {n m : Nat} {l : List TopoNode} {e : TopoNode} (ht : s.topoAt m = some l)
    (he : topoNode l n = some e) (hd : s.balanceDue l e m = true) (hj : s.bal.jobs = []) (ho : s.bal.ops = []) :
    exec (.nodeBalance n m) s = .next ((s.queueJob n m .first).runJob ⟨n, m, .first, s.now⟩) := by
  have hq := State.queueJob_of_empty hj ho n m .first
  have hhead : (s.queueJob n m .first).bal.jobs = [⟨n, m, .first, s.now⟩] := by rw [hq]
  have hops : (s.queueJob n m .first).bal.ops = [] := by rw [hq]; exact ho
  simp only [exec, execNodeBalance, ht, he, hd, if_true, State.runHead_of_head hhead hops, beq_self_eq_true, Bool.and_self]

/-! ### The energies of a node (R152 to R155) -/

section
variable {s t : State} (hi : t.ing = s.ing) (hl : t.leg = s.leg)
include hi hl

theorem State.reference_congr (e : TopoNode) (m len : Nat) : t.reference e m len = s.reference e m len := by
  have hrecords (mp : Nat) : t.pointRecords mp m len = s.pointRecords mp m len := by
    rw [State.pointRecords, hl, State.pointRecords]
  have hmeter (i : Nat) : t.meter i = s.meter i := by rw [State.meter, hi, State.meter]
  have hok (i : Nat) : t.refMeterOk i = s.refMeterOk i := by rw [State.refMeterOk, hmeter, State.refMeterOk]
  simp only [State.reference, hrecords, hmeter, hok]

variable (hp : t.fld F.BAL_GATE.PCT = s.fld F.BAL_GATE.PCT)
include hp

/-- The energies of child nodes read the readings, the records and PCT alone. -/
theorem State.childSum_congr (l : List TopoNode) (f n m len : Nat) : t.childSum l f n m len = s.childSum l f n m len := by
  induction f generalizing n m len with
  | zero => rfl
  | succ f ih => simp only [State.childSum, State.childMeters, hi, hp, State.reference_congr hi hl, ih]

theorem State.gated_congr (l : List TopoNode) (e : TopoNode) (m : Nat) : t.gated l e m = s.gated l e m := by
  rw [State.gated, State.nodeChildren, State.reference_congr hi hl, State.childSum_congr hi hl hp, hp, State.gated,
    State.nodeChildren]

end

/-! ### The first balance of a node interval (R155, R165) -/

/-- The result of a first balance: its interval and the energies found. -/
structure FirstResult (s : State) (t : List TopoNode) (e : TopoNode) (m : Nat) (r : NodeResult) : Prop where
  node : r.node = e.node
  start : r.start = m
  balMin : r.balMin = e.balMin
  rev : r.rev = 0
  eRef : r.eRef = (s.reference e m e.balMin).e
  eChild : r.eChild = (s.nodeChildren t e m).e

/-- A balance is counted, as incomplete where it is not gated: a part of `firstBalance`. -/
def State.countBalance (s : State) (gated : Bool) : State :=
  { s with regs := (s.regs.bump F.BAL_DONE_CNT.COUNT 1).bump F.BAL_INCOMPLETE_CNT.COUNT (if gated then 0 else 1) }

theorem ResultsStay.ite {s0 s t : State} {c : Prop} [Decidable c] (hs : ResultsStay s0 s) (ht : ResultsStay s0 t) :
    ResultsStay s0 (if c then s else t) := by
  split
  · exact hs
  · exact ht

/-- The state of the node and the result are kept, the balance is counted, and the run is judged where it is gated. -/
theorem State.firstBalance_stay (s : State) (t : List TopoNode) (e : TopoNode) (m : Nat) :
    ∃ u x r, (u = s.learnBaselines t e m ∨ u = s) ∧ FirstResult s t e m r ∧
      ResultsStay (((u.setNode e.node x).setResult r).countBalance (s.gated t e m)) (s.firstBalance t e m) := by
  unfold State.firstBalance
  extract_lets st k f learning r exceeds z hi fed q sample st1 st2 r1 s1 s2 s3
  have h3 : ResultsStay s3 s3 := .refl s3
  refine ⟨if f.gated ∧ st.alert.isNone then s.learnBaselines t e m else s, st2, r1, ?_, ⟨rfl, rfl, rfl, rfl, rfl, rfl⟩,
    (h3.judgeRun _ _ _ _).ite h3⟩
  split
  · exact .inl rfl
  · exact .inr rfl

theorem State.onlyRegs_learnBaselines (s : State) (t : List TopoNode) (e : TopoNode) (m : Nat) :
    OnlyRegs [R.ING_REG_DIRTY] s (s.learnBaselines t e m) := by
  refine List.foldlRecOn (motive := OnlyRegs [R.ING_REG_DIRTY] s) _ _ (OnlyRegs.refl _ s) fun u hu c _ => ?_
  split
  · exact (hu.setF (f := F.ING_REG_DIRTY.CHUNKS) _ (.head _)).of_regs rfl
  · exact hu

theorem State.result_setResult_same (s : State) (r : NodeResult) : (s.setResult r).result r.node r.start = some r := by
  rw [State.result, State.setResult]
  exact (congrArg (Map.find · r.start) (Map.findD_set_same ..)).trans (Map.find_set_same ..)

section
variable {s : State} (hs : s.regs.wf = true) (gated : Bool)
include hs

theorem State.fld_countBalance_done :
    (s.countBalance gated).fld F.BAL_DONE_CNT.COUNT = min (s.fld F.BAL_DONE_CNT.COUNT + 1) (2 ^ 32 - 1) :=
  (RegFile.fld_setF_reg (f := F.BAL_INCOMPLETE_CNT.COUNT) _ _ (by decide)).trans
    (RegFile.fld_bump_same (f := F.BAL_DONE_CNT.COUNT) 1 hs (by decide +kernel))

theorem State.fld_countBalance_incomplete : (s.countBalance gated).fld F.BAL_INCOMPLETE_CNT.COUNT =
    min (s.fld F.BAL_INCOMPLETE_CNT.COUNT + (if gated then 0 else 1)) (2 ^ 32 - 1) := by
  refine (RegFile.fld_bump_same (f := F.BAL_INCOMPLETE_CNT.COUNT) _ (RegFile.bump_wf _ _ hs) (by decide +kernel)).trans ?_
  rw [RegFile.bump, RegFile.fld_setF_reg (f := F.BAL_DONE_CNT.COUNT) _ _ (by decide)]
  rfl

end

/-- A node interval is balanced once, kept with its start, and counted (R155, R165). -/
theorem State.firstBalance_spec {s : State} (hs : s.regs.wf = true) (t : List TopoNode) (e : TopoNode) (m : Nat) :
    (∃ r, FirstResult s t e m r ∧ (s.firstBalance t e m).result e.node m = some r) ∧
    (s.firstBalance t e m).fld F.BAL_DONE_CNT.COUNT = min (s.fld F.BAL_DONE_CNT.COUNT + 1) (2 ^ 32 - 1) ∧
    (s.firstBalance t e m).fld F.BAL_INCOMPLETE_CNT.COUNT =
      min (s.fld F.BAL_INCOMPLETE_CNT.COUNT + (if s.gated t e m then 0 else 1)) (2 ^ 32 - 1) := by
  obtain ⟨u, x, r, hu, hr, hstay⟩ := s.firstBalance_stay t e m
  obtain ⟨honly, hwf⟩ : OnlyRegs [R.ING_REG_DIRTY] s u ∧ u.regs.wf = true := by
    rcases hu with rfl | rfl
    · exact ⟨s.onlyRegs_learnBaselines t e m, (State.learnBaselines_keeps (Keeps.refl s) t e m).regs hs⟩
    · exact ⟨.refl _ _, hs⟩
  have hset : OnlyRegs [R.ING_REG_DIRTY, R.BAL_ALERTS] s ((u.setNode e.node x).setResult r) :=
    ((honly.mono (by simp)).setF (f := F.BAL_ALERTS.COUNT) _ (.tail _ (.head _))).of_regs rfl
  have hsetwf : ((u.setNode e.node x).setResult r).regs.wf = true :=
    RegFile.setF_wf (m := u.regs) F.BAL_ALERTS.COUNT _ hwf
  refine ⟨⟨r, hr, ?_⟩, ?_, ?_⟩
  · have hfound := State.result_setResult_same (u.setNode e.node x) r
    rw [hr.node, hr.start] at hfound
    rw [State.result, hstay.results]
    exact hfound
  · rw [hstay.only.fld (by decide), State.fld_countBalance_done hsetwf, hset.fld (by decide)]
  · rw [hstay.only.fld (by decide), State.fld_countBalance_incomplete hsetwf, hset.fld (by decide)]

/-! ### Localisation (R167) -/

@[simp] theorem State.draw_bal (s : State) : s.draw.bal = s.bal := by
  obtain ⟨p, hp⟩ := s.record_eq (.random 0 s.free)
  rw [State.draw, hp]

theorem State.setMeter_bal (s : State) (i : Nat) (r : MeterRec) : (s.setMeter i r).bal = s.bal := by
  unfold State.setMeter
  generalize s.regs.setF F.ING_REG_DIRTY.CHUNKS _ = regs
  rfl

/-- Of BALANCE a localisation changes what its node descends to, alone. -/
theorem State.localise_bal {s : State} {n : Nat} {y : List TopoNode} {d : TopoNode}
    (hy : s.topoAt ((s.node n).raising.headD 0) = some y) (hd : topoNode y n = some d) :
    ∃ loc first, (s.localise n).bal =
      (s.setNode n { s.node n with loc := some loc, lastLoc := some loc, first := first }).bal := by
  have hfound : ((s.topoAt ((s.node n).raising.headD 0)).bind fun t => (topoNode t n).map fun a => (t, a)) = some (y, d) := by
    simp only [hy, Option.bind_some, hd, Option.map_some]
  unfold State.localise
  extract_lets w
  split
  · next h => cases hfound.symm.trans h
  next h =>
  cases hfound.symm.trans h
  extract_lets loc ranked top first s1 st s2
  have h1 : s1.bal = s.bal := List.foldlRecOn (motive := fun u : State => u.bal = s.bal) _ _ rfl
    fun u hu _ _ => (u.setMeter_bal _ _).trans hu
  have h2 : s2.bal = (s.setNode n { s.node n with loc := some loc.node, lastLoc := some loc.node, first := first }).bal := by
    have hst : st = s.node n := State.node_of_bal h1 n
    rw [State.setNode_bal s1, State.setNode_bal s, h1, hst]
  refine ⟨loc.node, first, ?_⟩
  split
  · exact h2
  · exact ((NoticesOnly.refl _).lossNotice ..).bal.trans ((State.draw_bal s2).trans h2)

/-! ### The backlog (R164) -/

/-- The flag follows the age of the oldest job, and is posted as it rises: a part of `execBalBacklog`. -/
def State.showBacklog (s : State) (late : Bool) : State :=
  if late = (s.fld F.BAL_STAT.BACKLOG == 1) then s else (s.flag F.BAL_STAT.BACKLOG late).postIf late Ev.BAL_BACKLOG []

theorem exec_balBacklog (s : State) :
    exec .balBacklog s = .next (s.showBacklog (decide (1000 * s.fld F.BAL_BACKLOG.SECONDS < s.oldestJob))) := rfl

theorem State.showBacklog_spec {s : State} (hs : s.regs.wf = true) (late : Bool) :
    (s.showBacklog late).fld F.BAL_STAT.BACKLOG = (if late then 1 else 0) ∧ OnlyRegs [R.BAL_STAT] s (s.showBacklog late) ∧
    (s.showBacklog late).evt.queue = s.evt.queue ++
      (if late ∧ s.fld F.BAL_STAT.BACKLOG ≠ 1 then [mkPost s Ev.BAL_BACKLOG []] else []) := by
  have hlt : s.fld F.BAL_STAT.BACKLOG < 2 := fieldOf_lt _ _ _
  have hok : F.BAL_STAT.BACKLOG.ok = true := by decide +kernel
  have hfld := State.fld_flag_same late hs hok
  have honly : OnlyRegs [R.BAL_STAT] s (s.flag F.BAL_STAT.BACKLOG late) := (OnlyRegs.refl _ s).flag late (.head _)
  unfold State.showBacklog
  split
  · next h =>
    have hone : late = true ↔ s.fld F.BAL_STAT.BACKLOG = 1 := by rw [h, beq_iff_eq]
    refine ⟨?_, .refl _ s, by rw [if_neg fun hc => hc.2 (hone.mp hc.1), List.append_nil]⟩
    by_cases hl : late = true
    · rw [if_pos hl, hone.mp hl]
    · have hne := mt hone.mpr hl
      rw [if_neg hl]
      omega
  · next h =>
    cases late with
    | false =>
      rw [State.postIf_eq, if_neg Bool.false_ne_true]
      exact ⟨hfld, honly, by simp⟩
    | true =>
      refine ⟨hfld, honly.post _ _, ?_⟩
      have hne : s.fld F.BAL_STAT.BACKLOG ≠ 1 := by simpa using h
      rw [State.postIf_eq, if_pos rfl, if_pos ⟨rfl, hne⟩, State.post_evt, mkPost, State.flag_evt, mkPost]

theorem State.age_le_oldestJob {s : State} {j : BalJob} (h : j ∈ s.bal.jobs) : s.now - j.since ≤ s.oldestJob := by
  have hmem : s.now - j.since ∈ (s.bal.jobs.map fun j => s.now - j.since) ++ s.bal.ops.map fun o => s.now - o.2.2 :=
    List.mem_append_left _ (List.mem_map_of_mem h)
  rw [State.oldestJob, List.foldl_eq_foldr]
  exact List.le_max_of_le hmem le_rfl

/-! ### Interval records (R113, R161) -/

section
variable {s : State} {m : List (BitVec 64)} {r : IntervalRecord} (hm : s.headWords 0 = some m)
  (hx : Export.of (messageOf m).type (messageOf m).body = some (.interval r))
include hm hx

theorem exec_intervalRecord_taken {u : State} (hu : u = s.dropHead 0 m.length) : exec .intervalRecord s =
    .next (if s.leg.records.any (fun x => x.mp == r.mp && x.start == r.start) then u
      else ({ u with leg := { u.leg with records :=
        (u.leg.records.filter fun x => decide (60 * s.oldestKept ≤ x.start)) ++ [r] } } : State).pointChanged r) := by
  subst hu
  simp only [exec, execIntervalRecord, State.takeExport_of_head hm hx, if_true]

end

/-! ### A due interval (R155, R164, R165) -/

section
variable {s : State} {n m : Nat} (hj : s.bal.jobs = []) (ho : s.bal.ops = [])
include hj ho

/-- A job that joins an empty queue and leaves it again changes BAL_QUEUE alone. -/
theorem State.endJob_queueJob_frame (hs : Inv s) {u : State} (hu : u = (s.queueJob n m .first).endJob) :
    OnlyRegs [R.BAL_QUEUE] s u ∧ u.regs.wf = true ∧ u.ing = s.ing ∧ u.leg = s.leg := by
  have honly : OnlyRegs [R.BAL_QUEUE] s u := fun a ha => by
    rw [hu, State.onlyRegs_endJob _ a ha, State.queueJob_of_empty hj ho]
    exact RegFile.get_put_other _ (List.ne_of_not_mem_cons ha)
  obtain ⟨regs, hq⟩ := State.queueJob_eq_of_empty hj ho n m .first
  obtain ⟨regs', hend⟩ := (s.queueJob n m .first).endJob_eq
  refine ⟨honly, ?_, by rw [hu, hend, hq], by rw [hu, hend, hq]⟩
  rw [hu]
  exact (State.endJob_keeps (State.queueJob_keeps (Keeps.refl s) n m .first)).regs hs

variable {l : List TopoNode} {e : TopoNode} (ht : s.topoAt m = some l) (he : topoNode l n = some e)
  (hd : s.balanceDue l e m = true)
include ht he hd

theorem State.runJob_due : (s.queueJob n m .first).runJob ⟨n, m, .first, s.now⟩ =
    (s.queueJob n m .first).endJob.firstBalance l e m := by
  have hn : e.node = n := by simpa using List.find?_some he
  have hnone : s.result n m = none := by
    simp only [State.balanceDue, Bool.and_eq_true, Option.isNone_iff_eq_none, hn] at hd
    exact hd.1.2
  obtain ⟨regs, hq⟩ := State.queueJob_eq_of_empty hj ho n m .first
  have hqt : (s.queueJob n m .first).topoAt m = some l := by
    rw [hq, ← ht]
    exact State.topoAt_of_bal rfl rfl rfl m
  have hqr : (s.queueJob n m .first).result n m = none := by
    rw [hq, ← hnone]
    exact State.result_of_results rfl n m
  exact State.runJob_first (j := ⟨n, m, .first, s.now⟩) hqt he rfl hqr

/-- The interval is balanced once, kept with its start, and counted. -/
theorem State.runJob_due_spec (hs : Inv s) {t : State}
    (h : t = (s.queueJob n m .first).runJob ⟨n, m, .first, s.now⟩) :
    (∃ r, FirstResult s l e m r ∧ t.result n m = some r) ∧
    t.fld F.BAL_DONE_CNT.COUNT = min (s.fld F.BAL_DONE_CNT.COUNT + 1) (2 ^ 32 - 1) ∧
    t.fld F.BAL_INCOMPLETE_CNT.COUNT =
      min (s.fld F.BAL_INCOMPLETE_CNT.COUNT + (if s.gated l e m then 0 else 1)) (2 ^ 32 - 1) := by
  have hn : e.node = n := by simpa using List.find?_some he
  have hrun := h.trans (State.runJob_due hj ho ht he hd)
  generalize hu : (s.queueJob n m .first).endJob = u at hrun
  obtain ⟨honly, hwf, hing, hleg⟩ := State.endJob_queueJob_frame hj ho hs hu.symm
  have hpct : u.fld F.BAL_GATE.PCT = s.fld F.BAL_GATE.PCT := honly.fld (by decide)
  obtain ⟨⟨r, hr, hres⟩, hdone, hinc⟩ := State.firstBalance_spec hwf l e m
  rw [hn] at hres
  refine ⟨⟨r, ⟨hr.node, hr.start, hr.balMin, hr.rev, ?_, ?_⟩, ?_⟩, ?_, ?_⟩
  · rw [hr.eRef, State.reference_congr hing hleg]
  · rw [hr.eChild, State.nodeChildren, State.nodeChildren, State.childSum_congr hing hleg hpct]
  · rw [hrun, hres]
  · rw [hrun, hdone, honly.fld (by decide)]
  · rw [hrun, hinc, honly.fld (by decide), State.gated_congr hing hleg hpct]

end

/-- Settles O31, job by job. -/
theorem balanceJobsRunFromTheHeadOfTheQueue : Obligations.BalanceJobsRunFromTheHeadOfTheQueue := by
  refine ⟨?first, ?head, ?gone, ?revision, ?localise, ?notice, ?backlog, ?oldest, ?record⟩
  case first =>
    intro n m l e s hs ht he hd hj ho
    have hn : e.node = n := by simpa using List.find?_some he
    obtain ⟨⟨r, hr, hres⟩, hdone, hinc⟩ := State.runJob_due_spec hj ho ht he hd hs rfl
    exact ⟨_, _, exec_nodeBalance_due ht he hd hj ho, rfl, State.queueJob_of_empty hj ho n m .first,
      ⟨r, hres, hr.node.trans hn, hr.start, hr.balMin, hr.rev, hr.eRef, hr.eChild⟩, hdone, hinc⟩
  case head =>
    intro j l s hj ho
    refine ⟨exec_nodeBalance_gone hj ho, fun hw => ?_, fun hw => ?_, fun hw => ?_, fun n hn => ?_⟩
    · rw [exec_balanceRevision hj ho, if_pos hw]
    · rw [exec_balanceRevision hj ho, if_neg hw]
    · rw [exec_localisation hj ho, if_pos ⟨rfl, hw⟩]
    · rw [exec_localisation hj ho, if_neg (by tauto)]
  case gone =>
    intro j l s hs hj ho ht
    have hjobs : s.bal.jobs.drop 1 = l := by rw [hj, List.drop_one, List.tail_cons]
    obtain ⟨regs, hend⟩ := s.endJob_eq
    rw [hjobs] at hend
    refine ⟨s.endJob, State.runJob_gone ht, by rw [hend], ?_, s.onlyRegs_endJob, by rw [hend]⟩
    rw [State.fld_endJob hs, hjobs, ho, List.length_nil, Nat.add_zero]
  case revision =>
    intro j l x e old s _ ht he hw hr
    exact State.runJob_revision ht he hw hr
  case localise =>
    intro j l x y e d s hj ho hw ht he ha hy hd
    have hjobs : s.endJob.bal.jobs = l := by
      obtain ⟨regs, hend⟩ := s.endJob_eq
      rw [hend, hj, List.drop_one, List.tail_cons]
    obtain ⟨loc, first, hbal⟩ := State.localise_bal (s := s.endJob) (n := j.node) (y := y)
      (by rw [State.node_endJob, State.topoAt_endJob, hy]) hd
    refine ⟨s.endJob.localise j.node, loc, ?_, ?_⟩
    · rw [exec_localisation hj ho, if_pos ⟨rfl, hw⟩, State.runJob_localise ht he hw ha]
    rw [State.node_of_bal hbal, State.node_setNode_same, hbal, State.setNode_bal, State.node_endJob]
    refine ⟨rfl, rfl, ha, hjobs, fun k hk => ?_⟩
    rw [State.node_of_bal hbal, State.node_setNode_other _ _ hk, State.node_endJob]
  case notice =>
    intro h r s hh hr
    have hres : s.result h.1 h.2.1 = some r := (State.result_of_results rfl _ _).trans hr
    simp only [exec, execRevisionNotice, hh, hres]
  case backlog =>
    intro s hs
    exact ⟨_, _, exec_balBacklog s, rfl, State.showBacklog_spec hs _⟩
  case oldest => exact fun j s => State.age_le_oldestJob
  case record =>
    intro r m u s hm hx hu
    have he := exec_intervalRecord_taken hm hx hu
    refine ⟨fun hheld => ?_, fun hnew => ⟨_, ?_, rfl⟩⟩
    · rw [he, if_pos hheld]
    · rw [he, if_neg (ne_true_of_eq_false hnew)]

end Sys2Proof.Machine

/-! A permitted write of BAL_CMD stores NODE and carries out OP (R9, R173). -/

namespace Sys2Proof.Machine

/-! ### Writes of one trigger and one RW field (R8, R9) -/

/-- A write that selects a trigger and an RW field stores the field, with what the register brings with it, and then runs the
trigger. -/
theorem State.writeFields_of_trigger_rw {s : State} {who : Requester} {addr : Nat} {value mask : Word} {r : RegSpec}
    {f g : FieldSpec} (hj : s.judged who addr value mask r = [(f, Cause.OK), (g, Cause.OK)]) (hf : f.acc = .WO)
    (hg : g.acc = .RW) (hm : g.mask &&& mask ≠ 0) :
    s.writeFields who addr value mask r =
      let a := ((s.storeBits addr value (g.mask &&& mask)).afterWrite addr (s.regs.get addr)).runTriggers who addr
        (value &&& mask) (triggerOrder addr [f])
      (a.1, firstCause r.fields (a.2 ++ [(g.lo, Cause.OK)])) := by
  have hrw : takenBits [(f, Cause.OK), (g, Cause.OK)] mask (fun a => a == .RW) = g.mask &&& mask := by
    simp [takenBits, hf, hg, Cause.OK]
  have hbits : ∀ p : Access → Bool, p .WO = false → p .RW = false →
      takenBits [(f, Cause.OK), (g, Cause.OK)] mask p = 0 := fun p h1 h2 => by
    simp [takenBits, hf, hg, h1, h2]
  have hnew : ∀ w : Word, w &&& ~~~(value &&& (0 : Word)) = w := fun w => by
    have hzero : value &&& (0 : Word) = 0#32 := BitVec.and_zero
    rw [hzero, BitVec.not_zero, BitVec.and_allOnes]
  have hfails : ([(f, Cause.OK), (g, Cause.OK)].any fun e => e.2 != 0) = false := rfl
  have hwo : ([(f, Cause.OK), (g, Cause.OK)].filter fun e => e.1.acc == .WO && e.2 == 0) = [(f, Cause.OK)] := by
    simp [hf, hg, Cause.OK]
  have hrest : ([(f, Cause.OK), (g, Cause.OK)].filter fun e => !(e.1.acc == .WO && e.2 == 0)) = [(g, Cause.OK)] := by
    simp [hf, hg, Cause.OK]
  simp only [State.writeFields_eq, hj, hfails, hrw, hbits (fun a => a == .W1C) rfl rfl, hbits (fun a => a == .RWS) rfl rfl,
    hnew, hwo, hrest, if_neg hm, Bool.false_and, Bool.false_eq_true, if_false, if_true, List.map_singleton, State.storeBits]

/-- Bits of a word that a mask selects read the same after the word is cut to the mask. -/
theorem fieldOf_and_mask {mask : Word} {hi lo : Nat} (h : ∀ i ≤ hi, lo ≤ i → mask.getLsbD i = true) (hlo : lo ≤ hi)
    (value : Word) : fieldOf (value &&& mask) hi lo = fieldOf value hi lo := by
  have hcut : mergeWord 0 value mask = value &&& mask := by simp [mergeWord]
  rw [← hcut]
  exact fieldOf_mergeWord h hlo 0 value

/-! ### BAL_CMD -/

/-- The field OP of BAL_CMD. -/
def balOpField : FieldSpec := ⟨23, 16, .WO, 0, .iv [(0, 4)]⟩

/-- The field NODE of BAL_CMD. -/
def balNodeField : FieldSpec := ⟨15, 0, .RW, 0, .all⟩

/-- BAL_CMD: the trigger OP, and NODE. -/
def balCmdReg : RegSpec := ⟨R.BAL_CMD, [], false, [balOpField, balNodeField]⟩

theorem findReg_balCmd : findReg R.BAL_CMD = some balCmdReg := by decide +kernel

/-- The bits of OP and NODE. -/
def balCmdMask : Word := 0x00FFFFFF

/-- The word that asks for an operation on a node. -/
def balCmdWord (op n : Nat) : Word := BitVec.ofNat 32 (op * 65536 + n)

section
variable {op n : Nat} (hn : n < 65536)
include hn

theorem fieldOf_balCmdWord_op (hop : op < 256) : fieldOf (balCmdWord op n &&& balCmdMask) 23 16 = op := by
  rw [fieldOf_and_mask (by decide) (by decide)]
  simp only [fieldOf, balCmdWord, BitVec.toNat_ofNat]
  omega

theorem fieldOf_balCmdWord_node : fieldOf (balCmdWord op n) 15 0 = n := by
  simp only [fieldOf, balCmdWord, BitVec.toNat_ofNat]
  omega

end

/-- Both fields are taken where no rule locks the register. -/
theorem State.judged_balCmd {s : State} (hl : s.lockMask R.BAL_CMD = 0) (who : Requester) (value : Word) :
    s.judged who R.BAL_CMD value balCmdMask balCmdReg = [(balOpField, Cause.OK), (balNodeField, Cause.OK)] := by
  have hsel : (balCmdReg.fields.filter fun f =>
      (balCmdMask &&& f.mask) != 0 && f.acc != .RO && f.acc != .ROS && f.acc != .RC) = [balOpField, balNodeField] := rfl
  have hown : ∀ lo w, s.ownCause R.BAL_CMD lo w = Cause.OK := fun _ _ => rfl
  have hne : R.BAL_CMD ≠ R.MET_REF_CTL := by decide
  rw [State.judged, hsel, List.map_cons, List.map_singleton, State.fieldCause_of_trigger hl rfl hne]
  simp [State.fieldCause, hl, hown, balNodeField, Range.holds]

/-- A new value of NODE has no effect of its own. -/
theorem State.afterWrite_balCmd (s : State) (old : Word) : s.afterWrite R.BAL_CMD old = s := by
  have hnotice : arrayIndex (R.HOST_NOTICE_WIN 0) 4 8 R.BAL_CMD = none := rfl
  have hlow : arrayIndex (R.PPY_LOW 0) 4 2 R.BAL_CMD = none := rfl
  have hne : R.BAL_CMD ≠ R.ING_KEYCACHE ∧ R.BAL_CMD ≠ R.ARB_SEED ∧ R.BAL_CMD ≠ R.ARB_CTL ∧
      R.BAL_CMD ≠ R.RFM_FLOOD ∧ R.BAL_CMD ≠ R.RFM_LPL ∧ R.BAL_CMD ≠ R.PPY_KEYPAD := by decide
  simp [State.afterWrite, hnotice, hlow, hne]

/-- The state that carries out an operation of BAL_CMD: NODE is stored, after the write has entered the ledger. -/
def State.balEntered (s : State) (who : Requester) (op n : Nat) : State :=
  (entered s who R.BAL_CMD (balCmdWord op n) balCmdMask).storeBits R.BAL_CMD (balCmdWord op n) 0xFFFF

theorem State.balEntered_eq (s : State) (who : Requester) (op n : Nat) :
    s.balEntered who op n =
      { entered s who R.BAL_CMD (balCmdWord op n) balCmdMask with regs := (s.balEntered who op n).regs } := by
  rw [State.balEntered, State.storeBits]

/-- The write leaves the topology, BALANCE and the pace alone. -/
theorem State.balEntered_bal (s : State) (who : Requester) (op n : Nat) :
    (s.balEntered who op n).topology = s.topology ∧ (s.balEntered who op n).node n = s.node n ∧
      (s.balEntered who op n).bal = s.bal ∧ (s.balEntered who op n).now = s.now := by
  obtain ⟨p, hp⟩ := entered_eq s who R.BAL_CMD (balCmdWord op n) balCmdMask
  have he := s.balEntered_eq who op n
  rw [hp] at he
  generalize s.balEntered who op n = v at he
  generalize v.regs = m at he
  subst he
  exact ⟨rfl, rfl, rfl, rfl⟩

section
variable {s : State} {who : Requester} {op n : Nat}

theorem State.regs_entered (s : State) (who : Requester) (addr : Nat) (value mask : Word) :
    (entered s who addr value mask).regs = s.regs := by
  obtain ⟨p, hp⟩ := entered_eq s who addr value mask
  rw [hp]

theorem State.onlyRegs_balEntered : OnlyRegs [R.BAL_CMD] s (s.balEntered who op n) := fun a ha =>
  (State.onlyRegs_storeBits _ _ _ _ a ha).trans (by rw [State.regs_entered])

theorem State.balEntered_wf (hs : Inv s) : (s.balEntered who op n).regs.wf = true := by
  have hwf : (entered s who R.BAL_CMD (balCmdWord op n) balCmdMask).regs.wf = true := by
    rw [State.regs_entered]
    exact hs
  exact RegFile.put_wf R.BAL_CMD _ hwf

theorem State.fld_balEntered_node (hs : Inv s) (hn : n < 65536) :
    (s.balEntered who op n).fld F.BAL_CMD.NODE = n := by
  have hwf : (entered s who R.BAL_CMD (balCmdWord op n) balCmdMask).regs.wf = true := by
    rw [State.regs_entered]
    exact hs
  have hfield : balNodeField ∈ balCmdReg.fields := by decide
  calc (s.balEntered who op n).fld F.BAL_CMD.NODE
    _ = fieldOf ((s.balEntered who op n).regs.get R.BAL_CMD) 15 0 := rfl
    _ = fieldOf (mergeWord _ (balCmdWord op n) 0xFFFF) 15 0 := by
      rw [State.balEntered, State.storeBits, RegFile.get_put_same _ hwf findReg_balCmd]
      exact fieldOf_cut hfield _ le_rfl
    _ = fieldOf (balCmdWord op n) 15 0 := fieldOf_mergeWord (by decide) (by decide) _ _
    _ = n := fieldOf_balCmdWord_node hn

/-- A permitted write of BAL_CMD carries out its operation, and its requester is told the cause. -/
theorem State.balWrite_permitted (hs : Inv s) (hm : MayWrite s who R.BAL_CMD) (hop : op < 256) (hn : n < 65536) :
    s.balWrite who op n = (((s.balEntered who op n).balCommand op n).1).send
      (.regCause who R.BAL_CMD ((s.balEntered who op n).balCommand op n).2) := by
  have hl : (entered s who R.BAL_CMD (balCmdWord op n) balCmdMask).lockMask R.BAL_CMD = 0 := by
    obtain ⟨p, hp⟩ := entered_eq s who R.BAL_CMD (balCmdWord op n) balCmdMask
    rw [hp]
    exact hm.2.1
  have hbits : balNodeField.mask &&& balCmdMask = 0xFFFF := by decide
  have horder : triggerOrder R.BAL_CMD [balOpField] = [balOpField] := rfl
  have hcause : ∀ c, firstCause balCmdReg.fields [(balOpField.lo, c), (balNodeField.lo, Cause.OK)] = c := fun c => by
    by_cases hc : c = 0 <;> simp [firstCause, balCmdReg, balOpField, balNodeField, hc, Cause.OK]
  have htrigger : (s.balEntered who op n).trigger who R.BAL_CMD balOpField.lo
      (fieldOf (balCmdWord op n &&& balCmdMask) balOpField.hi balOpField.lo) = (s.balEntered who op n).balCommand op n := by
    rw [State.trigger, if_pos rfl, State.fld_balEntered_node hs hn]
    exact congrArg (State.balCommand _ · n) (fieldOf_balCmdWord_op hn hop)
  have hw := State.writeFields_of_trigger_rw (State.judged_balCmd hl who (balCmdWord op n)) rfl rfl (by decide)
  rw [hbits, State.afterWrite_balCmd, horder, ← State.balEntered] at hw
  simp only [State.runTriggers, List.foldl_cons, List.foldl_nil, htrigger, List.nil_append, List.singleton_append,
    hcause] at hw
  have hmod : n % 65536 = n := Nat.mod_eq_of_lt hn
  rw [State.balWrite, hmod]
  exact State.writeFor_entered findReg_balCmd hm hw

end

end Sys2Proof.Machine

/-! The operations of BAL_CMD on a node: what queues or refuses one, its turn, and what it changes of the nodes (R173). -/

namespace Sys2Proof.Machine

/-! ### An operation is queued or refused (R173) -/

/-- An operation waits behind those already queued, with STATE 1: a part of `balCommand`. -/
def State.queueOp (s : State) (op n : Nat) : State :=
  (({ s with bal := { s.bal with ops := s.bal.ops ++ [(op, n, s.now)] } } : State).setF F.BAL_CMD_STAT.STATE 1).showJobs

theorem State.queueOp_eq (s : State) (op n : Nat) : s.queueOp op n =
    { s with regs := (s.queueOp op n).regs, bal := { s.bal with ops := s.bal.ops ++ [(op, n, s.now)] } } := by
  rw [State.queueOp, State.showJobs, State.setF, State.setF]

theorem State.onlyRegs_queueOp (s : State) (op n : Nat) : OnlyRegs [R.BAL_CMD_STAT, R.BAL_QUEUE] s (s.queueOp op n) :=
  (((OnlyRegs.refl _ s).of_regs rfl).setF (f := F.BAL_CMD_STAT.STATE) _ (.head _)).setF (f := F.BAL_QUEUE.JOBS) _
    (.tail _ (.head _))

theorem State.fld_showJobs_other (s : State) {f : FieldRef} (h : f.addr ≠ R.BAL_QUEUE) : s.showJobs.fld f = s.fld f :=
  RegFile.fld_setF_reg (f := F.BAL_QUEUE.JOBS) _ _ h

theorem State.fld_queueOp_state {s : State} (hs : s.regs.wf = true) (op n : Nat) :
    (s.queueOp op n).fld F.BAL_CMD_STAT.STATE = 1 :=
  (State.fld_showJobs_other _ (by decide)).trans (RegFile.fld_setF_same (f := F.BAL_CMD_STAT.STATE) 1 hs (by decide +kernel))

theorem State.fld_queueOp_jobs {s : State} (hs : s.regs.wf = true) (op n : Nat) :
    (s.queueOp op n).fld F.BAL_QUEUE.JOBS = min (s.bal.jobs.length + s.bal.ops.length + 1) 0xFFFFFF := by
  have hwf : (s.regs.setF F.BAL_CMD_STAT.STATE 1).wf = true := RegFile.setF_wf _ _ hs
  rw [State.queueOp, State.fld_showJobs hwf, State.setF_bal, List.length_append, List.length_singleton, Nat.add_assoc]

section
variable {s : State} {op n : Nat}

theorem State.balCommand_unknown (hop : 1 ≤ op ∧ op ≤ 4) (hn : (topoNode s.topology n).isSome = false) :
    s.balCommand op n = ((s.setF F.BAL_CMD_STAT.CAUSE Cause.NODE_UNKNOWN).setF F.BAL_CMD_STAT.STATE 3, Cause.NODE_UNKNOWN) := by
  have hrange : ¬(op = 0 ∨ 4 < op) := by omega
  have hnone : (topoNode s.topology n).isNone = true := by simpa using hn
  rw [State.balCommand, if_neg hrange, if_pos hnone, State.balAnswer, if_neg (by decide)]

variable (hn : (topoNode s.topology n).isSome = true)
include hn

theorem State.balCommand_noAlert (h3 : op = 3) (ha : (s.node n).alert ≠ some false) :
    s.balCommand op n = ((s.setF F.BAL_CMD_STAT.CAUSE Cause.REG_RANGE).setF F.BAL_CMD_STAT.STATE 3, Cause.REG_RANGE) := by
  have hrange : ¬(op = 0 ∨ 4 < op) := by omega
  have hsome : ¬(topoNode s.topology n).isNone = true := by simpa [Option.isSome_iff_ne_none] using hn
  rw [State.balCommand, if_neg hrange, if_neg hsome, if_pos ⟨h3, ha⟩, State.balAnswer, if_neg (by decide)]

theorem State.balCommand_queued (hop : 1 ≤ op ∧ op ≤ 4) (ha : op = 3 → (s.node n).alert = some false) :
    s.balCommand op n = (s.queueOp op n, Cause.OK) := by
  have hrange : ¬(op = 0 ∨ 4 < op) := by omega
  have hsome : ¬(topoNode s.topology n).isNone = true := by simpa [Option.isSome_iff_ne_none] using hn
  rw [State.balCommand, if_neg hrange, if_neg hsome, if_neg (fun h => h.2 (ha h.1)), State.queueOp]

end

/-- The four operations are those that BAL_CMD takes, each a write of its number. -/
theorem exec_balOperation {who : Requester} {n : Nat} {row : Nat × Instr}
    (h : row ∈ ([(1, Instr.rebase who n), (2, .clearAlert who n), (3, .relocate who n), (4, .relearn who n)] :
      List (Nat × Instr))) :
    (1 ≤ row.1 ∧ row.1 ≤ 4) ∧ ∀ s, exec row.2 s = .next (s.balWrite who row.1 n) := by
  simp only [List.mem_cons, List.not_mem_nil, or_false] at h
  rcases h with rfl | rfl | rfl | rfl <;> exact ⟨⟨by simp, by simp⟩, fun _ => rfl⟩

/-! ### The turn of an operation -/

/-- Each operation does what its number says, and is taken. -/
theorem State.balOp_row {s : State} {n : Nat} {row : Nat × (State → State)}
    (h : row ∈ ([(1, fun v : State => v.rebase n), (2, fun v => v.leaveAlert n 3), (3, fun v => v.localise n),
      (4, fun v => v.relearn n)] : List (Nat × (State → State)))) (ha : row.1 = 3 → (s.node n).alert = some false) :
    s.balOp row.1 n = (row.2 s, Cause.OK) := by
  simp only [List.mem_cons, List.not_mem_nil, or_false] at h
  rcases h with rfl | rfl | rfl | rfl
  · rfl
  · rfl
  · simp only [State.balOp, ha rfl, if_true, Nat.reduceEqDiff, if_false]
  · rfl

/-- The one operation that waits runs, ends with STATE 2 and leaves the queue. -/
theorem State.runOps_single {s u : State} {op n pace : Nat} (ho : s.bal.ops = [(op, n, pace)])
    (hu : s.balOp op n = (u, Cause.OK)) :
    s.runOps = ({ u.setF F.BAL_CMD_STAT.STATE 2 with
      bal := { (u.setF F.BAL_CMD_STAT.STATE 2).bal with ops := [] } } : State).showJobs := by
  simp only [State.runOps, ho, List.foldl_cons, List.foldl_nil, hu, State.balAnswer, if_true, List.isEmpty_cons,
    Bool.false_eq_true, if_false]

/-! ### What an operation changes of the nodes -/

theorem State.node_rebase_same (s : State) (n : Nat) :
    (s.rebase n).node n = { (s.leaveAlert n 3).node n with mu := ⟨0, 0⟩, sigma2 := ⟨0, 0⟩, statN := 0 } :=
  State.node_setNode_same ..

theorem State.node_rebase_other (s : State) {n k : Nat} (h : k ≠ n) : (s.rebase n).node k = s.node k :=
  (State.node_setNode_other _ _ h).trans (s.node_leaveAlert_other 3 h)

/-- Settles O32: the write and its three answers, the turn of each operation, and what it changes of the nodes. -/
theorem balanceCommandsActOnTheirNode : Obligations.BalanceCommandsActOnTheirNode := by
  refine ⟨fun who n s hs hn hm row hrow => ?write, fun n pace s hs row hrow ho ha => ?turn, fun n s => ?nodes⟩
  case write =>
    obtain ⟨hop, hexec⟩ := exec_balOperation hrow
    have hop256 : row.1 < 256 := by omega
    have hwf := State.balEntered_wf (who := who) (op := row.1) (n := n) hs
    have honly : OnlyRegs [R.BAL_CMD] s (s.balEntered who row.1 n) := State.onlyRegs_balEntered
    obtain ⟨htopo, hnode, hbal, hnow⟩ := s.balEntered_bal who row.1 n
    have hx := hexec s
    rw [State.balWrite_permitted hs hm hop256 hn] at hx
    refine ⟨s.balEntered who row.1 n, honly, State.fld_balEntered_node hs hn, s.balEntered_eq who row.1 n,
      fun hin ha => ?_, fun hout => ?_, fun hin h3 ha => ?_⟩
    · rw [State.balCommand_queued (htopo ▸ hin) hop (hnode ▸ ha)] at hx
      have hq := (s.balEntered who row.1 n).queueOp_eq row.1 n
      have hjobs := State.fld_queueOp_jobs hwf row.1 n
      rw [hbal] at hjobs
      rw [hbal, hnow] at hq
      refine ⟨_, _, hx, rfl, hq, State.fld_queueOp_state hwf _ _, hjobs, fun a ha => ?_⟩
      rw [State.onlyRegs_queueOp _ _ _ a fun h => ha (.tail _ h), honly a fun h => ha (List.mem_singleton.mp h ▸ .head _)]
    · rwa [State.balCommand_unknown hop (htopo ▸ hout)] at hx
    · rwa [State.balCommand_noAlert (htopo ▸ hin) h3 (hnode ▸ ha)] at hx
  case turn =>
    have hop := State.balOp_row hrow ha
    have hrun := State.runOps_single ho hop
    have hwf : (row.2 s).regs.wf = true := by
      have hk := State.balOp_keeps (Keeps.refl s) row.1 n
      rw [hop] at hk
      exact hk.regs hs
    refine ⟨_, rfl, hrun, ?_⟩
    rw [hrun, State.fld_showJobs_other _ (by decide)]
    exact RegFile.fld_setF_same (f := F.BAL_CMD_STAT.STATE) 2 hwf (by decide +kernel)
  case nodes =>
    exact ⟨s.node_rebase_same n, s.alert_leaveAlert n 3, State.node_setNode_same ..,
      fun k hk => ⟨State.node_setNode_other _ _ hk, s.node_rebase_other hk, s.node_leaveAlert_other 3 hk⟩,
      fun h => State.leaveAlert_of_none h 3⟩

end Sys2Proof.Machine

/-! Device time: a step that is marked and what the tariffs make of it, the quality of time, and the comparison with the RTC
(R193, R194, R420, R422, R472). -/

namespace Sys2Proof.Machine

/-! ### Signed fields (R5) -/

/-- What a signed field reads after a write of a value that it holds. -/
theorem RegFile.fldInt_setFInt {m : RegFile} {f : FieldRef} {v : Int} (hm : m.wf = true) (hf : f.ok = true)
    (hlo : -(2 : Int) ^ (f.hi - f.lo) ≤ v) (hhi : v < (2 : Int) ^ (f.hi - f.lo)) : (m.setFInt f v).fldInt f = v := by
  have hfld := RegFile.fld_setF_same (v % (2 : Int) ^ (f.hi - f.lo + 1)).toNat hm hf
  have hpow : (2 : Int) ^ (f.hi - f.lo + 1) = 2 * 2 ^ (f.hi - f.lo) := by rw [pow_succ, mul_comm]
  have hnonneg := Int.emod_nonneg v (b := (2 : Int) ^ (f.hi - f.lo + 1)) (by positivity)
  have hread : (((m.setFInt f v).fld f : Nat) : Int) = v % 2 ^ (f.hi - f.lo + 1) := by
    rw [RegFile.setFInt, hfld]
    push_cast
    rw [Int.toNat_of_nonneg hnonneg, Int.emod_emod_of_dvd _ (dvd_refl _)]
  unfold RegFile.fldInt
  dsimp only
  rw [Nat.add_sub_cancel]
  rcases lt_or_ge v 0 with hneg | hpos
  · have hval : v % 2 ^ (f.hi - f.lo + 1) = v + 2 ^ (f.hi - f.lo + 1) := by
      rw [← Int.add_emod_right, Int.emod_eq_of_lt (by omega) (by omega)]
    rw [if_neg, hread, hval, add_sub_cancel_right]
    zify
    omega
  · have hval : v % 2 ^ (f.hi - f.lo + 1) = v := Int.emod_eq_of_lt hpos (by omega)
    rw [if_pos, hread, hval]
    zify
    omega

/-! ### Steps (R420) -/

section
variable {s : State} (bad : List Nat)

theorem exec_timeStep_due (hq : s.pace.quantum = 0) (hstep : s.clk.step.isSome = true) (hcut : s.power.cutDue = false)
    (hoff : s.portsOff = false) : exec (.timeStep bad) s = .next (s.toTar s.qtyPlan false bad).takeStep :=
  congrArg Host.Outcome.next (if_pos ⟨hq, hstep, ne_true_of_eq_false hcut, ne_true_of_eq_false hoff⟩)

theorem exec_timeStep_not_due (h : s.pace.quantum ≠ 0 ∨ s.clk.step = none ∨ s.power.cutDue = true ∨ s.portsOff = true) :
    exec (.timeStep bad) s = .next s := by
  refine congrArg Host.Outcome.next (if_neg ?_)
  rintro ⟨hq, hstep, hcut, hoff⟩
  rcases h with h | h | h | h
  · exact h hq
  · rw [h] at hstep
    cases hstep
  · exact hcut h
  · exact hoff h

/-- A boundary whose metering is done has nothing left to do before the step. -/
theorem State.toTar_of_not_met (h : s.qty.stage ≠ .met) (plan : QtyPlan) (final : Bool) : s.toTar plan final bad = s :=
  if_neg h

theorem State.takeStep_of_marked {theta : Int} {x : TimeSource} (h : s.clk.step = some (theta, x)) :
    s.takeStep = (s.stepTime theta x).legalStep := by
  rw [State.takeStep, h]

end

/-! ### The RTC (R472) -/

theorem ok_rtcValid : F.CLK_STAT.RTC_VALID.ok = true := by decide +kernel

theorem State.onlyRegs_setRtc (s : State) : OnlyRegs [R.CLK_STAT] s s.setRtc :=
  (OnlyRegs.refl _ s).flag (f := F.CLK_STAT.RTC_VALID) true (.head _)

theorem State.fld_setRtc_valid {s : State} (hs : s.regs.wf = true) : s.setRtc.fld F.CLK_STAT.RTC_VALID = 1 :=
  RegFile.fld_flag_same true hs ok_rtcValid

/-! ### What a step changes (R420, R472) -/

section
variable (s : State) (theta : Int) (x : TimeSource)

/-- Device time after a step. -/
def State.steppedNs : Nat := ((s.clk.ns : Int) + theta).toNat

/-- A step as it is counted, before it is recorded and the RTC follows: a part of `stepTime`. -/
def State.stepCounted : State :=
  { s with
    clk := { s.clk with ns := s.steppedNs theta, step := none, slew := 0 }
    regs := s.regs.bump F.CLK_STEP_CNT.COUNT 1 }

theorem State.stepCounted_regs : (s.stepCounted theta).regs = s.regs.bump F.CLK_STEP_CNT.COUNT 1 := rfl

/-- What is recorded of a step (R336). -/
def State.stepPayload : Payload :=
  [b8 s.timeMs, b8 (s.stepCounted theta).timeMs, b8 x.code, b1 (s.stepCounted theta).qualityNow]

theorem State.stepTime_eq : s.stepTime theta x =
    ((s.stepCounted theta).post Ev.TIME_SET (s.stepPayload theta x)).setRtc := rfl

theorem State.stepTime_clk : (s.stepTime theta x).clk = { s.clk with
    ns := s.steppedNs theta, step := none, slew := 0, rtcSet := some (s.steppedNs theta, s.now) } := rfl

theorem State.stepTime_evt : (s.stepTime theta x).evt = { s.evt with
    queue := s.evt.queue ++ [mkPost s Ev.TIME_SET (s.stepPayload theta x)] } := rfl

theorem State.stepTime_frame : s.stepTime theta x = { s with
    regs := (s.stepTime theta x).regs, clk := (s.stepTime theta x).clk, evt := (s.stepTime theta x).evt } := rfl

theorem State.onlyRegs_stepTime : OnlyRegs [R.CLK_STEP_CNT, R.CLK_STAT] s (s.stepTime theta x) :=
  ((OnlyRegs.refl _ s).bump (f := F.CLK_STEP_CNT.COUNT) 1 (.head _)).flag (f := F.CLK_STAT.RTC_VALID) true (.tail _ (.head _))

variable {s}

theorem State.stepCounted_wf (hs : Inv s) : (s.stepCounted theta).regs.wf = true := by
  rw [State.stepCounted_regs]
  exact RegFile.bump_wf _ _ hs

theorem State.fld_stepCounted_count (hs : Inv s) :
    (s.stepCounted theta).fld F.CLK_STEP_CNT.COUNT = min (s.fld F.CLK_STEP_CNT.COUNT + 1) 0xFFFF := by
  rw [State.fld_eq, State.stepCounted_regs, RegFile.fld_bump_same 1 hs (by decide +kernel)]
  rfl

theorem State.fld_stepTime_count (hs : Inv s) :
    (s.stepTime theta x).fld F.CLK_STEP_CNT.COUNT = min (s.fld F.CLK_STEP_CNT.COUNT + 1) 0xFFFF := by
  rw [State.stepTime_eq, (State.onlyRegs_setRtc _).fld (by decide), State.fld_post, State.fld_stepCounted_count theta hs]

theorem State.fld_stepTime_valid (hs : Inv s) : (s.stepTime theta x).fld F.CLK_STAT.RTC_VALID = 1 := by
  have hpost := State.post_regs (s.stepCounted theta) Ev.TIME_SET (s.stepPayload theta x)
  rw [State.stepTime_eq]
  exact State.fld_setRtc_valid (hpost ▸ State.stepCounted_wf theta hs)

end

/-! ### What the tariffs make of a step (R193, R194) -/

section
variable {s : State}

theorem State.legalStep_stopped (h : s.fld F.LEG_STAT.RUN = 0) : s.legalStep = s := if_pos h

variable (hrun : s.fld F.LEG_STAT.RUN = 1)
include hrun

theorem State.legalStep_back (h : s.clk.ns + s.fld F.TAR_SETBACK.SECONDS * 1000000000 < s.clk.last) :
    s.legalStep = s.setBack s.clk.last := by
  rw [State.legalStep, if_neg (by omega), if_pos h]

section
variable (hback : s.clk.last ≤ s.clk.ns + s.fld F.TAR_SETBACK.SECONDS * 1000000000)
include hback

theorem State.legalStep_none (h : s.timeMs ≤ s.tar.hwm + 1) : s.legalStep = s := by
  rw [State.legalStep, if_neg (by omega), if_neg (by omega), if_neg (by omega)]

theorem State.legalStep_forward (h : s.tar.hwm + 1 < s.timeMs) :
    s.legalStep = ((List.range 12).foldl State.stepInterval s).tarForward := by
  rw [State.legalStep, if_neg (by omega), if_neg (by omega), if_pos h]

end

end

/-! ### The quality of time (R422) -/

section
variable (s : State)

theorem State.qualityNow_le : s.qualityNow ≤ 3 := by
  unfold State.qualityNow
  dsimp only
  repeat' split
  all_goals omega

/-- The quality is SYNCED where a source is followed that may synchronise, and device time stands at it (R422, R423). -/
theorem State.qualityNow_eq_zero_iff : s.qualityNow = 0 ↔ ∃ x, s.followed = some x ∧ s.clk.slew.natAbs ≤ 1000000 ∧
    s.clk.step = none ∧ ¬(x = .host ∧ s.clk.hostHeld = true) := by
  have hsynced : (s.followed.isSome && (decide (s.clk.slew.natAbs ≤ 1000000) && s.clk.step.isNone) &&
      !(s.followed == some .host && s.clk.hostHeld)) = true ↔ ∃ x, s.followed = some x ∧
        s.clk.slew.natAbs ≤ 1000000 ∧ s.clk.step = none ∧ ¬(x = .host ∧ s.clk.hostHeld = true) := by
    cases s.followed <;> simp [and_assoc, imp_iff_not_or]
  rw [← hsynced]
  unfold State.qualityNow
  dsimp only
  split
  · next h => exact iff_of_true rfl h
  · next h =>
    refine iff_of_false ?_ h
    repeat' split
    all_goals decide

/-- The sample that is followed, kept as the SYNCED one while the quality is SYNCED: a part of `execTimeQualityChange`. -/
def State.keepSynced : State :=
  { s with clk := { s.clk with synced := if s.qualityNow = 0 then s.lastFollowed else s.clk.synced } }

/-- The quality as it moves and is recorded: a part of `execTimeQualityChange`. -/
def State.moveQuality : State :=
  (s.keepSynced.setF F.CLK_QUAL.QUALITY s.qualityNow).post Ev.TIME_QUALITY [b1 s.qualityNow, b1 (s.fld F.CLK_QUAL.QUALITY)]

theorem State.onlyRegs_moveQuality : OnlyRegs [R.CLK_QUAL, R.CLK_STAT] s s.moveQuality :=
  (OnlyRegs.refl _ s).setF (f := F.CLK_QUAL.QUALITY) s.qualityNow (.head _)

theorem State.queue_moveQuality : s.moveQuality.evt.queue =
    s.evt.queue ++ [mkPost s Ev.TIME_QUALITY [b1 s.qualityNow, b1 (s.fld F.CLK_QUAL.QUALITY)]] := rfl

variable {s}

theorem State.moveQuality_regs (s : State) : s.moveQuality.regs = s.regs.setF F.CLK_QUAL.QUALITY s.qualityNow := rfl

theorem State.moveQuality_wf (hs : Inv s) : s.moveQuality.regs.wf = true := by
  rw [State.moveQuality_regs]
  exact RegFile.setF_wf _ _ hs

theorem State.fld_moveQuality (hs : Inv s) : s.moveQuality.fld F.CLK_QUAL.QUALITY = s.qualityNow := by
  rw [State.fld_eq, State.moveQuality_regs, RegFile.fld_setF_same _ hs (by decide +kernel)]
  exact Nat.mod_eq_of_lt (Nat.lt_succ_of_le s.qualityNow_le)

theorem exec_timeQualityChange_same (h : s.qualityNow = s.fld F.CLK_QUAL.QUALITY) :
    exec .timeQualityChange s = .next s.keepSynced := if_pos h

theorem exec_timeQualityChange_synced (h : s.qualityNow ≠ s.fld F.CLK_QUAL.QUALITY) (h0 : s.qualityNow = 0) :
    exec .timeQualityChange s = .next s.moveQuality.setRtc.compareFromNow :=
  (if_neg h).trans (congrArg Host.Outcome.next (if_pos h0))

theorem exec_timeQualityChange_other (h : s.qualityNow ≠ s.fld F.CLK_QUAL.QUALITY) (h0 : s.qualityNow ≠ 0) :
    exec .timeQualityChange s = .next s.moveQuality :=
  (if_neg h).trans (congrArg Host.Outcome.next (if_neg h0))

end

/-! ### The comparison with the RTC (R422, R472) -/

section
variable {s : State} (trim : Int)

/-- A field of a register that is not written reads as before, as a signed one. -/
theorem RegFile.fldInt_setF_reg (m : RegFile) {f g : FieldRef} (v : Nat) (h : g.addr ≠ f.addr) :
    (m.setF f v).fldInt g = m.fldInt g := by
  rw [RegFile.fldInt, RegFile.fld_setF_reg m v h, RegFile.fldInt]

/-- The registers as a comparison leaves them: a part of `execRtcCompare`. -/
def RegFile.compared (m : RegFile) (trim : Int) : RegFile :=
  (m.setFInt F.CLK_RTC_TRIM.PPB (satWord trim)).flag F.CLK_STAT.RTC_VALID true

/-- The RTC follows a comparison, and the next one begins its 3,600 s: a part of `execRtcCompare`. -/
def State.compared (s : State) (trim : Int) : State :=
  { s with
    regs := s.regs.compared trim
    clk := { s.clk with rtcSet := some (s.clk.ns, s.now), comparedAt := s.now } }

theorem State.compareFromNow_setRtc (s : State) (r : RegFile) : ({ s with regs := r } : State).setRtc.compareFromNow =
    { s with
      regs := r.flag F.CLK_STAT.RTC_VALID true
      clk := { s.clk with rtcSet := some (s.clk.ns, s.now), comparedAt := s.now } } := rfl

theorem exec_rtcCompare_waits (h : s.fld F.CLK_QUAL.QUALITY ≠ 0 ∨ s.now < s.clk.comparedAt + 3600000) :
    exec (.rtcCompare trim) s = .next s :=
  congrArg Host.Outcome.next (if_neg fun hdue => h.elim (· hdue.1) fun hlt => not_le.mpr hlt hdue.2)

theorem exec_rtcCompare_due (hq : s.fld F.CLK_QUAL.QUALITY = 0) (h : s.clk.comparedAt + 3600000 ≤ s.now) :
    exec (.rtcCompare trim) s = .next (s.compared trim) :=
  congrArg Host.Outcome.next ((if_pos ⟨hq, h⟩).trans (s.compareFromNow_setRtc _))

theorem State.onlyRegs_compared (s : State) : OnlyRegs [R.CLK_RTC_TRIM, R.CLK_STAT] s (s.compared trim) :=
  (((OnlyRegs.refl _ s).setF (f := F.CLK_RTC_TRIM.PPB) _ (.head _)).flag (f := F.CLK_STAT.RTC_VALID) true
    (.tail _ (.head _))).of_regs rfl

theorem satWord_bounds (v : Int) : -2 ^ 31 ≤ satWord v ∧ satWord v < 2 ^ 31 := by
  unfold satWord clampInt
  split
  · omega
  · split <;> omega

section
variable {m : RegFile} (hm : m.wf = true)
include hm

/-- The trim reads as the drift measured, clamped to its field. -/
theorem RegFile.fldInt_compared : (m.compared trim).fldInt F.CLK_RTC_TRIM.PPB = satWord trim := by
  rw [RegFile.compared, RegFile.flag, RegFile.fldInt_setF_reg _ _ (by decide)]
  exact RegFile.fldInt_setFInt hm (by decide +kernel) (satWord_bounds trim).1 (satWord_bounds trim).2

theorem RegFile.fld_compared_valid : (m.compared trim).fld F.CLK_STAT.RTC_VALID = 1 :=
  RegFile.fld_flag_same true (RegFile.setFInt_wf _ _ hm) ok_rtcValid

end

end

/-! ### The statement -/

/-- A marked step as a boundary takes it (R420, R472). -/
theorem exec_timeStep_outcome (bad : List Nat) {theta : Int} {x : TimeSource} {s : State} (hq : s.pace.quantum = 0)
    (hstep : s.clk.step = some (theta, x)) (hstage : s.qty.stage ≠ .met) (hcut : s.power.cutDue = false)
    (hoff : s.portsOff = false) : exec (.timeStep bad) s = .next (s.stepTime theta x).legalStep := by
  rw [exec_timeStep_due bad hq (by rw [hstep]; rfl) hcut hoff, State.toTar_of_not_met bad hstage,
    State.takeStep_of_marked hstep]

theorem exec_timeQualityChange_outcome {s : State} (hs : Inv s) (h : s.qualityNow ≠ s.fld F.CLK_QUAL.QUALITY) :
    ∃ t, exec .timeQualityChange s = .next t ∧
      t.fld F.CLK_QUAL.QUALITY = s.qualityNow ∧ t.clk.ns = s.clk.ns ∧
      t.evt.queue = s.evt.queue ++ [mkPost s Ev.TIME_QUALITY [b1 s.qualityNow, b1 (s.fld F.CLK_QUAL.QUALITY)]] ∧
      (s.qualityNow = 0 → t.clk.rtcSet = some (s.clk.ns, s.now) ∧ t.clk.comparedAt = s.now ∧ t.fld F.CLK_STAT.RTC_VALID = 1) ∧
      (s.qualityNow ≠ 0 → t.clk.rtcSet = s.clk.rtcSet ∧ t.clk.comparedAt = s.clk.comparedAt ∧ t.clk.synced = s.clk.synced) ∧
      OnlyRegs [R.CLK_QUAL, R.CLK_STAT] s t ∧ t = { s with regs := t.regs, clk := t.clk, evt := t.evt } := by
  by_cases h0 : s.qualityNow = 0
  · refine ⟨_, exec_timeQualityChange_synced h h0, ?_, rfl, s.queue_moveQuality, fun _ => ⟨rfl, rfl, ?_⟩,
      fun hne => absurd h0 hne, ?_, rfl⟩
    · exact (s.moveQuality.onlyRegs_setRtc.fld (by decide)).trans (State.fld_moveQuality hs)
    · exact State.fld_setRtc_valid (State.moveQuality_wf hs)
    · exact (s.onlyRegs_moveQuality.flag (f := F.CLK_STAT.RTC_VALID) true (.tail _ (.head _))).of_regs rfl
  · exact ⟨_, exec_timeQualityChange_other h h0, State.fld_moveQuality hs, rfl, s.queue_moveQuality,
      fun h1 => absurd h1 h0, fun _ => ⟨rfl, rfl, if_neg h0⟩, s.onlyRegs_moveQuality, rfl⟩

theorem exec_rtcCompare_outcome (trim : Int) {s : State} (hs : Inv s) (hq : s.fld F.CLK_QUAL.QUALITY = 0)
    (hdue : s.clk.comparedAt + 3600000 ≤ s.now) : ∃ t, exec (.rtcCompare trim) s = .next t ∧
      t.regs.fldInt F.CLK_RTC_TRIM.PPB = clampInt (-2147483648) 2147483647 trim ∧ t.fld F.CLK_STAT.RTC_VALID = 1 ∧
      t.clk = { s.clk with rtcSet := some (s.clk.ns, s.now), comparedAt := s.now } ∧ OnlyRegs [R.CLK_RTC_TRIM, R.CLK_STAT] s t ∧
      t = { s with regs := t.regs, clk := t.clk } :=
  ⟨s.compared trim, exec_rtcCompare_due trim hq hdue, RegFile.fldInt_compared trim hs, RegFile.fld_compared_valid trim hs, rfl,
    s.onlyRegs_compared trim, rfl⟩

/-- Settles O57: the step and when it is taken, the tariffs after it, the quality, and the comparison. -/
theorem deviceTimeIsSteppedRatedAndKept : Obligations.DeviceTimeIsSteppedRatedAndKept :=
  ⟨fun _ h bad => exec_timeStep_not_due bad h, fun bad _ hq hstep hcut hoff => exec_timeStep_due bad hq hstep hcut hoff,
    fun bad theta x s hs hq hstep hstage hcut hoff => ⟨s.stepTime theta x, _,
      exec_timeStep_outcome bad hq hstep hstage hcut hoff, s.stepTime_clk theta x, State.fld_stepTime_count theta x hs,
      State.fld_stepTime_valid theta x hs, s.stepTime_evt theta x, rfl, s.onlyRegs_stepTime theta x, s.stepTime_frame theta x⟩,
    fun _ => ⟨State.legalStep_stopped, State.legalStep_back, fun hrun hback =>
      ⟨State.legalStep_none hrun hback, State.legalStep_forward hrun hback⟩⟩,
    fun s hs => ⟨s.qualityNow_le, s.qualityNow_eq_zero_iff, fun h => ⟨_, exec_timeQualityChange_same h⟩,
      exec_timeQualityChange_outcome hs⟩,
    fun trim _ hs => ⟨exec_rtcCompare_waits trim, exec_rtcCompare_outcome trim hs⟩⟩

end Sys2Proof.Machine

/-! Requests of the application cores as the sealed cores take them: what waits, what is rejected, and the judgement and the
answer of each command (R178, R188, R190, R213, R215, R217, R220, R222). -/

namespace Sys2Proof.Machine

/-! ### A request at the head of the queue (R217) -/

/-- The sealed cores take requests, `r` is the one at the head of the request queue, and `u` is the state without it. -/
structure RequestTaken (s : State) (r : Request) (u : State) : Prop where
  running : s.fld F.LEG_STAT.RUN ≠ 0
  free : s.leg.act = none
  head : ∃ m, s.headWords 1 = some m ∧ r = messageOf m ∧ u = s.dropHead 1 m.length

theorem knownRequest_eq_false {t : Nat} (h : t < 0x0101 ∨ 0x0106 < t) : knownRequest t = false := by
  rcases h with h | h <;> simp [knownRequest] <;> omega

theorem knownRequest_eq_true {t : Nat} (h0 : 0x0101 ≤ t) (h1 : t ≤ 0x0106) : knownRequest t = true := by
  simp [knownRequest, h0, h1]

section
variable {s : State} (type : Nat) (wellFormed : List Byte → Bool) (judge : State → Request → State × Option Nat)

theorem State.takeRequest_waits (h : s.fld F.LEG_STAT.RUN = 0 ∨ s.leg.act.isSome = true ∨ s.headWords 1 = none) :
    s.takeRequest type wellFormed judge = s := by
  unfold State.takeRequest
  split
  · rfl
  · next hfree =>
    have hm : s.headWords 1 = none := by
      rcases h with h | h | h
      · exact absurd (.inl h) hfree
      · exact absurd (.inr h) hfree
      · exact h
    rw [hm]

namespace RequestTaken
variable {r : Request} {u : State} (h : RequestTaken s r u)
include h

theorem takeRequest_unknown (hk : knownRequest r.type = false) : s.takeRequest type wellFormed judge = u.rejectRequest r := by
  obtain ⟨hrun, hact, m, hm, rfl, rfl⟩ := h
  simp [State.takeRequest, hrun, hact, hm, hk]

theorem takeRequest_other (hk : knownRequest r.type = true) (ht : r.type ≠ type) : s.takeRequest type wellFormed judge = s := by
  obtain ⟨hrun, hact, m, hm, rfl, rfl⟩ := h
  simp [State.takeRequest, hrun, hact, hm, hk, ht]

variable {type wellFormed judge} (hk : knownRequest type = true) (ht : r.type = type)
include hk ht

theorem takeRequest_malformed (hb : wellFormed r.body = false) : s.takeRequest type wellFormed judge = u.rejectRequest r := by
  obtain ⟨hrun, hact, m, hm, rfl, rfl⟩ := h
  simp [State.takeRequest, hrun, hact, hm, ht, hk, hb]

variable (hb : wellFormed r.body = true) {v : State}
include hb

theorem takeRequest_pending (hj : judge u r = (v, none)) : s.takeRequest type wellFormed judge = v := by
  obtain ⟨hrun, hact, m, hm, rfl, rfl⟩ := h
  simp [State.takeRequest, hrun, hact, hm, ht, hk, hb, hj]

theorem takeRequest_done (hj : judge u r = (v, some 0)) :
    s.takeRequest type wellFormed judge = v.export_ (.reqResult r.seq 0 []) := by
  have hc : 0 ≠ Cause.SEALED_REJECT := by decide
  obtain ⟨hrun, hact, m, hm, rfl, rfl⟩ := h
  simp [State.takeRequest, hrun, hact, hm, ht, hk, hb, hj, hc]

theorem takeRequest_refused (hj : judge u r = (v, some Cause.SEALED_REJECT)) :
    s.takeRequest type wellFormed judge = (v.countReject type).export_ (.reqResult r.seq Cause.SEALED_REJECT []) := by
  obtain ⟨hrun, hact, m, hm, rfl, rfl⟩ := h
  simp [State.takeRequest, hrun, hact, hm, ht, hk, hb, hj]

end RequestTaken

end

/-- The commands of R217, each with the TYPE that it answers. -/
def requestCommands (bad : List Nat) : List (Nat × Instr) :=
  [(0x0101, .calDeliver), (0x0102, .calDigest bad), (0x0103, .billCloseRequest), (0x0104, .displayNote), (0x0105, .fwActivate),
    (0x0106, .keypadCfg)]

theorem exec_requestCommand {bad : List Nat} {row : Nat × Instr} (h : row ∈ requestCommands bad) :
    ∃ wellFormed judge, ∀ s, exec row.2 s = .next (s.takeRequest row.1 wellFormed judge) := by
  simp only [requestCommands, List.mem_cons, List.not_mem_nil, or_false] at h
  rcases h with rfl | rfl | rfl | rfl | rfl | rfl <;> exact ⟨_, _, fun _ => rfl⟩

/-! ### A request that is rejected (R217) -/

theorem State.onlyRegs_countReject (u : State) (type : Nat) : OnlyRegs [R.LEG_REQ_REJ] u (u.countReject type) :=
  ((OnlyRegs.refl _ u).bump (f := F.LEG_REQ_REJ.COUNT) 1 (.head _)).setF (f := F.LEG_REQ_REJ.LAST_TYPE) type (.head _)

theorem ok_reqRejCount : F.LEG_REQ_REJ.COUNT.ok = true := by decide +kernel

theorem ok_reqRejType : F.LEG_REQ_REJ.LAST_TYPE.ok = true := by decide +kernel

section
variable {u : State} (hu : Inv u) (type : Nat)
include hu

theorem State.fld_countReject_count : (u.countReject type).fld F.LEG_REQ_REJ.COUNT = min (u.fld F.LEG_REQ_REJ.COUNT + 1)
    (2 ^ (F.LEG_REQ_REJ.COUNT.hi - F.LEG_REQ_REJ.COUNT.lo + 1) - 1) :=
  (RegFile.fld_setF_other type (RegFile.bump_wf _ 1 hu) ok_reqRejType ok_reqRejCount rfl).trans
    (RegFile.fld_bump_same 1 hu ok_reqRejCount)

theorem State.fld_countReject_type {type : Nat} (h : type < 2 ^ 16) :
    (u.countReject type).fld F.LEG_REQ_REJ.LAST_TYPE = type :=
  (RegFile.fld_setF_same type (RegFile.bump_wf _ 1 hu) ok_reqRejType).trans (Nat.mod_eq_of_lt h)

end

/-- A post reads no register. -/
theorem State.post_withRegs (u : State) (g : RegFile) (c : Nat) (p : Payload) :
    ({ u with regs := g } : State).post c p = { u.post c p with regs := g } := rfl

theorem State.countReject_eq (u : State) (type : Nat) :
    u.countReject type = { u with regs := (u.countReject type).regs } := rfl

/-- A rejected request is counted with its TYPE, recorded and answered (R217). -/
theorem State.rejectRequest_outcome {r : Request} {u : State} (hu : Inv u) (ht : r.type < 2 ^ 16) :
    ∃ v, u.rejectRequest r = v.export_ (.reqResult r.seq Cause.SEALED_REJECT []) ∧
      v.fld F.LEG_REQ_REJ.COUNT = min (u.fld F.LEG_REQ_REJ.COUNT + 1)
        (2 ^ (F.LEG_REQ_REJ.COUNT.hi - F.LEG_REQ_REJ.COUNT.lo + 1) - 1) ∧ v.fld F.LEG_REQ_REJ.LAST_TYPE = r.type ∧
      OnlyRegs [R.LEG_REQ_REJ] u v ∧ v = { u.post Ev.SEALED_REQ_REJECT [b8 r.type] with regs := v.regs } := by
  have hpost := (congrArg (State.post · Ev.SEALED_REQ_REJECT [b8 r.type]) (u.countReject_eq r.type)).trans (u.post_withRegs _ _ _)
  have hfld (f : FieldRef) : ((u.countReject r.type).post Ev.SEALED_REQ_REJECT [b8 r.type]).fld f =
      (u.countReject r.type).fld f := by
    rw [State.fld_eq, State.fld_eq, State.post_regs]
  refine ⟨(u.countReject r.type).post Ev.SEALED_REQ_REJECT [b8 r.type], by rw [State.rejectRequest],
    (hfld _).trans (State.fld_countReject_count hu r.type), (hfld _).trans (State.fld_countReject_type hu ht),
    (u.onlyRegs_countReject r.type).of_regs (State.post_regs _ _ _), ?_⟩
  rw [State.post_regs]
  exact hpost

/-! ### The judgements -/

section
variable {u : State} {r : Request}

theorem State.judgeActivate_received (hstate : u.fld (F.LEG_SLOT.STATE (fieldAt r.body 0 1)) = 3)
    (himage : (Map.find u.leg.slots (fieldAt r.body 0 1)).isSome = true) : u.judgeActivate r =
      ({ u with leg := { u.leg with act := some ⟨fieldAt r.body 0 1, u.now + 1, none, r.seq⟩ } }, none) :=
  if_pos ⟨hstate, himage⟩

theorem State.judgeActivate_refused (hstate : u.fld (F.LEG_SLOT.STATE (fieldAt r.body 0 1)) ≠ 3) :
    u.judgeActivate r = (u, some Cause.SEALED_REJECT) := if_neg fun h => hstate h.1

theorem State.judgeDeliver_matching {i : Nat}
    (h : matchingSet (u.sealedCal (fieldAt r.body 0 1)) (sha256 r.body) = some i) : u.judgeDeliver r =
      (({ u with tar := { u.tar with verified := u.tar.verified ++ [3 * fieldAt r.body 0 1 + i] } } : State).judgeReady,
        some 0) := by
  simp only [State.judgeDeliver, h]

theorem State.judgeDeliver_mismatch (h : matchingSet (u.sealedCal (fieldAt r.body 0 1)) (sha256 r.body) = none)
    (hactive : (u.sealedCal (fieldAt r.body 0 1)).active.isSome = true) :
    u.judgeDeliver r = (u.post Ev.TAR_CAL_MISMATCH [], some Cause.SEALED_REJECT) := by
  have hheld : ¬((u.sealedCal (fieldAt r.body 0 1)).active.isNone = true ∧
      (u.sealedCal (fieldAt r.body 0 1)).passive.isNone = true) := fun hnone => by
    rw [Option.isNone_iff_eq_none.mp hnone.1] at hactive
    cases hactive
  simp only [State.judgeDeliver, h, if_neg hheld]

/-- The sets of a calendar as a CAL_DIGEST leaves them (R178). -/
def Calendar.digested (k : Calendar) (b : List Byte) : Calendar :=
  if fieldAt b 1 1 = 0 then { k with passive := some (b.drop 4) } else { k with passive := none }

/-- The passive set of a calendar stored or cancelled, before the record is written: a part of `judgeDigest`. -/
def State.storeDigest (u : State) (b : List Byte) : State :=
  let c := fieldAt b 0 1
  let v := u.tar.verified.filter (· != 3 * c + 1)
  { u with tar := { u.tar with
    sets := Map.set u.tar.sets c ((u.sealedCal c).digested b)
    verified := if fieldAt b 1 1 = 0 then v ++ [3 * c + 1] else v } }

theorem State.judgeDigest_eq (bad : List Nat) :
    u.judgeDigest bad r = ((u.storeDigest r.body).judgeReady.writeTarRecord bad, some 0) := rfl

theorem State.digested_tar (b : List Byte) (bad : List Nat) :
    ((u.storeDigest b).judgeReady.writeTarRecord bad).tar.sets =
      Map.set u.tar.sets (fieldAt b 0 1) ((u.sealedCal (fieldAt b 0 1)).digested b) ∧
    ((u.storeDigest b).judgeReady.writeTarRecord bad).tar.seq = u.tar.seq + 1 := by
  rw [State.writeTarRecord_tar]
  exact ⟨rfl, rfl⟩

theorem State.judgeBillClose_bound {c : CalSet} (hc : u.pointSet (fieldAt r.body 0 1) = some c)
    (hfalls : u.tar.hwm < nextCommanded c u.timeSec * 60000) : u.judgeBillClose r =
      (u.setTar (fieldAt r.body 0 1) { u.tarPoint (fieldAt r.body 0 1) with
        commanded := insertSorted (nextCommanded c u.timeSec) (u.tarPoint (fieldAt r.body 0 1)).commanded }, some 0) := by
  simp only [State.judgeBillClose, hc, if_pos hfalls]

theorem State.judgeBillClose_unbound (hc : u.pointSet (fieldAt r.body 0 1) = none) :
    u.judgeBillClose r = (u, some Cause.SEALED_REJECT) := by
  simp only [State.judgeBillClose, hc]

theorem State.judgeNote_shown (h : ∀ d p x, u.leg.showing ≠ .request d p x) :
    u.judgeNote r = (u.showNote (r.body.take 32) (u.now + 1000 * fieldAt r.body 32 2), some 0) := by
  unfold State.judgeNote
  split
  · next d p x hx => exact absurd hx (h d p x)
  · rfl

theorem State.judgeNote_behind {d : Nat} {p : Nat} {x : Option (List Byte × Nat)} (h : u.leg.showing = .request d p x) :
    u.judgeNote r = ({ u with leg := { u.leg with
      showing := .request d p (some (r.body.take 32, u.now + 1000 * fieldAt r.body 32 2)) } }, some 0) := by
  simp only [State.judgeNote, h]

theorem State.showNote_eq (text : List Byte) (until_ : Nat) :
    u.showNote text until_ = { u with leg := (u.showNote text until_).leg } := by
  simp only [State.showNote, State.showLines, State.frame]

theorem State.showNote_showing (text : List Byte) (until_ : Nat) :
    (u.showNote text until_).leg.showing = .note text until_ := rfl

/-- A note takes the frames of its two lines and the icons (R219, R220). -/
theorem State.showNote_frames (text : List Byte) (until_ : Nat) :
    (u.showNote text until_).leg.frames.length = u.leg.frames.length + 3 := by
  simp [State.showNote, State.showLines, State.frame]

end

/-! ### The commands on a request of their TYPE -/

namespace RequestTaken
variable {s u : State} {r : Request} (h : RequestTaken s r u)
include h

section
variable (ht : r.type = 0x0105)
include ht

theorem fwActivate_malformed (hlen : r.body.length ≠ 8) : exec .fwActivate s = .next (u.rejectRequest r) :=
  congrArg Host.Outcome.next (h.takeRequest_malformed rfl ht (by simp [hlen]))

variable (hlen : r.body.length = 8) (hslot : fieldAt r.body 0 1 ≤ 2) (hzero : fieldAt r.body 1 7 = 0)
include hlen hslot hzero

theorem fwActivate_received (hstate : u.fld (F.LEG_SLOT.STATE (fieldAt r.body 0 1)) = 3)
    (himage : (Map.find u.leg.slots (fieldAt r.body 0 1)).isSome = true) : exec .fwActivate s = .next { u with leg := { u.leg with
      act := some ⟨fieldAt r.body 0 1, u.now + 1, none, r.seq⟩ } } :=
  congrArg Host.Outcome.next (h.takeRequest_pending rfl ht (by simp [hlen, hslot, hzero])
    (State.judgeActivate_received hstate himage))

theorem fwActivate_refused (hstate : u.fld (F.LEG_SLOT.STATE (fieldAt r.body 0 1)) ≠ 3) : exec .fwActivate s =
    .next ((u.countReject 0x0105).export_ (.reqResult r.seq Cause.SEALED_REJECT [])) :=
  congrArg Host.Outcome.next (h.takeRequest_refused rfl ht (by simp [hlen, hslot, hzero]) (State.judgeActivate_refused hstate))

end

section
variable (ht : r.type = 0x0101) (hlen : r.body.length = 2352) (hcal : fieldAt r.body 0 1 ≤ 63)
include ht hlen hcal

theorem calDeliver_matching {i : Nat} (hi : matchingSet (u.sealedCal (fieldAt r.body 0 1)) (sha256 r.body) = some i) :
    exec .calDeliver s = .next (({ u with tar := { u.tar with
      verified := u.tar.verified ++ [3 * fieldAt r.body 0 1 + i] } } : State).judgeReady.export_ (.reqResult r.seq 0 [])) :=
  congrArg Host.Outcome.next (h.takeRequest_done rfl ht (by simp [hlen, hcal]) (State.judgeDeliver_matching hi))

theorem calDeliver_mismatch (hnone : matchingSet (u.sealedCal (fieldAt r.body 0 1)) (sha256 r.body) = none)
    (hactive : (u.sealedCal (fieldAt r.body 0 1)).active.isSome = true) : exec .calDeliver s =
      .next (((u.post Ev.TAR_CAL_MISMATCH []).countReject 0x0101).export_ (.reqResult r.seq Cause.SEALED_REJECT [])) :=
  congrArg Host.Outcome.next (h.takeRequest_refused rfl ht (by simp [hlen, hcal])
    (State.judgeDeliver_mismatch hnone hactive))

end

theorem calDigest_taken (ht : r.type = 0x0102) (hform : digestForm r.body = true) (bad : List Nat) : exec (.calDigest bad) s =
    .next (((u.storeDigest r.body).judgeReady.writeTarRecord bad).export_ (.reqResult r.seq 0 [])) :=
  congrArg Host.Outcome.next (h.takeRequest_done rfl ht hform (State.judgeDigest_eq bad))

section
variable (ht : r.type = 0x0103) (hlen : r.body.length = 8) (hpoint : fieldAt r.body 0 1 ≤ 11) (hzero : fieldAt r.body 1 7 = 0)
include ht hlen hpoint hzero

theorem billCloseRequest_bound {c : CalSet} (hc : u.pointSet (fieldAt r.body 0 1) = some c)
    (hfalls : u.tar.hwm < nextCommanded c u.timeSec * 60000) : exec .billCloseRequest s =
      .next ((u.setTar (fieldAt r.body 0 1) { u.tarPoint (fieldAt r.body 0 1) with
        commanded := insertSorted (nextCommanded c u.timeSec) (u.tarPoint (fieldAt r.body 0 1)).commanded }).export_
          (.reqResult r.seq 0 [])) :=
  congrArg Host.Outcome.next (h.takeRequest_done rfl ht (by simp [hlen, hpoint, hzero])
    (State.judgeBillClose_bound hc hfalls))

theorem billCloseRequest_unbound (hc : u.pointSet (fieldAt r.body 0 1) = none) : exec .billCloseRequest s =
    .next ((u.countReject 0x0103).export_ (.reqResult r.seq Cause.SEALED_REJECT [])) :=
  congrArg Host.Outcome.next (h.takeRequest_refused rfl ht (by simp [hlen, hpoint, hzero]) (State.judgeBillClose_unbound hc))

end

theorem keypadCfg_taken (ht : r.type = 0x0106) (hlen : r.body.length = 8) (h5 : 5 ≤ fieldAt r.body 0 1)
    (hzero : fieldAt r.body 1 7 = 0) : exec .keypadCfg s =
      .next (({ u with leg := { u.leg with keyTimeout := fieldAt r.body 0 1 } } : State).export_ (.reqResult r.seq 0 [])) :=
  congrArg Host.Outcome.next (h.takeRequest_done rfl ht (by simp [hlen, h5, hzero]) rfl)

section
variable (ht : r.type = 0x0104) (hlen : r.body.length = 34) (h1 : 1 ≤ fieldAt r.body 32 2) (h60 : fieldAt r.body 32 2 ≤ 60)
  (htext : ∀ c ∈ r.body.take 32, c.toNat < 128)
include ht hlen h1 h60 htext

theorem displayNote_judged {v : State} (hj : u.judgeNote r = (v, some 0)) :
    exec .displayNote s = .next (v.export_ (.reqResult r.seq 0 [])) := by
  have hascii : ((r.body.take 32).all fun c => decide (c.toNat < 128)) = true :=
    List.all_eq_true.mpr fun c hc => decide_eq_true (htext c hc)
  exact congrArg Host.Outcome.next (h.takeRequest_done rfl ht (by rw [hascii]; simp [hlen, h1, h60]) hj)

theorem displayNote_shown (hfree : ∀ d p x, u.leg.showing ≠ .request d p x) :
    ∃ t v : State, exec .displayNote s = .next t ∧ t = v.export_ (.reqResult r.seq 0 []) ∧
      v.leg.showing = .note (r.body.take 32) (u.now + 1000 * fieldAt r.body 32 2) ∧
      v.leg.frames.length = u.leg.frames.length + 3 ∧ v = { u with leg := v.leg } :=
  ⟨_, _, h.displayNote_judged ht hlen h1 h60 htext (State.judgeNote_shown hfree), by rfl, State.showNote_showing _ _,
    State.showNote_frames _ _, State.showNote_eq _ _⟩

end

theorem calDigest_outcome (ht : r.type = 0x0102) (hform : digestForm r.body = true) (bad : List Nat) :
    ∃ t v : State, exec (.calDigest bad) s = .next t ∧ t = v.export_ (.reqResult r.seq 0 []) ∧
      (fieldAt r.body 1 1 = 0 → Map.find v.tar.sets (fieldAt r.body 0 1) =
        some { u.sealedCal (fieldAt r.body 0 1) with passive := some (r.body.drop 4) }) ∧
      (fieldAt r.body 1 1 ≠ 0 → Map.find v.tar.sets (fieldAt r.body 0 1) =
        some { u.sealedCal (fieldAt r.body 0 1) with passive := none }) ∧
      (∀ d, d ≠ fieldAt r.body 0 1 → Map.find v.tar.sets d = Map.find u.tar.sets d) ∧ v.tar.seq = u.tar.seq + 1 := by
  obtain ⟨hsets, hseq⟩ := u.digested_tar r.body bad
  refine ⟨_, _, h.calDigest_taken ht hform bad, by rfl, fun h0 => ?_, fun h0 => ?_, fun d hd => ?_, hseq⟩
  · rw [hsets, Map.find_set_same, Calendar.digested, if_pos h0]
  · rw [hsets, Map.find_set_same, Calendar.digested, if_neg h0]
  · rw [hsets, Map.find_set_other _ hd]

end RequestTaken

theorem exec_requestCommand_order (bad : List Nat) (s : State) {row : Nat × Instr} (hrow : row ∈ requestCommands bad) :
    (s.fld F.LEG_STAT.RUN = 0 ∨ s.leg.act.isSome = true ∨ s.headWords 1 = none → exec row.2 s = .next s) ∧
      ∀ m r, s.fld F.LEG_STAT.RUN ≠ 0 → s.leg.act = none → s.headWords 1 = some m → r = messageOf m →
        (r.type < 0x0101 ∨ 0x0106 < r.type → exec row.2 s = .next ((s.dropHead 1 m.length).rejectRequest r)) ∧
        (0x0101 ≤ r.type → r.type ≤ 0x0106 → r.type ≠ row.1 → exec row.2 s = .next s) := by
  obtain ⟨wellFormed, judge, hexec⟩ := exec_requestCommand hrow
  rw [hexec s]
  refine ⟨fun h => congrArg _ (State.takeRequest_waits _ _ _ h), fun m r hrun hact hm hr => ?_⟩
  have h : RequestTaken s r (s.dropHead 1 m.length) := ⟨hrun, hact, m, hm, hr, rfl⟩
  exact ⟨fun hk => congrArg _ (h.takeRequest_unknown _ _ _ (knownRequest_eq_false hk)),
    fun h0 h1 hne => congrArg _ (h.takeRequest_other _ _ _ (knownRequest_eq_true h0 h1) hne)⟩

/-- Settles O34: what every command of R217 leaves, what is rejected, and each TYPE with the cases of its judgement. -/
theorem sealedRequestsAreJudgedInOrder : Obligations.SealedRequestsAreJudgedInOrder := by
  refine ⟨fun bad s row hrow => exec_requestCommand_order bad s hrow,
    fun r u hu ht => State.rejectRequest_outcome hu ht, fun m r bad s u hrun hact hm hr hu => ?_⟩
  have h : RequestTaken s r u := ⟨hrun, hact, m, hm, hr, hu⟩
  refine ⟨h.fwActivate_malformed, fun ht hlen hslot hzero => ⟨h.fwActivate_received ht hlen hslot hzero,
      h.fwActivate_refused ht hlen hslot hzero⟩,
    fun ht hlen hcal => ⟨fun i hi => h.calDeliver_matching ht hlen hcal hi, h.calDeliver_mismatch ht hlen hcal⟩,
    fun ht hform c k hc hk => ?digest,
    fun ht hlen hpoint hzero => ⟨fun c hc => h.billCloseRequest_bound ht hlen hpoint hzero hc,
      h.billCloseRequest_unbound ht hlen hpoint hzero⟩, h.keypadCfg_taken,
    fun ht hlen h1 h60 htext => ⟨h.displayNote_shown ht hlen h1 h60 htext,
      fun d p x hx => h.displayNote_judged ht hlen h1 h60 htext (State.judgeNote_behind hx)⟩⟩
  case digest =>
    subst hc hk
    exact h.calDigest_outcome ht hform bad

end Sys2Proof.Machine

/-! The boundaries of the tariffs of the metering points: which falls first, and what each of the three kinds changes (R177,
R181, R186, R188, R189, R191, R192). -/

namespace Sys2Proof.Machine

/-! ### The order of boundaries (R192) -/

theorem boundaryBefore_iff (x y : TarBoundary) : boundaryBefore x y = true ↔
    x.1 < y.1 ∨ x.1 = y.1 ∧ (x.2.1 < y.2.1 ∨ x.2.1 = y.2.1 ∧ x.2.2 < y.2.2) := by
  simp [boundaryBefore]

theorem boundaryBefore_asymm {x y : TarBoundary} (h : boundaryBefore x y = true) : boundaryBefore y x = false := by
  rw [Bool.eq_false_iff, ne_eq, boundaryBefore_iff]
  rw [boundaryBefore_iff] at h
  omega

theorem boundaryBefore_self (x : TarBoundary) : boundaryBefore x x = false := by
  simp [boundaryBefore]

theorem boundaryBefore_false_trans {x y z : TarBoundary} (h : boundaryBefore x y = false) (g : boundaryBefore y z = false) :
    boundaryBefore x z = false := by
  rw [Bool.eq_false_iff, ne_eq, boundaryBefore_iff] at *
  omega

theorem firstBoundary_eq_none {l : List TarBoundary} (h : firstBoundary l = none) : l = [] := by
  cases l with
  | nil => rfl
  | cons x l =>
    unfold firstBoundary at h
    split at h
    · cases h
    · split at h <;> cases h

/-- What is first in the order of R192 is one of the boundaries, and none of them is before it. -/
theorem firstBoundary_spec {l : List TarBoundary} {x : TarBoundary} (h : firstBoundary l = some x) :
    x ∈ l ∧ ∀ y ∈ l, boundaryBefore y x = false := by
  induction l generalizing x with
  | nil => cases h
  | cons a l ih =>
    unfold firstBoundary at h
    split at h
    · next hnone =>
      cases h
      rw [firstBoundary_eq_none hnone]
      simp [boundaryBefore_self]
    · next z hz =>
      obtain ⟨hmem, hmin⟩ := ih hz
      split at h
      · next hza =>
        cases h
        exact ⟨.tail _ hmem, List.forall_mem_cons.mpr ⟨boundaryBefore_asymm hza, hmin⟩⟩
      · next hza =>
        cases h
        exact ⟨.head _, List.forall_mem_cons.mpr ⟨boundaryBefore_self a, fun y hy =>
          boundaryBefore_false_trans (hmin y hy) (eq_false_of_ne_true hza)⟩⟩

/-! ### The first boundary is performed, and what precedes a named one before it (R192) -/

section
variable {s : State} {x y : TarBoundary}

theorem State.performUntil_first (h : firstBoundary (s.boundariesDue s.timeSec) = some x) (k : Nat) :
    s.performUntil x (k + 1) = s.performBoundary false x := by
  simp only [State.performUntil, h, if_true]

theorem State.performUntil_later (h : firstBoundary (s.boundariesDue s.timeSec) = some y) (hne : y ≠ x) (k : Nat) :
    s.performUntil x (k + 1) = (s.performBoundary false y).performUntil x k := by
  simp only [State.performUntil, h, if_neg hne]

theorem State.boundaryBound_pos (s : State) : ∃ k, s.boundaryBound = k + 1 :=
  Nat.exists_eq_add_one.mpr (by unfold State.boundaryBound; omega)

/-- Where registration is done and no restart is to be taken up, the first boundary that has fallen is performed. -/
theorem State.boundaryStep_first (hstage : s.qty.stage = .tar) (hrestart : s.tar.restarted = false)
    (h : firstBoundary (s.boundariesDue s.timeSec) = some x) : s.boundaryStep x = s.performBoundary false x := by
  have hmet : s.toTar s.qtyPlan false [] = s := State.toTar_of_not_met [] (by rw [hstage]; decide) _ _
  obtain ⟨k, hk⟩ := s.boundaryBound_pos
  have hmem : (s.boundariesDue s.timeSec).contains x = true := List.contains_iff_mem.mpr (firstBoundary_spec h).1
  simp only [State.boundaryStep, hmet, hrestart, Bool.false_eq_true, false_and, if_false]
  rw [if_pos ⟨hstage, hmem⟩, hk, State.performUntil_first h]

end

/-! ### The tariff state of a point -/

@[simp] theorem State.tarPoint_setTar_same (s : State) (n : Nat) (p : PointTar) : (s.setTar n p).tarPoint n = p :=
  Map.findD_set_same ..

@[simp] theorem State.tarPoint_setTar_other (s : State) {n m : Nat} (p : PointTar) (h : m ≠ n) :
    (s.setTar n p).tarPoint m = s.tarPoint m := Map.findD_set_other _ _ h

theorem State.tarPoint_of_points {s t : State} (h : t.tar.points = s.tar.points) (n : Nat) : t.tarPoint n = s.tarPoint n := by
  rw [State.tarPoint, h, State.tarPoint]

/-! ### A demand sub-period closes (R186) -/

/-- The sub-period of a point closes and the next begins: a part of `demandClose`. -/
def State.closeDemand (s : State) (n e : Nat) (k : CalSet) : State :=
  let u := s.setTar n (((s.tarPoint n).closeSub k e).openSub k s.timeSec e)
  { u with tar := { u.tar with dirty := true } }

theorem exec_demandClose_first {s : State} {n e : Nat} {k : CalSet} (hstage : s.qty.stage = .tar)
    (hrestart : s.tar.restarted = false) (hk : s.pointSet n = some k) (hend : (s.tarPoint n).subEnd = some e)
    (h : firstBoundary (s.boundariesDue s.timeSec) = some (e, 0, n)) :
    exec (.demandClose n) s = .next (s.closeDemand n e k) := by
  have hclose : s.performBoundary false (e, 0, n) = s.closeDemand n e k := by
    simp only [State.performBoundary, State.demandClose, hk]
    rfl
  simp only [exec, execDemandClose, hend]
  rw [State.boundaryStep_first hstage hrestart h, hclose]

theorem State.tarPoint_closeDemand_same (s : State) (n e : Nat) (k : CalSet) :
    (s.closeDemand n e k).tarPoint n = ((s.tarPoint n).closeSub k e).openSub k s.timeSec e := Map.findD_set_same ..

theorem State.tarPoint_closeDemand_other (s : State) {n m : Nat} (e : Nat) (k : CalSet) (h : m ≠ n) :
    (s.closeDemand n e k).tarPoint m = s.tarPoint m := Map.findD_set_other _ _ h

section
variable (p : PointTar) (k : CalSet) (e : Nat)

theorem PointTar.closeSub_rate : (p.closeSub k e).rate = p.rate := by
  unfold PointTar.closeSub
  dsimp only
  split <;> rfl

/-- A window of one sub-period is offered as that sub-period closes. -/
theorem PointTar.closeSub_dmax_single (h : calSubs k = 1) : (p.closeSub k e).dmax =
    dmaxOffer p.dmax p.subRate ⟨p.subEnergy * 60 / (calDemandMin k * 1000000), e, p.subFlags⟩ := by
  simp [PointTar.closeSub, h]

end

/-! ### The sets of a calendar (R177) -/

theorem Calendar.activate_of_passive {k : Calendar} {x : CalSet} (h : k.passive = some x) :
    k.activate = { k with active := some x, passive := none, superseded := k.active } := by
  simp only [Calendar.activate, h]

/-- The fields that show the sets of a calendar in the BILLING namespace. -/
def calFields (c : Nat) (k : Calendar) : List (FieldRef × Nat) :=
  [(F.TAR_CAL_STAT.ACTIVE c, if k.active.isSome then 1 else 0), (F.TAR_CAL_STAT.PENDING c, if k.passive.isSome then 1 else 0),
    (F.TAR_CAL_STAT.GEN c, (k.active.map calGen).getD 0), (F.TAR_CAL_ACT.ACTIVATE c, (k.passive.map calActivate).getD 0)]

theorem State.setCal_regs (s : State) (c : Nat) (k : Calendar) : (s.setCal c k).regs = s.regs.setFields (calFields c k) := by
  simp only [calFields, RegFile.setFields_cons, RegFile.setFields_nil]
  rfl

section
variable {c : Nat} (hc : c < 64)
include hc

theorem findReg_calStat : findReg (R.TAR_CAL_STAT c) = regsTAR[9]? := by
  refine findReg_at (l := regsTAR.take 9) (b := 7) (by unfold R.TAR_CAL_STAT; omega) rfl ?_
    (RegSpec.hits_element _ _ (by decide) hc)
  simp (disch := omega) [regsTAR, R.TAR_CAL_STAT, RegSpec.hits_other]

theorem findReg_calAct : findReg (R.TAR_CAL_ACT c) = regsTAR[10]? := by
  refine findReg_at (l := regsTAR.take 10) (b := 7) (by unfold R.TAR_CAL_ACT; omega) rfl ?_
    (RegSpec.hits_element _ _ (by decide) hc)
  simp (disch := omega) [regsTAR, R.TAR_CAL_ACT, RegSpec.hits_other, RegSpec.hits_past]

/-- The fields of a calendar lie in its registers, apart from each other. -/
theorem calFields_ok (k : Calendar) : (∀ e ∈ calFields c k, e.1.ok = true) ∧
    (calFields c k).Pairwise fun e x => e.1.apart x.1 = true := by
  have hstat : ∀ f : FieldRef, f.addr = R.TAR_CAL_STAT c → regsTAR[9].spans f.hi f.lo = true → f.ok = true := fun f hf h =>
    FieldRef.ok_of_spans (hf ▸ findReg_calStat hc) h
  have hactive : (F.TAR_CAL_STAT.ACTIVE c).ok = true := hstat _ rfl rfl
  have hpending : (F.TAR_CAL_STAT.PENDING c).ok = true := hstat _ rfl rfl
  have hgen : (F.TAR_CAL_STAT.GEN c).ok = true := hstat _ rfl rfl
  have hact : (F.TAR_CAL_ACT.ACTIVATE c).ok = true := FieldRef.ok_of_spans (findReg_calAct hc) rfl
  have hne : R.TAR_CAL_STAT c ≠ R.TAR_CAL_ACT c := by
    unfold R.TAR_CAL_STAT R.TAR_CAL_ACT
    omega
  constructor
  · simp [calFields, hactive, hpending, hgen, hact]
  · simp [calFields, FieldRef.apart, F.TAR_CAL_STAT.ACTIVE, F.TAR_CAL_STAT.PENDING, F.TAR_CAL_STAT.GEN,
      F.TAR_CAL_ACT.ACTIVATE, hne]

theorem State.fld_setCal {s : State} (hs : Inv s) {k : Calendar} {f : FieldRef} {v : Nat} (hf : (f, v) ∈ calFields c k) :
    (s.setCal c k).fld f = v % 2 ^ (f.hi - f.lo + 1) := by
  obtain ⟨hok, hap⟩ := calFields_ok hc k
  rw [State.fld_eq, State.setCal_regs]
  exact RegFile.fld_setFields_mem hs hok hap hf

end

theorem State.onlyRegs_setCal (s : State) (c : Nat) (k : Calendar) :
    OnlyRegs [R.TAR_CAL_STAT c, R.TAR_CAL_ACT c] s (s.setCal c k) := by
  intro a ha
  obtain ⟨hstat, hact⟩ : a ≠ R.TAR_CAL_STAT c ∧ a ≠ R.TAR_CAL_ACT c := by simpa using ha
  rw [State.setCal_regs]
  refine RegFile.get_setFields_other fun e he => ?_
  simp only [calFields, List.mem_cons, List.not_mem_nil, or_false] at he
  rcases he with rfl | rfl | rfl | rfl
  · exact hstat
  · exact hstat
  · exact hstat
  · exact hact

/-! ### A calendar that no point is bound to (R177) -/

section
variable {s : State} {c : Nat} (hb : s.pointsOf c = [])
include hb

theorem State.activateCal_unbound {x : CalSet} (hx : (s.storedCal c).passive = some x) (t : Nat) :
    s.activateCal c t = (s.setCal c (s.storedCal c).activate).post Ev.TAR_ACTIVATED [b8 c, b8 (calGen x)] := by
  simp [State.activateCal, hb, hx]

theorem exec_tariffSwitch_unbound {x : CalSet} (hx : (s.storedCal c).passive = some x) (ht : calActivate x ≤ s.timeSec) :
    exec (.tariffSwitch c) s =
      .next ((s.setCal c (s.storedCal c).activate).post Ev.TAR_ACTIVATED [b8 c, b8 (calGen x)]) := by
  simp only [exec, execTariffSwitch, hb, List.isEmpty_nil, if_true, hx, if_pos ht, State.activateCal_unbound hb hx]

end

/-! ### A calendar with points bound to it (R177, R181, R192) -/

section
variable (s : State) (c : Nat) (x : CalSet)

/-- A bound calendar with its passive set active, before its points follow: a part of `activateCal`. -/
def State.switchCal : State :=
  let u := (s.setCal c (s.storedCal c).activate).post Ev.TAR_ACTIVATED [b8 c, b8 (calGen x)]
  { u with tar := { u.tar with
    sets := Map.set u.tar.sets c (s.sealedCal c).activate, verified := shiftVerified u.tar.verified c
    activated := true, dirty := true } }

/-- A point as it follows its calendar: a part of `activateCal`. -/
def State.followSwitch (u : State) (n : Nat) (old : Option CalSet) (new : CalSet) (t : Nat) : State :=
  u.setTar n ((u.tarPoint n).activated old new t)

/-- The points bound to a calendar follow it: a part of `activateCal`. -/
def State.followCal : State :=
  (s.pointsOf c).foldl (fun u n => u.followSwitch n (s.sealedCal c).active x (calActivate x)) (s.switchCal c x)

end

/-- What the points of a list take when they follow a switch. -/
theorem tarPoint_foldl_followSwitch {l : List Nat} (hl : l.Nodup) (old : Option CalSet) (new : CalSet) (t : Nat)
    (u : State) (m : Nat) : (l.foldl (fun u n => u.followSwitch n old new t) u).tarPoint m =
      if m ∈ l then (u.tarPoint m).activated old new t else u.tarPoint m := by
  induction l generalizing u with
  | nil => rfl
  | cons n l ih =>
    obtain ⟨hn, hl⟩ := List.nodup_cons.mp hl
    rw [List.foldl_cons, ih hl]
    by_cases hm : m = n
    · subst hm
      simp [hn, State.followSwitch]
    · simp [hm, State.followSwitch]

/-- Points that follow a switch change nothing but their own tariff state. -/
theorem foldl_followSwitch_eq (l : List Nat) (old : Option CalSet) (new : CalSet) (t : Nat) (u : State) :
    ∃ r p, l.foldl (fun u n => u.followSwitch n old new t) u = { u with regs := r, tar := { u.tar with points := p } } :=
  List.foldlRecOn (motive := fun v : State => ∃ r p, v = { u with regs := r, tar := { u.tar with points := p } }) l _
    ⟨_, _, rfl⟩ fun v hv n _ => by
      obtain ⟨r, p, rfl⟩ := hv
      exact ⟨_, _, rfl⟩

/-- The boundary number of a point rises with an activation (R192). -/
theorem PointTar.activated_bn (p : PointTar) (old : Option CalSet) (new : CalSet) (t : Nat) :
    (p.activated old new t).bn = p.bn + 1 := by
  have hsub (same : Bool) (q : PointTar) (r : Nat) :
      (if same then q else { q with subEnd := none, chain := [], resume := r }).bn = q.bn := by
    split <;> rfl
  unfold PointTar.activated
  dsimp only
  split
  · exact hsub _ _ _
  · exact hsub _ _ _

theorem State.nodup_pointsOf (s : State) (c : Nat) : (s.pointsOf c).Nodup := List.nodup_range.filter _

/-- A calendar whose points have followed its switch. -/
theorem State.followCal_eq (s : State) (c : Nat) (x : CalSet) : ∃ r p, s.followCal c x =
    { s.switchCal c x with regs := r, tar := { (s.switchCal c x).tar with points := p } } := foldl_followSwitch_eq ..

theorem State.followCal_tar (s : State) (c : Nat) (x : CalSet) :
    ∃ p, (s.followCal c x).tar = { (s.switchCal c x).tar with points := p } := by
  obtain ⟨r, p, h⟩ := s.followCal_eq c x
  exact ⟨p, by rw [h]⟩

theorem State.followCal_leg (s : State) (c : Nat) (x : CalSet) : (s.followCal c x).leg = s.leg := by
  obtain ⟨r, p, h⟩ := s.followCal_eq c x
  rw [h]
  rfl

theorem State.followCal_queue (s : State) (c : Nat) (x : CalSet) : (s.followCal c x).evt.queue =
    s.evt.queue ++ [mkPost s Ev.TAR_ACTIVATED [b8 c, b8 (calGen x)]] := by
  obtain ⟨r, p, h⟩ := s.followCal_eq c x
  rw [h]
  rfl

theorem State.tarPoint_followCal (s : State) (c : Nat) (x : CalSet) (m : Nat) : (s.followCal c x).tarPoint m =
    if m ∈ s.pointsOf c then (s.tarPoint m).activated (s.sealedCal c).active x (calActivate x) else s.tarPoint m :=
  tarPoint_foldl_followSwitch (s.nodup_pointsOf c) ..

theorem State.activateCal_bound {s : State} {c : Nat} {x : CalSet} (hb : s.pointsOf c ≠ [])
    (hx : (s.sealedCal c).passive = some x) : s.activateCal c (calActivate x) =
      (s.followCal c x).legalLog Ev.TAR_ACTIVATED 0xFF
        (legalData [(0, 1, c), (2, 2, calGen x), (4, 4, calActivate x / 60)]) := by
  have hbound : (!(s.pointsOf c).isEmpty) = true := by simpa using hb
  simp only [State.activateCal, hbound, if_true, hx]
  rfl

theorem exec_tariffSwitch_first {s : State} {c : Nat} {x : CalSet} (hstage : s.qty.stage = .tar)
    (hrestart : s.tar.restarted = false) (hb : s.pointsOf c ≠ []) (hx : (s.sealedCal c).passive = some x)
    (h : firstBoundary (s.boundariesDue s.timeSec) = some (calActivate x, 1, c)) :
    exec (.tariffSwitch c) s = .next ((s.followCal c x).legalLog Ev.TAR_ACTIVATED 0xFF
      (legalData [(0, 1, c), (2, 2, calGen x), (4, 4, calActivate x / 60)])) := by
  have hbound : ¬(s.pointsOf c).isEmpty = true := by simpa using hb
  simp only [exec, execTariffSwitch, if_neg hbound, hx]
  rw [State.boundaryStep_first hstage hrestart h, ← State.activateCal_bound hb hx]
  rfl

/-! ### The legal log (R218) -/

section
variable (s : State) (code mp data : Nat)

theorem State.legalLog_eq : ∃ e r, s.legalLog code mp data = { s with
    leg := { s.leg with fresh := s.leg.fresh ++ [e] }, tar := { s.tar with dirty := true }, regs := r } := ⟨_, _, rfl⟩

@[simp] theorem State.legalLog_tar : (s.legalLog code mp data).tar = { s.tar with dirty := true } := by
  obtain ⟨e, r, h⟩ := s.legalLog_eq code mp data
  rw [h]

@[simp] theorem State.legalLog_evt : (s.legalLog code mp data).evt = s.evt := by
  obtain ⟨e, r, h⟩ := s.legalLog_eq code mp data
  rw [h]

@[simp] theorem State.legalLog_exportSeq : (s.legalLog code mp data).leg.exportSeq = s.leg.exportSeq := by
  obtain ⟨e, r, h⟩ := s.legalLog_eq code mp data
  rw [h]

@[simp] theorem State.legalLog_fresh_length : (s.legalLog code mp data).leg.fresh.length = s.leg.fresh.length + 1 := by
  obtain ⟨e, r, h⟩ := s.legalLog_eq code mp data
  rw [h, List.length_append, List.length_singleton]

end

/-! ### A billing close of a point (R188, R189, R191) -/

section
variable (s : State) (n b c : Nat) (k : CalSet) (catchUp : Bool)

/-- A point after its billing close: a part of `billClose`. -/
def PointTar.billed (p : PointTar) (k : CalSet) (b : Nat) : PointTar :=
  { p with
    billNo := nextBillNo p.billNo, bn := p.bn + 1, dmax := List.replicate 8 {}, seen := 0
    billNext := nextBilling k b, commanded := p.commanded.filter (· != b) }

/-- The FLAGS of the snapshot of a billing close: a part of `billClose`. -/
def PointTar.billFlags (p : PointTar) (b : Nat) (catchUp : Bool) : BitVec 8 :=
  p.seen ||| (if p.commanded.contains b && p.billNext != some b then tarFlag 0 else 0) |||
    (if catchUp then tarFlag 1 else 0)

theorem PointTar.billFlags_scheduled (p : PointTar) (b : Nat) : p.billFlags b false =
    p.seen ||| (if p.commanded.contains b && p.billNext != some b then 1 else 0) := by
  rw [PointTar.billFlags, if_neg Bool.false_ne_true, show tarFlag 0 = 1 from rfl]
  exact BitVec.or_zero

/-- The snapshot that a billing close keeps: a part of `billClose`. -/
def PointTar.billSnapshot (p : PointTar) (n b c : Nat) (k : CalSet) (catchUp : Bool) : PointSnapshot :=
  ⟨n, p.billFlags b catchUp, nextBillNo p.billNo, c, p.bn + 1, calGen k, b * 60, p.reg, p.dmax⟩

/-- A point closes, before its snapshot is exported and logged: a part of `billClose`. -/
def State.closeBill : State :=
  let u := s.setTar n ((s.tarPoint n).billed k b)
  { u with tar := { u.tar with
    newest := Map.set u.tar.newest n ((s.tarPoint n).billSnapshot n b c k catchUp), dirty := true } }

/-- The snapshot of a billing close is exported and the close logged: a part of `billClose`. -/
def State.reportBill : State :=
  ((s.closeBill n b c k catchUp).export_ (.snapshot ((s.tarPoint n).billSnapshot n b c k catchUp))).legalLog Ev.BILL_CLOSE n
    (legalData [(0, 2, nextBillNo (s.tarPoint n).billNo), (4, 4, b)])

theorem State.reportBill_tar : (s.reportBill n b c k catchUp).tar = (s.closeBill n b c k catchUp).tar := by
  rw [State.reportBill, State.legalLog_tar, (State.export_only _ _).tar]
  rfl

theorem State.reportBill_exportSeq : (s.reportBill n b c k catchUp).leg.exportSeq = (s.leg.exportSeq + 1) % 2 ^ 32 := by
  rw [State.reportBill, State.legalLog_exportSeq, (State.export_only _ _).exportSeq]
  rfl

theorem State.reportBill_fresh_length : (s.reportBill n b c k catchUp).leg.fresh.length = s.leg.fresh.length + 1 := by
  rw [State.reportBill, State.legalLog_fresh_length, (State.export_only _ _).fresh]
  rfl

variable {s n b c k catchUp}

theorem State.billClose_bound (hc : s.mpCal n = some c) (hk : s.pointSet n = some k) :
    s.billClose n b catchUp = s.reportBill n b c k catchUp := by
  simp only [State.billClose, hc, hk]
  rfl

theorem exec_pointBillingClose_first (hstage : s.qty.stage = .tar) (hrestart : s.tar.restarted = false)
    (hc : s.mpCal n = some c) (hk : s.pointSet n = some k) (hb : (s.tarPoint n).nextBill = some b)
    (h : firstBoundary (s.boundariesDue s.timeSec) = some (b * 60, 2, n)) :
    exec (.pointBillingClose n) s = .next (s.reportBill n b c k false) := by
  have hclose : s.performBoundary false (b * 60, 2, n) = s.reportBill n b c k false :=
    (congrArg (s.billClose n · false) (Nat.mul_div_cancel b (by decide))).trans (State.billClose_bound hc hk)
  simp only [exec, execPointBillingClose, hb]
  rw [State.boundaryStep_first hstage hrestart h, hclose]

end

end Sys2Proof.Machine

/-! The billing close of a meter whose grace has passed (R190, R191). -/

namespace Sys2Proof.Machine

/-! ### Windows (R186, R187) -/

/-- Windows are offered to the maxima, and change nothing else of a record. -/
theorem meterWindow_eq (k : Calendar) (set : CalSet) (r : MeterRec) (w : Nat) :
    ∃ l, meterWindow k set r w = { r with tar := { r.tar with dmax := l } } := by
  unfold meterWindow
  dsimp only
  split
  · exact ⟨_, rfl⟩
  · exact ⟨_, rfl⟩

theorem meterWindows_eq (k : Calendar) (set : CalSet) (r : MeterRec) (a b : Nat) :
    ∃ l, meterWindows k set r a b = { r with tar := { r.tar with dmax := l } } := by
  unfold meterWindows
  refine List.foldlRecOn (motive := fun x : MeterRec => ∃ l, x = { r with tar := { r.tar with dmax := l } }) _ _ ⟨_, rfl⟩
    fun x hx w _ => ?_
  obtain ⟨l, rfl⟩ := hx
  split_ifs
  · obtain ⟨l', h⟩ := meterWindow_eq k set { r with tar := { r.tar with dmax := l } } w
    exact ⟨l', h⟩
  · exact ⟨l, rfl⟩

@[simp] theorem MeterRec.withQuality_tar (r : MeterRec) : r.withQuality.tar = r.tar := by
  unfold MeterRec.withQuality
  split <;> rfl

/-! ### The close enters the log (R190) -/

section
variable (s : State) (i b : Nat)

/-- The record of a meter with its windows up to `b`: a part of `execMeterGraceClose`. -/
def State.graceWindows : MeterRec :=
  let r := s.meter i
  match calSetAt (s.storedCal (r.confAt b).calendar) (b * 60) with
  | some x => meterWindows (s.storedCal (r.confAt b).calendar) x r r.tar.hwm b
  | none => r

theorem State.graceWindows_eq : ∃ l, s.graceWindows i b = { s.meter i with tar := { (s.meter i).tar with dmax := l } } := by
  unfold State.graceWindows
  dsimp only
  split
  · exact meterWindows_eq _ _ _ _ _
  · exact ⟨_, rfl⟩

/-- The record of a meter as its close is logged: a part of `execMeterGraceClose`. -/
def State.graceRecord : MeterRec :=
  { s.graceWindows i b with
    appliedIsn := max (s.graceWindows i b).appliedIsn (s.ing.isn + 1)
    tar := { (s.graceWindows i b).tar with hwm := max (s.graceWindows i b).tar.hwm b } }

/-- The state in which the close has taken its ISN and entered the log: a part of `execMeterGraceClose`. -/
def State.logGrace : State := (s.setMeter i (s.graceRecord i b)).takeIsn.1.logEntry (.grace (s.ing.isn + 1) i b)

variable {s i b}

/-- A record written changes nothing but the records, their dirty chunks and the count of those. -/
theorem State.setMeter_eq (s : State) (i : Nat) (r : MeterRec) : ∃ m d g,
    s.setMeter i r = { s with regs := g, ing := { s.ing with meters := m, dirty := d } } := by
  unfold State.setMeter
  exact ⟨_, _, _, rfl⟩

theorem State.takeIsn_setMeter (s : State) (i : Nat) (r : MeterRec) : (s.setMeter i r).takeIsn.2 = s.ing.isn + 1 := by
  obtain ⟨m, d, g, h⟩ := s.setMeter_eq i r
  rw [State.takeIsn, h]

theorem exec_meterGraceClose_due (hstate : (s.meter i).state ≠ .free) (hb : (s.meter i).tar.nextBill = some b)
    (hgrace : (b + s.fld F.TAR_BILL_GRACE.MINUTES) * 60 ≤ s.timeSec) :
    ∃ missing, exec (.meterGraceClose i) s = .next ((s.logGrace i b).meterClose i b missing (s.ing.isn + 1)) := by
  refine ⟨((s.meter i).span (s.meter i).tar.start b).any fun m => (Map.find (s.meter i).store m).isNone, ?_⟩
  simp only [exec, execMeterGraceClose, hb]
  rw [if_pos ⟨hstate, hgrace⟩]
  conv_rhs => rw [State.logGrace, ← s.takeIsn_setMeter i (s.graceRecord i b)]
  rfl

end

/-- The record of a meter whose close has entered the log. -/
theorem State.meter_logGrace_same (s : State) (i b : Nat) : (s.logGrace i b).meter i = (s.graceRecord i b).withQuality :=
  Map.findD_set_same ..

theorem State.meter_logGrace_other (s : State) {i j : Nat} (b : Nat) (h : j ≠ i) : (s.logGrace i b).meter j = s.meter j :=
  Map.findD_set_other _ _ h

/-- Maxima and HWM_MIN are all that the log entry of a close changes in the billing state. -/
theorem State.tar_logGrace (s : State) (i b : Nat) : ∃ l, ((s.logGrace i b).meter i).tar =
    { (s.meter i).tar with dmax := l, hwm := max (s.meter i).tar.hwm b } := by
  obtain ⟨l, hl⟩ := s.graceWindows_eq i b
  refine ⟨l, ?_⟩
  rw [State.meter_logGrace_same, MeterRec.withQuality_tar, State.graceRecord, hl]

theorem State.appliedIsn_logGrace (s : State) (i b : Nat) : s.ing.isn + 1 ≤ ((s.logGrace i b).meter i).appliedIsn := by
  have happlied : ((s.logGrace i b).meter i).applied = (s.graceRecord i b).applied := by
    rw [State.meter_logGrace_same, MeterRec.applied_withQuality]
  exact le_of_le_of_eq (le_max_right _ _) (congrArg Prod.fst happlied).symm

theorem OnlyRegs.put64 {L : List Nat} {s t : State} (h : OnlyRegs L s t) {a : Nat} (v : Nat) (h0 : a ∈ L) (h1 : a + 4 ∈ L) :
    OnlyRegs L s { t with regs := t.regs.put64 a v } := fun x hx =>
  (RegFile.get_put_other _ (by rintro rfl; exact hx h1)).trans
    ((RegFile.get_put_other _ (by rintro rfl; exact hx h0)).trans (h x hx))

theorem State.logGrace_regs (s : State) (i b : Nat) : ∃ d n, (s.logGrace i b).regs =
    (s.regs.setF F.ING_REG_DIRTY.CHUNKS d).put64 R.ING_ISN_LO n := ⟨_, _, rfl⟩

theorem State.onlyRegs_logGrace (s : State) (i b : Nat) :
    OnlyRegs [R.ING_REG_DIRTY, R.ING_ISN_LO, R.ING_ISN_LO + 4] s (s.logGrace i b) := by
  obtain ⟨d, n, h⟩ := s.logGrace_regs i b
  exact (OnlyRegs.put64 ((OnlyRegs.refl _ s).setF (f := F.ING_REG_DIRTY.CHUNKS) d (.head _)) _ (.tail _ (.head _))
    (.tail _ (.tail _ (.head _)))).of_regs h

theorem State.logGrace_wf {s : State} (hs : Inv s) (i b : Nat) : (s.logGrace i b).regs.wf = true := by
  obtain ⟨d, n, h⟩ := s.logGrace_regs i b
  rw [h]
  exact RegFile.put64_wf _ _ (RegFile.setF_wf _ _ hs)

/-- The entry of a close takes the next ISN (R190). -/
theorem State.logGrace_eq (s : State) (i b : Nat) : ∃ m d r, s.logGrace i b = { s with
    regs := r, ing := { s.ing with
      isn := s.ing.isn + 1, log := s.ing.log ++ [.grace (s.ing.isn + 1) i b], meters := m, dirty := d } } := by
  obtain ⟨m, d, g, h⟩ := s.setMeter_eq i (s.graceRecord i b)
  rw [State.logGrace, h]
  exact ⟨_, _, _, rfl⟩

theorem State.logGrace_isn (s : State) (i b : Nat) : (s.logGrace i b).ing.isn = s.ing.isn + 1 := by
  obtain ⟨m, d, r, h⟩ := s.logGrace_eq i b
  rw [h]

theorem State.logGrace_log (s : State) (i b : Nat) :
    (s.logGrace i b).ing.log = s.ing.log ++ [.grace (s.ing.isn + 1) i b] := by
  obtain ⟨m, d, r, h⟩ := s.logGrace_eq i b
  rw [h]

/-! ### The close (R190, R191) -/

section
variable (u : State) (i b : Nat) (missing : Bool) (isn : Nat)

/-- The billing state of a meter after its close: a part of `meterClose`. -/
def State.closedTar : MeterTar :=
  { (u.meter i).tar with
    billNo := nextBillNo (u.meter i).tar.billNo, lastIncomplete := missing, defaultSeen := false
    dmax := List.replicate 8 {}, closed := b, start := b
    billNext := (calSetAt (u.storedCal ((u.meter i).confAt b).calendar) (b * 60)).bind fun set => nextBilling set b
    commanded := (u.meter i).tar.commanded.filter (· != b) }

theorem State.meter_meterClose_same : (u.meterClose i b missing isn).meter i =
    ({ u.meter i with tar := u.closedTar i b missing } : MeterRec).withQuality := Map.findD_set_same ..

theorem State.tar_meterClose : ((u.meterClose i b missing isn).meter i).tar = u.closedTar i b missing := by
  rw [State.meter_meterClose_same, MeterRec.withQuality_tar]

theorem State.appliedIsn_meterClose : ((u.meterClose i b missing isn).meter i).appliedIsn = (u.meter i).appliedIsn := by
  rw [State.meter_meterClose_same]
  exact congrArg Prod.fst (MeterRec.applied_withQuality _)

theorem State.meter_meterClose_other {j : Nat} (h : j ≠ i) : (u.meterClose i b missing isn).meter j = u.meter j :=
  Map.findD_set_other _ _ h

/-- A close takes no ISN and enters no log of its own. -/
theorem State.meterClose_eq : ∃ m d n r, u.meterClose i b missing isn =
    { u with regs := r, ing := { u.ing with meters := m, dirty := d, snaps := n } } := by
  unfold State.meterClose State.bump State.setMeter
  exact ⟨_, _, _, _, rfl⟩

theorem State.meterClose_isn : (u.meterClose i b missing isn).ing.isn = u.ing.isn := by
  obtain ⟨m, d, n, r, h⟩ := u.meterClose_eq i b missing isn
  rw [h]

theorem State.meterClose_log : (u.meterClose i b missing isn).ing.log = u.ing.log := by
  obtain ⟨m, d, n, r, h⟩ := u.meterClose_eq i b missing isn
  rw [h]

theorem State.meterClose_regs : ∃ d, (u.meterClose i b missing isn).regs =
    (u.regs.setF F.ING_REG_DIRTY.CHUNKS d).bump F.TAR_CLOSE_CNT.COUNT 1 := ⟨_, rfl⟩

/-- The snapshot of a close is the newest of the 24 kept. -/
theorem State.snaps_meterClose : ∃ x, (Map.findD (u.meterClose i b missing isn).ing.snaps i []).getLast? = some x ∧
    x.index = i ∧ x.boundary = b * 60 ∧ x.isn = isn ∧ x.billNo = nextBillNo (u.meter i).tar.billNo := by
  unfold State.meterClose
  dsimp only
  rw [Map.findD_set_same, List.length_append, List.drop_append_of_le_length (by simp), List.getLast?_concat]
  exact ⟨_, rfl, rfl, rfl, rfl, rfl⟩

variable {u}

theorem State.fld_meterClose_count (hu : u.regs.wf = true) : (u.meterClose i b missing isn).fld F.TAR_CLOSE_CNT.COUNT =
    min (u.fld F.TAR_CLOSE_CNT.COUNT + 1) 0xFFFFFFFF := by
  have hok : F.TAR_CLOSE_CNT.COUNT.ok = true := by decide +kernel
  have hmax : 2 ^ (F.TAR_CLOSE_CNT.COUNT.hi - F.TAR_CLOSE_CNT.COUNT.lo + 1) - 1 = 0xFFFFFFFF := rfl
  obtain ⟨d, h⟩ := u.meterClose_regs i b missing isn
  rw [State.fld_eq, h, RegFile.fld_bump_same 1 (RegFile.setF_wf _ _ hu) hok, hmax,
    RegFile.fld_setF_reg (f := F.ING_REG_DIRTY.CHUNKS) (g := F.TAR_CLOSE_CNT.COUNT) _ d (by decide), State.fld_eq]

end

/-! ### The statement -/

/-- Settles O28: each kind of boundary as the first that has fallen, the order of boundaries, and the grace close of a
meter. -/
theorem tariffBoundariesFallDue : Obligations.TariffBoundariesFallDue := by
  refine ⟨?demand, ?unbound, ?bound, ?bill, fun x y k s hy hne => State.performUntil_later hy hne k,
    fun l x y hx hy => ⟨(firstBoundary_spec hx).2 y hy, (firstBoundary_spec hx).1⟩, ?grace⟩
  case demand =>
    rintro n e k p s hstage hrestart hk rfl hend hfirst
    have hp := s.tarPoint_closeDemand_same n e k
    refine ⟨_, exec_demandClose_first hstage hrestart hk hend hfirst, hp, ?_, ?_, ?_, fun h1 => ?_,
      fun m hm => s.tarPoint_closeDemand_other e k hm, rfl⟩
    · rw [hp]
      rfl
    · rw [hp]
      exact PointTar.closeSub_rate _ k e
    · rw [hp]
      rfl
    · rw [hp]
      exact PointTar.closeSub_dmax_single _ k e h1
  case unbound =>
    rintro c k x s hs hc hb rfl hx ht
    have hk := Calendar.activate_of_passive hx
    have hshown {f : FieldRef} {v : Nat} (hf : (f, v) ∈ calFields c (s.storedCal c).activate) :=
      State.fld_setCal hc hs hf
    rw [hk] at hshown
    refine ⟨_, exec_tariffSwitch_unbound hb hx ht, (Map.findD_set_same ..).trans hk, fun d hd => Map.findD_set_other _ _ hd,
      ?_, ?_, ?_, ?_, (s.onlyRegs_setCal c _).post _ _, rfl⟩
    all_goals rw [State.fld_post, hk]
    · exact hshown (v := 1) (by simp [calFields])
    · exact hshown (v := 0) (by simp [calFields])
    · exact hshown (by simp [calFields])
    · exact hshown (v := 0) (by simp [calFields])
  case bound =>
    rintro c k x s hstage hrestart hb rfl hx hfirst
    obtain ⟨points, htar⟩ := s.followCal_tar c x
    have hpoint (n : Nat) : ((s.followCal c x).legalLog Ev.TAR_ACTIVATED 0xFF
        (legalData [(0, 1, c), (2, 2, calGen x), (4, 4, calActivate x / 60)])).tarPoint n = if n ∈ s.pointsOf c then
          (s.tarPoint n).activated (s.sealedCal c).active x (calActivate x) else s.tarPoint n :=
      (State.tarPoint_of_points (by rw [State.legalLog_tar]) n).trans (s.tarPoint_followCal c x n)
    refine ⟨_, exec_tariffSwitch_first hstage hrestart hb hx hfirst, ?_, fun n hn => ?_, fun n hn => ?_, ?_, rfl, ?_, ?_, ?_⟩
    · rw [State.sealedCal, State.legalLog_tar, htar]
      exact (Map.findD_set_same ..).trans (Calendar.activate_of_passive hx)
    · rw [hpoint, if_pos hn]
      exact ⟨rfl, PointTar.activated_bn _ _ _ _⟩
    · rw [hpoint, if_neg hn]
    · rw [State.legalLog_tar, htar]
      rfl
    · rw [State.legalLog_tar, htar]
      rfl
    · rw [State.legalLog_fresh_length, State.followCal_leg]
    · rw [State.legalLog_evt, State.followCal_queue]
  case bill =>
    rintro n b c k p s hstage hrestart hc hk rfl hb hfirst
    have htar := s.reportBill_tar n b c k false
    refine ⟨_, exec_pointBillingClose_first hstage hrestart hc hk hb hfirst, ?_, ?_, fun m hm => ?_, ?_,
      s.reportBill_exportSeq n b c k false, s.reportBill_fresh_length n b c k false⟩
    · rw [State.tarPoint, htar]
      exact Map.findD_set_same ..
    · rw [htar, ← PointTar.billFlags_scheduled]
      exact Map.find_set_same ..
    · rw [State.tarPoint, htar]
      exact Map.findD_set_other _ _ hm
    · rw [htar]
      rfl
  case grace =>
    rintro i b r s hs rfl hstate hb hgrace
    obtain ⟨missing, hexec⟩ := exec_meterGraceClose_due hstate hb hgrace
    obtain ⟨l, hlogged⟩ := s.tar_logGrace i b
    have hclosed := (s.logGrace i b).tar_meterClose i b missing (s.ing.isn + 1)
    rw [State.closedTar, hlogged] at hclosed
    obtain ⟨x, hlast, hindex, hboundary, hisn, hno⟩ := (s.logGrace i b).snaps_meterClose i b missing (s.ing.isn + 1)
    rw [hlogged] at hno
    refine ⟨_, hexec, ?_, ?_, ?_, ?_, ?_, ?_, ?_, ?_, ⟨x, hlast, hindex, hboundary, hisn, ?_⟩, ?_, ?_, fun j hj => ?_⟩
    · rw [State.meterClose_isn, State.logGrace_isn]
    · rw [State.meterClose_log, State.logGrace_log]
    · rw [State.fld_meterClose_count i b missing _ (State.logGrace_wf hs i b), (s.onlyRegs_logGrace i b).fld (by decide)]
    · rw [hclosed]
    · rw [hclosed]
    · rw [hclosed]
    · rw [hclosed]
      rfl
    · rw [hclosed]
    · rw [hclosed, hno]
    · rw [State.appliedIsn_meterClose]
      exact s.appliedIsn_logGrace i b
    · rw [hclosed]
      exact le_max_right _ _
    · rw [State.meter_meterClose_other _ _ _ _ _ hj, s.meter_logGrace_other b hj]

end Sys2Proof.Machine

/-! A token on its way: what its check answers, what its application leaves of the record, and how the credit state follows
(R203, R205 to R207). -/

namespace Sys2Proof.Machine

/-! ### A record written (R124, R127) -/

theorem MeterRec.withQuality_eq (r : MeterRec) : ∃ q, r.withQuality = { r with lastQuality := q } := by
  unfold MeterRec.withQuality
  split
  · exact ⟨_, rfl⟩
  · exact ⟨r.lastQuality, rfl⟩

@[simp] theorem MeterRec.withQuality_prepay (r : MeterRec) : r.withQuality.prepay = r.prepay := by
  obtain ⟨q, h⟩ := r.withQuality_eq
  rw [h]

@[simp] theorem MeterRec.withQuality_conf (r : MeterRec) : r.withQuality.conf = r.conf := by
  obtain ⟨q, h⟩ := r.withQuality_eq
  rw [h]

@[simp] theorem MeterRec.withQuality_state (r : MeterRec) : r.withQuality.state = r.state := by
  obtain ⟨q, h⟩ := r.withQuality_eq
  rw [h]

section
variable (s : State) (i : Nat) (r : MeterRec)

theorem State.setMeter_log : (s.setMeter i r).ing.log = s.ing.log := by
  obtain ⟨m, d, g, h⟩ := s.setMeter_eq i r
  rw [h]

theorem State.setMeter_toMeter : (s.setMeter i r).ing.toMeter = s.ing.toMeter := by
  obtain ⟨m, d, g, h⟩ := s.setMeter_eq i r
  rw [h]

theorem State.setMeter_evt : (s.setMeter i r).evt = s.evt := by
  obtain ⟨m, d, g, h⟩ := s.setMeter_eq i r
  rw [h]

theorem State.setMeter_pair : (s.setMeter i r).pair = s.pair := by
  obtain ⟨m, d, g, h⟩ := s.setMeter_eq i r
  rw [h]

theorem State.onlyRegs_setMeter : OnlyRegs [R.ING_REG_DIRTY] s (s.setMeter i r) :=
  (OnlyRegs.refl _ s).setF (f := F.ING_REG_DIRTY.CHUNKS) _ (.head _)

theorem State.withholds_setMeter : (s.setMeter i r).withholds = s.withholds := by
  simp only [State.withholds, (s.onlyRegs_setMeter i r).fld (f := F.PAIR_STAT.ROLE) (by decide),
    (s.onlyRegs_setMeter i r).fld (f := F.PAIR_STAT.SYNC) (by decide), State.setMeter_pair]

variable {s} in
theorem State.setMeter_wf (hs : Inv s) : (s.setMeter i r).regs.wf = true :=
  RegFile.setF_wf (m := s.regs) F.ING_REG_DIRTY.CHUNKS _ hs

end

theorem State.meter_post (s : State) (c : Nat) (p : Payload) (k : Nat) : (s.post c p).meter k = s.meter k := rfl

theorem State.withholds_post (s : State) (c : Nat) (p : Payload) : (s.post c p).withholds = s.withholds := rfl

/-! ### The credit state (R203) -/

section
variable (s : State) (i : Nat)

/-- The STATE that R203 gives the credit of a meter. -/
def State.creditState : CreditState := (s.meter i).prepay.judge (s.fld (F.PPY_LOW.LOW (s.meter i).prepay.u))

/-- A record with another credit state. -/
def MeterRec.withCredit (r : MeterRec) (c : CreditState) : MeterRec := { r with prepay := { r.prepay with state := c } }

/-- A new credit state is recorded: a part of `evalCredit`. -/
def State.enterCredit (c : CreditState) : State :=
  (s.setMeter i ((s.meter i).withCredit c)).post Ev.PPY_STATE
    [b4 i, b1 (s.meter i).prepay.state.code, b1 c.code]

variable {s i}

theorem State.evalCredit_same (h : s.creditState i = (s.meter i).prepay.state) : s.evalCredit i = (s, false) := if_pos h

theorem State.evalCredit_changed (h : s.creditState i ≠ (s.meter i).prepay.state) :
    s.evalCredit i = (s.enterCredit i (s.creditState i), true) := if_neg h

theorem State.creditChanged_same (h : s.creditState i = (s.meter i).prepay.state) : s.creditChanged i = s := by
  rw [State.creditChanged, State.evalCredit_same h]
  rfl

theorem State.creditChanged_changed (h : s.creditState i ≠ (s.meter i).prepay.state) :
    s.creditChanged i = (s.enterCredit i (s.creditState i)).tellCredit i 0 := by
  rw [State.creditChanged, State.evalCredit_changed h]
  exact if_pos rfl

variable (s i) (c : CreditState)

theorem State.meter_enterCredit_same : (s.enterCredit i c).meter i = ((s.meter i).withCredit c).withQuality :=
  (State.meter_post ..).trans (s.meter_setMeter_same i _)

theorem State.meter_enterCredit_other {k : Nat} (h : k ≠ i) : (s.enterCredit i c).meter k = s.meter k :=
  (State.meter_post ..).trans (s.meter_setMeter_other _ h)

theorem State.prepay_enterCredit : ((s.enterCredit i c).meter i).prepay = { (s.meter i).prepay with state := c } := by
  rw [State.meter_enterCredit_same, MeterRec.withQuality_prepay, MeterRec.withCredit]

theorem State.conf_enterCredit : ((s.enterCredit i c).meter i).conf = (s.meter i).conf := by
  rw [State.meter_enterCredit_same, MeterRec.withQuality_conf, MeterRec.withCredit]

theorem State.queue_enterCredit : (s.enterCredit i c).evt.queue =
    s.evt.queue ++ [mkPost s Ev.PPY_STATE [b4 i, b1 (s.meter i).prepay.state.code, b1 c.code]] := by
  rw [State.enterCredit, State.post_evt, mkPost_congr ⟨s.evt.queue, s.setMeter_evt i _⟩, State.setMeter_evt]

theorem State.toMeter_enterCredit : (s.enterCredit i c).ing.toMeter = s.ing.toMeter := by
  rw [State.enterCredit, State.post_ing, State.setMeter_toMeter]

theorem State.log_enterCredit : (s.enterCredit i c).ing.log = s.ing.log := by
  rw [State.enterCredit, State.post_ing, State.setMeter_log]

theorem State.withholds_enterCredit : (s.enterCredit i c).withholds = s.withholds := by
  rw [State.enterCredit, State.withholds_post, State.withholds_setMeter]

theorem State.onlyRegs_enterCredit : OnlyRegs [R.ING_REG_DIRTY] s (s.enterCredit i c) :=
  (s.onlyRegs_setMeter i ((s.meter i).withCredit c)).post _ _

/-! The credit-state message -/

variable (cause : Nat)

/-- What is told to a meter waits among the messages to meters or for the digest, and changes nothing else. -/
theorem State.tellCredit_eq :
    ∃ p q, s.tellCredit i cause = { s with pair := p, ing := { s.ing with toMeter := q } } := by
  unfold State.tellCredit State.tellMeter
  split_ifs
  · exact ⟨_, s.ing.toMeter, rfl⟩
  · exact ⟨s.pair, _, rfl⟩
  · exact ⟨s.pair, s.ing.toMeter, rfl⟩

theorem State.meter_tellCredit (k : Nat) : (s.tellCredit i cause).meter k = s.meter k := by
  obtain ⟨p, q, h⟩ := s.tellCredit_eq i cause
  rw [h]
  rfl

theorem State.evt_tellCredit : (s.tellCredit i cause).evt = s.evt := by
  obtain ⟨p, q, h⟩ := s.tellCredit_eq i cause
  rw [h]

/-- Outside a pair in step a meter with PROTOCOL 1 is sent the message at once. -/
theorem State.toMeter_tellCredit {s : State} (hw : s.withholds = false) : (s.tellCredit i cause).ing.toMeter =
    s.ing.toMeter ++ if (s.meter i).conf.protocol = 1 then [(i, creditMessage (s.meter i).prepay cause)] else [] := by
  unfold State.tellCredit State.tellMeter
  rw [hw, Bool.and_false]
  split
  · rfl
  · exact (List.append_nil _).symm

end

/-! ### The steps of a check (R205) -/

/-- A failure is reported, and a token found right waits for its log entry: what both keypad paths do with a check. -/
def reportFailure (r : State × Option Nat) (found : Option Nat) (path : TokenPath) : State :=
  match r with
  | (s, some c) => s.reportToken found c path
  | (s, none) => s

section
variable {s : State} {digits : List Nat} {named : Nat} {found : Option Nat} {path : TokenPath}

theorem State.checkToken_malformed (h : tokenOf digits = none) : s.checkToken digits named found path =
    (s.rejectToken named Cause.TOKEN_FORMAT path, some Cause.TOKEN_FORMAT) := by
  simp only [State.checkToken, h]

theorem State.checkToken_unknown (h : (tokenOf digits).isSome = true) : s.checkToken digits named none path =
    (s.rejectToken named Cause.METER_UNKNOWN path, some Cause.METER_UNKNOWN) := by
  obtain ⟨n, hn⟩ := Option.isSome_iff_exists.mp h
  simp only [State.checkToken, hn]

end

theorem MeterRec.takeCounter_state (r : MeterRec) (c : Option Nat) : (r.takeCounter c).state = r.state := by
  cases c <;> rfl

theorem MeterRec.takeCounter_conf (r : MeterRec) (c : Option Nat) : (r.takeCounter c).conf = r.conf := by
  cases c <;> rfl

/-- The counter of its frame leaves the record of a token as step 2 finds it. -/
theorem State.prepayMeter_takeFrame (s : State) (i : Nat) (f : IngestFrame) :
    (s.takeFrame i f).prepayMeter i = s.prepayMeter i := by
  simp only [State.prepayMeter, State.takeFrame, State.meter_setMeter_same, MeterRec.withQuality_state,
    MeterRec.withQuality_conf, MeterRec.takeCounter_state, MeterRec.takeCounter_conf]

section
variable {s v : State} {f : IngestFrame} {l : List IngestFrame} (hf : s.ing.forwards = f :: l)
include hf

theorem exec_tokenForward_stopped
    (ho : ({ s with ing := { s.ing with forwards := l } } : State).openFrame 0x23 f = (v, none)) :
    exec .tokenForward s = .next v := by
  simp only [exec, execTokenForward, hf, ho]

theorem exec_tokenForward_opened {i : Nat} {plain : List Byte} {x : Bool}
    (ho : ({ s with ing := { s.ing with forwards := l } } : State).openFrame 0x23 f = (v, some (i, plain, x))) :
    exec .tokenForward s = .next (reportFailure
      ((v.takeFrame i f).checkToken (forwardedDigits plain) i ((v.takeFrame i f).prepayMeter i) .meter) (some i) .meter) := by
  simp only [exec, execTokenForward, hf, ho, State.prepayMeter_takeFrame]
  rfl

end

theorem exec_keypadToken_taken {s : State} {m : List (BitVec 64)} {no : Nat} {digits : List Nat}
    (hm : s.headWords 0 = some m) (hx : Export.of (messageOf m).type (messageOf m).body = some (.keypadToken no digits)) :
    exec .keypadToken s = .next (reportFailure ((s.dropHead 0 m.length).checkToken digits
      (((s.dropHead 0 m.length).shortMeter no).getD 0xFFFFFFFF) ((s.dropHead 0 m.length).shortMeter no) .cabinet)
      ((s.dropHead 0 m.length).shortMeter no) .cabinet) := by
  simp only [exec, execKeypadToken, State.takeExport_of_head hm hx, if_true]
  rfl

/-! ### Application (R207) -/

/-- Where the other tokens were logged later, the oldest is applied alone. -/
theorem exec_tokenApply_oldest {s : State} {w : TokenWait} {l : List TokenWait} (h : s.ing.tokens = w :: l)
    (hlater : ∀ y ∈ l, w.loggedAt < y.loggedAt) :
    exec .tokenApply s = .next ((({ s with ing := { s.ing with tokens := l } } : State).applyToken w).reportToken
      (some w.index) 0 w.path) := by
  have hdue : (w :: l).filter (fun y => decide (y.loggedAt ≤ w.loggedAt)) = [w] := by
    rw [List.filter_cons_of_pos (by simp), List.filter_eq_nil_iff.mpr fun y hy => by simpa using hlater y hy]
  have hrest : (w :: l).filter (fun y => !decide (y.loggedAt ≤ w.loggedAt)) = l := by
    rw [List.filter_cons_of_neg (by simp), List.filter_eq_self.mpr fun y hy => by simpa using hlater y hy]
  simp only [exec, execTokenApply, h, State.applyTokens, hdue, hrest, List.foldl_cons, List.foldl_nil]

/-- A record with a token or an adjustment entered in it: a part of `applyToken`. -/
def MeterRec.take (r : MeterRec) (w : TokenWait) : MeterRec :=
  { r with prepay := r.prepay.applied w, appliedIsn := max r.appliedIsn w.isn }

/-- The log entry is kept and the record changed: a part of `applyToken`. -/
def State.enterToken (s : State) (w : TokenWait) : State :=
  (s.logEntry (.token w)).setMeter w.index ((s.meter w.index).take w)

/-- The token is counted and recorded: a part of `applyToken`. -/
def State.countToken (s : State) (w : TokenWait) : State := ((s.enterToken w).bump F.PPY_ACCEPT_CNT.COUNT).postToken w

theorem State.draw_regs (s : State) : s.draw.regs = s.regs := by
  obtain ⟨p, hp⟩ := s.record_eq (.random 0 s.free)
  rw [State.draw, hp]

theorem State.postToken_ing (s : State) (w : TokenWait) : (s.postToken w).ing = s.ing := by
  unfold State.postToken
  split
  · rfl
  · exact s.draw_ing

theorem State.postToken_regs (s : State) (w : TokenWait) : (s.postToken w).regs = s.regs := by
  unfold State.postToken
  split
  · rfl
  · exact s.draw_regs

theorem MeterPrepay.applied_failCnt (p : MeterPrepay) (w : TokenWait) : (p.applied w).failCnt = 0 := rfl

theorem State.countToken_ing (s : State) (w : TokenWait) : (s.countToken w).ing = (s.enterToken w).ing :=
  State.postToken_ing _ w

theorem State.meter_countToken (s : State) (w : TokenWait) :
    (s.countToken w).meter w.index = ((s.meter w.index).take w).withQuality :=
  (congrArg (fun g : IngestState => Map.findD g.meters w.index {}) (s.countToken_ing w)).trans
    (State.meter_setMeter_same _ _ _)

theorem State.prepay_countToken (s : State) (w : TokenWait) :
    ((s.countToken w).meter w.index).prepay = (s.meter w.index).prepay.applied w := by
  rw [State.meter_countToken, MeterRec.withQuality_prepay, MeterRec.take]

theorem State.appliedIsn_countToken (s : State) (w : TokenWait) :
    ((s.countToken w).meter w.index).appliedIsn = max (s.meter w.index).appliedIsn w.isn := by
  rw [State.meter_countToken]
  exact congrArg Prod.fst (MeterRec.applied_withQuality _)

theorem State.log_countToken (s : State) (w : TokenWait) : (s.countToken w).ing.log = s.ing.log ++ [.token w] := by
  rw [State.countToken_ing, State.enterToken, State.setMeter_log, State.logEntry]

theorem ok_ppyAccept : F.PPY_ACCEPT_CNT.COUNT.ok = true := by decide +kernel

theorem State.fld_countToken {s : State} (hs : Inv s) (w : TokenWait) :
    (s.countToken w).fld F.PPY_ACCEPT_CNT.COUNT = min (s.fld F.PPY_ACCEPT_CNT.COUNT + 1) (2 ^ 32 - 1) := by
  have hregs : (s.countToken w).regs = (s.enterToken w).regs.bump F.PPY_ACCEPT_CNT.COUNT 1 := State.postToken_regs _ w
  have hentered : (s.enterToken w).fld F.PPY_ACCEPT_CNT.COUNT = s.fld F.PPY_ACCEPT_CNT.COUNT :=
    ((s.logEntry (.token w)).onlyRegs_setMeter _ _).fld (by decide)
  have hwf : (s.enterToken w).regs.wf = true := State.setMeter_wf (s := s.logEntry (.token w)) _ _ hs
  rw [State.fld, hregs, RegFile.fld_bump_same 1 hwf ok_ppyAccept, ← State.fld_eq, hentered]
  rfl

/-! What follows an application: the credit state of its meter -/

/-- `t` is `s` but for the credit state of meter `i` and what is recorded and told of it. -/
structure CreditFollows (i : Nat) (s t : State) : Prop extends AppliedKept s t where
  prepay : ∃ c, (t.meter i).prepay = { (s.meter i).prepay with state := c }
  log : t.ing.log = s.ing.log
  only : OnlyRegs [R.ING_REG_DIRTY] s t

theorem CreditFollows.refl (i : Nat) (s : State) : CreditFollows i s s :=
  { AppliedKept.refl s with prepay := ⟨_, rfl⟩, log := rfl, only := OnlyRegs.refl _ s }

theorem CreditFollows.evalCredit (i : Nat) (s : State) : CreditFollows i s (s.evalCredit i).1 := by
  have happlied := (AppliedKept.refl s).evalCredit i
  by_cases h : s.creditState i = (s.meter i).prepay.state
  · rw [State.evalCredit_same h]
    exact CreditFollows.refl i s
  · rw [State.evalCredit_changed h] at happlied ⊢
    exact { happlied with
      prepay := ⟨_, s.prepay_enterCredit i _⟩, log := s.log_enterCredit i _, only := s.onlyRegs_enterCredit i _ }

theorem CreditFollows.tellCredit {i : Nat} {s t : State} (h : CreditFollows i s t) (cause : Nat) :
    CreditFollows i s (t.tellCredit i cause) := by
  obtain ⟨p, q, ht⟩ := t.tellCredit_eq i cause
  rw [ht]
  exact { h.toAppliedKept.rest rfl with prepay := h.prepay, log := h.log, only := h.only }

theorem CreditFollows.tellIf {i : Nat} {s t : State} (h : CreditFollows i s t) (b : Bool) (cause : Nat) :
    CreditFollows i s (if b then t.tellCredit i cause else t) := by
  cases b
  · exact h
  · exact h.tellCredit cause

/-- An application is followed by the credit state, told to a meter unless the result on its own path tells it. -/
theorem CreditFollows.applyToken (s : State) (w : TokenWait) : CreditFollows w.index (s.countToken w) (s.applyToken w) := by
  have heval := CreditFollows.evalCredit w.index (s.countToken w)
  obtain ⟨isn, index, act, path, loggedAt⟩ := w
  cases path with
  | meter => exact heval
  | host slot item => exact heval.tellIf _ 0
  | cabinet => exact heval.tellIf _ 0

/-- What a token leaves of the record of its meter, of the counter and of the log. -/
theorem State.applyToken_outcome (w : TokenWait) (u : State) (hu : Inv u) :
    ((u.applyToken w).meter w.index).prepay.credit = ((u.meter w.index).prepay.applied w).credit ∧
    ((u.applyToken w).meter w.index).prepay.failCnt = 0 ∧ w.isn ≤ ((u.applyToken w).meter w.index).appliedIsn ∧
    (u.applyToken w).fld F.PPY_ACCEPT_CNT.COUNT = min (u.fld F.PPY_ACCEPT_CNT.COUNT + 1) (2 ^ 32 - 1) ∧
    (u.applyToken w).ing.log = u.ing.log ++ [.token w] := by
  have h := CreditFollows.applyToken u w
  obtain ⟨c, hprepay⟩ := h.prepay
  have hisn : ((u.applyToken w).meter w.index).appliedIsn = max (u.meter w.index).appliedIsn w.isn :=
    (congrArg Prod.fst (h.applied w.index)).trans (u.appliedIsn_countToken w)
  rw [hprepay, u.prepay_countToken w, hisn, h.only.fld (by decide), State.fld_countToken hu, h.log, u.log_countToken w]
  exact ⟨rfl, (u.meter w.index).prepay.applied_failCnt w, le_max_right _ _, rfl, rfl⟩

/-- A changed credit state is recorded with its event, and told to a meter with PROTOCOL 1 (R203). -/
theorem State.creditChanged_outcome {s : State} {i : Nat} {c : CreditState} (hc : s.creditState i = c)
    (hne : c ≠ (s.meter i).prepay.state) : ∃ t, s.creditChanged i = t ∧
      ((t.meter i).prepay = { (s.meter i).prepay with state := c }) ∧
      t.evt.queue = s.evt.queue ++ [mkPost s Ev.PPY_STATE [b4 i, b1 (s.meter i).prepay.state.code, b1 c.code]] ∧
      (s.withholds = false → t.ing.toMeter = s.ing.toMeter ++ (if (s.meter i).conf.protocol = 1 then
        [(i, creditMessage (t.meter i).prepay 0)] else [])) ∧
      (∀ k, k ≠ i → t.meter k = s.meter k) := by
  subst hc
  refine ⟨_, State.creditChanged_changed hne, ?_, ?_, fun hw => ?_, fun k hk => ?_⟩
  · rw [State.meter_tellCredit, State.prepay_enterCredit]
  · rw [State.evt_tellCredit, State.queue_enterCredit]
  · rw [State.toMeter_tellCredit i 0 ((s.withholds_enterCredit i _).trans hw), State.toMeter_enterCredit,
      State.conf_enterCredit, State.meter_tellCredit]
  · rw [State.meter_tellCredit, s.meter_enterCredit_other i _ hk]

/-- Settles O33: the application, the two keypad paths by their check, and the credit state by whether it changes. -/
theorem tokensAreCheckedAndApplied : Obligations.TokensAreCheckedAndApplied := by
  refine ⟨fun w l s => exec_tokenApply_oldest, State.applyToken_outcome,
    fun f l s v hf => ⟨exec_tokenForward_stopped hf, ?forwarded⟩, ?entered,
    fun digits named found path s => ⟨State.checkToken_malformed, ?unknown⟩, fun _ _ => rfl,
    fun i s => ⟨State.creditChanged_same, fun c => State.creditChanged_outcome⟩⟩
  case forwarded =>
    intro i plain x ho
    rw [exec_tokenForward_opened hf ho]
    exact ⟨fun y hy => by rw [hy, reportFailure], fun y c hy => by rw [hy, reportFailure]⟩
  case entered =>
    rintro no digits m found s u hm hx rfl rfl
    rw [exec_keypadToken_taken hm hx]
    exact ⟨fun y hy => by rw [hy, reportFailure], fun y c hy => by rw [hy, reportFailure]⟩
  case unknown =>
    rintro h rfl
    exact State.checkToken_unknown h

end Sys2Proof.Machine

/-! What the sealed partition shows of itself, and an output that it sends (R213, R216, R219, R223). -/

namespace Sys2Proof.Machine

theorem ok_legSlot : F.LEG_STAT.SLOT.ok = true := by decide +kernel

theorem ok_optBusy : F.LEG_STAT.OPT_BUSY.ok = true := by decide +kernel

theorem ok_dispFault : F.LEG_STAT.DISP_FAULT.ok = true := by decide +kernel

theorem ok_legalUpd : F.LEG_STAT.LEGAL_UPD.ok = true := by decide +kernel

theorem ok_legRun : F.LEG_STAT.RUN.ok = true := by decide +kernel

theorem ok_legLogSeq : F.LEG_LOG_SEQ.LSEQ.ok = true := by decide +kernel

theorem ok_slotState {i : Nat} (h : i < 3) : (F.LEG_SLOT.STATE i).ok = true :=
  (by decide +kernel : ∀ i < 3, (F.LEG_SLOT.STATE i).ok = true) i h

section
variable {s : State} (hs : Inv s) (f : FieldRef)
include hs

theorem State.bump_inv (n : Nat) : Inv (s.bump f n) := RegFile.bump_wf f n hs

theorem State.flag_inv (b : Bool) : Inv (s.flag f b) := RegFile.flag_wf f b hs

end

/-- Registers hold nothing of the sealed cores' own state. -/
theorem State.leg_withRegs (s : State) (m : RegFile) : ({ s with regs := m } : State).leg = s.leg := rfl

/-- An output goes out, is withheld, or is dropped: no more of the state changes (R391, R398, R414). -/
theorem State.send_eq (s : State) (o : Output) :
    s.send o = { s with pair := (s.send o).pair, out := (s.send o).out } := by
  unfold State.send
  split
  · rfl
  split
  · rfl
  split <;> rfl

section
variable (s : State) (o : Output)

@[simp] theorem State.send_regs : (s.send o).regs = s.regs := by rw [State.send_eq]

@[simp] theorem State.send_leg : (s.send o).leg = s.leg := by rw [State.send_eq]

@[simp] theorem State.send_evt : (s.send o).evt = s.evt := by rw [State.send_eq]

@[simp] theorem State.send_qty : (s.send o).qty = s.qty := by rw [State.send_eq]

theorem State.send_inv {s : State} (hs : Inv s) : Inv (s.send o) := by rwa [Inv, State.send_regs]

end

end Sys2Proof.Machine

/-! The debounced legal input, and the activation of a sealed slot with its fallback (R213, R215, R216, R218). -/

namespace Sys2Proof.Machine

/-! ### The legal log (R218) -/

/-- The entry that `legalLog` makes. -/
def State.nextLegal (s : State) (code mp data : Nat) : LegalEntry :=
  ⟨s.leg.lseq + s.leg.fresh.length + 1, code, mp, s.evt.opSeconds.toNat,
    if s.fld F.CLK_QUAL.QUALITY = 3 then 0 else s.clk.ns / 1000000000, data⟩

theorem State.legalLog_leg (s : State) (code mp data : Nat) :
    (s.legalLog code mp data).leg = { s.leg with fresh := s.leg.fresh ++ [s.nextLegal code mp data] } := rfl

theorem State.onlyRegs_legalLog (s : State) (code mp data : Nat) : OnlyRegs [R.LEG_LOG_SEQ] s (s.legalLog code mp data) :=
  (OnlyRegs.refl _ s).setF (f := F.LEG_LOG_SEQ.LSEQ) _ (.head _)

theorem State.fld_legalLog {s : State} (hs : Inv s) (code mp data : Nat) :
    (s.legalLog code mp data).fld F.LEG_LOG_SEQ.LSEQ = (s.nextLegal code mp data).lseq % 2 ^ 32 :=
  RegFile.fld_setF_same _ hs ok_legLogSeq

/-! ### The legal input (R213) -/

/-- The debounced state of the input changes: a part of `execLegalUpdChange`. -/
def State.enterUpd (s : State) : State :=
  (s.flag F.LEG_STAT.LEGAL_UPD s.leg.updLevel).legalLog Ev.LEGAL_UPD 0xFF (legalData [(0, 1, s.leg.updLevel.toNat)])

theorem exec_legalUpdChange (s : State) : exec .legalUpdChange s =
    .next (if s.leg.updHeld < 20 ∨ s.fld F.LEG_STAT.LEGAL_UPD = s.leg.updLevel.toNat then s else s.enterUpd) := by
  simp only [exec, execLegalUpdChange, State.enterUpd]
  cases s.leg.updLevel <;> rfl

theorem State.onlyRegs_enterUpd (s : State) : OnlyRegs [R.LEG_STAT, R.LEG_LOG_SEQ] s s.enterUpd := fun a ha =>
  (State.onlyRegs_legalLog _ _ _ _ a fun h => ha (.tail _ h)).trans
    ((OnlyRegs.refl _ s).flag (f := F.LEG_STAT.LEGAL_UPD) s.leg.updLevel (.head _) a ha)

theorem State.fld_enterUpd {s : State} (hs : Inv s) : s.enterUpd.fld F.LEG_STAT.LEGAL_UPD = s.leg.updLevel.toNat := by
  rw [State.enterUpd, (State.onlyRegs_legalLog _ _ _ _).fld (by decide), State.fld_flag_same _ hs ok_legalUpd]
  cases s.leg.updLevel <;> rfl

/-! ### The result of an activation (R215, R216) -/

theorem SealedQueuesOnly.act {s t : State} (h : SealedQueuesOnly s t) : t.leg.act = s.leg.act := by rw [h.eq]

theorem State.endAct_act (s : State) (a : SealedAct) (cause : Nat) : (s.endAct a cause).leg.act = none :=
  (State.export_only _ _).act

theorem State.activationRuns_act (s : State) (a : SealedAct) (old : Nat) (traced : Bool) :
    (s.activationRuns a old traced).leg.act = none := State.endAct_act _ _ _

/-- No activation is left: a part of `endAct`. -/
def State.dropAct (s : State) : State := { s with leg := { s.leg with act := none } }

theorem State.dropAct_regs (s : State) : s.dropAct.regs = s.regs := rfl

theorem State.fld_dropAct (s : State) (f : FieldRef) : s.dropAct.fld f = s.fld f := rfl

theorem State.endAct_reject (s : State) (a : SealedAct) : s.endAct a Cause.SEALED_REJECT =
    (s.countReject 0x0105).dropAct.export_ (.reqResult a.seq Cause.SEALED_REJECT []) := by
  simp only [State.endAct, if_true, State.dropAct]

theorem State.dropAct_countReject (s : State) (type : Nat) : (s.countReject type).dropAct =
    { s with regs := (s.countReject type).regs, leg := { s.leg with act := none } } :=
  congrArg State.dropAct (s.countReject_eq type)

/-! ### The cut of an activation (R115, R119, R216) -/

/-- An output that is stopped: a part of `stopPulses`. -/
def PulseState.stopped (c : PulseState) : PulseState :=
  if c.clear then { c with phase := .idle, left := 0, ready := false, r := 0, due := 0, clear := false }
  else { c with phase := .idle, left := 0, ready := false }

theorem PulseState.stopped_phase (c : PulseState) : c.stopped.phase = .idle := by
  unfold PulseState.stopped
  split <;> rfl

section
variable (s : State)

theorem State.drive_kept (j : Nat) (on : Bool) : (s.drive j on).qty = s.qty ∧ (s.drive j on).regs = s.regs := by
  unfold State.drive
  split
  · exact ⟨State.send_qty _ _, State.send_regs _ _⟩
  · exact ⟨rfl, rfl⟩

/-- The edges of the outputs that stop change no register and nothing metered. -/
theorem State.drives_kept (l : List Nat) : (l.foldl (fun t j => t.drive j false) s).qty = s.qty ∧
    (l.foldl (fun t j => t.drive j false) s).regs = s.regs :=
  List.foldlRecOn (motive := fun t : State => t.qty = s.qty ∧ t.regs = s.regs) l _ ⟨rfl, rfl⟩ fun t ht j _ =>
    ⟨(t.drive_kept j false).1.trans ht.1, (t.drive_kept j false).2.trans ht.2⟩

theorem State.stopPulses_pulses : s.stopPulses.qty.pulses = Map.mapVals (fun _ => PulseState.stopped) s.qty.pulses :=
  congrArg QtyState.pulses (State.drives_kept _ _).1

theorem State.onlyRegs_stopPulses : OnlyRegs ((List.range 16).map R.QTY_PULSE_STAT) s s.stopPulses := by
  refine fun a ha => (congrArg (RegFile.get · a) (State.drives_kept _ _).2).trans
    (RegFile.get_foldl_other (fun m j hj => ?_) _)
  exact RegFile.get_showPulse_other j false _ fun he => ha (he ▸ List.mem_map_of_mem hj)

theorem State.stopPulses_idle (j : Nat) : (Map.findD s.stopPulses.qty.pulses j {}).phase = .idle := by
  rw [State.stopPulses_pulses]
  exact Map.findD_mapVals (fun _ y : PulseState => y.phase = .idle) (a := ({} : PulseState)) rfl PulseState.stopped_phase

variable {s} (a : SealedAct) (bad : List Nat)

theorem State.activationCut_act : (s.activationCut a bad).leg.act =
    some { a with begun := some (s.now, s.sealedSlot, s.fld F.LEG_STAT.LEGAL_UPD == 0) } := rfl

theorem State.activationCut_idle (j : Nat) : (Map.findD (s.activationCut a bad).qty.pulses j {}).phase = .idle :=
  State.stopPulses_idle _ j

theorem State.fld_activationCut (hs : Inv s) : (s.activationCut a bad).fld F.LEG_STAT.RUN = 0 := by
  have hstop := ((s.finalCheckpoint bad).flag F.LEG_STAT.RUN false).onlyRegs_stopPulses.fld (f := F.LEG_STAT.RUN) (by decide)
  exact hstop.trans (State.fld_flag_same false ((State.finalCheckpoint_keeps (Keeps.refl s) bad).regs hs) ok_legRun)

end

/-! ### The fallback (R216, R218) -/

/-- A fallback is recorded and logged: a part of `execSealedFallback`. -/
def State.logFallback (s : State) (data : Nat) : State :=
  (s.post Ev.SEALED_FALLBACK []).legalLog Ev.SEALED_FALLBACK 0xFF data

theorem State.logFallback_fresh (s : State) (data : Nat) : (s.logFallback data).leg.fresh =
    s.leg.fresh ++ [s.nextLegal Ev.SEALED_FALLBACK 0xFF data] := rfl

theorem State.logFallback_queue (s : State) (data : Nat) : (s.logFallback data).evt.queue =
    s.evt.queue ++ [mkPost s Ev.SEALED_FALLBACK []] := by
  rw [State.logFallback, State.legalLog_evt, State.post_evt]

/-! ### An activation that is due (R215, R216) -/

section
variable {a : SealedAct} {s : State} (ha : s.leg.act = some a)
include ha

section
variable (hb : a.begun = none) (b : Bool) (bad : List Nat)
include hb

theorem exec_sealedActivation_early (h : s.now < a.due) : exec (.sealedActivation b bad) s = .next s := by
  simp only [exec, execSealedActivation, ha, hb, if_pos h]

variable (hdue : a.due ≤ s.now)
include hdue

theorem exec_sealedActivation_applied (h : s.warp.appliedAt = some s.now) : exec (.sealedActivation b bad) s =
    .next { s with leg := { s.leg with act := some { a with due := s.now + 1 } } } := by
  simp only [exec, execSealedActivation, ha, hb, if_neg (Nat.not_lt.mpr hdue), if_pos h]

variable (happlied : s.warp.appliedAt ≠ some s.now)
include happlied

theorem exec_sealedActivation_forbidden (h : s.mayActivate a.slot = false) :
    exec (.sealedActivation b bad) s = .next (s.endAct a Cause.SEALED_REJECT) := by
  simp only [exec, execSealedActivation, ha, hb, if_neg (Nat.not_lt.mpr hdue), if_neg happlied, h, Bool.not_false, if_true]

theorem exec_sealedActivation_cut (h : s.mayActivate a.slot = true) : exec (.sealedActivation b bad) s = .next (if b then
    (s.activationCut a bad).activationRuns a s.sealedSlot (s.fld F.LEG_STAT.LEGAL_UPD == 0) else s.activationCut a bad) := by
  simp only [exec, execSealedActivation, ha, hb, if_neg (Nat.not_lt.mpr hdue), if_neg happlied, h, Bool.not_true,
    Bool.false_eq_true, if_false]

end

/-! ### An activation whose cores restart (R216) -/

section
variable {p old : Nat} {traced : Bool} (hb : a.begun = some (p, old, traced))
include hb

theorem exec_sealedActivation_begun (b : Bool) (bad : List Nat) : exec (.sealedActivation b bad) s =
    .next (if b ∧ s.now < p + 500 then s.activationRuns a old traced else s) := by
  simp only [exec, execSealedActivation, ha, hb]

theorem exec_sealedFallback_early (h : s.now < p + 500) : exec .sealedFallback s = .next s := by
  simp only [exec, execSealedFallback, ha, hb, if_pos h]

theorem exec_sealedFallback_late (h : p + 500 ≤ s.now) : exec .sealedFallback s =
    .next (((s.setF (F.LEG_SLOT.STATE a.slot) 4).sealedStart.logFallback (legalData [(0, 1, a.slot), (1, 1, old),
      (4, 4, s.fld (F.LEG_SLOT.VERSION a.slot))])).endAct a Cause.SEALED_REJECT) := by
  simp only [exec, execSealedFallback, ha, hb, if_neg (Nat.not_lt.mpr h), State.logFallback]

end
end

/-! ### The roles of the slots (R216) -/

/-- A slot in reserve becomes one with an image received: a part of `swapSlots`. -/
def RegFile.dropReserve (m : RegFile) (i : Nat) : RegFile :=
  if m.fld (F.LEG_SLOT.STATE i) = 2 then m.setF (F.LEG_SLOT.STATE i) 3 else m

theorem legSlot_ne {i j : Nat} (h : i ≠ j) : R.LEG_SLOT i ≠ R.LEG_SLOT j := by
  unfold R.LEG_SLOT
  omega

theorem legStat_ne_legSlot (i : Nat) : R.LEG_STAT ≠ R.LEG_SLOT i := by
  unfold R.LEG_STAT R.LEG_SLOT
  omega

section
variable {m : RegFile} {i : Nat}

theorem RegFile.dropReserve_wf (hm : m.wf = true) (j : Nat) : (m.dropReserve j).wf = true :=
  RegFile.ite_wf (fun _ => RegFile.setF_wf _ _ hm) fun _ => hm

theorem RegFile.fld_dropReserve_other {j : Nat} (h : i ≠ j) :
    (m.dropReserve j).fld (F.LEG_SLOT.STATE i) = m.fld (F.LEG_SLOT.STATE i) := by
  unfold RegFile.dropReserve
  split
  · exact RegFile.fld_setF_reg m 3 (legSlot_ne h)
  · rfl

theorem RegFile.fld_dropReserve_same (hm : m.wf = true) (hi : i < 3) : (m.dropReserve i).fld (F.LEG_SLOT.STATE i) =
    if m.fld (F.LEG_SLOT.STATE i) = 2 then 3 else m.fld (F.LEG_SLOT.STATE i) := by
  unfold RegFile.dropReserve
  split
  · exact RegFile.fld_setF_same 3 hm (ok_slotState hi)
  · rfl

theorem RegFile.fld_dropReserves (hi : i < 3) {l : List Nat} (hl : l.Nodup) (hmem : i ∈ l) (hm : m.wf = true) :
    (l.foldl RegFile.dropReserve m).fld (F.LEG_SLOT.STATE i) =
      if m.fld (F.LEG_SLOT.STATE i) = 2 then 3 else m.fld (F.LEG_SLOT.STATE i) := by
  induction l generalizing m with
  | nil => cases hmem
  | cons j l ih =>
    obtain ⟨hj, hl⟩ := List.nodup_cons.mp hl
    rcases List.mem_cons.mp hmem with rfl | hmem
    · have hrest : (l.foldl RegFile.dropReserve (m.dropReserve i)).fld (F.LEG_SLOT.STATE i) =
          (m.dropReserve i).fld (F.LEG_SLOT.STATE i) :=
        List.foldlRecOn (motive := fun n : RegFile => n.fld (F.LEG_SLOT.STATE i) = _) l _ rfl fun n hn k hk =>
          (RegFile.fld_dropReserve_other (ne_of_mem_of_not_mem hk hj).symm).trans hn
      exact hrest.trans (RegFile.fld_dropReserve_same hm hi)
    · rw [List.foldl_cons, ih hl hmem (RegFile.dropReserve_wf hm j),
        RegFile.fld_dropReserve_other (ne_of_mem_of_not_mem hmem hj)]

end

section
variable (s : State) (new old : Nat)

/-- The roles of the slots after an activation. -/
def RegFile.swapSlots (m : RegFile) : RegFile :=
  (((List.range 3).foldl RegFile.dropReserve m).setF (F.LEG_SLOT.STATE old) 2).setF (F.LEG_SLOT.STATE new) 1

theorem State.swapSlots_eq :
    s.swapSlots new old = { s with regs := (s.regs.swapSlots new old).setF F.LEG_STAT.SLOT new } := rfl

theorem State.fld_swapSlots_state (i : Nat) : (s.swapSlots new old).fld (F.LEG_SLOT.STATE i) =
    (s.regs.swapSlots new old).fld (F.LEG_SLOT.STATE i) := by
  rw [State.fld, State.swapSlots_eq, RegFile.fld_setF_reg _ _ (legStat_ne_legSlot i).symm]

variable {s new old} (hs : Inv s)
include hs

theorem State.dropReserves_wf : ((List.range 3).foldl RegFile.dropReserve s.regs).wf = true :=
  RegFile.foldl_wf _ (fun _ j hm => RegFile.dropReserve_wf hm j) hs

theorem State.swapSlots_wf : (s.regs.swapSlots new old).wf = true :=
  RegFile.setF_wf _ _ (RegFile.setF_wf _ _ (State.dropReserves_wf hs))

theorem State.fld_swapSlots_new (hnew : new < 3) : (s.swapSlots new old).fld (F.LEG_SLOT.STATE new) = 1 := by
  rw [State.fld_swapSlots_state]
  exact RegFile.fld_setF_same 1 (RegFile.setF_wf _ _ (State.dropReserves_wf hs)) (ok_slotState hnew)

theorem State.fld_swapSlots_old (hold : old < 3) (hne : new ≠ old) :
    (s.swapSlots new old).fld (F.LEG_SLOT.STATE old) = 2 := by
  rw [State.fld_swapSlots_state, RegFile.swapSlots, RegFile.fld_setF_reg _ _ (legSlot_ne hne.symm)]
  exact RegFile.fld_setF_same 2 (State.dropReserves_wf hs) (ok_slotState hold)

theorem State.fld_swapSlots_third {i : Nat} (hi : i < 3) (hnew : i ≠ new) (hold : i ≠ old) :
    (s.swapSlots new old).fld (F.LEG_SLOT.STATE i) =
      if s.fld (F.LEG_SLOT.STATE i) = 2 then 3 else s.fld (F.LEG_SLOT.STATE i) := by
  rw [State.fld_swapSlots_state, RegFile.swapSlots, RegFile.fld_setF_reg _ _ (legSlot_ne hnew),
    RegFile.fld_setF_reg _ _ (legSlot_ne hold)]
  exact RegFile.fld_dropReserves hi List.nodup_range (List.mem_range.mpr hi) hs

theorem State.fld_swapSlots_slot (hnew : new < 3) : (s.swapSlots new old).fld F.LEG_STAT.SLOT = new := by
  rw [State.fld, State.swapSlots_eq, RegFile.fld_setF_same _ (State.swapSlots_wf hs) ok_legSlot]
  exact Nat.mod_eq_of_lt (lt_trans hnew (by decide))

end

/-! ### The statement -/

/-- Settles O36: the input by how long its level has held, the activation at its boundary and after it, and the slots. -/
theorem sealedActivationSwapsTheSlots : Obligations.SealedActivationSwapsTheSlots := by
  refine ⟨fun s h => ?held, fun s hs h20 hne => ?changes, fun b s => rfl,
    fun a b bad s ha hb => ⟨exec_sealedActivation_early ha hb b bad, exec_sealedActivation_applied ha hb b bad,
      fun hdue happlied hmay hs => ?forbidden, fun hdue happlied hmay hs => ?cut⟩,
    fun a p old traced bad s ha hb => ⟨fun hearly => ?answers, fun hlate => ?falls⟩,
    fun new old s hs hnew hold hne => ⟨_, rfl, State.fld_swapSlots_new hs hnew, State.fld_swapSlots_old hs hold hne,
      State.fld_swapSlots_slot hs hnew, fun i hi => State.fld_swapSlots_third hs hi, rfl⟩⟩
  case held => rw [exec_legalUpdChange, if_pos h]
  case changes =>
    have hchange : ¬(s.leg.updHeld < 20 ∨ s.fld F.LEG_STAT.LEGAL_UPD = s.leg.updLevel.toNat) :=
      not_or.mpr ⟨Nat.not_lt.mpr h20, hne⟩
    refine ⟨s.enterUpd, _, ?_, State.fld_enterUpd hs, State.legalLog_leg _ _ _ _, rfl, rfl, rfl, rfl,
      State.fld_legalLog (State.flag_inv hs _ _) _ _ _, s.onlyRegs_enterUpd⟩
    rw [exec_legalUpdChange, if_neg hchange]
  case forbidden =>
    exact ⟨_, _, exec_sealedActivation_forbidden ha hb b bad hdue happlied hmay, s.endAct_reject a,
      s.dropAct_countReject 0x0105, (s.onlyRegs_countReject 0x0105).of_regs (State.dropAct_regs _),
      (State.fld_dropAct _ _).trans (State.fld_countReject_type hs (by decide))⟩
  case cut =>
    have hcut := fun runs => exec_sealedActivation_cut ha hb runs bad hdue happlied hmay
    exact ⟨_, s.activationCut a bad, hcut false, hcut true, State.activationCut_act a bad, State.fld_activationCut a bad hs,
      State.activationCut_idle a bad, State.activationRuns_act _ _ _ _, rfl⟩
  case answers =>
    refine ⟨?_, State.activationRuns_act _ _ _ _, ?_, exec_sealedFallback_early ha hb hearly⟩
    · rw [exec_sealedActivation_begun ha hb, if_pos ⟨rfl, hearly⟩]
    · rw [exec_sealedActivation_begun ha hb, if_neg fun h => Bool.false_ne_true h.1]
  case falls =>
    refine ⟨?_, _, _, _, _, exec_sealedFallback_late ha hb hlate, rfl, rfl, State.endAct_act _ _ _,
      State.logFallback_fresh _ _, rfl, State.logFallback_queue _ _⟩
    rw [exec_sealedActivation_begun ha hb, if_neg fun h => Nat.not_lt.mpr hlate h.2]

end Sys2Proof.Machine

/-! The legal display: its lines, the frames it is sent, and what it shows (R219 to R221, R278). -/

namespace Sys2Proof.Machine

/-! ### What is shown (R219, R220) -/

section
variable (s : State)

theorem State.showLines_eq (l0 l1 : List Byte) (note : Bool) : s.showLines l0 l1 note =
    { s with leg := { s.leg with frames := (s.showLines l0 l1 note).leg.frames } } := rfl

theorem State.showItem_eq : s.showItem = { s with leg := { s.leg with frames := s.showItem.leg.frames } } := by
  unfold State.showItem
  split
  · rfl
  split
  · rfl
  · exact s.showLines_eq _ _ _

theorem State.nextItem_eq {l : LegalSection} (h : s.legal = some l) : s.nextItem = { s with leg := { s.leg with
    dispItem := if s.leg.dispItem + 1 < l.dispCount then s.leg.dispItem + 1 else 0
    stepped := s.now
    frames := s.nextItem.leg.frames } } := by
  simp only [State.nextItem, h]
  exact State.showItem_eq _

theorem State.resumeStepping_eq : s.resumeStepping = { s with leg := { s.leg with
    showing := .stepping, stepped := s.now, frames := s.resumeStepping.leg.frames } } := State.showItem_eq _

end

/-! ### A keypad request ends (R221) -/

section
variable {s : State}

theorem State.endRequest_of_none (h : ∀ d p x, s.leg.showing ≠ .request d p x) : s.endRequest = s := by
  unfold State.endRequest
  split
  · next d p x q hx => exact absurd hx (h _ _ _)
  · next d p hx => exact absurd hx (h _ _ _)
  · rfl

variable {d p : Nat}

theorem State.endRequest_alone (h : s.leg.showing = .request d p none) : s.endRequest = s.resumeStepping := by
  simp only [State.endRequest, h]

variable {x : List Byte} {q : Nat} (h : s.leg.showing = .request d p (some (x, q)))
include h

theorem State.endRequest_noteLasts (hq : s.now < q) : s.endRequest = s.showNote x q := by
  simp only [State.endRequest, h, if_pos hq]

theorem State.endRequest_noteOver (hq : q ≤ s.now) : s.endRequest = s.resumeStepping := by
  simp only [State.endRequest, h, if_neg (Nat.not_lt.mpr hq)]

end

/-- However a request ends, the display keeps its item. -/
theorem State.endRequest_frame (s : State) :
    s.endRequest.leg.dispItem = s.leg.dispItem ∧ s.endRequest = { s with leg := s.endRequest.leg } := by
  have hresume : s.resumeStepping.leg.dispItem = s.leg.dispItem ∧
      s.resumeStepping = { s with leg := s.resumeStepping.leg } := by
    rw [State.resumeStepping_eq]
    exact ⟨rfl, rfl⟩
  unfold State.endRequest
  split
  · split
    · exact ⟨rfl, State.showNote_eq _ _⟩
    · exact hresume
  · exact hresume
  · exact ⟨rfl, rfl⟩

/-! ### Frames (R219, R278) -/

/-- The frame at the head has been accepted: a part of `execDisplayFrame`. -/
def State.frameAccepted (s : State) (f : DispFrame) (l : List DispFrame) : State :=
  { s with
    leg := { s.leg with frames := l, tries := 0 }
    regs := if f.code = 1 then s.regs.flag F.LEG_STAT.DISP_FAULT false else s.regs }

/-- The display has answered no attempt: a part of `execDisplayFrame`. -/
def State.displayFails (s : State) : State :=
  (({ s with leg := { s.leg with frames := [], tries := 0, initAt := s.now + 1000 } } : State).flag
    F.LEG_STAT.DISP_FAULT true).post Ev.DISPLAY_FAULT []

theorem exec_displayFrame_idle {s : State} (a : Option Bool) (h : s.role 59 ≠ 1 ∨ s.leg.frames = []) :
    exec (.displayFrame a) s = .next s := by
  simp only [exec, execDisplayFrame]
  split
  · rfl
  · next hrole => rw [h.resolve_left hrole]

section
variable {f : DispFrame} {l : List DispFrame} {s : State} (hrole : s.role 59 = 1) (hf : s.leg.frames = f :: l)
include hrole hf

theorem exec_displayFrame_answered :
    exec (.displayFrame (some true)) s = .next ((s.send (.display f.bytes)).frameAccepted f l) := by
  simp only [exec, execDisplayFrame, hrole, hf, ne_eq, not_true, if_true, if_false]
  rfl

variable {a : Option Bool} (ha : a ≠ some true)
include ha

theorem exec_displayFrame_retried (htries : s.leg.tries < 3) : exec (.displayFrame a) s =
    .next { s.send (.display f.bytes) with leg := { s.leg with tries := s.leg.tries + 1 } } := by
  simp only [exec, execDisplayFrame, hrole, hf, ne_eq, not_true, if_false, if_neg ha, if_pos htries, State.send_leg]

theorem exec_displayFrame_fails (htries : 3 ≤ s.leg.tries) (hfault : s.fld F.LEG_STAT.DISP_FAULT = 0) :
    exec (.displayFrame a) s = .next (s.send (.display f.bytes)).displayFails := by
  have hnow : (s.send (.display f.bytes)).now = s.now := by rw [State.send_eq, State.now, State.now]
  simp only [exec, execDisplayFrame, hrole, hf, ne_eq, not_true, if_false, if_neg ha, if_neg (Nat.not_lt.mpr htries), hfault,
    if_true, BEq.rfl, State.postIf_eq, State.displayFails, hnow]

end

section
variable {s : State} (hs : Inv s)
include hs

theorem State.fld_frameAccepted_init {f : DispFrame} (hf : f.code = 1) (l : List DispFrame) :
    (s.frameAccepted f l).fld F.LEG_STAT.DISP_FAULT = 0 := by
  rw [State.fld, State.frameAccepted, if_pos hf]
  exact RegFile.fld_flag_same false hs ok_dispFault

theorem State.fld_displayFails : s.displayFails.fld F.LEG_STAT.DISP_FAULT = 1 := by
  rw [State.displayFails, State.fld_post]
  exact State.fld_flag_same (s := { s with leg := _ }) true hs ok_dispFault

end

theorem State.onlyRegs_frameAccepted (s : State) (f : DispFrame) (l : List DispFrame) :
    OnlyRegs [R.LEG_STAT] s (s.frameAccepted f l) := by
  have hflag := (OnlyRegs.refl [R.LEG_STAT] s).flag (f := F.LEG_STAT.DISP_FAULT) false (.head _)
  by_cases hf : f.code = 1
  · exact hflag.of_regs (if_pos hf)
  · exact (OnlyRegs.refl _ s).of_regs (if_neg hf)

theorem State.onlyRegs_displayFails (s : State) : OnlyRegs [R.LEG_STAT] s s.displayFails :=
  (OnlyRegs.refl [R.LEG_STAT] s).flag (f := F.LEG_STAT.DISP_FAULT) true (.head _)

/-! ### The statement -/

/-- Settles O37: a frame by its answer and the attempts made, and what is shown by the time that it ends. -/
theorem displayRetriesStepsAndResumes : Obligations.DisplayRetriesStepsAndResumes := by
  refine ⟨fun a s => exec_displayFrame_idle a, fun f l s hs hrole hf => ⟨?answered, ?retried, ?fails⟩,
    fun s hfault hat => congrArg _ (if_pos ⟨hfault, hat⟩), fun l s hl hstep => ⟨?steady, ?steps⟩,
    fun x p s hx => ⟨?noteLasts, ?noteEnds⟩, fun d p b s hb => ⟨?requestLasts, ?requestEnds⟩⟩
  case answered =>
    refine ⟨_, exec_displayFrame_answered hrole hf, rfl, ?_,
      fun hcode => ⟨State.fld_frameAccepted_init (State.send_inv _ hs) hcode l, ?_⟩, fun hcode => ?_⟩
    · rw [State.frameAccepted, State.send_leg]
    · exact fun r hr => (State.onlyRegs_frameAccepted _ f l r hr).trans (by rw [State.send_regs])
    · rw [State.frameAccepted, if_neg hcode, State.send_regs]
  case retried =>
    exact fun a ha htries => ⟨_, exec_displayFrame_retried hrole hf ha htries, rfl, rfl, State.send_regs _ _,
      State.send_evt _ _⟩
  case fails =>
    intro a ha htries hfault
    refine ⟨_, exec_displayFrame_fails hrole hf ha htries hfault, rfl, ?_,
      State.fld_displayFails (State.send_inv _ hs), ?_, ?_⟩
    · rw [State.displayFails, State.send_eq]
      rfl
    · rw [State.displayFails, State.send_eq]
      rfl
    · exact fun r hr => (State.onlyRegs_displayFails _ r hr).trans (by rw [State.send_regs])
  case steady =>
    intro hlt
    simp only [exec, execDisplayStep, hl, if_neg fun h : _ ∧ _ => Nat.not_le.mpr hlt h.2]
  case steps =>
    intro hle
    refine ⟨s.nextItem, ?_, ?_⟩
    · simp only [exec, execDisplayStep, hl, if_pos (And.intro hstep hle)]
    · rw [s.nextItem_eq hl]
      exact ⟨rfl, rfl, hstep, rfl⟩
  case noteLasts =>
    intro hlt
    simp only [exec, execDisplayNoteEnd, hx, if_neg (Nat.not_le.mpr hlt)]
  case noteEnds =>
    intro hle
    refine ⟨s.resumeStepping, ?_, ?_⟩
    · simp only [exec, execDisplayNoteEnd, hx, if_pos hle]
    · rw [State.resumeStepping_eq]
      exact ⟨rfl, rfl, rfl, rfl⟩
  case requestLasts =>
    intro hlt
    simp only [exec, execDisplayRequestEnd, hb, if_neg (Nat.not_le.mpr hlt)]
  case requestEnds =>
    intro hle
    have hresumes : s.resumeStepping.leg.showing = .stepping ∧ s.resumeStepping.leg.stepped = s.now := by
      rw [State.resumeStepping_eq]
      exact ⟨rfl, rfl⟩
    obtain ⟨hitem, hframe⟩ := s.endRequest_frame
    refine ⟨s.endRequest, ?_, hitem, hframe, ?_, ?_⟩
    · simp only [exec, execDisplayRequestEnd, hb, if_pos hle]
    · rintro rfl
      rwa [State.endRequest_alone hb]
    · rintro x q rfl
      refine ⟨fun hq => ?_, fun hq => ?_⟩
      · rw [State.endRequest_noteLasts hb hq, State.showNote_showing]
      · rwa [State.endRequest_noteOver hb hq]

end Sys2Proof.Machine

/-! The keypad and the optical port of the sealed partition (R221 to R223, R278, R289). -/

namespace Sys2Proof.Machine

theorem ok_keyCode : F.PRT_KEY.KEY.ok = true := by decide +kernel

theorem ok_keyCount : F.PRT_KEY.COUNT.ok = true := by decide +kernel

theorem ok_optCount : F.LEG_OPT_CNT.COUNT.ok = true := by decide +kernel

/-! ### A key (R278, R289) -/

/-- A key in PRT_KEY, and counted: a part of `execKeypadKey`. -/
def State.showKey (s : State) (k : Nat) : State :=
  { s with regs := (s.regs.setF F.PRT_KEY.KEY k).setF F.PRT_KEY.COUNT (s.fld F.PRT_KEY.COUNT + 1) }

section
variable (s : State) (k : Nat)

theorem exec_keypadKey_off (h : s.role 58 ≠ 1) : exec (.keypadKey k) s = .next s := if_pos h

theorem exec_keypadKey_on (h : s.role 58 = 1) : exec (.keypadKey k) s =
    .next (if s.fld F.LEG_STAT.RUN = 1 then (s.showKey k).endRequest.parseKey k else s.showKey k) :=
  if_neg (not_not.mpr h)

theorem State.showKey_leg : (s.showKey k).leg = s.leg := s.leg_withRegs _

theorem State.onlyRegs_showKey : OnlyRegs [R.PRT_KEY] s (s.showKey k) :=
  ((OnlyRegs.refl _ s).setF (f := F.PRT_KEY.KEY) k (.head _)).setF (f := F.PRT_KEY.COUNT) _ (.head _)

variable {s} (hs : Inv s)
include hs

theorem State.fld_showKey_count : (s.showKey k).fld F.PRT_KEY.COUNT =
    (s.fld F.PRT_KEY.COUNT + 1) % 2 ^ (F.PRT_KEY.COUNT.hi - F.PRT_KEY.COUNT.lo + 1) :=
  RegFile.fld_setF_same _ (RegFile.setF_wf _ _ hs) ok_keyCount

theorem State.fld_showKey_key {k : Nat} (hk : k < 256) : (s.showKey k).fld F.PRT_KEY.KEY = k :=
  (RegFile.fld_setF_other _ (RegFile.setF_wf _ _ hs) ok_keyCount ok_keyCode rfl).trans
    ((RegFile.fld_setF_same k hs ok_keyCode).trans (Nat.mod_eq_of_lt hk))

end

/-! ### Digits (R221, R222) -/

section
variable {k : Nat} {s : State} (h0 : 48 ≤ k) (h9 : k ≤ 57)
include h0 h9

theorem State.parseKey_idle_digit (h : s.leg.keys = .idle) : s.parseKey k = s.setKeys (.short [k - 48] s.now) := by
  simp [State.parseKey, h, h0, h9]

theorem State.parseKey_short_digit {l : List Nat} {p : Nat} (h : s.leg.keys = .short l p) (hl : l.length < 4) :
    s.parseKey k = s.setKeys (.short (l ++ [k - 48]) s.now) := by
  simp [State.parseKey, h, h0, h9, hl]

theorem State.parseKey_token_digit {no p : Nat} {l : List Nat} (h : s.leg.keys = .token no l p) (hl : l.length < 20) :
    s.parseKey k = s.setKeys (.token no (l ++ [k - 48]) s.now) := by
  simp [State.parseKey, h, h0, h9, hl]

theorem State.parseKey_request_digit (h : s.leg.keys = .request none) :
    s.parseKey k = s.setKeys (.request (some (k - 48))) := by
  simp [State.parseKey, h, h0, h9]

end

/-! ### The star and the hash (R221, R222) -/

section
variable {s : State}

theorem State.parseKey_idle_star (h : s.leg.keys = .idle) : s.parseKey 42 = s.setKeys (.request none) := by
  simp [State.parseKey, h]

theorem State.parseKey_short_hash {l : List Nat} {p : Nat} (h : s.leg.keys = .short l p) :
    s.parseKey 35 = s.setKeys (.token (l.foldl (fun n d => n * 10 + d) 0) [] s.now) := by
  simp [State.parseKey, h]

theorem State.parseKey_token_hash {no p : Nat} {l : List Nat} (h : s.leg.keys = .token no l p) (hl : l.length = 20) :
    s.parseKey 35 = (s.setKeys .idle).export_ (.keypadToken no l) := by
  simp [State.parseKey, h, hl]

end

/-! ### A display request (R221) -/

/-- The note that a request which begins covers. -/
def Showing.covered : Showing → Option (List Byte × Nat)
  | .note x p => some (x, p)
  | _ => none

/-- A display request begins: a part of `parseKey`. -/
def State.beginRequest (s : State) (d : Nat) : State :=
  { s with leg := { s.leg with keys := .idle, showing := .request d (s.now + 30000) s.leg.showing.covered } }

theorem State.parseKey_request_hash {d : Nat} {s : State} (h : s.leg.keys = .request (some d)) (hd : d ≤ 3) :
    s.parseKey 35 = (s.beginRequest d).showRequest d := by
  simp only [State.parseKey, h, hd, and_self, if_true]
  cases hx : s.leg.showing <;> simp only [State.setKeys, State.beginRequest, Showing.covered, State.now, hx]

/-- What a request shows leaves alone that it is shown and what was keyed. -/
theorem State.showRequest_frame (d : Nat) (s : State) : (s.showRequest d).leg.showing = s.leg.showing ∧
    (s.showRequest d).leg.keys = s.leg.keys ∧ s.showRequest d = { s with leg := (s.showRequest d).leg } := by
  unfold State.showRequest
  split
  case h_2 =>
    rw [State.nextItem, State.showItem_eq]
    exact ⟨rfl, rfl, rfl⟩
  all_goals exact ⟨rfl, rfl, rfl⟩

/-! ### An entry that is not continued (R222) -/

section
variable {s : State} {no p : Nat} {l : List Nat} (h : s.leg.keys = .short l p ∨ s.leg.keys = .token no l p)
include h

theorem exec_keypadEntryTimeout : exec .keypadEntryTimeout s =
    .next (if p + 1000 * s.leg.keyTimeout < s.now then s.setKeys .idle else s) := by
  rcases h with h | h <;> simp only [exec, execKeypadEntryTimeout, h, decide_eq_true_eq]

end

/-! ### The optical port (R223) -/

section
variable {l : LegalSection} {a : List Byte} {s : State} (hl : s.legal = some l)
include hl

theorem exec_opticalRequest_identified (hrole : s.role 40 = 1) (hrun : s.fld F.LEG_STAT.RUN = 1)
    (hbusy : s.fld F.LEG_STAT.OPT_BUSY = 0) (ha : a = [] ∨ a = l.optAddr.filter (· != 0)) : exec (.opticalRequest a) s =
      .next (({ s with leg := { s.leg with optical := .identified } } : State).send .opticalIdent) := by
  have hmine := ha.imp_left List.isEmpty_iff.mpr
  simp only [exec, execOpticalRequest, hl, if_pos (And.intro hrole (And.intro hrun (And.intro hbusy hmine)))]

theorem exec_opticalRequest_elsewhere (hsome : a ≠ []) (hother : a ≠ l.optAddr.filter (· != 0)) :
    exec (.opticalRequest a) s = .next s := by
  have hmine : ¬(a.isEmpty = true ∨ a = l.optAddr.filter (· != 0)) :=
    not_or.mpr ⟨mt List.isEmpty_iff.mp hsome, hother⟩
  simp only [exec, execOpticalRequest, hl, if_neg fun h : _ ∧ _ ∧ _ ∧ _ => hmine h.2.2.2]

end

/-- The data message begins: a part of `execOpticalAck`. -/
def State.beginReadout (s : State) (baud : Nat) : State :=
  (({ s with leg := { s.leg with optical := .reading (s.now + readoutPaces (opticalBaud baud) s.dataMessage) } } : State).bump
    F.LEG_OPT_CNT.COUNT).flag F.LEG_STAT.OPT_BUSY true

section
variable {option baud : Nat} {s : State} (h : s.leg.optical = .identified)
include h

theorem exec_opticalAck_readout (ho : option = 0) (hb : baud ≤ 6) : exec (.opticalAck option baud) s =
    .next ((s.beginReadout baud).send (.opticalData (opticalBaud baud) s.dataMessage)) := by
  simp only [exec, execOpticalAck, if_pos h, if_pos (And.intro ho hb), State.beginReadout]

theorem exec_opticalAck_break (hother : option ≠ 0 ∨ 6 < baud) : exec (.opticalAck option baud) s =
    .next (({ s with leg := { s.leg with optical := .idle } } : State).send .opticalBreak) := by
  have hno : ¬(option = 0 ∧ baud ≤ 6) := by omega
  simp only [exec, execOpticalAck, if_pos h, if_neg hno]

end

section
variable {s : State} (hs : Inv s) (baud : Nat)
include hs

theorem State.fld_beginReadout_count : (s.beginReadout baud).fld F.LEG_OPT_CNT.COUNT =
    min (s.fld F.LEG_OPT_CNT.COUNT + 1) (2 ^ (F.LEG_OPT_CNT.COUNT.hi - F.LEG_OPT_CNT.COUNT.lo + 1) - 1) :=
  (State.fld_flag_other true (State.bump_inv (s := { s with leg := _ }) hs _ 1) ok_optBusy ok_optCount rfl).trans
    (State.fld_bump_same (s := { s with leg := _ }) 1 hs ok_optCount)

theorem State.fld_beginReadout_busy : (s.beginReadout baud).fld F.LEG_STAT.OPT_BUSY = 1 :=
  State.fld_flag_same true (State.bump_inv (s := { s with leg := _ }) hs _ 1) ok_optBusy

end

theorem State.onlyRegs_beginReadout (s : State) (baud : Nat) :
    OnlyRegs [R.LEG_OPT_CNT, R.LEG_STAT] s (s.beginReadout baud) :=
  ((OnlyRegs.refl _ s).bump (f := F.LEG_OPT_CNT.COUNT) 1 (.head _)).flag (f := F.LEG_STAT.OPT_BUSY) true (.tail _ (.head _))

section
variable {s : State} {p : Nat} (h : s.leg.optical = .reading p)
include h

theorem State.opticalDue_busy (hp : s.now < p) : s.opticalDue = s := by
  simp only [State.opticalDue, h, if_neg (Nat.not_le.mpr hp)]

theorem State.opticalDue_ended (hp : p ≤ s.now) : s.opticalDue =
    (({ s with leg := { s.leg with optical := .idle } } : State).flag F.LEG_STAT.OPT_BUSY false).send .opticalEnd := by
  simp only [State.opticalDue, h, if_pos hp]

end

/-! ### The statement -/

/-- Settles O38: a key by its port, the entries key by key, a request, an entry's end, and the optical exchange in order. -/
theorem keypadAndOpticalExchanges : Obligations.KeypadAndOpticalExchanges := by
  refine ⟨fun k s hs hk hrole => ?key, fun k s => exec_keypadKey_off s k, fun k s h0 h9 => State.parseKey_idle_digit h0 h9,
    fun k p l s h0 h9 => State.parseKey_short_digit h0 h9, fun p l s => State.parseKey_short_hash,
    fun k no p l s h0 h9 => State.parseKey_token_digit h0 h9, fun no p l s => State.parseKey_token_hash,
    fun s => State.parseKey_idle_star, fun k s h0 h9 => State.parseKey_request_digit h0 h9, fun d s h hd => ?request,
    fun no p l s h => ⟨fun hover => ?dropped, fun hgoing => ?kept⟩,
    fun a l s hl => ⟨exec_opticalRequest_identified hl, exec_opticalRequest_elsewhere hl⟩,
    fun option baud s hs h => ⟨fun ho hb => ?readout, exec_opticalAck_break h⟩,
    fun p s h => ⟨State.opticalDue_busy h, State.opticalDue_ended h⟩⟩
  case key =>
    refine ⟨_, s.showKey k, exec_keypadKey_on s k hrole, State.fld_showKey_key hs hk, State.fld_showKey_count k hs,
      s.onlyRegs_showKey k, rfl, rfl, fun hnone => State.endRequest_of_none ?_⟩
    rwa [State.showKey_leg]
  case request =>
    obtain ⟨hshowing, hkeys, hframe⟩ := (s.beginRequest d).showRequest_frame d
    refine ⟨_, s.leg.showing.covered, State.parseKey_request_hash h hd, hshowing, hkeys, fun x p hx => ?_, fun hnone => ?_,
      hframe⟩
    · rw [hx, Showing.covered]
    · cases hx : s.leg.showing with
      | note x p => exact absurd hx (hnone x p)
      | stepping => rfl
      | request d p b => rfl
  case dropped => rw [exec_keypadEntryTimeout h, if_pos hover]
  case kept => rw [exec_keypadEntryTimeout h, if_neg (Nat.not_lt.mpr hgoing)]
  case readout =>
    exact ⟨_, s.beginReadout baud, exec_opticalAck_readout h ho hb, State.fld_beginReadout_count hs baud,
      State.fld_beginReadout_busy hs baud, s.onlyRegs_beginReadout baud, rfl, rfl⟩

end Sys2Proof.Machine

/-! The machine as a whole: every command completes, and queued commands run in the order in which they wait (R22, R23,
R38, R40, R402). -/

namespace Sys2Proof.Machine

set_option Elab.async false

/-! ### A resynchronisation (R402) -/

/-- The pace of the common checkpoint, taken up at the first step of a resynchronisation. -/
def State.resyncBegun (s : State) (pace total : Nat) : State :=
  match s.pair.resync with
  | some _ => s
  | none => { s with
      pair := { s.pair with resync := some (pace, total) }, pace := { s.pace with count := BitVec.ofNat 64 pace } }

/-- The four oldest entries stored are executed. -/
def State.execStored (s : State) : State :=
  (s.pair.stored.take 4).foldl State.execEntry { s with pair := { s.pair with stored := s.pair.stored.drop 4 } }

/-- What is left to copy, in MiB. -/
def leftMib (left : Nat) : Nat := min 0xFFFFFFFF ((left + 1048575) / 1048576)

theorem execResynchronisation_eq (pace total left : Nat) (ok : Bool) (s : State) :
    execResynchronisation pace total left ok s = .next (
      if s.syncNow ≠ 1 ∨ !s.linkUp then s
      else if s.roleNow = 2 then s.setF F.PAIR_RESYNC_LEFT.MIB (leftMib left)
      else if left ≠ 0 ∨ !ok then (s.resyncBegun pace total).setF F.PAIR_RESYNC_LEFT.MIB (leftMib left)
      else ((s.resyncBegun pace total).setF F.PAIR_RESYNC_LEFT.MIB (leftMib left)).execStored) := by
  unfold execResynchronisation
  by_cases h1 : s.syncNow ≠ 1 ∨ !s.linkUp
  · rw [if_pos h1, if_pos h1]
  · rw [if_neg h1, if_neg h1]
    by_cases h2 : s.roleNow = 2
    · rw [if_pos h2, if_pos h2]; rfl
    · rw [if_neg h2, if_neg h2]
      by_cases h3 : left ≠ 0 ∨ !ok
      · rw [if_pos h3, if_pos h3]; rfl
      · rw [if_neg h3, if_neg h3]; rfl

theorem State.resyncBegun_warp (s : State) (pace total : Nat) : (s.resyncBegun pace total).warp = s.warp := by
  unfold State.resyncBegun
  split <;> rfl

theorem State.execStored_image (s : State) : s.execStored.warp.active = s.warp.active :=
  (Keeps.foldl _ (Keeps.refl _) fun _ x hu => State.execEntry_keeps hu x).image

theorem execResynchronisation_image {s t : State} {pace total left : Nat} {ok : Bool}
    (h : execResynchronisation pace total left ok s = .next t) : t.warp.active = s.warp.active := by
  rw [execResynchronisation_eq] at h
  injection h with h
  subst h
  split_ifs
  · rfl
  · rw [State.setF_warp]
  · rw [State.setF_warp, State.resyncBegun_warp]
  · rw [State.execStored_image, State.setF_warp, State.resyncBegun_warp]

/-! ### The statements -/

theorem execCommitCheck_image {s t : State} (h : execCommitCheck s = .next t) : t.warp.active = s.warp.active := by
  injection h with h
  subst h
  split_ifs
  · rw [(State.judgeCommit_keeps (Keeps.refl _)).image]
  · rfl

/-- Settles O4: all but five commands keep the pace and the image, and each of those five does no more than is left open. -/
theorem everyCommandCompletes : Obligations.EveryCommandCompletes := by
  intro c s
  obtain ⟨t, e, g⟩ := exec_moves c s
  refine ⟨t, e, g.pending, g.out, g.drawn, ?_⟩
  rcases exec_ends_or (Keeps.refl s) c with
    ⟨u, eu, k⟩ | ⟨i, rfl⟩ | ⟨i, rfl⟩ | ⟨p, n, k, b, rfl⟩ | rfl | ⟨l, k, rfl⟩
  · cases e.symm.trans eu
    exact ⟨fun _ _ _ _ => k.pace, fun _ _ _ => k.image⟩
  · exact ⟨fun h => absurd rfl (h i), fun h => absurd rfl (h i)⟩
  · exact ⟨fun _ h => absurd rfl (h i), fun _ h => absurd rfl (h i)⟩
  · exact ⟨fun _ _ h => absurd rfl (h p n k b), fun _ _ _ => execResynchronisation_image e⟩
  · exact ⟨fun _ _ _ h => absurd rfl h, fun _ _ _ => execCommitCheck_image e⟩
  · obtain ⟨u, eu, r⟩ := execApplyScheduledImage_runs (Runs.refl s) l k
    cases e.symm.trans eu
    exact ⟨fun _ _ _ _ => r.pace, fun _ _ h => absurd rfl (h l k)⟩

/-- Settles O5, by induction on the commands that stand before the rest. -/
theorem queuedCommandsRunInOrder : Obligations.QueuedCommandsRunInOrder := by
  intro l rest
  induction l with
  | nil => exact fun s h => ⟨s, rfl, h, List.prefix_rfl, id⟩
  | cons c l ih =>
    intro s h
    obtain ⟨u, e, g⟩ := exec_moves c { s with pending := l ++ rest }
    obtain ⟨t, et, hp, ho, hi⟩ := ih u g.pending
    have hstep : step s = .next u := by simp only [step, h, List.cons_append, e]
    exact ⟨t, by simp only [List.length_cons, stepsFrom, hstep, et], hp, g.out.trans ho, fun w => hi (g.regs w)⟩

end Sys2Proof.Machine

/-! The register map: blocks, their BLOCK_ID, and what a read changes (R441, R443, R444, R446). -/

namespace Sys2Proof.Machine

set_option Elab.async false

/-! ### Blocks (R441, R446) -/

theorem blockRegs_of_ge {b : Nat} (h : 23 ≤ b) : blockRegs b = [] := by
  unfold blockRegs
  split
  case h_24 => rfl
  all_goals omega

theorem blockRegs_addr : ∀ b < 23, ((blockRegs b).all fun r => r.addr / 0x10000 == b) = true := by
  decide +kernel

/-- Settles O7: no block from 23 on has a register, and the registers of the others are listed by their block. -/
theorem registersLieInTheirBlock : Obligations.RegistersLieInTheirBlock := by
  intro a r h
  have hm := List.mem_of_find?_eq_some h
  have hb : a / 0x10000 < 23 := by
    by_contra hn
    rw [blockRegs_of_ge (Nat.le_of_not_lt hn)] at hm
    cases hm
  have hh := List.find?_some h
  simp only [RegSpec.hits, Bool.and_eq_true, decide_eq_true_eq] at hh
  exact ⟨hb, hm, hh.1, by simpa using List.all_eq_true.mp (blockRegs_addr _ hb) r hm⟩

/-- The distance of the last element of an array of registers from the first (R442). -/
def dimsSpan (l : List (Nat × Nat)) : Nat := (l.map fun e => (e.1 - 1) * e.2).sum

theorem le_dimsSpan_of_dimsHit {l : List (Nat × Nat)} {d : Nat} (h : dimsHit l d = true) : d ≤ dimsSpan l := by
  induction l generalizing d with
  | nil => simp [dimsHit] at h; simp [h]
  | cons e l ih =>
    obtain ⟨n, k⟩ := e
    simp only [dimsHit, Bool.and_eq_true, decide_eq_true_eq] at h
    obtain ⟨hn, hl⟩ := h
    calc d = d / k * k + d % k := (Nat.div_add_mod' d k).symm
      _ ≤ (n - 1) * k + dimsSpan l := Nat.add_le_add (Nat.mul_le_mul_right k (Nat.le_sub_one_of_lt hn)) (ih hl)
      _ = dimsSpan ((n, k) :: l) := by simp [dimsSpan]

/-- The BLOCK_ID of a block. -/
def blockIdReg (b : Nat) : RegSpec := ⟨b * 0x10000 + 0xFFFC, [], false, [⟨31, 16, .RO, b, .all⟩, ⟨15, 0, .RO, 1, .all⟩]⟩

theorem findReg_blockId : ∀ b < 23, findReg (b * 0x10000 + 0xFFFC) = some (blockIdReg b) := by
  decide +kernel

theorem blockRegs_below_blockId : ∀ b < 23, ((blockRegs b).all fun r =>
    decide (r.addr = b * 0x10000 + 0xFFFC ∧ r.dims = [] ∨ r.addr + dimsSpan r.dims < b * 0x10000 + 0xFF00)) = true := by
  decide +kernel

/-- Settles O6: of each of the 23 blocks only the BLOCK_ID reaches up to offset 0xFF00. -/
theorem blockIdsStandAtTheirOffset : Obligations.BlockIdsStandAtTheirOffset := by
  refine fun b hb => ⟨findReg_blockId b hb, fun o ho hne => ?_⟩
  rw [findReg, show (b * 0x10000 + 0xFF00 + o) / 0x10000 = b by omega, List.find?_eq_none]
  intro r hr hit
  simp only [RegSpec.hits, Bool.and_eq_true, decide_eq_true_eq] at hit
  have hspan := le_dimsSpan_of_dimsHit hit.2
  rcases of_decide_eq_true (List.all_eq_true.mp (blockRegs_below_blockId b hb) r hr) with ⟨ha, hd⟩ | hlt
  · rw [hd] at hspan
    have : dimsSpan [] = 0 := rfl
    omega
  · omega

/-! ### Reads (R443, R444) -/

theorem State.latched_latch_same (s : State) (who : Requester) (lo : Nat) (w : Word) :
    (s.latch who lo w).latched who lo = w := by
  simp [State.latched, State.latch]

theorem State.latched_latch_other (s : State) {who other : Requester} (h : other ≠ who) (lo a : Nat) (w : Word) :
    (s.latch who lo w).latched other a = s.latched other a := by
  unfold State.latched State.latch
  rw [List.find?_cons_of_neg (by simp [h.symm]), List.find?_filter]
  congr 2
  funext e
  by_cases he : e.1 = who
  · simp [he, h.symm]
  · simp [beq_false_of_ne he, Bool.beq_eq_decide_eq]

section
variable {s : State} (who : Requester) {addr : Nat} {r : RegSpec} (hr : findReg addr = some r)
include hr

/-- What a read does, step by step: the register's RC fields, the latch of a pair, and the draw of a receiver flag. -/
theorem State.afterRead_eq : s.afterRead who addr =
    let rc := r.bits fun a => a == .RC
    let s1 := if rc = 0 then s
      else { s with regs := s.regs.put addr ((s.regs.get addr &&& ~~~ rc) ||| (r.resetWord &&& rc)) }
    let s2 := if r.loPair then s1.latch who addr (s.view (addr + 4)) else s1
    if addr / 0x10000 = 10 ∨ addr / 0x10000 = 11 then s2.drawLocal else s2 := by
  simp only [State.afterRead, hr]

end

theorem RegSpec.bits_rc_eq_zero {r : RegSpec} (h : (r.fields.all fun f => f.acc != .RC) = true) :
    (r.bits fun a => a == .RC) = 0 := by
  unfold RegSpec.bits
  refine List.foldlRecOn (motive := fun m => m = 0) _ _ rfl fun m hm f hf => ?_
  have := List.all_eq_true.mp h f hf
  rw [if_neg (by simpa using this)]
  exact hm

theorem State.afterRead_regs (s : State) (who : Requester) {addr : Nat} {r : RegSpec} (hr : findReg addr = some r) :
    (s.afterRead who addr).regs = if (r.bits fun a => a == .RC) = 0 then s.regs else s.regs.put addr
      ((s.regs.get addr &&& ~~~ (r.bits fun a => a == .RC)) ||| (r.resetWord &&& (r.bits fun a => a == .RC))) := by
  rw [State.afterRead_eq who hr]
  dsimp only
  split_ifs <;> rfl

theorem State.afterRead_latches (s : State) (who : Requester) {addr : Nat} {r : RegSpec} (hr : findReg addr = some r) :
    (s.afterRead who addr).latches = if r.loPair then (s.latch who addr (s.view (addr + 4))).latches else s.latches := by
  rw [State.afterRead_eq who hr]
  dsimp only
  split_ifs <;> rfl

theorem State.afterRead_frame (s : State) (who : Requester) (addr : Nat) : s.afterRead who addr =
    { s with
      regs := (s.afterRead who addr).regs, latches := (s.afterRead who addr).latches
      drawn := (s.afterRead who addr).drawn } := by
  cases hr : findReg addr with
  | none => simp only [State.afterRead, hr]
  | some r =>
    rw [State.afterRead_eq who hr]
    dsimp only
    split_ifs <;> rfl

theorem State.onlyRegs_afterRead (s : State) (who : Requester) (addr : Nat) : OnlyRegs [addr] s (s.afterRead who addr) := by
  cases hr : findReg addr with
  | none => simp only [State.afterRead, hr]; exact OnlyRegs.refl _ s
  | some r =>
    intro a ha
    rw [State.afterRead_regs s who hr]
    split_ifs
    · rfl
    · exact RegFile.get_put_other _ (by simpa using ha)

theorem State.latched_of_latches {s t : State} (h : t.latches = s.latches) (who : Requester) (lo : Nat) :
    t.latched who lo = s.latched who lo := by
  rw [State.latched, State.latched, h]

/-- Settles O10: what a read leaves of the registers and of the latches. -/
theorem readsChangeOnlyWhatTheyClear : Obligations.ReadsChangeOnlyWhatTheyClear := by
  refine ⟨fun s who addr => ⟨fun h => if_neg h, fun h => ⟨s.afterRead who addr, ?_, s.afterRead_frame who addr,
    s.onlyRegs_afterRead who addr, fun r hr hrc => ?_, fun r hr hlo => ?_⟩⟩, fun s who other addr r hr hlo => ?_⟩
  · rw [State.readReg, if_pos h, h]
  · rw [s.afterRead_regs who hr, if_pos (RegSpec.bits_rc_eq_zero hrc)]
  · rw [s.afterRead_latches who hr, hlo, if_neg Bool.false_ne_true]
  · have hl := s.afterRead_latches who hr
    rw [if_pos hlo] at hl
    refine ⟨?_, fun hne => ?_, fun h hh => ?_⟩
    · rw [State.latched_of_latches hl, State.latched_latch_same]
    · rw [State.latched_of_latches hl, State.latched_latch_other s hne]
    · have hhi : isHiHalf (addr + 4) = true := by simp [isHiHalf, hr, hlo]
      simp only [State.readValue, hh, hhi, if_true, Nat.add_sub_cancel]

end Sys2Proof.Machine

/-! What is sent, held or dropped (R391, R398, R414). -/

namespace Sys2Proof.Machine

set_option Elab.async false

section
variable {s : State} {o : Output} (hopen : s.portsOff = false ∨ o.inside = true)
include hopen

/-- What may leave the device waits for the digest of its pace, is the partner's to send, or goes out at once. -/
theorem State.send_open : s.send o =
    if o.hostVisible && s.withholds then { s with pair := { s.pair with held := s.pair.held ++ [(s.now, o)] } }
    else if o.shared && !s.drivesShared then s else { s with out := s.out ++ [o] } := by
  refine if_neg ?_
  rcases hopen with h | h <;> simp [h]

theorem State.send_withheld (hv : o.hostVisible = true) (hw : s.withholds = true) :
    s.send o = { s with pair := { s.pair with held := s.pair.held ++ [(s.now, o)] } } := by
  rw [State.send_open hopen, hv, hw, Bool.and_self, if_pos rfl]

theorem State.send_not_withheld (h : o.hostVisible = false ∨ s.withholds = false) :
    s.send o = if o.shared && !s.drivesShared then s else { s with out := s.out ++ [o] } := by
  rw [State.send_open hopen]
  refine if_neg ?_
  rcases h with h | h <;> simp [h]

end

/-- Settles O29: the three questions of `send` in their order. -/
theorem outputsAreSentHeldOrDropped : Obligations.OutputsAreSentHeldOrDropped := by
  refine fun o s => ⟨fun hoff ho => if_pos ?_, fun hopen => ⟨State.send_withheld hopen, fun hnow => ⟨fun hsh hd => ?_,
    fun hfree => ?_⟩⟩⟩
  · rw [hoff, ho]
    rfl
  · rw [State.send_not_withheld hopen hnow, hsh, hd]
    exact if_pos rfl
  · rw [State.send_not_withheld hopen hnow]
    refine if_neg ?_
    rcases hfree with h | h <;> simp [h]

end Sys2Proof.Machine

/-! The register file by its contents, and several fields of a register written in order (R6, R442). -/

namespace Sys2Proof.Machine

set_option Elab.async false

/-! ### Equal contents are equal data -/

/-- Two maps with rising keys that hold the same are the same. -/
theorem Map.ext_of_find {α : Type} {m n : Map α} (hm : Map.sorted m = true) (hn : Map.sorted n = true)
    (h : ∀ k, Map.find m k = Map.find n k) : m = n := by
  induction m generalizing n with
  | nil =>
    cases n with
    | nil => rfl
    | cons q n => simpa [Map.find] using h q.1
  | cons p m ih =>
    obtain ⟨i, v⟩ := p
    obtain ⟨hi, hm⟩ := Map.sorted_cons.mp hm
    cases n with
    | nil => simpa [Map.find] using h i
    | cons q n =>
      obtain ⟨j, w⟩ := q
      obtain ⟨hj, hn'⟩ := Map.sorted_cons.mp hn
      have hij : i = j := by
        rcases Nat.lt_trichotomy i j with hlt | heq | hlt
        · have := h i
          rw [Map.find_none_of_lt (m := (j, w) :: n) fun p hp => by
            rcases List.mem_cons.mp hp with rfl | hp
            · exact hlt
            · exact hlt.trans (hj p hp)] at this
          simp [Map.find] at this
        · exact heq
        · have := h j
          rw [Map.find_none_of_lt (m := (i, v) :: m) fun p hp => by
            rcases List.mem_cons.mp hp with rfl | hp
            · exact hlt
            · exact hlt.trans (hi p hp)] at this
          simp [Map.find] at this
      subst hij
      have hvw : v = w := by simpa [Map.find] using h i
      rw [hvw]
      refine congrArg _ (ih hm hn' fun k => ?_)
      rcases eq_or_ne k i with rfl | hk
      · rw [Map.find_none_of_lt hi, Map.find_none_of_lt hj]
      · simpa [Map.find, hk.symm] using h k

/-- Two register files that read the same everywhere are the same. -/
theorem RegFile.ext_of_get {m n : RegFile} (hm : m.wf = true) (hn : n.wf = true) (h : ∀ a, m.get a = n.get a) : m = n := by
  have hlisted : ∀ {m : RegFile} {a : Nat}, m.wf = true → Map.find m a = none ∨ ∃ w, Map.find m a = some w ∧ w ≠ resetAt a := by
    intro m a hw
    cases hf : Map.find m a with
    | none => exact .inl rfl
    | some w =>
      obtain ⟨r, hr, -, hne⟩ := RegFile.wf_entry hw (Map.mem_of_find hf)
      exact .inr ⟨w, rfl, by rw [resetAt, hr]; exact hne⟩
  refine Map.ext_of_find (Map.sorted_of_wf hm) (Map.sorted_of_wf hn) fun a => ?_
  have ha := h a
  unfold RegFile.get Map.findD at ha
  rcases hlisted (a := a) hm with h1 | ⟨v, h1, hv⟩ <;> rcases hlisted (a := a) hn with h2 | ⟨w, h2, hw⟩ <;>
    rw [h1, h2] at ha ⊢
  · exact absurd ha.symm hw
  · exact absurd ha hv
  · exact congrArg some ha

/-- A register that is written and then written back is as it was. -/
theorem RegFile.put_put_get {m : RegFile} (a : Nat) (w : Word) (h : m.wf = true) : (m.put a w).put a (m.get a) = m := by
  refine RegFile.ext_of_get (RegFile.put_wf _ _ (RegFile.put_wf _ _ h)) h fun b => ?_
  rcases eq_or_ne b a with rfl | hb
  · cases hr : findReg b with
    | none => rw [RegFile.put_absent _ hr, RegFile.put_absent _ hr]
    | some r => rw [RegFile.get_put_same _ (RegFile.put_wf _ _ h) hr, RegFile.get_and_fieldMask h hr]
  · rw [RegFile.get_put_other _ hb, RegFile.get_put_other _ hb]

/-! ### Several fields written in order -/

/-- The fields lie in registers, and no two of them share a bit. -/
def fieldsApart : List FieldRef → Bool
  | [] => true
  | f :: l => f.ok && l.all (fun g => f.apart g) && fieldsApart l

theorem fieldsApart_iff (l : List FieldRef) : fieldsApart l = true ↔
    (∀ f ∈ l, f.ok = true) ∧ l.Pairwise fun f g => f.apart g = true := by
  induction l with
  | nil => simp [fieldsApart]
  | cons f l ih =>
    simp only [fieldsApart, Bool.and_eq_true, List.all_eq_true, ih, List.forall_mem_cons, List.pairwise_cons]
    tauto

/-- A field written once among fields apart from it reads what it was given. -/
theorem RegFile.fld_setFields_of_apart {m : RegFile} {l : List (FieldRef × Nat)} (L : List FieldRef) {f : FieldRef} {v : Nat}
    (hm : m.wf = true) (hL : fieldsApart L = true) (hl : l.map Prod.fst = L) (hf : (f, v) ∈ l) :
    (m.setFields l).fld f = v % 2 ^ (f.hi - f.lo + 1) := by
  subst hl
  obtain ⟨hok, hap⟩ := (fieldsApart_iff _).mp hL
  exact RegFile.fld_setFields_mem hm (fun e he => hok _ (List.mem_map_of_mem he)) (List.pairwise_map.mp hap) hf

/-- A counter that saturates fits its field. -/
theorem min_mod_two_pow (n w : Nat) : min n (2 ^ w - 1) % 2 ^ w = min n (2 ^ w - 1) := by
  have := Nat.two_pow_pos w
  exact Nat.mod_eq_of_lt (by omega)

section
variable {s t : State} {l : List (FieldRef × Nat)} (ht : t.regs = s.regs.setFields l)
include ht

theorem State.inv_of_setFields (hs : Inv s) : Inv t := by
  rw [Inv, ht]
  exact RegFile.setFields_wf l hs

/-- A field written once among fields apart from it reads what it was given. -/
theorem State.fld_of_setFields (hs : Inv s) {L : List FieldRef} (hL : fieldsApart L = true) (hl : l.map Prod.fst = L)
    {f : FieldRef} {v : Nat} (hf : (f, v) ∈ l) : t.fld f = v % 2 ^ (f.hi - f.lo + 1) := by
  rw [State.fld_eq, ht]
  exact RegFile.fld_setFields_of_apart L hs hL hl hf

/-- A field apart from those written reads as before. -/
theorem State.fld_of_setFields_other (hs : Inv s) {f : FieldRef} {L : List FieldRef} (hL : fieldsApart (f :: L) = true)
    (hl : l.map Prod.fst = L) : t.fld f = s.fld f := by
  subst hl
  obtain ⟨hok, hap⟩ := (fieldsApart_iff _).mp hL
  rw [State.fld_eq, ht]
  exact RegFile.fld_setFields_other hs (hok _ List.mem_cons_self) fun e he =>
    ⟨hok _ (.tail _ (List.mem_map_of_mem he)), (List.pairwise_cons.mp hap).1 _ (List.mem_map_of_mem he)⟩

/-- The registers of the fields written, and no other, may differ. -/
theorem State.onlyRegs_of_setFields {L : List Nat} (hl : ∀ e ∈ l, e.1.addr ∈ L) : OnlyRegs L s t := fun a ha => by
  rw [ht]
  exact RegFile.get_setFields_other fun e he heq => ha (by rw [heq]; exact hl e he)

end

end Sys2Proof.Machine

namespace Sys2Proof

open Machine

/-- Fields of the listed registers are written and nothing else. -/
theorem OnlyRegs.setFields {L : List Nat} {s t : State} (h : OnlyRegs L s t) {l : List (FieldRef × Nat)}
    (hl : ∀ e ∈ l, e.1.addr ∈ L) : OnlyRegs L s { t with regs := t.regs.setFields l } :=
  fun a ha => (RegFile.get_setFields_other fun e he heq => ha (by rw [heq]; exact hl e he)).trans (h a ha)

end Sys2Proof

/-! The lottery arbiter: what it shows, its draw, and FREEZE and the seed (R325 to R328). -/

namespace Sys2Proof.Machine

set_option Elab.async false

/-! ### What the arbiter shows (R328) -/

/-- The fields of ARB_STAT as `showArb` writes them. -/
def QueState.arbFields (q : QueState) (frozen : Bool) : List (FieldRef × Nat) := match q.holder with
  | some i => [(F.ARB_STAT.PENDING, q.waiting.toNat), (F.ARB_STAT.HELD, 1), (F.ARB_STAT.HOLDER, i), (F.ARB_STAT.DRAINED, 0)]
  | none => [(F.ARB_STAT.PENDING, q.waiting.toNat), (F.ARB_STAT.HELD, 0), (F.ARB_STAT.DRAINED, if frozen then 1 else 0)]

/-- FREEZE is set. -/
def State.frozen (s : State) : Bool := s.fld F.ARB_CTL.FREEZE == 1

theorem State.showArb_eq (s : State) : s.showArb = { s with regs := s.regs.setFields (s.que.arbFields s.frozen) } := by
  unfold State.showArb QueState.arbFields State.frozen
  cases s.que.holder <;>
    simp only [RegFile.setFields_cons, RegFile.setFields_nil, RegFile.flag_eq, Option.isSome_none, Option.isSome_some,
      Option.getD_some, Bool.not_true, Bool.not_false, Bool.and_false, Bool.and_true, Bool.false_eq_true, if_true, if_false]

theorem State.onlyRegs_showArb {L : List Nat} {s t : State} (h : OnlyRegs L s t) (hL : R.ARB_STAT ∈ L) :
    OnlyRegs L s t.showArb := by
  rw [State.showArb_eq]
  refine h.setFields fun e he => ?_
  unfold QueState.arbFields at he
  cases hq : t.que.holder <;> simp only [hq, List.mem_cons, List.not_mem_nil, or_false] at he
  · rcases he with rfl | rfl | rfl <;> exact hL
  · rcases he with rfl | rfl | rfl | rfl <;> exact hL

@[simp] theorem State.showArb_que (s : State) : s.showArb.que = s.que := by rw [State.showArb_eq]

theorem arbFields_apart_free : fieldsApart [F.ARB_STAT.PENDING, F.ARB_STAT.HELD, F.ARB_STAT.DRAINED] = true := by
  decide +kernel

theorem arbFields_apart_held :
    fieldsApart [F.ARB_STAT.PENDING, F.ARB_STAT.HELD, F.ARB_STAT.HOLDER, F.ARB_STAT.DRAINED] = true := by
  decide +kernel

section
variable {s : State} (hs : Inv s)
include hs

theorem State.fld_showArb_of_held {i : Nat} (hq : s.que.holder = some i) {f : FieldRef} {v : Nat}
    (hf : (f, v) ∈ [(F.ARB_STAT.PENDING, s.que.waiting.toNat), (F.ARB_STAT.HELD, 1), (F.ARB_STAT.HOLDER, i),
      (F.ARB_STAT.DRAINED, 0)]) : s.showArb.fld f = v % 2 ^ (f.hi - f.lo + 1) := by
  rw [State.showArb_eq, QueState.arbFields, hq]
  exact RegFile.fld_setFields_of_apart _ hs arbFields_apart_held rfl hf

theorem State.fld_showArb_of_free (hq : s.que.holder = none) {f : FieldRef} {v : Nat}
    (hf : (f, v) ∈ [(F.ARB_STAT.PENDING, s.que.waiting.toNat), (F.ARB_STAT.HELD, 0),
      (F.ARB_STAT.DRAINED, if s.frozen then 1 else 0)]) : s.showArb.fld f = v % 2 ^ (f.hi - f.lo + 1) := by
  rw [State.showArb_eq, QueState.arbFields, hq]
  exact RegFile.fld_setFields_of_apart _ hs arbFields_apart_free rfl hf

theorem State.fld_showArb_pending : s.showArb.fld F.ARB_STAT.PENDING = s.que.waiting.toNat := by
  have hlt : s.que.waiting.toNat % 2 ^ 16 = s.que.waiting.toNat := Nat.mod_eq_of_lt s.que.waiting.isLt
  cases hq : s.que.holder with
  | none => exact (State.fld_showArb_of_free hs hq (.head _)).trans hlt
  | some i => exact (State.fld_showArb_of_held hs hq (.head _)).trans hlt

theorem State.fld_showArb_held : s.showArb.fld F.ARB_STAT.HELD = if s.que.holder.isSome then 1 else 0 := by
  cases hq : s.que.holder with
  | none => exact State.fld_showArb_of_free hs hq (.tail _ (.head _))
  | some i => exact State.fld_showArb_of_held hs hq (.tail _ (.head _))

theorem State.fld_showArb_drained :
    s.showArb.fld F.ARB_STAT.DRAINED = if s.fld F.ARB_CTL.FREEZE = 1 ∧ s.que.holder = none then 1 else 0 := by
  cases hq : s.que.holder with
  | none =>
    refine (State.fld_showArb_of_free hs hq (.tail _ (.tail _ (.head _)))).trans ?_
    by_cases hz : s.fld F.ARB_CTL.FREEZE = 1 <;> simp [State.frozen, hz, F.ARB_STAT.DRAINED]
  | some i => exact (State.fld_showArb_of_held hs hq (.tail _ (.tail _ (.tail _ (.head _))))).trans (by simp)

theorem State.fld_showArb_holder {i : Nat} (hq : s.que.holder = some i) (hi : i < 16) :
    s.showArb.fld F.ARB_STAT.HOLDER = i :=
  (State.fld_showArb_of_held hs hq (.tail _ (.tail _ (.head _)))).trans (Nat.mod_eq_of_lt hi)

end

/-! ### The walk of a draw (R325) -/

theorem foldl_add_eq {α : Type} (f : α → Nat) (l : List α) (n : Nat) :
    l.foldl (fun m a => m + f a) n = n + l.foldl (fun m a => m + f a) 0 := by
  induction l generalizing n with
  | nil => rfl
  | cons a l ih =>
    rw [List.foldl_cons, List.foldl_cons, ih, ih (0 + f a)]
    omega

theorem sumNat_cons {α : Type} (f : α → Nat) (a : α) (l : List α) : sumNat f (a :: l) = f a + sumNat f l := by
  unfold sumNat
  rw [List.foldl_cons, foldl_add_eq, Nat.zero_add]

theorem sumNat_map {α β : Type} (f : β → Nat) (g : α → β) (l : List α) : sumNat f (l.map g) = sumNat (f ∘ g) l := by
  unfold sumNat
  rw [List.foldl_map]
  rfl

/-- The walk stops at the requester whose tickets the number falls on. -/
theorem lotteryWalk_spec (t : Nat → Nat) {c : List Nat} (hc : c.Pairwise (· < ·)) {r : Nat} (hr : r < sumNat t c) :
    ∃ i ∈ c, lotteryWalk (c.map fun i => (i, t i)) r = some i ∧ sumNat t (c.filter (· < i)) ≤ r ∧
      r < sumNat t (c.filter (· < i)) + t i := by
  induction c generalizing r with
  | nil => exact absurd hr (Nat.not_lt_zero r)
  | cons j c ih =>
    obtain ⟨hj, hc⟩ := List.pairwise_cons.mp hc
    rw [sumNat_cons] at hr
    by_cases hlt : r < t j
    · have hnone : (j :: c).filter (· < j) = [] := by
        rw [List.filter_eq_nil_iff]
        intro k hk
        rcases List.mem_cons.mp hk with rfl | hk
        · simp
        · simpa using (hj k hk).le
      exact ⟨j, .head _, if_pos hlt, by simp [hnone, sumNat], by simpa [hnone, sumNat] using hlt⟩
    · obtain ⟨i, hi, hwalk, hlo, hhi⟩ := ih hc (r := r - t j) (by omega)
      have hfilter : (j :: c).filter (· < i) = j :: c.filter (· < i) := List.filter_cons_of_pos (by simpa using hj i hi)
      exact ⟨i, .tail _ hi, (if_neg hlt).trans hwalk, by rw [hfilter, sumNat_cons]; omega, by rw [hfilter, sumNat_cons]; omega⟩

theorem sumNat_pos {α : Type} {f : α → Nat} {l : List α} {a : α} (ha : a ∈ l) (h : 0 < f a) : 0 < sumNat f l := by
  induction l with
  | nil => cases ha
  | cons b l ih =>
    rw [sumNat_cons]
    rcases List.mem_cons.mp ha with rfl | ha
    · omega
    · have := ih ha
      omega

/-! ### The draw (R325, R326) -/

/-- The pending requesters that hold tickets. -/
def State.lotteryOf (s : State) (w : BitVec 16) : List Nat :=
  (List.range 16).filter fun i => w.getLsbD i && decide (0 < s.tickets i)

theorem State.mem_lotteryOf {s : State} {w : BitVec 16} {i : Nat} :
    i ∈ s.lotteryOf w ↔ i < 16 ∧ w.getLsbD i = true ∧ 0 < s.tickets i := by
  simp [State.lotteryOf, List.mem_filter]

/-- The requesters that wait. -/
def State.await (s : State) (w : BitVec 16) : State := { s with que := { s.que with waiting := w } }

theorem exec_arbDraw_none {w : BitVec 16} {s : State} (h : s.que.holder.isSome = true ∨ s.fld F.ARB_CTL.FREEZE = 1 ∨
    ∀ i < 16, w.getLsbD i = true → s.tickets i = 0) : exec (.arbDraw w) s = .next (s.await w).showArb := by
  have hnone : s.que.holder.isSome = true ∨ s.fld F.ARB_CTL.FREEZE = 1 ∨
      ((s.lotteryOf w).map fun i => (i, s.tickets i)).isEmpty = true := by
    refine h.imp_right (.imp_right fun h => ?_)
    rw [List.isEmpty_map, List.isEmpty_iff, List.eq_nil_iff_forall_not_mem]
    intro i hi
    obtain ⟨hlt, hw, ht⟩ := State.mem_lotteryOf.mp hi
    exact ht.ne' (h i hlt hw)
  exact congrArg (fun t : State => Host.Outcome.next t.showArb) (if_pos hnone)

theorem exec_arbDraw_some {w : BitVec 16} {s : State} (hq : s.que.holder = none) (hz : s.fld F.ARB_CTL.FREEZE = 0)
    (h : s.lotteryOf w ≠ []) : exec (.arbDraw w) s =
      .next ((s.await w).draw16 ((s.lotteryOf w).map fun i => (i, s.tickets i))).showArb := by
  have hsome : ¬(s.que.holder.isSome = true ∨ s.fld F.ARB_CTL.FREEZE = 1 ∨
      ((s.lotteryOf w).map fun i => (i, s.tickets i)).isEmpty = true) := by
    simp [hq, hz, h]
  exact congrArg (fun t : State => Host.Outcome.next t.showArb) (if_neg hsome)

/-- The requester takes the complex: a part of `draw16`. -/
def State.grantTo (s : State) (v : Word) (i : Nat) : State :=
  { s with
    que := { s.que with lfsr := v, seed := none, holder := some i, waiting := s.que.waiting &&& ~~~ BitVec.ofNat 16 (2 ^ i) }
    regs := ((s.regs.setF F.ARB_LFSR.STATE v.toNat).setF F.ARB_HOLD_PACE.PACE s.now).bump (F.ARB_GRANT_CNT.COUNT i) 1 }

theorem State.draw16_of_walk {s : State} {l : List (Nat × Nat)} {i : Nat}
    (h : lotteryWalk l ((lfsrNext (s.que.seed.getD s.que.lfsr)).toNat % sumNat (fun c => c.2) l) = some i) :
    s.draw16 l = s.grantTo (lfsrNext (s.que.seed.getD s.que.lfsr)) i := by
  simp only [State.draw16, h, State.grantTo]

theorem ok_grantCnt {i : Nat} (h : i < 16) : (F.ARB_GRANT_CNT.COUNT i).ok = true :=
  (by decide +kernel : ∀ i < 16, (F.ARB_GRANT_CNT.COUNT i).ok = true) i h

theorem ok_arbLfsr : F.ARB_LFSR.STATE.ok = true := by decide +kernel

theorem ok_arbHoldPace : F.ARB_HOLD_PACE.PACE.ok = true := by decide +kernel

/-- The registers of a grant stand in this order. -/
theorem arbRegs_lt (i : Nat) : R.ARB_STAT < R.ARB_LFSR ∧ R.ARB_LFSR < R.ARB_HOLD_PACE ∧ R.ARB_HOLD_PACE < R.ARB_GRANT_CNT i := by
  unfold R.ARB_STAT R.ARB_LFSR R.ARB_HOLD_PACE R.ARB_GRANT_CNT
  omega

section
variable {s : State} (v : Word) {i : Nat}

theorem State.grantTo_regs : (s.grantTo v i).regs =
    ((s.regs.setF F.ARB_LFSR.STATE v.toNat).setF F.ARB_HOLD_PACE.PACE s.now).bump (F.ARB_GRANT_CNT.COUNT i) 1 := by
  rw [State.grantTo]

theorem State.onlyRegs_grantTo : OnlyRegs [R.ARB_LFSR, R.ARB_HOLD_PACE, R.ARB_GRANT_CNT i] s (s.grantTo v i) := by
  refine OnlyRegs.of_regs (t := ((s.setF F.ARB_LFSR.STATE v.toNat).setF F.ARB_HOLD_PACE.PACE s.now).bump
    (F.ARB_GRANT_CNT.COUNT i) 1) ?_ (State.grantTo_regs v)
  refine OnlyRegs.bump (OnlyRegs.setF (OnlyRegs.setF (OnlyRegs.refl _ s) _ ?_) _ ?_) _ ?_
  · exact .head _
  · exact .tail _ (.head _)
  · exact .tail _ (.tail _ (.head _))

variable (hs : Inv s)
include hs

theorem State.grantTo_inv : Inv (s.grantTo v i) := by
  rw [Inv, State.grantTo_regs]
  exact RegFile.bump_wf _ _ (RegFile.setF_wf _ _ (RegFile.setF_wf _ _ hs))

theorem State.fld_grantTo_state : (s.grantTo v i).fld F.ARB_LFSR.STATE = v.toNat := by
  obtain ⟨-, h1, h2⟩ := arbRegs_lt i
  rw [State.fld_eq, State.grantTo_regs, RegFile.bump, RegFile.fld_setF_reg _ _ (h1.trans h2).ne,
    RegFile.fld_setF_reg _ _ h1.ne, RegFile.fld_setF_same _ hs ok_arbLfsr]
  exact Nat.mod_eq_of_lt v.isLt

theorem State.fld_grantTo_pace : (s.grantTo v i).fld F.ARB_HOLD_PACE.PACE = s.now % 2 ^ 32 := by
  obtain ⟨-, -, h2⟩ := arbRegs_lt i
  rw [State.fld_eq, State.grantTo_regs, RegFile.bump, RegFile.fld_setF_reg _ _ h2.ne]
  exact RegFile.fld_setF_same _ (RegFile.setF_wf _ _ hs) ok_arbHoldPace

theorem State.fld_grantTo_count (hi : i < 16) : (s.grantTo v i).fld (F.ARB_GRANT_CNT.COUNT i) =
    min (s.fld (F.ARB_GRANT_CNT.COUNT i) + 1) (2 ^ 32 - 1) := by
  obtain ⟨-, h1, h2⟩ := arbRegs_lt i
  rw [State.fld_eq, State.grantTo_regs, RegFile.fld_bump_same _ (RegFile.setF_wf _ _ (RegFile.setF_wf _ _ hs)) (ok_grantCnt hi),
    RegFile.fld_setF_reg _ _ h2.ne', RegFile.fld_setF_reg _ _ (h1.trans h2).ne', State.fld_eq s]
  rfl

end

/-- The next state of the draw is the shift with its parity below (R325). -/
theorem lfsrNext_toNat (v : Word) : (lfsrNext v).toNat = (v.toNat * 2 +
    (xor (xor (v.getLsbD 31) (v.getLsbD 21)) (xor (v.getLsbD 1) (v.getLsbD 0))).toNat) % 2 ^ 32 := by
  have hshift : (v <<< 1).toNat = v.toNat * 2 % 2 ^ 32 := by
    rw [BitVec.toNat_shiftLeft, Nat.shiftLeft_eq, pow_one]
  have heven : v.toNat * 2 % 2 ^ 32 = (v.toNat % 2 ^ 31) <<< 1 := by
    rw [Nat.shiftLeft_eq]
    omega
  unfold lfsrNext
  cases xor (xor (v.getLsbD 31) (v.getLsbD 21)) (xor (v.getLsbD 1) (v.getLsbD 0)) with
  | false => simp [hshift]
  | true =>
    rw [if_pos rfl, BitVec.toNat_or, hshift, heven, show (1 : Word).toNat = 1 from rfl,
      ← Nat.shiftLeft_add_eq_or_of_lt (by decide), Nat.shiftLeft_eq]
    simp only [Bool.toNat_true]
    omega

/-! ### FREEZE and the seed (R326, R328) -/

theorem State.storeBits_regs (s : State) (addr : Nat) (value mask : Word) :
    (s.storeBits addr value mask).regs = s.regs.put addr (mergeWord (s.regs.get addr) value mask) := by
  rw [State.storeBits]

/-- A field whose bits are all stored reads what was written. -/
theorem State.fld_storeBits {s : State} (hs : Inv s) {addr : Nat} {r : RegSpec} {f : FieldSpec} (hr : findReg addr = some r)
    (hf : f ∈ r.fields) (hlo : f.lo ≤ f.hi) {mask : Word} (hm : ∀ i ≤ f.hi, f.lo ≤ i → mask.getLsbD i = true) (value : Word) :
    (s.storeBits addr value mask).fld ⟨addr, f.hi, f.lo⟩ = fieldOf value f.hi f.lo := by
  rw [State.fld_eq, State.storeBits_regs, RegFile.fld, RegFile.get_put_same _ hs hr, fieldOf_cut hf _ le_rfl,
    fieldOf_mergeWord hm hlo]

/-- The field FREEZE of ARB_CTL. -/
def freezeField : FieldSpec := ⟨0, 0, .RW, 0, .all⟩

/-- ARB_CTL holds FREEZE alone. -/
def arbCtlReg : RegSpec := ⟨R.ARB_CTL, [], false, [freezeField]⟩

theorem findReg_arbCtl : findReg R.ARB_CTL = some arbCtlReg := by decide +kernel

/-- The field of ARB_SEED. -/
def seedField : FieldSpec := ⟨31, 0, .RW, 0, .iv [(1, 4294967295)]⟩

/-- ARB_SEED holds the seed alone. -/
def arbSeedReg : RegSpec := ⟨R.ARB_SEED, [], false, [seedField]⟩

theorem findReg_arbSeed : findReg R.ARB_SEED = some arbSeedReg := by decide +kernel

/-- The word that writes FREEZE. -/
def freezeWord (b : Bool) : Word := BitVec.ofNat 32 b.toNat

theorem State.judged_freeze {s : State} (hl : s.lockMask R.ARB_CTL = 0) (who : Requester) (b : Bool) :
    s.judged who R.ARB_CTL (freezeWord b) 1 arbCtlReg = [(freezeField, Cause.OK)] := by
  have hsel : (arbCtlReg.fields.filter fun f => ((1 : Word) &&& f.mask) != 0 && f.acc != .RO && f.acc != .ROS && f.acc != .RC) =
      [freezeField] := rfl
  have hown : ∀ lo w, s.ownCause R.ARB_CTL lo w = Cause.OK := fun _ _ => rfl
  rw [State.judged, hsel, List.map_singleton]
  simp [State.fieldCause, hl, hown, freezeField, Range.holds]

/-- FREEZE is written: the register is put back, and the change takes its way. -/
theorem State.writeFields_freeze {s : State} (hs : Inv s) (hl : s.lockMask R.ARB_CTL = 0) (who : Requester) (b : Bool) :
    s.writeFields who R.ARB_CTL (freezeWord b) 1 arbCtlReg = (s.setFreeze b, Cause.OK) := by
  have hbits : freezeField.mask &&& (1 : Word) = 1 := by decide
  have hfld : (s.storeBits R.ARB_CTL (freezeWord b) 1).fld F.ARB_CTL.FREEZE = b.toNat := by
    refine (State.fld_storeBits hs findReg_arbCtl (.head _) (by decide) (by decide) _).trans ?_
    cases b <;> rfl
  have hback : ({ s.storeBits R.ARB_CTL (freezeWord b) 1 with
      regs := (s.storeBits R.ARB_CTL (freezeWord b) 1).regs.put R.ARB_CTL (s.regs.get R.ARB_CTL) } : State) = s := by
    rw [State.storeBits]
    dsimp only
    rw [RegFile.put_put_get _ _ hs]
  have hafter : ∀ (t : State) (old : Word), t.afterWrite R.ARB_CTL old =
      ({ t with regs := t.regs.put R.ARB_CTL old } : State).setFreeze (t.fld F.ARB_CTL.FREEZE == 1) := fun _ _ => rfl
  rw [State.writeFields_of_rw (State.judged_freeze hl who b) rfl (by decide), hbits, hafter, hfld, hback]
  cases b <;> rfl

theorem State.setFreeze_same {s : State} {b : Bool} (h : s.fld F.ARB_CTL.FREEZE = b.toNat) : s.setFreeze b = s := by
  refine if_pos ?_
  rw [h]
  cases b <;> rfl

/-- FREEZE has changed, and the change is posted: a part of `setFreeze`. -/
def State.freezeChanged (s : State) (b : Bool) : State :=
  (s.flag F.ARB_CTL.FREEZE b).post Ev.ARB_FREEZE [b8 (if b then 1 else 0)]

theorem State.setFreeze_changed {s : State} {b : Bool} (h : s.fld F.ARB_CTL.FREEZE ≠ b.toNat) :
    s.setFreeze b = (s.freezeChanged b).showArb := by
  refine if_neg fun heq => h ?_
  have hlt : s.fld F.ARB_CTL.FREEZE < 2 := fieldOf_lt _ 0 0
  cases b
  · have : s.fld F.ARB_CTL.FREEZE ≠ 1 := by simpa using heq
    simp only [Bool.toNat_false]
    omega
  · simpa using heq

/-- An RW field that no rule locks is judged by its range and by what its description says. -/
theorem State.fieldCause_of_rw {s : State} {addr : Nat} {f : FieldSpec} (hl : s.lockMask addr = 0) (hf : f.acc = .RW)
    (who : Requester) (r : RegSpec) (value mask : Word) : s.fieldCause who addr r value mask f =
      let w := mergeWord (s.overlay addr) value (mask &&& r.storable)
      if f.range.holds (fieldOf w f.hi f.lo) then s.ownCause addr f.lo w else Cause.REG_RANGE := by
  simp [State.fieldCause, hl, hf]

/-- Every bit of a register. -/
def wholeMask : Word := 0xFFFFFFFF

/-- A word that is written whole is stored as it is. -/
theorem mergeWord_whole (old v : Word) : mergeWord old v wholeMask = v := by
  have h1 : ~~~wholeMask = 0 := by decide
  have h2 : v &&& wholeMask = v := BitVec.and_allOnes
  rw [mergeWord, h1, h2, show old &&& 0 = 0 from BitVec.and_zero]
  exact BitVec.zero_or

theorem State.judged_seed {s : State} (hl : s.lockMask R.ARB_SEED = 0) (who : Requester) (v : Word) :
    s.judged who R.ARB_SEED v wholeMask arbSeedReg = [(seedField, if v = 0 then Cause.REG_RANGE else Cause.OK)] := by
  have hsel : (arbSeedReg.fields.filter fun f => (wholeMask &&& f.mask) != 0 && f.acc != .RO && f.acc != .ROS && f.acc != .RC) =
      [seedField] := rfl
  have hmask : wholeMask &&& arbSeedReg.storable = wholeMask := by decide
  have hown : ∀ lo w, s.ownCause R.ARB_SEED lo w = Cause.OK := fun _ _ => rfl
  have hfield : fieldOf v seedField.hi seedField.lo = v.toNat := by
    simp [fieldOf, seedField, Nat.mod_eq_of_lt v.isLt]
  have hrange : seedField.range.holds v.toNat = !decide (v = 0) := by
    have hlt := v.isLt
    by_cases hv : v = 0
    · rw [hv]
      rfl
    · have hpos : v.toNat ≠ 0 := fun h => hv (BitVec.eq_of_toNat_eq h)
      simp only [seedField, Range.holds, List.any_cons, List.any_nil, Bool.or_false, hv, decide_false, Bool.not_false,
        Bool.and_eq_true, decide_eq_true_eq]
      omega
  rw [State.judged, hsel, List.map_singleton, State.fieldCause_of_rw hl rfl]
  simp only [hmask, mergeWord_whole, hfield, hrange, hown]
  by_cases hv : v = 0 <;> simp [hv]

/-- A field that fails leaves the state as it is, and gives the cause. -/
theorem State.writeFields_of_failed {s : State} {who : Requester} {addr : Nat} {value mask : Word} {r : RegSpec} {f : FieldSpec}
    {c : Nat} (hs : s.regs.wf = true) (hj : s.judged who addr value mask r = [(f, c)]) (hc : c ≠ 0) :
    s.writeFields who addr value mask r = (s, firstCause r.fields [(f.lo, c)]) := by
  have hbits : ∀ p : Access → Bool, takenBits [(f, c)] mask p = 0 := fun p => by
    simp [takenBits, hc]
  have hput : s.regs.put addr (mergeWord (s.regs.get addr) value 0 &&& ~~~(value &&& 0)) = s.regs := by
    have hmerge : mergeWord (s.regs.get addr) value 0#32 &&& ~~~(value &&& 0#32) = s.regs.get addr := by
      rw [mergeWord, BitVec.and_zero, BitVec.or_zero, BitVec.not_zero, BitVec.and_allOnes, BitVec.and_allOnes]
    exact (congrArg (s.regs.put addr) hmerge).trans (RegFile.put_get addr hs)
  have hwo : ([(f, c)].filter fun e => e.1.acc == .WO && e.2 == 0) = [] := by simp [hc]
  have hrest : ([(f, c)].filter fun e => !(e.1.acc == .WO && e.2 == 0)) = [(f, c)] := by simp [hc]
  have hrun : s.runTriggers who addr (value &&& mask) (triggerOrder addr []) = (s, []) := by
    simp [State.runTriggers, triggerOrder]
  simp only [State.writeFields_eq, hj, hbits, hput, hwo, hrest, List.map_nil, hrun, List.map_singleton, List.nil_append,
    if_true, ite_self]

/-- A seed other than 0 is stored, and loads at the next draw. -/
def State.seeded (s : State) (v : Word) : State :=
  { s with que := { s.que with seed := some v }, regs := s.regs.put R.ARB_SEED v }

theorem State.writeFields_seed {s : State} (hs : Inv s) (hl : s.lockMask R.ARB_SEED = 0) (who : Requester) (v : Word) :
    s.writeFields who R.ARB_SEED v wholeMask arbSeedReg =
      if v = 0 then (s, Cause.REG_RANGE) else (s.seeded v, Cause.OK) := by
  have hj := State.judged_seed hl who v
  by_cases hv : v = 0
  · rw [if_pos hv] at hj ⊢
    rw [State.writeFields_of_failed hs hj (by decide)]
    rfl
  · rw [if_neg hv] at hj ⊢
    have hbits : seedField.mask &&& wholeMask = wholeMask := by decide
    have hafter : ∀ (t : State) (old : Word), t.afterWrite R.ARB_SEED old = t.loadSeed (t.regs.get R.ARB_SEED) := fun _ _ => rfl
    have hput : ((s.regs.put R.ARB_SEED v).put R.ARB_SEED v) = s.regs.put R.ARB_SEED v := by
      refine RegFile.ext_of_get (RegFile.put_wf _ _ (RegFile.put_wf _ _ hs)) (RegFile.put_wf _ _ hs) fun a => ?_
      rcases eq_or_ne a R.ARB_SEED with rfl | ha
      · rw [RegFile.get_put_same _ (RegFile.put_wf _ _ hs) findReg_arbSeed, RegFile.get_put_same _ hs findReg_arbSeed]
      · rw [RegFile.get_put_other _ ha]
    have hget : (s.regs.put R.ARB_SEED v).get R.ARB_SEED = v := by
      rw [RegFile.get_put_same _ hs findReg_arbSeed]
      exact BitVec.and_allOnes
    rw [State.writeFields_of_rw hj rfl (by decide), hbits, hafter, State.storeBits_regs, mergeWord_whole, hget, State.loadSeed,
      State.storeBits, mergeWord_whole, State.seeded]
    dsimp only
    rw [hput]

theorem exec_freeze_permitted {s : State} (hs : Inv s) {who : Requester} (hm : MayWrite s who R.ARB_CTL) (b : Bool) :
    exec (.freeze who b) s = .next (((entered s who R.ARB_CTL (freezeWord b) 1).setFreeze b).send
      (.regCause who R.ARB_CTL Cause.OK)) := by
  obtain ⟨p, hp⟩ := entered_eq s who R.ARB_CTL (freezeWord b) 1
  have hi : Inv (entered s who R.ARB_CTL (freezeWord b) 1) := by rw [hp]; exact hs
  have hl : (entered s who R.ARB_CTL (freezeWord b) 1).lockMask R.ARB_CTL = 0 := by rw [hp]; exact hm.2.1
  have hword : (if b then 1 else 0 : Word) = freezeWord b := by cases b <;> rfl
  simp only [exec, execFreeze, hword]
  rw [State.writeFor_entered findReg_arbCtl hm (State.writeFields_freeze hi hl who b)]

theorem exec_arbSeed_permitted {s : State} (hs : Inv s) {who : Requester} (hm : MayWrite s who R.ARB_SEED) (v : Word) :
    exec (.arbSeed who v) s = .next (if v = 0
      then (entered s who R.ARB_SEED v wholeMask).send (.regCause who R.ARB_SEED Cause.REG_RANGE)
      else ((entered s who R.ARB_SEED v wholeMask).seeded v).send (.regCause who R.ARB_SEED Cause.OK)) := by
  obtain ⟨p, hp⟩ := entered_eq s who R.ARB_SEED v wholeMask
  have hi : Inv (entered s who R.ARB_SEED v wholeMask) := by rw [hp]; exact hs
  have hl : (entered s who R.ARB_SEED v wholeMask).lockMask R.ARB_SEED = 0 := by rw [hp]; exact hm.2.1
  have hw := State.writeFields_seed hi hl who v
  by_cases hv : v = 0
  · rw [if_pos hv] at hw ⊢
    exact congrArg Host.Outcome.next (State.writeFor_entered findReg_arbSeed hm hw)
  · rw [if_neg hv] at hw ⊢
    exact congrArg Host.Outcome.next (State.writeFor_entered findReg_arbSeed hm hw)

/-- A change of FREEZE shows in ARB_CTL and in DRAINED, and is recorded. -/
theorem State.freezeChanged_shown {s : State} (hs : Inv s) (b : Bool) :
    let t := (s.freezeChanged b).showArb
    t.fld F.ARB_CTL.FREEZE = b.toNat ∧
    t.fld F.ARB_STAT.DRAINED = (if b = true ∧ s.que.holder = none then 1 else 0) ∧ OnlyRegs [R.ARB_CTL, R.ARB_STAT] s t ∧
    t = { s.post Ev.ARB_FREEZE [b8 b.toNat] with regs := t.regs } := by
  have hok : F.ARB_CTL.FREEZE.ok = true := FieldRef.ok_of_spans findReg_arbCtl rfl
  have hfreeze : (s.freezeChanged b).fld F.ARB_CTL.FREEZE = b.toNat := by
    rw [State.freezeChanged, State.fld_post, State.fld_flag_same b hs hok]
    cases b <;> rfl
  have hregs : (s.freezeChanged b).regs = s.regs.flag F.ARB_CTL.FREEZE b := by
    rw [State.freezeChanged, State.post_regs, State.flag_regs]
  have hinv : Inv (s.freezeChanged b) := by
    rw [Inv, hregs]
    exact RegFile.flag_wf _ b hs
  have honly : OnlyRegs [R.ARB_CTL, R.ARB_STAT] s (s.freezeChanged b) :=
    OnlyRegs.of_regs (t := s.flag F.ARB_CTL.FREEZE b) (OnlyRegs.flag (OnlyRegs.refl _ s) _ (.head _)) hregs
  have hctl : R.ARB_CTL ∉ [R.ARB_STAT] := by decide
  refine ⟨?_, ?_, ?_, ?_⟩
  · rw [(State.onlyRegs_showArb (OnlyRegs.refl [R.ARB_STAT] (s.freezeChanged b)) (.head _)).fld hctl, hfreeze]
  · rw [State.fld_showArb_drained hinv, hfreeze]
    cases b <;> simp [State.freezeChanged]
  · exact State.onlyRegs_showArb honly (.tail _ (.head _))
  · rw [State.showArb_eq]
    cases b <;> rfl

/-! ### The statement -/

/-- A draw grants the complex to the requester on whose tickets the number falls. -/
theorem exec_arbDraw_granted {w : BitVec 16} {s : State} (hs : Inv s) (hq : s.que.holder = none)
    (hz : s.fld F.ARB_CTL.FREEZE = 0) (h : ∃ i < 16, w.getLsbD i = true ∧ 0 < s.tickets i) :
    ∃ t i v c, exec (.arbDraw w) s = .next t ∧
      c = (List.range 16).filter (fun i => w.getLsbD i && decide (0 < s.tickets i)) ∧
      i ∈ c ∧ v = lfsrNext (s.que.seed.getD s.que.lfsr) ∧
      sumNat s.tickets (c.filter (· < i)) ≤ v.toNat % sumNat s.tickets c ∧
      v.toNat % sumNat s.tickets c < sumNat s.tickets (c.filter (· < i)) + s.tickets i ∧
      t.que = { s.que with lfsr := v, seed := none, holder := some i, waiting := w &&& ~~~ BitVec.ofNat 16 (2 ^ i) } ∧
      t.fld F.ARB_LFSR.STATE = v.toNat ∧ t.fld F.ARB_HOLD_PACE.PACE = s.now % 2 ^ 32 ∧
      t.fld (F.ARB_GRANT_CNT.COUNT i) = min (s.fld (F.ARB_GRANT_CNT.COUNT i) + 1) (2 ^ 32 - 1) ∧
      t.fld F.ARB_STAT.HELD = 1 ∧ t.fld F.ARB_STAT.HOLDER = i ∧
      OnlyRegs [R.ARB_STAT, R.ARB_LFSR, R.ARB_HOLD_PACE, R.ARB_GRANT_CNT i] s t ∧
      t = { s with regs := t.regs, que := t.que } := by
  obtain ⟨k, hk, hwk, htk⟩ := h
  have hmem : k ∈ s.lotteryOf w := State.mem_lotteryOf.mpr ⟨hk, hwk, htk⟩
  have hsorted : (s.lotteryOf w).Pairwise (· < ·) := List.pairwise_lt_range.filter _
  have hr := Nat.mod_lt (lfsrNext (s.que.seed.getD s.que.lfsr)).toNat (sumNat_pos hmem htk)
  obtain ⟨i, hi, hwalk, hlo, hhi⟩ := lotteryWalk_spec s.tickets hsorted hr
  have hdraw : (s.await w).draw16 ((s.lotteryOf w).map fun i => (i, s.tickets i)) =
      (s.await w).grantTo (lfsrNext (s.que.seed.getD s.que.lfsr)) i := by
    refine State.draw16_of_walk ?_
    rw [sumNat_map]
    exact hwalk
  have hexec := exec_arbDraw_some hq hz (List.ne_nil_of_mem hmem)
  rw [hdraw] at hexec
  have hi16 : i < 16 := (State.mem_lotteryOf.mp hi).1
  have haw : Inv (s.await w) := hs
  have hinv := State.grantTo_inv (lfsrNext (s.que.seed.getD s.que.lfsr)) (i := i) haw
  have hstat : OnlyRegs [R.ARB_STAT] ((s.await w).grantTo (lfsrNext (s.que.seed.getD s.que.lfsr)) i)
      ((s.await w).grantTo (lfsrNext (s.que.seed.getD s.que.lfsr)) i).showArb :=
    State.onlyRegs_showArb (OnlyRegs.refl _ _) (.head _)
  obtain ⟨h0, h1, h2⟩ := arbRegs_lt i
  refine ⟨_, i, _, _, hexec, rfl, hi, rfl, hlo, hhi, ?_, ?_, ?_, ?_, ?_, ?_, ?_, ?_⟩
  · rw [State.showArb_que]
    rfl
  · rw [hstat.fld (mt List.mem_singleton.mp h0.ne'), State.fld_grantTo_state _ haw]
  · rw [hstat.fld (mt List.mem_singleton.mp (h0.trans h1).ne'), State.fld_grantTo_pace _ haw]
    rfl
  · rw [hstat.fld (mt List.mem_singleton.mp ((h0.trans h1).trans h2).ne'), State.fld_grantTo_count _ haw hi16]
    rfl
  · rw [State.fld_showArb_held hinv]
    rfl
  · exact State.fld_showArb_holder hinv rfl hi16
  · refine State.onlyRegs_showArb (OnlyRegs.mono (State.onlyRegs_grantTo _) fun a ha => ?_) (.head _)
    exact .tail _ ha
  · rw [State.showArb_eq]
    rfl

/-- Settles O48: the draw and what keeps it back, FREEZE and the seed. -/
theorem arbiterDrawsUnlessFrozen : Obligations.ArbiterDrawsUnlessFrozen := by
  refine ⟨fun w s hs hno => ?held_back, fun w s hs hq hz h => exec_arbDraw_granted hs hq hz h, lfsrNext_toNat,
    fun s hs => ?release, fun who b s hs hm => ⟨fun hsame => ?unchanged, fun hne => ?changed⟩,
    fun who v s hs hm => ⟨fun hv => ?refused, fun hv => ?loaded⟩⟩
  case held_back =>
    have haw : Inv (s.await w) := hs
    refine ⟨_, exec_arbDraw_none hno, State.showArb_que _, State.fld_showArb_pending haw, State.fld_showArb_held haw,
      State.fld_showArb_drained haw, State.onlyRegs_showArb (OnlyRegs.refl _ s) (.head _), ?_⟩
    rw [State.showArb_eq]
    rfl
  case release =>
    have hrel : Inv { s with que := { s.que with holder := none } } := hs
    refine ⟨_, rfl, State.showArb_que _, (State.fld_showArb_held hrel).trans rfl, ?_,
      State.onlyRegs_showArb (OnlyRegs.refl _ s) (.head _), ?_⟩
    · rw [State.fld_showArb_drained hrel]
      simp only [and_true]
      rfl
    · rw [State.showArb_eq]
  case unchanged =>
    obtain ⟨p, hp⟩ := entered_eq s who R.ARB_CTL (freezeWord b) 1
    rw [exec_freeze_permitted hs hm, State.setFreeze_same]
    · rfl
    · rw [hp]
      exact hsame
  case changed =>
    obtain ⟨p, hp⟩ := entered_eq s who R.ARB_CTL (freezeWord b) 1
    have hu : (entered s who R.ARB_CTL (freezeWord b) 1).fld F.ARB_CTL.FREEZE ≠ b.toNat := by
      rw [hp]
      exact hne
    rw [exec_freeze_permitted hs hm, State.setFreeze_changed hu, hp]
    obtain ⟨hfreeze, hdrained, honly, hframe⟩ := State.freezeChanged_shown (s := { s with pair := p }) hs b
    exact ⟨_, _, rfl, hp.symm, hfreeze, hdrained, State.showArb_que _, honly, hframe⟩
  case refused => rw [exec_arbSeed_permitted hs hm, if_pos hv]; rfl
  case loaded =>
    obtain ⟨p, hp⟩ := entered_eq s who R.ARB_SEED v wholeMask
    rw [exec_arbSeed_permitted hs hm, if_neg hv, hp]
    refine ⟨_, _, rfl, hp.symm, ?_, fun a ha => RegFile.get_put_other _ (List.ne_of_not_mem_cons ha), rfl, rfl⟩
    rw [State.seeded]
    exact (RegFile.get_put_same _ hs findReg_arbSeed).trans BitVec.and_allOnes

end Sys2Proof.Machine

/-! Event posts become records in order: a notice of an event touches nothing of the recorder, so what a post does to it is
what opening, repeating and closing a record do (R329 to R339). -/

namespace Sys2Proof.Machine

set_option Elab.async false

/-! ### What a notice leaves of the event recorder -/

/-- What each step of a fold leaves alone, the fold leaves alone. -/
theorem foldl_keeps {α β σ : Type} {g : σ → α → σ} {p : σ → β} (h : ∀ t a, p (g t a) = p t) (l : List α) (s : σ) :
    p (l.foldl g s) = p s :=
  List.foldlRecOn (motive := fun t => p t = p s) l g rfl fun t ht a _ => (h t a).trans ht

theorem State.raiseVector_evt (s : State) (k : Nat) (irq : Option (Nat × Nat)) : (s.raiseVector k irq).evt = s.evt := by
  cases irq with
  | none => rfl
  | some p => exact State.send_evt ..

theorem State.ringPut_evt (s : State) (k : Nat) (q : PcieSlot) (w : OutWaybill) : (s.ringPut k q w).evt = s.evt :=
  (foldl_keeps (p := State.evt) (fun t e => by
    rw [ringWrite, State.raiseVector_evt, State.send_evt]) _ _).trans (State.send_evt ..)

theorem State.pcieMove_evt {s t : State} {link : Nat} {w : OutWaybill} (h : s.pcieMove link w = some t) : t.evt = s.evt := by
  unfold State.pcieMove at h
  extract_lets k q overhead at h
  split at h
  · cases h
  dsimp only at h
  split at h
  · cases h
    exact State.ringPut_evt ..
  split at h
  · cases h
    exact State.ringPut_evt ..
  split at h
  · split at h
    · cases h
      exact State.ringPut_evt ..
    · cases h
      rfl
  · cases h
    rfl

theorem State.pciePump_evt (s : State) (c link : Nat) : (s.pciePump c link).evt = s.evt := by
  refine foldl_keeps (p := fun x : State × Bool => x.1.evt) (fun x w => ?_) _ _
  dsimp only
  split
  · rfl
  split
  · rfl
  split
  · next h => exact State.pcieMove_evt h
  · rfl

theorem State.put_evt (s : State) (w : OutWaybill) : (s.put w).evt = s.evt := by
  unfold State.put
  dsimp only
  split
  · exact State.pciePump_evt ..
  split
  · rfl
  · exact State.send_evt ..

theorem State.emit_evt (s : State) (w : OutWaybill) (x : Option Session) : (s.emit w x).evt = s.evt := by
  unfold State.emit
  dsimp only
  split
  · exact State.put_evt ..
  · exact State.put_evt ..

theorem State.sendWaybill_evt (s : State) (c : Nat) (clear rep : Bool) (type opcode : Nat) (seq task : Word) (cause : Nat)
    (body : List Tlv) : (s.sendWaybill c clear rep type opcode seq task cause body).evt = s.evt := by
  unfold State.sendWaybill
  split
  · rfl
  · exact State.emit_evt ..

theorem State.sendNotice_evt (s : State) (c : Nat) (n : NoticeRec) : (s.sendNotice c n).evt = s.evt := by
  unfold State.sendNotice
  dsimp only
  split
  · exact State.sendWaybill_evt ..
  · exact State.sendWaybill_evt ..

theorem State.pump_evt (s : State) (c : Nat) : (s.pump c).evt = s.evt := by
  unfold State.pump
  split
  · exact foldl_keeps (p := State.evt) (fun t n => State.sendNotice_evt t c n) _ _
  · rfl

theorem State.retain_evt (s : State) (c kind : Nat) (body : List Tlv) (task : Nat) : (s.retain c kind body task).evt = s.evt :=
  State.pump_evt ..

theorem State.eventNotice_evt (s : State) (r : EvtRecord) (closed : Bool) : (s.eventNotice r closed).evt = s.evt := by
  unfold State.eventNotice
  split
  · rfl
  · refine foldl_keeps (p := State.evt) (fun t c => ?_) _ _
    split
    · rfl
    · exact State.retain_evt ..

theorem State.flushLost_evt (s : State) (c : Nat) : (s.flushLost c).evt = s.evt := by
  unfold State.flushLost
  dsimp only
  split
  · rfl
  · refine (foldl_keeps (p := State.evt) (fun t l => ?_) _ _).trans rfl
    split
    · rfl
    · exact State.retain_evt ..

theorem State.noteLost_evt (s : State) (p : Post) : (s.noteLost p).evt = s.evt := by
  unfold State.noteLost
  dsimp only
  rw [foldl_keeps (p := State.evt) (fun (t : State) (l : Nat × Nat) => State.flushLost_evt t l.1)]
  exact foldl_keeps (p := State.evt) (g := fun (t : State) (l : Nat × Nat) =>
    t.loseEventNotice l.1 s.evt.seq.toNat l.2 0) (fun _ _ => rfl) _ _

theorem State.noteLost_of_none (s : State) {p : Post} (h : p.lostFor = []) : s.noteLost p = s := by
  unfold State.noteLost
  rw [h]
  rfl

/-! ### Records -/

theorem EvtState.writeCopy_eq (e : EvtState) (r : EvtRecord) : e.writeCopy r = { e with copies := (e.writeCopy r).copies } := by
  unfold EvtState.writeCopy
  split
  · rfl
  · rfl
  · dsimp only
    split
    · rfl
    · rfl

/-- The record that a post opens (R333). -/
def Post.opened (p : Post) (seq : Word) : EvtRecord := ⟨p.code, seq, p.opSeconds, p.pwrCycles, 0, p.opSeconds, p.payload⟩

/-- The record that a repeat leaves (R333). -/
def EvtRecord.repeated (r : EvtRecord) (p : Post) : EvtRecord :=
  { r with rep := r.rep + 1, lastSeconds := p.opSeconds, payload := p.payload }

/-- The recorder as a record is appended (R334). -/
def State.appended (s : State) (r : EvtRecord) : EvtState :=
  { s.evt with openRec := none, log := s.evt.log ++ [r], appended := s.evt.appended ++ [(s.now, r.seq)] }

/-- The state as a record is appended and counted (R334). -/
def State.recordClosed (s : State) (r : EvtRecord) : State :=
  ({ s with evt := s.appended r } : State).bump F.EVT_CLOSE_CNT.COUNT

theorem State.closeRecord_of_open {s : State} {r : EvtRecord} (h : s.evt.openRec = some r) :
    s.closeRecord = if 0 < r.rep then (s.recordClosed r).eventNotice r true else s.recordClosed r := by
  unfold State.closeRecord
  rw [h]
  rfl

theorem State.closeRecord_evt {s : State} {r : EvtRecord} (h : s.evt.openRec = some r) :
    s.closeRecord.evt = s.appended r := by
  rw [State.closeRecord_of_open h]
  split
  · exact State.eventNotice_evt ..
  · rfl

theorem State.openRecord_evt (s : State) (p : Post) : ∃ c n, (s.openRecord p).evt = { s.evt with
    openRec := some (p.opened (s.evt.seq + 1)), seq := s.evt.seq + 1, seqOpen := true, copies := c, notices := n } := by
  unfold State.openRecord
  dsimp only
  rw [EvtState.writeCopy_eq]
  split
  · exact ⟨_, _, rfl⟩
  · exact ⟨_, _, State.eventNotice_evt ..⟩

/-! ### A post -/

theorem State.handlePost_free {s : State} {p : Post} (h : s.evt.openRec = none) :
    s.handlePost p = (s.openRecord p).noteLost p := by
  unfold State.handlePost
  rw [h]

theorem State.handlePost_repeat {s : State} {p : Post} {r : EvtRecord} (h : s.evt.openRec = some r)
    (hr : isRepeat r p (s.fld F.EVT_WINDOW.SECONDS) = true) (hc : r.rep + 1 ≠ 65535) : s.handlePost p =
    ({ s with evt := ({ s.evt with openRec := some (r.repeated p) } : EvtState).writeCopy (r.repeated p) } : State).noteLost p := by
  unfold State.handlePost
  rw [h]
  dsimp only
  rw [if_pos hr, if_neg hc]
  rfl

theorem State.handlePost_other {s : State} {p : Post} {r : EvtRecord} (h : s.evt.openRec = some r)
    (hr : isRepeat r p (s.fld F.EVT_WINDOW.SECONDS) = false) : s.handlePost p = (s.closeRecord.openRecord p).noteLost p := by
  unfold State.handlePost
  rw [h]
  dsimp only
  rw [if_neg (by simp [hr])]

/-- The state without its oldest post. -/
def State.leftPosts (s : State) (l : List Post) : State := { s with evt := { s.evt with queue := l } }

theorem exec_eventPost {s : State} {p : Post} {l : List Post} (hq : s.evt.queue = p :: l)
    (hd : ((s.leftPosts l).handlePost p).evt.drops = 0) : exec .eventPost s = .next ((s.leftPosts l).handlePost p) := by
  show execEventPost s = _
  unfold execEventPost
  rw [hq]
  exact congrArg Host.Outcome.next (if_pos hd)

/-! ### The end of a window, and a discarded post -/

theorem closeCnt_ok : F.EVT_CLOSE_CNT.COUNT.ok = true := by decide +kernel

theorem State.recordClosed_frame (s : State) (r : EvtRecord) :
    s.recordClosed r = { s with evt := (s.recordClosed r).evt, regs := (s.recordClosed r).regs } := rfl

theorem State.onlyRegs_recordClosed (s : State) (r : EvtRecord) : OnlyRegs [R.EVT_CLOSE_CNT] s (s.recordClosed r) :=
  ((OnlyRegs.refl _ s).of_regs (t := { s with evt := s.appended r }) rfl).bump _ (.head _)

theorem State.recordClosed_count {s : State} (hs : Inv s) (r : EvtRecord) : (s.recordClosed r).fld F.EVT_CLOSE_CNT.COUNT =
    min (s.fld F.EVT_CLOSE_CNT.COUNT + 1) (2 ^ 32 - 1) :=
  State.fld_bump_same (s := { s with evt := s.appended r }) 1 hs closeCnt_ok

theorem State.windowEnds_of_open {s : State} {r : EvtRecord} (h : s.evt.openRec = some r) : s.windowEnds =
    if r.opSeconds + s.fld F.EVT_WINDOW.SECONDS ≤ s.evt.opSeconds.toNat then s.closeRecord else s := by
  unfold State.windowEnds
  rw [h]

/-- The state as its newest post is discarded (R329). -/
def State.postDropped (s : State) (l : List Post) : State :=
  { s with
    evt := { s.evt with queue := l, drops := s.evt.drops + 1 }
    regs := (s.regs.bump F.EVT_DROP_CNT.COUNT 1).flag F.EVT_STAT.DROP_SEEN true }

theorem exec_eventDrop {s : State} {p : Post} {l : List Post} (hq : s.evt.queue = l ++ [p]) : exec .eventDrop s =
    .next (p.lostFor.foldl (fun (x : State) y => x.flushLost y.1) (s.postDropped l)) := by
  show execEventDrop s = _
  unfold execEventDrop
  rw [hq, List.getLast?_concat]
  dsimp only
  rw [List.dropLast_concat]
  rfl

theorem State.postDropped_fields (s : State) (l : List Post) : (s.postDropped l).regs = s.regs.setFields
    [(F.EVT_DROP_CNT.COUNT, min (s.fld F.EVT_DROP_CNT.COUNT + 1) (2 ^ 32 - 1)), (F.EVT_STAT.DROP_SEEN, 1)] := by
  rw [State.postDropped]
  simp only [RegFile.setFields_cons, RegFile.setFields_nil, RegFile.flag_eq]
  rfl

theorem dropFields_apart : fieldsApart [F.EVT_DROP_CNT.COUNT, F.EVT_STAT.DROP_SEEN] = true := by decide +kernel

/-! ### The hour mark -/

theorem State.countSecond_of_due {s : State} (h : s.evt.secondDue = true) : s.countSecond =
    if (s.evt.opSeconds + 1).toNat % 3600 = 0
    then ({ s with evt := { s.evt with opSeconds := s.evt.opSeconds + 1, secondDue := false } } : State).timeMark
    else { s with evt := { s.evt with opSeconds := s.evt.opSeconds + 1, secondDue := false } } := if_pos h

/-- Settles O49: a notice leaves the recorder alone, so each case of a post, of a window's end and of a second is the step
of its record. -/
theorem postsBecomeRecordsInOrder : Obligations.PostsBecomeRecordsInOrder := by
  unfold Obligations.PostsBecomeRecordsInOrder
  refine ⟨fun s hq => ?empty, fun p l s hq ho hd => ?opens, fun p l r s hq ho hd hl hr hc => ?again,
    fun p l r s hq ho hd hr => ?closes, fun r s hs ho => ⟨fun hw => ?early, fun hw hz => ?silent, fun hw hz => ?noted⟩,
    fun l p s hs hq => ?drop, fun s => ⟨fun hn => ?notDue, fun hdue hm => ?second, fun hdue hm => ?hour⟩⟩
  case empty =>
    show execEventPost s = _
    unfold execEventPost
    rw [hq]
  case opens =>
    obtain ⟨c, n, he⟩ := State.openRecord_evt (s.leftPosts l) p
    have hh := (congrArg State.evt (State.handlePost_free (s := s.leftPosts l) (p := p) ho)).trans
      ((State.noteLost_evt ..).trans he)
    exact ⟨_, exec_eventPost hq (hh ▸ hd), by rw [hh]; rfl, by rw [hh]; rfl, by rw [hh]; rfl, by rw [hh]⟩
  case again =>
    have hh := (State.handlePost_repeat (s := s.leftPosts l) ho hr hc).trans (State.noteLost_of_none _ hl)
    rw [EvtState.writeCopy_eq] at hh
    exact ⟨_, exec_eventPost hq (hh ▸ hd), by rw [hh]; rfl, by rw [hh]; rfl, by rw [hh]; rfl, by rw [hh]; rfl,
      by rw [hh]; rfl⟩
  case closes =>
    obtain ⟨c, n, he⟩ := State.openRecord_evt (s.leftPosts l).closeRecord p
    rw [State.closeRecord_evt (s := s.leftPosts l) ho] at he
    have hh := (congrArg State.evt (State.handlePost_other (s := s.leftPosts l) ho hr)).trans
      ((State.noteLost_evt ..).trans he)
    exact ⟨_, exec_eventPost hq (hh ▸ hd), by rw [hh]; rfl, by rw [hh]; rfl, by rw [hh]; rfl⟩
  case early =>
    exact congrArg Host.Outcome.next ((State.windowEnds_of_open ho).trans (if_neg (by omega)))
  case silent =>
    exact ⟨_, congrArg Host.Outcome.next ((State.windowEnds_of_open ho).trans ((if_pos hw).trans
      ((State.closeRecord_of_open ho).trans (if_neg (by omega))))), rfl, State.recordClosed_count hs r,
      State.onlyRegs_recordClosed s r, State.recordClosed_frame s r⟩
  case noted =>
    exact ⟨_, congrArg Host.Outcome.next ((State.windowEnds_of_open ho).trans ((if_pos hw).trans
      ((State.closeRecord_of_open ho).trans (if_pos hz)))), rfl, State.recordClosed_count hs r,
      State.onlyRegs_recordClosed s r, State.recordClosed_frame s r⟩
  case drop =>
    have hf := State.postDropped_fields s l
    exact ⟨_, exec_eventDrop hq, rfl,
      State.fld_of_setFields hf hs dropFields_apart rfl (.tail _ (.head _)),
      (State.fld_of_setFields hf hs dropFields_apart rfl (.head _)).trans (min_mod_two_pow ..),
      State.onlyRegs_of_setFields hf (List.forall_mem_cons.mpr ⟨.head _, List.forall_mem_singleton.mpr (.tail _ (.head _))⟩),
      rfl⟩
  case notDue => exact congrArg Host.Outcome.next (if_neg (by simp [hn]))
  case second => exact congrArg Host.Outcome.next ((State.countSecond_of_due hdue).trans (if_neg hm))
  case hour =>
    exact ⟨_, _, congrArg Host.Outcome.next ((State.countSecond_of_due hdue).trans (if_pos hm)), rfl, rfl, rfl, rfl⟩

end Sys2Proof.Machine

/-! Fatal errors run their sequence: the watchdog's bite and hard reset, the steps of R438, the slot of a dump and its
register (R437 to R439). -/

namespace Sys2Proof.Machine

set_option Elab.async false

/-! ### The watchdog -/

/-- The state as the watchdog bites, counted in a field (R437). -/
def State.bitten (s : State) (f : FieldRef) : State :=
  let s1 := (s.bump f).fatal 4 0xF 0xFF 0
  { s1 with hlt := { s1.hlt with bite := some s.now } }

section
variable (s : State) (f : FieldRef)

theorem State.bitten_regs : (s.bitten f).regs = (s.bump f).regs := rfl

theorem State.bitten_hlt : (s.bitten f).hlt = { s.hlt with
    bite := some s.now
    fatal := match s.hlt.fatal with | some f => some f | none => some ⟨4, 0xF, 0xFF, 0⟩ } := rfl

theorem State.bitten_frame : s.bitten f = { s with regs := (s.bitten f).regs, hlt := (s.bitten f).hlt } := rfl

end

theorem exec_watchdogBite {s : State} (hw : s.fld F.HLT_WDOG.PACES ≤ s.hlt.watch) (hoff : s.portsOff = false)
    (hb : s.hlt.bite = none) : exec .watchdogBite s = .next (s.bitten F.HLT_WDOG.BITES) :=
  (if_pos ⟨hw, by simp [hoff], hb⟩ : execWatchdogBite s = _)

theorem wdogBites_ok : F.HLT_WDOG.BITES.ok = true := by decide +kernel

theorem wdogFields_apart : F.HLT_WDOG.PACES.ok = true ∧ F.HLT_WDOG.BITES.apart F.HLT_WDOG.PACES = true := by
  decide +kernel

theorem exec_watchdogHardReset_of_bite {s : State} {bad : List Nat} {p : Nat} (h : s.hlt.bite = some p) :
    exec (.watchdogHardReset bad) s = .next (if p + 16 ≤ s.now ∧ ¬ s.portsOff then
      ({ s with hlt := { s.hlt with bite := none, fatal := none, biteNoDump := true } } : State).cutReset 0x03 bad else s) := by
  show execWatchdogHardReset bad s = _
  unfold execWatchdogHardReset
  rw [h]

/-! ### The fatal sequence -/

/-- The fields of the last fatal error (R438). -/
def Fatal.fields (f : Fatal) : List (FieldRef × Nat) :=
  [(F.HLT_FATAL_LAST.KIND, f.kind), (F.HLT_FATAL_LAST.LANE, if f.lane ≤ 9 then f.lane else 0xF),
    (F.HLT_FATAL_LAST.ENGINE, f.engine), (F.HLT_FATAL_LAST.CAUSE, f.cause)]

theorem fatalFields_apart : fieldsApart [F.HLT_FATAL_LAST.KIND, F.HLT_FATAL_LAST.LANE, F.HLT_FATAL_LAST.ENGINE,
    F.HLT_FATAL_LAST.CAUSE] = true := by decide +kernel

theorem roleFatal_apart : fieldsApart [F.PAIR_STAT.ROLE, F.HLT_FATAL_LAST.KIND, F.HLT_FATAL_LAST.LANE,
    F.HLT_FATAL_LAST.ENGINE, F.HLT_FATAL_LAST.CAUSE] = true := by decide +kernel

/-- A fatal error taken and posted, with the registers `r`. -/
def State.fatalTaken (s : State) (r : RegFile) (p : Payload) : State :=
  ({ s with regs := r, hlt := { s.hlt with fatal := none, bite := none } } : State).post Ev.FATAL p

section
variable (s : State) (r : RegFile) (p : Payload)

theorem State.fatalTaken_regs : (s.fatalTaken r p).regs = r := rfl

theorem State.fatalTaken_pair : (s.fatalTaken r p).pair = s.pair := rfl

theorem State.fatalTaken_eq : s.fatalTaken r p =
    { s.post Ev.FATAL p with regs := r, hlt := { s.hlt with fatal := none, bite := none } } := rfl

theorem State.markRole_pair : s.markRole.pair = { s.pair with wasStandby := s.roleNow == 1 } := rfl

theorem State.markRole_eq : s.markRole = { s with pair := { s.pair with wasStandby := s.roleNow == 1 } } := rfl

end

/-- The state as a fatal error is recorded. -/
def State.fatalShown (s : State) (f : Fatal) : State :=
  s.fatalTaken ((((s.regs.setF F.HLT_FATAL_LAST.KIND f.kind).setF F.HLT_FATAL_LAST.LANE
      (if f.lane ≤ 9 then f.lane else 0xF)).setF F.HLT_FATAL_LAST.ENGINE f.engine).setF F.HLT_FATAL_LAST.CAUSE f.cause)
    [b1 f.kind, b8 (if f.lane ≤ 9 then f.lane else 0xF : Nat), b2 f.engine, b2 f.cause]

/-- The state once it is recorded and the role marked: steps 1 and 2 of R438. -/
def State.fatalRecorded (s : State) (f : Fatal) : State := (s.fatalShown f).markRole

theorem State.fatalShown_regs (s : State) (f : Fatal) : (s.fatalShown f).regs = s.regs.setFields f.fields := by
  rw [State.fatalShown, State.fatalTaken_regs]
  simp only [Fatal.fields, RegFile.setFields_cons, RegFile.setFields_nil]

theorem State.fatalRecorded_regs (s : State) (f : Fatal) : (s.fatalRecorded f).regs = s.regs.setFields f.fields := by
  rw [State.fatalRecorded, State.markRole, State.fatalShown_regs]

theorem State.fatalShown_role {s : State} (hs : Inv s) (f : Fatal) : (s.fatalShown f).roleNow = s.roleNow := by
  rw [State.roleNow, State.roleNow]
  exact State.fld_of_setFields_other (s.fatalShown_regs f) hs roleFatal_apart rfl

theorem State.fatalRecorded_pair {s : State} (hs : Inv s) (f : Fatal) :
    (s.fatalRecorded f).pair = { s.pair with wasStandby := s.roleNow == 1 } := by
  rw [← State.fatalShown_role hs f, State.fatalRecorded, State.markRole_pair, State.fatalShown, State.fatalTaken_pair]

theorem State.fatalRecorded_eq {s : State} (hs : Inv s) (f : Fatal) : s.fatalRecorded f =
    { s.post Ev.FATAL [b1 f.kind, b8 (if f.lane ≤ 9 then f.lane else 0xF : Nat), b2 f.engine, b2 f.cause] with
      regs := (s.fatalRecorded f).regs
      hlt := { s.hlt with fatal := none, bite := none }
      pair := { s.pair with wasStandby := s.roleNow == 1 } } := by
  rw [← State.fatalRecorded_pair hs f, State.fatalRecorded, State.markRole_eq, State.fatalShown, State.fatalTaken_eq]

/-- The state once an active member in step has handed over, with nothing withheld any more. -/
def State.fatalHanded (s : State) (f : Fatal) : State :=
  let v := if s.canHandOver then (s.fatalRecorded f).handoverPair else s.fatalRecorded f
  { v with pair := { v.pair with held := [] } }

/-- The state once its checkpoint is taken, which kind 2 leaves out. -/
def State.fatalSaved (s : State) (f : Fatal) (bad : List Nat) : State :=
  if f.kind = 2 then s.fatalHanded f else (s.fatalHanded f).finalCheckpoint bad

/-- The state once the dump is written and the recorder has caught up. -/
def State.fatalDumped (s : State) (f : Fatal) (e : DumpEnd) (w : List (Nat × List Byte)) (n : Nat) (bad : List Nat) : State :=
  let x := s.fatalSaved f bad
  (x.writeDump f (e == .whole) s.canHandOver
    (if e = .whole then x.dumpSections w else (x.dumpSections w).take n)).drainEvents

theorem State.fatalSequence_eq (s : State) (f : Fatal) (e : DumpEnd) (w : List (Nat × List Byte)) (n : Nat) (bad : List Nat) :
    s.fatalSequence f e w n bad = if e = .cut then (s.fatalDumped f e w n bad).enterSave
      else (s.fatalDumped f e w n bad).beginReset (if f.kind = 4 then 0x03 else 0x04) := rfl

theorem State.enterSave_phase (s : State) : s.enterSave.power.phase = .save := rfl

theorem State.enterSave_start (s : State) : s.enterSave.power.start = s.power.start := rfl

/-- A fatal error that the hardware raises. -/
def Fatal.raisedKind (f : Fatal) : Bool := f.kind == 1 || f.kind == 2 || f.kind == 5

theorem exec_fatalError_off {s : State} (h : s.portsOff = true) (raised : Option Fatal) (e : DumpEnd)
    (w : List (Nat × List Byte)) (n : Nat) (bad : List Nat) : exec (.fatalError raised e w n bad) s = .next s := by
  show execFatalError raised e w n bad s = _
  unfold execFatalError
  dsimp only
  split
  · exact congrArg _ (if_pos h)
  · rfl

theorem exec_fatalError_signalled {s : State} {f : Fatal} (hoff : s.portsOff = false) (h : s.hlt.fatal = some f)
    (raised : Option Fatal) (e : DumpEnd) (w : List (Nat × List Byte)) (n : Nat) (bad : List Nat) :
    exec (.fatalError raised e w n bad) s = .next (s.fatalSequence f e w n bad) := by
  show execFatalError raised e w n bad s = _
  unfold execFatalError
  rw [h]
  exact congrArg _ (if_neg (by simp [hoff]))

theorem exec_fatalError_raised {s : State} (hoff : s.portsOff = false) (h : s.hlt.fatal = none)
    (raised : Option Fatal) (e : DumpEnd) (w : List (Nat × List Byte)) (n : Nat) (bad : List Nat) :
    exec (.fatalError raised e w n bad) s = .next (match raised.filter Fatal.raisedKind with
      | some f => s.fatalSequence f e w n bad
      | none => s) := by
  show execFatalError raised e w n bad s = _
  unfold execFatalError
  rw [h]
  dsimp only
  show Host.Outcome.next (match raised.filter Fatal.raisedKind with
    | some f => if s.portsOff then s else s.fatalSequence f e w n bad
    | none => s) = _
  rw [hoff]
  rfl

/-! ### The dump -/

/-- The fields that a dump shows. -/
def Dump.fields (d : Dump) (i : Nat) : List (FieldRef × Nat) :=
  [(F.HLT_DUMP_STAT.VALID i, 1), (F.HLT_DUMP_STAT.COMPLETE i, if d.complete then 1 else 0),
    (F.HLT_DUMP_STAT.FIRST i, if d.first then 1 else 0), (F.HLT_DUMP_STAT.SEQ i, d.seq)]

theorem dumpFields_apart : ∀ i < 4, fieldsApart [F.HLT_DUMP_STAT.VALID i, F.HLT_DUMP_STAT.COMPLETE i,
    F.HLT_DUMP_STAT.FIRST i, F.HLT_DUMP_STAT.SEQ i] = true := by decide +kernel

theorem State.showDump_of_find {s : State} {i : Nat} {d : Dump} (h : Map.find s.hlt.dumps i = some d) :
    s.showDump i = { s with regs := s.regs.setFields (d.fields i) } := by
  rw [State.showDump, h]
  simp only [Dump.fields, RegFile.setFields_cons, RegFile.setFields_nil, RegFile.flag_eq, if_true]

/-- The dump that is written (R438, R439). -/
def State.dumpOf (s : State) (f : Fatal) (complete handed : Bool) (l : List (Nat × List Byte)) : Dump := {
  complete := complete, first := s.hlt.dumpFirst && s.hlt.dumps.isEmpty, handed := handed, noCkpt := f.kind == 2, fatal := f
  seq := s.hlt.dumpSeq + 1, pace := s.now, deviceTime := if s.fld F.CLK_QUAL.QUALITY = 3 then 0 else s.timeMs
  opSeconds := s.evt.opSeconds.toNat, pwrCycles := s.evt.pwrCycles.toNat, evtSeq := s.evt.seq.toNat
  warpSerial := s.fld F.SYS_WARP_ACTIVE.SERIAL, fwVersion := (s.regs.get R.SYS_FW_VERSION).toNat
  checkShort := (s.regs.get (R.LEG_CHECK 0)).toNat, identShort := (s.regs.get (R.KEY_IDENT 0)).toNat, sections := l }

/-- The state with a dump in its slot and fields shown. -/
def State.dumped (s : State) (i : Nat) (d : Dump) (l : List (FieldRef × Nat)) : State :=
  { s with
    regs := s.regs.setFields l
    hlt := { s.hlt with dumps := Map.set s.hlt.dumps i d, dumpSeq := s.hlt.dumpSeq + 1, dumpFirst := false } }

section
variable (s : State) (i : Nat) (d : Dump) (l : List (FieldRef × Nat))

theorem State.dumped_regs : (s.dumped i d l).regs = s.regs.setFields l := rfl

theorem State.dumped_hlt : (s.dumped i d l).hlt =
    { s.hlt with dumps := Map.set s.hlt.dumps i d, dumpSeq := s.hlt.dumpSeq + 1, dumpFirst := false } := rfl

theorem State.dumped_frame : s.dumped i d l = { s with regs := (s.dumped i d l).regs, hlt := (s.dumped i d l).hlt } := rfl

end

theorem State.writeDump_none {s : State} (h : s.hlt.dumpSlot = none) (f : Fatal) (complete handed : Bool)
    (l : List (Nat × List Byte)) : s.writeDump f complete handed l = s := by
  rw [State.writeDump, h]

theorem State.writeDump_some {s : State} {i : Nat} (h : s.hlt.dumpSlot = some i) (f : Fatal) (complete handed : Bool)
    (l : List (Nat × List Byte)) :
    s.writeDump f complete handed l =
      s.dumped i (s.dumpOf f complete handed l) ((s.dumpOf f complete handed l).fields i) := by
  rw [State.writeDump, h]
  exact State.showDump_of_find (Map.find_set_same ..)

/-- The lowest empty slot takes the dump (R439). -/
theorem HealthState.dumpSlot_of_empty {h : HealthState} {i : Nat} (hi : i < 4)
    (hb : ∀ j < i, (Map.find h.dumps j).isSome = true) (he : Map.find h.dumps i = none) : h.dumpSlot = some i := by
  have hf : (List.range 4).find? (fun k => (Map.find h.dumps k).isNone) = some i := by
    rw [List.find?_range_eq_some]
    exact ⟨by simp [he], List.mem_range.mpr hi, fun j hj => by simp [hb j hj]⟩
  rw [HealthState.dumpSlot, hf]

/-- Settles O59: each operation is its branch, and the sequence is the chain of its steps. -/
theorem fatalErrorsRunTheirSequence : Obligations.FatalErrorsRunTheirSequence := by
  unfold Obligations.FatalErrorsRunTheirSequence
  refine ⟨fun s hs => ⟨fun h => ?noBite, fun hw hoff hb => ?bite⟩,
    fun bad s => ⟨fun h => ?none, fun p hp => ⟨fun h => ?waits, fun h hoff => ?hard⟩, fun hrun c => ?cut⟩,
    fun raised e w n bad s => ⟨fun h => ?idle, fun f hoff hf => exec_fatalError_signalled hoff hf raised e w n bad,
      fun f hoff hf hr hk => ?raised⟩,
    fun f e w n bad s hs => ?sequence,
    fun f whole handed l s hs => ⟨fun h => State.writeDump_none h f whole handed l, fun i h hi => ?dump⟩,
    fun s h => ?drained, fun h i hb he hi => HealthState.dumpSlot_of_empty hi hb he⟩
  case noBite =>
    refine if_neg fun ⟨hw, hoff, hb⟩ => ?_
    rcases h with h | h | h
    · omega
    · exact hoff h
    · simp [hb] at h
  case bite =>
    refine ⟨_, exec_watchdogBite hw hoff hb, ?_, ?_, s.bitten_hlt _,
      ((OnlyRegs.refl _ s).bump (f := F.HLT_WDOG.BITES) 1 (.head _)).of_regs (s.bitten_regs _), s.bitten_frame _⟩
    · rw [State.fld_eq, State.bitten_regs]
      exact State.fld_bump_same 1 hs wdogBites_ok
    · rw [State.fld_eq, State.bitten_regs]
      exact State.fld_bump_other 1 hs wdogBites_ok wdogFields_apart.1 wdogFields_apart.2
  case none =>
    show execWatchdogHardReset bad s = _
    unfold execWatchdogHardReset
    rw [h]
  case waits =>
    refine (exec_watchdogHardReset_of_bite hp).trans (congrArg _ (if_neg fun ⟨hle, hoff⟩ => ?_))
    rcases h with h | h
    · omega
    · exact hoff h
  case hard => exact (exec_watchdogHardReset_of_bite hp).trans (congrArg _ (if_pos ⟨h, by simp [hoff]⟩))
  case cut => exact congrArg (fun t : State => t.beginReset c) (if_pos hrun)
  case idle =>
    rcases h with h | ⟨hf, hk⟩
    · exact exec_fatalError_off h raised e w n bad
    · cases hoff : s.portsOff with
      | true => exact exec_fatalError_off hoff raised e w n bad
      | false =>
        have hnone : raised.filter Fatal.raisedKind = none := by
          cases raised with
          | none => rfl
          | some f => simp [Option.filter, Fatal.raisedKind, hk f rfl]
        rw [exec_fatalError_raised hoff hf, hnone]
  case raised =>
    have hsome : raised.filter Fatal.raisedKind = some f := by simp [hr, Option.filter, Fatal.raisedKind, hk, or_assoc]
    rw [exec_fatalError_raised hoff hf, hsome]
  case sequence =>
    have hfld {g : FieldRef} {v : Nat} (hg : (g, v) ∈ f.fields) := 
      State.fld_of_setFields (s.fatalRecorded_regs f) hs fatalFields_apart rfl hg
    refine ⟨_, s.fatalRecorded f, _, s.fatalSaved f bad, s.fatalDumped f e w n bad, s.fatalSequence_eq f e w n bad,
      hfld (.head _), (hfld (.tail _ (.head _))).trans (Nat.mod_eq_of_lt ?lane), hfld (.tail _ (.tail _ (.head _))),
      hfld (.tail _ (.tail _ (.tail _ (.head _)))), ?only, ?frame, rfl, fun hk => if_pos hk, fun hk => if_neg hk, rfl,
      fun he => if_neg he, fun he => ⟨if_pos he, ?phase, ?start⟩⟩
    case lane =>
      show _ < 2 ^ 4
      split
      · omega
      · decide
    case only =>
      exact State.onlyRegs_of_setFields (s.fatalRecorded_regs f) (by simp [Fatal.fields, F.HLT_FATAL_LAST.KIND,
        F.HLT_FATAL_LAST.LANE, F.HLT_FATAL_LAST.ENGINE, F.HLT_FATAL_LAST.CAUSE])
    case frame =>
      exact State.fatalRecorded_eq hs f
    case phase => rw [if_pos he, State.enterSave_phase]
    case start => rw [if_pos he, State.enterSave_start]
  case dump =>
    have hregs := s.dumped_regs i (s.dumpOf f whole handed l) ((s.dumpOf f whole handed l).fields i)
    refine ⟨_, s.dumpOf f whole handed l, State.writeDump_some h f whole handed l, State.dumped_hlt .., rfl, rfl, rfl, rfl,
      beq_iff_eq, rfl, rfl, rfl, State.fld_of_setFields hregs hs (dumpFields_apart i hi) rfl (.head _), ?complete, ?only,
          State.dumped_frame ..⟩
    case complete =>
      refine (State.fld_of_setFields hregs hs (dumpFields_apart i hi) rfl (.tail _ (.head _))).trans ?_
      cases whole <;> rfl
    case only =>
      exact State.onlyRegs_of_setFields hregs (by simp [Dump.fields, F.HLT_DUMP_STAT.VALID,
        F.HLT_DUMP_STAT.COMPLETE, F.HLT_DUMP_STAT.FIRST, F.HLT_DUMP_STAT.SEQ])
  case drained =>
    rw [State.drainEvents, h]
    exact congrArg (fun q => ({ s with evt := { s.evt with queue := q } } : State)) h.symm

end Sys2Proof.Machine

/-! What the steps of SAVE leave alone: the sealed work of a final checkpoint, the saved queues, the journal and the handover
are further steps of `StartKeeps`, under which the phase of the supplies stands (R414). -/

namespace Sys2Proof.Machine

set_option Elab.async false

section
variable {s0 s : State} (h : StartKeeps false s0 s)
include h

/-- An update of the metering of a cut. -/
theorem StartKeeps.restMetering {regs : RegFile} {qty : QtyState} {tar : TarState} :
    StartKeeps false s0 { s with regs := regs, qty := qty, tar := tar } :=
  h.trans ⟨rfl, rfl, rfl, rfl, fun _ => id, rfl, rfl, rfl, rfl, rfl, id, rfl, nofun⟩

/-! ### Metering of the pace that ended (R121, R122) -/

theorem StartKeeps.feedPulses (p : QtyPlan) (n : Nat) (fine : List Nat) : StartKeeps false s0 (s.feedPulses p n fine) := by
  refine h.foldl _ fun u j hu => ?_
  split
  · exact hu
  · exact StartKeeps.ite (hu.restCold.postIf _ _ _) hu

theorem StartKeeps.meterPoint (plan : QtyPlan) (n : Nat) : StartKeeps false s0 (s.meterPoint plan n) := by
  unfold State.meterPoint
  split
  · exact h
  · exact (h.restCold.showPoint _ _ _).feedPulses _ _ _

theorem StartKeeps.legalMetPace (plan : QtyPlan) : StartKeeps false s0 (s.legalMetPace plan) := by
  have hdriven : StartKeeps false s0 { s with qty := { s.qty with driven := true } } := h.restCold
  exact StartKeeps.restCold ((h.flag _ _).ite ((hdriven.flag _ _).foldl _ fun _ n hu => hu.meterPoint plan n))

/-! ### Intervals, checkpoints and registration (R110 to R117, R192) -/

theorem StartKeeps.closeInterval (e : PointEntry) (n : Nat) (flags : BitVec 16) (start finish : Nat) :
    StartKeeps false s0 (s.closeInterval e n flags start finish) := StartKeeps.export_ h.restCold _

theorem StartKeeps.intervalDue (plan : QtyPlan) (n : Nat) : StartKeeps false s0 (State.intervalDue plan s n) := by
  unfold State.intervalDue
  split
  · exact h
  · exact (h.closeInterval _ _ _ _ _).ite h

theorem StartKeeps.partFailed (seq : Nat) (bad : Bool) (part : Nat) : StartKeeps false s0 (s.partFailed seq bad part) :=
  (StartKeeps.post h.rest _ _).ite h

theorem StartKeeps.putCheckpoint (final : Bool) (bad : List Nat) : StartKeeps false s0 (s.putCheckpoint final bad) :=
  h.restMetering

theorem StartKeeps.writeCheckpoint (final : Bool) (bad : List Nat) : StartKeeps false s0 (s.writeCheckpoint final bad) := by
  rw [State.writeCheckpoint_eq]
  exact (h.putCheckpoint final bad).foldl _ fun _ _ hu => hu.partFailed _ _ _

theorem StartKeeps.registerPace (plan : QtyPlan) (n : Nat) : StartKeeps false s0 (State.registerPace plan s n) := by
  unfold State.registerPace
  split
  · exact h
  · exact (h.setTar n _).restMetering

theorem StartKeeps.toTar (plan : QtyPlan) (final : Bool) (bad : List Nat) : StartKeeps false s0 (s.toTar plan final bad) := by
  have hclosed : StartKeeps false s0 (s.intervalsDue s.qtyPlan) := h.foldl _ fun _ n hu => hu.intervalDue _ n
  exact StartKeeps.ite (((hclosed.writeCheckpoint final bad).ite hclosed).foldl _ fun _ n hu =>
    hu.registerPace plan n).restCold h

/-! ### Boundaries, rates and the record (R177 to R195) -/

theorem StartKeeps.demandClose (n t : Nat) : StartKeeps false s0 (s.demandClose n t) := by
  unfold State.demandClose
  dsimp only
  split
  · exact h.setTar n _
  · exact (h.setTar n _).rest

theorem StartKeeps.activateCal (c t : Nat) : StartKeeps false s0 (s.activateCal c t) := by
  unfold State.activateCal
  dsimp only
  split
  · exact h
  · next new _ =>
    have hposted : StartKeeps false s0 ((s.setCal c (s.storedCal c).activate).post Ev.TAR_ACTIVATED [b8 c, b8 (calGen new)]) :=
      StartKeeps.post h.rest _ _
    exact ((hposted.rest.foldl _ fun _ n hu => hu.setTar n _).legalLog _ _ _).ite hposted

theorem StartKeeps.billClose (n b : Nat) (catchUp : Bool) : StartKeeps false s0 (s.billClose n b catchUp) := by
  unfold State.billClose
  split
  · exact StartKeeps.legalLog (StartKeeps.export_ (h.setTar n _).rest _) _ _ _
  · exact h

theorem StartKeeps.performBoundary (catchUp : Bool) (x : TarBoundary) : StartKeeps false s0 (s.performBoundary catchUp x) := by
  unfold State.performBoundary
  split
  · exact h.demandClose _ _
  · exact h.activateCal _ _
  · exact h.billClose _ _ _

omit h in
theorem StartKeeps.performBoundaries (catchUp : Bool) (t n : Nat) :
    ∀ {s : State}, StartKeeps false s0 s → StartKeeps false s0 (State.performBoundaries catchUp t n s) := by
  induction n with
  | zero => exact id
  | succ n ih =>
    intro s h
    unfold State.performBoundaries
    split
    · exact h
    · exact ih (h.performBoundary catchUp _)

theorem StartKeeps.tarRestarted : StartKeeps false s0 s.tarRestarted := by
  have hmarked : StartKeeps false s0 s.markCuts := by
    refine StartKeeps.foldl _ (h.foldl _ fun _ n hu => (hu.setTar n _).ite hu) fun u n hu => ?_
    unfold State.markCut
    split
    · exact hu.setTar n _
    · exact hu
  exact ((StartKeeps.performBoundaries _ _ _ hmarked).ite hmarked).rest

theorem StartKeeps.selectPoint (n : Nat) : StartKeeps false s0 (s.selectPoint n) := by
  unfold State.selectPoint
  split
  · exact h
  · exact (h.setTar n _).postIf _ _ _

theorem StartKeeps.selectRates : StartKeeps false s0 s.selectRates :=
  StartKeeps.showTarStat (h.foldl _ fun _ n hu => hu.selectPoint n)

theorem StartKeeps.writeRing : StartKeeps false s0 s.writeRing :=
  h.rest.foldl _ fun _ _ hu => StartKeeps.export_ hu.rest _

theorem StartKeeps.putTarRecord (bad : List Nat) : StartKeeps false s0 (s.putTarRecord bad) := h.rest

theorem StartKeeps.writeTarRecord (bad : List Nat) : StartKeeps false s0 (s.writeTarRecord bad) := by
  have hjudged : StartKeeps false s0 (s.judgeTarRecord bad) := ((h.putTarRecord bad).partFailed _ _ _).partFailed _ _ _
  rw [State.writeTarRecord_eq]
  exact hjudged.ite hjudged.writeRing

theorem StartKeeps.tariffSteps : StartKeeps false s0 s.tariffSteps := by
  have hdone := StartKeeps.performBoundaries false s.timeSec s.boundaryBound h
  unfold State.tariffSteps
  generalize s.performBoundaries false s.timeSec s.boundaryBound = t at hdone
  exact StartKeeps.selectRates hdone.rest

theorem StartKeeps.checkpointIf (due : Bool) (bad : List Nat) : StartKeeps false s0 (s.checkpointIf due bad) :=
  (h.writeCheckpoint _ _).ite h

theorem StartKeeps.recordIfDue (bad : List Nat) : StartKeeps false s0 (s.recordIfDue bad) := (h.writeTarRecord _).ite h

theorem StartKeeps.restartSteps : StartKeeps false s0 s.restartSteps := h.tarRestarted.ite h

theorem StartKeeps.finishTar (bad : List Nat) : StartKeeps false s0 (s.finishTar bad) := by
  by_cases ht : s.qty.stage = .tar
  · rw [State.finishTar_of_tar ht]
    exact ((h.restartSteps.tariffSteps.checkpointIf _ _).recordIfDue bad).restCold
  · have hidle : s.finishTar bad = s := if_neg ht
    rw [hidle]
    exact h

theorem StartKeeps.finalCheckpoint (bad : List Nat) : StartKeeps false s0 (s.finalCheckpoint bad) := by
  have hdone : StartKeeps false s0 (s.finishTar bad) := h.finishTar bad
  exact h.ite (StartKeeps.finishTar (StartKeeps.toTar (hdone.ite (hdone.legalMetPace _).restCold) _ _ _) _)

/-! ### Queues, storage and the handover (R406, R414) -/

theorem StartKeeps.saveQueues : StartKeeps false s0 s.saveQueues := h.restCold

theorem StartKeeps.openSb {t : State} {p : StoragePlan} {slc : Bool} {n : Nat} (ht : s.openSb p slc = some (t, n)) :
    StartKeeps false s0 t := by
  unfold State.openSb at ht
  dsimp only at ht
  split at ht
  · cases ht
  · cases ht
    exact StartKeeps.judgeShare h.rest

theorem StartKeeps.roomIn {t : State} {p : StoragePlan} {slc : Bool} {n : Nat} (ht : s.roomIn p slc = some (t, n)) :
    StartKeeps false s0 t := by
  unfold State.roomIn at ht
  split at ht
  · split at ht
    · cases ht
      exact h
    · exact (h.closeSb _).openSb ht
  · exact h.openSb ht

theorem StartKeeps.program {t : State} {p : StoragePlan} {slc : Bool} {page : NandPage} {item : Option (Nat × Nat)}
    {fold : Bool} (ht : s.program p slc page item fold = some t) : StartKeeps false s0 t := by
  unfold State.program at ht
  split at ht
  · cases ht
  · next s1 n hroom =>
    split at ht
    · cases ht
    · cases ht
      exact (h.roomIn hroom).rest

theorem StartKeeps.saveUnits : StartKeeps false s0 s.saveUnits := by
  unfold State.saveUnits
  split
  · refine StartKeeps.foldl _ (h.withPower _ rfl rfl rfl id) fun u e hu => ?_
    dsimp only
    split
    · next hp => exact (hu.program hp).withPower _ rfl rfl rfl id
    · exact hu
  · exact h

theorem StartKeeps.handoverPair : StartKeeps false s0 s.handoverPair :=
  StartKeeps.setF (StartKeeps.rest (StartKeeps.ite (h.record _).rest (h.record _))) _ _

theorem StartKeeps.dropLinks : StartKeeps false s0 s.dropLinks := h.rest.foldl _ fun _ _ hu => hu.send _

theorem StartKeeps.saveStep (r : SaveRun) (k : Nat) : StartKeeps false s0 (State.saveStep r s k) := by
  have hbegun := (h.stopPulses.dropLinks).post Ev.SAVE_BEGIN [b8 s.now, b8 (s.fld F.HLT_STAT.LEVEL)]
  unfold State.saveStep
  dsimp only
  exact StartKeeps.ite (hbegun.handoverPair.ite hbegun) ((h.finalCheckpoint _).ite (h.saveQueues.saveUnits.ite
    (StartKeeps.ite (h.commitJournal _) h)))

theorem StartKeeps.saveSteps (r : SaveRun) (l : List Nat) : StartKeeps false s0 (l.foldl (State.saveStep r) s) :=
  h.foldl _ fun _ k hu => hu.saveStep r k

end

end Sys2Proof.Machine

/-! Supplies, SAVE and resets (R409 to R434). -/

namespace Sys2Proof.Machine

set_option Elab.async false

/-! ### The supplies (R410, R412) -/

/-- What the registers show as an input changes. -/
def supplyFields (v : Levels) (a b : Bool) (src : Nat) : List (FieldRef × Nat) :=
  levelFields v ++ [(F.PWR_STAT.VIN_A_OK, if a then 1 else 0), (F.PWR_STAT.VIN_B_OK, if b then 1 else 0),
    (F.PWR_STAT.SRC, src)]

/-- The fields of `supplyFields`, after the switch count. -/
def supplyRefs : List FieldRef :=
  [F.PWR_VIN.VIN_A_MV, F.PWR_VIN.VIN_B_MV, F.PWR_VSYS.VSYS_MV, F.PWR_VSYS.VSTORE_10MV, F.PWR_STAT.HOLDUP_OK, F.PWR_VBAT.MV,
    F.PWR_STAT.VIN_A_OK, F.PWR_STAT.VIN_B_OK, F.PWR_STAT.SRC]

theorem supplyRefs_apart : fieldsApart supplyRefs = true ∧ fieldsApart (F.PWR_SWITCH_CNT.COUNT :: supplyRefs) = true ∧
    ∀ f ∈ supplyRefs, f.ok = true ∧ f.apart F.PWR_SWITCH_CNT.COUNT = true := by decide +kernel

theorem ok_switchCnt : F.PWR_SWITCH_CNT.COUNT.ok = true := by decide +kernel

theorem supplyFields_addr {v : Levels} {a b : Bool} {src : Nat} :
    ∀ e ∈ supplyFields v a b src, e.1.addr ∈ [R.PWR_STAT, R.PWR_VIN, R.PWR_VSYS, R.PWR_VBAT, R.PWR_SWITCH_CNT] := by
  have hrefs : ∀ f ∈ supplyRefs, f.addr ∈ [R.PWR_STAT, R.PWR_VIN, R.PWR_VSYS, R.PWR_VBAT, R.PWR_SWITCH_CNT] := by decide
  exact fun e he => hrefs _ (List.mem_map_of_mem (f := Prod.fst) he)

theorem supplyFields_flags {v : Levels} {a b : Bool} {src : Nat} : (F.PWR_STAT.VIN_A_OK, if a then 1 else 0) ∈ supplyFields v a b src ∧
    (F.PWR_STAT.VIN_B_OK, if b then 1 else 0) ∈ supplyFields v a b src ∧ (F.PWR_STAT.SRC, src) ∈ supplyFields v a b src :=
  ⟨List.mem_append_right _ (.head _), List.mem_append_right _ (.tail _ (.head _)),
    List.mem_append_right _ (.tail _ (.tail _ (.head _)))⟩

theorem levelRefs_apart : fieldsApart (F.PWR_STAT.VIN_A_OK :: levelRefs) = true ∧
    fieldsApart (F.PWR_STAT.VIN_B_OK :: levelRefs) = true ∧ fieldsApart (F.PWR_STAT.SRC :: levelRefs) = true := by
  decide +kernel

/-- The inputs that are good, and since which pace, once one changes at `now` (R410). -/
def goodAfter (l : List (Supply × Nat)) (x : Supply) (good : Bool) (now : Nat) : List (Supply × Nat) :=
  let held := l.filter fun g => g.1 == x
  if good then (l.filter fun g => g.1 != x) ++ (if held.isEmpty then [(x, now)] else held) else l.filter fun g => g.1 != x

theorem mem_goodAfter (l : List (Supply × Nat)) (x : Supply) (good : Bool) (now : Nat) (y : Supply) (p : Nat) :
    (y, p) ∈ goodAfter l x good now ↔ (y, p) ∈ l ∧ (y ≠ x ∨ good = true) ∨
      y = x ∧ p = now ∧ good = true ∧ ∀ q, (x, q) ∉ l := by
  have hnone : (l.filter fun g => g.1 == x).isEmpty = true ↔ ∀ q, (x, q) ∉ l := by
    simp only [List.isEmpty_iff, List.filter_eq_nil_iff, beq_iff_eq, Prod.forall]
    exact ⟨fun h q hq => h x q hq rfl, fun h z q hq hz => h q (hz ▸ hq)⟩
  unfold goodAfter
  cases good with
  | false => simp
  | true =>
    simp only [if_true, List.mem_append, List.mem_filter, bne_iff_ne]
    by_cases he : (l.filter fun g => g.1 == x).isEmpty = true
    · have hno := hnone.mp he
      rw [if_pos he, List.mem_singleton, Prod.mk.injEq]
      constructor
      · rintro (⟨hm, -⟩ | ⟨rfl, rfl⟩)
        · exact .inl ⟨hm, .inr trivial⟩
        · exact .inr ⟨rfl, rfl, trivial, hno⟩
      · rintro (⟨hm, -⟩ | ⟨rfl, rfl, -, -⟩)
        · exact .inl ⟨hm, fun e => hno p (e ▸ hm)⟩
        · exact .inr ⟨rfl, rfl⟩
    · rw [if_neg he, List.mem_filter, beq_iff_eq]
      have hsome := fun h => he (hnone.mpr h)
      constructor
      · rintro (⟨hm, -⟩ | ⟨hm, -⟩) <;> exact .inl ⟨hm, .inr trivial⟩
      · rintro (⟨hm, -⟩ | ⟨-, -, -, h⟩)
        · by_cases hy : y = x
          · exact .inr ⟨hm, hy⟩
          · exact .inl ⟨hm, hy⟩
        · exact absurd h hsome

/-- The state as an input changes, with the fields `l` shown. -/
def State.supplied (s : State) (l : List (FieldRef × Nat)) (x : Supply) (good stop : Bool) : State :=
  { s with
    regs := s.regs.setFields l
    power := { s.power with
      holdUp := s.power.holdUp && !stop, cutDue := s.power.cutDue && !stop
      goodSince := goodAfter s.power.goodSince x good s.now } }

section
variable (s : State) (l : List (FieldRef × Nat)) (x : Supply) (good stop : Bool)

theorem State.supplied_regs : (s.supplied l x good stop).regs = s.regs.setFields l := rfl

theorem State.supplied_power : (s.supplied l x good stop).power = { s.power with
    holdUp := s.power.holdUp && !stop, cutDue := s.power.cutDue && !stop
    goodSince := (s.supplied l x good stop).power.goodSince } := rfl

theorem State.supplied_goodSince :
    (s.supplied l x good stop).power.goodSince = goodAfter s.power.goodSince x good s.now := rfl

end

/-- An input that takes over from the other is counted and recorded (R410). -/
def State.switchedTo (s : State) (on : Bool) (f : FieldRef) (src : Nat) : State :=
  if on then (s.bump f).post Ev.SUPPLY_SWITCH [b8 src] else s

theorem RegFile.setFields_append (m : RegFile) (l k : List (FieldRef × Nat)) :
    m.setFields (l ++ k) = (m.setFields l).setFields k := List.foldl_append

/-- What `supply` does, with its readings of the inputs named. -/
theorem State.supply_eq (s : State) (x : Supply) (good a b stop : Bool) (src : Nat)
    (ha : a = if x = .vinA then good else s.fld F.PWR_STAT.VIN_A_OK == 1)
    (hb : b = if x = .vinB then good else s.fld F.PWR_STAT.VIN_B_OK == 1)
    (hstop : stop = ((a || b) && !s.portsOff)) (hsrc : src = if s.portsOff then 0 else sourceOf a b) :
    s.supply x good = (s.supplied [(F.PWR_STAT.VIN_A_OK, if a then 1 else 0), (F.PWR_STAT.VIN_B_OK, if b then 1 else 0),
      (F.PWR_STAT.SRC, src)] x good stop).switchedTo
        (decide (s.fld F.PWR_STAT.SRC ≠ 0 ∧ src ≠ 0 ∧ s.fld F.PWR_STAT.SRC ≠ src)) F.PWR_SWITCH_CNT.COUNT src := by
  subst hsrc hstop hb ha
  simp only [State.supply, State.supplied, State.switchedTo, goodAfter, RegFile.setFields_cons, RegFile.setFields_nil,
    ← RegFile.flag_eq, decide_eq_true_eq]

theorem State.fld_showLevels (hs : Inv s) (v : Levels) {f : FieldRef} (hf : fieldsApart (f :: levelRefs) = true) :
    (s.showLevels v).fld f = s.fld f := State.fld_of_setFields_other (s.regs_showLevels v) hs hf rfl

theorem State.supplied_switched_frame (s : State) (l : List (FieldRef × Nat)) (x : Supply) (good stop on : Bool) (f : FieldRef)
    (src : Nat) : (s.supplied l x good stop).switchedTo on f src = { s with
      regs := ((s.supplied l x good stop).switchedTo on f src).regs
      power := ((s.supplied l x good stop).switchedTo on f src).power
      evt := ((s.supplied l x good stop).switchedTo on f src).evt } := by
  cases on with
  | false => rfl
  | true => rfl

theorem State.supplied_after (s : State) (k l : List (FieldRef × Nat)) (x : Supply) (good stop : Bool) :
    ({ s with regs := s.regs.setFields k } : State).supplied l x good stop = s.supplied (k ++ l) x good stop := by
  rw [State.supplied, State.supplied, RegFile.setFields_append]
  rfl

theorem State.portsOff_withRegs (s : State) (r : RegFile) : ({ s with regs := r } : State).portsOff = s.portsOff := rfl

/-- What a change of an input does. -/
theorem exec_supplyChange {s : State} (hs : Inv s) (x : Supply) (good a b stop : Bool) (v : Levels) (src : Nat)
    (ha : a = if x = .vinA then good else s.fld F.PWR_STAT.VIN_A_OK == 1)
    (hb : b = if x = .vinB then good else s.fld F.PWR_STAT.VIN_B_OK == 1)
    (hstop : stop = ((a || b) && !s.portsOff)) (hsrc : src = if s.portsOff then 0 else sourceOf a b) :
    exec (.supplyChange x good v) s = .next ((s.supplied (supplyFields v a b src) x good stop).switchedTo
      (decide (s.fld F.PWR_STAT.SRC ≠ 0 ∧ src ≠ 0 ∧ s.fld F.PWR_STAT.SRC ≠ src)) F.PWR_SWITCH_CNT.COUNT src) := by
  obtain ⟨hA, hB, hS⟩ := levelRefs_apart
  have hoff : (s.showLevels v).portsOff = s.portsOff := by rw [State.showLevels_eq, State.portsOff_withRegs]
  rw [← State.fld_showLevels hs v hA] at ha
  rw [← State.fld_showLevels hs v hB] at hb
  rw [← hoff] at hstop hsrc
  have h := State.supply_eq (s.showLevels v) x good a b stop src ha hb hstop hsrc
  rw [State.fld_showLevels hs v hS, State.showLevels_eq, State.supplied_after] at h
  refine congrArg Host.Outcome.next (Eq.trans ?_ h)
  rw [← State.showLevels_eq]

section
variable (s : State) (f : FieldRef) (src : Nat)

theorem State.switchedTo_fld (hs : Inv s) (on : Bool) {g : FieldRef} (hf : f.ok = true) (hg : g.ok = true)
    (hd : g.apart f = true) : (s.switchedTo on f src).fld g = s.fld g := by
  cases on with
  | false => rfl
  | true => exact State.fld_bump_other 1 hs hf hg hd

theorem State.switchedTo_count (hs : Inv s) (on : Bool) (hf : f.ok = true) : (s.switchedTo on f src).fld f =
    if on then min (s.fld f + 1) (2 ^ (f.hi - f.lo + 1) - 1) else s.fld f := by
  cases on with
  | false => rfl
  | true => exact State.fld_bump_same 1 hs hf

theorem State.switchedTo_only {s0 : State} {L : List Nat} (h : OnlyRegs L s0 s) (on : Bool) (hf : f.addr ∈ L) :
    OnlyRegs L s0 (s.switchedTo on f src) := by
  cases on with
  | false => exact h
  | true => exact (h.bump 1 hf).of_regs rfl

theorem State.switchedTo_power (on : Bool) : (s.switchedTo on f src).power = s.power := by
  cases on with
  | false => rfl
  | true => rfl

end

/-! ### The converter and the cut (R412, R414) -/

/-- The state as the converter starts, with the fields `l` shown. -/
def State.converting (s : State) (l : List (FieldRef × Nat)) : State :=
  { s with regs := s.regs.setFields l, power := { s.power with holdUp := true, cutDue := true } }

/-- What the registers show as the converter starts. -/
def holdupFields (v : Levels) : List (FieldRef × Nat) := levelFields v ++ [(F.HLT_STAT.CAP_TEST, 0)]

theorem holdupRefs_apart : fieldsApart (levelRefs ++ [F.HLT_STAT.CAP_TEST]) = true ∧
    fieldsApart (F.PWR_STAT.SRC :: (levelRefs ++ [F.HLT_STAT.CAP_TEST])) = true := by decide +kernel

theorem holdupFields_addr {v : Levels} :
    ∀ e ∈ holdupFields v, e.1.addr ∈ [R.PWR_STAT, R.PWR_VIN, R.PWR_VSYS, R.PWR_VBAT, R.HLT_STAT] := by
  have hrefs : ∀ f ∈ levelRefs ++ [F.HLT_STAT.CAP_TEST],
      f.addr ∈ [R.PWR_STAT, R.PWR_VIN, R.PWR_VSYS, R.PWR_VBAT, R.HLT_STAT] := by decide
  exact fun e he => hrefs _ (List.mem_map_of_mem (f := Prod.fst) he)

theorem State.converting_regs (s : State) (l : List (FieldRef × Nat)) : (s.converting l).regs = s.regs.setFields l := rfl

theorem State.converting_frame (s : State) (l : List (FieldRef × Nat)) :
    s.converting l = { s with regs := (s.converting l).regs, power := (s.converting l).power } := rfl

theorem exec_holdupStart {s : State} {v : Levels} (ha : s.fld F.PWR_STAT.VIN_A_OK = 0) (hb : s.fld F.PWR_STAT.VIN_B_OK = 0)
    (hv : v.vsys < s.fld F.PWR_WARN.MV) (hoff : s.portsOff = false) :
    exec (.holdupStart v) s = .next (s.converting (holdupFields v)) := by
  refine congrArg Host.Outcome.next ((if_pos ⟨ha, hb, hv, by simp [hoff]⟩).trans ?_)
  simp only [State.flag, State.showLevels_eq, State.converting, holdupFields, RegFile.setFields_append,
    RegFile.setFields_cons, RegFile.setFields_nil, RegFile.flag_eq, Bool.false_eq_true, if_false]

/-- The state as SAVE begins, with a field cleared. -/
def State.saving (s : State) (f : FieldRef) : State :=
  let d : SaveDir := ⟨s.now, s.timeMs, 0, [], 0, 0, 0, false⟩
  let s1 := s.markRole
  { s1 with
    stage := {}
    regs := s1.regs.setF f 0
    power := { s1.power with phase := .save, cutDue := false, due := none, dir := some d, dirNew := true } }

theorem State.enterSave_eq (s : State) : s.enterSave = s.saving F.PWR_STAT.SRC := rfl

theorem State.saving_regs (s : State) (f : FieldRef) : (s.saving f).regs = s.regs.setF f 0 := rfl

theorem State.saving_frame (s : State) (f : FieldRef) : s.saving f = { s with
    regs := (s.saving f).regs, power := (s.saving f).power, stage := (s.saving f).stage, pair := (s.saving f).pair } := rfl

theorem ok_src : F.PWR_STAT.SRC.ok = true := by decide +kernel

/-! ### SAVE (R414, R415, R433) -/

theorem saveSteps_from_two {n : Nat} (h : 2 ≤ n) : saveSteps n = ([1, 2, 3, 7], 5) := by
  match n, h with
  | n + 2, _ => rfl

/-- Every step is numbered from 1. -/
theorem saveSteps_pos (n : Nat) : ∀ k ∈ (saveSteps n).1, 1 ≤ k := by
  match n with
  | 0 => decide
  | 1 => decide
  | n + 2 => rw [saveSteps_from_two (by omega)]; decide

/-- A step that is marked done is one that was, or one of those that ran. -/
theorem getLsbD_steps (l : List Nat) (b : BitVec 8) {i : Nat} (hi : i < 8) :
    (l.foldl (fun (b : BitVec 8) k => b ||| BitVec.ofNat 8 (2 ^ (k - 1))) b).getLsbD i =
      (b.getLsbD i || l.any fun k => k - 1 == i) := by
  induction l generalizing b with
  | nil => simp
  | cons k l ih =>
    rw [List.foldl_cons, ih, BitVec.getLsbD_or, BitVec.getLsbD_ofNat, Nat.testBit_two_pow, List.any_cons, Bool.or_assoc]
    simp [hi, beq_eq_decide]

/-- The steps that SAVE runs now (R414, R433). -/
def SaveDir.stepsLeft (d : SaveDir) (r : SaveRun) (plan : List Nat × Nat) : List Nat :=
  if plan.2 < r.paces then [] else plan.1.filter fun k => decide (k ≤ r.upto) && !d.steps.getLsbD (k - 1)

/-- The directory once they have run. -/
def SaveDir.afterRun (d : SaveDir) (r : SaveRun) (s : State) : SaveDir :=
  let go := d.stepsLeft r (saveSteps (s.fld F.HLT_STAT.LEVEL))
  let s1 := go.foldl (State.saveStep r) s
  d.after r go s1.sto.durable.seq s1.dirUnits

/-- The state once they have run. -/
def State.afterSave (s : State) (r : SaveRun) (d : SaveDir) : State :=
  let s1 := (d.stepsLeft r (saveSteps (s.fld F.HLT_STAT.LEVEL))).foldl (State.saveStep r) s
  { s1 with power := { s1.power with dir := some (d.afterRun r s) } }

theorem exec_save {r : SaveRun} {d : SaveDir} {s : State} (hp : s.power.phase = .save) (hd : s.power.dir = some d) :
    exec (.save r) s = .next (if (d.afterRun r s).complete ∨ (saveSteps (s.fld F.HLT_STAT.LEVEL)).2 < r.paces
      then (s.afterSave r d).railsOff else s.afterSave r d) := by
  show execSave r s = _
  unfold execSave
  rw [hp, hd]
  rfl

theorem State.afterSave_phase (s : State) (r : SaveRun) (d : SaveDir) : (s.afterSave r d).power.phase = s.power.phase :=
  (StartKeeps.saveSteps (StartKeeps.refl false s) r _).phase

theorem SaveDir.afterRun_step (d : SaveDir) (r : SaveRun) (s : State) {k : Nat} (h1 : 1 ≤ k) (h7 : k ≤ 7) :
    (d.afterRun r s).steps.getLsbD (k - 1) = (d.steps.getLsbD (k - 1) ||
      decide (r.paces ≤ (saveSteps (s.fld F.HLT_STAT.LEVEL)).2) &&
        (saveSteps (s.fld F.HLT_STAT.LEVEL)).1.contains k && decide (k ≤ r.upto)) := by
  refine (getLsbD_steps _ _ (by omega)).trans ?_
  have hpos := saveSteps_pos (s.fld F.HLT_STAT.LEVEL)
  generalize saveSteps (s.fld F.HLT_STAT.LEVEL) = plan at hpos
  cases hdone : d.steps.getLsbD (k - 1) with
  | true => rfl
  | false =>
    rw [Bool.false_or, Bool.false_or, Bool.eq_iff_iff, SaveDir.stepsLeft]
    simp only [List.any_eq_true, beq_iff_eq, Bool.and_eq_true, decide_eq_true_eq, List.contains_iff_mem]
    split
    · next h => simp; omega
    · next h =>
      simp only [List.mem_filter, Bool.and_eq_true, decide_eq_true_eq, Bool.not_eq_true']
      constructor
      · rintro ⟨j, ⟨hj, hle, -⟩, e⟩
        have hjk : j = k := by have := hpos j hj; omega
        exact ⟨⟨by omega, hjk ▸ hj⟩, hjk ▸ hle⟩
      · rintro ⟨⟨-, hk⟩, hle⟩
        exact ⟨k, ⟨hk, hle, hdone⟩, rfl⟩

/-! ### The first step of SAVE (R414) -/

/-- An output of lines that go inactive leaves what was sent before it, and touches nothing else. -/
theorem State.send_inside (s : State) {o : Output} (hi : o.inside = true) (hv : o.hostVisible = false) :
    ∃ l, s.send o = { s with out := s.out ++ l } := by
  rw [State.send_not_withheld (.inr hi) (.inl hv)]
  split
  · exact ⟨[], by rw [List.append_nil]⟩
  · exact ⟨[o], rfl⟩

/-- Lines of its own go inactive at once. -/
theorem State.send_own (s : State) {o : Output} (hi : o.inside = true) (hv : o.hostVisible = false) (hs : o.shared = false) :
    s.send o = { s with out := s.out ++ [o] } := by
  rw [State.send_not_withheld (.inr hi) (.inl hv), hs]
  rfl

theorem State.drives_out (l : List Nat) : ∀ s : State, ∃ k, l.foldl (fun t j => t.drive j false) s = { s with out := s.out ++ k } := by
  induction l with
  | nil => exact fun s => ⟨[], by rw [List.append_nil]; rfl⟩
  | cons j l ih =>
    intro s
    have hdrive : ∃ k, s.drive j false = { s with out := s.out ++ k } := by
      unfold State.drive
      split
      · exact s.send_inside rfl rfl
      · exact ⟨[], by rw [List.append_nil]⟩
    obtain ⟨k, hk⟩ := hdrive
    obtain ⟨m, hm⟩ := ih (s.drive j false)
    rw [hk] at hm
    exact ⟨k ++ m, by rw [List.foldl_cons, hk, hm, List.append_assoc]⟩

theorem State.sendOwn_out (l : List Output) (h : ∀ o ∈ l, o.inside = true ∧ o.hostVisible = false ∧ o.shared = false) :
    ∀ s : State, l.foldl State.send s = { s with out := s.out ++ l } := by
  induction l with
  | nil => exact fun s => by rw [List.append_nil]; rfl
  | cons o l ih =>
    intro s
    obtain ⟨hi, hv, hs⟩ := h o List.mem_cons_self
    rw [List.foldl_cons, s.send_own hi hv hs, ih fun o ho => h o (.tail _ ho)]
    simp

/-- The lines that go low with the ports (R414). -/
def lowLines : List Output := (List.range 2).map Output.radioLow ++ (List.range 4).map Output.plcLow

theorem State.dropLinks_eq (s : State) : s.dropLinks = { s with
    regs := (List.range 64).foldl (fun (r : RegFile) p => r.flag (F.PRT_ROLE.UP p) false) s.regs, out := s.out ++ lowLines } :=
  State.sendOwn_out lowLines (by decide) _

/-- Flags cleared one after another are fields written. -/
theorem RegFile.foldl_clear (f : Nat → FieldRef) (l : List Nat) : ∀ m : RegFile,
    l.foldl (fun r p => r.flag (f p) false) m = m.setFields (l.map fun p => (f p, 0)) := by
  induction l with
  | nil => exact fun m => (RegFile.setFields_nil m).symm
  | cons p l ih =>
    intro m
    rw [List.foldl_cons, ih, List.map_cons, RegFile.setFields_cons, RegFile.flag_eq]
    rfl

theorem upRefs_apart : fieldsApart ((List.range 64).map F.PRT_ROLE.UP) = true := by decide +kernel

/-- A field cleared with others of its kind reads 0. -/
theorem RegFile.fld_foldl_clear {m : RegFile} (hm : m.wf = true) {f : Nat → FieldRef} {l : List Nat}
    (hl : fieldsApart (l.map f) = true) {p : Nat} (hp : p ∈ l) : (l.foldl (fun r p => r.flag (f p) false) m).fld (f p) = 0 := by
  rw [RegFile.foldl_clear]
  refine (RegFile.fld_setFields_of_apart (v := 0) (l.map f) hm hl ?_ ?_).trans (Nat.zero_mod _)
  · rw [List.map_map]
    rfl
  · exact List.mem_map_of_mem (f := fun p => (f p, 0)) hp

theorem State.fld_dropLinks_up {s : State} (hs : Inv s) {p : Nat} (hp : p < 64) : s.dropLinks.fld (F.PRT_ROLE.UP p) = 0 := by
  rw [State.fld_eq, State.dropLinks_eq]
  exact RegFile.fld_foldl_clear hs upRefs_apart (List.mem_range.mpr hp)

theorem State.onlyRegs_dropLinks (s : State) : OnlyRegs ((List.range 64).map R.PRT_ROLE) s s.dropLinks := by
  intro a ha
  rw [State.dropLinks_eq, RegFile.foldl_clear]
  refine RegFile.get_setFields_other fun e he h => ha ?_
  obtain ⟨p, hp, he⟩ := List.mem_map.mp he
  rw [h, ← he]
  exact List.mem_map_of_mem (f := R.PRT_ROLE) hp

/-- What the registers show of the outputs once they stop. -/
def stoppedFields (pulses : Map PulseState) : List (FieldRef × Nat) := (List.range 16).flatMap fun j =>
  [(F.QTY_PULSE_STAT.ASSERTED j, 0), (F.QTY_PULSE_STAT.PENDING j, (Map.findD pulses j {}).due)]

theorem stoppedRefs_apart : fieldsApart ((List.range 16).flatMap fun j =>
    [F.QTY_PULSE_STAT.ASSERTED j, F.QTY_PULSE_STAT.PENDING j]) = true := by decide +kernel

theorem RegFile.foldl_stop (pulses : Map PulseState) (l : List Nat) : ∀ m : RegFile, l.foldl (fun (r : RegFile) j =>
      (r.flag (F.QTY_PULSE_STAT.ASSERTED j) false).setF (F.QTY_PULSE_STAT.PENDING j) (Map.findD pulses j {}).due) m =
    m.setFields (l.flatMap fun j =>
      [(F.QTY_PULSE_STAT.ASSERTED j, 0), (F.QTY_PULSE_STAT.PENDING j, (Map.findD pulses j {}).due)]) := by
  induction l with
  | nil => exact fun m => (RegFile.setFields_nil m).symm
  | cons p l ih =>
    intro m
    rw [List.foldl_cons, ih, List.flatMap_cons, RegFile.setFields_append, RegFile.setFields_cons, RegFile.setFields_cons,
      RegFile.setFields_nil, RegFile.flag_eq]
    rfl

/-- The state with its outputs stopped, with the registers `r` and before their edges. -/
def State.pulsesStopped (s : State) (r : RegFile) : State :=
  { s with qty := { s.qty with pulses := Map.mapVals (fun _ => PulseState.stopped) s.qty.pulses }, regs := r }

theorem State.pulsesStopped_out (s : State) (r : RegFile) (k : List Output) :
    { s.pulsesStopped r with out := (s.pulsesStopped r).out ++ k } = { s with
      qty := { s.qty with pulses := Map.mapVals (fun _ => PulseState.stopped) s.qty.pulses }, regs := r
      out := s.out ++ k } := rfl

theorem State.stopPulses_eq (s : State) : ∃ k, s.stopPulses =
    { s with
      qty := { s.qty with pulses := Map.mapVals (fun _ => PulseState.stopped) s.qty.pulses }
      regs := s.regs.setFields (stoppedFields (Map.mapVals (fun _ => PulseState.stopped) s.qty.pulses))
      out := s.out ++ k } := by
  obtain ⟨k, hk⟩ := State.drives_out
    ((s.qty.pulses.filter fun (e : Nat × PulseState) => decide (e.2.phase = .asserted)).map fun e => e.1)
    (s.pulsesStopped ((List.range 16).foldl (fun (r : RegFile) j => (r.flag (F.QTY_PULSE_STAT.ASSERTED j) false).setF
      (F.QTY_PULSE_STAT.PENDING j)
        (Map.findD (Map.mapVals (fun _ => PulseState.stopped) s.qty.pulses) j {}).due) s.regs))
  refine ⟨k, Eq.trans ?_ (hk.trans ?_)⟩
  · rfl
  · rw [State.pulsesStopped_out, RegFile.foldl_stop, stoppedFields]

/-- The first step of SAVE without a handover (R414). -/
def State.saveBegun (s : State) : State :=
  s.stopPulses.dropLinks.post Ev.SAVE_BEGIN [b8 s.now, b8 (s.fld F.HLT_STAT.LEVEL)]

theorem State.saveStep_begin {s : State} (h : s.canHandOver = false) (r : SaveRun) : s.saveStep r 1 = s.saveBegun :=
  if_neg (c := s.canHandOver = true) (by simp [h])

/-- Stopped outputs and ports change the outputs, the pulses and the registers. -/
theorem State.saveLines_frame (s : State) : ∃ q r o, s.stopPulses.dropLinks = { s with qty := q, regs := r, out := o } := by
  obtain ⟨k, hk⟩ := s.stopPulses_eq
  have hdown := State.dropLinks_eq s.stopPulses
  generalize List.foldl _ s.stopPulses.regs _ = r at hdown
  generalize s.stopPulses.out ++ lowLines = o at hdown
  exact ⟨_, r, o, hdown.trans (by rw [hk])⟩

theorem State.saveBegun_frame (s : State) : s.saveBegun = { s.post Ev.SAVE_BEGIN [b8 s.now, b8 (s.fld F.HLT_STAT.LEVEL)] with
    regs := s.saveBegun.regs, qty := s.saveBegun.qty, out := s.saveBegun.out } := by
  obtain ⟨q, r, o, h⟩ := s.saveLines_frame
  rw [State.saveBegun, h]
  rfl

theorem State.saveBegun_out (s : State) : ∃ k, s.saveBegun.out = s.out ++ k ++ lowLines := by
  obtain ⟨k, hk⟩ := s.stopPulses_eq
  exact ⟨k, by rw [State.saveBegun, State.post_out, State.dropLinks_eq, hk]⟩

theorem State.saveBegun_pulses (s : State) :
    s.saveBegun.qty.pulses = Map.mapVals (fun _ => PulseState.stopped) s.qty.pulses := by
  rw [State.saveBegun, State.post_qty, State.dropLinks_eq, State.stopPulses_pulses]

theorem State.fld_saveBegun_up {s : State} (hs : Inv s) {p : Nat} (hp : p < 64) : s.saveBegun.fld (F.PRT_ROLE.UP p) = 0 := by
  obtain ⟨k, hk⟩ := s.stopPulses_eq
  have hinv : Inv s.stopPulses := by
    rw [Inv, hk]
    exact RegFile.setFields_wf _ hs
  rw [State.saveBegun, State.fld_eq, State.post_regs, ← State.fld_eq]
  exact State.fld_dropLinks_up hinv hp

theorem State.fld_saveBegun_asserted {s : State} (hs : Inv s) {j : Nat} (hj : j < 16) :
    s.saveBegun.fld (F.QTY_PULSE_STAT.ASSERTED j) = 0 := by
  have hother : ∀ i < 16, ∀ p < 64, R.QTY_PULSE_STAT i ≠ R.PRT_ROLE p := by decide +kernel
  obtain ⟨k, hk⟩ := s.stopPulses_eq
  rw [State.saveBegun, State.fld_eq, State.post_regs, ← State.fld_eq, s.stopPulses.onlyRegs_dropLinks.fld ?_, State.fld_eq, hk]
  · refine (RegFile.fld_setFields_of_apart (v := 0) _ hs stoppedRefs_apart ?_ ?_).trans (Nat.zero_mod _)
    · rw [stoppedFields, List.map_flatMap]
      rfl
    · exact List.mem_flatMap.mpr ⟨j, List.mem_range.mpr hj, .head _⟩
  · intro h
    obtain ⟨p, hp, e⟩ := List.mem_map.mp h
    exact hother j hj p (List.mem_range.mp hp) e.symm

/-! ### Resets (R409, R416, R418) -/

/-- The state as REFCLK is found absent, with a flag cleared (R418). -/
def State.refLost (s : State) (f : FieldRef) : State := ({ s with power := { s.power with refFault := true } } : State).flag f false

theorem State.refLost_regs (s : State) (f : FieldRef) : (s.refLost f).regs = (s.flag f false).regs := rfl

theorem State.refLost_frame (s : State) (f : FieldRef) :
    s.refLost f = { s with regs := (s.refLost f).regs, power := { s.power with refFault := true } } := rfl

theorem exec_clockFault_on {s : State} (h : s.portsOff = false) :
    exec .clockFault s = .next ((s.refLost F.CLK_STAT.REF_OK).beginReset 0x07) := by
  show execClockFault s = _
  unfold execClockFault
  cases hp : s.power.phase with
  | run => rfl
  | service => rfl
  | save => simp [State.portsOff, hp] at h
  | off => simp [State.portsOff, hp] at h

theorem ok_refOk : F.CLK_STAT.REF_OK.ok = true := by decide +kernel

/-! ### VBAT (R417) -/

/-- What VBAT at `mv` is taken for, shown in a field and a flag: `judgeVbat` for any fields. -/
def State.vbatTaken (s : State) (f g : FieldRef) (mv : Nat) : State :=
  let s1 := s.setF f mv
  if mv < 2200 then
    let s2 := s1.flag g true
    if s.power.vbatSeen then s2
    else ({ s2 with power := { s2.power with vbatSeen := true } } : State).post Ev.VBAT_LOW []
  else s1

section
variable (s : State) (f g : FieldRef) (mv : Nat)

theorem State.vbatTaken_regs : (s.vbatTaken f g mv).regs =
    s.regs.setFields (if mv < 2200 then [(f, mv), (g, 1)] else [(f, mv)]) := by
  unfold State.vbatTaken
  dsimp only
  split
  · simp only [RegFile.setFields_cons, RegFile.setFields_nil]
    split <;> rfl
  · rfl

theorem State.vbatTaken_power : (s.vbatTaken f g mv).power =
    { s.power with vbatSeen := s.power.vbatSeen || decide (mv < 2200) } := by
  unfold State.vbatTaken
  dsimp only
  split
  · next h =>
    cases hseen : s.power.vbatSeen with
    | true =>
      have hsame : { s.power with vbatSeen := true } = s.power := by rw [← hseen]
      exact hsame.symm
    | false =>
      rw [decide_eq_true h]
      rfl
  · next h =>
    rw [decide_eq_false h, Bool.or_false]
    rfl

theorem State.vbatTaken_queue : (s.vbatTaken f g mv).evt.queue = s.evt.queue ++
    (if mv < 2200 ∧ s.power.vbatSeen = false then [mkPost s Ev.VBAT_LOW []] else []) := by
  unfold State.vbatTaken
  dsimp only
  split
  · next h =>
    cases hseen : s.power.vbatSeen with
    | true => simp
    | false => simp [h]; rfl
  · next h => simp [h]

theorem State.vbatTaken_frame : s.vbatTaken f g mv = { s with
    regs := (s.vbatTaken f g mv).regs, power := (s.vbatTaken f g mv).power, evt := (s.vbatTaken f g mv).evt } := by
  unfold State.vbatTaken
  dsimp only
  split
  · split <;> rfl
  · rfl

end

theorem vbatRefs_apart : fieldsApart [F.PWR_STAT.VBAT_LOW, F.PWR_VBAT.MV] = true ∧
    fieldsApart [F.PWR_VBAT.MV, F.PWR_STAT.VBAT_LOW] = true ∧ fieldsApart [F.PWR_VBAT.MV] = true := by decide +kernel

theorem exec_vbatLow_on {s : State} (h : s.power.phase ≠ .off) (mv : Nat) :
    exec (.vbatLow mv) s = .next (s.vbatTaken F.PWR_VBAT.MV F.PWR_STAT.VBAT_LOW mv) :=
  congrArg Host.Outcome.next (if_neg h)

/-! ### Durable queues (R434) -/

/-- What is set by its own key, later entries with the same key included, is found there. -/
theorem Map.find_foldl_set {α β : Type} (k : β → Nat) (v : Nat → α) (l : List β) {e : β} (he : e ∈ l) :
    ∀ m : Map α, Map.find (l.foldl (fun m x => Map.set m (k x) (v (k x))) m) (k e) = some (v (k e)) := by
  have hkept : ∀ (l : List β) (m : Map α), Map.find m (k e) = some (v (k e)) →
      Map.find (l.foldl (fun m x => Map.set m (k x) (v (k x))) m) (k e) = some (v (k e)) := by
    intro l m hm
    refine List.foldlRecOn (motive := fun m : Map α => Map.find m (k e) = some (v (k e))) l _ hm fun m hm x _ => ?_
    by_cases hx : k e = k x
    · rw [hx]
      exact Map.find_set_same ..
    · exact (Map.find_set_other _ hx).trans hm
  intro m
  induction l generalizing m with
  | nil => cases he
  | cons x l ih =>
    rcases List.mem_cons.mp he with rfl | he
    · exact hkept l _ (Map.find_set_same ..)
    · exact ih he _

/-- A durable queue is saved with its words. -/
theorem State.saveQueues_saved {s : State} {w : WarpImage} {e : QueueEntry} (hw : s.warp.active = some w)
    (he : e ∈ w.queuePlan.queues) (hd : e.flags.getLsbD 0 = true) :
    Map.find s.saveQueues.que.saved e.queue = some (s.queue e.queue).words := by
  unfold State.saveQueues
  rw [hw]
  exact Map.find_foldl_set QueueEntry.queue (fun q => (s.queue q).words) _ (List.mem_filter.mpr ⟨he, hd⟩) []

/-! ### A commanded reset (R427) -/

/-- The member as it stands before a commanded reset: an active in step has handed over. -/
def State.beforeReset (s : State) : State := if s.canHandOver then s.markRole.handoverPair else s.markRole

/-- The directory of a commanded full reset as it begins. -/
def State.resetDir (s : State) : SaveDir := ⟨s.now, s.timeMs, 0, [], 0, 0, 0, false⟩

/-- The state once steps 2 to 7 of R414 have run on the main supply. -/
def State.resetSaved (s : State) (r : SaveRun) : State :=
  let s1 := s.beforeReset
  let s2 := [2, 3, 4, 5, 6, 7].foldl (State.saveStep r) { s1 with power := { s1.power with dir := some s.resetDir } }
  { s2 with power := { s2.power with
    dir := some (s.resetDir.after r [2, 3, 4, 5, 6, 7] s2.sto.durable.seq s2.dirUnits), dirNew := true } }

theorem exec_commandedReset {r : SaveRun} {d : DueReset} {s : State} (h : s.power.due = some d) :
    exec (.commandedReset r) s =
      if (d.cause ≠ 0x05 ∧ d.cause ≠ 0x0B) ∨ s.now < d.pace ∨ s.power.cutDue ∨ s.portsOff then .next s
      else if d.cause = 0x0B then .next { s.beforeReset with power := { s.beforeReset.power with
        start := some (0x0B, true), due := none } }
      else .next ((s.resetSaved r).beginReset 0x05) := by
  show execCommandedReset r s = _
  unfold execCommandedReset
  rw [h]
  rfl

/-- Steps 2 to 7 are done, and with them the directory (R415, R427). -/
theorem SaveDir.after_all (d : SaveDir) (r : SaveRun) (seq : Nat) (units : List Nat) (h : d.steps = 0) :
    (d.after r [2, 3, 4, 5, 6, 7] seq units).steps = 0x7E ∧ (d.after r [2, 3, 4, 5, 6, 7] seq units).complete = true := by
  have hall : [2, 3, 4, 5, 6, 7].foldl (fun (b : BitVec 8) k => b ||| BitVec.ofNat 8 (2 ^ (k - 1))) 0 = 0x7E := by decide
  unfold SaveDir.after
  rw [h]
  exact ⟨hall, by simp⟩

/-! ### The clauses together -/

/-- Settles O55: each operation is the branch that its state selects; the steps of SAVE are counted in the directory. -/
theorem suppliesSaveAndResetsFollowTheirRules : Obligations.SuppliesSaveAndResetsFollowTheirRules := by
  unfold Obligations.SuppliesSaveAndResetsFollowTheirRules
  refine ⟨fun x good v s hs => ?supply, fun v s hs => ⟨fun h => ?noHoldup, fun ha hb hv hoff => ?holdup⟩, fun s hs => ?cut,
    fun r s hp => ?noSave, fun r d s hp hd => ?save, ⟨rfl, rfl, fun n hn => saveSteps_from_two hn⟩,
    fun r s => ⟨rfl, rfl, rfl, fun hc hs => ?begun⟩, fun n s => ⟨fun h => ?noCutoff, fun h => ?cutoff⟩,
    fun c s => ?resets, fun r d s hd => ⟨fun h => ?noReset, fun hp hc hoff => ?reset⟩,
    fun mv s hs => ⟨fun hp hv => ?vbatKept, fun hp hv => ?rtcLost, fun hp => ?vbat⟩,
    fun s => ⟨fun h => ?noQueues, fun hl hn hoff => ?queues⟩⟩
  case supply =>
    obtain ⟨a, ha⟩ : ∃ a, a = if x = .vinA then good else s.fld F.PWR_STAT.VIN_A_OK == 1 := ⟨_, rfl⟩
    obtain ⟨b, hb⟩ : ∃ b, b = if x = .vinB then good else s.fld F.PWR_STAT.VIN_B_OK == 1 := ⟨_, rfl⟩
    obtain ⟨src, hsrc⟩ : ∃ src, src = if s.portsOff then 0 else sourceOf a b := ⟨_, rfl⟩
    obtain ⟨on, hon⟩ : ∃ on, on = decide (s.fld F.PWR_STAT.SRC ≠ 0 ∧ src ≠ 0 ∧ s.fld F.PWR_STAT.SRC ≠ src) := ⟨_, rfl⟩
    have hexec := exec_supplyChange hs x good a b _ v src ha hb rfl hsrc
    rw [← hon] at hexec
    have hsrc4 : src < 2 ^ 2 := by
      rw [hsrc, sourceOf]
      cases s.portsOff <;> cases a <;> cases b <;> decide
    have hregs := s.supplied_regs (supplyFields v a b src) x good ((a || b) && !s.portsOff)
    generalize hu : s.supplied (supplyFields v a b src) x good ((a || b) && !s.portsOff) = u at hexec hregs
    have hinv : Inv u := State.inv_of_setFields hregs hs
    obtain ⟨hap, hcnt, hall⟩ := supplyRefs_apart
    have hshown {f : FieldRef} {n : Nat} (hf : (f, n) ∈ supplyFields v a b src) :
        (u.switchedTo on F.PWR_SWITCH_CNT.COUNT src).fld f = n % 2 ^ (f.hi - f.lo + 1) := by
      obtain ⟨hok, hd⟩ := hall f (List.mem_map_of_mem (f := Prod.fst) hf)
      exact (State.switchedTo_fld u _ src hinv on ok_switchCnt hok hd).trans (State.fld_of_setFields hregs hs hap rfl hf)
    obtain ⟨hfa, hfb, hfs⟩ := supplyFields_flags (v := v) (a := a) (b := b) (src := src)
    have hshownSrc : (u.switchedTo on F.PWR_SWITCH_CNT.COUNT src).fld F.PWR_STAT.SRC = src :=
      (hshown hfs).trans (Nat.mod_eq_of_lt hsrc4)
    have hcount : (u.switchedTo on F.PWR_SWITCH_CNT.COUNT src).fld F.PWR_SWITCH_CNT.COUNT =
        if on then min (s.fld F.PWR_SWITCH_CNT.COUNT + 1) (2 ^ 32 - 1) else s.fld F.PWR_SWITCH_CNT.COUNT := by
      rw [← State.fld_of_setFields_other hregs hs hcnt rfl]
      exact State.switchedTo_count u _ src hinv on ok_switchCnt
    have honly : OnlyRegs [R.PWR_STAT, R.PWR_VIN, R.PWR_VSYS, R.PWR_VBAT, R.PWR_SWITCH_CNT] s u :=
      State.onlyRegs_of_setFields hregs supplyFields_addr
    have hpower := u.switchedTo_power F.PWR_SWITCH_CNT.COUNT src on
    refine ⟨_, a, b, _, hexec, ha, hb, rfl, (hshown hfa).trans ?_, (hshown hfb).trans ?_, hshownSrc.trans ?_,
      hshown (.tail _ (.tail _ (.head _))), hshown (.tail _ (.tail _ (.tail _ (.head _)))),
      (hshown (.tail _ (.tail _ (.tail _ (.tail _ (.head _)))))).trans ?_, ?_, ?_, ?_,
      State.switchedTo_only u F.PWR_SWITCH_CNT.COUNT src honly on (by simp [F.PWR_SWITCH_CNT.COUNT]), ?_⟩
    · cases a <;> rfl
    · cases b <;> rfl
    · rw [hsrc, sourceOf]
    · simp only [decide_eq_true_eq]
      split <;> rfl
    · rw [hpower, ← hu]
      exact State.supplied_power ..
    · intro y p
      rw [hpower, ← hu, State.supplied_goodSince]
      exact mem_goodAfter ..
    · rw [hcount, hshownSrc, hon]
      simp only [decide_eq_true_eq]
    · rw [← hu]
      exact State.supplied_switched_frame ..
  case noHoldup =>
    refine congrArg Host.Outcome.next (if_neg fun ⟨ha, hb, hv, hoff⟩ => ?_)
    rcases h with h | h | h | h
    · omega
    · omega
    · omega
    · exact hoff h
  case holdup =>
    obtain ⟨hap, hsrc⟩ := holdupRefs_apart
    have hregs := s.converting_regs (holdupFields v)
    exact ⟨_, exec_holdupStart ha hb hv hoff, rfl,
      State.fld_of_setFields hregs hs hap rfl (List.mem_append_right _ (.head _)),
      State.fld_of_setFields_other hregs hs hsrc rfl, State.onlyRegs_of_setFields hregs holdupFields_addr, State.converting_frame ..⟩
  case cut =>
    rw [State.enterSave_eq]
    refine ⟨_, _, rfl, rfl, rfl, rfl, ?_, rfl, ((OnlyRegs.refl _ s).setF (f := F.PWR_STAT.SRC) 0 (.head _)).of_regs
      (s.saving_regs _), State.saving_frame ..⟩
    rw [State.fld_eq, State.saving_regs]
    exact (RegFile.fld_setF_same 0 hs ok_src).trans (Nat.zero_mod _)
  case noSave =>
    show execSave r s = _
    unfold execSave
    split
    · next h _ => exact absurd h hp
    · rfl
  case save =>
    refine ⟨_, d.afterRun r s, _, exec_save hp hd, ?_, rfl, fun k h1 h7 => d.afterRun_step r s h1 h7, rfl, rfl, rfl, rfl,
      fun h => ?_, fun hc hr => ?_⟩
    · split <;> rfl
    · rw [if_pos h]
      exact ⟨rfl, rfl⟩
    · rw [if_neg (by simp [hc]; omega), State.afterSave_phase, hp]
  case begun =>
    obtain ⟨k, hk⟩ := s.saveBegun_out
    refine ⟨_, State.saveStep_begin hc r, fun j c hj => ?_, ?_, fun x hx => ?_, fun x hx => ?_,
      fun j hj => State.fld_saveBegun_asserted hs hj, fun p hp => State.fld_saveBegun_up hs hp, s.saveBegun_frame⟩
    · rw [s.saveBegun_pulses, Map.find_mapVals, hj]
      rfl
    · rw [hk, List.append_assoc]
      exact List.prefix_append ..
    · rw [hk]
      exact List.mem_append_right _ (List.mem_append_left _ (List.mem_map_of_mem (List.mem_range.mpr hx)))
    · rw [hk]
      exact List.mem_append_right _ (List.mem_append_right _ (List.mem_map_of_mem (List.mem_range.mpr hx)))
  case noCutoff => exact congrArg Host.Outcome.next (if_neg (by simp [h]))
  case cutoff =>
    refine ⟨_, congrArg Host.Outcome.next (if_pos h), rfl, fun hp => if_neg hp, fun d hp hd => (if_pos hp).trans ?_⟩
    rw [hd]
    rfl
  case resets =>
    refine ⟨rfl, rfl, fun h => congrArg _ (if_neg h), fun h => congrArg _ (if_pos h), fun h => congrArg _ (if_pos h),
      fun h => congrArg _ (if_neg (by simp [h])), fun h => ?_, fun h => ?_, fun hoff hs =>
      ⟨s.refLost F.CLK_STAT.REF_OK, exec_clockFault_on hoff, ?_, ((OnlyRegs.refl _ s).flag (f := F.CLK_STAT.REF_OK) false
        (.head _)).of_regs (s.refLost_regs _), s.refLost_frame _⟩⟩
    · show execClockFault s = _
      unfold execClockFault
      rw [h]
    · show execClockFault s = _
      unfold execClockFault
      rw [h]
      rfl
    · rw [State.fld_eq, State.refLost_regs]
      exact State.fld_flag_same false hs ok_refOk
  case noReset => exact (exec_commandedReset hd).trans (if_pos h)
  case reset =>
    have hgo (hk : d.cause = 0x05 ∨ d.cause = 0x0B) :
        ¬ ((d.cause ≠ 0x05 ∧ d.cause ≠ 0x0B) ∨ s.now < d.pace ∨ s.power.cutDue ∨ s.portsOff) := by
      rw [hc, hoff]
      simp
      omega
    refine ⟨_, rfl, fun hk => ?_, fun hk => ?_⟩
    · exact (exec_commandedReset hd).trans ((if_neg (hgo (.inr hk))).trans (if_pos hk))
    · have hdone := fun seq units => SaveDir.after_all s.resetDir r seq units rfl
      exact ⟨_, _, (exec_commandedReset hd).trans ((if_neg (hgo (.inl hk))).trans (if_neg (by omega))), rfl, rfl, rfl, rfl,
        (hdone _ _).1, (hdone _ _).2, rfl⟩
  case vbatKept => exact congrArg Host.Outcome.next ((if_pos hp).trans (if_neg (by omega)))
  case rtcLost =>
    exact ⟨_, congrArg Host.Outcome.next ((if_pos hp).trans (if_pos hv)), State.fld_flag_same false hs ok_rtcValid,
      (OnlyRegs.refl _ s).flag _ (.head _), rfl⟩
  case vbat =>
    obtain ⟨hlow, hmv, hone⟩ := vbatRefs_apart
    have hregs := s.vbatTaken_regs F.PWR_VBAT.MV F.PWR_STAT.VBAT_LOW mv
    refine ⟨_, exec_vbatLow_on hp mv, ?_, ?_, s.vbatTaken_power _ _ mv, s.vbatTaken_queue _ _ mv, ?_, s.vbatTaken_frame _ _ mv⟩
    · split at hregs
      · exact State.fld_of_setFields hregs hs hmv rfl (.head _)
      · exact State.fld_of_setFields hregs hs hone rfl (.head _)
    · split at hregs
      · next h =>
        rw [if_pos h]
        exact State.fld_of_setFields hregs hs hmv rfl (.tail _ (.head _))
      · next h =>
        rw [if_neg h]
        exact State.fld_of_setFields_other hregs hs hlow rfl
    · refine State.onlyRegs_of_setFields hregs ?_
      split
      · exact List.forall_mem_cons.mpr ⟨.head _, List.forall_mem_singleton.mpr (.tail _ (.head _))⟩
      · exact List.forall_mem_singleton.mpr (.head _)
  case noQueues =>
    refine congrArg Host.Outcome.next (if_neg fun ⟨hl, hn, hoff⟩ => ?_)
    rcases h with h | h | h
    · exact hl h
    · exact h hn
    · exact hoff h
  case queues =>
    exact ⟨_, congrArg Host.Outcome.next (if_pos ⟨hl, hn, by simp [hoff]⟩), rfl, rfl, fun w e hw he hd =>
      State.saveQueues_saved hw he hd⟩

end Sys2Proof.Machine

/-! Health is measured and reported (R429 to R436). -/

namespace Sys2Proof.Machine

set_option Elab.async false

/-! ### Items (R435) -/

/-- A post, marked with notices that were lost together with it or not. -/
def Post.Marks (p q : Post) : Prop := ∃ l, q = { p with lostFor := l }

/-- The queue of posts ends with a post, marked or not. -/
def State.EndsWith (s : State) (l : List Post) (p : Post) : Prop := ∃ q, p.Marks q ∧ s.evt.queue = l ++ [q]

theorem State.EndsWith.of_evt {s t : State} {l : List Post} {p : Post} (h : s.EndsWith l p) (he : t.evt = s.evt) :
    t.EndsWith l p := by
  obtain ⟨q, hq, hl⟩ := h
  exact ⟨q, hq, by rw [he, hl]⟩

/-- A notice marks the newest post at most. -/
theorem State.EndsWith.notify {s : State} {l : List Post} {p : Post} (h : s.EndsWith l p) (c kind : Nat) (body : List Tlv)
    (withPost : Bool) : (s.notify c kind body withPost).EndsWith l p := by
  unfold State.notify
  split
  · unfold State.loseNotice
    dsimp only
    split
    · obtain ⟨q, ⟨m, rfl⟩, hq⟩ := h
      refine ⟨{ p with lostFor := m ++ [(c, kind)] }, ⟨_, rfl⟩, ?_⟩
      rw [State.setCtx_evt, hq, List.reverse_append, List.reverse_singleton, List.singleton_append]
      simp
    · exact h.of_evt rfl
  · exact h.of_evt (State.retain_evt ..)

theorem State.EndsWith.broadcast {s : State} {l : List Post} {p : Post} (h : s.EndsWith l p) (kind : Nat) (body : List Tlv)
    (withPost : Bool) : (s.broadcast kind body withPost).EndsWith l p :=
  List.foldlRecOn (motive := fun t : State => t.EndsWith l p) _ _ h fun _ hu _ _ => hu.notify _ _ _ _

theorem NoticesOnly.hlt {s t : State} (h : NoticesOnly s t) : t.hlt = s.hlt := by rw [h.eq]

/-- The items sent once an item is. -/
def State.sentAfter (s : State) (i : HealthItem) : List (Nat × Nat × Nat × Nat) :=
  (s.hlt.sent.filter fun e => !(e.1 == i.code && e.2.1 == i.subject)) ++
    [(i.code, i.subject, i.severity, s.evt.opSeconds.toNat)]

/-- The state as an item is posted (R435). -/
def State.itemPosted (s : State) (i : HealthItem) : State :=
  ({ s with hlt := { s.hlt with sent := s.sentAfter i } } : State).post Ev.HEALTH_ITEM [b8 i.code, b8 i.subject, b8 i.value]

theorem State.raiseItem_due {s : State} {i : HealthItem} (h : s.itemDue i = true) :
    s.raiseItem i = (s.itemPosted i).broadcast 0x8005 [i.tlv] := if_pos h

theorem State.raiseItem_held {s : State} {i : HealthItem} (h : s.itemDue i = false) : s.raiseItem i = s :=
  if_neg (by simp [h])

theorem State.itemDue_eq_false {s : State} {i : HealthItem} : s.itemDue i = false ↔
    ∃ e ∈ s.hlt.sent, e.1 = i.code ∧ e.2.1 = i.subject ∧ i.severity ≤ e.2.2.1 ∧ s.evt.opSeconds.toNat < e.2.2.2 + 86400 := by
  unfold State.itemDue
  rw [Bool.not_eq_false', List.any_eq_true]
  simp only [Bool.and_eq_true, beq_iff_eq, decide_eq_true_eq, and_assoc]

theorem State.raiseItem_notices {s : State} {i : HealthItem} (h : s.itemDue i = true) :
    NoticesOnly (s.itemPosted i) (s.raiseItem i) := by
  rw [State.raiseItem_due h]
  exact (NoticesOnly.refl _).broadcast _ _ _

theorem State.onlyRegs_raiseItem (s : State) (i : HealthItem) : OnlyRegs [R.PRT_SPI_STAT] s (s.raiseItem i) := by
  cases h : s.itemDue i with
  | true => exact (State.raiseItem_notices h).only
  | false => exact (State.raiseItem_held h).symm ▸ OnlyRegs.refl _ s

theorem State.onlyRegs_raiseIf (s : State) (c : Bool) (i : HealthItem) : OnlyRegs [R.PRT_SPI_STAT] s (s.raiseIf c i) := by
  cases c with
  | true => exact s.onlyRegs_raiseItem i
  | false => exact OnlyRegs.refl _ s

/-! ### VCORE (R431) -/

section
variable {mv slack : Nat} {w tgt : Int}

theorem vcoreNext_low (h : w < tgt) : vcoreNext mv slack w tgt = (min 800 (mv + 5), 0) := if_pos h

theorem vcoreNext_kept (h : tgt ≤ w) (h1 : w ≤ tgt + 15) : vcoreNext mv slack w tgt = (mv, 0) :=
  (if_neg (by omega)).trans (if_neg (by omega))

theorem vcoreNext_counted (h : tgt + 15 < w) (hs : slack < 9) : vcoreNext mv slack w tgt = (mv, slack + 1) :=
  (if_neg (by omega)).trans ((if_pos h).trans (if_pos (by omega)))

theorem vcoreNext_lowered (h : tgt + 15 < w) (hs : 9 ≤ slack) : vcoreNext mv slack w tgt = (max 700 (mv - 5), 0) :=
  (if_neg (by omega)).trans ((if_pos h).trans (if_neg (by omega)))

end

/-- A measurement taken: its fields, and what HEALTH keeps of it. -/
def State.withHealth (s : State) (r : RegFile) (x : HealthState) : State := { s with regs := r, hlt := x }

section
variable (s : State) (r : RegFile) (x : HealthState)

theorem State.withHealth_regs : (s.withHealth r x).regs = r := rfl

theorem State.withHealth_hlt : (s.withHealth r x).hlt = x := rfl

theorem State.withHealth_frame : s.withHealth r x = { s with regs := (s.withHealth r x).regs, hlt := (s.withHealth r x).hlt } := rfl

end

/-- VCORE at 800 mV, and still below the target. -/
def State.vcoreLimit (s : State) (w : Int) : Bool :=
  s.fld F.HLT_VCORE.MV == 800 && decide (w < (s.fld F.HLT_VCORE_CFG.TGT_PS : Int))

/-- What an evaluation of the slack gives VCORE and the count of slack (R431). -/
def State.vcoreAfter (s : State) (w : Int) : Nat × Nat :=
  vcoreNext (s.fld F.HLT_VCORE.MV) s.hlt.slack w (s.fld F.HLT_VCORE_CFG.TGT_PS)

/-- The registers after an evaluation of the slack. -/
def State.vcoreRegs (s : State) (w : Int) : RegFile :=
  ((s.regs.setF F.HLT_VCORE.MV (s.vcoreAfter w).1).setFInt F.HLT_VCORE.SLACK_PS w).flag F.HLT_STAT.VCORE_LIMIT (s.vcoreLimit w)

/-- The state after an evaluation of the slack. -/
def State.vcoreMeasured (s : State) (w : Int) : State :=
  s.withHealth (s.vcoreRegs w) { s.hlt with slack := (s.vcoreAfter w).2, slackAt := s.now }

theorem State.evaluateSlack_eq (s : State) (w : Int) : s.evaluateSlack w =
    if w < 0 then (((s.vcoreMeasured w).postIf (s.vcoreLimit w) Ev.VCORE_LIMIT []).raiseIf (s.vcoreLimit w)
      ⟨3, if 2 * w < (s.fld F.HLT_VCORE_CFG.TGT_PS : Int) then 2 else 1, 0, w, s.fld F.HLT_VCORE_CFG.TGT_PS⟩).fatal 8 0xF 0xFF 0
    else ((s.vcoreMeasured w).postIf (s.vcoreLimit w) Ev.VCORE_LIMIT []).raiseIf (s.vcoreLimit w)
      ⟨3, if 2 * w < (s.fld F.HLT_VCORE_CFG.TGT_PS : Int) then 2 else 1, 0, w, s.fld F.HLT_VCORE_CFG.TGT_PS⟩ := rfl

theorem vcoreRefs_apart : F.HLT_VCORE.MV.ok = true ∧ F.HLT_VCORE.SLACK_PS.ok = true ∧ F.HLT_STAT.VCORE_LIMIT.ok = true ∧
    F.HLT_VCORE.MV.apart F.HLT_VCORE.SLACK_PS = true ∧ F.HLT_VCORE.MV.apart F.HLT_STAT.VCORE_LIMIT = true ∧
    F.HLT_VCORE.SLACK_PS.apart F.HLT_STAT.VCORE_LIMIT = true := by decide +kernel

section
variable {s : State} (hs : Inv s) (w : Int)
include hs

theorem State.fld_vcoreMeasured_mv : (s.vcoreMeasured w).fld F.HLT_VCORE.MV = (s.vcoreAfter w).1 % 2 ^ 16 := by
  obtain ⟨hmv, hps, hlim, hap, hal, -⟩ := vcoreRefs_apart
  have h1 := RegFile.setF_wf F.HLT_VCORE.MV (s.vcoreAfter w).1 hs
  rw [State.fld_eq, State.vcoreMeasured, State.withHealth_regs, State.vcoreRegs, RegFile.flag_eq, RegFile.setFInt,
    RegFile.fld_setF_other _ (RegFile.setF_wf _ _ h1) hlim hmv hal, RegFile.fld_setF_other _ h1 hps hmv hap]
  exact RegFile.fld_setF_same _ hs hmv

theorem State.fld_vcoreMeasured_limit : (s.vcoreMeasured w).fld F.HLT_STAT.VCORE_LIMIT = (s.vcoreLimit w).toNat := by
  obtain ⟨-, -, hlim, -, -, -⟩ := vcoreRefs_apart
  rw [State.fld_eq, State.vcoreMeasured, State.withHealth_regs, State.vcoreRegs, RegFile.setFInt,
    RegFile.fld_flag_same _ (RegFile.setF_wf _ _ (RegFile.setF_wf _ _ hs)) hlim]
  cases s.vcoreLimit w <;> rfl

theorem State.fldInt_vcoreMeasured (h0 : -32768 ≤ w) (h1 : w < 32768) :
    (s.vcoreMeasured w).regs.fldInt F.HLT_VCORE.SLACK_PS = w := by
  obtain ⟨-, hps, -, -, -, -⟩ := vcoreRefs_apart
  have hreg : F.HLT_VCORE.SLACK_PS.addr ≠ F.HLT_STAT.VCORE_LIMIT.addr := by decide
  rw [State.vcoreMeasured, State.withHealth_regs, State.vcoreRegs, RegFile.flag_eq, RegFile.fldInt_setF_reg _ _ hreg]
  exact RegFile.fldInt_setFInt (RegFile.setF_wf _ _ hs) hps h0 h1

end

theorem State.onlyRegs_vcoreMeasured (s : State) (w : Int) : OnlyRegs [R.HLT_VCORE, R.HLT_STAT] s (s.vcoreMeasured w) := by
  refine (((OnlyRegs.refl _ s).setF (f := F.HLT_VCORE.MV) (s.vcoreAfter w).1 (.head _)).setF (f := F.HLT_VCORE.SLACK_PS)
    (w % (2 : Int) ^ (F.HLT_VCORE.SLACK_PS.hi - F.HLT_VCORE.SLACK_PS.lo + 1)).toNat (.head _)).flag
    (f := F.HLT_STAT.VCORE_LIMIT) (s.vcoreLimit w) (.tail _ (.head _)) |>.of_regs ?_
  rw [State.vcoreMeasured, State.withHealth_regs, State.vcoreRegs, RegFile.setFInt]
  simp only [State.setF_regs, State.flag_regs]

/-! ### NAND (R432) -/

/-- What a bit-error measurement shows (R432). -/
def State.berFields (s : State) (b : Nat) : List (FieldRef × Nat) :=
  [(F.STO_SCRUB.EFF_DAYS, effDays (s.fld F.STO_SCRUB.DAYS) b), (F.HLT_NAND.BER_CENTI, min b 0xFFFF)]

theorem berRefs_apart : fieldsApart [F.STO_SCRUB.EFF_DAYS, F.HLT_NAND.BER_CENTI] = true ∧
    fieldsApart [F.STO_SCRUB.DAYS, F.STO_SCRUB.EFF_DAYS, F.HLT_NAND.BER_CENTI] = true := by decide +kernel

/-- The scrub period has fallen below a quarter of the one set. -/
def State.berLowNow (s : State) (b : Nat) : Bool := decide (4 * effDays (s.fld F.STO_SCRUB.DAYS) b < s.fld F.STO_SCRUB.DAYS)

/-- The state after a bit-error measurement. -/
def State.berMeasured (s : State) (b : Nat) : State :=
  s.withHealth (s.regs.setFields (s.berFields b)) { s.hlt with berLow := s.berLowNow b, berDay := s.dayNo }

theorem State.evaluateBer_eq (s : State) (b : Nat) :
    s.evaluateBer b = (s.berMeasured b).raiseIf (s.berLowNow b && !s.hlt.berLow) ⟨4, 1, 0, b, 1800⟩ := by
  rw [State.berMeasured, State.berFields, RegFile.setFields_cons, RegFile.setFields_cons, RegFile.setFields_nil]
  rfl

/-! ### Drifts (R429, R435) -/

/-- One AFE measurement taken, with its gain in a field. -/
def State.gainMeasured (s : State) (x : Nat) (g : Int) (f : FieldRef) : State :=
  s.withHealth (s.regs.setFInt f g) { s.hlt with afeBase := Map.set s.hlt.afeBase x (Map.findD s.hlt.afeBase x g) }

theorem State.afeGain_eq (s : State) (x : Nat) (g : Int) : s.afeGain x g =
    (s.gainMeasured x g (F.PLC_AFE_GAIN.GAIN x)).raiseIf
      (decide ((s.fld F.HLT_LIMITS.AFE_CDB : Int) < (g - Map.findD s.hlt.afeBase x g).natAbs))
      ⟨8, 1, x, g - Map.findD s.hlt.afeBase x g, s.fld F.HLT_LIMITS.AFE_CDB⟩ := rfl

theorem ok_afeGain {x : Nat} (h : x < 4) : (F.PLC_AFE_GAIN.GAIN x).ok = true :=
  (by decide +kernel : ∀ i < 4, (F.PLC_AFE_GAIN.GAIN i).ok = true) x h

/-- The state once the drift of the reference is judged. -/
def State.referenceJudged (s : State) : State :=
  ({ s with hlt := { s.hlt with driftDay := s.dayNo } } : State).raiseIf (s.fld F.CLK_QUAL.QUALITY == 0 &&
    (s.fld F.CLK_QUAL.SOURCE == 1 || s.fld F.CLK_QUAL.SOURCE == 2) &&
    decide (s.fld F.HLT_LIMITS.REF_PPM * 1000 < (s.regs.fldInt F.CLK_FREQ.PPB).natAbs))
    ⟨5, 1, 0, s.regs.fldInt F.CLK_FREQ.PPB, (s.fld F.HLT_LIMITS.REF_PPM * 1000 : Nat)⟩

/-- The state once the drift of the RTC is judged as well. -/
def State.driftsJudged (s : State) : State :=
  s.referenceJudged.raiseIf (decide (s.fld F.HLT_LIMITS.RTC_PPM * 1000 < (s.regs.fldInt F.CLK_RTC_TRIM.PPB).natAbs))
    ⟨6, 1, 0, s.regs.fldInt F.CLK_RTC_TRIM.PPB, (s.fld F.HLT_LIMITS.RTC_PPM * 1000 : Nat)⟩

theorem decide_limit (n k : Nat) : decide ((n : Int) * 1000 < (k : Int)) = decide (n * 1000 < k) := by
  rw [decide_eq_decide]
  omega

theorem exec_dailyMeasurement_due {s : State} (h : s.hlt.driftDay ≠ s.dayNo) (l : List (Nat × Int)) :
    exec (.dailyMeasurement l) s = .next (l.foldl (fun t e => t.afeGain e.1 e.2) s.driftsJudged) := by
  refine congrArg Host.Outcome.next ((if_neg h).trans ?_)
  simp only [State.measureDrifts, State.driftsJudged, State.referenceJudged, decide_limit]
  rfl

theorem State.onlyRegs_driftsJudged (s : State) : OnlyRegs [R.PRT_SPI_STAT] s s.driftsJudged := fun a ha =>
  (State.onlyRegs_raiseIf _ _ _ a ha).trans (State.onlyRegs_raiseIf _ _ _ a ha)

theorem State.driftsJudged_inv {s : State} (hs : Inv s) : Inv s.driftsJudged :=
  (State.raiseIf_keeps (State.raiseIf_keeps (Keeps.refl _) _ _) _ _).regs hs

/-! ### The capacitor test (R430, R433) -/

theorem State.capTestAllowed_iff (s : State) : s.capTestAllowed = true ↔ s.fld F.PWR_STAT.HOLDUP_OK = 1 ∧
    ∀ x ∈ s.power.fitted, ∃ p, (x, p) ∈ s.power.goodSince ∧ p + 60000 ≤ s.now := by
  unfold State.capTestAllowed
  rw [Bool.and_eq_true, beq_iff_eq, List.all_eq_true]
  refine and_congr_right fun _ => forall_congr' fun x => imp_congr_right fun _ => ?_
  rw [List.any_eq_true]
  constructor
  · rintro ⟨⟨y, p⟩, hm, hy⟩
    simp only [Bool.and_eq_true, beq_iff_eq, decide_eq_true_eq] at hy
    exact ⟨p, hy.1 ▸ hm, hy.2⟩
  · rintro ⟨p, hm, hp⟩
    exact ⟨(x, p), hm, by simp [hp]⟩

/-- A test started, with its flag. -/
def State.testStarted (s : State) (f : FieldRef) : State :=
  ({ s with hlt := { s.hlt with capFrom := s.now } } : State).flag f true

theorem State.capTestStart_eq (s : State) : s.capTestStart = s.testStarted F.HLT_STAT.CAP_TEST := rfl

theorem State.testStarted_regs (s : State) (f : FieldRef) : (s.testStarted f).regs = (s.flag f true).regs := rfl

theorem State.testStarted_frame (s : State) (f : FieldRef) :
    s.testStarted f = { s with regs := (s.testStarted f).regs, hlt := { s.hlt with capFrom := s.now } } := rfl

theorem ok_capTest : F.HLT_STAT.CAP_TEST.ok = true := by decide +kernel

theorem State.fld_testStarted {s : State} (hs : Inv s) : (s.testStarted F.HLT_STAT.CAP_TEST).fld F.HLT_STAT.CAP_TEST = 1 := by
  rw [State.fld_eq, State.testStarted_regs]
  exact State.fld_flag_same true hs ok_capTest

theorem State.onlyRegs_testStarted (s : State) : OnlyRegs [R.HLT_STAT] s (s.testStarted F.HLT_STAT.CAP_TEST) :=
  ((OnlyRegs.refl _ s).flag (f := F.HLT_STAT.CAP_TEST) true (.head _)).of_regs (s.testStarted_regs _)

/-- The state of the day on which a test is made. -/
def State.testToday (s : State) : State := { s with hlt := { s.hlt with testDay := s.dayNo } }

/-- HLT_CAP_CFG, with its trigger TEST. -/
def capCfgReg : RegSpec := ⟨R.HLT_CAP_CFG, [], false, [triggerField 31, ⟨4, 0, .RW, 3, .iv [(0, 23)]⟩]⟩

theorem findReg_capCfg : findReg R.HLT_CAP_CFG = some capCfgReg := by decide +kernel

theorem State.trigger_capCfg (s : State) (who : Requester) (lo : Nat) : s.trigger who R.HLT_CAP_CFG lo 1 =
    if s.capTestAllowed then (s.capTestStart, Cause.OK) else (s, Cause.REG_RANGE) := rfl

theorem enteredBit_of_local {addr : Nat} (h : localBlock addr = true) (s : State) (who : Requester) (bit : Nat) :
    enteredBit s who addr bit = s := if_pos h

/-- A permitted write of TEST. -/
theorem exec_capTestNow {s : State} {who : Requester} (hs : Inv s) (hm : MayWrite s who R.HLT_CAP_CFG) :
    exec (.capTestNow who) s = .next (if s.capTestAllowed then s.capTestStart.send (.regCause who R.HLT_CAP_CFG Cause.OK)
      else s.send (.regCause who R.HLT_CAP_CFG Cause.REG_RANGE)) := by
  have hcause : ∀ c, ([c].find? fun x => x != 0).getD Cause.OK = c := fun c => by
    by_cases hc : c = 0 <;> simp [hc, Cause.OK]
  refine congrArg Host.Outcome.next ((State.writeBit_of_trigger (bit := 31)
    findReg_capCfg rfl hcause rfl (by decide) rfl hs hm).trans ?_)
  rw [enteredBit_of_local rfl, State.trigger_capCfg]
  split <;> rfl

/-! ### The end of a capacitor test (R430, R433) -/

theorem worstLevel_le (e : Int × Int) : worstLevel e ≤ 3 := by
  unfold worstLevel
  repeat' split
  all_goals omega

section
variable {level good : Nat} {e : Int × Int}

theorem planNext_falls (h : level < worstLevel e) : planNext level good e = (worstLevel e, 0) := if_pos h

theorem planNext_kept (h : worstLevel e ≤ level) (hb : level = 0 ∨ 10 * e.1 < 13 * planBudget (level - 1) * e.2) :
    planNext level good e = (level, 0) := by
  refine (if_neg (by omega)).trans (if_neg fun ⟨h0, hd⟩ => ?_)
  have := of_decide_eq_true hd
  omega

theorem planNext_good (h : worstLevel e ≤ level) (h0 : 0 < level) (hb : 13 * planBudget (level - 1) * e.2 ≤ 10 * e.1) :
    planNext level good e = if good = 0 then (level, 1) else (level - 1, 0) := by
  refine (if_neg (by omega)).trans ((if_pos ⟨h0, decide_eq_true hb⟩).trans ?_)
  by_cases hg : good = 0
  · rw [if_pos hg, if_pos (by omega), hg]
  · rw [if_neg hg, if_neg (by omega)]

theorem planNext_le (h : level ≤ 3) : (planNext level good e).1 ≤ 3 := by
  have := worstLevel_le e
  unfold planNext
  split
  · exact this
  · split
    · split
      · exact h
      · show level - 1 ≤ 3
        omega
    · exact h

theorem worstLevel_three : worstLevel e = 3 ↔ e.1 < 50 * e.2 := by
  unfold worstLevel energyAtLeast
  by_cases h : 50 * e.2 ≤ e.1
  · simp [h]
    repeat' split
    all_goals omega
  · simp [h]
    omega

theorem worstLevel_two (h : 50 * e.2 ≤ e.1) : worstLevel e = 2 ↔ e.1 < 150 * e.2 := by
  unfold worstLevel energyAtLeast
  by_cases h2 : 150 * e.2 ≤ e.1
  · simp [h, h2]
    split
    all_goals omega
  · simp [h, h2]
    omega

end

theorem planBudget_le (n : Nat) : planBudget n ≤ 312 := by
  unfold planBudget
  split <;> omega

/-- What a test that ends shows (R430, R433). -/
def capFields (dv0 dv level : Nat) (e : Int × Int) : List (FieldRef × Nat) :=
  [(F.HLT_STAT.CAP_TEST, 0), (F.HLT_STAT.CAP_VALID, 1), (F.HLT_STAT.LEVEL, level),
    (F.HLT_CAP.ESR_MOHM, min 0xFFFF (dv0 / 100)), (F.HLT_CAP.C_UF, min 0xFFFF (900000000 / dv)),
    (F.HLT_EU.MJ, min 0xFFFF (e.1 / e.2).toNat), (F.HLT_EU.BUDGET_MJ, planBudget level)]

theorem capRefs_apart : fieldsApart [F.HLT_STAT.CAP_TEST, F.HLT_STAT.CAP_VALID, F.HLT_STAT.LEVEL, F.HLT_CAP.ESR_MOHM,
    F.HLT_CAP.C_UF, F.HLT_EU.MJ, F.HLT_EU.BUDGET_MJ] = true := by decide +kernel

theorem capFields_addr {dv0 dv level : Nat} {e : Int × Int} :
    ∀ x ∈ capFields dv0 dv level e, x.1.addr ∈ [R.HLT_STAT, R.HLT_CAP, R.HLT_EU] := by
  have hrefs : ∀ f ∈ [F.HLT_STAT.CAP_TEST, F.HLT_STAT.CAP_VALID, F.HLT_STAT.LEVEL, F.HLT_CAP.ESR_MOHM, F.HLT_CAP.C_UF,
      F.HLT_EU.MJ, F.HLT_EU.BUDGET_MJ], f.addr ∈ [R.HLT_STAT, R.HLT_CAP, R.HLT_EU] := by decide
  exact fun x hx => hrefs _ (List.mem_map_of_mem (f := Prod.fst) hx)

/-- A test that ends: shown, and posted with the change of the level. -/
def State.testTaken (s : State) (r : RegFile) (good fall : Nat) (p : Payload) (planned : Bool) : State :=
  let s1 := s.withHealth r { s.hlt with goodTests := good }
  ((if fall = 0 then s1.drawLocal else s1).post Ev.CAP_TEST p).postIf planned Ev.PLAN []

section
variable (s : State) (r : RegFile) (good fall : Nat) (p : Payload) (planned : Bool)

theorem State.testTaken_regs : (s.testTaken r good fall p planned).regs = r := by
  unfold State.testTaken
  dsimp only
  cases planned <;> split <;> rfl

theorem State.testTaken_hlt : (s.testTaken r good fall p planned).hlt = { s.hlt with goodTests := good } := by
  unfold State.testTaken
  dsimp only
  cases planned <;> split <;> rfl

theorem State.testTaken_queue : (s.testTaken r good fall p planned).evt.queue =
    s.evt.queue ++ [mkPost s Ev.CAP_TEST p] ++ (if planned then [mkPost s Ev.PLAN []] else []) := by
  unfold State.testTaken
  dsimp only
  cases planned
  · split <;> exact (List.append_nil _).symm
  · split <;> rfl

theorem State.testTaken_frame : s.testTaken r good fall p planned = { s with
    regs := (s.testTaken r good fall p planned).regs, hlt := (s.testTaken r good fall p planned).hlt
    evt := (s.testTaken r good fall p planned).evt, drawn := if fall = 0 then s.drawn + 1 else s.drawn } := by
  unfold State.testTaken
  dsimp only
  cases planned <;> split <;> rfl

end

/-- Readings that are cut to 16 bits, as numbers with a sign. -/
theorem cast_readings (dv0 dv : Nat) : ((min 0xFFFF (900000000 / dv) : Nat) : Int) = min 0xFFFF (900000000 / (dv : Int)) ∧
    ((min 0xFFFF (dv0 / 100) : Nat) : Int) = min 0xFFFF ((dv0 : Int) / 100) := by
  push_cast
  exact ⟨rfl, rfl⟩

theorem exec_capTestEnd_done {s : State} (h1 : s.fld F.HLT_STAT.CAP_TEST = 1) (h2 : s.hlt.capFrom + 10 ≤ s.now)
    (dv0 fall dv : Nat) (n : Nat × Nat) (e : Int × Int) (hdv : dv = if fall = 0 then 1 + Config.free s.drawn else fall)
    (he : e = usableEnergy dv0 dv) (hn : n = planNext (s.fld F.HLT_STAT.LEVEL) s.hlt.goodTests e) :
    exec (.capTestEnd dv0 fall) s = .next (((s.testTaken (s.regs.setFields (capFields dv0 dv n.1 e)) n.2 fall
        [b8 (min 0xFFFF (900000000 / dv)), b8 (min 0xFFFF (dv0 / 100))] (n.1 != s.fld F.HLT_STAT.LEVEL)).raiseIf (n.1 != 0)
        ⟨1, planSeverity n.1, 0, (e.1 / e.2).toNat, planThreshold n.1⟩).raiseIf (n.1 != s.fld F.HLT_STAT.LEVEL)
        ⟨2, planSeverity n.1, 0, n.1, s.fld F.HLT_STAT.LEVEL⟩) := by
  obtain ⟨hc, hesr⟩ := cast_readings dv0 dv
  show execCapTestEnd dv0 fall s = _
  unfold execCapTestEnd
  rw [if_pos ⟨h1, h2⟩]
  dsimp only
  rw [← hdv, ← he, ← hn, hc, hesr]
  simp only [State.testTaken, capFields, RegFile.setFields_cons, RegFile.setFields_nil, RegFile.flag_eq, Bool.false_eq_true,
    if_true, if_false, State.withHealth]

/-! ### Lost cores (R436) -/

/-- The cores lost once one more is. -/
def State.coresLost (s : State) (c : Nat) : Nat := s.fld F.HLT_STAT.CORES_LOST ||| 2 ^ c

/-- A core lost, shown in a field. -/
def State.coreShown (s : State) (f : FieldRef) (n : Nat) : State := (s.setF f n).post Ev.CORE_LOST []

theorem State.coreShown_regs (s : State) (f : FieldRef) (n : Nat) : (s.coreShown f n).regs = s.regs.setF f n := rfl

theorem State.coreShown_frame (s : State) (f : FieldRef) (n : Nat) :
    s.coreShown f n = { s.post Ev.CORE_LOST [] with regs := (s.coreShown f n).regs } := rfl

theorem State.loseCore_kept {s : State} {c : Nat} (h : 8 ≤ c ∨ (s.fld F.HLT_STAT.CORES_LOST).testBit c = true) :
    s.loseCore c = s := by
  refine if_neg fun ⟨hc, hn⟩ => ?_
  rcases h with h | h
  · omega
  · exact hn h

theorem State.loseCore_lost {s : State} {c : Nat} (hc : c < 8) (hb : (s.fld F.HLT_STAT.CORES_LOST).testBit c = false) :
    s.loseCore c = (s.coreShown F.HLT_STAT.CORES_LOST (s.coresLost c)).raiseItem ⟨9, 2, c, 8 - bits8 (s.coresLost c), 8⟩ :=
  if_pos ⟨hc, by simp [hb]⟩

theorem ok_coresLost : F.HLT_STAT.CORES_LOST.ok = true := by decide +kernel

theorem State.coresLost_lt (s : State) {c : Nat} (hc : c < 8) : s.coresLost c < 2 ^ 8 :=
  Nat.or_lt_two_pow (fieldOf_lt _ 15 8) (Nat.pow_lt_pow_right (by omega) hc)

/-! ### The clauses together -/

/-- Settles O58: each measurement is its step, and each item goes by `raiseItem`. -/
theorem healthIsMeasuredAndReported : Obligations.HealthIsMeasuredAndReported := by
  unfold Obligations.HealthIsMeasuredAndReported
  refine ⟨fun i s => ⟨fun h => State.raiseItem_held (State.itemDue_eq_false.mpr h), fun h => ?raised⟩,
    fun w mv tgt s hs hmv htgt => ⟨fun h => congrArg _ (if_neg (by omega)), fun h => ?vcore⟩,
    fun b eff s hs heff => ⟨fun h => congrArg _ (if_pos h), fun h => ?ber⟩,
    fun l s h => congrArg _ (if_pos h), fun f trim s u h hf htrim hu => ?daily, fun s => s.capTestAllowed_iff,
    fun s hs => ⟨fun h => ?noTest, fun hh hd ha => ?test⟩,
    fun who s hs hm => ⟨fun ha => ?refused, fun ha => ?now⟩, fun dv0 fall s h => ?early,
    fun dv0 fall dv old n e s hs h1 h2 hdv hold he hn => ?testEnd,
    fun level good e => ⟨fun h => planNext_falls h, fun h hb => planNext_kept h hb, fun h h0 hb => planNext_good h h0 hb,
      worstLevel_three, worstLevel_two⟩,
    fun c s => ⟨rfl, fun l hl => ?third, State.loseCore_kept, fun hc hb hs => ?lost⟩⟩
  case raised =>
    have hdue : s.itemDue i = true := by
      cases hd : s.itemDue i with
      | true => rfl
      | false => exact absurd (State.itemDue_eq_false.mp hd) h
    have hend : (s.itemPosted i).EndsWith s.evt.queue (mkPost s Ev.HEALTH_ITEM [b8 i.code, b8 i.subject, b8 i.value]) :=
      ⟨_, ⟨[], rfl⟩, rfl⟩
    have hcast := hend.broadcast 0x8005 [i.tlv] true
    rw [← State.raiseItem_due hdue] at hcast
    obtain ⟨q, ⟨m, rfl⟩, hq⟩ := hcast
    refine ⟨_, _, rfl, ?_, hq, rfl, rfl, s.onlyRegs_raiseItem i⟩
    rw [(State.raiseItem_notices hdue).hlt]
    exact List.getLast?_concat
  case vcore =>
    subst hmv htgt
    have hlt : s.fld F.HLT_VCORE.MV < 2 ^ 16 := fieldOf_lt _ 15 0
    have hu := s.fld_vcoreMeasured_mv hs w
    refine ⟨s.vcoreMeasured w, _, _, rfl, rfl, congrArg Host.Outcome.next ((if_pos h).trans (s.evaluateSlack_eq w)),
      fun hw => ?_, fun h0 h1 => ?_, fun h0 h1 => ?_, fun h0 h1 => ?_, s.fld_vcoreMeasured_limit hs w,
      fun h0 h1 => s.fldInt_vcoreMeasured hs w h0 h1, s.onlyRegs_vcoreMeasured w, State.withHealth_frame ..⟩
    · have hn : s.vcoreAfter w = _ := vcoreNext_low hw
      rw [hu, State.vcoreMeasured, State.withHealth_hlt, hn]
      exact ⟨Nat.mod_eq_of_lt (by dsimp only; omega), rfl⟩
    · have hn : s.vcoreAfter w = _ := vcoreNext_kept h0 h1
      rw [hu, State.vcoreMeasured, State.withHealth_hlt, hn]
      exact ⟨Nat.mod_eq_of_lt hlt, rfl⟩
    · have hn : s.vcoreAfter w = _ := vcoreNext_counted h0 h1
      rw [hu, State.vcoreMeasured, State.withHealth_hlt, hn]
      exact ⟨Nat.mod_eq_of_lt hlt, rfl⟩
    · have hn : s.vcoreAfter w = _ := vcoreNext_lowered h0 h1
      rw [hu, State.vcoreMeasured, State.withHealth_hlt, hn]
      exact ⟨Nat.mod_eq_of_lt (by dsimp only; omega), rfl⟩
  case ber =>
    obtain ⟨hap, hdays⟩ := berRefs_apart
    have hregs : (s.berMeasured b).regs = _ := State.withHealth_regs ..
    have heff' : effDays (s.fld F.STO_SCRUB.DAYS) b = eff := heff.symm
    refine ⟨s.berMeasured b, s.berLowNow b, ?_, congrArg Host.Outcome.next ((if_neg h).trans (s.evaluateBer_eq b)), ?_,
      (State.fld_of_setFields hregs hs hap rfl (.tail _ (.head _))).trans (Nat.mod_eq_of_lt ?_), State.withHealth_hlt ..,
      State.fld_of_setFields_other hregs hs hdays rfl, State.onlyRegs_of_setFields hregs
        (List.forall_mem_cons.mpr ⟨.head _, List.forall_mem_singleton.mpr (.tail _ (.head _))⟩), State.withHealth_frame ..⟩
    · rw [← heff']
      rfl
    · rw [← heff']
      exact State.fld_of_setFields hregs hs hap rfl (.head _)
    · exact Nat.lt_of_le_of_lt (Nat.min_le_right ..) (by decide)
  case daily =>
    subst hf htrim
    have hjudged : s.referenceJudged = u := hu.symm
    refine ⟨s.driftsJudged, ?_, s.onlyRegs_driftsJudged, exec_dailyMeasurement_due h [], fun x g l hx hs => ?_⟩
    · rw [← hjudged]
      rfl
    have hlim : s.driftsJudged.fld F.HLT_LIMITS.AFE_CDB = s.fld F.HLT_LIMITS.AFE_CDB :=
      s.onlyRegs_driftsJudged.fld (by decide)
    refine ⟨s.driftsJudged.gainMeasured x g (F.PLC_AFE_GAIN.GAIN x), State.withHealth_hlt .., State.withHealth_frame ..,
      ((OnlyRegs.refl _ _).setF (f := F.PLC_AFE_GAIN.GAIN x) _ (.head _)).of_regs (State.withHealth_regs ..), fun h0 h1 => ?_, ?_⟩
    · rw [State.gainMeasured, State.withHealth_regs]
      exact RegFile.fldInt_setFInt (State.driftsJudged_inv hs) (ok_afeGain hx) h0 h1
    · rw [exec_dailyMeasurement_due h, List.foldl_cons, State.afeGain_eq, hlim]
  case noTest =>
    refine congrArg Host.Outcome.next (if_neg fun ⟨hh, hd, ha⟩ => ?_)
    rcases h with h | h | h
    · exact h hh
    · exact hd h
    · simp [h] at ha
  case test =>
    refine ⟨_, congrArg Host.Outcome.next ((if_pos ⟨hh, hd, ha⟩).trans s.testToday.capTestStart_eq),
      s.testToday.fld_testStarted hs, fun a hn => s.testToday.onlyRegs_testStarted a hn, State.testStarted_frame ..⟩
  case refused =>
    rw [exec_capTestNow hs hm, ha]
    rfl
  case now =>
    refine ⟨_, (exec_capTestNow hs hm).trans (congrArg Host.Outcome.next (if_pos ha)), ?_⟩
    rw [State.capTestStart_eq]
    exact ⟨s.fld_testStarted hs, s.onlyRegs_testStarted, s.testStarted_frame _⟩
  case early => exact if_neg fun ⟨h1, h2⟩ => by omega
  case testEnd =>
    subst hold
    have hregs := s.testTaken_regs (s.regs.setFields (capFields dv0 dv n.1 e)) n.2 fall
      [b8 (min 0xFFFF (900000000 / dv)), b8 (min 0xFFFF (dv0 / 100))] (n.1 != s.fld F.HLT_STAT.LEVEL)
    have hfld {f : FieldRef} {v : Nat} (hf : (f, v) ∈ capFields dv0 dv n.1 e) (hv : v < 2 ^ (f.hi - f.lo + 1)) :=
      (State.fld_of_setFields hregs hs capRefs_apart rfl hf).trans (Nat.mod_eq_of_lt hv)
    have hcut (k : Nat) : min 0xFFFF k < 2 ^ 16 := Nat.lt_of_le_of_lt (Nat.min_le_left ..) (by decide)
    have hlevel : n.1 < 2 ^ 2 := by
      have : s.fld F.HLT_STAT.LEVEL < 2 ^ 2 := fieldOf_lt _ 1 0
      have := planNext_le (good := s.hlt.goodTests) (e := e) (level := s.fld F.HLT_STAT.LEVEL) (by omega)
      rw [← hn] at this
      omega
    refine ⟨_, hfld (.head _) (by decide), hfld (.tail _ (.head _)) (by decide), hfld (.tail _ (.tail _ (.head _))) hlevel,
      hfld (.tail _ (.tail _ (.tail _ (.head _)))) (hcut _), hfld (.tail _ (.tail _ (.tail _ (.tail _ (.head _))))) (hcut _),
      hfld (.tail _ (.tail _ (.tail _ (.tail _ (.tail _ (.head _)))))) (hcut _),
      hfld (.tail _ (.tail _ (.tail _ (.tail _ (.tail _ (.tail _ (.head _))))))) (Nat.lt_of_le_of_lt (planBudget_le _) (by decide)),
      State.testTaken_hlt .., State.onlyRegs_of_setFields hregs capFields_addr, ?_, State.testTaken_frame ..,
      exec_capTestEnd_done h1 h2 dv0 fall dv n e hdv he hn⟩
    rw [State.testTaken_queue]
    simp only [bne_iff_ne]
  case third =>
    subst hl
    refine ⟨_, rfl, congrArg Host.Outcome.next ?_⟩
    simp only [List.length_cons, Nat.succ_le_succ_iff]
  case lost =>
    refine ⟨_, s.coreShown F.HLT_STAT.CORES_LOST (s.coresLost c), s.coresLost c, rfl, rfl, ?_,
      ((OnlyRegs.refl _ s).setF (f := F.HLT_STAT.CORES_LOST) _ (.head _)).of_regs (s.coreShown_regs _ _), s.coreShown_frame _ _,
      State.loseCore_lost hc hb⟩
    rw [State.fld_eq, State.coreShown_regs]
    exact (RegFile.fld_setF_same _ hs ok_coresLost).trans (Nat.mod_eq_of_lt (s.coresLost_lt hc))

end Sys2Proof.Machine

/-! Keys are zeroised when armed, and kept otherwise (R348 to R359). -/

namespace Sys2Proof.Machine

set_option Elab.async false

/-! ### KEY_ZCTL (R354) -/

/-- The cause of a trigger alone is the cause of its write. -/
theorem firstCause_alone (c : Nat) : ([c].find? fun x => x != 0).getD Cause.OK = c := by
  by_cases hc : c = 0 <;> simp [hc, Cause.OK]

/-- KEY_ZCTL, with its triggers GO and ARM. -/
def keyZctlReg : RegSpec := ⟨R.KEY_ZCTL, [], false, [triggerField 1, triggerField 0]⟩

theorem findReg_keyZctl : findReg R.KEY_ZCTL = some keyZctlReg := by decide +kernel

theorem State.trigger_keyZctl (s : State) (who : Requester) (lo : Nat) : s.trigger who R.KEY_ZCTL lo 1 =
    if lo = 1 then s.zeroiseGo who else ({ s with key := { s.key with arm := some (who, s.now) } }, Cause.OK) := rfl

section
variable {s : State} {who : Requester} (hs : Inv s) (hm : MayWrite s who R.KEY_ZCTL)
include hs hm

theorem exec_zeroiseArm_permitted : exec (.zeroiseArm who) s =
    .next (({ s with key := { s.key with arm := some (who, s.now) } } : State).send (.regCause who R.KEY_ZCTL Cause.OK)) := by
  refine congrArg Host.Outcome.next ((State.writeBit_of_trigger (bit := 0) findReg_keyZctl rfl firstCause_alone rfl (by decide)
    rfl hs hm).trans ?_)
  rw [enteredBit_of_local rfl, State.trigger_keyZctl, if_neg Nat.zero_ne_one]

theorem exec_zeroiseGo_permitted : exec (.zeroiseGo who) s =
    .next ((s.zeroiseGo who).1.send (.regCause who R.KEY_ZCTL (s.zeroiseGo who).2)) := by
  refine congrArg Host.Outcome.next ((State.writeBit_of_trigger (bit := 1) findReg_keyZctl rfl firstCause_alone rfl (by decide)
    rfl hs hm).trans ?_)
  rw [enteredBit_of_local rfl, State.trigger_keyZctl, if_pos rfl]

end

theorem State.zeroiseGo_armed {s : State} {who : Requester} {p : Nat} (h : s.key.arm = some (who, p)) (hp : s.now ≤ p + 1000) :
    s.zeroiseGo who = (s.zeroiseLine 0x800, Cause.OK) := by
  rw [State.zeroiseGo, h]
  exact if_pos ⟨rfl, hp⟩

theorem State.zeroiseGo_unarmed {s : State} {who : Requester} (h : ∀ p, s.key.arm = some (who, p) → p + 1000 < s.now) :
    s.zeroiseGo who = (s, Cause.REG_RANGE) := by
  unfold State.zeroiseGo
  split
  · next a p ha =>
    refine if_neg fun ⟨e, hp⟩ => ?_
    have := h p (e ▸ ha)
    omega
  · rfl

/-- A write that the register's checks refuse has no effect but its cause. -/
theorem State.writeFor_refused {s : State} {who : Requester} {addr c : Nat} {r : RegSpec} (hr : findReg addr = some r)
    (hl : localBlock addr = true) (hc : s.writeRefused who addr = c) (h : c ≠ Cause.OK) (value mask : Word) :
    s.writeFor who addr value mask = s.send (.regCause who addr c) := by
  have hreg : s.writeReg who addr value mask = (s, c) := by
    simp only [State.writeReg, hr, hc, if_neg h]
  have hport : s.portWrite who addr value mask = (s, c) := by
    unfold State.portWrite
    split
    · exact hreg
    · rw [if_pos hl, hreg]
  rw [State.writeFor, hport]

theorem State.writeRefused_of_block {s : State} {who : Requester} {addr : Nat} {r : RegSpec} (hr : findReg addr = some r)
    (h : s.mayWriteBlock who addr = false) : s.writeRefused who addr ≠ Cause.OK := by
  rw [State.writeRefused_of_findReg s who hr, h]
  split
  · decide
  · rw [if_pos (by rfl)]
    decide

/-- A context without its session and its handshake. -/
def Ctx.closed (x : Ctx) : Ctx := { x with session := none, handshake := none }

/-- Every session is closed, and every handshake. -/
theorem State.ctx_closeSessions_none (s : State) (c : Nat) :
    (s.closeSessions.ctx c).session = none ∧ (s.closeSessions.ctx c).handshake = none :=
  Map.findD_mapVals (f := fun _ => Ctx.closed) (m := s.host.ctxs) (a := ({} : Ctx)) (b := ({} : Ctx))
    (fun _ y : Ctx => y.session = none ∧ y.handshake = none) ⟨rfl, rfl⟩ fun _ => ⟨rfl, rfl⟩

/-! ### The zeroise (R350 to R353) -/

theorem RegFile.get_puts_other {l : List (Nat × Word)} {a : Nat} (h : ∀ p ∈ l, a ≠ p.1) : ∀ m : RegFile,
    (m.puts l).get a = m.get a := by
  induction l with
  | nil => exact fun _ => rfl
  | cons p l ih =>
    exact fun m => (ih (fun q hq => h q (.tail _ hq)) (m.put p.1 p.2)).trans (RegFile.get_put_other _ (h p (.head _)))

theorem RegFile.get_put_zero {m : RegFile} (hm : m.wf = true) (a : Nat) : (m.put a 0).get a = 0 := by
  cases hr : findReg a with
  | none => exact RegFile.get_absent (RegFile.put_wf a 0 hm) hr
  | some r => exact (RegFile.get_put_same 0 hm hr).trans BitVec.zero_and

/-- Registers that are put to 0 read 0. -/
theorem RegFile.get_puts_zero {l : List (Nat × Word)} {a : Nat} (hw : ∀ p ∈ l, p.2 = 0) (ha : ∃ p ∈ l, p.1 = a) :
    ∀ m : RegFile, m.wf = true → (m.puts l).get a = 0 := by
  induction l with
  | nil => exact absurd ha (by simp)
  | cons p l ih =>
    intro m hm
    by_cases hl : ∃ q ∈ l, q.1 = a
    · exact ih (fun q hq => hw q (.tail _ hq)) hl _ (RegFile.put_wf _ _ hm)
    · obtain ⟨q, hq, rfl⟩ := ha
      rcases List.mem_cons.mp hq with rfl | hq
      · refine (RegFile.get_puts_other (fun x hx e => hl ⟨x, hx, e.symm⟩) _).trans ?_
        show (m.put q.1 q.2).get q.1 = 0
        rw [hw _ (.head _)]
        exact RegFile.get_put_zero hm _
      · exact absurd ⟨q, hq, rfl⟩ hl

/-- KEY_ZSRC, with its thirteen sources. -/
def keyZsrcReg : RegSpec := ⟨R.KEY_ZSRC, [], false, [⟨12, 12, .W1C, 0, .all⟩, ⟨11, 11, .W1C, 0, .all⟩, ⟨10, 10, .W1C, 0, .all⟩,
  ⟨9, 9, .W1C, 0, .all⟩, ⟨8, 8, .W1C, 0, .all⟩, ⟨7, 0, .W1C, 0, .all⟩]⟩

theorem findReg_keyZsrc : findReg R.KEY_ZSRC = some keyZsrcReg := by decide +kernel

theorem keyZsrc_mask : keyZsrcReg.fieldMask = 0x1FFF := by decide +kernel

theorem setWidth_and_mask (src : BitVec 13) : src.setWidth 32 &&& 0x1FFF = src.setWidth 32 := by
  apply BitVec.eq_of_getLsbD_eq
  intro i hi
  have hmask : ∀ i < 13, (0x1FFF : BitVec 32).getLsbD i = true := by decide
  rw [BitVec.getLsbD_and, BitVec.getLsbD_setWidth]
  by_cases h : i < 13
  · rw [hmask i h, Bool.and_true]
  · rw [BitVec.getLsbD_of_ge src i (by omega), Bool.and_false, Bool.false_and]

/-- KEY_ZSRC takes its sources with those it held. -/
theorem RegFile.get_zsrc {m : RegFile} (hm : m.wf = true) {w : Word} (hw : w &&& 0x1FFF = w) :
    (m.put R.KEY_ZSRC (m.get R.KEY_ZSRC ||| w)).get R.KEY_ZSRC = m.get R.KEY_ZSRC ||| w := by
  have hold := RegFile.get_and_fieldMask hm findReg_keyZsrc
  rw [keyZsrc_mask] at hold
  rw [RegFile.get_put_same _ hm findReg_keyZsrc, keyZsrc_mask, BitVec.and_comm, BitVec.and_or_distrib_left, BitVec.and_comm,
    hold, BitVec.and_comm, hw]

/-- What KEY_STAT and PPY_STAT show of a zeroise. -/
def zeroFields : List (FieldRef × Nat) :=
  [(F.KEY_STAT.STATE, 2), (F.KEY_STAT.ZEROISE_SEEN, 1), (F.KEY_STAT.ENROL_PENDING, 0), (F.KEY_STAT.HSS_READY, 0),
    (F.PPY_STAT.VKEY, 0)]

theorem zeroRefs_apart : fieldsApart [F.KEY_STAT.STATE, F.KEY_STAT.ZEROISE_SEEN, F.KEY_STAT.ENROL_PENDING,
    F.KEY_STAT.HSS_READY, F.PPY_STAT.VKEY] = true := by decide +kernel

/-- The words of the identity, cleared. -/
def identZeros : List (Nat × Word) := (List.range 8).map fun i => (R.KEY_IDENT i, 0)

/-- The registers of a zeroise, KEY_ZSRC reading `z`. -/
def zeroRegs (m : RegFile) (z : Word) : RegFile := ((m.put R.KEY_ZSRC z).setFields zeroFields).puts identZeros

theorem identZeros_addr {a : Nat} (h : ∀ i < 8, a ≠ R.KEY_IDENT i) : ∀ p ∈ identZeros, a ≠ p.1 := by
  intro p hp
  obtain ⟨i, hi, rfl⟩ := List.mem_map.mp hp
  exact h i (List.mem_range.mp hi)

theorem zeroFields_addr : ∀ e ∈ zeroFields, e.1.addr = R.KEY_STAT ∨ e.1.addr = R.PPY_STAT := by decide

theorem keyIdent_apart : ∀ i < 8, R.KEY_ZSRC ≠ R.KEY_IDENT i ∧ R.KEY_STAT ≠ R.KEY_IDENT i ∧ R.PPY_STAT ≠ R.KEY_IDENT i := by
  decide +kernel

theorem zeroRegs_zsrc {m : RegFile} (hm : m.wf = true) {w : Word} (hw : w &&& 0x1FFF = w) :
    (zeroRegs m (m.get R.KEY_ZSRC ||| w)).get R.KEY_ZSRC = m.get R.KEY_ZSRC ||| w := by
  refine (RegFile.get_puts_other (identZeros_addr fun i hi => (keyIdent_apart i hi).1) _).trans ?_
  refine (RegFile.get_setFields_other fun e he h => ?_).trans (RegFile.get_zsrc hm hw)
  rcases zeroFields_addr e he with hz | hz
  · rw [hz] at h
    exact absurd h (by decide)
  · rw [hz] at h
    exact absurd h (by decide)

theorem zeroRegs_ident {m : RegFile} (hm : m.wf = true) (z : Word) {i : Nat} (h : i < 8) :
    (zeroRegs m z).get (R.KEY_IDENT i) = 0 := by
  refine RegFile.get_puts_zero (fun p hp => ?_)
    ⟨(R.KEY_IDENT i, 0), List.mem_map_of_mem (f := fun i => (R.KEY_IDENT i, (0 : Word))) (List.mem_range.mpr h), rfl⟩ _
    (RegFile.setFields_wf _ (RegFile.put_wf _ _ hm))
  obtain ⟨j, -, rfl⟩ := List.mem_map.mp hp
  rfl

theorem zeroRegs_fld {m : RegFile} (hm : m.wf = true) (z : Word) {f : FieldRef} {v : Nat} (hf : (f, v) ∈ zeroFields) :
    (zeroRegs m z).fld f = v % 2 ^ (f.hi - f.lo + 1) := by
  have hget : (zeroRegs m z).get f.addr = ((m.put R.KEY_ZSRC z).setFields zeroFields).get f.addr := by
    refine RegFile.get_puts_other (identZeros_addr fun i hi => ?_) _
    obtain ⟨-, hk, hp⟩ := keyIdent_apart i hi
    rcases zeroFields_addr _ hf with h | h
    · exact fun e => hk (h.symm.trans e)
    · exact fun e => hp (h.symm.trans e)
  rw [RegFile.fld, hget]
  exact RegFile.fld_setFields_of_apart _ (RegFile.put_wf _ _ hm) zeroRefs_apart rfl hf

theorem zeroRegs_other (m : RegFile) (z : Word) {a : Nat}
    (ha : a ∉ [R.KEY_ZSRC, R.KEY_STAT, R.PPY_STAT] ++ (List.range 8).map R.KEY_IDENT) : (zeroRegs m z).get a = m.get a := by
  simp only [List.mem_append, List.mem_cons, List.not_mem_nil, or_false, not_or, List.mem_map, List.mem_range] at ha
  obtain ⟨⟨hz, hk, hp⟩, hi⟩ := ha
  refine (RegFile.get_puts_other (identZeros_addr fun i h e => hi ⟨i, h, e.symm⟩) _).trans ?_
  refine (RegFile.get_setFields_other fun e he h => ?_).trans (RegFile.get_put_other _ hz)
  rcases zeroFields_addr e he with hx | hx
  · exact hk (h.trans hx)
  · exact hp (h.trans hx)

/-- A scheduled reset other than that of an enrolment stays (R351). -/
def dueKept (d : Option DueReset) : Option DueReset :=
  match d with
  | some d => if d.cause = 0x06 then none else some d
  | none => none

theorem dueKept_cause {x : Option DueReset} {d : DueReset} (h : dueKept x = some d) : d.cause ≠ 0x06 := by
  unfold dueKept at h
  split at h
  · split at h
    · cases h
    · next hc =>
      cases h
      exact hc
  · cases h

/-- The state as its keys are cleared, with the registers `r` (R350, R351). -/
def State.zeroed (s : State) (r : RegFile) : State :=
  { s with
    regs := r
    ing := { s.ing with keys := [], vkeys := [] }
    key := { s.key with helper := false, arm := none, waiting := [] }
    power := { s.power with due := dueKept s.power.due } }

section
variable (s : State) (r : RegFile)

theorem State.zeroed_regs : (s.zeroed r).regs = r := rfl

theorem State.zeroed_due : (s.zeroed r).power.due = dueKept s.power.due := rfl

theorem State.zeroed_frame : s.zeroed r = { s with
    regs := (s.zeroed r).regs, ing := { s.ing with keys := [], vkeys := [] }, key := (s.zeroed r).key
    power := (s.zeroed r).power } := rfl

end

/-- The sources that KEY_ZSRC then shows. -/
def State.zsrc (s : State) (src : ZSource) : Word := s.regs.get R.KEY_ZSRC ||| src.setWidth 32

theorem State.zsrc_eq (s : State) (src : ZSource) :
    BitVec.ofNat 32 ((s.regs.get R.KEY_ZSRC).toNat ||| src.toNat) = s.zsrc src := by
  apply BitVec.eq_of_toNat_eq
  rw [State.zsrc, BitVec.toNat_or, BitVec.toNat_ofNat, BitVec.toNat_setWidth]
  have h13 : src.toNat < 2 ^ 32 := Nat.lt_of_lt_of_le src.isLt (by decide)
  rw [Nat.mod_eq_of_lt h13, Nat.mod_eq_of_lt (Nat.or_lt_two_pow (s.regs.get R.KEY_ZSRC).isLt h13)]

theorem State.zsrc_toNat (s : State) (src : ZSource) : (s.regs.get R.KEY_ZSRC).toNat ||| src.toNat = (s.zsrc src).toNat := by
  have h13 : src.toNat < 2 ^ 32 := Nat.lt_of_lt_of_le src.isLt (by decide)
  rw [State.zsrc, BitVec.toNat_or, BitVec.toNat_setWidth, Nat.mod_eq_of_lt h13]

theorem State.zeroise_eq (s : State) (src : ZSource) : s.zeroise src =
    ((s.key.waiting.foldl (fun (t : State) w => t.endItem w.slot w.item Cause.ZEROISED)
      (s.zeroed (zeroRegs s.regs (s.zsrc src)))).closeSessions.showSlots).post Ev.ZEROISE [b8 (s.zsrc src).toNat] := by
  rw [← State.zsrc_toNat]
  rw [← State.zsrc_eq, zeroRegs, zeroFields]
  simp only [State.zeroise, RegFile.setFields_cons, RegFile.setFields_nil, RegFile.flag_eq, if_true, Bool.false_eq_true,
    if_false]
  rfl

theorem State.zeroise_ctx (s : State) (src : ZSource) (c : Nat) :
    ((s.zeroise src).ctx c).session = none ∧ ((s.zeroise src).ctx c).handshake = none := by
  rw [State.zeroise_eq]
  generalize List.foldl _ _ s.key.waiting = t
  rw [State.ctx, State.post_host, ← State.ctx, State.showSlots_ctx]
  exact t.ctx_closeSessions_none c

/-! ### The line with the rails off (R352) -/

/-- The sources latched, with the registers `r`. -/
def State.zeroLatched (s : State) (r : RegFile) : State := { s with regs := r, key := { s.key with latched := true } }

theorem State.zeroLatched_regs (s : State) (r : RegFile) : (s.zeroLatched r).regs = r := rfl

theorem State.zeroLatched_frame (s : State) (r : RegFile) :
    s.zeroLatched r = { s with regs := (s.zeroLatched r).regs, key := (s.zeroLatched r).key } := rfl

/-- A source as it is latched in VBAT. -/
def latchedWord (src : ZSource) : Word := src.setWidth 32 ||| 0x1000

theorem latchedWord_mask (src : ZSource) : latchedWord src &&& 0x1FFF = latchedWord src := by
  rw [latchedWord, BitVec.and_comm, BitVec.and_or_distrib_left, BitVec.and_comm, setWidth_and_mask]
  rfl

theorem State.zeroiseLine_off {s : State} {src : ZSource} (h : src ≠ 0) (hp : s.power.phase = .off) :
    s.zeroiseLine src = s.zeroLatched (s.regs.put R.KEY_ZSRC (s.regs.get R.KEY_ZSRC ||| latchedWord src)) := by
  have hw : BitVec.ofNat 32 ((s.regs.get R.KEY_ZSRC).toNat ||| src.toNat ||| 2 ^ 12) = s.regs.get R.KEY_ZSRC ||| latchedWord src := by
    rw [State.zsrc_toNat, latchedWord, ← BitVec.or_assoc, ← State.zsrc]
    apply BitVec.eq_of_toNat_eq
    rw [BitVec.toNat_ofNat, BitVec.toNat_or]
    exact Nat.mod_eq_of_lt (Nat.or_lt_two_pow (s.zsrc src).isLt (by decide))
  rw [← hw]
  exact (if_neg h).trans (if_pos hp)

theorem State.zeroiseLine_on {s : State} {src : ZSource} (h : src ≠ 0) (hp : s.power.phase ≠ .off) :
    s.zeroiseLine src = (s.zeroise src).zeroisePair := (if_neg h).trans (if_neg hp)

/-! ### A member out of service (R385, R387) -/

/-- A member without a role: its pair state cleared, and three fields written. -/
def State.outWith (s : State) (sync prot role : FieldRef) : State :=
  let s1 := (s.setF sync 0).flag prot false
  ({ s1 with pair := { s1.pair with
    actOut := false, shared := false, held := [], mismatch := none, downAt := none, leaving := 0 } } : State).setF role 3

section
variable (s : State) (sync prot role : FieldRef)

theorem State.outWith_regs : (s.outWith sync prot role).regs = ((s.regs.setF sync 0).flag prot false).setF role 3 := rfl

theorem State.outWith_pair : (s.outWith sync prot role).pair = { s.pair with
    actOut := false, shared := false, held := [], mismatch := none, downAt := none, leaving := 0 } := rfl

theorem State.outWith_host : (s.outWith sync prot role).host = s.host := rfl

end

theorem State.becomeOut_eq (s : State) : s.becomeOut =
    (s.failLocal true).closeSessions.outWith F.PAIR_STAT.SYNC F.PAIR_STAT.PROTECTED F.PAIR_STAT.ROLE := rfl

theorem pairRefs_apart : fieldsApart [F.PAIR_STAT.SYNC, F.PAIR_STAT.PROTECTED, F.PAIR_STAT.ROLE] = true := by decide +kernel

/-- What a member out of service shows and keeps. -/
theorem State.becomeOut_shown {s : State} (hs : Inv s) : s.becomeOut.roleNow = 3 ∧ s.becomeOut.syncNow = 0 ∧
    s.becomeOut.fld F.PAIR_STAT.PROTECTED = 0 := by
  have hinv : Inv (s.failLocal true).closeSessions := (State.failLocal_keeps (Keeps.refl s) true).regs hs
  have hregs : s.becomeOut.regs = (s.failLocal true).closeSessions.regs.setFields
      [(F.PAIR_STAT.SYNC, 0), (F.PAIR_STAT.PROTECTED, 0), (F.PAIR_STAT.ROLE, 3)] := by
    rw [State.becomeOut_eq, State.outWith_regs]
    simp only [RegFile.setFields_cons, RegFile.setFields_nil, RegFile.flag_eq, Bool.false_eq_true, if_false]
  exact ⟨State.fld_of_setFields hregs hinv pairRefs_apart rfl (.tail _ (.tail _ (.head _))),
    State.fld_of_setFields hregs hinv pairRefs_apart rfl (.head _),
    State.fld_of_setFields hregs hinv pairRefs_apart rfl (.tail _ (.head _))⟩

theorem State.becomeOut_ctx (s : State) (c : Nat) :
    (s.becomeOut.ctx c).session = none ∧ (s.becomeOut.ctx c).handshake = none := by
  rw [State.becomeOut_eq, State.ctx, State.outWith_host, ← State.ctx]
  exact (s.failLocal true).ctx_closeSessions_none c

/-! ### The link of a pair that goes down (R386) -/

/-- The pair state without its lane keys: a part of `pairLinkDown`. -/
def State.keysLost (s : State) : State := { s with pair := { s.pair with
  keys := none, tagFails := [], downAt := if s.roleNow == 1 && s.syncNow == 2 then some s.now else s.pair.downAt } }

theorem State.pairLinkDown_eq (s : State) : s.pairLinkDown =
    if s.syncNow = 0 ∨ s.syncNow = 3 then s.keysLost
    else if s.roleNow == 1 && s.syncNow == 2 then (s.keysLost.setF F.PAIR_STAT.SYNC 0).flag F.PAIR_STAT.PROTECTED false
    else s.keysLost.outOfStep 0 := rfl

/-! ### Trees (R359) -/

/-- The trees that stand once a job is complete (R359). -/
def treesAfter (trees : List Nat) (j : Nat) : List Nat :=
  let k := if trees.contains j then j + 1 else j
  let kept := trees.filter fun x => decide (j ≤ x)
  if k < 1024 ∧ !kept.contains k then kept ++ [k] else kept

theorem mem_treesAfter (trees : List Nat) (j x : Nat) : x ∈ treesAfter trees j ↔
    (x ∈ trees ∧ j ≤ x) ∨ x < 1024 ∧ x = j + (if j ∈ trees then 1 else 0) := by
  have hk : (if trees.contains j then j + 1 else j) = j + (if j ∈ trees then 1 else 0) := by
    by_cases h : j ∈ trees <;> simp [h]
  unfold treesAfter
  dsimp only
  rw [hk]
  generalize j + (if j ∈ trees then 1 else 0) = k
  split
  · next h =>
    simp only [List.mem_append, List.mem_filter, decide_eq_true_eq, List.mem_singleton]
    exact or_congr_right ⟨fun e => ⟨e ▸ h.1, e⟩, And.right⟩
  · next h =>
    rw [List.mem_filter, decide_eq_true_eq]
    refine ⟨.inl, fun hx => ?_⟩
    rcases hx with hx | ⟨hlt, rfl⟩
    · exact hx
    · have : x ∈ trees.filter fun y => decide (j ≤ y) := by
        by_contra hn
        exact h ⟨hlt, by rw [Bool.not_eq_true', ← Bool.not_eq_true, List.contains_iff_mem]; exact hn⟩
      simpa using this

/-- The trees set, with a flag. -/
def State.treesSet (s : State) (l : List Nat) (f : FieldRef) (b : Bool) : State :=
  ({ s with key := { s.key with trees := l } } : State).flag f b

section
variable (s : State) (l : List Nat) (f : FieldRef) (b : Bool)

theorem State.treesSet_regs : (s.treesSet l f b).regs = (s.flag f b).regs := rfl

theorem State.treesSet_key : (s.treesSet l f b).key = { s.key with trees := l } := rfl

theorem State.treesSet_frame : s.treesSet l f b = { s with regs := (s.treesSet l f b).regs, key := (s.treesSet l f b).key } := rfl

end

/-- The tree of a leaf, complete: a part of `execHssTreeJob`. -/
def State.treeDone (s : State) : State :=
  s.treesSet (treesAfter s.key.trees (s.leaf / 32768)) F.KEY_STAT.HSS_READY
    ((treesAfter s.key.trees (s.leaf / 32768)).contains (s.leaf / 32768))

theorem exec_hssTreeJob_ready {s : State} (h : s.keysReady = true) (readBack : Bool) :
    exec (.hssTreeJob readBack) s = .next (s.treeDone.signWaiting readBack) :=
  (if_neg (by simp [h]) : execHssTreeJob readBack s = _)

theorem ok_hssReady : F.KEY_STAT.HSS_READY.ok = true := by decide +kernel

/-! ### The random source (R348) -/

/-- A health failure, with its three fields. -/
def State.rngFailed (s : State) (ok seen cnt : FieldRef) : State :=
  (((s.flag ok false).flag seen true).bump cnt).post Ev.RNG_FAIL []

theorem State.rngFailed_regs (s : State) (ok seen cnt : FieldRef) : (s.rngFailed ok seen cnt).regs =
    (((s.flag ok false).flag seen true).bump cnt).regs := rfl

theorem State.rngFailed_frame (s : State) (ok seen cnt : FieldRef) :
    s.rngFailed ok seen cnt = { s.post Ev.RNG_FAIL [] with regs := (s.rngFailed ok seen cnt).regs } := rfl

theorem State.onlyRegs_rngFailed (s : State) {ok seen cnt : FieldRef} {l : List Nat} (hok : ok.addr ∈ l) (hseen : seen.addr ∈ l)
    (hcnt : cnt.addr ∈ l) : OnlyRegs l s (s.rngFailed ok seen cnt) :=
  ((((OnlyRegs.refl l s).flag false hok).flag true hseen).bump 1 hcnt).post Ev.RNG_FAIL []

theorem rngRefs_apart : F.KEY_RNG.OK.ok = true ∧ F.KEY_RNG.FAIL_SEEN.ok = true ∧ F.KEY_RNG.FAIL_CNT.ok = true ∧
    F.KEY_RNG.OK.apart F.KEY_RNG.FAIL_SEEN = true ∧ F.KEY_RNG.OK.apart F.KEY_RNG.FAIL_CNT = true ∧
    F.KEY_RNG.FAIL_SEEN.apart F.KEY_RNG.FAIL_CNT = true ∧ F.KEY_RNG.FAIL_CNT.apart F.KEY_RNG.OK = true ∧
    F.KEY_RNG.FAIL_CNT.apart F.KEY_RNG.FAIL_SEEN = true := by decide +kernel

/-! ### The cases of O50 -/

/-- ARM and GO of a requester that may write KEY_ZCTL, and of one that may not (R354). -/
theorem exec_keyZctl (who : Requester) (s : State) (hs : Inv s) :
    (MayWrite s who R.KEY_ZCTL →
      exec (.zeroiseArm who) s = .next (({ s with key := { s.key with arm := some (who, s.now) } } : State).send
        (.regCause who R.KEY_ZCTL Cause.OK)) ∧
      (∀ p, s.key.arm = some (who, p) → s.now ≤ p + 1000 →
        exec (.zeroiseGo who) s = .next ((s.zeroiseLine 0x800).send (.regCause who R.KEY_ZCTL Cause.OK))) ∧
      ((∀ p, s.key.arm = some (who, p) → p + 1000 < s.now) →
        exec (.zeroiseGo who) s = .next (s.send (.regCause who R.KEY_ZCTL Cause.REG_RANGE)))) ∧
    (s.mayWriteBlock who R.KEY_ZCTL = false →
      ∃ c, c ≠ Cause.OK ∧ exec (.zeroiseArm who) s = .next (s.send (.regCause who R.KEY_ZCTL c)) ∧
        exec (.zeroiseGo who) s = .next (s.send (.regCause who R.KEY_ZCTL c))) := by
  refine ⟨fun hm => ⟨exec_zeroiseArm_permitted hs hm, fun p ha hp => ?_, fun ha => ?_⟩, fun hb => ?_⟩
  · rw [exec_zeroiseGo_permitted hs hm, State.zeroiseGo_armed ha hp]
  · rw [exec_zeroiseGo_permitted hs hm, State.zeroiseGo_unarmed ha]
  · have hc := State.writeRefused_of_block findReg_keyZctl hb
    exact ⟨_, hc, congrArg Host.Outcome.next (State.writeFor_refused findReg_keyZctl rfl rfl hc _ _),
      congrArg Host.Outcome.next (State.writeFor_refused findReg_keyZctl rfl rfl hc _ _)⟩

/-- The detectors assert the line, but with the rails off (R349, R352). -/
theorem exec_zeroise (glitch temp volt : Bool) (s : State) :
    (s.power.phase = .off → exec (.zeroise glitch temp volt) s = .next s) ∧
    (s.power.phase ≠ .off → exec (.zeroise glitch temp volt) s = .next (s.zeroiseLine
      (BitVec.ofNat 13 (glitch.toNat * 256 + temp.toNat * 512 + volt.toNat * 1024)))) := by
  refine ⟨fun h => congrArg Host.Outcome.next (if_pos h), fun h => (congrArg Host.Outcome.next (if_neg h)).trans ?_⟩
  cases glitch <;> cases temp <;> cases volt <;> rfl

theorem mem_zeroFields : (F.KEY_STAT.STATE, 2) ∈ zeroFields ∧ (F.KEY_STAT.ZEROISE_SEEN, 1) ∈ zeroFields ∧
    (F.KEY_STAT.ENROL_PENDING, 0) ∈ zeroFields ∧ (F.KEY_STAT.HSS_READY, 0) ∈ zeroFields ∧
    (F.PPY_STAT.VKEY, 0) ∈ zeroFields := by decide

theorem State.zeroed_fld (s : State) (hs : Inv s) (z : Word) {f : FieldRef} {v : Nat} (hf : (f, v) ∈ zeroFields) :
    (s.zeroed (zeroRegs s.regs z)).fld f = v % 2 ^ (f.hi - f.lo + 1) := by
  rw [State.fld, State.zeroed_regs]
  exact zeroRegs_fld hs z hf

/-- The line while the main supplies are down (R352). -/
theorem State.zeroiseLine_latches {s : State} {src : ZSource} (hs : Inv s) (h : src ≠ 0) (hp : s.power.phase = .off) :
    ∃ t, s.zeroiseLine src = t ∧ t.key = { s.key with latched := true } ∧
      t.regs.get R.KEY_ZSRC = s.regs.get R.KEY_ZSRC ||| (src.setWidth 32 ||| 0x1000) ∧ OnlyRegs [R.KEY_ZSRC] s t ∧
      t = { s with regs := t.regs, key := t.key } := by
  refine ⟨_, State.zeroiseLine_off h hp, rfl, ?_, fun a ha => ?_, State.zeroLatched_frame _ _⟩
  · rw [State.zeroLatched_regs]
    exact RegFile.get_zsrc hs (latchedWord_mask src)
  · rw [State.zeroLatched_regs]
    exact RegFile.get_put_other _ (by simpa using ha)

/-- The zeroise of the line while the main supplies are up (R350, R351, R353). -/
theorem State.zeroiseLine_zeroises {s : State} {src : ZSource} (hs : Inv s) (h : src ≠ 0) (hp : s.power.phase ≠ .off) :
    ∃ u v : State, v = s.zeroise src ∧ s.zeroiseLine src = v.zeroisePair ∧
      v = ((s.key.waiting.foldl (fun (t : State) w => t.endItem w.slot w.item Cause.ZEROISED) u).closeSessions.showSlots).post
        Ev.ZEROISE [b8 (s.regs.get R.KEY_ZSRC ||| src.setWidth 32).toNat] ∧
      (∀ c, (v.ctx c).session = none ∧ (v.ctx c).handshake = none) ∧ u.fld F.PPY_STAT.VKEY = 0 ∧
      u.fld F.KEY_STAT.STATE = 2 ∧ u.fld F.KEY_STAT.ZEROISE_SEEN = 1 ∧ u.fld F.KEY_STAT.HSS_READY = 0 ∧
      u.fld F.KEY_STAT.ENROL_PENDING = 0 ∧ u.regs.get R.KEY_ZSRC = s.regs.get R.KEY_ZSRC ||| src.setWidth 32 ∧
      (∀ i < 8, u.regs.get (R.KEY_IDENT i) = 0) ∧ u.ing.keys = [] ∧ u.ing.vkeys = [] ∧ u.key.helper = false ∧
      u.key.arm = none ∧ u.key.waiting = [] ∧
      (∀ d, u.power.due = some d → d.cause ≠ 0x06) ∧
      OnlyRegs ([R.KEY_ZSRC, R.KEY_STAT, R.PPY_STAT] ++ (List.range 8).map R.KEY_IDENT) s u ∧
      u = { s with regs := u.regs, ing := { s.ing with keys := [], vkeys := [] }, key := u.key, power := u.power } := by
  have hwf : s.regs.wf = true := hs
  obtain ⟨hstate, hseen, hpending, hready, hvkey⟩ := mem_zeroFields
  refine ⟨s.zeroed (zeroRegs s.regs (s.zsrc src)), _, rfl, State.zeroiseLine_on h hp, State.zeroise_eq s src,
    State.zeroise_ctx s src, ?_, ?_, ?_, ?_, ?_, ?_, fun i hi => ?_, rfl, rfl, rfl, rfl, rfl, fun d hd => ?_, fun a ha => ?_,
    State.zeroed_frame _ _⟩
  · exact s.zeroed_fld hs _ hvkey
  · exact s.zeroed_fld hs _ hstate
  · exact s.zeroed_fld hs _ hseen
  · exact s.zeroed_fld hs _ hready
  · exact s.zeroed_fld hs _ hpending
  · rw [State.zeroed_regs]
    exact zeroRegs_zsrc hwf (setWidth_and_mask src)
  · rw [State.zeroed_regs]
    exact zeroRegs_ident hwf _ hi
  · exact dueKept_cause ((State.zeroed_due s _).symm.trans hd)
  · rw [State.zeroed_regs]
    exact zeroRegs_other _ _ ha

/-- The link of a pair that goes down takes the lane keys (R386). -/
theorem State.pairLinkDown_keys {s : State} (h : s.syncNow = 0 ∨ s.syncNow = 3 ∨ (s.roleNow = 1 ∧ s.syncNow = 2)) :
    s.pairLinkDown.pair.keys = none ∧ s.pairLinkDown.host = s.host := by
  rw [State.pairLinkDown_eq]
  split
  · exact ⟨rfl, rfl⟩
  · next hn =>
    obtain ⟨hr, hy⟩ : s.roleNow = 1 ∧ s.syncNow = 2 := by
      rcases h with h | h | h
      · exact absurd (.inl h) hn
      · exact absurd (.inr h) hn
      · exact h
    rw [if_pos (by rw [hr, hy]; rfl), State.flag_pair, State.setF_pair, State.flag_host, State.setF_host]
    exact ⟨rfl, rfl⟩

/-- A zeroise takes the pair link down; a standby leaves service, and an active member in step leaves it later (R387). -/
theorem State.zeroisePair_cases {s : State} (hs : Inv s) : ∃ u : State, u = s.pairLinkDown ∧
    ((s.syncNow = 0 ∨ s.syncNow = 3 ∨ (s.roleNow = 1 ∧ s.syncNow = 2)) → u.pair.keys = none ∧ u.host = s.host) ∧
    ((s.roleNow = 0 ∨ (s.roleNow = 2 ∧ s.syncNow ≠ 2)) → s.zeroisePair = u) ∧
    ((s.roleNow = 2 ∧ s.syncNow = 2) → s.zeroisePair = { u with pair := { u.pair with leaving := 2 } }) ∧
    ((s.roleNow = 1 ∨ s.roleNow = 3) → ∃ t : State, s.zeroisePair = t ∧ t.roleNow = 3 ∧ t.syncNow = 0 ∧
      t.fld F.PAIR_STAT.PROTECTED = 0 ∧ t.pair.actOut = false ∧ t.pair.shared = false ∧ t.pair.held = [] ∧
      t.pair.leaving = 0 ∧ (∀ c, (t.ctx c).session = none ∧ (t.ctx c).handshake = none)) := by
  refine ⟨_, rfl, State.pairLinkDown_keys, fun h => if_pos h, fun ⟨hr, hy⟩ => ?_, fun h => ?_⟩
  · rw [State.zeroisePair, if_neg (by rw [hr, hy]; decide), if_pos hr]
  · have hout : s.zeroisePair = s.pairLinkDown.becomeOut := by
      rw [State.zeroisePair, if_neg (by omega), if_neg (by omega)]
    have hinv : Inv s.pairLinkDown := (State.pairLinkDown_keeps (Keeps.refl s)).regs hs
    obtain ⟨hrole, hsync, hprot⟩ := State.becomeOut_shown hinv
    have hpair := congrArg State.pair (State.becomeOut_eq s.pairLinkDown)
    rw [State.outWith_pair] at hpair
    exact ⟨_, hout, hrole, hsync, hprot, congrArg PairState.actOut hpair, congrArg PairState.shared hpair,
      congrArg PairState.held hpair, congrArg PairState.leaving hpair, State.becomeOut_ctx _⟩

/-- A tree job completes the tree of leaf N, or else the next (R359). -/
theorem exec_hssTreeJob (readBack : Bool) {s : State} (hs : Inv s) :
    (s.keysReady = false → exec (.hssTreeJob readBack) s = .next s) ∧
    (s.keysReady = true → ∃ u l, exec (.hssTreeJob readBack) s = .next (u.signWaiting readBack) ∧
      u.key = { s.key with trees := l } ∧
      (∀ j, j ∈ l ↔ (j ∈ s.key.trees ∧ s.leaf / 32768 ≤ j) ∨
        j < 1024 ∧ j = s.leaf / 32768 + (if s.leaf / 32768 ∈ s.key.trees then 1 else 0)) ∧
      u.fld F.KEY_STAT.HSS_READY = (if s.leaf / 32768 ∈ l then 1 else 0) ∧ OnlyRegs [R.KEY_STAT] s u ∧
      u = { s with regs := u.regs, key := u.key } ∧ (s.key.waiting = [] → u.signWaiting readBack = u)) := by
  refine ⟨fun h => ?_, fun h => ⟨s.treeDone, _, exec_hssTreeJob_ready h readBack, State.treesSet_key _ _ _ _,
    mem_treesAfter _ _, ?_, ?_, State.treesSet_frame _ _ _ _, fun hw => ?_⟩⟩
  · exact (if_pos (by simp [h]) : execHssTreeJob readBack s = _)
  · rw [State.fld, State.treeDone, State.treesSet_regs]
    refine (State.fld_flag_same _ hs ok_hssReady).trans ?_
    simp only [List.contains_iff_mem]
  · intro a ha
    rw [State.treeDone, State.treesSet_regs]
    exact (OnlyRegs.refl _ s).flag _ (.head _) a ha
  · rw [State.signWaiting, State.treeDone, State.treesSet_key, hw]
    rfl

/-- A health failure of the random source stops it (R348). -/
theorem exec_rngHealthFail {s : State} (hs : Inv s) : ∃ t, exec .rngHealthFail s = .next t ∧ t.fld F.KEY_RNG.OK = 0 ∧
    t.fld F.KEY_RNG.FAIL_SEEN = 1 ∧ t.fld F.KEY_RNG.FAIL_CNT = min (s.fld F.KEY_RNG.FAIL_CNT + 1) 0xFFFF ∧
    OnlyRegs [R.KEY_RNG] s t ∧ t = { s.post Ev.RNG_FAIL [] with regs := t.regs } := by
  obtain ⟨hok, hseen, hcnt, hos, hoc, hsc, hco, hcs⟩ := rngRefs_apart
  have h1 : Inv (s.flag F.KEY_RNG.OK false) := RegFile.flag_wf F.KEY_RNG.OK false hs
  have h2 : Inv ((s.flag F.KEY_RNG.OK false).flag F.KEY_RNG.FAIL_SEEN true) := RegFile.flag_wf F.KEY_RNG.FAIL_SEEN true h1
  refine ⟨s.rngFailed F.KEY_RNG.OK F.KEY_RNG.FAIL_SEEN F.KEY_RNG.FAIL_CNT, rfl, ?_, ?_, ?_, ?_, State.rngFailed_frame _ _ _ _⟩
  · rw [State.fld, State.rngFailed_regs, ← State.fld, State.fld_bump_other _ h2 hcnt hok hoc, State.fld_flag_other _ h1 hseen hok hos,
      State.fld_flag_same _ hs hok]
    rfl
  · rw [State.fld, State.rngFailed_regs, ← State.fld, State.fld_bump_other _ h2 hcnt hseen hsc, State.fld_flag_same _ h1 hseen]
    rfl
  · rw [State.fld, State.rngFailed_regs, ← State.fld, State.fld_bump_same _ h2 hcnt, State.fld_flag_other _ h1 hseen hcnt hcs,
      State.fld_flag_other _ hs hok hcnt hco]
    rfl
  · exact s.onlyRegs_rngFailed (.head _) (.head _) (.head _)

/-- Settles O50: ARM and GO, the line with its rails up and off, the pair, the trees and the random source. -/
theorem keysAreZeroisedWhenArmedAndKept : Obligations.KeysAreZeroisedWhenArmedAndKept := by
  unfold Obligations.KeysAreZeroisedWhenArmedAndKept
  refine ⟨fun who s hs => exec_keyZctl who s hs, exec_zeroise, fun src s hs => ⟨fun h => if_pos h, State.zeroiseLine_latches hs,
    State.zeroiseLine_zeroises hs⟩, fun s hs => State.zeroisePair_cases hs, fun readBack s hs => exec_hssTreeJob readBack hs,
    fun s hs => exec_rngHealthFail hs, fun s hs => ?_, fun bad d s hd hc => ⟨fun h => ?_, fun hle hp => ?_⟩⟩
  · exact ⟨_, rfl, State.fld_flag_same _ hs rngRefs_apart.1,
      State.fld_flag_other _ hs rngRefs_apart.1 rngRefs_apart.2.2.1 rngRefs_apart.2.2.2.2.2.2.1,
          (OnlyRegs.refl _ s).flag _ (.head _), rfl⟩
  · refine congrArg Host.Outcome.next ?_
    rw [hd]
    exact if_neg fun ⟨_, h2, _⟩ => absurd h (by omega)
  · refine ⟨s.cutReset 0x06 bad, congrArg Host.Outcome.next ?_, rfl, rfl, rfl, fun hr => ?_⟩
    · rw [hd]
      exact if_pos ⟨hc, hle, by simp [hp]⟩
    · rw [State.cutReset, State.finalCheckpoint]
      rw [if_pos (show s.markRole.fld F.LEG_STAT.RUN = 0 from hr)]
      rfl

end Sys2Proof.Machine

/-! Firmware activations and trials end as stated (R372 to R375). -/

namespace Sys2Proof.Machine

set_option Elab.async false

/-! ### Registers set one after another -/

section
variable (s : State) (r : RegFile) (f : FieldRef) (v : Nat) (b : Bool)

theorem State.setF_eq_withRegs : s.setF f v = { s with regs := s.regs.setF f v } := rfl

theorem State.flag_withRegs : ({ s with regs := r } : State).flag f b = { s with regs := r.flag f b } := rfl

end

/-! ### The scheduled activation (R372) -/

theorem exec_activationRestart_due {s : State} (h : s.fld F.FWU_STAT.ACT_PENDING = 1)
    (hd : (∃ p, s.fwu.actAt = some (.inl p) ∧ p ≤ s.now) ∨ (∃ x, s.fwu.actAt = some (.inr x) ∧ x ≤ s.timeSec)) :
    exec .activationRestart s = .next { s with power := { s.power with start := some (0x09, true) } } := by
  refine congrArg Host.Outcome.next (if_pos ⟨h, ?_⟩)
  rcases hd with ⟨p, ha, hp⟩ | ⟨x, ha, hx⟩
  · rw [ha]
    exact decide_eq_true hp
  · rw [ha]
    exact decide_eq_true hx

theorem exec_activationRestart_waits {s : State} (h : s.fld F.FWU_STAT.ACT_PENDING ≠ 1 ∨
    (∀ p, s.fwu.actAt = some (.inl p) → s.now < p) ∧ (∀ x, s.fwu.actAt = some (.inr x) → s.timeSec < x)) :
    exec .activationRestart s = .next s := by
  refine congrArg Host.Outcome.next (if_neg fun ⟨hp, hd⟩ => ?_)
  rcases h with h | ⟨hl, hr⟩
  · exact h hp
  · split at hd
    · next p ha => exact absurd (of_decide_eq_true hd) (Nat.not_le.mpr (hl p ha))
    · next x ha => exact absurd (of_decide_eq_true hd) (Nat.not_le.mpr (hr x ha))
    · cases hd

/-! ### The confirmation of a trial (R374) -/

/-- The boot record is written to the copy that is not the newest (R371). -/
theorem State.writeBoot_eq (s : State) : ∃ boots, s.writeBoot = { s with fwu := { s.fwu with
      bootSeq := (s.fwu.bootSeq + 1) % 2 ^ 64, boots := boots } } ∧
    (boots = (some (s.bootRecord ((s.fwu.bootSeq + 1) % 2 ^ 64)), s.fwu.boots.2) ∨
      boots = (s.fwu.boots.1, some (s.bootRecord ((s.fwu.bootSeq + 1) % 2 ^ 64)))) := by
  exact ⟨_, rfl, ite_eq_or_eq ..⟩

/-- The fields of a confirmed trial: slot `o` is ACTIVE, and the rollback counter reads `rb`. -/
def confirmFields (o rb : Nat) : List (FieldRef × Nat) :=
  [(F.FWU_SLOT_STAT.SLOT_A, 1), (F.FWU_SLOT_STAT.SLOT_B, 1), (F.FWU_STAT.ACTIVE_SLOT, o), (F.FWU_STAT.TRIAL, 0),
    (F.FWU_RB.COUNTER 0, rb)]

theorem confirmRefs_apart : fieldsApart [F.FWU_STAT.STAGE, F.FWU_SLOT_STAT.SLOT_A, F.FWU_SLOT_STAT.SLOT_B,
    F.FWU_STAT.ACTIVE_SLOT, F.FWU_STAT.TRIAL, F.FWU_RB.COUNTER 0] = true := by decide +kernel

theorem confirmRefs_apart' : fieldsApart [F.FWU_SLOT_STAT.SLOT_A, F.FWU_SLOT_STAT.SLOT_B,
    F.FWU_STAT.ACTIVE_SLOT, F.FWU_STAT.TRIAL, F.FWU_RB.COUNTER 0] = true := by decide +kernel

theorem confirmFields_addr (o rb : Nat) : ∀ e ∈ confirmFields o rb, e.1.addr ∈ [R.FWU_STAT, R.FWU_SLOT_STAT, R.FWU_RB 0] := by
  simp only [confirmFields, List.forall_mem_cons]
  refine ⟨by decide, by decide, by decide, by decide, by decide, fun e h => absurd h List.not_mem_nil⟩

/-- The state as a trial is confirmed, with the registers `r`: the boot record is written and the end recorded. -/
def State.confirmedWith (s : State) (r : RegFile) : State := ({ s with regs := r } : State).writeBoot.post Ev.FW_CONFIRMED []

section
variable (s : State) (r : RegFile)

theorem State.confirmedWith_regs : (s.confirmedWith r).regs = r := rfl

theorem State.confirmedWith_frame : s.confirmedWith r = { s.post Ev.FW_CONFIRMED [] with
    regs := (s.confirmedWith r).regs
    fwu := { s.fwu with bootSeq := (s.confirmedWith r).fwu.bootSeq, boots := (s.confirmedWith r).fwu.boots } } := rfl

theorem State.confirmedWith_boots : (s.confirmedWith r).fwu.bootSeq = (s.fwu.bootSeq + 1) % 2 ^ 64 ∧
    ∃ b, ((s.confirmedWith r).fwu.boots = (some b, s.fwu.boots.2) ∨ (s.confirmedWith r).fwu.boots = (s.fwu.boots.1, some b)) ∧
      b = ({ s with regs := r } : State).bootRecord ((s.fwu.bootSeq + 1) % 2 ^ 64) := by
  obtain ⟨boots, he, hb⟩ := State.writeBoot_eq { s with regs := r }
  have hfwu : (s.confirmedWith r).fwu = { s.fwu with bootSeq := (s.fwu.bootSeq + 1) % 2 ^ 64, boots := boots } :=
    congrArg State.fwu he
  rw [hfwu]
  exact ⟨rfl, _, hb, rfl⟩

end

/-- The rollback counter of the image in a main slot. -/
def State.slotRollback (s : State) (o : Nat) : Nat :=
  match Map.find s.fwu.slots o with | some l => Manifest.rollback l | none => 0

/-- A trial whose conditions have held long enough. -/
def State.trialHeld (s : State) : Bool :=
  match s.fwu.healthy with
  | some p => decide (p + s.fwu.trialMin * 1000 ≤ s.now)
  | none => false

/-- The state as the trial of it is confirmed. -/
def State.trialConfirmed (s : State) : State :=
  s.confirmedWith (s.regs.setFields (confirmFields (1 - s.activeSlot)
    (max (s.slotRollback (1 - s.activeSlot)) (s.fld (F.FWU_RB.COUNTER 0)))))

theorem exec_trialConfirmation (s : State) : exec .trialConfirmation s =
    if s.fld F.FWU_STAT.TRIAL = 1 ∧ s.trialHeld ∧ s.trialHealthy ∧ (!s.fwu.trialHost || s.fwu.confirmed) then
      .next (if s.pair.split = 2 then s.trialConfirmed.endSplit else s.trialConfirmed)
    else .next s := by
  have hs : s.trialConfirmed = (((((((s.slotState 0 1).slotState 1 1).setF F.FWU_STAT.ACTIVE_SLOT (1 - s.activeSlot)).flag
      F.FWU_STAT.TRIAL false).setF (F.FWU_RB.COUNTER 0) (max (s.slotRollback (1 - s.activeSlot)) (s.fld (F.FWU_RB.COUNTER 0))))
      ).writeBoot.post Ev.FW_CONFIRMED []) := by
    simp only [State.trialConfirmed, State.confirmedWith, confirmFields, RegFile.setFields_cons, RegFile.setFields_nil,
      State.slotState, if_true, Nat.one_ne_zero, if_false, State.setF_eq_withRegs, State.flag_withRegs, RegFile.flag_eq,
      Bool.false_eq_true]
  rw [hs]
  rfl

theorem State.trialHealthy_iff (s : State) : s.trialHealthy = true ↔ s.fld F.STO_STAT.READY = 1 ∧ s.fld F.ING_STAT.READY = 1 ∧
    s.fld F.BAL_STAT.READY = 1 ∧ s.regs.get R.PACE_FAULT = 0 := by
  simp only [State.trialHealthy, Bool.and_eq_true, beq_iff_eq, and_assoc]

/-- A field of four bytes is a word. -/
theorem fieldAt_four_lt (l : List Byte) (o : Nat) : fieldAt l o 4 < 2 ^ 32 :=
  (beVal_lt _).trans_le ((Nat.pow_le_pow_right (by decide) (List.length_take_le 4 _)).trans (by decide))

/-- What a confirmed trial shows and keeps. -/
theorem State.trialConfirmed_shown {s : State} (hs : Inv s) {o rb : Nat} (ho : o = 1 - s.fld F.FWU_STAT.ACTIVE_SLOT)
    (hr : ∃ l, Map.find s.fwu.slots o = some l ∧ fieldAt l 16 4 = rb) : ∃ t, s.trialConfirmed = t ∧
      t.fld F.FWU_STAT.ACTIVE_SLOT = o ∧
        t.fld F.FWU_STAT.TRIAL = 0 ∧ t.fld F.FWU_SLOT_STAT.SLOT_A = 1 ∧ t.fld F.FWU_SLOT_STAT.SLOT_B = 1 ∧
        t.fld (F.FWU_RB.COUNTER 0) = max rb (s.fld (F.FWU_RB.COUNTER 0)) ∧
        t.fld F.FWU_STAT.STAGE = s.fld F.FWU_STAT.STAGE ∧
        t.fwu.bootSeq = (s.fwu.bootSeq + 1) % 2 ^ 64 ∧
        (∃ b, (t.fwu.boots = (some b, s.fwu.boots.2) ∨ t.fwu.boots = (s.fwu.boots.1, some b)) ∧
          b.seq = t.fwu.bootSeq ∧ b.active = o ∧ b.slotA = 1 ∧ b.slotB = 1 ∧ b.trial = false) ∧
        OnlyRegs [R.FWU_STAT, R.FWU_SLOT_STAT, R.FWU_RB 0] s t ∧ t = { s.post Ev.FW_CONFIRMED [] with
          regs := t.regs, fwu := { s.fwu with bootSeq := t.fwu.bootSeq, boots := t.fwu.boots } } := by
  obtain ⟨l, hl, hrb⟩ := hr
  have hroll : s.slotRollback o = rb := by rw [State.slotRollback, hl, ← hrb]; rfl
  have heq : s.trialConfirmed = s.confirmedWith (s.regs.setFields (confirmFields o (max rb (s.fld (F.FWU_RB.COUNTER 0))))) := by
    rw [State.trialConfirmed, State.activeSlot, ← ho, hroll]
  have hmax : max rb (s.fld (F.FWU_RB.COUNTER 0)) < 2 ^ 32 :=
    max_lt (hrb ▸ fieldAt_four_lt l 16) (fieldOf_lt _ 31 0)
  generalize max rb (s.fld (F.FWU_RB.COUNTER 0)) = v at heq hmax ⊢
  have hregs := s.confirmedWith_regs (s.regs.setFields (confirmFields o v))
  obtain ⟨hseq, b, hb, hbe⟩ := s.confirmedWith_boots (s.regs.setFields (confirmFields o v))
  have hfld {t : State} (ht : t.regs = s.regs.setFields (confirmFields o v)) {f : FieldRef} {x : Nat} (hf : (f, x) ∈ confirmFields o v)
      (hx : x < 2 ^ (f.hi - f.lo + 1)) : t.fld f = x :=
    (State.fld_of_setFields ht hs confirmRefs_apart' rfl hf).trans (Nat.mod_eq_of_lt hx)
  have ho' : o < 2 ^ 1 := by omega
  refine ⟨_, heq, hfld hregs (.tail _ (.tail _ (.head _))) ho', hfld hregs (.tail _ (.tail _ (.tail _ (.head _)))) (by decide),
    hfld hregs (.head _) (by decide), hfld hregs (.tail _ (.head _)) (by decide),
    hfld hregs (.tail _ (.tail _ (.tail _ (.tail _ (.head _))))) hmax,
    State.fld_of_setFields_other hregs hs confirmRefs_apart rfl, hseq, ⟨b, hb, ?_⟩,
    State.onlyRegs_of_setFields hregs (confirmFields_addr o v), s.confirmedWith_frame _⟩
  rw [hseq, hbe]
  have hr0 : ({ s with regs := s.regs.setFields (confirmFields o v) } : State).regs = s.regs.setFields (confirmFields o v) := rfl
  generalize ({ s with regs := s.regs.setFields (confirmFields o v) } : State) = u at hr0 ⊢
  refine ⟨rfl, hfld hr0 (.tail _ (.tail _ (.head _))) ho', hfld hr0 (.head _) (by decide), hfld hr0 (.tail _ (.head _)) (by decide), ?_⟩
  show (u.fld F.FWU_STAT.TRIAL == 1) = false
  rw [hfld hr0 (.tail _ (.tail _ (.tail _ (.head _)))) (by decide)]
  rfl

/-! ### CONFIRM (R374) -/

/-- FWU_CTL, with its trigger CONFIRM. -/
def fwuCtlReg : RegSpec := ⟨R.FWU_CTL, [], false, [triggerField 0]⟩

theorem findReg_fwuCtl : findReg R.FWU_CTL = some fwuCtlReg := by decide +kernel

theorem State.trigger_fwuCtl (s : State) (who : Requester) : s.trigger who R.FWU_CTL 0 1 =
    if s.confirmOk then ({ s with fwu := { s.fwu with confirmed := true } }, Cause.OK) else (s, Cause.REG_RANGE) := rfl

/-- A permitted write of CONFIRM. -/
theorem exec_confirm {s : State} {who : Requester} (hs : Inv s) (hm : MayWrite s who R.FWU_CTL) : ∃ u,
    u = enteredBit s who R.FWU_CTL 0 ∧ exec (.confirm who) s = .next (if s.confirmOk then
      ({ u with fwu := { s.fwu with confirmed := true } } : State).send (.regCause who R.FWU_CTL Cause.OK)
      else u.send (.regCause who R.FWU_CTL Cause.REG_RANGE)) := by
  refine ⟨_, rfl, congrArg Host.Outcome.next ((State.writeBit_of_trigger (bit := 0) findReg_fwuCtl rfl firstCause_alone rfl
    (by decide) rfl hs hm).trans ?_)⟩
  obtain ⟨p, hp⟩ := enteredBit_eq s who R.FWU_CTL 0
  have hok : (enteredBit s who R.FWU_CTL 0).confirmOk = s.confirmOk := by rw [hp]; rfl
  have hfwu : (enteredBit s who R.FWU_CTL 0).fwu = s.fwu := by rw [hp]
  rw [State.trigger_fwuCtl, hok, hfwu]
  split <;> rfl

theorem State.confirmOk_iff (s : State) : s.confirmOk = true ↔ s.fld F.FWU_STAT.TRIAL = 1 ∧ s.fwu.wasHealthy = true := by
  simp only [State.confirmOk, Bool.and_eq_true, beq_iff_eq]

/-- Settles O51: the scheduled activation, the confirmation of a trial, CONFIRM and the time-out of a trial. -/
theorem activationsAndTrialsEndAsStated : Obligations.ActivationsAndTrialsEndAsStated := by
  unfold Obligations.ActivationsAndTrialsEndAsStated
  refine ⟨fun s => ⟨exec_activationRestart_due, exec_activationRestart_waits⟩, fun p o rb s hs ht hh ho hr => ⟨?_, fun h => ?_⟩,
    fun who s hs hm => ?_, fun s ht => ⟨fun h => congrArg Host.Outcome.next (if_pos ⟨ht, h⟩),
      fun h => congrArg Host.Outcome.next (if_neg fun ⟨_, h2⟩ => absurd h2 (by omega))⟩⟩
  · intro hp hsto hing hbal hpace hhost
    obtain ⟨t, ht', hshown⟩ := State.trialConfirmed_shown hs ho hr
    refine ⟨t, ?_, hshown⟩
    rw [exec_trialConfirmation, if_pos, ht']
    refine ⟨ht, ?_, s.trialHealthy_iff.mpr ⟨hsto, hing, hbal, hpace⟩, ?_⟩
    · rw [State.trialHeld, hh]
      exact decide_eq_true hp
    · rcases hhost with h | h
      · rw [h]
        rfl
      · rw [h]
        exact Bool.or_true _
  · rw [exec_trialConfirmation, if_neg]
    rintro ⟨-, hheld, hhealthy, hhost⟩
    rcases h with h | h | ⟨h1, h2⟩
    · rw [State.trialHeld, hh] at hheld
      exact absurd (of_decide_eq_true hheld) (by omega)
    · exact h (s.trialHealthy_iff.mp hhealthy).2.2.2
    · rw [h1, h2] at hhost
      cases hhost
  · obtain ⟨u, hu, he⟩ := exec_confirm hs hm
    refine ⟨u, hu, fun h1 h2 => ?_, fun h => ?_⟩
    · rw [he, if_pos (s.confirmOk_iff.mpr ⟨h1, h2⟩)]
    · rw [he, if_neg]
      intro hc
      obtain ⟨h1, h2⟩ := s.confirmOk_iff.mp hc
      rcases h with h | h
      · exact h h1
      · rw [h] at h2
        cases h2

end Sys2Proof.Machine

/-! Firmware campaigns run from START to END (R379 to R383). -/

namespace Sys2Proof.Machine

set_option Elab.async false

/-! ### A campaign and its registers -/

theorem Map.find_adjust {α : Type} (m : Map α) (k j : Nat) (f : α → α) :
    Map.find (Map.adjust m k f) j = (Map.find m j).map fun v => if j = k then f v else v := by
  unfold Map.adjust
  split
  · next h =>
    by_cases e : j = k
    · rw [e, h]
      rfl
    · simp only [if_neg e, Option.map_id']
  · next v h =>
    by_cases e : j = k
    · rw [e, Map.find_set_same, h]
      simp only [Option.map_some, if_true]
    · simp only [if_neg e, Option.map_id', Map.find_set_other _ e]

/-- What the registers of campaign `i` show of it. -/
def campFields (i : Nat) (c : Campaign) : List (FieldRef × Nat) :=
  [(F.FWU_CAMP_STAT.STATE i, c.state), (F.FWU_CAMP_STAT.IMAGE i, c.image), (F.FWU_CAMP_STAT.TARGETS i, c.targets.length),
    (F.FWU_CAMP_DONE.ACTIVATED i, c.count 4), (F.FWU_CAMP_ROUND.ROUNDS i, min c.rounds 0xFFFF)]

/-- The fields of the registers of campaign `i`. -/
def campRefs (i : Nat) : List FieldRef :=
  [F.FWU_CAMP_STAT.STATE i, F.FWU_CAMP_STAT.IMAGE i, F.FWU_CAMP_STAT.TARGETS i, F.FWU_CAMP_DONE.ACTIVATED i,
    F.FWU_CAMP_ROUND.ROUNDS i]

theorem campRefs_apart {i : Nat} (h : i < 8) : fieldsApart (campRefs i) = true :=
  (by decide +kernel : ∀ i < 8, fieldsApart (campRefs i) = true) i h

theorem campRefs_width {i : Nat} (h : i < 8) : (F.FWU_CAMP_STAT.STATE i).hi - (F.FWU_CAMP_STAT.STATE i).lo + 1 = 2 :=
  (by decide +kernel : ∀ i < 8, (F.FWU_CAMP_STAT.STATE i).hi - (F.FWU_CAMP_STAT.STATE i).lo + 1 = 2) i h

/-- The registers of campaign `i`. -/
def campRegs (i : Nat) : List Nat := [R.FWU_CAMP_STAT i, R.FWU_CAMP_DONE i, R.FWU_CAMP_ROUND i]

theorem campFields_addr (i : Nat) (c : Campaign) : ∀ e ∈ campFields i c, e.1.addr ∈ campRegs i := by
  simp only [campFields, List.forall_mem_cons]
  exact ⟨.head _, .head _, .head _, .tail _ (.head _), .tail _ (.tail _ (.head _)), fun e h => absurd h List.not_mem_nil⟩

/-- A campaign written, with the registers `r`. -/
def State.campSet (s : State) (i : Nat) (c : Campaign) (r : RegFile) : State :=
  { s with fwu := { s.fwu with camps := Map.set s.fwu.camps i c }, regs := r }

theorem State.setCamp_eq (s : State) (i : Nat) (c : Campaign) :
    s.setCamp i c = s.campSet i c (s.regs.setFields (campFields i c)) := by
  simp only [State.setCamp, State.campSet, campFields, RegFile.setFields_cons, RegFile.setFields_nil]

section
variable (s : State) (i : Nat) (c : Campaign)

theorem State.setCamp_regs : (s.setCamp i c).regs = s.regs.setFields (campFields i c) := by
  rw [State.setCamp_eq]
  rfl

theorem State.setCamp_fwu : (s.setCamp i c).fwu = { s.fwu with camps := Map.set s.fwu.camps i c } := by
  rw [State.setCamp_eq]
  rfl

theorem State.setCamp_ing : (s.setCamp i c).ing = s.ing := by
  rw [State.setCamp_eq]
  rfl

theorem State.setCamp_same : Map.find (s.setCamp i c).fwu.camps i = some c := by
  rw [State.setCamp_fwu]
  exact Map.find_set_same ..

theorem State.setCamp_other {k : Nat} (h : k ≠ i) : Map.find (s.setCamp i c).fwu.camps k = Map.find s.fwu.camps k := by
  rw [State.setCamp_fwu]
  exact Map.find_set_other _ h

theorem State.setCamp_onlyRegs : OnlyRegs (campRegs i) s (s.setCamp i c) :=
  State.onlyRegs_of_setFields (State.setCamp_regs s i c) (campFields_addr i c)

variable {s i}

theorem State.setCamp_inv (hs : Inv s) : Inv (s.setCamp i c) := State.inv_of_setFields (State.setCamp_regs s i c) hs

theorem State.setCamp_state (hs : Inv s) (hi : i < 8) : (s.setCamp i c).fld (F.FWU_CAMP_STAT.STATE i) = c.state % 4 := by
  refine (State.fld_of_setFields (State.setCamp_regs s i c) hs (campRefs_apart hi) rfl (.head _)).trans ?_
  rw [campRefs_width hi]
  rfl

end

/-! ### The start of a campaign (R379) -/

/-- A target that is sent its offer. -/
def CampTarget.offeredAt (rounds : Nat) (t : CampTarget) : CampTarget :=
  if t.state = 0 then { t with state := 1, offered := rounds } else t

theorem CampTarget.offeredAt_idem (rounds : Nat) (t : CampTarget) :
    (t.offeredAt rounds).offeredAt rounds = t.offeredAt rounds := by
  unfold CampTarget.offeredAt
  split
  · rfl
  · next h => rfl

/-- The state with bodies queued for meters (R232). -/
def State.told (s : State) (l : List (Nat × List Byte)) : State :=
  { s with ing := { s.ing with toMeter := s.ing.toMeter ++ l } }

section
variable (s : State) (l : List (Nat × List Byte))

theorem State.told_ing : (s.told l).ing = { s.ing with toMeter := s.ing.toMeter ++ l } := rfl

theorem State.told_nil : s.told [] = s := by simp only [State.told, List.append_nil]

theorem State.told_told (m : List (Nat × List Byte)) : (s.told l).told m = s.told (l ++ m) := by
  simp only [State.told, List.append_assoc]

/-- A body that does not wait for the digest is queued at once. -/
theorem State.tellMeter_eq {body : List Byte} (h : waitsForDigest body = false) (i : Nat) :
    s.tellMeter i body = s.told [(i, body)] := by
  rw [State.tellMeter, h, Bool.false_and]
  rfl

end

theorem waitsForDigest_offer (s : State) (c : Campaign) : waitsForDigest (s.offerBody c) = false := rfl

theorem State.offer_eq {s : State} {i : Nat} {c : Campaign} (h : Map.find s.fwu.camps i = some c) (meter : Nat) :
    s.offer i meter =
      (s.setCamp i { c with targets := Map.adjust c.targets meter (CampTarget.offeredAt c.rounds) }).told
        [(meter, s.offerBody c)] := by
  rw [State.offer, h]
  exact State.tellMeter_eq _ (waitsForDigest_offer s c) meter

theorem State.offerBody_congr {s t : State} (h : t.fwu.images = s.fwu.images) {c d : Campaign} (hi : d.image = c.image)
    (hd : d.id = c.id) (hk : d.key = c.key) (ha : d.activate = c.activate) : t.offerBody d = s.offerBody c := by
  rw [State.offerBody, State.offerBody, h, hi, hd, hk, ha]

/-- The campaign `x` runs in `t`, and the targets `l` were sent their offers since `s`. -/
structure OffersSent (c : Nat) (x : Campaign) (s : State) (l : List Nat) (t : State) : Prop where
  camp : ∃ m, Map.find t.fwu.camps c = some { x with state := 2, targets := m } ∧ ∀ a,
    Map.find m a = (Map.find x.targets a).map fun e => if a ∈ l then e.offeredAt x.rounds else e
  others : ∀ k, k ≠ c → Map.find t.fwu.camps k = Map.find s.fwu.camps k
  images : t.fwu.images = s.fwu.images
  shown : t.fld (F.FWU_CAMP_STAT.STATE c) = 2
  sent : t.ing = { s.ing with toMeter := s.ing.toMeter ++ l.map fun a => (a, s.offerBody x) }
  inv : Inv t
  regs : OnlyRegs (campRegs c) s t
  frame : t = { s with regs := t.regs, fwu := t.fwu, ing := t.ing }

theorem OffersSent.begun {c : Nat} {x : Campaign} {s : State} (hs : Inv s) (hc : c < 8) :
    OffersSent c x s [] (s.setCamp c { x with state := 2 }) where
  camp := ⟨x.targets, s.setCamp_same c _, fun a => by simp only [List.not_mem_nil, if_false, Option.map_id']⟩
  others k hk := s.setCamp_other c _ hk
  images := by rw [State.setCamp_fwu]
  shown := State.setCamp_state _ hs hc
  sent := by
    rw [State.setCamp_eq, List.map_nil, List.append_nil]
    rfl
  inv := State.setCamp_inv _ hs
  regs := s.setCamp_onlyRegs c _
  frame := by
    rw [State.setCamp_eq]
    rfl

theorem OffersSent.offer {c : Nat} {x : Campaign} {s t : State} {l : List Nat} (hc : c < 8) (h : OffersSent c x s l t)
    (a : Nat) : OffersSent c x s (l ++ [a]) (t.offer c a) := by
  obtain ⟨m, hm, hfind⟩ := h.camp
  rw [State.offer_eq hm]
  constructor
  case camp =>
    refine ⟨_, t.setCamp_same c _, fun b => ?_⟩
    rw [Map.find_adjust, hfind, Option.map_map]
    refine congrArg (fun f => Option.map f _) (funext fun e => ?_)
    simp only [Function.comp, List.mem_append, List.mem_singleton]
    by_cases hb : b = a
    · simp only [hb, if_true, or_true]
      split
      · exact e.offeredAt_idem _
      · rfl
    · simp only [hb, if_false, or_false]
  case others => exact fun k hk => (t.setCamp_other c _ hk).trans (h.others k hk)
  case images => exact (congrArg FwState.images (t.setCamp_fwu c _)).trans h.images
  case shown => exact State.setCamp_state _ h.inv hc
  case sent =>
    have hing : (t.setCamp c { x with state := 2, targets := Map.adjust m a (CampTarget.offeredAt x.rounds) }).ing = t.ing :=
      t.setCamp_ing c _
    rw [State.told_ing, hing, State.offerBody_congr h.images (c := x) (d := { x with state := 2, targets := m }) rfl rfl rfl rfl,
      h.sent, List.map_append, List.append_assoc]
    rfl
  case inv => exact State.setCamp_inv (i := c) _ h.inv
  case regs => exact fun b hb => (t.setCamp_onlyRegs c _ b hb).trans (h.regs b hb)
  case frame =>
    rw [State.setCamp_eq]
    generalize t.regs.setFields _ = r
    generalize [(a, t.offerBody _)] = l
    generalize ({ x with state := 2, targets := _ } : Campaign) = y
    have hf := congrArg (fun z : State => ({ z with regs := r, fwu := (t.campSet c y r).fwu, ing := (t.told l).ing } : State)) h.frame
    exact hf

/-- Every target is sent its offer. -/
theorem OffersSent.offers {c : Nat} {x : Campaign} {s : State} (hc : c < 8) (m : Map CampTarget) : ∀ (t : State) (l : List Nat),
    OffersSent c x s l t → OffersSent c x s (l ++ m.map Prod.fst) (m.foldl (fun t e => t.offer c e.1) t) := by
  induction m with
  | nil =>
    intro t l h
    rw [List.map_nil, List.append_nil]
    exact h
  | cons e m ih =>
    intro t l h
    rw [List.map_cons, List.append_cons]
    exact ih _ _ (h.offer hc e.1)

/-- The campaign that begins. -/
theorem exec_campaignBegin {c : Nat} {x : Campaign} {s : State} (hs : Inv s) (hc : c < 8)
    (hx : Map.find s.fwu.camps c = some x) (h1 : x.state = 1) :
    (s.timeSec < x.start → exec (.campaignBegin c) s = .next s) ∧
    (x.start ≤ s.timeSec → ∃ t y, exec (.campaignBegin c) s = .next t ∧ Map.find t.fwu.camps c = some y ∧
      y = { x with state := 2, targets := y.targets } ∧ t.fld (F.FWU_CAMP_STAT.STATE c) = 2 ∧
      (∀ a e, Map.find x.targets a = some e → Map.find y.targets a =
        some (if e.state = 0 then { e with state := 1, offered := x.rounds } else e)) ∧
      t.ing = { s.ing with toMeter := s.ing.toMeter ++ x.targets.map fun e => (e.1, s.offerBody x) } ∧
      (∀ k, k ≠ c → Map.find t.fwu.camps k = Map.find s.fwu.camps k) ∧
      OnlyRegs [R.FWU_CAMP_STAT c, R.FWU_CAMP_DONE c, R.FWU_CAMP_ROUND c] s t ∧
      t = { s with regs := t.regs, fwu := t.fwu, ing := t.ing }) := by
  have hexec : exec (.campaignBegin c) s = .next (if x.state = 1 ∧ x.start ≤ s.timeSec then
      x.targets.foldl (fun (t : State) e => t.offer c e.1) (s.setCamp c { x with state := 2 }) else s) := by
    show execCampaignBegin c s = _
    unfold execCampaignBegin
    rw [hx]
  refine ⟨fun h => ?_, fun h => ?_⟩
  · rw [hexec, if_neg fun ⟨_, h2⟩ => absurd h2 (by omega)]
  · have hsent := OffersSent.offers hc x.targets _ _ (OffersSent.begun (x := x) hs hc)
    rw [hexec, if_pos ⟨h1, h⟩]
    rw [List.nil_append] at hsent
    obtain ⟨m, hm, hfind⟩ := hsent.camp
    refine ⟨_, _, rfl, hm, rfl, hsent.shown, fun a e ha => ?_, ?_, hsent.others, hsent.regs, hsent.frame⟩
    · rw [hfind, ha, Option.map_some, if_pos (List.mem_map_of_mem (Map.mem_of_find ha))]
      rfl
    · rw [hsent.sent, List.map_map]
      rfl

/-! ### The carousel (R381) -/

theorem Campaign.advance_cases (x : Campaign) (n : Nat) :
    (x.seg < 15 → x.advance n = { x with seg := x.seg + 1 }) ∧
    (15 ≤ x.seg → x.block + 1 < n → x.advance n = { x with seg := 0, block := x.block + 1 }) ∧
    (15 ≤ x.seg → n ≤ x.block + 1 → x.advance n = { x with seg := 0, block := 0, rounds := x.rounds + 1 }) :=
  ⟨fun h => if_pos h, fun h hb => (if_neg (by omega)).trans (if_pos hb), fun h hb => (if_neg (by omega)).trans (if_neg (by omega))⟩

/-- A channel with a frame queued. -/
theorem State.queueFrame_chan (s : State) (x prio next : Nat) (path : List Nat) (node : Option Nat) (mac : List Byte) :
    ((s.queueFrame x prio next path node mac).chan x).queue =
      (s.chan x).queue ++ [⟨prio, next, path, node, mac, 0, s.fld F.PLC_CSMA.BE_MIN⟩] :=
  congrArg PlcChan.queue (Map.findD_set_same ..)

theorem State.queueFrame_other (s : State) {x k : Nat} (h : k ≠ x) (prio next : Nat) (path : List Nat) (node : Option Nat)
    (mac : List Byte) : (s.queueFrame x prio next path node mac).chan k = s.chan k := Map.findD_set_other _ _ h

theorem State.queueFrame_frame (s : State) (x prio next : Nat) (path : List Nat) (node : Option Nat) (mac : List Byte) :
    s.queueFrame x prio next path node mac = { s with plc := (s.queueFrame x prio next path node mac).plc } := rfl

/-- A frame queued on each of several channels. -/
theorem State.queueFrames (prio next : Nat) (path : List Nat) (node : Option Nat) (mac : List Byte) {l : List Nat} (hl : l.Nodup) :
    ∀ s : State, ∃ t, l.foldl (fun (t : State) k => t.queueFrame k prio next path node mac) s = t ∧ t = { s with plc := t.plc } ∧
      (∀ k, k ∉ l → t.chan k = s.chan k) ∧ ∀ k ∈ l, (t.chan k).queue = (s.chan k).queue ++
        [⟨prio, next, path, node, mac, 0, s.fld F.PLC_CSMA.BE_MIN⟩] := by
  induction l with
  | nil => exact fun s => ⟨s, rfl, rfl, fun _ _ => rfl, fun k h => absurd h List.not_mem_nil⟩
  | cons x l ih =>
    intro s
    obtain ⟨hx, hn⟩ := List.nodup_cons.mp hl
    obtain ⟨t, ht, hf, hout, hin⟩ := ih hn (s.queueFrame x prio next path node mac)
    refine ⟨t, ht, hf, fun k hk => ?_, fun k hk => ?_⟩
    · rw [List.mem_cons, not_or] at hk
      rw [hout k hk.2, s.queueFrame_other hk.1]
    · by_cases e : k = x
      · rw [e, hout x hx, s.queueFrame_chan]
      · rw [hin k ((List.mem_cons.mp hk).resolve_left e), s.queueFrame_other e]
        rfl

theorem State.meshChans_congr {s t : State} (h : t.warp = s.warp) : t.meshChans = s.meshChans := by
  simp only [State.meshChans, State.plcConf, h]

theorem State.meshChans_nodup (s : State) : s.meshChans.Nodup := List.nodup_range.filter _

theorem State.draw_frame (s : State) : s.draw = { s with pair := s.draw.pair, drawn := s.draw.drawn } := by
  unfold State.draw State.record
  split <;> rfl

/-- A device counter taken, before it comes near its end (R233). -/
def State.counted (s : State) (f : FieldRef) (n r : Nat) : State :=
  { s with regs := s.regs.setF f n, rad := { s.rad with reserved := r } }

section
variable (s : State) (f : FieldRef) (n r : Nat)

theorem State.counted_regs : (s.counted f n r).regs = (s.setF f n).regs := rfl

theorem State.counted_frame : s.counted f n r = { s with regs := (s.counted f n r).regs, rad := (s.counted f n r).rad } := rfl

theorem State.counted_floods : (s.counted f n r).rad.floods = s.rad.floods := rfl

end

theorem beMin_apart : F.PLC_CSMA.BE_MIN.ok = true ∧ F.PLC_CSMA.BE_MIN.apart F.RFM_DEV_CTR.DCOUNTER = true := by decide +kernel

theorem ok_dcounter : F.RFM_DEV_CTR.DCOUNTER.ok = true := by decide +kernel

/-- The next device counter. -/
theorem State.epochDue_takeCounter {s : State} (h : s.fld F.RFM_DEV_CTR.DCOUNTER < 0xF0000000) : ∃ r,
    s.epochDue.takeCounter =
      (s.counted F.RFM_DEV_CTR.DCOUNTER (s.fld F.RFM_DEV_CTR.DCOUNTER + 1) r, s.fld F.RFM_DEV_CTR.DCOUNTER + 1) := by
  rw [State.epochDue, if_neg (by omega)]
  exact ⟨if s.rad.reserved < s.fld F.RFM_DEV_CTR.DCOUNTER + 1 then min 0xFFFFFFFF (s.rad.reserved + 65536) else s.rad.reserved,
    Prod.ext (if_neg (by omega)) rfl⟩

/-- The flood of a segment, on the radio. -/
def State.segmentFlood (s : State) (media : Nat) (b : List Byte) : State :=
  if media % 2 = 1 then s.queueFlood ⟨.short 0xFFFF, true, b⟩ else s

theorem State.segmentFlood_eq (s : State) (media : Nat) (b : List Byte) : s.segmentFlood media b = { s with rad := { s.rad with
    floods := s.rad.floods ++ if media % 2 = 1 then [⟨.short 0xFFFF, true, b⟩] else [] } } := by
  unfold State.segmentFlood
  split
  · rfl
  · rw [List.append_nil]

/-- The broadcast of a segment, on the power line. -/
def State.segmentCast (s : State) (media : Nat) (b : List Byte) : State :=
  if media / 2 % 2 = 1 then s.meshChans.foldl (fun (t : State) k => t.queueFrame k 3 0xFFFF [] none
    (macHeader 0 false 0 0 0xFFFF 0xFFFE 0 ++ b ++ beBytes 4 s.free)) s.draw
  else s

/-- What the broadcast of a segment leaves, and what it queues. -/
theorem State.segmentCast_spec (s : State) (media : Nat) (b : List Byte) : ∃ t, s.segmentCast media b = t ∧
    t = { s with plc := t.plc, pair := t.pair, drawn := t.drawn } ∧ (media / 2 % 2 = 0 → t.plc = s.plc) ∧
    (media / 2 % 2 = 1 → ∀ k ∈ s.meshChans, ∃ mic, (t.chan k).queue = (s.chan k).queue ++
      [⟨3, 0xFFFF, [], none, macHeader 0 false 0 0 0xFFFF 0xFFFE 0 ++ b ++ beBytes 4 mic, 0, s.fld F.PLC_CSMA.BE_MIN⟩]) := by
  unfold State.segmentCast
  split
  · obtain ⟨t, ht, hf, -, hin⟩ := State.queueFrames 3 0xFFFF [] none
      (macHeader 0 false 0 0 0xFFFF 0xFFFE 0 ++ b ++ beBytes 4 s.free) s.meshChans_nodup s.draw
    refine ⟨t, ht, ?_, fun h => absurd h (by omega), fun _ k hk => ⟨s.free, ?_⟩⟩
    · have hpair := congrArg State.pair hf
      have hdrawn := congrArg State.drawn hf
      have hd := congrArg (fun z : State => ({ z with plc := t.plc } : State)) s.draw_frame
      rw [hpair, hdrawn]
      exact hf.trans hd
    · rw [hin k hk, State.chan, State.fld, s.draw_frame]
      rfl
  · exact ⟨s, rfl, rfl, fun _ => rfl, fun h => absurd h ‹_›⟩

theorem State.sendSegment_eq {s : State} {x : Campaign} {t : State} {n : Nat} (h : s.epochDue.takeCounter = (t, n)) :
    s.sendSegment x = (t.segmentFlood x.media (sealBody (beBytes 16 x.key) (beBytes 4 x.id ++ beBytes 4 0) n
      (segmentBody 0x42 x.seg x.block x.id (s.campBlock x x.block)))).segmentCast x.media
        (sealBody (beBytes 16 x.key) (beBytes 4 x.id ++ beBytes 4 0) n
          (segmentBody 0x42 x.seg x.block x.id (s.campBlock x x.block))) := by
  rw [State.sendSegment, h]
  rfl

theorem State.sendSegment_fwu {s : State} (x : Campaign) (h : s.fld F.RFM_DEV_CTR.DCOUNTER < 0xF0000000) :
    (s.sendSegment x).fwu = s.fwu := by
  obtain ⟨r, hr⟩ := State.epochDue_takeCounter h
  rw [State.sendSegment_eq hr]
  generalize sealBody _ _ _ _ = b
  have hframe := (congrArg State.fwu (s.counted_frame F.RFM_DEV_CTR.DCOUNTER (s.fld F.RFM_DEV_CTR.DCOUNTER + 1) r) :)
  generalize s.counted F.RFM_DEV_CTR.DCOUNTER _ r = t at hframe
  obtain ⟨u, hu, hframe', -⟩ := State.segmentCast_spec (t.segmentFlood x.media b) x.media b
  have hcast := (congrArg State.fwu hframe' :)
  have hflood := (congrArg State.fwu (t.segmentFlood_eq x.media b) :)
  rw [hu]
  exact hcast.trans (hflood.trans hframe)

/-- A segment under the next device counter, on the media of its campaign. -/
theorem State.sendSegment_spec {s : State} (hs : Inv s) (x : Campaign) (h : s.fld F.RFM_DEV_CTR.DCOUNTER < 0xF0000000) :
    ∃ u n b, u = s.sendSegment x ∧ n = s.fld F.RFM_DEV_CTR.DCOUNTER + 1 ∧
      b = sealBody (beBytes 16 x.key) (beBytes 4 x.id ++ beBytes 4 0) n
        (segmentBody 0x42 x.seg x.block x.id (s.campBlock x x.block)) ∧ u.fld F.RFM_DEV_CTR.DCOUNTER = n ∧
      u.rad.floods = s.rad.floods ++ (if x.media % 2 = 1 then [⟨.short 0xFFFF, true, b⟩] else []) ∧
      (x.media / 2 % 2 = 1 → ∀ k ∈ s.meshChans, ∃ mic, (u.chan k).queue = (s.chan k).queue ++
        [⟨3, 0xFFFF, [], none, macHeader 0 false 0 0 0xFFFF 0xFFFE 0 ++ b ++ beBytes 4 mic, 0, s.fld F.PLC_CSMA.BE_MIN⟩]) ∧
      (x.media / 2 % 2 = 0 → u.plc = s.plc) ∧ u.fwu = s.fwu ∧ OnlyRegs [R.RFM_DEV_CTR] s u := by
  obtain ⟨r, hr⟩ := State.epochDue_takeCounter h
  generalize hn : s.fld F.RFM_DEV_CTR.DCOUNTER + 1 = n at hr
  generalize hb : sealBody (beBytes 16 x.key) (beBytes 4 x.id ++ beBytes 4 0) n
    (segmentBody 0x42 x.seg x.block x.id (s.campBlock x x.block)) = b
  have heq := State.sendSegment_eq (x := x) hr
  rw [hb] at heq
  have hregs := s.counted_regs F.RFM_DEV_CTR.DCOUNTER n r
  have hfloods := s.counted_floods F.RFM_DEV_CTR.DCOUNTER n r
  have hframe := s.counted_frame F.RFM_DEV_CTR.DCOUNTER n r
  generalize s.counted F.RFM_DEV_CTR.DCOUNTER n r = t at heq hregs hfloods hframe
  obtain ⟨u, hu, hframe', hplc, hcast⟩ := State.segmentCast_spec (t.segmentFlood x.media b) x.media b
  have hflood := t.segmentFlood_eq x.media b
  have hlt : n < 2 ^ 32 := by omega
  have hwarp := (congrArg State.warp hflood :)
  have hplc' := (congrArg State.plc hflood :)
  have hfwu := (congrArg State.fwu hflood :)
  have hwarp0 := (congrArg State.warp hframe :)
  have hplc0 := (congrArg State.plc hframe :)
  have hfwu0 := (congrArg State.fwu hframe :)
  have hseg : (t.segmentFlood x.media b).regs = (s.setF F.RFM_DEV_CTR.DCOUNTER n).regs := (congrArg State.regs hflood).trans hregs
  have huregs : u.regs = (s.setF F.RFM_DEV_CTR.DCOUNTER n).regs := (congrArg State.regs hframe').trans hseg
  have hbe : (t.segmentFlood x.media b).fld F.PLC_CSMA.BE_MIN = s.fld F.PLC_CSMA.BE_MIN := by
    rw [State.fld, hseg]
    exact State.fld_setF_other _ hs ok_dcounter beMin_apart.1 beMin_apart.2
  refine ⟨u, n, b, heq.symm ▸ hu.symm, rfl, hb.symm, ?_, ?_, fun h1 k hk => ?_, fun h0 => ?_, ?_, ?_⟩
  · rw [State.fld, huregs]
    exact (State.fld_setF_same _ hs ok_dcounter).trans (Nat.mod_eq_of_lt hlt)
  · have hrad := congrArg (fun z => z.rad.floods) hflood
    rw [hfloods] at hrad
    exact (congrArg (fun z => z.rad.floods) hframe').trans hrad
  · have hm : (t.segmentFlood x.media b).meshChans = s.meshChans :=
      State.meshChans_congr (hwarp.trans hwarp0)
    have hc : (t.segmentFlood x.media b).chan k = s.chan k :=
      congrArg (fun p : PlcState => Map.findD p.chans k {}) (hplc'.trans hplc0)
    obtain ⟨mic, hq⟩ := hcast h1 k (hm ▸ hk)
    rw [hbe, hc] at hq
    exact ⟨mic, hq⟩
  · exact (hplc h0).trans (hplc'.trans hplc0)
  · exact (congrArg State.fwu hframe').trans (hfwu.trans hfwu0)
  · intro a ha
    rw [huregs]
    exact (OnlyRegs.refl _ s).setF _ (.head _) a ha

/-- A segment of campaign `x` is due. -/
def State.segmentDue (s : State) (x : Campaign) : Prop :=
  x.state = 2 ∧ x.start ≤ s.timeSec ∧ s.timeSec < x.finish ∧
    (∀ p, x.sentAt = some p → p * x.rate + 60000 ≤ s.now * x.rate) ∧ ∃ e ∈ x.targets, e.2.state ≠ 4 ∧ e.2.state ≠ 5

theorem CampTarget.final_iff (t : CampTarget) : t.final = true ↔ t.state = 4 ∨ t.state = 5 := by
  simp only [CampTarget.final, Bool.or_eq_true, beq_iff_eq]

theorem CampTarget.final_eq_false (t : CampTarget) : t.final = false ↔ t.state ≠ 4 ∧ t.state ≠ 5 := by
  rw [← Bool.not_eq_true, t.final_iff, not_or]

section
variable {c : Nat} {x : Campaign} {s : State} (hx : Map.find s.fwu.camps c = some x)
include hx

theorem exec_carouselSegment_waits (h : ¬ s.segmentDue x) : exec (.carouselSegment c) s = .next s := by
  show execCarouselSegment c s = _
  unfold execCarouselSegment
  rw [hx]
  refine if_neg fun ⟨hactive, hdue, hany⟩ => h ?_
  rw [Bool.and_eq_true, Bool.and_eq_true, beq_iff_eq, decide_eq_true_eq, decide_eq_true_eq] at hactive
  obtain ⟨⟨h2, hstart⟩, hend⟩ := hactive
  obtain ⟨e, he, hf⟩ := List.any_eq_true.mp hany
  refine ⟨h2, hstart, hend, fun p hp => ?_, e, he, (CampTarget.final_eq_false _).mp (Bool.not_eq_true' _ ▸ hf)⟩
  rw [hp] at hdue
  exact of_decide_eq_true hdue

theorem exec_carouselSegment_sends (h : s.segmentDue x) {y : Campaign} (hy : Map.find (s.sendSegment x).fwu.camps c = some y) :
    exec (.carouselSegment c) s =
      .next ((s.sendSegment x).setCamp c { y.advance (s.campBlocks y) with sentAt := some s.now }) := by
  obtain ⟨h2, hstart, hend, hdue, e, he, hf⟩ := h
  show execCarouselSegment c s = _
  unfold execCarouselSegment
  rw [hx]
  refine (if_pos ⟨?_, ?_, List.any_eq_true.mpr ⟨e, he, ?_⟩⟩).trans ?_
  · dsimp only
    rw [hy]
  · rw [Bool.and_eq_true, Bool.and_eq_true, beq_iff_eq, decide_eq_true_eq, decide_eq_true_eq]
    exact ⟨⟨h2, hstart⟩, hend⟩
  · split
    · next p hp => exact decide_eq_true (hdue p hp)
    · rfl
  · rw [(CampTarget.final_eq_false _).mpr hf]
    rfl

end

/-! ### A status (R379, R382) -/

section
variable {m : NodeMsg} {l : List NodeMsg} {s : State} (hin : takeInbox 0x24 s.rad.inbox = some (m, l))
include hin

theorem exec_fwStatus_refused {v : State}
    (h : ({ s with rad := { s.rad with inbox := l } } : State).openFrame 0x24 m.frame = (v, none)) :
    exec .fwStatus s = .next v := by
  show execFwStatus s = _
  unfold execFwStatus
  rw [hin]
  dsimp only
  rw [h]

theorem exec_fwStatus_opened {v : State} {i : Nat} {d : List Byte} {z : Bool}
    (h : ({ s with rad := { s.rad with inbox := l } } : State).openFrame 0x24 m.frame = (v, some (i, d, z))) :
    exec .fwStatus s = .next ((v.takeFrame i m.frame).applyStatus i (fwReportOf d)) := by
  show execFwStatus s = _
  unfold execFwStatus
  rw [hin]
  dsimp only
  rw [h]

end

section
variable {u v : State} {type i : Nat} {f : IngestFrame}

theorem State.openFrame_malformed (h : f.parses type = false) :
    u.openFrame type f = (u.rejectReading Cause.PROTOCOL none, none) := if_pos (by rw [h]; rfl)

theorem State.openFrame_unknown (h : f.parses type = true) (hm : u.frameMeter f = none) :
    u.openFrame type f = (u.rejectReading Cause.METER_UNKNOWN none, none) := by
  rw [State.openFrame, h, hm]
  rfl

variable (h : f.parses type = true) (hm : u.frameMeter f = some i)
include h hm

theorem State.openFrame_failed {c : Nat} (ha : u.authenticate i (u.meter i) f = (v, .failed c)) :
    u.openFrame type f = (v.rejectReading c (some i), none) := by
  rw [State.openFrame, h, hm]
  dsimp only
  rw [ha]
  rfl

theorem State.openFrame_opened {d : List Byte} {z : Bool} {n hi : Nat} {w : BitVec 64}
    (ha : u.authenticate i (u.meter i) f = (v, .opened d z)) (hw : v.frameWindow i = (hi, w)) (hn : f.counter = some n) :
    u.openFrame type f = match windowJudge hi w n with
      | .used => (v.bump F.ING_DUP_FRAME_CNT.COUNT, none)
      | .old => (v.rejectReading Cause.DUPLICATE (some i), none)
      | .accept _ _ => (v, some (i, d, z)) := by
  rw [State.openFrame, h, hm]
  dsimp only
  rw [ha]
  dsimp only
  rw [hw, hn]
  dsimp only [Option.map_some]
  cases windowJudge hi w n <;> rfl

end

/-! ### What a status changes (R382, R383) -/

section
variable {i v : Nat} {m : FwReport} {x : Campaign} {t : CampTarget} {s : State}
  (hx : Map.find s.fwu.camps (m.id % 8) = some x) (ht : Map.find x.targets i = some t)
  (hv : (match Map.find s.fwu.images x.image with | some f => f.man.version | none => 0) = v)
include hx ht hv

theorem State.applyStatus_eq : s.applyStatus i m =
    if x.id ≠ m.id ∨ x.state ≠ 2 then s
    else
      let r := t.status m v (s.campBlocks x)
      let y := { x with targets := Map.set x.targets i r }
      if m.state = 0 ∧ r.state = 2 ∧ r.offered < x.rounds ∧ r.missing ≠ 0 then s.repair (m.id % 8) i y r
      else s.setCamp (m.id % 8) y := by
  subst hv
  unfold State.applyStatus
  dsimp only
  rw [hx]
  dsimp only
  rw [ht] <;> rfl

end

/-- The blocks a report speaks of. -/
def FwReport.mask (m : FwReport) : BitVec 2048 := (BitVec.ofNat 2048 (2 ^ 256 - 1)) <<< m.first

/-- The blocks that a target misses after a report. -/
def FwReport.missingOf (m : FwReport) (old : BitVec 2048) (blocks : Nat) : BitVec 2048 :=
  ((old &&& ~~~ m.mask) ||| ((m.missing.setWidth 2048) <<< m.first)) &&& BitVec.ofNat 2048 (2 ^ blocks - 1)

theorem getLsbD_ones {w i n : Nat} (hw : i < w) (hn : i < n) : (BitVec.ofNat w (2 ^ n - 1)).getLsbD i = true := by
  rw [BitVec.getLsbD_ofNat, decide_eq_true hw, Bool.true_and, Nat.testBit_two_pow_sub_one, decide_eq_true hn]

/-- A block that a report speaks of is missing where the report says so. -/
theorem FwReport.missingOf_getLsbD (m : FwReport) (old : BitVec 2048) {blocks k : Nat} (hk : k < 256) (hb : m.first + k < blocks)
    (hw : m.first + k < 2048) : (m.missingOf old blocks).getLsbD (m.first + k) = m.missing.getLsbD k := by
  have hmask : m.mask.getLsbD (m.first + k) = true := by
    rw [FwReport.mask, BitVec.getLsbD_shiftLeft, decide_eq_true hw, Nat.add_sub_cancel_left,
      getLsbD_ones (by omega) hk, decide_eq_false (by omega)]
    rfl
  rw [FwReport.missingOf, BitVec.getLsbD_and, getLsbD_ones hw hb, Bool.and_true, BitVec.getLsbD_or, BitVec.getLsbD_and,
    BitVec.getLsbD_not, hmask, BitVec.getLsbD_shiftLeft, decide_eq_true hw, Nat.add_sub_cancel_left, BitVec.getLsbD_setWidth,
    decide_eq_true (show k < 2048 by omega), decide_eq_false (show ¬ m.first + k < m.first by omega)]
  simp only [Bool.not_true, Bool.and_false, Bool.false_or, Bool.not_false, Bool.and_true, Bool.true_and]

/-- A target as a report is heard from it. -/
def CampTarget.heardFrom (t : CampTarget) (m : FwReport) (n : Nat) : CampTarget :=
  { t with heard := true, version := m.version, missing := m.missingOf t.missing n }

theorem CampTarget.status_final {t : CampTarget} (h : t.final = true) (m : FwReport) (v n : Nat) :
    t.status m v n = { t with heard := true, version := m.version } := if_pos h

theorem CampTarget.status_open {t : CampTarget} (h : t.final = false) (m : FwReport) (v n : Nat) : t.status m v n =
    if m.state = 0 then { t.heardFrom m n with state := 2 }
    else if m.state = 1 then { t.heardFrom m n with state := 3, missing := 0 }
    else if m.state = 2 then { t.heardFrom m n with state := 5, cause := Cause.FW_BLOCK_CHECK }
    else if m.state = 3 then
      (if m.version = v then { t.heardFrom m n with state := 4, cause := Cause.OK, missing := 0 } else t.heardFrom m n)
    else { t.heardFrom m n with state := 5, cause := Cause.PROTOCOL } := if_neg (by rw [h]; decide)

/-- How a report moves a target. -/
theorem CampTarget.status_cases {t : CampTarget} {m : FwReport} {v n : Nat} {r : CampTarget} (hr : r = t.status m v n) :
    r.heard = true ∧ r.version = m.version ∧
    (t.state = 4 ∨ t.state = 5 → r.state = t.state ∧ r.cause = t.cause) ∧
    (t.state ≠ 4 → t.state ≠ 5 → (m.state = 0 → r.state = 2 ∧ r.cause = t.cause ∧
        ∀ k < 256, m.first + k < n → m.first + k < 2048 → r.missing.getLsbD (m.first + k) = m.missing.getLsbD k) ∧
      (m.state = 1 → r.state = 3) ∧
      (m.state = 2 → r.state = 5 ∧ r.cause = Cause.FW_BLOCK_CHECK) ∧
      (m.state = 3 → m.version = v → r.state = 4 ∧ r.cause = Cause.OK) ∧
      (m.state = 4 → r.state = 5 ∧ r.cause = Cause.PROTOCOL)) := by
  subst hr
  cases hf : t.final with
  | true =>
    rw [t.status_final hf]
    exact ⟨rfl, rfl, fun _ => ⟨rfl, rfl⟩, fun h4 h5 => absurd (t.final_iff.mp hf) (by omega)⟩
  | false =>
    obtain ⟨h4, h5⟩ := t.final_eq_false.mp hf
    rw [t.status_open hf]
    refine ⟨?_, ?_, fun h => absurd h (by omega), fun _ _ => ⟨fun h => ?_, fun h => ?_, fun h => ?_, fun h hv => ?_, fun h => ?_⟩⟩
    case refine_1 => split_ifs <;> rfl
    case refine_2 => split_ifs <;> rfl
    case refine_3 =>
      rw [if_pos h]
      exact ⟨rfl, rfl, fun k hk hn hw => m.missingOf_getLsbD t.missing hk hn hw⟩
    case refine_4 => rw [h, if_neg (by decide), if_pos rfl]
    case refine_5 =>
      rw [h, if_neg (by decide), if_neg (by decide), if_pos rfl]
      exact ⟨rfl, rfl⟩
    case refine_6 =>
      rw [h, if_neg (by decide), if_neg (by decide), if_neg (by decide), if_pos rfl, if_pos hv]
      exact ⟨rfl, rfl⟩
    case refine_7 =>
      rw [h, if_neg (by decide), if_neg (by decide), if_neg (by decide), if_neg (by decide)]
      exact ⟨rfl, rfl⟩

theorem CampTarget.status_offered (t : CampTarget) (m : FwReport) (v n : Nat) : (t.status m v n).offered = t.offered := by
  unfold CampTarget.status
  dsimp only
  split_ifs <;> rfl

/-! ### REPAIR (R382) -/

/-- Bodies queued one after another, none of which waits for the digest. -/
theorem State.foldl_tellMeter {β : Type} (f : β → Nat × List Byte) {l : List β} (h : ∀ p ∈ l, waitsForDigest (f p).2 = false) :
    ∀ s : State, l.foldl (fun (u : State) p => u.tellMeter (f p).1 (f p).2) s = s.told (l.map f) := by
  induction l with
  | nil =>
    exact fun s => s.told_nil.symm
  | cons p l ih =>
    intro s
    rw [List.foldl_cons, s.tellMeter_eq (h p (.head _)), ih fun q hq => h q (.tail _ hq), s.told_told]
    rfl

theorem State.repair_ing (i c : Nat) (x : Campaign) (t : CampTarget) (s : State) : (s.repair c i x t).ing = { s.ing with
    toMeter := s.ing.toMeter ++ ((((List.range (s.campBlocks x)).filter fun b => t.missing.getLsbD b).take 4).flatMap
      fun b => (List.range 16).map fun g => (i, segmentBody 0x43 g b x.id (s.campBlock x b))) } := by
  have hfold := State.foldl_tellMeter (fun p : Nat × Nat => (i, segmentBody 0x43 p.2 p.1 x.id (s.campBlock x p.1)))
    (l := ((((List.range (s.campBlocks x)).filter fun b => t.missing.getLsbD b).take 4).flatMap
      fun b => (List.range 16).map fun g => (b, g))) (fun _ _ => rfl) (s.setCamp c x)
  refine (congrArg State.ing hfold).trans ?_
  rw [State.told_ing, State.setCamp_ing, List.map_flatMap]
  simp only [List.map_map]
  rfl

/-! ### The end of a campaign (R383) -/

/-- A target left at END. -/
def CampTarget.closed (t : CampTarget) : CampTarget :=
  if t.final then t else { t with state := 5, cause := if t.heard then Cause.CANCELLED else Cause.LINK_NONE }

/-- A campaign ended, with its targets left. -/
def Campaign.ended (x : Campaign) : Campaign :=
  { x with state := 3, targets := Map.mapVals (fun _ t => t.closed) x.targets }

theorem State.endCampaign_eq (s : State) (i : Nat) (x : Campaign) : s.endCampaign i x =
    (s.setCamp i x.ended).post Ev.FW_CAMPAIGN [b8 i, b4 (x.ended.count 4), b4 (x.ended.count 5)] := rfl

theorem CampTarget.closed_final (t : CampTarget) : t.closed.state = 4 ∨ t.closed.state = 5 := by
  unfold CampTarget.closed
  split
  · next h => exact t.final_iff.mp h
  · exact .inr rfl

/-- A target dropped, as its record became FREE or its MODEL changed. -/
def CampTarget.dropIf (gone : Bool) (t : CampTarget) : CampTarget :=
  if !t.final && gone then { t with state := 5, cause := Cause.METER_UNKNOWN } else t

/-- Whether the meter of a target is gone. -/
def State.targetGone (s : State) (x : Campaign) (k : Nat) : Bool :=
  decide ((s.meter k).state = .free) ||
    (s.meter k).conf.model != (match Map.find s.fwu.images x.image with | some f => f.man.hwType | none => 0x10000)

theorem State.dropTargets_eq (s : State) (x : Campaign) :
    s.dropTargets x = { x with targets := Map.mapVals (fun k t => t.dropIf (s.targetGone x k)) x.targets } := rfl

/-- A target at the end of its campaign: what was final stays, what was not has failed. -/
theorem CampTarget.dropIf_closed (t : CampTarget) (gone : Bool) :
    (t.state = 4 ∨ t.state = 5 → (t.dropIf gone).closed = t) ∧
    (t.state ≠ 4 → t.state ≠ 5 → (t.dropIf gone).closed.state = 5 ∧ ((t.dropIf gone).closed.cause = Cause.METER_UNKNOWN ∨
      (t.dropIf gone).closed.cause = if t.heard then Cause.CANCELLED else Cause.LINK_NONE)) := by
  refine ⟨fun h => ?_, fun h4 h5 => ?_⟩
  · have hf := t.final_iff.mpr h
    rw [CampTarget.dropIf, hf, Bool.not_true, Bool.false_and, if_neg Bool.false_ne_true, CampTarget.closed, if_pos hf]
  · have hf := t.final_eq_false.mpr ⟨h4, h5⟩
    rw [CampTarget.dropIf, hf, Bool.not_false, Bool.true_and]
    cases gone with
    | true => exact ⟨rfl, .inl rfl⟩
    | false =>
      rw [if_neg Bool.false_ne_true, CampTarget.closed, hf, if_neg Bool.false_ne_true]
      exact ⟨rfl, .inr rfl⟩

section
variable {c : Nat} {x : Campaign} {s : State} (hx : Map.find s.fwu.camps c = some x)
include hx

theorem exec_campaignEnd_eq : exec (.campaignEnd c) s = .next (if x.state = 2 ∧ x.finish ≤ s.timeSec then
    s.endCampaign c (s.dropTargets x) else if x.state = 2 then s.setCamp c (s.dropTargets x) else s) := by
  show execCampaignEnd c s = _
  unfold execCampaignEnd
  rw [hx]

theorem exec_campaignEnd (hs : Inv s) (hc : c < 8) :
    (x.state ≠ 2 → exec (.campaignEnd c) s = .next s) ∧
    (x.state = 2 → s.timeSec < x.finish → exec (.campaignEnd c) s = .next (s.setCamp c (s.dropTargets x))) ∧
    (x.state = 2 → x.finish ≤ s.timeSec → ∃ t y, exec (.campaignEnd c) s = .next t ∧
      Map.find t.fwu.camps c = some y ∧ y = { x with state := 3, targets := y.targets } ∧
      t.fld (F.FWU_CAMP_STAT.STATE c) = 3 ∧ (∀ e ∈ y.targets, e.2.state = 4 ∨ e.2.state = 5) ∧
      (∀ a e, Map.find x.targets a = some e → ∃ r, Map.find y.targets a = some r ∧
        (e.state = 4 ∨ e.state = 5 → r = e) ∧
        (e.state ≠ 4 → e.state ≠ 5 → r.state = 5 ∧ (r.cause = Cause.METER_UNKNOWN ∨
          r.cause = if e.heard then Cause.CANCELLED else Cause.LINK_NONE))) ∧
      (∀ k, k ≠ c → Map.find t.fwu.camps k = Map.find s.fwu.camps k) ∧
      t.evt.queue = s.evt.queue ++ [mkPost s Ev.FW_CAMPAIGN [b8 c, b4 (y.count 4), b4 (y.count 5)]] ∧
      OnlyRegs [R.FWU_CAMP_STAT c, R.FWU_CAMP_DONE c, R.FWU_CAMP_ROUND c] s t ∧
      t = { s with regs := t.regs, fwu := t.fwu, evt := t.evt }) := by
  rw [exec_campaignEnd_eq hx]
  refine ⟨fun h => ?_, fun h ht => ?_, fun h ht => ?_⟩
  · rw [if_neg fun ⟨h2, _⟩ => h h2, if_neg h]
  · rw [if_neg fun ⟨_, h2⟩ => absurd h2 (by omega), if_pos h]
  · rw [if_pos ⟨h, ht⟩, State.endCampaign_eq]
    refine ⟨_, (s.dropTargets x).ended, rfl, s.setCamp_same c _, rfl, State.setCamp_state _ hs hc, fun e he => ?_,
      fun a e ha => ⟨(e.dropIf (s.targetGone x a)).closed, ?_, e.dropIf_closed _⟩, fun k hk => s.setCamp_other c _ hk, ?_,
      (s.setCamp_onlyRegs c _).post _ _, ?_⟩
    · obtain ⟨e', -, rfl⟩ := List.mem_map.mp he
      exact e'.2.closed_final
    · rw [Campaign.ended, State.dropTargets_eq, Map.find_mapVals, Map.find_mapVals, ha]
      rfl
    · rw [State.setCamp_eq]
      rfl
    · rw [State.setCamp_eq]
      rfl

end

/-- Settles O52: the start of a campaign, its carousel, its segments, the statuses of its targets, REPAIR and its end. -/
theorem campaignsRunFromStartToEnd : Obligations.CampaignsRunFromStartToEnd := by
  unfold Obligations.CampaignsRunFromStartToEnd
  refine ⟨fun c x s hs hc hx h1 _ => exec_campaignBegin hs hc hx h1, fun c x s hx => ⟨fun h => exec_carouselSegment_waits hx ?_,
    fun h2 hst hend he hdue => ⟨fun y hy => ?_, fun hd => ?_⟩⟩, fun x s hs h => State.sendSegment_spec hs x h,
    Campaign.advance_cases, fun s h => ?_, fun m l s u hin hu => ?_, fun i v m x t s hx ht hv => ?_,
    fun t m v n r hr => CampTarget.status_cases hr, State.repair_ing, fun c x s hs hc hx => exec_campaignEnd hx hs hc⟩
  · rintro ⟨h2, hst, hend, hdue, e, he, hf4, hf5⟩
    rcases h with h | h | h | h | ⟨p, hp, h⟩
    · exact h h2
    · omega
    · omega
    · exact (h e he).elim hf4 hf5
    · exact absurd (hdue p hp) (by omega)
  · exact exec_carouselSegment_sends hx ⟨h2, hst, hend, hdue, he⟩ hy
  · exact exec_carouselSegment_sends hx ⟨h2, hst, hend, hdue, he⟩ ((State.sendSegment_fwu x hd).symm ▸ hx)
  · show execFwStatus s = _
    unfold execFwStatus
    rw [h]
  · subst hu
    refine ⟨fun hp => exec_fwStatus_refused hin (State.openFrame_malformed hp),
      fun hp hm => exec_fwStatus_refused hin (State.openFrame_unknown hp hm),
      fun i v c hp hm ha => exec_fwStatus_refused hin (State.openFrame_failed hp hm ha),
      fun i v d z n h w hp hm ha hw hn => ?_⟩
    have hopen := State.openFrame_opened hp hm ha hw hn
    refine ⟨fun hj => exec_fwStatus_refused hin (hopen.trans ?_), fun hj => exec_fwStatus_refused hin (hopen.trans ?_),
      fun a b hj => ?_⟩
    · rw [hj]
    · rw [hj]
    · rw [hj] at hopen
      rw [exec_fwStatus_opened hin hopen, State.takeFrame, hn]
  · have heq := State.applyStatus_eq hx ht hv
    refine ⟨fun h => heq.trans (if_pos h), fun hid h2 h => ?_, fun hid h2 h0 h4 h5 hround hmiss => ?_⟩
    · refine heq.trans ((if_neg (by omega)).trans (if_neg fun ⟨hm0, hr2, hround, hmiss⟩ => ?_))
      rw [CampTarget.status_offered] at hround
      obtain ⟨-, -, hfin, -⟩ := CampTarget.status_cases (rfl : t.status m v (s.campBlocks x) = _)
      rcases h with h | h | h | h | h
      · exact h hm0
      · have := (hfin (.inl h)).1
        omega
      · have := (hfin (.inr h)).1
        omega
      · omega
      · exact hmiss h
    · obtain ⟨-, -, -, hopen⟩ := CampTarget.status_cases (rfl : t.status m v (s.campBlocks x) = _)
      refine heq.trans ((if_neg (by omega)).trans (if_pos ⟨h0, ((hopen h4 h5).1 h0).1, ?_, hmiss⟩))
      rw [CampTarget.status_offered]
      exact hround

end Sys2Proof.Machine

/-! The joined table, and the connections of the radio mesh (R236 to R246). -/

namespace Sys2Proof.Machine

set_option Elab.async false

/-! ### The joined table (R236) -/

/-- What the registers show of the joined table. -/
def joinedFields (m : Map JoinedEntry) : List (FieldRef × Nat) :=
  [(F.RFM_JOINED.TOTAL, m.length), (F.RFM_JOINED.RADIO, (m.filter fun e => e.2.conn.isSome).length),
    (F.PLC_ROUTES.COUNT, (m.filter fun e => match e.2.plc with | some p => p.valid | none => false).length)]

theorem joinedFields_addr (m : Map JoinedEntry) : ∀ e ∈ joinedFields m, e.1.addr ∈ [R.RFM_JOINED, R.PLC_ROUTES] := by
  simp only [joinedFields, List.forall_mem_cons]
  exact ⟨.head _, .head _, .tail _ (.head _), fun e h => absurd h List.not_mem_nil⟩

/-- The joined table replaced, with the registers `r`. -/
def State.joinedSet (s : State) (m : Map JoinedEntry) (r : RegFile) : State :=
  { s with
    rad := { s.rad with joined := m, dirty := match s.rad.dirty with | some t => some t | none => some s.now }
    regs := r }

theorem State.joinedSet_evt (s : State) (m : Map JoinedEntry) (r : RegFile) : (s.joinedSet m r).evt = s.evt := rfl

theorem State.setJoined_eq (s : State) (a : Nat) (e : JoinedEntry) : s.setJoined a e =
    s.joinedSet (Map.set s.rad.joined a e) (s.regs.setFields (joinedFields (Map.set s.rad.joined a e))) := by
  simp only [State.setJoined, State.touchJoined, State.showJoined, State.joinedSet, joinedFields, RegFile.setFields_cons,
    RegFile.setFields_nil]
  rfl

section
variable (s : State) (a : Nat) (e : JoinedEntry)

theorem State.setJoined_regs : (s.setJoined a e).regs = s.regs.setFields (joinedFields (Map.set s.rad.joined a e)) := by
  rw [State.setJoined_eq]
  rfl

theorem State.setJoined_joined : (s.setJoined a e).rad.joined = Map.set s.rad.joined a e := by
  rw [State.setJoined_eq]
  rfl

theorem State.setJoined_evt : (s.setJoined a e).evt = s.evt := by
  rw [State.setJoined_eq, State.joinedSet_evt]

theorem State.setJoined_same : Map.find (s.setJoined a e).rad.joined a = some e := by
  rw [State.setJoined_joined]
  exact Map.find_set_same ..

theorem State.setJoined_other {k : Nat} (h : k ≠ a) : Map.find (s.setJoined a e).rad.joined k = Map.find s.rad.joined k := by
  rw [State.setJoined_joined]
  exact Map.find_set_other _ h

theorem State.setJoined_onlyRegs : OnlyRegs [R.RFM_JOINED, R.PLC_ROUTES] s (s.setJoined a e) :=
  State.onlyRegs_of_setFields (State.setJoined_regs s a e) (joinedFields_addr _)

variable {s}

theorem State.setJoined_inv (hs : Inv s) : Inv (s.setJoined a e) := State.inv_of_setFields (State.setJoined_regs s a e) hs

end

/-! ### The events of a connection (R240 to R244) -/

theorem State.reportTx_frame (s : State) (e : TxEvent) : s.reportTx e = { s with pair := (s.reportTx e).pair } := by
  unfold State.reportTx
  split <;> rfl

/-- A connection past its event `n`. -/
def RadioConn.passed (c : RadioConn) (n : Nat) : RadioConn :=
  { c with
    upcoming := n + 1, chMap := c.mapAt (n + 1)
    next := if (match c.next with | some (i, _) => decide (i ≤ n + 1) | none => false) then none else c.next }

/-- The joined table alone replaced. -/
def State.withJoined (s : State) (m : Map JoinedEntry) : State := { s with rad := { s.rad with joined := m } }

theorem notPast {s : State} {c : RadioConn} {n : Nat} {p : Int} (hr : s.receives = true) (hn : c.upcoming ≤ n)
    (hw : p < s.nowUs + 1000) : ¬ ((!s.receives) = true ∨ n < c.upcoming ∨ s.nowUs + 1000 ≤ p) := by
  rw [hr]
  rintro (h | h | h)
  · cases h
  · omega
  · omega

section
variable {s : State} {a : Nat} {e : JoinedEntry} {c : RadioConn} (he : Map.find s.rad.joined a = some e)
  (hc : e.conn = some c)
include he hc

theorem State.passEvent_eq (n : Nat) :
    s.passEvent a n = s.withJoined (Map.set s.rad.joined a { e with conn := some (c.passed n) }) := by
  rw [State.passEvent, he]
  dsimp only
  rw [hc]
  rfl

/-- A connection event, by its connection. -/
theorem exec_connectionEvent_eq (n : Nat) (busy : Bool) (pre : Int) (frames : List NodeFrame) :
    exec (.connectionEvent a n busy pre frames) s =
      let g : Int := s.guard c e.sleepy n
      let p := c.predict e.sleepy n
      .next (if !s.receives ∨ n < c.upcoming ∨ s.nowUs + 1000 ≤ p - g then s
      else if busy || s.contended a c (p - g) (p + g) then
        ((s.passEvent a n).reportTx (.skipped a n)).bump (F.RFM_EVT_SKIP_CNT.COUNT c.radio)
      else
        let heard := if p - g ≤ pre ∧ pre ≤ p + g then frames else []
        let missing := match heard with | f :: _ => !f.fcsOk | [] => true
        let lna := match s.radio c.radio with | some rc => rc.flags.getLsbD 1 | none => false
        let s1 := (s.send (.receiver c.radio (p - g) lna)).runEvent a c.radio (c.channel n) n pre 1 heard
        ((s1.passEvent a n).reportTx (.served a n)).expectEvent c.radio (c.channel n) missing) := by
  show execConnectionEvent a n busy pre frames s = _
  unfold execConnectionEvent
  rw [he]
  dsimp only
  rw [hc] <;> rfl

theorem exec_connectionEvent_past {n : Nat} (h : n < c.upcoming ∨ s.receives = false) (busy : Bool) (pre : Int)
    (frames : List NodeFrame) : exec (.connectionEvent a n busy pre frames) s = .next s := by
  rw [exec_connectionEvent_eq he hc]
  refine congrArg Host.Outcome.next (if_pos ?_)
  rcases h with h | h
  · exact .inr (.inl h)
  · exact .inl (by rw [h]; rfl)

variable {n : Nat} (hr : s.receives = true) (hn : c.upcoming ≤ n)
  (hw : c.predict e.sleepy n - (s.guard c e.sleepy n : Int) < s.nowUs + 1000)
include hr hn hw

theorem exec_connectionEvent_skipped (pre : Int) (l : List NodeFrame) : exec (.connectionEvent a n true pre l) s =
    .next (((s.passEvent a n).reportTx (.skipped a n)).bump (F.RFM_EVT_SKIP_CNT.COUNT c.radio)) := by
  rw [exec_connectionEvent_eq he hc]
  exact congrArg Host.Outcome.next ((if_neg (notPast hr hn hw)).trans (if_pos rfl))

variable {lna : Bool} (hlna : lna = (match s.radio c.radio with | some rc => rc.flags.getLsbD 1 | none => false))
  (hcont : s.contended a c (c.predict e.sleepy n - (s.guard c e.sleepy n : Int))
    (c.predict e.sleepy n + (s.guard c e.sleepy n : Int)) = false)
include hlna hcont

/-- An event whose first frame is not heard in its guard window. -/
theorem exec_connectionEvent_silent {pre : Int} (l : List NodeFrame)
    (h : c.predict e.sleepy n + (s.guard c e.sleepy n : Int) < pre) : exec (.connectionEvent a n false pre l) s =
      .next ((((s.send (.receiver c.radio (c.predict e.sleepy n - (s.guard c e.sleepy n : Int)) lna)).passEvent a n).reportTx
        (.served a n)).expectEvent c.radio (c.channel n) true) := by
  subst hlna
  rw [exec_connectionEvent_eq he hc]
  dsimp only
  rw [if_neg (notPast hr hn hw), hcont, if_neg (by decide), if_neg (by omega), State.runEvent]

/-- An event with a frame heard in its guard window. -/
theorem exec_connectionEvent_heard {pre : Int} (f : NodeFrame) (l : List NodeFrame)
    (h : c.predict e.sleepy n - (s.guard c e.sleepy n : Int) ≤ pre)
    (h' : pre ≤ c.predict e.sleepy n + (s.guard c e.sleepy n : Int)) : exec (.connectionEvent a n false pre (f :: l)) s =
      .next (((((s.send (.receiver c.radio (c.predict e.sleepy n - (s.guard c e.sleepy n : Int)) lna)).runEvent
        a c.radio (c.channel n) n pre 1 (f :: l)).passEvent a n).reportTx (.served a n)).expectEvent c.radio (c.channel n)
          (!f.fcsOk)) := by
  subst hlna
  rw [exec_connectionEvent_eq he hc]
  dsimp only
  rw [if_neg (notPast hr hn hw), hcont, if_neg (by decide), if_pos ⟨h, h'⟩]

end

/-! ### A connection that is lost (R242) -/

/-- A payload that waits for its node from now on. -/
def DownPayload.waits (now : Nat) (p : DownPayload) : DownPayload :=
  { p with held := match p.held with | some t => some t | none => some now }

theorem DownPayload.waits_held (now : Nat) (p : DownPayload) : (p.waits now).held.isSome = true := by
  unfold DownPayload.waits
  cases p.held <;> rfl

theorem lostRefs_apart : F.RFM_CONN_LOST_CNT.COUNT.ok = true ∧
    fieldsApart [F.RFM_CONN_LOST_CNT.COUNT, F.RFM_JOINED.TOTAL, F.RFM_JOINED.RADIO, F.PLC_ROUTES.COUNT] = true := by
  decide +kernel

theorem exec_connectionLost {short : Nat} {e : JoinedEntry} {c : RadioConn} {s : State} (hs : Inv s)
    (he : Map.find s.rad.joined short = some e) (hc : e.conn = some c) :
    (s.nowUs < c.anchor + c.sup * 100000 → exec (.connectionLost short) s = .next s) ∧
    (c.anchor + c.sup * 100000 ≤ s.nowUs → ∃ t x, exec (.connectionLost short) s = .next t ∧
      Map.find t.rad.joined short = some x ∧ x.conn = none ∧ x.queue.length = e.queue.length ∧
      (∀ p ∈ x.queue, p.held.isSome = true) ∧ x.meter = e.meter ∧ x.joinCtr = e.joinCtr ∧ x.plc = e.plc ∧
      (∀ a, a ≠ short → Map.find t.rad.joined a = Map.find s.rad.joined a) ∧
      t.fld F.RFM_CONN_LOST_CNT.COUNT = min (s.fld F.RFM_CONN_LOST_CNT.COUNT + 1) (2 ^ 32 - 1) ∧
      t.evt.queue = s.evt.queue ++ [mkPost s Ev.RF_CONN_LOST [b2 short]] ∧
      OnlyRegs [R.RFM_JOINED, R.PLC_ROUTES, R.RFM_CONN_LOST_CNT] s t) := by
  have hexec : exec (.connectionLost short) s = .next (if c.anchor + c.sup * 100000 ≤ s.nowUs then
      ((s.setJoined short { e with conn := none, queue := e.queue.map (DownPayload.waits s.now) }).bump
        F.RFM_CONN_LOST_CNT.COUNT).post Ev.RF_CONN_LOST [b2 short] else s) := by
    show execConnectionLost short s = _
    unfold execConnectionLost
    rw [he]
    dsimp only
    rw [hc]
    rfl
  rw [hexec]
  refine ⟨fun h => by rw [if_neg (by omega)], fun h => ?_⟩
  rw [if_pos h]
  generalize hx : ({ e with conn := none, queue := e.queue.map (DownPayload.waits s.now) } : JoinedEntry) = x
  refine ⟨_, x, rfl, ?_, ?_, ?_, fun p hp => ?_, ?_, ?_, ?_, fun a ha => ?_, ?_, ?_, ?_⟩
  · rw [State.post_rad, State.bump_rad]
    exact s.setJoined_same short x
  · rw [← hx]
  · rw [← hx]
    exact List.length_map _
  · rw [← hx] at hp
    obtain ⟨q, -, rfl⟩ := List.mem_map.mp hp
    exact q.waits_held s.now
  · rw [← hx]
  · rw [← hx]
  · rw [← hx]
  · rw [State.post_rad, State.bump_rad]
    exact s.setJoined_other short x ha
  · rw [State.fld, State.post_regs, ← State.fld, State.fld_bump_same 1 (State.setJoined_inv _ _ hs) lostRefs_apart.1,
      State.fld_of_setFields_other (s.setJoined_regs short x) hs lostRefs_apart.2 rfl]
    rfl
  · have hevt : ((s.setJoined short x).bump F.RFM_CONN_LOST_CNT.COUNT).evt = s.evt := by
      rw [State.bump_evt, State.setJoined_evt]
    rw [State.post_evt, hevt, mkPost_congr ⟨s.evt.queue, hevt⟩]
  · have hsub : [R.RFM_JOINED, R.PLC_ROUTES] ⊆ [R.RFM_JOINED, R.PLC_ROUTES, R.RFM_CONN_LOST_CNT] := List.subset_append_left _ [_]
    exact (((s.setJoined_onlyRegs short x).mono hsub).bump (f := F.RFM_CONN_LOST_CNT.COUNT) 1
      (.tail _ (.tail _ (.head _)))).post _ _

/-! ### A channel that returns (R243) -/

theorem State.queueDown_frame (s : State) (a : Nat) (b : DownBody) : ∃ m, s.queueDown a b = s.withJoined m := by
  unfold State.queueDown
  split
  · exact ⟨s.rad.joined, rfl⟩
  · exact ⟨_, rfl⟩

theorem State.sendMaps_frame (s : State) (x : Nat) : ∃ m, s.sendMaps x = s.withJoined m := by
  unfold State.sendMaps
  generalize s.usable x = u
  suffices h : ∀ (l : Map JoinedEntry) (t : State), ∃ m, l.foldl (fun (t : State) e => match e.2.conn with
      | some c => if c.radio = x then t.queueDown e.1 (.mapUpdate u) else t
      | none => t) t = t.withJoined m from h s.rad.joined s
  intro l
  induction l with
  | nil => exact fun t => ⟨t.rad.joined, rfl⟩
  | cons e l ih =>
    intro t
    have hstep : ∃ m, (match e.2.conn with
        | some c => if c.radio = x then t.queueDown e.1 (.mapUpdate u) else t
        | none => t) = t.withJoined m := by
      split
      · split
        · exact t.queueDown_frame _ _
        · exact ⟨t.rad.joined, rfl⟩
      · exact ⟨t.rad.joined, rfl⟩
    obtain ⟨m, hm⟩ := hstep
    obtain ⟨m', hm'⟩ := ih (t.withJoined m)
    refine ⟨m', ?_⟩
    rw [List.foldl_cons, hm, hm']
    rfl

theorem exec_channelReturn {x ch p : Nat} {s : State} (hp : Map.find s.rad.excluded (64 * x + ch) = some p) (hch : ch < 64) :
    (s.evt.opSeconds.toNat < p + 86400 → exec (.channelReturn x ch) s = .next s) ∧
    (p + 86400 ≤ s.evt.opSeconds.toNat → ∃ t, exec (.channelReturn x ch) s = .next t ∧
      t.rad.excluded = Map.erase s.rad.excluded (64 * x + ch) ∧ t.evt.queue = s.evt.queue ++ [mkPost s Ev.RF_CHANNEL []] ∧
      t.regs = s.regs ∧ t.out = s.out) := by
  have hexec : exec (.channelReturn x ch) s = .next (if ch < 64 ∧ p + 86400 ≤ s.evt.opSeconds.toNat then
      (({ s with rad := { s.rad with excluded := Map.erase s.rad.excluded (64 * x + ch) } } : State).sendMaps x).post
        Ev.RF_CHANNEL [] else s) := by
    show execChannelReturn x ch s = _
    unfold execChannelReturn
    rw [hp]
  rw [hexec]
  refine ⟨fun h => by rw [if_neg fun ⟨_, h2⟩ => absurd h2 (by omega)], fun h => ?_⟩
  obtain ⟨m, hm⟩ := State.sendMaps_frame { s with rad := { s.rad with excluded := Map.erase s.rad.excluded (64 * x + ch) } } x
  rw [if_pos ⟨hch, h⟩, hm]
  exact ⟨_, rfl, rfl, rfl, rfl, rfl⟩

/-! ### A synthesiser out of lock -/

/-- The lock of a synthesiser lost, in the two fields that show it. -/
def State.lockLost (s : State) (lock seen : FieldRef) : State := ((s.flag lock false).flag seen true).post Ev.RF_SYNTH []

section
variable (s : State) (lock seen : FieldRef)

theorem State.lockLost_regs : (s.lockLost lock seen).regs = ((s.flag lock false).flag seen true).regs := rfl

theorem State.lockLost_frame : s.lockLost lock seen = { s.post Ev.RF_SYNTH [] with regs := (s.lockLost lock seen).regs } := rfl

theorem State.lockLost_onlyRegs {l : List Nat} (hl : lock.addr ∈ l) (hs : seen.addr ∈ l) :
    OnlyRegs l s (s.lockLost lock seen) := (((OnlyRegs.refl l s).flag false hl).flag true hs).post _ _

end

theorem lockRefs_apart {x : Nat} (h : x < 2) : (F.RFM_STAT.LOCK x).ok = true ∧ (F.RFM_STAT.LOCK_FAIL_SEEN x).ok = true ∧
    (F.RFM_STAT.LOCK x).apart (F.RFM_STAT.LOCK_FAIL_SEEN x) = true :=
  (by decide +kernel : ∀ x < 2, (F.RFM_STAT.LOCK x).ok = true ∧ (F.RFM_STAT.LOCK_FAIL_SEEN x).ok = true ∧
    (F.RFM_STAT.LOCK x).apart (F.RFM_STAT.LOCK_FAIL_SEEN x) = true) x h

theorem exec_synthLockFail {x : Nat} {s : State} (hs : Inv s) (hx : x < 2) : ∃ t, exec (.synthLockFail x) s = .next t ∧
    t.fld (F.RFM_STAT.LOCK x) = 0 ∧ t.fld (F.RFM_STAT.LOCK_FAIL_SEEN x) = 1 ∧ OnlyRegs [R.RFM_STAT x] s t ∧
    t = { s.post Ev.RF_SYNTH [] with regs := t.regs } := by
  obtain ⟨hlock, hseen, hap⟩ := lockRefs_apart hx
  have h1 : Inv (s.flag (F.RFM_STAT.LOCK x) false) := RegFile.flag_wf (F.RFM_STAT.LOCK x) false hs
  refine ⟨s.lockLost (F.RFM_STAT.LOCK x) (F.RFM_STAT.LOCK_FAIL_SEEN x), congrArg Host.Outcome.next (if_pos hx), ?_, ?_,
    s.lockLost_onlyRegs _ _ (.head _) (.head _), State.lockLost_frame _ _ _⟩
  · rw [State.fld, State.lockLost_regs]
    exact (State.fld_flag_other true h1 hseen hlock hap).trans (State.fld_flag_same false hs hlock)
  · rw [State.fld, State.lockLost_regs]
    exact State.fld_flag_same true h1 hseen

theorem evtSkip_ok {x : Nat} (h : x < 2) : (F.RFM_EVT_SKIP_CNT.COUNT x).ok = true ∧
    (F.RFM_EVT_SKIP_CNT.COUNT x).hi - (F.RFM_EVT_SKIP_CNT.COUNT x).lo = 31 :=
  (by decide +kernel : ∀ x < 2, (F.RFM_EVT_SKIP_CNT.COUNT x).ok = true ∧
    (F.RFM_EVT_SKIP_CNT.COUNT x).hi - (F.RFM_EVT_SKIP_CNT.COUNT x).lo = 31) x h

/-- Settles O39: the events of a connection, its loss, a channel that returns, the table in JOURNAL and the synthesiser. -/
theorem connectionsRunEndAndAreKept : Obligations.ConnectionsRunEndAndAreKept := by
  unfold Obligations.ConnectionsRunEndAndAreKept
  refine ⟨fun short n e c s hs he hc hx => ?_, fun x ch p s hp hch => exec_channelReturn hp hch, fun s => rfl,
    fun x s hs hx => exec_synthLockFail hs hx⟩
  obtain ⟨hlost, hlost'⟩ := exec_connectionLost hs he hc
  refine ⟨fun h busy pre l => exec_connectionEvent_past he hc h busy pre l, fun pre l hr hn hw => ?_,
    fun pre l lna hr hn hw hlna hcont hpre => ?_, fun pre f l lna hr hn hw hlna hcont hpre hpre' => ?_, hlost, hlost'⟩
  · have hpass := State.passEvent_eq he hc n
    have hrep := State.reportTx_frame (s.passEvent short n) (.skipped short n)
    rw [exec_connectionEvent_skipped he hc hr hn hw, hrep, hpass]
    generalize State.pair _ = p
    obtain ⟨hok, hwidth⟩ := evtSkip_ok hx
    refine ⟨_, rfl, ?_, ?_, ?_, fun a ha => Map.find_set_other _ ha, rfl, rfl⟩
    · refine (RegFile.fld_bump_same 1 hs hok).trans ?_
      rw [hwidth]
      rfl
    · exact (OnlyRegs.refl _ s).bump 1 (.head _)
    · exact congrArg (fun o : Option JoinedEntry => o.bind fun x => x.conn.map fun y => y.upcoming) (Map.find_set_same ..)
  · exact exec_connectionEvent_silent he hc hr hn hw hlna hcont l hpre
  · exact exec_connectionEvent_heard he hc hr hn hw hlna hcont f l hpre hpre'

end Sys2Proof.Machine

/-! Frames of the radio mesh as they are received, and its transmissions (R226 to R255). -/

namespace Sys2Proof.Machine

set_option Elab.async false

/-! ### A counter of what was received -/

/-- A counter that is raised is counted. -/
theorem counted_bump {s : State} (hs : Inv s) {f : FieldRef} (hf : f.ok = true) : Counted f s (s.bump f) :=
  ⟨State.fld_bump_same 1 hs hf, (OnlyRegs.refl _ s).bump 1 (.head _), rfl⟩

theorem rfmCounters_ok {x : Nat} (h : x < 2) : (F.RFM_CRC_ERR_CNT.COUNT x).ok = true ∧ (F.RFM_RX_CNT.COUNT x).ok = true ∧
    (F.RFM_WMB_CNT.COUNT x).ok = true :=
  (by decide +kernel : ∀ x < 2, (F.RFM_CRC_ERR_CNT.COUNT x).ok = true ∧ (F.RFM_RX_CNT.COUNT x).ok = true ∧
    (F.RFM_WMB_CNT.COUNT x).ok = true) x h

theorem joinCounters_ok : F.RFM_JOIN_REJ_CNT.COUNT.ok = true ∧ F.RFM_JOIN_CNT.COUNT.ok = true ∧
    F.RFM_SEEN_HIT_CNT.COUNT.ok = true := by decide +kernel

/-- A radio that receives takes a frame. -/
theorem frameTaken {b : Bool} {s : State} (hb : b = true) (hr : s.receives = true) :
    ¬ ((!b) = true ∨ (!s.receives) = true) := by
  rw [hb, hr]
  decide

/-! ### JOIN_REQ (R236 to R238) -/

section
variable {x : Nat} {c : RadioConf} {s : State} (hc : s.radio x = some c)
include hc

theorem exec_joinReq_eq (fcsOk : Bool) (l : List Byte) (fin : Int) : exec (.joinReq x fcsOk l fin) s =
    .next (if !c.mesh ∨ !s.receives then s
      else if !fcsOk then s.bump (F.RFM_CRC_ERR_CNT.COUNT x)
      else match joinReqOf l with
        | some q => (s.bump (F.RFM_RX_CNT.COUNT x)).joinRequest x (c.floodCh.getD 0 0) false q fin
        | none => s.bump (F.RFM_RX_CNT.COUNT x)) := by
  show execJoinReq x fcsOk l fin s = _
  unfold execJoinReq
  rw [hc] <;> rfl

theorem exec_joinReq_deaf (h : c.mesh = false ∨ s.receives = false) (fcsOk : Bool) (l : List Byte) (fin : Int) :
    exec (.joinReq x fcsOk l fin) s = .next s := by
  rw [exec_joinReq_eq hc, if_pos]
  rcases h with h | h <;> rw [h]
  · exact .inl rfl
  · exact .inr rfl

theorem exec_joinReq_received (hs : Inv s) (hx : x < 2) (hm : c.mesh = true) (hr : s.receives = true) (l : List Byte)
    (fin : Int) : (∃ t, exec (.joinReq x false l fin) s = .next t ∧ Counted (F.RFM_CRC_ERR_CNT.COUNT x) s t) ∧
    (∃ t u, exec (.joinReq x true l fin) s = .next t ∧ Counted (F.RFM_RX_CNT.COUNT x) s u ∧
      (∀ q, joinReqOf l = some q → t = u.joinRequest x (c.floodCh.getD 0 0) false q fin) ∧ (joinReqOf l = none → t = u)) := by
  obtain ⟨hcrc, hrx, -⟩ := rfmCounters_ok hx
  rw [exec_joinReq_eq hc, exec_joinReq_eq hc, if_neg (frameTaken hm hr), if_neg (frameTaken hm hr)]
  refine ⟨⟨_, rfl, counted_bump hs hcrc⟩, _, _, rfl, counted_bump hs hrx, fun q hq => ?_, fun hq => ?_⟩
  · rw [if_neg (by decide), hq]
  · rw [if_neg (by decide), hq]

end

section
variable {x ch : Nat} {relayed : Bool} {q : JoinReq} {s : State} (fin : Int)

theorem State.joinRequest_silent {k : Nat} (h : s.judgeJoin x q = .silent k) : s.joinRequest x ch relayed q fin =
    (s.bump F.RFM_JOIN_REJ_CNT.COUNT).post Ev.RF_JOIN_REJECT [b8 q.eui, b2 k] := by
  rw [State.joinRequest, h]

theorem State.joinRequest_refused {i st : Nat} (h : s.judgeJoin x q = .refused i st) : s.joinRequest x ch relayed q fin =
    ((s.bump F.RFM_JOIN_REJ_CNT.COUNT).post Ev.RF_JOIN_REJECT [b8 q.eui, b2 (Cause.pick s.free)]).draw.answerJoin
      x ch relayed i q st none fin := by
  rw [State.joinRequest, h]

theorem State.joinRequest_accepted {i a : Nat} (h : s.judgeJoin x q = .accepted i a) : s.joinRequest x ch relayed q fin =
    (((s.enter i a q).answerJoin x ch relayed i q 0 (some a) fin).bump F.RFM_JOIN_CNT.COUNT).post Ev.RF_JOIN
      [b4 i, b2 a, b2 x] := by
  rw [State.joinRequest, h]

/-- The entry of a meter that joins. -/
def State.entryOf (s : State) (i a : Nat) (q : JoinReq) : JoinedEntry :=
  { Map.findD s.rad.joined a ⟨i, q.sleepy, q.ciMs, 0, 0, 0, 0, 0, [], [], false, none, none⟩ with
    meter := i, sleepy := q.sleepy, ciMs := q.ciMs, joinCtr := q.joinCtr, conn := none }

theorem State.enter_eq (i a : Nat) : s.enter i a q = s.setJoined a (s.entryOf i a q) := rfl

/-- A JOIN_REQ as it is judged. -/
theorem State.joinRequest_cases (hs : Inv s) :
    (∀ k, s.judgeJoin x q = .silent k → ∃ u, Counted F.RFM_JOIN_REJ_CNT.COUNT s u ∧
      s.joinRequest x ch relayed q fin = u.post Ev.RF_JOIN_REJECT [b8 q.eui, b2 k]) ∧
    (∀ i st, s.judgeJoin x q = .refused i st → ∃ u, Counted F.RFM_JOIN_REJ_CNT.COUNT s u ∧
      s.joinRequest x ch relayed q fin =
        (u.post Ev.RF_JOIN_REJECT [b8 q.eui, b2 (Cause.pick s.free)]).draw.answerJoin x ch relayed i q st none fin) ∧
    (∀ i a, s.judgeJoin x q = .accepted i a → ∃ u t e, Map.find u.rad.joined a = some e ∧ e.meter = i ∧
      e.joinCtr = q.joinCtr ∧ e.sleepy = q.sleepy ∧ e.ciMs = q.ciMs ∧ e.conn = none ∧ OnlyRegs [R.RFM_JOINED, R.PLC_ROUTES] s u ∧
      (∀ b, b ≠ a → Map.find u.rad.joined b = Map.find s.rad.joined b) ∧
      Counted F.RFM_JOIN_CNT.COUNT (u.answerJoin x ch relayed i q 0 (some a) fin) t ∧
      s.joinRequest x ch relayed q fin = t.post Ev.RF_JOIN [b4 i, b2 a, b2 x]) := by
  obtain ⟨hrej, hjoin, -⟩ := joinCounters_ok
  refine ⟨fun k h => ⟨_, counted_bump hs hrej, State.joinRequest_silent fin h⟩,
    fun i st h => ⟨_, counted_bump hs hrej, State.joinRequest_refused fin h⟩, fun i a h => ?_⟩
  have hinv : Inv ((s.enter i a q).answerJoin x ch relayed i q 0 (some a) fin) :=
    (State.answerJoin_keeps (State.enter_keeps (Keeps.refl s) i a q) x ch relayed i q 0 (some a) fin).regs hs
  have hacc := State.joinRequest_accepted (ch := ch) (relayed := relayed) fin h
  rw [State.enter_eq] at hinv hacc
  exact ⟨s.setJoined a (s.entryOf i a q), _, s.entryOf i a q, s.setJoined_same a _, rfl, rfl, rfl, rfl, rfl,
    s.setJoined_onlyRegs a _, fun b hb => s.setJoined_other a _ hb, counted_bump hinv hjoin, hacc⟩

end

/-! ### Floods (R249, R250) -/

/-- The seen cache replaced, with the registers `r`. -/
def State.seenSet (s : State) (l : List (FloodAddr × Nat × Nat)) (r : RegFile) : State :=
  { s with regs := r, rad := { s.rad with seen := l } }

theorem State.seenSet_bump (s : State) (f : FieldRef) (l : List (FloodAddr × Nat × Nat)) :
    ({ s.bump f with rad := { (s.bump f).rad with seen := l } } : State) = s.seenSet l (s.bump f).regs := rfl

/-- The seen cache takes a key last (R250). -/
theorem State.see_eq (s : State) (o : FloodAddr) (n : Nat) : ∃ l r, s.see o n = s.seenSet (l ++ [(o, n, s.now)]) r := by
  unfold State.see
  dsimp only
  split
  · exact ⟨_, _, State.seenSet_bump s _ _⟩
  · exact ⟨_, _, rfl⟩

theorem State.see_last (s : State) (o : FloodAddr) (n : Nat) : (s.see o n).rad.seen.getLast? = some (o, n, s.now) := by
  obtain ⟨l, r, h⟩ := s.see_eq o n
  rw [h]
  exact List.getLast?_concat ..

section
variable {x ch : Nat} {c : RadioConf} {s : State} (hc : s.radio x = some c) (hm : c.mesh = true) (hr : s.receives = true)
include hc hm hr

theorem exec_floodReceive_bad (l : List Byte) (fin : Int) :
    exec (.floodReceive x ch false l fin) s = .next (s.bump (F.RFM_CRC_ERR_CNT.COUNT x)) := by
  show execFloodReceive x ch false l fin s = _
  unfold execFloodReceive
  rw [hc]
  exact congrArg Host.Outcome.next ((if_neg (frameTaken hm hr)).trans (if_pos rfl))

/-- A flood in order. -/
theorem exec_floodReceive_good (l : List Byte) (fin : Int) : exec (.floodReceive x ch true l fin) s =
    .next (match floodOf l with
      | some (true, o, n, p) =>
        if s.rad.seen.any fun e => e.1 == o && e.2.1 == n && decide (s.now < e.2.2 + 60000) then
          (s.bump (F.RFM_RX_CNT.COUNT x)).bump F.RFM_SEEN_HIT_CNT.COUNT
        else ((s.bump (F.RFM_RX_CNT.COUNT x)).see o n).floodPayload x ch o p fin
      | _ => s.bump (F.RFM_RX_CNT.COUNT x)) := by
  show execFloodReceive x ch true l fin s = _
  unfold execFloodReceive
  rw [hc]
  refine congrArg Host.Outcome.next ((if_neg (frameTaken hm hr)).trans ((if_neg (by decide)).trans ?_))
  rfl

end

theorem seen_iff (l : List (FloodAddr × Nat × Nat)) (o : FloodAddr) (n now : Nat) :
    (l.any fun e => e.1 == o && e.2.1 == n && decide (now < e.2.2 + 60000)) = true ↔
      ∃ k ∈ l, k.1 = o ∧ k.2.1 = n ∧ now < k.2.2 + 60000 := by
  simp only [List.any_eq_true, Bool.and_eq_true, beq_iff_eq, decide_eq_true_eq, and_assoc]

theorem State.floodPayload_join {s : State} {p : List Byte} {q : JoinReq} (h : joinReqOf p = some q) (x ch : Nat) (o : FloodAddr)
    (fin : Int) : s.floodPayload x ch o p fin = s.joinRequest x ch true q fin := by
  unfold State.floodPayload
  rw [h]

theorem State.floodPayload_message {s : State} {p : List Byte} (h : joinReqOf p = none) (x ch : Nat) (o : FloodAddr)
    (fin : Int) : s.floodPayload x ch o p fin =
      s.passUp (match o with | .short a => a | .long _ => 0xFFFF) none false (s.floodFrame x o p) := by
  unfold State.floodPayload
  rw [h] <;> rfl

/-- A flood received, by its key. -/
theorem exec_floodReceive {x ch : Nat} {c : RadioConf} {l : List Byte} {fin : Int} {s : State} (hs : Inv s) (hx : x < 2)
    (hc : s.radio x = some c) (hm : c.mesh = true) (hr : s.receives = true) :
    (∃ t, exec (.floodReceive x ch false l fin) s = .next t ∧ Counted (F.RFM_CRC_ERR_CNT.COUNT x) s t) ∧
    ((floodOf l = none ∨ ∃ o q p, floodOf l = some (false, o, q, p)) →
      ∃ t, exec (.floodReceive x ch true l fin) s = .next t ∧ Counted (F.RFM_RX_CNT.COUNT x) s t) ∧
    (∀ o seq p, floodOf l = some (true, o, seq, p) →
      ((∃ k ∈ s.rad.seen, k.1 = o ∧ k.2.1 = seq ∧ s.now < k.2.2 + 60000) →
        ∃ t u, exec (.floodReceive x ch true l fin) s = .next t ∧ Counted (F.RFM_RX_CNT.COUNT x) s u ∧
          Counted F.RFM_SEEN_HIT_CNT.COUNT u t) ∧
      ((¬ ∃ k ∈ s.rad.seen, k.1 = o ∧ k.2.1 = seq ∧ s.now < k.2.2 + 60000) →
        ∃ t u v, exec (.floodReceive x ch true l fin) s = .next t ∧ Counted (F.RFM_RX_CNT.COUNT x) s u ∧
          v = u.see o seq ∧ v.rad.seen.getLast? = some (o, seq, s.now) ∧
          (∀ q, joinReqOf p = some q → t = v.joinRequest x ch true q fin) ∧
          (joinReqOf p = none → t = v.passUp (match o with | .short a => a | .long _ => 0xFFFF) none false
            (v.floodFrame x o p)))) := by
  obtain ⟨hcrc, hrx, -⟩ := rfmCounters_ok hx
  obtain ⟨-, -, hhit⟩ := joinCounters_ok
  have hrxInv : Inv (s.bump (F.RFM_RX_CNT.COUNT x)) := State.bump_inv hs (F.RFM_RX_CNT.COUNT x) 1
  rw [exec_floodReceive_bad hc hm hr, exec_floodReceive_good hc hm hr]
  refine ⟨⟨_, rfl, counted_bump hs hcrc⟩, fun h => ⟨_, rfl, ?_⟩, fun o seq p hl => ⟨fun h => ?_, fun h => ?_⟩⟩
  · rcases h with h | ⟨o, q, p, h⟩ <;> rw [h] <;> exact counted_bump hs hrx
  · rw [hl]
    dsimp only
    rw [if_pos ((seen_iff _ _ _ _).mpr h)]
    exact ⟨_, _, rfl, counted_bump hs hrx, counted_bump hrxInv hhit⟩
  · rw [hl]
    dsimp only
    rw [if_neg (mt (seen_iff _ _ _ _).mp h)]
    exact ⟨_, _, _, rfl, counted_bump hs hrx, rfl, State.see_last _ o seq, fun q hq => State.floodPayload_join hq _ _ _ _,
      fun hq => State.floodPayload_message hq _ _ _ _⟩

/-! ### Wireless M-Bus (R255) -/

theorem exec_wmbusFrame {x : Nat} {c : RadioConf} {f : IngestFrame} {s : State} (hs : Inv s) (hx : x < 2)
    (hc : s.radio x = some c) (hw : c.wmbus = true) (hr : s.receives = true) :
    (∃ t, exec (.wmbusFrame x false f) s = .next t ∧ Counted (F.RFM_CRC_ERR_CNT.COUNT x) s t) ∧
    (∃ t u, exec (.wmbusFrame x true f) s = .next t ∧ Counted (F.RFM_WMB_CNT.COUNT x) s u ∧
      t = u.handIn (f.stamp (1 + x) s.timeMs)) := by
  have hexec (crcOk : Bool) : exec (.wmbusFrame x crcOk f) s = .next (if !crcOk then s.bump (F.RFM_CRC_ERR_CNT.COUNT x)
      else (s.bump (F.RFM_WMB_CNT.COUNT x)).handIn (f.stamp (1 + x) s.timeMs)) := by
    show execWmbusFrame x crcOk f s = _
    unfold execWmbusFrame
    rw [hc]
    exact congrArg Host.Outcome.next (if_neg (frameTaken hw hr))
  obtain ⟨hcrc, -, hwmb⟩ := rfmCounters_ok hx
  rw [hexec, hexec]
  exact ⟨⟨_, rfl, counted_bump hs hcrc⟩, _, _, rfl, counted_bump hs hwmb, rfl⟩

/-- Settles O40: JOIN_REQ as it is heard and judged, floods, and wireless M-Bus. -/
theorem radioFramesAreCountedAndUsed : Obligations.RadioFramesAreCountedAndUsed := by
  unfold Obligations.RadioFramesAreCountedAndUsed
  exact ⟨fun x c l fin s hs hx hc hm hr => exec_joinReq_received hc hs hx hm hr l fin,
    fun x c fin fcsOk l s hc h => exec_joinReq_deaf hc h fcsOk l fin,
    fun x ch relayed q fin s hs => State.joinRequest_cases fin hs,
    fun x ch c l fin s hs hx hc hm hr => exec_floodReceive hs hx hc hm hr,
    fun x c f s hs hx hc hw hr => exec_wmbusFrame hs hx hc hw hr⟩

end Sys2Proof.Machine

/-! Transmissions of the mesh (R232, R233, R250 to R253). -/

namespace Sys2Proof.Machine

set_option Elab.async false

/-! ### ENVELOPE_SEND (R232, R233) -/

/-- The key of the first entry that holds `p`. -/
def firstKey {α : Type} (p : α → Bool) (m : Map α) : Option Nat := (m.find? fun e => p e.2).map fun e => e.1

theorem firstKey_cons {α : Type} (p : α → Bool) (k : Nat) (v : α) (m : Map α) :
    firstKey p ((k, v) :: m) = if p v then some k else firstKey p m := by
  unfold firstKey
  by_cases h : p v <;> simp [h]

/-- An entry that changes only in what `p` does not look at is found as before. -/
theorem firstKey_set {α : Type} {p : α → Bool} {a : Nat} {v w : α} (hp : p w = p v) : ∀ {m : Map α},
    firstKey p m = some a → Map.find m a = some v → firstKey p (Map.set m a w) = some a
  | (k, x) :: m, hf, hv => by
    rw [firstKey_cons] at hf
    rw [Map.find] at hv
    rw [Map.set]
    split
    · rw [firstKey_cons, firstKey_cons, hf]
      split <;> rfl
    · split
      · next h =>
        subst h
        rw [if_pos rfl, Option.some.injEq] at hv
        rw [firstKey_cons, hp, ← hv]
        split
        · rfl
        · next hx => rwa [if_neg hx] at hf
      · next h =>
        rw [if_neg fun e => h e.symm] at hv
        by_cases hx : p x = true
        · rw [if_pos hx, Option.some.injEq] at hf
          exact absurd hf.symm h
        · rw [if_neg hx] at hf
          rw [firstKey_cons, if_neg hx]
          exact firstKey_set hp hf hv

theorem State.joinedOf_eq (s : State) (i : Nat) : s.joinedOf i = firstKey (fun e => e.meter == i) s.rad.joined := rfl

section
variable {i : Nat} {body : List Byte} {l : List (Nat × List Byte)} {s u : State} (hm : s.ing.toMeter = (i, body) :: l)
  (hu : u = { s with ing := { s.ing with toMeter := l } })
include hm hu

theorem exec_envelopeSend_eq : exec .envelopeSend s = .next (match (u.sealEnvelope i body).joinedOf i with
    | some a => ((u.sealEnvelope i body).plcPump a).1
    | none => u.sealEnvelope i body) := by
  subst hu
  show execEnvelopeSend s = _
  unfold execEnvelopeSend
  rw [hm] <;> rfl

theorem exec_envelopeSend_unjoined (h : s.joinedOf i = none) : exec .envelopeSend s = .next (u.sealEnvelope i body) := by
  have hj : u.joinedOf i = none := by
    subst hu
    exact h
  have hself : u.sealEnvelope i body = u := by
    unfold State.sealEnvelope
    dsimp only
    split
    · rfl
    · rw [hj]
      rfl
  rw [exec_envelopeSend_eq hm hu, hself, hj]

end

/-- A payload queued for a node that joined. -/
theorem State.queueDown_eq {s : State} {a : Nat} {e : JoinedEntry} (h : Map.find s.rad.joined a = some e) (b : DownBody) :
    ∃ p, s.queueDown a b = s.withJoined (Map.set s.rad.joined a { e with queue := e.queue ++ [p] }) ∧ p.body = b ∧ p.lsn = 0 := by
  unfold State.queueDown
  rw [h]
  exact ⟨_, rfl, rfl, rfl⟩

theorem State.queueDown_none {s : State} {a : Nat} (h : Map.find s.rad.joined a = none) (b : DownBody) : s.queueDown a b = s := by
  unfold State.queueDown
  rw [h]

/-- The block of device counters that is reserved once `n` is taken (R233). -/
def reservedFor (reserved n : Nat) : Nat := if reserved < n then min 0xFFFFFFFF (reserved + 65536) else reserved

theorem State.takeCounter_eq {s : State} (h : s.fld F.RFM_DEV_CTR.DCOUNTER < 0xF0000000) : s.takeCounter =
    (s.counted F.RFM_DEV_CTR.DCOUNTER (s.fld F.RFM_DEV_CTR.DCOUNTER + 1)
      (reservedFor s.rad.reserved (s.fld F.RFM_DEV_CTR.DCOUNTER + 1)), s.fld F.RFM_DEV_CTR.DCOUNTER + 1) :=
  Prod.ext (if_neg (by omega)) rfl

theorem State.epochDue_eq {s : State} (h : s.fld F.RFM_DEV_CTR.DCOUNTER < 0xF0000000) : s.epochDue = s := if_neg (by omega)

/-- A body sealed under the next counter and queued. -/
theorem State.sealEnvelope_eq {u : State} {i a : Nat} {body key : List Byte} (hk : u.readingKey (u.meter i) = some key)
    (ha : u.joinedOf i = some a) (hd : u.fld F.RFM_DEV_CTR.DCOUNTER < 0xF0000000) (he : u.epoch ≤ (u.meter i).keyEpoch) :
    u.sealEnvelope i body = (u.counted F.RFM_DEV_CTR.DCOUNTER (u.fld F.RFM_DEV_CTR.DCOUNTER + 1)
      (reservedFor u.rad.reserved (u.fld F.RFM_DEV_CTR.DCOUNTER + 1))).queueDown a
        (.message (sealBody key (extHead (u.meter i).conf.extId) (u.fld F.RFM_DEV_CTR.DCOUNTER + 1) body)) := by
  unfold State.sealEnvelope
  dsimp only
  rw [hk]
  dsimp only
  rw [ha]
  dsimp only
  rw [State.epochDue_eq hd, if_neg (by omega), State.takeCounter_eq hd]

/-- What a counter and a payload queued leave, and what they change. -/
theorem State.counted_queueDown {s : State} (hs : Inv s) {i a : Nat} (ha : s.joinedOf i = some a) {f : FieldRef} (hf : f.ok = true)
    (hw : f.hi - f.lo = 31) {n : Nat} (hn : n < 2 ^ 32) (r : Nat) (b : DownBody) :
    ∃ v, (s.counted f n r).queueDown a b = v ∧ v.joinedOf i = some a ∧ v.fld f = n ∧ OnlyRegs [f.addr] s v ∧ v.rad.reserved = r ∧
      (∀ e, Map.find s.rad.joined a = some e → ∃ p, Map.find v.rad.joined a = some { e with queue := e.queue ++ [p] } ∧
        p.body = b ∧ p.lsn = 0) ∧
      (∀ k, k ≠ a → Map.find v.rad.joined k = Map.find s.rad.joined k) := by
  have hfld : (s.setF f n).fld f = n := (State.fld_setF_same _ hs hf).trans (Nat.mod_eq_of_lt (by rw [hw]; exact hn))
  have hregs : OnlyRegs [f.addr] s (s.setF f n) := (OnlyRegs.refl _ s).setF n (.head _)
  cases h : Map.find s.rad.joined a with
  | none =>
    rw [State.queueDown_none (s := s.counted f n r) h]
    exact ⟨_, rfl, ha, hfld, hregs, rfl, fun e he => absurd he (by simp), fun k _ => rfl⟩
  | some e =>
    obtain ⟨p, hp, hb, hl⟩ := State.queueDown_eq (s := s.counted f n r) h b
    rw [hp]
    refine ⟨_, rfl, ?_, hfld, hregs, rfl, fun e' he => ?_, fun k hk => Map.find_set_other _ hk⟩
    · exact firstKey_set (p := fun e : JoinedEntry => e.meter == i) (v := e) (w := { e with queue := e.queue ++ [p] }) rfl
        ((s.joinedOf_eq i).symm.trans ha) h
    · obtain rfl := Option.some.inj he
      exact ⟨p, Map.find_set_same .., hb, hl⟩

theorem dcounter_width : F.RFM_DEV_CTR.DCOUNTER.hi - F.RFM_DEV_CTR.DCOUNTER.lo = 31 := rfl

/-- The oldest body for a meter, sealed and queued. -/
theorem exec_envelopeSend_sealed {i a : Nat} {body key : List Byte} {l : List (Nat × List Byte)} {s u : State}
    (hm : s.ing.toMeter = (i, body) :: l) (hu : u = { s with ing := { s.ing with toMeter := l } })
    (hk : s.readingKey (s.meter i) = some key) (ha : s.joinedOf i = some a) (hd : s.fld F.RFM_DEV_CTR.DCOUNTER + 1 < 0xF0000000)
    (he : s.epoch ≤ (s.meter i).keyEpoch) (hs : Inv s) :
    ∃ v, v = u.sealEnvelope i body ∧ exec .envelopeSend s = .next (v.plcPump a).1 ∧
      v.fld F.RFM_DEV_CTR.DCOUNTER = s.fld F.RFM_DEV_CTR.DCOUNTER + 1 ∧ OnlyRegs [R.RFM_DEV_CTR] s v ∧
      (s.fld F.RFM_DEV_CTR.DCOUNTER < s.rad.reserved → v.rad.reserved = s.rad.reserved) ∧
      (s.rad.reserved ≤ s.fld F.RFM_DEV_CTR.DCOUNTER → v.rad.reserved = min 0xFFFFFFFF (s.rad.reserved + 65536)) ∧
      (∀ e, Map.find s.rad.joined a = some e → ∃ p, Map.find v.rad.joined a = some { e with queue := e.queue ++ [p] } ∧
        p.body = .message (sealBody key (extHead (s.meter i).conf.extId) (s.fld F.RFM_DEV_CTR.DCOUNTER + 1) body) ∧
        p.lsn = 0) ∧
      (∀ b, b ≠ a → Map.find v.rad.joined b = Map.find s.rad.joined b) := by
  have hku : u.readingKey (u.meter i) = some key := by rw [hu]; exact hk
  have hau : u.joinedOf i = some a := by rw [hu]; exact ha
  have heu : u.epoch ≤ (u.meter i).keyEpoch := by rw [hu]; exact he
  have hru : u.regs = s.regs := by rw [hu]
  have hsu : Inv u := by rw [Inv, hru]; exact hs
  have hdu : u.fld F.RFM_DEV_CTR.DCOUNTER = s.fld F.RFM_DEV_CTR.DCOUNTER := congrArg (fun r : RegFile => r.fld _) hru
  have hrad : u.rad = s.rad := by rw [hu]
  have hmeter : u.meter i = s.meter i := by rw [hu]; rfl
  have heq := State.sealEnvelope_eq (body := body) hku hau (by omega) heu
  obtain ⟨v, hv, hj, hfld, hregs, hres, hsame, hother⟩ := State.counted_queueDown hsu hau ok_dcounter dcounter_width
    (n := u.fld F.RFM_DEV_CTR.DCOUNTER + 1) (by omega) (reservedFor u.rad.reserved (u.fld F.RFM_DEV_CTR.DCOUNTER + 1))
    (.message (sealBody key (extHead (u.meter i).conf.extId) (u.fld F.RFM_DEV_CTR.DCOUNTER + 1) body))
  rw [hv] at heq
  rw [hdu] at hfld hres hsame
  rw [hrad] at hres hsame hother
  rw [hmeter] at hsame
  refine ⟨v, heq.symm, ?_, hfld, fun r hr => (hregs r hr).trans (by rw [hru]), fun h => ?_, fun h => ?_, hsame, hother⟩
  · rw [exec_envelopeSend_eq hm hu, heq, hj]
  · exact hres.trans (if_neg (by omega))
  · exact hres.trans (if_pos (by omega))

/-! ### FLOOD_SEND (R250) -/

theorem State.radio_congr {s t : State} (h : t.warp = s.warp) (x : Nat) : t.radio x = s.radio x := by
  simp only [State.radio, h]

theorem State.see_frame (s : State) (o : FloodAddr) (n : Nat) : (s.see o n).warp = s.warp ∧ (s.see o n).rad.floods = s.rad.floods ∧
    (s.see o n).rad.fseq = s.rad.fseq := by
  obtain ⟨l, r, h⟩ := s.see_eq o n
  rw [h]
  exact ⟨rfl, rfl, rfl⟩

theorem exec_floodSend {f : DownFlood} {l : List DownFlood} {s : State} (hf : s.rad.floods = f :: l) (hr : s.receives = true) :
    ∃ u : State, u = (({ s with rad := { s.rad with floods := l, fseq := (s.rad.fseq + 1) % 65536 } } : State).see
        (.short 0xFFFE) ((s.rad.fseq + 1) % 65536)) ∧ u.rad.floods = l ∧ u.rad.fseq = (s.rad.fseq + 1) % 65536 ∧
      u.rad.seen.getLast? = some (.short 0xFFFE, (s.rad.fseq + 1) % 65536, s.now) ∧
      exec .floodSend s = .next (u.meshRadios.foldl (fun t x => match u.radio x with
        | none => t
        | some c => c.floodCh.foldl (fun v ch => v.floodOn x ch u.rad.fseq f) t) u) := by
  obtain ⟨hwarp, hfloods, hfseq⟩ := State.see_frame
    { s with rad := { s.rad with floods := l, fseq := (s.rad.fseq + 1) % 65536 } } (.short 0xFFFE) ((s.rad.fseq + 1) % 65536)
  refine ⟨_, rfl, hfloods, hfseq, State.see_last _ _ _, ?_⟩
  have hexec : exec .floodSend s = .next (({ s with rad := { s.rad with floods := l } } : State).floodOut f) := by
    show execFloodSend s = _
    unfold execFloodSend
    rw [hf]
    exact congrArg Host.Outcome.next (if_pos hr)
  rw [hexec, hfseq]
  refine congrArg Host.Outcome.next ?_
  unfold State.floodOut
  dsimp only
  refine congrArg (fun g => List.foldl g _ _) (funext fun t => funext fun x => ?_)
  rw [State.radio_congr hwarp]
  rfl

/-! ### Transmissions that wait (R253) -/

theorem TxWait.kind_le (w : TxWait) : w.kind = 0 ∨ w.kind = 1 := by
  unfold TxWait.kind
  split
  · exact .inl rfl
  · exact .inr rfl

/-- The order in which waiting transmissions start. -/
def waitOrder (l : List TxWait) : List TxWait := (l.filter fun w => w.kind == 0) ++ l.filter fun w => w.kind == 1

theorem mem_waitOrder {l : List TxWait} {w : TxWait} : w ∈ waitOrder l ↔ w ∈ l := by
  rw [waitOrder, List.mem_append, List.mem_filter, List.mem_filter, beq_iff_eq, beq_iff_eq, ← and_or_left,
    and_iff_left w.kind_le]

/-- What comes first in the order is of the lowest kind. -/
theorem waitOrder_find {p : TxWait → Bool} {l : List TxWait} {w y : TxWait} (hy : (waitOrder l).find? p = some y) (hw : w ∈ l)
    (hp : p w = true) : y ∈ l ∧ p y = true ∧ y.kind ≤ w.kind := by
  refine ⟨mem_waitOrder.mp (List.mem_of_find?_eq_some hy), List.find?_some hy, ?_⟩
  rcases w.kind_le with hk | hk
  · have hfirst : (l.filter fun w => w.kind == 0).find? p ≠ none := by
      intro hn
      rw [List.find?_eq_none] at hn
      exact hn w (List.mem_filter.mpr ⟨hw, by rw [hk]; rfl⟩) hp
    obtain ⟨z, hz⟩ := Option.ne_none_iff_exists'.mp hfirst
    rw [waitOrder, List.find?_append, hz, Option.some_or, Option.some.injEq] at hy
    have hmem := (List.mem_filter.mp (List.mem_of_find?_eq_some hz)).2
    rw [beq_iff_eq] at hmem
    rw [← hy, hmem]
    exact Nat.zero_le _
  · rw [hk]
    rcases y.kind_le with h | h <;> rw [h]
    exact Nat.zero_le _

theorem exec_waitingTransmissionStart_none {s : State} (h : ∀ w ∈ s.rad.waiting, s.mayStart w = false) :
    exec .waitingTransmissionStart s = .next s := by
  have hnone : (waitOrder s.rad.waiting).find? (fun w => s.mayStart w) = none :=
    List.find?_eq_none.mpr fun w hw => by rw [h w (mem_waitOrder.mp hw)]; decide
  show execWaitingTransmissionStart s = _
  unfold execWaitingTransmissionStart
  rw [waitOrder] at hnone
  dsimp only
  rw [hnone]

theorem exec_waitingTransmissionStart_some {s : State} {y : TxWait}
    (h : (waitOrder s.rad.waiting).find? (fun w => s.mayStart w) = some y) (hr : s.receives = true) :
    exec .waitingTransmissionStart s =
      .next (({ s with rad := { s.rad with waiting := s.rad.waiting.erase y } } : State).startWait y).1 := by
  show execWaitingTransmissionStart s = _
  unfold execWaitingTransmissionStart
  rw [waitOrder] at h
  dsimp only
  rw [h]
  exact congrArg Host.Outcome.next (if_pos hr)

/-- A payload that has waited too long. -/
def DownPayload.overdue (limit now : Nat) (p : DownPayload) : Bool :=
  match p.held with
  | some t => decide (t + limit ≤ now)
  | none => false

theorem DownPayload.overdue_eq_false {limit now : Nat} {p : DownPayload} :
    (!p.overdue limit now) = true ↔ ∀ h, p.held = some h → now < h + limit := by
  unfold DownPayload.overdue
  cases p.held with
  | none => simp
  | some t => simp

/-- An entry without the payloads that have waited too long. -/
def JoinedEntry.trimmed (limit now : Nat) (e : JoinedEntry) : JoinedEntry :=
  if e.plc.isSome then e else { e with queue := e.queue.filter fun p => !p.overdue limit now }

theorem exec_txWaitExpiry_eq (s : State) : exec .txWaitExpiry s = .next { s with rad := { s.rad with
    joined := Map.mapVals (fun _ e => e.trimmed (s.fld F.RFM_TX_WAIT.MAX_S * 1000) s.now) s.rad.joined
    waiting := s.rad.waiting.filter fun w =>
      w.kind == 0 || !decide (w.since + s.fld F.RFM_TX_WAIT.MAX_S * 1000 ≤ s.now) } } := rfl

theorem exec_txWaitExpiry (s : State) : ∃ t, exec .txWaitExpiry s = .next t ∧ t = { s with rad := t.rad } ∧
    t.rad.joined.length = s.rad.joined.length ∧
    (∀ w, w ∈ t.rad.waiting ↔ w ∈ s.rad.waiting ∧ (w.kind = 0 ∨ s.now < w.since + s.fld F.RFM_TX_WAIT.MAX_S * 1000)) ∧
    (∀ a e, Map.find s.rad.joined a = some e → e.plc = none → ∃ x, Map.find t.rad.joined a = some { e with queue := x } ∧
      ∀ p, p ∈ x ↔ p ∈ e.queue ∧ ∀ h, p.held = some h → s.now < h + s.fld F.RFM_TX_WAIT.MAX_S * 1000) ∧
    (∀ a e, Map.find s.rad.joined a = some e → e.plc.isSome = true → Map.find t.rad.joined a = some e) := by
  rw [exec_txWaitExpiry_eq]
  generalize s.fld F.RFM_TX_WAIT.MAX_S * 1000 = limit
  have hfind {a : Nat} {e : JoinedEntry} (h : Map.find s.rad.joined a = some e) :
      Map.find (Map.mapVals (fun _ e => e.trimmed limit s.now) s.rad.joined) a = some (e.trimmed limit s.now) := by
    rw [Map.find_mapVals, h]
    rfl
  refine ⟨_, rfl, rfl, List.length_map _, fun w => ?_, fun a e he hp => ?_, fun a e he hp => ?_⟩
  · rw [List.mem_filter, Bool.or_eq_true, beq_iff_eq, Bool.not_eq_true', decide_eq_false_iff_not, Nat.not_le]
  · refine ⟨e.queue.filter fun p => !p.overdue limit s.now, (hfind he).trans ?_, fun p => ?_⟩
    · rw [JoinedEntry.trimmed, hp]
      rfl
    · rw [List.mem_filter, DownPayload.overdue_eq_false]
  · exact (hfind he).trans (by rw [JoinedEntry.trimmed, if_pos hp])

/-- Settles O41: bodies for meters, floods, transmissions that wait and their expiry. -/
theorem meshTransmissionsAreSentOrWait : Obligations.MeshTransmissionsAreSentOrWait := by
  unfold Obligations.MeshTransmissionsAreSentOrWait
  refine ⟨fun i body l s u hm hu => ⟨exec_envelopeSend_unjoined hm hu, fun a key hk ha hd he hs =>
    exec_envelopeSend_sealed hm hu hk ha hd he hs⟩, fun f l s hf hr => exec_floodSend hf hr,
    fun s h => exec_waitingTransmissionStart_none h, fun w s hw hp hr => ?_, exec_txWaitExpiry⟩
  have hsome : (waitOrder s.rad.waiting).find? (fun w => s.mayStart w) ≠ none := fun hn =>
    List.find?_eq_none.mp hn w (mem_waitOrder.mpr hw) hp
  obtain ⟨y, hy⟩ := Option.ne_none_iff_exists'.mp hsome
  obtain ⟨hmem, hstart, hkind⟩ := waitOrder_find hy hw hp
  exact ⟨_, _, y, exec_waitingTransmissionStart_some hy hr, hmem, hstart, hkind, rfl, rfl⟩

end Sys2Proof.Machine

/-! Frames of the power line (R256 to R271). -/

namespace Sys2Proof.Machine

set_option Elab.async false

/-! ### The channels -/

section
variable (s : State) (x : Nat) (c : PlcChan)

theorem State.setChan_same : (s.setChan x c).chan x = c := Map.findD_set_same ..

theorem State.setChan_other {y : Nat} (h : y ≠ x) : (s.setChan x c).chan y = s.chan y := Map.findD_set_other _ _ h

end

/-- Only channel `x` may differ between two states. -/
def OnlyChan (x : Nat) (s t : State) : Prop := t = { s with plc := t.plc } ∧ ∀ y, y ≠ x → t.chan y = s.chan y

theorem OnlyChan.refl (x : Nat) (s : State) : OnlyChan x s s := ⟨rfl, fun _ _ => rfl⟩

theorem OnlyChan.setChan {x : Nat} {s t : State} (h : OnlyChan x s t) (c : PlcChan) : OnlyChan x s (t.setChan x c) := by
  obtain ⟨hf, ho⟩ := h
  have hset := congrArg (fun z : State => ({ z with plc := (t.setChan x c).plc } : State)) hf
  exact ⟨hset, fun y hy => (t.setChan_other x c hy).trans (ho y hy)⟩

theorem OnlyChan.linkAttempt {x : Nat} {s t : State} (h : OnlyChan x s t) (next : Nat) (b : Bool) :
    OnlyChan x s (t.linkAttempt x next b) := h.setChan _

theorem OnlyChan.attempt {x : Nat} {s t : State} (h : OnlyChan x s t) (b : Bool) : OnlyChan x s (t.attempt x b) := h.setChan _

section
variable {x : Nat} {s t : State} (h : OnlyChan x s t)
include h

theorem OnlyChan.regs : t.regs = s.regs := (congrArg State.regs h.1 :)

theorem OnlyChan.rad : t.rad = s.rad := (congrArg State.rad h.1 :)

theorem OnlyChan.out : t.out = s.out := (congrArg State.out h.1 :)

end

/-- A hop attempt that ends, and the channel after it: what awaits and what waits stay. -/
theorem State.attempted_chan (s : State) (x next : Nat) (b : Bool) :
    ∃ tones auto, ((s.linkAttempt x next b).attempt x b).chan x =
      { s.chan x with tones := tones, attempts := (b :: (s.chan x).attempts).take 1000, auto := auto } := by
  have hlink : ∃ tones, (s.linkAttempt x next b).chan x = { s.chan x with tones := tones } := ⟨_, s.setChan_same x _⟩
  obtain ⟨tones, hl⟩ := hlink
  have hatt : ∃ auto, ((s.linkAttempt x next b).attempt x b).chan x = { (s.linkAttempt x next b).chan x with
      attempts := (b :: ((s.linkAttempt x next b).chan x).attempts).take 1000, auto := auto } :=
    ⟨_, State.setChan_same _ x _⟩
  obtain ⟨auto, ha⟩ := hatt
  rw [hl] at ha
  exact ⟨tones, auto, ha⟩

/-! ### The counters of a channel -/

theorem FieldRef.apart_comm {f g : FieldRef} (h : f.apart g = true) : g.apart f = true := by
  unfold FieldRef.apart at h ⊢
  simp only [Bool.or_eq_true, decide_eq_true_eq] at h ⊢
  omega

/-- Counters raised one after another. -/
def RegFile.bumps (m : RegFile) (l : List (FieldRef × Nat)) : RegFile := l.foldl (fun r e => r.bump e.1 e.2) m

theorem RegFile.bumps_cons (m : RegFile) (e : FieldRef × Nat) (l : List (FieldRef × Nat)) :
    m.bumps (e :: l) = (m.bump e.1 e.2).bumps l := rfl

theorem RegFile.fld_bumps_other {l : List (FieldRef × Nat)} {g : FieldRef} (hg : g.ok = true)
    (h : ∀ e ∈ l, e.1.ok = true ∧ g.apart e.1 = true) : ∀ {m : RegFile}, m.wf = true → (m.bumps l).fld g = m.fld g := by
  induction l with
  | nil => exact fun _ => rfl
  | cons e l ih =>
    intro m hm
    obtain ⟨he, ha⟩ := h e (.head _)
    rw [RegFile.bumps_cons, ih (fun x hx => h x (.tail _ hx)) (RegFile.bump_wf _ _ hm)]
    exact RegFile.fld_setF_other _ hm he hg ha

theorem RegFile.fld_bumps {l : List (FieldRef × Nat)} {f : FieldRef} {n : Nat} (hl : fieldsApart (l.map Prod.fst) = true)
    (hf : (f, n) ∈ l) : ∀ {m : RegFile}, m.wf = true → (m.bumps l).fld f = min (m.fld f + n) (2 ^ (f.hi - f.lo + 1) - 1) := by
  obtain ⟨hok, hap⟩ := (fieldsApart_iff _).mp hl
  rw [List.forall_mem_map] at hok
  rw [List.pairwise_map] at hap
  clear hl
  induction l with
  | nil => exact absurd hf List.not_mem_nil
  | cons e l ih =>
    intro m hm
    obtain ⟨he, hl⟩ := List.pairwise_cons.mp hap
    have hwf := RegFile.bump_wf e.1 e.2 hm
    rw [RegFile.bumps_cons]
    rcases List.mem_cons.mp hf with rfl | hf
    · rw [RegFile.fld_bumps_other (hok _ (.head _)) (fun x hx => ⟨hok _ (.tail _ hx), he x hx⟩) hwf]
      exact RegFile.fld_bump_same _ hm (hok _ (.head _))
    · rw [ih hf (fun x hx => hok x (.tail _ hx)) hl hwf, RegFile.bump,
        RegFile.fld_setF_other _ hm (hok _ (.head _)) (hok _ (.tail _ hf)) (FieldRef.apart_comm (he _ hf))]

section
variable {s t : State} {l : List (FieldRef × Nat)} (ht : t.regs = s.regs.bumps l)
include ht

/-- A counter raised once among counters apart from it. -/
theorem State.fld_of_bumps (hs : Inv s) {L : List FieldRef} (hL : fieldsApart L = true) (hl : l.map Prod.fst = L) {f : FieldRef}
    {n : Nat} (hf : (f, n) ∈ l) : t.fld f = min (s.fld f + n) (2 ^ (f.hi - f.lo + 1) - 1) := by
  rw [State.fld, ht]
  exact RegFile.fld_bumps (hl ▸ hL) hf hs

theorem State.onlyRegs_of_bumps {L : List Nat} (hl : ∀ e ∈ l, e.1.addr ∈ L) : OnlyRegs L s t := by
  intro a ha
  rw [ht]
  clear ht
  generalize s.regs = m
  induction l generalizing m with
  | nil => rfl
  | cons e l ih =>
    refine (ih (fun x hx => hl x (.tail _ hx)) (m.bump e.1 e.2)).trans (RegFile.get_put_other _ ?_)
    rintro rfl
    exact ha (hl e (.head _))

end

/-! ### A frame received (R259, R261, R266) -/

section
variable {x : Nat} (h : x < 4)
include h

theorem fchErrRefs_apart : fieldsApart [F.PLC_ERASE_CNT.COUNT x, F.PLC_FCH_ERR_CNT.COUNT x] = true :=
  (by decide +kernel : ∀ x < 4, fieldsApart [F.PLC_ERASE_CNT.COUNT x, F.PLC_FCH_ERR_CNT.COUNT x] = true) x h

theorem rsFailRefs_apart : fieldsApart [F.PLC_ERASE_CNT.COUNT x, F.PLC_RS_FAIL_CNT.COUNT x] = true :=
  (by decide +kernel : ∀ x < 4, fieldsApart [F.PLC_ERASE_CNT.COUNT x, F.PLC_RS_FAIL_CNT.COUNT x] = true) x h

theorem rxRefs_apart : fieldsApart [F.PLC_ERASE_CNT.COUNT x, F.PLC_RX_CNT.COUNT x, F.PLC_TX_CNT.COUNT x] = true :=
  (by decide +kernel : ∀ x < 4, fieldsApart [F.PLC_ERASE_CNT.COUNT x, F.PLC_RX_CNT.COUNT x, F.PLC_TX_CNT.COUNT x] = true) x h

theorem plcTx_ok : (F.PLC_TX_CNT.COUNT x).ok = true := (by decide +kernel : ∀ x < 4, (F.PLC_TX_CNT.COUNT x).ok = true) x h

end

theorem State.bump_frame (s : State) (f : FieldRef) (n : Nat) : s.bump f n = { s with regs := (s.bump f n).regs } := rfl

/-- Two counters raised. -/
def State.counted2 (s : State) (f g : FieldRef) (n : Nat) : State := (s.bump f n).bump g

/-- Three counters raised. -/
def State.counted3 (s : State) (f g h : FieldRef) (n : Nat) : State := ((s.bump f n).bump g).bump h

section
variable (s : State) (f g h : FieldRef) (n : Nat)

theorem State.counted2_regs : (s.counted2 f g n).regs = s.regs.bumps [(f, n), (g, 1)] := rfl

theorem State.counted2_frame : s.counted2 f g n = { s with regs := (s.counted2 f g n).regs } := rfl

theorem State.counted3_regs : (s.counted3 f g h n).regs = s.regs.bumps [(f, n), (g, 1), (h, 1)] := rfl

theorem State.counted3_frame : s.counted3 f g h n = { s with regs := (s.counted3 f g h n).regs } := rfl

end

theorem State.tmiKnown_bump (s : State) (f : FieldRef) (n x src tmi : Nat) :
    (s.bump f n).tmiKnown x src tmi = s.tmiKnown x src tmi := rfl

section
variable {x : Nat} {c : PlcConf} {f : PlcFrame} {s : State} (hc : s.plcConf x = some c) (hr : s.receives = true)
include hc hr

theorem exec_plcFrameReceive_eq : exec (.plcFrameReceive x f) s =
    let s1 := s.bump (F.PLC_ERASE_CNT.COUNT x) f.erased
    .next (if !fchOk f.fch then s1.bump (F.PLC_FCH_ERR_CNT.COUNT x)
      else if fchType f.fch = 1 then s1.hopAck x (fchSrc f.fch)
      else if !f.rsOk || !f.fcsOk || !s.tmiKnown x (fchSrc f.fch) (fchTmi f.fch) then s1.bump (F.PLC_RS_FAIL_CNT.COUNT x)
      else
        let s2 := (s1.bump (F.PLC_RX_CNT.COUNT x)).toneMapBuild x c (fchSrc f.fch) f.snr
        if fchType f.fch = 0 then
          (if routeNext f.psdu = 0xFFFE then (s2.plcAck x c (psduFcs f.psdu)).plcContent x c f else s2)
        else s2.plcContent x c f) := by
  show execPlcFrameReceive x f s = _
  unfold execPlcFrameReceive
  rw [hc]
  dsimp only
  rw [State.tmiKnown_bump, if_neg (by rw [hr]; decide)]

theorem exec_plcFrameReceive_badHeader (h : fchOk f.fch = false) : exec (.plcFrameReceive x f) s =
    .next (s.counted2 (F.PLC_ERASE_CNT.COUNT x) (F.PLC_FCH_ERR_CNT.COUNT x) f.erased) := by
  rw [exec_plcFrameReceive_eq hc hr]
  dsimp only
  rw [if_pos (by rw [h]; rfl)]
  rfl

variable (h : fchOk f.fch = true)
include h

theorem exec_plcFrameReceive_rejected (ht : fchType f.fch ≠ 1)
    (hb : f.rsOk = false ∨ f.fcsOk = false ∨ s.tmiKnown x (fchSrc f.fch) (fchTmi f.fch) = false) :
    exec (.plcFrameReceive x f) s =
      .next (s.counted2 (F.PLC_ERASE_CNT.COUNT x) (F.PLC_RS_FAIL_CNT.COUNT x) f.erased) := by
  have hbad : (!f.rsOk || !f.fcsOk || !s.tmiKnown x (fchSrc f.fch) (fchTmi f.fch)) = true := by
    rcases hb with hb | hb | hb <;> rw [hb] <;> simp only [Bool.not_false, Bool.true_or, Bool.or_true]
  rw [exec_plcFrameReceive_eq hc hr]
  dsimp only
  rw [if_neg (by rw [h]; decide), if_neg ht, if_pos hbad]
  rfl

theorem exec_plcFrameReceive_ack (ht : fchType f.fch = 1) : exec (.plcFrameReceive x f) s =
    .next ((s.bump (F.PLC_ERASE_CNT.COUNT x) f.erased).hopAck x (fchSrc f.fch)) := by
  rw [exec_plcFrameReceive_eq hc hr]
  dsimp only
  rw [if_neg (by rw [h]; decide), if_pos ht]

/-- A good frame for this device, without a measured SNR. -/
theorem exec_plcFrameReceive_good (ht : fchType f.fch = 0) (hrs : f.rsOk = true) (hfcs : f.fcsOk = true)
    (htmi : s.tmiKnown x (fchSrc f.fch) (fchTmi f.fch) = true) (hn : routeNext f.psdu = 0xFFFE) (hsnr : f.snr = []) :
    exec (.plcFrameReceive x f) s =
      .next ((((s.bump (F.PLC_ERASE_CNT.COUNT x) f.erased).bump (F.PLC_RX_CNT.COUNT x)).plcAck x c (psduFcs f.psdu)).plcContent
        x c f) := by
  have hbuild (t : State) : t.toneMapBuild x c (fchSrc f.fch) f.snr = t := if_pos (.inr (.inl (by rw [hsnr]; rfl)))
  rw [exec_plcFrameReceive_eq hc hr]
  dsimp only
  rw [if_neg (by rw [h]; decide), if_neg (by rw [ht]; decide), if_neg (by rw [hrs, hfcs, htmi]; decide), if_pos ht, if_pos hn, hbuild]

end

theorem State.hopAck_eq {s : State} {x fcs : Nat} {t : PlcTx} (h : (s.chan x).awaiting = some t) (hf : psduFcs t.psdu = fcs) :
    s.hopAck x fcs = ((s.setChan x { s.chan x with awaiting := none }).linkAttempt x t.next false).attempt x false := by
  rw [State.hopAck, h]
  exact if_pos hf

/-- A frame on a channel: what goes out, and what is counted. -/
theorem State.plcFrame_spec (x type cph slot : Nat) (m : Option ToneMap) (l : List Byte) (c : PlcConf) (s : State) (hs : Inv s)
    (hx : x < 4) :
    ∃ u o, s.plcFrame x c type m cph slot l = u.send (.powerLine x o) ∧
      u.fld (F.PLC_TX_CNT.COUNT x) = min (s.fld (F.PLC_TX_CNT.COUNT x) + 1) (2 ^ 32 - 1) ∧ OnlyRegs [R.PLC_TX_CNT x] s u ∧
      u = { s with regs := u.regs } ∧ o.psdu = l ∧ o.level = c.txLevel ∧ o.slot = slot ∧ o.txen.1 = -(c.txLeadUs : Int) ∧
      o.txen.2 = ((headUs c + 250 * s.symbolsOf x c m cph l.length + 2 : Nat) : Int) := by
  obtain ⟨hcnt, hregs, hframe⟩ := counted_bump hs (plcTx_ok hx)
  refine ⟨_, _, rfl, hcnt, hregs, hframe, rfl, rfl, rfl, rfl, ?_⟩
  push_cast
  rfl

/-- What is received, clause by clause. -/
theorem exec_plcFrameReceive {x : Nat} {c : PlcConf} {f : PlcFrame} {s : State} (hs : Inv s) (hx : x < 4)
    (hc : s.plcConf x = some c) (hr : s.receives = true) :
    (fchOk f.fch = false → ∃ t, exec (.plcFrameReceive x f) s = .next t ∧
      t.fld (F.PLC_ERASE_CNT.COUNT x) = min (s.fld (F.PLC_ERASE_CNT.COUNT x) + f.erased) (2 ^ 32 - 1) ∧
      t.fld (F.PLC_FCH_ERR_CNT.COUNT x) = min (s.fld (F.PLC_FCH_ERR_CNT.COUNT x) + 1) (2 ^ 32 - 1) ∧
      OnlyRegs [R.PLC_ERASE_CNT x, R.PLC_FCH_ERR_CNT x] s t ∧ t = { s with regs := t.regs }) ∧
    (fchOk f.fch = true → fchType f.fch ≠ 1 →
      (f.rsOk = false ∨ f.fcsOk = false ∨ s.tmiKnown x (fchSrc f.fch) (fchTmi f.fch) = false) →
      ∃ t, exec (.plcFrameReceive x f) s = .next t ∧
        t.fld (F.PLC_ERASE_CNT.COUNT x) = min (s.fld (F.PLC_ERASE_CNT.COUNT x) + f.erased) (2 ^ 32 - 1) ∧
        t.fld (F.PLC_RS_FAIL_CNT.COUNT x) = min (s.fld (F.PLC_RS_FAIL_CNT.COUNT x) + 1) (2 ^ 32 - 1) ∧
        OnlyRegs [R.PLC_ERASE_CNT x, R.PLC_RS_FAIL_CNT x] s t ∧ t = { s with regs := t.regs }) ∧
    (fchOk f.fch = true → fchType f.fch = 1 → ∀ w, (s.chan x).awaiting = some w → psduFcs w.psdu = fchSrc f.fch →
      ∃ t, exec (.plcFrameReceive x f) s = .next t ∧ (t.chan x).awaiting = none ∧ (t.chan x).queue = (s.chan x).queue ∧
        (t.chan x).attempts = (false :: (s.chan x).attempts).take 1000 ∧ (∀ y, y ≠ x → t.chan y = s.chan y) ∧
        OnlyRegs [R.PLC_ERASE_CNT x] s t ∧ t = { s with regs := t.regs, plc := t.plc }) ∧
    (fchOk f.fch = true → fchType f.fch = 0 → f.rsOk = true → f.fcsOk = true →
      s.tmiKnown x (fchSrc f.fch) (fchTmi f.fch) = true → routeNext f.psdu = 0xFFFE → f.snr = [] →
      ∃ (t u : State) (w : BitVec 64), exec (.plcFrameReceive x f) s = .next t ∧ u = { s with regs := u.regs } ∧
        u.fld (F.PLC_ERASE_CNT.COUNT x) = min (s.fld (F.PLC_ERASE_CNT.COUNT x) + f.erased) (2 ^ 32 - 1) ∧
        u.fld (F.PLC_RX_CNT.COUNT x) = min (s.fld (F.PLC_RX_CNT.COUNT x) + 1) (2 ^ 32 - 1) ∧
        u.fld (F.PLC_TX_CNT.COUNT x) = min (s.fld (F.PLC_TX_CNT.COUNT x) + 1) (2 ^ 32 - 1) ∧
        OnlyRegs [R.PLC_ERASE_CNT x, R.PLC_RX_CNT x, R.PLC_TX_CNT x] s u ∧ w = fchWord 1 0 0 0 0 (psduFcs f.psdu) ∧
        t = (u.send (.powerLine x ⟨c.txLevel, (-(c.txLeadUs : Int), headUs c + 2), 0, w, [], fchSymbols c w⟩)).plcContent
          x c f) := by
  refine ⟨fun h => ?_, fun h ht hb => ?_, fun h ht w hw hfcs => ?_, fun h ht hrs hfcs htmi hn hsnr => ?_⟩
  · have hregs := s.counted2_regs (F.PLC_ERASE_CNT.COUNT x) (F.PLC_FCH_ERR_CNT.COUNT x) f.erased
    refine ⟨_, exec_plcFrameReceive_badHeader hc hr h, State.fld_of_bumps hregs hs (fchErrRefs_apart hx) rfl (.head _),
      State.fld_of_bumps hregs hs (fchErrRefs_apart hx) rfl (.tail _ (.head _)), State.onlyRegs_of_bumps hregs ?_,
      State.counted2_frame _ _ _ _⟩
    simp only [List.forall_mem_cons]
    exact ⟨.head _, .tail _ (.head _), fun e he => absurd he List.not_mem_nil⟩
  · have hregs := s.counted2_regs (F.PLC_ERASE_CNT.COUNT x) (F.PLC_RS_FAIL_CNT.COUNT x) f.erased
    refine ⟨_, exec_plcFrameReceive_rejected hc hr h ht hb, State.fld_of_bumps hregs hs (rsFailRefs_apart hx) rfl (.head _),
      State.fld_of_bumps hregs hs (rsFailRefs_apart hx) rfl (.tail _ (.head _)), State.onlyRegs_of_bumps hregs ?_,
      State.counted2_frame _ _ _ _⟩
    simp only [List.forall_mem_cons]
    exact ⟨.head _, .tail _ (.head _), fun e he => absurd he List.not_mem_nil⟩
  · have hbump : OnlyRegs [R.PLC_ERASE_CNT x] s (s.bump (F.PLC_ERASE_CNT.COUNT x) f.erased) := (OnlyRegs.refl _ s).bump _ (.head _)
    have hplc : (s.bump (F.PLC_ERASE_CNT.COUNT x) f.erased).plc = s.plc := State.bump_plc ..
    have hframe := State.bump_frame s (F.PLC_ERASE_CNT.COUNT x) f.erased
    rw [exec_plcFrameReceive_ack hc hr h ht]
    generalize s.bump (F.PLC_ERASE_CNT.COUNT x) f.erased = u at hbump hplc hframe
    have hchan (y : Nat) : u.chan y = s.chan y := congrArg (fun p : PlcState => Map.findD p.chans y {}) hplc
    rw [← hchan] at hw
    rw [State.hopAck_eq hw hfcs]
    have honly := (((OnlyChan.refl x u).setChan { u.chan x with awaiting := none }).linkAttempt w.next false).attempt false
    obtain ⟨tones, auto, hx'⟩ := State.attempted_chan (u.setChan x { u.chan x with awaiting := none }) x w.next false
    rw [u.setChan_same] at hx'
    have hqueue : (u.chan x).queue = (s.chan x).queue := by rw [hchan]
    have hattempts : (false :: (u.chan x).attempts).take 1000 = (false :: (s.chan x).attempts).take 1000 := by rw [hchan]
    refine ⟨_, rfl, (congrArg PlcChan.awaiting hx' :),
      (congrArg PlcChan.queue hx' :).trans hqueue,
      (congrArg PlcChan.attempts hx' :).trans hattempts,
      fun y hy => (honly.2 y hy).trans (hchan y), fun a ha => ?_, ?_⟩
    · rw [honly.regs]
      exact hbump a ha
    · have hset := congrArg (fun z : State => ({ z with plc := (((u.setChan x { u.chan x with awaiting := none }).linkAttempt x
        w.next false).attempt x false).plc } : State)) hframe
      rw [honly.regs]
      exact honly.1.trans hset
  · rw [exec_plcFrameReceive_good hc hr h ht hrs hfcs htmi hn hsnr]
    have hregs := s.counted3_regs (F.PLC_ERASE_CNT.COUNT x) (F.PLC_RX_CNT.COUNT x) (F.PLC_TX_CNT.COUNT x) f.erased
    refine ⟨_, s.counted3 (F.PLC_ERASE_CNT.COUNT x) (F.PLC_RX_CNT.COUNT x) (F.PLC_TX_CNT.COUNT x) f.erased, _, rfl,
      State.counted3_frame _ _ _ _ _, State.fld_of_bumps hregs hs (rxRefs_apart hx) rfl (.head _),
      State.fld_of_bumps hregs hs (rxRefs_apart hx) rfl (.tail _ (.head _)),
      State.fld_of_bumps hregs hs (rxRefs_apart hx) rfl (.tail _ (.tail _ (.head _))), State.onlyRegs_of_bumps hregs ?_, rfl, ?_⟩
    · simp only [List.forall_mem_cons]
      exact ⟨.head _, .tail _ (.head _), .tail _ (.tail _ (.head _)), fun e he => absurd he List.not_mem_nil⟩
    · rw [State.plcAck, State.plcSend, List.append_nil]
      rfl

/-! ### Medium access (R265) -/

theorem PlcTx.acked_eq (t : PlcTx) : t.acked = !(t.next == 0xFFFF) := rfl

section
variable {x a : Nat} {c : PlcConf} {t : PlcTx} {s : State} (hc : s.plcConf x = some c) (ht : firstFrame (s.chan x).queue = some t)
include hc ht

theorem exec_csmaAttempt_held {sensed : Bool} (h : sensed = true ∨ s.receives = false ∨ (s.chan x).awaiting.isSome = true) :
    exec (.csmaAttempt x a sensed) s = .next s := by
  show execCsmaAttempt x a sensed s = _
  unfold execCsmaAttempt
  rw [hc, ht]
  refine congrArg Host.Outcome.next (if_pos ?_)
  rcases h with h | h | h <;> rw [h] <;> simp only [Bool.true_or, Bool.or_true, Bool.not_false]

/-- The channel of a frame that goes out. -/
def PlcChan.sent (k : PlcChan) (t : PlcTx) : PlcChan :=
  { k with queue := k.queue.erase t, awaiting := if t.next = 0xFFFF then none else some t }

theorem exec_csmaAttempt_sent (hr : s.receives = true) (ha : (s.chan x).awaiting = none) (hm : s.coord x = false) :
    exec (.csmaAttempt x a false) s = .next ((s.draw.draw.setChan x ((s.chan x).sent t)).plcFrame x c
      (if t.next = 0xFFFF then 2 else 0) (s.txMap x t) (s.cphAt x (s.now * 1000 + a + headUs c)) (s.draw.free % 2 ^ t.be) t.psdu) := by
  show execCsmaAttempt x a false s = _
  unfold execCsmaAttempt
  rw [hc, ht]
  refine congrArg Host.Outcome.next ((if_neg ?_).trans ?_)
  · rw [hr, ha, hm, Bool.false_and]
    decide
  · dsimp only
    rw [t.acked_eq, PlcChan.sent]
    by_cases hn : t.next = 0xFFFF
    · rw [hn]
      rfl
    · rw [beq_false_of_ne hn, if_neg hn, if_neg hn]
      rfl

end

theorem State.drawn_frame (s : State) : s.draw.draw = { s with pair := s.draw.draw.pair, drawn := s.draw.draw.drawn } := by
  have h := congrArg (fun z : State => ({ z with pair := s.draw.draw.pair, drawn := s.draw.draw.drawn } : State)) s.draw_frame
  exact s.draw.draw_frame.trans h

/-- A channel written after free values were drawn. -/
theorem State.drawn_setChan (s : State) (x : Nat) (k : PlcChan) : ∃ u, s.draw.draw.setChan x k = u ∧ u.chan x = k ∧
    (∀ y, y ≠ x → u.chan y = s.chan y) ∧ u = { s with pair := u.pair, drawn := u.drawn, plc := u.plc } := by
  have hd := s.drawn_frame
  have hplc := (congrArg State.plc hd :)
  generalize s.draw.draw = v at hd hplc
  refine ⟨_, rfl, v.setChan_same x k, fun y hy => (v.setChan_other x k hy).trans ?_, ?_⟩
  · exact congrArg (fun p : PlcState => Map.findD p.chans y {}) hplc
  · have hset := congrArg (fun z : State => ({ z with plc := (v.setChan x k).plc } : State)) hd
    exact hset

/-! ### A frame that is not acknowledged (R265, R266) -/

/-- A frame with one more try and a wider slot. -/
def PlcTx.retried (t : PlcTx) (beMax : Nat) : PlcTx :=
  { t with tries := t.tries + 1, be := max t.be (min (t.be + 1) (min 4 beMax)) }

/-- The channels after an attempt that was not acknowledged. -/
def State.unacked (s : State) (x : Nat) (t : PlcTx) : State := (s.linkAttempt x t.next true).attempt x true

theorem State.unacked_only (s : State) (x : Nat) (t : PlcTx) : OnlyChan x s (s.unacked x t) :=
  ((OnlyChan.refl x s).linkAttempt _ _).attempt _

section
variable {x : Nat} {t : PlcTx} {s : State} (ht : (s.chan x).awaiting = some t)
include ht

theorem exec_plcAckTimeout_eq : exec (.plcAckTimeout x) s = .next (if s.fld F.PLC_CSMA.TRIES ≤ t.tries + 1 then
    let s2 := ((s.unacked x t).setChan x { (s.unacked x t).chan x with awaiting := none }).bump (F.PLC_NOACK_CNT.COUNT x)
    match t.node with
    | some a => s2.dropRoute a
    | none => s2
  else (s.unacked x t).setChan x { (s.unacked x t).chan x with
    awaiting := none, queue := t.retried (s.fld F.PLC_CSMA.BE_MAX) :: ((s.unacked x t).chan x).queue }) := by
  show execPlcAckTimeout x s = _
  unfold execPlcAckTimeout
  rw [ht] <;> rfl

/-- The frame is tried again. -/
theorem exec_plcAckTimeout_retried (h : t.tries + 1 < s.fld F.PLC_CSMA.TRIES) : ∃ u, exec (.plcAckTimeout x) s = .next u ∧
    (u.chan x).awaiting = none ∧ (u.chan x).queue = t.retried (s.fld F.PLC_CSMA.BE_MAX) :: (s.chan x).queue ∧
    (u.chan x).attempts = (true :: (s.chan x).attempts).take 1000 ∧ (∀ y, y ≠ x → u.chan y = s.chan y) ∧
    u.regs = s.regs ∧ u.rad = s.rad ∧ u.out = s.out := by
  obtain ⟨tones, auto, hx⟩ := s.attempted_chan x t.next true
  have honly := s.unacked_only x t
  rw [← State.unacked] at hx
  rw [exec_plcAckTimeout_eq ht, if_neg (by omega)]
  generalize s.unacked x t = v at hx honly
  have hset := honly.setChan { v.chan x with awaiting := none, queue := t.retried (s.fld F.PLC_CSMA.BE_MAX) :: (v.chan x).queue }
  refine ⟨_, rfl, ?_, ?_, ?_, hset.2, hset.regs, hset.rad, hset.out⟩
  · rw [v.setChan_same]
  · rw [v.setChan_same, hx]
  · rw [v.setChan_same, hx]

end

/-- A route dropped: the joined table, its registers and nothing else. -/
theorem State.dropRoute_eq (s : State) (a : Nat) : s.dropRoute a = s ∨ ∃ e, s.dropRoute a = s.setJoined a e := by
  unfold State.dropRoute
  split
  · exact .inl rfl
  · split
    · exact .inl rfl
    · exact .inr ⟨_, rfl⟩

theorem State.joinedSet_plc (s : State) (m : Map JoinedEntry) (r : RegFile) : (s.joinedSet m r).plc = s.plc := rfl

theorem State.joinedSet_out (s : State) (m : Map JoinedEntry) (r : RegFile) : (s.joinedSet m r).out = s.out := rfl

theorem State.setJoined_plc (s : State) (a : Nat) (e : JoinedEntry) : (s.setJoined a e).plc = s.plc := by
  rw [State.setJoined_eq, State.joinedSet_plc]

theorem State.setJoined_out (s : State) (a : Nat) (e : JoinedEntry) : (s.setJoined a e).out = s.out := by
  rw [State.setJoined_eq, State.joinedSet_out]

theorem noAckRefs_apart {x : Nat} (h : x < 4) : fieldsApart [F.PLC_NOACK_CNT.COUNT x, F.RFM_JOINED.TOTAL, F.RFM_JOINED.RADIO,
    F.PLC_ROUTES.COUNT] = true :=
  (by decide +kernel : ∀ x < 4, fieldsApart [F.PLC_NOACK_CNT.COUNT x, F.RFM_JOINED.TOTAL, F.RFM_JOINED.RADIO,
    F.PLC_ROUTES.COUNT] = true) x h

/-- What a route dropped leaves. -/
theorem State.dropRoute_spec {s : State} (hs : Inv s) (a : Nat) : (s.dropRoute a).plc = s.plc ∧ (s.dropRoute a).out = s.out ∧
    OnlyRegs [R.RFM_JOINED, R.PLC_ROUTES] s (s.dropRoute a) ∧
    ∀ x < 4, (s.dropRoute a).fld (F.PLC_NOACK_CNT.COUNT x) = s.fld (F.PLC_NOACK_CNT.COUNT x) := by
  rcases s.dropRoute_eq a with h | ⟨e, h⟩ <;> rw [h]
  · exact ⟨rfl, rfl, OnlyRegs.refl _ s, fun _ _ => rfl⟩
  · exact ⟨s.setJoined_plc a e, s.setJoined_out a e, s.setJoined_onlyRegs a e,
      fun x hx => State.fld_of_setFields_other (s.setJoined_regs a e) hs (noAckRefs_apart hx) rfl⟩

/-- The frame fails, and with it the route of its node. -/
theorem exec_plcAckTimeout_failed {x : Nat} {t : PlcTx} {s : State} (hs : Inv s) (hx4 : x < 4) (ht : (s.chan x).awaiting = some t)
    (h : s.fld F.PLC_CSMA.TRIES ≤ t.tries + 1) : ∃ u, exec (.plcAckTimeout x) s = .next u ∧ (u.chan x).awaiting = none ∧
      (u.chan x).queue = (s.chan x).queue ∧ (∀ y, y ≠ x → u.chan y = s.chan y) ∧
      u.fld (F.PLC_NOACK_CNT.COUNT x) = min (s.fld (F.PLC_NOACK_CNT.COUNT x) + 1) (2 ^ 32 - 1) ∧
      OnlyRegs [R.PLC_NOACK_CNT x, R.RFM_JOINED, R.PLC_ROUTES] s u ∧ u.out = s.out := by
  obtain ⟨tones, auto, hx⟩ := s.attempted_chan x t.next true
  have honly := s.unacked_only x t
  rw [← State.unacked] at hx
  rw [exec_plcAckTimeout_eq ht, if_pos h]
  generalize s.unacked x t = v at hx honly
  have hset := honly.setChan { v.chan x with awaiting := none }
  have hsame := v.setChan_same x { v.chan x with awaiting := none }
  generalize v.setChan x { v.chan x with awaiting := none } = w at hset hsame
  have hw : Inv w := by rw [Inv, hset.regs]; exact hs
  have hok : (F.PLC_NOACK_CNT.COUNT x).ok = true := ((fieldsApart_iff _).mp (noAckRefs_apart hx4)).1 _ (.head _)
  obtain ⟨hcnt, hregs, -⟩ := counted_bump hw hok
  have hold : w.fld (F.PLC_NOACK_CNT.COUNT x) = s.fld (F.PLC_NOACK_CNT.COUNT x) :=
    congrArg (fun r : RegFile => r.fld _) hset.regs
  rw [hold] at hcnt
  have hbplc : (w.bump (F.PLC_NOACK_CNT.COUNT x)).plc = w.plc := State.bump_plc ..
  have hbout : (w.bump (F.PLC_NOACK_CNT.COUNT x)).out = w.out := State.bump_out ..
  have hbinv : Inv (w.bump (F.PLC_NOACK_CNT.COUNT x)) := State.bump_inv hw _ _
  dsimp only
  generalize w.bump (F.PLC_NOACK_CNT.COUNT x) = z at hcnt hregs hbplc hbout hbinv
  have hfail : ∃ u, (match t.node with | some a => z.dropRoute a | none => z) = u ∧ u.plc = w.plc ∧ u.out = w.out ∧
      OnlyRegs [R.RFM_JOINED, R.PLC_ROUTES] z u ∧ u.fld (F.PLC_NOACK_CNT.COUNT x) = z.fld (F.PLC_NOACK_CNT.COUNT x) := by
    split
    · obtain ⟨hplc, hout, ho, hf⟩ := State.dropRoute_spec hbinv ‹Nat›
      exact ⟨_, rfl, hplc.trans hbplc, hout.trans hbout, ho, hf x hx4⟩
    · exact ⟨z, rfl, hbplc, hbout, OnlyRegs.refl _ z, rfl⟩
  obtain ⟨u, hu, hplc, hout, ho, hf⟩ := hfail
  have hchan (y : Nat) : u.chan y = w.chan y := congrArg (fun p : PlcState => Map.findD p.chans y {}) hplc
  refine ⟨u, congrArg Host.Outcome.next hu, ?_, ?_, fun y hy => (hchan y).trans (hset.2 y hy), hf.trans hcnt, fun a ha => ?_,
    hout.trans hset.out⟩
  · rw [hchan, hsame]
  · rw [hchan, hsame, hx]
  · rw [List.mem_cons, not_or] at ha
    rw [ho a ha.2, hregs a (mt List.mem_singleton.mp ha.1), hset.regs]

/-! ### Tone maps (R264) -/

/-- The link to a neighbour whose tone map came. -/
def PlcChan.mapped (k : PlcChan) (src : Nat) (m : ToneMap) : PlcChan :=
  { k with tones := Map.set k.tones src { Map.findD k.tones src {} with tx := some m, missed := 0 } }

theorem exec_tmUpdate_eq {x src : Nat} {m : ToneMap} {l : List (Nat × Nat × ToneMap)} {s : State}
    (h : s.plc.toneMaps = (x, src, m) :: l) : exec .tmUpdate s =
      .next (({ s with plc := { s.plc with toneMaps := l } } : State).setChan x ((s.chan x).mapped src m)) := by
  show execTmUpdate s = _
  unfold execTmUpdate
  rw [h]
  rfl

/-- The oldest tone map received governs its link. -/
theorem exec_tmUpdate {x src : Nat} {m : ToneMap} {l : List (Nat × Nat × ToneMap)} {s : State}
    (h : s.plc.toneMaps = (x, src, m) :: l) : ∃ t, exec .tmUpdate s = .next t ∧ t.plc.toneMaps = l ∧ t = { s with plc := t.plc } ∧
      Map.findD (t.chan x).tones src {} = { Map.findD (s.chan x).tones src {} with tx := some m, missed := 0 } ∧
      (∀ y, y ≠ src → Map.find (t.chan x).tones y = Map.find (s.chan x).tones y) ∧ (∀ y, y ≠ x → t.chan y = s.chan y) := by
  refine ⟨_, exec_tmUpdate_eq h, rfl, rfl, ?_, fun y hy => ?_, fun y hy => State.setChan_other _ x _ hy⟩
  · rw [State.setChan_same]
    exact Map.findD_set_same ..
  · rw [State.setChan_same]
    exact Map.find_set_other _ hy

/-- Settles O42: frames received, the medium, what goes out, acknowledgements that fail to come, and tone maps. -/
theorem powerLineFramesAreSentAndTaken : Obligations.PowerLineFramesAreSentAndTaken := by
  unfold Obligations.PowerLineFramesAreSentAndTaken
  refine ⟨fun x c f s hs hx hc hr => exec_plcFrameReceive hs hx hc hr, fun x a sensed c t s hc ht => ⟨exec_csmaAttempt_held hc ht,
    fun hsense hr ha hm => ?_⟩, State.plcFrame_spec, fun x t s hs hx ht => ⟨exec_plcAckTimeout_retried ht,
    exec_plcAckTimeout_failed hs hx ht⟩, fun x src m l s hl => exec_tmUpdate hl⟩
  · subst hsense
    obtain ⟨u, hu, hchan, hother, hframe⟩ := s.drawn_setChan x ((s.chan x).sent t)
    refine ⟨u, s.draw.free % 2 ^ t.be, _, Nat.mod_lt _ (Nat.two_pow_pos _), rfl, ?_, hchan, hother, hframe⟩
    rw [exec_csmaAttempt_sent hc ht hr ha hm, hu]

end Sys2Proof.Machine

/-! Coordinator mode and the line reference (R262 to R270). -/

namespace Sys2Proof.Machine

set_option Elab.async false

/-! ### The mode of a channel (R270) -/

/-- A mode settled, in the two fields that show it. -/
def State.coordSet (s : State) (coord seen : FieldRef) (on : Bool) : State :=
  ((s.flag coord on).flag seen true).post Ev.PLC_MODE []

section
variable (s : State) (coord seen : FieldRef) (on : Bool)

theorem State.coordSet_regs : (s.coordSet coord seen on).regs = ((s.flag coord on).flag seen true).regs := rfl

theorem State.coordSet_plc : (s.coordSet coord seen on).plc = s.plc := rfl

theorem State.coordSet_out : (s.coordSet coord seen on).out = s.out := rfl

theorem State.coordSet_queue : (s.coordSet coord seen on).evt.queue = s.evt.queue ++ [mkPost s Ev.PLC_MODE []] := rfl

theorem State.coordSet_onlyRegs {l : List Nat} (hc : coord.addr ∈ l) (hs : seen.addr ∈ l) :
    OnlyRegs l s (s.coordSet coord seen on) := (((OnlyRegs.refl l s).flag on hc).flag true hs).post _ _

end

theorem State.setCoord_eq (s : State) (x : Nat) (on : Bool) :
    s.setCoord x on = s.coordSet (F.PLC_STAT.COORD x) (F.PLC_STAT.MODE_SEEN x) on := rfl

theorem coordRefs_apart {x : Nat} (h : x < 4) : (F.PLC_STAT.COORD x).ok = true ∧ (F.PLC_STAT.MODE_SEEN x).ok = true ∧
    (F.PLC_STAT.COORD x).apart (F.PLC_STAT.MODE_SEEN x) = true :=
  (by decide +kernel : ∀ x < 4, (F.PLC_STAT.COORD x).ok = true ∧ (F.PLC_STAT.MODE_SEEN x).ok = true ∧
    (F.PLC_STAT.COORD x).apart (F.PLC_STAT.MODE_SEEN x) = true) x h

/-- What a channel shows once its mode is settled. -/
theorem State.setCoord_spec {s v : State} (hs : Inv s) {x : Nat} (hx : x < 4) (hv : OnlyChan x s v) (on : Bool) :
    ∃ u, v.setCoord x on = u ∧ u.fld (F.PLC_STAT.COORD x) = (if on then 1 else 0) ∧ u.fld (F.PLC_STAT.MODE_SEEN x) = 1 ∧
      u.evt.queue = s.evt.queue ++ [mkPost s Ev.PLC_MODE []] ∧ (∀ y, u.chan y = v.chan y) ∧ OnlyRegs [R.PLC_STAT x] s u ∧
      u.out = s.out := by
  obtain ⟨hcoord, hseen, hap⟩ := coordRefs_apart hx
  have hv' : Inv v := by rw [Inv, hv.regs]; exact hs
  have h1 : Inv (v.flag (F.PLC_STAT.COORD x) on) := State.flag_inv hv' _ on
  have hevt : v.evt = s.evt := (congrArg State.evt hv.1 :)
  have hregs := v.coordSet_onlyRegs (F.PLC_STAT.COORD x) (F.PLC_STAT.MODE_SEEN x) on (l := [R.PLC_STAT x]) (.head _) (.head _)
  refine ⟨_, v.setCoord_eq x on, ?_, ?_, ?_, fun y => ?_, fun a ha => ?_, ?_⟩
  · rw [State.fld, State.coordSet_regs]
    exact (State.fld_flag_other true h1 hseen hcoord hap).trans (State.fld_flag_same on hv' hcoord)
  · rw [State.fld, State.coordSet_regs]
    exact State.fld_flag_same true h1 hseen
  · have hpost : mkPost v Ev.PLC_MODE [] = mkPost s Ev.PLC_MODE [] := mkPost_congr ⟨s.evt.queue, hevt⟩ _ _
    rw [State.coordSet_queue, hevt, hpost]
  · exact congrArg (fun p : PlcState => Map.findD p.chans y {}) (v.coordSet_plc _ _ _)
  · rw [hregs a ha, hv.regs]
  · rw [State.coordSet_out, hv.out]

/-! ### The beacon (R267) -/

/-- The MAC frame of a beacon. -/
def State.beaconMac (s : State) (x : Nat) (k : PlcConf) (last : Bool) : List Byte :=
  packBytes ([(1, 6), (2, k.netId), (2, ((s.chan x).sfSeq + 1) % 65536), (2, s.fld (F.PLC_MODE.SF_MS x)),
    (1, if last then 1 else 0), (1, (s.chan x).active.length)] ++
    (s.chan x).active.flatMap fun p => [(2, p.short), (1, p.len), (1, if p.down then 1 else 0)])

/-- The PSDU of a beacon. -/
def State.beaconPsdu (s : State) (x : Nat) (k : PlcConf) (last : Bool) : List Byte :=
  (⟨0, 0xFFFF, [], none, s.beaconMac x k last, 0, 0⟩ : PlcTx).psdu

/-- The state as a beacon goes out: its number is taken. -/
def State.beaconTaken (s : State) (x : Nat) : State :=
  (s.setChan x { s.chan x with sfSeq := ((s.chan x).sfSeq + 1) % 65536 }).draw

theorem State.beacon_eq {s : State} {x : Nat} {k : PlcConf} (h : s.plcConf x = some k) (last : Bool) : s.beacon x last =
    (s.beaconTaken x).plcFrame x k 3 none (s.cphAt x (s.now * 1000 + headUs k)) 0 (s.beaconPsdu x k last) := by
  unfold State.beacon
  rw [h]
  rfl

theorem State.beaconTaken_frame (s : State) (x : Nat) : s.beaconTaken x = { s with
    plc := (s.setChan x { s.chan x with sfSeq := ((s.chan x).sfSeq + 1) % 65536 }).plc
    pair := (s.beaconTaken x).pair, drawn := (s.beaconTaken x).drawn } :=
  State.draw_frame (s.setChan x { s.chan x with sfSeq := ((s.chan x).sfSeq + 1) % 65536 })

theorem State.beaconTaken_chan (s : State) (x : Nat) :
    (s.beaconTaken x).chan x = { s.chan x with sfSeq := ((s.chan x).sfSeq + 1) % 65536 } ∧
      ∀ y, y ≠ x → (s.beaconTaken x).chan y = s.chan y := by
  have hplc := (congrArg State.plc (s.beaconTaken_frame x) :)
  have hchan (y : Nat) : (s.beaconTaken x).chan y =
      (s.setChan x { s.chan x with sfSeq := ((s.chan x).sfSeq + 1) % 65536 }).chan y :=
    congrArg (fun p : PlcState => Map.findD p.chans y {}) hplc
  exact ⟨(hchan x).trans (s.setChan_same x _), fun y hy => (hchan y).trans (s.setChan_other x _ hy)⟩

/-- The header of a beacon: its kind, its number and whether it is the last. -/
theorem State.beaconPsdu_fields (s : State) (x : Nat) (k : PlcConf) (last : Bool) :
    fieldAt ((s.beaconPsdu x k last).drop 6) 0 1 = 6 ∧
      fieldAt ((s.beaconPsdu x k last).drop 6) 3 2 = ((s.chan x).sfSeq + 1) % 65536 ∧
      fieldAt ((s.beaconPsdu x k last).drop 6) 7 1 = (if last then 1 else 0) := by
  refine ⟨rfl, ?_, ?_⟩
  · have hlt : ((s.chan x).sfSeq + 1) % 65536 < 65536 := Nat.mod_lt _ (by decide)
    have hbytes : fieldAt ((s.beaconPsdu x k last).drop 6) 3 2 =
        (0 * 256 + (BitVec.ofNat 8 (((s.chan x).sfSeq + 1) % 65536 / 256 ^ 1)).toNat) * 256 +
          (BitVec.ofNat 8 (((s.chan x).sfSeq + 1) % 65536 / 256 ^ 0)).toNat := rfl
    rw [hbytes, BitVec.toNat_ofNat, BitVec.toNat_ofNat]
    omega
  · cases last <;> rfl

theorem State.beacon_out (s : State) (x : Nat) (k : PlcConf) (last : Bool) (h : s.plcConf x = some k) :
    ∃ (t u : State) (cph : Nat) (l : List Byte), t = s.beacon x last ∧ t = u.plcFrame x k 3 none cph 0 l ∧
      u.chan x = { s.chan x with sfSeq := ((s.chan x).sfSeq + 1) % 65536 } ∧ (∀ y, y ≠ x → u.chan y = s.chan y) ∧
      fieldAt (l.drop 6) 0 1 = 6 ∧ fieldAt (l.drop 6) 3 2 = ((s.chan x).sfSeq + 1) % 65536 ∧
      fieldAt (l.drop 6) 7 1 = (if last then 1 else 0) := by
  obtain ⟨hsame, hother⟩ := s.beaconTaken_chan x
  exact ⟨_, _, _, _, rfl, State.beacon_eq h last, hsame, hother, s.beaconPsdu_fields x k last⟩

theorem State.send_plc (s : State) (o : Output) : (s.send o).plc = s.plc := by rw [State.send_eq]

/-- What a beacon changes: the number of its channel, and the counter of transmissions. -/
theorem State.beacon_spec {s : State} (hs : Inv s) {x : Nat} (hx : x < 4) {k : PlcConf} (h : s.plcConf x = some k) (last : Bool) :
    (s.beacon x last).chan x = { s.chan x with sfSeq := ((s.chan x).sfSeq + 1) % 65536 } ∧
      (∀ y, y ≠ x → (s.beacon x last).chan y = s.chan y) ∧ OnlyRegs [R.PLC_TX_CNT x] s (s.beacon x last) := by
  have hreg := (congrArg State.regs (s.beaconTaken_frame x) :)
  obtain ⟨hsame, hother⟩ := s.beaconTaken_chan x
  have hinv : Inv (s.beaconTaken x) := by rw [Inv, hreg]; exact hs
  rw [State.beacon_eq h]
  generalize s.beaconTaken x = v at hreg hsame hother hinv
  obtain ⟨u, o, hu, -, hregs, hframe, -⟩ := State.plcFrame_spec x 3 (s.cphAt x (s.now * 1000 + headUs k)) 0 none
    (s.beaconPsdu x k last) k v hinv hx
  have hplc : (u.send (.powerLine x o)).plc = v.plc := (State.send_plc ..).trans (congrArg State.plc hframe :)
  have hchan (y : Nat) : (u.send (.powerLine x o)).chan y = v.chan y :=
    congrArg (fun p : PlcState => Map.findD p.chans y {}) hplc
  rw [hu]
  refine ⟨(hchan x).trans hsame, fun y hy => (hchan y).trans (hother y hy), fun a ha => ?_⟩
  rw [State.send_regs, hregs a ha, hreg]

/-! ### SUPERFRAME_START (R267 to R270) -/

section
variable {x : Nat} {k : PlcConf} {s : State} (hk : s.plcConf x = some k)
include hk

theorem exec_superframeStart_off (h : s.fld (F.PLC_MODE.SF_MS x) = 0 ∨ s.now % s.fld (F.PLC_MODE.SF_MS x) ≠ 0) :
    exec (.superframeStart x) s = .next s := by
  show execSuperframeStart x s = _
  unfold execSuperframeStart
  rw [hk]
  exact if_pos h

variable (hsf : s.fld (F.PLC_MODE.SF_MS x) ≠ 0) (hnow : s.now % s.fld (F.PLC_MODE.SF_MS x) = 0)
include hsf hnow

/-- The mode is taken, and a beacon sent. -/
theorem exec_superframeStart_begins (hc : s.coord x = false) (hm : s.fld (F.PLC_MODE.MODE x) = 1) :
    ∃ auto act changes, exec (.superframeStart x) s = .next ((((s.setChan x { s.chan x with auto := auto }).setChan x
      { (s.setChan x { s.chan x with auto := auto }).chan x with
        active := act, changes := changes, coordAt := s.now }).setCoord x true).beacon x false) := by
  show ∃ auto act changes, execSuperframeStart x s = _
  unfold execSuperframeStart
  rw [hk]
  dsimp only
  rw [if_neg (by omega), hm, hc]
  exact ⟨_, _, _, rfl⟩

/-- A LAST beacon is sent. -/
theorem exec_superframeStart_last (hc : s.coord x = true) (hl : (s.chan x).last = false) (hm : s.fld (F.PLC_MODE.MODE x) = 0) :
    ∃ auto, exec (.superframeStart x) s = .next (((s.setChan x { s.chan x with auto := auto }).beacon x true).setChan x
      { ((s.setChan x { s.chan x with auto := auto }).beacon x true).chan x with last := true }) := by
  show ∃ auto, execSuperframeStart x s = _
  unfold execSuperframeStart
  rw [hk]
  dsimp only
  rw [if_neg (by omega), hm, hc, hl]
  exact ⟨_, rfl⟩

/-- The mode is left. -/
theorem exec_superframeStart_leaves (hc : s.coord x = true) (hl : (s.chan x).last = true) :
    ∃ auto, exec (.superframeStart x) s = .next (((s.setChan x { s.chan x with auto := auto }).setChan x
      { (s.setChan x { s.chan x with auto := auto }).chan x with
        last := false, active := [], shadow := [], changes := [] }).setCoord x false) := by
  show ∃ auto, execSuperframeStart x s = _
  unfold execSuperframeStart
  rw [hk]
  dsimp only
  rw [if_neg (by omega), hc, hl]
  exact ⟨_, rfl⟩

end

/-! ### The reference (R262) -/

/-- A lock gained or lost, in the two fields that show it. -/
def State.lockSet (s : State) (lock period : FieldRef) (on : Bool) (t : Nat) : State :=
  { s with regs := (s.regs.flag lock on).setF period t }

section
variable (s : State) (lock period : FieldRef) (on : Bool) (t : Nat)

theorem State.lockSet_regs : (s.lockSet lock period on t).regs = (s.regs.flag lock on).setF period t := rfl

theorem State.lockSet_plc : (s.lockSet lock period on t).plc = s.plc := rfl

theorem State.lockSet_evt : (s.lockSet lock period on t).evt = s.evt := rfl

theorem State.lockSet_onlyRegs {l : List Nat} (hl : lock.addr ∈ l) (hp : period.addr ∈ l) :
    OnlyRegs l s (s.lockSet lock period on t) := ((OnlyRegs.refl l s).flag on hl).setF t hp

end

theorem State.setLock_eq (s : State) (x t : Nat) (lock : Bool) : s.setLock x t lock =
    (s.lockSet (F.PLC_STAT.REF_LOCK x) (F.PLC_REF_PERIOD.PERIOD x) lock (if lock then t else 0)).postIf
      ((s.fld (F.PLC_STAT.REF_LOCK x) == 1) != lock) Ev.PLC_REF [b2 x, b8 t] := rfl

theorem lockRefs_ok {x : Nat} (h : x < 4) : (F.PLC_STAT.REF_LOCK x).ok = true ∧ (F.PLC_REF_PERIOD.PERIOD x).ok = true ∧
    (F.PLC_STAT.REF_LOCK x).apart (F.PLC_REF_PERIOD.PERIOD x) = true :=
  (by decide +kernel : ∀ x < 4, (F.PLC_STAT.REF_LOCK x).ok = true ∧ (F.PLC_REF_PERIOD.PERIOD x).ok = true ∧
    (F.PLC_STAT.REF_LOCK x).apart (F.PLC_REF_PERIOD.PERIOD x) = true) x h

/-- What a lock that changes shows and records. -/
theorem State.setLock_spec {s v : State} (hs : Inv s) {x : Nat} (hx : x < 4) (hv : OnlyChan x s v) {lock : Bool} (t : Nat)
    (h : ((v.fld (F.PLC_STAT.REF_LOCK x) == 1) != lock) = true) : ∃ u, v.setLock x t lock = u ∧
      u.fld (F.PLC_STAT.REF_LOCK x) = (if lock then 1 else 0) ∧ u.fld (F.PLC_REF_PERIOD.PERIOD x) = (if lock then t else 0) % 2 ^ 24 ∧
      u.chan x = v.chan x ∧ u.evt.queue = s.evt.queue ++ [mkPost s Ev.PLC_REF [b2 x, b8 t]] ∧
      OnlyRegs [R.PLC_STAT x, R.PLC_REF_PERIOD x] s u := by
  obtain ⟨hlock, hperiod, hap⟩ := lockRefs_ok hx
  have hv' : Inv v := by rw [Inv, hv.regs]; exact hs
  have h1 : Inv (v.flag (F.PLC_STAT.REF_LOCK x) lock) := State.flag_inv hv' _ lock
  have hevt : v.evt = s.evt := (congrArg State.evt hv.1 :)
  rw [State.setLock_eq, State.postIf_eq, if_pos h]
  generalize (if lock = true then t else 0) = n
  have hregs := v.lockSet_regs (F.PLC_STAT.REF_LOCK x) (F.PLC_REF_PERIOD.PERIOD x) lock n
  have hplc := v.lockSet_plc (F.PLC_STAT.REF_LOCK x) (F.PLC_REF_PERIOD.PERIOD x) lock n
  have hle := v.lockSet_evt (F.PLC_STAT.REF_LOCK x) (F.PLC_REF_PERIOD.PERIOD x) lock n
  have honly := v.lockSet_onlyRegs (F.PLC_STAT.REF_LOCK x) (F.PLC_REF_PERIOD.PERIOD x) lock n (l := [R.PLC_STAT x, R.PLC_REF_PERIOD x])
    (.head _) (.tail _ (.head _))
  generalize v.lockSet (F.PLC_STAT.REF_LOCK x) (F.PLC_REF_PERIOD.PERIOD x) lock n = w at hregs hplc hle honly
  have hw : w.evt = s.evt := hle.trans hevt
  refine ⟨_, rfl, ?_, ?_, ?_, ?_, fun a ha => ?_⟩
  · rw [State.fld, State.post_regs, hregs]
    exact (State.fld_setF_other (s := v.flag (F.PLC_STAT.REF_LOCK x) lock) n h1 hperiod hlock hap).trans
      (State.fld_flag_same lock hv' hlock)
  · rw [State.fld, State.post_regs, hregs]
    exact State.fld_setF_same (s := v.flag (F.PLC_STAT.REF_LOCK x) lock) n h1 hperiod
  · exact congrArg (fun p : PlcState => Map.findD p.chans x {}) hplc
  · have hpost : mkPost w Ev.PLC_REF [b2 x, b8 t] = mkPost s Ev.PLC_REF [b2 x, b8 t] := mkPost_congr ⟨s.evt.queue, hw⟩ _ _
    rw [State.post_evt, hw, hpost]
  · rw [State.post_regs, honly a ha, hv.regs]

section
variable {x : Nat} {c : PlcConf} {s : State} (hc : s.plcConf x = some c)
include hc

theorem exec_referenceMeasure_none (h : c.refSrc = 0) (m : RefMeasure) : exec (.referenceMeasure x m) s = .next s := by
  show execReferenceMeasure x m s = _
  unfold execReferenceMeasure
  rw [hc]
  exact if_pos h

theorem exec_referenceMeasure_silent (h : c.refSrc ≠ 0) : exec (.referenceMeasure x .silent) s = .next (s.unlock x) := by
  show execReferenceMeasure x .silent s = _
  unfold execReferenceMeasure
  rw [hc]
  exact if_neg h

theorem exec_referenceMeasure_edges (h : c.refSrc ≠ 0) (p o : Nat) :
    exec (.referenceMeasure x (.edges p o)) s = .next (s.measured x p o) := by
  show execReferenceMeasure x (.edges p o) s = _
  unfold execReferenceMeasure
  rw [hc]
  exact if_neg h

end

/-- A channel without its measurements. -/
def PlcChan.unmeasured (k : PlcChan) : PlcChan := { k with measured := [], weak := 0 }

theorem State.unlock_eq {s : State} {x : Nat} (h : s.fld (F.PLC_STAT.REF_LOCK x) = 1) : s.unlock x =
    (s.setChan x (s.chan x).unmeasured).setLock x (s.fld (F.PLC_REF_PERIOD.PERIOD x)) false := if_pos h

/-- A channel with a measurement taken. -/
def PlcChan.measuredBy (k : PlcChan) (t origin : Nat) : PlcChan :=
  { k with measured := (t :: k.measured).take 3, origin := origin, weak := 0 }

theorem State.measured_eq {s : State} {x t : Nat} (h : agree ((t :: (s.chan x).measured).take 3) = true) (origin : Nat) :
    s.measured x t origin = (s.setChan x ((s.chan x).measuredBy t origin)).setLock x t true := if_pos h

/-- BEACON_LOSS is recorded. -/
theorem exec_beaconLoss {m : NodeMsg} {rest : List NodeMsg} {l : List Byte} {s : State}
    (hm : takeInbox 4 s.rad.inbox = some (m, rest)) (hl : m.frame.body = .tylian l) (h4 : l.length = 4) :
    exec .beaconLoss s = .next (({ s with rad := { s.rad with inbox := rest } } : State).post Ev.PLC_BEACON_LOSS
      [b2 m.short, b4 (fieldAt l 2 2)]) := by
  show execBeaconLoss s = _
  unfold execBeaconLoss
  rw [hm]
  dsimp only
  rw [hl]
  exact congrArg Host.Outcome.next (if_pos h4)

/-- Settles O43: the mode of a channel at its superframes, its beacons, the reference and the loss of a beacon. -/
theorem coordinationAndReferenceFollowTheirRules : Obligations.CoordinationAndReferenceFollowTheirRules := by
  unfold Obligations.CoordinationAndReferenceFollowTheirRules
  refine ⟨fun x c s hs hx hc => ⟨exec_superframeStart_off hc, fun hsf hnow hcoord hm => ?_, fun hsf hnow hcoord hl hm => ?_,
    fun hsf hnow hcoord hl => ?_, fun last => s.beacon_out x c last hc, exec_referenceMeasure_none hc, fun hr hlock => ?_,
    fun p o a b hr hlock hmeas hag => ?_⟩, fun m rest l s hm hl h4 => exec_beaconLoss hm hl h4⟩
  · obtain ⟨auto, act, changes, he⟩ := exec_superframeStart_begins hc hsf hnow hcoord hm
    have honly := ((OnlyChan.refl x s).setChan { s.chan x with auto := auto }).setChan
      { (s.setChan x { s.chan x with auto := auto }).chan x with active := act, changes := changes, coordAt := s.now }
    obtain ⟨u, hu, hcoord', hseen, hq, hchan, hregs, hout⟩ := State.setCoord_spec hs hx honly true
    rw [hu] at he
    refine ⟨u, he, hcoord', hseen, hq, ?_, ?_, ?_, hregs, fun y hy => (hchan y).trans (honly.2 y hy), hout⟩
    · rw [hchan, State.setChan_same]
    · rw [hchan, State.setChan_same, State.setChan_same]
    · rw [hchan, State.setChan_same, State.setChan_same]
  · obtain ⟨auto, he⟩ := exec_superframeStart_last hc hsf hnow hcoord hl hm
    have honly := (OnlyChan.refl x s).setChan { s.chan x with auto := auto }
    have hsame := s.setChan_same x { s.chan x with auto := auto }
    generalize s.setChan x { s.chan x with auto := auto } = u at he honly hsame
    have huc : u.plcConf x = some c := by
      rw [State.plcConf, (congrArg State.warp honly.1 :)]
      exact hc
    have hui : Inv u := by rw [Inv, honly.regs]; exact hs
    obtain ⟨hb, hother, hregs⟩ := State.beacon_spec hui hx huc true
    refine ⟨_, u, he, rfl, honly.1, ?_, ?_, ?_, fun a ha => ?_, fun y hy => ?_⟩
    · rw [State.setChan_same]
    · rw [State.setChan_same, hb, hsame]
    · rw [State.setChan_same, hb, hsame]
    · exact (hregs a ha).trans (by rw [honly.regs])
    · rw [State.setChan_other _ _ _ hy, hother y hy, honly.2 y hy]
  · obtain ⟨auto, he⟩ := exec_superframeStart_leaves hc hsf hnow hcoord hl
    have honly := ((OnlyChan.refl x s).setChan { s.chan x with auto := auto }).setChan
      { (s.setChan x { s.chan x with auto := auto }).chan x with last := false, active := [], shadow := [], changes := [] }
    obtain ⟨u, hu, hcoord', hseen, hq, hchan, hregs, hout⟩ := State.setCoord_spec hs hx honly false
    rw [hu] at he
    refine ⟨u, he, hcoord', hseen, ?_, ?_, ?_, ?_, ?_, hq, hout, hregs⟩
    · rw [hchan, State.setChan_same]
    · rw [hchan, State.setChan_same]
    · rw [hchan, State.setChan_same]
    · rw [hchan, State.setChan_same]
    · rw [hchan, State.setChan_same, State.setChan_same]
  · have honly := (OnlyChan.refl x s).setChan (s.chan x).unmeasured
    have hsame := s.setChan_same x (s.chan x).unmeasured
    rw [exec_referenceMeasure_silent hc hr, State.unlock_eq hlock]
    generalize s.setChan x (s.chan x).unmeasured = v at honly hsame
    have hvlock : v.fld (F.PLC_STAT.REF_LOCK x) = 1 := (congrArg (fun r : RegFile => r.fld _) honly.regs).trans hlock
    obtain ⟨u, hu, hl, hp, hchan, hq, hregs⟩ := State.setLock_spec hs hx honly (lock := false) (s.fld (F.PLC_REF_PERIOD.PERIOD x))
      (by rw [hvlock]; rfl)
    refine ⟨u, congrArg Host.Outcome.next hu, hl, hp, ?_, hq, hregs⟩
    rw [hchan, hsame]
    rfl
  · have hag' : agree ((p :: (s.chan x).measured).take 3) = true := by rw [hmeas]; exact hag
    have honly := (OnlyChan.refl x s).setChan ((s.chan x).measuredBy p o)
    have hsame := s.setChan_same x ((s.chan x).measuredBy p o)
    rw [exec_referenceMeasure_edges hc hr, State.measured_eq hag']
    generalize s.setChan x ((s.chan x).measuredBy p o) = v at honly hsame
    have hvlock : v.fld (F.PLC_STAT.REF_LOCK x) = 0 := (congrArg (fun r : RegFile => r.fld _) honly.regs).trans hlock
    obtain ⟨u, hu, hl, hper, hchan, hq, hregs⟩ := State.setLock_spec hs hx honly (lock := true) p (by rw [hvlock]; rfl)
    refine ⟨u, congrArg Host.Outcome.next hu, hl, hper, ?_, ?_, hq, hregs⟩
    · rw [hchan, hsame, PlcChan.measuredBy, hmeas]
      rfl
    · rw [hchan, hsame]
      rfl

end Sys2Proof.Machine

/-! Power-line links as they are joined, kept and lost (R268, R272 to R275). -/

namespace Sys2Proof.Machine

set_option Elab.async false

/-! ### Slots (R268) -/

theorem exec_slotReq {m : NodeMsg} {x : Nat} {rest : List NodeMsg} {l : List Byte} {s : State}
    (hm : takeInbox 3 s.rad.inbox = some (m, rest)) (hx : m.chan = some x) (hl : m.frame.body = .tylian l) (h4 : l.length = 4) :
    exec .slotReq s = .next (({ s with rad := { s.rad with inbox := rest } } : State).grantSlot x m.short (fieldAt l 1 1)
      (fieldAt l 2 1)) := by
  show execSlotReq s = _
  unfold execSlotReq
  rw [hm]
  dsimp only
  rw [hx, hl]
  exact congrArg Host.Outcome.next (if_pos h4)

/-- Whether a slot can be granted: the node is direct, and the contention-free period has room. -/
def State.slotFits (s : State) (x len : Nat) (k : PlcLink) (others : List PlcSlot) : Bool :=
  k.path.isEmpty && decide (others.length < 64) &&
    decide ((sumNat (fun p : PlcSlot => 250 * p.len) others + 250 * len) * 100 ≤
      s.fld (F.PLC_MODE.CFP_PCT x) * s.fld (F.PLC_MODE.SF_MS x) * 1000)

theorem State.slotFits_iff {s : State} {x len : Nat} {k : PlcLink} {others : List PlcSlot} :
    s.slotFits x len k others = true ↔ k.path = [] ∧ others.length < 64 ∧
      (sumNat (fun p : PlcSlot => 250 * p.len) others + 250 * len) * 100 ≤
        s.fld (F.PLC_MODE.CFP_PCT x) * s.fld (F.PLC_MODE.SF_MS x) * 1000 := by
  simp only [State.slotFits, Bool.and_eq_true, List.isEmpty_iff, decide_eq_true_eq, and_assoc]

theorem State.plcPump_invalid {s : State} {a : Nat} {e : JoinedEntry} {k : PlcLink} (he : Map.find s.rad.joined a = some e)
    (hk : e.plc = some k) (hv : k.valid = false) : (s.plcPump a).1 = s := by
  unfold State.plcPump
  rw [he]
  dsimp only
  rw [hk]
  split
  · next l _ _ hl _ =>
    obtain rfl := Option.some.inj hl
    rw [if_neg (by rw [hv]; simp)]
  · rfl

section
variable {x a len dir : Nat} {e : JoinedEntry} {k : PlcLink} {others : List PlcSlot} {s : State}
  (he : Map.find s.rad.joined a = some e) (hk : e.plc = some k) (hv : k.valid = false) (hlen : 0 < len)
  (ho : others = (s.chan x).shadow.filter (fun p => !(p.short == a && p.down == (dir == 1))))
include he hk

include hv in
/-- The answer to a slot request waits for the route of its node. -/
theorem State.slotAnswer_eq {v : State} (hj : v.rad.joined = s.rad.joined) (b : DownBody) : ∃ t p, ((v.queueDown a b).plcPump a).1 = t ∧
    Map.find t.rad.joined a = some { e with queue := e.queue ++ [p] } ∧ p.body = b ∧ t.plc = v.plc := by
  obtain ⟨p, hp, hb, -⟩ := State.queueDown_eq (s := v) (hj.symm ▸ he) b
  have hfind : Map.find (v.queueDown a b).rad.joined a = some { e with queue := e.queue ++ [p] } := by
    rw [hp]
    exact Map.find_set_same ..
  refine ⟨_, p, State.plcPump_invalid hfind hk hv, hfind, hb, ?_⟩
  rw [hp]
  rfl

include ho in
theorem State.grantSlot_eq : s.grantSlot x a len dir =
    ((((if (if s.slotFits x len k others then len else 0) = 0 ∧ len ≠ 0 then s
      else s.changeSlots x (if len = 0 then others else others ++ [⟨a, len, dir == 1⟩])).queueDown a
        (.message (packBytes [(1, 3), (1, if s.slotFits x len k others then len else 0), (1, dir), (1, 0)]))).plcPump a).1) := by
  subst ho
  unfold State.grantSlot
  rw [he]
  dsimp only
  rw [hk]
  rfl

include hv hlen ho in
/-- A slot request, granted or answered with length 0. -/
theorem State.grantSlot_spec : ∃ t p, s.grantSlot x a len dir = t ∧ Map.find t.rad.joined a = some { e with queue := e.queue ++ [p] } ∧
      (k.path = [] → others.length < 64 →
        (sumNat (fun p : PlcSlot => 250 * p.len) others + 250 * len) * 100 ≤
          s.fld (F.PLC_MODE.CFP_PCT x) * s.fld (F.PLC_MODE.SF_MS x) * 1000 →
        (t.chan x).shadow = others ++ [⟨a, len, dir == 1⟩] ∧
          p.body = .message (packBytes [(1, 3), (1, len), (1, dir), (1, 0)])) ∧
      ((k.path ≠ [] ∨ 64 ≤ others.length ∨ s.fld (F.PLC_MODE.CFP_PCT x) * s.fld (F.PLC_MODE.SF_MS x) * 1000 <
          (sumNat (fun p : PlcSlot => 250 * p.len) others + 250 * len) * 100) →
        (t.chan x).shadow = (s.chan x).shadow ∧ p.body = .message (packBytes [(1, 3), (1, 0), (1, dir), (1, 0)])) := by
  rw [State.grantSlot_eq he hk ho]
  cases hf : s.slotFits x len k others with
  | true =>
    obtain ⟨hpath, hcount, hroom⟩ := State.slotFits_iff.mp hf
    simp only [if_true]
    rw [if_neg (by omega), if_neg (by omega)]
    obtain ⟨t, p, ht, hfind, hb, hplc⟩ := State.slotAnswer_eq (v := s.changeSlots x (others ++ [⟨a, len, dir == 1⟩])) he hk hv rfl
      (.message (packBytes [(1, 3), (1, len), (1, dir), (1, 0)]))
    refine ⟨t, p, ht, hfind, fun _ _ _ => ⟨?_, hb⟩, fun h => ?_⟩
    · rw [State.chan, hplc, ← State.chan, State.changeSlots, State.setChan_same]
    · rcases h with h | h | h
      · exact absurd hpath h
      · omega
      · omega
  | false =>
    simp only [Bool.false_eq_true, if_false]
    rw [if_pos ⟨trivial, by omega⟩]
    obtain ⟨t, p, ht, hfind, hb, hplc⟩ := State.slotAnswer_eq (v := s) he hk hv rfl
      (.message (packBytes [(1, 3), (1, 0), (1, dir), (1, 0)]))
    refine ⟨t, p, ht, hfind, fun h1 h2 h3 => ?_, fun _ => ⟨?_, hb⟩⟩
    · rw [State.slotFits_iff.mpr ⟨h1, h2, h3⟩] at hf
      cases hf
    · rw [State.chan, hplc]
      rfl

end

/-! ### ROUTE_ADV (R272) -/

section
variable {x : Nat} {c : PlcConf} {s : State} (hc : s.plcConf x = some c)
include hc

theorem exec_routeAdv_waits (h : ∃ p, (s.chan x).advAt = some p ∧ s.now < p + s.fld F.PLC_ROUTE.ADV_S * 1000) :
    exec (.routeAdv x) s = .next s := by
  obtain ⟨p, hp, hlt⟩ := h
  show execRouteAdv x s = _
  unfold execRouteAdv
  rw [hc]
  dsimp only
  rw [hp]
  exact congrArg Host.Outcome.next (if_neg (by rw [decide_eq_true_eq]; omega))

theorem exec_routeAdv_due (h : ∀ p, (s.chan x).advAt = some p → p + s.fld F.PLC_ROUTE.ADV_S * 1000 ≤ s.now) :
    exec (.routeAdv x) s = .next ((({ s with plc := { s.plc with advSeq := (s.plc.advSeq + 1) % 65536 } } : State).setChan x
      { s.chan x with advAt := some s.now }).queueFrame x 0 0xFFFF [] none
        (packBytes [(1, 5), (2, c.netId), (2, 0), (1, 0), (1, 0), (2, (s.plc.advSeq + 1) % 65536)])) := by
  show execRouteAdv x s = _
  unfold execRouteAdv
  rw [hc]
  dsimp only
  refine congrArg Host.Outcome.next (if_pos ?_)
  split
  · next t ht => exact decide_eq_true (h t ht)
  · rfl

/-- A route advertised. -/
theorem exec_routeAdv_spec (h : ∀ p, (s.chan x).advAt = some p → p + s.fld F.PLC_ROUTE.ADV_S * 1000 ≤ s.now) :
    ∃ t f, exec (.routeAdv x) s = .next t ∧ (t.chan x).advAt = some s.now ∧ (t.chan x).queue = (s.chan x).queue ++ [f] ∧
        f.mac = packBytes [(1, 5), (2, c.netId), (2, 0), (1, 0), (1, 0), (2, (s.plc.advSeq + 1) % 65536)] ∧
        f.next = 0xFFFF ∧ f.path = [] ∧
        t.plc.advSeq = (s.plc.advSeq + 1) % 65536 ∧ (∀ y, y ≠ x → t.chan y = s.chan y) ∧ t.regs = s.regs := by
  rw [exec_routeAdv_due hc h]
  generalize packBytes _ = mac
  have hsame := State.setChan_same ({ s with plc := { s.plc with advSeq := (s.plc.advSeq + 1) % 65536 } } : State) x
    { s.chan x with advAt := some s.now }
  have hother (y : Nat) (hy : y ≠ x) := State.setChan_other
    ({ s with plc := { s.plc with advSeq := (s.plc.advSeq + 1) % 65536 } } : State) x
    { s.chan x with advAt := some s.now } hy
  have hseq : (State.setChan ({ s with plc := { s.plc with advSeq := (s.plc.advSeq + 1) % 65536 } } : State) x
    { s.chan x with advAt := some s.now }).plc.advSeq = (s.plc.advSeq + 1) % 65536 := rfl
  have hregs : (State.setChan ({ s with plc := { s.plc with advSeq := (s.plc.advSeq + 1) % 65536 } } : State) x
    { s.chan x with advAt := some s.now }).regs = s.regs := rfl
  generalize State.setChan _ x _ = v at hsame hother hseq hregs
  refine ⟨_, ⟨0, 0xFFFF, [], none, mac, 0, v.fld F.PLC_CSMA.BE_MIN⟩, rfl, ?_, ?_, rfl, rfl, rfl, hseq, fun y hy => ?_, hregs⟩
  · rw [State.queueFrame, State.setChan_same, hsame]
  · rw [v.queueFrame_chan, hsame]
  · rw [v.queueFrame_other hy]
    exact hother y hy

end

/-! ### A link that is lost, and what waits for a route (R275) -/

theorem State.dropRoute_some {s : State} {a : Nat} {e : JoinedEntry} {k : PlcLink} (he : Map.find s.rad.joined a = some e)
    (hk : e.plc = some k) : s.dropRoute a = s.setJoined a
      { e with plc := some { k with valid := false }, queue := e.queue.map (DownPayload.waits s.now) } := by
  unfold State.dropRoute
  rw [he]
  dsimp only
  rw [hk]
  rfl

/-- The slots of a node removed: its channel alone changes. -/
theorem State.dropSlots_spec (s : State) (x a : Nat) : ∃ t, s.dropSlots x a = t ∧ OnlyChan x s t ∧
    ∀ p ∈ (t.chan x).shadow, p.short ≠ a := by
  refine ⟨_, rfl, ?_⟩
  unfold State.dropSlots
  split
  · refine ⟨(OnlyChan.refl x s).setChan _, fun p hp => ?_⟩
    rw [State.changeSlots, State.setChan_same] at hp
    exact bne_iff_ne.mp (List.mem_filter.mp hp).2
  · next h =>
    refine ⟨OnlyChan.refl x s, fun p hp e => h (List.any_eq_true.mpr ⟨p, hp, ?_⟩)⟩
    rw [e]
    exact BEq.rfl

theorem linkLostRefs_apart : fieldsApart [F.PLC_LINK_LOST_CNT.COUNT, F.RFM_JOINED.TOTAL, F.RFM_JOINED.RADIO, F.PLC_ROUTES.COUNT] =
    true := by decide +kernel

theorem OnlyRegs.trans {l : List Nat} {s t u : State} (h : OnlyRegs l s t) (h' : OnlyRegs l t u) : OnlyRegs l s u :=
  fun a ha => (h' a ha).trans (h a ha)

/-! ### Joins over power line (R274) -/

section
variable {j : PlcJoin} {l : List PlcJoin} {s u : State} (hj : s.plc.joins = j :: l)
  (hu : u = { s with plc := { s.plc with joins := l } })
include hj hu

theorem exec_plcJoinReq_silent {k : Nat} (h : u.judgePlcJoin j.req = .silent k) : exec .plcJoinReq s =
    .next ((u.bump F.PLC_JOIN_CNT.REJECTS).post Ev.PLC_JOIN_REJECT [b8 j.req.eui, b2 k]) := by
  subst hu
  show execPlcJoinReq s = _
  unfold execPlcJoinReq
  rw [hj]
  dsimp only
  rw [h]

theorem exec_plcJoinReq_refused {i st : Nat} (h : u.judgePlcJoin j.req = .refused i st) : exec .plcJoinReq s =
    .next (((u.bump F.PLC_JOIN_CNT.REJECTS).post Ev.PLC_JOIN_REJECT [b8 j.req.eui, b2 (Cause.pick s.free)]).draw.plcJoinRsp
      j i st false 0) := by
  subst hu
  show execPlcJoinReq s = _
  unfold execPlcJoinReq
  rw [hj]
  dsimp only
  rw [h]
  rfl

end

/-- The entry of a node that joins over power line: the reverse of the path its request came on. -/
def State.plcEntry (s : State) (j : PlcJoin) (i a : Nat) : JoinedEntry :=
  let fresh (p : DownPayload) : DownPayload := { p with lsn := 0, sends := 0, held := none }
  { s.entryOf i a j.req with
    relay := !(s.meter i).conf.flag 2, plc := some ⟨j.chan, j.path.reverse, j.cost, s.now, true, s.now, true⟩
    conn := none, rxCtr := 0, txCtr := 0, alsn := 0, lsn := 0, queue := (s.entryOf i a j.req).queue.map fresh }

/-- A node entered, its old slots removed and its answer queued. -/
def State.plcAnswered (s : State) (j : PlcJoin) (i a : Nat) : State :=
  (((s.enter i a j.req).setJoined a (s.plcEntry j i a)).dropSlots j.chan a).plcJoinRsp j i 0 (!(s.meter i).conf.flag 2) a

/-- A node entered as the model writes it: its entry is read back after `enter`. -/
def State.plcReread (u : State) (j : PlcJoin) (i a : Nat) : JoinedEntry :=
  let old := Map.findD (u.enter i a j.req).rad.joined a ⟨i, j.req.sleepy, 0, 0, 0, 0, 0, 0, [], [], false, none, none⟩
  let fresh (p : DownPayload) : DownPayload := { p with lsn := 0, sends := 0, held := none }
  { old with
    relay := !(u.meter i).conf.flag 2, plc := some ⟨j.chan, j.path.reverse, j.cost, u.now, true, u.now, true⟩
    conn := none, rxCtr := 0, txCtr := 0, alsn := 0, lsn := 0, queue := old.queue.map fresh }

theorem State.plcReread_eq (u : State) (j : PlcJoin) (i a : Nat) : u.plcReread j i a = u.plcEntry j i a := by
  have hold : Map.findD (u.enter i a j.req).rad.joined a ⟨i, j.req.sleepy, 0, 0, 0, 0, 0, 0, [], [], false, none, none⟩ =
      u.entryOf i a j.req := by
    rw [Map.findD, State.enter_eq, State.setJoined_same]
    rfl
  rw [State.plcReread, hold, State.plcEntry]

theorem exec_plcJoinReq_accepted {j : PlcJoin} {l : List PlcJoin} {s u : State} (hj : s.plc.joins = j :: l)
    (hu : u = { s with plc := { s.plc with joins := l } }) {i a : Nat} (h : u.judgePlcJoin j.req = .accepted i a) :
    exec .plcJoinReq s = .next ((((u.plcAnswered j i a).bump F.PLC_JOIN_CNT.JOINS).post Ev.PLC_JOIN
      [b4 i, b2 a, b2 j.chan]).plcPump a).1 := by
  rw [State.plcAnswered, ← State.plcReread_eq]
  subst hu
  show execPlcJoinReq s = _
  unfold execPlcJoinReq
  rw [hj]
  dsimp only
  rw [h]
  rfl

theorem State.plcJoinRsp_frame (s : State) (j : PlcJoin) (i status : Nat) (relay : Bool) (a : Nat) :
    ∃ t, s.plcJoinRsp j i status relay a = t ∧ t = { s with plc := t.plc } := by
  refine ⟨_, rfl, ?_⟩
  unfold State.plcJoinRsp
  dsimp only
  generalize packBytes _ = payload
  cases s.joinFrame i j.req.joinCtr payload with
  | none => rfl
  | some mac => exact State.queueFrame_frame ..

/-- What a node entered leaves. -/
theorem State.plcAnswered_spec (u : State) (j : PlcJoin) (i a : Nat) : ∃ w, u.plcAnswered j i a = w ∧
    Map.find w.rad.joined a = some (u.plcEntry j i a) ∧ (∀ b, b ≠ a → Map.find w.rad.joined b = Map.find u.rad.joined b) ∧
    OnlyRegs [R.RFM_JOINED, R.PLC_ROUTES] u w ∧ (Inv u → Inv w) ∧ w.evt = u.evt := by
  rw [State.plcAnswered, State.enter_eq]
  generalize u.plcEntry j i a = e
  generalize u.entryOf i a j.req = e'
  have hfirst := u.setJoined_onlyRegs a e'
  have hfirstInv := State.setJoined_inv (s := u) a e'
  have hfirstEvt := u.setJoined_evt a e'
  have hfirstOther (b : Nat) (hb : b ≠ a) := u.setJoined_other a e' hb
  generalize u.setJoined a e' = v at hfirst hfirstInv hfirstEvt hfirstOther
  have hsame := v.setJoined_same a e
  have hother (b : Nat) (hb : b ≠ a) := (v.setJoined_other a e hb).trans (hfirstOther b hb)
  have hregs := OnlyRegs.trans hfirst (v.setJoined_onlyRegs a e)
  have hinv (h : Inv u) := State.setJoined_inv (s := v) a e (hfirstInv h)
  have hevt := (v.setJoined_evt a e).trans hfirstEvt
  generalize v.setJoined a e = w at hsame hother hregs hinv hevt
  obtain ⟨x, hx, honly, -⟩ := w.dropSlots_spec j.chan a
  rw [hx]
  obtain ⟨y, hy, hframe⟩ := x.plcJoinRsp_frame j i 0 (!(u.meter i).conf.flag 2) a
  have hrad : y.rad = w.rad := (congrArg State.rad hframe :).trans honly.rad
  have hyregs : y.regs = w.regs := (congrArg State.regs hframe :).trans honly.regs
  refine ⟨y, hy, ?_, fun b hb => ?_, hregs.of_regs hyregs, fun h => ?_,
    ((congrArg State.evt hframe :).trans (congrArg State.evt honly.1 :)).trans hevt⟩
  · rw [hrad, hsame]
  · rw [hrad, hother b hb]
  · rw [Inv, hyregs]
    exact hinv h

theorem plcJoinRefs_ok : F.PLC_JOIN_CNT.REJECTS.ok = true ∧ F.PLC_JOIN_CNT.JOINS.ok = true := by decide +kernel

/-- A JOIN_REQ accepted. -/
theorem exec_plcJoinReq_enters {j : PlcJoin} {l : List PlcJoin} {s u : State} (hs : Inv s) (hj : s.plc.joins = j :: l)
    (hu : u = { s with plc := { s.plc with joins := l } }) {i a : Nat} (h : u.judgePlcJoin j.req = .accepted i a) :
    ∃ t v : State, ∃ e, exec .plcJoinReq s = .next t ∧
      Map.find v.rad.joined a = some e ∧ e.meter = i ∧ e.joinCtr = j.req.joinCtr ∧ e.conn = none ∧
      e.plc = some ⟨j.chan, j.path.reverse, j.cost, s.now, true, s.now, true⟩ ∧ e.rxCtr = 0 ∧ e.txCtr = 0 ∧
      v.fld F.PLC_JOIN_CNT.JOINS = min (s.fld F.PLC_JOIN_CNT.JOINS + 1) 0xFFFF ∧
      OnlyRegs [R.PLC_JOIN_CNT, R.RFM_JOINED, R.PLC_ROUTES] s v ∧
      (∀ b, b ≠ a → Map.find v.rad.joined b = Map.find s.rad.joined b) ∧
      v.evt.queue = s.evt.queue ++ [mkPost s Ev.PLC_JOIN [b4 i, b2 a, b2 j.chan]] ∧ t = (v.plcPump a).1 := by
  obtain ⟨w, hw, hfind, hother, hregs, hinv, hevt⟩ := u.plcAnswered_spec j i a
  have hexec := exec_plcJoinReq_accepted hj hu h
  rw [hw] at hexec
  have huregs : u.regs = s.regs := (congrArg State.regs hu :)
  have hurad : u.rad = s.rad := (congrArg State.rad hu :)
  have huevt : u.evt = s.evt := (congrArg State.evt hu :)
  have hpace : u.now = s.now := (congrArg State.now hu :)
  have hsregs : OnlyRegs [R.RFM_JOINED, R.PLC_ROUTES] s w := fun k hk => (hregs k hk).trans (congrArg (RegFile.get · k) huregs)
  have hwi : Inv w := hinv (by rw [Inv, huregs]; exact hs)
  refine ⟨_, _, u.plcEntry j i a, hexec, ?_, rfl, rfl, rfl, ?_, rfl, rfl, ?_, ?_, fun b hb => ?_, ?_, rfl⟩
  · rw [State.post_rad, State.bump_rad, hfind]
  · rw [← hpace]
    rfl
  · rw [State.fld, State.post_regs, ← State.fld, State.fld_bump_same 1 hwi plcJoinRefs_ok.2,
      hsregs.fld (f := F.PLC_JOIN_CNT.JOINS) (by decide +kernel)]
    rfl
  · exact ((hsregs.mono (List.subset_cons_self ..)).bump (f := F.PLC_JOIN_CNT.JOINS) 1 (.head _)).post _ _
  · rw [State.post_rad, State.bump_rad, hother b hb, hurad]
  · rw [State.post_evt, State.bump_evt, hevt, huevt,
      mkPost_congr ⟨s.evt.queue, (State.bump_evt ..).trans (hevt.trans huevt)⟩]

/-! ### A link that is lost (R275) -/

theorem State.joinedSet_pace (s : State) (m : Map JoinedEntry) (r : RegFile) : (s.joinedSet m r).pace = s.pace := rfl

theorem State.setJoined_now (s : State) (a : Nat) (e : JoinedEntry) : (s.setJoined a e).now = s.now := by
  rw [State.now, State.setJoined_eq, State.joinedSet_pace, State.now]

/-- A route dropped from an entry just written. -/
theorem State.dropRoute_setJoined (s : State) (a : Nat) {k : PlcLink} (w : JoinedEntry) (hw : w.plc = some k) : ∃ t,
    (s.setJoined a w).dropRoute a = t ∧
    Map.find t.rad.joined a = some { w with plc := some { k with valid := false }, queue := w.queue.map (DownPayload.waits s.now) } ∧
    (∀ b, b ≠ a → Map.find t.rad.joined b = Map.find s.rad.joined b) ∧ OnlyRegs [R.RFM_JOINED, R.PLC_ROUTES] s t ∧
    (Inv s → Inv t) ∧ t.plc = s.plc ∧ t.out = s.out ∧ t.evt = s.evt := by
  have hnow := s.setJoined_now a w
  have hdrop := State.dropRoute_some (s.setJoined_same a w) hw
  rw [hnow] at hdrop
  rw [hdrop]
  generalize ({ w with plc := some { k with valid := false }, queue := w.queue.map (DownPayload.waits s.now) } : JoinedEntry) = x
  have hother (b : Nat) (hb : b ≠ a) := s.setJoined_other a w hb
  have hregs := s.setJoined_onlyRegs a w
  have hinv := State.setJoined_inv (s := s) a w
  have hplc := s.setJoined_plc a w
  have hout := s.setJoined_out a w
  have hevt := s.setJoined_evt a w
  generalize s.setJoined a w = v at hother hregs hinv hplc hout hevt
  exact ⟨_, rfl, v.setJoined_same a x, fun b hb => (v.setJoined_other a x hb).trans (hother b hb),
    OnlyRegs.trans hregs (v.setJoined_onlyRegs a x), fun h => State.setJoined_inv a x (hinv h), (v.setJoined_plc a x).trans hplc,
    (v.setJoined_out a x).trans hout, (v.setJoined_evt a x).trans hevt⟩

theorem State.unwrap_congr {s t : State} (hk : t.fld F.KEY_STAT.STATE = s.fld F.KEY_STAT.STATE)
    (he : t.fld F.KEY_ENROL_CNT.COUNT = s.fld F.KEY_ENROL_CNT.COUNT) : t.unwrap = s.unwrap := by
  funext w
  rw [State.unwrap, State.keysReady, State.enrol, hk, he, State.unwrap, State.keysReady, State.enrol]

/-- What is sealed for a node depends on the meters and on the keys alone. -/
theorem State.macTo_congr {s t : State} (hi : t.ing = s.ing) (hk : t.fld F.KEY_STAT.STATE = s.fld F.KEY_STAT.STATE)
    (he : t.fld F.KEY_ENROL_CNT.COUNT = s.fld F.KEY_ENROL_CNT.COUNT) (m d : Nat) (l : List Byte) : t.macTo m d l = s.macTo m d l := by
  rw [State.macTo, State.meter, hi, State.linkKey, State.readingKey, State.unwrap_congr hk he, State.macTo, State.meter,
    State.linkKey, State.readingKey]

theorem State.joinedSet_ing (s : State) (m : Map JoinedEntry) (r : RegFile) : (s.joinedSet m r).ing = s.ing := rfl

theorem State.setJoined_ing (s : State) (a : Nat) (e : JoinedEntry) : (s.setJoined a e).ing = s.ing := by
  rw [State.setJoined_eq, State.joinedSet_ing]

section
variable {a : Nat} {e : JoinedEntry} {k : PlcLink} {s : State} (he : Map.find s.rad.joined a = some e) (hk : e.plc = some k)
include he hk

theorem exec_plcLinkLost_eq : exec (.plcLinkLost a) s = .next (if k.alive ∧ k.lastUp + 3000 * s.fld F.PLC_ROUTE.KEEPALIVE_S ≤ s.now then
    (((((s.setJoined a { e with plc := some { k with alive := false } }).dropRoute a).dropSlots k.chan a).bump
      F.PLC_LINK_LOST_CNT.COUNT).post Ev.PLC_LINK_LOST [b2 a]) else s) := by
  show execPlcLinkLost a s = _
  unfold execPlcLinkLost
  rw [he]
  dsimp only
  rw [hk]

/-- A node lost, with its route and slots. -/
theorem exec_plcLinkLost_due (hs : Inv s) (halive : k.alive = true) (hdue : k.lastUp + 3000 * s.fld F.PLC_ROUTE.KEEPALIVE_S ≤ s.now) :
    ∃ t x, exec (.plcLinkLost a) s = .next t ∧ Map.find t.rad.joined a = some x ∧
        x.plc = some { k with alive := false, valid := false } ∧ (∀ p ∈ x.queue, p.held.isSome = true) ∧
        (∀ b, b ≠ a → Map.find t.rad.joined b = Map.find s.rad.joined b) ∧
        (∀ p ∈ (t.chan k.chan).shadow, p.short ≠ a) ∧ t.out = s.out ∧
        t.fld F.PLC_LINK_LOST_CNT.COUNT = min (s.fld F.PLC_LINK_LOST_CNT.COUNT + 1) (2 ^ 32 - 1) ∧
        t.evt.queue = s.evt.queue ++ [mkPost s Ev.PLC_LINK_LOST [b2 a]] ∧
        OnlyRegs [R.PLC_LINK_LOST_CNT, R.RFM_JOINED, R.PLC_ROUTES] s t := by
  rw [exec_plcLinkLost_eq he hk, if_pos ⟨halive, hdue⟩]
  obtain ⟨u, hu, hfind, hother, hregs, hinv, -, hout, hevt⟩ :=
    State.dropRoute_setJoined s a { e with plc := some { k with alive := false } } rfl
  rw [hu]
  obtain ⟨v, hv, honly, hslots⟩ := u.dropSlots_spec k.chan a
  rw [hv]
  have hvi : Inv v := by
    rw [Inv, honly.regs]
    exact hinv hs
  have hvregs := hregs.of_regs honly.regs
  have hvevt : v.evt = s.evt := (congrArg State.evt honly.1 :).trans hevt
  have hok := ((fieldsApart_iff _).mp linkLostRefs_apart).1 F.PLC_LINK_LOST_CNT.COUNT (.head _)
  refine ⟨_, { e with plc := some { k with alive := false, valid := false }, queue := e.queue.map (DownPayload.waits s.now) }, rfl,
    ?_, rfl, fun p hp => ?_, fun b hb => ?_, fun p hp => ?_, ?_, ?_, ?_, ?_⟩
  · rw [State.post_rad, State.bump_rad, honly.rad, hfind]
  · obtain ⟨q, -, rfl⟩ := List.mem_map.mp hp
    exact q.waits_held s.now
  · rw [State.post_rad, State.bump_rad, honly.rad, hother b hb]
  · rw [State.chan, State.post_plc, State.bump_plc] at hp
    exact hslots p hp
  · rw [State.post_out, State.bump_out, honly.out, hout]
  · rw [State.fld, State.post_regs, ← State.fld, State.fld_bump_same 1 hvi hok,
      hvregs.fld (f := F.PLC_LINK_LOST_CNT.COUNT) (by decide +kernel)]
    rfl
  · rw [State.post_evt, State.bump_evt, hvevt, mkPost_congr ⟨s.evt.queue, (State.bump_evt ..).trans hvevt⟩]
  · exact ((hvregs.mono (List.subset_cons_self ..)).bump (f := F.PLC_LINK_LOST_CNT.COUNT) 1 (.head _)).post _ _

/-! ### Payloads not acknowledged end to end (R273, R275) -/

theorem State.downFrame_eq {b : DownBody} {lsn : Nat} {mac : List Byte}
    (hm : s.macTo e.meter 1 (macHeader 0 false lsn e.alsn a 0xFFFE (e.txCtr + 1) ++ b.bytes 0) = some mac) :
    s.downFrame a lsn (some b) =
      (s.setJoined a { e with txCtr := e.txCtr + 1 }).queueFrame k.chan 1 (k.path.getD 0 a) k.path (some a) mac := by
  unfold State.downFrame
  rw [he]
  dsimp only
  rw [hk]
  dsimp only
  rw [hm]

section
variable {p : DownPayload} {l : List DownPayload} (hq : e.queue = p :: l)
include hq

theorem exec_e2eResend_eq : exec (.e2eResend a) s =
    .next (if p.lsn = 0 ∨ (!s.receives) = true ∨ s.now < p.sentAt + s.fld F.PLC_E2E.TIMEOUT_MS then s
        else if s.fld F.PLC_E2E.RETRIES ≤ p.sends then (s.setJoined a { e with queue := l }).dropRoute a
        else if (!k.valid) = true then s
        else (s.setJoined a { e with queue := { p with sends := p.sends + 1, sentAt := s.now } :: l }).downFrame a p.lsn
          (some p.body)) := by
  show execE2eResend a s = _
  unfold execE2eResend
  rw [he]
  dsimp only
  rw [hk, hq]

theorem exec_e2eResend_waits (h : p.lsn = 0 ∨ s.receives = false ∨ s.now < p.sentAt + s.fld F.PLC_E2E.TIMEOUT_MS) :
    exec (.e2eResend a) s = .next s := by
  rw [exec_e2eResend_eq he hk hq, if_pos (by rw [Bool.not_eq_true']; exact h)]

variable (hl : p.lsn ≠ 0) (hr : s.receives = true) (hdue : p.sentAt + s.fld F.PLC_E2E.TIMEOUT_MS ≤ s.now)
include hl hr hdue

theorem exec_e2eResend_due : exec (.e2eResend a) s =
    .next (if s.fld F.PLC_E2E.RETRIES ≤ p.sends then (s.setJoined a { e with queue := l }).dropRoute a
        else if (!k.valid) = true then s
        else (s.setJoined a { e with queue := { p with sends := p.sends + 1, sentAt := s.now } :: l }).downFrame a p.lsn
          (some p.body)) := by
  rw [exec_e2eResend_eq he hk hq, if_neg]
  rintro (h | h | h)
  · exact hl h
  · rw [hr] at h
    cases h
  · omega

theorem exec_e2eResend_fails (h : s.fld F.PLC_E2E.RETRIES ≤ p.sends) :
    ∃ t x, exec (.e2eResend a) s = .next t ∧ Map.find t.rad.joined a = some x ∧ x.queue.length = l.length ∧
          x.plc = some { k with valid := false } ∧ OnlyRegs [R.RFM_JOINED, R.PLC_ROUTES] s t ∧ t.out = s.out := by
  rw [exec_e2eResend_due he hk hq hl hr hdue, if_pos h]
  obtain ⟨t, ht, hfind, -, hregs, -, -, hout, -⟩ := State.dropRoute_setJoined s a (k := k) { e with queue := l } hk
  exact ⟨t, _, congrArg Host.Outcome.next ht, hfind, List.length_map _, rfl, hregs, hout⟩

theorem exec_e2eResend_sent (h : p.sends < s.fld F.PLC_E2E.RETRIES) (hv : k.valid = true) {mac : List Byte}
    (hm : s.macTo e.meter 1 (macHeader 0 false p.lsn e.alsn a 0xFFFE (e.txCtr + 1) ++ p.body.bytes 0) = some mac) :
    ∃ t f, exec (.e2eResend a) s = .next t ∧
          Map.find t.rad.joined a = some { e with
            queue := { p with sends := p.sends + 1, sentAt := s.now } :: l, txCtr := e.txCtr + 1 } ∧
          (t.chan k.chan).queue = (s.chan k.chan).queue ++ [f] ∧ f.mac = mac ∧ f.node = some a ∧
          f.path = k.path ∧ f.next = k.path.getD 0 a ∧
          OnlyRegs [R.RFM_JOINED, R.PLC_ROUTES] s t ∧ t.out = s.out := by
  rw [exec_e2eResend_due he hk hq hl hr hdue, if_neg (by omega), hv, if_neg (by decide)]
  generalize he' : ({ e with queue := { p with sends := p.sends + 1, sentAt := s.now } :: l } : JoinedEntry) = e'
  have hfirst := s.setJoined_onlyRegs a e'
  have hfind := s.setJoined_same a e'
  have hplc := s.setJoined_plc a e'
  have hout := s.setJoined_out a e'
  have hing := s.setJoined_ing a e'
  generalize s.setJoined a e' = v at hfirst hfind hplc hout hing
  have hk' : e'.plc = some k := by rw [← he', hk]
  have hmac : v.macTo e'.meter 1 (macHeader 0 false p.lsn e'.alsn a 0xFFFE (e'.txCtr + 1) ++ p.body.bytes 0) = some mac := by
    rw [State.macTo_congr hing (hfirst.fld (f := F.KEY_STAT.STATE) (by decide +kernel))
      (hfirst.fld (f := F.KEY_ENROL_CNT.COUNT) (by decide +kernel)), ← he']
    exact hm
  rw [State.downFrame_eq hfind hk' hmac]
  have hsame := v.setJoined_same a { e' with txCtr := e'.txCtr + 1 }
  have hregs := OnlyRegs.trans hfirst (v.setJoined_onlyRegs a { e' with txCtr := e'.txCtr + 1 })
  have hwplc := (v.setJoined_plc a { e' with txCtr := e'.txCtr + 1 }).trans hplc
  have hwout := (v.setJoined_out a { e' with txCtr := e'.txCtr + 1 }).trans hout
  generalize v.setJoined a { e' with txCtr := e'.txCtr + 1 } = w at hsame hregs hwplc hwout
  have hchan : w.chan k.chan = s.chan k.chan := congrArg (fun q : PlcState => Map.findD q.chans k.chan {}) hwplc
  refine ⟨_, ⟨1, k.path.getD 0 a, k.path, some a, mac, 0, w.fld F.PLC_CSMA.BE_MIN⟩, rfl, ?_, ?_, rfl, rfl, rfl, rfl, hregs, hwout⟩
  · rw [State.queueFrame_frame]
    rw [hsame, ← he']
  · rw [w.queueFrame_chan, hchan]

end

/-! ### Payloads without a route (R275) -/

theorem exec_routeWaitExpiry_eq : exec (.routeWaitExpiry a) s = .next (if k.valid = true then s else s.setJoined a { e with
    queue := e.queue.filter fun p => !p.overdue (3000 * s.fld F.PLC_ROUTE.KEEPALIVE_S) s.now }) := by
  show execRouteWaitExpiry a s = _
  unfold execRouteWaitExpiry
  rw [he]
  dsimp only
  rw [hk]
  rfl

theorem exec_routeWaitExpiry_expires (hv : k.valid = false) :
    ∃ t x, exec (.routeWaitExpiry a) s = .next t ∧ Map.find t.rad.joined a = some { e with queue := x } ∧
      (∀ p, p ∈ x ↔ p ∈ e.queue ∧ ∀ h, p.held = some h → s.now < h + 3000 * s.fld F.PLC_ROUTE.KEEPALIVE_S) ∧
      (∀ b, b ≠ a → Map.find t.rad.joined b = Map.find s.rad.joined b) ∧ OnlyRegs [R.RFM_JOINED, R.PLC_ROUTES] s t := by
  rw [exec_routeWaitExpiry_eq he hk, if_neg (by rw [hv]; decide)]
  refine ⟨_, _, rfl, s.setJoined_same a _, fun p => ?_, fun b hb => s.setJoined_other a _ hb, s.setJoined_onlyRegs a _⟩
  rw [List.mem_filter, DownPayload.overdue_eq_false]

end

/-- Settles O44: slots, joins, lost nodes and payloads without an acknowledgement or a route, each by the lemmas on its command. -/
theorem powerLineLinksAreJoinedKeptAndLost : Obligations.PowerLineLinksAreJoinedKeptAndLost := by
  unfold Obligations.PowerLineLinksAreJoinedKeptAndLost
  refine ⟨fun m x rest l s => exec_slotReq, fun x a len dir e k others s => State.grantSlot_spec, fun x c s hc =>
      ⟨fun p hp h => exec_routeAdv_waits hc ⟨p, hp, h⟩, exec_routeAdv_spec hc⟩,
    fun j l s u hs hj hu => ⟨fun k h => ?_, fun i st h => ?_, fun i a => exec_plcJoinReq_enters hs hj hu⟩,
    fun a e k s hs he hk => ⟨fun h => ?_, exec_plcLinkLost_due he hk hs, fun p l hq => ⟨exec_e2eResend_waits he hk hq,
      exec_e2eResend_fails he hk hq, fun mac hl hr hdue hsends hv hm => exec_e2eResend_sent he hk hq hl hr hdue hsends hv hm⟩,
      fun hv => ?_, exec_routeWaitExpiry_expires he hk⟩⟩
  · obtain ⟨hcnt, hregs, hframe⟩ := counted_bump (s := u) (by rw [Inv, hu]; exact hs) plcJoinRefs_ok.1
    subst hu
    exact ⟨_, _, exec_plcJoinReq_silent hj rfl h, hcnt, hregs, hframe, rfl⟩
  · obtain ⟨hcnt, hregs, hframe⟩ := counted_bump (s := u) (by rw [Inv, hu]; exact hs) plcJoinRefs_ok.1
    subst hu
    exact ⟨_, _, exec_plcJoinReq_refused hj rfl h, hcnt, hregs, hframe, rfl⟩
  · rw [exec_plcLinkLost_eq he hk, if_neg]
    rintro ⟨halive, hdue⟩
    rcases h with h | h
    · rw [h] at halive
      cases halive
    · omega
  · rw [exec_routeWaitExpiry_eq he hk, if_pos hv]

end Sys2Proof.Machine

/-! The wired ports as they take what arrives (R281 to R285, R292, R293, R421). -/

namespace Sys2Proof.Machine

set_option Elab.async false

/-! ### Fields set in order -/

/-- A state whose fields have been set in order. -/
def State.fieldsSet (s : State) (l : List (FieldRef × Nat)) : State := { s with regs := s.regs.setFields l }

section
variable (s : State) (l : List (FieldRef × Nat))

theorem State.fieldsSet_regs : (s.fieldsSet l).regs = s.regs.setFields l := rfl

theorem State.fieldsSet_frame : s.fieldsSet l = { s with regs := (s.fieldsSet l).regs } := rfl

theorem State.fieldsSet_onlyRegs {L : List Nat} (h : ∀ e ∈ l, e.1.addr ∈ L) : OnlyRegs L s (s.fieldsSet l) :=
  State.onlyRegs_of_setFields (s.fieldsSet_regs l) h

theorem State.fieldsSet_post (c : Nat) (p : Payload) :
    (s.fieldsSet l).post c p = { s.post c p with regs := ((s.fieldsSet l).post c p).regs } := rfl

theorem State.fieldsSet_two (f g : FieldRef) (v w : Nat) : (s.setF f v).setF g w = s.fieldsSet [(f, v), (g, w)] := rfl

theorem State.fieldsSet_flagged (f g : FieldRef) (w : Nat) : (s.flag f true).setF g w = s.fieldsSet [(f, 1), (g, w)] := rfl

variable {s l}

theorem State.fld_fieldsSet (hs : Inv s) {L : List FieldRef} (hL : fieldsApart L = true) (hl : l.map Prod.fst = L) {f : FieldRef}
    {v : Nat} (hf : (f, v) ∈ l) : (s.fieldsSet l).fld f = v % 2 ^ (f.hi - f.lo + 1) :=
  State.fld_of_setFields (s.fieldsSet_regs l) hs hL hl hf

end

/-! ### Links (R281) -/

section
variable {p v : Nat} {s : State}

theorem linkRefs_apart (h : p < 8) : fieldsApart [F.PRT_ROLE.UP p, F.PRT_ETH_STAT.SPEED p] = true ∧
    fieldsApart [F.PRT_ROLE.UP p, F.PRT_ETH_STAT.SPEED p, F.PRT_ETH_STAT.LINK_SEEN p] = true :=
  (by decide +kernel : ∀ p < 8, fieldsApart [F.PRT_ROLE.UP p, F.PRT_ETH_STAT.SPEED p] = true ∧
    fieldsApart [F.PRT_ROLE.UP p, F.PRT_ETH_STAT.SPEED p, F.PRT_ETH_STAT.LINK_SEEN p] = true) p h

theorem exec_portLink_same (hp : p < 8) (h : s.fld (F.PRT_ETH_STAT.SPEED p) = v) : exec (.portLink p v) s = .next s := by
  show execPortLink p v s = _
  unfold execPortLink
  rw [if_pos hp, if_pos h]

theorem exec_portLink_up (hp : p < 8) (h : s.fld (F.PRT_ETH_STAT.SPEED p) ≠ v) (hv : v ≠ 0) : exec (.portLink p v) s =
    .next ((s.fieldsSet [(F.PRT_ROLE.UP p, 1), (F.PRT_ETH_STAT.SPEED p, v)]).post Ev.PORT_LINK [b2 p]) := by
  show execPortLink p v s = _
  unfold execPortLink
  rw [if_pos hp, if_neg h, decide_eq_true hv]
  rfl

theorem exec_portLink_down (hp : p < 8) (h : s.fld (F.PRT_ETH_STAT.SPEED p) ≠ 0) : exec (.portLink p 0) s =
    .next ((s.fieldsSet [(F.PRT_ROLE.UP p, 0), (F.PRT_ETH_STAT.SPEED p, 0), (F.PRT_ETH_STAT.LINK_SEEN p, 1)]).post
      Ev.PORT_LINK [b2 p]) := by
  show execPortLink p 0 s = _
  unfold execPortLink
  rw [if_pos hp, if_neg h]
  rfl

/-- A link that comes up or goes down is shown and recorded. -/
theorem exec_portLink_changed (hs : Inv s) (hp : p < 8) (hv : v < 4) (h : s.fld (F.PRT_ETH_STAT.SPEED p) ≠ v) :
    ∃ t, exec (.portLink p v) s = .next t ∧
      t.fld (F.PRT_ETH_STAT.SPEED p) = v ∧ t.fld (F.PRT_ROLE.UP p) = (if v = 0 then 0 else 1) ∧
      (v = 0 → t.fld (F.PRT_ETH_STAT.LINK_SEEN p) = 1) ∧ OnlyRegs [R.PRT_ROLE p, R.PRT_ETH_STAT p] s t ∧
      t = { s.post Ev.PORT_LINK [b2 p] with regs := t.regs } := by
  obtain ⟨hup, hdown⟩ := linkRefs_apart hp
  rcases eq_or_ne v 0 with rfl | hv0
  · rw [exec_portLink_down hp h]
    refine ⟨_, rfl, State.fld_fieldsSet hs hdown rfl (.tail _ (.head _)), State.fld_fieldsSet hs hdown rfl (.head _),
      fun _ => State.fld_fieldsSet hs hdown rfl (.tail _ (.tail _ (.head _))), State.fieldsSet_onlyRegs s _ ?_, State.fieldsSet_post ..⟩
    simp [F.PRT_ROLE.UP, F.PRT_ETH_STAT.SPEED, F.PRT_ETH_STAT.LINK_SEEN]
  · rw [exec_portLink_up hp h hv0, if_neg hv0]
    refine ⟨_, rfl, (State.fld_fieldsSet hs hup rfl (.tail _ (.head _))).trans (Nat.mod_eq_of_lt hv),
      State.fld_fieldsSet hs hup rfl (.head _), fun h => absurd h hv0, State.fieldsSet_onlyRegs s _ ?_, State.fieldsSet_post ..⟩
    simp [F.PRT_ROLE.UP, F.PRT_ETH_STAT.SPEED]

end

section
variable {e v : Nat} {s : State}

theorem pcieLinkRefs_apart (h : e < 2) : fieldsApart [F.PRT_ROLE.UP (61 + e), F.PRT_PCIE_STAT.LINK e, F.PRT_PCIE_STAT.WIDTH e,
    F.PRT_PCIE_STAT.GEN e] = true :=
  (by decide +kernel : ∀ e < 2, fieldsApart [F.PRT_ROLE.UP (61 + e), F.PRT_PCIE_STAT.LINK e, F.PRT_PCIE_STAT.WIDTH e,
    F.PRT_PCIE_STAT.GEN e] = true) e h

theorem exec_portLink_pcie (he : e < 2) : exec (.portLink (61 + e) v) s =
    if (s.fld (F.PRT_PCIE_STAT.LINK e) == 1) = decide (v ≠ 0) then .next s
    else .next ((s.fieldsSet [(F.PRT_ROLE.UP (61 + e), if v = 0 then 0 else 1), (F.PRT_PCIE_STAT.LINK e, if v = 0 then 0 else 1),
      (F.PRT_PCIE_STAT.WIDTH e, v / 4), (F.PRT_PCIE_STAT.GEN e, v % 4)]).post Ev.PORT_LINK [b2 (61 + e)]) := by
  have hbit : (if v = 0 then 0 else 1) = if decide (v ≠ 0) = true then 1 else 0 := by
    by_cases h : v = 0
    · simp [h]
    · simp [h]
  rw [hbit]
  show execPortLink (61 + e) v s = _
  unfold execPortLink
  rw [if_neg (by omega), if_pos (by omega), show 61 + e - 61 = e by omega]
  rfl

theorem exec_portLink_pcie_same (he : e < 2) (h : s.fld (F.PRT_PCIE_STAT.LINK e) = 1 ↔ v ≠ 0) :
    exec (.portLink (61 + e) v) s = .next s := by
  rw [exec_portLink_pcie he, if_pos]
  rw [Bool.eq_iff_iff, beq_iff_eq, decide_eq_true_eq]
  exact h

theorem exec_portLink_pcie_changed (hs : Inv s) (he : e < 2) (hv : v < 12) (h : s.fld (F.PRT_PCIE_STAT.LINK e) = 1 ↔ v = 0) :
    ∃ t, exec (.portLink (61 + e) v) s = .next t ∧
      t.fld (F.PRT_PCIE_STAT.LINK e) = (if v = 0 then 0 else 1) ∧ t.fld (F.PRT_ROLE.UP (61 + e)) = (if v = 0 then 0 else 1) ∧
      t.fld (F.PRT_PCIE_STAT.WIDTH e) = v / 4 ∧ t.fld (F.PRT_PCIE_STAT.GEN e) = v % 4 ∧
      OnlyRegs [R.PRT_ROLE (61 + e), R.PRT_PCIE_STAT e] s t ∧
      t = { s.post Ev.PORT_LINK [b2 (61 + e)] with regs := t.regs } := by
  have hL := pcieLinkRefs_apart he
  have hbit : (if v = 0 then 0 else 1) % 2 = if v = 0 then 0 else 1 := by split <;> rfl
  rw [exec_portLink_pcie he, if_neg]
  · refine ⟨_, rfl, (State.fld_fieldsSet hs hL rfl (.tail _ (.head _))).trans hbit,
      (State.fld_fieldsSet hs hL rfl (.head _)).trans hbit,
      (State.fld_fieldsSet hs hL rfl (.tail _ (.tail _ (.head _)))).trans (Nat.mod_eq_of_lt ?_),
      (State.fld_fieldsSet hs hL rfl (.tail _ (.tail _ (.tail _ (.head _))))).trans (Nat.mod_eq_of_lt (Nat.mod_lt _ (by decide))),
      State.fieldsSet_onlyRegs s _ ?_, State.fieldsSet_post ..⟩
    · show v / 4 < 2 ^ 3
      omega
    · simp [F.PRT_ROLE.UP, F.PRT_PCIE_STAT.LINK, F.PRT_PCIE_STAT.WIDTH, F.PRT_PCIE_STAT.GEN]
  · rw [Bool.eq_iff_iff, beq_iff_eq, decide_eq_true_eq, h]
    tauto

end

/-! ### Ethernet (R281) -/

section
variable {p n : Nat} {c : EthContent} {s : State}

theorem exec_ethernetFrame_deaf (h : s.receives = false) : exec (.ethernetFrame p n c) s = .next s := by
  show execEthernetFrame p n c s = _
  unfold execEthernetFrame
  rw [if_pos (.inr (.inr (by rw [h]; rfl)))]

theorem State.ethDrop_spec (hs : Inv s) (hp : p < 8) : Counted (F.PRT_ETH_DROP_CNT.COUNT p) s (s.ethDrop p) :=
  counted_bump hs ((by decide +kernel : ∀ p < 8, (F.PRT_ETH_DROP_CNT.COUNT p).ok = true) p hp)

variable (hp : p < 8) (hrole : s.role p ≠ 0) (hr : s.receives = true)
include hp hrole hr

/-- A port that is on, with a member that receives, takes the frame. -/
theorem ethernetTaken : ¬ (s.role p = 0 ∨ 8 ≤ p ∨ (!s.receives) = true) := by
  rintro (h | h | h)
  · exact hrole h
  · omega
  · rw [hr] at h
    cases h

theorem exec_ethernetFrame_unusable (h : 1522 < n ∨ c = .unusable) : exec (.ethernetFrame p n c) s = .next (s.ethDrop p) := by
  show execEthernetFrame p n c s = _
  unfold execEthernetFrame
  rw [if_neg (ethernetTaken hp hrole hr)]
  by_cases hn : 1522 < n
  · rw [if_pos hn]
  · rw [if_neg hn, h.resolve_left hn]

variable (hn : n ≤ 1522)
include hn

theorem exec_ethernetFrame_request {v6 : Bool} (h : (c = .arp ∧ v6 = false) ∨ (c = .ndp ∧ v6 = true) ∨ c = .echo v6) :
    exec (.ethernetFrame p n c) s = .next (if s.ipOn p v6 then s.send (.ethReply p) else s.ethDrop p) := by
  show execEthernetFrame p n c s = _
  unfold execEthernetFrame
  rw [if_neg (ethernetTaken hp hrole hr), if_neg (by omega)]
  rcases h with ⟨rfl, rfl⟩ | ⟨rfl, rfl⟩ | rfl <;> rfl

theorem exec_ethernetFrame_waybill {w : Waybill} {a : Nat} {b : BitVec 128} {v6 k : Bool} (hw : w.link = .udp p a b v6 k) :
    exec (.ethernetFrame p n (.waybill w)) s =
      if (!s.ipOn p v6 || (v6 && decide (1452 < w.bytes.length))) = true then .next (s.ethDrop p) else .next (s.arrive w) := by
  show execEthernetFrame p n (.waybill w) s = _
  unfold execEthernetFrame
  rw [if_neg (ethernetTaken hp hrole hr), if_neg (by omega)]
  dsimp only
  rw [hw]
  simp only [beq_self_eq_true, Bool.not_true, Bool.false_or]

theorem exec_ethernetFrame_subcon {k : Nat} {f : IngestFrame} : exec (.ethernetFrame p n (.subcon k f)) s =
    if (s.subconOn p k && decide (2 ≤ s.role p)) = true then .next (s.handOwn { f with route := 8, rx := s.timeMs })
    else .next (s.ethDrop p) := by
  show execEthernetFrame p n (.subcon k f) s = _
  unfold execEthernetFrame
  rw [if_neg (ethernetTaken hp hrole hr), if_neg (by omega)]

end

/-! ### PTP (R282) -/

section
variable {d p : Nat} {a b : Int} {s : State}

theorem exec_ptpMessage_ignored {m : PtpMessage} (h : s.ptpPort = none ∨ s.fld F.PRT_PTP_CFG.DOMAIN ≠ d ∨ s.receives = false) :
    exec (.ptpMessage d m a b) s = .next s := by
  show execPtpMessage d m a b s = _
  unfold execPtpMessage
  cases hp : s.ptpPort with
  | none => rfl
  | some p =>
    dsimp only
    rw [if_pos]
    rcases h with h | h | h
    · rw [hp] at h
      cases h
    · exact .inl h
    · exact .inr (by rw [h]; rfl)

theorem State.timeInput_cases (u : State) (src : TimeSource) (θ : Int) :
    (u.forwards = false → u.sourceOn src = true → u.timeInput src θ = (u.record (.time src θ)).timeSample src θ) ∧
    (u.forwards = true → u.timeInput src θ = u.forward (.time src θ)) ∧
    (u.forwards = false → u.sourceOn src = false → u.timeInput src θ = u) := by
  refine ⟨fun h h' => ?_, fun h => ?_, fun h h' => ?_⟩ <;> rw [State.timeInput, h]
  · rw [h']
    rfl
  · rfl
  · rw [h']
    rfl

variable (hp : s.ptpPort = some p) (hd : s.fld F.PRT_PTP_CFG.DOMAIN = d) (hr : s.receives = true)
include hp hd hr

omit hp in
theorem ptpTaken : ¬ (s.fld F.PRT_PTP_CFG.DOMAIN ≠ d ∨ (!s.receives) = true) := by
  rintro (h | h)
  · exact h hd
  · rw [hr] at h
    cases h

theorem exec_ptpMessage_sync (n : Nat) (o c : Int) : exec (.ptpMessage d (.sync n true o c) a b) s =
    .next { s with prt := { s.prt with ptp := { s.prt.ptp with
      syncSeq := n, t1 := none, t2 := a - s.fld F.PRT_PTP_LAT.INGRESS_NS - c, t3 := none } } } := by
  show execPtpMessage d (.sync n true o c) a b s = _
  unfold execPtpMessage
  rw [hp]
  exact if_neg (ptpTaken hd hr)

theorem exec_ptpMessage_followUp {n : Nat} (o c : Int) (hn : s.prt.ptp.syncSeq = n) (h1 : s.prt.ptp.t1 = none) :
    exec (.ptpMessage d (.followUp n o c) a b) s = .next (s.delayReq p { s.prt.ptp with t1 := some (o + c) } b) := by
  show execPtpMessage d (.followUp n o c) a b s = _
  unfold execPtpMessage
  rw [hp]
  dsimp only
  rw [if_neg (ptpTaken hd hr), if_pos ⟨hn, h1⟩]

/-- A complete exchange gives its sample. -/
theorem exec_ptpMessage_delayResp {n : Nat} {t1 t3 : Int} (t4 c : Int) (h1 : s.prt.ptp.t1 = some t1) (h3 : s.prt.ptp.t3 = some t3)
    (hn : s.prt.ptp.reqSeq = n) : exec (.ptpMessage d (.delayResp n t4 c) a b) s =
      .next (({ s with prt := { s.prt with ptp := { s.prt.ptp with t1 := none, t3 := none } } } : State).timeInput .ptp
        (roundDiv ((t1 - s.prt.ptp.t2) + (t4 - c - t3)) 2)) := by
  show execPtpMessage d (.delayResp n t4 c) a b s = _
  unfold execPtpMessage
  rw [hp]
  dsimp only
  rw [if_neg (ptpTaken hd hr), h1, h3]
  exact if_pos hn

end

/-! ### PCIe rings (R283, R284) -/

/-- An entry written twice holds what was written last. -/
theorem Map.set_set {α : Type} (m : Map α) (k : Nat) (v w : α) : Map.set (Map.set m k v) k w = Map.set m k w := by
  induction m with
  | nil => simp [Map.set]
  | cons p m ih =>
    obtain ⟨i, u⟩ := p
    rcases Nat.lt_trichotomy k i with h | rfl | h
    · simp [Map.set, h]
    · simp [Map.set]
    · have h' : ¬ k < i := by omega
      have h'' : k ≠ i := by omega
      simp only [Map.set, if_neg h', if_neg h'', ih]

theorem Map.find_keep {α : Type} (p : Nat → Bool) (m : Map α) (k : Nat) :
    Map.find (Map.keep (fun i _ => p i) m) k = if p k then Map.find m k else none := by
  induction m with
  | nil => simp [Map.keep, Map.find]
  | cons e m ih =>
    obtain ⟨i, v⟩ := e
    rw [Map.keep, List.filter_cons]
    rw [Map.keep] at ih
    rcases eq_or_ne i k with rfl | hi
    · cases hp : p i
      · simp [ih, hp]
      · simp [Map.find]
    · split <;> simp [Map.find, hi, ih]

section
variable (s : State) (e k : Nat) (q r : PcieSlot)

theorem State.slotOf_setSlot : (s.setSlot e k q).slotOf e k = q := Map.findD_set_same ..

theorem State.setSlot_setSlot : (s.setSlot e k q).setSlot e k r = s.setSlot e k r := by
  rw [State.setSlot, State.setSlot, State.setSlot, Map.set_set]

end

section
variable {e k tail : Nat} {irq : Option (Nat × Nat)} {s : State} (hk : k < 4) (ht : tail < 256) (hrole : s.role (61 + e) = 1)
include hk ht hrole

theorem exec_txDoorbell_eq (hr : s.receives = true) (ring : List TxDescriptor) : exec (.txDoorbell e k tail irq ring) s =
    .next ((ring.take ((tail + 256 - (s.slotOf e k).txHead) % 256)).foldl (State.takeTx e k)
      (s.setSlot e k { s.slotOf e k with irq := irq })) :=
  congrArg Host.Outcome.next (if_pos ⟨hrole, hk, ht, hr⟩)

theorem exec_txDoorbell_none (h : tail = (s.slotOf e k).txHead) (hr : s.receives = true) (ring : List TxDescriptor) :
    exec (.txDoorbell e k tail irq ring) s = .next (s.setSlot e k { s.slotOf e k with irq := irq }) := by
  rw [exec_txDoorbell_eq hk ht hrole hr, ← h, show (tail + 256 - tail) % 256 = 0 by omega, List.take_zero, List.foldl_nil]

omit hk ht hrole in
/-- A descriptor in order, at the head of its ring. -/
theorem State.takeTx_ok {d : TxDescriptor} {q : PcieSlot} (ha : d.addr % 8 = 0) (h32 : 32 ≤ d.len) (hlen : d.len ≤ 65535) :
    (s.setSlot e k q).takeTx e k d = ((((s.setSlot e k { q with txHead := (q.txHead + 1) % 256 }).send
      (.txStatus e k q.txHead Cause.OK)).raiseVector (4 * e + k) q.irq).arrive { d.waybill with link := .pcie e }) := by
  rw [State.takeTx, State.slotOf_setSlot, State.setSlot_setSlot]
  simp only [ha, h32, hlen, decide_true, Bool.and_true, if_true]

theorem exec_txDoorbell_one {d : TxDescriptor} (ring : List TxDescriptor) (hr : s.receives = true)
    (hn : (tail + 256 - (s.slotOf e k).txHead) % 256 = 1) (ha : d.addr % 8 = 0) (h32 : 32 ≤ d.len) (hlen : d.len ≤ 65535) :
    ∃ u, u = (s.setSlot e k { s.slotOf e k with txHead := ((s.slotOf e k).txHead + 1) % 256, irq := irq }).send
          (.txStatus e k (s.slotOf e k).txHead Cause.OK) ∧
        exec (.txDoorbell e k tail irq (d :: ring)) s =
          .next ((u.raiseVector (4 * e + k) irq).arrive { d.waybill with link := .pcie e }) := by
  refine ⟨_, rfl, ?_⟩
  rw [exec_txDoorbell_eq hk ht hrole hr, hn, List.take_succ_cons, List.take_zero, List.foldl_cons, List.foldl_nil,
    State.takeTx_ok ha h32 hlen]

theorem exec_rxPost_empty (posted : List (Nat × Nat)) (h : s.slotContext e k = none) : exec (.rxPost e k tail irq posted) s =
    .next (s.setSlot e k { s.slotOf e k with
      rxTail := tail, irq := irq
      buffers := (s.slotOf e k).buffers ++ posted.take ((tail + 256 - (s.slotOf e k).rxTail) % 256) }) := by
  show execRxPost e k tail irq posted s = _
  unfold execRxPost
  dsimp only
  rw [if_pos ⟨hrole, hk, ht⟩, h]

end

/-- Whether a waybill goes to a host on an endpoint. -/
def State.onEndpoint (s : State) (e : Nat) (w : OutWaybill) : Bool :=
  match s.hostEntry w.seat with | some x => x.link == 2 + e | none => false

theorem State.onEndpoint_eq_false {s : State} {e : Nat} {w : OutWaybill} :
    (!s.onEndpoint e w) = true ↔ ∀ x, s.hostEntry w.seat = some x → x.link ≠ 2 + e := by
  unfold State.onEndpoint
  cases s.hostEntry w.seat with
  | none => simp
  | some x => simp

/-- The rings of an endpoint emptied, and its waybills discarded. -/
def State.ringsEmptied (s : State) (e : Nat) : State :=
  { s with prt := { s.prt with
    slots := Map.keep (fun i _ => decide (i / 4 ≠ e)) s.prt.slots
    pcieOut := s.prt.pcieOut.filter fun w => !s.onEndpoint e w } }

/-- A flag raised and an event recorded. -/
def State.noted (s : State) (f : FieldRef) (c : Nat) : State := (s.flag f true).post c []

section
variable (s : State) (f : FieldRef) (c : Nat)

theorem State.noted_regs : (s.noted f c).regs = (s.flag f true).regs := rfl

theorem State.noted_prt : (s.noted f c).prt = s.prt := rfl

theorem State.noted_host : (s.noted f c).host = s.host := rfl

theorem State.noted_out : (s.noted f c).out = s.out := rfl

theorem State.noted_queue : (s.noted f c).evt.queue = s.evt.queue ++ [mkPost s c []] := rfl

end

theorem exec_pcieReset_eq {e : Nat} {s : State} (he : e < 2) : exec (.pcieReset e) s =
    .next ((s.ringsEmptied e).noted (F.PRT_PCIE_STAT.RESET_SEEN e) Ev.PCIE_RESET) :=
  congrArg Host.Outcome.next (if_pos he)

theorem exec_pcieReset_spec {e : Nat} {s : State} (hs : Inv s) (he : e < 2) : ∃ t, exec (.pcieReset e) s = .next t ∧
    t.fld (F.PRT_PCIE_STAT.RESET_SEEN e) = 1 ∧ OnlyRegs [R.PRT_PCIE_STAT e] s t ∧
    (∀ k, k < 4 → t.slotOf e k = {}) ∧ (∀ f k, f ≠ e → k < 4 → t.slotOf f k = s.slotOf f k) ∧
    (∀ w, w ∈ t.prt.pcieOut ↔ w ∈ s.prt.pcieOut ∧ ∀ x, s.hostEntry w.seat = some x → x.link ≠ 2 + e) ∧
    t.evt.queue = s.evt.queue ++ [mkPost s Ev.PCIE_RESET []] ∧ t.host = s.host ∧ t.out = s.out := by
  have hok : (F.PRT_PCIE_STAT.RESET_SEEN e).ok = true :=
    (by decide +kernel : ∀ e < 2, (F.PRT_PCIE_STAT.RESET_SEEN e).ok = true) e he
  have hslot (f k : Nat) : ((s.ringsEmptied e).noted (F.PRT_PCIE_STAT.RESET_SEEN e) Ev.PCIE_RESET).slotOf f k =
      (if decide ((4 * f + k) / 4 ≠ e) then Map.find s.prt.slots (4 * f + k) else none).getD {} := by
    rw [State.slotOf, State.noted_prt, Map.findD]
    exact congrArg (fun o : Option PcieSlot => o.getD {}) (Map.find_keep (fun i => decide (i / 4 ≠ e)) _ _)
  refine ⟨_, exec_pcieReset_eq he, ?_, ((OnlyRegs.refl _ s).flag (f := F.PRT_PCIE_STAT.RESET_SEEN e) true (.head _)).of_regs rfl,
    fun k hk => ?_, fun f k hf hk => ?_, fun w => ?_, ?_, ?_, ?_⟩
  · rw [State.fld, State.noted_regs]
    exact State.fld_flag_same (s := s.ringsEmptied e) true hs hok
  · rw [hslot, show (4 * e + k) / 4 = e by omega]
    simp
  · rw [hslot, show (4 * f + k) / 4 = f by omega, decide_eq_true hf]
    rfl
  · rw [State.noted_prt]
    exact List.mem_filter.trans (and_congr_right fun _ => State.onEndpoint_eq_false)
  · exact State.noted_queue ..
  · exact State.noted_host ..
  · exact State.noted_out ..

end Sys2Proof.Machine

/-! The SPI host port, time input and tamper inputs (R285, R292, R293, R421), and the wired ports together. -/

namespace Sys2Proof.Machine

set_option Elab.async false

/-! ### Numbers in bytes (R4) -/

theorem foldl_beVal (l : List Byte) (a : Nat) : l.foldl (fun n b => n * 256 + b.toNat) a = a * 256 ^ l.length + beVal l := by
  induction l generalizing a with
  | nil => simp [beVal]
  | cons b l ih =>
    have hcons : beVal (b :: l) = b.toNat * 256 ^ l.length + beVal l := by
      show List.foldl (fun n b => n * 256 + b.toNat) (0 * 256 + b.toNat) l = _
      rw [Nat.zero_mul, Nat.zero_add, ih]
    rw [List.foldl_cons, ih, hcons, List.length_cons, Nat.pow_succ]
    ring

theorem beVal_cons (b : Byte) (l : List Byte) : beVal (b :: l) = b.toNat * 256 ^ l.length + beVal l := by
  rw [beVal, List.foldl_cons, foldl_beVal]
  simp

theorem length_beBytes (w v : Nat) : (beBytes w v).length = w := by
  induction w with
  | zero => rfl
  | succ w ih => rw [beBytes, List.length_cons, ih]

theorem beVal_beBytes (w v : Nat) : beVal (beBytes w v) = v % 256 ^ w := by
  induction w with
  | zero => rw [Nat.pow_zero, Nat.mod_one]; rfl
  | succ w ih =>
    rw [beBytes, beVal_cons, ih, length_beBytes, BitVec.toNat_ofNat, Nat.mod_pow_succ (b := 256), Nat.add_comm (v % _),
      Nat.mul_comm (256 ^ w)]

theorem beVal_beBytes_of_lt {w v : Nat} (h : v < 256 ^ w) : beVal (beBytes w v) = v := by
  rw [beVal_beBytes, Nat.mod_eq_of_lt h]

theorem fieldAt_head {l : List Byte} {n : Nat} (h : l.length = n) (r : List Byte) : fieldAt (l ++ r) 0 n = beVal l := by
  rw [fieldAt, List.drop_zero, List.take_left' h]

theorem fieldAt_tail {l : List Byte} {o n : Nat} (r : List Byte) (hl : l.length = o) (hr : r.length = n) :
    fieldAt (l ++ r) o n = beVal r := by
  rw [fieldAt, List.drop_left' hl, List.take_of_length_le (Nat.le_of_eq hr)]

theorem fieldAt_take {l : List Byte} {m n : Nat} (h : n ≤ m) : fieldAt (l.take m) 0 n = fieldAt l 0 n := by
  rw [fieldAt, fieldAt, List.drop_zero, List.drop_zero, List.take_take, Nat.min_eq_left h]

/-! ### Frames of the SPI port (R285) -/

theorem crc32c_lt (l : List Byte) : crc32c l < 256 ^ 4 := Nat.lt_of_lt_of_eq (BitVec.isLt _) (by decide)

/-- A frame closed by its own CRC. -/
theorem spiBody_append {n : Nat} {crc : List Byte → Nat} {l c : List Byte} (hc : c.length = n) (h : beVal c = crc l) :
    spiBody n crc (l ++ c) = some l := by
  have hlen : (l ++ c).length - n = l.length := by rw [List.length_append, hc]; omega
  rw [spiBody, hlen, List.take_left, List.drop_left]
  exact if_pos ⟨by rw [List.length_append, hc]; omega, h⟩

theorem spiBody_crc8 (l : List Byte) : spiBody 1 spiCrc8 (l ++ [crc8 l]) = some l :=
  spiBody_append List.length_singleton (by rw [beVal_cons]; simp [beVal, spiCrc8])

theorem spiBody_some {n : Nat} {crc : List Byte → Nat} {l b : List Byte} (h : spiBody n crc l = some b) :
    n ≤ l.length ∧ b = l.take (l.length - n) := by
  rw [spiBody] at h
  split at h
  · next hl => exact ⟨hl.1, (Option.some.inj h).symm⟩
  · cases h

theorem spiRefs_apart : fieldsApart [F.PRT_SPI_STAT.CRC_ERR_SEEN, F.PRT_SPI_STAT.CAUSE] = true ∧
    F.PRT_SPI_STAT.CAUSE.ok = true ∧ F.PRT_SPI_STAT.WB_READY.ok = true := by decide +kernel

theorem State.spiBad_eq (s : State) : s.spiBad =
    s.fieldsSet [(F.PRT_SPI_STAT.CRC_ERR_SEEN, 1), (F.PRT_SPI_STAT.CAUSE, Cause.BAD_FORMAT)] := State.fieldsSet_flagged ..

/-- A frame in error has no effect but its cause. -/
theorem State.spiBad_spec {s : State} (hs : Inv s) : ∃ t, s.spiBad = t ∧ t.fld F.PRT_SPI_STAT.CRC_ERR_SEEN = 1 ∧
    t.fld F.PRT_SPI_STAT.CAUSE = Cause.BAD_FORMAT ∧ OnlyRegs [R.PRT_SPI_STAT] s t ∧ t = { s with regs := t.regs } := by
  refine ⟨_, s.spiBad_eq, State.fld_fieldsSet hs spiRefs_apart.1 rfl (.head _),
    State.fld_fieldsSet hs spiRefs_apart.1 rfl (.tail _ (.head _)), State.fieldsSet_onlyRegs s _ ?_, State.fieldsSet_frame ..⟩
  simp [F.PRT_SPI_STAT.CRC_ERR_SEEN, F.PRT_SPI_STAT.CAUSE]

theorem State.arrive_regs (s : State) (w : Waybill) : (s.arrive w).regs = s.regs := rfl

theorem State.setF_arrive (s : State) (f : FieldRef) (v : Nat) (w : Waybill) : (s.setF f v).arrive w =
    { s with regs := ((s.setF f v).arrive w).regs, host := { s.host with arrived := s.host.arrived ++ [w] } } := rfl

section
variable {s : State} (hrole : s.role 63 = 1)
include hrole

theorem exec_spiRegWrite_bad {l : List Byte} (h : spiBody 1 spiCrc8 l = none ∨ l.length ≠ 9) :
    exec (.spiRegWrite l) s = .next s.spiBad := by
  show execSpiRegWrite l s = _
  unfold execSpiRegWrite
  rw [if_neg (not_not.mpr hrole)]
  cases hb : spiBody 1 spiCrc8 l with
  | none => rfl
  | some b =>
    obtain ⟨hlen, rfl⟩ := spiBody_some hb
    refine congrArg Host.Outcome.next (if_neg ?_)
    rw [hb] at h
    have := h.resolve_left (by simp)
    rw [List.length_take]
    omega

theorem exec_spiRegWrite_good {a : Nat} {v : Word} {l : List Byte} (ha : a < 2 ^ 32) (hl : l = beBytes 4 a ++ beBytes 4 v.toNat) :
    exec (.spiRegWrite (l ++ [crc8 l])) s = .next ((s.portWrite .spi a v 0xFFFFFFFF).1.setF F.PRT_SPI_STAT.CAUSE
        (s.portWrite .spi a v 0xFFFFFFFF).2) := by
  have haddr : fieldAt l 0 4 = a := by rw [hl, fieldAt_head (length_beBytes 4 a), beVal_beBytes_of_lt ha]
  have hval : BitVec.ofNat 32 (fieldAt l 4 4) = v := by
    rw [hl, fieldAt_tail _ (length_beBytes 4 a) (length_beBytes 4 _), beVal_beBytes_of_lt v.isLt, BitVec.ofNat_toNat,
      BitVec.setWidth_eq]
  have hlen : l.length = 8 := by rw [hl, List.length_append, length_beBytes, length_beBytes]
  rcases hput : s.portWrite .spi a v 0xFFFFFFFF with ⟨s1, c⟩
  show execSpiRegWrite (l ++ [crc8 l]) s = _
  unfold execSpiRegWrite
  rw [if_neg (not_not.mpr hrole), spiBody_crc8]
  dsimp only
  rw [if_pos hlen, haddr, hval, hput]

theorem exec_spiRegRead_good {a : Nat} {x : List Byte} (y : List Byte) (ha : a < 2 ^ 32)
    (hx : x = beBytes 4 (s.readReg .spi a).2.1.toNat) : exec (.spiRegRead (beBytes 4 a ++ [crc8 (beBytes 4 a)] ++ y)) s =
      .next (((s.readReg .spi a).1.send (.spi (x ++ [crc8 x]))).setF F.PRT_SPI_STAT.CAUSE (s.readReg .spi a).2.2) := by
  have haddr : fieldAt (beBytes 4 a) 0 4 = a := by
    have h := fieldAt_head (length_beBytes 4 a) []
    rw [List.append_nil] at h
    rw [h, beVal_beBytes_of_lt ha]
  have hfive : (beBytes 4 a ++ [crc8 (beBytes 4 a)]).length = 5 := by rw [List.length_append, length_beBytes]; rfl
  rcases hread : s.readReg .spi a with ⟨s1, w, c⟩
  rw [hread] at hx
  show execSpiRegRead (beBytes 4 a ++ [crc8 (beBytes 4 a)] ++ y) s = _
  unfold execSpiRegRead
  rw [if_neg (not_not.mpr hrole), List.take_left' hfive, spiBody_crc8]
  dsimp only
  rw [if_pos (length_beBytes 4 a), haddr, hread]
  dsimp only
  rw [spiValue, hx]

theorem exec_spiStatus_eq : exec .spiStatus s = .next (s.send (.spi (beBytes 4 (s.view R.PRT_SPI_STAT).toNat))) :=
  congrArg Host.Outcome.next (if_pos hrole)

theorem exec_wbWrite_bad (hr : s.receives = true) {l : List Byte} (h : spiBody 4 crc32c l = none ∨ l.length ≠ fieldAt l 0 2 + 6) :
    exec (.wbWrite l) s = .next s.spiBad := by
  show execWbWrite l s = _
  unfold execWbWrite
  rw [if_neg (by rw [hrole, hr]; decide)]
  cases hb : spiBody 4 crc32c l with
  | none => rfl
  | some b =>
    obtain ⟨hlen, rfl⟩ := spiBody_some hb
    refine congrArg Host.Outcome.next (if_neg fun hf => ?_)
    rw [hb] at h
    have hne := h.resolve_left (by simp)
    rw [List.length_take] at hf
    rw [fieldAt_take (by omega)] at hf
    omega

omit hrole in
theorem exec_wbWrite_deaf (hr : s.receives = false) (l : List Byte) : exec (.wbWrite l) s = .next s :=
  congrArg Host.Outcome.next (if_pos (.inr (by rw [hr]; rfl)))

theorem exec_wbWrite_good (hs : Inv s) (hr : s.receives = true) {w l : List Byte} (hw : w.length < 65536)
    (hl : l = beBytes 2 w.length ++ w) : ∃ t, exec (.wbWrite (l ++ beBytes 4 (crc32c l))) s = .next t ∧
      t.fld F.PRT_SPI_STAT.CAUSE = Cause.OK ∧ OnlyRegs [R.PRT_SPI_STAT] s t ∧
      t = { s with regs := t.regs, host := { s.host with arrived := s.host.arrived ++ [⟨.spi, w⟩] } } := by
  have hlen : l.length = fieldAt l 0 2 + 2 := by
    rw [hl, fieldAt_head (length_beBytes 2 _), beVal_beBytes_of_lt hw, List.length_append, length_beBytes]
    omega
  have hdrop : l.drop 2 = w := by rw [hl, List.drop_left' (length_beBytes 2 _)]
  have hexec : exec (.wbWrite (l ++ beBytes 4 (crc32c l))) s = .next ((s.setF F.PRT_SPI_STAT.CAUSE Cause.OK).arrive ⟨.spi, w⟩) := by
    show execWbWrite (l ++ beBytes 4 (crc32c l)) s = _
    unfold execWbWrite
    rw [if_neg (by rw [hrole, hr]; decide), spiBody_append (length_beBytes 4 _) (beVal_beBytes_of_lt (crc32c_lt l))]
    dsimp only
    rw [if_pos hlen, hdrop]
  refine ⟨_, hexec, ?_, ((OnlyRegs.refl _ s).setF (f := F.PRT_SPI_STAT.CAUSE) _ (.head _)).of_regs (State.arrive_regs ..),
    s.setF_arrive ..⟩
  rw [State.fld, State.arrive_regs]
  exact State.fld_setF_same _ hs spiRefs_apart.2.1

theorem exec_wbRead_empty (b : Bool) (h : s.prt.spiOut = []) : exec (.wbRead b) s = .next (s.send (.spi (wbReturn []))) := by
  show execWbRead b s = _
  unfold execWbRead
  rw [if_neg (not_not.mpr hrole), h]

theorem exec_wbRead_head {w : List Byte} {l : List (List Byte)} (h : s.prt.spiOut = w :: l) (b : Bool) : exec (.wbRead b) s =
    .next (if b then ({ s.send (.spi (wbReturn w)) with prt := { (s.send (.spi (wbReturn w))).prt with spiOut := l } } : State).flag
      F.PRT_SPI_STAT.WB_READY (!l.isEmpty) else s.send (.spi (wbReturn w))) := by
  show execWbRead b s = _
  unfold execWbRead
  rw [if_neg (not_not.mpr hrole), h]

/-- The waybill at the head leaves once it has been read whole. -/
theorem exec_wbRead_whole (hs : Inv s) {w : List Byte} {l : List (List Byte)} (h : s.prt.spiOut = w :: l) :
    ∃ t, exec (.wbRead true) s = .next t ∧ t.prt.spiOut = l ∧ t.out = (s.send (.spi (wbReturn w))).out ∧
        t.fld F.PRT_SPI_STAT.WB_READY = (if l = [] then 0 else 1) ∧ OnlyRegs [R.PRT_SPI_STAT] s t := by
  rw [exec_wbRead_head hrole h, if_pos rfl]
  have hregs := s.send_regs (.spi (wbReturn w))
  generalize s.send (.spi (wbReturn w)) = u at hregs
  have hu : Inv ({ u with prt := { u.prt with spiOut := l } } : State) := by
    show u.regs.wf = true
    rw [hregs]
    exact hs
  refine ⟨_, rfl, rfl, rfl, (State.fld_flag_same _ hu spiRefs_apart.2.2).trans ?_, fun a ha => ?_⟩
  · cases l <;> rfl
  · rw [← hregs]
    exact ((OnlyRegs.refl [R.PRT_SPI_STAT] u).flag (f := F.PRT_SPI_STAT.WB_READY) _ (.head _)) a ha

end

/-- A port that is not SPI takes no SPI frame. -/
theorem exec_spi_off {s : State} (hrole : s.role 63 ≠ 1) (b : Bool) (l : List Byte) : exec (.spiRegWrite l) s = .next s ∧
    exec (.spiRegRead l) s = .next s ∧ exec .spiStatus s = .next s ∧ exec (.wbWrite l) s = .next s ∧
    exec (.wbRead b) s = .next s :=
  ⟨congrArg Host.Outcome.next (if_pos hrole), congrArg Host.Outcome.next (if_pos hrole), congrArg Host.Outcome.next (if_neg hrole),
    congrArg Host.Outcome.next (if_pos (.inl hrole)), if_pos hrole⟩

/-! ### Time input (R292, R421) -/

/-- An edge taken, with the fields that stamp it. -/
def State.edgeTaken (s : State) (e : Nat × Int × Bool) (l : List (FieldRef × Nat)) : State :=
  { s with prt := { s.prt with edge := some e }, regs := s.regs.setFields l }

section
variable (s : State) (e : Nat × Int × Bool) (l : List (FieldRef × Nat))

theorem State.edgeTaken_regs : (s.edgeTaken e l).regs = s.regs.setFields l := rfl

theorem State.edgeTaken_edge : (s.edgeTaken e l).prt.edge = some e := rfl

theorem State.edgeTaken_clk : (s.edgeTaken e l).clk = s.clk := rfl

theorem State.edgeTaken_stamped (f g h : FieldRef) (v w : Nat) : s.edgeTaken e [(f, v), (g, w), (h, 0)] =
    { s with prt := { s.prt with edge := some e }, regs := ((s.regs.setF f v).setF g w).flag h false } := rfl

theorem State.edgeTaken_named (f : FieldRef) : s.edgeTaken e [(f, 1)] =
    ({ s with prt := { s.prt with edge := some e } } : State).flag f true := rfl

end

theorem ppsRefs_apart : F.PRT_PPS_STAT.REJECT.ok = true ∧
    fieldsApart [F.PRT_PPS_STAMP.PACE, F.PRT_PPS_STAMP.CYCLE, F.PRT_PPS_STAT.NMEA_VALID] = true ∧
    fieldsApart [F.PRT_PPS_STAT.NMEA_VALID] = true := by decide +kernel

section
variable {c p : Nat} {t0 : Int} {named : Bool} {s : State}

theorem exec_ppsEdge_early (hrole : s.role 60 ≠ 0) (he : s.prt.edge = some (p, t0, named)) (h : s.now < p + 900) :
    exec (.ppsEdge c) s = .next (s.bump F.PRT_PPS_STAT.REJECT) := by
  show execPpsEdge c s = _
  unfold execPpsEdge
  rw [if_neg hrole, he]
  exact if_pos (decide_eq_true h)

theorem exec_ppsEdge_stamped (hrole : s.role 60 ≠ 0) (he : s.prt.edge = none ∨ (s.prt.edge = some (p, t0, named) ∧ p + 900 ≤ s.now))
    (hq : 1 < s.fld F.CLK_QUAL.QUALITY) : exec (.ppsEdge c) s = .next (s.edgeTaken (s.now, (s.clk.ns : Int) + 25 * c, false)
      [(F.PRT_PPS_STAMP.PACE, s.now), (F.PRT_PPS_STAMP.CYCLE, c), (F.PRT_PPS_STAT.NMEA_VALID, 0)]) := by
  have hq' : ∀ x : Prop, ¬ (s.fld F.CLK_QUAL.QUALITY ≤ 1 ∧ x) := fun x h => by omega
  show execPpsEdge c s = _
  unfold execPpsEdge
  rw [if_neg hrole, State.edgeTaken_stamped]
  rcases he with he | ⟨he, h⟩
  · rw [he]
    exact (if_neg Bool.false_ne_true).trans (if_neg (hq' _))
  · rw [he]
    exact (if_neg (by rw [decide_eq_true_eq]; omega)).trans (if_neg (hq' _))

theorem exec_timeRxSentence_names {utc : Nat} (he : s.prt.edge = some (p, t0, false)) (hrole : s.role 60 = 2) (h : s.now ≤ p + 950) :
    exec (.timeRxSentence utc true) s =
      .next ((s.edgeTaken (p, t0, true) [(F.PRT_PPS_STAT.NMEA_VALID, 1)]).timeInput .pps ((utc : Int) * 1000000000 - t0)) := by
  show execTimeRxSentence utc true s = _
  unfold execTimeRxSentence
  rw [he, State.edgeTaken_named]
  exact if_pos ⟨hrole, rfl, h⟩

theorem exec_timeRxSentence_bad (utc : Nat) : exec (.timeRxSentence utc false) s = .next s := by
  show execTimeRxSentence utc false s = _
  unfold execTimeRxSentence
  split
  · exact if_neg fun h => absurd h.2.1 (by decide)
  · rfl

end

/-! ### Tamper inputs (R293) -/

theorem tamperRefs_apart : fieldsApart [F.PRT_TAMP_STAT.LEVEL, F.PRT_TAMP_STAT.TRIGGERED] = true := by decide +kernel

/-- The level of a tamper input with one bit driven. -/
def levelWith (lv bit : BitVec 8) (high : Bool) : BitVec 8 := if high then lv ||| bit else lv &&& ~~~ bit

theorem testBit_levelWith (lv : BitVec 8) {n : Nat} (hn : n < 8) (high : Bool) :
    (levelWith lv (BitVec.ofNat 8 (2 ^ n)) high).toNat.testBit n = high := by
  have hbit : (BitVec.ofNat 8 (2 ^ n)).getLsbD n = true := by
    rw [BitVec.getLsbD_ofNat, Nat.testBit_two_pow_self, Bool.and_true]
    exact decide_eq_true hn
  rw [BitVec.testBit_toNat, levelWith]
  cases high with
  | true => rw [if_pos rfl, BitVec.getLsbD_or, hbit, Bool.or_true]
  | false => rw [if_neg (by decide), BitVec.getLsbD_and, BitVec.getLsbD_not, hbit, Bool.not_true, Bool.and_false, Bool.and_false]

section
variable {n : Nat} {e : TamperEntry} {s : State} (he : s.prt.tampers[n]? = some e)
include he

theorem exec_tamperTrigger_off (h : e.mode = 0) : exec (.tamperTrigger n) s = .next s := by
  show execTamperTrigger n s = _
  unfold execTamperTrigger
  rw [he]
  exact if_pos (.inl h)

variable (hn : n < 8)
include hn

theorem exec_tamperTrigger_eq (h : e.mode ≠ 0) : exec (.tamperTrigger n) s = .next ((s.fieldsSet
    [(F.PRT_TAMP_STAT.LEVEL, (levelWith (BitVec.ofNat 8 (s.fld F.PRT_TAMP_STAT.LEVEL)) (BitVec.ofNat 8 (2 ^ n))
        (e.mode == 1 || e.mode == 3)).toNat),
      (F.PRT_TAMP_STAT.TRIGGERED, (levelWith (BitVec.ofNat 8 (s.fld F.PRT_TAMP_STAT.TRIGGERED)) (BitVec.ofNat 8 (2 ^ n)) true).toNat)]
    ).zeroiseLine (BitVec.ofNat 13 (2 ^ n))) := by
  show execTamperTrigger n s = _
  unfold execTamperTrigger
  rw [he]
  dsimp only
  rw [if_neg (by omega), ← State.fieldsSet_two, levelWith, levelWith, if_pos rfl]

theorem exec_tamperTrigger_spec (hs : Inv s) (h : e.mode ≠ 0) :
    ∃ u, exec (.tamperTrigger n) s = .next (u.zeroiseLine (BitVec.ofNat 13 (2 ^ n))) ∧
      (u.fld F.PRT_TAMP_STAT.TRIGGERED).testBit n = true ∧
      (u.fld F.PRT_TAMP_STAT.LEVEL).testBit n = (e.mode == 1 || e.mode == 3) ∧ OnlyRegs [R.PRT_TAMP_STAT] s u ∧
      u = { s with regs := u.regs } := by
  have hfit (x : BitVec 8) : x.toNat % 2 ^ 8 = x.toNat := Nat.mod_eq_of_lt x.isLt
  refine ⟨_, exec_tamperTrigger_eq he hn h, ?_, ?_, State.fieldsSet_onlyRegs s _ ?_, State.fieldsSet_frame ..⟩
  · rw [(State.fld_fieldsSet hs tamperRefs_apart rfl (.tail _ (.head _))).trans (hfit _)]
    exact testBit_levelWith _ hn true
  · rw [(State.fld_fieldsSet hs tamperRefs_apart rfl (.head _)).trans (hfit _)]
    exact testBit_levelWith _ hn _
  · simp [F.PRT_TAMP_STAT.LEVEL, F.PRT_TAMP_STAT.TRIGGERED]

end

/-- An edge accepted is stamped. -/
theorem exec_ppsEdge_spec {c p : Nat} {t0 : Int} {named : Bool} {s : State} (hs : Inv s) (hrole : s.role 60 ≠ 0) (hc : c < 40000)
    (he : s.prt.edge = none ∨ (s.prt.edge = some (p, t0, named) ∧ p + 900 ≤ s.now)) (hq : 1 < s.fld F.CLK_QUAL.QUALITY) :
    ∃ t, exec (.ppsEdge c) s = .next t ∧ t.prt.edge = some (s.now, (s.clk.ns : Int) + 25 * c, false) ∧
        t.fld F.PRT_PPS_STAMP.PACE = s.now % 65536 ∧ t.fld F.PRT_PPS_STAMP.CYCLE = c ∧
        t.fld F.PRT_PPS_STAT.NMEA_VALID = 0 ∧ OnlyRegs [R.PRT_PPS_STAMP, R.PRT_PPS_STAT] s t ∧ t.clk = s.clk := by
  have hregs := s.edgeTaken_regs (s.now, (s.clk.ns : Int) + 25 * c, false)
    [(F.PRT_PPS_STAMP.PACE, s.now), (F.PRT_PPS_STAMP.CYCLE, c), (F.PRT_PPS_STAT.NMEA_VALID, 0)]
  have hL := ppsRefs_apart.2.1
  refine ⟨_, exec_ppsEdge_stamped hrole he hq, State.edgeTaken_edge .., State.fld_of_setFields hregs hs hL rfl (.head _),
    (State.fld_of_setFields hregs hs hL rfl (.tail _ (.head _))).trans (Nat.mod_eq_of_lt (show c < 65536 by omega)),
    State.fld_of_setFields hregs hs hL rfl (.tail _ (.tail _ (.head _))), State.onlyRegs_of_setFields hregs ?_,
    State.edgeTaken_clk ..⟩
  simp [F.PRT_PPS_STAMP.PACE, F.PRT_PPS_STAMP.CYCLE, F.PRT_PPS_STAT.NMEA_VALID]

/-- The edge named by its sentence. -/
theorem exec_timeRxSentence_spec {utc p : Nat} {t0 : Int} {s : State} (hs : Inv s) (he : s.prt.edge = some (p, t0, false))
    (hrole : s.role 60 = 2) (h : s.now ≤ p + 950) :
    ∃ u, exec (.timeRxSentence utc true) s = .next (u.timeInput .pps ((utc : Int) * 1000000000 - t0)) ∧
        u.prt.edge = some (p, t0, true) ∧ u.fld F.PRT_PPS_STAT.NMEA_VALID = 1 ∧ OnlyRegs [R.PRT_PPS_STAT] s u ∧ u.clk = s.clk := by
  have hregs := s.edgeTaken_regs (p, t0, true) [(F.PRT_PPS_STAT.NMEA_VALID, 1)]
  refine ⟨_, exec_timeRxSentence_names he hrole h, State.edgeTaken_edge ..,
    State.fld_of_setFields hregs hs ppsRefs_apart.2.2 rfl (.head _), State.onlyRegs_of_setFields hregs ?_, State.edgeTaken_clk ..⟩
  simp [F.PRT_PPS_STAT.NMEA_VALID]

/-! ### The wired ports -/

/-- What a port that receives does with each kind of frame. -/
theorem exec_ethernetFrame_spec (p n : Nat) (c : EthContent) (s : State) (hs : Inv s) (hp : p < 8) (hrole : s.role p ≠ 0)
    (hr : s.receives = true) :
    ((1522 < n ∨ c = .unusable) → ∃ t, exec (.ethernetFrame p n c) s = .next t ∧ Counted (F.PRT_ETH_DROP_CNT.COUNT p) s t) ∧
    (∀ v6, n ≤ 1522 → ((c = .arp ∧ v6 = false) ∨ (c = .ndp ∧ v6 = true) ∨ c = .echo v6) →
      (s.ipOn p v6 = true → exec (.ethernetFrame p n c) s = .next (s.send (.ethReply p))) ∧
      (s.ipOn p v6 = false → ∃ t, exec (.ethernetFrame p n c) s = .next t ∧ Counted (F.PRT_ETH_DROP_CNT.COUNT p) s t)) ∧
    (∀ w a b v6 k, n ≤ 1522 → c = .waybill w → w.link = .udp p a b v6 k →
      (s.ipOn p v6 = true → (v6 = true → w.bytes.length ≤ 1452) → exec (.ethernetFrame p n c) s =
        .next { s with host := { s.host with arrived := s.host.arrived ++ [w] } }) ∧
      ((s.ipOn p v6 = false ∨ (v6 = true ∧ 1452 < w.bytes.length)) →
        ∃ t, exec (.ethernetFrame p n c) s = .next t ∧ Counted (F.PRT_ETH_DROP_CNT.COUNT p) s t)) ∧
    (∀ k f, n ≤ 1522 → c = .subcon k f → s.subconOn p k = true → 2 ≤ s.role p → exec (.ethernetFrame p n c) s =
      .next (s.handOwn { f with route := 8, rx := s.timeMs })) ∧
    (∀ k f, n ≤ 1522 → c = .subcon k f → (s.subconOn p k = false ∨ s.role p < 2) →
      ∃ t, exec (.ethernetFrame p n c) s = .next t ∧ Counted (F.PRT_ETH_DROP_CNT.COUNT p) s t) := by
  have hdrop := State.ethDrop_spec hs hp
  refine ⟨fun h => ⟨_, exec_ethernetFrame_unusable hp hrole hr h, hdrop⟩, fun v6 hn h => ?_, fun w a b v6 k hn hc hw => ?_,
    fun k f hn hc hon h2 => ?_, fun k f hn hc h => ?_⟩
  · have hreq := exec_ethernetFrame_request hp hrole hr hn h
    exact ⟨fun hip => by rw [hreq, hip]; rfl, fun hip => ⟨_, by rw [hreq, hip]; rfl, hdrop⟩⟩
  · rw [hc, exec_ethernetFrame_waybill hp hrole hr hn hw]
    refine ⟨fun hip hlen => ?_, fun h => ⟨_, if_pos ?_, hdrop⟩⟩
    · refine if_neg ?_
      rw [hip, Bool.not_true, Bool.false_or, Bool.and_eq_true, decide_eq_true_eq]
      exact fun h => absurd (hlen h.1) (by omega)
    · rcases h with h | ⟨h6, h⟩
      · rw [h]
        rfl
      · rw [h6, decide_eq_true h, Bool.and_self, Bool.or_true]
  · rw [hc, exec_ethernetFrame_subcon hp hrole hr hn, hon, decide_eq_true h2]
    rfl
  · refine ⟨_, ?_, hdrop⟩
    rw [hc, exec_ethernetFrame_subcon hp hrole hr hn, if_neg]
    rw [Bool.and_eq_true, decide_eq_true_eq]
    rintro ⟨hon, h2⟩
    rcases h with h | h
    · rw [h] at hon
      cases hon
    · omega

/-- The SPI port, one clause a command. -/
theorem exec_spi_spec (s : State) (hs : Inv s) (hrole : s.role 63 = 1) :
    (∀ l : List Byte, (spiBody 1 spiCrc8 l = none ∨ l.length ≠ 9) → ∃ t, exec (.spiRegWrite l) s = .next t ∧
      t.fld F.PRT_SPI_STAT.CRC_ERR_SEEN = 1 ∧ t.fld F.PRT_SPI_STAT.CAUSE = Cause.BAD_FORMAT ∧
      OnlyRegs [R.PRT_SPI_STAT] s t ∧ t = { s with regs := t.regs }) ∧
    (∀ l : List Byte, s.receives = true → (spiBody 4 crc32c l = none ∨ l.length ≠ fieldAt l 0 2 + 6) →
      ∃ t, exec (.wbWrite l) s = .next t ∧
        t.fld F.PRT_SPI_STAT.CRC_ERR_SEEN = 1 ∧ t.fld F.PRT_SPI_STAT.CAUSE = Cause.BAD_FORMAT ∧
        OnlyRegs [R.PRT_SPI_STAT] s t ∧ t = { s with regs := t.regs }) := by
  obtain ⟨t, ht, hspec⟩ := State.spiBad_spec hs
  exact ⟨fun l h => ⟨t, (exec_spiRegWrite_bad hrole h).trans (congrArg _ ht), hspec⟩,
    fun l hr h => ⟨t, (exec_wbWrite_bad hrole hr h).trans (congrArg _ ht), hspec⟩⟩

/-- A complete exchange gives a sample that is forwarded, carried or left. -/
theorem exec_ptpMessage_delayResp_spec {d p : Nat} {a b : Int} {s : State} (hp : s.ptpPort = some p)
    (hd : s.fld F.PRT_PTP_CFG.DOMAIN = d) (hr : s.receives = true) (n : Nat) (t1 t3 t4 c : Int) (h1 : s.prt.ptp.t1 = some t1)
    (h3 : s.prt.ptp.t3 = some t3) (hn : s.prt.ptp.reqSeq = n) :
    ∃ u θ, u = { s with prt := { s.prt with ptp := { s.prt.ptp with t1 := none, t3 := none } } } ∧
        θ = roundDiv ((t1 - s.prt.ptp.t2) + (t4 - c - t3)) 2 ∧
        (s.forwards = false → s.sourceOn .ptp = true → exec (.ptpMessage d (.delayResp n t4 c) a b) s =
          .next ((u.record (.time .ptp θ)).timeSample .ptp θ)) ∧
        (s.forwards = true → exec (.ptpMessage d (.delayResp n t4 c) a b) s = .next (u.forward (.time .ptp θ))) ∧
        (s.forwards = false → s.sourceOn .ptp = false →
          exec (.ptpMessage d (.delayResp n t4 c) a b) s = .next u) := by
  have hexec := exec_ptpMessage_delayResp (a := a) (b := b) hp hd hr t4 c h1 h3 hn
  refine ⟨_, _, rfl, rfl, ?_⟩
  obtain ⟨hsample, hforward, hnone⟩ := State.timeInput_cases
    { s with prt := { s.prt with ptp := { s.prt.ptp with t1 := none, t3 := none } } } .ptp
    (roundDiv ((t1 - s.prt.ptp.t2) + (t4 - c - t3)) 2)
  exact ⟨fun hf hon => hexec.trans (congrArg _ (hsample hf hon)), fun hf => hexec.trans (congrArg _ (hforward hf)),
    fun hf hoff => hexec.trans (congrArg _ (hnone hf hoff))⟩

/-- Settles O45: links, frames, rings, the SPI port, time input and tamper inputs, each by the lemmas on its command. -/
theorem wiredPortsTakeWhatArrives : Obligations.WiredPortsTakeWhatArrives := by
  unfold Obligations.WiredPortsTakeWhatArrives
  refine ⟨fun p v s hs hp hv => ⟨exec_portLink_same hp, exec_portLink_changed hs hp hv⟩,
    fun e v s hs he hv => ⟨exec_portLink_pcie_same he, exec_portLink_pcie_changed hs he hv⟩,
    fun p n c s => exec_ethernetFrame_deaf, exec_ethernetFrame_spec,
    fun d p a b s hp hd hr => ⟨exec_ptpMessage_sync hp hd hr,
      fun n o c hn h1 => ⟨_, rfl, exec_ptpMessage_followUp hp hd hr o c hn h1⟩, exec_ptpMessage_delayResp_spec hp hd hr⟩,
    fun d m a b s => exec_ptpMessage_ignored,
    fun e k tail irq s he hk ht hrole => ⟨fun h hr ring => exec_txDoorbell_none hk ht hrole h hr ring,
      fun d ring hr hn ha h32 hlen => exec_txDoorbell_one hk ht hrole ring hr hn ha h32 hlen,
      fun posted h => exec_rxPost_empty hk ht hrole posted h⟩,
    fun e s hs he => exec_pcieReset_spec hs he, fun s hs hrole => ?_, fun s hrole b l => exec_spi_off hrole b l,
    fun c p t0 named s hs hrole hc => ⟨fun he h => ⟨_, exec_ppsEdge_early hrole he h, counted_bump hs ppsRefs_apart.1⟩,
      exec_ppsEdge_spec hs hrole hc, fun utc he hrole h => exec_timeRxSentence_spec hs he hrole h, exec_timeRxSentence_bad⟩,
    fun n e s hs hn he => ⟨exec_tamperTrigger_off he, exec_tamperTrigger_spec he hn hs⟩⟩
  obtain ⟨hbad, hbadWaybill⟩ := exec_spi_spec s hs hrole
  refine ⟨hbad, hbadWaybill, fun a v l => exec_spiRegWrite_good hrole, fun a x y ha hx => exec_spiRegRead_good hrole y ha hx,
    exec_spiStatus_eq hrole, fun w l hr hw hl => exec_wbWrite_good hrole hs hr hw hl,
    fun l hr => exec_wbWrite_deaf hr l, exec_wbRead_empty hrole, fun w l h => ⟨?_, exec_wbRead_whole hrole hs h⟩⟩
  rw [exec_wbRead_head hrole h]
  rfl

end Sys2Proof.Machine

/-! NAND storage: its map, its journal and its media (R304 to R316). -/

namespace Sys2Proof.Machine

set_option Elab.async false

/-! ### STO_DIE_CTL (R305) -/

/-- The field DIE of STO_DIE_CTL. -/
def dieField : FieldSpec := ⟨5, 0, .RW, 0, .all⟩

/-- STO_DIE_CTL: the trigger FAIL, and DIE. -/
def dieCtlReg : RegSpec := ⟨R.STO_DIE_CTL, [], false, [triggerField 31, dieField]⟩

theorem findReg_dieCtl : findReg R.STO_DIE_CTL = some dieCtlReg := by decide +kernel

/-- The bits of FAIL and DIE. -/
def dieCtlMask : Word := 0x8000003F

/-- The word that fails a die. -/
def dieCtlWord (d : Nat) : Word := BitVec.ofNat 32 (0x80000000 + d)

section
variable {d : Nat} (hd : d < 64)
include hd

theorem fieldOf_dieCtlWord_fail : fieldOf (dieCtlWord d &&& dieCtlMask) 31 31 = 1 := by
  rw [fieldOf_and_mask (by decide) (by decide)]
  simp only [fieldOf, dieCtlWord, BitVec.toNat_ofNat]
  omega

theorem fieldOf_dieCtlWord_die : fieldOf (dieCtlWord d) 5 0 = d := by
  simp only [fieldOf, dieCtlWord, BitVec.toNat_ofNat]
  omega

/-- Both fields are taken where no rule locks the register and the die is fitted. -/
theorem State.judged_dieCtl {s : State} (hl : s.lockMask R.STO_DIE_CTL = 0) (who : Requester) (hdie : d < s.power.dies.length) :
    s.judged who R.STO_DIE_CTL (dieCtlWord d) dieCtlMask dieCtlReg = [(triggerField 31, Cause.OK), (dieField, Cause.OK)] := by
  have hsel : (dieCtlReg.fields.filter fun f =>
      (dieCtlMask &&& f.mask) != 0 && f.acc != .RO && f.acc != .ROS && f.acc != .RC) = [triggerField 31, dieField] := rfl
  have hown : ∀ lo w, s.ownCause R.STO_DIE_CTL lo w =
      if decide (s.power.dies.length ≤ fieldOf w 5 0) then Cause.REG_RANGE else Cause.OK := fun _ _ => rfl
  have hstorable : dieCtlMask &&& dieCtlReg.storable = 0x3F := by decide
  have hne : R.STO_DIE_CTL ≠ R.MET_REF_CTL := by decide
  have hfield (w : Word) : fieldOf (mergeWord w (dieCtlWord d) 63#32) 5 0 = d :=
    (fieldOf_mergeWord (by decide) (by decide) w _).trans (fieldOf_dieCtlWord_die hd)
  have hfit : ¬ s.power.dies.length ≤ d := by omega
  rw [State.judged, hsel, List.map_cons, List.map_singleton, State.fieldCause_of_trigger hl rfl hne]
  simp [State.fieldCause, hl, hown, dieField, Range.holds, hstorable, hfield, hfit]

end

theorem State.afterWrite_dieCtl (s : State) (old : Word) : s.afterWrite R.STO_DIE_CTL old = s := by
  have hnotice : arrayIndex (R.HOST_NOTICE_WIN 0) 4 8 R.STO_DIE_CTL = none := rfl
  have hlow : arrayIndex (R.PPY_LOW 0) 4 2 R.STO_DIE_CTL = none := rfl
  have hne : R.STO_DIE_CTL ≠ R.ING_KEYCACHE ∧ R.STO_DIE_CTL ≠ R.ARB_SEED ∧ R.STO_DIE_CTL ≠ R.ARB_CTL ∧
      R.STO_DIE_CTL ≠ R.RFM_FLOOD ∧ R.STO_DIE_CTL ≠ R.RFM_LPL ∧ R.STO_DIE_CTL ≠ R.PPY_KEYPAD := by decide
  simp [State.afterWrite, hnotice, hlow, hne]

theorem State.trigger_dieCtl (s : State) (who : Requester) :
    s.trigger who R.STO_DIE_CTL 31 1 = (s.dieFails (s.fld F.STO_DIE_CTL.DIE), Cause.OK) := rfl

/-- The state that fails a die: DIE is stored, after the write has entered the ledger. -/
def State.dieEntered (s : State) (who : Requester) (d : Nat) : State :=
  (entered s who R.STO_DIE_CTL (dieCtlWord d) dieCtlMask).storeBits R.STO_DIE_CTL (dieCtlWord d) 0x3F

theorem State.dieEntered_eq (s : State) (who : Requester) (d : Nat) :
    s.dieEntered who d = { entered s who R.STO_DIE_CTL (dieCtlWord d) dieCtlMask with regs := (s.dieEntered who d).regs } := by
  rw [State.dieEntered, State.storeBits]

section
variable {s : State} {who : Requester} {d : Nat}

theorem State.onlyRegs_dieEntered : OnlyRegs [R.STO_DIE_CTL] s (s.dieEntered who d) := fun a ha =>
  (State.onlyRegs_storeBits _ _ _ _ a ha).trans (by rw [State.regs_entered])

theorem State.fld_dieEntered (hs : Inv s) (hd : d < 64) : (s.dieEntered who d).fld F.STO_DIE_CTL.DIE = d := by
  have hwf : (entered s who R.STO_DIE_CTL (dieCtlWord d) dieCtlMask).regs.wf = true := by
    rw [State.regs_entered]
    exact hs
  have hfield : dieField ∈ dieCtlReg.fields := by decide
  calc (s.dieEntered who d).fld F.STO_DIE_CTL.DIE
    _ = fieldOf ((s.dieEntered who d).regs.get R.STO_DIE_CTL) 5 0 := rfl
    _ = fieldOf (mergeWord _ (dieCtlWord d) 0x3F) 5 0 := by
      rw [State.dieEntered, State.storeBits, RegFile.get_put_same _ hwf findReg_dieCtl]
      exact fieldOf_cut hfield _ le_rfl
    _ = fieldOf (dieCtlWord d) 5 0 := fieldOf_mergeWord (by decide) (by decide) _ _
    _ = d := fieldOf_dieCtlWord_die hd

/-- A permitted write of FAIL fails the die that DIE names. -/
theorem exec_stoDieCtlFail (hs : Inv s) (hm : MayWrite s who R.STO_DIE_CTL) (hd : d < 64) (hdie : d < s.power.dies.length) :
    exec (.stoDieCtlFail who d) s =
      .next (((s.dieEntered who d).dieFails d).send (.regCause who R.STO_DIE_CTL Cause.OK)) := by
  obtain ⟨p, hp⟩ := entered_eq s who R.STO_DIE_CTL (dieCtlWord d) dieCtlMask
  have hl : (entered s who R.STO_DIE_CTL (dieCtlWord d) dieCtlMask).lockMask R.STO_DIE_CTL = 0 := by
    rw [hp]
    exact hm.2.1
  have hfit : d < (entered s who R.STO_DIE_CTL (dieCtlWord d) dieCtlMask).power.dies.length := by
    rw [hp]
    exact hdie
  have hbits : dieField.mask &&& dieCtlMask = 0x3F := by decide
  have horder : triggerOrder R.STO_DIE_CTL [triggerField 31] = [triggerField 31] := rfl
  have hcause : firstCause dieCtlReg.fields [((triggerField 31).lo, Cause.OK), (dieField.lo, Cause.OK)] = Cause.OK := rfl
  have htrigger : (s.dieEntered who d).trigger who R.STO_DIE_CTL (triggerField 31).lo
      (fieldOf (dieCtlWord d &&& dieCtlMask) (triggerField 31).hi (triggerField 31).lo) =
        ((s.dieEntered who d).dieFails d, Cause.OK) := by
    rw [show fieldOf (dieCtlWord d &&& dieCtlMask) (triggerField 31).hi (triggerField 31).lo = 1 from fieldOf_dieCtlWord_fail hd]
    exact (State.trigger_dieCtl ..).trans (by rw [State.fld_dieEntered hs hd])
  have hw := State.writeFields_of_trigger_rw (State.judged_dieCtl hd hl who hfit) rfl rfl (by decide)
  rw [hbits, State.afterWrite_dieCtl, horder, ← State.dieEntered] at hw
  simp only [State.runTriggers, List.foldl_cons, List.foldl_nil, htrigger, List.nil_append, List.singleton_append,
    hcause] at hw
  have hfor := State.writeFor_entered findReg_dieCtl hm hw
  rw [← hfor]
  show execStoDieCtlFail who d s = _
  rw [execStoDieCtlFail, show d % 64 = d by omega]
  rfl

theorem exec_stoDieCtlFail_spec (hs : Inv s) (hm : MayWrite s who R.STO_DIE_CTL) (hd : d < 64) (hdie : d < s.power.dies.length) :
    ∃ t u, exec (.stoDieCtlFail who d) s = .next t ∧ u.fld F.STO_DIE_CTL.DIE = d ∧ OnlyRegs [R.STO_DIE_CTL] s u ∧
      u = { entered s who R.STO_DIE_CTL (BitVec.ofNat 32 (0x80000000 + d)) 0x8000003F with regs := u.regs } ∧
      t = (u.dieFails d).send (.regCause who R.STO_DIE_CTL Cause.OK) :=
  ⟨_, _, exec_stoDieCtlFail hs hm hd hdie, State.fld_dieEntered hs hd, State.onlyRegs_dieEntered, s.dieEntered_eq who d, rfl⟩

end

/-! ### The journal (R306 to R308, R313, R314) -/

/-- Whether a record can be committed: of a pace before, and no fold that still waits for its word line (R306, R309). -/
def State.ripe (s : State) (w : JournalWait) : Bool := decide (w.pace < s.now) && s.holdDone w

/-- The records that a commit takes. -/
def State.readyRecords (s : State) : List JournalWait := (s.sto.waiting.filter s.ripe).filter fun w => !s.staleMap w

/-- The number of the newest batch. -/
def State.lastSeq (s : State) : Nat := match s.sto.log.getLast? with | some b => b.seq | none => s.sto.ckpt.seq

/-- Batches written to the log, with the field that shows the newest. -/
def State.logged (s : State) (new : List JournalBatch) (f : FieldRef) (v : Nat) : State :=
  { s with
    evt := s.evt.durable s.now
    sto := { s.sto with waiting := s.sto.waiting.filter fun w => !s.ripe w, log := s.sto.log ++ new }
    regs := s.regs.setF f v }

/-- What follows a batch: freed and released blocks, the items that wait, and the thresholds. -/
def State.settled (s : State) (l : List JournalWait) : State :=
  (l.foldl (fun (t : State) w => match w.item with | some (a, b) => t.endItem a b 0 | none => t)
    (l.foldl (fun (t : State) w => t.committed w.record) s)).judgeShare.judgeReadonly

section
variable (s : State) (new : List JournalBatch) (f : FieldRef) (v : Nat)

theorem State.logged_frame : s.logged new f v =
    { s with regs := (s.logged new f v).regs, sto := (s.logged new f v).sto, evt := s.evt.durable s.now } := rfl

theorem State.logged_sto : (s.logged new f v).sto =
    { s.sto with waiting := s.sto.waiting.filter fun w => !s.ripe w, log := s.sto.log ++ new } := rfl

theorem State.logged_regs : (s.logged new f v).regs = (s.setF f v).regs := rfl

end

theorem exec_journalCommit_none {s : State} (h : s.readyRecords = []) :
    exec .journalCommit s = .next { s with evt := s.evt.durable s.now } := by
  show execJournalCommit s = _
  unfold execJournalCommit State.commitJournal
  exact congrArg Host.Outcome.next (if_pos (List.isEmpty_iff.mpr h))

theorem exec_journalCommit_some {s : State} (h : s.readyRecords ≠ []) : exec .journalCommit s =
    .next ((s.logged (batchesOf s.lastSeq s.now (s.readyRecords.map fun w => w.record)) F.STO_JRNL_SEQ.SEQ
      ((s.lastSeq + (batchesOf s.lastSeq s.now (s.readyRecords.map fun w => w.record)).length) % 4294967296)).settled
        s.readyRecords) := by
  show execJournalCommit s = _
  unfold execJournalCommit State.commitJournal
  exact congrArg Host.Outcome.next (if_neg (mt List.isEmpty_iff.mp h))

theorem State.readyRecords_early {s : State} (h : ∀ w ∈ s.sto.waiting, s.now ≤ w.pace) : s.readyRecords = [] := by
  have hnone : s.sto.waiting.filter s.ripe = [] := List.filter_eq_nil_iff.mpr fun w hw hr => by
    rw [State.ripe, Bool.and_eq_true, decide_eq_true_eq] at hr
    exact absurd (h w hw) (by omega)
  rw [State.readyRecords, hnone, List.filter_nil]

theorem State.readyRecords_eq (s : State) :
    s.readyRecords = s.sto.waiting.filter fun w => decide (w.pace < s.now) && s.holdDone w && !s.staleMap w := by
  rw [State.readyRecords, List.filter_filter]
  exact congrArg (List.filter · _) (funext fun w => Bool.and_comm _ _)

theorem ok_jrnlSeq : F.STO_JRNL_SEQ.SEQ.ok = true := by decide +kernel

/-- The records of earlier paces committed together. -/
theorem exec_journalCommit_spec (l : List JournalWait) (seq : Nat) (new : List JournalBatch) (s : State) (hs : Inv s)
    (hl : l = s.sto.waiting.filter fun w => decide (w.pace < s.now) && s.holdDone w && !s.staleMap w) (hne : l ≠ [])
    (hseq : seq = s.lastSeq) (hnew : new = batchesOf seq s.now (l.map fun w => w.record)) :
    ∃ t u : State, exec .journalCommit s = .next t ∧ u.sto.log = s.sto.log ++ new ∧ u.sto.map = s.sto.map ∧
      u.sto.ckpt = s.sto.ckpt ∧ u.fld F.STO_JRNL_SEQ.SEQ = (seq + new.length) % 2 ^ 32 ∧
      (∀ w ∈ s.sto.waiting, (s.now ≤ w.pace ∨ s.holdDone w = false) → w ∈ u.sto.waiting) ∧ (∀ w ∈ l, w ∉ u.sto.waiting) ∧
      OnlyRegs [R.STO_JRNL_SEQ] s u ∧ u = { s with regs := u.regs, sto := u.sto, evt := s.evt.durable s.now } ∧
      t = u.settled l := by
  rw [← State.readyRecords_eq] at hl
  have hexec := exec_journalCommit_some (s := s) (hl ▸ hne)
  rw [← hl, ← hseq, ← hnew] at hexec
  refine ⟨_, _, hexec, ?_, ?_, ?_, ?_, fun w hw h => ?_, fun w hw => ?_,
    ((OnlyRegs.refl _ s).setF (f := F.STO_JRNL_SEQ.SEQ) _ (.head _)).of_regs (State.logged_regs ..), State.logged_frame .., rfl⟩
  · rw [State.logged_sto]
  · rw [State.logged_sto]
  · rw [State.logged_sto]
  · rw [State.fld, State.logged_regs]
    exact (State.fld_setF_same _ hs ok_jrnlSeq).trans (Nat.mod_mod _ _)
  · rw [State.logged_sto]
    refine List.mem_filter.mpr ⟨hw, ?_⟩
    rw [Bool.not_eq_true', State.ripe]
    rcases h with h | h
    · rw [decide_eq_false (by omega), Bool.false_and]
    · rw [h, Bool.and_false]
  · rw [State.logged_sto]
    intro hmem
    rw [hl] at hw
    have hripe := (List.mem_filter.mp (List.mem_filter.mp hw).1).2
    have hnot := (List.mem_filter.mp hmem).2
    rw [hripe] at hnot
    cases hnot

theorem State.committed_release {s : State} {n : Nat} {x : Superblock} (hx : Map.find s.sto.sbs n = some x) (hr : x.retire = []) :
    s.committed (.release n) = { s with sto := { s.sto with
        erasing := s.sto.erasing ++ x.blocks.filter fun y => !s.sto.failed.contains y.1
        sbs := Map.erase s.sto.sbs n } } := by
  unfold State.committed
  dsimp only
  rw [hx]
  dsimp only
  rw [hr]
  simp only [List.map_nil, List.contains_nil, Bool.not_false, Bool.true_and, List.append_nil, List.foldl_nil]

theorem exec_mapCheckpoint_eq (s : State) : exec .mapCheckpoint s = .next (if s.sto.log.length < 4096 then s
    else { s with sto := { s.sto with ckpt := s.sto.durable, older := some s.sto.ckpt, log := [] } }) := by
  show execMapCheckpoint s = _
  unfold execMapCheckpoint
  by_cases h : s.sto.log.length < 4096
  · rw [if_pos h, if_neg (by omega)]
  · rw [if_neg h, if_pos (by omega)]

/-! ### Thresholds (R311, R312) -/

/-- Four fields shown, and an event recorded where a condition holds. -/
def State.shareShown (s : State) (f g h k : FieldRef) (n m : Nat) (a b : Bool) (post : State → Bool) (c : Nat) (p : State → Payload) :
    State :=
  let s1 : State := { s with regs := (((s.regs.setF f n).setF g m).flag h a).flag k b }
  s1.postIf (post s1) c (p s1)

/-- What an event recorded under a condition changes. -/
theorem State.postIf_spec (s : State) (on : Bool) (c : Nat) (p : Payload) : (s.postIf on c p).regs = s.regs ∧
    (∃ q, (s.postIf on c p).evt = { s.evt with queue := s.evt.queue ++ q }) ∧
    s.postIf on c p = { s with evt := (s.postIf on c p).evt } := by
  cases on with
  | true => exact ⟨rfl, ⟨_, rfl⟩, rfl⟩
  | false => exact ⟨rfl, ⟨[], by rw [List.append_nil]; rfl⟩, rfl⟩

/-- What a share shown changes: its registers, and the event queue behind what it held. -/
theorem State.shareShown_spec (s : State) (f g h k : FieldRef) (n m : Nat) (a b : Bool) (post : State → Bool) (c : Nat)
    (p : State → Payload) {L : List Nat} (hf : f.addr ∈ L) (hg : g.addr ∈ L) (hh : h.addr ∈ L) (hk : k.addr ∈ L) :
    ∃ t, s.shareShown f g h k n m a b post c p = t ∧ OnlyRegs L s t ∧ (∃ q, t.evt = { s.evt with queue := s.evt.queue ++ q }) ∧
      t = { s with regs := t.regs, evt := t.evt } := by
  have hregs : OnlyRegs L s { s with regs := (((s.regs.setF f n).setF g m).flag h a).flag k b } :=
    ((((OnlyRegs.refl L s).setF n hf).setF m hg).flag a hh).flag b hk
  obtain ⟨hr, hq, hframe⟩ := State.postIf_spec { s with regs := (((s.regs.setF f n).setF g m).flag h a).flag k b }
    (post { s with regs := (((s.regs.setF f n).setF g m).flag h a).flag k b }) c
    (p { s with regs := (((s.regs.setF f n).setF g m).flag h a).flag k b })
  refine ⟨_, rfl, hregs.of_regs hr, hq, ?_⟩
  rw [State.shareShown, hr]
  exact hframe

/-- What the judgement of the free share changes. -/
theorem State.judgeShare_spec (s : State) : ∃ t, s.judgeShare = t ∧ OnlyRegs [R.STO_STAT, R.STO_FREE] s t ∧
    (∃ q, t.evt = { s.evt with queue := s.evt.queue ++ q }) ∧ t = { s with regs := t.regs, evt := t.evt } := by
  cases hp : s.storagePlan with
  | none => exact ⟨s, by rw [State.judgeShare, hp], OnlyRegs.refl _ s, ⟨[], by rw [List.append_nil]⟩, rfl⟩
  | some p =>
    let step (on : Bool) (lim : Nat) : Bool :=
      if on then !decide (lim + s.fld F.STO_THROTTLE.HYST_CPCT < (s.freeShare p).2) else decide ((s.freeShare p).2 < lim)
    have heq : s.judgeShare = s.shareShown F.STO_FREE.SUPERBLOCKS F.STO_FREE.SHARE F.STO_STAT.FG F.STO_STAT.RESERVE
        (min (s.freeShare p).1 0xFFFF) (s.freeShare p).2 (step (s.fld F.STO_STAT.FG == 1) (s.fld F.STO_GC.FG_CPCT))
        (step (s.fld F.STO_STAT.RESERVE == 1) (s.fld F.STO_GC.RESERVE_CPCT)) (fun t => t.fgState != s.fgState) Ev.STO_FOREGROUND
        (fun t => [b1 t.fgState, b8 ((s.freeShare p).2 : Nat)]) := by
      unfold State.judgeShare
      rw [hp]
      rfl
    rw [heq]
    exact State.shareShown_spec s _ _ _ _ _ _ _ _ _ _ _ (.tail _ (.head _)) (.tail _ (.head _)) (.head _) (.head _)

end Sys2Proof.Machine

/-! Folding, collection and the failures of the media (R304, R305, R309 to R314, R316). -/

namespace Sys2Proof.Machine

set_option Elab.async false

/-! ### READONLY (R312) -/

theorem StorageState.writes_nil {g : StorageState} (h : g.writes = []) : { g with writes := [] } = g := by rw [← h]

theorem State.noted_frame (s : State) (f : FieldRef) (c : Nat) : s.noted f c = { s.post c [] with regs := (s.noted f c).regs } := rfl

theorem State.noted_onlyRegs (s : State) (f : FieldRef) (c : Nat) : OnlyRegs [f.addr] s (s.noted f c) :=
  ((OnlyRegs.refl _ s).flag true (.head _)).post _ _

theorem ok_readonly : F.STO_STAT.READONLY.ok = true := by decide +kernel

section
variable {p : StoragePlan} {n : Nat} {s : State} (hp : s.storagePlan = some p) (hn : n = sumNat (fun k => p.nsUnits k) (List.range 7))
include hp hn

theorem State.judgeReadonly_same (h : s.fld F.STO_STAT.READONLY = 1 ∨ n ≤ sumNat (s.unitsLeft p) (List.range p.groups)) :
    s.judgeReadonly = s := by
  subst hn
  unfold State.judgeReadonly
  rw [hp]
  exact if_neg (by omega)

theorem State.judgeReadonly_falls (h0 : s.fld F.STO_STAT.READONLY = 0)
    (h : sumNat (s.unitsLeft p) (List.range p.groups) < n) (hw : s.sto.writes = []) :
    s.judgeReadonly = s.noted F.STO_STAT.READONLY Ev.STO_READONLY := by
  subst hn
  unfold State.judgeReadonly
  rw [hp]
  refine (if_pos ⟨h0, h⟩).trans ?_
  rw [hw, List.foldl_nil]
  exact congrArg (fun g => ({ s.noted F.STO_STAT.READONLY Ev.STO_READONLY with sto := g } : State)) (StorageState.writes_nil hw)

theorem State.judgeReadonly_falls_spec (hs : Inv s) (h0 : s.fld F.STO_STAT.READONLY = 0)
    (h : sumNat (s.unitsLeft p) (List.range p.groups) < n) (hw : s.sto.writes = []) :
    ∃ t, s.judgeReadonly = t ∧ t.fld F.STO_STAT.READONLY = 1 ∧ OnlyRegs [R.STO_STAT] s t ∧
        t = { s.post Ev.STO_READONLY [] with regs := t.regs } := by
  refine ⟨_, State.judgeReadonly_falls hp hn h0 h hw, ?_, s.noted_onlyRegs F.STO_STAT.READONLY _, State.noted_frame ..⟩
  rw [State.fld, State.noted_regs]
  exact State.fld_flag_same true hs ok_readonly

end

/-! ### Folding and collection (R309, R310, R314) -/

section
variable {p : StoragePlan} {s : State}

theorem exec_foldBlock_eq (hp : s.storagePlan = some p) : exec .foldBlock s =
    .next (if sumNat (fun d => s.freeCount p true d) (List.range p.dies) * 4 < p.slcBlocks * p.dies then
        match s.sto.sbs.find? fun e => e.2.slc && !e.2.isOpen && !e.2.released with
        | some (n, _) => s.moveOut p true n fun _ => true
        | none => s
      else s) := by
  show execFoldBlock s = _
  unfold execFoldBlock
  rw [hp] <;> rfl

/-- A closed superblock without a valid unit is released. -/
theorem State.moveOut_empty {n : Nat} {b : Superblock} (f : Bool) (hb : Map.find s.sto.sbs n = some b) (hopen : b.isOpen = false)
    (hrel : b.released = false) (hvalid : s.validPages n = []) (hw : s.sto.writes = []) (hwait : s.sto.waiting = []) :
    s.moveOut p f n (fun _ => true) = (s.setSb n { b with released := true }).journal (.release n) := by
  have hlast : (if f then (s.sto.waiting.getLast?).bind fun w => w.hold else none) = none := by
    rw [hwait]
    cases f <;> rfl
  have hempty : s.releaseIfEmpty n = (s.setSb n { b with released := true }).journal (.release n) := by
    unfold State.releaseIfEmpty
    rw [hb]
    dsimp only
    rw [hopen, hrel, hvalid]
    rfl
  have hwrites : ((s.setSb n { b with released := true }).journal (.release n)).sto.writes = [] := hw
  unfold State.moveOut
  rw [hvalid]
  simp only [List.filter_nil, State.copyUnits]
  rw [hlast, hempty, hwrites, List.length_nil, State.pumpWrites]

theorem exec_collectionJob_none (hp : s.storagePlan = some p) (h : s.victim p = none) : exec .collectionJob s = .next s := by
  show execCollectionJob s = _
  unfold execCollectionJob
  rw [hp]
  dsimp only
  rw [h]

/-- A collection job moves what its victim holds. -/
theorem exec_collectionJob_some {n : Nat} {pick : Nat → Bool} {b : Superblock} (hp : s.storagePlan = some p)
    (h : s.victim p = some (n, pick)) (hb : Map.find s.sto.sbs n = some b) : ∃ t u, exec .collectionJob s = .next t ∧
      u = (s.setSb n { b with refresh := b.refresh.filter fun k => !pick k }).moveOut p false n pick ∧ t.sto = u.sto ∧
      OnlyRegs [R.STO_STAT, R.STO_FREE] u t ∧ t.out = u.out := by
  have hexec : ∃ left : State → Bool, exec .collectionJob s = .next ((fun u : State =>
      (if left u then u else u.flag F.STO_STAT.DEGRADED false).judgeShare)
        ((s.setSb n { b with refresh := b.refresh.filter fun k => !pick k }).moveOut p false n pick)) := by
    refine ⟨fun u => s.sto.failed.any fun d => u.sto.sbs.any fun e => (u.validPages e.1).any fun k => (e.2.blockOf k.1).1 == d, ?_⟩
    show execCollectionJob s = _
    unfold execCollectionJob
    rw [hp]
    dsimp only
    rw [h]
    dsimp only
    rw [hb]
  obtain ⟨left, hexec⟩ := hexec
  rw [hexec]
  generalize State.moveOut _ p false n pick = u
  have hflag : ∃ v, (if left u then u else u.flag F.STO_STAT.DEGRADED false) = v ∧ OnlyRegs [R.STO_STAT, R.STO_FREE] u v ∧
      v.sto = u.sto ∧ v.out = u.out := by
    cases left u
    · exact ⟨_, rfl, (OnlyRegs.refl _ u).flag (f := F.STO_STAT.DEGRADED) false (.head _), u.flag_sto .., u.flag_out ..⟩
    · exact ⟨_, rfl, OnlyRegs.refl _ u, rfl, rfl⟩
  obtain ⟨v, hv, hregs, hsto, hout⟩ := hflag
  obtain ⟨t, ht, honly, -, hframe⟩ := v.judgeShare_spec
  exact ⟨t, u, by dsimp only; rw [hv, ht], rfl, (congrArg State.sto hframe :).trans hsto, OnlyRegs.trans hregs honly,
    (congrArg State.out hframe :).trans hout⟩

end

/-! ### Erases (R313, R314) -/

section
variable {d b : Nat} {s : State}

theorem exec_blockEraseDone_spec (h : (d, b) ∈ s.sto.erasing) : ∃ t, exec (.blockEraseDone d b) s = .next t ∧
      t = { s with sto := t.sto } ∧ (d, b) ∉ t.sto.erasing ∧
      t.eraseCount (d, b) = s.eraseCount (d, b) + 1 ∧ t.sto.waiting = s.sto.waiting ++ [⟨s.now, .free d b, none, none⟩] ∧
      t.sto.map = s.sto.map ∧ t.sto.sbs = s.sto.sbs := by
  refine ⟨_, congrArg Host.Outcome.next (if_pos (List.contains_iff_mem.mpr h)), rfl, fun hmem => ?_, Map.findD_set_same ..,
      rfl, rfl, rfl⟩
  exact absurd (List.mem_filter.mp hmem).2 (by simp)

/-- A block retired for a failure of its erase, with the fields that count it. -/
def State.eraseRetired (s : State) (d b : Nat) (f g : FieldRef) : State :=
  ((({ s with sto := { s.sto with
    erasing := s.sto.erasing.filter (· != (d, b)), retired := s.sto.retired ++ [(d, b, 1)] } } : State).bump f).setF g
      (s.fld g + 1)).journal (.retire d 1 b)

theorem State.eraseRetired_regs (s : State) (d b : Nat) (f g : FieldRef) :
    (s.eraseRetired d b f g).regs = ((s.bump f).setF g (s.fld g + 1)).regs := rfl

theorem State.eraseRetired_sto (s : State) (d b : Nat) (f g : FieldRef) : (s.eraseRetired d b f g).sto = { s.sto with
    erasing := s.sto.erasing.filter (· != (d, b)), retired := s.sto.retired ++ [(d, b, 1)]
    waiting := s.sto.waiting ++ [⟨s.now, .retire d 1 b, none, none⟩] } := rfl

theorem State.eraseRetired_frame (s : State) (d b : Nat) (f g : FieldRef) : s.eraseRetired d b f g =
    { s with regs := (s.eraseRetired d b f g).regs, sto := (s.eraseRetired d b f g).sto } := rfl

theorem eraseRefs_apart (h : d < 64) : F.STO_ERASE_FAIL_CNT.COUNT.ok = true ∧ (F.STO_DIE_STAT.RETIRED d).ok = true ∧
    F.STO_ERASE_FAIL_CNT.COUNT.apart (F.STO_DIE_STAT.RETIRED d) = true :=
  (by decide +kernel : ∀ d < 64, F.STO_ERASE_FAIL_CNT.COUNT.ok = true ∧ (F.STO_DIE_STAT.RETIRED d).ok = true ∧
    F.STO_ERASE_FAIL_CNT.COUNT.apart (F.STO_DIE_STAT.RETIRED d) = true) d h

theorem exec_eraseFail_eq (h : (d, b) ∈ s.sto.erasing) : exec (.eraseFail d b) s =
    .next (s.eraseRetired d b F.STO_ERASE_FAIL_CNT.COUNT (F.STO_DIE_STAT.RETIRED d)).judgeReadonly :=
  congrArg Host.Outcome.next (if_pos (List.contains_iff_mem.mpr h))

theorem exec_eraseFail_spec (h : (d, b) ∈ s.sto.erasing) (hs : Inv s) (hd : d < 64) :
    ∃ t : State, exec (.eraseFail d b) s = .next t.judgeReadonly ∧ (d, b) ∉ t.sto.erasing ∧
      t.sto.retired = s.sto.retired ++ [(d, b, 1)] ∧
      t.sto.waiting = s.sto.waiting ++ [⟨s.now, .retire d 1 b, none, none⟩] ∧
      t.fld F.STO_ERASE_FAIL_CNT.COUNT = min (s.fld F.STO_ERASE_FAIL_CNT.COUNT + 1) (2 ^ 32 - 1) ∧
      t.fld (F.STO_DIE_STAT.RETIRED d) = (s.fld (F.STO_DIE_STAT.RETIRED d) + 1) % 2 ^ 16 ∧
      OnlyRegs [R.STO_ERASE_FAIL_CNT, R.STO_DIE_STAT d] s t ∧ t = { s with regs := t.regs, sto := t.sto } := by
  obtain ⟨hf, hg, hap⟩ := eraseRefs_apart hd
  have hb : Inv (s.bump F.STO_ERASE_FAIL_CNT.COUNT) := State.bump_inv hs _ _
  refine ⟨_, exec_eraseFail_eq h, ?_, ?_, ?_, ?_, ?_, ?_, State.eraseRetired_frame ..⟩
  · rw [State.eraseRetired_sto]
    exact fun hmem => absurd (List.mem_filter.mp hmem).2 (by simp)
  · rw [State.eraseRetired_sto]
  · rw [State.eraseRetired_sto]
  · rw [State.fld, State.eraseRetired_regs]
    exact (State.fld_setF_other _ hb hg hf hap).trans (State.fld_bump_same 1 hs hf)
  · rw [State.fld, State.eraseRetired_regs]
    exact State.fld_setF_same _ hb hg
  · exact (((OnlyRegs.refl _ s).bump (f := F.STO_ERASE_FAIL_CNT.COUNT) 1 (.head _)).setF (f := F.STO_DIE_STAT.RETIRED d) _
      (.tail _ (.head _))).of_regs (State.eraseRetired_regs ..)

theorem exec_erase_other (h : (d, b) ∉ s.sto.erasing) :
    exec (.blockEraseDone d b) s = .next s ∧ exec (.eraseFail d b) s = .next s :=
  ⟨congrArg Host.Outcome.next (if_neg (mt List.contains_iff_mem.mp h)),
    congrArg Host.Outcome.next (if_neg (mt List.contains_iff_mem.mp h))⟩

end

end Sys2Proof.Machine

/-! Failures of pages, programs and dies, and scrubbing (R304, R305, R311, R313, R316), and the storage together. -/

namespace Sys2Proof.Machine

set_option Elab.async false

/-! ### Reads that need retries (R304) -/

/-- The pages due for refresh, with one more. -/
def Superblock.dueWith (b : Superblock) (k : Nat) : List Nat := if b.refresh.contains k then b.refresh else b.refresh ++ [k]

theorem Superblock.mem_dueWith (b : Superblock) (k : Nat) : k ∈ b.dueWith k ∧ ∀ j ∈ b.refresh, j ∈ b.dueWith k := by
  unfold Superblock.dueWith
  split
  · next h => exact ⟨List.contains_iff_mem.mp h, fun _ hj => hj⟩
  · exact ⟨List.mem_append_right _ (.head _), fun _ hj => List.mem_append_left _ hj⟩

/-- A unit poisoned, with the field that counts it and the event that records it. -/
def State.unitPoisoned (s : State) (lu : Nat) (f : FieldRef) (c : Nat) (p : Payload) : State :=
  ((({ s with sto := { s.sto with map := Map.set s.sto.map lu .poisoned } } : State).journal (.poison lu)).bump f).post c p

section
variable (s : State) (lu : Nat) (f : FieldRef) (c : Nat) (p : Payload)

theorem State.unitPoisoned_regs : (s.unitPoisoned lu f c p).regs = (s.bump f).regs := rfl

theorem State.unitPoisoned_sto : (s.unitPoisoned lu f c p).sto = { s.sto with
    map := Map.set s.sto.map lu .poisoned, waiting := s.sto.waiting ++ [⟨s.now, .poison lu, none, none⟩] } := rfl

theorem State.unitPoisoned_queue : (s.unitPoisoned lu f c p).evt.queue = s.evt.queue ++ [mkPost s c p] := rfl

end

theorem State.poisonUnit_eq (s : State) (lu : Nat) :
    ∃ p, s.poisonUnit lu = s.unitPoisoned lu F.STO_MEDIA_ERR_CNT.COUNT Ev.STO_MEDIA_ERROR p := ⟨_, rfl⟩

theorem State.setSb_find (s : State) (n : Nat) (b : Superblock) : Map.find (s.setSb n b).sto.sbs n = some b := Map.find_set_same ..

theorem State.setSb_regs (s : State) (n : Nat) (b : Superblock) : (s.setSb n b).regs = s.regs := rfl

theorem State.setSb_map (s : State) (n : Nat) (b : Superblock) : (s.setSb n b).sto.map = s.sto.map := rfl

theorem State.setSb_waiting (s : State) (n : Nat) (b : Superblock) : (s.setSb n b).sto.waiting = s.sto.waiting := rfl

theorem readRefs_ok : F.STO_RETRY_CNT.COUNT.ok = true ∧ F.STO_REBUILD_CNT.COUNT.ok = true ∧ F.STO_MEDIA_ERR_CNT.COUNT.ok = true ∧
    F.STO_PROG_FAIL_CNT.COUNT.ok = true ∧ F.STO_THROTTLE_CNT.COUNT.ok = true := by decide +kernel

section
variable {sb k n : Nat} {b : Superblock} {g : NandPage} {s : State} (hb : Map.find s.sto.sbs sb = some b)
  (hg : b.pages[k]? = some (some g)) (hd : (b.blockOf k).1 ∉ s.sto.failed)
include hb hg hd

theorem exec_pageRead_eq (decoded rebuilt partner : Bool) : exec (.pageRead sb k n decoded rebuilt partner) s =
    .next (if decoded then s.bump F.STO_RETRY_CNT.COUNT n
      else if rebuilt then ((s.bump F.STO_RETRY_CNT.COUNT n).bump F.STO_REBUILD_CNT.COUNT).setSb sb { b with refresh := b.dueWith k }
      else if partner && s.linkUp then (s.bump F.STO_RETRY_CNT.COUNT n).setSb sb { b with refresh := b.dueWith k }
      else if Map.find s.sto.map g.lu = some (.place sb k) then (s.bump F.STO_RETRY_CNT.COUNT n).poisonUnit g.lu
      else s.bump F.STO_RETRY_CNT.COUNT n) := by
  have hdead : s.sto.failed.contains (b.blockOf k).1 = false := by
    rw [← Bool.not_eq_true, List.contains_iff_mem]
    exact hd
  show execPageRead sb k n decoded rebuilt partner s = _
  unfold execPageRead
  rw [hb]
  dsimp only
  rw [hg]
  dsimp only [Option.join_some]
  rw [hdead, Bool.not_false, Bool.and_true, if_neg Bool.false_ne_true, ← Superblock.dueWith]

theorem exec_pageRead_decoded (hs : Inv s) (r q : Bool) : ∃ t, exec (.pageRead sb k n true r q) s = .next t ∧
      t.fld F.STO_RETRY_CNT.COUNT = min (s.fld F.STO_RETRY_CNT.COUNT + n) (2 ^ 32 - 1) ∧
      OnlyRegs [R.STO_RETRY_CNT] s t ∧ t = { s with regs := t.regs } :=
  ⟨_, (exec_pageRead_eq hb hg hd true r q).trans (congrArg _ (if_pos rfl)), State.fld_bump_same n hs readRefs_ok.1,
    (OnlyRegs.refl _ s).bump (f := F.STO_RETRY_CNT.COUNT) n (.head _), State.bump_frame ..⟩

/-- A page rebuilt is due for refresh. -/
theorem exec_pageRead_rebuilt (hs : Inv s) (q : Bool) : ∃ t x, exec (.pageRead sb k n false true q) s = .next t ∧
      Map.find t.sto.sbs sb = some { b with refresh := x } ∧ k ∈ x ∧ (∀ j ∈ b.refresh, j ∈ x) ∧
      t.fld F.STO_REBUILD_CNT.COUNT = min (s.fld F.STO_REBUILD_CNT.COUNT + 1) (2 ^ 32 - 1) ∧ t.sto.map = s.sto.map ∧
      OnlyRegs [R.STO_RETRY_CNT, R.STO_REBUILD_CNT] s t := by
  rw [exec_pageRead_eq hb hg hd, if_neg (by decide), if_pos rfl]
  have hv : Inv (s.bump F.STO_RETRY_CNT.COUNT n) := State.bump_inv hs _ _
  have hregs := (OnlyRegs.refl [R.STO_RETRY_CNT] s).bump (f := F.STO_RETRY_CNT.COUNT) n (.head _)
  have hsto := s.bump_sto F.STO_RETRY_CNT.COUNT n
  generalize s.bump F.STO_RETRY_CNT.COUNT n = v at hv hregs hsto
  have hcnt := State.fld_bump_same 1 hv readRefs_ok.2.1
  have hold : v.fld F.STO_REBUILD_CNT.COUNT = s.fld F.STO_REBUILD_CNT.COUNT := hregs.fld (by decide +kernel)
  rw [hold] at hcnt
  have hsub : [R.STO_RETRY_CNT] ⊆ [R.STO_RETRY_CNT, R.STO_REBUILD_CNT] := List.subset_append_left [_] [_]
  have hwregs := (hregs.mono hsub).bump (f := F.STO_REBUILD_CNT.COUNT) 1 (.tail _ (.head _))
  have hwsto := (v.bump_sto F.STO_REBUILD_CNT.COUNT 1).trans hsto
  generalize v.bump F.STO_REBUILD_CNT.COUNT 1 = w at hcnt hwregs hwsto
  refine ⟨_, b.dueWith k, rfl, w.setSb_find .., (b.mem_dueWith k).1, (b.mem_dueWith k).2, ?_, ?_,
    hwregs.of_regs (w.setSb_regs ..)⟩
  · rw [State.fld, State.setSb_regs]
    exact hcnt
  · rw [State.setSb_map, hwsto]

/-- A page fetched from the partner is due for refresh. -/
theorem exec_pageRead_fetched (hl : s.linkUp = true) : ∃ t x, exec (.pageRead sb k n false false true) s = .next t ∧
      Map.find t.sto.sbs sb = some { b with refresh := x } ∧ k ∈ x ∧ (∀ j ∈ b.refresh, j ∈ x) ∧ t.sto.map = s.sto.map ∧
      OnlyRegs [R.STO_RETRY_CNT] s t ∧ t.sto.waiting = s.sto.waiting := by
  rw [exec_pageRead_eq hb hg hd, if_neg (by decide), if_neg (by decide), hl, Bool.and_self, if_pos rfl]
  have hregs := (OnlyRegs.refl [R.STO_RETRY_CNT] s).bump (f := F.STO_RETRY_CNT.COUNT) n (.head _)
  have hsto := s.bump_sto F.STO_RETRY_CNT.COUNT n
  generalize s.bump F.STO_RETRY_CNT.COUNT n = v at hregs hsto
  refine ⟨_, b.dueWith k, rfl, v.setSb_find .., (b.mem_dueWith k).1, (b.mem_dueWith k).2, ?_, hregs.of_regs (v.setSb_regs ..), ?_⟩
  · rw [State.setSb_map, hsto]
  · rw [State.setSb_waiting, hsto]

/-- A unit that cannot be read is poisoned. -/
theorem exec_pageRead_lost (hs : Inv s) {q : Bool} (hm : Map.find s.sto.map g.lu = some (.place sb k))
    (hq : q = false ∨ s.linkUp = false) :
    ∃ t, exec (.pageRead sb k n false false q) s = .next t ∧
      Map.find t.sto.map g.lu = some .poisoned ∧ (∀ u, u ≠ g.lu → Map.find t.sto.map u = Map.find s.sto.map u) ∧
      t.sto.waiting = s.sto.waiting ++ [⟨s.now, .poison g.lu, none, none⟩] ∧
      t.fld F.STO_MEDIA_ERR_CNT.COUNT = min (s.fld F.STO_MEDIA_ERR_CNT.COUNT + 1) (2 ^ 32 - 1) ∧
      OnlyRegs [R.STO_RETRY_CNT, R.STO_MEDIA_ERR_CNT] s t := by
  have hnone : ¬ (q && s.linkUp) = true := by
    rw [Bool.and_eq_true]
    rintro ⟨h1, h2⟩
    rcases hq with h | h
    · rw [h] at h1
      cases h1
    · rw [h] at h2
      cases h2
  rw [exec_pageRead_eq hb hg hd, if_neg (by decide), if_neg (by decide), if_neg hnone, if_pos hm]
  have hv : Inv (s.bump F.STO_RETRY_CNT.COUNT n) := State.bump_inv hs _ _
  have hregs := (OnlyRegs.refl [R.STO_RETRY_CNT] s).bump (f := F.STO_RETRY_CNT.COUNT) n (.head _)
  have hsto := s.bump_sto F.STO_RETRY_CNT.COUNT n
  have hnow : (s.bump F.STO_RETRY_CNT.COUNT n).now = s.now := by rw [State.now, State.bump_pace, State.now]
  generalize s.bump F.STO_RETRY_CNT.COUNT n = v at hv hregs hsto hnow
  have hcnt := State.fld_bump_same 1 hv readRefs_ok.2.2.1
  have hold : v.fld F.STO_MEDIA_ERR_CNT.COUNT = s.fld F.STO_MEDIA_ERR_CNT.COUNT := hregs.fld (by decide +kernel)
  rw [hold] at hcnt
  have hsub : [R.STO_RETRY_CNT] ⊆ [R.STO_RETRY_CNT, R.STO_MEDIA_ERR_CNT] := List.subset_append_left [_] [_]
  have hwregs := (hregs.mono hsub).bump (f := F.STO_MEDIA_ERR_CNT.COUNT) 1 (.tail _ (.head _))
  obtain ⟨p, hp⟩ := v.poisonUnit_eq g.lu
  rw [hp]
  refine ⟨_, rfl, ?_, fun u hu => ?_, ?_, ?_, hwregs.of_regs (State.unitPoisoned_regs ..)⟩
  · rw [State.unitPoisoned_sto]
    exact Map.find_set_same ..
  · rw [State.unitPoisoned_sto]
    exact (Map.find_set_other _ hu).trans (by rw [hsto])
  · rw [State.unitPoisoned_sto, hsto, hnow]
  · rw [State.fld, State.unitPoisoned_regs]
    exact hcnt

end

/-! ### Programs that fail (R313) -/

/-- A superblock whose newest page failed to program. -/
def Superblock.programFailed (b : Superblock) : Superblock :=
  { b with
    pages := setAt b.pages (b.pages.length - 1) none, isOpen := false, excluded := some (b.pages.length - 1), first := true
    retire := b.retire ++ [((b.blockOf (b.pages.length - 1)).1, (b.blockOf (b.pages.length - 1)).2, 0)] }

/-- A superblock closed with its failed page, behind the records that stay, with the field that counts it. -/
def State.programLost (s : State) (sb : Nat) (b : Superblock) (keep : JournalWait → Bool) (f : FieldRef) (c : Nat) (p : Payload) :
    State :=
  let s1 := (s.bump f).post c p
  let s2 := { s1 with sto := { s1.sto with waiting := s1.sto.waiting.filter keep } }
  (s2.setSb sb b).journal (b.closeRec sb)

section
variable (s : State) (sb : Nat) (b : Superblock) (keep : JournalWait → Bool) (f : FieldRef) (c : Nat) (p : Payload)

theorem State.programLost_regs : (s.programLost sb b keep f c p).regs = (s.bump f).regs := rfl

theorem State.programLost_sto : (s.programLost sb b keep f c p).sto = { s.sto with
    waiting := s.sto.waiting.filter keep ++ [⟨s.now, b.closeRec sb, none, none⟩], sbs := Map.set s.sto.sbs sb b } := rfl

theorem State.programLost_queue : (s.programLost sb b keep f c p).evt.queue = s.evt.queue ++ [mkPost s c p] := rfl

end

/-- The first record that waits and is the one asked for. -/
def State.recordOf (s : State) (r : JournalRec) : Option JournalWait := s.sto.waiting.find? fun w => w.record == r

/-- The unit of a failed program goes to another superblock, and its own is closed and collected first. -/
theorem exec_programFail_eq {sb : Nat} {p : StoragePlan} {b : Superblock} {g : NandPage} {s : State} (hp : s.storagePlan = some p)
    (hb : Map.find s.sto.sbs sb = some b) (hopen : b.isOpen = true) (hg : b.pages[b.pages.length - 1]? = some (some g)) :
    ∃ item fold, exec (.programFail sb) s = .next (((s.programLost sb b.programFailed
      (fun w => !(w.record == .map g.lu sb (b.pages.length - 1) (b.phys (b.pages.length - 1)))) F.STO_PROG_FAIL_CNT.COUNT
        Ev.STO_PROG_FAIL [b2 (b.blockOf (b.pages.length - 1)).1, b2 (b.blockOf (b.pages.length - 1)).2]).program
          p b.slc g item fold).getD (s.programLost sb b.programFailed
      (fun w => !(w.record == .map g.lu sb (b.pages.length - 1) (b.phys (b.pages.length - 1)))) F.STO_PROG_FAIL_CNT.COUNT
        Ev.STO_PROG_FAIL [b2 (b.blockOf (b.pages.length - 1)).1, b2 (b.blockOf (b.pages.length - 1)).2])) := by
  refine ⟨(s.recordOf (.map g.lu sb (b.pages.length - 1) (b.phys (b.pages.length - 1)))).bind fun w => w.item,
    ((s.recordOf (.map g.lu sb (b.pages.length - 1) (b.phys (b.pages.length - 1)))).bind fun w => w.hold).isSome, ?_⟩
  show execProgramFail sb s = _
  unfold execProgramFail
  rw [hp, hb]
  dsimp only
  rw [hg]
  dsimp only [Option.join_some]
  rw [if_neg (by rw [hopen]; decide)]
  generalize hx : State.journal (State.setSb _ _ _) _ = x
  rw [show s.programLost sb b.programFailed _ _ _ _ = x from hx, State.post_sto, State.bump_sto, State.recordOf]
  generalize State.program x _ _ _ _ _ = o
  cases o <;> rfl

theorem exec_programFail_spec {sb : Nat} {p : StoragePlan} {b : Superblock} {g : NandPage} {s : State} (hs : Inv s)
    (hp : s.storagePlan = some p) (hb : Map.find s.sto.sbs sb = some b) (hopen : b.isOpen = true)
    (hg : b.pages[b.pages.length - 1]? = some (some g)) :
    ∃ t u item fold d k c, exec (.programFail sb) s = .next t ∧ t = (u.program p b.slc g item fold).getD u ∧
      (d, k) = b.blockOf (b.pages.length - 1) ∧
      c = { b with
        pages := setAt b.pages (b.pages.length - 1) none, isOpen := false, excluded := some (b.pages.length - 1)
        first := true, retire := b.retire ++ [(d, k, 0)] } ∧
      Map.find u.sto.sbs sb = some c ∧ (⟨s.now, c.closeRec sb, none, none⟩ : JournalWait) ∈ u.sto.waiting ∧
      (∀ w ∈ s.sto.waiting, w.record ≠ .map g.lu sb (b.pages.length - 1) (b.phys (b.pages.length - 1)) → w ∈ u.sto.waiting) ∧
      u.fld F.STO_PROG_FAIL_CNT.COUNT = min (s.fld F.STO_PROG_FAIL_CNT.COUNT + 1) (2 ^ 32 - 1) ∧
      OnlyRegs [R.STO_PROG_FAIL_CNT] s u ∧ u.sto.map = s.sto.map ∧
      u.evt.queue = s.evt.queue ++ [mkPost s Ev.STO_PROG_FAIL [b2 d, b2 k]] := by
  obtain ⟨item, fold, hexec⟩ := exec_programFail_eq hp hb hopen hg
  refine ⟨_, _, item, fold, _, _, b.programFailed, hexec, rfl, rfl, rfl, ?_, ?_, fun w hw hr => ?_, ?_, ?_, ?_,
    State.programLost_queue ..⟩
  · rw [State.programLost_sto]
    exact Map.find_set_same ..
  · rw [State.programLost_sto]
    exact List.mem_append_right _ (.head _)
  · rw [State.programLost_sto]
    refine List.mem_append_left _ (List.mem_filter.mpr ⟨hw, ?_⟩)
    rw [Bool.not_eq_true', beq_eq_false_iff_ne]
    exact hr
  · rw [State.fld, State.programLost_regs]
    exact State.fld_bump_same 1 hs readRefs_ok.2.2.2.1
  · exact ((OnlyRegs.refl _ s).bump (f := F.STO_PROG_FAIL_CNT.COUNT) 1 (.head _)).of_regs (State.programLost_regs ..)
  · rw [State.programLost_sto]

/-! ### Dies that fail (R305) -/

/-- Whether a superblock has a block on a die. -/
def Superblock.onDie (b : Superblock) (d : Nat) : Bool := b.blocks.any fun x => x.1 == d

/-- A superblock that takes no more pages. -/
def Superblock.closed (b : Superblock) : Superblock := { b with isOpen := false }

theorem Superblock.closed_of_closed {b : Superblock} (h : b.isOpen = false) : b.closed = b := by rw [Superblock.closed, ← h]

/-- What closing a superblock leaves. -/
theorem State.closeSb_spec (s : State) (n : Nat) : ∃ t, s.closeSb n = t ∧ t = { s with sto := t.sto } ∧
    t.sto.failed = s.sto.failed ∧ Map.find t.sto.sbs n = (Map.find s.sto.sbs n).map Superblock.closed ∧
    ∀ m, m ≠ n → Map.find t.sto.sbs m = Map.find s.sto.sbs m := by
  refine ⟨_, rfl, ?_⟩
  unfold State.closeSb
  cases hb : Map.find s.sto.sbs n with
  | none => exact ⟨rfl, rfl, hb, fun _ _ => rfl⟩
  | some b =>
    dsimp only
    split
    · exact ⟨rfl, rfl, Map.find_set_same .., fun m hm => Map.find_set_other _ hm⟩
    · next h => exact ⟨rfl, rfl, by rw [hb, Option.map_some, Superblock.closed_of_closed (Bool.not_eq_true _ ▸ h)], fun _ _ => rfl⟩

/-- Several superblocks closed. -/
theorem State.closeSbs_spec (l : List (Nat × Superblock)) : ∀ s : State, ∃ t, l.foldl (fun (t : State) e => t.closeSb e.1) s = t ∧
    t = { s with sto := t.sto } ∧ t.sto.failed = s.sto.failed ∧
    (∀ n, n ∈ l.map Prod.fst → Map.find t.sto.sbs n = (Map.find s.sto.sbs n).map Superblock.closed) ∧
    ∀ n, n ∉ l.map Prod.fst → Map.find t.sto.sbs n = Map.find s.sto.sbs n := by
  induction l with
  | nil => exact fun s => ⟨s, rfl, rfl, rfl, fun n h => absurd h List.not_mem_nil, fun _ _ => rfl⟩
  | cons e l ih =>
    intro s
    obtain ⟨u, hu, hframe, hfailed, hsame, hother⟩ := s.closeSb_spec e.1
    obtain ⟨t, ht, hframe', hfailed', hin, hout⟩ := ih u
    rw [List.foldl_cons, hu, List.map_cons]
    have h := congrArg (fun z : State => ({ z with sto := t.sto } : State)) hframe
    refine ⟨t, ht, hframe'.trans h, hfailed'.trans hfailed, fun n hn => ?_, fun n hn => ?_⟩
    · by_cases hl : n ∈ l.map Prod.fst
      · rw [hin n hl]
        rcases eq_or_ne n e.1 with rfl | hne
        · rw [hsame, Option.map_map]
          rfl
        · rw [hother n hne]
      · obtain rfl := (List.mem_cons.mp hn).resolve_right hl
        rw [hout _ hl, hsame]
    · rw [List.mem_cons, not_or] at hn
      rw [hout n hn.2, hother n hn.1]

/-- Several units poisoned. -/
theorem State.poisonUnits_spec (l : List Nat) : ∀ s : State, ∃ t, l.foldl (fun (t : State) lu => t.poisonUnit lu) s = t ∧
    t.sto.failed = s.sto.failed ∧ t.sto.sbs = s.sto.sbs ∧ (∃ q, t.evt.queue = s.evt.queue ++ q) ∧
    OnlyRegs [R.STO_MEDIA_ERR_CNT] s t := by
  induction l with
  | nil => exact fun s => ⟨s, rfl, rfl, rfl, ⟨[], (List.append_nil _).symm⟩, OnlyRegs.refl _ s⟩
  | cons lu l ih =>
    intro s
    obtain ⟨p, hp⟩ := s.poisonUnit_eq lu
    have hregs := ((OnlyRegs.refl _ s).bump (f := F.STO_MEDIA_ERR_CNT.COUNT) 1 (.head [])).of_regs
      (s.unitPoisoned_regs lu _ Ev.STO_MEDIA_ERROR p)
    have hsto := s.unitPoisoned_sto lu F.STO_MEDIA_ERR_CNT.COUNT Ev.STO_MEDIA_ERROR p
    have hqueue := s.unitPoisoned_queue lu F.STO_MEDIA_ERR_CNT.COUNT Ev.STO_MEDIA_ERROR p
    rw [List.foldl_cons, hp]
    generalize s.unitPoisoned lu F.STO_MEDIA_ERR_CNT.COUNT Ev.STO_MEDIA_ERROR p = u at hregs hsto hqueue
    obtain ⟨t, ht, hfailed, hsbs, ⟨q, hq⟩, hregs'⟩ := ih u
    exact ⟨t, ht, by rw [hfailed, hsto], by rw [hsbs, hsto], ⟨_, by rw [hq, hqueue, List.append_assoc]⟩, OnlyRegs.trans hregs hregs'⟩

/-- The superblocks of a die closed. -/
def State.hurtClosed (s : State) (d : Nat) : State :=
  (s.sto.sbs.filter fun e => e.2.onDie d).foldl (fun (t : State) e => t.closeSb e.1) s

/-- A superblock that is collected first where it has a block on a die. -/
def Superblock.hurt (d : Nat) (b : Superblock) : Superblock := if b.onDie d then { b with first := true } else b

/-- A die marked as failed, with the field that shows it and the event that records it. -/
def State.dieMarked (s : State) (d : Nat) (f : FieldRef) (c : Nat) (p : Payload) : State :=
  (({ s.hurtClosed d with sto := { (s.hurtClosed d).sto with
      failed := s.sto.failed ++ [d], sbs := Map.mapVals (fun _ b => b.hurt d) (s.hurtClosed d).sto.sbs } } : State).flag f true).post c p

theorem State.dieMarked_regs (s : State) (d : Nat) (f : FieldRef) (c : Nat) (p : Payload) :
    (s.dieMarked d f c p).regs = ((s.hurtClosed d).flag f true).regs := rfl

theorem State.dieMarked_sto (s : State) (d : Nat) (f : FieldRef) (c : Nat) (p : Payload) :
    (s.dieMarked d f c p).sto = { (s.hurtClosed d).sto with
      failed := s.sto.failed ++ [d], sbs := Map.mapVals (fun _ b => b.hurt d) (s.hurtClosed d).sto.sbs } := rfl

theorem State.dieMarked_queue (s : State) (d : Nat) (f : FieldRef) (c : Nat) (p : Payload) :
    (s.dieMarked d f c p).evt.queue = (s.hurtClosed d).evt.queue ++ [mkPost (s.hurtClosed d) c p] := rfl

section
variable {d : Nat} {p : StoragePlan} {s : State} (hp : s.storagePlan = some p)
include hp

theorem exec_dieFail_known (h : p.dies ≤ d ∨ d ∈ s.sto.failed) : exec (.dieFail d) s = .next s := by
  show execDieFail d s = _
  unfold execDieFail State.dieFails
  rw [hp]
  exact congrArg Host.Outcome.next (if_pos (h.imp_right List.contains_iff_mem.mpr))

theorem exec_dieFail_eq (h1 : d < p.dies) (h2 : d ∉ s.sto.failed) : ∃ (lost : List Nat) (holds : Bool), exec (.dieFail d) s =
    .next ((if holds then (lost.foldl (fun (t : State) lu => t.poisonUnit lu)
        (s.dieMarked d (F.STO_DIE_STAT.FAILED d) Ev.STO_DIE_FAIL [b2 d])).flag F.STO_STAT.DEGRADED true
      else lost.foldl (fun (t : State) lu => t.poisonUnit lu)
        (s.dieMarked d (F.STO_DIE_STAT.FAILED d) Ev.STO_DIE_FAIL [b2 d])).judgeShare).judgeReadonly := by
  have hnew : ¬ (p.dies ≤ d ∨ s.sto.failed.contains d = true) := by
    rw [List.contains_iff_mem]
    rintro (h | h)
    · omega
    · exact h2 h
  suffices h : ∃ (lost : List Nat) (holds : Bool), s.dieFails d =
      ((if holds then (lost.foldl (fun (t : State) lu => t.poisonUnit lu)
        (s.dieMarked d (F.STO_DIE_STAT.FAILED d) Ev.STO_DIE_FAIL [b2 d])).flag F.STO_STAT.DEGRADED true
      else lost.foldl (fun (t : State) lu => t.poisonUnit lu)
        (s.dieMarked d (F.STO_DIE_STAT.FAILED d) Ev.STO_DIE_FAIL [b2 d])).judgeShare).judgeReadonly from
    h.imp fun lost h => h.imp fun holds h => congrArg Host.Outcome.next h
  unfold State.dieFails
  rw [hp]
  exact ⟨_, _, if_neg hnew⟩

end

end Sys2Proof.Machine

/-! A die that fails, writes that wait too long and scrub reads (R305, R311, R316), and the storage together. -/

namespace Sys2Proof.Machine

set_option Elab.async false

/-! ### Dies that fail (R305) -/

theorem State.hurtClosed_spec (s : State) (d : Nat) : s.hurtClosed d = { s with sto := (s.hurtClosed d).sto } ∧
    (∀ n b, Map.find s.sto.sbs n = some b → b.onDie d = true → Map.find (s.hurtClosed d).sto.sbs n = some b.closed) ∧
    ∀ n, (∀ e ∈ s.sto.sbs, e.1 = n → e.2.onDie d = false) → Map.find (s.hurtClosed d).sto.sbs n = Map.find s.sto.sbs n := by
  obtain ⟨t, ht, hframe, -, hin, hout⟩ := State.closeSbs_spec (s.sto.sbs.filter fun e => e.2.onDie d) s
  rw [← State.hurtClosed] at ht
  rw [ht]
  refine ⟨hframe, fun n b hb hd => ?_, fun n h => hout n fun hn => ?_⟩
  · rw [hin n (List.mem_map.mpr ⟨(n, b), List.mem_filter.mpr ⟨Map.mem_of_find hb, hd⟩, rfl⟩), hb]
    rfl
  · obtain ⟨e, he, hk⟩ := List.mem_map.mp hn
    obtain ⟨he, hd⟩ := List.mem_filter.mp he
    rw [h e he hk] at hd
    cases hd

theorem Superblock.hurt_closed {b : Superblock} {d : Nat} (h : b.onDie d = true) :
    b.closed.hurt d = { b with first := true, isOpen := false } := if_pos h

theorem Superblock.hurt_other {b : Superblock} {d : Nat} (h : b.onDie d = false) : b.hurt d = b := if_neg (by rw [h]; decide)

theorem dieRefs_apart {d : Nat} (h : d < 64) : (F.STO_DIE_STAT.FAILED d).ok = true ∧
    (F.STO_DIE_STAT.FAILED d).addr ∉ [R.STO_STAT, R.STO_FREE, R.STO_MEDIA_ERR_CNT] :=
  (by decide +kernel : ∀ d < 64, (F.STO_DIE_STAT.FAILED d).ok = true ∧
    (F.STO_DIE_STAT.FAILED d).addr ∉ [R.STO_STAT, R.STO_FREE, R.STO_MEDIA_ERR_CNT]) d h

/-- What the units lost and the share shown leave of a die that has been marked. -/
theorem State.dieSettled_spec (u : State) (lost : List Nat) (holds : Bool) : ∃ t,
    (if holds then (lost.foldl (fun (t : State) lu => t.poisonUnit lu) u).flag F.STO_STAT.DEGRADED true
      else lost.foldl (fun (t : State) lu => t.poisonUnit lu) u).judgeShare = t ∧ t.sto.failed = u.sto.failed ∧
    t.sto.sbs = u.sto.sbs ∧ (∃ q, t.evt.queue = u.evt.queue ++ q) ∧ OnlyRegs [R.STO_STAT, R.STO_FREE, R.STO_MEDIA_ERR_CNT] u t := by
  obtain ⟨v, hv, hfailed, hsbs, ⟨q, hq⟩, hregs⟩ := State.poisonUnits_spec lost u
  rw [hv]
  have hsub : [R.STO_MEDIA_ERR_CNT] ⊆ [R.STO_STAT, R.STO_FREE, R.STO_MEDIA_ERR_CNT] := List.subset_append_right [_, _] [_]
  have hsub' : [R.STO_STAT, R.STO_FREE] ⊆ [R.STO_STAT, R.STO_FREE, R.STO_MEDIA_ERR_CNT] := List.subset_append_left [_, _] [_]
  have hflag : ∃ w, (if holds then v.flag F.STO_STAT.DEGRADED true else v) = w ∧ w.sto = v.sto ∧ w.evt = v.evt ∧
      OnlyRegs [R.STO_STAT, R.STO_FREE, R.STO_MEDIA_ERR_CNT] u w := by
    cases holds
    · exact ⟨v, rfl, rfl, rfl, hregs.mono hsub⟩
    · exact ⟨_, rfl, v.flag_sto .., v.flag_evt .., (hregs.mono hsub).flag (f := F.STO_STAT.DEGRADED) true (.head _)⟩
  obtain ⟨w, hw, hsto, hevt, hwregs⟩ := hflag
  rw [hw]
  obtain ⟨t, ht, htregs, ⟨r, hr⟩, hframe⟩ := w.judgeShare_spec
  have htsto : t.sto = w.sto := (congrArg State.sto hframe :)
  exact ⟨t, ht, by rw [htsto, hsto, hfailed], by rw [htsto, hsto, hsbs], ⟨q ++ r, by rw [hr, hevt, ← List.append_assoc, ← hq]⟩,
    OnlyRegs.trans hwregs (htregs.mono hsub')⟩

/-- A die that fails is marked, and its superblocks are closed and collected first. -/
theorem exec_dieFail_spec {d : Nat} {p : StoragePlan} {s : State} (hs : Inv s) (hp : s.storagePlan = some p) (hd : d < 64)
    (h1 : d < p.dies) (h2 : d ∉ s.sto.failed) : ∃ t : State, exec (.dieFail d) s = .next t.judgeReadonly ∧
      t.sto.failed = s.sto.failed ++ [d] ∧
      t.fld (F.STO_DIE_STAT.FAILED d) = 1 ∧ mkPost s Ev.STO_DIE_FAIL [b2 d] ∈ t.evt.queue ∧
      OnlyRegs [R.STO_DIE_STAT d, R.STO_STAT, R.STO_FREE, R.STO_MEDIA_ERR_CNT] s t ∧
      (∀ n b, Map.find s.sto.sbs n = some b → b.blocks.any (fun x => x.1 == d) = true → Map.find t.sto.sbs n =
        some { b with first := true, isOpen := false }) ∧
      (∀ n, (∀ e ∈ s.sto.sbs, e.1 = n → e.2.blocks.any (fun x => x.1 == d) = false) →
        Map.find t.sto.sbs n = Map.find s.sto.sbs n) := by
  obtain ⟨lost, holds, hexec⟩ := exec_dieFail_eq hp h1 h2
  obtain ⟨hframe, hhurt, hother⟩ := s.hurtClosed_spec d
  obtain ⟨hok, hnot⟩ := dieRefs_apart hd
  have hcregs : (s.hurtClosed d).regs = s.regs := (congrArg State.regs hframe :)
  have hcevt : (s.hurtClosed d).evt = s.evt := (congrArg State.evt hframe :)
  have hmregs := s.dieMarked_regs d (F.STO_DIE_STAT.FAILED d) Ev.STO_DIE_FAIL [b2 d]
  have hmsto := s.dieMarked_sto d (F.STO_DIE_STAT.FAILED d) Ev.STO_DIE_FAIL [b2 d]
  have hmqueue := s.dieMarked_queue d (F.STO_DIE_STAT.FAILED d) Ev.STO_DIE_FAIL [b2 d]
  rw [mkPost_congr ⟨s.evt.queue, hcevt⟩] at hmqueue
  have honly : OnlyRegs [R.STO_DIE_STAT d] s (s.dieMarked d (F.STO_DIE_STAT.FAILED d) Ev.STO_DIE_FAIL [b2 d]) := fun a ha =>
    (((OnlyRegs.refl _ (s.hurtClosed d)).flag (f := F.STO_DIE_STAT.FAILED d) true (.head _)).of_regs hmregs a ha).trans
      (congrArg (RegFile.get · a) hcregs)
  have hfld : (s.dieMarked d (F.STO_DIE_STAT.FAILED d) Ev.STO_DIE_FAIL [b2 d]).fld (F.STO_DIE_STAT.FAILED d) = 1 := by
    rw [State.fld, hmregs]
    exact State.fld_flag_same true (by rw [hcregs]; exact hs) hok
  generalize s.dieMarked d (F.STO_DIE_STAT.FAILED d) Ev.STO_DIE_FAIL [b2 d] = u at *
  obtain ⟨t, ht, hfailed, hsbs, ⟨q, hq⟩, hregs⟩ := u.dieSettled_spec lost holds
  rw [ht] at hexec
  have hsub : [R.STO_DIE_STAT d] ⊆ [R.STO_DIE_STAT d, R.STO_STAT, R.STO_FREE, R.STO_MEDIA_ERR_CNT] :=
    List.subset_append_left [_] [_, _, _]
  have hfind (n : Nat) : Map.find t.sto.sbs n = (Map.find (s.hurtClosed d).sto.sbs n).map fun b => b.hurt d := by
    rw [hsbs, hmsto]
    exact Map.find_mapVals (fun _ b => b.hurt d) (s.hurtClosed d).sto.sbs n
  refine ⟨t, hexec, by rw [hfailed, hmsto], (hregs.fld hnot).trans hfld, ?_,
    OnlyRegs.trans (honly.mono hsub) (hregs.mono (List.subset_cons_self ..)), fun n b hb hd => ?_, fun n h => ?_⟩
  · rw [hq, hmqueue]
    exact List.mem_append_left _ (List.mem_append_right _ (.head _))
  · rw [hfind, hhurt n b hb hd, Option.map_some, Superblock.hurt_closed hd]
  · rw [hfind, hother n h]
    cases hb : Map.find s.sto.sbs n with
    | none => rfl
    | some b => rw [Option.map_some, Superblock.hurt_other (h (n, b) (Map.mem_of_find hb) rfl)]

/-! ### Writes that wait too long, and scrub reads (R311, R316) -/

theorem exec_throttleTimeout_none {s : State} (h : ∀ w ∈ s.sto.writes, s.now < w.since + s.fld F.STO_THROTTLE.MAX_MS) :
    exec .throttleTimeout s = .next s := by
  have hdue : ∀ w ∈ s.sto.writes, decide (w.since + s.fld F.STO_THROTTLE.MAX_MS ≤ s.now) = false := fun w hw => by
    have := h w hw
    exact decide_eq_false (by omega)
  have hgone : (s.sto.writes.filter fun w => decide (w.since + s.fld F.STO_THROTTLE.MAX_MS ≤ s.now)) = [] :=
    List.filter_eq_nil_iff.mpr fun w hw => by rw [hdue w hw]; decide
  have hkept : (s.sto.writes.filter fun w => !decide (w.since + s.fld F.STO_THROTTLE.MAX_MS ≤ s.now)) = s.sto.writes :=
    List.filter_eq_self.mpr fun w hw => by rw [hdue w hw]; rfl
  show execThrottleTimeout s = _
  unfold execThrottleTimeout
  dsimp only
  rw [hgone, hkept, List.foldl_nil]

theorem exec_throttleTimeout_one {w : BulkWait} {s : State} (hs : Inv s) (hw : s.sto.writes = [w])
    (h : w.since + s.fld F.STO_THROTTLE.MAX_MS ≤ s.now) :
    ∃ u, Counted F.STO_THROTTLE_CNT.COUNT { s with sto := { s.sto with writes := [] } } u ∧
      exec .throttleTimeout s = .next (u.endItem w.slot w.item Cause.THROTTLED) := by
  refine ⟨_, counted_bump (s := { s with sto := { s.sto with writes := [] } }) hs readRefs_ok.2.2.2.2, ?_⟩
  have hgone : (s.sto.writes.filter fun w => decide (w.since + s.fld F.STO_THROTTLE.MAX_MS ≤ s.now)) = [w] := by
    rw [hw]
    exact List.filter_eq_self.mpr fun x hx => by rw [List.mem_singleton.mp hx]; exact decide_eq_true h
  have hkept : (s.sto.writes.filter fun w => !decide (w.since + s.fld F.STO_THROTTLE.MAX_MS ≤ s.now)) = [] := by
    rw [hw]
    exact List.filter_eq_nil_iff.mpr fun x hx => by rw [List.mem_singleton.mp hx, decide_eq_true h]; decide
  show execThrottleTimeout s = _
  unfold execThrottleTimeout
  dsimp only
  rw [hgone, hkept, List.foldl_cons, List.foldl_nil, State.throttled]

theorem exec_scrub_eq {sb k bits : Nat} {b : Superblock} {s : State} (hb : Map.find s.sto.sbs sb = some b) (hk : k < b.pages.length) :
    exec (.scrub sb k bits) s = .next (if s.fld F.STO_SCRUB.THR_PCT * 72 ≤ bits * 100 ∧ k ∉ b.refresh then
      s.setSb sb { b with refresh := b.refresh ++ [k] } else s) := by
  show execScrub sb k bits s = _
  unfold execScrub
  rw [hb]
  have hiff : (k < b.pages.length ∧ s.fld F.STO_SCRUB.THR_PCT * 72 ≤ bits * 100 ∧ (!b.refresh.contains k) = true) ↔
      s.fld F.STO_SCRUB.THR_PCT * 72 ≤ bits * 100 ∧ k ∉ b.refresh := by
    rw [Bool.not_eq_true', ← Bool.not_eq_true, List.contains_iff_mem]
    exact and_iff_right hk
  exact congrArg Host.Outcome.next (if_congr hiff rfl rfl)

/-- Settles O46: the journal, folding and collection, erases, reads, programs, dies, waiting writes and scrub reads, each by the
lemmas on its command. -/
theorem storageKeepsItsMapAndItsMedia : Obligations.StorageKeepsItsMapAndItsMedia := by
  unfold Obligations.StorageKeepsItsMapAndItsMedia
  refine ⟨fun s h => exec_journalCommit_none (State.readyRecords_early h),
    fun l seq new s hs hl hne hseq hnew => exec_journalCommit_spec l seq new s hs hl hne hseq hnew,
    fun d b n s => ⟨rfl, fun x => State.committed_release⟩, exec_mapCheckpoint_eq,
    fun p s hp => ⟨fun h => ?_, fun e h he => ?_, fun n f b hb hopen hrel => State.moveOut_empty f hb hopen hrel,
      exec_collectionJob_none hp, fun n pick b => exec_collectionJob_some hp⟩,
    fun d b s h => ⟨exec_blockEraseDone_spec h, exec_eraseFail_spec h⟩,
    fun p n s hs hp hn => ⟨State.judgeReadonly_same hp hn, State.judgeReadonly_falls_spec hp hn hs⟩,
    fun d b s => exec_erase_other,
    fun sb k n b g s hs hb hg hd => ⟨exec_pageRead_decoded hb hg hd hs, exec_pageRead_rebuilt hb hg hd hs,
      exec_pageRead_fetched hb hg hd, fun q => exec_pageRead_lost hb hg hd hs⟩,
    fun sb p b g s => exec_programFail_spec, fun d p s hs hp hd => ⟨exec_dieFail_known hp, exec_dieFail_spec hs hp hd⟩,
    fun who d s => exec_stoDieCtlFail_spec, fun s => exec_throttleTimeout_none, fun w s => exec_throttleTimeout_one,
    fun sb k bits b s => exec_scrub_eq⟩
  · rw [exec_foldBlock_eq hp, if_neg (by omega)]
  · rw [exec_foldBlock_eq hp, if_pos h, he]

end Sys2Proof.Machine

/-! The pair's state and its registers together (R385 to R408). -/

namespace Sys2Proof.Machine

set_option Elab.async false

/-! ### The state of the pair, and the fields that show it -/

/-- The state of the pair replaced, and fields set in order. -/
def State.paired (s : State) (q : PairState) (l : List (FieldRef × Nat)) : State :=
  { s with regs := s.regs.setFields l, pair := q }

section
variable (s : State) (q r : PairState) (l k : List (FieldRef × Nat))

theorem State.paired_regs : (s.paired q l).regs = s.regs.setFields l := rfl

theorem State.paired_pair : (s.paired q l).pair = q := rfl

theorem State.paired_evt : (s.paired q l).evt = s.evt := rfl

theorem State.paired_frame : s.paired q l = { s with regs := (s.paired q l).regs, pair := (s.paired q l).pair } := rfl

theorem State.paired_paired : (s.paired q l).paired r k = s.paired r (l ++ k) := by
  rw [State.paired, State.paired_regs, ← RegFile.setFields_append]
  rfl

theorem State.paired_fieldsSet : (s.paired q l).fieldsSet k = s.paired q (l ++ k) := by
  rw [State.fieldsSet, State.paired_regs, ← RegFile.setFields_append]
  rfl

theorem State.paired_one (f : FieldRef) (v : Nat) : ({ s with pair := q } : State).setF f v = s.paired q [(f, v)] := rfl

theorem State.paired_two (f g : FieldRef) (v w : Nat) :
    (({ s with pair := q } : State).setF f v).setF g w = s.paired q [(f, v), (g, w)] := rfl

theorem State.paired_shown (f g : FieldRef) (v : Nat) (b : Bool) :
    (({ s with pair := q } : State).setF f v).flag g b = s.paired q [(f, v), (g, if b then 1 else 0)] := rfl

theorem State.paired_onlyRegs {L : List Nat} (h : ∀ e ∈ l, e.1.addr ∈ L) : OnlyRegs L s (s.paired q l) :=
  State.onlyRegs_of_setFields (s.paired_regs q l) h

variable {s q l}

theorem State.fld_paired (hs : Inv s) {L : List FieldRef} (hL : fieldsApart L = true) (hl : l.map Prod.fst = L) {f : FieldRef}
    {v : Nat} (hf : (f, v) ∈ l) : (s.paired q l).fld f = v % 2 ^ (f.hi - f.lo + 1) :=
  State.fld_of_setFields (s.paired_regs q l) hs hL hl hf

theorem State.fld_paired_other (hs : Inv s) {f : FieldRef} {L : List FieldRef} (hL : fieldsApart (f :: L) = true)
    (hl : l.map Prod.fst = L) : (s.paired q l).fld f = s.fld f :=
  State.fld_of_setFields_other (s.paired_regs q l) hs hL hl

end

/-! ### What is withheld (R398) -/

/-- What is released leaves the registers, the pair and the events alone. -/
theorem State.releaseOne_frame (sends : Bool) (s : State) (o : Output) :
    s.releaseOne sends o = { s with ing := (s.releaseOne sends o).ing, out := (s.releaseOne sends o).out } := by
  unfold State.releaseOne
  split
  · rfl
  · split <;> rfl

theorem State.releaseList_frame (sends : Bool) (l : List (Nat × Output)) : ∀ s : State, ∃ t,
    l.foldl (fun (t : State) e => t.releaseOne sends e.2) s = t ∧ t = { s with ing := t.ing, out := t.out } := by
  induction l with
  | nil => exact fun s => ⟨s, rfl, rfl⟩
  | cons e l ih =>
    intro s
    obtain ⟨t, ht, hframe⟩ := ih (s.releaseOne sends e.2)
    have h := congrArg (fun z : State => ({ z with ing := t.ing, out := t.out } : State)) (s.releaseOne_frame sends e.2)
    exact ⟨t, ht, hframe.trans h⟩

/-- What a release changes. -/
theorem State.releaseThose_spec (s : State) (sends : Bool) (go : Nat → Bool) : ∃ t, s.releaseThose sends go = t ∧
    t.pair = { s.pair with held := s.pair.held.filter fun e => !go e.1 } ∧
    t = { s with pair := t.pair, ing := t.ing, out := t.out } := by
  obtain ⟨t, ht, hframe⟩ := State.releaseList_frame sends (s.pair.held.filter fun e => go e.1)
    { s with pair := { s.pair with held := s.pair.held.filter fun e => !go e.1 } }
  have hpair : t.pair = { s.pair with held := s.pair.held.filter fun e => !go e.1 } := (congrArg State.pair hframe :)
  refine ⟨t, ht, hpair, ?_⟩
  rw [hpair]
  exact hframe

theorem PairState.held_nil {q : PairState} (h : q.held = []) : { q with held := [] } = q := by rw [← h]

/-- Where nothing is withheld, a release changes nothing. -/
theorem State.releaseThose_nil {s : State} (h : s.pair.held = []) (sends : Bool) (go : Nat → Bool) : s.releaseThose sends go = s := by
  unfold State.releaseThose
  rw [h, List.filter_nil, List.filter_nil, List.foldl_nil, PairState.held_nil h]

/-! ### Roles and synchronisation -/

section
variable (s : State)

theorem State.becomeActive_eq (takeover : Bool) : s.becomeActive takeover = s.paired
    { s.pair with actOut := true, shared := true, byTakeover := takeover, missed := 0 } [(F.PAIR_STAT.ROLE, 2)] :=
  State.paired_one ..

theorem State.startResync_eq : s.startResync = s.paired
    { s.pair with resync := none, stored := [], mismatch := none, downAt := none }
    [(F.PAIR_STAT.SYNC, if s.linkUp then 1 else 0), (F.PAIR_STAT.PROTECTED, 0)] := State.paired_shown ..

theorem State.shownPaired (f g : FieldRef) (v : Nat) (b : Bool) (m : PairState → PairState) :
    ({ (s.setF f v).flag g b with pair := m ((s.setF f v).flag g b).pair } : State) =
      s.paired (m s.pair) [(f, v), (g, if b then 1 else 0)] := rfl

theorem State.outOfStep_eq (k : Nat) : s.outOfStep k = (s.paired { s.pair with mismatch := none }
    [(F.PAIR_STAT.SYNC, k), (F.PAIR_STAT.PROTECTED, 0)]).releaseThose (s.roleNow == 2) fun _ => true :=
  congrArg (fun t : State => t.releaseThose (s.roleNow == 2) fun _ => true)
    (State.shownPaired s F.PAIR_STAT.SYNC F.PAIR_STAT.PROTECTED k false fun q => { q with mismatch := none })

end

theorem roleRefs_apart : fieldsApart [F.PAIR_STAT.ROLE, F.PAIR_STAT.SYNC, F.PAIR_STAT.PROTECTED, F.PAIR_RESYNC_LEFT.MIB] = true ∧
    fieldsApart [F.PAIR_STAT.SYNC, F.PAIR_STAT.PROTECTED] = true ∧
    fieldsApart [F.PAIR_STAT.ROLE, F.PAIR_STAT.SYNC, F.PAIR_STAT.PROTECTED] = true ∧
    fieldsApart [F.PAIR_STAT.SYNC, F.PAIR_STAT.PROTECTED, F.PAIR_RESYNC_LEFT.MIB] = true ∧
    fieldsApart [F.PAIR_STAT.ROLE] = true := by decide +kernel

theorem switchRefs_apart : fieldsApart [F.PAIR_SWITCH_CNT.COUNT, F.PAIR_STAT.ROLE] = true ∧
    fieldsApart [F.PAIR_STAT.ROLE, F.PAIR_SWITCH_CNT.COUNT] = true := by decide +kernel

/-- A count raised is a field set. -/
theorem State.bump_eq_fieldsSet (s : State) (f : FieldRef) (n : Nat) :
    s.bump f n = s.fieldsSet [(f, min (s.fld f + n) (2 ^ (f.hi - f.lo + 1) - 1))] := rfl

/-- A standby that becomes active, with the switch counted. -/
theorem State.switched_spec {v : State} (hv : Inv v) : ∃ t, (v.becomeActive false).bump F.PAIR_SWITCH_CNT.COUNT = t ∧ t.roleNow = 2 ∧
        t.pair = { v.pair with actOut := true, shared := true, byTakeover := false, missed := 0 } ∧
        t.fld F.PAIR_SWITCH_CNT.COUNT = min (v.fld F.PAIR_SWITCH_CNT.COUNT + 1) (2 ^ 32 - 1) ∧
        OnlyRegs [R.PAIR_STAT, R.PAIR_SWITCH_CNT] v t ∧ t = { v with regs := t.regs, pair := t.pair } := by
  rw [v.becomeActive_eq false, State.bump_eq_fieldsSet,
    State.fld_paired_other hv switchRefs_apart.1 rfl, State.paired_fieldsSet]
  refine ⟨_, rfl, ?_, State.paired_pair .., ?_, State.paired_onlyRegs v _ _ ?_, State.paired_frame ..⟩
  · exact State.fld_paired hv switchRefs_apart.2 rfl (.head _)
  · exact (State.fld_paired hv switchRefs_apart.2 rfl (.tail _ (.head _))).trans (min_mod_two_pow _ 32)
  · simp [F.PAIR_STAT.ROLE, F.PAIR_SWITCH_CNT.COUNT]

/-! ### PAIR_CTL (R401, R387) -/

/-- PAIR_CTL, with its triggers RESYNC and LEAVE. -/
def pairCtlReg : RegSpec := ⟨R.PAIR_CTL, [], false, [triggerField 1, triggerField 0]⟩

theorem findReg_pairCtl : findReg R.PAIR_CTL = some pairCtlReg := by decide +kernel

section
variable {s : State} {who : Requester} (hs : Inv s) (hm : MayWrite s who R.PAIR_CTL)
include hs hm

theorem exec_resync_eq : exec (.resync who) s = .next (if s.roleNow = 1 then s.startResync.send (.regCause who R.PAIR_CTL Cause.OK)
    else s.send (.regCause who R.PAIR_CTL Cause.REG_RANGE)) := by
  have htrigger : s.trigger who R.PAIR_CTL 1 1 = if s.roleNow = 1 then (s.startResync, Cause.OK) else (s, Cause.REG_RANGE) := rfl
  refine congrArg Host.Outcome.next ((State.writeBit_of_trigger (bit := 1) findReg_pairCtl rfl firstCause_alone rfl
    (by decide) rfl hs hm).trans ?_)
  rw [enteredBit_of_local rfl, htrigger]
  split <;> rfl

theorem exec_leave_eq : exec (.leave who) s = .next (s.leaveService.send (.regCause who R.PAIR_CTL Cause.OK)) := by
  have htrigger : s.trigger who R.PAIR_CTL 0 1 = (s.leaveService, Cause.OK) := rfl
  refine congrArg Host.Outcome.next ((State.writeBit_of_trigger (bit := 0) findReg_pairCtl rfl firstCause_alone rfl
    (by decide) rfl hs hm).trans ?_)
  rw [enteredBit_of_local rfl, htrigger]

end

end Sys2Proof.Machine

/-! Ledger entries, digests, self-checks and resynchronisations (R389, R393, R394, R397 to R401). -/

namespace Sys2Proof.Machine

set_option Elab.async false

/-! ### Ledger entries (R393, R394, R406) -/

/-- An entry is acknowledged at once. -/
theorem ledgerAck_sent {e : LedgerEntry} {s u : State}
    (hu : u = ({ s with pair := { s.pair with entrySeen := true, missed := 0 } } : State).send (.ledgerAck e.pace)) :
    u = { s with pair := { s.pair with entrySeen := true, missed := 0 }, out := s.out ++ [.ledgerAck e.pace] } :=
  hu.trans (State.send_own _ rfl rfl rfl)

section
variable {e : LedgerEntry} {s : State}

theorem exec_ledgerEntry_dropped (h : s.linkUp = false ∨ e.crcOk = false ∨ s.roleNow ≠ 1 ∧ s.roleNow ≠ 2) :
    exec (.ledgerEntry e) s = .next s := by
  show execLedgerEntry e s = _
  unfold execLedgerEntry
  by_cases hl : (!s.linkUp || !e.crcOk) = true
  · rw [if_pos hl]
  · have hrole : s.roleNow ≠ 1 ∧ s.roleNow ≠ 2 := by
      rcases h with h | h | h
      · exact absurd (by rw [h]; rfl) hl
      · exact absurd (by rw [h, Bool.not_false, Bool.or_true]) hl
      · exact h
    rw [if_neg hl, if_neg hrole.2, if_pos hrole.1]

variable (hl : s.linkUp = true) (hc : e.crcOk = true)
include hl hc

theorem exec_ledgerEntry_forwarded (hr : s.roleNow = 2) : exec (.ledgerEntry e) s =
    .next (e.records.foldl (fun (t : State) r => (t.execRecord r).record r) s) := by
  show execLedgerEntry e s = _
  unfold execLedgerEntry
  rw [hl, hc, if_neg (by decide), if_pos hr]

variable {u : State} (hu : u = ({ s with pair := { s.pair with entrySeen := true, missed := 0 } } : State).send (.ledgerAck e.pace))
include hu

variable (hr : s.roleNow = 1)
include hr

theorem exec_ledgerEntry_standby : exec (.ledgerEntry e) s = .next (
    if s.syncNow = 1 then
      if ({ u with pair := { u.pair with stored := u.pair.stored ++ [e] } } : State).storedTooMuch then
        ({ u with pair := { u.pair with stored := u.pair.stored ++ [e] } } : State).startResync
      else { u with pair := { u.pair with stored := u.pair.stored ++ [e] } }
    else if s.syncNow = 2 ∧ s.pair.mismatch = none then
      if e.last then (((u.execEntry e).becomeActive false).bump F.PAIR_SWITCH_CNT.COUNT).releaseAll.resendNotices.endHandover
      else u.execEntry e
    else u) := by
  subst hu
  show execLedgerEntry e s = _
  unfold execLedgerEntry
  rw [hl, hc, if_neg (by decide), if_neg (by omega), if_neg (not_not.mpr hr)]
  split
  · rfl
  · split <;> rfl

theorem exec_ledgerEntry_stored {v : State} (hsync : s.syncNow = 1)
    (hv : v = { u with pair := { u.pair with stored := s.pair.stored ++ [e] } }) :
    exec (.ledgerEntry e) s = .next (if v.storedTooMuch = true then v.startResync else v) := by
  have hstored : u.pair.stored = s.pair.stored := by rw [ledgerAck_sent hu]
  rw [exec_ledgerEntry_standby hl hc hu hr, if_pos hsync, hstored, ← hv]

theorem exec_ledgerEntry_other (h : s.syncNow = 2 ∧ s.pair.mismatch.isSome = true ∨ s.syncNow ≠ 1 ∧ s.syncNow ≠ 2) :
    exec (.ledgerEntry e) s = .next u := by
  rw [exec_ledgerEntry_standby hl hc hu hr, if_neg (by omega), if_neg]
  rintro ⟨h2, hm⟩
  rcases h with ⟨-, h⟩ | ⟨-, h⟩
  · rw [hm] at h
    cases h
  · exact h h2

variable (hsync : s.syncNow = 2) (hm : s.pair.mismatch = none)
include hsync hm

theorem exec_ledgerEntry_executed (hlast : e.last = false) : exec (.ledgerEntry e) s = .next (u.execEntry e) := by
  rw [exec_ledgerEntry_standby hl hc hu hr, if_neg (by omega), if_pos ⟨hsync, hm⟩, hlast, if_neg (by decide)]

theorem exec_ledgerEntry_last (hlast : e.last = true) (hs : Inv s) : ∃ v t : State, v = u.execEntry e ∧
        exec (.ledgerEntry e) s = .next (t.releaseAll.resendNotices.endHandover) ∧ t.roleNow = 2 ∧
        t.pair = { v.pair with actOut := true, shared := true, byTakeover := false, missed := 0 } ∧
        t.fld F.PAIR_SWITCH_CNT.COUNT = min (v.fld F.PAIR_SWITCH_CNT.COUNT + 1) (2 ^ 32 - 1) ∧
        OnlyRegs [R.PAIR_STAT, R.PAIR_SWITCH_CNT] v t ∧ t = { v with regs := t.regs, pair := t.pair } := by
  have hui : Inv u := by
    rw [ledgerAck_sent hu]
    exact hs
  have hv : Inv (u.execEntry e) := (State.execEntry_keeps (Keeps.refl u) e).regs hui
  obtain ⟨t, ht, hspec⟩ := State.switched_spec hv
  refine ⟨_, t, rfl, ?_, hspec⟩
  rw [exec_ledgerEntry_standby hl hc hu hr, if_neg (by omega), if_pos ⟨hsync, hm⟩, hlast, if_pos rfl, ht]

end

/-- What each ledger record does to the member that executes it. -/
theorem State.execRecord_spec (f : IngestFrame) (c addr k : Nat) (m : Msg) (v mask : Word) (s : State) :
    (f.type ≠ 0x23 → f.type ≠ 0x24 →
      s.execRecord (.frame f) = { s with ing := { s.ing with frames := s.ing.frames ++ [f] } }) ∧
    (∀ l x, s.execRecord (.samples l x) = { s with pair := { s.pair with samples := s.pair.samples ++ [(l, x)] } }) ∧
    (∀ n, s.execRecord (.random n k) = { s with pair := { s.pair with randoms := s.pair.randoms ++ [k] } }) ∧
    (∀ x θ, s.execRecord (.time x θ) = if s.sourceOn x then s.timeSample x θ else s) ∧
    s.execRecord (.arbiterSeed v) = { s with
      que := { s.que with seed := some v }, regs := s.regs.put R.ARB_SEED v } ∧
    s.execRecord .split = { s with pair := { s.pair with split := if s.roleNow = 2 then 3 else 1 } } ∧
    s.execRecord (.waybill k m) = { s with host := { s.host with
      inbox := s.host.inbox ++ [{ m with here := s.memberNo == some k }] } } ∧
    s.execRecord (.regWrite c addr v mask) = (s.writeReg (.context c) addr v mask).1 ∧
    s.execRecord (.warpApply k) = { s with warp := { s.warp with sched := some k } } ∧
    s.execRecord .handover = s ∧ s.execRecord .resyncMark = s := by
  refine ⟨fun h1 h2 => ?_, fun _ _ => rfl, fun _ => rfl, fun _ _ => rfl, rfl, rfl, rfl, rfl, rfl, rfl, rfl⟩
  exact (if_neg h1).trans (if_neg h2)

/-! ### Digests (R397, R399) -/

section
variable {p : Nat} {own : BitVec 64} {d : Option (BitVec 64)} {s : State}

theorem exec_digestCompare_idle (h : (s.syncNow = 2 ∧ s.pair.mismatch.isSome = true) ∨
    (s.syncNow ≠ 2 ∧ (s.syncNow ≠ 1 ∨ d ≠ some own))) : exec (.digestCompare p own d) s = .next s := by
  show execDigestCompare p own d s = _
  unfold execDigestCompare
  by_cases hr : s.roleNow ≠ 1 ∧ s.roleNow ≠ 2
  · rw [if_pos hr]
  · rw [if_neg hr, if_neg, if_neg]
    · rintro ⟨h1, -, -, hd, -⟩
      rcases h with ⟨h2, -⟩ | ⟨-, h | h⟩
      · omega
      · exact h h1
      · exact h hd
    · rintro ⟨h2, hm⟩
      rcases h with ⟨-, h⟩ | ⟨h, -⟩
      · rw [hm] at h
        cases h
      · exact h h2

variable (hr : s.roleNow = 1 ∨ s.roleNow = 2)
include hr

theorem exec_digestCompare_matched (h2 : s.syncNow = 2) (hm : s.pair.mismatch = none) {u : State}
    (hu : u = { s with pair := { s.pair with
      inputs := s.pair.inputs.filter (fun e => decide (p ≤ e.1))
      ownSamples := s.pair.ownSamples.filter (fun e => decide (p ≤ e.1)), matched := some p } }) :
    exec (.digestCompare p own (some own)) s = .next (u.releaseThose (s.roleNow == 2) fun q => decide (q ≤ p)) := by
  subst hu
  show execDigestCompare p own (some own) s = _
  unfold execDigestCompare
  rw [if_neg (by omega), if_pos ⟨h2, hm⟩, if_pos rfl]
  rfl

theorem exec_digestCompare_caughtUp (h1 : s.syncNow = 1) (hstored : s.pair.stored = []) (hleft : s.fld F.PAIR_RESYNC_LEFT.MIB = 0)
    (hl : s.linkUp = true) : exec (.digestCompare p own (some own)) s =
      .next ({ s with pair := { s.pair with matched := some p } } : State).inStep := by
  show execDigestCompare p own (some own) s = _
  unfold execDigestCompare
  rw [if_neg (by omega), if_neg (by omega), if_pos ⟨h1, by rw [hstored]; rfl, hleft, rfl, hl⟩]

/-- A pace whose digests differ, with the fields that show it and the event that records it. -/
def State.mismatched (s : State) (p : Nat) (f g h : FieldRef) (c : Nat) (l : Payload) : State :=
  ({ ((s.bump f).post c l).setF g 4 with
    pair := { (((s.bump f).post c l).setF g 4).pair with mismatch := some p } } : State).flag h false

omit hr in
theorem State.mismatched_eq (s : State) (p : Nat) (f g h : FieldRef) (c : Nat) (l : Payload) : s.mismatched p f g h c l =
    (s.post c l).paired { s.pair with mismatch := some p }
      [(f, min (s.fld f + 1) (2 ^ (f.hi - f.lo + 1) - 1)), (g, 4), (h, 0)] := rfl

theorem exec_digestCompare_differs (h2 : s.syncNow = 2) (hm : s.pair.mismatch = none) (hd : d ≠ some own) :
    exec (.digestCompare p own d) s = .next (s.mismatched p F.PAIR_MISMATCH_CNT.COUNT F.PAIR_STAT.SYNC F.PAIR_STAT.PROTECTED
      Ev.PAIR_MISMATCH [b8 p]) := by
  show execDigestCompare p own d s = _
  unfold execDigestCompare
  rw [if_neg (by omega), if_pos ⟨h2, hm⟩, if_neg hd]
  rfl

end

theorem mismatchRefs_apart : fieldsApart [F.PAIR_MISMATCH_CNT.COUNT, F.PAIR_STAT.SYNC, F.PAIR_STAT.PROTECTED] = true ∧
    fieldsApart [F.PAIR_STAT.ROLE, F.PAIR_MISMATCH_CNT.COUNT, F.PAIR_STAT.SYNC, F.PAIR_STAT.PROTECTED] = true := by decide +kernel

/-- A mismatch is counted and recorded. -/
theorem State.mismatched_spec {s : State} (hs : Inv s) (p : Nat) : ∃ t,
    s.mismatched p F.PAIR_MISMATCH_CNT.COUNT F.PAIR_STAT.SYNC F.PAIR_STAT.PROTECTED Ev.PAIR_MISMATCH [b8 p] = t ∧
        t.syncNow = 4 ∧ t.fld F.PAIR_STAT.PROTECTED = 0 ∧ t.roleNow = s.roleNow ∧
        t.fld F.PAIR_MISMATCH_CNT.COUNT = min (s.fld F.PAIR_MISMATCH_CNT.COUNT + 1) (2 ^ 32 - 1) ∧
        t.pair = { s.pair with mismatch := some p } ∧ OnlyRegs [R.PAIR_STAT, R.PAIR_MISMATCH_CNT] s t ∧
        t = { s.post Ev.PAIR_MISMATCH [b8 p] with regs := t.regs, pair := t.pair } := by
  obtain ⟨hL, hrole⟩ := mismatchRefs_apart
  rw [State.mismatched_eq]
  have hv : Inv (s.post Ev.PAIR_MISMATCH [b8 p]) := hs
  have hregs : OnlyRegs [R.PAIR_STAT, R.PAIR_MISMATCH_CNT] s (s.post Ev.PAIR_MISMATCH [b8 p]) := (OnlyRegs.refl _ s).post _ _
  have hfrole : (s.post Ev.PAIR_MISMATCH [b8 p]).fld F.PAIR_STAT.ROLE = s.fld F.PAIR_STAT.ROLE := rfl
  generalize s.post Ev.PAIR_MISMATCH [b8 p] = v at hv hregs hfrole
  refine ⟨_, rfl, State.fld_paired hv hL rfl (.tail _ (.head _)), State.fld_paired hv hL rfl (.tail _ (.tail _ (.head _))),
    (State.fld_paired_other hv hrole rfl).trans hfrole, (State.fld_paired hv hL rfl (.head _)).trans (min_mod_two_pow _ 32),
    State.paired_pair .., OnlyRegs.trans hregs (State.paired_onlyRegs v _ _ ?_), State.paired_frame ..⟩
  simp [F.PAIR_MISMATCH_CNT.COUNT, F.PAIR_STAT.SYNC, F.PAIR_STAT.PROTECTED]

/-! ### A pair that comes into step (R401) -/

/-- A pair in step, with the fields that show it. -/
def State.stepped (s : State) : State := s.paired { s.pair with resync := none, mismatch := none }
  [(F.PAIR_STAT.SYNC, 2), (F.PAIR_STAT.PROTECTED, 1), (F.PAIR_RESYNC_LEFT.MIB, 0)]

theorem State.stepped_fields (s : State) (f g h : FieldRef) (m : PairState → PairState) :
    ({ ((s.setF f 2).flag g true).setF h 0 with pair := m (((s.setF f 2).flag g true).setF h 0).pair } : State) =
      s.paired (m s.pair) [(f, 2), (g, 1), (h, 0)] := rfl

theorem State.inStep_eq {s : State} (h : s.roleNow = 1 ∨ s.pair.split ≠ 1) : s.inStep =
    if s.roleNow = 1 then s.stepped.post Ev.PAIR_RESYNC [b8 (match s.pair.resync with | some r => r.2 | none => 0 : Nat)]
    else s.stepped := by
  unfold State.inStep State.stepped
  rw [← State.stepped_fields s F.PAIR_STAT.SYNC F.PAIR_STAT.PROTECTED F.PAIR_RESYNC_LEFT.MIB fun q =>
    { q with resync := none, mismatch := none }]
  by_cases hr : s.roleNow = 1
  · rw [if_pos hr, if_pos hr] <;> rfl
  · rw [if_neg hr, if_neg hr]
    exact if_neg (h.resolve_left hr)

/-- The pair in step. -/
theorem State.stepped_spec {s : State} (hs : Inv s) : ∃ t, s.stepped = t ∧ t.syncNow = 2 ∧ t.fld F.PAIR_STAT.PROTECTED = 1 ∧
    t.fld F.PAIR_RESYNC_LEFT.MIB = 0 ∧ t.pair = { s.pair with resync := none, mismatch := none } ∧ t.roleNow = s.roleNow ∧
    OnlyRegs [R.PAIR_STAT, R.PAIR_RESYNC_LEFT] s t ∧ t = { s with regs := t.regs, pair := t.pair } ∧ t.evt = s.evt := by
  obtain ⟨hrole, -, -, hL, -⟩ := roleRefs_apart
  refine ⟨_, rfl, State.fld_paired hs hL rfl (.head _), State.fld_paired hs hL rfl (.tail _ (.head _)),
    State.fld_paired hs hL rfl (.tail _ (.tail _ (.head _))), State.paired_pair .., State.fld_paired_other hs hrole rfl,
    State.paired_onlyRegs s _ _ ?_, State.paired_frame .., State.paired_evt ..⟩
  simp [F.PAIR_STAT.SYNC, F.PAIR_STAT.PROTECTED, F.PAIR_RESYNC_LEFT.MIB]

theorem State.inStep_spec (s : State) (hs : Inv s) (hrole : s.roleNow = 1 ∨ s.pair.split ≠ 1) : ∃ t, s.inStep = t ∧
    t.syncNow = 2 ∧ t.fld F.PAIR_STAT.PROTECTED = 1 ∧ t.fld F.PAIR_RESYNC_LEFT.MIB = 0 ∧ t.pair.resync = none ∧
    t.pair.mismatch = none ∧ t.roleNow = s.roleNow ∧ t.evt.queue = s.evt.queue ++ (if s.roleNow = 1 then
      [mkPost s Ev.PAIR_RESYNC [b8 (match s.pair.resync with | some r => r.2 | none => 0 : Nat)]] else []) ∧
    OnlyRegs [R.PAIR_STAT, R.PAIR_RESYNC_LEFT] s t ∧
    t = { s with regs := t.regs, pair := { s.pair with resync := none, mismatch := none }, evt := t.evt } := by
  rw [State.inStep_eq hrole]
  obtain ⟨v, hv, h2, hprot, hmib, hpair, hvrole, hregs, hframe, hevt⟩ := State.stepped_spec hs
  rw [hv]
  have hres : v.pair.resync = none := by rw [hpair]
  have hmis : v.pair.mismatch = none := by rw [hpair]
  rw [hpair] at hframe
  by_cases hr : s.roleNow = 1
  · rw [if_pos hr, if_pos hr]
    generalize hl : [b8 (match s.pair.resync with | some r => r.2 | none => 0 : Nat)] = l
    refine ⟨_, rfl, h2, hprot, hmib, hres, hmis, hvrole, ?_, hregs.post _ _, ?_⟩
    · rw [State.post_evt, hevt, mkPost_congr ⟨s.evt.queue, hevt⟩]
    · exact congrArg (fun z : State => ({ z with evt := (v.post Ev.PAIR_RESYNC l).evt } : State)) hframe
  · rw [if_neg hr, if_neg hr]
    refine ⟨_, rfl, h2, hprot, hmib, hres, hmis, hvrole, by rw [hevt, List.append_nil], hregs, ?_⟩
    rw [hevt]
    exact hframe

end Sys2Proof.Machine

/-! Self-checks, common checkpoints and resynchronisations, and the statement of the pair in step (R399 to R401). -/

namespace Sys2Proof.Machine

set_option Elab.async false

/-! ### Self-checks (R399, R438) -/

theorem selfCheckRefs_apart : fieldsApart [F.PAIR_SELFCHECK.OWN, F.PAIR_SELFCHECK.PARTNER, F.PAIR_SELFCHECK.FAILED] = true ∧
    fieldsApart [F.PAIR_SWITCH_CNT.COUNT, F.PAIR_SELFCHECK.OWN, F.PAIR_SELFCHECK.PARTNER, F.PAIR_SELFCHECK.FAILED] = true := by
  decide +kernel

theorem State.fieldsSet_three (s : State) (f g h : FieldRef) (v w x : Nat) :
    ({ s with regs := ((s.regs.setF f v).setF g w).setF h x } : State) = s.fieldsSet [(f, v), (g, w), (h, x)] := rfl

/-- The results of a self-check of both members, shown. -/
def State.checked (s : State) (failed : BitVec 4) (q : CheckResult) : State := s.fieldsSet
  [(F.PAIR_SELFCHECK.OWN, if failed = 0 then 1 else 2), (F.PAIR_SELFCHECK.PARTNER, q.code), (F.PAIR_SELFCHECK.FAILED, failed.toNat)]

theorem CheckResult.code_lt (q : CheckResult) : q.code < 4 := by cases q <;> decide

section
variable {s : State} (hs : Inv s) (failed : BitVec 4) (q : CheckResult)
include hs

theorem State.checked_own : (s.checked failed q).fld F.PAIR_SELFCHECK.OWN = if failed = 0 then 1 else 2 := by
  refine (State.fld_fieldsSet hs selfCheckRefs_apart.1 rfl (.head _)).trans (Nat.mod_eq_of_lt ?_)
  have hwidth : F.PAIR_SELFCHECK.OWN.hi - F.PAIR_SELFCHECK.OWN.lo + 1 = 2 := rfl
  rw [hwidth]
  split <;> decide

theorem State.checked_partner : (s.checked failed q).fld F.PAIR_SELFCHECK.PARTNER = q.code :=
  (State.fld_fieldsSet hs selfCheckRefs_apart.1 rfl (.tail _ (.head _))).trans (Nat.mod_eq_of_lt q.code_lt)

theorem State.checked_failed : (s.checked failed q).fld F.PAIR_SELFCHECK.FAILED = failed.toNat :=
  (State.fld_fieldsSet hs selfCheckRefs_apart.1 rfl (.tail _ (.tail _ (.head _)))).trans (Nat.mod_eq_of_lt failed.isLt)

theorem State.checked_switches : (s.checked failed q).fld F.PAIR_SWITCH_CNT.COUNT = s.fld F.PAIR_SWITCH_CNT.COUNT :=
  State.fld_of_setFields_other (s.fieldsSet_regs _) hs selfCheckRefs_apart.2 rfl

theorem State.checked_inv : Inv (s.checked failed q) := State.inv_of_setFields (s.fieldsSet_regs _) hs

end

theorem State.checked_onlyRegs (s : State) (failed : BitVec 4) (q : CheckResult) :
    OnlyRegs [R.PAIR_SELFCHECK] s (s.checked failed q) := by
  refine State.fieldsSet_onlyRegs s _ ?_
  simp [F.PAIR_SELFCHECK.OWN, F.PAIR_SELFCHECK.PARTNER, F.PAIR_SELFCHECK.FAILED]

/-- What the results of the self-checks decide. -/
def State.checkDecides (v : State) (failed : BitVec 4) (q : CheckResult) (role : Nat) : State :=
  if role = 2 then
    if failed ≠ 0 ∧ q = .pass then
      (({ v with pair := { v.pair with held := [] } } : State).setF F.PAIR_STAT.SYNC 2).handoverPair.failsCheck
    else v.outOfStep (if q = .pass then 1 else 0)
  else if failed ≠ 0 then v.failsCheck
  else if q = .pass then v.startResync
  else (v.releaseAll.becomeActive false).outOfStep 0 |>.bump F.PAIR_SWITCH_CNT.COUNT

theorem exec_selfCheckResult_idle {failed : BitVec 4} {q : CheckResult} {s : State} (h : s.syncNow ≠ 4) :
    exec (.selfCheckResult failed q) s = .next s := if_pos h

/-- The cases of a decision, with the tests as the model writes them. -/
theorem checkDecides_cases (failed : BitVec 4) (q : CheckResult) (role : Nat) (a b c d : State) (f : Nat → State) :
    (if role = 2 then
      if !(failed == 0) && decide (q = .pass) then Host.Outcome.next a
      else .next (f (if decide (q = .pass) = true then 1 else 0))
    else if (failed == 0) && !decide (q = .pass) then .next b
    else if (failed == 0) then .next c
    else .next d : Host.Outcome State Fault Refusal) = .next (
      if role = 2 then if failed ≠ 0 ∧ q = .pass then a else f (if q = .pass then 1 else 0)
      else if failed ≠ 0 then d else if q = .pass then c else b) := by
  by_cases hr : role = 2 <;> by_cases hf : failed = 0#4 <;> by_cases hq : q = .pass <;> simp [hr, hf, hq]

theorem exec_selfCheckResult_eq {failed : BitVec 4} {q : CheckResult} {s : State} (h : s.syncNow = 4) :
    exec (.selfCheckResult failed q) s = .next ((s.checked failed q).checkDecides failed q s.roleNow) := by
  have hown : (if failed = 0 then CheckResult.pass else CheckResult.fail).code = if failed = 0 then 1 else 2 := by
    split <;> rfl
  rw [State.checked, ← hown, ← State.fieldsSet_three, State.checkDecides, ← checkDecides_cases]
  exact if_neg (not_not.mpr h)

/-- The standby that alone passes its self-check takes over. -/
theorem State.takesOver_spec {u : State} (hu : Inv u) (hheld : u.pair.held = []) : ∃ t,
    ((u.becomeActive false).outOfStep 0 |>.bump F.PAIR_SWITCH_CNT.COUNT) = t ∧ t.roleNow = 2 ∧ t.syncNow = 0 ∧
    t.fld F.PAIR_STAT.PROTECTED = 0 ∧ t.pair = { u.pair with
      actOut := true, shared := true, byTakeover := false, missed := 0, mismatch := none } ∧
    t.fld F.PAIR_SWITCH_CNT.COUNT = min (u.fld F.PAIR_SWITCH_CNT.COUNT + 1) (2 ^ 32 - 1) ∧
    OnlyRegs [R.PAIR_STAT, R.PAIR_SWITCH_CNT] u t ∧ t = { u with regs := t.regs, pair := t.pair } := by
  have hL : fieldsApart [F.PAIR_STAT.ROLE, F.PAIR_STAT.SYNC, F.PAIR_STAT.PROTECTED, F.PAIR_SWITCH_CNT.COUNT] = true := by
    decide +kernel
  have hother : fieldsApart [F.PAIR_SWITCH_CNT.COUNT, F.PAIR_STAT.ROLE, F.PAIR_STAT.SYNC, F.PAIR_STAT.PROTECTED] = true := by
    decide +kernel
  rw [State.becomeActive_eq, State.outOfStep_eq, State.paired_pair, State.paired_paired, State.releaseThose_nil (by
    rw [State.paired_pair]; exact hheld), State.bump_eq_fieldsSet, State.fld_paired_other hu hother rfl, State.paired_fieldsSet]
  refine ⟨_, rfl, State.fld_paired hu hL rfl (.head _), State.fld_paired hu hL rfl (.tail _ (.head _)),
    State.fld_paired hu hL rfl (.tail _ (.tail _ (.head _))), State.paired_pair .., ?_, State.paired_onlyRegs u _ _ ?_,
    State.paired_frame ..⟩
  · exact (State.fld_paired hu hL rfl (.tail _ (.tail _ (.tail _ (.head _))))).trans (min_mod_two_pow _ 32)
  · simp [F.PAIR_STAT.ROLE, F.PAIR_STAT.SYNC, F.PAIR_STAT.PROTECTED, F.PAIR_SWITCH_CNT.COUNT]

/-- Once everything is released, nothing is withheld. -/
theorem State.releaseAll_spec (s : State) : s.releaseAll.regs = s.regs ∧ s.releaseAll.pair.held = [] := by
  obtain ⟨t, ht, hpair, hframe⟩ := State.releaseThose_spec s true fun _ => true
  unfold State.releaseAll
  rw [ht]
  refine ⟨(congrArg State.regs hframe :), ?_⟩
  rw [hpair]
  exact List.filter_eq_nil_iff.mpr fun _ _ => by simp

/-- What a self-check decides, and that it is shown. -/
theorem exec_selfCheckResult_spec (failed : BitVec 4) (q : CheckResult) {s : State} (hs : Inv s) (h4 : s.syncNow = 4) :
    ∃ v, v.fld F.PAIR_SELFCHECK.OWN = (if failed = 0 then 1 else 2) ∧
      v.fld F.PAIR_SELFCHECK.PARTNER = q.code ∧ v.fld F.PAIR_SELFCHECK.FAILED = failed.toNat ∧
      OnlyRegs [R.PAIR_SELFCHECK] s v ∧ v = { s with regs := v.regs } ∧
      (s.roleNow = 2 → q = .pass → failed = 0 → exec (.selfCheckResult failed q) s = .next (v.outOfStep 1)) ∧
      (s.roleNow = 2 → q ≠ .pass → exec (.selfCheckResult failed q) s = .next (v.outOfStep 0)) ∧
      (s.roleNow = 2 → q = .pass → failed ≠ 0 → exec (.selfCheckResult failed q) s =
        .next (({ v with pair := { v.pair with held := [] } } : State).setF F.PAIR_STAT.SYNC 2).handoverPair.failsCheck) ∧
      (s.roleNow ≠ 2 → q = .pass → failed = 0 → exec (.selfCheckResult failed q) s = .next v.startResync) ∧
      (s.roleNow ≠ 2 → failed ≠ 0 → exec (.selfCheckResult failed q) s = .next v.failsCheck) ∧
      (s.roleNow ≠ 2 → q ≠ .pass → failed = 0 → ∃ t u : State, exec (.selfCheckResult failed q) s = .next t ∧
        u = v.releaseAll ∧ t.roleNow = 2 ∧ t.syncNow = 0 ∧ t.fld F.PAIR_STAT.PROTECTED = 0 ∧ t.pair = { u.pair with
          actOut := true, shared := true, byTakeover := false, missed := 0, mismatch := none } ∧
        t.fld F.PAIR_SWITCH_CNT.COUNT = min (s.fld F.PAIR_SWITCH_CNT.COUNT + 1) (2 ^ 32 - 1) ∧
        OnlyRegs [R.PAIR_STAT, R.PAIR_SWITCH_CNT] u t ∧ t = { u with regs := t.regs, pair := t.pair }) := by
  rw [exec_selfCheckResult_eq h4]
  refine ⟨s.checked failed q, State.checked_own hs .., State.checked_partner hs .., State.checked_failed hs ..,
    State.checked_onlyRegs s failed q, State.fieldsSet_frame .., ?_, ?_, ?_, ?_, ?_, ?_⟩
  · intro hr hq hf
    rw [State.checkDecides, if_pos hr, if_neg fun h => h.1 hf, if_pos hq]
  · intro hr hq
    rw [State.checkDecides, if_pos hr, if_neg fun h => hq h.2, if_neg hq]
  · intro hr hq hf
    rw [State.checkDecides, if_pos hr, if_pos ⟨hf, hq⟩]
  · intro hr hq hf
    rw [State.checkDecides, if_neg hr, if_neg (not_not.mpr hf), if_pos hq]
  · intro hr hf
    rw [State.checkDecides, if_neg hr, if_pos hf]
  · intro hr hq hf
    rw [State.checkDecides, if_neg hr, if_neg (not_not.mpr hf), if_neg hq]
    have hcount := State.checked_switches hs failed q
    have hv := State.checked_inv hs failed q
    generalize s.checked failed q = v at hcount hv
    obtain ⟨hregs, hheld⟩ := v.releaseAll_spec
    have hu : Inv v.releaseAll := by
      unfold Inv
      rw [hregs]
      exact hv
    obtain ⟨t, ht, hrole, hsync, hprot, hpair, hswitch, hrest⟩ := State.takesOver_spec hu hheld
    refine ⟨t, _, congrArg _ ht, rfl, hrole, hsync, hprot, hpair, ?_, hrest⟩
    rw [hswitch, State.fld, hregs, ← hcount, State.fld]

/-! ### Common checkpoints (R400) -/

section
variable {p : PairPlan} {s : State} (hp : s.pairPlan = some p)
include hp

theorem exec_commonCheckpoint_eq : exec .commonCheckpoint s = .next (
    if s.syncNow = 2 ∧ s.pair.mismatch = none ∧ ∀ c, s.pair.common = some c → c + p.ckptPaces ≤ s.now then
      s.paired { s.pair with common := some s.now } [(F.PAIR_COMMON_LO.PACE, s.now)] else s) := by
  show execCommonCheckpoint s = _
  unfold execCommonCheckpoint
  rw [hp, ← State.paired_one]
  cases s.pair.common <;> simp <;> split <;> rfl

theorem exec_commonCheckpoint_idle (h : s.syncNow ≠ 2 ∨ s.pair.mismatch.isSome = true ∨
    ∃ c, s.pair.common = some c ∧ s.now < c + p.ckptPaces) : exec .commonCheckpoint s = .next s := by
  rw [exec_commonCheckpoint_eq hp, if_neg]
  rintro ⟨h2, hm, hdue⟩
  rcases h with h | h | ⟨c, hc, hlt⟩
  · exact h h2
  · rw [hm] at h
    cases h
  · exact absurd (hdue c hc) (by omega)

theorem exec_commonCheckpoint_due (hs : Inv s) (h2 : s.syncNow = 2) (hm : s.pair.mismatch = none)
    (hdue : ∀ c, s.pair.common = some c → c + p.ckptPaces ≤ s.now) :
    ∃ t, exec .commonCheckpoint s = .next t ∧ t.pair = { s.pair with common := some s.now } ∧
        t.fld F.PAIR_COMMON_LO.PACE = s.now % 2 ^ 32 ∧ OnlyRegs [R.PAIR_COMMON_LO] s t ∧
        t = { s with regs := t.regs, pair := t.pair } := by
  have hL : fieldsApart [F.PAIR_COMMON_LO.PACE] = true := by decide +kernel
  rw [exec_commonCheckpoint_eq hp, if_pos ⟨h2, hm, hdue⟩]
  refine ⟨_, rfl, State.paired_pair .., State.fld_paired hs hL rfl (.head _), State.paired_onlyRegs s _ _ ?_, State.paired_frame ..⟩
  simp [F.PAIR_COMMON_LO.PACE]

end

/-! ### Resynchronisations (R389, R401) -/

/-- Where a resynchronisation stands once its first message has come: the standby takes the pace of the active. -/
def State.resyncTaken (s : State) (pace total : Nat) : State := if s.roleNow = 2 then s else s.resyncBegun pace total

theorem State.resyncTaken_frame (s : State) (pace total : Nat) :
    s.resyncTaken pace total = { s with pair := (s.resyncTaken pace total).pair, pace := (s.resyncTaken pace total).pace } := by
  unfold State.resyncTaken State.resyncBegun
  split
  · rfl
  · split <;> rfl

theorem State.resyncTaken_kept {s : State} (pace total : Nat) (h : s.roleNow = 2 ∨ s.pair.resync.isSome = true) :
    s.resyncTaken pace total = s := by
  unfold State.resyncTaken State.resyncBegun
  split
  · rfl
  · next hr =>
    obtain ⟨r, hres⟩ := Option.isSome_iff_exists.mp (h.resolve_left hr)
    rw [hres]

theorem State.resyncTaken_begun {s : State} (pace total : Nat) (hr : s.roleNow ≠ 2) (h : s.pair.resync = none) :
    s.resyncTaken pace total = { s with
      pair := { s.pair with resync := some (pace, total) }, pace := { s.pace with count := BitVec.ofNat 64 pace } } := by
  unfold State.resyncTaken State.resyncBegun
  rw [if_neg hr, h]

theorem State.fieldsSet_one (s : State) (f : FieldRef) (v : Nat) : s.setF f v = s.fieldsSet [(f, v)] := rfl

theorem State.fieldsSet_pair (s : State) (l : List (FieldRef × Nat)) :
    (s.fieldsSet l).pair = s.pair ∧ (s.fieldsSet l).pace = s.pace := ⟨rfl, rfl⟩

theorem State.fieldsSet_taken {s v : State} (h : v = { s with pair := v.pair, pace := v.pace }) (l : List (FieldRef × Nat)) :
    v.fieldsSet l = { s with regs := (v.fieldsSet l).regs, pair := (v.fieldsSet l).pair, pace := (v.fieldsSet l).pace } :=
  congrArg (fun z : State => ({ z with regs := v.regs.setFields l } : State)) h

theorem exec_resynchronisation_idle {pace total left : Nat} {ok : Bool} {s : State} (h : s.syncNow ≠ 1 ∨ s.linkUp = false) :
    exec (.resynchronisation pace total left ok) s = .next s := by
  show execResynchronisation pace total left ok s = _
  rw [execResynchronisation_eq, if_pos (h.imp_right fun h => by rw [h]; rfl)]

theorem exec_resynchronisation_spec (pace total left : Nat) (ok : Bool) {s : State} (hs : Inv s) (h1 : s.syncNow = 1)
    (hl : s.linkUp = true) : ∃ u, u.fld F.PAIR_RESYNC_LEFT.MIB = min 0xFFFFFFFF ((left + 1048575) / 1048576) ∧
      OnlyRegs [R.PAIR_RESYNC_LEFT] s u ∧ u = { s with regs := u.regs, pair := u.pair, pace := u.pace } ∧
      (s.roleNow = 2 ∨ s.pair.resync.isSome = true → u.pair = s.pair ∧ u.pace = s.pace) ∧
      (s.roleNow ≠ 2 → s.pair.resync = none → u.pair = { s.pair with resync := some (pace, total) } ∧
        u.pace = { s.pace with count := BitVec.ofNat 64 pace }) ∧
      (s.roleNow = 2 ∨ left ≠ 0 ∨ ok = false → exec (.resynchronisation pace total left ok) s = .next u) ∧
      (s.roleNow ≠ 2 → left = 0 → ok = true → exec (.resynchronisation pace total left ok) s =
        .next ((u.pair.stored.take 4).foldl State.execEntry
          { u with pair := { u.pair with stored := u.pair.stored.drop 4 } })) := by
  show ∃ u, _ ∧ _ ∧ _ ∧ _ ∧ _ ∧ (_ → execResynchronisation pace total left ok s = _) ∧ (_ → _ → _ →
    execResynchronisation pace total left ok s = _)
  have hL : fieldsApart [F.PAIR_RESYNC_LEFT.MIB] = true := by decide +kernel
  have hgo : ¬(s.syncNow ≠ 1 ∨ (!s.linkUp) = true) := by
    rw [hl]
    rintro (h | h)
    · exact h h1
    · cases h
  have hregs : (s.resyncTaken pace total).regs = s.regs := (congrArg State.regs (s.resyncTaken_frame pace total) :)
  have hset : ((s.resyncTaken pace total).fieldsSet [(F.PAIR_RESYNC_LEFT.MIB, leftMib left)]).regs =
      s.regs.setFields [(F.PAIR_RESYNC_LEFT.MIB, leftMib left)] := by rw [State.fieldsSet_regs, hregs]
  refine ⟨(s.resyncTaken pace total).fieldsSet [(F.PAIR_RESYNC_LEFT.MIB, leftMib left)], ?_,
    State.onlyRegs_of_setFields hset ?_, State.fieldsSet_taken (s.resyncTaken_frame pace total) _, ?_, ?_, ?_, ?_⟩
  · refine (State.fld_of_setFields hset hs hL rfl (.head _)).trans (Nat.mod_eq_of_lt ?_)
    exact (Nat.min_le_left ..).trans_lt (by decide)
  · simp [F.PAIR_RESYNC_LEFT.MIB]
  · intro h
    rw [State.resyncTaken_kept _ _ h]
    exact State.fieldsSet_pair s _
  · intro hr h
    rw [State.resyncTaken_begun _ _ hr h]
    exact ⟨rfl, rfl⟩
  · intro h
    rw [execResynchronisation_eq, if_neg hgo, State.resyncTaken]
    by_cases hr : s.roleNow = 2
    · rw [if_pos hr, if_pos hr, State.fieldsSet_one]
    · rw [if_neg hr, if_neg hr, if_pos ((h.resolve_left hr).imp_right fun h => by rw [h]; rfl), State.fieldsSet_one]
  · intro hr hleft hok
    rw [execResynchronisation_eq, if_neg hgo, State.resyncTaken, if_neg hr, if_neg hr, if_neg (by rw [hleft, hok]; decide),
      State.fieldsSet_one, State.execStored]

/-! ### RESYNC (R401) -/

theorem State.startResync_spec {s : State} (hs : Inv s) (hr : s.roleNow = 1) :
    s.startResync.syncNow = (if s.linkUp then 1 else 0) ∧ s.startResync.fld F.PAIR_STAT.PROTECTED = 0 ∧ s.startResync.roleNow = 1 ∧
    s.startResync.pair = { s.pair with resync := none, stored := [], mismatch := none, downAt := none } ∧
    OnlyRegs [R.PAIR_STAT] s s.startResync ∧ s.startResync = { s with regs := s.startResync.regs, pair := s.startResync.pair } := by
  obtain ⟨-, hL, hrole, -⟩ := roleRefs_apart
  rw [State.startResync_eq]
  refine ⟨(State.fld_paired hs hL rfl (.head _)).trans (Nat.mod_eq_of_lt ?_), State.fld_paired hs hL rfl (.tail _ (.head _)),
    (State.fld_paired_other hs hrole rfl).trans hr, State.paired_pair .., State.paired_onlyRegs s _ _ ?_, State.paired_frame ..⟩
  · have hwidth : 2 ^ (F.PAIR_STAT.SYNC.hi - F.PAIR_STAT.SYNC.lo + 1) = 8 := rfl
    rw [hwidth]
    split <;> decide
  · simp [F.PAIR_STAT.SYNC, F.PAIR_STAT.PROTECTED]

/-! ### The statement -/

/-- Settles O54: one lemma for each command of the pair in step, and for each state it passes through. -/
theorem ledgerAndDigestsKeepThePairInStep : Obligations.LedgerAndDigestsKeepThePairInStep := by
  refine ⟨fun e s u hu => ⟨exec_ledgerEntry_dropped, exec_ledgerEntry_forwarded, fun hl hc hr => ⟨?_, ?_, ?_, ?_, ?_⟩⟩,
    fun _ _ => rfl, State.execRecord_spec, fun p own s hr => ⟨fun h2 hm => ⟨?_, ?_⟩, ?_, ?_, ?_⟩,
    fun s hs _ => State.inStep_spec s hs, ?_, ?_, ?_, ?_⟩
  · rw [ledgerAck_sent hu]
  · exact fun v hsync hv => exec_ledgerEntry_stored hl hc hu hr hsync hv
  · exact exec_ledgerEntry_executed hl hc hu hr
  · exact exec_ledgerEntry_last hl hc hu hr
  · exact exec_ledgerEntry_other hl hc hu hr
  · exact fun u hu => exec_digestCompare_matched hr h2 hm hu
  · intro d hd hs
    obtain ⟨t, ht, h⟩ := State.mismatched_spec hs p
    exact ⟨t, (exec_digestCompare_differs hr h2 hm hd).trans (congrArg _ ht), h⟩
  · exact exec_digestCompare_caughtUp hr
  · exact fun d h2 hm => exec_digestCompare_idle (.inl ⟨h2, hm⟩)
  · exact fun d h2 h => exec_digestCompare_idle (.inr ⟨h2, h⟩)
  · intro failed q s hs
    refine ⟨exec_selfCheckResult_idle, exec_selfCheckResult_spec failed q hs, fun u hu => ?_⟩
    rw [hu]
    rfl
  · exact fun p s hs hp => ⟨exec_commonCheckpoint_idle hp, exec_commonCheckpoint_due hp hs⟩
  · exact fun pace total left ok s hs => ⟨exec_resynchronisation_idle, exec_resynchronisation_spec pace total left ok hs⟩
  · intro who s hs hm
    rw [exec_resync_eq hs hm]
    refine ⟨fun h => by rw [if_neg h], fun hr => ⟨s.startResync, by rw [if_pos hr], State.startResync_spec hs hr⟩⟩

end Sys2Proof.Machine

/-! The pair's link and what is withheld (R386, R389, R398). -/

namespace Sys2Proof.Machine

set_option Elab.async false

/-! ### What a release sends (R398) -/

/-- A body to a meter. -/
def meterBody : Output → Option (Nat × List Byte)
  | .envelope i b => some (i, b)
  | _ => none

/-- What leaves a port. -/
def portOutput : Output → Option Output
  | .envelope _ _ => none
  | o => some o

theorem State.releaseOne_eq (sends : Bool) (s : State) (o : Output) : s.releaseOne sends o = { s with
    ing := { s.ing with toMeter := s.ing.toMeter ++ (meterBody o).toList }
    out := s.out ++ if sends then (portOutput o).toList else [] } := by
  cases o <;> cases sends <;> simp [State.releaseOne, meterBody, portOutput]

theorem State.releaseList_eq (sends : Bool) (l : List (Nat × Output)) : ∀ s : State,
    l.foldl (fun (t : State) e => t.releaseOne sends e.2) s = { s with
      ing := { s.ing with toMeter := s.ing.toMeter ++ l.filterMap fun e => meterBody e.2 }
      out := s.out ++ if sends then l.filterMap fun e => portOutput e.2 else [] } := by
  induction l with
  | nil => intro s; cases sends <;> simp
  | cons e l ih =>
    intro s
    rw [List.foldl_cons, ih, State.releaseOne_eq]
    cases sends <;> cases hb : meterBody e.2 <;> cases hp : portOutput e.2 <;> simp [hb, hp]

/-- A release sends what was withheld of the paces that go, once. -/
theorem State.releaseThose_eq (s : State) (sends : Bool) (go : Nat → Bool) : ∃ t, s.releaseThose sends go = t ∧
    t.pair = { s.pair with held := s.pair.held.filter fun e => !go e.1 } ∧
    t.ing = { s.ing with toMeter := s.ing.toMeter ++ (s.pair.held.filter fun e => go e.1).filterMap fun e => meterBody e.2 } ∧
    t.out = s.out ++ (if sends = true then (s.pair.held.filter fun e => go e.1).filterMap fun e => portOutput e.2 else []) ∧
    t = { s with pair := t.pair, ing := t.ing, out := t.out } :=
  ⟨_, State.releaseList_eq sends _ _, rfl, rfl, rfl, rfl⟩

/-! ### The link goes down (R386, R405) -/

theorem State.linkUp_of_keys {s : State} (h : s.pair.keys = none) : s.linkUp = false := by
  rw [State.linkUp, h]
  rfl

theorem State.paired_of_pair (s : State) (q r : PairState) (l : List (FieldRef × Nat)) :
    ({ s with pair := q } : State).paired r l = s.paired r l := rfl

theorem State.paired_nil (s : State) (q : PairState) : { s with pair := q } = s.paired q [] := rfl

/-- What the pair keeps once its link is down. -/
def State.lostLink (s : State) : PairState := { s.pair with
  keys := none, tagFails := [], downAt := if s.roleNow == 1 && s.syncNow == 2 then some s.now else s.pair.downAt }

theorem State.pairLinkDown_cases (s : State) : s.pairLinkDown =
    if s.syncNow = 0 ∨ s.syncNow = 3 then s.paired s.lostLink []
    else if s.roleNow == 1 && s.syncNow == 2 then s.paired s.lostLink [(F.PAIR_STAT.SYNC, 0), (F.PAIR_STAT.PROTECTED, 0)]
    else (s.paired { s.lostLink with mismatch := none } [(F.PAIR_STAT.SYNC, 0), (F.PAIR_STAT.PROTECTED, 0)]).releaseThose
      (s.roleNow == 2) fun _ => true := by
  have hlost : s.keysLost = { s with pair := s.lostLink } := rfl
  have hrole : ({ s with pair := s.lostLink } : State).roleNow = s.roleNow := rfl
  rw [State.pairLinkDown_eq, hlost, State.outOfStep_eq, State.paired_of_pair, hrole, State.paired_shown, State.paired_nil,
    State.paired_pair]
  rfl

theorem State.pairLinkDown_spec (s : State) (hs : Inv s) : ∃ t : State, s.pairLinkDown = t ∧ t.pair.keys = none ∧
    t.linkUp = false ∧ t.roleNow = s.roleNow ∧
    (s.syncNow = 0 ∨ s.syncNow = 3 → t = { s with pair := { s.pair with keys := none, tagFails := [] } }) ∧
    (s.syncNow = 2 → s.roleNow = 1 → t.syncNow = 0 ∧ t.fld F.PAIR_STAT.PROTECTED = 0 ∧
      t.pair = { s.pair with keys := none, tagFails := [], downAt := some s.now } ∧
      OnlyRegs [R.PAIR_STAT] s t ∧ t = { s with regs := t.regs, pair := t.pair }) ∧
    (s.syncNow ≠ 0 → s.syncNow ≠ 3 → (s.syncNow ≠ 2 ∨ s.roleNow ≠ 1) → ∃ u : State,
      t = u.releaseThose (s.roleNow == 2) (fun _ => true) ∧ u.syncNow = 0 ∧ u.fld F.PAIR_STAT.PROTECTED = 0 ∧
      u.pair = { s.pair with keys := none, tagFails := [], mismatch := none } ∧
      OnlyRegs [R.PAIR_STAT] s u ∧ u = { s with regs := u.regs, pair := u.pair }) := by
  obtain ⟨-, hL, hrole, -⟩ := roleRefs_apart
  have haddr : ∀ e ∈ [(F.PAIR_STAT.SYNC, 0), (F.PAIR_STAT.PROTECTED, 0)], e.1.addr ∈ [R.PAIR_STAT] := by
    simp [F.PAIR_STAT.SYNC, F.PAIR_STAT.PROTECTED]
  rw [State.pairLinkDown_cases]
  by_cases hout : s.syncNow = 0 ∨ s.syncNow = 3
  · rw [if_pos hout]
    have hlost : s.lostLink = { s.pair with keys := none, tagFails := [] } := by
      rw [State.lostLink, if_neg]
      rcases hout with h | h <;> simp [h]
    refine ⟨_, rfl, rfl, State.linkUp_of_keys rfl, rfl, fun _ => ?_, fun h => by omega, fun h0 h3 => by omega⟩
    rw [hlost, ← State.paired_nil]
  · rw [if_neg hout]
    by_cases hstep : s.roleNow = 1 ∧ s.syncNow = 2
    · have hlost : s.lostLink = { s.pair with keys := none, tagFails := [], downAt := some s.now } := by
        rw [State.lostLink, if_pos (by simp [hstep])]
      rw [if_pos (by simp [hstep]), hlost]
      refine ⟨_, rfl, ?_, State.linkUp_of_keys ?_, State.fld_paired_other hs hrole rfl, fun h => absurd h hout, fun _ _ =>
        ⟨State.fld_paired hs hL rfl (.head _), State.fld_paired hs hL rfl (.tail _ (.head _)), State.paired_pair ..,
          State.paired_onlyRegs s _ _ haddr, State.paired_frame ..⟩, fun _ _ h => by omega⟩
      all_goals rw [State.paired_pair]
    · have hlost : s.lostLink = { s.pair with keys := none, tagFails := [] } := by
        rw [State.lostLink, if_neg (by simpa using hstep)]
      rw [if_neg (by simpa using hstep), hlost]
      have hsync : (s.paired { s.pair with keys := none, tagFails := [], mismatch := none }
        [(F.PAIR_STAT.SYNC, 0), (F.PAIR_STAT.PROTECTED, 0)]).syncNow = 0 := State.fld_paired hs hL rfl (.head _)
      have hprot : (s.paired { s.pair with keys := none, tagFails := [], mismatch := none }
        [(F.PAIR_STAT.SYNC, 0), (F.PAIR_STAT.PROTECTED, 0)]).fld F.PAIR_STAT.PROTECTED = 0 :=
        State.fld_paired hs hL rfl (.tail _ (.head _))
      have hrl : (s.paired { s.pair with keys := none, tagFails := [], mismatch := none }
        [(F.PAIR_STAT.SYNC, 0), (F.PAIR_STAT.PROTECTED, 0)]).fld F.PAIR_STAT.ROLE = s.fld F.PAIR_STAT.ROLE :=
        State.fld_paired_other hs hrole rfl
      have hpair := State.paired_pair s { s.pair with keys := none, tagFails := [], mismatch := none }
        [(F.PAIR_STAT.SYNC, 0), (F.PAIR_STAT.PROTECTED, 0)]
      have hregs := State.paired_onlyRegs s { s.pair with keys := none, tagFails := [], mismatch := none } _ haddr
      have hframe := State.paired_frame s { s.pair with keys := none, tagFails := [], mismatch := none }
        [(F.PAIR_STAT.SYNC, 0), (F.PAIR_STAT.PROTECTED, 0)]
      generalize s.paired { s.pair with keys := none, tagFails := [], mismatch := none }
        [(F.PAIR_STAT.SYNC, 0), (F.PAIR_STAT.PROTECTED, 0)] = u at hsync hprot hrl hpair hregs hframe ⊢
      obtain ⟨t, ht, htp, htf⟩ := State.releaseThose_spec u (s.roleNow == 2) fun _ => true
      have htk : t.pair.keys = none := by rw [htp, hpair]
      refine ⟨t, ht, htk, State.linkUp_of_keys htk, ?_, fun h => absurd h hout, fun h2 h1 => absurd ⟨h1, h2⟩ hstep,
        fun _ _ _ => ⟨u, ht.symm, hsync, hprot, hpair, hregs, hframe⟩⟩
      rw [htf]
      exact hrl

end Sys2Proof.Machine

/-! The lanes of the pair and the start of its link (R386, R389). -/

namespace Sys2Proof.Machine

set_option Elab.async false

/-! ### Lanes (R386) -/

theorem State.pairLinkDown_of_tagFails (s : State) (l : List Nat) :
    ({ s with pair := { s.pair with tagFails := l } } : State).pairLinkDown = s.pairLinkDown := by
  rw [State.pairLinkDown_cases, State.pairLinkDown_cases]
  have hlost : ({ s with pair := { s.pair with tagFails := l } } : State).lostLink = s.lostLink := rfl
  have hrole : ({ s with pair := { s.pair with tagFails := l } } : State).roleNow = s.roleNow := rfl
  have hsync : ({ s with pair := { s.pair with tagFails := l } } : State).syncNow = s.syncNow := rfl
  rw [hlost, hrole, hsync]
  simp only [State.paired_of_pair s { s.pair with tagFails := l }]

section
variable {lane : Nat} {up : Bool} {s : State} (hp : s.pairPlan.isSome = true) (hlane : lane < 2)
include hp hlane

theorem laneChange_taken : ¬((s.pairPlan.isNone : Prop) ∨ 2 ≤ lane) := by
  rw [Option.isNone_iff_eq_none]
  rintro (h | h)
  · rw [h] at hp
    cases hp
  · omega

theorem exec_laneChange_tagFailed : exec (.laneChange lane up true) s = .next (
    if 16 ≤ (s.pair.tagFails.filter fun p => decide (s.now < p + 1000)).length + 1 then s.pairLinkDown
    else { s with pair := { s.pair with tagFails := s.now :: s.pair.tagFails.filter fun p => decide (s.now < p + 1000) } }) := by
  rw [← s.pairLinkDown_of_tagFails (s.now :: s.pair.tagFails.filter fun p => decide (s.now < p + 1000))]
  exact (if_neg (laneChange_taken hp hlane) : execLaneChange lane up true s = _)

/-- A lane that changes, with the fields that show it. -/
def State.laneMoved (s : State) (f g c : FieldRef) (b : Bool) : State := (((s.flag f b).flag g b).bump c).post Ev.PAIR_LINK []

theorem exec_laneChange_eq {f : FieldRef} (hf : f = if lane = 0 then F.PAIR_STAT.LANE0 else F.PAIR_STAT.LANE1) :
    exec (.laneChange lane up false) s = .next (if (s.fld f == 1) = up then s else
      if (s.laneMoved f (F.PRT_ROLE.UP (8 + lane)) F.PAIR_LINK_CNT.COUNT up).fld F.PAIR_STAT.LANE0 = 0 ∧
        (s.laneMoved f (F.PRT_ROLE.UP (8 + lane)) F.PAIR_LINK_CNT.COUNT up).fld F.PAIR_STAT.LANE1 = 0 then
        (s.laneMoved f (F.PRT_ROLE.UP (8 + lane)) F.PAIR_LINK_CNT.COUNT up).pairLinkDown
      else s.laneMoved f (F.PRT_ROLE.UP (8 + lane)) F.PAIR_LINK_CNT.COUNT up) := by
  rw [show exec (.laneChange lane up false) s = execLaneChange lane up false s from rfl, execLaneChange,
    if_neg (laneChange_taken hp hlane), if_neg Bool.false_ne_true, ← hf]
  by_cases h : (s.fld f == 1) = up
  · rw [if_pos h, if_pos h]
  · rw [if_neg h, if_neg h]
    rfl

end

section
variable {s : State} {f g c : FieldRef}

theorem State.laneMoved_eq (b : Bool) : s.laneMoved f g c b = (s.post Ev.PAIR_LINK []).fieldsSet
    [(f, if b then 1 else 0), (g, if b then 1 else 0),
      (c, min ((s.fieldsSet [(f, if b then 1 else 0), (g, if b then 1 else 0)]).fld c + 1) (2 ^ (c.hi - c.lo + 1) - 1))] := rfl

theorem flagBit_toNat (b : Bool) : (if b then 1 else 0) % 2 ^ 1 = b.toNat := by cases b <;> rfl

/-- A lane that changes is shown, counted and recorded. -/
theorem State.laneMoved_spec (hs : Inv s) (b : Bool) (hL : fieldsApart [f, g, c] = true) (hc : fieldsApart [c, f, g] = true)
    (hf1 : f.hi - f.lo = 0) (hg1 : g.hi - g.lo = 0) (hc32 : c.hi - c.lo = 31) :
    (s.laneMoved f g c b).fld f = b.toNat ∧ (s.laneMoved f g c b).fld g = b.toNat ∧
    (s.laneMoved f g c b).fld c = min (s.fld c + 1) (2 ^ 32 - 1) ∧
    OnlyRegs [f.addr, g.addr, c.addr] s (s.laneMoved f g c b) ∧
    s.laneMoved f g c b = { s.post Ev.PAIR_LINK [] with regs := (s.laneMoved f g c b).regs } := by
  have hcount : (s.fieldsSet [(f, if b then 1 else 0), (g, if b then 1 else 0)]).fld c = s.fld c :=
    State.fld_of_setFields_other (s.fieldsSet_regs _) hs hc rfl
  rw [State.laneMoved_eq, hcount]
  have hv : Inv (s.post Ev.PAIR_LINK []) := hs
  have hregs : OnlyRegs [f.addr, g.addr, c.addr] s (s.post Ev.PAIR_LINK []) := (OnlyRegs.refl _ s).post _ _
  generalize s.post Ev.PAIR_LINK [] = v at hv hregs
  refine ⟨(State.fld_fieldsSet hv hL rfl (.head _)).trans ?_, (State.fld_fieldsSet hv hL rfl (.tail _ (.head _))).trans ?_,
    (State.fld_fieldsSet hv hL rfl (.tail _ (.tail _ (.head _)))).trans ?_,
    OnlyRegs.trans hregs (State.fieldsSet_onlyRegs v _ ?_), State.fieldsSet_frame ..⟩
  · rw [hf1]
    exact flagBit_toNat b
  · rw [hg1]
    exact flagBit_toNat b
  · rw [hc32]
    exact min_mod_two_pow _ 32
  · simp

/-- A field of one bit reads as the flag exactly where the flag is that bit. -/
theorem State.fld_eq_one_iff (hf1 : f.hi - f.lo = 0) (b : Bool) : (s.fld f == 1) = b ↔ s.fld f = b.toNat := by
  have hlt : s.fld f < 2 := by
    have h := fieldOf_lt (s.regs.get f.addr) f.hi f.lo
    rw [hf1] at h
    exact h
  rw [beq_eq_decide]
  cases b
  · simp only [decide_eq_false_iff_not, Bool.toNat_false]
    omega
  · simp

end

theorem lane0Refs_apart : fieldsApart [F.PAIR_STAT.LANE0, F.PRT_ROLE.UP 8, F.PAIR_LINK_CNT.COUNT] = true ∧
    fieldsApart [F.PAIR_LINK_CNT.COUNT, F.PAIR_STAT.LANE0, F.PRT_ROLE.UP 8] = true := by decide +kernel

theorem lane1Refs_apart : fieldsApart [F.PAIR_STAT.LANE1, F.PRT_ROLE.UP 9, F.PAIR_LINK_CNT.COUNT] = true ∧
    fieldsApart [F.PAIR_LINK_CNT.COUNT, F.PAIR_STAT.LANE1, F.PRT_ROLE.UP 9] = true := by decide +kernel

/-- The fields that a lane moves. -/
theorem laneRefs {lane : Nat} (hlane : lane < 2) {f : FieldRef} (hf : f = if lane = 0 then F.PAIR_STAT.LANE0 else F.PAIR_STAT.LANE1) :
    fieldsApart [f, F.PRT_ROLE.UP (8 + lane), F.PAIR_LINK_CNT.COUNT] = true ∧
    fieldsApart [F.PAIR_LINK_CNT.COUNT, f, F.PRT_ROLE.UP (8 + lane)] = true ∧ f.hi - f.lo = 0 ∧ f.addr = R.PAIR_STAT := by
  rcases Nat.eq_zero_or_pos lane with h | h
  · rw [hf, h, if_pos rfl]
    exact ⟨lane0Refs_apart.1, lane0Refs_apart.2, rfl, rfl⟩
  · rw [hf, if_neg h.ne', show lane = 1 by omega]
    exact ⟨lane1Refs_apart.1, lane1Refs_apart.2, rfl, rfl⟩

/-- A lane that goes up or down (R386). -/
theorem exec_laneChange_spec {lane : Nat} {s : State} (hs : Inv s) (hp : s.pairPlan.isSome = true) (hlane : lane < 2) (up : Bool)
    (f : FieldRef) (hf : f = if lane = 0 then F.PAIR_STAT.LANE0 else F.PAIR_STAT.LANE1) :
      (s.fld f = up.toNat → exec (.laneChange lane up false) s = .next s) ∧
      (s.fld f ≠ up.toNat → ∃ u, exec (.laneChange lane up false) s =
          .next (if u.fld F.PAIR_STAT.LANE0 = 0 ∧ u.fld F.PAIR_STAT.LANE1 = 0 then u.pairLinkDown else u) ∧
        u.fld f = up.toNat ∧ u.fld (F.PRT_ROLE.UP (8 + lane)) = up.toNat ∧
        u.fld F.PAIR_LINK_CNT.COUNT = min (s.fld F.PAIR_LINK_CNT.COUNT + 1) (2 ^ 32 - 1) ∧
        OnlyRegs [R.PAIR_STAT, R.PRT_ROLE (8 + lane), R.PAIR_LINK_CNT] s u ∧
        u = { s.post Ev.PAIR_LINK [] with regs := u.regs }) := by
  obtain ⟨hL, hc, hf1, haddr⟩ := laneRefs hlane hf
  have hiff := State.fld_eq_one_iff (s := s) hf1 up
  rw [exec_laneChange_eq hp hlane hf]
  refine ⟨fun h => by rw [if_pos (hiff.mpr h)], fun h => ⟨_, by rw [if_neg fun hn => h (hiff.mp hn)], ?_⟩⟩
  have hspec := State.laneMoved_spec hs up hL hc hf1 rfl rfl
  rw [haddr] at hspec
  exact hspec

/-! ### The link comes up (R386, R389) -/

section
variable {peer : PairPeer} {s : State}

theorem exec_pairLinkUp_idle (h : s.pairPlan = none ∨ s.memberNo = none ∨ s.pair.keys.isSome = true ∨
      s.keysReady = false ∨ (s.fld F.PAIR_STAT.LANE0 = 0 ∧ s.fld F.PAIR_STAT.LANE1 = 0)) :
    exec (.pairLinkUp peer) s = .next s := by
  show execPairLinkUp peer s = _
  unfold execPairLinkUp
  cases hp : s.pairPlan with
  | none => rfl
  | some p =>
    cases hm : s.memberNo with
    | none => rfl
    | some m =>
      refine if_pos ?_
      rcases h with h | h | h | h | ⟨h0, h1⟩
      · rw [hp] at h
        cases h
      · rw [hm] at h
        cases h
      · simp [h]
      · simp [h]
      · simp [h0, h1]

/-- What the partner's statement comes to, once the hello `u` is sent. -/
def State.linkAnswer (s : State) (peer : PairPeer) (p : PairPlan) (m : Nat) (nonce : List Byte) (u : State) :
    Host.Outcome State Fault Refusal :=
  if !peer.refOk then .next (u.post Ev.PAIR_REF [])
  else if !peer.verifies || p.idents[1 - m]? != some (sha256 peer.hssPub) then
    .next (u.post Ev.PAIR_PARTNER [b8 (shortIdent (sha256 peer.hssPub) : Nat)])
  else match ecdh (linkPrivate s.enrol) (ecPoint peer.linkPub) with
    | none => .next (u.post Ev.PAIR_PARTNER [b8 (shortIdent (sha256 peer.hssPub) : Nat)])
    | some z => .next { u with pair := { u.pair with
        keys := some (if m = 0 then laneKeys z nonce peer.nonce else laneKeys z peer.nonce nonce), downAt := none } }

theorem exec_pairLinkUp_eq {p : PairPlan} {m : Nat} (hp : s.pairPlan = some p) (hm : s.memberNo = some m)
    (hlanes : s.fld F.PAIR_STAT.LANE0 = 1 ∨ s.fld F.PAIR_STAT.LANE1 = 1) (hk : s.pair.keys = none) (hr : s.keysReady = true) :
    ∃ (u : State) (nonce : List Byte), nonce = beBytes 16 (Config.free s.drawn) ∧
      u = s.drawLocal.send (.pairHello s.identityStatement nonce) ∧
      (peer.refOk = false → exec (.pairLinkUp peer) s = .next (u.post Ev.PAIR_REF [])) ∧
      (peer.refOk = true → exec (.pairLinkUp peer) s = .next (
        match (if peer.verifies = true ∧ p.idents[1 - m]? = some (sha256 peer.hssPub) then
          ecdh (linkPrivate s.enrol) (ecPoint peer.linkPub) else none) with
        | none => u.post Ev.PAIR_PARTNER [b8 (shortIdent (sha256 peer.hssPub) : Nat)]
        | some z => { u with pair := { u.pair with downAt := none, keys := some (
            if m = 0 then laneKeys z nonce peer.nonce else laneKeys z peer.nonce nonce) } })) := by
  have hgo : ¬(!(s.fld F.PAIR_STAT.LANE0 == 1 || s.fld F.PAIR_STAT.LANE1 == 1) || s.pair.keys.isSome || !s.keysReady) = true := by
    rw [hk, hr]
    rcases hlanes with h | h <;> simp [h]
  have hmodel : execPairLinkUp peer s = s.linkAnswer peer p m (beBytes 16 (Config.free s.drawn))
      (s.drawLocal.send (.pairHello s.identityStatement (beBytes 16 (Config.free s.drawn)))) := by
    unfold execPairLinkUp
    rw [hp, hm]
    exact if_neg hgo
  refine ⟨_, _, rfl, rfl, ?_⟩
  show (_ → execPairLinkUp peer s = _) ∧ (_ → execPairLinkUp peer s = _)
  rw [hmodel]
  generalize s.drawLocal.send (.pairHello s.identityStatement (beBytes 16 (Config.free s.drawn))) = u
  unfold State.linkAnswer
  refine ⟨fun href => by rw [href]; rfl, fun href => ?_⟩
  rw [href]
  refine (if_neg Bool.false_ne_true).trans ?_
  by_cases hv : peer.verifies = true ∧ p.idents[1 - m]? = some (sha256 peer.hssPub)
  · refine (if_neg (by simp [hv])).trans ?_
    rw [if_pos hv]
    cases ecdh (linkPrivate s.enrol) (ecPoint peer.linkPub) <;> rfl
  · refine (if_pos ?_).trans ?_
    · simpa [imp_iff_not_or] using hv
    · rw [if_neg hv]

end

end Sys2Proof.Machine

/-! The roles of the pair: after a reset, at a takeover, when two actives meet, and at a handover (R385, R388, R403 to R408). -/

namespace Sys2Proof.Machine

set_option Elab.async false

/-! ### After a reset (R385, R403) -/

section
variable (s : State) (l k : List (FieldRef × Nat))

theorem State.fieldsSet_paired (q : PairState) : (s.fieldsSet l).paired q k = s.paired q (l ++ k) := by
  rw [State.paired, State.fieldsSet_regs, ← RegFile.setFields_append]
  rfl

theorem State.flag_eq_fieldsSet (f : FieldRef) (b : Bool) : s.flag f b = s.fieldsSet [(f, if b then 1 else 0)] := rfl

/-- A flag shown, a role taken, and what was noted of it. -/
theorem State.noted_eq_fieldsSet (f g : FieldRef) (b : Bool) (v c : Nat) (p : Payload) :
    ((s.flag f b).setF g v).post c p = (s.post c p).fieldsSet [(f, if b then 1 else 0), (g, v)] := rfl

end

theorem actInRefs_apart : fieldsApart [F.PAIR_STAT.ACT_IN] = true ∧ fieldsApart [F.PAIR_STAT.ROLE, F.PAIR_STAT.ACT_IN] = true ∧
    fieldsApart [F.PAIR_STAT.ACT_IN, F.PAIR_STAT.ROLE] = true ∧
    fieldsApart [F.PAIR_STAT.ACT_IN, F.PAIR_STAT.ROLE, F.PAIR_STAT.SYNC] = true := by decide +kernel

theorem State.showActIn_addr (b v w : Nat) :
    ∀ e ∈ [(F.PAIR_STAT.ACT_IN, b), (F.PAIR_STAT.ROLE, v), (F.PAIR_STAT.SYNC, w)], e.1.addr ∈ [R.PAIR_STAT] := by
  simp [F.PAIR_STAT.ACT_IN, F.PAIR_STAT.ROLE, F.PAIR_STAT.SYNC]

section
variable {actIn : Bool} {p : PairPlan} {s : State} (hp : s.pairPlan = some p)
include hp

theorem exec_roleDecision_taken (hr : s.roleNow ≠ 0) : exec (.roleDecision actIn) s = .next (s.flag F.PAIR_STAT.ACT_IN actIn) := by
  show execRoleDecision actIn s = _
  unfold execRoleDecision
  rw [hp]
  exact if_pos hr

variable (hr : s.roleNow = 0)
include hr

theorem exec_roleDecision_unnamed (hm : s.memberNo = none) : exec (.roleDecision actIn) s =
    .next (((s.flag F.PAIR_STAT.ACT_IN actIn).setF F.PAIR_STAT.ROLE 3).post Ev.PAIR_PARTNER [b8 (shortIdent s.identity : Nat)]) := by
  show execRoleDecision actIn s = _
  unfold execRoleDecision
  rw [hp, hm]
  exact if_neg (not_not.mpr hr)

theorem exec_roleDecision_named {m w : Nat} (hm : s.memberNo = some m) (hw : w = s.pair.roleFrom + p.startWait +
    (if s.pair.wasStandby then 1000 else 0) + (if m = 1 ∧ p.prefer0 = true then 1000 else 0)) :
    exec (.roleDecision actIn) s = .next (if actIn then (s.flag F.PAIR_STAT.ACT_IN actIn).becomeStandby
      else if w ≤ s.now then (((s.flag F.PAIR_STAT.ACT_IN actIn).becomeActive false).setF F.PAIR_STAT.SYNC 0).pairNotice
      else s.flag F.PAIR_STAT.ACT_IN actIn) := by
  show execRoleDecision actIn s = _
  unfold execRoleDecision
  rw [hp, hm, hw]
  refine (if_neg (not_not.mpr hr)).trans ?_
  rw [Nat.add_assoc, Nat.add_assoc, ← Nat.add_assoc p.startWait]
  cases actIn
  · exact (apply_ite Host.Outcome.next _ _ _).symm
  · rfl

end

/-- A member that becomes active after its wait. -/
theorem State.activeAfterWait_spec {s : State} (hs : Inv s) (actIn : Bool) : ∃ u,
    ((s.flag F.PAIR_STAT.ACT_IN actIn).becomeActive false).setF F.PAIR_STAT.SYNC 0 = u ∧ u.roleNow = 2 ∧
      u.syncNow = 0 ∧ u.pair.actOut = true ∧ u.pair.shared = true ∧ u.pair.byTakeover = false ∧
      OnlyRegs [R.PAIR_STAT] s u ∧ u = { s with regs := u.regs, pair := u.pair } := by
  obtain ⟨-, -, -, hL⟩ := actInRefs_apart
  rw [State.flag_eq_fieldsSet, State.becomeActive_eq, State.fieldsSet_paired, State.fieldsSet_one, State.paired_fieldsSet]
  refine ⟨_, rfl, State.fld_paired hs hL rfl (.tail _ (.head _)), State.fld_paired hs hL rfl (.tail _ (.tail _ (.head _))), ?_, ?_, ?_,
    State.paired_onlyRegs s _ _ (State.showActIn_addr _ _ _), State.paired_frame ..⟩
  all_goals rw [State.paired_pair]

/-- The role that a member takes after a reset. -/
theorem exec_roleDecision_spec (actIn : Bool) (p : PairPlan) (s : State) (hs : Inv s) (hp : s.pairPlan = some p) :
    ∃ v, v.fld F.PAIR_STAT.ACT_IN = actIn.toNat ∧ v.roleNow = s.roleNow ∧ OnlyRegs [R.PAIR_STAT] s v ∧
      v = { s with regs := v.regs } ∧
      (s.roleNow ≠ 0 → exec (.roleDecision actIn) s = .next v) ∧
      (s.roleNow = 0 → s.memberNo = none →
        ∃ u : State, exec (.roleDecision actIn) s = .next u ∧ u.roleNow = 3 ∧ u.fld F.PAIR_STAT.ACT_IN = actIn.toNat ∧
          OnlyRegs [R.PAIR_STAT] s u ∧
          u = { s.post Ev.PAIR_PARTNER [b8 (shortIdent s.identity : Nat)] with regs := u.regs }) ∧
      (∀ m w, s.roleNow = 0 → s.memberNo = some m → w = s.pair.roleFrom + p.startWait +
          (if s.pair.wasStandby then 1000 else 0) + (if m = 1 ∧ p.prefer0 = true then 1000 else 0) →
        (actIn = true → exec (.roleDecision actIn) s = .next v.becomeStandby) ∧
        (actIn = false → s.now < w → exec (.roleDecision actIn) s = .next v) ∧
        (actIn = false → w ≤ s.now → ∃ u, exec (.roleDecision actIn) s = .next u.pairNotice ∧ u.roleNow = 2 ∧
          u.syncNow = 0 ∧ u.pair.actOut = true ∧ u.pair.shared = true ∧ u.pair.byTakeover = false ∧
          OnlyRegs [R.PAIR_STAT] s u ∧ u = { s with regs := u.regs, pair := u.pair })) := by
  obtain ⟨hact, hrole, hboth, -⟩ := actInRefs_apart
  have haddr : ∀ e ∈ [(F.PAIR_STAT.ACT_IN, if actIn then 1 else 0)], e.1.addr ∈ [R.PAIR_STAT] := by simp [F.PAIR_STAT.ACT_IN]
  refine ⟨s.flag F.PAIR_STAT.ACT_IN actIn, ?_, ?_, ?_, ?_, exec_roleDecision_taken hp, fun hr hm => ?_, fun m w hr hm hw => ?_⟩
  · rw [State.flag_eq_fieldsSet]
    exact (State.fld_fieldsSet hs hact rfl (.head _)).trans (flagBit_toNat actIn)
  · rw [State.flag_eq_fieldsSet]
    exact State.fld_of_setFields_other (s.fieldsSet_regs _) hs hrole rfl
  · rw [State.flag_eq_fieldsSet]
    exact State.fieldsSet_onlyRegs s _ haddr
  · rw [State.flag_eq_fieldsSet]
    exact State.fieldsSet_frame ..
  · rw [exec_roleDecision_unnamed hp hr hm, State.noted_eq_fieldsSet]
    have hv : Inv (s.post Ev.PAIR_PARTNER [b8 (shortIdent s.identity : Nat)]) := hs
    have hregs : OnlyRegs [R.PAIR_STAT] s (s.post Ev.PAIR_PARTNER [b8 (shortIdent s.identity : Nat)]) := (OnlyRegs.refl _ s).post _ _
    generalize s.post Ev.PAIR_PARTNER [b8 (shortIdent s.identity : Nat)] = v at hv hregs
    refine ⟨_, rfl, State.fld_fieldsSet hv hboth rfl (.tail _ (.head _)),
      (State.fld_fieldsSet hv hboth rfl (.head _)).trans (flagBit_toNat actIn),
      OnlyRegs.trans hregs (State.fieldsSet_onlyRegs v _ ?_), State.fieldsSet_frame ..⟩
    simp [F.PAIR_STAT.ACT_IN, F.PAIR_STAT.ROLE]
  · rw [exec_roleDecision_named hp hr hm hw]
    refine ⟨fun h => by rw [if_pos h], fun h hlt => by rw [if_neg (by rw [h]; decide), if_neg (by omega)], fun h hle => ?_⟩
    obtain ⟨u, hu, hspec⟩ := State.activeAfterWait_spec hs actIn
    exact ⟨u, by rw [if_neg (by rw [h]; decide), if_pos hle, hu], hspec⟩

/-! ### Standby, and out of service (R385, R401) -/

theorem State.becomeStandby_eq (s : State) : s.becomeStandby = s.paired { s.pair with
    actOut := false, shared := false, byTakeover := false, resync := none, stored := [], missed := 0, downAt := none }
    [(F.PAIR_STAT.ROLE, 1), (F.PAIR_STAT.SYNC, if s.linkUp then 1 else 0)] := State.paired_two ..

theorem roleSync_apart : fieldsApart [F.PAIR_STAT.ROLE, F.PAIR_STAT.SYNC] = true ∧
    fieldsApart [F.PAIR_DUAL_CNT.COUNT, F.PAIR_STAT.ROLE, F.PAIR_STAT.SYNC] = true := by decide +kernel

theorem syncBit_mod (b : Bool) : (if b then 1 else 0) % 2 ^ (F.PAIR_STAT.SYNC.hi - F.PAIR_STAT.SYNC.lo + 1) = if b then 1 else 0 := by
  cases b <;> rfl

theorem State.becomeStandby_spec {s : State} (hs : Inv s) : ∃ t, s.becomeStandby = t ∧ t.roleNow = 1 ∧
      t.syncNow = (if s.linkUp then 1 else 0) ∧ t.pair.actOut = false ∧
      t.pair.shared = false ∧ t.pair.byTakeover = false ∧ t.pair.stored = [] ∧ t.pair.resync = none ∧
      t.pair.downAt = none ∧ OnlyRegs [R.PAIR_STAT] s t ∧ t = { s with regs := t.regs, pair := t.pair } := by
  obtain ⟨hL, -⟩ := roleSync_apart
  rw [State.becomeStandby_eq]
  refine ⟨_, rfl, State.fld_paired hs hL rfl (.head _), (State.fld_paired hs hL rfl (.tail _ (.head _))).trans (syncBit_mod _),
    ?_, ?_, ?_, ?_, ?_, ?_, State.paired_onlyRegs s _ _ ?_, State.paired_frame ..⟩
  case refine_7 => simp [F.PAIR_STAT.ROLE, F.PAIR_STAT.SYNC]
  all_goals rw [State.paired_pair]

theorem State.outWith_eq (s : State) (sync prot role : FieldRef) : s.outWith sync prot role = s.paired { s.pair with
    actOut := false, shared := false, held := [], mismatch := none, downAt := none, leaving := 0 }
    [(sync, 0), (prot, 0), (role, 3)] := rfl

theorem State.becomeOut_spec {s : State} (hs : Inv s) : ∃ t u : State, s.becomeOut = t ∧ u = (s.failLocal true).closeSessions ∧
      t.roleNow = 3 ∧ t.syncNow = 0 ∧ t.fld F.PAIR_STAT.PROTECTED = 0 ∧ t.pair = { u.pair with
        actOut := false, shared := false, held := [], mismatch := none, downAt := none, leaving := 0 } ∧
      (∀ c, (t.ctx c).session = none ∧ (t.ctx c).handshake = none) ∧ OnlyRegs [R.PAIR_STAT] u t ∧
      t = { u with regs := t.regs, pair := t.pair } := by
  obtain ⟨hrole, hsync, hprot⟩ := State.becomeOut_shown hs
  have hctx := State.becomeOut_ctx s
  rw [State.becomeOut_eq, State.outWith_eq] at *
  refine ⟨_, _, rfl, rfl, hrole, hsync, hprot, State.paired_pair .., hctx, State.paired_onlyRegs _ _ _ ?_, State.paired_frame ..⟩
  simp [F.PAIR_STAT.ROLE, F.PAIR_STAT.SYNC, F.PAIR_STAT.PROTECTED]

/-- Where no member-local command runs, none fails. -/
theorem State.failLocal_of_none {mine : Bool} {s : State} (h : ∀ e ∈ s.host.tasks, e.2.here = mine → memberLocal e.2.opcode = false) :
    s.failLocal mine = s := by
  unfold State.failLocal
  generalize s.host.tasks = l at h
  induction l with
  | nil => rfl
  | cons e l ih =>
    rw [List.foldl_cons, if_neg]
    · exact ih fun x hx => h x (.tail _ hx)
    · rw [Bool.and_eq_true, beq_iff_eq]
      rintro ⟨hmine, hlocal⟩
      rw [h e (.head _) hmine] at hlocal
      cases hlocal

theorem exec_deadman_eq (s : State) : exec .deadman s = .next { s with pair := { s.pair with
    missedOwn := s.pair.missedOwn + 1
    actOut := s.pair.actOut && decide (s.pair.missedOwn = 0)
    shared := s.pair.shared && decide (s.pair.missedOwn ≤ 1) } } := by
  have hact : decide (s.pair.missedOwn = 0) = decide (s.pair.missedOwn + 1 < 2) := decide_eq_decide.mpr (by omega)
  have hshared : decide (s.pair.missedOwn ≤ 1) = decide (s.pair.missedOwn + 1 < 3) := decide_eq_decide.mpr (by omega)
  rw [hact, hshared]
  rfl

end Sys2Proof.Machine

/-! Takeovers, the yield of a second active, handovers, and the statement of the pair's link and roles (R404 to R408). -/

namespace Sys2Proof.Machine

set_option Elab.async false

/-! ### Takeover (R404, R405, R407) -/

/-- Whether the standby lacks the entry of pace p. -/
def State.lacks (s : State) (p : Nat) : Bool := match s.pair.executed with | some e => decide (e < p) | none => true

theorem State.lacks_iff (s : State) (p : Nat) : s.lacks p = true ↔ ∀ e, s.pair.executed = some e → e < p := by
  unfold State.lacks
  cases s.pair.executed <;> simp

theorem State.canTakeOver_iff (s : State) : s.canTakeOver = true ↔ s.syncNow = 2 ∨ ∃ p, s.pair.downAt = some p ∧ s.now ≤ p + 8 := by
  unfold State.canTakeOver
  cases s.pair.downAt <;> simp

/-- The pair of a standby that takes over. -/
def State.takenPair (s : State) : PairState := { s.pair with
  actOut := true, shared := true, byTakeover := true, missed := 0, inputs := [], ownSamples := []
  mismatch := none, downAt := none
  samples := s.pair.samples ++ (s.pair.ownSamples.filter fun e => s.lacks e.1).map fun e => e.2 }

/-- A standby that takes over. -/
def State.taken (s : State) (role sync prot : FieldRef) : State :=
  let s1 := ((({ s with pair := { s.pair with actOut := true, shared := true, byTakeover := true, missed := 0 } } : State).setF
    role 2).setF sync 0).flag prot false
  { s1 with pair := { s1.pair with
    inputs := [], ownSamples := [], mismatch := none, downAt := none
    samples := s1.pair.samples ++ (s.pair.ownSamples.filter fun e => s.lacks e.1).map fun e => e.2 } }

theorem State.taken_eq (s : State) (role sync prot : FieldRef) :
    s.taken role sync prot = s.paired s.takenPair [(role, 2), (sync, 0), (prot, 0)] := rfl

/-- What is done once a standby has taken over. -/
def State.afterTakeover (v : State) : State :=
  ((((v.failLocal false).releaseAll.resendNotices.endHandover).bump F.PAIR_SWITCH_CNT.COUNT).post Ev.PAIR_TAKEOVER []).pairNotice

theorem exec_takeover_eq (s : State) : exec .takeover s = .next (
    if s.roleNow = 1 ∧ s.canTakeOver = true ∧ 2 ≤ s.pair.missed then
      ((s.pair.inputs.filter fun e => s.lacks e.1).foldl (fun (t : State) e => t.acceptFrameIn e.2)
        (s.taken F.PAIR_STAT.ROLE F.PAIR_STAT.SYNC F.PAIR_STAT.PROTECTED)).afterTakeover
    else s) := by
  show execTakeover s = _
  unfold execTakeover
  by_cases h : s.roleNow = 1 ∧ s.canTakeOver = true ∧ 2 ≤ s.pair.missed
  · rw [if_pos h, if_pos h]
    rfl
  · rw [if_neg h, if_neg h]

theorem exec_takeover_idle {s : State} (h : s.roleNow ≠ 1 ∨ s.pair.missed < 2 ∨
    (s.syncNow ≠ 2 ∧ ∀ p, s.pair.downAt = some p → p + 8 < s.now)) : exec .takeover s = .next s := by
  rw [exec_takeover_eq, if_neg]
  rintro ⟨hr, hcan, hmissed⟩
  rcases h with h | h | ⟨hsync, hdown⟩
  · exact h hr
  · omega
  · rcases s.canTakeOver_iff.mp hcan with h2 | ⟨p, hp, hle⟩
    · exact hsync h2
    · exact absurd (hdown p hp) (by omega)

theorem exec_takeover_spec {s : State} (hs : Inv s) (hr : s.roleNow = 1)
    (hcan : s.syncNow = 2 ∨ ∃ p, s.pair.downAt = some p ∧ s.now ≤ p + 8) (hmissed : 2 ≤ s.pair.missed) :
      ∃ (u v : State) (lacks : Nat → Bool), (∀ p, lacks p = true ↔ ∀ e, s.pair.executed = some e → e < p) ∧
        u.roleNow = 2 ∧ u.syncNow = 0 ∧ u.fld F.PAIR_STAT.PROTECTED = 0 ∧ u.pair = { s.pair with
          actOut := true, shared := true, byTakeover := true, missed := 0, inputs := [], ownSamples := []
          mismatch := none, downAt := none
          samples := s.pair.samples ++ (s.pair.ownSamples.filter fun e => lacks e.1).map fun e => e.2 } ∧
        OnlyRegs [R.PAIR_STAT] s u ∧ u = { s with regs := u.regs, pair := u.pair } ∧
        v = (s.pair.inputs.filter fun e => lacks e.1).foldl (fun (t : State) e => t.acceptFrameIn e.2) u ∧
        exec .takeover s = .next ((((v.failLocal false).releaseAll.resendNotices.endHandover).bump
          F.PAIR_SWITCH_CNT.COUNT).post Ev.PAIR_TAKEOVER []).pairNotice := by
  obtain ⟨-, -, hL, -⟩ := roleRefs_apart
  rw [exec_takeover_eq, if_pos ⟨hr, s.canTakeOver_iff.mpr hcan, hmissed⟩, State.taken_eq]
  refine ⟨s.paired s.takenPair [(F.PAIR_STAT.ROLE, 2), (F.PAIR_STAT.SYNC, 0), (F.PAIR_STAT.PROTECTED, 0)], _, s.lacks,
    s.lacks_iff, State.fld_paired hs hL rfl (.head _), State.fld_paired hs hL rfl (.tail _ (.head _)),
    State.fld_paired hs hL rfl (.tail _ (.tail _ (.head _))), State.paired_pair .., State.paired_onlyRegs s _ _ ?_,
    State.paired_frame .., rfl, by rw [State.afterTakeover]⟩
  simp [F.PAIR_STAT.ROLE, F.PAIR_STAT.SYNC, F.PAIR_STAT.PROTECTED]

/-! ### Two actives that meet (R408) -/

/-- A member that yields, with the fields that show it. -/
def State.yielded (v : State) (sync dual cnt : FieldRef) : State :=
  (((v.setF sync 0).flag dual false).bump cnt).post Ev.PAIR_DUAL []

theorem State.yielded_eq (v : State) (sync dual cnt : FieldRef) : v.yielded sync dual cnt = (v.post Ev.PAIR_DUAL []).fieldsSet
    [(sync, 0), (dual, 0), (cnt, min ((v.fieldsSet [(sync, 0), (dual, 0)]).fld cnt + 1) (2 ^ (cnt.hi - cnt.lo + 1) - 1))] := rfl

theorem dualRefs_apart : fieldsApart [F.PAIR_STAT.SYNC, F.PAIR_STAT.DUAL, F.PAIR_DUAL_CNT.COUNT] = true ∧
    fieldsApart [F.PAIR_DUAL_CNT.COUNT, F.PAIR_STAT.SYNC, F.PAIR_STAT.DUAL] = true ∧
    fieldsApart [F.PAIR_STAT.ROLE, F.PAIR_STAT.SYNC, F.PAIR_STAT.DUAL, F.PAIR_DUAL_CNT.COUNT] = true := by decide +kernel

theorem State.yielded_spec {v : State} (hv : Inv v) : ∃ t, v.yielded F.PAIR_STAT.SYNC F.PAIR_STAT.DUAL F.PAIR_DUAL_CNT.COUNT = t ∧
    t.roleNow = v.roleNow ∧ t.syncNow = 0 ∧ t.fld F.PAIR_STAT.DUAL = 0 ∧
    t.fld F.PAIR_DUAL_CNT.COUNT = min (v.fld F.PAIR_DUAL_CNT.COUNT + 1) (2 ^ 32 - 1) ∧
    OnlyRegs [R.PAIR_STAT, R.PAIR_DUAL_CNT] v t ∧ t = { v.post Ev.PAIR_DUAL [] with regs := t.regs } := by
  obtain ⟨hL, hcnt, hrole⟩ := dualRefs_apart
  have hcount : (v.fieldsSet [(F.PAIR_STAT.SYNC, 0), (F.PAIR_STAT.DUAL, 0)]).fld F.PAIR_DUAL_CNT.COUNT =
      v.fld F.PAIR_DUAL_CNT.COUNT := State.fld_of_setFields_other (v.fieldsSet_regs _) hv hcnt rfl
  have hw : Inv (v.post Ev.PAIR_DUAL []) := hv
  have hregs : OnlyRegs [R.PAIR_STAT, R.PAIR_DUAL_CNT] v (v.post Ev.PAIR_DUAL []) := (OnlyRegs.refl _ v).post _ _
  have hfrole : (v.post Ev.PAIR_DUAL []).fld F.PAIR_STAT.ROLE = v.fld F.PAIR_STAT.ROLE := rfl
  rw [State.yielded_eq, hcount]
  generalize v.post Ev.PAIR_DUAL [] = w at hw hregs hfrole
  refine ⟨_, rfl, (State.fld_of_setFields_other (w.fieldsSet_regs _) hw hrole rfl).trans hfrole,
    State.fld_fieldsSet hw hL rfl (.head _), State.fld_fieldsSet hw hL rfl (.tail _ (.head _)),
    (State.fld_fieldsSet hw hL rfl (.tail _ (.tail _ (.head _)))).trans (min_mod_two_pow _ 32),
    OnlyRegs.trans hregs (State.fieldsSet_onlyRegs w _ ?_), State.fieldsSet_frame ..⟩
  simp [F.PAIR_STAT.SYNC, F.PAIR_STAT.DUAL, F.PAIR_DUAL_CNT.COUNT]

theorem State.becomeStandby_duals {s : State} (hs : Inv s) :
    s.becomeStandby.fld F.PAIR_DUAL_CNT.COUNT = s.fld F.PAIR_DUAL_CNT.COUNT := by
  rw [State.becomeStandby_eq]
  exact State.fld_paired_other hs roleSync_apart.2 rfl

theorem exec_dualYield_eq (s : State) : exec .dualYield s = .next (
    if s.roleNow = 2 ∧ s.pair.byTakeover = true ∧ (!s.linkUp) = true ∧ 4 ≤ s.pair.actHigh then
      s.becomeStandby.yielded F.PAIR_STAT.SYNC F.PAIR_STAT.DUAL F.PAIR_DUAL_CNT.COUNT
    else s) := (apply_ite Host.Outcome.next _ _ _).symm

theorem exec_dualYield_idle {s : State} (h : s.roleNow ≠ 2 ∨ s.pair.byTakeover = false ∨ s.linkUp = true ∨ s.pair.actHigh < 4) :
    exec .dualYield s = .next s := by
  rw [exec_dualYield_eq, if_neg]
  rintro ⟨hr, hby, hl, hhigh⟩
  rcases h with h | h | h | h
  · exact h hr
  · rw [h] at hby
    cases hby
  · rw [h] at hl
    cases hl
  · omega

theorem exec_dualYield_spec {s : State} (hs : Inv s) (hr : s.roleNow = 2) (hby : s.pair.byTakeover = true) (hl : s.linkUp = false)
    (hhigh : 4 ≤ s.pair.actHigh) : ∃ t, exec .dualYield s = .next t ∧ t.roleNow = 1 ∧ t.syncNow = 0 ∧ t.fld F.PAIR_STAT.DUAL = 0 ∧
        t.pair.actOut = false ∧ t.pair.shared = false ∧
        t.fld F.PAIR_DUAL_CNT.COUNT = min (s.fld F.PAIR_DUAL_CNT.COUNT + 1) (2 ^ 32 - 1) ∧
        OnlyRegs [R.PAIR_STAT, R.PAIR_DUAL_CNT] s t ∧ t = { s.post Ev.PAIR_DUAL [] with regs := t.regs, pair := t.pair } := by
  have hcount := State.becomeStandby_duals hs
  obtain ⟨v, hv, hrole, -, hact, hshared, -, -, -, -, hregs, hframe⟩ := State.becomeStandby_spec hs
  have hvi : Inv v := hv ▸ (State.becomeStandby_keeps (Keeps.refl s)).regs hs
  rw [exec_dualYield_eq, if_pos ⟨hr, hby, by rw [hl]; rfl, hhigh⟩]
  rw [hv] at hcount ⊢
  obtain ⟨t, ht, htrole, htsync, htdual, htcount, htregs, htframe⟩ := State.yielded_spec hvi
  have hpair : t.pair = v.pair := (congrArg State.pair htframe :)
  refine ⟨t, by rw [ht], htrole.trans hrole, htsync, htdual, by rw [hpair, hact], by rw [hpair, hshared], by rw [htcount, hcount],
    OnlyRegs.trans (hregs.mono (by simp)) htregs, ?_⟩
  have hpost := congrArg (fun z : State => ({ z.post Ev.PAIR_DUAL [] with regs := t.regs } : State)) hframe
  rw [hpair]
  exact htframe.trans hpost

/-! ### Leaving service, and handovers (R387, R406) -/

section
variable {s : State} {who : Requester} (hs : Inv s) (hm : MayWrite s who R.PAIR_CTL)
include hs hm

theorem exec_leave_noRole (hr : s.roleNow = 0) : exec (.leave who) s = .next (s.send (.regCause who R.PAIR_CTL Cause.OK)) := by
  rw [exec_leave_eq hs hm, State.leaveService, if_pos hr]

theorem exec_leave_alone (hr : s.roleNow ≠ 0) (hcan : s.canHandOver = false) :
    exec (.leave who) s = .next (s.becomeOut.send (.regCause who R.PAIR_CTL Cause.OK)) := by
  rw [exec_leave_eq hs hm, State.leaveService, if_neg hr, if_neg (by rw [hcan]; decide)]

theorem exec_leave_handsOver (hcan : s.canHandOver = true) :
    exec (.leave who) s = .next (s.handoverPair.becomeOut.send (.regCause who R.PAIR_CTL Cause.OK)) := by
  have hr : s.roleNow ≠ 0 := by
    intro h
    rw [State.canHandOver, h] at hcan
    cases hcan
  rw [exec_leave_eq hs hm, State.leaveService, if_neg hr, if_pos hcan]

end

theorem State.ledgering_of_canHandOver {s : State} (h : s.canHandOver = true) : s.ledgering = true := by
  rw [State.canHandOver, Bool.and_eq_true, Bool.and_eq_true] at h
  obtain ⟨⟨hr, h2⟩, -⟩ := h
  rw [State.ledgering, Bool.and_eq_true, Bool.or_eq_true]
  exact ⟨hr, .inr h2⟩

/-- The last entry of an active that hands over. -/
def State.lastEntry (s : State) : LedgerEntry :=
  ⟨true, s.syncNow == 1 && s.pair.resync.isNone, s.now - 1, s.pair.entry ++ [.handover], true⟩

/-- The pair of an active that has handed over. -/
def State.handedPair (s : State) : PairState :=
  { s.pair with entry := [], actOut := false, shared := false, byTakeover := false, executed := some s.now }

/-- An active that has handed over, with the fields that show its last entry and its role. -/
def State.handedOver (s : State) (kib : Nat) (f g h : FieldRef) : State := { s with
  ledger := s.ledger ++ [s.lastEntry]
  pair := s.handedPair
  regs := s.regs.setFields [(f, kib), (g, max kib (s.fld g)), (h, 1)] }

section
variable (s : State) (kib : Nat) (f g h : FieldRef)

theorem State.handedOver_regs :
    (s.handedOver kib f g h).regs = s.regs.setFields [(f, kib), (g, max kib (s.fld g)), (h, 1)] := rfl

theorem State.handedOver_pair : (s.handedOver kib f g h).pair = s.handedPair := rfl

theorem State.handedOver_ledger : (s.handedOver kib f g h).ledger = s.ledger ++ [s.lastEntry] := rfl

theorem State.handedOver_frame : s.handedOver kib f g h = { s with
    regs := (s.handedOver kib f g h).regs, pair := (s.handedOver kib f g h).pair, ledger := (s.handedOver kib f g h).ledger } := rfl

end

/-- The entry of an active closed, with the fields that show it. -/
def State.closed (s : State) (e : LedgerEntry) (kib : Nat) (f g : FieldRef) : State := { s with
  ledger := s.ledger ++ [e]
  pair := { s.pair with entry := [] }
  regs := (s.regs.setF f kib).setF g (max kib (s.fld g)) }

theorem State.closed_handedOver (s : State) (kib : Nat) (f g h : FieldRef) :
    ({ s.closed s.lastEntry kib f g with pair := { (s.closed s.lastEntry kib f g).pair with
      actOut := false, shared := false, byTakeover := false, executed := some s.now } } : State).setF h 1 =
      s.handedOver kib f g h := rfl

theorem State.closed_record (s : State) (e : LedgerEntry) (l : List LedgerRecord) (kib : Nat) (f g : FieldRef) :
    ({ s with pair := { s.pair with entry := l } } : State).closed e kib f g = s.closed e kib f g := rfl

theorem State.closeEntry_eq {s : State} (h : s.ledgering = true) : s.closeEntry true = s.closed
    ⟨true, s.syncNow == 1 && s.pair.resync.isNone, s.now - 1, s.pair.entry, true⟩
    (min 512 (Config.ledgerKib (s.now - 1) s.pair.entry.length)) F.PAIR_LEDGER.LAST_KIB F.PAIR_LEDGER.PEAK_KIB := if_pos h

theorem State.handoverPair_eq {s : State} (h : s.canHandOver = true) : ∃ kib, s.handoverPair =
    s.handedOver kib F.PAIR_LEDGER.LAST_KIB F.PAIR_LEDGER.PEAK_KIB F.PAIR_STAT.ROLE := by
  have hl := State.ledgering_of_canHandOver h
  have hl' : ({ s with pair := { s.pair with entry := s.pair.entry ++ [.handover] } } : State).ledgering = true := hl
  rw [State.handoverPair, State.record, if_pos hl, State.closeEntry_eq hl', State.closed_record]
  exact ⟨_, State.closed_handedOver ..⟩

theorem handoverRefs_apart : fieldsApart [F.PAIR_LEDGER.LAST_KIB, F.PAIR_LEDGER.PEAK_KIB, F.PAIR_STAT.ROLE] = true := by decide +kernel

theorem State.handoverPair_spec {s : State} (hs : Inv s) (h : s.canHandOver = true) : ∃ t e, s.handoverPair = t ∧ t.roleNow = 1 ∧
    t.pair.actOut = false ∧
    t.pair.shared = false ∧ t.pair.entry = [] ∧ t.pair.executed = some s.now ∧ t.ledger = s.ledger ++ [e] ∧
    e.last = true ∧ e.crcOk = true ∧ e.pace = s.now - 1 ∧ e.records = s.pair.entry ++ [.handover] ∧
    OnlyRegs [R.PAIR_STAT, R.PAIR_LEDGER] s t ∧ t = { s with regs := t.regs, pair := t.pair, ledger := t.ledger } := by
  obtain ⟨kib, hkib⟩ := State.handoverPair_eq h
  rw [hkib]
  have hregs := s.handedOver_regs kib F.PAIR_LEDGER.LAST_KIB F.PAIR_LEDGER.PEAK_KIB F.PAIR_STAT.ROLE
  have hpair := s.handedOver_pair kib F.PAIR_LEDGER.LAST_KIB F.PAIR_LEDGER.PEAK_KIB F.PAIR_STAT.ROLE
  refine ⟨_, s.lastEntry, rfl, State.fld_of_setFields hregs hs handoverRefs_apart rfl (.tail _ (.tail _ (.head _))),
    congrArg PairState.actOut hpair, congrArg PairState.shared hpair, congrArg PairState.entry hpair,
    congrArg PairState.executed hpair, State.handedOver_ledger .., rfl, rfl, rfl, rfl, State.onlyRegs_of_setFields hregs ?_,
    State.handedOver_frame ..⟩
  simp [F.PAIR_LEDGER.LAST_KIB, F.PAIR_LEDGER.PEAK_KIB, F.PAIR_STAT.ROLE]

/-! ### The statement -/

/-- Settles O53: one lemma for each command of the pair's link and roles. -/
theorem pairLinkAndRolesFollowTheirRules : Obligations.PairLinkAndRolesFollowTheirRules := by
  refine ⟨State.pairLinkDown_spec, fun sends go s => ?_, fun lane s hs hp hlane => ⟨?_, exec_laneChange_spec hs hp hlane⟩,
    fun peer p m s => exec_pairLinkUp_eq, fun peer s => exec_pairLinkUp_idle, exec_roleDecision_spec,
    fun s hs => ⟨State.becomeStandby_spec hs, State.becomeOut_spec hs⟩, fun mine s => State.failLocal_of_none, exec_deadman_eq,
    fun s hs => ⟨exec_takeover_idle, exec_takeover_spec hs⟩, fun s hs => ⟨exec_dualYield_idle, exec_dualYield_spec hs⟩,
    fun who s hs hm => ⟨exec_leave_noRole hs hm, exec_leave_alone hs hm, exec_leave_handsOver hs hm⟩,
    fun s hs => State.handoverPair_spec hs⟩
  · exact s.releaseThose_eq sends go
  · intro up n hn
    rw [exec_laneChange_tagFailed hp hlane, ← hn]
    exact ⟨fun h => by rw [if_neg (by omega)], fun h => by rw [if_pos h]⟩

end Sys2Proof.Machine
